-- ==== Sys2Proof/Word.lean ====
section
/-!
DEFINITION. The word types of the DVN1224 (spec/03_register_access.md, R95): 32-bit register words, bytes, 64-bit values
that stand in two words (R141).
-/

namespace Sys2Proof

/-- One 32-bit register, packet or bank word (R95, R162). -/
abbrev Word := BitVec 32

/-- One byte of a memory window. -/
abbrev Byte := BitVec 8

/-- A 64-bit value such as SYSTIME or a sample index (R141). -/
abbrev Word64 := BitVec 64

end Sys2Proof
end

