-- ==== Sys2Proof/Syntax.lean ====
section
/-!
DEFINITION. The commands of the DVN1224: one constructor per row of spec/opcode_table.json. A host command packet carries
a Packet; an access over the host link carries its interface, address and word; an event of the device or its pins names
the unit it happens to and carries what the surroundings of the device supply (a measurement, a received frame, a task's
computed block, a detector's verdict).
-/

namespace Sys2Proof

/-- The interface a register access comes from: the host link or the debug port (spec/03_register_access.md, R140). -/
inductive Iface where
  | host
  | debug
  deriving DecidableEq, Repr

/-- A command packet (spec/04_command_protocol.md, R162): the ring it stands in and its words, the opcode being the row's. -/
structure Packet where
  ring1   : Bool
  auth    : Bool
  noreply : Bool
  urgent  : Bool
  force   : Bool
  cseq    : BitVec 16
  eack    : BitVec 16
  payload : List Word
  tag     : List Word
  crc     : Word
  deriving DecidableEq, Repr

/-- How an SPI frame ends (spec/03_register_access.md, R103 to R112). Of a frame whose words came as commands of their own: whole,
malformed or shorter than four bytes, within a write word, or before the marker of a read word. Or a frame as a whole: the
bytes on MOSI from the fall of CS_N to its rise, how many read words got their marker, and whether CS_N rose before the marker of
one more. -/
inductive FrameEnd where
  | whole
  | malformed
  | partialWrite (addr : BitVec 24)
  | aborted (addr : BitVec 24)
  | bytes (mosi : List Byte) (words : Nat) (cut : Bool)
  deriving DecidableEq, Repr

/-- What STOP or a repeated START ends on I2C (spec/03_register_access.md, R113 to R117): a run of words that came as commands of
their own, with the address of a partial write word; or a transaction as a whole, from its first byte after START: a write with the
bytes that follow, a read of a number of words. -/
inductive I2cEnd where
  | words (partialAt : Option (BitVec 24))
  | write (head : Byte) (data : List Byte)
  | read (head : Byte) (words : Nat)
  deriving DecidableEq, Repr

/-- A sample with its 8-bit tag (spec/05_streams_ports.md, R195): bit 0 VALID, 1 CLIP, 2 DISC, 3 FILL, 4 PROV, 5 TADP,
6 SRC_INV. -/
structure Sample where
  val : Word
  tag : BitVec 8
  deriving DecidableEq, Repr, Inhabited

/-- A subframe as the S/PDIF receiver finds it (spec/05_streams_ports.md, R244, R245, R247): the 24-bit audio field, the validity
bit, the channel-status bit, and whether its parity fails. -/
structure Subframe where
  audio  : BitVec 24
  valid  : Bool
  status : Bool
  perr   : Bool
  deriving DecidableEq, Repr, Inhabited

/-- What the surroundings give a stream for one frame (spec/05_streams_ports.md, R199, R208): the samples of a source that
no state of the device holds (a port, a microphone, a converter), or the values of the ASRC output where the stream converts its
rate, with CLIP where the output itself saturates; how many source frames the ASRC took for them; per channel the tags of the
other input samples within the filter span; and the frames that the S/PDIF receiver took in since it last reported. -/
structure FrameIn where
  samples : List Sample
  taken   : Nat
  span    : List (List (BitVec 8))
  rx      : List (Subframe × Subframe)
  deriving DecidableEq, Repr

/-- Why an ASYNC stream loses lock (spec/05_streams_ports.md, R255): a jump of the ratio, a source without a frame for four periods,
a ratio outside R252. -/
inductive UnlockWhy where
  | jump
  | stalled
  | range
  deriving DecidableEq, Repr

/-- An ASRC that locks (spec/05_streams_ports.md, R254, R255): its stream, the ratio that an ASYNC one tracks in units of 2^-28, and whether
the lock comes within 10 ms of the source's return. -/
structure AsrcLocked where
  sid   : Fin 128
  ratio : Word
  early : Bool
  deriving DecidableEq, Repr

/-- An ASRC that loses lock (spec/05_streams_ports.md, R255): its stream, and why. -/
structure AsrcLost where
  sid : Fin 128
  why : UnlockWhy
  deriving DecidableEq, Repr

/-- What a task hands to an output port for one sample (spec/06_engines_leap.md, R264, R265): a word in Q1.31, an accumulator read out,
with the products entered into what it held before, or a single-precision float. -/
inductive PortValue where
  | fixed (w : Word)
  | acc (start : BitVec 72) (products : List (Word × Word))
  | float (w : Word)
  deriving DecidableEq, Repr

/-- What a task computed for one of its output ports in a block (spec/06_engines_leap.md, R264 to R268): whether it declared
the port its own (__tag_own), and the values, frame by frame, with the tags it wrote (bit 1 CLIP where an earlier read-out saturated). -/
structure PortOut where
  task    : Nat
  port    : Nat
  own     : Bool
  samples : List (PortValue × BitVec 8)
  deriving DecidableEq, Repr

/-- An access of a task to the engine's map by byte address (spec/06_engines_leap.md, R266): a load, a store, a tag written, and the
atomics, whose old value lands in a scalar register. -/
inductive EngOp where
  | load (a : Nat)
  | store (a : Nat) (w : Word)
  | tag (a : Nat) (t : BitVec 8)
  | atomAdd (a : Nat) (v : Word) (reg : Fin 32)
  | atomSwap (a : Nat) (v : Word) (reg : Fin 32)
  deriving DecidableEq, Repr

/-- The byte address that an access names. -/
def EngOp.addr : EngOp → Nat
  | .load a => a
  | .store a _ => a
  | .tag a _ => a
  | .atomAdd a _ _ => a
  | .atomSwap a _ _ => a

/-- What an engine computed in a block: the block time in units of 16 SYS cycles, its output ports, its accesses in order with the task
that makes each (R266), its register file (R263), and how many correctable errors its reads met (R280). -/
structure BlockOut where
  units     : Nat
  outs      : List PortOut
  ops       : List (Nat × EngOp)
  core      : List Word
  corrected : Nat
  deriving DecidableEq, Repr

/-- What an ECC read meets in a copied row (spec/07_shared_banks.md, R347): the column, and the bit of a correctable error, none where the
word is uncorrectable. -/
structure CopyErr where
  col : Fin 64
  bit : Option (Fin 39)
  deriving DecidableEq, Repr

/-- A row copy that ends (spec/07_shared_banks.md, R347, R352): its bank, and what the copy's reads met. -/
structure RowCopied where
  bank : Fin 16
  met  : List CopyErr
  deriving DecidableEq, Repr

/-- An ECC error in an engine's memories (spec/06_engines_leap.md, R280, R281): the engine, and whether the scrub corrected the word. -/
structure EngineEcc where
  n         : Fin 8
  corrected : Bool
  deriving DecidableEq, Repr

/-- What the ECC says of a word that the scrubber reads (spec/07_shared_banks.md, R330 to R332): clean, correctable at a bit,
uncorrectable; or a pass that did not finish in 100 ms. -/
inductive ScrubResult where
  | clean
  | correctable (bit : Fin 39)
  | uncorrectable
  | late
  deriving DecidableEq, Repr

/-- The 50 mA self-test of a leg (spec/08_speaker_channels.md, R389): whether one of its switches conducts while off, and the higher
on-resistance of its two switches in µΩ. -/
structure LegTest where
  leaks : Bool
  ron   : Nat
  deriving DecidableEq, Repr

/-- The leg self-tests and node tests of one channel (spec/08_speaker_channels.md, R369, R389): its nodes P and M in mV while a 50 mA source
pulls them up, and while a 50 mA sink pulls them down, PVDD in mV, and the differential voltage in mV with 50 mA driven from P to M. -/
structure ChanTest where
  legP  : LegTest
  legM  : LegTest
  upP   : Nat
  upM   : Nat
  downP : Nat
  downM : Nat
  pvdd  : Nat
  diff  : Nat
  deriving DecidableEq, Repr

/-- The Measure phase of a DC load test (spec/10_load_jack_diagnostics.md, R479, R480): the mean differential voltage in µV, the mean source
current in µA, and whether the compliance limit was met. -/
structure DcReading where
  microvolts : Nat
  microamps  : Nat
  compliance : Bool
  deriving DecidableEq, Repr

/-- What the tap takes in one period (spec/11_inputs_wake.md, R517, R531): the samples of its decimators in rising order of source code, and
the bias outputs that limit their current. -/
structure TapInput where
  samples : List Sample
  limits  : BitVec 2
  deriving DecidableEq, Repr

/-- The duty of a leg, P or M, in two consecutive periods (spec/15_safety.md, R667): measured and predicted, in 1 / 65536 of a period. -/
structure LegDuty where
  legM       : Bool
  measured0  : BitVec 16
  predicted0 : BitVec 16
  measured1  : BitVec 16
  predicted1 : BitVec 16
  deriving DecidableEq, Repr

/-- One sample of a switch's on-resistance (spec/17_service_life.md, R746): the conversions of the AGE input and of ISNS. -/
structure RonCodes where
  age  : BitVec 12
  isns : BitVec 12
  deriving DecidableEq, Repr

/-- How a limited period follows the one before it on its channel (spec/08_speaker_channels.md, R387, R388): the same period,
through its other leg, the very next one, or a later one. -/
inductive TripPeriod where
  | same
  | next
  | later
  deriving DecidableEq, Repr
/-- The clients of the monitoring converters that request conversions (spec/01_architecture.md, R54; spec/13_monitoring_converters.md, R596). -/
inductive MadcClient where
  | protection
  | diagnostics
  | ageing
  deriving DecidableEq, Repr, Inhabited

/-- A request for a conversion: its client, the mux input, the selector behind it (spec/13_monitoring_converters.md, R593, R594, R596). -/
structure MadcReq where
  client : MadcClient
  input  : Fin 24
  sel    : Fin 8
  deriving DecidableEq, Repr, Inhabited

/-- What a sequencer slot gives on one converter (spec/13_monitoring_converters.md, R591, R592, R596 to R598, R601): the input voltage in µV, the SAFE cycles that the
mux had settled for, those since the reference buffer turned on, whether the conversion did not end in time, and the requests that arrived
during the slot. -/
structure MadcConv where
  volts  : Nat
  settle : Nat
  bufOn  : Nat
  late   : Bool
  reqs   : List MadcReq
  deriving DecidableEq, Repr, Inhabited

/-- The voted copies of R669 (spec/15_safety.md), with the channel, slot or pin of each. -/
inductive Voter where
  | attenuation (chan : Fin 12)
  | croaker (slot : Fin 8)
  | muteN
  | alert (pin : Fin 4)
  | commit
  deriving DecidableEq, Repr

/-- An automatic latent-fault test of R694 (spec/15_safety.md). -/
inductive LatentTest where
  | supervisor
  | monitor
  | parity
  | deadline
  | clock (clk : Fin 4)
  | voltage (supply : Fin 5)
  | voter (v : Voter)
  | spareEngine (n : Fin 8)
  | runningEngine (n : Fin 8)
  deriving DecidableEq, Repr

/-- What the device finds between reset and READY (spec/16_security.md, R715): the levels of HOSTSEL, ADDR1 and ADDR0, BOOTSEL, IOV18
and TESTMODE; a count below that of 24.576 MHz (spec/09_clocks.md, R422); bank rows that fail the start-up march, spare
rows of a bank that fail it (bit k spare row k), and banks whose borrow row or address decoder fails (spec/07_shared_banks.md, R342); engines
and MADCs that fail their start-up test; the images in flash slots A and B, none where the flash does not respond; and
VOUT_MODE of the regulator, none where it does not answer (spec/14_power_states.md, R651). -/
structure BootScan where
  hostsel  : Bool
  addr     : BitVec 2
  bootsel  : Bool
  iov18    : Bool
  testmode : Bool
  refCount : Nat
  rows     : List (Fin 16 × Fin 512)
  spares   : List (Fin 16 × BitVec 8)
  banks    : BitVec 16
  engines  : BitVec 8
  madcs    : BitVec 2
  slotA    : Option (List Word)
  slotB    : Option (List Word)
  vout     : Option (BitVec 8)
  deriving DecidableEq, Repr


/-- The commands, one per row of spec/opcode_table.json. -/
inductive Instr where
  /-- NOP (R173). Command that advances the ring's CSEQ series and delivers the host's EACK. -/
  | nop (p : Packet)
  /-- STATE_SYNC (R172). Command that reports sequence numbers, CFGGEN, digest, pending list and journals without being counted in either series. -/
  | stateSync (p : Packet)
  /-- JOURNAL_READ (R188). Command that returns one stored reply or event entry from the journal. -/
  | journalRead (p : Packet)
  /-- SYS_INFO (R192). Command that returns the device ID, Papol version, rollback counter, lifecycle, graph ID and straps. -/
  | sysInfo (p : Packet)
  /-- EVENT_CFG (R186). Command that sets the event repost interval. -/
  | eventCfg (p : Packet)
  /-- LOOP_PIN (R193). Command that freezes or releases a non-protective adaptive loop. -/
  | loopPin (p : Packet)
  /-- SYS_RESET (R194). Authenticated command that stops every output and then resets the device. -/
  | sysReset (p : Packet)
  /-- SYS_RESET_EXECUTE (R194). Once the last output is Off after SYS_RESET, the device resets as for RESET_N. -/
  | sysResetExecute
  /-- STREAM_OPEN (R204). Command that checks and creates a stream context between a source and a destination. -/
  | streamOpen (p : Packet)
  /-- STREAM_CLOSE (R219). Command that stops a stream at its next frame boundary and frees its claims. -/
  | streamClose (p : Packet)
  /-- STREAM_CLOSE_FORCE (R220). STREAM_CLOSE with FORCE, which aborts the stream at once and frees its claims. -/
  | streamCloseForce (p : Packet)
  /-- STREAM_CLOSE_DONE (R219). A pending close completes at the destination's next frame boundary or after 100 ms. -/
  | streamCloseDone (sid : Fin 128)
  /-- STREAM_STATUS (R222). Command that captures the eight context words of a stream, optionally clearing its status bits and counters. -/
  | streamStatus (p : Packet)
  /-- STREAM_FRAME (R208). A stream moves one frame per frame period of its destination, marking underruns, overruns and invalid samples. -/
  | streamFrame (sid : Fin 128) (frame : FrameIn)
  /-- PORT_CFG (R239). Command that checks and writes the format, clock and bus images of a TDM port. -/
  | portCfg (p : Packet)
  /-- PORT_ENABLE (R240). Command that enables or disables a TDM port or an S/PDIF receiver or transmitter. -/
  | portEnable (p : Packet)
  /-- PORT_FRAME_FOUND (R240). A pending port enable completes at the first frame boundary or after 100 ms. -/
  | portFrameFound (port : Fin 4)
  /-- TDM_FRAME (R232). A TDM frame is received, and its length is judged against SLOTS × SLOTW. -/
  | tdmFrame (port : Fin 2) (bclks : Nat) (rate : Nat)
  /-- TDM_LOST (R233). No BCLK edge for 8 frame periods clears SYNC and sets LOST. -/
  | tdmLost (port : Fin 2)
  /-- RATEERR (R233). The measured frame rate is off by more than 1 % over 64 frames, so SYNC clears. -/
  | rateerr (port : Fin 2) (rate : Nat)
  /-- TDM_FMT_APPLY (R235). A direct format or clock write to an enabled port applies at the next active FSYNC edge. -/
  | tdmFmtApply (port : Fin 2)
  /-- SPDIF_RX_CFG (R251). Command that configures the S/PDIF receiver. -/
  | spdifRxCfg (p : Packet)
  /-- SPDIF_TX_CFG (R248). Command that configures the S/PDIF transmitter rate, validity handling and idle state. -/
  | spdifTxCfg (p : Packet)
  /-- SPDIF_CS_READ (R247). Command that returns a stored receive or transmit channel-status block. -/
  | spdifCsRead (p : Packet)
  /-- SPDIF_CS_WRITE (R249). Command that sets the transmitted channel-status block from the next block onward. -/
  | spdifCsWrite (p : Packet)
  /-- SPDIF_LOCK (R242). The receiver declares LOCK after 192 correct frames at a supported rate. -/
  | spdifLock (rate : Nat)
  /-- SPDIF_LOST (R243). A preamble loss, a biphase violation or a rate error drops LOCK and sets LOST. -/
  | spdifLost
  /-- SPDIF_CS_BLOCK (R247). At the end of a channel-status block, the receiver stores the block and judges CSCHG: of each subframe channel the
  block's subframes and whether one had a biphase violation. With `sent`, the transmitter's block ends (R249, R251). -/
  | spdifCsBlock (sent : Bool) (framesA framesB : List Subframe) (biphaseA biphaseB : Bool)
  /-- ASRC_CFG (R259). Command that sets the ratio, hold behaviour and tracker bandwidth of a converting stream. -/
  | asrcCfg (p : Packet)
  /-- ASRC_LOCK (R254). An ASRC declares lock after its filter fills or its ratio estimate settles. -/
  | asrcLock (lock : AsrcLocked)
  /-- ASRC_UNLOCK (R255). An ASYNC stream loses lock on a ratio jump, a stalled source or an out-of-range ratio. -/
  | asrcUnlock (loss : AsrcLost)
  /-- GRAPH_LOAD (R271). Command that checks a graph image, verifies its leap margin and places its logical engines. -/
  | graphLoad (p : Packet)
  /-- GRAPH_LOAD_DONE (R310). Every logical engine holds its IMEM image and initial data, so the pending load completes. -/
  | graphLoadDone
  /-- GRAPH_START (R311). Command that arms the graph or starts it at a later tick. -/
  | graphStart (p : Packet)
  /-- GRAPH_STOP (R312). Command that stops the graph, discards uncommitted blocks and optionally unloads it. -/
  | graphStop (p : Packet)
  /-- GRAPH_STOP_DONE (R312). Every bound read point has passed its last committed sample, so the stop completes. -/
  | graphStopDone
  /-- GRAPH_MOLT (R305). Command that checks and stages a replacement graph image. -/
  | graphMolt (p : Packet)
  /-- GRAPH_MOLT_SWAP (R307). At the first tick after staging, the new graph replaces the old one and catches up. -/
  | graphMoltSwap
  /-- GRAPH_PARAM (R284). Command that writes words of a PARAM region, applied at the next tick. -/
  | graphParam (p : Packet)
  /-- SPARE_RESERVE (R314). Command that sets the number of reserved spare engines. -/
  | spareReserve (p : Packet)
  /-- ENGINE_STATUS (R315). Command that captures one engine's status, load, counts and task map. -/
  | engineStatus (p : Packet)
  /-- BLOCK_TICK (R273). The block tick begins a block period, starting engine blocks, gathers, checkpoints and commits. -/
  | blockTick
  /-- CHECKPOINT_SEAL (R282). The checkpoint copy and its CRC complete, and the slot is sealed. -/
  | checkpointSeal (leng : Fin 8) (unreadable : Bool)
  /-- ENGINE_BLOCK_END (R276). An engine ends its block, so late or catching-up output becomes committable. -/
  | engineBlockEnd (leng : Fin 8) (out : BlockOut)
  /-- LEAP_READ (R289). In each Fg period, the read point advances and the committed readers take their samples. -/
  | leapRead (pvdd : Nat × Nat × Nat) (limitL limitR : Bool)
  /-- LOCKSTEP (R280). An engine's comparator finds a mismatch, so the engine halts and the fault passes to the DSP region. -/
  | lockstep (n : Fin 8)
  /-- ENGECC (R280, R281). An uncorrectable IMEM or DMEM error halts the engine and leads to regrow or tail drop; one that the scrub corrects is
  counted. -/
  | engecc (err : EngineEcc)
  /-- ENGPROG (R280). An access outside the engine map, or an illegal instruction, sheds the executing task. -/
  | engprog (n : Fin 8) (task : Fin 128)
  /-- SPARE_LOAD_DONE (R293). The assigned spare holds the IMEM image and the newest sealed slot, so re-gather begins. -/
  | spareLoadDone (leng : Fin 8)
  /-- ENGINE_SELFTEST_DONE (R296). A failed engine's 2 ms self-test ends, and the engine rejoins the pool or is retired. -/
  | engineSelftestDone (n : Fin 8) (persists : Bool)
  /-- INJECT (R309). Guarded write of INJECT that forces a lockstep mismatch at the engine's next compare. -/
  | inject (iface : Iface) (n : Fin 8)
  /-- SCRUB_READ (R332). The scrubber reads a bank word through the ECC and corrects or reports what it finds. -/
  | scrubRead (bank : Fin 16) (row : Fin 512) (col : Fin 64) (res : ScrubResult)
  /-- ROW_REPLACE_DONE (R352). A row-replacement copy ends, and the address map switches to the spare row. -/
  | rowReplaceDone (copy : RowCopied)
  /-- BANK_RETIRE (R357). A bank with RETPEND is retired once nothing uses it. -/
  | bankRetire (bank : Fin 16)
  /-- MARCH_RUN (R349). Command that starts a preserving march test of the named banks. -/
  | marchRun (p : Packet)
  /-- MARCH_RUN_ABORT (R350). MARCH_RUN with ABORT, which ends the borrow under way and the pending test. -/
  | marchRunAbort (p : Packet)
  /-- MARCH_ROW_START (R345). The pacing interval elapses, and the next row's Copy phase begins. -/
  | marchRowStart (met : List CopyErr)
  /-- MARCH_ROW_RELEASE (R346). A borrowed row's test and restore end, and redirection is lifted. -/
  | marchRowRelease (failure : Option (Fin 64 × Fin 64))
  /-- SPK_GROUP_CFG (R413). Command that configures a power group's ramp, pairing, band, loop and thermal settings. -/
  | spkGroupCfg (p : Packet)
  /-- SPK_CHAN_CFG (R414). Command that configures a channel's full scale, impedance, DC threshold, polarity, tracking and fade. -/
  | spkChanCfg (p : Packet)
  /-- SPK_ENABLE (R415). Command that starts the named speaker channels. -/
  | spkEnable (p : Packet)
  /-- SPK_DISABLE (R416). Command that stops the named channels and clears Fault hold. -/
  | spkDisable (p : Packet)
  /-- SPK_LIMIT (R417). Command that sets power limit, time constant and current limit under the fused ceilings. -/
  | spkLimit (p : Packet)
  /-- SPK_RETRY (R418). Command that permits or ends short-circuit retries. -/
  | spkRetry (p : Packet)
  /-- START (R805). Write of START, which starts a channel according to its phase. -/
  | start (iface : Iface) (chan : Fin 12)
  /-- STOP (R805). Write of STOP, which stops a channel or clears its Fault hold. -/
  | stop (iface : Iface) (chan : Fin 12)
  /-- SPK_PENDING_START (R805). A pending start begins Check once PVDD has been in range for 10 ms and the carrier runs. -/
  | spkPendingStart (chan : Fin 12)
  /-- SPK_CHECK_DONE (R369). A channel's Check ends, and Charge begins or the channel enters Fault hold: the tests of the
  channel, and of its slave in a pair. -/
  | spkCheckDone (chan : Fin 12) (tests : ChanTest × ChanTest)
  /-- SPK_CHARGE_DONE (R369). The common-mode ramp reaches 50 % duty, and Lock begins. -/
  | spkChargeDone (chan : Fin 12)
  /-- SPK_LOCK_DONE (R369). The loop has settled, and the channel enters Hold or Unmute. -/
  | spkLockDone (chan : Fin 12)
  /-- SPK_UNMUTE_DONE (R369). The programme gain reaches 1, and the channel plays. -/
  | spkUnmuteDone (chan : Fin 12)
  /-- SPK_MUTE_DONE (R370). The programme gain reaches 0, and the channel enters Hold or Discharge. -/
  | spkMuteDone (chan : Fin 12)
  /-- SPK_DISCHARGE_DONE (R370). The duty reaches 0, and the channel goes Off. -/
  | spkDischargeDone (chan : Fin 12)
  /-- MUTE_N_FALL (R375). MUTE_N reads low, so every playing channel enters Hold. -/
  | muteNFall
  /-- MUTE_N_RISE (R376). MUTE_N rises, so channels in Hold in PLAY run Unmute. -/
  | muteNRise
  /-- ILIM_TRIP (R387). A leg's current comparator trips and ends the conduction interval, giving a limited period. -/
  | ilimTrip (chan : Fin 12) (legM : Bool) (period : TripPeriod)
  /-- SHORT_CLASSIFY (R389). The leg self-test and node tests after SHORT end, and SCLASS is set. -/
  | shortClassify (chan : Fin 12) (own slave : ChanTest)
  /-- RETRY_PULSE (R391). Every 100 ms with RETRY set, a 2 ms retry pulse runs and may clear SHORT: the tests of the channel, and of its slave
  in a pair. -/
  | retryPulse (chan : Fin 12) (limited : Bool) (tests : ChanTest × ChanTest)
  /-- DC_WINDOW (R392). A 5 ms DC-detector window ends, and the measured and commanded averages are compared. -/
  | dcWindow (chan : Fin 12) (measured commanded : Int)
  /-- PVDDUV (R393). PVDD falls below 4.2 V, so the group's channels go Hi-Z. -/
  | pvdduv (g : Fin 3)
  /-- PVDDOV (R393). PVDD exceeds 32 V, so the group's channels go Hi-Z. -/
  | pvddov (g : Fin 3)
  /-- PVDD_RESTART (R393). PVDD has stayed in range for 10 ms, so the enabled channels start again. -/
  | pvddRestart (g : Fin 3)
  /-- THERMAL_SAMPLE (R382). Each 1 ms the group temperature refreshes, and the fold-back attenuation moves. -/
  | thermalSample (g : Fin 3) (t0 t1 t2 t3 : BitVec 8)
  /-- SLICE_DROP (R395). A slice gate monitor trips, and the slice is dropped with the leg re-rated. -/
  | sliceDrop (chan : Fin 12) (legM : Bool) (slice : Fin 4)
  /-- LEG_FAULT (R394). A shoot-through, switch-node, charge-pump or duty-check detector declares a block-level leg fault. -/
  | legFault (chan : Fin 12) (legM : Bool)
  /-- LEG_REGROW_RELEASE (R397). At the node's next period start after Preset, the legs switch again and Settle begins. -/
  | legRegrowRelease (g : Fin 3)
  /-- SPARE_SELFTEST (R398). Every 100 ms, the idle spare leg runs its 50 mA self-test. -/
  | spareSelftest (g : Fin 3) (pass : Bool)
  /-- LEG_SELFTEST_DONE (R400). A failed leg's self-test ends, and HEALED may be set. -/
  | legSelftestDone (g : Fin 3) (node : Fin 8) (pass : Bool)
  /-- XPT_UPDATE (R405). Guarded write of crosspoint UPDATE, which requests transfer of the shadow. -/
  | xptUpdate (iface : Iface) (g : Fin 3)
  /-- XPT_TRANSFER (R405). At the target node's next period, the crosspoint shadow is transferred or discarded. -/
  | xptTransfer (g : Fin 3)
  /-- CROAKER_CFG (R419). Authenticated command that configures a croaker slot. -/
  | croakerCfg (p : Packet)
  /-- CROAKER_PLAY (R420). Command that starts or stops a croaker slot. -/
  | croakerPlay (p : Packet)
  /-- ALERT_RISE (R685). A filtered ALERT pin rises and activates its mapped slots, with AUTOSTART where set. -/
  | alertRise (pin : Fin 4)
  /-- ALERT_FALL (R408). An ALERT pin falls, and its slots end after the cycle under way. -/
  | alertFall (pin : Fin 4)
  /-- CROAKER_SLOT_END (R408). A slot completes its cadence cycle or sample pass and ends, or repeats. -/
  | croakerSlotEnd (slot : Fin 8)
  /-- HPLINE_CFG (R578). Command that sets headphone and line enables, jack mode, fade and volume. -/
  | hplineCfg (p : Packet)
  /-- HP_PUMP_DONE (R573). HPVSS reaches its target, and Release begins. -/
  | hpPumpDone
  /-- HP_RELEASE_DONE (R573). The amplifier has settled, and the output enters Hold or Unmute. -/
  | hpReleaseDone (line : Bool)
  /-- HP_UNMUTE_DONE (R573). The headphone or line gain reaches 1. -/
  | hpUnmuteDone (line : Bool)
  /-- HP_MUTE_DONE (R573). The headphone or line gain reaches 0, and Hold or Short follows. -/
  | hpMuteDone (line : Bool)
  /-- HP_SHORT_DONE (R573). The short closes, and the output goes Off. -/
  | hpShortDone (line : Bool)
  /-- CV_CFG (R589). Command that sets CV channel mode, gain, code, slew and clear code. -/
  | cvCfg (p : Packet)
  /-- CV_TRACK (R590). Command that sets a CV channel's tracking headroom, fall rate, map and limits. -/
  | cvTrack (p : Packet)
  /-- CV_DEGLITCH_END (R582). The 1 µs deglitch hold ends, and the new code reaches the output. -/
  | cvDeglitchEnd (n : Fin 4)
  /-- CLR_N_FALL (R583). CLR_N reads low, so each active CV channel drives its CVCLR code. -/
  | clrNFall
  /-- CLR_N_RISE (R583). CLR_N rises, so each channel slews back toward its target. -/
  | clrNRise
  /-- PLL_CFG (R468). Command that sets the AUDPLL family and the SWPLL frequency, dividers and power. -/
  | pllCfg (p : Packet)
  /-- SWPLL_SET (R469). Command that ramps or steps SWPLL and sets placement holds. -/
  | swpllSet (p : Packet)
  /-- RAMP_LOAD (R470). Command that loads a custom ramp profile slot. -/
  | rampLoad (p : Packet)
  /-- TUNED_FREQ (R471). Command that records the tuned AM or LW frequency and runs placement. -/
  | tunedFreq (p : Packet)
  /-- CHAMELEON_CFG (R472). Command that configures the placement guard, profile, step permission and ramp time. -/
  | chameleonCfg (p : Packet)
  /-- SYNC_CFG (R473). Command that sets the SYNC master, slave or off mode. -/
  | syncCfg (p : Packet)
  /-- SWPLL_UPDATE (R440). Guarded write of the SWPLL UPDATE, which requests transfer of the shadow set. -/
  | swpllUpdate (iface : Iface)
  /-- SWPLL_TRANSFER (R441). At the transfer point, the SWPLL shadow set becomes active as a ramp, a step or an immediate change. -/
  | swpllTransfer
  /-- RAMP_END (R443). A SWPLL ramp reaches its target, completing any move or pending command. -/
  | rampEnd
  /-- PLL_WINDOW (R427). A PLL count window ends, and lock is declared or lost. -/
  | pllWindow (pll : Fin 3) (count : Nat)
  /-- PLL_COAST_EXPIRE (R431). A PLL has coasted 10 ms without relock, so the clock fault goes to chip level. -/
  | pllCoastExpire (pll : Fin 3)
  /-- REF_LOST (R430). No reference edge for 1 µs, so REFLOST sets and every PLL coasts. -/
  | refLost
  /-- REF_RETURN (R429). Reference edges return, and the PLLs re-acquire. -/
  | refReturn
  /-- SYNC_IN_EDGE (R455). A SYNC_IN edge aligns or checks the slave's divider phase. -/
  | syncInEdge (err : Nat) (marked : Bool)
  /-- SYNC_TIMEOUT (R456). No marked pulse within 100 ms, so the slave transfers alone and sets SYNCERR. -/
  | syncTimeout
  /-- AON_XT32_SWITCH (R423). After 1 024 good XT32 cycles, the AON domain switches to the crystal. -/
  | aonXt32Switch
  /-- AONFAIL (R423). XT32 edges are missing for 4 RC periods, so AON returns to the RC. -/
  | aonfail
  /-- LOAD_DC_TEST (R506). Command that starts the DC load test of the named channels. -/
  | loadDcTest (p : Packet)
  /-- LOAD_DC_CHANNEL_DONE (R479). A channel's DC test phases end, and DCRES is stored. -/
  | loadDcChannelDone (own slave : ChanTest) (dc : DcReading)
  /-- LOAD_AC_TEST (R507). Command that starts an offline or online AC impedance test. -/
  | loadAcTest (p : Packet)
  /-- AC_TONE_DONE (R489). An offline tone phase ends, and its impedance is taken. -/
  | acToneDone (mohm : Nat) (centideg : Int)
  /-- AC_WINDOW (R492). An online 100 ms pilot window ends, and is kept or discarded. -/
  | acWindow (chan : Fin 12) (mohm : Nat) (centideg : Int)
  /-- JACK_STATUS (R508). Command that returns the jack status and configuration. -/
  | jackStatus (p : Packet)
  /-- JACK_INSERT (R499). A plug has shown continuously for the debounce time, so insertion is declared. -/
  | jackInsert
  /-- JACK_REMOVE (R499). No plug has shown for 10 ms, so removal is declared. -/
  | jackRemove
  /-- JACK_CLASSIFY (R501). The plug classification after insertion ends, and POLES is set. -/
  | jackClassify (ratio : BitVec 12)
  /-- BUTTON_PRESS (R502). The ratio stays in a button band for 20 ms, so a press is declared. -/
  | buttonPress (ratio : BitVec 12)
  /-- BUTTON_RELEASE (R502). The ratio stays in the microphone band for 20 ms, so a release is declared. -/
  | buttonRelease (ratio : BitVec 12)
  /-- AIN_CFG (R561). Command that configures the named AADCs. -/
  | ainCfg (p : Packet)
  /-- PGA_APPLY (R510). A pending PGA gain applies at a zero crossing or after 10 ms. -/
  | pgaApply (n : Fin 4)
  /-- MICBIAS_CFG (R516). Command that enables, disables or sets the mic bias outputs. -/
  | micbiasCfg (p : Packet)
  /-- MICBIAS_RAMP_DONE (R516). A mic bias ramp reaches its target voltage. -/
  | micbiasRampDone (n : Fin 2)
  /-- PDM_CFG (R562). Command that sets the PDM clocks and microphone enables. -/
  | pdmCfg (p : Packet)
  /-- DECIM_CFG (R563). Command that sets decimator modes and rate and the wake tap. -/
  | decimCfg (p : Packet)
  /-- ZEROISE_DONE (R534). Zeroisation ends, and the gate seals or opens for a pending opening. -/
  | zeroiseDone
  /-- TAP_PERIOD (R533). Each 16 kHz tap period, the writer stores a frame and TIDX advances. -/
  | tapPeriod (tap : TapInput)
  /-- WKD_LOAD (R549). Command that checks and loads a signed wake-detector model. -/
  | wkdLoad (p : Packet)
  /-- WKD_LOAD_DONE (R564). The model copy completes, and the pending load ends. -/
  | wkdLoadDone
  /-- WKD_ENABLE (R550). Command that enables or disables the wake detector. -/
  | wkdEnable (p : Packet)
  /-- WKD_HOP (R544). Each 10 ms hop, the detector computes a score and judges detection. -/
  | wkdHop (score : BitVec 8)
  /-- GATE_TIMEOUT (R539). GATETO expires, and the gate seals. -/
  | gateTimeout
  /-- WAKE_HANDOVER (R553). Command that creates a handover stream from the tadpole buffer into a host ring. -/
  | wakeHandover (p : Packet)
  /-- WAKE_HANDOVER_CLOSE (R557). WAKE_HANDOVER with CLOSE, which seals the gate. -/
  | wakeHandoverClose (p : Packet)
  /-- PTT_CFG (R565). Command that configures PTT_N handling. -/
  | pttCfg (p : Packet)
  /-- PTT_PRESS (R551). PTT_N low for 10 ms declares a press that opens the gate. -/
  | pttPress
  /-- PTT_RELEASE (R552). PTT_N high for 10 ms declares a release, which may seal the gate. -/
  | pttRelease
  /-- MADC_SLOT (R595). A sequencer slot ends on both converters, and its conversions are delivered to their clients. -/
  | madcSlot (convs : MadcConv × MadcConv)
  /-- MADC_ARBITRATE (R604). TDAC arbitration after MADCPLAUS ends and decides which converter has failed. -/
  | madcArbitrate (low0 high0 low1 high1 : Nat)
  /-- MADC_FAILOVER (R607). At the next frame start, the survivor takes the sole-converter plan. -/
  | madcFailover
  /-- MADC_CORE_TEST (R610). Every 100 ms, each converter runs its TDAC core test. -/
  | madcCoreTest (madc : Fin 2) (low high : Nat)
  /-- MREF_CHECK (R602). Every 100 ms, the reference-ready detectors are checked, and fallback mode may be forced. -/
  | mrefCheck (madc : Fin 2) (ok : Bool)
  /-- RESUME (R609). Guarded write of RESUME, which resumes diagnostics and ageing on a sole converter. -/
  | resume (iface : Iface)
  /-- MADC_READ (R614). Command that converts and returns a monitoring input. -/
  | madcRead (p : Packet) (volts : List Nat) (setl refns : Bool)
  /-- TDAC_TEST (R613). Command that runs a core or path test through the TDAC. -/
  | tdacTest (p : Packet) (volts1 volts2 : Nat)
  /-- POWER_STATE (R657). Command that requests a change of power state. -/
  | powerState (p : Packet)
  /-- POWER_STEP_DONE (R619). A step of a power transition completes, and the next step or arrival follows. -/
  | powerStepDone
  /-- BRUMATE_WINDOW_END (R629). The Window phase ends, pads are latched, and logic is power-gated. -/
  | brumateWindowEnd
  /-- BRUMATE_EXIT (R635). A latched wake source starts the exit phases from BRUMATE. -/
  | brumateExit (plug : Bool)
  /-- BRUMATE_ARRIVE (R636). The exit reaches its target state and posts the completion and EVT_POWER. -/
  | brumateArrive
  /-- WAKE_BUS_MATCH (R632). In BRUMATE, the wake-bus address matches, and the wake is latched. -/
  | wakeBusMatch
  /-- GPIO_WAKE (R639). A GPIO wake mode fires, latching a BRUMATE wake or raising EVT_WAKE. -/
  | gpioWake (levels : BitVec 8)
  /-- POWER_PERMIT (R645). Command that sets the first-access power-up mask. -/
  | powerPermit (p : Packet)
  /-- POWER_DOMAIN_ON (R658). Command that powers a domain up. -/
  | powerDomainOn (p : Packet)
  /-- POWER_DOMAIN_OFF (R648). Command that powers a domain down unless it is referenced. -/
  | powerDomainOff (p : Packet)
  /-- POWER_DOMAIN_OFF_FORCE (R649). POWER_DOMAIN_OFF with FORCE, which aborts referring streams and transfers. -/
  | powerDomainOffForce (p : Packet)
  /-- DOMAIN_POWER_DONE (R647). A domain power-up or power-down finishes, completing waiting accesses or commands. -/
  | domainPowerDone (domain : Fin 42)
  /-- SYS_ON_DEMAND (R161). In LISTEN, the SYS clock starts on demand for an access, a packet or an event. -/
  | sysOnDemand
  /-- WAKE_CFG (R659). Command that configures the wake bus, PTT_N wake and GPIO wake modes. -/
  | wakeCfg (p : Packet)
  /-- RELEASE (R641). Guarded write of gecko RELEASE, which releases every held pad group. -/
  | release (iface : Iface)
  /-- REG_ACKNOWLEDGE (R653). REG_PG or STATUS_WORD acknowledges the new voltage. -/
  | regAcknowledge (nack pecErr : Bool)
  /-- REGLINK (R653). No acknowledgement within 2 ms, so fault REGLINK is recorded. -/
  | reglink (nack pecErr : Bool)
  /-- SAFETY_CFG (R695). Authenticated command that writes the safety monitor configuration. -/
  | safetyCfg (p : Packet)
  /-- FAULT_READ (R691). Command that returns a fault record. -/
  | faultRead (p : Packet)
  /-- FAULT_CLEAR (R696). Command that clears LATCHED in fault records. -/
  | faultClear (p : Packet)
  /-- SELFTEST_RUN (R697). Command that runs engine, loop, FAULT_N or automatic self-tests. -/
  | selftestRun (p : Packet)
  /-- SELFTEST_DONE (R697). The requested self-tests end, and EVT_CMD_DONE carries the results. -/
  | selftestDone (fail : BitVec 4) (unit : Fin 12)
  /-- SAFE_RELEASE (R698). Authenticated command that ends a chip safe state. -/
  | safeRelease (p : Packet)
  /-- DEADLINE_EXPIRE (R26). A region deadline timer expires, and the fault is taken to chip level. -/
  | deadlineExpire (region : Fin 5)
  /-- PARITY_SCAN (R132). The parity scanner checks a register's hidden parity. -/
  | parityScan (addr : BitVec 24) (flip : BitVec 33)
  /-- LOUD (R663). Each millisecond, load energy is checked against the loudness ceiling, and Fault hold may follow. -/
  | loud (chan : Fin 12) (i0 i1 i2 i3 : BitVec 12)
  /-- DUTY_CHECK (R667). A leg's duty deviates from the loop model's prediction for two periods, so a leg fault is declared. -/
  | dutyCheck (chan : Fin 12) (duty : LegDuty)
  /-- LOOPMOD (R668). The two loop-model copies disagree, and the model restarts. -/
  | loopmod (chan : Fin 12)
  /-- VOTE (R669). A voted copy disagrees, and it is outvoted or, with no majority, the voter's fault follows. -/
  | vote (voter : Voter)
  /-- ALERTPIN (R664). An ALERT pair reads equal levels for 1 ms, so the alert is taken as active. -/
  | alertpin
  /-- VOICE_STUCK (R665). A voice source fails a stuck or clock check and is tail-dropped or substituted. -/
  | voiceStuck (src : Fin 12) (clock : Bool)
  /-- SMLOCK (R677). The safety monitor cores disagree, and the monitor restarts from ROM. -/
  | smlock
  /-- SMWDOG (R678). The SAFE watchdog expires without service, so reaction O follows. -/
  | smwdog
  /-- FN_LATCH_EXPIRE (R680). The FAULT_N release latch is not refreshed, so FAULT_N goes low. -/
  | fnLatchExpire
  /-- FN_READBACK (R681). Every 64 µs the monitor reads FAULT_N and judges FNPIN or FNEXT. -/
  | fnReadback (high : Bool)
  /-- CLKMON (R682). A clock-monitor window ends, and counts are judged against the PLL ratios. -/
  | clkmon (ref sys aud sw : Nat)
  /-- SAFEOSC (R683). The SAFE oscillator check window ends against the reference. -/
  | safeosc (cycles : Nat)
  /-- VMON (R684). A supply is outside its window for 10 µs, so VMON is recorded. -/
  | vmon (supply : Fin 5) (mV : Nat)
  /-- LATENT_TEST (R694). A periodic latent-fault test of a safety mechanism runs. -/
  | latentTest (test : LatentTest) (pass : Bool)
  /-- SESSION_OPEN (R719). Command that runs ECDH to open an authenticated session. -/
  | sessionOpen (p : Packet)
  /-- SESSION_OPEN_DONE (R720). The session key is ready, and the new session replaces the old at EVT_CMD_DONE. -/
  | sessionOpenDone
  /-- SESSION_CLOSE (R721). Authenticated command that closes the session. -/
  | sessionClose (p : Packet)
  /-- SESSION_IDLE_TIMEOUT (R721). IDLETO elapses without a verified AUTH packet, so the session closes. -/
  | sessionIdleTimeout
  /-- LOCKOUT (R722). The eighth consecutive authentication failure closes the session and starts a lockout. -/
  | lockout
  /-- LOCKOUT_END (R722). A lockout period expires. -/
  | lockoutEnd
  /-- FW_MOLT (R732). Authenticated command that replaces Papol while audio runs. -/
  | fwMolt (p : Packet)
  /-- FW_MOLT_RESUME (R732). The new Papol has read the handover record and posts queued events. -/
  | fwMoltResume
  /-- ATTEST (R731). Command that returns a signed attestation report. -/
  | attest (p : Packet)
  /-- DEBUG_CHALLENGE (R730). Command that returns a fresh debug-unlock NONCE. -/
  | debugChallenge (p : Packet)
  /-- NONCE_EXPIRE (R730). A debug NONCE expires after 60 s. -/
  | nonceExpire
  /-- DEBUG_UNLOCK (R735). Command that opens the debug port on a valid signature. -/
  | debugUnlock (p : Packet)
  /-- EXTEST (R729). The EXTEST instruction holds every leg Hi-Z until RESET_N. -/
  | extest
  /-- FUSE_PROGRAM (R736). Authenticated command that programs and reads back a fuse word. -/
  | fuseProgram (p : Packet)
  /-- LIFECYCLE_ADVANCE (R737). Authenticated command that moves the lifecycle forward from the next reset. -/
  | lifecycleAdvance (p : Packet)
  /-- AGEING_READ (R744). Command that returns ageing registers. -/
  | ageingRead (p : Packet)
  /-- REPLAN (R762). Command that runs or dry-runs an ageing re-plan: of the windows of MEASURE, the counts and the temperatures as in
  RING_OSC_WINDOW. -/
  | replan (p : Packet) (counts : List (List (Nat × Nat))) (temps : List (Int × Int))
  /-- REPLAN_RUN (R750). A scheduled re-plan computes VPLAN, derates, current ceilings and FSWCAP. -/
  | replanRun
  /-- BASK_READ (R763). Command that returns, and optionally clears, a location's bask counters. -/
  | baskRead (p : Packet)
  /-- BASK_TICK (R740). Each 1 ms, each location's bin counter advances. -/
  | baskTick (core : Int)
  /-- RING_OSC_WINDOW (R744). Every 10 s, ring-oscillator pairs are counted and DELTA is updated: per pair the counts of its stressed and its
  reference oscillator, and CORE's temperature in degrees as the window begins and ends. -/
  | ringOscWindow (counts : List (Nat × Nat)) (temp0 temp1 : Int)
  /-- RON_SAMPLE (R746). After 256 accepted samples, a switch's normalised on-resistance is stored: one sample. -/
  | ronSample (chan : Fin 12) (legM high : Bool) (codes : RonCodes)
  /-- REPAIR_STATUS (R760). Command that returns the state of repair. -/
  | repairStatus (p : Packet)
  /-- RESET (R70). A RESET_N low pulse of 10 µs or longer resets the device. -/
  | reset (ns : Nat)
  /-- BOOT (R715). On release by RESET_N and the supply monitors, the device self-tests, fetches, verifies and starts Papol. -/
  | boot (scan : BootScan)
  /-- BOOT_GO (R717). Write of CTL_BOOT_CTRL.GO, which starts verification of a host-supplied image. -/
  | bootGo (iface : Iface) (len : BitVec 18)
  /-- SUPERVISOR_RESTART (R799). Papol runs again after a halt or restart and issues queued events in SYSTIME order. -/
  | supervisorRestart
  /-- REGISTER_WRITE (R126). A host or debug write word to a register with no behaviour of its own is taken and judged. -/
  | registerWrite (iface : Iface) (addr : BitVec 24) (word : Word)
  /-- POSTED_WRITE_LAND (R119). A posted write reaches its register, and PWBUSY clears. -/
  | postedWriteLand (region : Fin 5)
  /-- HOST_UNLOCK (R144). Write of the unlock key, which opens the guard lock for one write. -/
  | hostUnlock (iface : Iface) (key : Word)
  /-- RC_READ (R137). A read of a register with RC fields clears the bits that read as 1. -/
  | rcRead (iface : Iface) (addr : BitVec 24)
  /-- LO_READ (R141). A read of a 64-bit LO word latches its HI half into the two-half shadow. -/
  | loRead (iface : Iface) (addr : BitVec 24)
  /-- SPI_FRAME_END (R107). CS_N rises, discarding a partial write word or aborting a read. -/
  | spiFrameEnd (frame : FrameEnd)
  /-- I2C_STOP (R117). STOP or repeated START arrives, discarding any partial write word. -/
  | i2cStop (ends : I2cEnd)
  /-- RING_ENABLE (R155). Write of a ring ENABLE, which latches the ring geometry or is refused. -/
  | ringEnable (iface : Iface) (n : Fin 32) (word : Word)
  /-- DOORBELL (R157). Write of a ring HIDX, which exposes new packets or consumes replies and events. -/
  | doorbell (iface : Iface) (n : Fin 32) (word : Word)
  /-- RING_RESYNC (R168). A bad length, or a packet left partial for 10 ms, discards the ring. -/
  | ringResync (ring1 : Bool)
  /-- REPLY_WRITE (R159). Space frees in ring 2, and held replies are written. -/
  | replyWrite
  /-- EVENT_WRITE (R185). Space frees in ring 3, and waiting events are written in ESEQ order. -/
  | eventWrite
  /-- EVENT_REPOST (R186). The repost interval expires, and unacknowledged events are written again. -/
  | eventRepost
  /-- SUPLOCK (R670). The supervisor's lockstep comparator finds a mismatch, or an uncorrectable supervisor RAM word is read, so the supervisor halts and the CTL region restarts it from its checkpoint. -/
  | suplock (ecc : Bool)
  /-- SAFETY_MONITOR_RESTART (R677). The safety monitor finishes its restart from ROM after SMLOCK, and FAULT_N again follows R679. -/
  | safetyMonitorRestart
  /-- SUPPLY_MONITOR_RESET (R79). A supply rail leaves its range, and the internal supply monitors hold the device in reset until every rail has been back in range for 2 ms. -/
  | supplyMonitorReset
  /-- PTT_WAKE (R633). In BRUMATE, PTT_N reads low at two consecutive AON edges with PTTWK set, which latches the wake and arms the exit. -/
  | pttWake
  /-- REGROW_SETTLE_END (R397). A leg regrow's Settle phase ends with the output back within its intended waveform, so REPCNT advances, LEVEL returns to 0, EVT_REPAIR is raised, and stops deferred under R402 act. -/
  | regrowSettleEnd (g : Fin 3) (hiz : BitVec 16)
  /-- LOOP_COEFFICIENTS_RELOADED (R413). After a BAND or LOOPBW change, the loop coefficients have been reloaded, and the pending SPK_GROUP_CFG completes with EVT_CMD_DONE. -/
  | loopCoefficientsReloaded (g : Fin 3)
  /-- SYNC_IN_TIMEOUT (R473). A sync slave that has received no SYNC_IN edge within 100 ms of SYNC_CFG sets SYNCERR and keeps its own divider phase. -/
  | syncInTimeout
  /-- ATTEST_DONE (R731). The attestation report and its tag are computed, and EVT_CMD_DONE carries the 24 report words. -/
  | attestDone
  /-- DEBUG_UNLOCK_DONE (R735). Verification of the debug-unlock signature ends, and the port opens with ST_OK or the command ends with ST_AUTH_FAIL. -/
  | debugUnlockDone
  /-- FUSE_PROGRAM_DONE (R736). Programming and read-back of the fuse word end, counters take effect, and EVT_CMD_DONE carries the read-back word. -/
  | fuseProgramDone (missed : Word)
  /-- LIFECYCLE_ADVANCE_DONE (R737). The thermometer bit, and any RMA key-erasing bits, are programmed, LCNEXT is set, and the command ends with ST_OK. -/
  | lifecycleAdvanceDone
  /-- MOLT_RESUME_TIMEOUT (R734). The new Papol has not finished Resume within 50 ms of Load ending, so SUPLOCK is recorded as a failed restart. -/
  | moltResumeTimeout
  deriving DecidableEq, Repr

end Sys2Proof
end

