-- ==== Sys2Proof/Config.lean ====
section
/-!
DEFINITION. What the spec leaves to an implementation, to a named standard or open (log entry 1): opaque constants, so
that a claim about the model holds whatever they are.
-/

namespace Sys2Proof

/-- A value that the spec leaves open, one per draw: State.draw counts the draws (log entry 1). -/
opaque Config.freeValue : Nat → Word

/-- The true random number generator of the security engine, one word per draw (spec/16_security.md, R719, R730). -/
opaque Config.trng : Nat → Word

/-- K0 of a ring-oscillator pair in units of 2^-24, as the words of the Bydoxon trim, fuse words 58 to 63, hold it; how they hold it the
spec does not say (spec/17_service_life.md, R744; log entry 1). -/
opaque Config.freshRatio : Nat → List Word → Nat

/-- Word i of the Bydoxon attestation-service public key, held in ROM (spec/16_security.md, R731). -/
opaque Config.attestKey : Nat → Word

/-- Word i of the hash of Bydoxon's key, held in ROM (spec/16_security.md, R710). -/
opaque Config.bydoxonHash : Nat → Word

/-- Papol's configuration table for the digest: the layout is that of the running version, given its VERSION and the
configuration values that no register holds (spec/04_command_protocol.md, R797). -/
opaque Config.configTable : Word → List Nat → List Byte

/-- Whether Zikar has placed checkpoints or task data of the graph with this digest in a shared bank (spec/07_shared_banks.md, R324;
log entry 10). -/
opaque Config.graphBank : List Word → Nat → Bool

/-- What a NaN gives as a sample's value (spec/06_engines_leap.md, R265; log entry 1). -/
opaque Config.nanSample : Word → Word

/-- The read-out, with CLIP, of a sum of products outside the 72 bits of an accumulator (spec/06_engines_leap.md, R264; log entry 1). -/
opaque Config.accOpen : Int → BitVec 33

/-- The validity bit of a subframe that no stream owns, with IDLE 1 and the other subframe owned (spec/05_streams_ports.md, R250; log entry 1). -/
opaque Config.idleValid : Bool

/-- The rounding of a quantity whose rounding the spec does not state: the exact numerator and denominator give the
integer taken (log entry 1). -/
opaque Config.roundOpen : Nat → Nat → Nat

/-- Where the ramp generator heads while it follows its slope limit, or a profile that was never loaded, within that limit: from the ends,
RTIME, the points and the ticks run (spec/09_clocks.md, R444, R446; log entry 1). -/
opaque Config.rampOpen : Nat → Nat → Nat → List Nat → Nat → Nat

/-- How far one sample of the one-pole filter of the power estimator goes from the average toward the power: from both in nW, TAU in 0.1 s
and Fg in Hz (spec/08_speaker_channels.md, R381; log entry 1). -/
opaque Config.onePole : Nat → Nat → Nat → Nat → Nat

/-- The wave of a croaker slot within its amplitude, as a two's-complement fraction of 2^39: a tone from WAVE, FREQ and the ticks since its cycle
began; a stored sample between two of its 16 kHz instants from both of them and the ticks since the first (spec/08_speaker_channels.md, R407,
R408; log entry 1). -/
opaque Config.croakerWave : List Int → Nat → Word64

/-- The sine of an AC impedance test within its amplitude, as a two's-complement fraction of 2^39: from its frequency in Hz and SYSTIME
(spec/10_load_jack_diagnostics.md, R489, R491; log entry 1). -/
opaque Config.testTone : Nat → Nat → Word64

/-- A magnitude on the way of a gain that is moving: a raised-cosine ramp (at its place of its length), or the duck gain on its way
between two gains (spec/08_speaker_channels.md, R369, R407; log entry 1). -/
opaque Config.gainOnTheWay : Nat → List Nat → Nat

end Sys2Proof
end

