-- ==== Sys2Proof/Machine/Crypto.lean ====
section
/-!
DEFINITION. The algorithms that the spec names (spec/16_security.md: SHA-256, HMAC-SHA-256, ECDSA and ECDH over P-256), as their
standards define them, over words in the byte order of spec/04_command_protocol.md, R165 (log entry 91).
-/

namespace Sys2Proof.Crypto

/-! SHA-256. -/

/-- The bytes of a word, least significant first (spec/04_command_protocol.md, R165). -/
def bytesOf (w : Word) : List Byte :=
  [w.extractLsb' 0 8, w.extractLsb' 8 8, w.extractLsb' 16 8, w.extractLsb' 24 8]

/-- The number that bytes spell, the most significant first. -/
def beNat (bs : List Byte) : Nat := bs.foldl (fun n b => n * 256 + b.toNat) 0

/-- The word whose bytes, the least significant first, are those of a 32-bit number, the most significant first. -/
def wordBe (x : Nat) : Word := BitVec.ofNat 32 (x % 256 * 2 ^ 24 + x / 2 ^ 8 % 256 * 2 ^ 16 + x / 2 ^ 16 % 256 * 2 ^ 8 + x / 2 ^ 24 % 256)

/-- The round constants. -/
def shaK : List Nat :=
  [0x428A2F98, 0x71374491, 0xB5C0FBCF, 0xE9B5DBA5, 0x3956C25B, 0x59F111F1, 0x923F82A4, 0xAB1C5ED5] ++
  [0xD807AA98, 0x12835B01, 0x243185BE, 0x550C7DC3, 0x72BE5D74, 0x80DEB1FE, 0x9BDC06A7, 0xC19BF174] ++
  [0xE49B69C1, 0xEFBE4786, 0x0FC19DC6, 0x240CA1CC, 0x2DE92C6F, 0x4A7484AA, 0x5CB0A9DC, 0x76F988DA] ++
  [0x983E5152, 0xA831C66D, 0xB00327C8, 0xBF597FC7, 0xC6E00BF3, 0xD5A79147, 0x06CA6351, 0x14292967] ++
  [0x27B70A85, 0x2E1B2138, 0x4D2C6DFC, 0x53380D13, 0x650A7354, 0x766A0ABB, 0x81C2C92E, 0x92722C85] ++
  [0xA2BFE8A1, 0xA81A664B, 0xC24B8B70, 0xC76C51A3, 0xD192E819, 0xD6990624, 0xF40E3585, 0x106AA070] ++
  [0x19A4C116, 0x1E376C08, 0x2748774C, 0x34B0BCB5, 0x391C0CB3, 0x4ED8AA4A, 0x5B9CCA4F, 0x682E6FF3] ++
  [0x748F82EE, 0x78A5636F, 0x84C87814, 0x8CC70208, 0x90BEFFFA, 0xA4506CEB, 0xBEF9A3F7, 0xC67178F2]

/-- A 32-bit rotation to the right. -/
def rotr (x n : Nat) : Nat := (x >>> n) ||| ((x <<< (32 - n)) % 2 ^ 32)

/-- The message schedule, newest first, with `n` more words. Each word is looked at as it is made. -/
def schedule (w : List Nat) : Nat → List Nat
  | 0 => w
  | n + 1 =>
    let a := w.getD 14 0
    let b := w.getD 1 0
    let x := ((rotr b 17 ^^^ rotr b 19 ^^^ (b >>> 10)) + w.getD 6 0 + (rotr a 7 ^^^ rotr a 18 ^^^ (a >>> 3)) + w.getD 15 0) % 2 ^ 32
    bif Nat.beq x 0 then schedule (0 :: w) n else schedule (x :: w) n

/-- The eight working words. -/
structure Sha where
  a : Nat
  b : Nat
  c : Nat
  d : Nat
  e : Nat
  f : Nat
  g : Nat
  h : Nat

/-- One round with the sum of its constant and its schedule word. -/
def shaRound (z : Sha) (kw : Nat) : Sha :=
  let t := z.h + (rotr z.e 6 ^^^ rotr z.e 11 ^^^ rotr z.e 25) + ((z.e &&& z.f) ^^^ ((z.e ^^^ 0xFFFFFFFF) &&& z.g)) + kw
  let u := (rotr z.a 2 ^^^ rotr z.a 13 ^^^ rotr z.a 22) + ((z.a &&& z.b) ^^^ (z.a &&& z.c) ^^^ (z.b &&& z.c))
  ⟨(t + u) % 2 ^ 32, z.a, z.b, z.c, (z.d + t) % 2 ^ 32, z.e, z.f, z.g⟩

/-- The rounds of a block. -/
def shaRounds : List Nat → List Nat → Sha → Sha
  | k :: ks, w :: ws, z =>
    let y := shaRound z (k + w)
    bif Nat.beq (y.a + y.e) 0 then shaRounds ks ws y else shaRounds ks ws y
  | _, _, z => z

/-- One block of sixteen words. -/
def shaBlock (z : Sha) (w : List Nat) : Sha :=
  let y := shaRounds shaK (schedule w.reverse 48).reverse z
  ⟨(z.a + y.a) % 2 ^ 32, (z.b + y.b) % 2 ^ 32, (z.c + y.c) % 2 ^ 32, (z.d + y.d) % 2 ^ 32,
   (z.e + y.e) % 2 ^ 32, (z.f + y.f) % 2 ^ 32, (z.g + y.g) % 2 ^ 32, (z.h + y.h) % 2 ^ 32⟩

/-- `n` blocks. -/
def shaBlocks : Nat → List Nat → Sha → Sha
  | 0, _, z => z
  | n + 1, ws, z => shaBlocks n (ws.drop 16) (shaBlock z (ws.take 16))

/-- `n` words, the most significant byte first. -/
def wordsBe : Nat → List Byte → List Nat
  | 0, _ => []
  | n + 1, bs => beNat (bs.take 4) :: wordsBe n (bs.drop 4)

/-- A message padded to whole blocks. -/
def shaPad (bs : List Byte) : List Byte :=
  bs ++ [0x80#8] ++ List.replicate ((119 - bs.length % 64) % 64) 0
    ++ (List.range 8).map fun i => BitVec.ofNat 8 (8 * bs.length / 2 ^ (8 * (7 - i)))

/-- SHA-256 of a byte string in eight words of R165 (spec/04_command_protocol.md, R190). -/
@[irreducible] def sha256 (bs : List Byte) : List Word :=
  let p := shaPad bs
  let z := shaBlocks (p.length / 64) (wordsBe (p.length / 4) p)
    ⟨0x6a09e667, 0xbb67ae85, 0x3c6ef372, 0xa54ff53a, 0x510e527f, 0x9b05688c, 0x1f83d9ab, 0x5be0cd19⟩
  [wordBe z.a, wordBe z.b, wordBe z.c, wordBe z.d, wordBe z.e, wordBe z.f, wordBe z.g, wordBe z.h]

/-- SHA-256 of words in the byte order of R165. -/
def shaWords (ws : List Word) : List Word := sha256 (ws.flatMap bytesOf)

/-- The key of HMAC as one block of 64 bytes, each taken with a constant. -/
def hmacPad (key : List Byte) (c : Byte) : List Byte :=
  let k := if 64 < key.length then (sha256 key).flatMap bytesOf else key
  (k ++ List.replicate (64 - k.length) 0).map (· ^^^ c)

/-- HMAC-SHA-256 of words under a key of words, in eight words (spec/04_command_protocol.md, R166). -/
@[irreducible] def hmacWords (key msg : List Word) : List Word :=
  let k := key.flatMap bytesOf
  sha256 (hmacPad k 0x5C ++ (sha256 (hmacPad k 0x36 ++ msg.flatMap bytesOf)).flatMap bytesOf)

/-! P-256. A 256-bit number stands in eight words, its most significant byte in [7:0] of the first. -/

/-- The field prime, the order of the base point, the constant of the curve, and the base point. -/
def ecP : Nat := 0xFFFFFFFF00000001000000000000000000000000FFFFFFFFFFFFFFFFFFFFFFFF
def ecN : Nat := 0xFFFFFFFF00000000FFFFFFFFFFFFFFFFBCE6FAADA7179E84F3B9CAC2FC632551
def ecB : Nat := 0x5AC635D8AA3A93E7B3EBBD55769886BC651D06B0CC53B0F63BCE3C3E27D2604B
def ecGx : Nat := 0x6B17D1F2E12C4247F8BCE6E563A440F277037D812DEB33A0F4A13945D898C296
def ecGy : Nat := 0x4FE342E2FE1A7F9B8EE7EB4A7C0F9E162BCE33576B315ECECBB6406837BF51F5

/-- The number that eight words spell. -/
def numOf (ws : List Word) : Nat := beNat (ws.flatMap bytesOf)

/-- The eight words that spell a number. -/
def numWords (x : Nat) : List Word := (List.range 8).map fun i => wordBe (x / 2 ^ (32 * (7 - i)) % 2 ^ 32)

/-- A power modulo `m` over the low `n` bits of the exponent. -/
def powMod (m : Nat) : Nat → Nat → Nat → Nat → Nat
  | 0, _, _, acc => acc
  | n + 1, b, e, acc =>
    let a := if e % 2 = 1 then acc * b % m else acc
    let q := b * b % m
    bif Nat.beq (a + q) 0 then powMod m n q (e / 2) a else powMod m n q (e / 2) a

/-- The inverse modulo a prime. -/
def invMod (m x : Nat) : Nat := powMod m 256 (x % m) (m - 2) 1

/-- A point in Jacobian coordinates; `z` 0 is the point at infinity. -/
structure Pt where
  x : Nat
  y : Nat
  z : Nat

/-- A difference in the field. -/
def ecSub (a b : Nat) : Nat := (a + ecP - b % ecP) % ecP

/-- Twice a point. -/
def ecDbl (q : Pt) : Pt :=
  let yy := q.y * q.y % ecP
  let s := 4 * q.x * yy % ecP
  let zz := q.z * q.z % ecP
  let m := 3 * ecSub q.x zz * (q.x + zz) % ecP
  let x := ecSub (m * m) (2 * s)
  ⟨x, ecSub (m * ecSub s x) (8 * yy * yy), 2 * q.y * q.z % ecP⟩

/-- The sum of two points. -/
def ecAdd (q r : Pt) : Pt :=
  if q.z = 0 then r
  else if r.z = 0 then q
  else
    let z1 := q.z * q.z % ecP
    let z2 := r.z * r.z % ecP
    let u1 := q.x * z2 % ecP
    let u2 := r.x * z1 % ecP
    let s1 := q.y * r.z * z2 % ecP
    let s2 := r.y * q.z * z1 % ecP
    if u1 = u2 then (if s1 = s2 then ecDbl q else ⟨1, 1, 0⟩)
    else
      let h := ecSub u2 u1
      let d := ecSub s2 s1
      let hh := h * h % ecP
      let hhh := h * hh % ecP
      let v := u1 * hh % ecP
      let x := ecSub (ecSub (d * d) hhh) (2 * v)
      ⟨x, ecSub (d * ecSub v x) (s1 * hhh), h * q.z * r.z % ecP⟩

/-- A multiple of `q` over the low `n` bits of `k`, the most significant first, added to `acc` shifted. -/
def ecMul : Nat → Nat → Pt → Pt → Pt
  | 0, _, _, acc => acc
  | n + 1, k, q, acc =>
    let d := ecDbl acc
    let a := if k / 2 ^ n % 2 = 1 then ecAdd d q else d
    bif Nat.beq (a.x + a.y + a.z) 0 then ecMul n k q a else ecMul n k q a

/-- Whether two coordinates name a point of the curve. -/
def onEc (x y : Nat) : Bool :=
  decide (x < ecP) && decide (y < ecP) && decide (y * y % ecP = (x * x * x + (ecP - 3) * x + ecB) % ecP)

/-- The affine coordinates of a point. -/
def ptX (q : Pt) : Nat := let i := invMod ecP q.z; q.x * (i * i % ecP) % ecP
def ptY (q : Pt) : Nat := let i := invMod ecP q.z; q.y * (i * i % ecP * i % ecP) % ecP

/-- `k` times the point with these affine coordinates. -/
def times (k x y : Nat) : Pt := ecMul 256 k ⟨x, y, 1⟩ ⟨1, 1, 0⟩

/-- Whether sixteen words, x then y, name a point of the curve (spec/16_security.md, SESSION_OPEN). -/
@[irreducible] def onCurve (ws : List Word) : Bool := onEc (numOf (ws.take 8)) (numOf ((ws.drop 8).take 8))

/-- Whether a signature (r then s) of a hash is valid for a public key (spec/16_security.md, R709, R710, R730). -/
@[irreducible] def ecdsa (key sig hash : List Word) : Bool :=
  let qx := numOf (key.take 8)
  let qy := numOf ((key.drop 8).take 8)
  let r := numOf (sig.take 8)
  let s := numOf ((sig.drop 8).take 8)
  let w := invMod ecN s
  let t := ecAdd (times (numOf hash * w % ecN) ecGx ecGy) (times (r * w % ecN) qx qy)
  onEc qx qy && decide (0 < r) && decide (r < ecN) && decide (0 < s) && decide (s < ecN) && decide (t.z ≠ 0) && decide (ptX t % ecN = r)

/-- The x-coordinate of a private key times a peer's point, in eight words (spec/16_security.md, R719, R731). -/
@[irreducible] def ecdh (priv : Nat) (peer : List Word) : List Word :=
  numWords (ptX (times priv (numOf (peer.take 8)) (numOf ((peer.drop 8).take 8))))

/-- The public point of a private key, in sixteen words (spec/16_security.md, R719). -/
@[irreducible] def ecdhPublic (priv : Nat) : List Word :=
  let q := times priv ecGx ecGy
  numWords (ptX q) ++ numWords (ptY q)

end Sys2Proof.Crypto
end

