-- ==== Sys2Proof/Machine/RegMap.lean ====
section
/-!
DEFINITION. The register map of the DVN1224 (spec/00_scope.md to spec/17_service_life.md): one row per register of the
spec's tables with its address, array stride and count, reset value and the bits of each field type (R14, R131, R133,
R137, R144), and one Field per register field. An array's index letter is dropped from its name: OUT_SPKn_STAT is
OUT_SPK_STAT, and its n is the argument.
-/

namespace Sys2Proof.Machine

/-- A field of a register: the register's byte address, the field's lowest bit and its width. -/
structure Field where
  addr  : Nat
  lo    : Nat
  width : Nat
  deriving DecidableEq, Repr

/-- One row of the register map. `half` is 1 for the LO word and 2 for the HI word of a 64-bit value (R141). -/
structure RegRow where
  base   : Nat
  stride : Nat
  count  : Nat
  first  : Nat
  reset  : Word
  rw     : Word
  g      : Word
  sc     : Word
  gsc    : Word
  rc     : Word
  ctr    : Word
  half   : Nat
  deriving DecidableEq, Repr

/-- The row's array index of address `a`, where `a` is one of its registers. -/
def RegRow.index? (r : RegRow) (a : Nat) : Option Nat :=
  let k := (a - r.base) / r.stride
  if r.base ≤ a ∧ (a - r.base) % r.stride = 0 ∧ r.first ≤ k ∧ k < r.count then some k else none

/-! Register addresses. -/

/-- CTL_SYS_ID (00_scope.md, R8). -/
def Reg.CTL_SYS_ID : Nat := 0x0
/-- CTL_SYS_STRAP (02_package_supplies.md, R74). -/
def Reg.CTL_SYS_STRAP : Nat := 0x4
/-- CTL_SYS_TIME_LO (03_register_access.md, R143). -/
def Reg.CTL_SYS_TIME_LO : Nat := 0x10
/-- CTL_SYS_TIME_HI (03_register_access.md, R143). -/
def Reg.CTL_SYS_TIME_HI : Nat := 0x14
/-- HOST_CFG (03_register_access.md, R151). -/
def Reg.HOST_CFG : Nat := 0x100
/-- HOST_PWSTAT (03_register_access.md, R125). -/
def Reg.HOST_PWSTAT : Nat := 0x104
/-- HOST_ERR (03_register_access.md, R151). -/
def Reg.HOST_ERR : Nat := 0x108
/-- HOST_UNLOCK (03_register_access.md, R149). -/
def Reg.HOST_UNLOCK : Nat := 0x10C
/-- HOST_ERRADDR (03_register_access.md, R151). -/
def Reg.HOST_ERRADDR : Nat := 0x110
/-- CTL_CLK_STAT (09_clocks.md, R467). -/
def Reg.CTL_CLK_STAT : Nat := 0x400
/-- CTL_SYSPLL_CFG (09_clocks.md, R467). -/
def Reg.CTL_SYSPLL_CFG : Nat := 0x404
/-- CTL_AUDPLL_CFG (09_clocks.md, R467). -/
def Reg.CTL_AUDPLL_CFG : Nat := 0x408
/-- CTL_REG_CFG (14_power_states.md, R656). -/
def Reg.CTL_REG_CFG : Nat := 0x500
/-- CTL_REG_STAT (14_power_states.md, R656). -/
def Reg.CTL_REG_STAT : Nat := 0x504
/-- CTL_SEC_STAT (16_security.md, R734). -/
def Reg.CTL_SEC_STAT : Nat := 0x600
/-- CTL_SEC_CNT (16_security.md, R734). -/
def Reg.CTL_SEC_CNT : Nat := 0x604
/-- CTL_BOOT_STAT (16_security.md, R734). -/
def Reg.CTL_BOOT_STAT : Nat := 0x608
/-- CTL_BOOT_CTRL (16_security.md, R734). -/
def Reg.CTL_BOOT_CTRL : Nat := 0x60C
/-- CTL_SEC_ROLL (16_security.md, R734). -/
def Reg.CTL_SEC_ROLL : Nat := 0x610
/-- CTL_FUSE (16_security.md, R734). -/
def Reg.CTL_FUSE (n : Nat) : Nat := 0x700 + 0x4 * n
/-- PWR_STATE (14_power_states.md, R656). -/
def Reg.PWR_STATE : Nat := 0xE0000
/-- PWR_DOMSTAT (14_power_states.md, R656). -/
def Reg.PWR_DOMSTAT : Nat := 0xE0004
/-- PWR_PERMIT (14_power_states.md, R656). -/
def Reg.PWR_PERMIT : Nat := 0xE0008
/-- PWR_WAKECFG (14_power_states.md, R656). -/
def Reg.PWR_WAKECFG : Nat := 0xE0010
/-- PWR_GPIO_WAKE (14_power_states.md, R656). -/
def Reg.PWR_GPIO_WAKE : Nat := 0xE0014
/-- PWR_GPIO_IO (14_power_states.md, R656). -/
def Reg.PWR_GPIO_IO : Nat := 0xE0018
/-- PWR_WAKESRC (14_power_states.md, R656). -/
def Reg.PWR_WAKESRC : Nat := 0xE0020
/-- PWR_WAKETIME_LO (14_power_states.md, R656). -/
def Reg.PWR_WAKETIME_LO : Nat := 0xE0024
/-- PWR_WAKETIME_HI (14_power_states.md, R656). -/
def Reg.PWR_WAKETIME_HI : Nat := 0xE0028
/-- PWR_GECKO (14_power_states.md, R656). -/
def Reg.PWR_GECKO : Nat := 0xE0030
/-- CTL_ERRCOL_STAT (01_architecture.md, R33). -/
def Reg.CTL_ERRCOL_STAT : Nat := 0xFFF00
/-- DSP_NE_STAT (06_engines_leap.md, R308). -/
def Reg.DSP_NE_STAT (n : Nat) : Nat := 0x100000 + 0x40 * n
/-- DSP_NE_LOAD (06_engines_leap.md, R308). -/
def Reg.DSP_NE_LOAD (n : Nat) : Nat := 0x100004 + 0x40 * n
/-- DSP_NE_FCNT (06_engines_leap.md, R308). -/
def Reg.DSP_NE_FCNT (n : Nat) : Nat := 0x100008 + 0x40 * n
/-- DSP_NE_CTRL (06_engines_leap.md, R308). -/
def Reg.DSP_NE_CTRL (n : Nat) : Nat := 0x10000C + 0x40 * n
/-- DSP_NE_BLK_LO (06_engines_leap.md, R309). -/
def Reg.DSP_NE_BLK_LO (n : Nat) : Nat := 0x100010 + 0x40 * n
/-- DSP_NE_BLK_HI (06_engines_leap.md, R309). -/
def Reg.DSP_NE_BLK_HI (n : Nat) : Nat := 0x100014 + 0x40 * n
/-- DSP_GRAPH_STAT (06_engines_leap.md, R309). -/
def Reg.DSP_GRAPH_STAT : Nat := 0x100200
/-- DSP_GRAPH_ID (06_engines_leap.md, R309). -/
def Reg.DSP_GRAPH_ID : Nat := 0x100204
/-- DSP_GRAPH_BLK_LO (06_engines_leap.md, R309). -/
def Reg.DSP_GRAPH_BLK_LO : Nat := 0x100208
/-- DSP_GRAPH_BLK_HI (06_engines_leap.md, R309). -/
def Reg.DSP_GRAPH_BLK_HI : Nat := 0x10020C
/-- DSP_SPARE (06_engines_leap.md, R309). -/
def Reg.DSP_SPARE : Nat := 0x100210
/-- DSP_RING_BASE (04_command_protocol.md, R154). -/
def Reg.DSP_RING_BASE (n : Nat) : Nat := 0x100400 + 0x10 * n
/-- DSP_RING_CFG (04_command_protocol.md, R154). -/
def Reg.DSP_RING_CFG (n : Nat) : Nat := 0x100404 + 0x10 * n
/-- DSP_RING_HIDX (04_command_protocol.md, R154). -/
def Reg.DSP_RING_HIDX (n : Nat) : Nat := 0x100408 + 0x10 * n
/-- DSP_RING_DIDX (04_command_protocol.md, R154). -/
def Reg.DSP_RING_DIDX (n : Nat) : Nat := 0x10040C + 0x10 * n
/-- DSP_STR_CFG (05_streams_ports.md, R216). -/
def Reg.DSP_STR_CFG (n : Nat) : Nat := 0x102000 + 0x20 * n
/-- DSP_STR_FMT (05_streams_ports.md, R216). -/
def Reg.DSP_STR_FMT (n : Nat) : Nat := 0x102004 + 0x20 * n
/-- DSP_STR_STAT (05_streams_ports.md, R216). -/
def Reg.DSP_STR_STAT (n : Nat) : Nat := 0x102008 + 0x20 * n
/-- DSP_STR_CNT (05_streams_ports.md, R216). -/
def Reg.DSP_STR_CNT (n : Nat) : Nat := 0x10200C + 0x20 * n
/-- DSP_STR_IDX_LO (05_streams_ports.md, R216). -/
def Reg.DSP_STR_IDX_LO (n : Nat) : Nat := 0x102010 + 0x20 * n
/-- DSP_STR_IDX_HI (05_streams_ports.md, R216). -/
def Reg.DSP_STR_IDX_HI (n : Nat) : Nat := 0x102014 + 0x20 * n
/-- DSP_STR_GOOD_LO (05_streams_ports.md, R216). -/
def Reg.DSP_STR_GOOD_LO (n : Nat) : Nat := 0x102018 + 0x20 * n
/-- DSP_STR_GOOD_HI (05_streams_ports.md, R216). -/
def Reg.DSP_STR_GOOD_HI (n : Nat) : Nat := 0x10201C + 0x20 * n
/-- DSP_LEAP_STAT (06_engines_leap.md, R309). -/
def Reg.DSP_LEAP_STAT (n : Nat) : Nat := 0x103000 + 0x10 * n
/-- DSP_LEAP_CIDX_LO (06_engines_leap.md, R309). -/
def Reg.DSP_LEAP_CIDX_LO (n : Nat) : Nat := 0x103004 + 0x10 * n
/-- DSP_LEAP_CIDX_HI (06_engines_leap.md, R309). -/
def Reg.DSP_LEAP_CIDX_HI (n : Nat) : Nat := 0x103008 + 0x10 * n
/-- DSP_LEAP_CNT (06_engines_leap.md, R309). -/
def Reg.DSP_LEAP_CNT (n : Nat) : Nat := 0x10300C + 0x10 * n
/-- DSP_SB_STAT (07_shared_banks.md, R358). -/
def Reg.DSP_SB_STAT (n : Nat) : Nat := 0x104000 + 0x10 * n
/-- DSP_SB_ECC (07_shared_banks.md, R358). -/
def Reg.DSP_SB_ECC (n : Nat) : Nat := 0x104004 + 0x10 * n
/-- DSP_SB_LASTERR (07_shared_banks.md, R358). -/
def Reg.DSP_SB_LASTERR (n : Nat) : Nat := 0x104008 + 0x10 * n
/-- DSP_SB_CFG (07_shared_banks.md, R358). -/
def Reg.DSP_SB_CFG (n : Nat) : Nat := 0x10400C + 0x10 * n
/-- DSP_SB_MARCH (07_shared_banks.md, R358). -/
def Reg.DSP_SB_MARCH : Nat := 0x104100
/-- DSP_ERRCOL_STAT (01_architecture.md, R33). -/
def Reg.DSP_ERRCOL_STAT : Nat := 0x1FFF00
/-- IN_TDM_FMT (05_streams_ports.md, R238). -/
def Reg.IN_TDM_FMT (n : Nat) : Nat := 0x200000 + 0x100 * n
/-- IN_TDM_CLK (05_streams_ports.md, R238). -/
def Reg.IN_TDM_CLK (n : Nat) : Nat := 0x200004 + 0x100 * n
/-- IN_TDM_BUS (05_streams_ports.md, R238). -/
def Reg.IN_TDM_BUS (n : Nat) : Nat := 0x200008 + 0x100 * n
/-- IN_TDM_STAT (05_streams_ports.md, R238). -/
def Reg.IN_TDM_STAT (n : Nat) : Nat := 0x20000C + 0x100 * n
/-- IN_SPDRX_STAT (05_streams_ports.md, R250). -/
def Reg.IN_SPDRX_STAT : Nat := 0x200200
/-- IN_AADC_CFG (11_inputs_wake.md, R560). -/
def Reg.IN_AADC_CFG (n : Nat) : Nat := 0x280000 + 0x20 * n
/-- IN_AADC_STAT (11_inputs_wake.md, R560). -/
def Reg.IN_AADC_STAT (n : Nat) : Nat := 0x280004 + 0x20 * n
/-- IN_MICB_CFG (11_inputs_wake.md, R560). -/
def Reg.IN_MICB_CFG : Nat := 0x280100
/-- IN_PDM_CFG (11_inputs_wake.md, R560). -/
def Reg.IN_PDM_CFG : Nat := 0x280200
/-- IN_PDM_MIC (11_inputs_wake.md, R560). -/
def Reg.IN_PDM_MIC : Nat := 0x280204
/-- IN_FE_STAT (11_inputs_wake.md, R560). -/
def Reg.IN_FE_STAT : Nat := 0x280208
/-- IN_TAP_CFG (11_inputs_wake.md, R560). -/
def Reg.IN_TAP_CFG : Nat := 0x280300
/-- IN_TAD_STAT (11_inputs_wake.md, R560). -/
def Reg.IN_TAD_STAT : Nat := 0x280304
/-- IN_TAD_WIDX_LO (11_inputs_wake.md, R560). -/
def Reg.IN_TAD_WIDX_LO : Nat := 0x280308
/-- IN_TAD_WIDX_HI (11_inputs_wake.md, R560). -/
def Reg.IN_TAD_WIDX_HI : Nat := 0x28030C
/-- IN_TAD_OLDEST_LO (11_inputs_wake.md, R560). -/
def Reg.IN_TAD_OLDEST_LO : Nat := 0x280310
/-- IN_TAD_OLDEST_HI (11_inputs_wake.md, R560). -/
def Reg.IN_TAD_OLDEST_HI : Nat := 0x280314
/-- IN_TAD_GSTART_LO (11_inputs_wake.md, R560). -/
def Reg.IN_TAD_GSTART_LO : Nat := 0x280318
/-- IN_TAD_GSTART_HI (11_inputs_wake.md, R560). -/
def Reg.IN_TAD_GSTART_HI : Nat := 0x28031C
/-- IN_TAD_GOPEN_LO (11_inputs_wake.md, R560). -/
def Reg.IN_TAD_GOPEN_LO : Nat := 0x280320
/-- IN_TAD_GOPEN_HI (11_inputs_wake.md, R560). -/
def Reg.IN_TAD_GOPEN_HI : Nat := 0x280324
/-- IN_WKD_CFG (11_inputs_wake.md, R560). -/
def Reg.IN_WKD_CFG : Nat := 0x280400
/-- IN_WKD_STAT (11_inputs_wake.md, R560). -/
def Reg.IN_WKD_STAT : Nat := 0x280404
/-- IN_WKD_MODEL (11_inputs_wake.md, R560). -/
def Reg.IN_WKD_MODEL : Nat := 0x280408
/-- IN_ERRCOL_STAT (01_architecture.md, R33). -/
def Reg.IN_ERRCOL_STAT : Nat := 0x2FFF00
/-- OUT_G_CFG (08_speaker_channels.md, R412). -/
def Reg.OUT_G_CFG (n : Nat) : Nat := 0x300000 + 0x100 * n
/-- OUT_G_THERM (08_speaker_channels.md, R412). -/
def Reg.OUT_G_THERM (n : Nat) : Nat := 0x300004 + 0x100 * n
/-- OUT_G_STAT (08_speaker_channels.md, R412). -/
def Reg.OUT_G_STAT (n : Nat) : Nat := 0x300008 + 0x100 * n
/-- OUT_G_XPT (08_speaker_channels.md, R412). -/
def Reg.OUT_G_XPT (n : Nat) : Nat := 0x30000C + 0x100 * n
/-- OUT_G_XCYC_LO (08_speaker_channels.md, R412). -/
def Reg.OUT_G_XCYC_LO (n : Nat) : Nat := 0x300010 + 0x100 * n
/-- OUT_G_XCYC_HI (08_speaker_channels.md, R412). -/
def Reg.OUT_G_XCYC_HI (n : Nat) : Nat := 0x300014 + 0x100 * n
/-- OUT_SPK_FUSE (08_speaker_channels.md, R412). -/
def Reg.OUT_SPK_FUSE : Nat := 0x300F00
/-- OUT_SPK_CFG (08_speaker_channels.md, R412). -/
def Reg.OUT_SPK_CFG (n : Nat) : Nat := 0x301000 + 0x40 * n
/-- OUT_SPK_LIMIT (08_speaker_channels.md, R412). -/
def Reg.OUT_SPK_LIMIT (n : Nat) : Nat := 0x301004 + 0x40 * n
/-- OUT_SPK_CTRL (08_speaker_channels.md, R412). -/
def Reg.OUT_SPK_CTRL (n : Nat) : Nat := 0x301008 + 0x40 * n
/-- OUT_SPK_STAT (08_speaker_channels.md, R412). -/
def Reg.OUT_SPK_STAT (n : Nat) : Nat := 0x30100C + 0x40 * n
/-- OUT_SPK_PROT (08_speaker_channels.md, R412). -/
def Reg.OUT_SPK_PROT (n : Nat) : Nat := 0x301010 + 0x40 * n
/-- OUT_SPK_CYCP_LO (08_speaker_channels.md, R412). -/
def Reg.OUT_SPK_CYCP_LO (n : Nat) : Nat := 0x301018 + 0x40 * n
/-- OUT_SPK_CYCP_HI (08_speaker_channels.md, R412). -/
def Reg.OUT_SPK_CYCP_HI (n : Nat) : Nat := 0x30101C + 0x40 * n
/-- OUT_SPK_CYCM_LO (08_speaker_channels.md, R412). -/
def Reg.OUT_SPK_CYCM_LO (n : Nat) : Nat := 0x301020 + 0x40 * n
/-- OUT_SPK_CYCM_HI (08_speaker_channels.md, R412). -/
def Reg.OUT_SPK_CYCM_HI (n : Nat) : Nat := 0x301024 + 0x40 * n
/-- OUT_CRK_STAT (08_speaker_channels.md, R412). -/
def Reg.OUT_CRK_STAT : Nat := 0x302000
/-- OUT_SW_CTRL (09_clocks.md, R467). -/
def Reg.OUT_SW_CTRL : Nat := 0x303000
/-- OUT_SW_FREQ (09_clocks.md, R467). -/
def Reg.OUT_SW_FREQ : Nat := 0x303004
/-- OUT_SW_FREQA (09_clocks.md, R467). -/
def Reg.OUT_SW_FREQA : Nat := 0x303008
/-- OUT_SW_FREQI (09_clocks.md, R467). -/
def Reg.OUT_SW_FREQI : Nat := 0x30300C
/-- OUT_SW_OUT (09_clocks.md, R467). -/
def Reg.OUT_SW_OUT (n : Nat) : Nat := 0x303010 + 0x4 * n
/-- OUT_SW_OUTA (09_clocks.md, R467). -/
def Reg.OUT_SW_OUTA (n : Nat) : Nat := 0x303020 + 0x4 * n
/-- OUT_SW_STAT (09_clocks.md, R467). -/
def Reg.OUT_SW_STAT : Nat := 0x303030
/-- OUT_SW_PLACE (09_clocks.md, R467). -/
def Reg.OUT_SW_PLACE : Nat := 0x303034
/-- OUT_SW_PRTIME (09_clocks.md, R467). -/
def Reg.OUT_SW_PRTIME : Nat := 0x303038
/-- OUT_HPL_CFG (12_headphone_line_cv.md, R577). -/
def Reg.OUT_HPL_CFG : Nat := 0x304000
/-- OUT_HPL_STAT (12_headphone_line_cv.md, R577). -/
def Reg.OUT_HPL_STAT : Nat := 0x304004
/-- OUT_CV_CFG (12_headphone_line_cv.md, R588). -/
def Reg.OUT_CV_CFG (n : Nat) : Nat := 0x305000 + 0x20 * n
/-- OUT_CV_AUX (12_headphone_line_cv.md, R588). -/
def Reg.OUT_CV_AUX (n : Nat) : Nat := 0x305004 + 0x20 * n
/-- OUT_CV_MAP (12_headphone_line_cv.md, R588). -/
def Reg.OUT_CV_MAP (n : Nat) : Nat := 0x305008 + 0x20 * n
/-- OUT_CV_LIM (12_headphone_line_cv.md, R588). -/
def Reg.OUT_CV_LIM (n : Nat) : Nat := 0x30500C + 0x20 * n
/-- OUT_CV_STAT (12_headphone_line_cv.md, R588). -/
def Reg.OUT_CV_STAT (n : Nat) : Nat := 0x305010 + 0x20 * n
/-- OUT_ERRCOL_STAT (01_architecture.md, R33). -/
def Reg.OUT_ERRCOL_STAT : Nat := 0x3FFF00
/-- SAFE_SM_STAT (15_safety.md, R694). -/
def Reg.SAFE_SM_STAT : Nat := 0x400000
/-- SAFE_SM_CFG (15_safety.md, R694). -/
def Reg.SAFE_SM_CFG : Nat := 0x400004
/-- SAFE_FN_STAT (15_safety.md, R694). -/
def Reg.SAFE_FN_STAT : Nat := 0x400008
/-- SAFE_SM_CFG2 (15_safety.md, R694). -/
def Reg.SAFE_SM_CFG2 : Nat := 0x40000C
/-- SAFE_SM_LOUD (15_safety.md, R694). -/
def Reg.SAFE_SM_LOUD : Nat := 0x400010
/-- SAFE_SM_MON (15_safety.md, R694). -/
def Reg.SAFE_SM_MON : Nat := 0x400014
/-- SAFE_SM_FUSE (15_safety.md, R694). -/
def Reg.SAFE_SM_FUSE : Nat := 0x400018
/-- SAFE_CFGPAR_ADDR (03_register_access.md, R806). -/
def Reg.SAFE_CFGPAR_ADDR : Nat := 0x400100
/-- SAFE_MADC_CFG (13_monitoring_converters.md, R616). -/
def Reg.SAFE_MADC_CFG : Nat := 0x401000
/-- SAFE_MADC_STAT (13_monitoring_converters.md, R616). -/
def Reg.SAFE_MADC_STAT (n : Nat) : Nat := 0x401004 + 0x4 * n
/-- SAFE_MADC_PLAUS (13_monitoring_converters.md, R616). -/
def Reg.SAFE_MADC_PLAUS : Nat := 0x40100C
/-- SAFE_MADC_LAST (13_monitoring_converters.md, R616). -/
def Reg.SAFE_MADC_LAST (n : Nat) : Nat := 0x401010 + 0x4 * n
/-- SAFE_JACK_CFG (10_load_jack_diagnostics.md, R505). -/
def Reg.SAFE_JACK_CFG : Nat := 0x402000
/-- SAFE_JACK_STAT (10_load_jack_diagnostics.md, R505). -/
def Reg.SAFE_JACK_STAT : Nat := 0x402004
/-- SAFE_LDIAG_DC (10_load_jack_diagnostics.md, R505). -/
def Reg.SAFE_LDIAG_DC (n : Nat) : Nat := 0x402100 + 0x10 * n
/-- SAFE_LDIAG_AC (10_load_jack_diagnostics.md, R505). -/
def Reg.SAFE_LDIAG_AC (n : Nat) : Nat := 0x402104 + 0x10 * n
/-- SAFE_LDIAG_ZLO (10_load_jack_diagnostics.md, R505). -/
def Reg.SAFE_LDIAG_ZLO (n : Nat) : Nat := 0x402108 + 0x10 * n
/-- SAFE_LDIAG_ZHI (10_load_jack_diagnostics.md, R505). -/
def Reg.SAFE_LDIAG_ZHI (n : Nat) : Nat := 0x40210C + 0x10 * n
/-- SAFE_AGE_STAT (17_service_life.md, R761). -/
def Reg.SAFE_AGE_STAT : Nat := 0x403000
/-- SAFE_AGE_RING (17_service_life.md, R761). -/
def Reg.SAFE_AGE_RING (n : Nat) : Nat := 0x403010 + 0x4 * n
/-- SAFE_AGE_RON_P (17_service_life.md, R761). -/
def Reg.SAFE_AGE_RON_P (n : Nat) : Nat := 0x403040 + 0x8 * n
/-- SAFE_AGE_RON_M (17_service_life.md, R761). -/
def Reg.SAFE_AGE_RON_M (n : Nat) : Nat := 0x403044 + 0x8 * n
/-- SAFE_AGE_RONX (17_service_life.md, R761). -/
def Reg.SAFE_AGE_RONX (n : Nat) : Nat := 0x4030A0 + 0x4 * n
/-- SAFE_AGE_DER (17_service_life.md, R761). -/
def Reg.SAFE_AGE_DER (n : Nat) : Nat := 0x4030B0 + 0x4 * n
/-- SAFE_BASK_LO (17_service_life.md, R761). -/
def Reg.SAFE_BASK_LO (n : Nat) : Nat := 0x403100 + 0x8 * n
/-- SAFE_BASK_HI (17_service_life.md, R761). -/
def Reg.SAFE_BASK_HI (n : Nat) : Nat := 0x403104 + 0x8 * n
/-- SAFE_ERRCOL_STAT (01_architecture.md, R33). -/
def Reg.SAFE_ERRCOL_STAT : Nat := 0x4FFF00

/-! Register fields. -/

def F.CTL_SYS_ID_PART : Field := ⟨0x0, 16, 16⟩
def F.CTL_SYS_ID_FAMILY : Field := ⟨0x0, 8, 8⟩
def F.CTL_SYS_ID_REV : Field := ⟨0x0, 0, 8⟩
def F.CTL_SYS_STRAP_IOV18 : Field := ⟨0x4, 4, 1⟩
def F.CTL_SYS_STRAP_BOOTSEL : Field := ⟨0x4, 3, 1⟩
def F.CTL_SYS_STRAP_ADDR : Field := ⟨0x4, 1, 2⟩
def F.CTL_SYS_STRAP_HOSTSEL : Field := ⟨0x4, 0, 1⟩
def F.CTL_SYS_TIME_LO_TIME_LO : Field := ⟨0x10, 0, 32⟩
def F.CTL_SYS_TIME_HI_TIME_HI : Field := ⟨0x14, 0, 32⟩
def F.HOST_CFG_ERRIE : Field := ⟨0x100, 0, 1⟩
def F.HOST_PWSTAT_PWBUSY_SAFE : Field := ⟨0x104, 4, 1⟩
def F.HOST_PWSTAT_PWBUSY_OUT : Field := ⟨0x104, 3, 1⟩
def F.HOST_PWSTAT_PWBUSY_IN : Field := ⟨0x104, 2, 1⟩
def F.HOST_PWSTAT_PWBUSY_DSP : Field := ⟨0x104, 1, 1⟩
def F.HOST_PWSTAT_PWBUSY_CTL : Field := ⟨0x104, 0, 1⟩
def F.HOST_ERR_BADKEY : Field := ⟨0x108, 10, 1⟩
def F.HOST_ERR_FUSED : Field := ⟨0x108, 9, 1⟩
def F.HOST_ERR_LOCKED : Field := ⟨0x108, 8, 1⟩
def F.HOST_ERR_PWCOL : Field := ⟨0x108, 7, 1⟩
def F.HOST_ERR_NOPWR : Field := ⟨0x108, 6, 1⟩
def F.HOST_ERR_GATED : Field := ⟨0x108, 5, 1⟩
def F.HOST_ERR_UNMAP : Field := ⟨0x108, 4, 1⟩
def F.HOST_ERR_ALIGN : Field := ⟨0x108, 3, 1⟩
def F.HOST_ERR_ABORT : Field := ⟨0x108, 2, 1⟩
def F.HOST_ERR_PARTIAL : Field := ⟨0x108, 1, 1⟩
def F.HOST_ERR_FRAME : Field := ⟨0x108, 0, 1⟩
def F.HOST_UNLOCK_OPEN : Field := ⟨0x10C, 16, 1⟩
def F.HOST_UNLOCK_KEY : Field := ⟨0x10C, 0, 16⟩
def F.HOST_ERRADDR_CAUSE : Field := ⟨0x110, 24, 4⟩
def F.HOST_ERRADDR_ADDR : Field := ⟨0x110, 0, 24⟩
def F.CTL_CLK_STAT_REFFAM : Field := ⟨0x400, 31, 1⟩
def F.CTL_CLK_STAT_AUDFAM : Field := ⟨0x400, 30, 1⟩
def F.CTL_CLK_STAT_AONSRC : Field := ⟨0x400, 29, 1⟩
def F.CTL_CLK_STAT_REFLOST : Field := ⟨0x400, 11, 1⟩
def F.CTL_CLK_STAT_AONFAIL : Field := ⟨0x400, 10, 1⟩
def F.CTL_CLK_STAT_SYSLL : Field := ⟨0x400, 9, 1⟩
def F.CTL_CLK_STAT_AUDLL : Field := ⟨0x400, 8, 1⟩
def F.CTL_CLK_STAT_REFOK : Field := ⟨0x400, 5, 1⟩
def F.CTL_CLK_STAT_SYSCOAST : Field := ⟨0x400, 4, 1⟩
def F.CTL_CLK_STAT_AUDCOAST : Field := ⟨0x400, 3, 1⟩
def F.CTL_CLK_STAT_SYSLOCK : Field := ⟨0x400, 1, 1⟩
def F.CTL_CLK_STAT_AUDLOCK : Field := ⟨0x400, 0, 1⟩
def F.CTL_SYSPLL_CFG_NINT : Field := ⟨0x404, 24, 8⟩
def F.CTL_SYSPLL_CFG_FRAC : Field := ⟨0x404, 0, 24⟩
def F.CTL_AUDPLL_CFG_NINT : Field := ⟨0x408, 24, 8⟩
def F.CTL_AUDPLL_CFG_FRAC : Field := ⟨0x408, 0, 24⟩
def F.CTL_REG_CFG_REGADDR : Field := ⟨0x500, 8, 7⟩
def F.CTL_REG_CFG_PEC : Field := ⟨0x500, 2, 1⟩
def F.CTL_REG_CFG_ACKSRC : Field := ⟨0x500, 0, 2⟩
def F.CTL_REG_STAT_BUSY : Field := ⟨0x504, 31, 1⟩
def F.CTL_REG_STAT_REGLINK : Field := ⟨0x504, 30, 1⟩
def F.CTL_REG_STAT_NACK : Field := ⟨0x504, 29, 1⟩
def F.CTL_REG_STAT_PECERR : Field := ⟨0x504, 28, 1⟩
def F.CTL_REG_STAT_MODEOK : Field := ⟨0x504, 27, 1⟩
def F.CTL_REG_STAT_EXP : Field := ⟨0x504, 16, 5⟩
def F.CTL_REG_STAT_VOUT : Field := ⟨0x504, 0, 16⟩
def F.CTL_SEC_STAT_LC : Field := ⟨0x600, 28, 4⟩
def F.CTL_SEC_STAT_LCNEXT : Field := ⟨0x600, 24, 4⟩
def F.CTL_SEC_STAT_DBGOPEN : Field := ⟨0x600, 23, 1⟩
def F.CTL_SEC_STAT_DBGDIS : Field := ⟨0x600, 22, 1⟩
def F.CTL_SEC_STAT_SESS : Field := ⟨0x600, 21, 1⟩
def F.CTL_SEC_STAT_LOCKOUT : Field := ⟨0x600, 20, 1⟩
def F.CTL_SEC_STAT_BOOTSRC : Field := ⟨0x600, 18, 2⟩
def F.CTL_SEC_STAT_SESSNO : Field := ⟨0x600, 0, 16⟩
def F.CTL_SEC_CNT_AUTHFAIL : Field := ⟨0x604, 16, 16⟩
def F.CTL_SEC_CNT_CONSEC : Field := ⟨0x604, 8, 8⟩
def F.CTL_SEC_CNT_LOCKOUTS : Field := ⟨0x604, 0, 8⟩
def F.CTL_BOOT_STAT_WAITIMG : Field := ⟨0x608, 31, 1⟩
def F.CTL_BOOT_STAT_VERIFY : Field := ⟨0x608, 30, 1⟩
def F.CTL_BOOT_STAT_BOOTERR : Field := ⟨0x608, 16, 8⟩
def F.CTL_BOOT_CTRL_GO : Field := ⟨0x60C, 31, 1⟩
def F.CTL_BOOT_CTRL_LEN : Field := ⟨0x60C, 0, 18⟩
def F.CTL_SEC_ROLL_FWROLL : Field := ⟨0x610, 24, 8⟩
def F.CTL_SEC_ROLL_GRAPHROLL : Field := ⟨0x610, 8, 8⟩
def F.CTL_SEC_ROLL_WKDROLL : Field := ⟨0x610, 0, 8⟩
def F.CTL_FUSE_FUSE (n : Nat) : Field := ⟨0x700 + 0x4 * n, 0, 32⟩
def F.PWR_STATE_TRANS : Field := ⟨0xE0000, 31, 1⟩
def F.PWR_STATE_TARGET : Field := ⟨0xE0000, 24, 3⟩
def F.PWR_STATE_PHASE : Field := ⟨0xE0000, 12, 4⟩
def F.PWR_STATE_STATE : Field := ⟨0xE0000, 8, 3⟩
def F.PWR_STATE_WTARGET : Field := ⟨0xE0000, 4, 3⟩
def F.PWR_DOMSTAT_ON : Field := ⟨0xE0004, 0, 26⟩
def F.PWR_PERMIT_MASK : Field := ⟨0xE0008, 0, 26⟩
def F.PWR_WAKECFG_WBEN : Field := ⟨0xE0010, 31, 1⟩
def F.PWR_WAKECFG_WADDR : Field := ⟨0xE0010, 24, 7⟩
def F.PWR_WAKECFG_PTTWK : Field := ⟨0xE0010, 16, 1⟩
def F.PWR_GPIO_WAKE_MODE (k : Nat) : Field := ⟨0xE0014, 4 * k, 3⟩
def F.PWR_GPIO_WAKE_EVT (k : Nat) : Field := ⟨0xE0014, 4 * k + 3, 1⟩
def F.PWR_GPIO_IO_IN : Field := ⟨0xE0018, 16, 8⟩
def F.PWR_GPIO_IO_OE : Field := ⟨0xE0018, 8, 8⟩
def F.PWR_GPIO_IO_OUT : Field := ⟨0xE0018, 0, 8⟩
def F.PWR_WAKESRC_FIRST : Field := ⟨0xE0020, 28, 4⟩
def F.PWR_WAKESRC_GPIOMAP : Field := ⟨0xE0020, 16, 8⟩
def F.PWR_WAKESRC_SRCMAP : Field := ⟨0xE0020, 8, 3⟩
def F.PWR_WAKESRC_TARGET : Field := ⟨0xE0020, 0, 3⟩
def F.PWR_WAKETIME_LO_VAL : Field := ⟨0xE0024, 0, 32⟩
def F.PWR_WAKETIME_HI_VAL : Field := ⟨0xE0028, 0, 32⟩
def F.PWR_GECKO_RELEASE : Field := ⟨0xE0030, 31, 1⟩
def F.PWR_GECKO_HELD : Field := ⟨0xE0030, 0, 8⟩
def F.CTL_ERRCOL_STAT_ESCCNT : Field := ⟨0xFFF00, 24, 8⟩
def F.CTL_ERRCOL_STAT_REPCNT : Field := ⟨0xFFF00, 16, 8⟩
def F.CTL_ERRCOL_STAT_OVERRUN : Field := ⟨0xFFF00, 7, 1⟩
def F.CTL_ERRCOL_STAT_CHIPESC : Field := ⟨0xFFF00, 6, 1⟩
def F.CTL_ERRCOL_STAT_POISON : Field := ⟨0xFFF00, 5, 1⟩
def F.CTL_ERRCOL_STAT_LEVEL : Field := ⟨0xFFF00, 0, 3⟩
def F.DSP_NE_STAT_ROLE (n : Nat) : Field := ⟨0x100000 + 0x40 * n, 28, 4⟩
def F.DSP_NE_STAT_LENG (n : Nat) : Field := ⟨0x100000 + 0x40 * n, 24, 4⟩
def F.DSP_NE_STAT_LOCKSTEP (n : Nat) : Field := ⟨0x100000 + 0x40 * n, 7, 1⟩
def F.DSP_NE_STAT_ENGECC (n : Nat) : Field := ⟨0x100000 + 0x40 * n, 6, 1⟩
def F.DSP_NE_STAT_BLKLATE (n : Nat) : Field := ⟨0x100000 + 0x40 * n, 5, 1⟩
def F.DSP_NE_STAT_ENGPROG (n : Nat) : Field := ⟨0x100000 + 0x40 * n, 4, 1⟩
def F.DSP_NE_STAT_ECCCOR (n : Nat) : Field := ⟨0x100000 + 0x40 * n, 3, 1⟩
def F.DSP_NE_STAT_CLKON (n : Nat) : Field := ⟨0x100000 + 0x40 * n, 0, 1⟩
def F.DSP_NE_LOAD_PEAK (n : Nat) : Field := ⟨0x100004 + 0x40 * n, 16, 16⟩
def F.DSP_NE_LOAD_LAST (n : Nat) : Field := ⟨0x100004 + 0x40 * n, 0, 16⟩
def F.DSP_NE_FCNT_LSCNT (n : Nat) : Field := ⟨0x100008 + 0x40 * n, 24, 8⟩
def F.DSP_NE_FCNT_UNCCNT (n : Nat) : Field := ⟨0x100008 + 0x40 * n, 16, 8⟩
def F.DSP_NE_FCNT_CORCNT (n : Nat) : Field := ⟨0x100008 + 0x40 * n, 0, 16⟩
def F.DSP_NE_CTRL_INJECT (n : Nat) : Field := ⟨0x10000C + 0x40 * n, 0, 1⟩
def F.DSP_NE_BLK_LO_VAL (n : Nat) : Field := ⟨0x100010 + 0x40 * n, 0, 32⟩
def F.DSP_NE_BLK_HI_VAL (n : Nat) : Field := ⟨0x100014 + 0x40 * n, 0, 32⟩
def F.DSP_GRAPH_STAT_GSTATE : Field := ⟨0x100200, 28, 4⟩
def F.DSP_GRAPH_STAT_FGC : Field := ⟨0x100200, 26, 2⟩
def F.DSP_GRAPH_STAT_BC : Field := ⟨0x100200, 24, 2⟩
def F.DSP_GRAPH_STAT_S : Field := ⟨0x100200, 20, 4⟩
def F.DSP_GRAPH_STAT_E : Field := ⟨0x100200, 16, 4⟩
def F.DSP_GRAPH_STAT_NRA : Field := ⟨0x100200, 0, 16⟩
def F.DSP_GRAPH_ID_VAL : Field := ⟨0x100204, 0, 32⟩
def F.DSP_GRAPH_BLK_LO_VAL : Field := ⟨0x100208, 0, 32⟩
def F.DSP_GRAPH_BLK_HI_VAL : Field := ⟨0x10020C, 0, 32⟩
def F.DSP_SPARE_SPMAP : Field := ⟨0x100210, 24, 8⟩
def F.DSP_SPARE_FLOOR : Field := ⟨0x100210, 16, 4⟩
def F.DSP_SPARE_RESERVE : Field := ⟨0x100210, 8, 4⟩
def F.DSP_SPARE_RETIRED : Field := ⟨0x100210, 0, 4⟩
def F.DSP_RING_BASE_BASE (n : Nat) : Field := ⟨0x100400 + 0x10 * n, 8, 13⟩
def F.DSP_RING_CFG_OVF (n : Nat) : Field := ⟨0x100404 + 0x10 * n, 23, 1⟩
def F.DSP_RING_CFG_BADCFG (n : Nat) : Field := ⟨0x100404 + 0x10 * n, 22, 1⟩
def F.DSP_RING_CFG_ENABLE (n : Nat) : Field := ⟨0x100404 + 0x10 * n, 16, 1⟩
def F.DSP_RING_CFG_DIR (n : Nat) : Field := ⟨0x100404 + 0x10 * n, 12, 1⟩
def F.DSP_RING_CFG_IE (n : Nat) : Field := ⟨0x100404 + 0x10 * n, 8, 1⟩
def F.DSP_RING_CFG_LOG2SIZE (n : Nat) : Field := ⟨0x100404 + 0x10 * n, 0, 5⟩
def F.DSP_RING_HIDX_HIDX (n : Nat) : Field := ⟨0x100408 + 0x10 * n, 0, 17⟩
def F.DSP_RING_DIDX_DIDX (n : Nat) : Field := ⟨0x10040C + 0x10 * n, 0, 17⟩
def F.DSP_STR_CFG_STYPE (n : Nat) : Field := ⟨0x102000 + 0x20 * n, 28, 4⟩
def F.DSP_STR_CFG_SIDX (n : Nat) : Field := ⟨0x102000 + 0x20 * n, 20, 6⟩
def F.DSP_STR_CFG_DTYPE (n : Nat) : Field := ⟨0x102000 + 0x20 * n, 12, 4⟩
def F.DSP_STR_CFG_DIDX (n : Nat) : Field := ⟨0x102000 + 0x20 * n, 4, 6⟩
def F.DSP_STR_FMT_ASFIRST (n : Nat) : Field := ⟨0x102004 + 0x20 * n, 26, 6⟩
def F.DSP_STR_FMT_AMODE (n : Nat) : Field := ⟨0x102004 + 0x20 * n, 24, 2⟩
def F.DSP_STR_FMT_NCH (n : Nat) : Field := ⟨0x102004 + 0x20 * n, 16, 5⟩
def F.DSP_STR_FMT_HFS (n : Nat) : Field := ⟨0x102004 + 0x20 * n, 12, 4⟩
def F.DSP_STR_FMT_WIDTH (n : Nat) : Field := ⟨0x102004 + 0x20 * n, 8, 2⟩
def F.DSP_STR_FMT_INVPOL (n : Nat) : Field := ⟨0x102004 + 0x20 * n, 1, 1⟩
def F.DSP_STR_FMT_VPOL (n : Nat) : Field := ⟨0x102004 + 0x20 * n, 0, 1⟩
def F.DSP_STR_STAT_STATE (n : Nat) : Field := ⟨0x102008 + 0x20 * n, 28, 4⟩
def F.DSP_STR_STAT_CAUSE (n : Nat) : Field := ⟨0x102008 + 0x20 * n, 16, 8⟩
def F.DSP_STR_STAT_LOCK (n : Nat) : Field := ⟨0x102008 + 0x20 * n, 8, 1⟩
def F.DSP_STR_STAT_OVR (n : Nat) : Field := ⟨0x102008 + 0x20 * n, 7, 1⟩
def F.DSP_STR_STAT_UNDR (n : Nat) : Field := ⟨0x102008 + 0x20 * n, 6, 1⟩
def F.DSP_STR_STAT_FRAMEERR (n : Nat) : Field := ⟨0x102008 + 0x20 * n, 5, 1⟩
def F.DSP_STR_STAT_NONPCM (n : Nat) : Field := ⟨0x102008 + 0x20 * n, 4, 1⟩
def F.DSP_STR_STAT_UNLOCK (n : Nat) : Field := ⟨0x102008 + 0x20 * n, 3, 1⟩
def F.DSP_STR_STAT_CLIP (n : Nat) : Field := ⟨0x102008 + 0x20 * n, 2, 1⟩
def F.DSP_STR_STAT_SRCINV (n : Nat) : Field := ⟨0x102008 + 0x20 * n, 1, 1⟩
def F.DSP_STR_STAT_DISC (n : Nat) : Field := ⟨0x102008 + 0x20 * n, 0, 1⟩
def F.DSP_STR_CNT_INVCNT (n : Nat) : Field := ⟨0x10200C + 0x20 * n, 16, 16⟩
def F.DSP_STR_CNT_CLIPCNT (n : Nat) : Field := ⟨0x10200C + 0x20 * n, 0, 16⟩
def F.DSP_STR_IDX_LO_VAL (n : Nat) : Field := ⟨0x102010 + 0x20 * n, 0, 32⟩
def F.DSP_STR_IDX_HI_VAL (n : Nat) : Field := ⟨0x102014 + 0x20 * n, 0, 32⟩
def F.DSP_STR_GOOD_LO_VAL (n : Nat) : Field := ⟨0x102018 + 0x20 * n, 0, 32⟩
def F.DSP_STR_GOOD_HI_VAL (n : Nat) : Field := ⟨0x10201C + 0x20 * n, 0, 32⟩
def F.DSP_LEAP_STAT_BOUND (n : Nat) : Field := ⟨0x103000 + 0x10 * n, 31, 1⟩
def F.DSP_LEAP_STAT_RETRACTING (n : Nat) : Field := ⟨0x103000 + 0x10 * n, 30, 1⟩
def F.DSP_LEAP_STAT_WLENG (n : Nat) : Field := ⟨0x103000 + 0x10 * n, 24, 4⟩
def F.DSP_LEAP_STAT_AHEAD (n : Nat) : Field := ⟨0x103000 + 0x10 * n, 0, 10⟩
def F.DSP_LEAP_CIDX_LO_VAL (n : Nat) : Field := ⟨0x103004 + 0x10 * n, 0, 32⟩
def F.DSP_LEAP_CIDX_HI_VAL (n : Nat) : Field := ⟨0x103008 + 0x10 * n, 0, 32⟩
def F.DSP_LEAP_CNT_RETCNT (n : Nat) : Field := ⟨0x10300C + 0x10 * n, 16, 16⟩
def F.DSP_LEAP_CNT_UNDCNT (n : Nat) : Field := ⟨0x10300C + 0x10 * n, 0, 16⟩
def F.DSP_SB_STAT_PWR (n : Nat) : Field := ⟨0x104000 + 0x10 * n, 30, 2⟩
def F.DSP_SB_STAT_RETPEND (n : Nat) : Field := ⟨0x104000 + 0x10 * n, 29, 1⟩
def F.DSP_SB_STAT_SPUSED (n : Nat) : Field := ⟨0x104000 + 0x10 * n, 24, 4⟩
def F.DSP_SB_STAT_BORROW (n : Nat) : Field := ⟨0x104000 + 0x10 * n, 23, 1⟩
def F.DSP_SB_STAT_BROW (n : Nat) : Field := ⟨0x104000 + 0x10 * n, 12, 9⟩
def F.DSP_SB_STAT_MARCHFAIL (n : Nat) : Field := ⟨0x104000 + 0x10 * n, 3, 1⟩
def F.DSP_SB_STAT_SCRUBLATE (n : Nat) : Field := ⟨0x104000 + 0x10 * n, 2, 1⟩
def F.DSP_SB_STAT_UNC (n : Nat) : Field := ⟨0x104000 + 0x10 * n, 1, 1⟩
def F.DSP_SB_STAT_COR (n : Nat) : Field := ⟨0x104000 + 0x10 * n, 0, 1⟩
def F.DSP_SB_ECC_CORCNT (n : Nat) : Field := ⟨0x104004 + 0x10 * n, 16, 16⟩
def F.DSP_SB_ECC_UNCCNT (n : Nat) : Field := ⟨0x104004 + 0x10 * n, 8, 8⟩
def F.DSP_SB_LASTERR_UNC (n : Nat) : Field := ⟨0x104008 + 0x10 * n, 31, 1⟩
def F.DSP_SB_LASTERR_SYND (n : Nat) : Field := ⟨0x104008 + 0x10 * n, 24, 7⟩
def F.DSP_SB_LASTERR_ROW (n : Nat) : Field := ⟨0x104008 + 0x10 * n, 6, 9⟩
def F.DSP_SB_LASTERR_COL (n : Nat) : Field := ⟨0x104008 + 0x10 * n, 0, 6⟩
def F.DSP_SB_CFG_RETSEL (n : Nat) : Field := ⟨0x10400C + 0x10 * n, 0, 1⟩
def F.DSP_SB_MARCH_ACTIVE : Field := ⟨0x104100, 31, 1⟩
def F.DSP_SB_MARCH_SKIP : Field := ⟨0x104100, 29, 1⟩
def F.DSP_SB_MARCH_BANK : Field := ⟨0x104100, 24, 4⟩
def F.DSP_SB_MARCH_FAILS : Field := ⟨0x104100, 16, 8⟩
def F.DSP_SB_MARCH_ROW : Field := ⟨0x104100, 0, 9⟩
def F.DSP_ERRCOL_STAT_ESCCNT : Field := ⟨0x1FFF00, 24, 8⟩
def F.DSP_ERRCOL_STAT_REPCNT : Field := ⟨0x1FFF00, 16, 8⟩
def F.DSP_ERRCOL_STAT_OVERRUN : Field := ⟨0x1FFF00, 7, 1⟩
def F.DSP_ERRCOL_STAT_CHIPESC : Field := ⟨0x1FFF00, 6, 1⟩
def F.DSP_ERRCOL_STAT_POISON : Field := ⟨0x1FFF00, 5, 1⟩
def F.DSP_ERRCOL_STAT_LEVEL : Field := ⟨0x1FFF00, 0, 3⟩
def F.IN_TDM_FMT_FORMAT (n : Nat) : Field := ⟨0x200000 + 0x100 * n, 30, 2⟩
def F.IN_TDM_FMT_SLOTS (n : Nat) : Field := ⟨0x200000 + 0x100 * n, 24, 5⟩
def F.IN_TDM_FMT_SLOTW (n : Nat) : Field := ⟨0x200000 + 0x100 * n, 20, 2⟩
def F.IN_TDM_FMT_DATAW (n : Nat) : Field := ⟨0x200000 + 0x100 * n, 18, 2⟩
def F.IN_TDM_FMT_FSPOL (n : Nat) : Field := ⟨0x200000 + 0x100 * n, 17, 1⟩
def F.IN_TDM_FMT_BCPOL (n : Nat) : Field := ⟨0x200000 + 0x100 * n, 16, 1⟩
def F.IN_TDM_FMT_FSW (n : Nat) : Field := ⟨0x200000 + 0x100 * n, 14, 2⟩
def F.IN_TDM_FMT_FSDLY (n : Nat) : Field := ⟨0x200000 + 0x100 * n, 13, 1⟩
def F.IN_TDM_CLK_MASTER (n : Nat) : Field := ⟨0x200004 + 0x100 * n, 31, 1⟩
def F.IN_TDM_CLK_FS (n : Nat) : Field := ⟨0x200004 + 0x100 * n, 24, 4⟩
def F.IN_TDM_CLK_BDIV (n : Nat) : Field := ⟨0x200004 + 0x100 * n, 0, 12⟩
def F.IN_TDM_BUS_KEEP (n : Nat) : Field := ⟨0x200008 + 0x100 * n, 17, 1⟩
def F.IN_TDM_BUS_CHAIN (n : Nat) : Field := ⟨0x200008 + 0x100 * n, 16, 1⟩
def F.IN_TDM_BUS_TXHIZ (n : Nat) : Field := ⟨0x200008 + 0x100 * n, 0, 1⟩
def F.IN_TDM_STAT_FSMEAS (n : Nat) : Field := ⟨0x20000C + 0x100 * n, 24, 4⟩
def F.IN_TDM_STAT_FERRCNT (n : Nat) : Field := ⟨0x20000C + 0x100 * n, 16, 8⟩
def F.IN_TDM_STAT_RATEERR (n : Nat) : Field := ⟨0x20000C + 0x100 * n, 2, 1⟩
def F.IN_TDM_STAT_LOST (n : Nat) : Field := ⟨0x20000C + 0x100 * n, 1, 1⟩
def F.IN_TDM_STAT_SYNC (n : Nat) : Field := ⟨0x20000C + 0x100 * n, 0, 1⟩
def F.IN_SPDRX_STAT_FSMEAS : Field := ⟨0x200200, 28, 4⟩
def F.IN_SPDRX_STAT_PERRCNT : Field := ⟨0x200200, 16, 8⟩
def F.IN_SPDRX_STAT_NONPCM : Field := ⟨0x200200, 3, 1⟩
def F.IN_SPDRX_STAT_CSCHG : Field := ⟨0x200200, 2, 1⟩
def F.IN_SPDRX_STAT_LOST : Field := ⟨0x200200, 1, 1⟩
def F.IN_SPDRX_STAT_LOCK : Field := ⟨0x200200, 0, 1⟩
def F.IN_AADC_CFG_EN (n : Nat) : Field := ⟨0x280000 + 0x20 * n, 31, 1⟩
def F.IN_AADC_CFG_MUX (n : Nat) : Field := ⟨0x280000 + 0x20 * n, 27, 2⟩
def F.IN_AADC_CFG_PGA (n : Nat) : Field := ⟨0x280000 + 0x20 * n, 16, 6⟩
def F.IN_AADC_CFG_HPF (n : Nat) : Field := ⟨0x280000 + 0x20 * n, 14, 2⟩
def F.IN_AADC_CFG_RATE (n : Nat) : Field := ⟨0x280000 + 0x20 * n, 8, 4⟩
def F.IN_AADC_STAT_PGAACT (n : Nat) : Field := ⟨0x280004 + 0x20 * n, 16, 6⟩
def F.IN_AADC_STAT_OVL (n : Nat) : Field := ⟨0x280004 + 0x20 * n, 3, 1⟩
def F.IN_AADC_STAT_PGAPEND (n : Nat) : Field := ⟨0x280004 + 0x20 * n, 2, 1⟩
def F.IN_AADC_STAT_INVAL (n : Nat) : Field := ⟨0x280004 + 0x20 * n, 1, 1⟩
def F.IN_AADC_STAT_ON (n : Nat) : Field := ⟨0x280004 + 0x20 * n, 0, 1⟩
def F.IN_MICB_CFG_EN1 : Field := ⟨0x280100, 15, 1⟩
def F.IN_MICB_CFG_VSEL1 : Field := ⟨0x280100, 8, 4⟩
def F.IN_MICB_CFG_EN0 : Field := ⟨0x280100, 7, 1⟩
def F.IN_MICB_CFG_VSEL0 : Field := ⟨0x280100, 0, 4⟩
def F.IN_PDM_CFG_EN1 : Field := ⟨0x280200, 31, 1⟩
def F.IN_PDM_CFG_DIV1 : Field := ⟨0x280200, 24, 3⟩
def F.IN_PDM_CFG_SDLY1 : Field := ⟨0x280200, 20, 3⟩
def F.IN_PDM_CFG_MSETTLE : Field := ⟨0x280200, 16, 4⟩
def F.IN_PDM_CFG_EN0 : Field := ⟨0x280200, 15, 1⟩
def F.IN_PDM_CFG_DIV0 : Field := ⟨0x280200, 8, 3⟩
def F.IN_PDM_CFG_SDLY0 : Field := ⟨0x280200, 4, 3⟩
def F.IN_PDM_MIC_MODE : Field := ⟨0x280204, 16, 16⟩
def F.IN_PDM_MIC_RATE : Field := ⟨0x280204, 8, 4⟩
def F.IN_PDM_MIC_MEN : Field := ⟨0x280204, 0, 8⟩
def F.IN_FE_STAT_MB1OVC : Field := ⟨0x280208, 25, 1⟩
def F.IN_FE_STAT_MB0OVC : Field := ⟨0x280208, 24, 1⟩
def F.IN_FE_STAT_MB1RAMP : Field := ⟨0x280208, 17, 1⟩
def F.IN_FE_STAT_MB0RAMP : Field := ⟨0x280208, 16, 1⟩
def F.IN_FE_STAT_MINVAL : Field := ⟨0x280208, 8, 8⟩
def F.IN_FE_STAT_CLK1ON : Field := ⟨0x280208, 1, 1⟩
def F.IN_FE_STAT_CLK0ON : Field := ⟨0x280208, 0, 1⟩
def F.IN_TAP_CFG_TAPEN : Field := ⟨0x280300, 31, 1⟩
def F.IN_TAP_CFG_W24 : Field := ⟨0x280300, 30, 1⟩
def F.IN_TAP_CFG_TAPMAP : Field := ⟨0x280300, 16, 12⟩
def F.IN_TAP_CFG_GATETO : Field := ⟨0x280300, 12, 4⟩
def F.IN_TAP_CFG_PTTEN : Field := ⟨0x280300, 9, 1⟩
def F.IN_TAP_CFG_RELCLOSE : Field := ⟨0x280300, 8, 1⟩
def F.IN_TAP_CFG_PTTPRE : Field := ⟨0x280300, 0, 8⟩
def F.IN_TAD_STAT_GATE : Field := ⟨0x280304, 30, 2⟩
def F.IN_TAD_STAT_PTTLVL : Field := ⟨0x280304, 29, 1⟩
def F.IN_TAD_STAT_NCH : Field := ⟨0x280304, 24, 4⟩
def F.IN_TAD_STAT_CAP : Field := ⟨0x280304, 0, 19⟩
def F.IN_TAD_WIDX_LO_VAL : Field := ⟨0x280308, 0, 32⟩
def F.IN_TAD_WIDX_HI_VAL : Field := ⟨0x28030C, 0, 32⟩
def F.IN_TAD_OLDEST_LO_VAL : Field := ⟨0x280310, 0, 32⟩
def F.IN_TAD_OLDEST_HI_VAL : Field := ⟨0x280314, 0, 32⟩
def F.IN_TAD_GSTART_LO_VAL : Field := ⟨0x280318, 0, 32⟩
def F.IN_TAD_GSTART_HI_VAL : Field := ⟨0x28031C, 0, 32⟩
def F.IN_TAD_GOPEN_LO_VAL : Field := ⟨0x280320, 0, 32⟩
def F.IN_TAD_GOPEN_HI_VAL : Field := ⟨0x280324, 0, 32⟩
def F.IN_WKD_CFG_EN : Field := ⟨0x280400, 31, 1⟩
def F.IN_WKD_CFG_LOADED : Field := ⟨0x280400, 30, 1⟩
def F.IN_WKD_CFG_SRC1 : Field := ⟨0x280400, 20, 4⟩
def F.IN_WKD_CFG_SRC0 : Field := ⟨0x280400, 16, 4⟩
def F.IN_WKD_CFG_THR : Field := ⟨0x280400, 8, 8⟩
def F.IN_WKD_CFG_PREROLL : Field := ⟨0x280400, 0, 8⟩
def F.IN_WKD_STAT_SCORE : Field := ⟨0x280404, 24, 8⟩
def F.IN_WKD_STAT_DETCNT : Field := ⟨0x280404, 16, 8⟩
def F.IN_WKD_STAT_RESET : Field := ⟨0x280404, 1, 1⟩
def F.IN_WKD_STAT_DET : Field := ⟨0x280404, 0, 1⟩
def F.IN_WKD_MODEL_VAL : Field := ⟨0x280408, 0, 32⟩
def F.IN_ERRCOL_STAT_ESCCNT : Field := ⟨0x2FFF00, 24, 8⟩
def F.IN_ERRCOL_STAT_REPCNT : Field := ⟨0x2FFF00, 16, 8⟩
def F.IN_ERRCOL_STAT_OVERRUN : Field := ⟨0x2FFF00, 7, 1⟩
def F.IN_ERRCOL_STAT_CHIPESC : Field := ⟨0x2FFF00, 6, 1⟩
def F.IN_ERRCOL_STAT_POISON : Field := ⟨0x2FFF00, 5, 1⟩
def F.IN_ERRCOL_STAT_LEVEL : Field := ⟨0x2FFF00, 0, 3⟩
def F.OUT_G_CFG_CMRAMP (n : Nat) : Field := ⟨0x300000 + 0x100 * n, 24, 8⟩
def F.OUT_G_CFG_PAIR (n : Nat) : Field := ⟨0x300000 + 0x100 * n, 10, 2⟩
def F.OUT_G_CFG_AUTORST (n : Nat) : Field := ⟨0x300000 + 0x100 * n, 9, 1⟩
def F.OUT_G_CFG_SLICEPOL (n : Nat) : Field := ⟨0x300000 + 0x100 * n, 8, 1⟩
def F.OUT_G_CFG_BAND (n : Nat) : Field := ⟨0x300000 + 0x100 * n, 7, 1⟩
def F.OUT_G_CFG_LOOPBW (n : Nat) : Field := ⟨0x300000 + 0x100 * n, 5, 2⟩
def F.OUT_G_CFG_CVSEL (n : Nat) : Field := ⟨0x300000 + 0x100 * n, 2, 3⟩
def F.OUT_G_THERM_TFB (n : Nat) : Field := ⟨0x300004 + 0x100 * n, 24, 8⟩
def F.OUT_G_THERM_FBRATE (n : Nat) : Field := ⟨0x300004 + 0x100 * n, 20, 4⟩
def F.OUT_G_THERM_TEVSTEP (n : Nat) : Field := ⟨0x300004 + 0x100 * n, 16, 4⟩
def F.OUT_G_THERM_FBATT (n : Nat) : Field := ⟨0x300004 + 0x100 * n, 8, 8⟩
def F.OUT_G_THERM_TJ (n : Nat) : Field := ⟨0x300004 + 0x100 * n, 0, 8⟩
def F.OUT_G_STAT_XSTATE (n : Nat) : Field := ⟨0x300008 + 0x100 * n, 30, 2⟩
def F.OUT_G_STAT_XNODE (n : Nat) : Field := ⟨0x300008 + 0x100 * n, 27, 3⟩
def F.OUT_G_STAT_HEALED (n : Nat) : Field := ⟨0x300008 + 0x100 * n, 18, 8⟩
def F.OUT_G_STAT_TSHUT (n : Nat) : Field := ⟨0x300008 + 0x100 * n, 15, 1⟩
def F.OUT_G_STAT_FBACT (n : Nat) : Field := ⟨0x300008 + 0x100 * n, 14, 1⟩
def F.OUT_G_STAT_PVDDOK (n : Nat) : Field := ⟨0x300008 + 0x100 * n, 13, 1⟩
def F.OUT_G_STAT_PVDD (n : Nat) : Field := ⟨0x300008 + 0x100 * n, 0, 12⟩
def F.OUT_G_XPT_UPDATE (n : Nat) : Field := ⟨0x30000C + 0x100 * n, 31, 1⟩
def F.OUT_G_XPT_XPTERR (n : Nat) : Field := ⟨0x30000C + 0x100 * n, 30, 1⟩
def F.OUT_G_XPT_AEN (n : Nat) : Field := ⟨0x30000C + 0x100 * n, 20, 1⟩
def F.OUT_G_XPT_ANODE (n : Nat) : Field := ⟨0x30000C + 0x100 * n, 16, 3⟩
def F.OUT_G_XPT_EN (n : Nat) : Field := ⟨0x30000C + 0x100 * n, 4, 1⟩
def F.OUT_G_XPT_NODE (n : Nat) : Field := ⟨0x30000C + 0x100 * n, 0, 3⟩
def F.OUT_G_XCYC_LO_VAL (n : Nat) : Field := ⟨0x300010 + 0x100 * n, 0, 32⟩
def F.OUT_G_XCYC_HI_VAL (n : Nat) : Field := ⟨0x300014 + 0x100 * n, 0, 32⟩
def F.OUT_SPK_FUSE_PCEIL : Field := ⟨0x300F00, 24, 8⟩
def F.OUT_SPK_FUSE_TFBMAX : Field := ⟨0x300F00, 16, 8⟩
def F.OUT_SPK_FUSE_ILIMMAX : Field := ⟨0x300F00, 12, 4⟩
def F.OUT_SPK_FUSE_CRKMIN : Field := ⟨0x300F00, 0, 8⟩
def F.OUT_SPK_CFG_FSPK (n : Nat) : Field := ⟨0x301000 + 0x40 * n, 28, 4⟩
def F.OUT_SPK_CFG_ZNOM (n : Nat) : Field := ⟨0x301000 + 0x40 * n, 20, 8⟩
def F.OUT_SPK_CFG_ILIM (n : Nat) : Field := ⟨0x301000 + 0x40 * n, 16, 4⟩
def F.OUT_SPK_CFG_FADE (n : Nat) : Field := ⟨0x301000 + 0x40 * n, 8, 8⟩
def F.OUT_SPK_CFG_POLINV (n : Nat) : Field := ⟨0x301000 + 0x40 * n, 7, 1⟩
def F.OUT_SPK_CFG_TRACK (n : Nat) : Field := ⟨0x301000 + 0x40 * n, 6, 1⟩
def F.OUT_SPK_LIMIT_PLIM (n : Nat) : Field := ⟨0x301004 + 0x40 * n, 24, 8⟩
def F.OUT_SPK_LIMIT_TAU (n : Nat) : Field := ⟨0x301004 + 0x40 * n, 16, 8⟩
def F.OUT_SPK_LIMIT_DCTHR (n : Nat) : Field := ⟨0x301004 + 0x40 * n, 8, 8⟩
def F.OUT_SPK_CTRL_RETRY (n : Nat) : Field := ⟨0x301008 + 0x40 * n, 2, 1⟩
def F.OUT_SPK_CTRL_STOP (n : Nat) : Field := ⟨0x301008 + 0x40 * n, 1, 1⟩
def F.OUT_SPK_CTRL_START (n : Nat) : Field := ⟨0x301008 + 0x40 * n, 0, 1⟩
def F.OUT_SPK_STAT_PHASE (n : Nat) : Field := ⟨0x30100C + 0x40 * n, 28, 4⟩
def F.OUT_SPK_STAT_SCLASS (n : Nat) : Field := ⟨0x30100C + 0x40 * n, 25, 3⟩
def F.OUT_SPK_STAT_XSPARE (n : Nat) : Field := ⟨0x30100C + 0x40 * n, 24, 1⟩
def F.OUT_SPK_STAT_XLEG (n : Nat) : Field := ⟨0x30100C + 0x40 * n, 23, 1⟩
def F.OUT_SPK_STAT_MUTED (n : Nat) : Field := ⟨0x30100C + 0x40 * n, 22, 1⟩
def F.OUT_SPK_STAT_CRK (n : Nat) : Field := ⟨0x30100C + 0x40 * n, 21, 1⟩
def F.OUT_SPK_STAT_SHORT (n : Nat) : Field := ⟨0x30100C + 0x40 * n, 15, 1⟩
def F.OUT_SPK_STAT_LEGFAIL (n : Nat) : Field := ⟨0x30100C + 0x40 * n, 14, 1⟩
def F.OUT_SPK_STAT_SLICE (n : Nat) : Field := ⟨0x30100C + 0x40 * n, 13, 1⟩
def F.OUT_SPK_STAT_DCLOAD (n : Nat) : Field := ⟨0x30100C + 0x40 * n, 12, 1⟩
def F.OUT_SPK_STAT_TSHUT (n : Nat) : Field := ⟨0x30100C + 0x40 * n, 11, 1⟩
def F.OUT_SPK_STAT_PVDDUV (n : Nat) : Field := ⟨0x30100C + 0x40 * n, 10, 1⟩
def F.OUT_SPK_STAT_CLIP (n : Nat) : Field := ⟨0x30100C + 0x40 * n, 9, 1⟩
def F.OUT_SPK_STAT_ILIMHIT (n : Nat) : Field := ⟨0x30100C + 0x40 * n, 8, 1⟩
def F.OUT_SPK_STAT_UNDR (n : Nat) : Field := ⟨0x30100C + 0x40 * n, 7, 1⟩
def F.OUT_SPK_PROT_ATT (n : Nat) : Field := ⟨0x301010 + 0x40 * n, 24, 8⟩
def F.OUT_SPK_PROT_PLATT (n : Nat) : Field := ⟨0x301010 + 0x40 * n, 16, 8⟩
def F.OUT_SPK_PROT_PSLC (n : Nat) : Field := ⟨0x301010 + 0x40 * n, 12, 4⟩
def F.OUT_SPK_PROT_MSLC (n : Nat) : Field := ⟨0x301010 + 0x40 * n, 8, 4⟩
def F.OUT_SPK_PROT_ILIMEFF (n : Nat) : Field := ⟨0x301010 + 0x40 * n, 0, 8⟩
def F.OUT_SPK_CYCP_LO_VAL (n : Nat) : Field := ⟨0x301018 + 0x40 * n, 0, 32⟩
def F.OUT_SPK_CYCP_HI_VAL (n : Nat) : Field := ⟨0x30101C + 0x40 * n, 0, 32⟩
def F.OUT_SPK_CYCM_LO_VAL (n : Nat) : Field := ⟨0x301020 + 0x40 * n, 0, 32⟩
def F.OUT_SPK_CYCM_HI_VAL (n : Nat) : Field := ⟨0x301024 + 0x40 * n, 0, 32⟩
def F.OUT_CRK_STAT_ACTIVE : Field := ⟨0x302000, 24, 8⟩
def F.OUT_CRK_STAT_ALERT : Field := ⟨0x302000, 20, 4⟩
def F.OUT_CRK_STAT_LOCKED : Field := ⟨0x302000, 19, 1⟩
def F.OUT_CRK_STAT_CHPLAY : Field := ⟨0x302000, 0, 12⟩
def F.OUT_SW_CTRL_UPDATE : Field := ⟨0x303000, 31, 1⟩
def F.OUT_SW_CTRL_COASTTHRU : Field := ⟨0x303000, 30, 1⟩
def F.OUT_SW_CTRL_PROFILE : Field := ⟨0x303000, 24, 2⟩
def F.OUT_SW_CTRL_RTIME : Field := ⟨0x303000, 0, 16⟩
def F.OUT_SW_FREQ_NINT : Field := ⟨0x303004, 24, 8⟩
def F.OUT_SW_FREQ_FRAC : Field := ⟨0x303004, 0, 24⟩
def F.OUT_SW_FREQA_NINT : Field := ⟨0x303008, 24, 8⟩
def F.OUT_SW_FREQA_FRAC : Field := ⟨0x303008, 0, 24⟩
def F.OUT_SW_FREQI_NINT : Field := ⟨0x30300C, 24, 8⟩
def F.OUT_SW_FREQI_FRAC : Field := ⟨0x30300C, 0, 24⟩
def F.OUT_SW_OUT_EN (n : Nat) : Field := ⟨0x303010 + 0x4 * n, 31, 1⟩
def F.OUT_SW_OUT_DELAY (n : Nat) : Field := ⟨0x303010 + 0x4 * n, 16, 12⟩
def F.OUT_SW_OUT_DIV (n : Nat) : Field := ⟨0x303010 + 0x4 * n, 0, 9⟩
def F.OUT_SW_OUTA_EN (n : Nat) : Field := ⟨0x303020 + 0x4 * n, 31, 1⟩
def F.OUT_SW_OUTA_DELAY (n : Nat) : Field := ⟨0x303020 + 0x4 * n, 16, 12⟩
def F.OUT_SW_OUTA_DIV (n : Nat) : Field := ⟨0x303020 + 0x4 * n, 0, 9⟩
def F.OUT_SW_STAT_LOCK : Field := ⟨0x303030, 31, 1⟩
def F.OUT_SW_STAT_COAST : Field := ⟨0x303030, 30, 1⟩
def F.OUT_SW_STAT_RAMP : Field := ⟨0x303030, 29, 1⟩
def F.OUT_SW_STAT_SWON : Field := ⟨0x303030, 28, 1⟩
def F.OUT_SW_STAT_GATE : Field := ⟨0x303030, 25, 3⟩
def F.OUT_SW_STAT_ALIGNED : Field := ⟨0x303030, 24, 1⟩
def F.OUT_SW_STAT_SYNCMODE : Field := ⟨0x303030, 22, 2⟩
def F.OUT_SW_STAT_CONF : Field := ⟨0x303030, 19, 3⟩
def F.OUT_SW_STAT_HOLD : Field := ⟨0x303030, 16, 3⟩
def F.OUT_SW_STAT_XFERERR : Field := ⟨0x303030, 7, 1⟩
def F.OUT_SW_STAT_RSTRETCH : Field := ⟨0x303030, 6, 1⟩
def F.OUT_SW_STAT_SYNCERR : Field := ⟨0x303030, 5, 1⟩
def F.OUT_SW_STAT_LOSTLOCK : Field := ⟨0x303030, 4, 1⟩
def F.OUT_SW_STAT_NOSOLN : Field := ⟨0x303030, 3, 1⟩
def F.OUT_SW_PLACE_FT : Field := ⟨0x303034, 16, 16⟩
def F.OUT_SW_PLACE_GUARD : Field := ⟨0x303034, 8, 8⟩
def F.OUT_SW_PLACE_PROFILE : Field := ⟨0x303034, 4, 2⟩
def F.OUT_SW_PLACE_ALLOWSTEP : Field := ⟨0x303034, 1, 1⟩
def F.OUT_SW_PLACE_ENABLE : Field := ⟨0x303034, 0, 1⟩
def F.OUT_SW_PRTIME_RTIME : Field := ⟨0x303038, 0, 16⟩
def F.OUT_HPL_CFG_HPEN : Field := ⟨0x304000, 31, 1⟩
def F.OUT_HPL_CFG_LOEN : Field := ⟨0x304000, 30, 1⟩
def F.OUT_HPL_CFG_JMODE : Field := ⟨0x304000, 24, 2⟩
def F.OUT_HPL_CFG_FADE : Field := ⟨0x304000, 16, 8⟩
def F.OUT_HPL_CFG_VOLR : Field := ⟨0x304000, 8, 8⟩
def F.OUT_HPL_CFG_VOLL : Field := ⟨0x304000, 0, 8⟩
def F.OUT_HPL_STAT_HPPHASE : Field := ⟨0x304004, 28, 4⟩
def F.OUT_HPL_STAT_LOPHASE : Field := ⟨0x304004, 24, 4⟩
def F.OUT_HPL_STAT_PUMP : Field := ⟨0x304004, 16, 2⟩
def F.OUT_HPL_STAT_JHOLD : Field := ⟨0x304004, 2, 1⟩
def F.OUT_HPL_STAT_HPOVC : Field := ⟨0x304004, 1, 1⟩
def F.OUT_HPL_STAT_UNDR : Field := ⟨0x304004, 0, 1⟩
def F.OUT_CV_CFG_MODE (n : Nat) : Field := ⟨0x305000 + 0x20 * n, 30, 2⟩
def F.OUT_CV_CFG_GAIN (n : Nat) : Field := ⟨0x305000 + 0x20 * n, 29, 1⟩
def F.OUT_CV_CFG_SLEW (n : Nat) : Field := ⟨0x305000 + 0x20 * n, 16, 8⟩
def F.OUT_CV_CFG_CODE (n : Nat) : Field := ⟨0x305000 + 0x20 * n, 0, 16⟩
def F.OUT_CV_AUX_HEAD (n : Nat) : Field := ⟨0x305004 + 0x20 * n, 24, 8⟩
def F.OUT_CV_AUX_REL (n : Nat) : Field := ⟨0x305004 + 0x20 * n, 16, 8⟩
def F.OUT_CV_AUX_CVCLR (n : Nat) : Field := ⟨0x305004 + 0x20 * n, 0, 16⟩
def F.OUT_CV_MAP_CODEMIN (n : Nat) : Field := ⟨0x305008 + 0x20 * n, 16, 16⟩
def F.OUT_CV_MAP_CODEMAX (n : Nat) : Field := ⟨0x305008 + 0x20 * n, 0, 16⟩
def F.OUT_CV_LIM_PMAX (n : Nat) : Field := ⟨0x30500C + 0x20 * n, 16, 9⟩
def F.OUT_CV_LIM_PMIN (n : Nat) : Field := ⟨0x30500C + 0x20 * n, 0, 9⟩
def F.OUT_CV_STAT_CLR (n : Nat) : Field := ⟨0x305010 + 0x20 * n, 31, 1⟩
def F.OUT_CV_STAT_PINNED (n : Nat) : Field := ⟨0x305010 + 0x20 * n, 30, 1⟩
def F.OUT_CV_STAT_SLEWING (n : Nat) : Field := ⟨0x305010 + 0x20 * n, 29, 1⟩
def F.OUT_CV_STAT_DEGL (n : Nat) : Field := ⟨0x305010 + 0x20 * n, 28, 1⟩
def F.OUT_CV_STAT_PA (n : Nat) : Field := ⟨0x305010 + 0x20 * n, 16, 9⟩
def F.OUT_CV_STAT_OUTCODE (n : Nat) : Field := ⟨0x305010 + 0x20 * n, 0, 16⟩
def F.OUT_ERRCOL_STAT_ESCCNT : Field := ⟨0x3FFF00, 24, 8⟩
def F.OUT_ERRCOL_STAT_REPCNT : Field := ⟨0x3FFF00, 16, 8⟩
def F.OUT_ERRCOL_STAT_OVERRUN : Field := ⟨0x3FFF00, 7, 1⟩
def F.OUT_ERRCOL_STAT_CHIPESC : Field := ⟨0x3FFF00, 6, 1⟩
def F.OUT_ERRCOL_STAT_POISON : Field := ⟨0x3FFF00, 5, 1⟩
def F.OUT_ERRCOL_STAT_LEVEL : Field := ⟨0x3FFF00, 0, 3⟩
def F.SAFE_SM_STAT_CSS : Field := ⟨0x400000, 30, 2⟩
def F.SAFE_SM_STAT_FN : Field := ⟨0x400000, 29, 1⟩
def F.SAFE_SM_STAT_SMOK : Field := ⟨0x400000, 28, 1⟩
def F.SAFE_SM_STAT_FALLBACK : Field := ⟨0x400000, 27, 1⟩
def F.SAFE_SM_STAT_RECLOST : Field := ⟨0x400000, 26, 1⟩
def F.SAFE_SM_STAT_ACTCNT : Field := ⟨0x400000, 16, 8⟩
def F.SAFE_SM_STAT_LASTREC : Field := ⟨0x400000, 0, 16⟩
def F.SAFE_SM_CFG_FNMASK : Field := ⟨0x400004, 28, 4⟩
def F.SAFE_SM_CFG_ALTPAIR : Field := ⟨0x400004, 27, 1⟩
def F.SAFE_SM_CFG_FNTEST : Field := ⟨0x400004, 26, 1⟩
def F.SAFE_SM_CFG_CRKALT : Field := ⟨0x400004, 12, 12⟩
def F.SAFE_SM_CFG_VOICEMAP : Field := ⟨0x400004, 0, 12⟩
def F.SAFE_FN_STAT_DRIVE : Field := ⟨0x400008, 31, 1⟩
def F.SAFE_FN_STAT_LEVEL : Field := ⟨0x400008, 30, 1⟩
def F.SAFE_FN_STAT_FNPIN : Field := ⟨0x400008, 2, 1⟩
def F.SAFE_FN_STAT_FNEXT : Field := ⟨0x400008, 1, 1⟩
def F.SAFE_FN_STAT_TESTED : Field := ⟨0x400008, 0, 1⟩
def F.SAFE_SM_CFG2_ESCMODE : Field := ⟨0x40000C, 30, 2⟩
def F.SAFE_SM_CFG2_SELFPER : Field := ⟨0x40000C, 16, 8⟩
def F.SAFE_SM_CFG2_LOUDEN : Field := ⟨0x40000C, 0, 12⟩
def F.SAFE_SM_LOUD_LOUDTHR : Field := ⟨0x400010, 0, 8⟩
def F.SAFE_SM_MON_VIN : Field := ⟨0x400014, 8, 5⟩
def F.SAFE_SM_MON_CLKBAD : Field := ⟨0x400014, 4, 4⟩
def F.SAFE_SM_FUSE_FNMIN : Field := ⟨0x400018, 28, 4⟩
def F.SAFE_SM_FUSE_PAIRREQ : Field := ⟨0x400018, 27, 1⟩
def F.SAFE_SM_FUSE_OFFREQ : Field := ⟨0x400018, 26, 1⟩
def F.SAFE_CFGPAR_ADDR_VALID : Field := ⟨0x400100, 31, 1⟩
def F.SAFE_CFGPAR_ADDR_COUNT : Field := ⟨0x400100, 24, 7⟩
def F.SAFE_CFGPAR_ADDR_ADDR : Field := ⟨0x400100, 0, 24⟩
def F.SAFE_MADC_CFG_RESUME : Field := ⟨0x401000, 31, 1⟩
def F.SAFE_MADC_CFG_REFBUF_EN : Field := ⟨0x401000, 25, 1⟩
def F.SAFE_MADC_CFG_REFMODE : Field := ⟨0x401000, 24, 1⟩
def F.SAFE_MADC_CFG_PTHR : Field := ⟨0x401000, 16, 8⟩
def F.SAFE_MADC_STAT_ROLE (n : Nat) : Field := ⟨0x401004 + 0x4 * n, 30, 2⟩
def F.SAFE_MADC_STAT_REFON (n : Nat) : Field := ⟨0x401004 + 0x4 * n, 29, 1⟩
def F.SAFE_MADC_STAT_REFFB (n : Nat) : Field := ⟨0x401004 + 0x4 * n, 28, 1⟩
def F.SAFE_MADC_STAT_SUSP (n : Nat) : Field := ⟨0x401004 + 0x4 * n, 27, 1⟩
def F.SAFE_MADC_STAT_DEFCNT (n : Nat) : Field := ⟨0x401004 + 0x4 * n, 16, 8⟩
def F.SAFE_MADC_STAT_TOUT (n : Nat) : Field := ⟨0x401004 + 0x4 * n, 4, 1⟩
def F.SAFE_MADC_STAT_TDACERR (n : Nat) : Field := ⟨0x401004 + 0x4 * n, 3, 1⟩
def F.SAFE_MADC_STAT_REFNS (n : Nat) : Field := ⟨0x401004 + 0x4 * n, 2, 1⟩
def F.SAFE_MADC_STAT_SETL (n : Nat) : Field := ⟨0x401004 + 0x4 * n, 1, 1⟩
def F.SAFE_MADC_STAT_PLAUS (n : Nat) : Field := ⟨0x401004 + 0x4 * n, 0, 1⟩
def F.SAFE_MADC_PLAUS_DCNT : Field := ⟨0x40100C, 28, 4⟩
def F.SAFE_MADC_PLAUS_CODE0 : Field := ⟨0x40100C, 16, 12⟩
def F.SAFE_MADC_PLAUS_CODE1 : Field := ⟨0x40100C, 0, 12⟩
def F.SAFE_MADC_LAST_RESULT (n : Nat) : Field := ⟨0x401010 + 0x4 * n, 0, 32⟩
def F.SAFE_JACK_CFG_BTNEN : Field := ⟨0x402000, 16, 1⟩
def F.SAFE_JACK_CFG_JBIAS : Field := ⟨0x402000, 12, 2⟩
def F.SAFE_JACK_CFG_JDPOL : Field := ⟨0x402000, 8, 1⟩
def F.SAFE_JACK_CFG_JDEB : Field := ⟨0x402000, 0, 8⟩
def F.SAFE_JACK_STAT_PLUG : Field := ⟨0x402004, 31, 1⟩
def F.SAFE_JACK_STAT_POLES : Field := ⟨0x402004, 29, 2⟩
def F.SAFE_JACK_STAT_BUTTON : Field := ⟨0x402004, 26, 2⟩
def F.SAFE_JACK_STAT_INS : Field := ⟨0x402004, 15, 1⟩
def F.SAFE_JACK_STAT_REM : Field := ⟨0x402004, 14, 1⟩
def F.SAFE_JACK_STAT_BTNCHG : Field := ⟨0x402004, 13, 1⟩
def F.SAFE_JACK_STAT_RATIO : Field := ⟨0x402004, 0, 12⟩
def F.SAFE_LDIAG_DC_DCRES (n : Nat) : Field := ⟨0x402100 + 0x10 * n, 28, 4⟩
def F.SAFE_LDIAG_DC_PAIRED (n : Nat) : Field := ⟨0x402100 + 0x10 * n, 27, 1⟩
def F.SAFE_LDIAG_DC_PFAIL (n : Nat) : Field := ⟨0x402100 + 0x10 * n, 23, 1⟩
def F.SAFE_LDIAG_DC_MFAIL (n : Nat) : Field := ⟨0x402100 + 0x10 * n, 22, 1⟩
def F.SAFE_LDIAG_DC_RDC (n : Nat) : Field := ⟨0x402100 + 0x10 * n, 0, 16⟩
def F.SAFE_LDIAG_AC_ACRES (n : Nat) : Field := ⟨0x402104 + 0x10 * n, 28, 4⟩
def F.SAFE_LDIAG_AC_ONLINE (n : Nat) : Field := ⟨0x402104 + 0x10 * n, 27, 1⟩
def F.SAFE_LDIAG_AC_FCORR (n : Nat) : Field := ⟨0x402104 + 0x10 * n, 26, 1⟩
def F.SAFE_LDIAG_AC_CEST (n : Nat) : Field := ⟨0x402104 + 0x10 * n, 0, 16⟩
def F.SAFE_LDIAG_ZLO_MAG (n : Nat) : Field := ⟨0x402108 + 0x10 * n, 16, 16⟩
def F.SAFE_LDIAG_ZLO_PHASE (n : Nat) : Field := ⟨0x402108 + 0x10 * n, 0, 16⟩
def F.SAFE_LDIAG_ZHI_MAG (n : Nat) : Field := ⟨0x40210C + 0x10 * n, 16, 16⟩
def F.SAFE_LDIAG_ZHI_PHASE (n : Nat) : Field := ⟨0x40210C + 0x10 * n, 0, 16⟩
def F.SAFE_AGE_STAT_VPLAN : Field := ⟨0x403000, 16, 16⟩
def F.SAFE_AGE_STAT_FLOOR : Field := ⟨0x403000, 15, 1⟩
def F.SAFE_AGE_STAT_PEND : Field := ⟨0x403000, 14, 1⟩
def F.SAFE_AGE_STAT_CAPPED : Field := ⟨0x403000, 11, 3⟩
def F.SAFE_AGE_STAT_ABOVECAP : Field := ⟨0x403000, 10, 1⟩
def F.SAFE_AGE_STAT_DMAX : Field := ⟨0x403000, 0, 10⟩
def F.SAFE_AGE_RING_VALID (n : Nat) : Field := ⟨0x403010 + 0x4 * n, 31, 1⟩
def F.SAFE_AGE_RING_TJ (n : Nat) : Field := ⟨0x403010 + 0x4 * n, 16, 8⟩
def F.SAFE_AGE_RING_DELTA (n : Nat) : Field := ⟨0x403010 + 0x4 * n, 0, 16⟩
def F.SAFE_AGE_RON_P_HS (n : Nat) : Field := ⟨0x403040 + 0x8 * n, 16, 16⟩
def F.SAFE_AGE_RON_P_LS (n : Nat) : Field := ⟨0x403040 + 0x8 * n, 0, 16⟩
def F.SAFE_AGE_RON_M_HS (n : Nat) : Field := ⟨0x403044 + 0x8 * n, 16, 16⟩
def F.SAFE_AGE_RON_M_LS (n : Nat) : Field := ⟨0x403044 + 0x8 * n, 0, 16⟩
def F.SAFE_AGE_RONX_HS (n : Nat) : Field := ⟨0x4030A0 + 0x4 * n, 16, 16⟩
def F.SAFE_AGE_RONX_LS (n : Nat) : Field := ⟨0x4030A0 + 0x4 * n, 0, 16⟩
def F.SAFE_AGE_DER_RHO (n : Nat) : Field := ⟨0x4030B0 + 0x4 * n, 16, 16⟩
def F.SAFE_AGE_DER_AAGE (n : Nat) : Field := ⟨0x4030B0 + 0x4 * n, 8, 8⟩
def F.SAFE_AGE_DER_ILIMC (n : Nat) : Field := ⟨0x4030B0 + 0x4 * n, 0, 4⟩
def F.SAFE_BASK_LO_VAL (n : Nat) : Field := ⟨0x403100 + 0x8 * n, 0, 32⟩
def F.SAFE_BASK_HI_VAL (n : Nat) : Field := ⟨0x403104 + 0x8 * n, 0, 32⟩
def F.SAFE_ERRCOL_STAT_ESCCNT : Field := ⟨0x4FFF00, 24, 8⟩
def F.SAFE_ERRCOL_STAT_REPCNT : Field := ⟨0x4FFF00, 16, 8⟩
def F.SAFE_ERRCOL_STAT_OVERRUN : Field := ⟨0x4FFF00, 7, 1⟩
def F.SAFE_ERRCOL_STAT_CHIPESC : Field := ⟨0x4FFF00, 6, 1⟩
def F.SAFE_ERRCOL_STAT_POISON : Field := ⟨0x4FFF00, 5, 1⟩
def F.SAFE_ERRCOL_STAT_LEVEL : Field := ⟨0x4FFF00, 0, 3⟩

/-! The table, in pieces. -/

def regRows0 : List RegRow :=
  [⟨0x0, 0x4, 1, 0, 0x122401B0, 0x0, 0x0, 0x0, 0x0, 0x0, 0x0, 0⟩,
   ⟨0x4, 0x4, 1, 0, 0x0, 0x0, 0x0, 0x0, 0x0, 0x0, 0x0, 0⟩,
   ⟨0x10, 0x4, 1, 0, 0x0, 0x0, 0x0, 0x0, 0x0, 0x0, 0x0, 1⟩,
   ⟨0x14, 0x4, 1, 0, 0x0, 0x0, 0x0, 0x0, 0x0, 0x0, 0x0, 2⟩,
   ⟨0x100, 0x4, 1, 0, 0x0, 0x1, 0x0, 0x0, 0x0, 0x0, 0x0, 0⟩,
   ⟨0x104, 0x4, 1, 0, 0x0, 0x0, 0x0, 0x0, 0x0, 0x0, 0x0, 0⟩,
   ⟨0x108, 0x4, 1, 0, 0x0, 0x0, 0x0, 0x0, 0x0, 0x7FF, 0x0, 0⟩,
   ⟨0x10C, 0x4, 1, 0, 0x0, 0x0, 0x0, 0xFFFF, 0x0, 0x0, 0x0, 0⟩,
   ⟨0x110, 0x4, 1, 0, 0x0, 0x0, 0x0, 0x0, 0x0, 0x0, 0x0, 0⟩,
   ⟨0x400, 0x4, 1, 0, 0x0, 0x0, 0x0, 0x0, 0x0, 0xF00, 0x0, 0⟩,
   ⟨0x404, 0x4, 1, 0, 0x32000000, 0x0, 0x0, 0x0, 0x0, 0x0, 0x0, 0⟩,
   ⟨0x408, 0x4, 1, 0, 0x20000000, 0x0, 0x0, 0x0, 0x0, 0x0, 0x0, 0⟩,
   ⟨0x500, 0x4, 1, 0, 0x4000, 0x7F07, 0x0, 0x0, 0x0, 0x0, 0x0, 0⟩,
   ⟨0x504, 0x4, 1, 0, 0x0, 0x0, 0x0, 0x0, 0x0, 0x70000000, 0x0, 0⟩,
   ⟨0x600, 0x4, 1, 0, 0x11800000, 0x0, 0x0, 0x0, 0x0, 0x0, 0x0, 0⟩,
   ⟨0x604, 0x4, 1, 0, 0x0, 0x0, 0x0, 0x0, 0x0, 0x0, 0xFFFFFFFF, 0⟩,
   ⟨0x608, 0x4, 1, 0, 0x0, 0x0, 0x0, 0x0, 0x0, 0x0, 0x0, 0⟩,
   ⟨0x60C, 0x4, 1, 0, 0x0, 0x3FFFF, 0x0, 0x80000000, 0x0, 0x0, 0x0, 0⟩,
   ⟨0x610, 0x4, 1, 0, 0x0, 0x0, 0x0, 0x0, 0x0, 0x0, 0x0, 0⟩,
   ⟨0x700, 0x4, 64, 0, 0x0, 0x0, 0x0, 0x0, 0x0, 0x0, 0x0, 0⟩,
   ⟨0xE0000, 0x4, 1, 0, 0x300, 0x0, 0x0, 0x0, 0x0, 0x0, 0x0, 0⟩,
   ⟨0xE0004, 0x4, 1, 0, 0x0, 0x0, 0x0, 0x0, 0x0, 0x0, 0x0, 0⟩,
   ⟨0xE0008, 0x4, 1, 0, 0x3FFFFFF, 0x0, 0x0, 0x0, 0x0, 0x0, 0x0, 0⟩,
   ⟨0xE0010, 0x4, 1, 0, 0x5C000000, 0x0, 0x0, 0x0, 0x0, 0x0, 0x0, 0⟩,
   ⟨0xE0014, 0x4, 1, 0, 0x0, 0x0, 0x0, 0x0, 0x0, 0x0, 0x0, 0⟩]

def regRows1 : List RegRow :=
  [⟨0xE0018, 0x4, 1, 0, 0x0, 0xFFFF, 0x0, 0x0, 0x0, 0x0, 0x0, 0⟩,
   ⟨0xE0020, 0x4, 1, 0, 0x70000000, 0x0, 0x0, 0x0, 0x0, 0x0, 0x0, 0⟩,
   ⟨0xE0024, 0x4, 1, 0, 0x0, 0x0, 0x0, 0x0, 0x0, 0x0, 0x0, 1⟩,
   ⟨0xE0028, 0x4, 1, 0, 0x0, 0x0, 0x0, 0x0, 0x0, 0x0, 0x0, 2⟩,
   ⟨0xE0030, 0x4, 1, 0, 0x0, 0x0, 0x0, 0x0, 0x80000000, 0x0, 0x0, 0⟩,
   ⟨0xFFF00, 0x4, 1, 0, 0x0, 0x0, 0x0, 0x0, 0x0, 0xE0, 0xFFFF0000, 0⟩,
   ⟨0x100000, 0x40, 8, 0, 0xF000000, 0x0, 0x0, 0x0, 0x0, 0xF8, 0x0, 0⟩,
   ⟨0x100004, 0x40, 8, 0, 0x0, 0x0, 0x0, 0x0, 0x0, 0x0, 0x0, 0⟩,
   ⟨0x100008, 0x40, 8, 0, 0x0, 0x0, 0x0, 0x0, 0x0, 0x0, 0xFFFFFFFF, 0⟩,
   ⟨0x10000C, 0x40, 8, 0, 0x0, 0x0, 0x0, 0x0, 0x1, 0x0, 0x0, 0⟩,
   ⟨0x100010, 0x40, 8, 0, 0x0, 0x0, 0x0, 0x0, 0x0, 0x0, 0x0, 1⟩,
   ⟨0x100014, 0x40, 8, 0, 0x0, 0x0, 0x0, 0x0, 0x0, 0x0, 0x0, 2⟩,
   ⟨0x100200, 0x4, 1, 0, 0x0, 0x0, 0x0, 0x0, 0x0, 0x0, 0x0, 0⟩,
   ⟨0x100204, 0x4, 1, 0, 0x0, 0x0, 0x0, 0x0, 0x0, 0x0, 0x0, 0⟩,
   ⟨0x100208, 0x4, 1, 0, 0x0, 0x0, 0x0, 0x0, 0x0, 0x0, 0x0, 1⟩,
   ⟨0x10020C, 0x4, 1, 0, 0x0, 0x0, 0x0, 0x0, 0x0, 0x0, 0x0, 2⟩,
   ⟨0x100210, 0x4, 1, 0, 0x1000100, 0x0, 0x0, 0x0, 0x0, 0x0, 0x0, 0⟩,
   ⟨0x100400, 0x10, 32, 0, 0x0, 0x1FFF00, 0x0, 0x0, 0x0, 0x0, 0x0, 0⟩,
   ⟨0x100404, 0x10, 32, 0, 0x6, 0x1111F, 0x0, 0x0, 0x0, 0xC00000, 0x0, 0⟩,
   ⟨0x100408, 0x10, 32, 0, 0x0, 0x1FFFF, 0x0, 0x0, 0x0, 0x0, 0x0, 0⟩,
   ⟨0x10040C, 0x10, 32, 0, 0x0, 0x0, 0x0, 0x0, 0x0, 0x0, 0x0, 0⟩,
   ⟨0x102000, 0x20, 128, 1, 0x0, 0x0, 0x0, 0x0, 0x0, 0x0, 0x0, 0⟩,
   ⟨0x102004, 0x20, 128, 1, 0xFC000000, 0x0, 0x0, 0x0, 0x0, 0x0, 0x0, 0⟩,
   ⟨0x102008, 0x20, 128, 1, 0x0, 0x0, 0x0, 0x0, 0x0, 0xFF, 0x0, 0⟩,
   ⟨0x10200C, 0x20, 128, 1, 0x0, 0x0, 0x0, 0x0, 0x0, 0x0, 0xFFFFFFFF, 0⟩]

def regRows2 : List RegRow :=
  [⟨0x102010, 0x20, 128, 1, 0x0, 0x0, 0x0, 0x0, 0x0, 0x0, 0x0, 1⟩,
   ⟨0x102014, 0x20, 128, 1, 0x0, 0x0, 0x0, 0x0, 0x0, 0x0, 0x0, 2⟩,
   ⟨0x102018, 0x20, 128, 1, 0xFFFFFFFF, 0x0, 0x0, 0x0, 0x0, 0x0, 0x0, 1⟩,
   ⟨0x10201C, 0x20, 128, 1, 0xFFFFFFFF, 0x0, 0x0, 0x0, 0x0, 0x0, 0x0, 2⟩,
   ⟨0x103000, 0x10, 32, 0, 0xF000000, 0x0, 0x0, 0x0, 0x0, 0x0, 0x0, 0⟩,
   ⟨0x103004, 0x10, 32, 0, 0x0, 0x0, 0x0, 0x0, 0x0, 0x0, 0x0, 1⟩,
   ⟨0x103008, 0x10, 32, 0, 0x0, 0x0, 0x0, 0x0, 0x0, 0x0, 0x0, 2⟩,
   ⟨0x10300C, 0x10, 32, 0, 0x0, 0x0, 0x0, 0x0, 0x0, 0x0, 0xFFFFFFFF, 0⟩,
   ⟨0x104000, 0x10, 16, 0, 0x0, 0x0, 0x0, 0x0, 0x0, 0xF, 0x0, 0⟩,
   ⟨0x104004, 0x10, 16, 0, 0x0, 0x0, 0x0, 0x0, 0x0, 0x0, 0xFFFFFF00, 0⟩,
   ⟨0x104008, 0x10, 16, 0, 0x0, 0x0, 0x0, 0x0, 0x0, 0x0, 0x0, 0⟩,
   ⟨0x10400C, 0x10, 16, 0, 0x0, 0x1, 0x0, 0x0, 0x0, 0x0, 0x0, 0⟩,
   ⟨0x104100, 0x4, 1, 0, 0x0, 0x0, 0x0, 0x0, 0x0, 0x0, 0x0, 0⟩,
   ⟨0x1FFF00, 0x4, 1, 0, 0x0, 0x0, 0x0, 0x0, 0x0, 0xE0, 0xFFFF0000, 0⟩,
   ⟨0x200000, 0x100, 2, 0, 0x81120000, 0xDF3FE000, 0x0, 0x0, 0x0, 0x0, 0x0, 0⟩,
   ⟨0x200004, 0x100, 2, 0, 0x8000000, 0x8F000000, 0x0, 0x0, 0x0, 0x0, 0x0, 0⟩,
   ⟨0x200008, 0x100, 2, 0, 0x0, 0x30001, 0x0, 0x0, 0x0, 0x0, 0x0, 0⟩,
   ⟨0x20000C, 0x100, 2, 0, 0xF000000, 0x0, 0x0, 0x0, 0x0, 0x6, 0xFF0000, 0⟩,
   ⟨0x200200, 0x4, 1, 0, 0xF0000000, 0x0, 0x0, 0x0, 0x0, 0x6, 0xFF0000, 0⟩,
   ⟨0x280000, 0x20, 4, 0, 0x800, 0x983FCF00, 0x0, 0x0, 0x0, 0x0, 0x0, 0⟩,
   ⟨0x280004, 0x20, 4, 0, 0x0, 0x0, 0x0, 0x0, 0x0, 0x8, 0x0, 0⟩,
   ⟨0x280100, 0x4, 1, 0, 0x505, 0x8F8F, 0x0, 0x0, 0x0, 0x0, 0x0, 0⟩,
   ⟨0x280200, 0x4, 1, 0, 0x1000100, 0x877F8770, 0x0, 0x0, 0x0, 0x0, 0x0, 0⟩,
   ⟨0x280204, 0x4, 1, 0, 0x800, 0xFFFF0FFF, 0x0, 0x0, 0x0, 0x0, 0x0, 0⟩,
   ⟨0x280208, 0x4, 1, 0, 0x0, 0x0, 0x0, 0x0, 0x0, 0x3000000, 0x0, 0⟩]

def regRows3 : List RegRow :=
  [⟨0x280300, 0x4, 1, 0, 0x8000, 0x0, 0x0, 0x0, 0x0, 0x0, 0x0, 0⟩,
   ⟨0x280304, 0x4, 1, 0, 0x0, 0x0, 0x0, 0x0, 0x0, 0x0, 0x0, 0⟩,
   ⟨0x280308, 0x4, 1, 0, 0x0, 0x0, 0x0, 0x0, 0x0, 0x0, 0x0, 1⟩,
   ⟨0x28030C, 0x4, 1, 0, 0x0, 0x0, 0x0, 0x0, 0x0, 0x0, 0x0, 2⟩,
   ⟨0x280310, 0x4, 1, 0, 0x0, 0x0, 0x0, 0x0, 0x0, 0x0, 0x0, 1⟩,
   ⟨0x280314, 0x4, 1, 0, 0x0, 0x0, 0x0, 0x0, 0x0, 0x0, 0x0, 2⟩,
   ⟨0x280318, 0x4, 1, 0, 0x0, 0x0, 0x0, 0x0, 0x0, 0x0, 0x0, 1⟩,
   ⟨0x28031C, 0x4, 1, 0, 0x0, 0x0, 0x0, 0x0, 0x0, 0x0, 0x0, 2⟩,
   ⟨0x280320, 0x4, 1, 0, 0x0, 0x0, 0x0, 0x0, 0x0, 0x0, 0x0, 1⟩,
   ⟨0x280324, 0x4, 1, 0, 0x0, 0x0, 0x0, 0x0, 0x0, 0x0, 0x0, 2⟩,
   ⟨0x280400, 0x4, 1, 0, 0xFF0096, 0x0, 0x0, 0x0, 0x0, 0x0, 0x0, 0⟩,
   ⟨0x280404, 0x4, 1, 0, 0x0, 0x0, 0x0, 0x0, 0x0, 0x3, 0xFF0000, 0⟩,
   ⟨0x280408, 0x4, 1, 0, 0x0, 0x0, 0x0, 0x0, 0x0, 0x0, 0x0, 0⟩,
   ⟨0x2FFF00, 0x4, 1, 0, 0x0, 0x0, 0x0, 0x0, 0x0, 0xE0, 0xFFFF0000, 0⟩,
   ⟨0x300000, 0x100, 3, 0, 0x1400001C, 0xFF000FFC, 0x0, 0x0, 0x0, 0x0, 0x0, 0⟩,
   ⟨0x300004, 0x100, 3, 0, 0x8C300040, 0xF0000, 0xFFF00000, 0x0, 0x0, 0x0, 0x0, 0⟩,
   ⟨0x300008, 0x100, 3, 0, 0x0, 0x0, 0x0, 0x0, 0x0, 0x0, 0x0, 0⟩,
   ⟨0x30000C, 0x100, 3, 0, 0x0, 0x0, 0x17, 0x0, 0x80000000, 0x40000000, 0x0, 0⟩,
   ⟨0x300010, 0x100, 3, 0, 0x0, 0x0, 0x0, 0x0, 0x0, 0x0, 0xFFFFFFFF, 1⟩,
   ⟨0x300014, 0x100, 3, 0, 0x0, 0x0, 0x0, 0x0, 0x0, 0x0, 0xFFFFFFFF, 2⟩,
   ⟨0x300F00, 0x4, 1, 0, 0xC896C000, 0x0, 0x0, 0x0, 0x0, 0x0, 0x0, 0⟩,
   ⟨0x301000, 0x40, 12, 0, 0x110C0A00, 0xFFF0FFC0, 0xF0000, 0x0, 0x0, 0x0, 0x0, 0⟩,
   ⟨0x301004, 0x40, 12, 0, 0xC80A0A00, 0xFF00, 0xFFFF0000, 0x0, 0x0, 0x0, 0x0, 0⟩,
   ⟨0x301008, 0x40, 12, 0, 0x0, 0x4, 0x0, 0x3, 0x0, 0x0, 0x0, 0⟩,
   ⟨0x30100C, 0x40, 12, 0, 0x0, 0x0, 0x0, 0x0, 0x0, 0xFF80, 0x0, 0⟩]

def regRows4 : List RegRow :=
  [⟨0x301010, 0x40, 12, 0, 0xFF78, 0x0, 0x0, 0x0, 0x0, 0x0, 0x0, 0⟩,
   ⟨0x301018, 0x40, 12, 0, 0x0, 0x0, 0x0, 0x0, 0x0, 0x0, 0xFFFFFFFF, 1⟩,
   ⟨0x30101C, 0x40, 12, 0, 0x0, 0x0, 0x0, 0x0, 0x0, 0x0, 0xFFFFFFFF, 2⟩,
   ⟨0x301020, 0x40, 12, 0, 0x0, 0x0, 0x0, 0x0, 0x0, 0x0, 0xFFFFFFFF, 1⟩,
   ⟨0x301024, 0x40, 12, 0, 0x0, 0x0, 0x0, 0x0, 0x0, 0x0, 0xFFFFFFFF, 2⟩,
   ⟨0x302000, 0x4, 1, 0, 0x0, 0x0, 0x0, 0x0, 0x0, 0x0, 0x0, 0⟩,
   ⟨0x303000, 0x4, 1, 0, 0x1000014, 0x4300FFFF, 0x0, 0x0, 0x80000000, 0x0, 0x0, 0⟩,
   ⟨0x303004, 0x4, 1, 0, 0x32000000, 0x0, 0xFFFFFFFF, 0x0, 0x0, 0x0, 0x0, 0⟩,
   ⟨0x303008, 0x4, 1, 0, 0x32000000, 0x0, 0x0, 0x0, 0x0, 0x0, 0x0, 0⟩,
   ⟨0x30300C, 0x4, 1, 0, 0x32000000, 0x0, 0x0, 0x0, 0x0, 0x0, 0x0, 0⟩,
   ⟨0x303010, 0x4, 3, 0, 0x80000180, 0x0, 0x8FFF01FF, 0x0, 0x0, 0x0, 0x0, 0⟩,
   ⟨0x303020, 0x4, 3, 0, 0x80000180, 0x0, 0x0, 0x0, 0x0, 0x0, 0x0, 0⟩,
   ⟨0x303030, 0x4, 1, 0, 0x0, 0x0, 0x0, 0x0, 0x0, 0xF8, 0x0, 0⟩,
   ⟨0x303034, 0x4, 1, 0, 0x1410, 0x0, 0x0, 0x0, 0x0, 0x0, 0x0, 0⟩,
   ⟨0x303038, 0x4, 1, 0, 0x14, 0x0, 0x0, 0x0, 0x0, 0x0, 0x0, 0⟩,
   ⟨0x304000, 0x4, 1, 0, 0xA5050, 0xC3FFFFFF, 0x0, 0x0, 0x0, 0x0, 0x0, 0⟩,
   ⟨0x304004, 0x4, 1, 0, 0x0, 0x0, 0x0, 0x0, 0x0, 0x3, 0x0, 0⟩,
   ⟨0x305000, 0x20, 4, 0, 0x0, 0xE0FFFFFF, 0x0, 0x0, 0x0, 0x0, 0x0, 0⟩,
   ⟨0x305004, 0x20, 4, 0, 0xF140000, 0xFFFFFFFF, 0x0, 0x0, 0x0, 0x0, 0x0, 0⟩,
   ⟨0x305008, 0x20, 4, 0, 0xFFFF, 0xFFFFFFFF, 0x0, 0x0, 0x0, 0x0, 0x0, 0⟩,
   ⟨0x30500C, 0x20, 4, 0, 0xF0003C, 0x1FF01FF, 0x0, 0x0, 0x0, 0x0, 0x0, 0⟩,
   ⟨0x305010, 0x20, 4, 0, 0x0, 0x0, 0x0, 0x0, 0x0, 0x0, 0x0, 0⟩,
   ⟨0x3FFF00, 0x4, 1, 0, 0x0, 0x0, 0x0, 0x0, 0x0, 0xE0, 0xFFFF0000, 0⟩,
   ⟨0x400000, 0x4, 1, 0, 0x0, 0x0, 0x0, 0x0, 0x0, 0x4000000, 0x0, 0⟩,
   ⟨0x400004, 0x4, 1, 0, 0x70000000, 0x0, 0xFCFFFFFF, 0x0, 0x0, 0x0, 0x0, 0⟩]

def regRows5 : List RegRow :=
  [⟨0x400008, 0x4, 1, 0, 0x80000000, 0x0, 0x0, 0x0, 0x0, 0x7, 0x0, 0⟩,
   ⟨0x40000C, 0x4, 1, 0, 0xFFF, 0x0, 0xC0FF0FFF, 0x0, 0x0, 0x0, 0x0, 0⟩,
   ⟨0x400010, 0x4, 1, 0, 0xC, 0x0, 0xFF, 0x0, 0x0, 0x0, 0x0, 0⟩,
   ⟨0x400014, 0x4, 1, 0, 0x0, 0x0, 0x0, 0x0, 0x0, 0xF0, 0x0, 0⟩,
   ⟨0x400018, 0x4, 1, 0, 0x0, 0x0, 0x0, 0x0, 0x0, 0x0, 0x0, 0⟩,
   ⟨0x400100, 0x4, 1, 0, 0x0, 0x0, 0x0, 0x0, 0x0, 0x80000000, 0x7F000000, 0⟩,
   ⟨0x401000, 0x4, 1, 0, 0x180000, 0x3000000, 0xFF0000, 0x0, 0x80000000, 0x0, 0x0, 0⟩,
   ⟨0x401004, 0x4, 2, 0, 0x0, 0x0, 0x0, 0x0, 0x0, 0x1F, 0xFF0000, 0⟩,
   ⟨0x40100C, 0x4, 1, 0, 0x0, 0x0, 0x0, 0x0, 0x0, 0x0, 0x0, 0⟩,
   ⟨0x401010, 0x4, 2, 0, 0x0, 0x0, 0x0, 0x0, 0x0, 0x0, 0x0, 0⟩,
   ⟨0x402000, 0x4, 1, 0, 0x100A, 0x131FF, 0x0, 0x0, 0x0, 0x0, 0x0, 0⟩,
   ⟨0x402004, 0x4, 1, 0, 0x0, 0x0, 0x0, 0x0, 0x0, 0xE000, 0x0, 0⟩,
   ⟨0x402100, 0x10, 12, 0, 0x80000000, 0x0, 0x0, 0x0, 0x0, 0x0, 0x0, 0⟩,
   ⟨0x402104, 0x10, 12, 0, 0x60000000, 0x0, 0x0, 0x0, 0x0, 0x0, 0x0, 0⟩,
   ⟨0x402108, 0x10, 12, 0, 0x0, 0x0, 0x0, 0x0, 0x0, 0x0, 0x0, 0⟩,
   ⟨0x40210C, 0x10, 12, 0, 0x0, 0x0, 0x0, 0x0, 0x0, 0x0, 0x0, 0⟩,
   ⟨0x403000, 0x4, 1, 0, 0x3200000, 0x0, 0x0, 0x0, 0x0, 0x0, 0x0, 0⟩,
   ⟨0x403010, 0x4, 12, 0, 0x0, 0x0, 0x0, 0x0, 0x0, 0x0, 0x0, 0⟩,
   ⟨0x403040, 0x8, 12, 0, 0x2580258, 0x0, 0x0, 0x0, 0x0, 0x0, 0x0, 0⟩,
   ⟨0x403044, 0x8, 12, 0, 0x2580258, 0x0, 0x0, 0x0, 0x0, 0x0, 0x0, 0⟩,
   ⟨0x4030A0, 0x4, 3, 0, 0x2580258, 0x0, 0x0, 0x0, 0x0, 0x0, 0x0, 0⟩,
   ⟨0x4030B0, 0x4, 12, 0, 0xC, 0x0, 0x0, 0x0, 0x0, 0x0, 0x0, 0⟩,
   ⟨0x403100, 0x8, 32, 0, 0x0, 0x0, 0x0, 0x0, 0x0, 0x0, 0xFFFFFFFF, 1⟩,
   ⟨0x403104, 0x8, 32, 0, 0x0, 0x0, 0x0, 0x0, 0x0, 0x0, 0xFFFFFFFF, 2⟩,
   ⟨0x4FFF00, 0x4, 1, 0, 0x0, 0x0, 0x0, 0x0, 0x0, 0xE0, 0xFFFF0000, 0⟩]

/-- Every register of the spec. -/
def regRows : List RegRow :=
  regRows0 ++ regRows1 ++ regRows2 ++ regRows3 ++ regRows4 ++ regRows5

/-- The row of address `a`, if a register is defined there (R97). -/
def regRow? (a : Nat) : Option RegRow :=
  regRows.find? (fun r => (r.index? a).isSome)

/-- Reset values that an array's registers do not share (spec/04_command_protocol.md, R153; spec/09_clocks.md, R467;
spec/16_security.md, R701 with log entry 2 for fuse word 0). -/
def regResetAt : List (Nat × Word) :=
  [(0x700, 0x10101),
   (0x100404, 0x1000A),
   (0x100410, 0x1000),
   (0x100414, 0x10008),
   (0x100420, 0x1400),
   (0x100424, 0x1110B),
   (0x100430, 0x3400),
   (0x100434, 0x1110B),
   (0x303014, 0x80800180),
   (0x303018, 0x81000180),
   (0x303024, 0x80800180),
   (0x303028, 0x81000180)]

/-- The value that the register at `a` has right after reset; 0 where no register is. -/
def regReset (a : Nat) : Word :=
  match regResetAt.find? (fun e => e.1 = a) with
  | some e => e.2
  | none =>
    match regRow? a with
    | some r => r.reset
    | none => 0

end Sys2Proof.Machine
end

