-- ==== Sys2Proof/Machine/Sparse.lean ====
section
/-!
DEFINITION. Sparse contents: a list of (key, value) pairs in one canonical form, over a function that says what an
unlisted key reads as. The register file, the memory windows and the other RAMs of the device are held this way.
-/

namespace Sys2Proof.Machine

/-- The value of key `k`: the listed one, or what the unlisted key reads as. -/
def Sparse.get {α : Type} (dflt : Nat → α) : List (Nat × α) → Nat → α
  | [], k => dflt k
  | (a, v) :: rest, k => if a = k then v else Sparse.get dflt rest k

/-- The contents with no entry under `k`. -/
def Sparse.erase {α : Type} : List (Nat × α) → Nat → List (Nat × α)
  | [], _ => []
  | (a, w) :: rest, k => if a = k then Sparse.erase rest k else (a, w) :: Sparse.erase rest k

/-- The contents with `v` under `k`, before the first larger key. -/
def Sparse.insert {α : Type} : List (Nat × α) → Nat → α → List (Nat × α)
  | [], k, v => [(k, v)]
  | (a, w) :: rest, k, v => if k < a then (k, v) :: (a, w) :: rest else (a, w) :: Sparse.insert rest k v

/-- Lists `v` under `k` in its place; a value equal to what the unlisted key reads as removes the entry. -/
def Sparse.set {α : Type} [DecidableEq α] (dflt : Nat → α) (m : List (Nat × α)) (k : Nat) (v : α) : List (Nat × α) :=
  if v = dflt k then Sparse.erase m k else Sparse.insert (Sparse.erase m k) k v

/-- Every key of the list lies above `lo`, the keys rise strictly, and no entry equals what the unlisted key reads as. -/
def Sparse.above {α : Type} [DecidableEq α] (dflt : Nat → α) (lo : Nat) : List (Nat × α) → Bool
  | [] => true
  | (a, v) :: rest => decide (lo ≤ a) && decide (v ≠ dflt a) && Sparse.above dflt (a + 1) rest

/-- The canonical form: keys strictly rising, no entry equal to what the unlisted key reads as. -/
def Sparse.wf {α : Type} [DecidableEq α] (dflt : Nat → α) (m : List (Nat × α)) : Bool :=
  Sparse.above dflt 0 m

end Sys2Proof.Machine
end

