-- ==== Sys2Proof/Machine/State.lean ====
section
/-!
DEFINITION. The state of the DVN1224 (INVENTORY.md, heading State): the register file, the memory windows, and what the
spec gives the device beyond its registers, one structure per subsystem; the reasons a command stops; the state after
reset (spec/14_power_states.md, R618; spec/16_security.md, R715: the supervisor runs only once BOOT has started it).
Plain data throughout.
-/

namespace Sys2Proof.Machine

/-- A posted write in flight (spec/03_register_access.md, R119). -/
structure Posted where
  addr : Nat
  word : Word
  deriving DecidableEq, Repr

/-- A host access that stalls while its domain powers up (spec/03_register_access.md, R101). -/
structure Stalled where
  domain : Nat
  iface  : Iface
  write  : Bool
  addr   : Nat
  word   : Word
  deriving DecidableEq, Repr

/-- The register interfaces beyond their registers (spec/03_register_access.md). `lock` and `shadow` belong to the host
link, `dlock` and `dshadow` to the debug port (R140); `rdata` and `marker` are the last word read and whether it came
with 0xA5 (R108); `status` is the status byte of the last SPI frame (R105), `ptr` the register address of an I2C transaction
(R114, R115); `badParity` lists registers whose hidden parity does not fit (R131) and `cfgpar` those under CFGPAR with their
record number (R135). -/
structure Link where
  lock      : Bool
  dlock     : Bool
  shadow    : Word
  dshadow   : Word
  posted    : List Posted
  stalled   : List Stalled
  rdata     : Word
  marker    : Bool
  status    : Nat
  ptr       : Nat
  badParity : List Nat
  cfgpar    : List (Nat × Nat)
  deriving DecidableEq, Repr

/-- The supervisor (spec/01_architecture.md, R49): not yet booted, running, halted or restarting, replaced by molt. -/
inductive PapolRun where
  | off
  | running
  | halted
  | molting
  deriving DecidableEq, Repr

/-- The geometry a ring latched at its last enable (spec/04_command_protocol.md, R155). -/
structure RingGeo where
  base : Nat
  log2 : Nat
  deriving DecidableEq, Repr, Inhabited

/-- A journaled reply (spec/04_command_protocol.md, R188). -/
structure ReplyEntry where
  opcode  : Nat
  ring1   : Bool
  cseq    : BitVec 16
  eseq    : BitVec 16
  status  : Nat
  detail  : Nat
  len     : Nat
  payload : List Word
  deriving DecidableEq, Repr

/-- A journaled event (spec/04_command_protocol.md, R164, R188). `payload` keeps every word until the event is written. -/
structure EventEntry where
  ecode   : Nat
  urg     : Bool
  eseq    : BitVec 16
  cseq    : BitVec 16
  time    : Word64
  payload : List Word
  repost  : Bool
  written : Bool
  deriving DecidableEq, Repr

/-- A reply held back for want of space in ring 2 (spec/04_command_protocol.md, R159): header and payload words, whether a
tag is due (R163), whether it is journaled, whether its command counts as completed once it is written (R179), and the ring and
CSEQ whose journal entry it stands for. -/
structure HeldReply where
  words     : List Word
  tag       : Bool
  journaled : Bool
  final     : Bool
  ring1     : Bool
  cseq      : BitVec 16
  deriving DecidableEq, Repr

/-- A report in the hardware event queue (spec/04_command_protocol.md, R799). -/
structure Report where
  ecode   : Nat
  payload : List Word
  repost  : Bool
  time    : Word64
  deriving DecidableEq, Repr

/-- What a command addresses (spec/04_command_protocol.md, R178). -/
inductive Target where
  | stream (sid : Nat)
  | port (n : Nat)
  | spdif
  | graph
  | engine (n : Nat)
  | group (n : Nat)
  | chan (n : Nat)
  | hpline
  | cv (n : Nat)
  | croaker (n : Nat)
  | ain (n : Nat)
  | micbias (n : Nat)
  | pdm
  | decim
  | wkd
  | gate
  | ptt
  | pll
  | swpll
  | placement
  | power
  | domain (n : Nat)
  | march
  | selftest
  | safestate
  | session
  | firmware
  | attest
  | debug
  | fuses
  | replan
  | loadDc (n : Nat)
  | loadAc
  | tdac
  deriving DecidableEq, Repr

/-- One clamped field of a command (spec/04_command_protocol.md, R800): its unit, payload word and lowest bit, and the value
applied. -/
structure Clamp where
  unit  : Nat
  field : Nat
  pos   : Nat
  value : Nat
  deriving DecidableEq, Repr

/-- How a pending command ended while the supervisor did not run (spec/04_command_protocol.md, R180): its place among those, its final
status, reply words and clamps, SYSTIME, and of a SESSION_OPEN the key and IDLETO that its EVT_CMD_DONE puts in force
(spec/16_security.md, R720). -/
structure DoneRec where
  order  : Nat
  status : Nat
  detail : Nat
  words  : List Word
  clamps : List Clamp
  time   : Word64
  key    : Option (List Word × Nat)
  deriving DecidableEq, Repr

/-- A pending command (spec/04_command_protocol.md, R175 to R180): its slot, its header fields, what it addresses, and
whether it counts in CFGGEN (R796). `done` holds how it ended while the supervisor does not run (R180). -/
structure PendEntry where
  slot    : Nat
  opcode  : Nat
  ring1   : Bool
  cseq    : BitVec 16
  payload : List Word
  targets : List Target
  cfg     : Bool
  done    : Option DoneRec
  deriving DecidableEq, Repr

/-- How far the device has come from reset to READY (spec/16_security.md, R715 to R718): held in reset, held in reset by TESTMODE until
the next RESET (spec/02_package_supplies.md, R71), waiting for a host image, held short of READY, ready. -/
inductive BootPhase where
  | begin
  | test
  | waiting
  | held
  | ready
  deriving DecidableEq, Repr

/-- The command interpreter (spec/04_command_protocol.md). `unacked` holds written repost events that have left the journal
unacknowledged (R186); `afterDue` the opcode of a command whose work begins once its held reply is written (R194). -/
structure Papol where
  run      : PapolRun
  exp0     : BitVec 16
  exp1     : BitVec 16
  last0    : BitVec 16
  last1    : BitVec 16
  lastCseq : BitVec 16
  lastUrg  : Bool
  eseq     : BitVec 16
  eack     : BitVec 16
  replies  : List ReplyEntry
  events   : List EventEntry
  unacked  : List EventEntry
  held     : List HeldReply
  afterDue : Option Nat
  overflow : Option (BitVec 16)
  reports  : List Report
  dropped  : Nat
  repost   : Nat
  slots    : List PendEntry
  cfggen   : Word
  version  : Word
  roll     : Nat
  boot     : BootPhase
  pinPlace : BitVec 3
  pinTrack : BitVec 3
  pinAge   : Bool
  resetDue : Bool
  deriving DecidableEq, Repr

/-- An open stream beyond its context registers (spec/05_streams_ports.md, R200, R202, R213, R215, R219, R259): START and
PAIR of its open, LEAD, the ASRC settings, a close that waits, whether LEAD has been met, whether its first frame has moved,
the ratio in 2^-28 that the tracker follows or keeps over a lost source (R255), frames still to be filled after a lost source, per
channel whether the last sample was valid and the last valid sample (INVPOL), and the last frame it delivered. -/
structure StreamX where
  sid      : Nat
  start    : Nat
  pair     : Nat
  lead     : Nat
  ratio    : Word
  holdLost : Bool
  bw       : Nat
  closing  : Bool
  primed   : Bool
  moved    : Bool
  tracked  : Option Nat
  tail     : Nat
  tick     : Bool
  prev     : List Bool
  last     : List Word
  out      : List Sample
  deriving DecidableEq, Repr, Inhabited

/-- A TDM port beyond its registers (spec/05_streams_ports.md, R202, R231 to R235, R240): enabled, its frames in a row of the expected
length and rate, its frames in a row of the expected length, whether a direct write has taken effect and SYNC is not yet declared again,
whether its clock runs, and the FMT and CLK in use while a direct write waits for an FSYNC edge. -/
structure PortX where
  en      : Bool
  good    : Nat
  clean   : Nat
  redo    : Bool
  clock   : Bool
  useFmt  : Word
  useClk  : Word
  deriving DecidableEq, Repr, Inhabited

/-- The settings of SPDIF_RX_CFG (spec/05_streams_ports.md, S/PDIF commands). -/
structure SpdRx where
  csevt  : Bool
  expfs  : Nat
  nphold : Nat
  deriving DecidableEq, Repr

/-- The settings of SPDIF_TX_CFG (spec/05_streams_ports.md, S/PDIF commands). -/
structure SpdTx where
  autofs : Bool
  vbit   : Bool
  fs     : Nat
  idle   : Bool
  deriving DecidableEq, Repr

/-- S/PDIF beyond its register (spec/05_streams_ports.md, R242 to R251): enables, per port the settings in force and those that wait
for its block boundary, the received channel-status blocks, the blocks that SPDIF_CS_WRITE wrote and those being sent, frames since an IEC 61937
sync word, and the frames of the block under way that the receiver has judged. -/
structure SpdifX where
  rxEn   : Bool
  txEn   : Bool
  rx     : SpdRx
  rxNext : Option SpdRx
  tx     : SpdTx
  txNext : Option SpdTx
  rxA    : List Word
  rxB    : List Word
  txA    : List Word
  txB    : List Word
  sentA  : List Word
  sentB  : List Word
  npAge  : Nat
  seen   : Nat
  deriving DecidableEq, Repr

/-- The tables of a graph image (spec/06_engines_leap.md, R801): offsets in bytes from word 0, lengths in words. -/
structure GEngine where
  imemOfs : Nat
  imemLen : Nat
  dataOfs : Nat
  dataLen : Nat
  deriving DecidableEq, Repr, Inhabited

/-- A task of a graph image with its port list (spec/06_engines_leap.md, R801). -/
structure GTask where
  num    : Nat
  leng   : Nat
  stage  : Nat
  prio   : Nat
  zero   : Bool
  entry  : Nat
  nin    : Nat
  nout   : Nat
  ports  : List Word
  deriving DecidableEq, Repr, Inhabited

/-- A state region: class 0 STATE, 1 PARAM, 2 CARRY, 3 SCRATCH (spec/06_engines_leap.md, R801). -/
structure GRegion where
  id     : Nat
  cls    : Nat
  leng   : Nat
  ofs    : Nat
  len    : Nat
  deriving DecidableEq, Repr, Inhabited

/-- An internal ring of a graph image (spec/06_engines_leap.md, R801). -/
structure GRing where
  ring   : Nat
  chans  : Nat
  log2   : Nat
  base   : Nat
  deriving DecidableEq, Repr, Inhabited

/-- A leap channel of a graph image (spec/06_engines_leap.md, R801). -/
structure GLeap where
  chan   : Nat
  leng   : Nat
  task   : Nat
  deriving DecidableEq, Repr, Inhabited

/-- A fallback plan: per task of the failed engine its adopter, 0xF to shed (spec/06_engines_leap.md, R801). -/
structure GFall where
  leng    : Nat
  entries : List (Nat × Nat)
  deriving DecidableEq, Repr, Inhabited

/-- A graph image as its tables give it (spec/06_engines_leap.md, R270, R801), with its place in the shared banks and its
SHA-256 (spec/16_security.md, R731). -/
structure GImage where
  digest  : List Word
  ofs     : Nat
  len     : Nat
  head    : List Word
  engines : List GEngine
  tasks   : List GTask
  regions : List GRegion
  rings   : List GRing
  leaps   : List GLeap
  falls   : List GFall
  deriving DecidableEq, Repr, Inhabited

/-- What a checkpoint slot holds (spec/06_engines_leap.md, R282, R283): the block its state precedes, the checkpointed regions by ID,
the engine's ring indices, and the last GRAPH_PARAM applied. -/
structure Slot where
  blk     : Nat
  regions : List (Nat × List Word)
  rings   : List (Nat × Nat)
  pseq    : Nat
  deriving DecidableEq, Repr

/-- A logical engine of the graph (spec/06_engines_leap.md, R272, R274, R276, R282, R290, R293, R295, R300, R307): the physical engine
that hosts it (0xF none), the block it is at (that of its tasks of the lowest stage, log entry 11), whether that block is under way, the
input blocks gathered for it by task and port, the words of its checkpoint slots (none before the first seal), whether slot B
is written next, the checkpoint copy under way, the block whose copy met an uncorrectable word last, whether it waits for a
load, whether it is restoring or catching up, whether it runs late behind a producer, the first block whose end frees its retracted
channels, the regions it holds before its first sealed slot where they differ from the initial data (by ID), and when it was last late. -/
structure LEngine where
  host    : Nat
  next    : Nat
  busy    : Bool
  ins     : List (Nat × List (List Sample))
  slotA   : List Word
  slotB   : List Word
  nextB   : Bool
  copy    : Option Slot
  copyBad : Option Nat
  loading : Bool
  behind  : Bool
  lag     : Bool
  redo    : Nat
  seed    : List (Nat × List Word)
  late    : Option Nat
  deriving DecidableEq, Repr, Inhabited

/-- A recovery under way (spec/06_engines_leap.md, R293 to R297, R316): KIND, fault code, failed logical and physical engine,
spare (0xF none), first retracted block, restored block, tasks shed, leap channels retracted, and whether the restored block
has ended and waits for its commit. -/
structure Recovery where
  kind    : Nat
  code    : Nat
  leng    : Nat
  failed  : Nat
  spare   : Nat
  first   : Nat
  restore : Nat
  shed    : Nat
  chans   : Nat
  ended   : Bool
  deriving DecidableEq, Repr

/-- A GRAPH_PARAM write kept for its tick and for recomputes (spec/06_engines_leap.md, R284): number, region, first word,
values, and the block it precedes once its tick has come. -/
structure ParamWrite where
  seq     : Nat
  region  : Nat
  ofs     : Nat
  vals    : List Word
  blk     : Option Nat
  deriving DecidableEq, Repr

/-- The graph (spec/06_engines_leap.md): the loaded image, one being loaded, one staged by GRAPH_MOLT, N_RA to use and
NRA_MIN, logical engines, its first block, the number of the period under way, the ring index of block 0 per ring, shed tasks with the
first block that their bypass gives, tasks adopted under a fallback plan, logical engines whose plan waits for the start with the
failed engine and fault code, ticks to block 0, recoveries, parameter writes, the PARAM words in force that GRAPH_PARAM wrote (by region ID and
word), whether read points run, what a stop leaves, and commit lost (R669). -/
structure Graph where
  image     : Option GImage
  loading   : Option GImage
  molt      : Option GImage
  nra       : Nat
  nraMin    : Nat
  les       : List LEngine
  base      : Nat
  tick      : Option Nat
  starts    : List (Nat × Nat)
  shed      : List (Nat × Nat)
  adopted   : List (Nat × Nat)
  plans     : List (Nat × Nat × Nat)
  countdown : Option Nat
  recs      : List Recovery
  params    : List ParamWrite
  pseq      : Nat
  inForce   : List (Nat × Word)
  flow      : Bool
  unload    : Bool
  rearm     : Bool
  molting   : Bool
  dead      : Bool
  deriving DecidableEq, Repr

/-- A sample held in a leap channel (spec/06_engines_leap.md, R286). -/
structure LeapSample where
  idx : Nat
  smp : Sample
  deriving DecidableEq, Repr

/-- A leap channel beyond its registers (spec/06_engines_leap.md, R287 to R291, R299): samples in index order, the index at
the read point, whether the last sample delivered was filled, indices whose samples carry DISC, the spans that the echo
tap marks DISC (spec/11_inputs_wake.md, R560), and the magnitudes of retracted samples that the CV DAC's envelope keeps
(spec/01_architecture.md, R47). -/
structure LeapCh where
  samples : List LeapSample
  read    : Int
  filled  : Bool
  discAt  : List Nat
  echo    : List (Nat × Nat)
  demand  : List (Nat × Nat)
  deriving DecidableEq, Repr, Inhabited

/-- An engine beyond its registers (spec/06_engines_leap.md, R263, R296, R315): failures since reset, faults since reset, and
the words of its register file in the order of R263. -/
structure EngineX where
  fails  : Nat
  faults : Nat
  core   : List Word
  deriving DecidableEq, Repr, Inhabited

/-- A row replacement under way or waiting for the Release of a borrowed row (spec/07_shared_banks.md, R352, R353). -/
structure RowRepl where
  bank  : Nat
  row   : Nat
  cause : Nat
  col   : Nat
  bit   : Nat
  deriving DecidableEq, Repr

/-- The shared banks beyond their registers and contents (spec/07_shared_banks.md): spare rows in service (bank, row, spare), failed spare
rows (bank, spare), uncorrectable words whose row has been dealt with (by window address), corrected bit positions (bank, row, bit), row
replacements, and the banks a march still has to test with its PACE. -/
structure Banks where
  spares : List (Nat × Nat × Nat)
  failed : List (Nat × Nat)
  dealt  : List Nat
  corr   : List (Nat × Nat × Nat)
  repls  : List RowRepl
  march  : Nat
  pace   : Nat
  deriving DecidableEq, Repr

/-- A modulator or DAC input (spec/08_speaker_channels.md, R366; spec/12_headphone_line_cv.md, R569): its last value as a
fraction of 2^39, whether its last sample was valid, samples left of the glide to 0 and of the ramp from 0, and the value
the glide starts at. -/
structure Mod where
  y     : Int
  valid : Bool
  glide : Nat
  rise  : Nat
  base  : Int
  deriving DecidableEq, Repr, Inhabited

/-- A speaker channel beyond its registers (spec/08_speaker_channels.md): enabled, so that its latest command is a start; a
start pending (R805); the fault code that holds it in Fault hold, 0 for a failed Check, and whether a
SHORT waits for its classification (R389); SYSTIME at the begin of its ramp,
the ramp's place at that moment and whether it runs as FAST (R370, R371), and CMRAMP taken as 5 ms (R409); limited periods in a
row (R388); whether the last DC window differed (R392); a stop that waits for a regrow, and whether it is FAST (R402); the
modulator input; A and A_pl in 0.0001 dB, P_est in nW, and the magnitude of the
last load current in steps of 15 / 2048 A (R380, R381); SYSTIME at the last restart of its loop model (spec/15_safety.md, R668). -/
structure SpkX where
  on       : Bool
  start    : Bool
  why      : Nat
  unclass  : Bool
  mark     : Nat
  pos      : Nat
  fast     : Bool
  short    : Bool
  run      : Nat
  dcBad    : Bool
  stopWait : Option Bool
  md       : Mod
  att      : Nat
  apl      : Nat
  pest     : Nat
  amps     : Nat
  modelAt  : Option Nat
  deriving DecidableEq, Repr, Inhabited

/-- A regrow or host crosspoint move under way in a group (spec/08_speaker_channels.md, R397, R401, R405): the node that
EVT_REPAIR names, the nodes whose channels take part, its KIND, and whether its legs have been released. -/
structure LegSeq where
  node     : Nat
  nodes    : List Nat
  kind     : Nat
  released : Bool
  deriving DecidableEq, Repr, Inhabited

/-- A power group beyond its registers (spec/08_speaker_channels.md): pairing in force (R378), failed own legs and their
failure counts (R400), healthy slices of the own legs and of the spare (R360), whether the host placed the spare (R401), the
sequence under way, A_fb in 0.0001 dB (R382), channels shut down by TSHUT (R383), how far the switching period under way has come, in 1 / (2^24 * 24 576 000) of a VCO cycle,
negative before the first one begins (spec/09_clocks.md, R437), the VCO cycles that its next period is lengthened by (R438), and whether its PVDD
has exceeded 32 V and not yet fallen below 31 V (spec/02_package_supplies.md, R81). -/
structure GroupX where
  pairs  : Nat
  failed : Nat
  fails  : Vector Nat 8
  slices : Vector Nat 8
  xslc   : Nat
  byHost : Bool
  seq    : Option LegSeq
  afb    : Nat
  shut   : Nat
  frac   : Int
  owed   : Nat
  ovHeld : Bool
  deriving DecidableEq, Repr, Inhabited

/-- A croaker slot (spec/08_speaker_channels.md, R407 to R410, R419, R420): its configuration, its copy of the sample, active,
passes left, until STOP, whether an ALERT pin asked for it when last looked at, an ALERT edge during a pass, SYSTIME at the
start of the cycle or pass. -/
structure CrkSlot where
  kind    : Nat
  mask    : Nat
  freq    : Nat
  wave    : Nat
  onMs    : Nat
  offMs   : Nat
  loop    : Bool
  len     : Nat
  data    : List Word
  level   : Nat
  duck    : Nat
  auto    : Bool
  map     : Nat
  pass    : Bool
  active  : Bool
  left    : Nat
  forever : Bool
  want    : Bool
  again   : Bool
  mark    : Nat
  deriving DecidableEq, Repr, Inhabited

/-- The output stage as a whole: channels a pending speaker command waits for, by slot and kind (0 end of Lock, 1 Off, 2 end of
Lock after a retry), MUTE_N after its filter and whether its voter holds it low, ALERT pins whose voter holds them high,
whether the pair of ALERT0 and ALERT1 is stuck (R664), whether the croaker generator has failed (R669), duck gains as the SYSTIME of the last change with the DUCK codes before and after it (R407), and whether
CRKLOCKEN has yet to take effect (spec/16_security.md, R708). -/
structure OutX where
  waits     : List (Nat × Nat × Nat)
  muteLow   : Bool
  muteHeld  : Bool
  alertHeld : Nat
  pairStuck : Bool
  crkFailed : Bool
  ducks     : Vector (Nat × Nat × Nat) 12
  lockArm   : Bool
  deriving DecidableEq, Repr, Inhabited

/-- A move of the ramp generator (spec/09_clocks.md, R443 to R446, R451): its ends as frequency words, RTIME in ms, the points of
its profile, the ticks it has run, whether it follows the slope limit alone, and whether it is a step that coasts through. -/
structure RampX where
  f0      : Nat
  f1      : Nat
  ms      : Nat
  pts     : List Nat
  t       : Nat
  limited : Bool
  coast   : Bool
  deriving DecidableEq, Repr

/-- The clocks beyond their registers (spec/09_clocks.md): the ramp under way, profile slots 2 and 3 (R444), groups held by
SWPLL_SET and offered by TUNED_FREQ (R461), whether a command's move waits for its transfer, whether the move is a placement's,
the groups conflicted before it (R467), a coast-through step that waits for lock; per PLL the disagreeing windows in a row and
SYSTIME of its freeze (R428, R431); SYSTIME of a reference loss; a gated step of f_VCO that waits for lock with its windows so far,
windows until a divider step's gate ends, SYSTIME of the gate (R451, R452); a sync slave that waits for its first edge, and for it
within 100 ms, and its bad edges in a row (R455, R473); whether a transfer took place at the period of output A under way (R454); FSWCAP per group in 10 kHz,
0 none (spec/17_service_life.md, R755); the generator's values over SWPLL's window so far, summed over its ticks, and those ticks (R427). -/
structure ClkX where
  ramp      : Option RampX
  slot2     : List Nat
  slot3     : List Nat
  holds     : Nat
  offered   : Nat
  due       : Bool
  placing   : Bool
  confWas   : Nat
  settling  : Bool
  bad       : Vector Nat 3
  since     : Vector Nat 3
  refAt     : Nat
  stepping  : Bool
  steps     : Nat
  gateLeft  : Nat
  gateAt    : Nat
  syncArmed : Bool
  syncWait  : Bool
  syncBad   : Nat
  marked    : Bool
  caps      : Vector Nat 3
  winSum    : Nat
  winTicks  : Nat
  deriving DecidableEq, Repr

/-- An AC impedance test under way (spec/10_load_jack_diagnostics.md, R488 to R493): its channel, online, filter correction, the
phase of an offline test (0 Start, 1 Tone LO, 2 Tone HI, 3 Stop), |Z| in mΩ and phase in 0.01° at 1 kHz and 16 kHz, the online
windows kept, and the windows tried; whether an event of R492 fell in the window under way; LF, CF and LEVEL; SYSTIME at which the tone
under way began. -/
structure AcTest where
  chan   : Nat
  online : Bool
  fcorr  : Bool
  stage  : Nat
  lo     : Nat × Int
  hi     : Nat × Int
  wins   : List (Nat × Int)
  tried  : Nat
  spoilt : Bool
  lf     : Nat
  cf     : Nat
  level  : Nat
  mark   : Nat
  deriving DecidableEq, Repr

/-- Load diagnostics (spec/10_load_jack_diagnostics.md): the channels that a LOAD_DC_TEST has yet to finish, the one under test
first, and the AC test. -/
structure DiagX where
  dc : List Nat
  ac : Option AcTest
  deriving DecidableEq, Repr

/-- An opening event of the privacy gate (spec/11_inputs_wake.md, R536, R540, R541): TIDX as it came, its index, its pre-roll in frames, word 0
of its EVT_WAKE, and whether it found the gate sealed. -/
structure GateOpening where
  tidx : Nat
  d    : Nat
  pre  : Nat
  w0   : Word
  anew : Bool
  deriving DecidableEq, Repr

/-- A mic bias output (spec/11_inputs_wake.md, R516): the voltages in µV from which and to which it ramps, the voltage whose share per 2 ms is its
slope, and SYSTIME as the ramp began. -/
structure Bias where
  v0    : Nat
  v1    : Nat
  slope : Nat
  mark  : Nat
  deriving DecidableEq, Repr, Inhabited

/-- The tadpole buffer and its gate beyond their registers (spec/11_inputs_wake.md, R530, R533, R539, R541, R551): the tap index,
the first index since the last zeroisation, an opening that waits for the end of a zeroisation (its detection or press
index and the word 0 of its EVT_WAKE), SYSTIME from which the GATETO timer runs, whether a held press is declared anew, and the last opening
event. -/
structure Tad where
  tidx  : Nat
  first : Nat
  opens : Option (Nat × Word)
  timer : Option Nat
  again : Bool
  last  : Option GateOpening
  deriving DecidableEq, Repr

/-- The input front ends beyond their registers (spec/11_inputs_wake.md, R516, R518, R525): invalid samples still due, on the host-facing
output of each AADC and microphone in units of 1/16000 of a sample, and on the tap of each source code; the mic bias outputs, and the one that
is on for a jack classification. -/
structure Inputs where
  aadcRun : Vector Nat 4
  micRun  : Vector Nat 8
  tapRun  : Vector Nat 12
  bias    : Vector Bias 2
  jackOn  : Option (Fin 2)
  deriving DecidableEq, Repr

/-- A loaded model of the wake detector (spec/11_inputs_wake.md, R548), with the ROLL and the SHA-256 of its image
(spec/16_security.md, R713, R731). -/
structure WkdModel where
  roll    : Nat
  digest  : List Word
  thrdef  : Nat
  hops    : Nat
  nin     : Nat
  weights : List Word
  deriving DecidableEq, Repr

/-- The wake detector beyond its registers (spec/11_inputs_wake.md, R544 to R550): its model, hops in a row at or above THR, hops
left without a detection, invalid frames in a row per input, a disable that waits for the end of the hop, and the tap frames fed
since it was enabled or reset (R544). -/
structure WkdX where
  model : Option WkdModel
  run   : Nat
  quiet : Nat
  inv0  : Nat
  inv1  : Nat
  stop  : Bool
  fed   : Nat
  deriving DecidableEq, Repr

/-- The headphone or the line output beyond its registers (spec/12_headphone_line_cv.md, R568, R573, R574): enabled, SYSTIME at
the begin of its gain ramp and the ramp's place then, per side the applied attenuation in 0.125 dB (765 muted) and the
input. -/
structure HpX where
  on    : Bool
  mark  : Nat
  pos   : Nat
  attL  : Nat
  attR  : Nat
  left  : Mod
  right : Mod
  deriving DecidableEq, Repr, Inhabited

/-- A CV channel beyond its registers (spec/12_headphone_line_cv.md, R581 to R585): its target, the code that a deglitch hold
keeps waiting, the fraction of a code that SLEW has still to move in 1 / 24 576, Pa in 1 / 14 112 000 V, and whether it stays at 0 V
until it is configured again. -/
structure CvX where
  target : Nat
  wait   : Option Nat
  frac   : Nat
  pa     : Nat
  parked : Bool
  deriving DecidableEq, Repr, Inhabited

/-- What pending HPLINE_CFG commands wait for, by slot, output and kind (0 end of Release, 1 end of Short), and CLR_N after its
filter. -/
structure HpCvX where
  waits  : List (Nat × Nat × Nat)
  clrLow : Bool
  deriving DecidableEq, Repr, Inhabited

/-- A request that waits for a slot, and the slots it has waited (spec/13_monitoring_converters.md, R596). -/
structure MadcWait where
  req    : MadcReq
  waited : Nat
  deriving DecidableEq, Repr, Inhabited

/-- The monitoring converters beyond their registers (spec/13_monitoring_converters.md, R594 to R599, R603 to R607, R613): an arbitration
under way, a failed converter whose survivor has yet to take the sole-converter plan, implausible results in a row, a TDAC_TEST that
waits for the end of the fault handling, with its results; the slot that both frames are at and the sensor whose turn it is, and per converter the
input and selector of its last conversion, its requests in arrival order, and the slots that its reference buffer has been on. -/
structure MadcX where
  arb   : Bool
  plan  : Bool
  odd   : Nat
  tdac  : Option (Nat × Word)
  slot  : Nat
  turn  : Nat
  prev  : Vector (Nat × Nat) 2
  queue : Vector (List MadcWait) 2
  warm  : Vector Nat 2
  deriving DecidableEq, Repr

/-- A domain power change under way or waiting behind one (spec/14_power_states.md, R647), with the pending slots of the
commands that it completes. -/
structure DomChange where
  domain : Nat
  up     : Bool
  slots  : List Nat
  deriving DecidableEq, Repr

/-- The power manager beyond its registers (spec/14_power_states.md): domain changes, oldest first; the state that the transition under
way leaves (R625) and whether it ends with its present step because of a chip safe state (R624); whether the exit from BRUMATE is
under way and the JACK_DET level that it found (R500, R635); the levels of the GPIO balls; and whether the IOVDD level has been
detected since power-up (spec/02_package_supplies.md, R77). -/
structure Pwr where
  changes : List DomChange
  origin  : Nat
  halt    : Bool
  waking  : Bool
  jack    : Option Bool
  gpio    : Nat
  iov     : Bool
  deriving DecidableEq, Repr

/-- A fault record of the safety monitor (spec/15_safety.md, R691). -/
structure FaultRec where
  code    : Nat
  df      : Nat
  level   : Nat
  active  : Bool
  latched : Bool
  inj     : Bool
  fn      : Bool
  region  : Nat
  sub     : Nat
  unit    : Nat
  time    : Word64
  occur   : Nat
  recno   : Nat
  detail  : Word
  react   : Word
  deriving DecidableEq, Repr

/-- A fault that a region or block handler has at work (spec/01_architecture.md, R22 to R28): where it lies, the level that handles it,
SYSTIME of its detection, whether what its deadline asks for is done, whether it still waits for the handler, and what its action
needs then. -/
structure Work where
  region : Nat
  code   : Nat
  sub    : Nat
  unit   : Nat
  level  : Nat
  t0     : Nat
  met    : Bool
  wait   : Bool
  arg    : Nat
  deriving DecidableEq, Repr, Inhabited

/-- The safety monitor beyond its registers (spec/15_safety.md): records, oldest first (R689), the next record
number, the faults that handlers have at work, oldest first, the record that caused the chip safe state (0 none), with its region,
code and unit, and whether that state ends only at reset (R676); the voters that have lost one copy (R669); SYSTIME of the last
SMLOCK (R677); the release latch of FAULT_N and its test pulse (R680, R694); whether the last read of FAULT_N was high while
driven low (R681); the clocks that failed the last window and whether the last SAFE-oscillator window failed (R682, R683);
voice sources found failed, their substitutes, and the stream channels whose next sample is the first of a substitute (R665);
the record number at the last SELFTEST_RUN (R697). -/
structure Saf where
  recs    : List FaultRec
  next    : Nat
  work    : List Work
  cause   : Nat
  causeAt : Nat × Nat × Nat
  fixed   : Bool
  votes   : List Voter
  smAt    : Option Nat
  latch   : Bool
  pulse   : Bool
  fnHigh  : Bool
  clkPrev : Nat
  oscBad  : Bool
  vfail   : Nat
  valt    : List (Nat × Nat)
  vdisc   : List (Nat × Nat)
  mark    : Nat
  deriving DecidableEq, Repr

/-- The security engine beyond its registers (spec/16_security.md, R703 to R734): the fuse array and its shadow, the session
key, IDLETO, lockout length, the debug NONCE and the one under trial, EXTEST, and of the running Papol image its SHA-256, HOUT and the
copy in supervisor RAM (R715, R732; spec/06_engines_leap.md, R269). -/
structure Sec where
  fuses   : Vector Word 64
  shadow  : Vector Word 64
  key     : Option (List Word)
  lockLen : Nat
  idleto  : Nat
  nonce   : Option (List Word)
  trial   : List Word
  extest  : Bool
  digest  : List Word
  hout    : Nat
  image   : List Word
  deriving DecidableEq, Repr

/-- Papol's planner beyond its registers (spec/17_service_life.md, spec/14_power_states.md): per ring-oscillator pair the last
accepted DELTAs, newest first, in 10 ppm, and SYSTIME of the last (R744); per switch of a leg, low side then high side, of the 24 own legs and
then of the three spares, the samples accepted since its last result, the AGE code and the magnitude of the ISNS code of each (R746);
channels with a measured switch (R748); whether a re-plan waits for a transition or a molt to end (R749); the voltage
requested in mV (R653); whether REGLINK keeps VOUT_COMMAND back (R655); the EXP code of the regulator's linear mode, none where the
mode does not serve (R651); worn channels (R756); FSWCAPs withheld by a pin, in 10 kHz (R757). -/
structure AgeX where
  deltas   : Vector (List Int) 12
  okAt     : Vector Nat 12
  acc      : Vector (List (Nat × Nat)) 54
  seen     : Nat
  due      : Bool
  req      : Option Nat
  blocked  : Bool
  exp      : Option Nat
  worn     : Nat
  withheld : Vector Nat 3
  deriving DecidableEq, Repr

/-- The state of the device. -/
structure State where
  regs    : List (Nat × Word)
  mem     : List Host.Cell
  link    : Link
  rings   : Vector RingGeo 32
  pap     : Papol
  strs    : List StreamX
  tdm     : Vector PortX 2
  spdif   : SpdifX
  graph   : Graph
  leap    : Vector LeapCh 32
  eng     : Vector EngineX 8
  engMem  : List (Nat × Word)
  poison  : List Nat
  banks   : Banks
  spks    : Vector SpkX 12
  groups  : Vector GroupX 3
  crk     : Vector CrkSlot 8
  out     : OutX
  clk     : ClkX
  diag    : DiagX
  inp     : Inputs
  tad     : Tad
  wkd     : WkdX
  hp      : Vector HpX 2
  cv      : Vector CvX 4
  hpcv    : HpCvX
  madc    : MadcX
  pwr     : Pwr
  saf     : Saf
  sec     : Sec
  age     : AgeX
  draw    : Nat
  pending : List Instr
  deriving DecidableEq, Repr

/-- Where the spec gives a command no effect at all. -/
inductive Fault where
  /-- Raised by RESET with a RESET_N low pulse from 1 us to 10 us, whose outcome spec/02_package_supplies.md, R70 leaves
  undefined. Safe: the model stops where the device may do anything. -/
  | resetPulseUndefined
  deriving DecidableEq, Repr

/-- Commands without a meaning. -/
inductive Refusal where
  /-- Raised by an arm of Dispatch.lean for a command that has no meaning yet. Safe: the model stops. -/
  | notModelled (mnemonic : String)
  deriving DecidableEq, Repr

/-- The device right after reset, before BOOT (spec/14_power_states.md, R646; spec/16_security.md, R715). -/
def State.reset : State where
  regs := []
  mem := []
  link := { lock := false, dlock := false, shadow := 0, dshadow := 0, posted := [], stalled := [],
            rdata := 0, marker := false, status := 0, ptr := 0, badParity := [], cfgpar := [] }
  rings := Vector.ofFn fun i =>
    if i.val = 0 then ⟨0, 10⟩ else if i.val = 1 then ⟨0x1000, 8⟩ else if i.val = 2 then ⟨0x1400, 11⟩
    else if i.val = 3 then ⟨0x3400, 11⟩ else ⟨0, 6⟩
  pap := { run := .off, exp0 := 1, exp1 := 1, last0 := 0, last1 := 0, lastCseq := 0, lastUrg := false, eseq := 0,
           eack := 0, replies := [], events := [], unacked := [], held := [], afterDue := none, overflow := none, reports := [], dropped := 0,
           repost := 10, slots := [], cfggen := 0, version := 0, roll := 0, boot := .begin, pinPlace := 0,
           pinTrack := 0, pinAge := false, resetDue := false }
  strs := []
  tdm := Vector.replicate 2 { en := false, good := 0, clean := 0, redo := false, clock := false, useFmt := 0x81120000, useClk := 0x08000000 }
  spdif := { rxEn := false, txEn := false,
             rx := { csevt := false, expfs := 0xF, nphold := 0 }, rxNext := none,
             tx := { autofs := false, vbit := false, fs := 0, idle := false }, txNext := none,
             rxA := List.replicate 6 0, rxB := List.replicate 6 0, txA := List.replicate 6 0, txB := List.replicate 6 0,
             sentA := List.replicate 6 0, sentB := List.replicate 6 0, npAge := 0, seen := 0 }
  graph := { image := none, loading := none, molt := none, nra := 0, nraMin := 0, les := [], base := 0, tick := none,
             starts := [], shed := [], adopted := [], plans := [], countdown := none, recs := [], params := [], pseq := 0, inForce := [],
             flow := false, unload := false, rearm := false, molting := false, dead := false }
  leap := Vector.replicate 32 { samples := [], read := 0, filled := false, discAt := [], echo := [], demand := [] }
  eng := Vector.replicate 8 { fails := 0, faults := 0, core := List.replicate 168 0 }
  engMem := []
  poison := []
  banks := { spares := [], failed := [], dealt := [], corr := [], repls := [], march := 0, pace := 0 }
  spks := Vector.replicate 12 { on := false, start := false, why := 0, unclass := false, mark := 0, pos := 0, fast := false, short := false,
                                run := 0, dcBad := false, stopWait := none, md := { y := 0, valid := true, glide := 0, rise := 0, base := 0 },
                                att := 0, apl := 0, pest := 0, amps := 0, modelAt := none }
  groups := Vector.replicate 3 { pairs := 0, failed := 0, fails := Vector.replicate 8 0, slices := Vector.replicate 8 0xF,
                                 xslc := 0xF, byHost := false, seq := none, afb := 0, shut := 0, frac := 0, owed := 0, ovHeld := false }
  crk := Vector.replicate 8 { kind := 0, mask := 0, freq := 0, wave := 0, onMs := 0, offMs := 0, loop := false, len := 0,
                              data := [], level := 0, duck := 0, auto := false, map := 0, pass := false, active := false,
                              left := 0, forever := false, want := false, again := false, mark := 0 }
  out := { waits := [], muteLow := true, muteHeld := false, alertHeld := 0, pairStuck := false, crkFailed := false,
           ducks := Vector.replicate 12 (0, 0, 0), lockArm := true }
  clk := { ramp := none, slot2 := [], slot3 := [], holds := 0, offered := 0, due := false, placing := false, confWas := 0,
           settling := false, bad := Vector.replicate 3 0, since := Vector.replicate 3 0, refAt := 0, stepping := false, steps := 0,
           gateLeft := 0, gateAt := 0, syncArmed := false, syncWait := false, syncBad := 0, marked := false, caps := Vector.replicate 3 0,
           winSum := 0, winTicks := 0 }
  diag := { dc := [], ac := none }
  inp := { aadcRun := Vector.replicate 4 0, micRun := Vector.replicate 8 0, tapRun := Vector.replicate 12 0,
           bias := Vector.replicate 2 ⟨0, 0, 0, 0⟩, jackOn := none }
  tad := { tidx := 0, first := 0, opens := none, timer := none, again := false, last := none }
  wkd := { model := none, run := 0, quiet := 0, inv0 := 0, inv1 := 0, stop := false, fed := 0 }
  hp := Vector.replicate 2 { on := false, mark := 0, pos := 0, attL := 320, attR := 320,
                             left := { y := 0, valid := true, glide := 0, rise := 0, base := 0 },
                             right := { y := 0, valid := true, glide := 0, rise := 0, base := 0 } }
  cv := Vector.replicate 4 { target := 0, wait := none, frac := 0, pa := 0, parked := false }
  hpcv := { waits := [], clrLow := false }
  madc := { arb := false, plan := false, odd := 0, tdac := none, slot := 0, turn := 0, prev := Vector.replicate 2 (0, 0),
            queue := Vector.replicate 2 [], warm := Vector.replicate 2 0 }
  pwr := { changes := [], origin := 3, halt := false, waking := false, jack := none, gpio := 0, iov := false }
  saf := { recs := [], next := 1, work := [], cause := 0, causeAt := (0, 0, 0), fixed := false, votes := [], smAt := none,
           latch := true, pulse := false, fnHigh := false, clkPrev := 0, oscBad := false, vfail := 0, valt := [],
           vdisc := [], mark := 1 }
  sec := { fuses := Vector.ofFn fun i => if i.val = 0 then 0x00010101 else 0,
           shadow := Vector.ofFn fun i => if i.val = 0 then 0x00010101 else 0, key := none, lockLen := 0,
           idleto := 0, nonce := none, trial := [], extest := false, digest := [], hout := 0, image := [] }
  age := { deltas := Vector.replicate 12 [], okAt := Vector.replicate 12 0, acc := Vector.replicate 54 [], seen := 0, due := false, req := none, blocked := false,
           exp := none, worn := 0, withheld := Vector.replicate 3 0 }
  draw := 0
  pending := []

end Sys2Proof.Machine
end

