-- ==== Sys2Proof/Machine/Ops.lean ====
section
/-!
DEFINITION. The named operations over registers and memory: one register file with fields (R95, R131), the memory windows
word by word (R165), SYSTIME (R43), free values (log entry 1), CRC-32C (R165), saturating counters.
-/

namespace Sys2Proof.Machine

/-! Bits of a word. -/

/-- Bits [lo + n - 1 : lo] of a word. -/
def bits (w : Word) (lo n : Nat) : Nat := w.toNat / 2 ^ lo % 2 ^ n

/-- Bit `i` of a word. -/
def bit (w : Word) (i : Nat) : Bool := bits w i 1 = 1

/-- Whether bit `i` of a mask is set. -/
def inMask (mask i : Nat) : Bool := mask / 2 ^ i % 2 = 1

/-- A word with `v` in bits [lo + n - 1 : lo]. -/
def putBits (w : Word) (lo n v : Nat) : Word :=
  BitVec.ofNat 32 (w.toNat - bits w lo n * 2 ^ lo + v % 2 ^ n * 2 ^ lo)

/-- A Bool as a register bit. -/
def b2n (b : Bool) : Nat := if b then 1 else 0

/-- The word that a number reads as. -/
def w32 (n : Nat) : Word := BitVec.ofNat 32 n

/-- Word `i` of a payload; 0 beyond its end. -/
def pw (ws : List Word) (i : Nat) : Word := ws.getD i 0

/-- A field of payload word `i`. -/
def pf (ws : List Word) (i lo n : Nat) : Nat := bits (pw ws i) lo n

/-- A bit of payload word `i`. -/
def pb (ws : List Word) (i lo : Nat) : Bool := bit (pw ws i) lo

/-- The number that an `n`-bit two's-complement field holds. -/
def signed (n v : Nat) : Int := if v < 2 ^ (n - 1) then (v : Int) else (v : Int) - 2 ^ n

/-! Registers. -/

/-- The value of the register at byte address `a`. -/
def State.reg (s : State) (a : Nat) : Word := Sparse.get regReset s.regs a

/-- The state with the register at `a` holding `w`. -/
def State.setReg (s : State) (a : Nat) (w : Word) : State := { s with regs := Sparse.set regReset s.regs a w }

/-- The value of a register field. -/
def State.rd (s : State) (f : Field) : Nat := bits (s.reg f.addr) f.lo f.width

/-- Whether a one-bit field reads 1. -/
def State.on (s : State) (f : Field) : Bool := s.rd f = 1

/-- The state with a register field holding `v`, cut to the field's width. -/
def State.wr (s : State) (f : Field) (v : Nat) : State :=
  s.setReg f.addr (putBits (s.reg f.addr) f.lo f.width v)

/-- The state with a one-bit field set. -/
def State.set1 (s : State) (f : Field) : State := s.wr f 1

/-- The state with a one-bit field cleared. -/
def State.clr (s : State) (f : Field) : State := s.wr f 0

/-- A counter field advanced by `n`, saturating at its width. -/
def State.sat (s : State) (f : Field) (n : Nat) : State := s.wr f (min (s.rd f + n) (2 ^ f.width - 1))

/-- A counter field advanced by `n`, wrapping at its width. -/
def State.wrap (s : State) (f : Field) (n : Nat) : State := s.wr f (s.rd f + n)

/-- A 64-bit value held as the LO word at `a` and the HI word at `a + 4` (spec/03_register_access.md, R141). -/
def State.rd64 (s : State) (a : Nat) : Nat := (s.reg a).toNat + (s.reg (a + 4)).toNat * 2 ^ 32

/-- The state with a 64-bit value in the words at `a` and `a + 4`. -/
def State.wr64 (s : State) (a : Nat) (v : Nat) : State :=
  (s.setReg a (BitVec.ofNat 32 v)).setReg (a + 4) (BitVec.ofNat 32 (v / 2 ^ 32))

/-! Time (spec/01_architecture.md, R43). -/

/-- SYSTIME in ticks of 24.576 MHz. -/
def State.now (s : State) : Nat := s.rd64 Reg.CTL_SYS_TIME_LO

/-- The state `n` ticks later. -/
def State.tick (s : State) (n : Nat) : State := s.wr64 Reg.CTL_SYS_TIME_LO (s.now + n)

/-! Memory windows: byte memory, least significant byte of a word first (spec/04_command_protocol.md, R165). -/

/-- What a byte that nothing has written reads as: 0, as the start-up test and zeroisation leave it
(spec/07_shared_banks.md, R341; spec/11_inputs_wake.md, R534). -/
def memDefault (_ : Nat) : Byte := 0

/-- The canonical form of the memory list. -/
def Memory.wf (m : List Host.Cell) : Bool := Sparse.wf memDefault m

/-- One byte of a memory window. -/
def State.byte (s : State) (a : Nat) : Byte := Sparse.get memDefault s.mem a

/-- The state with one byte of a memory window written. -/
def State.setByte (s : State) (a : Nat) (b : Byte) : State := { s with mem := Sparse.set memDefault s.mem a b }

/-- The word of a memory window at byte address `a`. -/
def State.word (s : State) (a : Nat) : Word :=
  s.byte (a + 3) ++ s.byte (a + 2) ++ s.byte (a + 1) ++ s.byte a

/-- The state with the word at byte address `a` written; a full write gives a bank word fresh check bits
(spec/07_shared_banks.md, R331). -/
def State.setWord (s : State) (a : Nat) (w : Word) : State :=
  { (((s.setByte a (w.extractLsb' 0 8)).setByte (a + 1) (w.extractLsb' 8 8)).setByte (a + 2)
      (w.extractLsb' 16 8)).setByte (a + 3) (w.extractLsb' 24 8) with poison := s.poison.filter (· ≠ a) }

/-- `n` words of a memory window from byte address `a`. -/
def State.words (s : State) (a : Nat) : Nat → List Word
  | 0 => []
  | n + 1 => s.word a :: State.words s (a + 4) n

/-! Free values (log entry 1). -/

/-- The next free value. -/
def State.free (s : State) : Word := Config.freeValue s.draw

/-- The state after one draw. -/
def State.drawn (s : State) : State := { s with draw := s.draw + 1 }

/-! CRC-32C (spec/04_command_protocol.md, R165): polynomial 0x1EDC_6F41 reflected. -/

/-- One bit of the reflected CRC. -/
def crcBit (c : Word) : Word := if c.getLsbD 0 then (c >>> 1) ^^^ 0x82F63B78 else c >>> 1

/-- `n` bits of the reflected CRC. -/
def crcBits : Nat → Word → Word
  | 0, c => c
  | n + 1, c => crcBits n (crcBit c)

/-- One byte into the CRC. -/
def crcByte (c : Word) (b : Byte) : Word := crcBits 8 (c ^^^ b.zeroExtend 32)

/-- One word into the CRC, least significant byte first. -/
def crcWord (c : Word) (w : Word) : Word := crcBits 32 (c ^^^ w)

/-- The CRC word over a run of words. -/
def crc32c (ws : List Word) : Word := ws.foldl crcWord 0xFFFFFFFF ^^^ 0xFFFFFFFF

/-! Power states (spec/14_power_states.md, R617). -/

def stOff : Nat := 0
def stBrumate : Nat := 1
def stListen : Nat := 2
def stIdle : Nat := 3
def stPlay : Nat := 4

/-- The code of the present power state. -/
def State.pstate (s : State) : Nat := s.rd F.PWR_STATE_STATE

/-- Whether the device is held in reset: BOOT has not released it yet, or TESTMODE keeps it there (spec/02_package_supplies.md, R71,
R79). -/
def State.inReset (s : State) : Bool := (s.pap.boot = .begin || s.pap.boot = .test) && s.pap.run = .off

/-- Whether the host link is alive: the device is out of reset, in LISTEN, IDLE or PLAY (spec/03_register_access.md, R100). -/
def State.linkAlive (s : State) : Bool := !s.inReset && decide (stListen ≤ s.pstate)

/-- Entry `i` of a fixed array; the type's default beyond its end. -/
def vat {α : Type} [Inhabited α] {n : Nat} (v : Vector α n) (i : Nat) : α := v[i]?.getD default

/-- A fixed array with entry `i` changed by `f`; unchanged beyond its end. -/
def vmod {α : Type} [Inhabited α] {n : Nat} (v : Vector α n) (i : Nat) (f : α → α) : Vector α n :=
  v.setIfInBounds i (f (vat v i))

/-- Applies `f` to each index below `n` in rising order. -/
def forEach {α : Type} (f : Nat → α → α) : Nat → α → α
  | 0, a => a
  | n + 1, a => f n (forEach f n a)

/-- Applies `f` to each index below `n` whose bit of `mask` is set, in rising order. -/
def forMask {α : Type} (mask : Nat) (f : Nat → α → α) (n : Nat) (a : α) : α :=
  forEach (fun i a => if inMask mask i then f i a else a) n a

/-- The indices below `n` that satisfy `p`. -/
def indices (n : Nat) (p : Nat → Bool) : List Nat := (List.range n).filter p

/-- The mask of the indices below `n` that satisfy `p`. -/
def maskOf (n : Nat) (p : Nat → Bool) : Nat := forEach (fun i m => if p i then m + 2 ^ i else m) n 0

end Sys2Proof.Machine
end

