-- ==== Sys2Proof/Machine/Events.lean ====
section
/-!
DEFINITION. Rings (spec/04_command_protocol.md, R153 to R160), events (R164, R183 to R186), the event journal (R188) and the
hardware event queue (R799).
-/

namespace Sys2Proof.Machine

/-! Rings. -/

/-- Whether a register of host audio ring `n` waits for its rewrite after CFGPAR (spec/15_safety.md, R672). -/
def State.ringStopped (s : State) (n : Nat) : Bool :=
  4 ≤ n && n ≤ 15 && s.link.cfgpar.any fun e => decide (0x100400 + 0x10 * n ≤ e.1 ∧ e.1 < 0x100410 + 0x10 * n)

/-- Whether ring `n` is in use. -/
def State.ringOn (s : State) (n : Nat) : Bool := s.on (F.DSP_RING_CFG_ENABLE n) && !s.ringStopped n

/-- The geometry that ring `n` latched at its last enable (R155). -/
def State.geo (s : State) (n : Nat) : RingGeo := s.rings.toList.getD n ⟨0, 6⟩

/-- The length of ring `n` in words. -/
def State.ringLen (s : State) (n : Nat) : Nat := 2 ^ (s.geo n).log2

/-- The window address of the word with index `i` of ring `n`. -/
def State.ringAddr (s : State) (n i : Nat) : Nat := 0x800000 + (s.geo n).base + 4 * (i % s.ringLen n)

/-- HIDX of ring `n`. -/
def State.hidx (s : State) (n : Nat) : Nat := s.rd (F.DSP_RING_HIDX_HIDX n)

/-- DIDX of ring `n`. -/
def State.didx (s : State) (n : Nat) : Nat := s.rd (F.DSP_RING_DIDX_DIDX n)

/-- The occupancy of a host-to-device ring (R156). -/
def State.occupancy (s : State) (n : Nat) : Nat := (s.hidx n + 2 ^ 17 - s.didx n) % 2 ^ 17

/-- The unread content of a device-to-host ring (R156). -/
def State.unread (s : State) (n : Nat) : Nat := (s.didx n + 2 ^ 17 - s.hidx n) % 2 ^ 17

/-- `k` words of ring `n` from index `i`. -/
def State.ringWords (s : State) (n i : Nat) : Nat → List Word
  | 0 => []
  | k + 1 => s.word (s.ringAddr n i) :: State.ringWords s n (i + 1) k

/-- The state with words written into ring `n` from index `i`. -/
def State.putRing (s : State) (n i : Nat) : List Word → State
  | [] => s
  | w :: ws => State.putRing (s.setWord (s.ringAddr n i) w) n (i + 1) ws

/-- Whether device-to-host ring `n` has space for `k` words (R159). -/
def State.ringSpace (s : State) (n k : Nat) : Bool :=
  s.ringOn n && decide (s.unread n + k ≤ s.ringLen n)

/-- The state with a whole packet written into device-to-host ring `n` and DIDX past it. -/
def State.ringPut (s : State) (n : Nat) (ws : List Word) : State :=
  (s.putRing n (s.didx n) ws).wr (F.DSP_RING_DIDX_DIDX n) (s.didx n + ws.length)

/-! Events. -/

/-- The event codes of R187. -/
def evReady : Nat := 0x001
def evCmdDone : Nat := 0x002
def evOverflow : Nat := 0x003
def evPolicyClamp : Nat := 0x004
def evWake : Nat := 0x010
def evPower : Nat := 0x011
def evStream : Nat := 0x020
def evAsrc : Nat := 0x021
def evFault : Nat := 0x030
def evRepair : Nat := 0x031
def evSafeState : Nat := 0x032
def evThermal : Nat := 0x040
def evJack : Nat := 0x041
def evPll : Nat := 0x050
def evPlacement : Nat := 0x051
def evAgeing : Nat := 0x070
def evSecurity : Nat := 0x080

/-- The words of an event in ring 3 (R164, R165). -/
def EventEntry.words (e : EventEntry) (again : Bool) : List Word :=
  let body := [w32 (e.ecode * 2 ^ 20 + b2n e.urg * 2 ^ 19 + b2n again * 2 ^ 18 + e.payload.length),
               w32 (e.eseq.toNat * 2 ^ 16 + e.cseq.toNat),
               e.time.extractLsb' 0 32, e.time.extractLsb' 32 32] ++ e.payload
  body ++ [crc32c body]

/-- Whether every event of the journal has been written to ring 3. -/
def allWritten (l : List EventEntry) : Bool := l.all (·.written)

/-- Writes the waiting events to ring 3 in ESEQ order as far as there is space (R184, R185); `l` is what is left of the
journal to look at, `acc` what has been looked at. -/
def State.flushEvents : List EventEntry → List EventEntry → State → State
  | acc, [], s => { s with pap := { s.pap with events := acc } }
  | acc, e :: rest, s =>
    if e.written then State.flushEvents (acc ++ [e]) rest s
    else if s.ringSpace 3 (e.words false).length then
      State.flushEvents (acc ++ [{ e with written := true }]) rest
        { s.ringPut 3 (e.words false) with
          pap := { s.pap with overflow := if s.pap.overflow = some e.eseq then none else s.pap.overflow } }
    else { s with pap := { s.pap with events := acc ++ e :: rest } }

/-- The waiting events written as far as ring 3 has space. -/
def State.flush (s : State) : State := State.flushEvents [] s.pap.events s

/-- The event that leaves a full journal: the oldest, except that a waiting EVT_OVERFLOW stays and the next oldest leaves
(R185). -/
def evict (keep : Option (BitVec 16)) : List EventEntry → Option (EventEntry × List EventEntry)
  | [] => none
  | e :: rest =>
    if keep = some e.eseq then
      match rest with
      | [] => some (e, [])
      | f :: more => some (f, e :: more)
    else some (e, rest)

/-- The journal with the range of the waiting EVT_OVERFLOW widened to take in the lost ESEQ `x` (R185). -/
def widen (ov x : BitVec 16) (l : List EventEntry) : List EventEntry :=
  l.map fun e =>
    if e.eseq = ov then
      { e with payload := [w32 (bits (pw e.payload 0) 16 16 * 2 ^ 16 + x.toNat), pw e.payload 1] }
    else e

/-- A new event with the next ESEQ. -/
def State.newEvent (s : State) (code : Nat) (payload : List Word) (repost : Bool) (time : Word64) : EventEntry :=
  { ecode := code, urg := s.pap.lastUrg, eseq := s.pap.eseq + 1, cseq := s.pap.lastCseq, time := time,
    payload := payload, repost := repost, written := false }

/-- The event journaled with the next ESEQ, the journal not yet cut to 64 entries. -/
def State.journalEvent (s : State) (code : Nat) (payload : List Word) (repost : Bool) (time : Word64) : State :=
  { s with pap := { s.pap with
      eseq := s.pap.eseq + 1
      events := s.pap.events ++ [s.newEvent code payload repost time] } }

/-- Whether an event is acknowledged: the stored EACK has reached it (R186). -/
def State.acked (s : State) (e : EventEntry) : Bool := decide ((s.pap.eack - e.eseq).toNat < 2 ^ 15)

/-- Whether an event is to be written again: it is marked for repost, has been written and is not acknowledged (R186). -/
def State.reposts (s : State) (e : EventEntry) : Bool := e.repost && e.written && !s.acked e

/-- An event that leaves the journal written, and is still to be reposted, is kept for that (R186). -/
def State.keepRepost (s : State) (e : EventEntry) : State :=
  if s.reposts e then { s with pap := { s.pap with unacked := s.pap.unacked.filter s.reposts ++ [e] } } else s

/-- The journal cut to 64 entries; an event that leaves unwritten is lost, and EVT_OVERFLOW names the range (R185). -/
def State.trimEvents : Nat → State → State
  | 0, s => s
  | fuel + 1, s =>
    if s.pap.events.length ≤ 64 then s
    else
      match evict s.pap.overflow s.pap.events with
      | none => s
      | some (e, rest) =>
        let s1 := { s with pap := { s.pap with events := rest } }
        if e.written then State.trimEvents fuel (s1.keepRepost e)
        else
          match s.pap.overflow with
          | some ov => State.trimEvents fuel { s1 with pap := { s1.pap with events := widen ov e.eseq rest } }
          | none =>
            let s2 := s1.journalEvent evOverflow
              [w32 (e.eseq.toNat * 2 ^ 16 + e.eseq.toNat), w32 (2 ^ 31)] false (BitVec.ofNat 64 s.now)
            State.trimEvents fuel { s2 with pap := { s2.pap with overflow := some s2.pap.eseq } }

/-- One event issued by Papol: it takes the next ESEQ, is journaled, and is written in its place as ring 3 has space
(R183 to R185). -/
def State.issueAt (s : State) (code : Nat) (payload : List Word) (repost : Bool) (time : Word64) : State :=
  ((s.journalEvent code payload repost time).trimEvents 4).flush

/-- SYS runs for what is under way: in LISTEN its clock starts on demand, and stops again as the device idles (R161). -/
def State.sysRun (s : State) : State := if s.pstate = stListen then s.set1 F.CTL_CLK_STAT_SYSLOCK else s

/-- One event raised now: issued while Papol runs, otherwise left as a report in the hardware event queue of 64 (R161, R799). -/
def State.raiseR (s : State) (code : Nat) (payload : List Word) (repost : Bool) : State :=
  if s.pap.run = .running then s.sysRun.issueAt code payload repost (BitVec.ofNat 64 s.now)
  else if s.pap.reports.length < 64 then
    { s with pap := { s.pap with reports := s.pap.reports ++ [⟨code, payload, repost, BitVec.ofNat 64 s.now⟩] } }
  else { s with pap := { s.pap with dropped := s.pap.dropped + 1 } }

/-- One event that is not reposted. -/
def State.raise (s : State) (code : Nat) (payload : List Word) : State := s.raiseR code payload false

end Sys2Proof.Machine
end

