-- ==== Sys2Proof/Machine/Papol.lean ====
section
/-!
DEFINITION. How Papol takes a command packet (spec/04_command_protocol.md, R162 to R182): delivery, the checks of R169 in
order, replies, the reply journal, the pending model.
-/

namespace Sys2Proof

open Machine (w32 b2n)

/-- The header and payload words of a packet. -/
def Packet.body (opcode : Nat) (p : Packet) : List Word :=
  [w32 (opcode * 2 ^ 20 + b2n p.auth * 2 ^ 19 + b2n p.noreply * 2 ^ 18 + b2n p.urgent * 2 ^ 17
      + b2n p.force * 2 ^ 16 + p.payload.length % 2 ^ 16),
   w32 (p.cseq.toNat * 2 ^ 16 + p.eack.toNat)] ++ p.payload

/-- Every word of a packet but the CRC word. -/
def Packet.covered (opcode : Nat) (p : Packet) : List Word :=
  p.body opcode ++ (if p.auth then p.tag else [])

/-- Every word of a packet. -/
def Packet.words (opcode : Nat) (p : Packet) : List Word := p.covered opcode ++ [p.crc]

/-- The command ring of a packet. -/
def Packet.ring (p : Packet) : Nat := if p.ring1 then 1 else 0

end Sys2Proof

namespace Sys2Proof.Machine

/-! Status codes (R181). -/

def stsOk : Nat := 0x00
def stsPending : Nat := 0x01
def stsBusy : Nat := 0x02
def stsStateBusy : Nat := 0x03
def stsDomainBusy : Nat := 0x04
def stsBadParam : Nat := 0x05
def stsDenied : Nat := 0x06
def stsAuthFail : Nat := 0x07
def stsSeqGap : Nat := 0x08
def stsCrcFail : Nat := 0x09
def stsNoResource : Nat := 0x0A
def stsNoMargin : Nat := 0x0B
def stsClamped : Nat := 0x0C

/-- Whether a status counts as success (R182). -/
def success (st : Nat) : Bool := st = stsOk || st = stsClamped

/-- What the table of R192 says of an opcode, and whether it is a configuration command of R796. An opcode outside
the table has no length that it accepts (`maxLen` below `minLen`). -/
structure CmdSpec where
  opcode : Nat
  minLen : Nat
  maxLen : Nat
  listen : Bool
  idle   : Bool
  play   : Bool
  ring1  : Bool
  auth   : Bool
  force  : Bool
  cfg    : Bool

/-- What a command's card makes of a packet that passed steps 1 to 6 of R169 and the LEN and FORCE checks of step 7:
refused without effect (steps 7 and 8), done, or pending on the named targets. -/
inductive Res where
  | refuse (status detail : Nat)
  | done (status detail : Nat) (words : List Word) (clamps : List Clamp) (s : State)
  | pend (words : List Word) (targets : List Target) (s : State)

/-- Done with ST_OK and no reply words. -/
def Res.ok (s : State) : Res := .done stsOk 0 [] [] s

/-- ST_OK, or ST_CLAMPED with the first clamped field in DETAIL (R181, R182). -/
def Res.clampedOk (words : List Word) (cl : List Clamp) (s : State) : Res :=
  match cl with
  | [] => .done stsOk 0 words [] s
  | c :: _ => .done stsClamped c.field words cl s

/-- ST_BAD_PARAM naming payload word `i` (R181). -/
def Res.bad (i : Nat) : Res := .refuse stsBadParam (i + 1)

/-! Replies (R163, R159, R179). -/

/-- The tag words over a reply (R163, R166): zeros with no session open. -/
def State.tagOver (s : State) (body : List Word) : List Word :=
  match s.sec.key with
  | some k => Crypto.hmacWords k body
  | none => List.replicate 8 0

/-- A held reply as it is written now: the last ESEQ issued, its tag and its CRC (R163, R165). -/
def State.replyWords (s : State) (h : HeldReply) : List Word :=
  let body := (h.words.take 1) ++ [w32 (bits (pw h.words 1) 16 16 * 2 ^ 16 + s.pap.eseq.toNat)] ++ h.words.drop 2
  let full := body ++ (if h.tag then s.tagOver body else [])
  full ++ [crc32c full]

/-- The newest journal entry of a ring and CSEQ changed by `f`. -/
def updReply (ring1 : Bool) (cseq : BitVec 16) (f : ReplyEntry → ReplyEntry) : List ReplyEntry → List ReplyEntry
  | [] => []
  | e :: rest =>
    if e.ring1 = ring1 ∧ e.cseq = cseq ∧ ¬ rest.any (fun r => r.ring1 = ring1 && r.cseq = cseq) then f e :: rest
    else e :: updReply ring1 cseq f rest

/-- A command counts as completed: the last CSEQ of its ring and of either ring (R164, R179). -/
def State.completed (s : State) (ring1 : Bool) (cseq : BitVec 16) : State :=
  { s with pap := { s.pap with
      last0 := if ring1 then s.pap.last0 else cseq
      last1 := if ring1 then cseq else s.pap.last1
      lastCseq := cseq
      lastUrg := ring1 } }

/-- A reply has been written: its journal entry takes the ESEQ that it carries (R188), and a final one completes its command (R179). -/
def State.wrote (s : State) (h : HeldReply) : State :=
  let s1 := if h.journaled then
    { s with pap := { s.pap with
        replies := updReply h.ring1 h.cseq (fun e => { e with eseq := s.pap.eseq }) s.pap.replies } }
    else s
  if h.final then s1.completed h.ring1 h.cseq else s1

/-- Writes held replies into ring 2, oldest first, as far as there is space. -/
def State.flushHeld : List HeldReply → State → State
  | [], s => { s with pap := { s.pap with held := [] } }
  | h :: rest, s =>
    if s.ringSpace 2 (s.replyWords h).length then
      State.flushHeld rest ((s.ringPut 2 (s.replyWords h)).wrote h)
    else { s with pap := { s.pap with held := h :: rest } }

/-- One reply written, or held back behind those already held (R159). -/
def State.emit (s : State) (h : HeldReply) : State := State.flushHeld (s.pap.held ++ [h]) s

/-- The header and payload words of a reply (R163), its ESEQ filled in when it is written. -/
def replyHead (opcode : Nat) (ring1 dup trunc resync : Bool) (cseq : BitVec 16) (status detail : Nat) (len : Nat)
    (payload : List Word) : List Word :=
  [w32 (opcode * 2 ^ 20 + b2n ring1 * 2 ^ 19 + b2n dup * 2 ^ 18 + b2n trunc * 2 ^ 17 + b2n resync * 2 ^ 16 + len),
   w32 (cseq.toNat * 2 ^ 16), w32 (status * 2 ^ 24 + detail % 2 ^ 24)] ++ payload

/-- Whether a reply with this status carries the tag (R163). -/
def tagDue (auth : Bool) (status : Nat) : Bool := auth && status ≠ stsCrcFail && status ≠ stsAuthFail

/-- The reply journal with one more entry; 64 are kept (R188). -/
def pushReply (l : List ReplyEntry) (e : ReplyEntry) : List ReplyEntry :=
  (l ++ [e]).drop (l.length + 1 - 64)

/-- One answer to a packet: journaled unless `journal` is false, and written unless NOREPLY suppresses it (R174). A final answer completes
the command as it is written, a suppressed one at once (R179; log entry 92). -/
def State.answer (s : State) (opcode : Nat) (p : Packet) (auth journal : Bool) (status detail : Nat)
    (trunc : Bool) (payload : List Word) : State :=
  let s1 :=
    if journal then
      { s with pap := { s.pap with
          replies := pushReply s.pap.replies
            ⟨opcode, p.ring1, p.cseq, s.pap.eseq, status, detail, payload.length, payload.take 16⟩ } }
    else s
  let final := journal && status ≠ stsPending
  if p.noreply ∧ (status = stsOk ∨ status = stsPending) then (if final then s1.completed p.ring1 p.cseq else s1)
  else s1.emit ⟨replyHead opcode p.ring1 false trunc false p.cseq status detail payload.length payload,
    tagDue auth status, journal, final, p.ring1, p.cseq⟩

/-- The clamp events of a command that ends with ST_CLAMPED (R182, R800). -/
def State.raiseClamps (s : State) (opcode : Nat) (cl : List Clamp) : State :=
  cl.foldl (fun s c => s.raise evPolicyClamp
    [w32 (opcode * 2 ^ 20 + c.unit % 16 * 2 ^ 16 + c.field % 256 * 2 ^ 8 + c.pos % 256), w32 c.value]) s

/-- CFGGEN after a configuration command that ends with this status (R190). -/
def State.countCfg (s : State) (cfg : Bool) (status : Nat) : State :=
  if cfg ∧ success status then { s with pap := { s.pap with cfggen := s.pap.cfggen + 1 } } else s

/-! Authentication (R169 step 5; spec/16_security.md, R721, R722). -/

/-- EVT_SECURITY (spec/16_security.md, R723). -/
def State.raiseSecurity (s : State) (kind cause consec lowHalf : Nat) : State :=
  s.raise evSecurity [w32 (kind * 2 ^ 28 + cause * 2 ^ 24 + consec * 2 ^ 16 + lowHalf)]

/-- The session closes (spec/16_security.md, R721, R723). -/
def State.closeSession (s : State) (cause : Nat) : State :=
  if s.on F.CTL_SEC_STAT_SESS then
    ({ s with sec := { s.sec with key := none } }.clr F.CTL_SEC_STAT_SESS).raiseSecurity 1 cause
      (s.rd F.CTL_SEC_CNT_CONSEC) (s.rd F.CTL_SEC_STAT_SESSNO)
  else s

/-- A lockout starts: 1 s, doubled for each further one up to 64 s; the session closes and CONSEC clears
(spec/16_security.md, R722). -/
def State.startLockout (s : State) : State :=
  let len := if s.sec.lockLen = 0 then 1 else min 64 (2 * s.sec.lockLen)
  let s1 := ({ s with sec := { s.sec with key := none, lockLen := len } }.clr F.CTL_SEC_STAT_SESS).raiseSecurity 1 3 8 (len * 2 ^ 8)
  ((s1.wr F.CTL_SEC_CNT_CONSEC 0).sat F.CTL_SEC_CNT_LOCKOUTS 1).set1 F.CTL_SEC_STAT_LOCKOUT

/-- One ST_AUTH_FAIL is counted (spec/16_security.md, R722, R723). -/
def State.authFailed (s : State) : State :=
  let s1 := s.sat F.CTL_SEC_CNT_AUTHFAIL 1
  if s1.on F.CTL_SEC_STAT_LOCKOUT then s1
  else
    let s2 := s1.sat F.CTL_SEC_CNT_CONSEC 1
    if s1.rd F.CTL_SEC_CNT_CONSEC = 0 then s2.raiseSecurity 2 0 1 (s2.rd F.CTL_SEC_STAT_SESSNO) else s2

/-- A verified packet clears CONSEC (spec/16_security.md, R722). -/
def State.authPassed (s : State) : State := s.wr F.CTL_SEC_CNT_CONSEC 0

/-- Whether the tag of an AUTH packet verifies under the open session (R166; spec/16_security.md, R722). -/
def State.tagOk (s : State) (opcode : Nat) (p : Packet) : Bool :=
  match s.sec.key with
  | some k => !s.on F.CTL_SEC_STAT_LOCKOUT && p.tag = Crypto.hmacWords k (p.body opcode)
  | none => false

/-- The session whose key is given replaces the one before (spec/16_security.md, R719, R720, R722). -/
def State.putKey (s : State) (key : Option (List Word × Nat)) : State :=
  match key with
  | none => s
  | some (k, idleto) =>
    let s1 := s.closeSession 4
    (({ s1 with sec := { s1.sec with key := some k, idleto := idleto, lockLen := 0 } }.wrap F.CTL_SEC_STAT_SESSNO 1).set1
      F.CTL_SEC_STAT_SESS).wr F.CTL_SEC_CNT_CONSEC 0

/-! The pending model (R175 to R180). -/

/-- The lowest free pending slot, of 8 (R177, R181). -/
def State.freeSlot? (s : State) : Option Nat :=
  (List.range 8).find? fun k => ¬ s.pap.slots.any (fun e => e.slot = k)

/-- The pending command that addresses one of the targets, lowest slot first (R178). -/
def State.pendFor? (s : State) (ts : List Target) : Option PendEntry :=
  s.pap.slots.find? fun e => e.targets.any (fun t => ts.contains t)

/-- The pending command with this opcode, lowest slot first. -/
def State.pendOp? (s : State) (opcode : Nat) : Option PendEntry :=
  s.pap.slots.find? fun e => e.opcode = opcode

/-- The pending command with this opcode that has not finished yet (R180), lowest slot first. -/
def State.atWork? (s : State) (opcode : Nat) : Option PendEntry :=
  s.pap.slots.find? fun e => e.opcode = opcode && e.done.isNone

/-- ST_BUSY naming a pending command (R181). -/
def busyWith (e : PendEntry) : Res := .refuse stsBusy (b2n e.ring1 * 2 ^ 16 + e.cseq.toNat)

/-- `k`, unless a pending command addresses one of the targets (R178). -/
def State.unlessBusy (s : State) (ts : List Target) (k : Res) : Res :=
  match s.pendFor? ts with
  | some e => busyWith e
  | none => k

/-- The pending entries in slot order with one more. -/
def insertPend (e : PendEntry) : List PendEntry → List PendEntry
  | [] => [e]
  | f :: rest => if e.slot < f.slot then e :: f :: rest else f :: insertPend e rest

/-- The pending list without a slot. -/
def State.dropPend (s : State) (slot : Nat) : State :=
  { s with pap := { s.pap with slots := s.pap.slots.filter (fun e => e.slot ≠ slot) } }

/-- A pending command ends: its journal entry takes the final status, it counts as completed, and EVT_CMD_DONE carries
the status and the reply words (R175, R176, R179). -/
def State.postDone (s : State) (e : PendEntry) (status detail : Nat) (words : List Word) (clamps : List Clamp)
    (time : Word64) : State :=
  let s1 := s.dropPend e.slot
  let s2 := { s1 with pap := { s1.pap with
      replies := updReply e.ring1 e.cseq (fun r => { r with status := status, detail := detail }) s1.pap.replies } }
  let s3 := (s2.completed e.ring1 e.cseq).countCfg e.cfg status
  let s4 := s3.issueAt evCmdDone
    ([w32 (e.opcode * 2 ^ 20 + b2n e.ring1 * 2 ^ 16 + e.cseq.toNat), w32 (status * 2 ^ 24 + detail % 2 ^ 24)] ++ words)
    false time
  s4.raiseClamps e.opcode clamps

/-- A pending command finishes: at once while Papol runs, otherwise held until it runs again (R180). ST_STATE_BUSY names the
target of the transition under way (R181). -/
def State.finishWith (s : State) (e : PendEntry) (status d : Nat) (words : List Word) (clamps : List Clamp)
    (key : Option (List Word × Nat)) : State :=
  let detail := if status = stsStateBusy then s.rd F.PWR_STATE_TARGET else d
  if s.pap.run = .running then
    (s.sysRun.putKey key).postDone e status detail words clamps (BitVec.ofNat 64 s.now)
  else
    { s with pap := { s.pap with
        slots := s.pap.slots.map fun f =>
          if f.slot = e.slot then
            { f with done := some ⟨(s.pap.slots.filter fun g => g.done.isSome).length, status, detail, words, clamps,
                BitVec.ofNat 64 s.now, key⟩ }
          else f } }

/-- A pending command that puts no session in force finishes. -/
def State.finish (s : State) (e : PendEntry) (status d : Nat) (words : List Word) (clamps : List Clamp) : State :=
  s.finishWith e status d words clamps none

/-- Every pending command that `sel` names ends with this status. -/
def State.finishAll (s : State) (sel : PendEntry → Bool) (status detail : Nat) : State :=
  (s.pap.slots.filter (fun e => sel e && e.done.isNone)).foldl (fun s e => s.finish e status detail [] []) s

/-- The pending command that addresses `t` ends with this status, if there is one. -/
def State.finishFor (s : State) (t : Target) (opcode status : Nat) (words : List Word) : State :=
  match s.pap.slots.find? (fun e => e.opcode = opcode && e.targets.contains t && e.done.isNone) with
  | some e => s.finish e status 0 words []
  | none => s

/-- The pending command that finished first while the supervisor did not run. -/
def State.firstDone? (s : State) : Option (PendEntry × DoneRec) :=
  s.pap.slots.foldl (fun (m : Option (PendEntry × DoneRec)) e =>
    match e.done, m with
    | some d, some q => if d.order < q.2.order then some (e, d) else m
    | some d, none => some (e, d)
    | none, _ => m) none

/-- A finished command is posted; a session opens at that moment (R180; spec/16_security.md, R720). -/
def State.postRec (s : State) (e : PendEntry) (d : DoneRec) : State :=
  (s.putKey d.key).postDone e d.status d.detail d.words d.clamps d.time

/-- Up to `n` queued reports and finished commands are posted, in SYSTIME order (R180, R799). -/
def State.drain : Nat → State → State
  | 0, s => s
  | n + 1, s =>
    let report := fun (r : Report) =>
      ({ s with pap := { s.pap with reports := s.pap.reports.drop 1 } }).issueAt r.ecode r.payload r.repost r.time
    match s.pap.reports.head?, s.firstDone? with
    | some r, some (e, d) => State.drain n (if r.time.toNat ≤ d.time.toNat then report r else s.postRec e d)
    | some r, none => State.drain n (report r)
    | none, some (e, d) => State.drain n (s.postRec e d)
    | none, none => s

/-- Papol runs again: EVT_OVERFLOW for dropped reports, then what was queued (R180, R799). -/
def State.papolRuns (s : State) : State :=
  let s1 := { s with pap := { s.pap with run := .running, dropped := 0 } }
  let s2 := if s.pap.dropped = 0 then s1
    else s1.drawn.issueAt evOverflow [s1.free, w32 (min 0xFFFF s.pap.dropped)] false (BitVec.ofNat 64 s.now)
  State.drain (s.pap.reports.length + s.pap.slots.length) s2

/-! Taking a packet (R167 to R174). -/

/-- The length in words of the packet whose header stands at the front of ring `n`. -/
def State.frontLen (s : State) (n : Nat) : Nat :=
  let w0 := s.word (s.ringAddr n (s.didx n))
  3 + bits w0 0 16 + (if bit w0 19 then 8 else 0)

/-- Whether ring `n` holds a complete packet. -/
def State.hasPacket (s : State) (n : Nat) : Bool :=
  s.ringOn n && decide (0 < s.occupancy n) && decide (s.frontLen n ≤ s.occupancy n)

/-- Whether a present or coming power state allows the opcode (R169 step 6; spec/14_power_states.md, R625). -/
def CmdSpec.allows (c : CmdSpec) (st : Nat) : Bool :=
  (st = stListen && c.listen) || (st = stIdle && c.idle) || (st = stPlay && c.play)

/-- The state that a transition under way leaves, the present state otherwise (spec/14_power_states.md, R625). -/
def State.leaving (s : State) : Nat := if s.on F.PWR_STATE_TRANS then s.pwr.origin else s.pstate

/-- The expected CSEQ of a ring (R170). -/
def State.expected (s : State) (ring1 : Bool) : BitVec 16 := if ring1 then s.pap.exp1 else s.pap.exp0

/-- The series of a ring advanced by one (R170). -/
def State.advance (s : State) (ring1 : Bool) : State :=
  { s with pap := { s.pap with
      exp0 := if ring1 then s.pap.exp0 else s.pap.exp0 + 1
      exp1 := if ring1 then s.pap.exp1 + 1 else s.pap.exp1 } }

/-- The stored EACK after a packet (R173). -/
def State.takeEack (s : State) (e : BitVec 16) : State :=
  if 1 ≤ (e - s.pap.eack).toNat ∧ (e - s.pap.eack).toNat ≤ 32767 ∧ (e - s.pap.eack).toNat ≤ (s.pap.eseq - s.pap.eack).toNat
  then { s with pap := { s.pap with eack := e } } else s

/-- The newest journal entry of a ring and CSEQ. -/
def State.replyFor? (s : State) (ring1 : Bool) (cseq : BitVec 16) : Option ReplyEntry :=
  s.pap.replies.reverse.find? fun e => e.ring1 = ring1 && e.cseq = cseq

/-- The answer to a packet whose CSEQ is not the expected one (R171). -/
def State.answerSeq (s : State) (opcode : Nat) (p : Packet) : State :=
  let back := (s.expected p.ring1 - p.cseq).toNat
  match (if 1 ≤ back ∧ back ≤ 64 then s.replyFor? p.ring1 p.cseq else none) with
  | some e =>
    if p.noreply ∧ (e.status = stsOk ∨ e.status = stsPending) then s
    else s.emit ⟨replyHead e.opcode e.ring1 true (16 < e.len) false e.cseq e.status e.detail e.len e.payload,
      tagDue p.auth e.status, false, false, p.ring1, p.cseq⟩
  | none => s.answer opcode p p.auth false stsSeqGap (s.expected p.ring1).toNat false []

/-- The check of R169, steps 3 and 4, that fails first. -/
def CmdSpec.early (c : CmdSpec) (p : Packet) : Option (Nat × Nat) :=
  if p.urgent ≠ p.ring1 ∨ c.maxLen < c.minLen then some (stsBadParam, 0)
  else if p.ring1 ∧ ¬ c.ring1 then some (stsDenied, 1)
  else if c.auth ∧ ¬ p.auth then some (stsDenied, 3)
  else none

/-- The check of R169, steps 3 to 7 (as far as step 7 does not depend on the card), that fails first. -/
def CmdSpec.check (c : CmdSpec) (p : Packet) (s : State) : Option (Nat × Nat) :=
  if p.urgent ≠ p.ring1 ∨ c.maxLen < c.minLen then some (stsBadParam, 0)
  else if p.ring1 ∧ ¬ c.ring1 then some (stsDenied, 1)
  else if c.auth ∧ ¬ p.auth then some (stsDenied, 3)
  else if p.auth ∧ ¬ s.tagOk c.opcode p then some (stsAuthFail, 0)
  else if ¬ c.allows s.leaving then some (stsDenied, 2)
  else if s.on F.PWR_STATE_TRANS ∧ c.opcode ≠ 0x600 ∧ ¬ c.allows (s.rd F.PWR_STATE_TARGET) then some (stsDenied, 2)
  else if p.payload.length < c.minLen ∨ c.maxLen < p.payload.length then some (stsBadParam, 0)
  else if p.force ∧ ¬ c.force then some (stsBadParam, 0)
  else none

/-- What a refusal by these checks counts of authentication: a wrong tag is one failure; a tag that step 5 has verified clears CONSEC;
checks after a failed one are not made (R169; spec/16_security.md, R722). -/
def State.authResult (s : State) (c : CmdSpec) (p : Packet) (status : Nat) : State :=
  if status = stsAuthFail then s.authFailed else if p.auth ∧ c.early p = none then s.authPassed else s

/-- Whether Papol can take a packet of this ring now: it runs, the ring is in use, no reply is held back (R159), and ring 1
holds no packet before one of ring 0 (R167). -/
def State.papolReady (s : State) (ring1 : Bool) : Bool :=
  s.pap.run = .running && s.ringOn (if ring1 then 1 else 0) && s.pap.held.isEmpty && (ring1 || !s.hasPacket 1)

/-- The state with words placed by the host behind ring `n`'s HIDX, and HIDX past them (R158). -/
def State.placeRing (s : State) (n : Nat) (ws : List Word) : State :=
  (s.putRing n (s.hidx n) ws).wr (F.DSP_RING_HIDX_HIDX n) (s.hidx n + ws.length)

/-- The packet stands complete at the front of its ring: there already, or placed by the host in the empty ring of a live
link. `none` where it can stand there in neither way (log entry 7). -/
def State.deliver (s : State) (opcode : Nat) (p : Packet) : Option State :=
  let ws := p.words opcode
  if s.occupancy p.ring = 0 then
    if s.linkAlive ∧ s.ringOn p.ring ∧ ws.length ≤ s.ringLen p.ring then some (s.placeRing p.ring ws) else none
  else if ws.length ≤ s.occupancy p.ring ∧ s.ringWords p.ring (s.didx p.ring) ws.length = ws then some s
  else none

/-- What a command does once its reply is written; a reply that is held back holds it back too (R159, R194). -/
def State.afterReply (s : State) (opcode : Nat) (after : State → State) : State :=
  if s.pap.held.isEmpty then after s else { s with pap := { s.pap with afterDue := some opcode } }

/-- What a body's result leaves: the reply, the journal, the pending list, the clamp events, CFGGEN; `after` is what the
command does once its reply is written. -/
def State.settle (s : State) (c : CmdSpec) (p : Packet) (r : Res) (after : State → State) : State :=
  match r with
  | .refuse st d => s.answer c.opcode p p.auth true st d false []
  | .done st d ws cl s1 =>
    let s2 := (s1.answer c.opcode p p.auth true st d (decide (c.opcode = 0x002 ∧ 16 < bits (pw ws 0) 0 16)) ws).countCfg c.cfg st
    after (s2.raiseClamps c.opcode cl)
  | .pend ws ts s1 =>
    match s1.freeSlot? with
    | none => s.answer c.opcode p p.auth true stsNoResource 0 false []
    | some k =>
      let s2 := { s1 with pap := { s1.pap with
        slots := insertPend ⟨k, c.opcode, p.ring1, p.cseq, p.payload, ts, c.cfg, none⟩ s1.pap.slots } }
      after (s2.answer c.opcode p p.auth true stsPending k false ws)

/-- A packet that has left its ring is judged and, where every check passes, executed (R169, R171, R173). -/
def State.judge (s : State) (c : CmdSpec) (p : Packet) (body : State → Res) (after : State → State) : State :=
  if crc32c (p.covered c.opcode) ≠ p.crc then s.answer c.opcode p false false stsCrcFail 0 false []
  else
    let s1 := s.takeEack p.eack
    if p.cseq ≠ s1.expected p.ring1 then s1.answerSeq c.opcode p
    else
      let s2 := s1.advance p.ring1
      match c.check p s2 with
      | some (st, d) =>
        (s2.authResult c p st).answer c.opcode p p.auth true st d false []
      | none =>
        let s3 := if p.auth then s2.authPassed else s2
        s3.settle c p (body s3) after

/-- The opcodes of R192. -/
def opcodes : List Nat :=
  [0x000, 0x001, 0x002, 0x003, 0x004, 0x005, 0x006, 0x100, 0x101, 0x102, 0x110, 0x111, 0x120, 0x121, 0x122, 0x123,
   0x130, 0x200, 0x201, 0x202, 0x203, 0x204, 0x210, 0x211] ++
  [0x300, 0x301, 0x302, 0x303, 0x304, 0x305, 0x310, 0x320, 0x321, 0x330, 0x331, 0x400, 0x401, 0x402, 0x403, 0x410,
   0x411, 0x412, 0x413] ++
  [0x500, 0x501, 0x502, 0x510, 0x511, 0x520, 0x600, 0x601, 0x602, 0x603, 0x604, 0x700, 0x701, 0x702, 0x703, 0x704] ++
  [0x800, 0x801, 0x802, 0x803, 0x804, 0x805, 0x806, 0x807, 0x900, 0x901, 0x902, 0x903, 0x904, 0xA00, 0xA01, 0xA02,
   0xA03, 0xA04]

/-- The packet at the front of ring `n`, which holds a complete one. -/
def State.frontPacket (s : State) (n : Nat) : Packet :=
  let ws := s.ringWords n (s.didx n) (s.frontLen n)
  let len := bits (pw ws 0) 0 16
  let auth := bit (pw ws 0) 19
  { ring1 := n = 1, auth := auth, noreply := bit (pw ws 0) 18, urgent := bit (pw ws 0) 17, force := bit (pw ws 0) 16,
    cseq := (pw ws 1).extractLsb' 16 16, eack := (pw ws 1).extractLsb' 0 16, payload := (ws.drop 2).take len,
    tag := if auth then (ws.drop (2 + len)).take 8 else [], crc := pw ws (s.frontLen n - 1) }

end Sys2Proof.Machine
end

