-- ==== Sys2Proof/Machine/Faults.lean ====
section
/-!
DEFINITION. Fault records and FAULT_N (spec/15_safety.md, R679, R688 to R693), the error collectors
(spec/01_architecture.md, R24, R28), and the power of the domains (spec/14_power_states.md, R642 to R646).
-/

namespace Sys2Proof.Machine

/-! Regions (spec/15_safety.md, R691). -/

def rgCtl : Nat := 0
def rgDsp : Nat := 1
def rgIn : Nat := 2
def rgOut : Nat := 3
def rgSafe : Nat := 4

/-- A field of a region's error collector register (spec/01_architecture.md, R33). -/
def errField (region lo width : Nat) : Field := ⟨0x0FFF00 + 0x100000 * region, lo, width⟩
def errLevel (region : Nat) : Field := errField region 0 3
def errPoison (region : Nat) : Field := errField region 5 1
def errChipEsc (region : Nat) : Field := errField region 6 1
def errOverrun (region : Nat) : Field := errField region 7 1
def errRep (region : Nat) : Field := errField region 16 8
def errEsc (region : Nat) : Field := errField region 24 8

/-- Whether the chip is in safe state M or O (spec/15_safety.md, R673). -/
def State.chipSafe (s : State) : Bool := s.rd F.SAFE_SM_STAT_CSS ≠ 0

/-- The region's LEVEL, which a chip safe state holds at 0x4 (spec/01_architecture.md, R28). -/
def State.level (s : State) (region lvl : Nat) : State := if s.chipSafe then s else s.wr (errLevel region) lvl

/-- The highest level of the faults at work in a region. -/
def State.workLevel (s : State) (region : Nat) : Nat :=
  s.saf.work.foldl (fun m w => if w.region = region then max m w.level else m) 0

/-- Whether an entry is the work on this fault at this place. -/
def Work.isFor (w : Work) (region code sub unit : Nat) : Bool :=
  decide (w.region = region ∧ w.code = code ∧ w.sub = sub ∧ w.unit = unit)

/-- The place of a fault in its region's order of block kinds, lower units first (spec/01_architecture.md, R27). -/
def Work.rank (w : Work) : Nat :=
  let kind :=
    if w.code = 0x207 then 0
    else if w.code = 0x205 ∨ w.code = 0x206 then 2
    else if w.code / 256 = 0xA then 1 + w.unit
    else if w.region = rgDsp then 1
    else 0
  kind * 2 ^ 20 + w.unit * 2 ^ 10 + w.sub

/-- The work of the regions in order of t0, the order of block kinds deciding between equal ones (spec/01_architecture.md, R27). -/
def insertWork (w : Work) : List Work → List Work
  | [] => [w]
  | v :: rest => if v.t0 = w.t0 ∧ v.region = w.region ∧ w.rank < v.rank then w :: v :: rest else v :: insertWork w rest

/-- A handler takes a fault to work; LEVEL shows the highest level at work (spec/01_architecture.md, R24, R28). -/
def State.takesUp (s : State) (w : Work) : State :=
  if s.chipSafe then s
  else
    let s1 := { s with saf := { s.saf with
      work := insertWork w (s.saf.work.filter fun v => !v.isFor w.region w.code w.sub w.unit) } }
    s1.level w.region (s1.workLevel w.region)

/-- A handler takes up a fault detected now. -/
def State.begins (s : State) (region code sub unit level : Nat) : State :=
  s.takesUp ⟨region, code, sub, unit, level, s.now, false, false, 0⟩

/-- What the fault's deadline asks for is done; the handler still works on it (spec/01_architecture.md, R23). -/
def State.meets (s : State) (region code sub unit : Nat) : State :=
  let f := fun (w : Work) => if w.isFor region code sub unit then { w with met := true, wait := false } else w
  { s with saf := { s.saf with work := s.saf.work.map f } }

/-- A handler has done with a fault (spec/01_architecture.md, R24). -/
def State.ends (s : State) (region code sub unit : Nat) : State :=
  let s1 := { s with saf := { s.saf with work := s.saf.work.filter (fun w => !w.isFor region code sub unit) } }
  s1.level region (s1.workLevel region)

/-- The restarts that a chip safe state lets end: of the supervisor and of the safety monitor (log entry 68). -/
def Work.restarts (w : Work) : Bool := (w.region = rgCtl && w.code ≤ 2) || (w.region = rgSafe && w.code = 0x703)

/-- Whether a region handler is busy with a fault whose deadline target it has not met (spec/01_architecture.md, R27). -/
def State.handling (s : State) (region : Nat) : Bool :=
  s.saf.work.any fun w => w.region = region && w.level = 3 && !w.met && !w.wait

/-- REPCNT advances, outside a chip safe state (spec/01_architecture.md, R24, R28). -/
def State.repCount (s : State) (region : Nat) : State := if s.chipSafe then s else s.sat (errRep region) 1

/-- A fault is repaired below chip level: REPCNT advances and its handler has done (spec/01_architecture.md, R24). -/
def State.repaired (s : State) (region code sub unit : Nat) : State := (s.repCount region).ends region code sub unit

/-- A fault leaves its region for chip level: ESCCNT and CHIPESC (spec/01_architecture.md, R24, R28). -/
def State.escalated (s : State) (region : Nat) : State :=
  if s.chipSafe then s else (s.sat (errEsc region) 1).set1 (errChipEsc region)

/-- Whether a DF class is in FNMASK (spec/15_safety.md, R679). -/
def State.fnMasked (s : State) (df : Nat) : Bool := 1 ≤ df && df ≤ 4 && inMask (s.rd F.SAFE_SM_CFG_FNMASK) (df - 1)

/-- SMLOCK, SMWDOG, FNPIN and SAFEOSC, which drive FAULT_N low of themselves (spec/15_safety.md, R679). -/
def fnCode (code : Nat) : Bool := decide (0x703 ≤ code ∧ code ≤ 0x706)

/-- Whether a record is ACTIVE or LATCHED. -/
def FaultRec.live (r : FaultRec) : Bool := r.active || r.latched

/-- Whether FAULT_N is to be driven low (spec/15_safety.md, R677, R679, R680, R694; spec/16_security.md, R729): a live record of a
masked class, a chip safe state, the monitor not running, the release latch fallen, the test pulse, or EXTEST. -/
def State.fnDemand (s : State) : Bool :=
  s.saf.recs.any (fun r => r.live && s.fnMasked r.df) || s.chipSafe || !s.on F.SAFE_SM_STAT_SMOK
    || !s.saf.latch || s.saf.pulse || s.sec.extest

/-- FAULT_N and the record counts follow the records and the safe state (spec/15_safety.md, R679, R694). -/
def State.showFn (s : State) : State :=
  ((s.wr F.SAFE_FN_STAT_DRIVE (b2n s.fnDemand)).wr F.SAFE_SM_STAT_FN (b2n s.fnDemand)).wr F.SAFE_SM_STAT_ACTCNT
    (s.saf.recs.filter FaultRec.live).length

/-- What a fault is recorded as (spec/15_safety.md, R688, R691). `active` says whether its cause persists. -/
structure FaultInfo where
  code   : Nat
  df     : Nat
  region : Nat
  level  : Nat
  sub    : Nat
  unit   : Nat
  detail : Nat
  inj    : Bool
  active : Bool

/-- Words 0, 1 and 4 of a record (spec/15_safety.md, R691). -/
def FaultRec.word0 (r : FaultRec) : Nat :=
  r.code * 2 ^ 16 + r.df * 2 ^ 12 + r.level * 2 ^ 8 + b2n r.active * 2 ^ 7 + b2n r.latched * 2 ^ 6 + b2n r.inj * 2 ^ 5
    + b2n r.fn * 2 ^ 4 + r.region
def FaultRec.word1 (r : FaultRec) : Nat := r.sub * 2 ^ 16 + r.unit
def FaultRec.word4 (r : FaultRec) : Nat := r.occur * 2 ^ 16 + r.recno

/-- The eight words of a record, the last its CRC (spec/15_safety.md, R691). -/
def FaultRec.words (r : FaultRec) : List Word :=
  let ws := [w32 r.word0, w32 r.word1, r.time.extractLsb' 0 32, r.time.extractLsb' 32 32, w32 r.word4, r.detail, r.react]
  ws ++ [crc32c ws]

/-- The record number after `n`, skipping 0 (spec/15_safety.md, R689). -/
def nextRecno (n : Nat) : Nat := if (n + 1) % 2 ^ 16 = 0 then 1 else (n + 1) % 2 ^ 16

/-- Removes the first record that satisfies `p`. -/
def dropFirst (p : FaultRec → Bool) : List FaultRec → List FaultRec
  | [] => []
  | r :: rest => if p r then rest else r :: dropFirst p rest

/-- Room for one more of 32 records: the oldest that is neither ACTIVE nor LATCHED leaves, failing that the oldest, which
sets RECLOST (spec/15_safety.md, R689). -/
def State.recRoom (s : State) : State :=
  if s.saf.recs.length < 32 then s
  else if s.saf.recs.any (fun r => !r.live) then
    { s with saf := { s.saf with recs := dropFirst (fun r => !r.live) s.saf.recs } }
  else { s with saf := { s.saf with recs := s.saf.recs.drop 1 } }.set1 F.SAFE_SM_STAT_RECLOST

/-- The live record of a fault at a location (spec/15_safety.md, R690). -/
def State.liveRec? (s : State) (code sub unit : Nat) : Option FaultRec :=
  s.saf.recs.find? fun r => r.code = code && r.sub = sub && r.unit = unit && r.live

/-- One fault is recorded: an advance of OCCUR in the live record of the same code and location, or a new record with one
EVT_FAULT (spec/15_safety.md, R689, R690, R692); FAULT_N follows (R679). -/
def State.fault (s : State) (f : FaultInfo) : State :=
  match s.liveRec? f.code f.sub f.unit with
  | some r =>
    { s with saf := { s.saf with recs := s.saf.recs.map fun (q : FaultRec) =>
        if q.recno = r.recno then { q with occur := min (q.occur + 1) 0xFFFF, active := q.active || f.active } else q } }.showFn
  | none =>
    let r : FaultRec :=
      { code := f.code, df := f.df, level := f.level, active := f.active, latched := true, inj := f.inj,
        fn := s.fnMasked f.df || fnCode f.code, region := f.region, sub := f.sub, unit := f.unit, time := BitVec.ofNat 64 s.now,
        occur := 1, recno := s.saf.next, detail := w32 f.detail, react := s.free }
    let s1 := s.drawn.recRoom
    let s2 := ({ s1 with saf := { s1.saf with recs := s1.saf.recs ++ [r], next := nextRecno r.recno } }.wr
      F.SAFE_SM_STAT_LASTREC r.recno).showFn
    s2.raiseR evFault [w32 ({ r with active := false, latched := false, inj := false, fn := false }).word0, w32 r.word1,
      r.detail, w32 r.word4] (f.df ≠ 0)

/-- The cause of a fault has gone: its live records are no longer ACTIVE (spec/15_safety.md, R691). -/
def State.faultGone (s : State) (code sub unit : Nat) : State :=
  { s with saf := { s.saf with recs := s.saf.recs.map fun (q : FaultRec) =>
      if q.code = code ∧ q.sub = sub ∧ q.unit = unit then { q with active := false } else q } }.showFn

/-- The record number of the newest record of a code and unit; 0 with none. -/
def State.recnoOf (s : State) (code unit : Nat) : Nat :=
  match s.saf.recs.reverse.find? (fun r => r.code = code && r.unit = unit) with
  | some r => r.recno
  | none => 0

/-- EVT_SAFE_STATE (spec/15_safety.md, R693): KIND 1 entered, 2 left; SCOPE 0 block, 1 region, 2 chip. -/
def State.raiseSafe (s : State) (kind scope mode region recno code unit : Nat) : State :=
  s.raiseR evSafeState
    [w32 (kind * 2 ^ 28 + scope * 2 ^ 24 + mode * 2 ^ 20 + region * 2 ^ 16 + recno), w32 (code * 2 ^ 16 + unit)] true

/-- Whether a register stands in its CFGPAR safe state, and whether it still waits for its rewrite there (spec/03_register_access.md,
R134, R135). -/
def State.cfgHit (s : State) (a : Nat) : Bool := s.link.cfgpar.any fun e => e.1 = a
def State.cfgBad (s : State) (a : Nat) : Bool := s.cfgHit a && s.link.badParity.contains a

/-- The blocks of these registers, where their rewrite has landed, take up their function again (spec/03_register_access.md, R135). -/
def State.cfgLeave (s : State) (sel : Nat → Bool) : State :=
  (s.link.cfgpar.filter (fun (e : Nat × Nat) => sel e.1 && !s.link.badParity.contains e.1)).foldl (fun (s : State) (e : Nat × Nat) =>
    ({ s with link := { s.link with cfgpar := s.link.cfgpar.filter (fun (f : Nat × Nat) => f.1 ≠ e.1) } }).raiseSafe 2 0 0
      (e.1 / 0x100000 % 8) e.2 0x701 0) s

/-- Whether a command of its own re-enables the block of a register after its rewrite: speaker channels and groups, SWPLL, TDM ports
(spec/03_register_access.md, R135); any other block is re-enabled by the rewrite. -/
def reenabled (a : Nat) : Bool :=
  decide (0x300000 ≤ a ∧ a < 0x301300) || decide (0x303000 ≤ a ∧ a < 0x304000) || decide (0x200000 ≤ a ∧ a < 0x200200)

/-- A register's hidden parity fits again after a software write of its fields. The CFGPAR record is no longer ACTIVE once no
register waits for its rewrite (spec/03_register_access.md, R131, R135; spec/15_safety.md, R690). -/
def State.fits (s : State) (a : Nat) : State :=
  let s1 := { s with link := { s.link with badParity := s.link.badParity.filter (· ≠ a) } }
  if s.link.badParity.contains a then
    let s2 := if s1.link.badParity = [] then s1.faultGone 0x701 0 0 else s1
    if s.cfgHit a ∧ reenabled a = false then s2.cfgLeave (· = a) else s2
  else s1

/-- A command writes a register whole; its parity fits (spec/03_register_access.md, R131). -/
def State.putReg (s : State) (a : Nat) (w : Word) : State := (s.setReg a w).fits a

/-! Host-link errors (spec/03_register_access.md, R150). -/

def errFrame : Nat := 0
def errPartial : Nat := 1
def errAbort : Nat := 2
def errAlign : Nat := 3
def errUnmap : Nat := 4
def errGated : Nat := 5
def errNopwr : Nat := 6
def errPwcol : Nat := 7
def errLocked : Nat := 8
def errFused : Nat := 9
def errBadkey : Nat := 10

/-- An error condition: HOST_ERR records those of the host link, and its first bit latches HOST_ERRADDR (R150). -/
def State.hostErr (s : State) (i : Iface) (cause a : Nat) : State :=
  if i = .debug then s
  else
    let s1 := if s.reg Reg.HOST_ERR = 0 then s.setReg Reg.HOST_ERRADDR (w32 (cause * 2 ^ 24 + if cause = errFrame then 0 else a)) else s
    s1.set1 ⟨Reg.HOST_ERR, cause, 1⟩

/-- Whether a pad group is held (spec/14_power_states.md, R640): 0 PDM, 1 TDMA, 2 TDMB, 3 SPDIF_TX, 4 SYNC_OUT,
5 flash, 6 REG, 7 FAULT_N and TDO. -/
def State.padHeld (s : State) (g : Nat) : Bool := inMask (s.rd F.PWR_GECKO_HELD) g

/-- A held pad group is released (R641). -/
def State.releasePads (s : State) (g : Nat) : State := s.clr ⟨Reg.PWR_GECKO, g, 1⟩

/-! Power domains (spec/14_power_states.md, R642). -/

def dmEngine (n : Nat) : Nat := 0x10 + n
def dmAsrc : Nat := 0x18
def dmTdm (n : Nat) : Nat := 0x19 + n
def dmSpdRx : Nat := 0x1B
def dmSpdTx : Nat := 0x1C
def dmAadc (n : Nat) : Nat := 0x1D + n
def dmPdm : Nat := 0x21
def dmWkd : Nat := 0x22
def dmTad : Nat := 0x23
def dmHpLine : Nat := 0x24
def dmCv : Nat := 0x25
def dmGroup (g : Nat) : Nat := 0x26 + g
def dmFlash : Nat := 0x29

/-- The ON bit of a non-bank domain. -/
def domBit (d : Nat) : Field := ⟨Reg.PWR_DOMSTAT, d - 0x10, 1⟩

/-- Whether a domain is powered: for a bank, PWR is ON (0); otherwise its bit of PWR_DOMSTAT. -/
def State.domOn (s : State) (d : Nat) : Bool :=
  if d < 0x10 then s.rd (F.DSP_SB_STAT_PWR d) = 0 else s.on (domBit d)

/-- Whether LISTEN has the domain available (spec/14_power_states.md, R642, R644). -/
def domInListen (d : Nat) : Bool := (0x1D ≤ d && d ≤ 0x23) || d = 0x25

/-- Whether a first access may power the domain up (spec/14_power_states.md, R643, R644). -/
def State.permitted (s : State) (d : Nat) : Bool :=
  inMask (s.rd F.PWR_PERMIT_MASK) (d - 0x10) && (s.pstate ≠ stListen || domInListen d)

/-- The domain is up: its bit reads 1, and a change that waited for this is no longer under way. -/
def State.domUp (s : State) (d : Nat) : State := s.set1 (domBit d)

/-- A command or internal use that needs the domain: it proceeds once the domain is up, after any power-down under way, or
is denied where the domain is off and may not be powered up (spec/14_power_states.md, R643, R647). -/
def State.need (s : State) (d : Nat) : Option State :=
  if s.domOn d ∧ ¬ s.pwr.changes.any (fun c => c.domain = d && !c.up) then some s
  else if s.permitted d then
    let s1 := s.finishAll (fun e => e.opcode = 0x603 && e.targets.contains (.domain d)) stsOk 0
    some ({ s1 with pwr := { s1.pwr with changes := s1.pwr.changes.filter (fun c => c.domain ≠ d || c.up) } }.domUp d)
  else none

/-- Every domain of a list is needed. -/
def State.needAll (s : State) : List Nat → Option State
  | [] => some s
  | d :: ds =>
    match s.need d with
    | some s1 => s1.needAll ds
    | none => none

/-- A command whose work needs domains (spec/14_power_states.md, R643): ST_DENIED with DETAIL 0x2 where one may not power
up. -/
def State.withDomains (s : State) (ds : List Nat) (k : State → Res) : Res :=
  match s.needAll ds with
  | some s1 => k s1
  | none => .refuse stsDenied 2

end Sys2Proof.Machine
end

