-- ==== Sys2Proof/Machine/BankCore.lean ====
section
/-!
DEFINITION. Shared banks: addresses, ECC errors, spare rows (spec/07_shared_banks.md, R317, R318, R329 to R331, R351 to R358).
-/

namespace Sys2Proof.Machine

/-- The window address of a bank's word (R317). -/
def bankAddr (bank row col : Nat) : Nat := 0x800000 + bank * 0x20000 + row * 0x100 + col * 4

/-- The bank, row and column of a window address (R317). -/
def bankOf (a : Nat) : Nat := (a - 0x800000) / 0x20000
def rowOf (a : Nat) : Nat := (a - 0x800000) % 0x20000 / 0x100
def colOf (a : Nat) : Nat := (a - 0x800000) % 0x100 / 4

/-- Whether a bank is ON (R335). -/
def State.bankOn (s : State) (b : Nat) : Bool := s.rd (F.DSP_SB_STAT_PWR b) = 0

/-- Whether a row of a bank is borrowed by the march engine (R343). -/
def State.borrowed (s : State) (b row : Nat) : Bool :=
  s.on (F.DSP_SB_STAT_BORROW b) && s.rd (F.DSP_SB_STAT_BROW b) = row

/-- EVT_REPAIR for a bank (R355). -/
def State.raiseBankRepair (s : State) (kind bank spare cause row col bit : Nat) : State :=
  s.raise evRepair
    [w32 (kind * 2 ^ 28 + bank * 2 ^ 24 + spare * 2 ^ 20 + cause * 2 ^ 18 + row), w32 (col * 2 ^ 8 + bit)]

/-- The spare rows of a bank that are free: sound, and standing for no row (R318, R342). -/
def State.freeSpares (s : State) (b : Nat) : List Nat :=
  indices 8 fun k => !s.banks.failed.contains (b, k) && !(s.banks.spares.any fun (e : Nat × Nat × Nat) => e.1 = b && e.2.2 = k)

/-- The lowest free spare row of a bank (R346, R352); 0xF none. -/
def State.spareRow (s : State) (b : Nat) : Nat := ((s.freeSpares b).head?).getD 0xF

/-- Whether a spare row is left once every replacement of the bank that waits has its own. -/
def State.spareLeft (s : State) (b : Nat) : Bool :=
  decide ((s.banks.repls.filter (fun r => r.bank = b)).length < (s.freeSpares b).length)

/-- The lowest free spare row takes the place of a row (R352, R346); a spare row that stood for it has failed. -/
def State.useSpare (s : State) (b row : Nat) : State :=
  let k := s.spareRow b
  let here := fun (e : Nat × Nat × Nat) => decide (e.1 = b ∧ e.2.1 = row)
  let used := s.banks.spares.filter (fun e => !here e) ++ [(b, row, k)]
  ({ s with banks := { s.banks with
      spares := used
      failed := s.banks.failed ++ (s.banks.spares.filter here).map fun (e : Nat × Nat × Nat) => (b, e.2.2)
      corr := s.banks.corr.filter fun e => !here e } }).wr (F.DSP_SB_STAT_SPUSED b)
    (used.filter fun (e : Nat × Nat × Nat) => e.1 = b).length

/-- A bank with no free spare row takes RETPEND (R356); SB0 raises fault BANKRET (R358). The fault behind it is contained at region
level (spec/01_architecture.md, R24). -/
def State.retpend (s : State) (b cause row col bit : Nat) : State :=
  let s1 := ((s.set1 (F.DSP_SB_STAT_RETPEND b)).raiseBankRepair 5 b 0xF cause row col bit).ends rgDsp 0x205 row b
  if b = 0 then
    (s1.fault { code := 0x206, df := 0, region := rgDsp, level := 3, sub := row, unit := 0, detail := 0, inj := false,
                active := true }).escalated rgDsp
  else s1

/-- A row needs replacement (R351 to R353, R356): queued while a spare row is left, otherwise the bank is to be retired. A
row already being replaced is left to that; a borrowed row waits for its Release (R353). -/
def State.replaceRow (s : State) (r : RowRepl) : State :=
  if s.banks.repls.any (fun q => q.bank = r.bank && q.row = r.row) then s
  else if s.spareLeft r.bank then { s with banks := { s.banks with repls := s.banks.repls ++ [r] } }
  else s.retpend r.bank r.cause r.row r.col r.bit

/-- A correctable error is read and corrected (R330); a second bit position in one row has it replaced (R351). -/
def State.bankCor (s : State) (b row col bit : Nat) : State :=
  let s1 := ((s.sat (F.DSP_SB_ECC_CORCNT b) 1).set1 (F.DSP_SB_STAT_COR b)).setReg (Reg.DSP_SB_LASTERR b)
    (w32 (bit * 2 ^ 24 + row * 2 ^ 6 + col))
  let s2 := if s1.banks.corr.contains (b, row, bit) then s1
    else { s1 with banks := { s1.banks with corr := s1.banks.corr ++ [(b, row, bit)] } }
  if 2 ≤ (s2.banks.corr.filter (fun (e : Nat × Nat × Nat) => e.1 = b ∧ e.2.1 = row)).length then
    s2.replaceRow ⟨b, row, 0, col, bit⟩
  else s2

/-- The DSP region deals with an uncorrectable word once (R331, R351): later reads of the poison it keeps begin no further replacement
(log entry 94). In a chip safe state no handler acts (spec/01_architecture.md, R28). -/
def State.dealUnc (s : State) (b row col : Nat) : State :=
  let a := bankAddr b row col
  if s.chipSafe ∨ s.banks.dealt.contains a then s
  else
    let s1 := { s with banks := { s.banks with dealt := s.banks.dealt ++ [a] } }
    let s2 := s1.takesUp ⟨rgDsp, 0x205, row, b, 3, s1.now, false, s1.handling rgDsp, 0⟩
    s2.replaceRow ⟨b, row, 1, col, 0x3F⟩

/-- An uncorrectable error is read: the word is poisoned until a full write lands on it, the error is counted, and the
fault goes to the DSP region (R331; spec/01_architecture.md, R19). -/
def State.bankUnc (s : State) (b row col : Nat) : State :=
  let a := bankAddr b row col
  let s1 := if s.poison.contains a then s
    else { s with poison := s.poison ++ [a], banks := { s.banks with dealt := s.banks.dealt.filter (· ≠ a) } }
  let s2 := ((s1.sat (F.DSP_SB_ECC_UNCCNT b) 1).set1 (F.DSP_SB_STAT_UNC b)).setReg (Reg.DSP_SB_LASTERR b)
    (w32 (2 ^ 31 + 0x7F * 2 ^ 24 + row * 2 ^ 6 + col))
  let open? := !s2.banks.dealt.contains a || s2.on (F.DSP_SB_STAT_RETPEND b)
    || s2.banks.repls.any fun q => q.bank = b && q.row = row
  (s2.fault { code := 0x205, df := 0, region := rgDsp, level := 3, sub := row, unit := b, detail := 0, inj := false,
              active := open? }).dealUnc b row col

/-- A poisoned word is delivered from the DSP region: the collector records it (spec/01_architecture.md, R19, R20), and the
error counts as read again (R331). -/
def State.deliverPoison (s : State) (a : Nat) : State :=
  (s.bankUnc (bankOf a) (rowOf a) (colOf a)).set1 (errPoison rgDsp)

/-- Whether a span of the shared-bank space lies in ON banks (spec/06_engines_leap.md, R271). -/
def State.spanOn (s : State) (ofs len : Nat) : Bool :=
  decide (0 < len) && decide (ofs + len ≤ 0x200000)
    && (List.range 16).all fun b => decide (ofs + len ≤ b * 0x20000 ∨ (b + 1) * 0x20000 ≤ ofs) || s.bankOn b

/-- The poisoned words of a span of the shared-bank space. -/
def State.poisonIn (s : State) (ofs len : Nat) : List Nat :=
  s.poison.filter fun a => decide (0x800000 + ofs ≤ a + 3) && decide (a < 0x800000 + ofs + len)

end Sys2Proof.Machine
end

