-- ==== Sys2Proof/Machine/Take.lean ====
section
/-!
DEFINITION. How Papol takes the packet at the front of a command ring (spec/04_command_protocol.md, R158, R159, R167, R168,
R798): the entry of every command card.
-/

namespace Sys2Proof.Machine

/-- Ring `n` is discarded: DIDX becomes HIDX, and one reply with RESYNC is written (R168, R798). -/
def State.resync (s : State) (n opcode : Nat) (cseq : BitVec 16) : State :=
  (s.wr (F.DSP_RING_DIDX_DIDX n) (s.hidx n)).emit
    ⟨replyHead opcode (n = 1) false false true cseq stsCrcFail 0 0 [], false, false, false, n = 1, cseq⟩

/-- Whether one of `k` words of ring `n` from index `i` is poisoned (spec/01_architecture.md, R19). -/
def State.ringPoisoned (s : State) (n i k : Nat) : Bool :=
  (List.range k).any fun j => s.poison.contains (s.ringAddr n (i + j))

/-- The poisoned words among `k` words of a ring from index `i` are delivered: each is a bank fault (R798;
spec/07_shared_banks.md, R331). -/
def State.readPoison (s : State) (n i k : Nat) : State :=
  forEach (fun j s =>
    if s.poison.contains (s.ringAddr n (i + j)) then s.deliverPoison (s.ringAddr n (i + j)) else s) k s

/-- Papol takes the `k`-word packet at the front of ring `n`, which it hands to `judge`; a poisoned word discards the ring
instead (R798). -/
def State.consume (s : State) (n k opcode : Nat) (cseq : BitVec 16) (judge : State → State) : State :=
  if s.ringPoisoned n (s.didx n) k then
    let hdr := s.ringPoisoned n (s.didx n) 2
    (s.readPoison n (s.didx n) k).resync n (if hdr then 0 else opcode) (if hdr then 0 else cseq)
  else judge (s.wr (F.DSP_RING_DIDX_DIDX n) (s.didx n + k))

/-- A packet with an opcode outside R192 at the front of ring `n` is taken and answered (R192); any other packet stays. -/
def State.takeUnknown (s : State) (n : Nat) : State :=
  let w0 := s.word (s.ringAddr n (s.didx n))
  if s.papolReady (n = 1) ∧ s.hasPacket n ∧ bits w0 0 16 ≤ 4096 ∧ opcodes.contains (bits w0 20 12) = false then
    let p := s.frontPacket n
    s.consume n (s.frontLen n) (bits w0 20 12) p.cseq fun s =>
      s.judge ⟨bits w0 20 12, 1, 0, true, true, true, true, false, false, false⟩ p (fun _ => .refuse stsBadParam 0) id
  else s

/-- A command packet comes to the front of its ring and is handed to `judge` if Papol can take it (R158, R159, R167). A
packet of a ring that waits stays where it stands; one that names LEN above 4096 discards its ring (R168). SYS runs for it (R161). -/
def State.takeWith (s : State) (opcode : Nat) (p : Packet) (judge : State → State) : State :=
  let s0 := (if 8 ≤ s.rd F.CTL_SEC_CNT_CONSEC then s.startLockout else s).takeUnknown p.ring
  match s0.deliver opcode p with
  | none => s0
  | some s1 =>
    if s0.papolReady p.ring1 = false then s1.sysRun
    else if 4096 < p.payload.length then s1.sysRun.resync p.ring opcode p.cseq
    else s1.sysRun.consume p.ring (p.words opcode).length opcode p.cseq judge

/-- A command packet is taken and judged under its card. -/
def State.take (s : State) (c : CmdSpec) (p : Packet) (body : State → Res) (after : State → State) : State :=
  s.takeWith c.opcode p fun s => s.judge c p body after

/-- A command card: an opcode of R192 without FORCE and without steps after its reply. -/
def State.card (s : State) (c : CmdSpec) (p : Packet) (body : State → Res) : Host.Outcome State Fault Refusal :=
  .next (s.take c p body id)

end Sys2Proof.Machine
end

