-- ==== Sys2Proof/Machine/StreamCore.lean ====
section
/-!
DEFINITION. Streams as the fabric holds them (spec/05_streams_ports.md): rates and clocks of the ends (R203, R206, R207),
formats (R212, R227), state changes and their events (R217, R223), claims (R205, R218), the abort and the close of a stream.
-/

namespace Sys2Proof.Machine

/-! Tags (R195). -/

def tgValid : Nat := 0
def tgClip : Nat := 1
def tgDisc : Nat := 2
def tgFill : Nat := 3
def tgProv : Nat := 4
def tgTadp : Nat := 5
def tgSrcInv : Nat := 6

end Sys2Proof.Machine

namespace Sys2Proof

/-- Whether a tag bit is set. -/
def Sample.is (x : Sample) (b : Nat) : Bool := x.tag.getLsbD b

/-- The sample with a tag bit set or cleared. -/
def Sample.put (x : Sample) (b : Nat) (v : Bool) : Sample :=
  { x with tag := if v then x.tag ||| BitVec.twoPow 8 b else x.tag &&& ~~~ BitVec.twoPow 8 b }

/-- A sample inserted by the device: value 0, FILL set, VALID clear (spec/05_streams_ports.md, R202). -/
def fillSample : Sample := ⟨0, 0x08⟩

/-- A sample with VALID clear and no other tag. -/
def invalidSample : Sample := ⟨0, 0x00⟩

end Sys2Proof

namespace Sys2Proof.Machine

/-! Rates. -/

/-- The rate of a rate code in Hz; 0 for a code that is not used (IN_TDMx_CLK.FS). -/
def rateHz (code : Nat) : Nat :=
  [8000, 11025, 12000, 16000, 22050, 24000, 32000, 44100, 48000, 88200, 96000, 176400, 192000].getD code 0

/-- The code of the rate that a measured rate lies within `tol` per thousand of; 0xF with none. -/
def rateCode (hz tol : Nat) : Nat :=
  match (List.range 13).find? (fun c => decide (rateHz c * (1000 - tol) ≤ hz * 1000 ∧ hz * 1000 ≤ rateHz c * (1000 + tol))) with
  | some c => c
  | none => 0xF

/-- Whether a rate belongs to the AUDPLL family in use (R229): AUDFAM 0 the 48 kHz family, 1 the 44.1 kHz family. -/
def State.inFamily (s : State) (hz : Nat) : Bool :=
  hz ≠ 0 && (if s.rd F.CTL_CLK_STAT_AUDFAM = 0 then decide (192000 % hz = 0) else decide (176400 % hz = 0))

/-- The graph rate Fg in Hz (spec/06_engines_leap.md, R270, R802). -/
def State.fg (s : State) : Nat :=
  match s.graph.image with
  | some _ => [48000, 96000, 44100, 88200].getD (s.rd F.DSP_GRAPH_STAT_FGC) 0
  | none => if s.rd F.CTL_CLK_STAT_AUDFAM = 0 then 48000 else 44100

/-- A rate code of an input front end as taken (spec/11_inputs_wake.md, R512). -/
def State.feRate (s : State) (code : Nat) : Nat :=
  if s.rd F.CTL_CLK_STAT_AUDFAM = 0 then (if [0, 3, 5, 6, 8, 0xA].contains code then code else 8)
  else if [1, 4, 7, 9].contains code then code else 7

/-- The rate of a stream end (R203); 0 where none is measured. -/
def State.endRate (s : State) (type idx : Nat) (source : Bool) (hfs : Nat) : Nat :=
  if type = 1 then rateHz (s.rd (F.IN_TDM_CLK_FS 0))
  else if type = 2 then rateHz (s.rd (F.IN_TDM_CLK_FS 1))
  else if type = 3 then (if source then rateHz (s.rd F.IN_SPDRX_STAT_FSMEAS) else rateHz s.spdif.tx.fs)
  else if type = 4 then rateHz (s.feRate (s.rd F.IN_PDM_MIC_RATE))
  else if type = 5 then rateHz (s.feRate (s.rd (F.IN_AADC_CFG_RATE idx)))
  else if type = 6 then rateHz hfs
  else if type = 0xA then 16000
  else s.fg

/-- Whether an end is timed by AUD; a host ring has no timing of its own (R206). -/
def State.audTimed (s : State) (type : Nat) (source : Bool) : Bool :=
  if type = 1 then s.on (F.IN_TDM_CLK_MASTER 0)
  else if type = 2 then s.on (F.IN_TDM_CLK_MASTER 1)
  else if type = 3 then !source
  else true

/-- Whether the ASRC mode may be used between two ends (R207, R252). DESIGN CHOICE (log entry 95): a rate of 0, of a receiver that has
measured none yet, passes the check of the ratio. -/
def asrcOk (amode rs rd : Nat) (outside : Bool) : Bool :=
  amode ≤ 2 && (amode ≠ 0 || (rs = rd && !outside)) && (amode ≠ 1 || !outside)
    && (rs = 0 || rd = 0 || (decide (rs ≤ 6 * rd) && decide (rd ≤ 4 * rs)))

/-! Formats (R212, R227). -/

/-- Rounding to the nearest multiple of 2^k, ties away from zero, of a magnitude; the quotient. -/
def roundAway (m k : Nat) : Nat := (m + 2 ^ k / 2) / 2 ^ k

/-- A sample cut to `b` bits, ties away from zero, saturated; whether it saturated. -/
def toBits (b : Nat) (w : Word) : Int × Bool :=
  let v := w.toInt
  let q := roundAway v.natAbs (32 - b)
  if v < 0 then (if q ≤ 2 ^ (b - 1) then (-(q : Int), false) else (-(2 ^ (b - 1) : Nat), true))
  else if q < 2 ^ (b - 1) then ((q : Int), false) else ((2 ^ (b - 1) - 1 : Nat), true)

/-- The quotient rounded to nearest even. -/
def roundEven (m k : Nat) : Nat :=
  let q := m / 2 ^ k
  let r := m % 2 ^ k
  if k = 0 then m
  else if 2 ^ (k - 1) < r ∨ (r = 2 ^ (k - 1) ∧ q % 2 = 1) then q + 1 else q

/-- A rational taken to a whole number where the spec states no rounding: one of its two neighbours (log entry 1). -/
def roundFree (n d : Nat) : Nat := if n % d = 0 then n / d else n / d + Config.roundOpen n d % 2

/-- The largest number below 2^n that meets a condition which no larger number meets once one has failed it, searched from `r` on. -/
def topDown : Nat → (Nat → Bool) → Nat → Nat
  | 0, _, r => r
  | n + 1, p, r => topDown n p (if p (r + 2 ^ n) then r + 2 ^ n else r)

/-- The steps of 0.0001 dB in a decade of amplitude; a decade of power has half as many. -/
def dbDecade : Nat := 200000

/-- A magnitude below 2^64 after an attenuation `a` in 0.0001 dB: v * 10^(-a / 200000), taken to a whole number (spec/08_speaker_channels.md,
R363; log entry 1). -/
def attenuated (v a : Nat) : Nat :=
  if a = 0 then v
  else
    let r := topDown 64 (fun r => r ^ dbDecade * 10 ^ a ≤ v ^ dbDecade) 0
    if r ^ dbDecade * 10 ^ a = v ^ dbDecade then r else r + Config.roundOpen v a % 2

/-- 10 * log10 (p / q) in 0.0001 dB for p above q, taken to a whole number (spec/08_speaker_channels.md, R381; log entry 1). -/
def dbOver (p q : Nat) : Nat :=
  let r := topDown 24 (fun r => q ^ (dbDecade / 2) * 10 ^ r ≤ p ^ (dbDecade / 2)) 0
  if q ^ (dbDecade / 2) * 10 ^ r = p ^ (dbDecade / 2) then r else r + Config.roundOpen p q % 2

/-- A signed value whose magnitude is changed. -/
def onMagnitude (v : Int) (f : Nat → Nat) : Int := if v < 0 then -(f v.natAbs : Int) else (f v.natAbs : Int)

/-- A value kept within a magnitude. -/
def boundTo (v : Int) (m : Nat) : Int := max (-(m : Int)) (min v m)

/-- An IEEE 754 single as a fabric sample: saturated with CLIP, a NaN with VALID clear (R212). -/
def ofF32 (w : Word) : Sample :=
  let e := bits w 23 8
  let f := bits w 0 23
  let m := if e = 0 then f else f + 2 ^ 23
  let x := if e = 0 then 1 else e
  if e = 255 ∧ f ≠ 0 then invalidSample
  else
    let mag := if 119 ≤ x then m * 2 ^ (min (x - 119) 64) else roundFree m (2 ^ (119 - x))
    if bit w 31 then
      (if mag ≤ 2 ^ 31 then ⟨BitVec.ofInt 32 (-(mag : Int)), 0x01⟩ else ⟨0x80000000, 0x03⟩)
    else if mag < 2 ^ 31 then ⟨BitVec.ofNat 32 mag, 0x01⟩ else ⟨0x7FFFFFFF, 0x03⟩

/-- A fabric sample as an IEEE 754 single, rounded to nearest even (R212). -/
def toF32 (w : Word) : Word :=
  let v := w.toInt
  let m := v.natAbs
  if m = 0 then 0
  else
    let l := Nat.log2 m
    let q := if l ≤ 23 then m * 2 ^ (23 - l) else roundEven m (l - 23)
    let (q', l') := if q = 2 ^ 24 then (2 ^ 23, l + 1) else (q, l)
    w32 ((if v < 0 then 2 ^ 31 else 0) + (l' + 96) * 2 ^ 23 + (q' - 2 ^ 23))

/-- A host ring word taken into the fabric (R212). -/
def hostIn (width : Nat) (w : Word) : Sample :=
  if width = 0 then ⟨w, 0x01⟩
  else if width = 1 then ⟨w <<< 8, 0x01⟩
  else ofF32 w

/-- A fabric sample sent to a host ring; whether it saturated (R212). -/
def hostOut (width : Nat) (w : Word) : Word × Bool :=
  if width = 0 then (w, false)
  else if width = 1 then (let (v, c) := toBits 24 w; (BitVec.ofInt 32 v, c))
  else (toF32 w, false)

/-! Stream contexts. -/

def stmClosed : Nat := 0
def stmWait : Nat := 1
def stmRun : Nat := 2
def stmFill : Nat := 3
def stmAborted : Nat := 4

/-- The extension of an open stream. -/
def State.strX? (s : State) (sid : Nat) : Option StreamX := s.strs.find? (fun x => x.sid = sid)

/-- The state with the extension of an open stream replaced. -/
def State.setStr (s : State) (x : StreamX) : State :=
  { s with strs := s.strs.map fun y => if y.sid = x.sid then x else y }

/-- The number of channels of a stream. -/
def State.strCh (s : State) (sid : Nat) : Nat := s.rd (F.DSP_STR_FMT_NCH sid) + 1

/-- EVT_STREAM (R223). -/
def State.raiseStream (s : State) (sid cause : Nat) : State :=
  s.raise evStream
    [w32 (s.rd (F.DSP_STR_STAT_STATE sid) * 2 ^ 28 + cause * 2 ^ 16 + sid), s.reg (Reg.DSP_STR_GOOD_LO sid)]

/-- A stream's STATE becomes `st` for `cause`; a change is reported (R223). -/
def State.strState (s : State) (sid st cause : Nat) : State :=
  if s.rd (F.DSP_STR_STAT_STATE sid) = st then s
  else ((s.wr (F.DSP_STR_STAT_STATE sid) st).wr (F.DSP_STR_STAT_CAUSE sid) cause).raiseStream sid cause

/-- The claims of a stream are freed: it is no longer open (R219). -/
def State.freeStr (s : State) (sid : Nat) : State := { s with strs := s.strs.filter (fun x => x.sid ≠ sid) }

/-- Whether a stream is a wake-handover stream (spec/11_inputs_wake.md, R553). -/
def State.isHandover (s : State) (sid : Nat) : Bool := s.rd (F.DSP_STR_CFG_STYPE sid) = 0xA

/-- Whether a wake-handover stream is in WAIT, RUN or FILL. -/
def State.handoverOpen (s : State) : Bool := s.strs.any fun x => s.isHandover x.sid

/-- The GATETO timer after a stream has gone: it runs from the moment at which the last handover stream closes
(spec/11_inputs_wake.md, R539). -/
def State.gateAfterClose (s : State) (wasHandover : Bool) : State :=
  if wasHandover ∧ ¬ s.handoverOpen ∧ s.rd F.IN_TAD_STAT_GATE = 1 then { s with tad := { s.tad with timer := some s.now } } else s

/-- A stream ends in `st` for `cause`; a pending STREAM_CLOSE of it ends with `sts` (R217, R219, R220). DESIGN CHOICE (log entry 95): a close
that waits ends with ST_OK too where FORCE or an abort ends its stream. -/
def State.endStr (s : State) (sid st cause sts : Nat) : State :=
  match s.strX? sid with
  | none => s
  | some _ =>
    (((s.freeStr sid).strState sid st cause).gateAfterClose (s.isHandover sid)).finishFor (.stream sid) 0x101 sts []

/-- A stream is aborted (R217). -/
def State.abortStr (s : State) (sid : Nat) : State := s.endStr sid stmAborted 0x08 stsOk

/-- A stream is closed at a frame boundary (R219). -/
def State.closeStr (s : State) (sid : Nat) : State := s.endStr sid stmClosed 0x09 stsOk

/-- Every open stream that `p` names is aborted (R217). -/
def State.abortAll (s : State) (p : State → Nat → Bool) : State :=
  (s.strs.filter (fun x => p s x.sid)).foldl (fun s x => s.abortStr x.sid) s

/-- Whether a stream has an end of this type and an index range that takes in `idx`. -/
def State.usesEnd (s : State) (sid type idx : Nat) (source : Bool) : Bool :=
  let (t, i) := if source then (s.rd (F.DSP_STR_CFG_STYPE sid), s.rd (F.DSP_STR_CFG_SIDX sid))
    else (s.rd (F.DSP_STR_CFG_DTYPE sid), s.rd (F.DSP_STR_CFG_DIDX sid))
  t = type && i ≤ idx && (if type = 6 || type = 7 then i = idx else idx < i + s.strCh sid)

/-- Whether a stream reads or fills ring `n`. -/
def State.usesRing (s : State) (sid n : Nat) : Bool :=
  s.usesEnd sid 6 n true || s.usesEnd sid 6 n false || s.usesEnd sid 7 n false

/-- Whether a stream uses port `p` (0 TDMA, 1 TDMB, 2 S/PDIF receiver, 3 S/PDIF transmitter). -/
def State.usesPort (s : State) (sid p : Nat) : Bool :=
  let st := s.rd (F.DSP_STR_CFG_STYPE sid)
  let dt := s.rd (F.DSP_STR_CFG_DTYPE sid)
  if p = 0 then st = 1 || dt = 1 else if p = 1 then st = 2 || dt = 2 else if p = 2 then st = 3 else dt = 3

/-- Whether a port is in sync: SYNC of a TDM port, LOCK of the receiver, the enable of the transmitter. -/
def State.portSync (s : State) (p : Nat) : Bool :=
  if p ≤ 1 then (vat s.tdm p).en && s.on (F.IN_TDM_STAT_SYNC p)
  else if p = 2 then s.spdif.rxEn && s.on F.IN_SPDRX_STAT_LOCK
  else s.spdif.txEn

/-- Whether every port of a stream is in sync (R216). -/
def State.strSync (s : State) (sid : Nat) : Bool :=
  (List.range 4).all fun p => !s.usesPort sid p || s.portSync p

/-- The domains that a stream end needs (spec/14_power_states.md, R642, R643). -/
def endDomain (type idx nch : Nat) (source : Bool) : List Nat :=
  if type = 1 then [dmTdm 0] else if type = 2 then [dmTdm 1]
  else if type = 3 then (if source then [dmSpdRx] else [dmSpdTx])
  else if type = 4 then [dmPdm]
  else if type = 5 then (List.range nch).map fun k => dmAadc (idx + k)
  else []

/-- Whether an open stream refers to a domain (spec/14_power_states.md, R648). -/
def State.strUsesDomain (s : State) (sid d : Nat) : Bool :=
  (endDomain (s.rd (F.DSP_STR_CFG_STYPE sid)) (s.rd (F.DSP_STR_CFG_SIDX sid)) (s.strCh sid) true).contains d
    || (endDomain (s.rd (F.DSP_STR_CFG_DTYPE sid)) (s.rd (F.DSP_STR_CFG_DIDX sid)) (s.strCh sid) false).contains d
    || (d = dmAsrc && s.rd (F.DSP_STR_FMT_AMODE sid) ≠ 0)
    || (d = dmTad && s.isHandover sid)

end Sys2Proof.Machine
end

