-- ==== Sys2Proof/Machine/Impedance.lean ====
section
/-!
DEFINITION. The arithmetic of the AC impedance test (spec/10_load_jack_diagnostics.md, R486, R496) in fixed point: a number x stands
as the whole number nearest below x * 2^80 (log entry 101).
-/

namespace Sys2Proof.Machine

/-- One. -/
def fixOne : Int := 2 ^ 80

/-- The ratio of a circle's circumference to its diameter. -/
def fixPi : Int := 3797952473636338580787993

/-- The sum of `n` terms of a sine or cosine series from a term with index `k` on, `x2` the square of the argument. -/
def fixSeries (x2 : Int) : Nat → Nat → Int → Int
  | 0, _, _ => 0
  | n + 1, k, t => t + fixSeries x2 n (k + 2) (-(t * x2) / (fixOne * ((k + 1) * (k + 2) : Nat)))

/-- An angle in 0.01° between -360° and 360°, in radians. -/
def fixAngle (cd : Int) : Int := cd.tmod 36000 * fixPi / 18000

def fixSin (cd : Int) : Int := fixSeries (fixAngle cd * fixAngle cd / fixOne) 40 1 (fixAngle cd)
def fixCos (cd : Int) : Int := fixSeries (fixAngle cd * fixAngle cd / fixOne) 40 0 fixOne

/-- An impedance in mΩ or an admittance per mΩ. -/
structure Impedance where
  re : Int
  im : Int
  deriving DecidableEq, Repr

/-- An impedance from its magnitude in mΩ and its phase in 0.01°. -/
def polar (mohm : Nat) (cd : Int) : Impedance := ⟨mohm * fixCos cd, mohm * fixSin cd⟩

/-- The reciprocal of an impedance or of an admittance. -/
def Impedance.inverse (z : Impedance) : Impedance :=
  let n := z.re * z.re + z.im * z.im
  ⟨z.re * fixOne * fixOne / n, -z.im * fixOne * fixOne / n⟩

/-- The magnitude in mΩ, taken to a whole number (log entry 1). -/
def Impedance.magnitude (z : Impedance) : Nat :=
  let n := (z.re * z.re + z.im * z.im).toNat
  let r := topDown 40 (fun r => (r * 2 ^ 80) ^ 2 ≤ n) 0
  if (r * 2 ^ 80) ^ 2 = n then r else r + Config.roundOpen n 0 % 2

/-- The phase in 0.01°, taken to a whole number (log entry 1). -/
def Impedance.phase (z : Impedance) : Int :=
  let im := (z.im.natAbs : Int)
  let a := topDown 15 (fun c => decide (c ≤ 18000) && decide (fixSin c * z.re ≤ fixCos c * im)) 0
  let b := if fixSin a * z.re = fixCos a * im then a else a + Config.roundOpen z.re.natAbs z.im.natAbs % 2
  if z.im < 0 then -(b : Int) else b

/-- Z_load = 1 / (1 / (Z_sw - j2wL) - jwC / 2) at a frequency in Hz, with L in 0.1 µH and C in 10 nF (R486). -/
def Impedance.load (z : Impedance) (hz lf cf : Nat) : Impedance :=
  let y := Impedance.inverse ⟨z.re, z.im - 4 * fixPi * (hz * lf : Nat) / 10 ^ 4⟩
  Impedance.inverse ⟨y.re, y.im - fixPi * (hz * cf : Nat) / 10 ^ 11⟩

/-- The impedance that a measurement gives, |Z| in mΩ and phase in 0.01°: the load's with the filter removed, or Z_sw where a filter value is 0
(R486, R507). -/
def loadImpedance (mohm : Nat) (cd : Int) (hz lf cf : Nat) : Nat × Int :=
  if lf = 0 ∨ cf = 0 then (mohm, cd)
  else
    let z := (polar mohm cd).load hz lf cf
    (z.magnitude, z.phase)

/-- CEST in 0.1 µF: 1 / (2 pi * 1 kHz * |Z| * sin(-phase)) rounded, from |Z| in mΩ and the phase in 0.01°; it saturates (R496). -/
def seriesCap (mohm : Nat) (cd : Int) : Nat :=
  let den := 2 * fixPi * mohm * fixSin (-cd)
  if den ≤ 0 then 0xFFFF else min 0xFFFF ((2 * 10 ^ 7 * fixOne * fixOne + den) / (2 * den)).toNat

end Sys2Proof.Machine
end

