-- ==== Sys2Proof/Machine/SpkCore.lean ====
section
/-!
DEFINITION. The power stage as the whole device sees it (spec/08_speaker_channels.md): phases and their reversals (R369 to R376,
R805), pairing (R377, R378), the croaker's reach and lost channels (R407 to R409; spec/15_safety.md, R661, R662, R685 to
R687), Fault hold, crosspoint and legs (R359, R360, R387).
-/

namespace Sys2Proof.Machine

/-! Phases of OUT_SPKn_STAT.PHASE. -/

def phOff : Nat := 0x0
def phCheck : Nat := 0x1
def phCharge : Nat := 0x2
def phLock : Nat := 0x3
def phUnmute : Nat := 0x4
def phPlay : Nat := 0x5
def phMute : Nat := 0x6
def phHold : Nat := 0x7
def phDischarge : Nat := 0x8
def phFault : Nat := 0x9
def phRetry : Nat := 0xA
def phSlave : Nat := 0xB

def State.phase (s : State) (n : Nat) : Nat := s.rd (F.OUT_SPK_STAT_PHASE n)
def State.spk (s : State) (n : Nat) : SpkX := vat s.spks n
def State.modSpk (s : State) (n : Nat) (f : SpkX → SpkX) : State := { s with spks := vmod s.spks n f }
def State.grp (s : State) (g : Nat) : GroupX := vat s.groups g
def State.modGrp (s : State) (g : Nat) (f : GroupX → GroupX) : State := { s with groups := vmod s.groups g f }
def State.slot (s : State) (k : Nat) : CrkSlot := vat s.crk k
def State.modSlot (s : State) (k : Nat) (f : CrkSlot → CrkSlot) : State := { s with crk := vmod s.crk k f }
def State.modOut (s : State) (f : OutX → OutX) : State := { s with out := f s.out }

/-- Whether a phase is Fault hold, Retry included (R805). -/
def held (ph : Nat) : Bool := ph = phFault || ph = phRetry

/-- Whether a phase has the legs switching. -/
def switching (ph : Nat) : Bool := decide (phCharge ≤ ph ∧ ph ≤ phDischarge)

/-- Whether a phase has ended Lock on the way to Play (R415). -/
def pastLock (ph : Nat) : Bool := decide (phUnmute ≤ ph ∧ ph ≤ phHold)

/-- The master of a channel under the pairing in force (R377). -/
def State.master (s : State) (n : Nat) : Nat :=
  if n % 2 = 1 ∧ inMask (s.grp (n / 4)).pairs (n % 4 / 2) then n - 1 else n

/-- Whether a channel is the master of a pair. -/
def State.paired (s : State) (n : Nat) : Bool := n % 2 = 0 && inMask (s.grp (n / 4)).pairs (n % 4 / 2)

/-- The channels whose legs a master drives (R377). -/
def State.drives (s : State) (n : Nat) : List Nat := if s.paired n then [n, n + 1] else [n]

/-- A mask of channels with every slave taken as its master (R419; spec/15_safety.md, R662). -/
def State.masters (s : State) (m : Nat) : Nat :=
  maskOf 12 fun n => (List.range 12).any fun k => inMask m k && s.master k = n

/-! Legs: node j of group g (R359). -/

def nodeOf (ch leg : Nat) : Nat := 2 * (ch % 4) + leg
def chanOf (g j : Nat) : Nat := 4 * g + j / 2

/-- Whether the spare leg serves a node. -/
def State.onSpare (s : State) (g j : Nat) : Bool := s.on (F.OUT_G_XPT_AEN g) && s.rd (F.OUT_G_XPT_ANODE g) = j

/-- Whether a node has a leg: the spare, or its own unless that one has failed. -/
def State.hasLeg (s : State) (g j : Nat) : Bool := s.onSpare g j || !inMask (s.grp g).failed j

/-- The healthy slices of the leg that drives a node. -/
def State.legSlices (s : State) (g j : Nat) : Nat := if s.onSpare g j then (s.grp g).xslc else vat (s.grp g).slices j

/-- The number of slices in a mask. -/
def sliceCount (m : Nat) : Nat := (indices 4 (inMask m)).length

/-- The highest ILIM code of a channel: fused, or set lower by a re-plan (R385; spec/17_service_life.md, R750). -/
def State.ilimCeil (s : State) (n : Nat) : Nat := min (min (s.rd F.OUT_SPK_FUSE_ILIMMAX) (s.rd (F.SAFE_AGE_DER_ILIMC n))) 0xC

/-- ILIM of a channel in 0.1 A, under its master's setting (R377; OUT_SPKn_CFG). -/
def State.ilim (s : State) (n : Nat) : Nat :=
  60 + 5 * min (s.rd (F.OUT_SPK_CFG_ILIM (s.master n))) (s.ilimCeil (s.master n))

/-- OUT_SPKn_PROT and XSPARE, XLEG of a channel follow its legs (R360, R387). -/
def State.showLegs (s : State) (n : Nat) : State :=
  let g := n / 4
  let p := s.legSlices g (nodeOf n 0)
  let m := s.legSlices g (nodeOf n 1)
  let k := min (sliceCount p) (sliceCount m)
  let x := s.onSpare g (nodeOf n 0) || s.onSpare g (nodeOf n 1)
  ((((s.wr (F.OUT_SPK_PROT_PSLC n) p).wr (F.OUT_SPK_PROT_MSLC n) m).wr (F.OUT_SPK_PROT_ILIMEFF n)
    (roundFree (s.ilim n * k) 4)).wr (F.OUT_SPK_STAT_XSPARE n) (b2n x)).wr (F.OUT_SPK_STAT_XLEG n)
    (b2n (s.onSpare g (nodeOf n 1)))

/-- The legs of a group as its registers show them. -/
def State.showGroup (s : State) (g : Nat) : State :=
  forEach (fun k s => s.showLegs (4 * g + k)) 4 s

/-- Whether both legs of a channel are at high impedance for a regrow or a crosspoint move (R397, R405), or under EXTEST
(spec/16_security.md, R729). -/
def State.hiz (s : State) (n : Nat) : Bool :=
  s.sec.extest || match (s.grp (n / 4)).seq with
  | some q => !q.released && q.nodes.any fun j => s.master (chanOf (n / 4) j) = s.master n
  | none => false

/-- Whether a channel takes part in a regrow or crosspoint move under way. -/
def State.inSeq (s : State) (n : Nat) : Bool :=
  match (s.grp (n / 4)).seq with
  | some q => q.nodes.any fun j => s.master (chanOf (n / 4) j) = s.master n
  | none => false

/-- Whether a group's carrier runs and is not gated (R805; spec/09_clocks.md, R439, R451; spec/15_safety.md, R671). -/
def State.carrierOn (s : State) (g : Nat) : Bool :=
  s.domOn (dmGroup g) && s.on (F.OUT_SW_OUTA_EN g) && (s.on F.SAFE_SM_STAT_FALLBACK ||
    (s.on F.OUT_SW_STAT_SWON && !inMask (s.rd F.OUT_SW_STAT_GATE) g))

/-! The croaker (R407 to R409). -/

/-- Whether MUTE_N is taken as low (R375; spec/15_safety.md, R669). -/
def State.muted (s : State) : Bool := s.out.muteLow || s.out.muteHeld

/-- Whether the croaker runs: in IDLE and PLAY (spec/14_power_states.md, R617). -/
def State.croaks (s : State) : Bool := s.pstate = stIdle || s.pstate = stPlay

/-- Whether a slot is armed (spec/15_safety.md, R662). -/
def CrkSlot.armed (c : CrkSlot) : Bool := c.kind ≠ 0 && (c.map ≠ 0 || c.active)

/-- The channels of a slot's CHMASK. -/
def State.slotBase (s : State) (k : Nat) : Nat := s.masters (s.slot k).mask

/-- Whether a slot's contribution is extended to CRKALT (spec/15_safety.md, R686). -/
def State.extended (s : State) (k : Nat) : Bool := s.saf.recs.any fun r => r.code = 0x30A && r.sub = k && r.active

/-- The channels that a slot reaches (spec/15_safety.md, R686). -/
def State.slotChans (s : State) (k : Nat) : Nat :=
  if s.extended k then s.masters (s.slot k).mask ||| s.masters (s.rd F.SAFE_SM_CFG_CRKALT) else s.slotBase k

/-- The lowest-numbered active slot that reaches a channel (R407). -/
def State.slotFor? (s : State) (n : Nat) : Option Nat :=
  (List.range 8).find? fun k => (s.slot k).active && inMask (s.slotChans k) n

/-- Whether a channel's phase lets the croaker through (R409). -/
def State.carries (s : State) (n : Nat) : Bool :=
  s.phase n = phUnmute || s.phase n = phPlay || (s.phase n = phHold && s.croaks)

/-- Whether the croaker contributes to a channel (R375, R407, R409; spec/09_clocks.md, R451; spec/15_safety.md, R669, R673). -/
def State.croaking (s : State) (n : Nat) : Bool :=
  match s.slotFor? n with
  | some k => s.carries n && !s.hiz n && !s.out.crkFailed && s.rd F.SAFE_SM_STAT_CSS ≠ 2
      && !inMask (s.rd F.OUT_SW_STAT_GATE) (n / 4) && ((s.slot k).pass || !s.muted)
  | none => false

/-- The DUCK code that acts on a channel: of the slot that reaches it, 0 with none (R407). -/
def State.duckFor (s : State) (n : Nat) : Nat :=
  match s.slotFor? n with
  | some k => (s.slot k).duck
  | none => 0

/-- The duck gain of a channel moves to a new DUCK code, over 5 ms from now (R407). -/
def duckStep (now code : Nat) (d : Nat × Nat × Nat) : Nat × Nat × Nat := if d.2.2 = code then d else (now, d.2.2, code)

/-- A CRKLOST record is ACTIVE while its slot is armed, names the channel and the channel cannot carry it (spec/15_safety.md,
R687). -/
def State.stillLost (s : State) (r : FaultRec) : Bool :=
  (s.slot r.sub).armed && inMask (s.slotBase r.sub) r.unit && !s.carries r.unit

/-- An event of R492 falls in the window of an online AC test of a channel. -/
def State.acSpoil (s : State) (n : Nat) : State :=
  match s.diag.ac with
  | some a => if a.chan = n then { s with diag := { s.diag with ac := some { a with spoilt := true } } } else s
  | none => s

/-- A window of an online AC test is spoilt while its channel is not in Play, a regrow of its legs is under way or the croaker contributes
to it (spec/10_load_jack_diagnostics.md, R492). -/
def State.acWatch (s : State) : State :=
  match s.diag.ac with
  | some a => if s.phase a.chan ≠ phPlay ∨ s.inSeq a.chan ∨ s.croaking a.chan then s.acSpoil a.chan else s
  | none => s

/-- OUT_CRK_STAT, the CRK bits and the duck gains follow the slots, the phases and the CRKLOST records (R407, R409;
spec/15_safety.md, R686, R687). -/
def State.outShow (s : State) : State :=
  let s0 := if s.saf.recs.any (fun r => r.code = 0x30A && r.active && !s.stillLost r) then
      { s with saf := { s.saf with recs := s.saf.recs.map fun (r : FaultRec) =>
          if r.code = 0x30A ∧ ¬ s.stillLost r then { r with active := false } else r } }.showFn
    else s
  let s1 := forEach (fun n s => s.wr (F.OUT_SPK_STAT_CRK n) (b2n (s.croaking n))) 12 s0
  let s2 := (s1.wr F.OUT_CRK_STAT_ACTIVE (maskOf 8 fun k => (s1.slot k).active)).wr F.OUT_CRK_STAT_CHPLAY
    (maskOf 12 s1.croaking)
  (s2.modOut fun o => { o with ducks := Vector.ofFn fun i => duckStep s2.now (s2.duckFor i.val) (vat o.ducks i.val) }).acWatch

/-! Pending speaker commands (R415, R416, R418). -/

/-- The speaker commands that wait for no channel any more end with ST_OK. -/
def State.spkPoll (s : State) : State :=
  s.finishAll (fun e => (e.opcode = 0x302 || e.opcode = 0x303 || e.opcode = 0x305)
    && !s.out.waits.any (fun w => w.1 = e.slot)) stsOk 0

/-- The waits that a channel's present phase answers. -/
def waitMet (ph kind : Nat) : Bool := if kind = 1 then ph = phOff else pastLock ph

/-! Load tests under way on a channel (spec/10_load_jack_diagnostics.md, R477, R498). -/

/-- DCRES of a channel that was not tested, or not to the end (spec/10_load_jack_diagnostics.md, R481). -/
def State.dcNone (s : State) (n res : Nat) : State :=
  (s.drives n).foldl (fun (s : State) k => s.setReg (Reg.SAFE_LDIAG_DC k) (w32 (res * 2 ^ 28 + b2n (n % 2 = 0 && s.master (n + 1) = n) * 2 ^ 27))) s

/-- The channels of a LOAD_DC_TEST that `p` names are dropped with ABORTED; the command ends with the last one
(spec/10_load_jack_diagnostics.md, R498, R506). -/
def State.dcDrop (s : State) (p : Nat → Bool) (st : Nat) : State :=
  if s.diag.dc.any p then
    let s1 := (s.diag.dc.filter p).foldl (fun (s : State) n => s.dcNone n 9) s
    let left := s.diag.dc.filter (fun n => !p n)
    let s2 := { s1 with diag := { s1.diag with dc := left } }
    if left = [] then s2.finishAll (fun e => e.opcode = 0xA00) st 0 else s2
  else s

/-- An impedance as a register word: |Z| in 10 mΩ and the phase in 0.01° (spec/10_load_jack_diagnostics.md, SAFE_LDIAGn_ZLO). -/
def zWord (z : Nat × Int) : Word := w32 (min 0xFFFF (roundFree z.1 10) * 2 ^ 16 + (BitVec.ofInt 16 z.2).toNat)

/-- The AC test ends with a class; its results are stored (spec/10_load_jack_diagnostics.md, R489, R490, R507). -/
def State.acEnd (s : State) (a : AcTest) (acres cest st : Nat) : State :=
  let s1 := (s.drives a.chan).foldl (fun (s : State) k =>
    ((s.setReg (Reg.SAFE_LDIAG_AC k) (w32 (acres * 2 ^ 28 + b2n a.online * 2 ^ 27 + b2n a.fcorr * 2 ^ 26 + cest))).setReg
      (Reg.SAFE_LDIAG_ZLO k) (zWord a.lo)).setReg (Reg.SAFE_LDIAG_ZHI k) (zWord a.hi)) s
  { s1 with diag := { s1.diag with ac := none } }.finishAll (fun e => e.opcode = 0xA01) st 0

/-- Z_nom of a channel in mΩ (OUT_SPKn_CFG). -/
def State.znom (s : State) (n : Nat) : Nat := 250 * max 8 (min 32 (s.rd (F.OUT_SPK_CFG_ZNOM n)))

/-- ACRES from |Z_lo| and |Z_hi| in 0.1 mΩ and the phases in 0.01° (spec/10_load_jack_diagnostics.md, R495). -/
def acClass (online uncertain : Bool) (zn lo hi : Nat) (plo phi : Int) : Nat :=
  let z := 10 * zn
  if uncertain then 8
  else if 10 * z < hi ∧ (online ∨ 10 * z < lo) then 5
  else if 2 * hi < z ∨ (online = false ∧ 2 * lo < z) then 3
  else if online = false ∧ 5 * hi ≤ 2 * lo ∧ plo ≤ -4500 then 1
  else if online = false ∧ 5 * lo ≤ 2 * hi ∧ 4500 ≤ phi then 2
  else if 3 * z < hi then 4
  else 0

/-- The offline AC test of a channel that has gone Off after its tones ends (spec/10_load_jack_diagnostics.md, R489, R495, R496). -/
def State.acStored (s : State) (n : Nat) : State :=
  match s.diag.ac with
  | some a =>
    if a.chan = n ∧ a.online = false ∧ a.stage = 3 then
      let c := acClass false false (s.znom n) (10 * a.lo.1) (10 * a.hi.1) a.lo.2 a.hi.2
      s.acEnd a c (if c = 1 then seriesCap a.lo.1 a.lo.2 else 0) stsOk
    else s
  | none => s

/-- The AC test of a channel that `p` names ends with ABORTED. -/
def State.acDrop (s : State) (p : AcTest → Bool) (st : Nat) : State :=
  match s.diag.ac with
  | some a => if p a then s.acEnd a 7 0 st else s
  | none => s

/-- Whether an AC test cannot go on: an online test off a playing channel, an offline test whose channel was started or is in Fault
hold (spec/10_load_jack_diagnostics.md, R489, R492, R498). -/
def State.acBroken (s : State) (a : AcTest) : Bool :=
  let ph := s.phase a.chan
  if a.online then !(s.spk a.chan).on || ph < phUnmute || phHold < ph
  else (s.spk a.chan).on || held ph || (a.stage = 0 && ph = phOff && !(s.spk a.chan).start)
    || (a.stage = 0 && phLock < ph) || ((a.stage = 1 || a.stage = 2) && ph ≠ phHold)

/-- What a change of phase means for the tests under way. -/
def State.diagPoll (s : State) : State :=
  (s.dcDrop (fun n => !(s.phase n = phOff || held (s.phase n))) stsOk).acDrop s.acBroken stsOk

/-- A protective fault or a stop meets the tests of a channel (spec/10_load_jack_diagnostics.md, R498). -/
def State.diagAbort (s : State) (n : Nat) : State := (s.dcDrop (· = s.master n) stsOk).acDrop (fun a => a.chan = s.master n) stsOk

/-- Every test under way ends with this status (spec/10_load_jack_diagnostics.md, R475, R477). -/
def State.diagStop (s : State) (st : Nat) : State := (s.dcDrop (fun _ => true) st).acDrop (fun _ => true) st

/-- A channel's phase; what waits for it, and what shows it, follow. -/
def State.setPhase (s : State) (n ph : Nat) : State :=
  let s1 := (s.wr (F.OUT_SPK_STAT_PHASE n) ph).wr (F.OUT_SPK_STAT_MUTED n) (b2n (ph = phHold && s.muted))
  let s2 := s1.modOut fun o => { o with waits := o.waits.filter fun (w : Nat × Nat × Nat) =>
    ¬ (w.2.1 = n ∧ waitMet ph w.2.2 = true) }
  s2.spkPoll.outShow.diagPoll

/-- A pending command of this opcode that names a channel is superseded (R372, R416). -/
def State.supersede (s : State) (opcode n : Nat) : State :=
  match s.pap.slots.find? (fun e => e.opcode = opcode && e.targets.contains (.chan n) && e.done.isNone) with
  | some e => (s.modOut fun o => { o with waits := o.waits.filter fun (w : Nat × Nat × Nat) => w.1 ≠ e.slot }).finish e stsOk 0 [] []
  | none => s

/-! Ramps (R369 to R371). -/

def msTicks : Nat := 24576

/-- FADE and CMRAMP of a channel in ticks (OUT_SPKn_CFG, OUT_Gx_CFG; R409). -/
def State.fadeTicks (s : State) (n : Nat) : Nat := msTicks * max 1 (min 100 (s.rd (F.OUT_SPK_CFG_FADE n)))
def State.cmTicks (s : State) (n : Nat) : Nat :=
  if (s.spk n).short then 5 * msTicks else msTicks * max 5 (min 200 (s.rd (F.OUT_G_CFG_CMRAMP (n / 4))))

/-- The length of the ramp under way. -/
def State.rampTicks (s : State) (n : Nat) : Nat :=
  if s.phase n = phCharge ∨ s.phase n = phDischarge then s.cmTicks n else s.fadeTicks n

/-- Where a channel's duty or gain ramp stands, from 0 to its length: falling in Mute and Discharge, rising in Charge and
Unmute; the reversed ramp goes on from there (R371). -/
def State.rampPos (s : State) (n : Nat) : Nat :=
  let x := s.spk n
  let t := (s.now - x.mark) * (if x.fast then s.fadeTicks n / msTicks else 1)
  if s.phase n = phCharge ∨ s.phase n = phUnmute then min (s.rampTicks n) (x.pos + t) else x.pos - t

/-- A ramp begins, or a ramp is reversed, at place `pos`. -/
def State.ramp (s : State) (n ph pos : Nat) (fast : Bool) : State :=
  (s.modSpk n fun x => { x with mark := s.now, pos := pos, fast := fast }).setPhase n ph

/-! CFGPAR on the power stage (spec/03_register_access.md, R135; spec/15_safety.md, R672). -/

/-- The channels that a power-stage register belongs to; none for any other register. -/
def spkOwner (a : Nat) : List Nat :=
  if 0x301000 ≤ a ∧ a < 0x301300 then [(a - 0x301000) / 0x40]
  else if 0x300000 ≤ a ∧ a < 0x300300 then (List.range 4).map (4 * ((a - 0x300000) / 0x100) + ·)
  else []

/-- Whether a register of a channel still waits for its rewrite. -/
def State.cfgBlocked (s : State) (n : Nat) : Bool :=
  s.link.cfgpar.any fun e => (spkOwner e.1).contains n && s.link.badParity.contains e.1

/-- Whether a channel is in the safe state of a register of its own, rewritten or not: only SPK_ENABLE ends it. -/
def State.cfgHolds (s : State) (n : Nat) : Bool := s.link.cfgpar.any fun e => (spkOwner e.1).contains n

/-! Starting and stopping. -/

/-- Whether outputs may run Unmute: in PLAY with no transition away from it and no chip safe state (R369; spec/15_safety.md,
R675). -/
def State.unmutes (s : State) : Bool :=
  s.pstate = stPlay && !(s.on F.PWR_STATE_TRANS && s.rd F.PWR_STATE_TARGET ≠ stPlay) && !s.chipSafe

/-- A channel in Hold runs Unmute where nothing holds it (R369, R376). -/
def State.tryUnmute (s : State) (n : Nat) : State :=
  if s.phase n = phHold ∧ (s.spk n).on ∧ s.unmutes ∧ s.muted = false then s.ramp n phUnmute 0 false
  else s.wr (F.OUT_SPK_STAT_MUTED n) (b2n (s.phase n = phHold && s.muted))

/-- A channel enters Hold and leaves it again where nothing holds it. -/
def State.toHold (s : State) (n : Nat) : State := (s.setPhase n phHold).tryUnmute n

/-- Discharge from full duty. -/
def State.discharge (s : State) (n : Nat) : State := s.ramp n phDischarge (s.cmTicks n) false

/-- The pairing of a group's channels changes where both channels of a pair are Off (R378). -/
def State.applyPairs (s : State) (g : Nat) : State :=
  forEach (fun k s =>
    let m := 4 * g + 2 * k
    let want := inMask (s.rd (F.OUT_G_CFG_PAIR g)) k
    if want ≠ inMask (s.grp g).pairs k ∧ s.phase m = phOff ∧ (s.phase (m + 1) = phOff ∨ s.phase (m + 1) = phSlave) then
      ((s.modGrp g fun x => { x with pairs := if want then x.pairs + 2 ^ k else x.pairs - 2 ^ k }).modSpk (m + 1)
        (fun x => { x with on := false, start := false })).setPhase (m + 1) (if want then phSlave else phOff)
    else s) 2 s

/-- A channel goes Off: legs Hi-Z (R370); a waiting change of pairing takes effect (R378). -/
def State.toOff (s : State) (n : Nat) : State :=
  ((s.modSpk n fun x => { x with short := false, run := 0, dcBad := false, stopWait := none }).setPhase n phOff).applyPairs (n / 4)

/-- Check begins (R369, R805). -/
def State.beginCheck (s : State) (n : Nat) : State :=
  (s.modSpk n fun x => { x with start := false, why := 0, run := 0 }).setPhase n phCheck

/-- A start of a channel; `alert` for one under AUTOSTART (R371, R409, R805). None in the safe state of CFGPAR, which SPK_ENABLE ends first.
-/
def State.startChan (s : State) (n : Nat) (alert : Bool) : State :=
  let ph := s.phase n
  if ph = phSlave ∨ held ph ∨ s.rd F.SAFE_SM_STAT_CSS = 2 ∨ s.cfgHolds n then s
  else
    let s1 := (s.modSpk n fun x => { x with on := true, short := if ph = phOff then alert else x.short, stopWait := none }).diagPoll
    if ph = phOff then
      if s1.on (F.OUT_G_STAT_PVDDOK (n / 4)) ∧ s1.carrierOn (n / 4) then s1.beginCheck n
      else s1.modSpk n fun x => { x with start := true }
    else if ph = phDischarge then (s1.supersede 0x303 n).ramp n phCharge (s.rampPos n) false
    else if ph = phMute ∧ s.unmutes then
      let s2 := (s1.supersede 0x303 n).ramp n phUnmute (s.rampPos n) false
      if s.muted then s2.toHold n else s2
    else s1.tryUnmute n

/-- A stop of a channel that is not in Fault hold (R370, R371, R402, R805). -/
def State.stopChan (s : State) (n : Nat) (fast : Bool) : State :=
  let ph := s.phase n
  if ph = phSlave ∨ held ph then s
  else if s.inSeq n ∧ ph ≠ phOff then s.modSpk n fun x => { x with stopWait := some (fast || x.stopWait.getD false) }
  else
    let s1 := (if ph = phOff ∨ ph = phMute ∨ ph = phDischarge then s else s.supersede 0x302 n).modSpk n fun x =>
      { x with on := false, start := false }
    if ph = phOff then s.modSpk n fun x => { x with on := false, start := false }
    else if ph = phCheck then s1.toOff n
    else if ph = phCharge then s1.ramp n phDischarge (s.rampPos n) false
    else if ph = phHold then s1.discharge n
    else if ph = phPlay then s1.ramp n phMute (s.fadeTicks n) fast
    else if ph = phUnmute then s1.ramp n phMute (s.rampPos n) fast
    else if ph = phMute ∧ fast then s1.ramp n phMute (s.rampPos n) true
    else s1

/-- A fault of the power stage that is contained without restoring full function is recorded at chip level, where its reaction
is N (spec/01_architecture.md, R24; spec/15_safety.md, R673, R688). -/
def State.outFault (s : State) (code df sub unit detail : Nat) (active : Bool) : State :=
  (s.fault { code := code, df := df, region := rgOut, level := 4, sub := sub, unit := unit, detail := detail, inj := false,
             active := active }).escalated rgOut

/-- A SHORT that is to be recorded: with its SCLASS (R389; spec/15_safety.md, R691). -/
def State.recordShort (s : State) (n sclass : Nat) : State :=
  if (s.spk n).unclass then (s.modSpk n fun x => { x with unclass := false }).outFault 0x301 0 0 n sclass false else s

/-- A channel in Fault hold goes Off at once and clears its fault state (R416, R805). -/
def State.unhold (s : State) (n : Nat) : State :=
  (((s.recordShort n 0).modSpk n fun x => { x with on := false, start := false, why := 0 }).wr (F.OUT_SPK_STAT_SCLASS n) 0).toOff n

/-- Unmute or Play goes to Hold at once, the modulator input stepping to zero; after Settle where a regrow is under way
(R375, R376, R402). -/
def State.holdNow (s : State) (n : Nat) : State :=
  if (s.phase n = phUnmute ∨ s.phase n = phPlay) ∧ s.inSeq n = false then s.setPhase n phHold else s

/-- MUTE_N as filtered changes, or its voter fails (R375, R376); an offline AC test ends, its channel running Discharge
(spec/10_load_jack_diagnostics.md, R498). -/
def State.muteChanged (s : State) : State :=
  let s1 := match s.diag.ac with
    | some a => if s.muted ∧ a.online = false then (s.acDrop (fun _ => true) stsOk).stopChan a.chan false else s
    | none => s
  (forEach (fun n s => if s.muted then (s.holdNow n).tryUnmute n else s.tryUnmute n) 12 s1).outShow

/-! Croaker slots and channels lost to them. -/

/-- The device powers the domain of a group for its own use (spec/14_power_states.md, R643). -/
def State.ownUse (s : State) (d : Nat) : State := (s.need d).getD s

/-- Every Off channel of a mask is started under AUTOSTART rules (R409). -/
def State.autostart (s : State) (m : Nat) : State :=
  forMask m (fun n s => if s.phase n = phOff then (s.ownUse (dmGroup (n / 4))).startChan n true else s) 12 s

/-- CRKLOST: the channel does not carry the slot; the slot is extended to CRKALT, and its Off channels start (spec/15_safety.md,
R661, R685, R686). -/
def State.crkLost (s : State) (k n : Nat) : State :=
  let s1 := s.outFault 0x30A 1 k n 0 true
  (if (s1.slot k).active then s1.autostart (s1.slotChans k &&& s1.masters (s1.rd F.SAFE_SM_CFG_CRKALT)) else s1).outShow

/-- A channel is lost through a fault: CRKLOST for each armed slot of it, while the croaker runs (spec/15_safety.md, R661,
R685). -/
def State.chanLost (s : State) (n : Nat) : State :=
  if s.croaks then
    forEach (fun k s => if (s.slot k).armed ∧ inMask (s.slotBase k) n then s.crkLost k n else s) 8 s
  else s

/-- A channel, with its slave, enters Fault hold with its legs Hi-Z; one with a stop that waits for it to be Off goes Off at
once (R379, R388, R416). -/
def State.faultHold (s : State) (ch why : Nat) : State :=
  let n := s.master ch
  let s1 := (s.modSpk n fun x => { x with why := why, start := false, run := 0, dcBad := false, stopWait := none, short := false })
  let s2 := (s1.setPhase n phFault).chanLost n
  if s2.out.waits.any (fun w => w.2.1 = n && w.2.2 = 1) then s2.unhold n else s2

/-- Whether ALERT pin `p` reads active: as filtered, or held high by its voter; as a pair under ALTPAIR (spec/15_safety.md,
R664, R669). -/
def State.alertLevel (s : State) (p : Nat) : Bool := inMask (s.rd F.OUT_CRK_STAT_ALERT) p || inMask s.out.alertHeld p

def State.alertOn (s : State) (p : Nat) : Bool :=
  if p < 2 ∧ s.out.pairStuck then true
  else if p < 2 ∧ s.on F.SAFE_SM_CFG_ALTPAIR then s.alertLevel 0 && !s.alertLevel 1
  else s.alertLevel p

/-- Whether a mapped ALERT pin asks for a slot (R408). -/
def State.slotWanted (s : State) (k : Nat) : Bool :=
  (s.slot k).kind ≠ 0 && s.croaks && (List.range 4).any fun p => inMask (s.slot k).map p && s.alertOn p

/-- A slot becomes active, or is asked for again while active (R407 to R409; spec/15_safety.md, R685, R686). -/
def State.slotStart (s : State) (k : Nat) (alert : Bool) : State :=
  let c := s.slot k
  let s1 := s.modSlot k fun c => if c.active then { c with again := true } else { c with active := true, again := false, mark := s.now }
  let s2 := if alert ∧ c.auto then s1.autostart (s1.slotBase k) else s1
  let s3 := if s2.extended k then s2.autostart (s2.masters (s2.rd F.SAFE_SM_CFG_CRKALT)) else s2
  if c.active then s3.outShow
  else
    (forMask (s3.slotBase k) (fun n s => if held (s.phase n) ∨ (s.phase n = phOff ∧ (s.spk n).start = false) then s.crkLost k n else s)
      12 s3).outShow

/-- The slots follow the ALERT pins (R408). -/
def State.alertEval (s : State) : State :=
  (forEach (fun k s =>
    let w := s.slotWanted k
    let was := (s.slot k).want
    let s1 := s.modSlot k fun c => { c with want := w }
    if w ∧ was = false then s1.slotStart k true else s1) 8 s).outShow

/-- A slot ends (R407, R408). -/
def State.slotEnd (s : State) (k : Nat) : State :=
  (s.modSlot k fun c => { c with active := false, again := false, left := 0, forever := false }).outShow

end Sys2Proof.Machine
end

