-- ==== Sys2Proof/Machine/HpCv.lean ====
section
/-!
DEFINITION. The headphone and line outputs and the CV DAC (spec/12_headphone_line_cv.md).
-/

namespace Sys2Proof.Machine

/-! Headphone (0) and line (1) outputs (R572 to R578). Phases of HPPHASE and LOPHASE. -/

def hoOff : Nat := 0
def hoPump : Nat := 1
def hoRelease : Nat := 2
def hoHold : Nat := 3
def hoUnmute : Nat := 4
def hoPlay : Nat := 5
def hoMute : Nat := 6
def hoShort : Nat := 7

def hoField (o : Nat) : Field := if o = 0 then F.OUT_HPL_STAT_HPPHASE else F.OUT_HPL_STAT_LOPHASE
def enField (o : Nat) : Field := if o = 0 then F.OUT_HPL_CFG_HPEN else F.OUT_HPL_CFG_LOEN

def State.hoPhase (s : State) (o : Nat) : Nat := s.rd (hoField o)
def State.hpx (s : State) (o : Nat) : HpX := vat s.hp o
def State.modHp (s : State) (o : Nat) (f : HpX → HpX) : State := { s with hp := vmod s.hp o f }

/-- Whether JMODE holds an output (R576). -/
def State.jackHolds (s : State) (o : Nat) : Bool :=
  let m := s.rd F.OUT_HPL_CFG_JMODE
  if o = 0 then (m = 1 || m = 2) && !s.on F.SAFE_JACK_STAT_PLUG else m = 2 && s.on F.SAFE_JACK_STAT_PLUG

/-- JHOLD follows the outputs (R576). -/
def State.showJhold (s : State) : State :=
  s.wr F.OUT_HPL_STAT_JHOLD (b2n ((s.hoPhase 0 = hoHold && s.jackHolds 0) || (s.hoPhase 1 = hoHold && s.jackHolds 1)))

/-- The pending HPLINE_CFG commands that wait for no output any more end with ST_OK (R578). -/
def State.hpPoll (s : State) : State :=
  s.finishAll (fun e => e.opcode = 0x310 && !s.hpcv.waits.any (fun w => w.1 = e.slot)) stsOk 0

/-- The waits that an output's present phase answers: past Release for a start, Off for a stop (R578). -/
def hoMet (ph kind : Nat) : Bool := if kind = 1 then ph = hoOff else decide (hoHold ≤ ph ∧ ph ≤ hoMute)

/-- An output's phase; what waits for it follows. -/
def State.setHo (s : State) (o ph : Nat) : State :=
  let s1 := s.wr (hoField o) ph
  let left := s1.hpcv.waits.filter fun (w : Nat × Nat × Nat) => ¬ (w.2.1 = o ∧ hoMet ph w.2.2 = true)
  { s1 with hpcv := { s1.hpcv with waits := left } }.hpPoll.showJhold

/-- FADE in ticks (OUT_HPL_CFG). -/
def State.hoFade (s : State) : Nat := msTicks * max 1 (min 100 (s.rd F.OUT_HPL_CFG_FADE))

/-- Where an output's gain ramp stands (R574). -/
def State.hoPos (s : State) (o : Nat) : Nat :=
  let x := s.hpx o
  if s.hoPhase o = hoUnmute then min s.hoFade (x.pos + (s.now - x.mark)) else x.pos - (s.now - x.mark)

/-- A gain ramp begins or is reversed at place `pos`. -/
def State.hoRamp (s : State) (o ph pos : Nat) : State :=
  (s.modHp o fun x => { x with mark := s.now, pos := pos }).setHo o ph

/-- Whether an output may run Unmute (R573, R576). -/
def State.hoMay (s : State) (o : Nat) : Bool := s.unmutes && !s.jackHolds o

/-- An output in Hold runs Unmute where nothing holds it, and one in Mute returns to it (R573, R574, R577). -/
def State.hoTry (s : State) (o : Nat) : State :=
  if (s.hpx o).on ∧ s.hoMay o then
    if s.hoPhase o = hoHold then s.hoRamp o hoUnmute 0
    else if s.hoPhase o = hoMute then s.hoRamp o hoUnmute (s.hoPos o)
    else s
  else s

/-- An output runs Mute because of its jack, a departure from PLAY or a disable (R573). -/
def State.hoMuteNow (s : State) (o : Nat) : State :=
  if s.hoPhase o = hoPlay then s.hoRamp o hoMute s.hoFade
  else if s.hoPhase o = hoUnmute then s.hoRamp o hoMute (s.hoPos o)
  else s

/-- The pump mode that the enabled outputs require: 2 from AVDD for a line output, 1 from HPVDD for the headphone output alone
(R572). -/
def State.pumpWant (s : State) : Nat := if (s.hpx 1).on then 2 else if (s.hpx 0).on then 1 else 0

/-- An enabled output that is Off begins (R573). -/
def State.hoBegin (s : State) (o : Nat) : State :=
  if s.pumpWant ≤ s.rd F.OUT_HPL_STAT_PUMP then s.setHo o hoRelease else s.setHo o hoPump

/-- An enable of an output (R573, R574). -/
def State.hoStart (s : State) (o : Nat) : State :=
  let s1 := s.modHp o fun x => { x with on := true }
  if s.hoPhase o = hoOff then s1.hoBegin o else s1.hoTry o

/-- A disable of an output (R573, R574): Pump, Release and Short finish. -/
def State.hoStop (s : State) (o : Nat) : State :=
  let s1 := s.modHp o fun x => { x with on := false }
  if s.hoPhase o = hoHold then s1.setHo o hoShort else s1.hoMuteNow o

/-- The outputs follow HPEN and LOEN; nothing is enabled in a chip safe state (R573; spec/15_safety.md, R675). -/
def State.hplChanged (s : State) : State :=
  (forEach (fun o s =>
    if s.on (enField o) ∧ (s.hpx o).on = false then (if s.chipSafe then s else s.hoStart o)
    else if s.on (enField o) = false ∧ (s.hpx o).on then s.hoStop o
    else s) 2 s).showJhold

/-- The outputs follow JMODE and the jack (R576, R577). -/
def State.hpJack (s : State) : State :=
  (forEach (fun o s => if s.jackHolds o then s.hoMuteNow o else s.hoTry o) 2 s).showJhold

/-- Every output runs Mute as the device leaves PLAY (R573). -/
def State.hpMuteAll (s : State) : State := forEach (fun o s => s.hoMuteNow o) 2 s

/-- Every output runs to Off as the device leaves IDLE (R575). -/
def State.hpStopAll (s : State) : State := forEach (fun o s => s.hoStop o) 2 s

/-- Outputs held at 0 V under reaction M, and run to Short under O (spec/15_safety.md, R673). -/
def State.hpSafe (s : State) (off : Bool) : State :=
  forEach (fun o s =>
    if off then (if s.hoPhase o = hoOff then s else (s.modHp o fun x => { x with on := false }).setHo o hoShort)
    else if s.hoPhase o = hoUnmute ∨ s.hoPhase o = hoPlay ∨ (s.hoPhase o = hoMute ∧ (s.hpx o).on) then s.setHo o hoHold
    else s) 2 s

/-- HP_PUMP_DONE (R572, R573): HPVSS has reached its target, and each output that waits for it goes on to Release. -/
def execHpPumpDone (s : State) : Host.Outcome State Fault Refusal :=
  if s.hoPhase 0 = hoPump ∨ s.hoPhase 1 = hoPump then
    let mode := if s.hoPhase 1 ≠ hoOff ∧ s.hoPhase 1 ≠ hoShort then 2 else max 1 (s.rd F.OUT_HPL_STAT_PUMP)
    .next (forEach (fun o s => if s.hoPhase o = hoPump then s.setHo o hoRelease else s) 2 (s.wr F.OUT_HPL_STAT_PUMP mode))
  else .next s

/-- HP_RELEASE_DONE (R573). -/
def execHpReleaseDone (line : Bool) (s : State) : Host.Outcome State Fault Refusal :=
  let o := b2n line
  if s.hoPhase o ≠ hoRelease then .next s
  else if (s.hpx o).on then .next ((s.setHo o hoHold).hoTry o)
  else .next (s.setHo o hoShort)

/-- HP_UNMUTE_DONE (R573). -/
def execHpUnmuteDone (line : Bool) (s : State) : Host.Outcome State Fault Refusal :=
  .next (if s.hoPhase (b2n line) = hoUnmute then s.setHo (b2n line) hoPlay else s)

/-- HP_MUTE_DONE (R573). -/
def execHpMuteDone (line : Bool) (s : State) : Host.Outcome State Fault Refusal :=
  let o := b2n line
  if s.hoPhase o ≠ hoMute then .next s
  else if (s.hpx o).on then .next ((s.setHo o hoHold).hoTry o)
  else .next (s.setHo o hoShort)

/-- HP_SHORT_DONE (R572 to R574): the output is Off, or begins again where it has been enabled meanwhile; the pump stops when no
output is enabled, and changes source when no line output is. -/
def execHpShortDone (line : Bool) (s : State) : Host.Outcome State Fault Refusal :=
  let o := b2n line
  if s.hoPhase o ≠ hoShort then .next s
  else
    let s1 := s.setHo o hoOff
    let other := s1.hoPhase (1 - o) ≠ hoOff
    let mode := if other = false then 0 else if o = 1 then min 1 (s1.rd F.OUT_HPL_STAT_PUMP) else s1.rd F.OUT_HPL_STAT_PUMP
    let s2 := s1.wr F.OUT_HPL_STAT_PUMP (if (s.hpx o).on ∧ o = 1 then s1.rd F.OUT_HPL_STAT_PUMP else mode)
    .next (if (s.hpx o).on then s2.hoBegin o else s2)

def cardHplineCfg : CmdSpec := ⟨0x310, 3, 3, false, true, true, false, false, false, true⟩

/-- The word of OUT_HPL_CFG that HPLINE_CFG asks for. -/
def State.hplWord (s : State) (ws : List Word) : Word :=
  let w0 := s.reg Reg.OUT_HPL_CFG
  let w1 := if pb ws 2 1 then putBits w0 0 16 (pf ws 0 0 16) else w0
  if pb ws 2 0 then putBits (putBits (putBits w1 30 2 (pf ws 0 30 2)) 24 2 (pf ws 0 24 2)) 16 8 (pf ws 0 16 8) else w1

/-- A pending HPLINE_CFG whose start or stop of an output the word reverses (R578). -/
def State.hplReversed? (s : State) (w : Word) : Option PendEntry :=
  s.pap.slots.find? fun e => e.opcode = 0x310 && e.done.isNone && s.hpcv.waits.any fun v =>
    v.1 = e.slot && (if v.2.1 = 0 then bit w 31 else bit w 30) = decide (v.2.2 = 1)

/-- The waits of an HPLINE_CFG that changes what is enabled: `s0` is the state before it. -/
def State.addHpWaits (s s0 : State) : State :=
  let slot := s.freeSlot?.getD 8
  let ws := (List.range 2).filterMap fun o =>
    if (s.hpx o).on = (s0.hpx o).on ∨ hoMet (s.hoPhase o) (b2n (!(s.hpx o).on)) then none else some (slot, o, b2n (!(s.hpx o).on))
  { s with hpcv := { s.hpcv with waits := s.hpcv.waits ++ ws } }

/-- HPLINE_CFG (R574, R578; spec/15_safety.md, R675). -/
def execHplineCfg (p : Packet) (s : State) : Host.Outcome State Fault Refusal :=
  .next (s.take cardHplineCfg p (fun s =>
    let w := s.hplWord p.payload
    let starts := (List.range 2).any fun o => (if o = 0 then bit w 31 else bit w 30) && !(s.hpx o).on
    let stops := (List.range 2).any fun o => (if o = 0 then !bit w 31 else !bit w 30) && (s.hpx o).on
    if s.chipSafe ∧ starts then .refuse stsDenied 2
    else
      match s.pendFor? [.hpline], s.hplReversed? w with
      | some e, none => busyWith e
      | old, _ => s.withDomains [dmHpLine] fun s =>
        let s1 := match old with
          | some e => ({ s with hpcv := { s.hpcv with waits := s.hpcv.waits.filter (fun v => v.1 ≠ e.slot) } }).finish e stsOk 0 [] []
          | none => s
        let s2 := (s1.putReg Reg.OUT_HPL_CFG w).hplChanged.hpJack
        if starts ∨ stops then .pend [] [.hpline] (s2.addHpWaits s1) else .ok s2) State.hpPoll)

/-! CV DAC (R579 to R590). -/

def State.cvx (s : State) (n : Nat) : CvX := vat s.cv n
def State.modCv (s : State) (n : Nat) (f : CvX → CvX) : State := { s with cv := vmod s.cv n f }

/-- MODE as taken: 3 is not used (OUT_CVn_CFG). -/
def State.cvMode (s : State) (n : Nat) : Nat := s.rd (F.OUT_CV_CFG_MODE n) % 3

/-- The voltage that a code gives a channel, as a fraction in µV: the code over 65536 of VREF = 1.25 V, or of 2 * VREF with GAIN; 0 V in MODE 0
(R579, R580). -/
def State.cvVolts (s : State) (n code : Nat) : Nat × Nat :=
  if s.cvMode n = 0 then (0, 65536) else (code * 1250000 * (1 + s.rd (F.OUT_CV_CFG_GAIN n)), 65536)

/-- The present code of a channel: the one a deglitch hold keeps waiting, or the one at the output. -/
def State.cvCode (s : State) (n : Nat) : Nat := (s.cvx n).wait.getD (s.rd (F.OUT_CV_STAT_OUTCODE n))

/-- A channel is updated to a code; a change of bits [15:12] goes through the deglitcher (R582). -/
def State.cvPut (s : State) (n c : Nat) : State :=
  if s.on (F.OUT_CV_STAT_DEGL n) then s.modCv n fun x => { x with wait := some c }
  else if c / 4096 ≠ s.rd (F.OUT_CV_STAT_OUTCODE n) / 4096 then
    (s.modCv n fun x => { x with wait := some c }).set1 (F.OUT_CV_STAT_DEGL n)
  else s.wr (F.OUT_CV_STAT_OUTCODE n) c

/-- The CV channel that a register belongs to. -/
def cvOwner (a : Nat) : Option Nat := if 0x305000 ≤ a ∧ a < 0x305080 then some ((a - 0x305000) / 0x20) else none

/-- Whether a channel drives CVCLR (R583; spec/15_safety.md, R672, R673). -/
def State.cvClears (s : State) (n : Nat) : Bool :=
  s.cvMode n ≠ 0 && (s.hpcv.clrLow || s.rd F.SAFE_SM_STAT_CSS = 2 || s.link.cfgpar.any (fun e => cvOwner e.1 = some n))

/-- The largest multiple of one rational nearest to it, ties open (log entry 1). -/
def roundNear (n d : Nat) : Nat := if 2 * (n % d) = d then roundFree n d else (2 * n + d) / (2 * d)

/-- Units of Pa per 0.1 V. -/
def paUnit : Nat := 1411200

/-- The tracking code of a Pa (R585); PMAX not above PMIN leaves it open (log entry 1). -/
def State.trackCode (s : State) (n pa : Nat) : Nat :=
  let lo := paUnit * s.rd (F.OUT_CV_LIM_PMIN n)
  let hi := paUnit * s.rd (F.OUT_CV_LIM_PMAX n)
  let c0 := s.rd (F.OUT_CV_MAP_CODEMIN n)
  let c1 := s.rd (F.OUT_CV_MAP_CODEMAX n)
  if hi ≤ lo ∨ pa < lo ∨ hi < pa then s.free.toNat % 2 ^ 16
  else roundNear (c0 * (hi - pa) + c1 * (pa - lo)) (hi - lo)

/-- What a channel's output moves toward (R580, R584). -/
def State.cvTarget (s : State) (n : Nat) : Nat :=
  if s.cvMode n = 0 ∨ (s.cvx n).parked then 0
  else if s.cvMode n = 1 then s.rd (F.OUT_CV_CFG_CODE n)
  else (s.cvx n).target

/-- A channel's output follows its mode, CLR_N and its target; with SLEW 0 at once (R580 to R583). -/
def State.cvSettle (s : State) (n : Nat) : State :=
  let clr := s.cvClears n
  let t := s.cvTarget n
  let s1 := s.wr (F.OUT_CV_STAT_CLR n) (b2n clr)
  let s2 :=
    if clr then (if s1.cvCode n = s1.rd (F.OUT_CV_AUX_CVCLR n) then s1 else s1.cvPut n (s1.rd (F.OUT_CV_AUX_CVCLR n)))
    else if (s1.cvMode n = 0 ∨ s1.rd (F.OUT_CV_CFG_SLEW n) = 0) ∧ s1.cvCode n ≠ t then s1.cvPut n t
    else s1
  s2.wr (F.OUT_CV_STAT_SLEWING n) (b2n (!clr && s2.cvCode n ≠ t))

/-- Every channel settles. -/
def State.cvSettleAll (s : State) : State := forEach (fun n s => s.cvSettle n) 4 s

/-- A slewing channel moves for `k` ticks of 24.576 MHz by SLEW codes per µs (R581). -/
def State.cvSlew (s : State) (n k : Nat) : State :=
  if s.on (F.OUT_CV_STAT_SLEWING n) then
    let acc := (s.cvx n).frac + k * 1000 * s.rd (F.OUT_CV_CFG_SLEW n)
    let step := acc / 24576
    let c := s.cvCode n
    let t := s.cvTarget n
    let c1 := if c < t then min t (c + step) else max t (c - step)
    let s1 := s.modCv n fun x => { x with frac := if c1 = t then 0 else acc % 24576 }
    (if c1 = c then s1 else s1.cvPut n c1).cvSettle n
  else s

/-- CV_DEGLITCH_END (R582). -/
def execCvDeglitchEnd (n : Fin 4) (s : State) : Host.Outcome State Fault Refusal :=
  match (s.cvx n.val).wait with
  | some c => .next (((s.modCv n.val fun x => { x with wait := none }).clr (F.OUT_CV_STAT_DEGL n.val)).wr (F.OUT_CV_STAT_OUTCODE n.val) c)
  | none => .next s

/-- CLR_N_FALL (R583). -/
def execClrNFall (s : State) : Host.Outcome State Fault Refusal :=
  .next { s with hpcv := { s.hpcv with clrLow := true } }.cvSettleAll

/-- CLR_N_RISE (R583). -/
def execClrNRise (s : State) : Host.Outcome State Fault Refusal :=
  .next { s with hpcv := { s.hpcv with clrLow := false } }.cvSettleAll

/-- OUT_CVn_CFG as written: GAIN stays while MODE is not 0 (R584); Pa reads 0 outside MODE 2, and the channel is configured
again. -/
def State.cvWrite (s : State) (n : Nat) (w : Word) : State :=
  let w1 := if s.cvMode n = 0 then w else putBits w 29 1 (s.rd (F.OUT_CV_CFG_GAIN n))
  let s1 := (s.setReg (Reg.OUT_CV_CFG n) w1).modCv n fun x => { x with parked := false }
  let s2 := if s1.cvMode n = 2 then s1 else (s1.modCv n fun x => { x with pa := 0, target := 0 }).wr (F.OUT_CV_STAT_PA n) 0
  s2.cvSettle n

def cardCvCfg : CmdSpec := ⟨0x320, 4, 4, false, true, true, false, false, false, true⟩

/-- The word of OUT_CVn_CFG that CV_CFG asks for. -/
def State.cvWord (s : State) (n : Nat) (ws : List Word) : Word :=
  let w0 := s.reg (Reg.OUT_CV_CFG n)
  let w1 := if pb ws 3 1 then putBits w0 29 3 (pf ws 1 29 3) else w0
  if pb ws 3 0 then putBits (putBits w1 16 8 (pf ws 1 16 8)) 0 16 (pf ws 1 0 16) else w1

/-- CV_CFG (R584, R589). -/
def execCvCfg (p : Packet) (s : State) : Host.Outcome State Fault Refusal :=
  s.card cardCvCfg p fun s =>
    let ws := p.payload
    let ns := indices 4 (inMask (pf ws 0 0 4))
    if pf ws 0 0 4 = 0 then .bad 0
    else if pb ws 3 1 ∧ ns.any (fun n => s.cvMode n ≠ 0 && pf ws 1 29 1 ≠ s.rd (F.OUT_CV_CFG_GAIN n)) then .refuse stsDenied 2
    else s.unlessBusy (ns.map Target.cv) <| s.withDomains [dmCv] fun s =>
      .ok (ns.foldl (fun (s : State) n =>
        let s1 := if pb ws 3 2 then s.putReg (Reg.OUT_CV_AUX n) (putBits (s.reg (Reg.OUT_CV_AUX n)) 0 16 (pf ws 2 0 16)) else s
        ((s1.cvWrite n (s1.cvWord n ws)).fits (Reg.OUT_CV_CFG n)).cvSettle n) s)

def cardCvTrack : CmdSpec := ⟨0x321, 3, 3, false, true, true, false, false, false, true⟩

/-- CV_TRACK (R588, R590). -/
def execCvTrack (p : Packet) (s : State) : Host.Outcome State Fault Refusal :=
  s.card cardCvTrack p fun s =>
    let ws := p.payload
    let n := pf ws 0 0 2
    let lo := pf ws 2 0 9
    let hi := pf ws 2 16 9
    if hi < lo ∨ lo < 45 ∨ 300 < lo ∨ hi < 45 ∨ 300 < hi then .bad 2
    else s.unlessBusy [.cv n] <| s.withDomains [dmCv] fun s =>
      .ok ((((s.putReg (Reg.OUT_CV_AUX n) (putBits (s.reg (Reg.OUT_CV_AUX n)) 16 16 (pf ws 0 16 16))).putReg (Reg.OUT_CV_MAP n)
        (pw ws 1)).putReg (Reg.OUT_CV_LIM n) (pw ws 2 &&& 0x01FF01FF)).cvSettle n)

/-- Whether any group that names CV channel `n` is pinned by LOOP_PIN loop 1 (R587). -/
def State.cvPinned (s : State) (n : Nat) : Bool :=
  (List.range 3).any fun g => s.pap.pinTrack.getLsbD g && s.rd (F.OUT_G_CFG_CVSEL g) = n

/-- One Fg period of tracking with demand `d` in units of Pa (R585, R587). -/
def State.cvTrackStep (s : State) (n d : Nat) : State :=
  let pin := s.cvPinned n
  let s1 := s.wr (F.OUT_CV_STAT_PINNED n) (b2n (pin && s.cvMode n = 2))
  if s1.cvMode n ≠ 2 ∨ pin then s1
  else
    let lo := paUnit * s1.rd (F.OUT_CV_LIM_PMIN n)
    let hi := paUnit * s1.rd (F.OUT_CV_LIM_PMAX n)
    let want := min hi (max lo (d + paUnit * s1.rd (F.OUT_CV_AUX_HEAD n)))
    let fall := max 1 (s1.rd (F.OUT_CV_AUX_REL n)) * 10 * paUnit / s1.fg
    let pa := max want ((s1.cvx n).pa - fall)
    let t := s1.trackCode n pa
    let s2 := (s1.drawn.modCv n fun x => { x with pa := pa, target := t }).wr (F.OUT_CV_STAT_PA n) (roundFree pa paUnit)
    s2.cvSettle n

end Sys2Proof.Machine
end

