-- ==== Sys2Proof/Machine/SecCore.lean ====
section
/-!
DEFINITION. Fuses as the device reads them (spec/16_security.md, R700 to R706), signed images (R709 to R711) and rollback
counts (R712).
-/

namespace Sys2Proof.Machine

open Crypto (bytesOf shaWords)

/-- The shadow of fuse word `i` (R704). -/
def State.fuse (s : State) (i : Nat) : Word := vat s.sec.shadow i

/-- The lifecycle code (R700, R701): 0 RAW, 1 PROVISION, 2 PRODUCTION, 3 RMA. -/
def State.lifecycle (s : State) : Nat := s.rd F.CTL_SEC_STAT_LC

/-- The root hash with index `k`: two customer roots in fuses, Bydoxon's key in ROM (R703, R710). -/
def State.rootHash (s : State) (k : Nat) : List Word :=
  if k = 2 then (List.range 8).map Config.bydoxonHash else (List.range 8).map fun i => s.fuse (4 + 8 * k + i)

/-- Whether customer root `k` is programmed (R711). -/
def State.rootProgrammed (s : State) (k : Nat) : Bool := (s.rootHash k).any (· ≠ 0)

/-- Whether REVOKE names a key (R703, R710). -/
def State.revoked (s : State) (k : Nat) : Bool := k ≤ 1 && bit (s.fuse 3) k

/-- Whether any valid signature serves for a graph or model image (R700, R711). -/
def State.anySigner (s : State) : Bool :=
  s.lifecycle = 0 || (s.lifecycle = 1 && !s.rootProgrammed 0 && !s.rootProgrammed 1)

/-- Whether a signature block over the words before it is one that R709 and R710 accept, leaving aside which key R700 admits;
`any` skips the root-hash check. -/
def State.blockValid (s : State) (msg block : List Word) (any : Bool) : Bool :=
  let k := pf block 1 0 4
  let q := (block.drop 2).take 16
  block.length = 34 && pw block 0 = 0x53474E31 && pf block 1 8 8 = 1 && k ≤ 2
    && Crypto.ecdsa q ((block.drop 18).take 16) (shaWords msg)
    && (any || shaWords q = s.rootHash k) && !s.revoked k

/-- Whether a graph or model image carries a signature that the device accepts (R700, R709 to R711). -/
def State.modelSigned (s : State) (img : List Word) : Bool :=
  let n := img.length - 34
  let block := img.drop n
  let k := pf block 1 0 4
  decide (34 < img.length) && s.lifecycle ≠ 3 && s.blockValid (img.take n) block s.anySigner
    && (s.anySigner || (k ≤ 1 && s.rootProgrammed k))

/-- The number of set bits of a word. -/
def popcount (w : Word) : Nat := (indices 32 (fun i => bit w i)).length

/-- The rollback counts of R712. -/
def State.fwRoll (s : State) : Nat := s.rd F.CTL_SEC_ROLL_FWROLL
def State.graphRoll (s : State) : Nat := s.rd F.CTL_SEC_ROLL_GRAPHROLL
def State.wkdRoll (s : State) : Nat := s.rd F.CTL_SEC_ROLL_WKDROLL

end Sys2Proof.Machine
end

