-- ==== Sys2Proof/Machine/React.lean ====
section
/-!
DEFINITION. Chip level: the reactions of spec/15_safety.md (R671, R673 to R676, R688).
-/

namespace Sys2Proof.Machine

/-- Chip reactions (R673). S is that of a start-up that does not reach READY (R715). -/
inductive Reaction where
  | n
  | m
  | o
  | f
  deriving DecidableEq, Repr

/-- The reaction that a fault code names for a fault at chip level (R682, R684, R688). A DEADLINE, in `detail`, takes that of the
late fault, O for an OUT fault (R26). -/
def reactionOf (code unit detail : Nat) : Reaction :=
  let c := if code = 0x702 then detail else code
  if code = 0x702 ∧ c / 256 = 3 then .o
  else if c ≤ 2 ∨ (0x201 ≤ c ∧ c ≤ 0x204) ∨ c = 0x502 ∨ c = 0x706 ∨ (c = 0x505 ∧ unit = 0) then .m
  else if c = 0x207 ∨ c = 0x501 ∨ c = 0x503 ∨ c = 0x704 ∨ c = 0xA01 ∨ (c = 0x505 ∧ (unit = 1 ∨ unit = 3)) ∨ (c = 0x602 ∧ unit ≤ 1)
  then .o
  else if c = 0x504 ∨ (c = 0x505 ∧ unit = 2) then .f
  else .n

/-- Whether a chip safe state that this fault causes ends only at reset (R676). -/
def reactionFixed (code unit : Nat) : Bool := code = 0x704 || code = 0x207 || (code = 0x602 && unit ≤ 1)

/-- A chip safe state holds or is entered: CSS, the level of every region, no fault at work in a region but a restart of the supervisor or
the monitor that has begun (spec/01_architecture.md, R28; log entry 68), the transition under way to end with its step (R624),
EVT_SAFE_STATE. -/
def State.chipState (s : State) (mode recno region code unit : Nat) : State :=
  let s1 := forEach (fun r s => s.wr (errLevel r) 4) 5
    { s with saf := { s.saf with work := s.saf.work.filter Work.restarts, cause := recno, causeAt := (region, code, unit), fixed := s.saf.fixed || reactionFixed code unit } }
  let s2 := { s1 with pwr := { s1.pwr with halt := s1.on F.PWR_STATE_TRANS } }
  ((s2.wr F.SAFE_SM_STAT_CSS mode).showFn).raiseSafe 1 2 mode region recno code unit

/-- Reaction M: channels in Unmute or Play enter Hold, the headphone and line amplifiers are held at 0 V (R673). -/
def State.reactM (s : State) (recno region code unit : Nat) : State :=
  if s.chipSafe then { s with saf := { s.saf with fixed := s.saf.fixed || reactionFixed code unit } }
  else ((forEach (fun n s => s.holdNow n) 12 (s.chipState 1 recno region code unit)).hpSafe false).outShow

/-- Reaction O: every channel not Off enters Fault hold, the headphone and line outputs run Short, CVCLR is driven, the croaker is
lost (R673). -/
def State.reactO (s : State) (recno region code unit : Nat) : State :=
  if s.rd F.SAFE_SM_STAT_CSS = 2 then { s with saf := { s.saf with fixed := s.saf.fixed || reactionFixed code unit } }
  else
    let s1 := s.chipState 2 recno region code unit
    let s2 := forEach (fun n s =>
      if s.phase n = phOff ∨ s.phase n = phSlave ∨ held (s.phase n) then s.modSpk n fun x => { x with start := false }
      else s.faultHold n code) 12 s1
    ((s2.hpSafe true).cvSettleAll).outShow

/-- Reaction F: every enabled group changes to the fallback carrier, and placement stops (R671). -/
def State.reactF (s : State) (recno region code unit : Nat) : State :=
  if s.on F.SAFE_SM_STAT_FALLBACK then s
  else
    let c := { s.clk with ramp := none, due := false, placing := false, settling := false, stepping := false, gateLeft := 0 }
    let s1 := (({ s with clk := c }.set1 F.SAFE_SM_STAT_FALLBACK).wr F.OUT_SW_STAT_GATE 0).clr F.OUT_SW_STAT_RAMP
    let s2 := s1.finishAll (fun e => e.opcode = 0x501 || e.opcode = 0x510 || e.opcode = 0x500) stsDenied 2
    (s2.raiseSafe 1 2 3 region recno code unit).outShow

/-- The record of a fault that drove FAULT_N low by its chip reaction (R679, R691). -/
def State.markFn (s : State) (recno : Nat) : State :=
  { s with saf := { s.saf with recs := s.saf.recs.map fun (q : FaultRec) => if q.recno = recno then { q with fn := true } else q } }

/-- A chip reaction is carried out; ESCMODE takes M as O (R674). Reactions M and O drive FAULT_N low (R679). -/
def State.react (s : State) (r : Reaction) (recno region code unit : Nat) : State :=
  match r with
  | .n => s
  | .m =>
    let s1 := s.markFn recno
    if s.rd F.SAFE_SM_CFG2_ESCMODE = 0 then s1.reactM recno region code unit else s1.reactO recno region code unit
  | .o => (s.markFn recno).reactO recno region code unit
  | .f => s.reactF recno region code unit

/-- A recorded fault is passed to chip level: the region's collector, then the reaction (spec/01_architecture.md, R24; R673). -/
def State.passUp (s : State) (f : FaultInfo) : State :=
  (s.escalated f.region).react (reactionOf f.code f.unit f.detail) (s.recnoOf f.code f.unit) f.region f.code f.unit

/-- A fault reaches chip level: it is recorded with level 4 and takes its reaction. -/
def State.toChip (s : State) (f : FaultInfo) : State := (s.fault { f with level := 4 }).passUp f

/-- A fault reaches chip level and takes a reaction other than the one that its code alone names (R604, R609, R677). -/
def State.toChipAs (s : State) (r : Reaction) (f : FaultInfo) : State :=
  let s1 := (s.fault { f with level := 4 }).escalated f.region
  s1.react r (s1.recnoOf f.code f.unit) f.region f.code f.unit

end Sys2Proof.Machine
end

