-- ==== Sys2Proof/Machine/GraphImage.lean ====
section
/-!
DEFINITION. Graph images: header, tables, the checks of GRAPH_LOAD and the leap margin (spec/06_engines_leap.md, R270, R271,
R287, R301 to R303, R801).
-/

namespace Sys2Proof.Machine

open Crypto (shaWords)

/-! Header fields (R270). -/

def GImage.word (g : GImage) (i : Nat) : Word := pw g.head i
def GImage.fgc (g : GImage) : Nat := pf g.head 4 28 4
def GImage.bc (g : GImage) : Nat := pf g.head 4 24 4
def GImage.stages (g : GImage) : Nat := pf g.head 4 20 4
def GImage.count (g : GImage) : Nat := pf g.head 4 16 4
def GImage.nra (g : GImage) : Nat := pf g.head 5 0 16
def GImage.nraMin (g : GImage) : Nat := pf g.head 5 16 16
def GImage.leapMap (g : GImage) : Word := g.word 6
def GImage.ringMap (g : GImage) : Nat := pf g.head 7 16 16
def GImage.wfb (g : GImage) (l : Nat) : Nat := pf g.head (8 + l) 16 16
def GImage.w (g : GImage) (l : Nat) : Nat := pf g.head (8 + l) 0 16

/-- Samples per block. -/
def GImage.block (g : GImage) : Nat := 8 * 2 ^ g.bc

/-- The graph rate in Hz. -/
def GImage.rate (g : GImage) : Nat := [48000, 96000, 44100, 88200].getD g.fgc 48000

/-! Tables (R801). -/

/-- The word index of section `k` (header words 16 to 23). -/
def secAt (img : List Word) (k : Nat) : Nat := (pw img (16 + k)).toNat / 4

def parseEngine (img : List Word) (l : Nat) : GEngine :=
  let b := secAt img 0 + 4 * l
  ⟨(pw img b).toNat, pf img (b + 1) 0 16, (pw img (b + 2)).toNat, pf img (b + 3) 0 16⟩

def parseTask (img : List Word) (t : Nat) : GTask :=
  let b := secAt img 1 + 4 * t
  let nin := pf img (b + 2) 8 8
  let nout := pf img (b + 2) 0 8
  { num := pf img b 24 8, leng := pf img b 16 4, stage := pf img b 12 4, prio := pf img b 8 2, zero := pb img b 0,
    entry := (pw img (b + 1)).toNat, nin := nin, nout := nout,
    ports := (img.drop ((pw img (b + 3)).toNat / 4)).take (nin + nout) }

def parseRegion (img : List Word) (r : Nat) : GRegion :=
  let b := secAt img 2 + 3 * r
  ⟨pf img b 16 16, pf img b 12 4, pf img b 0 4, (pw img (b + 1)).toNat, pf img (b + 2) 0 16⟩

def parseRing (img : List Word) (r : Nat) : GRing :=
  let b := secAt img 3 + 2 * r
  ⟨pf img b 24 8, pf img b 16 5, pf img b 8 4, pf img (b + 1) 8 13⟩

def parseLeap (img : List Word) (c : Nat) : GLeap :=
  let b := secAt img 4 + c
  ⟨pf img b 24 8, pf img b 16 4, pf img b 0 8⟩

/-- The fallback plans, one after another: a header word, then its entries. -/
def parseFalls (img : List Word) : Nat → Nat → List GFall
  | 0, _ => []
  | k + 1, b =>
    let n := pf img b 0 8
    ⟨pf img b 28 4, (List.range n).map fun i => (pf img (b + 1 + i) 24 8, pf img (b + 1 + i) 20 4)⟩
      :: parseFalls img k (b + 1 + n)

/-- A graph image read from its words; `ofs` is its place in the shared-bank space and `len` its length in bytes. -/
def parseGraph (ofs len : Nat) (img : List Word) : GImage :=
  let e := pf img 4 16 4
  { digest := shaWords img, ofs := ofs, len := len, head := img.take 32
    engines := (List.range e).map (parseEngine img)
    tasks := (List.range (pf img 4 8 8)).map (parseTask img)
    regions := (List.range (pf img 4 0 8)).map (parseRegion img)
    rings := (List.range (popcount (w32 (pf img 7 16 16)))).map (parseRing img)
    leaps := (List.range (popcount (pw img 6))).map (parseLeap img)
    falls := parseFalls img e (secAt img 5) }

/-! Ports (R801): the kind, the ring or leap channel, the first channel and the channel count of a port word. -/

def portLeap (w : Word) : Bool := bit w 31
def portIdx (w : Word) : Nat := bits w 16 5
def portFirst (w : Word) : Nat := bits w 8 8
def portCount (w : Word) : Nat := if portLeap w then 1 else bits w 0 8

def GTask.inPorts (t : GTask) : List Word := t.ports.take t.nin
def GTask.outPorts (t : GTask) : List Word := t.ports.drop t.nin

/-- Whether a task writes internal ring `16 + r`. -/
def GTask.writesRing (t : GTask) (r : Nat) : Bool := t.outPorts.any fun w => !portLeap w && portIdx w = r

/-- Whether a task reads internal ring `16 + r`. -/
def GTask.readsRing (t : GTask) (r : Nat) : Bool := t.inPorts.any fun w => !portLeap w && portIdx w = r

/-- The internal ring `16 + r` of an image. -/
def GImage.ring? (g : GImage) (r : Nat) : Option GRing := g.rings.find? fun q => q.ring = 16 + r

/-- The task with a number. -/
def GImage.task? (g : GImage) (t : Nat) : Option GTask := g.tasks.find? fun q => q.num = t

/-- Whether a stream fills an internal ring: no task writes it (R801). -/
def GImage.streamRing (g : GImage) (q : GRing) : Bool := !g.tasks.any fun t => t.writesRing (q.ring - 16)

/-- The lowest stage among a logical engine's tasks, whose block is the engine's (log entry 11). -/
def GImage.firstStage (g : GImage) (l : Nat) : Nat :=
  match g.tasks.filter (fun t => t.leng = l) with
  | [] => 1
  | t :: ts => ts.foldl (fun m u => min m u.stage) t.stage

/-- How many blocks a task stands behind its engine's block (R274). -/
def GImage.lagOf (g : GImage) (t : GTask) : Nat := t.stage - g.firstStage t.leng

/-- The block that a task computes while its engine is at block `k`, in a graph that began at block `base` (R274). -/
def GImage.taskBlk (g : GImage) (base : Nat) (t : GTask) (k : Nat) : Option Nat :=
  if base + g.lagOf t ≤ k then some (k - g.lagOf t) else none

/-! The checks of R271, step 3. -/

/-- The range of N_RA at a rate code (R287). -/
def nraOk (fgc n : Nat) : Bool :=
  let r := [(48, 384), (96, 768), (45, 352), (89, 705)].getD fgc (1, 0)
  r.1 ≤ n && n ≤ r.2

/-- MAGIC, HVER, HWORDS, HCRC and the ranges of the header. -/
def GImage.headOk (g : GImage) : Bool :=
  g.word 0 = 0x5A4B4731 && g.word 1 = 0x00010020 && crc32c (g.head.take 31) = g.word 31 && g.head.length = 32
    && g.fgc ≤ 3 && g.bc ≤ 3 && 1 ≤ g.stages && g.stages ≤ 8 && 1 ≤ g.count && g.count ≤ 8
    && 1 ≤ pf g.head 4 8 8 && pf g.head 4 8 8 ≤ 128 && nraOk g.fgc g.nra && nraOk g.fgc g.nraMin

/-- Each W and WFB is at most 0.9 x B / Fg, in units of 16 cycles of 614.4 MHz. -/
def GImage.timesOk (g : GImage) : Bool :=
  (List.range g.count).all fun l =>
    decide (g.w l * 160 * g.rate ≤ 9 * g.block * 614400000) && decide (g.wfb l * 160 * g.rate ≤ 9 * g.block * 614400000)

/-- At most 32 KiB of checkpointed state per logical engine. -/
def GImage.stateOk (g : GImage) : Bool :=
  (List.range g.count).all fun l =>
    decide ((g.regions.foldl (fun n r => if r.leng = l ∧ r.cls ≠ 3 then n + 4 * r.len else n) 0) ≤ 32768)

/-- Each internal ring is long enough and lies in the shared banks with its tag area, clear of the others (R319). -/
def GImage.ringsOk (g : GImage) : Bool :=
  g.rings.all fun q =>
    16 ≤ q.ring && q.ring ≤ 31 && inMask g.ringMap (q.ring - 16) && 6 ≤ q.log2 && 1 ≤ q.chans
      && decide (q.base * 256 + 5 * 2 ^ q.log2 ≤ 0x200000)
      && decide (3 * g.block * q.chans ≤ 2 ^ q.log2)
      && (!g.streamRing q || decide ((g.stages + 2) * g.block * q.chans ≤ 2 ^ q.log2))
      && decide ((g.rings.filter (fun p => p.ring = q.ring)).length = 1)
      && (g.rings.all fun p => decide (p.ring = q.ring ∨ p.base * 256 + 5 * 2 ^ p.log2 ≤ q.base * 256 ∨ q.base * 256 + 5 * 2 ^ q.log2 ≤ p.base * 256))
      && decide ((g.tasks.filter (fun t => t.writesRing (q.ring - 16))).length ≤ 1)

/-- Each port names a ring or leap channel of the image. -/
def GImage.portOk (g : GImage) (inp : Bool) (w : Word) : Bool :=
  if portLeap w then !inp && bit g.leapMap (portIdx w)
  else match g.ring? (portIdx w) with
    | some q => 1 ≤ portCount w && decide (portFirst w + portCount w ≤ q.chans)
    | none => false

/-- The task table is consistent. -/
def GImage.tasksOk (g : GImage) : Bool :=
  (List.range g.tasks.length).all fun i =>
    let t := g.tasks.getD i default
    t.num = i && decide (t.leng < g.count) && 1 ≤ t.stage && decide (t.stage ≤ g.stages) && t.nin ≤ 16 && t.nout ≤ 16
      && decide (t.ports.length = t.nin + t.nout) && t.inPorts.all (g.portOk true) && t.outPorts.all (g.portOk false)

/-- The leap table names the one task that writes each channel of LEAPMAP. -/
def GImage.leapsOk (g : GImage) : Bool :=
  g.leaps.all fun q =>
    q.chan ≤ 31 && bit g.leapMap q.chan && decide ((g.leaps.filter (fun p => p.chan = q.chan)).length = 1)
      && (g.tasks.foldl (fun n t => n + (t.outPorts.filter (fun w => portLeap w && portIdx w = q.chan)).length) 0) = 1
      && g.tasks.any (fun t => t.num = q.task && t.leng = q.leng
          && t.outPorts.any (fun w => portLeap w && portIdx w = q.chan))

/-- State regions lie in DMEM and have IDs of their own. -/
def GImage.regionsOk (g : GImage) : Bool :=
  g.regions.all fun r =>
    r.cls ≤ 3 && decide (r.leng < g.count) && r.ofs % 4 = 0 && decide (r.ofs + 4 * r.len ≤ 0x20000)
      && decide ((g.regions.filter (fun q => q.id = r.id)).length = 1)

/-- Engine images and initial data lie in the image and fit IMEM and DMEM. -/
def GImage.enginesOk (g : GImage) : Bool :=
  g.engines.all fun e =>
    decide (4 * e.imemLen ≤ 0x10000) && decide (4 * e.dataLen ≤ 0x20000)
      && decide (e.imemOfs + 4 * e.imemLen ≤ g.len) && decide (e.dataOfs + 4 * e.dataLen ≤ g.len)

/-- Each fallback plan names every task of its engine once, with another engine or 0xF. -/
def GImage.fallsOk (g : GImage) : Bool :=
  (List.range g.count).all fun l =>
    let f := g.falls.getD l default
    f.leng = l
      && f.entries.all (fun e => (e.2 = 0xF || (decide (e.2 < g.count) && e.2 ≠ l))
          && g.tasks.any (fun t => t.num = e.1 && t.leng = l))
      && g.tasks.all (fun t => t.leng ≠ l || decide ((f.entries.filter (fun e => e.1 = t.num)).length = 1))

/-- Step 3 of R271. -/
def GImage.ok (g : GImage) : Bool :=
  g.headOk && g.timesOk && g.stateOk && g.ringsOk && g.tasksOk && g.leapsOk && g.regionsOk && g.enginesOk && g.fallsOk

/-! The leap margin (R302, R303, R306). -/

/-- A quotient rounded up. -/
def ceilDiv (n d : Nat) : Nat := (n + d - 1) / d

/-- B + R + C with the block time `w` in units of 16 SYS cycles, C multiplied by `k` (R302, R306). -/
def GImage.needs (g : GImage) (w k : Nat) : Nat :=
  g.block + (ceilDiv (155 * g.rate) 1000000 + g.block) + k * ceilDiv (w * 16 * g.rate) 614400000

/-- The largest W and WFB of the graph. -/
def GImage.maxW (g : GImage) : Nat := (List.range g.count).foldl (fun m l => max m (g.w l)) 0
def GImage.maxWfb (g : GImage) : Nat := (List.range g.count).foldl (fun m l => max m (g.wfb l)) 0

/-- The least N_RA that GRAPH_LOAD or GRAPH_MOLT admits (R303). -/
def GImage.minimum (g : GImage) (regrow : Bool) (k : Nat) : Nat :=
  max g.nraMin (max (g.needs g.maxWfb k) (if regrow then g.needs g.maxW k else 0))

end Sys2Proof.Machine
end

