-- ==== Sys2Proof/Machine/FrontEnd.lean ====
section
/-!
DEFINITION. AADCs, PDM microphones and mic bias (spec/11_inputs_wake.md, R509 to R526, R561, R562).
-/

namespace Sys2Proof.Machine

/-! Rates (R512, R520, R522). -/

/-- The frequency of AUD in Hz (spec/09_clocks.md, R424). -/
def State.audHz (s : State) : Nat := if s.rd F.CTL_CLK_STAT_AUDFAM = 0 then 98304000 else 90316800

/-- DIV of a PDM clock, as taken (R520). -/
def State.pdmDivCode (s : State) (c : Nat) : Nat :=
  let d := if c = 0 then s.rd F.IN_PDM_CFG_DIV0 else s.rd F.IN_PDM_CFG_DIV1
  if 6 ≤ d ∨ (d = 5 ∧ s.rd F.CTL_CLK_STAT_AUDFAM = 1) then 1 else d

/-- The divider of a PDM clock (R520). -/
def pdmDivider (code : Nat) : Nat := [24, 32, 48, 64, 96, 128].getD code 32

def State.pdmClkOn (s : State) (c : Nat) : Bool := if c = 0 then s.on F.IN_PDM_CFG_EN0 else s.on F.IN_PDM_CFG_EN1

/-- MODE of microphone k. -/
def State.micMode (s : State) (k : Nat) : Nat := s.rd F.IN_PDM_MIC_MODE / 4 ^ k % 4

/-- Whether microphone k is enabled. -/
def State.micEn (s : State) (k : Nat) : Bool := inMask (s.rd F.IN_PDM_MIC_MEN) k

/-- Whether a decimation ratio suits the MODE of a microphone (R522). -/
def State.ratioOk (s : State) (k : Nat) : Bool :=
  let d := pdmDivider (s.pdmDivCode (k / 4)) * rateHz (s.feRate (s.rd F.IN_PDM_MIC_RATE))
  let r := s.audHz / d
  s.micMode k = 3 || (s.audHz % d = 0 &&
    (if s.micMode k = 0 then r % 4 = 0 && decide (16 ≤ r ∧ r ≤ 512) else r = 64))

/-- Whether a microphone is clocked (R521). -/
def State.micRuns (s : State) (k : Nat) : Bool := s.micEn k && s.pdmClkOn (k / 4)

/-! Sources of R526 by code: 0 to 7 a microphone, 8 to 11 an AADC. -/

/-- Whether the registers of a source stand in their CFGPAR safe state (spec/15_safety.md, R672). -/
def State.srcParity (s : State) (src : Nat) : Bool :=
  if src < 8 then s.cfgHit Reg.IN_PDM_CFG || s.cfgHit Reg.IN_PDM_MIC
  else s.cfgHit (Reg.IN_AADC_CFG (src - 8)) || s.cfgHit Reg.IN_MICB_CFG

/-- The source whose samples a source's decimator and tap take: a failed voice source takes its substitute (spec/15_safety.md,
R665). -/
def State.srcInput (s : State) (src : Nat) : Nat :=
  if inMask s.saf.vfail src then ((s.saf.valt.find? fun e => e.1 = src).map Prod.snd).getD src else src

/-- Whether a source delivers only invalid samples because it has failed or stands in a safe state. -/
def State.srcDead (s : State) (src : Nat) : Bool :=
  s.srcParity src || s.srcParity (s.srcInput src) || inMask s.saf.vfail (s.srcInput src)

/-- Whether a source is enabled (R526). -/
def State.srcEn (s : State) (src : Nat) : Bool := if src < 8 then s.micRuns src else s.on (F.IN_AADC_CFG_EN (src - 8))

/-- Whether a front end delivers no valid sample, besides the runs of R525 (R521, R522; spec/15_safety.md, R665, R672). -/
def State.frontOff (s : State) (type idx : Nat) : Bool :=
  let src := if type = 5 then 8 + idx else idx
  let inp := s.srcInput src
  s.srcDead src || !s.srcEn inp || (type ≠ 5 && s.micMode idx = 3) || (inp < 8 && (s.micMode inp = 3 || !s.ratioOk inp))

/-- Whether a tap source delivers valid samples, besides the runs of R525 (R526; spec/15_safety.md, R665, R672). -/
def State.tapRuns (s : State) (src : Nat) : Bool := !s.srcDead src && s.srcEn (s.srcInput src)

/-! What the registers show. -/

/-- MINVAL, CLK0ON, CLK1ON, INVAL and ON (IN_FE_STAT, IN_AADCn_STAT). -/
def State.showFe (s : State) : State :=
  let m := maskOf 8 fun k => s.micEn k && s.micMode k ≠ 3 && (s.frontOff 4 k || 0 < vat s.inp.micRun k)
  let s1 := ((s.wr F.IN_FE_STAT_MINVAL m).wr F.IN_FE_STAT_CLK0ON (b2n (s.pdmClkOn 0))).wr F.IN_FE_STAT_CLK1ON (b2n (s.pdmClkOn 1))
  forEach (fun n s =>
    (s.wr (F.IN_AADC_STAT_ON n) (b2n (s.on (F.IN_AADC_CFG_EN n)))).wr (F.IN_AADC_STAT_INVAL n)
      (b2n (s.on (F.IN_AADC_CFG_EN n) && 0 < vat s.inp.aadcRun n))) 4 s1

/-! Changes (R510, R525). -/

def State.modInp (s : State) (f : Inputs → Inputs) : State := { s with inp := f s.inp }

/-- A gain in dB, as taken (IN_AADCn_CFG). -/
def pgaTaken (v : Nat) : Nat := min 42 v

/-- IN_AADCn_CFG has taken a new value; `old` is the value before (R510, R511, R525). -/
def State.aadcChanged (s : State) (n : Nat) (old : Word) : State :=
  let w := s.reg (Reg.IN_AADC_CFG n)
  let en := bit w 31 && !bit old 31
  let mux := bits w 27 2 ≠ bits old 27 2
  let rate := s.feRate (bits w 8 4) ≠ s.feRate (bits old 8 4)
  let run := 16000 * max (if en ∨ mux then 48 else 0) (if rate then 96 else 0)
  let s1 := s.modInp fun i =>
    { i with aadcRun := vmod i.aadcRun n (max run), tapRun := vmod i.tapRun (8 + n) (max (if en ∨ mux then 48 else 0)) }
  let g := pgaTaken (bits w 16 6)
  let s2 :=
    if mux then (s1.wr (F.IN_AADC_STAT_PGAACT n) g).clr (F.IN_AADC_STAT_PGAPEND n)
    else s1.wr (F.IN_AADC_STAT_PGAPEND n) (b2n (g ≠ s1.rd (F.IN_AADC_STAT_PGAACT n)))
  s2.showFe

/-- The filter length of a decimator MODE in invalid samples (R523, R525). -/
def filterLen (mode : Nat) : Nat := if mode = 0 then 96 else if mode = 1 then 32 else if mode = 2 then 128 else 0

/-- IN_PDM_CFG or IN_PDM_MIC have taken new values; `old` is the state before (R524, R525). -/
def State.pdmChanged (s old : State) : State :=
  let ms := s.rd F.IN_PDM_CFG_MSETTLE
  let rate := s.feRate (s.rd F.IN_PDM_MIC_RATE)
  (forEach (fun k s =>
    let fresh := s.micRuns k && (!old.micRuns k || s.pdmDivCode (k / 4) ≠ old.pdmDivCode (k / 4))
    let other := s.micMode k ≠ old.micMode k || rate ≠ old.feRate (old.rd F.IN_PDM_MIC_RATE)
    let len := filterLen (s.micMode k)
    if fresh then s.modInp fun i =>
      { i with micRun := vmod i.micRun k (max (16000 * len + 16 * ms * rateHz rate)), tapRun := vmod i.tapRun k (max (32 + 16 * ms)) }
    else if other then s.modInp fun i => { i with micRun := vmod i.micRun k (max (16000 * len)) }
    else s) 8 s).showFe

/-! Mic bias (R515, R516). -/

/-- The voltage of a mic bias in 0.1 V, as its register asks; 0 while it is off. -/
def micVolts (w : Word) (n : Nat) : Nat := if bit w (7 + 8 * n) then 20 + min 8 (bits w (8 * n) 4) else 0

/-- The voltage of a mic bias output in µV (R516). -/
def State.biasVolts (s : State) (n : Nat) : Nat :=
  let b := vat s.inp.bias n
  let moved := b.slope * (s.now - b.mark) / 49152
  if b.v0 ≤ b.v1 then min b.v1 (b.v0 + moved) else max b.v1 (b.v0 - moved)

/-- The voltage in 0.1 V that a bias output is to have: the host's, or while a jack classification has it on its configured one (R515, R518;
spec/10_load_jack_diagnostics.md, R501). -/
def State.biasWant (s : State) (n : Nat) : Nat :=
  let w := s.reg Reg.IN_MICB_CFG
  if s.inp.jackOn.map Fin.val = some n then 20 + min 8 (bits w (8 * n) 4) else micVolts w n

/-- A bias output that is to change its voltage ramps from where it is (R516). DESIGN CHOICE (log entry 102): the slope of a disable is that of the
voltage left. -/
def State.biasRamp (s : State) (n : Nat) : State :=
  let v := 100000 * s.biasWant n
  let b := vat s.inp.bias n
  if v = b.v1 then s
  else
    (s.modInp fun i => { i with bias := vmod i.bias n fun _ => ⟨s.biasVolts n, v, if v = 0 then b.v1 else v, s.now⟩ }).set1
      (if n = 0 then F.IN_FE_STAT_MB0RAMP else F.IN_FE_STAT_MB1RAMP)

/-- IN_MICB_CFG has taken a new value, or a jack classification begins or ends (R516, R518). -/
def State.micbChanged (s : State) : State := (s.biasRamp 0).biasRamp 1

/-- A jack classification switches its bias output on, or leaves it to the host again (R518; spec/10_load_jack_diagnostics.md, R501). -/
def State.jackBias (s : State) (n : Option (Fin 2)) : State := (s.modInp fun i => { i with jackOn := n }).micbChanged

/-- HPF of an AADC as taken: with MUX 2 the code 0 is taken as 1 (R511). -/
def State.hpfTaken (s : State) (n : Nat) : Nat :=
  if s.rd (F.IN_AADC_CFG_MUX n) = 2 ∧ s.rd (F.IN_AADC_CFG_HPF n) = 0 then 1 else s.rd (F.IN_AADC_CFG_HPF n)

/-- The corner of an HPF code in Hz; 0 for no filter (R511). -/
def hpfCorner (code : Nat) : Nat := [0, 4, 16, 64].getD code 0

/-- Whether an open stream reads a front end. -/
def State.frontRead (s : State) (type idx : Nat) : Bool := s.strs.any fun x => s.usesEnd x.sid type idx true

/-- The runs of invalid samples on host-facing outputs that no stream reads pass with time: one tap period of 16 kHz (R525). -/
def State.runsPass (s : State) : State :=
  (s.modInp fun i =>
    { i with
      aadcRun := Vector.ofFn fun n => if s.frontRead 5 n.val then vat i.aadcRun n.val
        else vat i.aadcRun n.val - rateHz (s.feRate (s.rd (F.IN_AADC_CFG_RATE n.val)))
      micRun := Vector.ofFn fun n => if s.frontRead 4 n.val then vat i.micRun n.val
        else vat i.micRun n.val - rateHz (s.feRate (s.rd F.IN_PDM_MIC_RATE)) }).showFe

end Sys2Proof.Machine
end

