-- ==== Sys2Proof/Machine/Streams.lean ====
section
/-!
DEFINITION. Stream commands and stream frames (spec/05_streams_ports.md, R204 to R223, R252 to R259).
-/

namespace Sys2Proof.Machine

/-! STREAM_OPEN. -/

/-- The number of indices of an end type (R203): slots of a port, subframes, microphones, AADCs, leap channels. -/
def State.endCount (s : State) (type : Nat) : Nat :=
  if type = 1 then s.rd (F.IN_TDM_FMT_SLOTS 0) + 1
  else if type = 2 then s.rd (F.IN_TDM_FMT_SLOTS 1) + 1
  else if type = 3 then 2 else if type = 4 then 8 else if type = 5 then 4 else 32

/-- Whether an end may be named (R204). -/
def State.endOk (s : State) (type idx nch : Nat) (source : Bool) : Bool :=
  if type = 6 then
    4 ≤ idx && idx ≤ 15 && s.ringOn idx && (s.on (F.DSP_RING_CFG_DIR idx) == !source)
  else if type = 7 then !source && 16 ≤ idx && idx ≤ 31 && s.ringOn idx
  else if 1 ≤ type ∧ type ≤ 3 then decide (idx + nch ≤ s.endCount type)
  else source && (type = 4 || type = 5 || type = 8 || type = 9) && decide (idx + nch ≤ s.endCount type)

/-- Whether an end that belongs to one stream at most is claimed (R205). -/
def State.claimed (s : State) (type idx nch : Nat) (source : Bool) : Bool :=
  if type = 6 ∨ type = 7 then s.strs.any fun x => s.usesRing x.sid idx
  else !source && s.strs.any fun x => (List.range nch).any fun k => s.usesEnd x.sid type (idx + k) false

/-- Whether ASRC channel `a` is taken by an open stream (R218). -/
def State.asrcTaken (s : State) (a : Nat) : Bool :=
  s.strs.any fun x =>
    s.rd (F.DSP_STR_FMT_AMODE x.sid) ≠ 0 && s.rd (F.DSP_STR_FMT_ASFIRST x.sid) ≤ a
      && a < s.rd (F.DSP_STR_FMT_ASFIRST x.sid) + s.strCh x.sid

/-- Whether `n` ASRC channels from `a` are free (R218). -/
def State.asrcFree (s : State) (a n : Nat) : Bool :=
  decide (a + n ≤ 32) && (List.range n).all fun k => !s.asrcTaken (a + k)

/-- The first ASRC channel for `n` channels: the one asked for, or with 0x3F the lowest free run (R218). -/
def State.asrcPick (s : State) (req n : Nat) : Option Nat :=
  if req = 0x3F then (List.range 32).find? fun a => s.asrcFree a n
  else if s.asrcFree req n then some req else none

/-- The SID to open: the one named, or the lowest free one (R218). -/
def State.sidPick (s : State) (sid : Nat) : Option Nat :=
  if sid = 0 then (List.range 128).find? fun k => 1 ≤ k && (s.strX? k).isNone
  else if (s.strX? sid).isNone then some sid else none

/-- The context of an opened stream: CFG, FMT, STAT in WAIT, counters and index from 0, GOOD all ones (R214, R216). -/
def State.openContext (s : State) (sid stype sidx dtype didx nch width inv vpol asfirst amode hfs : Nat) : State :=
  let s1 := s.setReg (Reg.DSP_STR_CFG sid) (w32 (stype * 2 ^ 28 + sidx * 2 ^ 20 + dtype * 2 ^ 12 + didx * 2 ^ 4))
  let s2 := s1.setReg (Reg.DSP_STR_FMT sid)
    (w32 (asfirst * 2 ^ 26 + amode * 2 ^ 24 + (nch - 1) * 2 ^ 16 + hfs * 2 ^ 12 + width * 2 ^ 8 + inv * 2 + vpol))
  let s3 := s2.setReg (Reg.DSP_STR_STAT sid) (w32 (if amode = 0 then 0x100 else 0))
  let s4 := s3.setReg (Reg.DSP_STR_CNT sid) 0
  (s4.wr64 (Reg.DSP_STR_IDX_LO sid) 0).wr64 (Reg.DSP_STR_GOOD_LO sid) (2 ^ 64 - 1)

/-- The extension of a stream that has just opened (R213, R215, R259). DESIGN CHOICE (log entry 95): with INVPOL 1 a channel that has had no
valid sample yet sends 0 for an invalid one (R200). -/
def newStreamX (sid start pair lead nch : Nat) : StreamX :=
  { sid := sid, start := start, pair := pair, lead := lead, ratio := 0, holdLost := false, bw := 1, closing := false,
    primed := false, moved := false, tracked := none, tail := 0, tick := false, prev := List.replicate nch true,
    last := List.replicate nch 0, out := [] }

/-- A stream opens in WAIT and reports it (R216, R223). -/
def State.openStr (s : State) (x : StreamX) : State :=
  ({ s with strs := s.strs ++ [x] }).strState x.sid stmWait 0x00

def cardStreamOpen : CmdSpec := ⟨0x100, 6, 6, false, true, true, false, false, false, true⟩

/-- STREAM_OPEN past the checks of its fields: resources, then the open (R205, R218). -/
def streamOpenAt (ws : List Word) (stype sidx dtype didx nch amode : Nat) (s : State) : Res :=
  match s.sidPick (pf ws 0 0 7) with
  | none => .refuse stsNoResource 1
  | some sid =>
    if s.claimed stype sidx nch true ∨ s.claimed dtype didx nch false then .refuse stsNoResource 2
    else
      match (if amode = 0 then some 0x3F else s.asrcPick (pf ws 3 16 6) nch) with
      | none => .refuse stsNoResource 4
      | some asf =>
        s.unlessBusy [.stream sid] <|
        s.withDomains (endDomain stype sidx nch true ++ endDomain dtype didx nch false
            ++ (if amode = 0 then [] else [dmAsrc])) fun s =>
          let s1 := s.openContext sid stype sidx dtype didx nch (pf ws 2 8 2) (pf ws 2 1 1) (pf ws 2 0 1) asf amode (pf ws 3 0 4)
          .done stsOk 0 [w32 (asf * 2 ^ 24 + sid)] []
            (s1.openStr (newStreamX sid (pf ws 4 0 2) (pf ws 4 8 7) (pf ws 5 0 16) nch))

/-- The body of STREAM_OPEN (R204, R207). DESIGN CHOICE (log entry 95): a stream from the echo tap to the S/PDIF transmitter is admitted, since R204
refuses none and R198 passes PROV through (spec/01_architecture.md, R45). -/
def streamOpenBody (ws : List Word) (s : State) : Res :=
  let stype := pf ws 1 28 4
  let sidx := pf ws 1 20 6
  let dtype := pf ws 1 12 4
  let didx := pf ws 1 4 6
  let nch := pf ws 2 16 5 + 1
  let amode := pf ws 3 8 2
  let hfs := pf ws 3 0 4
  let rs := if stype = 6 ∧ amode ≠ 0 then rateHz hfs else s.endRate stype sidx true hfs
  let rd := s.endRate dtype didx false hfs
  let outside := !s.audTimed stype true || !s.audTimed dtype false
  if ¬ s.endOk stype sidx nch true ∨ ¬ s.endOk dtype didx nch false
      ∨ (1 ≤ stype ∧ stype ≤ 3 ∧ 1 ≤ dtype ∧ dtype ≤ 3) then .bad 1
  else if pf ws 2 8 2 = 3 then .bad 2
  else if (stype = 6 ∨ dtype = 6) ∧ rateHz hfs = 0 then .bad 3
  else if ¬ asrcOk amode rs rd outside then .bad 3
  else if pf ws 4 0 2 = 3 then .bad 4
  else streamOpenAt ws stype sidx dtype didx nch amode s

/-- STREAM_OPEN (R204, R205, R207, R218). -/
def execStreamOpen (p : Packet) (s : State) : Host.Outcome State Fault Refusal :=
  s.card cardStreamOpen p (streamOpenBody p.payload)

/-! STREAM_CLOSE. -/

def cardStreamClose : CmdSpec := ⟨0x101, 1, 1, false, true, true, true, false, true, true⟩

/-- Whether the frame clock of a stream end runs, where it is that of a port: the clock of a TDM port, the recovered clock of the S/PDIF receiver,
the enable of the transmitter (R208, R219, R233). -/
def State.endClock (s : State) (type : Nat) (source : Bool) : Bool :=
  if type = 1 then (vat s.tdm 0).en && (vat s.tdm 0).clock
  else if type = 2 then (vat s.tdm 1).en && (vat s.tdm 1).clock
  else if type = 3 then (if source then s.portSync 2 else s.portSync 3)
  else true

/-- Whether the destination clock of a stream has stopped (R219); a host ring takes that of the source (R208). -/
def State.destStopped (s : State) (sid : Nat) : Bool :=
  let dt := s.rd (F.DSP_STR_CFG_DTYPE sid)
  if dt = 6 then !s.endClock (s.rd (F.DSP_STR_CFG_STYPE sid)) true else !s.endClock dt false

/-- The body of STREAM_CLOSE (R219, R220): a SID that is not open is ST_BAD_PARAM with DETAIL 1 (log entry 8). DESIGN CHOICE (log entry 95): FORCE
passes the ST_BUSY of R178. -/
def streamCloseBody (force : Bool) (ws : List Word) (s : State) : Res :=
  let sid := pf ws 0 0 7
  match s.strX? sid with
  | none => .bad 0
  | some x =>
    if force then .ok (s.abortStr sid)
    else
      s.unlessBusy [.stream sid] <|
      if s.destStopped sid then .pend [] [.stream sid] (s.setStr { x with closing := true })
      else .ok (s.closeStr sid)

/-- STREAM_CLOSE (R219). -/
def execStreamClose (p : Packet) (s : State) : Host.Outcome State Fault Refusal :=
  s.card cardStreamClose p (streamCloseBody p.force p.payload)

/-- STREAM_CLOSE with FORCE (R220). -/
def execStreamCloseForce (p : Packet) (s : State) : Host.Outcome State Fault Refusal :=
  s.card cardStreamClose { p with force := true } (streamCloseBody true p.payload)

/-- A pending close completes at a frame boundary or after 100 ms (R219). -/
def execStreamCloseDone (sid : Fin 128) (s : State) : Host.Outcome State Fault Refusal :=
  match s.strX? sid.val with
  | some x => if x.closing then .next (s.closeStr sid.val) else .next s
  | none => .next s

/-! STREAM_STATUS. -/

def cardStreamStatus : CmdSpec := ⟨0x102, 1, 1, false, true, true, false, false, false, false⟩

/-- The context words of a stream in address order (R222). -/
def State.strWords (s : State) (sid : Nat) : List Word :=
  (List.range 8).map fun k => s.reg (Reg.DSP_STR_CFG sid + 4 * k)

/-- The RC bits and the counters of a stream cleared (R222). -/
def State.clearStr (s : State) (sid : Nat) : State :=
  (s.setReg (Reg.DSP_STR_STAT sid) (s.reg (Reg.DSP_STR_STAT sid) &&& 0xFFFFFF00)).setReg (Reg.DSP_STR_CNT sid) 0

/-- STREAM_STATUS (R222); SID 0 is ST_BAD_PARAM with DETAIL 1 (log entry 8). -/
def execStreamStatus (p : Packet) (s : State) : Host.Outcome State Fault Refusal :=
  s.card cardStreamStatus p fun s =>
    let sid := pf p.payload 0 0 7
    if sid = 0 then .bad 0
    else s.unlessBusy [.stream sid] (.done stsOk 0 (s.strWords sid) [] (if pb p.payload 0 31 then s.clearStr sid else s))

/-! ASRC. -/

def cardAsrcCfg : CmdSpec := ⟨0x130, 3, 3, false, true, true, false, false, false, true⟩

/-- The ratio in force of a FIXED stream in units of 2^-28 (R253): RATIO, or the nominal ratio of the end rates. -/
def State.ratioInForce (s : State) (x : StreamX) : Nat :=
  if x.ratio ≠ 0 then x.ratio.toNat
  else
    let rs := s.endRate (s.rd (F.DSP_STR_CFG_STYPE x.sid)) (s.rd (F.DSP_STR_CFG_SIDX x.sid)) true (s.rd (F.DSP_STR_FMT_HFS x.sid))
    let rd := s.endRate (s.rd (F.DSP_STR_CFG_DTYPE x.sid)) (s.rd (F.DSP_STR_CFG_DIDX x.sid)) false (s.rd (F.DSP_STR_FMT_HFS x.sid))
    if rs = 0 then 2 ^ 28 else roundFree (rd * 2 ^ 28) rs

/-- Whether two ratios differ by at most 1 000 ppm (R256). -/
def nearRatio (a b : Nat) : Bool := decide ((a - b) * 1000 ≤ a) && decide ((b - a) * 1000 ≤ a)

/-- The LOCK bit of a stream becomes `v`; a change raises EVT_ASRC (R257), and a loss sets UNLOCK. -/
def State.asrcLock (s : State) (sid : Nat) (v : Bool) : State :=
  if s.on (F.DSP_STR_STAT_LOCK sid) = v then s
  else
    let s1 := s.wr (F.DSP_STR_STAT_LOCK sid) (b2n v)
    let s2 := if v then s1 else s1.set1 (F.DSP_STR_STAT_UNLOCK sid)
    s2.raise evAsrc [w32 (b2n v * 2 ^ 31 + s.rd (F.DSP_STR_FMT_ASFIRST sid) * 2 ^ 24 + sid)]

/-- ASRC_CFG (R256, R259): a change of RATIO beyond 1 000 ppm on a FIXED stream is a re-acquisition. A SID without an open
converting stream is ST_BAD_PARAM with DETAIL 1, BW 3 with DETAIL 3 (log entry 8). -/
def execAsrcCfg (p : Packet) (s : State) : Host.Outcome State Fault Refusal :=
  s.card cardAsrcCfg p fun s =>
    let sid := pf p.payload 0 0 7
    let ratio := pw p.payload 1
    match s.strX? sid with
    | none => .bad 0
    | some x =>
      if s.rd (F.DSP_STR_FMT_AMODE sid) = 0 then .bad 0
      else if ratio ≠ 0 ∧ (s.rd (F.DSP_STR_FMT_AMODE sid) = 2 ∨ ratio.toNat < 0x02AAAAAB ∨ 0x40000000 < ratio.toNat) then .bad 1
      else if pf p.payload 2 0 2 = 3 then .bad 2
      else
        s.unlessBusy [.stream sid] <|
        let y := { x with ratio := ratio, holdLost := pb p.payload 2 8, bw := pf p.payload 2 0 2 }
        let s1 := s.setStr y
        .ok (if s.rd (F.DSP_STR_FMT_AMODE sid) = 1 ∧ ¬ nearRatio (s.ratioInForce x) (s1.ratioInForce y)
          then s1.asrcLock sid false else s1)

/-- Whether two ratios differ by at most 100 ppm of the second (R255). -/
def closeRatio (a b : Nat) : Bool := decide ((a - b) * 10000 ≤ b) && decide ((b - a) * 10000 ≤ b)

/-- Whether a ratio in units of 2^-28 lies in the range of R252, as R259 bounds it. -/
def ratioIn (r : Nat) : Bool := decide (0x02AAAAAB ≤ r) && decide (r ≤ 0x40000000)

/-- The ASRC of a stream declares lock (R253, R254): an ASYNC one at the ratio it tracks; the early lock of R255, within 10 ms of the source's return,
only where HOLDLOST has kept a ratio within 100 ppm. -/
def execAsrcLock (lock : AsrcLocked) (s : State) : Host.Outcome State Fault Refusal :=
  let sid := lock.sid
  let ratio := lock.ratio
  match s.strX? sid.val with
  | some x =>
    if s.rd (F.DSP_STR_FMT_AMODE sid.val) = 0 then .next s
    else if s.rd (F.DSP_STR_FMT_AMODE sid.val) = 1 then .next (s.asrcLock sid.val true)
    else if ratioIn ratio.toNat = false ∨ (lock.early ∧ ¬ (x.holdLost ∧ x.tracked.any fun r => closeRatio ratio.toNat r)) then .next s
    else .next ((s.setStr { x with tracked := some ratio.toNat }).asrcLock sid.val true)
  | none => .next s

/-- An ASYNC stream loses lock; with HOLDLOST a stalled source leaves the tracker its ratio (R255). -/
def execAsrcUnlock (loss : AsrcLost) (s : State) : Host.Outcome State Fault Refusal :=
  let sid := loss.sid
  match s.strX? sid.val with
  | some x =>
    if s.rd (F.DSP_STR_FMT_AMODE sid.val) = 2 then
      .next ((s.setStr { x with tracked := if x.holdLost ∧ loss.why = .stalled then x.tracked else none }).asrcLock sid.val false)
    else .next s
  | none => .next s

/-! Frames. -/

/-- A frame as its source gives it: the samples, the cause that makes the stream FILL (0 for a good frame), and the stream
and device after the read. -/
structure Taken where
  smps  : List Sample
  cause : Nat
  x     : StreamX
  s     : State

/-- The sample width in bits of a TDM port's DATAW (R227). -/
def dataBits (code : Nat) : Nat := if code = 0 then 16 else if code = 1 then 24 else 32

/-- A frame of `n` filled samples. -/
def fills (n : Nat) : List Sample := List.replicate n fillSample

/-- A frame from a TDM port or the S/PDIF receiver (R202, R232, R233, R235, R246): filled while the source is lost and for two
frames after, invalid until two correct frames follow a frame error, invalid while the receiver finds no PCM. -/
def State.fromPort (s : State) (x : StreamX) (p n : Nat) (f : List Sample) : Taken :=
  if p ≤ 1 ∧ (vat s.tdm p).en ∧ (vat s.tdm p).redo then ⟨List.replicate n invalidSample, 3, x, s⟩
  else if ¬ s.portSync p then ⟨fills n, 4, { x with tail := 2 }, s⟩
  else if 0 < x.tail then ⟨fills n, 4, { x with tail := x.tail - 1 }, s⟩
  else if p = 2 ∧ s.on F.IN_SPDRX_STAT_NONPCM then
    ⟨List.replicate n invalidSample, 6, x, s.set1 (F.DSP_STR_STAT_NONPCM x.sid)⟩
  else if p ≤ 1 ∧ (vat s.tdm p).clean < 2 then ⟨List.replicate n invalidSample, 3, x, s⟩
  else ⟨f, 0, x, s⟩

/-- One frame of a host ring in its format (R211 to R213): an underrun where less than a whole frame is there. -/
def State.fromRing (s : State) (x : StreamX) (ring n taken : Nat) (conv : Option (List Sample)) : Taken :=
  let k := match conv with | none => 1 | some _ => taken
  if s.occupancy ring < n * k then ⟨fills n, 1, x, s.set1 (F.DSP_STR_STAT_UNDR x.sid)⟩
  else
    let read := (List.range n).map fun j =>
      let a := s.ringAddr ring (s.didx ring + j)
      if s.poison.contains a then invalidSample else hostIn (s.rd (F.DSP_STR_FMT_WIDTH x.sid)) (s.word a)
    let s1 := forEach (fun j s =>
      let a := s.ringAddr ring (s.didx ring + j)
      if s.poison.contains a then s.deliverPoison a else s) (n * k) s
    ⟨match conv with | none => read | some f => f, 0, x, s1.wr (F.DSP_RING_DIDX_DIDX ring) (s.didx ring + n * k)⟩

/-- The sample that a leap channel holds under an index. -/
def LeapCh.at? (c : LeapCh) (i : Int) : Option Sample :=
  (c.samples.find? (fun e => (e.idx : Int) = i)).map (·.smp)

/-- Whether a leap channel has no committed sample at its read point (R289). -/
def LeapCh.empty (c : LeapCh) : Bool :=
  match c.at? c.read with
  | some x => x.is tgProv
  | none => true

/-- The committed sample at the read point of a leap channel, or the filled sample of R289, DISC marking the first of the run. -/
def State.leapNow (s : State) (c : Nat) : Sample :=
  let ch := vat s.leap c
  if ch.empty then fillSample.put tgDisc (!ch.filled) else (ch.at? ch.read).getD fillSample

/-- The sample of the echo-reference tap: index r + N_RA - B, provisional ones included (spec/11_inputs_wake.md, R558 to
R560). -/
def State.echoNow (s : State) (c : Nat) : Sample :=
  let ch := vat s.leap c
  let i := ch.read + (s.rd F.DSP_GRAPH_STAT_NRA : Int) - (8 * 2 ^ s.rd F.DSP_GRAPH_STAT_BC : Nat)
  let x := match ch.at? i with
    | some x => x
    | none => fillSample
  if ch.echo.any fun (e : Nat × Nat) => decide ((e.1 : Int) ≤ i ∧ i ≤ (e.2 : Int)) then x.put tgDisc true else x

/-- Bytes per tap sample (spec/11_inputs_wake.md, R532). -/
def State.tapBytes (s : State) : Nat := if s.on F.IN_TAP_CFG_W24 then 3 else 2

/-- The number of tap sources (spec/11_inputs_wake.md, R526). -/
def State.tapN (s : State) : Nat := (indices 12 (fun i => inMask (s.rd F.IN_TAP_CFG_TAPMAP) i)).length

/-- The capacity of the tadpole buffer in frames (spec/11_inputs_wake.md, R532). -/
def State.tapF (s : State) : Nat := 524288 / (s.tapN * s.tapBytes)

/-- The window address of channel `k` of tadpole frame `i` (spec/11_inputs_wake.md, R532). -/
def State.tapAddr (s : State) (i k : Nat) : Nat :=
  0xA00000 + (i % s.tapF) * (s.tapN * s.tapBytes) + k * s.tapBytes

/-- Channel `k` of tadpole frame `i` as a handover sample (spec/11_inputs_wake.md, R531, R555). -/
def State.tadSample (s : State) (i k : Nat) : Sample :=
  let a := s.tapAddr i k
  let raw := if s.on F.IN_TAP_CFG_W24 then (s.byte (a + 2) ++ s.byte (a + 1) ++ s.byte a ++ (0 : Byte))
    else (s.byte (a + 1) ++ s.byte a ++ (0 : BitVec 16))
  let v : Sample := if raw = 0x80000000 then invalidSample else ⟨raw, 0x01⟩
  v.put tgTadp (decide (i < s.rd64 Reg.IN_TAD_GOPEN_LO))

/-- The invalid samples that a change in a front end leaves on a host-facing output (spec/11_inputs_wake.md, R525). -/
def State.frontRun (s : State) (type idx : Nat) : Nat :=
  if type = 5 then vat s.inp.aadcRun idx else vat s.inp.micRun idx

/-- One sample fewer of that run. -/
def State.frontDec (s : State) (type idx : Nat) : State :=
  (s.modInp fun i => if type = 5 then { i with aadcRun := vmod i.aadcRun idx (· - 16000) } else { i with micRun := vmod i.micRun idx (· - 16000) }).showFe

/-- Whether a stream is the lowest-numbered one that reads a source channel: that one counts the run of R525 down. -/
def State.firstReader (s : State) (sid type idx : Nat) : Bool :=
  !s.strs.any fun x => x.sid < sid && s.usesEnd x.sid type idx true

/-- A frame from AADCs or PDM microphones (R203; spec/11_inputs_wake.md, R521, R522, R525); CLIP is an input at full scale. -/
def State.fromFront (s : State) (x : StreamX) (type idx n : Nat) (f : List Sample) : Taken :=
  let smps := (List.range n).map fun k =>
    if 0 < s.frontRun type (idx + k) ∨ s.frontOff type (idx + k) then (f.getD k invalidSample).put tgValid false
    else f.getD k invalidSample
  let s0 := forEach (fun k s =>
    if type = 5 ∧ (smps.getD k invalidSample).is tgClip then s.set1 (F.IN_AADC_STAT_OVL (idx + k)) else s) n s
  let s1 := forEach (fun k s =>
    if 0 < s.frontRun type (idx + k) ∧ s.firstReader x.sid type (idx + k) then s.frontDec type (idx + k) else s) n s0
  ⟨smps, 0, x, s1⟩

/-! The S/PDIF receiver's frames. -/

/-- The open streams that read the receiver, lowest SID first. -/
def State.rxStreams (s : State) : List Nat :=
  (List.range 128).filter fun k => s.strs.any fun x => x.sid = k && s.usesPort k 2

/-- NONPCM rises: every receive stream sets NONPCM and reports it (R223, R246). -/
def State.nonpcmRise (s : State) : State :=
  s.rxStreams.foldl (fun s k => (s.set1 (F.DSP_STR_STAT_NONPCM k)).raiseStream k 6) (s.set1 F.IN_SPDRX_STAT_NONPCM)

/-- The frames of NPHOLD (R246). -/
def State.npHold (s : State) : Nat := if s.spdif.rx.nphold = 0 then 4096 else s.spdif.rx.nphold

/-- Whether bit 1 of the last complete channel-status block is 1 (R246). -/
def State.csNonpcm (s : State) : Bool := bit (pw s.spdif.rxA 0) 1 || bit (pw s.spdif.rxB 0) 1

/-- A subframe as a sample: all 24 bits of its audio field in [31:8]; a parity error makes it invalid, the validity bit gives SRC_INV
(R244, R245). -/
def rxSample (u : Subframe) : Sample :=
  ((⟨u.audio.setWidth 32 <<< 8, 0⟩ : Sample).put tgValid (!u.perr)).put tgSrcInv u.valid

/-- Whether a frame carries the IEC 61937 sync words in the top 16 bits of its subframes (R246). -/
def syncWords (f : Subframe × Subframe) : Bool :=
  decide ((rxSample f.1).val.toNat / 2 ^ 16 = 0xF872) && decide ((rxSample f.2).val.toNat / 2 ^ 16 = 0x4E1F)

/-- The receiver, in lock, takes in a frame (R245, R246). -/
def State.rxFrame (s : State) (f : Subframe × Subframe) : State :=
  if ¬ s.on F.IN_SPDRX_STAT_LOCK then s
  else
    let s1 := s.sat F.IN_SPDRX_STAT_PERRCNT (b2n f.1.perr + b2n f.2.perr)
    let age := if syncWords f then 0 else s.spdif.npAge + 1
    let s2 : State := { s1 with spdif := { s1.spdif with npAge := age, seen := s.spdif.seen + 1 } }
    if syncWords f then (if s2.on F.IN_SPDRX_STAT_NONPCM then s2 else s2.nonpcmRise)
    else if s2.npHold ≤ age ∧ s2.csNonpcm = false then s2.clr F.IN_SPDRX_STAT_NONPCM
    else s2

/-! Converted samples. -/

/-- The tag of an ASRC output sample from those of the input samples within its filter span, and whether the output itself saturates (R198,
R199). -/
def asrcTag (ins : List (BitVec 8)) (clip : Bool) : BitVec 8 :=
  let some' := fun (b : Nat) => b2n (ins.any fun t => t.getLsbD b) * 2 ^ b
  BitVec.ofNat 8 (b2n (ins.all fun t => t.getLsbD tgValid) + b2n (clip || ins.any fun t => t.getLsbD tgClip) * 2
    + some' tgProv + some' tgTadp + some' tgSrcInv)

/-- The tag bits that samples of a source type can have and an ASRC takes up (R198, R202). -/
def spanMask (type : Nat) : BitVec 8 :=
  if type = 1 ∨ type = 2 then 0x01 else if type = 3 then 0x41
  else if type = 4 ∨ type = 5 ∨ type = 6 then 0x03 else if type = 9 then 0x73 else 0x63

/-- The tags of the input samples of channel `k` that the device itself holds and the ASRC takes now: words of a host ring, the
receiver's subframes, a leap channel's sample. -/
def State.heldTags (s : State) (x : StreamX) (f : FrameIn) (k : Nat) : List (BitVec 8) :=
  let st := s.rd (F.DSP_STR_CFG_STYPE x.sid)
  let i := s.rd (F.DSP_STR_CFG_SIDX x.sid)
  if st = 3 then f.rx.map fun u => (rxSample (if i + k = 0 then u.1 else u.2)).tag
  else if st = 6 then (List.range f.taken).map fun j =>
    let a := s.ringAddr i (s.didx i + j * s.strCh x.sid + k)
    if s.poison.contains a then 0 else (hostIn (s.rd (F.DSP_STR_FMT_WIDTH x.sid)) (s.word a)).tag
  else if f.taken = 0 then []
  else if st = 8 then [(s.leapNow (i + k)).tag &&& 0x63]
  else if st = 9 then [(s.echoNow (i + k)).tag &&& 0x73]
  else []

/-- Sample `k` of a frame that comes from outside, as it enters the stream: of a TDM slot the first DATAW bits (R225, R227), of a front end with
VALID and CLIP as it gives them, of the ASRC with the tag of R199. -/
def State.entered (s : State) (x : StreamX) (f : FrameIn) (k : Nat) : Sample :=
  let st := s.rd (F.DSP_STR_CFG_STYPE x.sid)
  let a := f.samples.getD k invalidSample
  if s.rd (F.DSP_STR_FMT_AMODE x.sid) ≠ 0 then
    ⟨a.val, asrcTag (((f.span.getD k []).map (· &&& spanMask st)) ++ s.heldTags x f k) (a.is tgClip)⟩
  else if st = 1 ∨ st = 2 then
    let b := dataBits (bits (vat s.tdm (st - 1)).useFmt 18 2)
    ⟨(a.val >>> (32 - b)) <<< (32 - b), 0x01⟩
  else ⟨a.val, a.tag &&& 0x03⟩

/-- The frame that a stream's source gives, with the tags of R199 where the ASRC converts it. -/
def State.rawFrame (s : State) (x : StreamX) (f : FrameIn) : Taken :=
  let st := s.rd (F.DSP_STR_CFG_STYPE x.sid)
  let i := s.rd (F.DSP_STR_CFG_SIDX x.sid)
  let n := s.strCh x.sid
  let conv := s.rd (F.DSP_STR_FMT_AMODE x.sid) ≠ 0
  let smps := (List.range n).map (s.entered x f)
  if st = 1 then s.fromPort x 0 n smps
  else if st = 2 then s.fromPort x 1 n smps
  else if st = 3 then (f.rx.foldl State.rxFrame s).fromPort x 2 n smps
  else if st = 4 ∨ st = 5 then s.fromFront x st i n smps
  else if st = 6 then s.fromRing x i n f.taken (if conv then some smps else none)
  else if st = 0xA then ⟨(List.range n).map fun k => s.tadSample (s.rd64 (Reg.DSP_STR_IDX_LO x.sid)) (i + k), 0, x, s⟩
  else if conv then ⟨smps, 0, x, s⟩
  else if st = 8 then ⟨(List.range n).map fun k => s.leapNow (i + k), 0, x, s⟩
  else ⟨(List.range n).map fun k => s.echoNow (i + k), 0, x, s⟩

/-- The frame that a stream takes: filled while its ASRC is not locked. -/
def State.takeFrame (s : State) (x : StreamX) (f : FrameIn) : Taken :=
  let t := s.rawFrame x f
  if s.rd (F.DSP_STR_FMT_AMODE x.sid) ≠ 0 ∧ ¬ s.on (F.DSP_STR_STAT_LOCK x.sid) ∧ t.cause = 0 then
    { t with smps := fills (s.strCh x.sid), cause := 5 }
  else t

/-- The tags of a frame as the stream delivers it: bit 7 written 0, VPOL, PROV only from the echo tap, DISC at the first sample of the
stream, at each end of an invalid run and at the first of a substitute (R195, R197, R198, R202; spec/15_safety.md, R665). -/
def State.markFrame (s : State) (x : StreamX) (smps : List Sample) : List Sample :=
  (List.range (s.strCh x.sid)).map fun k =>
    let a := (smps.getD k invalidSample).put 7 false
    let b := if s.on (F.DSP_STR_FMT_VPOL x.sid) ∧ a.is tgSrcInv then a.put tgValid false else a
    let c := if s.rd (F.DSP_STR_CFG_STYPE x.sid) = 9 then b else b.put tgProv false
    if ¬ x.moved ∨ c.is tgValid ≠ x.prev.getD k true ∨ s.saf.vdisc.contains (x.sid, k) then c.put tgDisc true else c

/-- The value that stands for a sample at a port or host ring (R200): an invalid one as zero, or with INVPOL as the last
valid sample of its channel. -/
def State.sendVal (s : State) (x : StreamX) (k : Nat) (a : Sample) : Word :=
  if a.is tgValid then a.val else if s.on (F.DSP_STR_FMT_INVPOL x.sid) then x.last.getD k 0 else 0

/-- Where a stream's frame goes: delivered or not, the samples as sent, the device after. -/
structure Sent where
  ok   : Bool
  smps : List Sample
  s    : State

/-- A frame on transmit slots of TDM port `p` (R227, R233): discarded while the port is not in sync. -/
def State.toTdm (s : State) (x : StreamX) (p : Nat) (smps : List Sample) : Sent :=
  if ¬ s.portSync p then ⟨false, smps, s⟩
  else
    let b := dataBits (bits (vat s.tdm p).useFmt 18 2)
    ⟨true, (List.range smps.length).map (fun k =>
      let a := smps.getD k invalidSample
      let (v, c) := toBits b (s.sendVal x k a)
      (⟨BitVec.ofInt 32 v <<< (32 - b), a.tag⟩ : Sample).put tgClip (a.is tgClip || c)), s⟩

/-- A frame on the S/PDIF transmitter. -/
def State.toSpdif (s : State) (x : StreamX) (smps : List Sample) : Sent :=
  if ¬ s.spdif.txEn then ⟨false, smps, s⟩
  else ⟨true, (List.range smps.length).map (fun k =>
    ⟨s.sendVal x k (smps.getD k invalidSample), (smps.getD k invalidSample).tag⟩), s⟩

/-- A frame into a device-to-host ring (R210 to R212): discarded whole where it does not fit. -/
def State.toHostRing (s : State) (x : StreamX) (ring : Nat) (smps : List Sample) : Sent :=
  if ¬ s.ringSpace ring smps.length then ⟨false, smps, s⟩
  else
    let out := (List.range smps.length).map fun k =>
      hostOut (s.rd (F.DSP_STR_FMT_WIDTH x.sid)) (s.sendVal x k (smps.getD k invalidSample))
    ⟨true, (List.range smps.length).map (fun k =>
        let a := smps.getD k invalidSample
        a.put tgClip (a.is tgClip || (out.getD k (0, false)).2)),
      s.ringPut ring (out.map (·.1))⟩

/-- The window address of the tag of internal ring word `i` (spec/07_shared_banks.md, R319). -/
def State.tagAddr (s : State) (ring i : Nat) : Nat :=
  0x800000 + (s.geo ring).base + 4 * s.ringLen ring + i % s.ringLen ring

/-- Samples and their tags written into an internal ring from index `i` (spec/07_shared_banks.md, R319). -/
def State.putTagged (s : State) (ring i : Nat) : List Sample → State
  | [] => s
  | a :: rest => State.putTagged ((s.setWord (s.ringAddr ring i) a.val).setByte (s.tagAddr ring i) a.tag) ring (i + 1) rest

/-- A frame into an internal ring, whose HIDX is the write and DIDX the gather index (log entry 9). -/
def State.toInternal (s : State) (ring : Nat) (smps : List Sample) : Sent :=
  if ¬ s.ringOn ring ∨ s.ringLen ring < s.occupancy ring + smps.length then ⟨false, smps, s⟩
  else ⟨true, smps, (s.putTagged ring (s.hidx ring) smps).wr (F.DSP_RING_HIDX_HIDX ring) (s.hidx ring + smps.length)⟩

/-- A frame to the stream's destination. -/
def State.sendFrame (s : State) (x : StreamX) (smps : List Sample) : Sent :=
  let dt := s.rd (F.DSP_STR_CFG_DTYPE x.sid)
  let i := s.rd (F.DSP_STR_CFG_DIDX x.sid)
  if dt = 1 then s.toTdm x 0 smps else if dt = 2 then s.toTdm x 1 smps
  else if dt = 3 then s.toSpdif x smps
  else if dt = 6 then s.toHostRing x i smps
  else s.toInternal i smps

/-- The counters and sticky bits after a frame (R201, R209, R210). -/
def State.countFrame (s : State) (sid : Nat) (ok : Bool) (smps : List Sample) : State :=
  let leapSrc := s.rd (F.DSP_STR_CFG_STYPE sid) = 8 ∨ s.rd (F.DSP_STR_CFG_STYPE sid) = 9
  let s1 := if ok then s else s.set1 (F.DSP_STR_STAT_OVR sid)
  let s2 := if (ok ∧ smps.any (fun a => !a.is tgValid)) ∨ (¬ ok ∧ leapSrc) then s1.sat (F.DSP_STR_CNT_INVCNT sid) 1 else s1
  let s3 := if ok ∧ smps.any (·.is tgClip) then (s2.sat (F.DSP_STR_CNT_CLIPCNT sid) 1).set1 (F.DSP_STR_STAT_CLIP sid) else s2
  let s4 := if ok ∧ smps.any (·.is tgSrcInv) then s3.set1 (F.DSP_STR_STAT_SRCINV sid) else s3
  let s5 := if ok ∧ smps.any (·.is tgDisc) then s4.set1 (F.DSP_STR_STAT_DISC sid) else s4
  let i := s5.rd64 (Reg.DSP_STR_IDX_LO sid)
  let s6 := if ok ∧ smps.all (·.is tgValid) then s5.wr64 (Reg.DSP_STR_GOOD_LO sid) i else s5
  s6.wr64 (Reg.DSP_STR_IDX_LO sid) (i + 1)

/-- The extension after a frame: the last validity and last valid sample of each channel, and the frame itself. -/
def StreamX.after (x : StreamX) (smps out : List Sample) (ok : Bool) : StreamX :=
  { x with
    moved := true
    prev := smps.map (·.is tgValid)
    last := (List.range smps.length).map fun k =>
      let a := smps.getD k invalidSample
      if a.is tgValid then a.val else x.last.getD k 0
    out := if ok then out else x.out }

/-- One frame of a running stream (R201, R208 to R214). -/
def State.moveFrame (s : State) (x : StreamX) (f : FrameIn) : State :=
  let t := s.takeFrame x f
  let smps := t.s.markFrame t.x t.smps
  let marked : State := { t.s with saf := { t.s.saf with vdisc := t.s.saf.vdisc.filter fun (e : Nat × Nat) => e.1 ≠ x.sid } }
  let d := marked.sendFrame t.x smps
  let s1 := d.s.setStr (t.x.after smps d.smps d.ok)
  let s2 := s1.countFrame x.sid d.ok d.smps
  if t.cause ≠ 0 then s2.strState x.sid stmFill t.cause
  else if ¬ d.ok then s2.strState x.sid stmFill 2
  else s2.strState x.sid stmRun 0

/-- Whether the start condition of a waiting stream is met (R213, R215, R216; spec/11_inputs_wake.md, R556). -/
def State.mayStart (s : State) (x : StreamX) : Bool :=
  s.strSync x.sid && (x.start = 0 || x.tick) && (s.pstate = stIdle || s.pstate = stPlay)

/-- Whether the ring of a stream from a host ring holds LEAD frames (R213). -/
def State.leadMet (s : State) (x : StreamX) : Bool :=
  s.rd (F.DSP_STR_CFG_STYPE x.sid) ≠ 6
    || x.primed || decide (x.lead * s.strCh x.sid ≤ s.occupancy (s.rd (F.DSP_STR_CFG_SIDX x.sid)))

/-- A handover stream whose first index has fallen below OLDEST starts at OLDEST (spec/11_inputs_wake.md, R556). -/
def State.catchOldest (s : State) (sid : Nat) : State :=
  if s.isHandover sid ∧ s.rd64 (Reg.DSP_STR_IDX_LO sid) < s.rd64 Reg.IN_TAD_OLDEST_LO then
    ((s.wr64 (Reg.DSP_STR_IDX_LO sid) (s.rd64 Reg.IN_TAD_OLDEST_LO)).wr (F.DSP_STR_STAT_CAUSE sid) 2).raiseStream sid 2
  else s

/-- Whether the tadpole buffer holds the next frame of a handover stream (spec/11_inputs_wake.md, R555). -/
def State.tadReady (s : State) (sid : Nat) : Bool :=
  !s.isHandover sid || decide (s.rd64 (Reg.DSP_STR_IDX_LO sid) < s.rd64 Reg.IN_TAD_WIDX_LO)

/-- One frame period of an open stream (R208 to R216). A waiting stream moves its first frame once its start condition is
met; the index of a stream that waits does not advance. -/
def State.frame (s : State) (sid : Nat) (f : FrameIn) : State :=
  match s.strX? sid with
  | none => s
  | some x =>
    if s.rd (F.DSP_STR_STAT_STATE sid) = stmWait then
      if s.mayStart x ∧ s.leadMet x then
        let s1 := s.catchOldest sid
        if s1.tadReady sid then s1.moveFrame { x with primed := true } f else s
      else s
    else if s.tadReady sid then s.moveFrame x f else s

/-- STREAM_FRAME (R208). -/
def execStreamFrame (sid : Fin 128) (frame : FrameIn) (s : State) : Host.Outcome State Fault Refusal :=
  .next (s.frame sid.val frame)

end Sys2Proof.Machine
end

