-- ==== Sys2Proof/Machine/GraphCore.lean ====
section
/-!
DEFINITION. Engines as the graph uses them (spec/06_engines_leap.md): roles and spares (R272, R294, R296, R314), engine
memory (R266, R293), internal rings (R274), the leap buffer (R286 to R291), checkpoints (R282 to R285).
-/

namespace Sys2Proof.Machine

/-! Graph states of DSP_GRAPH_STAT.GSTATE. -/

def gsNone : Nat := 0
def gsLoaded : Nat := 1
def gsArmed : Nat := 2
def gsRunning : Nat := 3
def gsStopping : Nat := 4
def gsStaged : Nat := 5

def State.gstate (s : State) : Nat := s.rd F.DSP_GRAPH_STAT_GSTATE
def State.setGstate (s : State) (g : Nat) : State := s.wr F.DSP_GRAPH_STAT_GSTATE g

/-- Whether blocks are computed. -/
def State.graphRuns (s : State) : Bool := s.gstate = gsRunning || s.gstate = gsStaged

/-- The image that occupies engines: the loaded one, or one being loaded. -/
def State.placed? (s : State) : Option GImage :=
  match s.graph.image with
  | some g => some g
  | none => s.graph.loading

/-! Engine roles of DSP_NEn_STAT.ROLE. -/

def roFree : Nat := 0
def roRun : Nat := 1
def roSpare : Nat := 2
def roRestore : Nat := 3
def roCatch : Nat := 4
def roTest : Nat := 5
def roRetired : Nat := 6
def roHalted : Nat := 7

def State.role (s : State) (n : Nat) : Nat := s.rd (F.DSP_NE_STAT_ROLE n)

/-- An engine takes a role and a logical engine (0xF none); its clock runs in PLAY in roles 0x1 to 0x5
(spec/14_power_states.md, R617; log entry 12). -/
def State.setRole (s : State) (n r l : Nat) : State :=
  ((s.wr (F.DSP_NE_STAT_ROLE n) r).wr (F.DSP_NE_STAT_LENG n) l).wr (F.DSP_NE_STAT_CLKON n) (b2n (1 ≤ r && r ≤ 5 && s.pstate = stPlay))

/-- Whether an engine is healthy: neither retired nor in self-test, nor halted (R272). -/
def State.healthy (s : State) (n : Nat) : Bool := s.role n ≠ roTest && s.role n ≠ roRetired && s.role n ≠ roHalted

/-- Whether a logical engine occupies engine `n`. -/
def State.occupied (s : State) (n : Nat) : Bool := s.graph.les.any fun e => e.host = n

/-- The reserved spares are chosen again (R272): the RESERVE lowest-numbered healthy engines that no logical engine
occupies, powered at once (spec/14_power_states.md, R646). -/
def State.respare (s : State) : State :=
  let pool := indices 8 fun n => s.healthy n && !s.occupied n
  let chosen := pool.take (s.rd F.DSP_SPARE_RESERVE)
  let s1 := pool.foldl (fun s n => if chosen.contains n then (s.setRole n roSpare 0xF).domUp (dmEngine n)
    else s.setRole n roFree 0xF) s
  s1.wr F.DSP_SPARE_SPMAP (maskOf 8 chosen.contains)

/-- The lowest-numbered free reserved spare (R294). -/
def State.spare? (s : State) : Option Nat := (List.range 8).find? fun n => inMask (s.rd F.DSP_SPARE_SPMAP) n

/-! Logical engines. -/

def State.le (s : State) (l : Nat) : LEngine := s.graph.les.getD l default

def State.modLe (s : State) (l : Nat) (f : LEngine → LEngine) : State :=
  { s with graph := { s.graph with les := s.graph.les.mapIdx fun i e => if i = l then f e else e } }

def State.modGraph (s : State) (f : Graph → Graph) : State := { s with graph := f s.graph }

/-- The logical engine that engine `n` hosts. -/
def State.hosted? (s : State) (n : Nat) : Option Nat :=
  (List.range s.graph.les.length).find? fun l => (s.le l).host = n

/-- A logical engine at its first block. -/
def freshLe (host : Nat) : LEngine :=
  { host := host, next := 0, busy := false, ins := [], slotA := [], slotB := [], nextB := false, copy := none, copyBad := none,
    loading := false, behind := false, lag := false, redo := 0, seed := [], late := none }

/-- Whether a task is shed. -/
def State.isShed (s : State) (t : Nat) : Bool := s.graph.shed.any fun (e : Nat × Nat) => e.1 = t

/-- Whether an engine is at work, so that its comparator and memories can fault (R278, R309). -/
def State.engineWorks (s : State) (n : Nat) : Bool :=
  s.role n = roRun || s.role n = roSpare || s.role n = roRestore || s.role n = roCatch

/-- The block that a task computes while its engine is at block `k`. -/
def State.taskBlk (s : State) (g : GImage) (t : GTask) (k : Nat) : Option Nat := g.taskBlk s.graph.base t k

/-- The logical engine that runs a task: its own, or one that adopted it (R297). -/
def State.runner (s : State) (t : GTask) : Nat :=
  match s.graph.adopted.find? (fun (e : Nat × Nat) => e.1 = t.num) with
  | some e => e.2
  | none => t.leng

/-- The tasks that are computed with logical engine `l`'s blocks and not shed. -/
def State.liveTasks (s : State) (g : GImage) (l : Nat) : List GTask :=
  g.tasks.filter fun t => t.leng = l && !s.isShed t.num

/-- The tasks that run on logical engine `l`'s host: its own that no other adopted, and those it adopted. -/
def State.tasksOn (s : State) (g : GImage) (l : Nat) : List GTask :=
  g.tasks.filter fun t => s.runner t = l && !s.isShed t.num

/-- The logical engines with tasks that `l` has adopted (R297). -/
def State.guestsOf (s : State) (g : GImage) (l : Nat) : List Nat :=
  ((s.tasksOn g l).filter fun t => t.leng ≠ l).map GTask.leng |>.eraseDups

/-- The logical engines that have adopted tasks of `l` (R297). -/
def State.adoptersOf (s : State) (g : GImage) (l : Nat) : List Nat :=
  (((s.liveTasks g l).map s.runner).filter (· ≠ l)).eraseDups

/-- Whether every task of logical engine `l` finds its input blocks written (R276): each engine with a task that writes a ring that
one of them reads has ended that block. -/
def State.inputsReady (s : State) (g : GImage) (l : Nat) : Bool :=
  g.tasks.all fun t => t.leng ≠ l || match s.taskBlk g t (s.le l).next with
    | none => true
    | some b => t.inPorts.all fun w => portLeap w
        || g.tasks.all fun u => u.leng = l || !u.writesRing (portIdx w) || decide (b + g.lagOf u < (s.le u.leng).next)

/-! Engine memory (R266): words by byte address of the engine's map. -/

def engKey (n a : Nat) : Nat := n * 2 ^ 16 + a / 4

def State.engWord (s : State) (n a : Nat) : Word := Sparse.get (fun _ => 0) s.engMem (engKey n a)

def State.setEngWord (s : State) (n a : Nat) (w : Word) : State :=
  { s with engMem := Sparse.set (fun _ => 0) s.engMem (engKey n a) w }

/-- The tag of the DMEM word at byte address `a` of engine `n` (R266); PROV in it is ignored (R268), bit 7 is 0
(spec/05_streams_ports.md, R195). -/
def State.setEngTag (s : State) (n a : Nat) (t : BitVec 8) : State :=
  let k := (a - 0x10000) / 4
  let b := 0x30000 + k / 4 * 4
  s.setEngWord n b (putBits (s.engWord n b) (8 * (k % 4)) 8 (t &&& 0x6F).toNat)

/-- Words written from byte address `a` of engine `n`'s map. -/
def State.putEng (s : State) (n a : Nat) : List Word → State
  | [] => s
  | w :: ws => State.putEng (s.setEngWord n a w) n (a + 4) ws

/-- `k` words from byte address `a` of engine `n`'s map. -/
def State.engWords (s : State) (n a k : Nat) : List Word := (List.range k).map fun i => s.engWord n (a + 4 * i)

/-- Words of the image loaded into engine `n` from byte address `a`; a poisoned word is discarded (spec/01_architecture.md, R19). -/
def State.loadSpan (s : State) (g : GImage) (ofs n a : Nat) : Nat → State
  | 0 => s
  | k + 1 =>
    let src := 0x800000 + g.ofs + ofs
    let s1 := if s.poison.contains src then s.deliverPoison src else s.setEngWord n a (s.word src)
    State.loadSpan s1 g (ofs + 4) n (a + 4) k

/-- The IMEM image of logical engine `l` in engine `n` (R293). -/
def State.loadImem (s : State) (g : GImage) (l n : Nat) : State :=
  let e := g.engines.getD l default
  s.loadSpan g e.imemOfs n 0 e.imemLen

/-- The initial data of logical engine `l` in engine `n`'s DMEM. -/
def State.loadData (s : State) (g : GImage) (l n : Nat) : State :=
  let e := g.engines.getD l default
  s.loadSpan g e.dataOfs n 0x10000 e.dataLen

/-- The initial data of one state region. -/
def State.loadRegion (s : State) (g : GImage) (r : GRegion) (n : Nat) : State :=
  let e := g.engines.getD r.leng default
  s.loadSpan g (e.dataOfs + r.ofs) n (0x10000 + r.ofs) (min r.len (e.dataLen - r.ofs / 4))

/-- DMEM after a restore: what no checkpointed region holds is undefined (R282, the caution before it). -/
def State.openDmem (s : State) (n : Nat) : State :=
  forEach (fun i s => (s.setEngWord n (0x10000 + 4 * i) s.free).drawn) 32768 s

/-- The regions of a slot written to engine `n`. -/
def State.restoreRegions (s : State) (g : GImage) (n : Nat) (rs : List (Nat × List Word)) : State :=
  rs.foldl (fun (s : State) (e : Nat × List Word) =>
    match g.regions.find? (fun r => r.id = e.1) with
    | some r => s.putEng n (0x10000 + r.ofs) e.2
    | none => s) s

/-! Internal rings (R274). -/

/-- The ring index of the first word of block `k` of an internal ring. -/
def State.ringAt (s : State) (g : GImage) (q : GRing) (k : Nat) : Nat :=
  let st := match s.graph.starts.find? (fun (e : Nat × Nat) => e.1 = q.ring) with
    | some e => e.2
    | none => 0
  st + k * g.block * q.chans

/-- A sample of an internal ring with its tag; one with a poisoned word or tag has VALID clear (spec/01_architecture.md, R20). -/
def State.ringSample (s : State) (ring i : Nat) : Sample :=
  let a := s.ringAddr ring i
  let t := s.tagAddr ring i
  if s.poison.contains a || s.poison.contains (t / 4 * 4) then invalidSample else ⟨s.word a, s.byte t &&& 0x7F⟩

/-- Block `k` as an input port sees it: frame by frame, channel by channel. -/
def State.inBlock (s : State) (g : GImage) (k : Nat) (w : Word) : List Sample :=
  match g.ring? (portIdx w) with
  | some q => (List.range g.block).flatMap fun i => (List.range (portCount w)).map fun c =>
      s.ringSample q.ring (s.ringAt g q k + i * q.chans + portFirst w + c)
  | none => []

/-- The bank words, samples and tags, that an input port's block `k` is read from. -/
def State.inAddrs (s : State) (g : GImage) (k : Nat) (w : Word) : List Nat :=
  match g.ring? (portIdx w) with
  | some q => ((List.range g.block).flatMap fun i => (List.range (portCount w)).flatMap fun c =>
      let at' := s.ringAt g q k + i * q.chans + portFirst w + c
      [s.ringAddr q.ring at', s.tagAddr q.ring at' / 4 * 4]).eraseDups
  | none => []

/-- The input blocks of logical engine `l` are gathered into its DMEM (R274): the samples by task and port; poisoned words count as
read (spec/01_architecture.md, R19). -/
def State.gatherIn (s : State) (g : GImage) (l : Nat) : State :=
  let ts := g.tasks.filterMap fun t => if t.leng = l then (s.taskBlk g t (s.le l).next).map fun b => (t, b) else none
  let ins := ts.map fun (e : GTask × Nat) => (e.1.num, e.1.inPorts.map (s.inBlock g e.2))
  let bad := ts.flatMap fun (e : GTask × Nat) => e.1.inPorts.flatMap fun w => (s.inAddrs g e.2 w).filter s.poison.contains
  (bad.foldl State.deliverPoison s).modLe l fun (e : LEngine) => { e with ins := ins }

/-- The gathered block of an input port. -/
def LEngine.input (e : LEngine) (t : GTask) (j : Nat) : List Sample :=
  match e.ins.find? (fun (x : Nat × List (List Sample)) => x.1 = t.num) with
  | some x => x.2.getD j []
  | none => []

/-- Sets up internal rings of an image (R274, DSP_RINGn of rings 16 to 31). -/
def State.setRings (s : State) (rs : List GRing) : State :=
  rs.foldl (fun s q =>
    let s1 := (s.setReg (Reg.DSP_RING_BASE q.ring) (w32 (q.base * 256))).setReg (Reg.DSP_RING_CFG q.ring) (w32 (2 ^ 16 + q.log2))
    let s2 := (s1.wr (F.DSP_RING_HIDX_HIDX q.ring) 0).wr (F.DSP_RING_DIDX_DIDX q.ring) 0
    { s2 with rings := vmod s2.rings q.ring fun _ => ⟨q.base * 256, q.log2⟩ }) s

/-- Internal rings back to the set-up of R153 (R312). -/
def State.dropRings (s : State) (rs : List GRing) : State :=
  rs.foldl (fun s q =>
    let s1 := (s.setReg (Reg.DSP_RING_BASE q.ring) 0).setReg (Reg.DSP_RING_CFG q.ring) 6
    let s2 := (s1.wr (F.DSP_RING_HIDX_HIDX q.ring) 0).wr (F.DSP_RING_DIDX_DIDX q.ring) 0
    { s2 with rings := vmod s2.rings q.ring fun _ => ⟨0, 6⟩ }) s

/-! The leap buffer. -/

def State.modLeap (s : State) (c : Nat) (f : LeapCh → LeapCh) : State := { s with leap := vmod s.leap c f }

/-- The first uncommitted index of a leap channel. -/
def State.cidx (s : State) (c : Nat) : Nat := s.rd64 (Reg.DSP_LEAP_CIDX_LO c)

/-- AHEAD follows the read point and the commits. -/
def State.showAhead (s : State) (c : Nat) : State :=
  s.wr (F.DSP_LEAP_STAT_AHEAD c) (min 1023 ((s.cidx c : Int) - (vat s.leap c).read).toNat)

/-- Samples below index `i` of a leap channel are committed: PROV clears on all of them (R288). -/
def State.commitTo (s : State) (c i : Nat) : State :=
  if i ≤ s.cidx c then s
  else
    ((s.modLeap c fun (h : LeapCh) => { h with
      samples := h.samples.map fun (e : LeapSample) =>
        if e.idx < i then { e with smp := e.smp.put tgProv false } else e
      discAt := h.discAt.filter fun d => decide (i ≤ d) }).wr64 (Reg.DSP_LEAP_CIDX_LO c) i).showAhead c

/-- A provisional sample written at index `i` of a leap channel, in the place of an older one. -/
def putLeap (i : Nat) (a : Sample) : List LeapSample → List LeapSample
  | [] => [⟨i, a⟩]
  | e :: rest => if e.idx < i then e :: putLeap i a rest else if e.idx = i then ⟨i, a⟩ :: rest else ⟨i, a⟩ :: e :: rest

/-- A block written provisionally into a leap channel from index `i`; committed samples stay as they are (R274, R285, R292),
and the first uncommitted sample after a molt or a shedding carries DISC, however often it is written (R299, R308). -/
def State.writeLeap (s : State) (c i : Nat) (smps : List Sample) : State :=
  let lim := s.cidx c
  s.modLeap c fun (h : LeapCh) =>
    { h with
      samples := (List.range smps.length).foldl (fun acc j =>
        if i + j < lim then acc
        else
          let a := (smps.getD j invalidSample).put tgProv true
          putLeap (i + j) (if h.discAt.contains (i + j) then a.put tgDisc true else a) acc) h.samples }

/-- The larger demand kept per retracted index (spec/01_architecture.md, R47). -/
def keepDemand (l : List (Nat × Nat)) (e : LeapSample) : List (Nat × Nat) :=
  match l.find? (fun (p : Nat × Nat) => p.1 = e.idx) with
  | some p => l.map fun (q : Nat × Nat) => if q.1 = e.idx then (q.1, max p.2 e.smp.val.toInt.natAbs) else q
  | none => l ++ [(e.idx, e.smp.val.toInt.natAbs)]

/-- A leap channel is retracted from its first uncommitted sample: its commit freezes, the echo tap marks the replaced span
(spec/11_inputs_wake.md, R560), and the CV DAC's envelope keeps the demand of what is lost (R290, R291; spec/01_architecture.md, R47). -/
def State.retract (s : State) (c : Nat) : State :=
  let i := s.cidx c
  let s1 := s.modLeap c fun (h : LeapCh) =>
    let lost := h.samples.filter fun e => i ≤ e.idx
    { h with
      samples := h.samples.filter fun e => e.idx < i
      echo := h.echo ++ [(i, h.samples.foldl (fun m e => max m e.idx) (i + 8 * 2 ^ s.rd F.DSP_GRAPH_STAT_BC - 1))]
      demand := (lost.filter fun e => e.smp.is tgValid).foldl keepDemand h.demand }
  (s1.set1 (F.DSP_LEAP_STAT_RETRACTING c)).sat (F.DSP_LEAP_CNT_RETCNT c) 1

/-- The leap channels that a logical engine writes. -/
def GImage.channels (g : GImage) (l : Nat) : List Nat := (g.leaps.filter (fun q => q.leng = l)).map (·.chan)

/-- The task that writes a leap channel. -/
def GImage.writer (g : GImage) (q : GLeap) : GTask := (g.task? q.task).getD default

/-! Commit (R288). -/

/-- The tick that commits what logical engine `l` computes at its block `k`: k + 2 + S of the earliest block among its tasks (R274, R288). -/
def State.dueTick (s : State) (g : GImage) (l k : Nat) : Nat :=
  2 + g.stages + (g.tasks.filter fun t => t.leng = l).foldl (fun m t => min m ((s.taskBlk g t k).getD k)) k

/-- Whether that tick has come. -/
def State.commitDue (s : State) (g : GImage) (l k : Nat) : Bool :=
  match s.graph.tick with
  | some p => decide (s.dueTick g l k ≤ p)
  | none => false

/-- The blocks of logical engine `l` that are ended and due are committed on its channels that no retraction freezes (R288). -/
def State.commitLe (s : State) (g : GImage) (l : Nat) : State :=
  if s.graph.dead then s
  else
    match s.graph.tick with
    | none => s
    | some p =>
      (g.leaps.filter fun q => q.leng = l).foldl (fun s q =>
        let k := min ((s.le l).next - g.lagOf (g.writer q)) (p - 1 - g.stages)
        if s.on (F.DSP_LEAP_STAT_RETRACTING q.chan) then s else s.commitTo q.chan (k * g.block)) s

/-- Every due block is committed. -/
def State.commitAll (s : State) (g : GImage) : State := forEach (fun l s => s.commitLe g l) g.count s

/-! Checkpoints and parameters (R282 to R285). -/

/-- The checkpointed regions of logical engine `l`. -/
def GImage.saved (g : GImage) (l : Nat) : List GRegion := g.regions.filter fun r => r.leng = l && r.cls ≠ 3

/-- Where logical engine `l`'s DMEM stands: its host, or, where adopters run its tasks, a place of its own on them, whose
layout the spec does not give (log entry 13). -/
def State.dmemOf (s : State) (l : Nat) : Nat := if (s.le l).host = 0xF then 8 + l else (s.le l).host

/-- What a checkpoint copy of logical engine `l` takes before its next block. -/
def State.snapshot (s : State) (g : GImage) (l : Nat) : Slot :=
  let e := s.le l
  { blk := e.next
    regions := (g.saved l).map fun r => (r.id, s.engWords (s.dmemOf l) (0x10000 + r.ofs) r.len)
    rings := (g.rings.filter (fun q => g.tasks.any fun t => t.leng = l && (t.readsRing (q.ring - 16) || t.writesRing (q.ring - 16)))).map
      fun q => (q.ring, s.ringAt g q e.next % 2 ^ 17)
    pseq := s.graph.pseq }

/-- A slot's words: header, CRC and body (R283). `b` tells slot B. -/
def Slot.words (c : Slot) (b : Bool) (leng : Nat) (graph : Word) : List Word :=
  let head := [0x434B5054, w32 (b2n b * 2 ^ 31 + leng * 2 ^ 24 + c.regions.length), w32 c.blk, w32 (c.blk / 2 ^ 32), graph, w32 c.pseq,
    w32 c.rings.length]
  let body := (c.regions.flatMap fun (e : Nat × List Word) => w32 (e.1 * 2 ^ 16 + e.2.length) :: e.2)
    ++ c.rings.map fun (e : Nat × Nat) => w32 (e.1 * 2 ^ 24 + e.2)
  head ++ [crc32c (head ++ body)] ++ body

/-- `n` region records of a slot's body, and what follows them (R283). -/
def readRegions : Nat → List Word → List (Nat × List Word) × List Word
  | 0, ws => ([], ws)
  | _ + 1, [] => ([], [])
  | n + 1, w :: ws =>
    let r := readRegions n (ws.drop (bits w 0 16))
    ((bits w 16 16, ws.take (bits w 0 16)) :: r.1, r.2)

/-- What a slot holds, where it is sealed: its MAGIC and CRC are right (R282, R283). -/
def Slot.read? (ws : List Word) : Option Slot :=
  if pw ws 0 = 0x434B5054 ∧ crc32c (ws.take 7 ++ ws.drop 8) = pw ws 7 then
    let r := readRegions (pf ws 1 0 16) (ws.drop 8)
    some { blk := (pw ws 3).toNat * 2 ^ 32 + (pw ws 2).toNat, regions := r.1, pseq := (pw ws 5).toNat
           rings := (r.2.take (pf ws 6 0 16)).map fun w => (bits w 24 8, bits w 0 17) }
  else none

/-- The newest sealed slot (R282). -/
def LEngine.newest (e : LEngine) : Option Slot :=
  match Slot.read? e.slotA, Slot.read? e.slotB with
  | some a, some b => if a.blk < b.blk then some b else some a
  | some a, none => some a
  | none, b => b

/-- The parameter writes that stand before block `k` of logical engine `l` are applied (R284). -/
def State.applyParams (s : State) (g : GImage) (l k : Nat) : State :=
  s.graph.params.foldl (fun s q =>
    match g.regions.find? (fun r => r.id = q.region) with
    | some r =>
      if r.leng = l ∧ q.blk = some k then
        { (s.putEng (s.dmemOf l) (0x10000 + r.ofs + 4 * q.ofs) q.vals) with
          graph := { s.graph with pseq := max s.graph.pseq q.seq } }
      else s
    | none => s) s

/-- Logical engine `l` begins its next block: parameters, the gather, then the checkpoint copy (R274, R282, R284). -/
def State.beginBlock (s : State) (g : GImage) (l : Nat) : State :=
  let s1 := (s.applyParams g l (s.le l).next).gatherIn g l
  s1.modLe l fun (e : LEngine) => { e with busy := true, copy := some (s1.snapshot g l) }

/-- Whether logical engine `l` has engines for all its live tasks: a host, or adopters (R297). -/
def State.hasHost (s : State) (g : GImage) (l : Nat) : Bool :=
  (s.le l).host ≠ 0xF || (s.liveTasks g l).all fun t => s.runner t ≠ l

/-- Whether the engine of logical engine `l`, if it has one of its own, is at work: not halted by a fault that waits (R280). -/
def State.hostWorks (s : State) (l : Nat) : Bool := (s.le l).host = 0xF || s.engineWorks (s.le l).host

/-- Whether logical engine `l` may begin its next block (R276): its tick has come, its input blocks are written, and
it has an engine that is loaded. -/
def State.mayBegin (s : State) (g : GImage) (l : Nat) : Bool :=
  let e := s.le l
  match s.graph.tick with
  | none => false
  | some p =>
    s.graphRuns && s.hasHost g l && s.hostWorks l && !e.busy && !e.loading && decide (e.next + 1 + g.firstStage l ≤ p) && s.inputsReady g l

end Sys2Proof.Machine
end

