-- ==== Sys2Proof/Machine/Engines.lean ====
section
/-!
DEFINITION. The block schedule and engine faults (spec/06_engines_leap.md, R267, R273 to R301, R307, R308, R316, R803, R804).
-/

namespace Sys2Proof.Machine

/-! What an engine writes at block end. -/

/-- A read-out with saturation to 32 bits; whether it saturated (R264, R265). -/
def satWord (neg : Bool) (mag : Nat) : Word × Bool :=
  if neg then (if mag ≤ 2 ^ 31 then (BitVec.ofInt 32 (-(mag : Int)), false) else (0x80000000, true))
  else if mag < 2 ^ 31 then (BitVec.ofNat 32 mag, false) else (0x7FFFFFFF, true)

/-- An accumulator read out (R264): Q2.62 with 8 guard bits to Q1.31, to nearest, ties away from zero. -/
def accOut (start : BitVec 72) (products : List (Word × Word)) : Word × Bool :=
  let x := products.foldl (fun m (e : Word × Word) => m + e.1.toInt * e.2.toInt) start.toInt
  if -(2 ^ 71 : Int) ≤ x ∧ x < 2 ^ 71 then satWord (decide (x < 0)) (roundAway x.natAbs 31)
  else ((Config.accOpen x).extractLsb' 0 32, (Config.accOpen x).msb)

/-- A float as an output port writes it (R265): to nearest even, subnormals as zero, saturated. -/
def floatOut (w : Word) : Word × Bool :=
  let e := bits w 23 8
  let m := bits w 0 23 + 2 ^ 23
  if e = 0 then (0, false)
  else satWord (bit w 31) (if 119 ≤ e then m * 2 ^ (min (e - 119) 64) else roundEven m (119 - e))

/-- Whether a float is a NaN. -/
def isNan (w : Word) : Bool := bits w 23 8 = 255 && bits w 0 23 ≠ 0

/-- The sample that an output port writes (R264, R265): saturation sets CLIP, a NaN clears VALID; PROV and bit 7 are never set (R268;
spec/05_streams_ports.md, R195). -/
def portSample (v : PortValue) (tag : BitVec 8) : Sample :=
  let a := fun (r : Word × Bool) => (⟨r.1, if r.2 then (tag &&& 0x6F) ||| 0x02 else tag &&& 0x6F⟩ : Sample)
  match v with
  | .fixed w => a (w, false)
  | .acc start ps => a (accOut start ps)
  | .float w => if isNan w then (a (Config.nanSample w, false)).put tgValid false else a (floatOut w)

/-- The bypass of a shed task at one output port for block `k` (R299): COPY passes input port 0 to output port 0, and
everything else is valid zeros; DISC marks the first sample of the port. -/
def State.bypass (s : State) (t : GTask) (src : List Sample) (block k j n : Nat) : List Sample :=
  let n0 := portCount (t.inPorts.getD 0 0)
  (List.range block).flatMap fun i => (List.range n).map fun c =>
    let a : Sample := if t.zero ∨ j ≠ 0 ∨ t.nin = 0 ∨ n0 ≤ c then ⟨0, 0x01⟩ else src.getD (i * n0 + c) ⟨0, 0x01⟩
    if i = 0 ∧ s.graph.shed.contains (t.num, k) then a.put tgDisc true else a

/-- The tag of an output sample that its task did not write itself (R267): from the samples at the same position of every
input port, with CLIP also as computed, and no VALID on a NaN (R265). -/
def defaultTag (ins : List Sample) (nan : Bool) (a : Sample) : Sample :=
  let valid := ins.all (·.is tgValid) && !nan
  let any := fun b => ins.any (fun (x : Sample) => x.is b)
  (((((({ val := a.val, tag := 0 } : Sample).put tgValid valid).put tgClip (any tgClip || a.is tgClip)).put tgDisc
    (any tgDisc)).put tgFill (any tgFill)).put tgSrcInv (any tgSrcInv)).put tgTadp (any tgTadp)

/-- One output port of a running task (R264 to R268), from its gathered input blocks with their channel counts. -/
def computed (t : GTask) (ins : List (Nat × List Sample)) (block j n : Nat) (out : BlockOut) : List Sample :=
  let o := out.outs.find? fun o => o.task = t.num && o.port = j
  (List.range block).flatMap fun i => (List.range n).map fun c =>
    match o with
    | none => invalidSample
    | some q =>
      let v := q.samples.getD (i * n + c) (.fixed 0, 0)
      let a := portSample v.1 v.2
      let nan := match v.1 with
        | .float w => isNan w
        | _ => false
      if q.own then a
      else defaultTag (ins.filterMap fun (e : Nat × List Sample) => if c < e.1 then e.2[i * e.1 + c]? else none) nan a

/-- A block of samples written at its place in an internal ring, whose HIDX moves past the block (R274). -/
def State.writeRing (s : State) (g : GImage) (q : GRing) (k first n : Nat) (smps : List Sample) : State :=
  let b := s.ringAt g q k
  let s1 := (List.range smps.length).foldl (fun s i =>
    let w := b + i / n * q.chans + first + i % n
    let a := smps.getD i invalidSample
    (s.setWord (s.ringAddr q.ring w) a.val).setByte (s.tagAddr q.ring w) a.tag) s
  s1.wr (F.DSP_RING_HIDX_HIDX q.ring) (s.ringAt g q (k + 1))

/-- The output ports of a task for block `k` (R274, R299). -/
def State.writePorts (s : State) (g : GImage) (t : GTask) (k : Nat) (out : BlockOut) : State :=
  let e := s.le t.leng
  let ins := (List.range t.nin).map fun j => (portCount (t.inPorts.getD j 0), e.input t j)
  (List.range t.nout).foldl (fun s j =>
    let w := t.outPorts.getD j 0
    let n := portCount w
    let smps := if s.isShed t.num then s.bypass t (e.input t 0) g.block k j n else computed t ins g.block j n out
    if portLeap w then s.writeLeap (portIdx w) (k * g.block) smps
    else match g.ring? (portIdx w) with
      | some q => s.writeRing g q k (portFirst w) n smps
      | none => s) s

/-- Whether the writes of block `k` of logical engine `l` are suppressed: a replay up to the block whose copy failed (R285). -/
def State.replays (s : State) (l k : Nat) : Bool :=
  s.graph.recs.any fun r => r.leng = l && r.kind = 3 && k < r.restore

/-- Everything that the tasks of logical engine `l` write at its block `k`. -/
def State.writeBlock (s : State) (g : GImage) (l k : Nat) (out : BlockOut) : State :=
  if s.replays l k then s
  else
    g.tasks.foldl (fun s t =>
      match (if t.leng = l then s.taskBlk g t k else none) with
      | some b => s.writePorts g t b out
      | none => s) s

/-! Repairs (R316). -/

/-- EVT_REPAIR for an engine (R316). -/
def State.raiseEngineRepair (s : State) (kind failed spare l shed chans first : Nat) : State :=
  s.raise evRepair
    [w32 (kind * 2 ^ 28 + failed * 2 ^ 24 + spare * 2 ^ 20 + l * 2 ^ 16 + shed * 2 ^ 8 + chans), w32 first]

/-- A repair is complete: EVT_REPAIR, REPCNT, LEVEL (R316). -/
def State.repairDone (s : State) (r : Recovery) : State :=
  (s.repaired rgDsp r.code 0 r.failed).raiseEngineRepair r.kind r.failed r.spare r.leng r.shed r.chans r.first

/-- Recoveries whose restored block has ended and is committed, or whose replay has ended, are complete (R293, R316). -/
def State.completeRecs (s : State) (g : GImage) : State :=
  let fin := fun (r : Recovery) => r.ended && (r.kind = 3 || s.commitDue g r.leng r.restore)
  let done := s.graph.recs.filter fin
  let s1 := s.modGraph fun (q : Graph) => { q with recs := q.recs.filter fun r => !fin r }
  done.foldl State.repairDone s1

/-- A molt is complete once the new graph is on schedule (R308). -/
def State.moltDone (s : State) : State :=
  if s.graph.molting ∧ s.graph.les.all (fun e => !e.loading && !e.behind) then
    (s.modGraph fun (q : Graph) => { q with molting := false }).finishFor .graph 0x203 stsOk []
  else s

/-! Block end. -/

/-- What an engine's registers show of a block (R266, R280, R315). The block time of an adopter covers its own tasks and those it
adopted (R297), so a block of adopted tasks alone shows nothing of its own. -/
def State.showBlock (s : State) (l k : Nat) (out : BlockOut) : State :=
  let n := (s.le l).host
  if n = 0xF then s
  else
    let s1 := (s.wr (F.DSP_NE_LOAD_LAST n) out.units).wr (F.DSP_NE_LOAD_PEAK n) (max (s.rd (F.DSP_NE_LOAD_PEAK n)) (out.units % 2 ^ 16))
    let s2 := s1.wr64 (Reg.DSP_NE_BLK_LO n) k
    let s3 := if out.corrected = 0 then s2 else (s2.sat (F.DSP_NE_FCNT_CORCNT n) out.corrected).set1 (F.DSP_NE_STAT_ECCCOR n)
    { s3 with eng := vmod s3.eng n fun (q : EngineX) => { q with core := out.core } }

/-- The engine of logical engine `l` after block `k`: on schedule once it ends a block before its commit tick (R293, R295). -/
def State.settleRole (s : State) (g : GImage) (l k : Nat) : State :=
  let e := s.le l
  if ¬ e.behind ∧ ¬ e.lag then s
  else
    let on := !s.commitDue g l k
    let s1 := s.modLe l fun (q : LEngine) => { q with behind := q.behind && !on, lag := q.lag && !on }
    if e.host = 0xF ∨ ¬ e.behind then s1 else s1.setRole e.host (if on then roRun else roCatch) l

/-- Logical engine `l` ends its block (R274, R276, R288, R292 to R295). -/
def State.endBlock (s : State) (g : GImage) (l : Nat) (out : BlockOut) : State :=
  let k := (s.le l).next
  let s1 := s.writeBlock g l k out
  let s2 := s1.modLe l fun (e : LEngine) => { e with next := k + 1, busy := false }
  let e := s.le l
  let back := g.leaps.filter fun q => q.leng = l && e.redo ≤ k && (s.taskBlk g (g.writer q) k).isSome
  let s3 := (if s.replays l k then [] else back).foldl (fun s q => s.clr (F.DSP_LEAP_STAT_RETRACTING q.chan))
    (s2.modGraph fun (q : Graph) => { q with recs := q.recs.map fun (r : Recovery) =>
      if r.leng = l ∧ (if r.kind = 3 then r.restore ≤ k + 1 else r.restore ≤ k) then { r with ended := true } else r })
  (((s3.settleRole g l k).commitLe g l).completeRecs g).moltDone

/-- A block of shed tasks alone, which no engine computes (R299). -/
def emptyOut : BlockOut := { units := 0, outs := [], ops := [], core := [], corrected := 0 }

/-- Logical engine `l` begins its next block if it may; with nothing left to compute, the bypasses end it at once. -/
def State.tryBegin (s : State) (g : GImage) (l : Nat) : State :=
  if s.mayBegin g l then
    if (s.le l).host = 0xF ∧ (s.liveTasks g l).isEmpty then (s.gatherIn g l).endBlock g l emptyOut else s.beginBlock g l
  else s

/-- Every logical engine that may begin its next block does (R276); a block that ends at once may let others begin. -/
def State.startReady (s : State) (g : GImage) : State :=
  forEach (fun _ s => forEach (fun l s => s.tryBegin g l) g.count s) 8 s

/-! Shedding and recovery. -/

/-- Tasks are shed, their bypass in force from the block that they are at (R299); in a leap channel DISC marks the first sample that is
not committed. -/
def State.shedTasks (s : State) (g : GImage) (ts : List GTask) : State :=
  let at' := fun (t : GTask) => (s.taskBlk g t (s.le t.leng).next).getD s.graph.base
  let s1 := s.modGraph fun (q : Graph) => { q with shed := q.shed ++ ts.map fun t => (t.num, at' t) }
  (g.leaps.filter fun q => ts.any fun t => t.num = q.task).foldl (fun (s : State) (q : GLeap) =>
    s.modLeap q.chan fun (h : LeapCh) => { h with discAt := h.discAt ++ [max (s.cidx q.chan) (at' (g.writer q) * g.block)] }) s1

/-- The fault record behind a fault that passes to chip level. -/
def engineFault (code n : Nat) (inj : Bool) : FaultInfo :=
  { code := code, df := 0, region := rgDsp, level := 3, sub := 0, unit := n, detail := 0, inj := inj, active := false }

/-- One task of a running engine is shed (R300): at priority 0 the fault goes to chip level instead. -/
def State.shedOne (s : State) (g : GImage) (l n code : Nat) (t : Option GTask) : State :=
  match t with
  | none => (s.ends rgDsp code 0 n).passUp (engineFault code n false)
  | some t =>
    if t.prio = 0 then (s.ends rgDsp code 0 n).passUp (engineFault code n false)
    else ((s.shedTasks g [t]).repaired rgDsp code 0 n).raiseEngineRepair 2 n 0xF l 1 0 (s.le l).next

/-- The task that R300 sheds: the lowest priority, and the highest number among equals. -/
def State.victim? (s : State) (g : GImage) (l : Nat) : Option GTask :=
  ((s.tasksOn g l).filter (fun t => t.prio ≠ 0)).foldl (fun b t =>
    match b with
    | none => some t
    | some u => if u.prio < t.prio ∨ (u.prio = t.prio ∧ u.num < t.num) then some t else b) none

/-- An engine is held in reset for its self-test (R296). -/
def State.toSelfTest (s : State) (n : Nat) : State :=
  ({ s with eng := vmod s.eng n fun (q : EngineX) => { q with fails := q.fails + 1 } }.setRole n roTest 0xF).respare

/-- The block that a restore of a logical engine begins at (R282, R285, R293): that of its newest sealed slot, or the graph's first. -/
def State.restoreBlk (s : State) (l : Nat) : Nat :=
  match (s.le l).newest with
  | some c => c.blk
  | none => s.graph.base

/-- The block up to which a restore of a logical engine replays with its writes suppressed (R285): that whose copy failed. -/
def State.replayTo (s : State) (l : Nat) : Nat := max (s.restoreBlk l) ((s.le l).copyBad.getD 0)

/-- The output of logical engine `l` is retracted, its rings' write indices and its blocks go back to the restored block
(R285, R290, R293). -/
def State.rollBack (s : State) (g : GImage) (l : Nat) : State :=
  let s1 := (g.channels l).foldl State.retract s
  let s2 := g.tasks.foldl (fun s t =>
    if t.leng = l then
      (g.rings.filter fun q => t.writesRing (q.ring - 16)).foldl
        (fun s q => s.wr (F.DSP_RING_HIDX_HIDX q.ring) (s.ringAt g q ((s.taskBlk g t (s.replayTo l)).getD s.graph.base))) s
    else s) s1
  s2.modLe l fun (q : LEngine) =>
    { q with next := s.restoreBlk l, redo := s.replayTo l, busy := false, copy := none, copyBad := none, loading := true, behind := true }

/-- The first retracted block of logical engine `l` (R316), or with no leap channel the restored one. -/
def State.firstLost (s : State) (g : GImage) (l : Nat) : Nat :=
  (g.channels l).foldl (fun m c => min m (s.cidx c / g.block)) (if (g.channels l).isEmpty then s.replayTo l else (s.le l).next)

/-- Adopters of a fallback plan for the tasks given (R297). -/
def GFall.adopters (f : GFall) (ts : List GTask) : List Nat :=
  ((f.entries.filter fun (e : Nat × Nat) => e.2 ≠ 0xF && ts.any fun t => t.num = e.1).map (·.2)).eraseDups

/-- Whether an engine may adopt (R804): not failed, restoring, catching up, or adopting under another plan. -/
def State.mayAdopt (s : State) (a : Nat) : Bool :=
  let e := s.le a
  e.host ≠ 0xF && !e.loading && !e.behind && !s.graph.adopted.any (fun (p : Nat × Nat) => p.2 = a)

/-- A logical engine with no task left to compute: the bypasses alone give its blocks (R299). -/
def State.bypassOnly (s : State) (g : GImage) (l : Nat) : State :=
  (g.channels l).foldl (fun s c => s.clr (F.DSP_LEAP_STAT_RETRACTING c))
    (s.modLe l fun (e : LEngine) => { e with loading := false, behind := false })

/-- A tail drop of logical engine `l` whose blocks stand at the restored one (R297, R804): the fallback plan, or every task
shed where it cannot be applied. Tasks that `l` had adopted are shed as well (log entry 13). -/
def State.tailDrop (s : State) (g : GImage) (l n code first restore kind chans : Nat) : State :=
  let f := g.falls.getD l default
  let live := s.liveTasks g l
  let ad := f.adopters live
  let ok := ad.all s.mayAdopt
  let guests := (s.tasksOn g l).filter fun t => t.leng ≠ l
  let drop := guests ++ if ok then live.filter (fun t => f.entries.any fun (e : Nat × Nat) => e.1 = t.num && e.2 = 0xF) else live
  let s1 := (s.shedTasks g drop).modLe l fun (e : LEngine) => { e with host := 0xF }
  let new := if ok then f.entries.filter (fun (e : Nat × Nat) => e.2 ≠ 0xF && live.any (fun t => t.num = e.1)) else []
  let kept := s1.graph.adopted.filter fun (e : Nat × Nat) => !(drop.any fun t => t.num = e.1)
  let s2 := s1.modGraph fun (q : Graph) => { q with adopted := kept ++ new }
  let s3 := (guests.map GTask.leng).eraseDups.foldl (fun s m => if (s.liveTasks g m).isEmpty then s.bypassOnly g m else s) s2
  if drop.any (fun t => t.prio = 0) then (s3.ends rgDsp code 0 n).passUp (engineFault code n false)
  else if ok ∧ ¬ ad.isEmpty then
    s3.modGraph fun (q : Graph) =>
      { q with recs := q.recs ++ [⟨if kind = 3 then 3 else 2, code, l, n, 0xF, first, restore, drop.length, chans, false⟩] }
  else ((s3.bypassOnly g l).repaired rgDsp code 0 n).raiseEngineRepair 2 n 0xF l drop.length chans first

/-- A spare takes over logical engine `l` (R294): the spares are chosen again. -/
def State.assign (s : State) (l sp : Nat) (r : Nat) : State :=
  ((s.modLe l fun (e : LEngine) => { e with host := sp }).setRole sp r l).respare

/-- The engine regrow on a spare, or the tail drop where there is none (R293, R294, R297): what `rollBack` left, KIND, and the number
of retracted leap channels. -/
def State.regrowOn (s : State) (g : GImage) (l n code : Nat) (first restore kind chans : Nat) : Option Nat → State
  | some sp =>
    (s.assign l sp roRestore).modGraph fun (q : Graph) =>
      { q with recs := q.recs ++ [⟨kind, code, l, n, sp, first, restore, 0, chans, false⟩] }
  | none => s.tailDrop g l n code first restore kind chans

/-- An engine of a running graph fails: retract, then regrow or tail drop (R290, R293, R294, R297); the tasks that it had adopted are
retracted and restored with its own. -/
def State.failRunning (s : State) (g : GImage) (l n code : Nat) : State :=
  let parts := l :: s.guestsOf g l
  let s1 := parts.foldl (fun s m => s.rollBack g m) s
  let s2 := (s1.modLe l fun (e : LEngine) => { e with host := 0xF }).toSelfTest n
  s2.regrowOn g l n code (s.firstLost g l) (s.replayTo l) (if s.restoreBlk l < s.replayTo l then 3 else 1)
    (parts.flatMap g.channels).length s2.spare?

/-- A logical engine of a graph that does not run moves to a spare, or its fallback plan waits for the start (R803). -/
def State.placeOn (s : State) (g : GImage) (l n code : Nat) : Option Nat → State
  | some sp => (((s.assign l sp roRun).loadImem g l sp).loadData g l sp).repaired rgDsp code 0 n
  | none => (s.ends rgDsp code 0 n).modGraph fun (q : Graph) => { q with plans := q.plans ++ [(l, n, code)] }

/-- An engine placed by a graph that does not run fails (R803). -/
def State.failPlaced (s : State) (g : GImage) (l n code : Nat) : State :=
  let s1 := (s.modLe l fun (e : LEngine) => { e with host := 0xF }).toSelfTest n
  s1.placeOn g l n code s1.spare?

/-- What an engine fault shows in the engine's registers (R280). -/
def State.countEngine (s : State) (n code : Nat) : State :=
  let s1 := { s with eng := vmod s.eng n fun (q : EngineX) => { q with faults := q.faults + 1 } }
  if code = 0x201 then (s1.set1 (F.DSP_NE_STAT_LOCKSTEP n)).sat (F.DSP_NE_FCNT_LSCNT n) 1
  else if code = 0x202 then (s1.set1 (F.DSP_NE_STAT_ENGECC n)).sat (F.DSP_NE_FCNT_UNCCNT n) 1
  else if code = 0x203 then s1.set1 (F.DSP_NE_STAT_BLKLATE n)
  else s1.set1 (F.DSP_NE_STAT_ENGPROG n)

/-- One second in SYSTIME ticks (spec/01_architecture.md, R43). -/
def oneSecond : Nat := 24576000

/-- What the DSP region does about an engine fault (R280, R300, R301, R803). `task` is the executing task of an ENGPROG. What the
deadline asks for is done at once (spec/01_architecture.md, R23). -/
def State.serveEngine (s : State) (n code task : Nat) : State :=
  match s.hosted? n, s.placed? with
  | some l, some g =>
    let s2 := if s.graphRuns then
      if code = 0x204 then s.shedOne g l n code ((s.tasksOn g l).find? fun t => t.num = task)
      else if code = 0x203 then
        let again := match (s.le l).late with
          | some t => decide (s.now - t < oneSecond)
          | none => false
        let s1 := s.modLe l fun (e : LEngine) => { e with late := some s.now }
        if again then s1.shedOne g l n code (s1.victim? g l) else s1.failRunning g l n code
      else s.failRunning g l n code
    else if code = 0x204 then s.ends rgDsp code 0 n
    else s.failPlaced g l n code
    s2.meets rgDsp code 0 n
  | _, _ => s.ends rgDsp code 0 n

/-- The DSP handler goes on to the faults that wait, in order, until one keeps it busy (spec/01_architecture.md, R27). -/
def State.dspNextN : Nat → State → State
  | 0, s => s
  | k + 1, s =>
    if s.handling rgDsp then s
    else
      match s.saf.work.find? (fun w => w.region = rgDsp && w.wait) with
      | none => s
      | some w =>
        let f := fun (v : Work) => if v = w then { v with wait := false } else v
        let s1 := { s with saf := { s.saf with work := s.saf.work.map f } }
        State.dspNextN k (if 0x201 ≤ w.code ∧ w.code ≤ 0x204 then s1.serveEngine w.unit w.code w.arg else s1)

def State.dspNext (s : State) : State := State.dspNextN s.saf.work.length s

/-- An engine fault (R280, R281, R300, R301, R803): the engine halts for LOCKSTEP and ENGECC, and the region's handler takes the fault up,
after those it already has (spec/01_architecture.md, R27). In a chip safe state it is only recorded (R28). A scrub finds errors in
the memories of a free engine too. -/
def State.engineFails (s : State) (n code : Nat) (inj : Bool) (task : Nat) : State :=
  if ¬ s.engineWorks n ∧ ¬ (code = 0x202 ∧ s.role n = roFree) then s
  else
    let s1 := (s.countEngine n code).fault (engineFault code n inj)
    let s2 := if code = 0x203 ∨ code = 0x204 then s1 else s1.setRole n roHalted (s1.rd (F.DSP_NE_STAT_LENG n))
    if s2.chipSafe then s2
    else
      match s2.hosted? n, s2.placed? with
      | some _, some _ =>
        let busy := s2.handling rgDsp
        let s3 := s2.takesUp ⟨rgDsp, code, 0, n, 3, s2.now, false, busy, task⟩
        if busy then s3 else s3.serveEngine n code task
      | _, _ => if code = 0x204 then s2 else s2.toSelfTest n

/-! The block tick. -/

/-- The engines that compute blocks of logical engine `l`: its host, or those of its adopters. -/
def State.hostsOf (s : State) (g : GImage) (l : Nat) : List Nat :=
  if (s.le l).host = 0xF then (s.adoptersOf g l).map fun a => (s.le a).host else [(s.le l).host]

/-- Engines that have not ended their block at the tick that commits it (R280); a block that began late on its input's arrival, or
while its engine catches up, is no fault of its own (R276). -/
def State.lateOnes (s : State) (g : GImage) : List Nat :=
  ((List.range g.count).filter fun l =>
    let e := s.le l
    e.busy && !e.loading && !e.behind && !e.lag && s.graph.tick = some (s.dueTick g l e.next)).flatMap (s.hostsOf g) |>.eraseDups

/-- Logical engines that still wait for their input one period after their tick run late from then on (R276). -/
def State.markLag (s : State) (g : GImage) (p : Nat) : State :=
  let f := fun (l : Nat) (e : LEngine) =>
    if !e.busy && !e.loading && decide (e.next + 2 + g.firstStage l ≤ p) then { e with lag := true } else e
  s.modGraph fun (q : Graph) => { q with les := q.les.mapIdx f }

/-- Parameter writes taken since the last tick get the block that they stand before; with no block schedule they are applied
at once (R284). -/
def State.placeParams (s : State) (g : GImage) : State :=
  s.modGraph fun (q : Graph) =>
    { q with params := q.params.map fun (w : ParamWrite) =>
      if w.blk.isNone then
        match g.regions.find? (fun r => r.id = w.region) with
        | some r => { w with blk := some ((s.le r.leng).next + if (s.le r.leng).busy then 1 else 0) }
        | none => w
      else w }

/-- Parameter writes of a graph that does not run are applied at the tick, those kept for a block that never began included. -/
def State.paramsNow (s : State) (g : GImage) : State :=
  let due := fun (w : ParamWrite) (l : Nat) => match w.blk with
    | some b => decide ((s.le l).next ≤ b)
    | none => true
  let s1 := s.graph.params.foldl (fun (z : State) (w : ParamWrite) =>
    match g.regions.find? (fun r => r.id = w.region) with
    | some r =>
      let put := z.putEng (z.dmemOf r.leng) (0x10000 + r.ofs + 4 * w.ofs) w.vals
      if due w r.leng = true then { put with graph := { put.graph with pseq := max put.graph.pseq w.seq } } else z
    | none => z) s
  s1.modGraph fun (q : Graph) => { q with params := [] }

/-- At tick p, the gather moves past block p - 1 in the rings that streams fill; a ring whose stream has not written so far goes on at block p
(R274; log entry 9). -/
def State.gather (s : State) (g : GImage) : State :=
  match s.graph.tick with
  | none => s
  | some p =>
    (g.rings.filter g.streamRing).foldl (fun s q =>
      let want := s.ringAt g q p % 2 ^ 17
      let miss := (want + 2 ^ 17 - s.hidx q.ring) % 2 ^ 17
      let s1 := if miss = 0 ∨ g.block * q.chans < miss then s else s.wr (F.DSP_RING_HIDX_HIDX q.ring) want
      s1.wr (F.DSP_RING_DIDX_DIDX q.ring) want) s

/-- The state with the number of the period under way (R273). -/
def State.setTick (s : State) (p : Nat) : State :=
  (s.modGraph fun (q : Graph) => { q with tick := some p }).wr64 Reg.DSP_GRAPH_BLK_LO (p + 1)

/-- One tick of a running graph: faults at the tick first (R277), then commits, gathers and blocks (R273 to R276, R282). -/
def State.tickRunning (s : State) (g : GImage) (p : Nat) : State :=
  let s1 := s.setTick p
  let s2 := ((s1.lateOnes g).foldl (fun s n => s.engineFails n 0x203 false 0) s1).markLag g p
  (((s2.placeParams g).commitAll g).gather g).completeRecs g |>.startReady g

/-- The graph begins block 0 at this tick (R311, R312): its regions, rings, leap channels and logical engines as at the
start of a graph. -/
def State.beginGraph (s : State) (g : GImage) : State :=
  let s1 := g.rings.foldl (fun s q =>
    if g.streamRing q then s.wr (F.DSP_RING_DIDX_DIDX q.ring) (s.hidx q.ring)
    else (s.wr (F.DSP_RING_HIDX_HIDX q.ring) 0).wr (F.DSP_RING_DIDX_DIDX q.ring) 0) s
  let s2 := g.regions.foldl (fun s r =>
    if r.cls = 0 ∨ r.cls = 3 then s.loadRegion g r (s.dmemOf r.leng) else s) s1
  let s3 := g.leaps.foldl (fun s q =>
    ((s.modLeap q.chan fun (h : LeapCh) =>
      { h with samples := [], read := -(s.graph.nra : Int) - ((g.stages + 1) * g.block : Nat), filled := false, discAt := [],
               echo := [], demand := [] }).wr64 (Reg.DSP_LEAP_CIDX_LO q.chan) 0).showAhead q.chan) s2
  let s4 := s3.modGraph fun (q : Graph) =>
    { q with
      starts := g.rings.map fun r => (r.ring, if g.streamRing r then s.hidx r.ring else 0)
      les := q.les.mapIdx fun l e => { (freshLe e.host) with
        seed := (g.saved l).filterMap fun r => if r.cls = 0 then none else some (r.id, s2.engWords (s2.dmemOf l) (0x10000 + r.ofs) r.len) }
      shed := q.shed.map fun (e : Nat × Nat) => (e.1, 0)
      base := 0
      recs := [], params := [], flow := true, countdown := none, rearm := false }
  let s5 := (s4.setGstate gsRunning).setTick 0
  let s6 := s5.graph.plans.foldl (fun (s : State) (e : Nat × Nat × Nat) =>
    ((s.begins rgDsp e.2.2 0 e.2.1 3).modLe e.1 fun (q : LEngine) => { q with loading := true, behind := true }).tailDrop
      g e.1 e.2.1 e.2.2 0 0 2 0) s5
  (s6.modGraph fun (q : Graph) => { q with plans := [] }).finishFor .graph 0x201 stsOk []

/-! Molt (R307). -/

/-- The registers that describe the loaded graph. -/
def State.showGraph (s : State) (g : GImage) (nra : Nat) : State :=
  let s1 := ((((s.wr F.DSP_GRAPH_STAT_FGC g.fgc).wr F.DSP_GRAPH_STAT_BC g.bc).wr F.DSP_GRAPH_STAT_S g.stages).wr
    F.DSP_GRAPH_STAT_E g.count).wr F.DSP_GRAPH_STAT_NRA nra
  g.leaps.foldl (fun s q => (s.set1 (F.DSP_LEAP_STAT_BOUND q.chan)).wr (F.DSP_LEAP_STAT_WLENG q.chan) q.leng)
    (s1.setReg Reg.DSP_GRAPH_ID (g.word 2))

/-- The regions that the new graph takes over by ID from the old graph's newest sealed slots (R307). -/
def State.carried (s : State) (old g : GImage) (l : Nat) : List (Nat × List Word) :=
  (g.saved l).filterMap fun r =>
    if (r.cls = 1 ∨ r.cls = 2) ∧ (old.regions.any fun q => q.id = r.id && (q.cls = 1 || q.cls = 2)) then
      (s.graph.les.findSome? fun (q : LEngine) =>
        match q.newest with
        | some c => (c.regions.find? fun (p : Nat × List Word) => p.1 = r.id).map (·.2)
        | none => none).map fun ws => (r.id, ws.take r.len)
    else none

/-- The rings that streams fill in the old and the new graph alike: they run on through a molt. -/
def keptRings (old g : GImage) : List GRing := g.rings.filter fun q => g.streamRing q && old.rings.any fun o => o = q && old.streamRing o

/-- The logical engines of a graph placed on the lowest-numbered healthy engines (R272). -/
def State.place (s : State) (g : GImage) : State :=
  let hs := indices 8 s.healthy
  (((List.range g.count).foldl (fun s l => s.setRole (hs.getD l 0xF) roRun l)
    ((List.range 8).foldl (fun s n => if s.healthy n then s.setRole n roFree 0xF else s) s)).modGraph fun (q : Graph) =>
      { q with les := (List.range g.count).map fun l => freshLe (hs.getD l 0xF) }).respare

/-- The new graph replaces the old one at tick `p` (R307, R308). GRAPH_PARAM writes that no sealed slot holds yet stand before its first
block (R284). -/
def State.swap (s : State) (old g : GImage) (p : Nat) : State :=
  let s0 := s.graph.recs.foldl (fun s r => s.ends rgDsp r.code 0 r.failed) (s.setTick p)
  let s1 := (s0.modGraph fun (q : Graph) => { q with recs := [] }).commitAll old
  let first := p - 1 - old.stages
  let s2 := old.leaps.foldl (fun s q => s.retract q.chan) s1
  let kept := keptRings old g
  let new := g.rings.filter fun q => !kept.contains q
  let s3 := ((s2.dropRings (old.rings.filter fun q => !kept.contains q)).setRings new).place g
  let s4 := s3.modGraph fun (q : Graph) =>
    { q with
      image := some g, molt := none, base := first, shed := [], adopted := [], plans := [], molting := true
      params := (q.params.filter fun w => g.regions.any fun r => r.id = w.region && r.cls = 1 && w.ofs + w.vals.length ≤ r.len).map
        fun (w : ParamWrite) => { w with blk := some first }
      inForce := q.inForce.filter fun e => g.regions.any fun r => r.id = e.1 / 2 ^ 16 && r.cls = 1
      starts := (q.starts.filter fun e => kept.any fun r => r.ring = e.1)
        ++ (new.filter g.streamRing).map fun r => (r.ring, 2 ^ 17 * (p * g.block * r.chans) - p * g.block * r.chans)
      les := (List.range g.count).map fun l =>
        { (q.les.getD l default) with next := first, redo := first, seed := s2.carried old g l, loading := true, behind := true } }
  let s5 := new.foldl (fun s q =>
    let i := s.ringAt g q (if g.streamRing q then p else first) % 2 ^ 17
    (s.wr (F.DSP_RING_HIDX_HIDX q.ring) i).wr (F.DSP_RING_DIDX_DIDX q.ring) i) s4
  let s6 := g.leaps.foldl (fun s q =>
    s.modLeap q.chan fun (h : LeapCh) => { h with discAt := [first * g.block] }) s5
  let s7 := (List.range g.count).foldl (fun s l => s.setRole (s.le l).host roRestore l) s6
  (s7.showGraph g s7.graph.nra).setGstate gsRunning

/-- Streams that wait for a block tick may start (spec/05_streams_ports.md, R215): START 1, and START 2 on the tick of the
stream named in PAIR, at any depth. DESIGN CHOICE (log entry 95): a PAIR that is not open starts nothing; with one that has START 0 or has
started, the stream starts on this tick. -/
def State.tickStreams (s : State) : State :=
  let one := s.strs.map fun (x : StreamX) => if x.start = 1 then { x with tick := true } else x
  let pass := fun (l : List StreamX) => l.map fun (x : StreamX) =>
    if x.start = 2 ∧ l.any (fun y => y.sid = x.pair && (y.tick || y.start = 0)) then { x with tick := true } else x
  { s with strs := s.strs.foldl (fun l _ => pass l) one }

/-- The work of one block tick (R273). -/
def State.blockTick (s : State) : State :=
  let s0 := s.tickStreams
  match s0.graph.image with
  | none => s0
  | some g =>
    if s0.graphRuns then
      let p := match s0.graph.tick with
        | some p => p + 1
        | none => 0
      match (if s0.gstate = gsStaged then s0.graph.molt else none) with
      | some m => (s0.swap g m p).startReady m
      | none => s0.tickRunning g p
    else if s0.gstate = gsArmed ∧ s0.pstate = stPlay ∧ ¬ s0.graph.dead ∧ ¬ s0.graph.rearm then
      match s0.graph.countdown with
      | some (n + 1) => (s0.paramsNow g).modGraph fun (q : Graph) => { q with countdown := some n }
      | _ => (s0.paramsNow g).beginGraph g
    else s0.paramsNow g

/-- BLOCK_TICK (R273). -/
def execBlockTick (s : State) : Host.Outcome State Fault Refusal := .next s.blockTick

/-- GRAPH_MOLT_SWAP (R307): the first tick after staging. -/
def execGraphMoltSwap (s : State) : Host.Outcome State Fault Refusal :=
  if s.gstate = gsStaged then .next s.blockTick else .next s

/-- CHECKPOINT_SEAL (R282, R283, R285): the copy under way is written with its CRC and sealed, or met an uncorrectable word and is not. -/
def execCheckpointSeal (leng : Fin 8) (unreadable : Bool) (s : State) : Host.Outcome State Fault Refusal :=
  let e := s.le leng.val
  match e.copy, s.graph.image with
  | some c, some g =>
    if unreadable then
      .next (s.modLe leng.val fun (q : LEngine) => { q with copy := none, copyBad := some c.blk })
    else
      let ws := c.words e.nextB leng.val (g.word 2)
      let s1 := s.modLe leng.val fun (q : LEngine) =>
        { q with copy := none, copyBad := none, nextB := !q.nextB, slotA := if q.nextB then q.slotA else ws,
                 slotB := if q.nextB then ws else q.slotB }
      .next (s1.modGraph fun (q : Graph) => { q with params := q.params.filter fun w =>
        !(g.regions.any (fun r => r.id = w.region && r.leng = leng.val)
          && (match w.blk with | some b => decide (b ≤ c.blk) | none => false)) })
  | _, _ => .next s

/-- Whether an address lies in DMEM, or in a shared bank (R266). -/
def inDmem (a : Nat) : Bool := decide (0x10000 ≤ a ∧ a < 0x30000)
def inBanks (a : Nat) : Bool := decide (0x10000000 ≤ a ∧ a < 0x10200000)

/-- The window address of an engine's bank address (spec/07_shared_banks.md, R317). -/
def bankWin (a : Nat) : Nat := 0x800000 + (a - 0x10000000) / 4 * 4

/-- Whether an access lies in the map of R266, and its bank is ON (spec/07_shared_banks.md, R340). -/
def State.opOk (s : State) (op : EngOp) : Bool :=
  let a := op.addr
  let bank := inBanks a && s.bankOn ((a - 0x10000000) / 0x20000)
  match op with
  | .load _ => inDmem a || bank
  | .store _ _ => inDmem a || bank
  | .tag _ _ => inDmem a
  | .atomAdd _ _ _ => bank
  | .atomSwap _ _ _ => bank

/-- An atomic at a bank word (spec/07_shared_banks.md, R326, R328): the old value lands in a scalar register of the engine; an
uncorrectable word is not written and gives 0. -/
def State.atomic (s : State) (n a : Nat) (reg : Fin 32) (f : Word → Word) : State :=
  let put := fun (z : State) (w : Word) => { z with eng := vmod z.eng n fun (q : EngineX) => { q with core := q.core.set reg.val w } }
  if s.poison.contains (bankWin a) then put (s.deliverPoison (bankWin a)) 0
  else put (s.setWord (bankWin a) (f (s.word (bankWin a)))) (s.word (bankWin a))

/-- An access of an engine with its DMEM at place `d` (R266; spec/07_shared_banks.md, R326, R331). -/
def State.doOp (s : State) (n d : Nat) : EngOp → State
  | .load a => if inBanks a && s.poison.contains (bankWin a) then s.deliverPoison (bankWin a) else s
  | .store a w => if inBanks a then s.setWord (bankWin a) w else s.setEngWord d (a / 4 * 4) w
  | .tag a t => s.setEngTag d (a / 4 * 4) t
  | .atomAdd a v reg => s.atomic n a reg (· + v)
  | .atomSwap a v reg => s.atomic n a reg fun _ => v

/-- The accesses of a block in order (R266): one outside the map is ENGPROG, which sheds its task, whose further accesses are not made;
what an engine that has failed would do is not done (R279). -/
def State.runOps (s : State) (g : GImage) (l : Nat) (ops : List (Nat × EngOp)) : State :=
  ops.foldl (fun (s : State) (e : Nat × EngOp) =>
    let n := match g.task? e.1 with
      | some t => (s.le (s.runner t)).host
      | none => (s.le l).host
    if s.isShed e.1 || !s.engineWorks n then s
    else if s.opOk e.2 then s.doOp n (s.dmemOf l) e.2 else s.engineFails n 0x204 false e.1) s

/-- ENGINE_BLOCK_END (R276): a stalled engine ends no block (R282), nor does one that has halted, and one that is to stop ends the
block under way without output (R312). -/
def execEngineBlockEnd (leng : Fin 8) (out : BlockOut) (s : State) : Host.Outcome State Fault Refusal :=
  let l := leng.val
  let e := s.le l
  match s.graph.image with
  | none => .next s
  | some g =>
    if ¬ e.busy ∨ e.copy.isSome ∨ ¬ s.hostWorks l then .next s
    else
      let s1 := (s.showBlock l e.next out).runOps g l out.ops
      if ¬ (s1.le l).busy then .next s1
      else if s1.graphRuns then .next ((s1.endBlock g l out).startReady g)
      else .next (s1.modLe l fun (q : LEngine) => { q with busy := false })

/-- LOCKSTEP (R280). -/
def execLockstep (n : Fin 8) (s : State) : Host.Outcome State Fault Refusal := .next (s.engineFails n.val 0x201 false 0)

/-- ENGECC (R280, R281): an uncorrectable error, or one that the scrub corrects; a powered engine that is not in reset is scrubbed. -/
def execEngecc (err : EngineEcc) (s : State) : Host.Outcome State Fault Refusal :=
  if err.corrected then
    .next (if s.role err.n.val = roTest ∨ s.role err.n.val = roRetired ∨ s.domOn (dmEngine err.n.val) = false then s
      else (s.sat (F.DSP_NE_FCNT_CORCNT err.n.val) 1).set1 (F.DSP_NE_STAT_ECCCOR err.n.val))
  else .next (s.engineFails err.n.val 0x202 false 0)

/-- ENGPROG (R280). -/
def execEngprog (n : Fin 8) (task : Fin 128) (s : State) : Host.Outcome State Fault Refusal :=
  .next (s.engineFails n.val 0x204 false task.val)

/-- What a restored logical engine finds in DMEM (R282, R293, R307): the regions of its newest sealed slot over undefined contents, or
before the first slot the initial data with what the graph began with. -/
def State.restoreInto (s : State) (g : GImage) (l n : Nat) : State :=
  let e := s.le l
  let s1 := s.loadImem g l n
  (match e.newest with
    | none => (s1.loadData g l n).restoreRegions g n e.seed
    | some c => (s1.openDmem n).restoreRegions g n c.regions).modLe l fun (q : LEngine) => { q with loading := false }

/-- SPARE_LOAD_DONE (R293, R297, R307): the engine that takes logical engine `leng` over, with what it had adopted, holds its IMEM image
and state. -/
def execSpareLoadDone (leng : Fin 8) (s : State) : Host.Outcome State Fault Refusal :=
  let l := leng.val
  match s.graph.image with
  | none => .next s
  | some g =>
    if ¬ (s.le l).loading then .next s
    else
      let parts := l :: (s.guestsOf g l).filter fun m => (s.le m).loading
      let s1 := parts.foldl (fun s m => s.restoreInto g m (s.dmemOf m)) s
      let s2 := (s1.adoptersOf g l).foldl (fun s a =>
        (s.modLe a fun (q : LEngine) => { q with behind := true }).setRole (s.le a).host roCatch a) s1
      .next (s2.startReady g)

/-- ENGINE_SELFTEST_DONE (R296, R803): the engine rejoins the free pool, or is retired. -/
def execEngineSelftestDone (n : Fin 8) (persists : Bool) (s : State) : Host.Outcome State Fault Refusal :=
  if s.role n.val ≠ roTest then .next s
  else if persists ∨ 3 ≤ (vat s.eng n.val).fails then
    .next ((s.setRole n.val roRetired 0xF).sat F.DSP_SPARE_RETIRED 1)
  else .next (s.setRole n.val roFree 0xF).respare

end Sys2Proof.Machine
end

