-- ==== Sys2Proof/Machine/Banks.lean ====
section
/-!
DEFINITION. Shared banks: scrub, row replacement, bank retirement, the in-service march test
(spec/07_shared_banks.md, R329 to R358).
-/

namespace Sys2Proof.Machine

/-- SCRUB_READ (R332, R334): a borrowed row and a bank that is not ON are skipped. -/
def execScrubRead (bank : Fin 16) (row : Fin 512) (col : Fin 64) (res : ScrubResult) (s : State) :
    Host.Outcome State Fault Refusal :=
  if ¬ s.bankOn bank.val then .next s
  else
    match res with
    | .late => .next (s.set1 (F.DSP_SB_STAT_SCRUBLATE bank.val))
    | .clean => .next s
    | .correctable b => .next (if s.borrowed bank.val row.val then s else s.bankCor bank.val row.val col.val b.val)
    | .uncorrectable => .next (if s.borrowed bank.val row.val then s else s.bankUnc bank.val row.val col.val)

/-- The oldest row replacement of a bank, which waits while a row of the bank is borrowed (R353). -/
def State.replOf? (s : State) (b : Nat) : Option RowRepl :=
  if s.on (F.DSP_SB_STAT_BORROW b) then none else s.banks.repls.find? (fun r => r.bank = b)

/-- What a copy of a row meets (R347): corrected words are counted, uncorrectable ones stay poisoned. -/
def State.copyMet (s : State) (b row : Nat) (met : List CopyErr) : State :=
  met.foldl (fun (s : State) (e : CopyErr) =>
    match e.bit with
    | some k => s.bankCor b row e.col.val k.val
    | none => s.bankUnc b row e.col.val) s

/-- Whether the DSP handler still serves another fault first (spec/01_architecture.md, R27): the copy has not begun. -/
def State.replWaits (s : State) (r : RowRepl) : Bool :=
  s.saf.work.any fun w => w.isFor rgDsp 0x205 r.row r.bank && w.wait

/-- ROW_REPLACE_DONE (R352): the copy ends and the map switches to the spare row; the handler goes on to the fault that waits. -/
def execRowReplaceDone (copy : RowCopied) (s : State) : Host.Outcome State Fault Refusal :=
  match s.replOf? copy.bank.val with
  | none => .next s
  | some r =>
    if s.replWaits r then .next s
    else
      let s1 := s.copyMet r.bank r.row copy.met
      let k := s1.spareRow r.bank
      let s2 := { s1 with banks := { s1.banks with repls := s1.banks.repls.filter (· ≠ r) } }
      let s3 := (s2.useSpare r.bank r.row).faultGone 0x205 r.row r.bank
      .next ((s3.repaired rgDsp 0x205 r.row r.bank).raiseBankRepair 4 r.bank k r.cause r.row r.col r.bit).dspNext

/-- Whether bytes [a, a + n) of the bank space and a bank meet. -/
def inBank (b a n : Nat) : Bool := decide (a < (b + 1) * 0x20000) && decide (b * 0x20000 < a + n)

/-- The length in bytes of ring `n` with its tag area (R319). -/
def State.ringBytes (s : State) (n : Nat) : Nat := if n < 16 then 4 * s.ringLen n else 5 * s.ringLen n

/-- Whether an enabled ring lies in a bank. -/
def State.ringInBank (s : State) (b : Nat) : Bool :=
  (List.range 32).any fun n => s.ringOn n && inBank b (s.geo n).base (s.ringBytes n)

/-- Whether the loaded graph uses a bank for its image, its rings, or, where Zikar has placed them (R324, log entry 10), its
checkpoints and task data. -/
def State.graphInBank (s : State) (b : Nat) : Bool :=
  [s.graph.image, s.graph.loading, s.graph.molt].any fun
    | none => false
    | some g => inBank b g.ofs g.len || (g.rings.any fun r => inBank b (r.base * 256) (5 * 2 ^ r.log2)) || Config.graphBank g.digest b

/-- Whether an enabled ring, an open stream or the loaded graph uses a bank (R338, R357). -/
def State.bankUsed (s : State) (b : Nat) : Bool := s.ringInBank b || s.graphInBank b

/-- The contents of a bank are lost (R335). -/
def State.loseBank (s : State) (b : Nat) : State :=
  { s with
    mem := s.mem.filter fun c => decide (¬ (0x800000 + b * 0x20000 ≤ c.1 ∧ c.1 < 0x800000 + (b + 1) * 0x20000))
    poison := s.poison.filter fun a => decide (¬ (0x800000 + b * 0x20000 ≤ a ∧ a < 0x800000 + (b + 1) * 0x20000)) }

/-- BANK_RETIRE (R357, R358). -/
def execBankRetire (bank : Fin 16) (s : State) : Host.Outcome State Fault Refusal :=
  if s.on (F.DSP_SB_STAT_RETPEND bank.val) ∧ bank.val ≠ 0 ∧ ¬ s.bankUsed bank.val then
    let s1 := (((s.loseBank bank.val).wr (F.DSP_SB_STAT_PWR bank.val) 3).clr (F.DSP_SB_STAT_RETPEND bank.val)).repCount rgDsp
    let s2 := { s1 with saf := { s1.saf with recs := s1.saf.recs.map fun (q : FaultRec) =>
      if q.code = 0x205 ∧ q.unit = bank.val then { q with active := false } else q } }.showFn
    .next (s2.raiseBankRepair 6 bank.val 0xF 0 0 0x3F 0x3F).dspNext
  else .next s

/-! The march test (R343 to R350). -/

def cardMarchRun : CmdSpec := ⟨0x903, 2, 2, false, true, true, false, false, false, false⟩

/-- The lowest bank of a mask. -/
def lowestBank (m : Nat) : Nat := ((List.range 16).find? (fun b => inMask m b)).getD 0

/-- The march is over: its command ends (R349). -/
def State.marchEnd (s : State) : State :=
  (({ s with banks := { s.banks with march := 0 } }).clr F.DSP_SB_MARCH_ACTIVE).finishFor .march 0x903 stsOk []

/-- The march goes to row 0 of the lowest bank it still has to test, or ends (R343). -/
def State.marchNext (s : State) (left : Nat) : State :=
  if left = 0 then s.marchEnd
  else (({ s with banks := { s.banks with march := left } }).wr F.DSP_SB_MARCH_BANK (lowestBank left)).wr F.DSP_SB_MARCH_ROW 0

/-- The borrowed row is not put back (R346): the lowest free spare row takes its place at Release, or the bank takes RETPEND. `unc` tells
whether an uncorrectable word found in it was at work. -/
def State.marchReplace (s : State) (b cause row col bit : Nat) (unc : Bool) : State :=
  let s1 := s.sat F.DSP_SB_MARCH_FAILS 1
  if s1.spareLeft b then
    let s2 := (s1.useSpare b row).raiseBankRepair 4 b (s1.spareRow b) cause row col bit
    if unc then ((s2.faultGone 0x205 row b).repaired rgDsp 0x205 row b).dspNext else s2
  else s1.retpend b cause row col bit

/-- The Release of the borrowed row (R346, R351, R353): a march failure, or what was found in the row while it was borrowed, has it
replaced (log entry 94: by R353 the latter counts in FAILS too). -/
def State.marchFound (s : State) (b row : Nat) (failure : Option (Fin 64 × Fin 64)) : State :=
  let due := s.banks.repls.find? fun r => r.bank = b && r.row = row
  let unc := due.any fun r => r.cause = 1
  let s1 := { s with banks := { s.banks with repls := s.banks.repls.filter fun r => !(r.bank = b && r.row = row) } }
  match failure, due with
  | some (c, k), _ => (s1.set1 (F.DSP_SB_STAT_MARCHFAIL b)).marchReplace b 2 row c.val k.val unc
  | none, some r => s1.marchReplace b r.cause row r.col r.bit unc
  | none, none => s1

/-- A borrow of a bank ends through Restore and Release (R343). -/
def State.marchRelease (s : State) (b : Nat) (failure : Option (Fin 64 × Fin 64)) : State :=
  if s.on (F.DSP_SB_STAT_BORROW b) then (s.clr (F.DSP_SB_STAT_BORROW b)).marchFound b (s.rd (F.DSP_SB_STAT_BROW b)) failure else s

/-- The body of MARCH_RUN (R349, R350). -/
def marchRunBody (abort : Bool) (ws : List Word) (s : State) : Res :=
  let map := pf ws 0 0 16
  if abort then
    if s.on F.DSP_SB_MARCH_ACTIVE then .ok ((s.marchRelease (s.rd F.DSP_SB_MARCH_BANK) none).marchEnd) else .ok s
  else if map = 0 ∨ (List.range 16).any (fun b => inMask map b && !s.bankOn b) then .bad 0
  else
    s.unlessBusy [.march] <|
    let s1 := ((s.set1 F.DSP_SB_MARCH_ACTIVE).clr F.DSP_SB_MARCH_SKIP).wr F.DSP_SB_MARCH_FAILS 0
    .pend [] [.march] (({ s1 with banks := { s1.banks with pace := pf ws 1 0 8 } }).marchNext map)

/-- MARCH_RUN (R349). -/
def execMarchRun (p : Packet) (s : State) : Host.Outcome State Fault Refusal :=
  s.card cardMarchRun p (marchRunBody (pb p.payload 1 31) p.payload)

/-- MARCH_RUN with ABORT (R350). -/
def execMarchRunAbort (p : Packet) (s : State) : Host.Outcome State Fault Refusal :=
  let q := { p with payload := [pw p.payload 0, putBits (pw p.payload 1) 31 1 1] ++ p.payload.drop 2 }
  s.card cardMarchRun q (marchRunBody true q.payload)

/-- A bank that the march has to test is out of ON: it is skipped (R348). -/
def State.marchSkip (s : State) : State :=
  let b := s.rd F.DSP_SB_MARCH_BANK
  (s.set1 F.DSP_SB_MARCH_SKIP).marchNext (s.banks.march - 2 ^ b)

/-- A bank is commanded out of ON: a borrow of it ends, and the march moves on (R348). -/
def State.marchLeaves (s : State) (b : Nat) : State :=
  if s.on F.DSP_SB_MARCH_ACTIVE ∧ s.rd F.DSP_SB_MARCH_BANK = b then (s.marchRelease b none).marchSkip else s

/-- MARCH_ROW_START (R343, R345, R347): the row is borrowed and copied. -/
def execMarchRowStart (met : List CopyErr) (s : State) : Host.Outcome State Fault Refusal :=
  let b := s.rd F.DSP_SB_MARCH_BANK
  if ¬ s.on F.DSP_SB_MARCH_ACTIVE ∨ s.on (F.DSP_SB_STAT_BORROW b) then .next s
  else if ¬ s.bankOn b then .next s.marchSkip
  else
    let row := s.rd F.DSP_SB_MARCH_ROW
    let s1 := (s.set1 (F.DSP_SB_STAT_BORROW b)).wr (F.DSP_SB_STAT_BROW b) row
    .next (s1.copyMet b row met)

/-- MARCH_ROW_RELEASE (R343, R346, R349): the borrowed row, or its replacement, is back; the next row or bank follows. -/
def execMarchRowRelease (failure : Option (Fin 64 × Fin 64)) (s : State) : Host.Outcome State Fault Refusal :=
  let b := s.rd F.DSP_SB_MARCH_BANK
  if ¬ s.on F.DSP_SB_MARCH_ACTIVE ∨ ¬ s.on (F.DSP_SB_STAT_BORROW b) then .next s
  else
    let row := s.rd (F.DSP_SB_STAT_BROW b)
    let s2 := s.marchRelease b failure
    .next (if row = 511 then s2.marchNext (s2.banks.march - 2 ^ b) else s2.wr F.DSP_SB_MARCH_ROW (row + 1))

end Sys2Proof.Machine
end

