-- ==== Sys2Proof/Machine/Graph.lean ====
section
/-!
DEFINITION. Graph and engine commands (spec/06_engines_leap.md, R271, R284, R303 to R306, R310 to R315).
-/

namespace Sys2Proof.Machine

/-! GRAPH_LOAD and GRAPH_MOLT. -/

/-- The reply words of GRAPH_LOAD and GRAPH_MOLT: `hs` are the healthy engines. -/
def loadWords (g : GImage) (nra least : Nat) (hs : List Nat) (spares : Nat) : List Word :=
  [g.word 2, w32 (least % 2 ^ 16 * 2 ^ 16 + nra),
   w32 ((List.range 8).foldl (fun m l => m + (if l < g.count then hs.getD l 0xF else 0xF) * 2 ^ (4 * l)) 0),
   w32 (popcount g.leapMap * 2 ^ 8 + spares)]

/-- Whether a graph rate belongs to the AUDPLL family in use (R271, step 4). -/
def State.fgcOk (s : State) (g : GImage) : Bool := decide (g.fgc / 2 = s.rd F.CTL_CLK_STAT_AUDFAM)

/-- Whether an open stream holds an internal ring of the image that `old` does not hold already (R205, R271 step 5). -/
def State.ringsClaimed (s : State) (g : GImage) (old : Option GImage) : Bool :=
  g.rings.any fun q =>
    s.strs.any (fun x => s.usesRing x.sid q.ring) &&
      match old with
      | some o => !o.rings.any fun p => p.ring = q.ring
      | none => true

/-- Whether an open stream reads a leap channel of the image (R271 step 5); a molt keeps the running graph's LEAPMAP, and its streams
with it (R305; log entry 22). -/
def State.leapsClaimed (s : State) (g : GImage) (old : Option GImage) : Bool :=
  old.isNone && g.leaps.any fun q => s.strs.any fun x => s.usesEnd x.sid 8 q.chan true || s.usesEnd x.sid 9 q.chan true

/-- The checks of R271 on the image at `ofs` in order; `k` goes on once all have passed, with the image, N_RA to use and
NRA_MIN. For a molt `run` is the running graph, whose rate, block, N_RA and LEAPMAP the image must have (R305, R306). -/
def State.checkGraph (s : State) (ofs len nra : Nat) (run : Option GImage) (k : GImage → Nat → List Word → Res) : Res :=
  if ¬ s.spanOn ofs len then .bad 0
  else if ¬ (s.poisonIn ofs len).isEmpty then
    .done stsBadParam 1 [] [] ((s.poisonIn ofs len).foldl State.deliverPoison s)
  else
    let img := s.words (0x800000 + ofs) (len / 4)
    let g := parseGraph ofs len img
    let want := if nra = 0 then g.nra else nra
    let hs := indices 8 s.healthy
    let res := s.rd F.DSP_SPARE_RESERVE
    let least := g.minimum (res ≠ 0) (if run.isSome then g.stages else 1)
    let words := loadWords g want least hs (min res (hs.length - g.count))
    if len % 4 ≠ 0 ∨ ¬ s.modelSigned img then .done stsAuthFail 0 [] [] s.authFailed
    else if (g.word 3).toNat < s.graphRoll then .refuse stsDenied 4
    else if ¬ g.ok then .bad 0
    else if ¬ s.fgcOk g then .bad 0
    else if nra ≠ 0 ∧ ¬ nraOk g.fgc nra then .bad 2
    else if (match run with
      | some o => g.rate ≠ o.rate || g.bc ≠ o.bc || g.nra ≠ s.graph.nra || g.leapMap ≠ o.leapMap
      | none => false) then .bad 0
    else if hs.length < g.count + res ∨ s.ringsClaimed g run ∨ s.leapsClaimed g run then .refuse stsNoResource 1
    else if want < least then .done stsNoMargin (least - want) words [] s
    else k g want words

def cardGraphLoad : CmdSpec := ⟨0x200, 3, 3, false, true, true, false, false, false, true⟩

/-- GRAPH_LOAD (R271, R272, R302, R303, R310). -/
def execGraphLoad (p : Packet) (s : State) : Host.Outcome State Fault Refusal :=
  s.card cardGraphLoad p fun s =>
    s.unlessBusy [.graph] <|
    if s.graph.image.isSome then .refuse stsDenied 2
    else
      s.checkGraph (pf p.payload 0 2 19 * 4) (pf p.payload 1 0 21) (pf p.payload 2 0 16) none fun g nra words =>
        s.withDomains (((indices 8 s.healthy).take g.count).map dmEngine) fun s =>
          let s1 := s.modGraph fun (q : Graph) =>
            { q with loading := some g, nra := nra, nraMin := g.nraMin, shed := [], adopted := [], plans := [],
                     params := [], pseq := 0, inForce := [], base := 0, flow := false, unload := false, rearm := false, molting := false, tick := none }
          .pend words [.graph] (s1.place g)

/-- GRAPH_LOAD_DONE (R310): every logical engine holds its IMEM image and initial data. -/
def execGraphLoadDone (s : State) : Host.Outcome State Fault Refusal :=
  match s.graph.loading with
  | none => .next s
  | some g =>
    let s1 := forEach (fun l s =>
      let n := s.dmemOf l
      (s.loadImem g l n).loadData g l n) g.count (s.setRings g.rings)
    let s2 := (s1.modGraph fun (q : Graph) => { q with image := some g, loading := none }).setGstate gsLoaded
    .next ((s2.showGraph g s2.graph.nra).finishFor .graph 0x200 stsOk [])

def cardGraphMolt : CmdSpec := ⟨0x203, 3, 3, false, false, true, false, false, false, true⟩

/-- GRAPH_MOLT (R305, R306, R308): a regrow is under way up to the end of its Catch-up (R293). -/
def execGraphMolt (p : Packet) (s : State) : Host.Outcome State Fault Refusal :=
  s.card cardGraphMolt p fun s =>
    s.unlessBusy [.graph] <|
    match s.graph.image with
    | none => .refuse stsDenied 2
    | some old =>
      if s.gstate ≠ gsRunning then .refuse stsDenied 2
      else if ¬ s.graph.recs.isEmpty ∨ s.graph.les.any (fun e => e.behind) then .refuse stsBusy 0
      else if pf p.payload 2 0 16 ≠ 0 then .bad 2
      else
        s.checkGraph (pf p.payload 0 2 19 * 4) (pf p.payload 1 0 21) 0 (some old) fun g _ words =>
          s.withDomains (((indices 8 s.healthy).take g.count).map dmEngine) fun s =>
            .pend words [.graph] ((s.modGraph fun (q : Graph) => { q with molt := some g, nraMin := g.nraMin }).setGstate gsStaged)

/-! Start and stop. -/

def cardGraphStart : CmdSpec := ⟨0x201, 1, 1, false, true, true, false, false, false, false⟩

/-- GRAPH_START (R311; spec/15_safety.md, R669). -/
def execGraphStart (p : Packet) (s : State) : Host.Outcome State Fault Refusal :=
  s.card cardGraphStart p fun s =>
    s.unlessBusy [.graph] <|
    if s.graph.image.isNone ∨ s.graph.dead then .refuse stsDenied 2
    else if s.gstate ≠ gsLoaded then .ok s
    else if s.pstate = stPlay then
      .pend [] [.graph] ((s.modGraph fun (q : Graph) => { q with countdown := some (pf p.payload 0 0 8) }).setGstate gsArmed)
    else .ok ((s.modGraph fun (q : Graph) => { q with countdown := none }).setGstate gsArmed)

/-- The graph is unloaded: engines, rings and leap channels are free (R312). -/
def State.unloadGraph (s : State) : State :=
  match s.graph.image with
  | none => s
  | some g =>
    let s1 := g.leaps.foldl (fun s q =>
      (s.modLeap q.chan fun (h : LeapCh) => { h with samples := [], filled := false, discAt := [], echo := [], demand := [] }).setReg
        (Reg.DSP_LEAP_STAT q.chan) 0x0F000000) (s.dropRings g.rings)
    let s2 := s1.modGraph fun (q : Graph) =>
      { q with image := none, molt := none, les := [], base := 0, tick := none, starts := [], shed := [], adopted := [],
               inForce := [], plans := [], countdown := none, recs := [], params := [], flow := false, unload := false, rearm := false,
               molting := false, nra := 0, nraMin := 0 }
    (((s2.setReg Reg.DSP_GRAPH_STAT 0).setReg Reg.DSP_GRAPH_ID 0).wr64 Reg.DSP_GRAPH_BLK_LO 0).respare

/-- A running graph stops: what is not committed is discarded without a RETRACT mark (R312). -/
def State.stopRunning (s : State) (unload rearm : Bool) : State :=
  match s.graph.image with
  | none => s
  | some g =>
    let s1 := s.graph.recs.foldl (fun s r => s.ends rgDsp r.code 0 r.failed) s
    let s2 := g.leaps.foldl (fun s q =>
      let i := s.cidx q.chan
      (s.modLeap q.chan fun (h : LeapCh) => { h with samples := h.samples.filter fun e => e.idx < i }).clr
        (F.DSP_LEAP_STAT_RETRACTING q.chan)) s1
    (s2.modGraph fun (q : Graph) =>
      { q with recs := [], tick := none, molt := none, molting := false, unload := unload, rearm := rearm }).setGstate gsStopping

/-- The commit logic is lost (spec/15_safety.md, R669): no further block is committed, what is committed plays out, and the
graph is left loaded and not armed. -/
def State.commitLost (s : State) : State :=
  let s1 := if s.graphRuns then s.stopRunning false false else s
  let s2 := s1.modGraph fun (q : Graph) => { q with dead := true, countdown := none }
  if s2.graph.image.isSome then s2.setGstate gsLoaded else s2

def cardGraphStop (unload : Bool) : CmdSpec := ⟨0x202, 1, 1, false, true, true, true, false, false, unload⟩

/-- GRAPH_STOP (R312). -/
def execGraphStop (p : Packet) (s : State) : Host.Outcome State Fault Refusal :=
  let unload := pb p.payload 0 0
  s.card (cardGraphStop unload) p fun s =>
    s.unlessBusy [.graph] <|
    if s.graph.image.isNone then .refuse stsDenied 2
    else if s.graphRuns then .pend [] [.graph] (s.stopRunning unload false)
    else if unload then .ok s.unloadGraph
    else .ok ((s.modGraph fun (q : Graph) => { q with countdown := none, rearm := false }).setGstate gsLoaded)

/-- Whether every bound read point has passed its last committed sample (R312). -/
def State.playedOut (s : State) (g : GImage) : Bool :=
  g.leaps.all fun q => decide ((s.cidx q.chan : Int) ≤ (vat s.leap q.chan).read)

/-- A stop under way completes: the graph is loaded, armed or unloaded, as the stop was to leave it (R312). Read points run on (R289);
a graph that the way to IDLE has stopped stays so until IDLE is reached. -/
def State.stopComplete (s : State) : State :=
  let s1 := if s.graph.unload then s.unloadGraph else s.setGstate (if s.graph.rearm then gsArmed else gsLoaded)
  (s1.modGraph fun (q : Graph) => { q with unload := false }).finishFor .graph 0x202 stsOk []

/-- GRAPH_STOP_DONE (R312). -/
def execGraphStopDone (s : State) : Host.Outcome State Fault Refusal :=
  match s.graph.image with
  | none => .next s
  | some g => if s.gstate ≠ gsStopping ∨ ¬ s.playedOut g then .next s else .next s.stopComplete

/-! Parameters, spares, status. -/

def cardGraphParam : CmdSpec := ⟨0x204, 3, 66, false, true, true, false, false, false, true⟩

/-- The PARAM words in force, kept where they differ from the image's initial data (spec/04_command_protocol.md, R797). -/
def State.enforce (s : State) (g : GImage) (r : GRegion) (ofs : Nat) : List Word → State
  | [] => s
  | w :: ws =>
    let k := r.id * 2 ^ 16 + ofs
    let init := s.word (0x800000 + g.ofs + (g.engines.getD r.leng default).dataOfs + r.ofs + 4 * ofs)
    let rest := Sparse.erase s.graph.inForce k
    State.enforce (s.modGraph fun (q : Graph) => { q with inForce := if w = init then rest else Sparse.insert rest k w }) g r (ofs + 1) ws

/-- GRAPH_PARAM (R284, R313). -/
def execGraphParam (p : Packet) (s : State) : Host.Outcome State Fault Refusal :=
  s.card cardGraphParam p fun s =>
    let rid := pf p.payload 0 16 16
    let ofs := pf p.payload 0 0 16
    let n := pf p.payload 1 0 7
    if n < 1 ∨ 64 < n ∨ p.payload.length ≠ n + 2 then .bad 1
    else
      match s.graph.image with
      | none => .bad 0
      | some g =>
        match g.regions.find? (fun r => r.id = rid && r.cls = 1) with
        | none => .bad 0
        | some r =>
          if r.len < ofs + n then .bad 0
          else
            let k := s.graph.params.foldl (fun m w => max m w.seq) s.graph.pseq + 1
            .ok ((s.modGraph fun (q : Graph) => { q with params := q.params ++ [⟨k, rid, ofs, (p.payload.drop 2).take n, none⟩] }).enforce
              g r ofs ((p.payload.drop 2).take n))

def cardSpareReserve : CmdSpec := ⟨0x210, 1, 1, false, true, true, false, false, false, true⟩

/-- Engines that are neither placed nor retired (R314). -/
def State.unplaced (s : State) : Nat := (indices 8 fun n => !s.occupied n && s.role n ≠ roRetired).length

/-- SPARE_RESERVE (R304, R314). -/
def execSpareReserve (p : Packet) (s : State) : Host.Outcome State Fault Refusal :=
  s.card cardSpareReserve p fun s =>
    let count := pf p.payload 0 0 3
    let use := max count (s.rd F.DSP_SPARE_FLOOR)
    let short := match s.graph.image with
      | some g => if s.rd F.DSP_SPARE_RESERVE = 0 ∧ use ≠ 0 then max g.nraMin (g.needs g.maxW 1) - s.graph.nra else 0
      | none => 0
    if 4 < count then .bad 0
    else if s.unplaced < use then .refuse stsNoResource 1
    else if short ≠ 0 then .refuse stsNoMargin short
    else .clampedOk [] (if use = count then [] else [⟨0xF, 1, 0, use⟩]) (s.wr F.DSP_SPARE_RESERVE use).respare

def cardEngineStatus : CmdSpec := ⟨0x211, 1, 1, false, true, true, false, false, false, false⟩

/-- ENGINE_STATUS (R315). -/
def execEngineStatus (p : Packet) (s : State) : Host.Outcome State Fault Refusal :=
  s.card cardEngineStatus p fun s =>
    let n := pf p.payload 0 0 3
    let regs := [s.reg (Reg.DSP_NE_STAT n), s.reg (Reg.DSP_NE_LOAD n), s.reg (Reg.DSP_NE_FCNT n), s.reg (Reg.DSP_NE_BLK_LO n),
      s.reg (Reg.DSP_NE_BLK_HI n)]
    let (w5, w7, map) : Nat × Nat × List Nat := match s.hosted? n, s.placed? with
      | some l, some g =>
        let e := s.le l
        let bytes := (g.saved l).foldl (fun m (r : GRegion) => m + 4 * r.len) 0
        (bytes / 64 * 2 ^ 16 + b2n (!e.slotB.isEmpty) * 2 + b2n (!e.slotA.isEmpty), g.w l, (s.tasksOn g l).map GTask.num)
      | _, _ => (0, 0, [])
    let s1 := if pb p.payload 0 31 then (s.setReg (Reg.DSP_NE_STAT n) (s.reg (Reg.DSP_NE_STAT n) &&& 0xFFFFFF07)).wr
        (F.DSP_NE_LOAD_PEAK n) 0 else s
    .done stsOk 0 (regs ++ [w32 w5, w32 (min 255 (vat s.eng n).faults), w32 w7] ++
      (List.range 4).map fun k => w32 (maskOf 32 fun i => map.contains (32 * k + i))) [] s1

end Sys2Proof.Machine
end

