-- ==== Sys2Proof/Machine/Ports.lean ====
section
/-!
DEFINITION. TDM ports and S/PDIF (spec/05_streams_ports.md, R224 to R251).
-/

namespace Sys2Proof.Machine

/-! TDM configuration. -/

/-- The slots, slot width and rate that FMT and CLK images give. -/
def fmtSlots (fmt : Word) : Nat := bits fmt 24 5 + 1
def fmtSlotW (fmt : Word) : Nat := dataBits (bits fmt 20 2)
def clkRate (clk : Word) : Nat := rateHz (bits clk 24 4)

/-- BCLK of an FMT and CLK image in Hz (R229). -/
def bclkHz (fmt clk : Word) : Nat := clkRate clk * fmtSlots fmt * fmtSlotW fmt

/-- Whether an FMT image is one of R224 and R230. -/
def fmtOk (fmt : Word) : Bool :=
  let f := bits fmt 30 2
  f ≠ 3 && bits fmt 20 2 ≠ 3 && bits fmt 18 2 ≠ 3 && bits fmt 14 2 ≠ 3
    && decide (bits fmt 18 2 ≤ bits fmt 20 2)
    && (f = 2 || (fmtSlots fmt = 2 && bits fmt 14 2 = 0 && bits fmt 13 1 = 0))

/-- The master divider of R229; 0 in slave mode. -/
def State.bdiv (s : State) (fmt clk : Word) : Nat := if bit clk 31 then s.audHz / bclkHz fmt clk else 0

/-- Whether a CLK image goes with an FMT image (R229, R230). -/
def State.clkOk (s : State) (fmt clk : Word) : Bool :=
  clkRate clk ≠ 0 && decide (bclkHz fmt clk ≤ 49152000)
    && (!bit clk 31 || (s.inFamily (clkRate clk) && s.audHz % bclkHz fmt clk = 0
          && decide (2 ≤ s.bdiv fmt clk) && decide (s.bdiv fmt clk ≤ 4096)))

/-- Whether a BUS image is admitted on port `p` (R236). -/
def busOk (p : Nat) (bus : Word) : Bool := !bit bus 16 || (p = 1 && bit bus 0)

/-- FMT, CLK and BUS of a port written in one cycle (R239), CHAIN reading 0 on TDMA. -/
def State.writePort (s : State) (p : Nat) (fmt clk bus : Word) : State :=
  let s1 := s.putReg (Reg.IN_TDM_FMT p) (fmt &&& 0xDF3FE000)
  let s2 := s1.putReg (Reg.IN_TDM_CLK p) ((clk &&& 0x8F000000) ||| w32 (s.bdiv fmt clk % 4096))
  let s3 := s2.putReg (Reg.IN_TDM_BUS p) (if p = 1 then bus &&& 0x00030001 else bus &&& 0x00020001)
  { s3 with tdm := vmod s3.tdm p fun x =>
      { x with useFmt := fmt &&& 0xDF3FE000, useClk := clk &&& 0x8F000000 } }

/-- BDIV of a port follows FMT and CLK as they take effect without PORT_CFG (R229, R235; spec/03_register_access.md, R126). DESIGN CHOICE (log
entry 95): of images that R229 does not admit, the whole quotient modulo 4 096. -/
def State.showBdiv (s : State) (p : Nat) : State :=
  s.wr (F.IN_TDM_CLK_BDIV p) (s.bdiv (s.reg (Reg.IN_TDM_FMT p)) (s.reg (Reg.IN_TDM_CLK p)) % 4096)

/-- Whether every open stream of a port may keep its ASRC mode (R207). -/
def State.streamsFit (s : State) (p : Nat) : Bool :=
  s.strs.all fun x =>
    let st := s.rd (F.DSP_STR_CFG_STYPE x.sid)
    let dt := s.rd (F.DSP_STR_CFG_DTYPE x.sid)
    let hfs := s.rd (F.DSP_STR_FMT_HFS x.sid)
    !s.usesPort x.sid p ||
      asrcOk (s.rd (F.DSP_STR_FMT_AMODE x.sid)) (s.endRate st (s.rd (F.DSP_STR_CFG_SIDX x.sid)) true hfs)
        (s.endRate dt (s.rd (F.DSP_STR_CFG_DIDX x.sid)) false hfs) (!s.audTimed st true || !s.audTimed dt false)

def cardPortCfg : CmdSpec := ⟨0x110, 4, 4, false, true, true, false, false, false, true⟩

/-- PORT_CFG (R207, R229, R230, R236, R239). DESIGN CHOICE (log entry 95): a BCLK above 49.152 MHz is laid to the CLK image, DETAIL 3, in
slave mode as in master mode (R230). -/
def execPortCfg (p : Packet) (s : State) : Host.Outcome State Fault Refusal :=
  s.card cardPortCfg p fun s =>
    let port := pf p.payload 0 0 4
    let fmt := pw p.payload 1
    let clk := pw p.payload 2
    let bus := pw p.payload 3
    if 1 < port then .bad 0
    else if ¬ fmtOk fmt then .bad 1
    else if ¬ s.clkOk fmt clk then .bad 2
    else if ¬ busOk port bus then .bad 3
    else if ¬ (s.writePort port fmt clk bus).streamsFit port then .bad 3
    else if (vat s.tdm port).en then .refuse stsDenied 2
    else s.unlessBusy [.port port] <| s.withDomains [dmTdm port] fun s => .ok (s.writePort port fmt clk bus)

/-! Enables. -/

/-- Whether a port is enabled: 0 TDMA, 1 TDMB, 2 S/PDIF receiver, 3 S/PDIF transmitter. -/
def State.portEn (s : State) (p : Nat) : Bool :=
  if p ≤ 1 then (vat s.tdm p).en else if p = 2 then s.spdif.rxEn else s.spdif.txEn

/-- The sampling-frequency code that IEC 60958-3 gives a rate code, bit 24 the lowest (R249; log entry 96). -/
def iecFs (code : Nat) : Nat :=
  if code = 0x6 then 0x3 else if code = 0x7 then 0x0 else if code = 0x8 then 0x2 else if code = 0x9 then 0x8
  else if code = 0xA then 0xA else if code = 0xB then 0xC else 0xE

/-- A channel-status block as it is sent: with AUTOFS, bits 24 to 27 give the sampling frequency (R249). -/
def SpdTx.block (c : SpdTx) (blk : List Word) : List Word :=
  if c.autofs then (putBits (pw blk 0) 24 4 (iecFs c.fs)) :: blk.drop 1 else blk

/-- The transmitter begins a channel-status block: its waiting settings and the block last written take effect (R249, R251). -/
def State.txBlock (s : State) : State :=
  let c := s.spdif.txNext.getD s.spdif.tx
  { s with spdif := { s.spdif with tx := c, txNext := none, sentA := c.block s.spdif.txA, sentB := c.block s.spdif.txB } }

/-- The receiver's waiting settings take effect (R251). -/
def State.rxBoundary (s : State) : State :=
  { s with spdif := { s.spdif with rx := s.spdif.rxNext.getD s.spdif.rx, rxNext := none } }

/-- The enable of a port set or cleared; a port that goes off is out of sync, and the first block of the S/PDIF ports begins with the enable. -/
def State.setPort (s : State) (p : Nat) (v : Bool) : State :=
  if p ≤ 1 then
    let s1 := { s with tdm := vmod s.tdm p fun x =>
      { x with en := v, good := 0, clean := 0, redo := false, clock := false, useFmt := s.reg (Reg.IN_TDM_FMT p), useClk := s.reg (Reg.IN_TDM_CLK p) } }
    (s1.clr (F.IN_TDM_STAT_SYNC p)).wr (F.IN_TDM_STAT_FSMEAS p) 0xF
  else if p = 2 then
    let s1 := (({ s with spdif := { s.spdif with rxEn := v, npAge := 0, seen := 0 } }.clr F.IN_SPDRX_STAT_LOCK).clr F.IN_SPDRX_STAT_NONPCM).wr
      F.IN_SPDRX_STAT_FSMEAS 0xF
    if v then s1.rxBoundary else s1
  else
    let s1 : State := { s with spdif := { s.spdif with txEn := v } }
    if v then s1.txBlock else s1

/-- The domain of a port. -/
def dmPort (p : Nat) : Nat := 0x19 + p

/-- The held pad group of a port that drives pads (spec/14_power_states.md, R640). -/
def State.releasePort (s : State) (p : Nat) : State :=
  if p ≤ 1 then s.releasePads (1 + p) else if p = 3 then s.releasePads 3 else s

/-- The lowest SID of an open stream that uses a port. -/
def State.portSid? (s : State) (p : Nat) : Option Nat :=
  (List.range 128).find? fun k => s.strs.any fun x => x.sid = k && s.usesPort k p

/-- The registers with hidden parity that belong to a port. -/
def portReg (p a : Nat) : Bool := p ≤ 1 && decide (0x200000 + 0x100 * p ≤ a ∧ a < 0x200010 + 0x100 * p)

def cardPortEnable : CmdSpec := ⟨0x111, 1, 1, false, true, true, false, false, false, false⟩

/-- PORT_ENABLE (R240, R241): refused while a register of the port waits for its rewrite after CFGPAR (spec/03_register_access.md, R135). A port
that is enabled already answers at its next frame boundary. DESIGN CHOICE (log entry 95): an enable that a disable supersedes ends with ST_OK. -/
def execPortEnable (p : Packet) (s : State) : Host.Outcome State Fault Refusal :=
  s.card cardPortEnable p fun s =>
    let port := pf p.payload 0 0 4
    if 3 < port then .bad 0
    else if pb p.payload 0 8 then
      s.unlessBusy [.port port] <|
      if s.portEn port then .pend [] [.port port] s
      else if s.link.cfgpar.any (fun e => portReg port e.1 && s.link.badParity.contains e.1) then .refuse stsDenied 2
      else s.withDomains [dmPort port] fun s =>
        .pend [] [.port port] (((s.cfgLeave (portReg port)).setPort port true).releasePort port)
    else
      match s.portSid? port with
      | some sid => .refuse stsDomainBusy sid
      | none => .ok ((s.finishFor (.port port) 0x111 stsOk []).setPort port false)

/-- PORT_FRAME_FOUND (R234, R240): the pending enable completes; a master port and the transmitter run from here on. -/
def execPortFrameFound (port : Fin 4) (s : State) : Host.Outcome State Fault Refusal :=
  if ¬ s.portEn port.val then .next s
  else
    let s1 := if port.val ≤ 1 ∧ s.on (F.IN_TDM_CLK_MASTER port.val) ∧ (vat s.tdm port.val).clock = false then
        ({ s with tdm := vmod s.tdm port.val fun x => { x with good := 4, clean := 2, clock := true } }.set1 (F.IN_TDM_STAT_SYNC port.val)).wr
          (F.IN_TDM_STAT_FSMEAS port.val) (s.rd (F.IN_TDM_CLK_FS port.val))
      else s
    .next (s1.finishFor (.port port.val) 0x111 stsOk [])

/-! TDM frames. -/

/-- FRAMEERR in every stream that uses a port (R232). -/
def State.frameErr (s : State) (p : Nat) : State :=
  s.strs.foldl (fun s x => if s.usesPort x.sid p then s.set1 (F.DSP_STR_STAT_FRAMEERR x.sid) else s) s

/-- Whether a measured rate lies within 1 % of the port's FS (R231). -/
def rateFits (clk : Word) (hz : Nat) : Bool :=
  decide (clkRate clk * 99 ≤ hz * 100 ∧ hz * 100 ≤ clkRate clk * 101)

/-- A frame error on a port: FERRCNT and, in every stream that uses it, FRAMEERR (R232). IN_TDMx_STAT has no FRAMEERR of its own (log
entry 95). -/
def State.tdmBad (s : State) (p : Nat) : State := (s.sat (F.IN_TDM_STAT_FERRCNT p) 1).frameErr p

/-- Whether a direct write to FMT or CLK of a port waits for an FSYNC edge (R235). -/
def State.fmtWaits (s : State) (p : Nat) : Bool :=
  (vat s.tdm p).useFmt ≠ s.reg (Reg.IN_TDM_FMT p) || (vat s.tdm p).useClk &&& 0x8F000000 ≠ s.reg (Reg.IN_TDM_CLK p) &&& 0x8F000000

/-- TDM_FRAME (R202, R231, R232, R235): a frame of `bclks` BCLK periods at the measured rate. A direct write that waits takes effect at the
frame's edge, and every frame from there to the one that declares SYNC is in error. -/
def execTdmFrame (port : Fin 2) (bclks rate : Nat) (s : State) : Host.Outcome State Fault Refusal :=
  let p := port.val
  let x := vat s.tdm p
  if ¬ x.en then .next s
  else
    let s1 := s.wr (F.IN_TDM_STAT_FSMEAS p) (rateCode rate 10)
    if bclks ≠ fmtSlots x.useFmt * fmtSlotW x.useFmt ∨ s.fmtWaits p then
      .next (({ s1 with tdm := vmod s1.tdm p fun x => { x with good := 0, clean := 0, clock := true } }).tdmBad p)
    else
      let good := if rateFits x.useClk rate then x.good + 1 else 0
      let syncs := decide (4 ≤ good)
      let bad := x.redo && !syncs
      let s2 := { s1 with tdm := vmod s1.tdm p fun x =>
        { x with good := good, clean := if bad then 0 else x.clean + 1, redo := bad, clock := true } }
      let s3 := if bad then s2.tdmBad p else s2
      .next (if syncs then s3.set1 (F.IN_TDM_STAT_SYNC p) else s3)

/-- A slave port loses its source (R233): SYNC clears, and its streams fill when their next frame is due. -/
def State.portLost (s : State) (p : Nat) (clock : Bool) : State :=
  { s with tdm := vmod s.tdm p fun x => { x with good := 0, clock := clock } }.clr (F.IN_TDM_STAT_SYNC p)

/-- Whether port `p` runs as a slave. -/
def State.slaveOn (s : State) (p : Nat) : Bool := (vat s.tdm p).en && !s.on (F.IN_TDM_CLK_MASTER p)

/-- TDM_LOST (R233). -/
def execTdmLost (port : Fin 2) (s : State) : Host.Outcome State Fault Refusal :=
  if s.slaveOn port.val then .next ((s.portLost port.val false).set1 (F.IN_TDM_STAT_LOST port.val)) else .next s

/-- RATEERR (R233). -/
def execRateerr (port : Fin 2) (rate : Nat) (s : State) : Host.Outcome State Fault Refusal :=
  if s.slaveOn port.val ∧ ¬ rateFits (vat s.tdm port.val).useClk rate then
    .next (((s.portLost port.val true).set1 (F.IN_TDM_STAT_RATEERR port.val)).wr (F.IN_TDM_STAT_FSMEAS port.val) (rateCode rate 10))
  else .next s

/-- TDM_FMT_APPLY (R235): the values of a direct write apply at the FSYNC edge; SYNC is to be found anew. -/
def execTdmFmtApply (port : Fin 2) (s : State) : Host.Outcome State Fault Refusal :=
  let p := port.val
  if (vat s.tdm p).en ∧ s.fmtWaits p then
    let s1 := { s with tdm := vmod s.tdm p fun x =>
      { x with good := 0, clean := 0, redo := true, useFmt := s.reg (Reg.IN_TDM_FMT p), useClk := s.reg (Reg.IN_TDM_CLK p) } }
    .next ((s1.showBdiv p).clr (F.IN_TDM_STAT_SYNC p))
  else .next s

/-! S/PDIF. -/

/-- A rate the S/PDIF blocks support (spec/05_streams_ports.md, S/PDIF). -/
def spdRate (code : Nat) : Bool := [0x6, 0x7, 0x8, 0x9, 0xA, 0xB, 0xC].contains code

/-- SPDIF_LOCK (R242): 192 correct frames at a supported rate within 0.5 % that EXPFS admits. -/
def execSpdifLock (rate : Nat) (s : State) : Host.Outcome State Fault Refusal :=
  let c := rateCode rate 5
  if s.spdif.rxEn ∧ spdRate c ∧ (s.spdif.rx.expfs = 0xF ∨ s.spdif.rx.expfs = c) then
    .next (({ s with spdif := { s.spdif with seen := 0 } }.set1 F.IN_SPDRX_STAT_LOCK).wr F.IN_SPDRX_STAT_FSMEAS c)
  else .next s

/-- SPDIF_LOST (R243). -/
def execSpdifLost (s : State) : Host.Outcome State Fault Refusal :=
  if s.on F.IN_SPDRX_STAT_LOCK then .next ((s.clr F.IN_SPDRX_STAT_LOCK).set1 F.IN_SPDRX_STAT_LOST) else .next s

/-- A channel-status change is reported: once for each receive stream, with SID 0 where none is open (R223, R247). -/
def State.csChange (s : State) : State :=
  if ¬ s.spdif.rx.csevt then s
  else if s.rxStreams.isEmpty then s.raise evStream [w32 (7 * 2 ^ 16), 0]
  else s.rxStreams.foldl (fun s k => s.raiseStream k 7) s

/-- The channel-status words of the received frames, of subframe A or B: bit k of the block from frame k (R247). -/
def csWords (frames : List (Subframe × Subframe)) (b : Bool) : List Word :=
  (List.range 6).map fun i => BitVec.ofNat 32 ((List.range 32).foldl (fun n j =>
    let f := frames.getD (32 * i + j) default
    n + b2n (if b then f.2.status else f.1.status) * 2 ^ j) 0)

/-- Whether every frame of a block arrived without a parity error (R247). -/
def csClean (frames : List (Subframe × Subframe)) : Bool := frames.all fun f => !f.1.perr && !f.2.perr

/-- The blocks of both subframe channels stored (R247), and NONPCM by their bit 1 (R246). -/
def State.csStore (s : State) (a b : List Word) : State :=
  let changed := s.spdif.rxA ≠ a || s.spdif.rxB ≠ b
  let s1 : State := { s with spdif := { s.spdif with rxA := a, rxB := b } }
  let s2 := if changed then (s1.set1 F.IN_SPDRX_STAT_CSCHG).csChange else s1
  if s2.csNonpcm then (if s2.on F.IN_SPDRX_STAT_NONPCM then s2 else s2.nonpcmRise)
  else if s2.npHold ≤ s2.spdif.npAge then s2.clr F.IN_SPDRX_STAT_NONPCM
  else s2

/-- SPDIF_CS_BLOCK (R245 to R247, R249, R251): at the end of a received block, the frames of it that no stream has reported are taken in and a clean
block is stored; at the end of a sent one the transmitter begins its next. -/
def execSpdifCsBlock (sent : Bool) (framesA framesB : List Subframe) (biphaseA biphaseB : Bool) (s : State) :
    Host.Outcome State Fault Refusal :=
  if sent then (if s.spdif.txEn then .next s.txBlock else .next s)
  else if ¬ s.spdif.rxEn then .next s
  else
    let frames := framesA.zip framesB
    let s1 := ((frames.drop s.spdif.seen).foldl State.rxFrame s)
    let s2 := if s1.on F.IN_SPDRX_STAT_LOCK ∧ csClean frames ∧ ¬ (biphaseA ∨ biphaseB) then
      s1.csStore (csWords frames false) (csWords frames true) else s1
    .next ({ s2 with spdif := { s2.spdif with seen := 0 } }).rxBoundary

def cardSpdifRxCfg : CmdSpec := ⟨0x120, 2, 2, false, true, true, false, false, false, true⟩

/-- SPDIF_RX_CFG (R251). -/
def execSpdifRxCfg (p : Packet) (s : State) : Host.Outcome State Fault Refusal :=
  s.card cardSpdifRxCfg p fun s =>
    let fs := pf p.payload 0 0 4
    if fs ≠ 0xF ∧ ¬ spdRate fs then .bad 0
    else s.unlessBusy [.port 2] <| s.withDomains [dmSpdRx] fun s =>
      let c : SpdRx := { csevt := pb p.payload 0 8, expfs := fs, nphold := pf p.payload 1 0 16 }
      .ok { s with spdif := if s.spdif.rxEn then { s.spdif with rxNext := some c } else { s.spdif with rx := c, rxNext := none } }

def cardSpdifTxCfg : CmdSpec := ⟨0x121, 2, 2, false, true, true, false, false, false, true⟩

/-- SPDIF_TX_CFG (R248, R250, R251). -/
def execSpdifTxCfg (p : Packet) (s : State) : Host.Outcome State Fault Refusal :=
  s.card cardSpdifTxCfg p fun s =>
    let fs := pf p.payload 0 0 4
    if ¬ spdRate fs ∨ ¬ s.inFamily (rateHz fs) then .bad 0
    else s.unlessBusy [.port 3] <| s.withDomains [dmSpdTx] fun s =>
      let c : SpdTx := { autofs := pb p.payload 0 9, vbit := pb p.payload 0 8, fs := fs, idle := pb p.payload 1 0 }
      .ok { s with spdif := if s.spdif.txEn then { s.spdif with txNext := some c } else { s.spdif with tx := c, txNext := none } }

def cardSpdifCsRead : CmdSpec := ⟨0x122, 1, 1, false, true, true, false, false, false, false⟩

/-- SPDIF_CS_READ (R247). -/
def execSpdifCsRead (p : Packet) (s : State) : Host.Outcome State Fault Refusal :=
  s.card cardSpdifCsRead p fun s =>
    let tx := pb p.payload 0 8
    let b := pb p.payload 0 0
    .done stsOk 0 (if tx then (if b then s.spdif.txB else s.spdif.txA) else (if b then s.spdif.rxB else s.spdif.rxA)) [] s

def cardSpdifCsWrite : CmdSpec := ⟨0x123, 7, 7, false, true, true, false, false, false, true⟩

/-- SPDIF_CS_WRITE (R249, R251): the block is sent from the first block that begins after the command. -/
def execSpdifCsWrite (p : Packet) (s : State) : Host.Outcome State Fault Refusal :=
  s.card cardSpdifCsWrite p fun s =>
    let sel := pf p.payload 0 0 2
    let blk := (List.range 6).map fun i => pw p.payload (i + 1)
    if sel = 3 then .bad 0
    else if pb p.payload 1 0 ∨ pb p.payload 1 1 then .bad 1
    else s.unlessBusy [.port 3] <| s.withDomains [dmSpdTx] fun s =>
      .ok { s with spdif := { s.spdif with
        txA := if sel ≠ 2 then blk else s.spdif.txA, txB := if sel ≠ 1 then blk else s.spdif.txB } }

/-! What the ports drive (R221, R224 to R228, R238, R248 to R250). -/

/-- What a transmit slot carries: a word, its DATAW bits first, the level that a bus keeper holds, or high impedance. -/
inductive SlotOut where
  | driven (w : Word)
  | kept
  | floating
  deriving DecidableEq, Repr

/-- The open stream that owns a transmit slot or subframe (R205), and the channel of it that goes there. -/
def State.owner? (s : State) (type idx : Nat) : Option (StreamX × Nat) :=
  (s.strs.find? fun x => s.usesEnd x.sid type idx false).map fun x => (x, idx - s.rd (F.DSP_STR_CFG_DIDX x.sid))

/-- What slot `k` of TDM port `p` carries (R221, R227, R228, R238): the sample its stream sent last, 0 before the first (log entry 95), and
without a stream 0 or, with TXHIZ, nothing. -/
def State.slotOut (s : State) (p k : Nat) : SlotOut :=
  match s.owner? (p + 1) k with
  | some (x, c) => .driven (x.out.getD c ⟨0, 0⟩).val
  | none =>
    if ¬ s.on (F.IN_TDM_BUS_TXHIZ p) then .driven 0
    else if p = 1 ∧ s.on (F.IN_TDM_BUS_KEEP p) then .kept
    else .floating

/-- DOUT in BCLK period `n` of a frame, counted from the first bit of slot 0 (R225): none where the slot is not driven. -/
def State.doutBit (s : State) (p n : Nat) : Option Bool :=
  let fmt := (vat s.tdm p).useFmt
  let j := n % fmtSlotW fmt
  match s.slotOut p (n / fmtSlotW fmt) with
  | .driven w => some (decide (j < dataBits (bits fmt 18 2)) && w.getMsbD j)
  | _ => none

/-- FSYNC in BCLK period `n` of a frame, counted from the first bit of slot 0 (R224). -/
def fsyncLevel (fmt : Word) (n : Nat) : Bool :=
  let len := fmtSlots fmt * fmtSlotW fmt
  let level :=
    if bits fmt 30 2 = 0 then decide (len / 2 ≤ (n + 1) % len)
    else if bits fmt 30 2 = 1 then decide (n < len / 2)
    else decide ((n + bits fmt 13 1) % len < (if bits fmt 14 2 = 0 then 1 else if bits fmt 14 2 = 1 then fmtSlotW fmt else len / 2))
  level != bit fmt 17

/-- Whether the port drives DOUT and, as master, FSYNC on the rising edge of BCLK and samples DIN on the falling one (R226). -/
def risingDrives (fmt : Word) : Bool := bit fmt 16

/-- A fabric sample as the 24-bit audio field of a sent subframe; how the low bits are rounded the spec does not state (log entry 1). -/
def audioField (w : Word) : BitVec 24 :=
  let q := min (roundFree (w.toInt + 2 ^ 31).toNat 256) (2 ^ 24 - 1)
  BitVec.ofInt 24 ((q : Int) - 2 ^ 23)

/-- What subframe `b` of frame `k` of a block carries (R221, R248 to R250): none where SPDIF_TX is held low. -/
def State.subframeOut (s : State) (b k : Nat) : Option Subframe :=
  let cs := bit (pw (if b = 0 then s.spdif.sentA else s.spdif.sentB) (k / 32)) (k % 32)
  if s.padHeld 3 ∨ ¬ s.spdif.txEn ∨ (s.spdif.tx.idle ∧ s.owner? 3 0 = none ∧ s.owner? 3 1 = none) then none
  else
    match s.owner? 3 b with
    | some (x, c) =>
      let a := x.out.getD c invalidSample
      some ⟨audioField a.val, s.spdif.tx.vbit && !a.is tgValid, cs, false⟩
    | none => some ⟨0, if s.spdif.tx.idle then Config.idleValid else true, cs, false⟩

end Sys2Proof.Machine
end

