-- ==== Sys2Proof/Machine/Speakers.lean ====
section
/-!
DEFINITION. Speaker commands and the phase sequences of a channel (spec/08_speaker_channels.md, R365, R369 to R378, R385, R413
to R418, R805).
-/

namespace Sys2Proof.Machine

/-! Ranges and ceilings. -/

/-- The reference frequency in Hz (spec/09_clocks.md, R421, R422). -/
def State.refHz (s : State) : Nat := if s.rd F.CTL_CLK_STAT_REFFAM = 0 then 24576000 else 22579200

/-- A divider field as taken: 0 means 512, 1 to 3 are taken as 4 (OUT_SW_OUTx). -/
def divTaken (d : Nat) : Nat := if d = 0 then 512 else max 4 d

/-- Whether f_ref * w / 2^24 / (8 * div) is at least `hz` (spec/09_clocks.md, R435). -/
def State.fswAtLeast (s : State) (w div hz : Nat) : Bool := decide (hz * 8 * div * 2 ^ 24 ≤ s.refHz * w)

/-- The lowest fsw of a BAND and LOOPBW in Hz (R365). -/
def minFsw (band loopbw : Nat) : Nat :=
  if band = 0 then (if loopbw = 2 then 400000 else 300000) else (if loopbw = 2 then 2100000 else 1800000)

/-- The phase of a channel, a slave's being its master's (R377). -/
def State.jointPhase (s : State) (n : Nat) : Nat := s.phase (s.master n)

/-- The channels of a mask in rising order. -/
def chansOf (m : Nat) : List Nat := indices 12 (inMask m)

/-- A pending command on one of these channels with an opcode outside `sup` (R178). -/
def State.chanBusy? (s : State) (sup : List Nat) (ns : List Nat) : Option PendEntry :=
  s.pap.slots.find? fun e => !sup.contains e.opcode && e.targets.any fun t => (ns.map Target.chan).contains t

/-- The group domains of these channels. -/
def groupDomains (ns : List Nat) : List Nat := (indices 3 fun g => ns.any fun n => n / 4 = g).map dmGroup

/-! Configuration. -/

def cardSpkGroupCfg : CmdSpec := ⟨0x300, 4, 4, false, true, true, false, false, false, true⟩

/-- The clamp of TFB to TFBMAX (R385, R800). -/
def State.tfbClamp (s : State) (ws : List Word) : List Clamp :=
  if s.rd F.OUT_SPK_FUSE_TFBMAX < pf ws 2 24 8 then [⟨pf ws 0 0 2, 3, 24, s.rd F.OUT_SPK_FUSE_TFBMAX⟩] else []

/-- The fields of SPK_GROUP_CFG are written. -/
def State.setGroupCfg (s : State) (ws : List Word) : State :=
  let g := pf ws 0 0 2
  let s1 := s.putReg (Reg.OUT_G_CFG g) (pw ws 1 &&& 0xFF000FFC)
  let s2 := s1.putReg (Reg.OUT_G_THERM g) (putBits (putBits (putBits (s.reg (Reg.OUT_G_THERM g)) 24 8
    (min (pf ws 2 24 8) (s.rd F.OUT_SPK_FUSE_TFBMAX))) 20 4 (pf ws 2 20 4)) 16 4 (pf ws 3 0 4))
  s2.applyPairs g

/-- SPK_GROUP_CFG (R365, R378, R413). -/
def execSpkGroupCfg (p : Packet) (s : State) : Host.Outcome State Fault Refusal :=
  s.card cardSpkGroupCfg p fun s =>
    let ws := p.payload
    let g := pf ws 0 0 2
    let band := pf ws 1 7 1
    let bw := pf ws 1 5 2
    let chBand := band ≠ s.rd (F.OUT_G_CFG_BAND g)
    let chBw := bw ≠ s.rd (F.OUT_G_CFG_LOOPBW g)
    let chPair := pf ws 1 10 2 ≠ s.rd (F.OUT_G_CFG_PAIR g)
    let phases := (List.range 4).map fun k => s.jointPhase (4 * g + k)
    if g = 3 then .bad 0
    else if bw = 3 ∨ (4 ≤ pf ws 1 2 3 ∧ pf ws 1 2 3 ≤ 6)
      ∨ s.fswAtLeast (s.reg Reg.OUT_SW_FREQI).toNat (divTaken (s.rd (F.OUT_SW_OUTA_DIV g))) (minFsw band bw) = false then .bad 1
    else if pf ws 2 24 8 < 125 ∨ 5 < pf ws 2 20 4 then .bad 2
    else if (chBand ∨ chPair) ∧ phases.any (· ≠ phOff) then .refuse stsDenied 2
    else if chBw ∧ phases.any (fun ph => ph ≠ phOff && ph ≠ phHold) then .refuse stsDenied 2
    else s.unlessBusy [.group g] <| s.withDomains [dmGroup g] fun s =>
      if chBand ∨ chBw then .pend [] [.group g] (s.setGroupCfg ws)
      else .clampedOk [] (s.tfbClamp ws) (s.setGroupCfg ws)

/-- LOOP_COEFFICIENTS_RELOADED (R413): the SPK_GROUP_CFG that changed BAND or LOOPBW ends. -/
def execLoopCoefficientsReloaded (g : Fin 3) (s : State) : Host.Outcome State Fault Refusal :=
  match s.pap.slots.find? (fun e => e.opcode = 0x300 && e.targets.contains (.group g.val) && e.done.isNone) with
  | none => .next s
  | some e =>
    let cl := s.tfbClamp e.payload
    .next (if cl.isEmpty then s.finish e stsOk 0 [] [] else s.finish e stsClamped 3 [] cl)

def cardSpkChanCfg : CmdSpec := ⟨0x301, 4, 4, false, true, true, false, false, false, true⟩

/-- SPK_CHAN_CFG (R364, R414). -/
def execSpkChanCfg (p : Packet) (s : State) : Host.Outcome State Fault Refusal :=
  s.card cardSpkChanCfg p fun s =>
    let ws := p.payload
    let n := pf ws 0 0 4
    if 11 < n ∨ s.phase n = phSlave then .bad 0
    else if 9 < pf ws 1 28 4 then .bad 1
    else if phCheck ≤ s.phase n ∧ s.phase n ≤ phMute then .refuse stsDenied 2
    else s.unlessBusy [.chan n] <| s.withDomains [dmGroup (n / 4)] fun s =>
      let c := putBits (putBits (putBits (putBits (putBits (s.reg (Reg.OUT_SPK_CFG n)) 28 4 (pf ws 1 28 4)) 20 8
        (pf ws 1 20 8)) 8 8 (pf ws 3 0 8)) 7 1 (pf ws 2 7 1)) 6 1 (pf ws 2 6 1)
      .ok ((s.putReg (Reg.OUT_SPK_CFG n) c).putReg (Reg.OUT_SPK_LIMIT n)
        (putBits (s.reg (Reg.OUT_SPK_LIMIT n)) 8 8 (pf ws 2 8 8)))

def cardSpkLimit : CmdSpec := ⟨0x304, 3, 3, false, true, true, false, false, false, true⟩

/-- SPK_LIMIT (R385, R417). -/
def execSpkLimit (p : Packet) (s : State) : Host.Outcome State Fault Refusal :=
  s.card cardSpkLimit p fun s =>
    let ws := p.payload
    let ns := chansOf (pf ws 0 0 12)
    let plim := pf ws 1 24 8
    let tau := pf ws 1 16 8
    let il := pf ws 2 0 4
    let ceil := s.rd F.OUT_SPK_FUSE_PCEIL
    if plim = 0 ∨ 200 < plim ∨ tau = 0 ∨ 100 < tau then .bad 1
    else if 0xC < il then .bad 2
    else s.unlessBusy (ns.map Target.chan) <| s.withDomains (groupDomains ns) fun s =>
      let s1 := ns.foldl (fun (s : State) n =>
        ((s.putReg (Reg.OUT_SPK_LIMIT n) (putBits (putBits (s.reg (Reg.OUT_SPK_LIMIT n)) 24 8 (min plim ceil)) 16 8 tau)).putReg
          (Reg.OUT_SPK_CFG n) (putBits (s.reg (Reg.OUT_SPK_CFG n)) 16 4 (min il (s.ilimCeil n)))).showGroup (n / 4)) s
      .clampedOk [] (ns.flatMap fun n => (if ceil < plim then [⟨n, 2, 24, ceil⟩] else [])
        ++ (if s.ilimCeil n < il then [⟨n, 3, 0, s.ilimCeil n⟩] else [])) s1

/-! Enable, disable, retry. -/

def cardSpkEnable : CmdSpec := ⟨0x302, 1, 1, false, false, true, false, false, false, false⟩

/-- Whether SPK_ENABLE refuses a channel: in Fault hold other than a shut-down that has cooled, a slave, in a group in thermal
shutdown, or with a corrupted register not yet rewritten (R383, R415; spec/03_register_access.md, R135). -/
def State.enableDenied (s : State) (n : Nat) : Bool :=
  s.phase n = phSlave || s.on (F.OUT_G_STAT_TSHUT (n / 4)) || (held (s.phase n) && (s.spk n).why ≠ 0x305) || s.cfgBlocked n

/-- A channel restarts from Fault hold through R369 (R383, R390, R391); in the safe state of CFGPAR it stays there (spec/03_register_access.md,
R135). -/
def State.restart (s : State) (n : Nat) : State := if s.cfgHolds n then s else (s.unhold n).startChan n false

/-- One channel named by SPK_ENABLE starts. -/
def State.enableChan (s : State) (n : Nat) : State :=
  let s1 := s.cfgLeave fun a => (spkOwner a).contains n
  if held (s1.phase n) then s1.restart n else s1.startChan n false

/-- Waits of a pending command in the slot it is about to take, for those of these channels that satisfy `p`. -/
def State.addWaits (s : State) (kind : Nat) (ns : List Nat) (p : Nat → Bool) : State :=
  s.modOut fun o => { o with waits := o.waits ++ (ns.filter p).map fun n => (s.freeSlot?.getD 8, n, kind) }

/-- SPK_ENABLE (R415, R416; spec/15_safety.md, R675). -/
def execSpkEnable (p : Packet) (s : State) : Host.Outcome State Fault Refusal :=
  let ns := chansOf (pf p.payload 0 0 12)
  .next (s.take cardSpkEnable p (fun s =>
    if s.chipSafe ∨ ns.any s.enableDenied then .refuse stsDenied 2
    else
      match s.chanBusy? [0x303] ns with
      | some e => busyWith e
      | none => s.withDomains (groupDomains ns) fun s =>
        let s1 := ns.foldl (fun (s : State) n => (s.supersede 0x303 n).enableChan n) s
        .pend [] (ns.map Target.chan) (s1.addWaits 0 ns fun n => !pastLock (s1.phase n))) State.spkPoll)

def cardSpkDisable : CmdSpec := ⟨0x303, 1, 1, false, true, true, true, false, false, false⟩

/-- SPK_DISABLE (R372, R416; spec/10_load_jack_diagnostics.md, R498). -/
def execSpkDisable (p : Packet) (s : State) : Host.Outcome State Fault Refusal :=
  let ns := chansOf (pf p.payload 0 0 12)
  .next (s.take cardSpkDisable p (fun s =>
    match s.chanBusy? [0x302, 0xA00, 0xA01] ns with
    | some e => busyWith e
    | none =>
      let s1 := ns.foldl (fun (s : State) n =>
        let s2 := (s.supersede 0x302 n).diagAbort n
        if held (s2.phase n) then s2.unhold n else s2.stopChan n (pb p.payload 0 31)) s
      .pend [] (ns.map Target.chan) (s1.addWaits 1 ns fun n => s1.phase n ≠ phOff && s1.phase n ≠ phSlave)) State.spkPoll)

def cardSpkRetry : CmdSpec := ⟨0x305, 1, 1, false, false, true, false, false, false, false⟩

/-- SPK_RETRY (R418; spec/15_safety.md, R675). -/
def execSpkRetry (p : Packet) (s : State) : Host.Outcome State Fault Refusal :=
  let ns := chansOf (pf p.payload 0 0 12)
  let permit := pb p.payload 0 31
  .next (s.take cardSpkRetry p (fun s =>
    if ns.any (fun n => !held (s.phase n) || (s.spk n).why ≠ 0x301) then .bad 0
    else if permit ∧ s.chipSafe then .refuse stsDenied 2
    else
      match s.chanBusy? (if permit then [] else [0x305]) ns with
      | some e => busyWith e
      | none =>
        let s1 := ns.foldl (fun (s : State) n => (if permit then s else s.supersede 0x305 n).putReg (Reg.OUT_SPK_CTRL n)
          (putBits (s.reg (Reg.OUT_SPK_CTRL n)) 2 1 (b2n permit))) s
        if permit then .pend [] (ns.map Target.chan) (s1.addWaits 2 ns fun _ => true) else .ok s1) State.spkPoll)

/-! Direct writes of START and STOP, as they land (R373, R805). -/

/-- START lands. -/
def State.startWrite (s : State) (n : Nat) : State :=
  if s.pstate ≠ stPlay ∨ s.chipSafe ∨ held (s.phase n) ∨ s.phase n = phSlave ∨ s.cfgBlocked n then s
  else (s.cfgLeave fun a => (spkOwner a).contains n).startChan n false

/-- STOP lands. -/
def State.stopWrite (s : State) (n : Nat) : State := if held (s.phase n) then s.unhold n else (s.diagAbort n).stopChan n false

/-! The phases. -/

/-- SPK_PENDING_START (R805). -/
def execSpkPendingStart (chan : Fin 12) (s : State) : Host.Outcome State Fault Refusal :=
  let n := chan.val
  if s.phase n = phOff ∧ (s.spk n).start ∧ s.on (F.OUT_G_STAT_PVDDOK (n / 4)) ∧ s.carrierOn (n / 4)
      ∧ s.rd F.SAFE_SM_STAT_CSS ≠ 2 then .next (s.beginCheck n)
  else .next s

/-- Whether a leg of `k` healthy slices fails its self-test: a switch conducts while off, or its on-resistance lies above 4 times the 60 mΩ
times 4 over `k` of R360, in µΩ (R389). -/
def selfTestFails (t : LegTest) (k : Nat) : Bool := t.leaks || decide (4 * (60000 * 4) < t.ron * k)

/-- Whether the leg at a node fails its self-test; a node without a leg does (R389). -/
def State.legFails (s : State) (g j : Nat) (t : LegTest) : Bool := !s.hasLeg g j || selfTestFails t (sliceCount (s.legSlices g j))

/-- The legs of a channel, and of its slave in a pair, that fail their self-tests: channel and leg. -/
def State.failing (s : State) (n : Nat) (own slave : ChanTest) : List (Nat × Nat) :=
  (s.drives n).flatMap fun c =>
    let t := if c = n then own else slave
    (if s.legFails (c / 4) (nodeOf c 0) t.legP then [(c, 0)] else []) ++ (if s.legFails (c / 4) (nodeOf c 1) t.legM then [(c, 1)] else [])

/-- What the node tests of a channel find: GND, PVDD or LOAD (R389). -/
def nodeTests (t : ChanTest) : Nat :=
  if t.upP < 100 ∨ t.upM < 100 then 1
  else if t.pvdd < t.downP + 100 ∨ t.pvdd < t.downM + 100 then 2
  else if t.diff < 50 then 3
  else 0

/-- What the node tests of a channel, and of its slave in a pair, find: the first matching row decides (R379, R389). -/
def State.nodeClass (s : State) (n : Nat) (own slave : ChanTest) : Nat :=
  let found := (s.drives n).map fun c => nodeTests (if c = n then own else slave)
  ([1, 2, 3].find? fun k => found.contains k).getD 0

/-- SCLASS of a Check or of a classification: INTERNAL where a leg self-test fails (R389). -/
def State.sclassOf (s : State) (n : Nat) (own slave : ChanTest) : Nat :=
  if s.failing n own slave ≠ [] then 4 else s.nodeClass n own slave

/-- SPK_CHECK_DONE (R369, R378): with the leg self-tests and node tests of the channel, and of its slave in a pair. -/
def execSpkCheckDone (chan : Fin 12) (tests : ChanTest × ChanTest) (s : State) : Host.Outcome State Fault Refusal :=
  let n := chan.val
  if s.phase n ≠ phCheck then .next s
  else
    let c := s.sclassOf n tests.1 tests.2
    let c5 := if c = 0 ∧ s.paired n ∧ 2450 < s.rd (F.OUT_G_STAT_PVDD (n / 4)) then 5 else c
    if c5 = 0 then .next ((s.wr (F.OUT_SPK_STAT_SCLASS n) 0).ramp n phCharge 0 false)
    else .next ((s.wr (F.OUT_SPK_STAT_SCLASS n) c5).faultHold n 0)

/-- SPK_CHARGE_DONE (R369). -/
def execSpkChargeDone (chan : Fin 12) (s : State) : Host.Outcome State Fault Refusal :=
  .next (if s.phase chan.val = phCharge then s.setPhase chan.val phLock else s)

/-- The first tone of an offline AC test begins on its channel (spec/10_load_jack_diagnostics.md, R489). -/
def State.acTone (s : State) (n : Nat) : Option State :=
  match s.diag.ac with
  | some a =>
    if a.chan = n ∧ a.online = false ∧ a.stage = 0 then
      some ({ s with diag := { s.diag with ac := some { a with stage := 1, mark := s.now } } }.setPhase n phHold)
    else none
  | none => none

/-- SPK_LOCK_DONE (R369, R371): the sequence that the latest command requires follows. -/
def execSpkLockDone (chan : Fin 12) (s : State) : Host.Outcome State Fault Refusal :=
  .next (if s.phase chan.val ≠ phLock then s else if (s.spk chan.val).on then s.toHold chan.val
    else (s.acTone chan.val).getD (s.discharge chan.val))

/-- SPK_UNMUTE_DONE (R369). -/
def execSpkUnmuteDone (chan : Fin 12) (s : State) : Host.Outcome State Fault Refusal :=
  .next (if s.phase chan.val = phUnmute then s.setPhase chan.val phPlay else s)

/-- SPK_MUTE_DONE (R370): Hold where a transition was the cause, Discharge on a stop. -/
def execSpkMuteDone (chan : Fin 12) (s : State) : Host.Outcome State Fault Refusal :=
  .next (if s.phase chan.val ≠ phMute then s else if (s.spk chan.val).on then s.toHold chan.val else s.discharge chan.val)

/-- SPK_DISCHARGE_DONE (R370; spec/10_load_jack_diagnostics.md, R489). -/
def execSpkDischargeDone (chan : Fin 12) (s : State) : Host.Outcome State Fault Refusal :=
  .next (if s.phase chan.val = phDischarge then (s.toOff chan.val).acStored chan.val else s)

/-- MUTE_N_FALL (R375). -/
def execMuteNFall (s : State) : Host.Outcome State Fault Refusal :=
  .next (if s.out.muteLow then s else (s.modOut fun o => { o with muteLow := true }).muteChanged)

/-- MUTE_N_RISE (R376). -/
def execMuteNRise (s : State) : Host.Outcome State Fault Refusal :=
  .next (if s.out.muteLow then (s.modOut fun o => { o with muteLow := false }).muteChanged else s)

/-- Every output in PLAY runs Mute, as FAST where an OFF pre-empts (spec/14_power_states.md, R619, R623). -/
def State.spkMuteAll (s : State) (fast : Bool) : State :=
  forEach (fun n s =>
    if s.phase n = phPlay then s.ramp n phMute (s.fadeTicks n) fast
    else if s.phase n = phUnmute ∨ (s.phase n = phMute ∧ fast) then s.ramp n phMute (s.rampPos n) fast
    else s) 12 s

/-- Every channel runs to Off as the device leaves IDLE (R374). -/
def State.spkStopAll (s : State) (fast : Bool) : State := forEach (fun n s => s.stopChan n fast) 12 s

end Sys2Proof.Machine
end

