-- ==== Sys2Proof/Machine/Carrier.lean ====
section
/-!
DEFINITION. SWPLL and its outputs (spec/09_clocks.md, R435 to R453, R459 to R461): frequencies, conflicts, ranges, ramps, moves and
the transfer of the shadow set.
-/

namespace Sys2Proof.Machine

def State.modClk (s : State) (f : ClkX → ClkX) : State := { s with clk := f s.clk }

/-! The shadow set, the active copies, the ramp generator. -/

/-- The shadow, active and instantaneous frequency words: NINT in [31:24], FRAC in [23:0]. -/
def State.swShadow (s : State) : Nat := (s.reg Reg.OUT_SW_FREQ).toNat
def State.swTarget (s : State) : Nat := (s.reg Reg.OUT_SW_FREQA).toNat
def State.swNow (s : State) : Nat := (s.reg Reg.OUT_SW_FREQI).toNat

/-- Whether output g is enabled, and its divider, as active and in the shadow set. -/
def State.swEn (s : State) (g : Nat) : Bool := s.on (F.OUT_SW_OUTA_EN g)
def State.swDiv (s : State) (g : Nat) : Nat := divTaken (s.rd (F.OUT_SW_OUTA_DIV g))
def State.shadowDiv (s : State) (g : Nat) : Nat := divTaken (s.rd (F.OUT_SW_OUT_DIV g))

/-- Whether a group has a channel that is not Off. -/
def State.groupActive (s : State) (g : Nat) : Bool :=
  (List.range 4).any fun k => s.phase (4 * g + k) ≠ phOff && s.phase (4 * g + k) ≠ phSlave

/-- EVT_PLL (R433): DUR in µs from a duration in ticks. -/
def State.raisePll (s : State) (kind pll ticks : Nat) : State :=
  s.raise evPll [w32 (kind * 2 ^ 28 + pll * 2 ^ 24 + min 0xFFFF (ticks * 1000 / 24576))]

/-! Ranges and conflicts. -/

/-- The range of a group in Hz (R460), its top lowered by FSWCAP (spec/17_service_life.md, R752). -/
def State.fswLow (s : State) (g : Nat) : Nat := minFsw (s.rd (F.OUT_G_CFG_BAND g)) (s.rd (F.OUT_G_CFG_LOOPBW g))
def State.fswHigh (s : State) (g : Nat) : Nat :=
  let top := if s.rd (F.OUT_G_CFG_BAND g) = 0 then 480000 else 2400000
  let cap := 10000 * vat s.clk.caps g
  if cap = 0 then top else min top cap

/-- Whether a group's fsw lies in its range at this frequency word and divider (R435, R460). -/
def State.inRange (s : State) (g w div : Nat) : Bool :=
  s.fswAtLeast w div (s.fswLow g) && decide (s.refHz * w ≤ s.fswHigh g * 8 * div * 2 ^ 24)

/-- The tuned frequency in Hz; 0 for NONE. -/
def State.ftHz (s : State) : Nat := 500 * s.rd F.OUT_SW_PLACE_FT

/-- The guard distance in Hz. -/
def State.guardHz (s : State) : Nat := 1000 * s.rd F.OUT_SW_PLACE_GUARD

/-- Whether a harmonic of a carrier lies within the guard distance of ft (R459). -/
def State.conflicts (s : State) (w div : Nat) : Bool :=
  s.ftHz ≠ 0 && (List.range 8).any fun k =>
    let a := (k + 1) * s.refHz * w
    let b := s.ftHz * 8 * div * 2 ^ 24
    decide ((if a < b then b - a else a - b) < s.guardHz * 8 * div * 2 ^ 24)

/-- The enabled groups in conflict at a frequency word with these dividers (R459). -/
def State.confAt (s : State) (w : Nat) (div : Nat → Nat) : Nat := maskOf 3 fun g => s.swEn g && s.conflicts w (div g)

/-- The groups pinned by LOOP_PIN or held by SWPLL_SET (R461). -/
def State.pinnedHeld (s : State) : Nat := s.pap.pinPlace.toNat ||| s.clk.holds

/-- Whether a group's fsw lies above its FSWCAP (spec/17_service_life.md, R754). -/
def State.aboveCap (s : State) (g : Nat) : Bool :=
  s.on F.OUT_SW_STAT_SWON && s.swEn g && vat s.clk.caps g ≠ 0
    && decide (10000 * vat s.clk.caps g * 8 * s.swDiv g * 2 ^ 24 < s.refHz * s.swNow)

/-- CONF, HOLD and ABOVECAP follow. -/
def State.showSw (s : State) : State :=
  ((s.wr F.OUT_SW_STAT_CONF (s.confAt s.swNow s.swDiv)).wr F.OUT_SW_STAT_HOLD s.pinnedHeld).wr F.SAFE_AGE_STAT_ABOVECAP
    (b2n ((List.range 3).any s.aboveCap))

/-- EVT_PLACEMENT (R467). -/
def State.raisePlacement (s : State) (kind before after w : Nat) : State :=
  s.raise evPlacement [w32 (kind * 2 ^ 28 + before * 2 ^ 24 + after * 2 ^ 20 + s.rd F.OUT_SW_PLACE_FT), w32 w]

/-! Ramps (R443 to R448). -/

/-- Slot 1: the raised cosine in Q1.15 (R444). -/
def raisedCosine : List Nat :=
  [79, 315, 705, 1247, 1935, 2761, 3719, 4799, 5990, 7282, 8661, 10114, 11628, 13188, 14778, 16384] ++
  [17990, 19580, 21140, 22654, 24107, 25486, 26778, 27969, 29049, 30007, 30833, 31521, 32063, 32453, 32689, 32768]

/-- The points of a profile slot (R444). -/
def State.profile (s : State) (slot : Nat) : List Nat :=
  if slot = 0 then [0x4000, 0x8000] else if slot = 1 then raisedCosine else if slot = 2 then s.clk.slot2 else s.clk.slot3

/-- The ticks that a ramp is to take. -/
def RampX.ticks (r : RampX) : Nat := msTicks * r.ms

/-- f0 + (f1 - f0) * n / d in frequency words; where the quotient is no whole number the rounding is open (log entry 1). -/
def between (f0 f1 n d : Nat) : Nat := if f0 ≤ f1 then f0 + roundFree ((f1 - f0) * n) d else f0 - roundFree ((f0 - f1) * n) d

/-- The most that the ramp generator moves from `now` in `n` ticks of 24.576 MHz: 0.1 % of it in 1 µs (R446). -/
def slopeMax (now n : Nat) : Nat := now * n / 24576

/-- The word of the ramp generator `n` ticks after it was `now` (R443); what steers it at its slope limit is open, the limit and the direction
are not (R446). -/
def RampX.value (r : RampX) (now n : Nat) : Nat :=
  if r.limited ∨ r.pts = [] then
    let x := Config.rampOpen r.f0 r.f1 r.ms r.pts r.t
    if now ≤ r.f1 then min (min r.f1 (now + slopeMax now n)) (max now x) else max (max r.f1 (now - slopeMax now n)) (min now x)
  else if r.ticks ≤ r.t then r.f1
  else
    let x := r.t * r.pts.length
    let k := x / r.ticks
    let a := if k = 0 then 0 else r.pts.getD (k - 1) 0
    between r.f0 r.f1 (a * r.ticks + (r.pts.getD k 0 - a) * (x % r.ticks)) (32768 * r.ticks)

/-- Whether a profile exceeds 0.1 % of the present value in 1 µs on a segment (R446); `u` is the last point before `pts`. -/
def tooSteep (f0 f1 us n : Nat) : Nat → List Nat → Bool
  | _, [] => false
  | u, p :: rest =>
    let d := if f0 ≤ f1 then f1 - f0 else f0 - f1
    let low := if f0 ≤ f1 then f0 * 32768 + d * u else f0 * 32768 - d * p
    decide (low * us < (p - u) * d * n * 1000) || tooSteep f0 f1 us n p rest

/-- A ramp begins from the present value, with a copy of its profile (R443, R445, R446, R448). -/
def State.rampStart (s : State) (w ms slot : Nat) : State :=
  let pts := s.profile slot
  let steep := tooSteep s.swNow w (1000 * ms) pts.length 0 pts
  let s1 := (s.modClk fun c => { c with ramp := some ⟨s.swNow, w, ms, pts, 0, steep, false⟩, settling := false }).set1 F.OUT_SW_STAT_RAMP
  let s2 := s1.setReg Reg.OUT_SW_FREQA (w32 w)
  if steep then s2.set1 F.OUT_SW_STAT_RSTRETCH else s2

/-- The ramp generator runs for `n` ticks, unless lock is lost (R432, R443). -/
def State.rampTick (s : State) (n : Nat) : State :=
  match s.clk.ramp with
  | some r =>
    if s.on F.OUT_SW_STAT_COAST then s
    else
      let r1 := { r with t := r.t + n }
      ((s.modClk fun c => { c with ramp := some r1 }).setReg Reg.OUT_SW_FREQI (w32 (r1.value s.swNow n))).showSw
  | none => s

/-- The window under way of SWPLL takes in `n` ticks at the generator's value (R427). -/
def State.winTick (s : State) (n : Nat) : State :=
  if s.on F.OUT_SW_STAT_SWON then s.modClk fun c => { c with winSum := c.winSum + n * s.swNow, winTicks := c.winTicks + n } else s

/-- A move ends: the active values are reached, EVT_PLACEMENT for a placement's, and the commands that waited for it end
(R440, R451, R467, R469). -/
def State.moveEnd (s : State) : State :=
  let s1 := ((s.modClk fun c => { c with ramp := none, settling := false }).clr F.OUT_SW_STAT_RAMP).showSw
  if s1.clk.due then s1
  else
    let s2 := if s1.clk.placing then
        (s1.modClk fun c => { c with placing := false }).raisePlacement 2 s1.clk.confWas (s1.rd F.OUT_SW_STAT_CONF) s1.swTarget
      else s1
    s2.finishAll (fun e => e.opcode = 0x501 || e.opcode = 0x510) stsOk 0

/-- A command's move is dropped: what waited for it ends. -/
def State.moveDrop (s : State) (st detail : Nat) : State :=
  let s1 := (s.modClk fun c => { c with ramp := none, due := false, placing := false, settling := false }).clr F.OUT_SW_STAT_RAMP
  s1.finishAll (fun e => e.opcode = 0x501 || e.opcode = 0x510) st detail

/-- Whether a placement move under way, or waiting for its transfer, moves f_VCO or the divider of one of these groups. -/
def State.placeMoves (s : State) (gs : Nat) : Bool :=
  s.clk.placing && (s.clk.ramp.isSome || (s.clk.due &&
    (s.swShadow ≠ s.swNow || (List.range 3).any fun g => inMask gs g && s.shadowDiv g ≠ s.swDiv g)))

/-- Groups are pinned: a placement move that would move one of them stops where it is, the active and the shadow set with it, and what waited for
it ends (spec/04_command_protocol.md, R193; R461). DESIGN CHOICE (log entry 97): the pending TUNED_FREQ ends with ST_OK and the move's end is
reported. -/
def State.placeFreeze (s : State) (gs : Nat) : State :=
  if s.placeMoves (maskOf 3 fun g => inMask gs g && s.swEn g) ∧ (List.range 3).any (fun g => inMask gs g && s.swEn g) then
    let s1 := (s.setReg Reg.OUT_SW_FREQA (s.reg Reg.OUT_SW_FREQI)).putReg Reg.OUT_SW_FREQ (s.reg Reg.OUT_SW_FREQI)
    let s2 := forEach (fun g z => z.putReg (Reg.OUT_SW_OUT g) (z.reg (Reg.OUT_SW_OUTA g))) 3 s1
    ((s2.clr F.OUT_SW_CTRL_UPDATE).modClk fun c => { c with due := false }).moveEnd
  else s

/-! Period starts (R436 to R438, R454). -/

/-- A VCO cycle in the unit of GroupX.frac. -/
def vcoUnit : Nat := 2 ^ 24 * 24576000

/-- The VCO cycles of DELAY of output g within its period (R437). -/
def State.swDelay (s : State) (g : Nat) : Nat := s.rd (F.OUT_SW_OUTA_DELAY g) % (8 * s.swDiv g)

/-- Every output divider restarts; output g begins its first period DELAY and `lead` VCO cycles later (R437, R455). -/
def State.alignOuts (s : State) (lead : Int) : State :=
  forEach (fun g z => z.modGrp g fun x => { x with frac := -((lead + z.swDelay g) * vcoUnit), owed := 0 }) 3 s

/-- SYNC_OUT goes high for this many carrier cycles of output A as its period under way begins: one, three at the period of a transfer, none
where it stays low (R454). -/
def State.syncOut (s : State) : Nat :=
  if s.rd F.OUT_SW_STAT_SYNCMODE = 1 ∧ s.on F.OUT_SW_STAT_SWON ∧ s.swEn 0 ∧ ¬ inMask (s.rd F.OUT_SW_STAT_GATE) 0 then
    (if s.clk.marked then 3 else 1)
  else 0

/-- The level of SYNC_OUT (R454): low while its pad is held (spec/14_power_states.md, R640). -/
def State.syncLevel (s : State) : Bool :=
  let at' := (vat s.groups 0).frac
  !s.padHeld 4 && decide (0 ≤ at' ∧ at' < s.syncOut * s.swDiv 0 * vcoUnit)

/-! Moves of SWPLL_SET and placement (R440, R448, R449). -/

/-- A frequency word, a divider per output, RTIME, a profile slot and COASTTHRU. -/
structure Move where
  w     : Nat
  divs  : List Nat
  ms    : Nat
  slot  : Nat
  coast : Bool

/-- Papol writes the shadow set for a move. -/
def State.shadowWrite (s : State) (m : Move) : State :=
  let c := putBits (putBits (putBits (s.reg Reg.OUT_SW_CTRL) 0 16 m.ms) 24 2 m.slot) 30 1 (b2n m.coast)
  let s1 := (s.putReg Reg.OUT_SW_CTRL c).putReg Reg.OUT_SW_FREQ (w32 m.w)
  forEach (fun g s => s.putReg (Reg.OUT_SW_OUT g) (putBits (s.reg (Reg.OUT_SW_OUT g)) 0 9 (m.divs.getD g 0))) 3 s1

/-- A move is given: during a ramp a new ramp target is taken at once, a step ends the ramp where it is; otherwise it waits for its
transfer. What an earlier move's command waited for has ended (R448, R449, R466, R469). -/
def State.moveStart (s : State) (m : Move) (placing : Bool) : State :=
  let before := s.confAt s.swNow s.swDiv
  let s0 := (s.modClk fun c => { c with due := false }).finishAll (fun e => e.opcode = 0x501 || e.opcode = 0x510) stsOk 0
  let retarget := s0.clk.placing && placing
  let s1 := (s0.shadowWrite m).modClk fun c => { c with placing := placing, confWas := before }
  let after := s1.confAt m.w fun g => divTaken (m.divs.getD g 0)
  let same := (List.range 3).all fun g => s1.swDiv g = s1.shadowDiv g
  let s2 :=
    if s1.clk.ramp.isSome ∧ m.ms ≠ 0 ∧ same then s1.rampStart m.w m.ms m.slot
    else ((s1.modClk fun c => { c with ramp := none, due := true }).clr F.OUT_SW_STAT_RAMP).set1 F.OUT_SW_CTRL_UPDATE
  if placing then
    if retarget then s2.raisePlacement 4 before after m.w
    else if s2.clk.due then s2 else s2.raisePlacement 1 before after m.w
  else s2

/-! Transfers (R439 to R441, R451). -/

/-- Whether the SWPLL shadow set is in its CFGPAR safe state (spec/15_safety.md, R672). -/
def swReg (a : Nat) : Bool := decide (0x303000 ≤ a ∧ a < 0x30301C)
def State.swBlocked (s : State) : Bool := s.link.cfgpar.any fun e => swReg e.1 && s.link.badParity.contains e.1

/-- Whether a transfer would discard the shadow set (R439, R671, R672). -/
def State.swDiscards (s : State) : Bool :=
  s.on F.SAFE_SM_STAT_FALLBACK || s.swBlocked
    || (List.range 3).any fun g => s.swEn g && !s.on (F.OUT_SW_OUT_EN g) && s.groupActive g

/-- Outputs are gated from now (R451, R453). -/
def State.gateStart (s : State) (mask : Nat) (fstep : Bool) : State :=
  let begun (c : ClkX) : ClkX :=
    { c with gateAt := s.now, stepping := fstep || c.stepping, steps := (if fstep then 0 else c.steps), gateLeft := (if fstep then 0 else 2)
             winSum := (if fstep then 0 else c.winSum), winTicks := (if fstep then 0 else c.winTicks) }
  let s1 := (s.modClk begun).wr F.OUT_SW_STAT_GATE (s.rd F.OUT_SW_STAT_GATE ||| mask)
  ((if fstep then s1.clr F.OUT_SW_STAT_LOCK else s1).raisePll 4 2 0).outShow

/-- Every gated output starts a new period (R451). -/
def State.gateEnd (s : State) : State :=
  let gated := s.rd F.OUT_SW_STAT_GATE
  let s0 := forEach (fun g z => if inMask gated g then z.modGrp g fun x => { x with frac := 0, owed := 0 } else z) 3 s
  let s1 := (s0.modClk fun c => { c with stepping := false, gateLeft := 0 }).wr F.OUT_SW_STAT_GATE 0
  (s1.raisePll 5 2 (s.now - s.clk.gateAt)).outShow.moveEnd

/-- What the shadow set changes. -/
structure SwDiff where
  f0  : Nat
  f1  : Nat
  div : Nat
  en  : Nat
  act : Bool

def State.swDiff (s : State) : SwDiff :=
  let div := maskOf 3 fun g => s.swDiv g ≠ s.shadowDiv g
  let en := maskOf 3 fun g => s.swEn g ≠ s.on (F.OUT_SW_OUT_EN g)
  ⟨s.swNow, s.swShadow, div, en, (List.range 3).any fun g => inMask (div ||| en) g && s.groupActive g⟩

/-- The copy of one output becomes active; a change of DELAY lengthens its next period (R438). -/
def State.copyOut (s : State) (g : Nat) : State :=
  let old := s.rd (F.OUT_SW_OUTA_DELAY g)
  let s1 := s.setReg (Reg.OUT_SW_OUTA g) (s.reg (Reg.OUT_SW_OUT g))
  let by' := ((s1.rd (F.OUT_SW_OUTA_DELAY g) : Int) - old) % (8 * s1.swDiv g : Nat)
  s1.modGrp g fun x => { x with owed := x.owed + by'.toNat }

/-- The copies become active; a sync master marks its pulse (R454). -/
def State.swCopy (s : State) : State :=
  (forEach (fun g z => z.copyOut g) 3 (s.setReg Reg.OUT_SW_FREQA (s.reg Reg.OUT_SW_FREQ))).modClk fun c =>
    { c with marked := s.rd F.OUT_SW_STAT_SYNCMODE = 1 }

/-- The ramp, the step or the immediate change that a transfer is (R441, R451). -/
def State.swApply (s : State) (d : SwDiff) : State :=
  let ms := min 1000 (s.rd F.OUT_SW_CTRL_RTIME)
  let delta := if d.f0 ≤ d.f1 then d.f1 - d.f0 else d.f0 - d.f1
  let s1 := s.swCopy
  if d.f0 ≠ d.f1 ∧ d.act = false ∧ d.div = 0 ∧ ms ≠ 0 then s1.rampStart d.f1 ms (s.rd F.OUT_SW_CTRL_PROFILE)
  else if d.f0 ≠ d.f1 ∧ s.on F.OUT_SW_CTRL_COASTTHRU ∧ d.act = false ∧ delta * 100 ≤ d.f0 then
    (s1.modClk fun c => { c with ramp := some ⟨d.f0, d.f1, 0, [0x8000], 0, true, true⟩ }).set1 F.OUT_SW_STAT_RAMP
  else if d.f0 ≠ d.f1 then
    (s1.setReg Reg.OUT_SW_FREQI (w32 d.f1)).gateStart (maskOf 3 s1.swEn) true
  else if (d.act ∨ ms = 0) ∧ (maskOf 3 fun g => s1.swEn g && inMask (d.div ||| d.en) g) ≠ 0 then
    s1.gateStart (maskOf 3 fun g => s1.swEn g && inMask (d.div ||| d.en) g) false
  else s1.moveEnd

/-- The shadow set is transferred, or discarded; `rerun` is what follows a change of an EN or a DIV (R440, R441, R462). -/
def State.swTransfer (s : State) (rerun : State → State) : State :=
  let s0 := s.clr F.OUT_SW_CTRL_UPDATE
  if s.swDiscards then (s0.set1 F.OUT_SW_STAT_XFERERR).moveDrop stsDenied 2
  else
    let d := s.swDiff
    let s1 := s0.modClk fun c => { c with due := false }
    let s2 := if s.clk.due ∧ s.clk.placing then
        s1.raisePlacement 1 s.clk.confWas (s.confAt s.swShadow s.shadowDiv) s.swShadow
      else s1
    let s3 := (s2.swApply d).showSw.outShow
    if d.div ≠ 0 ∨ d.en ≠ 0 then rerun s3 else s3

/-! Power of SWPLL (R442). -/

/-- SWPLL starts with its last transferred settings and locks; its outputs restart together (R437). -/
def State.swStart (s : State) : State :=
  (((((s.alignOuts 0).modClk fun c => { c with winSum := 0, winTicks := 0 }).setReg Reg.OUT_SW_FREQI (s.reg Reg.OUT_SW_FREQA)).set1 F.OUT_SW_STAT_SWON).set1 F.OUT_SW_STAT_LOCK).showSw.outShow

/-- SWPLL powers down: a ramp under way is abandoned, and a pending SWPLL_SET or TUNED_FREQ ends with ST_STATE_BUSY. -/
def State.swStop (s : State) : State :=
  let s1 := (((s.clr F.OUT_SW_STAT_SWON).clr F.OUT_SW_STAT_LOCK).clr F.OUT_SW_STAT_COAST).wr F.OUT_SW_STAT_GATE 0
  ((s1.modClk fun c => { c with stepping := false, gateLeft := 0 }).moveDrop stsStateBusy 0).outShow

end Sys2Proof.Machine
end

