-- ==== Sys2Proof/Machine/Placement.lean ====
section
/-!
DEFINITION. Chameleon placement (spec/09_clocks.md, R461 to R464), in exact numbers: frequencies stand in units of
1 / (840 000 * 2^24) Hz, in which every end of every interval is whole.
-/

namespace Sys2Proof.Machine

/-- The unit of the numbers of this file, per Hz. -/
def plUnit : Nat := 840000 * 2 ^ 24

/-- An open interval that a group's carrier must stay out of: the group, its widened ends, and its ends unwidened (R463). -/
structure Forbidden where
  g   : Nat
  lo  : Nat
  hi  : Nat
  lo0 : Nat
  hi0 : Nat

/-- A possible target: its place, and whether its word is rounded up, away from the boundary that it stands on (R464). -/
structure Candidate where
  at' : Nat
  up  : Bool

/-- f_VCO of a frequency word. -/
def State.plOf (s : State) (w : Nat) : Nat := s.refHz * w * 840000

/-- The groups that take part (R461). -/
def State.placed (s : State) : List Nat :=
  indices 3 fun g => s.swEn g && inMask s.clk.offered g && !inMask s.pinnedHeld g

/-- Whether f_VCO is fixed for placement (R461). -/
def State.vcoFixed (s : State) : Bool := (List.range 3).any fun g => s.swEn g && inMask s.pinnedHeld g

/-- S of R463: the ranges of the placed groups met, each end moved 0.1 % inward. -/
def State.allowed (s : State) : Nat × Nat :=
  s.placed.foldl (fun i g =>
    (max i.1 (8 * s.swDiv g * s.fswLow g * 1001 * 840 * 2 ^ 24), min i.2 (8 * s.swDiv g * s.fswHigh g * 999 * 840 * 2 ^ 24)))
    (800000000 * 1001 * 840 * 2 ^ 24, 1600000000 * 999 * 840 * 2 ^ 24)

/-- F of R463. -/
def State.forbidden (s : State) : List Forbidden :=
  s.placed.flatMap fun g => (List.range 8).map fun k =>
    let a := 8 * s.swDiv g * (840 / (k + 1)) * 2 ^ 24
    let lo := a * (s.ftHz - s.guardHz)
    let hi := a * (s.ftHz + s.guardHz)
    ⟨g, lo * 999, hi * 1001, lo * 1000, hi * 1000⟩

/-- Whether a place lies inside one of the forbidden intervals. -/
def inside (fs : List Forbidden) (x : Nat) : Bool := fs.any fun f => decide (f.lo < x ∧ x < f.hi)

/-- Whether the way from `x` to `y` enters the forbidden interval of a group that is clear at `x`; one that starts in the margin
enters only past it (R463, R465). -/
def entersClear (clear : Nat → Bool) (fs : List Forbidden) (x y : Nat) : Bool :=
  fs.any fun f => clear f.g &&
    (if f.lo < x ∧ x < f.hi then decide (min x y < f.hi0 ∧ f.lo0 < max x y) else decide (min x y < f.hi ∧ f.lo < max x y))

/-- The ends of the allowed set, and f0 where it lies in it (R463). -/
def State.candidates (s : State) (fs : List Forbidden) (f0 : Nat) : List Candidate :=
  let (lo, hi) := s.allowed
  let ends := [⟨lo, true⟩, ⟨hi, false⟩] ++ fs.flatMap fun f => [(⟨f.lo, false⟩ : Candidate), ⟨f.hi, true⟩]
  (ends ++ [⟨f0, true⟩]).filter fun c => decide (lo ≤ c.at' ∧ c.at' ≤ hi) && !inside fs c.at'

/-- The nearer of two candidates, the lower at a tie (R463). -/
def nearer (f0 : Nat) (a b : Candidate) : Candidate :=
  let da := if a.at' < f0 then f0 - a.at' else a.at' - f0
  let db := if b.at' < f0 then f0 - b.at' else b.at' - f0
  if db < da ∨ (db = da ∧ b.at' < a.at') then b else a

/-- The frequency word of a candidate (R464). -/
def State.candidateWord (s : State) (c : Candidate) : Nat :=
  let d := s.refHz * 840000
  if c.up then (c.at' + d - 1) / d else c.at' / d

/-- Whether a divider puts a group in its range and clear by 0.1 % (R463). -/
def State.divClear (s : State) (fs : List Forbidden) (g f0 div : Nat) : Bool :=
  decide (8 * div * s.fswLow g * plUnit ≤ f0 ∧ f0 ≤ 8 * div * s.fswHigh g * plUnit) &&
    !(fs.any fun f => f.g = g && decide (f.lo * div < f0 * s.swDiv g ∧ f0 * s.swDiv g < f.hi * div))

/-- The nearer of two dividers in fsw, the lower fsw at a tie (R463). -/
def nearerDiv (d0 a b : Nat) : Nat :=
  let da := if a < d0 then d0 - a else a - d0
  let db := if b < d0 then d0 - b else b - d0
  if db * a < da * b ∨ (db * a = da * b ∧ a < b) then b else a

/-- div_nearest_fsw of R463. -/
def State.divSearch (s : State) (fs : List Forbidden) (g f0 : Nat) : Option Nat :=
  match (List.range 509).filter (fun k => s.divClear fs g f0 (k + 4)) with
  | [] => none
  | k :: ks => some (ks.foldl (fun a k => nearerDiv (s.swDiv g) a (k + 4)) (k + 4))

/-- What placement finds: RESULT of TUNED_FREQ, the target word and dividers, whether a conflicted group is left. -/
structure Plan where
  result : Nat
  w      : Nat
  divs   : List Nat
  left   : Bool

/-- The placed groups in conflict. -/
def State.placedConf (s : State) : List Nat := s.placed.filter fun g => s.conflicts s.swNow (s.swDiv g)

/-- The divider search for the conflicted groups (R463). -/
def State.planDivs (s : State) (fs : List Forbidden) : Plan :=
  let f0 := s.plOf s.swNow
  let found (g : Nat) : Option Nat :=
    if s.placedConf.contains g ∧ (¬ s.groupActive g ∨ s.on F.OUT_SW_PLACE_ALLOWSTEP) then s.divSearch fs g f0 else none
  let divs := (List.range 3).map fun g => (found g).getD (s.swDiv g)
  let left := s.placedConf.any fun g => (found g).isNone
  ⟨if (List.range 3).any (fun g => (found g).isSome) then 2 else if left then 3 else 0, s.swNow, divs, left⟩

/-- The procedure of R463. -/
def State.plan (s : State) : Plan :=
  let fs := s.forbidden
  let f0 := s.plOf s.swNow
  let keep := (s.candidates fs f0).filter fun c => !entersClear (fun g => !s.placedConf.contains g) fs f0 c.at'
  if s.vcoFixed ∨ ¬ s.placedConf.any s.groupActive then s.planDivs fs
  else
    match keep with
    | [] => s.planDivs fs
    | c :: cs =>
      let w := s.candidateWord (cs.foldl (nearer f0) c)
      if w = s.swNow then s.planDivs fs else ⟨1, w, (List.range 3).map s.swDiv, false⟩

/-- Whether placement runs (R462; R671). -/
def State.placementRuns (s : State) : Bool :=
  s.on F.OUT_SW_PLACE_ENABLE && s.ftHz ≠ 0 && !s.on F.SAFE_SM_STAT_FALLBACK

/-- A plan is carried out (R463, R464, R467). -/
def State.placeBy (s : State) (p : Plan) : State :=
  let s1 := if p.left then
      (s.set1 F.OUT_SW_STAT_NOSOLN).raisePlacement 3 (s.confAt s.swNow s.swDiv) (s.confAt s.swNow s.swDiv) s.swNow
    else s
  if p.result = 1 ∨ p.result = 2 then
    s1.moveStart ⟨p.w, p.divs, max 1 (s.rd F.OUT_SW_PRTIME_RTIME), s.rd F.OUT_SW_PLACE_PROFILE, s.on F.OUT_SW_CTRL_COASTTHRU⟩ true
  else s1

/-- Placement runs, where it may (R462). -/
def State.placementRun (s : State) : State := if s.placementRuns then s.placeBy s.plan else s

end Sys2Proof.Machine
end

