-- ==== Sys2Proof/Machine/Clocks.lean ====
section
/-!
DEFINITION. The reference, the three PLLs, SWPLL moves, SYNC and placement as commands and events (spec/09_clocks.md).
-/

namespace Sys2Proof.Machine

/-! PLLs: 0 SYSPLL, 1 AUDPLL, 2 SWPLL (R426 to R434). -/

def lockField (p : Nat) : Field := if p = 0 then F.CTL_CLK_STAT_SYSLOCK else if p = 1 then F.CTL_CLK_STAT_AUDLOCK else F.OUT_SW_STAT_LOCK
def coastField (p : Nat) : Field := if p = 0 then F.CTL_CLK_STAT_SYSCOAST else if p = 1 then F.CTL_CLK_STAT_AUDCOAST else F.OUT_SW_STAT_COAST
def lostField (p : Nat) : Field := if p = 0 then F.CTL_CLK_STAT_SYSLL else if p = 1 then F.CTL_CLK_STAT_AUDLL else F.OUT_SW_STAT_LOSTLOCK

/-- Whether a PLL runs, SYSPLL in LISTEN while the SYS clock does (R426, R442). -/
def State.pllRuns (s : State) (p : Nat) : Bool :=
  if p = 0 then decide (stIdle ≤ s.pstate) || (s.pstate = stListen && (s.on F.CTL_CLK_STAT_SYSLOCK || s.on F.CTL_CLK_STAT_SYSCOAST)) else if p = 1 then decide (stListen ≤ s.pstate) else s.on F.OUT_SW_STAT_SWON

/-- A PLL coasts; a locked one has lost lock (R428, R430, R433). -/
def State.pllCoast (s : State) (p : Nat) : State :=
  let s1 := s.modClk fun c => { c with bad := vmod c.bad p fun _ => 0, since := vmod c.since p fun _ => s.now }
  let s2 := if s1.on (lockField p) then ((s1.clr (lockField p)).set1 (lostField p)).raisePll 1 p 0 else s1
  (s2.set1 (coastField p)).raisePll 2 p 0

/-- The fault code and region of a PLL that does not lock again (R434). -/
def pllFault (p : Nat) : FaultInfo :=
  ⟨0x502 + p, if p = 1 then 2 else 0, if p = 2 then rgOut else rgCtl, 4, 0, p, 0, false, true⟩

/-- PLL_CFG ends once every PLL that it changed has locked (R468). -/
def State.pllPoll (s : State) : State :=
  s.finishAll (fun e => e.opcode = 0x500 && (!e.targets.contains .pll || s.on F.CTL_CLK_STAT_AUDLOCK)
    && (!e.targets.contains .swpll || !s.on F.OUT_SW_STAT_SWON || s.on F.OUT_SW_STAT_LOCK)) stsOk 0

/-- A PLL locks: a coast ends with EVT_PLL, a gated step ends (R429, R433, R451). -/
def State.pllLock (s : State) (p : Nat) : State :=
  let s1 := (s.modClk fun c => { c with bad := vmod c.bad p fun _ => 0 }).set1 (lockField p)
  let s2 := if s1.on (coastField p) then (s1.clr (coastField p)).raisePll 3 p (s.now - vat s.clk.since p) else s1
  let s3 := s2.faultGone (0x502 + p) 0 p
  (if p = 2 ∧ s3.clk.stepping then s3.gateEnd else s3).pllPoll

/-- 16 windows have passed without lock after a gated step (R452). -/
def State.stepFails (s : State) : State :=
  let gated := s.rd F.OUT_SW_STAT_GATE
  let s1 := forEach (fun n s =>
    if inMask gated (n / 4) ∧ s.phase n ≠ phOff ∧ s.phase n ≠ phSlave ∧ ¬ held (s.phase n) then s.faultHold n 0x504 else s) 12 s
  ((s1.modClk fun c => { c with stepping := false }).toChip (pllFault 2))

/-- What the end of an SWPLL window means for a step under way (R451, R452). -/
def State.stepWindow (s : State) (agree : Bool) : State :=
  if s.clk.stepping then
    if 15 ≤ s.clk.steps then s.stepFails else s.modClk fun c => { c with steps := c.steps + 1 }
  else
    let s1 := if s.clk.gateLeft = 1 then s.gateEnd else s.modClk fun c => { c with gateLeft := c.gateLeft - 1 }
    if agree ∧ s1.clk.settling then s1.moveEnd else s1

/-- The feedback ratio that a PLL's count is held to, as a frequency word over a number: for SWPLL the mean of the ramp generator's value over
the window (R424, R427). -/
def State.pllRatio (s : State) (p : Nat) : Nat × Nat :=
  if p = 0 then ((s.reg Reg.CTL_SYSPLL_CFG).toNat, 1)
  else if p = 1 then ((s.reg Reg.CTL_AUDPLL_CFG).toNat, 1)
  else if s.clk.winTicks = 0 then (s.swNow, 1)
  else (s.clk.winSum, s.clk.winTicks)

/-- The reference cycles of a window (R427). -/
def State.pllCycles (s : State) : Nat := if s.rd F.CTL_CLK_STAT_REFFAM = 0 then 1572 else 1445

/-- Whether the VCO cycles counted over a window agree within 0.05 % with those expected (R427). -/
def State.pllAgrees (s : State) (p count : Nat) : Bool :=
  let r := s.pllRatio p
  let want := s.pllCycles * r.1
  let got := count * 2 ^ 24 * r.2
  decide (2000 * (max got want - min got want) ≤ want)

/-- PLL_WINDOW (R427 to R429, R451, R452): the VCO cycles of a window that ends. -/
def execPllWindow (pll : Fin 3) (count : Nat) (s0 : State) : Host.Outcome State Fault Refusal :=
  let p := pll.val
  let agree := s0.pllAgrees p count
  let s := if p = 2 then s0.modClk fun c => { c with winSum := 0, winTicks := 0 } else s0
  if ¬ (s.pllRuns p ∧ s.on F.CTL_CLK_STAT_REFOK) then .next s
  else
    let s1 := if ¬ s.on (lockField p) ∧ agree then s.pllLock p else s
    let s2 := if p = 2 ∧ (s.clk.stepping → s1.clk.stepping) then s1.stepWindow agree else s1
    if ¬ s.on (lockField p) then .next s2
    else if agree then .next (s2.modClk fun c => { c with bad := vmod c.bad p fun _ => 0 })
    else if vat s.clk.bad p = 0 then .next (s2.modClk fun c => { c with bad := vmod c.bad p fun _ => 1 })
    else .next (s2.pllCoast p)

/-- PLL_COAST_EXPIRE (R431, R434). -/
def execPllCoastExpire (pll : Fin 3) (s : State) : Host.Outcome State Fault Refusal :=
  let p := pll.val
  if s.on (coastField p) then
    .next (s.toChip (if s.on F.CTL_CLK_STAT_REFOK then pllFault p else ⟨0x501, 0, rgCtl, 4, 0, 3, 0, false, true⟩))
  else .next s

/-- REF_LOST (R430, R432). -/
def execRefLost (s : State) : Host.Outcome State Fault Refusal :=
  if s.on F.CTL_CLK_STAT_REFOK then
    let s1 := (((s.modClk fun c => { c with refAt := s.now }).clr F.CTL_CLK_STAT_REFOK).set1 F.CTL_CLK_STAT_REFLOST).raisePll 8 3 0
    .next (forEach (fun p s => if s.pllRuns p ∧ ¬ s.on (coastField p) then s.pllCoast p else s) 3 s1)
  else .next s

/-- REF_RETURN (R429, R433). -/
def execRefReturn (s : State) : Host.Outcome State Fault Refusal :=
  if s.on F.CTL_CLK_STAT_REFOK then .next s
  else .next (((s.set1 F.CTL_CLK_STAT_REFOK).raisePll 9 3 (s.now - s.clk.refAt)).faultGone 0x501 0 3)

/-- AON_XT32_SWITCH (R423). -/
def execAonXt32Switch (s : State) : Host.Outcome State Fault Refusal := .next (s.set1 F.CTL_CLK_STAT_AONSRC)

/-- AONFAIL (R423). -/
def execAonfail (s : State) : Host.Outcome State Fault Refusal :=
  .next (if s.on F.CTL_CLK_STAT_AONSRC then (s.clr F.CTL_CLK_STAT_AONSRC).set1 F.CTL_CLK_STAT_AONFAIL else s)

/-! SWPLL events. -/

/-- Whether a regrow in a group whose output changes has yet to end Settle (R440). -/
def State.regrowWaits (s : State) : Bool :=
  (List.range 3).any fun g => (s.grp g).seq.isSome && s.reg (Reg.OUT_SW_OUT g) ≠ s.reg (Reg.OUT_SW_OUTA g)

/-- SWPLL_TRANSFER (R439 to R441, R451, R462): a sync slave waits for its marked pulse (R456). -/
def execSwpllTransfer (s : State) : Host.Outcome State Fault Refusal :=
  if s.on F.OUT_SW_CTRL_UPDATE ∧ s.on F.OUT_SW_STAT_SWON ∧ s.clk.ramp.isNone ∧ ¬ s.regrowWaits ∧ s.rd F.OUT_SW_STAT_SYNCMODE ≠ 2 then
    .next (s.swTransfer State.placementRun)
  else .next s

/-- RAMP_END (R443, R446, R451, R467, R469): the generator has come to its target as near as its slope limit takes it in a tick. -/
def execRampEnd (s : State) : Host.Outcome State Fault Refusal :=
  match s.clk.ramp with
  | none => .next s
  | some r =>
    if s.on F.OUT_SW_STAT_COAST ∨ slopeMax s.swNow 1 < max r.f1 s.swNow - min r.f1 s.swNow then .next s
    else
      let s1 := s.setReg Reg.OUT_SW_FREQI (w32 r.f1)
      if r.coast then .next ((s1.modClk fun c => { c with ramp := none, settling := true }).clr F.OUT_SW_STAT_RAMP).showSw
      else .next s1.moveEnd

/-- A sync error (R433, R455, R456, R473). -/
def State.syncErr (s : State) : State := (s.set1 F.OUT_SW_STAT_SYNCERR).raisePll 6 2 0

/-- SYNC_IN_EDGE (R455, R456): the error against the expected period start in VCO cycles, and whether the pulse is marked. -/
def execSyncInEdge (err : Nat) (marked : Bool) (s : State) : Host.Outcome State Fault Refusal :=
  if s.rd F.OUT_SW_STAT_SYNCMODE ≠ 2 ∨ ¬ s.on F.OUT_SW_STAT_SWON then .next s
  else
    let s1 :=
      if s.clk.syncArmed then
        (((s.alignOuts (6 - (s.swDelay 0 : Int))).modClk fun c => { c with syncArmed := false, syncWait := false, syncBad := 0 }).set1
          F.OUT_SW_STAT_ALIGNED).raisePll 7 2 0
      else if s.on F.OUT_SW_STAT_ALIGNED then
        if err ≤ 16 then s.modClk fun c => { c with syncBad := 0 }
        else if 3 ≤ s.clk.syncBad then (s.clr F.OUT_SW_STAT_ALIGNED).syncErr
        else s.modClk fun c => { c with syncBad := c.syncBad + 1 }
      else s
    if marked ∧ s1.on F.OUT_SW_CTRL_UPDATE ∧ s1.clk.ramp.isNone ∧ ¬ s1.regrowWaits then .next (s1.swTransfer State.placementRun)
    else .next s1

/-- SYNC_TIMEOUT (R456). -/
def execSyncTimeout (s : State) : Host.Outcome State Fault Refusal :=
  if s.rd F.OUT_SW_STAT_SYNCMODE = 2 ∧ s.on F.OUT_SW_CTRL_UPDATE ∧ s.on F.OUT_SW_STAT_SWON ∧ s.clk.ramp.isNone ∧ ¬ s.regrowWaits then
    .next (s.syncErr.swTransfer State.placementRun)
  else .next s

/-- SYNC_IN_TIMEOUT (R473). -/
def execSyncInTimeout (s : State) : Host.Outcome State Fault Refusal :=
  if s.rd F.OUT_SW_STAT_SYNCMODE = 2 ∧ s.clk.syncWait then .next (s.modClk fun c => { c with syncWait := false }).syncErr
  else .next s

/-! Commands. -/

/-- A packed divider field; 0 keeps the present divider. -/
def State.packedDiv (s : State) (w g : Nat) : Nat :=
  let d := w / 2 ^ (9 * g) % 512
  if d = 0 then s.swDiv g else divTaken d

/-- f_VCO within 800 MHz to 1600 MHz (R435). -/
def State.vcoOk (s : State) (w : Nat) : Bool := decide (800000000 * 2 ^ 24 ≤ s.refHz * w ∧ s.refHz * w ≤ 1600000000 * 2 ^ 24)

/-- The feedback ratio of AUDPLL (R424). -/
def audRatio (ref fam : Nat) : Nat :=
  let vco := if fam = 0 then 786432000 else 722534400
  (2 * vco * 2 ^ 24 + ref) / (2 * ref)

/-- Whether the CV, headphone, line and speaker outputs are all off (R468). -/
def State.outputsOff (s : State) : Bool :=
  (List.range 12).all (fun n => s.phase n = phOff || s.phase n = phSlave) && s.hoPhase 0 = hoOff && s.hoPhase 1 = hoOff
    && (List.range 4).all fun n => s.cvMode n = 0

def cardPllCfg : CmdSpec := ⟨0x500, 4, 4, false, true, false, false, false, false, true⟩

/-- AUDPLL takes a family. -/
def State.setAudFam (s : State) (fam : Nat) : State :=
  let s1 := (((s.wr F.CTL_CLK_STAT_AUDFAM fam).setReg Reg.CTL_AUDPLL_CFG (w32 (audRatio s.refHz fam))).clr F.CTL_CLK_STAT_AUDLOCK).clr
    F.CTL_CLK_STAT_AUDCOAST
  (s1.showBdiv 0).showBdiv 1

/-- SWPLL takes a frequency, dividers and power at once, every speaker channel being Off. -/
def State.setSw (s : State) (w : Nat) (div : Nat → Nat) (on : Bool) : State :=
  let relock := w ≠ s.swNow ∨ (on ∧ ¬ s.on F.OUT_SW_STAT_SWON) ∨ ¬ on
  let s1 := ((s.modClk fun c => { c with ramp := none, settling := false }).clr F.OUT_SW_STAT_RAMP).putReg Reg.OUT_SW_FREQ (w32 w)
  let s2 := (s1.setReg Reg.OUT_SW_FREQA (w32 w)).setReg Reg.OUT_SW_FREQI (w32 w)
  let s3 := forEach (fun g s => (s.putReg (Reg.OUT_SW_OUT g) (putBits (s.reg (Reg.OUT_SW_OUT g)) 0 9 (div g))).wr
    (F.OUT_SW_OUTA_DIV g) (div g)) 3 s2
  let s4 := (if on ∧ ¬ s.on F.OUT_SW_STAT_SWON then s3.alignOuts 0 else s3).wr F.OUT_SW_STAT_SWON (b2n on)
  (if relock then (s4.clr F.OUT_SW_STAT_LOCK).clr F.OUT_SW_STAT_COAST else s4).showSw.outShow

/-- PLL_CFG (R425, R468). -/
def execPllCfg (p : Packet) (s : State) : Host.Outcome State Fault Refusal :=
  .next (s.take cardPllCfg p (fun s =>
    let ws := p.payload
    let fam := pf ws 0 0 1
    let w := if pw ws 1 = 0 then s.swTarget else (pw ws 1).toNat
    let div := s.packedDiv (pw ws 2).toNat
    let on := pb ws 3 0
    let aud := fam ≠ s.rd F.CTL_CLK_STAT_AUDFAM
    let sw := w ≠ s.swTarget ∨ (List.range 3).any (fun g => div g ≠ s.swDiv g) ∨ on ≠ s.on F.OUT_SW_STAT_SWON
    if s.vcoOk w = false then .bad 1
    else if aud ∧ (s.graph.image.isSome ∨ s.graph.loading.isSome ∨ s.strs ≠ [] ∨ (List.range 4).any s.portEn
        ∨ s.on F.IN_WKD_CFG_EN ∨ s.outputsOff = false) then .refuse stsDenied 2
    else if sw ∧ (s.on F.SAFE_SM_STAT_FALLBACK ∨ (List.range 3).any s.groupActive) then .refuse stsDenied 2
    else s.unlessBusy [.pll, .swpll] <|
      if ¬ aud ∧ ¬ sw then .ok s
      else
        let s1 := if aud then s.setAudFam fam else s
        let s2 := if sw then s1.setSw w div on else s1
        .pend [] ((if aud then [.pll] else []) ++ (if sw then [.swpll] else [])) s2) State.pllPoll)

def cardSwpllSet : CmdSpec := ⟨0x501, 3, 3, false, true, true, false, false, false, true⟩

/-- SWPLL_SET (R440, R448, R449, R466, R469; R671; spec/01_architecture.md, R57). -/
def execSwpllSet (p : Packet) (s : State) : Host.Outcome State Fault Refusal :=
  s.card cardSwpllSet p fun s =>
    let ws := p.payload
    let w := if pw ws 0 = 0 then s.swTarget else (pw ws 0).toNat
    let div := s.packedDiv (pw ws 1).toNat
    let ms := pf ws 2 16 16
    let release := pb ws 2 2
    if release = false ∧ s.vcoOk w = false then .refuse stsBadParam 1
    else if release = false ∧ ((List.range 3).any (fun g => s.swEn g && !s.inRange g w (div g))
        ∨ (ms ≠ 0 ∧ (List.range 3).any fun g => div g ≠ s.swDiv g)) then .refuse stsBadParam 2
    else if release = false ∧ 1000 < ms then .refuse stsBadParam 3
    else if s.on F.SAFE_SM_STAT_FALLBACK then .refuse stsDenied 2
    else
      match s.pendOp? 0x500 with
      | some e => busyWith e
      | none =>
        if release then .ok ((s.modClk fun c => { c with holds := 0 }).showSw.placementRun)
        else
          let moved := if s.clk.placing then maskOf 3 s.swEn else 0
          let s1 := (s.modClk fun c => { c with holds := c.holds ||| pf ws 2 4 3 ||| moved }).showSw
          .pend [] [.swpll] (s1.moveStart ⟨w, (List.range 3).map div, ms, pf ws 2 8 2, pb ws 2 1⟩ false)

def cardRampLoad : CmdSpec := ⟨0x502, 2, 18, false, true, true, false, false, false, true⟩

/-- The first point that decreases, or that ends the profile off 0x8000 (R470). -/
def rampBad (last : Nat) (i : Nat) : List Nat → Option Nat
  | [] => none
  | p :: rest => if p < last ∨ (rest = [] ∧ p ≠ 0x8000) then some i else rampBad p (i + 1) rest

/-- RAMP_LOAD (R444, R445, R470). -/
def execRampLoad (p : Packet) (s : State) : Host.Outcome State Fault Refusal :=
  s.card cardRampLoad p fun s =>
    let ws := p.payload
    let slot := pf ws 0 0 2
    let n := pf ws 1 0 6
    let pts := (List.range n).map fun i => pf ws (2 + i / 2) (16 * (i % 2)) 16
    if slot < 2 then .bad 0
    else if n < 2 ∨ 32 < n ∨ n % 2 = 1 then .bad 1
    else if ws.length ≠ 2 + n / 2 then .refuse stsBadParam 0
    else
      match rampBad 0 0 pts with
      | some i => .bad (2 + i / 2)
      | none => .ok (s.modClk fun c => if slot = 2 then { c with slot2 := pts } else { c with slot3 := pts })

def cardTunedFreq : CmdSpec := ⟨0x510, 2, 2, false, true, true, true, false, false, true⟩

/-- Whether ft is in the band table (R458). -/
def inBand (ft : Nat) : Bool := decide ((297 ≤ ft ∧ ft ≤ 567) ∨ (1040 ≤ ft ∧ ft ≤ 3420))

/-- Packed dividers. -/
def packDivs (ds : List Nat) : Nat := ds.getD 0 0 % 512 + ds.getD 1 0 % 512 * 2 ^ 9 + ds.getD 2 0 % 512 * 2 ^ 18

/-- TUNED_FREQ (R458, R462 to R467, R471). -/
def execTunedFreq (p : Packet) (s : State) : Host.Outcome State Fault Refusal :=
  s.card cardTunedFreq p fun s =>
    let ws := p.payload
    let none? := pb ws 0 31
    let ft := pf ws 0 0 16
    if none? = false ∧ inBand ft = false then .bad 0
    else
      match s.pendOp? 0x500 with
      | some e => busyWith e
      | none =>
        let s1 := ((s.modClk fun c => { c with holds := 0, offered := pf ws 1 0 3 }).wr F.OUT_SW_PLACE_FT (if none? then 0 else ft)).showSw
        let q : Plan := if s1.placementRuns then s1.plan else ⟨4, s1.swTarget, (List.range 3).map s1.swDiv, false⟩
        let after := s1.confAt q.w fun g => divTaken (q.divs.getD g 0)
        let words := [w32 (q.result * 2 ^ 28 + s1.rd F.OUT_SW_STAT_CONF * 2 ^ 24 + after * 2 ^ 20 + s1.pinnedHeld * 2 ^ 16), w32 q.w,
          w32 (packDivs q.divs)]
        if q.result = 1 ∨ q.result = 2 then .pend words [.swpll, .placement] (s1.placeBy q)
        else .done stsOk 0 words [] (s1.placeBy q)

def cardChameleonCfg : CmdSpec := ⟨0x511, 2, 2, false, true, true, false, false, false, true⟩

/-- CHAMELEON_CFG (R462, R472). -/
def execChameleonCfg (p : Packet) (s : State) : Host.Outcome State Fault Refusal :=
  s.card cardChameleonCfg p fun s =>
    let ws := p.payload
    let guard := pf ws 0 8 8
    let rt := pf ws 1 0 16
    if guard < 9 ∨ 50 < guard then .bad 0
    else if rt = 0 ∨ 1000 < rt then .bad 1
    else
      let s1 := (((s.wr F.OUT_SW_PLACE_GUARD guard).wr F.OUT_SW_PLACE_PROFILE (pf ws 0 4 2)).wr F.OUT_SW_PLACE_ALLOWSTEP
        (pf ws 0 1 1)).wr F.OUT_SW_PLACE_ENABLE (pf ws 0 0 1)
      .ok ((s1.wr F.OUT_SW_PRTIME_RTIME rt).showSw.placementRun)

def cardSyncCfg : CmdSpec := ⟨0x520, 1, 1, false, true, false, false, false, false, true⟩

/-- SYNC_CFG (R455, R457, R473). -/
def execSyncCfg (p : Packet) (s : State) : Host.Outcome State Fault Refusal :=
  s.card cardSyncCfg p fun s =>
    let mode := pf p.payload 0 0 2
    if mode = 3 then .bad 0
    else if (List.range 3).any s.groupActive then .refuse stsDenied 2
    else
      let slave := mode == 2
      let s1 := (s.wr F.OUT_SW_STAT_SYNCMODE mode).clr F.OUT_SW_STAT_ALIGNED
      .ok ((s1.modClk fun c => { c with syncArmed := slave, syncWait := slave, syncBad := 0 }).releasePads 4)

/-- UPDATE of OUT_SW_CTRL lands (R440; spec/15_safety.md, R671, R672). -/
def State.swUpdate (s : State) : State :=
  let s1 := s.cfgLeave swReg
  if s1.on F.SAFE_SM_STAT_FALLBACK ∨ s1.swBlocked then s1.set1 F.OUT_SW_STAT_XFERERR else s1.set1 F.OUT_SW_CTRL_UPDATE

end Sys2Proof.Machine
end

