-- ==== Sys2Proof/Machine/Croaker.lean ====
section
/-!
DEFINITION. The croaker's commands, ALERT pins and slots (spec/08_speaker_channels.md, R407 to R410, R419, R420;
spec/15_safety.md, R664, R685).
-/

namespace Sys2Proof.Machine

/-- Bytes of croaker RAM that a slot takes (R419). -/
def CrkSlot.bytes (c : CrkSlot) : Nat := if c.kind = 2 then 256 * c.len else 0

/-- Bytes of croaker RAM that the slots other than `k` take. -/
def State.crkBytes (s : State) (k : Nat) : Nat :=
  (List.range 8).foldl (fun m i => if i = k then m else m + (s.slot i).bytes) 0

/-- The slot that a CROAKER_CFG payload describes, its LEVEL raised to CRKMIN (R410). -/
def crkSlotOf (ws : List Word) (least : Nat) (data : List Word) : CrkSlot :=
  let kind := pf ws 0 0 2
  { kind := kind, mask := pf ws 0 20 12, freq := if kind = 1 then pf ws 1 16 16 else 0, wave := if kind = 1 then pf ws 1 0 2 else 0,
    onMs := if kind = 1 then pf ws 2 16 16 else 0, offMs := if kind = 1 then pf ws 2 0 16 else 0,
    loop := kind = 2 && pb ws 2 16, len := if kind = 2 then pf ws 2 0 16 else 0, data := data, level := max least (pf ws 3 24 8),
    duck := pf ws 3 16 6, auto := pb ws 3 12, map := pf ws 3 8 4, pass := pb ws 3 0, active := false, left := 0,
    forever := false, want := false, again := false, mark := 0 }

def cardCroakerCfg : CmdSpec := ⟨0x330, 4, 4, false, true, true, false, true, false, true⟩

/-- CROAKER_CFG (R410, R419). A poisoned word of the data is discarded (spec/01_architecture.md, R19). DESIGN CHOICE (log entry 99): the slot holds 0
in its place, a sample that is absent. -/
def execCroakerCfg (p : Packet) (s : State) : Host.Outcome State Fault Refusal :=
  s.card cardCroakerCfg p fun s =>
    let ws := p.payload
    let k := pf ws 0 8 3
    let kind := pf ws 0 0 2
    let ofs := pf ws 1 0 21
    let n := if kind = 2 then 256 * pf ws 2 0 16 else 0
    let least := s.rd F.OUT_SPK_FUSE_CRKMIN
    if kind = 3 then .bad 0
    else if kind = 1 ∧ (pf ws 1 16 16 < 100 ∨ 8000 < pf ws 1 16 16 ∨ pf ws 1 0 2 = 3) then .bad 1
    else if kind = 2 ∧ n = 0 then .bad 2
    else if kind = 2 ∧ ¬ s.spanOn ofs n then .bad 1
    else if s.on F.OUT_CRK_STAT_LOCKED then .refuse stsDenied 4
    else if (s.slot k).active then .refuse stsBusy 0
    else s.unlessBusy [.croaker k] <|
      if 65536 < s.crkBytes k + n then .refuse stsNoResource 0
      else
        let s1 := (s.poisonIn ofs n).foldl State.deliverPoison s
        let s2 := s1.modSlot k fun _ => crkSlotOf ws least (if kind = 2 then
          (List.range (n / 4)).map fun j => if s.poison.contains (0x800000 + ofs + 4 * j) then 0 else s.word (0x800000 + ofs + 4 * j) else [])
        .clampedOk [] (if pf ws 3 24 8 < least then [⟨k, 4, 24, least⟩] else []) s2.alertEval

def cardCroakerPlay : CmdSpec := ⟨0x331, 1, 1, false, true, true, true, false, false, false⟩

/-- CROAKER_PLAY (R408, R420). -/
def execCroakerPlay (p : Packet) (s : State) : Host.Outcome State Fault Refusal :=
  s.card cardCroakerPlay p fun s =>
    let ws := p.payload
    let k := pf ws 0 8 3
    let rep := pf ws 0 24 8
    if (s.slot k).kind = 0 then .bad 0
    else if pb ws 0 16 then .ok (s.modSlot k fun c => { c with left := 0, forever := false })
    else
      let s1 := if (s.slot k).active then s else s.slotStart k false
      .ok (s1.modSlot k fun c => { c with left := rep, forever := rep = 0 })

/-- ALERT_RISE (R408, R409; spec/15_safety.md, R685). -/
def execAlertRise (pin : Fin 4) (s : State) : Host.Outcome State Fault Refusal :=
  .next (s.set1 ⟨Reg.OUT_CRK_STAT, 20 + pin.val, 1⟩).alertEval

/-- ALERT_FALL (R408). -/
def execAlertFall (pin : Fin 4) (s : State) : Host.Outcome State Fault Refusal :=
  .next (s.clr ⟨Reg.OUT_CRK_STAT, 20 + pin.val, 1⟩).alertEval

/-- CROAKER_SLOT_END (R408, R420): the slot goes on while an ALERT pin asks for it, passes are left or no STOP has come; a
sample without LOOP plays once for each ALERT edge. -/
def execCroakerSlotEnd (slot : Fin 8) (s : State) : Host.Outcome State Fault Refusal :=
  let k := slot.val
  let c := s.slot k
  if c.active then
    if c.again ∨ c.forever ∨ 2 ≤ c.left ∨ (s.slotWanted k ∧ (c.kind = 1 ∨ c.loop)) then
      .next (s.modSlot k fun c => { c with again := false, left := c.left - 1, mark := s.now }).outShow
    else .next (s.slotEnd k)
  else .next s

end Sys2Proof.Machine
end

