-- ==== Sys2Proof/Machine/Fresh.lean ====
section
/-!
DEFINITION. What the fuses give the registers (spec/16_security.md, R700 to R707), and the state that reset leaves
(spec/14_power_states.md, R627, R646).
-/

namespace Sys2Proof.Machine

/-- The bit that two of the three copies of a thermometer bit agree on (spec/16_security.md, R701). -/
def lcBit (w : Word) (k : Nat) : Bool :=
  decide (2 ≤ b2n (bit w k) + b2n (bit w (k + 8)) + b2n (bit w (k + 16)))

/-- The lifecycle code of fuse word 0 (spec/16_security.md, R701). -/
def lcOf (w : Word) : Nat := (indices 3 (lcBit w)).length

/-- Whether the debug port is open at reset (spec/16_security.md, R700). -/
def portOpen (lc : Nat) (dis : Bool) : Bool := lc = 0 || lc = 3 || (lc = 1 && !dis)

/-- Whether reads of a fuse word return 0 (spec/16_security.md, R705). -/
def secretWord (w : Nat) : Bool := (20 ≤ w && w ≤ 27) || (50 ≤ w && w ≤ 57)

/-- The GPIO that shows the microphones' use (spec/16_security.md, R703, R727). -/
def State.micPin? (s : State) : Option Nat :=
  let m := bits (s.fuse 3) 4 4
  if 1 ≤ m ∧ m ≤ 8 then some (m - 1) else none

/-- CTL_SEC_ROLL follows the fuses (spec/16_security.md, R704, R712). -/
def State.showRoll (s : State) : State :=
  ((s.wr F.CTL_SEC_ROLL_FWROLL (popcount (s.fuse 44) + popcount (s.fuse 45))).wr F.CTL_SEC_ROLL_GRAPHROLL (popcount (s.fuse 46))).wr
    F.CTL_SEC_ROLL_WKDROLL (popcount (s.fuse 47))

/-- The fields that the fused floors and ceilings bind at their reset values (spec/16_security.md, R706, R707; spec/15_safety.md, R679;
OUT_Gx_THERM). -/
def State.fuseBound (s : State) : State :=
  let b := s.fuse 49
  let s1 := s.wr F.SAFE_SM_CFG_FNMASK (s.rd F.SAFE_SM_CFG_FNMASK ||| bits b 28 4)
  let s2 := if bit b 27 then s1.set1 F.SAFE_SM_CFG_ALTPAIR else s1
  let s3 := if bit b 26 then s2.wr F.SAFE_SM_CFG2_ESCMODE 1 else s2
  let fl := min 4 (bits (s.fuse 48) 8 4)
  let s4 := (s3.wr F.DSP_SPARE_FLOOR fl).wr F.DSP_SPARE_RESERVE (max fl (s3.rd F.DSP_SPARE_RESERVE))
  let s5 := forEach (fun n s => (s.wr (F.OUT_SPK_LIMIT_PLIM n) (min (s.rd (F.OUT_SPK_LIMIT_PLIM n)) (s.rd F.OUT_SPK_FUSE_PCEIL))).wr
    (F.OUT_SPK_CFG_ILIM n) (min (s.rd (F.OUT_SPK_CFG_ILIM n)) (s.rd F.OUT_SPK_FUSE_ILIMMAX))) 12 s4
  forEach (fun g s => s.wr (F.OUT_G_THERM_TFB g) (min (s.rd (F.OUT_G_THERM_TFB g)) (s.rd F.OUT_SPK_FUSE_TFBMAX))) 3 s5

/-- The registers that the fuse shadow gives (spec/16_security.md, R700 to R707). -/
def State.fuseRegs (s : State) : State :=
  let lc := lcOf (s.fuse 0)
  let dis := bit (s.fuse 3) 3
  let a := s.fuse 48
  let b := s.fuse 49
  let s1 := forEach (fun w s => s.setReg (Reg.CTL_FUSE w) (if secretWord w then 0 else s.fuse w)) 64 s
  let s2 := (((s1.wr F.CTL_SEC_STAT_LC lc).wr F.CTL_SEC_STAT_LCNEXT lc).wr F.CTL_SEC_STAT_DBGOPEN (b2n (portOpen lc dis))).wr
    F.CTL_SEC_STAT_DBGDIS (b2n dis)
  let s3 := (((s2.showRoll.wr F.OUT_SPK_FUSE_PCEIL (max 1 (min 200 (255 - bits a 24 8)))).wr F.OUT_SPK_FUSE_TFBMAX
    (max 125 (min 150 (255 - bits a 16 8)))).wr F.OUT_SPK_FUSE_ILIMMAX (min 0xC (15 - bits a 12 4))).wr F.OUT_SPK_FUSE_CRKMIN (bits a 0 8)
  let s4 := ((s3.wr F.SAFE_SM_FUSE_FNMIN (bits b 28 4)).wr F.SAFE_SM_FUSE_PAIRREQ (bits b 27 1)).wr F.SAFE_SM_FUSE_OFFREQ (bits b 26 1)
  s4.fuseBound

/-- The levels of the pins that the state holds stay; the queue and the draws go on; everything else is as State.reset has it, the
shadow loaded anew from the fuses (spec/16_security.md, R704). -/
def State.fresh (s : State) : State :=
  let z := State.reset
  let s1 : State :=
    { z with
      sec := { z.sec with fuses := s.sec.fuses, shadow := s.sec.fuses }
      pwr := { z.pwr with gpio := s.pwr.gpio, iov := s.pwr.iov }
      out := { z.out with muteLow := s.out.muteLow }
      hpcv := { z.hpcv with clrLow := s.hpcv.clrLow }
      draw := s.draw, pending := s.pending }
  ((s1.fuseRegs.setReg Reg.CTL_SYS_STRAP (s.reg Reg.CTL_SYS_STRAP)).wr F.OUT_CRK_STAT_ALERT (s.rd F.OUT_CRK_STAT_ALERT)).wr
    F.PWR_GPIO_IO_IN s.pwr.gpio

end Sys2Proof.Machine
end

