-- ==== Sys2Proof/Machine/Legs.lean ====
section
/-!
DEFINITION. Legs, slices, spare legs and the crosspoint (spec/08_speaker_channels.md, R394 to R406).
-/

namespace Sys2Proof.Machine

/-- EVT_REPAIR for the power stage (R403). -/
def State.raiseLegRepair (s : State) (kind ch leg slices node : Nat) (hiz : Word) : State :=
  s.raise evRepair [w32 (kind * 2 ^ 28 + ch * 2 ^ 24 + leg * 2 ^ 23 + slices * 2 ^ 19 + node * 2 ^ 16), hiz &&& 0xFFFF]

/-- EVT_REPAIR for a node (R403). -/
def State.raiseNodeRepair (s : State) (kind g j : Nat) (hiz : Word) : State :=
  s.raiseLegRepair kind (chanOf g j) (j % 2) (s.legSlices g j) (if kind = 8 ∨ kind = 0xB then j else 0) hiz

/-- Spare states of OUT_Gx_STAT.XSTATE. -/
def xsReady : Nat := 0
def xsInUse : Nat := 1
def xsFailed : Nat := 2

def State.xstate (s : State) (g : Nat) : Nat := s.rd (F.OUT_G_STAT_XSTATE g)

/-- A mask without bit `j`. -/
def without (m j : Nat) : Nat := if inMask m j then m - 2 ^ j else m

/-- The own leg of a node has failed and is disconnected (R400). -/
def State.failLeg (s : State) (g j : Nat) : State :=
  (s.modGrp g fun x => { x with failed := without x.failed j + 2 ^ j, fails := vmod x.fails j (· + 1) }).wr
    (F.OUT_G_STAT_HEALED g) (without (s.rd (F.OUT_G_STAT_HEALED g)) j)

/-- The number of the leg that serves a node: the own legs, then the spares. -/
def State.legNo (s : State) (g j : Nat) : Nat := if s.onSpare g j then 24 + g else 8 * g + j

/-- Legs lose the on-resistance samples taken since their last result (spec/17_service_life.md, R747). -/
def State.ronDrop (s : State) (legs : List Nat) : State :=
  let f := fun (v : Vector (List (Nat × Nat)) 54) (l : Nat) => vmod (vmod v (2 * l) fun _ => []) (2 * l + 1) fun _ => []
  { s with age := { s.age with acc := legs.foldl f s.age.acc } }

/-- The spare stands on a node, or on none (`j` 8): active copy, XSTATE and XNODE (R397, R405). -/
def State.placeSpare (s : State) (g j : Nat) (byHost : Bool) : State :=
  let c := j < 8
  let s := s.ronDrop ([24 + g, 8 * g + s.rd (F.OUT_G_XPT_ANODE g)] ++ if c then [8 * g + j] else [])
  (((((s.modGrp g fun x => { x with byHost := byHost && c }).wr (F.OUT_G_STAT_XSTATE g)
    (if c then xsInUse else if s.xstate g = xsFailed then xsFailed else xsReady)).wr (F.OUT_G_STAT_XNODE g) (j % 8)).wr
    (F.OUT_G_XPT_AEN g) (b2n c)).wr (F.OUT_G_XPT_ANODE g) (j % 8)).showGroup g

/-- A pending crosspoint transfer is discarded (R406). -/
def State.dropXpt (s : State) (g : Nat) : State :=
  if s.on (F.OUT_G_XPT_UPDATE g) then (s.clr (F.OUT_G_XPT_UPDATE g)).set1 (F.OUT_G_XPT_XPTERR g) else s

/-- A sequence begins: both legs of each channel that takes part are Hi-Z until Release (R397, R401, R405). -/
def State.beginSeq (s : State) (g : Nat) (q : LegSeq) : State := (s.modGrp g fun x => { x with seq := some q }).outShow

/-- Whether a regrow of node `j` can run: the spare is ready, or stands on a node with a healthy leg of its own, placed there by
the host (R397, R399, R401). -/
def State.canRegrow (s : State) (g j : Nat) : Bool :=
  !s.onSpare g j && (s.grp g).seq.isNone && (s.xstate g = xsReady ||
    (s.xstate g = xsInUse && (s.grp g).byHost && !inMask (s.grp g).failed (s.rd (F.OUT_G_XPT_ANODE g))))

/-- The spare takes the place of a node's leg; `keep` for a leg whose healthy slices are held in reserve (R396, R397, R401). -/
def State.regrow (s : State) (g j : Nat) (keep : Bool) : State :=
  let back := if s.on (F.OUT_G_XPT_AEN g) then [s.rd (F.OUT_G_XPT_ANODE g)] else []
  let s1 := s.dropXpt g
  ((if keep then s1 else s1.failLeg g j).placeSpare g j false).beginSeq g ⟨j, j :: back, 8, false⟩

/-- A channel is tail-dropped because no spare can serve it (R399): its failed leg is disconnected. A spare that fails in service
is a failed spare. -/
def State.legTailDrop (s : State) (g j : Nat) : State :=
  let ch := chanOf g j
  let s1 := if s.onSpare g j then (s.wr (F.OUT_G_STAT_XSTATE g) xsFailed).placeSpare g 8 false else s.failLeg g j
  let s2 := ((s1.ends rgOut 0x302 (j % 2) ch).outFault 0x302 0 (j % 2) ch 0 false).set1 (F.OUT_SPK_STAT_LEGFAIL ch)
  let s3 := s2.faultHold ch 0x302
  s3.drawn.raiseNodeRepair 9 g j s3.free

/-- The region handler deals with a leg fault that it has at work: regrow, or tail drop (R397, R399). -/
def State.legServe (s : State) (g j : Nat) (keep : Bool) : State :=
  if s.canRegrow g j then s.regrow g j keep else s.legTailDrop g j

/-- A block-level leg fault (R394, R399; spec/01_architecture.md, R24, R27, R28): the region handler deals with it, or it waits while the
handler is at work on another. In a chip safe state it is only recorded. -/
def State.legFault (s : State) (g j : Nat) (keep : Bool) : State :=
  let ch := chanOf g j
  let busy := s.handling rgOut
  if s.chipSafe then
    s.fault { code := 0x302, df := 0, region := rgOut, level := 2, sub := j % 2, unit := ch, detail := 0, inj := false,
              active := false }
  else if s.saf.work.any (fun w => w.isFor rgOut 0x302 (j % 2) ch) ∧ busy then s
  else
    let s1 := s.takesUp ⟨rgOut, 0x302, j % 2, ch, 3, s.now, false, busy, b2n keep⟩
    if busy then s1 else s1.legServe g j keep

/-- The handler turns to the leg faults that wait, up to `n` of them, in order; a regrow keeps it busy (spec/01_architecture.md, R27). -/
def State.legsNext : Nat → State → State
  | 0, s => s
  | n + 1, s =>
    match s.saf.work.find? (fun w => w.region = rgOut && w.wait) with
    | none => s
    | some w =>
      if s.handling rgOut then s
      else State.legsNext n ((s.takesUp { w with wait := false }).legServe (w.unit / 4) (nodeOf w.unit w.sub) (w.arg = 1))

/-- Whether the leg at a node switches, so that its detectors act. -/
def State.legActs (s : State) (g j : Nat) : Bool :=
  switching (s.phase (s.master (chanOf g j))) && !s.hiz (chanOf g j) && s.hasLeg g j

/-- A detector declares a leg fault on a channel's leg. -/
def State.legDetected (s : State) (ch leg : Nat) : State :=
  if s.legActs (ch / 4) (nodeOf ch leg) then s.legFault (ch / 4) (nodeOf ch leg) false else s

/-- LEG_FAULT (R394, R397, R399, R401). -/
def execLegFault (chan : Fin 12) (legM : Bool) (s : State) : Host.Outcome State Fault Refusal :=
  .next (s.legDetected chan.val (b2n legM))

/-- LEG_REGROW_RELEASE (R397, R402, R409): the spare is switched in and released, which the deadline asks for, and the handler turns to the
next fault (spec/01_architecture.md, R23, R27). -/
def execLegRegrowRelease (g : Fin 3) (s : State) : Host.Outcome State Fault Refusal :=
  match (s.grp g.val).seq with
  | some q =>
    if q.released then .next s
    else
      let s1 := (s.modGrp g.val fun x => { x with seq := some { q with released := true } }).meets rgOut 0x302 (q.node % 2)
        (chanOf g.val q.node)
      let s2 := (q.nodes.foldl (fun (s : State) j => s.modSpk (s.master (chanOf g.val j)) fun x => { x with run := 0 }) s1).outShow
      .next (s2.legsNext s2.saf.work.length)
  | none => .next s

/-- What waited for Settle on a channel acts: a stop, MUTE_N or chip mute (R402), the restart of R390. -/
def State.afterSettle (s : State) (ch : Nat) : State :=
  let n := s.master ch
  let s1 :=
    match (s.spk n).stopWait with
    | some fast => (s.modSpk n fun x => { x with stopWait := none }).stopChan n fast
    | none => s
  let s2 := if s1.muted ∨ s1.chipSafe then s1.holdNow n else s1
  if held (s2.phase n) ∧ (s2.spk n).why = 0x301 ∧ s2.rd (F.OUT_SPK_STAT_SCLASS n) = 4 then
    (s2.clr (F.OUT_SPK_STAT_SHORT n)).restart n
  else s2.tryUnmute n

/-- REGROW_SETTLE_END (R397, R402, R403): `hiz` is how long both legs were Hi-Z, in units of 10 ns. -/
def execRegrowSettleEnd (g : Fin 3) (hiz : BitVec 16) (s : State) : Host.Outcome State Fault Refusal :=
  match (s.grp g.val).seq with
  | some q =>
    if q.released then
      let s1 := s.modGrp g.val fun x => { x with seq := none }
      let s2 := if q.kind = 8 then s1.repaired rgOut 0x302 (q.node % 2) (chanOf g.val q.node) else s1
      let s3 := s2.raiseNodeRepair q.kind g.val q.node (hiz.zeroExtend 32)
      .next (q.nodes.foldl (fun (s : State) j => s.afterSettle (chanOf g.val j)) s3).outShow
    else .next s
  | none => .next s

/-- SLICE_DROP (R395, R396; spec/01_architecture.md, R24): the leg carries on with its other slices at a reduced limit, so that the fault is
contained without full function and passes up, to reaction N; with fewer than 2 it is regrown, and under SLICEPOL at its first
where the spare is ready. -/
def execSliceDrop (chan : Fin 12) (legM : Bool) (slice : Fin 4) (s : State) : Host.Outcome State Fault Refusal :=
  let ch := chan.val
  let g := ch / 4
  let j := nodeOf ch (b2n legM)
  if s.legActs g j = false ∨ inMask (s.legSlices g j) slice.val = false then .next s
  else
    let x := s.onSpare g j
    let left := without (s.legSlices g j) slice.val
    let s1 := ((s.ronDrop [s.legNo g j]).modGrp g fun q => if x then { q with xslc := left } else { q with slices := vmod q.slices j (fun _ => left) }).showGroup g
    let s2 := (s1.set1 (F.OUT_SPK_STAT_SLICE ch)).outFault 0x303 0 (b2n legM) ch 0 false
    let s3 := (s2.acSpoil (s2.master ch)).raiseNodeRepair 7 g j 0
    if sliceCount left < 2 then .next (s3.legFault g j false)
    else if sliceCount left = 3 ∧ s3.on (F.OUT_G_CFG_SLICEPOL g) ∧ x = false ∧ s3.xstate g = xsReady ∧ s3.chipSafe = false
        ∧ (s3.grp g).seq = none then .next (s3.legFault g j true)
    else .next s3

/-- SPARE_SELFTEST (R398, R403): a spare not in use that fails its test becomes failed. -/
def execSpareSelftest (g : Fin 3) (pass : Bool) (s : State) : Host.Outcome State Fault Refusal :=
  if s.xstate g.val = xsReady ∧ pass = false then
    let s1 := (s.wr (F.OUT_G_STAT_XSTATE g.val) xsFailed).outFault 0x304 0 0 (0x10 + g.val) 0 false
    .next (s1.raiseLegRepair 0xA 0xF 0 (s.grp g.val).xslc 0 0)
  else .next s

/-- LEG_SELFTEST_DONE (R400). -/
def execLegSelftestDone (g : Fin 3) (node : Fin 8) (pass : Bool) (s : State) : Host.Outcome State Fault Refusal :=
  if inMask (s.grp g.val).failed node.val ∧ pass ∧ vat (s.grp g.val).fails node.val < 3 then
    .next (s.wr (F.OUT_G_STAT_HEALED g.val) (without (s.rd (F.OUT_G_STAT_HEALED g.val)) node.val + 2 ^ node.val))
  else .next s

/-- Whether a node's own leg has failed and not healed (R406). -/
def State.unhealed (s : State) (g j : Nat) : Bool := inMask (s.grp g).failed j && !inMask (s.rd (F.OUT_G_STAT_HEALED g)) j

/-- The own leg of a node returns to it (R400). -/
def State.returnLeg (s : State) (g j : Nat) : State := s.modGrp g fun x => { x with failed := without x.failed j }

/-- XPT_TRANSFER (R405, R406; spec/03_register_access.md, R128): the shadow, EN and NODE, becomes the active copy once no sequence is
under way in the group. -/
def execXptTransfer (g : Fin 3) (s : State) : Host.Outcome State Fault Refusal :=
  let g := g.val
  if ¬ s.on (F.OUT_G_XPT_UPDATE g) ∨ (s.grp g).seq ≠ none then .next s
  else
    let en := s.on (F.OUT_G_XPT_EN g)
    let node := s.rd (F.OUT_G_XPT_NODE g)
    let copied := fun (z : State) => z.wr (F.OUT_G_XPT_ANODE g) node
    let new := if en then node else 8
    let cur := if s.on (F.OUT_G_XPT_AEN g) then s.rd (F.OUT_G_XPT_ANODE g) else 8
    if s.xstate g = xsFailed ∨ (en = false ∧ s.unhealed g node) ∨ (cur < 8 ∧ cur ≠ new ∧ s.unhealed g cur) then .next (s.dropXpt g)
    else
      let s1 := s.clr (F.OUT_G_XPT_UPDATE g)
      let back := if en = false ∧ node ≠ cur ∧ inMask (s.grp g).failed node then [node] else []
      if cur = new ∧ back = [] then .next (copied s1)
      else
        let s2 := if cur < 8 ∧ cur ≠ new then s1.returnLeg g cur else s1
        let s3 := copied ((back.foldl (fun (s : State) j => s.returnLeg g j) s2).placeSpare g new true)
        let nodes := (if new < 8 then [new] else []) ++ (if cur < 8 ∧ cur ≠ new then [cur] else []) ++ back
        let rnode := nodes.headD 0
        if nodes.all (fun j => s.phase (s.master (chanOf g j)) = phOff) then .next (s3.raiseNodeRepair 0xB g rnode 0)
        else .next (s3.beginSeq g ⟨rnode, nodes, 0xB, false⟩)

end Sys2Proof.Machine
end

