-- ==== Sys2Proof/Machine/Diag.lean ====
section
/-!
DEFINITION. Load diagnostics and the headphone jack (spec/10_load_jack_diagnostics.md).
-/

namespace Sys2Proof.Machine

/-- Whether diagnostics are suspended (R475; spec/13_monitoring_converters.md, R607). -/
def State.suspended (s : State) : Bool := s.on (F.SAFE_MADC_STAT_SUSP 0) || s.on (F.SAFE_MADC_STAT_SUSP 1)

/-- A load test under way (R476). -/
def State.testPending? (s : State) : Option PendEntry := s.pap.slots.find? fun e => e.opcode = 0xA00 || e.opcode = 0xA01

/-- The channels of a list with their slaves, as a mask. -/
def State.driveMask (s : State) (ns : List Nat) : Nat := maskOf 12 fun k => ns.any fun n => (s.drives n).contains k

/-! DC load test (R478 to R485, R506). -/

def cardLoadDcTest : CmdSpec := ⟨0xA00, 1, 1, false, true, true, false, false, false, false⟩

/-- LOAD_DC_TEST (R475, R476, R478, R484, R506). -/
def execLoadDcTest (p : Packet) (s : State) : Host.Outcome State Fault Refusal :=
  s.card cardLoadDcTest p fun s =>
    let named := chansOf (s.masters (pf p.payload 0 0 12))
    if pf p.payload 0 0 12 = 0 then .bad 0
    else if s.suspended then .refuse stsNoResource 0
    else
      match s.testPending?, s.chanBusy? [] named with
      | some e, _ => busyWith e
      | none, some e => busyWith e
      | none, none =>
        let tested := named.filter fun n => (s.phase n = phOff || held (s.phase n)) && s.on (F.OUT_G_STAT_PVDDOK (n / 4))
        let rest := named.filter fun n => !tested.contains n
        let words := [w32 (s.driveMask tested), w32 (s.driveMask rest)]
        s.withDomains (groupDomains tested) fun s =>
          let s1 := rest.foldl (fun (s : State) n => s.dcNone n 8) s
          if tested = [] then .done stsOk 0 words [] s1
          else .pend words (tested.map Target.chan) { s1 with diag := { s1.diag with dc := tested } }

/-- A leg that fails the self-test of a DC test: it is taken as failed, and the spare takes its place where the channel is Off; a spare
that fails is a failed spare (R482). -/
def State.dcLeg (s : State) (g j : Nat) : State :=
  if s.onSpare g j then
    (((s.wr (F.OUT_G_STAT_XSTATE g) xsFailed).placeSpare g 8 false).outFault 0x304 0 0 (0x10 + g) 0 false).raiseLegRepair 0xA 0xF 0
      (s.grp g).xslc 0 0
  else
    let s1 := if s.hasLeg g j then s.failLeg g j else s
    if s1.phase (s1.master (chanOf g j)) = phOff ∧ s1.xstate g = xsReady ∧ (s1.grp g).seq.isNone then
      ((s1.dropXpt g).placeSpare g j false).raiseNodeRepair 8 g j 0
    else s1

/-- DCRES and RDC of a channel: the legs' self-test, the node tests, and R_DC, the mean voltage in µV over the mean current in µA unless the
compliance was met; Z_nom in mΩ (R480, R481). -/
def dcClass (zn : Nat) (internal : Bool) (node uv ua : Nat) (compliance : Bool) : Nat × Nat :=
  if internal then (4, 0)
  else if node ≠ 0 then (node, 0)
  else if compliance ∨ 40 * ua < uv then (7, 0xFFFF)
  else
    let rdc := roundFree (100 * uv) ua
    if uv < ua then (3, rdc)
    else if 2000 * uv < zn * ua then (5, rdc)
    else if 3 * zn * ua < 2000 * uv then (6, rdc)
    else (0, rdc)

/-- LOAD_DC_CHANNEL_DONE (R479 to R484, R506): the self-tests and node tests of the channel under test and of its slave in a pair, and what
the Measure phase read. -/
def execLoadDcChannelDone (own slave : ChanTest) (dc : DcReading) (s : State) : Host.Outcome State Fault Refusal :=
  match s.diag.dc with
  | [] => .next s
  | n :: rest =>
    let g := n / 4
    let bad (k l : Nat) : Bool := (s.failing n own slave).contains (k, l)
    let ks := s.drives n
    let node := s.nodeClass n own slave
    let r := dcClass (s.znom n) (s.failing n own slave ≠ []) (if node = 3 then 0 else node) dc.microvolts dc.microamps dc.compliance
    let s1 := ks.foldl (fun (s : State) k => s.setReg (Reg.SAFE_LDIAG_DC k)
      (w32 (r.1 * 2 ^ 28 + b2n (ks.length = 2) * 2 ^ 27 + b2n (bad k 0) * 2 ^ 23 + b2n (bad k 1) * 2 ^ 22 + r.2))) s
    let failed := ks.flatMap fun k => (List.range 2).filterMap fun l => if bad k l then some (nodeOf k l) else none
    let s2 := failed.foldl (fun (s : State) j => s.dcLeg g j) { s1 with diag := { s1.diag with dc := rest } }
    .next (if rest = [] then s2.finishAll (fun e => e.opcode = 0xA00) stsOk 0 else s2)

/-! AC impedance test (R486 to R496, R507). -/

def cardLoadAcTest : CmdSpec := ⟨0xA01, 2, 2, false, true, true, false, false, false, false⟩

/-- LOAD_AC_TEST (R475, R476, R488 to R491, R507). -/
def execLoadAcTest (p : Packet) (s : State) : Host.Outcome State Fault Refusal :=
  s.card cardLoadAcTest p fun s =>
    let ws := p.payload
    let level := pf ws 0 16 8
    let mode := pf ws 0 8 2
    let n := s.master (pf ws 0 0 4)
    let fcorr := pf ws 1 8 8 ≠ 0 && pf ws 1 0 8 ≠ 0
    let a : AcTest := ⟨n, mode = 1, fcorr, 0, (0, 0), (0, 0), [], 0, false, pf ws 1 8 8, pf ws 1 0 8, level, s.now⟩
    let words := [w32 ((if mode = 1 then 3000 else 203 + 2 * (s.cmTicks n / msTicks)) * 2 ^ 16 + mode * 2 ^ 8 + n),
      s.reg (Reg.SAFE_LDIAG_AC n), s.reg (Reg.SAFE_LDIAG_ZLO n), s.reg (Reg.SAFE_LDIAG_ZHI n)]
    if 11 < pf ws 0 0 4 ∨ 1 < mode ∨ level < (if mode = 1 then 30 else 20) ∨ 60 < level then .bad 0
    else if s.suspended then .refuse stsNoResource 0
    else
      match s.testPending?, s.chanBusy? [] [n] with
      | some e, _ => busyWith e
      | none, some e => busyWith e
      | none, none =>
        if mode = 1 then
          if s.pstate = stPlay ∧ s.phase n = phPlay then .pend words [.chan n] { s with diag := { s.diag with ac := some a } }
          else .refuse stsDenied 2
        else if s.phase n ≠ phOff ∨ (s.spk n).on ∨ s.muted ∨ s.rd F.SAFE_SM_STAT_CSS = 2 then
          .done stsDenied 2 [] [] ((s.drives n).foldl (fun (s : State) k =>
            s.setReg (Reg.SAFE_LDIAG_AC k) (w32 (6 * 2 ^ 28 + b2n fcorr * 2 ^ 26))) s)
        else s.withDomains [dmGroup (n / 4)] fun s =>
          let s1 := { s with diag := { s.diag with ac := some a } }
          .pend words [.chan n] (if s1.on (F.OUT_G_STAT_PVDDOK (n / 4)) ∧ s1.carrierOn (n / 4) then s1.beginCheck n
            else s1.modSpk n fun x => { x with start := true })

/-- AC_TONE_DONE (R486, R489): the impedance at the switch nodes that the tone gave, |Z_sw| in mΩ and its phase in 0.01°. -/
def execAcToneDone (mohm : Nat) (centideg : Int) (s : State) : Host.Outcome State Fault Refusal :=
  let s1 := s.diagPoll
  match s1.diag.ac with
  | none => .next s1
  | some a =>
    if a.online = false ∧ a.stage = 1 then
      let b := { a with stage := 2, lo := loadImpedance mohm centideg 1000 a.lf a.cf, mark := s1.now }
      .next { s1 with diag := { s1.diag with ac := some b } }
    else if a.online = false ∧ a.stage = 2 then
      let b := { a with stage := 3, hi := loadImpedance mohm centideg 16000 a.lf a.cf }
      .next ({ s1 with diag := { s1.diag with ac := some b } }.discharge a.chan)
    else .next s1

/-- Whether the magnitudes of ten windows spread by more than 10 % of their mean (R493). -/
def spread (ms : List Nat) : Bool :=
  decide (ms.foldl (· + ·) 0 < 100 * (ms.foldl max 0 - ms.foldl min (ms.headD 0)))

/-- A whole number nearest to a tenth of a sum of either sign. -/
def tenth (x : Int) : Int := if x < 0 then -(roundFree x.natAbs 10 : Int) else (roundFree x.natAbs 10 : Int)

/-- AC_WINDOW (R486, R491 to R493, R495): a window of the channel's pilot ends, |Z_sw| in mΩ and its phase in 0.01°; one in which an event of R492 fell
is discarded. -/
def execAcWindow (chan : Fin 12) (mohm : Nat) (centideg : Int) (s0 : State) : Host.Outcome State Fault Refusal :=
  let s := s0.acWatch
  match s.diag.ac with
  | none => .next s
  | some a =>
    if a.online = false ∨ a.chan ≠ chan.val then .next s
    else
      let wins := if a.spoilt then a.wins else a.wins ++ [loadImpedance mohm centideg 25000 a.lf a.cf]
      let b := { a with wins := wins, tried := a.tried + 1, spoilt := false }
      if wins.length = 10 then
        let ms := wins.map (·.1)
        let sum := ms.foldl (· + ·) 0
        let ph := tenth ((wins.map (·.2)).foldl (· + ·) 0)
        .next (s.acEnd { b with hi := (roundFree sum 10, ph) } (acClass true (spread ms) (s.znom a.chan) 0 sum 0 ph) 0 stsOk)
      else if b.tried = 30 then .next (s.acEnd b 7 0 stsOk)
      else .next { s with diag := { s.diag with ac := some b } }

/-! Headphone jack (R499 to R508). -/

/-- EVT_JACK (R505). -/
def State.raiseJack (s : State) (kind button : Nat) : State :=
  s.raise evJack [w32 (kind * 2 ^ 28 + s.rd F.SAFE_JACK_STAT_POLES * 2 ^ 24 + button * 2 ^ 20 + s.rd F.SAFE_JACK_STAT_RATIO)]

/-- Whether the jack is watched (R499, R500). -/
def State.jackWatched (s : State) : Bool := stListen ≤ s.pstate

/-- The bias output that JBIAS names (SAFE_JACK_CFG). -/
def State.jbias (s : State) : Option (Fin 2) :=
  if s.rd F.SAFE_JACK_CFG_JBIAS = 0 then some 0 else if s.rd F.SAFE_JACK_CFG_JBIAS = 1 then some 1 else none

/-- A plug is declared; with no mic bias named it reads three-pole, otherwise the bias is switched on for the measurement (R475, R499, R501). -/
def State.jackIn (s : State) : State :=
  let s1 := ((s.set1 F.SAFE_JACK_STAT_PLUG).set1 F.SAFE_JACK_STAT_INS).wr F.SAFE_JACK_STAT_POLES
    (if s.rd F.SAFE_JACK_CFG_JBIAS ≤ 1 then 0 else 1)
  ((s1.raiseJack 1 0).hpJack).jackBias (if s.suspended then none else s.jbias)

/-- A removal is declared (R499, R504). -/
def State.jackOut (s : State) : State :=
  let s1 := (((s.clr F.SAFE_JACK_STAT_PLUG).set1 F.SAFE_JACK_STAT_REM).wr F.SAFE_JACK_STAT_POLES 0).wr F.SAFE_JACK_STAT_BUTTON 0
  ((s1.raiseJack 2 0).hpJack).jackBias none

/-- JACK_INSERT (R499, R505). -/
def execJackInsert (s : State) : Host.Outcome State Fault Refusal :=
  .next (if s.jackWatched ∧ ¬ s.on F.SAFE_JACK_STAT_PLUG then s.jackIn else s)

/-- JACK_REMOVE (R499, R504, R505). -/
def execJackRemove (s : State) : Host.Outcome State Fault Refusal :=
  .next (if s.jackWatched ∧ s.on F.SAFE_JACK_STAT_PLUG then s.jackOut else s)

/-- POLES of a ratio in 1/4096 (R501). -/
def polesOf (r : Nat) : Nat := if r * 100 < 8 * 4096 then 1 else if r * 100 ≤ 90 * 4096 then 2 else 3

/-- JACK_CLASSIFY (R475, R501, R505). -/
def execJackClassify (ratio : BitVec 12) (s : State) : Host.Outcome State Fault Refusal :=
  if s.jackWatched ∧ s.on F.SAFE_JACK_STAT_PLUG ∧ s.rd F.SAFE_JACK_STAT_POLES = 0 ∧ s.rd F.SAFE_JACK_CFG_JBIAS ≤ 1 ∧ ¬ s.suspended then
    .next ((((s.wr F.SAFE_JACK_STAT_RATIO ratio.toNat).wr F.SAFE_JACK_STAT_POLES (polesOf ratio.toNat)).raiseJack 3
      (s.rd F.SAFE_JACK_STAT_BUTTON)).jackBias none)
  else .next s

/-- The button of a ratio; 0 outside the bands (R502). -/
def buttonOf (r : Nat) : Nat :=
  if r * 100 < 5 * 4096 then 1 else if r * 100 < 12 * 4096 then 2 else if r * 100 < 22 * 4096 then 3 else 0

/-- Whether buttons are sensed (R475, R502). -/
def State.buttonsOn (s : State) : Bool :=
  s.jackWatched && s.on F.SAFE_JACK_CFG_BTNEN && s.rd F.SAFE_JACK_STAT_POLES = 2 && !s.suspended

/-- A release is reported (R502). -/
def State.buttonUp (s : State) : State :=
  let b := s.rd F.SAFE_JACK_STAT_BUTTON
  if b = 0 then s else ((s.wr F.SAFE_JACK_STAT_BUTTON 0).set1 F.SAFE_JACK_STAT_BTNCHG).raiseJack 5 b

/-- BUTTON_PRESS (R502, R505): a press of another button reports the release of the first. -/
def execButtonPress (ratio : BitVec 12) (s : State) : Host.Outcome State Fault Refusal :=
  let b := buttonOf ratio.toNat
  if s.buttonsOn ∧ b ≠ 0 ∧ b ≠ s.rd F.SAFE_JACK_STAT_BUTTON then
    let s1 := (s.wr F.SAFE_JACK_STAT_RATIO ratio.toNat).buttonUp
    .next (((s1.wr F.SAFE_JACK_STAT_BUTTON b).set1 F.SAFE_JACK_STAT_BTNCHG).raiseJack 4 b)
  else .next s

/-- BUTTON_RELEASE (R502, R505): above the microphone band the contact is open and nothing is reported. -/
def execButtonRelease (ratio : BitVec 12) (s : State) : Host.Outcome State Fault Refusal :=
  let s1 := s.wr F.SAFE_JACK_STAT_RATIO ratio.toNat
  if s.buttonsOn = false ∨ ratio.toNat * 100 < 22 * 4096 then .next s
  else if 90 * 4096 < ratio.toNat * 100 then .next (s1.wr F.SAFE_JACK_STAT_BUTTON 0)
  else .next s1.buttonUp

def cardJackStatus : CmdSpec := ⟨0xA02, 0, 0, true, true, true, false, false, false, false⟩

/-- JACK_STATUS (R508). -/
def execJackStatus (p : Packet) (s : State) : Host.Outcome State Fault Refusal :=
  s.card cardJackStatus p fun s => .done stsOk 0 [s.reg Reg.SAFE_JACK_STAT, s.reg Reg.SAFE_JACK_CFG] [] s

end Sys2Proof.Machine
end

