-- ==== Sys2Proof/Machine/Madc.lean ====
section
/-!
DEFINITION. The monitoring converters (spec/13_monitoring_converters.md).
-/

namespace Sys2Proof.Machine

def State.modMadc (s : State) (f : MadcX → MadcX) : State := { s with madc := f s.madc }

/-- Roles of a converter (SAFE_MADCx_STAT.ROLE). -/
def rlNormal : Nat := 0
def rlSole : Nat := 1
def rlFailed : Nat := 2

def State.mrole (s : State) (m : Nat) : Nat := s.rd (F.SAFE_MADC_STAT_ROLE m)

/-- Whether a converter is in service. -/
def State.serves (s : State) (m : Nat) : Bool := s.mrole m ≠ rlFailed

/-- The code of an input voltage in µV: rounded, limited to 12 bits (R591). -/
def madcCode (uv : Nat) : Nat := min 4095 ((2 * 4096 * uv + 2500000) / 5000000)

/-- PTHR as taken (SAFE_MADC_CFG). -/
def State.pthr (s : State) : Nat := max 8 (min 64 (s.rd F.SAFE_MADC_CFG_PTHR))

/-! The sequencer (R594 to R601; spec/01_architecture.md, R54). -/

/-- The CLIENT code of a requesting client (R615); R54 serves them in this order, after safety plausibility (0). -/
def clientCode : MadcClient → Nat
  | .protection => 1
  | .diagnostics => 2
  | .ageing => 3

/-- The protection conversion number `j` of a converter's column, as input and selector; `turn` is the sensor in rotation (R593, R595). -/
def protConv (m turn j : Nat) : Option (Nat × Nat) :=
  let ch := 6 * m + j - 6
  if j < 6 then some (3 + 6 * m + j, 0)
  else if j < 12 then some (15 + ch / 4, ch % 4)
  else if j = 12 then some (1 + m, 0)
  else if j = 13 then some (if m = 0 then 18 else 20, turn)
  else if j = 14 ∧ m = 0 then some (19, turn)
  else none

/-- The conversion that the sole-converter plan fixes for a slot: both columns in the first 29 of its protection slots (R607). -/
def soleConv (turn k : Nat) : Option (Nat × Nat) :=
  let j := if k % 10 = 1 then k / 10 else if k % 10 = 2 ∧ k / 10 < 5 then 25 + k / 10 else 29
  if j < 15 then protConv 0 turn j else if j < 29 then protConv 1 turn (j - 15) else none

/-- The conversion that a converter's plan fixes for slot `k`: client, input and selector (R595, R607). -/
def State.fixedConv (s : State) (m k : Nat) : Option (Nat × Nat × Nat) :=
  if s.serves m = false then none
  else if k % 10 = 0 then some (0, 0, 0)
  else
    (if s.mrole m = rlSole then soleConv s.madc.turn k else if k % 10 = 1 then protConv m s.madc.turn (k / 10) else none).map fun e => (1, e)

/-- The place in the queue of the request that a free slot serves: by client, then in arrival order; diagnostics and ageing wait while SUSP is set
(R54, R596, R607). -/
def State.nextReq? (s : State) (m : Nat) : Option Nat :=
  let q := vat s.madc.queue m
  let first := fun (c : MadcClient) => q.findIdx? fun w => w.req.client = c
  (first .protection).or (if s.on (F.SAFE_MADC_STAT_SUSP m) then none else (first .diagnostics).or (first .ageing))

/-- The conversion that a converter makes in the present slot, with the place of the request it serves (R595, R596, R599): in automatic mode a
request waits until the reference buffer has been on for 2 µs. -/
def State.slotConv (s : State) (m : Nat) : Option ((Nat × Nat × Nat) × Option Nat) :=
  match s.fixedConv m s.madc.slot with
  | some e => some (e, none)
  | none =>
    if s.serves m = false ∨ (s.on F.SAFE_MADC_CFG_REFMODE = false ∧ vat s.madc.warm m < 2) then none
    else (s.nextReq? m).map fun i =>
      let r := ((vat s.madc.queue m).getD i default).req
      ((clientCode r.client, r.input.val, r.sel.val), some i)

/-- Whether a converter's reference buffer is on (R599, R600): in automatic mode it is restarted 2 µs ahead of a scheduled conversion or for a
request, and stays on while one is due within 4 µs. -/
def State.refOn (s : State) (m : Nat) : Bool :=
  let due := fun (n : Nat) => (List.range n).any fun d => (s.fixedConv m ((s.madc.slot + d) % 250)).isSome
  if s.on F.SAFE_MADC_CFG_REFMODE then s.on F.SAFE_MADC_CFG_REFBUF_EN || s.serves m
  else s.serves m && ((s.nextReq? m).isSome || due 2 || (s.on (F.SAFE_MADC_STAT_REFON m) && due 4))

/-- REFON follows. -/
def State.showRef (s : State) : State := forEach (fun m s => s.wr (F.SAFE_MADC_STAT_REFON m) (b2n (s.refOn m))) 2 s

/-- The queue of a converter after a slot: the request served has gone, each other has waited a slot more, and those that arrived stand last (R596). -/
def afterSlot (served : Option Nat) (q : List MadcWait) (new : List MadcReq) : List MadcWait :=
  (match served with | some i => q.eraseIdx i | none => q).map (fun (w : MadcWait) => { w with waited := w.waited + 1 })
    ++ new.map fun r => ⟨r, 0⟩

/-- A converter's slot ends: the mux, the queue, DEFCNT for each request that has now waited more than one frame, and the buffer (R594, R596). -/
def State.slotOver (s : State) (m : Nat) (conv : Option ((Nat × Nat × Nat) × Option Nat)) (new : List MadcReq) : State :=
  if s.serves m = false then s else
  let q := afterSlot (conv.bind (·.2)) (vat s.madc.queue m) new
  let prev := match conv with
    | some e => vmod s.madc.prev m fun _ => e.1.2
    | none => s.madc.prev
  let s1 := s.modMadc fun x => { x with queue := vmod x.queue m (fun _ => q), prev := prev }
  s1.sat (F.SAFE_MADC_STAT_DEFCNT m) (q.filter fun w => w.waited = 251).length

/-- Both frames go on to their next slot (R595). -/
def State.slotNext (s : State) : State :=
  let last := s.madc.slot = 249
  let s1 := (s.modMadc fun x => { x with slot := if last then 0 else x.slot + 1, turn := if last then (x.turn + 1) % 4 else x.turn }).showRef
  s1.modMadc fun x => { x with warm := Vector.ofFn fun m => if s1.on (F.SAFE_MADC_STAT_REFON m.val) then vat x.warm m.val + 1 else 0 }

/-! PVDD (R606; spec/02_package_supplies.md, R81). -/

/-- The PVDD of a group as measured: `n / d` V. PVDDOK sets with PVDD back in range; PVDDUV and PVDDOV clear it. -/
def State.pvddMeasured (s : State) (g n d : Nat) : State :=
  let ov := decide (32 * d < n) || ((s.grp g).ovHeld && decide (31 * d ≤ n))
  let ok := decide (44 * d ≤ 10 * n) && !ov
  let s1 := (s.modGrp g fun x => { x with ovHeld := ov }).wr (F.OUT_G_STAT_PVDD g) (roundFree (100 * n) d)
  if ok ∧ ¬ s.on (F.OUT_G_STAT_PVDDOK g) then s1.set1 (F.OUT_G_STAT_PVDDOK g) else s1

/-! Failure and failover (R604, R607, R609). -/

/-- A waiting TDAC_TEST ends (R613). -/
def State.tdacEnd (s : State) (st detail : Nat) : State :=
  match s.madc.tdac with
  | none => s
  | some (m, w) =>
    let s1 := s.modMadc fun x => { x with tdac := none }
    let s2 := if st = stsOk then s1.setReg (Reg.SAFE_MADC_LAST m) w else s1
    s2.finishAll (fun e => e.opcode = 0xA04) st detail

/-- The region handler deals with a failed converter: failover, or chip level where it was the last one in service (R607, R609). -/
def State.madcDrop (s : State) (m : Nat) : State :=
  let s1 := (s.wr (F.SAFE_MADC_STAT_ROLE m) rlFailed).showRef
  let s2 := if s.madc.tdac.any (fun t => t.1 = m) then s1.tdacEnd stsDenied 2 else s1
  let f : FaultInfo := ⟨0xA02, 0, rgSafe, 3, 0, m, 0, false, false⟩
  if s2.serves (1 - m) ∧ s.mrole m ≠ rlSole then
    ((s2.fault f).begins rgSafe 0xA02 0 m 3).modMadc fun x => { x with plan := true }
  else s2.toChipAs .o f

/-- A converter has failed (R607, R609). In a chip safe state the fault is recorded alone; one found while the handler is at work waits
(spec/01_architecture.md, R27, R28). -/
def State.madcFails (s : State) (m : Nat) : State :=
  if s.chipSafe then s.fault ⟨0xA02, 0, rgSafe, 3, 0, m, 0, false, false⟩
  else if s.handling rgSafe then
    (if s.saf.work.any (fun w => w.isFor rgSafe 0xA02 0 m) then s else s.takesUp ⟨rgSafe, 0xA02, 0, m, 3, s.now, false, true, 0⟩)
  else s.madcDrop m

/-- The handler turns to a converter failure that waits (spec/01_architecture.md, R27). -/
def State.madcNext (s : State) : State :=
  match s.saf.work.find? (fun w => w.region = rgSafe && w.wait) with
  | some w => if s.handling rgSafe then s else s.madcDrop w.unit
  | none => s

/-- A result at a TDAC code lies within 12 LSB (R604, R613). -/
def tdacOk (r code : Nat) : Bool := decide (r ≤ 4 * code + 12 ∧ 4 * code ≤ r + 12)

/-- A TDAC test at codes 256 and 768: the voltages in µV that the converter met (R604, R610). -/
def coreOk (low high : Nat) : Bool := tdacOk (madcCode low) 256 && tdacOk (madcCode high) 768

/-- MADC_ARBITRATE (R604, R607, R613). -/
def execMadcArbitrate (low0 high0 low1 high1 : Nat) (s : State) : Host.Outcome State Fault Refusal :=
  if s.madc.arb = false ∨ ¬ s.saf.work.any (fun w => w.isFor rgSafe 0xA01 0 0) then .next s
  else
    let bad0 := !coreOk low0 high0
    let bad1 := !coreOk low1 high1
    let s1 := (s.modMadc fun x => { x with arb := false }).ends rgSafe 0xA01 0 0
    let s2 := if bad0 then s1.set1 (F.SAFE_MADC_STAT_TDACERR 0) else s1
    let s3 := if bad1 then s2.set1 (F.SAFE_MADC_STAT_TDACERR 1) else s2
    if bad0 ≠ bad1 then .next ((s3.madcFails (b2n bad1)).madcNext)
    else .next ((s3.toChip ⟨0xA01, 0, rgSafe, 4, 0, 0, 0, false, false⟩).tdacEnd stsOk 0)

/-- MADC_FAILOVER (R475, R607, R613; spec/01_architecture.md, R56): the next frame starts, and the protection requests of the failed converter go to
the survivor. -/
def execMadcFailover (s : State) : Host.Outcome State Fault Refusal :=
  let m := if s.serves 0 then 1 else 0
  if s.madc.plan = false ∨ ¬ s.saf.work.any (fun w => w.isFor rgSafe 0xA02 0 m) then .next s
  else
    let kept := (vat s.madc.queue m).filter fun w => w.req.client = .protection
    let s1 := ((s.modMadc fun x => { x with
        plan := false, odd := 0, slot := 0
        queue := vmod (vmod x.queue m fun _ => []) (1 - m) (· ++ kept) }).wr (F.SAFE_MADC_STAT_ROLE (1 - m)) rlSole).repaired rgSafe 0xA02 0 m
    let s2 := (s1.set1 (F.SAFE_MADC_STAT_SUSP 0)).set1 (F.SAFE_MADC_STAT_SUSP 1)
    .next (((s2.diagStop stsNoResource).jackBias none).tdacEnd stsNoResource 0).madcNext

/-- MADC_CORE_TEST (R607, R609, R610). -/
def execMadcCoreTest (madc : Fin 2) (low high : Nat) (s : State) : Host.Outcome State Fault Refusal :=
  if s.serves madc.val = false ∨ coreOk low high then .next s
  else .next ((s.set1 (F.SAFE_MADC_STAT_TDACERR madc.val)).madcFails madc.val)

/-! Conversions (R592, R595, R598, R603 to R606). -/

/-- A plausibility slot with both converters in service (R603, R606). In a chip safe state MADCPLAUS is recorded alone
(spec/01_architecture.md, R28). -/
def State.plausible (s : State) (c0 c1 : Nat) : State :=
  let bad := decide (s.pthr < (if c0 < c1 then c1 - c0 else c0 - c1))
  let n := if bad then min 15 (s.rd F.SAFE_MADC_PLAUS_DCNT + 1) else 0
  let s1 := (((s.wr F.SAFE_MADC_PLAUS_CODE0 c0).wr F.SAFE_MADC_PLAUS_CODE1 c1).wr F.SAFE_MADC_PLAUS_DCNT n).pvddMeasured 0
    (50 * (c0 + c1)) 8192
  if bad then
    let s2 := (s1.set1 (F.SAFE_MADC_STAT_PLAUS 0)).set1 (F.SAFE_MADC_STAT_PLAUS 1)
    let f : FaultInfo := ⟨0xA01, 0, rgSafe, 3, 0, 0, 0, false, false⟩
    if s.chipSafe then (if n = 4 then s2.fault f else s2)
    else if 4 ≤ n ∧ s.madc.arb = false then ((s2.fault f).begins rgSafe 0xA01 0 0 3).modMadc fun x => { x with arb := true }
    else s2
  else s1

/-- A plausibility slot of the only converter in service (R605, R606). -/
def State.ranged (s : State) (m c : Nat) : State :=
  let inside := decide (42 * 4096 ≤ 500 * c ∧ 50 * c ≤ 32 * 4096)
  let n := if inside = s.on (F.OUT_G_STAT_PVDDOK 0) then 0 else s.madc.odd + 1
  let s1 := (s.modMadc fun x => { x with odd := n }).wr (if m = 0 then F.SAFE_MADC_PLAUS_CODE0 else F.SAFE_MADC_PLAUS_CODE1) c
  let s2 := s1.pvddMeasured 0 (50 * c) 4096
  if n = 4 then s2.toChip ⟨0xA01, 0, rgSafe, 4, 0, 0, 0, false, false⟩ else s2

/-- A conversion outside the plausibility slots ends on converter `m` (R592, R594, R598, R601): one that carries SETL or REFNS is discarded, and
load diagnostics repeat it. The measurements that have commands of their own (temperatures, node voltages, the jack) come with those. -/
def State.convEnds (s : State) (m : Nat) (e : Nat × Nat × Nat) (c : MadcConv) : State :=
  let i := e.2.1
  let setl := decide (e.2 ≠ vat s.madc.prev m) && decide (c.settle < 17)
  let ns := s.on F.SAFE_MADC_CFG_REFMODE && decide (c.bufOn < 336)
  let s1 := if setl then s.set1 (F.SAFE_MADC_STAT_SETL m) else s
  let s2 := if ns then s1.set1 (F.SAFE_MADC_STAT_REFNS m) else s1
  if c.late then (s.set1 (F.SAFE_MADC_STAT_TOUT m)).madcFails m
  else if setl ∨ ns ∨ e.1 ≠ 1 then s2
  else if i = 1 ∨ i = 2 then s2.pvddMeasured i (50 * madcCode c.volts) 4096
  else if 3 ≤ i ∧ i ≤ 14 then
    s2.modSpk (i - 3) fun x => { x with amps := if madcCode c.volts < 2048 then 2048 - madcCode c.volts else madcCode c.volts - 2048 }
  else s2

/-- The requests that a converter's slot adds: those that arrived, and a diagnostics conversion that carried SETL once more (R598). -/
def State.slotReqs (s : State) (m : Nat) (conv : Option ((Nat × Nat × Nat) × Option Nat)) (c : MadcConv) : List MadcReq :=
  c.reqs ++ match conv with
    | some (e, some i) =>
      if e.1 = 2 ∧ e.2 ≠ vat s.madc.prev m ∧ c.settle < 17 ∧ c.late = false then [((vat s.madc.queue m).getD i default).req] else []
    | _ => []

/-- A plausibility slot ends (R592, R603 to R606): a converter that did not end in time has failed. -/
def State.plausEnds (s : State) (c0 c1 : MadcConv) : State :=
  let late := fun (m : Nat) (c : MadcConv) (z : State) => if s.serves m ∧ c.late then (z.set1 (F.SAFE_MADC_STAT_TOUT m)).madcFails m else z
  if (s.serves 0 ∧ c0.late) ∨ (s.serves 1 ∧ c1.late) then late 1 c1 (late 0 c0 s)
  else if s.serves 0 ∧ s.serves 1 then s.plausible (madcCode c0.volts) (madcCode c1.volts)
  else if s.serves 0 then s.ranged 0 (madcCode c0.volts)
  else if s.serves 1 then s.ranged 1 (madcCode c1.volts)
  else s

/-- MADC_SLOT (R592 to R608): the slot that both converters are at ends. Results of a failed converter are discarded. -/
def execMadcSlot (convs : MadcConv × MadcConv) (s : State) : Host.Outcome State Fault Refusal :=
  let k0 := s.slotConv 0
  let k1 := s.slotConv 1
  let ends := fun (m : Nat) (k : Option ((Nat × Nat × Nat) × Option Nat)) (c : MadcConv) (z : State) =>
    match k with
    | some e => if s.madc.slot % 10 = 0 then z else z.convEnds m e.1 c
    | none => z
  let s1 := if s.madc.slot % 10 = 0 then s.plausEnds convs.1 convs.2 else s
  let s2 := ends 1 k1 convs.2 (ends 0 k0 convs.1 s1)
  .next (((s2.slotOver 0 k0 (s.slotReqs 0 k0 convs.1)).slotOver 1 k1 (s.slotReqs 1 k1 convs.2)).slotNext)

/-- MREF_CHECK (R602). -/
def execMrefCheck (madc : Fin 2) (ok : Bool) (s : State) : Host.Outcome State Fault Refusal :=
  if ok then .next s
  else
    let s1 := ((s.set1 F.SAFE_MADC_CFG_REFMODE).set1 (F.SAFE_MADC_STAT_REFFB madc.val)).showRef
    .next ((s1.fault ⟨0xA03, 0, rgSafe, 3, 0, madc.val, 0, false, false⟩).repCount rgSafe)

/-- RESUME lands (R609). -/
def State.madcResume (s : State) : State :=
  if s.mrole 0 = rlSole ∨ s.mrole 1 = rlSole then (s.clr (F.SAFE_MADC_STAT_SUSP 0)).clr (F.SAFE_MADC_STAT_SUSP 1) else s

/-! Host reads and tests (R611 to R615). -/

/-- A result word of a diagnostics or safety conversion (R615). -/
def resultWord (valid setl refns : Bool) (client input m sel code : Nat) : Word :=
  w32 (b2n valid * 2 ^ 31 + b2n setl * 2 ^ 30 + b2n refns * 2 ^ 29 + b2n (code = 0 || code = 4095) * 2 ^ 28 + client * 2 ^ 26
    + input * 2 ^ 16 + m * 2 ^ 15 + sel * 2 ^ 12 + code)

/-- Whether every channel of a group is Off. -/
def State.groupOff (s : State) (g : Nat) : Bool := (List.range 4).all fun k => s.phase (4 * g + k) = phOff || s.phase (4 * g + k) = phSlave

/-- The group that owns an input from 1 to 20 (R593, R612). -/
def inputGroup (i : Nat) : Nat := if i ≤ 2 then i else if i ≤ 14 then (i - 3) / 4 else (i - 15) % 3

def cardMadcRead : CmdSpec := ⟨0xA03, 1, 1, false, true, true, false, false, false, false⟩

/-- MADC_READ (R594, R601, R614, R615): `volts` are what the 2^AVG conversions in diagnostics slots meet, in µV. -/
def execMadcRead (p : Packet) (volts : List Nat) (setl refns : Bool) (s : State) : Host.Outcome State Fault Refusal :=
  s.card cardMadcRead p fun s =>
    let ws := p.payload
    let m := pf ws 0 31 1
    let i := pf ws 0 16 5
    let avg := pf ws 0 0 3
    let sel := if 15 ≤ i ∧ i ≤ 21 then pf ws 0 8 3 else 0
    let n := 2 ^ avg
    let cs := (List.range n).map fun k => madcCode (volts.getD k 0)
    let ns := refns && s.on F.SAFE_MADC_CFG_REFMODE
    if avg = 7 ∨ 23 < i then .bad 0
    else if s.serves m = false then .refuse stsDenied 2
    else if s.suspended then .refuse stsNoResource 0
    else if i = 0 then
      let c := s.rd (if m = 0 then F.SAFE_MADC_PLAUS_CODE0 else F.SAFE_MADC_PLAUS_CODE1)
      let w := resultWord true false false 0 0 m 0 c
      .done stsOk 0 [w, w32 (c * 2 ^ 16 + c)] [] (s.setReg (Reg.SAFE_MADC_LAST m) w)
    else if 15 ≤ i ∧ i ≤ 20 ∧ s.groupOff (inputGroup i) = false then .refuse stsDenied 2
    else
      let w := resultWord (!ns) setl ns 2 i m sel (roundFree (cs.foldl (· + ·) 0) n)
      let s1 := (s.modMadc fun x => { x with prev := vmod x.prev m fun _ => (i, sel) }).setReg (Reg.SAFE_MADC_LAST m) w
      let s2 := if setl then s1.set1 (F.SAFE_MADC_STAT_SETL m) else s1
      .done stsOk 0 [w, w32 (cs.foldl min (cs.headD 0) * 2 ^ 16 + cs.foldl max 0)] []
        (if ns then s2.set1 (F.SAFE_MADC_STAT_REFNS m) else s2)

/-- Whether a path test of an input is refused (R612). -/
def State.pathRefused (s : State) (m i sel : Nat) : Bool :=
  i = 0 || (1 ≤ i && i ≤ 20 && !s.groupOff (inputGroup i))
    || (m = 0 && i = 21 && ((sel = 1 && s.biasWant 0 ≠ 0) || (sel = 2 && s.biasWant 1 ≠ 0)))

def cardTdacTest : CmdSpec := ⟨0xA04, 2, 2, false, true, true, false, false, false, false⟩

/-- TDAC_TEST (R611 to R613): `volts1` and `volts2` are what the conversions at CODE1 and CODE2 meet, in µV. DESIGN CHOICE (log entry 98): one that waits replies
ST_PENDING with LEN 0. -/
def execTdacTest (p : Packet) (volts1 volts2 : Nat) (s : State) : Host.Outcome State Fault Refusal :=
  s.card cardTdacTest p fun s =>
    let ws := p.payload
    let m := pf ws 0 31 1
    let path := pf ws 0 8 2 = 1
    let i := if path then pf ws 0 0 5 else 23
    let sel := if path then pf ws 0 5 3 else 0
    let res1 := madcCode volts1
    let res2 := madcCode volts2
    let pass := tdacOk res1 (pf ws 1 16 10) && tdacOk res2 (pf ws 1 0 10)
    let w := resultWord true false false 2 i m sel res2
    if 1 < pf ws 0 8 2 ∨ (path ∧ 22 < i) then .bad 0
    else if s.serves m = false ∨ (path ∧ s.pathRefused m i sel) then .refuse stsDenied 2
    else if s.suspended then .refuse stsNoResource 0
    else s.unlessBusy [.tdac] <|
      if s.madc.arb then .pend [] [.tdac] (s.modMadc fun x => { x with tdac := some (m, w) })
      else .done stsOk 0 [w32 (b2n pass * 2 ^ 31 + res1 * 2 ^ 16 + res2), w] [] (s.setReg (Reg.SAFE_MADC_LAST m) w)

end Sys2Proof.Machine
end

