-- ==== Sys2Proof/Machine/Protect.lean ====
section
/-!
DEFINITION. Current limit, shorts, the DC detector, PVDD and thermal protection (spec/08_speaker_channels.md, R382 to R393).
-/

namespace Sys2Proof.Machine

/-- ILIM_TRIP (R387, R388, R379): the eighth limited period in a row is a SHORT. -/
def execIlimTrip (chan : Fin 12) (legM : Bool) (period : TripPeriod) (s : State) : Host.Outcome State Fault Refusal :=
  let n := s.master chan.val
  if s.legActs (chan.val / 4) (nodeOf chan.val (b2n legM)) then
    let k := (s.spk n).run
    let run := match period with
      | .same => max k 1
      | .next => k + 1
      | .later => 1
    let s1 := ((s.set1 (F.OUT_SPK_STAT_ILIMHIT n)).modSpk n fun x => { x with run := run }).acSpoil n
    if 8 ≤ run then
      .next (((s1.set1 (F.OUT_SPK_STAT_SHORT n)).modSpk n fun x => { x with unclass := true }).faultHold n 0x301)
    else .next s1
  else .next s

/-- SHORT_CLASSIFY (R389, R390): SCLASS and the SHORT record; with INTERNAL the failing leg is regrown, or the channel is tail-dropped. -/
def execShortClassify (chan : Fin 12) (own slave : ChanTest) (s : State) : Host.Outcome State Fault Refusal :=
  let n := s.master chan.val
  if s.phase n = phFault ∧ (s.spk n).why = 0x301 ∧ (s.spk n).unclass then
    let c := s.sclassOf n own slave
    let s1 := (s.wr (F.OUT_SPK_STAT_SCLASS n) c).recordShort n c
    .next ((s.failing n own slave).foldl (fun (s : State) (l : Nat × Nat) => s.legFault (l.1 / 4) (nodeOf l.1 l.2) false) s1)
  else .next s

/-- RETRY_PULSE (R391): `limited` says that 8 limited periods in a row were met; the node tests follow. -/
def execRetryPulse (chan : Fin 12) (limited : Bool) (tests : ChanTest × ChanTest) (s : State) : Host.Outcome State Fault Refusal :=
  let n := chan.val
  if held (s.phase n) ∧ (s.spk n).why = 0x301 ∧ (s.spk n).unclass = false ∧ s.on (F.OUT_SPK_CTRL_RETRY n) ∧ s.chipSafe = false then
    if limited then .next (s.set1 (F.OUT_SPK_STAT_ILIMHIT n))
    else if s.nodeClass n tests.1 tests.2 = 0 then .next ((s.clr (F.OUT_SPK_STAT_SHORT n)).restart n)
    else .next s
  else .next s

/-- DC_WINDOW (R392): the averages of a 5 ms window in mV; a channel plays in Unmute, Play and Mute. -/
def execDcWindow (chan : Fin 12) (measured commanded : Int) (s : State) : Host.Outcome State Fault Refusal :=
  let n := s.master chan.val
  if phUnmute ≤ s.phase n ∧ s.phase n ≤ phMute then
    let bad := decide (100 * max 1 (s.rd (F.OUT_SPK_LIMIT_DCTHR n)) < (measured - commanded).natAbs)
    if bad ∧ (s.spk n).dcBad then
      .next (((s.set1 (F.OUT_SPK_STAT_DCLOAD n)).outFault 0x306 3 0 n 0 false).faultHold n 0x306)
    else .next (s.modSpk n fun x => { x with dcBad := bad })
  else .next s

/-! PVDD (R393, R81). -/

/-- A channel that is not Off goes Hi-Z because its PVDD is out of range: it is Off, and starts again if it was enabled. -/
def State.pvddDrop (s : State) (n : Nat) : State :=
  let x := s.spk n
  if s.phase n = phOff ∨ s.phase n = phSlave ∨ held (s.phase n) then s
  else
    let again := x.on && x.stopWait.isNone
    let s1 := (s.toOff n).modSpk n fun x => { x with on := again, start := again }
    s1.chanLost n

/-- PVDD of a group leaves its range. -/
def State.pvddOut (s : State) (g code : Nat) : State :=
  if s.on (F.OUT_G_STAT_PVDDOK g) then
    let s1 := (s.clr (F.OUT_G_STAT_PVDDOK g)).outFault code 0 0 (0x10 + g) 0 true
    forEach (fun k s =>
      let n := 4 * g + k
      let s2 := if code = 0x307 ∧ s.phase n ≠ phOff ∧ s.phase n ≠ phSlave then s.set1 (F.OUT_SPK_STAT_PVDDUV n) else s
      (s2.diagAbort n).pvddDrop n) 4 s1
  else s

/-- PVDDUV (R393). -/
def execPvdduv (g : Fin 3) (s : State) : Host.Outcome State Fault Refusal := .next (s.pvddOut g.val 0x307)

/-- PVDDOV (R393). -/
def execPvddov (g : Fin 3) (s : State) : Host.Outcome State Fault Refusal :=
  .next ((s.pvddOut g.val 0x308).modGrp g.val fun x => { x with ovHeld := true })

/-- PVDD_RESTART (R393, R805): PVDD has stayed in range for 10 ms. -/
def execPvddRestart (g : Fin 3) (s : State) : Host.Outcome State Fault Refusal :=
  let g := g.val
  let s0 := s.modGrp g fun x => { x with ovHeld := false }
  let s1 := ((s0.set1 (F.OUT_G_STAT_PVDDOK g)).faultGone 0x307 0 (0x10 + g)).faultGone 0x308 0 (0x10 + g)
  .next (forEach (fun k s =>
    let n := 4 * g + k
    if s.phase n = phOff ∧ (s.spk n).start ∧ s.carrierOn g ∧ s.rd F.SAFE_SM_STAT_CSS ≠ 2 then s.beginCheck n else s) 4 s1)

/-! Temperature (R382 to R384). -/

/-- A value in 0.0001 dB in units of 0.125 dB. -/
def eighths (a : Nat) : Nat := min 255 (roundFree a 1250)

/-- EVT_THERMAL (R384). -/
def State.raiseThermal (s : State) (g kind : Nat) : State :=
  s.raise evThermal [w32 (kind * 2 ^ 28 + g * 2 ^ 24 + eighths (s.grp g).afb * 2 ^ 16 + s.rd (F.OUT_G_THERM_TJ g)),
    w32 (max 125 (s.rd (F.OUT_G_THERM_TFB g)))]

/-- FBRATE in 0.0001 dB per ms (OUT_Gx_THERM). -/
def fbRate (code : Nat) : Nat := [1, 2, 5, 10, 20, 30].getD code 30

/-- The multiples of a step that a move from `a0` to `a1` reaches (R384). -/
def crossings (a0 a1 st : Nat) : Nat :=
  if st = 0 then 0 else if a0 < a1 then a1 / st - a0 / st else (a0 - 1) / st - (a1 - 1) / st

/-- A_fb moves by one sample of 1 ms (R382, R384). -/
def State.foldBack (s : State) (g : Nat) : State :=
  let t := s.rd (F.OUT_G_THERM_TJ g)
  let tfb := max 125 (s.rd (F.OUT_G_THERM_TFB g)) + 64
  let rate := fbRate (s.rd (F.OUT_G_THERM_FBRATE g))
  let a0 := (s.grp g).afb
  let a1 := if tfb ≤ t then min 240000 (a0 + rate) else if t + 5 ≤ tfb then a0 - rate else a0
  if a1 = a0 then s
  else
    let s1 := ((s.modGrp g fun x => { x with afb := a1 }).wr (F.OUT_G_THERM_FBATT g) (eighths a1)).wr (F.OUT_G_STAT_FBACT g)
      (b2n (a1 ≠ 0))
    let s2 := if a0 = 0 then s1.raiseThermal g 1 else s1
    let s3 := forEach (fun _ s => s.raiseThermal g 2) (crossings a0 a1 (10000 * s.rd (F.OUT_G_THERM_TEVSTEP g))) s2
    if a1 = 0 then s3.raiseThermal g 3 else s3

/-- Thermal shut-down at 165 degrees, and the end of it below 145 degrees (R383). -/
def State.tshut (s : State) (g : Nat) : State :=
  let t := s.rd (F.OUT_G_THERM_TJ g)
  if 165 + 64 ≤ t ∧ s.on (F.OUT_G_STAT_TSHUT g) = false then
    let s1 := (s.set1 (F.OUT_G_STAT_TSHUT g)).outFault 0x305 0 0 (0x10 + g) 0 true
    let hit := maskOf 4 fun k =>
      !(s.phase (4 * g + k) = phOff || s.phase (4 * g + k) = phSlave || held (s.phase (4 * g + k)))
    (forMask hit (fun k s => (s.set1 (F.OUT_SPK_STAT_TSHUT (4 * g + k))).faultHold (4 * g + k) 0x305) 4
      (s1.modGrp g fun x => { x with shut := hit })).raiseThermal g 4
  else if t < 145 + 64 ∧ s.on (F.OUT_G_STAT_TSHUT g) then
    let s1 := ((s.clr (F.OUT_G_STAT_TSHUT g)).faultGone 0x305 0 (0x10 + g)).raiseThermal g 5
    let s2 := if s1.on (F.OUT_G_CFG_AUTORST g) ∧ s1.rd F.SAFE_SM_STAT_CSS ≠ 2 then
        forMask (s.grp g).shut (fun k s =>
          let n := 4 * g + k
          if s.phase n = phFault ∧ (s.spk n).why = 0x305 ∧ (s.spk n).on then s.restart n else s) 4 s1
      else s1
    s2.modGrp g fun x => { x with shut := 0 }
  else s

/-- THERMAL_SAMPLE (R382 to R384): the group's four sensors in degrees + 64. -/
def execThermalSample (g : Fin 3) (t0 t1 t2 t3 : BitVec 8) (s : State) : Host.Outcome State Fault Refusal :=
  let tj := max (max t0.toNat t1.toNat) (max t2.toNat t3.toNat)
  .next (((s.wr (F.OUT_G_THERM_TJ g.val) tj).foldBack g.val).tshut g.val)

end Sys2Proof.Machine
end

