-- ==== Sys2Proof/Machine/Inputs.lean ====
section
/-!
DEFINITION. The commands of the input front ends (spec/11_inputs_wake.md, R509 to R525, R561, R562).
-/

namespace Sys2Proof.Machine

def cardAinCfg : CmdSpec := ⟨0x400, 3, 3, true, true, true, false, false, false, true⟩

/-- AIN_CFG (R510 to R512, R525, R561). -/
def execAinCfg (p : Packet) (s : State) : Host.Outcome State Fault Refusal :=
  s.card cardAinCfg p fun s =>
    let ws := p.payload
    let ns := indices 4 (inMask (pf ws 0 0 4))
    let only := pb ws 2 31
    if ns = [] then .bad 0
    else if only = false ∧ s.feRate (pf ws 1 8 4) ≠ pf ws 1 8 4 then .bad 1
    else if 42 < pf ws 2 0 6 then .bad 2
    else s.unlessBusy (ns.map Target.ain) <| s.withDomains (ns.map dmAadc) fun s =>
      .ok (ns.foldl (fun (s : State) n =>
        let old := s.reg (Reg.IN_AADC_CFG n)
        let w := if only then putBits old 16 6 (pf ws 2 0 6) else pw ws 1 &&& 0x983FCF00
        (s.putReg (Reg.IN_AADC_CFG n) w).aadcChanged n old) s)

/-- PGA_APPLY (R510). -/
def execPgaApply (n : Fin 4) (s : State) : Host.Outcome State Fault Refusal :=
  .next (if s.on (F.IN_AADC_STAT_PGAPEND n.val) then
      (s.wr (F.IN_AADC_STAT_PGAACT n.val) (pgaTaken (s.rd (F.IN_AADC_CFG_PGA n.val)))).clr (F.IN_AADC_STAT_PGAPEND n.val)
    else s)

def cardMicbiasCfg : CmdSpec := ⟨0x401, 1, 1, true, true, true, false, false, false, true⟩

/-- MICBIAS_CFG (R515, R516). -/
def execMicbiasCfg (p : Packet) (s : State) : Host.Outcome State Fault Refusal :=
  s.card cardMicbiasCfg p fun s =>
    let ws := p.payload
    if 8 < pf ws 0 0 4 ∨ 8 < pf ws 0 8 4 then .bad 0
    else s.unlessBusy [.micbias 0, .micbias 1] <|
      .ok ((s.putReg Reg.IN_MICB_CFG (pw ws 0 &&& 0x8F8F)).micbChanged)

/-- MICBIAS_RAMP_DONE (R516): the bias output has come to its voltage. -/
def execMicbiasRampDone (n : Fin 2) (s : State) : Host.Outcome State Fault Refusal :=
  .next ((s.modInp fun i => { i with bias := vmod i.bias n.val fun b => { b with v0 := b.v1 } }).clr
    (if n.val = 0 then F.IN_FE_STAT_MB0RAMP else F.IN_FE_STAT_MB1RAMP))

/-- Whether DIV codes are admitted (R520). -/
def State.divsOk (s : State) (w : Word) : Bool :=
  [bits w 8 3, bits w 24 3].all fun d => d ≤ 4 || (d = 5 && s.rd F.CTL_CLK_STAT_AUDFAM = 0)

/-- Whether the ratio of every enabled microphone suits its MODE (R522). -/
def State.ratiosOk (s : State) : Bool := (List.range 8).all fun k => !s.micEn k || s.ratioOk k

def cardPdmCfg : CmdSpec := ⟨0x402, 3, 3, true, true, true, false, false, false, true⟩

/-- PDM_CFG (R520 to R522, R525, R562): PDM_CLK pads held over BRUMATE are released (spec/14_power_states.md, R640). -/
def execPdmCfg (p : Packet) (s : State) : Host.Outcome State Fault Refusal :=
  s.card cardPdmCfg p fun s =>
    let ws := p.payload
    let mask := pf ws 2 0 8
    let men := (s.rd F.IN_PDM_MIC_MEN &&& (255 - mask)) ||| (pf ws 1 0 8 &&& mask)
    let t := (s.putReg Reg.IN_PDM_CFG (pw ws 0 &&& 0x877F8770)).putReg Reg.IN_PDM_MIC (putBits (s.reg Reg.IN_PDM_MIC) 0 8 men)
    let clocked := pb ws 0 15 || pb ws 0 31
    if s.divsOk (pw ws 0) = false ∨ t.ratiosOk = false then .bad 0
    else s.unlessBusy [.pdm] <| s.withDomains [dmPdm] fun u =>
      let u1 := ((u.putReg Reg.IN_PDM_CFG (pw ws 0 &&& 0x877F8770)).putReg Reg.IN_PDM_MIC (putBits (u.reg Reg.IN_PDM_MIC) 0 8 men)).pdmChanged u
      .ok (if clocked then u1.releasePads 0 else u1)

end Sys2Proof.Machine
end

