-- ==== Sys2Proof/Machine/Wake.lean ====
section
/-!
DEFINITION. The wake tap, the tadpole buffer, the privacy gate, the wake detector, PTT_N and handover (spec/11_inputs_wake.md,
R526 to R557, R563 to R565).
-/

namespace Sys2Proof.Machine

open Crypto (shaWords)

/-! The gate (R534 to R542). -/

def gtSealed : Nat := 0
def gtOpen : Nat := 1
def gtZero : Nat := 2

def State.gate (s : State) : Nat := s.rd F.IN_TAD_STAT_GATE
def State.modTad (s : State) (f : Tad → Tad) : State := { s with tad := f s.tad }
def State.modWkd (s : State) (f : WkdX → WkdX) : State := { s with wkd := f s.wkd }

/-- EVT_WAKE of an opening event (R547): word 0 holds SRC and SCORE, `D` is the event's index. -/
def State.raiseWake (s : State) (w0 : Word) (d : Nat) : State :=
  let g := s.rd64 Reg.IN_TAD_GSTART_LO
  s.raise evWake [w32 (w0.toNat + min 0xFFFFF (d - g)), w32 g, w32 (g / 2 ^ 32)]

/-- EVT_WAKE of an event that opens no gate (R547, R551, R552). -/
def State.raiseWakeOnly (s : State) (w0 : Word) : State := s.raise evWake [w0, 0xFFFFFFFF, 0xFFFFFFFF]

/-- The gate opens with its readable span from `start` (R536, R539). -/
def State.openAt (s : State) (start d : Nat) (w0 : Word) : State :=
  let s1 := (s.wr64 Reg.IN_TAD_GSTART_LO start).wr64 Reg.IN_TAD_GOPEN_LO (s.rd64 Reg.IN_TAD_WIDX_LO)
  ((s1.wr F.IN_TAD_STAT_GATE gtOpen).modTad fun t => { t with timer := some s.now, opens := none }).raiseWake w0 d

/-- An opening event with index `d` and pre-roll `pre` in frames; with the gate open it restarts a running GATETO timer (R536, R540, R541). -/
def State.openGate (s0 : State) (d pre : Nat) (w0 : Word) : State :=
  let s := s0.modTad fun t => { t with last := some ⟨t.tidx, d, pre, w0, s0.gate = gtSealed⟩ }
  if s.gate = gtZero then (if s.tad.opens.isSome then s else s.modTad fun t => { t with opens := some (d, w0) })
  else if s.gate = gtOpen then (s.modTad fun t => { t with timer := t.timer.map fun _ => s.now }).raiseWake w0 d
  else s.openAt (max (s.rd64 Reg.IN_TAD_OLDEST_LO) (d - pre)) d w0

/-- Every handover stream closes, as the gate seals (R542). -/
def State.closeHandovers (s : State) : State :=
  (s.strs.filter (fun x => s.isHandover x.sid)).foldl (fun s x => s.closeStr x.sid) s

/-- The gate leaves OPEN (R535, R542). -/
def State.sealGate (s : State) : State :=
  if s.gate = gtOpen then ((s.wr F.IN_TAD_STAT_GATE gtSealed).modTad fun t => { t with timer := none }).closeHandovers else s

/-- An opening event of the tap period under way. -/
def State.openingNow (s : State) : Option GateOpening :=
  match s.tad.last with
  | some o => if o.tidx = s.tad.tidx then some o else none
  | none => none

/-- A close of the gate. One in the tap period of an opening event comes before it: a gate that the event opened stays open, one that was open is
opened anew (R541). -/
def State.closeGate (s : State) : State :=
  match s.openingNow with
  | some o => if o.anew ∨ s.gate ≠ gtOpen then s
    else s.sealGate.openAt (max (s.rd64 Reg.IN_TAD_OLDEST_LO) (o.d - o.pre)) o.d o.w0
  | none => s.sealGate

/-- The tadpole window reads zeros (R534). -/
def State.clearTad (s : State) : State := { s with mem := s.mem.filter fun c => decide (c.1 < 0xA00000 ∨ 0xA80000 ≤ c.1) }

/-- Zeroisation begins: the buffer is zeros, the gate shut; an opening event of the same tap period comes after it (R534, R541). -/
def State.zeroise (s : State) : State :=
  ((s.sealGate.modTad fun t => { t with opens := if t.opens.isSome then t.opens else s.openingNow.map fun o => (o.d, o.w0) }).wr
    F.IN_TAD_STAT_GATE gtZero).clearTad

/-- OLDEST follows (R533). -/
def State.showOldest (s : State) : State :=
  s.wr64 Reg.IN_TAD_OLDEST_LO (max (s.rd64 Reg.IN_TAD_WIDX_LO - s.tapF) s.tad.first)

/-- ZEROISE_DONE (R534, R541). -/
def execZeroiseDone (s : State) : Host.Outcome State Fault Refusal :=
  if s.gate = gtZero then
    let w := s.rd64 Reg.IN_TAD_WIDX_LO
    let s1 := ((s.modTad fun t => { t with first := w }).wr64 Reg.IN_TAD_OLDEST_LO w).wr F.IN_TAD_STAT_GATE gtSealed
    match s.tad.opens with
    | some (d, w0) => .next (s1.openAt w d w0)
    | none => .next s1
  else .next s

/-- Whether the GATETO timer has run for GATETO seconds (R539). -/
def State.gateExpired (s : State) : Bool :=
  match s.tad.timer with
  | some t => decide (t + 24576000 * s.rd F.IN_TAP_CFG_GATETO ≤ s.now)
  | none => false

/-- GATE_TIMEOUT (R539). -/
def execGateTimeout (s : State) : Host.Outcome State Fault Refusal :=
  let waits := s.strs.any fun x => s.isHandover x.sid &&
    (s.rd (F.DSP_STR_STAT_STATE x.sid) = stmWait || s.rd (F.DSP_STR_STAT_STATE x.sid) = stmRun)
  .next (if s.gateExpired ∧ waits = false then s.closeGate else s)

/-! DECIM_CFG (R512, R522, R524, R525, R534, R563). -/

def cardDecimCfg : CmdSpec := ⟨0x403, 2, 2, true, true, true, false, false, false, true⟩

/-- The tap's sources as a mask of the sources that the wake detector uses. -/
def State.wkdSources (s : State) : List Nat :=
  if s.on F.IN_WKD_CFG_EN then [s.rd F.IN_WKD_CFG_SRC0, s.rd F.IN_WKD_CFG_SRC1].filter (· < 12) else []

/-- DECIM_CFG. -/
def execDecimCfg (p : Packet) (s : State) : Host.Outcome State Fault Refusal :=
  s.card cardDecimCfg p fun s =>
    let ws := p.payload
    let map := pf ws 1 16 12
    let en := pf ws 1 31 1
    let w24 := pf ws 1 30 1
    let mic := putBits (putBits (s.reg Reg.IN_PDM_MIC) 16 16 (pf ws 0 16 16)) 8 4 (pf ws 0 8 4)
    let remap := map ≠ s.rd F.IN_TAP_CFG_TAPMAP ∨ w24 ≠ s.rd F.IN_TAP_CFG_W24
    let retap := en ≠ s.rd F.IN_TAP_CFG_TAPEN
    if s.feRate (pf ws 0 8 4) ≠ pf ws 0 8 4 then .refuse stsBadParam 2
    else if (s.setReg Reg.IN_PDM_MIC mic).ratiosOk = false then .refuse stsBadParam 1
    else if 8 < (indices 12 (inMask map)).length ∨ pf ws 1 12 4 = 0 then .bad 1
    else if (remap ∨ retap) ∧ s.gate ≠ gtSealed then .refuse stsDenied 2
    else if s.wkdSources.any (fun k => !inMask map k) then .refuse stsDenied 2
    else s.unlessBusy [.decim] <| s.withDomains [dmPdm, dmTad] fun u =>
      let u1 := (u.putReg Reg.IN_PDM_MIC mic).pdmChanged u
      let u2 := u1.setReg Reg.IN_TAP_CFG (putBits (u1.reg Reg.IN_TAP_CFG) 12 20 ((pw ws 1).toNat / 2 ^ 12 &&& 0xCFFFF))
      let u3 := (u2.wr F.IN_TAD_STAT_NCH u2.tapN).wr F.IN_TAD_STAT_CAP (if en = 1 then u2.tapF else 0)
      let u4 := if en = 1 ∧ retap then u3.modTad fun t => { t with first := t.tidx, again := u.on F.IN_TAD_STAT_PTTLVL } else u3
      .ok (if remap ∨ (retap ∧ en = 0) then u4.zeroise else u4.showOldest)

/-! The tap (R526 to R533). -/

/-- A tap sample as the buffer stores it (R531). -/
def tapCode (w24 : Bool) (a : Sample) : Nat :=
  let b := if w24 then 24 else 16
  if a.is tgValid then
    let v := (toBits b a.val).1
    (BitVec.ofInt b (if v = -(2 ^ (b - 1) : Nat) then v + 1 else v)).toNat
  else 2 ^ (b - 1)

/-- The tap sources in rising order of their codes (R532). -/
def State.tapSources (s : State) : List Nat := indices 12 (inMask (s.rd F.IN_TAP_CFG_TAPMAP))

/-- The samples of a tap period, invalid where a source is off or settles (R525, R526). -/
def State.tapFrame (s : State) (samples : List Sample) : List Sample :=
  (List.range s.tapN).map fun k =>
    let src := s.tapSources.getD k 0
    if s.tapRuns src ∧ vat s.inp.tapRun src = 0 then samples.getD k invalidSample else invalidSample

/-- The bytes of one stored sample. -/
def State.putTap (s : State) (a n v : Nat) : State :=
  forEach (fun k s => s.setByte (a + k) (BitVec.ofNat 8 (v / 256 ^ k))) n s

/-- The detector's inputs see a frame: more than 160 invalid frames in a row clear its state (R546). -/
def State.wkdFrame (s : State) (fr : List Sample) : State :=
  let at' (src : Nat) : Bool := (fr.getD ((s.tapSources.filter (· < src)).length) invalidSample).is tgValid
  let bad (src n : Nat) : Nat := if src < 12 ∧ at' src = false then n + 1 else 0
  if s.on F.IN_WKD_CFG_EN then
    let a := bad (s.rd F.IN_WKD_CFG_SRC0) s.wkd.inv0
    let b := bad (s.rd F.IN_WKD_CFG_SRC1) s.wkd.inv1
    if a = 161 ∨ b = 161 then (s.modWkd fun x => { x with inv0 := a, inv1 := b, run := 0, quiet := 0, fed := 0 }).set1 F.IN_WKD_STAT_RESET
    else s.modWkd fun x => { x with inv0 := a, inv1 := b, fed := x.fed + 1 }
  else s

/-- A press is declared with index `d` (R551). -/
def State.pressAt (s : State) (d : Nat) : State :=
  let s1 := s.set1 F.IN_TAD_STAT_PTTLVL
  if s.on F.IN_TAP_CFG_TAPEN then s1.openGate d (160 * s.rd F.IN_TAP_CFG_PTTPRE) (w32 (2 * 2 ^ 28))
  else s1.drawn.raiseWakeOnly (w32 (2 * 2 ^ 28 + bits s1.free 0 20))

/-- MB0OVC and MB1OVC set while a bias output that is on, or on its way, limits its current (R516, R517). -/
def State.biasLimit (s : State) (limits : BitVec 2) : State :=
  let s1 := if limits.getLsbD 0 ∧ (s.on F.IN_MICB_CFG_EN0 ∨ s.on F.IN_FE_STAT_MB0RAMP) then s.set1 F.IN_FE_STAT_MB0OVC else s
  if limits.getLsbD 1 ∧ (s.on F.IN_MICB_CFG_EN1 ∨ s.on F.IN_FE_STAT_MB1RAMP) then s1.set1 F.IN_FE_STAT_MB1OVC else s1

/-- TAP_PERIOD (R517, R525, R526, R530 to R533, R551): a tap period ends. -/
def execTapPeriod (tap : TapInput) (s : State) : Host.Outcome State Fault Refusal :=
  if ¬ (stListen ≤ s.pstate) then .next s
  else
    let samples := tap.samples
    let s := (forEach (fun k z => if 8 ≤ z.tapSources.getD k 0 ∧ (samples.getD k invalidSample).is tgClip then
      z.set1 (F.IN_AADC_STAT_OVL (z.tapSources.getD k 0 - 8)) else z) s.tapN (s.biasLimit tap.limits)).runsPass
    let i := s.tad.tidx
    let en := s.on F.IN_TAP_CFG_TAPEN
    let fr := s.tapFrame samples
    let stores := en && s.gate ≠ gtZero && s.domOn dmTad
    let s1 := if stores then forEach (fun k s => s.putTap (s.tapAddr i k) s.tapBytes (tapCode (s.on F.IN_TAP_CFG_W24)
        (fr.getD k invalidSample))) s.tapN s else s
    let s2 := if en then (s1.modInp fun q => { q with tapRun := Vector.ofFn fun j => vat q.tapRun j.val - 1 }).wkdFrame fr else s1
    let s3 := (s2.modTad fun t => { t with tidx := i + 1, first := if stores then t.first else i + 1 }).wr64 Reg.IN_TAD_WIDX_LO (i + 1)
    let s4 := if s3.gate = gtZero then s3 else s3.showOldest
    .next (if en ∧ s4.tad.again then (s4.modTad fun t => { t with again := false }).pressAt i else s4)

/-! The wake detector (R544 to R550, R564). -/

def cardWkdLoad : CmdSpec := ⟨0x410, 3, 3, true, true, true, false, false, false, true⟩

/-- WKD_LOAD (R549, R564). -/
def execWkdLoad (p : Packet) (s : State) : Host.Outcome State Fault Refusal :=
  s.card cardWkdLoad p fun s =>
    let ws := p.payload
    let ofs := pf ws 0 2 19 * 4
    if s.spanOn ofs (pf ws 1 0 21) = false then .bad 0
    else s.unlessBusy [.wkd] <|
      if s.on F.IN_WKD_CFG_EN then .refuse stsDenied 2
      else s.withDomains [dmWkd] fun s =>
        let h := s.words (0x800000 + ofs) 6
        .pend [pw h 2, w32 (pf h 5 24 8 * 2 ^ 24 + pf h 4 0 18)] [.wkd] s

/-- Whether a model image's header and sizes are valid (R548, R549). -/
def wkdHeaderOk (img : List Word) : Bool :=
  let n := pf img 4 0 18
  let wofs := (pw img 6).toNat
  pw img 0 = 0x574B4431 && pw img 1 = 0x00010008 && pw img 7 = crc32c (img.take 7) && decide (1 ≤ n ∧ n ≤ 131072)
    && decide (1 ≤ pf img 5 16 4 ∧ pf img 5 16 4 ≤ 8) && (pf img 5 0 2 = 1 || pf img 5 0 2 = 2)
    && decide (32 ≤ wofs ∧ wofs + n ≤ 4 * (img.length - 34))

/-- The checks of R549 after the first, on the image; none where they all pass. -/
def State.wkdCheck (s : State) (img : List Word) (len : Nat) (expid : Word) : Option (Nat × Nat) :=
  if len % 4 ≠ 0 ∨ s.modelSigned img = false then some (stsAuthFail, 0)
  else if (pw img 3).toNat < s.wkdRoll then some (stsDenied, 4)
  else if wkdHeaderOk img = false then some (stsBadParam, 1)
  else if expid ≠ 0 ∧ pw img 2 ≠ expid then some (stsBadParam, 3)
  else none

/-- WKD_LOAD_DONE (R548, R549, R564): a poisoned word of the image makes the signature fail. -/
def execWkdLoadDone (s : State) : Host.Outcome State Fault Refusal :=
  match s.atWork? 0x410 with
  | none => .next s
  | some e =>
    let ofs := pf e.payload 0 2 19 * 4
    let len := pf e.payload 1 0 21
    let img := s.words (0x800000 + ofs) (len / 4)
    let bad := s.poisonIn ofs len
    let s1 := bad.foldl State.deliverPoison s
    match (if bad ≠ [] then some (stsAuthFail, 0) else s1.wkdCheck img len (pw e.payload 2)) with
    | some (st, d) => .next ((if st = stsAuthFail then s1.authFailed else s1).finish e st d [] [])
    | none =>
      let n := pf img 4 0 18
      let m : WkdModel := ⟨(pw img 3).toNat, shaWords img, pf img 5 24 8, pf img 5 16 4, pf img 5 0 2, (img.drop ((pw img 6).toNat / 4)).take ((n + 3) / 4)⟩
      let s2 := ((s1.modWkd fun x => { x with model := some m }).set1 F.IN_WKD_CFG_LOADED).setReg Reg.IN_WKD_MODEL (pw img 2)
      .next (s2.finish e stsOk 0 [] [])

def cardWkdEnable : CmdSpec := ⟨0x411, 1, 1, true, true, true, false, false, false, true⟩

/-- WKD_ENABLE (R550): a disable waits for the end of the hop under way. -/
def execWkdEnable (p : Packet) (s : State) : Host.Outcome State Fault Refusal :=
  s.card cardWkdEnable p fun s =>
    let ws := p.payload
    let s0 := pf ws 0 16 4
    let s1 := pf ws 0 20 4
    let mapped (k : Nat) : Bool := k < 12 && inMask (s.rd F.IN_TAP_CFG_TAPMAP) k
    if pb ws 0 31 = false then s.unlessBusy [.wkd] <| .ok (if s.on F.IN_WKD_CFG_EN then s.modWkd fun x => { x with stop := true } else s)
    else if s0 = 0xF then .bad 0
    else
      match s.wkd.model with
      | none => .refuse stsDenied 2
      | some m =>
        if ¬ mapped s0 ∨ (s1 ≠ 0xF ∧ ¬ mapped s1) ∨ ¬ s.on F.IN_TAP_CFG_TAPEN ∨ (m.nin = 2 ∧ s1 = 0xF) then .bad 0
        else s.unlessBusy [.wkd] <| s.withDomains [dmWkd] fun s =>
          .ok ((s.modWkd fun x => { x with run := 0, quiet := 0, inv0 := 0, inv1 := 0, stop := false, fed := 0 }).setReg Reg.IN_WKD_CFG
            (putBits (s.reg Reg.IN_WKD_CFG) 0 24 (bits (pw ws 0) 0 24) ||| 0x80000000))

/-- WKD_HOP (R544 to R547, R550): `score` is what the network computes over the 25 ms window; there is none until the detector has taken in a
window since it was cleared. D is the last tap frame of the hop. -/
def execWkdHop (score : BitVec 8) (s : State) : Host.Outcome State Fault Refusal :=
  match s.wkd.model with
  | none => .next s
  | some m =>
    if ¬ s.on F.IN_WKD_CFG_EN then .next s
    else
      let thr := if s.rd F.IN_WKD_CFG_THR = 0 then m.thrdef else s.rd F.IN_WKD_CFG_THR
      let scored := decide (400 ≤ s.wkd.fed)
      let run := if scored ∧ thr ≤ score.toNat then s.wkd.run + 1 else 0
      let hit := scored && decide (m.hops ≤ run) && s.wkd.quiet = 0
      let s0 := s.modWkd fun x => { x with run := if hit then 0 else run, quiet := if hit then 50 else x.quiet - 1, stop := false }
      let s1 := if scored then s0.wr F.IN_WKD_STAT_SCORE score.toNat else s0
      let s2 := if hit then
          ((s1.set1 F.IN_WKD_STAT_DET).sat F.IN_WKD_STAT_DETCNT 1).openGate (160 * (s.tad.tidx / 160) - 1) (160 * s.rd F.IN_WKD_CFG_PREROLL)
            (w32 (2 ^ 28 + score.toNat * 2 ^ 20))
        else s1
      .next (if s.wkd.stop then s2.clr F.IN_WKD_CFG_EN else s2)

/-! PTT_N (R551, R552, R565). -/

def cardPttCfg : CmdSpec := ⟨0x413, 1, 1, true, true, true, false, false, false, true⟩

/-- PTT_CFG (R565). -/
def execPttCfg (p : Packet) (s : State) : Host.Outcome State Fault Refusal :=
  s.card cardPttCfg p fun s =>
    let ws := p.payload
    let s1 := ((s.wr F.IN_TAP_CFG_PTTEN (pf ws 0 31 1)).wr F.IN_TAP_CFG_RELCLOSE (pf ws 0 30 1)).wr F.IN_TAP_CFG_PTTPRE (pf ws 0 0 8)
    s.unlessBusy [.ptt] <| .ok (if pb ws 0 31 then s1 else (s1.clr F.IN_TAD_STAT_PTTLVL).modTad fun t => { t with again := false })

/-- PTT_PRESS (R551): the press index is that of the first of 160 low frames. -/
def execPttPress (s : State) : Host.Outcome State Fault Refusal :=
  .next (if stListen ≤ s.pstate ∧ s.on F.IN_TAP_CFG_PTTEN ∧ ¬ s.on F.IN_TAD_STAT_PTTLVL then s.pressAt (s.tad.tidx - 160) else s)

/-- PTT_RELEASE (R552). -/
def execPttRelease (s : State) : Host.Outcome State Fault Refusal :=
  if stListen ≤ s.pstate ∧ s.on F.IN_TAP_CFG_PTTEN ∧ s.on F.IN_TAD_STAT_PTTLVL then
    let s1 := ((s.clr F.IN_TAD_STAT_PTTLVL).modTad fun t => { t with again := false }).raiseWakeOnly (w32 (4 * 2 ^ 28))
    .next (if s.on F.IN_TAP_CFG_RELCLOSE then s1.closeGate else s1)
  else .next s

/-! Handover (R553 to R557). -/

def cardWakeHandover : CmdSpec := ⟨0x412, 2, 2, true, true, true, true, false, false, false⟩

/-- The gate seals at the host's word (R557); no stream, so no S0. -/
def State.handoverClose (s : State) : Res :=
  let s1 := s.closeGate.drawn
  .done stsOk 0 [w32 (s1.gate * 2 ^ 30), s1.free, s1.drawn.free, w32 (s1.rd F.IN_TAD_STAT_CAP)] [] s1.drawn.drawn

/-- The body of WAKE_HANDOVER (R553, R554; spec/05_streams_ports.md, R204, R205). -/
def State.handover (s : State) (ws : List Word) : Res :=
  let ring := pf ws 0 16 4
  let nch := pf ws 0 12 3 + 1
  let ch := pf ws 0 8 3
  let start := pf ws 0 28 2
  let g0 := s.rd64 Reg.IN_TAD_GSTART_LO
  let wx := s.rd64 Reg.IN_TAD_WIDX_LO
  let i0 := if start = 0 then g0 else if start = 1 then g0 + pf ws 1 0 20 else wx
  if start = 3 ∨ s.tapN < ch + nch ∨ pf ws 0 24 2 = 3 ∨ ring < 4 ∨ ¬ s.ringOn ring ∨ ¬ s.on (F.DSP_RING_CFG_DIR ring) then .bad 0
  else if s.gate ≠ gtOpen then .refuse stsDenied 2
  else if i0 < g0 ∨ wx < i0 then .bad 1
  else
    match s.sidPick (pf ws 0 0 7) with
    | none => .refuse stsNoResource 1
    | some sid =>
      if s.claimed 6 ring nch false then .refuse stsNoResource 2
      else s.unlessBusy [.stream sid, .gate] <|
        let s1 := (s.openContext sid 0xA ch 6 ring nch (pf ws 0 24 2) (pf ws 1 31 1) 0 0x3F 0 3).wr64 (Reg.DSP_STR_IDX_LO sid) i0
        let s2 := (s1.openStr (newStreamX sid 0 0 0 nch)).modTad fun t => { t with timer := none }
        .done stsOk 0 [w32 (gtOpen * 2 ^ 30 + sid), w32 i0, w32 (i0 / 2 ^ 32), w32 (s.rd F.IN_TAD_STAT_CAP)] [] s2

/-- WAKE_HANDOVER (R553, R554, R557). -/
def execWakeHandover (p : Packet) (s : State) : Host.Outcome State Fault Refusal :=
  s.card cardWakeHandover p fun s => if pb p.payload 0 31 then s.handoverClose else s.handover p.payload

/-- WAKE_HANDOVER with CLOSE (R557). -/
def execWakeHandoverClose (p : Packet) (s : State) : Host.Outcome State Fault Refusal :=
  s.card cardWakeHandover { p with payload := p.payload.modifyHead (· ||| 0x80000000) } fun s => s.handoverClose

end Sys2Proof.Machine
end

