-- ==== Sys2Proof/Machine/PowerCore.lean ====
section
/-!
DEFINITION. What the power manager does in the steps of a transition (spec/14_power_states.md, R619 to R641): teardown, retention, the
wake record and the exit from BRUMATE.
-/

namespace Sys2Proof.Machine

def State.modPwr (s : State) (f : Pwr → Pwr) : State := { s with pwr := f s.pwr }

/-- The state takes a code (R617). -/
def State.setState (s : State) (st : Nat) : State := s.wr F.PWR_STATE_STATE st

/-- The target of the transition under way. -/
def State.target (s : State) : Nat := s.rd F.PWR_STATE_TARGET

/-- The phase of R629 under way. -/
def State.pphase (s : State) : Nat := s.rd F.PWR_STATE_PHASE

/-! Wake sources (R630 to R634, R638). -/

/-- The wake mode of a GPIO; 0 on a pin whose detector is disabled (R634; spec/16_security.md, R727). -/
def State.gpioMode (s : State) (k : Nat) : Nat :=
  if inMask (s.rd F.PWR_GPIO_IO_OE) k ∨ s.micPin? = some k then 0 else s.rd (F.PWR_GPIO_WAKE_MODE k)

/-- Whether a wake source is armed (R657). -/
def State.wakeArmed (s : State) : Bool :=
  s.on F.PWR_WAKECFG_WBEN || s.on F.PWR_WAKECFG_PTTWK || (List.range 8).any fun k => s.gpioMode k ≠ 0

/-- Whether a wake mode fires as its pin goes from one level to another (R639). -/
def wakeFires (mode : Nat) (was is : Bool) : Bool :=
  ((mode = 1 || mode = 3 || mode = 4) && !was && is) || ((mode = 2 || mode = 3 || mode = 5) && was && !is)

/-- Whether a level mode's pin shows its active level. -/
def levelActive (mode : Nat) (lvl : Bool) : Bool := (mode = 4 && lvl) || (mode = 5 && !lvl)

/-- The place of a source code in the order of R638. -/
def sourceOrder (code : Nat) : Nat := if code = 3 then 0 else if code = 2 then 1 else 2

/-- A source latches: the first to latch, and the first in order at its AON edge, is FIRST (R638). -/
def State.latchWake (s : State) (code bit pins : Nat) : State :=
  let first := s.rd F.PWR_WAKESRC_SRCMAP = 0
  let s1 := (s.wr F.PWR_WAKESRC_SRCMAP (s.rd F.PWR_WAKESRC_SRCMAP ||| 2 ^ bit)).wr F.PWR_WAKESRC_GPIOMAP
    (s.rd F.PWR_WAKESRC_GPIOMAP ||| pins)
  if first then (s1.wr F.PWR_WAKESRC_FIRST code).wr64 Reg.PWR_WAKETIME_LO s.now
  else if s.now = s.rd64 Reg.PWR_WAKETIME_LO ∧ sourceOrder code < sourceOrder (s.rd F.PWR_WAKESRC_FIRST) then
    s1.wr F.PWR_WAKESRC_FIRST code
  else s1

/-- The GPIO pins whose level mode is active (R631). -/
def State.activePins (s : State) : Nat := maskOf 8 fun k => levelActive (s.gpioMode k) (inMask s.pwr.gpio k)

/-- The level of GPIOk's ball: that of MICIND's pin, high while the gate is OPEN or a microphone stream is open (spec/16_security.md,
R727), the driven level of an output, the outside level of an input. -/
def State.gpioLevel (s : State) (k : Nat) : Bool :=
  if s.micPin? = some k then
    s.rd F.IN_TAD_STAT_GATE = 1 || s.strs.any fun x => [4, 5, 0xA].contains (s.rd (F.DSP_STR_CFG_STYPE x.sid))
  else if inMask (s.rd F.PWR_GPIO_IO_OE) k then inMask (s.rd F.PWR_GPIO_IO_OUT) k
  else inMask s.pwr.gpio k

/-- PWR_GPIO_IO.IN shows the balls. -/
def State.showGpio (s : State) : State := s.wr F.PWR_GPIO_IO_IN (maskOf 8 s.gpioLevel)

/-! Domains (R642 to R645). -/

/-- Whether a domain's power-down can be reversed (R642). -/
def reversible (d : Nat) : Bool := !((0x10 ≤ d && d ≤ 0x17) || (0x1D ≤ d && d ≤ 0x20) || d = 0x23)

/-- An access that waited for a domain which a transition powers down is not performed (spec/03_register_access.md, R101). -/
def State.unstallLost (s : State) (ds : List Nat) : State :=
  (s.link.stalled.filter fun (x : Stalled) => ds.contains x.domain).foldl (fun (z : State) x =>
    let z1 : State := { z with link := { z.link with stalled := z.link.stalled.erase x, rdata := if x.write then z.link.rdata else 0,
                                                     marker := x.write && z.link.marker } }
    z1.hostErr x.iface errNopwr x.addr) s

/-- A transition powers domains down: their commands end with ST_STATE_BUSY (R626, R645). -/
def State.transDown (s : State) (ds : List Nat) : State :=
  let s1 := (s.unstallLost ds).finishAll (fun e => (e.opcode = 0x602 || e.opcode = 0x603) && ds.any fun d => e.targets.contains (.domain d)) stsStateBusy 0
  let s2 := s1.modPwr fun (q : Pwr) => { q with changes := q.changes.filter fun c => ¬ ds.contains c.domain }
  ds.foldl (fun s d => if d < 0x10 then s else s.clr (domBit d)) s2

/-- The non-bank domains, and those that LISTEN does not have (R642). -/
def allDomains : List Nat := (List.range 26).map (0x10 + ·)
def listenLacks : List Nat := allDomains.filter fun d => !domInListen d

/-- The WKD loses its model with its domain's power (R642). -/
def State.loseWkd (s : State) : State := s.modWkd fun (q : WkdX) => { q with model := none }

/-- A bank leaves ON or RET as RETSEL says (R337; spec/07_shared_banks.md, R335, R339, R348). -/
def State.bankDown (s : State) (b : Nat) : State :=
  if s.rd (F.DSP_SB_STAT_PWR b) = 3 then s
  else
    let s1 := s.marchLeaves b
    if s.on (F.DSP_SB_CFG_RETSEL b) ∧ s.rd (F.DSP_SB_STAT_PWR b) ≠ 2 then s1.wr (F.DSP_SB_STAT_PWR b) 1
    else (s1.loseBank b).wr (F.DSP_SB_STAT_PWR b) 2

/-- CLKON of every engine (spec/06_engines_leap.md; R617, R619). -/
def State.showClks (s : State) : State := forEach (fun n s => s.setRole n (s.role n) (s.rd (F.DSP_NE_STAT_LENG n))) 8 s

/-- The reserved spares' domains are up (R646). -/
def State.spareUp (s : State) : State := forMask (s.rd F.DSP_SPARE_SPMAP) (fun n s => s.domUp (dmEngine n)) 8 s

/-! The steps (R619, R621, R629). -/

/-- Every output is at rest below Play: none in Unmute, Play or Mute. -/
def State.quiet (s : State) : Bool :=
  (List.range 12).all (fun n => s.phase n ≠ phUnmute && s.phase n ≠ phPlay && s.phase n ≠ phMute)
    && (List.range 2).all fun o => s.hoPhase o ≠ hoUnmute && s.hoPhase o ≠ hoPlay && s.hoPhase o ≠ hoMute

/-- Every speaker, headphone and line output is Off or in Fault hold. -/
def State.silent (s : State) : Bool :=
  (List.range 12).all (fun n => s.phase n = phOff || s.phase n = phSlave || held (s.phase n))
    && s.hoPhase 0 = hoOff && s.hoPhase 1 = hoOff

/-- PLAY to IDLE begins: every output runs Mute. -/
def State.leavePlay (s : State) (fast : Bool) : State := (s.spkMuteAll fast).hpMuteAll

/-- PLAY to IDLE ends: the graph has stopped and stays armed, the engines are clock-gated, an online AC test ends
(spec/06_engines_leap.md, R312; spec/10_load_jack_diagnostics.md, R477). -/
def State.reachIdle (s : State) : State :=
  let s1 := s.modGraph fun (q : Graph) => { q with rearm := false }
  ((s1.acDrop (fun a => a.online) stsStateBusy).setState stIdle).showClks

/-- IDLE to PLAY ends: outputs in Hold run Unmute, the croaker lock sets at the first arrival (spec/16_security.md, R708). -/
def State.reachPlay (s : State) : State :=
  let s1 := (s.setState stPlay).showClks
  let s2 := if s1.out.lockArm then (s1.modOut fun (o : OutX) => { o with lockArm := false }).wr F.OUT_CRK_STAT_LOCKED (bits (s1.fuse 3) 8 1)
    else s1
  ((forEach (fun n s => s.tryUnmute n) 12 s2).outShow).hpJack

/-- IDLE to LISTEN begins: tests end, speaker channels run Discharge, headphone and line outputs Short; toward BRUMATE and OFF the CV
channels go to 0 V (spec/08_speaker_channels.md, R374; spec/12_headphone_line_cv.md, R575, R584). -/
def State.leaveIdle (s : State) : State :=
  let s1 := (s.finishAll (fun e => e.opcode = 0x302 || e.opcode = 0x305) stsStateBusy 0).diagStop stsStateBusy
  let s2 := (s1.modOut fun (o : OutX) => { o with waits := o.waits.filter fun (w : Nat × Nat × Nat) => w.2.2 = 1 }).spkStopAll false
  let s3 := s2.hpStopAll
  if s.target < stListen then (forEach (fun n s => s.modCv n fun (x : CvX) => { x with parked := true }) 4 s3).cvSettleAll else s3

/-- IDLE to LISTEN ends: SWPLL off, domains that LISTEN lacks down with their commands, SYS stopped (R626). -/
def State.reachListen (s : State) : State :=
  let s1 := s.finishAll (fun e => [0x111, 0x200, 0x201, 0x202, 0x203, 0x310].contains e.opcode) stsStateBusy 0
  let s2 := (s1.modGraph fun (q : Graph) => { q with loading := none }).swStop.transDown listenLacks
  (s2.setState stListen).clr F.CTL_CLK_STAT_SYSLOCK

/-- LISTEN to IDLE ends: SYSPLL and SWPLL locked, the spares' domains up, the croaker follows the ALERT pins. -/
def State.upToIdle (s : State) : State :=
  (((s.setState stIdle).set1 F.CTL_CLK_STAT_SYSLOCK).swStart.spareUp).alertEval

/-- The teardown of BRUMATE and OFF entry (R621). -/
def State.teardown (s : State) : State :=
  let s1 := (List.range 128).foldl (fun s k => s.closeStr k) s
  let s2 := forEach (fun p s => (s.finishFor (.port p) 0x111 stsStateBusy []).setPort p false) 4 s1
  let s3 := s2.finishAll (fun e => [0x200, 0x201, 0x202, 0x203].contains e.opcode) stsStateBusy 0
  (s3.modGraph fun (q : Graph) => { q with loading := none }).unloadGraph

/-- Zeroise begins: the WKD stops, the gate is sealed, the buffer zeroised (R629; spec/11_inputs_wake.md, R529). -/
def State.beginZeroise (s : State) : State :=
  (((s.clr F.IN_WKD_CFG_EN).modWkd fun (q : WkdX) => { q with stop := false, run := 0, quiet := 0 }).modTad fun (t : Tad) =>
    { t with opens := none, last := none }).zeroise

/-- Save ends: commands still at work end, the session closes, banks are in RET or OFF, every domain is down (R626, R629;
spec/16_security.md, R721). -/
def State.save (s : State) : State :=
  let s1 := (s.finishAll (fun e => e.opcode ≠ 0x600 && e.opcode ≠ 0x903) stsStateBusy 0).closeSession 5
  ((forEach (fun b s => s.bankDown b) 16 s1).transDown (List.range 16 ++ allDomains)).loseWkd

/-- Arm begins: the record is cleared, level sources already active latch, Papol halts (R629, R631). -/
def State.arm (s : State) : State :=
  let s1 := ((s.setState stBrumate).wr F.PWR_STATE_PHASE 4).setReg Reg.PWR_WAKESRC 0
  let s2 := { s1 with pap := { s1.pap with run := .halted } }
  let s3 := if s2.on F.PWR_WAKECFG_PTTWK ∧ s2.on F.IN_TAD_STAT_PTTLVL then s2.latchWake 2 1 0 else s2
  if s3.activePins = 0 then s3 else s3.latchWake 5 2 s3.activePins

/-! Retention (R627, R628, R807). -/

/-- Whether BRUMATE keeps the register at an address whole. -/
def keptReg (a : Nat) : Bool :=
  a = Reg.CTL_SYS_ID || a = Reg.CTL_SYS_STRAP || a = Reg.CTL_SYS_TIME_LO || a = Reg.CTL_SYS_TIME_HI || a = Reg.CTL_SEC_STAT
    || a = Reg.CTL_BOOT_STAT || a = Reg.CTL_SEC_ROLL || (0x700 ≤ a && a < 0x800) || (0xE0000 ≤ a && a < 0xF0000)
    || a = Reg.OUT_SPK_FUSE || a = Reg.SAFE_SM_FUSE || (0x403100 ≤ a && a < 0x403200)

/-- The fields that BRUMATE keeps of other registers; JACK_DET as held at entry (spec/10_load_jack_diagnostics.md, R500) and the ALERT
pins among them. -/
def keptFields : List Field :=
  [F.CTL_CLK_STAT_REFFAM, F.CTL_CLK_STAT_AONSRC, F.DSP_SPARE_FLOOR, F.DSP_SPARE_RETIRED, F.SAFE_SM_STAT_CSS, F.SAFE_SM_STAT_FALLBACK,
   F.SAFE_SM_STAT_ACTCNT, F.SAFE_SM_STAT_LASTREC, F.SAFE_AGE_STAT_VPLAN, F.SAFE_JACK_STAT_PLUG, F.OUT_CRK_STAT_ALERT]
  ++ (List.range 16).flatMap (fun b => [F.DSP_SB_STAT_PWR b, F.DSP_SB_STAT_RETPEND b, F.DSP_SB_STAT_SPUSED b])
  ++ (List.range 3).flatMap (fun g =>
    [F.OUT_G_STAT_XSTATE g, F.OUT_G_STAT_XNODE g, F.OUT_G_STAT_HEALED g, F.OUT_G_XPT_AEN g, F.OUT_G_XPT_ANODE g])
  ++ (List.range 2).flatMap (fun m => [F.SAFE_MADC_STAT_ROLE m, F.SAFE_MADC_STAT_REFFB m])
  ++ (List.range 12).flatMap (fun n => [F.SAFE_AGE_DER_AAGE n, F.SAFE_AGE_DER_ILIMC n])

/-- Every register that BRUMATE does not keep whole is at its reset value. -/
def State.dropRegs (s : State) : State := { s with regs := s.regs.filter fun r => keptReg r.1 }

/-- The register file after DVDD logic has been power-gated. -/
def State.gatedRegs (s : State) : State :=
  let s2 := keptFields.foldl (fun z f => z.wr f (s.rd f)) s.dropRegs
  let s3 := forEach (fun n z => if s.role n = roRetired then z.setRole n roRetired 0xF else z) 8 s2
  let s4 := if s.on (F.SAFE_MADC_STAT_REFFB 0) ∨ s.on (F.SAFE_MADC_STAT_REFFB 1) then s3.wr F.SAFE_MADC_CFG_REFMODE 1 else s3
  let s5 := if s.chipSafe then forEach (fun r z => z.wr (errLevel r) 4) 5 s4 else s4
  s5.fuseBound

/-- What the logic holds beyond its registers after it has been power-gated. -/
def State.gated (s : State) : State :=
  let z := State.reset
  let r := s.gatedRegs
  { r with
    link := z.link
    rings := z.rings
    strs := [], tdm := z.tdm, spdif := z.spdif, graph := { z.graph with dead := s.graph.dead }, leap := z.leap
    eng := s.eng.map fun (e : EngineX) => { e with core := List.replicate 168 0 }
    engMem := [], banks := { z.banks with spares := s.banks.spares, failed := s.banks.failed, dealt := s.banks.dealt }
    spks := z.spks
    groups := s.groups.map fun (g : GroupX) => { g with pairs := 0, seq := none, afb := 0, shut := 0, frac := 0, owed := 0, ovHeld := false }
    crk := z.crk
    out := { z.out with
      muteLow := s.out.muteLow, muteHeld := s.out.muteHeld, alertHeld := s.out.alertHeld, pairStuck := s.out.pairStuck
      crkFailed := s.out.crkFailed }
    clk := z.clk, diag := z.diag, inp := z.inp, tad := z.tad, wkd := z.wkd, hp := z.hp
    cv := z.cv.map fun (x : CvX) => { x with parked := true }
    hpcv := { z.hpcv with clrLow := s.hpcv.clrLow }, madc := z.madc
    saf := { s.saf with
      work := [], clkPrev := 0, oscBad := false, fnHigh := false, pulse := false, vfail := 0, valt := [], vdisc := []
      recs := s.saf.recs.map fun (q : FaultRec) => if q.code = 0x701 then { q with active := false } else q }
    age := { s.age with deltas := z.age.deltas, okAt := z.age.okAt, acc := z.age.acc, seen := 0, due := false, req := none } }

/-! Clocks as after a start (spec/09_clocks.md, R424 to R426). -/

/-- SYSPLL and AUDPLL run and are locked, the reference present, AUDFAM at REFFAM. -/
def State.clocksUp (s : State) : State :=
  let fam := s.rd F.CTL_CLK_STAT_REFFAM
  let s1 := (s.wr F.CTL_CLK_STAT_AUDFAM fam).setReg Reg.CTL_AUDPLL_CFG (w32 (audRatio s.refHz fam))
  let s2 := s1.setReg Reg.CTL_SYSPLL_CFG (w32 ((2 * 1228800000 * 2 ^ 24 + s.refHz) / (2 * s.refHz)))
  ((s2.set1 F.CTL_CLK_STAT_REFOK).set1 F.CTL_CLK_STAT_SYSLOCK).set1 F.CTL_CLK_STAT_AUDLOCK

/-- The safety monitor runs: its start-up self-test has passed, FAULT_N follows R679 (spec/15_safety.md), the supplies are within their
windows (log entry 14). -/
def State.monitorUp (s : State) : State := ((s.set1 F.SAFE_SM_STAT_SMOK).wr F.SAFE_SM_MON_VIN 0x1F).showFn

end Sys2Proof.Machine
end

