-- ==== Sys2Proof/Machine/Power.lean ====
section
/-!
DEFINITION. Power states, wake and domains as commands and events (spec/14_power_states.md, R617 to R650, R657 to R659).
-/

namespace Sys2Proof.Machine

/-! Transitions (R618 to R626). -/

/-- The first step out of the present state toward the target begins (R619, R621). -/
def State.beginStep (s : State) (fast : Bool) : State :=
  if s.pstate = stPlay then s.leavePlay fast
  else if s.pstate = stIdle ∧ s.target < stIdle then s.leaveIdle
  else if s.pstate = stListen ∧ s.target < stListen then s.teardown
  else s

/-- A transition begins (R619, R629). -/
def State.beginTrans (s : State) (target wtarget : Nat) (fast : Bool) : State :=
  let s1 := s.modPwr fun (q : Pwr) => { q with origin := s.pstate, halt := false }
  let s2 := ((s1.set1 F.PWR_STATE_TRANS).wr F.PWR_STATE_TARGET target).wr F.PWR_STATE_PHASE 1
  (s2.wr F.PWR_STATE_WTARGET wtarget).beginStep fast

/-- No transition is under way any more. -/
def State.endTrans (s : State) : State :=
  let s1 := ((s.clr F.PWR_STATE_TRANS).wr F.PWR_STATE_TARGET 0).wr F.PWR_STATE_PHASE 0
  (s1.wr F.PWR_STATE_WTARGET 0).modPwr fun (q : Pwr) => { q with halt := false, waking := false }

/-- The target is reached: the POWER_STATE ends with ST_OK (R657). -/
def State.arrive (s : State) : State := (s.endTrans).finishFor .power 0x600 stsOk []

/-- The transition ends where it stands: the POWER_STATE ends with ST_STATE_BUSY (R624). -/
def State.rest (s : State) : State := (s.finishFor .power 0x600 stsStateBusy []).endTrans

/-- Whether a chip safe state stops the transition here (R624). -/
def State.stops (s : State) : Bool := s.pwr.halt && s.target ≠ stOff

/-- What follows a completed step of R619. -/
def State.nextStep (s : State) : State :=
  if s.stops then s.rest else if s.pstate = s.target then s.arrive else s.beginStep false

/-- A completed step of R619 or teardown (R621). -/
def State.stepDone (s : State) : State :=
  if s.pstate = stPlay then
    (if ¬ s.quiet then s else if s.graphRuns then s.stopRunning false true else if s.gstate = gsStopping then s else s.reachIdle.nextStep)
  else if s.pstate = stIdle then
    if s.target = stPlay then s.reachPlay.nextStep
    else if s.silent ∧ ¬ (s.target = stListen ∧ s.on F.CTL_REG_STAT_BUSY) then s.reachListen.nextStep
    else s
  else if s.target < stListen then
    if s.stops then s.rest else (s.wr F.PWR_STATE_PHASE 2).beginZeroise
  else s.upToIdle.nextStep

/-- POWER_STEP_DONE (R619, R624, R629): the step, or the phase of BRUMATE and OFF entry, under way has ended. -/
def execPowerStepDone (s : State) : Host.Outcome State Fault Refusal :=
  if ¬ s.on F.PWR_STATE_TRANS ∨ s.pwr.waking then .next s
  else if s.pphase = 1 then .next s.stepDone
  else if s.pphase = 2 then
    if s.gate = gtZero then .next s
    else if s.stops then .next s.rest
    else .next (s.wr F.PWR_STATE_PHASE 3)
  else if s.pphase = 3 then
    if s.on F.CTL_REG_STAT_BUSY then .next s
    else if s.target = stOff then .next (s.save.fresh.setReg Reg.PWR_STATE 0)
    else if s.stops then .next s.save.rest
    else .next s.save.arm
  else if s.pphase = 4 then .next (s.wr F.PWR_STATE_PHASE 5)
  else .next s

/-- Whether LISTEN is refused (R620; spec/14_power_states.md, R648 for domain 0x24; log entry 15 for reserved spares). -/
def State.listenBlocked (s : State) : Bool :=
  s.graph.image.isSome || s.graph.loading.isSome || (List.range 4).any s.portEn
    || s.strs.any (fun x => !s.isHandover x.sid || listenLacks.any fun d => s.strUsesDomain x.sid d)
    || s.hoPhase 0 ≠ hoOff || s.hoPhase 1 ≠ hoOff

def cardPowerState : CmdSpec := ⟨0x600, 1, 1, true, true, true, true, false, false, false⟩

/-- POWER_STATE (R620, R622, R623, R657). -/
def execPowerState (p : Packet) (s : State) : Host.Outcome State Fault Refusal :=
  s.card cardPowerState p fun s =>
    let t := pf p.payload 0 0 3
    let wt := pf p.payload 0 4 3
    let fast := pb p.payload 0 8
    let busy := s.on F.PWR_STATE_TRANS
    if 4 < t ∨ (t = stBrumate ∧ ((wt ≠ 2 ∧ wt ≠ 3) ∨ s.wakeArmed = false)) then .bad 0
    else if busy ∧ t ≠ stOff then .refuse stsStateBusy s.target
    else if ¬ busy ∧ t = s.pstate then .ok s
    else if t = stListen ∧ s.listenBlocked then .refuse stsDenied 2
    else if t = stOff then
      .ok (((s.wr F.PWR_STATE_TARGET 0).finishFor .power 0x600 stsStateBusy []).beginTrans 0 0 (busy || fast))
    else .pend [] [.power] (s.beginTrans t (if t = stBrumate then wt else 0) fast)

/-! BRUMATE (R629 to R639). -/

/-- BRUMATE_WINDOW_END (R629, R640): pads latched, DVDD logic power-gated. -/
def execBrumateWindowEnd (s : State) : Host.Outcome State Fault Refusal :=
  if s.pphase = 5 then
    .next ((((s.gated.clr F.PWR_STATE_TRANS).wr F.PWR_STATE_TARGET 0).wr F.PWR_STATE_PHASE 0).wr F.PWR_GECKO_HELD 0xFF)
  else .next s

/-- The configuration has changed (spec/04_command_protocol.md, R190). -/
def State.newConfig (s : State) : State := { s with pap := { s.pap with cfggen := s.pap.cfggen + 1 } }

/-- BRUMATE_EXIT (R630, R635, R628): a source has armed the exit, which runs up to the end of Self-test; `plug` is the level of
JACK_DET (spec/10_load_jack_diagnostics.md, R500). -/
def execBrumateExit (plug : Bool) (s : State) : Host.Outcome State Fault Refusal :=
  if s.pstate = stBrumate ∧ ¬ s.on F.PWR_STATE_TRANS ∧ s.rd F.PWR_WAKESRC_SRCMAP ≠ 0 then
    let s1 := s.modPwr fun (q : Pwr) => { q with waking := true, jack := some plug }
    let s2 := ((s1.set1 F.PWR_STATE_TRANS).wr F.PWR_STATE_TARGET (s.rd F.PWR_STATE_WTARGET)).clocksUp
    let s3 := forEach (fun b s => if s.rd (F.DSP_SB_STAT_PWR b) = 1 ∨ b = 0 then s.wr (F.DSP_SB_STAT_PWR b) 0 else s) 16 s2
    .next (((s3.newConfig.releasePads 5).releasePads 6).monitorUp.respare.papolRuns)
  else .next s

/-- BRUMATE_ARRIVE (R635 to R637): the target is reached; EVT_CMD_DONE, then EVT_POWER; a jack that has changed is declared
(spec/10_load_jack_diagnostics.md, R500). -/
def execBrumateArrive (s : State) : Host.Outcome State Fault Refusal :=
  if s.pstate = stBrumate ∧ s.pwr.waking then
    let t := s.target
    let s1 := (s.setState t).wr F.PWR_WAKESRC_TARGET t
    let s2 := if t = stIdle then (s1.swStart.spareUp).alertEval else (s1.transDown listenLacks).clr F.CTL_CLK_STAT_SYSLOCK
    let w := s2.reg Reg.PWR_WAKESRC
    let s3 := s2.arrive.raise evPower [w32 (t * 2 ^ 24 + bits w 28 4 * 2 ^ 20 + bits w 8 3 * 2 ^ 16 + bits w 16 8 * 2 ^ 8)]
    let s4 := s3.modPwr fun (q : Pwr) => { q with jack := none }
    .next (match s.pwr.jack with
      | some true => if s4.on F.SAFE_JACK_STAT_PLUG then s4 else s4.jackIn
      | some false => if s4.on F.SAFE_JACK_STAT_PLUG then s4.jackOut else s4
      | none => s4)
  else .next s

/-- WAKE_BUS_MATCH (R630, R632): the matcher runs in BRUMATE only, from Arm on. -/
def execWakeBusMatch (s : State) : Host.Outcome State Fault Refusal :=
  .next (if s.pstate = stBrumate ∧ s.on F.PWR_WAKECFG_WBEN then s.latchWake 3 0 0 else s)

/-- PTT_WAKE (R630, R633). -/
def execPttWake (s : State) : Host.Outcome State Fault Refusal :=
  .next (if s.pstate = stBrumate ∧ s.on F.PWR_WAKECFG_PTTWK then s.latchWake 2 1 0 else s)

/-- GPIO_WAKE (R630, R634, R639): the GPIO balls go to `levels`. An edge in Window is lost; outside BRUMATE the pins with EVT set
raise EVT_WAKE. -/
def execGpioWake (levels : BitVec 8) (s : State) : Host.Outcome State Fault Refusal :=
  let was := s.pwr.gpio
  let fired := maskOf 8 fun k => wakeFires (s.gpioMode k) (inMask was k) (inMask levels.toNat k)
  let s1 := (s.modPwr fun (q : Pwr) => { q with gpio := levels.toNat }).showGpio
  if s.pstate = stBrumate then
    let kept := maskOf 8 fun k => inMask fired k && (s.pphase ≠ 5 || 4 ≤ s.gpioMode k)
    .next (if kept = 0 then s1 else s1.latchWake 5 2 kept)
  else if stListen ≤ s.pstate then
    let shown := maskOf 8 fun k => inMask fired k && s.on (F.PWR_GPIO_WAKE_EVT k)
    .next (if shown = 0 then s1 else s1.raiseWakeOnly (w32 (5 * 2 ^ 28 + shown)))
  else .next s1

def cardWakeCfg : CmdSpec := ⟨0x604, 2, 2, true, true, true, false, false, false, true⟩

/-- WAKE_CFG (R639, R659): a level pin already active fires once where its EVT or MODE is set. -/
def execWakeCfg (p : Packet) (s : State) : Host.Outcome State Fault Refusal :=
  s.card cardWakeCfg p fun s =>
    let ws := p.payload
    let a := pf ws 0 24 7
    if a < 8 ∨ 0x78 ≤ a then .bad 0
    else if (List.range 8).any fun k => 6 ≤ pf ws 1 (4 * k) 3 then .bad 1
    else
      let s1 := (s.putReg Reg.PWR_WAKECFG (pw ws 0 &&& 0xFF010000)).putReg Reg.PWR_GPIO_WAKE (pw ws 1)
      let fired := maskOf 8 fun k => bits (s.reg Reg.PWR_GPIO_WAKE) (4 * k) 4 ≠ pf ws 1 (4 * k) 4 && s1.on (F.PWR_GPIO_WAKE_EVT k)
        && inMask s1.activePins k
      .ok (if fired = 0 then s1 else s1.raiseWakeOnly (w32 (5 * 2 ^ 28 + fired)))

/-- SYS_ON_DEMAND (R161; spec/09_clocks.md, R426): SYSPLL locks for the on-demand start. -/
def execSysOnDemand (s : State) : Host.Outcome State Fault Refusal :=
  .next (if s.pstate = stListen then s.set1 F.CTL_CLK_STAT_SYSLOCK else s)

/-! Domains (R642 to R650, R658). -/

def cardPowerPermit : CmdSpec := ⟨0x601, 1, 1, false, true, true, false, false, false, true⟩

/-- POWER_PERMIT (R645). -/
def execPowerPermit (p : Packet) (s : State) : Host.Outcome State Fault Refusal :=
  s.card cardPowerPermit p fun s => if pf p.payload 0 26 6 ≠ 0 then .bad 0 else .ok (s.putReg Reg.PWR_PERMIT (pw p.payload 0))

/-- The direction of a domain's last change that has not ended. -/
def State.lastChange? (s : State) (d : Nat) : Option Bool :=
  ((s.pwr.changes.filter fun c => c.domain = d).getLast?).map DomChange.up

/-- A change of a domain waits its turn; it completes the command that is about to take the lowest free slot (R647). -/
def State.addChange (s : State) (d : Nat) (up : Bool) : State :=
  s.modPwr fun (q : Pwr) => { q with changes := q.changes ++ [⟨d, up, [s.freeSlot?.getD 8]⟩] }

/-- A further command is completed by the first change of a domain in a list. -/
def joinFirst (d slot : Nat) : List DomChange → List DomChange
  | [] => []
  | c :: rest => if c.domain = d then { c with slots := c.slots ++ [slot] } :: rest else c :: joinFirst d slot rest

/-- A further command, in the lowest free slot, is completed by a domain's last change. -/
def State.joinChange (s : State) (d : Nat) : State :=
  s.modPwr fun (q : Pwr) => { q with changes := (joinFirst d (s.freeSlot?.getD 8) q.changes.reverse).reverse }

/-- The changes of a domain that have not ended. -/
def State.changesOf (s : State) (d : Nat) : List DomChange := s.pwr.changes.filter fun c => c.domain = d

/-- A power-down under way is reversed: its command ends with ST_OK (R647). -/
def State.reverseDown (s : State) (d : Nat) : State :=
  let cs := s.changesOf d
  (s.modPwr fun (q : Pwr) => { q with changes := q.changes.filter fun c => c.domain ≠ d }).finishAll
    (fun e => cs.any fun c => c.slots.contains e.slot) stsOk 0

def cardPowerDomainOn : CmdSpec := ⟨0x602, 1, 1, false, true, true, false, false, false, false⟩

/-- POWER_DOMAIN_ON (R647, R650, R658). -/
def execPowerDomainOn (p : Packet) (s : State) : Host.Outcome State Fault Refusal :=
  s.card cardPowerDomainOn p fun s =>
    let d := pf p.payload 0 0 6
    if 0x2A ≤ d then .bad 0
    else if (d < 0x10 ∧ s.rd (F.DSP_SB_STAT_PWR d) = 3) ∨ (0x10 ≤ d ∧ d < 0x18 ∧ s.role (d - 0x10) = roRetired) then .refuse stsDenied 2
    else
      match s.lastChange? d with
      | none => if s.domOn d then .ok s else .pend [] [.domain d] (s.addChange d true)
      | some true => .pend [] [.domain d] (s.joinChange d)
      | some false =>
        if (s.changesOf d).length = 1 ∧ reversible d then .pend [] [.domain d] ((s.reverseDown d).addChange d true)
        else .pend [] [.domain d] (s.addChange d true)

/-- Whether a domain is already off, or a bank already as RETSEL says (R337, R650). -/
def State.domOff (s : State) (d : Nat) : Bool :=
  if d < 0x10 then 2 ≤ s.rd (F.DSP_SB_STAT_PWR d) || (s.rd (F.DSP_SB_STAT_PWR d) = 1 && s.on (F.DSP_SB_CFG_RETSEL d)) else !s.domOn d

/-- Whether POWER_DOMAIN_OFF is denied, FORCE or not (R648; spec/07_shared_banks.md, R338). -/
def State.offDenied (s : State) (d : Nat) : Bool :=
  if d < 0x10 then d = 0 || s.graphInBank d
  else if d < 0x18 then s.occupied (d - 0x10) || inMask (s.rd F.DSP_SPARE_SPMAP) (d - 0x10)
  else if 0x19 ≤ d ∧ d ≤ 0x1C then s.portEn (d - 0x19)
  else if d = 0x24 then s.hoPhase 0 ≠ hoOff || s.hoPhase 1 ≠ hoOff
  else if d = 0x25 then (List.range 4).any fun n => s.cvMode n ≠ 0
  else if 0x26 ≤ d ∧ d ≤ 0x28 then !s.groupOff (d - 0x26)
  else if d = 0x21 ∨ d = 0x23 then s.on F.IN_TAP_CFG_TAPEN
  else if d = 0x22 then s.on F.IN_WKD_CFG_EN
  else false

/-- The enabled rings that lie in a bank. -/
def State.bankRings (s : State) (b : Nat) : List Nat :=
  indices 32 fun n => s.ringOn n && inBank b (s.geo n).base (s.ringBytes n)

/-- The open streams that refer to a domain, lowest SID first; for a bank, through a ring that lies in it. -/
def State.domStreams (s : State) (d : Nat) : List Nat :=
  indices 128 fun k => s.strs.any fun x => x.sid = k &&
    (if d < 0x10 then (s.bankRings d).any (s.usesRing k) else s.strUsesDomain k d)

/-- The pending commands whose transfer refers to a domain: the image copy of WKD_LOAD (R648). -/
def domTransfers (d : Nat) (e : PendEntry) : Bool :=
  e.opcode = 0x410 && (d = 0x22 || (d < 0x10 && inBank d (pf e.payload 0 0 21) (pf e.payload 1 0 21)))

/-- What DETAIL of ST_DOMAIN_BUSY names, if a stream, a ring or a transfer refers to a domain (R648; spec/04_command_protocol.md,
R181). -/
def State.domBusy? (s : State) (d : Nat) : Option Nat :=
  match s.domStreams d, (if d < 0x10 then s.bankRings d else []) with
  | k :: _, _ => some k
  | [], n :: _ => some (0x80 + n)
  | [], [] => if s.pap.slots.any (domTransfers d) then some 0xFF else none

/-- Streams and transfers that refer to a domain end under FORCE (R649). -/
def State.domAbort (s : State) (d : Nat) : State :=
  ((s.domStreams d).foldl (fun s k => s.abortStr k) s).finishAll (domTransfers d) stsDomainBusy 0xFF

/-- A power-down begins, or waits behind a change: a march leaves the bank, the tadpole buffer is zeroised (R642, R647). -/
def State.beginDown (s : State) (d : Nat) : State :=
  let s1 := if d < 0x10 then s.marchLeaves d else if d = dmTad then s.zeroise else s
  s1.addChange d false

def cardPowerDomainOff : CmdSpec := ⟨0x603, 1, 1, false, true, true, false, false, true, false⟩

/-- The body of POWER_DOMAIN_OFF (R647 to R650, R658; spec/07_shared_banks.md, R338). -/
def domainOffBody (force : Bool) (ws : List Word) (s : State) : Res :=
  let d := pf ws 0 0 6
  if 0x2A ≤ d then .bad 0
  else if s.lastChange? d = none ∧ s.domOff d then .ok s
  else if s.lastChange? d = some false then .pend [] [.domain d] (s.joinChange d)
  else if s.offDenied d then .refuse stsDenied 2
  else
    match s.domBusy? d with
    | none => .pend [] [.domain d] (s.beginDown d)
    | some x =>
      if force = false ∨ (d < 0x10 ∧ x ≠ 0xFF) then .refuse stsDomainBusy x
      else .pend [] [.domain d] ((s.domAbort d).beginDown d)

/-- POWER_DOMAIN_OFF (R648, R658). -/
def execPowerDomainOff (p : Packet) (s : State) : Host.Outcome State Fault Refusal :=
  s.card cardPowerDomainOff p (domainOffBody p.force p.payload)

/-- POWER_DOMAIN_OFF with FORCE (R649). -/
def execPowerDomainOffForce (p : Packet) (s : State) : Host.Outcome State Fault Refusal :=
  s.card cardPowerDomainOff { p with force := true } (domainOffBody true p.payload)

/-- The oldest change of a domain ends, and with it its commands (R647). -/
def State.domDone (s : State) (d : Nat) : State :=
  match (s.changesOf d).head? with
  | none => s
  | some c =>
    let s1 := s.modPwr fun (q : Pwr) => { q with changes := q.changes.erase c }
    let s2 :=
      if c.up then (if d < 0x10 then (if s1.rd (F.DSP_SB_STAT_PWR d) = 3 then s1 else s1.wr (F.DSP_SB_STAT_PWR d) 0) else s1.domUp d)
      else if d < 0x10 then s1.bankDown d
      else (if d = dmWkd then s1.loseWkd else s1).clr (domBit d)
    s2.finishAll (fun e => c.slots.contains e.slot) stsOk 0

end Sys2Proof.Machine
end

