-- ==== Sys2Proof/Machine/Ageing.lean ====
section
/-!
DEFINITION. Ageing, re-planning and the state of repair (spec/17_service_life.md), and the regulator requests of the plan
(spec/14_power_states.md, R651 to R656).
-/

namespace Sys2Proof.Machine

def State.modAge (s : State) (f : AgeX → AgeX) : State := { s with age := f s.age }

/-! Ring-oscillator pairs (R743 to R745). DELTA in units of 10 ppm. -/

/-- DELTA of a pair. -/
def State.ringDelta (s : State) (p : Nat) : Int := signed 16 (s.rd (F.SAFE_AGE_RING_DELTA p))

/-- Whether a pair is measured: pairs 0 to 7 while their engine is powered and not retired (R745). -/
def State.pairOn (s : State) (p : Nat) : Bool := 8 ≤ p || (s.role p ≠ roRetired && s.domOn (dmEngine p))

/-- The middle one of three values. -/
def median3 (a b c : Int) : Int := max (min a b) (min (max a b) c)

/-- A window of one pair is accepted (R744). -/
def State.ringAccept (s : State) (p : Nat) (d temp : Int) : State :=
  let ds := (d :: vat s.age.deltas p).take 3
  let s1 := (s.modAge fun q => { q with deltas := vmod q.deltas p fun _ => ds, okAt := vmod q.okAt p fun _ => s.now }).wr
    (F.SAFE_AGE_RING_TJ p) (temp + 64).toNat
  match ds with
  | [a, b, c] => (s1.wr (F.SAFE_AGE_RING_DELTA p) (BitVec.ofInt 16 (median3 a b c)).toNat).set1 (F.SAFE_AGE_RING_VALID p)
  | _ => s1

/-- K0 of a pair in units of 2^-24 (R744). -/
def State.freshRatio (s : State) (p : Nat) : Nat := Config.freshRatio p ((List.range 6).map fun i => s.fuse (58 + i))

/-- DELTA of a pair in 10 ppm from the counts of its oscillators: 1 - (count_s / count_r) / K0 (R744). -/
def State.deltaOf (s : State) (p : Nat) (stressed reference : Nat) : Int :=
  let whole := reference * s.freshRatio p
  let part := stressed * 2 ^ 24
  if part ≤ whole then (roundFree ((whole - part) * 100000) whole : Int) else -(roundFree ((part - whole) * 100000) whole : Int)

/-- A window of the ring-oscillator pairs (R744): per pair the counts of its stressed and its reference oscillator, and CORE's temperature
in degrees as the window begins and ends. -/
structure RingWindow where
  counts : List (Nat × Nat)
  temp0  : Int
  temp1  : Int
  deriving DecidableEq, Repr

/-- Whether a window is discarded (R744). -/
def State.windowLost (s : State) (w : RingWindow) : Bool := decide (2 < (w.temp1 - w.temp0).natAbs) || s.on F.CTL_REG_STAT_BUSY

/-- A window of every pair ends; a discarded one is accepted nowhere (R744, R745). -/
def State.ringWindow (s : State) (w : RingWindow) : State :=
  forEach (fun p (z : State) =>
    if s.pairOn p = false then z.clr (F.SAFE_AGE_RING_VALID p)
    else if s.windowLost w then z
    else match w.counts[p]? with
      | some c => z.ringAccept p (s.deltaOf p c.1 c.2) w.temp1
      | none => z) 12 s

/-- RING_OSC_WINDOW (R744). -/
def execRingOscWindow (counts : List (Nat × Nat)) (temp0 temp1 : Int) (s : State) : Host.Outcome State Fault Refusal :=
  .next (if stListen ≤ s.pstate then s.ringWindow ⟨counts, temp0, temp1⟩ else s)

/-- VALID clears on a pair that is not measured, or has had no window accepted for 60 s (R744, R745). -/
def State.ringStale (s : State) : State :=
  forEach (fun p (z : State) =>
    if z.on (F.SAFE_AGE_RING_VALID p) ∧ (60 * 24576000 ≤ s.now - vat s.age.okAt p ∨ s.pairOn p = false) then z.clr (F.SAFE_AGE_RING_VALID p)
    else z) 12 s

/-! Leg on-resistance (R746 to R748), in 0.1 mΩ. -/

/-- The register that holds the switches of the leg that serves a node. -/
def State.ronReg (s : State) (n leg : Nat) : Nat :=
  if s.onSpare (n / 4) (nodeOf n leg) then Reg.SAFE_AGE_RONX (n / 4)
  else if leg = 0 then Reg.SAFE_AGE_RON_P n else Reg.SAFE_AGE_RON_M n

/-- The largest R25 over the switches of a channel's legs; over both channels of a pair (R748). -/
def State.worstRon (s : State) (n : Nat) : Nat :=
  (s.drives n).foldl (fun m k => (List.range 2).foldl (fun m leg =>
    let w := s.reg (s.ronReg k leg)
    max m (max (bits w 16 16) (bits w 0 16))) m) 0

/-- RHO of a channel: 0 until a switch of it has been measured (SAFE_AGE_DERn). -/
def State.showRho (s : State) (n : Nat) : State :=
  if inMask s.age.seen n then s.wr (F.SAFE_AGE_DER_RHO n) (min 0xFFFF (roundFree (s.worstRon n * 5) 3)) else s

/-- The sum of fractions as one fraction. -/
def fracSum (qs : List (Nat × Nat)) : Nat × Nat := qs.foldl (fun a q => (a.1 * q.2 + q.1 * a.2, a.2 * q.2)) (0, 1)

/-- R25 of 256 samples in 0.1 mΩ, with the healthy slices of the leg and TJ in degrees (R746). The AGE code stands for 2.5 V / 4096 of
eight times the drop, the ISNS code for 15 / 2048 A, so that V / I is their ratio in 1 / 96 Ω. -/
def r25Of (samples : List (Nat × Nat)) (slices : Nat) (tj : Int) : Nat :=
  let q := fracSum samples
  min 0xFFFF (roundFree (q.1 * 10 ^ 8 * slices) (4 * 96 * 256 * q.2 * (10000 + 45 * (tj - 25)).toNat))

/-- RON_SAMPLE (R56, R746): one sample of a switch, accepted with a load current from 1.0 A to 2.5 A. -/
def execRonSample (chan : Fin 12) (legM high : Bool) (codes : RonCodes) (s : State) : Host.Outcome State Fault Refusal :=
  let n := chan.val
  let leg := b2n legM
  let m := s.master n
  let amps := ((codes.isns.toNat : Int) - 2048).natAbs
  if s.phase m ≠ phPlay ∨ s.suspended ∨ s.inSeq m ∨ 15 * amps < 2048 ∨ 5 * 2048 < 2 * 15 * amps then .next s
  else
    let j := nodeOf n leg
    let i := 2 * s.legNo (n / 4) j + b2n high
    let samples := vat s.age.acc i ++ [(codes.age.toNat, amps)]
    if samples.length < 256 then .next (s.modAge fun q => { q with acc := vmod q.acc i fun _ => samples })
    else
      let r := r25Of samples (sliceCount (s.legSlices (n / 4) j)) ((s.rd (F.OUT_G_THERM_TJ (n / 4)) : Int) - 64)
      let s1 := s.wr ⟨s.ronReg n leg, if high then 16 else 0, 16⟩ r
      .next ((s1.modAge fun q => { q with acc := vmod q.acc i fun _ => [], seen := q.seen ||| 2 ^ m }).showRho m)

/-! The re-plan (R749 to R757). -/

/-- The pairs that take part. -/
def State.plannedPairs (s : State) : List Nat := indices 12 fun p => s.on (F.SAFE_AGE_RING_VALID p) && s.pairOn p

/-- The largest DELTA in 10 ppm; none without a valid pair. -/
def State.dMax? (s : State) : Option Int := (s.plannedPairs.map s.ringDelta).max?

/-- vn in mV. -/
def vNeed (d10 : Int) : Int := 740 + 5 * -((-(10 * d10)) / 4000)

/-- vp in mV. -/
def vPlan (d10 : Int) : Nat := (min 900 (max 800 (vNeed d10 + 40))).toNat

/-- The derate of R750 in 0.125 dB. -/
def aageOf (r : Nat) : Nat :=
  if r ≤ 720 then 0 else ((List.range 49).find? fun k => r ^ 80 ≤ 720 ^ 80 * 10 ^ k).getD 48

/-- The ceiling code of R750; none where no code serves. -/
def ilimcOf (r : Nat) : Option Nat := (List.range 13).reverse.find? fun c => (60 + 5 * c) ^ 2 * r ≤ 14400 * 720

/-- FSWCAP of R755 in 10 kHz, 0 none. -/
def capOf (band loopbw r : Nat) : Nat :=
  if r < 840 then 0
  else
    let c := if r < 960 then (if band = 0 then 42 else 220) else (if band = 0 then 36 else 200)
    max c (minFsw band loopbw / 10000)

/-- The largest R25 of a group. -/
def State.groupRon (s : State) (g : Nat) : Nat := (List.range 4).foldl (fun m k => max m (s.worstRon (4 * g + k))) 0

/-- EVT_AGEING (R757). -/
def State.raiseAgeing (s : State) (kind chan value : Nat) : State :=
  let d := (BitVec.ofInt 16 (s.dMax?.getD 0)).toNat
  s.raise evAgeing [w32 (kind * 2 ^ 28 + chan * 2 ^ 24), w32 (value * 2 ^ 16 + d)]

/-- The floor of R753, and DMAX. -/
def State.planFloor (s : State) : State :=
  match s.dMax? with
  | none => s
  | some d =>
    let s1 := s.wr F.SAFE_AGE_STAT_DMAX (min 0x3FF (roundFree d.toNat 10))
    let floor := decide (900 < vNeed d + 40)
    if floor ∧ ¬ s.on F.SAFE_AGE_STAT_FLOOR then
      ((s1.set1 F.SAFE_AGE_STAT_FLOOR).toChip ⟨0x901, 0, rgCtl, 4, 0, 0, 0, false, true⟩).raiseAgeing 6 0xF (vPlan d)
    else if floor = false then (s1.clr F.SAFE_AGE_STAT_FLOOR).faultGone 0x901 0 0
    else s1

/-- The voltage that the plan needs above VPLAN, where the regulator may be asked for it (R651, R655, R750). -/
def State.wanted? (s : State) : Option Nat :=
  match s.dMax? with
  | some d => if s.rd F.SAFE_AGE_STAT_VPLAN < vPlan d ∧ s.age.exp.isSome ∧ s.age.blocked = false then some (vPlan d) else none
  | none => none

/-- A higher voltage is requested (R653, R757). -/
def State.request (s : State) (v : Nat) : State :=
  let s1 := ((s.modAge fun q => { q with req := some v }).set1 F.CTL_REG_STAT_BUSY).set1 F.SAFE_AGE_STAT_PEND
  if s.age.req = some v then s1 else s1.raiseAgeing 1 0xF v

/-- One channel of the plan (R748, R750, R756). -/
def State.planChan (s : State) (n : Nat) : State :=
  if s.master n ≠ n then s
  else
    let r := s.worstRon n
    let a := max (s.rd (F.SAFE_AGE_DER_AAGE n)) (aageOf r)
    let s0 := if (ilimcOf r).isNone then s.drawn else s
    let c := min (s.rd (F.SAFE_AGE_DER_ILIMC n)) ((ilimcOf r).getD (s.free.toNat % 13))
    let s1 := (s0.wr (F.SAFE_AGE_DER_AAGE n) a).wr (F.SAFE_AGE_DER_ILIMC n) c
    let s2 := if a = s.rd (F.SAFE_AGE_DER_AAGE n) ∧ c = s.rd (F.SAFE_AGE_DER_ILIMC n) then s1
      else (s1.drives n).foldl (fun (z : State) k => z.showLegs k) (s1.raiseAgeing 2 n (a * 2 ^ 8 + c))
    if 1200 ≤ r ∧ ¬ inMask s.age.worn n then
      (s2.modAge fun q => { q with worn := q.worn ||| 2 ^ n }).raiseAgeing 5 n (min 0xFFFF (roundFree (r * 5) 3))
    else s2

/-- FSWCAP of a group applied (R752, R754). -/
def State.setCap (s : State) (g c : Nat) : State :=
  let s1 := s.modClk fun q => { q with caps := vmod q.caps g fun _ => c }
  (s1.wr ⟨Reg.SAFE_AGE_STAT, 11 + g, 1⟩ (b2n (c ≠ 0))).showSw

/-- FSWCAP of a group by the plan, applied or withheld (R750, R752, R755, R757). -/
def State.planCap (s : State) (g : Nat) : State :=
  let c := capOf (s.rd (F.OUT_G_CFG_BAND g)) (s.rd (F.OUT_G_CFG_LOOPBW g)) (s.groupRon g)
  if s.pap.pinAge then
    (if c = vat s.clk.caps g ∨ c = vat s.age.withheld g then s
    else (s.modAge fun q => { q with withheld := vmod q.withheld g fun _ => c }).raiseAgeing 4 g c)
  else
    let s1 := s.modAge fun q => { q with withheld := vmod q.withheld g fun _ => 0 }
    if c = vat s.clk.caps g then s1 else (s1.setCap g c).raiseAgeing 3 g c

/-- The rest of the plan: AAGE, ILIMC and FSWCAP (R750). -/
def State.planRest (s : State) : State := forEach (fun g z => z.planCap g) 3 (forEach (fun n z => z.planChan n) 12 s)

/-- A re-plan: with a request for a higher voltage the rest waits for its end (R654, R750, R752). -/
def State.replan (s : State) : State :=
  let s1 := s.planFloor
  match s1.wanted? with
  | some v => s1.request v
  | none => s1.planRest

/-- Whether a re-plan waits: a power transition, a FW_MOLT or a GRAPH_MOLT is under way (R749). -/
def State.planWaits (s : State) : Bool :=
  s.on F.PWR_STATE_TRANS || (s.atWork? 0x802).isSome || s.graph.molt.isSome || (s.atWork? 0x203).isSome

/-- REPLAN_RUN (R749): a re-plan falls due. -/
def execReplanRun (s : State) : Host.Outcome State Fault Refusal :=
  if (s.pstate ≠ stIdle ∧ s.pstate ≠ stPlay) ∨ s.age.req.isSome then .next s
  else if s.planWaits then .next (s.modAge fun q => { q with due := true })
  else .next (if s.pap.run = .running then s.replan else s)

/-- A re-plan that has waited runs (R749). -/
def State.planDue (s : State) : State :=
  if s.age.due ∧ ¬ s.planWaits ∧ (s.pstate = stIdle ∨ s.pstate = stPlay) ∧ s.pap.run = .running ∧ s.age.req.isNone then
    (s.modAge fun q => { q with due := false }).replan
  else s

/-- The reply words of REPLAN from the state after the plan: `before` is the one before it (R762). -/
def State.replanWords (s before : State) : List Word :=
  let aage := (List.range 12).map fun n => s.rd (F.SAFE_AGE_DER_AAGE n)
  let top := aage.foldl max 0
  let changed := s.reg Reg.SAFE_AGE_STAT ≠ before.reg Reg.SAFE_AGE_STAT ∨ s.clk.caps ≠ before.clk.caps
    ∨ (List.range 12).any fun n => s.reg (Reg.SAFE_AGE_DER n) ≠ before.reg (Reg.SAFE_AGE_DER n)
  let v := match s.age.req with
    | some v => v
    | none => s.rd F.SAFE_AGE_STAT_VPLAN
  let result := if s.on F.SAFE_AGE_STAT_FLOOR then 3 else if s.age.req.isSome then 2 else if changed then 1 else 0
  [w32 (v * 2 ^ 16 + (BitVec.ofInt 16 (s.dMax?.getD 0)).toNat),
    w32 (top * 2 ^ 24 + (if top = 0 then 0 else aage.idxOf top) * 2 ^ 16 + maskOf 12 fun n => aage.getD n 0 ≠ 0),
    w32 (vat s.clk.caps 2 * 2 ^ 20 + vat s.clk.caps 1 * 2 ^ 10 + vat s.clk.caps 0),
    w32 (result * 2 ^ 28 + (if s.pap.pinAge then 7 else 0))]

def cardReplan : CmdSpec := ⟨0x901, 1, 1, false, true, true, false, false, false, false⟩

/-- REPLAN (R762): the windows of MEASURE are operands; the reply words show the whole plan, of which AAGE, ILIMC and FSWCAP wait for a
regulator request. -/
def execReplan (p : Packet) (counts : List (List (Nat × Nat))) (temps : List (Int × Int)) (s : State) : Host.Outcome State Fault Refusal :=
  s.card cardReplan p fun s =>
    let w := pw p.payload 0
    let s0 := s.finishAll (fun e => e.opcode = 0x901) stsOk 0
    let s1 := if bit w 2 then (counts.zip temps).foldl (fun (z : State) w => z.ringWindow ⟨w.1, w.2.1, w.2.2⟩) s0 else s0
    let s2 := if bit w 1 then (forEach (fun g z => if vat z.clk.caps g = 0 then z else z.setCap g 0) 3 s1).modAge fun q =>
        { q with withheld := Vector.replicate 3 0 } else s1
    let whole := match s2.planFloor.wanted? with
      | some v => (s2.planFloor.request v).planRest
      | none => s2.planFloor.planRest
    let words := whole.replanWords s1
    if bit w 0 then .done stsOk 0 words [] s1
    else
      let s3 := s2.replan
      if s3.age.req.isSome then .pend words [.replan] s3 else .done stsOk 0 words [] s3

/-! Regulator requests (spec/14_power_states.md, R651 to R656). -/

/-- The request ends: BUSY and PEND clear, and NACK and PECERR show what occurred. -/
def State.requestEnds (s : State) (nack pecErr : Bool) : State :=
  let s1 := if nack then s.set1 F.CTL_REG_STAT_NACK else s
  let s2 := if pecErr then s1.set1 F.CTL_REG_STAT_PECERR else s1
  ((s2.modAge fun q => { q with req := none }).clr F.CTL_REG_STAT_BUSY).clr F.SAFE_AGE_STAT_PEND

/-- VOUT_COMMAND for a voltage in mV with an EXP code (spec/14_power_states.md, R652). -/
def voutWord (v exp : Nat) : Nat := roundNear (v * 2 ^ (32 - exp)) 1000

/-- The packet error code of a transaction's bytes: the CRC-8 of PMBus, x⁸ + x² + x + 1 (PRESUMED, log entry 103). -/
def pecOf (bytes : List Nat) : Nat :=
  bytes.foldl (fun c b => forEach (fun _ c => if c < 128 then 2 * c else (2 * c % 256) ^^^ 7) 8 (c ^^^ b)) 0

/-- The bytes of VOUT_COMMAND for a request, low byte of the word first, the code after them while PEC is 1 (spec/14_power_states.md,
R651, R652). -/
def State.voutCommand (s : State) (v : Nat) : List Nat :=
  let w := voutWord v (s.age.exp.getD 0x17)
  let bytes := [2 * s.rd F.CTL_REG_CFG_REGADDR, 0x21, w % 256, w / 256 % 256]
  if s.on F.CTL_REG_CFG_PEC then bytes ++ [pecOf bytes] else bytes

/-- REG_ACKNOWLEDGE (spec/14_power_states.md, R653, R654; R752). -/
def execRegAcknowledge (nack pecErr : Bool) (s : State) : Host.Outcome State Fault Refusal :=
  match s.age.req with
  | none => .next s
  | some v =>
    let s1 := ((s.requestEnds nack pecErr).wr F.CTL_REG_STAT_VOUT (voutWord v (s.age.exp.getD 0x17))).wr F.SAFE_AGE_STAT_VPLAN v
    .next (s1.planRest.finishAll (fun e => e.opcode = 0x901) stsOk 0)

/-- REGLINK (spec/14_power_states.md, R653 to R655; R762). -/
def execReglink (nack pecErr : Bool) (s : State) : Host.Outcome State Fault Refusal :=
  match s.age.req with
  | none => .next s
  | some _ =>
    let s1 := ((s.requestEnds nack pecErr).set1 F.CTL_REG_STAT_REGLINK).modAge fun q => { q with blocked := true }
    let s2 := s1.fault ⟨0x601, 0, rgCtl, 2, 0, 0, 0, false, false⟩
    .next (s2.planRest.finishAll (fun e => e.opcode = 0x901) stsNoMargin 0)

/-! Bask counters (R740 to R742). -/

/-- The bin that holds a temperature. -/
def baskBin (t : Int) : Nat := ([25, 55, 85, 105, 125, 140, 150].filter fun (e : Int) => e ≤ t).length

/-- The weights of R742 in thousandths, by bin. -/
def baskWeights : List Nat := [3, 38, 301, 1000, 2940, 6170, 9830, 18960]

/-- The equivalent hours of a location in units of 1 / 3 600 000 000 h (R742): 1 / 1000 ms. -/
def State.equivHours (s : State) (l : Nat) : Nat :=
  (List.range 8).foldl (fun n b => n + s.rd64 (Reg.SAFE_BASK_LO (8 * l + b)) * baskWeights.getD b 0) 0

/-- BASK_TICK (R740, R741): CORE's temperature in degrees; the groups' is TJ. -/
def execBaskTick (core : Int) (s : State) : Host.Outcome State Fault Refusal :=
  if s.pstate < stListen then .next s
  else
    .next (forEach (fun l (z : State) =>
      let t : Int := if l = 3 then core else (s.rd (F.OUT_G_THERM_TJ l) : Int) - 64
      let a := Reg.SAFE_BASK_LO (8 * l + baskBin t)
      z.wr64 a (s.rd64 a + 1)) 4 s)

def cardBaskRead : CmdSpec := ⟨0x902, 1, 1, true, true, true, false, false, false, false⟩

/-- BASK_READ (R763). -/
def execBaskRead (p : Packet) (s : State) : Host.Outcome State Fault Refusal :=
  s.card cardBaskRead p fun s =>
    let l := pf p.payload 0 0 2
    let words := (List.range 16).map fun i => s.reg (Reg.SAFE_BASK_LO (8 * l) + 4 * i)
    .done stsOk 0 words [] (if pb p.payload 0 31 then forEach (fun b z => z.wr64 (Reg.SAFE_BASK_LO (8 * l + b)) 0) 8 s else s)

/-! Reports. -/

def cardAgeingRead : CmdSpec := ⟨0x900, 1, 1, false, true, true, false, false, false, false⟩

/-- AGEING_READ (R744, R746). -/
def execAgeingRead (p : Packet) (s : State) : Host.Outcome State Fault Refusal :=
  s.card cardAgeingRead p fun s =>
    let sel := pf p.payload 0 0 3
    let words := fun (a n : Nat) => (List.range n).map fun i => s.reg (a + 4 * i)
    let ok := fun (ws : List Word) => Res.done stsOk 0 ws [] s
    if sel ≤ 2 then ok (words (Reg.SAFE_AGE_RON_P (4 * sel)) 8)
    else if sel = 3 then ok (words (Reg.SAFE_AGE_RING 0) 8)
    else if sel = 4 then ok (words (Reg.SAFE_AGE_RING 8) 4 ++ [s.reg Reg.SAFE_AGE_STAT] ++ words (Reg.SAFE_AGE_RONX 0) 3)
    else if sel = 5 then ok (words (Reg.SAFE_AGE_DER 0) 8)
    else if sel = 6 then ok (words (Reg.SAFE_AGE_DER 8) 4 ++ [0, 0, 0, 0])
    else .bad 0

def cardRepairStatus : CmdSpec := ⟨0x904, 0, 0, true, true, true, false, false, false, false⟩

/-- Whether a voter's number in R760 has lost one copy. -/
def State.voterLost (s : State) (k : Nat) : Bool :=
  s.saf.votes.any fun v => match v with
    | .attenuation _ => k = 0
    | .croaker _ => k = 1
    | .muteN => k = 2
    | .alert _ => k = 3
    | .commit => k = 4

/-- REPAIR_STATUS (R760). -/
def execRepairStatus (p : Packet) (s : State) : Host.Outcome State Fault Refusal :=
  s.card cardRepairStatus p fun s =>
    let banks := maskOf 16 fun b => s.rd (F.DSP_SB_STAT_PWR b) = 3 || s.on (F.DSP_SB_STAT_RETPEND b)
    let rows := min 0xFF ((List.range 16).foldl (fun n b => n + s.rd (F.DSP_SB_STAT_SPUSED b)) 0)
    let faults := min 0xF ((List.range 8).foldl (fun n e => n + (vat s.eng e).faults) 0)
    let legs := maskOf 24 fun i =>
      let n := i / 2
      if i % 2 = 0 then (List.range 2).any fun leg => s.legSlices (n / 4) (nodeOf n leg) ≠ 0xF
      else (List.range 2).any fun leg => s.onSpare (n / 4) (nodeOf n leg)
    .done stsOk 0
      [w32 (banks * 2 ^ 16 + rows * 2 ^ 8),
       w32 (s.rd F.DSP_SPARE_SPMAP * 2 ^ 24 + (maskOf 8 fun e => s.role e = roRetired) * 2 ^ 16 + faults),
       w32 (s.rd (F.OUT_G_STAT_XSTATE 2) * 2 ^ 28 + s.rd (F.OUT_G_STAT_XSTATE 1) * 2 ^ 26 + s.rd (F.OUT_G_STAT_XSTATE 0) * 2 ^ 24 + legs),
       w32 (s.mrole 1 * 4 + s.mrole 0), w32 (maskOf 6 s.voterLost), w32 s.age.worn] [] s

end Sys2Proof.Machine
end

