-- ==== Sys2Proof/Machine/PapolImage.lean ====
section
/-!
DEFINITION. Papol images: header, signatures, rollback (spec/16_security.md, R700, R709 to R712, R714, R718).
-/

namespace Sys2Proof.Machine

open Crypto (shaWords)

/-- Header fields of a Papol image (R714). -/
def imgVersion (img : List Word) : Word := pw img 2
def imgRoll (img : List Word) : Nat := (pw img 3).toNat
def imgBody (img : List Word) : Nat := pf img 4 0 18
def imgHout (img : List Word) : Nat := pf img 6 16 16
def imgHinMin (img : List Word) : Nat := pf img 6 0 16

/-- MAGIC, HVER, HWORDS and HCRC are right. -/
def imgHeadOk (img : List Word) : Bool :=
  decide (16 ≤ img.length) && pw img 0 = 0x50504C31 && pw img 1 = 0x00010010 && pw img 15 = crc32c (img.take 15)

/-- The signature blocks that follow the body: 1, or 2 with a co-signature; 0 where BODYLEN or the length does not serve. -/
def imgBlocks (img : List Word) (bytes : Nat) : Nat :=
  let b := imgBody img
  if b < 4 ∨ 196608 < b ∨ b % 4 ≠ 0 then 0
  else if bytes = 64 + b + 136 then 1
  else if bytes = 64 + b + 272 then 2
  else 0

/-- A signature block's signature over the words before it is valid for its Q (R709, R710). -/
def sigOk (msg block : List Word) : Bool :=
  block.length = 34 && pw block 0 = 0x53474E31 && pf block 1 8 8 = 1
    && Crypto.ecdsa ((block.drop 2).take 16) ((block.drop 18).take 16) (shaWords msg)

/-- A block's key is the one that its KEYIDX names and is not revoked (R710). -/
def State.keyOk (s : State) (block : List Word) : Bool :=
  let k := pf block 1 0 4
  k ≤ 2 && shaWords ((block.drop 2).take 16) = s.rootHash k && !s.revoked k

/-- Whether a Papol image needs a customer co-signature (R700, R703). -/
def State.cosignDue (s : State) : Bool := (s.lifecycle = 1 || s.lifecycle = 2) && bit (s.fuse 3) 2

/-- The signature checks of a Papol image with `k` blocks as BOOTERR codes (R700, R710, R718). -/
def State.sigErr (s : State) (img : List Word) (k : Nat) : Nat :=
  let n := img.length - 34 * k
  let one := (img.drop n).take 34
  let two := img.drop (n + 34)
  if ¬ sigOk (img.take n) one then 3
  else if pf one 1 0 4 ≠ 2 ∨ ¬ s.keyOk one then 4
  else if s.cosignDue then
    (if k ≠ 2 then 4
    else if ¬ sigOk (img.take (n + 34)) two then 3
    else if 1 < pf two 1 0 4 ∨ ¬ s.rootProgrammed (pf two 1 0 4) ∨ ¬ s.keyOk two then 4
    else 0)
  else 0

/-- BOOTERR of an image of `bytes` bytes, checked in the order of R715: header and HCRC, lengths, ROLL, signatures; 0 where it
passes (R718). -/
def State.bootErr (s : State) (img : List Word) (bytes : Nat) : Nat :=
  if ¬ imgHeadOk img then 1
  else if bytes ≠ 4 * img.length ∨ imgBlocks img bytes = 0 then 2
  else if imgRoll img < s.fwRoll then 5
  else s.sigErr img (imgBlocks img bytes)

/-- Papol is the one of this image, which supervisor RAM holds (R715, R732). -/
def State.takeImage (s : State) (img : List Word) : State :=
  { s with
    pap := { s.pap with version := imgVersion img, roll := imgRoll img }
    sec := { s.sec with digest := shaWords img, hout := imgHout img, image := img } }

end Sys2Proof.Machine
end

