-- ==== Sys2Proof/Machine/Parity.lean ====
section
/-!
DEFINITION. The configuration-parity scanner and the block safe states of CFGPAR (spec/03_register_access.md, R131 to R135;
spec/15_safety.md, R672).
-/

namespace Sys2Proof.Machine

/-- The bits that a register's hidden parity covers: its RW fields, guarded ones among them (spec/03_register_access.md, R131). -/
def parityMask (r : RegRow) : Word := r.rw ||| r.g

/-- The voice sources that a register of the IN front end belongs to, by source code. -/
def voiceSources (a : Nat) : Nat :=
  if 0x280000 ≤ a ∧ a < 0x280080 then 2 ^ (8 + (a - 0x280000) / 0x20)
  else if a = Reg.IN_MICB_CFG then 0xF00
  else if a = Reg.IN_PDM_CFG ∨ a = Reg.IN_PDM_MIC then 0x0FF
  else 0

/-- The DF class of a CFGPAR fault (spec/15_safety.md, R672). -/
def State.parityClass (s : State) (a : Nat) : Nat :=
  if 0x400000 ≤ a ∨ spkOwner a ≠ [] then 2
  else if voiceSources a &&& s.rd F.SAFE_SM_CFG_VOICEMAP ≠ 0 then 4
  else 0

/-- The fields of a register under parity go back to their reset values. -/
def State.reload (s : State) (a : Nat) : State :=
  match regRow? a with
  | some r => (s.setReg a ((s.reg a &&& ~~~ parityMask r) ||| (regReset a &&& parityMask r))).fits a
  | none => s

/-- The ring that a register belongs to. -/
def ringOwner (a : Nat) : Nat := (a - 0x100400) / 0x10

/-- A command or event ring is set up as after reset and starts empty (spec/15_safety.md, R672; spec/04_command_protocol.md,
R153). -/
def State.resetRing (s : State) (n : Nat) : State :=
  let b := Reg.DSP_RING_BASE n
  let s1 := (((s.setReg b (regReset b)).setReg (b + 4) (regReset (b + 4))).setReg (b + 8) 0).setReg (b + 12) 0
  let s2 : State := { s1 with rings := vmod s1.rings n fun _ => State.reset.rings.toList.getD n ⟨0, 6⟩ }
  [b, b + 4, b + 8].foldl (fun (s : State) a => s.fits a) s2

/-- The engines with a task that writes or reads internal ring `n`. -/
def State.ringEngines (s : State) (n : Nat) : List Nat :=
  match s.placed? with
  | some g => indices 8 fun e => match s.hosted? e with
    | some l => (s.tasksOn g l).any fun t => t.readsRing (n - 16) || t.writesRing (n - 16)
    | none => false
  | none => []

/-- The set-up of internal ring `n` is written anew from the image; with no image, as after reset (spec/15_safety.md, R672). -/
def State.rewriteRing (s : State) (n : Nat) : State :=
  let b := Reg.DSP_RING_BASE n
  let g := s.geo n
  let w := if s.on (F.DSP_RING_CFG_ENABLE n) then w32 (2 ^ 16 + g.log2) else regReset (b + 4)
  let s1 := match s.placed?.bind (·.ring? (n - 16)) with
    | some q => (s.setReg b (w32 (q.base * 256))).setReg (b + 4) (w32 (2 ^ 16 + q.log2))
    | none => (s.setReg b (w32 g.base)).setReg (b + 4) w
  [b, b + 4, b + 8].foldl (fun (s : State) a => s.fits a) s1

/-- A DSP register is found corrupted (spec/15_safety.md, R672). -/
def State.dspParity (s : State) (a : Nat) : State :=
  if 0x100400 ≤ a ∧ a < 0x100600 then
    let n := ringOwner a
    if n < 4 then s.resetRing n
    else if n < 16 then s.abortAll fun s sid => s.usesRing sid n
    else ((s.ringEngines n).foldl (fun (s : State) e => s.engineFails e 0x201 false 0) s).rewriteRing n
  else s.reload a

/-- The block that owns a register enters its safe state (spec/15_safety.md, R672). SAFE registers take chip reaction M. -/
def State.paritySafe (s : State) (a : Nat) : State :=
  if spkOwner a ≠ [] then
    (spkOwner a).foldl (fun (s : State) n =>
      if s.phase n = phSlave then s
      else if held (s.phase n) then s.modSpk n fun x => { x with why := 0x701, start := false }
      else (s.diagAbort n).faultHold n 0x701) s
  else if swReg a then
    let s1 := if s.on F.OUT_SW_CTRL_UPDATE then (s.clr F.OUT_SW_CTRL_UPDATE).set1 F.OUT_SW_STAT_XFERERR else s
    (if s.clk.due then s1.moveDrop stsDenied 2 else s1)
  else if a = Reg.OUT_HPL_CFG then s.hpSafe true
  else if 0x305000 ≤ a ∧ a < 0x306000 then s.cvSettleAll
  else if 0x200000 ≤ a ∧ a < 0x200200 then
    let p := (a - 0x200000) / 0x100
    (((s.finishAll (fun e => e.opcode = 0x111 && e.targets.contains (.port p)) stsDenied 2).setPort p false).abortAll fun s sid =>
      s.usesPort sid p)
  else if 0x280000 ≤ a ∧ a < 0x2C0000 then s.showFe
  else if a = Reg.PWR_GPIO_IO then (s.reload a).showGpio
  else if a < 0x100000 then s.reload a
  else if a < 0x200000 then s.dspParity a
  else s

/-- Whether the safe state of the register's block restores its function, by a reload of the register or the handling of an engine
(spec/15_safety.md, R672). -/
def parityRestores (a : Nat) : Bool :=
  decide (a < 0x200000) && !(decide (0x100440 ≤ a ∧ a < 0x100500))

/-- A parity mismatch is found (spec/03_register_access.md, R134, R135; spec/15_safety.md, R672): counted, latched, recorded, and the
owning block enters its safe state, which counts as a repair where it restores the block's function and passes the fault up
otherwise (spec/01_architecture.md, R24); in a chip safe state it is recorded alone (R28). -/
def State.parityFault (s : State) (a : Nat) : State :=
  let region := a / 0x100000
  let s1 := s.sat F.SAFE_CFGPAR_ADDR_COUNT 1
  let s2 := if s1.on F.SAFE_CFGPAR_ADDR_VALID then s1 else (s1.set1 F.SAFE_CFGPAR_ADDR_VALID).wr F.SAFE_CFGPAR_ADDR_ADDR a
  let f : FaultInfo := ⟨0x701, s.parityClass a, region, if parityRestores a then 2 else 4, 0, 0, a, false, true⟩
  if s.chipSafe then s2.fault f
  else
    let s3 := if 0x400000 ≤ a then s2.toChipAs .m f
      else if parityRestores a then (s2.fault f).repCount region else (s2.fault f).escalated region
    let no := s3.recnoOf 0x701 0
    let s4 : State := { s3 with link := { s3.link with cfgpar := s3.link.cfgpar.filter (fun e => e.1 ≠ a) ++ [(a, no)] } }
    (s4.raiseSafe 1 0 0 region no 0x701 0).paritySafe a

/-- PARITY_SCAN (spec/03_register_access.md, R131, R132, R134): `flip` names the bits of the register, and as bit 32 its hidden parity
bit, that an upset has turned over since the last scan; only fields under parity can be. A mismatch that stands is reported
once. -/
def execParityScan (addr : BitVec 24) (flip : BitVec 33) (s : State) : Host.Outcome State Fault Refusal :=
  let a := addr.toNat
  match regRow? a with
  | none => .next s
  | some r =>
    let upset := flip.extractLsb' 0 32 &&& parityMask r
    if parityMask r = 0 then .next s
    else
      let odd := (popcount upset + b2n (flip.getLsbD 32)) % 2 = 1
      let was := s.link.badParity.contains a
      let s1 := s.setReg a (s.reg a ^^^ upset)
      let bad := s.link.badParity.filter (· ≠ a)
      let s2 : State := if odd then { s1 with link := { s1.link with badParity := if was then bad else bad ++ [a] } } else s1
      .next (if s2.link.badParity.contains a ∧ ¬ (was ∧ s.cfgHit a) then s2.parityFault a else s2)

end Sys2Proof.Machine
end

