-- ==== Sys2Proof/Machine/Monitor.lean ====
section
/-!
DEFINITION. What the safety monitor and the detectors around it find (spec/15_safety.md, R661 to R669, R677 to R684, R694) and
what a missed deadline means (spec/01_architecture.md, R25, R26).
-/

namespace Sys2Proof.Machine

def State.modSaf (s : State) (f : Saf → Saf) : State := { s with saf := f s.saf }

/-! The supervisor's own faults. -/

/-- SUPLOCK (R670, R688): Papol halts, and the CTL region restarts it. -/
def execSuplock (ecc : Bool) (s : State) : Host.Outcome State Fault Refusal :=
  if s.pap.run ≠ .running then .next s
  else
    let code := if ecc then 2 else 1
    let s1 : State := { s with pap := { s.pap with run := .halted } }
    .next ((s1.fault ⟨code, 0, rgCtl, 3, 0, 0, 0, false, false⟩).begins rgCtl code 0 0 3)

/-- SUPERVISOR_RESTART (spec/01_architecture.md, R24, R25, R28; spec/04_command_protocol.md, R180, R799): the CTL region's handler
restarts Papol. It does not where the fault was found in a chip safe state or has gone to chip level (log entry 68). -/
def execSupervisorRestart (s : State) : Host.Outcome State Fault Refusal :=
  if s.pap.run ≠ .halted ∨ s.pstate < stListen ∨ ¬ s.saf.work.any (fun w => w.region = rgCtl && w.code ≤ 2) then .next s
  else .next (((s.repCount rgCtl).ends rgCtl 1 0 0).ends rgCtl 2 0 0).papolRuns

/-! Deadlines (spec/01_architecture.md, R25, R26). -/

/-- The action of a late handler stops; one that waits has none. The restarts of the supervisor and of the monitor, and the arbitration
and failover of the converters, act only while their fault is at work (R25). -/
def State.stopAction (s : State) (w : Work) : State :=
  if w.wait then s
  else if w.code = 0x205 then
    { s with banks := { s.banks with repls := s.banks.repls.filter fun (r : RowRepl) => ¬ (r.bank = w.unit ∧ r.row = w.sub) } }
  else if w.region = rgDsp then
    { s with graph := { s.graph with recs := s.graph.recs.filter fun (r : Recovery) => ¬ (r.code = w.code ∧ r.failed = w.unit) } }
  else if w.region = rgOut then s.modGrp (w.unit / 4) fun x => { x with seq := none }
  else if w.region = rgSafe then s.modMadc fun x => { x with arb := x.arb && w.code ≠ 0xA01, plan := x.plan && w.code ≠ 0xA02 }
  else s

/-- DEADLINE_EXPIRE (spec/01_architecture.md, R22 to R28; R688): of the region's faults at work whose deadline target is not met, waiting
ones among them, the oldest is late. The next level takes it; from region level it goes to chip level. The spec does not say which
collector counts the DEADLINE fault: it counts in the late fault's region and in SAFE, whose fault F-0x0702 is (log entry 104). -/
def execDeadlineExpire (region : Fin 5) (s : State) : Host.Outcome State Fault Refusal :=
  match s.saf.work.find? (fun w => w.region = region.val && !w.met) with
  | none => .next s
  | some w =>
    if s.chipSafe then .next s
    else
      let s1 := (s.set1 (errOverrun region.val)).stopAction w
      if w.level < 3 then .next (s1.takesUp { w with level := w.level + 1 })
      else .next (((s1.ends region.val w.code w.sub w.unit).escalated region.val).toChip
        ⟨0x702, 0, rgSafe, 4, 0, 0, w.code, false, false⟩)

/-! Output detectors. -/

/-- The code of an ISNS result from mid-scale (spec/13_monitoring_converters.md). -/
def isnsSq (c : BitVec 12) : Nat := ((c.toNat : Int) - 2048).natAbs ^ 2

/-- Whether E exceeds PCEIL × 10^(LOUDTHR / 20) (R663): current in steps of 15 / 2048 A, Z_nom in mΩ, PCEIL in 0.5 W; the twentieth
powers are compared. -/
def loudExceeds (sumSq zn pceil thr : Nat) : Bool :=
  decide ((pceil * 2048 ^ 2 * 2000) ^ 20 * 10 ^ min 24 thr < (sumSq * 225 * zn) ^ 20)

/-- LOUD (R663): the four ISNS results of a millisecond. -/
def execLoud (chan : Fin 12) (i0 i1 i2 i3 : BitVec 12) (s : State) : Host.Outcome State Fault Refusal :=
  let n := chan.val
  let ph := s.phase n
  if s.on F.SAFE_SM_STAT_SMOK ∧ inMask (s.rd F.SAFE_SM_CFG2_LOUDEN) n ∧ (ph = phUnmute ∨ ph = phPlay ∨ ph = phHold)
      ∧ loudExceeds (isnsSq i0 + isnsSq i1 + isnsSq i2 + isnsSq i3) (s.znom n) (s.rd F.OUT_SPK_FUSE_PCEIL) (s.rd F.SAFE_SM_LOUD_LOUDTHR) then
    .next (((s.diagAbort n).faultHold n 0x30D).outFault 0x30D 2 0 n 0 false)
  else .next s

/-- Whether a duty differs from its prediction by more than 4 % of the period (R667). -/
def dutyOff (measured predicted : BitVec 16) : Bool :=
  decide (4 * 65536 < 100 * ((measured.toNat : Int) - predicted.toNat).natAbs)

/-- Whether a channel's loop model restarts, which takes 20 µs and suspends its duty check (R668). -/
def State.modelBusy (s : State) (n : Nat) : Bool :=
  match (s.spk n).modelAt with
  | some t => decide ((s.now - t) * 1000000 < 20 * 24576000)
  | none => false

/-- DUTY_CHECK (R667, R668): the measured and the predicted duty of a leg in two consecutive periods. -/
def execDutyCheck (chan : Fin 12) (duty : LegDuty) (s : State) : Host.Outcome State Fault Refusal :=
  .next (if dutyOff duty.measured0 duty.predicted0 ∧ dutyOff duty.measured1 duty.predicted1 ∧ s.modelBusy (s.master chan.val) = false then
    s.legDetected chan.val (b2n duty.legM) else s)

/-- A loop model's copies disagree (R668): it restarts, and no output action follows. -/
def State.loopMod (s : State) (n : Nat) : State :=
  ((s.modSpk (s.master n) fun x => { x with modelAt := some s.now }).fault ⟨0x30E, 0, rgOut, 2, 0, n, 0, false, false⟩).repCount rgOut

/-- LOOPMOD (R668). -/
def execLoopmod (chan : Fin 12) (s : State) : Host.Outcome State Fault Refusal := .next (s.loopMod chan.val)

/-! Voters (R669). -/

/-- Region, UNIT and SUB of a voter's VOTE record (R691). -/
def voterPlace : Voter → Nat × Nat × Nat
  | .attenuation n => (rgOut, n.val, 0)
  | .croaker k => (rgOut, 0, k.val)
  | .muteN => (rgOut, 0, 0)
  | .alert p => (rgOut, 0, p.val)
  | .commit => (rgDsp, 0, 0)

/-- The outcome of a voter without a majority (R669). -/
def State.noMajority (s : State) : Voter → State
  | .attenuation n => ((s.diagAbort n.val).faultHold n.val 0x30C).outFault 0x30C 2 0 n.val 0 false
  | .croaker k => ((s.modOut fun o => { o with crkFailed := true }).outFault 0x309 1 k.val 0 0 true).outShow
  | .muteN => ((s.modOut fun o => { o with muteHeld := true }).outFault 0x310 0 0 0 0 true).muteChanged
  | .alert p =>
    ((s.modOut fun o => { o with alertHeld := o.alertHeld ||| 2 ^ p.val }).outFault 0x30F 1 p.val 0 0 true).alertEval
  | .commit => s.commitLost.toChip ⟨0x207, 2, rgDsp, 4, 0, 0, 0, false, true⟩

/-- A voted copy disagrees: the first is outvoted and excluded, the second leaves no majority (R669). -/
def State.vote (s : State) (v : Voter) : State :=
  if s.saf.votes.contains v then s.noMajority v
  else
    let (rg, unit, sub) := voterPlace v
    ((s.modSaf fun q => { q with votes := q.votes ++ [v] }).fault ⟨0x30B, 0, rg, 1, sub, unit, 0, false, false⟩).repCount rg

/-- VOTE (R669). -/
def execVote (voter : Voter) (s : State) : Host.Outcome State Fault Refusal := .next (s.vote voter)

/-- ALERTPIN (R664): the pair has read equal levels for 1 ms. -/
def execAlertpin (s : State) : Host.Outcome State Fault Refusal :=
  if s.on F.SAFE_SM_CFG_ALTPAIR ∧ s.alertLevel 0 = s.alertLevel 1 then
    .next ((s.modOut fun o => { o with pairStuck := true }).outFault 0x30F 1 0 0 0 true).alertEval
  else .next s

/-! Voice inputs (R661, R665). -/

/-- The open streams and channels that a source delivers to. -/
def State.srcReaders (s : State) (src : Nat) : List (Nat × Nat) :=
  s.strs.filterMap fun x =>
    let i := s.rd (F.DSP_STR_CFG_SIDX x.sid)
    let k := if src < 8 then src else src - 8
    if s.usesEnd x.sid (if src < 8 then 4 else 5) k true then some (x.sid, k - i) else none

/-- The next sample of a failed source comes from its substitute and carries DISC (R665). -/
def State.substituted (s : State) (src : Nat) : State := (s.modSaf fun q => { q with vdisc := q.vdisc ++ s.srcReaders src }).showFe

/-- VOICE_STUCK (R661, R665): a microphone's data, its PDM clock or an AADC's modulator output fails its check. -/
def execVoiceStuck (src : Fin 12) (clock : Bool) (s : State) : Host.Outcome State Fault Refusal :=
  let n := src.val
  if ¬ inMask (s.rd F.SAFE_SM_CFG_VOICEMAP) n ∨ ¬ s.srcEn n ∨ (8 ≤ n ∧ clock) then .next s
  else
    let code := if 8 ≤ n then 0x403 else if clock then 0x402 else 0x401
    let alt := s.saf.valt.any fun e => e.1 = n
    let s1 := s.fault ⟨code, 4, rgIn, if alt then 3 else 4, 0, n, 0, false, false⟩
    if s.chipSafe ∨ inMask s.saf.vfail n then .next s1
    else
      let s2 := (s1.modSaf fun q => { q with vfail := q.vfail ||| 2 ^ n }).showFe
      .next (if alt then (s2.repCount rgIn).substituted n else s2.escalated rgIn)

/-! The monitor itself (R677 to R681). -/

/-- The monitor's cores disagree (R677): a second time within 1 s takes reaction O. Its restart within 1 ms is the region's work, with the
deadline of the SAFE region (spec/01_architecture.md, R23). -/
def State.smLock (s : State) : State :=
  let f : FaultInfo := ⟨0x703, 0, rgSafe, 3, 0, 0, 0, false, false⟩
  let again := match s.saf.smAt with
    | some t => decide (s.now - t < 24576000)
    | none => false
  let s1 := ((s.modSaf fun q => { q with smAt := some s.now }).clr F.SAFE_SM_STAT_SMOK).showFn
  if again then s1.toChipAs .o f else (s1.fault f).begins rgSafe 0x703 0 0 3

/-- SMLOCK (R677). -/
def execSmlock (s : State) : Host.Outcome State Fault Refusal := .next (if s.on F.SAFE_SM_STAT_SMOK then s.smLock else s)

/-- SAFETY_MONITOR_RESTART (R677; spec/01_architecture.md, R25, R28): FAULT_N follows R679 again. A monitor whose fault has gone to chip
level, or was found in a chip safe state, does not restart (log entry 68). -/
def execSafetyMonitorRestart (s : State) : Host.Outcome State Fault Refusal :=
  if s.on F.SAFE_SM_STAT_SMOK ∨ ¬ s.saf.work.any (fun w => w.region = rgSafe && w.code = 0x703) then .next s
  else .next ((((s.modSaf fun q => { q with latch := true }).set1 F.SAFE_SM_STAT_SMOK).repaired rgSafe 0x703 0 0).showFn)

/-- SMWDOG (R678). -/
def execSmwdog (s : State) : Host.Outcome State Fault Refusal :=
  .next (s.toChip ⟨0x704, 0, rgSafe, 4, 0, 0, 0, false, false⟩)

/-- FN_LATCH_EXPIRE (R680). -/
def execFnLatchExpire (s : State) : Host.Outcome State Fault Refusal := .next (s.modSaf fun q => { q with latch := false }).showFn

/-- FN_READBACK (R680, R681): the running monitor refreshes the release latch and reads the ball. -/
def execFnReadback (high : Bool) (s : State) : Host.Outcome State Fault Refusal :=
  if ¬ s.on F.SAFE_SM_STAT_SMOK then .next s
  else
    let s1 := s.wr F.SAFE_FN_STAT_LEVEL (b2n high)
    let driven := s.on F.SAFE_FN_STAT_DRIVE
    let s2 := s1.modSaf fun q => { q with fnHigh := driven && high }
    let s3 :=
      if driven ∧ high ∧ s.saf.fnHigh then (s2.set1 F.SAFE_FN_STAT_FNPIN).toChip ⟨0x705, 0, rgSafe, 4, 0, 0, 0, false, false⟩
      else if driven = false ∧ high = false then s2.set1 F.SAFE_FN_STAT_FNEXT
      else s2
    .next (s3.modSaf fun q => { q with latch := true }).showFn

/-! Clocks and supplies (R682 to R684). -/

/-- Whether a PLL's count agrees within 1 % with the ratio that its feedback sets: `k` VCO cycles at 2^24 feedback per count. -/
def countFits (cnt ref w k : Nat) : Bool :=
  let got := cnt * 2 ^ 24 * k
  decide ((if got < ref * w then ref * w - got else got - ref * w) * 100 ≤ ref * w)

/-- Whether the reference count of 256 µs agrees within 8 % with REFFAM. -/
def refFits (cnt hz : Nat) : Bool := decide (92 * hz * 256 ≤ cnt * 100 * 1000000 ∧ cnt * 100 * 1000000 ≤ 108 * hz * 256)

/-- The clocks whose counts fail a window: bit 0 SYSPLL, 1 AUDPLL, 2 SWPLL, 3 the reference; only clocks that run. -/
def State.clocksBad (s : State) (ref sys aud sw : Nat) : Nat :=
  let ok := [countFits sys ref (s.reg Reg.CTL_SYSPLL_CFG).toNat 32, countFits aud ref (s.reg Reg.CTL_AUDPLL_CFG).toNat 64,
    countFits sw ref s.swNow 64]
  maskOf 4 fun p => if p = 3 then !refFits ref s.refHz else s.pllRuns p && !ok.getD p true

/-- CLKMON (R682): a window's counts of the reference, SYS / 16, AUD / 8 and the SWPLL VCO / 64. -/
def execClkmon (ref sys aud sw : Nat) (s : State) : Host.Outcome State Fault Refusal :=
  if s.on F.CTL_CLK_STAT_REFLOST ∨ s.pstate < stListen then .next s
  else
    let bad := s.clocksBad ref sys aud sw
    let s1 := (s.wr F.SAFE_SM_MON_CLKBAD (s.rd F.SAFE_SM_MON_CLKBAD ||| bad)).modSaf fun q => { q with clkPrev := bad }
    .next (forEach (fun p (z : State) =>
      if inMask bad p = false then z.faultGone 0x505 0 p
      else if inMask s.saf.clkPrev p then z.toChip ⟨0x505, 0, rgSafe, 4, 0, p, 0, false, true⟩
      else z) 4 s1)

/-- SAFEOSC (R683): the oscillator's cycles in 256 µs of the reference. -/
def execSafeosc (cycles : Nat) (s : State) : Host.Outcome State Fault Refusal :=
  if s.on F.CTL_CLK_STAT_REFLOST ∨ s.pstate < stListen then .next s
  else
    let bad := !decide (92 * 4096 ≤ 100 * cycles ∧ 100 * cycles ≤ 108 * 4096)
    let s1 := s.modSaf fun q => { q with oscBad := bad }
    .next (if bad = false then s1.faultGone 0x706 0 0
      else if s.saf.oscBad then s1.toChip ⟨0x706, 0, rgCtl, 4, 0, 0, 0, false, true⟩ else s1)

/-- The window of a supply in mV: 0 DVDD, 1 AVDD, 2 IOVDD, 3 AONVDD, 4 HPVDD. -/
def State.supplyWindow (s : State) (k : Nat) : Nat × Nat :=
  if k = 0 then (700, 920) else if k = 1 ∨ (k = 2 ∧ s.on F.CTL_SYS_STRAP_IOV18 = false) then (2900, 3700)
  else (1650, 1950)

/-- VMON (R684): what a supply has read for 10 µs. -/
def execVmon (supply : Fin 5) (mV : Nat) (s : State) : Host.Outcome State Fault Refusal :=
  let k := supply.val
  let vin := s.rd F.SAFE_SM_MON_VIN
  let (lo, hi) := s.supplyWindow k
  if s.pstate < stListen ∨ (k = 4 ∧ s.hoPhase 0 = hoOff ∧ s.hoPhase 1 = hoOff) then .next s
  else if lo ≤ mV ∧ mV ≤ hi then .next ((s.wr F.SAFE_SM_MON_VIN (vin ||| 2 ^ k)).faultGone 0x602 0 k)
  else if inMask vin k then
    .next ((s.wr F.SAFE_SM_MON_VIN (vin - 2 ^ k)).toChip ⟨0x602, 0, rgSafe, 4, 0, k, 0, false, true⟩)
  else .next s

/-! Latent-fault tests (R694). -/

/-- LATENT_TEST (R694): a test that fails records the fault of its mechanism; the lockstep test of a running engine injects a mismatch
and regrows (R309). -/
def execLatentTest (test : LatentTest) (pass : Bool) (s : State) : Host.Outcome State Fault Refusal :=
  match test with
  | .runningEngine n =>
    let asked := s.rd F.SAFE_SM_CFG2_SELFPER ≠ 0 ∨ (s.pendOp? 0x703).any fun e => pb e.payload 0 0 || pb e.payload 0 3
    .next (if asked then s.engineFails n.val 0x201 pass 0 else s)
  | .spareEngine n => .next (if pass then s else s.engineFails n.val 0x201 false 0)
  | .supervisor => .next (if pass then s else s.toChip ⟨1, 0, rgCtl, 4, 0, 0, 0, false, false⟩)
  | .monitor => .next (if pass ∨ ¬ s.on F.SAFE_SM_STAT_SMOK then s else s.smLock)
  | .parity => .next (if pass then s else s.toChipAs .m ⟨0x701, 2, rgSafe, 4, 0, 0, 0, false, false⟩)
  | .deadline => .next (if pass then s else s.toChipAs .n ⟨0x702, 0, rgSafe, 4, 0, 0, 0, false, false⟩)
  | .clock c => .next (if pass then s else s.toChip ⟨0x505, 0, rgSafe, 4, 0, c.val, 0, false, false⟩)
  | .voltage k => .next (if pass then s else s.toChip ⟨0x602, 0, rgSafe, 4, 0, k.val, 0, false, false⟩)
  | .voter v => .next (if pass then s else s.vote v)

end Sys2Proof.Machine
end

