-- ==== Sys2Proof/Machine/Safety.lean ====
section
/-!
DEFINITION. The commands of the safety monitor (spec/15_safety.md, R695 to R698).
-/

namespace Sys2Proof.Machine

def cardSafetyCfg : CmdSpec := ⟨0x700, 4, 4, false, true, false, false, true, false, true⟩

/-- The word of SAFE_SM_CFG as applied (R679, R707). -/
def State.smCfg (s : State) (w : Word) : Word :=
  let w1 := putBits (w &&& 0xFCFFFFFF) 28 4 (bits w 28 4 ||| s.rd F.SAFE_SM_FUSE_FNMIN)
  if s.on F.SAFE_SM_FUSE_PAIRREQ then w1 ||| 0x08000000 else w1

/-- The word of SAFE_SM_CFG2 as applied (R707). -/
def State.smCfg2 (s : State) (w : Word) : Word :=
  let w1 := w &&& 0xC0FF0FFF
  if s.on F.SAFE_SM_FUSE_OFFREQ then putBits w1 30 2 1 else w1

/-- The fields that R679 or SAFE_SM_FUSE override (R695). -/
def State.smClamps (s : State) (ws : List Word) : List Clamp :=
  let cfg := s.smCfg (pw ws 0)
  (if bits cfg 28 4 ≠ pf ws 0 28 4 then [⟨0xF, 1, 28, bits cfg 28 4⟩] else [])
    ++ (if bits cfg 27 1 ≠ pf ws 0 27 1 then [⟨0xF, 1, 27, 1⟩] else [])
    ++ (if s.on F.SAFE_SM_FUSE_OFFREQ ∧ pf ws 1 30 2 = 0 then [⟨0xF, 2, 30, 1⟩] else [])

/-- The substitution that word 3 sets or clears (R665). -/
def State.setSubst (s : State) (voice alt : Nat) : State :=
  if voice = 0xF then s.modSaf fun q => { q with valt := [] }
  else
    let s1 := s.modSaf fun q => { q with
      valt := q.valt.filter (fun (e : Nat × Nat) => e.1 ≠ voice) ++ (if alt = 0xF then [] else [(voice, alt)]) }
    if inMask s.saf.vfail voice ∧ alt ≠ 0xF then s1.substituted voice else s1

/-- SAFETY_CFG (R665, R674, R679, R695). -/
def execSafetyCfg (p : Packet) (s : State) : Host.Outcome State Fault Refusal :=
  s.card cardSafetyCfg p fun s =>
    let ws := p.payload
    let voice := pf ws 3 0 4
    let alt := pf ws 3 12 4
    if 24 < pf ws 2 0 8 then .bad 2
    else if (12 ≤ voice ∧ voice ≤ 14) ∨ (12 ≤ alt ∧ alt ≤ 14) ∨ (voice = 0xF ∧ alt ≠ 0xF) then .bad 3
    else if s.chipSafe ∨ (List.range 12).any (fun n => s.phase n ≠ phOff && s.phase n ≠ phSlave) then .refuse stsDenied 2
    else
      let s1 := ((s.putReg Reg.SAFE_SM_CFG (s.smCfg (pw ws 0))).putReg Reg.SAFE_SM_CFG2 (s.smCfg2 (pw ws 1))).putReg Reg.SAFE_SM_LOUD
        (pw ws 2 &&& 0xFF)
      .clampedOk [] (s.smClamps ws) ((s1.setSubst voice alt).showFe.showFn.alertEval)

def cardFaultRead : CmdSpec := ⟨0x701, 1, 1, true, true, true, true, false, false, false⟩

/-- FAULT_READ (R691). -/
def execFaultRead (p : Packet) (s : State) : Host.Outcome State Fault Refusal :=
  s.card cardFaultRead p fun s =>
    let n := pf p.payload 0 0 16
    match (if n = 0 then s.saf.recs.getLast? else s.saf.recs.find? fun r => r.recno = n) with
    | some r => .done stsOk 0 r.words [] s
    | none => .bad 0

def cardFaultClear : CmdSpec := ⟨0x702, 1, 1, false, true, true, false, false, false, false⟩

/-- Records that `p` names lose LATCHED; a REGLINK record cleared clears REGLINK and permits VOUT_COMMAND (R696). -/
def State.clearRecs (s : State) (p : FaultRec → Bool) : State :=
  let link := s.saf.recs.any fun r => p r && r.latched && r.code = 0x601
  let s1 := (s.modSaf fun q => { q with recs := q.recs.map fun (r : FaultRec) => if p r then { r with latched := false } else r }).showFn
  if link then { s1 with age := { s1.age with blocked := false } }.clr F.CTL_REG_STAT_REGLINK else s1

/-- FAULT_CLEAR (R696). -/
def execFaultClear (p : Packet) (s : State) : Host.Outcome State Fault Refusal :=
  s.card cardFaultClear p fun s =>
    let n := pf p.payload 0 0 16
    if n = 0xFFFF then .ok (s.clearRecs fun r => !r.active)
    else match s.saf.recs.find? (fun r => r.recno = n) with
      | some r => if r.active then .refuse stsDenied 2 else .ok (s.clearRecs fun q => q.recno = n)
      | none => .bad 0

def cardSelftestRun : CmdSpec := ⟨0x703, 1, 1, false, true, true, false, false, false, false⟩

/-- SELFTEST_RUN (R697): the FAULT_N pulse lasts up to SELFTEST_DONE. -/
def execSelftestRun (p : Packet) (s : State) : Host.Outcome State Fault Refusal :=
  s.card cardSelftestRun p fun s =>
    let w := pw p.payload 0
    s.unlessBusy [.selftest] <|
      if s.chipSafe ∨ (bit w 0 ∧ (s.rd F.DSP_SPARE_SPMAP = 0 ∨ s.graph.molt.isSome)) ∨ (bit w 2 ∧ ¬ s.on F.SAFE_SM_CFG_FNTEST) then
        .refuse stsDenied 2
      else .pend [] [.selftest] (s.modSaf fun q => { q with mark := q.next, pulse := bit w 2 }).showFn

/-- The faults that failing tests other than AUTO record (R694); those of AUTO are LATENT_TEST's. -/
def State.testFails (s : State) (fail unit : Nat) : State :=
  let s1 := if inMask fail 0 then s.engineFails (unit % 8) 0x201 false 0 else s
  let s2 := if inMask fail 1 then s1.loopMod unit else s1
  if inMask fail 2 then (s2.set1 F.SAFE_FN_STAT_FNPIN).toChip ⟨0x705, 0, rgSafe, 4, 0, 0, 0, false, false⟩ else s2

/-- The first record from number `n` on that was not injected; 0 with none (R697). -/
def State.firstFrom (s : State) (n : Nat) : Nat :=
  match s.saf.recs.find? (fun r => !r.inj && (r.recno + 2 ^ 16 - n) % 2 ^ 16 < 2 ^ 15) with
  | some r => r.recno
  | none => 0

/-- SELFTEST_DONE (R697): `fail` names the failing tests, `unit` the engine or channel that fails. -/
def execSelftestDone (fail : BitVec 4) (unit : Fin 12) (s : State) : Host.Outcome State Fault Refusal :=
  match s.atWork? 0x703 with
  | none => .next s
  | some e =>
    let run := pf e.payload 0 0 4
    let bad := run &&& fail.toNat
    let s1 := (s.modSaf fun q => { q with pulse := false }).showFn
    let s2 := s1.testFails bad unit.val
    let s3 := if inMask run 2 ∧ ¬ inMask bad 2 then s2.set1 F.SAFE_FN_STAT_TESTED else s2
    let no := if bad = 0 then 0 else s3.firstFrom (if inMask bad 3 then s.saf.mark else s.saf.next)
    .next (s3.finish e stsOk 0 [w32 (bad * 2 ^ 8 + (run - bad)), w32 no] [])

def cardSafeRelease : CmdSpec := ⟨0x704, 1, 1, false, true, true, false, true, false, false⟩

/-- The chip leaves its safe state (R698; spec/01_architecture.md, R28): after M, channels in Hold and the headphone and line outputs
run Unmute; after O, channels stay in Fault hold. -/
def State.leaveSafe (s : State) : State :=
  let mode := s.rd F.SAFE_SM_STAT_CSS
  let (region, code, unit) := s.saf.causeAt
  let recno := s.saf.cause
  let s1 := ((s.modSaf fun q => { q with cause := 0, causeAt := (0, 0, 0) }).wr F.SAFE_SM_STAT_CSS 0)
  let s2 := (forEach (fun r (z : State) => z.wr (errLevel r) (z.workLevel r)) 5 s1).showFn.raiseSafe 2 2 mode region recno code unit
  let s3 := if mode = 1 then (forEach (fun n (z : State) => z.tryUnmute n) 12 s2).hpJack else s2
  s3.cvSettleAll.outShow

/-- SAFE_RELEASE (R676, R698). -/
def execSafeRelease (p : Packet) (s : State) : Host.Outcome State Fault Refusal :=
  .next (s.take cardSafeRelease p (fun s =>
    if ¬ s.chipSafe then .refuse stsDenied 2
    else if pf p.payload 0 0 16 ≠ s.saf.cause then .bad 0
    else if s.saf.fixed ∨ s.saf.recs.any (fun r => r.recno = s.saf.cause && r.active) then .refuse stsDenied 2
    else s.unlessBusy [.safestate] <| .pend [] [.safestate] s) fun s =>
      match s.atWork? 0x704 with
      | some e => s.leaveSafe.finish e stsOk 0 [] []
      | none => s)

end Sys2Proof.Machine
end

