-- ==== Sys2Proof/Machine/Boot.lean ====
section
/-!
DEFINITION. From reset to READY (spec/02_package_supplies.md, R70 to R79; spec/16_security.md, R715 to R718;
spec/07_shared_banks.md, R341, R342; spec/13_monitoring_converters.md, R610; spec/14_power_states.md, R646, R651).
-/

namespace Sys2Proof.Machine

/-- RESET (spec/02_package_supplies.md, R70): RESET_N low for a time in ns. -/
def execReset (ns : Nat) (s : State) : Host.Outcome State Fault Refusal :=
  if ns < 1000 then .next s
  else if ns < 10000 then .fault .resetPulseUndefined
  else .next s.fresh

/-- SUPPLY_MONITOR_RESET (spec/02_package_supplies.md, R77, R79): the device stays in reset until BOOT; the rails come up anew, and the
IOVDD level is detected again (log entry 93). -/
def execSupplyMonitorReset (s : State) : Host.Outcome State Fault Refusal :=
  let s1 := s.fresh
  .next { s1 with pwr := { s1.pwr with iov := false } }

def State.setBoot (s : State) (b : BootPhase) : State := { s with pap := { s.pap with boot := b } }

/-- Straps and detection; the IOVDD level once after power-up (spec/02_package_supplies.md, R72, R74, R77; spec/09_clocks.md, R422,
R425). -/
def State.detect (s : State) (b : BootScan) : State :=
  let s0 := ((s.wr F.CTL_SYS_STRAP_HOSTSEL (b2n b.hostsel)).wr F.CTL_SYS_STRAP_ADDR b.addr.toNat).wr F.CTL_SYS_STRAP_BOOTSEL
    (b2n b.bootsel)
  let s1 := if s.pwr.iov then s0 else { s0 with pwr := { s0.pwr with iov := true } }.wr F.CTL_SYS_STRAP_IOV18 (b2n b.iov18)
  let fam := b2n (b.refCount < 46080)
  (s1.wr F.CTL_CLK_STAT_REFFAM fam).wr F.CTL_CLK_STAT_AUDFAM fam

/-- Whether spare row `k` of a bank fails the start-up march. -/
def scanFails (b : BootScan) (bank k : Nat) : Bool := b.spares.any fun e => e.1.val = bank && e.2.getLsbD k

/-- The spare rows of a bank that fail the start-up march. -/
def scanSpares (b : BootScan) (bank : Nat) : List Nat := indices 8 (scanFails b bank)

/-- The failed rows of a bank, each once. -/
def scanRows (b : BootScan) (bank : Nat) : List Nat :=
  indices 512 fun r => b.rows.any fun e => e.1.val = bank && e.2.val = r

/-- Whether the start-up march retires a bank (spec/07_shared_banks.md, R342). -/
def scanRetires (b : BootScan) (bank : Nat) : Bool :=
  b.banks.getLsbD bank || decide (8 < (scanSpares b bank).length + (scanRows b bank).length)

/-- The start-up march: failed rows are replaced by sound spare rows and reported, banks are retired (spec/07_shared_banks.md, R341, R342,
R352, R355). -/
def State.startMarch (s : State) (b : BootScan) : State :=
  let s1 := { s with banks := { s.banks with failed := (List.range 16).flatMap fun k => (scanSpares b k).map fun r => (k, r) } }
  forEach (fun k (z : State) =>
    if scanRetires b k then z.wr (F.DSP_SB_STAT_PWR k) 3
    else (scanRows b k).foldl (fun (z : State) r =>
      ((z.useSpare k r).repCount rgDsp).raiseBankRepair 4 k (z.spareRow k) 3 r 0x3F 0x3F) z) 16 s1

/-- VOUT_MODE as read before READY: linear mode with an exponent of -8 or below (spec/14_power_states.md, R651). -/
def State.readVoutMode (s : State) (v : Option (BitVec 8)) : State :=
  match v with
  | some m =>
    let e := m.toNat % 32
    let ok := m.toNat / 32 = 0 && signed 5 e ≤ -8
    let s1 := (s.wr F.CTL_REG_STAT_EXP e).wr F.CTL_REG_STAT_MODEOK (b2n ok)
    { s1 with age := { s1.age with exp := if ok then some e else none } }
  | none => s

def State.setRun (s : State) (r : PapolRun) : State := { s with pap := { s.pap with run := r } }

/-- Papol is started: SWPLL set up, spares reserved, the monitor releases FAULT_N, EVT_READY with ESEQ 1, then what was reported
(spec/16_security.md, R715; spec/04_command_protocol.md, R183, R799; spec/09_clocks.md, R442; spec/14_power_states.md, R646). -/
def State.ready (s : State) (img : List Word) (src : Nat) : State :=
  let w := w32 ((2 * 1228800000 * 2 ^ 24 + s.refHz) / (2 * s.refHz))
  let s1 := ((s.takeImage img).setBoot .ready).wr F.CTL_SEC_STAT_BOOTSRC src
  let s2 := ((s1.clocksUp.setReg Reg.OUT_SW_FREQ w).setReg Reg.OUT_SW_FREQA w).swStart
  let s4 := s2.respare.spareUp.monitorUp.setRun .running
  let s5 := s4.issueAt evReady [s4.pap.version, w32 src] false (BitVec.ofNat 64 s4.now)
  State.drain s5.pap.reports.length s5

/-- The slot that R716 tries first: the higher ROLL, then the higher VERSION; slot A where neither decides or a header is wrong. -/
def bFirst (a b : Option (List Word)) : Bool :=
  match a, b with
  | some x, some y => imgHeadOk y && (!imgHeadOk x || imgRoll x < imgRoll y
      || (imgRoll x = imgRoll y && (imgVersion x).toNat < (imgVersion y).toNat))
  | none, some _ => true
  | _, none => false

/-- BOOTERR of a slot (R718). -/
def State.slotErr (s : State) (slot : Option (List Word)) : Nat :=
  match slot with
  | some img => s.bootErr img (4 * img.length)
  | none => 6

/-- Fetch and Verify from flash: the slots in the order of R716; a failed one sets BOOTERR, and both failed hold the device short of
READY (R718). -/
def State.flashBoot (s : State) (a b : Option (List Word)) : State :=
  let swap := bFirst a b
  let one := if swap then b else a
  let two := if swap then a else b
  if s.slotErr one = 0 then s.ready (one.getD []) (b2n swap)
  else if s.slotErr two = 0 then (s.wr F.CTL_BOOT_STAT_BOOTERR (s.slotErr one)).ready (two.getD []) (b2n (!swap))
  else (s.wr F.CTL_BOOT_STAT_BOOTERR (s.slotErr two)).setBoot .held

/-- A converter that fails at start-up; both hold the device short of READY (spec/13_monitoring_converters.md, R610). -/
def State.startMadcs (s : State) (m : BitVec 2) : State :=
  forEach (fun k (z : State) => if m.getLsbD k then z.madcFails k else z) 2 s

/-- BOOT (R715 to R718; spec/02_package_supplies.md, R71): the phases from the release of reset up to READY, the wait for a host image,
a hold short of READY with FAULT_N low, or the stay in reset that TESTMODE keeps. -/
def execBoot (scan : BootScan) (s : State) : Host.Outcome State Fault Refusal :=
  if s.pap.boot ≠ .begin ∨ s.pap.run ≠ .off then .next s
  else if scan.testmode then .next (s.setBoot .test)
  else
    let s1 := (s.detect scan).startMarch scan
    if scanRetires scan 0 then
      .next (((s.detect scan).fault ⟨0x206, 0, rgDsp, 4, 0, 0, 0, false, true⟩).setBoot .held)
    else if scan.madcs = 3 then
      .next ((forEach (fun k (z : State) => z.fault ⟨0xA02, 0, rgSafe, 4, 0, k, 0, false, false⟩) 2 s1).setBoot .held)
    else
      let s2 := forEach (fun n (z : State) => if scan.engines.getLsbD n then z.setRole n roRetired 0xF else z) 8 (s1.startMadcs scan.madcs)
      let s3 := s2.readVoutMode scan.vout
      .next (if scan.bootsel then (s3.set1 F.CTL_BOOT_STAT_WAITIMG).setBoot .waiting else s3.flashBoot scan.slotA scan.slotB)

/-- GO lands: the host image in the bank window is verified, once WAITIMG is set (R717, R718). -/
def State.bootGo (s : State) : State :=
  if ¬ s.on F.CTL_BOOT_STAT_WAITIMG then s
  else
    let len := s.rd F.CTL_BOOT_CTRL_LEN
    let img := s.words 0x820000 (len / 4)
    let bad := s.poisonIn 0x20000 len
    let e := if bad ≠ [] then 3 else s.bootErr img len
    if e = 0 then (s.clr F.CTL_BOOT_STAT_WAITIMG).ready img 2
    else (bad.foldl State.deliverPoison s).wr F.CTL_BOOT_STAT_BOOTERR e

end Sys2Proof.Machine
end

