-- ==== Sys2Proof/Machine/Security.lean ====
section
/-!
DEFINITION. Sessions, firmware molt, attestation, debug unlock, fuses and lifecycle (spec/16_security.md).
-/

namespace Sys2Proof.Machine

open Crypto (shaWords hmacWords)

def State.modSec (s : State) (f : Sec → Sec) : State := { s with sec := f s.sec }

/-- `n` fuse words of the shadow from word `i`. -/
def State.fuseWords (s : State) (i n : Nat) : List Word := (List.range n).map fun k => s.fuse (i + k)

/-- A word with its bytes reversed. -/
def byteSwap (w : Word) : Word :=
  w.extractLsb' 0 8 ++ w.extractLsb' 8 8 ++ w.extractLsb' 16 8 ++ w.extractLsb' 24 8

/-- SERIAL as eight bytes, the most significant first, in two words of R165 (R719). -/
def State.serialBe (s : State) : List Word := [byteSwap (s.fuse 2), byteSwap (s.fuse 1)]

/-- The private key that the TRNG gives next: a number from 1 to the order of the base point less 1 (R719; log entry 91). -/
def State.ephemeral (s : State) : Nat :=
  Crypto.numOf ((List.range 8).map fun i => Config.trng (s.draw + i)) % (Crypto.ecN - 1) + 1

/-! Sessions (R719 to R723). -/

def cardSessionOpen : CmdSpec := ⟨0x800, 17, 17, true, true, true, false, false, false, false⟩

/-- SESSION_OPEN (R700, R719, R722). -/
def execSessionOpen (p : Packet) (s : State) : Host.Outcome State Fault Refusal :=
  s.card cardSessionOpen p fun s =>
    if s.on F.CTL_SEC_STAT_LOCKOUT then .done stsAuthFail 0 [] [] s.authFailed
    else if Crypto.onCurve ((p.payload.drop 1).take 16) = false then .bad 1
    else if s.lifecycle = 3 then .refuse stsDenied 4
    else s.unlessBusy [.session] <| .pend [] [.session] s

/-- SESSION_OPEN_DONE (R719, R720, R722): the new session replaces the old as EVT_CMD_DONE is posted, which waits for Papol
(spec/04_command_protocol.md, R180). -/
def execSessionOpenDone (s : State) : Host.Outcome State Fault Refusal :=
  match s.atWork? 0x800 with
  | none => .next s
  | some e =>
    let qh := (e.payload.drop 1).take 16
    let qd := Crypto.ecdhPublic s.ephemeral
    let z := Crypto.ecdh s.ephemeral qh
    let key := hmacWords (s.fuseWords 20 8) (z ++ qh ++ qd ++ s.serialBe)
    let no := (s.rd F.CTL_SEC_STAT_SESSNO + 1) % 2 ^ 16
    .next ({ s with draw := s.draw + 8 }.finishWith e stsOk 0 (qd ++ [w32 no]) [] (some (key, pf e.payload 0 0 16)))

def cardSessionClose : CmdSpec := ⟨0x801, 0, 0, true, true, true, false, true, false, false⟩

/-- SESSION_CLOSE (R721): the session closes once the reply is written. -/
def execSessionClose (p : Packet) (s : State) : Host.Outcome State Fault Refusal :=
  .next (s.take cardSessionClose p (fun s => .ok s) fun s => s.afterReply 0x801 fun s => s.closeSession 1)

/-- SESSION_IDLE_TIMEOUT (R721). -/
def execSessionIdleTimeout (s : State) : Host.Outcome State Fault Refusal :=
  .next (if s.sec.idleto ≠ 0 then s.closeSession 2 else s)

/-- LOCKOUT (R722). -/
def execLockout (s : State) : Host.Outcome State Fault Refusal :=
  .next (if 8 ≤ s.rd F.CTL_SEC_CNT_CONSEC then s.startLockout else s)

/-- LOCKOUT_END (R722). -/
def execLockoutEnd (s : State) : Host.Outcome State Fault Refusal := .next (s.clr F.CTL_SEC_STAT_LOCKOUT)

/-! Firmware molt (R732 to R734). -/

def cardFwMolt : CmdSpec := ⟨0x802, 3, 3, false, true, true, false, true, false, true⟩

/-- The commands that FW_MOLT waits for (R733). -/
def moltBusy : List Nat := [0x200, 0x203, 0x410, 0x800, 0x803, 0x805, 0x806, 0x807, 0x901]

/-- Quiesce of a molt: the supervisor is quiet (R732). -/
def State.quiesce (s : State) : State :=
  if (s.atWork? 0x802).isSome then { s with pap := { s.pap with run := .molting } } else s

/-- FW_MOLT (R732, R733; spec/04_command_protocol.md, R169): once the reply is written, the supervisor is quiet. -/
def execFwMolt (p : Packet) (s : State) : Host.Outcome State Fault Refusal :=
  .next (s.take cardFwMolt p (fun s =>
    let ofs := pf p.payload 0 2 19 * 4
    let len := pf p.payload 1 0 21
    let img := s.words (0x800000 + ofs) (len / 4)
    let bad := s.poisonIn ofs len
    let err := s.bootErr img len
    if s.spanOn ofs len = false then .bad 0
    else if bad = [] ∧ err = 0 ∧ (s.sec.hout < imgHinMin img ∨ imgHout img < s.sec.hout) then .bad 0
    else if bad = [] ∧ err = 0 ∧ pw p.payload 2 ≠ 0 ∧ pw p.payload 2 ≠ imgVersion img then .bad 2
    else match s.pap.slots.find? (fun e => moltBusy.contains e.opcode) with
    | some e => busyWith e
    | none =>
      s.unlessBusy [.firmware] <|
      if s.on F.PWR_STATE_TRANS then .refuse stsStateBusy (s.rd F.PWR_STATE_TARGET)
      else if bad ≠ [] then .done stsAuthFail 0 [] [] (bad.foldl State.deliverPoison s).authFailed
      else if err = 5 then .refuse stsDenied 4
      else if err ≠ 0 then .done stsAuthFail 0 [] [] s.authFailed
      else .pend [imgVersion img, w32 (imgRoll img), w32 (s.sec.hout * 2 ^ 16 + imgHinMin img), s.pap.version] [.firmware] s)
    fun s => s.afterReply 0x802 State.quiesce)

/-- FW_MOLT_RESUME (R732, R734): the ROM verifies the image in the bank again; the new Papol, or the old one where that fails, posts
what was queued. -/
def execFwMoltResume (s : State) : Host.Outcome State Fault Refusal :=
  match s.atWork? 0x802 with
  | none => .next s
  | some e =>
    if s.pap.run ≠ .molting then .next s
    else
      let ofs := pf e.payload 0 2 19 * 4
      let len := pf e.payload 1 0 21
      let img := s.words (0x800000 + ofs) (len / 4)
      let bad := s.poisonIn ofs len
      let s1 := bad.foldl State.deliverPoison s
      if bad ≠ [] ∨ s1.bootErr img len ≠ 0 then .next (s1.papolRuns.authFailed.finish e stsAuthFail 0 [] [])
      else .next ((s1.takeImage img).papolRuns.finish e stsOk 0 [] [])

/-- MOLT_RESUME_TIMEOUT (R734): a failed restart of the supervisor. -/
def execMoltResumeTimeout (s : State) : Host.Outcome State Fault Refusal :=
  if s.pap.run ≠ .molting then .next s
  else
    let s1 : State := { s with pap := { s.pap with run := .halted } }
    .next (s1.toChip ⟨1, 0, rgCtl, 4, 0, 0, 0, false, false⟩)

/-! Attestation (R731). -/

def cardAttest : CmdSpec := ⟨0x803, 8, 8, true, true, true, false, false, false, false⟩

/-- ATTEST (R731). -/
def execAttest (p : Packet) (s : State) : Host.Outcome State Fault Refusal :=
  s.card cardAttest p fun s => s.unlessBusy [.attest] <| .pend [] [.attest] s

/-- Words 0 to 15 of the attestation report (R731). -/
def State.report (s : State) : List Word :=
  let none8 : List Word := List.replicate 8 0
  let graph := match s.graph.image with
    | some g => g.digest
    | none => none8
  let model := match s.wkd.model with
    | some m => m.digest
    | none => none8
  let sum := shaWords (s.sec.digest ++ graph ++ model ++ s.fuseWords 3 1 ++ s.fuseWords 44 6)
  [s.fuse 1, s.fuse 2,
    w32 (s.lifecycle * 2 ^ 28 + s.rd F.CTL_SEC_STAT_DBGOPEN * 2 ^ 27 + b2n (s.rd F.IN_TAD_STAT_GATE = 1) * 2 ^ 26 + s.fwRoll * 2 ^ 16
      + s.graphRoll * 2 ^ 8 + s.wkdRoll), s.reg Reg.CTL_SEC_STAT]
    ++ sum ++ [s.pap.version, s.reg Reg.DSP_GRAPH_ID, s.reg Reg.IN_WKD_MODEL, s.pap.cfggen]

/-- ATTEST_DONE (R731). -/
def execAttestDone (s : State) : Host.Outcome State Fault Refusal :=
  match s.atWork? 0x803 with
  | none => .next s
  | some e =>
    let ak := hmacWords (Crypto.ecdh (Crypto.numOf (s.fuseWords 50 8)) ((List.range 16).map Config.attestKey)) s.serialBe
    let r := s.report
    .next (s.finish e stsOk 0 (r ++ hmacWords ak (e.payload.take 8 ++ r)) [])

/-! The debug port (R728 to R730, R735). -/

def cardDebugChallenge : CmdSpec := ⟨0x804, 0, 0, false, true, false, false, false, false, false⟩

/-- DEBUG_CHALLENGE (R730): a new NONCE voids the one before. -/
def execDebugChallenge (p : Packet) (s : State) : Host.Outcome State Fault Refusal :=
  s.card cardDebugChallenge p fun s =>
    let n := (List.range 8).map fun i => Config.trng (s.draw + i)
    .done stsOk 0 n [] ({ s with draw := s.draw + 8 }.modSec fun (q : Sec) => { q with nonce := some n })

/-- NONCE_EXPIRE (R730). -/
def execNonceExpire (s : State) : Host.Outcome State Fault Refusal := .next (s.modSec fun (q : Sec) => { q with nonce := none })

def cardDebugUnlock : CmdSpec := ⟨0x805, 16, 16, false, true, false, false, false, false, false⟩

/-- DEBUG_UNLOCK (R730, R735): each NONCE admits one attempt. -/
def execDebugUnlock (p : Packet) (s : State) : Host.Outcome State Fault Refusal :=
  s.card cardDebugUnlock p fun s =>
    if s.on F.CTL_SEC_STAT_DBGOPEN then .ok s
    else if s.on F.CTL_SEC_STAT_DBGDIS then .refuse stsDenied 4
    else match s.sec.nonce with
    | none => .bad 0
    | some n => s.unlessBusy [.debug] <| .pend [] [.debug] (s.modSec fun (q : Sec) => { q with nonce := none, trial := n })

/-- DEBUG_UNLOCK_DONE (R730, R735). -/
def execDebugUnlockDone (s : State) : Host.Outcome State Fault Refusal :=
  match s.atWork? 0x805 with
  | none => .next s
  | some e =>
    let s1 := s.modSec fun (q : Sec) => { q with trial := [] }
    if Crypto.ecdsa (s.fuseWords 28 16) (e.payload.take 16) (shaWords (s.sec.trial ++ s.serialBe)) then
      .next ((s1.set1 F.CTL_SEC_STAT_DBGOPEN).finish e stsOk 0 [] [])
    else .next (s1.authFailed.finish e stsAuthFail 0 [] [])

/-- EXTEST (R728, R729): through an open port only. -/
def execExtest (s : State) : Host.Outcome State Fault Refusal :=
  .next (if s.on F.CTL_SEC_STAT_DBGOPEN then (s.modSec fun (q : Sec) => { q with extest := true }).showFn.outShow else s)

/-! Fuses (R703, R704, R713, R736) and lifecycle (R702, R737). -/

/-- A fuse word as programmed. -/
def State.fuseNow (s : State) (w : Nat) : Word := vat s.sec.fuses w

/-- The fuse words that FUSE_PROGRAM may program (R700, R703). -/
def fuseAllowed (lc w : Nat) : Bool :=
  let always := w = 3 || (44 ≤ w && w ≤ 49)
  (lc = 1 && (always || (4 ≤ w && w ≤ 43))) || (lc = 2 && always)

/-- A counter word with its value, FWROLL taken as 64 bits (R703). -/
def State.rollValue (s : State) (w : Nat) (v : Word) : Nat :=
  if w = 44 then v.toNat + (s.fuseNow 45).toNat * 2 ^ 32
  else if w = 45 then (s.fuseNow 44).toNat + v.toNat * 2 ^ 32
  else v.toNat

/-- Whether the set bits of a counter are contiguous from bit 0 (R713). -/
def contiguous (n : Nat) : Bool := (List.range 65).any fun k => n = 2 ^ k - 1

/-- The number of bits set in a contiguous counter. -/
def countOf (n : Nat) : Nat := ((List.range 64).filter fun k => n / 2 ^ k % 2 = 1).length

/-- The ROLL of the running image of a counter's kind (R713). -/
def State.runningRoll? (s : State) (w : Nat) : Option Nat :=
  if w ≤ 45 then some s.pap.roll
  else if w = 46 then s.graph.image.map fun g => (g.word 3).toNat
  else s.wkd.model.map fun m => m.roll

/-- Whether REVOKE as programmed would leave no unrevoked programmed root (R736). -/
def State.revokesAll (s : State) (new : Word) : Bool :=
  bits new 0 2 ≠ bits (s.fuseNow 3) 0 2
    && !(List.range 2).any fun k => !bit new k && (List.range 8).any fun i => s.fuseNow (4 + 8 * k + i) ≠ 0

def cardFuseProgram : CmdSpec := ⟨0x806, 3, 3, false, true, false, false, true, false, true⟩

/-- FUSE_PROGRAM (R703, R713, R736). -/
def execFuseProgram (p : Packet) (s : State) : Host.Outcome State Fault Refusal :=
  s.card cardFuseProgram p fun s =>
    let w := pf p.payload 0 0 6
    let new := s.fuseNow w ||| pw p.payload 1
    let counter := decide (44 ≤ w ∧ w ≤ 47)
    let n := s.rollValue w new
    if fuseAllowed s.lifecycle w = false then .refuse stsDenied 4
    else if pw p.payload 2 ≠ ~~~ pw p.payload 1 then .bad 2
    else if counter ∧ contiguous n = false then .bad 1
    else if counter ∧ (s.runningRoll? w).all (fun r => decide (r < countOf n)) then .refuse stsDenied 2
    else if w = 3 ∧ s.revokesAll new then .refuse stsDenied 2
    else s.unlessBusy [.fuses] <| .pend [] [.fuses] s

/-- Fuse bits are programmed, per word; programming only sets bits (R703). -/
def State.burn (s : State) (v : Nat → Word) : State :=
  s.modSec fun (q : Sec) => { q with fuses := Vector.ofFn fun i => vat q.fuses i.val ||| v i.val }

/-- A fuse word as it stands is taken over into the shadow; its register and the counts follow (R704). -/
def State.shadowFuse (s : State) (w : Nat) : State :=
  ((s.modSec fun (q : Sec) => { q with shadow := vmod q.shadow w fun _ => s.fuseNow w }).setReg (Reg.CTL_FUSE w) (s.fuseNow w)).showRoll

/-- FUSE_PROGRAM_DONE (R704, R736): `missed` names bits that did not take. -/
def execFuseProgramDone (missed : Word) (s : State) : Host.Outcome State Fault Refusal :=
  match s.atWork? 0x806 with
  | none => .next s
  | some e =>
    let w := pf e.payload 0 0 6
    let v := pw e.payload 1
    let old := s.fuseNow w
    let now := old ||| (v &&& ~~~ missed)
    let s1 := s.burn fun i => if i = w then v &&& ~~~missed else 0
    let s2 := if 44 ≤ w ∧ w ≤ 47 then s1.shadowFuse w else s1
    let ok := now = old ||| v
    let back := if secretWord w then w32 (b2n ok) else now
    .next (s2.finish e (if ok then stsOk else stsNoResource) (if ok then 0 else 2) [back] [])

def cardLifecycleAdvance : CmdSpec := ⟨0x807, 1, 1, false, true, false, false, true, false, true⟩

/-- LIFECYCLE_ADVANCE (R737). -/
def execLifecycleAdvance (p : Packet) (s : State) : Host.Outcome State Fault Refusal :=
  s.card cardLifecycleAdvance p fun s =>
    let t := pf p.payload 0 0 4
    if pf p.payload 0 16 16 ≠ 0xC1C1 then .bad 0
    else if ¬ ((t = 2 ∧ s.lifecycle = 1) ∨ (t = 3 ∧ s.lifecycle = 2)) then .refuse stsDenied 4
    else if t = 2 ∧ ((s.fuseWords 20 8).all (· = 0) ∨ (¬ s.rootProgrammed 0 ∧ ¬ s.rootProgrammed 1)) then .refuse stsDenied 4
    else s.unlessBusy [.fuses] <| .pend [] [.fuses] s

/-- The fuse bits that a lifecycle step programs in a word (R701, R737): the thermometer bit in its three copies; for RMA also every
bit of PSK, both root hashes and REVOKE. -/
def lifecycleBits (target w : Nat) : Word :=
  if w = 0 then w32 (2 ^ (target - 1) * 0x10101)
  else if target = 3 ∧ w = 3 then 3
  else if target = 3 ∧ 4 ≤ w ∧ w ≤ 27 then 0xFFFFFFFF
  else 0

/-- LIFECYCLE_ADVANCE_DONE (R702, R737). -/
def execLifecycleAdvanceDone (s : State) : Host.Outcome State Fault Refusal :=
  match s.atWork? 0x807 with
  | none => .next s
  | some e =>
    let t := pf e.payload 0 0 4
    .next (((s.burn (lifecycleBits t)).wr F.CTL_SEC_STAT_LCNEXT t).finish e stsOk 0 [] [])

/-! Boundary scan (R726). -/

/-- What boundary-scan SAMPLE captures for PDM_D0 to PDM_D3, whose balls carry these levels (R726). -/
def State.sampleCapture (s : State) (levels : BitVec 4) : BitVec 4 :=
  if s.lifecycle = 0 ∨ s.lifecycle = 3 ∨ s.on F.CTL_SEC_STAT_DBGOPEN then levels else 0

end Sys2Proof.Machine
end

