-- ==== Sys2Proof/Machine/System.lean ====
section
/-!
DEFINITION. The system commands (spec/04_command_protocol.md, R186, R188, R190, R193, R194, R796, R797), ring recovery (R168, R798)
and the writing of held replies and waiting events (R159, R184 to R186).
-/

namespace Sys2Proof.Machine

open Crypto (bytesOf)

/-! Sequence and journal. -/

def cardNop : CmdSpec := ⟨0x000, 0, 0, true, true, true, true, false, false, false⟩

/-- NOP (R169, R173). -/
def execNop (p : Packet) (s : State) : Host.Outcome State Fault Refusal := s.card cardNop p Res.ok

/-- A number into a rising list. -/
def insertNat (x : Nat) : List Nat → List Nat
  | [] => [x]
  | y :: ys => if x ≤ y then x :: y :: ys else y :: insertNat x ys

/-- The addresses of the registers that carry hidden parity, rising (spec/03_register_access.md, R131). -/
def parityAddrs : List Nat :=
  (regRows.flatMap fun r => if parityMask r = 0 then []
    else (indices r.count fun k => decide (r.first ≤ k)).map fun k => r.base + r.stride * k).foldr insertNat []

/-- The configuration values that no register holds (R796, R797). -/
def State.configValues (s : State) : List Nat :=
  let w := fun (l : List Word) => l.map BitVec.toNat
  [s.pap.repost, s.pap.pinPlace.toNat, s.pap.pinTrack.toNat, b2n s.pap.pinAge, s.graph.nra, s.clk.holds, s.clk.offered]
    ++ (match s.graph.image with | some g => w g.head ++ w g.digest | none => [])
    ++ s.graph.inForce.flatMap (fun e => [e.1, e.2.toNat])
    ++ (s.strs.filter fun (x : StreamX) => !s.isHandover x.sid).flatMap (fun (x : StreamX) =>
        [x.sid, (s.reg (Reg.DSP_STR_CFG x.sid)).toNat, (s.reg (Reg.DSP_STR_FMT x.sid)).toNat, x.start, x.pair, x.lead, x.ratio.toNat,
          b2n x.holdLost, x.bw])
    ++ [b2n s.spdif.rx.csevt, s.spdif.rx.expfs, s.spdif.rx.nphold, b2n s.spdif.tx.autofs, b2n s.spdif.tx.vbit, s.spdif.tx.fs,
        b2n s.spdif.tx.idle] ++ w s.spdif.txA ++ w s.spdif.txB
    ++ s.crk.toList.flatMap (fun (c : CrkSlot) => [c.kind, c.mask, c.freq, c.wave, c.onMs, c.offMs, b2n c.loop, c.len, c.level, c.duck,
        b2n c.auto, c.map, b2n c.pass] ++ w c.data)
    ++ (match s.wkd.model with | some m => [m.roll] ++ w m.digest | none => [])
    ++ s.clk.slot2 ++ s.clk.slot3 ++ s.saf.valt.flatMap (fun e => [e.1, e.2])

/-- The bytes that the digest covers (R797). -/
def State.digestBytes (s : State) : List Byte :=
  Config.configTable s.pap.version s.configValues ++ parityAddrs.flatMap fun a =>
    match regRow? a with
    | some r => bytesOf (s.reg a &&& parityMask r)
    | none => []

/-- A list of words cut or filled with zeros to `n`. -/
def fillTo (n : Nat) (l : List Word) : List Word := (List.range n).map (pw l)

/-- The reply words of STATE_SYNC. -/
def State.syncWords (s : State) : List Word :=
  let ps := if s.on F.PWR_STATE_TRANS then 0x80 + s.rd F.PWR_STATE_TARGET else s.pstate
  [w32 (s.pap.exp0.toNat * 2 ^ 16 + s.pap.exp1.toNat), w32 (s.pap.last0.toNat * 2 ^ 16 + s.pap.last1.toNat),
   w32 (s.pap.eseq.toNat * 2 ^ 16 + s.pap.eack.toNat), s.pap.cfggen,
   w32 (ps * 2 ^ 24 + s.pap.slots.length * 2 ^ 16 + s.pap.replies.length * 2 ^ 8 + s.pap.events.length)]
    ++ Crypto.sha256 s.digestBytes
    ++ fillTo 8 (s.pap.slots.map fun e => w32 (e.opcode * 2 ^ 20 + b2n e.ring1 * 2 ^ 16 + e.cseq.toNat))
    ++ fillTo 128 (s.pap.replies.flatMap fun e =>
      [w32 (e.cseq.toNat * 2 ^ 16 + e.eseq.toNat), w32 (e.opcode * 2 ^ 20 + b2n e.ring1 * 2 ^ 19 + e.status * 2 ^ 8)])
    ++ fillTo 128 (s.pap.events.flatMap fun e =>
      [w32 (e.eseq.toNat * 2 ^ 16 + e.cseq.toNat), w32 (e.ecode * 2 ^ 20 + b2n e.written * 2 ^ 19 + b2n (s.acked e) * 2 ^ 18)])

def cardStateSync : CmdSpec := ⟨0x001, 0, 0, true, true, true, true, false, false, false⟩

/-- A STATE_SYNC that has left its ring: not checked against nor counted in a series, not journaled, EACK left (R172, R173). -/
def State.judgeSync (s : State) (p : Packet) : State :=
  if crc32c (p.covered 0x001) ≠ p.crc then s.answer 0x001 p false false stsCrcFail 0 false []
  else
    match cardStateSync.check p s with
    | some (st, d) =>
      (s.authResult cardStateSync p st).answer 0x001 p p.auth false st d false []
    | none => (if p.auth then s.authPassed else s).answer 0x001 p p.auth false stsOk 0 false s.syncWords

/-- STATE_SYNC (R172, R190, R797). -/
def execStateSync (p : Packet) (s : State) : Host.Outcome State Fault Refusal :=
  .next (s.takeWith 0x001 p fun s => s.judgeSync p)

def cardJournalRead : CmdSpec := ⟨0x002, 1, 1, true, true, true, true, false, false, false⟩

/-- A reply entry as the journal holds it (R163, R188). -/
def ReplyEntry.stored (e : ReplyEntry) : List Word :=
  let h := replyHead e.opcode e.ring1 false (decide (16 < e.len)) false e.cseq e.status e.detail e.len e.payload
  (h.take 1) ++ [w32 (e.cseq.toNat * 2 ^ 16 + e.eseq.toNat)] ++ h.drop 2

/-- An event entry as the journal holds it (R164, R188). -/
def EventEntry.stored (e : EventEntry) : List Word := (e.words false).take (4 + min 16 e.payload.length)

/-- JOURNAL_READ (R188). -/
def execJournalRead (p : Packet) (s : State) : Host.Outcome State Fault Refusal :=
  s.card cardJournalRead p fun s =>
    let seq := (pw p.payload 0).extractLsb' 0 16
    let hit :=
      if pb p.payload 0 31 then (s.pap.events.find? fun e => e.eseq = seq).map EventEntry.stored
      else (s.replyFor? (pb p.payload 0 30) seq).map ReplyEntry.stored
    match hit with
    | some ws => .done stsOk 0 ws [] s
    | none => .bad 0

def cardSysInfo : CmdSpec := ⟨0x003, 0, 0, true, true, true, true, false, false, false⟩

/-- SYS_INFO (R8, R163, R183; spec/16_security.md, R700, R712). -/
def execSysInfo (p : Packet) (s : State) : Host.Outcome State Fault Refusal :=
  s.card cardSysInfo p fun s => .done stsOk 0
    [s.reg Reg.CTL_SYS_ID, s.pap.version, w32 s.fwRoll, w32 (s.rd F.CTL_SEC_STAT_LC), s.reg Reg.DSP_GRAPH_ID,
     w32 (2 * s.rd F.CTL_SYS_STRAP_BOOTSEL + s.rd F.CTL_SYS_STRAP_HOSTSEL)] [] s

def cardEventCfg : CmdSpec := ⟨0x004, 1, 1, true, true, true, false, false, false, true⟩

/-- EVENT_CFG (R186). -/
def execEventCfg (p : Packet) (s : State) : Host.Outcome State Fault Refusal :=
  s.card cardEventCfg p fun s =>
    let n := pf p.payload 0 0 8
    if n = 0 then .bad 0 else .ok { s with pap := { s.pap with repost := n } }

def cardLoopPin : CmdSpec := ⟨0x005, 1, 1, false, true, true, true, false, false, true⟩

/-- The groups pinned after a LOOP_PIN that names groups. -/
def pinned (old groups : BitVec 3) (pin : Bool) : BitVec 3 := if pin then old ||| groups else old &&& ~~~ groups

/-- LOOP_PIN (R193; spec/09_clocks.md, R461; spec/12_headphone_line_cv.md, R587; spec/17_service_life.md, R750). -/
def execLoopPin (p : Packet) (s : State) : Host.Outcome State Fault Refusal :=
  s.card cardLoopPin p fun s =>
    let loop := pf p.payload 0 0 3
    let gs := (pw p.payload 0).extractLsb' 4 3
    let pin := pb p.payload 0 8
    s.unlessBusy (if loop < 2 then (indices 3 fun g => gs.getLsbD g).map Target.group else []) <|
    if loop = 0 then
      .ok ({ s with pap := { s.pap with pinPlace := pinned s.pap.pinPlace gs pin } }.showSw.placeFreeze (if pin then gs.toNat else 0))
    else if loop = 1 then .ok { s with pap := { s.pap with pinTrack := pinned s.pap.pinTrack gs pin } }
    else if loop = 2 then .ok { s with pap := { s.pap with pinAge := pin } }
    else .bad 0

/-! Reset by command (R194). -/

def cardSysReset : CmdSpec := ⟨0x006, 1, 1, true, true, true, true, true, false, false⟩

/-- What SYS_RESET does once its reply is written: every output stops, and the reset is due; the spec gives the closing of the session no
CAUSE (R194; spec/16_security.md, R721; log entry 1). -/
def State.resetStops (s : State) : State :=
  let s1 := { s with pap := { s.pap with resetDue := true } }
  ((s1.drawn.closeSession (s1.free.toNat % 16)).spkStopAll true).hpStopAll

/-- SYS_RESET (R194). With NOREPLY no reply is written, and the outputs stop at once (log entry 92). -/
def execSysReset (p : Packet) (s : State) : Host.Outcome State Fault Refusal :=
  .next (s.take cardSysReset p (fun s =>
    if pf p.payload 0 0 16 ≠ 0xA11C then .bad 0
    else .ok { s with pap := { s.pap with afterDue := some 0x006 } })
    fun s => if s.pap.afterDue = some 0x006 then s.afterReply 0x006 fun s => { s with pap := { s.pap with afterDue := none } }.resetStops
      else s)

/-- SYS_RESET_EXECUTE (R194): the last output is Off or in Fault hold, and the device resets as for RESET_N. -/
def execSysResetExecute (s : State) : Host.Outcome State Fault Refusal :=
  .next (if s.pap.resetDue ∧ s.silent then s.fresh else s)

/-! Rings. -/

/-- RING_RESYNC (R168, R798): the header in ring 0 or 1 names a packet that cannot be, or HIDX has covered only a part of a packet for
10 ms. -/
def execRingResync (ring1 : Bool) (s : State) : Host.Outcome State Fault Refusal :=
  let n := b2n ring1
  let i := s.didx n
  let w0 := s.word (s.ringAddr n i)
  if s.papolReady ring1 ∧ 0 < s.occupancy n ∧ (4096 < bits w0 0 16 ∨ s.ringLen n < s.frontLen n ∨ s.occupancy n < s.frontLen n) then
    if s.ringPoisoned n i 2 then .next ((s.readPoison n i 2).resync n 0 0)
    else .next (s.resync n (bits w0 20 12) ((s.word (s.ringAddr n (i + 1))).extractLsb' 16 16))
  else .next s

/-- What a command whose reply was held back does now that it is written (R159, R194; spec/16_security.md, R721, R732). -/
def State.runAfter (s : State) : State :=
  let s1 := { s with pap := { s.pap with afterDue := none } }
  if s.pap.held.isEmpty = false then s
  else
    match s.pap.afterDue with
    | some 0x006 => s1.resetStops
    | some 0x801 => s1.closeSession 1
    | some 0x802 => s1.quiesce
    | _ => s

/-- REPLY_WRITE (R159, R163, R179): held replies are written into ring 2, oldest first, as far as there is space, and what waits for the
last of them begins. -/
def execReplyWrite (s : State) : Host.Outcome State Fault Refusal :=
  .next (if s.pap.run = .running then (State.flushHeld s.pap.held s).runAfter else s)

/-- EVENT_WRITE (R184, R185): waiting events are written into ring 3 in ESEQ order as far as there is space. -/
def execEventWrite (s : State) : Host.Outcome State Fault Refusal :=
  .next (if s.pap.run = .running then s.flush else s)

/-- The events of a list that are to be reposted, written again where ring 3 has space (R186). -/
def State.repostAll : List EventEntry → State → State
  | [], s => s
  | e :: rest, s =>
    State.repostAll rest
      (if s.reposts e ∧ s.ringSpace 3 (e.words true).length then s.ringPut 3 (e.words true) else s)

/-- EVENT_REPOST (R186): the repost interval has passed. -/
def execEventRepost (s : State) : Host.Outcome State Fault Refusal :=
  .next (if s.pap.run = .running then State.repostAll (s.pap.unacked ++ s.pap.events) s else s)

end Sys2Proof.Machine
end

