-- ==== Sys2Proof/Machine/HostLink.lean ====
section
/-!
DEFINITION. Register access over the host link and the debug port (spec/03_register_access.md): the errors, the guard lock, writes
taken and landed, reads, the stall of a domain that powers up, and the rows that are writes of one field.
-/

namespace Sys2Proof.Machine

/-! The lock and the outputs of the link (R105, R140, R144, R151). -/

/-- Whether an interface's guard lock is open (R140, R144). -/
def State.lockOpen (s : State) (i : Iface) : Bool := if i = .host then s.link.lock else s.link.dlock

/-- The state with an interface's guard lock set. -/
def State.setLock (s : State) (i : Iface) (b : Bool) : State :=
  if i = .host then { s with link := { s.link with lock := b } } else { s with link := { s.link with dlock := b } }

/-- Whether an interface can access anything now: the link is alive and waits for no stalled access (R100, R101), the debug port is
open (spec/16_security.md, R700). The spec is silent on an access behind one that stalls: it is dropped without an error bit and
leaves the guard lock as it is (log entry 93). -/
def State.ifaceReady (s : State) (i : Iface) : Bool :=
  s.linkAlive && !s.link.stalled.any (fun x => x.iface = i) && (i = .host || s.on F.CTL_SEC_STAT_DBGOPEN)

/-- IRQ_N is asserted (R151; spec/04_command_protocol.md, R160). -/
def State.irq (s : State) : Bool :=
  (s.on F.HOST_CFG_ERRIE && s.reg Reg.HOST_ERR ≠ 0)
    || (List.range 14).any fun k => s.ringOn (k + 2) && s.on (F.DSP_RING_CFG_DIR (k + 2)) && s.on (F.DSP_RING_CFG_IE (k + 2))
        && s.unread (k + 2) ≠ 0

/-- The SPI status byte (R105). -/
def State.spiStatus (s : State) : Nat :=
  b2n s.irq * 2 ^ 7 + b2n (s.reg Reg.HOST_ERR ≠ 0) * 2 ^ 6 + b2n s.link.lock * 2 ^ 5 + bits (s.reg Reg.HOST_PWSTAT) 0 5

/-! Regions and domains (R95, R101, R119). -/

/-- The region of a posted range (R95, R119): 0 CTL, 2 IN, 3 OUT, 4 SAFE. -/
def postedRegion? (a : Nat) : Option Nat :=
  if 0x0E0000 ≤ a ∧ a < 0x0F0000 then some rgCtl
  else if 0x280000 ≤ a ∧ a < 0x2C0000 then some rgIn
  else if 0x300000 ≤ a ∧ a < 0x400000 then some rgOut
  else if 0x400000 ≤ a ∧ a < 0x500000 then some rgSafe
  else none

/-- The domain that a register's block stands in (spec/14_power_states.md, R642). -/
def regDomain? (a : Nat) : Option Nat :=
  if 0x100000 ≤ a ∧ a < 0x100200 then some (dmEngine ((a - 0x100000) / 0x40))
  else if 0x200000 ≤ a ∧ a < 0x200200 then some (dmTdm ((a - 0x200000) / 0x100))
  else if 0x200200 ≤ a ∧ a < 0x200300 then some dmSpdRx
  else if 0x280000 ≤ a ∧ a < 0x280080 then some (dmAadc ((a - 0x280000) / 0x20))
  else if 0x280200 ≤ a ∧ a < 0x280300 then some dmPdm
  else if 0x280400 ≤ a ∧ a < 0x280500 then some dmWkd
  else if 0x300000 ≤ a ∧ a < 0x300300 then some (dmGroup ((a - 0x300000) / 0x100))
  else if 0x301000 ≤ a ∧ a < 0x301300 then some (dmGroup ((a - 0x301000) / 0x100))
  else if 0x304000 ≤ a ∧ a < 0x304100 then some dmHpLine
  else if 0x305000 ≤ a ∧ a < 0x305100 then some dmCv
  else none

/-- Whether a domain is up and no power-down of it is under way (spec/14_power_states.md, R647). -/
def State.domReady (s : State) (d : Nat) : Bool :=
  s.domOn d && !s.pwr.changes.any fun c => c.domain = d && !c.up

/-- Whether an access to a register finds its domain ready. -/
def State.reaches (s : State) (a : Nat) : Bool :=
  match regDomain? a with
  | some d => s.domReady d
  | none => true

/-- Whether the AUD clock runs: AUDPLL is locked or coasts; a change of family stops it until it locks (spec/09_clocks.md, R429,
R468). -/
def State.audRuns (s : State) : Bool := s.on F.CTL_CLK_STAT_AUDLOCK || s.on F.CTL_CLK_STAT_AUDCOAST

/-- Whether a write that has been taken can land: its domain is up, and the clock of IN-analogue and OUT runs (R39, R120). -/
def State.lands (s : State) (a : Nat) : Bool :=
  (s.audRuns || (postedRegion? a ≠ some rgIn && postedRegion? a ≠ some rgOut)) &&
    match regDomain? a with
    | some d => s.domOn d
    | none => true

/-- A first access powers a permitted domain up, behind a power-down under way (R101; spec/14_power_states.md, R643, R647). -/
def State.wakeDomain (s : State) (a : Nat) : State :=
  match regDomain? a with
  | some d =>
    if s.domReady d ∨ s.lastChange? d = some true then s
    else s.modPwr fun (q : Pwr) => { q with changes := q.changes ++ [⟨d, true, []⟩] }
  | none => s

/-- Whether an access to a register may neither reach its domain nor power it up (R101). -/
def State.unpowered (s : State) (a : Nat) : Bool :=
  match regDomain? a with
  | some d => !s.domReady d && !s.permitted d
  | none => false

/-! A write lands (R126, R131, R133). -/

/-- Whether a register of internal rings 16 to 31 is at an address: RO to the host (spec/06_engines_leap.md, the engine registers). -/
def internalRing (a : Nat) : Bool := decide (0x100500 ≤ a ∧ a < 0x100600)

/-- The bits of a register that a write word gives new values: RW, guarded RW and CTR fields (R133); none of a 64-bit value (R143). -/
def writeMask (a : Nat) : Word :=
  match regRow? a with
  | some r => if r.half = 0 ∧ internalRing a = false then r.rw ||| r.g ||| r.ctr else 0
  | none => 0

/-- Whether a guarded field of a register is at an address (R146). -/
def guardedAt (a : Nat) : Bool :=
  match regRow? a with
  | some r => decide (r.g ||| r.gsc ≠ 0)
  | none => false

/-- Whether a write of the register names a field that the fuses lock (R147; spec/16_security.md, R707). -/
def State.fusedAt (s : State) (a : Nat) : Bool :=
  (decide (a = Reg.SAFE_SM_CFG) && s.on F.SAFE_SM_FUSE_PAIRREQ) || (decide (a = Reg.SAFE_SM_CFG2) && s.on F.SAFE_SM_FUSE_OFFREQ)

/-- The fields of a landed word that keep or take another value: a fixed DIR (DSP_RINGn_CFG), the ceilings of R385
(spec/08_speaker_channels.md), FNMIN (spec/15_safety.md, R679), the fuse-locked fields (spec/16_security.md, R707), REFMODE
(spec/13_monitoring_converters.md, R602) and the pin of MICIND (spec/16_security.md, R727). -/
def State.bound (s old : State) (a : Nat) : State :=
  if 0x100400 ≤ a ∧ a < 0x100440 ∧ a % 0x10 = 4 then
    s.wr (F.DSP_RING_CFG_DIR (ringOwner a)) (old.rd (F.DSP_RING_CFG_DIR (ringOwner a)))
  else if 0x300000 ≤ a ∧ a < 0x300300 ∧ a % 0x100 = 4 then
    let f := F.OUT_G_THERM_TFB ((a - 0x300000) / 0x100)
    s.wr f (min (s.rd f) (s.rd F.OUT_SPK_FUSE_TFBMAX))
  else if 0x301000 ≤ a ∧ a < 0x301300 ∧ a % 0x40 = 0 then
    let n := (a - 0x301000) / 0x40
    s.wr (F.OUT_SPK_CFG_ILIM n) (min (s.rd (F.OUT_SPK_CFG_ILIM n)) (s.ilimCeil n))
  else if 0x301000 ≤ a ∧ a < 0x301300 ∧ a % 0x40 = 4 then
    let f := F.OUT_SPK_LIMIT_PLIM ((a - 0x301000) / 0x40)
    if s.rd F.OUT_SPK_FUSE_PCEIL < min 200 (s.rd f) then s.wr f (s.rd F.OUT_SPK_FUSE_PCEIL) else s
  else if a = Reg.IN_TDM_BUS 0 then s.clr (F.IN_TDM_BUS_CHAIN 0)
  else if a = Reg.SAFE_SM_CFG then
    let s1 := s.wr F.SAFE_SM_CFG_FNMASK (s.rd F.SAFE_SM_CFG_FNMASK ||| s.rd F.SAFE_SM_FUSE_FNMIN)
    if s.on F.SAFE_SM_FUSE_PAIRREQ then s1.set1 F.SAFE_SM_CFG_ALTPAIR else s1
  else if a = Reg.SAFE_SM_CFG2 then if s.on F.SAFE_SM_FUSE_OFFREQ then s.set1 F.SAFE_SM_CFG2_ESCMODE else s
  else if a = Reg.SAFE_MADC_CFG then
    if s.on (F.SAFE_MADC_STAT_REFFB 0) ∨ s.on (F.SAFE_MADC_STAT_REFFB 1) then s.set1 F.SAFE_MADC_CFG_REFMODE else s
  else if a = Reg.PWR_GPIO_IO then
    match s.micPin? with
    | some k =>
      (s.wr ⟨a, 8 + k, 1⟩ (old.rd ⟨a, 8 + k, 1⟩)).wr ⟨a, k, 1⟩ (old.rd ⟨a, k, 1⟩)
    | none => s
  else s

/-- The bytes that a word of ring `n` takes: an internal ring's tag counts as part of it (spec/07_shared_banks.md, R319). -/
def ringUnit (n : Nat) : Nat := if 16 ≤ n then 5 else 4

/-- Whether the device refuses the enable of ring `n` with this BASE and LOG2SIZE (spec/04_command_protocol.md, R154, R155). -/
def State.ringRefused (s : State) (n base log2 : Nat) : Bool :=
  let len := ringUnit n * 2 ^ log2
  decide (log2 < 6) || decide (16 < log2) || decide (0x200000 < base + len) || (decide (n < 4) && decide (0x20000 < base + len))
    || (decide (n = 2) && decide (log2 < 9))
    || (List.range 32).any fun k => decide (k ≠ n) && s.on (F.DSP_RING_CFG_ENABLE k)
        && decide (base < (s.geo k).base + ringUnit k * s.ringLen k ∧ (s.geo k).base < base + len)

/-- A write of DSP_RINGn_CFG has landed: an enable is judged, and one that stands latches the geometry and empties the ring
(spec/04_command_protocol.md, R155). -/
def State.ringCfg (s old : State) (n : Nat) : State :=
  if old.on (F.DSP_RING_CFG_ENABLE n) ∨ s.on (F.DSP_RING_CFG_ENABLE n) = false then s
  else
    let base := s.rd (F.DSP_RING_BASE_BASE n) * 256
    let log2 := s.rd (F.DSP_RING_CFG_LOG2SIZE n)
    if old.ringRefused n base log2 then (s.clr (F.DSP_RING_CFG_ENABLE n)).set1 (F.DSP_RING_CFG_BADCFG n)
    else { s with rings := vmod s.rings n fun _ => ⟨base, log2⟩ }.wr (F.DSP_RING_DIDX_DIDX n) (s.hidx n)

/-- Whether a new HIDX of a ring would take its content past the ring length (spec/04_command_protocol.md, R156, R157). -/
def State.hidxOver (s : State) (n h : Nat) : Bool :=
  let z := s.wr (F.DSP_RING_HIDX_HIDX n) h
  decide (s.ringLen n < if s.on (F.DSP_RING_CFG_DIR n) then z.unread n else z.occupancy n)

/-- What a landed write does beyond its fields, in the CTL and DSP regions. -/
def State.ctlLanded (s old : State) (a : Nat) (w : Word) : State :=
  if a = Reg.CTL_BOOT_CTRL then if bit w 31 then s.bootGo else s
  else if a = Reg.PWR_GPIO_IO then s.showGpio
  else if a = Reg.PWR_GECKO then if bit w 31 then s.wr F.PWR_GECKO_HELD 0 else s
  else if 0x100000 ≤ a ∧ a < 0x100200 ∧ a % 0x40 = 0xC then
    if bit w 0 then s.engineFails ((a - 0x100000) / 0x40) 0x201 true 0 else s
  else if 0x100400 ≤ a ∧ a < 0x100500 ∧ a % 0x10 = 4 then s.ringCfg old (ringOwner a)
  else if 0x100400 ≤ a ∧ a < 0x100420 ∧ a % 0x10 = 8 then s.takeUnknown (ringOwner a)
  else s

/-- What a landed write does beyond its fields, in the IN region. -/
def State.inLanded (s old : State) (a : Nat) : State :=
  if 0x280000 ≤ a ∧ a < 0x280080 ∧ a % 0x20 = 0 then s.aadcChanged ((a - 0x280000) / 0x20) (old.reg a)
  else if a = Reg.IN_MICB_CFG then s.micbChanged
  else if a = Reg.IN_PDM_CFG ∨ a = Reg.IN_PDM_MIC then s.pdmChanged old
  else if a = Reg.IN_TDM_FMT 0 ∨ a = Reg.IN_TDM_CLK 0 then (if s.portEn 0 then s else s.showBdiv 0)
  else if a = Reg.IN_TDM_FMT 1 ∨ a = Reg.IN_TDM_CLK 1 then (if s.portEn 1 then s else s.showBdiv 1)
  else s

/-- What a landed write does beyond its fields, in the OUT region. -/
def State.outLanded (s : State) (a : Nat) (w : Word) : State :=
  if 0x300000 ≤ a ∧ a < 0x300300 then
    let g := (a - 0x300000) / 0x100
    if a % 0x100 = 0 then (s.applyPairs g).showSw
    else if a % 0x100 = 0xC then if bit w 31 then s.set1 (F.OUT_G_XPT_UPDATE g) else s
    else s
  else if 0x301000 ≤ a ∧ a < 0x301300 then
    let n := (a - 0x301000) / 0x40
    if a % 0x40 = 0 then s.showLegs n
    else if a % 0x40 = 8 then if bit w 1 then s.stopWrite n else if bit w 0 then s.startWrite n else s
    else s
  else if a = Reg.OUT_SW_CTRL then if bit w 31 then s.swUpdate else s
  else if a = Reg.OUT_HPL_CFG then s.hplChanged.hpJack
  else if 0x305000 ≤ a ∧ a < 0x305080 then s.cvSettle ((a - 0x305000) / 0x20)
  else s

/-- What a landed write does beyond its fields, in the SAFE region. -/
def State.safeLanded (s : State) (a : Nat) (w : Word) : State :=
  if a = Reg.SAFE_SM_CFG ∨ a = Reg.SAFE_SM_CFG2 then s.showFe.showFn.alertEval
  else if a = Reg.SAFE_MADC_CFG then if bit w 31 then s.madcResume.showRef else s.showRef
  else s

/-- What a landed write does beyond its fields. -/
def State.landed (s old : State) (a : Nat) (w : Word) : State :=
  if a < 0x200000 then s.ctlLanded old a w
  else if a < 0x300000 then s.inLanded old a
  else if a < 0x400000 then s.outLanded a w
  else s.safeLanded a w

/-- A write word lands in its register (R126, R133, R136): the fields take it, the hidden parity follows, the block acts on it. A write
of HIDX that R157 (spec/04_command_protocol.md) drops changes OVF alone. -/
def State.land (s : State) (a : Nat) (w : Word) : State :=
  if 0x100400 ≤ a ∧ a < 0x100500 ∧ a % 0x10 = 8 ∧ s.hidxOver (ringOwner a) (bits w 0 17) then
    s.set1 (F.DSP_RING_CFG_OVF (ringOwner a))
  else if internalRing a then s
  else
    let m := writeMask a
    let v := (s.reg a &&& ~~~m) ||| (w &&& m)
    let s1 := if 0x305000 ≤ a ∧ a < 0x305080 ∧ a % 0x20 = 0 then s.cvWrite ((a - 0x305000) / 0x20) v else (s.setReg a v).bound s a
    (s1.fits a).landed s a w

/-- The posted write of a region lands, and PWBUSY clears (R119). -/
def State.landRegion (s : State) (region : Nat) : State :=
  match s.link.posted.find? (fun p => postedRegion? p.addr = some region) with
  | none => s
  | some p =>
    if s.linkAlive ∧ s.lands p.addr then
      (({ s with link := { s.link with posted := s.link.posted.erase p } }.clr ⟨Reg.HOST_PWSTAT, region, 1⟩)).land p.addr p.word
    else s

/-! A write is taken (R96 to R101, R121, R144 to R149). -/

/-- A write word that the lock lets through is posted, stalled or landed at once (R101, R119, R121, R149). -/
def State.sendWrite (s : State) (i : Iface) (a : Nat) (w : Word) : State :=
  match postedRegion? a with
  | some r =>
    if s.on ⟨Reg.HOST_PWSTAT, r, 1⟩ then s.hostErr i errPwcol a
    else
      let s1 := (if s.fusedAt a then s.hostErr i errFused a else s).wakeDomain a
      { s1 with link := { s1.link with posted := s1.link.posted ++ [(⟨a, w⟩ : Posted)] } }.set1 ⟨Reg.HOST_PWSTAT, r, 1⟩
  | none =>
    if s.reaches a then s.land a w
    else
      let s1 := s.wakeDomain a
      { s1 with link := { s1.link with stalled := s1.link.stalled ++ [(⟨(regDomain? a).getD 0, i, true, a, w⟩ : Stalled)] } }

/-- A write of HOST_UNLOCK (R144, R145, R148); `s` has the lock closed by it already. -/
def State.unlock (s : State) (i : Iface) (w : Word) : State :=
  if w = 0xC3A5 then s.setLock i true else s.hostErr i errBadkey Reg.HOST_UNLOCK

/-- A write word is taken from an interface and judged; SYS runs for it (spec/04_command_protocol.md, R161). -/
def State.hostWrite (s : State) (i : Iface) (a : Nat) (w : Word) : State :=
  if s.ifaceReady i = false then s
  else
    let s1 := s.sysRun.setLock i false
    if a % 4 ≠ 0 then s1.hostErr i errAlign a
    else if 0xA00000 ≤ a ∧ a < 0xA80000 then s1.hostErr i errGated a
    else if 0x800000 ≤ a ∧ a < 0xA00000 then
      if s.bankOn (bankOf a) then s1.setWord a w else s1.hostErr i errNopwr a
    else if regRow? a = none then s1.hostErr i errUnmap a
    else if s.unpowered a then s1.hostErr i errNopwr a
    else if a = Reg.HOST_UNLOCK then s1.unlock i w
    else if guardedAt a ∧ s.lockOpen i = false then s1.hostErr i errLocked a
    else s1.sendWrite i a w

/-- A write whose row is its landing too: taken as any other, and landed where its domain is up. -/
def State.writeLand (s : State) (i : Iface) (a : Nat) (w : Word) : State :=
  let s1 := s.hostWrite i a w
  if s1.link.posted = s.link.posted then s1
  else
    match postedRegion? a with
    | some r => s1.landRegion r
    | none => s1

/-! A read (R96 to R101, R124, R137 to R142; spec/11_inputs_wake.md, R537). -/

/-- The word read, and whether it came with the marker 0xA5 (R108). -/
def State.deliverWord (s : State) (w : Word) (ok : Bool) : State := { s with link := { s.link with rdata := w, marker := ok } }

/-- A read that meets an error condition returns 0 (R109, R116). -/
def State.readErr (s : State) (i : Iface) (cause a : Nat) : State := (s.hostErr i cause a).deliverWord 0 false

/-- Whether the gate is open for byte `b` of the tadpole window (spec/11_inputs_wake.md, R532, R537). -/
def State.tapByteOpen (s : State) (b : Nat) : Bool :=
  let f := s.tapN * s.tapBytes
  let w := s.rd64 Reg.IN_TAD_WIDX_LO
  let slot := b / f
  0 < s.tapN && s.gate = gtOpen && decide (slot < s.tapF) && decide (0 < w)
    && decide ((w - 1 + s.tapF - slot) % s.tapF < w - s.rd64 Reg.IN_TAD_GSTART_LO)

/-- A word of the tadpole window as a read captures it: every byte of it lies in a frame from GSTART to WIDX − 1, or the read is refused
(spec/11_inputs_wake.md, R537, R538). -/
def State.readTad (s : State) (i : Iface) (a : Nat) : State :=
  if (List.range 4).all fun k => s.tapByteOpen (a - 0xA00000 + k) then s.deliverWord (s.word a) true else s.readErr i errGated a

/-- The value that a register shows an interface: the lock in HOST_UNLOCK, the two-half shadow in a HI word (R140, R142). -/
def State.shown (s : State) (i : Iface) (a half : Nat) : Word :=
  if a = Reg.HOST_UNLOCK then w32 (b2n (s.lockOpen i) * 2 ^ 16)
  else if half = 2 then (if i = .host then s.link.shadow else s.link.dshadow)
  else s.reg a

/-- The capture of a register: RC fields that read 1 clear, a LO word latches its HI half (R137, R138, R141). -/
def State.capture (s : State) (i : Iface) (a : Nat) : State :=
  match regRow? a with
  | none => s
  | some r =>
    let s1 := (s.setReg a (s.reg a &&& ~~~r.rc)).deliverWord (s.shown i a r.half) true
    if r.half ≠ 1 then s1
    else if i = .host then { s1 with link := { s1.link with shadow := s.reg (a + 4) } }
    else { s1 with link := { s1.link with dshadow := s.reg (a + 4) } }

/-- A read of one word from a state in which SYS runs. -/
def State.readNow (s : State) (i : Iface) (a : Nat) : State :=
  if a % 4 ≠ 0 then s.readErr i errAlign a
  else if 0xA00000 ≤ a ∧ a < 0xA80000 then s.readTad i a
  else if 0x800000 ≤ a ∧ a < 0xA00000 then
    if s.bankOn (bankOf a) = false then s.readErr i errNopwr a
    else if s.poison.contains a then (s.deliverPoison a).deliverWord 0 true
    else s.deliverWord (s.word a) true
  else if regRow? a = none then s.readErr i errUnmap a
  else if s.unpowered a then s.readErr i errNopwr a
  else if s.reaches a then (if a = Reg.PWR_GPIO_IO then s.showGpio else s).capture i a
  else
    let s1 := s.wakeDomain a
    { s1 with link := { s1.link with stalled := s1.link.stalled ++ [(⟨(regDomain? a).getD 0, i, false, a, 0⟩ : Stalled)] } }

/-- A read of one word by an interface; SYS runs for it (spec/04_command_protocol.md, R161). -/
def State.hostRead (s : State) (i : Iface) (a : Nat) : State :=
  if s.ifaceReady i = false then s else s.sysRun.readNow i a

/-! Frames and transactions (R103 to R117). -/

/-- The word that four bytes spell, the most significant first (R106, R114). -/
def byteWord (bs : List Byte) : Word :=
  bs.getD 0 0 ++ bs.getD 1 0 ++ bs.getD 2 0 ++ bs.getD 3 0

/-- The address that three bytes spell (R103, R114). -/
def byteAddr (bs : List Byte) : Nat := (bs.getD 0 0).toNat * 2 ^ 16 + (bs.getD 1 0).toNat * 2 ^ 8 + (bs.getD 2 0).toNat

/-- The address after a word: 4 further with a wrap at the end of the space, or the same one (R112). -/
def nextAddr (inc : Bool) (a : Nat) : Nat := if inc then (a + 4) % 2 ^ 24 else a

/-- The words of a write frame or transaction, each judged by itself, with the address that follows; a part of a word is discarded
(R106, R107, R112, R114, R117). -/
def State.writeRun (inc : Bool) : List Byte → Nat → State → State × Nat
  | b0 :: b1 :: b2 :: b3 :: rest, a, s =>
    State.writeRun inc rest (nextAddr inc a) (s.hostWrite .host a (byteWord [b0, b1, b2, b3]))
  | [], a, s => (s, a)
  | _, a, s => (s.hostErr .host errPartial a, a)

/-- `n` words of a read frame or transaction, each judged by itself, with the address that follows (R108, R112, R115). One that stalls
ends the run (log entry 93). -/
def State.readRun (inc : Bool) : Nat → Nat → State → State × Nat
  | 0, a, s => (s, a)
  | n + 1, a, s =>
    let s1 := s.hostRead .host a
    if s1.ifaceReady .host then State.readRun inc n (nextAddr inc a) s1 else (s1, a)

/-- CS_N rises before the marker of a read word: the read ends; its domain goes on powering up (R111). -/
def State.abortRead (s : State) (a : Nat) : State :=
  { s with link := { s.link with
      stalled := s.link.stalled.filter fun (x : Stalled) => x.write || decide (x.iface ≠ Iface.host) } }.hostErr .host errAbort a

/-- A whole SPI frame: the status byte as CS_N falls, the command byte, three address bytes, and the words (R103 to R112). -/
def State.spiFrame (s : State) (mosi : List Byte) (words : Nat) (cut : Bool) : State :=
  let s1 := { s with link := { s.link with status := s.spiStatus } }
  let cmd := (mosi.getD 0 0).toNat
  let inc := cmd / 64 % 2 = 1
  let a := byteAddr (mosi.drop 1)
  if mosi.length < 4 ∨ cmd % 64 ≠ 0 then s1.hostErr .host errFrame 0
  else if cmd / 128 = 0 then (State.writeRun inc (mosi.drop 4) a s1).1
  else
    let r := State.readRun inc words a s1
    if cut then r.1.abortRead r.2 else r.1

/-- The first byte of a transaction that the device answers: its 7-bit address and R/W (R113). The general call and the prefixes of
10-bit addressing are others. -/
def State.i2cHead (s : State) (rw : Nat) : Byte := BitVec.ofNat 8 (2 * (0x4C + s.rd F.CTL_SYS_STRAP_ADDR) + rw)

/-- The register address of the transaction. -/
def State.setPtr (r : State × Nat) : State := { r.1 with link := { r.1.link with ptr := r.2 } }

/-- A whole I2C transaction (R113 to R117). Fewer than three address bytes leave the register address as it was (log entry 93). -/
def State.i2cWrite (s : State) (head : Byte) (data : List Byte) : State :=
  if head ≠ s.i2cHead 0 ∨ data.length < 3 then s
  else State.setPtr (State.writeRun true (data.drop 3) (byteAddr data) s)

/-- A read transaction goes on at the register address (R115). -/
def State.i2cRead (s : State) (head : Byte) (words : Nat) : State :=
  if head ≠ s.i2cHead 1 then s else State.setPtr (State.readRun true words s.link.ptr s)

/-! The rows. -/

/-- REGISTER_WRITE (R95 to R101, R121, R126, R144 to R149). -/
def execRegisterWrite (iface : Iface) (addr : BitVec 24) (word : Word) (s : State) : Host.Outcome State Fault Refusal :=
  .next (s.hostWrite iface addr.toNat word)

/-- POSTED_WRITE_LAND (R119, R120). -/
def execPostedWriteLand (region : Fin 5) (s : State) : Host.Outcome State Fault Refusal := .next (s.landRegion region.val)

/-- HOST_UNLOCK (R144, R145, R148). -/
def execHostUnlock (iface : Iface) (key : Word) (s : State) : Host.Outcome State Fault Refusal :=
  .next (s.hostWrite iface Reg.HOST_UNLOCK key)

/-- RC_READ: a read of one word (R96 to R101, R137, R138). -/
def execRcRead (iface : Iface) (addr : BitVec 24) (s : State) : Host.Outcome State Fault Refusal :=
  .next (s.hostRead iface addr.toNat)

/-- LO_READ: a read of a LO word (R141). -/
def execLoRead (iface : Iface) (addr : BitVec 24) (s : State) : Host.Outcome State Fault Refusal :=
  .next (s.hostRead iface addr.toNat)

/-- SPI_FRAME_END (R103 to R112): the host link is SPI. -/
def execSpiFrameEnd (frame : FrameEnd) (s : State) : Host.Outcome State Fault Refusal :=
  .next (if s.on F.CTL_SYS_STRAP_HOSTSEL ∨ s.linkAlive = false then s
    else
      match frame with
      | .whole => s
      | .malformed => s.hostErr .host errFrame 0
      | .partialWrite a => s.hostErr .host errPartial a.toNat
      | .aborted a => s.abortRead a.toNat
      | .bytes mosi words cut => s.spiFrame mosi words cut)

/-- I2C_STOP (R113 to R117): the host link is I2C. -/
def execI2cStop (ends : I2cEnd) (s : State) : Host.Outcome State Fault Refusal :=
  .next (if s.on F.CTL_SYS_STRAP_HOSTSEL = false ∨ s.linkAlive = false then s
    else
      match ends with
      | .words (some a) => s.hostErr .host errPartial a.toNat
      | .words none => s
      | .write head data => s.i2cWrite head data
      | .read head words => s.i2cRead head words)

/-- RING_ENABLE: a write of DSP_RINGn_CFG (spec/04_command_protocol.md, R155). -/
def execRingEnable (iface : Iface) (n : Fin 32) (word : Word) (s : State) : Host.Outcome State Fault Refusal :=
  .next (s.hostWrite iface (Reg.DSP_RING_CFG n.val) word)

/-- DOORBELL: a write of DSP_RINGn_HIDX (spec/04_command_protocol.md, R157, R158). -/
def execDoorbell (iface : Iface) (n : Fin 32) (word : Word) (s : State) : Host.Outcome State Fault Refusal :=
  .next (s.hostWrite iface (Reg.DSP_RING_HIDX n.val) word)

/-- INJECT (spec/06_engines_leap.md, R309). -/
def execInject (iface : Iface) (n : Fin 8) (s : State) : Host.Outcome State Fault Refusal :=
  .next (s.hostWrite iface (Reg.DSP_NE_CTRL n.val) 1)

/-- START (spec/08_speaker_channels.md, R805): RETRY as it stands. -/
def execStart (iface : Iface) (chan : Fin 12) (s : State) : Host.Outcome State Fault Refusal :=
  .next (s.writeLand iface (Reg.OUT_SPK_CTRL chan.val) (s.reg (Reg.OUT_SPK_CTRL chan.val) ||| 1))

/-- STOP (spec/08_speaker_channels.md, R805): RETRY as it stands. -/
def execStop (iface : Iface) (chan : Fin 12) (s : State) : Host.Outcome State Fault Refusal :=
  .next (s.writeLand iface (Reg.OUT_SPK_CTRL chan.val) (s.reg (Reg.OUT_SPK_CTRL chan.val) ||| 2))

/-- XPT_UPDATE (spec/08_speaker_channels.md, R405): EN and NODE as they stand. -/
def execXptUpdate (iface : Iface) (g : Fin 3) (s : State) : Host.Outcome State Fault Refusal :=
  .next (s.writeLand iface (Reg.OUT_G_XPT g.val) (s.reg (Reg.OUT_G_XPT g.val) ||| 0x80000000))

/-- SWPLL_UPDATE (spec/09_clocks.md, R440): the other fields as they stand. -/
def execSwpllUpdate (iface : Iface) (s : State) : Host.Outcome State Fault Refusal :=
  .next (s.writeLand iface Reg.OUT_SW_CTRL (s.reg Reg.OUT_SW_CTRL ||| 0x80000000))

/-- RESUME (spec/13_monitoring_converters.md, R609): the other fields as they stand. -/
def execResume (iface : Iface) (s : State) : Host.Outcome State Fault Refusal :=
  .next (s.writeLand iface Reg.SAFE_MADC_CFG (s.reg Reg.SAFE_MADC_CFG ||| 0x80000000))

/-- RELEASE (spec/14_power_states.md, R641). -/
def execRelease (iface : Iface) (s : State) : Host.Outcome State Fault Refusal :=
  .next (s.writeLand iface Reg.PWR_GECKO 0x80000000)

/-- BOOT_GO (spec/16_security.md, R717): CTL_BOOT_CTRL written with LEN and GO. -/
def execBootGo (iface : Iface) (len : BitVec 18) (s : State) : Host.Outcome State Fault Refusal :=
  .next (s.hostWrite iface Reg.CTL_BOOT_CTRL (len.zeroExtend 32 ||| 0x80000000))

/-- A stalled access of a domain that has come up completes (R101). -/
def State.unstall (s : State) (x : Stalled) : State :=
  let s1 := { s with link := { s.link with stalled := s.link.stalled.erase x } }
  if x.write then s1.land x.addr x.word else s1.capture x.iface x.addr

/-- DOMAIN_POWER_DONE (R101; spec/14_power_states.md, R642, R645, R647): the oldest change of a domain ends, and the accesses and
commands that waited for it complete. -/
def execDomainPowerDone (domain : Fin 42) (s : State) : Host.Outcome State Fault Refusal :=
  let d := domain.val
  let s1 := s.domDone d
  .next (if s1.domOn d then (s1.link.stalled.filter fun (x : Stalled) => x.domain = d).foldl State.unstall s1 else s1)

end Sys2Proof.Machine
end

