-- ==== Sys2Proof/Machine/LeapRead.lean ====
section
/-!
DEFINITION. One Fg period at the read points (spec/06_engines_leap.md, R289): the modulators (spec/08_speaker_channels.md, R363,
R366, R367, R380, R381, R407), the headphone and line DAC (spec/12_headphone_line_cv.md, R566 to R570) and the supply tracking
(spec/08_speaker_channels.md, R411; spec/12_headphone_line_cv.md, R585).
-/

namespace Sys2Proof.Machine

/-! Committed readers. -/

/-- One committed sample into an input: an invalid one glides the input to 0 over 16 samples, the first valid one after a run starts
a ramp from 0 over 16 samples (R366). -/
def Mod.feed (m : Mod) (a : Sample) (neg : Bool) : Mod :=
  if a.is tgValid then
    let rise := if m.valid then m.rise - 1 else 15
    let x := if neg then -a.val.toInt else a.val.toInt
    { y := 16 * x * (16 - (rise : Int)), valid := true, glide := 0, rise := rise, base := 0 }
  else
    let base := if m.valid then m.y else m.base
    let glide := if m.valid then 15 else m.glide - 1
    { y := base * (glide : Int) / 16, valid := false, glide := glide, rise := 0, base := base }

/-- An input that takes no samples: 0, with no run of invalid samples under way. -/
def Mod.idle : Mod := { y := 0, valid := true, glide := 0, rise := 0, base := 0 }

/-- Whether this sample begins a run of invalid samples at an input (R366). -/
def Mod.runBegins (m : Mod) (a : Sample) : Bool := m.valid && !a.is tgValid

/-! Speaker channels. -/

/-- V_FS in V of a channel's FSPK code (R364; R806). -/
def State.vfs (s : State) (n : Nat) : Nat := [6, 8, 10, 12, 15, 18, 21, 24, 27, 30].getD (s.rd (F.OUT_SPK_CFG_FSPK n)) 30

/-- Whether a channel plays: its modulator takes the programme (R369, R370). -/
def State.playsNow (s : State) (n : Nat) : Bool := s.phase n = phUnmute || s.phase n = phPlay || s.phase n = phMute

/-- P_lim of a channel in nW (OUT_SPKn_LIMIT; R385). -/
def State.plim (s : State) (n : Nat) : Nat :=
  500000000 * min (max 1 (min 200 (s.rd (F.OUT_SPK_LIMIT_PLIM n)))) (s.rd F.OUT_SPK_FUSE_PCEIL)

/-- The larger power term of R381 in nW: from the programme value and from the measured current. -/
def State.powerNow (s : State) (n : Nat) (y : Int) : Nat :=
  let z := s.znom n
  max (roundFree (y.natAbs ^ 2 * s.vfs n ^ 2 * 10 ^ 12) (2 ^ 78 * z)) (roundFree ((s.spk n).amps ^ 2 * 225 * z * 10 ^ 6) (2048 ^ 2))

/-- One sample of a one-pole filter: the average moves toward the new value, and not past it (R381). -/
def onePole (avg p tau fg : Nat) : Nat :=
  let d := Config.onePole avg p tau fg
  if avg ≤ p then avg + min d (p - avg) else avg - min d (avg - p)

/-- A, A_pl and P_est of a channel one sample on; A moves by 0.125 dB at most (R380, R381). -/
def State.limitStep (s : State) (n : Nat) (y : Int) : State :=
  let x := s.spk n
  let pest := onePole x.pest (s.powerNow n y) (max 1 (min 100 (s.rd (F.OUT_SPK_LIMIT_TAU n)))) s.fg
  let apl := if s.plim n < pest then dbOver pest (s.plim n) else 0
  let want := max apl (max (s.grp (n / 4)).afb (1250 * s.rd (F.SAFE_AGE_DER_AAGE n)))
  let att := if x.att < want then min want (x.att + 1250) else max want (x.att - 1250)
  ((s.modSpk n fun x => { x with pest := pest, apl := apl, att := att }).wr (F.OUT_SPK_PROT_ATT n) (eighths att)).wr
    (F.OUT_SPK_PROT_PLATT n) (eighths apl)

/-- Sample `i` of a slot's data: 16-bit mono at 16 kHz, the first in the low half of its word; DESIGN CHOICE (log entry 100). -/
def CrkSlot.sample (c : CrkSlot) (i : Nat) : Int :=
  let w := c.data.getD (i / 2) 0
  (w.extractLsb' (16 * (i % 2)) 16).toInt

/-- A slot's signal before its level, as a fraction of 2^39, so many ticks into its cycle or pass: the stored sample at a 16 kHz instant, a
tone within its ON time, 0 in its OFF time and after the last sample (R407, R408). -/
def CrkSlot.signal (c : CrkSlot) (t : Nat) : Int :=
  if c.kind = 2 then
    let i := t / 1536
    let a := 2 ^ 24 * c.sample i
    if 2 * c.data.length ≤ i then 0
    else if t % 1536 = 0 then a
    else boundTo (Config.croakerWave [2, a, 2 ^ 24 * c.sample (i + 1)] (t % 1536)).toInt (2 ^ 39)
  else if c.offMs ≠ 0 ∧ c.onMs * msTicks ≤ t % ((c.onMs + c.offMs) * msTicks) then 0
  else boundTo (Config.croakerWave [1, c.wave, c.freq] t).toInt (2 ^ 39)

/-- The croaker's contribution at a channel's modulator input: the slot's signal at -LEVEL (R407, R409). -/
def State.croakerAt (s : State) (n : Nat) : Int :=
  match s.slotFor? n with
  | some k =>
    let c := s.slot k
    if s.croaking n then onMagnitude (c.signal (s.now - c.mark)) (attenuated · (5000 * c.level)) else 0
  | none => 0

/-- A value at the duck gain of a DUCK code: 0x3F mutes it (R407). -/
def ducked (v : Int) (code : Nat) : Int := if code = 0x3F then 0 else onMagnitude v (attenuated · (10000 * code))

/-- A magnitude under the gain of a raised-cosine ramp at place `pos` of `len` (R369, R370). -/
def rampGain (m pos len : Nat) : Nat :=
  if pos = 0 then 0 else if len ≤ pos then m else min m (Config.gainOnTheWay m [pos, len])

/-- The tone that an AC impedance test adds to a channel's modulator input: a sine at -LEVEL, its rise and fall over 5 ms offline
(spec/10_load_jack_diagnostics.md, R489, R491). -/
def State.testTone (s : State) (n : Nat) : Int :=
  match s.diag.ac with
  | some a =>
    let peak := attenuated (2 ^ 39) (10000 * a.level)
    let t := s.now - a.mark
    let shape (v : Int) : Int := onMagnitude v fun m =>
      rampGain (rampGain m t (5 * msTicks)) (100 * msTicks - t) (5 * msTicks)
    if s.master n ≠ a.chan then 0
    else if a.online then (if s.phase n = phPlay then boundTo (Config.testTone 25000 s.now).toInt peak else 0)
    else if a.stage = 1 then shape (boundTo (Config.testTone 1000 s.now).toInt peak)
    else if a.stage = 2 then shape (boundTo (Config.testTone 16000 s.now).toInt peak)
    else 0
  | none => 0

/-- The modulator input before it saturates: x * 10^(-A / 20) * d + c, with the programme gain of Unmute and Mute on x, and the tone of an
impedance test (R363, R369, R370, R407; spec/10_load_jack_diagnostics.md, R491). -/
def State.inputOf (s : State) (n : Nat) (y : Int) : Int :=
  let d := vat s.out.ducks n
  let age := s.now - d.1
  let a := if s.playsNow n then onMagnitude y (attenuated · (s.spk n).att) else 0
  let p := if s.phase n = phUnmute ∨ s.phase n = phMute then onMagnitude a (rampGain · (s.rampPos n) (s.rampTicks n)) else a
  let from0 := ducked p d.2.1
  let to0 := ducked p d.2.2
  let q := if d.2.1 = d.2.2 ∨ 5 * msTicks ≤ age then to0
    else onMagnitude p fun m =>
      max (min from0.natAbs to0.natAbs) (min (max from0.natAbs to0.natAbs) (Config.gainOnTheWay m [from0.natAbs, to0.natAbs, age]))
  q + s.croakerAt n + s.testTone n

/-- A modulation index: a fraction, saturated to 0.96 either way. -/
structure ModIndex where
  num : Int
  den : Nat
  deriving DecidableEq, Repr

/-- The modulation index that a modulator input commands at a PVDD in mV, in the range of R362 (R363, R407). -/
def State.modIndex (s : State) (n : Nat) (u : Int) (pvdd : Nat) : ModIndex :=
  let v := boundTo u (2 ^ 39) * (1000 * s.vfs n : Nat)
  let den := 2 ^ 39 * pvdd
  if 96 * den < 100 * v.natAbs then ⟨if v < 0 then -96 else 96, 100⟩ else ⟨v, den⟩

/-- Whether the input saturates, or the duty does at a PVDD in mV (R363, R407). -/
def State.clips (s : State) (n : Nat) (u : Int) (pvdd : Nat) : Bool :=
  2 ^ 39 < u.natAbs || 96 * (2 ^ 39 * pvdd) < 100 * (boundTo u (2 ^ 39) * (1000 * s.vfs n : Nat)).natAbs

/-- The duty of leg P (0) or M (1) of a channel as a fraction, none at high impedance: 0.5 + m / 2 and 0.5 - m / 2; both legs alike while the
common mode ramps, and at half of a gated carrier's hold clock (R362, R369, R370; spec/09_clocks.md, R451). -/
def State.legDuty (s : State) (n leg : Nat) (u : Int) (pvdd : Nat) : Option (Int × Nat) :=
  let ph := s.phase n
  if s.hiz n ∨ switching ph = false then none
  else if ph = phCharge ∨ ph = phDischarge then some ((s.rampPos n : Nat), 2 * s.rampTicks n)
  else if ph = phLock ∨ inMask (s.rd F.OUT_SW_STAT_GATE) (n / 4) then some (1, 2)
  else
    let m := s.modIndex n u pvdd
    some (if leg = 0 then m.den + m.num else m.den - m.num, 2 * m.den)

/-- Where node `j` of a group begins its switching period, in cycles of f_VCO after the group's period begins: j * 45 degrees of 8 * DIV; a
spare leg takes the offset of its node (R361). -/
def State.nodeOffset (s : State) (g j : Nat) : Nat := j * divTaken (s.rd (F.OUT_SW_OUTA_DIV g))

/-- One committed sample at a channel's modulator (R363, R366, R367, R377, R380, R381, R407). -/
def State.modStep (s : State) (n pvdd : Nat) : State :=
  if s.phase n = phSlave ∨ s.domOn (dmGroup (n / 4)) = false then s
  else
    let a := s.leapNow n
    let m := (s.spk n).md
    let m1 := if s.playsNow n then m.feed a (s.on (F.OUT_SPK_CFG_POLINV n)) else Mod.idle
    let s1 := if s.playsNow n && m.runBegins a then s.set1 (F.OUT_SPK_STAT_UNDR n) else s
    let s2 := (s1.modSpk n fun x => { x with md := m1 }).limitStep n m1.y
    if (s.playsNow n || s.phase n = phHold) && !s2.hiz n && s2.clips n (s2.inputOf n m1.y) pvdd then
      (s2.set1 (F.OUT_SPK_STAT_CLIP n)).acSpoil n
    else s2

/-! Headphone and line DAC. -/

/-- VOL in 0.125 dB; 765 is a muted side (R568; OUT_HPL_CFG). -/
def volOf (code : Nat) : Nat := if code = 0xFF then 765 else 4 * min code 0xBF

/-- The applied attenuation of a side moves by 0.125 dB (R568). -/
def volStep (now want : Nat) : Nat := if now < want then now + 1 else if want < now then now - 1 else now

/-- One pair of committed samples at the headphone (0) or line (1) output (R566 to R569). -/
def State.hpStep (s : State) (o : Nat) : State :=
  let x := s.hpx o
  let a := s.leapNow 12
  let b := s.leapNow 13
  let plays := s.hoPhase o = hoUnmute || s.hoPhase o = hoPlay || s.hoPhase o = hoMute
  let s1 := if plays && (x.left.runBegins a || x.right.runBegins b) then s.set1 F.OUT_HPL_STAT_UNDR else s
  s1.modHp o fun x =>
    { x with
      attL := volStep x.attL (volOf (s.rd F.OUT_HPL_CFG_VOLL)), attR := volStep x.attR (volOf (s.rd F.OUT_HPL_CFG_VOLR))
      left := if plays then x.left.feed a false else Mod.idle
      right := if plays then x.right.feed b false else Mod.idle }

/-- The full scale of the headphone (0) or line (1) output in mVrms (R567). -/
def hoFullScale (o : Nat) : Nat := if o = 0 then 1130 else 2000

/-- What a side of the headphone (0) or line (1) output drives, as a fraction of 2^39 of its full scale, none while its short is closed:
x * 10^(-VOL / 20), with the gain of Unmute and Mute (R567, R568, R573). -/
def State.hpOut (s : State) (o side : Nat) : Option Int :=
  let x := s.hpx o
  let ph := s.hoPhase o
  let y := if side = 0 then x.left.y else x.right.y
  let att := if side = 0 then x.attL else x.attR
  let v := if att = 765 then 0 else onMagnitude y (attenuated · (1250 * att))
  if ph = hoOff ∨ ph = hoPump then none
  else if ph = hoPlay then some v
  else if ph = hoUnmute ∨ ph = hoMute then some (onMagnitude v (rampGain · (s.hoPos o) s.hoFade))
  else some 0

/-- HPOVC sets while a side of the enabled headphone output limits its current (R571). -/
def State.hpLimit (s : State) (limited : Bool) : State :=
  if limited ∧ s.hoPhase 0 ≠ hoOff then s.set1 F.OUT_HPL_STAT_HPOVC else s

/-! Supply tracking. -/

/-- The largest magnitude among the samples of a leap channel from the read point on, retracted ones included until their index has
passed (R411; spec/01_architecture.md, R47, R52). -/
def State.aheadPeak (s : State) (c : Nat) : Nat :=
  let h := vat s.leap c
  let top := h.read + (s.graph.nra : Int)
  let a := h.samples.foldl (fun m (e : LeapSample) =>
    if h.read ≤ (e.idx : Int) ∧ (e.idx : Int) ≤ top ∧ e.smp.is tgValid = true then max m e.smp.val.toInt.natAbs else m) 0
  h.demand.foldl (fun m (e : Nat × Nat) => if h.read ≤ (e.1 : Int) ∧ (e.1 : Int) ≤ top then max m e.2 else m) a

/-- The demand of a channel in units of Pa (R411). -/
def State.demandOf (s : State) (n : Nat) : Nat :=
  let v := roundFree (s.aheadPeak n * s.vfs n * (10 * paUnit) * 100) (96 * 2 ^ 31)
  attenuated v (s.spk n).att

/-- Whether a channel takes part in the tracking demand (R411). -/
def State.tracks (s : State) (n : Nat) : Bool := s.on (F.OUT_SPK_CFG_TRACK n) && s.phase n ≠ phSlave

/-- D of a CV channel in units of Pa (R411; spec/12_headphone_line_cv.md, R585). -/
def State.demand (s : State) (cv : Nat) : Nat :=
  let ns := (List.range 12).filter fun n => s.tracks n && s.rd (F.OUT_G_CFG_CVSEL (n / 4)) = cv
  if ns.any s.playsNow then ns.foldl (fun m n => max m (s.demandOf n)) 0 else 0

/-! The read points. -/

/-- A bound leap channel delivers its sample, counted in UNDCNT where it is filled, and its read point advances (R289), from the
start of its graph on (R311); before that it only fills. -/
def State.leapStep (s : State) (c : Nat) : State :=
  let e := (vat s.leap c).empty
  if s.on (F.DSP_LEAP_STAT_BOUND c) ∧ s.graph.flow then
    let s1 := if e then s.sat (F.DSP_LEAP_CNT_UNDCNT c) 1 else s
    (s1.modLeap c fun (h : LeapCh) =>
      { h with
        read := h.read + 1, filled := e
        samples := h.samples.filter fun (x : LeapSample) => h.read < (x.idx : Int) + (8 * 2 ^ s.rd F.DSP_GRAPH_STAT_BC : Nat)
        echo := h.echo.filter fun (x : Nat × Nat) => h.read < (x.2 : Int)
        demand := h.demand.filter fun (x : Nat × Nat) => h.read < (x.1 : Int) }).showAhead c
  else s.modLeap c fun (h : LeapCh) => { h with filled := e }

/-- LEAP_READ (R289, R366, R381, R411; spec/12_headphone_line_cv.md, R567 to R571, R585): one Fg period, with PVDD of the three groups in
mV, and whether each headphone side limits its current. The readers take the sample at the read point, and the read point advances. -/
def execLeapRead (pvdd : Nat × Nat × Nat) (limitL limitR : Bool) (s : State) : Host.Outcome State Fault Refusal :=
  if ¬ s.linkAlive then .next s
  else
    let s1 := forEach (fun n (z : State) => z.modStep n ([pvdd.1, pvdd.2.1, pvdd.2.2].getD (n / 4) 0)) 12 s
    let s2 := if s1.domOn dmHpLine then (forEach (fun o (z : State) => z.hpStep o) 2 s1).hpLimit (limitL || limitR) else s1
    let s3 := if s2.domOn dmCv then forEach (fun n (z : State) => z.cvTrackStep n (z.demand n)) 4 s2 else s2
    .next (forEach (fun c (z : State) => z.leapStep c) 32 s3)

end Sys2Proof.Machine
end

