-- ==== Sys2Proof/Machine/Dispatch.lean ====
section
/-!
DEFINITION. What each command does: one arm per constructor, each a direct call of its meaning.
-/

namespace Sys2Proof.Machine

def exec (i : Instr) (s : State) : Host.Outcome State Fault Refusal :=
  match i with
  | .nop p => Sys2Proof.Machine.execNop p s
  | .stateSync p => Sys2Proof.Machine.execStateSync p s
  | .journalRead p => Sys2Proof.Machine.execJournalRead p s
  | .sysInfo p => Sys2Proof.Machine.execSysInfo p s
  | .eventCfg p => Sys2Proof.Machine.execEventCfg p s
  | .loopPin p => Sys2Proof.Machine.execLoopPin p s
  | .sysReset p => Sys2Proof.Machine.execSysReset p s
  | .sysResetExecute => Sys2Proof.Machine.execSysResetExecute s
  | .streamOpen p => Sys2Proof.Machine.execStreamOpen p s
  | .streamClose p => Sys2Proof.Machine.execStreamClose p s
  | .streamCloseForce p => Sys2Proof.Machine.execStreamCloseForce p s
  | .streamCloseDone sid => Sys2Proof.Machine.execStreamCloseDone sid s
  | .streamStatus p => Sys2Proof.Machine.execStreamStatus p s
  | .streamFrame sid frame => Sys2Proof.Machine.execStreamFrame sid frame s
  | .portCfg p => Sys2Proof.Machine.execPortCfg p s
  | .portEnable p => Sys2Proof.Machine.execPortEnable p s
  | .portFrameFound port => Sys2Proof.Machine.execPortFrameFound port s
  | .tdmFrame port bclks rate => Sys2Proof.Machine.execTdmFrame port bclks rate s
  | .tdmLost port => Sys2Proof.Machine.execTdmLost port s
  | .rateerr port rate => Sys2Proof.Machine.execRateerr port rate s
  | .tdmFmtApply port => Sys2Proof.Machine.execTdmFmtApply port s
  | .spdifRxCfg p => Sys2Proof.Machine.execSpdifRxCfg p s
  | .spdifTxCfg p => Sys2Proof.Machine.execSpdifTxCfg p s
  | .spdifCsRead p => Sys2Proof.Machine.execSpdifCsRead p s
  | .spdifCsWrite p => Sys2Proof.Machine.execSpdifCsWrite p s
  | .spdifLock rate => Sys2Proof.Machine.execSpdifLock rate s
  | .spdifLost => Sys2Proof.Machine.execSpdifLost s
  | .spdifCsBlock sent framesA framesB biphaseA biphaseB => Sys2Proof.Machine.execSpdifCsBlock sent framesA framesB biphaseA biphaseB s
  | .asrcCfg p => Sys2Proof.Machine.execAsrcCfg p s
  | .asrcLock lock => Sys2Proof.Machine.execAsrcLock lock s
  | .asrcUnlock loss => Sys2Proof.Machine.execAsrcUnlock loss s
  | .graphLoad p => Sys2Proof.Machine.execGraphLoad p s
  | .graphLoadDone => Sys2Proof.Machine.execGraphLoadDone s
  | .graphStart p => Sys2Proof.Machine.execGraphStart p s
  | .graphStop p => Sys2Proof.Machine.execGraphStop p s
  | .graphStopDone => Sys2Proof.Machine.execGraphStopDone s
  | .graphMolt p => Sys2Proof.Machine.execGraphMolt p s
  | .graphMoltSwap => Sys2Proof.Machine.execGraphMoltSwap s
  | .graphParam p => Sys2Proof.Machine.execGraphParam p s
  | .spareReserve p => Sys2Proof.Machine.execSpareReserve p s
  | .engineStatus p => Sys2Proof.Machine.execEngineStatus p s
  | .blockTick => Sys2Proof.Machine.execBlockTick s
  | .checkpointSeal leng unreadable => Sys2Proof.Machine.execCheckpointSeal leng unreadable s
  | .engineBlockEnd leng out => Sys2Proof.Machine.execEngineBlockEnd leng out s
  | .leapRead pvdd limitL limitR => Sys2Proof.Machine.execLeapRead pvdd limitL limitR s
  | .lockstep n => Sys2Proof.Machine.execLockstep n s
  | .engecc err => Sys2Proof.Machine.execEngecc err s
  | .engprog n task => Sys2Proof.Machine.execEngprog n task s
  | .spareLoadDone leng => Sys2Proof.Machine.execSpareLoadDone leng s
  | .engineSelftestDone n persists => Sys2Proof.Machine.execEngineSelftestDone n persists s
  | .inject iface n => Sys2Proof.Machine.execInject iface n s
  | .scrubRead bank row col res => Sys2Proof.Machine.execScrubRead bank row col res s
  | .rowReplaceDone copy => Sys2Proof.Machine.execRowReplaceDone copy s
  | .bankRetire bank => Sys2Proof.Machine.execBankRetire bank s
  | .marchRun p => Sys2Proof.Machine.execMarchRun p s
  | .marchRunAbort p => Sys2Proof.Machine.execMarchRunAbort p s
  | .marchRowStart met => Sys2Proof.Machine.execMarchRowStart met s
  | .marchRowRelease failure => Sys2Proof.Machine.execMarchRowRelease failure s
  | .spkGroupCfg p => Sys2Proof.Machine.execSpkGroupCfg p s
  | .spkChanCfg p => Sys2Proof.Machine.execSpkChanCfg p s
  | .spkEnable p => Sys2Proof.Machine.execSpkEnable p s
  | .spkDisable p => Sys2Proof.Machine.execSpkDisable p s
  | .spkLimit p => Sys2Proof.Machine.execSpkLimit p s
  | .spkRetry p => Sys2Proof.Machine.execSpkRetry p s
  | .start iface chan => Sys2Proof.Machine.execStart iface chan s
  | .stop iface chan => Sys2Proof.Machine.execStop iface chan s
  | .spkPendingStart chan => Sys2Proof.Machine.execSpkPendingStart chan s
  | .spkCheckDone chan tests => Sys2Proof.Machine.execSpkCheckDone chan tests s
  | .spkChargeDone chan => Sys2Proof.Machine.execSpkChargeDone chan s
  | .spkLockDone chan => Sys2Proof.Machine.execSpkLockDone chan s
  | .spkUnmuteDone chan => Sys2Proof.Machine.execSpkUnmuteDone chan s
  | .spkMuteDone chan => Sys2Proof.Machine.execSpkMuteDone chan s
  | .spkDischargeDone chan => Sys2Proof.Machine.execSpkDischargeDone chan s
  | .muteNFall => Sys2Proof.Machine.execMuteNFall s
  | .muteNRise => Sys2Proof.Machine.execMuteNRise s
  | .ilimTrip chan legM period => Sys2Proof.Machine.execIlimTrip chan legM period s
  | .shortClassify chan own slave => Sys2Proof.Machine.execShortClassify chan own slave s
  | .retryPulse chan limited tests => Sys2Proof.Machine.execRetryPulse chan limited tests s
  | .dcWindow chan measured commanded => Sys2Proof.Machine.execDcWindow chan measured commanded s
  | .pvdduv g => Sys2Proof.Machine.execPvdduv g s
  | .pvddov g => Sys2Proof.Machine.execPvddov g s
  | .pvddRestart g => Sys2Proof.Machine.execPvddRestart g s
  | .thermalSample g t0 t1 t2 t3 => Sys2Proof.Machine.execThermalSample g t0 t1 t2 t3 s
  | .sliceDrop chan legM slice => Sys2Proof.Machine.execSliceDrop chan legM slice s
  | .legFault chan legM => Sys2Proof.Machine.execLegFault chan legM s
  | .legRegrowRelease g => Sys2Proof.Machine.execLegRegrowRelease g s
  | .spareSelftest g pass => Sys2Proof.Machine.execSpareSelftest g pass s
  | .legSelftestDone g node pass => Sys2Proof.Machine.execLegSelftestDone g node pass s
  | .xptUpdate iface g => Sys2Proof.Machine.execXptUpdate iface g s
  | .xptTransfer g => Sys2Proof.Machine.execXptTransfer g s
  | .croakerCfg p => Sys2Proof.Machine.execCroakerCfg p s
  | .croakerPlay p => Sys2Proof.Machine.execCroakerPlay p s
  | .alertRise pin => Sys2Proof.Machine.execAlertRise pin s
  | .alertFall pin => Sys2Proof.Machine.execAlertFall pin s
  | .croakerSlotEnd slot => Sys2Proof.Machine.execCroakerSlotEnd slot s
  | .hplineCfg p => Sys2Proof.Machine.execHplineCfg p s
  | .hpPumpDone => Sys2Proof.Machine.execHpPumpDone s
  | .hpReleaseDone line => Sys2Proof.Machine.execHpReleaseDone line s
  | .hpUnmuteDone line => Sys2Proof.Machine.execHpUnmuteDone line s
  | .hpMuteDone line => Sys2Proof.Machine.execHpMuteDone line s
  | .hpShortDone line => Sys2Proof.Machine.execHpShortDone line s
  | .cvCfg p => Sys2Proof.Machine.execCvCfg p s
  | .cvTrack p => Sys2Proof.Machine.execCvTrack p s
  | .cvDeglitchEnd n => Sys2Proof.Machine.execCvDeglitchEnd n s
  | .clrNFall => Sys2Proof.Machine.execClrNFall s
  | .clrNRise => Sys2Proof.Machine.execClrNRise s
  | .pllCfg p => Sys2Proof.Machine.execPllCfg p s
  | .swpllSet p => Sys2Proof.Machine.execSwpllSet p s
  | .rampLoad p => Sys2Proof.Machine.execRampLoad p s
  | .tunedFreq p => Sys2Proof.Machine.execTunedFreq p s
  | .chameleonCfg p => Sys2Proof.Machine.execChameleonCfg p s
  | .syncCfg p => Sys2Proof.Machine.execSyncCfg p s
  | .swpllUpdate iface => Sys2Proof.Machine.execSwpllUpdate iface s
  | .swpllTransfer => Sys2Proof.Machine.execSwpllTransfer s
  | .rampEnd => Sys2Proof.Machine.execRampEnd s
  | .pllWindow pll count => Sys2Proof.Machine.execPllWindow pll count s
  | .pllCoastExpire pll => Sys2Proof.Machine.execPllCoastExpire pll s
  | .refLost => Sys2Proof.Machine.execRefLost s
  | .refReturn => Sys2Proof.Machine.execRefReturn s
  | .syncInEdge err marked => Sys2Proof.Machine.execSyncInEdge err marked s
  | .syncTimeout => Sys2Proof.Machine.execSyncTimeout s
  | .aonXt32Switch => Sys2Proof.Machine.execAonXt32Switch s
  | .aonfail => Sys2Proof.Machine.execAonfail s
  | .loadDcTest p => Sys2Proof.Machine.execLoadDcTest p s
  | .loadDcChannelDone own slave dc => Sys2Proof.Machine.execLoadDcChannelDone own slave dc s
  | .loadAcTest p => Sys2Proof.Machine.execLoadAcTest p s
  | .acToneDone mohm centideg => Sys2Proof.Machine.execAcToneDone mohm centideg s
  | .acWindow chan mohm centideg => Sys2Proof.Machine.execAcWindow chan mohm centideg s
  | .jackStatus p => Sys2Proof.Machine.execJackStatus p s
  | .jackInsert => Sys2Proof.Machine.execJackInsert s
  | .jackRemove => Sys2Proof.Machine.execJackRemove s
  | .jackClassify ratio => Sys2Proof.Machine.execJackClassify ratio s
  | .buttonPress ratio => Sys2Proof.Machine.execButtonPress ratio s
  | .buttonRelease ratio => Sys2Proof.Machine.execButtonRelease ratio s
  | .ainCfg p => Sys2Proof.Machine.execAinCfg p s
  | .pgaApply n => Sys2Proof.Machine.execPgaApply n s
  | .micbiasCfg p => Sys2Proof.Machine.execMicbiasCfg p s
  | .micbiasRampDone n => Sys2Proof.Machine.execMicbiasRampDone n s
  | .pdmCfg p => Sys2Proof.Machine.execPdmCfg p s
  | .decimCfg p => Sys2Proof.Machine.execDecimCfg p s
  | .zeroiseDone => Sys2Proof.Machine.execZeroiseDone s
  | .tapPeriod tap => Sys2Proof.Machine.execTapPeriod tap s
  | .wkdLoad p => Sys2Proof.Machine.execWkdLoad p s
  | .wkdLoadDone => Sys2Proof.Machine.execWkdLoadDone s
  | .wkdEnable p => Sys2Proof.Machine.execWkdEnable p s
  | .wkdHop score => Sys2Proof.Machine.execWkdHop score s
  | .gateTimeout => Sys2Proof.Machine.execGateTimeout s
  | .wakeHandover p => Sys2Proof.Machine.execWakeHandover p s
  | .wakeHandoverClose p => Sys2Proof.Machine.execWakeHandoverClose p s
  | .pttCfg p => Sys2Proof.Machine.execPttCfg p s
  | .pttPress => Sys2Proof.Machine.execPttPress s
  | .pttRelease => Sys2Proof.Machine.execPttRelease s
  | .madcSlot convs => Sys2Proof.Machine.execMadcSlot convs s
  | .madcArbitrate low0 high0 low1 high1 => Sys2Proof.Machine.execMadcArbitrate low0 high0 low1 high1 s
  | .madcFailover => Sys2Proof.Machine.execMadcFailover s
  | .madcCoreTest madc low high => Sys2Proof.Machine.execMadcCoreTest madc low high s
  | .mrefCheck madc ok => Sys2Proof.Machine.execMrefCheck madc ok s
  | .resume iface => Sys2Proof.Machine.execResume iface s
  | .madcRead p volts setl refns => Sys2Proof.Machine.execMadcRead p volts setl refns s
  | .tdacTest p volts1 volts2 => Sys2Proof.Machine.execTdacTest p volts1 volts2 s
  | .powerState p => Sys2Proof.Machine.execPowerState p s
  | .powerStepDone => Sys2Proof.Machine.execPowerStepDone s
  | .brumateWindowEnd => Sys2Proof.Machine.execBrumateWindowEnd s
  | .brumateExit plug => Sys2Proof.Machine.execBrumateExit plug s
  | .brumateArrive => Sys2Proof.Machine.execBrumateArrive s
  | .wakeBusMatch => Sys2Proof.Machine.execWakeBusMatch s
  | .gpioWake levels => Sys2Proof.Machine.execGpioWake levels s
  | .powerPermit p => Sys2Proof.Machine.execPowerPermit p s
  | .powerDomainOn p => Sys2Proof.Machine.execPowerDomainOn p s
  | .powerDomainOff p => Sys2Proof.Machine.execPowerDomainOff p s
  | .powerDomainOffForce p => Sys2Proof.Machine.execPowerDomainOffForce p s
  | .domainPowerDone domain => Sys2Proof.Machine.execDomainPowerDone domain s
  | .sysOnDemand => Sys2Proof.Machine.execSysOnDemand s
  | .wakeCfg p => Sys2Proof.Machine.execWakeCfg p s
  | .release iface => Sys2Proof.Machine.execRelease iface s
  | .regAcknowledge nack pecErr => Sys2Proof.Machine.execRegAcknowledge nack pecErr s
  | .reglink nack pecErr => Sys2Proof.Machine.execReglink nack pecErr s
  | .safetyCfg p => Sys2Proof.Machine.execSafetyCfg p s
  | .faultRead p => Sys2Proof.Machine.execFaultRead p s
  | .faultClear p => Sys2Proof.Machine.execFaultClear p s
  | .selftestRun p => Sys2Proof.Machine.execSelftestRun p s
  | .selftestDone fail unit => Sys2Proof.Machine.execSelftestDone fail unit s
  | .safeRelease p => Sys2Proof.Machine.execSafeRelease p s
  | .deadlineExpire region => Sys2Proof.Machine.execDeadlineExpire region s
  | .parityScan addr flip => Sys2Proof.Machine.execParityScan addr flip s
  | .loud chan i0 i1 i2 i3 => Sys2Proof.Machine.execLoud chan i0 i1 i2 i3 s
  | .dutyCheck chan duty => Sys2Proof.Machine.execDutyCheck chan duty s
  | .loopmod chan => Sys2Proof.Machine.execLoopmod chan s
  | .vote voter => Sys2Proof.Machine.execVote voter s
  | .alertpin => Sys2Proof.Machine.execAlertpin s
  | .voiceStuck src clock => Sys2Proof.Machine.execVoiceStuck src clock s
  | .smlock => Sys2Proof.Machine.execSmlock s
  | .smwdog => Sys2Proof.Machine.execSmwdog s
  | .fnLatchExpire => Sys2Proof.Machine.execFnLatchExpire s
  | .fnReadback high => Sys2Proof.Machine.execFnReadback high s
  | .clkmon ref sys aud sw => Sys2Proof.Machine.execClkmon ref sys aud sw s
  | .safeosc cycles => Sys2Proof.Machine.execSafeosc cycles s
  | .vmon supply mV => Sys2Proof.Machine.execVmon supply mV s
  | .latentTest test pass => Sys2Proof.Machine.execLatentTest test pass s
  | .sessionOpen p => Sys2Proof.Machine.execSessionOpen p s
  | .sessionOpenDone => Sys2Proof.Machine.execSessionOpenDone s
  | .sessionClose p => Sys2Proof.Machine.execSessionClose p s
  | .sessionIdleTimeout => Sys2Proof.Machine.execSessionIdleTimeout s
  | .lockout => Sys2Proof.Machine.execLockout s
  | .lockoutEnd => Sys2Proof.Machine.execLockoutEnd s
  | .fwMolt p => Sys2Proof.Machine.execFwMolt p s
  | .fwMoltResume => Sys2Proof.Machine.execFwMoltResume s
  | .attest p => Sys2Proof.Machine.execAttest p s
  | .debugChallenge p => Sys2Proof.Machine.execDebugChallenge p s
  | .nonceExpire => Sys2Proof.Machine.execNonceExpire s
  | .debugUnlock p => Sys2Proof.Machine.execDebugUnlock p s
  | .extest => Sys2Proof.Machine.execExtest s
  | .fuseProgram p => Sys2Proof.Machine.execFuseProgram p s
  | .lifecycleAdvance p => Sys2Proof.Machine.execLifecycleAdvance p s
  | .ageingRead p => Sys2Proof.Machine.execAgeingRead p s
  | .replan p counts temps => Sys2Proof.Machine.execReplan p counts temps s
  | .replanRun => Sys2Proof.Machine.execReplanRun s
  | .baskRead p => Sys2Proof.Machine.execBaskRead p s
  | .baskTick core => Sys2Proof.Machine.execBaskTick core s
  | .ringOscWindow counts temp0 temp1 => Sys2Proof.Machine.execRingOscWindow counts temp0 temp1 s
  | .ronSample chan legM high codes => Sys2Proof.Machine.execRonSample chan legM high codes s
  | .repairStatus p => Sys2Proof.Machine.execRepairStatus p s
  | .reset ns => Sys2Proof.Machine.execReset ns s
  | .boot scan => Sys2Proof.Machine.execBoot scan s
  | .bootGo iface len => Sys2Proof.Machine.execBootGo iface len s
  | .supervisorRestart => Sys2Proof.Machine.execSupervisorRestart s
  | .registerWrite iface addr word => Sys2Proof.Machine.execRegisterWrite iface addr word s
  | .postedWriteLand region => Sys2Proof.Machine.execPostedWriteLand region s
  | .hostUnlock iface key => Sys2Proof.Machine.execHostUnlock iface key s
  | .rcRead iface addr => Sys2Proof.Machine.execRcRead iface addr s
  | .loRead iface addr => Sys2Proof.Machine.execLoRead iface addr s
  | .spiFrameEnd frame => Sys2Proof.Machine.execSpiFrameEnd frame s
  | .i2cStop ends => Sys2Proof.Machine.execI2cStop ends s
  | .ringEnable iface n word => Sys2Proof.Machine.execRingEnable iface n word s
  | .doorbell iface n word => Sys2Proof.Machine.execDoorbell iface n word s
  | .ringResync ring1 => Sys2Proof.Machine.execRingResync ring1 s
  | .replyWrite => Sys2Proof.Machine.execReplyWrite s
  | .eventWrite => Sys2Proof.Machine.execEventWrite s
  | .eventRepost => Sys2Proof.Machine.execEventRepost s
  | .suplock ecc => Sys2Proof.Machine.execSuplock ecc s
  | .safetyMonitorRestart => Sys2Proof.Machine.execSafetyMonitorRestart s
  | .supplyMonitorReset => Sys2Proof.Machine.execSupplyMonitorReset s
  | .pttWake => Sys2Proof.Machine.execPttWake s
  | .regrowSettleEnd g hiz => Sys2Proof.Machine.execRegrowSettleEnd g hiz s
  | .loopCoefficientsReloaded g => Sys2Proof.Machine.execLoopCoefficientsReloaded g s
  | .syncInTimeout => Sys2Proof.Machine.execSyncInTimeout s
  | .attestDone => Sys2Proof.Machine.execAttestDone s
  | .debugUnlockDone => Sys2Proof.Machine.execDebugUnlockDone s
  | .fuseProgramDone missed => Sys2Proof.Machine.execFuseProgramDone missed s
  | .lifecycleAdvanceDone => Sys2Proof.Machine.execLifecycleAdvanceDone s
  | .moltResumeTimeout => Sys2Proof.Machine.execMoltResumeTimeout s

end Sys2Proof.Machine
end

