-- ==== Sys2Proof/Machine/Tick.lean ====
section
/-!
DEFINITION. What the device does of itself while no command waits (log entry 5): SYSTIME counts (spec/01_architecture.md, R43), the
SWPLL ramp and the CV channels move, switching periods are counted, VALID of a ring-oscillator pair runs out, a re-plan that has waited runs,
Papol takes packets with an unknown opcode.
-/

namespace Sys2Proof.Machine

/-- The carrier of a group as a frequency in Hz times 2^24 over 8 × divider (spec/09_clocks.md, R435), among them the hold clock of a gated output
(R451) and the fallback carrier of spec/15_safety.md, R671. -/
def State.carrier (s : State) (g : Nat) : Nat × Nat :=
  if s.on F.SAFE_SM_STAT_FALLBACK ∨ inMask (s.rd F.OUT_SW_STAT_GATE) g then (s.audHz * 2 ^ 24, if s.rd (F.OUT_G_CFG_BAND g) = 0 then 32 else 6)
  else (s.refHz * s.swNow, s.swDiv g)

/-- The cycle counter of the leg that serves node `j` of a group (spec/08_speaker_channels.md, OUT_SPKn_CYCP, OUT_SPKn_CYCM,
OUT_Gx_XCYC). -/
def State.cycReg (s : State) (g j : Nat) : Nat :=
  if s.onSpare g j then Reg.OUT_G_XCYC_LO g
  else if j % 2 = 0 then Reg.OUT_SPK_CYCP_LO (chanOf g j)
  else Reg.OUT_SPK_CYCM_LO (chanOf g j)

/-- Whether a group has a carrier or, its output gated, its hold clock, its power domain on or not (spec/09_clocks.md, R439, R451). -/
def State.outRuns (s : State) (g : Nat) : Bool := s.on (F.OUT_SW_OUTA_EN g) && (s.on F.SAFE_SM_STAT_FALLBACK || s.on F.OUT_SW_STAT_SWON)

/-- The periods that end as an output has come to `acc` from the begin of one, the next lengthened by `owed`: their number, and where the period
under way then stands (spec/09_clocks.md, R438). -/
def periods (acc : Int) (unit owed : Nat) : Nat × Int :=
  if acc < unit then (0, acc)
  else
    let rest := acc - unit - owed
    if rest < unit then (1, rest) else (1 + (rest / unit).toNat, rest % unit)

/-- The switching periods of `k` ticks; they are counted on the legs of a group that switch. -/
def State.cycTick (s : State) (g k : Nat) : State :=
  if s.outRuns g = false then s
  else
    let c := s.carrier g
    let r := periods ((s.grp g).frac + k * c.1) (8 * c.2 * vcoUnit) ((s.grp g).owed * vcoUnit)
    let s1 := s.modGrp g fun x => { x with frac := r.2, owed := if r.1 = 0 then x.owed else 0 }
    if r.1 = 0 then s1
    else
      let s2 := if g = 0 then s1.modClk fun q => { q with marked := false } else s1
      if s.domOn (dmGroup g) = false then s2
      else forEach (fun j z => if z.legActs g j then z.wr64 (z.cycReg g j) (z.rd64 (z.cycReg g j) + r.1) else z) 8 s2

/-- What moves in `k` ticks while the host link is alive. -/
def State.moves (s : State) (k : Nat) : State :=
  let s1 := ((forEach (fun g z => z.cycTick g k) 3 s).rampTick k).winTick k
  ((forEach (fun n (z : State) => z.cvSlew n k) 4 s1).ringStale).planDue

/-- The device with no command waiting: one tick of 24.576 MHz, an AON cycle of 750 where SYS is stopped (spec/01_architecture.md,
R43); SYS stops again in LISTEN once no complete packet waits (spec/04_command_protocol.md, R161). OFF counts nothing
(spec/14_power_states.md, R618), nor does a device held in reset (spec/02_package_supplies.md, R71, R79). -/
def State.idle (s : State) : State :=
  if s.pstate = stOff ∨ s.inReset then s
  else if s.pstate = stBrumate then s.tick 750
  else
    let s1 := (s.takeUnknown 1).takeUnknown 0
    if s.pstate = stListen then
      (if s1.hasPacket 0 ∨ s1.hasPacket 1 then s1.moves 750 else (s1.moves 750).clr F.CTL_CLK_STAT_SYSLOCK).tick 750
    else (s1.moves 1).tick 1

end Sys2Proof.Machine
end

