-- ==== Sys2Proof/Safety.lean ====
section
/-!
DEFINITION. What a claim about a run may say: how a command completes, the canonical forms and the capacities of the device's
stores, what holds between a state and a later one.
-/

namespace Sys2Proof.Machine

/-- A command completes from a state: it answers a next state, of which `P` holds. -/
def Completes (i : Instr) (s : State) (P : State → Prop) : Prop := ∃ t, exec i s = .next t ∧ P t

/-- The three sparse stores (registers, memory windows, engine memories) are in their canonical form. -/
structure State.Canonical (s : State) : Prop where
  mem    : Memory.wf s.mem = true
  regs   : Sparse.wf regReset s.regs = true
  engMem : Sparse.wf (fun _ => (0 : Word)) s.engMem = true

/-- A pending list holds its commands in slot order, each in one of 8 slots of its own (spec/04_command_protocol.md, R177). -/
def PendOk (l : List PendEntry) : Prop := (l.map (·.slot)).Pairwise (· < ·) ∧ ∀ e ∈ l, e.slot < 8

/-- The stores of Papol and of the safety monitor keep to their capacities: 64 journaled replies and events
(spec/04_command_protocol.md, R188), 64 queued reports (R799), 8 pending commands (R177), 32 fault records
(spec/15_safety.md, R689). -/
structure State.Bounded (s : State) : Prop where
  replies : s.pap.replies.length ≤ 64
  events  : s.pap.events.length ≤ 64
  reports : s.pap.reports.length ≤ 64
  pending : PendOk s.pap.slots
  records : s.saf.recs.length ≤ 32

/-- Every fuse bit that is programmed in `s` is programmed in `t` (spec/16_security.md, R703). -/
def FusesKept (s t : State) : Prop :=
  ∀ (i : Fin 64) (b : Nat), (s.sec.fuses[i]).getLsbD b = true → (t.sec.fuses[i]).getLsbD b = true

/-- Two states agree on every byte of the memory windows outside the addresses that `p` names. -/
def SameBytesBut (p : Nat → Prop) (s t : State) : Prop := ∀ a, ¬ p a → t.byte a = s.byte a

/-- Two states agree on every register outside the addresses that `p` names, but that in LISTEN SYS may have started, which SYSLOCK shows
(spec/04_command_protocol.md, R161). -/
def SameRegsBut (p : Nat → Prop) (s t : State) : Prop :=
  ∀ a, ¬ p a → t.reg a = s.reg a ∨
    (a = Reg.CTL_CLK_STAT ∧ s.pstate = stListen ∧ t.reg a = (s.set1 F.CTL_CLK_STAT_SYSLOCK).reg a)

/-! Command packets. -/

/-- A packet that Papol takes at once: Papol runs, no lockout is due, the ring is in use and empty, no reply is held back, no packet of
ring 1 goes before it, it names a LEN that the ring takes, and it fits its ring (spec/04_command_protocol.md, R158, R159, R167, R168). -/
structure Stands (c : CmdSpec) (p : Packet) (s : State) : Prop where
  runs   : s.pap.run = .running
  calm   : s.rd F.CTL_SEC_CNT_CONSEC < 8
  alive  : s.linkAlive = true
  used   : s.ringOn p.ring = true
  free   : s.pap.held = []
  empty  : s.didx p.ring = s.hidx p.ring
  turn   : p.ring1 = true ∨ s.hasPacket 1 = false
  len    : p.payload.length ≤ 4096
  fits   : (p.words c.opcode).length ≤ s.ringLen p.ring

/-- A packet taken at once whose CRC is right and whose CSEQ is the one expected: steps 1 and 2 of R169 pass. -/
structure Judged (c : CmdSpec) (p : Packet) (s : State) : Prop extends Stands c p s where
  whole  : crc32c (p.covered c.opcode) = p.crc
  expect : p.cseq = s.expected p.ring1

/-- A packet whose checks of R169 all pass, up to the card. -/
structure Accepted (c : CmdSpec) (p : Packet) (s : State) : Prop extends Judged c p s where
  passes : c.check p s = none

/-- The state on which the card of an accepted packet acts: the packet placed in its ring and taken from it, SYS running for it (R161), its
EACK stored (R173), the series advanced (R170), CONSEC cleared by a verified tag (spec/16_security.md, R722). -/
def State.admitted (s : State) (c : CmdSpec) (p : Packet) : State :=
  let s1 := (s.placeRing p.ring (p.words c.opcode)).sysRun.wr (F.DSP_RING_DIDX_DIDX p.ring) (s.didx p.ring + (p.words c.opcode).length)
  let s2 := (s1.takeEack p.eack).advance p.ring1
  if p.auth then s2.authPassed else s2

/-- The newest entry of the reply journal answers this packet with this status, DETAIL and reply words (R163, R188). -/
def Replied (t : State) (c : CmdSpec) (p : Packet) (status detail : Nat) (ws : List Word) : Prop :=
  ∃ e, t.pap.replies.getLast? = some e ∧ e.opcode = c.opcode ∧ e.ring1 = p.ring1 ∧ e.cseq = p.cseq ∧ e.status = status ∧
    e.detail = detail ∧ e.len = ws.length ∧ e.payload = ws.take 16

/-- The packet's command pends with these targets, and its reply is ST_PENDING (R175). -/
def Pends (t : State) (c : CmdSpec) (p : Packet) (ws : List Word) (ts : List Target) : Prop :=
  ∃ e ∈ t.pap.slots, e.opcode = c.opcode ∧ e.ring1 = p.ring1 ∧ e.cseq = p.cseq ∧ e.payload = p.payload ∧ e.targets = ts ∧
    e.done = none ∧ Replied t c p stsPending e.slot ws

/-- A command packet is answered with this status, DETAIL and reply words, and `P` holds of the state after it. -/
def Answers (i : Instr) (c : CmdSpec) (p : Packet) (s : State) (status detail : Nat) (ws : List Word) (P : State → Prop) : Prop :=
  ∃ t, exec i s = .next t ∧ Replied t c p status detail ws ∧ P t

/-- A command packet is answered with ST_PENDING, its command pends with these targets, and `P` holds of the state after it. -/
def Awaits (i : Instr) (c : CmdSpec) (p : Packet) (s : State) (ws : List Word) (ts : List Target) (P : State → Prop) : Prop :=
  ∃ t, exec i s = .next t ∧ Pends t c p ws ts ∧ P t

/-- No pending command addresses the targets, and a pending slot is free (R177, R178). -/
def Free (s : State) (ts : List Target) : Prop := s.pendFor? ts = none ∧ s.freeSlot? ≠ none

/-- The pending command with this opcode that addresses the target and has not finished, lowest slot first. -/
def State.workFor? (s : State) (t : Target) (opcode : Nat) : Option PendEntry :=
  s.pap.slots.find? fun e => e.opcode = opcode && e.targets.contains t && e.done.isNone

/-- Where Papol runs, a pending command has ended with this status: its slot is free, and its journal entry tells the status (R175, R176);
with no such command the slots are as before. -/
def Ended (e? : Option PendEntry) (status : Nat) (s t : State) : Prop :=
  s.pap.run = .running →
    match e? with
    | none => t.pap.slots = s.pap.slots
    | some e => t.pap.slots = s.pap.slots.filter (fun f => f.slot ≠ e.slot) ∧
        ∀ r, t.replyFor? e.ring1 e.cseq = some r → r.status = status

/-- The card and the packet of a command that a host packet carries; STATE_SYNC, which is neither counted in a series nor journaled
(spec/04_command_protocol.md, R172), is not among them. -/
def packet? : Instr → Option (CmdSpec × Packet)
  | .nop p => some (cardNop, p)
  | .journalRead p => some (cardJournalRead, p)
  | .sysInfo p => some (cardSysInfo, p)
  | .eventCfg p => some (cardEventCfg, p)
  | .loopPin p => some (cardLoopPin, p)
  | .sysReset p => some (cardSysReset, p)
  | .streamOpen p => some (cardStreamOpen, p)
  | .streamClose p => some (cardStreamClose, p)
  | .streamCloseForce p => some (cardStreamClose, { p with force := true })
  | .streamStatus p => some (cardStreamStatus, p)
  | .portCfg p => some (cardPortCfg, p)
  | .portEnable p => some (cardPortEnable, p)
  | .spdifRxCfg p => some (cardSpdifRxCfg, p)
  | .spdifTxCfg p => some (cardSpdifTxCfg, p)
  | .spdifCsRead p => some (cardSpdifCsRead, p)
  | .spdifCsWrite p => some (cardSpdifCsWrite, p)
  | .asrcCfg p => some (cardAsrcCfg, p)
  | .graphLoad p => some (cardGraphLoad, p)
  | .graphStart p => some (cardGraphStart, p)
  | .graphStop p => some (cardGraphStop (pb p.payload 0 0), p)
  | .graphMolt p => some (cardGraphMolt, p)
  | .graphParam p => some (cardGraphParam, p)
  | .spareReserve p => some (cardSpareReserve, p)
  | .engineStatus p => some (cardEngineStatus, p)
  | .marchRun p => some (cardMarchRun, p)
  | .marchRunAbort p =>
    some (cardMarchRun, { p with payload := [pw p.payload 0, putBits (pw p.payload 1) 31 1 1] ++ p.payload.drop 2 })
  | .spkGroupCfg p => some (cardSpkGroupCfg, p)
  | .spkChanCfg p => some (cardSpkChanCfg, p)
  | .spkEnable p => some (cardSpkEnable, p)
  | .spkDisable p => some (cardSpkDisable, p)
  | .spkLimit p => some (cardSpkLimit, p)
  | .spkRetry p => some (cardSpkRetry, p)
  | .croakerCfg p => some (cardCroakerCfg, p)
  | .croakerPlay p => some (cardCroakerPlay, p)
  | .hplineCfg p => some (cardHplineCfg, p)
  | .cvCfg p => some (cardCvCfg, p)
  | .cvTrack p => some (cardCvTrack, p)
  | .pllCfg p => some (cardPllCfg, p)
  | .swpllSet p => some (cardSwpllSet, p)
  | .rampLoad p => some (cardRampLoad, p)
  | .tunedFreq p => some (cardTunedFreq, p)
  | .chameleonCfg p => some (cardChameleonCfg, p)
  | .syncCfg p => some (cardSyncCfg, p)
  | .loadDcTest p => some (cardLoadDcTest, p)
  | .loadAcTest p => some (cardLoadAcTest, p)
  | .jackStatus p => some (cardJackStatus, p)
  | .ainCfg p => some (cardAinCfg, p)
  | .micbiasCfg p => some (cardMicbiasCfg, p)
  | .pdmCfg p => some (cardPdmCfg, p)
  | .decimCfg p => some (cardDecimCfg, p)
  | .wkdLoad p => some (cardWkdLoad, p)
  | .wkdEnable p => some (cardWkdEnable, p)
  | .wakeHandover p => some (cardWakeHandover, p)
  | .wakeHandoverClose p => some (cardWakeHandover, { p with payload := p.payload.modifyHead (· ||| 0x80000000) })
  | .pttCfg p => some (cardPttCfg, p)
  | .madcRead p _ _ _ => some (cardMadcRead, p)
  | .tdacTest p _ _ => some (cardTdacTest, p)
  | .powerState p => some (cardPowerState, p)
  | .powerPermit p => some (cardPowerPermit, p)
  | .powerDomainOn p => some (cardPowerDomainOn, p)
  | .powerDomainOff p => some (cardPowerDomainOff, p)
  | .powerDomainOffForce p => some (cardPowerDomainOff, { p with force := true })
  | .wakeCfg p => some (cardWakeCfg, p)
  | .safetyCfg p => some (cardSafetyCfg, p)
  | .faultRead p => some (cardFaultRead, p)
  | .faultClear p => some (cardFaultClear, p)
  | .selftestRun p => some (cardSelftestRun, p)
  | .safeRelease p => some (cardSafeRelease, p)
  | .sessionOpen p => some (cardSessionOpen, p)
  | .sessionClose p => some (cardSessionClose, p)
  | .fwMolt p => some (cardFwMolt, p)
  | .attest p => some (cardAttest, p)
  | .debugChallenge p => some (cardDebugChallenge, p)
  | .debugUnlock p => some (cardDebugUnlock, p)
  | .fuseProgram p => some (cardFuseProgram, p)
  | .lifecycleAdvance p => some (cardLifecycleAdvance, p)
  | .ageingRead p => some (cardAgeingRead, p)
  | .replan p _ _ => some (cardReplan, p)
  | .baskRead p => some (cardBaskRead, p)
  | .repairStatus p => some (cardRepairStatus, p)
  | _ => none

/-- The registers that Papol moves as it takes packets and writes replies and events: the indices of rings 0 to 3 and the
authentication counters. -/
def papolReg (a : Nat) : Prop :=
  (∃ n, n < 4 ∧ (a = Reg.DSP_RING_HIDX n ∨ a = Reg.DSP_RING_DIDX n)) ∨ a = Reg.CTL_SEC_CNT

/-- A byte of the windows of rings 0 to 3. -/
def papolByte (s : State) (a : Nat) : Prop := ∃ n i, n < 4 ∧ s.ringAddr n i ≤ a ∧ a < s.ringAddr n i + 4

/-- Nothing differs but Papol's own state, the registers that `p` names, the bytes that `q` names and the poison marks there. -/
structure PapolBut (p q : Nat → Prop) (s t : State) : Prop where
  regs   : SameRegsBut p s t
  bytes  : SameBytesBut q s t
  poison : ∀ a, ¬ q a → (a ∈ t.poison ↔ a ∈ s.poison)
  rest   : { t with regs := s.regs, mem := s.mem, pap := s.pap, poison := s.poison } = s

/-- The registers outside `l` and the bytes of memory keep their values, but for those that Papol itself moves. -/
def Touches (l : List Nat) (s t : State) : Prop :=
  SameRegsBut (fun a => papolReg a ∨ a ∈ l) s t ∧ SameBytesBut (papolByte s) s t

/-- `t` with the registers, the memory and Papol's state of `s`: what else differs between the two. -/
def State.over (s t : State) : State := { t with regs := s.regs, mem := s.mem, poison := s.poison, pap := s.pap }

/-- A domain is up with no power-down under way (spec/14_power_states.md, R643, R647). -/
def DomUp (s : State) (d : Nat) : Prop := s.domOn d = true ∧ s.pwr.changes.any (fun c => c.domain = d && !c.up) = false

/-- A register of a posted range whose landed write does nothing beyond its fields. -/
def plainPosted (a : Nat) : Bool :=
  !(decide (a = Reg.CTL_BOOT_CTRL ∨ a = Reg.PWR_GPIO_IO ∨ a = Reg.PWR_GECKO ∨ (0x280000 ≤ a ∧ a < 0x280080 ∧ a % 0x20 = 0) ∨
    a = Reg.IN_MICB_CFG ∨ a = Reg.IN_PDM_CFG ∨ a = Reg.IN_PDM_MIC ∨ (0x300000 ≤ a ∧ a < 0x300300) ∨
    (0x301000 ≤ a ∧ a < 0x301300 ∧ a % 0x40 ≤ 8) ∨ a = Reg.OUT_SW_CTRL ∨ a = Reg.OUT_HPL_CFG ∨ (0x305000 ≤ a ∧ a < 0x305080) ∨
    a = Reg.SAFE_SM_CFG ∨ a = Reg.SAFE_SM_CFG2 ∨ a = Reg.SAFE_MADC_CFG))

/-- No load test is under way, no channel is lost to the croaker, no leg sequence runs: what a phase moves is then the channel's alone. -/
structure Quiet (s : State) : Prop where
  dc   : s.diag.dc = []
  ac   : s.diag.ac = none
  recs : ∀ r ∈ s.saf.recs, r.code ≠ 0x30A
  seqs : ∀ g, g < 3 → (s.grp g).seq = none

/-- Besides, no croaker slot is set and no command waits for a channel to be Off: a channel in Fault hold then stays there (R388, R416;
spec/15_safety.md, R685). -/
structure Still (s : State) : Prop extends Quiet s where
  crk   : ∀ k, k < 8 → (s.slot k).kind = 0 ∧ (s.slot k).active = false
  stops : ∀ w ∈ s.out.waits, w.2.2 ≠ 1

/-- The packet's ring and CSEQ are not those of a pending command. -/
def NewKey (p : Packet) (s : State) : Prop := ∀ e ∈ s.pap.slots, ¬ (e.ring1 = p.ring1 ∧ e.cseq = p.cseq)

/-- The registers that follow the phases of the channels, and Papol's own. -/
def spkReg (a : Nat) : Prop := papolReg a ∨ (∃ n, n < 12 ∧ a = Reg.OUT_SPK_STAT n) ∨ a = Reg.OUT_CRK_STAT

/-- A step is safe if it answers a next state: it neither stops on a fault nor refuses the command. -/
def SafeStep (s : State) : Prop := ∃ t, step s = .next t

end Sys2Proof.Machine
end

