-- ==== Sys2Proof/Certificates/Slice0/Obligations.lean ====
section
/-!
DEFINITION. The statements: what the rules of the specification say the commands of the DVN1224 do.
-/

open Sys2Proof Sys2Proof.Machine

/-! ## The queue and the machine as a whole -/

/-- The command at the front of the queue is the one that runs, on the state with the queue's rest. -/
def Obligations.StepRunsFrontCommand : Prop :=
  ∀ (c : Instr) (rest : List Instr) (s : State), s.pending = c :: rest → step s = exec c { s with pending := rest }

/-- With no command waiting a device that is not held in reset ticks (log entry 5, the model's choice): SYSTIME advances by 1 in IDLE and PLAY, by 750 in BRUMATE
(spec/01_architecture.md, R43), and OFF changes nothing. -/
def Obligations.IdleStepCountsSystime : Prop :=
  ∀ s : State, s.pending = [] →
    (s.inReset = true ∨ s.pstate = stOff → step s = .next s) ∧
    (s.inReset = false → s.pstate = stBrumate → ∃ t, step s = .next t ∧ t.now = (s.now + 750) % 2 ^ 64 ∧ SameBytesBut (fun _ => False) s t ∧
      SameRegsBut (fun a => a = Reg.CTL_SYS_TIME_LO ∨ a = Reg.CTL_SYS_TIME_LO + 4) s t) ∧
    (s.inReset = false → stIdle ≤ s.pstate → s.hasPacket 0 = false → s.hasPacket 1 = false →
      ∃ t, step s = .next t ∧ t.now = (s.now + 1) % 2 ^ 64 ∧ SameBytesBut (papolByte s) s t ∧ t.pending = [])

/-- After reset the registers read what the spec states for reset, the rings stand at their BASE and LOG2SIZE, both series expect CSEQ 1
(spec/04_command_protocol.md, R170), and Papol does not run before BOOT. -/
def Obligations.ResetLeavesStatedValues : Prop :=
  let s := State.reset
  s.pending = [] ∧ s.now = 0 ∧ s.reg Reg.HOST_ERR = 0 ∧ s.reg Reg.HOST_PWSTAT = 0 ∧ s.lockOpen .host = false ∧ s.lockOpen .debug = false ∧
    s.expected false = 1 ∧ s.expected true = 1 ∧ s.pap.run = .off ∧ s.pstate = stIdle ∧
    (∀ b : Fin 16, s.bankOn b.val = true) ∧ s.rd F.OUT_SPK_FUSE_PCEIL = 200 ∧ s.rd F.DSP_SPARE_RESERVE = 1 ∧
    (∀ n : Fin 12, s.phase n.val = phOff) ∧ (∀ n : Fin 128, s.reg (Reg.DSP_STR_STAT n.val) = 0) ∧
    s.rings.toList.take 4 = [⟨0, 10⟩, ⟨0x1000, 8⟩, ⟨0x1400, 11⟩, ⟨0x3400, 11⟩]

/-- The state after reset has its stores in canonical form and within their capacities. -/
def Obligations.ResetIsCanonicalAndBounded : Prop := State.reset.Canonical ∧ State.reset.Bounded

/-- Every step keeps the registers, the memory windows and the engine memories in canonical form. -/
def Obligations.StepKeepsCanonicalStores : Prop :=
  ∀ s t : State, s.Canonical → step s = .next t → t.Canonical

/-- Every step keeps the journals, the report queue, the pending slots and the fault records within their capacities
(spec/04_command_protocol.md, R177, R188, R799; spec/15_safety.md, R689). -/
def Obligations.StepKeepsCapacities : Prop :=
  ∀ s t : State, s.Bounded → step s = .next t → t.Bounded

/-- No step clears a fuse bit (spec/16_security.md, R703), and no command touches the queue of waiting commands. -/
def Obligations.StepKeepsFusesAndQueue : Prop :=
  (∀ s t : State, step s = .next t → FusesKept s t) ∧
  (∀ (c : Instr) (s t : State), exec c s = .next t → t.pending = s.pending)

/-! ## Register access (spec/03_register_access.md) -/

/-- A read, for which SYS runs, captures the register in one go, the pins as they are at the capture: the word and the marker go to the reader, every RC bit that the register reads as 1 clears,
a LO word latches its HI half into the reader's own shadow (R141), a HI word reads that shadow; nothing else changes. A read that waits for
its domain captures when the domain is up. -/
def Obligations.ReadCapturesAndLatchesShadow : Prop :=
  State.reset.link.shadow = 0 ∧ State.reset.link.dshadow = 0 ∧
  (∀ (i : Iface) (a : BitVec 24) (r : RegRow) (s : State), s.ifaceReady i = true → a.toNat % 4 = 0 → a.toNat < 0x800000 →
    regRow? a.toNat = some r → s.reaches a.toNat = true →
    let z := if a.toNat = Reg.PWR_GPIO_IO then s.sysRun.showGpio else s.sysRun
    ∃ t, exec (.rcRead i a) s = .next t ∧ exec (.loRead i a) s = .next t ∧
      t.link.marker = true ∧
      t.link.rdata = (if a.toNat = Reg.HOST_UNLOCK then (if s.lockOpen i then 0x10000 else 0)
        else if r.half = 2 then (if i = .host then s.link.shadow else s.link.dshadow) else z.reg a.toNat) ∧
      t.reg a.toNat = z.reg a.toNat &&& ~~~r.rc ∧
      (r.half = 1 → (if i = .host then t.link.shadow else t.link.dshadow) = z.reg (a.toNat + 4)) ∧
      (r.half = 1 → (if i = .host then t.link.dshadow = s.link.dshadow else t.link.shadow = s.link.shadow)) ∧
      (r.half ≠ 1 → t.link.shadow = s.link.shadow ∧ t.link.dshadow = s.link.dshadow) ∧
      SameRegsBut (fun b => b = a.toNat) s t ∧ { t with regs := s.regs, link := s.link } = s) ∧
  (∀ (i : Iface) (a : BitVec 24) (r : RegRow) (d : Fin 42) (s : State), regRow? a.toNat = some r → 0x10 ≤ d.val →
    s.link.stalled = [⟨d.val, i, false, a.toNat, 0⟩] → s.pwr.changes = [⟨d.val, true, []⟩] →
    ∃ t, exec (.domainPowerDone d) s = .next t ∧ t.link.stalled = [] ∧ t.link.marker = true ∧
      (r.half = 1 → (if i = .host then t.link.shadow else t.link.dshadow) = t.reg (a.toNat + 4)) ∧
      (r.half = 2 → t.link.rdata = if i = .host then s.link.shadow else s.link.dshadow))

/-- What a write word over the host link meets, in the order of the model: misalignment, the tadpole window, a bank out of ON, no register, a
domain that may not power up, a closed lock. Each sets its bit of HOST_ERR, latches HOST_ERRADDR from all clear, and drops the word. The
guard lock: HOST_UNLOCK opens it with the key and closes it, with BADKEY, on any other word; a word to a bank window closes it. Each
interface has its own lock (R140), and HOST_ERR records the host link alone (R150). -/
def Obligations.WriteErrorsAndGuardLock : Prop :=
  (∀ (a : BitVec 24) (w : Word) (s : State), s.ifaceReady .host = true → a.toNat ≠ Reg.HOST_UNLOCK →
      let n := a.toNat
      let dropped := fun (cause : Nat) => ∃ t, exec (.registerWrite .host a w) s = .next t ∧
        t.rd ⟨Reg.HOST_ERR, cause, 1⟩ = 1 ∧
        (s.reg Reg.HOST_ERR = 0 → t.reg Reg.HOST_ERRADDR = w32 (cause * 2 ^ 24 + n)) ∧
        (s.reg Reg.HOST_ERR ≠ 0 → t.reg Reg.HOST_ERRADDR = s.reg Reg.HOST_ERRADDR) ∧
        t.lockOpen .host = false ∧ SameRegsBut (fun b => b = Reg.HOST_ERR ∨ b = Reg.HOST_ERRADDR) s t ∧
        { t with regs := s.regs, link := s.link } = s ∧ t.link.posted = s.link.posted ∧ t.link.stalled = s.link.stalled
      if n % 4 ≠ 0 then dropped 3
      else if 0xA00000 ≤ n ∧ n < 0xA80000 then dropped 5
      else if 0x800000 ≤ n ∧ n < 0xA00000 then (s.bankOn (bankOf n) = false → dropped 6)
      else if regRow? n = none then dropped 4
      else if s.unpowered n then dropped 6
      else if guardedAt n ∧ s.lockOpen .host = false then dropped 8
      else ∀ r, postedRegion? n = some r → s.on ⟨Reg.HOST_PWSTAT, r, 1⟩ = true → dropped 7) ∧
  (∀ (i j : Iface) (key : Word) (s : State), s.ifaceReady i = true → i ≠ j →
      (∃ t, exec (.hostUnlock i 0xC3A5) s = .next t ∧ t.lockOpen i = true ∧ t.lockOpen j = s.lockOpen j ∧
        SameRegsBut (fun _ => False) s t ∧ { t with regs := s.regs, link := s.link } = s ∧ (∀ k, exec (.hostUnlock i k) s = exec (.registerWrite i (BitVec.ofNat 24 Reg.HOST_UNLOCK) k) s)) ∧
      (key ≠ 0xC3A5 → ∃ t, exec (.hostUnlock i key) s = .next t ∧ t.lockOpen i = false ∧ t.lockOpen j = s.lockOpen j ∧
        (if i = .host then t.rd ⟨Reg.HOST_ERR, 10, 1⟩ = 1 else t.reg Reg.HOST_ERR = s.reg Reg.HOST_ERR) ∧
        SameRegsBut (fun b => b = Reg.HOST_ERR ∨ b = Reg.HOST_ERRADDR) s t ∧ { t with regs := s.regs, link := s.link } = s))

/-- The guard lock (R145): the write word after an unlock closes the writer's lock whatever its address and outcome, unless it is itself the
key at HOST_UNLOCK, which leaves the lock open; reads and discarded partial words leave the lock as it is, and so does the passing of
time. The other interface's lock stays as it is (R140). -/
def Obligations.NextWriteClosesTheGuardLock : Prop :=
  ∀ (i j : Iface) (a : BitVec 24) (w : Word) (s : State), s.ifaceReady i = true → i ≠ j →
    let kept := fun (t : State) => t.lockOpen i = s.lockOpen i ∧ t.lockOpen j = s.lockOpen j
    (∃ t, exec (.registerWrite i a w) s = .next t ∧ t.lockOpen i = decide (a.toNat = Reg.HOST_UNLOCK ∧ w = 0xC3A5) ∧
      t.lockOpen j = s.lockOpen j) ∧
    (∃ t, exec (.rcRead i a) s = .next t ∧ kept t) ∧ (∃ t, exec (.loRead i a) s = .next t ∧ kept t) ∧
    (∃ t, exec (.spiFrameEnd (.partialWrite a)) s = .next t ∧ kept t) ∧ (∃ t, exec (.i2cStop (.words (some a))) s = .next t ∧ kept t) ∧
    (∀ head k, ∃ t, exec (.i2cStop (.read head k)) s = .next t ∧ kept t) ∧
    (s.pending = [] → ∃ t, step s = .next t ∧ kept t)

/-- A word written to a bank that is ON lands there, and nowhere else, and closes the lock (R96, R145; spec/07_shared_banks.md, R331). A word
written to a posted region is taken with the region's busy bit set (R119), and where the register is one whose write does nothing
beyond its fields, its landing clears the busy bit and leaves the written fields in the register (R120). -/
def Obligations.BankAndPostedWritesStoreTheWord : Prop :=
  (∀ (i : Iface) (a : BitVec 24) (w : Word) (s : State), s.ifaceReady i = true → a.toNat % 4 = 0 → 0x800000 ≤ a.toNat →
      a.toNat < 0xA00000 → s.bankOn (bankOf a.toNat) = true →
      ∃ t, exec (.registerWrite i a w) s = .next t ∧ t.word a.toNat = w ∧
        SameBytesBut (fun b => a.toNat ≤ b ∧ b < a.toNat + 4) s t ∧ a.toNat ∉ t.poison ∧
        (∀ b, b ≠ a.toNat → (b ∈ t.poison ↔ b ∈ s.poison)) ∧ t.lockOpen i = false ∧
        { t with mem := s.mem, poison := s.poison, link := s.link } = s) ∧
  (∀ (i : Iface) (a : BitVec 24) (w : Word) (r : Fin 5) (s : State), s.ifaceReady i = true → a.toNat % 4 = 0 → regRow? a.toNat ≠ none →
      postedRegion? a.toNat = some r.val → s.reaches a.toNat = true → (guardedAt a.toNat = true → s.lockOpen i = true) →
      s.fusedAt a.toNat = false → s.on ⟨Reg.HOST_PWSTAT, r.val, 1⟩ = false → s.link.posted = [] →
      ∃ t, exec (.registerWrite i a w) s = .next t ∧ t.on ⟨Reg.HOST_PWSTAT, r.val, 1⟩ = true ∧ t.link.posted = [⟨a.toNat, w⟩] ∧
        t.lockOpen i = false ∧ SameRegsBut (fun b => b = Reg.HOST_PWSTAT) s t ∧ { t with regs := s.regs, link := s.link } = s ∧
        (plainPosted a.toNat = true → s.cfgHit a.toNat = false →
          ∃ u, exec (.postedWriteLand r) t = .next u ∧ u.on ⟨Reg.HOST_PWSTAT, r.val, 1⟩ = false ∧ u.link.posted = [] ∧
            u.reg a.toNat = (s.reg a.toNat &&& ~~~writeMask a.toNat) ||| (w &&& writeMask a.toNat) ∧
            SameRegsBut (fun b => b = a.toNat ∨ b = Reg.HOST_PWSTAT) t u ∧ { u with regs := t.regs, link := t.link } = t))

/-- SPI_FRAME_END and I2C_STOP, each on its own kind of link, record what a cut frame leaves (R104, R107, R111, R117): nothing but HOST_ERR,
HOST_ERRADDR and, for an aborted read, the stalled read changing. A whole SPI frame is its command byte, three address bytes and its words,
each at an address 4 further under INC and each taken by itself; the status byte is captured as it begins (R103, R105, R106, R112). A whole
I2C transaction is answered at 0x4C + ADDR alone; its three address bytes set the register address, which advances by 4 from word to word and
from which a read goes on (R113 to R115). -/
def Obligations.FrameEndsRecordErrors : Prop :=
  ∀ (s : State) (a : BitVec 24) (w v : Word), s.linkAlive = true →
    let begun : State := { s with link := { s.link with status := s.spiStatus } }
    let abs : List Byte := [a.extractLsb' 16 8, a.extractLsb' 8 8, a.extractLsb' 0 8]
    let wbs := fun (w : Word) => ([w.extractLsb' 24 8, w.extractLsb' 16 8, w.extractLsb' 8 8, w.extractLsb' 0 8] : List Byte)
    let errs := fun (cause n : Nat) (t : State) => t.rd ⟨Reg.HOST_ERR, cause, 1⟩ = 1 ∧
      (s.reg Reg.HOST_ERR = 0 → t.reg Reg.HOST_ERRADDR = w32 (cause * 2 ^ 24 + n)) ∧
      SameRegsBut (fun b => b = Reg.HOST_ERR ∨ b = Reg.HOST_ERRADDR) s t
    (s.on F.CTL_SYS_STRAP_HOSTSEL = false →
      exec (.spiFrameEnd .whole) s = .next s ∧ (∀ x, exec (.i2cStop x) s = .next s) ∧
      (∃ t, exec (.spiFrameEnd .malformed) s = .next t ∧ errs 0 0 t ∧ { t with regs := s.regs } = s) ∧
      (∃ t, exec (.spiFrameEnd (.partialWrite a)) s = .next t ∧ errs 1 a.toNat t ∧ { t with regs := s.regs } = s) ∧
      (∃ t, exec (.spiFrameEnd (.aborted a)) s = .next t ∧ errs 2 a.toNat t ∧ { t with regs := s.regs, link := s.link } = s ∧
        ∀ x ∈ t.link.stalled, x ∈ s.link.stalled ∧ (x.write = true ∨ x.iface ≠ .host)) ∧
      (∀ (cmd : Byte) (bs : List Byte) (n : Nat) (cut : Bool), cmd.toNat % 64 ≠ 0 →
        ∃ t, exec (.spiFrameEnd (.bytes (cmd :: bs) n cut)) s = .next t ∧ errs 0 0 t ∧ { t with regs := s.regs } = begun) ∧
      (∃ t, exec (.registerWrite .host a w) begun = .next t ∧ exec (.spiFrameEnd (.bytes (0x00 :: abs ++ wbs w) 0 false)) s = .next t ∧
        exec (.spiFrameEnd (.bytes (0x40 :: abs ++ wbs w ++ wbs v) 0 false)) s = exec (.registerWrite .host (a + 4) v) t ∧
        exec (.spiFrameEnd (.bytes (0x00 :: abs ++ wbs w ++ wbs v) 0 false)) s = exec (.registerWrite .host a v) t) ∧
      (∃ t, exec (.rcRead .host a) begun = .next t ∧ exec (.spiFrameEnd (.bytes (0x80 :: abs) 1 false)) s = .next t ∧
        (t.ifaceReady .host = true → exec (.spiFrameEnd (.bytes (0xC0 :: abs) 2 false)) s = exec (.rcRead .host (a + 4)) t))) ∧
    (s.on F.CTL_SYS_STRAP_HOSTSEL = true →
      let head := fun (rw : Nat) => BitVec.ofNat 8 (2 * (0x4C + s.rd F.CTL_SYS_STRAP_ADDR) + rw)
      let at4 := fun (t : State) => { t with link := { t.link with ptr := (a.toNat + 4) % 2 ^ 24 } }
      exec (.i2cStop (.words none)) s = .next s ∧ (∀ x, exec (.spiFrameEnd x) s = .next s) ∧
      (∃ t, exec (.i2cStop (.words (some a))) s = .next t ∧ errs 1 a.toNat t ∧ { t with regs := s.regs } = s) ∧
      (∀ (h : Byte) (bs : List Byte) (n : Nat), (h ≠ head 0 → exec (.i2cStop (.write h bs)) s = .next s) ∧
        (h ≠ head 1 → exec (.i2cStop (.read h n)) s = .next s)) ∧
      (∃ t, exec (.registerWrite .host a w) s = .next t ∧ exec (.i2cStop (.write (head 0) (abs ++ wbs w))) s = .next (at4 t)) ∧
      (s.link.ptr = a.toNat → ∃ t, exec (.rcRead .host a) s = .next t ∧
        (t.ifaceReady .host = true → exec (.i2cStop (.read (head 1) 1)) s = .next (at4 t))))

/-- RING_ENABLE and DOORBELL (spec/04_command_protocol.md, R154 to R157) on rings 2 to 15, which no packet is taken from: an enable that
stands latches the geometry and empties the ring, a refused one lands with ENABLE 0 and BADCFG; HIDX takes the new index, unless that
would overfill the ring, when only OVF sets. -/
def Obligations.RingEnableAndDoorbell : Prop :=
  ∀ (i : Iface) (n : Fin 32) (w : Word) (s : State), s.ifaceReady i = true → 2 ≤ n.val → n.val ≤ 15 →
    s.cfgHit (Reg.DSP_RING_CFG n.val) = false → s.cfgHit (Reg.DSP_RING_HIDX n.val) = false →
    (s.on (F.DSP_RING_CFG_ENABLE n.val) = false → bit w 16 = true →
      let base := s.rd (F.DSP_RING_BASE_BASE n.val) * 256
      let log2 := bits w 0 5
      ∃ t, exec (.ringEnable i n w) s = .next t ∧ t.rd (F.DSP_RING_CFG_LOG2SIZE n.val) = log2 ∧ t.lockOpen i = false ∧
        SameBytesBut (fun _ => False) s t ∧
        (if s.ringRefused n.val base log2 then
          t.rd (F.DSP_RING_CFG_ENABLE n.val) = 0 ∧ t.rd (F.DSP_RING_CFG_BADCFG n.val) = 1 ∧ t.rings = s.rings ∧
            SameRegsBut (fun b => b = Reg.DSP_RING_CFG n.val) s t
        else t.rd (F.DSP_RING_CFG_ENABLE n.val) = 1 ∧ t.geo n.val = ⟨base, log2⟩ ∧ t.didx n.val = t.hidx n.val ∧
            SameRegsBut (fun b => b = Reg.DSP_RING_CFG n.val ∨ b = Reg.DSP_RING_DIDX n.val) s t)) ∧
    (∃ t, exec (.doorbell i n w) s = .next t ∧ SameBytesBut (fun _ => False) s t ∧
      (if s.hidxOver n.val (bits w 0 17) then
        t.hidx n.val = s.hidx n.val ∧ t.rd (F.DSP_RING_CFG_OVF n.val) = 1 ∧ SameRegsBut (fun b => b = Reg.DSP_RING_CFG n.val) s t
      else t.hidx n.val = bits w 0 17 ∧ SameRegsBut (fun b => b = Reg.DSP_RING_HIDX n.val) s t))

/-! ## Command packets (spec/04_command_protocol.md) -/

/-- A packet that fails a check of R169 is answered with the first failing check's status and has no effect beyond Papol's own state: for
every command that a host packet carries. -/
def Obligations.RefusedPacketHasNoEffect : Prop :=
  ∀ (i : Instr) (c : CmdSpec) (p : Packet) (s : State), packet? i = some (c, p) → Judged c p s →
    let refused := fun (st d : Nat) => Answers i c p s st d [] fun t => PapolBut papolReg (papolByte s) s t ∧
      t.expected p.ring1 = s.expected p.ring1 + 1 ∧ t.expected (!p.ring1) = s.expected (!p.ring1)
    let allowed := fun (st : Nat) => (st = stListen ∧ c.listen = true) ∨ (st = stIdle ∧ c.idle = true) ∨ (st = stPlay ∧ c.play = true)
    if p.urgent ≠ p.ring1 then refused stsBadParam 0
    else if p.ring1 = true ∧ c.ring1 = false then refused stsDenied 1
    else if c.auth = true ∧ p.auth = false then refused stsDenied 3
    else if p.auth = true ∧ s.tagOk c.opcode p = false then refused stsAuthFail 0
    else if ¬ allowed s.leaving then refused stsDenied 2
    else if s.on F.PWR_STATE_TRANS = true ∧ c.opcode ≠ 0x600 ∧ ¬ allowed (s.rd F.PWR_STATE_TARGET) then refused stsDenied 2
    else if p.payload.length < c.minLen ∨ c.maxLen < p.payload.length then refused stsBadParam 0
    else p.force = true → c.force = false → refused stsBadParam 0

/-- A packet whose CRC fails is answered with ST_CRC_FAIL, one whose CSEQ is not the expected one from the journal or with ST_SEQ_GAP; in
no case is it executed, journaled or counted in its series (R169, R171). -/
def Obligations.BrokenOrRepeatedPacketIsNotExecuted : Prop :=
  ∀ (i : Instr) (c : CmdSpec) (p : Packet) (s : State), packet? i = some (c, p) → Stands c p s →
    (crc32c (p.covered c.opcode) ≠ p.crc ∨ p.cseq ≠ s.expected p.ring1) →
    ∃ t, exec i s = .next t ∧ PapolBut papolReg (papolByte s) s t ∧ t.pap.exp0 = s.pap.exp0 ∧ t.pap.exp1 = s.pap.exp1 ∧
      t.pap.replies = s.pap.replies ∧
      t.pap.slots = s.pap.slots ∧ t.pap.cfggen = s.pap.cfggen

/-- A reply without NOREPLY stands whole in ring 2 where there is space: NOP's header, CSEQ, last ESEQ, ST_OK and the CRC over them
(R163, R165), and DIDX past it; without space it is held back, and Papol takes no further command (R159). -/
def Obligations.ReplyStandsWholeInRingTwo : Prop :=
  ∀ (p : Packet) (s : State), Accepted cardNop p s → p.noreply = false → p.auth = false →
    let d := s.didx 2
    let ws : List Word := [w32 (b2n p.ring1 * 2 ^ 19), w32 (p.cseq.toNat * 2 ^ 16 + s.pap.eseq.toNat), 0]
    ∃ t, exec (.nop p) s = .next t ∧
      (s.ringSpace 2 4 = true → t.ringWords 2 d 4 = ws ++ [crc32c ws] ∧ t.didx 2 = (d + 4) % 2 ^ 17 ∧ t.pap.held = []) ∧
      (s.ringSpace 2 4 = false → t.didx 2 = d ∧ t.pap.held.length = 1 ∧ ∀ r, t.papolReady r = false)

/-- The system commands that succeed: NOP, JOURNAL_READ, SYS_INFO, EVENT_CFG, LOOP_PIN, whose PIN stops a placement ramp under way where it is
(R186, R188, R193). STATE_SYNC is taken whatever its
CSEQ; it is not counted in either series and not journaled, EACK stays, and its reply carries the series, the journals, the pending
commands, CFGGEN and the power state (R172, R173, R190). -/
def Obligations.SystemCommandsAndStateSync : Prop :=
  (∀ (p : Packet) (s : State),
      (Accepted cardNop p s → Answers (.nop p) cardNop p s 0 0 [] (PapolBut papolReg (papolByte s) s)) ∧
      (Accepted cardJournalRead p s → ∀ ws,
        (if pb p.payload 0 31 then (s.pap.events.find? fun e => e.eseq = (pw p.payload 0).extractLsb' 0 16).map EventEntry.stored
          else (s.replyFor? (pb p.payload 0 30) ((pw p.payload 0).extractLsb' 0 16)).map ReplyEntry.stored) = some ws →
        Answers (.journalRead p) cardJournalRead p s 0 0 ws (PapolBut papolReg (papolByte s) s)) ∧
      (Accepted cardSysInfo p s → Answers (.sysInfo p) cardSysInfo p s 0 0
        [s.reg Reg.CTL_SYS_ID, s.pap.version, w32 s.fwRoll, w32 (s.rd F.CTL_SEC_STAT_LC), s.reg Reg.DSP_GRAPH_ID,
          w32 (2 * s.rd F.CTL_SYS_STRAP_BOOTSEL + s.rd F.CTL_SYS_STRAP_HOSTSEL)] (PapolBut papolReg (papolByte s) s)) ∧
      (Accepted cardEventCfg p s → 1 ≤ pf p.payload 0 0 8 → Answers (.eventCfg p) cardEventCfg p s 0 0 [] fun t =>
        t.pap.repost = pf p.payload 0 0 8 ∧ t.pap.cfggen = s.pap.cfggen + 1 ∧ PapolBut papolReg (papolByte s) s t) ∧
      (Accepted cardLoopPin p s → pf p.payload 0 0 3 ≤ 2 →
        let k := pf p.payload 0 0 3
        let gs := (pw p.payload 0).extractLsb' 4 3
        s.pendFor? (if k < 2 then (indices 3 fun g => gs.getLsbD g).map Target.group else []) = none →
        Answers (.loopPin p) cardLoopPin p s 0 0 [] fun t =>
        let new := fun (old : BitVec 3) => if pb p.payload 0 8 then old ||| gs else old &&& ~~~ gs
        t.pap.pinPlace = (if k = 0 then new s.pap.pinPlace else s.pap.pinPlace) ∧
        t.pap.pinTrack = (if k = 1 then new s.pap.pinTrack else s.pap.pinTrack) ∧
        t.pap.pinAge = (if k = 2 then pb p.payload 0 8 else s.pap.pinAge) ∧
        ((k = 0 → s.clk.placing = false) → Touches [Reg.OUT_SW_STAT, Reg.SAFE_AGE_STAT] s t ∧ s.over t = s) ∧
        (k = 0 → pb p.payload 0 8 = true → (∃ g, g < 3 ∧ gs.getLsbD g = true ∧ s.swEn g = true) → s.clk.placing = true →
          s.clk.ramp.isSome = true → t.clk.ramp = none ∧ t.clk.due = false ∧ t.reg Reg.OUT_SW_FREQI = s.reg Reg.OUT_SW_FREQI ∧
          t.reg Reg.OUT_SW_FREQA = s.reg Reg.OUT_SW_FREQI ∧ t.reg Reg.OUT_SW_FREQ = s.reg Reg.OUT_SW_FREQI))) ∧
  (∀ (p : Packet) (s : State), Stands cardStateSync p s → crc32c (p.covered 0x001) = p.crc → cardStateSync.check p s = none →
      ∃ t, exec (.stateSync p) s = .next t ∧ PapolBut papolReg (papolByte s) s t ∧
        t.pap.exp0 = s.pap.exp0 ∧ t.pap.exp1 = s.pap.exp1 ∧ t.pap.eack = s.pap.eack ∧ t.pap.replies = s.pap.replies ∧
        t.pap.slots = s.pap.slots ∧
        (p.noreply = false → p.auth = false → s.ringSpace 2 (s.syncWords.length + 4) = true →
          t.didx 2 = (s.didx 2 + s.syncWords.length + 4) % 2 ^ 17 ∧
          t.ringWords 2 (s.didx 2 + 3) 5 =
            [w32 (s.pap.exp0.toNat * 2 ^ 16 + s.pap.exp1.toNat), w32 (s.pap.last0.toNat * 2 ^ 16 + s.pap.last1.toNat),
             w32 (s.pap.eseq.toNat * 2 ^ 16 + s.pap.eack.toNat), s.pap.cfggen,
             w32 ((if s.on F.PWR_STATE_TRANS then 0x80 + s.rd F.PWR_STATE_TARGET else s.pstate) * 2 ^ 24 + s.pap.slots.length * 2 ^ 16
               + s.pap.replies.length * 2 ^ 8 + s.pap.events.length)]))

/-- What Papol writes when there is space again: REPLY_WRITE the held replies, EVENT_WRITE the waiting events, EVENT_REPOST the written and
unacknowledged ones with REPOST set, in the journal or moved out of it (R159, R185, R186). RING_RESYNC (R168): a header that names LEN above 4 096, a packet longer than its
ring, or a packet that HIDX covers only in part has the ring discarded and one reply ST_CRC_FAIL with RESYNC written. -/
def Obligations.HeldPacketsAndDiscardedRings : Prop :=
  (∀ s : State, s.pap.run = .running →
      (∀ h, s.pap.held = [h] → s.pap.afterDue = none → s.ringSpace 2 (s.replyWords h).length = true → ∃ t, exec .replyWrite s = .next t ∧ t.pap.held = [] ∧
        t.ringWords 2 (s.didx 2) (s.replyWords h).length = s.replyWords h ∧ t.didx 2 = (s.didx 2 + (s.replyWords h).length) % 2 ^ 17 ∧
        PapolBut papolReg (papolByte s) s t) ∧
      (∀ e, s.ringSpace 3 (e.words true).length = true →
        (s.pap.events = [e] → e.written = false → ∃ t, exec .eventWrite s = .next t ∧ t.pap.events = [{ e with written := true }] ∧
          t.ringWords 3 (s.didx 3) (e.words false).length = e.words false ∧ t.didx 3 = (s.didx 3 + (e.words false).length) % 2 ^ 17 ∧
          PapolBut papolReg (papolByte s) s t) ∧
        (s.pap.unacked ++ s.pap.events = [e] → e.written = true → e.repost = true → s.acked e = false → ∃ t,
          exec .eventRepost s = .next t ∧ t.pap.unacked ++ t.pap.events = [e] ∧
          t.ringWords 3 (s.didx 3) (e.words true).length = e.words true ∧ t.didx 3 = (s.didx 3 + (e.words true).length) % 2 ^ 17 ∧
          PapolBut papolReg (papolByte s) s t))) ∧
  (∀ (ring1 : Bool) (s : State), s.papolReady ring1 = true → s.occupancy (b2n ring1) ≠ 0 →
      let n := b2n ring1
      let w0 := s.word (s.ringAddr n (s.didx n))
      let w1 := s.word (s.ringAddr n (s.didx n + 1))
      (4096 < bits w0 0 16 ∨ s.ringLen n < s.frontLen n ∨ s.occupancy n < s.frontLen n) → s.ringPoisoned n (s.didx n) 2 = false →
      s.ringSpace 2 4 = true →
      ∃ t, exec (.ringResync ring1) s = .next t ∧ t.didx n = s.hidx n ∧ t.pap.exp0 = s.pap.exp0 ∧ t.pap.exp1 = s.pap.exp1 ∧
        t.pap.replies = s.pap.replies ∧ PapolBut papolReg (papolByte s) s t ∧ t.didx 2 = (s.didx 2 + 4) % 2 ^ 17 ∧
        t.ringWords 2 (s.didx 2) 3 = [w32 (bits w0 20 12 * 2 ^ 20 + n * 2 ^ 19 + 2 ^ 16),
          w32 (bits w1 16 16 * 2 ^ 16 + s.pap.eseq.toNat), w32 (stsCrcFail * 2 ^ 24)])

/-! ## Streams and ports (spec/05_streams_ports.md) -/

/-- STREAM_OPEN with ends that exist, clocks that go together and resources that are free opens the stream in WAIT: its context from 0 with
GOOD all ones, the ends, the channels and the ASRC channel in CFG and FMT (R204, R205, R207, R214, R216, R218). A stream that ends is
closed or aborted with the CAUSE of R223 and is no longer open: STREAM_CLOSE at once where its destination clock runs, STREAM_CLOSE with
FORCE, and a waiting close, whose command then ends, at STREAM_CLOSE_DONE; a close whose destination clock has stopped waits (R219, R220).
Where the last wake-handover stream goes, the gate's timer starts (spec/11_inputs_wake.md, R539). -/
def Obligations.StreamsOpenAndEnd : Prop :=
  (∀ (p : Packet) (s : State) (sid asf : Nat), Accepted cardStreamOpen p s →
      let ws := p.payload
      let st := pf ws 1 28 4
      let si := pf ws 1 20 6
      let dt := pf ws 1 12 4
      let di := pf ws 1 4 6
      let nch := pf ws 2 16 5 + 1
      let amode := pf ws 3 8 2
      let hfs := pf ws 3 0 4
      s.endOk st si nch true = true → s.endOk dt di nch false = true → ¬ (1 ≤ st ∧ st ≤ 3 ∧ 1 ≤ dt ∧ dt ≤ 3) → pf ws 2 8 2 ≠ 3 →
      (st = 6 ∨ dt = 6 → rateHz hfs ≠ 0) →
      asrcOk amode (if st = 6 ∧ amode ≠ 0 then rateHz hfs else s.endRate st si true hfs) (s.endRate dt di false hfs)
        (!s.audTimed st true || !s.audTimed dt false) = true → pf ws 4 0 2 ≠ 3 →
      s.sidPick (pf ws 0 0 7) = some sid → s.claimed st si nch true = false → s.claimed dt di nch false = false →
      (if amode = 0 then asf = 0x3F else s.asrcPick (pf ws 3 16 6) nch = some asf) → s.pendFor? [.stream sid] = none →
      (∀ d ∈ endDomain st si nch true ++ endDomain dt di nch false ++ (if amode = 0 then [] else [dmAsrc]), DomUp s d) →
      Answers (.streamOpen p) cardStreamOpen p s 0 0 [w32 (asf * 2 ^ 24 + sid)] fun t =>
        t.rd (F.DSP_STR_STAT_STATE sid) = stmWait ∧ t.reg (Reg.DSP_STR_CNT sid) = 0 ∧ t.rd64 (Reg.DSP_STR_IDX_LO sid) = 0 ∧
        t.rd64 (Reg.DSP_STR_GOOD_LO sid) = 2 ^ 64 - 1 ∧ t.rd (F.DSP_STR_CFG_STYPE sid) = st ∧ t.rd (F.DSP_STR_CFG_SIDX sid) = si ∧
        t.rd (F.DSP_STR_CFG_DTYPE sid) = dt ∧ t.rd (F.DSP_STR_CFG_DIDX sid) = di ∧ t.strCh sid = nch ∧
        t.rd (F.DSP_STR_FMT_AMODE sid) = amode ∧ t.strs = s.strs ++ [newStreamX sid (pf ws 4 0 2) (pf ws 4 8 7) (pf ws 5 0 16) nch] ∧
        t.pap.cfggen = s.pap.cfggen + 1 ∧ Touches ((List.range 8).map fun k => Reg.DSP_STR_CFG sid + 4 * k) s t ∧
        { s.over t with strs := s.strs } = s) ∧
  (∀ (p : Packet) (s : State) (sid : Fin 128) (x : StreamX), s.strX? sid.val = some x →
      let others := s.strs.filter fun y => y.sid ≠ sid.val
      let ended := fun (st cause : Nat) (t : State) => t.rd (F.DSP_STR_STAT_STATE sid.val) = st ∧
        (s.rd (F.DSP_STR_STAT_STATE sid.val) ≠ st → t.rd (F.DSP_STR_STAT_CAUSE sid.val) = cause) ∧ t.strs = others ∧
        t.tad = (if s.isHandover sid.val = true ∧ others.any (fun y => s.isHandover y.sid) = false ∧ s.rd F.IN_TAD_STAT_GATE = 1
          then { s.tad with timer := some s.now } else s.tad) ∧
        Touches [Reg.DSP_STR_STAT sid.val] s t ∧ { s.over t with strs := s.strs, tad := s.tad } = s
      (Accepted cardStreamClose p s → p.force = false → pf p.payload 0 0 7 = sid.val → s.pendFor? [.stream sid.val] = none →
        s.destStopped sid.val = false → Answers (.streamClose p) cardStreamClose p s 0 0 [] (ended stmClosed 0x09)) ∧
      (Accepted cardStreamClose p s → p.force = false → pf p.payload 0 0 7 = sid.val → Free s [.stream sid.val] →
        s.destStopped sid.val = true → Awaits (.streamClose p) cardStreamClose p s [] [.stream sid.val] fun t =>
          t.strX? sid.val = some { x with closing := true } ∧ Touches [] s t ∧ { s.over t with strs := s.strs } = s) ∧
      (Accepted cardStreamClose { p with force := true } s → pf p.payload 0 0 7 = sid.val →
        Answers (.streamCloseForce p) cardStreamClose { p with force := true } s 0 0 [] fun t =>
          ended stmAborted 0x08 t ∧ Ended (s.workFor? (.stream sid.val) 0x101) stsOk s t) ∧
      (x.closing = true → ∃ t, exec (.streamCloseDone sid) s = .next t ∧ ended stmClosed 0x09 t ∧
        Ended (s.workFor? (.stream sid.val) 0x101) stsOk s t ∧
        (s.pap.run = .running → t.pap.cfggen = s.pap.cfggen + (if ((s.workFor? (.stream sid.val) 0x101).any (·.cfg)) then 1 else 0))))

/-- STREAM_STATUS answers the eight context words and, where asked, clears the sticky bits and the counters (R222); ASRC_CFG takes the
ratio, the hold and the bandwidth of a converting stream, and a FIXED one whose ratio moves beyond 1 000 ppm loses its lock (R256, R259);
ASRC_LOCK and ASRC_UNLOCK move LOCK, a loss setting UNLOCK, and HOLDLOST keeps the ratio that was tracked (R253 to R257). -/
def Obligations.StreamStatusAndConverters : Prop :=
  ∀ (p : Packet) (s : State) (sid : Fin 128) (x : StreamX),
    (Accepted cardStreamStatus p s → pf p.payload 0 0 7 = sid.val → sid.val ≠ 0 → s.pendFor? [.stream sid.val] = none →
      Answers (.streamStatus p) cardStreamStatus p s 0 0 ((List.range 8).map fun k => s.reg (Reg.DSP_STR_CFG sid.val + 4 * k)) fun t =>
        (pb p.payload 0 31 = false → PapolBut papolReg (papolByte s) s t) ∧
        (pb p.payload 0 31 = true → t.reg (Reg.DSP_STR_STAT sid.val) = s.reg (Reg.DSP_STR_STAT sid.val) &&& 0xFFFFFF00 ∧
          t.reg (Reg.DSP_STR_CNT sid.val) = 0 ∧ Touches [Reg.DSP_STR_STAT sid.val, Reg.DSP_STR_CNT sid.val] s t ∧ s.over t = s)) ∧
    (s.strX? sid.val = some x →
      (Accepted cardAsrcCfg p s → pf p.payload 0 0 7 = sid.val → s.rd (F.DSP_STR_FMT_AMODE sid.val) ≠ 0 →
        (pw p.payload 1 = 0 ∨ (s.rd (F.DSP_STR_FMT_AMODE sid.val) ≠ 2 ∧ 0x02AAAAAB ≤ (pw p.payload 1).toNat ∧
          (pw p.payload 1).toNat ≤ 0x40000000)) → pf p.payload 2 0 2 ≠ 3 → s.pendFor? [.stream sid.val] = none →
        let y := { x with ratio := pw p.payload 1, holdLost := pb p.payload 2 8, bw := pf p.payload 2 0 2 }
        Answers (.asrcCfg p) cardAsrcCfg p s 0 0 [] fun t => t.strX? sid.val = some y ∧ { s.over t with strs := s.strs } = s ∧
          (if s.rd (F.DSP_STR_FMT_AMODE sid.val) = 1 ∧ nearRatio (s.ratioInForce x) (s.ratioInForce y) = false then
            t.rd (F.DSP_STR_STAT_LOCK sid.val) = 0 ∧
              (s.on (F.DSP_STR_STAT_LOCK sid.val) = true → t.rd (F.DSP_STR_STAT_UNLOCK sid.val) = 1) ∧ Touches [Reg.DSP_STR_STAT sid.val] s t
          else Touches [] s t)) ∧
      (∀ (ratio : Word) (early : Bool), s.rd (F.DSP_STR_FMT_AMODE sid.val) = 1 ∨ (s.rd (F.DSP_STR_FMT_AMODE sid.val) = 2 ∧
          0x02AAAAAB ≤ ratio.toNat ∧ ratio.toNat ≤ 0x40000000 ∧
          (early = true → x.holdLost = true ∧ ∃ r, x.tracked = some r ∧ closeRatio ratio.toNat r = true)) →
        ∃ t, exec (.asrcLock ⟨sid, ratio, early⟩) s = .next t ∧ t.rd (F.DSP_STR_STAT_LOCK sid.val) = 1 ∧
          t.rd (F.DSP_STR_STAT_UNLOCK sid.val) = s.rd (F.DSP_STR_STAT_UNLOCK sid.val) ∧ Touches [Reg.DSP_STR_STAT sid.val] s t ∧
          t.strX? sid.val = some (if s.rd (F.DSP_STR_FMT_AMODE sid.val) = 1 then x else { x with tracked := some ratio.toNat }) ∧
          { s.over t with strs := s.strs } = s) ∧
      (∀ why : UnlockWhy, s.rd (F.DSP_STR_FMT_AMODE sid.val) = 2 → ∃ t, exec (.asrcUnlock ⟨sid, why⟩) s = .next t ∧
        t.rd (F.DSP_STR_STAT_LOCK sid.val) = 0 ∧ (s.on (F.DSP_STR_STAT_LOCK sid.val) = true → t.rd (F.DSP_STR_STAT_UNLOCK sid.val) = 1) ∧
        t.strX? sid.val = some { x with tracked := if x.holdLost = true ∧ why = .stalled then x.tracked else none } ∧
        Touches [Reg.DSP_STR_STAT sid.val] s t ∧ { s.over t with strs := s.strs } = s))

/-- STREAM_FRAME of a running stream between a locked TDM port and the leap channels or rings of the device: here from a port in sync to a
host ring with space (R208 to R212), unconverted. The ring takes one word per channel, the first DATAW bits of its slot at the top (R227), IDX advances by one, GOOD follows where every
sample is valid, OVR stays; a frame that does not fit is discarded whole, and OVR sets. -/
def Obligations.StreamFrameMovesOneFrame : Prop :=
  ∀ (s : State) (sid : Fin 128) (x : StreamX) (f : FrameIn) (port ring : Nat), s.strX? sid.val = some x → port ≤ 1 →
    s.rd (F.DSP_STR_CFG_STYPE sid.val) = port + 1 → s.rd (F.DSP_STR_CFG_DTYPE sid.val) = 6 → s.rd (F.DSP_STR_CFG_DIDX sid.val) = ring →
    4 ≤ ring → ring ≤ 15 → s.rd (F.DSP_STR_FMT_AMODE sid.val) = 0 → s.rd (F.DSP_STR_STAT_STATE sid.val) = stmRun →
    s.portSync port = true → (vat s.tdm port).redo = false → 2 ≤ (vat s.tdm port).clean → x.tail = 0 →
    f.samples.length = s.strCh sid.val → s.rd (F.DSP_STR_FMT_WIDTH sid.val) = 0 →
    let k := s.strCh sid.val
    let low := 32 - dataBits (bits (vat s.tdm port).useFmt 18 2)
    let idx := s.rd64 (Reg.DSP_STR_IDX_LO sid.val)
    ∃ t, exec (.streamFrame sid f) s = .next t ∧ t.rd64 (Reg.DSP_STR_IDX_LO sid.val) = (idx + 1) % 2 ^ 64 ∧
      (s.ringSpace ring k = true → t.didx ring = (s.didx ring + k) % 2 ^ 17 ∧
        t.ringWords ring (s.didx ring) k = f.samples.map (fun (a : Sample) => (a.val >>> low) <<< low) ∧ t.rd64 (Reg.DSP_STR_GOOD_LO sid.val) = idx ∧
        t.rd (F.DSP_STR_STAT_STATE sid.val) = stmRun ∧
        SameBytesBut (fun a => ∃ j, s.ringAddr ring j ≤ a ∧ a < s.ringAddr ring j + 4) s t) ∧
      (s.ringSpace ring k = false → t.didx ring = s.didx ring ∧ t.rd (F.DSP_STR_STAT_OVR sid.val) = 1 ∧
        t.rd64 (Reg.DSP_STR_GOOD_LO sid.val) = s.rd64 (Reg.DSP_STR_GOOD_LO sid.val) ∧
        t.rd (F.DSP_STR_STAT_STATE sid.val) = stmFill ∧ SameBytesBut (papolByte s) s t) ∧
      SameRegsBut (fun a => papolReg a ∨ a = Reg.DSP_RING_DIDX ring ∨ ∃ j, j < 8 ∧ a = Reg.DSP_STR_CFG sid.val + 4 * j) s t

/-- TDM ports: PORT_CFG writes FMT, CLK with its divider and BUS of a disabled port, PORT_ENABLE enables it and waits, PORT_FRAME_FOUND
completes the enable, and a disable takes effect at once while no stream uses the port (R229, R236, R239, R240, R241). What a TDM port
sees of its frames: the fourth correct frame in a row sets SYNC, a wrong one counts in FERRCNT and in every stream of the port, a loss and a
wrong rate clear SYNC, and a direct write takes effect at an FSYNC edge, with every frame from there to the one that finds SYNC in error
(R231 to R235). -/
def Obligations.TdmPortsAreEnabledAndFindSync : Prop :=
  (∀ (p : Packet) (s : State) (port : Fin 2), pf p.payload 0 0 4 = port.val → s.link.cfgpar = [] → DomUp s (dmTdm port.val) →
      let n := port.val
      (Accepted cardPortCfg p s → fmtOk (pw p.payload 1) = true → s.clkOk (pw p.payload 1) (pw p.payload 2) = true →
        busOk n (pw p.payload 3) = true →
        (s.writePort n (pw p.payload 1) (pw p.payload 2) (pw p.payload 3)).streamsFit n = true → (vat s.tdm n).en = false → s.pendFor? [.port n] = none →
        Answers (.portCfg p) cardPortCfg p s 0 0 [] fun t =>
          t.reg (Reg.IN_TDM_FMT n) = pw p.payload 1 &&& 0xDF3FE000 ∧
          t.reg (Reg.IN_TDM_CLK n) = (pw p.payload 2 &&& 0x8F000000) ||| w32 (s.bdiv (pw p.payload 1) (pw p.payload 2) % 4096) ∧
          t.reg (Reg.IN_TDM_BUS n) = (if n = 1 then pw p.payload 3 &&& 0x00030001 else pw p.payload 3 &&& 0x00020001) ∧
          t.pap.cfggen = s.pap.cfggen + 1 ∧ Touches [Reg.IN_TDM_FMT n, Reg.IN_TDM_CLK n, Reg.IN_TDM_BUS n] s t ∧
          { s.over t with tdm := s.tdm, link := s.link } = s) ∧
      (Accepted cardPortEnable p s → pb p.payload 0 8 = true → (vat s.tdm n).en = false → Free s [.port n] →
        Awaits (.portEnable p) cardPortEnable p s [] [.port n] fun t =>
          (vat t.tdm n).en = true ∧ t.rd (F.IN_TDM_STAT_SYNC n) = 0 ∧ t.rd (F.IN_TDM_STAT_FSMEAS n) = 0xF ∧
          t.rd ⟨Reg.PWR_GECKO, 1 + n, 1⟩ = 0 ∧ Touches [Reg.IN_TDM_STAT n, Reg.PWR_GECKO] s t ∧ { s.over t with tdm := s.tdm } = s) ∧
      (Accepted cardPortEnable p s → pb p.payload 0 8 = true → (vat s.tdm n).en = true → Free s [.port n] →
        Awaits (.portEnable p) cardPortEnable p s [] [.port n] fun t => Touches [] s t ∧ s.over t = s) ∧
      (Accepted cardPortEnable p s → pb p.payload 0 8 = false → s.portSid? n = none →
        Answers (.portEnable p) cardPortEnable p s 0 0 [] fun t => Ended (s.workFor? (.port n) 0x111) stsOk s t ∧
          (vat t.tdm n).en = false ∧ t.rd (F.IN_TDM_STAT_SYNC n) = 0 ∧ Touches [Reg.IN_TDM_STAT n] s t ∧ { s.over t with tdm := s.tdm } = s) ∧
      ((vat s.tdm n).en = true →
        ∃ t, exec (.portFrameFound ⟨n, by omega⟩) s = .next t ∧ Ended (s.workFor? (.port n) 0x111) stsOk s t ∧
          (s.on (F.IN_TDM_CLK_MASTER n) = true → (vat s.tdm n).clock = false → t.rd (F.IN_TDM_STAT_SYNC n) = 1 ∧ t.rd (F.IN_TDM_STAT_FSMEAS n) = s.rd (F.IN_TDM_CLK_FS n)) ∧
          Touches [Reg.IN_TDM_STAT n] s t ∧ { s.over t with tdm := s.tdm } = s)) ∧
  (∀ (s : State) (port : Fin 2) (bclks rate : Nat), (vat s.tdm port.val).en = true →
      let n := port.val
      let x := vat s.tdm n
      let same := x.useFmt = s.reg (Reg.IN_TDM_FMT n) ∧ x.useClk &&& 0x8F000000 = s.reg (Reg.IN_TDM_CLK n) &&& 0x8F000000
      let rest := fun (t : State) => { t with regs := s.regs, tdm := s.tdm } = s
      let erred := fun (t : State) =>
        t.rd (F.IN_TDM_STAT_FERRCNT n) = min (s.rd (F.IN_TDM_STAT_FERRCNT n) + 1) (2 ^ (F.IN_TDM_STAT_FERRCNT n).width - 1) ∧
        (∀ y ∈ s.strs, s.usesPort y.sid n = true → t.rd (F.DSP_STR_STAT_FRAMEERR y.sid) = 1) ∧
        SameRegsBut (fun a => a = Reg.IN_TDM_STAT n ∨ ∃ y ∈ s.strs, s.usesPort y.sid n = true ∧ a = Reg.DSP_STR_STAT y.sid) s t ∧ rest t
      (bclks = fmtSlots x.useFmt * fmtSlotW x.useFmt → same → x.redo = false →
        ∃ t, exec (.tdmFrame port bclks rate) s = .next t ∧
          (vat t.tdm n).good = (if rateFits x.useClk rate = true then x.good + 1 else 0) ∧ (vat t.tdm n).clean = x.clean + 1 ∧
          t.rd (F.IN_TDM_STAT_SYNC n) = (if rateFits x.useClk rate = true ∧ 3 ≤ x.good then 1 else s.rd (F.IN_TDM_STAT_SYNC n)) ∧
          t.rd (F.IN_TDM_STAT_FSMEAS n) = rateCode rate 10 ∧ SameRegsBut (fun a => a = Reg.IN_TDM_STAT n) s t ∧ rest t) ∧
      (bclks = fmtSlots x.useFmt * fmtSlotW x.useFmt → same → rateFits x.useClk rate = true → x.redo = true → (∀ y ∈ s.strs, y.sid < 128) →
        ∃ t, exec (.tdmFrame port bclks rate) s = .next t ∧ (vat t.tdm n).good = x.good + 1 ∧
          (3 ≤ x.good → t.rd (F.IN_TDM_STAT_SYNC n) = 1 ∧ (vat t.tdm n).redo = false ∧ SameRegsBut (fun a => a = Reg.IN_TDM_STAT n) s t ∧ rest t) ∧
          (x.good < 3 → (vat t.tdm n).redo = true ∧ erred t)) ∧
      (bclks ≠ fmtSlots x.useFmt * fmtSlotW x.useFmt ∨ ¬ same → (∀ y ∈ s.strs, y.sid < 128) →
        ∃ t, exec (.tdmFrame port bclks rate) s = .next t ∧ (vat t.tdm n).good = 0 ∧ (vat t.tdm n).clean = 0 ∧ erred t) ∧
      (s.on (F.IN_TDM_CLK_MASTER n) = false →
        (∃ t, exec (.tdmLost port) s = .next t ∧ t.rd (F.IN_TDM_STAT_SYNC n) = 0 ∧ t.rd (F.IN_TDM_STAT_LOST n) = 1 ∧
          (vat t.tdm n).good = 0 ∧ SameRegsBut (fun a => a = Reg.IN_TDM_STAT n) s t ∧ rest t) ∧
        (rateFits x.useClk rate = false → ∃ t, exec (.rateerr port rate) s = .next t ∧ t.rd (F.IN_TDM_STAT_SYNC n) = 0 ∧
          t.rd (F.IN_TDM_STAT_RATEERR n) = 1 ∧ t.rd (F.IN_TDM_STAT_FSMEAS n) = rateCode rate 10 ∧
          SameRegsBut (fun a => a = Reg.IN_TDM_STAT n) s t ∧ rest t)) ∧
      (¬ same → ∃ t, exec (.tdmFmtApply port) s = .next t ∧ t.rd (F.IN_TDM_STAT_SYNC n) = 0 ∧
        (vat t.tdm n).useFmt = s.reg (Reg.IN_TDM_FMT n) ∧ (vat t.tdm n).useClk = s.reg (Reg.IN_TDM_CLK n) ∧ (vat t.tdm n).good = 0 ∧
        (vat t.tdm n).redo = true ∧
        t.rd (F.IN_TDM_CLK_BDIV n) = s.bdiv (s.reg (Reg.IN_TDM_FMT n)) (s.reg (Reg.IN_TDM_CLK n)) % 2 ^ (F.IN_TDM_CLK_BDIV n).width ∧
        SameRegsBut (fun a => a = Reg.IN_TDM_STAT n ∨ a = Reg.IN_TDM_CLK n) s t ∧ rest t))

/-- S/PDIF: the settings commands take effect at once on a port that is off and wait for a block boundary otherwise (R251), the
channel-status blocks are read, written and sent (R247, R249), the receiver locks and loses lock (R242, R243) and stores clean blocks (R247);
PORT_ENABLE of either port enables it, its settings in force (R240, R251). -/
def Obligations.SpdifCommandsAndEvents : Prop :=
  ∀ (p : Packet) (s : State) (rate : Nat) (frames : List (Subframe × Subframe)),
    let rest := fun (t : State) => Touches [] s t ∧ { s.over t with spdif := s.spdif } = s
    (Accepted cardPortEnable p s → pb p.payload 0 8 = true → s.link.cfgpar = [] →
      (pf p.payload 0 0 4 = 2 → s.spdif.rxEn = false → Free s [.port 2] → DomUp s dmSpdRx →
        Awaits (.portEnable p) cardPortEnable p s [] [.port 2] fun t => t.spdif.rxEn = true ∧ t.spdif.rx = s.spdif.rxNext.getD s.spdif.rx ∧
          t.rd F.IN_SPDRX_STAT_LOCK = 0 ∧ t.rd F.IN_SPDRX_STAT_FSMEAS = 0xF ∧ Touches [Reg.IN_SPDRX_STAT] s t ∧
          { s.over t with spdif := s.spdif } = s) ∧
      (pf p.payload 0 0 4 = 3 → s.spdif.txEn = false → Free s [.port 3] → DomUp s dmSpdTx →
        Awaits (.portEnable p) cardPortEnable p s [] [.port 3] fun t => t.spdif.txEn = true ∧ t.spdif.tx = s.spdif.txNext.getD s.spdif.tx ∧
          t.rd ⟨Reg.PWR_GECKO, 3, 1⟩ = 0 ∧ Touches [Reg.PWR_GECKO] s t ∧ { s.over t with spdif := s.spdif } = s)) ∧
    (Accepted cardSpdifRxCfg p s → (pf p.payload 0 0 4 = 0xF ∨ spdRate (pf p.payload 0 0 4) = true) → s.pendFor? [.port 2] = none →
      DomUp s dmSpdRx → Answers (.spdifRxCfg p) cardSpdifRxCfg p s 0 0 [] fun t => rest t ∧
        (let c : SpdRx := ⟨pb p.payload 0 8, pf p.payload 0 0 4, pf p.payload 1 0 16⟩
          if s.spdif.rxEn then t.spdif.rx = s.spdif.rx ∧ t.spdif.rxNext = some c else t.spdif.rx = c ∧ t.spdif.rxNext = none)) ∧
    (Accepted cardSpdifTxCfg p s → spdRate (pf p.payload 0 0 4) = true → s.inFamily (rateHz (pf p.payload 0 0 4)) = true →
      s.pendFor? [.port 3] = none → DomUp s dmSpdTx → Answers (.spdifTxCfg p) cardSpdifTxCfg p s 0 0 [] fun t => rest t ∧
        (let c : SpdTx := ⟨pb p.payload 0 9, pb p.payload 0 8, pf p.payload 0 0 4, pb p.payload 1 0⟩
          if s.spdif.txEn then t.spdif.tx = s.spdif.tx ∧ t.spdif.txNext = some c else t.spdif.tx = c ∧ t.spdif.txNext = none)) ∧
    (Accepted cardSpdifCsRead p s → Answers (.spdifCsRead p) cardSpdifCsRead p s 0 0
      (if pb p.payload 0 8 then (if pb p.payload 0 0 then s.spdif.txB else s.spdif.txA)
        else (if pb p.payload 0 0 then s.spdif.rxB else s.spdif.rxA)) (PapolBut papolReg (papolByte s) s)) ∧
    (Accepted cardSpdifCsWrite p s → pf p.payload 0 0 2 ≠ 3 → pf p.payload 1 0 2 = 0 → s.pendFor? [.port 3] = none → DomUp s dmSpdTx →
      Answers (.spdifCsWrite p) cardSpdifCsWrite p s 0 0 [] fun t => rest t ∧
        let blk := (List.range 6).map fun i => pw p.payload (i + 1)
        t.spdif.txA = (if pf p.payload 0 0 2 = 2 then s.spdif.txA else blk) ∧
        t.spdif.txB = (if pf p.payload 0 0 2 = 1 then s.spdif.txB else blk)) ∧
    (s.spdif.rxEn = true → spdRate (rateCode rate 5) = true → (s.spdif.rx.expfs = 0xF ∨ s.spdif.rx.expfs = rateCode rate 5) →
      ∃ t, exec (.spdifLock rate) s = .next t ∧ t.rd F.IN_SPDRX_STAT_LOCK = 1 ∧ t.rd F.IN_SPDRX_STAT_FSMEAS = rateCode rate 5 ∧
        SameRegsBut (fun x => x = Reg.IN_SPDRX_STAT) s t ∧ { t with regs := s.regs, spdif := s.spdif } = s) ∧
    (∀ (a b : List Subframe) (va vb : Bool), s.spdif.txEn = true → ∃ t, exec (.spdifCsBlock true a b va vb) s = .next t ∧
      t.spdif.tx = s.spdif.txNext.getD s.spdif.tx ∧ t.spdif.txNext = none ∧
      (t.spdif.tx.autofs = false → t.spdif.sentA = s.spdif.txA ∧ t.spdif.sentB = s.spdif.txB) ∧ { t with spdif := s.spdif } = s) ∧
    (s.on F.IN_SPDRX_STAT_LOCK = true →
      (∃ t, exec .spdifLost s = .next t ∧ t.rd F.IN_SPDRX_STAT_LOCK = 0 ∧ t.rd F.IN_SPDRX_STAT_LOST = 1 ∧
        SameRegsBut (fun x => x = Reg.IN_SPDRX_STAT) s t ∧ { t with regs := s.regs } = s) ∧
      (s.spdif.rxEn = true → s.spdif.rx.csevt = false → (∀ f ∈ frames, f.1.perr = false ∧ f.2.perr = false ∧ syncWords f = false) →
        (frames.getD 1 default).1.status = false → (frames.getD 1 default).2.status = false →
        ∃ t, exec (.spdifCsBlock false (frames.map (·.1)) (frames.map (·.2)) false false) s = .next t ∧ t.spdif.rxA.length = 6 ∧ t.spdif.rxB.length = 6 ∧
          (∀ k, k < 192 → bit (pw t.spdif.rxA (k / 32)) (k % 32) = (frames.getD k default).1.status ∧
            bit (pw t.spdif.rxB (k / 32)) (k % 32) = (frames.getD k default).2.status) ∧
          (s.spdif.rxA ≠ t.spdif.rxA ∨ s.spdif.rxB ≠ t.spdif.rxB → t.rd F.IN_SPDRX_STAT_CSCHG = 1) ∧
          t.spdif.rx = s.spdif.rxNext.getD s.spdif.rx ∧ t.spdif.rxNext = none ∧
          SameRegsBut (fun x => x = Reg.IN_SPDRX_STAT) s t ∧ { t with regs := s.regs, spdif := s.spdif } = s))

/-! ## Engines, graph and leap buffer (spec/06_engines_leap.md) -/

/-- GRAPH_LOAD of an image that passes every check of R271 places its logical engines on the lowest-numbered healthy engines and waits
(R272, R310); GRAPH_LOAD_DONE makes it the loaded graph. GRAPH_MOLT of such an image on a running graph stages it (R305, R306), and the
next tick swaps it in (R307). -/
def Obligations.GraphImagesAreLoadedAndMolted : Prop :=
  ∀ (p : Packet) (s : State),
    let ofs := pf p.payload 0 2 19 * 4
    let len := pf p.payload 1 0 21
    let nra := pf p.payload 2 0 16
    let img := s.words (0x800000 + ofs) (len / 4)
    let g := parseGraph ofs len img
    let hs := indices 8 s.healthy
    let res := s.rd F.DSP_SPARE_RESERVE
    let sound := s.spanOn ofs len = true ∧ s.poisonIn ofs len = [] ∧ len % 4 = 0 ∧ s.modelSigned img = true ∧
      s.graphRoll ≤ (g.word 3).toNat ∧ g.ok = true ∧ s.fgcOk g = true ∧ g.count + res ≤ hs.length ∧ Free s [.graph] ∧
      (∀ n ∈ hs.take g.count, DomUp s (dmEngine n)) ∧ (∀ a, papolByte s a → ¬ (0x800000 + ofs ≤ a ∧ a < 0x800000 + ofs + len))
    (Accepted cardGraphLoad p s → sound → s.graph.image = none → (nra = 0 ∨ nraOk g.fgc nra = true) → s.ringsClaimed g none = false →
      s.leapsClaimed g none = false → g.minimum (res ≠ 0) 1 ≤ (if nra = 0 then g.nra else nra) →
      Awaits (.graphLoad p) cardGraphLoad p s
        (loadWords g (if nra = 0 then g.nra else nra) (g.minimum (res ≠ 0) 1) hs (min res (hs.length - g.count))) [.graph] fun t =>
        t.graph.loading = some g ∧ t.graph.nra = (if nra = 0 then g.nra else nra) ∧
        t.graph.les = (List.range g.count).map (fun l => freshLe (hs.getD l 0xF)) ∧ SameBytesBut (papolByte s) s t ∧
        t.engMem = s.engMem ∧ t.leap = s.leap) ∧
    (∀ g, s.graph.loading = some g → (∀ q ∈ g.rings, 16 ≤ q.ring ∧ q.ring < 32) → ∃ t, exec .graphLoadDone s = .next t ∧
      t.graph.image = some g ∧ t.graph.loading = none ∧ t.gstate = gsLoaded ∧ t.reg Reg.DSP_GRAPH_ID = g.word 2 ∧
      SameBytesBut (papolByte s) s t ∧ Ended (s.workFor? .graph 0x200) stsOk s t) ∧
    (∀ old, Accepted cardGraphMolt p s → sound → s.graph.image = some old → s.gstate = gsRunning → s.graph.recs = [] →
      (∀ e ∈ s.graph.les, e.behind = false) → nra = 0 → g.rate = old.rate → g.bc = old.bc → g.nra = s.graph.nra → g.leapMap = old.leapMap → s.ringsClaimed g (some old) = false →
      g.minimum (res ≠ 0) g.stages ≤ g.nra →
      Awaits (.graphMolt p) cardGraphMolt p s (loadWords g g.nra (g.minimum (res ≠ 0) g.stages) hs (min res (hs.length - g.count)))
        [.graph] fun t => t.gstate = gsStaged ∧ t.graph.molt = some g ∧ t.graph.image = some old ∧ Touches [Reg.DSP_GRAPH_STAT] s t ∧
          { s.over t with graph := s.graph } = s) ∧
    (∀ old m, s.graph.image = some old → s.graph.molt = some m → s.gstate = gsStaged → ∃ t, exec .graphMoltSwap s = .next t ∧
      t.graph.image = some m ∧ t.graph.molt = none ∧ t.gstate = gsRunning ∧ t.reg Reg.DSP_GRAPH_ID = m.word 2 ∧
      t.graph.nra = s.graph.nra ∧ t.graph.tick = some (match s.graph.tick with | some p => p + 1 | none => 0))

/-- A loaded graph is armed by GRAPH_START, at once in IDLE and with a countdown in PLAY (R311); GRAPH_STOP stops a running graph and unloads
a loaded one, and GRAPH_STOP_DONE leaves it as the stop was to leave it (R312). -/
def Obligations.GraphStartsAndStops : Prop :=
  ∀ (p : Packet) (s : State) (g : GImage), s.graph.image = some g →
    let graphOnly := fun (t : State) => Touches [Reg.DSP_GRAPH_STAT] s t ∧ { s.over t with graph := s.graph } = s
    (Accepted cardGraphStart p s → s.graph.dead = false → s.gstate = gsLoaded →
      (s.pstate = stIdle → s.pendFor? [.graph] = none → Answers (.graphStart p) cardGraphStart p s 0 0 [] fun t =>
        t.gstate = gsArmed ∧ t.graph.countdown = none ∧ graphOnly t) ∧
      (s.pstate = stPlay → Free s [.graph] → Awaits (.graphStart p) cardGraphStart p s [] [.graph] fun t =>
        t.gstate = gsArmed ∧ t.graph.countdown = some (pf p.payload 0 0 8) ∧ graphOnly t)) ∧
    (Accepted (cardGraphStop (pb p.payload 0 0)) p s →
      (s.graphRuns = true → Free s [.graph] → Awaits (.graphStop p) (cardGraphStop (pb p.payload 0 0)) p s [] [.graph] fun t =>
        t.gstate = gsStopping ∧ t.graph.tick = none ∧ t.graph.recs = [] ∧ t.graph.unload = pb p.payload 0 0 ∧ t.graph.image = some g) ∧
      (s.gstate = gsLoaded → s.pendFor? [.graph] = none → Answers (.graphStop p) (cardGraphStop (pb p.payload 0 0)) p s 0 0 [] fun t =>
        (pb p.payload 0 0 = true → t.graph.image = none ∧ t.gstate = gsNone ∧ t.graph.les = [] ∧ t.reg Reg.DSP_GRAPH_ID = 0) ∧
        (pb p.payload 0 0 = false → t.graph.image = some g ∧ t.gstate = gsLoaded ∧ graphOnly t))) ∧
    (s.gstate = gsStopping → s.playedOut g = true → ∃ t, exec .graphStopDone s = .next t ∧ Ended (s.workFor? .graph 0x202) stsOk s t ∧
      (s.graph.unload = true → t.graph.image = none ∧ t.gstate = gsNone ∧ t.graph.flow = false) ∧
      (s.graph.unload = false → t.graph.image = some g ∧ t.graph.flow = s.graph.flow ∧
        t.gstate = if s.graph.rearm then gsArmed else gsLoaded))

/-- GRAPH_PARAM is kept for its tick (R284, R313), SPARE_RESERVE takes the larger of the count and the fused floor (R304, R314),
ENGINE_STATUS answers the engine's registers and clears what reads clear (R315). -/
def Obligations.GraphParametersSparesAndStatus : Prop :=
  ∀ (p : Packet) (s : State),
    (∀ g r, Accepted cardGraphParam p s → s.graph.image = some g →
      g.regions.find? (fun r => r.id = pf p.payload 0 16 16 && r.cls = 1) = some r → 1 ≤ pf p.payload 1 0 7 → pf p.payload 1 0 7 ≤ 64 →
      p.payload.length = pf p.payload 1 0 7 + 2 → pf p.payload 0 0 16 + pf p.payload 1 0 7 ≤ r.len →
      Answers (.graphParam p) cardGraphParam p s 0 0 [] fun t =>
        (∃ k, t.graph.params = s.graph.params ++ [⟨k, pf p.payload 0 16 16, pf p.payload 0 0 16, p.payload.drop 2, none⟩] ∧
          s.graph.pseq < k ∧ ∀ w ∈ s.graph.params, w.seq < k) ∧
        t.pap.cfggen = s.pap.cfggen + 1 ∧ Touches [] s t ∧ { s.over t with graph := s.graph } = s) ∧
    (Accepted cardSpareReserve p s → pf p.payload 0 0 3 ≤ 4 → s.rd F.DSP_SPARE_FLOOR ≤ 4 → s.graph.image = none →
      max (pf p.payload 0 0 3) (s.rd F.DSP_SPARE_FLOOR) ≤ s.unplaced →
      let use := max (pf p.payload 0 0 3) (s.rd F.DSP_SPARE_FLOOR)
      Answers (.spareReserve p) cardSpareReserve p s (if use = pf p.payload 0 0 3 then stsOk else stsClamped)
        (if use = pf p.payload 0 0 3 then 0 else 1) [] fun t =>
        t.rd F.DSP_SPARE_RESERVE = use ∧ t.rd F.DSP_SPARE_FLOOR = s.rd F.DSP_SPARE_FLOOR ∧ t.graph = s.graph ∧
        Touches ([Reg.DSP_SPARE, Reg.PWR_DOMSTAT] ++ (List.range 8).map Reg.DSP_NE_STAT) s t) ∧
    (Accepted cardEngineStatus p s → let n := pf p.payload 0 0 3
      ∃ ws, ws.take 5 = [s.reg (Reg.DSP_NE_STAT n), s.reg (Reg.DSP_NE_LOAD n), s.reg (Reg.DSP_NE_FCNT n), s.reg (Reg.DSP_NE_BLK_LO n),
          s.reg (Reg.DSP_NE_BLK_HI n)] ∧ ws.length = 12 ∧ Answers (.engineStatus p) cardEngineStatus p s 0 0 ws fun t =>
        (pb p.payload 0 31 = false → PapolBut papolReg (papolByte s) s t) ∧
        (pb p.payload 0 31 = true → t.reg (Reg.DSP_NE_STAT n) = s.reg (Reg.DSP_NE_STAT n) &&& 0xFFFFFF07 ∧
          t.rd (F.DSP_NE_LOAD_PEAK n) = 0 ∧ Touches [Reg.DSP_NE_STAT n, Reg.DSP_NE_LOAD n] s t ∧ s.over t = s))

/-- The block schedule (R273, R276, R282, R289, R311): a tick counts an armed graph down and numbers a running graph's periods, a block end
moves its logical engine to the next block, what its tasks store in a bank lands there and an atomic add also keeps the old value (R266;
spec/07_shared_banks.md, R326), a checkpoint copy is sealed into the slot whose turn it is, or given up where a word is
unreadable, and a read point advances by one sample. -/
def Obligations.BlockScheduleAdvances : Prop :=
  ∀ (s : State) (l : Fin 8) (out : BlockOut) (task : GTask),
    (s.graph.image = none → ∃ t, exec .blockTick s = .next t ∧ t.regs = s.regs ∧ { t with strs := s.strs } = s ∧
      ∀ x ∈ s.strs, x.start = 1 → { x with tick := true } ∈ t.strs) ∧
    (∀ g n, s.graph.image = some g → s.gstate = gsArmed → s.pstate = stPlay → s.graph.dead = false → s.graph.rearm = false →
      s.graph.countdown = some (n + 1) →
      s.graph.params = [] → ∃ t, exec .blockTick s = .next t ∧ t.graph.countdown = some n ∧ t.gstate = gsArmed ∧
        SameRegsBut (fun _ => False) s t ∧ SameBytesBut (fun _ => False) s t) ∧
    (∀ g k, s.graph.image = some g → s.gstate = gsRunning → s.graph.tick = some k →
      (s.setTick (k + 1)).lateOnes g = [] → ∃ t, exec .blockTick s = .next t ∧ t.graph.tick = some (k + 1) ∧
        t.graph.image = some g ∧ t.gstate = gsRunning ∧ t.rd64 Reg.DSP_GRAPH_BLK_LO = (k + 2) % 2 ^ 64) ∧
    (∀ g, s.graph.image = some g → (s.le l.val).busy = true → (s.le l.val).copy = none → (s.le l.val).host < 8 → l.val < s.graph.les.length →
      s.hostWorks l.val = true → out.ops = [] → ∃ t, exec (.engineBlockEnd l out) s = .next t ∧
        (s.graphRuns = true → (t.le l.val).next = (s.le l.val).next + 1) ∧
        (s.graphRuns = false → (t.le l.val).next = (s.le l.val).next ∧ (t.le l.val).busy = false ∧
          t.rd (F.DSP_NE_LOAD_LAST (s.le l.val).host) = out.units % 2 ^ 16)) ∧
    (∀ g y (k : Nat) (w : Word) (r : Fin 32), s.graph.image = some g → s.graphRuns = false → (s.le l.val).busy = true →
      (s.le l.val).copy = none → (s.le l.val).host < 8 → s.hostWorks l.val = true → g.task? y = some { task with num := y } →
      s.runner { task with num := y } = l.val → s.isShed y = false → k < 2 ^ 19 → s.bankOn (4 * k / 0x20000) = true →
      s.poison.contains (0x800000 + 4 * k) = false →
      let a := 0x10000000 + 4 * k
      (out.ops = [(y, .store a w)] → ∃ t, exec (.engineBlockEnd l out) s = .next t ∧ t.word (0x800000 + 4 * k) = w ∧
        SameBytesBut (fun b => 0x800000 + 4 * k ≤ b ∧ b < 0x800000 + 4 * k + 4) s t) ∧
      (out.ops = [(y, .atomAdd a w r)] → ∃ t, exec (.engineBlockEnd l out) s = .next t ∧
        t.word (0x800000 + 4 * k) = s.word (0x800000 + 4 * k) + w ∧
        (vat t.eng (s.le l.val).host).core = out.core.set r.val (s.word (0x800000 + 4 * k)))) ∧
    (∀ g c, s.graph.image = some g → (s.le l.val).copy = some c → l.val < s.graph.les.length →
      let ws := c.words (s.le l.val).nextB l.val (g.word 2)
      (∃ t, exec (.checkpointSeal l false) s = .next t ∧ (t.le l.val).copy = none ∧ (t.le l.val).copyBad = none ∧
        (t.le l.val).slotA = (if (s.le l.val).nextB then (s.le l.val).slotA else ws) ∧
        (t.le l.val).slotB = (if (s.le l.val).nextB then ws else (s.le l.val).slotB) ∧
        (t.le l.val).nextB = !(s.le l.val).nextB ∧ { t with graph := s.graph } = s) ∧
      (∃ t, exec (.checkpointSeal l true) s = .next t ∧ (t.le l.val).copy = none ∧ (t.le l.val).copyBad = some c.blk ∧
        (t.le l.val).slotA = (s.le l.val).slotA ∧ (t.le l.val).slotB = (s.le l.val).slotB ∧ { t with graph := s.graph } = s)) ∧
    (∀ (pvdd : Nat × Nat × Nat) (limitL limitR : Bool) (k : Fin 32), s.linkAlive = true → s.graph.flow = true → s.on (F.DSP_LEAP_STAT_BOUND k.val) = true →
      ∃ t, exec (.leapRead pvdd limitL limitR) s = .next t ∧ (vat t.leap k.val).read = (vat s.leap k.val).read + 1 ∧
        (vat t.leap k.val).filled = (vat s.leap k.val).empty ∧ t.graph = s.graph ∧ SameBytesBut (papolByte s) s t)

/-- An engine fault outside a graph (R280, R296, R309, R803): LOCKSTEP, ENGECC and an injected fault count and put the engine into its
self-test, ENGPROG is recorded alone; the self-test returns it or retires it; a logical engine whose load is done goes on. -/
def Obligations.EngineFaultsAndSelfTests : Prop :=
  ∀ (s : State) (n l : Fin 8) (task : Fin 128) (i : Iface), s.chipSafe = false →
    (s.graph.les = [] → s.engineWorks n.val = true →
      (∃ t, exec (.lockstep n) s = .next t ∧ t.role n.val = roTest ∧ t.on (F.DSP_NE_STAT_LOCKSTEP n.val) = true ∧
        t.rd (F.DSP_NE_FCNT_LSCNT n.val) = min 255 (s.rd (F.DSP_NE_FCNT_LSCNT n.val) + 1) ∧
        (vat t.eng n.val).fails = (vat s.eng n.val).fails + 1) ∧
      (∃ t, exec (.engecc ⟨n, false⟩) s = .next t ∧ t.role n.val = roTest ∧ t.on (F.DSP_NE_STAT_ENGECC n.val) = true ∧
        t.rd (F.DSP_NE_FCNT_UNCCNT n.val) = min 255 (s.rd (F.DSP_NE_FCNT_UNCCNT n.val) + 1)) ∧
      (∃ t, exec (.engprog n task) s = .next t ∧ t.role n.val = s.role n.val ∧ t.on (F.DSP_NE_STAT_ENGPROG n.val) = true ∧
        (vat t.eng n.val).faults = (vat s.eng n.val).faults + 1) ∧
      (s.ifaceReady i = true → s.domReady (dmEngine n.val) = true → s.lockOpen i = true → s.link.cfgpar = [] →
        ∃ t, exec (.inject i n) s = .next t ∧ t.role n.val = roTest ∧ t.on (F.DSP_NE_STAT_LOCKSTEP n.val) = true)) ∧
    (s.role n.val ≠ roTest → s.role n.val ≠ roRetired → s.domOn (dmEngine n.val) = true →
      ∃ t, exec (.engecc ⟨n, true⟩) s = .next t ∧ t.on (F.DSP_NE_STAT_ECCCOR n.val) = true ∧
        t.rd (F.DSP_NE_FCNT_CORCNT n.val) = min (s.rd (F.DSP_NE_FCNT_CORCNT n.val) + 1) (2 ^ (F.DSP_NE_FCNT_CORCNT n.val).width - 1) ∧
        SameRegsBut (fun a => a = Reg.DSP_NE_STAT n.val ∨ a = Reg.DSP_NE_FCNT n.val) s t ∧ { t with regs := s.regs } = s) ∧
    (s.role n.val = roTest →
      (∃ t, exec (.engineSelftestDone n true) s = .next t ∧ t.role n.val = roRetired ∧
        t.rd F.DSP_SPARE_RETIRED = min 15 (s.rd F.DSP_SPARE_RETIRED + 1) ∧
        SameRegsBut (fun a => a = Reg.DSP_NE_STAT n.val ∨ a = Reg.DSP_SPARE) s t ∧ { t with regs := s.regs } = s) ∧
      ((vat s.eng n.val).fails < 3 → s.occupied n.val = false → ∃ t, exec (.engineSelftestDone n false) s = .next t ∧
        (t.role n.val = roFree ∨ t.role n.val = roSpare) ∧ t.rd F.DSP_SPARE_RETIRED = s.rd F.DSP_SPARE_RETIRED)) ∧
    (∀ g, s.graph.image = some g → (s.le l.val).loading = true → l.val < s.graph.les.length → ∃ t, exec (.spareLoadDone l) s = .next t ∧
      (t.le l.val).loading = false ∧ t.graph.image = some g)

/-! ## Shared banks (spec/07_shared_banks.md) -/

/-- What the scrubber reads (R330 to R332, R334) and what follows (R351, R352, R357): a correctable error counts, an uncorrectable one
poisons its word and is recorded, a late pass is flagged; a replaced row is served by the next spare row; a bank that is to be retired and
that nothing uses is retired, its contents lost. -/
def Obligations.BankErrorsSparesAndRetirement : Prop :=
  ∀ (s : State) (b : Fin 16) (row : Fin 512) (col : Fin 64) (k : Fin 39), s.bankOn b.val = true →
    exec (.scrubRead b row col .clean) s = .next s ∧
    (∃ t, exec (.scrubRead b row col .late) s = .next t ∧ t.on (F.DSP_SB_STAT_SCRUBLATE b.val) = true ∧
      SameRegsBut (fun a => a = Reg.DSP_SB_STAT b.val) s t ∧ { t with regs := s.regs } = s) ∧
    (s.borrowed b.val row.val = false →
      ((∀ e ∈ s.banks.corr, ¬ (e.1 = b.val ∧ e.2.1 = row.val)) → ∃ t, exec (.scrubRead b row col (.correctable k)) s = .next t ∧
        t.on (F.DSP_SB_STAT_COR b.val) = true ∧ t.reg (Reg.DSP_SB_LASTERR b.val) = w32 (k.val * 2 ^ 24 + row.val * 2 ^ 6 + col.val) ∧
        t.rd (F.DSP_SB_ECC_CORCNT b.val) = min (s.rd (F.DSP_SB_ECC_CORCNT b.val) + 1) (2 ^ (F.DSP_SB_ECC_CORCNT b.val).width - 1) ∧
        t.banks.corr = s.banks.corr ++ [(b.val, row.val, k.val)] ∧
        SameRegsBut (fun a => a = Reg.DSP_SB_STAT b.val ∨ a = Reg.DSP_SB_ECC b.val ∨ a = Reg.DSP_SB_LASTERR b.val) s t ∧
        { t with regs := s.regs, banks := s.banks } = s) ∧
      (∃ t, exec (.scrubRead b row col .uncorrectable) s = .next t ∧ t.on (F.DSP_SB_STAT_UNC b.val) = true ∧
        bankAddr b.val row.val col.val ∈ t.poison ∧ (∃ r ∈ t.saf.recs, r.code = 0x205 ∧ r.unit = b.val ∧ r.sub = row.val) ∧
        SameBytesBut (papolByte s) s t)) ∧
    (∀ r, s.replOf? b.val = some r → (∀ w ∈ s.saf.work, w.region = rgDsp → w.wait = false) →
      ∃ t, exec (.rowReplaceDone ⟨b, []⟩) s = .next t ∧ t.banks.repls = s.banks.repls.filter (fun q => q ≠ r) ∧
        (r.bank, r.row, s.spareRow r.bank) ∈ t.banks.spares ∧
        t.rd (F.DSP_SB_STAT_SPUSED r.bank) = (t.banks.spares.filter fun e => e.1 = r.bank).length % 2 ^ (F.DSP_SB_STAT_SPUSED r.bank).width ∧
        SameBytesBut (papolByte s) s t) ∧
    (s.on (F.DSP_SB_STAT_RETPEND b.val) = true → b.val ≠ 0 → s.bankUsed b.val = false → ∃ t, exec (.bankRetire b) s = .next t ∧
      t.rd (F.DSP_SB_STAT_PWR b.val) = 3 ∧ t.on (F.DSP_SB_STAT_RETPEND b.val) = false ∧
      (∀ a, bankAddr b.val 0 0 ≤ a → a < bankAddr b.val 0 0 + 0x20000 → ¬ papolByte s a → t.byte a = 0) ∧
      SameBytesBut (fun a => papolByte s a ∨ (bankAddr b.val 0 0 ≤ a ∧ a < bankAddr b.val 0 0 + 0x20000)) s t)

/-- The march test (R343 to R350): MARCH_RUN takes the lowest bank of its map and waits, each row is borrowed and released in turn, the last
row of the last bank ends the test, and ABORT ends it at once. -/
def Obligations.MarchTestBorrowsRowByRow : Prop :=
  ∀ (p : Packet) (s : State),
    let map := pf p.payload 0 0 16
    let b := s.rd F.DSP_SB_MARCH_BANK
    let q : Packet := { p with payload := [pw p.payload 0, putBits (pw p.payload 1) 31 1 1] ++ p.payload.drop 2 }
    (Accepted cardMarchRun p s → pb p.payload 1 31 = false → map ≠ 0 → (∀ k, k < 16 → inMask map k = true → s.bankOn k = true) →
      Free s [.march] → Awaits (.marchRun p) cardMarchRun p s [] [.march] fun t =>
        t.on F.DSP_SB_MARCH_ACTIVE = true ∧ inMask map (t.rd F.DSP_SB_MARCH_BANK) = true ∧
        (∀ k, k < 16 → inMask map k = true → t.rd F.DSP_SB_MARCH_BANK ≤ k) ∧ t.rd F.DSP_SB_MARCH_ROW = 0 ∧
        t.banks.march = map ∧ t.banks.pace = pf p.payload 1 0 8 ∧ Touches [Reg.DSP_SB_MARCH] s t ∧
        { s.over t with banks := s.banks } = s) ∧
    (Accepted cardMarchRun q s → s.on F.DSP_SB_MARCH_ACTIVE = true → (∀ r ∈ s.banks.repls, ¬ (r.bank = b ∧ r.row = s.rd (F.DSP_SB_STAT_BROW b))) →
      Answers (.marchRunAbort p) cardMarchRun q s 0 0 [] fun t => Ended (s.workFor? .march 0x903) stsOk s t ∧
        t.on F.DSP_SB_MARCH_ACTIVE = false ∧ t.on (F.DSP_SB_STAT_BORROW b) = false ∧ t.banks.march = 0 ∧
        Touches [Reg.DSP_SB_MARCH, Reg.DSP_SB_STAT b] s t ∧ { s.over t with banks := s.banks } = s) ∧
    (s.on F.DSP_SB_MARCH_ACTIVE = true → s.bankOn b = true → s.on (F.DSP_SB_STAT_BORROW b) = false →
      (∀ met, ∃ t, exec (.marchRowStart met) s = .next t ∧ t.borrowed b (s.rd F.DSP_SB_MARCH_ROW) = true) ∧
      ∃ t, exec (.marchRowStart []) s = .next t ∧ t.borrowed b (s.rd F.DSP_SB_MARCH_ROW) = true ∧
        SameRegsBut (fun a => a = Reg.DSP_SB_STAT b) s t ∧ { t with regs := s.regs } = s) ∧
    (∀ (c : Fin 64) (k : Fin 64), s.on F.DSP_SB_MARCH_ACTIVE = true → s.on (F.DSP_SB_STAT_BORROW b) = true →
      s.spareLeft b = true → (∀ r ∈ s.banks.repls, ¬ (r.bank = b ∧ r.row = s.rd (F.DSP_SB_STAT_BROW b))) →
      s.rd (F.DSP_SB_STAT_BROW b) ≠ 511 →
      ∃ t, exec (.marchRowRelease (some (c, k))) s = .next t ∧ t.on (F.DSP_SB_STAT_MARCHFAIL b) = true ∧
        t.rd F.DSP_SB_MARCH_FAILS = min (s.rd F.DSP_SB_MARCH_FAILS + 1) (2 ^ F.DSP_SB_MARCH_FAILS.width - 1) ∧
        (b, s.rd (F.DSP_SB_STAT_BROW b), s.spareRow b) ∈ t.banks.spares ∧ SameBytesBut (papolByte s) s t) ∧
    (s.on F.DSP_SB_MARCH_ACTIVE = true → s.on (F.DSP_SB_STAT_BORROW b) = true →
      (∀ r ∈ s.banks.repls, ¬ (r.bank = b ∧ r.row = s.rd (F.DSP_SB_STAT_BROW b))) →
      ∃ t, exec (.marchRowRelease none) s = .next t ∧ t.on (F.DSP_SB_STAT_BORROW b) = false ∧
        (s.rd (F.DSP_SB_STAT_BROW b) ≠ 511 → t.rd F.DSP_SB_MARCH_ROW = s.rd (F.DSP_SB_STAT_BROW b) + 1 ∧
          t.on F.DSP_SB_MARCH_ACTIVE = true ∧ t.banks = s.banks) ∧
        (s.rd (F.DSP_SB_STAT_BROW b) = 511 → s.banks.march = 2 ^ b → t.on F.DSP_SB_MARCH_ACTIVE = false ∧ t.banks.march = 0 ∧
          Ended (s.workFor? .march 0x903) stsOk s t))

/-! ## Speaker channels (spec/08_speaker_channels.md) -/

/-- The phase sequence of a channel (R369 to R371, R805): each phase leads to the next as its time or its tests end, a start or stop in
between deciding where Lock and Mute lead; the other channels keep their phases. -/
def Obligations.ChannelPhasesFollowOneAnother : Prop :=
  ∀ (s : State) (n : Fin 12), Quiet s →
    let k := n.val
    let moved := fun (i : Instr) (ph : Nat) => ∃ t, exec i s = .next t ∧ t.phase k = ph ∧ (∀ m, m < 12 → m ≠ k → t.phase m = s.phase m) ∧
      SameRegsBut spkReg s t ∧ SameBytesBut (papolByte s) s t ∧ { s.over t with spks := s.spks, out := s.out } = s
    (s.phase k = phOff → (s.spk k).start = true → s.on (F.OUT_G_STAT_PVDDOK (k / 4)) = true → s.carrierOn (k / 4) = true →
      s.rd F.SAFE_SM_STAT_CSS ≠ 2 → moved (.spkPendingStart n) phCheck) ∧
    (s.phase k = phCheck → (∀ own slave : ChanTest, s.sclassOf k own slave = 0 → (s.paired k = true → s.rd (F.OUT_G_STAT_PVDD (k / 4)) ≤ 2450) →
      moved (.spkCheckDone n (own, slave)) phCharge) ∧
      (∀ own slave : ChanTest, s.sclassOf k own slave ≠ 0 ∨ (s.paired k = true ∧ 2450 < s.rd (F.OUT_G_STAT_PVDD (k / 4))) →
        s.master k = k → Still s → moved (.spkCheckDone n (own, slave)) phFault)) ∧
    (s.phase k = phCharge → moved (.spkChargeDone n) phLock) ∧
    (s.phase k = phLock → ((s.spk k).on = true → s.unmutes = true → s.muted = false → moved (.spkLockDone n) phUnmute) ∧
      ((s.spk k).on = true → s.muted = true → moved (.spkLockDone n) phHold) ∧
      ((s.spk k).on = false → moved (.spkLockDone n) phDischarge)) ∧
    (s.phase k = phUnmute → moved (.spkUnmuteDone n) phPlay) ∧
    (s.phase k = phMute → ((s.spk k).on = true → s.unmutes = false → moved (.spkMuteDone n) phHold) ∧
      ((s.spk k).on = false → moved (.spkMuteDone n) phDischarge)) ∧
    (s.phase k = phDischarge → s.rd (F.OUT_G_CFG_PAIR (k / 4)) = (s.grp (k / 4)).pairs → moved (.spkDischargeDone n) phOff)

/-- The configuration commands of the power stage write their fields with the fused ceilings (R365, R385, R413, R414, R417): a group whose
BAND and LOOPBW stay, a channel that is Off, the limits of one channel; a change of BAND waits for the loop coefficients. -/
def Obligations.SpeakerConfigurationIsWritten : Prop :=
  ∀ (p : Packet) (s : State) (g : Fin 3) (n : Fin 12), s.link.cfgpar = [] →
    let ws := p.payload
    let band := pf ws 1 7 1
    let bw := pf ws 1 5 2
    let k := n.val
    (Accepted cardSpkGroupCfg p s → pf ws 0 0 2 = g.val → bw ≠ 3 → (pf ws 1 2 3 ≤ 3 ∨ pf ws 1 2 3 = 7) →
      s.fswAtLeast (s.reg Reg.OUT_SW_FREQI).toNat (divTaken (s.rd (F.OUT_SW_OUTA_DIV g.val))) (minFsw band bw) = true →
      125 ≤ pf ws 2 24 8 → pf ws 2 24 8 ≤ s.rd F.OUT_SPK_FUSE_TFBMAX → pf ws 2 20 4 ≤ 5 →
      pf ws 1 10 2 = s.rd (F.OUT_G_CFG_PAIR g.val) → s.rd (F.OUT_G_CFG_PAIR g.val) = (s.grp g.val).pairs → DomUp s (dmGroup g.val) →
      let wrote := fun (t : State) => t.reg (Reg.OUT_G_CFG g.val) = pw ws 1 &&& 0xFF000FFC ∧
        t.rd (F.OUT_G_THERM_TFB g.val) = pf ws 2 24 8 ∧ t.rd (F.OUT_G_THERM_FBRATE g.val) = pf ws 2 20 4 ∧
        Touches [Reg.OUT_G_CFG g.val, Reg.OUT_G_THERM g.val] s t ∧ { s.over t with link := s.link } = s
      (band = s.rd (F.OUT_G_CFG_BAND g.val) → bw = s.rd (F.OUT_G_CFG_LOOPBW g.val) → s.pendFor? [.group g.val] = none →
        Answers (.spkGroupCfg p) cardSpkGroupCfg p s 0 0 [] wrote) ∧
      (band ≠ s.rd (F.OUT_G_CFG_BAND g.val) → (∀ j, j < 4 → s.jointPhase (4 * g.val + j) = phOff) → Free s [.group g.val] →
        Awaits (.spkGroupCfg p) cardSpkGroupCfg p s [] [.group g.val] wrote)) ∧
    (∃ t, exec (.loopCoefficientsReloaded g) s = .next t ∧ Touches [] s t ∧ s.over t = s ∧
      Ended (s.workFor? (.group g.val) 0x300)
        (if ((s.workFor? (.group g.val) 0x300).any fun e => decide (s.rd F.OUT_SPK_FUSE_TFBMAX < pf e.payload 2 24 8)) then stsClamped else stsOk)
        s t) ∧
    (Accepted cardSpkChanCfg p s → pf ws 0 0 4 = k → s.phase k = phOff → pf ws 1 28 4 ≤ 9 → s.pendFor? [.chan k] = none →
      DomUp s (dmGroup (k / 4)) → Answers (.spkChanCfg p) cardSpkChanCfg p s 0 0 [] fun t =>
        t.rd (F.OUT_SPK_CFG_ZNOM k) = pf ws 1 20 8 ∧ t.rd (F.OUT_SPK_CFG_FADE k) = pf ws 3 0 8 ∧
        t.rd (F.OUT_SPK_LIMIT_DCTHR k) = pf ws 2 8 8 ∧ t.rd (F.OUT_SPK_CFG_ILIM k) = s.rd (F.OUT_SPK_CFG_ILIM k) ∧
        Touches [Reg.OUT_SPK_CFG k, Reg.OUT_SPK_LIMIT k] s t ∧ { s.over t with link := s.link } = s) ∧
    (Accepted cardSpkLimit p s → pf ws 0 0 12 = 2 ^ k → 1 ≤ pf ws 1 24 8 → pf ws 1 24 8 ≤ s.rd F.OUT_SPK_FUSE_PCEIL →
      s.rd F.OUT_SPK_FUSE_PCEIL ≤ 200 → 1 ≤ pf ws 1 16 8 → pf ws 1 16 8 ≤ 100 → pf ws 2 0 4 ≤ s.ilimCeil k → s.pendFor? [.chan k] = none →
      DomUp s (dmGroup (k / 4)) → Answers (.spkLimit p) cardSpkLimit p s 0 0 [] fun t =>
        t.rd (F.OUT_SPK_LIMIT_PLIM k) = pf ws 1 24 8 ∧ t.rd (F.OUT_SPK_CFG_ILIM k) = pf ws 2 0 4 ∧
        t.rd (F.OUT_SPK_LIMIT_DCTHR k) = s.rd (F.OUT_SPK_LIMIT_DCTHR k) ∧
        Touches ([Reg.OUT_SPK_CFG k, Reg.OUT_SPK_LIMIT k] ++
          (List.range 4).flatMap fun j => [Reg.OUT_SPK_PROT (4 * (k / 4) + j), Reg.OUT_SPK_STAT (4 * (k / 4) + j)]) s t ∧
        { s.over t with link := s.link } = s)

/-- SPK_ENABLE, SPK_DISABLE and SPK_RETRY on one channel (R415, R416, R418), and the same by a direct write of START or STOP (R373, R805): an
Off channel goes to Check, a playing one to Mute, RETRY permits or forbids the retries of a channel held for a short. MUTE_N (R375,
R376): its fall takes every channel in Unmute or Play to Hold at once, its rise takes every started channel in Hold to Unmute in PLAY; no
other phase moves. -/
def Obligations.ChannelsStartStopRetryAndMute : Prop :=
  (∀ (p : Packet) (s : State) (n : Fin 12) (i : Iface), Quiet s → s.link.cfgpar = [] →
      let k := n.val
      let rest := fun (t : State) => (∀ m, m < 12 → m ≠ k → t.phase m = s.phase m) ∧ SameBytesBut (papolByte s) s t
      let ready := s.on (F.OUT_G_STAT_PVDDOK (k / 4)) = true ∧ s.carrierOn (k / 4) = true
      let direct := s.ifaceReady i = true ∧ s.domReady (dmGroup (k / 4)) = true ∧ s.on ⟨Reg.HOST_PWSTAT, rgOut, 1⟩ = false ∧
        s.link.posted = [] ∧ s.lockOpen i = true
      (Accepted cardSpkEnable p s → pf p.payload 0 0 12 = 2 ^ k → s.phase k = phOff → s.chipSafe = false →
        s.on (F.OUT_G_STAT_TSHUT (k / 4)) = false → DomUp s (dmGroup (k / 4)) → ready →
        s.chanBusy? [0x303] [k] = none → s.freeSlot? ≠ none → NewKey p s → Awaits (.spkEnable p) cardSpkEnable p s [] [.chan k] fun t => t.phase k = phCheck ∧ (t.spk k).on = true ∧ rest t ∧
          SameRegsBut spkReg s t ∧ { s.over t with spks := s.spks, out := s.out } = s) ∧
      (Accepted cardSpkDisable p s → pf p.payload 0 0 12 = 2 ^ k → s.phase k = phPlay →
        s.chanBusy? [0x302, 0xA00, 0xA01] [k] = none → s.freeSlot? ≠ none → NewKey p s → Awaits (.spkDisable p) cardSpkDisable p s [] [.chan k] fun t => t.phase k = phMute ∧ (t.spk k).on = false ∧ rest t ∧
          SameRegsBut spkReg s t ∧ { s.over t with spks := s.spks, out := s.out } = s) ∧
      (Accepted cardSpkRetry p s → pf p.payload 0 0 12 = 2 ^ k → held (s.phase k) = true → (s.spk k).why = 0x301 → s.chipSafe = false →
        let wrote := fun (t : State) => t.on (F.OUT_SPK_CTRL_RETRY k) = pb p.payload 0 31 ∧ rest t ∧ Touches [Reg.OUT_SPK_CTRL k] s t ∧
          { s.over t with link := s.link, out := s.out } = s
        NewKey p s →
        (pb p.payload 0 31 = true → s.chanBusy? [] [k] = none → s.freeSlot? ≠ none →
          Awaits (.spkRetry p) cardSpkRetry p s [] [.chan k] wrote) ∧
        (pb p.payload 0 31 = false → s.chanBusy? [0x305] [k] = none → Answers (.spkRetry p) cardSpkRetry p s 0 0 [] wrote)) ∧
      (direct → s.pstate = stPlay → s.chipSafe = false → s.phase k = phOff → ready → bit (s.reg (Reg.OUT_SPK_CTRL k)) 1 = false →
        ∃ t, exec (.start i n) s = .next t ∧ t.phase k = phCheck ∧ (t.spk k).on = true ∧ t.on ⟨Reg.HOST_PWSTAT, rgOut, 1⟩ = false ∧ rest t) ∧
      (direct → s.phase k = phPlay → ∃ t, exec (.stop i n) s = .next t ∧ t.phase k = phMute ∧ (t.spk k).on = false ∧
        t.on ⟨Reg.HOST_PWSTAT, rgOut, 1⟩ = false ∧ rest t)) ∧
  (∀ s : State, Quiet s →
      (s.out.muteLow = false → ∃ t, exec .muteNFall s = .next t ∧ t.out.muteLow = true ∧
        (∀ n, n < 12 → t.phase n = if s.phase n = phUnmute ∨ s.phase n = phPlay then phHold else s.phase n) ∧
        SameRegsBut spkReg s t ∧ SameBytesBut (papolByte s) s t ∧ { s.over t with spks := s.spks, out := s.out } = s) ∧
      (s.out.muteLow = true → s.out.muteHeld = false → s.unmutes = true → ∃ t, exec .muteNRise s = .next t ∧ t.out.muteLow = false ∧
        (∀ n, n < 12 → t.phase n = if s.phase n = phHold ∧ (s.spk n).on = true then phUnmute else s.phase n) ∧
        SameRegsBut spkReg s t ∧ SameBytesBut (papolByte s) s t ∧ { s.over t with spks := s.spks, out := s.out } = s))

/-- What protects a channel (R379, R387 to R393): the eighth limited period in a row and a lasting DC difference hold it in Fault, a SHORT
is recorded at its classification, a passed retry restarts it, PVDD out of range and its return move PVDDOK. -/
def Obligations.ProtectionHoldsTheChannel : Prop :=
  ∀ (s : State) (n : Fin 12) (g : Fin 3), Still s →
    let k := s.master n.val
    (∀ (legM : Bool) (w : TripPeriod), s.legActs (n.val / 4) (nodeOf n.val (b2n legM)) = true →
      let run := match w with
        | .same => max (s.spk k).run 1
        | .next => (s.spk k).run + 1
        | .later => 1
      ∃ t, exec (.ilimTrip n legM w) s = .next t ∧ t.on (F.OUT_SPK_STAT_ILIMHIT k) = true ∧
        (run < 8 → t.phase k = s.phase k ∧ (t.spk k).run = run ∧ SameRegsBut (fun a => a = Reg.OUT_SPK_STAT k) s t) ∧
        (8 ≤ run → t.phase k = phFault ∧ t.on (F.OUT_SPK_STAT_SHORT k) = true ∧ (t.spk k).why = 0x301)) ∧
    (s.phase k = phFault → (s.spk k).why = 0x301 → (s.spk k).unclass = true → ∀ own slave : ChanTest, s.sclassOf k own slave ≠ 4 →
      ∃ t, exec (.shortClassify n own slave) s = .next t ∧ t.rd (F.OUT_SPK_STAT_SCLASS k) = s.sclassOf k own slave ∧
        (t.spk k).unclass = false ∧ t.phase k = phFault ∧ ∃ r ∈ t.saf.recs, r.code = 0x301 ∧ r.unit = k) ∧
    (n.val = k → held (s.phase k) = true → (s.spk k).why = 0x301 → (s.spk k).unclass = false → s.on (F.OUT_SPK_CTRL_RETRY k) = true →
      s.chipSafe = false → s.link.cfgpar = [] → ∀ own slave : ChanTest,
      (∃ t, exec (.retryPulse n true (own, slave)) s = .next t ∧ t.on (F.OUT_SPK_STAT_ILIMHIT k) = true ∧ t.phase k = s.phase k) ∧
      (s.nodeClass k own slave = 0 → s.on (F.OUT_G_STAT_PVDDOK (k / 4)) = true → s.carrierOn (k / 4) = true →
        s.rd (F.OUT_G_CFG_PAIR (k / 4)) = (s.grp (k / 4)).pairs →
        ∃ t, exec (.retryPulse n false (own, slave)) s = .next t ∧ t.phase k = phCheck ∧ t.on (F.OUT_SPK_STAT_SHORT k) = false)) ∧
    (phUnmute ≤ s.phase k → s.phase k ≤ phMute → ∀ measured commanded : Int,
      let bad := 100 * max 1 (s.rd (F.OUT_SPK_LIMIT_DCTHR k)) < (measured - commanded).natAbs
      ∃ t, exec (.dcWindow n measured commanded) s = .next t ∧
        (bad → (s.spk k).dcBad = true → t.phase k = phFault ∧ t.on (F.OUT_SPK_STAT_DCLOAD k) = true ∧ (t.spk k).why = 0x306) ∧
        (¬ (bad ∧ (s.spk k).dcBad = true) → t.regs = s.regs ∧ ((t.spk k).dcBad = true ↔ bad))) ∧
    (s.on (F.OUT_G_STAT_PVDDOK g.val) = true → s.rd (F.OUT_G_CFG_PAIR g.val) = (s.grp g.val).pairs →
      (∃ t, exec (.pvdduv g) s = .next t ∧ t.on (F.OUT_G_STAT_PVDDOK g.val) = false ∧
        ∀ j, j < 4 → t.phase (4 * g.val + j) = if s.phase (4 * g.val + j) = phSlave ∨ held (s.phase (4 * g.val + j)) then
          s.phase (4 * g.val + j) else phOff) ∧
      (∃ t, exec (.pvddov g) s = .next t ∧ t.on (F.OUT_G_STAT_PVDDOK g.val) = false ∧
        ∀ j, j < 4 → t.phase (4 * g.val + j) = if s.phase (4 * g.val + j) = phSlave ∨ held (s.phase (4 * g.val + j)) then
          s.phase (4 * g.val + j) else phOff)) ∧
    (∃ t, exec (.pvddRestart g) s = .next t ∧ t.on (F.OUT_G_STAT_PVDDOK g.val) = true ∧
      (∀ j, j < 4 → s.phase (4 * g.val + j) = phOff → (s.spk (4 * g.val + j)).start = true → s.carrierOn g.val = true →
        s.rd F.SAFE_SM_STAT_CSS ≠ 2 → t.phase (4 * g.val + j) = phCheck) ∧
      ∀ m, m < 12 → m / 4 ≠ g.val → t.phase m = s.phase m)

/-- THERMAL_SAMPLE (R382 to R384): TJ is the hottest sensor, the foldback attenuation moves by FBRATE toward its bound, and 165 degrees
shuts the group down: TSHUT, with every channel that was not Off in Fault. -/
def Obligations.ThermalSampleFoldsBackAndShutsDown : Prop :=
  ∀ (s : State) (g : Fin 3) (a b c d : BitVec 8), Still s → s.on (F.OUT_G_STAT_TSHUT g.val) = false →
    (∀ n, n < 12 → s.phase n ≠ phSlave → s.master n = n) →
    let tj := max (max a.toNat b.toNat) (max c.toNat d.toNat)
    let tfb := max 125 (s.rd (F.OUT_G_THERM_TFB g.val)) + 64
    let rate := fbRate (s.rd (F.OUT_G_THERM_FBRATE g.val))
    ∃ t, exec (.thermalSample g a b c d) s = .next t ∧ t.rd (F.OUT_G_THERM_TJ g.val) = tj ∧
      (t.grp g.val).afb = (if tfb ≤ tj then min 240000 ((s.grp g.val).afb + rate)
        else if tj + 5 ≤ tfb then (s.grp g.val).afb - rate else (s.grp g.val).afb) ∧
      (tj < 165 + 64 → t.spks = s.spks ∧ ∀ n, n < 12 → t.phase n = s.phase n) ∧
      (165 + 64 ≤ tj → t.on (F.OUT_G_STAT_TSHUT g.val) = true ∧
        ∀ j, j < 4 → t.phase (4 * g.val + j) =
          if s.phase (4 * g.val + j) = phOff ∨ s.phase (4 * g.val + j) = phSlave ∨ held (s.phase (4 * g.val + j)) then
            s.phase (4 * g.val + j) else phFault)

/-- Legs and the crosspoint (R394 to R406): a slice drops and the leg carries on, a failed leg is regrown onto a ready spare, Release and
Settle end the regrow, a spare's and a leg's self-test are recorded, a crosspoint update waits for its transfer and is transferred. -/
def Obligations.LegsAreDroppedRegrownAndMoved : Prop :=
  ∀ (s : State) (n : Fin 12) (legM : Bool) (g : Fin 3) (i : Iface), Still s →
    let k := n.val
    let h := k / 4
    let j := nodeOf k (b2n legM)
    (∀ sl : Fin 4, s.legActs h j = true → s.onSpare h j = false → inMask (vat (s.grp h).slices j) sl.val = true →
      3 ≤ sliceCount (vat (s.grp h).slices j) → s.on (F.OUT_G_CFG_SLICEPOL h) = false →
      ∃ t, exec (.sliceDrop n legM sl) s = .next t ∧ vat (t.grp h).slices j = vat (s.grp h).slices j - 2 ^ sl.val ∧
        t.on (F.OUT_SPK_STAT_SLICE k) = true ∧ ∀ m, m < 12 → t.phase m = s.phase m) ∧
    (s.legActs h j = true → s.chipSafe = false → s.handling rgOut = false → s.xstate h = xsReady → s.onSpare h j = false →
      ∃ t, exec (.legFault n legM) s = .next t ∧ t.onSpare h j = true ∧ t.xstate h = xsInUse ∧ inMask (t.grp h).failed j = true ∧
        (t.grp h).seq.isSome = true ∧ ∀ m, m < 12 → t.phase m = s.phase m) ∧
    (∀ q : LegSeq, let z : State := s.modGrp g.val fun x => { x with seq := some q }
      (q.released = false → (∀ w ∈ s.saf.work, w.region = rgOut → w.wait = false) → ∃ t, exec (.legRegrowRelease g) z = .next t ∧ (t.grp g.val).seq = some { q with released := true } ∧
        ∀ m, m < 12 → t.phase m = z.phase m) ∧
      (q.released = true → q.nodes = [q.node] → q.node < 8 → s.phase (s.master (chanOf g.val q.node)) = phPlay → s.muted = false →
        s.chipSafe = false → (s.spk (s.master (chanOf g.val q.node))).stopWait = none →
        ∀ hiz : BitVec 16, ∃ t, exec (.regrowSettleEnd g hiz) z = .next t ∧ (t.grp g.val).seq = none ∧
          ∀ m, m < 12 → t.phase m = z.phase m)) ∧
    (s.xstate g.val = xsReady → ∃ t, exec (.spareSelftest g false) s = .next t ∧ t.xstate g.val = xsFailed) ∧
    (∀ node : Fin 8, inMask (s.grp g.val).failed node.val = true → vat (s.grp g.val).fails node.val < 3 →
      ∃ t, exec (.legSelftestDone g node true) s = .next t ∧ inMask (t.rd (F.OUT_G_STAT_HEALED g.val)) node.val = true ∧
        SameRegsBut (fun a => a = Reg.OUT_G_STAT g.val) s t ∧ { t with regs := s.regs } = s) ∧
    (s.ifaceReady i = true → s.domReady (dmGroup g.val) = true → s.on ⟨Reg.HOST_PWSTAT, rgOut, 1⟩ = false → s.link.posted = [] →
      s.link.cfgpar = [] → s.lockOpen i = true → ∃ t, exec (.xptUpdate i g) s = .next t ∧ t.on (F.OUT_G_XPT_UPDATE g.val) = true ∧
        t.rd (F.OUT_G_XPT_NODE g.val) = s.rd (F.OUT_G_XPT_NODE g.val)) ∧
    (s.on (F.OUT_G_XPT_UPDATE g.val) = true → s.on (F.OUT_G_XPT_EN g.val) = true → s.on (F.OUT_G_XPT_AEN g.val) = false →
      s.xstate g.val = xsReady → s.phase (s.master (chanOf g.val (s.rd (F.OUT_G_XPT_NODE g.val)))) = phOff →
      ∃ t, exec (.xptTransfer g) s = .next t ∧ t.on (F.OUT_G_XPT_UPDATE g.val) = false ∧
        t.onSpare g.val (s.rd (F.OUT_G_XPT_NODE g.val)) = true ∧ t.xstate g.val = xsInUse ∧ ∀ m, m < 12 → t.phase m = s.phase m)

/-! ## Croaker, headphone and line outputs, CV DAC (spec/08_speaker_channels.md, spec/12_headphone_line_cv.md) -/

/-- Croaker slots (R407 to R410, R419, R420): a tone or a sample is taken into an idle slot with LEVEL raised to CRKMIN, CROAKER_PLAY and
the edge of a mapped ALERT pin make the slot active, a pass ends it where nothing asks for more. The other slots are empty. -/
def Obligations.CroakerSlotsAreConfiguredAndPlayed : Prop :=
  ∀ (p : Packet) (s : State) (pin : Fin 4) (k : Fin 8),
    (∀ j, j < 8 → j ≠ k.val → (s.slot j).kind = 0 ∧ (s.slot j).active = false ∧ (s.slot j).want = false) →
    (∀ r ∈ s.saf.recs, r.code ≠ 0x30A) →
    let ws := p.payload
    let c := s.slot k.val
    let least := s.rd F.OUT_SPK_FUSE_CRKMIN
    let low := decide (pf ws 3 24 8 < least)
    let only := fun (t : State) => SameRegsBut (fun a => spkReg a) s t ∧ SameBytesBut (papolByte s) s t ∧
      { s.over t with crk := s.crk, out := s.out } = s
    let carried := ∀ n, n < 12 → inMask (s.slotBase k.val) n = true →
      held (s.phase n) = false ∧ ¬ (s.phase n = phOff ∧ (s.spk n).start = false)
    let bitOf := fun (t : State) => inMask (t.rd F.OUT_CRK_STAT_ACTIVE) k.val
    (Accepted cardCroakerCfg p s → pf ws 0 8 3 = k.val → s.on F.OUT_CRK_STAT_LOCKED = false → c.active = false → pf ws 3 8 4 = 0 →
      s.pendFor? [.croaker k.val] = none →
      let set := fun (t : State) => (t.slot k.val).kind = pf ws 0 0 2 ∧ (t.slot k.val).mask = pf ws 0 20 12 ∧
        (t.slot k.val).level = max least (pf ws 3 24 8) ∧ (t.slot k.val).duck = pf ws 3 16 6 ∧ (t.slot k.val).active = false ∧ only t
      (pf ws 0 0 2 = 1 → 100 ≤ pf ws 1 16 16 → pf ws 1 16 16 ≤ 8000 → pf ws 1 0 2 ≠ 3 →
        Answers (.croakerCfg p) cardCroakerCfg p s (if low then stsClamped else stsOk) (if low then 4 else 0) [] fun t =>
          set t ∧ (t.slot k.val).freq = pf ws 1 16 16 ∧ (t.slot k.val).wave = pf ws 1 0 2 ∧ (t.slot k.val).onMs = pf ws 2 16 16 ∧
          (t.slot k.val).offMs = pf ws 2 0 16) ∧
      (pf ws 0 0 2 = 2 → 1 ≤ pf ws 2 0 16 → pf ws 2 0 16 ≤ 256 → s.spanOn (pf ws 1 0 21) (256 * pf ws 2 0 16) = true →
        (s.admitted cardCroakerCfg p).poisonIn (pf ws 1 0 21) (256 * pf ws 2 0 16) = [] →
        Answers (.croakerCfg p) cardCroakerCfg p s (if low then stsClamped else stsOk) (if low then 4 else 0) [] fun t =>
          set t ∧ (t.slot k.val).len = pf ws 2 0 16 ∧ (t.slot k.val).loop = pb ws 2 16 ∧
          (t.slot k.val).data = (s.admitted cardCroakerCfg p).words (0x800000 + pf ws 1 0 21) (64 * pf ws 2 0 16))) ∧
    (Accepted cardCroakerPlay p s → pf ws 0 8 3 = k.val → c.kind ≠ 0 →
      (pb ws 0 16 = true → Answers (.croakerPlay p) cardCroakerPlay p s 0 0 [] fun t => (t.slot k.val).left = 0 ∧
        (t.slot k.val).forever = false ∧ (t.slot k.val).active = c.active ∧ Touches [] s t ∧ { s.over t with crk := s.crk } = s) ∧
      (pb ws 0 16 = false → carried → Answers (.croakerPlay p) cardCroakerPlay p s 0 0 [] fun t => (t.slot k.val).active = true ∧
        (t.slot k.val).left = pf ws 0 24 8 ∧ (t.slot k.val).forever = decide (pf ws 0 24 8 = 0) ∧ (c.active = false → bitOf t = true) ∧
        only t)) ∧
    (c.kind ≠ 0 → c.want = false → inMask c.map pin.val = true → s.croaks = true → c.auto = false →
      (s.on F.SAFE_SM_CFG_ALTPAIR = false ∨ 2 ≤ pin.val) → carried →
      ∃ t, exec (.alertRise pin) s = .next t ∧ t.rd ⟨Reg.OUT_CRK_STAT, 20 + pin.val, 1⟩ = 1 ∧ (t.slot k.val).active = true ∧
        (t.slot k.val).want = true ∧ bitOf t = true ∧ only t) ∧
    (c.want = true ∨ c.kind = 0 → ∃ t, exec (.alertFall pin) s = .next t ∧ t.rd ⟨Reg.OUT_CRK_STAT, 20 + pin.val, 1⟩ = 0 ∧
      (t.slot k.val).active = c.active ∧ only t) ∧
    (c.active = true →
      (c.again = true ∨ c.forever = true ∨ 2 ≤ c.left → ∃ t, exec (.croakerSlotEnd k) s = .next t ∧ (t.slot k.val).active = true ∧
        (t.slot k.val).left = c.left - 1 ∧ (t.slot k.val).again = false ∧ (t.slot k.val).mark = s.now ∧ only t) ∧
      (c.again = false → c.forever = false → c.left < 2 → s.slotWanted k.val = false →
        ∃ t, exec (.croakerSlotEnd k) s = .next t ∧ (t.slot k.val).active = false ∧ bitOf t = false ∧ only t))

/-- The headphone (o = 0) and line (o = 1) outputs (R572 to R578): each phase leads to the next, Hold and Unmute by what the state and the
jack allow, the last output to go Off stops the pump; HPLINE_CFG starts the headphone output through Pump. -/
def Obligations.HeadphoneAndLineOutputsFollowTheirPhases : Prop :=
  ∀ (p : Packet) (s : State) (line : Bool),
    let o := b2n line
    let moved := fun (i : Instr) (ph : Nat) => ∃ t, exec i s = .next t ∧ t.hoPhase o = ph ∧ t.hoPhase (1 - o) = s.hoPhase (1 - o) ∧
      Touches [Reg.OUT_HPL_STAT] s t ∧ { s.over t with hp := s.hp, hpcv := s.hpcv } = s
    let after := if (s.hpx o).on then (if s.hoMay o then hoUnmute else hoHold) else hoShort
    (s.hoPhase o = hoPump → s.hoPhase (1 - o) ≠ hoPump → moved .hpPumpDone hoRelease) ∧
    (s.hoPhase o = hoRelease → moved (.hpReleaseDone line) after) ∧
    (s.hoPhase o = hoUnmute → moved (.hpUnmuteDone line) hoPlay) ∧
    (s.hoPhase o = hoMute → moved (.hpMuteDone line) after) ∧
    (s.hoPhase o = hoShort → (s.hpx o).on = false → moved (.hpShortDone line) hoOff ∧
      (s.hoPhase (1 - o) = hoOff → ∀ t, exec (.hpShortDone line) s = .next t → t.rd F.OUT_HPL_STAT_PUMP = 0)) ∧
    (Accepted cardHplineCfg p s → s.link.cfgpar = [] → s.chipSafe = false → DomUp s dmHpLine → NewKey p s →
      (∀ e ∈ s.pap.slots, e.opcode ≠ 0x310) → Free s [.hpline] → let w := s.hplWord p.payload
      let wrote := fun (t : State) => t.reg Reg.OUT_HPL_CFG = w ∧ Touches [Reg.OUT_HPL_CFG, Reg.OUT_HPL_STAT] s t ∧
        { s.over t with hp := s.hp, hpcv := s.hpcv, link := s.link } = s
      ((s.hpx 0).on = bit w 31 → (s.hpx 1).on = bit w 30 → Answers (.hplineCfg p) cardHplineCfg p s 0 0 [] wrote) ∧
      (bit w 31 = true → bit w 30 = false → (s.hpx 0).on = false → (s.hpx 1).on = false → s.hoPhase 0 = hoOff →
        s.rd F.OUT_HPL_STAT_PUMP = 0 → Awaits (.hplineCfg p) cardHplineCfg p s [] [.hpline] fun t =>
          wrote t ∧ t.hoPhase 0 = hoPump ∧ (t.hpx 0).on = true))

/-- The CV channels (R580 to R590): CV_CFG writes the fields that its flags name and, with SLEW 0 and no clear, the code at once; a code of
the same upper bits needs no deglitch hold; CLR_N takes every configured channel to its CVCLR and back; CV_TRACK writes the tracking law. -/
def Obligations.CvChannelsFollowCodeAndClear : Prop :=
  ∀ (p : Packet) (s : State) (n : Fin 4), s.link.cfgpar = [] → s.rd F.SAFE_SM_STAT_CSS ≠ 2 →
    let k := n.val
    let ws := p.payload
    let stats := fun (a : Nat) => ∃ m, m < 4 ∧ a = Reg.OUT_CV_STAT m
    let out := fun (t : State) (m : Nat) => t.rd (F.OUT_CV_STAT_OUTCODE m)
    let wr := s.cvWord k ws
    (Accepted cardCvCfg p s → pf ws 0 0 4 = 2 ^ k → (pb ws 3 1 = true → s.cvMode k ≠ 0 → pf ws 1 29 1 = s.rd (F.OUT_CV_CFG_GAIN k)) →
      s.pendFor? [.cv k] = none → DomUp s dmCv → Answers (.cvCfg p) cardCvCfg p s 0 0 [] fun t =>
        t.reg (Reg.OUT_CV_CFG k) = wr ∧ (pb ws 3 2 = true → t.rd (F.OUT_CV_AUX_CVCLR k) = pf ws 2 0 16) ∧
        (pb ws 3 2 = false → t.reg (Reg.OUT_CV_AUX k) = s.reg (Reg.OUT_CV_AUX k)) ∧
        (bits wr 30 2 = 1 → bits wr 16 8 = 0 → s.hpcv.clrLow = false → s.on (F.OUT_CV_STAT_DEGL k) = false → (s.cvx k).wait = none →
          bits wr 12 4 = s.rd (F.OUT_CV_STAT_OUTCODE k) / 4096 → out t k = bits wr 0 16) ∧
        Touches [Reg.OUT_CV_CFG k, Reg.OUT_CV_AUX k, Reg.OUT_CV_STAT k] s t ∧ { s.over t with cv := s.cv, link := s.link } = s) ∧
    (Accepted cardCvTrack p s → pf ws 0 0 2 = k → pf ws 2 0 9 ≤ pf ws 2 16 9 → 45 ≤ pf ws 2 0 9 → pf ws 2 16 9 ≤ 300 →
      s.pendFor? [.cv k] = none → DomUp s dmCv → Answers (.cvTrack p) cardCvTrack p s 0 0 [] fun t =>
        t.reg (Reg.OUT_CV_MAP k) = pw ws 1 ∧ t.reg (Reg.OUT_CV_LIM k) = pw ws 2 &&& 0x01FF01FF ∧
        t.rd (F.OUT_CV_AUX_HEAD k) = pf ws 0 24 8 ∧ t.rd (F.OUT_CV_AUX_REL k) = pf ws 0 16 8 ∧
        t.reg (Reg.OUT_CV_CFG k) = s.reg (Reg.OUT_CV_CFG k) ∧
        Touches [Reg.OUT_CV_AUX k, Reg.OUT_CV_MAP k, Reg.OUT_CV_LIM k, Reg.OUT_CV_STAT k] s t ∧
        { s.over t with cv := s.cv, link := s.link } = s) ∧
    (∀ c, (s.cvx k).wait = some c → ∃ t, exec (.cvDeglitchEnd n) s = .next t ∧ out t k = c % 2 ^ 16 ∧
      t.on (F.OUT_CV_STAT_DEGL k) = false ∧ (t.cvx k).wait = none ∧ SameRegsBut (fun a => a = Reg.OUT_CV_STAT k) s t ∧
      { t with regs := s.regs, cv := s.cv } = s) ∧
    (∃ t, exec .clrNFall s = .next t ∧ t.hpcv.clrLow = true ∧ SameRegsBut stats s t ∧
      { t with regs := s.regs, cv := s.cv, hpcv := s.hpcv } = s ∧
      (s.cvMode k = 0 → t.on (F.OUT_CV_STAT_CLR k) = false) ∧
      (s.cvMode k ≠ 0 → t.on (F.OUT_CV_STAT_CLR k) = true ∧ t.on (F.OUT_CV_STAT_SLEWING k) = false ∧
        (s.on (F.OUT_CV_STAT_DEGL k) = false → (s.cvx k).wait = none →
          s.rd (F.OUT_CV_AUX_CVCLR k) / 4096 = s.rd (F.OUT_CV_STAT_OUTCODE k) / 4096 → out t k = s.rd (F.OUT_CV_AUX_CVCLR k)))) ∧
    (∃ t, exec .clrNRise s = .next t ∧ t.hpcv.clrLow = false ∧ SameRegsBut stats s t ∧
      { t with regs := s.regs, cv := s.cv, hpcv := s.hpcv } = s ∧ t.on (F.OUT_CV_STAT_CLR k) = false ∧
      (s.cvMode k = 1 → (s.cvx k).parked = false → s.rd (F.OUT_CV_CFG_SLEW k) = 0 → s.on (F.OUT_CV_STAT_DEGL k) = false →
        (s.cvx k).wait = none → s.rd (F.OUT_CV_CFG_CODE k) / 4096 = s.rd (F.OUT_CV_STAT_OUTCODE k) / 4096 →
        out t k = s.rd (F.OUT_CV_CFG_CODE k)))

/-! ## Clocks (spec/09_clocks.md) -/

/-- The PLLs and the reference (R423, R427 to R434): a window in agreement gives lock, two in a row out of it lose lock and let the PLL
coast, a coast that expires is a fault of its own at chip level, the loss of the reference lets every running PLL coast. SYNC as a slave
(R455, R456, R473): the first edge aligns, the fourth error in a row loses alignment, a missing edge or a missing marked pulse is a sync
error, and the marked pulse, or the end of the wait for it, lets the transfer take place. -/
def Obligations.PllsLockCoastAndSyncSlaveAligns : Prop :=
  (∀ (s : State) (p : Fin 3), Quiet s →
      let k := p.val
      let clkRegs := fun (t : State) => SameRegsBut (fun a => papolReg a ∨ a = Reg.CTL_CLK_STAT ∨ a = Reg.OUT_SW_STAT) s t ∧
        SameBytesBut (papolByte s) s t ∧ { s.over t with clk := s.clk } = s
      (∀ hit miss, s.pllAgrees k hit = true → s.pllAgrees k miss = false → s.pllRuns k = true → s.on F.CTL_CLK_STAT_REFOK = true →
        (s.on (lockField k) = false → s.clk.stepping = false → s.clk.gateLeft = 0 → s.clk.settling = false →
          ∃ t, exec (.pllWindow p hit) s = .next t ∧ t.on (lockField k) = true ∧ t.on (coastField k) = false ∧ vat t.clk.bad k = 0) ∧
        (s.on (lockField k) = true → s.clk.stepping = false → s.clk.gateLeft = 0 → s.clk.settling = false →
          (∃ t, exec (.pllWindow p hit) s = .next t ∧ vat t.clk.bad k = 0 ∧ { t with clk := s.clk } = s) ∧
          (vat s.clk.bad k = 0 → ∃ t, exec (.pllWindow p miss) s = .next t ∧ vat t.clk.bad k = 1 ∧ { t with clk := s.clk } = s) ∧
          (vat s.clk.bad k ≠ 0 → ∃ t, exec (.pllWindow p miss) s = .next t ∧ t.on (lockField k) = false ∧ t.on (lostField k) = true ∧
            t.on (coastField k) = true ∧ vat t.clk.since k = s.now ∧ clkRegs t))) ∧
      (s.on (coastField k) = true → s.chipSafe = false → s.on F.SAFE_SM_STAT_FALLBACK = false → Still s →
        ∃ t, exec (.pllCoastExpire p) s = .next t ∧
          (s.on F.CTL_CLK_STAT_REFOK = false → t.rd F.SAFE_SM_STAT_CSS = 2 ∧ ∃ r ∈ t.saf.recs, r.code = 0x501 ∧ r.unit = 3) ∧
          (s.on F.CTL_CLK_STAT_REFOK = true → (∃ r ∈ t.saf.recs, r.code = 0x502 + k ∧ r.unit = k) ∧
            (k = 0 → t.rd F.SAFE_SM_STAT_CSS = if s.rd F.SAFE_SM_CFG2_ESCMODE = 0 then 1 else 2) ∧
            (k = 1 → t.rd F.SAFE_SM_STAT_CSS = 2) ∧
            (k = 2 → t.on F.SAFE_SM_STAT_FALLBACK = true ∧ t.rd F.OUT_SW_STAT_GATE = 0 ∧ t.clk.ramp = none))) ∧
      (s.on F.CTL_CLK_STAT_REFOK = true → ∃ t, exec .refLost s = .next t ∧ t.on F.CTL_CLK_STAT_REFOK = false ∧
        t.on F.CTL_CLK_STAT_REFLOST = true ∧ t.clk.refAt = s.now ∧ clkRegs t ∧
        ∀ m, m < 3 → s.pllRuns m = true → s.on (coastField m) = false →
          t.on (coastField m) = true ∧ t.on (lockField m) = false ∧ (s.on (lockField m) = true → t.on (lostField m) = true)) ∧
      (s.on F.CTL_CLK_STAT_REFOK = false → ∃ t, exec .refReturn s = .next t ∧ t.on F.CTL_CLK_STAT_REFOK = true ∧
        (∀ m, m < 3 → t.on (coastField m) = s.on (coastField m)) ∧ { s.over t with saf := s.saf } = s) ∧
      (∃ t, exec .aonXt32Switch s = .next t ∧ t.on F.CTL_CLK_STAT_AONSRC = true ∧ SameRegsBut (fun a => a = Reg.CTL_CLK_STAT) s t ∧
        { t with regs := s.regs } = s) ∧
      (s.on F.CTL_CLK_STAT_AONSRC = true → ∃ t, exec .aonfail s = .next t ∧ t.on F.CTL_CLK_STAT_AONSRC = false ∧
        t.on F.CTL_CLK_STAT_AONFAIL = true ∧ SameRegsBut (fun a => a = Reg.CTL_CLK_STAT) s t ∧ { t with regs := s.regs } = s)) ∧
  (∀ (s : State) (err : Nat), s.rd F.OUT_SW_STAT_SYNCMODE = 2 → s.on F.OUT_SW_STAT_SWON = true →
      (∀ r ∈ s.saf.recs, r.code ≠ 0x30A) →
      let moved := fun (i : Instr) (al se : Bool) (bad : Nat) => ∃ t, exec i s = .next t ∧ t.on F.OUT_SW_STAT_ALIGNED = al ∧
        t.on F.OUT_SW_STAT_SYNCERR = se ∧ t.clk.syncBad = bad ∧ Touches [Reg.OUT_SW_STAT] s t ∧
        (s.clk.syncArmed = false → t.groups = s.groups) ∧ { s.over t with clk := s.clk, groups := s.groups } = s
      let se := s.on F.OUT_SW_STAT_SYNCERR
      (s.clk.syncArmed = true → moved (.syncInEdge err false) true se 0) ∧
      (s.clk.syncArmed = false → s.on F.OUT_SW_STAT_ALIGNED = true →
        (err ≤ 16 → moved (.syncInEdge err false) true se 0) ∧
        (16 < err → 3 ≤ s.clk.syncBad → moved (.syncInEdge err false) false true s.clk.syncBad) ∧
        (16 < err → s.clk.syncBad < 3 → moved (.syncInEdge err false) true se (s.clk.syncBad + 1))) ∧
      (s.clk.syncWait = true → ∃ t, exec .syncInTimeout s = .next t ∧ t.clk.syncWait = false ∧ t.on F.OUT_SW_STAT_SYNCERR = true ∧
        Touches [Reg.OUT_SW_STAT] s t) ∧
      (s.on F.OUT_SW_CTRL_UPDATE = true → s.clk.ramp = none → s.regrowWaits = false → s.swDiff.div = 0 → s.swDiff.en = 0 →
        (∃ t, exec (.syncInEdge err true) s = .next t ∧ t.on F.OUT_SW_CTRL_UPDATE = false ∧
          (s.swDiscards = false → t.swTarget = s.swShadow)) ∧
        (∃ t, exec .syncTimeout s = .next t ∧ t.on F.OUT_SW_CTRL_UPDATE = false ∧ t.on F.OUT_SW_STAT_SYNCERR = true ∧
          (s.swDiscards = false → t.swTarget = s.swShadow))))

/-- PLL_CFG (R468) with nothing to change, with a change of the audio family, and with SWPLL powered up; SYNC_CFG (R473), RAMP_LOAD (R470)
and CHAMELEON_CFG (R472), placement not running after it. -/
def Obligations.ClockCommandsConfigure : Prop :=
  ∀ (p : Packet) (s : State), s.link.cfgpar = [] → (∀ r ∈ s.saf.recs, r.code ≠ 0x30A) →
    let ws := p.payload
    let same := (pf ws 0 0 1 = s.rd F.CTL_CLK_STAT_AUDFAM)
    let w := if pw ws 1 = 0 then s.swTarget else (pw ws 1).toNat
    let swRegs : List Nat := [Reg.OUT_SW_FREQ, Reg.OUT_SW_FREQA, Reg.OUT_SW_FREQI, Reg.OUT_SW_STAT, Reg.SAFE_AGE_STAT]
    (Accepted cardPllCfg p s → s.vcoOk w = true → NewKey p s → (∀ e ∈ s.pap.slots, e.opcode ≠ 0x500) → Free s [.pll, .swpll] →
      (same → pw ws 1 = 0 → pw ws 2 = 0 → pb ws 3 0 = s.on F.OUT_SW_STAT_SWON →
        Answers (.pllCfg p) cardPllCfg p s 0 0 [] (PapolBut papolReg (papolByte s) s)) ∧
      (¬ same → pw ws 1 = 0 → pw ws 2 = 0 → pb ws 3 0 = s.on F.OUT_SW_STAT_SWON → s.graph.image = none → s.graph.loading = none →
        s.strs = [] → (∀ n, n < 4 → s.portEn n = false) → s.on F.IN_WKD_CFG_EN = false → s.outputsOff = true →
        Awaits (.pllCfg p) cardPllCfg p s [] [.pll] fun t => t.rd F.CTL_CLK_STAT_AUDFAM = pf ws 0 0 1 ∧
          t.reg Reg.CTL_AUDPLL_CFG = w32 (audRatio s.refHz (pf ws 0 0 1)) ∧ t.on F.CTL_CLK_STAT_AUDLOCK = false ∧
          Touches [Reg.CTL_CLK_STAT, Reg.CTL_AUDPLL_CFG, Reg.IN_TDM_CLK 0, Reg.IN_TDM_CLK 1] s t ∧ s.over t = s) ∧
      (same → pb ws 3 0 = true → s.on F.OUT_SW_STAT_SWON = false → s.on F.SAFE_SM_STAT_FALLBACK = false →
        (∀ g, g < 3 → s.groupActive g = false) → Awaits (.pllCfg p) cardPllCfg p s [] [.swpll] fun t =>
          t.swTarget = w ∧ t.swNow = w ∧ t.swShadow = w ∧ (∀ g, g < 3 → t.swDiv g = s.packedDiv (pw ws 2).toNat g) ∧
          t.on F.OUT_SW_STAT_SWON = true ∧ t.on F.OUT_SW_STAT_LOCK = false ∧ t.clk.ramp = none ∧
          SameRegsBut (fun a => spkReg a ∨ a ∈ swRegs ∨ ∃ g, g < 3 ∧ (a = Reg.OUT_SW_OUT g ∨ a = Reg.OUT_SW_OUTA g)) s t ∧
          { s.over t with clk := s.clk, out := s.out, link := s.link, groups := s.groups } = s)) ∧
    (Accepted cardSyncCfg p s → pf ws 0 0 2 ≠ 3 → (∀ g, g < 3 → s.groupActive g = false) →
      Answers (.syncCfg p) cardSyncCfg p s 0 0 [] fun t => t.rd F.OUT_SW_STAT_SYNCMODE = pf ws 0 0 2 ∧
        t.on F.OUT_SW_STAT_ALIGNED = false ∧ t.clk.syncArmed = decide (pf ws 0 0 2 = 2) ∧ t.rd ⟨Reg.PWR_GECKO, 4, 1⟩ = 0 ∧
        Touches [Reg.OUT_SW_STAT, Reg.PWR_GECKO] s t ∧ { s.over t with clk := s.clk } = s) ∧
    (Accepted cardRampLoad p s → 2 ≤ pf ws 0 0 2 → 2 ≤ pf ws 1 0 6 → pf ws 1 0 6 ≤ 32 → pf ws 1 0 6 % 2 = 0 →
      ws.length = 2 + pf ws 1 0 6 / 2 →
      let pts := (List.range (pf ws 1 0 6)).map fun i => pf ws (2 + i / 2) (16 * (i % 2)) 16
      rampBad 0 0 pts = none → Answers (.rampLoad p) cardRampLoad p s 0 0 [] fun t =>
        t.clk = (if pf ws 0 0 2 = 2 then { s.clk with slot2 := pts } else { s.clk with slot3 := pts }) ∧
        Touches [] s t ∧ { s.over t with clk := s.clk } = s) ∧
    (Accepted cardChameleonCfg p s → 9 ≤ pf ws 0 8 8 → pf ws 0 8 8 ≤ 50 → 1 ≤ pf ws 1 0 16 → pf ws 1 0 16 ≤ 1000 →
      (pf ws 0 0 1 = 0 ∨ s.rd F.OUT_SW_PLACE_FT = 0) → Answers (.chameleonCfg p) cardChameleonCfg p s 0 0 [] fun t =>
        t.rd F.OUT_SW_PLACE_GUARD = pf ws 0 8 8 ∧ t.rd F.OUT_SW_PLACE_ENABLE = pf ws 0 0 1 ∧ t.rd F.OUT_SW_PRTIME_RTIME = pf ws 1 0 16 ∧
        t.rd F.OUT_SW_PLACE_FT = s.rd F.OUT_SW_PLACE_FT ∧
        Touches [Reg.OUT_SW_PLACE, Reg.OUT_SW_PRTIME, Reg.OUT_SW_STAT, Reg.SAFE_AGE_STAT] s t ∧ s.over t = s)

/-- SWPLL moves (R439 to R443, R448, R449, R466, R469): SWPLL_SET and TUNED_FREQ write the shadow set or leave it, SWPLL_UPDATE sets UPDATE,
the transfer takes the shadow set over as a ramp or discards it, the ramp ends at its target. -/
def Obligations.SwpllMovesThroughTheShadowSet : Prop :=
  ∀ (p : Packet) (s : State) (i : Iface), s.link.cfgpar = [] → (∀ r ∈ s.saf.recs, r.code ≠ 0x30A) →
    let ws := p.payload
    let w := if pw ws 0 = 0 then s.swTarget else (pw ws 0).toNat
    let div := s.packedDiv (pw ws 1).toNat
    let ms := pf ws 2 16 16
    let sw : List Nat := [Reg.OUT_SW_STAT, Reg.SAFE_AGE_STAT]
    (Accepted cardSwpllSet p s → s.on F.SAFE_SM_STAT_FALLBACK = false → s.pendOp? 0x500 = none →
      (pb ws 2 2 = true → s.on F.OUT_SW_PLACE_ENABLE = false → Answers (.swpllSet p) cardSwpllSet p s 0 0 [] fun t =>
        t.clk = { s.clk with holds := 0 } ∧ Touches sw s t ∧ { s.over t with clk := s.clk } = s) ∧
      (pb ws 2 2 = false → s.vcoOk w = true → (∀ g, g < 3 → s.swEn g = true → s.inRange g w (div g) = true) → ms ≤ 1000 →
        (ms ≠ 0 → ∀ g, g < 3 → div g = s.swDiv g) → s.clk.ramp = none → s.freeSlot? ≠ none → Awaits (.swpllSet p) cardSwpllSet p s [] [.swpll] fun t =>
          t.swShadow = w ∧ (∀ g, g < 3 → t.shadowDiv g = div g) ∧ t.rd F.OUT_SW_CTRL_RTIME = ms ∧ t.on F.OUT_SW_CTRL_UPDATE = true ∧
          t.clk.due = true ∧ t.swTarget = s.swTarget ∧ t.swNow = s.swNow ∧
          Touches (sw ++ [Reg.OUT_SW_CTRL, Reg.OUT_SW_FREQ] ++ (List.range 3).map Reg.OUT_SW_OUT) s t ∧
          { s.over t with clk := s.clk, link := s.link } = s)) ∧
    (Accepted cardTunedFreq p s → s.pendOp? 0x500 = none → pb ws 0 31 = false → inBand (pf ws 0 0 16) = true →
      let z := ((s.modClk fun c => { c with holds := 0, offered := pf ws 1 0 3 }).wr F.OUT_SW_PLACE_FT (pf ws 0 0 16)).showSw
      z.placementRuns = true →
        (z.plan.result ≠ 1 ∧ z.plan.result ≠ 2 → ∃ ws', Answers (.tunedFreq p) cardTunedFreq p s 0 0 ws' fun t =>
          t.rd F.OUT_SW_PLACE_FT = pf ws 0 0 16 ∧ t.swShadow = s.swShadow ∧ (z.plan.left = true → t.on F.OUT_SW_STAT_NOSOLN = true) ∧
          Touches (sw ++ [Reg.OUT_SW_PLACE]) s t ∧ { s.over t with clk := s.clk } = s) ∧
        (z.plan.result = 1 ∨ z.plan.result = 2 → s.freeSlot? ≠ none → s.clk.ramp = none →
          ∃ ws', Awaits (.tunedFreq p) cardTunedFreq p s ws' [.swpll, .placement] fun t =>
            t.rd F.OUT_SW_PLACE_FT = pf ws 0 0 16 ∧ t.swShadow = z.plan.w % 2 ^ 32 ∧ t.on F.OUT_SW_CTRL_UPDATE = true ∧ t.clk.due = true ∧
            t.clk.placing = true ∧ t.swNow = s.swNow)) ∧
    (Accepted cardTunedFreq p s → s.pendOp? 0x500 = none →
      (pb ws 0 31 = true ∨ (inBand (pf ws 0 0 16) = true ∧ s.on F.OUT_SW_PLACE_ENABLE = false)) →
      ∃ c : Nat, Answers (.tunedFreq p) cardTunedFreq p s 0 0
        [w32 (4 * 2 ^ 28 + c), w32 s.swTarget, w32 (packDivs ((List.range 3).map s.swDiv))] fun t =>
          t.rd F.OUT_SW_PLACE_FT = (if pb ws 0 31 then 0 else pf ws 0 0 16) ∧ t.clk = { s.clk with holds := 0, offered := pf ws 1 0 3 } ∧
          Touches (sw ++ [Reg.OUT_SW_PLACE]) s t ∧ { s.over t with clk := s.clk } = s) ∧
    (s.ifaceReady i = true → s.reaches Reg.OUT_SW_CTRL = true → s.on ⟨Reg.HOST_PWSTAT, rgOut, 1⟩ = false → s.link.posted = [] →
      s.lockOpen i = true → s.on F.SAFE_SM_STAT_FALLBACK = false → ∃ t, exec (.swpllUpdate i) s = .next t ∧
        t.on F.OUT_SW_CTRL_UPDATE = true ∧ t.rd F.OUT_SW_CTRL_RTIME = s.rd F.OUT_SW_CTRL_RTIME ∧ t.swTarget = s.swTarget) ∧
    (s.on F.OUT_SW_CTRL_UPDATE = true → s.on F.OUT_SW_STAT_SWON = true → s.clk.ramp = none → s.regrowWaits = false →
      s.rd F.OUT_SW_STAT_SYNCMODE ≠ 2 →
      (s.swDiscards = true → ∃ t, exec .swpllTransfer s = .next t ∧ t.on F.OUT_SW_CTRL_UPDATE = false ∧
        t.on F.OUT_SW_STAT_XFERERR = true ∧ t.clk.due = false ∧
        Touches [Reg.OUT_SW_CTRL, Reg.OUT_SW_STAT] s t ∧ { s.over t with clk := s.clk } = s) ∧
      (s.swDiscards = false → s.swDiff.div = 0 → s.swDiff.en = 0 → ∃ t, exec .swpllTransfer s = .next t ∧
        t.on F.OUT_SW_CTRL_UPDATE = false ∧ t.swTarget = s.swShadow ∧
        (s.swNow ≠ s.swShadow → s.rd F.OUT_SW_CTRL_RTIME ≠ 0 → t.on F.OUT_SW_STAT_RAMP = true ∧ t.swNow = s.swNow ∧
          t.clk.ramp.map (fun r => (r.f0, r.f1, r.ms, r.t)) = some (s.swNow, s.swShadow, min 1000 (s.rd F.OUT_SW_CTRL_RTIME), 0)))) ∧
    (∀ r, s.clk.ramp = some r → s.on F.OUT_SW_STAT_COAST = false → max r.f1 s.swNow - min r.f1 s.swNow ≤ slopeMax s.swNow 1 →
      ∃ t, exec .rampEnd s = .next t ∧
      t.reg Reg.OUT_SW_FREQI = w32 r.f1 ∧ t.clk.ramp = none ∧ t.on F.OUT_SW_STAT_RAMP = false ∧ t.clk.settling = r.coast ∧
      Touches (sw ++ [Reg.OUT_SW_FREQI]) s t ∧ { s.over t with clk := s.clk } = s)

/-! ## Load diagnostics and the headphone jack (spec/10_load_jack_diagnostics.md) -/

/-- The load tests (R478 to R495, R506, R507) on a channel that is no pair: LOAD_DC_TEST takes an Off channel and answers a playing one with
its DCRES, the end of a channel stores its class, LOAD_AC_TEST takes a playing channel (online) or starts an Off one (offline), the two
tones and the ten windows are gathered and the class of the online test is stored. The jack (R499 to R505, R508): an insertion and a
removal are declared, the ratio gives the poles and the button, JACK_STATUS answers the two registers. -/
def Obligations.LoadTestsAndJackGiveResults : Prop :=
  (∀ (p : Packet) (s : State) (n : Fin 12) (mohm : Nat) (cd : Int), Quiet s → s.master n.val = n.val → s.paired n.val = false →
      let k := n.val
      let free := s.testPending? = none ∧ s.chanBusy? [] [k] = none ∧ s.freeSlot? ≠ none
      let ws := p.payload
      let dc := fun (l : List Nat) => { s with diag := { s.diag with dc := l } }
      let ac := fun (a : AcTest) => { s with diag := { s.diag with ac := some a } }
      let fcorr := pf ws 1 8 8 ≠ 0 && pf ws 1 0 8 ≠ 0
      let begun := fun (online : Bool) => (⟨k, online, fcorr, 0, (0, 0), (0, 0), [], 0, false, pf ws 1 8 8, pf ws 1 0 8, pf ws 0 16 8, s.now⟩ : AcTest)
      (Accepted cardLoadDcTest p s → pf ws 0 0 12 = 2 ^ k → s.suspended = false → free →
        (s.phase k = phOff → s.on (F.OUT_G_STAT_PVDDOK (k / 4)) = true → DomUp s (dmGroup (k / 4)) →
          Awaits (.loadDcTest p) cardLoadDcTest p s [w32 (2 ^ k), 0] [.chan k] fun t => t.diag.dc = [k] ∧ Touches [] s t ∧
            { s.over t with diag := s.diag } = s) ∧
        (s.phase k = phPlay → Answers (.loadDcTest p) cardLoadDcTest p s 0 0 [0, w32 (2 ^ k)] fun t =>
          t.rd (F.SAFE_LDIAG_DC_DCRES k) = 8 ∧ Touches [Reg.SAFE_LDIAG_DC k] s t ∧ s.over t = s)) ∧
      (∀ (own slave : ChanTest) (uv ua : Nat) (comp : Bool) (rest : List Nat), s.failing k own slave = [] →
        let node := s.nodeClass k own slave
        let r := dcClass (s.znom k) false (if node = 3 then 0 else node) uv ua comp
        ∃ t, exec (.loadDcChannelDone own slave ⟨uv, ua, comp⟩) (dc (k :: rest)) = .next t ∧
          t.rd (F.SAFE_LDIAG_DC_DCRES k) = r.1 ∧ t.rd (F.SAFE_LDIAG_DC_RDC k) = r.2 % 2 ^ (F.SAFE_LDIAG_DC_RDC k).width ∧
          t.rd (F.SAFE_LDIAG_DC_PFAIL k) = 0 ∧ t.rd (F.SAFE_LDIAG_DC_MFAIL k) = 0 ∧ t.diag.dc = rest ∧
          Touches [Reg.SAFE_LDIAG_DC k] s t ∧ { s.over t with diag := s.diag } = s) ∧
      (Accepted cardLoadAcTest p s → pf ws 0 0 4 = k → s.suspended = false → pf ws 0 16 8 ≤ 60 → free →
        (pf ws 0 8 2 = 1 → 30 ≤ pf ws 0 16 8 → s.pstate = stPlay → s.phase k = phPlay →
          Awaits (.loadAcTest p) cardLoadAcTest p s
            [w32 (3000 * 2 ^ 16 + 2 ^ 8 + k), s.reg (Reg.SAFE_LDIAG_AC k), s.reg (Reg.SAFE_LDIAG_ZLO k), s.reg (Reg.SAFE_LDIAG_ZHI k)]
            [.chan k] fun t => t.diag.ac = some (begun true) ∧ Touches [] s t ∧
              { s.over t with diag := s.diag } = s) ∧
        (pf ws 0 8 2 = 0 → 20 ≤ pf ws 0 16 8 → s.phase k = phOff → (s.spk k).on = false → s.muted = false →
          s.rd F.SAFE_SM_STAT_CSS ≠ 2 → DomUp s (dmGroup (k / 4)) → s.on (F.OUT_G_STAT_PVDDOK (k / 4)) = true →
          s.carrierOn (k / 4) = true → ∃ ws', Awaits (.loadAcTest p) cardLoadAcTest p s ws' [.chan k] fun t =>
            (∃ b : Bool, t.diag.ac = some { begun false with spoilt := b }) ∧ t.phase k = phCheck ∧
            (∀ m, m < 12 → m ≠ k → t.phase m = s.phase m))) ∧
      (∀ a : AcTest, a.chan = k → a.online = false → (s.spk k).on = false → s.phase k = phHold →
        (a.stage = 1 → ∃ t, exec (.acToneDone mohm cd) (ac a) = .next t ∧ t.diag.ac = some { a with stage := 2, lo := loadImpedance mohm cd 1000 a.lf a.cf, mark := s.now } ∧
          t.phase k = phHold) ∧
        (a.stage = 2 → ∃ t, exec (.acToneDone mohm cd) (ac a) = .next t ∧
          (∃ b : Bool, t.diag.ac = some { a with stage := 3, hi := loadImpedance mohm cd 16000 a.lf a.cf, spoilt := b }) ∧
          t.phase k = phDischarge)) ∧
      (∀ a : AcTest, a.chan = k → a.online = true → s.phase k = phPlay → s.inSeq k = false → s.croaking k = false →
        let one := loadImpedance mohm cd 25000 a.lf a.cf
        (a.spoilt = false → a.wins.length < 9 → a.tried < 29 → exec (.acWindow n mohm cd) (ac a) =
          .next (ac { a with wins := a.wins ++ [one], tried := a.tried + 1 })) ∧
        (a.spoilt = true → a.wins.length < 10 → a.tried < 29 → exec (.acWindow n mohm cd) (ac a) =
          .next (ac { a with tried := a.tried + 1, spoilt := false })) ∧
        (a.spoilt = true → a.wins.length < 10 → a.tried = 29 → ∃ t, exec (.acWindow n mohm cd) (ac a) = .next t ∧ t.diag.ac = none ∧
          t.rd (F.SAFE_LDIAG_AC_ACRES k) = 7) ∧
        (a.spoilt = false → a.wins.length = 9 → ∃ t, exec (.acWindow n mohm cd) (ac a) = .next t ∧ t.diag.ac = none ∧
          (let ms := (a.wins ++ [one]).map (·.1)
          t.rd (F.SAFE_LDIAG_AC_ACRES k) = acClass true (spread ms) (s.znom k) 0 (ms.foldl (· + ·) 0) 0
            (tenth (((a.wins ++ [one]).map (·.2)).foldl (· + ·) 0))) ∧
          Touches [Reg.SAFE_LDIAG_AC k, Reg.SAFE_LDIAG_ZLO k, Reg.SAFE_LDIAG_ZHI k] s t ∧ { s.over t with diag := s.diag } = s))) ∧
  (∀ (p : Packet) (s : State) (ratio : BitVec 12), s.jackWatched = true →
      let plugged := s.on F.SAFE_JACK_STAT_PLUG
      let jack := fun (t : State) => Touches [Reg.SAFE_JACK_STAT] s t ∧ s.over t = s
      let jackHp := fun (t : State) => Touches [Reg.SAFE_JACK_STAT, Reg.OUT_HPL_STAT, Reg.IN_FE_STAT] s t ∧
        { s.over t with hp := s.hp, hpcv := s.hpcv, inp := s.inp } = s
      let b := buttonOf ratio.toNat
      (Accepted cardJackStatus p s → Answers (.jackStatus p) cardJackStatus p s 0 0 [s.reg Reg.SAFE_JACK_STAT, s.reg Reg.SAFE_JACK_CFG]
        (PapolBut papolReg (papolByte s) s)) ∧
      (plugged = false → ∃ t, exec .jackInsert s = .next t ∧ t.on F.SAFE_JACK_STAT_PLUG = true ∧ t.on F.SAFE_JACK_STAT_INS = true ∧
        t.rd F.SAFE_JACK_STAT_POLES = (if s.rd F.SAFE_JACK_CFG_JBIAS ≤ 1 then 0 else 1) ∧ jackHp t) ∧
      (plugged = true → ∃ t, exec .jackRemove s = .next t ∧ t.on F.SAFE_JACK_STAT_PLUG = false ∧ t.on F.SAFE_JACK_STAT_REM = true ∧
        t.rd F.SAFE_JACK_STAT_POLES = 0 ∧ t.rd F.SAFE_JACK_STAT_BUTTON = 0 ∧ jackHp t) ∧
      (plugged = true → s.rd F.SAFE_JACK_STAT_POLES = 0 → s.rd F.SAFE_JACK_CFG_JBIAS ≤ 1 → s.suspended = false →
        ∃ t, exec (.jackClassify ratio) s = .next t ∧ t.rd F.SAFE_JACK_STAT_RATIO = ratio.toNat ∧
          t.rd F.SAFE_JACK_STAT_POLES = (if ratio.toNat * 100 < 8 * 4096 then 1 else if ratio.toNat * 100 ≤ 90 * 4096 then 2 else 3) ∧
          t.inp.jackOn = none ∧ jackHp t) ∧
      (s.buttonsOn = true →
        (b ≠ 0 → b ≠ s.rd F.SAFE_JACK_STAT_BUTTON → ∃ t, exec (.buttonPress ratio) s = .next t ∧ t.rd F.SAFE_JACK_STAT_BUTTON = b ∧
          t.on F.SAFE_JACK_STAT_BTNCHG = true ∧ t.rd F.SAFE_JACK_STAT_RATIO = ratio.toNat ∧ jack t) ∧
        (22 * 4096 ≤ ratio.toNat * 100 → ∃ t, exec (.buttonRelease ratio) s = .next t ∧ t.rd F.SAFE_JACK_STAT_BUTTON = 0 ∧
          t.rd F.SAFE_JACK_STAT_RATIO = ratio.toNat ∧
          (ratio.toNat * 100 ≤ 90 * 4096 → s.rd F.SAFE_JACK_STAT_BUTTON ≠ 0 → t.on F.SAFE_JACK_STAT_BTNCHG = true) ∧ jack t)))

/-! ## Inputs, the wake tap and the wake detector (spec/11_inputs_wake.md) -/

/-- The front ends (R510 to R525, R561, R562): AIN_CFG and PDM_CFG write their registers with what settles after them, a gain waits for its
zero crossing, MICBIAS_CFG starts the ramps of what changes. -/
def Obligations.InputFrontEndsAreConfigured : Prop :=
  ∀ (p : Packet) (s : State) (n : Fin 4) (m : Fin 2), s.link.cfgpar = [] →
    let k := n.val
    let ws := p.payload
    let shown := Reg.IN_FE_STAT :: (List.range 4).map Reg.IN_AADC_STAT
    let w := pw ws 1 &&& 0x983FCF00
    let old := s.reg (Reg.IN_AADC_CFG k)
    let men := (s.rd F.IN_PDM_MIC_MEN &&& (255 - pf ws 2 0 8)) ||| (pf ws 1 0 8 &&& pf ws 2 0 8)
    let pdm := (s.putReg Reg.IN_PDM_CFG (pw ws 0 &&& 0x877F8770)).putReg Reg.IN_PDM_MIC (putBits (s.reg Reg.IN_PDM_MIC) 0 8 men)
    (Accepted cardAinCfg p s → pf ws 0 0 4 = 2 ^ k → pf ws 2 0 6 ≤ 42 → s.pendFor? [.ain k] = none → DomUp s (dmAadc k) →
      (pb ws 2 31 = false → s.feRate (pf ws 1 8 4) = pf ws 1 8 4 → Answers (.ainCfg p) cardAinCfg p s 0 0 [] fun t =>
        t.reg (Reg.IN_AADC_CFG k) = w ∧ t.on (F.IN_AADC_STAT_ON k) = bit w 31 ∧
        (bit w 31 = true → bit old 31 = false → 48 ≤ vat t.inp.aadcRun k) ∧
        (bits w 27 2 ≠ bits old 27 2 → t.rd (F.IN_AADC_STAT_PGAACT k) = min 42 (bits w 16 6) ∧ t.on (F.IN_AADC_STAT_PGAPEND k) = false) ∧
        Touches (Reg.IN_AADC_CFG k :: shown) s t ∧ { s.over t with inp := s.inp, link := s.link } = s) ∧
      (pb ws 2 31 = true → Answers (.ainCfg p) cardAinCfg p s 0 0 [] fun t =>
        t.reg (Reg.IN_AADC_CFG k) = putBits old 16 6 (pf ws 2 0 6) ∧
        t.on (F.IN_AADC_STAT_PGAPEND k) = decide (pf ws 2 0 6 ≠ s.rd (F.IN_AADC_STAT_PGAACT k)) ∧
        t.rd (F.IN_AADC_STAT_PGAACT k) = s.rd (F.IN_AADC_STAT_PGAACT k) ∧
        Touches (Reg.IN_AADC_CFG k :: shown) s t ∧ { s.over t with inp := s.inp, link := s.link } = s)) ∧
    (s.on (F.IN_AADC_STAT_PGAPEND k) = true → ∃ t, exec (.pgaApply n) s = .next t ∧
      t.rd (F.IN_AADC_STAT_PGAACT k) = min 42 (s.rd (F.IN_AADC_CFG_PGA k)) ∧ t.on (F.IN_AADC_STAT_PGAPEND k) = false ∧
      SameRegsBut (fun a => a = Reg.IN_AADC_STAT k) s t ∧ { t with regs := s.regs } = s) ∧
    (Accepted cardMicbiasCfg p s → pf ws 0 0 4 ≤ 8 → pf ws 0 8 4 ≤ 8 → s.pendFor? [.micbias 0, .micbias 1] = none →
      Answers (.micbiasCfg p) cardMicbiasCfg p s 0 0 [] fun t => t.reg Reg.IN_MICB_CFG = pw ws 0 &&& 0x8F8F ∧
        (s.inp.jackOn ≠ some m → (vat t.inp.bias m.val).v1 = 100000 * micVolts (pw ws 0 &&& 0x8F8F) m.val) ∧
        (s.inp.jackOn ≠ some m → (vat s.inp.bias m.val).v1 ≠ 100000 * micVolts (pw ws 0 &&& 0x8F8F) m.val →
          t.on ⟨Reg.IN_FE_STAT, 16 + m.val, 1⟩ = true) ∧
        Touches [Reg.IN_MICB_CFG, Reg.IN_FE_STAT] s t ∧ { s.over t with link := s.link, inp := s.inp } = s) ∧
    (∃ t, exec (.micbiasRampDone m) s = .next t ∧ t.on ⟨Reg.IN_FE_STAT, 16 + m.val, 1⟩ = false ∧
      t.inp.bias = vmod s.inp.bias m.val (fun b => { b with v0 := b.v1 }) ∧
      SameRegsBut (fun a => a = Reg.IN_FE_STAT) s t ∧ { t with regs := s.regs, inp := { t.inp with bias := s.inp.bias } } = s) ∧
    (Accepted cardPdmCfg p s → s.divsOk (pw ws 0) = true → pdm.ratiosOk = true → s.pendFor? [.pdm] = none → DomUp s dmPdm →
      Answers (.pdmCfg p) cardPdmCfg p s 0 0 [] fun t => t.reg Reg.IN_PDM_CFG = pw ws 0 &&& 0x877F8770 ∧
        t.rd F.IN_PDM_MIC_MEN = men ∧ t.rd F.IN_PDM_MIC_MODE = s.rd F.IN_PDM_MIC_MODE ∧
        t.on F.IN_FE_STAT_CLK0ON = pb ws 0 15 ∧ t.on F.IN_FE_STAT_CLK1ON = pb ws 0 31 ∧
        Touches ([Reg.IN_PDM_CFG, Reg.IN_PDM_MIC, Reg.PWR_GECKO] ++ shown) s t ∧
        { s.over t with inp := s.inp, link := s.link } = s)

/-- The wake tap and its buffer (R526 to R534, R541, R563): DECIM_CFG writes the tap, a change of what it stores zeroises the buffer, a
period numbers and stores one frame, the end of zeroisation seals the gate. -/
def Obligations.TapStoresFramesAndZeroises : Prop :=
  ∀ (p : Packet) (s : State) (samples : List Sample) (limits : BitVec 2) (m : Fin 2), s.link.cfgpar = [] →
    let ws := p.payload
    let map := pf ws 1 16 12
    let mic := putBits (putBits (s.reg Reg.IN_PDM_MIC) 16 16 (pf ws 0 16 16)) 8 4 (pf ws 0 8 4)
    let remap := map ≠ s.rd F.IN_TAP_CFG_TAPMAP ∨ pf ws 1 30 1 ≠ s.rd F.IN_TAP_CFG_W24
    let retap := pf ws 1 31 1 ≠ s.rd F.IN_TAP_CFG_TAPEN
    let zero := remap ∨ (retap ∧ pf ws 1 31 1 = 0)
    let window := fun (a : Nat) => 0xA00000 ≤ a ∧ a < 0xA80000
    let shown := Reg.IN_FE_STAT :: (List.range 4).map Reg.IN_AADC_STAT
    let old := [Reg.IN_TAD_OLDEST_LO, Reg.IN_TAD_OLDEST_LO + 4]
    (Accepted cardDecimCfg p s → s.feRate (pf ws 0 8 4) = pf ws 0 8 4 → (s.setReg Reg.IN_PDM_MIC mic).ratiosOk = true →
      (indices 12 (inMask map)).length ≤ 8 → 1 ≤ pf ws 1 12 4 → (remap ∨ retap → s.gate = gtSealed) →
      (∀ c ∈ s.wkdSources, inMask map c = true) → s.pendFor? [.decim] = none → DomUp s dmPdm → DomUp s dmTad →
      Answers (.decimCfg p) cardDecimCfg p s 0 0 [] fun t => t.reg Reg.IN_PDM_MIC = mic ∧ t.rd F.IN_TAP_CFG_TAPMAP = map ∧
        t.rd F.IN_TAP_CFG_TAPEN = pf ws 1 31 1 ∧ t.rd F.IN_TAP_CFG_W24 = pf ws 1 30 1 ∧ t.rd F.IN_TAP_CFG_GATETO = pf ws 1 12 4 ∧
        t.rd F.IN_TAD_STAT_NCH = (indices 12 (inMask map)).length ∧ (¬ zero → t.gate = s.gate) ∧
        (zero → t.gate = gtZero ∧ ∀ a, window a → ¬ papolByte s a → t.byte a = 0) ∧
        SameRegsBut (fun a => papolReg a ∨ a ∈ [Reg.IN_PDM_MIC, Reg.IN_TAP_CFG, Reg.IN_TAD_STAT] ++ shown ++ old) s t ∧
        SameBytesBut (fun a => papolByte s a ∨ (zero ∧ window a)) s t ∧
        { s.over t with inp := s.inp, link := s.link, tad := s.tad } = s) ∧
    (stListen ≤ s.pstate → s.tad.again = true → s.on F.IN_TAP_CFG_TAPEN = true → ∃ t, exec (.tapPeriod ⟨samples, limits⟩) s = .next t ∧
      t.tad.tidx = s.tad.tidx + 1 ∧ t.tad.again = false ∧ t.on F.IN_TAD_STAT_PTTLVL = true) ∧
    (stListen ≤ s.pstate → s.tad.again = false → ∃ t, exec (.tapPeriod ⟨samples, limits⟩) s = .next t ∧ t.tad.tidx = s.tad.tidx + 1 ∧
      t.rd64 Reg.IN_TAD_WIDX_LO = (s.tad.tidx + 1) % 2 ^ 64 ∧ t.gate = s.gate ∧
      (s.on F.IN_TAP_CFG_TAPEN = false ∨ s.gate = gtZero → SameBytesBut (fun _ => False) s t) ∧
      (s.on F.IN_TAP_CFG_TAPEN = true → s.gate ≠ gtZero → s.domOn dmTad = true → ∀ ch, ch < s.tapN → ∀ b, b < s.tapBytes →
        t.byte (s.tapAddr s.tad.tidx ch + b) = BitVec.ofNat 8
          (tapCode (s.on F.IN_TAP_CFG_W24) ((s.tapFrame samples).getD ch invalidSample) / 256 ^ b)) ∧
      (limits.getLsbD m.val = true → s.on ⟨Reg.IN_MICB_CFG, 7 + 8 * m.val, 1⟩ = true →
        t.on (if m.val = 0 then F.IN_FE_STAT_MB0OVC else F.IN_FE_STAT_MB1OVC) = true) ∧
      SameBytesBut window s t ∧
      SameRegsBut (fun a => a ∈ [Reg.IN_TAD_WIDX_LO, Reg.IN_TAD_WIDX_LO + 4, Reg.IN_WKD_STAT] ++ old ++ shown) s t ∧
      { t with regs := s.regs, mem := s.mem, inp := s.inp, tad := s.tad, wkd := s.wkd } = s) ∧
    (s.gate = gtZero → s.tad.opens = none → ∃ t, exec .zeroiseDone s = .next t ∧ t.gate = gtSealed ∧
      t.rd64 Reg.IN_TAD_OLDEST_LO = s.rd64 Reg.IN_TAD_WIDX_LO ∧ t.tad.first = s.rd64 Reg.IN_TAD_WIDX_LO ∧
      SameRegsBut (fun a => a ∈ Reg.IN_TAD_STAT :: old) s t ∧ { t with regs := s.regs, tad := s.tad } = s)

/-- The wake detector (R545 to R550, R564): WKD_LOAD pends until the image is checked, which stores the model; WKD_ENABLE starts it; a hop
below the threshold clears the run, a run of the model's length is a detection that opens the sealed gate with its pre-roll. -/
def Obligations.WakeDetectorLoadsAndDetects : Prop :=
  ∀ (p : Packet) (s : State) (score : BitVec 8),
    let ws := p.payload
    let ofs := pf ws 0 2 19 * 4
    (Accepted cardWkdLoad p s → s.spanOn ofs (pf ws 1 0 21) = true → s.on F.IN_WKD_CFG_EN = false → Free s [.wkd] → DomUp s dmWkd →
      let h := (s.admitted cardWkdLoad p).words (0x800000 + ofs) 6
      Awaits (.wkdLoad p) cardWkdLoad p s [pw h 2, w32 (pf h 5 24 8 * 2 ^ 24 + pf h 4 0 18)] [.wkd] fun t => Touches [] s t ∧
        s.over t = s) ∧
    (∀ e, s.atWork? 0x410 = some e →
      let img := s.words (0x800000 + pf e.payload 0 2 19 * 4) (pf e.payload 1 0 21 / 4)
      s.poisonIn (pf e.payload 0 2 19 * 4) (pf e.payload 1 0 21) = [] → s.wkdCheck img (pf e.payload 1 0 21) (pw e.payload 2) = none →
      ∃ t, exec .wkdLoadDone s = .next t ∧ Ended (some e) stsOk s t ∧ t.on F.IN_WKD_CFG_LOADED = true ∧ t.reg Reg.IN_WKD_MODEL = pw img 2 ∧
        t.wkd.model.map (fun m => (m.thrdef, m.hops, m.nin)) = some (pf img 5 24 8, pf img 5 16 4, pf img 5 0 2) ∧
        Touches [Reg.IN_WKD_CFG, Reg.IN_WKD_MODEL] s t ∧ { s.over t with wkd := s.wkd } = s) ∧
    (Accepted cardWkdEnable p s → s.pendFor? [.wkd] = none →
      (pb ws 0 31 = false → Answers (.wkdEnable p) cardWkdEnable p s 0 0 [] fun t =>
        t.wkd = (if s.on F.IN_WKD_CFG_EN then { s.wkd with stop := true } else s.wkd) ∧ Touches [] s t ∧
          { s.over t with wkd := s.wkd } = s) ∧
      (∀ m, pb ws 0 31 = true → s.wkd.model = some m → pf ws 0 16 4 < 12 → inMask (s.rd F.IN_TAP_CFG_TAPMAP) (pf ws 0 16 4) = true →
        (pf ws 0 20 4 ≠ 0xF → pf ws 0 20 4 < 12 ∧ inMask (s.rd F.IN_TAP_CFG_TAPMAP) (pf ws 0 20 4) = true) →
        (m.nin = 2 → pf ws 0 20 4 ≠ 0xF) → s.on F.IN_TAP_CFG_TAPEN = true → DomUp s dmWkd →
        Answers (.wkdEnable p) cardWkdEnable p s 0 0 [] fun t => t.on F.IN_WKD_CFG_EN = true ∧
          t.rd F.IN_WKD_CFG_SRC0 = pf ws 0 16 4 ∧ t.rd F.IN_WKD_CFG_SRC1 = pf ws 0 20 4 ∧ t.rd F.IN_WKD_CFG_THR = pf ws 0 8 8 ∧
          t.wkd.run = 0 ∧ t.wkd.quiet = 0 ∧ t.wkd.model = some m ∧ Touches [Reg.IN_WKD_CFG] s t ∧ { s.over t with wkd := s.wkd } = s)) ∧
    (∀ m, s.wkd.model = some m → s.on F.IN_WKD_CFG_EN = true → s.wkd.stop = false →
      let thr := if s.rd F.IN_WKD_CFG_THR = 0 then m.thrdef else s.rd F.IN_WKD_CFG_THR
      let start := max (s.rd64 Reg.IN_TAD_OLDEST_LO) (160 * (s.tad.tidx / 160) - 1 - 160 * s.rd F.IN_WKD_CFG_PREROLL)
      (s.wkd.fed < 400 → ∃ t, exec (.wkdHop score) s = .next t ∧ t.wkd.run = 0 ∧ t.gate = s.gate ∧ { t with wkd := s.wkd } = s) ∧
      (400 ≤ s.wkd.fed → score.toNat < thr → 1 ≤ m.hops → ∃ t, exec (.wkdHop score) s = .next t ∧ t.rd F.IN_WKD_STAT_SCORE = score.toNat ∧
        t.wkd.run = 0 ∧ t.wkd.quiet = s.wkd.quiet - 1 ∧ t.gate = s.gate ∧
        SameRegsBut (fun a => a = Reg.IN_WKD_STAT) s t ∧ { t with regs := s.regs, wkd := s.wkd } = s) ∧
      (400 ≤ s.wkd.fed → thr ≤ score.toNat → m.hops ≤ s.wkd.run + 1 → s.wkd.quiet = 0 → s.gate = gtSealed → ∃ t, exec (.wkdHop score) s = .next t ∧
        t.on F.IN_WKD_STAT_DET = true ∧ t.rd F.IN_WKD_STAT_DETCNT = min (s.rd F.IN_WKD_STAT_DETCNT + 1) 255 ∧
        t.wkd.run = 0 ∧ t.wkd.quiet = 50 ∧ t.gate = gtOpen ∧ t.tad.timer = some s.now ∧ t.rd64 Reg.IN_TAD_GSTART_LO = start % 2 ^ 64 ∧
        t.rd64 Reg.IN_TAD_GOPEN_LO = s.rd64 Reg.IN_TAD_WIDX_LO ∧ SameBytesBut (papolByte s) s t))

/-- The gate, PTT_N and the handover (R536 to R542, R551 to R557, R565): a press opens the sealed gate, a release closes it where RELCLOSE
says so, the timer and CLOSE seal it, WAKE_HANDOVER opens a stream on the readable span. -/
def Obligations.GateOpensHandsOverAndSeals : Prop :=
  ∀ (p : Packet) (s : State),
    let ws := p.payload
    let q : Packet := { p with payload := p.payload.modifyHead (· ||| 0x80000000) }
    let gateRegs := Reg.IN_TAD_STAT :: (List.range 4).map fun k => Reg.IN_TAD_GSTART_LO + 4 * k
    let noHandover := ∀ x ∈ s.strs, s.isHandover x.sid = false
    (Accepted cardPttCfg p s → s.pendFor? [.ptt] = none → Answers (.pttCfg p) cardPttCfg p s 0 0 [] fun t =>
      t.rd F.IN_TAP_CFG_PTTEN = pf ws 0 31 1 ∧ t.rd F.IN_TAP_CFG_RELCLOSE = pf ws 0 30 1 ∧ t.rd F.IN_TAP_CFG_PTTPRE = pf ws 0 0 8 ∧
      (pb ws 0 31 = false → t.on F.IN_TAD_STAT_PTTLVL = false ∧ t.tad.again = false) ∧ t.gate = s.gate ∧
      Touches [Reg.IN_TAP_CFG, Reg.IN_TAD_STAT] s t ∧ { s.over t with tad := s.tad } = s) ∧
    (stListen ≤ s.pstate → s.on F.IN_TAP_CFG_PTTEN = true → s.on F.IN_TAD_STAT_PTTLVL = false →
      (s.on F.IN_TAP_CFG_TAPEN = true → s.gate = gtSealed → ∃ t, exec .pttPress s = .next t ∧ t.on F.IN_TAD_STAT_PTTLVL = true ∧
        t.gate = gtOpen ∧ t.tad.timer = some s.now ∧ Touches gateRegs s t ∧ { s.over t with tad := s.tad } = s ∧
        t.rd64 Reg.IN_TAD_GSTART_LO =
          max (s.rd64 Reg.IN_TAD_OLDEST_LO) (s.tad.tidx - 160 - 160 * s.rd F.IN_TAP_CFG_PTTPRE) % 2 ^ 64) ∧
      (s.on F.IN_TAP_CFG_TAPEN = false → ∃ t, exec .pttPress s = .next t ∧ t.on F.IN_TAD_STAT_PTTLVL = true ∧ t.gate = s.gate ∧
        Touches [Reg.IN_TAD_STAT] s t ∧ { s.over t with draw := s.draw } = s)) ∧
    (stListen ≤ s.pstate → s.on F.IN_TAP_CFG_PTTEN = true → s.on F.IN_TAD_STAT_PTTLVL = true → s.gate = gtOpen → ∃ t, exec .pttRelease s = .next t ∧
      t.on F.IN_TAD_STAT_PTTLVL = false ∧ t.tad.again = false ∧
      (s.openingNow = none → t.gate = (if s.on F.IN_TAP_CFG_RELCLOSE then gtSealed else gtOpen)) ∧
      (∀ o, s.openingNow = some o → o.anew = true → t.gate = gtOpen) ∧
      (noHandover → Touches gateRegs s t ∧ { s.over t with tad := s.tad } = s)) ∧
    (s.gateExpired = true → s.gate = gtOpen → s.openingNow = none → noHandover → ∃ t, exec .gateTimeout s = .next t ∧ t.gate = gtSealed ∧
      t.tad.timer = none ∧ SameRegsBut (fun a => a = Reg.IN_TAD_STAT) s t ∧ { t with regs := s.regs, tad := s.tad } = s) ∧
    (Accepted cardWakeHandover q s → s.gate = gtOpen → s.openingNow = none → noHandover →
      ∃ a b, Answers (.wakeHandoverClose p) cardWakeHandover q s 0 0 [0, a, b, w32 (s.rd F.IN_TAD_STAT_CAP)] fun t =>
        t.gate = gtSealed ∧ t.tad.timer = none ∧ Touches [Reg.IN_TAD_STAT] s t ∧
        { s.over t with tad := s.tad, draw := s.draw } = s) ∧
    (∀ sid, Accepted cardWakeHandover p s → pb ws 0 31 = false →
      let ring := pf ws 0 16 4
      let nch := pf ws 0 12 3 + 1
      let g0 := s.rd64 Reg.IN_TAD_GSTART_LO
      let i0 := if pf ws 0 28 2 = 0 then g0 else if pf ws 0 28 2 = 1 then g0 + pf ws 1 0 20 else s.rd64 Reg.IN_TAD_WIDX_LO
      pf ws 0 28 2 ≠ 3 → pf ws 0 8 3 + nch ≤ s.tapN → pf ws 0 24 2 ≠ 3 → 4 ≤ ring → s.ringOn ring = true →
      s.on (F.DSP_RING_CFG_DIR ring) = true → s.gate = gtOpen → g0 ≤ i0 → i0 ≤ s.rd64 Reg.IN_TAD_WIDX_LO →
      s.sidPick (pf ws 0 0 7) = some sid → s.claimed 6 ring nch false = false → s.pendFor? [.stream sid, .gate] = none →
      Answers (.wakeHandover p) cardWakeHandover p s 0 0 [w32 (2 ^ 30 + sid), w32 i0, w32 (i0 / 2 ^ 32), w32 (s.rd F.IN_TAD_STAT_CAP)]
        fun t => t.rd (F.DSP_STR_STAT_STATE sid) = stmWait ∧ t.rd (F.DSP_STR_CFG_STYPE sid) = 0xA ∧
          t.rd (F.DSP_STR_CFG_DTYPE sid) = 6 ∧ t.rd (F.DSP_STR_CFG_DIDX sid) = ring ∧ t.strCh sid = nch ∧
          t.rd64 (Reg.DSP_STR_IDX_LO sid) = i0 ∧ t.tad = { s.tad with timer := none } ∧ t.gate = gtOpen ∧
          t.strs = s.strs ++ [newStreamX sid 0 0 0 nch] ∧ Touches ((List.range 8).map fun k => Reg.DSP_STR_CFG sid + 4 * k) s t ∧
          { s.over t with strs := s.strs, tad := s.tad } = s)

/-! ## Monitoring converters (spec/13_monitoring_converters.md) -/

/-- The monitoring converters (R601 to R615): a plausibility pair within PTHR clears DCNT, the fourth one outside it asks for arbitration,
which fails the converter whose test is bad and otherwise takes reaction O; a failed converter leaves the other as the sole one, RESUME ends
the suspension; MADC_READ and TDAC_TEST answer their results. -/
def Obligations.MonitorConvertersArbitrateAndFailOver : Prop :=
  ∀ (p : Packet) (s : State) (i : Iface) (m : Fin 2) (a0 a1 : MadcConv) (u0 u1 l0 h0 l1 h1 : Nat), s.chipSafe = false → s.madc.tdac = none →
    let ws := p.payload
    let k := m.val
    let c0 := madcCode a0.volts
    let c1 := madcCode a1.volts
    let gap := if c0 < c1 then c1 - c0 else c0 - c1
    let slot := fun (t : State) => SameRegsBut (fun a => a = Reg.SAFE_MADC_PLAUS ∨ a = Reg.OUT_G_STAT 0 ∨ a = Reg.SAFE_MADC_STAT 0 ∨
      a = Reg.SAFE_MADC_STAT 1) s t ∧ { t with regs := s.regs, madc := s.madc, groups := s.groups } = s
    let settled := 17 ≤ a0.settle ∧ 17 ≤ a1.settle ∧ 336 ≤ a0.bufOn ∧ 336 ≤ a1.bufOn
    let mk := pf ws 0 31 1
    let inp := pf ws 0 16 5
    let failed := fun (t : State) => t.mrole k = rlFailed ∧ t.on (F.SAFE_MADC_STAT_TDACERR k) = true
    (a0.late = false → a1.late = false → s.serves 0 = true → s.serves 1 = true →
      (∃ t, exec (.madcSlot (a0, a1)) s = .next t ∧ t.madc.slot = (if s.madc.slot = 249 then 0 else s.madc.slot + 1) ∧
        vat t.madc.queue k = afterSlot ((s.slotConv k).bind (·.2)) (vat s.madc.queue k) (s.slotReqs k (s.slotConv k) (if k = 0 then a0 else a1)) ∧
        t.rd (F.SAFE_MADC_STAT_DEFCNT k) = min (s.rd (F.SAFE_MADC_STAT_DEFCNT k) + ((vat t.madc.queue k).filter fun w => w.waited = 251).length)
          (2 ^ (F.SAFE_MADC_STAT_DEFCNT k).width - 1)) ∧
      (∀ (n : Fin 12) (e : (Nat × Nat × Nat) × Option Nat), settled → s.madc.slot % 10 ≠ 0 → s.slotConv k = some e →
        e.1.1 = 1 → e.1.2.1 = 3 + n.val → (∀ f, s.slotConv (1 - k) = some f → f.1.2.1 ≠ 3 + n.val) →
        let c := if k = 0 then c0 else c1
        ∃ t, exec (.madcSlot (a0, a1)) s = .next t ∧ (t.spk n.val).amps = (if c < 2048 then 2048 - c else c - 2048)) ∧
      (s.madc.slot % 10 = 0 → gap ≤ s.pthr → ∃ t, exec (.madcSlot (a0, a1)) s = .next t ∧ t.rd F.SAFE_MADC_PLAUS_DCNT = 0 ∧
        t.rd F.SAFE_MADC_PLAUS_CODE0 = c0 ∧ t.rd F.SAFE_MADC_PLAUS_CODE1 = c1 ∧ slot t) ∧
      (s.madc.slot % 10 = 0 → s.pthr < gap → ∃ t, exec (.madcSlot (a0, a1)) s = .next t ∧
        t.rd F.SAFE_MADC_PLAUS_DCNT = min 15 (s.rd F.SAFE_MADC_PLAUS_DCNT + 1) ∧ t.on (F.SAFE_MADC_STAT_PLAUS k) = true ∧
        (3 ≤ s.rd F.SAFE_MADC_PLAUS_DCNT → s.madc.arb = false → t.madc.arb = true ∧ ∃ r ∈ t.saf.recs, r.code = 0xA01 ∧ r.unit = 0) ∧
        (s.rd F.SAFE_MADC_PLAUS_DCNT < 3 → slot t))) ∧
    (s.madc.arb = true → s.saf.work.any (fun w => w.isFor rgSafe 0xA01 0 0) = true →
      (∀ w ∈ s.saf.work, w.region = rgSafe → w.isFor rgSafe 0xA01 0 0 = true) → s.mrole 0 = rlNormal → s.mrole 1 = rlNormal →
      (coreOk l0 h0 ≠ coreOk l1 h1 → coreOk (if k = 0 then l0 else l1) (if k = 0 then h0 else h1) = false →
        ∃ t, exec (.madcArbitrate l0 h0 l1 h1) s = .next t ∧ failed t ∧ t.mrole (1 - k) = rlNormal ∧ t.madc.arb = false ∧
          t.madc.plan = true ∧ ∃ r ∈ t.saf.recs, r.code = 0xA02 ∧ r.unit = k) ∧
      (coreOk l0 h0 = coreOk l1 h1 → ∃ t, exec (.madcArbitrate l0 h0 l1 h1) s = .next t ∧ t.rd F.SAFE_SM_STAT_CSS = 2 ∧
        t.madc.arb = false)) ∧
    (s.madc.plan = true → s.saf.work.any (fun w => w.isFor rgSafe 0xA02 0 k) = true →
      (∀ w ∈ s.saf.work, w.region = rgSafe → w.wait = false) → s.serves k = false → s.serves (1 - k) = true → ∃ t, exec .madcFailover s = .next t ∧
      t.mrole (1 - k) = rlSole ∧ t.on (F.SAFE_MADC_STAT_SUSP 0) = true ∧ t.on (F.SAFE_MADC_STAT_SUSP 1) = true ∧
      t.madc.plan = false ∧ t.madc.odd = 0 ∧ t.madc.slot = 0) ∧
    (s.serves k = true → coreOk l0 h0 = false → s.handling rgSafe = false → ∃ t, exec (.madcCoreTest m l0 h0) s = .next t ∧ failed t ∧
      (s.mrole (1 - k) = rlNormal → s.mrole k ≠ rlSole → t.madc.plan = true ∧ t.rd F.SAFE_SM_STAT_CSS = 0) ∧
      (s.mrole k = rlSole → t.rd F.SAFE_SM_STAT_CSS = 2)) ∧
    (exec (.mrefCheck m true) s = .next s ∧ ∃ t, exec (.mrefCheck m false) s = .next t ∧ t.on F.SAFE_MADC_CFG_REFMODE = true ∧
      t.on (F.SAFE_MADC_STAT_REFFB k) = true ∧ ∃ r ∈ t.saf.recs, r.code = 0xA03 ∧ r.unit = k) ∧
    (s.ifaceReady i = true → s.on ⟨Reg.HOST_PWSTAT, rgSafe, 1⟩ = false → s.link.posted = [] → s.link.cfgpar = [] → s.lockOpen i = true →
      s.mrole k = rlSole → ∃ t, exec (.resume i) s = .next t ∧ t.on (F.SAFE_MADC_STAT_SUSP 0) = false ∧
        t.on (F.SAFE_MADC_STAT_SUSP 1) = false ∧ t.mrole k = rlSole ∧ t.link.posted = []) ∧
    (Accepted cardMadcRead p s → s.serves mk = true → s.suspended = false → pf ws 0 0 3 = 0 → inp ≤ 23 →
      let code := if inp = 0 then s.rd (if mk = 0 then F.SAFE_MADC_PLAUS_CODE0 else F.SAFE_MADC_PLAUS_CODE1) else madcCode u0
      (15 ≤ inp → inp ≤ 20 → s.groupOff (inputGroup inp) = true) →
      ∃ w, bits w 0 12 = code ∧ bits w 16 5 = inp ∧ bit w 31 = true ∧
        Answers (.madcRead p [u0] false false) cardMadcRead p s 0 0 [w, w32 (code * 2 ^ 16 + code)] fun t =>
          t.reg (Reg.SAFE_MADC_LAST mk) = w ∧ Touches [Reg.SAFE_MADC_LAST mk] s t ∧ { s.over t with madc := s.madc } = s) ∧
    (Accepted cardTdacTest p s → s.serves mk = true → s.suspended = false → pf ws 0 8 2 = 0 → s.pendFor? [.tdac] = none →
      let r0 := madcCode u0
      let r1 := madcCode u1
      let pass := tdacOk r0 (pf ws 1 16 10) && tdacOk r1 (pf ws 1 0 10)
      (s.madc.arb = false → ∃ w, bits w 0 12 = r1 ∧ bits w 16 5 = 23 ∧ Answers (.tdacTest p u0 u1) cardTdacTest p s 0 0
        [w32 (b2n pass * 2 ^ 31 + r0 * 2 ^ 16 + r1), w] fun t => t.reg (Reg.SAFE_MADC_LAST mk) = w ∧
          Touches [Reg.SAFE_MADC_LAST mk] s t ∧ s.over t = s) ∧
      (s.madc.arb = true → s.freeSlot? ≠ none → Awaits (.tdacTest p u0 u1) cardTdacTest p s [] [.tdac] fun t =>
        t.madc.tdac.isSome = true ∧ Touches [] s t ∧ { s.over t with madc := s.madc } = s))

/-! ## Safety (spec/15_safety.md) -/

/-- The safety commands (R691, R695 to R698): SAFETY_CFG writes its registers as the fuses allow, FAULT_READ answers a record, FAULT_CLEAR
takes LATCHED from what is no longer active, SELFTEST_RUN pends up to its end, SAFE_RELEASE leaves the chip safe state. -/
def Obligations.SafetyCommandsComplete : Prop :=
  ∀ (p : Packet) (s : State), s.link.cfgpar = [] → (∀ k, k < 8 → (s.slot k).kind = 0 ∧ (s.slot k).active = false) →
    (∀ r ∈ s.saf.recs, r.code ≠ 0x30A) →
    let ws := p.payload
    let shown := [Reg.SAFE_FN_STAT, Reg.SAFE_SM_STAT]
    let cl := s.smClamps ws
    let off := ∀ n, n < 12 → s.phase n = phOff ∨ s.phase n = phSlave
    (Accepted cardSafetyCfg p s → s.chipSafe = false → off → pf ws 2 0 8 ≤ 24 → (pf ws 3 0 4 ≤ 11 ∨ pf ws 3 0 4 = 0xF) →
      (pf ws 3 12 4 ≤ 11 ∨ pf ws 3 12 4 = 0xF) → (pf ws 3 0 4 = 0xF → pf ws 3 12 4 = 0xF) →
      Answers (.safetyCfg p) cardSafetyCfg p s (if cl.isEmpty then stsOk else stsClamped) ((cl.head?.map Clamp.field).getD 0) [] fun t =>
        t.reg Reg.SAFE_SM_CFG = s.smCfg (pw ws 0) ∧ t.reg Reg.SAFE_SM_CFG2 = s.smCfg2 (pw ws 1) ∧
        t.rd F.SAFE_SM_LOUD_LOUDTHR = pf ws 2 0 8 ∧ (pf ws 3 0 4 = 0xF → t.saf.valt = []) ∧
        (pf ws 3 0 4 ≤ 11 → pf ws 3 12 4 ≤ 11 → (pf ws 3 0 4, pf ws 3 12 4) ∈ t.saf.valt) ∧
        SameRegsBut (fun a => spkReg a ∨ a ∈ [Reg.SAFE_SM_CFG, Reg.SAFE_SM_CFG2, Reg.SAFE_SM_LOUD, Reg.IN_FE_STAT] ++ shown ++
          (List.range 4).map Reg.IN_AADC_STAT) s t ∧ { s.over t with saf := s.saf, crk := s.crk, out := s.out, link := s.link } = s) ∧
    (∀ r, Accepted cardFaultRead p s →
      (if pf ws 0 0 16 = 0 then s.saf.recs.getLast? else s.saf.recs.find? fun q => q.recno = pf ws 0 0 16) = some r →
      Answers (.faultRead p) cardFaultRead p s 0 0 r.words (PapolBut papolReg (papolByte s) s)) ∧
    (Accepted cardFaultClear p s →
      let cleared := fun (sel : FaultRec → Bool) (t : State) =>
        t.saf.recs = s.saf.recs.map (fun r => if sel r then { r with latched := false } else r) ∧
        Touches (Reg.CTL_REG_STAT :: shown) s t ∧ { s.over t with saf := s.saf, age := s.age } = s
      (pf ws 0 0 16 = 0xFFFF → Answers (.faultClear p) cardFaultClear p s 0 0 [] (cleared fun r => !r.active)) ∧
      (∀ r, pf ws 0 0 16 ≠ 0xFFFF → s.saf.recs.find? (fun q => q.recno = pf ws 0 0 16) = some r → r.active = false →
        Answers (.faultClear p) cardFaultClear p s 0 0 [] (cleared fun q => q.recno = pf ws 0 0 16))) ∧
    (Accepted cardSelftestRun p s → s.chipSafe = false → (pb ws 0 0 = true → s.rd F.DSP_SPARE_SPMAP ≠ 0 ∧ s.graph.molt = none) →
      (pb ws 0 2 = true → s.on F.SAFE_SM_CFG_FNTEST = true) → Free s [.selftest] →
      Awaits (.selftestRun p) cardSelftestRun p s [] [.selftest] fun t => t.saf = { s.saf with mark := s.saf.next, pulse := pb ws 0 2 } ∧
        (pb ws 0 2 = true → t.on F.SAFE_FN_STAT_DRIVE = true) ∧ Touches shown s t ∧ { s.over t with saf := s.saf } = s) ∧
    (∀ (e : PendEntry) (unit : Fin 12), s.atWork? 0x703 = some e →
      ∃ t, exec (.selftestDone 0 unit) s = .next t ∧ Ended (some e) stsOk s t ∧ t.saf = { s.saf with pulse := false } ∧
        (pb e.payload 0 2 = true → t.on F.SAFE_FN_STAT_TESTED = true) ∧ Touches shown s t ∧ { s.over t with saf := s.saf } = s) ∧
    (Accepted cardSafeRelease p s → s.chipSafe = true → pf ws 0 0 16 = s.saf.cause → s.saf.fixed = false →
      Free s [.safestate] → s.atWork? 0x704 = none → NewKey p s →
      (∀ r ∈ s.saf.recs, r.recno = s.saf.cause → r.active = false) → ∃ t, exec (.safeRelease p) s = .next t ∧
        t.rd F.SAFE_SM_STAT_CSS = 0 ∧ t.saf.cause = 0 ∧ t.atWork? 0x704 = none ∧ Replied t cardSafeRelease p stsOk 0 [] ∧
        SameBytesBut (papolByte s) s t)

/-- The supervisor and the monitor themselves (R677 to R681; spec/01_architecture.md, R24 to R26): each lock stop is recorded, halts what
it is in and ends with the restart, a missed deadline passes its fault to the next level up to chip level, the release latch and the
ball are watched. The restarts in a chip safe state are the model's choice (log entry 68), as is where a DEADLINE counts (log entry 104). -/
def Obligations.SupervisorAndMonitorAreRestarted : Prop :=
  ∀ (s : State) (ecc high : Bool) (rg : Fin 5),
    let recorded := fun (t : State) (code : Nat) => ∃ r ∈ t.saf.recs, r.code = code
    let atRestart := s.saf.work.any fun w => w.region = rgCtl && w.code ≤ 2
    let atMonitor := s.saf.work.any fun w => w.region = rgSafe && w.code = 0x703
    (s.pap.run = .running → ∃ t, exec (.suplock ecc) s = .next t ∧ t.pap.run = .halted ∧ recorded t (if ecc then 2 else 1) ∧
      (s.chipSafe = false → ∃ w ∈ t.saf.work, w.isFor rgCtl (if ecc then 2 else 1) 0 0 = true ∧ w.met = false) ∧
      (∀ r, t.papolReady r = false) ∧ SameBytesBut (fun _ => False) s t) ∧
    (s.pap.run = .halted → stListen ≤ s.pstate →
      (atRestart = true → ∃ t, exec .supervisorRestart s = .next t ∧ t.pap.run = .running ∧ t.pap.reports = [] ∧ t.saf.recs = s.saf.recs) ∧
      (atRestart = false → exec .supervisorRestart s = .next s)) ∧
    (∀ w, s.saf.work.find? (fun w => w.region = rg.val && !w.met) = some w → s.chipSafe = false →
      (w.level < 3 → ∃ t, exec (.deadlineExpire rg) s = .next t ∧ t.on (errOverrun rg.val) = true ∧
        { w with level := w.level + 1 } ∈ t.saf.work ∧ t.saf.recs = s.saf.recs) ∧
      (3 ≤ w.level → Still s → ∃ t, exec (.deadlineExpire rg) s = .next t ∧ t.on (errOverrun rg.val) = true ∧ recorded t 0x702 ∧
        ∀ v ∈ t.saf.work, v.isFor rg.val w.code w.sub w.unit = false)) ∧
    (s.saf.work.find? (fun w => w.region = rg.val && !w.met) = none ∨ s.chipSafe = true → exec (.deadlineExpire rg) s = .next s) ∧
    (s.on F.SAFE_SM_STAT_SMOK = true → s.chipSafe = false → s.saf.smAt = none → ∃ t, exec .smlock s = .next t ∧
      t.on F.SAFE_SM_STAT_SMOK = false ∧ t.on F.SAFE_FN_STAT_DRIVE = true ∧ t.saf.smAt = some s.now ∧ recorded t 0x703 ∧
      t.chipSafe = false ∧ ∃ w ∈ t.saf.work, w.isFor rgSafe 0x703 0 0 = true) ∧
    (s.on F.SAFE_SM_STAT_SMOK = true → ∀ at', s.saf.smAt = some at' → s.now - at' < 24576000 → ∃ t, exec .smlock s = .next t ∧
      t.on F.SAFE_SM_STAT_SMOK = false ∧ t.rd F.SAFE_SM_STAT_CSS = 2) ∧
    (s.on F.SAFE_SM_STAT_SMOK = false →
      (atMonitor = true → ∃ t, exec .safetyMonitorRestart s = .next t ∧
        t.on F.SAFE_SM_STAT_SMOK = true ∧ t.saf.latch = true ∧ t.saf.recs = s.saf.recs ∧ t.on F.SAFE_FN_STAT_DRIVE = t.fnDemand) ∧
      (atMonitor = false → exec .safetyMonitorRestart s = .next s)) ∧
    (∃ t, exec .smwdog s = .next t ∧ (Still s → recorded t 0x704) ∧ t.rd F.SAFE_SM_STAT_CSS = 2 ∧ t.saf.fixed = true) ∧
    (∃ t, exec .fnLatchExpire s = .next t ∧ t.saf.latch = false ∧ t.on F.SAFE_FN_STAT_DRIVE = true ∧
      SameRegsBut (fun a => a = Reg.SAFE_FN_STAT ∨ a = Reg.SAFE_SM_STAT) s t ∧ { t with regs := s.regs, saf := s.saf } = s) ∧
    (s.on F.SAFE_SM_STAT_SMOK = true → ∃ t, exec (.fnReadback high) s = .next t ∧ t.on F.SAFE_FN_STAT_LEVEL = high ∧ t.saf.latch = true ∧
      (s.on F.SAFE_FN_STAT_DRIVE = false → high = false → t.on F.SAFE_FN_STAT_FNEXT = true) ∧
      (s.on F.SAFE_FN_STAT_DRIVE = true → high = true → s.saf.fnHigh = true → t.on F.SAFE_FN_STAT_FNPIN = true ∧ recorded t 0x705) ∧
      (s.on F.SAFE_FN_STAT_DRIVE ≠ high → t.saf.recs = s.saf.recs))

/-- The detectors (R661 to R669, R672, R682 to R684, R694; spec/03_register_access.md, R131 to R134): a parity mismatch of a channel
register, a loud output, a wrong duty, a voter, the ALERT pair, a voice source, a clock, the oscillator and a supply are recorded with
their code and have their local effect; a test that passes changes nothing. -/
def Obligations.DetectorsRecordWhatTheyFind : Prop :=
  ∀ (s : State) (n : Fin 12) (legM : Bool), Still s → s.chipSafe = false → s.master n.val = n.val →
    let k := n.val
    let h := k / 4
    let j := nodeOf k (b2n legM)
    let recorded := fun (t : State) (code unit : Nat) => ∃ r ∈ t.saf.recs, r.code = code ∧ r.unit = unit
    let at' : BitVec 24 := BitVec.ofNat 24 (Reg.OUT_SPK_CFG k)
    (s.link.badParity = [] → s.link.cfgpar = [] → ∀ flip : BitVec 33,
      let up := flip.extractLsb' 0 32 &&& 0xFFFFFFC0
      let odd := (popcount up + b2n (flip.getLsbD 32)) % 2 = 1
      ∃ t, exec (.parityScan at' flip) s = .next t ∧ t.reg (Reg.OUT_SPK_CFG k) = s.reg (Reg.OUT_SPK_CFG k) ^^^ up ∧
        (¬ odd → SameRegsBut (fun a => a = Reg.OUT_SPK_CFG k) s t ∧ { t with regs := s.regs } = s) ∧
        (odd → recorded t 0x701 0 ∧ t.cfgBad (Reg.OUT_SPK_CFG k) = true ∧ t.on F.SAFE_CFGPAR_ADDR_VALID = true ∧
          (s.on F.SAFE_CFGPAR_ADDR_VALID = false → t.rd F.SAFE_CFGPAR_ADDR_ADDR = Reg.OUT_SPK_CFG k) ∧
          t.phase k = if s.phase k = phSlave ∨ held (s.phase k) then s.phase k else phFault)) ∧
    (∀ i0 i1 i2 i3 : BitVec 12, s.on F.SAFE_SM_STAT_SMOK = true → inMask (s.rd F.SAFE_SM_CFG2_LOUDEN) k = true → s.phase k = phPlay →
      let loud := loudExceeds (isnsSq i0 + isnsSq i1 + isnsSq i2 + isnsSq i3) (s.znom k) (s.rd F.OUT_SPK_FUSE_PCEIL)
        (s.rd F.SAFE_SM_LOUD_LOUDTHR)
      (loud = false → exec (.loud n i0 i1 i2 i3) s = .next s) ∧
      (loud = true → ∃ t, exec (.loud n i0 i1 i2 i3) s = .next t ∧ t.phase k = phFault ∧ recorded t 0x30D k ∧
        ∀ m, m < 12 → m ≠ k → t.phase m = s.phase m)) ∧
    (∀ m0 p0 m1 p1 : BitVec 16,
      (dutyOff m0 p0 = false ∨ dutyOff m1 p1 = false ∨ s.modelBusy k = true → exec (.dutyCheck n ⟨legM, m0, p0, m1, p1⟩) s = .next s) ∧
      (dutyOff m0 p0 = true → dutyOff m1 p1 = true → s.modelBusy k = false → s.legActs h j = true → s.xstate h = xsReady →
        s.onSpare h j = false → s.handling rgOut = false → ∃ t, exec (.dutyCheck n ⟨legM, m0, p0, m1, p1⟩) s = .next t ∧
          t.onSpare h j = true ∧ t.xstate h = xsInUse ∧ inMask (t.grp h).failed j = true)) ∧
    (∃ t, exec (.loopmod n) s = .next t ∧ recorded t 0x30E k ∧ (t.spk k).modelAt = some s.now ∧ t.rd (errRep rgOut) = min (s.rd (errRep rgOut) + 1) 255 ∧
      ∀ m, m < 12 → t.phase m = s.phase m) ∧
    (∀ v : Voter, s.saf.votes.contains v = false → ∃ t, exec (.vote v) s = .next t ∧ t.saf.votes = s.saf.votes ++ [v] ∧
      recorded t 0x30B (voterPlace v).2.1 ∧ ∀ m, m < 12 → t.phase m = s.phase m) ∧
    (s.saf.votes.contains (.attenuation n) = true → ∃ t, exec (.vote (.attenuation n)) s = .next t ∧ t.phase k = phFault ∧
      recorded t 0x30C k) ∧
    (s.on F.SAFE_SM_CFG_ALTPAIR = true → s.alertLevel 0 = s.alertLevel 1 → ∃ t, exec .alertpin s = .next t ∧ t.out.pairStuck = true ∧
      recorded t 0x30F 0) ∧
    (∀ clock : Bool, inMask (s.rd F.SAFE_SM_CFG_VOICEMAP) k = true → s.srcEn k = true → (8 ≤ k → clock = false) →
      inMask s.saf.vfail k = false → ∃ t, exec (.voiceStuck n clock) s = .next t ∧ inMask t.saf.vfail k = true ∧
        recorded t (if 8 ≤ k then 0x403 else if clock then 0x402 else 0x401) k) ∧
    (s.on F.CTL_CLK_STAT_REFLOST = false → stListen ≤ s.pstate → ∀ ref sys aud sw cycles : Nat,
      let bad := s.clocksBad ref sys aud sw
      let slow := !decide (92 * 4096 ≤ 100 * cycles ∧ 100 * cycles ≤ 108 * 4096)
      (∃ t, exec (.clkmon ref sys aud sw) s = .next t ∧ t.saf.clkPrev = bad ∧
        t.rd F.SAFE_SM_MON_CLKBAD = (s.rd F.SAFE_SM_MON_CLKBAD ||| bad) ∧
        ∀ p, p < 4 → inMask bad p = true → inMask s.saf.clkPrev p = true → recorded t 0x505 p) ∧
      (∃ t, exec (.safeosc cycles) s = .next t ∧ t.saf.oscBad = slow ∧ (slow = true → s.saf.oscBad = true → recorded t 0x706 0) ∧
        (slow = true → s.saf.oscBad = false → { t with saf := s.saf } = s))) ∧
    (∀ (sup : Fin 5) (mV : Nat), stListen ≤ s.pstate → (sup.val = 4 → s.hoPhase 0 ≠ hoOff ∨ s.hoPhase 1 ≠ hoOff) →
      let inside := (s.supplyWindow sup.val).1 ≤ mV ∧ mV ≤ (s.supplyWindow sup.val).2
      (inside → ∃ t, exec (.vmon sup mV) s = .next t ∧ inMask (t.rd F.SAFE_SM_MON_VIN) sup.val = true) ∧
      (¬ inside → inMask (s.rd F.SAFE_SM_MON_VIN) sup.val = true → ∃ t, exec (.vmon sup mV) s = .next t ∧
        inMask (t.rd F.SAFE_SM_MON_VIN) sup.val = false ∧ recorded t 0x602 sup.val)) ∧
    (∀ test : LatentTest, (∀ e, test ≠ .runningEngine e) → exec (.latentTest test true) s = .next s) ∧
    (∃ t, exec (.latentTest .supervisor false) s = .next t ∧ recorded t 1 0) ∧
    (∀ c : Fin 4, ∃ t, exec (.latentTest (.clock c) false) s = .next t ∧ recorded t 0x505 c.val)

/-! ## Power (spec/14_power_states.md) -/

/-- POWER_STATE begins a transition or ends where the device already stands (R620, R657); a completed step brings the device to the next
state, and the phases of BRUMATE and OFF entry follow one another up to the window's end (R619, R629). -/
def Obligations.PowerTransitionsGoStepByStep : Prop :=
  ∀ (p : Packet) (s : State),
    let dest := pf p.payload 0 0 3
    let wt := pf p.payload 0 4 3
    let one := fun (i : Instr) (ph : Nat) => ∃ t, exec i s = .next t ∧ t.pphase = ph ∧ t.pstate = s.pstate ∧
      SameRegsBut (fun a => a = Reg.PWR_STATE) s t ∧ { t with regs := s.regs } = s
    (Accepted cardPowerState p s → s.on F.PWR_STATE_TRANS = false → dest ≤ 4 →
      (dest = stBrumate → (wt = 2 ∨ wt = 3) ∧ s.wakeArmed = true) →
      (dest = s.pstate → Answers (.powerState p) cardPowerState p s 0 0 [] (PapolBut papolReg (papolByte s) s)) ∧
      (dest ≠ s.pstate → dest ≠ stOff → s.freeSlot? ≠ none → (dest = stListen → s.listenBlocked = false) →
        Awaits (.powerState p) cardPowerState p s [] [.power] fun t => t.on F.PWR_STATE_TRANS = true ∧ t.target = dest ∧ t.pphase = 1 ∧
          t.pstate = s.pstate ∧ (dest = stBrumate → t.rd F.PWR_STATE_WTARGET = wt) ∧ t.pwr.origin = s.pstate) ∧
      (dest ≠ s.pstate → dest = stOff → Answers (.powerState p) cardPowerState p s 0 0 [] fun t => t.on F.PWR_STATE_TRANS = true ∧
        t.target = stOff ∧ t.pphase = 1 ∧ t.pstate = s.pstate)) ∧
    (s.on F.PWR_STATE_TRANS = true → s.pwr.waking = false → s.pwr.halt = false →
      (s.pphase = 1 → s.pstate = stPlay → s.quiet = true → s.graphRuns = true → ∃ t, exec .powerStepDone s = .next t ∧
        t.pstate = stPlay ∧ t.on F.PWR_STATE_TRANS = true) ∧
      (∀ e, s.pphase = 1 → s.pap.run = .running → s.workFor? .power 0x600 = some e →
        ((s.pstate = stPlay ∧ s.target = stIdle ∧ s.quiet = true ∧ s.graphRuns = false ∧ s.gstate ≠ gsStopping) ∨ (s.pstate = stIdle ∧ s.target = stPlay) ∨
          (s.pstate = stIdle ∧ s.target = stListen ∧ s.silent = true ∧ s.on F.CTL_REG_STAT_BUSY = false) ∨
          (s.pstate = stListen ∧ s.target = stIdle)) →
        ∃ t, exec .powerStepDone s = .next t ∧ t.pstate = s.target ∧ t.on F.PWR_STATE_TRANS = false ∧
          (∀ f ∈ t.pap.slots, f.slot ≠ e.slot) ∧ (∀ r, t.replyFor? e.ring1 e.cseq = some r → r.status = stsOk) ∧
          (s.target = stListen → t.on F.OUT_SW_STAT_SWON = false ∧ ∀ d ∈ listenLacks, t.domOn d = false) ∧
          (s.pstate = stListen → t.on F.OUT_SW_STAT_SWON = true ∧ t.on F.CTL_CLK_STAT_SYSLOCK = true)) ∧
      (s.pphase = 2 → s.gate ≠ gtZero → one .powerStepDone 3) ∧
      (s.pphase = 4 → one .powerStepDone 5) ∧
      (s.pphase = 3 → s.on F.CTL_REG_STAT_BUSY = false → s.target = stOff → ∃ t, exec .powerStepDone s = .next t ∧ t.pstate = stOff ∧
        t.strs = [] ∧ t.pending = s.pending) ∧
      (s.pphase = 3 → s.on F.CTL_REG_STAT_BUSY = false → s.target = stBrumate → ∃ t, exec .powerStepDone s = .next t ∧
        t.pstate = stBrumate ∧ t.pphase = 4 ∧ t.pap.run = .halted ∧ t.on F.CTL_SEC_STAT_SESS = false ∧
        ∀ d ∈ allDomains, t.domOn d = false)) ∧
    (s.pphase = 5 → ∃ t, exec .brumateWindowEnd s = .next t ∧ t.on F.PWR_STATE_TRANS = false ∧ t.pphase = 0 ∧ t.pstate = s.pstate ∧
      t.rd F.PWR_GECKO_HELD = 0xFF ∧ t.now = s.now ∧ t.mem = s.mem ∧ t.strs = [] ∧ t.pap = s.pap)

/-- BRUMATE and its wake sources (R630 to R639, R659): a source latches with its first and its time, the exit runs to its target, WAKE_CFG
writes what arms the sources, a GPIO edge outside BRUMATE moves the levels. -/
def Obligations.WakeSourcesLatchAndDeviceWakes : Prop :=
  ∀ (p : Packet) (s : State) (plug : Bool) (levels : BitVec 8), s.link.cfgpar = [] →
    let ws := p.payload
    let latched := fun (i : Instr) (code bit : Nat) => ∃ t, exec i s = .next t ∧ inMask (t.rd F.PWR_WAKESRC_SRCMAP) bit = true ∧
      (s.rd F.PWR_WAKESRC_SRCMAP = 0 → t.rd F.PWR_WAKESRC_FIRST = code ∧ t.rd64 Reg.PWR_WAKETIME_LO = s.now) ∧
      SameRegsBut (fun a => a = Reg.PWR_WAKESRC ∨ a = Reg.PWR_WAKETIME_LO ∨ a = Reg.PWR_WAKETIME_LO + 4) s t ∧
      { t with regs := s.regs } = s
    (s.pstate = stBrumate →
      (s.on F.PWR_WAKECFG_WBEN = true → latched .wakeBusMatch 3 0) ∧ (s.on F.PWR_WAKECFG_WBEN = false → exec .wakeBusMatch s = .next s) ∧
      (s.on F.PWR_WAKECFG_PTTWK = true → latched .pttWake 2 1) ∧ (s.on F.PWR_WAKECFG_PTTWK = false → exec .pttWake s = .next s)) ∧
    (s.pstate ≠ stBrumate → exec .wakeBusMatch s = .next s ∧ exec .pttWake s = .next s) ∧
    (let fired := maskOf 8 fun k => wakeFires (s.gpioMode k) (inMask s.pwr.gpio k) (inMask levels.toNat k)
      ∃ t, exec (.gpioWake levels) s = .next t ∧ t.pwr.gpio = levels.toNat ∧
        (s.pstate = stBrumate → s.pphase ≠ 5 → fired ≠ 0 → inMask (t.rd F.PWR_WAKESRC_SRCMAP) 2 = true ∧
          t.rd F.PWR_WAKESRC_GPIOMAP = (s.rd F.PWR_WAKESRC_GPIOMAP ||| fired)) ∧
        (s.pstate ≠ stBrumate → t.rd F.PWR_WAKESRC_SRCMAP = s.rd F.PWR_WAKESRC_SRCMAP)) ∧
    (s.pstate = stBrumate → s.on F.PWR_STATE_TRANS = false → s.rd F.PWR_WAKESRC_SRCMAP ≠ 0 → ∃ t, exec (.brumateExit plug) s = .next t ∧
      t.pwr.waking = true ∧ t.pwr.jack = some plug ∧ t.on F.PWR_STATE_TRANS = true ∧ t.target = s.rd F.PWR_STATE_WTARGET ∧
      t.pap.run = .running ∧ t.pap.reports = [] ∧ t.on F.CTL_CLK_STAT_REFOK = true ∧ t.on F.SAFE_SM_STAT_SMOK = true) ∧
    (s.pstate = stBrumate → s.pwr.waking = true → (s.target = stIdle ∨ s.target = stListen) → ∃ t, exec .brumateArrive s = .next t ∧
      t.pstate = s.target ∧ t.on F.PWR_STATE_TRANS = false ∧ t.pwr.waking = false ∧ t.pwr.jack = none ∧
      t.rd F.PWR_WAKESRC_TARGET = s.target ∧ (s.target = stIdle → t.on F.OUT_SW_STAT_SWON = true)) ∧
    (Accepted cardWakeCfg p s → 8 ≤ pf ws 0 24 7 → pf ws 0 24 7 < 0x78 → (∀ k, k < 8 → pf ws 1 (4 * k) 3 ≤ 5) →
      Answers (.wakeCfg p) cardWakeCfg p s 0 0 [] fun t => t.reg Reg.PWR_WAKECFG = pw ws 0 &&& 0xFF010000 ∧
        t.reg Reg.PWR_GPIO_WAKE = pw ws 1 ∧ Touches [Reg.PWR_WAKECFG, Reg.PWR_GPIO_WAKE] s t ∧ { s.over t with link := s.link } = s)

/-- Domains and pads (R640 to R649, R658): POWER_PERMIT writes the mask, a change of a domain queues and is completed by DOMAIN_POWER_DONE,
a domain that is in use is not powered down without FORCE, RELEASE lets every held pad group go. -/
def Obligations.DomainsArePoweredOnAndOff : Prop :=
  ∀ (p : Packet) (s : State) (i : Iface) (dm : Fin 42), s.link.cfgpar = [] →
    let d := pf p.payload 0 0 6
    let q : Packet := { p with force := true }
    let slot := s.freeSlot?.getD 8
    let queued := fun (up : Bool) (t : State) => t.pwr.changes = s.pwr.changes ++ [⟨d, up, [slot]⟩] ∧ t.domOn d = s.domOn d
    let kept := fun (t : State) => Touches [] s t ∧ { s.over t with pwr := s.pwr } = s
    (Accepted cardPowerPermit p s → pf p.payload 0 26 6 = 0 → Answers (.powerPermit p) cardPowerPermit p s 0 0 [] fun t =>
      t.reg Reg.PWR_PERMIT = pw p.payload 0 ∧ Touches [Reg.PWR_PERMIT] s t ∧ { s.over t with link := s.link } = s) ∧
    (0x10 ≤ d → d < 0x2A → s.lastChange? d = none →
      (Accepted cardPowerDomainOn p s → (d < 0x18 → s.role (d - 0x10) ≠ roRetired) →
        (s.domOn d = true → Answers (.powerDomainOn p) cardPowerDomainOn p s 0 0 [] (PapolBut papolReg (papolByte s) s)) ∧
        (s.domOn d = false → s.freeSlot? ≠ none →
          Awaits (.powerDomainOn p) cardPowerDomainOn p s [] [.domain d] fun t => queued true t ∧ kept t)) ∧
      (Accepted cardPowerDomainOff p s → p.force = false →
        (s.domOn d = false → Answers (.powerDomainOff p) cardPowerDomainOff p s 0 0 [] (PapolBut papolReg (papolByte s) s)) ∧
        (s.domOn d = true → d ≠ dmTad → s.offDenied d = false → s.domBusy? d = none → s.freeSlot? ≠ none →
          Awaits (.powerDomainOff p) cardPowerDomainOff p s [] [.domain d] fun t => queued false t ∧ kept t) ∧
        (∀ x, s.domOn d = true → s.offDenied d = false → s.domBusy? d = some x →
          Answers (.powerDomainOff p) cardPowerDomainOff p s stsDomainBusy x [] (PapolBut papolReg (papolByte s) s))) ∧
      (Accepted cardPowerDomainOff q s → s.domOn d = true → d ≠ dmTad → s.offDenied d = false → s.domBusy? d = none →
        s.freeSlot? ≠ none →
        Awaits (.powerDomainOffForce p) cardPowerDomainOff q s [] [.domain d] fun t => queued false t ∧ kept t)) ∧
    (∀ c : DomChange, 0x10 ≤ dm.val → s.pwr.changes = [c] → c.domain = dm.val →
      (∀ x ∈ s.link.stalled, x.domain ≠ dm.val) → ∃ t, exec (.domainPowerDone dm) s = .next t ∧ t.domOn dm.val = c.up ∧
        t.pwr.changes = [] ∧ (dm.val = dmWkd → c.up = false → t.wkd.model = none) ∧
        (s.pap.run = .running → ∀ e ∈ t.pap.slots, c.slots.contains e.slot = true → e.done.isSome = true) ∧
        Touches [Reg.PWR_DOMSTAT] s t ∧ { s.over t with pwr := s.pwr, wkd := s.wkd } = s) ∧
    (s.pstate = stListen → ∃ t, exec .sysOnDemand s = .next t ∧ t.on F.CTL_CLK_STAT_SYSLOCK = true ∧
      SameRegsBut (fun a => a = Reg.CTL_CLK_STAT) s t ∧ { t with regs := s.regs } = s) ∧
    (s.ifaceReady i = true → s.on ⟨Reg.HOST_PWSTAT, rgCtl, 1⟩ = false → s.link.posted = [] → s.lockOpen i = true →
      ∃ t, exec (.release i) s = .next t ∧ t.rd F.PWR_GECKO_HELD = 0 ∧ t.link.posted = [] ∧ t.lockOpen i = false)

/-! ## Ageing (spec/17_service_life.md) -/

/-- What ages and what the plan makes of it (R740 to R763; spec/14_power_states.md, R653 to R655): the counters, the ring-oscillator pairs
and the switches are measured, the reports answer, a re-plan raises the derate or asks the regulator for more voltage, whose answer ends
the request. -/
def Obligations.AgeingIsMeasuredAndPlannedFor : Prop :=
  ∀ (p : Packet) (s : State) (n : Fin 12) (core : Int),
    let k := n.val
    let w0 := pw p.payload 0
    let report := fun (i : Instr) (c : CmdSpec) (len : Nat) (first : Word) => ∃ ws, ws.length = len ∧ pw ws 0 = first ∧
      Answers i c p s 0 0 ws (PapolBut papolReg (papolByte s) s)
    (Accepted cardAgeingRead p s → bits w0 0 3 ≤ 6 → report (.ageingRead p) cardAgeingRead 8
      (s.reg (if bits w0 0 3 ≤ 2 then Reg.SAFE_AGE_RON_P (4 * bits w0 0 3) else if bits w0 0 3 ≤ 4 then
        Reg.SAFE_AGE_RING (8 * (bits w0 0 3 - 3)) else Reg.SAFE_AGE_DER (8 * (bits w0 0 3 - 5))))) ∧
    (Accepted cardRepairStatus p s → ∃ ws, ws.length = 6 ∧ pw ws 3 = w32 (s.mrole 1 * 4 + s.mrole 0) ∧ pw ws 5 = w32 s.age.worn ∧
      Answers (.repairStatus p) cardRepairStatus p s 0 0 ws (PapolBut papolReg (papolByte s) s)) ∧
    (Accepted cardBaskRead p s → let l := bits w0 0 2
      ∃ ws, ws = ((List.range 16).map fun j => s.reg (Reg.SAFE_BASK_LO (8 * l) + 4 * j)) ∧
        Answers (.baskRead p) cardBaskRead p s 0 0 ws fun t => SameRegsBut (fun a => papolReg a ∨
            (bit w0 31 = true ∧ Reg.SAFE_BASK_LO (8 * l) ≤ a ∧ a < Reg.SAFE_BASK_LO (8 * l) + 64)) s t ∧ s.over t = s ∧
          (bit w0 31 = true → ∀ b, b < 8 → t.rd64 (Reg.SAFE_BASK_LO (8 * l + b)) = 0)) ∧
    (stListen ≤ s.pstate → ∃ t, exec (.baskTick core) s = .next t ∧ (let a := Reg.SAFE_BASK_LO (24 + baskBin core)
        t.rd64 a = (s.rd64 a + 1) % 2 ^ 64) ∧
      SameRegsBut (fun a => Reg.SAFE_BASK_LO 0 ≤ a ∧ a < Reg.SAFE_BASK_LO 32) s t ∧ { t with regs := s.regs } = s) ∧
    (∀ w : RingWindow, stListen ≤ s.pstate → s.windowLost w = false → s.pairOn k = true → k < w.counts.length →
      let c := w.counts.getD k (0, 0)
      let d := s.deltaOf k c.1 c.2
      ∃ t, exec (.ringOscWindow w.counts w.temp0 w.temp1) s = .next t ∧ vat t.age.deltas k = (d :: vat s.age.deltas k).take 3 ∧ vat t.age.okAt k = s.now ∧
        (∀ a b, (vat s.age.deltas k).take 2 = [a, b] → t.on (F.SAFE_AGE_RING_VALID k) = true ∧
          t.rd (F.SAFE_AGE_RING_DELTA k) = (BitVec.ofInt 16 (median3 d a b)).toNat)) ∧
    (∀ (legM high : Bool) (code isns : BitVec 12),
      let amps := ((isns.toNat : Int) - 2048).natAbs
      let i := 2 * s.legNo (k / 4) (nodeOf k (b2n legM)) + b2n high
      let samples := vat s.age.acc i ++ [(code.toNat, amps)]
      (15 * amps < 2048 ∨ 5 * 2048 < 2 * 15 * amps → exec (.ronSample n legM high ⟨code, isns⟩) s = .next s) ∧
      (s.phase (s.master k) = phPlay → s.suspended = false → s.inSeq (s.master k) = false → 2048 ≤ 15 * amps → 2 * 15 * amps ≤ 5 * 2048 →
        ∃ t, exec (.ronSample n legM high ⟨code, isns⟩) s = .next t ∧ { t with regs := s.regs, age := s.age } = s ∧
          (samples.length < 256 → vat t.age.acc i = samples ∧ t.regs = s.regs) ∧
          (256 ≤ samples.length → vat t.age.acc i = [] ∧ inMask t.age.seen (s.master k) = true ∧
            t.rd ⟨s.ronReg k (b2n legM), if high then 16 else 0, 16⟩ = r25Of samples
              (sliceCount (s.legSlices (k / 4) (nodeOf k (b2n legM)))) ((s.rd (F.OUT_G_THERM_TJ (k / 4)) : Int) - 64) ∧
            SameRegsBut (fun a => a = s.ronReg k (b2n legM) ∨ a = Reg.SAFE_AGE_DER (s.master k)) s t))) ∧
    (s.age.req = none → s.master k = k →
      (∀ counts temps, s.dMax? = none → Accepted cardReplan p s → bits w0 0 3 = 0 → ∃ ws, Answers (.replan p counts temps) cardReplan p s 0 0 ws fun t =>
        t.rd (F.SAFE_AGE_DER_AAGE k) = max (s.rd (F.SAFE_AGE_DER_AAGE k)) (aageOf (s.worstRon k)) ∧ t.age.req = none) ∧
      (∀ counts temps, Accepted cardReplan p s → bits w0 0 3 = 1 → ∃ ws, ws.length = 4 ∧
        Answers (.replan p counts temps) cardReplan p s 0 0 ws (PapolBut papolReg (papolByte s) s)) ∧
      ((s.pstate = stIdle ∨ s.pstate = stPlay) → s.planWaits = true → exec .replanRun s = .next { s with age := { s.age with due := true } }) ∧
      ((s.pstate = stIdle ∨ s.pstate = stPlay) → s.planWaits = false → s.pap.run = .running →
        (s.dMax? = none → ∃ t, exec .replanRun s = .next t ∧ t.age.req = none ∧
          t.rd (F.SAFE_AGE_DER_AAGE k) = max (s.rd (F.SAFE_AGE_DER_AAGE k)) (aageOf (s.worstRon k))) ∧
        (∀ d, s.dMax? = some d → vNeed d + 40 ≤ 900 → s.rd F.SAFE_AGE_STAT_VPLAN < vPlan d → s.age.exp.isSome = true →
          s.age.blocked = false → ∃ t, exec .replanRun s = .next t ∧ t.age.req = some (vPlan d) ∧
            t.on F.CTL_REG_STAT_BUSY = true ∧ t.on F.SAFE_AGE_STAT_PEND = true))) ∧
    (∀ (v : Nat) (nack pec : Bool), s.age.req = some v → v ≤ 900 →
      (∃ t, exec (.regAcknowledge nack pec) s = .next t ∧ t.age.req = none ∧ t.on F.CTL_REG_STAT_BUSY = false ∧
        t.rd F.SAFE_AGE_STAT_VPLAN = v ∧ t.rd F.CTL_REG_STAT_VOUT = voutWord v (s.age.exp.getD 0x17) % 2 ^ 16) ∧
      (∃ t, exec (.reglink nack pec) s = .next t ∧ t.age.req = none ∧ t.on F.CTL_REG_STAT_BUSY = false ∧ t.age.blocked = true ∧
        t.on F.CTL_REG_STAT_REGLINK = true ∧ t.rd F.SAFE_AGE_STAT_VPLAN = s.rd F.SAFE_AGE_STAT_VPLAN ∧
        ∃ r ∈ t.saf.recs, r.code = 0x601))

/-! ## Security (spec/16_security.md) -/

/-- Sessions open and close and lockouts start and end (R719 to R722); a firmware molt halts Papol and resumes with the new image or the
old (R732 to R734). -/
def Obligations.SessionsAndFirmwareMolt : Prop :=
  ∀ (p : Packet) (s : State) (e : PendEntry),
    (Accepted cardSessionOpen p s → s.on F.CTL_SEC_STAT_LOCKOUT = false → Crypto.onCurve ((p.payload.drop 1).take 16) = true →
      s.lifecycle ≠ 3 → Free s [.session] →
      Awaits (.sessionOpen p) cardSessionOpen p s [] [.session] fun t => Touches [] s t ∧ s.over t = s) ∧
    (s.atWork? 0x800 = none → exec .sessionOpenDone s = .next s) ∧
    (s.atWork? 0x800 = some e →
      let qh := (e.payload.drop 1).take 16
      let qd := Crypto.ecdhPublic s.ephemeral
      let z := Crypto.ecdh s.ephemeral qh
      ∃ t, exec .sessionOpenDone s = .next t ∧ Ended (some e) stsOk s t ∧ Touches [Reg.CTL_SEC_STAT] s t ∧
        (s.pap.run ≠ .running → t.sec = s.sec) ∧
        (s.pap.run = .running → t.on F.CTL_SEC_STAT_SESS = true ∧
          t.rd F.CTL_SEC_STAT_SESSNO = (s.rd F.CTL_SEC_STAT_SESSNO + 1) % 2 ^ 16 ∧ t.rd F.CTL_SEC_CNT_CONSEC = 0 ∧
          t.sec = { s.sec with key := some (Crypto.hmacWords (s.fuseWords 20 8) (z ++ qh ++ qd ++ s.serialBe)),
                               idleto := pf e.payload 0 0 16, lockLen := 0 })) ∧
    (Accepted cardSessionClose p s → Answers (.sessionClose p) cardSessionClose p s 0 0 [] fun t =>
      Touches [Reg.CTL_SEC_STAT] s t ∧ { s.over t with sec := s.sec } = s ∧
      if t.pap.held = [] then t.on F.CTL_SEC_STAT_SESS = false ∧ (s.on F.CTL_SEC_STAT_SESS = true → t.sec.key = none)
      else t.pap.afterDue = some 0x801 ∧ t.sec = s.sec) ∧
    (s.sec.idleto = 0 → exec .sessionIdleTimeout s = .next s) ∧
    (s.sec.idleto ≠ 0 → ∃ t, exec .sessionIdleTimeout s = .next t ∧ t.on F.CTL_SEC_STAT_SESS = false ∧
      (s.on F.CTL_SEC_STAT_SESS = true → t.sec.key = none) ∧ Touches [Reg.CTL_SEC_STAT] s t ∧ { s.over t with sec := s.sec } = s) ∧
    (s.rd F.CTL_SEC_CNT_CONSEC < 8 → exec .lockout s = .next s) ∧
    (8 ≤ s.rd F.CTL_SEC_CNT_CONSEC → ∃ t, exec .lockout s = .next t ∧ t.on F.CTL_SEC_STAT_LOCKOUT = true ∧
      t.on F.CTL_SEC_STAT_SESS = false ∧ t.rd F.CTL_SEC_CNT_CONSEC = 0 ∧
      t.rd F.CTL_SEC_CNT_LOCKOUTS = min 255 (s.rd F.CTL_SEC_CNT_LOCKOUTS + 1) ∧
      t.sec = { s.sec with key := none, lockLen := if s.sec.lockLen = 0 then 1 else min 64 (2 * s.sec.lockLen) } ∧
      Touches [Reg.CTL_SEC_STAT] s t) ∧
    (∃ t, exec .lockoutEnd s = .next t ∧ t.on F.CTL_SEC_STAT_LOCKOUT = false ∧ SameRegsBut (fun a => a = Reg.CTL_SEC_STAT) s t ∧
      { t with regs := s.regs } = s) ∧
    (let a := s.admitted cardFwMolt p
      let ofs := pf p.payload 0 2 19 * 4
      let len := pf p.payload 1 0 21
      let img := a.words (0x800000 + ofs) (len / 4)
      Accepted cardFwMolt p s → a.spanOn ofs len = true → (s.pap.slots.find? fun e => moltBusy.contains e.opcode) = none →
        Free s [.firmware] → s.on F.PWR_STATE_TRANS = false → a.poisonIn ofs len = [] → a.bootErr img len = 0 →
        imgHinMin img ≤ s.sec.hout → s.sec.hout ≤ imgHout img → (pw p.payload 2 = 0 ∨ pw p.payload 2 = imgVersion img) →
        Awaits (.fwMolt p) cardFwMolt p s
          [imgVersion img, w32 (imgRoll img), w32 (s.sec.hout * 2 ^ 16 + imgHinMin img), s.pap.version] [.firmware] fun t =>
            Touches [] s t ∧ s.over t = s ∧
            if t.pap.held = [] then t.pap.run = .molting else t.pap.run = .running ∧ t.pap.afterDue = some 0x802) ∧
    (let ofs := pf e.payload 0 2 19 * 4
      let len := pf e.payload 1 0 21
      let img := s.words (0x800000 + ofs) (len / 4)
      s.pap.run = .molting → s.atWork? 0x802 = some e → s.poisonIn ofs len = [] →
        (∀ f ∈ s.pap.slots, ∀ d, f.done = some d → d.key = none) →
        ∃ t, exec .fwMoltResume s = .next t ∧ t.pap.run = .running ∧ (∀ f ∈ t.pap.slots, f.slot ≠ e.slot) ∧ t.pap.reports = [] ∧
          (s.bootErr img len = 0 → t.pap.version = imgVersion img ∧ t.pap.roll = imgRoll img ∧
            t.sec = { s.sec with digest := Crypto.shaWords img, hout := imgHout img, image := img }) ∧
          (s.bootErr img len ≠ 0 → t.pap.version = s.pap.version ∧ t.pap.roll = s.pap.roll ∧ t.sec = s.sec)) ∧
    (s.pap.run = .molting → ∃ t, exec .moltResumeTimeout s = .next t ∧ t.pap.run = .halted ∧
      (Still s → ∃ r ∈ t.saf.recs, r.code = 1)) ∧
    (s.pap.run ≠ .molting → exec .moltResumeTimeout s = .next s ∧ exec .fwMoltResume s = .next s)

/-- The device attests what it runs (R731); a challenge's NONCE admits one attempt to open the debug port (R730, R735), through which
EXTEST acts (R729). -/
def Obligations.DeviceAttestsAndDebugPortOpens : Prop :=
  ∀ (p : Packet) (s : State) (e : PendEntry),
    (Accepted cardAttest p s → Free s [.attest] →
      Awaits (.attest p) cardAttest p s [] [.attest] fun t => Touches [] s t ∧ s.over t = s) ∧
    (s.atWork? 0x803 = none → exec .attestDone s = .next s) ∧ (s.atWork? 0x805 = none → exec .debugUnlockDone s = .next s) ∧
    (s.atWork? 0x803 = some e →
      let key := Crypto.hmacWords (Crypto.ecdh (Crypto.numOf (s.fuseWords 50 8)) ((List.range 16).map Config.attestKey)) s.serialBe
      ∃ t, exec .attestDone s = .next t ∧ Ended (some e) stsOk s t ∧ PapolBut papolReg (papolByte s) s t ∧
        (s.pap.run = .running → s.pap.events.length < 64 → ∃ v ∈ t.pap.events, v.ecode = evCmdDone ∧
          v.payload.drop 2 = s.report ++ Crypto.hmacWords key (e.payload.take 8 ++ s.report))) ∧
    (s.atWork? 0x805 = some e →
      let good := Crypto.ecdsa (s.fuseWords 28 16) (e.payload.take 16) (Crypto.shaWords (s.sec.trial ++ s.serialBe))
      ∃ t, exec .debugUnlockDone s = .next t ∧ Ended (some e) (if good then stsOk else stsAuthFail) s t ∧
        t.sec = { s.sec with trial := [] } ∧ (good = true → t.on F.CTL_SEC_STAT_DBGOPEN = true) ∧
        (good = false → t.on F.CTL_SEC_STAT_DBGOPEN = s.on F.CTL_SEC_STAT_DBGOPEN ∧
          t.rd F.CTL_SEC_CNT_AUTHFAIL = min 0xFFFF (s.rd F.CTL_SEC_CNT_AUTHFAIL + 1))) ∧
    (Accepted cardDebugChallenge p s → let n := (List.range 8).map fun i => Config.trng (s.draw + i)
      Answers (.debugChallenge p) cardDebugChallenge p s 0 0 n fun t => Touches [] s t ∧
        s.over t = { s with draw := s.draw + 8, sec := { s.sec with nonce := some n } }) ∧
    exec .nonceExpire s = .next { s with sec := { s.sec with nonce := none } } ∧
    (Accepted cardDebugUnlock p s →
      (s.on F.CTL_SEC_STAT_DBGOPEN = true → Answers (.debugUnlock p) cardDebugUnlock p s 0 0 [] (PapolBut papolReg (papolByte s) s)) ∧
      (∀ n, s.on F.CTL_SEC_STAT_DBGOPEN = false → s.on F.CTL_SEC_STAT_DBGDIS = false → s.sec.nonce = some n → Free s [.debug] →
        Awaits (.debugUnlock p) cardDebugUnlock p s [] [.debug] fun t => Touches [] s t ∧
          s.over t = { s with sec := { s.sec with nonce := none, trial := n } }) ∧
      (s.on F.CTL_SEC_STAT_DBGOPEN = false → s.on F.CTL_SEC_STAT_DBGDIS = true →
        Answers (.debugUnlock p) cardDebugUnlock p s stsDenied 4 [] (PapolBut papolReg (papolByte s) s))) ∧
    (s.on F.CTL_SEC_STAT_DBGOPEN = true → ∃ t, exec .extest s = .next t ∧ t.sec = { s.sec with extest := true } ∧
      t.on F.SAFE_FN_STAT_DRIVE = true ∧ t.mem = s.mem ∧ t.pap = s.pap) ∧
    (s.on F.CTL_SEC_STAT_DBGOPEN = false → exec .extest s = .next s)

/-- FUSE_PROGRAM and LIFECYCLE_ADVANCE pend and then set fuse bits; the shadow follows for the counters only, the lifecycle at the next reset
(R702 to R704, R736, R737). -/
def Obligations.FusesAndLifecycleAreProgrammed : Prop :=
  ∀ (p : Packet) (s : State) (e : PendEntry) (missed : Word),
    let w := pf p.payload 0 0 6
    let new := s.fuseNow w ||| pw p.payload 1
    let x := pf e.payload 0 0 6
    let v := pw e.payload 1 &&& ~~~missed
    let tgt := pf e.payload 0 0 4
    (Accepted cardFuseProgram p s → fuseAllowed s.lifecycle w = true → pw p.payload 2 = ~~~ pw p.payload 1 →
      (44 ≤ w → w ≤ 47 → contiguous (s.rollValue w new) = true ∧
        (s.runningRoll? w).all (fun r => decide (r < countOf (s.rollValue w new))) = false) →
      (w = 3 → s.revokesAll new = false) → Free s [.fuses] →
      Awaits (.fuseProgram p) cardFuseProgram p s [] [.fuses] fun t => Touches [] s t ∧ s.over t = s) ∧
    (Accepted cardLifecycleAdvance p s → pf p.payload 0 16 16 = 0xC1C1 →
      ((pf p.payload 0 0 4 = 2 ∧ s.lifecycle = 1 ∧ (s.fuseWords 20 8).all (· = 0) = false ∧
          (s.rootProgrammed 0 = true ∨ s.rootProgrammed 1 = true)) ∨ (pf p.payload 0 0 4 = 3 ∧ s.lifecycle = 2)) →
      Free s [.fuses] →
      Awaits (.lifecycleAdvance p) cardLifecycleAdvance p s [] [.fuses] fun t => Touches [] s t ∧ s.over t = s) ∧
    (s.atWork? 0x806 = some e → ∃ t, exec (.fuseProgramDone missed) s = .next t ∧
        Ended (some e) (if s.fuseNow x ||| v = s.fuseNow x ||| pw e.payload 1 then stsOk else stsNoResource) s t ∧
        (∀ i, i < 64 → t.fuseNow i = if i = x then s.fuseNow i ||| v else s.fuseNow i) ∧
        (∀ i, i < 64 → t.fuse i = if i = x ∧ 44 ≤ x ∧ x ≤ 47 then s.fuseNow i ||| v else s.fuse i) ∧
        Touches [Reg.CTL_FUSE x, Reg.CTL_SEC_ROLL] s t) ∧
    (s.atWork? 0x807 = some e → ∃ t, exec .lifecycleAdvanceDone s = .next t ∧ Ended (some e) stsOk s t ∧
        (∀ i, i < 64 → t.fuseNow i = s.fuseNow i ||| lifecycleBits tgt i) ∧ t.sec.shadow = s.sec.shadow ∧
        t.rd F.CTL_SEC_STAT_LCNEXT = tgt ∧ t.lifecycle = s.lifecycle ∧ Touches [Reg.CTL_SEC_STAT] s t)

/-! ## Reset and start-up (spec/02_package_supplies.md, spec/16_security.md) -/

/-- A low pulse of RESET_N is ignored below 1 µs and resets the device from 10 µs on; between the two the spec gives no outcome and the
command stops (R70). The supply monitors (R79) and SYS_RESET (R194) reset in the same way; what the state after it holds. -/
def Obligations.ResetPulsesResetTheDevice : Prop :=
  ∀ (ns : Nat) (s : State) (p : Packet),
    (ns < 1000 → exec (.reset ns) s = .next s) ∧
    (10000 ≤ ns → exec (.reset ns) s = .next s.fresh) ∧
    (1000 ≤ ns → ns < 10000 → exec (.reset ns) s = .fault .resetPulseUndefined) ∧
    exec .supplyMonitorReset s = .next { s.fresh with pwr := { s.fresh.pwr with iov := false } } ∧
    (s.pap.resetDue = true → s.silent = true → exec .sysResetExecute s = .next s.fresh) ∧
    (s.pap.resetDue = false ∨ s.silent = false → exec .sysResetExecute s = .next s) ∧
    (Accepted cardSysReset p s → pf p.payload 0 0 16 = 0xA11C →
      Answers (.sysReset p) cardSysReset p s 0 0 [] fun t => t.sec.fuses = s.sec.fuses ∧ SameBytesBut (papolByte s) s t ∧
        if t.pap.held = [] then t.pap.resetDue = true ∧ t.on F.CTL_SEC_STAT_SESS = false
        else t.pap.afterDue = some 0x006 ∧ t.on F.CTL_SEC_STAT_SESS = s.on F.CTL_SEC_STAT_SESS) ∧
    (let z := State.reset;
      s.fresh.pending = s.pending ∧
      { s.fresh with regs := z.regs, sec := z.sec, pwr := z.pwr, out := z.out, hpcv := z.hpcv, draw := z.draw, pending := z.pending } = z ∧
      s.fresh.sec = { z.sec with fuses := s.sec.fuses, shadow := s.sec.fuses } ∧
      s.fresh.pwr = { z.pwr with gpio := s.pwr.gpio, iov := s.pwr.iov } ∧ s.fresh.out = { z.out with muteLow := s.out.muteLow } ∧
      s.fresh.hpcv = { z.hpcv with clrLow := s.hpcv.clrLow } ∧ s.fresh.reg Reg.CTL_SYS_STRAP = s.reg Reg.CTL_SYS_STRAP ∧
      s.fresh.lifecycle = lcOf (vat s.sec.fuses 0) ∧
      (∀ i, i < 64 → secretWord i = false → s.fresh.reg (Reg.CTL_FUSE i) = vat s.sec.fuses i) ∧
      ∀ i, i < 64 → secretWord i = true → s.fresh.reg (Reg.CTL_FUSE i) = 0)

/-- From reset the device comes up from a valid flash image, waits for a host image, or holds short of READY (R715 to R718); a host image
that GO names starts Papol or sets BOOTERR. -/
def Obligations.BootVerifiesAndStarts : Prop :=
  ∀ (b : BootScan) (s : State) (i : Iface) (len : BitVec 18) (img : List Word), s.pap.boot = .begin → s.pap.run = .off →
    (b.testmode = true → exec (.boot b) s = .next { s with pap := { s.pap with boot := .test } }) ∧
    (b.testmode = false → scanRetires b 0 = true ∨ b.madcs = 3 → ∃ t, exec (.boot b) s = .next t ∧ t.pap.boot = .held ∧ t.pap.run = .off) ∧
    (b.testmode = false → scanRetires b 0 = false → b.madcs ≠ 3 →
      (b.bootsel = true → ∃ t, exec (.boot b) s = .next t ∧ t.on F.CTL_BOOT_STAT_WAITIMG = true ∧ t.pap.boot = .waiting ∧
        t.pap.run = .off) ∧
      (b.bootsel = false → b.slotB = none →
        (b.slotA = none → ∃ t, exec (.boot b) s = .next t ∧ t.pap.boot = .held ∧ t.pap.run = .off ∧ t.rd F.CTL_BOOT_STAT_BOOTERR = 6) ∧
        (b.slotA = some img → s.bootErr img (4 * img.length) = 0 → ∃ t, exec (.boot b) s = .next t ∧ t.pap.boot = .ready ∧
          t.pap.run = .running ∧ t.pap.version = imgVersion img ∧ t.rd F.CTL_BOOT_STAT_BOOTERR = s.rd F.CTL_BOOT_STAT_BOOTERR ∧ t.rd F.CTL_SEC_STAT_BOOTSRC = 0 ∧
          t.on F.CTL_CLK_STAT_SYSLOCK = true ∧ t.on F.SAFE_SM_STAT_SMOK = true ∧ t.on F.OUT_SW_STAT_SWON = true))) ∧
    (∀ u : State, u.pap.boot = .waiting → u.pap.run = .off → u.ifaceReady i = true → u.on F.CTL_BOOT_STAT_WAITIMG = true →
      u.poisonIn 0x20000 len.toNat = [] → u.cfgHit Reg.CTL_BOOT_CTRL = false →
      let got := u.words 0x820000 (len.toNat / 4)
      (u.bootErr got len.toNat = 0 → ∃ t, exec (.bootGo i len) u = .next t ∧ t.pap.boot = .ready ∧ t.pap.run = .running ∧
        t.pap.version = imgVersion got ∧ t.on F.CTL_BOOT_STAT_WAITIMG = false ∧ t.rd F.CTL_SEC_STAT_BOOTSRC = 2) ∧
      (u.bootErr got len.toNat ≠ 0 → ∃ t, exec (.bootGo i len) u = .next t ∧ t.pap = u.pap ∧ t.on F.CTL_BOOT_STAT_WAITIMG = true ∧
        t.rd F.CTL_BOOT_STAT_BOOTERR = u.bootErr got len.toNat ∧ t.lockOpen i = false))
end

