-- ==== Sys2Proof/Laws/Sparse.lean ====
section
/-!
SUPPORT. Read after write, the frame of a write, and that a write keeps the canonical form, for sparse contents.
-/

namespace Sys2Proof.Machine

variable {α : Type} [DecidableEq α] {dflt : Nat → α}

theorem Sparse.above_mono {lo hi : Nat} (h : lo ≤ hi) :
    ∀ {m : List (Nat × α)}, Sparse.above dflt hi m = true → Sparse.above dflt lo m = true
  | [], _ => rfl
  | (a, v) :: rest, hm => by
    simp only [Sparse.above, Bool.and_eq_true, decide_eq_true_eq] at hm ⊢
    exact ⟨⟨Nat.le_trans h hm.1.1, hm.1.2⟩, hm.2⟩

theorem Sparse.get_erase_same (k : Nat) : ∀ m : List (Nat × α), Sparse.get dflt (Sparse.erase m k) k = dflt k
  | [] => rfl
  | (a, w) :: rest => by
    simp only [Sparse.erase]
    split
    · exact Sparse.get_erase_same k rest
    · rename_i h; simp only [Sparse.get, if_neg h]; exact Sparse.get_erase_same k rest

theorem Sparse.get_erase_ne {k j : Nat} (h : j ≠ k) :
    ∀ m : List (Nat × α), Sparse.get dflt (Sparse.erase m k) j = Sparse.get dflt m j
  | [] => rfl
  | (a, w) :: rest => by
    simp only [Sparse.erase]
    split
    · subst_vars; simp only [Sparse.get, if_neg (Ne.symm h)]; exact Sparse.get_erase_ne h rest
    · simp only [Sparse.get]; rw [Sparse.get_erase_ne h rest]

theorem Sparse.get_insert_ne {k j : Nat} (v : α) (h : j ≠ k) :
    ∀ m : List (Nat × α), Sparse.get dflt (Sparse.insert m k v) j = Sparse.get dflt m j
  | [] => by simp [Sparse.insert, Sparse.get, Ne.symm h]
  | (a, w) :: rest => by
    simp only [Sparse.insert]
    split
    · simp [Sparse.get, Ne.symm h]
    · simp only [Sparse.get]; rw [Sparse.get_insert_ne v h rest]

theorem Sparse.get_insert_erase (k : Nat) (v : α) :
    ∀ m : List (Nat × α), Sparse.get dflt (Sparse.insert (Sparse.erase m k) k v) k = v
  | [] => by simp [Sparse.erase, Sparse.insert, Sparse.get]
  | (a, w) :: rest => by
    simp only [Sparse.erase]
    split
    · exact Sparse.get_insert_erase k v rest
    · rename_i h
      simp only [Sparse.insert]
      split
      · simp [Sparse.get]
      · simp only [Sparse.get, if_neg h]; exact Sparse.get_insert_erase k v rest

/-- A read of the key written gives the value written, whatever the contents were. -/
@[simp] theorem Sparse.get_set_same (m : List (Nat × α)) (k : Nat) (v : α) :
    Sparse.get dflt (Sparse.set dflt m k v) k = v := by
  simp only [Sparse.set]
  split
  · rename_i h; rw [Sparse.get_erase_same, h]
  · exact Sparse.get_insert_erase k v m

/-- A write leaves every other key as it was. -/
theorem Sparse.get_set_ne {k j : Nat} (v : α) (h : j ≠ k) (m : List (Nat × α)) :
    Sparse.get dflt (Sparse.set dflt m k v) j = Sparse.get dflt m j := by
  simp only [Sparse.set]
  split
  · exact Sparse.get_erase_ne h m
  · rw [Sparse.get_insert_ne v h, Sparse.get_erase_ne h]

theorem Sparse.above_erase (k : Nat) :
    ∀ {lo : Nat} {m : List (Nat × α)}, Sparse.above dflt lo m = true → Sparse.above dflt lo (Sparse.erase m k) = true
  | _, [], _ => rfl
  | lo, (a, w) :: rest, h => by
    simp only [Sparse.above, Bool.and_eq_true, decide_eq_true_eq] at h
    simp only [Sparse.erase]
    split
    · exact Sparse.above_mono (by omega) (Sparse.above_erase k h.2)
    · simp only [Sparse.above, Bool.and_eq_true, decide_eq_true_eq]
      exact ⟨h.1, Sparse.above_erase k h.2⟩

theorem Sparse.above_insert_erase {k : Nat} {v : α} (hv : v ≠ dflt k) :
    ∀ {lo : Nat} {m : List (Nat × α)}, lo ≤ k → Sparse.above dflt lo m = true →
      Sparse.above dflt lo (Sparse.insert (Sparse.erase m k) k v) = true
  | lo, [], hk, _ => by simp [Sparse.erase, Sparse.insert, Sparse.above, hk, hv]
  | lo, (a, w) :: rest, hk, h => by
    simp only [Sparse.above, Bool.and_eq_true, decide_eq_true_eq] at h
    simp only [Sparse.erase]
    split
    · exact Sparse.above_mono (by omega) (Sparse.above_insert_erase hv (by omega) (m := rest)
        (lo := k) (Sparse.above_mono (by omega) h.2))
    · simp only [Sparse.insert]
      split
      · simp only [Sparse.above, Bool.and_eq_true, decide_eq_true_eq]
        exact ⟨⟨hk, hv⟩, ⟨⟨by omega, h.1.2⟩, Sparse.above_erase k h.2⟩⟩
      · simp only [Sparse.above, Bool.and_eq_true, decide_eq_true_eq]
        exact ⟨h.1, Sparse.above_insert_erase hv (by omega) h.2⟩

theorem Sparse.above_filter (p : Nat × α → Bool) :
    ∀ {lo : Nat} {m : List (Nat × α)}, Sparse.above dflt lo m = true → Sparse.above dflt lo (m.filter p) = true
  | _, [], _ => rfl
  | lo, (a, w) :: rest, h => by
    simp only [Sparse.above, Bool.and_eq_true, decide_eq_true_eq] at h
    simp only [List.filter]
    split
    · simp only [Sparse.above, Bool.and_eq_true, decide_eq_true_eq]
      exact ⟨h.1, Sparse.above_filter p h.2⟩
    · exact Sparse.above_mono (by omega) (Sparse.above_filter p h.2)

/-- Entries that leave keep the canonical form of the rest. -/
theorem Sparse.wf_filter {m : List (Nat × α)} (p : Nat × α → Bool) (h : Sparse.wf dflt m = true) :
    Sparse.wf dflt (m.filter p) = true := Sparse.above_filter p h

/-- A write keeps the canonical form. -/
theorem Sparse.wf_set {m : List (Nat × α)} (k : Nat) (v : α) (h : Sparse.wf dflt m = true) :
    Sparse.wf dflt (Sparse.set dflt m k v) = true := by
  simp only [Sparse.set, Sparse.wf] at *
  split
  · exact Sparse.above_erase k h
  · rename_i hv; exact Sparse.above_insert_erase hv (Nat.zero_le k) h

end Sys2Proof.Machine
end

