-- ==== Sys2Proof/Laws/Keeps.lean ====
section
/-!
SUPPORT. What every operation of the machine keeps, said once per operation: canonical stores, capacities, programmed fuses, the
queue.
-/

namespace Sys2Proof.Machine

/-- What holds between a state and the state that an operation makes of it. -/
structure Keeps (s t : State) : Prop where
  mem     : Memory.wf s.mem = true → Memory.wf t.mem = true
  regs    : Sparse.wf regReset s.regs = true → Sparse.wf regReset t.regs = true
  engMem  : Sparse.wf (fun _ => (0 : Word)) s.engMem = true → Sparse.wf (fun _ => (0 : Word)) t.engMem = true
  replies : s.pap.replies.length ≤ 64 → t.pap.replies.length ≤ 64
  events  : s.pap.events.length ≤ 64 → t.pap.events.length ≤ 64
  reports : s.pap.reports.length ≤ 64 → t.pap.reports.length ≤ 64
  slots   : PendOk s.pap.slots → PendOk t.pap.slots
  recs    : s.saf.recs.length ≤ 32 → t.saf.recs.length ≤ 32
  fuses   : FusesKept s t
  queue   : t.pending = s.pending

theorem Keeps.refl (s : State) : Keeps s s :=
  ⟨id, id, id, id, id, id, id, id, fun _ _ h => h, rfl⟩

theorem Keeps.trans {s t u : State} (h : Keeps s t) (k : Keeps t u) : Keeps s u :=
  ⟨k.mem ∘ h.mem, k.regs ∘ h.regs, k.engMem ∘ h.engMem, k.replies ∘ h.replies, k.events ∘ h.events, k.reports ∘ h.reports,
    k.slots ∘ h.slots, k.recs ∘ h.recs, fun i b e => k.fuses i b (h.fuses i b e), k.queue.trans h.queue⟩

/-- An update that touches none of what `Keeps` speaks of. -/
theorem Keeps.same {s t : State} (mem : t.mem = s.mem) (regs : t.regs = s.regs) (eng : t.engMem = s.engMem)
    (replies : t.pap.replies = s.pap.replies) (events : t.pap.events = s.pap.events) (reports : t.pap.reports = s.pap.reports)
    (slots : t.pap.slots = s.pap.slots) (recs : t.saf.recs = s.saf.recs) (fuses : t.sec.fuses = s.sec.fuses)
    (queue : t.pending = s.pending) : Keeps s t := by
  refine ⟨?_, ?_, ?_, ?_, ?_, ?_, ?_, ?_, ?_, queue⟩ <;>
    first
      | (intro h; simpa only [mem, regs, eng, replies, events, reports, slots, recs] using h)
      | (intro i b h; simpa only [fuses] using h)

/-- A record update of a state that leaves alone what `Keeps` speaks of. -/
theorem Keeps.upd {s x : State} {link : Link} {rings : Vector RingGeo 32} {pap : Papol} {strs : List StreamX} {tdm : Vector PortX 2} {spdif : SpdifX} {graph : Graph} {leap : Vector LeapCh 32} {eng : Vector EngineX 8} {poison : List Nat} {banks : Banks} {spks : Vector SpkX 12} {groups : Vector GroupX 3} {crk : Vector CrkSlot 8} {out : OutX} {clk : ClkX} {diag : DiagX} {inp : Inputs} {tad : Tad} {wkd : WkdX} {hp : Vector HpX 2} {cv : Vector CvX 4} {hpcv : HpCvX} {madc : MadcX} {pwr : Pwr} {saf : Saf} {sec : Sec} {age : AgeX} {draw : Nat}
    (h : Keeps s x) (h1 : pap.replies = x.pap.replies) (h2 : pap.events = x.pap.events) (h3 : pap.reports = x.pap.reports)
    (h4 : pap.slots = x.pap.slots) (h5 : saf.recs = x.saf.recs) (h6 : sec.fuses = x.sec.fuses) :
    Keeps s (State.mk x.regs x.mem link rings pap strs tdm spdif graph leap eng x.engMem poison banks spks groups crk out clk diag inp tad wkd hp cv hpcv madc pwr saf sec age draw x.pending) :=
  h.trans (Keeps.same rfl rfl rfl h1 h2 h3 h4 h5 h6 rfl)

/-- A record update of a state in which each store keeps to its capacity. -/
theorem Keeps.updI {s x : State} {link : Link} {rings : Vector RingGeo 32} {pap : Papol} {strs : List StreamX} {tdm : Vector PortX 2} {spdif : SpdifX} {graph : Graph} {leap : Vector LeapCh 32} {eng : Vector EngineX 8} {poison : List Nat} {banks : Banks} {spks : Vector SpkX 12} {groups : Vector GroupX 3} {crk : Vector CrkSlot 8} {out : OutX} {clk : ClkX} {diag : DiagX} {inp : Inputs} {tad : Tad} {wkd : WkdX} {hp : Vector HpX 2} {cv : Vector CvX 4} {hpcv : HpCvX} {madc : MadcX} {pwr : Pwr} {saf : Saf} {sec : Sec} {age : AgeX} {draw : Nat}
    (h : Keeps s x) (h1 : x.pap.replies.length ≤ 64 → pap.replies.length ≤ 64) (h2 : x.pap.events.length ≤ 64 → pap.events.length ≤ 64)
    (h3 : x.pap.reports.length ≤ 64 → pap.reports.length ≤ 64) (h4 : PendOk x.pap.slots → PendOk pap.slots)
    (h5 : x.saf.recs.length ≤ 32 → saf.recs.length ≤ 32)
    (h6 : ∀ (i : Fin 64) (b : Nat), (x.sec.fuses[i]).getLsbD b = true → (sec.fuses[i]).getLsbD b = true) :
    Keeps s (State.mk x.regs x.mem link rings pap strs tdm spdif graph leap eng x.engMem poison banks spks groups crk out clk diag inp tad wkd hp cv hpcv madc pwr saf sec age draw x.pending) :=
  h.trans ⟨id, id, id, h1, h2, h3, h4, h5, h6, rfl⟩

theorem Keeps.setReg (s : State) (a : Nat) (w : Word) : Keeps s (s.setReg a w) :=
  ⟨id, Sparse.wf_set a w, id, id, id, id, id, id, fun _ _ h => h, rfl⟩

theorem Keeps.setByte (s : State) (a : Nat) (b : Byte) : Keeps s (s.setByte a b) :=
  ⟨Sparse.wf_set a b, id, id, id, id, id, id, id, fun _ _ h => h, rfl⟩

theorem Keeps.forEach {z : State} {f : Nat → State → State} (h : ∀ i x y, Keeps x y → Keeps x (f i y)) :
    ∀ {n : Nat} {s : State}, Keeps z s → Keeps z (forEach f n s)
  | 0, _, k => k
  | _ + 1, _, k => h _ _ _ (Keeps.forEach h k)

theorem Keeps.forMask {z : State} {f : Nat → State → State} (h : ∀ i x y, Keeps x y → Keeps x (f i y)) {m n : Nat} {s : State}
    (k : Keeps z s) : Keeps z (forMask m f n s) :=
  Keeps.forEach (f := fun i a => if inMask m i then f i a else a) (fun i x y k => by split; exacts [h i x y k, k]) k

theorem Keeps.foldl {α : Type} {z : State} {f : State → α → State} (h : ∀ x y a, Keeps x y → Keeps x (f y a)) :
    ∀ {l : List α} {s : State}, Keeps z s → Keeps z (l.foldl f s)
  | [], _, k => k
  | a :: l, s, k => Keeps.foldl h (l := l) (s := f s a) (h z s a k)

theorem Keeps.ite {p : Prop} [Decidable p] {s t u : State} (h : Keeps s t) (k : Keeps s u) : Keeps s (if p then t else u) := by
  split; exacts [h, k]

/-- A command card's result keeps what its state keeps. -/
def ResKeeps (s : State) : Res → Prop
  | .refuse _ _ => True
  | .done _ _ _ _ t => Keeps s t
  | .pend _ _ t => Keeps s t

/-- An optional state, where there is one. -/
def OptKeeps (s : State) : Option State → Prop
  | none => True
  | some t => Keeps s t

/-- A command's outcome keeps, where it answers a next state. -/
def OutKeeps (s : State) : Host.Outcome State Fault Refusal → Prop
  | .next t => Keeps s t
  | .fault _ => True
  | .refused _ => True

theorem Keeps.fst {α : Type} {s t : State} {p : State × α} {r : α} (e : p = (t, r)) (h : Keeps s p.1) : Keeps s t := by
  subst e; exact h

theorem OptKeeps.get {s t : State} {o : Option State} (e : o = some t) (h : OptKeeps s o) : Keeps s t := by subst e; exact h

/-- `Keeps` but for the event journal. -/
structure KeepsE (s t : State) : Prop where
  mem     : Memory.wf s.mem = true → Memory.wf t.mem = true
  regs    : Sparse.wf regReset s.regs = true → Sparse.wf regReset t.regs = true
  engMem  : Sparse.wf (fun _ => (0 : Word)) s.engMem = true → Sparse.wf (fun _ => (0 : Word)) t.engMem = true
  replies : s.pap.replies.length ≤ 64 → t.pap.replies.length ≤ 64
  reports : s.pap.reports.length ≤ 64 → t.pap.reports.length ≤ 64
  slots   : PendOk s.pap.slots → PendOk t.pap.slots
  recs    : s.saf.recs.length ≤ 32 → t.saf.recs.length ≤ 32
  fuses   : FusesKept s t
  queue   : t.pending = s.pending

theorem KeepsE.trans {s t u : State} (h : KeepsE s t) (k : KeepsE t u) : KeepsE s u :=
  ⟨k.mem ∘ h.mem, k.regs ∘ h.regs, k.engMem ∘ h.engMem, k.replies ∘ h.replies, k.reports ∘ h.reports,
    k.slots ∘ h.slots, k.recs ∘ h.recs, fun i b e => k.fuses i b (h.fuses i b e), k.queue.trans h.queue⟩

theorem Keeps.toE {s t : State} (h : Keeps s t) : KeepsE s t := by
  obtain ⟨mem, regs, engMem, replies, events, reports, slots, recs, fuses, queue⟩ := h
  exact { mem, regs, engMem, replies, reports, slots, recs, fuses, queue }

theorem KeepsE.full {s t : State} (h : KeepsE s t) (e : s.pap.events.length ≤ 64 → t.pap.events.length ≤ 64) : Keeps s t := by
  obtain ⟨mem, regs, engMem, replies, reports, slots, recs, fuses, queue⟩ := h
  exact { mem, regs, engMem, replies, events := e, reports, slots, recs, fuses, queue }

/-- An update that touches nothing of `KeepsE`. -/
theorem KeepsE.same {s t : State} (mem : t.mem = s.mem) (regs : t.regs = s.regs) (eng : t.engMem = s.engMem)
    (replies : t.pap.replies = s.pap.replies) (reports : t.pap.reports = s.pap.reports)
    (slots : t.pap.slots = s.pap.slots) (recs : t.saf.recs = s.saf.recs) (fuses : t.sec.fuses = s.sec.fuses)
    (queue : t.pending = s.pending) : KeepsE s t := by
  refine ⟨?_, ?_, ?_, ?_, ?_, ?_, ?_, ?_, queue⟩ <;>
    first
      | (intro h; simpa only [mem, regs, eng, replies, reports, slots, recs] using h)
      | (intro i b h; simpa only [fuses] using h)

theorem le_map {α : Type} {l : List α} {n : Nat} (f : α → α) (h : l.length ≤ n) : (l.map f).length ≤ n := by simpa using h

theorem ResKeeps.ite {p : Prop} [Decidable p] {s : State} {t u : Res} (h : ResKeeps s t) (k : ResKeeps s u) :
    ResKeeps s (if p then t else u) := by
  split; exacts [h, k]

theorem OptKeeps.ite {p : Prop} [Decidable p] {s : State} {t u : Option State} (h : OptKeeps s t) (k : OptKeeps s u) :
    OptKeeps s (if p then t else u) := by
  split; exacts [h, k]

theorem OutKeeps.ite {p : Prop} [Decidable p] {s : State} {t u : Host.Outcome State Fault Refusal} (h : OutKeeps s t)
    (k : OutKeeps s u) : OutKeeps s (if p then t else u) := by
  split; exacts [h, k]

theorem keepsId {s t : State} (h : Keeps s t) : Keeps s (id t) := h

theorem optGetD {z s : State} {o : Option State} (h : OptKeeps z o) (k : Keeps z s) : Keeps z (o.getD s) := by
  cases o; exacts [k, h]

theorem outNext {s t : State} (h : Keeps s t) : OutKeeps s (.next t) := h
theorem outFault {s : State} {r : Fault} : OutKeeps s (.fault r) := trivial
theorem outRefused {s : State} {r : Refusal} : OutKeeps s (.refused r) := trivial
theorem resDone {s t : State} {a b : Nat} {ws : List Word} {cl : List Clamp} (h : Keeps s t) : ResKeeps s (.done a b ws cl t) := h
theorem resPend {s t : State} {ws : List Word} {ts : List Target} (h : Keeps s t) : ResKeeps s (.pend ws ts t) := h
theorem optSome {s t : State} (h : Keeps s t) : OptKeeps s (some t) := h
theorem resRefuse {s : State} {a b : Nat} : ResKeeps s (.refuse a b) := trivial
theorem optNone {s : State} : OptKeeps s none := trivial

end Sys2Proof.Machine
end

