-- ==== Sys2Proof/Laws/KeepsOps.lean ====
section
/-!
SUPPORT. What the operations of Machine/Ops.lean keep (Laws/Keeps.lean).
-/

set_option linter.unusedTactic false
set_option linter.unreachableTactic false
set_option linter.unusedVariables false

namespace Sys2Proof.Machine

theorem setReg_keeps {zz s : State} {a : Nat} {w : Word} (k : Keeps zz s) : Keeps zz (s.setReg a w) := k.trans (Keeps.setReg s a w)

theorem wr_keeps {zz : State} {s : State} {f : Field} {v : Nat} (hzz : Keeps zz s) :
    Keeps zz (State.wr s f v) := by
  unfold State.wr
  (try dsimp only)
  repeat' (first
    | with_reducible assumption
    | with_reducible apply setReg_keeps)

theorem set1_keeps {zz : State} {s : State} {f : Field} (hzz : Keeps zz s) :
    Keeps zz (State.set1 s f) := by
  unfold State.set1
  (try dsimp only)
  repeat' (first
    | with_reducible assumption
    | with_reducible apply wr_keeps)

theorem clr_keeps {zz : State} {s : State} {f : Field} (hzz : Keeps zz s) :
    Keeps zz (State.clr s f) := by
  unfold State.clr
  (try dsimp only)
  repeat' (first
    | with_reducible assumption
    | with_reducible apply wr_keeps)

theorem sat_keeps {zz : State} {s : State} {f : Field} {n : Nat} (hzz : Keeps zz s) :
    Keeps zz (State.sat s f n) := by
  unfold State.sat
  (try dsimp only)
  repeat' (first
    | with_reducible assumption
    | with_reducible apply wr_keeps)

theorem wrap_keeps {zz : State} {s : State} {f : Field} {n : Nat} (hzz : Keeps zz s) :
    Keeps zz (State.wrap s f n) := by
  unfold State.wrap
  (try dsimp only)
  repeat' (first
    | with_reducible assumption
    | with_reducible apply wr_keeps)

theorem wr64_keeps {zz : State} {s : State} {a : Nat} {v : Nat} (hzz : Keeps zz s) :
    Keeps zz (State.wr64 s a v) := by
  unfold State.wr64
  (try dsimp only)
  repeat' (first
    | with_reducible assumption
    | with_reducible apply setReg_keeps)

theorem tick_keeps {zz : State} {s : State} {n : Nat} (hzz : Keeps zz s) :
    Keeps zz (State.tick s n) := by
  unfold State.tick
  (try dsimp only)
  repeat' (first
    | with_reducible assumption
    | with_reducible apply wr64_keeps)

theorem setByte_keeps {zz s : State} {a : Nat} {b : Byte} (k : Keeps zz s) : Keeps zz (s.setByte a b) := k.trans (Keeps.setByte s a b)

theorem setWord_keeps {zz : State} {s : State} {a : Nat} {w : Word} (hzz : Keeps zz s) :
    Keeps zz (State.setWord s a w) := by
  unfold State.setWord
  (try dsimp only)
  repeat' (first
    | with_reducible assumption
    | with_reducible apply setByte_keeps
    | with_reducible fail_if_no_progress refine Keeps.upd ?_ rfl rfl rfl rfl rfl rfl)

theorem drawn_keeps {zz : State} {s : State} (hzz : Keeps zz s) :
    Keeps zz (State.drawn s) := by
  unfold State.drawn
  (try dsimp only)
  repeat' (first
    | with_reducible assumption
    | with_reducible fail_if_no_progress refine Keeps.upd ?_ rfl rfl rfl rfl rfl rfl)

end Sys2Proof.Machine
end

