-- ==== Sys2Proof/Laws/KeepsEvents.lean ====
section
/-!
SUPPORT. What the operations of Machine/Events.lean keep (Laws/Keeps.lean).
-/

set_option linter.unusedTactic false
set_option linter.unreachableTactic false
set_option linter.unusedVariables false

namespace Sys2Proof.Machine

theorem putRing_keeps {zz : State} {n : Nat} : ∀ {ws : List Word} {i : Nat} {s : State}, Keeps zz s → Keeps zz (s.putRing n i ws)
  | [], _, _, k => k
  | _ :: _, _, _, k => by unfold State.putRing; exact putRing_keeps (setWord_keeps k)

theorem ringPut_keeps {zz : State} {s : State} {n : Nat} {ws : List Word} (hzz : Keeps zz s) :
    Keeps zz (State.ringPut s n ws) := by
  unfold State.ringPut
  (try dsimp only)
  repeat' (first
    | with_reducible assumption
    | with_reducible apply wr_keeps
    | with_reducible apply putRing_keeps)

theorem flushEvents_keepsE : ∀ (l acc : List EventEntry) (s : State), KeepsE s (s.flushEvents acc l)
  | [], acc, s => KeepsE.same rfl rfl rfl rfl rfl rfl rfl rfl rfl
  | e :: rest, acc, s => by
    unfold State.flushEvents
    split
    · exact flushEvents_keepsE rest _ s
    · split
      · refine KeepsE.trans ?_ (flushEvents_keepsE rest _ _)
        have k := ringPut_keeps (n := 3) (ws := e.words false) (Keeps.refl s)
        exact ⟨k.mem, k.regs, k.engMem, id, id, id, k.recs, k.fuses, k.queue⟩
      · exact KeepsE.same rfl rfl rfl rfl rfl rfl rfl rfl rfl

theorem flushEvents_length : ∀ (l acc : List EventEntry) (s : State),
    (s.flushEvents acc l).pap.events.length = acc.length + l.length
  | [], acc, s => by simp [State.flushEvents]
  | e :: rest, acc, s => by
    unfold State.flushEvents
    split
    · rw [flushEvents_length rest]; simp; omega
    · split
      · rw [flushEvents_length rest]; simp; omega
      · simp

/-- Writing what ring 3 has space for keeps the journal's entries. -/
theorem flush_keeps {zz s : State} (k : Keeps zz s) : Keeps zz s.flush :=
  k.trans <| (flushEvents_keepsE s.pap.events [] s).full fun h => by
    show (s.flushEvents [] s.pap.events).pap.events.length ≤ 64
    rw [flushEvents_length]; simpa using h

theorem keepRepost_keeps {zz : State} {s : State} {e : EventEntry} (hzz : Keeps zz s) :
    Keeps zz (State.keepRepost s e) := by
  unfold State.keepRepost
  (try dsimp only)
  repeat' (first
    | with_reducible assumption
    | with_reducible apply Keeps.ite
    | with_reducible fail_if_no_progress refine Keeps.upd ?_ rfl rfl rfl rfl rfl rfl)

theorem evict_length {k : Option (BitVec 16)} {l rest : List EventEntry} {e : EventEntry} (h : evict k l = some (e, rest)) :
    l.length = rest.length + 1 := by
  unfold evict at h
  split at h
  · cases h
  · split at h
    · split at h <;> (cases h; simp)
    · cases h; simp

theorem journalEvent_keepsE (s : State) (c : Nat) (pl : List Word) (r : Bool) (t : Word64) : KeepsE s (s.journalEvent c pl r t) :=
  KeepsE.same rfl rfl rfl rfl rfl rfl rfl rfl rfl

theorem keepRepost_events (s : State) (e : EventEntry) : (s.keepRepost e).pap.events = s.pap.events := by
  unfold State.keepRepost; split <;> rfl

theorem trimEvents_keepsE : ∀ (n : Nat) (s : State), KeepsE s (s.trimEvents n)
  | 0, s => (Keeps.refl s).toE
  | n + 1, s => by
    unfold State.trimEvents
    split
    · exact (Keeps.refl s).toE
    · split
      · exact (Keeps.refl s).toE
      · dsimp only
        split
        · refine KeepsE.trans ?_ (trimEvents_keepsE n _)
          unfold State.keepRepost
          split <;> exact KeepsE.same rfl rfl rfl rfl rfl rfl rfl rfl rfl
        · split
          · refine KeepsE.trans ?_ (trimEvents_keepsE n _)
            exact KeepsE.same rfl rfl rfl rfl rfl rfl rfl rfl rfl
          · refine KeepsE.trans ?_ (trimEvents_keepsE n _)
            exact KeepsE.same rfl rfl rfl rfl rfl rfl rfl rfl rfl

theorem trimEvents_of_le (n : Nat) {s : State} (h : s.pap.events.length ≤ 64) : s.trimEvents n = s := by
  cases n with
  | zero => rfl
  | succ n => unfold State.trimEvents; rw [if_pos h]

theorem trimEvents_waiting (n : Nat) {s : State} (ov : BitVec 16) (ho : s.pap.overflow = some ov) (h : s.pap.events.length ≤ 65) :
    (s.trimEvents (n + 1)).pap.events.length ≤ 64 := by
  unfold State.trimEvents
  split
  · assumption
  · split
    · rename_i hn; unfold evict at hn
      split at hn
      · rename_i hl _ ; rw [‹s.pap.events = []›]; simp
      · split at hn
        · split at hn <;> cases hn
        · cases hn
    · rename_i e rest he
      have hl := evict_length he
      dsimp only
      split
      · rw [trimEvents_of_le] <;> rw [keepRepost_events] <;> (dsimp only; omega)
      · rw [ho]; dsimp only
        rw [trimEvents_of_le] <;> (simp only [widen, List.length_map]; omega)

/-- One event more than 64 leaves again. -/
theorem trimEvents_length {s : State} (h : s.pap.events.length ≤ 65) : (s.trimEvents 4).pap.events.length ≤ 64 := by
  unfold State.trimEvents
  split
  · assumption
  · split
    · rename_i hn; unfold evict at hn
      split at hn
      · rw [‹s.pap.events = []›]; simp
      · split at hn
        · split at hn <;> cases hn
        · cases hn
    · rename_i e rest he
      have hl := evict_length he
      dsimp only
      split
      · rw [trimEvents_of_le] <;> rw [keepRepost_events] <;> (dsimp only; omega)
      · split
        · rw [trimEvents_of_le] <;> (simp only [widen, List.length_map]; omega)
        · exact trimEvents_waiting 2 _ rfl (by simp only [State.journalEvent, List.length_append, List.length_singleton]; omega)

/-- An event issued leaves at most 64 in the journal (spec/04_command_protocol.md, R188). -/
theorem issueAt_keeps {zz s : State} {code : Nat} {payload : List Word} {repost : Bool} {time : Word64} (k : Keeps zz s) :
    Keeps zz (s.issueAt code payload repost time) := by
  unfold State.issueAt
  apply flush_keeps
  refine k.trans ?_
  exact ((journalEvent_keepsE s code payload repost time).trans (trimEvents_keepsE 4 _)).full fun h =>
    trimEvents_length (by simp only [State.journalEvent, List.length_append, List.length_singleton]; omega)

theorem sysRun_keeps {zz : State} {s : State} (hzz : Keeps zz s) :
    Keeps zz (State.sysRun s) := by
  unfold State.sysRun
  (try dsimp only)
  repeat' (first
    | with_reducible assumption
    | with_reducible apply set1_keeps
    | with_reducible apply Keeps.ite)

theorem raiseR_keeps {zz s : State} {code : Nat} {payload : List Word} {repost : Bool} (k : Keeps zz s) :
    Keeps zz (s.raiseR code payload repost) := by
  unfold State.raiseR
  split
  · exact issueAt_keeps (sysRun_keeps k)
  · split
    · exact Keeps.updI k id id (fun _ => by simp only [List.length_append, List.length_singleton]; omega) id id
        (fun _ _ h => h)
    · exact Keeps.upd k rfl rfl rfl rfl rfl rfl

theorem raise_keeps {zz : State} {s : State} {code : Nat} {payload : List Word} (hzz : Keeps zz s) :
    Keeps zz (State.raise s code payload) := by
  unfold State.raise
  (try dsimp only)
  repeat' (first
    | with_reducible assumption
    | with_reducible apply raiseR_keeps)

end Sys2Proof.Machine
end

