-- ==== Sys2Proof/Laws/KeepsPapol.lean ====
section
/-!
SUPPORT. What the operations of Machine/Papol.lean keep (Laws/Keeps.lean).
-/

set_option linter.unusedTactic false
set_option linter.unreachableTactic false
set_option linter.unusedVariables false

namespace Sys2Proof.Machine

theorem Res.ok_keeps {zz : State} {s : State} (hzz : Keeps zz s) :
    ResKeeps zz (Res.ok s) := by
  unfold Res.ok
  (try dsimp only)
  repeat' (first
    | with_reducible assumption
    | with_reducible apply resDone)

theorem Res.clampedOk_keeps {zz : State} {words : List Word} {cl : List Clamp} {s : State} (hzz : Keeps zz s) :
    ResKeeps zz (Res.clampedOk words cl s) := by
  unfold Res.clampedOk
  (try dsimp only)
  repeat' (first
    | with_reducible assumption
    | with_reducible apply resDone
    | (split <;> try dsimp only))

theorem bad_keeps {s : State} {i : Nat} : ResKeeps s (Res.bad i) := trivial

theorem completed_keeps {zz : State} {s : State} {ring1 : Bool} {cseq : BitVec 16} (hzz : Keeps zz s) :
    Keeps zz (State.completed s ring1 cseq) := by
  unfold State.completed
  (try dsimp only)
  repeat' (first
    | with_reducible assumption
    | (split <;> try dsimp only)
    | with_reducible fail_if_no_progress refine Keeps.upd ?_ rfl rfl rfl rfl rfl rfl)

theorem updReply_length (ring1 : Bool) (c : BitVec 16) (f : ReplyEntry → ReplyEntry) :
    ∀ l : List ReplyEntry, (updReply ring1 c f l).length = l.length
  | [] => rfl
  | e :: rest => by
    unfold updReply
    split
    · simp
    · simp [updReply_length ring1 c f rest]

theorem pushReply_length (l : List ReplyEntry) (e : ReplyEntry) : (pushReply l e).length ≤ 64 := by
  simp only [pushReply, List.length_drop, List.length_append, List.length_singleton]; omega

theorem wrote_keeps {zz s : State} {h : HeldReply} (k : Keeps zz s) : Keeps zz (s.wrote h) := by
  unfold State.wrote
  dsimp only
  have h1 : Keeps zz (if h.journaled then { s with pap := { s.pap with
      replies := updReply h.ring1 h.cseq (fun e => { e with eseq := s.pap.eseq }) s.pap.replies } } else s) := by
    split
    · exact Keeps.updI k (fun k => by rw [updReply_length]; exact k) id id id id (fun _ _ h => h)
    · exact k
  split
  · exact completed_keeps h1
  · exact h1

theorem flushHeld_keeps {zz : State} : ∀ {l : List HeldReply} {s : State}, Keeps zz s → Keeps zz (s.flushHeld l)
  | [], s, k => Keeps.upd k rfl rfl rfl rfl rfl rfl
  | h :: rest, s, k => by
    unfold State.flushHeld
    split
    · exact flushHeld_keeps (wrote_keeps (ringPut_keeps k))
    · exact Keeps.upd k rfl rfl rfl rfl rfl rfl

theorem emit_keeps {zz : State} {s : State} {h : HeldReply} (hzz : Keeps zz s) :
    Keeps zz (State.emit s h) := by
  unfold State.emit
  (try dsimp only)
  repeat' (first
    | with_reducible assumption
    | with_reducible apply flushHeld_keeps)

theorem answer_keeps {zz s : State} {opcode : Nat} {p : Packet} {auth journal : Bool} {status detail : Nat} {trunc : Bool}
    {payload : List Word} (k : Keeps zz s) : Keeps zz (s.answer opcode p auth journal status detail trunc payload) := by
  have h1 : ∀ e, Keeps zz (if journal then { s with pap := { s.pap with replies := pushReply s.pap.replies e } } else s) := by
    intro e
    split
    · exact Keeps.updI k (fun _ => pushReply_length _ _) id id id id (fun _ _ h => h)
    · exact k
  unfold State.answer
  dsimp only
  split
  · split
    · exact completed_keeps (h1 _)
    · exact h1 _
  · exact emit_keeps (h1 _)

theorem raiseClamps_keeps {zz : State} {s : State} {opcode : Nat} {cl : List Clamp} (hzz : Keeps zz s) :
    Keeps zz (State.raiseClamps s opcode cl) := by
  unfold State.raiseClamps
  (try dsimp only)
  repeat' (first
    | with_reducible assumption
    | (intro _; (try dsimp only))
    | with_reducible apply raise_keeps
    | with_reducible apply Keeps.foldl)

theorem countCfg_keeps {zz : State} {s : State} {cfg : Bool} {status : Nat} (hzz : Keeps zz s) :
    Keeps zz (State.countCfg s cfg status) := by
  unfold State.countCfg
  (try dsimp only)
  repeat' (first
    | with_reducible assumption
    | with_reducible apply Keeps.ite
    | with_reducible fail_if_no_progress refine Keeps.upd ?_ rfl rfl rfl rfl rfl rfl)

theorem raiseSecurity_keeps {zz : State} {s : State} {kind cause consec lowHalf : Nat} (hzz : Keeps zz s) :
    Keeps zz (State.raiseSecurity s kind cause consec lowHalf) := by
  unfold State.raiseSecurity
  (try dsimp only)
  repeat' (first
    | with_reducible assumption
    | with_reducible apply raise_keeps)

theorem closeSession_keeps {zz : State} {s : State} {cause : Nat} (hzz : Keeps zz s) :
    Keeps zz (State.closeSession s cause) := by
  unfold State.closeSession
  (try dsimp only)
  repeat' (first
    | with_reducible assumption
    | with_reducible apply clr_keeps
    | with_reducible apply raiseSecurity_keeps
    | with_reducible apply Keeps.ite
    | with_reducible fail_if_no_progress refine Keeps.upd ?_ rfl rfl rfl rfl rfl rfl)

theorem startLockout_keeps {zz : State} {s : State} (hzz : Keeps zz s) :
    Keeps zz (State.startLockout s) := by
  unfold State.startLockout
  (try dsimp only)
  repeat' (first
    | with_reducible assumption
    | with_reducible apply wr_keeps
    | with_reducible apply set1_keeps
    | with_reducible apply clr_keeps
    | with_reducible apply sat_keeps
    | with_reducible apply raiseSecurity_keeps
    | (split <;> try dsimp only)
    | with_reducible fail_if_no_progress refine Keeps.upd ?_ rfl rfl rfl rfl rfl rfl)

theorem authFailed_keeps {zz : State} {s : State} (hzz : Keeps zz s) :
    Keeps zz (State.authFailed s) := by
  unfold State.authFailed
  (try dsimp only)
  repeat' (first
    | with_reducible assumption
    | with_reducible apply sat_keeps
    | with_reducible apply raiseSecurity_keeps
    | with_reducible apply Keeps.ite)

theorem authPassed_keeps {zz : State} {s : State} (hzz : Keeps zz s) :
    Keeps zz (State.authPassed s) := by
  unfold State.authPassed
  (try dsimp only)
  repeat' (first
    | with_reducible assumption
    | with_reducible apply wr_keeps)

theorem putKey_keeps {zz : State} {s : State} {key : Option (List Word × Nat)} (hzz : Keeps zz s) :
    Keeps zz (State.putKey s key) := by
  unfold State.putKey
  (try dsimp only)
  repeat' (first
    | with_reducible assumption
    | with_reducible apply wr_keeps
    | with_reducible apply set1_keeps
    | with_reducible apply wrap_keeps
    | with_reducible apply closeSession_keeps
    | (split <;> try dsimp only)
    | with_reducible fail_if_no_progress refine Keeps.upd ?_ rfl rfl rfl rfl rfl rfl)

theorem busyWith_keeps {s : State} {e : PendEntry} : ResKeeps s (busyWith e) := trivial

theorem unlessBusy_keeps {zz : State} {s : State} {ts : List Target} {k : Res} (hk : ResKeeps zz k) (hzz : Keeps zz s) :
    ResKeeps zz (State.unlessBusy s ts k) := by
  unfold State.unlessBusy
  (try dsimp only)
  repeat' (first
    | with_reducible assumption
    | with_reducible exact busyWith_keeps
    | (split <;> try dsimp only))

theorem insertPend_mem {e g : PendEntry} : ∀ {l : List PendEntry}, g ∈ insertPend e l → g = e ∨ g ∈ l
  | [], h => Or.inl (by simpa [insertPend] using h)
  | f :: rest, h => by
    unfold insertPend at h
    split at h
    · simpa using h
    · rcases List.mem_cons.1 h with rfl | h
      · exact Or.inr (List.mem_cons_self ..)
      · exact (insertPend_mem h).imp id (List.mem_cons_of_mem _)

theorem dropPend_keeps {zz s : State} {slot : Nat} (k : Keeps zz s) : Keeps zz (s.dropPend slot) :=
  Keeps.updI k id id id
    (fun h => ⟨h.1.sublist (List.Sublist.map _ List.filter_sublist), fun e he => h.2 e (List.mem_filter.1 he).1⟩) id (fun _ _ h => h)

theorem postDone_keeps {zz s : State} {e : PendEntry} {status detail : Nat} {words : List Word} {clamps : List Clamp} {time : Word64} (k : Keeps zz s) :
    Keeps zz (s.postDone e status detail words clamps time) := by
  unfold State.postDone
  apply raiseClamps_keeps
  apply issueAt_keeps
  apply countCfg_keeps
  apply completed_keeps
  exact Keeps.updI (dropPend_keeps k) (fun k => by rw [updReply_length]; exact k) id id id id (fun _ _ h => h)

theorem finishWith_keeps {zz s : State} {e : PendEntry} {status d : Nat} {words : List Word} {clamps : List Clamp}
    {key : Option (List Word × Nat)} (k : Keeps zz s) : Keeps zz (s.finishWith e status d words clamps key) := by
  unfold State.finishWith
  dsimp only
  split
  · exact postDone_keeps (putKey_keeps (sysRun_keeps k))
  · refine Keeps.updI k id id id (fun h => ?_) id (fun _ _ h => h)
    refine ⟨?_, fun f hf => ?_⟩
    · rw [List.map_map]
      convert h.1 using 2
      funext f; simp only [Function.comp]; split <;> rfl
    · obtain ⟨g, hg, rfl⟩ := List.mem_map.1 hf
      have := h.2 g hg
      split <;> exact this

theorem finish_keeps {zz : State} {s : State} {e : PendEntry} {status d : Nat} {words : List Word} {clamps : List Clamp} (hzz : Keeps zz s) :
    Keeps zz (State.finish s e status d words clamps) := by
  unfold State.finish
  (try dsimp only)
  repeat' (first
    | with_reducible assumption
    | with_reducible apply finishWith_keeps)

theorem finishAll_keeps {zz : State} {s : State} {sel : PendEntry → Bool} {status detail : Nat} (hzz : Keeps zz s) :
    Keeps zz (State.finishAll s sel status detail) := by
  unfold State.finishAll
  (try dsimp only)
  repeat' (first
    | with_reducible assumption
    | (intro _; (try dsimp only))
    | with_reducible apply finish_keeps
    | with_reducible apply Keeps.foldl)

theorem finishFor_keeps {zz : State} {s : State} {t : Target} {opcode status : Nat} {words : List Word} (hzz : Keeps zz s) :
    Keeps zz (State.finishFor s t opcode status words) := by
  unfold State.finishFor
  (try dsimp only)
  repeat' (first
    | with_reducible assumption
    | with_reducible apply finish_keeps
    | (split <;> try dsimp only))

theorem postRec_keeps {zz : State} {s : State} {e : PendEntry} {d : DoneRec} (hzz : Keeps zz s) :
    Keeps zz (State.postRec s e d) := by
  unfold State.postRec
  (try dsimp only)
  repeat' (first
    | with_reducible assumption
    | with_reducible apply putKey_keeps
    | with_reducible apply postDone_keeps)

theorem drain_keeps {zz : State} : ∀ {n : Nat} {s : State}, Keeps zz s → Keeps zz (s.drain n)
  | 0, _, k => k
  | n + 1, s, k => by
    have hr : ∀ r : Report, Keeps zz ((({ s with pap := { s.pap with reports := s.pap.reports.drop 1 } } : State)).issueAt r.ecode
        r.payload r.repost r.time) := by
      intro r
      apply issueAt_keeps
      exact Keeps.updI k id id (fun h => by simp only [List.length_drop]; omega) id id (fun _ _ h => h)
    unfold State.drain
    dsimp only
    split
    · apply drain_keeps
      split
      · exact hr _
      · exact postRec_keeps k
    · exact drain_keeps (hr _)
    · exact drain_keeps (postRec_keeps k)
    · exact k

theorem papolRuns_keeps {zz : State} {s : State} (hzz : Keeps zz s) :
    Keeps zz (State.papolRuns s) := by
  unfold State.papolRuns
  (try dsimp only)
  repeat' (first
    | with_reducible assumption
    | with_reducible apply drawn_keeps
    | with_reducible apply issueAt_keeps
    | with_reducible apply drain_keeps
    | with_reducible apply Keeps.ite
    | with_reducible fail_if_no_progress refine Keeps.upd ?_ rfl rfl rfl rfl rfl rfl)

theorem advance_keeps {zz : State} {s : State} {ring1 : Bool} (hzz : Keeps zz s) :
    Keeps zz (State.advance s ring1) := by
  unfold State.advance
  (try dsimp only)
  repeat' (first
    | with_reducible assumption
    | (split <;> try dsimp only)
    | with_reducible fail_if_no_progress refine Keeps.upd ?_ rfl rfl rfl rfl rfl rfl)

theorem takeEack_keeps {zz : State} {s : State} {e : BitVec 16} (hzz : Keeps zz s) :
    Keeps zz (State.takeEack s e) := by
  unfold State.takeEack
  (try dsimp only)
  repeat' (first
    | with_reducible assumption
    | with_reducible apply Keeps.ite
    | with_reducible fail_if_no_progress refine Keeps.upd ?_ rfl rfl rfl rfl rfl rfl)

theorem answerSeq_keeps {zz : State} {s : State} {opcode : Nat} {p : Packet} (hzz : Keeps zz s) :
    Keeps zz (State.answerSeq s opcode p) := by
  unfold State.answerSeq
  (try dsimp only)
  repeat' (first
    | with_reducible assumption
    | with_reducible apply emit_keeps
    | with_reducible apply answer_keeps
    | with_reducible apply Keeps.ite
    | (split <;> try dsimp only))

theorem authResult_keeps {zz : State} {s : State} {c : CmdSpec} {p : Packet} {status : Nat} (hzz : Keeps zz s) :
    Keeps zz (State.authResult s c p status) := by
  unfold State.authResult
  (try dsimp only)
  repeat' (first
    | with_reducible assumption
    | with_reducible apply authFailed_keeps
    | with_reducible apply authPassed_keeps
    | with_reducible apply Keeps.ite)

theorem placeRing_keeps {zz : State} {s : State} {n : Nat} {ws : List Word} (hzz : Keeps zz s) :
    Keeps zz (State.placeRing s n ws) := by
  unfold State.placeRing
  (try dsimp only)
  repeat' (first
    | with_reducible assumption
    | with_reducible apply wr_keeps
    | with_reducible apply putRing_keeps)

theorem deliver_keeps {zz : State} {s : State} {opcode : Nat} {p : Packet} (hzz : Keeps zz s) :
    OptKeeps zz (State.deliver s opcode p) := by
  unfold State.deliver
  (try dsimp only)
  repeat' (first
    | with_reducible assumption
    | with_reducible apply placeRing_keeps
    | with_reducible apply optSome
    | with_reducible apply optNone
    | with_reducible apply OptKeeps.ite)

theorem afterReply_keeps {zz : State} {s : State} {opcode : Nat} {after : State → State} (hafter : ∀ x y, Keeps x y → Keeps x (after y)) (hzz : Keeps zz s) :
    Keeps zz (State.afterReply s opcode after) := by
  unfold State.afterReply
  (try dsimp only)
  repeat' (first
    | with_reducible assumption
    | with_reducible apply hafter
    | with_reducible apply Keeps.ite
    | with_reducible fail_if_no_progress refine Keeps.upd ?_ rfl rfl rfl rfl rfl rfl)

theorem insertPend_ok {e : PendEntry} (he : e.slot < 8) : ∀ {l : List PendEntry}, PendOk l → (∀ f ∈ l, f.slot ≠ e.slot) →
    PendOk (insertPend e l)
  | [], _, _ => by simp [insertPend, PendOk, he]
  | f :: rest, h, hn => by
    have hp := List.pairwise_cons.1 (by simpa [PendOk] using h.1 : (f.slot :: rest.map (·.slot)).Pairwise (· < ·))
    have hne := hn f (List.mem_cons_self ..)
    unfold insertPend
    split
    · rename_i hlt
      refine ⟨?_, fun g hg => ?_⟩
      · simp only [List.map_cons, List.pairwise_cons, List.mem_cons] at hp ⊢
        refine ⟨?_, hp⟩
        rintro a (rfl | ha)
        · exact hlt
        · exact Nat.lt_trans hlt (hp.1 a ha)
      · rcases List.mem_cons.1 hg with rfl | hg
        · exact he
        · exact h.2 g hg
    · rename_i hlt
      have ih := insertPend_ok he (l := rest) ⟨hp.2, fun g hg => h.2 g (List.mem_cons_of_mem _ hg)⟩
        (fun g hg => hn g (List.mem_cons_of_mem _ hg))
      have hmem : ∀ g ∈ insertPend e rest, g = e ∨ g ∈ rest := fun g hg => insertPend_mem hg
      refine ⟨?_, fun g hg => ?_⟩
      · simp only [List.map_cons, List.pairwise_cons]
        refine ⟨fun a ha => ?_, ih.1⟩
        obtain ⟨g, hg, rfl⟩ := List.mem_map.1 ha
        rcases hmem g hg with rfl | hg
        · omega
        · exact hp.1 _ (List.mem_map_of_mem hg)
      · rcases List.mem_cons.1 hg with rfl | hg
        · exact h.2 g (List.mem_cons_self ..)
        · exact ih.2 g hg

theorem freeSlot_spec {s : State} {k : Nat} (h : s.freeSlot? = some k) : k < 8 ∧ ∀ f ∈ s.pap.slots, f.slot ≠ k := by
  unfold State.freeSlot? at h
  have h1 := List.mem_of_find?_eq_some h
  have h2 := List.find?_some h
  refine ⟨List.mem_range.1 h1, fun f hf he => ?_⟩
  have h3 : s.pap.slots.any (fun e => decide (e.slot = k)) = true := List.any_eq_true.2 ⟨f, hf, by simpa using he⟩
  simp [h3] at h2

/-- What a body's result leaves: at most 8 commands pending (spec/04_command_protocol.md, R177). -/
theorem settle_keeps {zz s : State} {c : CmdSpec} {p : Packet} {r : Res} {after : State → State} (hr : ResKeeps zz r)
    (ha : ∀ x y, Keeps x y → Keeps x (after y)) (k : Keeps zz s) : Keeps zz (s.settle c p r after) := by
  unfold State.settle
  cases r with
  | refuse st d => exact answer_keeps k
  | done st d ws cl t => exact ha _ _ (raiseClamps_keeps (countCfg_keeps (answer_keeps hr)))
  | pend ws ts t =>
    dsimp only
    split
    · exact answer_keeps k
    · rename_i k hk
      apply ha
      apply answer_keeps
      exact Keeps.updI (hr : Keeps zz t) id id id (fun h => insertPend_ok (freeSlot_spec hk).1 h (freeSlot_spec hk).2) id
        (fun _ _ h => h)

theorem judge_keeps {zz : State} {s : State} {c : CmdSpec} {p : Packet} {body : State → Res} {after : State → State} (hbody : ∀ x y, Keeps x y → ResKeeps x (body y)) (hafter : ∀ x y, Keeps x y → Keeps x (after y)) (hzz : Keeps zz s) :
    Keeps zz (State.judge s c p body after) := by
  unfold State.judge
  (try dsimp only)
  repeat' (first
    | with_reducible assumption
    | with_reducible apply hbody
    | with_reducible apply answer_keeps
    | with_reducible apply authPassed_keeps
    | with_reducible apply advance_keeps
    | with_reducible apply takeEack_keeps
    | with_reducible apply answerSeq_keeps
    | with_reducible apply authResult_keeps
    | with_reducible apply settle_keeps
    | with_reducible apply Keeps.ite
    | (split <;> try dsimp only))

end Sys2Proof.Machine
end

