-- ==== Sys2Proof/Laws/KeepsFaults.lean ====
section
/-!
SUPPORT. What the operations of Machine/Faults.lean keep (Laws/Keeps.lean).
-/

set_option linter.unusedTactic false
set_option linter.unreachableTactic false
set_option linter.unusedVariables false

namespace Sys2Proof.Machine

theorem level_keeps {zz : State} {s : State} {region lvl : Nat} (hzz : Keeps zz s) :
    Keeps zz (State.level s region lvl) := by
  unfold State.level
  (try dsimp only)
  repeat' (first
    | with_reducible assumption
    | with_reducible apply wr_keeps
    | with_reducible apply Keeps.ite)

theorem takesUp_keeps {zz : State} {s : State} {w : Work} (hzz : Keeps zz s) :
    Keeps zz (State.takesUp s w) := by
  unfold State.takesUp
  (try dsimp only)
  repeat' (first
    | with_reducible assumption
    | with_reducible apply level_keeps
    | with_reducible apply Keeps.ite
    | with_reducible fail_if_no_progress refine Keeps.upd ?_ rfl rfl rfl rfl rfl rfl)

theorem begins_keeps {zz : State} {s : State} {region code sub unit level : Nat} (hzz : Keeps zz s) :
    Keeps zz (State.begins s region code sub unit level) := by
  unfold State.begins
  (try dsimp only)
  repeat' (first
    | with_reducible assumption
    | with_reducible apply takesUp_keeps)

theorem meets_keeps {zz : State} {s : State} {region code sub unit : Nat} (hzz : Keeps zz s) :
    Keeps zz (State.meets s region code sub unit) := by
  unfold State.meets
  (try dsimp only)
  repeat' (first
    | with_reducible assumption
    | with_reducible fail_if_no_progress refine Keeps.upd ?_ rfl rfl rfl rfl rfl rfl)

theorem ends_keeps {zz : State} {s : State} {region code sub unit : Nat} (hzz : Keeps zz s) :
    Keeps zz (State.ends s region code sub unit) := by
  unfold State.ends
  (try dsimp only)
  repeat' (first
    | with_reducible assumption
    | with_reducible apply level_keeps
    | with_reducible fail_if_no_progress refine Keeps.upd ?_ rfl rfl rfl rfl rfl rfl)

theorem repCount_keeps {zz : State} {s : State} {region : Nat} (hzz : Keeps zz s) :
    Keeps zz (State.repCount s region) := by
  unfold State.repCount
  (try dsimp only)
  repeat' (first
    | with_reducible assumption
    | with_reducible apply sat_keeps
    | with_reducible apply Keeps.ite)

theorem repaired_keeps {zz : State} {s : State} {region code sub unit : Nat} (hzz : Keeps zz s) :
    Keeps zz (State.repaired s region code sub unit) := by
  unfold State.repaired
  (try dsimp only)
  repeat' (first
    | with_reducible assumption
    | with_reducible apply ends_keeps
    | with_reducible apply repCount_keeps)

theorem escalated_keeps {zz : State} {s : State} {region : Nat} (hzz : Keeps zz s) :
    Keeps zz (State.escalated s region) := by
  unfold State.escalated
  (try dsimp only)
  repeat' (first
    | with_reducible assumption
    | with_reducible apply set1_keeps
    | with_reducible apply sat_keeps
    | with_reducible apply Keeps.ite)

theorem showFn_keeps {zz : State} {s : State} (hzz : Keeps zz s) :
    Keeps zz (State.showFn s) := by
  unfold State.showFn
  (try dsimp only)
  repeat' (first
    | with_reducible assumption
    | with_reducible apply wr_keeps)

theorem dropFirst_length {p : FaultRec → Bool} : ∀ {l : List FaultRec}, l.any p = true → (dropFirst p l).length + 1 = l.length
  | [], h => by simp at h
  | r :: rest, h => by
    unfold dropFirst
    split
    · simp
    · rename_i hr
      have := dropFirst_length (p := p) (l := rest) (by simpa [hr] using h)
      simp; omega

/-- Room for a record leaves at most 31 of 32 (spec/15_safety.md, R689). -/
theorem recRoom_length {s : State} (h : s.saf.recs.length ≤ 32) : s.recRoom.saf.recs.length ≤ 31 := by
  unfold State.recRoom
  split
  · omega
  · split
    · have := dropFirst_length (p := fun r : FaultRec => !r.live) ‹_›
      dsimp only; omega
    · show (s.saf.recs.drop 1).length ≤ 31
      simp; omega

theorem recRoom_keeps {zz s : State} (k : Keeps zz s) : Keeps zz s.recRoom := by
  have h : ∀ t : State, s.recRoom = t → Keeps zz t := by
    intro t ht
    unfold State.recRoom at ht
    split at ht
    · exact ht ▸ k
    · split at ht
      · rw [← ht]
        refine Keeps.updI k id id id id (fun k => ?_) (fun _ _ h => h)
        have := dropFirst_length (p := fun r : FaultRec => !r.live) ‹_›
        dsimp only; omega
      · rw [← ht]
        apply set1_keeps
        refine Keeps.updI k id id id id (fun k => ?_) (fun _ _ h => h)
        simp only [List.length_drop]; omega
  exact h _ rfl

theorem fault_keeps {zz s : State} {f : FaultInfo} (k : Keeps zz s) : Keeps zz (s.fault f) := by
  unfold State.fault
  split
  · apply showFn_keeps
    exact Keeps.updI k id id id id (le_map _) (fun _ _ h => h)
  · dsimp only
    apply raiseR_keeps
    apply showFn_keeps
    apply wr_keeps
    have hd := drawn_keeps k
    have hr : Keeps zz s.drawn.recRoom := recRoom_keeps hd
    refine ⟨hr.mem, hr.regs, hr.engMem, hr.replies, hr.events, hr.reports, hr.slots, fun h => ?_, hr.fuses, hr.queue⟩
    have : s.drawn.recRoom.saf.recs.length ≤ 31 := recRoom_length (hd.recs h)
    simp only [List.length_append, List.length_singleton]; omega

theorem faultGone_keeps {zz : State} {s : State} {code sub unit : Nat} (hzz : Keeps zz s) :
    Keeps zz (State.faultGone s code sub unit) := by
  unfold State.faultGone
  (try dsimp only)
  repeat' (first
    | with_reducible assumption
    | with_reducible apply showFn_keeps
    | with_reducible fail_if_no_progress refine Keeps.updI ?_ id id id id (le_map _) (fun _ _ h => h))

theorem raiseSafe_keeps {zz : State} {s : State} {kind scope mode region recno code unit : Nat} (hzz : Keeps zz s) :
    Keeps zz (State.raiseSafe s kind scope mode region recno code unit) := by
  unfold State.raiseSafe
  (try dsimp only)
  repeat' (first
    | with_reducible assumption
    | with_reducible apply raiseR_keeps)

theorem cfgLeave_keeps {zz : State} {s : State} {sel : Nat → Bool} (hzz : Keeps zz s) :
    Keeps zz (State.cfgLeave s sel) := by
  unfold State.cfgLeave
  (try dsimp only)
  repeat' (first
    | with_reducible assumption
    | (intro _; (try dsimp only))
    | with_reducible apply raiseSafe_keeps
    | with_reducible apply Keeps.foldl
    | with_reducible fail_if_no_progress refine Keeps.upd ?_ rfl rfl rfl rfl rfl rfl)

theorem fits_keeps {zz : State} {s : State} {a : Nat} (hzz : Keeps zz s) :
    Keeps zz (State.fits s a) := by
  unfold State.fits
  (try dsimp only)
  repeat' (first
    | with_reducible assumption
    | with_reducible apply faultGone_keeps
    | with_reducible apply cfgLeave_keeps
    | with_reducible apply Keeps.ite
    | with_reducible fail_if_no_progress refine Keeps.upd ?_ rfl rfl rfl rfl rfl rfl)

theorem putReg_keeps {zz : State} {s : State} {a : Nat} {w : Word} (hzz : Keeps zz s) :
    Keeps zz (State.putReg s a w) := by
  unfold State.putReg
  (try dsimp only)
  repeat' (first
    | with_reducible assumption
    | with_reducible apply setReg_keeps
    | with_reducible apply fits_keeps)

theorem hostErr_keeps {zz : State} {s : State} {i : Iface} {cause a : Nat} (hzz : Keeps zz s) :
    Keeps zz (State.hostErr s i cause a) := by
  unfold State.hostErr
  (try dsimp only)
  repeat' (first
    | with_reducible assumption
    | with_reducible apply setReg_keeps
    | with_reducible apply set1_keeps
    | with_reducible apply Keeps.ite)

theorem releasePads_keeps {zz : State} {s : State} {g : Nat} (hzz : Keeps zz s) :
    Keeps zz (State.releasePads s g) := by
  unfold State.releasePads
  (try dsimp only)
  repeat' (first
    | with_reducible assumption
    | with_reducible apply clr_keeps)

theorem domUp_keeps {zz : State} {s : State} {d : Nat} (hzz : Keeps zz s) :
    Keeps zz (State.domUp s d) := by
  unfold State.domUp
  (try dsimp only)
  repeat' (first
    | with_reducible assumption
    | with_reducible apply set1_keeps)

theorem need_keeps {zz : State} {s : State} {d : Nat} (hzz : Keeps zz s) :
    OptKeeps zz (State.need s d) := by
  unfold State.need
  (try dsimp only)
  repeat' (first
    | with_reducible assumption
    | with_reducible apply finishAll_keeps
    | with_reducible apply domUp_keeps
    | with_reducible apply optSome
    | with_reducible apply optNone
    | with_reducible apply OptKeeps.ite
    | with_reducible fail_if_no_progress refine Keeps.upd ?_ rfl rfl rfl rfl rfl rfl)

theorem needAll_keeps {zz : State} : ∀ {l : List Nat} {s : State}, Keeps zz s → OptKeeps zz (s.needAll l)
  | [], _, k => k
  | d :: rest, s, k => by
    unfold State.needAll
    split
    · exact needAll_keeps (OptKeeps.get ‹_› (need_keeps k))
    · trivial

theorem withDomains_keeps {zz : State} {s : State} {ds : List Nat} {k : State → Res} (hk : ∀ x y, Keeps x y → ResKeeps x (k y)) (hzz : Keeps zz s) :
    ResKeeps zz (State.withDomains s ds k) := by
  unfold State.withDomains
  (try dsimp only)
  repeat' (first
    | with_reducible assumption
    | with_reducible apply hk
    | with_reducible (refine OptKeeps.get (by assumption) ?_; apply needAll_keeps)
    | with_reducible apply resRefuse
    | (split <;> try dsimp only))

end Sys2Proof.Machine
end

