-- ==== Sys2Proof/Laws/KeepsBankCore.lean ====
section
/-!
SUPPORT. What the operations of Machine/BankCore.lean keep (Laws/Keeps.lean).
-/

set_option linter.unusedTactic false
set_option linter.unreachableTactic false
set_option linter.unusedVariables false

namespace Sys2Proof.Machine

theorem raiseBankRepair_keeps {zz : State} {s : State} {kind bank spare cause row col bit : Nat} (hzz : Keeps zz s) :
    Keeps zz (State.raiseBankRepair s kind bank spare cause row col bit) := by
  unfold State.raiseBankRepair
  (try dsimp only)
  repeat' (first
    | with_reducible assumption
    | with_reducible apply raise_keeps)

theorem useSpare_keeps {zz : State} {s : State} {b row : Nat} (hzz : Keeps zz s) :
    Keeps zz (State.useSpare s b row) := by
  unfold State.useSpare
  (try dsimp only)
  repeat' (first
    | with_reducible assumption
    | with_reducible apply wr_keeps
    | with_reducible fail_if_no_progress refine Keeps.upd ?_ rfl rfl rfl rfl rfl rfl)

theorem retpend_keeps {zz : State} {s : State} {b cause row col bit : Nat} (hzz : Keeps zz s) :
    Keeps zz (State.retpend s b cause row col bit) := by
  unfold State.retpend
  (try dsimp only)
  repeat' (first
    | with_reducible assumption
    | with_reducible apply set1_keeps
    | with_reducible apply ends_keeps
    | with_reducible apply escalated_keeps
    | with_reducible apply fault_keeps
    | with_reducible apply raiseBankRepair_keeps
    | with_reducible apply Keeps.ite)

theorem replaceRow_keeps {zz : State} {s : State} {r : RowRepl} (hzz : Keeps zz s) :
    Keeps zz (State.replaceRow s r) := by
  unfold State.replaceRow
  (try dsimp only)
  repeat' (first
    | with_reducible assumption
    | with_reducible apply retpend_keeps
    | with_reducible apply Keeps.ite
    | with_reducible fail_if_no_progress refine Keeps.upd ?_ rfl rfl rfl rfl rfl rfl)

theorem bankCor_keeps {zz : State} {s : State} {b row col bit : Nat} (hzz : Keeps zz s) :
    Keeps zz (State.bankCor s b row col bit) := by
  unfold State.bankCor
  (try dsimp only)
  repeat' (first
    | with_reducible assumption
    | with_reducible apply setReg_keeps
    | with_reducible apply set1_keeps
    | with_reducible apply sat_keeps
    | with_reducible apply replaceRow_keeps
    | with_reducible apply Keeps.ite
    | with_reducible fail_if_no_progress refine Keeps.upd ?_ rfl rfl rfl rfl rfl rfl)

theorem dealUnc_keeps {zz : State} {s : State} {b row col : Nat} (hzz : Keeps zz s) :
    Keeps zz (State.dealUnc s b row col) := by
  unfold State.dealUnc
  (try dsimp only)
  repeat' (first
    | with_reducible assumption
    | with_reducible apply takesUp_keeps
    | with_reducible apply replaceRow_keeps
    | with_reducible apply Keeps.ite
    | with_reducible fail_if_no_progress refine Keeps.upd ?_ rfl rfl rfl rfl rfl rfl)

theorem bankUnc_keeps {zz : State} {s : State} {b row col : Nat} (hzz : Keeps zz s) :
    Keeps zz (State.bankUnc s b row col) := by
  unfold State.bankUnc
  (try dsimp only)
  repeat' (first
    | with_reducible assumption
    | with_reducible apply setReg_keeps
    | with_reducible apply set1_keeps
    | with_reducible apply sat_keeps
    | with_reducible apply fault_keeps
    | with_reducible apply dealUnc_keeps
    | with_reducible apply Keeps.ite
    | with_reducible fail_if_no_progress refine Keeps.upd ?_ rfl rfl rfl rfl rfl rfl)

theorem deliverPoison_keeps {zz : State} {s : State} {a : Nat} (hzz : Keeps zz s) :
    Keeps zz (State.deliverPoison s a) := by
  unfold State.deliverPoison
  (try dsimp only)
  repeat' (first
    | with_reducible assumption
    | with_reducible apply set1_keeps
    | with_reducible apply bankUnc_keeps)

end Sys2Proof.Machine
end

