-- ==== Sys2Proof/Laws/KeepsTake.lean ====
section
/-!
SUPPORT. What the operations of Machine/Take.lean keep (Laws/Keeps.lean).
-/

set_option linter.unusedTactic false
set_option linter.unreachableTactic false
set_option linter.unusedVariables false

namespace Sys2Proof.Machine

theorem resync_keeps {zz : State} {s : State} {n opcode : Nat} {cseq : BitVec 16} (hzz : Keeps zz s) :
    Keeps zz (State.resync s n opcode cseq) := by
  unfold State.resync
  (try dsimp only)
  repeat' (first
    | with_reducible assumption
    | with_reducible apply wr_keeps
    | with_reducible apply emit_keeps)

theorem readPoison_keeps {zz : State} {s : State} {n i k : Nat} (hzz : Keeps zz s) :
    Keeps zz (State.readPoison s n i k) := by
  unfold State.readPoison
  (try dsimp only)
  repeat' (first
    | with_reducible assumption
    | (intro _; (try dsimp only))
    | with_reducible apply deliverPoison_keeps
    | with_reducible apply Keeps.forEach
    | with_reducible apply Keeps.ite)

theorem consume_keeps {zz : State} {s : State} {n k opcode : Nat} {cseq : BitVec 16} {judge : State → State} (hjudge : ∀ x y, Keeps x y → Keeps x (judge y)) (hzz : Keeps zz s) :
    Keeps zz (State.consume s n k opcode cseq judge) := by
  unfold State.consume
  (try dsimp only)
  repeat' (first
    | with_reducible assumption
    | with_reducible apply hjudge
    | with_reducible apply wr_keeps
    | with_reducible apply resync_keeps
    | with_reducible apply readPoison_keeps
    | with_reducible apply Keeps.ite)

theorem takeUnknown_keeps {zz : State} {s : State} {n : Nat} (hzz : Keeps zz s) :
    Keeps zz (State.takeUnknown s n) := by
  unfold State.takeUnknown
  (try dsimp only)
  repeat' (first
    | with_reducible assumption
    | (intro _; (try dsimp only))
    | with_reducible apply judge_keeps
    | with_reducible apply consume_keeps
    | with_reducible apply keepsId
    | with_reducible apply resRefuse
    | with_reducible apply Keeps.ite)

theorem takeWith_keeps {zz : State} {s : State} {opcode : Nat} {p : Packet} {judge : State → State} (hjudge : ∀ x y, Keeps x y → Keeps x (judge y)) (hzz : Keeps zz s) :
    Keeps zz (State.takeWith s opcode p judge) := by
  unfold State.takeWith
  (try dsimp only)
  repeat' (first
    | with_reducible assumption
    | with_reducible apply sysRun_keeps
    | with_reducible apply startLockout_keeps
    | with_reducible (refine OptKeeps.get (by assumption) ?_; apply deliver_keeps)
    | with_reducible apply resync_keeps
    | with_reducible apply consume_keeps
    | with_reducible apply takeUnknown_keeps
    | with_reducible apply Keeps.ite
    | (split <;> try dsimp only))

theorem take_keeps {zz : State} {s : State} {c : CmdSpec} {p : Packet} {body : State → Res} {after : State → State} (hbody : ∀ x y, Keeps x y → ResKeeps x (body y)) (hafter : ∀ x y, Keeps x y → Keeps x (after y)) (hzz : Keeps zz s) :
    Keeps zz (State.take s c p body after) := by
  unfold State.take
  (try dsimp only)
  repeat' (first
    | with_reducible assumption
    | (intro _; (try dsimp only))
    | with_reducible apply judge_keeps
    | with_reducible apply takeWith_keeps)

theorem card_keeps {zz : State} {s : State} {c : CmdSpec} {p : Packet} {body : State → Res} (hbody : ∀ x y, Keeps x y → ResKeeps x (body y)) (hzz : Keeps zz s) :
    OutKeeps zz (State.card s c p body) := by
  unfold State.card
  (try dsimp only)
  repeat' (first
    | with_reducible assumption
    | (intro _; (try dsimp only))
    | with_reducible apply take_keeps
    | with_reducible apply keepsId
    | with_reducible apply outNext)

end Sys2Proof.Machine
end

