-- ==== Sys2Proof/Laws/KeepsStreamCore.lean ====
section
/-!
SUPPORT. What the operations of Machine/StreamCore.lean keep (Laws/Keeps.lean).
-/

set_option linter.unusedTactic false
set_option linter.unreachableTactic false
set_option linter.unusedVariables false

namespace Sys2Proof.Machine

theorem setStr_keeps {zz : State} {s : State} {x : StreamX} (hzz : Keeps zz s) :
    Keeps zz (State.setStr s x) := by
  unfold State.setStr
  (try dsimp only)
  repeat' (first
    | with_reducible assumption
    | with_reducible fail_if_no_progress refine Keeps.upd ?_ rfl rfl rfl rfl rfl rfl)

theorem raiseStream_keeps {zz : State} {s : State} {sid cause : Nat} (hzz : Keeps zz s) :
    Keeps zz (State.raiseStream s sid cause) := by
  unfold State.raiseStream
  (try dsimp only)
  repeat' (first
    | with_reducible assumption
    | with_reducible apply raise_keeps)

theorem strState_keeps {zz : State} {s : State} {sid st cause : Nat} (hzz : Keeps zz s) :
    Keeps zz (State.strState s sid st cause) := by
  unfold State.strState
  (try dsimp only)
  repeat' (first
    | with_reducible assumption
    | with_reducible apply wr_keeps
    | with_reducible apply raiseStream_keeps
    | with_reducible apply Keeps.ite)

theorem freeStr_keeps {zz : State} {s : State} {sid : Nat} (hzz : Keeps zz s) :
    Keeps zz (State.freeStr s sid) := by
  unfold State.freeStr
  (try dsimp only)
  repeat' (first
    | with_reducible assumption
    | with_reducible fail_if_no_progress refine Keeps.upd ?_ rfl rfl rfl rfl rfl rfl)

theorem gateAfterClose_keeps {zz : State} {s : State} {wasHandover : Bool} (hzz : Keeps zz s) :
    Keeps zz (State.gateAfterClose s wasHandover) := by
  unfold State.gateAfterClose
  (try dsimp only)
  repeat' (first
    | with_reducible assumption
    | with_reducible apply Keeps.ite
    | with_reducible fail_if_no_progress refine Keeps.upd ?_ rfl rfl rfl rfl rfl rfl)

theorem endStr_keeps {zz : State} {s : State} {sid st cause sts : Nat} (hzz : Keeps zz s) :
    Keeps zz (State.endStr s sid st cause sts) := by
  unfold State.endStr
  (try dsimp only)
  repeat' (first
    | with_reducible assumption
    | with_reducible apply finishFor_keeps
    | with_reducible apply strState_keeps
    | with_reducible apply freeStr_keeps
    | with_reducible apply gateAfterClose_keeps
    | (split <;> try dsimp only))

theorem abortStr_keeps {zz : State} {s : State} {sid : Nat} (hzz : Keeps zz s) :
    Keeps zz (State.abortStr s sid) := by
  unfold State.abortStr
  (try dsimp only)
  repeat' (first
    | with_reducible assumption
    | with_reducible apply endStr_keeps)

theorem closeStr_keeps {zz : State} {s : State} {sid : Nat} (hzz : Keeps zz s) :
    Keeps zz (State.closeStr s sid) := by
  unfold State.closeStr
  (try dsimp only)
  repeat' (first
    | with_reducible assumption
    | with_reducible apply endStr_keeps)

theorem abortAll_keeps {zz : State} {s : State} {p : State → Nat → Bool} (hzz : Keeps zz s) :
    Keeps zz (State.abortAll s p) := by
  unfold State.abortAll
  (try dsimp only)
  repeat' (first
    | with_reducible assumption
    | (intro _; (try dsimp only))
    | with_reducible apply abortStr_keeps
    | with_reducible apply Keeps.foldl)

end Sys2Proof.Machine
end

