-- ==== Sys2Proof/Laws/KeepsSpkCore.lean ====
section
/-!
SUPPORT. What the operations of Machine/SpkCore.lean keep (Laws/Keeps.lean).
-/

set_option linter.unusedTactic false
set_option linter.unreachableTactic false
set_option linter.unusedVariables false

namespace Sys2Proof.Machine

theorem modSpk_keeps {zz : State} {s : State} {n : Nat} {f : SpkX → SpkX} (hzz : Keeps zz s) :
    Keeps zz (State.modSpk s n f) := by
  unfold State.modSpk
  (try dsimp only)
  repeat' (first
    | with_reducible assumption
    | with_reducible fail_if_no_progress refine Keeps.upd ?_ rfl rfl rfl rfl rfl rfl)

theorem modGrp_keeps {zz : State} {s : State} {g : Nat} {f : GroupX → GroupX} (hzz : Keeps zz s) :
    Keeps zz (State.modGrp s g f) := by
  unfold State.modGrp
  (try dsimp only)
  repeat' (first
    | with_reducible assumption
    | with_reducible fail_if_no_progress refine Keeps.upd ?_ rfl rfl rfl rfl rfl rfl)

theorem modSlot_keeps {zz : State} {s : State} {k : Nat} {f : CrkSlot → CrkSlot} (hzz : Keeps zz s) :
    Keeps zz (State.modSlot s k f) := by
  unfold State.modSlot
  (try dsimp only)
  repeat' (first
    | with_reducible assumption
    | with_reducible fail_if_no_progress refine Keeps.upd ?_ rfl rfl rfl rfl rfl rfl)

theorem modOut_keeps {zz : State} {s : State} {f : OutX → OutX} (hzz : Keeps zz s) :
    Keeps zz (State.modOut s f) := by
  unfold State.modOut
  (try dsimp only)
  repeat' (first
    | with_reducible assumption
    | with_reducible fail_if_no_progress refine Keeps.upd ?_ rfl rfl rfl rfl rfl rfl)

theorem showLegs_keeps {zz : State} {s : State} {n : Nat} (hzz : Keeps zz s) :
    Keeps zz (State.showLegs s n) := by
  unfold State.showLegs
  (try dsimp only)
  repeat' (first
    | with_reducible assumption
    | with_reducible apply wr_keeps)

theorem showGroup_keeps {zz : State} {s : State} {g : Nat} (hzz : Keeps zz s) :
    Keeps zz (State.showGroup s g) := by
  unfold State.showGroup
  (try dsimp only)
  repeat' (first
    | with_reducible assumption
    | (intro _; (try dsimp only))
    | with_reducible apply showLegs_keeps
    | with_reducible apply Keeps.forEach)

theorem acSpoil_keeps {zz : State} {s : State} {n : Nat} (hzz : Keeps zz s) :
    Keeps zz (State.acSpoil s n) := by
  unfold State.acSpoil
  (try dsimp only)
  repeat' (first
    | with_reducible assumption
    | with_reducible apply Keeps.ite
    | (split <;> try dsimp only)
    | with_reducible fail_if_no_progress refine Keeps.upd ?_ rfl rfl rfl rfl rfl rfl)

theorem acWatch_keeps {zz : State} {s : State} (hzz : Keeps zz s) :
    Keeps zz (State.acWatch s) := by
  unfold State.acWatch
  (try dsimp only)
  repeat' (first
    | with_reducible assumption
    | with_reducible apply acSpoil_keeps
    | with_reducible apply Keeps.ite
    | (split <;> try dsimp only))

theorem outShow_keeps {zz : State} {s : State} (hzz : Keeps zz s) :
    Keeps zz (State.outShow s) := by
  unfold State.outShow
  (try dsimp only)
  repeat' (first
    | with_reducible assumption
    | (intro _; (try dsimp only))
    | with_reducible apply wr_keeps
    | with_reducible apply showFn_keeps
    | with_reducible apply modOut_keeps
    | with_reducible apply acWatch_keeps
    | with_reducible apply Keeps.forEach
    | with_reducible apply Keeps.ite
    | with_reducible fail_if_no_progress refine Keeps.updI ?_ id id id id (le_map _) (fun _ _ h => h))

theorem spkPoll_keeps {zz : State} {s : State} (hzz : Keeps zz s) :
    Keeps zz (State.spkPoll s) := by
  unfold State.spkPoll
  (try dsimp only)
  repeat' (first
    | with_reducible assumption
    | with_reducible apply finishAll_keeps)

theorem dcNone_keeps {zz : State} {s : State} {n res : Nat} (hzz : Keeps zz s) :
    Keeps zz (State.dcNone s n res) := by
  unfold State.dcNone
  (try dsimp only)
  repeat' (first
    | with_reducible assumption
    | (intro _; (try dsimp only))
    | with_reducible apply setReg_keeps
    | with_reducible apply Keeps.foldl)

theorem dcDrop_keeps {zz : State} {s : State} {p : Nat → Bool} {st : Nat} (hzz : Keeps zz s) :
    Keeps zz (State.dcDrop s p st) := by
  unfold State.dcDrop
  (try dsimp only)
  repeat' (first
    | with_reducible assumption
    | (intro _; (try dsimp only))
    | with_reducible apply finishAll_keeps
    | with_reducible apply dcNone_keeps
    | with_reducible apply Keeps.foldl
    | with_reducible apply Keeps.ite
    | with_reducible fail_if_no_progress refine Keeps.upd ?_ rfl rfl rfl rfl rfl rfl)

theorem acEnd_keeps {zz : State} {s : State} {a : AcTest} {acres cest st : Nat} (hzz : Keeps zz s) :
    Keeps zz (State.acEnd s a acres cest st) := by
  unfold State.acEnd
  (try dsimp only)
  repeat' (first
    | with_reducible assumption
    | (intro _; (try dsimp only))
    | with_reducible apply setReg_keeps
    | with_reducible apply finishAll_keeps
    | with_reducible apply Keeps.foldl
    | with_reducible fail_if_no_progress refine Keeps.upd ?_ rfl rfl rfl rfl rfl rfl)

theorem acStored_keeps {zz : State} {s : State} {n : Nat} (hzz : Keeps zz s) :
    Keeps zz (State.acStored s n) := by
  unfold State.acStored
  (try dsimp only)
  repeat' (first
    | with_reducible assumption
    | with_reducible apply acEnd_keeps
    | with_reducible apply Keeps.ite
    | (split <;> try dsimp only))

theorem acDrop_keeps {zz : State} {s : State} {p : AcTest → Bool} {st : Nat} (hzz : Keeps zz s) :
    Keeps zz (State.acDrop s p st) := by
  unfold State.acDrop
  (try dsimp only)
  repeat' (first
    | with_reducible assumption
    | with_reducible apply acEnd_keeps
    | with_reducible apply Keeps.ite
    | (split <;> try dsimp only))

theorem diagPoll_keeps {zz : State} {s : State} (hzz : Keeps zz s) :
    Keeps zz (State.diagPoll s) := by
  unfold State.diagPoll
  (try dsimp only)
  repeat' (first
    | with_reducible assumption
    | with_reducible apply dcDrop_keeps
    | with_reducible apply acDrop_keeps)

theorem diagAbort_keeps {zz : State} {s : State} {n : Nat} (hzz : Keeps zz s) :
    Keeps zz (State.diagAbort s n) := by
  unfold State.diagAbort
  (try dsimp only)
  repeat' (first
    | with_reducible assumption
    | with_reducible apply dcDrop_keeps
    | with_reducible apply acDrop_keeps)

theorem diagStop_keeps {zz : State} {s : State} {st : Nat} (hzz : Keeps zz s) :
    Keeps zz (State.diagStop s st) := by
  unfold State.diagStop
  (try dsimp only)
  repeat' (first
    | with_reducible assumption
    | with_reducible apply dcDrop_keeps
    | with_reducible apply acDrop_keeps)

theorem setPhase_keeps {zz : State} {s : State} {n ph : Nat} (hzz : Keeps zz s) :
    Keeps zz (State.setPhase s n ph) := by
  unfold State.setPhase
  (try dsimp only)
  repeat' (first
    | with_reducible assumption
    | with_reducible apply wr_keeps
    | with_reducible apply modOut_keeps
    | with_reducible apply outShow_keeps
    | with_reducible apply spkPoll_keeps
    | with_reducible apply diagPoll_keeps)

theorem supersede_keeps {zz : State} {s : State} {opcode n : Nat} (hzz : Keeps zz s) :
    Keeps zz (State.supersede s opcode n) := by
  unfold State.supersede
  (try dsimp only)
  repeat' (first
    | with_reducible assumption
    | with_reducible apply finish_keeps
    | with_reducible apply modOut_keeps
    | (split <;> try dsimp only))

theorem ramp_keeps {zz : State} {s : State} {n ph pos : Nat} {fast : Bool} (hzz : Keeps zz s) :
    Keeps zz (State.ramp s n ph pos fast) := by
  unfold State.ramp
  (try dsimp only)
  repeat' (first
    | with_reducible assumption
    | with_reducible apply modSpk_keeps
    | with_reducible apply setPhase_keeps)

theorem tryUnmute_keeps {zz : State} {s : State} {n : Nat} (hzz : Keeps zz s) :
    Keeps zz (State.tryUnmute s n) := by
  unfold State.tryUnmute
  (try dsimp only)
  repeat' (first
    | with_reducible assumption
    | with_reducible apply wr_keeps
    | with_reducible apply ramp_keeps
    | with_reducible apply Keeps.ite)

theorem toHold_keeps {zz : State} {s : State} {n : Nat} (hzz : Keeps zz s) :
    Keeps zz (State.toHold s n) := by
  unfold State.toHold
  (try dsimp only)
  repeat' (first
    | with_reducible assumption
    | with_reducible apply setPhase_keeps
    | with_reducible apply tryUnmute_keeps)

theorem discharge_keeps {zz : State} {s : State} {n : Nat} (hzz : Keeps zz s) :
    Keeps zz (State.discharge s n) := by
  unfold State.discharge
  (try dsimp only)
  repeat' (first
    | with_reducible assumption
    | with_reducible apply ramp_keeps)

theorem applyPairs_keeps {zz : State} {s : State} {g : Nat} (hzz : Keeps zz s) :
    Keeps zz (State.applyPairs s g) := by
  unfold State.applyPairs
  (try dsimp only)
  repeat' (first
    | with_reducible assumption
    | (intro _; (try dsimp only))
    | with_reducible apply modSpk_keeps
    | with_reducible apply modGrp_keeps
    | with_reducible apply setPhase_keeps
    | with_reducible apply Keeps.forEach
    | with_reducible apply Keeps.ite)

theorem toOff_keeps {zz : State} {s : State} {n : Nat} (hzz : Keeps zz s) :
    Keeps zz (State.toOff s n) := by
  unfold State.toOff
  (try dsimp only)
  repeat' (first
    | with_reducible assumption
    | with_reducible apply modSpk_keeps
    | with_reducible apply setPhase_keeps
    | with_reducible apply applyPairs_keeps)

theorem beginCheck_keeps {zz : State} {s : State} {n : Nat} (hzz : Keeps zz s) :
    Keeps zz (State.beginCheck s n) := by
  unfold State.beginCheck
  (try dsimp only)
  repeat' (first
    | with_reducible assumption
    | with_reducible apply modSpk_keeps
    | with_reducible apply setPhase_keeps)

theorem startChan_keeps {zz : State} {s : State} {n : Nat} {alert : Bool} (hzz : Keeps zz s) :
    Keeps zz (State.startChan s n alert) := by
  unfold State.startChan
  (try dsimp only)
  repeat' (first
    | with_reducible assumption
    | with_reducible apply modSpk_keeps
    | with_reducible apply diagPoll_keeps
    | with_reducible apply supersede_keeps
    | with_reducible apply ramp_keeps
    | with_reducible apply tryUnmute_keeps
    | with_reducible apply toHold_keeps
    | with_reducible apply beginCheck_keeps
    | with_reducible apply Keeps.ite)

theorem stopChan_keeps {zz : State} {s : State} {n : Nat} {fast : Bool} (hzz : Keeps zz s) :
    Keeps zz (State.stopChan s n fast) := by
  unfold State.stopChan
  (try dsimp only)
  repeat' (first
    | with_reducible assumption
    | with_reducible apply modSpk_keeps
    | with_reducible apply supersede_keeps
    | with_reducible apply ramp_keeps
    | with_reducible apply discharge_keeps
    | with_reducible apply toOff_keeps
    | with_reducible apply Keeps.ite)

theorem outFault_keeps {zz : State} {s : State} {code df sub unit detail : Nat} {active : Bool} (hzz : Keeps zz s) :
    Keeps zz (State.outFault s code df sub unit detail active) := by
  unfold State.outFault
  (try dsimp only)
  repeat' (first
    | with_reducible assumption
    | with_reducible apply escalated_keeps
    | with_reducible apply fault_keeps)

theorem recordShort_keeps {zz : State} {s : State} {n sclass : Nat} (hzz : Keeps zz s) :
    Keeps zz (State.recordShort s n sclass) := by
  unfold State.recordShort
  (try dsimp only)
  repeat' (first
    | with_reducible assumption
    | with_reducible apply modSpk_keeps
    | with_reducible apply outFault_keeps
    | with_reducible apply Keeps.ite)

theorem unhold_keeps {zz : State} {s : State} {n : Nat} (hzz : Keeps zz s) :
    Keeps zz (State.unhold s n) := by
  unfold State.unhold
  (try dsimp only)
  repeat' (first
    | with_reducible assumption
    | with_reducible apply wr_keeps
    | with_reducible apply modSpk_keeps
    | with_reducible apply toOff_keeps
    | with_reducible apply recordShort_keeps)

theorem holdNow_keeps {zz : State} {s : State} {n : Nat} (hzz : Keeps zz s) :
    Keeps zz (State.holdNow s n) := by
  unfold State.holdNow
  (try dsimp only)
  repeat' (first
    | with_reducible assumption
    | with_reducible apply setPhase_keeps
    | with_reducible apply Keeps.ite)

theorem muteChanged_keeps {zz : State} {s : State} (hzz : Keeps zz s) :
    Keeps zz (State.muteChanged s) := by
  unfold State.muteChanged
  (try dsimp only)
  repeat' (first
    | with_reducible assumption
    | (intro _; (try dsimp only))
    | with_reducible apply outShow_keeps
    | with_reducible apply acDrop_keeps
    | with_reducible apply tryUnmute_keeps
    | with_reducible apply stopChan_keeps
    | with_reducible apply holdNow_keeps
    | with_reducible apply Keeps.forEach
    | with_reducible apply Keeps.ite
    | (split <;> try dsimp only))

theorem ownUse_keeps {zz : State} {s : State} {d : Nat} (hzz : Keeps zz s) :
    Keeps zz (State.ownUse s d) := by
  unfold State.ownUse
  (try dsimp only)
  repeat' (first
    | with_reducible assumption
    | with_reducible apply need_keeps
    | with_reducible apply optGetD)

theorem autostart_keeps {zz : State} {s : State} {m : Nat} (hzz : Keeps zz s) :
    Keeps zz (State.autostart s m) := by
  unfold State.autostart
  (try dsimp only)
  repeat' (first
    | with_reducible assumption
    | (intro _; (try dsimp only))
    | with_reducible apply startChan_keeps
    | with_reducible apply ownUse_keeps
    | with_reducible apply Keeps.forMask
    | with_reducible apply Keeps.ite)

theorem crkLost_keeps {zz : State} {s : State} {k n : Nat} (hzz : Keeps zz s) :
    Keeps zz (State.crkLost s k n) := by
  unfold State.crkLost
  (try dsimp only)
  repeat' (first
    | with_reducible assumption
    | with_reducible apply outShow_keeps
    | with_reducible apply outFault_keeps
    | with_reducible apply autostart_keeps
    | with_reducible apply Keeps.ite)

theorem chanLost_keeps {zz : State} {s : State} {n : Nat} (hzz : Keeps zz s) :
    Keeps zz (State.chanLost s n) := by
  unfold State.chanLost
  (try dsimp only)
  repeat' (first
    | with_reducible assumption
    | (intro _; (try dsimp only))
    | with_reducible apply crkLost_keeps
    | with_reducible apply Keeps.forEach
    | with_reducible apply Keeps.ite)

theorem faultHold_keeps {zz : State} {s : State} {ch why : Nat} (hzz : Keeps zz s) :
    Keeps zz (State.faultHold s ch why) := by
  unfold State.faultHold
  (try dsimp only)
  repeat' (first
    | with_reducible assumption
    | with_reducible apply modSpk_keeps
    | with_reducible apply setPhase_keeps
    | with_reducible apply unhold_keeps
    | with_reducible apply chanLost_keeps
    | with_reducible apply Keeps.ite)

theorem slotStart_keeps {zz : State} {s : State} {k : Nat} {alert : Bool} (hzz : Keeps zz s) :
    Keeps zz (State.slotStart s k alert) := by
  unfold State.slotStart
  (try dsimp only)
  repeat' (first
    | with_reducible assumption
    | (intro _; (try dsimp only))
    | with_reducible apply modSlot_keeps
    | with_reducible apply outShow_keeps
    | with_reducible apply autostart_keeps
    | with_reducible apply crkLost_keeps
    | with_reducible apply Keeps.forMask
    | with_reducible apply Keeps.ite)

theorem alertEval_keeps {zz : State} {s : State} (hzz : Keeps zz s) :
    Keeps zz (State.alertEval s) := by
  unfold State.alertEval
  (try dsimp only)
  repeat' (first
    | with_reducible assumption
    | (intro _; (try dsimp only))
    | with_reducible apply modSlot_keeps
    | with_reducible apply outShow_keeps
    | with_reducible apply slotStart_keeps
    | with_reducible apply Keeps.forEach
    | with_reducible apply Keeps.ite)

theorem slotEnd_keeps {zz : State} {s : State} {k : Nat} (hzz : Keeps zz s) :
    Keeps zz (State.slotEnd s k) := by
  unfold State.slotEnd
  (try dsimp only)
  repeat' (first
    | with_reducible assumption
    | with_reducible apply modSlot_keeps
    | with_reducible apply outShow_keeps)

end Sys2Proof.Machine
end

