-- ==== Sys2Proof/Laws/KeepsHpCv.lean ====
section
/-!
SUPPORT. What the operations of Machine/HpCv.lean keep (Laws/Keeps.lean).
-/

set_option linter.unusedTactic false
set_option linter.unreachableTactic false
set_option linter.unusedVariables false

namespace Sys2Proof.Machine

theorem modHp_keeps {zz : State} {s : State} {o : Nat} {f : HpX → HpX} (hzz : Keeps zz s) :
    Keeps zz (State.modHp s o f) := by
  unfold State.modHp
  (try dsimp only)
  repeat' (first
    | with_reducible assumption
    | with_reducible fail_if_no_progress refine Keeps.upd ?_ rfl rfl rfl rfl rfl rfl)

theorem showJhold_keeps {zz : State} {s : State} (hzz : Keeps zz s) :
    Keeps zz (State.showJhold s) := by
  unfold State.showJhold
  (try dsimp only)
  repeat' (first
    | with_reducible assumption
    | with_reducible apply wr_keeps)

theorem hpPoll_keeps {zz : State} {s : State} (hzz : Keeps zz s) :
    Keeps zz (State.hpPoll s) := by
  unfold State.hpPoll
  (try dsimp only)
  repeat' (first
    | with_reducible assumption
    | with_reducible apply finishAll_keeps)

theorem setHo_keeps {zz : State} {s : State} {o ph : Nat} (hzz : Keeps zz s) :
    Keeps zz (State.setHo s o ph) := by
  unfold State.setHo
  (try dsimp only)
  repeat' (first
    | with_reducible assumption
    | with_reducible apply wr_keeps
    | with_reducible apply showJhold_keeps
    | with_reducible apply hpPoll_keeps
    | with_reducible fail_if_no_progress refine Keeps.upd ?_ rfl rfl rfl rfl rfl rfl)

theorem hoRamp_keeps {zz : State} {s : State} {o ph pos : Nat} (hzz : Keeps zz s) :
    Keeps zz (State.hoRamp s o ph pos) := by
  unfold State.hoRamp
  (try dsimp only)
  repeat' (first
    | with_reducible assumption
    | with_reducible apply modHp_keeps
    | with_reducible apply setHo_keeps)

theorem hoTry_keeps {zz : State} {s : State} {o : Nat} (hzz : Keeps zz s) :
    Keeps zz (State.hoTry s o) := by
  unfold State.hoTry
  (try dsimp only)
  repeat' (first
    | with_reducible assumption
    | with_reducible apply hoRamp_keeps
    | with_reducible apply Keeps.ite)

theorem hoMuteNow_keeps {zz : State} {s : State} {o : Nat} (hzz : Keeps zz s) :
    Keeps zz (State.hoMuteNow s o) := by
  unfold State.hoMuteNow
  (try dsimp only)
  repeat' (first
    | with_reducible assumption
    | with_reducible apply hoRamp_keeps
    | with_reducible apply Keeps.ite)

theorem hoBegin_keeps {zz : State} {s : State} {o : Nat} (hzz : Keeps zz s) :
    Keeps zz (State.hoBegin s o) := by
  unfold State.hoBegin
  (try dsimp only)
  repeat' (first
    | with_reducible assumption
    | with_reducible apply setHo_keeps
    | with_reducible apply Keeps.ite)

theorem hoStart_keeps {zz : State} {s : State} {o : Nat} (hzz : Keeps zz s) :
    Keeps zz (State.hoStart s o) := by
  unfold State.hoStart
  (try dsimp only)
  repeat' (first
    | with_reducible assumption
    | with_reducible apply modHp_keeps
    | with_reducible apply hoTry_keeps
    | with_reducible apply hoBegin_keeps
    | with_reducible apply Keeps.ite)

theorem hoStop_keeps {zz : State} {s : State} {o : Nat} (hzz : Keeps zz s) :
    Keeps zz (State.hoStop s o) := by
  unfold State.hoStop
  (try dsimp only)
  repeat' (first
    | with_reducible assumption
    | with_reducible apply modHp_keeps
    | with_reducible apply setHo_keeps
    | with_reducible apply hoMuteNow_keeps
    | with_reducible apply Keeps.ite)

theorem hplChanged_keeps {zz : State} {s : State} (hzz : Keeps zz s) :
    Keeps zz (State.hplChanged s) := by
  unfold State.hplChanged
  (try dsimp only)
  repeat' (first
    | with_reducible assumption
    | (intro _; (try dsimp only))
    | with_reducible apply showJhold_keeps
    | with_reducible apply hoStart_keeps
    | with_reducible apply hoStop_keeps
    | with_reducible apply Keeps.forEach
    | with_reducible apply Keeps.ite)

theorem hpJack_keeps {zz : State} {s : State} (hzz : Keeps zz s) :
    Keeps zz (State.hpJack s) := by
  unfold State.hpJack
  (try dsimp only)
  repeat' (first
    | with_reducible assumption
    | (intro _; (try dsimp only))
    | with_reducible apply showJhold_keeps
    | with_reducible apply hoTry_keeps
    | with_reducible apply hoMuteNow_keeps
    | with_reducible apply Keeps.forEach
    | with_reducible apply Keeps.ite)

theorem hpMuteAll_keeps {zz : State} {s : State} (hzz : Keeps zz s) :
    Keeps zz (State.hpMuteAll s) := by
  unfold State.hpMuteAll
  (try dsimp only)
  repeat' (first
    | with_reducible assumption
    | (intro _; (try dsimp only))
    | with_reducible apply hoMuteNow_keeps
    | with_reducible apply Keeps.forEach)

theorem hpStopAll_keeps {zz : State} {s : State} (hzz : Keeps zz s) :
    Keeps zz (State.hpStopAll s) := by
  unfold State.hpStopAll
  (try dsimp only)
  repeat' (first
    | with_reducible assumption
    | (intro _; (try dsimp only))
    | with_reducible apply hoStop_keeps
    | with_reducible apply Keeps.forEach)

theorem hpSafe_keeps {zz : State} {s : State} {off : Bool} (hzz : Keeps zz s) :
    Keeps zz (State.hpSafe s off) := by
  unfold State.hpSafe
  (try dsimp only)
  repeat' (first
    | with_reducible assumption
    | (intro _; (try dsimp only))
    | with_reducible apply modHp_keeps
    | with_reducible apply setHo_keeps
    | with_reducible apply Keeps.forEach
    | with_reducible apply Keeps.ite)

theorem execHpPumpDone_keeps {zz : State} {s : State} (hzz : Keeps zz s) :
    OutKeeps zz (execHpPumpDone s) := by
  unfold execHpPumpDone
  (try dsimp only)
  repeat' (first
    | with_reducible assumption
    | (intro _; (try dsimp only))
    | with_reducible apply wr_keeps
    | with_reducible apply setHo_keeps
    | with_reducible apply Keeps.forEach
    | with_reducible apply outNext
    | with_reducible apply Keeps.ite
    | with_reducible apply OutKeeps.ite)

theorem execHpReleaseDone_keeps {zz : State} {line : Bool} {s : State} (hzz : Keeps zz s) :
    OutKeeps zz (execHpReleaseDone line s) := by
  unfold execHpReleaseDone
  (try dsimp only)
  repeat' (first
    | with_reducible assumption
    | with_reducible apply setHo_keeps
    | with_reducible apply hoTry_keeps
    | with_reducible apply outNext
    | with_reducible apply OutKeeps.ite)

theorem execHpUnmuteDone_keeps {zz : State} {line : Bool} {s : State} (hzz : Keeps zz s) :
    OutKeeps zz (execHpUnmuteDone line s) := by
  unfold execHpUnmuteDone
  (try dsimp only)
  repeat' (first
    | with_reducible assumption
    | with_reducible apply setHo_keeps
    | with_reducible apply outNext
    | with_reducible apply Keeps.ite)

theorem execHpMuteDone_keeps {zz : State} {line : Bool} {s : State} (hzz : Keeps zz s) :
    OutKeeps zz (execHpMuteDone line s) := by
  unfold execHpMuteDone
  (try dsimp only)
  repeat' (first
    | with_reducible assumption
    | with_reducible apply setHo_keeps
    | with_reducible apply hoTry_keeps
    | with_reducible apply outNext
    | with_reducible apply OutKeeps.ite)

theorem execHpShortDone_keeps {zz : State} {line : Bool} {s : State} (hzz : Keeps zz s) :
    OutKeeps zz (execHpShortDone line s) := by
  unfold execHpShortDone
  (try dsimp only)
  repeat' (first
    | with_reducible assumption
    | with_reducible apply wr_keeps
    | with_reducible apply setHo_keeps
    | with_reducible apply hoBegin_keeps
    | with_reducible apply outNext
    | with_reducible apply Keeps.ite
    | with_reducible apply OutKeeps.ite)

theorem addHpWaits_keeps {zz : State} {s s0 : State} (hzz : Keeps zz s) :
    Keeps zz (State.addHpWaits s s0) := by
  unfold State.addHpWaits
  (try dsimp only)
  repeat' (first
    | with_reducible assumption
    | with_reducible fail_if_no_progress refine Keeps.upd ?_ rfl rfl rfl rfl rfl rfl)

theorem execHplineCfg_keeps {zz : State} {p : Packet} {s : State} (hzz : Keeps zz s) :
    OutKeeps zz (execHplineCfg p s) := by
  unfold execHplineCfg
  (try dsimp only)
  repeat' (first
    | with_reducible assumption
    | (intro _; (try dsimp only))
    | with_reducible apply Res.ok_keeps
    | with_reducible exact busyWith_keeps
    | with_reducible apply finish_keeps
    | with_reducible apply putReg_keeps
    | with_reducible apply withDomains_keeps
    | with_reducible apply take_keeps
    | with_reducible apply hpPoll_keeps
    | with_reducible apply hplChanged_keeps
    | with_reducible apply hpJack_keeps
    | with_reducible apply addHpWaits_keeps
    | with_reducible apply outNext
    | with_reducible apply resPend
    | with_reducible apply resRefuse
    | with_reducible apply ResKeeps.ite
    | (split <;> try dsimp only)
    | with_reducible fail_if_no_progress refine Keeps.upd ?_ rfl rfl rfl rfl rfl rfl)

theorem modCv_keeps {zz : State} {s : State} {n : Nat} {f : CvX → CvX} (hzz : Keeps zz s) :
    Keeps zz (State.modCv s n f) := by
  unfold State.modCv
  (try dsimp only)
  repeat' (first
    | with_reducible assumption
    | with_reducible fail_if_no_progress refine Keeps.upd ?_ rfl rfl rfl rfl rfl rfl)

theorem cvPut_keeps {zz : State} {s : State} {n c : Nat} (hzz : Keeps zz s) :
    Keeps zz (State.cvPut s n c) := by
  unfold State.cvPut
  (try dsimp only)
  repeat' (first
    | with_reducible assumption
    | with_reducible apply wr_keeps
    | with_reducible apply set1_keeps
    | with_reducible apply modCv_keeps
    | with_reducible apply Keeps.ite)

theorem cvSettle_keeps {zz : State} {s : State} {n : Nat} (hzz : Keeps zz s) :
    Keeps zz (State.cvSettle s n) := by
  unfold State.cvSettle
  (try dsimp only)
  repeat' (first
    | with_reducible assumption
    | with_reducible apply wr_keeps
    | with_reducible apply cvPut_keeps
    | with_reducible apply Keeps.ite)

theorem cvSettleAll_keeps {zz : State} {s : State} (hzz : Keeps zz s) :
    Keeps zz (State.cvSettleAll s) := by
  unfold State.cvSettleAll
  (try dsimp only)
  repeat' (first
    | with_reducible assumption
    | (intro _; (try dsimp only))
    | with_reducible apply cvSettle_keeps
    | with_reducible apply Keeps.forEach)

theorem cvSlew_keeps {zz : State} {s : State} {n k : Nat} (hzz : Keeps zz s) :
    Keeps zz (State.cvSlew s n k) := by
  unfold State.cvSlew
  (try dsimp only)
  repeat' (first
    | with_reducible assumption
    | with_reducible apply modCv_keeps
    | with_reducible apply cvPut_keeps
    | with_reducible apply cvSettle_keeps
    | with_reducible apply Keeps.ite)

theorem execCvDeglitchEnd_keeps {zz : State} {n : Fin 4} {s : State} (hzz : Keeps zz s) :
    OutKeeps zz (execCvDeglitchEnd n s) := by
  unfold execCvDeglitchEnd
  (try dsimp only)
  repeat' (first
    | with_reducible assumption
    | with_reducible apply wr_keeps
    | with_reducible apply clr_keeps
    | with_reducible apply modCv_keeps
    | with_reducible apply outNext
    | (split <;> try dsimp only))

theorem execClrNFall_keeps {zz : State} {s : State} (hzz : Keeps zz s) :
    OutKeeps zz (execClrNFall s) := by
  unfold execClrNFall
  (try dsimp only)
  repeat' (first
    | with_reducible assumption
    | with_reducible apply cvSettleAll_keeps
    | with_reducible apply outNext
    | with_reducible fail_if_no_progress refine Keeps.upd ?_ rfl rfl rfl rfl rfl rfl)

theorem execClrNRise_keeps {zz : State} {s : State} (hzz : Keeps zz s) :
    OutKeeps zz (execClrNRise s) := by
  unfold execClrNRise
  (try dsimp only)
  repeat' (first
    | with_reducible assumption
    | with_reducible apply cvSettleAll_keeps
    | with_reducible apply outNext
    | with_reducible fail_if_no_progress refine Keeps.upd ?_ rfl rfl rfl rfl rfl rfl)

theorem cvWrite_keeps {zz : State} {s : State} {n : Nat} {w : Word} (hzz : Keeps zz s) :
    Keeps zz (State.cvWrite s n w) := by
  unfold State.cvWrite
  (try dsimp only)
  repeat' (first
    | with_reducible assumption
    | with_reducible apply setReg_keeps
    | with_reducible apply wr_keeps
    | with_reducible apply modCv_keeps
    | with_reducible apply cvSettle_keeps
    | with_reducible apply Keeps.ite)

theorem execCvCfg_keeps {zz : State} {p : Packet} {s : State} (hzz : Keeps zz s) :
    OutKeeps zz (execCvCfg p s) := by
  unfold execCvCfg
  (try dsimp only)
  repeat' (first
    | with_reducible assumption
    | (intro _; (try dsimp only))
    | with_reducible apply Res.ok_keeps
    | with_reducible exact bad_keeps
    | with_reducible apply unlessBusy_keeps
    | with_reducible apply fits_keeps
    | with_reducible apply putReg_keeps
    | with_reducible apply withDomains_keeps
    | with_reducible apply card_keeps
    | with_reducible apply cvSettle_keeps
    | with_reducible apply cvWrite_keeps
    | with_reducible apply Keeps.foldl
    | with_reducible apply resRefuse
    | with_reducible apply Keeps.ite
    | with_reducible apply ResKeeps.ite)

theorem execCvTrack_keeps {zz : State} {p : Packet} {s : State} (hzz : Keeps zz s) :
    OutKeeps zz (execCvTrack p s) := by
  unfold execCvTrack
  (try dsimp only)
  repeat' (first
    | with_reducible assumption
    | (intro _; (try dsimp only))
    | with_reducible apply Res.ok_keeps
    | with_reducible exact bad_keeps
    | with_reducible apply unlessBusy_keeps
    | with_reducible apply putReg_keeps
    | with_reducible apply withDomains_keeps
    | with_reducible apply card_keeps
    | with_reducible apply cvSettle_keeps
    | with_reducible apply ResKeeps.ite)

theorem cvTrackStep_keeps {zz : State} {s : State} {n d : Nat} (hzz : Keeps zz s) :
    Keeps zz (State.cvTrackStep s n d) := by
  unfold State.cvTrackStep
  (try dsimp only)
  repeat' (first
    | with_reducible assumption
    | with_reducible apply wr_keeps
    | with_reducible apply drawn_keeps
    | with_reducible apply modCv_keeps
    | with_reducible apply cvSettle_keeps
    | with_reducible apply Keeps.ite)

end Sys2Proof.Machine
end

