-- ==== Sys2Proof/Laws/KeepsReact.lean ====
section
/-!
SUPPORT. What the operations of Machine/React.lean keep (Laws/Keeps.lean).
-/

set_option linter.unusedTactic false
set_option linter.unreachableTactic false
set_option linter.unusedVariables false

namespace Sys2Proof.Machine

theorem chipState_keeps {zz : State} {s : State} {mode recno region code unit : Nat} (hzz : Keeps zz s) :
    Keeps zz (State.chipState s mode recno region code unit) := by
  unfold State.chipState
  (try dsimp only)
  repeat' (first
    | with_reducible assumption
    | (intro _; (try dsimp only))
    | with_reducible apply wr_keeps
    | with_reducible apply showFn_keeps
    | with_reducible apply raiseSafe_keeps
    | with_reducible apply Keeps.forEach
    | with_reducible fail_if_no_progress refine Keeps.upd ?_ rfl rfl rfl rfl rfl rfl)

theorem reactM_keeps {zz : State} {s : State} {recno region code unit : Nat} (hzz : Keeps zz s) :
    Keeps zz (State.reactM s recno region code unit) := by
  unfold State.reactM
  (try dsimp only)
  repeat' (first
    | with_reducible assumption
    | (intro _; (try dsimp only))
    | with_reducible apply outShow_keeps
    | with_reducible apply holdNow_keeps
    | with_reducible apply hpSafe_keeps
    | with_reducible apply chipState_keeps
    | with_reducible apply Keeps.forEach
    | with_reducible apply Keeps.ite
    | with_reducible fail_if_no_progress refine Keeps.upd ?_ rfl rfl rfl rfl rfl rfl)

theorem reactO_keeps {zz : State} {s : State} {recno region code unit : Nat} (hzz : Keeps zz s) :
    Keeps zz (State.reactO s recno region code unit) := by
  unfold State.reactO
  (try dsimp only)
  repeat' (first
    | with_reducible assumption
    | (intro _; (try dsimp only))
    | with_reducible apply modSpk_keeps
    | with_reducible apply outShow_keeps
    | with_reducible apply faultHold_keeps
    | with_reducible apply hpSafe_keeps
    | with_reducible apply cvSettleAll_keeps
    | with_reducible apply chipState_keeps
    | with_reducible apply Keeps.forEach
    | with_reducible apply Keeps.ite
    | with_reducible fail_if_no_progress refine Keeps.upd ?_ rfl rfl rfl rfl rfl rfl)

theorem reactF_keeps {zz : State} {s : State} {recno region code unit : Nat} (hzz : Keeps zz s) :
    Keeps zz (State.reactF s recno region code unit) := by
  unfold State.reactF
  (try dsimp only)
  repeat' (first
    | with_reducible assumption
    | with_reducible apply wr_keeps
    | with_reducible apply set1_keeps
    | with_reducible apply clr_keeps
    | with_reducible apply finishAll_keeps
    | with_reducible apply raiseSafe_keeps
    | with_reducible apply outShow_keeps
    | with_reducible apply Keeps.ite
    | with_reducible fail_if_no_progress refine Keeps.upd ?_ rfl rfl rfl rfl rfl rfl)

theorem markFn_keeps {zz : State} {s : State} {recno : Nat} (hzz : Keeps zz s) :
    Keeps zz (State.markFn s recno) := by
  unfold State.markFn
  (try dsimp only)
  repeat' (first
    | with_reducible assumption
    | with_reducible fail_if_no_progress refine Keeps.updI ?_ id id id id (le_map _) (fun _ _ h => h))

theorem react_keeps {zz : State} {s : State} {r : Reaction} {recno region code unit : Nat} (hzz : Keeps zz s) :
    Keeps zz (State.react s r recno region code unit) := by
  unfold State.react
  (try dsimp only)
  repeat' (first
    | with_reducible assumption
    | with_reducible apply reactM_keeps
    | with_reducible apply reactO_keeps
    | with_reducible apply reactF_keeps
    | with_reducible apply markFn_keeps
    | with_reducible apply Keeps.ite
    | (split <;> try dsimp only))

theorem passUp_keeps {zz : State} {s : State} {f : FaultInfo} (hzz : Keeps zz s) :
    Keeps zz (State.passUp s f) := by
  unfold State.passUp
  (try dsimp only)
  repeat' (first
    | with_reducible assumption
    | with_reducible apply escalated_keeps
    | with_reducible apply react_keeps)

theorem toChip_keeps {zz : State} {s : State} {f : FaultInfo} (hzz : Keeps zz s) :
    Keeps zz (State.toChip s f) := by
  unfold State.toChip
  (try dsimp only)
  repeat' (first
    | with_reducible assumption
    | with_reducible apply fault_keeps
    | with_reducible apply passUp_keeps)

theorem toChipAs_keeps {zz : State} {s : State} {r : Reaction} {f : FaultInfo} (hzz : Keeps zz s) :
    Keeps zz (State.toChipAs s r f) := by
  unfold State.toChipAs
  (try dsimp only)
  repeat' (first
    | with_reducible assumption
    | with_reducible apply escalated_keeps
    | with_reducible apply fault_keeps
    | with_reducible apply react_keeps)

end Sys2Proof.Machine
end

