-- ==== Sys2Proof/Laws/KeepsFrontEnd.lean ====
section
/-!
SUPPORT. What the operations of Machine/FrontEnd.lean keep (Laws/Keeps.lean).
-/

set_option linter.unusedTactic false
set_option linter.unreachableTactic false
set_option linter.unusedVariables false

namespace Sys2Proof.Machine

theorem showFe_keeps {zz : State} {s : State} (hzz : Keeps zz s) :
    Keeps zz (State.showFe s) := by
  unfold State.showFe
  (try dsimp only)
  repeat' (first
    | with_reducible assumption
    | (intro _; (try dsimp only))
    | with_reducible apply wr_keeps
    | with_reducible apply Keeps.forEach)

theorem modInp_keeps {zz : State} {s : State} {f : Inputs → Inputs} (hzz : Keeps zz s) :
    Keeps zz (State.modInp s f) := by
  unfold State.modInp
  (try dsimp only)
  repeat' (first
    | with_reducible assumption
    | with_reducible fail_if_no_progress refine Keeps.upd ?_ rfl rfl rfl rfl rfl rfl)

theorem aadcChanged_keeps {zz : State} {s : State} {n : Nat} {old : Word} (hzz : Keeps zz s) :
    Keeps zz (State.aadcChanged s n old) := by
  unfold State.aadcChanged
  (try dsimp only)
  repeat' (first
    | with_reducible assumption
    | with_reducible apply wr_keeps
    | with_reducible apply clr_keeps
    | with_reducible apply showFe_keeps
    | with_reducible apply modInp_keeps
    | with_reducible apply Keeps.ite)

theorem pdmChanged_keeps {zz : State} {s old : State} (hzz : Keeps zz s) :
    Keeps zz (State.pdmChanged s old) := by
  unfold State.pdmChanged
  (try dsimp only)
  repeat' (first
    | with_reducible assumption
    | (intro _; (try dsimp only))
    | with_reducible apply showFe_keeps
    | with_reducible apply modInp_keeps
    | with_reducible apply Keeps.forEach
    | with_reducible apply Keeps.ite)

theorem biasRamp_keeps {zz : State} {s : State} {n : Nat} (hzz : Keeps zz s) :
    Keeps zz (State.biasRamp s n) := by
  unfold State.biasRamp
  (try dsimp only)
  repeat' (first
    | with_reducible assumption
    | with_reducible apply set1_keeps
    | with_reducible apply modInp_keeps
    | with_reducible apply Keeps.ite)

theorem micbChanged_keeps {zz : State} {s : State} (hzz : Keeps zz s) :
    Keeps zz (State.micbChanged s) := by
  unfold State.micbChanged
  (try dsimp only)
  repeat' (first
    | with_reducible assumption
    | with_reducible apply biasRamp_keeps)

theorem jackBias_keeps {zz : State} {s : State} {n : Option (Fin 2)} (hzz : Keeps zz s) :
    Keeps zz (State.jackBias s n) := by
  unfold State.jackBias
  (try dsimp only)
  repeat' (first
    | with_reducible assumption
    | with_reducible apply modInp_keeps
    | with_reducible apply micbChanged_keeps)

theorem runsPass_keeps {zz : State} {s : State} (hzz : Keeps zz s) :
    Keeps zz (State.runsPass s) := by
  unfold State.runsPass
  (try dsimp only)
  repeat' (first
    | with_reducible assumption
    | with_reducible apply showFe_keeps
    | with_reducible apply modInp_keeps)

end Sys2Proof.Machine
end

