-- ==== Sys2Proof/Laws/KeepsStreams.lean ====
section
/-!
SUPPORT. What the operations of Machine/Streams.lean keep (Laws/Keeps.lean).
-/

set_option linter.unusedTactic false
set_option linter.unreachableTactic false
set_option linter.unusedVariables false

namespace Sys2Proof.Machine

theorem openContext_keeps {zz : State} {s : State} {sid stype sidx dtype didx nch width inv vpol asfirst amode hfs : Nat} (hzz : Keeps zz s) :
    Keeps zz (State.openContext s sid stype sidx dtype didx nch width inv vpol asfirst amode hfs) := by
  unfold State.openContext
  (try dsimp only)
  repeat' (first
    | with_reducible assumption
    | with_reducible apply setReg_keeps
    | with_reducible apply wr64_keeps)

theorem openStr_keeps {zz : State} {s : State} {x : StreamX} (hzz : Keeps zz s) :
    Keeps zz (State.openStr s x) := by
  unfold State.openStr
  (try dsimp only)
  repeat' (first
    | with_reducible assumption
    | with_reducible apply strState_keeps
    | with_reducible fail_if_no_progress refine Keeps.upd ?_ rfl rfl rfl rfl rfl rfl)

theorem streamOpenAt_keeps {zz : State} {ws : List Word} {stype sidx dtype didx nch amode : Nat} {s : State} (hzz : Keeps zz s) :
    ResKeeps zz (streamOpenAt ws stype sidx dtype didx nch amode s) := by
  unfold streamOpenAt
  (try dsimp only)
  repeat' (first
    | with_reducible assumption
    | (intro _; (try dsimp only))
    | with_reducible apply unlessBusy_keeps
    | with_reducible apply withDomains_keeps
    | with_reducible apply openContext_keeps
    | with_reducible apply openStr_keeps
    | with_reducible apply resDone
    | with_reducible apply resRefuse
    | with_reducible apply ResKeeps.ite
    | (split <;> try dsimp only))

theorem streamOpenBody_keeps {zz : State} {ws : List Word} {s : State} (hzz : Keeps zz s) :
    ResKeeps zz (streamOpenBody ws s) := by
  unfold streamOpenBody
  (try dsimp only)
  repeat' (first
    | with_reducible assumption
    | with_reducible exact bad_keeps
    | with_reducible apply streamOpenAt_keeps
    | with_reducible apply ResKeeps.ite)

theorem execStreamOpen_keeps {zz : State} {p : Packet} {s : State} (hzz : Keeps zz s) :
    OutKeeps zz (execStreamOpen p s) := by
  unfold execStreamOpen
  (try dsimp only)
  repeat' (first
    | with_reducible assumption
    | (intro _; (try dsimp only))
    | with_reducible apply card_keeps
    | with_reducible apply streamOpenBody_keeps)

theorem streamCloseBody_keeps {zz : State} {force : Bool} {ws : List Word} {s : State} (hzz : Keeps zz s) :
    ResKeeps zz (streamCloseBody force ws s) := by
  unfold streamCloseBody
  (try dsimp only)
  repeat' (first
    | with_reducible assumption
    | with_reducible apply Res.ok_keeps
    | with_reducible exact bad_keeps
    | with_reducible apply unlessBusy_keeps
    | with_reducible apply setStr_keeps
    | with_reducible apply abortStr_keeps
    | with_reducible apply closeStr_keeps
    | with_reducible apply resPend
    | with_reducible apply ResKeeps.ite
    | (split <;> try dsimp only))

theorem execStreamClose_keeps {zz : State} {p : Packet} {s : State} (hzz : Keeps zz s) :
    OutKeeps zz (execStreamClose p s) := by
  unfold execStreamClose
  (try dsimp only)
  repeat' (first
    | with_reducible assumption
    | (intro _; (try dsimp only))
    | with_reducible apply card_keeps
    | with_reducible apply streamCloseBody_keeps)

theorem execStreamCloseForce_keeps {zz : State} {p : Packet} {s : State} (hzz : Keeps zz s) :
    OutKeeps zz (execStreamCloseForce p s) := by
  unfold execStreamCloseForce
  (try dsimp only)
  repeat' (first
    | with_reducible assumption
    | (intro _; (try dsimp only))
    | with_reducible apply card_keeps
    | with_reducible apply streamCloseBody_keeps)

theorem execStreamCloseDone_keeps {zz : State} {sid : Fin 128} {s : State} (hzz : Keeps zz s) :
    OutKeeps zz (execStreamCloseDone sid s) := by
  unfold execStreamCloseDone
  (try dsimp only)
  repeat' (first
    | with_reducible assumption
    | with_reducible apply closeStr_keeps
    | with_reducible apply outNext
    | with_reducible apply OutKeeps.ite
    | (split <;> try dsimp only))

theorem clearStr_keeps {zz : State} {s : State} {sid : Nat} (hzz : Keeps zz s) :
    Keeps zz (State.clearStr s sid) := by
  unfold State.clearStr
  (try dsimp only)
  repeat' (first
    | with_reducible assumption
    | with_reducible apply setReg_keeps)

theorem execStreamStatus_keeps {zz : State} {p : Packet} {s : State} (hzz : Keeps zz s) :
    OutKeeps zz (execStreamStatus p s) := by
  unfold execStreamStatus
  (try dsimp only)
  repeat' (first
    | with_reducible assumption
    | (intro _; (try dsimp only))
    | with_reducible exact bad_keeps
    | with_reducible apply unlessBusy_keeps
    | with_reducible apply card_keeps
    | with_reducible apply clearStr_keeps
    | with_reducible apply resDone
    | with_reducible apply Keeps.ite
    | with_reducible apply ResKeeps.ite)

theorem asrcLock_keeps {zz : State} {s : State} {sid : Nat} {v : Bool} (hzz : Keeps zz s) :
    Keeps zz (State.asrcLock s sid v) := by
  unfold State.asrcLock
  (try dsimp only)
  repeat' (first
    | with_reducible assumption
    | with_reducible apply wr_keeps
    | with_reducible apply set1_keeps
    | with_reducible apply raise_keeps
    | with_reducible apply Keeps.ite)

theorem execAsrcCfg_keeps {zz : State} {p : Packet} {s : State} (hzz : Keeps zz s) :
    OutKeeps zz (execAsrcCfg p s) := by
  unfold execAsrcCfg
  (try dsimp only)
  repeat' (first
    | with_reducible assumption
    | (intro _; (try dsimp only))
    | with_reducible apply Res.ok_keeps
    | with_reducible exact bad_keeps
    | with_reducible apply unlessBusy_keeps
    | with_reducible apply card_keeps
    | with_reducible apply setStr_keeps
    | with_reducible apply asrcLock_keeps
    | with_reducible apply Keeps.ite
    | with_reducible apply ResKeeps.ite
    | (split <;> try dsimp only))

theorem execAsrcLock_keeps {zz : State} {lock : AsrcLocked} {s : State} (hzz : Keeps zz s) :
    OutKeeps zz (execAsrcLock lock s) := by
  unfold execAsrcLock
  (try dsimp only)
  repeat' (first
    | with_reducible assumption
    | with_reducible apply setStr_keeps
    | with_reducible apply asrcLock_keeps
    | with_reducible apply outNext
    | with_reducible apply OutKeeps.ite
    | (split <;> try dsimp only))

theorem execAsrcUnlock_keeps {zz : State} {loss : AsrcLost} {s : State} (hzz : Keeps zz s) :
    OutKeeps zz (execAsrcUnlock loss s) := by
  unfold execAsrcUnlock
  (try dsimp only)
  repeat' (first
    | with_reducible assumption
    | with_reducible apply setStr_keeps
    | with_reducible apply asrcLock_keeps
    | with_reducible apply outNext
    | with_reducible apply OutKeeps.ite
    | (split <;> try dsimp only))

theorem fromPort_keeps {zz : State} {s : State} {x : StreamX} {p n : Nat} {f : List Sample} (hzz : Keeps zz s) :
    Keeps zz (State.fromPort s x p n f).s := by
  unfold State.fromPort
  (try dsimp only)
  repeat' (first
    | with_reducible assumption
    | with_reducible apply set1_keeps
    | (split <;> try dsimp only))

theorem fromRing_keeps {zz : State} {s : State} {x : StreamX} {ring n taken : Nat} {conv : Option (List Sample)} (hzz : Keeps zz s) :
    Keeps zz (State.fromRing s x ring n taken conv).s := by
  unfold State.fromRing
  (try dsimp only)
  repeat' (first
    | with_reducible assumption
    | (intro _; (try dsimp only))
    | with_reducible apply wr_keeps
    | with_reducible apply set1_keeps
    | with_reducible apply deliverPoison_keeps
    | with_reducible apply Keeps.forEach
    | with_reducible apply Keeps.ite
    | (split <;> try dsimp only))

theorem frontDec_keeps {zz : State} {s : State} {type idx : Nat} (hzz : Keeps zz s) :
    Keeps zz (State.frontDec s type idx) := by
  unfold State.frontDec
  (try dsimp only)
  repeat' (first
    | with_reducible assumption
    | with_reducible apply showFe_keeps
    | with_reducible apply modInp_keeps)

theorem fromFront_keeps {zz : State} {s : State} {x : StreamX} {type idx n : Nat} {f : List Sample} (hzz : Keeps zz s) :
    Keeps zz (State.fromFront s x type idx n f).s := by
  unfold State.fromFront
  (try dsimp only)
  repeat' (first
    | with_reducible assumption
    | (intro _; (try dsimp only))
    | with_reducible apply set1_keeps
    | with_reducible apply frontDec_keeps
    | with_reducible apply Keeps.forEach
    | with_reducible apply Keeps.ite)

theorem nonpcmRise_keeps {zz : State} {s : State} (hzz : Keeps zz s) :
    Keeps zz (State.nonpcmRise s) := by
  unfold State.nonpcmRise
  (try dsimp only)
  repeat' (first
    | with_reducible assumption
    | (intro _; (try dsimp only))
    | with_reducible apply set1_keeps
    | with_reducible apply raiseStream_keeps
    | with_reducible apply Keeps.foldl)

theorem rxFrame_keeps {zz : State} {s : State} {f : Subframe × Subframe} (hzz : Keeps zz s) :
    Keeps zz (State.rxFrame s f) := by
  unfold State.rxFrame
  (try dsimp only)
  repeat' (first
    | with_reducible assumption
    | with_reducible apply clr_keeps
    | with_reducible apply sat_keeps
    | with_reducible apply nonpcmRise_keeps
    | with_reducible apply Keeps.ite
    | (split <;> try dsimp only)
    | with_reducible fail_if_no_progress refine Keeps.upd ?_ rfl rfl rfl rfl rfl rfl)

theorem rawFrame_keeps {zz : State} {s : State} {x : StreamX} {f : FrameIn} (hzz : Keeps zz s) :
    Keeps zz (State.rawFrame s x f).s := by
  unfold State.rawFrame
  (try dsimp only)
  repeat' (first
    | with_reducible assumption
    | (intro _; (try dsimp only))
    | with_reducible apply fromPort_keeps
    | with_reducible apply fromRing_keeps
    | with_reducible apply fromFront_keeps
    | with_reducible apply rxFrame_keeps
    | with_reducible apply Keeps.foldl
    | (split <;> try dsimp only))

theorem takeFrame_keeps {zz : State} {s : State} {x : StreamX} {f : FrameIn} (hzz : Keeps zz s) :
    Keeps zz (State.takeFrame s x f).s := by
  unfold State.takeFrame
  (try dsimp only)
  repeat' (first
    | with_reducible assumption
    | with_reducible apply rawFrame_keeps
    | (split <;> try dsimp only))

theorem toTdm_keeps {zz : State} {s : State} {x : StreamX} {p : Nat} {smps : List Sample} (hzz : Keeps zz s) :
    Keeps zz (State.toTdm s x p smps).s := by
  unfold State.toTdm
  (try dsimp only)
  repeat' (first
    | with_reducible assumption
    | (split <;> try dsimp only))

theorem toSpdif_keeps {zz : State} {s : State} {x : StreamX} {smps : List Sample} (hzz : Keeps zz s) :
    Keeps zz (State.toSpdif s x smps).s := by
  unfold State.toSpdif
  (try dsimp only)
  repeat' (first
    | with_reducible assumption
    | (split <;> try dsimp only))

theorem toHostRing_keeps {zz : State} {s : State} {x : StreamX} {ring : Nat} {smps : List Sample} (hzz : Keeps zz s) :
    Keeps zz (State.toHostRing s x ring smps).s := by
  unfold State.toHostRing
  (try dsimp only)
  repeat' (first
    | with_reducible assumption
    | with_reducible apply ringPut_keeps
    | (split <;> try dsimp only))

theorem putTagged_keeps : ∀ {zz s : State} {l : List Sample} {ring i : Nat}, Keeps zz s → Keeps zz (s.putTagged ring i l)
  | _, _, [], _, _, k => k
  | _, _, _ :: _, _, _, k => by unfold State.putTagged; exact putTagged_keeps (setByte_keeps (setWord_keeps k))

theorem toInternal_keeps {zz : State} {s : State} {ring : Nat} {smps : List Sample} (hzz : Keeps zz s) :
    Keeps zz (State.toInternal s ring smps).s := by
  unfold State.toInternal
  (try dsimp only)
  repeat' (first
    | with_reducible assumption
    | with_reducible apply wr_keeps
    | with_reducible apply putTagged_keeps
    | (split <;> try dsimp only))

theorem sendFrame_keeps {zz : State} {s : State} {x : StreamX} {smps : List Sample} (hzz : Keeps zz s) :
    Keeps zz (State.sendFrame s x smps).s := by
  unfold State.sendFrame
  (try dsimp only)
  repeat' (first
    | with_reducible assumption
    | with_reducible apply toTdm_keeps
    | with_reducible apply toSpdif_keeps
    | with_reducible apply toHostRing_keeps
    | with_reducible apply toInternal_keeps
    | (split <;> try dsimp only))

theorem countFrame_keeps {zz : State} {s : State} {sid : Nat} {ok : Bool} {smps : List Sample} (hzz : Keeps zz s) :
    Keeps zz (State.countFrame s sid ok smps) := by
  unfold State.countFrame
  (try dsimp only)
  repeat' (first
    | with_reducible assumption
    | with_reducible apply set1_keeps
    | with_reducible apply sat_keeps
    | with_reducible apply wr64_keeps
    | with_reducible apply Keeps.ite)

theorem moveFrame_keeps {zz : State} {s : State} {x : StreamX} {f : FrameIn} (hzz : Keeps zz s) :
    Keeps zz (State.moveFrame s x f) := by
  unfold State.moveFrame
  (try dsimp only)
  repeat' (first
    | with_reducible assumption
    | with_reducible apply setStr_keeps
    | with_reducible apply strState_keeps
    | with_reducible apply takeFrame_keeps
    | with_reducible apply sendFrame_keeps
    | with_reducible apply countFrame_keeps
    | with_reducible apply Keeps.ite
    | with_reducible fail_if_no_progress refine Keeps.upd ?_ rfl rfl rfl rfl rfl rfl)

theorem catchOldest_keeps {zz : State} {s : State} {sid : Nat} (hzz : Keeps zz s) :
    Keeps zz (State.catchOldest s sid) := by
  unfold State.catchOldest
  (try dsimp only)
  repeat' (first
    | with_reducible assumption
    | with_reducible apply wr_keeps
    | with_reducible apply wr64_keeps
    | with_reducible apply raiseStream_keeps
    | with_reducible apply Keeps.ite)

theorem frame_keeps {zz : State} {s : State} {sid : Nat} {f : FrameIn} (hzz : Keeps zz s) :
    Keeps zz (State.frame s sid f) := by
  unfold State.frame
  (try dsimp only)
  repeat' (first
    | with_reducible assumption
    | with_reducible apply moveFrame_keeps
    | with_reducible apply catchOldest_keeps
    | with_reducible apply Keeps.ite
    | (split <;> try dsimp only))

theorem execStreamFrame_keeps {zz : State} {sid : Fin 128} {frame : FrameIn} {s : State} (hzz : Keeps zz s) :
    OutKeeps zz (execStreamFrame sid frame s) := by
  unfold execStreamFrame
  (try dsimp only)
  repeat' (first
    | with_reducible assumption
    | with_reducible apply frame_keeps
    | with_reducible apply outNext)

end Sys2Proof.Machine
end

