-- ==== Sys2Proof/Laws/KeepsGraphCore.lean ====
section
/-!
SUPPORT. What the operations of Machine/GraphCore.lean keep (Laws/Keeps.lean).
-/

set_option linter.unusedTactic false
set_option linter.unreachableTactic false
set_option linter.unusedVariables false

namespace Sys2Proof.Machine

theorem setGstate_keeps {zz : State} {s : State} {g : Nat} (hzz : Keeps zz s) :
    Keeps zz (State.setGstate s g) := by
  unfold State.setGstate
  (try dsimp only)
  repeat' (first
    | with_reducible assumption
    | with_reducible apply wr_keeps)

theorem setRole_keeps {zz : State} {s : State} {n r l : Nat} (hzz : Keeps zz s) :
    Keeps zz (State.setRole s n r l) := by
  unfold State.setRole
  (try dsimp only)
  repeat' (first
    | with_reducible assumption
    | with_reducible apply wr_keeps)

theorem respare_keeps {zz : State} {s : State} (hzz : Keeps zz s) :
    Keeps zz (State.respare s) := by
  unfold State.respare
  (try dsimp only)
  repeat' (first
    | with_reducible assumption
    | (intro _; (try dsimp only))
    | with_reducible apply wr_keeps
    | with_reducible apply domUp_keeps
    | with_reducible apply setRole_keeps
    | with_reducible apply Keeps.foldl
    | with_reducible apply Keeps.ite)

theorem modLe_keeps {zz : State} {s : State} {l : Nat} {f : LEngine → LEngine} (hzz : Keeps zz s) :
    Keeps zz (State.modLe s l f) := by
  unfold State.modLe
  (try dsimp only)
  repeat' (first
    | with_reducible assumption
    | with_reducible fail_if_no_progress refine Keeps.upd ?_ rfl rfl rfl rfl rfl rfl)

theorem modGraph_keeps {zz : State} {s : State} {f : Graph → Graph} (hzz : Keeps zz s) :
    Keeps zz (State.modGraph s f) := by
  unfold State.modGraph
  (try dsimp only)
  repeat' (first
    | with_reducible assumption
    | with_reducible fail_if_no_progress refine Keeps.upd ?_ rfl rfl rfl rfl rfl rfl)

theorem setEngWord_keeps {zz s : State} {n a : Nat} {w : Word} (k : Keeps zz s) : Keeps zz (s.setEngWord n a w) :=
  k.trans ⟨id, id, Sparse.wf_set _ _, id, id, id, id, id, fun _ _ h => h, rfl⟩

theorem setEngTag_keeps {zz : State} {s : State} {n a : Nat} {t : BitVec 8} (hzz : Keeps zz s) :
    Keeps zz (State.setEngTag s n a t) := by
  unfold State.setEngTag
  (try dsimp only)
  repeat' (first
    | with_reducible assumption
    | with_reducible apply setEngWord_keeps)

theorem putEng_keeps : ∀ {zz s : State} {l : List Word} {n a : Nat}, Keeps zz s → Keeps zz (s.putEng n a l)
  | _, _, [], _, _, k => k
  | _, _, _ :: _, _, _, k => by unfold State.putEng; exact putEng_keeps (setEngWord_keeps k)

theorem loadSpan_keeps : ∀ {zz s : State} {g : GImage} {ofs n a k : Nat}, Keeps zz s → Keeps zz (s.loadSpan g ofs n a k)
  | _, _, _, _, _, _, 0, h => h
  | _, _, _, _, _, _, _ + 1, h => by
    unfold State.loadSpan
    exact loadSpan_keeps (Keeps.ite (deliverPoison_keeps h) (setEngWord_keeps h))

theorem loadImem_keeps {zz : State} {s : State} {g : GImage} {l n : Nat} (hzz : Keeps zz s) :
    Keeps zz (State.loadImem s g l n) := by
  unfold State.loadImem
  (try dsimp only)
  repeat' (first
    | with_reducible assumption
    | with_reducible apply loadSpan_keeps)

theorem loadData_keeps {zz : State} {s : State} {g : GImage} {l n : Nat} (hzz : Keeps zz s) :
    Keeps zz (State.loadData s g l n) := by
  unfold State.loadData
  (try dsimp only)
  repeat' (first
    | with_reducible assumption
    | with_reducible apply loadSpan_keeps)

theorem loadRegion_keeps {zz : State} {s : State} {g : GImage} {r : GRegion} {n : Nat} (hzz : Keeps zz s) :
    Keeps zz (State.loadRegion s g r n) := by
  unfold State.loadRegion
  (try dsimp only)
  repeat' (first
    | with_reducible assumption
    | with_reducible apply loadSpan_keeps)

theorem openDmem_keeps {zz : State} {s : State} {n : Nat} (hzz : Keeps zz s) :
    Keeps zz (State.openDmem s n) := by
  unfold State.openDmem
  (try dsimp only)
  repeat' (first
    | with_reducible assumption
    | (intro _; (try dsimp only))
    | with_reducible apply drawn_keeps
    | with_reducible apply setEngWord_keeps
    | with_reducible apply Keeps.forEach)

theorem restoreRegions_keeps {zz : State} {s : State} {g : GImage} {n : Nat} {rs : List (Nat × List Word)} (hzz : Keeps zz s) :
    Keeps zz (State.restoreRegions s g n rs) := by
  unfold State.restoreRegions
  (try dsimp only)
  repeat' (first
    | with_reducible assumption
    | (intro _; (try dsimp only))
    | with_reducible apply putEng_keeps
    | with_reducible apply Keeps.foldl
    | (split <;> try dsimp only))

theorem gatherIn_keeps {zz : State} {s : State} {g : GImage} {l : Nat} (hzz : Keeps zz s) :
    Keeps zz (State.gatherIn s g l) := by
  unfold State.gatherIn
  (try dsimp only)
  repeat' (first
    | with_reducible assumption
    | (intro _; (try dsimp only))
    | with_reducible apply deliverPoison_keeps
    | with_reducible apply modLe_keeps
    | with_reducible apply Keeps.foldl)

theorem setRings_keeps {zz : State} {s : State} {rs : List GRing} (hzz : Keeps zz s) :
    Keeps zz (State.setRings s rs) := by
  unfold State.setRings
  (try dsimp only)
  repeat' (first
    | with_reducible assumption
    | (intro _; (try dsimp only))
    | with_reducible apply setReg_keeps
    | with_reducible apply wr_keeps
    | with_reducible apply Keeps.foldl
    | with_reducible fail_if_no_progress refine Keeps.upd ?_ rfl rfl rfl rfl rfl rfl)

theorem dropRings_keeps {zz : State} {s : State} {rs : List GRing} (hzz : Keeps zz s) :
    Keeps zz (State.dropRings s rs) := by
  unfold State.dropRings
  (try dsimp only)
  repeat' (first
    | with_reducible assumption
    | (intro _; (try dsimp only))
    | with_reducible apply setReg_keeps
    | with_reducible apply wr_keeps
    | with_reducible apply Keeps.foldl
    | with_reducible fail_if_no_progress refine Keeps.upd ?_ rfl rfl rfl rfl rfl rfl)

theorem modLeap_keeps {zz : State} {s : State} {c : Nat} {f : LeapCh → LeapCh} (hzz : Keeps zz s) :
    Keeps zz (State.modLeap s c f) := by
  unfold State.modLeap
  (try dsimp only)
  repeat' (first
    | with_reducible assumption
    | with_reducible fail_if_no_progress refine Keeps.upd ?_ rfl rfl rfl rfl rfl rfl)

theorem showAhead_keeps {zz : State} {s : State} {c : Nat} (hzz : Keeps zz s) :
    Keeps zz (State.showAhead s c) := by
  unfold State.showAhead
  (try dsimp only)
  repeat' (first
    | with_reducible assumption
    | with_reducible apply wr_keeps)

theorem commitTo_keeps {zz : State} {s : State} {c i : Nat} (hzz : Keeps zz s) :
    Keeps zz (State.commitTo s c i) := by
  unfold State.commitTo
  (try dsimp only)
  repeat' (first
    | with_reducible assumption
    | with_reducible apply wr64_keeps
    | with_reducible apply modLeap_keeps
    | with_reducible apply showAhead_keeps
    | with_reducible apply Keeps.ite)

theorem writeLeap_keeps {zz : State} {s : State} {c i : Nat} {smps : List Sample} (hzz : Keeps zz s) :
    Keeps zz (State.writeLeap s c i smps) := by
  unfold State.writeLeap
  (try dsimp only)
  repeat' (first
    | with_reducible assumption
    | with_reducible apply modLeap_keeps)

theorem retract_keeps {zz : State} {s : State} {c : Nat} (hzz : Keeps zz s) :
    Keeps zz (State.retract s c) := by
  unfold State.retract
  (try dsimp only)
  repeat' (first
    | with_reducible assumption
    | with_reducible apply set1_keeps
    | with_reducible apply sat_keeps
    | with_reducible apply modLeap_keeps)

theorem commitLe_keeps {zz : State} {s : State} {g : GImage} {l : Nat} (hzz : Keeps zz s) :
    Keeps zz (State.commitLe s g l) := by
  unfold State.commitLe
  (try dsimp only)
  repeat' (first
    | with_reducible assumption
    | (intro _; (try dsimp only))
    | with_reducible apply commitTo_keeps
    | with_reducible apply Keeps.foldl
    | with_reducible apply Keeps.ite
    | (split <;> try dsimp only))

theorem commitAll_keeps {zz : State} {s : State} {g : GImage} (hzz : Keeps zz s) :
    Keeps zz (State.commitAll s g) := by
  unfold State.commitAll
  (try dsimp only)
  repeat' (first
    | with_reducible assumption
    | (intro _; (try dsimp only))
    | with_reducible apply commitLe_keeps
    | with_reducible apply Keeps.forEach)

theorem applyParams_keeps {zz : State} {s : State} {g : GImage} {l k : Nat} (hzz : Keeps zz s) :
    Keeps zz (State.applyParams s g l k) := by
  unfold State.applyParams
  (try dsimp only)
  repeat' (first
    | with_reducible assumption
    | (intro _; (try dsimp only))
    | with_reducible apply putEng_keeps
    | with_reducible apply Keeps.foldl
    | with_reducible apply Keeps.ite
    | (split <;> try dsimp only)
    | with_reducible fail_if_no_progress refine Keeps.upd ?_ rfl rfl rfl rfl rfl rfl)

theorem beginBlock_keeps {zz : State} {s : State} {g : GImage} {l : Nat} (hzz : Keeps zz s) :
    Keeps zz (State.beginBlock s g l) := by
  unfold State.beginBlock
  (try dsimp only)
  repeat' (first
    | with_reducible assumption
    | with_reducible apply modLe_keeps
    | with_reducible apply gatherIn_keeps
    | with_reducible apply applyParams_keeps)

end Sys2Proof.Machine
end

