-- ==== Sys2Proof/Laws/KeepsEngines.lean ====
section
/-!
SUPPORT. What the operations of Machine/Engines.lean keep (Laws/Keeps.lean).
-/

set_option linter.unusedTactic false
set_option linter.unreachableTactic false
set_option linter.unusedVariables false

namespace Sys2Proof.Machine

theorem writeRing_keeps {zz : State} {s : State} {g : GImage} {q : GRing} {k first n : Nat} {smps : List Sample} (hzz : Keeps zz s) :
    Keeps zz (State.writeRing s g q k first n smps) := by
  unfold State.writeRing
  (try dsimp only)
  repeat' (first
    | with_reducible assumption
    | (intro _; (try dsimp only))
    | with_reducible apply wr_keeps
    | with_reducible apply setByte_keeps
    | with_reducible apply setWord_keeps
    | with_reducible apply Keeps.foldl)

theorem writePorts_keeps {zz : State} {s : State} {g : GImage} {t : GTask} {k : Nat} {out : BlockOut} (hzz : Keeps zz s) :
    Keeps zz (State.writePorts s g t k out) := by
  unfold State.writePorts
  (try dsimp only)
  repeat' (first
    | with_reducible assumption
    | (intro _; (try dsimp only))
    | with_reducible apply writeLeap_keeps
    | with_reducible apply writeRing_keeps
    | with_reducible apply Keeps.foldl
    | with_reducible apply Keeps.ite
    | (split <;> try dsimp only))

theorem writeBlock_keeps {zz : State} {s : State} {g : GImage} {l k : Nat} {out : BlockOut} (hzz : Keeps zz s) :
    Keeps zz (State.writeBlock s g l k out) := by
  unfold State.writeBlock
  (try dsimp only)
  repeat' (first
    | with_reducible assumption
    | (intro _; (try dsimp only))
    | with_reducible apply writePorts_keeps
    | with_reducible apply Keeps.foldl
    | with_reducible apply Keeps.ite
    | (split <;> try dsimp only))

theorem raiseEngineRepair_keeps {zz : State} {s : State} {kind failed spare l shed chans first : Nat} (hzz : Keeps zz s) :
    Keeps zz (State.raiseEngineRepair s kind failed spare l shed chans first) := by
  unfold State.raiseEngineRepair
  (try dsimp only)
  repeat' (first
    | with_reducible assumption
    | with_reducible apply raise_keeps)

theorem repairDone_keeps {zz : State} {s : State} {r : Recovery} (hzz : Keeps zz s) :
    Keeps zz (State.repairDone s r) := by
  unfold State.repairDone
  (try dsimp only)
  repeat' (first
    | with_reducible assumption
    | with_reducible apply repaired_keeps
    | with_reducible apply raiseEngineRepair_keeps)

theorem completeRecs_keeps {zz : State} {s : State} {g : GImage} (hzz : Keeps zz s) :
    Keeps zz (State.completeRecs s g) := by
  unfold State.completeRecs
  (try dsimp only)
  repeat' (first
    | with_reducible assumption
    | (intro _; (try dsimp only))
    | with_reducible apply modGraph_keeps
    | with_reducible apply repairDone_keeps
    | with_reducible apply Keeps.foldl)

theorem moltDone_keeps {zz : State} {s : State} (hzz : Keeps zz s) :
    Keeps zz (State.moltDone s) := by
  unfold State.moltDone
  (try dsimp only)
  repeat' (first
    | with_reducible assumption
    | with_reducible apply finishFor_keeps
    | with_reducible apply modGraph_keeps
    | with_reducible apply Keeps.ite)

theorem showBlock_keeps {zz : State} {s : State} {l k : Nat} {out : BlockOut} (hzz : Keeps zz s) :
    Keeps zz (State.showBlock s l k out) := by
  unfold State.showBlock
  (try dsimp only)
  repeat' (first
    | with_reducible assumption
    | with_reducible apply wr_keeps
    | with_reducible apply set1_keeps
    | with_reducible apply sat_keeps
    | with_reducible apply wr64_keeps
    | with_reducible apply Keeps.ite
    | (split <;> try dsimp only)
    | with_reducible fail_if_no_progress refine Keeps.upd ?_ rfl rfl rfl rfl rfl rfl)

theorem settleRole_keeps {zz : State} {s : State} {g : GImage} {l k : Nat} (hzz : Keeps zz s) :
    Keeps zz (State.settleRole s g l k) := by
  unfold State.settleRole
  (try dsimp only)
  repeat' (first
    | with_reducible assumption
    | with_reducible apply setRole_keeps
    | with_reducible apply modLe_keeps
    | with_reducible apply Keeps.ite)

theorem endBlock_keeps {zz : State} {s : State} {g : GImage} {l : Nat} {out : BlockOut} (hzz : Keeps zz s) :
    Keeps zz (State.endBlock s g l out) := by
  unfold State.endBlock
  (try dsimp only)
  repeat' (first
    | with_reducible assumption
    | (intro _; (try dsimp only))
    | with_reducible apply clr_keeps
    | with_reducible apply modLe_keeps
    | with_reducible apply modGraph_keeps
    | with_reducible apply commitLe_keeps
    | with_reducible apply writeBlock_keeps
    | with_reducible apply completeRecs_keeps
    | with_reducible apply moltDone_keeps
    | with_reducible apply settleRole_keeps
    | with_reducible apply Keeps.foldl)

theorem tryBegin_keeps {zz : State} {s : State} {g : GImage} {l : Nat} (hzz : Keeps zz s) :
    Keeps zz (State.tryBegin s g l) := by
  unfold State.tryBegin
  (try dsimp only)
  repeat' (first
    | with_reducible assumption
    | with_reducible apply gatherIn_keeps
    | with_reducible apply beginBlock_keeps
    | with_reducible apply endBlock_keeps
    | with_reducible apply Keeps.ite)

theorem startReady_keeps {zz : State} {s : State} {g : GImage} (hzz : Keeps zz s) :
    Keeps zz (State.startReady s g) := by
  unfold State.startReady
  (try dsimp only)
  repeat' (first
    | with_reducible assumption
    | (intro _; (try dsimp only))
    | with_reducible apply tryBegin_keeps
    | with_reducible apply Keeps.forEach)

theorem shedTasks_keeps {zz : State} {s : State} {g : GImage} {ts : List GTask} (hzz : Keeps zz s) :
    Keeps zz (State.shedTasks s g ts) := by
  unfold State.shedTasks
  (try dsimp only)
  repeat' (first
    | with_reducible assumption
    | (intro _; (try dsimp only))
    | with_reducible apply modGraph_keeps
    | with_reducible apply modLeap_keeps
    | with_reducible apply Keeps.foldl)

theorem shedOne_keeps {zz : State} {s : State} {g : GImage} {l n code : Nat} {t : Option GTask} (hzz : Keeps zz s) :
    Keeps zz (State.shedOne s g l n code t) := by
  unfold State.shedOne
  (try dsimp only)
  repeat' (first
    | with_reducible assumption
    | with_reducible apply ends_keeps
    | with_reducible apply repaired_keeps
    | with_reducible apply passUp_keeps
    | with_reducible apply raiseEngineRepair_keeps
    | with_reducible apply shedTasks_keeps
    | with_reducible apply Keeps.ite
    | (split <;> try dsimp only))

theorem toSelfTest_keeps {zz : State} {s : State} {n : Nat} (hzz : Keeps zz s) :
    Keeps zz (State.toSelfTest s n) := by
  unfold State.toSelfTest
  (try dsimp only)
  repeat' (first
    | with_reducible assumption
    | with_reducible apply setRole_keeps
    | with_reducible apply respare_keeps
    | with_reducible fail_if_no_progress refine Keeps.upd ?_ rfl rfl rfl rfl rfl rfl)

theorem rollBack_keeps {zz : State} {s : State} {g : GImage} {l : Nat} (hzz : Keeps zz s) :
    Keeps zz (State.rollBack s g l) := by
  unfold State.rollBack
  (try dsimp only)
  repeat' (first
    | with_reducible assumption
    | (intro _; (try dsimp only))
    | with_reducible apply wr_keeps
    | with_reducible apply modLe_keeps
    | with_reducible apply retract_keeps
    | with_reducible apply Keeps.foldl
    | with_reducible apply Keeps.ite)

theorem bypassOnly_keeps {zz : State} {s : State} {g : GImage} {l : Nat} (hzz : Keeps zz s) :
    Keeps zz (State.bypassOnly s g l) := by
  unfold State.bypassOnly
  (try dsimp only)
  repeat' (first
    | with_reducible assumption
    | (intro _; (try dsimp only))
    | with_reducible apply clr_keeps
    | with_reducible apply modLe_keeps
    | with_reducible apply Keeps.foldl)

theorem tailDrop_keeps {zz : State} {s : State} {g : GImage} {l n code first restore kind chans : Nat} (hzz : Keeps zz s) :
    Keeps zz (State.tailDrop s g l n code first restore kind chans) := by
  unfold State.tailDrop
  (try dsimp only)
  repeat' (first
    | with_reducible assumption
    | (intro _; (try dsimp only))
    | with_reducible apply ends_keeps
    | with_reducible apply repaired_keeps
    | with_reducible apply passUp_keeps
    | with_reducible apply modLe_keeps
    | with_reducible apply modGraph_keeps
    | with_reducible apply raiseEngineRepair_keeps
    | with_reducible apply shedTasks_keeps
    | with_reducible apply bypassOnly_keeps
    | with_reducible apply Keeps.foldl
    | with_reducible apply Keeps.ite)

theorem assign_keeps {zz : State} {s : State} {l sp : Nat} {r : Nat} (hzz : Keeps zz s) :
    Keeps zz (State.assign s l sp r) := by
  unfold State.assign
  (try dsimp only)
  repeat' (first
    | with_reducible assumption
    | with_reducible apply setRole_keeps
    | with_reducible apply respare_keeps
    | with_reducible apply modLe_keeps)

theorem regrowOn_keeps {zz : State} {s : State} {g : GImage} {l n code : Nat} {first restore kind chans : Nat} {q0 : Option Nat} (hzz : Keeps zz s) :
    Keeps zz (State.regrowOn s g l n code first restore kind chans q0) := by
  unfold State.regrowOn
  (try dsimp only)
  repeat' (first
    | with_reducible assumption
    | with_reducible apply modGraph_keeps
    | with_reducible apply tailDrop_keeps
    | with_reducible apply assign_keeps
    | (split <;> try dsimp only))

theorem failRunning_keeps {zz : State} {s : State} {g : GImage} {l n code : Nat} (hzz : Keeps zz s) :
    Keeps zz (State.failRunning s g l n code) := by
  unfold State.failRunning
  (try dsimp only)
  repeat' (first
    | with_reducible assumption
    | (intro _; (try dsimp only))
    | with_reducible apply modLe_keeps
    | with_reducible apply toSelfTest_keeps
    | with_reducible apply rollBack_keeps
    | with_reducible apply regrowOn_keeps
    | with_reducible apply Keeps.foldl)

theorem placeOn_keeps {zz : State} {s : State} {g : GImage} {l n code : Nat} {q0 : Option Nat} (hzz : Keeps zz s) :
    Keeps zz (State.placeOn s g l n code q0) := by
  unfold State.placeOn
  (try dsimp only)
  repeat' (first
    | with_reducible assumption
    | with_reducible apply ends_keeps
    | with_reducible apply repaired_keeps
    | with_reducible apply modGraph_keeps
    | with_reducible apply loadImem_keeps
    | with_reducible apply loadData_keeps
    | with_reducible apply assign_keeps
    | (split <;> try dsimp only))

theorem failPlaced_keeps {zz : State} {s : State} {g : GImage} {l n code : Nat} (hzz : Keeps zz s) :
    Keeps zz (State.failPlaced s g l n code) := by
  unfold State.failPlaced
  (try dsimp only)
  repeat' (first
    | with_reducible assumption
    | with_reducible apply modLe_keeps
    | with_reducible apply toSelfTest_keeps
    | with_reducible apply placeOn_keeps)

theorem countEngine_keeps {zz : State} {s : State} {n code : Nat} (hzz : Keeps zz s) :
    Keeps zz (State.countEngine s n code) := by
  unfold State.countEngine
  (try dsimp only)
  repeat' (first
    | with_reducible assumption
    | with_reducible apply set1_keeps
    | with_reducible apply sat_keeps
    | with_reducible apply Keeps.ite
    | with_reducible fail_if_no_progress refine Keeps.upd ?_ rfl rfl rfl rfl rfl rfl)

theorem serveEngine_keeps {zz : State} {s : State} {n code task : Nat} (hzz : Keeps zz s) :
    Keeps zz (State.serveEngine s n code task) := by
  unfold State.serveEngine
  (try dsimp only)
  repeat' (first
    | with_reducible assumption
    | with_reducible apply meets_keeps
    | with_reducible apply ends_keeps
    | with_reducible apply modLe_keeps
    | with_reducible apply shedOne_keeps
    | with_reducible apply failRunning_keeps
    | with_reducible apply failPlaced_keeps
    | with_reducible apply Keeps.ite
    | (split <;> try dsimp only))

theorem dspNextN_keeps {zz : State} : ∀ {n : Nat} {s : State}, Keeps zz s → Keeps zz (s.dspNextN n)
  | 0, _, h => h
  | _ + 1, s, h => by
    have hm : ∀ f : Work → Work, Keeps zz { s with saf := { s.saf with work := s.saf.work.map f } } :=
      fun f => Keeps.upd h rfl rfl rfl rfl rfl rfl
    unfold State.dspNextN
    split
    · exact h
    · split
      · exact h
      · exact dspNextN_keeps (Keeps.ite (serveEngine_keeps (hm _)) (hm _))

theorem dspNext_keeps {zz : State} {s : State} (hzz : Keeps zz s) :
    Keeps zz (State.dspNext s) := by
  unfold State.dspNext
  (try dsimp only)
  repeat' (first
    | with_reducible assumption
    | with_reducible apply dspNextN_keeps)

theorem engineFails_keeps {zz : State} {s : State} {n code : Nat} {inj : Bool} {task : Nat} (hzz : Keeps zz s) :
    Keeps zz (State.engineFails s n code inj task) := by
  unfold State.engineFails
  (try dsimp only)
  repeat' (first
    | with_reducible assumption
    | with_reducible apply takesUp_keeps
    | with_reducible apply fault_keeps
    | with_reducible apply setRole_keeps
    | with_reducible apply toSelfTest_keeps
    | with_reducible apply countEngine_keeps
    | with_reducible apply serveEngine_keeps
    | with_reducible apply Keeps.ite
    | (split <;> try dsimp only))

theorem markLag_keeps {zz : State} {s : State} {g : GImage} {p : Nat} (hzz : Keeps zz s) :
    Keeps zz (State.markLag s g p) := by
  unfold State.markLag
  (try dsimp only)
  repeat' (first
    | with_reducible assumption
    | with_reducible apply modGraph_keeps)

theorem placeParams_keeps {zz : State} {s : State} {g : GImage} (hzz : Keeps zz s) :
    Keeps zz (State.placeParams s g) := by
  unfold State.placeParams
  (try dsimp only)
  repeat' (first
    | with_reducible assumption
    | with_reducible apply modGraph_keeps)

theorem paramsNow_keeps {zz : State} {s : State} {g : GImage} (hzz : Keeps zz s) :
    Keeps zz (State.paramsNow s g) := by
  unfold State.paramsNow
  (try dsimp only)
  repeat' (first
    | with_reducible assumption
    | (intro _; (try dsimp only))
    | with_reducible apply modGraph_keeps
    | with_reducible apply putEng_keeps
    | with_reducible apply Keeps.foldl
    | with_reducible apply Keeps.ite
    | (split <;> try dsimp only)
    | with_reducible fail_if_no_progress refine Keeps.upd ?_ rfl rfl rfl rfl rfl rfl)

theorem gather_keeps {zz : State} {s : State} {g : GImage} (hzz : Keeps zz s) :
    Keeps zz (State.gather s g) := by
  unfold State.gather
  (try dsimp only)
  repeat' (first
    | with_reducible assumption
    | (intro _; (try dsimp only))
    | with_reducible apply wr_keeps
    | with_reducible apply Keeps.foldl
    | with_reducible apply Keeps.ite
    | (split <;> try dsimp only))

theorem setTick_keeps {zz : State} {s : State} {p : Nat} (hzz : Keeps zz s) :
    Keeps zz (State.setTick s p) := by
  unfold State.setTick
  (try dsimp only)
  repeat' (first
    | with_reducible assumption
    | with_reducible apply wr64_keeps
    | with_reducible apply modGraph_keeps)

theorem tickRunning_keeps {zz : State} {s : State} {g : GImage} {p : Nat} (hzz : Keeps zz s) :
    Keeps zz (State.tickRunning s g p) := by
  unfold State.tickRunning
  (try dsimp only)
  repeat' (first
    | with_reducible assumption
    | (intro _; (try dsimp only))
    | with_reducible apply commitAll_keeps
    | with_reducible apply completeRecs_keeps
    | with_reducible apply startReady_keeps
    | with_reducible apply engineFails_keeps
    | with_reducible apply markLag_keeps
    | with_reducible apply placeParams_keeps
    | with_reducible apply gather_keeps
    | with_reducible apply setTick_keeps
    | with_reducible apply Keeps.foldl)

theorem beginGraph_keeps {zz : State} {s : State} {g : GImage} (hzz : Keeps zz s) :
    Keeps zz (State.beginGraph s g) := by
  unfold State.beginGraph
  (try dsimp only)
  repeat' (first
    | with_reducible assumption
    | (intro _; (try dsimp only))
    | with_reducible apply wr_keeps
    | with_reducible apply wr64_keeps
    | with_reducible apply finishFor_keeps
    | with_reducible apply begins_keeps
    | with_reducible apply setGstate_keeps
    | with_reducible apply modLe_keeps
    | with_reducible apply modGraph_keeps
    | with_reducible apply loadRegion_keeps
    | with_reducible apply modLeap_keeps
    | with_reducible apply showAhead_keeps
    | with_reducible apply tailDrop_keeps
    | with_reducible apply setTick_keeps
    | with_reducible apply Keeps.foldl
    | with_reducible apply Keeps.ite)

theorem showGraph_keeps {zz : State} {s : State} {g : GImage} {nra : Nat} (hzz : Keeps zz s) :
    Keeps zz (State.showGraph s g nra) := by
  unfold State.showGraph
  (try dsimp only)
  repeat' (first
    | with_reducible assumption
    | (intro _; (try dsimp only))
    | with_reducible apply setReg_keeps
    | with_reducible apply wr_keeps
    | with_reducible apply set1_keeps
    | with_reducible apply Keeps.foldl)

theorem place_keeps {zz : State} {s : State} {g : GImage} (hzz : Keeps zz s) :
    Keeps zz (State.place s g) := by
  unfold State.place
  (try dsimp only)
  repeat' (first
    | with_reducible assumption
    | (intro _; (try dsimp only))
    | with_reducible apply setRole_keeps
    | with_reducible apply respare_keeps
    | with_reducible apply modGraph_keeps
    | with_reducible apply Keeps.foldl
    | with_reducible apply Keeps.ite)

theorem swap_keeps {zz : State} {s : State} {old g : GImage} {p : Nat} (hzz : Keeps zz s) :
    Keeps zz (State.swap s old g p) := by
  unfold State.swap
  (try dsimp only)
  repeat' (first
    | with_reducible assumption
    | (intro _; (try dsimp only))
    | with_reducible apply wr_keeps
    | with_reducible apply ends_keeps
    | with_reducible apply setGstate_keeps
    | with_reducible apply setRole_keeps
    | with_reducible apply modGraph_keeps
    | with_reducible apply setRings_keeps
    | with_reducible apply dropRings_keeps
    | with_reducible apply modLeap_keeps
    | with_reducible apply retract_keeps
    | with_reducible apply commitAll_keeps
    | with_reducible apply setTick_keeps
    | with_reducible apply showGraph_keeps
    | with_reducible apply place_keeps
    | with_reducible apply Keeps.foldl)

theorem tickStreams_keeps {zz : State} {s : State} (hzz : Keeps zz s) :
    Keeps zz (State.tickStreams s) := by
  unfold State.tickStreams
  (try dsimp only)
  repeat' (first
    | with_reducible assumption
    | with_reducible fail_if_no_progress refine Keeps.upd ?_ rfl rfl rfl rfl rfl rfl)

theorem blockTick_keeps {zz : State} {s : State} (hzz : Keeps zz s) :
    Keeps zz (State.blockTick s) := by
  unfold State.blockTick
  (try dsimp only)
  repeat' (first
    | with_reducible assumption
    | with_reducible apply modGraph_keeps
    | with_reducible apply startReady_keeps
    | with_reducible apply paramsNow_keeps
    | with_reducible apply tickRunning_keeps
    | with_reducible apply beginGraph_keeps
    | with_reducible apply swap_keeps
    | with_reducible apply tickStreams_keeps
    | with_reducible apply Keeps.ite
    | (split <;> try dsimp only))

theorem execBlockTick_keeps {zz : State} {s : State} (hzz : Keeps zz s) :
    OutKeeps zz (execBlockTick s) := by
  unfold execBlockTick
  (try dsimp only)
  repeat' (first
    | with_reducible assumption
    | with_reducible apply blockTick_keeps
    | with_reducible apply outNext)

theorem execGraphMoltSwap_keeps {zz : State} {s : State} (hzz : Keeps zz s) :
    OutKeeps zz (execGraphMoltSwap s) := by
  unfold execGraphMoltSwap
  (try dsimp only)
  repeat' (first
    | with_reducible assumption
    | with_reducible apply blockTick_keeps
    | with_reducible apply outNext
    | with_reducible apply OutKeeps.ite)

theorem execCheckpointSeal_keeps {zz : State} {leng : Fin 8} {unreadable : Bool} {s : State} (hzz : Keeps zz s) :
    OutKeeps zz (execCheckpointSeal leng unreadable s) := by
  unfold execCheckpointSeal
  (try dsimp only)
  repeat' (first
    | with_reducible assumption
    | with_reducible apply modLe_keeps
    | with_reducible apply modGraph_keeps
    | with_reducible apply outNext
    | with_reducible apply OutKeeps.ite
    | (split <;> try dsimp only))

theorem atomic_keeps {zz : State} {s : State} {n a : Nat} {reg : Fin 32} {f : Word → Word} (hzz : Keeps zz s) :
    Keeps zz (State.atomic s n a reg f) := by
  unfold State.atomic
  (try dsimp only)
  repeat' (first
    | with_reducible assumption
    | with_reducible apply setWord_keeps
    | with_reducible apply deliverPoison_keeps
    | with_reducible apply Keeps.ite
    | with_reducible fail_if_no_progress refine Keeps.upd ?_ rfl rfl rfl rfl rfl rfl)

theorem doOp_keeps {zz : State} {s : State} {n d : Nat} {q0 : EngOp} (hzz : Keeps zz s) :
    Keeps zz (State.doOp s n d q0) := by
  unfold State.doOp
  (try dsimp only)
  repeat' (first
    | with_reducible assumption
    | with_reducible apply setWord_keeps
    | with_reducible apply deliverPoison_keeps
    | with_reducible apply setEngWord_keeps
    | with_reducible apply setEngTag_keeps
    | with_reducible apply atomic_keeps
    | with_reducible apply Keeps.ite
    | (split <;> try dsimp only))

theorem runOps_keeps {zz : State} {s : State} {g : GImage} {l : Nat} {ops : List (Nat × EngOp)} (hzz : Keeps zz s) :
    Keeps zz (State.runOps s g l ops) := by
  unfold State.runOps
  (try dsimp only)
  repeat' (first
    | with_reducible assumption
    | (intro _; (try dsimp only))
    | with_reducible apply engineFails_keeps
    | with_reducible apply doOp_keeps
    | with_reducible apply Keeps.foldl
    | with_reducible apply Keeps.ite)

theorem execEngineBlockEnd_keeps {zz : State} {leng : Fin 8} {out : BlockOut} {s : State} (hzz : Keeps zz s) :
    OutKeeps zz (execEngineBlockEnd leng out s) := by
  unfold execEngineBlockEnd
  (try dsimp only)
  repeat' (first
    | with_reducible assumption
    | with_reducible apply modLe_keeps
    | with_reducible apply showBlock_keeps
    | with_reducible apply endBlock_keeps
    | with_reducible apply startReady_keeps
    | with_reducible apply runOps_keeps
    | with_reducible apply outNext
    | with_reducible apply OutKeeps.ite
    | (split <;> try dsimp only))

theorem execLockstep_keeps {zz : State} {n : Fin 8} {s : State} (hzz : Keeps zz s) :
    OutKeeps zz (execLockstep n s) := by
  unfold execLockstep
  (try dsimp only)
  repeat' (first
    | with_reducible assumption
    | with_reducible apply engineFails_keeps
    | with_reducible apply outNext)

theorem execEngecc_keeps {zz : State} {err : EngineEcc} {s : State} (hzz : Keeps zz s) :
    OutKeeps zz (execEngecc err s) := by
  unfold execEngecc
  (try dsimp only)
  repeat' (first
    | with_reducible assumption
    | with_reducible apply set1_keeps
    | with_reducible apply sat_keeps
    | with_reducible apply engineFails_keeps
    | with_reducible apply outNext
    | with_reducible apply Keeps.ite
    | with_reducible apply OutKeeps.ite)

theorem execEngprog_keeps {zz : State} {n : Fin 8} {task : Fin 128} {s : State} (hzz : Keeps zz s) :
    OutKeeps zz (execEngprog n task s) := by
  unfold execEngprog
  (try dsimp only)
  repeat' (first
    | with_reducible assumption
    | with_reducible apply engineFails_keeps
    | with_reducible apply outNext)

theorem restoreInto_keeps {zz : State} {s : State} {g : GImage} {l n : Nat} (hzz : Keeps zz s) :
    Keeps zz (State.restoreInto s g l n) := by
  unfold State.restoreInto
  (try dsimp only)
  repeat' (first
    | with_reducible assumption
    | with_reducible apply modLe_keeps
    | with_reducible apply loadImem_keeps
    | with_reducible apply loadData_keeps
    | with_reducible apply openDmem_keeps
    | with_reducible apply restoreRegions_keeps
    | (split <;> try dsimp only))

theorem execSpareLoadDone_keeps {zz : State} {leng : Fin 8} {s : State} (hzz : Keeps zz s) :
    OutKeeps zz (execSpareLoadDone leng s) := by
  unfold execSpareLoadDone
  (try dsimp only)
  repeat' (first
    | with_reducible assumption
    | (intro _; (try dsimp only))
    | with_reducible apply setRole_keeps
    | with_reducible apply modLe_keeps
    | with_reducible apply startReady_keeps
    | with_reducible apply restoreInto_keeps
    | with_reducible apply Keeps.foldl
    | with_reducible apply outNext
    | with_reducible apply OutKeeps.ite
    | (split <;> try dsimp only))

theorem execEngineSelftestDone_keeps {zz : State} {n : Fin 8} {persists : Bool} {s : State} (hzz : Keeps zz s) :
    OutKeeps zz (execEngineSelftestDone n persists s) := by
  unfold execEngineSelftestDone
  (try dsimp only)
  repeat' (first
    | with_reducible assumption
    | with_reducible apply sat_keeps
    | with_reducible apply setRole_keeps
    | with_reducible apply respare_keeps
    | with_reducible apply outNext
    | with_reducible apply OutKeeps.ite)

end Sys2Proof.Machine
end

