-- ==== Sys2Proof/Laws/KeepsBanks.lean ====
section
/-!
SUPPORT. What the operations of Machine/Banks.lean keep (Laws/Keeps.lean).
-/

set_option linter.unusedTactic false
set_option linter.unreachableTactic false
set_option linter.unusedVariables false

namespace Sys2Proof.Machine

theorem execScrubRead_keeps {zz : State} {bank : Fin 16} {row : Fin 512} {col : Fin 64} {res : ScrubResult} {s : State} (hzz : Keeps zz s) :
    OutKeeps zz (execScrubRead bank row col res s) := by
  unfold execScrubRead
  (try dsimp only)
  repeat' (first
    | with_reducible assumption
    | with_reducible apply set1_keeps
    | with_reducible apply bankCor_keeps
    | with_reducible apply bankUnc_keeps
    | with_reducible apply outNext
    | with_reducible apply Keeps.ite
    | with_reducible apply OutKeeps.ite
    | (split <;> try dsimp only))

theorem copyMet_keeps {zz : State} {s : State} {b row : Nat} {met : List CopyErr} (hzz : Keeps zz s) :
    Keeps zz (State.copyMet s b row met) := by
  unfold State.copyMet
  (try dsimp only)
  repeat' (first
    | with_reducible assumption
    | (intro _; (try dsimp only))
    | with_reducible apply bankCor_keeps
    | with_reducible apply bankUnc_keeps
    | with_reducible apply Keeps.foldl
    | (split <;> try dsimp only))

theorem execRowReplaceDone_keeps {zz : State} {copy : RowCopied} {s : State} (hzz : Keeps zz s) :
    OutKeeps zz (execRowReplaceDone copy s) := by
  unfold execRowReplaceDone
  (try dsimp only)
  repeat' (first
    | with_reducible assumption
    | with_reducible apply repaired_keeps
    | with_reducible apply faultGone_keeps
    | with_reducible apply raiseBankRepair_keeps
    | with_reducible apply useSpare_keeps
    | with_reducible apply dspNext_keeps
    | with_reducible apply copyMet_keeps
    | with_reducible apply outNext
    | with_reducible apply OutKeeps.ite
    | (split <;> try dsimp only)
    | with_reducible fail_if_no_progress refine Keeps.upd ?_ rfl rfl rfl rfl rfl rfl)

theorem loseBank_keeps {zz s : State} {b : Nat} (k : Keeps zz s) : Keeps zz (s.loseBank b) :=
  k.trans ⟨Sparse.wf_filter _, id, id, id, id, id, id, id, fun _ _ h => h, rfl⟩

theorem execBankRetire_keeps {zz : State} {bank : Fin 16} {s : State} (hzz : Keeps zz s) :
    OutKeeps zz (execBankRetire bank s) := by
  unfold execBankRetire
  (try dsimp only)
  repeat' (first
    | with_reducible assumption
    | with_reducible apply wr_keeps
    | with_reducible apply clr_keeps
    | with_reducible apply repCount_keeps
    | with_reducible apply showFn_keeps
    | with_reducible apply raiseBankRepair_keeps
    | with_reducible apply dspNext_keeps
    | with_reducible apply loseBank_keeps
    | with_reducible apply outNext
    | with_reducible apply OutKeeps.ite
    | with_reducible fail_if_no_progress refine Keeps.updI ?_ id id id id (le_map _) (fun _ _ h => h))

theorem marchEnd_keeps {zz : State} {s : State} (hzz : Keeps zz s) :
    Keeps zz (State.marchEnd s) := by
  unfold State.marchEnd
  (try dsimp only)
  repeat' (first
    | with_reducible assumption
    | with_reducible apply clr_keeps
    | with_reducible apply finishFor_keeps
    | with_reducible fail_if_no_progress refine Keeps.upd ?_ rfl rfl rfl rfl rfl rfl)

theorem marchNext_keeps {zz : State} {s : State} {left : Nat} (hzz : Keeps zz s) :
    Keeps zz (State.marchNext s left) := by
  unfold State.marchNext
  (try dsimp only)
  repeat' (first
    | with_reducible assumption
    | with_reducible apply wr_keeps
    | with_reducible apply marchEnd_keeps
    | with_reducible apply Keeps.ite
    | with_reducible fail_if_no_progress refine Keeps.upd ?_ rfl rfl rfl rfl rfl rfl)

theorem marchReplace_keeps {zz : State} {s : State} {b cause row col bit : Nat} {unc : Bool} (hzz : Keeps zz s) :
    Keeps zz (State.marchReplace s b cause row col bit unc) := by
  unfold State.marchReplace
  (try dsimp only)
  repeat' (first
    | with_reducible assumption
    | with_reducible apply sat_keeps
    | with_reducible apply repaired_keeps
    | with_reducible apply faultGone_keeps
    | with_reducible apply raiseBankRepair_keeps
    | with_reducible apply useSpare_keeps
    | with_reducible apply retpend_keeps
    | with_reducible apply dspNext_keeps
    | with_reducible apply Keeps.ite)

theorem marchFound_keeps {zz : State} {s : State} {b row : Nat} {failure : Option (Fin 64 × Fin 64)} (hzz : Keeps zz s) :
    Keeps zz (State.marchFound s b row failure) := by
  unfold State.marchFound
  (try dsimp only)
  repeat' (first
    | with_reducible assumption
    | with_reducible apply set1_keeps
    | with_reducible apply marchReplace_keeps
    | (split <;> try dsimp only)
    | with_reducible fail_if_no_progress refine Keeps.upd ?_ rfl rfl rfl rfl rfl rfl)

theorem marchRelease_keeps {zz : State} {s : State} {b : Nat} {failure : Option (Fin 64 × Fin 64)} (hzz : Keeps zz s) :
    Keeps zz (State.marchRelease s b failure) := by
  unfold State.marchRelease
  (try dsimp only)
  repeat' (first
    | with_reducible assumption
    | with_reducible apply clr_keeps
    | with_reducible apply marchFound_keeps
    | with_reducible apply Keeps.ite)

theorem marchRunBody_keeps {zz : State} {abort : Bool} {ws : List Word} {s : State} (hzz : Keeps zz s) :
    ResKeeps zz (marchRunBody abort ws s) := by
  unfold marchRunBody
  (try dsimp only)
  repeat' (first
    | with_reducible assumption
    | with_reducible apply wr_keeps
    | with_reducible apply set1_keeps
    | with_reducible apply clr_keeps
    | with_reducible apply Res.ok_keeps
    | with_reducible exact bad_keeps
    | with_reducible apply unlessBusy_keeps
    | with_reducible apply marchEnd_keeps
    | with_reducible apply marchNext_keeps
    | with_reducible apply marchRelease_keeps
    | with_reducible apply resPend
    | with_reducible apply ResKeeps.ite
    | with_reducible fail_if_no_progress refine Keeps.upd ?_ rfl rfl rfl rfl rfl rfl)

theorem execMarchRun_keeps {zz : State} {p : Packet} {s : State} (hzz : Keeps zz s) :
    OutKeeps zz (execMarchRun p s) := by
  unfold execMarchRun
  (try dsimp only)
  repeat' (first
    | with_reducible assumption
    | (intro _; (try dsimp only))
    | with_reducible apply card_keeps
    | with_reducible apply marchRunBody_keeps)

theorem execMarchRunAbort_keeps {zz : State} {p : Packet} {s : State} (hzz : Keeps zz s) :
    OutKeeps zz (execMarchRunAbort p s) := by
  unfold execMarchRunAbort
  (try dsimp only)
  repeat' (first
    | with_reducible assumption
    | (intro _; (try dsimp only))
    | with_reducible apply card_keeps
    | with_reducible apply marchRunBody_keeps)

theorem marchSkip_keeps {zz : State} {s : State} (hzz : Keeps zz s) :
    Keeps zz (State.marchSkip s) := by
  unfold State.marchSkip
  (try dsimp only)
  repeat' (first
    | with_reducible assumption
    | with_reducible apply set1_keeps
    | with_reducible apply marchNext_keeps)

theorem marchLeaves_keeps {zz : State} {s : State} {b : Nat} (hzz : Keeps zz s) :
    Keeps zz (State.marchLeaves s b) := by
  unfold State.marchLeaves
  (try dsimp only)
  repeat' (first
    | with_reducible assumption
    | with_reducible apply marchRelease_keeps
    | with_reducible apply marchSkip_keeps
    | with_reducible apply Keeps.ite)

theorem execMarchRowStart_keeps {zz : State} {met : List CopyErr} {s : State} (hzz : Keeps zz s) :
    OutKeeps zz (execMarchRowStart met s) := by
  unfold execMarchRowStart
  (try dsimp only)
  repeat' (first
    | with_reducible assumption
    | with_reducible apply wr_keeps
    | with_reducible apply set1_keeps
    | with_reducible apply copyMet_keeps
    | with_reducible apply marchSkip_keeps
    | with_reducible apply outNext
    | with_reducible apply OutKeeps.ite)

theorem execMarchRowRelease_keeps {zz : State} {failure : Option (Fin 64 × Fin 64)} {s : State} (hzz : Keeps zz s) :
    OutKeeps zz (execMarchRowRelease failure s) := by
  unfold execMarchRowRelease
  (try dsimp only)
  repeat' (first
    | with_reducible assumption
    | with_reducible apply wr_keeps
    | with_reducible apply marchNext_keeps
    | with_reducible apply marchRelease_keeps
    | with_reducible apply outNext
    | with_reducible apply Keeps.ite
    | with_reducible apply OutKeeps.ite)

end Sys2Proof.Machine
end

