-- ==== Sys2Proof/Laws/KeepsGraph.lean ====
section
/-!
SUPPORT. What the operations of Machine/Graph.lean keep (Laws/Keeps.lean).
-/

set_option linter.unusedTactic false
set_option linter.unreachableTactic false
set_option linter.unusedVariables false

namespace Sys2Proof.Machine

theorem checkGraph_keeps {zz : State} {s : State} {ofs len nra : Nat} {run : Option GImage} {k : GImage → Nat → List Word → Res} (hk : ∀ (q0 : GImage) (q1 : Nat) (q2 : List Word), ResKeeps zz (k q0 q1 q2)) (hzz : Keeps zz s) :
    ResKeeps zz (State.checkGraph s ofs len nra run k) := by
  unfold State.checkGraph
  (try dsimp only)
  repeat' (first
    | with_reducible assumption
    | (intro _; (try dsimp only))
    | with_reducible apply hk
    | with_reducible exact bad_keeps
    | with_reducible apply authFailed_keeps
    | with_reducible apply deliverPoison_keeps
    | with_reducible apply Keeps.foldl
    | with_reducible apply resDone
    | with_reducible apply resRefuse
    | with_reducible apply ResKeeps.ite)

theorem execGraphLoad_keeps {zz : State} {p : Packet} {s : State} (hzz : Keeps zz s) :
    OutKeeps zz (execGraphLoad p s) := by
  unfold execGraphLoad
  (try dsimp only)
  repeat' (first
    | with_reducible assumption
    | (intro _; (try dsimp only))
    | with_reducible apply unlessBusy_keeps
    | with_reducible apply withDomains_keeps
    | with_reducible apply card_keeps
    | with_reducible apply modGraph_keeps
    | with_reducible apply place_keeps
    | with_reducible apply checkGraph_keeps
    | with_reducible apply resPend
    | with_reducible apply resRefuse
    | with_reducible apply ResKeeps.ite)

theorem execGraphLoadDone_keeps {zz : State} {s : State} (hzz : Keeps zz s) :
    OutKeeps zz (execGraphLoadDone s) := by
  unfold execGraphLoadDone
  (try dsimp only)
  repeat' (first
    | with_reducible assumption
    | (intro _; (try dsimp only))
    | with_reducible apply finishFor_keeps
    | with_reducible apply setGstate_keeps
    | with_reducible apply modGraph_keeps
    | with_reducible apply loadImem_keeps
    | with_reducible apply loadData_keeps
    | with_reducible apply setRings_keeps
    | with_reducible apply showGraph_keeps
    | with_reducible apply Keeps.forEach
    | with_reducible apply outNext
    | (split <;> try dsimp only))

theorem execGraphMolt_keeps {zz : State} {p : Packet} {s : State} (hzz : Keeps zz s) :
    OutKeeps zz (execGraphMolt p s) := by
  unfold execGraphMolt
  (try dsimp only)
  repeat' (first
    | with_reducible assumption
    | (intro _; (try dsimp only))
    | with_reducible exact bad_keeps
    | with_reducible apply unlessBusy_keeps
    | with_reducible apply withDomains_keeps
    | with_reducible apply card_keeps
    | with_reducible apply setGstate_keeps
    | with_reducible apply modGraph_keeps
    | with_reducible apply checkGraph_keeps
    | with_reducible apply resPend
    | with_reducible apply resRefuse
    | with_reducible apply ResKeeps.ite
    | (split <;> try dsimp only))

theorem execGraphStart_keeps {zz : State} {p : Packet} {s : State} (hzz : Keeps zz s) :
    OutKeeps zz (execGraphStart p s) := by
  unfold execGraphStart
  (try dsimp only)
  repeat' (first
    | with_reducible assumption
    | (intro _; (try dsimp only))
    | with_reducible apply Res.ok_keeps
    | with_reducible apply unlessBusy_keeps
    | with_reducible apply card_keeps
    | with_reducible apply setGstate_keeps
    | with_reducible apply modGraph_keeps
    | with_reducible apply resPend
    | with_reducible apply resRefuse
    | with_reducible apply ResKeeps.ite)

theorem unloadGraph_keeps {zz : State} {s : State} (hzz : Keeps zz s) :
    Keeps zz (State.unloadGraph s) := by
  unfold State.unloadGraph
  (try dsimp only)
  repeat' (first
    | with_reducible assumption
    | (intro _; (try dsimp only))
    | with_reducible apply setReg_keeps
    | with_reducible apply wr64_keeps
    | with_reducible apply respare_keeps
    | with_reducible apply modGraph_keeps
    | with_reducible apply dropRings_keeps
    | with_reducible apply modLeap_keeps
    | with_reducible apply Keeps.foldl
    | (split <;> try dsimp only))

theorem stopRunning_keeps {zz : State} {s : State} {unload rearm : Bool} (hzz : Keeps zz s) :
    Keeps zz (State.stopRunning s unload rearm) := by
  unfold State.stopRunning
  (try dsimp only)
  repeat' (first
    | with_reducible assumption
    | (intro _; (try dsimp only))
    | with_reducible apply clr_keeps
    | with_reducible apply ends_keeps
    | with_reducible apply setGstate_keeps
    | with_reducible apply modGraph_keeps
    | with_reducible apply modLeap_keeps
    | with_reducible apply Keeps.foldl
    | (split <;> try dsimp only))

theorem commitLost_keeps {zz : State} {s : State} (hzz : Keeps zz s) :
    Keeps zz (State.commitLost s) := by
  unfold State.commitLost
  (try dsimp only)
  repeat' (first
    | with_reducible assumption
    | with_reducible apply setGstate_keeps
    | with_reducible apply modGraph_keeps
    | with_reducible apply stopRunning_keeps
    | with_reducible apply Keeps.ite)

theorem execGraphStop_keeps {zz : State} {p : Packet} {s : State} (hzz : Keeps zz s) :
    OutKeeps zz (execGraphStop p s) := by
  unfold execGraphStop
  (try dsimp only)
  repeat' (first
    | with_reducible assumption
    | (intro _; (try dsimp only))
    | with_reducible apply Res.ok_keeps
    | with_reducible apply unlessBusy_keeps
    | with_reducible apply card_keeps
    | with_reducible apply setGstate_keeps
    | with_reducible apply modGraph_keeps
    | with_reducible apply unloadGraph_keeps
    | with_reducible apply stopRunning_keeps
    | with_reducible apply resPend
    | with_reducible apply resRefuse
    | with_reducible apply ResKeeps.ite)

theorem stopComplete_keeps {zz : State} {s : State} (hzz : Keeps zz s) :
    Keeps zz (State.stopComplete s) := by
  unfold State.stopComplete
  (try dsimp only)
  repeat' (first
    | with_reducible assumption
    | with_reducible apply finishFor_keeps
    | with_reducible apply setGstate_keeps
    | with_reducible apply modGraph_keeps
    | with_reducible apply unloadGraph_keeps
    | with_reducible apply Keeps.ite)

theorem execGraphStopDone_keeps {zz : State} {s : State} (hzz : Keeps zz s) :
    OutKeeps zz (execGraphStopDone s) := by
  unfold execGraphStopDone
  (try dsimp only)
  repeat' (first
    | with_reducible assumption
    | with_reducible apply stopComplete_keeps
    | with_reducible apply outNext
    | with_reducible apply OutKeeps.ite
    | (split <;> try dsimp only))

theorem enforce_keeps : ∀ {zz s : State} {g : GImage} {r : GRegion} {ofs : Nat} {ws : List Word}, Keeps zz s →
    Keeps zz (s.enforce g r ofs ws)
  | _, _, _, _, _, [], h => h
  | _, _, _, _, _, _ :: _, h => by unfold State.enforce; exact enforce_keeps (modGraph_keeps h)

theorem execGraphParam_keeps {zz : State} {p : Packet} {s : State} (hzz : Keeps zz s) :
    OutKeeps zz (execGraphParam p s) := by
  unfold execGraphParam
  (try dsimp only)
  repeat' (first
    | with_reducible assumption
    | (intro _; (try dsimp only))
    | with_reducible apply Res.ok_keeps
    | with_reducible exact bad_keeps
    | with_reducible apply card_keeps
    | with_reducible apply modGraph_keeps
    | with_reducible apply enforce_keeps
    | with_reducible apply ResKeeps.ite
    | (split <;> try dsimp only))

theorem execSpareReserve_keeps {zz : State} {p : Packet} {s : State} (hzz : Keeps zz s) :
    OutKeeps zz (execSpareReserve p s) := by
  unfold execSpareReserve
  (try dsimp only)
  repeat' (first
    | with_reducible assumption
    | (intro _; (try dsimp only))
    | with_reducible apply wr_keeps
    | with_reducible apply Res.clampedOk_keeps
    | with_reducible exact bad_keeps
    | with_reducible apply card_keeps
    | with_reducible apply respare_keeps
    | with_reducible apply resRefuse
    | with_reducible apply ResKeeps.ite)

theorem execEngineStatus_keeps {zz : State} {p : Packet} {s : State} (hzz : Keeps zz s) :
    OutKeeps zz (execEngineStatus p s) := by
  unfold execEngineStatus
  (try dsimp only)
  repeat' (first
    | with_reducible assumption
    | (intro _; (try dsimp only))
    | with_reducible apply setReg_keeps
    | with_reducible apply wr_keeps
    | with_reducible apply card_keeps
    | with_reducible apply resDone
    | with_reducible apply Keeps.ite)

end Sys2Proof.Machine
end

