-- ==== Sys2Proof/Laws/KeepsPorts.lean ====
section
/-!
SUPPORT. What the operations of Machine/Ports.lean keep (Laws/Keeps.lean).
-/

set_option linter.unusedTactic false
set_option linter.unreachableTactic false
set_option linter.unusedVariables false

namespace Sys2Proof.Machine

theorem writePort_keeps {zz : State} {s : State} {p : Nat} {fmt clk bus : Word} (hzz : Keeps zz s) :
    Keeps zz (State.writePort s p fmt clk bus) := by
  unfold State.writePort
  (try dsimp only)
  repeat' (first
    | with_reducible assumption
    | with_reducible apply putReg_keeps
    | (split <;> try dsimp only)
    | with_reducible fail_if_no_progress refine Keeps.upd ?_ rfl rfl rfl rfl rfl rfl)

theorem showBdiv_keeps {zz : State} {s : State} {p : Nat} (hzz : Keeps zz s) :
    Keeps zz (State.showBdiv s p) := by
  unfold State.showBdiv
  (try dsimp only)
  repeat' (first
    | with_reducible assumption
    | with_reducible apply wr_keeps)

theorem execPortCfg_keeps {zz : State} {p : Packet} {s : State} (hzz : Keeps zz s) :
    OutKeeps zz (execPortCfg p s) := by
  unfold execPortCfg
  (try dsimp only)
  repeat' (first
    | with_reducible assumption
    | (intro _; (try dsimp only))
    | with_reducible apply Res.ok_keeps
    | with_reducible exact bad_keeps
    | with_reducible apply unlessBusy_keeps
    | with_reducible apply withDomains_keeps
    | with_reducible apply card_keeps
    | with_reducible apply writePort_keeps
    | with_reducible apply resRefuse
    | with_reducible apply ResKeeps.ite)

theorem txBlock_keeps {zz : State} {s : State} (hzz : Keeps zz s) :
    Keeps zz (State.txBlock s) := by
  unfold State.txBlock
  (try dsimp only)
  repeat' (first
    | with_reducible assumption
    | with_reducible fail_if_no_progress refine Keeps.upd ?_ rfl rfl rfl rfl rfl rfl)

theorem rxBoundary_keeps {zz : State} {s : State} (hzz : Keeps zz s) :
    Keeps zz (State.rxBoundary s) := by
  unfold State.rxBoundary
  (try dsimp only)
  repeat' (first
    | with_reducible assumption
    | with_reducible fail_if_no_progress refine Keeps.upd ?_ rfl rfl rfl rfl rfl rfl)

theorem setPort_keeps {zz : State} {s : State} {p : Nat} {v : Bool} (hzz : Keeps zz s) :
    Keeps zz (State.setPort s p v) := by
  unfold State.setPort
  (try dsimp only)
  repeat' (first
    | with_reducible assumption
    | with_reducible apply wr_keeps
    | with_reducible apply clr_keeps
    | with_reducible apply txBlock_keeps
    | with_reducible apply rxBoundary_keeps
    | with_reducible apply Keeps.ite
    | with_reducible fail_if_no_progress refine Keeps.upd ?_ rfl rfl rfl rfl rfl rfl)

theorem releasePort_keeps {zz : State} {s : State} {p : Nat} (hzz : Keeps zz s) :
    Keeps zz (State.releasePort s p) := by
  unfold State.releasePort
  (try dsimp only)
  repeat' (first
    | with_reducible assumption
    | with_reducible apply releasePads_keeps
    | with_reducible apply Keeps.ite)

theorem execPortEnable_keeps {zz : State} {p : Packet} {s : State} (hzz : Keeps zz s) :
    OutKeeps zz (execPortEnable p s) := by
  unfold execPortEnable
  (try dsimp only)
  repeat' (first
    | with_reducible assumption
    | (intro _; (try dsimp only))
    | with_reducible apply Res.ok_keeps
    | with_reducible exact bad_keeps
    | with_reducible apply unlessBusy_keeps
    | with_reducible apply finishFor_keeps
    | with_reducible apply cfgLeave_keeps
    | with_reducible apply withDomains_keeps
    | with_reducible apply card_keeps
    | with_reducible apply setPort_keeps
    | with_reducible apply releasePort_keeps
    | with_reducible apply resPend
    | with_reducible apply resRefuse
    | with_reducible apply ResKeeps.ite
    | (split <;> try dsimp only))

theorem execPortFrameFound_keeps {zz : State} {port : Fin 4} {s : State} (hzz : Keeps zz s) :
    OutKeeps zz (execPortFrameFound port s) := by
  unfold execPortFrameFound
  (try dsimp only)
  repeat' (first
    | with_reducible assumption
    | with_reducible apply wr_keeps
    | with_reducible apply set1_keeps
    | with_reducible apply finishFor_keeps
    | with_reducible apply outNext
    | with_reducible apply Keeps.ite
    | with_reducible apply OutKeeps.ite
    | with_reducible fail_if_no_progress refine Keeps.upd ?_ rfl rfl rfl rfl rfl rfl)

theorem frameErr_keeps {zz : State} {s : State} {p : Nat} (hzz : Keeps zz s) :
    Keeps zz (State.frameErr s p) := by
  unfold State.frameErr
  (try dsimp only)
  repeat' (first
    | with_reducible assumption
    | (intro _; (try dsimp only))
    | with_reducible apply set1_keeps
    | with_reducible apply Keeps.foldl
    | with_reducible apply Keeps.ite)

theorem tdmBad_keeps {zz : State} {s : State} {p : Nat} (hzz : Keeps zz s) :
    Keeps zz (State.tdmBad s p) := by
  unfold State.tdmBad
  (try dsimp only)
  repeat' (first
    | with_reducible assumption
    | with_reducible apply sat_keeps
    | with_reducible apply frameErr_keeps)

theorem execTdmFrame_keeps {zz : State} {port : Fin 2} {bclks rate : Nat} {s : State} (hzz : Keeps zz s) :
    OutKeeps zz (execTdmFrame port bclks rate s) := by
  unfold execTdmFrame
  (try dsimp only)
  repeat' (first
    | with_reducible assumption
    | with_reducible apply wr_keeps
    | with_reducible apply set1_keeps
    | with_reducible apply tdmBad_keeps
    | with_reducible apply outNext
    | with_reducible apply Keeps.ite
    | with_reducible apply OutKeeps.ite
    | (split <;> try dsimp only)
    | with_reducible fail_if_no_progress refine Keeps.upd ?_ rfl rfl rfl rfl rfl rfl)

theorem portLost_keeps {zz : State} {s : State} {p : Nat} {clock : Bool} (hzz : Keeps zz s) :
    Keeps zz (State.portLost s p clock) := by
  unfold State.portLost
  (try dsimp only)
  repeat' (first
    | with_reducible assumption
    | with_reducible apply clr_keeps
    | with_reducible fail_if_no_progress refine Keeps.upd ?_ rfl rfl rfl rfl rfl rfl)

theorem execTdmLost_keeps {zz : State} {port : Fin 2} {s : State} (hzz : Keeps zz s) :
    OutKeeps zz (execTdmLost port s) := by
  unfold execTdmLost
  (try dsimp only)
  repeat' (first
    | with_reducible assumption
    | with_reducible apply set1_keeps
    | with_reducible apply portLost_keeps
    | with_reducible apply outNext
    | with_reducible apply OutKeeps.ite)

theorem execRateerr_keeps {zz : State} {port : Fin 2} {rate : Nat} {s : State} (hzz : Keeps zz s) :
    OutKeeps zz (execRateerr port rate s) := by
  unfold execRateerr
  (try dsimp only)
  repeat' (first
    | with_reducible assumption
    | with_reducible apply wr_keeps
    | with_reducible apply set1_keeps
    | with_reducible apply portLost_keeps
    | with_reducible apply outNext
    | with_reducible apply OutKeeps.ite)

theorem execTdmFmtApply_keeps {zz : State} {port : Fin 2} {s : State} (hzz : Keeps zz s) :
    OutKeeps zz (execTdmFmtApply port s) := by
  unfold execTdmFmtApply
  (try dsimp only)
  repeat' (first
    | with_reducible assumption
    | with_reducible apply clr_keeps
    | with_reducible apply showBdiv_keeps
    | with_reducible apply outNext
    | with_reducible apply OutKeeps.ite
    | with_reducible fail_if_no_progress refine Keeps.upd ?_ rfl rfl rfl rfl rfl rfl)

theorem execSpdifLock_keeps {zz : State} {rate : Nat} {s : State} (hzz : Keeps zz s) :
    OutKeeps zz (execSpdifLock rate s) := by
  unfold execSpdifLock
  (try dsimp only)
  repeat' (first
    | with_reducible assumption
    | with_reducible apply wr_keeps
    | with_reducible apply set1_keeps
    | with_reducible apply outNext
    | with_reducible apply OutKeeps.ite
    | with_reducible fail_if_no_progress refine Keeps.upd ?_ rfl rfl rfl rfl rfl rfl)

theorem execSpdifLost_keeps {zz : State} {s : State} (hzz : Keeps zz s) :
    OutKeeps zz (execSpdifLost s) := by
  unfold execSpdifLost
  (try dsimp only)
  repeat' (first
    | with_reducible assumption
    | with_reducible apply set1_keeps
    | with_reducible apply clr_keeps
    | with_reducible apply outNext
    | with_reducible apply OutKeeps.ite)

theorem csChange_keeps {zz : State} {s : State} (hzz : Keeps zz s) :
    Keeps zz (State.csChange s) := by
  unfold State.csChange
  (try dsimp only)
  repeat' (first
    | with_reducible assumption
    | (intro _; (try dsimp only))
    | with_reducible apply raise_keeps
    | with_reducible apply raiseStream_keeps
    | with_reducible apply Keeps.foldl
    | with_reducible apply Keeps.ite)

theorem csStore_keeps {zz : State} {s : State} {a b : List Word} (hzz : Keeps zz s) :
    Keeps zz (State.csStore s a b) := by
  unfold State.csStore
  (try dsimp only)
  repeat' (first
    | with_reducible assumption
    | with_reducible apply set1_keeps
    | with_reducible apply clr_keeps
    | with_reducible apply nonpcmRise_keeps
    | with_reducible apply csChange_keeps
    | with_reducible apply Keeps.ite
    | with_reducible fail_if_no_progress refine Keeps.upd ?_ rfl rfl rfl rfl rfl rfl)

theorem execSpdifCsBlock_keeps {zz : State} {sent : Bool} {framesA framesB : List Subframe} {biphaseA biphaseB : Bool} {s : State} (hzz : Keeps zz s) :
    OutKeeps zz (execSpdifCsBlock sent framesA framesB biphaseA biphaseB s) := by
  unfold execSpdifCsBlock
  (try dsimp only)
  repeat' (first
    | with_reducible assumption
    | (intro _; (try dsimp only))
    | with_reducible apply rxFrame_keeps
    | with_reducible apply txBlock_keeps
    | with_reducible apply rxBoundary_keeps
    | with_reducible apply csStore_keeps
    | with_reducible apply Keeps.foldl
    | with_reducible apply outNext
    | with_reducible apply OutKeeps.ite
    | (split <;> try dsimp only)
    | with_reducible fail_if_no_progress refine Keeps.upd ?_ rfl rfl rfl rfl rfl rfl)

theorem execSpdifRxCfg_keeps {zz : State} {p : Packet} {s : State} (hzz : Keeps zz s) :
    OutKeeps zz (execSpdifRxCfg p s) := by
  unfold execSpdifRxCfg
  (try dsimp only)
  repeat' (first
    | with_reducible assumption
    | (intro _; (try dsimp only))
    | with_reducible apply Res.ok_keeps
    | with_reducible exact bad_keeps
    | with_reducible apply unlessBusy_keeps
    | with_reducible apply withDomains_keeps
    | with_reducible apply card_keeps
    | with_reducible apply ResKeeps.ite
    | (split <;> try dsimp only)
    | with_reducible fail_if_no_progress refine Keeps.upd ?_ rfl rfl rfl rfl rfl rfl)

theorem execSpdifTxCfg_keeps {zz : State} {p : Packet} {s : State} (hzz : Keeps zz s) :
    OutKeeps zz (execSpdifTxCfg p s) := by
  unfold execSpdifTxCfg
  (try dsimp only)
  repeat' (first
    | with_reducible assumption
    | (intro _; (try dsimp only))
    | with_reducible apply Res.ok_keeps
    | with_reducible exact bad_keeps
    | with_reducible apply unlessBusy_keeps
    | with_reducible apply withDomains_keeps
    | with_reducible apply card_keeps
    | with_reducible apply ResKeeps.ite
    | (split <;> try dsimp only)
    | with_reducible fail_if_no_progress refine Keeps.upd ?_ rfl rfl rfl rfl rfl rfl)

theorem execSpdifCsRead_keeps {zz : State} {p : Packet} {s : State} (hzz : Keeps zz s) :
    OutKeeps zz (execSpdifCsRead p s) := by
  unfold execSpdifCsRead
  (try dsimp only)
  repeat' (first
    | with_reducible assumption
    | (intro _; (try dsimp only))
    | with_reducible apply card_keeps
    | with_reducible apply resDone)

theorem execSpdifCsWrite_keeps {zz : State} {p : Packet} {s : State} (hzz : Keeps zz s) :
    OutKeeps zz (execSpdifCsWrite p s) := by
  unfold execSpdifCsWrite
  (try dsimp only)
  repeat' (first
    | with_reducible assumption
    | (intro _; (try dsimp only))
    | with_reducible apply Res.ok_keeps
    | with_reducible exact bad_keeps
    | with_reducible apply unlessBusy_keeps
    | with_reducible apply withDomains_keeps
    | with_reducible apply card_keeps
    | with_reducible apply ResKeeps.ite
    | (split <;> try dsimp only)
    | with_reducible fail_if_no_progress refine Keeps.upd ?_ rfl rfl rfl rfl rfl rfl)

end Sys2Proof.Machine
end

