-- ==== Sys2Proof/Laws/KeepsSpeakers.lean ====
section
/-!
SUPPORT. What the operations of Machine/Speakers.lean keep (Laws/Keeps.lean).
-/

set_option linter.unusedTactic false
set_option linter.unreachableTactic false
set_option linter.unusedVariables false

namespace Sys2Proof.Machine

theorem setGroupCfg_keeps {zz : State} {s : State} {ws : List Word} (hzz : Keeps zz s) :
    Keeps zz (State.setGroupCfg s ws) := by
  unfold State.setGroupCfg
  (try dsimp only)
  repeat' (first
    | with_reducible assumption
    | with_reducible apply putReg_keeps
    | with_reducible apply applyPairs_keeps)

theorem execSpkGroupCfg_keeps {zz : State} {p : Packet} {s : State} (hzz : Keeps zz s) :
    OutKeeps zz (execSpkGroupCfg p s) := by
  unfold execSpkGroupCfg
  (try dsimp only)
  repeat' (first
    | with_reducible assumption
    | (intro _; (try dsimp only))
    | with_reducible apply Res.clampedOk_keeps
    | with_reducible exact bad_keeps
    | with_reducible apply unlessBusy_keeps
    | with_reducible apply withDomains_keeps
    | with_reducible apply card_keeps
    | with_reducible apply setGroupCfg_keeps
    | with_reducible apply resPend
    | with_reducible apply resRefuse
    | with_reducible apply ResKeeps.ite)

theorem execLoopCoefficientsReloaded_keeps {zz : State} {g : Fin 3} {s : State} (hzz : Keeps zz s) :
    OutKeeps zz (execLoopCoefficientsReloaded g s) := by
  unfold execLoopCoefficientsReloaded
  (try dsimp only)
  repeat' (first
    | with_reducible assumption
    | with_reducible apply finish_keeps
    | with_reducible apply outNext
    | with_reducible apply Keeps.ite
    | (split <;> try dsimp only))

theorem execSpkChanCfg_keeps {zz : State} {p : Packet} {s : State} (hzz : Keeps zz s) :
    OutKeeps zz (execSpkChanCfg p s) := by
  unfold execSpkChanCfg
  (try dsimp only)
  repeat' (first
    | with_reducible assumption
    | (intro _; (try dsimp only))
    | with_reducible apply Res.ok_keeps
    | with_reducible exact bad_keeps
    | with_reducible apply unlessBusy_keeps
    | with_reducible apply putReg_keeps
    | with_reducible apply withDomains_keeps
    | with_reducible apply card_keeps
    | with_reducible apply resRefuse
    | with_reducible apply ResKeeps.ite)

theorem execSpkLimit_keeps {zz : State} {p : Packet} {s : State} (hzz : Keeps zz s) :
    OutKeeps zz (execSpkLimit p s) := by
  unfold execSpkLimit
  (try dsimp only)
  repeat' (first
    | with_reducible assumption
    | (intro _; (try dsimp only))
    | with_reducible apply Res.clampedOk_keeps
    | with_reducible exact bad_keeps
    | with_reducible apply unlessBusy_keeps
    | with_reducible apply putReg_keeps
    | with_reducible apply withDomains_keeps
    | with_reducible apply card_keeps
    | with_reducible apply showGroup_keeps
    | with_reducible apply Keeps.foldl
    | with_reducible apply ResKeeps.ite)

theorem restart_keeps {zz : State} {s : State} {n : Nat} (hzz : Keeps zz s) :
    Keeps zz (State.restart s n) := by
  unfold State.restart
  (try dsimp only)
  repeat' (first
    | with_reducible assumption
    | with_reducible apply startChan_keeps
    | with_reducible apply unhold_keeps
    | with_reducible apply Keeps.ite)

theorem enableChan_keeps {zz : State} {s : State} {n : Nat} (hzz : Keeps zz s) :
    Keeps zz (State.enableChan s n) := by
  unfold State.enableChan
  (try dsimp only)
  repeat' (first
    | with_reducible assumption
    | with_reducible apply cfgLeave_keeps
    | with_reducible apply startChan_keeps
    | with_reducible apply restart_keeps
    | with_reducible apply Keeps.ite)

theorem addWaits_keeps {zz : State} {s : State} {kind : Nat} {ns : List Nat} {p : Nat → Bool} (hzz : Keeps zz s) :
    Keeps zz (State.addWaits s kind ns p) := by
  unfold State.addWaits
  (try dsimp only)
  repeat' (first
    | with_reducible assumption
    | with_reducible apply modOut_keeps)

theorem execSpkEnable_keeps {zz : State} {p : Packet} {s : State} (hzz : Keeps zz s) :
    OutKeeps zz (execSpkEnable p s) := by
  unfold execSpkEnable
  (try dsimp only)
  repeat' (first
    | with_reducible assumption
    | (intro _; (try dsimp only))
    | with_reducible exact busyWith_keeps
    | with_reducible apply withDomains_keeps
    | with_reducible apply take_keeps
    | with_reducible apply spkPoll_keeps
    | with_reducible apply supersede_keeps
    | with_reducible apply enableChan_keeps
    | with_reducible apply addWaits_keeps
    | with_reducible apply Keeps.foldl
    | with_reducible apply outNext
    | with_reducible apply resPend
    | with_reducible apply resRefuse
    | with_reducible apply ResKeeps.ite
    | (split <;> try dsimp only))

theorem execSpkDisable_keeps {zz : State} {p : Packet} {s : State} (hzz : Keeps zz s) :
    OutKeeps zz (execSpkDisable p s) := by
  unfold execSpkDisable
  (try dsimp only)
  repeat' (first
    | with_reducible assumption
    | (intro _; (try dsimp only))
    | with_reducible exact busyWith_keeps
    | with_reducible apply take_keeps
    | with_reducible apply spkPoll_keeps
    | with_reducible apply diagAbort_keeps
    | with_reducible apply supersede_keeps
    | with_reducible apply stopChan_keeps
    | with_reducible apply unhold_keeps
    | with_reducible apply addWaits_keeps
    | with_reducible apply Keeps.foldl
    | with_reducible apply outNext
    | with_reducible apply resPend
    | with_reducible apply Keeps.ite
    | (split <;> try dsimp only))

theorem execSpkRetry_keeps {zz : State} {p : Packet} {s : State} (hzz : Keeps zz s) :
    OutKeeps zz (execSpkRetry p s) := by
  unfold execSpkRetry
  (try dsimp only)
  repeat' (first
    | with_reducible assumption
    | (intro _; (try dsimp only))
    | with_reducible apply Res.ok_keeps
    | with_reducible exact bad_keeps
    | with_reducible exact busyWith_keeps
    | with_reducible apply putReg_keeps
    | with_reducible apply take_keeps
    | with_reducible apply spkPoll_keeps
    | with_reducible apply supersede_keeps
    | with_reducible apply addWaits_keeps
    | with_reducible apply Keeps.foldl
    | with_reducible apply outNext
    | with_reducible apply resPend
    | with_reducible apply resRefuse
    | with_reducible apply Keeps.ite
    | with_reducible apply ResKeeps.ite
    | (split <;> try dsimp only))

theorem startWrite_keeps {zz : State} {s : State} {n : Nat} (hzz : Keeps zz s) :
    Keeps zz (State.startWrite s n) := by
  unfold State.startWrite
  (try dsimp only)
  repeat' (first
    | with_reducible assumption
    | with_reducible apply cfgLeave_keeps
    | with_reducible apply startChan_keeps
    | with_reducible apply Keeps.ite)

theorem stopWrite_keeps {zz : State} {s : State} {n : Nat} (hzz : Keeps zz s) :
    Keeps zz (State.stopWrite s n) := by
  unfold State.stopWrite
  (try dsimp only)
  repeat' (first
    | with_reducible assumption
    | with_reducible apply diagAbort_keeps
    | with_reducible apply stopChan_keeps
    | with_reducible apply unhold_keeps
    | with_reducible apply Keeps.ite)

theorem execSpkPendingStart_keeps {zz : State} {chan : Fin 12} {s : State} (hzz : Keeps zz s) :
    OutKeeps zz (execSpkPendingStart chan s) := by
  unfold execSpkPendingStart
  (try dsimp only)
  repeat' (first
    | with_reducible assumption
    | with_reducible apply beginCheck_keeps
    | with_reducible apply outNext
    | with_reducible apply OutKeeps.ite)

theorem execSpkCheckDone_keeps {zz : State} {chan : Fin 12} {tests : ChanTest × ChanTest} {s : State} (hzz : Keeps zz s) :
    OutKeeps zz (execSpkCheckDone chan tests s) := by
  unfold execSpkCheckDone
  (try dsimp only)
  repeat' (first
    | with_reducible assumption
    | with_reducible apply wr_keeps
    | with_reducible apply ramp_keeps
    | with_reducible apply faultHold_keeps
    | with_reducible apply outNext
    | with_reducible apply OutKeeps.ite)

theorem execSpkChargeDone_keeps {zz : State} {chan : Fin 12} {s : State} (hzz : Keeps zz s) :
    OutKeeps zz (execSpkChargeDone chan s) := by
  unfold execSpkChargeDone
  (try dsimp only)
  repeat' (first
    | with_reducible assumption
    | with_reducible apply setPhase_keeps
    | with_reducible apply outNext
    | with_reducible apply Keeps.ite)

theorem acTone_keeps {zz : State} {s : State} {n : Nat} (hzz : Keeps zz s) :
    OptKeeps zz (State.acTone s n) := by
  unfold State.acTone
  (try dsimp only)
  repeat' (first
    | with_reducible assumption
    | with_reducible apply setPhase_keeps
    | with_reducible apply optSome
    | with_reducible apply optNone
    | with_reducible apply OptKeeps.ite
    | (split <;> try dsimp only)
    | with_reducible fail_if_no_progress refine Keeps.upd ?_ rfl rfl rfl rfl rfl rfl)

theorem execSpkLockDone_keeps {zz : State} {chan : Fin 12} {s : State} (hzz : Keeps zz s) :
    OutKeeps zz (execSpkLockDone chan s) := by
  unfold execSpkLockDone
  (try dsimp only)
  repeat' (first
    | with_reducible assumption
    | with_reducible apply toHold_keeps
    | with_reducible apply discharge_keeps
    | with_reducible apply acTone_keeps
    | with_reducible apply optGetD
    | with_reducible apply outNext
    | with_reducible apply Keeps.ite)

theorem execSpkUnmuteDone_keeps {zz : State} {chan : Fin 12} {s : State} (hzz : Keeps zz s) :
    OutKeeps zz (execSpkUnmuteDone chan s) := by
  unfold execSpkUnmuteDone
  (try dsimp only)
  repeat' (first
    | with_reducible assumption
    | with_reducible apply setPhase_keeps
    | with_reducible apply outNext
    | with_reducible apply Keeps.ite)

theorem execSpkMuteDone_keeps {zz : State} {chan : Fin 12} {s : State} (hzz : Keeps zz s) :
    OutKeeps zz (execSpkMuteDone chan s) := by
  unfold execSpkMuteDone
  (try dsimp only)
  repeat' (first
    | with_reducible assumption
    | with_reducible apply toHold_keeps
    | with_reducible apply discharge_keeps
    | with_reducible apply outNext
    | with_reducible apply Keeps.ite)

theorem execSpkDischargeDone_keeps {zz : State} {chan : Fin 12} {s : State} (hzz : Keeps zz s) :
    OutKeeps zz (execSpkDischargeDone chan s) := by
  unfold execSpkDischargeDone
  (try dsimp only)
  repeat' (first
    | with_reducible assumption
    | with_reducible apply acStored_keeps
    | with_reducible apply toOff_keeps
    | with_reducible apply outNext
    | with_reducible apply Keeps.ite)

theorem execMuteNFall_keeps {zz : State} {s : State} (hzz : Keeps zz s) :
    OutKeeps zz (execMuteNFall s) := by
  unfold execMuteNFall
  (try dsimp only)
  repeat' (first
    | with_reducible assumption
    | with_reducible apply modOut_keeps
    | with_reducible apply muteChanged_keeps
    | with_reducible apply outNext
    | with_reducible apply Keeps.ite)

theorem execMuteNRise_keeps {zz : State} {s : State} (hzz : Keeps zz s) :
    OutKeeps zz (execMuteNRise s) := by
  unfold execMuteNRise
  (try dsimp only)
  repeat' (first
    | with_reducible assumption
    | with_reducible apply modOut_keeps
    | with_reducible apply muteChanged_keeps
    | with_reducible apply outNext
    | with_reducible apply Keeps.ite)

theorem spkMuteAll_keeps {zz : State} {s : State} {fast : Bool} (hzz : Keeps zz s) :
    Keeps zz (State.spkMuteAll s fast) := by
  unfold State.spkMuteAll
  (try dsimp only)
  repeat' (first
    | with_reducible assumption
    | (intro _; (try dsimp only))
    | with_reducible apply ramp_keeps
    | with_reducible apply Keeps.forEach
    | with_reducible apply Keeps.ite)

theorem spkStopAll_keeps {zz : State} {s : State} {fast : Bool} (hzz : Keeps zz s) :
    Keeps zz (State.spkStopAll s fast) := by
  unfold State.spkStopAll
  (try dsimp only)
  repeat' (first
    | with_reducible assumption
    | (intro _; (try dsimp only))
    | with_reducible apply stopChan_keeps
    | with_reducible apply Keeps.forEach)

end Sys2Proof.Machine
end

