-- ==== Sys2Proof/Laws/KeepsCarrier.lean ====
section
/-!
SUPPORT. What the operations of Machine/Carrier.lean keep (Laws/Keeps.lean).
-/

set_option linter.unusedTactic false
set_option linter.unreachableTactic false
set_option linter.unusedVariables false

namespace Sys2Proof.Machine

theorem modClk_keeps {zz : State} {s : State} {f : ClkX → ClkX} (hzz : Keeps zz s) :
    Keeps zz (State.modClk s f) := by
  unfold State.modClk
  (try dsimp only)
  repeat' (first
    | with_reducible assumption
    | with_reducible fail_if_no_progress refine Keeps.upd ?_ rfl rfl rfl rfl rfl rfl)

theorem raisePll_keeps {zz : State} {s : State} {kind pll ticks : Nat} (hzz : Keeps zz s) :
    Keeps zz (State.raisePll s kind pll ticks) := by
  unfold State.raisePll
  (try dsimp only)
  repeat' (first
    | with_reducible assumption
    | with_reducible apply raise_keeps)

theorem showSw_keeps {zz : State} {s : State} (hzz : Keeps zz s) :
    Keeps zz (State.showSw s) := by
  unfold State.showSw
  (try dsimp only)
  repeat' (first
    | with_reducible assumption
    | with_reducible apply wr_keeps)

theorem raisePlacement_keeps {zz : State} {s : State} {kind before after w : Nat} (hzz : Keeps zz s) :
    Keeps zz (State.raisePlacement s kind before after w) := by
  unfold State.raisePlacement
  (try dsimp only)
  repeat' (first
    | with_reducible assumption
    | with_reducible apply raise_keeps)

theorem rampStart_keeps {zz : State} {s : State} {w ms slot : Nat} (hzz : Keeps zz s) :
    Keeps zz (State.rampStart s w ms slot) := by
  unfold State.rampStart
  (try dsimp only)
  repeat' (first
    | with_reducible assumption
    | with_reducible apply setReg_keeps
    | with_reducible apply set1_keeps
    | with_reducible apply modClk_keeps
    | with_reducible apply Keeps.ite)

theorem rampTick_keeps {zz : State} {s : State} {n : Nat} (hzz : Keeps zz s) :
    Keeps zz (State.rampTick s n) := by
  unfold State.rampTick
  (try dsimp only)
  repeat' (first
    | with_reducible assumption
    | with_reducible apply setReg_keeps
    | with_reducible apply modClk_keeps
    | with_reducible apply showSw_keeps
    | with_reducible apply Keeps.ite
    | (split <;> try dsimp only))

theorem winTick_keeps {zz : State} {s : State} {n : Nat} (hzz : Keeps zz s) :
    Keeps zz (State.winTick s n) := by
  unfold State.winTick
  (try dsimp only)
  repeat' (first
    | with_reducible assumption
    | with_reducible apply modClk_keeps
    | with_reducible apply Keeps.ite)

theorem moveEnd_keeps {zz : State} {s : State} (hzz : Keeps zz s) :
    Keeps zz (State.moveEnd s) := by
  unfold State.moveEnd
  (try dsimp only)
  repeat' (first
    | with_reducible assumption
    | with_reducible apply clr_keeps
    | with_reducible apply finishAll_keeps
    | with_reducible apply modClk_keeps
    | with_reducible apply showSw_keeps
    | with_reducible apply raisePlacement_keeps
    | with_reducible apply Keeps.ite)

theorem moveDrop_keeps {zz : State} {s : State} {st detail : Nat} (hzz : Keeps zz s) :
    Keeps zz (State.moveDrop s st detail) := by
  unfold State.moveDrop
  (try dsimp only)
  repeat' (first
    | with_reducible assumption
    | with_reducible apply clr_keeps
    | with_reducible apply finishAll_keeps
    | with_reducible apply modClk_keeps)

theorem placeFreeze_keeps {zz : State} {s : State} {gs : Nat} (hzz : Keeps zz s) :
    Keeps zz (State.placeFreeze s gs) := by
  unfold State.placeFreeze
  (try dsimp only)
  repeat' (first
    | with_reducible assumption
    | (intro _; (try dsimp only))
    | with_reducible apply setReg_keeps
    | with_reducible apply clr_keeps
    | with_reducible apply putReg_keeps
    | with_reducible apply modClk_keeps
    | with_reducible apply moveEnd_keeps
    | with_reducible apply Keeps.forEach
    | with_reducible apply Keeps.ite)

theorem alignOuts_keeps {zz : State} {s : State} {lead : Int} (hzz : Keeps zz s) :
    Keeps zz (State.alignOuts s lead) := by
  unfold State.alignOuts
  (try dsimp only)
  repeat' (first
    | with_reducible assumption
    | (intro _; (try dsimp only))
    | with_reducible apply modGrp_keeps
    | with_reducible apply Keeps.forEach)

theorem shadowWrite_keeps {zz : State} {s : State} {m : Move} (hzz : Keeps zz s) :
    Keeps zz (State.shadowWrite s m) := by
  unfold State.shadowWrite
  (try dsimp only)
  repeat' (first
    | with_reducible assumption
    | (intro _; (try dsimp only))
    | with_reducible apply putReg_keeps
    | with_reducible apply Keeps.forEach)

theorem moveStart_keeps {zz : State} {s : State} {m : Move} {placing : Bool} (hzz : Keeps zz s) :
    Keeps zz (State.moveStart s m placing) := by
  unfold State.moveStart
  (try dsimp only)
  repeat' (first
    | with_reducible assumption
    | with_reducible apply set1_keeps
    | with_reducible apply clr_keeps
    | with_reducible apply finishAll_keeps
    | with_reducible apply modClk_keeps
    | with_reducible apply raisePlacement_keeps
    | with_reducible apply rampStart_keeps
    | with_reducible apply shadowWrite_keeps
    | with_reducible apply Keeps.ite)

theorem gateStart_keeps {zz : State} {s : State} {mask : Nat} {fstep : Bool} (hzz : Keeps zz s) :
    Keeps zz (State.gateStart s mask fstep) := by
  unfold State.gateStart
  (try dsimp only)
  repeat' (first
    | with_reducible assumption
    | with_reducible apply wr_keeps
    | with_reducible apply clr_keeps
    | with_reducible apply outShow_keeps
    | with_reducible apply modClk_keeps
    | with_reducible apply raisePll_keeps
    | with_reducible apply Keeps.ite)

theorem gateEnd_keeps {zz : State} {s : State} (hzz : Keeps zz s) :
    Keeps zz (State.gateEnd s) := by
  unfold State.gateEnd
  (try dsimp only)
  repeat' (first
    | with_reducible assumption
    | (intro _; (try dsimp only))
    | with_reducible apply wr_keeps
    | with_reducible apply modGrp_keeps
    | with_reducible apply outShow_keeps
    | with_reducible apply modClk_keeps
    | with_reducible apply raisePll_keeps
    | with_reducible apply moveEnd_keeps
    | with_reducible apply Keeps.forEach
    | with_reducible apply Keeps.ite)

theorem copyOut_keeps {zz : State} {s : State} {g : Nat} (hzz : Keeps zz s) :
    Keeps zz (State.copyOut s g) := by
  unfold State.copyOut
  (try dsimp only)
  repeat' (first
    | with_reducible assumption
    | with_reducible apply setReg_keeps
    | with_reducible apply modGrp_keeps)

theorem swCopy_keeps {zz : State} {s : State} (hzz : Keeps zz s) :
    Keeps zz (State.swCopy s) := by
  unfold State.swCopy
  (try dsimp only)
  repeat' (first
    | with_reducible assumption
    | (intro _; (try dsimp only))
    | with_reducible apply setReg_keeps
    | with_reducible apply modClk_keeps
    | with_reducible apply copyOut_keeps
    | with_reducible apply Keeps.forEach)

theorem swApply_keeps {zz : State} {s : State} {d : SwDiff} (hzz : Keeps zz s) :
    Keeps zz (State.swApply s d) := by
  unfold State.swApply
  (try dsimp only)
  repeat' (first
    | with_reducible assumption
    | with_reducible apply setReg_keeps
    | with_reducible apply set1_keeps
    | with_reducible apply modClk_keeps
    | with_reducible apply rampStart_keeps
    | with_reducible apply moveEnd_keeps
    | with_reducible apply gateStart_keeps
    | with_reducible apply swCopy_keeps
    | with_reducible apply Keeps.ite)

theorem swTransfer_keeps {zz : State} {s : State} {rerun : State → State} (hrerun : ∀ x y, Keeps x y → Keeps x (rerun y)) (hzz : Keeps zz s) :
    Keeps zz (State.swTransfer s rerun) := by
  unfold State.swTransfer
  (try dsimp only)
  repeat' (first
    | with_reducible assumption
    | with_reducible apply hrerun
    | with_reducible apply set1_keeps
    | with_reducible apply clr_keeps
    | with_reducible apply outShow_keeps
    | with_reducible apply modClk_keeps
    | with_reducible apply showSw_keeps
    | with_reducible apply raisePlacement_keeps
    | with_reducible apply moveDrop_keeps
    | with_reducible apply swApply_keeps
    | with_reducible apply Keeps.ite)

theorem swStart_keeps {zz : State} {s : State} (hzz : Keeps zz s) :
    Keeps zz (State.swStart s) := by
  unfold State.swStart
  (try dsimp only)
  repeat' (first
    | with_reducible assumption
    | with_reducible apply setReg_keeps
    | with_reducible apply set1_keeps
    | with_reducible apply outShow_keeps
    | with_reducible apply modClk_keeps
    | with_reducible apply showSw_keeps
    | with_reducible apply alignOuts_keeps)

theorem swStop_keeps {zz : State} {s : State} (hzz : Keeps zz s) :
    Keeps zz (State.swStop s) := by
  unfold State.swStop
  (try dsimp only)
  repeat' (first
    | with_reducible assumption
    | with_reducible apply wr_keeps
    | with_reducible apply clr_keeps
    | with_reducible apply outShow_keeps
    | with_reducible apply modClk_keeps
    | with_reducible apply moveDrop_keeps)

end Sys2Proof.Machine
end

