-- ==== Sys2Proof/Laws/KeepsPlacement.lean ====
section
/-!
SUPPORT. What the operations of Machine/Placement.lean keep (Laws/Keeps.lean).
-/

set_option linter.unusedTactic false
set_option linter.unreachableTactic false
set_option linter.unusedVariables false

namespace Sys2Proof.Machine

theorem placeBy_keeps {zz : State} {s : State} {p : Plan} (hzz : Keeps zz s) :
    Keeps zz (State.placeBy s p) := by
  unfold State.placeBy
  (try dsimp only)
  repeat' (first
    | with_reducible assumption
    | with_reducible apply set1_keeps
    | with_reducible apply raisePlacement_keeps
    | with_reducible apply moveStart_keeps
    | with_reducible apply Keeps.ite)

theorem placementRun_keeps {zz : State} {s : State} (hzz : Keeps zz s) :
    Keeps zz (State.placementRun s) := by
  unfold State.placementRun
  (try dsimp only)
  repeat' (first
    | with_reducible assumption
    | with_reducible apply placeBy_keeps
    | with_reducible apply Keeps.ite)

end Sys2Proof.Machine
end

