-- ==== Sys2Proof/Laws/KeepsClocks.lean ====
section
/-!
SUPPORT. What the operations of Machine/Clocks.lean keep (Laws/Keeps.lean).
-/

set_option linter.unusedTactic false
set_option linter.unreachableTactic false
set_option linter.unusedVariables false

namespace Sys2Proof.Machine

theorem pllCoast_keeps {zz : State} {s : State} {p : Nat} (hzz : Keeps zz s) :
    Keeps zz (State.pllCoast s p) := by
  unfold State.pllCoast
  (try dsimp only)
  repeat' (first
    | with_reducible assumption
    | with_reducible apply set1_keeps
    | with_reducible apply clr_keeps
    | with_reducible apply modClk_keeps
    | with_reducible apply raisePll_keeps
    | with_reducible apply Keeps.ite)

theorem pllPoll_keeps {zz : State} {s : State} (hzz : Keeps zz s) :
    Keeps zz (State.pllPoll s) := by
  unfold State.pllPoll
  (try dsimp only)
  repeat' (first
    | with_reducible assumption
    | with_reducible apply finishAll_keeps)

theorem pllLock_keeps {zz : State} {s : State} {p : Nat} (hzz : Keeps zz s) :
    Keeps zz (State.pllLock s p) := by
  unfold State.pllLock
  (try dsimp only)
  repeat' (first
    | with_reducible assumption
    | with_reducible apply set1_keeps
    | with_reducible apply clr_keeps
    | with_reducible apply faultGone_keeps
    | with_reducible apply modClk_keeps
    | with_reducible apply raisePll_keeps
    | with_reducible apply gateEnd_keeps
    | with_reducible apply pllPoll_keeps
    | with_reducible apply Keeps.ite)

theorem stepFails_keeps {zz : State} {s : State} (hzz : Keeps zz s) :
    Keeps zz (State.stepFails s) := by
  unfold State.stepFails
  (try dsimp only)
  repeat' (first
    | with_reducible assumption
    | (intro _; (try dsimp only))
    | with_reducible apply faultHold_keeps
    | with_reducible apply toChip_keeps
    | with_reducible apply modClk_keeps
    | with_reducible apply Keeps.forEach
    | with_reducible apply Keeps.ite)

theorem stepWindow_keeps {zz : State} {s : State} {agree : Bool} (hzz : Keeps zz s) :
    Keeps zz (State.stepWindow s agree) := by
  unfold State.stepWindow
  (try dsimp only)
  repeat' (first
    | with_reducible assumption
    | with_reducible apply modClk_keeps
    | with_reducible apply moveEnd_keeps
    | with_reducible apply gateEnd_keeps
    | with_reducible apply stepFails_keeps
    | with_reducible apply Keeps.ite)

theorem execPllWindow_keeps {zz : State} {pll : Fin 3} {count : Nat} {s0 : State} (hzz : Keeps zz s0) :
    OutKeeps zz (execPllWindow pll count s0) := by
  unfold execPllWindow
  (try dsimp only)
  repeat' (first
    | with_reducible assumption
    | with_reducible apply modClk_keeps
    | with_reducible apply pllCoast_keeps
    | with_reducible apply pllLock_keeps
    | with_reducible apply stepWindow_keeps
    | with_reducible apply outNext
    | with_reducible apply Keeps.ite
    | with_reducible apply OutKeeps.ite)

theorem execPllCoastExpire_keeps {zz : State} {pll : Fin 3} {s : State} (hzz : Keeps zz s) :
    OutKeeps zz (execPllCoastExpire pll s) := by
  unfold execPllCoastExpire
  (try dsimp only)
  repeat' (first
    | with_reducible assumption
    | with_reducible apply toChip_keeps
    | with_reducible apply outNext
    | with_reducible apply OutKeeps.ite)

theorem execRefLost_keeps {zz : State} {s : State} (hzz : Keeps zz s) :
    OutKeeps zz (execRefLost s) := by
  unfold execRefLost
  (try dsimp only)
  repeat' (first
    | with_reducible assumption
    | (intro _; (try dsimp only))
    | with_reducible apply set1_keeps
    | with_reducible apply clr_keeps
    | with_reducible apply modClk_keeps
    | with_reducible apply raisePll_keeps
    | with_reducible apply pllCoast_keeps
    | with_reducible apply Keeps.forEach
    | with_reducible apply outNext
    | with_reducible apply Keeps.ite
    | with_reducible apply OutKeeps.ite)

theorem execRefReturn_keeps {zz : State} {s : State} (hzz : Keeps zz s) :
    OutKeeps zz (execRefReturn s) := by
  unfold execRefReturn
  (try dsimp only)
  repeat' (first
    | with_reducible assumption
    | with_reducible apply set1_keeps
    | with_reducible apply faultGone_keeps
    | with_reducible apply raisePll_keeps
    | with_reducible apply outNext
    | with_reducible apply OutKeeps.ite)

theorem execAonXt32Switch_keeps {zz : State} {s : State} (hzz : Keeps zz s) :
    OutKeeps zz (execAonXt32Switch s) := by
  unfold execAonXt32Switch
  (try dsimp only)
  repeat' (first
    | with_reducible assumption
    | with_reducible apply set1_keeps
    | with_reducible apply outNext)

theorem execAonfail_keeps {zz : State} {s : State} (hzz : Keeps zz s) :
    OutKeeps zz (execAonfail s) := by
  unfold execAonfail
  (try dsimp only)
  repeat' (first
    | with_reducible assumption
    | with_reducible apply set1_keeps
    | with_reducible apply clr_keeps
    | with_reducible apply outNext
    | with_reducible apply Keeps.ite)

theorem execSwpllTransfer_keeps {zz : State} {s : State} (hzz : Keeps zz s) :
    OutKeeps zz (execSwpllTransfer s) := by
  unfold execSwpllTransfer
  (try dsimp only)
  repeat' (first
    | with_reducible assumption
    | (intro _; (try dsimp only))
    | with_reducible apply swTransfer_keeps
    | with_reducible apply placementRun_keeps
    | with_reducible apply outNext
    | with_reducible apply OutKeeps.ite)

theorem execRampEnd_keeps {zz : State} {s : State} (hzz : Keeps zz s) :
    OutKeeps zz (execRampEnd s) := by
  unfold execRampEnd
  (try dsimp only)
  repeat' (first
    | with_reducible assumption
    | with_reducible apply setReg_keeps
    | with_reducible apply clr_keeps
    | with_reducible apply modClk_keeps
    | with_reducible apply showSw_keeps
    | with_reducible apply moveEnd_keeps
    | with_reducible apply outNext
    | with_reducible apply OutKeeps.ite
    | (split <;> try dsimp only))

theorem syncErr_keeps {zz : State} {s : State} (hzz : Keeps zz s) :
    Keeps zz (State.syncErr s) := by
  unfold State.syncErr
  (try dsimp only)
  repeat' (first
    | with_reducible assumption
    | with_reducible apply set1_keeps
    | with_reducible apply raisePll_keeps)

theorem execSyncInEdge_keeps {zz : State} {err : Nat} {marked : Bool} {s : State} (hzz : Keeps zz s) :
    OutKeeps zz (execSyncInEdge err marked s) := by
  unfold execSyncInEdge
  (try dsimp only)
  repeat' (first
    | with_reducible assumption
    | (intro _; (try dsimp only))
    | with_reducible apply set1_keeps
    | with_reducible apply clr_keeps
    | with_reducible apply modClk_keeps
    | with_reducible apply raisePll_keeps
    | with_reducible apply alignOuts_keeps
    | with_reducible apply swTransfer_keeps
    | with_reducible apply placementRun_keeps
    | with_reducible apply syncErr_keeps
    | with_reducible apply outNext
    | with_reducible apply Keeps.ite
    | with_reducible apply OutKeeps.ite)

theorem execSyncTimeout_keeps {zz : State} {s : State} (hzz : Keeps zz s) :
    OutKeeps zz (execSyncTimeout s) := by
  unfold execSyncTimeout
  (try dsimp only)
  repeat' (first
    | with_reducible assumption
    | (intro _; (try dsimp only))
    | with_reducible apply swTransfer_keeps
    | with_reducible apply placementRun_keeps
    | with_reducible apply syncErr_keeps
    | with_reducible apply outNext
    | with_reducible apply OutKeeps.ite)

theorem execSyncInTimeout_keeps {zz : State} {s : State} (hzz : Keeps zz s) :
    OutKeeps zz (execSyncInTimeout s) := by
  unfold execSyncInTimeout
  (try dsimp only)
  repeat' (first
    | with_reducible assumption
    | with_reducible apply modClk_keeps
    | with_reducible apply syncErr_keeps
    | with_reducible apply outNext
    | with_reducible apply OutKeeps.ite)

theorem setAudFam_keeps {zz : State} {s : State} {fam : Nat} (hzz : Keeps zz s) :
    Keeps zz (State.setAudFam s fam) := by
  unfold State.setAudFam
  (try dsimp only)
  repeat' (first
    | with_reducible assumption
    | with_reducible apply setReg_keeps
    | with_reducible apply wr_keeps
    | with_reducible apply clr_keeps
    | with_reducible apply showBdiv_keeps)

theorem setSw_keeps {zz : State} {s : State} {w : Nat} {div : Nat → Nat} {on : Bool} (hzz : Keeps zz s) :
    Keeps zz (State.setSw s w div on) := by
  unfold State.setSw
  (try dsimp only)
  repeat' (first
    | with_reducible assumption
    | (intro _; (try dsimp only))
    | with_reducible apply setReg_keeps
    | with_reducible apply wr_keeps
    | with_reducible apply clr_keeps
    | with_reducible apply putReg_keeps
    | with_reducible apply outShow_keeps
    | with_reducible apply modClk_keeps
    | with_reducible apply showSw_keeps
    | with_reducible apply alignOuts_keeps
    | with_reducible apply Keeps.forEach
    | with_reducible apply Keeps.ite)

theorem execPllCfg_keeps {zz : State} {p : Packet} {s : State} (hzz : Keeps zz s) :
    OutKeeps zz (execPllCfg p s) := by
  unfold execPllCfg
  (try dsimp only)
  repeat' (first
    | with_reducible assumption
    | (intro _; (try dsimp only))
    | with_reducible apply Res.ok_keeps
    | with_reducible exact bad_keeps
    | with_reducible apply unlessBusy_keeps
    | with_reducible apply take_keeps
    | with_reducible apply pllPoll_keeps
    | with_reducible apply setAudFam_keeps
    | with_reducible apply setSw_keeps
    | with_reducible apply outNext
    | with_reducible apply resPend
    | with_reducible apply resRefuse
    | with_reducible apply Keeps.ite
    | with_reducible apply ResKeeps.ite)

theorem execSwpllSet_keeps {zz : State} {p : Packet} {s : State} (hzz : Keeps zz s) :
    OutKeeps zz (execSwpllSet p s) := by
  unfold execSwpllSet
  (try dsimp only)
  repeat' (first
    | with_reducible assumption
    | (intro _; (try dsimp only))
    | with_reducible apply Res.ok_keeps
    | with_reducible exact busyWith_keeps
    | with_reducible apply card_keeps
    | with_reducible apply modClk_keeps
    | with_reducible apply showSw_keeps
    | with_reducible apply moveStart_keeps
    | with_reducible apply placementRun_keeps
    | with_reducible apply resPend
    | with_reducible apply resRefuse
    | with_reducible apply ResKeeps.ite
    | (split <;> try dsimp only))

theorem execRampLoad_keeps {zz : State} {p : Packet} {s : State} (hzz : Keeps zz s) :
    OutKeeps zz (execRampLoad p s) := by
  unfold execRampLoad
  (try dsimp only)
  repeat' (first
    | with_reducible assumption
    | (intro _; (try dsimp only))
    | with_reducible apply Res.ok_keeps
    | with_reducible exact bad_keeps
    | with_reducible apply card_keeps
    | with_reducible apply modClk_keeps
    | with_reducible apply resRefuse
    | with_reducible apply ResKeeps.ite
    | (split <;> try dsimp only))

theorem execTunedFreq_keeps {zz : State} {p : Packet} {s : State} (hzz : Keeps zz s) :
    OutKeeps zz (execTunedFreq p s) := by
  unfold execTunedFreq
  (try dsimp only)
  repeat' (first
    | with_reducible assumption
    | (intro _; (try dsimp only))
    | with_reducible apply wr_keeps
    | with_reducible exact bad_keeps
    | with_reducible exact busyWith_keeps
    | with_reducible apply card_keeps
    | with_reducible apply modClk_keeps
    | with_reducible apply showSw_keeps
    | with_reducible apply placeBy_keeps
    | with_reducible apply resDone
    | with_reducible apply resPend
    | with_reducible apply ResKeeps.ite
    | (split <;> try dsimp only))

theorem execChameleonCfg_keeps {zz : State} {p : Packet} {s : State} (hzz : Keeps zz s) :
    OutKeeps zz (execChameleonCfg p s) := by
  unfold execChameleonCfg
  (try dsimp only)
  repeat' (first
    | with_reducible assumption
    | (intro _; (try dsimp only))
    | with_reducible apply wr_keeps
    | with_reducible apply Res.ok_keeps
    | with_reducible exact bad_keeps
    | with_reducible apply card_keeps
    | with_reducible apply showSw_keeps
    | with_reducible apply placementRun_keeps
    | with_reducible apply ResKeeps.ite)

theorem execSyncCfg_keeps {zz : State} {p : Packet} {s : State} (hzz : Keeps zz s) :
    OutKeeps zz (execSyncCfg p s) := by
  unfold execSyncCfg
  (try dsimp only)
  repeat' (first
    | with_reducible assumption
    | (intro _; (try dsimp only))
    | with_reducible apply wr_keeps
    | with_reducible apply clr_keeps
    | with_reducible apply Res.ok_keeps
    | with_reducible exact bad_keeps
    | with_reducible apply releasePads_keeps
    | with_reducible apply card_keeps
    | with_reducible apply modClk_keeps
    | with_reducible apply resRefuse
    | with_reducible apply ResKeeps.ite)

theorem swUpdate_keeps {zz : State} {s : State} (hzz : Keeps zz s) :
    Keeps zz (State.swUpdate s) := by
  unfold State.swUpdate
  (try dsimp only)
  repeat' (first
    | with_reducible assumption
    | with_reducible apply set1_keeps
    | with_reducible apply cfgLeave_keeps
    | with_reducible apply Keeps.ite)

end Sys2Proof.Machine
end

