-- ==== Sys2Proof/Laws/KeepsCroaker.lean ====
section
/-!
SUPPORT. What the operations of Machine/Croaker.lean keep (Laws/Keeps.lean).
-/

set_option linter.unusedTactic false
set_option linter.unreachableTactic false
set_option linter.unusedVariables false

namespace Sys2Proof.Machine

theorem execCroakerCfg_keeps {zz : State} {p : Packet} {s : State} (hzz : Keeps zz s) :
    OutKeeps zz (execCroakerCfg p s) := by
  unfold execCroakerCfg
  (try dsimp only)
  repeat' (first
    | with_reducible assumption
    | (intro _; (try dsimp only))
    | with_reducible apply Res.clampedOk_keeps
    | with_reducible exact bad_keeps
    | with_reducible apply unlessBusy_keeps
    | with_reducible apply deliverPoison_keeps
    | with_reducible apply card_keeps
    | with_reducible apply modSlot_keeps
    | with_reducible apply alertEval_keeps
    | with_reducible apply Keeps.foldl
    | with_reducible apply resRefuse
    | with_reducible apply ResKeeps.ite)

theorem execCroakerPlay_keeps {zz : State} {p : Packet} {s : State} (hzz : Keeps zz s) :
    OutKeeps zz (execCroakerPlay p s) := by
  unfold execCroakerPlay
  (try dsimp only)
  repeat' (first
    | with_reducible assumption
    | (intro _; (try dsimp only))
    | with_reducible apply Res.ok_keeps
    | with_reducible exact bad_keeps
    | with_reducible apply card_keeps
    | with_reducible apply modSlot_keeps
    | with_reducible apply slotStart_keeps
    | with_reducible apply Keeps.ite
    | with_reducible apply ResKeeps.ite)

theorem execAlertRise_keeps {zz : State} {pin : Fin 4} {s : State} (hzz : Keeps zz s) :
    OutKeeps zz (execAlertRise pin s) := by
  unfold execAlertRise
  (try dsimp only)
  repeat' (first
    | with_reducible assumption
    | with_reducible apply set1_keeps
    | with_reducible apply alertEval_keeps
    | with_reducible apply outNext)

theorem execAlertFall_keeps {zz : State} {pin : Fin 4} {s : State} (hzz : Keeps zz s) :
    OutKeeps zz (execAlertFall pin s) := by
  unfold execAlertFall
  (try dsimp only)
  repeat' (first
    | with_reducible assumption
    | with_reducible apply clr_keeps
    | with_reducible apply alertEval_keeps
    | with_reducible apply outNext)

theorem execCroakerSlotEnd_keeps {zz : State} {slot : Fin 8} {s : State} (hzz : Keeps zz s) :
    OutKeeps zz (execCroakerSlotEnd slot s) := by
  unfold execCroakerSlotEnd
  (try dsimp only)
  repeat' (first
    | with_reducible assumption
    | with_reducible apply modSlot_keeps
    | with_reducible apply outShow_keeps
    | with_reducible apply slotEnd_keeps
    | with_reducible apply outNext
    | with_reducible apply OutKeeps.ite)

end Sys2Proof.Machine
end

