-- ==== Sys2Proof/Laws/KeepsFresh.lean ====
section
/-!
SUPPORT. What the operations of Machine/Fresh.lean keep (Laws/Keeps.lean).
-/

set_option linter.unusedTactic false
set_option linter.unreachableTactic false
set_option linter.unusedVariables false

namespace Sys2Proof.Machine

theorem showRoll_keeps {zz : State} {s : State} (hzz : Keeps zz s) :
    Keeps zz (State.showRoll s) := by
  unfold State.showRoll
  (try dsimp only)
  repeat' (first
    | with_reducible assumption
    | with_reducible apply wr_keeps)

theorem fuseBound_keeps {zz : State} {s : State} (hzz : Keeps zz s) :
    Keeps zz (State.fuseBound s) := by
  unfold State.fuseBound
  (try dsimp only)
  repeat' (first
    | with_reducible assumption
    | (intro _; (try dsimp only))
    | with_reducible apply wr_keeps
    | with_reducible apply set1_keeps
    | with_reducible apply Keeps.forEach
    | with_reducible apply Keeps.ite)

theorem fuseRegs_keeps {zz : State} {s : State} (hzz : Keeps zz s) :
    Keeps zz (State.fuseRegs s) := by
  unfold State.fuseRegs
  (try dsimp only)
  repeat' (first
    | with_reducible assumption
    | (intro _; (try dsimp only))
    | with_reducible apply setReg_keeps
    | with_reducible apply wr_keeps
    | with_reducible apply showRoll_keeps
    | with_reducible apply fuseBound_keeps
    | with_reducible apply Keeps.forEach)

theorem fresh_keeps {zz s : State} (k : Keeps zz s) : Keeps zz s.fresh := by
  refine k.trans ?_
  unfold State.fresh
  apply wr_keeps
  apply wr_keeps
  apply setReg_keeps
  apply fuseRegs_keeps
  exact ⟨fun _ => rfl, fun _ => rfl, fun _ => rfl, fun _ => Nat.zero_le _, fun _ => Nat.zero_le _, fun _ => Nat.zero_le _,
    fun _ => ⟨List.Pairwise.nil, fun e he => absurd he (List.not_mem_nil)⟩, fun _ => Nat.zero_le _, fun _ _ h => h, rfl⟩

end Sys2Proof.Machine
end

