-- ==== Sys2Proof/Laws/KeepsLegs.lean ====
section
/-!
SUPPORT. What the operations of Machine/Legs.lean keep (Laws/Keeps.lean).
-/

set_option linter.unusedTactic false
set_option linter.unreachableTactic false
set_option linter.unusedVariables false

namespace Sys2Proof.Machine

theorem raiseLegRepair_keeps {zz : State} {s : State} {kind ch leg slices node : Nat} {hiz : Word} (hzz : Keeps zz s) :
    Keeps zz (State.raiseLegRepair s kind ch leg slices node hiz) := by
  unfold State.raiseLegRepair
  (try dsimp only)
  repeat' (first
    | with_reducible assumption
    | with_reducible apply raise_keeps)

theorem raiseNodeRepair_keeps {zz : State} {s : State} {kind g j : Nat} {hiz : Word} (hzz : Keeps zz s) :
    Keeps zz (State.raiseNodeRepair s kind g j hiz) := by
  unfold State.raiseNodeRepair
  (try dsimp only)
  repeat' (first
    | with_reducible assumption
    | with_reducible apply raiseLegRepair_keeps)

theorem failLeg_keeps {zz : State} {s : State} {g j : Nat} (hzz : Keeps zz s) :
    Keeps zz (State.failLeg s g j) := by
  unfold State.failLeg
  (try dsimp only)
  repeat' (first
    | with_reducible assumption
    | with_reducible apply wr_keeps
    | with_reducible apply modGrp_keeps)

theorem ronDrop_keeps {zz : State} {s : State} {legs : List Nat} (hzz : Keeps zz s) :
    Keeps zz (State.ronDrop s legs) := by
  unfold State.ronDrop
  (try dsimp only)
  repeat' (first
    | with_reducible assumption
    | with_reducible fail_if_no_progress refine Keeps.upd ?_ rfl rfl rfl rfl rfl rfl)

theorem placeSpare_keeps {zz : State} {s : State} {g j : Nat} {byHost : Bool} (hzz : Keeps zz s) :
    Keeps zz (State.placeSpare s g j byHost) := by
  unfold State.placeSpare
  (try dsimp only)
  repeat' (first
    | with_reducible assumption
    | with_reducible apply wr_keeps
    | with_reducible apply modGrp_keeps
    | with_reducible apply showGroup_keeps
    | with_reducible apply ronDrop_keeps)

theorem dropXpt_keeps {zz : State} {s : State} {g : Nat} (hzz : Keeps zz s) :
    Keeps zz (State.dropXpt s g) := by
  unfold State.dropXpt
  (try dsimp only)
  repeat' (first
    | with_reducible assumption
    | with_reducible apply set1_keeps
    | with_reducible apply clr_keeps
    | with_reducible apply Keeps.ite)

theorem beginSeq_keeps {zz : State} {s : State} {g : Nat} {q : LegSeq} (hzz : Keeps zz s) :
    Keeps zz (State.beginSeq s g q) := by
  unfold State.beginSeq
  (try dsimp only)
  repeat' (first
    | with_reducible assumption
    | with_reducible apply modGrp_keeps
    | with_reducible apply outShow_keeps)

theorem regrow_keeps {zz : State} {s : State} {g j : Nat} {keep : Bool} (hzz : Keeps zz s) :
    Keeps zz (State.regrow s g j keep) := by
  unfold State.regrow
  (try dsimp only)
  repeat' (first
    | with_reducible assumption
    | with_reducible apply failLeg_keeps
    | with_reducible apply placeSpare_keeps
    | with_reducible apply dropXpt_keeps
    | with_reducible apply beginSeq_keeps
    | with_reducible apply Keeps.ite)

theorem legTailDrop_keeps {zz : State} {s : State} {g j : Nat} (hzz : Keeps zz s) :
    Keeps zz (State.legTailDrop s g j) := by
  unfold State.legTailDrop
  (try dsimp only)
  repeat' (first
    | with_reducible assumption
    | with_reducible apply wr_keeps
    | with_reducible apply set1_keeps
    | with_reducible apply drawn_keeps
    | with_reducible apply ends_keeps
    | with_reducible apply outFault_keeps
    | with_reducible apply faultHold_keeps
    | with_reducible apply raiseNodeRepair_keeps
    | with_reducible apply failLeg_keeps
    | with_reducible apply placeSpare_keeps
    | with_reducible apply Keeps.ite)

theorem legServe_keeps {zz : State} {s : State} {g j : Nat} {keep : Bool} (hzz : Keeps zz s) :
    Keeps zz (State.legServe s g j keep) := by
  unfold State.legServe
  (try dsimp only)
  repeat' (first
    | with_reducible assumption
    | with_reducible apply regrow_keeps
    | with_reducible apply legTailDrop_keeps
    | with_reducible apply Keeps.ite)

theorem legFault_keeps {zz : State} {s : State} {g j : Nat} {keep : Bool} (hzz : Keeps zz s) :
    Keeps zz (State.legFault s g j keep) := by
  unfold State.legFault
  (try dsimp only)
  repeat' (first
    | with_reducible assumption
    | with_reducible apply takesUp_keeps
    | with_reducible apply fault_keeps
    | with_reducible apply legServe_keeps
    | with_reducible apply Keeps.ite)

theorem legsNext_keeps {zz : State} : ∀ {n : Nat} {s : State}, Keeps zz s → Keeps zz (s.legsNext n)
  | 0, _, h => h
  | _ + 1, _, h => by
    unfold State.legsNext
    split
    · exact h
    · exact Keeps.ite h (legsNext_keeps (legServe_keeps (takesUp_keeps h)))

theorem legDetected_keeps {zz : State} {s : State} {ch leg : Nat} (hzz : Keeps zz s) :
    Keeps zz (State.legDetected s ch leg) := by
  unfold State.legDetected
  (try dsimp only)
  repeat' (first
    | with_reducible assumption
    | with_reducible apply legFault_keeps
    | with_reducible apply Keeps.ite)

theorem execLegFault_keeps {zz : State} {chan : Fin 12} {legM : Bool} {s : State} (hzz : Keeps zz s) :
    OutKeeps zz (execLegFault chan legM s) := by
  unfold execLegFault
  (try dsimp only)
  repeat' (first
    | with_reducible assumption
    | with_reducible apply legDetected_keeps
    | with_reducible apply outNext)

theorem execLegRegrowRelease_keeps {zz : State} {g : Fin 3} {s : State} (hzz : Keeps zz s) :
    OutKeeps zz (execLegRegrowRelease g s) := by
  unfold execLegRegrowRelease
  (try dsimp only)
  repeat' (first
    | with_reducible assumption
    | (intro _; (try dsimp only))
    | with_reducible apply meets_keeps
    | with_reducible apply modSpk_keeps
    | with_reducible apply modGrp_keeps
    | with_reducible apply outShow_keeps
    | with_reducible apply legsNext_keeps
    | with_reducible apply Keeps.foldl
    | with_reducible apply outNext
    | with_reducible apply OutKeeps.ite
    | (split <;> try dsimp only))

theorem afterSettle_keeps {zz : State} {s : State} {ch : Nat} (hzz : Keeps zz s) :
    Keeps zz (State.afterSettle s ch) := by
  unfold State.afterSettle
  (try dsimp only)
  repeat' (first
    | with_reducible assumption
    | with_reducible apply clr_keeps
    | with_reducible apply modSpk_keeps
    | with_reducible apply tryUnmute_keeps
    | with_reducible apply stopChan_keeps
    | with_reducible apply holdNow_keeps
    | with_reducible apply restart_keeps
    | with_reducible apply Keeps.ite
    | (split <;> try dsimp only))

theorem execRegrowSettleEnd_keeps {zz : State} {g : Fin 3} {hiz : BitVec 16} {s : State} (hzz : Keeps zz s) :
    OutKeeps zz (execRegrowSettleEnd g hiz s) := by
  unfold execRegrowSettleEnd
  (try dsimp only)
  repeat' (first
    | with_reducible assumption
    | (intro _; (try dsimp only))
    | with_reducible apply repaired_keeps
    | with_reducible apply modGrp_keeps
    | with_reducible apply outShow_keeps
    | with_reducible apply raiseNodeRepair_keeps
    | with_reducible apply afterSettle_keeps
    | with_reducible apply Keeps.foldl
    | with_reducible apply outNext
    | with_reducible apply Keeps.ite
    | with_reducible apply OutKeeps.ite
    | (split <;> try dsimp only))

theorem execSliceDrop_keeps {zz : State} {chan : Fin 12} {legM : Bool} {slice : Fin 4} {s : State} (hzz : Keeps zz s) :
    OutKeeps zz (execSliceDrop chan legM slice s) := by
  unfold execSliceDrop
  (try dsimp only)
  repeat' (first
    | with_reducible assumption
    | with_reducible apply set1_keeps
    | with_reducible apply modGrp_keeps
    | with_reducible apply showGroup_keeps
    | with_reducible apply acSpoil_keeps
    | with_reducible apply outFault_keeps
    | with_reducible apply raiseNodeRepair_keeps
    | with_reducible apply ronDrop_keeps
    | with_reducible apply legFault_keeps
    | with_reducible apply outNext
    | with_reducible apply OutKeeps.ite)

theorem execSpareSelftest_keeps {zz : State} {g : Fin 3} {pass : Bool} {s : State} (hzz : Keeps zz s) :
    OutKeeps zz (execSpareSelftest g pass s) := by
  unfold execSpareSelftest
  (try dsimp only)
  repeat' (first
    | with_reducible assumption
    | with_reducible apply wr_keeps
    | with_reducible apply outFault_keeps
    | with_reducible apply raiseLegRepair_keeps
    | with_reducible apply outNext
    | with_reducible apply OutKeeps.ite)

theorem execLegSelftestDone_keeps {zz : State} {g : Fin 3} {node : Fin 8} {pass : Bool} {s : State} (hzz : Keeps zz s) :
    OutKeeps zz (execLegSelftestDone g node pass s) := by
  unfold execLegSelftestDone
  (try dsimp only)
  repeat' (first
    | with_reducible assumption
    | with_reducible apply wr_keeps
    | with_reducible apply outNext
    | with_reducible apply OutKeeps.ite)

theorem returnLeg_keeps {zz : State} {s : State} {g j : Nat} (hzz : Keeps zz s) :
    Keeps zz (State.returnLeg s g j) := by
  unfold State.returnLeg
  (try dsimp only)
  repeat' (first
    | with_reducible assumption
    | with_reducible apply modGrp_keeps)

theorem execXptTransfer_keeps {zz : State} {g : Fin 3} {s : State} (hzz : Keeps zz s) :
    OutKeeps zz (execXptTransfer g s) := by
  unfold execXptTransfer
  (try dsimp only)
  repeat' (first
    | with_reducible assumption
    | (intro _; (try dsimp only))
    | with_reducible apply wr_keeps
    | with_reducible apply clr_keeps
    | with_reducible apply raiseNodeRepair_keeps
    | with_reducible apply placeSpare_keeps
    | with_reducible apply dropXpt_keeps
    | with_reducible apply beginSeq_keeps
    | with_reducible apply returnLeg_keeps
    | with_reducible apply Keeps.foldl
    | with_reducible apply outNext
    | with_reducible apply Keeps.ite
    | with_reducible apply OutKeeps.ite)

end Sys2Proof.Machine
end

