-- ==== Sys2Proof/Laws/KeepsDiag.lean ====
section
/-!
SUPPORT. What the operations of Machine/Diag.lean keep (Laws/Keeps.lean).
-/

set_option linter.unusedTactic false
set_option linter.unreachableTactic false
set_option linter.unusedVariables false

namespace Sys2Proof.Machine

theorem execLoadDcTest_keeps {zz : State} {p : Packet} {s : State} (hzz : Keeps zz s) :
    OutKeeps zz (execLoadDcTest p s) := by
  unfold execLoadDcTest
  (try dsimp only)
  repeat' (first
    | with_reducible assumption
    | (intro _; (try dsimp only))
    | with_reducible exact bad_keeps
    | with_reducible exact busyWith_keeps
    | with_reducible apply withDomains_keeps
    | with_reducible apply card_keeps
    | with_reducible apply dcNone_keeps
    | with_reducible apply Keeps.foldl
    | with_reducible apply resDone
    | with_reducible apply resPend
    | with_reducible apply resRefuse
    | with_reducible apply ResKeeps.ite
    | (split <;> try dsimp only)
    | with_reducible fail_if_no_progress refine Keeps.upd ?_ rfl rfl rfl rfl rfl rfl)

theorem dcLeg_keeps {zz : State} {s : State} {g j : Nat} (hzz : Keeps zz s) :
    Keeps zz (State.dcLeg s g j) := by
  unfold State.dcLeg
  (try dsimp only)
  repeat' (first
    | with_reducible assumption
    | with_reducible apply wr_keeps
    | with_reducible apply outFault_keeps
    | with_reducible apply raiseLegRepair_keeps
    | with_reducible apply raiseNodeRepair_keeps
    | with_reducible apply failLeg_keeps
    | with_reducible apply placeSpare_keeps
    | with_reducible apply dropXpt_keeps
    | with_reducible apply Keeps.ite)

theorem execLoadDcChannelDone_keeps {zz : State} {own slave : ChanTest} {dc : DcReading} {s : State} (hzz : Keeps zz s) :
    OutKeeps zz (execLoadDcChannelDone own slave dc s) := by
  unfold execLoadDcChannelDone
  (try dsimp only)
  repeat' (first
    | with_reducible assumption
    | (intro _; (try dsimp only))
    | with_reducible apply setReg_keeps
    | with_reducible apply finishAll_keeps
    | with_reducible apply dcLeg_keeps
    | with_reducible apply Keeps.foldl
    | with_reducible apply outNext
    | with_reducible apply Keeps.ite
    | (split <;> try dsimp only)
    | with_reducible fail_if_no_progress refine Keeps.upd ?_ rfl rfl rfl rfl rfl rfl)

theorem execLoadAcTest_keeps {zz : State} {p : Packet} {s : State} (hzz : Keeps zz s) :
    OutKeeps zz (execLoadAcTest p s) := by
  unfold execLoadAcTest
  (try dsimp only)
  repeat' (first
    | with_reducible assumption
    | (intro _; (try dsimp only))
    | with_reducible apply setReg_keeps
    | with_reducible exact bad_keeps
    | with_reducible exact busyWith_keeps
    | with_reducible apply withDomains_keeps
    | with_reducible apply card_keeps
    | with_reducible apply modSpk_keeps
    | with_reducible apply beginCheck_keeps
    | with_reducible apply Keeps.foldl
    | with_reducible apply resDone
    | with_reducible apply resPend
    | with_reducible apply resRefuse
    | with_reducible apply Keeps.ite
    | with_reducible apply ResKeeps.ite
    | (split <;> try dsimp only)
    | with_reducible fail_if_no_progress refine Keeps.upd ?_ rfl rfl rfl rfl rfl rfl)

theorem execAcToneDone_keeps {zz : State} {mohm : Nat} {centideg : Int} {s : State} (hzz : Keeps zz s) :
    OutKeeps zz (execAcToneDone mohm centideg s) := by
  unfold execAcToneDone
  (try dsimp only)
  repeat' (first
    | with_reducible assumption
    | with_reducible apply diagPoll_keeps
    | with_reducible apply discharge_keeps
    | with_reducible apply outNext
    | with_reducible apply OutKeeps.ite
    | (split <;> try dsimp only)
    | with_reducible fail_if_no_progress refine Keeps.upd ?_ rfl rfl rfl rfl rfl rfl)

theorem execAcWindow_keeps {zz : State} {chan : Fin 12} {mohm : Nat} {centideg : Int} {s0 : State} (hzz : Keeps zz s0) :
    OutKeeps zz (execAcWindow chan mohm centideg s0) := by
  unfold execAcWindow
  (try dsimp only)
  repeat' (first
    | with_reducible assumption
    | with_reducible apply acWatch_keeps
    | with_reducible apply acEnd_keeps
    | with_reducible apply outNext
    | with_reducible apply OutKeeps.ite
    | (split <;> try dsimp only)
    | with_reducible fail_if_no_progress refine Keeps.upd ?_ rfl rfl rfl rfl rfl rfl)

theorem raiseJack_keeps {zz : State} {s : State} {kind button : Nat} (hzz : Keeps zz s) :
    Keeps zz (State.raiseJack s kind button) := by
  unfold State.raiseJack
  (try dsimp only)
  repeat' (first
    | with_reducible assumption
    | with_reducible apply raise_keeps)

theorem jackIn_keeps {zz : State} {s : State} (hzz : Keeps zz s) :
    Keeps zz (State.jackIn s) := by
  unfold State.jackIn
  (try dsimp only)
  repeat' (first
    | with_reducible assumption
    | with_reducible apply wr_keeps
    | with_reducible apply set1_keeps
    | with_reducible apply hpJack_keeps
    | with_reducible apply jackBias_keeps
    | with_reducible apply raiseJack_keeps)

theorem jackOut_keeps {zz : State} {s : State} (hzz : Keeps zz s) :
    Keeps zz (State.jackOut s) := by
  unfold State.jackOut
  (try dsimp only)
  repeat' (first
    | with_reducible assumption
    | with_reducible apply wr_keeps
    | with_reducible apply set1_keeps
    | with_reducible apply clr_keeps
    | with_reducible apply hpJack_keeps
    | with_reducible apply jackBias_keeps
    | with_reducible apply raiseJack_keeps)

theorem execJackInsert_keeps {zz : State} {s : State} (hzz : Keeps zz s) :
    OutKeeps zz (execJackInsert s) := by
  unfold execJackInsert
  (try dsimp only)
  repeat' (first
    | with_reducible assumption
    | with_reducible apply jackIn_keeps
    | with_reducible apply outNext
    | with_reducible apply Keeps.ite)

theorem execJackRemove_keeps {zz : State} {s : State} (hzz : Keeps zz s) :
    OutKeeps zz (execJackRemove s) := by
  unfold execJackRemove
  (try dsimp only)
  repeat' (first
    | with_reducible assumption
    | with_reducible apply jackOut_keeps
    | with_reducible apply outNext
    | with_reducible apply Keeps.ite)

theorem execJackClassify_keeps {zz : State} {ratio : BitVec 12} {s : State} (hzz : Keeps zz s) :
    OutKeeps zz (execJackClassify ratio s) := by
  unfold execJackClassify
  (try dsimp only)
  repeat' (first
    | with_reducible assumption
    | with_reducible apply wr_keeps
    | with_reducible apply jackBias_keeps
    | with_reducible apply raiseJack_keeps
    | with_reducible apply outNext
    | with_reducible apply OutKeeps.ite)

theorem buttonUp_keeps {zz : State} {s : State} (hzz : Keeps zz s) :
    Keeps zz (State.buttonUp s) := by
  unfold State.buttonUp
  (try dsimp only)
  repeat' (first
    | with_reducible assumption
    | with_reducible apply wr_keeps
    | with_reducible apply set1_keeps
    | with_reducible apply raiseJack_keeps
    | with_reducible apply Keeps.ite)

theorem execButtonPress_keeps {zz : State} {ratio : BitVec 12} {s : State} (hzz : Keeps zz s) :
    OutKeeps zz (execButtonPress ratio s) := by
  unfold execButtonPress
  (try dsimp only)
  repeat' (first
    | with_reducible assumption
    | with_reducible apply wr_keeps
    | with_reducible apply set1_keeps
    | with_reducible apply raiseJack_keeps
    | with_reducible apply buttonUp_keeps
    | with_reducible apply outNext
    | with_reducible apply OutKeeps.ite)

theorem execButtonRelease_keeps {zz : State} {ratio : BitVec 12} {s : State} (hzz : Keeps zz s) :
    OutKeeps zz (execButtonRelease ratio s) := by
  unfold execButtonRelease
  (try dsimp only)
  repeat' (first
    | with_reducible assumption
    | with_reducible apply wr_keeps
    | with_reducible apply buttonUp_keeps
    | with_reducible apply outNext
    | with_reducible apply OutKeeps.ite)

theorem execJackStatus_keeps {zz : State} {p : Packet} {s : State} (hzz : Keeps zz s) :
    OutKeeps zz (execJackStatus p s) := by
  unfold execJackStatus
  (try dsimp only)
  repeat' (first
    | with_reducible assumption
    | (intro _; (try dsimp only))
    | with_reducible apply card_keeps
    | with_reducible apply resDone)

end Sys2Proof.Machine
end

