-- ==== Sys2Proof/Laws/KeepsMadc.lean ====
section
/-!
SUPPORT. What the operations of Machine/Madc.lean keep (Laws/Keeps.lean).
-/

set_option linter.unusedTactic false
set_option linter.unreachableTactic false
set_option linter.unusedVariables false

namespace Sys2Proof.Machine

theorem modMadc_keeps {zz : State} {s : State} {f : MadcX → MadcX} (hzz : Keeps zz s) :
    Keeps zz (State.modMadc s f) := by
  unfold State.modMadc
  (try dsimp only)
  repeat' (first
    | with_reducible assumption
    | with_reducible fail_if_no_progress refine Keeps.upd ?_ rfl rfl rfl rfl rfl rfl)

theorem showRef_keeps {zz : State} {s : State} (hzz : Keeps zz s) :
    Keeps zz (State.showRef s) := by
  unfold State.showRef
  (try dsimp only)
  repeat' (first
    | with_reducible assumption
    | (intro _; (try dsimp only))
    | with_reducible apply wr_keeps
    | with_reducible apply Keeps.forEach)

theorem slotOver_keeps {zz : State} {s : State} {m : Nat} {conv : Option ((Nat × Nat × Nat) × Option Nat)} {new : List MadcReq} (hzz : Keeps zz s) :
    Keeps zz (State.slotOver s m conv new) := by
  unfold State.slotOver
  (try dsimp only)
  repeat' (first
    | with_reducible assumption
    | with_reducible apply sat_keeps
    | with_reducible apply modMadc_keeps
    | with_reducible apply Keeps.ite)

theorem slotNext_keeps {zz : State} {s : State} (hzz : Keeps zz s) :
    Keeps zz (State.slotNext s) := by
  unfold State.slotNext
  (try dsimp only)
  repeat' (first
    | with_reducible assumption
    | with_reducible apply modMadc_keeps
    | with_reducible apply showRef_keeps)

theorem pvddMeasured_keeps {zz : State} {s : State} {g n d : Nat} (hzz : Keeps zz s) :
    Keeps zz (State.pvddMeasured s g n d) := by
  unfold State.pvddMeasured
  (try dsimp only)
  repeat' (first
    | with_reducible assumption
    | with_reducible apply wr_keeps
    | with_reducible apply set1_keeps
    | with_reducible apply modGrp_keeps
    | with_reducible apply Keeps.ite)

theorem tdacEnd_keeps {zz : State} {s : State} {st detail : Nat} (hzz : Keeps zz s) :
    Keeps zz (State.tdacEnd s st detail) := by
  unfold State.tdacEnd
  (try dsimp only)
  repeat' (first
    | with_reducible assumption
    | with_reducible apply setReg_keeps
    | with_reducible apply finishAll_keeps
    | with_reducible apply modMadc_keeps
    | with_reducible apply Keeps.ite
    | (split <;> try dsimp only))

theorem madcDrop_keeps {zz : State} {s : State} {m : Nat} (hzz : Keeps zz s) :
    Keeps zz (State.madcDrop s m) := by
  unfold State.madcDrop
  (try dsimp only)
  repeat' (first
    | with_reducible assumption
    | with_reducible apply wr_keeps
    | with_reducible apply begins_keeps
    | with_reducible apply fault_keeps
    | with_reducible apply toChipAs_keeps
    | with_reducible apply modMadc_keeps
    | with_reducible apply showRef_keeps
    | with_reducible apply tdacEnd_keeps
    | with_reducible apply Keeps.ite)

theorem madcFails_keeps {zz : State} {s : State} {m : Nat} (hzz : Keeps zz s) :
    Keeps zz (State.madcFails s m) := by
  unfold State.madcFails
  (try dsimp only)
  repeat' (first
    | with_reducible assumption
    | with_reducible apply takesUp_keeps
    | with_reducible apply fault_keeps
    | with_reducible apply madcDrop_keeps
    | with_reducible apply Keeps.ite)

theorem madcNext_keeps {zz : State} {s : State} (hzz : Keeps zz s) :
    Keeps zz (State.madcNext s) := by
  unfold State.madcNext
  (try dsimp only)
  repeat' (first
    | with_reducible assumption
    | with_reducible apply madcDrop_keeps
    | with_reducible apply Keeps.ite
    | (split <;> try dsimp only))

theorem execMadcArbitrate_keeps {zz : State} {low0 high0 low1 high1 : Nat} {s : State} (hzz : Keeps zz s) :
    OutKeeps zz (execMadcArbitrate low0 high0 low1 high1 s) := by
  unfold execMadcArbitrate
  (try dsimp only)
  repeat' (first
    | with_reducible assumption
    | with_reducible apply set1_keeps
    | with_reducible apply ends_keeps
    | with_reducible apply toChip_keeps
    | with_reducible apply modMadc_keeps
    | with_reducible apply tdacEnd_keeps
    | with_reducible apply madcFails_keeps
    | with_reducible apply madcNext_keeps
    | with_reducible apply outNext
    | with_reducible apply Keeps.ite
    | with_reducible apply OutKeeps.ite)

theorem execMadcFailover_keeps {zz : State} {s : State} (hzz : Keeps zz s) :
    OutKeeps zz (execMadcFailover s) := by
  unfold execMadcFailover
  (try dsimp only)
  repeat' (first
    | with_reducible assumption
    | with_reducible apply wr_keeps
    | with_reducible apply set1_keeps
    | with_reducible apply repaired_keeps
    | with_reducible apply diagStop_keeps
    | with_reducible apply jackBias_keeps
    | with_reducible apply modMadc_keeps
    | with_reducible apply tdacEnd_keeps
    | with_reducible apply madcNext_keeps
    | with_reducible apply outNext
    | with_reducible apply OutKeeps.ite)

theorem execMadcCoreTest_keeps {zz : State} {madc : Fin 2} {low high : Nat} {s : State} (hzz : Keeps zz s) :
    OutKeeps zz (execMadcCoreTest madc low high s) := by
  unfold execMadcCoreTest
  (try dsimp only)
  repeat' (first
    | with_reducible assumption
    | with_reducible apply set1_keeps
    | with_reducible apply madcFails_keeps
    | with_reducible apply outNext
    | with_reducible apply OutKeeps.ite)

theorem plausible_keeps {zz : State} {s : State} {c0 c1 : Nat} (hzz : Keeps zz s) :
    Keeps zz (State.plausible s c0 c1) := by
  unfold State.plausible
  (try dsimp only)
  repeat' (first
    | with_reducible assumption
    | with_reducible apply wr_keeps
    | with_reducible apply set1_keeps
    | with_reducible apply begins_keeps
    | with_reducible apply fault_keeps
    | with_reducible apply modMadc_keeps
    | with_reducible apply pvddMeasured_keeps
    | with_reducible apply Keeps.ite)

theorem ranged_keeps {zz : State} {s : State} {m c : Nat} (hzz : Keeps zz s) :
    Keeps zz (State.ranged s m c) := by
  unfold State.ranged
  (try dsimp only)
  repeat' (first
    | with_reducible assumption
    | with_reducible apply wr_keeps
    | with_reducible apply toChip_keeps
    | with_reducible apply modMadc_keeps
    | with_reducible apply pvddMeasured_keeps
    | with_reducible apply Keeps.ite)

theorem convEnds_keeps {zz : State} {s : State} {m : Nat} {e : Nat × Nat × Nat} {c : MadcConv} (hzz : Keeps zz s) :
    Keeps zz (State.convEnds s m e c) := by
  unfold State.convEnds
  (try dsimp only)
  repeat' (first
    | with_reducible assumption
    | with_reducible apply set1_keeps
    | with_reducible apply modSpk_keeps
    | with_reducible apply pvddMeasured_keeps
    | with_reducible apply madcFails_keeps
    | with_reducible apply Keeps.ite)

theorem plausEnds_keeps {zz : State} {s : State} {c0 c1 : MadcConv} (hzz : Keeps zz s) :
    Keeps zz (State.plausEnds s c0 c1) := by
  unfold State.plausEnds
  (try dsimp only)
  repeat' (first
    | with_reducible assumption
    | with_reducible apply set1_keeps
    | with_reducible apply madcFails_keeps
    | with_reducible apply plausible_keeps
    | with_reducible apply ranged_keeps
    | with_reducible apply Keeps.ite)

theorem execMadcSlot_keeps {zz : State} {convs : MadcConv × MadcConv} {s : State} (hzz : Keeps zz s) :
    OutKeeps zz (execMadcSlot convs s) := by
  unfold execMadcSlot
  (try dsimp only)
  repeat' (first
    | with_reducible assumption
    | with_reducible apply slotOver_keeps
    | with_reducible apply slotNext_keeps
    | with_reducible apply convEnds_keeps
    | with_reducible apply plausEnds_keeps
    | with_reducible apply outNext
    | with_reducible apply Keeps.ite
    | (split <;> try dsimp only))

theorem execMrefCheck_keeps {zz : State} {madc : Fin 2} {ok : Bool} {s : State} (hzz : Keeps zz s) :
    OutKeeps zz (execMrefCheck madc ok s) := by
  unfold execMrefCheck
  (try dsimp only)
  repeat' (first
    | with_reducible assumption
    | with_reducible apply set1_keeps
    | with_reducible apply repCount_keeps
    | with_reducible apply fault_keeps
    | with_reducible apply showRef_keeps
    | with_reducible apply outNext
    | with_reducible apply OutKeeps.ite)

theorem madcResume_keeps {zz : State} {s : State} (hzz : Keeps zz s) :
    Keeps zz (State.madcResume s) := by
  unfold State.madcResume
  (try dsimp only)
  repeat' (first
    | with_reducible assumption
    | with_reducible apply clr_keeps
    | with_reducible apply Keeps.ite)

theorem execMadcRead_keeps {zz : State} {p : Packet} {volts : List Nat} {setl refns : Bool} {s : State} (hzz : Keeps zz s) :
    OutKeeps zz (execMadcRead p volts setl refns s) := by
  unfold execMadcRead
  (try dsimp only)
  repeat' (first
    | with_reducible assumption
    | (intro _; (try dsimp only))
    | with_reducible apply setReg_keeps
    | with_reducible apply set1_keeps
    | with_reducible exact bad_keeps
    | with_reducible apply card_keeps
    | with_reducible apply modMadc_keeps
    | with_reducible apply resDone
    | with_reducible apply resRefuse
    | with_reducible apply Keeps.ite
    | with_reducible apply ResKeeps.ite)

theorem execTdacTest_keeps {zz : State} {p : Packet} {volts1 volts2 : Nat} {s : State} (hzz : Keeps zz s) :
    OutKeeps zz (execTdacTest p volts1 volts2 s) := by
  unfold execTdacTest
  (try dsimp only)
  repeat' (first
    | with_reducible assumption
    | (intro _; (try dsimp only))
    | with_reducible apply setReg_keeps
    | with_reducible exact bad_keeps
    | with_reducible apply unlessBusy_keeps
    | with_reducible apply card_keeps
    | with_reducible apply modMadc_keeps
    | with_reducible apply resDone
    | with_reducible apply resPend
    | with_reducible apply resRefuse
    | with_reducible apply ResKeeps.ite)

end Sys2Proof.Machine
end

