-- ==== Sys2Proof/Laws/KeepsProtect.lean ====
section
/-!
SUPPORT. What the operations of Machine/Protect.lean keep (Laws/Keeps.lean).
-/

set_option linter.unusedTactic false
set_option linter.unreachableTactic false
set_option linter.unusedVariables false

namespace Sys2Proof.Machine

theorem execIlimTrip_keeps {zz : State} {chan : Fin 12} {legM : Bool} {period : TripPeriod} {s : State} (hzz : Keeps zz s) :
    OutKeeps zz (execIlimTrip chan legM period s) := by
  unfold execIlimTrip
  (try dsimp only)
  repeat' (first
    | with_reducible assumption
    | with_reducible apply set1_keeps
    | with_reducible apply modSpk_keeps
    | with_reducible apply acSpoil_keeps
    | with_reducible apply faultHold_keeps
    | with_reducible apply outNext
    | with_reducible apply OutKeeps.ite)

theorem execShortClassify_keeps {zz : State} {chan : Fin 12} {own slave : ChanTest} {s : State} (hzz : Keeps zz s) :
    OutKeeps zz (execShortClassify chan own slave s) := by
  unfold execShortClassify
  (try dsimp only)
  repeat' (first
    | with_reducible assumption
    | (intro _; (try dsimp only))
    | with_reducible apply wr_keeps
    | with_reducible apply recordShort_keeps
    | with_reducible apply legFault_keeps
    | with_reducible apply Keeps.foldl
    | with_reducible apply outNext
    | with_reducible apply OutKeeps.ite)

theorem execRetryPulse_keeps {zz : State} {chan : Fin 12} {limited : Bool} {tests : ChanTest × ChanTest} {s : State} (hzz : Keeps zz s) :
    OutKeeps zz (execRetryPulse chan limited tests s) := by
  unfold execRetryPulse
  (try dsimp only)
  repeat' (first
    | with_reducible assumption
    | with_reducible apply set1_keeps
    | with_reducible apply clr_keeps
    | with_reducible apply restart_keeps
    | with_reducible apply outNext
    | with_reducible apply OutKeeps.ite)

theorem execDcWindow_keeps {zz : State} {chan : Fin 12} {measured commanded : Int} {s : State} (hzz : Keeps zz s) :
    OutKeeps zz (execDcWindow chan measured commanded s) := by
  unfold execDcWindow
  (try dsimp only)
  repeat' (first
    | with_reducible assumption
    | with_reducible apply set1_keeps
    | with_reducible apply modSpk_keeps
    | with_reducible apply outFault_keeps
    | with_reducible apply faultHold_keeps
    | with_reducible apply outNext
    | with_reducible apply OutKeeps.ite)

theorem pvddDrop_keeps {zz : State} {s : State} {n : Nat} (hzz : Keeps zz s) :
    Keeps zz (State.pvddDrop s n) := by
  unfold State.pvddDrop
  (try dsimp only)
  repeat' (first
    | with_reducible assumption
    | with_reducible apply modSpk_keeps
    | with_reducible apply toOff_keeps
    | with_reducible apply chanLost_keeps
    | with_reducible apply Keeps.ite)

theorem pvddOut_keeps {zz : State} {s : State} {g code : Nat} (hzz : Keeps zz s) :
    Keeps zz (State.pvddOut s g code) := by
  unfold State.pvddOut
  (try dsimp only)
  repeat' (first
    | with_reducible assumption
    | (intro _; (try dsimp only))
    | with_reducible apply set1_keeps
    | with_reducible apply clr_keeps
    | with_reducible apply diagAbort_keeps
    | with_reducible apply outFault_keeps
    | with_reducible apply pvddDrop_keeps
    | with_reducible apply Keeps.forEach
    | with_reducible apply Keeps.ite)

theorem execPvdduv_keeps {zz : State} {g : Fin 3} {s : State} (hzz : Keeps zz s) :
    OutKeeps zz (execPvdduv g s) := by
  unfold execPvdduv
  (try dsimp only)
  repeat' (first
    | with_reducible assumption
    | with_reducible apply pvddOut_keeps
    | with_reducible apply outNext)

theorem execPvddov_keeps {zz : State} {g : Fin 3} {s : State} (hzz : Keeps zz s) :
    OutKeeps zz (execPvddov g s) := by
  unfold execPvddov
  (try dsimp only)
  repeat' (first
    | with_reducible assumption
    | with_reducible apply modGrp_keeps
    | with_reducible apply pvddOut_keeps
    | with_reducible apply outNext)

theorem execPvddRestart_keeps {zz : State} {g : Fin 3} {s : State} (hzz : Keeps zz s) :
    OutKeeps zz (execPvddRestart g s) := by
  unfold execPvddRestart
  (try dsimp only)
  repeat' (first
    | with_reducible assumption
    | (intro _; (try dsimp only))
    | with_reducible apply set1_keeps
    | with_reducible apply faultGone_keeps
    | with_reducible apply modGrp_keeps
    | with_reducible apply beginCheck_keeps
    | with_reducible apply Keeps.forEach
    | with_reducible apply outNext
    | with_reducible apply Keeps.ite)

theorem raiseThermal_keeps {zz : State} {s : State} {g kind : Nat} (hzz : Keeps zz s) :
    Keeps zz (State.raiseThermal s g kind) := by
  unfold State.raiseThermal
  (try dsimp only)
  repeat' (first
    | with_reducible assumption
    | with_reducible apply raise_keeps)

theorem foldBack_keeps {zz : State} {s : State} {g : Nat} (hzz : Keeps zz s) :
    Keeps zz (State.foldBack s g) := by
  unfold State.foldBack
  (try dsimp only)
  repeat' (first
    | with_reducible assumption
    | (intro _; (try dsimp only))
    | with_reducible apply wr_keeps
    | with_reducible apply modGrp_keeps
    | with_reducible apply raiseThermal_keeps
    | with_reducible apply Keeps.forEach
    | with_reducible apply Keeps.ite)

theorem tshut_keeps {zz : State} {s : State} {g : Nat} (hzz : Keeps zz s) :
    Keeps zz (State.tshut s g) := by
  unfold State.tshut
  (try dsimp only)
  repeat' (first
    | with_reducible assumption
    | (intro _; (try dsimp only))
    | with_reducible apply set1_keeps
    | with_reducible apply clr_keeps
    | with_reducible apply faultGone_keeps
    | with_reducible apply modGrp_keeps
    | with_reducible apply outFault_keeps
    | with_reducible apply faultHold_keeps
    | with_reducible apply restart_keeps
    | with_reducible apply raiseThermal_keeps
    | with_reducible apply Keeps.forMask
    | with_reducible apply Keeps.ite)

theorem execThermalSample_keeps {zz : State} {g : Fin 3} {t0 t1 t2 t3 : BitVec 8} {s : State} (hzz : Keeps zz s) :
    OutKeeps zz (execThermalSample g t0 t1 t2 t3 s) := by
  unfold execThermalSample
  (try dsimp only)
  repeat' (first
    | with_reducible assumption
    | with_reducible apply wr_keeps
    | with_reducible apply foldBack_keeps
    | with_reducible apply tshut_keeps
    | with_reducible apply outNext)

end Sys2Proof.Machine
end

