-- ==== Sys2Proof/Laws/KeepsInputs.lean ====
section
/-!
SUPPORT. What the operations of Machine/Inputs.lean keep (Laws/Keeps.lean).
-/

set_option linter.unusedTactic false
set_option linter.unreachableTactic false
set_option linter.unusedVariables false

namespace Sys2Proof.Machine

theorem execAinCfg_keeps {zz : State} {p : Packet} {s : State} (hzz : Keeps zz s) :
    OutKeeps zz (execAinCfg p s) := by
  unfold execAinCfg
  (try dsimp only)
  repeat' (first
    | with_reducible assumption
    | (intro _; (try dsimp only))
    | with_reducible apply Res.ok_keeps
    | with_reducible exact bad_keeps
    | with_reducible apply unlessBusy_keeps
    | with_reducible apply putReg_keeps
    | with_reducible apply withDomains_keeps
    | with_reducible apply card_keeps
    | with_reducible apply aadcChanged_keeps
    | with_reducible apply Keeps.foldl
    | with_reducible apply ResKeeps.ite)

theorem execPgaApply_keeps {zz : State} {n : Fin 4} {s : State} (hzz : Keeps zz s) :
    OutKeeps zz (execPgaApply n s) := by
  unfold execPgaApply
  (try dsimp only)
  repeat' (first
    | with_reducible assumption
    | with_reducible apply wr_keeps
    | with_reducible apply clr_keeps
    | with_reducible apply outNext
    | with_reducible apply Keeps.ite)

theorem execMicbiasCfg_keeps {zz : State} {p : Packet} {s : State} (hzz : Keeps zz s) :
    OutKeeps zz (execMicbiasCfg p s) := by
  unfold execMicbiasCfg
  (try dsimp only)
  repeat' (first
    | with_reducible assumption
    | (intro _; (try dsimp only))
    | with_reducible apply Res.ok_keeps
    | with_reducible exact bad_keeps
    | with_reducible apply unlessBusy_keeps
    | with_reducible apply putReg_keeps
    | with_reducible apply card_keeps
    | with_reducible apply micbChanged_keeps
    | with_reducible apply ResKeeps.ite)

theorem execMicbiasRampDone_keeps {zz : State} {n : Fin 2} {s : State} (hzz : Keeps zz s) :
    OutKeeps zz (execMicbiasRampDone n s) := by
  unfold execMicbiasRampDone
  (try dsimp only)
  repeat' (first
    | with_reducible assumption
    | with_reducible apply clr_keeps
    | with_reducible apply modInp_keeps
    | with_reducible apply outNext)

theorem execPdmCfg_keeps {zz : State} {p : Packet} {s : State} (hzz : Keeps zz s) :
    OutKeeps zz (execPdmCfg p s) := by
  unfold execPdmCfg
  (try dsimp only)
  repeat' (first
    | with_reducible assumption
    | (intro _; (try dsimp only))
    | with_reducible apply Res.ok_keeps
    | with_reducible exact bad_keeps
    | with_reducible apply unlessBusy_keeps
    | with_reducible apply putReg_keeps
    | with_reducible apply releasePads_keeps
    | with_reducible apply withDomains_keeps
    | with_reducible apply card_keeps
    | with_reducible apply pdmChanged_keeps
    | with_reducible apply Keeps.ite
    | with_reducible apply ResKeeps.ite)

end Sys2Proof.Machine
end

