-- ==== Sys2Proof/Laws/KeepsWake.lean ====
section
/-!
SUPPORT. What the operations of Machine/Wake.lean keep (Laws/Keeps.lean).
-/

set_option linter.unusedTactic false
set_option linter.unreachableTactic false
set_option linter.unusedVariables false

namespace Sys2Proof.Machine

theorem modTad_keeps {zz : State} {s : State} {f : Tad → Tad} (hzz : Keeps zz s) :
    Keeps zz (State.modTad s f) := by
  unfold State.modTad
  (try dsimp only)
  repeat' (first
    | with_reducible assumption
    | with_reducible fail_if_no_progress refine Keeps.upd ?_ rfl rfl rfl rfl rfl rfl)

theorem modWkd_keeps {zz : State} {s : State} {f : WkdX → WkdX} (hzz : Keeps zz s) :
    Keeps zz (State.modWkd s f) := by
  unfold State.modWkd
  (try dsimp only)
  repeat' (first
    | with_reducible assumption
    | with_reducible fail_if_no_progress refine Keeps.upd ?_ rfl rfl rfl rfl rfl rfl)

theorem raiseWake_keeps {zz : State} {s : State} {w0 : Word} {d : Nat} (hzz : Keeps zz s) :
    Keeps zz (State.raiseWake s w0 d) := by
  unfold State.raiseWake
  (try dsimp only)
  repeat' (first
    | with_reducible assumption
    | with_reducible apply raise_keeps)

theorem raiseWakeOnly_keeps {zz : State} {s : State} {w0 : Word} (hzz : Keeps zz s) :
    Keeps zz (State.raiseWakeOnly s w0) := by
  unfold State.raiseWakeOnly
  (try dsimp only)
  repeat' (first
    | with_reducible assumption
    | with_reducible apply raise_keeps)

theorem openAt_keeps {zz : State} {s : State} {start d : Nat} {w0 : Word} (hzz : Keeps zz s) :
    Keeps zz (State.openAt s start d w0) := by
  unfold State.openAt
  (try dsimp only)
  repeat' (first
    | with_reducible assumption
    | with_reducible apply wr_keeps
    | with_reducible apply wr64_keeps
    | with_reducible apply modTad_keeps
    | with_reducible apply raiseWake_keeps)

theorem openGate_keeps {zz : State} {s0 : State} {d pre : Nat} {w0 : Word} (hzz : Keeps zz s0) :
    Keeps zz (State.openGate s0 d pre w0) := by
  unfold State.openGate
  (try dsimp only)
  repeat' (first
    | with_reducible assumption
    | with_reducible apply modTad_keeps
    | with_reducible apply raiseWake_keeps
    | with_reducible apply openAt_keeps
    | with_reducible apply Keeps.ite)

theorem closeHandovers_keeps {zz : State} {s : State} (hzz : Keeps zz s) :
    Keeps zz (State.closeHandovers s) := by
  unfold State.closeHandovers
  (try dsimp only)
  repeat' (first
    | with_reducible assumption
    | (intro _; (try dsimp only))
    | with_reducible apply closeStr_keeps
    | with_reducible apply Keeps.foldl)

theorem sealGate_keeps {zz : State} {s : State} (hzz : Keeps zz s) :
    Keeps zz (State.sealGate s) := by
  unfold State.sealGate
  (try dsimp only)
  repeat' (first
    | with_reducible assumption
    | with_reducible apply wr_keeps
    | with_reducible apply modTad_keeps
    | with_reducible apply closeHandovers_keeps
    | with_reducible apply Keeps.ite)

theorem closeGate_keeps {zz : State} {s : State} (hzz : Keeps zz s) :
    Keeps zz (State.closeGate s) := by
  unfold State.closeGate
  (try dsimp only)
  repeat' (first
    | with_reducible assumption
    | with_reducible apply openAt_keeps
    | with_reducible apply sealGate_keeps
    | with_reducible apply Keeps.ite
    | (split <;> try dsimp only))

theorem clearTad_keeps {zz s : State} (k : Keeps zz s) : Keeps zz s.clearTad :=
  k.trans ⟨Sparse.wf_filter _, id, id, id, id, id, id, id, fun _ _ h => h, rfl⟩

theorem zeroise_keeps {zz : State} {s : State} (hzz : Keeps zz s) :
    Keeps zz (State.zeroise s) := by
  unfold State.zeroise
  (try dsimp only)
  repeat' (first
    | with_reducible assumption
    | with_reducible apply wr_keeps
    | with_reducible apply modTad_keeps
    | with_reducible apply sealGate_keeps
    | with_reducible apply clearTad_keeps)

theorem showOldest_keeps {zz : State} {s : State} (hzz : Keeps zz s) :
    Keeps zz (State.showOldest s) := by
  unfold State.showOldest
  (try dsimp only)
  repeat' (first
    | with_reducible assumption
    | with_reducible apply wr64_keeps)

theorem execZeroiseDone_keeps {zz : State} {s : State} (hzz : Keeps zz s) :
    OutKeeps zz (execZeroiseDone s) := by
  unfold execZeroiseDone
  (try dsimp only)
  repeat' (first
    | with_reducible assumption
    | with_reducible apply wr_keeps
    | with_reducible apply wr64_keeps
    | with_reducible apply modTad_keeps
    | with_reducible apply openAt_keeps
    | with_reducible apply outNext
    | with_reducible apply OutKeeps.ite
    | (split <;> try dsimp only))

theorem execGateTimeout_keeps {zz : State} {s : State} (hzz : Keeps zz s) :
    OutKeeps zz (execGateTimeout s) := by
  unfold execGateTimeout
  (try dsimp only)
  repeat' (first
    | with_reducible assumption
    | with_reducible apply closeGate_keeps
    | with_reducible apply outNext
    | with_reducible apply Keeps.ite)

theorem execDecimCfg_keeps {zz : State} {p : Packet} {s : State} (hzz : Keeps zz s) :
    OutKeeps zz (execDecimCfg p s) := by
  unfold execDecimCfg
  (try dsimp only)
  repeat' (first
    | with_reducible assumption
    | (intro _; (try dsimp only))
    | with_reducible apply setReg_keeps
    | with_reducible apply wr_keeps
    | with_reducible apply Res.ok_keeps
    | with_reducible exact bad_keeps
    | with_reducible apply unlessBusy_keeps
    | with_reducible apply putReg_keeps
    | with_reducible apply withDomains_keeps
    | with_reducible apply card_keeps
    | with_reducible apply pdmChanged_keeps
    | with_reducible apply modTad_keeps
    | with_reducible apply zeroise_keeps
    | with_reducible apply showOldest_keeps
    | with_reducible apply resRefuse
    | with_reducible apply Keeps.ite
    | with_reducible apply ResKeeps.ite)

theorem putTap_keeps {zz : State} {s : State} {a n v : Nat} (hzz : Keeps zz s) :
    Keeps zz (State.putTap s a n v) := by
  unfold State.putTap
  (try dsimp only)
  repeat' (first
    | with_reducible assumption
    | (intro _; (try dsimp only))
    | with_reducible apply setByte_keeps
    | with_reducible apply Keeps.forEach)

theorem wkdFrame_keeps {zz : State} {s : State} {fr : List Sample} (hzz : Keeps zz s) :
    Keeps zz (State.wkdFrame s fr) := by
  unfold State.wkdFrame
  (try dsimp only)
  repeat' (first
    | with_reducible assumption
    | with_reducible apply set1_keeps
    | with_reducible apply modWkd_keeps
    | with_reducible apply Keeps.ite)

theorem pressAt_keeps {zz : State} {s : State} {d : Nat} (hzz : Keeps zz s) :
    Keeps zz (State.pressAt s d) := by
  unfold State.pressAt
  (try dsimp only)
  repeat' (first
    | with_reducible assumption
    | with_reducible apply set1_keeps
    | with_reducible apply drawn_keeps
    | with_reducible apply raiseWakeOnly_keeps
    | with_reducible apply openGate_keeps
    | with_reducible apply Keeps.ite)

theorem biasLimit_keeps {zz : State} {s : State} {limits : BitVec 2} (hzz : Keeps zz s) :
    Keeps zz (State.biasLimit s limits) := by
  unfold State.biasLimit
  (try dsimp only)
  repeat' (first
    | with_reducible assumption
    | with_reducible apply set1_keeps
    | with_reducible apply Keeps.ite)

theorem execTapPeriod_keeps {zz : State} {tap : TapInput} {s : State} (hzz : Keeps zz s) :
    OutKeeps zz (execTapPeriod tap s) := by
  unfold execTapPeriod
  (try dsimp only)
  repeat' (first
    | with_reducible assumption
    | (intro _; (try dsimp only))
    | with_reducible apply set1_keeps
    | with_reducible apply wr64_keeps
    | with_reducible apply modInp_keeps
    | with_reducible apply runsPass_keeps
    | with_reducible apply modTad_keeps
    | with_reducible apply showOldest_keeps
    | with_reducible apply putTap_keeps
    | with_reducible apply wkdFrame_keeps
    | with_reducible apply pressAt_keeps
    | with_reducible apply biasLimit_keeps
    | with_reducible apply Keeps.forEach
    | with_reducible apply outNext
    | with_reducible apply Keeps.ite
    | with_reducible apply OutKeeps.ite)

theorem execWkdLoad_keeps {zz : State} {p : Packet} {s : State} (hzz : Keeps zz s) :
    OutKeeps zz (execWkdLoad p s) := by
  unfold execWkdLoad
  (try dsimp only)
  repeat' (first
    | with_reducible assumption
    | (intro _; (try dsimp only))
    | with_reducible exact bad_keeps
    | with_reducible apply unlessBusy_keeps
    | with_reducible apply withDomains_keeps
    | with_reducible apply card_keeps
    | with_reducible apply resPend
    | with_reducible apply resRefuse
    | with_reducible apply ResKeeps.ite)

theorem execWkdLoadDone_keeps {zz : State} {s : State} (hzz : Keeps zz s) :
    OutKeeps zz (execWkdLoadDone s) := by
  unfold execWkdLoadDone
  (try dsimp only)
  repeat' (first
    | with_reducible assumption
    | (intro _; (try dsimp only))
    | with_reducible apply setReg_keeps
    | with_reducible apply set1_keeps
    | with_reducible apply authFailed_keeps
    | with_reducible apply finish_keeps
    | with_reducible apply deliverPoison_keeps
    | with_reducible apply modWkd_keeps
    | with_reducible apply Keeps.foldl
    | with_reducible apply outNext
    | with_reducible apply Keeps.ite
    | (split <;> try dsimp only))

theorem execWkdEnable_keeps {zz : State} {p : Packet} {s : State} (hzz : Keeps zz s) :
    OutKeeps zz (execWkdEnable p s) := by
  unfold execWkdEnable
  (try dsimp only)
  repeat' (first
    | with_reducible assumption
    | (intro _; (try dsimp only))
    | with_reducible apply setReg_keeps
    | with_reducible apply Res.ok_keeps
    | with_reducible exact bad_keeps
    | with_reducible apply unlessBusy_keeps
    | with_reducible apply withDomains_keeps
    | with_reducible apply card_keeps
    | with_reducible apply modWkd_keeps
    | with_reducible apply resRefuse
    | with_reducible apply Keeps.ite
    | with_reducible apply ResKeeps.ite
    | (split <;> try dsimp only))

theorem execWkdHop_keeps {zz : State} {score : BitVec 8} {s : State} (hzz : Keeps zz s) :
    OutKeeps zz (execWkdHop score s) := by
  unfold execWkdHop
  (try dsimp only)
  repeat' (first
    | with_reducible assumption
    | with_reducible apply wr_keeps
    | with_reducible apply set1_keeps
    | with_reducible apply clr_keeps
    | with_reducible apply sat_keeps
    | with_reducible apply modWkd_keeps
    | with_reducible apply openGate_keeps
    | with_reducible apply outNext
    | with_reducible apply Keeps.ite
    | with_reducible apply OutKeeps.ite
    | (split <;> try dsimp only))

theorem execPttCfg_keeps {zz : State} {p : Packet} {s : State} (hzz : Keeps zz s) :
    OutKeeps zz (execPttCfg p s) := by
  unfold execPttCfg
  (try dsimp only)
  repeat' (first
    | with_reducible assumption
    | (intro _; (try dsimp only))
    | with_reducible apply wr_keeps
    | with_reducible apply clr_keeps
    | with_reducible apply Res.ok_keeps
    | with_reducible apply unlessBusy_keeps
    | with_reducible apply card_keeps
    | with_reducible apply modTad_keeps
    | with_reducible apply Keeps.ite)

theorem execPttPress_keeps {zz : State} {s : State} (hzz : Keeps zz s) :
    OutKeeps zz (execPttPress s) := by
  unfold execPttPress
  (try dsimp only)
  repeat' (first
    | with_reducible assumption
    | with_reducible apply pressAt_keeps
    | with_reducible apply outNext
    | with_reducible apply Keeps.ite)

theorem execPttRelease_keeps {zz : State} {s : State} (hzz : Keeps zz s) :
    OutKeeps zz (execPttRelease s) := by
  unfold execPttRelease
  (try dsimp only)
  repeat' (first
    | with_reducible assumption
    | with_reducible apply clr_keeps
    | with_reducible apply modTad_keeps
    | with_reducible apply raiseWakeOnly_keeps
    | with_reducible apply closeGate_keeps
    | with_reducible apply outNext
    | with_reducible apply Keeps.ite
    | with_reducible apply OutKeeps.ite)

theorem handoverClose_keeps {zz : State} {s : State} (hzz : Keeps zz s) :
    ResKeeps zz (State.handoverClose s) := by
  unfold State.handoverClose
  (try dsimp only)
  repeat' (first
    | with_reducible assumption
    | with_reducible apply drawn_keeps
    | with_reducible apply closeGate_keeps
    | with_reducible apply resDone)

theorem handover_keeps {zz : State} {s : State} {ws : List Word} (hzz : Keeps zz s) :
    ResKeeps zz (State.handover s ws) := by
  unfold State.handover
  (try dsimp only)
  repeat' (first
    | with_reducible assumption
    | with_reducible apply wr64_keeps
    | with_reducible exact bad_keeps
    | with_reducible apply unlessBusy_keeps
    | with_reducible apply openContext_keeps
    | with_reducible apply openStr_keeps
    | with_reducible apply modTad_keeps
    | with_reducible apply resDone
    | with_reducible apply resRefuse
    | with_reducible apply ResKeeps.ite
    | (split <;> try dsimp only))

theorem execWakeHandover_keeps {zz : State} {p : Packet} {s : State} (hzz : Keeps zz s) :
    OutKeeps zz (execWakeHandover p s) := by
  unfold execWakeHandover
  (try dsimp only)
  repeat' (first
    | with_reducible assumption
    | (intro _; (try dsimp only))
    | with_reducible apply card_keeps
    | with_reducible apply handoverClose_keeps
    | with_reducible apply handover_keeps
    | with_reducible apply ResKeeps.ite)

theorem execWakeHandoverClose_keeps {zz : State} {p : Packet} {s : State} (hzz : Keeps zz s) :
    OutKeeps zz (execWakeHandoverClose p s) := by
  unfold execWakeHandoverClose
  (try dsimp only)
  repeat' (first
    | with_reducible assumption
    | (intro _; (try dsimp only))
    | with_reducible apply card_keeps
    | with_reducible apply handoverClose_keeps)

end Sys2Proof.Machine
end

