-- ==== Sys2Proof/Laws/KeepsPowerCore.lean ====
section
/-!
SUPPORT. What the operations of Machine/PowerCore.lean keep (Laws/Keeps.lean).
-/

set_option linter.unusedTactic false
set_option linter.unreachableTactic false
set_option linter.unusedVariables false

namespace Sys2Proof.Machine

theorem modPwr_keeps {zz : State} {s : State} {f : Pwr → Pwr} (hzz : Keeps zz s) :
    Keeps zz (State.modPwr s f) := by
  unfold State.modPwr
  (try dsimp only)
  repeat' (first
    | with_reducible assumption
    | with_reducible fail_if_no_progress refine Keeps.upd ?_ rfl rfl rfl rfl rfl rfl)

theorem setState_keeps {zz : State} {s : State} {st : Nat} (hzz : Keeps zz s) :
    Keeps zz (State.setState s st) := by
  unfold State.setState
  (try dsimp only)
  repeat' (first
    | with_reducible assumption
    | with_reducible apply wr_keeps)

theorem latchWake_keeps {zz : State} {s : State} {code bit pins : Nat} (hzz : Keeps zz s) :
    Keeps zz (State.latchWake s code bit pins) := by
  unfold State.latchWake
  (try dsimp only)
  repeat' (first
    | with_reducible assumption
    | with_reducible apply wr_keeps
    | with_reducible apply wr64_keeps
    | with_reducible apply Keeps.ite)

theorem showGpio_keeps {zz : State} {s : State} (hzz : Keeps zz s) :
    Keeps zz (State.showGpio s) := by
  unfold State.showGpio
  (try dsimp only)
  repeat' (first
    | with_reducible assumption
    | with_reducible apply wr_keeps)

theorem unstallLost_keeps {zz : State} {s : State} {ds : List Nat} (hzz : Keeps zz s) :
    Keeps zz (State.unstallLost s ds) := by
  unfold State.unstallLost
  (try dsimp only)
  repeat' (first
    | with_reducible assumption
    | (intro _; (try dsimp only))
    | with_reducible apply hostErr_keeps
    | with_reducible apply Keeps.foldl
    | (split <;> try dsimp only)
    | with_reducible fail_if_no_progress refine Keeps.upd ?_ rfl rfl rfl rfl rfl rfl)

theorem transDown_keeps {zz : State} {s : State} {ds : List Nat} (hzz : Keeps zz s) :
    Keeps zz (State.transDown s ds) := by
  unfold State.transDown
  (try dsimp only)
  repeat' (first
    | with_reducible assumption
    | (intro _; (try dsimp only))
    | with_reducible apply clr_keeps
    | with_reducible apply finishAll_keeps
    | with_reducible apply modPwr_keeps
    | with_reducible apply unstallLost_keeps
    | with_reducible apply Keeps.foldl
    | with_reducible apply Keeps.ite)

theorem loseWkd_keeps {zz : State} {s : State} (hzz : Keeps zz s) :
    Keeps zz (State.loseWkd s) := by
  unfold State.loseWkd
  (try dsimp only)
  repeat' (first
    | with_reducible assumption
    | with_reducible apply modWkd_keeps)

theorem bankDown_keeps {zz : State} {s : State} {b : Nat} (hzz : Keeps zz s) :
    Keeps zz (State.bankDown s b) := by
  unfold State.bankDown
  (try dsimp only)
  repeat' (first
    | with_reducible assumption
    | with_reducible apply wr_keeps
    | with_reducible apply loseBank_keeps
    | with_reducible apply marchLeaves_keeps
    | with_reducible apply Keeps.ite)

theorem showClks_keeps {zz : State} {s : State} (hzz : Keeps zz s) :
    Keeps zz (State.showClks s) := by
  unfold State.showClks
  (try dsimp only)
  repeat' (first
    | with_reducible assumption
    | (intro _; (try dsimp only))
    | with_reducible apply setRole_keeps
    | with_reducible apply Keeps.forEach)

theorem spareUp_keeps {zz : State} {s : State} (hzz : Keeps zz s) :
    Keeps zz (State.spareUp s) := by
  unfold State.spareUp
  (try dsimp only)
  repeat' (first
    | with_reducible assumption
    | (intro _; (try dsimp only))
    | with_reducible apply domUp_keeps
    | with_reducible apply Keeps.forMask)

theorem leavePlay_keeps {zz : State} {s : State} {fast : Bool} (hzz : Keeps zz s) :
    Keeps zz (State.leavePlay s fast) := by
  unfold State.leavePlay
  (try dsimp only)
  repeat' (first
    | with_reducible assumption
    | with_reducible apply hpMuteAll_keeps
    | with_reducible apply spkMuteAll_keeps)

theorem reachIdle_keeps {zz : State} {s : State} (hzz : Keeps zz s) :
    Keeps zz (State.reachIdle s) := by
  unfold State.reachIdle
  (try dsimp only)
  repeat' (first
    | with_reducible assumption
    | with_reducible apply acDrop_keeps
    | with_reducible apply modGraph_keeps
    | with_reducible apply setState_keeps
    | with_reducible apply showClks_keeps)

theorem reachPlay_keeps {zz : State} {s : State} (hzz : Keeps zz s) :
    Keeps zz (State.reachPlay s) := by
  unfold State.reachPlay
  (try dsimp only)
  repeat' (first
    | with_reducible assumption
    | (intro _; (try dsimp only))
    | with_reducible apply wr_keeps
    | with_reducible apply modOut_keeps
    | with_reducible apply outShow_keeps
    | with_reducible apply tryUnmute_keeps
    | with_reducible apply hpJack_keeps
    | with_reducible apply setState_keeps
    | with_reducible apply showClks_keeps
    | with_reducible apply Keeps.forEach
    | with_reducible apply Keeps.ite)

theorem leaveIdle_keeps {zz : State} {s : State} (hzz : Keeps zz s) :
    Keeps zz (State.leaveIdle s) := by
  unfold State.leaveIdle
  (try dsimp only)
  repeat' (first
    | with_reducible assumption
    | (intro _; (try dsimp only))
    | with_reducible apply finishAll_keeps
    | with_reducible apply modOut_keeps
    | with_reducible apply diagStop_keeps
    | with_reducible apply hpStopAll_keeps
    | with_reducible apply modCv_keeps
    | with_reducible apply cvSettleAll_keeps
    | with_reducible apply spkStopAll_keeps
    | with_reducible apply Keeps.forEach
    | with_reducible apply Keeps.ite)

theorem reachListen_keeps {zz : State} {s : State} (hzz : Keeps zz s) :
    Keeps zz (State.reachListen s) := by
  unfold State.reachListen
  (try dsimp only)
  repeat' (first
    | with_reducible assumption
    | with_reducible apply clr_keeps
    | with_reducible apply finishAll_keeps
    | with_reducible apply modGraph_keeps
    | with_reducible apply swStop_keeps
    | with_reducible apply setState_keeps
    | with_reducible apply transDown_keeps)

theorem upToIdle_keeps {zz : State} {s : State} (hzz : Keeps zz s) :
    Keeps zz (State.upToIdle s) := by
  unfold State.upToIdle
  (try dsimp only)
  repeat' (first
    | with_reducible assumption
    | with_reducible apply set1_keeps
    | with_reducible apply alertEval_keeps
    | with_reducible apply swStart_keeps
    | with_reducible apply setState_keeps
    | with_reducible apply spareUp_keeps)

theorem teardown_keeps {zz : State} {s : State} (hzz : Keeps zz s) :
    Keeps zz (State.teardown s) := by
  unfold State.teardown
  (try dsimp only)
  repeat' (first
    | with_reducible assumption
    | (intro _; (try dsimp only))
    | with_reducible apply finishAll_keeps
    | with_reducible apply finishFor_keeps
    | with_reducible apply closeStr_keeps
    | with_reducible apply modGraph_keeps
    | with_reducible apply unloadGraph_keeps
    | with_reducible apply setPort_keeps
    | with_reducible apply Keeps.forEach
    | with_reducible apply Keeps.foldl)

theorem beginZeroise_keeps {zz : State} {s : State} (hzz : Keeps zz s) :
    Keeps zz (State.beginZeroise s) := by
  unfold State.beginZeroise
  (try dsimp only)
  repeat' (first
    | with_reducible assumption
    | with_reducible apply clr_keeps
    | with_reducible apply modTad_keeps
    | with_reducible apply modWkd_keeps
    | with_reducible apply zeroise_keeps)

theorem save_keeps {zz : State} {s : State} (hzz : Keeps zz s) :
    Keeps zz (State.save s) := by
  unfold State.save
  (try dsimp only)
  repeat' (first
    | with_reducible assumption
    | (intro _; (try dsimp only))
    | with_reducible apply closeSession_keeps
    | with_reducible apply finishAll_keeps
    | with_reducible apply transDown_keeps
    | with_reducible apply loseWkd_keeps
    | with_reducible apply bankDown_keeps
    | with_reducible apply Keeps.forEach)

theorem arm_keeps {zz : State} {s : State} (hzz : Keeps zz s) :
    Keeps zz (State.arm s) := by
  unfold State.arm
  (try dsimp only)
  repeat' (first
    | with_reducible assumption
    | with_reducible apply setReg_keeps
    | with_reducible apply wr_keeps
    | with_reducible apply setState_keeps
    | with_reducible apply latchWake_keeps
    | with_reducible apply Keeps.ite
    | with_reducible fail_if_no_progress refine Keeps.upd ?_ rfl rfl rfl rfl rfl rfl)

theorem dropRegs_keeps {zz s : State} (k : Keeps zz s) : Keeps zz s.dropRegs :=
  k.trans ⟨id, Sparse.wf_filter _, id, id, id, id, id, id, fun _ _ h => h, rfl⟩

theorem gatedRegs_keeps {zz : State} {s : State} (hzz : Keeps zz s) :
    Keeps zz (State.gatedRegs s) := by
  unfold State.gatedRegs
  (try dsimp only)
  repeat' (first
    | with_reducible assumption
    | (intro _; (try dsimp only))
    | with_reducible apply wr_keeps
    | with_reducible apply setRole_keeps
    | with_reducible apply fuseBound_keeps
    | with_reducible apply dropRegs_keeps
    | with_reducible apply Keeps.forEach
    | with_reducible apply Keeps.foldl
    | with_reducible apply Keeps.ite)

theorem gated_keeps {zz s : State} (k : Keeps zz s) : Keeps zz s.gated := by
  have hr := gatedRegs_keeps (Keeps.refl s)
  refine k.trans ?_
  unfold State.gated
  generalize s.gatedRegs = r at hr
  exact ⟨hr.mem, hr.regs, fun _ => rfl, hr.replies, hr.events, hr.reports, hr.slots, le_map _, hr.fuses, hr.queue⟩

theorem clocksUp_keeps {zz : State} {s : State} (hzz : Keeps zz s) :
    Keeps zz (State.clocksUp s) := by
  unfold State.clocksUp
  (try dsimp only)
  repeat' (first
    | with_reducible assumption
    | with_reducible apply setReg_keeps
    | with_reducible apply wr_keeps
    | with_reducible apply set1_keeps)

theorem monitorUp_keeps {zz : State} {s : State} (hzz : Keeps zz s) :
    Keeps zz (State.monitorUp s) := by
  unfold State.monitorUp
  (try dsimp only)
  repeat' (first
    | with_reducible assumption
    | with_reducible apply wr_keeps
    | with_reducible apply set1_keeps
    | with_reducible apply showFn_keeps)

end Sys2Proof.Machine
end

