-- ==== Sys2Proof/Laws/KeepsPower.lean ====
section
/-!
SUPPORT. What the operations of Machine/Power.lean keep (Laws/Keeps.lean).
-/

set_option linter.unusedTactic false
set_option linter.unreachableTactic false
set_option linter.unusedVariables false

namespace Sys2Proof.Machine

theorem beginStep_keeps {zz : State} {s : State} {fast : Bool} (hzz : Keeps zz s) :
    Keeps zz (State.beginStep s fast) := by
  unfold State.beginStep
  (try dsimp only)
  repeat' (first
    | with_reducible assumption
    | with_reducible apply leavePlay_keeps
    | with_reducible apply leaveIdle_keeps
    | with_reducible apply teardown_keeps
    | with_reducible apply Keeps.ite)

theorem beginTrans_keeps {zz : State} {s : State} {target wtarget : Nat} {fast : Bool} (hzz : Keeps zz s) :
    Keeps zz (State.beginTrans s target wtarget fast) := by
  unfold State.beginTrans
  (try dsimp only)
  repeat' (first
    | with_reducible assumption
    | with_reducible apply wr_keeps
    | with_reducible apply set1_keeps
    | with_reducible apply modPwr_keeps
    | with_reducible apply beginStep_keeps)

theorem endTrans_keeps {zz : State} {s : State} (hzz : Keeps zz s) :
    Keeps zz (State.endTrans s) := by
  unfold State.endTrans
  (try dsimp only)
  repeat' (first
    | with_reducible assumption
    | with_reducible apply wr_keeps
    | with_reducible apply clr_keeps
    | with_reducible apply modPwr_keeps)

theorem arrive_keeps {zz : State} {s : State} (hzz : Keeps zz s) :
    Keeps zz (State.arrive s) := by
  unfold State.arrive
  (try dsimp only)
  repeat' (first
    | with_reducible assumption
    | with_reducible apply finishFor_keeps
    | with_reducible apply endTrans_keeps)

theorem rest_keeps {zz : State} {s : State} (hzz : Keeps zz s) :
    Keeps zz (State.rest s) := by
  unfold State.rest
  (try dsimp only)
  repeat' (first
    | with_reducible assumption
    | with_reducible apply finishFor_keeps
    | with_reducible apply endTrans_keeps)

theorem nextStep_keeps {zz : State} {s : State} (hzz : Keeps zz s) :
    Keeps zz (State.nextStep s) := by
  unfold State.nextStep
  (try dsimp only)
  repeat' (first
    | with_reducible assumption
    | with_reducible apply beginStep_keeps
    | with_reducible apply arrive_keeps
    | with_reducible apply rest_keeps
    | with_reducible apply Keeps.ite)

theorem stepDone_keeps {zz : State} {s : State} (hzz : Keeps zz s) :
    Keeps zz (State.stepDone s) := by
  unfold State.stepDone
  (try dsimp only)
  repeat' (first
    | with_reducible assumption
    | with_reducible apply wr_keeps
    | with_reducible apply stopRunning_keeps
    | with_reducible apply reachIdle_keeps
    | with_reducible apply reachPlay_keeps
    | with_reducible apply reachListen_keeps
    | with_reducible apply upToIdle_keeps
    | with_reducible apply beginZeroise_keeps
    | with_reducible apply rest_keeps
    | with_reducible apply nextStep_keeps
    | with_reducible apply Keeps.ite)

theorem execPowerStepDone_keeps {zz : State} {s : State} (hzz : Keeps zz s) :
    OutKeeps zz (execPowerStepDone s) := by
  unfold execPowerStepDone
  (try dsimp only)
  repeat' (first
    | with_reducible assumption
    | with_reducible apply setReg_keeps
    | with_reducible apply wr_keeps
    | with_reducible apply fresh_keeps
    | with_reducible apply save_keeps
    | with_reducible apply arm_keeps
    | with_reducible apply rest_keeps
    | with_reducible apply stepDone_keeps
    | with_reducible apply outNext
    | with_reducible apply OutKeeps.ite)

theorem execPowerState_keeps {zz : State} {p : Packet} {s : State} (hzz : Keeps zz s) :
    OutKeeps zz (execPowerState p s) := by
  unfold execPowerState
  (try dsimp only)
  repeat' (first
    | with_reducible assumption
    | (intro _; (try dsimp only))
    | with_reducible apply wr_keeps
    | with_reducible apply Res.ok_keeps
    | with_reducible exact bad_keeps
    | with_reducible apply finishFor_keeps
    | with_reducible apply card_keeps
    | with_reducible apply beginTrans_keeps
    | with_reducible apply resPend
    | with_reducible apply resRefuse
    | with_reducible apply ResKeeps.ite)

theorem execBrumateWindowEnd_keeps {zz : State} {s : State} (hzz : Keeps zz s) :
    OutKeeps zz (execBrumateWindowEnd s) := by
  unfold execBrumateWindowEnd
  (try dsimp only)
  repeat' (first
    | with_reducible assumption
    | with_reducible apply wr_keeps
    | with_reducible apply clr_keeps
    | with_reducible apply gated_keeps
    | with_reducible apply outNext
    | with_reducible apply OutKeeps.ite)

theorem newConfig_keeps {zz : State} {s : State} (hzz : Keeps zz s) :
    Keeps zz (State.newConfig s) := by
  unfold State.newConfig
  (try dsimp only)
  repeat' (first
    | with_reducible assumption
    | with_reducible fail_if_no_progress refine Keeps.upd ?_ rfl rfl rfl rfl rfl rfl)

theorem execBrumateExit_keeps {zz : State} {plug : Bool} {s : State} (hzz : Keeps zz s) :
    OutKeeps zz (execBrumateExit plug s) := by
  unfold execBrumateExit
  (try dsimp only)
  repeat' (first
    | with_reducible assumption
    | (intro _; (try dsimp only))
    | with_reducible apply wr_keeps
    | with_reducible apply set1_keeps
    | with_reducible apply papolRuns_keeps
    | with_reducible apply releasePads_keeps
    | with_reducible apply respare_keeps
    | with_reducible apply modPwr_keeps
    | with_reducible apply clocksUp_keeps
    | with_reducible apply monitorUp_keeps
    | with_reducible apply newConfig_keeps
    | with_reducible apply Keeps.forEach
    | with_reducible apply outNext
    | with_reducible apply Keeps.ite
    | with_reducible apply OutKeeps.ite)

theorem execBrumateArrive_keeps {zz : State} {s : State} (hzz : Keeps zz s) :
    OutKeeps zz (execBrumateArrive s) := by
  unfold execBrumateArrive
  (try dsimp only)
  repeat' (first
    | with_reducible assumption
    | with_reducible apply wr_keeps
    | with_reducible apply clr_keeps
    | with_reducible apply raise_keeps
    | with_reducible apply alertEval_keeps
    | with_reducible apply swStart_keeps
    | with_reducible apply jackIn_keeps
    | with_reducible apply jackOut_keeps
    | with_reducible apply modPwr_keeps
    | with_reducible apply setState_keeps
    | with_reducible apply transDown_keeps
    | with_reducible apply spareUp_keeps
    | with_reducible apply arrive_keeps
    | with_reducible apply outNext
    | with_reducible apply Keeps.ite
    | with_reducible apply OutKeeps.ite
    | (split <;> try dsimp only))

theorem execWakeBusMatch_keeps {zz : State} {s : State} (hzz : Keeps zz s) :
    OutKeeps zz (execWakeBusMatch s) := by
  unfold execWakeBusMatch
  (try dsimp only)
  repeat' (first
    | with_reducible assumption
    | with_reducible apply latchWake_keeps
    | with_reducible apply outNext
    | with_reducible apply Keeps.ite)

theorem execPttWake_keeps {zz : State} {s : State} (hzz : Keeps zz s) :
    OutKeeps zz (execPttWake s) := by
  unfold execPttWake
  (try dsimp only)
  repeat' (first
    | with_reducible assumption
    | with_reducible apply latchWake_keeps
    | with_reducible apply outNext
    | with_reducible apply Keeps.ite)

theorem execGpioWake_keeps {zz : State} {levels : BitVec 8} {s : State} (hzz : Keeps zz s) :
    OutKeeps zz (execGpioWake levels s) := by
  unfold execGpioWake
  (try dsimp only)
  repeat' (first
    | with_reducible assumption
    | with_reducible apply raiseWakeOnly_keeps
    | with_reducible apply modPwr_keeps
    | with_reducible apply latchWake_keeps
    | with_reducible apply showGpio_keeps
    | with_reducible apply outNext
    | with_reducible apply Keeps.ite
    | with_reducible apply OutKeeps.ite)

theorem execWakeCfg_keeps {zz : State} {p : Packet} {s : State} (hzz : Keeps zz s) :
    OutKeeps zz (execWakeCfg p s) := by
  unfold execWakeCfg
  (try dsimp only)
  repeat' (first
    | with_reducible assumption
    | (intro _; (try dsimp only))
    | with_reducible apply Res.ok_keeps
    | with_reducible exact bad_keeps
    | with_reducible apply putReg_keeps
    | with_reducible apply card_keeps
    | with_reducible apply raiseWakeOnly_keeps
    | with_reducible apply Keeps.ite
    | with_reducible apply ResKeeps.ite)

theorem execSysOnDemand_keeps {zz : State} {s : State} (hzz : Keeps zz s) :
    OutKeeps zz (execSysOnDemand s) := by
  unfold execSysOnDemand
  (try dsimp only)
  repeat' (first
    | with_reducible assumption
    | with_reducible apply set1_keeps
    | with_reducible apply outNext
    | with_reducible apply Keeps.ite)

theorem execPowerPermit_keeps {zz : State} {p : Packet} {s : State} (hzz : Keeps zz s) :
    OutKeeps zz (execPowerPermit p s) := by
  unfold execPowerPermit
  (try dsimp only)
  repeat' (first
    | with_reducible assumption
    | (intro _; (try dsimp only))
    | with_reducible apply Res.ok_keeps
    | with_reducible exact bad_keeps
    | with_reducible apply putReg_keeps
    | with_reducible apply card_keeps
    | with_reducible apply ResKeeps.ite)

theorem addChange_keeps {zz : State} {s : State} {d : Nat} {up : Bool} (hzz : Keeps zz s) :
    Keeps zz (State.addChange s d up) := by
  unfold State.addChange
  (try dsimp only)
  repeat' (first
    | with_reducible assumption
    | with_reducible apply modPwr_keeps)

theorem joinChange_keeps {zz : State} {s : State} {d : Nat} (hzz : Keeps zz s) :
    Keeps zz (State.joinChange s d) := by
  unfold State.joinChange
  (try dsimp only)
  repeat' (first
    | with_reducible assumption
    | with_reducible apply modPwr_keeps)

theorem reverseDown_keeps {zz : State} {s : State} {d : Nat} (hzz : Keeps zz s) :
    Keeps zz (State.reverseDown s d) := by
  unfold State.reverseDown
  (try dsimp only)
  repeat' (first
    | with_reducible assumption
    | with_reducible apply finishAll_keeps
    | with_reducible apply modPwr_keeps)

theorem execPowerDomainOn_keeps {zz : State} {p : Packet} {s : State} (hzz : Keeps zz s) :
    OutKeeps zz (execPowerDomainOn p s) := by
  unfold execPowerDomainOn
  (try dsimp only)
  repeat' (first
    | with_reducible assumption
    | (intro _; (try dsimp only))
    | with_reducible apply Res.ok_keeps
    | with_reducible exact bad_keeps
    | with_reducible apply card_keeps
    | with_reducible apply addChange_keeps
    | with_reducible apply joinChange_keeps
    | with_reducible apply reverseDown_keeps
    | with_reducible apply resPend
    | with_reducible apply resRefuse
    | with_reducible apply ResKeeps.ite
    | (split <;> try dsimp only))

theorem domAbort_keeps {zz : State} {s : State} {d : Nat} (hzz : Keeps zz s) :
    Keeps zz (State.domAbort s d) := by
  unfold State.domAbort
  (try dsimp only)
  repeat' (first
    | with_reducible assumption
    | (intro _; (try dsimp only))
    | with_reducible apply finishAll_keeps
    | with_reducible apply abortStr_keeps
    | with_reducible apply Keeps.foldl)

theorem beginDown_keeps {zz : State} {s : State} {d : Nat} (hzz : Keeps zz s) :
    Keeps zz (State.beginDown s d) := by
  unfold State.beginDown
  (try dsimp only)
  repeat' (first
    | with_reducible assumption
    | with_reducible apply zeroise_keeps
    | with_reducible apply marchLeaves_keeps
    | with_reducible apply addChange_keeps
    | with_reducible apply Keeps.ite)

theorem domainOffBody_keeps {zz : State} {force : Bool} {ws : List Word} {s : State} (hzz : Keeps zz s) :
    ResKeeps zz (domainOffBody force ws s) := by
  unfold domainOffBody
  (try dsimp only)
  repeat' (first
    | with_reducible assumption
    | with_reducible apply Res.ok_keeps
    | with_reducible exact bad_keeps
    | with_reducible apply joinChange_keeps
    | with_reducible apply domAbort_keeps
    | with_reducible apply beginDown_keeps
    | with_reducible apply resPend
    | with_reducible apply resRefuse
    | with_reducible apply ResKeeps.ite
    | (split <;> try dsimp only))

theorem execPowerDomainOff_keeps {zz : State} {p : Packet} {s : State} (hzz : Keeps zz s) :
    OutKeeps zz (execPowerDomainOff p s) := by
  unfold execPowerDomainOff
  (try dsimp only)
  repeat' (first
    | with_reducible assumption
    | (intro _; (try dsimp only))
    | with_reducible apply card_keeps
    | with_reducible apply domainOffBody_keeps)

theorem execPowerDomainOffForce_keeps {zz : State} {p : Packet} {s : State} (hzz : Keeps zz s) :
    OutKeeps zz (execPowerDomainOffForce p s) := by
  unfold execPowerDomainOffForce
  (try dsimp only)
  repeat' (first
    | with_reducible assumption
    | (intro _; (try dsimp only))
    | with_reducible apply card_keeps
    | with_reducible apply domainOffBody_keeps)

theorem domDone_keeps {zz : State} {s : State} {d : Nat} (hzz : Keeps zz s) :
    Keeps zz (State.domDone s d) := by
  unfold State.domDone
  (try dsimp only)
  repeat' (first
    | with_reducible assumption
    | with_reducible apply wr_keeps
    | with_reducible apply clr_keeps
    | with_reducible apply finishAll_keeps
    | with_reducible apply domUp_keeps
    | with_reducible apply modPwr_keeps
    | with_reducible apply loseWkd_keeps
    | with_reducible apply bankDown_keeps
    | with_reducible apply Keeps.ite
    | (split <;> try dsimp only))

end Sys2Proof.Machine
end

