-- ==== Sys2Proof/Laws/KeepsAgeing.lean ====
section
/-!
SUPPORT. What the operations of Machine/Ageing.lean keep (Laws/Keeps.lean).
-/

set_option linter.unusedTactic false
set_option linter.unreachableTactic false
set_option linter.unusedVariables false

namespace Sys2Proof.Machine

theorem modAge_keeps {zz : State} {s : State} {f : AgeX → AgeX} (hzz : Keeps zz s) :
    Keeps zz (State.modAge s f) := by
  unfold State.modAge
  (try dsimp only)
  repeat' (first
    | with_reducible assumption
    | with_reducible fail_if_no_progress refine Keeps.upd ?_ rfl rfl rfl rfl rfl rfl)

theorem ringAccept_keeps {zz : State} {s : State} {p : Nat} {d temp : Int} (hzz : Keeps zz s) :
    Keeps zz (State.ringAccept s p d temp) := by
  unfold State.ringAccept
  (try dsimp only)
  repeat' (first
    | with_reducible assumption
    | with_reducible apply wr_keeps
    | with_reducible apply set1_keeps
    | with_reducible apply modAge_keeps
    | (split <;> try dsimp only))

theorem ringWindow_keeps {zz : State} {s : State} {w : RingWindow} (hzz : Keeps zz s) :
    Keeps zz (State.ringWindow s w) := by
  unfold State.ringWindow
  (try dsimp only)
  repeat' (first
    | with_reducible assumption
    | (intro _; (try dsimp only))
    | with_reducible apply clr_keeps
    | with_reducible apply ringAccept_keeps
    | with_reducible apply Keeps.forEach
    | with_reducible apply Keeps.ite
    | (split <;> try dsimp only))

theorem execRingOscWindow_keeps {zz : State} {counts : List (Nat × Nat)} {temp0 temp1 : Int} {s : State} (hzz : Keeps zz s) :
    OutKeeps zz (execRingOscWindow counts temp0 temp1 s) := by
  unfold execRingOscWindow
  (try dsimp only)
  repeat' (first
    | with_reducible assumption
    | with_reducible apply ringWindow_keeps
    | with_reducible apply outNext
    | with_reducible apply Keeps.ite)

theorem ringStale_keeps {zz : State} {s : State} (hzz : Keeps zz s) :
    Keeps zz (State.ringStale s) := by
  unfold State.ringStale
  (try dsimp only)
  repeat' (first
    | with_reducible assumption
    | (intro _; (try dsimp only))
    | with_reducible apply clr_keeps
    | with_reducible apply Keeps.forEach
    | with_reducible apply Keeps.ite)

theorem showRho_keeps {zz : State} {s : State} {n : Nat} (hzz : Keeps zz s) :
    Keeps zz (State.showRho s n) := by
  unfold State.showRho
  (try dsimp only)
  repeat' (first
    | with_reducible assumption
    | with_reducible apply wr_keeps
    | with_reducible apply Keeps.ite)

theorem execRonSample_keeps {zz : State} {chan : Fin 12} {legM high : Bool} {codes : RonCodes} {s : State} (hzz : Keeps zz s) :
    OutKeeps zz (execRonSample chan legM high codes s) := by
  unfold execRonSample
  (try dsimp only)
  repeat' (first
    | with_reducible assumption
    | with_reducible apply wr_keeps
    | with_reducible apply modAge_keeps
    | with_reducible apply showRho_keeps
    | with_reducible apply outNext
    | with_reducible apply OutKeeps.ite)

theorem raiseAgeing_keeps {zz : State} {s : State} {kind chan value : Nat} (hzz : Keeps zz s) :
    Keeps zz (State.raiseAgeing s kind chan value) := by
  unfold State.raiseAgeing
  (try dsimp only)
  repeat' (first
    | with_reducible assumption
    | with_reducible apply raise_keeps)

theorem planFloor_keeps {zz : State} {s : State} (hzz : Keeps zz s) :
    Keeps zz (State.planFloor s) := by
  unfold State.planFloor
  (try dsimp only)
  repeat' (first
    | with_reducible assumption
    | with_reducible apply wr_keeps
    | with_reducible apply set1_keeps
    | with_reducible apply clr_keeps
    | with_reducible apply faultGone_keeps
    | with_reducible apply toChip_keeps
    | with_reducible apply raiseAgeing_keeps
    | with_reducible apply Keeps.ite
    | (split <;> try dsimp only))

theorem request_keeps {zz : State} {s : State} {v : Nat} (hzz : Keeps zz s) :
    Keeps zz (State.request s v) := by
  unfold State.request
  (try dsimp only)
  repeat' (first
    | with_reducible assumption
    | with_reducible apply set1_keeps
    | with_reducible apply modAge_keeps
    | with_reducible apply raiseAgeing_keeps
    | with_reducible apply Keeps.ite)

theorem planChan_keeps {zz : State} {s : State} {n : Nat} (hzz : Keeps zz s) :
    Keeps zz (State.planChan s n) := by
  unfold State.planChan
  (try dsimp only)
  repeat' (first
    | with_reducible assumption
    | (intro _; (try dsimp only))
    | with_reducible apply wr_keeps
    | with_reducible apply drawn_keeps
    | with_reducible apply showLegs_keeps
    | with_reducible apply modAge_keeps
    | with_reducible apply raiseAgeing_keeps
    | with_reducible apply Keeps.foldl
    | with_reducible apply Keeps.ite)

theorem setCap_keeps {zz : State} {s : State} {g c : Nat} (hzz : Keeps zz s) :
    Keeps zz (State.setCap s g c) := by
  unfold State.setCap
  (try dsimp only)
  repeat' (first
    | with_reducible assumption
    | with_reducible apply wr_keeps
    | with_reducible apply modClk_keeps
    | with_reducible apply showSw_keeps)

theorem planCap_keeps {zz : State} {s : State} {g : Nat} (hzz : Keeps zz s) :
    Keeps zz (State.planCap s g) := by
  unfold State.planCap
  (try dsimp only)
  repeat' (first
    | with_reducible assumption
    | with_reducible apply modAge_keeps
    | with_reducible apply raiseAgeing_keeps
    | with_reducible apply setCap_keeps
    | with_reducible apply Keeps.ite)

theorem planRest_keeps {zz : State} {s : State} (hzz : Keeps zz s) :
    Keeps zz (State.planRest s) := by
  unfold State.planRest
  (try dsimp only)
  repeat' (first
    | with_reducible assumption
    | (intro _; (try dsimp only))
    | with_reducible apply planChan_keeps
    | with_reducible apply planCap_keeps
    | with_reducible apply Keeps.forEach)

theorem replan_keeps {zz : State} {s : State} (hzz : Keeps zz s) :
    Keeps zz (State.replan s) := by
  unfold State.replan
  (try dsimp only)
  repeat' (first
    | with_reducible assumption
    | with_reducible apply planFloor_keeps
    | with_reducible apply request_keeps
    | with_reducible apply planRest_keeps
    | (split <;> try dsimp only))

theorem execReplanRun_keeps {zz : State} {s : State} (hzz : Keeps zz s) :
    OutKeeps zz (execReplanRun s) := by
  unfold execReplanRun
  (try dsimp only)
  repeat' (first
    | with_reducible assumption
    | with_reducible apply modAge_keeps
    | with_reducible apply replan_keeps
    | with_reducible apply outNext
    | with_reducible apply Keeps.ite
    | with_reducible apply OutKeeps.ite)

theorem planDue_keeps {zz : State} {s : State} (hzz : Keeps zz s) :
    Keeps zz (State.planDue s) := by
  unfold State.planDue
  (try dsimp only)
  repeat' (first
    | with_reducible assumption
    | with_reducible apply modAge_keeps
    | with_reducible apply replan_keeps
    | with_reducible apply Keeps.ite)

theorem execReplan_keeps {zz : State} {p : Packet} {counts : List (List (Nat × Nat))} {temps : List (Int × Int)} {s : State} (hzz : Keeps zz s) :
    OutKeeps zz (execReplan p counts temps s) := by
  unfold execReplan
  (try dsimp only)
  repeat' (first
    | with_reducible assumption
    | (intro _; (try dsimp only))
    | with_reducible apply finishAll_keeps
    | with_reducible apply card_keeps
    | with_reducible apply modAge_keeps
    | with_reducible apply ringWindow_keeps
    | with_reducible apply setCap_keeps
    | with_reducible apply replan_keeps
    | with_reducible apply Keeps.forEach
    | with_reducible apply Keeps.foldl
    | with_reducible apply resDone
    | with_reducible apply resPend
    | with_reducible apply Keeps.ite
    | with_reducible apply ResKeeps.ite)

theorem requestEnds_keeps {zz : State} {s : State} {nack pecErr : Bool} (hzz : Keeps zz s) :
    Keeps zz (State.requestEnds s nack pecErr) := by
  unfold State.requestEnds
  (try dsimp only)
  repeat' (first
    | with_reducible assumption
    | with_reducible apply set1_keeps
    | with_reducible apply clr_keeps
    | with_reducible apply modAge_keeps
    | with_reducible apply Keeps.ite)

theorem execRegAcknowledge_keeps {zz : State} {nack pecErr : Bool} {s : State} (hzz : Keeps zz s) :
    OutKeeps zz (execRegAcknowledge nack pecErr s) := by
  unfold execRegAcknowledge
  (try dsimp only)
  repeat' (first
    | with_reducible assumption
    | with_reducible apply wr_keeps
    | with_reducible apply finishAll_keeps
    | with_reducible apply planRest_keeps
    | with_reducible apply requestEnds_keeps
    | with_reducible apply outNext
    | (split <;> try dsimp only))

theorem execReglink_keeps {zz : State} {nack pecErr : Bool} {s : State} (hzz : Keeps zz s) :
    OutKeeps zz (execReglink nack pecErr s) := by
  unfold execReglink
  (try dsimp only)
  repeat' (first
    | with_reducible assumption
    | with_reducible apply set1_keeps
    | with_reducible apply finishAll_keeps
    | with_reducible apply fault_keeps
    | with_reducible apply modAge_keeps
    | with_reducible apply planRest_keeps
    | with_reducible apply requestEnds_keeps
    | with_reducible apply outNext
    | (split <;> try dsimp only))

theorem execBaskTick_keeps {zz : State} {core : Int} {s : State} (hzz : Keeps zz s) :
    OutKeeps zz (execBaskTick core s) := by
  unfold execBaskTick
  (try dsimp only)
  repeat' (first
    | with_reducible assumption
    | (intro _; (try dsimp only))
    | with_reducible apply wr64_keeps
    | with_reducible apply Keeps.forEach
    | with_reducible apply outNext
    | with_reducible apply OutKeeps.ite)

theorem execBaskRead_keeps {zz : State} {p : Packet} {s : State} (hzz : Keeps zz s) :
    OutKeeps zz (execBaskRead p s) := by
  unfold execBaskRead
  (try dsimp only)
  repeat' (first
    | with_reducible assumption
    | (intro _; (try dsimp only))
    | with_reducible apply wr64_keeps
    | with_reducible apply card_keeps
    | with_reducible apply Keeps.forEach
    | with_reducible apply resDone
    | with_reducible apply Keeps.ite)

theorem execAgeingRead_keeps {zz : State} {p : Packet} {s : State} (hzz : Keeps zz s) :
    OutKeeps zz (execAgeingRead p s) := by
  unfold execAgeingRead
  (try dsimp only)
  repeat' (first
    | with_reducible assumption
    | (intro _; (try dsimp only))
    | with_reducible exact bad_keeps
    | with_reducible apply card_keeps
    | with_reducible apply resDone
    | with_reducible apply ResKeeps.ite)

theorem execRepairStatus_keeps {zz : State} {p : Packet} {s : State} (hzz : Keeps zz s) :
    OutKeeps zz (execRepairStatus p s) := by
  unfold execRepairStatus
  (try dsimp only)
  repeat' (first
    | with_reducible assumption
    | (intro _; (try dsimp only))
    | with_reducible apply card_keeps
    | with_reducible apply resDone)

end Sys2Proof.Machine
end

