-- ==== Sys2Proof/Laws/KeepsPapolImage.lean ====
section
/-!
SUPPORT. What the operations of Machine/PapolImage.lean keep (Laws/Keeps.lean).
-/

set_option linter.unusedTactic false
set_option linter.unreachableTactic false
set_option linter.unusedVariables false

namespace Sys2Proof.Machine

theorem takeImage_keeps {zz : State} {s : State} {img : List Word} (hzz : Keeps zz s) :
    Keeps zz (State.takeImage s img) := by
  unfold State.takeImage
  (try dsimp only)
  repeat' (first
    | with_reducible assumption
    | with_reducible fail_if_no_progress refine Keeps.upd ?_ rfl rfl rfl rfl rfl rfl)

end Sys2Proof.Machine
end

