-- ==== Sys2Proof/Laws/KeepsParity.lean ====
section
/-!
SUPPORT. What the operations of Machine/Parity.lean keep (Laws/Keeps.lean).
-/

set_option linter.unusedTactic false
set_option linter.unreachableTactic false
set_option linter.unusedVariables false

namespace Sys2Proof.Machine

theorem reload_keeps {zz : State} {s : State} {a : Nat} (hzz : Keeps zz s) :
    Keeps zz (State.reload s a) := by
  unfold State.reload
  (try dsimp only)
  repeat' (first
    | with_reducible assumption
    | with_reducible apply setReg_keeps
    | with_reducible apply fits_keeps
    | (split <;> try dsimp only))

theorem resetRing_keeps {zz : State} {s : State} {n : Nat} (hzz : Keeps zz s) :
    Keeps zz (State.resetRing s n) := by
  unfold State.resetRing
  (try dsimp only)
  repeat' (first
    | with_reducible assumption
    | (intro _; (try dsimp only))
    | with_reducible apply setReg_keeps
    | with_reducible apply fits_keeps
    | with_reducible apply Keeps.foldl
    | with_reducible fail_if_no_progress refine Keeps.upd ?_ rfl rfl rfl rfl rfl rfl)

theorem rewriteRing_keeps {zz : State} {s : State} {n : Nat} (hzz : Keeps zz s) :
    Keeps zz (State.rewriteRing s n) := by
  unfold State.rewriteRing
  (try dsimp only)
  repeat' (first
    | with_reducible assumption
    | (intro _; (try dsimp only))
    | with_reducible apply setReg_keeps
    | with_reducible apply fits_keeps
    | with_reducible apply Keeps.foldl
    | (split <;> try dsimp only))

theorem dspParity_keeps {zz : State} {s : State} {a : Nat} (hzz : Keeps zz s) :
    Keeps zz (State.dspParity s a) := by
  unfold State.dspParity
  (try dsimp only)
  repeat' (first
    | with_reducible assumption
    | (intro _; (try dsimp only))
    | with_reducible apply abortAll_keeps
    | with_reducible apply engineFails_keeps
    | with_reducible apply reload_keeps
    | with_reducible apply resetRing_keeps
    | with_reducible apply rewriteRing_keeps
    | with_reducible apply Keeps.foldl
    | with_reducible apply Keeps.ite)

theorem paritySafe_keeps {zz : State} {s : State} {a : Nat} (hzz : Keeps zz s) :
    Keeps zz (State.paritySafe s a) := by
  unfold State.paritySafe
  (try dsimp only)
  repeat' (first
    | with_reducible assumption
    | (intro _; (try dsimp only))
    | with_reducible apply set1_keeps
    | with_reducible apply clr_keeps
    | with_reducible apply finishAll_keeps
    | with_reducible apply abortAll_keeps
    | with_reducible apply modSpk_keeps
    | with_reducible apply diagAbort_keeps
    | with_reducible apply faultHold_keeps
    | with_reducible apply hpSafe_keeps
    | with_reducible apply cvSettleAll_keeps
    | with_reducible apply showFe_keeps
    | with_reducible apply setPort_keeps
    | with_reducible apply moveDrop_keeps
    | with_reducible apply showGpio_keeps
    | with_reducible apply reload_keeps
    | with_reducible apply dspParity_keeps
    | with_reducible apply Keeps.foldl
    | with_reducible apply Keeps.ite)

theorem parityFault_keeps {zz : State} {s : State} {a : Nat} (hzz : Keeps zz s) :
    Keeps zz (State.parityFault s a) := by
  unfold State.parityFault
  (try dsimp only)
  repeat' (first
    | with_reducible assumption
    | with_reducible apply wr_keeps
    | with_reducible apply set1_keeps
    | with_reducible apply sat_keeps
    | with_reducible apply repCount_keeps
    | with_reducible apply escalated_keeps
    | with_reducible apply fault_keeps
    | with_reducible apply raiseSafe_keeps
    | with_reducible apply toChipAs_keeps
    | with_reducible apply paritySafe_keeps
    | with_reducible apply Keeps.ite
    | (split <;> try dsimp only)
    | with_reducible fail_if_no_progress refine Keeps.upd ?_ rfl rfl rfl rfl rfl rfl)

theorem execParityScan_keeps {zz : State} {addr : BitVec 24} {flip : BitVec 33} {s : State} (hzz : Keeps zz s) :
    OutKeeps zz (execParityScan addr flip s) := by
  unfold execParityScan
  (try dsimp only)
  repeat' (first
    | with_reducible assumption
    | with_reducible apply setReg_keeps
    | with_reducible apply parityFault_keeps
    | with_reducible apply outNext
    | with_reducible apply Keeps.ite
    | with_reducible apply OutKeeps.ite
    | (split <;> try dsimp only)
    | with_reducible fail_if_no_progress refine Keeps.upd ?_ rfl rfl rfl rfl rfl rfl)

end Sys2Proof.Machine
end

