-- ==== Sys2Proof/Laws/KeepsMonitor.lean ====
section
/-!
SUPPORT. What the operations of Machine/Monitor.lean keep (Laws/Keeps.lean).
-/

set_option linter.unusedTactic false
set_option linter.unreachableTactic false
set_option linter.unusedVariables false

namespace Sys2Proof.Machine

theorem modSaf_keeps {zz s : State} {f : Saf → Saf} (h : ∀ q, (f q).recs.length ≤ q.recs.length) (k : Keeps zz s) :
    Keeps zz (s.modSaf f) :=
  Keeps.updI k id id id id (fun e => Nat.le_trans (h _) e) (fun _ _ h => h)

theorem execSuplock_keeps {zz : State} {ecc : Bool} {s : State} (hzz : Keeps zz s) :
    OutKeeps zz (execSuplock ecc s) := by
  unfold execSuplock
  (try dsimp only)
  repeat' (first
    | with_reducible assumption
    | with_reducible apply begins_keeps
    | with_reducible apply fault_keeps
    | with_reducible apply outNext
    | with_reducible apply OutKeeps.ite
    | with_reducible fail_if_no_progress refine Keeps.upd ?_ rfl rfl rfl rfl rfl rfl)

theorem execSupervisorRestart_keeps {zz : State} {s : State} (hzz : Keeps zz s) :
    OutKeeps zz (execSupervisorRestart s) := by
  unfold execSupervisorRestart
  (try dsimp only)
  repeat' (first
    | with_reducible assumption
    | with_reducible apply papolRuns_keeps
    | with_reducible apply ends_keeps
    | with_reducible apply repCount_keeps
    | with_reducible apply outNext
    | with_reducible apply OutKeeps.ite)

theorem stopAction_keeps {zz : State} {s : State} {w : Work} (hzz : Keeps zz s) :
    Keeps zz (State.stopAction s w) := by
  unfold State.stopAction
  (try dsimp only)
  repeat' (first
    | with_reducible assumption
    | with_reducible apply modGrp_keeps
    | with_reducible apply modMadc_keeps
    | with_reducible apply Keeps.ite
    | with_reducible fail_if_no_progress refine Keeps.upd ?_ rfl rfl rfl rfl rfl rfl)

theorem execDeadlineExpire_keeps {zz : State} {region : Fin 5} {s : State} (hzz : Keeps zz s) :
    OutKeeps zz (execDeadlineExpire region s) := by
  unfold execDeadlineExpire
  (try dsimp only)
  repeat' (first
    | with_reducible assumption
    | with_reducible apply set1_keeps
    | with_reducible apply takesUp_keeps
    | with_reducible apply ends_keeps
    | with_reducible apply escalated_keeps
    | with_reducible apply toChip_keeps
    | with_reducible apply stopAction_keeps
    | with_reducible apply outNext
    | with_reducible apply OutKeeps.ite
    | (split <;> try dsimp only))

theorem execLoud_keeps {zz : State} {chan : Fin 12} {i0 i1 i2 i3 : BitVec 12} {s : State} (hzz : Keeps zz s) :
    OutKeeps zz (execLoud chan i0 i1 i2 i3 s) := by
  unfold execLoud
  (try dsimp only)
  repeat' (first
    | with_reducible assumption
    | with_reducible apply diagAbort_keeps
    | with_reducible apply outFault_keeps
    | with_reducible apply faultHold_keeps
    | with_reducible apply outNext
    | with_reducible apply OutKeeps.ite)

theorem execDutyCheck_keeps {zz : State} {chan : Fin 12} {duty : LegDuty} {s : State} (hzz : Keeps zz s) :
    OutKeeps zz (execDutyCheck chan duty s) := by
  unfold execDutyCheck
  (try dsimp only)
  repeat' (first
    | with_reducible assumption
    | with_reducible apply legDetected_keeps
    | with_reducible apply outNext
    | with_reducible apply Keeps.ite)

theorem loopMod_keeps {zz : State} {s : State} {n : Nat} (hzz : Keeps zz s) :
    Keeps zz (State.loopMod s n) := by
  unfold State.loopMod
  (try dsimp only)
  repeat' (first
    | with_reducible assumption
    | with_reducible apply repCount_keeps
    | with_reducible apply fault_keeps
    | with_reducible apply modSpk_keeps)

theorem execLoopmod_keeps {zz : State} {chan : Fin 12} {s : State} (hzz : Keeps zz s) :
    OutKeeps zz (execLoopmod chan s) := by
  unfold execLoopmod
  (try dsimp only)
  repeat' (first
    | with_reducible assumption
    | with_reducible apply loopMod_keeps
    | with_reducible apply outNext)

theorem noMajority_keeps {zz : State} {s : State} {q0 : Voter} (hzz : Keeps zz s) :
    Keeps zz (State.noMajority s q0) := by
  unfold State.noMajority
  (try dsimp only)
  repeat' (first
    | with_reducible assumption
    | with_reducible apply modOut_keeps
    | with_reducible apply outShow_keeps
    | with_reducible apply diagAbort_keeps
    | with_reducible apply outFault_keeps
    | with_reducible apply muteChanged_keeps
    | with_reducible apply faultHold_keeps
    | with_reducible apply alertEval_keeps
    | with_reducible apply toChip_keeps
    | with_reducible apply commitLost_keeps
    | (split <;> try dsimp only))

theorem vote_keeps {zz : State} {s : State} {v : Voter} (hzz : Keeps zz s) :
    Keeps zz (State.vote s v) := by
  unfold State.vote
  (try dsimp only)
  repeat' (first
    | with_reducible assumption
    | (intro _; (try dsimp only))
    | with_reducible apply repCount_keeps
    | with_reducible apply fault_keeps
    | with_reducible apply modSaf_keeps
    | with_reducible apply noMajority_keeps
    | with_reducible apply Keeps.ite
    | with_reducible rfl)

theorem execVote_keeps {zz : State} {voter : Voter} {s : State} (hzz : Keeps zz s) :
    OutKeeps zz (execVote voter s) := by
  unfold execVote
  (try dsimp only)
  repeat' (first
    | with_reducible assumption
    | with_reducible apply vote_keeps
    | with_reducible apply outNext)

theorem execAlertpin_keeps {zz : State} {s : State} (hzz : Keeps zz s) :
    OutKeeps zz (execAlertpin s) := by
  unfold execAlertpin
  (try dsimp only)
  repeat' (first
    | with_reducible assumption
    | with_reducible apply modOut_keeps
    | with_reducible apply outFault_keeps
    | with_reducible apply alertEval_keeps
    | with_reducible apply outNext
    | with_reducible apply OutKeeps.ite)

theorem substituted_keeps {zz : State} {s : State} {src : Nat} (hzz : Keeps zz s) :
    Keeps zz (State.substituted s src) := by
  unfold State.substituted
  (try dsimp only)
  repeat' (first
    | with_reducible assumption
    | (intro _; (try dsimp only))
    | with_reducible apply showFe_keeps
    | with_reducible apply modSaf_keeps
    | with_reducible rfl)

theorem execVoiceStuck_keeps {zz : State} {src : Fin 12} {clock : Bool} {s : State} (hzz : Keeps zz s) :
    OutKeeps zz (execVoiceStuck src clock s) := by
  unfold execVoiceStuck
  (try dsimp only)
  repeat' (first
    | with_reducible assumption
    | (intro _; (try dsimp only))
    | with_reducible apply repCount_keeps
    | with_reducible apply escalated_keeps
    | with_reducible apply fault_keeps
    | with_reducible apply showFe_keeps
    | with_reducible apply modSaf_keeps
    | with_reducible apply substituted_keeps
    | with_reducible apply outNext
    | with_reducible apply Keeps.ite
    | with_reducible apply OutKeeps.ite
    | with_reducible rfl)

theorem smLock_keeps {zz : State} {s : State} (hzz : Keeps zz s) :
    Keeps zz (State.smLock s) := by
  unfold State.smLock
  (try dsimp only)
  repeat' (first
    | with_reducible assumption
    | (intro _; (try dsimp only))
    | with_reducible apply clr_keeps
    | with_reducible apply begins_keeps
    | with_reducible apply showFn_keeps
    | with_reducible apply fault_keeps
    | with_reducible apply toChipAs_keeps
    | with_reducible apply modSaf_keeps
    | with_reducible apply Keeps.ite
    | with_reducible rfl)

theorem execSmlock_keeps {zz : State} {s : State} (hzz : Keeps zz s) :
    OutKeeps zz (execSmlock s) := by
  unfold execSmlock
  (try dsimp only)
  repeat' (first
    | with_reducible assumption
    | with_reducible apply smLock_keeps
    | with_reducible apply outNext
    | with_reducible apply Keeps.ite)

theorem execSafetyMonitorRestart_keeps {zz : State} {s : State} (hzz : Keeps zz s) :
    OutKeeps zz (execSafetyMonitorRestart s) := by
  unfold execSafetyMonitorRestart
  (try dsimp only)
  repeat' (first
    | with_reducible assumption
    | (intro _; (try dsimp only))
    | with_reducible apply set1_keeps
    | with_reducible apply repaired_keeps
    | with_reducible apply showFn_keeps
    | with_reducible apply modSaf_keeps
    | with_reducible apply outNext
    | with_reducible apply OutKeeps.ite
    | with_reducible rfl)

theorem execSmwdog_keeps {zz : State} {s : State} (hzz : Keeps zz s) :
    OutKeeps zz (execSmwdog s) := by
  unfold execSmwdog
  (try dsimp only)
  repeat' (first
    | with_reducible assumption
    | with_reducible apply toChip_keeps
    | with_reducible apply outNext)

theorem execFnLatchExpire_keeps {zz : State} {s : State} (hzz : Keeps zz s) :
    OutKeeps zz (execFnLatchExpire s) := by
  unfold execFnLatchExpire
  (try dsimp only)
  repeat' (first
    | with_reducible assumption
    | (intro _; (try dsimp only))
    | with_reducible apply showFn_keeps
    | with_reducible apply modSaf_keeps
    | with_reducible apply outNext
    | with_reducible rfl)

theorem execFnReadback_keeps {zz : State} {high : Bool} {s : State} (hzz : Keeps zz s) :
    OutKeeps zz (execFnReadback high s) := by
  unfold execFnReadback
  (try dsimp only)
  repeat' (first
    | with_reducible assumption
    | (intro _; (try dsimp only))
    | with_reducible apply wr_keeps
    | with_reducible apply set1_keeps
    | with_reducible apply showFn_keeps
    | with_reducible apply toChip_keeps
    | with_reducible apply modSaf_keeps
    | with_reducible apply outNext
    | with_reducible apply Keeps.ite
    | with_reducible apply OutKeeps.ite
    | with_reducible rfl)

theorem execClkmon_keeps {zz : State} {ref sys aud sw : Nat} {s : State} (hzz : Keeps zz s) :
    OutKeeps zz (execClkmon ref sys aud sw s) := by
  unfold execClkmon
  (try dsimp only)
  repeat' (first
    | with_reducible assumption
    | (intro _; (try dsimp only))
    | with_reducible apply wr_keeps
    | with_reducible apply faultGone_keeps
    | with_reducible apply toChip_keeps
    | with_reducible apply modSaf_keeps
    | with_reducible apply Keeps.forEach
    | with_reducible apply outNext
    | with_reducible apply Keeps.ite
    | with_reducible apply OutKeeps.ite
    | with_reducible rfl)

theorem execSafeosc_keeps {zz : State} {cycles : Nat} {s : State} (hzz : Keeps zz s) :
    OutKeeps zz (execSafeosc cycles s) := by
  unfold execSafeosc
  (try dsimp only)
  repeat' (first
    | with_reducible assumption
    | (intro _; (try dsimp only))
    | with_reducible apply faultGone_keeps
    | with_reducible apply toChip_keeps
    | with_reducible apply modSaf_keeps
    | with_reducible apply outNext
    | with_reducible apply Keeps.ite
    | with_reducible apply OutKeeps.ite
    | with_reducible rfl)

theorem execVmon_keeps {zz : State} {supply : Fin 5} {mV : Nat} {s : State} (hzz : Keeps zz s) :
    OutKeeps zz (execVmon supply mV s) := by
  unfold execVmon
  (try dsimp only)
  repeat' (first
    | with_reducible assumption
    | with_reducible apply wr_keeps
    | with_reducible apply faultGone_keeps
    | with_reducible apply toChip_keeps
    | with_reducible apply outNext
    | with_reducible apply OutKeeps.ite)

theorem execLatentTest_keeps {zz : State} {test : LatentTest} {pass : Bool} {s : State} (hzz : Keeps zz s) :
    OutKeeps zz (execLatentTest test pass s) := by
  unfold execLatentTest
  (try dsimp only)
  repeat' (first
    | with_reducible assumption
    | with_reducible apply toChip_keeps
    | with_reducible apply toChipAs_keeps
    | with_reducible apply engineFails_keeps
    | with_reducible apply vote_keeps
    | with_reducible apply smLock_keeps
    | with_reducible apply outNext
    | with_reducible apply Keeps.ite
    | (split <;> try dsimp only))

end Sys2Proof.Machine
end

