-- ==== Sys2Proof/Laws/KeepsSafety.lean ====
section
/-!
SUPPORT. What the operations of Machine/Safety.lean keep (Laws/Keeps.lean).
-/

set_option linter.unusedTactic false
set_option linter.unreachableTactic false
set_option linter.unusedVariables false

namespace Sys2Proof.Machine

theorem setSubst_keeps {zz : State} {s : State} {voice alt : Nat} (hzz : Keeps zz s) :
    Keeps zz (State.setSubst s voice alt) := by
  unfold State.setSubst
  (try dsimp only)
  repeat' (first
    | with_reducible assumption
    | (intro _; (try dsimp only))
    | with_reducible apply modSaf_keeps
    | with_reducible apply substituted_keeps
    | with_reducible apply Keeps.ite
    | with_reducible rfl)

theorem execSafetyCfg_keeps {zz : State} {p : Packet} {s : State} (hzz : Keeps zz s) :
    OutKeeps zz (execSafetyCfg p s) := by
  unfold execSafetyCfg
  (try dsimp only)
  repeat' (first
    | with_reducible assumption
    | (intro _; (try dsimp only))
    | with_reducible apply Res.clampedOk_keeps
    | with_reducible exact bad_keeps
    | with_reducible apply showFn_keeps
    | with_reducible apply putReg_keeps
    | with_reducible apply card_keeps
    | with_reducible apply alertEval_keeps
    | with_reducible apply showFe_keeps
    | with_reducible apply setSubst_keeps
    | with_reducible apply resRefuse
    | with_reducible apply ResKeeps.ite)

theorem execFaultRead_keeps {zz : State} {p : Packet} {s : State} (hzz : Keeps zz s) :
    OutKeeps zz (execFaultRead p s) := by
  unfold execFaultRead
  (try dsimp only)
  repeat' (first
    | with_reducible assumption
    | (intro _; (try dsimp only))
    | with_reducible exact bad_keeps
    | with_reducible apply card_keeps
    | with_reducible apply resDone
    | (split <;> try dsimp only))

theorem clearRecs_keeps {zz : State} {s : State} {p : FaultRec → Bool} (hzz : Keeps zz s) :
    Keeps zz (State.clearRecs s p) := by
  unfold State.clearRecs
  (try dsimp only)
  repeat' (first
    | with_reducible assumption
    | (intro _; (try dsimp only))
    | with_reducible apply clr_keeps
    | with_reducible apply showFn_keeps
    | with_reducible apply modSaf_keeps
    | with_reducible apply Keeps.ite
    | with_reducible fail_if_no_progress refine Keeps.upd ?_ rfl rfl rfl rfl rfl rfl
    | (apply Nat.le_of_eq; with_reducible apply List.length_map))

theorem execFaultClear_keeps {zz : State} {p : Packet} {s : State} (hzz : Keeps zz s) :
    OutKeeps zz (execFaultClear p s) := by
  unfold execFaultClear
  (try dsimp only)
  repeat' (first
    | with_reducible assumption
    | (intro _; (try dsimp only))
    | with_reducible apply Res.ok_keeps
    | with_reducible exact bad_keeps
    | with_reducible apply card_keeps
    | with_reducible apply clearRecs_keeps
    | with_reducible apply resRefuse
    | with_reducible apply ResKeeps.ite
    | (split <;> try dsimp only))

theorem execSelftestRun_keeps {zz : State} {p : Packet} {s : State} (hzz : Keeps zz s) :
    OutKeeps zz (execSelftestRun p s) := by
  unfold execSelftestRun
  (try dsimp only)
  repeat' (first
    | with_reducible assumption
    | (intro _; (try dsimp only))
    | with_reducible apply unlessBusy_keeps
    | with_reducible apply showFn_keeps
    | with_reducible apply card_keeps
    | with_reducible apply modSaf_keeps
    | with_reducible apply resPend
    | with_reducible apply resRefuse
    | with_reducible apply ResKeeps.ite
    | with_reducible rfl)

theorem testFails_keeps {zz : State} {s : State} {fail unit : Nat} (hzz : Keeps zz s) :
    Keeps zz (State.testFails s fail unit) := by
  unfold State.testFails
  (try dsimp only)
  repeat' (first
    | with_reducible assumption
    | with_reducible apply set1_keeps
    | with_reducible apply toChip_keeps
    | with_reducible apply engineFails_keeps
    | with_reducible apply loopMod_keeps
    | with_reducible apply Keeps.ite)

theorem execSelftestDone_keeps {zz : State} {fail : BitVec 4} {unit : Fin 12} {s : State} (hzz : Keeps zz s) :
    OutKeeps zz (execSelftestDone fail unit s) := by
  unfold execSelftestDone
  (try dsimp only)
  repeat' (first
    | with_reducible assumption
    | (intro _; (try dsimp only))
    | with_reducible apply set1_keeps
    | with_reducible apply finish_keeps
    | with_reducible apply showFn_keeps
    | with_reducible apply modSaf_keeps
    | with_reducible apply testFails_keeps
    | with_reducible apply outNext
    | with_reducible apply Keeps.ite
    | (split <;> try dsimp only)
    | with_reducible rfl)

theorem leaveSafe_keeps {zz : State} {s : State} (hzz : Keeps zz s) :
    Keeps zz (State.leaveSafe s) := by
  unfold State.leaveSafe
  (try dsimp only)
  repeat' (first
    | with_reducible assumption
    | (intro _; (try dsimp only))
    | with_reducible apply wr_keeps
    | with_reducible apply showFn_keeps
    | with_reducible apply raiseSafe_keeps
    | with_reducible apply outShow_keeps
    | with_reducible apply tryUnmute_keeps
    | with_reducible apply hpJack_keeps
    | with_reducible apply cvSettleAll_keeps
    | with_reducible apply modSaf_keeps
    | with_reducible apply Keeps.forEach
    | with_reducible apply Keeps.ite
    | with_reducible rfl)

theorem execSafeRelease_keeps {zz : State} {p : Packet} {s : State} (hzz : Keeps zz s) :
    OutKeeps zz (execSafeRelease p s) := by
  unfold execSafeRelease
  (try dsimp only)
  repeat' (first
    | with_reducible assumption
    | (intro _; (try dsimp only))
    | with_reducible exact bad_keeps
    | with_reducible apply unlessBusy_keeps
    | with_reducible apply finish_keeps
    | with_reducible apply take_keeps
    | with_reducible apply leaveSafe_keeps
    | with_reducible apply outNext
    | with_reducible apply resPend
    | with_reducible apply resRefuse
    | with_reducible apply ResKeeps.ite
    | (split <;> try dsimp only))

end Sys2Proof.Machine
end

