-- ==== Sys2Proof/Laws/KeepsBoot.lean ====
section
/-!
SUPPORT. What the operations of Machine/Boot.lean keep (Laws/Keeps.lean).
-/

set_option linter.unusedTactic false
set_option linter.unreachableTactic false
set_option linter.unusedVariables false

namespace Sys2Proof.Machine

theorem execReset_keeps {zz : State} {ns : Nat} {s : State} (hzz : Keeps zz s) :
    OutKeeps zz (execReset ns s) := by
  unfold execReset
  (try dsimp only)
  repeat' (first
    | with_reducible assumption
    | with_reducible apply fresh_keeps
    | with_reducible apply outNext
    | with_reducible apply outFault
    | with_reducible apply OutKeeps.ite)

theorem execSupplyMonitorReset_keeps {zz : State} {s : State} (hzz : Keeps zz s) :
    OutKeeps zz (execSupplyMonitorReset s) := by
  unfold execSupplyMonitorReset
  (try dsimp only)
  repeat' (first
    | with_reducible assumption
    | with_reducible apply fresh_keeps
    | with_reducible apply outNext
    | with_reducible fail_if_no_progress refine Keeps.upd ?_ rfl rfl rfl rfl rfl rfl)

theorem setBoot_keeps {zz : State} {s : State} {b : BootPhase} (hzz : Keeps zz s) :
    Keeps zz (State.setBoot s b) := by
  unfold State.setBoot
  (try dsimp only)
  repeat' (first
    | with_reducible assumption
    | with_reducible fail_if_no_progress refine Keeps.upd ?_ rfl rfl rfl rfl rfl rfl)

theorem detect_keeps {zz : State} {s : State} {b : BootScan} (hzz : Keeps zz s) :
    Keeps zz (State.detect s b) := by
  unfold State.detect
  (try dsimp only)
  repeat' (first
    | with_reducible assumption
    | with_reducible apply wr_keeps
    | with_reducible apply Keeps.ite
    | with_reducible fail_if_no_progress refine Keeps.upd ?_ rfl rfl rfl rfl rfl rfl)

theorem startMarch_keeps {zz : State} {s : State} {b : BootScan} (hzz : Keeps zz s) :
    Keeps zz (State.startMarch s b) := by
  unfold State.startMarch
  (try dsimp only)
  repeat' (first
    | with_reducible assumption
    | (intro _; (try dsimp only))
    | with_reducible apply wr_keeps
    | with_reducible apply repCount_keeps
    | with_reducible apply raiseBankRepair_keeps
    | with_reducible apply useSpare_keeps
    | with_reducible apply Keeps.forEach
    | with_reducible apply Keeps.foldl
    | with_reducible apply Keeps.ite
    | with_reducible fail_if_no_progress refine Keeps.upd ?_ rfl rfl rfl rfl rfl rfl)

theorem readVoutMode_keeps {zz : State} {s : State} {v : Option (BitVec 8)} (hzz : Keeps zz s) :
    Keeps zz (State.readVoutMode s v) := by
  unfold State.readVoutMode
  (try dsimp only)
  repeat' (first
    | with_reducible assumption
    | with_reducible apply wr_keeps
    | (split <;> try dsimp only)
    | with_reducible fail_if_no_progress refine Keeps.upd ?_ rfl rfl rfl rfl rfl rfl)

theorem setRun_keeps {zz : State} {s : State} {r : PapolRun} (hzz : Keeps zz s) :
    Keeps zz (State.setRun s r) := by
  unfold State.setRun
  (try dsimp only)
  repeat' (first
    | with_reducible assumption
    | with_reducible fail_if_no_progress refine Keeps.upd ?_ rfl rfl rfl rfl rfl rfl)

theorem ready_keeps {zz : State} {s : State} {img : List Word} {src : Nat} (hzz : Keeps zz s) :
    Keeps zz (State.ready s img src) := by
  unfold State.ready
  (try dsimp only)
  repeat' (first
    | with_reducible assumption
    | with_reducible apply setReg_keeps
    | with_reducible apply wr_keeps
    | with_reducible apply issueAt_keeps
    | with_reducible apply drain_keeps
    | with_reducible apply respare_keeps
    | with_reducible apply swStart_keeps
    | with_reducible apply spareUp_keeps
    | with_reducible apply clocksUp_keeps
    | with_reducible apply monitorUp_keeps
    | with_reducible apply takeImage_keeps
    | with_reducible apply setBoot_keeps
    | with_reducible apply setRun_keeps)

theorem flashBoot_keeps {zz : State} {s : State} {a b : Option (List Word)} (hzz : Keeps zz s) :
    Keeps zz (State.flashBoot s a b) := by
  unfold State.flashBoot
  (try dsimp only)
  repeat' (first
    | with_reducible assumption
    | with_reducible apply wr_keeps
    | with_reducible apply setBoot_keeps
    | with_reducible apply ready_keeps
    | with_reducible apply Keeps.ite)

theorem startMadcs_keeps {zz : State} {s : State} {m : BitVec 2} (hzz : Keeps zz s) :
    Keeps zz (State.startMadcs s m) := by
  unfold State.startMadcs
  (try dsimp only)
  repeat' (first
    | with_reducible assumption
    | (intro _; (try dsimp only))
    | with_reducible apply madcFails_keeps
    | with_reducible apply Keeps.forEach
    | with_reducible apply Keeps.ite)

theorem execBoot_keeps {zz : State} {scan : BootScan} {s : State} (hzz : Keeps zz s) :
    OutKeeps zz (execBoot scan s) := by
  unfold execBoot
  (try dsimp only)
  repeat' (first
    | with_reducible assumption
    | (intro _; (try dsimp only))
    | with_reducible apply set1_keeps
    | with_reducible apply fault_keeps
    | with_reducible apply setRole_keeps
    | with_reducible apply setBoot_keeps
    | with_reducible apply detect_keeps
    | with_reducible apply startMarch_keeps
    | with_reducible apply readVoutMode_keeps
    | with_reducible apply flashBoot_keeps
    | with_reducible apply startMadcs_keeps
    | with_reducible apply Keeps.forEach
    | with_reducible apply outNext
    | with_reducible apply Keeps.ite
    | with_reducible apply OutKeeps.ite)

theorem bootGo_keeps {zz : State} {s : State} (hzz : Keeps zz s) :
    Keeps zz (State.bootGo s) := by
  unfold State.bootGo
  (try dsimp only)
  repeat' (first
    | with_reducible assumption
    | (intro _; (try dsimp only))
    | with_reducible apply wr_keeps
    | with_reducible apply clr_keeps
    | with_reducible apply deliverPoison_keeps
    | with_reducible apply ready_keeps
    | with_reducible apply Keeps.foldl
    | with_reducible apply Keeps.ite)

end Sys2Proof.Machine
end

