-- ==== Sys2Proof/Laws/KeepsSecurity.lean ====
section
/-!
SUPPORT. What the operations of Machine/Security.lean keep (Laws/Keeps.lean).
-/

set_option linter.unusedTactic false
set_option linter.unreachableTactic false
set_option linter.unusedVariables false

namespace Sys2Proof.Machine

theorem modSec_keeps {zz s : State} {f : Sec → Sec} (h : ∀ q, (f q).fuses = q.fuses) (k : Keeps zz s) :
    Keeps zz (s.modSec f) :=
  Keeps.upd k rfl rfl rfl rfl rfl (h _)

theorem execSessionOpen_keeps {zz : State} {p : Packet} {s : State} (hzz : Keeps zz s) :
    OutKeeps zz (execSessionOpen p s) := by
  unfold execSessionOpen
  (try dsimp only)
  repeat' (first
    | with_reducible assumption
    | (intro _; (try dsimp only))
    | with_reducible exact bad_keeps
    | with_reducible apply authFailed_keeps
    | with_reducible apply unlessBusy_keeps
    | with_reducible apply card_keeps
    | with_reducible apply resDone
    | with_reducible apply resPend
    | with_reducible apply resRefuse
    | with_reducible apply ResKeeps.ite)

theorem execSessionOpenDone_keeps {zz : State} {s : State} (hzz : Keeps zz s) :
    OutKeeps zz (execSessionOpenDone s) := by
  unfold execSessionOpenDone
  (try dsimp only)
  repeat' (first
    | with_reducible assumption
    | with_reducible apply finishWith_keeps
    | with_reducible apply outNext
    | (split <;> try dsimp only)
    | with_reducible fail_if_no_progress refine Keeps.upd ?_ rfl rfl rfl rfl rfl rfl)

theorem execSessionClose_keeps {zz : State} {p : Packet} {s : State} (hzz : Keeps zz s) :
    OutKeeps zz (execSessionClose p s) := by
  unfold execSessionClose
  (try dsimp only)
  repeat' (first
    | with_reducible assumption
    | (intro _; (try dsimp only))
    | with_reducible apply Res.ok_keeps
    | with_reducible apply closeSession_keeps
    | with_reducible apply afterReply_keeps
    | with_reducible apply take_keeps
    | with_reducible apply outNext)

theorem execSessionIdleTimeout_keeps {zz : State} {s : State} (hzz : Keeps zz s) :
    OutKeeps zz (execSessionIdleTimeout s) := by
  unfold execSessionIdleTimeout
  (try dsimp only)
  repeat' (first
    | with_reducible assumption
    | with_reducible apply closeSession_keeps
    | with_reducible apply outNext
    | with_reducible apply Keeps.ite)

theorem execLockout_keeps {zz : State} {s : State} (hzz : Keeps zz s) :
    OutKeeps zz (execLockout s) := by
  unfold execLockout
  (try dsimp only)
  repeat' (first
    | with_reducible assumption
    | with_reducible apply startLockout_keeps
    | with_reducible apply outNext
    | with_reducible apply Keeps.ite)

theorem execLockoutEnd_keeps {zz : State} {s : State} (hzz : Keeps zz s) :
    OutKeeps zz (execLockoutEnd s) := by
  unfold execLockoutEnd
  (try dsimp only)
  repeat' (first
    | with_reducible assumption
    | with_reducible apply clr_keeps
    | with_reducible apply outNext)

theorem quiesce_keeps {zz : State} {s : State} (hzz : Keeps zz s) :
    Keeps zz (State.quiesce s) := by
  unfold State.quiesce
  (try dsimp only)
  repeat' (first
    | with_reducible assumption
    | with_reducible apply Keeps.ite
    | with_reducible fail_if_no_progress refine Keeps.upd ?_ rfl rfl rfl rfl rfl rfl)

theorem execFwMolt_keeps {zz : State} {p : Packet} {s : State} (hzz : Keeps zz s) :
    OutKeeps zz (execFwMolt p s) := by
  unfold execFwMolt
  (try dsimp only)
  repeat' (first
    | with_reducible assumption
    | (intro _; (try dsimp only))
    | with_reducible exact bad_keeps
    | with_reducible apply authFailed_keeps
    | with_reducible exact busyWith_keeps
    | with_reducible apply unlessBusy_keeps
    | with_reducible apply afterReply_keeps
    | with_reducible apply deliverPoison_keeps
    | with_reducible apply take_keeps
    | with_reducible apply quiesce_keeps
    | with_reducible apply Keeps.foldl
    | with_reducible apply outNext
    | with_reducible apply resDone
    | with_reducible apply resPend
    | with_reducible apply resRefuse
    | with_reducible apply ResKeeps.ite
    | (split <;> try dsimp only))

theorem execFwMoltResume_keeps {zz : State} {s : State} (hzz : Keeps zz s) :
    OutKeeps zz (execFwMoltResume s) := by
  unfold execFwMoltResume
  (try dsimp only)
  repeat' (first
    | with_reducible assumption
    | (intro _; (try dsimp only))
    | with_reducible apply authFailed_keeps
    | with_reducible apply finish_keeps
    | with_reducible apply papolRuns_keeps
    | with_reducible apply deliverPoison_keeps
    | with_reducible apply takeImage_keeps
    | with_reducible apply Keeps.foldl
    | with_reducible apply outNext
    | with_reducible apply OutKeeps.ite
    | (split <;> try dsimp only))

theorem execMoltResumeTimeout_keeps {zz : State} {s : State} (hzz : Keeps zz s) :
    OutKeeps zz (execMoltResumeTimeout s) := by
  unfold execMoltResumeTimeout
  (try dsimp only)
  repeat' (first
    | with_reducible assumption
    | with_reducible apply toChip_keeps
    | with_reducible apply outNext
    | with_reducible apply OutKeeps.ite
    | with_reducible fail_if_no_progress refine Keeps.upd ?_ rfl rfl rfl rfl rfl rfl)

theorem execAttest_keeps {zz : State} {p : Packet} {s : State} (hzz : Keeps zz s) :
    OutKeeps zz (execAttest p s) := by
  unfold execAttest
  (try dsimp only)
  repeat' (first
    | with_reducible assumption
    | (intro _; (try dsimp only))
    | with_reducible apply unlessBusy_keeps
    | with_reducible apply card_keeps
    | with_reducible apply resPend)

theorem execAttestDone_keeps {zz : State} {s : State} (hzz : Keeps zz s) :
    OutKeeps zz (execAttestDone s) := by
  unfold execAttestDone
  (try dsimp only)
  repeat' (first
    | with_reducible assumption
    | with_reducible apply finish_keeps
    | with_reducible apply outNext
    | (split <;> try dsimp only))

theorem execDebugChallenge_keeps {zz : State} {p : Packet} {s : State} (hzz : Keeps zz s) :
    OutKeeps zz (execDebugChallenge p s) := by
  unfold execDebugChallenge
  (try dsimp only)
  repeat' (first
    | with_reducible assumption
    | (intro _; (try dsimp only))
    | with_reducible apply card_keeps
    | with_reducible apply modSec_keeps
    | with_reducible apply resDone
    | with_reducible fail_if_no_progress refine Keeps.upd ?_ rfl rfl rfl rfl rfl rfl)

theorem execNonceExpire_keeps {zz : State} {s : State} (hzz : Keeps zz s) :
    OutKeeps zz (execNonceExpire s) := by
  unfold execNonceExpire
  (try dsimp only)
  repeat' (first
    | with_reducible assumption
    | (intro _; (try dsimp only))
    | with_reducible apply modSec_keeps
    | with_reducible apply outNext)

theorem execDebugUnlock_keeps {zz : State} {p : Packet} {s : State} (hzz : Keeps zz s) :
    OutKeeps zz (execDebugUnlock p s) := by
  unfold execDebugUnlock
  (try dsimp only)
  repeat' (first
    | with_reducible assumption
    | (intro _; (try dsimp only))
    | with_reducible apply Res.ok_keeps
    | with_reducible exact bad_keeps
    | with_reducible apply unlessBusy_keeps
    | with_reducible apply card_keeps
    | with_reducible apply modSec_keeps
    | with_reducible apply resPend
    | with_reducible apply resRefuse
    | with_reducible apply ResKeeps.ite
    | (split <;> try dsimp only))

theorem execDebugUnlockDone_keeps {zz : State} {s : State} (hzz : Keeps zz s) :
    OutKeeps zz (execDebugUnlockDone s) := by
  unfold execDebugUnlockDone
  (try dsimp only)
  repeat' (first
    | with_reducible assumption
    | (intro _; (try dsimp only))
    | with_reducible apply set1_keeps
    | with_reducible apply authFailed_keeps
    | with_reducible apply finish_keeps
    | with_reducible apply modSec_keeps
    | with_reducible apply outNext
    | with_reducible apply OutKeeps.ite
    | (split <;> try dsimp only))

theorem execExtest_keeps {zz : State} {s : State} (hzz : Keeps zz s) :
    OutKeeps zz (execExtest s) := by
  unfold execExtest
  (try dsimp only)
  repeat' (first
    | with_reducible assumption
    | (intro _; (try dsimp only))
    | with_reducible apply showFn_keeps
    | with_reducible apply outShow_keeps
    | with_reducible apply modSec_keeps
    | with_reducible apply outNext
    | with_reducible apply Keeps.ite)

theorem execFuseProgram_keeps {zz : State} {p : Packet} {s : State} (hzz : Keeps zz s) :
    OutKeeps zz (execFuseProgram p s) := by
  unfold execFuseProgram
  (try dsimp only)
  repeat' (first
    | with_reducible assumption
    | (intro _; (try dsimp only))
    | with_reducible exact bad_keeps
    | with_reducible apply unlessBusy_keeps
    | with_reducible apply card_keeps
    | with_reducible apply resPend
    | with_reducible apply resRefuse
    | with_reducible apply ResKeeps.ite)

/-- Programming keeps every fuse bit that is set (spec/16_security.md, R703). -/
theorem burn_keeps {zz s : State} {v : Nat → Word} (k : Keeps zz s) : Keeps zz (s.burn v) :=
  Keeps.updI k id id id id id fun i b h => by
    show ((Vector.ofFn fun j : Fin 64 => vat s.sec.fuses j.val ||| v j.val)[i]).getLsbD b = true
    have e : vat s.sec.fuses i.val = s.sec.fuses[i] := by simp [vat]
    rw [Fin.getElem_fin, Vector.getElem_ofFn, BitVec.getLsbD_or, e, h]; rfl

theorem shadowFuse_keeps {zz : State} {s : State} {w : Nat} (hzz : Keeps zz s) :
    Keeps zz (State.shadowFuse s w) := by
  unfold State.shadowFuse
  (try dsimp only)
  repeat' (first
    | with_reducible assumption
    | (intro _; (try dsimp only))
    | with_reducible apply setReg_keeps
    | with_reducible apply showRoll_keeps
    | with_reducible apply modSec_keeps)

theorem execFuseProgramDone_keeps {zz : State} {missed : Word} {s : State} (hzz : Keeps zz s) :
    OutKeeps zz (execFuseProgramDone missed s) := by
  unfold execFuseProgramDone
  (try dsimp only)
  repeat' (first
    | with_reducible assumption
    | with_reducible apply finish_keeps
    | with_reducible apply burn_keeps
    | with_reducible apply shadowFuse_keeps
    | with_reducible apply outNext
    | with_reducible apply Keeps.ite
    | (split <;> try dsimp only))

theorem execLifecycleAdvance_keeps {zz : State} {p : Packet} {s : State} (hzz : Keeps zz s) :
    OutKeeps zz (execLifecycleAdvance p s) := by
  unfold execLifecycleAdvance
  (try dsimp only)
  repeat' (first
    | with_reducible assumption
    | (intro _; (try dsimp only))
    | with_reducible exact bad_keeps
    | with_reducible apply unlessBusy_keeps
    | with_reducible apply card_keeps
    | with_reducible apply resPend
    | with_reducible apply resRefuse
    | with_reducible apply ResKeeps.ite)

theorem execLifecycleAdvanceDone_keeps {zz : State} {s : State} (hzz : Keeps zz s) :
    OutKeeps zz (execLifecycleAdvanceDone s) := by
  unfold execLifecycleAdvanceDone
  (try dsimp only)
  repeat' (first
    | with_reducible assumption
    | with_reducible apply wr_keeps
    | with_reducible apply finish_keeps
    | with_reducible apply burn_keeps
    | with_reducible apply outNext
    | (split <;> try dsimp only))

end Sys2Proof.Machine
end

