-- ==== Sys2Proof/Laws/KeepsSystem.lean ====
section
/-!
SUPPORT. What the operations of Machine/System.lean keep (Laws/Keeps.lean).
-/

set_option linter.unusedTactic false
set_option linter.unreachableTactic false
set_option linter.unusedVariables false

namespace Sys2Proof.Machine

theorem execNop_keeps {zz : State} {p : Packet} {s : State} (hzz : Keeps zz s) :
    OutKeeps zz (execNop p s) := by
  unfold execNop
  (try dsimp only)
  repeat' (first
    | with_reducible assumption
    | (intro _; (try dsimp only))
    | with_reducible apply Res.ok_keeps
    | with_reducible apply card_keeps)

theorem judgeSync_keeps {zz : State} {s : State} {p : Packet} (hzz : Keeps zz s) :
    Keeps zz (State.judgeSync s p) := by
  unfold State.judgeSync
  (try dsimp only)
  repeat' (first
    | with_reducible assumption
    | with_reducible apply answer_keeps
    | with_reducible apply authPassed_keeps
    | with_reducible apply authResult_keeps
    | with_reducible apply Keeps.ite
    | (split <;> try dsimp only))

theorem execStateSync_keeps {zz : State} {p : Packet} {s : State} (hzz : Keeps zz s) :
    OutKeeps zz (execStateSync p s) := by
  unfold execStateSync
  (try dsimp only)
  repeat' (first
    | with_reducible assumption
    | (intro _; (try dsimp only))
    | with_reducible apply takeWith_keeps
    | with_reducible apply judgeSync_keeps
    | with_reducible apply outNext)

theorem execJournalRead_keeps {zz : State} {p : Packet} {s : State} (hzz : Keeps zz s) :
    OutKeeps zz (execJournalRead p s) := by
  unfold execJournalRead
  (try dsimp only)
  repeat' (first
    | with_reducible assumption
    | (intro _; (try dsimp only))
    | with_reducible exact bad_keeps
    | with_reducible apply card_keeps
    | with_reducible apply resDone
    | (split <;> try dsimp only))

theorem execSysInfo_keeps {zz : State} {p : Packet} {s : State} (hzz : Keeps zz s) :
    OutKeeps zz (execSysInfo p s) := by
  unfold execSysInfo
  (try dsimp only)
  repeat' (first
    | with_reducible assumption
    | (intro _; (try dsimp only))
    | with_reducible apply card_keeps
    | with_reducible apply resDone)

theorem execEventCfg_keeps {zz : State} {p : Packet} {s : State} (hzz : Keeps zz s) :
    OutKeeps zz (execEventCfg p s) := by
  unfold execEventCfg
  (try dsimp only)
  repeat' (first
    | with_reducible assumption
    | (intro _; (try dsimp only))
    | with_reducible apply Res.ok_keeps
    | with_reducible exact bad_keeps
    | with_reducible apply card_keeps
    | with_reducible apply ResKeeps.ite
    | with_reducible fail_if_no_progress refine Keeps.upd ?_ rfl rfl rfl rfl rfl rfl)

theorem execLoopPin_keeps {zz : State} {p : Packet} {s : State} (hzz : Keeps zz s) :
    OutKeeps zz (execLoopPin p s) := by
  unfold execLoopPin
  (try dsimp only)
  repeat' (first
    | with_reducible assumption
    | (intro _; (try dsimp only))
    | with_reducible apply Res.ok_keeps
    | with_reducible exact bad_keeps
    | with_reducible apply unlessBusy_keeps
    | with_reducible apply card_keeps
    | with_reducible apply showSw_keeps
    | with_reducible apply placeFreeze_keeps
    | with_reducible apply ResKeeps.ite
    | with_reducible fail_if_no_progress refine Keeps.upd ?_ rfl rfl rfl rfl rfl rfl)

theorem resetStops_keeps {zz : State} {s : State} (hzz : Keeps zz s) :
    Keeps zz (State.resetStops s) := by
  unfold State.resetStops
  (try dsimp only)
  repeat' (first
    | with_reducible assumption
    | with_reducible apply drawn_keeps
    | with_reducible apply closeSession_keeps
    | with_reducible apply hpStopAll_keeps
    | with_reducible apply spkStopAll_keeps
    | with_reducible fail_if_no_progress refine Keeps.upd ?_ rfl rfl rfl rfl rfl rfl)

theorem execSysReset_keeps {zz : State} {p : Packet} {s : State} (hzz : Keeps zz s) :
    OutKeeps zz (execSysReset p s) := by
  unfold execSysReset
  (try dsimp only)
  repeat' (first
    | with_reducible assumption
    | (intro _; (try dsimp only))
    | with_reducible apply Res.ok_keeps
    | with_reducible exact bad_keeps
    | with_reducible apply afterReply_keeps
    | with_reducible apply take_keeps
    | with_reducible apply resetStops_keeps
    | with_reducible apply outNext
    | with_reducible apply Keeps.ite
    | with_reducible apply ResKeeps.ite
    | with_reducible fail_if_no_progress refine Keeps.upd ?_ rfl rfl rfl rfl rfl rfl)

theorem execSysResetExecute_keeps {zz : State} {s : State} (hzz : Keeps zz s) :
    OutKeeps zz (execSysResetExecute s) := by
  unfold execSysResetExecute
  (try dsimp only)
  repeat' (first
    | with_reducible assumption
    | with_reducible apply fresh_keeps
    | with_reducible apply outNext
    | with_reducible apply Keeps.ite)

theorem execRingResync_keeps {zz : State} {ring1 : Bool} {s : State} (hzz : Keeps zz s) :
    OutKeeps zz (execRingResync ring1 s) := by
  unfold execRingResync
  (try dsimp only)
  repeat' (first
    | with_reducible assumption
    | with_reducible apply resync_keeps
    | with_reducible apply readPoison_keeps
    | with_reducible apply outNext
    | with_reducible apply OutKeeps.ite)

theorem runAfter_keeps {zz : State} {s : State} (hzz : Keeps zz s) :
    Keeps zz (State.runAfter s) := by
  unfold State.runAfter
  (try dsimp only)
  repeat' (first
    | with_reducible assumption
    | with_reducible apply closeSession_keeps
    | with_reducible apply quiesce_keeps
    | with_reducible apply resetStops_keeps
    | with_reducible apply Keeps.ite
    | (split <;> try dsimp only)
    | with_reducible fail_if_no_progress refine Keeps.upd ?_ rfl rfl rfl rfl rfl rfl)

theorem execReplyWrite_keeps {zz : State} {s : State} (hzz : Keeps zz s) :
    OutKeeps zz (execReplyWrite s) := by
  unfold execReplyWrite
  (try dsimp only)
  repeat' (first
    | with_reducible assumption
    | with_reducible apply flushHeld_keeps
    | with_reducible apply runAfter_keeps
    | with_reducible apply outNext
    | with_reducible apply Keeps.ite)

theorem execEventWrite_keeps {zz : State} {s : State} (hzz : Keeps zz s) :
    OutKeeps zz (execEventWrite s) := by
  unfold execEventWrite
  (try dsimp only)
  repeat' (first
    | with_reducible assumption
    | with_reducible apply flush_keeps
    | with_reducible apply outNext
    | with_reducible apply Keeps.ite)

theorem repostAll_keeps : ∀ {zz s : State} {l : List EventEntry}, Keeps zz s → Keeps zz (State.repostAll l s)
  | _, _, [], k => k
  | _, _, _ :: _, k => by unfold State.repostAll; exact repostAll_keeps (Keeps.ite (ringPut_keeps k) k)

theorem execEventRepost_keeps {zz : State} {s : State} (hzz : Keeps zz s) :
    OutKeeps zz (execEventRepost s) := by
  unfold execEventRepost
  (try dsimp only)
  repeat' (first
    | with_reducible assumption
    | with_reducible apply repostAll_keeps
    | with_reducible apply outNext
    | with_reducible apply Keeps.ite)

end Sys2Proof.Machine
end

