-- ==== Sys2Proof/Laws/KeepsHostLink.lean ====
section
/-!
SUPPORT. What the operations of Machine/HostLink.lean keep (Laws/Keeps.lean).
-/

set_option linter.unusedTactic false
set_option linter.unreachableTactic false
set_option linter.unusedVariables false

namespace Sys2Proof.Machine

theorem setLock_keeps {zz : State} {s : State} {i : Iface} {b : Bool} (hzz : Keeps zz s) :
    Keeps zz (State.setLock s i b) := by
  unfold State.setLock
  (try dsimp only)
  repeat' (first
    | with_reducible assumption
    | with_reducible apply Keeps.ite
    | with_reducible fail_if_no_progress refine Keeps.upd ?_ rfl rfl rfl rfl rfl rfl)

theorem wakeDomain_keeps {zz : State} {s : State} {a : Nat} (hzz : Keeps zz s) :
    Keeps zz (State.wakeDomain s a) := by
  unfold State.wakeDomain
  (try dsimp only)
  repeat' (first
    | with_reducible assumption
    | with_reducible apply modPwr_keeps
    | with_reducible apply Keeps.ite
    | (split <;> try dsimp only))

theorem bound_keeps {zz : State} {s old : State} {a : Nat} (hzz : Keeps zz s) :
    Keeps zz (State.bound s old a) := by
  unfold State.bound
  (try dsimp only)
  repeat' (first
    | with_reducible assumption
    | with_reducible apply wr_keeps
    | with_reducible apply set1_keeps
    | with_reducible apply clr_keeps
    | with_reducible apply Keeps.ite
    | (split <;> try dsimp only))

theorem ringCfg_keeps {zz : State} {s old : State} {n : Nat} (hzz : Keeps zz s) :
    Keeps zz (State.ringCfg s old n) := by
  unfold State.ringCfg
  (try dsimp only)
  repeat' (first
    | with_reducible assumption
    | with_reducible apply wr_keeps
    | with_reducible apply set1_keeps
    | with_reducible apply clr_keeps
    | with_reducible apply Keeps.ite
    | with_reducible fail_if_no_progress refine Keeps.upd ?_ rfl rfl rfl rfl rfl rfl)

theorem ctlLanded_keeps {zz : State} {s old : State} {a : Nat} {w : Word} (hzz : Keeps zz s) :
    Keeps zz (State.ctlLanded s old a w) := by
  unfold State.ctlLanded
  (try dsimp only)
  repeat' (first
    | with_reducible assumption
    | with_reducible apply wr_keeps
    | with_reducible apply takeUnknown_keeps
    | with_reducible apply engineFails_keeps
    | with_reducible apply showGpio_keeps
    | with_reducible apply bootGo_keeps
    | with_reducible apply ringCfg_keeps
    | with_reducible apply Keeps.ite)

theorem inLanded_keeps {zz : State} {s old : State} {a : Nat} (hzz : Keeps zz s) :
    Keeps zz (State.inLanded s old a) := by
  unfold State.inLanded
  (try dsimp only)
  repeat' (first
    | with_reducible assumption
    | with_reducible apply aadcChanged_keeps
    | with_reducible apply pdmChanged_keeps
    | with_reducible apply micbChanged_keeps
    | with_reducible apply showBdiv_keeps
    | with_reducible apply Keeps.ite)

theorem outLanded_keeps {zz : State} {s : State} {a : Nat} {w : Word} (hzz : Keeps zz s) :
    Keeps zz (State.outLanded s a w) := by
  unfold State.outLanded
  (try dsimp only)
  repeat' (first
    | with_reducible assumption
    | with_reducible apply set1_keeps
    | with_reducible apply showLegs_keeps
    | with_reducible apply applyPairs_keeps
    | with_reducible apply hplChanged_keeps
    | with_reducible apply hpJack_keeps
    | with_reducible apply cvSettle_keeps
    | with_reducible apply startWrite_keeps
    | with_reducible apply stopWrite_keeps
    | with_reducible apply showSw_keeps
    | with_reducible apply swUpdate_keeps
    | with_reducible apply Keeps.ite)

theorem safeLanded_keeps {zz : State} {s : State} {a : Nat} {w : Word} (hzz : Keeps zz s) :
    Keeps zz (State.safeLanded s a w) := by
  unfold State.safeLanded
  (try dsimp only)
  repeat' (first
    | with_reducible assumption
    | with_reducible apply showFn_keeps
    | with_reducible apply alertEval_keeps
    | with_reducible apply showFe_keeps
    | with_reducible apply showRef_keeps
    | with_reducible apply madcResume_keeps
    | with_reducible apply Keeps.ite)

theorem landed_keeps {zz : State} {s old : State} {a : Nat} {w : Word} (hzz : Keeps zz s) :
    Keeps zz (State.landed s old a w) := by
  unfold State.landed
  (try dsimp only)
  repeat' (first
    | with_reducible assumption
    | with_reducible apply ctlLanded_keeps
    | with_reducible apply inLanded_keeps
    | with_reducible apply outLanded_keeps
    | with_reducible apply safeLanded_keeps
    | with_reducible apply Keeps.ite)

theorem land_keeps {zz : State} {s : State} {a : Nat} {w : Word} (hzz : Keeps zz s) :
    Keeps zz (State.land s a w) := by
  unfold State.land
  (try dsimp only)
  repeat' (first
    | with_reducible assumption
    | with_reducible apply setReg_keeps
    | with_reducible apply set1_keeps
    | with_reducible apply fits_keeps
    | with_reducible apply cvWrite_keeps
    | with_reducible apply bound_keeps
    | with_reducible apply landed_keeps
    | with_reducible apply Keeps.ite)

theorem landRegion_keeps {zz : State} {s : State} {region : Nat} (hzz : Keeps zz s) :
    Keeps zz (State.landRegion s region) := by
  unfold State.landRegion
  (try dsimp only)
  repeat' (first
    | with_reducible assumption
    | with_reducible apply clr_keeps
    | with_reducible apply land_keeps
    | with_reducible apply Keeps.ite
    | (split <;> try dsimp only)
    | with_reducible fail_if_no_progress refine Keeps.upd ?_ rfl rfl rfl rfl rfl rfl)

theorem sendWrite_keeps {zz : State} {s : State} {i : Iface} {a : Nat} {w : Word} (hzz : Keeps zz s) :
    Keeps zz (State.sendWrite s i a w) := by
  unfold State.sendWrite
  (try dsimp only)
  repeat' (first
    | with_reducible assumption
    | with_reducible apply set1_keeps
    | with_reducible apply hostErr_keeps
    | with_reducible apply wakeDomain_keeps
    | with_reducible apply land_keeps
    | with_reducible apply Keeps.ite
    | (split <;> try dsimp only)
    | with_reducible fail_if_no_progress refine Keeps.upd ?_ rfl rfl rfl rfl rfl rfl)

theorem unlock_keeps {zz : State} {s : State} {i : Iface} {w : Word} (hzz : Keeps zz s) :
    Keeps zz (State.unlock s i w) := by
  unfold State.unlock
  (try dsimp only)
  repeat' (first
    | with_reducible assumption
    | with_reducible apply hostErr_keeps
    | with_reducible apply setLock_keeps
    | with_reducible apply Keeps.ite)

theorem hostWrite_keeps {zz : State} {s : State} {i : Iface} {a : Nat} {w : Word} (hzz : Keeps zz s) :
    Keeps zz (State.hostWrite s i a w) := by
  unfold State.hostWrite
  (try dsimp only)
  repeat' (first
    | with_reducible assumption
    | with_reducible apply setWord_keeps
    | with_reducible apply sysRun_keeps
    | with_reducible apply hostErr_keeps
    | with_reducible apply setLock_keeps
    | with_reducible apply sendWrite_keeps
    | with_reducible apply unlock_keeps
    | with_reducible apply Keeps.ite)

theorem writeLand_keeps {zz : State} {s : State} {i : Iface} {a : Nat} {w : Word} (hzz : Keeps zz s) :
    Keeps zz (State.writeLand s i a w) := by
  unfold State.writeLand
  (try dsimp only)
  repeat' (first
    | with_reducible assumption
    | with_reducible apply landRegion_keeps
    | with_reducible apply hostWrite_keeps
    | with_reducible apply Keeps.ite
    | (split <;> try dsimp only))

theorem deliverWord_keeps {zz : State} {s : State} {w : Word} {ok : Bool} (hzz : Keeps zz s) :
    Keeps zz (State.deliverWord s w ok) := by
  unfold State.deliverWord
  (try dsimp only)
  repeat' (first
    | with_reducible assumption
    | with_reducible fail_if_no_progress refine Keeps.upd ?_ rfl rfl rfl rfl rfl rfl)

theorem readErr_keeps {zz : State} {s : State} {i : Iface} {cause a : Nat} (hzz : Keeps zz s) :
    Keeps zz (State.readErr s i cause a) := by
  unfold State.readErr
  (try dsimp only)
  repeat' (first
    | with_reducible assumption
    | with_reducible apply hostErr_keeps
    | with_reducible apply deliverWord_keeps)

theorem readTad_keeps {zz : State} {s : State} {i : Iface} {a : Nat} (hzz : Keeps zz s) :
    Keeps zz (State.readTad s i a) := by
  unfold State.readTad
  (try dsimp only)
  repeat' (first
    | with_reducible assumption
    | with_reducible apply deliverWord_keeps
    | with_reducible apply readErr_keeps
    | with_reducible apply Keeps.ite)

theorem capture_keeps {zz : State} {s : State} {i : Iface} {a : Nat} (hzz : Keeps zz s) :
    Keeps zz (State.capture s i a) := by
  unfold State.capture
  (try dsimp only)
  repeat' (first
    | with_reducible assumption
    | with_reducible apply setReg_keeps
    | with_reducible apply deliverWord_keeps
    | with_reducible apply Keeps.ite
    | (split <;> try dsimp only)
    | with_reducible fail_if_no_progress refine Keeps.upd ?_ rfl rfl rfl rfl rfl rfl)

theorem readNow_keeps {zz : State} {s : State} {i : Iface} {a : Nat} (hzz : Keeps zz s) :
    Keeps zz (State.readNow s i a) := by
  unfold State.readNow
  (try dsimp only)
  repeat' (first
    | with_reducible assumption
    | with_reducible apply deliverPoison_keeps
    | with_reducible apply showGpio_keeps
    | with_reducible apply wakeDomain_keeps
    | with_reducible apply deliverWord_keeps
    | with_reducible apply readErr_keeps
    | with_reducible apply readTad_keeps
    | with_reducible apply capture_keeps
    | with_reducible apply Keeps.ite
    | with_reducible fail_if_no_progress refine Keeps.upd ?_ rfl rfl rfl rfl rfl rfl)

theorem hostRead_keeps {zz : State} {s : State} {i : Iface} {a : Nat} (hzz : Keeps zz s) :
    Keeps zz (State.hostRead s i a) := by
  unfold State.hostRead
  (try dsimp only)
  repeat' (first
    | with_reducible assumption
    | with_reducible apply sysRun_keeps
    | with_reducible apply readNow_keeps
    | with_reducible apply Keeps.ite)

theorem writeRun_keeps {zz : State} {inc : Bool} : ∀ {l : List Byte} {a : Nat} {s : State}, Keeps zz s →
    Keeps zz (State.writeRun inc l a s).1
  | _ :: _ :: _ :: _ :: _, _, _, h => by unfold State.writeRun; exact writeRun_keeps (hostWrite_keeps h)
  | [], _, _, h => h
  | [_], _, _, h => by unfold State.writeRun; dsimp only; exact hostErr_keeps h
  | [_, _], _, _, h => by unfold State.writeRun; dsimp only; exact hostErr_keeps h
  | [_, _, _], _, _, h => by unfold State.writeRun; dsimp only; exact hostErr_keeps h

theorem readRun_keeps {zz : State} {inc : Bool} : ∀ {n a : Nat} {s : State}, Keeps zz s → Keeps zz (State.readRun inc n a s).1
  | 0, _, _, h => h
  | _ + 1, _, _, h => by
    unfold State.readRun
    dsimp only
    split
    · exact readRun_keeps (hostRead_keeps h)
    · exact hostRead_keeps h

theorem abortRead_keeps {zz : State} {s : State} {a : Nat} (hzz : Keeps zz s) :
    Keeps zz (State.abortRead s a) := by
  unfold State.abortRead
  (try dsimp only)
  repeat' (first
    | with_reducible assumption
    | with_reducible apply hostErr_keeps
    | with_reducible fail_if_no_progress refine Keeps.upd ?_ rfl rfl rfl rfl rfl rfl)

theorem spiFrame_keeps {zz : State} {s : State} {mosi : List Byte} {words : Nat} {cut : Bool} (hzz : Keeps zz s) :
    Keeps zz (State.spiFrame s mosi words cut) := by
  unfold State.spiFrame
  (try dsimp only)
  repeat' (first
    | with_reducible assumption
    | with_reducible apply hostErr_keeps
    | with_reducible apply writeRun_keeps
    | with_reducible apply readRun_keeps
    | with_reducible apply abortRead_keeps
    | with_reducible apply Keeps.ite
    | with_reducible fail_if_no_progress refine Keeps.upd ?_ rfl rfl rfl rfl rfl rfl)

theorem setPtr_keeps {zz : State} {r : State × Nat} (k : Keeps zz r.1) : Keeps zz (State.setPtr r) :=
  Keeps.upd k rfl rfl rfl rfl rfl rfl

theorem i2cWrite_keeps {zz : State} {s : State} {head : Byte} {data : List Byte} (hzz : Keeps zz s) :
    Keeps zz (State.i2cWrite s head data) := by
  unfold State.i2cWrite
  (try dsimp only)
  repeat' (first
    | with_reducible assumption
    | with_reducible apply writeRun_keeps
    | with_reducible apply setPtr_keeps
    | with_reducible apply Keeps.ite)

theorem i2cRead_keeps {zz : State} {s : State} {head : Byte} {words : Nat} (hzz : Keeps zz s) :
    Keeps zz (State.i2cRead s head words) := by
  unfold State.i2cRead
  (try dsimp only)
  repeat' (first
    | with_reducible assumption
    | with_reducible apply readRun_keeps
    | with_reducible apply setPtr_keeps
    | with_reducible apply Keeps.ite)

theorem execRegisterWrite_keeps {zz : State} {iface : Iface} {addr : BitVec 24} {word : Word} {s : State} (hzz : Keeps zz s) :
    OutKeeps zz (execRegisterWrite iface addr word s) := by
  unfold execRegisterWrite
  (try dsimp only)
  repeat' (first
    | with_reducible assumption
    | with_reducible apply hostWrite_keeps
    | with_reducible apply outNext)

theorem execPostedWriteLand_keeps {zz : State} {region : Fin 5} {s : State} (hzz : Keeps zz s) :
    OutKeeps zz (execPostedWriteLand region s) := by
  unfold execPostedWriteLand
  (try dsimp only)
  repeat' (first
    | with_reducible assumption
    | with_reducible apply landRegion_keeps
    | with_reducible apply outNext)

theorem execHostUnlock_keeps {zz : State} {iface : Iface} {key : Word} {s : State} (hzz : Keeps zz s) :
    OutKeeps zz (execHostUnlock iface key s) := by
  unfold execHostUnlock
  (try dsimp only)
  repeat' (first
    | with_reducible assumption
    | with_reducible apply hostWrite_keeps
    | with_reducible apply outNext)

theorem execRcRead_keeps {zz : State} {iface : Iface} {addr : BitVec 24} {s : State} (hzz : Keeps zz s) :
    OutKeeps zz (execRcRead iface addr s) := by
  unfold execRcRead
  (try dsimp only)
  repeat' (first
    | with_reducible assumption
    | with_reducible apply hostRead_keeps
    | with_reducible apply outNext)

theorem execLoRead_keeps {zz : State} {iface : Iface} {addr : BitVec 24} {s : State} (hzz : Keeps zz s) :
    OutKeeps zz (execLoRead iface addr s) := by
  unfold execLoRead
  (try dsimp only)
  repeat' (first
    | with_reducible assumption
    | with_reducible apply hostRead_keeps
    | with_reducible apply outNext)

theorem execSpiFrameEnd_keeps {zz : State} {frame : FrameEnd} {s : State} (hzz : Keeps zz s) :
    OutKeeps zz (execSpiFrameEnd frame s) := by
  unfold execSpiFrameEnd
  (try dsimp only)
  repeat' (first
    | with_reducible assumption
    | with_reducible apply hostErr_keeps
    | with_reducible apply abortRead_keeps
    | with_reducible apply spiFrame_keeps
    | with_reducible apply outNext
    | with_reducible apply Keeps.ite
    | (split <;> try dsimp only))

theorem execI2cStop_keeps {zz : State} {ends : I2cEnd} {s : State} (hzz : Keeps zz s) :
    OutKeeps zz (execI2cStop ends s) := by
  unfold execI2cStop
  (try dsimp only)
  repeat' (first
    | with_reducible assumption
    | with_reducible apply hostErr_keeps
    | with_reducible apply i2cWrite_keeps
    | with_reducible apply i2cRead_keeps
    | with_reducible apply outNext
    | with_reducible apply Keeps.ite
    | (split <;> try dsimp only))

theorem execRingEnable_keeps {zz : State} {iface : Iface} {n : Fin 32} {word : Word} {s : State} (hzz : Keeps zz s) :
    OutKeeps zz (execRingEnable iface n word s) := by
  unfold execRingEnable
  (try dsimp only)
  repeat' (first
    | with_reducible assumption
    | with_reducible apply hostWrite_keeps
    | with_reducible apply outNext)

theorem execDoorbell_keeps {zz : State} {iface : Iface} {n : Fin 32} {word : Word} {s : State} (hzz : Keeps zz s) :
    OutKeeps zz (execDoorbell iface n word s) := by
  unfold execDoorbell
  (try dsimp only)
  repeat' (first
    | with_reducible assumption
    | with_reducible apply hostWrite_keeps
    | with_reducible apply outNext)

theorem execInject_keeps {zz : State} {iface : Iface} {n : Fin 8} {s : State} (hzz : Keeps zz s) :
    OutKeeps zz (execInject iface n s) := by
  unfold execInject
  (try dsimp only)
  repeat' (first
    | with_reducible assumption
    | with_reducible apply hostWrite_keeps
    | with_reducible apply outNext)

theorem execStart_keeps {zz : State} {iface : Iface} {chan : Fin 12} {s : State} (hzz : Keeps zz s) :
    OutKeeps zz (execStart iface chan s) := by
  unfold execStart
  (try dsimp only)
  repeat' (first
    | with_reducible assumption
    | with_reducible apply writeLand_keeps
    | with_reducible apply outNext)

theorem execStop_keeps {zz : State} {iface : Iface} {chan : Fin 12} {s : State} (hzz : Keeps zz s) :
    OutKeeps zz (execStop iface chan s) := by
  unfold execStop
  (try dsimp only)
  repeat' (first
    | with_reducible assumption
    | with_reducible apply writeLand_keeps
    | with_reducible apply outNext)

theorem execXptUpdate_keeps {zz : State} {iface : Iface} {g : Fin 3} {s : State} (hzz : Keeps zz s) :
    OutKeeps zz (execXptUpdate iface g s) := by
  unfold execXptUpdate
  (try dsimp only)
  repeat' (first
    | with_reducible assumption
    | with_reducible apply writeLand_keeps
    | with_reducible apply outNext)

theorem execSwpllUpdate_keeps {zz : State} {iface : Iface} {s : State} (hzz : Keeps zz s) :
    OutKeeps zz (execSwpllUpdate iface s) := by
  unfold execSwpllUpdate
  (try dsimp only)
  repeat' (first
    | with_reducible assumption
    | with_reducible apply writeLand_keeps
    | with_reducible apply outNext)

theorem execResume_keeps {zz : State} {iface : Iface} {s : State} (hzz : Keeps zz s) :
    OutKeeps zz (execResume iface s) := by
  unfold execResume
  (try dsimp only)
  repeat' (first
    | with_reducible assumption
    | with_reducible apply writeLand_keeps
    | with_reducible apply outNext)

theorem execRelease_keeps {zz : State} {iface : Iface} {s : State} (hzz : Keeps zz s) :
    OutKeeps zz (execRelease iface s) := by
  unfold execRelease
  (try dsimp only)
  repeat' (first
    | with_reducible assumption
    | with_reducible apply writeLand_keeps
    | with_reducible apply outNext)

theorem execBootGo_keeps {zz : State} {iface : Iface} {len : BitVec 18} {s : State} (hzz : Keeps zz s) :
    OutKeeps zz (execBootGo iface len s) := by
  unfold execBootGo
  (try dsimp only)
  repeat' (first
    | with_reducible assumption
    | with_reducible apply hostWrite_keeps
    | with_reducible apply outNext)

theorem unstall_keeps {zz : State} {s : State} {x : Stalled} (hzz : Keeps zz s) :
    Keeps zz (State.unstall s x) := by
  unfold State.unstall
  (try dsimp only)
  repeat' (first
    | with_reducible assumption
    | with_reducible apply land_keeps
    | with_reducible apply capture_keeps
    | with_reducible apply Keeps.ite
    | with_reducible fail_if_no_progress refine Keeps.upd ?_ rfl rfl rfl rfl rfl rfl)

theorem execDomainPowerDone_keeps {zz : State} {domain : Fin 42} {s : State} (hzz : Keeps zz s) :
    OutKeeps zz (execDomainPowerDone domain s) := by
  unfold execDomainPowerDone
  (try dsimp only)
  repeat' (first
    | with_reducible assumption
    | (intro _; (try dsimp only))
    | with_reducible apply domDone_keeps
    | with_reducible apply unstall_keeps
    | with_reducible apply Keeps.foldl
    | with_reducible apply outNext
    | with_reducible apply Keeps.ite)

end Sys2Proof.Machine
end

