-- ==== Sys2Proof/Laws/KeepsLeapRead.lean ====
section
/-!
SUPPORT. What the operations of Machine/LeapRead.lean keep (Laws/Keeps.lean).
-/

set_option linter.unusedTactic false
set_option linter.unreachableTactic false
set_option linter.unusedVariables false

namespace Sys2Proof.Machine

theorem limitStep_keeps {zz : State} {s : State} {n : Nat} {y : Int} (hzz : Keeps zz s) :
    Keeps zz (State.limitStep s n y) := by
  unfold State.limitStep
  (try dsimp only)
  repeat' (first
    | with_reducible assumption
    | with_reducible apply wr_keeps
    | with_reducible apply modSpk_keeps)

theorem modStep_keeps {zz : State} {s : State} {n pvdd : Nat} (hzz : Keeps zz s) :
    Keeps zz (State.modStep s n pvdd) := by
  unfold State.modStep
  (try dsimp only)
  repeat' (first
    | with_reducible assumption
    | with_reducible apply set1_keeps
    | with_reducible apply modSpk_keeps
    | with_reducible apply acSpoil_keeps
    | with_reducible apply limitStep_keeps
    | with_reducible apply Keeps.ite)

theorem hpStep_keeps {zz : State} {s : State} {o : Nat} (hzz : Keeps zz s) :
    Keeps zz (State.hpStep s o) := by
  unfold State.hpStep
  (try dsimp only)
  repeat' (first
    | with_reducible assumption
    | with_reducible apply set1_keeps
    | with_reducible apply modHp_keeps
    | with_reducible apply Keeps.ite)

theorem hpLimit_keeps {zz : State} {s : State} {limited : Bool} (hzz : Keeps zz s) :
    Keeps zz (State.hpLimit s limited) := by
  unfold State.hpLimit
  (try dsimp only)
  repeat' (first
    | with_reducible assumption
    | with_reducible apply set1_keeps
    | with_reducible apply Keeps.ite)

theorem leapStep_keeps {zz : State} {s : State} {c : Nat} (hzz : Keeps zz s) :
    Keeps zz (State.leapStep s c) := by
  unfold State.leapStep
  (try dsimp only)
  repeat' (first
    | with_reducible assumption
    | with_reducible apply sat_keeps
    | with_reducible apply modLeap_keeps
    | with_reducible apply showAhead_keeps
    | with_reducible apply Keeps.ite)

theorem execLeapRead_keeps {zz : State} {pvdd : Nat × Nat × Nat} {limitL limitR : Bool} {s : State} (hzz : Keeps zz s) :
    OutKeeps zz (execLeapRead pvdd limitL limitR s) := by
  unfold execLeapRead
  (try dsimp only)
  repeat' (first
    | with_reducible assumption
    | (intro _; (try dsimp only))
    | with_reducible apply cvTrackStep_keeps
    | with_reducible apply modStep_keeps
    | with_reducible apply hpStep_keeps
    | with_reducible apply hpLimit_keeps
    | with_reducible apply leapStep_keeps
    | with_reducible apply Keeps.forEach
    | with_reducible apply outNext
    | with_reducible apply Keeps.ite
    | with_reducible apply OutKeeps.ite)

end Sys2Proof.Machine
end

