-- ==== Sys2Proof/Laws/KeepsTick.lean ====
section
/-!
SUPPORT. What the operations of Machine/Tick.lean keep (Laws/Keeps.lean).
-/

set_option linter.unusedTactic false
set_option linter.unreachableTactic false
set_option linter.unusedVariables false

namespace Sys2Proof.Machine

theorem cycTick_keeps {zz : State} {s : State} {g k : Nat} (hzz : Keeps zz s) :
    Keeps zz (State.cycTick s g k) := by
  unfold State.cycTick
  (try dsimp only)
  repeat' (first
    | with_reducible assumption
    | (intro _; (try dsimp only))
    | with_reducible apply wr64_keeps
    | with_reducible apply modGrp_keeps
    | with_reducible apply modClk_keeps
    | with_reducible apply Keeps.forEach
    | with_reducible apply Keeps.ite)

theorem moves_keeps {zz : State} {s : State} {k : Nat} (hzz : Keeps zz s) :
    Keeps zz (State.moves s k) := by
  unfold State.moves
  (try dsimp only)
  repeat' (first
    | with_reducible assumption
    | (intro _; (try dsimp only))
    | with_reducible apply cvSlew_keeps
    | with_reducible apply rampTick_keeps
    | with_reducible apply winTick_keeps
    | with_reducible apply ringStale_keeps
    | with_reducible apply planDue_keeps
    | with_reducible apply cycTick_keeps
    | with_reducible apply Keeps.forEach)

theorem idle_keeps {zz : State} {s : State} (hzz : Keeps zz s) :
    Keeps zz (State.idle s) := by
  unfold State.idle
  (try dsimp only)
  repeat' (first
    | with_reducible assumption
    | with_reducible apply clr_keeps
    | with_reducible apply tick_keeps
    | with_reducible apply takeUnknown_keeps
    | with_reducible apply moves_keeps
    | with_reducible apply Keeps.ite)

end Sys2Proof.Machine
end

