-- ==== Sys2Proof/Laws/State.lean ====
section
/-!
SUPPORT. The small lemmas of the state: what a write of a register, a field or a byte leaves in each field of State, what is read
after it.
-/

namespace Sys2Proof.Machine

/-! Updates of one field leave the others. -/

@[simp] theorem State.setReg_mem (s : State) (a : Nat) (w : Word) : (s.setReg a w).mem = s.mem := rfl
@[simp] theorem State.setReg_link (s : State) (a : Nat) (w : Word) : (s.setReg a w).link = s.link := rfl
@[simp] theorem State.setReg_rings (s : State) (a : Nat) (w : Word) : (s.setReg a w).rings = s.rings := rfl
@[simp] theorem State.setReg_pap (s : State) (a : Nat) (w : Word) : (s.setReg a w).pap = s.pap := rfl
@[simp] theorem State.setReg_strs (s : State) (a : Nat) (w : Word) : (s.setReg a w).strs = s.strs := rfl
@[simp] theorem State.setReg_tdm (s : State) (a : Nat) (w : Word) : (s.setReg a w).tdm = s.tdm := rfl
@[simp] theorem State.setReg_spdif (s : State) (a : Nat) (w : Word) : (s.setReg a w).spdif = s.spdif := rfl
@[simp] theorem State.setReg_graph (s : State) (a : Nat) (w : Word) : (s.setReg a w).graph = s.graph := rfl
@[simp] theorem State.setReg_leap (s : State) (a : Nat) (w : Word) : (s.setReg a w).leap = s.leap := rfl
@[simp] theorem State.setReg_eng (s : State) (a : Nat) (w : Word) : (s.setReg a w).eng = s.eng := rfl
@[simp] theorem State.setReg_engMem (s : State) (a : Nat) (w : Word) : (s.setReg a w).engMem = s.engMem := rfl
@[simp] theorem State.setReg_poison (s : State) (a : Nat) (w : Word) : (s.setReg a w).poison = s.poison := rfl
@[simp] theorem State.setReg_banks (s : State) (a : Nat) (w : Word) : (s.setReg a w).banks = s.banks := rfl
@[simp] theorem State.setReg_spks (s : State) (a : Nat) (w : Word) : (s.setReg a w).spks = s.spks := rfl
@[simp] theorem State.setReg_groups (s : State) (a : Nat) (w : Word) : (s.setReg a w).groups = s.groups := rfl
@[simp] theorem State.setReg_crk (s : State) (a : Nat) (w : Word) : (s.setReg a w).crk = s.crk := rfl
@[simp] theorem State.setReg_out (s : State) (a : Nat) (w : Word) : (s.setReg a w).out = s.out := rfl
@[simp] theorem State.setReg_clk (s : State) (a : Nat) (w : Word) : (s.setReg a w).clk = s.clk := rfl
@[simp] theorem State.setReg_diag (s : State) (a : Nat) (w : Word) : (s.setReg a w).diag = s.diag := rfl
@[simp] theorem State.setReg_inp (s : State) (a : Nat) (w : Word) : (s.setReg a w).inp = s.inp := rfl
@[simp] theorem State.setReg_tad (s : State) (a : Nat) (w : Word) : (s.setReg a w).tad = s.tad := rfl
@[simp] theorem State.setReg_wkd (s : State) (a : Nat) (w : Word) : (s.setReg a w).wkd = s.wkd := rfl
@[simp] theorem State.setReg_hp (s : State) (a : Nat) (w : Word) : (s.setReg a w).hp = s.hp := rfl
@[simp] theorem State.setReg_cv (s : State) (a : Nat) (w : Word) : (s.setReg a w).cv = s.cv := rfl
@[simp] theorem State.setReg_hpcv (s : State) (a : Nat) (w : Word) : (s.setReg a w).hpcv = s.hpcv := rfl
@[simp] theorem State.setReg_madc (s : State) (a : Nat) (w : Word) : (s.setReg a w).madc = s.madc := rfl
@[simp] theorem State.setReg_pwr (s : State) (a : Nat) (w : Word) : (s.setReg a w).pwr = s.pwr := rfl
@[simp] theorem State.setReg_saf (s : State) (a : Nat) (w : Word) : (s.setReg a w).saf = s.saf := rfl
@[simp] theorem State.setReg_sec (s : State) (a : Nat) (w : Word) : (s.setReg a w).sec = s.sec := rfl
@[simp] theorem State.setReg_age (s : State) (a : Nat) (w : Word) : (s.setReg a w).age = s.age := rfl
@[simp] theorem State.setReg_draw (s : State) (a : Nat) (w : Word) : (s.setReg a w).draw = s.draw := rfl
@[simp] theorem State.setReg_pending (s : State) (a : Nat) (w : Word) : (s.setReg a w).pending = s.pending := rfl

@[simp] theorem State.wr_mem (s : State) (f : Field) (v : Nat) : (s.wr f v).mem = s.mem := rfl
@[simp] theorem State.wr_link (s : State) (f : Field) (v : Nat) : (s.wr f v).link = s.link := rfl
@[simp] theorem State.wr_rings (s : State) (f : Field) (v : Nat) : (s.wr f v).rings = s.rings := rfl
@[simp] theorem State.wr_pap (s : State) (f : Field) (v : Nat) : (s.wr f v).pap = s.pap := rfl
@[simp] theorem State.wr_strs (s : State) (f : Field) (v : Nat) : (s.wr f v).strs = s.strs := rfl
@[simp] theorem State.wr_tdm (s : State) (f : Field) (v : Nat) : (s.wr f v).tdm = s.tdm := rfl
@[simp] theorem State.wr_spdif (s : State) (f : Field) (v : Nat) : (s.wr f v).spdif = s.spdif := rfl
@[simp] theorem State.wr_graph (s : State) (f : Field) (v : Nat) : (s.wr f v).graph = s.graph := rfl
@[simp] theorem State.wr_leap (s : State) (f : Field) (v : Nat) : (s.wr f v).leap = s.leap := rfl
@[simp] theorem State.wr_eng (s : State) (f : Field) (v : Nat) : (s.wr f v).eng = s.eng := rfl
@[simp] theorem State.wr_engMem (s : State) (f : Field) (v : Nat) : (s.wr f v).engMem = s.engMem := rfl
@[simp] theorem State.wr_poison (s : State) (f : Field) (v : Nat) : (s.wr f v).poison = s.poison := rfl
@[simp] theorem State.wr_banks (s : State) (f : Field) (v : Nat) : (s.wr f v).banks = s.banks := rfl
@[simp] theorem State.wr_spks (s : State) (f : Field) (v : Nat) : (s.wr f v).spks = s.spks := rfl
@[simp] theorem State.wr_groups (s : State) (f : Field) (v : Nat) : (s.wr f v).groups = s.groups := rfl
@[simp] theorem State.wr_crk (s : State) (f : Field) (v : Nat) : (s.wr f v).crk = s.crk := rfl
@[simp] theorem State.wr_out (s : State) (f : Field) (v : Nat) : (s.wr f v).out = s.out := rfl
@[simp] theorem State.wr_clk (s : State) (f : Field) (v : Nat) : (s.wr f v).clk = s.clk := rfl
@[simp] theorem State.wr_diag (s : State) (f : Field) (v : Nat) : (s.wr f v).diag = s.diag := rfl
@[simp] theorem State.wr_inp (s : State) (f : Field) (v : Nat) : (s.wr f v).inp = s.inp := rfl
@[simp] theorem State.wr_tad (s : State) (f : Field) (v : Nat) : (s.wr f v).tad = s.tad := rfl
@[simp] theorem State.wr_wkd (s : State) (f : Field) (v : Nat) : (s.wr f v).wkd = s.wkd := rfl
@[simp] theorem State.wr_hp (s : State) (f : Field) (v : Nat) : (s.wr f v).hp = s.hp := rfl
@[simp] theorem State.wr_cv (s : State) (f : Field) (v : Nat) : (s.wr f v).cv = s.cv := rfl
@[simp] theorem State.wr_hpcv (s : State) (f : Field) (v : Nat) : (s.wr f v).hpcv = s.hpcv := rfl
@[simp] theorem State.wr_madc (s : State) (f : Field) (v : Nat) : (s.wr f v).madc = s.madc := rfl
@[simp] theorem State.wr_pwr (s : State) (f : Field) (v : Nat) : (s.wr f v).pwr = s.pwr := rfl
@[simp] theorem State.wr_saf (s : State) (f : Field) (v : Nat) : (s.wr f v).saf = s.saf := rfl
@[simp] theorem State.wr_sec (s : State) (f : Field) (v : Nat) : (s.wr f v).sec = s.sec := rfl
@[simp] theorem State.wr_age (s : State) (f : Field) (v : Nat) : (s.wr f v).age = s.age := rfl
@[simp] theorem State.wr_draw (s : State) (f : Field) (v : Nat) : (s.wr f v).draw = s.draw := rfl
@[simp] theorem State.wr_pending (s : State) (f : Field) (v : Nat) : (s.wr f v).pending = s.pending := rfl

@[simp] theorem State.set1_mem (s : State) (f : Field) : (s.set1 f).mem = s.mem := rfl
@[simp] theorem State.set1_link (s : State) (f : Field) : (s.set1 f).link = s.link := rfl
@[simp] theorem State.set1_rings (s : State) (f : Field) : (s.set1 f).rings = s.rings := rfl
@[simp] theorem State.set1_pap (s : State) (f : Field) : (s.set1 f).pap = s.pap := rfl
@[simp] theorem State.set1_strs (s : State) (f : Field) : (s.set1 f).strs = s.strs := rfl
@[simp] theorem State.set1_tdm (s : State) (f : Field) : (s.set1 f).tdm = s.tdm := rfl
@[simp] theorem State.set1_spdif (s : State) (f : Field) : (s.set1 f).spdif = s.spdif := rfl
@[simp] theorem State.set1_graph (s : State) (f : Field) : (s.set1 f).graph = s.graph := rfl
@[simp] theorem State.set1_leap (s : State) (f : Field) : (s.set1 f).leap = s.leap := rfl
@[simp] theorem State.set1_eng (s : State) (f : Field) : (s.set1 f).eng = s.eng := rfl
@[simp] theorem State.set1_engMem (s : State) (f : Field) : (s.set1 f).engMem = s.engMem := rfl
@[simp] theorem State.set1_poison (s : State) (f : Field) : (s.set1 f).poison = s.poison := rfl
@[simp] theorem State.set1_banks (s : State) (f : Field) : (s.set1 f).banks = s.banks := rfl
@[simp] theorem State.set1_spks (s : State) (f : Field) : (s.set1 f).spks = s.spks := rfl
@[simp] theorem State.set1_groups (s : State) (f : Field) : (s.set1 f).groups = s.groups := rfl
@[simp] theorem State.set1_crk (s : State) (f : Field) : (s.set1 f).crk = s.crk := rfl
@[simp] theorem State.set1_out (s : State) (f : Field) : (s.set1 f).out = s.out := rfl
@[simp] theorem State.set1_clk (s : State) (f : Field) : (s.set1 f).clk = s.clk := rfl
@[simp] theorem State.set1_diag (s : State) (f : Field) : (s.set1 f).diag = s.diag := rfl
@[simp] theorem State.set1_inp (s : State) (f : Field) : (s.set1 f).inp = s.inp := rfl
@[simp] theorem State.set1_tad (s : State) (f : Field) : (s.set1 f).tad = s.tad := rfl
@[simp] theorem State.set1_wkd (s : State) (f : Field) : (s.set1 f).wkd = s.wkd := rfl
@[simp] theorem State.set1_hp (s : State) (f : Field) : (s.set1 f).hp = s.hp := rfl
@[simp] theorem State.set1_cv (s : State) (f : Field) : (s.set1 f).cv = s.cv := rfl
@[simp] theorem State.set1_hpcv (s : State) (f : Field) : (s.set1 f).hpcv = s.hpcv := rfl
@[simp] theorem State.set1_madc (s : State) (f : Field) : (s.set1 f).madc = s.madc := rfl
@[simp] theorem State.set1_pwr (s : State) (f : Field) : (s.set1 f).pwr = s.pwr := rfl
@[simp] theorem State.set1_saf (s : State) (f : Field) : (s.set1 f).saf = s.saf := rfl
@[simp] theorem State.set1_sec (s : State) (f : Field) : (s.set1 f).sec = s.sec := rfl
@[simp] theorem State.set1_age (s : State) (f : Field) : (s.set1 f).age = s.age := rfl
@[simp] theorem State.set1_draw (s : State) (f : Field) : (s.set1 f).draw = s.draw := rfl
@[simp] theorem State.set1_pending (s : State) (f : Field) : (s.set1 f).pending = s.pending := rfl

@[simp] theorem State.clr_mem (s : State) (f : Field) : (s.clr f).mem = s.mem := rfl
@[simp] theorem State.clr_link (s : State) (f : Field) : (s.clr f).link = s.link := rfl
@[simp] theorem State.clr_rings (s : State) (f : Field) : (s.clr f).rings = s.rings := rfl
@[simp] theorem State.clr_pap (s : State) (f : Field) : (s.clr f).pap = s.pap := rfl
@[simp] theorem State.clr_strs (s : State) (f : Field) : (s.clr f).strs = s.strs := rfl
@[simp] theorem State.clr_tdm (s : State) (f : Field) : (s.clr f).tdm = s.tdm := rfl
@[simp] theorem State.clr_spdif (s : State) (f : Field) : (s.clr f).spdif = s.spdif := rfl
@[simp] theorem State.clr_graph (s : State) (f : Field) : (s.clr f).graph = s.graph := rfl
@[simp] theorem State.clr_leap (s : State) (f : Field) : (s.clr f).leap = s.leap := rfl
@[simp] theorem State.clr_eng (s : State) (f : Field) : (s.clr f).eng = s.eng := rfl
@[simp] theorem State.clr_engMem (s : State) (f : Field) : (s.clr f).engMem = s.engMem := rfl
@[simp] theorem State.clr_poison (s : State) (f : Field) : (s.clr f).poison = s.poison := rfl
@[simp] theorem State.clr_banks (s : State) (f : Field) : (s.clr f).banks = s.banks := rfl
@[simp] theorem State.clr_spks (s : State) (f : Field) : (s.clr f).spks = s.spks := rfl
@[simp] theorem State.clr_groups (s : State) (f : Field) : (s.clr f).groups = s.groups := rfl
@[simp] theorem State.clr_crk (s : State) (f : Field) : (s.clr f).crk = s.crk := rfl
@[simp] theorem State.clr_out (s : State) (f : Field) : (s.clr f).out = s.out := rfl
@[simp] theorem State.clr_clk (s : State) (f : Field) : (s.clr f).clk = s.clk := rfl
@[simp] theorem State.clr_diag (s : State) (f : Field) : (s.clr f).diag = s.diag := rfl
@[simp] theorem State.clr_inp (s : State) (f : Field) : (s.clr f).inp = s.inp := rfl
@[simp] theorem State.clr_tad (s : State) (f : Field) : (s.clr f).tad = s.tad := rfl
@[simp] theorem State.clr_wkd (s : State) (f : Field) : (s.clr f).wkd = s.wkd := rfl
@[simp] theorem State.clr_hp (s : State) (f : Field) : (s.clr f).hp = s.hp := rfl
@[simp] theorem State.clr_cv (s : State) (f : Field) : (s.clr f).cv = s.cv := rfl
@[simp] theorem State.clr_hpcv (s : State) (f : Field) : (s.clr f).hpcv = s.hpcv := rfl
@[simp] theorem State.clr_madc (s : State) (f : Field) : (s.clr f).madc = s.madc := rfl
@[simp] theorem State.clr_pwr (s : State) (f : Field) : (s.clr f).pwr = s.pwr := rfl
@[simp] theorem State.clr_saf (s : State) (f : Field) : (s.clr f).saf = s.saf := rfl
@[simp] theorem State.clr_sec (s : State) (f : Field) : (s.clr f).sec = s.sec := rfl
@[simp] theorem State.clr_age (s : State) (f : Field) : (s.clr f).age = s.age := rfl
@[simp] theorem State.clr_draw (s : State) (f : Field) : (s.clr f).draw = s.draw := rfl
@[simp] theorem State.clr_pending (s : State) (f : Field) : (s.clr f).pending = s.pending := rfl

@[simp] theorem State.sat_mem (s : State) (f : Field) (n : Nat) : (s.sat f n).mem = s.mem := rfl
@[simp] theorem State.sat_link (s : State) (f : Field) (n : Nat) : (s.sat f n).link = s.link := rfl
@[simp] theorem State.sat_rings (s : State) (f : Field) (n : Nat) : (s.sat f n).rings = s.rings := rfl
@[simp] theorem State.sat_pap (s : State) (f : Field) (n : Nat) : (s.sat f n).pap = s.pap := rfl
@[simp] theorem State.sat_strs (s : State) (f : Field) (n : Nat) : (s.sat f n).strs = s.strs := rfl
@[simp] theorem State.sat_tdm (s : State) (f : Field) (n : Nat) : (s.sat f n).tdm = s.tdm := rfl
@[simp] theorem State.sat_spdif (s : State) (f : Field) (n : Nat) : (s.sat f n).spdif = s.spdif := rfl
@[simp] theorem State.sat_graph (s : State) (f : Field) (n : Nat) : (s.sat f n).graph = s.graph := rfl
@[simp] theorem State.sat_leap (s : State) (f : Field) (n : Nat) : (s.sat f n).leap = s.leap := rfl
@[simp] theorem State.sat_eng (s : State) (f : Field) (n : Nat) : (s.sat f n).eng = s.eng := rfl
@[simp] theorem State.sat_engMem (s : State) (f : Field) (n : Nat) : (s.sat f n).engMem = s.engMem := rfl
@[simp] theorem State.sat_poison (s : State) (f : Field) (n : Nat) : (s.sat f n).poison = s.poison := rfl
@[simp] theorem State.sat_banks (s : State) (f : Field) (n : Nat) : (s.sat f n).banks = s.banks := rfl
@[simp] theorem State.sat_spks (s : State) (f : Field) (n : Nat) : (s.sat f n).spks = s.spks := rfl
@[simp] theorem State.sat_groups (s : State) (f : Field) (n : Nat) : (s.sat f n).groups = s.groups := rfl
@[simp] theorem State.sat_crk (s : State) (f : Field) (n : Nat) : (s.sat f n).crk = s.crk := rfl
@[simp] theorem State.sat_out (s : State) (f : Field) (n : Nat) : (s.sat f n).out = s.out := rfl
@[simp] theorem State.sat_clk (s : State) (f : Field) (n : Nat) : (s.sat f n).clk = s.clk := rfl
@[simp] theorem State.sat_diag (s : State) (f : Field) (n : Nat) : (s.sat f n).diag = s.diag := rfl
@[simp] theorem State.sat_inp (s : State) (f : Field) (n : Nat) : (s.sat f n).inp = s.inp := rfl
@[simp] theorem State.sat_tad (s : State) (f : Field) (n : Nat) : (s.sat f n).tad = s.tad := rfl
@[simp] theorem State.sat_wkd (s : State) (f : Field) (n : Nat) : (s.sat f n).wkd = s.wkd := rfl
@[simp] theorem State.sat_hp (s : State) (f : Field) (n : Nat) : (s.sat f n).hp = s.hp := rfl
@[simp] theorem State.sat_cv (s : State) (f : Field) (n : Nat) : (s.sat f n).cv = s.cv := rfl
@[simp] theorem State.sat_hpcv (s : State) (f : Field) (n : Nat) : (s.sat f n).hpcv = s.hpcv := rfl
@[simp] theorem State.sat_madc (s : State) (f : Field) (n : Nat) : (s.sat f n).madc = s.madc := rfl
@[simp] theorem State.sat_pwr (s : State) (f : Field) (n : Nat) : (s.sat f n).pwr = s.pwr := rfl
@[simp] theorem State.sat_saf (s : State) (f : Field) (n : Nat) : (s.sat f n).saf = s.saf := rfl
@[simp] theorem State.sat_sec (s : State) (f : Field) (n : Nat) : (s.sat f n).sec = s.sec := rfl
@[simp] theorem State.sat_age (s : State) (f : Field) (n : Nat) : (s.sat f n).age = s.age := rfl
@[simp] theorem State.sat_draw (s : State) (f : Field) (n : Nat) : (s.sat f n).draw = s.draw := rfl
@[simp] theorem State.sat_pending (s : State) (f : Field) (n : Nat) : (s.sat f n).pending = s.pending := rfl

@[simp] theorem State.wr64_mem (s : State) (a v : Nat) : (s.wr64 a v).mem = s.mem := rfl
@[simp] theorem State.wr64_link (s : State) (a v : Nat) : (s.wr64 a v).link = s.link := rfl
@[simp] theorem State.wr64_rings (s : State) (a v : Nat) : (s.wr64 a v).rings = s.rings := rfl
@[simp] theorem State.wr64_pap (s : State) (a v : Nat) : (s.wr64 a v).pap = s.pap := rfl
@[simp] theorem State.wr64_strs (s : State) (a v : Nat) : (s.wr64 a v).strs = s.strs := rfl
@[simp] theorem State.wr64_tdm (s : State) (a v : Nat) : (s.wr64 a v).tdm = s.tdm := rfl
@[simp] theorem State.wr64_spdif (s : State) (a v : Nat) : (s.wr64 a v).spdif = s.spdif := rfl
@[simp] theorem State.wr64_graph (s : State) (a v : Nat) : (s.wr64 a v).graph = s.graph := rfl
@[simp] theorem State.wr64_leap (s : State) (a v : Nat) : (s.wr64 a v).leap = s.leap := rfl
@[simp] theorem State.wr64_eng (s : State) (a v : Nat) : (s.wr64 a v).eng = s.eng := rfl
@[simp] theorem State.wr64_engMem (s : State) (a v : Nat) : (s.wr64 a v).engMem = s.engMem := rfl
@[simp] theorem State.wr64_poison (s : State) (a v : Nat) : (s.wr64 a v).poison = s.poison := rfl
@[simp] theorem State.wr64_banks (s : State) (a v : Nat) : (s.wr64 a v).banks = s.banks := rfl
@[simp] theorem State.wr64_spks (s : State) (a v : Nat) : (s.wr64 a v).spks = s.spks := rfl
@[simp] theorem State.wr64_groups (s : State) (a v : Nat) : (s.wr64 a v).groups = s.groups := rfl
@[simp] theorem State.wr64_crk (s : State) (a v : Nat) : (s.wr64 a v).crk = s.crk := rfl
@[simp] theorem State.wr64_out (s : State) (a v : Nat) : (s.wr64 a v).out = s.out := rfl
@[simp] theorem State.wr64_clk (s : State) (a v : Nat) : (s.wr64 a v).clk = s.clk := rfl
@[simp] theorem State.wr64_diag (s : State) (a v : Nat) : (s.wr64 a v).diag = s.diag := rfl
@[simp] theorem State.wr64_inp (s : State) (a v : Nat) : (s.wr64 a v).inp = s.inp := rfl
@[simp] theorem State.wr64_tad (s : State) (a v : Nat) : (s.wr64 a v).tad = s.tad := rfl
@[simp] theorem State.wr64_wkd (s : State) (a v : Nat) : (s.wr64 a v).wkd = s.wkd := rfl
@[simp] theorem State.wr64_hp (s : State) (a v : Nat) : (s.wr64 a v).hp = s.hp := rfl
@[simp] theorem State.wr64_cv (s : State) (a v : Nat) : (s.wr64 a v).cv = s.cv := rfl
@[simp] theorem State.wr64_hpcv (s : State) (a v : Nat) : (s.wr64 a v).hpcv = s.hpcv := rfl
@[simp] theorem State.wr64_madc (s : State) (a v : Nat) : (s.wr64 a v).madc = s.madc := rfl
@[simp] theorem State.wr64_pwr (s : State) (a v : Nat) : (s.wr64 a v).pwr = s.pwr := rfl
@[simp] theorem State.wr64_saf (s : State) (a v : Nat) : (s.wr64 a v).saf = s.saf := rfl
@[simp] theorem State.wr64_sec (s : State) (a v : Nat) : (s.wr64 a v).sec = s.sec := rfl
@[simp] theorem State.wr64_age (s : State) (a v : Nat) : (s.wr64 a v).age = s.age := rfl
@[simp] theorem State.wr64_draw (s : State) (a v : Nat) : (s.wr64 a v).draw = s.draw := rfl
@[simp] theorem State.wr64_pending (s : State) (a v : Nat) : (s.wr64 a v).pending = s.pending := rfl

@[simp] theorem State.setByte_regs (s : State) (a : Nat) (b : Byte) : (s.setByte a b).regs = s.regs := rfl
@[simp] theorem State.setByte_link (s : State) (a : Nat) (b : Byte) : (s.setByte a b).link = s.link := rfl
@[simp] theorem State.setByte_rings (s : State) (a : Nat) (b : Byte) : (s.setByte a b).rings = s.rings := rfl
@[simp] theorem State.setByte_pap (s : State) (a : Nat) (b : Byte) : (s.setByte a b).pap = s.pap := rfl
@[simp] theorem State.setByte_strs (s : State) (a : Nat) (b : Byte) : (s.setByte a b).strs = s.strs := rfl
@[simp] theorem State.setByte_tdm (s : State) (a : Nat) (b : Byte) : (s.setByte a b).tdm = s.tdm := rfl
@[simp] theorem State.setByte_spdif (s : State) (a : Nat) (b : Byte) : (s.setByte a b).spdif = s.spdif := rfl
@[simp] theorem State.setByte_graph (s : State) (a : Nat) (b : Byte) : (s.setByte a b).graph = s.graph := rfl
@[simp] theorem State.setByte_leap (s : State) (a : Nat) (b : Byte) : (s.setByte a b).leap = s.leap := rfl
@[simp] theorem State.setByte_eng (s : State) (a : Nat) (b : Byte) : (s.setByte a b).eng = s.eng := rfl
@[simp] theorem State.setByte_engMem (s : State) (a : Nat) (b : Byte) : (s.setByte a b).engMem = s.engMem := rfl
@[simp] theorem State.setByte_poison (s : State) (a : Nat) (b : Byte) : (s.setByte a b).poison = s.poison := rfl
@[simp] theorem State.setByte_banks (s : State) (a : Nat) (b : Byte) : (s.setByte a b).banks = s.banks := rfl
@[simp] theorem State.setByte_spks (s : State) (a : Nat) (b : Byte) : (s.setByte a b).spks = s.spks := rfl
@[simp] theorem State.setByte_groups (s : State) (a : Nat) (b : Byte) : (s.setByte a b).groups = s.groups := rfl
@[simp] theorem State.setByte_crk (s : State) (a : Nat) (b : Byte) : (s.setByte a b).crk = s.crk := rfl
@[simp] theorem State.setByte_out (s : State) (a : Nat) (b : Byte) : (s.setByte a b).out = s.out := rfl
@[simp] theorem State.setByte_clk (s : State) (a : Nat) (b : Byte) : (s.setByte a b).clk = s.clk := rfl
@[simp] theorem State.setByte_diag (s : State) (a : Nat) (b : Byte) : (s.setByte a b).diag = s.diag := rfl
@[simp] theorem State.setByte_inp (s : State) (a : Nat) (b : Byte) : (s.setByte a b).inp = s.inp := rfl
@[simp] theorem State.setByte_tad (s : State) (a : Nat) (b : Byte) : (s.setByte a b).tad = s.tad := rfl
@[simp] theorem State.setByte_wkd (s : State) (a : Nat) (b : Byte) : (s.setByte a b).wkd = s.wkd := rfl
@[simp] theorem State.setByte_hp (s : State) (a : Nat) (b : Byte) : (s.setByte a b).hp = s.hp := rfl
@[simp] theorem State.setByte_cv (s : State) (a : Nat) (b : Byte) : (s.setByte a b).cv = s.cv := rfl
@[simp] theorem State.setByte_hpcv (s : State) (a : Nat) (b : Byte) : (s.setByte a b).hpcv = s.hpcv := rfl
@[simp] theorem State.setByte_madc (s : State) (a : Nat) (b : Byte) : (s.setByte a b).madc = s.madc := rfl
@[simp] theorem State.setByte_pwr (s : State) (a : Nat) (b : Byte) : (s.setByte a b).pwr = s.pwr := rfl
@[simp] theorem State.setByte_saf (s : State) (a : Nat) (b : Byte) : (s.setByte a b).saf = s.saf := rfl
@[simp] theorem State.setByte_sec (s : State) (a : Nat) (b : Byte) : (s.setByte a b).sec = s.sec := rfl
@[simp] theorem State.setByte_age (s : State) (a : Nat) (b : Byte) : (s.setByte a b).age = s.age := rfl
@[simp] theorem State.setByte_draw (s : State) (a : Nat) (b : Byte) : (s.setByte a b).draw = s.draw := rfl
@[simp] theorem State.setByte_pending (s : State) (a : Nat) (b : Byte) : (s.setByte a b).pending = s.pending := rfl

@[simp] theorem State.setWord_regs (s : State) (a : Nat) (w : Word) : (s.setWord a w).regs = s.regs := rfl
@[simp] theorem State.setWord_link (s : State) (a : Nat) (w : Word) : (s.setWord a w).link = s.link := rfl
@[simp] theorem State.setWord_rings (s : State) (a : Nat) (w : Word) : (s.setWord a w).rings = s.rings := rfl
@[simp] theorem State.setWord_pap (s : State) (a : Nat) (w : Word) : (s.setWord a w).pap = s.pap := rfl
@[simp] theorem State.setWord_strs (s : State) (a : Nat) (w : Word) : (s.setWord a w).strs = s.strs := rfl
@[simp] theorem State.setWord_tdm (s : State) (a : Nat) (w : Word) : (s.setWord a w).tdm = s.tdm := rfl
@[simp] theorem State.setWord_spdif (s : State) (a : Nat) (w : Word) : (s.setWord a w).spdif = s.spdif := rfl
@[simp] theorem State.setWord_graph (s : State) (a : Nat) (w : Word) : (s.setWord a w).graph = s.graph := rfl
@[simp] theorem State.setWord_leap (s : State) (a : Nat) (w : Word) : (s.setWord a w).leap = s.leap := rfl
@[simp] theorem State.setWord_eng (s : State) (a : Nat) (w : Word) : (s.setWord a w).eng = s.eng := rfl
@[simp] theorem State.setWord_engMem (s : State) (a : Nat) (w : Word) : (s.setWord a w).engMem = s.engMem := rfl
@[simp] theorem State.setWord_banks (s : State) (a : Nat) (w : Word) : (s.setWord a w).banks = s.banks := rfl
@[simp] theorem State.setWord_spks (s : State) (a : Nat) (w : Word) : (s.setWord a w).spks = s.spks := rfl
@[simp] theorem State.setWord_groups (s : State) (a : Nat) (w : Word) : (s.setWord a w).groups = s.groups := rfl
@[simp] theorem State.setWord_crk (s : State) (a : Nat) (w : Word) : (s.setWord a w).crk = s.crk := rfl
@[simp] theorem State.setWord_out (s : State) (a : Nat) (w : Word) : (s.setWord a w).out = s.out := rfl
@[simp] theorem State.setWord_clk (s : State) (a : Nat) (w : Word) : (s.setWord a w).clk = s.clk := rfl
@[simp] theorem State.setWord_diag (s : State) (a : Nat) (w : Word) : (s.setWord a w).diag = s.diag := rfl
@[simp] theorem State.setWord_inp (s : State) (a : Nat) (w : Word) : (s.setWord a w).inp = s.inp := rfl
@[simp] theorem State.setWord_tad (s : State) (a : Nat) (w : Word) : (s.setWord a w).tad = s.tad := rfl
@[simp] theorem State.setWord_wkd (s : State) (a : Nat) (w : Word) : (s.setWord a w).wkd = s.wkd := rfl
@[simp] theorem State.setWord_hp (s : State) (a : Nat) (w : Word) : (s.setWord a w).hp = s.hp := rfl
@[simp] theorem State.setWord_cv (s : State) (a : Nat) (w : Word) : (s.setWord a w).cv = s.cv := rfl
@[simp] theorem State.setWord_hpcv (s : State) (a : Nat) (w : Word) : (s.setWord a w).hpcv = s.hpcv := rfl
@[simp] theorem State.setWord_madc (s : State) (a : Nat) (w : Word) : (s.setWord a w).madc = s.madc := rfl
@[simp] theorem State.setWord_pwr (s : State) (a : Nat) (w : Word) : (s.setWord a w).pwr = s.pwr := rfl
@[simp] theorem State.setWord_saf (s : State) (a : Nat) (w : Word) : (s.setWord a w).saf = s.saf := rfl
@[simp] theorem State.setWord_sec (s : State) (a : Nat) (w : Word) : (s.setWord a w).sec = s.sec := rfl
@[simp] theorem State.setWord_age (s : State) (a : Nat) (w : Word) : (s.setWord a w).age = s.age := rfl
@[simp] theorem State.setWord_draw (s : State) (a : Nat) (w : Word) : (s.setWord a w).draw = s.draw := rfl
@[simp] theorem State.setWord_pending (s : State) (a : Nat) (w : Word) : (s.setWord a w).pending = s.pending := rfl

@[simp] theorem State.drawn_regs (s : State)  : (s.drawn).regs = s.regs := rfl
@[simp] theorem State.drawn_mem (s : State)  : (s.drawn).mem = s.mem := rfl
@[simp] theorem State.drawn_link (s : State)  : (s.drawn).link = s.link := rfl
@[simp] theorem State.drawn_rings (s : State)  : (s.drawn).rings = s.rings := rfl
@[simp] theorem State.drawn_pap (s : State)  : (s.drawn).pap = s.pap := rfl
@[simp] theorem State.drawn_strs (s : State)  : (s.drawn).strs = s.strs := rfl
@[simp] theorem State.drawn_tdm (s : State)  : (s.drawn).tdm = s.tdm := rfl
@[simp] theorem State.drawn_spdif (s : State)  : (s.drawn).spdif = s.spdif := rfl
@[simp] theorem State.drawn_graph (s : State)  : (s.drawn).graph = s.graph := rfl
@[simp] theorem State.drawn_leap (s : State)  : (s.drawn).leap = s.leap := rfl
@[simp] theorem State.drawn_eng (s : State)  : (s.drawn).eng = s.eng := rfl
@[simp] theorem State.drawn_engMem (s : State)  : (s.drawn).engMem = s.engMem := rfl
@[simp] theorem State.drawn_poison (s : State)  : (s.drawn).poison = s.poison := rfl
@[simp] theorem State.drawn_banks (s : State)  : (s.drawn).banks = s.banks := rfl
@[simp] theorem State.drawn_spks (s : State)  : (s.drawn).spks = s.spks := rfl
@[simp] theorem State.drawn_groups (s : State)  : (s.drawn).groups = s.groups := rfl
@[simp] theorem State.drawn_crk (s : State)  : (s.drawn).crk = s.crk := rfl
@[simp] theorem State.drawn_out (s : State)  : (s.drawn).out = s.out := rfl
@[simp] theorem State.drawn_clk (s : State)  : (s.drawn).clk = s.clk := rfl
@[simp] theorem State.drawn_diag (s : State)  : (s.drawn).diag = s.diag := rfl
@[simp] theorem State.drawn_inp (s : State)  : (s.drawn).inp = s.inp := rfl
@[simp] theorem State.drawn_tad (s : State)  : (s.drawn).tad = s.tad := rfl
@[simp] theorem State.drawn_wkd (s : State)  : (s.drawn).wkd = s.wkd := rfl
@[simp] theorem State.drawn_hp (s : State)  : (s.drawn).hp = s.hp := rfl
@[simp] theorem State.drawn_cv (s : State)  : (s.drawn).cv = s.cv := rfl
@[simp] theorem State.drawn_hpcv (s : State)  : (s.drawn).hpcv = s.hpcv := rfl
@[simp] theorem State.drawn_madc (s : State)  : (s.drawn).madc = s.madc := rfl
@[simp] theorem State.drawn_pwr (s : State)  : (s.drawn).pwr = s.pwr := rfl
@[simp] theorem State.drawn_saf (s : State)  : (s.drawn).saf = s.saf := rfl
@[simp] theorem State.drawn_sec (s : State)  : (s.drawn).sec = s.sec := rfl
@[simp] theorem State.drawn_age (s : State)  : (s.drawn).age = s.age := rfl
@[simp] theorem State.drawn_pending (s : State)  : (s.drawn).pending = s.pending := rfl

/-! Registers. -/

@[simp] theorem State.reg_setReg_same (s : State) (a : Nat) (w : Word) : (s.setReg a w).reg a = w :=
  Sparse.get_set_same s.regs a w

theorem State.reg_setReg_ne (s : State) {a b : Nat} (w : Word) (h : b ≠ a) : (s.setReg a w).reg b = s.reg b :=
  Sparse.get_set_ne w h s.regs

theorem State.reg_setReg (s : State) (a b : Nat) (w : Word) : (s.setReg a w).reg b = if b = a then w else s.reg b := by
  split
  · subst_vars; exact State.reg_setReg_same s _ w
  · exact State.reg_setReg_ne s w ‹_›

theorem State.reg_congr {s t : State} (h : t.regs = s.regs) (a : Nat) : t.reg a = s.reg a := by
  unfold State.reg; rw [h]

theorem State.rd_congr {s t : State} (h : t.regs = s.regs) (f : Field) : t.rd f = s.rd f := by
  unfold State.rd; rw [State.reg_congr h]

theorem State.reg_wr_ne (s : State) {f : Field} {a : Nat} (v : Nat) (h : a ≠ f.addr) : (s.wr f v).reg a = s.reg a :=
  State.reg_setReg_ne s _ h

theorem State.reg_set1_ne (s : State) {f : Field} {a : Nat} (h : a ≠ f.addr) : (s.set1 f).reg a = s.reg a := State.reg_wr_ne s 1 h

theorem State.reg_clr_ne (s : State) {f : Field} {a : Nat} (h : a ≠ f.addr) : (s.clr f).reg a = s.reg a := State.reg_wr_ne s 0 h

/-! Bit fields of a word. -/

theorem bits_lt (w : Word) (lo n : Nat) : bits w lo n < 2 ^ n := Nat.mod_lt _ (Nat.two_pow_pos n)

theorem bits_testBit (w : Word) (lo n i : Nat) : (bits w lo n).testBit i = (decide (i < n) && w.getLsbD (lo + i)) := by
  unfold bits
  rw [Nat.testBit_mod_two_pow, Nat.testBit_div_two_pow, Nat.add_comm i lo]; rfl

/-- A word as its part above a field, the field, and its part below. -/
theorem bits_split (w : Word) (lo n : Nat) :
    w.toNat = 2 ^ (lo + n) * (w.toNat / 2 ^ (lo + n)) + (2 ^ lo * bits w lo n + w.toNat % 2 ^ lo) := by
  have a := Nat.div_add_mod w.toNat (2 ^ lo)
  have b := Nat.div_add_mod (w.toNat / 2 ^ lo) (2 ^ n)
  rw [Nat.div_div_eq_div_mul, ← Nat.pow_add] at b
  unfold bits
  calc w.toNat = 2 ^ lo * (w.toNat / 2 ^ lo) + w.toNat % 2 ^ lo := a.symm
    _ = 2 ^ lo * (2 ^ n * (w.toNat / 2 ^ (lo + n)) + w.toNat / 2 ^ lo % 2 ^ n) + w.toNat % 2 ^ lo := by rw [b]
    _ = _ := by rw [Nat.pow_add]; ring

theorem below_lt {lo n v c : Nat} (hv : v < 2 ^ n) (hc : c < 2 ^ lo) : 2 ^ lo * v + c < 2 ^ (lo + n) := by
  have h1 : 2 ^ lo * v + 2 ^ lo ≤ 2 ^ lo * 2 ^ n := by
    have : 2 ^ lo * (v + 1) ≤ 2 ^ lo * 2 ^ n := Nat.mul_le_mul_left _ hv
    rw [Nat.mul_add, Nat.mul_one] at this; exact this
  rw [Nat.pow_add]; omega

theorem putBits_toNat {w : Word} {lo n v : Nat} (h : lo + n ≤ 32) :
    (putBits w lo n v).toNat = 2 ^ (lo + n) * (w.toNat / 2 ^ (lo + n)) + (2 ^ lo * (v % 2 ^ n) + w.toNat % 2 ^ lo) := by
  have hs := bits_split w lo n
  have hl : w.toNat % 2 ^ lo < 2 ^ lo := Nat.mod_lt _ (Nat.two_pow_pos lo)
  have hb := below_lt (Nat.mod_lt v (Nat.two_pow_pos n)) hl
  have hq : 2 ^ (lo + n) * (w.toNat / 2 ^ (lo + n)) + 2 ^ (lo + n) ≤ 2 ^ 32 := by
    have h3 : w.toNat / 2 ^ (lo + n) < 2 ^ (32 - (lo + n)) := by
      rw [Nat.div_lt_iff_lt_mul (Nat.two_pow_pos _), ← Nat.pow_add, show 32 - (lo + n) + (lo + n) = 32 by omega]
      exact w.isLt
    have h4 : 2 ^ (lo + n) * (w.toNat / 2 ^ (lo + n) + 1) ≤ 2 ^ (lo + n) * 2 ^ (32 - (lo + n)) := Nat.mul_le_mul_left _ h3
    rw [← Nat.pow_add, show lo + n + (32 - (lo + n)) = 32 by omega, Nat.mul_add, Nat.mul_one] at h4
    exact h4
  have e : w.toNat - bits w lo n * 2 ^ lo + v % 2 ^ n * 2 ^ lo =
      2 ^ (lo + n) * (w.toNat / 2 ^ (lo + n)) + (2 ^ lo * (v % 2 ^ n) + w.toNat % 2 ^ lo) := by
    rw [Nat.mul_comm (bits w lo n), Nat.mul_comm (v % 2 ^ n)]; omega
  unfold putBits
  rw [BitVec.toNat_ofNat, e]
  exact Nat.mod_eq_of_lt (by omega)

/-- The bits of a word after a write of a field. -/
theorem putBits_getLsbD {w : Word} {lo n v : Nat} (h : lo + n ≤ 32) (i : Nat) :
    (putBits w lo n v).getLsbD i = if lo ≤ i ∧ i < lo + n then v.testBit (i - lo) else w.getLsbD i := by
  have hl : w.toNat % 2 ^ lo < 2 ^ lo := Nat.mod_lt _ (Nat.two_pow_pos lo)
  show (putBits w lo n v).toNat.testBit i = if _ then _ else w.toNat.testBit i
  rw [putBits_toNat h, Nat.testBit_two_pow_mul_add _ (below_lt (Nat.mod_lt v (Nat.two_pow_pos n)) hl),
    Nat.testBit_two_pow_mul_add _ hl]
  conv => rhs; rw [bits_split w lo n, Nat.testBit_two_pow_mul_add _ (below_lt (bits_lt w lo n) hl), Nat.testBit_two_pow_mul_add _ hl]
  by_cases h1 : i < lo
  · simp [h1, show i < lo + n by omega, show ¬ lo ≤ i by omega]
  · by_cases h2 : i < lo + n
    · simp [h1, h2, show lo ≤ i by omega, Nat.testBit_mod_two_pow, show i - lo < n by omega]
    · simp [h2]

/-- A field reads as written. -/
theorem bits_putBits_same {w : Word} {lo n v : Nat} (h : lo + n ≤ 32) : bits (putBits w lo n v) lo n = v % 2 ^ n := by
  apply Nat.eq_of_testBit_eq
  intro i
  rw [bits_testBit, Nat.testBit_mod_two_pow]
  by_cases hi : i < n
  · rw [putBits_getLsbD h]; simp [hi]
  · simp [hi]

/-- A field written twice with the same value holds it. -/
theorem putBits_putBits {w : Word} {lo n v : Nat} (h : lo + n ≤ 32) : putBits (putBits w lo n v) lo n v = putBits w lo n v := by
  apply BitVec.eq_of_getLsbD_eq
  intro i _
  rw [putBits_getLsbD h]
  split
  · rw [putBits_getLsbD h, if_pos ‹_›]
  · rfl

/-- A field apart from the one written keeps its value. -/
theorem bits_putBits_apart {w : Word} {lo n v lo' n' : Nat} (h : lo + n ≤ 32) (ha : lo' + n' ≤ lo ∨ lo + n ≤ lo') :
    bits (putBits w lo n v) lo' n' = bits w lo' n' := by
  apply Nat.eq_of_testBit_eq
  intro i
  rw [bits_testBit, bits_testBit]
  by_cases hi : i < n'
  · rw [putBits_getLsbD h, if_neg (by omega)]
  · simp [hi]

/-! Fields. -/

theorem State.rd_wr_same (s : State) {f : Field} (v : Nat) (h : f.lo + f.width ≤ 32) : (s.wr f v).rd f = v % 2 ^ f.width := by
  unfold State.rd State.wr
  rw [State.reg_setReg_same, bits_putBits_same h]

theorem State.rd_wr_ne (s : State) {f g : Field} (v : Nat) (h : g.addr ≠ f.addr) : (s.wr f v).rd g = s.rd g := by
  unfold State.rd State.wr
  rw [State.reg_setReg_ne _ _ h]

theorem State.rd_wr_apart (s : State) {f g : Field} (v : Nat) (h : f.lo + f.width ≤ 32)
    (ha : g.addr ≠ f.addr ∨ g.lo + g.width ≤ f.lo ∨ f.lo + f.width ≤ g.lo) : (s.wr f v).rd g = s.rd g := by
  by_cases e : g.addr = f.addr
  · unfold State.rd State.wr
    rw [e, State.reg_setReg_same, bits_putBits_apart h (ha.resolve_left (fun n => n e))]
  · exact State.rd_wr_ne s v e

theorem State.rd_setReg_ne (s : State) {g : Field} {a : Nat} (w : Word) (h : g.addr ≠ a) : (s.setReg a w).rd g = s.rd g := by
  unfold State.rd; rw [State.reg_setReg_ne _ _ h]

theorem State.rd_setReg_same (s : State) (g : Field) (w : Word) : (s.setReg g.addr w).rd g = bits w g.lo g.width := by
  unfold State.rd; rw [State.reg_setReg_same]

theorem State.on_wr_b2n (s : State) {f : Field} (b : Bool) (h : f.lo + f.width ≤ 32) (hw : f.width = 1) :
    (s.wr f (b2n b)).on f = b := by
  unfold State.on; rw [State.rd_wr_same s _ h, hw]; cases b <;> rfl

/-! Memory windows. -/

@[simp] theorem State.byte_setByte_same (s : State) (a : Nat) (b : Byte) : (s.setByte a b).byte a = b :=
  Sparse.get_set_same s.mem a b

theorem State.byte_setByte_ne (s : State) {a c : Nat} (b : Byte) (h : c ≠ a) : (s.setByte a b).byte c = s.byte c :=
  Sparse.get_set_ne b h s.mem

theorem State.byte_congr {s t : State} (h : t.mem = s.mem) (a : Nat) : t.byte a = s.byte a := by
  unfold State.byte; rw [h]

/-- A word written leaves every byte outside its four. -/
theorem State.byte_setWord_ne (s : State) {a c : Nat} (w : Word) (h : c < a ∨ a + 4 ≤ c) : (s.setWord a w).byte c = s.byte c := by
  show ((((s.setByte a _).setByte (a + 1) _).setByte (a + 2) _).setByte (a + 3) _).byte c = s.byte c
  rw [State.byte_setByte_ne, State.byte_setByte_ne, State.byte_setByte_ne, State.byte_setByte_ne] <;> omega

/-- A word reads as written. -/
theorem State.word_setWord_same (s : State) (a : Nat) (w : Word) : (s.setWord a w).word a = w := by
  have b0 : (s.setWord a w).byte a = w.extractLsb' 0 8 := by
    show ((((s.setByte a _).setByte (a + 1) _).setByte (a + 2) _).setByte (a + 3) _).byte a = _
    rw [State.byte_setByte_ne, State.byte_setByte_ne, State.byte_setByte_ne, State.byte_setByte_same] <;> omega
  have b1 : (s.setWord a w).byte (a + 1) = w.extractLsb' 8 8 := by
    show ((((s.setByte a _).setByte (a + 1) _).setByte (a + 2) _).setByte (a + 3) _).byte (a + 1) = _
    rw [State.byte_setByte_ne, State.byte_setByte_ne, State.byte_setByte_same] <;> omega
  have b2 : (s.setWord a w).byte (a + 2) = w.extractLsb' 16 8 := by
    show ((((s.setByte a _).setByte (a + 1) _).setByte (a + 2) _).setByte (a + 3) _).byte (a + 2) = _
    rw [State.byte_setByte_ne, State.byte_setByte_same]; omega
  have b3 : (s.setWord a w).byte (a + 3) = w.extractLsb' 24 8 := State.byte_setByte_same _ _ _
  unfold State.word
  rw [b0, b1, b2, b3]
  apply BitVec.eq_of_getLsbD_eq
  intro i hi
  simp only [BitVec.getLsbD_append, BitVec.getLsbD_extractLsb']
  by_cases h1 : i < 8
  · simp [h1]
  · by_cases h2 : i < 16
    · simp [h1, show i - 8 < 8 by omega, show 8 + (i - 8) = i by omega]
    · by_cases h3 : i < 24
      · simp [h1, show ¬ i - 8 < 8 by omega, show i - 8 - 8 < 8 by omega, show 16 + (i - 8 - 8) = i by omega]
      · simp [h1, show ¬ i - 8 < 8 by omega, show ¬ i - 8 - 8 < 8 by omega, show i - 8 - 8 - 8 < 8 by omega,
          show 24 + (i - 8 - 8 - 8) = i by omega]

theorem State.word_setWord_ne (s : State) {a b : Nat} (w : Word) (h : b + 4 ≤ a ∨ a + 4 ≤ b) :
    (s.setWord a w).word b = s.word b := by
  unfold State.word
  rw [State.byte_setWord_ne, State.byte_setWord_ne, State.byte_setWord_ne, State.byte_setWord_ne] <;> omega

theorem State.word_congr {s t : State} (h : t.mem = s.mem) (a : Nat) : t.word a = s.word a := by
  unfold State.word; rw [State.byte_congr h, State.byte_congr h, State.byte_congr h, State.byte_congr h]

/-! Time. -/

/-- A 64-bit value reads as written. -/
theorem State.rd64_wr64 (s : State) {a v : Nat} (h : v < 2 ^ 64) : (s.wr64 a v).rd64 a = v := by
  unfold State.rd64 State.wr64
  rw [State.reg_setReg_ne _ _ (by omega : a ≠ a + 4), State.reg_setReg_same, State.reg_setReg_same, BitVec.toNat_ofNat,
    BitVec.toNat_ofNat]
  omega

end Sys2Proof.Machine
end

