-- ==== Sys2Proof/Laws/Take.lean ====
section
/-!
SUPPORT. What taking and answering a command packet does, said once: where an accepted packet leaves the device before its card acts,
and what the answer adds.
-/

namespace Sys2Proof.Machine

/-! Ring words. -/

theorem putRing_rest (n : Nat) : ∀ (ws : List Word) (i : Nat) (s : State),
    { s.putRing n i ws with mem := s.mem, poison := s.poison } = s
  | [], _, _ => rfl
  | w :: ws, i, s => by
    have h := putRing_rest n ws (i + 1) (s.setWord (s.ringAddr n i) w)
    unfold State.putRing
    have e := congrArg (fun t : State => { t with mem := s.mem, poison := s.poison }) h
    exact e

theorem putRing_regs (n : Nat) (ws : List Word) (i : Nat) (s : State) : (s.putRing n i ws).regs = s.regs := by
  have e := congrArg State.regs (putRing_rest n ws i s)
  exact e

theorem putRing_pap (n : Nat) (ws : List Word) (i : Nat) (s : State) : (s.putRing n i ws).pap = s.pap := by
  have e := congrArg State.pap (putRing_rest n ws i s)
  exact e

theorem putRing_rings (n : Nat) (ws : List Word) (i : Nat) (s : State) : (s.putRing n i ws).rings = s.rings := by
  have e := congrArg State.rings (putRing_rest n ws i s)
  exact e

theorem ringAddr_congr {s t : State} (h : t.rings = s.rings) (n i : Nat) : t.ringAddr n i = s.ringAddr n i := by
  unfold State.ringAddr State.ringLen State.geo; rw [h]

/-- A word written into a ring loses its poison mark. -/
theorem putRing_poison_sub (n : Nat) : ∀ (ws : List Word) (i : Nat) (s : State) (a : Nat),
    a ∈ (s.putRing n i ws).poison → a ∈ s.poison
  | [], _, _, _, h => h
  | w :: ws, i, s, a, h => by
    have h1 := putRing_poison_sub n ws (i + 1) _ a h
    exact (List.mem_filter.1 h1).1

theorem putRing_clean (n : Nat) : ∀ (ws : List Word) (i : Nat) (s : State) (j : Nat), j < ws.length →
    s.ringAddr n (i + j) ∉ (s.putRing n i ws).poison
  | [], _, _, _, h => absurd h (Nat.not_lt_zero _)
  | w :: ws, i, s, 0, _ => fun h => by
    have h1 := putRing_poison_sub n ws (i + 1) _ _ h
    simpa using (List.mem_filter.1 h1).2
  | w :: ws, i, s, j + 1, h => by
    have h1 := putRing_clean n ws (i + 1) (s.setWord (s.ringAddr n i) w) j (by simpa using h)
    rw [ringAddr_congr (s := s) rfl] at h1
    rw [show i + (j + 1) = i + 1 + j by omega]
    exact h1

theorem putRing_bytes (n : Nat) : ∀ (ws : List Word) (i : Nat) (s : State) (a : Nat),
    (∀ k, ¬ (s.ringAddr n k ≤ a ∧ a < s.ringAddr n k + 4)) → (s.putRing n i ws).byte a = s.byte a
  | [], _, _, _, _ => rfl
  | w :: ws, i, s, a, h => by
    unfold State.putRing
    rw [putRing_bytes n ws (i + 1) _ a (by intro k; rw [ringAddr_congr (s := s) rfl]; exact h k)]
    exact State.byte_setWord_ne _ _ (by have := h i; omega)

theorem putRing_poison (n : Nat) : ∀ (ws : List Word) (i : Nat) (s : State) (a : Nat),
    (∀ k, ¬ (s.ringAddr n k ≤ a ∧ a < s.ringAddr n k + 4)) → (a ∈ (s.putRing n i ws).poison ↔ a ∈ s.poison)
  | [], _, _, _, _ => Iff.rfl
  | w :: ws, i, s, a, h => by
    unfold State.putRing
    rw [putRing_poison n ws (i + 1) _ a (by intro k; rw [ringAddr_congr (s := s) rfl]; exact h k)]
    show a ∈ s.poison.filter (· ≠ s.ringAddr n i) ↔ _
    rw [List.mem_filter]
    have := h i
    simp only [ne_eq, decide_not, Bool.not_eq_eq_eq_not, Bool.not_true, decide_eq_false_iff_not, and_iff_left_iff_imp]
    intro _ e; omega

/-! `SameRegsBut`. -/

theorem SameRegsBut.of_regs {p : Nat → Prop} {s t : State} (h : t.regs = s.regs) : SameRegsBut p s t :=
  fun a _ => Or.inl (State.reg_congr h a)

theorem SameRegsBut.mono {p p' : Nat → Prop} {s t : State} (h : SameRegsBut p s t) (hp : ∀ a, p a → p' a) : SameRegsBut p' s t :=
  fun a n => h a (fun x => n (hp a x))

/-- A register outside `p` that is not the clock status keeps its value. -/
theorem SameRegsBut.reg {p : Nat → Prop} {s t : State} (h : SameRegsBut p s t) {a : Nat} (n : ¬ p a) (c : a ≠ Reg.CTL_CLK_STAT) :
    t.reg a = s.reg a :=
  (h a n).resolve_right (fun k => c k.1)

theorem SameRegsBut.pstate {p : Nat → Prop} {s t : State} (h : SameRegsBut p s t) (n : ¬ p Reg.PWR_STATE) : t.pstate = s.pstate := by
  have e : t.reg F.PWR_STATE_STATE.addr = s.reg F.PWR_STATE_STATE.addr := h.reg n (by decide)
  unfold State.pstate State.rd; rw [e]

theorem SameRegsBut.trans {p : Nat → Prop} (hp : ¬ p Reg.PWR_STATE) {s t u : State} (h : SameRegsBut p s t)
    (k : SameRegsBut p t u) : SameRegsBut p s u := by
  intro a n
  rcases k a n with e | ⟨rfl, hl, e⟩
  · rw [e]; exact h a n
  · refine Or.inr ⟨rfl, (h.pstate hp).symm.trans hl, e.trans ?_⟩
    show ((t.wr F.CTL_CLK_STAT_SYSLOCK 1).reg F.CTL_CLK_STAT_SYSLOCK.addr) = (s.wr F.CTL_CLK_STAT_SYSLOCK 1).reg F.CTL_CLK_STAT_SYSLOCK.addr
    unfold State.wr
    rw [State.reg_setReg_same, State.reg_setReg_same]
    rcases h Reg.CTL_CLK_STAT n with e1 | ⟨_, _, e1⟩
    · exact congrArg (fun w => putBits w _ _ 1) e1
    · have e2 : t.reg F.CTL_CLK_STAT_SYSLOCK.addr = putBits (s.reg F.CTL_CLK_STAT_SYSLOCK.addr) F.CTL_CLK_STAT_SYSLOCK.lo
          F.CTL_CLK_STAT_SYSLOCK.width 1 := e1.trans (State.reg_setReg_same s F.CTL_CLK_STAT_SYSLOCK.addr _)
      rw [e2]; exact putBits_putBits (by decide)

theorem SameRegsBut.wr {p : Nat → Prop} (s : State) (f : Field) (v : Nat) (h : p f.addr) : SameRegsBut p s (s.wr f v) :=
  fun _ n => Or.inl (State.reg_wr_ne s v (fun e => n (e.symm ▸ h)))

theorem SameRegsBut.sysRun {p : Nat → Prop} (s : State) : SameRegsBut p s s.sysRun := by
  intro a _
  unfold State.sysRun
  split
  · by_cases e : a = Reg.CTL_CLK_STAT
    · subst e; exact Or.inr ⟨rfl, ‹_›, rfl⟩
    · exact Or.inl (State.reg_set1_ne s e)
  · exact Or.inl rfl

/-! `PapolBut`. -/

theorem PapolBut.refl (p q : Nat → Prop) (s : State) : PapolBut p q s s :=
  ⟨.of_regs rfl, fun _ _ => rfl, fun _ _ => Iff.rfl, rfl⟩

theorem PapolBut.rings {p q : Nat → Prop} {s t : State} (h : PapolBut p q s t) : t.rings = s.rings := by
  have e := congrArg State.rings h.rest
  exact e

theorem papolReg_state : ¬ papolReg Reg.PWR_STATE := by
  rintro (⟨n, h, e | e⟩ | e)
  · unfold Reg.PWR_STATE Reg.DSP_RING_HIDX at e; omega
  · unfold Reg.PWR_STATE Reg.DSP_RING_DIDX at e; omega
  · revert e; decide

theorem PapolBut.trans {q : Nat → Prop} {s t u : State} (h : PapolBut papolReg q s t) (k : PapolBut papolReg q t u) :
    PapolBut papolReg q s u := by
  refine ⟨h.regs.trans papolReg_state k.regs, fun a n => (k.bytes a n).trans (h.bytes a n),
    fun a n => (k.poison a n).trans (h.poison a n), ?_⟩
  have e := congrArg (fun v : State => { v with regs := s.regs, mem := s.mem, pap := s.pap, poison := s.poison }) k.rest
  exact e.trans h.rest

theorem PapolBut.mono {p q p' q' : Nat → Prop} {s t : State} (h : PapolBut p q s t) (hp : ∀ a, p a → p' a) (hq : ∀ a, q a → q' a) :
    PapolBut p' q' s t :=
  ⟨h.regs.mono hp, fun a n => h.bytes a (fun x => n (hq a x)),
    fun a n => h.poison a (fun x => n (hq a x)), h.rest⟩

/-- An update of Papol's own state. -/
theorem PapolBut.pap {p q : Nat → Prop} {s t : State} (h : { t with pap := s.pap } = s) : PapolBut p q s t := by
  have e1 : t.regs = s.regs := by have e := congrArg State.regs h; exact e
  have e2 : t.mem = s.mem := by have e := congrArg State.mem h; exact e
  have e3 : t.poison = s.poison := by have e := congrArg State.poison h; exact e
  refine ⟨.of_regs e1, fun a _ => State.byte_congr e2 a, fun a _ => by rw [e3], ?_⟩
  rw [← e1, ← e2, ← e3]; exact h

/-- A write of a field of one of the registers that `p` names. -/
theorem PapolBut.wr {p q : Nat → Prop} (s : State) (f : Field) (v : Nat) (h : p f.addr) : PapolBut p q s (s.wr f v) :=
  ⟨.wr s f v h, fun _ _ => rfl, fun _ _ => Iff.rfl, rfl⟩

/-- SYS starting touches the clock status alone. -/
theorem PapolBut.sysRun {p q : Nat → Prop} (s : State) : PapolBut p q s s.sysRun := by
  refine ⟨.sysRun s, fun _ _ => ?_, fun _ _ => ?_, ?_⟩ <;> (unfold State.sysRun; split <;> rfl)

theorem PapolBut.putRing {p : Nat → Prop} (s : State) (n i : Nat) (ws : List Word) (hn : n < 4) :
    PapolBut p (papolByte s) s (s.putRing n i ws) := by
  have hb : ∀ a, ¬ papolByte s a → ∀ k, ¬ (s.ringAddr n k ≤ a ∧ a < s.ringAddr n k + 4) :=
    fun a h k e => h ⟨n, k, hn, e⟩
  refine ⟨.of_regs (putRing_regs n ws i s), fun a h => putRing_bytes n ws i s a (hb a h),
    fun a h => putRing_poison n ws i s a (hb a h), ?_⟩
  have h := putRing_rest n ws i s
  rw [← putRing_regs n ws i s, ← putRing_pap n ws i s]
  exact h

theorem papolByte_congr {s t : State} (h : t.rings = s.rings) : papolByte t = papolByte s := by
  funext a; unfold papolByte; simp only [ringAddr_congr h]

theorem hidx_papol {n : Nat} (h : n < 4) : papolReg (F.DSP_RING_HIDX_HIDX n).addr := Or.inl ⟨n, h, Or.inl rfl⟩
theorem didx_papol {n : Nat} (h : n < 4) : papolReg (F.DSP_RING_DIDX_DIDX n).addr := Or.inl ⟨n, h, Or.inr rfl⟩
theorem consec_papol : papolReg F.CTL_SEC_CNT_CONSEC.addr := Or.inr rfl

theorem ringPut_papol (s : State) {n : Nat} (ws : List Word) (hn : n < 4) : PapolBut papolReg (papolByte s) s (s.ringPut n ws) :=
  (PapolBut.putRing s n _ ws hn).trans (PapolBut.wr _ _ _ (didx_papol hn))

theorem ringPut_pap (s : State) (n : Nat) (ws : List Word) : (s.ringPut n ws).pap = s.pap := putRing_pap n ws _ s

/-! Replies. -/

/-- What the end of a written reply changes. -/
theorem wrote_pap (s : State) (h : HeldReply) : { s.wrote h with pap := s.pap } = s := by
  unfold State.wrote State.completed
  dsimp only
  split <;> split <;> rfl

theorem wrote_slots (s : State) (h : HeldReply) : (s.wrote h).pap.slots = s.pap.slots := by
  unfold State.wrote State.completed
  dsimp only
  split <;> split <;> rfl

theorem flushHeld_papol : ∀ (l : List HeldReply) (s : State), PapolBut papolReg (papolByte s) s (s.flushHeld l)
  | [], s => PapolBut.pap rfl
  | h :: rest, s => by
    unfold State.flushHeld
    split
    · have hp := ringPut_papol s (s.replyWords h) (n := 2) (by omega)
      have key : ∀ u : State, PapolBut papolReg (papolByte s) s u → PapolBut papolReg (papolByte s) s (u.flushHeld rest) := by
        intro u hu
        have := flushHeld_papol rest u
        rw [papolByte_congr hu.rings] at this
        exact hu.trans this
      exact key _ (hp.trans (PapolBut.pap (wrote_pap _ h)))
    · exact PapolBut.pap rfl

theorem emit_papol {s u : State} (h : HeldReply) (k : PapolBut papolReg (papolByte s) s u) :
    PapolBut papolReg (papolByte s) s (u.emit h) := by
  have := flushHeld_papol (u.pap.held ++ [h]) u
  rw [papolByte_congr k.rings] at this
  exact k.trans this

theorem completed_papol {q : Nat → Prop} {s u : State} (r : Bool) (c : BitVec 16) (k : PapolBut papolReg q s u) :
    PapolBut papolReg q s (u.completed r c) :=
  k.trans (PapolBut.pap rfl)

/-- What an answer touches. -/
theorem answer_papol (s : State) (op : Nat) (p : Packet) (auth journal : Bool) (st d : Nat) (tr : Bool) (ws : List Word) :
    PapolBut papolReg (papolByte s) s (s.answer op p auth journal st d tr ws) := by
  have h1 : ∀ e, PapolBut papolReg (papolByte s) s
      (if journal then { s with pap := { s.pap with replies := pushReply s.pap.replies e } } else s) := by
    intro e; split
    · exact PapolBut.pap rfl
    · exact PapolBut.refl _ _ _
  unfold State.answer
  dsimp only
  split
  · split
    · exact completed_papol _ _ (h1 _)
    · exact h1 _
  · exact emit_papol _ (h1 _)

/-- The newest journal entry, up to the ESEQ that it gets as it is written. -/
theorem updReply_last {r : Bool} {c : BitVec 16} {f : ReplyEntry → ReplyEntry} {P : ReplyEntry → Prop} (hf : ∀ e, P e → P (f e)) :
    ∀ {l : List ReplyEntry} {e : ReplyEntry}, l.getLast? = some e → P e → ∃ g, (updReply r c f l).getLast? = some g ∧ P g
  | [], _, h, _ => by simp at h
  | [x], e, h, hp => by
    simp only [List.getLast?_singleton, Option.some.injEq] at h
    subst h
    unfold updReply
    split
    · exact ⟨f x, rfl, hf x hp⟩
    · exact ⟨x, rfl, hp⟩
  | x :: y :: rest, e, h, hp => by
    have h' : (y :: rest).getLast? = some e := by simpa [List.getLast?_cons_cons] using h
    unfold updReply
    split
    · exact ⟨e, by rw [List.getLast?_cons_cons]; exact h', hp⟩
    · obtain ⟨g, hg, hpg⟩ := updReply_last hf h' hp
      refine ⟨g, ?_, hpg⟩
      cases hu : updReply r c f (y :: rest) with
      | nil => rw [hu] at hg; simp at hg
      | cons a b => rw [hu] at hg; rw [List.getLast?_cons_cons]; exact hg

/-- A property of a journal entry that its ESEQ does not matter to. -/
def Blind (P : ReplyEntry → Prop) : Prop := ∀ (e : ReplyEntry) (n : BitVec 16), P e → P { e with eseq := n }

theorem wrote_last {P : ReplyEntry → Prop} (hP : Blind P) {s : State} (x : HeldReply)
    (h : ∃ e, s.pap.replies.getLast? = some e ∧ P e) : ∃ e, (s.wrote x).pap.replies.getLast? = some e ∧ P e := by
  have key : ∀ u : State, (∃ e, u.pap.replies.getLast? = some e ∧ P e) →
      ∃ e, ((if x.final then u.completed x.ring1 x.cseq else u).pap.replies.getLast? = some e ∧ P e) := by
    intro u hu
    split <;> exact hu
  apply key
  split
  · obtain ⟨e, he, hp⟩ := h
    exact updReply_last (fun e hp => hP e _ hp) he hp
  · exact h

theorem flushHeld_last {P : ReplyEntry → Prop} (hP : Blind P) : ∀ (l : List HeldReply) (s : State),
    (∃ e, s.pap.replies.getLast? = some e ∧ P e) → ∃ e, (s.flushHeld l).pap.replies.getLast? = some e ∧ P e
  | [], _, h => h
  | x :: rest, s, h => by
    unfold State.flushHeld
    split
    · exact flushHeld_last hP rest _ (wrote_last hP x (by rw [ringPut_pap]; exact h))
    · exact h

theorem pushReply_last (l : List ReplyEntry) (e : ReplyEntry) : (pushReply l e).getLast? = some e := by
  unfold pushReply
  rw [List.getLast?_drop]
  simp

theorem emit_last {P : ReplyEntry → Prop} (hP : Blind P) {s : State} (h : HeldReply)
    (k : ∃ e, s.pap.replies.getLast? = some e ∧ P e) : ∃ e, (s.emit h).pap.replies.getLast? = some e ∧ P e :=
  flushHeld_last hP _ s k

/-- A journaled answer is the newest journal entry. -/
theorem answer_replied (s : State) (c : CmdSpec) (p : Packet) (auth : Bool) (st d : Nat) (tr : Bool) (ws : List Word) :
    Replied (s.answer c.opcode p auth true st d tr ws) c p st d ws := by
  have hb : Blind fun e => e.opcode = c.opcode ∧ e.ring1 = p.ring1 ∧ e.cseq = p.cseq ∧ e.status = st ∧
      e.detail = d ∧ e.len = ws.length ∧ e.payload = ws.take 16 := fun e n h => h
  let e : ReplyEntry := ⟨c.opcode, p.ring1, p.cseq, s.pap.eseq, st, d, ws.length, ws.take 16⟩
  have h1 : Replied { s with pap := { s.pap with replies := pushReply s.pap.replies e } } c p st d ws :=
    ⟨e, pushReply_last _ _, rfl, rfl, rfl, rfl, rfl, rfl, rfl⟩
  unfold State.answer
  simp only [if_true]
  split
  · split
    · exact h1
    · exact h1
  · exact emit_last hb _ h1

/-! Accepted packets. -/

theorem deliver_accepted {c : CmdSpec} {p : Packet} {s : State} (h : Accepted c p s) :
    s.deliver c.opcode p = some (s.placeRing p.ring (p.words c.opcode)) := by
  have h0 : s.occupancy p.ring = 0 := by
    have hl := bits_lt (s.reg (F.DSP_RING_HIDX_HIDX p.ring).addr) 0 17
    unfold State.occupancy
    rw [h.empty]
    show (s.hidx p.ring + 2 ^ 17 - s.hidx p.ring) % 2 ^ 17 = 0
    omega
  unfold State.deliver
  simp only [h0, if_true]
  rw [if_pos ⟨h.alive, h.used, h.fits⟩]

theorem takeUnknown_empty {s : State} {n : Nat} (h : s.occupancy n = 0) : s.takeUnknown n = s := by
  unfold State.takeUnknown
  dsimp only
  rw [if_neg]
  simp [State.hasPacket, h]

theorem occupancy_empty {s : State} {n : Nat} (h : s.didx n = s.hidx n) : s.occupancy n = 0 := by
  unfold State.occupancy; rw [h]; omega

theorem ready_accepted {c : CmdSpec} {p : Packet} {s : State} (h : Accepted c p s) : s.papolReady p.ring1 = true := by
  have hr : p.ring = if p.ring1 then 1 else 0 := rfl
  unfold State.papolReady
  rw [h.runs, ← hr, h.used, h.free]
  rcases h.turn with t | t <;> simp [t]

/-- The packet of an accepted command stands unpoisoned in its ring. -/
theorem placed_clean {c : CmdSpec} {p : Packet} {s : State} (h : Accepted c p s) :
    (s.placeRing p.ring (p.words c.opcode)).ringPoisoned p.ring ((s.placeRing p.ring (p.words c.opcode)).didx p.ring)
      (p.words c.opcode).length = false := by
  have hd : (s.placeRing p.ring (p.words c.opcode)).didx p.ring = s.hidx p.ring := by
    unfold State.placeRing State.didx
    rw [State.rd_wr_ne]
    · have e := State.rd_congr (putRing_regs p.ring (p.words c.opcode) (s.hidx p.ring) s) (F.DSP_RING_DIDX_DIDX p.ring)
      rw [e]; exact h.empty
    · simp only [F.DSP_RING_DIDX_DIDX, F.DSP_RING_HIDX_HIDX]; omega
  unfold State.ringPoisoned
  rw [hd, List.any_eq_false]
  intro j hj
  rw [List.mem_range] at hj
  have h1 := putRing_clean p.ring (p.words c.opcode) (s.hidx p.ring) s j hj
  have h2 : (s.placeRing p.ring (p.words c.opcode)).ringAddr p.ring (s.hidx p.ring + j) = s.ringAddr p.ring (s.hidx p.ring + j) :=
    ringAddr_congr (putRing_rings p.ring (p.words c.opcode) (s.hidx p.ring) s) _ _
  rw [h2]
  simpa [State.placeRing] using h1

theorem expected_congr {s t : State} (h0 : t.pap.exp0 = s.pap.exp0) (h1 : t.pap.exp1 = s.pap.exp1) (r : Bool) :
    t.expected r = s.expected r := by
  unfold State.expected; rw [h0, h1]

/-- The checks of R169 look at the session key, the lockout and the power state alone. -/
theorem check_congr {c : CmdSpec} {p : Packet} {s t : State} (hk : t.sec.key = s.sec.key)
    (hl : t.rd F.CTL_SEC_STAT_LOCKOUT = s.rd F.CTL_SEC_STAT_LOCKOUT) (ho : t.pwr.origin = s.pwr.origin)
    (h1 : t.rd F.PWR_STATE_TRANS = s.rd F.PWR_STATE_TRANS) (h2 : t.rd F.PWR_STATE_STATE = s.rd F.PWR_STATE_STATE)
    (h3 : t.rd F.PWR_STATE_TARGET = s.rd F.PWR_STATE_TARGET) : c.check p t = c.check p s := by
  unfold CmdSpec.check State.tagOk State.leaving State.on State.pstate
  rw [hk, hl, ho, h1, h2, h3]

theorem takeEack_rest (s : State) (e : BitVec 16) : ∃ x, s.takeEack e = { s with pap := { s.pap with eack := x } } := by
  unfold State.takeEack
  split
  · exact ⟨e, rfl⟩
  · exact ⟨s.pap.eack, rfl⟩

theorem sysRun_rest (s : State) : { s.sysRun with regs := s.regs } = s := by unfold State.sysRun; split <;> rfl

theorem sysRun_rd {s : State} {f : Field} (h : f.addr ≠ Reg.CTL_CLK_STAT) : s.sysRun.rd f = s.rd f := by
  unfold State.rd
  rw [(SameRegsBut.sysRun (p := fun _ => False) s).reg id h]

/-- An accepted packet goes to its card. -/
theorem take_accepted {c : CmdSpec} {p : Packet} {s : State} (h : Accepted c p s) (body : State → Res) (after : State → State) :
    s.take c p body after = (s.admitted c p).settle c p (body (s.admitted c p)) after := by
  have h0 : (if 8 ≤ s.rd F.CTL_SEC_CNT_CONSEC then s.startLockout else s) = s := if_neg (by have := h.calm; omega)
  have h1 : s.takeUnknown p.ring = s := takeUnknown_empty (occupancy_empty h.empty)
  have hd : (s.placeRing p.ring (p.words c.opcode)).didx p.ring = s.didx p.ring := by
    unfold State.placeRing State.didx
    rw [State.rd_wr_ne]
    · exact State.rd_congr (putRing_regs p.ring (p.words c.opcode) (s.hidx p.ring) s) (F.DSP_RING_DIDX_DIDX p.ring)
    · simp only [F.DSP_RING_DIDX_DIDX, F.DSP_RING_HIDX_HIDX]; omega
  unfold State.take State.takeWith
  dsimp only
  rw [h0, h1, deliver_accepted h]
  dsimp only
  rw [if_neg (by rw [ready_accepted h]; decide), if_neg (by have := h.len; omega)]
  have hd2 : (s.placeRing p.ring (p.words c.opcode)).sysRun.didx p.ring = s.didx p.ring := by
    rw [← hd]
    exact sysRun_rd (by simp only [F.DSP_RING_DIDX_DIDX, Reg.CTL_CLK_STAT]; omega)
  have hc : (s.placeRing p.ring (p.words c.opcode)).sysRun.ringPoisoned p.ring
      ((s.placeRing p.ring (p.words c.opcode)).sysRun.didx p.ring) (p.words c.opcode).length = false := by
    rw [hd2, ← hd, ← placed_clean h]
    have e := sysRun_rest (s.placeRing p.ring (p.words c.opcode))
    have e1 : (s.placeRing p.ring (p.words c.opcode)).sysRun.rings = (s.placeRing p.ring (p.words c.opcode)).rings := by
      have e2 := congrArg State.rings e; exact e2
    have e3 : (s.placeRing p.ring (p.words c.opcode)).sysRun.poison = (s.placeRing p.ring (p.words c.opcode)).poison := by
      have e2 := congrArg State.poison e; exact e2
    unfold State.ringPoisoned
    simp only [ringAddr_congr e1, e3]
  unfold State.consume
  rw [hc]
  simp only [Bool.false_eq_true, if_false]
  rw [hd2]
  unfold State.judge
  rw [if_neg (fun e => e h.whole)]
  dsimp only
  generalize hs1 : (s.placeRing p.ring (p.words c.opcode)).sysRun.wr (F.DSP_RING_DIDX_DIDX p.ring)
    (s.didx p.ring + (p.words c.opcode).length) = s1
  have hrest : { s1 with regs := s.regs, mem := s.mem, poison := s.poison } = s := by
    rw [← hs1]
    have e := putRing_rest p.ring (p.words c.opcode) (s.hidx p.ring) s
    have e2 := congrArg (fun v : State => { v with regs := s.regs }) e
    have e3 := congrArg (fun v : State => { v with regs := s.regs, mem := s.mem, poison := s.poison })
      (sysRun_rest (s.placeRing p.ring (p.words c.opcode)))
    exact e3.trans e2
  have hpap : s1.pap = s.pap := by have e := congrArg State.pap hrest; exact e
  have hreg : ∀ f : Field, f.addr ≠ (F.DSP_RING_DIDX_DIDX p.ring).addr → f.addr ≠ (F.DSP_RING_HIDX_HIDX p.ring).addr →
      f.addr ≠ Reg.CTL_CLK_STAT → s1.rd f = s.rd f := by
    intro f hf hg hk
    rw [← hs1, State.rd_wr_ne _ _ hf, sysRun_rd hk]
    unfold State.placeRing
    rw [State.rd_wr_ne _ _ hg]
    exact State.rd_congr (putRing_regs p.ring (p.words c.opcode) (s.hidx p.ring) s) f
  obtain ⟨x, hx⟩ := takeEack_rest s1 p.eack
  have hexp : (s1.takeEack p.eack).expected p.ring1 = s.expected p.ring1 := by
    rw [hx]; exact expected_congr (congrArg Papol.exp0 hpap) (congrArg Papol.exp1 hpap) _
  rw [if_neg (by rw [hexp]; exact fun e => e h.expect)]
  have hadm : (if p.auth then ((s1.takeEack p.eack).advance p.ring1).authPassed else (s1.takeEack p.eack).advance p.ring1)
      = s.admitted c p := by
    unfold State.admitted; rw [hs1]
  have hcheck : c.check p ((s1.takeEack p.eack).advance p.ring1) = none := by
    rw [check_congr (s := s) ?_ ?_ ?_ ?_ ?_ ?_, h.passes]
    · rw [hx]; have e := congrArg (fun v : State => v.sec.key) hrest; exact e
    · rw [hx]; refine (State.rd_congr rfl _).trans (hreg _ ?_ ?_ (by decide)) <;>
        simp only [F.CTL_SEC_STAT_LOCKOUT, F.DSP_RING_DIDX_DIDX, F.DSP_RING_HIDX_HIDX] <;> omega
    · rw [hx]; have e := congrArg (fun v : State => v.pwr.origin) hrest; exact e
    all_goals (rw [hx]; refine (State.rd_congr rfl _).trans (hreg _ ?_ ?_ (by decide)) <;> simp only [F.PWR_STATE_TRANS, F.PWR_STATE_STATE,
      F.PWR_STATE_TARGET, F.DSP_RING_DIDX_DIDX, F.DSP_RING_HIDX_HIDX] <;> omega)
  rw [hcheck]
  dsimp only
  rw [hadm]

/-! What an accepted packet leaves alone. -/

theorem PapolBut.over {p q : Nat → Prop} {s t : State} (h : PapolBut p q s t) : s.over t = s := h.rest

theorem ring_lt (p : Packet) : p.ring < 4 := by unfold Packet.ring; split <;> omega

/-- The state on which the card acts differs from the one before the packet in Papol's state alone. -/
theorem admitted_papol (s : State) (c : CmdSpec) (p : Packet) : PapolBut papolReg (papolByte s) s (s.admitted c p) := by
  have h1 : PapolBut papolReg (papolByte s) s (s.placeRing p.ring (p.words c.opcode)) :=
    (PapolBut.putRing s p.ring _ _ (ring_lt p)).trans (PapolBut.wr _ _ _ (hidx_papol (ring_lt p)))
  have h2 := (h1.trans (PapolBut.sysRun _)).trans (PapolBut.wr (p := papolReg) (q := papolByte s) _ (F.DSP_RING_DIDX_DIDX p.ring)
    (s.didx p.ring + (p.words c.opcode).length) (didx_papol (ring_lt p)))
  unfold State.admitted
  dsimp only
  generalize State.wr _ _ _ = s1 at h2
  obtain ⟨x, hx⟩ := takeEack_rest s1 p.eack
  have h3 : PapolBut papolReg (papolByte s) s ((s1.takeEack p.eack).advance p.ring1) := by
    rw [hx]; exact h2.trans (PapolBut.pap rfl)
  split
  · exact h3.trans (PapolBut.wr _ _ _ consec_papol)
  · exact h3

theorem admitted_over (s : State) (c : CmdSpec) (p : Packet) : s.over (s.admitted c p) = s := (admitted_papol s c p).rest

theorem rd_admitted {s : State} {c : CmdSpec} {p : Packet} {f : Field} (h : ¬ papolReg f.addr)
    (k : f.addr ≠ Reg.CTL_CLK_STAT := by decide) : (s.admitted c p).rd f = s.rd f := by
  unfold State.rd; rw [(admitted_papol s c p).regs.reg h k]

/-- Papol's own state at the card: the series advanced and EACK stored, nothing else. -/
theorem admitted_pap (s : State) (c : CmdSpec) (p : Packet) : ∃ x y z, (s.admitted c p).pap = { s.pap with exp0 := x, exp1 := y, eack := z } := by
  have h1 : ((s.placeRing p.ring (p.words c.opcode)).sysRun.wr (F.DSP_RING_DIDX_DIDX p.ring)
      (s.didx p.ring + (p.words c.opcode).length)).pap = s.pap := by
    have e := congrArg State.pap (sysRun_rest (s.placeRing p.ring (p.words c.opcode)))
    exact e.trans (putRing_pap p.ring (p.words c.opcode) (s.hidx p.ring) s)
  unfold State.admitted
  dsimp only
  generalize State.wr _ _ _ = s1 at h1
  obtain ⟨x, hx⟩ := takeEack_rest s1 p.eack
  rw [hx]
  have key : ∃ a b z, ((({ s1 with pap := { s1.pap with eack := x } } : State)).advance p.ring1).pap
      = { s.pap with exp0 := a, exp1 := b, eack := z } := ⟨_, _, _, by unfold State.advance; dsimp only; rw [h1]⟩
  split
  · exact key
  · exact key

theorem admitted_slots (s : State) (c : CmdSpec) (p : Packet) : (s.admitted c p).pap.slots = s.pap.slots := by
  obtain ⟨x, y, z, h⟩ := admitted_pap s c p; rw [h]

theorem admitted_run (s : State) (c : CmdSpec) (p : Packet) : (s.admitted c p).pap.run = s.pap.run := by
  obtain ⟨x, y, z, h⟩ := admitted_pap s c p; rw [h]

theorem admitted_replies (s : State) (c : CmdSpec) (p : Packet) : (s.admitted c p).pap.replies = s.pap.replies := by
  obtain ⟨x, y, z, h⟩ := admitted_pap s c p; rw [h]

theorem admitted_free {s : State} {c : CmdSpec} {p : Packet} {ts : List Target} (h : Free s ts) : Free (s.admitted c p) ts := by
  unfold Free State.pendFor? State.freeSlot? at *
  rw [admitted_slots]; exact h

/-! Events. -/

/-- A change of Papol's state alone. -/
def PapolKept (s t : State) : Prop := t.pap.replies = s.pap.replies ∧ t.pap.slots = s.pap.slots ∧ t.pap.run = s.pap.run

theorem PapolKept.trans {s t u : State} (h : PapolKept s t) (k : PapolKept t u) : PapolKept s u := by
  obtain ⟨replies, slots, run⟩ := h
  exact ⟨k.1.trans replies, k.2.1.trans slots, k.2.2.trans run⟩

theorem trimEvents_papol : ∀ (n : Nat) (s : State), (∃ x, s.trimEvents n = { s with pap := x }) ∧ PapolKept s (s.trimEvents n)
  | 0, s => ⟨⟨s.pap, rfl⟩, rfl, rfl, rfl⟩
  | n + 1, s => by
    have key : ∀ u : State, (∃ x, u = { s with pap := x }) → PapolKept s u →
        (∃ x, u.trimEvents n = { s with pap := x }) ∧ PapolKept s (u.trimEvents n) := by
      rintro u ⟨x, rfl⟩ hk
      obtain ⟨⟨y, hy⟩, h2⟩ := trimEvents_papol n { s with pap := x }
      exact ⟨⟨y, hy⟩, hk.trans h2⟩
    unfold State.trimEvents
    split
    · exact ⟨⟨s.pap, rfl⟩, rfl, rfl, rfl⟩
    · split
      · exact ⟨⟨s.pap, rfl⟩, rfl, rfl, rfl⟩
      · dsimp only
        split
        · unfold State.keepRepost
          split <;> exact key _ ⟨_, rfl⟩ ⟨rfl, rfl, rfl⟩
        · split
          · exact key _ ⟨_, rfl⟩ ⟨rfl, rfl, rfl⟩
          · exact key _ ⟨_, rfl⟩ ⟨rfl, rfl, rfl⟩

theorem flushEvents_papol : ∀ (l acc : List EventEntry) (s : State),
    PapolBut papolReg (papolByte s) s (State.flushEvents acc l s) ∧ PapolKept s (State.flushEvents acc l s)
  | [], _, s => ⟨PapolBut.pap rfl, rfl, rfl, rfl⟩
  | e :: rest, acc, s => by
    unfold State.flushEvents
    split
    · exact flushEvents_papol rest _ s
    · split
      · have hp := ringPut_papol s (e.words false) (n := 3) (by omega)
        have h1 : PapolBut papolReg (papolByte s) s ({ s.ringPut 3 (e.words false) with
            pap := { s.pap with overflow := if s.pap.overflow = some e.eseq then none else s.pap.overflow } } : State) :=
          hp.trans (PapolBut.pap (by
            have e := ringPut_pap s 3 (e.words false)
            show ({ s.ringPut 3 _ with pap := (s.ringPut 3 _).pap } : State) = s.ringPut 3 _
            rfl))
        obtain ⟨h2, h3⟩ := flushEvents_papol rest (acc ++ [{ e with written := true }]) ({ s.ringPut 3 (e.words false) with
            pap := { s.pap with overflow := if s.pap.overflow = some e.eseq then none else s.pap.overflow } } : State)
        rw [papolByte_congr h1.rings] at h2
        exact ⟨h1.trans h2, PapolKept.trans ⟨rfl, rfl, rfl⟩ h3⟩
      · exact ⟨PapolBut.pap rfl, rfl, rfl, rfl⟩

/-- What issuing an event touches. -/
theorem issueAt_papol (s : State) (code : Nat) (ws : List Word) (r : Bool) (t : Word64) :
    PapolBut papolReg (papolByte s) s (s.issueAt code ws r t) ∧ PapolKept s (s.issueAt code ws r t) := by
  unfold State.issueAt State.flush
  obtain ⟨⟨x, hx⟩, h2⟩ := trimEvents_papol 4 (s.journalEvent code ws r t)
  obtain ⟨h3, h4⟩ := flushEvents_papol ((s.journalEvent code ws r t).trimEvents 4).pap.events [] ((s.journalEvent code ws r t).trimEvents 4)
  have h1 : PapolBut papolReg (papolByte s) s ((s.journalEvent code ws r t).trimEvents 4) := by
    rw [hx]; exact PapolBut.pap rfl
  rw [papolByte_congr h1.rings] at h3
  exact ⟨h1.trans h3, (PapolKept.trans (s := s) ⟨rfl, rfl, rfl⟩ h2).trans h4⟩

/-- What raising an event touches. -/
theorem raiseR_papol (s : State) (code : Nat) (ws : List Word) (r : Bool) :
    PapolBut papolReg (papolByte s) s (s.raiseR code ws r) ∧ PapolKept s (s.raiseR code ws r) := by
  unfold State.raiseR
  split
  · have h := issueAt_papol s.sysRun code ws r (BitVec.ofNat 64 s.now)
    rw [papolByte_congr (PapolBut.sysRun (p := papolReg) (q := papolByte s) s).rings] at h
    have e := congrArg State.pap (sysRun_rest s)
    exact ⟨(PapolBut.sysRun s).trans h.1, PapolKept.trans ⟨congrArg Papol.replies e, congrArg Papol.slots e, congrArg Papol.run e⟩ h.2⟩
  · split
    · exact ⟨PapolBut.pap rfl, rfl, rfl, rfl⟩
    · exact ⟨PapolBut.pap rfl, rfl, rfl, rfl⟩

theorem raise_papol (s : State) (code : Nat) (ws : List Word) :
    PapolBut papolReg (papolByte s) s (s.raise code ws) ∧ PapolKept s (s.raise code ws) := raiseR_papol s code ws false

theorem raiseClamps_papol (op : Nat) : ∀ (cl : List Clamp) (s : State),
    PapolBut papolReg (papolByte s) s (s.raiseClamps op cl) ∧ PapolKept s (s.raiseClamps op cl)
  | [], s => ⟨PapolBut.pap rfl, rfl, rfl, rfl⟩
  | c :: cl, s => by
    have h := raise_papol s evPolicyClamp [w32 (op * 2 ^ 20 + c.unit % 16 * 2 ^ 16 + c.field % 256 * 2 ^ 8 + c.pos % 256), w32 c.value]
    have k := raiseClamps_papol op cl (s.raise evPolicyClamp
      [w32 (op * 2 ^ 20 + c.unit % 16 * 2 ^ 16 + c.field % 256 * 2 ^ 8 + c.pos % 256), w32 c.value])
    rw [papolByte_congr h.1.rings] at k
    exact ⟨h.1.trans k.1, h.2.trans k.2⟩

/-! Cards. -/

theorem Replied.congr {s t : State} {c : CmdSpec} {p : Packet} {st d : Nat} {ws : List Word} (h : t.pap.replies = s.pap.replies)
    (k : Replied s c p st d ws) : Replied t c p st d ws := by
  obtain ⟨e, he⟩ := k; exact ⟨e, by rw [h]; exact he⟩

theorem countCfg_papol (s : State) (b : Bool) (st : Nat) : PapolBut papolReg (papolByte s) s (s.countCfg b st) ∧ PapolKept s (s.countCfg b st) := by
  unfold State.countCfg; split <;> exact ⟨PapolBut.pap rfl, rfl, rfl, rfl⟩

/-- A command whose card is done answers so, and leaves what the card leaves but for Papol's own state. -/
theorem card_done {c : CmdSpec} {p : Packet} {s s1 : State} {body : State → Res} {st d : Nat} {ws : List Word} {cl : List Clamp}
    (h : Accepted c p s) (hb : body (s.admitted c p) = .done st d ws cl s1) :
    ∃ t, s.card c p body = .next t ∧ Replied t c p st d ws ∧ PapolBut papolReg (papolByte s1) s1 t := by
  refine ⟨_, congrArg Host.Outcome.next (take_accepted h body id), ?_⟩
  rw [hb]
  unfold State.settle
  dsimp only [id]
  generalize htr : (decide (c.opcode = 0x002 ∧ 16 < bits (pw ws 0) 0 16)) = tr
  have h1 := answer_papol s1 c.opcode p p.auth true st d tr ws
  have h2 := answer_replied s1 c p p.auth st d tr ws
  have h3 := countCfg_papol (s1.answer c.opcode p p.auth true st d tr ws) c.cfg st
  have h4 := raiseClamps_papol c.opcode cl ((s1.answer c.opcode p p.auth true st d tr ws).countCfg c.cfg st)
  rw [papolByte_congr h1.rings] at h3
  rw [papolByte_congr (h1.trans h3.1).rings] at h4
  exact ⟨(h2.congr h3.2.1).congr h4.2.1, (h1.trans h3.1).trans h4.1⟩

/-- A command whose card refuses it has no effect beyond Papol's own state (R169). -/
theorem card_refuse {c : CmdSpec} {p : Packet} {s : State} {body : State → Res} {st d : Nat}
    (h : Accepted c p s) (hb : body (s.admitted c p) = .refuse st d) :
    ∃ t, s.card c p body = .next t ∧ Replied t c p st d [] ∧ PapolBut papolReg (papolByte s) s t := by
  refine ⟨_, congrArg Host.Outcome.next (take_accepted h body id), ?_⟩
  rw [hb]
  unfold State.settle
  have h1 := answer_papol (s.admitted c p) c.opcode p p.auth true st d false []
  rw [papolByte_congr (admitted_papol s c p).rings] at h1
  exact ⟨answer_replied (s.admitted c p) c p p.auth st d false [], (admitted_papol s c p).trans h1⟩

theorem mem_insertPend (e : PendEntry) : ∀ l : List PendEntry, e ∈ insertPend e l
  | [] => List.mem_singleton.2 rfl
  | f :: rest => by
    unfold insertPend
    split
    · exact List.mem_cons_self
    · exact List.mem_cons_of_mem _ (mem_insertPend e rest)

theorem flushHeld_slots : ∀ (l : List HeldReply) (s : State), (s.flushHeld l).pap.slots = s.pap.slots
  | [], _ => rfl
  | h :: rest, s => by
    have e := ringPut_pap s 2 (s.replyWords h)
    unfold State.flushHeld
    split
    · rw [flushHeld_slots rest, wrote_slots, e]
    · rfl

theorem answer_slots (s : State) (op : Nat) (p : Packet) (auth journal : Bool) (st d : Nat) (tr : Bool) (ws : List Word) :
    (s.answer op p auth journal st d tr ws).pap.slots = s.pap.slots := by
  have h1 : ∀ e, (if journal then { s with pap := { s.pap with replies := pushReply s.pap.replies e } } else s).pap.slots = s.pap.slots := by
    intro e; split <;> rfl
  have h2 : ∀ (u : State) (x : HeldReply), u.pap.slots = s.pap.slots → (u.emit x).pap.slots = s.pap.slots :=
    fun u x k => (flushHeld_slots _ u).trans k
  unfold State.answer
  dsimp only
  split
  · split
    · exact h1 _
    · exact h1 _
  · exact h2 _ _ (h1 _)

/-- A command that its card leaves pending pends in the lowest free slot. -/
theorem card_pend {c : CmdSpec} {p : Packet} {s s1 : State} {body : State → Res} {ws : List Word} {ts : List Target}
    (h : Accepted c p s) (hb : body (s.admitted c p) = .pend ws ts s1) (hf : s1.freeSlot? ≠ none) :
    ∃ t, s.card c p body = .next t ∧ Pends t c p ws ts ∧ PapolBut papolReg (papolByte s1) s1 t := by
  refine ⟨_, congrArg Host.Outcome.next (take_accepted h body id), ?_⟩
  rw [hb]
  unfold State.settle
  dsimp only [id]
  cases hk : s1.freeSlot? with
  | none => exact absurd hk hf
  | some k =>
    dsimp only
    let e : PendEntry := ⟨k, c.opcode, p.ring1, p.cseq, p.payload, ts, c.cfg, none⟩
    let s2 : State := { s1 with pap := { s1.pap with slots := insertPend e s1.pap.slots } }
    have h1 := answer_papol s2 c.opcode p p.auth true stsPending k false ws
    have h2 := answer_replied s2 c p p.auth stsPending k false ws
    have h3 := answer_slots s2 c.opcode p p.auth true stsPending k false ws
    refine ⟨⟨e, ?_, rfl, rfl, rfl, rfl, rfl, rfl, h2⟩, ?_⟩
    · show e ∈ (s2.answer c.opcode p p.auth true stsPending k false ws).pap.slots
      rw [h3]; exact mem_insertPend e _
    · exact (PapolBut.pap (p := papolReg) (q := papolByte s1) (s := s1) (t := s2) rfl).trans h1

end Sys2Proof.Machine
end

