-- ==== Sys2Proof/WellFormed.lean ====
section
/-!
DEFINITION. Which operands a command can have, beyond what their types say. The machine gives every command a meaning, well-formed or
not; a statement takes Instr.wf as a premise where it rests on these lengths.
-/

namespace Sys2Proof

/-- A packet's LEN is at most 4 096 (spec/04_command_protocol.md, R162, R168), and it carries the eight tag words exactly where AUTH
is set. -/
def Packet.wf (p : Packet) : Bool := decide (p.payload.length ≤ 4096) && decide (p.tag.length = if p.auth then 8 else 0)

/-- A frame of a stream has at most 32 channels (spec/05_streams_ports.md, STREAM_OPEN NCH). -/
def FrameIn.wf (f : FrameIn) : Bool := decide (f.samples.length ≤ 32) && decide (f.span.length ≤ 32)

/-- A channel-status block has 192 frames (IEC 60958-3; spec/05_streams_ports.md, R247), each of a subframe per channel. -/
def csBlockWf (framesA framesB : List Subframe) : Bool := decide (framesA.length = 192) && decide (framesB.length = 192)

/-- An engine's register file has 168 words (spec/06_engines_leap.md, R263); its writes name words. -/
def BlockOut.wf (b : BlockOut) : Bool := decide (b.core.length = 168) && b.ops.all fun e => decide (e.2.addr % 4 = 0)

/-- Whether a command's operands have the lengths that the spec gives them. -/
def Instr.wf : Instr → Bool
  | .nop p => p.wf
  | .stateSync p => p.wf
  | .journalRead p => p.wf
  | .sysInfo p => p.wf
  | .eventCfg p => p.wf
  | .loopPin p => p.wf
  | .sysReset p => p.wf
  | .sysResetExecute => true
  | .streamOpen p => p.wf
  | .streamClose p => p.wf
  | .streamCloseForce p => p.wf
  | .streamCloseDone _ => true
  | .streamStatus p => p.wf
  | .streamFrame _ frame => frame.wf
  | .portCfg p => p.wf
  | .portEnable p => p.wf
  | .portFrameFound _ => true
  | .tdmFrame _ _ _ => true
  | .tdmLost _ => true
  | .rateerr _ _ => true
  | .tdmFmtApply _ => true
  | .spdifRxCfg p => p.wf
  | .spdifTxCfg p => p.wf
  | .spdifCsRead p => p.wf
  | .spdifCsWrite p => p.wf
  | .spdifLock _ => true
  | .spdifLost => true
  | .spdifCsBlock sent a b _ _ => sent || csBlockWf a b
  | .asrcCfg p => p.wf
  | .asrcLock _ => true
  | .asrcUnlock _ => true
  | .graphLoad p => p.wf
  | .graphLoadDone => true
  | .graphStart p => p.wf
  | .graphStop p => p.wf
  | .graphStopDone => true
  | .graphMolt p => p.wf
  | .graphMoltSwap => true
  | .graphParam p => p.wf
  | .spareReserve p => p.wf
  | .engineStatus p => p.wf
  | .blockTick => true
  | .checkpointSeal _ _ => true
  | .engineBlockEnd _ out => out.wf
  | .leapRead _ _ _ => true
  | .lockstep _ => true
  | .engecc _ => true
  | .engprog _ _ => true
  | .spareLoadDone _ => true
  | .engineSelftestDone _ _ => true
  | .inject _ _ => true
  | .scrubRead _ _ _ _ => true
  | .rowReplaceDone _ => true
  | .bankRetire _ => true
  | .marchRun p => p.wf
  | .marchRunAbort p => p.wf
  | .marchRowStart _ => true
  | .marchRowRelease _ => true
  | .spkGroupCfg p => p.wf
  | .spkChanCfg p => p.wf
  | .spkEnable p => p.wf
  | .spkDisable p => p.wf
  | .spkLimit p => p.wf
  | .spkRetry p => p.wf
  | .start _ _ => true
  | .stop _ _ => true
  | .spkPendingStart _ => true
  | .spkCheckDone _ _ => true
  | .spkChargeDone _ => true
  | .spkLockDone _ => true
  | .spkUnmuteDone _ => true
  | .spkMuteDone _ => true
  | .spkDischargeDone _ => true
  | .muteNFall => true
  | .muteNRise => true
  | .ilimTrip _ _ _ => true
  | .shortClassify _ _ _ => true
  | .retryPulse _ _ _ => true
  | .dcWindow _ _ _ => true
  | .pvdduv _ => true
  | .pvddov _ => true
  | .pvddRestart _ => true
  | .thermalSample _ _ _ _ _ => true
  | .sliceDrop _ _ _ => true
  | .legFault _ _ => true
  | .legRegrowRelease _ => true
  | .spareSelftest _ _ => true
  | .legSelftestDone _ _ _ => true
  | .xptUpdate _ _ => true
  | .xptTransfer _ => true
  | .croakerCfg p => p.wf
  | .croakerPlay p => p.wf
  | .alertRise _ => true
  | .alertFall _ => true
  | .croakerSlotEnd _ => true
  | .hplineCfg p => p.wf
  | .hpPumpDone => true
  | .hpReleaseDone _ => true
  | .hpUnmuteDone _ => true
  | .hpMuteDone _ => true
  | .hpShortDone _ => true
  | .cvCfg p => p.wf
  | .cvTrack p => p.wf
  | .cvDeglitchEnd _ => true
  | .clrNFall => true
  | .clrNRise => true
  | .pllCfg p => p.wf
  | .swpllSet p => p.wf
  | .rampLoad p => p.wf
  | .tunedFreq p => p.wf
  | .chameleonCfg p => p.wf
  | .syncCfg p => p.wf
  | .swpllUpdate _ => true
  | .swpllTransfer => true
  | .rampEnd => true
  | .pllWindow _ _ => true
  | .pllCoastExpire _ => true
  | .refLost => true
  | .refReturn => true
  | .syncInEdge _ _ => true
  | .syncTimeout => true
  | .aonXt32Switch => true
  | .aonfail => true
  | .loadDcTest p => p.wf
  | .loadDcChannelDone _ _ _ => true
  | .loadAcTest p => p.wf
  | .acToneDone _ _ => true
  | .acWindow _ _ _ => true
  | .jackStatus p => p.wf
  | .jackInsert => true
  | .jackRemove => true
  | .jackClassify _ => true
  | .buttonPress _ => true
  | .buttonRelease _ => true
  | .ainCfg p => p.wf
  | .pgaApply _ => true
  | .micbiasCfg p => p.wf
  | .micbiasRampDone _ => true
  | .pdmCfg p => p.wf
  | .decimCfg p => p.wf
  | .zeroiseDone => true
  | .tapPeriod _ => true
  | .wkdLoad p => p.wf
  | .wkdLoadDone => true
  | .wkdEnable p => p.wf
  | .wkdHop _ => true
  | .gateTimeout => true
  | .wakeHandover p => p.wf
  | .wakeHandoverClose p => p.wf
  | .pttCfg p => p.wf
  | .pttPress => true
  | .pttRelease => true
  | .madcSlot _ => true
  | .madcArbitrate _ _ _ _ => true
  | .madcFailover => true
  | .madcCoreTest _ _ _ => true
  | .mrefCheck _ _ => true
  | .resume _ => true
  | .madcRead p _ _ _ => p.wf
  | .tdacTest p _ _ => p.wf
  | .powerState p => p.wf
  | .powerStepDone => true
  | .brumateWindowEnd => true
  | .brumateExit _ => true
  | .brumateArrive => true
  | .wakeBusMatch => true
  | .gpioWake _ => true
  | .powerPermit p => p.wf
  | .powerDomainOn p => p.wf
  | .powerDomainOff p => p.wf
  | .powerDomainOffForce p => p.wf
  | .domainPowerDone _ => true
  | .sysOnDemand => true
  | .wakeCfg p => p.wf
  | .release _ => true
  | .regAcknowledge _ _ => true
  | .reglink _ _ => true
  | .safetyCfg p => p.wf
  | .faultRead p => p.wf
  | .faultClear p => p.wf
  | .selftestRun p => p.wf
  | .selftestDone _ _ => true
  | .safeRelease p => p.wf
  | .deadlineExpire _ => true
  | .parityScan _ _ => true
  | .loud _ _ _ _ _ => true
  | .dutyCheck _ _ => true
  | .loopmod _ => true
  | .vote _ => true
  | .alertpin => true
  | .voiceStuck _ _ => true
  | .smlock => true
  | .smwdog => true
  | .fnLatchExpire => true
  | .fnReadback _ => true
  | .clkmon _ _ _ _ => true
  | .safeosc _ => true
  | .vmon _ _ => true
  | .latentTest _ _ => true
  | .sessionOpen p => p.wf
  | .sessionOpenDone => true
  | .sessionClose p => p.wf
  | .sessionIdleTimeout => true
  | .lockout => true
  | .lockoutEnd => true
  | .fwMolt p => p.wf
  | .fwMoltResume => true
  | .attest p => p.wf
  | .debugChallenge p => p.wf
  | .nonceExpire => true
  | .debugUnlock p => p.wf
  | .extest => true
  | .fuseProgram p => p.wf
  | .lifecycleAdvance p => p.wf
  | .ageingRead p => p.wf
  | .replan p _ _ => p.wf
  | .replanRun => true
  | .baskRead p => p.wf
  | .baskTick _ => true
  | .ringOscWindow _ _ _ => true
  | .ronSample _ _ _ _ => true
  | .repairStatus p => p.wf
  | .reset _ => true
  | .boot _ => true
  | .bootGo _ _ => true
  | .supervisorRestart => true
  | .registerWrite _ _ _ => true
  | .postedWriteLand _ => true
  | .hostUnlock _ _ => true
  | .rcRead _ _ => true
  | .loRead _ _ => true
  | .spiFrameEnd _ => true
  | .i2cStop _ => true
  | .ringEnable _ _ _ => true
  | .doorbell _ _ _ => true
  | .ringResync _ => true
  | .replyWrite => true
  | .eventWrite => true
  | .eventRepost => true
  | .suplock _ => true
  | .safetyMonitorRestart => true
  | .supplyMonitorReset => true
  | .pttWake => true
  | .regrowSettleEnd _ _ => true
  | .loopCoefficientsReloaded _ => true
  | .syncInTimeout => true
  | .attestDone => true
  | .debugUnlockDone => true
  | .fuseProgramDone _ => true
  | .lifecycleAdvanceDone => true
  | .moltResumeTimeout => true

end Sys2Proof
end

