-- ==== Sys2Proof/Tests/Slice0.lean ====
section
/-!
SUPPORT. The model's own tests: operands that WellFormed.lean refuses, the worked examples of the spec, and for every obligation that
has hypotheses a theorem witness_<Name> with a concrete state and operands that meet all of them, clause by clause. The signed images
carry real ECDSA P-256 signatures of a key made for these tests; a witness over a Papol image has that key's hash as its own
hypothesis, since the ROM's is Config.bydoxonHash, which has no value (log entry 1).
-/

open Sys2Proof Sys2Proof.Machine Host

section

/- One theorem at a time: together their kernel evaluations would need more threads than the memory limit of a check allows. -/
set_option Elab.async false

namespace Sys2Proof.Machine

/-! States and packets to test on. -/

/-- Several register fields written one after the other. -/
def State.wrs (s : State) (l : List (Field × Nat)) : State := l.foldl (fun z x => z.wr x.1 x.2) s
/-- The device in power state `n`. -/
def State.at4 (s : State) (n : Nat) : State := s.wr F.PWR_STATE_STATE n
/-- A pending command in the last slot of the list. -/
def State.pnd (s : State) (e : PendEntry) : State := { s with pap := { s.pap with slots := s.pap.slots ++ [e] } }
/-- Channel `k` in phase `p`. -/
def State.ph (s : State) (k p : Nat) (f : SpkX → SpkX := id) : State := (s.wr (F.OUT_SPK_STAT_PHASE k) p).modSpk k f
/-- The guard lock of the host link open. -/
def State.lk (s : State) : State := s.setLock .host true
/-- MUTE_N low. -/
def State.mu (s : State) : State := { s with out := { s.out with muteLow := true } }
/-- The update bit of SWPLL's control register set. -/
def State.upd (s : State) : State := s.wr F.OUT_SW_CTRL_UPDATE 1
/-- Words in bank memory from an offset in the bank window on. -/
def State.putImg (s : State) (ofs : Nat) (img : List Word) : State :=
  (List.range img.length).foldl (fun z i => z.setWord (0x800000 + ofs + 4 * i) (img.getD i 0)) s
def State.mPap (s : State) (f : Papol → Papol) : State := { s with pap := f s.pap }
def State.mGraph (s : State) (f : Graph → Graph) : State := { s with graph := f s.graph }
def State.mClk (s : State) (f : ClkX → ClkX) : State := { s with clk := f s.clk }
def State.mDiag (s : State) (f : DiagX → DiagX) : State := { s with diag := f s.diag }
def State.mMadc (s : State) (f : MadcX → MadcX) : State := { s with madc := f s.madc }
def State.mSaf (s : State) (f : Saf → Saf) : State := { s with saf := f s.saf }
def State.mPwr (s : State) (f : Pwr → Pwr) : State := { s with pwr := f s.pwr }
def State.mSec (s : State) (f : Sec → Sec) : State := { s with sec := f s.sec }
def State.mAge (s : State) (f : AgeX → AgeX) : State := { s with age := f s.age }
def State.mBanks (s : State) (f : Banks → Banks) : State := { s with banks := f s.banks }
def State.mLink (s : State) (f : Link → Link) : State := { s with link := f s.link }
def State.mSpdif (s : State) (f : SpdifX → SpdifX) : State := { s with spdif := f s.spdif }
def State.mHpcv (s : State) (f : HpCvX → HpCvX) : State := { s with hpcv := f s.hpcv }
def State.mTdm (s : State) (k : Nat) (f : PortX → PortX) : State := { s with tdm := vmod s.tdm k f }

/-- The device in IDLE as BOOT leaves it: Papol runs, SWPLL is locked, only domain 0x10 is up; no session. -/
def idle : State := { State.reset with
  pap := { State.reset.pap with run := .running, boot := .ready, eseq := 1 }
  regs := [(0x400, 35), (0xE0004, 1), (0x100000, 0x2F000000), (0x303030, 0x90000000), (0x400000, 0x10000000), (0x400008, 0), (0x400014, 0x1F00)] }

/-- The device in PLAY: every domain up, MUTE_N high, the supplies of all groups measured good, a session open. -/
def play : State := { idle with
  out := { idle.out with muteLow := false }
  sec := { idle.sec with key := some [1, 2] }
  regs := [(0x400, 35), (0x600, 0x11A00000), (0xE0000, 0x400), (0xE0004, 0x3FFFFFF), (0x100000, 0x2F000000), (0x300008, 0x2960), (0x300108, 0x2960),
    (0x300208, 0x2960), (0x303030, 0x90000000), (0x400000, 0x10000000), (0x400008, 0), (0x400014, 0x1F00)] }

/-- A packet next in its series, its CRC and its tag right. -/
def pkt (s : State) (op : Nat) (payload : List Word) (auth : Bool := false) (force : Bool := false) (ring1 : Bool := false) : Packet :=
  let p : Packet := ⟨ring1, auth, false, ring1, force, s.expected ring1, s.pap.eack, payload, [], 0⟩
  let q := { p with tag := if auth then Crypto.hmacWords (s.sec.key.getD []) (p.body op) else [] }
  { q with crc := crc32c (q.covered op) }

/-- A pending command in slot 0 with CSEQ 7. -/
def pend (op : Nat) (payload : List Word) (ts : List Target) : PendEntry := ⟨0, op, false, 7, payload, ts, false, none⟩

/-! Operands that a well-formed command cannot have, one for each check of WellFormed.lean. -/

/-- More words than LEN can say. -/
theorem test_wf_refuses_long_packet :
    (Instr.nop ⟨false, false, false, false, false, 0, 0, List.replicate 4097 0, [], 0⟩).wf = false := by decide +kernel

/-- AUTH without the eight tag words, and tag words without AUTH. -/
theorem test_wf_refuses_wrong_tag : (Instr.nop ⟨false, true, false, false, false, 0, 0, [], [1, 2], 0⟩).wf = false ∧
    (Instr.nop ⟨false, false, false, false, false, 0, 0, [], [1], 0⟩).wf = false ∧ (Instr.nop ⟨false, true, false, false, false, 0, 0, [],
      List.replicate 8 0, 0⟩).wf = true := by decide +kernel

/-- A frame of 33 channels. -/
theorem test_wf_refuses_wide_frame : FrameIn.wf ⟨List.replicate 33 ⟨0, 0⟩, 0, [], []⟩ = false := by decide +kernel

/-- A register file of 167 words, and a write inside a word. -/
theorem test_wf_refuses_wrong_block : BlockOut.wf ⟨0, [], [], List.replicate 167 0, 0⟩ = false ∧
    BlockOut.wf ⟨0, [], [(0, .store 6 1)], List.replicate 168 0, 0⟩ = false ∧
    BlockOut.wf ⟨0, [], [(0, .store 8 1)], List.replicate 168 0, 0⟩ = true := by
  decide +kernel

/-- A received channel-status block has 192 frames. -/
theorem test_wf_refuses_short_status_block : (Instr.spdifCsBlock false [] [] true false).wf = false ∧
    (let sub := List.replicate 192 (⟨5, true, false, false⟩ : Subframe)
    (Instr.spdifCsBlock false sub sub true false).wf = true) := by
  decide +kernel

/-- The table gives no row bits, so no word spells a command. -/
theorem test_no_word_spells_a_command (nbits w : Nat) : decodeTableWord nbits w = none := rfl

/-! The worked examples of the spec. -/

/-- The state after a command; the reset state where the command stops. -/
def after (i : Instr) (s : State) : State :=
  match exec i s with
  | .next t => t
  | _ => State.reset

/-- The key opens the lock and the status byte reads 0x20; the next write closes it (the example after R148). -/
theorem test_unlock_status : (after (.hostUnlock .host 0xC3A5) idle).spiStatus = 0x20 ∧
    (after (.registerWrite .host 0x000400 0x23) (after (.hostUnlock .host 0xC3A5) idle)).spiStatus = 0 := by decide +kernel

/-- CTL_SYS_ID (the I2C example of R115). -/
theorem test_read_of_id : (after (.rcRead .host 0) idle).link.rdata = 0x122401B0 := by decide +kernel

/-- SYSTIME's halves belong together (the example of R141). -/
theorem test_time_halves :
    let s := after (.loRead .host 0x10) (idle.wr64 Reg.CTL_SYS_TIME_LO 0x2FFFFFFF0)
    s.link.rdata = 0xFFFFFFF0 ∧ (after (.rcRead .host 0x14) (s.wr64 Reg.CTL_SYS_TIME_LO 0x30000001F)).link.rdata = 2 := by decide +kernel

/-- The words of a packet (the example of R158). -/
theorem test_packet_header : ((⟨false, false, false, false, false, 0x142, 0xA7, [5], [], 0⟩ : Packet).words 0x600).take 2 =
    [0x60000001, 0x014200A7] := by decide +kernel

/-- Occupancy counts modulo 2^17 (the example of R158). -/
theorem test_ring_occupancy : ((idle.wr (F.DSP_RING_DIDX_DIDX 0) 0x7FE).wr (F.DSP_RING_HIDX_HIDX 0) 0x802).occupancy 0 = 4 := by decide +kernel

/-- The straps of the example of R74. -/
theorem test_straps : (State.reset.detect ⟨true, 2, false, false, false, 4800, [], [], 0, 0, 0, none, none, none⟩).reg Reg.CTL_SYS_STRAP = 5 := by
  decide +kernel

/-- Fuse word 0x30 as OUT_SPK_FUSE and DSP_SPARE show it (the example of R706). -/
theorem test_fused_ceilings :
    let s := { State.reset with sec := { State.reset.sec with fuses := vmod State.reset.sec.fuses 48 fun _ => 0x9B737130 } }
    s.fresh.reg Reg.OUT_SPK_FUSE = 0x648C8030 ∧ s.fresh.rd F.DSP_SPARE_FLOOR = 1 := by decide +kernel

/-- The ageing example: 18 400 ppm asks for 805 mV; ρ 1.283 gives AAGE 3 and ILIMC 11. -/
theorem test_replan_figures : vNeed 1840 = 765 ∧ vPlan 1840 = 805 ∧ aageOf 770 = 3 ∧ ilimcOf 770 = some 11 ∧ voutWord 805 23 = 412 := by
  decide +kernel

/-- The tracking example: 23.375 V is code 59 307. -/
theorem test_tracking_code :
    ((((play.wr (F.OUT_CV_LIM_PMIN 0) 60).wr (F.OUT_CV_LIM_PMAX 0) 240).wr (F.OUT_CV_MAP_CODEMIN 0) 0).wr (F.OUT_CV_MAP_CODEMAX 0)
      0xF000).trackCode 0 (paUnit * 23375 / 100) = 59307 := by decide +kernel

/-- The placement example: from 910.8 MHz to word 0x257D_EBF3. -/
theorem test_placement_target :
    let s := (play.mClk fun x => { x with offered := 7 }).wrs [(F.OUT_SW_OUTA_EN 0, 1), (F.OUT_SW_OUTA_EN 1, 1), (F.OUT_SW_OUTA_EN 2, 1),
      (F.OUT_SW_OUTA_DIV 0, 330), (F.OUT_SW_OUTA_DIV 1, 345), (F.OUT_SW_OUTA_DIV 2, 50), (F.OUT_G_CFG_BAND 0, 0), (F.OUT_G_CFG_BAND 1, 0),
      (F.OUT_G_CFG_BAND 2, 1), (F.OUT_G_CFG_LOOPBW 0, 1), (F.OUT_G_CFG_LOOPBW 1, 1), (F.OUT_G_CFG_LOOPBW 2, 1), (F.OUT_SW_PLACE_FT, 2052),
      (F.OUT_SW_PLACE_GUARD, 20), (F.OUT_SPK_STAT_PHASE 0, phPlay), (F.OUT_SPK_STAT_PHASE 4, phPlay), (F.OUT_SPK_STAT_PHASE 8, phPlay)]
    let p := (s.setReg Reg.OUT_SW_FREQI 0x250F8000).plan
    p.result = 1 ∧ p.w = 0x257DEBF3 ∧ p.divs = [330, 345, 50] := by decide +kernel

/-- The croaker example: words 0 and 1 of EVT_FAULT for LEGFAIL and CRKLOST. -/
theorem test_fault_words :
    let r : FaultRec := ⟨0x302, 0, 4, false, false, false, false, rgOut, 0, 9, 0, 0, 0, 0, 0⟩
    r.word0 = 0x03020403 ∧ r.word1 = 9 ∧
      ({ r with code := 0x30A, df := 1, sub := 2 } : FaultRec).word0 = 0x030A1403 ∧
      ({ r with code := 0x30A, df := 1, sub := 2 } : FaultRec).word1 = 0x00020009 := by decide +kernel

/-- Row 0xA3 of SB5 stands at 0x8A_A300 (the MARCH_RUN example). -/
theorem test_row_address : bankAddr 5 0xA3 0 = 0x8AA300 ∧ bankOf 0x8AA300 = 5 ∧ rowOf 0x8AA300 = 0xA3 := by decide +kernel

/-- GPIO3 falls in Window: its level latch fires, GPIO5's edge latch does not (the BRUMATE example, R630). -/
theorem test_brumate_latch :
    let s := (idle.mPwr fun q => { q with gpio := 0x28 }).wrs [(F.PWR_STATE_STATE, stBrumate), (F.PWR_STATE_PHASE, 5),
      (F.PWR_GPIO_WAKE_MODE 3, 5), (F.PWR_GPIO_WAKE_MODE 5, 1)]
    let t := after (.gpioWake 0x20) (s.wr64 Reg.PWR_WAKETIME_LO 0)
    t.rd F.PWR_WAKESRC_FIRST = 5 ∧ t.rd F.PWR_WAKESRC_GPIOMAP = 8 ∧ t.rd F.PWR_WAKESRC_SRCMAP = 4 ∧
      (after (.gpioWake 0x28) (s.mPwr fun q => { q with gpio := 8 })).rd F.PWR_WAKESRC_SRCMAP = 0 := by decide +kernel

/-- A reset pulse of 20 µs resets; one of 5 µs stops, since the spec leaves it open (R70). -/
theorem test_reset_pulse : exec (.reset 5000) idle = .fault .resetPulseUndefined ∧ exec (.reset 20000) idle = .next idle.fresh :=
  ⟨rfl, rfl⟩

/-- A small graph image: one engine, one task that feeds leap channel 0, one parameter region of two words. -/
def img : GImage :=
  { digest := [], ofs := 0x40000, len := 340
    head := [0x5A4B4731, 0x10020, 7, 0, 0x110101, 0x300040, 1, 0, 0x640064, 0x640064, 0x640064, 0x640064, 0x640064, 0x640064, 0x640064,
      0x640064, 0x80, 0x90, 0xA0, 0xAC, 0xAC, 0xB0, 0, 0, 0, 0, 0, 0, 0, 0, 0, 0x4F385321]
    engines := [⟨188, 2, 196, 2⟩]
    tasks := [{ num := 0, leng := 0, stage := 1, prio := 2, zero := true, entry := 0, nin := 0, nout := 1, ports := [0x80000000] }]
    regions := [{ id := 5, cls := 1, leng := 0, ofs := 0, len := 2 }], rings := [], leaps := [⟨0, 0, 0⟩], falls := [⟨0, [(0, 15)]⟩] }

/-- A logical engine at block `k` on physical engine 0. -/
def leng (k : Nat) : LEngine := { freshLe 0 with next := k }

/-- The graph loaded and in state `gs`; `k` is the last tick. -/
def State.graphIn (s : State) (gs : Nat) (k : Option Nat) : State :=
  ((s.mGraph fun g => { g with image := some img, les := [leng 5], tick := k, nra := 64, nraMin := 48 }).setRole 0 roRun 0).setGstate gs

/-- A packet of ring 0 with its URGENT bit set. -/
def badUrgent : Packet :=
  let q := { pkt idle 0 [] with urgent := true }
  { q with crc := crc32c (q.covered 0) }

/-- A packet with a tag where no session is open. -/
def badTag : Packet :=
  let q := { pkt idle 0 [] with auth := true, tag := List.replicate 8 5 }
  { q with crc := crc32c (q.covered 0) }

/-- A packet whose CSEQ is 3 ahead. -/
def late : Packet :=
  let q := { pkt idle 0 [] with cseq := 4 }
  { q with crc := crc32c (q.covered 0) }

/-- The reply of CSEQ 1 journaled. -/
def journaled : State := idle.mPap fun x => { x with replies := [⟨0, false, 1, 0, 0, 0, 1, [7]⟩] }

/-- Stream 3 of two channels between two ends, in RUN. -/
def State.str (s : State) (st si dt di : Nat) : State :=
  { s.wrs [(F.DSP_STR_CFG_STYPE 3, st), (F.DSP_STR_CFG_SIDX 3, si), (F.DSP_STR_CFG_DTYPE 3, dt), (F.DSP_STR_CFG_DIDX 3, di),
      (F.DSP_STR_FMT_NCH 3, 1), (F.DSP_STR_STAT_STATE 3, stmRun)] with strs := [newStreamX 3 0 0 0 2] }

/-- Port 0 enabled and in step: stream 3 reads two channels from it into ring 4. -/
def synced : State :=
  ((play.str 1 0 6 4).mTdm 0 fun x => { x with en := true, good := 2, clean := 2 }).wrs
    [(F.IN_TDM_CLK_MASTER 0, 1), (F.IN_TDM_STAT_SYNC 0, 1), (F.DSP_RING_CFG_ENABLE 4, 1), (F.DSP_RING_CFG_DIR 4, 1), (F.DSP_RING_CFG_LOG2SIZE 4, 8)]

/-- TDM port 0 as master of a free ring 4. -/
def tdmOn : State :=
  play.wrs [(F.IN_TDM_CLK_MASTER 0, 1), (F.IN_TDM_STAT_SYNC 0, 1), (F.DSP_RING_CFG_ENABLE 4, 1), (F.DSP_RING_CFG_DIR 4, 1), (F.DSP_RING_CFG_LOG2SIZE 4, 8)]

/-- A wake model of threshold 100 and 3 hops. -/
def model : WkdModel := { roll := 0, digest := [], thrdef := 100, hops := 3, nin := 1, weights := [] }

/-- The gate open since frame 100 of 1000, the tap on, ring 15 ready to take frames. -/
def handed : State :=
  (play.wrs [(F.IN_TAP_CFG_TAPEN, 1), (F.IN_TAP_CFG_TAPMAP, 0x800), (F.IN_TAD_STAT_GATE, gtOpen), (F.DSP_RING_CFG_ENABLE 15, 1),
    (F.DSP_RING_CFG_DIR 15, 1), (F.DSP_RING_CFG_LOG2SIZE 15, 8)]).setReg Reg.IN_TAD_GSTART_LO 100 |>.setReg Reg.IN_TAD_WIDX_LO 1000

/-- A P-256 key made for these tests, and its signatures over the graph image, the wake model and the Papol image below. -/
def testKey : List Word :=
  [0x753E1C47, 0x2804498C, 0x537EBA5B, 0xF5D08E11, 0x07EBAD24, 0xD25BD257, 0xD7B0E7F8, 0x4C71FA6D,
    0x7A0F52DD, 0x918B8ACA, 0xF537CC7A, 0xC9F0E81D, 0x85ADE3BB, 0x02E78283, 0x2DA125DC, 0x58A8F709]

def imgSig : List Word :=
  [0xC9FDE74F, 0x0E7CF68F, 0xA5B2131C, 0x05E75E29, 0xA016D1B7, 0x19F21833, 0xD87E2115, 0x6AAB35FB,
    0xF42732DC, 0x73F88FB5, 0x65499142, 0xBDAF8F37, 0xC59A4E84, 0xD1E8FB14, 0x43DE1D5F, 0x906198B8]

def wakeSig : List Word :=
  [0xC9FDE74F, 0x0E7CF68F, 0xA5B2131C, 0x05E75E29, 0xA016D1B7, 0x19F21833, 0xD87E2115, 0x6AAB35FB,
    0x4970A259, 0xA269FF00, 0x959848F6, 0x028F4DCB, 0x02B50019, 0x596253C8, 0x228F030F, 0x77B1520B]

def papolSig : List Word :=
  [0xC9FDE74F, 0x0E7CF68F, 0xA5B2131C, 0x05E75E29, 0xA016D1B7, 0x19F21833, 0xD87E2115, 0x6AAB35FB,
    0xA2B59288, 0xA4801560, 0x71A53E0B, 0xCFF92820, 0x8178844E, 0xD2E1B4D8, 0xA6675AB3, 0x7F25AC1E]

/-- The signature block of key `k` with this signature. -/
def sigBlock (k : Word) (sig : List Word) : List Word := [0x53474E31, 0x100 + k] ++ testKey ++ sig

/-- The header and body of the graph image as words in bank memory, with a signature block over it. -/
def imgWords : List Word :=
  img.head ++ [188, 2, 196, 2, 0x1201, 0, 1, 184, 0x51000, 0, 2, 0, 1, 0xF00000, 0x80000000, 1, 2, 3, 4] ++ sigBlock 0 imgSig

/-- A Papol image of version 5 with a body of one word, signed with key 2. -/
def papolWords : List Word :=
  let h : List Word := [0x50504C31, 0x10010, 5, 0, 4, 0, 0x90000] ++ List.replicate 8 0
  h ++ [crc32c h, 0xABCD] ++ sigBlock 2 papolSig

/-- A wake model image with weights of two words, signed with key 0. -/
def wakeWords : List Word :=
  let h : List Word := [0x574B4431, 0x10008, 5, 0, 8, 0x64030001, 32]
  h ++ [crc32c h, 1, 2] ++ sigBlock 0 wakeSig

/-- The device waits for an image at 0x20000, and one is there. -/
def waiting : State :=
  ((idle.set1 F.CTL_BOOT_STAT_WAITIMG).mPap fun x => { x with run := .off, boot := .waiting }).putImg 0x20000 papolWords

/-! What a decidable check of a concrete state says. -/

/-- Whether an outcome is a next state. -/
def nexts (o : Host.Outcome State Fault Refusal) : Bool :=
  match o with
  | .next _ => true
  | _ => false

theorem next_of_nexts {o : Host.Outcome State Fault Refusal} (h : nexts o = true) : ∃ t, o = .next t := by
  cases o <;> first | exact ⟨_, rfl⟩ | simp [nexts] at h

/-- The conditions of Stands, each of them decidable. -/
abbrev standsNow (c : CmdSpec) (p : Packet) (s : State) : Prop :=
  s.pap.run = .running ∧ s.rd F.CTL_SEC_CNT_CONSEC < 8 ∧ s.linkAlive = true ∧ s.ringOn p.ring = true ∧ s.pap.held = [] ∧
    s.didx p.ring = s.hidx p.ring ∧ (p.ring1 = true ∨ s.hasPacket 1 = false) ∧ p.payload.length ≤ 4096 ∧
    (p.words c.opcode).length ≤ s.ringLen p.ring

theorem stands_of {c : CmdSpec} {p : Packet} {s : State} (h : standsNow c p s) : Stands c p s := by
  obtain ⟨runs, calm, alive, used, free, empty, turn, len, fits⟩ := h
  exact { runs, calm, alive, used, free, empty, turn, len, fits }

theorem judged_of {c : CmdSpec} {p : Packet} {s : State} (h : standsNow c p s ∧ p.cseq = s.expected p.ring1)
    (crc : crc32c (p.covered c.opcode) = p.crc) : Judged c p s :=
  { stands_of h.1 with whole := crc, expect := h.2 }

/-- The checks of R169 but for the tag. -/
abbrev passesNow (c : CmdSpec) (p : Packet) (s : State) : Prop :=
  ¬ (p.urgent ≠ p.ring1 ∨ c.maxLen < c.minLen) ∧ ¬ (p.ring1 ∧ ¬ c.ring1) ∧ ¬ (c.auth ∧ ¬ p.auth) ∧ c.allows s.leaving = true ∧
    ¬ (s.on F.PWR_STATE_TRANS ∧ c.opcode ≠ 0x600 ∧ ¬ c.allows (s.rd F.PWR_STATE_TARGET)) ∧
    ¬ (p.payload.length < c.minLen ∨ c.maxLen < p.payload.length) ∧ ¬ (p.force ∧ ¬ c.force)

theorem accepted_of {c : CmdSpec} {p : Packet} {s : State} (h : (standsNow c p s ∧ p.cseq = s.expected p.ring1) ∧ passesNow c p s)
    (crc : crc32c (p.covered c.opcode) = p.crc) (tag : p.auth = true → s.tagOk c.opcode p = true) : Accepted c p s := by
  obtain ⟨hs, h1, h2, h3, h4, h5, h6, h7⟩ := h
  refine { judged_of hs crc with passes := ?_ }
  have ht : ¬ (p.auth = true ∧ ¬ s.tagOk c.opcode p = true) := fun ⟨a, b⟩ => b (tag a)
  simp only [CmdSpec.check, if_neg h1, if_neg h2, if_neg h3, if_neg ht, if_neg h5, if_neg h6, if_neg h7, h4, not_true_eq_false, if_false]

/-- A packet of `pkt` without a tag is accepted where the decidable conditions hold. -/
theorem accepted_pkt {c : CmdSpec} {s z : State} {op : Nat} {l : List Word} {f r : Bool} (ho : c.opcode = op)
    (h : (standsNow c (pkt z op l false f r) s ∧ (pkt z op l false f r).cseq = s.expected r) ∧ passesNow c (pkt z op l false f r) s) :
    Accepted c (pkt z op l false f r) s := by
  subst ho
  exact accepted_of h rfl (fun a => by cases a)

/-- The same of an AUTH packet, whose tag is made with the key of the open session. -/
theorem accepted_auth {c : CmdSpec} {s z : State} {op : Nat} {l : List Word} {f r : Bool} (k : List Word) (ho : c.opcode = op)
    (hz : z.sec.key = some k) (hs : s.sec.key = some k)
    (h : ((standsNow c (pkt z op l true f r) s ∧ (pkt z op l true f r).cseq = s.expected r) ∧ passesNow c (pkt z op l true f r) s) ∧
      s.on F.CTL_SEC_STAT_LOCKOUT = false) :
    Accepted c (pkt z op l true f r) s := by
  subst ho
  refine accepted_of h.1 rfl fun _ => ?_
  simp only [State.tagOk, hs, h.2]
  simp [pkt, hz, Packet.body]

theorem domUp_of {s : State} {d : Nat} (h : s.domOn d = true ∧ s.pwr.changes.any (fun c => c.domain = d && !c.up) = false) : DomUp s d := h

theorem free_of {s : State} {ts : List Target} (h : s.pendFor? ts = none ∧ s.freeSlot? ≠ none) : Free s ts := h

/-- The conditions of Quiet, the groups counted out. -/
abbrev quietNow (s : State) : Prop :=
  s.diag.dc = [] ∧ s.diag.ac = none ∧ (∀ r ∈ s.saf.recs, r.code ≠ 0x30A) ∧ ∀ g, g < 3 → (s.grp g).seq = none

theorem quiet_of {s : State} (h : quietNow s) : Quiet s := by
  obtain ⟨dc, ac, recs, seqs⟩ := h
  exact { dc, ac, recs, seqs }

theorem still_of {s : State} (h : quietNow s ∧ (∀ k, k < 8 → (s.slot k).kind = 0 ∧ (s.slot k).active = false) ∧
    ∀ w ∈ s.out.waits, w.2.2 ≠ 1) : Still s :=
  { quiet_of h.1 with crk := h.2.1, stops := h.2.2 }

theorem newKey_of {p : Packet} {s : State} (h : ∀ e ∈ s.pap.slots, ¬ (e.ring1 = p.ring1 ∧ e.cseq = p.cseq)) : NewKey p s := h

theorem some_of {α : Type} {o : Option α} (h : o.isSome = true) : ∃ x, o = some x := Option.isSome_iff_exists.mp h

/-- The test key's signature `sig` over the words `m` is a valid one. -/
abbrev Signed (sig m : List Word) : Prop := Crypto.ecdsa testKey sig (Crypto.shaWords m) = true

theorem imgSigned : Signed imgSig (imgWords.take 51) := by decide +kernel
theorem wakeSigned : Signed wakeSig (wakeWords.take 10) := by decide +kernel
theorem papolSigned : Signed papolSig (papolWords.take 17) := by decide +kernel

theorem sigBlock_parts (k : Word) (sig : List Word) (h : sig.length = 16) : (sigBlock k sig).length = 34 ∧
    pw (sigBlock k sig) 0 = 0x53474E31 ∧ pf (sigBlock k sig) 1 0 4 = pf [0, 0x100 + k] 1 0 4 ∧
    pf (sigBlock k sig) 1 8 8 = pf [0, 0x100 + k] 1 8 8 ∧
    ((sigBlock k sig).drop 2).take 16 = testKey ∧ ((sigBlock k sig).drop 18).take 16 = sig := by
  refine ⟨?_, rfl, rfl, rfl, rfl, ?_⟩
  · simp [sigBlock, testKey, h]
  · rw [show (sigBlock k sig).drop 18 = sig from rfl, ← h, List.take_length]

theorem modelSigned_of {s : State} {img : List Word} {sig : List Word} (m : List Word) (hs : Signed sig m) (hl : sig.length = 16)
    (h : img.take (img.length - 34) = m ∧ img.drop (img.length - 34) = sigBlock 0 sig ∧ 34 < img.length ∧ s.lifecycle ≠ 3 ∧
      s.anySigner = true ∧ s.revoked 0 = false) : s.modelSigned img = true := by
  obtain ⟨hm, hb, h1, h2, h3, h4⟩ := h
  obtain ⟨e1, e2, e3, e4, e5, e6⟩ := sigBlock_parts 0 sig hl
  have e7 : pf [0, 0x100 + (0 : Word)] 1 0 4 = 0 ∧ pf [0, 0x100 + (0 : Word)] 1 8 8 = 1 := by decide
  rw [e7.1] at e3
  rw [e7.2] at e4
  unfold Signed at hs
  generalize sigBlock 0 sig = b at *
  simp [State.modelSigned, State.blockValid, hb, hm, e1, e2, e3, e4, e5, e6, hs, h1, h2, h3, h4]

theorem bootErr_of {s : State} {img sig : List Word} {bytes : Nat} (m : List Word) (hs : Signed sig m) (hl : sig.length = 16)
    (key : Crypto.shaWords testKey = (List.range 8).map Config.bydoxonHash)
    (h : (imgHeadOk img = true ∧ bytes = 4 * img.length ∧ imgBlocks img bytes = 1 ∧ s.fwRoll ≤ imgRoll img ∧ s.cosignDue = false) ∧
      img.take (img.length - 34) = m ∧ (img.drop (img.length - 34)).take 34 = sigBlock 2 sig) : s.bootErr img bytes = 0 := by
  obtain ⟨⟨h1, h2, h3, h4, h5⟩, hm, hb⟩ := h
  obtain ⟨e1, e2, e3, e4, e5, e6⟩ := sigBlock_parts 2 sig hl
  have e7 : pf [0, 0x100 + (2 : Word)] 1 0 4 = 2 ∧ pf [0, 0x100 + (2 : Word)] 1 8 8 = 1 := by decide
  rw [e7.1] at e3
  rw [e7.2] at e4
  unfold Signed at hs
  generalize sigBlock 2 sig = b at *
  have ho : sigOk m b = true := by simp [sigOk, e1, e2, e4, e5, e6, hs]
  have hk : s.keyOk b = true := by simp [State.keyOk, e3, e5, key, State.rootHash, State.revoked]
  have hg : s.sigErr img 1 = 0 := by simp [State.sigErr, hm, hb, ho, hk, e3, h5]
  subst h2
  simp [State.bootErr, h1, h3, hg, Nat.not_lt.mpr h4]

theorem wkdCheck_of {s : State} {img : List Word} {len : Nat} {e : Word} (h : s.modelSigned img = true)
    (r : len % 4 = 0 ∧ s.wkdRoll ≤ (pw img 3).toNat ∧ wkdHeaderOk img = true ∧ (e = 0 ∨ pw img 2 = e)) : s.wkdCheck img len e = none := by
  obtain ⟨r1, r2, r3, r4⟩ := r
  have r5 : ¬ (e ≠ 0 ∧ pw img 2 ≠ e) := fun ⟨a, b⟩ => r4.elim a b
  simp only [State.wkdCheck, h, r1, r3, Nat.not_lt.mpr r2, if_neg r5]
  simp

/-- A span that no ring of 0 to 3 touches holds no byte of theirs. -/
theorem not_ring_byte {s : State} {lo hi : Nat} (pos : ∀ n < 4, 0 < s.ringLen n)
    (h : ∀ n < 4, 0x800000 + (s.geo n).base + 4 * s.ringLen n ≤ lo ∨ hi ≤ 0x800000 + (s.geo n).base) :
    ∀ a, papolByte s a → ¬ (lo ≤ a ∧ a < hi) := by
  rintro a ⟨n, i, hn, h1, h2⟩ ⟨h3, h4⟩
  have hp := pos n hn
  have hl := Nat.mod_lt i hp
  have hq := h n hn
  simp only [State.ringAddr] at h1 h2
  omega

/-- What a packet leaves of a span outside the rings. -/
theorem words_admitted (s : State) (c : CmdSpec) (p : Packet) : ∀ (n a : Nat), (∀ b, papolByte s b → ¬ (a ≤ b ∧ b < a + 4 * n)) →
    (s.admitted c p).words a n = s.words a n
  | 0, _, _ => rfl
  | n + 1, a, h => by
    have hb : ∀ k, k < 4 → (s.admitted c p).byte (a + k) = s.byte (a + k) := fun k hk =>
      (admitted_papol s c p).bytes _ fun hp => h _ hp ⟨by omega, by omega⟩
    have hw : (s.admitted c p).word a = s.word a := by
      simp only [State.word, hb 3 (by omega), hb 2 (by omega), hb 1 (by omega), show s.byte a = s.byte (a + 0) from rfl,
        show (s.admitted c p).byte a = (s.admitted c p).byte (a + 0) from rfl, hb 0 (by omega)]
    simp only [State.words, hw, words_admitted s c p n (a + 4) fun b hp hc => h b hp ⟨by omega, by omega⟩]

/-- The header of the graph image carries its CRC (a piece at a time, for the kernel's sake). -/
theorem img_headOk : (parseGraph 0x40000 340 imgWords).headOk = true := by
  have h1 : (imgWords.take 8).foldl crcWord 0xFFFFFFFF = 0xF8B07836 := by decide +kernel
  have h2 : ((imgWords.drop 8).take 8).foldl crcWord 0xF8B07836 = 0x7F7B77EC := by decide +kernel
  have h3 : ((imgWords.drop 16).take 8).foldl crcWord 0x7F7B77EC = 0x8226EFA0 := by decide +kernel
  have h4 : ((imgWords.drop 24).take 7).foldl crcWord 0x8226EFA0 = 0xB0C7ACDE := by decide +kernel
  have hs : (parseGraph 0x40000 340 imgWords).head.take 31 =
      imgWords.take 8 ++ ((imgWords.drop 8).take 8 ++ ((imgWords.drop 16).take 8 ++ (imgWords.drop 24).take 7)) := rfl
  have hc : crc32c ((parseGraph 0x40000 340 imgWords).head.take 31) = 0x4F385321 := by
    rw [hs]
    simp only [crc32c, List.foldl_append, h1, h2, h3, h4]
    decide
  rw [GImage.headOk, hc]
  decide +kernel

theorem img_ok : (parseGraph 0x40000 340 imgWords).ok = true := by
  rw [GImage.ok, img_headOk]
  decide +kernel

/-- Hypotheses of StepRunsFrontCommand that concrete states and operands meet. -/
theorem witness_StepRunsFrontCommand :
    (∃ (c : Instr) (rest : List Instr) (s : State),
      s.pending = c :: rest) :=
  ⟨.nop (pkt idle 0 []), [.reset 0], { idle with pending := [.nop (pkt idle 0 []), .reset 0] }, by decide +kernel⟩

/-- Hypotheses of IdleStepCountsSystime that concrete states and operands meet. -/
theorem witness_IdleStepCountsSystime :
    (∃ (s : State),
      s.pending = [] ∧ (s.inReset = true ∨ s.pstate = stOff)) ∧
    (∃ (s : State),
      s.pending = [] ∧ s.inReset = false ∧ s.pstate = stBrumate) ∧
    (∃ (s : State),
      s.pending = [] ∧ s.inReset = false ∧ stIdle ≤ s.pstate ∧ s.hasPacket 0 = false ∧ s.hasPacket 1 = false) :=
  ⟨⟨idle.at4 0, by decide +kernel⟩,
    ⟨idle.at4 1, by decide +kernel⟩,
    ⟨idle, by decide +kernel⟩⟩

/-- Hypotheses of StepKeepsCanonicalStores that concrete states and operands meet. -/
theorem witness_StepKeepsCanonicalStores :
    (∃ (s : State) (t : State),
      s.Canonical ∧ step s = .next t) :=
  ⟨{ play.lk with pending := [.registerWrite .host 0x800000 1] }, by
      obtain ⟨t, h⟩ := next_of_nexts (o := step { play.lk with pending := [.registerWrite .host 0x800000 1] }) (by decide +kernel)
      exact ⟨t, ⟨by decide +kernel, by decide +kernel, by decide +kernel⟩, h⟩⟩

/-- Hypotheses of StepKeepsCapacities that concrete states and operands meet. -/
theorem witness_StepKeepsCapacities :
    (∃ (s : State) (t : State),
      s.Bounded ∧ step s = .next t) :=
  ⟨{ journaled.pnd (pend 0x410 [] [.wkd]) with pending := [.nop (pkt idle 0 [])] }, by
      obtain ⟨t, h⟩ := next_of_nexts (o := step { journaled.pnd (pend 0x410 [] [.wkd]) with pending := [.nop (pkt idle 0 [])] }) (by decide +kernel)
      exact ⟨t, ⟨by decide +kernel, by decide +kernel, by decide +kernel, by unfold PendOk; decide +kernel, by decide +kernel⟩, h⟩⟩

/-- Hypotheses of StepKeepsFusesAndQueue that concrete states and operands meet. -/
theorem witness_StepKeepsFusesAndQueue :
    (∃ (s : State) (t : State),
      step s = .next t) ∧
    (∃ (c : Instr) (s : State) (t : State),
      exec c s = .next t) :=
  ⟨⟨play.pnd (pend 0x806 [5, 7, ~~~7] [.fuses]), next_of_nexts (by decide +kernel)⟩,
    ⟨.fuseProgramDone 0, play.pnd (pend 0x806 [5, 7, ~~~7] [.fuses]), next_of_nexts (by decide +kernel)⟩⟩

/-- Hypotheses of ReadCapturesAndLatchesShadow that concrete states and operands meet. -/
theorem witness_ReadCapturesAndLatchesShadow :
    (∃ (i : Iface) (a : BitVec 24) (r : RegRow) (s : State),
      s.ifaceReady i = true ∧ a.toNat % 4 = 0 ∧ a.toNat < 8388608 ∧ regRow? a.toNat = some r ∧ s.reaches a.toNat = true) ∧
    (∃ (i : Iface) (a : BitVec 24) (r : RegRow) (d : Fin 42) (s : State),
      regRow? a.toNat = some r ∧ 16 ≤ d.val ∧
      s.link.stalled = [{ domain := d.val, iface := i, write := false, addr := a.toNat, word := 0 }] ∧
      s.pwr.changes = [{ domain := d.val, up := true, slots := [] }]) :=
  ⟨⟨.debug, 0x400000, by
      obtain ⟨r, h⟩ := some_of (o := regRow? (0x400000 : BitVec 24).toNat) (by decide +kernel)
      exact ⟨r, play.set1 F.CTL_SEC_STAT_DBGOPEN, by decide +kernel, by decide +kernel, by decide +kernel, h, by decide +kernel⟩⟩,
    ⟨.host, BitVec.ofNat 24 (Reg.DSP_NE_BLK_LO 1), by
      obtain ⟨r, h⟩ := some_of (o := regRow? (BitVec.ofNat 24 (Reg.DSP_NE_BLK_LO 1)).toNat) (by decide +kernel)
      exact ⟨r, 0x29, (idle.mLink fun x => { x with stalled := [⟨0x29, .host, false, Reg.DSP_NE_BLK_LO 1, 0⟩] }).mPwr
        fun x => { x with changes := [⟨0x29, true, []⟩] }, h, by decide +kernel⟩⟩⟩

/-- Hypotheses of WriteErrorsAndGuardLock that concrete states and operands meet. -/
theorem witness_WriteErrorsAndGuardLock :
    (∃ (a : BitVec 24) (s : State),
      s.ifaceReady Iface.host = true ∧ a.toNat ≠ Reg.HOST_UNLOCK ∧ a.toNat % 4 ≠ 0) ∧
    (∃ (a : BitVec 24) (s : State),
      s.ifaceReady Iface.host = true ∧ a.toNat ≠ Reg.HOST_UNLOCK ∧ ¬a.toNat % 4 ≠ 0 ∧ (10485760 ≤ a.toNat ∧ a.toNat < 11010048)) ∧
    (∃ (a : BitVec 24) (s : State),
      s.ifaceReady Iface.host = true ∧ a.toNat ≠ Reg.HOST_UNLOCK ∧ ¬a.toNat % 4 ≠ 0 ∧ (¬(10485760 ≤ a.toNat ∧ a.toNat < 11010048)) ∧
      (8388608 ≤ a.toNat ∧ a.toNat < 10485760) ∧ s.bankOn (bankOf a.toNat) = false) ∧
    (∃ (a : BitVec 24) (s : State),
      s.ifaceReady Iface.host = true ∧ a.toNat ≠ Reg.HOST_UNLOCK ∧ ¬a.toNat % 4 ≠ 0 ∧ (¬(10485760 ≤ a.toNat ∧ a.toNat < 11010048)) ∧
      (¬(8388608 ≤ a.toNat ∧ a.toNat < 10485760)) ∧ regRow? a.toNat = none) ∧
    (∃ (a : BitVec 24) (s : State),
      s.ifaceReady Iface.host = true ∧ a.toNat ≠ Reg.HOST_UNLOCK ∧ ¬a.toNat % 4 ≠ 0 ∧ (¬(10485760 ≤ a.toNat ∧ a.toNat < 11010048)) ∧
      (¬(8388608 ≤ a.toNat ∧ a.toNat < 10485760)) ∧ ¬regRow? a.toNat = none ∧ s.unpowered a.toNat = true) ∧
    (∃ (a : BitVec 24) (s : State),
      s.ifaceReady Iface.host = true ∧ a.toNat ≠ Reg.HOST_UNLOCK ∧ ¬a.toNat % 4 ≠ 0 ∧ (¬(10485760 ≤ a.toNat ∧ a.toNat < 11010048)) ∧
      (¬(8388608 ≤ a.toNat ∧ a.toNat < 10485760)) ∧ ¬regRow? a.toNat = none ∧ ¬s.unpowered a.toNat = true ∧ (guardedAt a.toNat = true ∧
      s.lockOpen Iface.host = false)) ∧
    (∃ (a : BitVec 24) (s : State) (r : Nat),
      s.ifaceReady Iface.host = true ∧ a.toNat ≠ Reg.HOST_UNLOCK ∧ ¬a.toNat % 4 ≠ 0 ∧ (¬(10485760 ≤ a.toNat ∧ a.toNat < 11010048)) ∧
      (¬(8388608 ≤ a.toNat ∧ a.toNat < 10485760)) ∧ ¬regRow? a.toNat = none ∧ ¬s.unpowered a.toNat = true ∧ (¬(guardedAt a.toNat = true ∧
      s.lockOpen Iface.host = false)) ∧ postedRegion? a.toNat = some r ∧ s.on { addr := Reg.HOST_PWSTAT, lo := r, width := 1 } = true) ∧
    (∃ (i : Iface) (j : Iface) (key : Word) (s : State),
      s.ifaceReady i = true ∧ i ≠ j ∧ key ≠ 50085) :=
  ⟨⟨0x101, idle, by decide +kernel⟩,
    ⟨0xA7FFFC, idle, by decide +kernel⟩,
    ⟨0x9FFFFC, idle.wr (F.DSP_SB_STAT_PWR 15) 1, by decide +kernel⟩,
    ⟨0x7FFFFC, idle, by decide +kernel⟩,
    ⟨0x300000, idle.wr F.PWR_PERMIT_MASK 0, by decide +kernel⟩,
    ⟨0x400004, play, by decide +kernel⟩,
    ⟨0x300000, play.lk.wr ⟨Reg.HOST_PWSTAT, 3, 1⟩ 1, 3, by decide +kernel⟩,
    ⟨.host, .debug, 0xC3A4, idle, by decide +kernel⟩⟩

/-- Hypotheses of NextWriteClosesTheGuardLock that concrete states and operands meet. -/
theorem witness_NextWriteClosesTheGuardLock :
    (∃ (i : Iface) (j : Iface) (s : State),
      s.ifaceReady i = true ∧ i ≠ j ∧ s.pending = []) :=
  ⟨.host, .debug, idle.lk, by decide +kernel⟩

/-- Hypotheses of BankAndPostedWritesStoreTheWord that concrete states and operands meet. -/
theorem witness_BankAndPostedWritesStoreTheWord :
    (∃ (i : Iface) (a : BitVec 24) (s : State),
      s.ifaceReady i = true ∧ a.toNat % 4 = 0 ∧ 8388608 ≤ a.toNat ∧ a.toNat < 10485760 ∧ s.bankOn (bankOf a.toNat) = true) ∧
    (∃ (i : Iface) (a : BitVec 24) (r : Fin 5) (s : State),
      s.ifaceReady i = true ∧ a.toNat % 4 = 0 ∧ regRow? a.toNat ≠ none ∧ postedRegion? a.toNat = some r.val ∧ s.reaches a.toNat = true ∧
      (guardedAt a.toNat = true → s.lockOpen i = true) ∧ s.fusedAt a.toNat = false ∧
      s.on { addr := Reg.HOST_PWSTAT, lo := r.val, width := 1 } = false ∧ s.link.posted = []) :=
  ⟨⟨.host, 0x9FFFFC, idle, by decide +kernel⟩,
    ⟨.host, 0x300000, 3, play.lk, by decide +kernel⟩⟩

/-- Hypotheses of FrameEndsRecordErrors that concrete states and operands meet. -/
theorem witness_FrameEndsRecordErrors :
    (∃ (s : State) (cmd : Byte),
      s.linkAlive = true ∧ s.on F.CTL_SYS_STRAP_HOSTSEL = false ∧ BitVec.toNat cmd % 64 ≠ 0) ∧
    (∃ (s : State) (h : Byte),
      s.linkAlive = true ∧ s.on F.CTL_SYS_STRAP_HOSTSEL = true ∧ h ≠ BitVec.ofNat 8 (2 * (76 + s.rd F.CTL_SYS_STRAP_ADDR) + 0)) ∧
    (∃ (s : State) (h : Byte),
      s.linkAlive = true ∧ s.on F.CTL_SYS_STRAP_HOSTSEL = true ∧ h ≠ BitVec.ofNat 8 (2 * (76 + s.rd F.CTL_SYS_STRAP_ADDR) + 1)) ∧
    (∃ (s : State) (a : BitVec 24),
      s.linkAlive = true ∧ s.on F.CTL_SYS_STRAP_HOSTSEL = true ∧ s.link.ptr = a.toNat) :=
  ⟨⟨idle, 0x81, by decide +kernel⟩,
    ⟨idle.wr F.CTL_SYS_STRAP_HOSTSEL 1, 0x00, by decide +kernel⟩,
    ⟨idle.wr F.CTL_SYS_STRAP_HOSTSEL 1, 0x9B, by decide +kernel⟩,
    ⟨(idle.wr F.CTL_SYS_STRAP_HOSTSEL 1).mLink fun x => { x with ptr := 0x800000 }, 0x800000, by decide +kernel⟩⟩

/-- Hypotheses of RingEnableAndDoorbell that concrete states and operands meet. -/
theorem witness_RingEnableAndDoorbell :
    (∃ (i : Iface) (n : Fin 32) (w : Word) (s : State),
      s.ifaceReady i = true ∧ 2 ≤ n.val ∧ n.val ≤ 15 ∧ s.cfgHit (Reg.DSP_RING_CFG n.val) = false ∧
      s.cfgHit (Reg.DSP_RING_HIDX n.val) = false ∧ s.on (F.DSP_RING_CFG_ENABLE n.val) = false ∧ bit w 16 = true) :=
  ⟨.host, 15, 0x10006, idle, by decide +kernel⟩

/-- Hypotheses of RefusedPacketHasNoEffect that concrete states and operands meet. -/
theorem witness_RefusedPacketHasNoEffect :
    (∃ (i : Instr) (c : CmdSpec) (p : Packet) (s : State),
      packet? i = some (c, p) ∧ Judged c p s ∧ p.urgent ≠ p.ring1) ∧
    (∃ (i : Instr) (c : CmdSpec) (p : Packet) (s : State),
      packet? i = some (c, p) ∧ Judged c p s ∧ ¬p.urgent ≠ p.ring1 ∧ (p.ring1 = true ∧ c.ring1 = false)) ∧
    (∃ (i : Instr) (c : CmdSpec) (p : Packet) (s : State),
      packet? i = some (c, p) ∧ Judged c p s ∧ ¬p.urgent ≠ p.ring1 ∧ (¬(p.ring1 = true ∧ c.ring1 = false)) ∧ (c.auth = true ∧
      p.auth = false)) ∧
    (∃ (i : Instr) (c : CmdSpec) (p : Packet) (s : State),
      packet? i = some (c, p) ∧ Judged c p s ∧ ¬p.urgent ≠ p.ring1 ∧ (¬(p.ring1 = true ∧ c.ring1 = false)) ∧ (¬(c.auth = true ∧
      p.auth = false)) ∧ (p.auth = true ∧ s.tagOk c.opcode p = false)) ∧
    (∃ (i : Instr) (c : CmdSpec) (p : Packet) (s : State),
      packet? i = some (c, p) ∧ Judged c p s ∧ ¬p.urgent ≠ p.ring1 ∧ (¬(p.ring1 = true ∧ c.ring1 = false)) ∧ (¬(c.auth = true ∧
      p.auth = false)) ∧ (¬(p.auth = true ∧ s.tagOk c.opcode p = false)) ∧ (¬(s.leaving = stListen ∧ c.listen = true ∨
      s.leaving = stIdle ∧ c.idle = true ∨ s.leaving = stPlay ∧ c.play = true))) ∧
    (∃ (i : Instr) (c : CmdSpec) (p : Packet) (s : State),
      packet? i = some (c, p) ∧ Judged c p s ∧ ¬p.urgent ≠ p.ring1 ∧ (¬(p.ring1 = true ∧ c.ring1 = false)) ∧ (¬(c.auth = true ∧
      p.auth = false)) ∧ (¬(p.auth = true ∧ s.tagOk c.opcode p = false)) ∧ (¬¬(s.leaving = stListen ∧ c.listen = true ∨
      s.leaving = stIdle ∧ c.idle = true ∨ s.leaving = stPlay ∧ c.play = true)) ∧ (s.on F.PWR_STATE_TRANS = true ∧ c.opcode ≠ 1536 ∧
      ¬(s.rd F.PWR_STATE_TARGET = stListen ∧ c.listen = true ∨ s.rd F.PWR_STATE_TARGET = stIdle ∧ c.idle = true ∨
      s.rd F.PWR_STATE_TARGET = stPlay ∧ c.play = true))) ∧
    (∃ (i : Instr) (c : CmdSpec) (p : Packet) (s : State),
      packet? i = some (c, p) ∧ Judged c p s ∧ ¬p.urgent ≠ p.ring1 ∧ (¬(p.ring1 = true ∧ c.ring1 = false)) ∧ (¬(c.auth = true ∧
      p.auth = false)) ∧ (¬(p.auth = true ∧ s.tagOk c.opcode p = false)) ∧ (¬¬(s.leaving = stListen ∧ c.listen = true ∨
      s.leaving = stIdle ∧ c.idle = true ∨ s.leaving = stPlay ∧ c.play = true)) ∧ (¬(s.on F.PWR_STATE_TRANS = true ∧ c.opcode ≠ 1536 ∧
      ¬(s.rd F.PWR_STATE_TARGET = stListen ∧ c.listen = true ∨ s.rd F.PWR_STATE_TARGET = stIdle ∧ c.idle = true ∨
      s.rd F.PWR_STATE_TARGET = stPlay ∧ c.play = true))) ∧ (p.payload.length < c.minLen ∨ c.maxLen < p.payload.length)) ∧
    (∃ (i : Instr) (c : CmdSpec) (p : Packet) (s : State),
      packet? i = some (c, p) ∧ Judged c p s ∧ ¬p.urgent ≠ p.ring1 ∧ (¬(p.ring1 = true ∧ c.ring1 = false)) ∧ (¬(c.auth = true ∧
      p.auth = false)) ∧ (¬(p.auth = true ∧ s.tagOk c.opcode p = false)) ∧ (¬¬(s.leaving = stListen ∧ c.listen = true ∨
      s.leaving = stIdle ∧ c.idle = true ∨ s.leaving = stPlay ∧ c.play = true)) ∧ (¬(s.on F.PWR_STATE_TRANS = true ∧ c.opcode ≠ 1536 ∧
      ¬(s.rd F.PWR_STATE_TARGET = stListen ∧ c.listen = true ∨ s.rd F.PWR_STATE_TARGET = stIdle ∧ c.idle = true ∨
      s.rd F.PWR_STATE_TARGET = stPlay ∧ c.play = true))) ∧ (¬(p.payload.length < c.minLen ∨ c.maxLen < p.payload.length)) ∧
      p.force = true ∧ c.force = false) :=
  ⟨⟨.nop (badUrgent), cardNop, badUrgent, idle, rfl, judged_of (by decide +kernel) (by decide +kernel), by decide +kernel⟩,
    ⟨.graphLoad (pkt idle 0x200 [0, 0] false false true), cardGraphLoad, pkt idle 0x200 [0, 0] false false true, idle, rfl,
      judged_of (by decide +kernel) (by decide +kernel), by decide +kernel⟩,
    ⟨.sessionClose (pkt play 0x801 []), cardSessionClose, pkt play 0x801 [], play, rfl,
      judged_of (by decide +kernel) (by decide +kernel), by decide +kernel⟩,
    ⟨.nop (badTag), cardNop, badTag, idle, rfl, judged_of (by decide +kernel) (by decide +kernel), by decide +kernel⟩,
    ⟨.spkEnable (pkt idle 0x302 [1]), cardSpkEnable, pkt idle 0x302 [1], idle.at4 2, rfl,
      judged_of (by decide +kernel) (by decide +kernel), by decide +kernel⟩,
    ⟨.nop (pkt idle 0x0 []), cardNop, pkt idle 0x0 [], idle.wrs [(F.PWR_STATE_TRANS, 1), (F.PWR_STATE_TARGET, 1)], rfl,
      judged_of (by decide +kernel) (by decide +kernel), by decide +kernel⟩,
    ⟨.nop (pkt idle 0x0 [1]), cardNop, pkt idle 0x0 [1], idle, rfl, judged_of (by decide +kernel) (by decide +kernel), by decide +kernel⟩,
    ⟨.nop (pkt idle 0x0 [] false true), cardNop, pkt idle 0x0 [] false true, idle, rfl,
      judged_of (by decide +kernel) (by decide +kernel), by decide +kernel⟩⟩

/-- Hypotheses of BrokenOrRepeatedPacketIsNotExecuted that concrete states and operands meet. -/
theorem witness_BrokenOrRepeatedPacketIsNotExecuted :
    (∃ (i : Instr) (c : CmdSpec) (p : Packet) (s : State),
      packet? i = some (c, p) ∧ Stands c p s ∧ (crc32c (Packet.covered c.opcode p) ≠ p.crc ∨ p.cseq ≠ s.expected p.ring1)) :=
  ⟨.nop (late), cardNop, late, idle, rfl, stands_of (by decide +kernel), by decide +kernel⟩

/-- Hypotheses of ReplyStandsWholeInRingTwo that concrete states and operands meet. -/
theorem witness_ReplyStandsWholeInRingTwo :
    (∃ (p : Packet) (s : State),
      Accepted cardNop p s ∧ p.noreply = false ∧ p.auth = false) :=
  ⟨pkt idle 0x0 [], idle, accepted_pkt rfl (by decide +kernel), by decide +kernel⟩

/-- Hypotheses of SystemCommandsAndStateSync that concrete states and operands meet. -/
theorem witness_SystemCommandsAndStateSync :
    (∃ (p : Packet) (s : State),
      Accepted cardNop p s) ∧
    (∃ (p : Packet) (s : State) (ws : List Word),
      Accepted cardJournalRead p s ∧ (if pb p.payload 0 31 = true then Option.map EventEntry.stored (List.find? (fun e => decide (e.eseq =
      BitVec.extractLsb' 0 16 (pw p.payload 0))) s.pap.events) else Option.map ReplyEntry.stored (s.replyFor? (pb p.payload 0 30)
      (BitVec.extractLsb' 0 16 (pw p.payload 0)))) = some ws) ∧
    (∃ (p : Packet) (s : State),
      Accepted cardSysInfo p s) ∧
    (∃ (p : Packet) (s : State),
      Accepted cardEventCfg p s ∧ 1 ≤ pf p.payload 0 0 8) ∧
    (∃ (p : Packet) (s : State),
      Accepted cardLoopPin p s ∧ pf p.payload 0 0 3 ≤ 2 ∧ (s.pendFor? (if pf p.payload 0 0 3 < 2 then List.map Target.group (indices 3 fun
      g => (BitVec.extractLsb' 4 3 (pw p.payload 0)).getLsbD g) else []) = none)) ∧
    (∃ (p : Packet) (s : State),
      Stands cardStateSync p s ∧ crc32c (Packet.covered 1 p) = p.crc ∧ cardStateSync.check p s = none) :=
  ⟨⟨pkt idle 0x0 [], idle, accepted_pkt rfl (by decide +kernel)⟩,
    ⟨pkt idle 0x2 [1], journaled, (journaled.pap.replies.getLast?.map ReplyEntry.stored).getD [], accepted_pkt rfl (by decide +kernel),
      by decide +kernel⟩,
    ⟨pkt idle 0x3 [], idle, accepted_pkt rfl (by decide +kernel)⟩,
    ⟨pkt idle 0x4 [5], idle, accepted_pkt rfl (by decide +kernel), by decide +kernel⟩,
    ⟨pkt idle 0x5 [0x172], idle, accepted_pkt rfl (by decide +kernel), by decide +kernel⟩,
    ⟨pkt idle 0x1 [], idle, stands_of (by decide +kernel), by decide +kernel⟩⟩

/-- Hypotheses of HeldPacketsAndDiscardedRings that concrete states and operands meet. -/
theorem witness_HeldPacketsAndDiscardedRings :
    (∃ (s : State) (h : HeldReply),
      s.pap.run = PapolRun.running ∧ s.pap.held = [h] ∧ s.pap.afterDue = none ∧ s.ringSpace 2 (s.replyWords h).length = true) ∧
    (∃ (s : State) (e : EventEntry),
      s.pap.run = PapolRun.running ∧ s.ringSpace 3 (e.words true).length = true ∧ s.pap.events = [e] ∧ e.written = false) ∧
    (∃ (s : State) (e : EventEntry),
      s.pap.run = PapolRun.running ∧ s.ringSpace 3 (e.words true).length = true ∧ s.pap.unacked ++ s.pap.events = [e] ∧ e.written = true ∧
      e.repost = true ∧ s.acked e = false) ∧
    (∃ (ring1 : Bool) (s : State),
      s.papolReady ring1 = true ∧ s.occupancy (b2n ring1) ≠ 0 ∧ (4096 < bits (s.word (s.ringAddr (b2n ring1) (s.didx (b2n ring1)))) 0 16 ∨
      s.ringLen (b2n ring1) < s.frontLen (b2n ring1) ∨ s.occupancy (b2n ring1) < s.frontLen (b2n ring1)) ∧
      s.ringPoisoned (b2n ring1) (s.didx (b2n ring1)) 2 = false ∧ s.ringSpace 2 4 = true) :=
  ⟨⟨idle.mPap fun x => { x with held := [⟨[0, 0x10000, 0], false, true, true, false, 1⟩] }, ⟨[0, 0x10000, 0], false, true, true, false,
      1⟩, by decide +kernel⟩,
    ⟨idle.mPap fun x => { x with events := [⟨5, false, 1, 0, 5, [1, 2], true, false⟩] }, ⟨5, false, 1, 0, 5, [1, 2], true, false⟩,
      by decide +kernel⟩,
    ⟨idle.mPap fun x => { x with events := [⟨5, false, 1, 0, 5, [1, 2], true, true⟩] }, ⟨5, false, 1, 0, 5, [1, 2], true, true⟩,
      by decide +kernel⟩,
    ⟨false, (idle.setWord (idle.ringAddr 0 0) 0x1FFF).wr (F.DSP_RING_HIDX_HIDX 0) 4, by decide +kernel⟩⟩

/-- Hypotheses of StreamsOpenAndEnd that concrete states and operands meet. -/
theorem witness_StreamsOpenAndEnd :
    (∃ (p : Packet) (s : State) (sid : Nat) (asf : Nat),
      Accepted cardStreamOpen p s ∧ (∀ d ∈ endDomain (pf p.payload 1 28 4) (pf p.payload 1 20 6) (pf p.payload 2 16 5 + 1) true ++
      endDomain (pf p.payload 1 12 4) (pf p.payload 1 4 6) (pf p.payload 2 16 5 + 1) false ++ if pf p.payload 3 8 2 = 0 then [] else
      [dmAsrc], DomUp s d) ∧ s.endOk (pf p.payload 1 28 4) (pf p.payload 1 20 6) (pf p.payload 2 16 5 + 1) true = true ∧
      s.endOk (pf p.payload 1 12 4) (pf p.payload 1 4 6) (pf p.payload 2 16 5 + 1) false = true ∧ (¬(1 ≤ pf p.payload 1 28 4 ∧
      pf p.payload 1 28 4 ≤ 3 ∧ 1 ≤ pf p.payload 1 12 4 ∧ pf p.payload 1 12 4 ≤ 3)) ∧ pf p.payload 2 8 2 ≠ 3 ∧ (pf p.payload 1 28 4 = 6 ∨
      pf p.payload 1 12 4 = 6 → rateHz (pf p.payload 3 0 4) ≠ 0) ∧ (asrcOk (pf p.payload 3 8 2) (if pf p.payload 1 28 4 = 6 ∧ pf p.payload
      3 8 2 ≠ 0 then rateHz (pf p.payload 3 0 4) else s.endRate (pf p.payload 1 28 4) (pf p.payload 1 20 6) true (pf p.payload 3 0 4))
      (s.endRate (pf p.payload 1 12 4) (pf p.payload 1 4 6) false (pf p.payload 3 0 4)) (!s.audTimed (pf p.payload 1 28 4) true ||
      !s.audTimed (pf p.payload 1 12 4) false) = true) ∧ pf p.payload 4 0 2 ≠ 3 ∧ s.sidPick (pf p.payload 0 0 7) = some sid ∧
      s.claimed (pf p.payload 1 28 4) (pf p.payload 1 20 6) (pf p.payload 2 16 5 + 1) true = false ∧
      s.claimed (pf p.payload 1 12 4) (pf p.payload 1 4 6) (pf p.payload 2 16 5 + 1) false = false ∧
      (if pf p.payload 3 8 2 = 0 then asf = 63 else s.asrcPick (pf p.payload 3 16 6) (pf p.payload 2 16 5 + 1) = some asf) ∧
      s.pendFor? [Target.stream sid] = none) ∧
    (∃ (p : Packet) (s : State) (sid : Fin 128) (x : StreamX),
      Accepted cardStreamClose p s ∧ s.strX? sid.val = some x ∧ p.force = false ∧ pf p.payload 0 0 7 = sid.val ∧
      s.pendFor? [Target.stream sid.val] = none ∧ s.destStopped sid.val = false) ∧
    (∃ (p : Packet) (s : State) (sid : Fin 128) (x : StreamX),
      Accepted cardStreamClose p s ∧ Free s [Target.stream sid.val] ∧ s.strX? sid.val = some x ∧ p.force = false ∧
      pf p.payload 0 0 7 = sid.val ∧ s.destStopped sid.val = true) ∧
    (∃ (p : Packet) (s : State) (sid : Fin 128) (x : StreamX),
      Accepted cardStreamClose { p with force := true } s ∧ s.strX? sid.val = some x ∧ pf p.payload 0 0 7 = sid.val) ∧
    (∃ (s : State) (sid : Fin 128) (x : StreamX),
      s.strX? sid.val = some x ∧ x.closing = true) :=
  ⟨⟨pkt play 0x100 [1, 0x10006040, 0x10000, 0x3F0008, 0x301, 5], tdmOn, 1, 63, accepted_pkt rfl (by decide +kernel),
      (by unfold DomUp; decide +kernel), by decide +kernel⟩,
    ⟨pkt play 0x101 [3], synced.mTdm 0 fun x => { x with clock := true }, 3, newStreamX 3 0 0 0 2, accepted_pkt rfl (by decide +kernel),
      by decide +kernel⟩,
    ⟨pkt play 0x101 [3], (play.str 1 0 6 4), 3, newStreamX 3 0 0 0 2, accepted_pkt rfl (by decide +kernel), free_of (by decide +kernel),
      by decide +kernel⟩,
    ⟨pkt play 0x101 [3] false true, (play.str 1 0 6 4), 3, newStreamX 3 0 0 0 2,
      accepted_of (by decide +kernel) (by decide +kernel) (fun h => by cases h), by decide +kernel⟩,
    ⟨{ play.str 1 0 6 4 with strs := [{ newStreamX 3 0 0 0 2 with closing := true }] }, 3, { newStreamX 3 0 0 0 2 with closing := true },
      by decide +kernel⟩⟩

/-- Hypotheses of StreamStatusAndConverters that concrete states and operands meet. -/
theorem witness_StreamStatusAndConverters :
    (∃ (p : Packet) (s : State) (sid : Fin 128),
      Accepted cardStreamStatus p s ∧ pf p.payload 0 0 7 = sid.val ∧ sid.val ≠ 0 ∧ s.pendFor? [Target.stream sid.val] = none) ∧
    (∃ (p : Packet) (s : State) (sid : Fin 128) (x : StreamX),
      Accepted cardAsrcCfg p s ∧ s.strX? sid.val = some x ∧ pf p.payload 0 0 7 = sid.val ∧ s.rd (F.DSP_STR_FMT_AMODE sid.val) ≠ 0 ∧
      (pw p.payload 1 = 0 ∨ s.rd (F.DSP_STR_FMT_AMODE sid.val) ≠ 2 ∧ 44739243 ≤ BitVec.toNat (pw p.payload 1) ∧
      BitVec.toNat (pw p.payload 1) ≤ 1073741824) ∧ pf p.payload 2 0 2 ≠ 3 ∧ s.pendFor? [Target.stream sid.val] = none) ∧
    (∃ (s : State) (sid : Fin 128) (x : StreamX) (ratio : Word) (early : Bool),
      s.strX? sid.val = some x ∧ (s.rd (F.DSP_STR_FMT_AMODE sid.val) = 1 ∨ s.rd (F.DSP_STR_FMT_AMODE sid.val) = 2 ∧
      44739243 ≤ BitVec.toNat ratio ∧ BitVec.toNat ratio ≤ 1073741824 ∧ (early = true → x.holdLost = true ∧ ∃ r, x.tracked = some r ∧
      closeRatio (BitVec.toNat ratio) r = true))) ∧
    (∃ (s : State) (sid : Fin 128) (x : StreamX),
      s.strX? sid.val = some x ∧ s.rd (F.DSP_STR_FMT_AMODE sid.val) = 2) :=
  ⟨⟨pkt play 0x102 [127], play, 127, accepted_pkt rfl (by decide +kernel), by decide +kernel⟩,
    ⟨pkt play 0x130 [3, 0, 2], (play.str 1 0 6 4).wr (F.DSP_STR_FMT_AMODE 3) 2, 3, newStreamX 3 0 0 0 2,
      accepted_pkt rfl (by decide +kernel), by decide +kernel⟩,
    ⟨(play.str 1 0 6 4).wr (F.DSP_STR_FMT_AMODE 3) 1, 3, newStreamX 3 0 0 0 2, 0, false, by decide +kernel⟩,
    ⟨(play.str 1 0 6 4).wr (F.DSP_STR_FMT_AMODE 3) 2, 3, newStreamX 3 0 0 0 2, by decide +kernel⟩⟩

/-- Hypotheses of StreamFrameMovesOneFrame that concrete states and operands meet. -/
theorem witness_StreamFrameMovesOneFrame :
    (∃ (s : State) (sid : Fin 128) (x : StreamX) (f : FrameIn) (port : Nat) (ring : Nat),
      s.strX? sid.val = some x ∧ port ≤ 1 ∧ s.rd (F.DSP_STR_CFG_STYPE sid.val) = port + 1 ∧ s.rd (F.DSP_STR_CFG_DTYPE sid.val) = 6 ∧
      s.rd (F.DSP_STR_CFG_DIDX sid.val) = ring ∧ 4 ≤ ring ∧ ring ≤ 15 ∧ s.rd (F.DSP_STR_FMT_AMODE sid.val) = 0 ∧
      s.rd (F.DSP_STR_STAT_STATE sid.val) = stmRun ∧ s.portSync port = true ∧ (vat s.tdm port).redo = false ∧ 2 ≤ (vat s.tdm port).clean ∧
      x.tail = 0 ∧ f.samples.length = s.strCh sid.val ∧ s.rd (F.DSP_STR_FMT_WIDTH sid.val) = 0) :=
  ⟨synced, 3, newStreamX 3 0 0 0 2, ⟨[⟨1, 1⟩, ⟨2, 1⟩], 0, [], []⟩, 0, 4, by decide +kernel⟩

/-- Hypotheses of TdmPortsAreEnabledAndFindSync that concrete states and operands meet. -/
theorem witness_TdmPortsAreEnabledAndFindSync :
    (∃ (p : Packet) (s : State) (port : Fin 2),
      DomUp s (dmTdm port.val) ∧ Accepted cardPortCfg p s ∧ pf p.payload 0 0 4 = port.val ∧ s.link.cfgpar = [] ∧
      fmtOk (pw p.payload 1) = true ∧ s.clkOk (pw p.payload 1) (pw p.payload 2) = true ∧ busOk (port.val) (pw p.payload 3) = true ∧
      (s.writePort (port.val) (pw p.payload 1) (pw p.payload 2) (pw p.payload 3)).streamsFit port.val = true ∧
      (vat s.tdm port.val).en = false ∧ s.pendFor? [Target.port port.val] = none) ∧
    (∃ (p : Packet) (s : State) (port : Fin 2),
      DomUp s (dmTdm port.val) ∧ Accepted cardPortEnable p s ∧ Free s [Target.port port.val] ∧ pf p.payload 0 0 4 = port.val ∧
      s.link.cfgpar = [] ∧ pb p.payload 0 8 = true ∧ (vat s.tdm port.val).en = false) ∧
    (∃ (p : Packet) (s : State) (port : Fin 2),
      DomUp s (dmTdm port.val) ∧ Accepted cardPortEnable p s ∧ Free s [Target.port port.val] ∧ pf p.payload 0 0 4 = port.val ∧
      s.link.cfgpar = [] ∧ pb p.payload 0 8 = true ∧ (vat s.tdm port.val).en = true) ∧
    (∃ (p : Packet) (s : State) (port : Fin 2),
      DomUp s (dmTdm port.val) ∧ Accepted cardPortEnable p s ∧ pf p.payload 0 0 4 = port.val ∧ s.link.cfgpar = [] ∧
      pb p.payload 0 8 = false ∧ s.portSid? port.val = none) ∧
    (∃ (s : State) (port : Fin 2) (bclks : Nat),
      (vat s.tdm port.val).en = true ∧ bclks = fmtSlots (vat s.tdm port.val).useFmt * fmtSlotW (vat s.tdm port.val).useFmt ∧
      ((vat s.tdm port.val).useFmt = s.reg (Reg.IN_TDM_FMT port.val) ∧
      (vat s.tdm port.val).useClk &&& 2399141888 = s.reg (Reg.IN_TDM_CLK port.val) &&& 2399141888) ∧ (vat s.tdm port.val).redo = false) ∧
    (∃ (s : State) (port : Fin 2) (bclks : Nat) (rate : Nat),
      (vat s.tdm port.val).en = true ∧ bclks = fmtSlots (vat s.tdm port.val).useFmt * fmtSlotW (vat s.tdm port.val).useFmt ∧
      ((vat s.tdm port.val).useFmt = s.reg (Reg.IN_TDM_FMT port.val) ∧
      (vat s.tdm port.val).useClk &&& 2399141888 = s.reg (Reg.IN_TDM_CLK port.val) &&& 2399141888) ∧
      rateFits (vat s.tdm port.val).useClk rate = true ∧ (vat s.tdm port.val).redo = true ∧ (∀ y ∈ s.strs, y.sid < 128)) ∧
    (∃ (s : State) (port : Fin 2) (bclks : Nat),
      (vat s.tdm port.val).en = true ∧ (bclks ≠ fmtSlots (vat s.tdm port.val).useFmt * fmtSlotW (vat s.tdm port.val).useFmt ∨
      ¬((vat s.tdm port.val).useFmt = s.reg (Reg.IN_TDM_FMT port.val) ∧
      (vat s.tdm port.val).useClk &&& 2399141888 = s.reg (Reg.IN_TDM_CLK port.val) &&& 2399141888)) ∧ (∀ y ∈ s.strs, y.sid < 128)) ∧
    (∃ (s : State) (port : Fin 2) (rate : Nat),
      (vat s.tdm port.val).en = true ∧ s.on (F.IN_TDM_CLK_MASTER port.val) = false ∧ rateFits (vat s.tdm port.val).useClk rate = false) ∧
    (∃ (s : State) (port : Fin 2),
      (vat s.tdm port.val).en = true ∧ (¬((vat s.tdm port.val).useFmt = s.reg (Reg.IN_TDM_FMT port.val) ∧
      (vat s.tdm port.val).useClk &&& 2399141888 = s.reg (Reg.IN_TDM_CLK port.val) &&& 2399141888))) :=
  ⟨⟨pkt play 0x110 [1, 0x81120000, 0x08000000, 0], play, 1, domUp_of (by decide +kernel), accepted_pkt rfl (by decide +kernel),
      by decide +kernel⟩,
    ⟨pkt play 0x111 [0x101], play, 1, domUp_of (by decide +kernel), accepted_pkt rfl (by decide +kernel), free_of (by decide +kernel),
      by decide +kernel⟩,
    ⟨pkt play 0x111 [0x101], play.mTdm 1 fun x => { x with en := true, good := 3 }, 1, domUp_of (by decide +kernel),
      accepted_pkt rfl (by decide +kernel), free_of (by decide +kernel), by decide +kernel⟩,
    ⟨pkt play 0x111 [1], play.mTdm 1 fun x => { x with en := true, good := 3 }, 1, domUp_of (by decide +kernel),
      accepted_pkt rfl (by decide +kernel), by decide +kernel⟩,
    ⟨play.mTdm 1 fun x => { x with en := true, good := 3, useFmt := play.reg (Reg.IN_TDM_FMT 1), useClk := play.reg (Reg.IN_TDM_CLK 1) },
      1, 48, by decide +kernel⟩,
    ⟨play.mTdm 1 fun x => { x with en := true, good := 3, redo := true, useFmt := play.reg (Reg.IN_TDM_FMT 1), useClk := play.reg (Reg.IN_TDM_CLK 1) },
      1, 48, 48000, by decide +kernel⟩,
    ⟨play.mTdm 1 fun x => { x with en := true, good := 3, useFmt := play.reg (Reg.IN_TDM_FMT 1), useClk := play.reg (Reg.IN_TDM_CLK 1) },
      1, 49, by decide +kernel⟩,
    ⟨(play.mTdm 1 fun x => { x with en := true, good := 3, useFmt := play.reg (Reg.IN_TDM_FMT 1), useClk := play.reg (Reg.IN_TDM_CLK 1) }),
      1, 49000, by decide +kernel⟩,
    ⟨play.mTdm 1 fun x => { x with en := true, useFmt := 0x01120000 }, 1, by decide +kernel⟩⟩

/-- Hypotheses of SpdifCommandsAndEvents that concrete states and operands meet. -/
theorem witness_SpdifCommandsAndEvents :
    (∃ (p : Packet) (s : State),
      Accepted cardPortEnable p s ∧ Free s [Target.port 2] ∧ DomUp s dmSpdRx ∧ pb p.payload 0 8 = true ∧ s.link.cfgpar = [] ∧
      pf p.payload 0 0 4 = 2 ∧ s.spdif.rxEn = false) ∧
    (∃ (p : Packet) (s : State),
      Accepted cardPortEnable p s ∧ Free s [Target.port 3] ∧ DomUp s dmSpdTx ∧ pb p.payload 0 8 = true ∧ s.link.cfgpar = [] ∧
      pf p.payload 0 0 4 = 3 ∧ s.spdif.txEn = false) ∧
    (∃ (p : Packet) (s : State),
      Accepted cardSpdifRxCfg p s ∧ DomUp s dmSpdRx ∧ (pf p.payload 0 0 4 = 15 ∨ spdRate (pf p.payload 0 0 4) = true) ∧
      s.pendFor? [Target.port 2] = none) ∧
    (∃ (p : Packet) (s : State),
      Accepted cardSpdifTxCfg p s ∧ DomUp s dmSpdTx ∧ spdRate (pf p.payload 0 0 4) = true ∧
      s.inFamily (rateHz (pf p.payload 0 0 4)) = true ∧ s.pendFor? [Target.port 3] = none) ∧
    (∃ (p : Packet) (s : State),
      Accepted cardSpdifCsRead p s) ∧
    (∃ (p : Packet) (s : State),
      Accepted cardSpdifCsWrite p s ∧ DomUp s dmSpdTx ∧ pf p.payload 0 0 2 ≠ 3 ∧ pf p.payload 1 0 2 = 0 ∧
      s.pendFor? [Target.port 3] = none) ∧
    (∃ (s : State) (rate : Nat),
      s.spdif.rxEn = true ∧ spdRate (rateCode rate 5) = true ∧ (s.spdif.rx.expfs = 15 ∨ s.spdif.rx.expfs = rateCode rate 5)) ∧
    (∃ (s : State),
      s.spdif.txEn = true) ∧
    (∃ (s : State) (frames : List (Subframe × Subframe)),
      s.on F.IN_SPDRX_STAT_LOCK = true ∧ s.spdif.rxEn = true ∧ s.spdif.rx.csevt = false ∧ (∀ f ∈ frames, f.1.perr = false ∧
      f.2.perr = false ∧ syncWords f = false) ∧ (frames.getD 1 default).1.status = false ∧ (frames.getD 1 default).2.status = false) :=
  ⟨⟨pkt play 0x111 [0x102], play, accepted_pkt rfl (by decide +kernel), free_of (by decide +kernel), domUp_of (by decide +kernel),
      by decide +kernel⟩,
    ⟨pkt play 0x111 [0x103], play, accepted_pkt rfl (by decide +kernel), free_of (by decide +kernel), domUp_of (by decide +kernel),
      by decide +kernel⟩,
    ⟨pkt play 0x120 [0x10F, 7], play, accepted_pkt rfl (by decide +kernel), domUp_of (by decide +kernel), by decide +kernel⟩,
    ⟨pkt play 0x121 [0x308, 1], play, accepted_pkt rfl (by decide +kernel), domUp_of (by decide +kernel), by decide +kernel⟩,
    ⟨pkt play 0x122 [0x101], play, accepted_pkt rfl (by decide +kernel)⟩,
    ⟨pkt play 0x123 [2, 4, 5, 6, 7, 8, 9], play, accepted_pkt rfl (by decide +kernel), domUp_of (by decide +kernel), by decide +kernel⟩,
    ⟨play.mSpdif fun x => { x with rxEn := true }, 48000, by decide +kernel⟩,
    ⟨play.mSpdif fun x => { x with txEn := true }, by decide +kernel⟩,
    ⟨(play.mSpdif fun x => { x with rxEn := true }).wr F.IN_SPDRX_STAT_LOCK 1, List.replicate 191 (⟨5, true, false, false⟩, ⟨7, true,
      false, false⟩), by decide +kernel⟩⟩

/-- Hypotheses of GraphImagesAreLoadedAndMolted that concrete states and operands meet. -/
theorem witness_GraphImagesAreLoadedAndMolted :
    (∃ (p : Packet) (s : State),
      Accepted cardGraphLoad p s ∧ (s.spanOn (pf p.payload 0 2 19 * 4) (pf p.payload 1 0 21) = true ∧
      s.poisonIn (pf p.payload 0 2 19 * 4) (pf p.payload 1 0 21) = [] ∧ pf p.payload 1 0 21 % 4 = 0 ∧
      s.modelSigned (s.words (8388608 + pf p.payload 0 2 19 * 4) (pf p.payload 1 0 21 / 4)) = true ∧ s.graphRoll ≤ BitVec.toNat
      ((parseGraph (pf p.payload 0 2 19 * 4) (pf p.payload 1 0 21) (s.words (8388608 + pf p.payload 0 2 19 * 4) (pf p.payload 1 0 21 /
      4))).word 3) ∧ (parseGraph (pf p.payload 0 2 19 * 4) (pf p.payload 1 0 21) (s.words (8388608 + pf p.payload 0 2 19 * 4) (pf
      p.payload 1 0 21 / 4))).ok = true ∧ s.fgcOk (parseGraph (pf p.payload 0 2 19 * 4) (pf p.payload 1 0 21) (s.words (8388608 + pf
      p.payload 0 2 19 * 4) (pf p.payload 1 0 21 / 4))) = true ∧ (parseGraph (pf p.payload 0 2 19 * 4) (pf p.payload 1 0 21) (s.words
      (8388608 + pf p.payload 0 2 19 * 4) (pf p.payload 1 0 21 / 4))).count + s.rd F.DSP_SPARE_RESERVE ≤ (indices 8 s.healthy).length ∧
      Free s [Target.graph] ∧ (∀ n ∈ List.take (parseGraph (pf p.payload 0 2 19 * 4) (pf p.payload 1 0 21) (s.words (8388608 + pf
      p.payload 0 2 19 * 4) (pf p.payload 1 0 21 / 4))).count (indices 8 s.healthy), DomUp s (dmEngine n)) ∧ ∀ (a : Nat),
      papolByte s a → ¬(8388608 + pf p.payload 0 2 19 * 4 ≤ a ∧ a < 8388608 + pf p.payload 0 2 19 * 4 + pf p.payload 1 0 21)) ∧
      s.graph.image = none ∧ (pf p.payload 2 0 16 = 0 ∨ nraOk (parseGraph (pf p.payload 0 2 19 * 4) (pf p.payload 1 0 21) (s.words
      (8388608 + pf p.payload 0 2 19 * 4) (pf p.payload 1 0 21 / 4))).fgc (pf p.payload 2 0 16) = true) ∧ s.ringsClaimed (parseGraph (pf
      p.payload 0 2 19 * 4) (pf p.payload 1 0 21) (s.words (8388608 + pf p.payload 0 2 19 * 4) (pf p.payload 1 0 21 / 4))) none = false ∧
      s.leapsClaimed (parseGraph (pf p.payload 0 2 19 * 4) (pf p.payload 1 0 21) (s.words (8388608 + pf p.payload 0 2 19 * 4) (pf
      p.payload 1 0 21 / 4))) none = false ∧ ((parseGraph (pf p.payload 0 2 19 * 4) (pf p.payload 1 0 21) (s.words (8388608 + pf p.payload
      0 2 19 * 4) (pf p.payload 1 0 21 / 4))).minimum (decide (s.rd F.DSP_SPARE_RESERVE ≠ 0)) 1 ≤ if pf p.payload 2 0 16 = 0 then
      (parseGraph (pf p.payload 0 2 19 * 4) (pf p.payload 1 0 21) (s.words (8388608 + pf p.payload 0 2 19 * 4) (pf p.payload 1 0 21 /
      4))).nra else pf p.payload 2 0 16)) ∧
    (∃ (s : State) (g : GImage),
      s.graph.loading = some g ∧ (∀ q ∈ g.rings, 16 ≤ q.ring ∧ q.ring < 32)) ∧
    (∃ (p : Packet) (s : State) (old : GImage),
      Accepted cardGraphMolt p s ∧ (s.spanOn (pf p.payload 0 2 19 * 4) (pf p.payload 1 0 21) = true ∧
      s.poisonIn (pf p.payload 0 2 19 * 4) (pf p.payload 1 0 21) = [] ∧ pf p.payload 1 0 21 % 4 = 0 ∧
      s.modelSigned (s.words (8388608 + pf p.payload 0 2 19 * 4) (pf p.payload 1 0 21 / 4)) = true ∧ s.graphRoll ≤ BitVec.toNat
      ((parseGraph (pf p.payload 0 2 19 * 4) (pf p.payload 1 0 21) (s.words (8388608 + pf p.payload 0 2 19 * 4) (pf p.payload 1 0 21 /
      4))).word 3) ∧ (parseGraph (pf p.payload 0 2 19 * 4) (pf p.payload 1 0 21) (s.words (8388608 + pf p.payload 0 2 19 * 4) (pf
      p.payload 1 0 21 / 4))).ok = true ∧ s.fgcOk (parseGraph (pf p.payload 0 2 19 * 4) (pf p.payload 1 0 21) (s.words (8388608 + pf
      p.payload 0 2 19 * 4) (pf p.payload 1 0 21 / 4))) = true ∧ (parseGraph (pf p.payload 0 2 19 * 4) (pf p.payload 1 0 21) (s.words
      (8388608 + pf p.payload 0 2 19 * 4) (pf p.payload 1 0 21 / 4))).count + s.rd F.DSP_SPARE_RESERVE ≤ (indices 8 s.healthy).length ∧
      Free s [Target.graph] ∧ (∀ n ∈ List.take (parseGraph (pf p.payload 0 2 19 * 4) (pf p.payload 1 0 21) (s.words (8388608 + pf
      p.payload 0 2 19 * 4) (pf p.payload 1 0 21 / 4))).count (indices 8 s.healthy), DomUp s (dmEngine n)) ∧ ∀ (a : Nat),
      papolByte s a → ¬(8388608 + pf p.payload 0 2 19 * 4 ≤ a ∧ a < 8388608 + pf p.payload 0 2 19 * 4 + pf p.payload 1 0 21)) ∧
      s.graph.image = some old ∧ s.gstate = gsRunning ∧ s.graph.recs = [] ∧ (∀ e ∈ s.graph.les, e.behind = false) ∧
      pf p.payload 2 0 16 = 0 ∧ (parseGraph (pf p.payload 0 2 19 * 4) (pf p.payload 1 0 21) (s.words (8388608 + pf p.payload 0 2 19 * 4)
      (pf p.payload 1 0 21 / 4))).rate = old.rate ∧ (parseGraph (pf p.payload 0 2 19 * 4) (pf p.payload 1 0 21) (s.words (8388608 + pf
      p.payload 0 2 19 * 4) (pf p.payload 1 0 21 / 4))).bc = old.bc ∧ (parseGraph (pf p.payload 0 2 19 * 4) (pf p.payload 1 0 21) (s.words
      (8388608 + pf p.payload 0 2 19 * 4) (pf p.payload 1 0 21 / 4))).nra = s.graph.nra ∧ (parseGraph (pf p.payload 0 2 19 * 4) (pf
      p.payload 1 0 21) (s.words (8388608 + pf p.payload 0 2 19 * 4) (pf p.payload 1 0 21 / 4))).leapMap = old.leapMap ∧ s.ringsClaimed
      (parseGraph (pf p.payload 0 2 19 * 4) (pf p.payload 1 0 21) (s.words (8388608 + pf p.payload 0 2 19 * 4) (pf p.payload 1 0 21 / 4)))
      (some old) = false ∧ (parseGraph (pf p.payload 0 2 19 * 4) (pf p.payload 1 0 21) (s.words (8388608 + pf p.payload 0 2 19 * 4) (pf
      p.payload 1 0 21 / 4))).minimum (decide (s.rd F.DSP_SPARE_RESERVE ≠ 0)) (parseGraph (pf p.payload 0 2 19 * 4) (pf p.payload 1 0 21)
      (s.words (8388608 + pf p.payload 0 2 19 * 4) (pf p.payload 1 0 21 / 4))).stages ≤ (parseGraph (pf p.payload 0 2 19 * 4) (pf
      p.payload 1 0 21) (s.words (8388608 + pf p.payload 0 2 19 * 4) (pf p.payload 1 0 21 / 4))).nra) ∧
    (∃ (s : State) (old : GImage) (m : GImage),
      s.graph.image = some old ∧ s.graph.molt = some m ∧ s.gstate = gsStaged) :=
  ⟨⟨pkt play 0x200 [0x40000, 340, 0], play.putImg 0x40000 imgWords, by
      have h1 : pf (pkt play 0x200 [0x40000, 340, 0]).payload 0 2 19 * 4 = 0x40000 := by decide +kernel
      have h2 : pf (pkt play 0x200 [0x40000, 340, 0]).payload 1 0 21 = 340 := by decide +kernel
      have hw : (play.putImg 0x40000 imgWords).words (8388608 + 0x40000) (340 / 4) = imgWords := by decide +kernel
      rw [h1, h2, hw]
      exact ⟨accepted_pkt rfl (by decide +kernel), ⟨by decide +kernel, by decide +kernel, by decide +kernel,
        modelSigned_of _ imgSigned rfl (by decide +kernel), by decide +kernel, img_ok, by decide +kernel, by decide +kernel,
        free_of (by decide +kernel), by unfold DomUp; decide +kernel, not_ring_byte (by decide +kernel) (by decide +kernel)⟩, rfl,
        by decide +kernel⟩⟩,
    ⟨play.mGraph fun g => { g with loading := some img }, img, rfl, by decide +kernel⟩,
    ⟨pkt play 0x203 [0x40000, 340, 0], (play.graphIn gsRunning (some 6)).putImg 0x40000 imgWords, img, by
      have h1 : pf (pkt play 0x203 [0x40000, 340, 0]).payload 0 2 19 * 4 = 0x40000 := by decide +kernel
      have h2 : pf (pkt play 0x203 [0x40000, 340, 0]).payload 1 0 21 = 340 := by decide +kernel
      have hw : ((play.graphIn gsRunning (some 6)).putImg 0x40000 imgWords).words (8388608 + 0x40000) (340 / 4) = imgWords := by decide +kernel
      rw [h1, h2, hw]
      exact ⟨accepted_pkt rfl (by decide +kernel), ⟨by decide +kernel, by decide +kernel, by decide +kernel,
        modelSigned_of _ imgSigned rfl (by decide +kernel), by decide +kernel, img_ok, by decide +kernel, by decide +kernel,
        free_of (by decide +kernel), by unfold DomUp; decide +kernel, not_ring_byte (by decide +kernel) (by decide +kernel)⟩, rfl,
        by decide +kernel⟩⟩,
    ⟨(play.graphIn gsStaged (some 3)).mGraph fun g => { g with molt := some img }, img, img, rfl, rfl, by decide +kernel⟩⟩

/-- Hypotheses of GraphStartsAndStops that concrete states and operands meet. -/
theorem witness_GraphStartsAndStops :
    (∃ (p : Packet) (s : State) (g : GImage),
      s.graph.image = some g ∧ Accepted cardGraphStart p s ∧ s.graph.dead = false ∧ s.gstate = gsLoaded ∧ s.pstate = stIdle ∧
      s.pendFor? [Target.graph] = none) ∧
    (∃ (p : Packet) (s : State) (g : GImage),
      s.graph.image = some g ∧ Accepted cardGraphStart p s ∧ Free s [Target.graph] ∧ s.graph.dead = false ∧ s.gstate = gsLoaded ∧
      s.pstate = stPlay) ∧
    (∃ (p : Packet) (s : State) (g : GImage),
      s.graph.image = some g ∧ Accepted (cardGraphStop (pb p.payload 0 0)) p s ∧ Free s [Target.graph] ∧ s.graphRuns = true) ∧
    (∃ (p : Packet) (s : State) (g : GImage),
      s.graph.image = some g ∧ Accepted (cardGraphStop (pb p.payload 0 0)) p s ∧ s.gstate = gsLoaded ∧ s.pendFor? [Target.graph] = none) ∧
    (∃ (s : State) (g : GImage),
      s.graph.image = some g ∧ s.gstate = gsStopping ∧ s.playedOut g = true) :=
  ⟨⟨pkt play 0x201 [0], (play.graphIn gsLoaded none).at4 3, img, rfl, accepted_pkt rfl (by decide +kernel), by decide +kernel⟩,
    ⟨pkt play 0x201 [5], play.graphIn gsLoaded none, img, rfl, accepted_pkt rfl (by decide +kernel), free_of (by decide +kernel),
      by decide +kernel⟩,
    ⟨pkt play 0x202 [1], play.graphIn gsRunning (some 3), img, rfl, accepted_pkt rfl (by decide +kernel), free_of (by decide +kernel),
      by decide +kernel⟩,
    ⟨pkt play 0x202 [1], play.graphIn gsLoaded none, img, rfl, accepted_pkt rfl (by decide +kernel), by decide +kernel⟩,
    ⟨(play.graphIn gsStopping none).modLeap 0 fun h => { h with read := 5000 }, img, rfl, by decide +kernel⟩⟩

/-- Hypotheses of GraphParametersSparesAndStatus that concrete states and operands meet. -/
theorem witness_GraphParametersSparesAndStatus :
    (∃ (p : Packet) (s : State) (g : GImage) (r : GRegion),
      Accepted cardGraphParam p s ∧ s.graph.image = some g ∧
      List.find? (fun r => decide (r.id = pf p.payload 0 16 16) && decide (r.cls = 1)) g.regions = some r ∧ 1 ≤ pf p.payload 1 0 7 ∧
      pf p.payload 1 0 7 ≤ 64 ∧ p.payload.length = pf p.payload 1 0 7 + 2 ∧ pf p.payload 0 0 16 + pf p.payload 1 0 7 ≤ r.len) ∧
    (∃ (p : Packet) (s : State),
      Accepted cardSpareReserve p s ∧ pf p.payload 0 0 3 ≤ 4 ∧ s.rd F.DSP_SPARE_FLOOR ≤ 4 ∧ s.graph.image = none ∧
      max (pf p.payload 0 0 3) (s.rd F.DSP_SPARE_FLOOR) ≤ s.unplaced) ∧
    (∃ (p : Packet) (s : State),
      Accepted cardEngineStatus p s) :=
  ⟨⟨pkt play 0x204 [0x50000, 2, 77, 78], play.graphIn gsRunning (some 3), img, ⟨5, 1, 0, 0, 2⟩, accepted_pkt rfl (by decide +kernel),
      rfl, by decide +kernel⟩,
    ⟨pkt play 0x210 [4], play, accepted_pkt rfl (by decide +kernel), by decide +kernel⟩,
    ⟨pkt play 0x211 [0x80000007], play, accepted_pkt rfl (by decide +kernel)⟩⟩

/-- Hypotheses of BlockScheduleAdvances that concrete states and operands meet. -/
theorem witness_BlockScheduleAdvances :
    (∃ (s : State),
      s.graph.image = none) ∧
    (∃ (s : State) (g : GImage) (n : Nat),
      s.graph.image = some g ∧ s.gstate = gsArmed ∧ s.pstate = stPlay ∧ s.graph.dead = false ∧ s.graph.rearm = false ∧
      s.graph.countdown = some (n + 1) ∧ s.graph.params = []) ∧
    (∃ (s : State) (g : GImage) (k : Nat),
      s.graph.image = some g ∧ s.gstate = gsRunning ∧ s.graph.tick = some k ∧ (s.setTick (k + 1)).lateOnes g = []) ∧
    (∃ (s : State) (l : Fin 8) (out : BlockOut) (g : GImage),
      s.graph.image = some g ∧ (s.le l.val).busy = true ∧ (s.le l.val).copy = none ∧ (s.le l.val).host < 8 ∧ l.val < s.graph.les.length ∧
      s.hostWorks l.val = true ∧ out.ops = []) ∧
    (∃ (s : State) (l : Fin 8) (out : BlockOut) (task : GTask) (g : GImage) (y : Nat) (k : Nat) (w : Word),
      s.graph.image = some g ∧ s.graphRuns = false ∧ (s.le l.val).busy = true ∧ (s.le l.val).copy = none ∧ (s.le l.val).host < 8 ∧
      s.hostWorks l.val = true ∧ g.task? y = some { task with num := y } ∧ s.runner { task with num := y } = l.val ∧ s.isShed y = false ∧
      k < 2 ^ 19 ∧ s.bankOn (4 * k / 131072) = true ∧ s.poison.contains (8388608 + 4 * k) = false ∧ out.ops = [(y,
      EngOp.store (268435456 + 4 * k) w)]) ∧
    (∃ (s : State) (l : Fin 8) (out : BlockOut) (task : GTask) (g : GImage) (y : Nat) (k : Nat) (w : Word) (r : Fin 32),
      s.graph.image = some g ∧ s.graphRuns = false ∧ (s.le l.val).busy = true ∧ (s.le l.val).copy = none ∧ (s.le l.val).host < 8 ∧
      s.hostWorks l.val = true ∧ g.task? y = some { task with num := y } ∧ s.runner { task with num := y } = l.val ∧ s.isShed y = false ∧
      k < 2 ^ 19 ∧ s.bankOn (4 * k / 131072) = true ∧ s.poison.contains (8388608 + 4 * k) = false ∧ out.ops = [(y,
      EngOp.atomAdd (268435456 + 4 * k) w r)]) ∧
    (∃ (s : State) (l : Fin 8) (g : GImage) (c : Slot),
      s.graph.image = some g ∧ (s.le l.val).copy = some c ∧ l.val < s.graph.les.length) ∧
    (∃ (s : State) (k : Fin 32),
      s.linkAlive = true ∧ s.graph.flow = true ∧ s.on (F.DSP_LEAP_STAT_BOUND k.val) = true) :=
  ⟨⟨play, by decide +kernel⟩,
    ⟨(play.graphIn gsArmed none).mGraph fun g => { g with countdown := some 1 }, img, 0, rfl, by decide +kernel⟩,
    ⟨play.graphIn gsRunning (some 6), img, 6, rfl, by decide +kernel⟩,
    ⟨(play.graphIn gsRunning (some 6)).modLe 0 fun e => { e with busy := true }, 0, ⟨0, [], [], List.replicate 168 0, 0⟩, img, rfl,
      by decide +kernel⟩,
    ⟨((play.graphIn gsStopping none).modLe 0 fun e => { e with busy := true }), 0, ⟨0, [], [(0, .store (0x10000000 + 4 * 100) 5)],
      List.replicate 168 0, 0⟩,
      { num := 0, leng := 0, stage := 1, prio := 2, zero := true, entry := 0, nin := 0, nout := 1, ports := [0x80000000] }, img, 0, 100,
      5, rfl, by decide +kernel⟩,
    ⟨((play.graphIn gsStopping none).modLe 0 fun e => { e with busy := true }), 0, ⟨0, [], [(0, .atomAdd (0x10000000 + 4 * 100) 5 3)],
      List.replicate 168 0, 0⟩,
      { num := 0, leng := 0, stage := 1, prio := 2, zero := true, entry := 0, nin := 0, nout := 1, ports := [0x80000000] }, img, 0, 100,
      5, 3, rfl, by decide +kernel⟩,
    ⟨(play.graphIn gsRunning (some 6)).modLe 0 fun e => { e with copy := some ⟨5, [(5, [1, 2])], [], 0⟩ }, 0, img, ⟨5, [(5, [1, 2])], [],
      0⟩, rfl, by decide +kernel⟩,
    ⟨((play.graphIn gsRunning (some 6)).mGraph fun g => { g with flow := true }).set1 (F.DSP_LEAP_STAT_BOUND 31), 31, by decide +kernel⟩⟩

/-- Hypotheses of EngineFaultsAndSelfTests that concrete states and operands meet. -/
theorem witness_EngineFaultsAndSelfTests :
    (∃ (s : State) (n : Fin 8) (i : Iface),
      s.chipSafe = false ∧ s.graph.les = [] ∧ s.engineWorks n.val = true ∧ s.ifaceReady i = true ∧ s.domReady (dmEngine n.val) = true ∧
      s.lockOpen i = true ∧ s.link.cfgpar = []) ∧
    (∃ (s : State) (n : Fin 8),
      s.chipSafe = false ∧ s.role n.val ≠ roTest ∧ s.role n.val ≠ roRetired ∧ s.domOn (dmEngine n.val) = true) ∧
    (∃ (s : State) (n : Fin 8),
      s.chipSafe = false ∧ s.role n.val = roTest ∧ (vat s.eng n.val).fails < 3 ∧ s.occupied n.val = false) ∧
    (∃ (s : State) (l : Fin 8) (g : GImage),
      s.graph.image = some g ∧ s.chipSafe = false ∧ (s.le l.val).loading = true ∧ l.val < s.graph.les.length) :=
  ⟨⟨play.lk.setRole 7 roSpare 0xF, 7, .host, by decide +kernel⟩,
    ⟨play, 7, by decide +kernel⟩,
    ⟨play.setRole 7 roTest 0xF, 7, by decide +kernel⟩,
    ⟨(play.graphIn gsLoaded none).modLe 0 fun e => { e with loading := true }, 0, img, rfl, by decide +kernel⟩⟩

/-- Hypotheses of BankErrorsSparesAndRetirement that concrete states and operands meet. -/
theorem witness_BankErrorsSparesAndRetirement :
    (∃ (s : State) (b : Fin 16) (row : Fin 512),
      s.bankOn b.val = true ∧ s.borrowed b.val row.val = false ∧ (∀ e ∈ s.banks.corr, ¬(e.1 = b.val ∧ e.2.1 = row.val))) ∧
    (∃ (s : State) (b : Fin 16) (r : RowRepl),
      s.bankOn b.val = true ∧ s.replOf? b.val = some r ∧ (∀ w ∈ s.saf.work, w.region = rgDsp → w.wait = false)) ∧
    (∃ (s : State) (b : Fin 16),
      s.bankOn b.val = true ∧ s.on (F.DSP_SB_STAT_RETPEND b.val) = true ∧ b.val ≠ 0 ∧ s.bankUsed b.val = false) :=
  ⟨⟨play, 15, 511, by decide +kernel⟩,
    ⟨play.mBanks fun b => { b with repls := [⟨1, 7, 0, 3, 2⟩] }, 1, ⟨1, 7, 0, 3, 2⟩, by decide +kernel⟩,
    ⟨play.set1 (F.DSP_SB_STAT_RETPEND 15), 15, by decide +kernel⟩⟩

/-- Hypotheses of MarchTestBorrowsRowByRow that concrete states and operands meet. -/
theorem witness_MarchTestBorrowsRowByRow :
    (∃ (p : Packet) (s : State),
      Accepted cardMarchRun p s ∧ Free s [Target.march] ∧ pb p.payload 1 31 = false ∧ pf p.payload 0 0 16 ≠ 0 ∧ (∀ k < 16,
      inMask (pf p.payload 0 0 16) k = true → s.bankOn k = true)) ∧
    (∃ (p : Packet) (s : State),
      Accepted cardMarchRun { p with payload := [pw p.payload 0, putBits (pw p.payload 1) 31 1 1] ++ List.drop 2 p.payload } s ∧
      s.on F.DSP_SB_MARCH_ACTIVE = true ∧ (∀ r ∈ s.banks.repls, ¬(r.bank = s.rd F.DSP_SB_MARCH_BANK ∧
      r.row = s.rd (F.DSP_SB_STAT_BROW (s.rd F.DSP_SB_MARCH_BANK))))) ∧
    (∃ (s : State),
      s.on F.DSP_SB_MARCH_ACTIVE = true ∧ s.bankOn (s.rd F.DSP_SB_MARCH_BANK) = true ∧
      s.on (F.DSP_SB_STAT_BORROW (s.rd F.DSP_SB_MARCH_BANK)) = false) ∧
    (∃ (s : State),
      s.on F.DSP_SB_MARCH_ACTIVE = true ∧ s.on (F.DSP_SB_STAT_BORROW (s.rd F.DSP_SB_MARCH_BANK)) = true ∧
      s.spareLeft (s.rd F.DSP_SB_MARCH_BANK) = true ∧ (∀ r ∈ s.banks.repls, ¬(r.bank = s.rd F.DSP_SB_MARCH_BANK ∧
      r.row = s.rd (F.DSP_SB_STAT_BROW (s.rd F.DSP_SB_MARCH_BANK)))) ∧ s.rd (F.DSP_SB_STAT_BROW (s.rd F.DSP_SB_MARCH_BANK)) ≠ 511) :=
  ⟨⟨pkt play 0x903 [0xFFFF, 3], play, accepted_pkt rfl (by decide +kernel), free_of (by decide +kernel), by decide +kernel⟩,
    ⟨pkt play 0x903 [0, 0x80000000], (play.wrs [(F.DSP_SB_MARCH_ACTIVE, 1), (F.DSP_SB_MARCH_BANK, 15)]),
      accepted_of (by decide +kernel) (by decide +kernel) (fun h => by cases h), by decide +kernel⟩,
    ⟨(play.wrs [(F.DSP_SB_MARCH_ACTIVE, 1), (F.DSP_SB_MARCH_BANK, 15)]), by decide +kernel⟩,
    ⟨(play.wrs [(F.DSP_SB_MARCH_ACTIVE, 1), (F.DSP_SB_MARCH_BANK, 15)]).set1 (F.DSP_SB_STAT_BORROW 15), by decide +kernel⟩⟩

/-- Hypotheses of ChannelPhasesFollowOneAnother that concrete states and operands meet. -/
theorem witness_ChannelPhasesFollowOneAnother :
    (∃ (s : State) (n : Fin 12),
      Quiet s ∧ s.phase n.val = phOff ∧ (s.spk n.val).start = true ∧ s.on (F.OUT_G_STAT_PVDDOK (n.val / 4)) = true ∧
      s.carrierOn (n.val / 4) = true ∧ s.rd F.SAFE_SM_STAT_CSS ≠ 2) ∧
    (∃ (s : State) (n : Fin 12) (own : ChanTest) (slave : ChanTest),
      Quiet s ∧ s.phase n.val = phCheck ∧ s.sclassOf (n.val) own slave = 0 ∧
      (s.paired n.val = true → s.rd (F.OUT_G_STAT_PVDD (n.val / 4)) ≤ 2450)) ∧
    (∃ (s : State) (n : Fin 12) (own : ChanTest) (slave : ChanTest),
      Quiet s ∧ Still s ∧ s.phase n.val = phCheck ∧ (s.sclassOf (n.val) own slave ≠ 0 ∨ s.paired n.val = true ∧
      2450 < s.rd (F.OUT_G_STAT_PVDD (n.val / 4))) ∧ s.master n.val = n.val) ∧
    (∃ (s : State) (n : Fin 12),
      Quiet s ∧ s.phase n.val = phCharge) ∧
    (∃ (s : State) (n : Fin 12),
      Quiet s ∧ s.phase n.val = phLock ∧ (s.spk n.val).on = true ∧ s.unmutes = true ∧ s.muted = false) ∧
    (∃ (s : State) (n : Fin 12),
      Quiet s ∧ s.phase n.val = phLock ∧ (s.spk n.val).on = true ∧ s.muted = true) ∧
    (∃ (s : State) (n : Fin 12),
      Quiet s ∧ s.phase n.val = phLock ∧ (s.spk n.val).on = false) ∧
    (∃ (s : State) (n : Fin 12),
      Quiet s ∧ s.phase n.val = phUnmute) ∧
    (∃ (s : State) (n : Fin 12),
      Quiet s ∧ s.phase n.val = phMute ∧ (s.spk n.val).on = true ∧ s.unmutes = false) ∧
    (∃ (s : State) (n : Fin 12),
      Quiet s ∧ s.phase n.val = phMute ∧ (s.spk n.val).on = false) ∧
    (∃ (s : State) (n : Fin 12),
      Quiet s ∧ s.phase n.val = phDischarge ∧ s.rd (F.OUT_G_CFG_PAIR (n.val / 4)) = (s.grp (n.val / 4)).pairs) :=
  ⟨⟨play.ph 11 phOff fun x => { x with start := true }, 11, quiet_of (by decide +kernel), by decide +kernel⟩,
    ⟨play.ph 11 phCheck, 11, ⟨⟨false, 80000⟩, ⟨false, 80000⟩, 600, 600, 600, 600, 24000, 200⟩, ⟨⟨false, 80000⟩, ⟨false, 80000⟩, 600, 600,
      600, 600, 24000, 200⟩, quiet_of (by decide +kernel), by decide +kernel⟩,
    ⟨play.ph 11 phCheck, 11, ⟨⟨false, 80000⟩, ⟨false, 80000⟩, 3, 600, 600, 600, 24000, 200⟩, ⟨⟨false, 80000⟩, ⟨false, 80000⟩, 600, 600,
      600, 600, 24000, 200⟩, quiet_of (by decide +kernel), still_of (by decide +kernel), by decide +kernel⟩,
    ⟨play.ph 11 phCharge, 11, quiet_of (by decide +kernel), by decide +kernel⟩,
    ⟨play.ph 11 phLock fun x => { x with on := true }, 11, quiet_of (by decide +kernel), by decide +kernel⟩,
    ⟨(play.ph 11 phLock fun x => { x with on := true }).mu, 11, quiet_of (by decide +kernel), by decide +kernel⟩,
    ⟨play.ph 11 phLock, 11, quiet_of (by decide +kernel), by decide +kernel⟩,
    ⟨play.ph 11 phUnmute, 11, quiet_of (by decide +kernel), by decide +kernel⟩,
    ⟨(play.ph 11 phMute fun x => { x with on := true }).at4 3, 11, quiet_of (by decide +kernel), by decide +kernel⟩,
    ⟨play.ph 11 phMute, 11, quiet_of (by decide +kernel), by decide +kernel⟩,
    ⟨play.ph 11 phDischarge, 11, quiet_of (by decide +kernel), by decide +kernel⟩⟩

/-- Hypotheses of SpeakerConfigurationIsWritten that concrete states and operands meet. -/
theorem witness_SpeakerConfigurationIsWritten :
    (∃ (p : Packet) (s : State) (g : Fin 3),
      Accepted cardSpkGroupCfg p s ∧ DomUp s (dmGroup g.val) ∧ s.link.cfgpar = [] ∧ pf p.payload 0 0 2 = g.val ∧ pf p.payload 1 5 2 ≠ 3 ∧
      (pf p.payload 1 2 3 ≤ 3 ∨ pf p.payload 1 2 3 = 7) ∧ s.fswAtLeast (BitVec.toNat (s.reg Reg.OUT_SW_FREQI)) (divTaken (s.rd
      (F.OUT_SW_OUTA_DIV g.val))) (minFsw (pf p.payload 1 7 1) (pf p.payload 1 5 2)) = true ∧ 125 ≤ pf p.payload 2 24 8 ∧
      pf p.payload 2 24 8 ≤ s.rd F.OUT_SPK_FUSE_TFBMAX ∧ pf p.payload 2 20 4 ≤ 5 ∧ pf p.payload 1 10 2 = s.rd (F.OUT_G_CFG_PAIR g.val) ∧
      s.rd (F.OUT_G_CFG_PAIR g.val) = (s.grp g.val).pairs ∧ pf p.payload 1 7 1 = s.rd (F.OUT_G_CFG_BAND g.val) ∧
      pf p.payload 1 5 2 = s.rd (F.OUT_G_CFG_LOOPBW g.val) ∧ s.pendFor? [Target.group g.val] = none) ∧
    (∃ (p : Packet) (s : State) (g : Fin 3),
      Accepted cardSpkGroupCfg p s ∧ DomUp s (dmGroup g.val) ∧ Free s [Target.group g.val] ∧ s.link.cfgpar = [] ∧
      pf p.payload 0 0 2 = g.val ∧ pf p.payload 1 5 2 ≠ 3 ∧ (pf p.payload 1 2 3 ≤ 3 ∨ pf p.payload 1 2 3 = 7) ∧ s.fswAtLeast (BitVec.toNat
      (s.reg Reg.OUT_SW_FREQI)) (divTaken (s.rd (F.OUT_SW_OUTA_DIV g.val))) (minFsw (pf p.payload 1 7 1) (pf p.payload 1 5 2)) = true ∧
      125 ≤ pf p.payload 2 24 8 ∧ pf p.payload 2 24 8 ≤ s.rd F.OUT_SPK_FUSE_TFBMAX ∧ pf p.payload 2 20 4 ≤ 5 ∧
      pf p.payload 1 10 2 = s.rd (F.OUT_G_CFG_PAIR g.val) ∧ s.rd (F.OUT_G_CFG_PAIR g.val) = (s.grp g.val).pairs ∧
      pf p.payload 1 7 1 ≠ s.rd (F.OUT_G_CFG_BAND g.val) ∧ (∀ j < 4, s.jointPhase (4 * g.val + j) = phOff)) ∧
    (∃ (p : Packet) (s : State) (n : Fin 12),
      Accepted cardSpkChanCfg p s ∧ DomUp s (dmGroup (n.val / 4)) ∧ s.link.cfgpar = [] ∧ pf p.payload 0 0 4 = n.val ∧
      s.phase n.val = phOff ∧ pf p.payload 1 28 4 ≤ 9 ∧ s.pendFor? [Target.chan n.val] = none) ∧
    (∃ (p : Packet) (s : State) (n : Fin 12),
      Accepted cardSpkLimit p s ∧ DomUp s (dmGroup (n.val / 4)) ∧ s.link.cfgpar = [] ∧ pf p.payload 0 0 12 = 2 ^ n.val ∧
      1 ≤ pf p.payload 1 24 8 ∧ pf p.payload 1 24 8 ≤ s.rd F.OUT_SPK_FUSE_PCEIL ∧ s.rd F.OUT_SPK_FUSE_PCEIL ≤ 200 ∧
      1 ≤ pf p.payload 1 16 8 ∧ pf p.payload 1 16 8 ≤ 100 ∧ pf p.payload 2 0 4 ≤ s.ilimCeil n.val ∧ s.pendFor? [Target.chan n.val] = none) :=
  ⟨⟨pkt play 0x300 [1, play.reg (Reg.OUT_G_CFG 1), 0x82200000, 0], play, 1, accepted_pkt rfl (by decide +kernel),
      domUp_of (by decide +kernel), by decide +kernel⟩,
    ⟨pkt play 0x300 [1, play.reg (Reg.OUT_G_CFG 1) ^^^ 0x80, 0x82200000, 0], play.wr (F.OUT_SW_OUTA_DIV 1) 1, 1,
      accepted_pkt rfl (by decide +kernel), domUp_of (by decide +kernel), free_of (by decide +kernel), by decide +kernel⟩,
    ⟨pkt play 0x301 [11, 0x90800000, 0x500, 20], play, 11, accepted_pkt rfl (by decide +kernel), domUp_of (by decide +kernel),
      by decide +kernel⟩,
    ⟨pkt play 0x304 [0x800, 0xC8640000, 0], play, 11, accepted_pkt rfl (by decide +kernel), domUp_of (by decide +kernel),
      by decide +kernel⟩⟩

/-- Hypotheses of ChannelsStartStopRetryAndMute that concrete states and operands meet. -/
theorem witness_ChannelsStartStopRetryAndMute :
    (∃ (p : Packet) (s : State) (n : Fin 12),
      Quiet s ∧ Accepted cardSpkEnable p s ∧ DomUp s (dmGroup (n.val / 4)) ∧ NewKey p s ∧ s.link.cfgpar = [] ∧
      pf p.payload 0 0 12 = 2 ^ n.val ∧ s.phase n.val = phOff ∧ s.chipSafe = false ∧ s.on (F.OUT_G_STAT_TSHUT (n.val / 4)) = false ∧
      (s.on (F.OUT_G_STAT_PVDDOK (n.val / 4)) = true ∧ s.carrierOn (n.val / 4) = true) ∧ s.chanBusy? [771] [n.val] = none ∧
      s.freeSlot? ≠ none) ∧
    (∃ (p : Packet) (s : State) (n : Fin 12),
      Quiet s ∧ Accepted cardSpkDisable p s ∧ NewKey p s ∧ s.link.cfgpar = [] ∧ pf p.payload 0 0 12 = 2 ^ n.val ∧ s.phase n.val = phPlay ∧
      s.chanBusy? [770, 2560, 2561] [n.val] = none ∧ s.freeSlot? ≠ none) ∧
    (∃ (p : Packet) (s : State) (n : Fin 12),
      Quiet s ∧ Accepted cardSpkRetry p s ∧ NewKey p s ∧ s.link.cfgpar = [] ∧ pf p.payload 0 0 12 = 2 ^ n.val ∧
      held (s.phase n.val) = true ∧ (s.spk n.val).why = 769 ∧ s.chipSafe = false ∧ pb p.payload 0 31 = true ∧
      s.chanBusy? [] [n.val] = none ∧ s.freeSlot? ≠ none) ∧
    (∃ (p : Packet) (s : State) (n : Fin 12),
      Quiet s ∧ Accepted cardSpkRetry p s ∧ NewKey p s ∧ s.link.cfgpar = [] ∧ pf p.payload 0 0 12 = 2 ^ n.val ∧
      held (s.phase n.val) = true ∧ (s.spk n.val).why = 769 ∧ s.chipSafe = false ∧ pb p.payload 0 31 = false ∧
      s.chanBusy? [773] [n.val] = none) ∧
    (∃ (s : State) (n : Fin 12) (i : Iface),
      Quiet s ∧ s.link.cfgpar = [] ∧ (s.ifaceReady i = true ∧ s.domReady (dmGroup (n.val / 4)) = true ∧
      s.on { addr := Reg.HOST_PWSTAT, lo := rgOut, width := 1 } = false ∧ s.link.posted = [] ∧ s.lockOpen i = true) ∧ s.pstate = stPlay ∧
      s.chipSafe = false ∧ s.phase n.val = phOff ∧ (s.on (F.OUT_G_STAT_PVDDOK (n.val / 4)) = true ∧ s.carrierOn (n.val / 4) = true) ∧
      bit (s.reg (Reg.OUT_SPK_CTRL n.val)) 1 = false) ∧
    (∃ (s : State) (n : Fin 12) (i : Iface),
      Quiet s ∧ s.link.cfgpar = [] ∧ (s.ifaceReady i = true ∧ s.domReady (dmGroup (n.val / 4)) = true ∧
      s.on { addr := Reg.HOST_PWSTAT, lo := rgOut, width := 1 } = false ∧ s.link.posted = [] ∧ s.lockOpen i = true) ∧
      s.phase n.val = phPlay) ∧
    (∃ (s : State),
      Quiet s ∧ s.out.muteLow = false) ∧
    (∃ (s : State),
      Quiet s ∧ s.out.muteLow = true ∧ s.out.muteHeld = false ∧ s.unmutes = true) :=
  ⟨⟨pkt play 0x302 [0x800], play, 11, quiet_of (by decide +kernel), accepted_pkt rfl (by decide +kernel), domUp_of (by decide +kernel),
      newKey_of (by decide +kernel), by decide +kernel⟩,
    ⟨pkt play 0x303 [0x800], play.ph 11 phPlay, 11, quiet_of (by decide +kernel), accepted_pkt rfl (by decide +kernel),
      newKey_of (by decide +kernel), by decide +kernel⟩,
    ⟨pkt play 0x305 [0x80000800], play.ph 11 phFault fun x => { x with why := 0x301 }, 11, quiet_of (by decide +kernel),
      accepted_pkt rfl (by decide +kernel), newKey_of (by decide +kernel), by decide +kernel⟩,
    ⟨pkt play 0x305 [0x800], play.ph 11 phFault fun x => { x with why := 0x301 }, 11, quiet_of (by decide +kernel),
      accepted_pkt rfl (by decide +kernel), newKey_of (by decide +kernel), by decide +kernel⟩,
    ⟨play.lk, 11, .host, quiet_of (by decide +kernel), by decide +kernel⟩,
    ⟨play.lk.ph 11 phPlay, 11, .host, quiet_of (by decide +kernel), by decide +kernel⟩,
    ⟨play, quiet_of (by decide +kernel), by decide +kernel⟩,
    ⟨play.mu, quiet_of (by decide +kernel), by decide +kernel⟩⟩

/-- Hypotheses of ProtectionHoldsTheChannel that concrete states and operands meet. -/
theorem witness_ProtectionHoldsTheChannel :
    (∃ (s : State) (n : Fin 12) (legM : Bool),
      Still s ∧ s.legActs (n.val / 4) (nodeOf (n.val) (b2n legM)) = true) ∧
    (∃ (s : State) (n : Fin 12) (own : ChanTest) (slave : ChanTest),
      Still s ∧ s.phase (s.master n.val) = phFault ∧ (s.spk (s.master n.val)).why = 769 ∧ (s.spk (s.master n.val)).unclass = true ∧
      s.sclassOf (s.master n.val) own slave ≠ 4) ∧
    (∃ (s : State) (n : Fin 12) (own : ChanTest) (slave : ChanTest),
      Still s ∧ n.val = s.master n.val ∧ held (s.phase (s.master n.val)) = true ∧ (s.spk (s.master n.val)).why = 769 ∧
      (s.spk (s.master n.val)).unclass = false ∧ s.on (F.OUT_SPK_CTRL_RETRY (s.master n.val)) = true ∧ s.chipSafe = false ∧
      s.link.cfgpar = [] ∧ s.nodeClass (s.master n.val) own slave = 0 ∧ s.on (F.OUT_G_STAT_PVDDOK (s.master n.val / 4)) = true ∧
      s.carrierOn (s.master n.val / 4) = true ∧ s.rd (F.OUT_G_CFG_PAIR (s.master n.val / 4)) = (s.grp (s.master n.val / 4)).pairs) ∧
    (∃ (s : State) (n : Fin 12),
      Still s ∧ phUnmute ≤ s.phase (s.master n.val) ∧ s.phase (s.master n.val) ≤ phMute) ∧
    (∃ (s : State) (g : Fin 3),
      Still s ∧ s.on (F.OUT_G_STAT_PVDDOK g.val) = true ∧ s.rd (F.OUT_G_CFG_PAIR g.val) = (s.grp g.val).pairs) :=
  ⟨⟨play.ph 11 phPlay, 11, true, still_of (by decide +kernel), by decide +kernel⟩,
    ⟨play.ph 11 phFault fun x => { x with why := 0x301, unclass := true }, 11, ⟨⟨false, 80000⟩, ⟨false, 80000⟩, 600, 600, 600, 600,
      24000, 200⟩, ⟨⟨false, 80000⟩, ⟨false, 80000⟩, 600, 600, 600, 600, 24000, 200⟩, still_of (by decide +kernel), by decide +kernel⟩,
    ⟨(play.ph 11 phFault fun x => { x with why := 0x301 }).set1 (F.OUT_SPK_CTRL_RETRY 11), 11, ⟨⟨false, 80000⟩, ⟨false, 80000⟩, 600, 600,
      600, 600, 24000, 200⟩, ⟨⟨false, 80000⟩, ⟨false, 80000⟩, 600, 600, 600, 600, 24000, 200⟩, still_of (by decide +kernel),
      by decide +kernel⟩,
    ⟨play.ph 11 phPlay, 11, still_of (by decide +kernel), by decide +kernel⟩,
    ⟨play, 2, still_of (by decide +kernel), by decide +kernel⟩⟩

/-- Hypotheses of ThermalSampleFoldsBackAndShutsDown that concrete states and operands meet. -/
theorem witness_ThermalSampleFoldsBackAndShutsDown :
    (∃ (s : State) (g : Fin 3),
      Still s ∧ s.on (F.OUT_G_STAT_TSHUT g.val) = false ∧ (∀ n < 12, s.phase n ≠ phSlave → s.master n = n)) :=
  ⟨play, 2, still_of (by decide +kernel), by decide +kernel⟩

/-- Hypotheses of LegsAreDroppedRegrownAndMoved that concrete states and operands meet. -/
theorem witness_LegsAreDroppedRegrownAndMoved :
    (∃ (s : State) (n : Fin 12) (legM : Bool) (sl : Fin 4),
      Still s ∧ s.legActs (n.val / 4) (nodeOf (n.val) (b2n legM)) = true ∧ s.onSpare (n.val / 4) (nodeOf (n.val) (b2n legM)) = false ∧
      inMask (vat (s.grp (n.val / 4)).slices (nodeOf (n.val) (b2n legM))) sl.val = true ∧
      3 ≤ sliceCount (vat (s.grp (n.val / 4)).slices (nodeOf (n.val) (b2n legM))) ∧ s.on (F.OUT_G_CFG_SLICEPOL (n.val / 4)) = false) ∧
    (∃ (s : State) (n : Fin 12) (legM : Bool),
      Still s ∧ s.legActs (n.val / 4) (nodeOf (n.val) (b2n legM)) = true ∧ s.chipSafe = false ∧ s.handling rgOut = false ∧
      s.xstate (n.val / 4) = xsReady ∧ s.onSpare (n.val / 4) (nodeOf (n.val) (b2n legM)) = false) ∧
    (∃ (s : State) (q : LegSeq),
      Still s ∧ q.released = false ∧ (∀ w ∈ s.saf.work, w.region = rgOut → w.wait = false)) ∧
    (∃ (s : State) (g : Fin 3) (q : LegSeq),
      Still s ∧ q.released = true ∧ q.nodes = [q.node] ∧ q.node < 8 ∧ s.phase (s.master (chanOf (g.val) q.node)) = phPlay ∧
      s.muted = false ∧ s.chipSafe = false ∧ (s.spk (s.master (chanOf (g.val) q.node))).stopWait = none) ∧
    (∃ (s : State) (g : Fin 3) (node : Fin 8),
      Still s ∧ inMask (s.grp g.val).failed node.val = true ∧ vat (s.grp g.val).fails node.val < 3) ∧
    (∃ (s : State) (g : Fin 3) (i : Iface),
      Still s ∧ s.ifaceReady i = true ∧ s.domReady (dmGroup g.val) = true ∧
      s.on { addr := Reg.HOST_PWSTAT, lo := rgOut, width := 1 } = false ∧ s.link.posted = [] ∧ s.link.cfgpar = [] ∧ s.lockOpen i = true) ∧
    (∃ (s : State) (g : Fin 3),
      Still s ∧ s.on (F.OUT_G_XPT_UPDATE g.val) = true ∧ s.on (F.OUT_G_XPT_EN g.val) = true ∧ s.on (F.OUT_G_XPT_AEN g.val) = false ∧
      s.xstate g.val = xsReady ∧ s.phase (s.master (chanOf (g.val) (s.rd (F.OUT_G_XPT_NODE g.val)))) = phOff) :=
  ⟨⟨play.ph 11 phPlay, 11, true, 3, still_of (by decide +kernel), by decide +kernel⟩,
    ⟨(play.ph 11 phPlay).wr (F.OUT_G_STAT_XSTATE 2) xsReady, 11, true, still_of (by decide +kernel), by decide +kernel⟩,
    ⟨play.ph 11 phPlay, ⟨7, [7], 2, false⟩, still_of (by decide +kernel), by decide +kernel⟩,
    ⟨play.ph 11 phPlay, 2, ⟨7, [7], 2, true⟩, still_of (by decide +kernel), by decide +kernel⟩,
    ⟨play.modGrp 2 fun x => { x with failed := 0x80 }, 2, 7, still_of (by decide +kernel), by decide +kernel⟩,
    ⟨play.lk, 2, .host, still_of (by decide +kernel), by decide +kernel⟩,
    ⟨play.wrs [(F.OUT_G_XPT_EN 2, 1), (F.OUT_G_XPT_UPDATE 2, 1), (F.OUT_G_XPT_NODE 2, 7), (F.OUT_G_STAT_XSTATE 2, xsReady)], 2,
      still_of (by decide +kernel), by decide +kernel⟩⟩

/-- Hypotheses of CroakerSlotsAreConfiguredAndPlayed that concrete states and operands meet. -/
theorem witness_CroakerSlotsAreConfiguredAndPlayed :
    (∃ (p : Packet) (s : State) (k : Fin 8),
      Accepted cardCroakerCfg p s ∧ (∀ j < 8, j ≠ k.val → (s.slot j).kind = 0 ∧ (s.slot j).active = false ∧ (s.slot j).want = false) ∧
      (∀ r ∈ s.saf.recs, r.code ≠ 778) ∧ pf p.payload 0 8 3 = k.val ∧ s.on F.OUT_CRK_STAT_LOCKED = false ∧ (s.slot k.val).active = false ∧
      pf p.payload 3 8 4 = 0 ∧ s.pendFor? [Target.croaker k.val] = none ∧ pf p.payload 0 0 2 = 1 ∧ 100 ≤ pf p.payload 1 16 16 ∧
      pf p.payload 1 16 16 ≤ 8000 ∧ pf p.payload 1 0 2 ≠ 3) ∧
    (∃ (p : Packet) (s : State) (k : Fin 8),
      Accepted cardCroakerCfg p s ∧ (∀ j < 8, j ≠ k.val → (s.slot j).kind = 0 ∧ (s.slot j).active = false ∧ (s.slot j).want = false) ∧
      (∀ r ∈ s.saf.recs, r.code ≠ 778) ∧ pf p.payload 0 8 3 = k.val ∧ s.on F.OUT_CRK_STAT_LOCKED = false ∧ (s.slot k.val).active = false ∧
      pf p.payload 3 8 4 = 0 ∧ s.pendFor? [Target.croaker k.val] = none ∧ pf p.payload 0 0 2 = 2 ∧ 1 ≤ pf p.payload 2 0 16 ∧
      pf p.payload 2 0 16 ≤ 256 ∧ s.spanOn (pf p.payload 1 0 21) (256 * pf p.payload 2 0 16) = true ∧
      (s.admitted cardCroakerCfg p).poisonIn (pf p.payload 1 0 21) (256 * pf p.payload 2 0 16) = []) ∧
    (∃ (p : Packet) (s : State) (k : Fin 8),
      Accepted cardCroakerPlay p s ∧ (∀ j < 8, j ≠ k.val → (s.slot j).kind = 0 ∧ (s.slot j).active = false ∧ (s.slot j).want = false) ∧
      (∀ r ∈ s.saf.recs, r.code ≠ 778) ∧ pf p.payload 0 8 3 = k.val ∧ (s.slot k.val).kind ≠ 0 ∧ pb p.payload 0 16 = true) ∧
    (∃ (p : Packet) (s : State) (k : Fin 8),
      Accepted cardCroakerPlay p s ∧ (∀ j < 8, j ≠ k.val → (s.slot j).kind = 0 ∧ (s.slot j).active = false ∧ (s.slot j).want = false) ∧
      (∀ r ∈ s.saf.recs, r.code ≠ 778) ∧ pf p.payload 0 8 3 = k.val ∧ (s.slot k.val).kind ≠ 0 ∧ pb p.payload 0 16 = false ∧ (∀ n < 12,
      inMask (s.slotBase k.val) n = true → held (s.phase n) = false ∧ ¬(s.phase n = phOff ∧ (s.spk n).start = false))) ∧
    (∃ (s : State) (pin : Fin 4) (k : Fin 8),
      (∀ j < 8, j ≠ k.val → (s.slot j).kind = 0 ∧ (s.slot j).active = false ∧ (s.slot j).want = false) ∧ (∀ r ∈ s.saf.recs,
      r.code ≠ 778) ∧ (s.slot k.val).kind ≠ 0 ∧ (s.slot k.val).want = false ∧ inMask (s.slot k.val).map pin.val = true ∧ s.croaks = true ∧
      (s.slot k.val).auto = false ∧ (s.on F.SAFE_SM_CFG_ALTPAIR = false ∨ 2 ≤ pin.val) ∧ (∀ n < 12,
      inMask (s.slotBase k.val) n = true → held (s.phase n) = false ∧ ¬(s.phase n = phOff ∧ (s.spk n).start = false))) ∧
    (∃ (s : State) (k : Fin 8),
      (∀ j < 8, j ≠ k.val → (s.slot j).kind = 0 ∧ (s.slot j).active = false ∧ (s.slot j).want = false) ∧ (∀ r ∈ s.saf.recs,
      r.code ≠ 778) ∧ ((s.slot k.val).want = true ∨ (s.slot k.val).kind = 0)) ∧
    (∃ (s : State) (k : Fin 8),
      (∀ j < 8, j ≠ k.val → (s.slot j).kind = 0 ∧ (s.slot j).active = false ∧ (s.slot j).want = false) ∧ (∀ r ∈ s.saf.recs,
      r.code ≠ 778) ∧ (s.slot k.val).active = true ∧ ((s.slot k.val).again = true ∨ (s.slot k.val).forever = true ∨
      2 ≤ (s.slot k.val).left)) ∧
    (∃ (s : State) (k : Fin 8),
      (∀ j < 8, j ≠ k.val → (s.slot j).kind = 0 ∧ (s.slot j).active = false ∧ (s.slot j).want = false) ∧ (∀ r ∈ s.saf.recs,
      r.code ≠ 778) ∧ (s.slot k.val).active = true ∧ (s.slot k.val).again = false ∧ (s.slot k.val).forever = false ∧
      (s.slot k.val).left < 2 ∧ s.slotWanted k.val = false) :=
  ⟨⟨pkt play 0x330 [0x701, 8000 * 0x10000 + 2, 0x00640032, 0] true, play, 7, accepted_auth [1, 2] rfl rfl rfl (by decide +kernel),
      by decide +kernel⟩,
    ⟨pkt play 0x330 [0x702, 0, 256, 0] true, play, 7, accepted_auth [1, 2] rfl rfl rfl (by decide +kernel), by decide +kernel⟩,
    ⟨pkt play 0x331 [0x10700], play.modSlot 7 fun c => { c with kind := 1, mask := 1, map := 8 }, 7,
      accepted_pkt rfl (by decide +kernel), by decide +kernel⟩,
    ⟨pkt play 0x331 [0x700], (play.modSlot 7 fun c => { c with kind := 1, mask := 1, map := 8 }).ph 0 phPlay, 7,
      accepted_pkt rfl (by decide +kernel), by decide +kernel⟩,
    ⟨(play.modSlot 7 fun c => { c with kind := 1, mask := 1, map := 8 }).ph 0 phPlay, 3, 7, by decide +kernel⟩,
    ⟨play.modSlot 7 fun c => { c with kind := 1, mask := 1, map := 8, want := true }, 7, by decide +kernel⟩,
    ⟨play.modSlot 7 fun c => { c with kind := 1, mask := 1, map := 8, active := true, left := 2 }, 7, by decide +kernel⟩,
    ⟨play.modSlot 7 fun c => { c with kind := 1, mask := 1, map := 8, active := true, left := 1 }, 7, by decide +kernel⟩⟩

/-- Hypotheses of HeadphoneAndLineOutputsFollowTheirPhases that concrete states and operands meet. -/
theorem witness_HeadphoneAndLineOutputsFollowTheirPhases :
    (∃ (s : State) (line : Bool),
      s.hoPhase (b2n line) = hoPump ∧ s.hoPhase (1 - b2n line) ≠ hoPump) ∧
    (∃ (s : State) (line : Bool),
      s.hoPhase (b2n line) = hoRelease) ∧
    (∃ (s : State) (line : Bool),
      s.hoPhase (b2n line) = hoUnmute) ∧
    (∃ (s : State) (line : Bool),
      s.hoPhase (b2n line) = hoMute) ∧
    (∃ (s : State) (line : Bool) (t : State),
      s.hoPhase (b2n line) = hoShort ∧ (s.hpx (b2n line)).on = false ∧ s.hoPhase (1 - b2n line) = hoOff ∧
      exec (Instr.hpShortDone line) s = .next t) ∧
    (∃ (p : Packet) (s : State),
      Accepted cardHplineCfg p s ∧ DomUp s dmHpLine ∧ NewKey p s ∧ Free s [Target.hpline] ∧ s.link.cfgpar = [] ∧ s.chipSafe = false ∧
      (∀ e ∈ s.pap.slots, e.opcode ≠ 784) ∧ (s.hpx 0).on = bit (s.hplWord p.payload) 31 ∧ (s.hpx 1).on = bit (s.hplWord p.payload) 30) ∧
    (∃ (p : Packet) (s : State),
      Accepted cardHplineCfg p s ∧ DomUp s dmHpLine ∧ NewKey p s ∧ Free s [Target.hpline] ∧ s.link.cfgpar = [] ∧ s.chipSafe = false ∧
      (∀ e ∈ s.pap.slots, e.opcode ≠ 784) ∧ bit (s.hplWord p.payload) 31 = true ∧ bit (s.hplWord p.payload) 30 = false ∧
      (s.hpx 0).on = false ∧ (s.hpx 1).on = false ∧ s.hoPhase 0 = hoOff ∧ s.rd F.OUT_HPL_STAT_PUMP = 0) :=
  ⟨⟨play.wr (hoField 0) hoPump, false, by decide +kernel⟩,
    ⟨play.wr (hoField 1) hoRelease, true, by decide +kernel⟩,
    ⟨play.wr (hoField 0) hoUnmute, false, by decide +kernel⟩,
    ⟨play.wr (hoField 1) hoMute, true, by decide +kernel⟩,
    ⟨play.wr (hoField 0) hoShort, false, by
      obtain ⟨t, h⟩ := next_of_nexts (o := exec (.hpShortDone false) (play.wr (hoField 0) hoShort)) (by decide +kernel)
      exact ⟨t, by decide +kernel, by decide +kernel, by decide +kernel, h⟩⟩,
    ⟨pkt play 0x310 [0x3004D, 0, 3], play, accepted_pkt rfl (by decide +kernel), domUp_of (by decide +kernel),
      newKey_of (by decide +kernel), free_of (by decide +kernel), by decide +kernel⟩,
    ⟨pkt play 0x310 [0x80030000, 0, 3], play, accepted_pkt rfl (by decide +kernel), domUp_of (by decide +kernel),
      newKey_of (by decide +kernel), free_of (by decide +kernel), by decide +kernel⟩⟩

/-- Hypotheses of CvChannelsFollowCodeAndClear that concrete states and operands meet. -/
theorem witness_CvChannelsFollowCodeAndClear :
    (∃ (p : Packet) (s : State) (n : Fin 4),
      Accepted cardCvCfg p s ∧ DomUp s dmCv ∧ s.link.cfgpar = [] ∧ s.rd F.SAFE_SM_STAT_CSS ≠ 2 ∧ pf p.payload 0 0 4 = 2 ^ n.val ∧
      (pb p.payload 3 1 = true → s.cvMode n.val ≠ 0 → pf p.payload 1 29 1 = s.rd (F.OUT_CV_CFG_GAIN n.val)) ∧
      s.pendFor? [Target.cv n.val] = none) ∧
    (∃ (p : Packet) (s : State) (n : Fin 4),
      Accepted cardCvTrack p s ∧ DomUp s dmCv ∧ s.link.cfgpar = [] ∧ s.rd F.SAFE_SM_STAT_CSS ≠ 2 ∧ pf p.payload 0 0 2 = n.val ∧
      pf p.payload 2 0 9 ≤ pf p.payload 2 16 9 ∧ 45 ≤ pf p.payload 2 0 9 ∧ pf p.payload 2 16 9 ≤ 300 ∧ s.pendFor? [Target.cv n.val] = none) ∧
    (∃ (s : State) (n : Fin 4) (c : Nat),
      s.link.cfgpar = [] ∧ s.rd F.SAFE_SM_STAT_CSS ≠ 2 ∧ (s.cvx n.val).wait = some c) :=
  ⟨⟨pkt play 0x320 [8, 0x4000FFFF, 0xFFF, 7], play, 3, accepted_pkt rfl (by decide +kernel), domUp_of (by decide +kernel),
      by decide +kernel⟩,
    ⟨pkt play 0x321 [0x90003, 0x12345678, 300 * 0x10000 + 45], play, 3, accepted_pkt rfl (by decide +kernel),
      domUp_of (by decide +kernel), by decide +kernel⟩,
    ⟨play.modCv 3 fun x => { x with wait := some 0x9999 }, 3, 0x9999, by decide +kernel⟩⟩

/-- Hypotheses of PllsLockCoastAndSyncSlaveAligns that concrete states and operands meet. -/
theorem witness_PllsLockCoastAndSyncSlaveAligns :
    (∃ (s : State) (p : Fin 3) (hit : Nat) (miss : Nat),
      Quiet s ∧ s.pllAgrees (p.val) hit = true ∧ s.pllAgrees (p.val) miss = false ∧ s.pllRuns p.val = true ∧
      s.on F.CTL_CLK_STAT_REFOK = true ∧ s.on (lockField p.val) = false ∧ s.clk.stepping = false ∧ s.clk.gateLeft = 0 ∧
      s.clk.settling = false) ∧
    (∃ (s : State) (p : Fin 3) (hit : Nat) (miss : Nat),
      Quiet s ∧ s.pllAgrees (p.val) hit = true ∧ s.pllAgrees (p.val) miss = false ∧ s.pllRuns p.val = true ∧
      s.on F.CTL_CLK_STAT_REFOK = true ∧ s.on (lockField p.val) = true ∧ s.clk.stepping = false ∧ s.clk.gateLeft = 0 ∧
      s.clk.settling = false ∧ vat s.clk.bad p.val = 0) ∧
    (∃ (s : State) (p : Fin 3) (hit : Nat) (miss : Nat),
      Quiet s ∧ s.pllAgrees (p.val) hit = true ∧ s.pllAgrees (p.val) miss = false ∧ s.pllRuns p.val = true ∧
      s.on F.CTL_CLK_STAT_REFOK = true ∧ s.on (lockField p.val) = true ∧ s.clk.stepping = false ∧ s.clk.gateLeft = 0 ∧
      s.clk.settling = false ∧ vat s.clk.bad p.val ≠ 0) ∧
    (∃ (s : State) (p : Fin 3),
      Quiet s ∧ Still s ∧ s.on (coastField p.val) = true ∧ s.chipSafe = false ∧ s.on F.SAFE_SM_STAT_FALLBACK = false) ∧
    (∃ (s : State),
      Quiet s ∧ s.on F.CTL_CLK_STAT_REFOK = false) ∧
    (∃ (s : State),
      Quiet s ∧ s.on F.CTL_CLK_STAT_AONSRC = true) ∧
    (∃ (s : State),
      s.rd F.OUT_SW_STAT_SYNCMODE = 2 ∧ s.on F.OUT_SW_STAT_SWON = true ∧ (∀ r ∈ s.saf.recs, r.code ≠ 778) ∧ s.clk.syncArmed = true) ∧
    (∃ (s : State) (err : Nat),
      s.rd F.OUT_SW_STAT_SYNCMODE = 2 ∧ s.on F.OUT_SW_STAT_SWON = true ∧ (∀ r ∈ s.saf.recs, r.code ≠ 778) ∧ s.clk.syncArmed = false ∧
      s.on F.OUT_SW_STAT_ALIGNED = true ∧ err ≤ 16) ∧
    (∃ (s : State) (err : Nat),
      s.rd F.OUT_SW_STAT_SYNCMODE = 2 ∧ s.on F.OUT_SW_STAT_SWON = true ∧ (∀ r ∈ s.saf.recs, r.code ≠ 778) ∧ s.clk.syncArmed = false ∧
      s.on F.OUT_SW_STAT_ALIGNED = true ∧ 16 < err ∧ 3 ≤ s.clk.syncBad) ∧
    (∃ (s : State) (err : Nat),
      s.rd F.OUT_SW_STAT_SYNCMODE = 2 ∧ s.on F.OUT_SW_STAT_SWON = true ∧ (∀ r ∈ s.saf.recs, r.code ≠ 778) ∧ s.clk.syncArmed = false ∧
      s.on F.OUT_SW_STAT_ALIGNED = true ∧ 16 < err ∧ s.clk.syncBad < 3) ∧
    (∃ (s : State),
      s.rd F.OUT_SW_STAT_SYNCMODE = 2 ∧ s.on F.OUT_SW_STAT_SWON = true ∧ (∀ r ∈ s.saf.recs, r.code ≠ 778) ∧ s.clk.syncWait = true) ∧
    (∃ (s : State),
      s.rd F.OUT_SW_STAT_SYNCMODE = 2 ∧ s.on F.OUT_SW_STAT_SWON = true ∧ (∀ r ∈ s.saf.recs, r.code ≠ 778) ∧
      s.on F.OUT_SW_CTRL_UPDATE = true ∧ s.clk.ramp = none ∧ s.regrowWaits = false ∧ s.swDiff.div = 0 ∧ s.swDiff.en = 0) :=
  ⟨⟨play.wr (lockField 2) 0, 2, 78600, 0, quiet_of (by decide +kernel), by decide +kernel⟩,
    ⟨play, 2, 78600, 0, quiet_of (by decide +kernel), by decide +kernel⟩,
    ⟨play.mClk fun c => { c with bad := vmod c.bad 2 fun _ => 1 }, 2, 78600, 0, quiet_of (by decide +kernel), by decide +kernel⟩,
    ⟨play.set1 (coastField 2), 2, quiet_of (by decide +kernel), still_of (by decide +kernel), by decide +kernel⟩,
    ⟨play.wr F.CTL_CLK_STAT_REFOK 0, quiet_of (by decide +kernel), by decide +kernel⟩,
    ⟨play.set1 F.CTL_CLK_STAT_AONSRC, quiet_of (by decide +kernel), by decide +kernel⟩,
    ⟨(play.wrs [(F.OUT_SW_STAT_SYNCMODE, 2), (F.OUT_SW_STAT_ALIGNED, 1)]).mClk fun c => { c with syncArmed := true }, by decide +kernel⟩,
    ⟨(play.wrs [(F.OUT_SW_STAT_SYNCMODE, 2), (F.OUT_SW_STAT_ALIGNED, 1)]), 16, by decide +kernel⟩,
    ⟨(play.wrs [(F.OUT_SW_STAT_SYNCMODE, 2), (F.OUT_SW_STAT_ALIGNED, 1)]).mClk fun c => { c with syncBad := 3 }, 17, by decide +kernel⟩,
    ⟨(play.wrs [(F.OUT_SW_STAT_SYNCMODE, 2), (F.OUT_SW_STAT_ALIGNED, 1)]).mClk fun c => { c with syncBad := 2 }, 17, by decide +kernel⟩,
    ⟨(play.wrs [(F.OUT_SW_STAT_SYNCMODE, 2), (F.OUT_SW_STAT_ALIGNED, 1)]).mClk fun c => { c with syncWait := true }, by decide +kernel⟩,
    ⟨(play.wrs [(F.OUT_SW_STAT_SYNCMODE, 2), (F.OUT_SW_STAT_ALIGNED, 1)]).upd, by decide +kernel⟩⟩

/-- Hypotheses of ClockCommandsConfigure that concrete states and operands meet. -/
theorem witness_ClockCommandsConfigure :
    (∃ (p : Packet) (s : State),
      Accepted cardPllCfg p s ∧ NewKey p s ∧ Free s [Target.pll, Target.swpll] ∧ s.link.cfgpar = [] ∧ (∀ r ∈ s.saf.recs, r.code ≠ 778) ∧
      s.vcoOk (if pw p.payload 1 = 0 then s.swTarget else BitVec.toNat (pw p.payload 1)) = true ∧ (∀ e ∈ s.pap.slots, e.opcode ≠ 1280) ∧
      pf p.payload 0 0 1 = s.rd F.CTL_CLK_STAT_AUDFAM ∧ pw p.payload 1 = 0 ∧ pw p.payload 2 = 0 ∧
      pb p.payload 3 0 = s.on F.OUT_SW_STAT_SWON) ∧
    (∃ (p : Packet) (s : State),
      Accepted cardPllCfg p s ∧ NewKey p s ∧ Free s [Target.pll, Target.swpll] ∧ s.link.cfgpar = [] ∧ (∀ r ∈ s.saf.recs, r.code ≠ 778) ∧
      s.vcoOk (if pw p.payload 1 = 0 then s.swTarget else BitVec.toNat (pw p.payload 1)) = true ∧ (∀ e ∈ s.pap.slots, e.opcode ≠ 1280) ∧
      ¬pf p.payload 0 0 1 = s.rd F.CTL_CLK_STAT_AUDFAM ∧ pw p.payload 1 = 0 ∧ pw p.payload 2 = 0 ∧
      pb p.payload 3 0 = s.on F.OUT_SW_STAT_SWON ∧ s.graph.image = none ∧ s.graph.loading = none ∧ s.strs = [] ∧ (∀ n < 4,
      s.portEn n = false) ∧ s.on F.IN_WKD_CFG_EN = false ∧ s.outputsOff = true) ∧
    (∃ (p : Packet) (s : State),
      Accepted cardPllCfg p s ∧ NewKey p s ∧ Free s [Target.pll, Target.swpll] ∧ s.link.cfgpar = [] ∧ (∀ r ∈ s.saf.recs, r.code ≠ 778) ∧
      s.vcoOk (if pw p.payload 1 = 0 then s.swTarget else BitVec.toNat (pw p.payload 1)) = true ∧ (∀ e ∈ s.pap.slots, e.opcode ≠ 1280) ∧
      pf p.payload 0 0 1 = s.rd F.CTL_CLK_STAT_AUDFAM ∧ pb p.payload 3 0 = true ∧ s.on F.OUT_SW_STAT_SWON = false ∧
      s.on F.SAFE_SM_STAT_FALLBACK = false ∧ (∀ g < 3, s.groupActive g = false)) ∧
    (∃ (p : Packet) (s : State),
      Accepted cardSyncCfg p s ∧ s.link.cfgpar = [] ∧ (∀ r ∈ s.saf.recs, r.code ≠ 778) ∧ pf p.payload 0 0 2 ≠ 3 ∧ (∀ g < 3,
      s.groupActive g = false)) ∧
    (∃ (p : Packet) (s : State),
      Accepted cardRampLoad p s ∧ s.link.cfgpar = [] ∧ (∀ r ∈ s.saf.recs, r.code ≠ 778) ∧ 2 ≤ pf p.payload 0 0 2 ∧
      2 ≤ pf p.payload 1 0 6 ∧ pf p.payload 1 0 6 ≤ 32 ∧ pf p.payload 1 0 6 % 2 = 0 ∧ p.payload.length = 2 + pf p.payload 1 0 6 / 2 ∧
      rampBad 0 0 (List.map (fun i => pf p.payload (2 + i / 2) (16 * (i % 2)) 16) (List.range (pf p.payload 1 0 6))) = none) ∧
    (∃ (p : Packet) (s : State),
      Accepted cardChameleonCfg p s ∧ s.link.cfgpar = [] ∧ (∀ r ∈ s.saf.recs, r.code ≠ 778) ∧ 9 ≤ pf p.payload 0 8 8 ∧
      pf p.payload 0 8 8 ≤ 50 ∧ 1 ≤ pf p.payload 1 0 16 ∧ pf p.payload 1 0 16 ≤ 1000 ∧ (pf p.payload 0 0 1 = 0 ∨
      s.rd F.OUT_SW_PLACE_FT = 0)) :=
  ⟨⟨pkt play 0x500 [w32 (play.rd F.CTL_CLK_STAT_AUDFAM), 0, 0, 1], play.at4 3, accepted_pkt rfl (by decide +kernel),
      newKey_of (by decide +kernel), free_of (by decide +kernel), by decide +kernel⟩,
    ⟨pkt play 0x500 [w32 (1 - play.rd F.CTL_CLK_STAT_AUDFAM), 0, 0, 1], play.at4 3, accepted_pkt rfl (by decide +kernel),
      newKey_of (by decide +kernel), free_of (by decide +kernel), by decide +kernel⟩,
    ⟨pkt play 0x500 [w32 (play.rd F.CTL_CLK_STAT_AUDFAM), 0, 0, 1], (play.wrs [(F.OUT_SW_STAT_SWON, 0), (F.OUT_SW_STAT_LOCK, 0)]).at4 3,
      accepted_pkt rfl (by decide +kernel), newKey_of (by decide +kernel), free_of (by decide +kernel), by decide +kernel⟩,
    ⟨pkt play 0x520 [2], play.at4 3, accepted_pkt rfl (by decide +kernel), by decide +kernel⟩,
    ⟨pkt play 0x502 [3, 2, 0x80000000], play, accepted_pkt rfl (by decide +kernel), by decide +kernel⟩,
    ⟨pkt play 0x511 [0x3201, 1000], play, accepted_pkt rfl (by decide +kernel), by decide +kernel⟩⟩

/-- Hypotheses of SwpllMovesThroughTheShadowSet that concrete states and operands meet. -/
theorem witness_SwpllMovesThroughTheShadowSet :
    (∃ (p : Packet) (s : State),
      Accepted cardSwpllSet p s ∧ s.link.cfgpar = [] ∧ (∀ r ∈ s.saf.recs, r.code ≠ 778) ∧ s.on F.SAFE_SM_STAT_FALLBACK = false ∧
      s.pendOp? 1280 = none ∧ pb p.payload 2 2 = true ∧ s.on F.OUT_SW_PLACE_ENABLE = false) ∧
    (∃ (p : Packet) (s : State),
      Accepted cardSwpllSet p s ∧ s.link.cfgpar = [] ∧ (∀ r ∈ s.saf.recs, r.code ≠ 778) ∧ s.on F.SAFE_SM_STAT_FALLBACK = false ∧
      s.pendOp? 1280 = none ∧ pb p.payload 2 2 = false ∧
      s.vcoOk (if pw p.payload 0 = 0 then s.swTarget else BitVec.toNat (pw p.payload 0)) = true ∧ (∀ g < 3, s.swEn g = true → s.inRange g
      (if pw p.payload 0 = 0 then s.swTarget else BitVec.toNat (pw p.payload 0)) (s.packedDiv (BitVec.toNat (pw p.payload 1)) g) = true) ∧
      pf p.payload 2 16 16 ≤ 1000 ∧ (pf p.payload 2 16 16 ≠ 0 → ∀ g < 3, s.packedDiv (BitVec.toNat (pw p.payload 1)) g = s.swDiv g) ∧
      s.clk.ramp = none ∧ s.freeSlot? ≠ none) ∧
    (∃ (p : Packet) (s : State),
      Accepted cardTunedFreq p s ∧ s.link.cfgpar = [] ∧ (∀ r ∈ s.saf.recs, r.code ≠ 778) ∧ s.pendOp? 1280 = none ∧
      pb p.payload 0 31 = false ∧ inBand (pf p.payload 0 0 16) = true ∧ (((s.modClk fun c =>
      { c with holds := 0, offered := pf p.payload 1 0 3 }).wr F.OUT_SW_PLACE_FT (pf p.payload 0 0 16)).showSw.placementRuns = true) ∧
      (((s.modClk fun c => { c with holds := 0, offered := pf p.payload 1 0 3 }).wr F.OUT_SW_PLACE_FT (pf p.payload 0 0
      16)).showSw.plan.result ≠ 1 ∧ ((s.modClk fun c => { c with holds := 0, offered := pf p.payload 1 0 3 }).wr F.OUT_SW_PLACE_FT (pf
      p.payload 0 0 16)).showSw.plan.result ≠ 2)) ∧
    (∃ (p : Packet) (s : State),
      Accepted cardTunedFreq p s ∧ s.link.cfgpar = [] ∧ (∀ r ∈ s.saf.recs, r.code ≠ 778) ∧ s.pendOp? 1280 = none ∧
      pb p.payload 0 31 = false ∧ inBand (pf p.payload 0 0 16) = true ∧ (((s.modClk fun c =>
      { c with holds := 0, offered := pf p.payload 1 0 3 }).wr F.OUT_SW_PLACE_FT (pf p.payload 0 0 16)).showSw.placementRuns = true) ∧
      (((s.modClk fun c => { c with holds := 0, offered := pf p.payload 1 0 3 }).wr F.OUT_SW_PLACE_FT (pf p.payload 0 0
      16)).showSw.plan.result = 1 ∨ ((s.modClk fun c => { c with holds := 0, offered := pf p.payload 1 0 3 }).wr F.OUT_SW_PLACE_FT (pf
      p.payload 0 0 16)).showSw.plan.result = 2) ∧ s.freeSlot? ≠ none ∧ s.clk.ramp = none) ∧
    (∃ (p : Packet) (s : State),
      Accepted cardTunedFreq p s ∧ s.link.cfgpar = [] ∧ (∀ r ∈ s.saf.recs, r.code ≠ 778) ∧ s.pendOp? 1280 = none ∧
      (pb p.payload 0 31 = true ∨ inBand (pf p.payload 0 0 16) = true ∧ s.on F.OUT_SW_PLACE_ENABLE = false)) ∧
    (∃ (s : State) (i : Iface),
      s.link.cfgpar = [] ∧ (∀ r ∈ s.saf.recs, r.code ≠ 778) ∧ s.ifaceReady i = true ∧ s.reaches Reg.OUT_SW_CTRL = true ∧
      s.on { addr := Reg.HOST_PWSTAT, lo := rgOut, width := 1 } = false ∧ s.link.posted = [] ∧ s.lockOpen i = true ∧
      s.on F.SAFE_SM_STAT_FALLBACK = false) ∧
    (∃ (s : State),
      s.link.cfgpar = [] ∧ (∀ r ∈ s.saf.recs, r.code ≠ 778) ∧ s.on F.OUT_SW_CTRL_UPDATE = true ∧ s.on F.OUT_SW_STAT_SWON = true ∧
      s.clk.ramp = none ∧ s.regrowWaits = false ∧ s.rd F.OUT_SW_STAT_SYNCMODE ≠ 2 ∧ s.swDiscards = true) ∧
    (∃ (s : State),
      s.link.cfgpar = [] ∧ (∀ r ∈ s.saf.recs, r.code ≠ 778) ∧ s.on F.OUT_SW_CTRL_UPDATE = true ∧ s.on F.OUT_SW_STAT_SWON = true ∧
      s.clk.ramp = none ∧ s.regrowWaits = false ∧ s.rd F.OUT_SW_STAT_SYNCMODE ≠ 2 ∧ s.swDiscards = false ∧ s.swDiff.div = 0 ∧
      s.swDiff.en = 0) ∧
    (∃ (s : State) (r : RampX),
      s.link.cfgpar = [] ∧ (∀ r ∈ s.saf.recs, r.code ≠ 778) ∧ s.clk.ramp = some r ∧ s.on F.OUT_SW_STAT_COAST = false ∧
      max r.f1 s.swNow - min r.f1 s.swNow ≤ slopeMax s.swNow 1) :=
  ⟨⟨pkt play 0x501 [0, 0, 4], play, accepted_pkt rfl (by decide +kernel), by decide +kernel⟩,
    ⟨pkt play 0x501 [0, 0, 1000 * 0x10000], play, accepted_pkt rfl (by decide +kernel), by decide +kernel⟩,
    ⟨pkt play 0x510 [297, 7], play.set1 F.OUT_SW_PLACE_ENABLE, accepted_pkt rfl (by decide +kernel), by decide +kernel⟩,
    ⟨pkt play 0x510 [2052, 7], (((play.mClk fun x => { x with offered := 7 }).wrs [(F.OUT_SW_OUTA_EN 0, 1), (F.OUT_SW_OUTA_EN 1, 1),
      (F.OUT_SW_OUTA_EN 2, 1),
      (F.OUT_SW_OUTA_DIV 0, 330), (F.OUT_SW_OUTA_DIV 1, 345), (F.OUT_SW_OUTA_DIV 2, 50),
      (F.OUT_G_CFG_BAND 0, 0), (F.OUT_G_CFG_BAND 1, 0),
      (F.OUT_G_CFG_BAND 2, 1), (F.OUT_G_CFG_LOOPBW 0, 1), (F.OUT_G_CFG_LOOPBW 1,
      1), (F.OUT_G_CFG_LOOPBW 2, 1), (F.OUT_SW_PLACE_FT, 2052),
      (F.OUT_SW_PLACE_GUARD, 20), (F.OUT_SPK_STAT_PHASE 0, phPlay),
      (F.OUT_SPK_STAT_PHASE 4, phPlay), (F.OUT_SPK_STAT_PHASE 8,
      phPlay)] |>.setReg Reg.OUT_SW_FREQI 0x250F8000).set1 F.OUT_SW_PLACE_ENABLE), accepted_pkt rfl (by decide +kernel), by decide +kernel⟩,
    ⟨pkt play 0x510 [0x80000000, 0], play, accepted_pkt rfl (by decide +kernel), by decide +kernel⟩,
    ⟨play.lk, .host, by decide +kernel⟩,
    ⟨play.upd.set1 F.SAFE_SM_STAT_FALLBACK, by decide +kernel⟩,
    ⟨play.upd, by decide +kernel⟩,
    ⟨play.mClk fun c => { c with ramp := some ⟨play.swNow, play.swNow, 100, [], 0, false, true⟩ }, ⟨play.swNow, play.swNow, 100, [], 0,
      false, true⟩, by decide +kernel⟩⟩

/-- Hypotheses of LoadTestsAndJackGiveResults that concrete states and operands meet. -/
theorem witness_LoadTestsAndJackGiveResults :
    (∃ (p : Packet) (s : State) (n : Fin 12),
      Quiet s ∧ Accepted cardLoadDcTest p s ∧ DomUp s (dmGroup (n.val / 4)) ∧ s.master n.val = n.val ∧ s.paired n.val = false ∧
      pf p.payload 0 0 12 = 2 ^ n.val ∧ s.suspended = false ∧ (s.testPending? = none ∧ s.chanBusy? [] [n.val] = none ∧
      s.freeSlot? ≠ none) ∧ s.phase n.val = phOff ∧ s.on (F.OUT_G_STAT_PVDDOK (n.val / 4)) = true) ∧
    (∃ (p : Packet) (s : State) (n : Fin 12),
      Quiet s ∧ Accepted cardLoadDcTest p s ∧ s.master n.val = n.val ∧ s.paired n.val = false ∧ pf p.payload 0 0 12 = 2 ^ n.val ∧
      s.suspended = false ∧ (s.testPending? = none ∧ s.chanBusy? [] [n.val] = none ∧ s.freeSlot? ≠ none) ∧ s.phase n.val = phPlay) ∧
    (∃ (s : State) (n : Fin 12) (own : ChanTest) (slave : ChanTest),
      Quiet s ∧ s.master n.val = n.val ∧ s.paired n.val = false ∧ s.failing (n.val) own slave = []) ∧
    (∃ (p : Packet) (s : State) (n : Fin 12),
      Quiet s ∧ Accepted cardLoadAcTest p s ∧ s.master n.val = n.val ∧ s.paired n.val = false ∧ pf p.payload 0 0 4 = n.val ∧
      s.suspended = false ∧ pf p.payload 0 16 8 ≤ 60 ∧ (s.testPending? = none ∧ s.chanBusy? [] [n.val] = none ∧ s.freeSlot? ≠ none) ∧
      pf p.payload 0 8 2 = 1 ∧ 30 ≤ pf p.payload 0 16 8 ∧ s.pstate = stPlay ∧ s.phase n.val = phPlay) ∧
    (∃ (p : Packet) (s : State) (n : Fin 12),
      Quiet s ∧ Accepted cardLoadAcTest p s ∧ DomUp s (dmGroup (n.val / 4)) ∧ s.master n.val = n.val ∧ s.paired n.val = false ∧
      pf p.payload 0 0 4 = n.val ∧ s.suspended = false ∧ pf p.payload 0 16 8 ≤ 60 ∧ (s.testPending? = none ∧
      s.chanBusy? [] [n.val] = none ∧ s.freeSlot? ≠ none) ∧ pf p.payload 0 8 2 = 0 ∧ 20 ≤ pf p.payload 0 16 8 ∧ s.phase n.val = phOff ∧
      (s.spk n.val).on = false ∧ s.muted = false ∧ s.rd F.SAFE_SM_STAT_CSS ≠ 2 ∧ s.on (F.OUT_G_STAT_PVDDOK (n.val / 4)) = true ∧
      s.carrierOn (n.val / 4) = true) ∧
    (∃ (s : State) (n : Fin 12) (a : AcTest),
      Quiet s ∧ s.master n.val = n.val ∧ s.paired n.val = false ∧ a.chan = n.val ∧ a.online = false ∧ (s.spk n.val).on = false ∧
      s.phase n.val = phHold ∧ a.stage = 1) ∧
    (∃ (s : State) (n : Fin 12) (a : AcTest),
      Quiet s ∧ s.master n.val = n.val ∧ s.paired n.val = false ∧ a.chan = n.val ∧ a.online = false ∧ (s.spk n.val).on = false ∧
      s.phase n.val = phHold ∧ a.stage = 2) ∧
    (∃ (s : State) (n : Fin 12) (a : AcTest),
      Quiet s ∧ s.master n.val = n.val ∧ s.paired n.val = false ∧ a.chan = n.val ∧ a.online = true ∧ s.phase n.val = phPlay ∧
      s.inSeq n.val = false ∧ s.croaking n.val = false ∧ a.spoilt = false ∧ a.wins.length < 9 ∧ a.tried < 29) ∧
    (∃ (s : State) (n : Fin 12) (a : AcTest),
      Quiet s ∧ s.master n.val = n.val ∧ s.paired n.val = false ∧ a.chan = n.val ∧ a.online = true ∧ s.phase n.val = phPlay ∧
      s.inSeq n.val = false ∧ s.croaking n.val = false ∧ a.spoilt = true ∧ a.wins.length < 10 ∧ a.tried < 29) ∧
    (∃ (s : State) (n : Fin 12) (a : AcTest),
      Quiet s ∧ s.master n.val = n.val ∧ s.paired n.val = false ∧ a.chan = n.val ∧ a.online = true ∧ s.phase n.val = phPlay ∧
      s.inSeq n.val = false ∧ s.croaking n.val = false ∧ a.spoilt = true ∧ a.wins.length < 10 ∧ a.tried = 29) ∧
    (∃ (s : State) (n : Fin 12) (a : AcTest),
      Quiet s ∧ s.master n.val = n.val ∧ s.paired n.val = false ∧ a.chan = n.val ∧ a.online = true ∧ s.phase n.val = phPlay ∧
      s.inSeq n.val = false ∧ s.croaking n.val = false ∧ a.spoilt = false ∧ a.wins.length = 9) ∧
    (∃ (p : Packet) (s : State),
      Accepted cardJackStatus p s ∧ s.jackWatched = true) ∧
    (∃ (s : State),
      s.jackWatched = true ∧ s.on F.SAFE_JACK_STAT_PLUG = false) ∧
    (∃ (s : State),
      s.jackWatched = true ∧ s.on F.SAFE_JACK_STAT_PLUG = true ∧ s.rd F.SAFE_JACK_STAT_POLES = 0 ∧ s.rd F.SAFE_JACK_CFG_JBIAS ≤ 1 ∧
      s.suspended = false) ∧
    (∃ (s : State) (ratio : BitVec 12),
      s.jackWatched = true ∧ s.buttonsOn = true ∧ buttonOf ratio.toNat ≠ 0 ∧ buttonOf ratio.toNat ≠ s.rd F.SAFE_JACK_STAT_BUTTON) ∧
    (∃ (s : State) (ratio : BitVec 12),
      s.jackWatched = true ∧ s.buttonsOn = true ∧ 22 * 4096 ≤ ratio.toNat * 100) :=
  ⟨⟨pkt play 0xA00 [0x800], play, 11, quiet_of (by decide +kernel), accepted_pkt rfl (by decide +kernel), domUp_of (by decide +kernel),
      by decide +kernel⟩,
    ⟨pkt play 0xA00 [0x800], play.ph 11 phPlay, 11, quiet_of (by decide +kernel), accepted_pkt rfl (by decide +kernel), by decide +kernel⟩,
    ⟨play, 11, ⟨⟨false, 80000⟩, ⟨false, 80000⟩, 600, 600, 600, 600, 24000, 200⟩, ⟨⟨false, 80000⟩, ⟨false, 80000⟩, 600, 600, 600, 600,
      24000, 200⟩, quiet_of (by decide +kernel), by decide +kernel⟩,
    ⟨pkt play 0xA01 [0x1E010B, 0x305], play.ph 11 phPlay, 11, quiet_of (by decide +kernel), accepted_pkt rfl (by decide +kernel),
      by decide +kernel⟩,
    ⟨pkt play 0xA01 [0x14000B, 0x305], play, 11, quiet_of (by decide +kernel), accepted_pkt rfl (by decide +kernel),
      domUp_of (by decide +kernel), by decide +kernel⟩,
    ⟨play.ph 11 phHold, 11, ⟨11, false, false, 1, (0, 0), (0, 0), [], 0, false, 0, 0, 0, 0⟩, quiet_of (by decide +kernel),
      by decide +kernel⟩,
    ⟨play.ph 11 phHold, 11, ⟨11, false, false, 2, (0, 0), (0, 0), [], 0, false, 0, 0, 0, 0⟩, quiet_of (by decide +kernel),
      by decide +kernel⟩,
    ⟨play.ph 11 phPlay, 11, ⟨11, true, false, 0, (0, 0), (0, 0), List.replicate 8 (3000, 5), 28, false, 0, 0, 0, 0⟩,
      quiet_of (by decide +kernel), by decide +kernel⟩,
    ⟨play.ph 11 phPlay, 11, ⟨11, true, false, 0, (0, 0), (0, 0), List.replicate 9 (3000, 5), 28, true, 0, 0, 0, 0⟩,
      quiet_of (by decide +kernel), by decide +kernel⟩,
    ⟨play.ph 11 phPlay, 11, ⟨11, true, false, 0, (0, 0), (0, 0), List.replicate 9 (3000, 5), 29, true, 0, 0, 0, 0⟩,
      quiet_of (by decide +kernel), by decide +kernel⟩,
    ⟨play.ph 11 phPlay, 11, ⟨11, true, false, 0, (0, 0), (0, 0), List.replicate 9 (3000, 5), 28, false, 0, 0, 0, 0⟩,
      quiet_of (by decide +kernel), by decide +kernel⟩,
    ⟨pkt play 0xA02 [], play, accepted_pkt rfl (by decide +kernel), by decide +kernel⟩,
    ⟨play, by decide +kernel⟩,
    ⟨play.set1 F.SAFE_JACK_STAT_PLUG, by decide +kernel⟩,
    ⟨play.wrs [(F.SAFE_JACK_STAT_PLUG, 1), (F.SAFE_JACK_STAT_POLES, 2), (F.SAFE_JACK_CFG_BTNEN, 1)], 100, by decide +kernel⟩,
    ⟨play.wrs [(F.SAFE_JACK_STAT_PLUG, 1), (F.SAFE_JACK_STAT_POLES, 2), (F.SAFE_JACK_CFG_BTNEN, 1)], 4095, by decide +kernel⟩⟩

/-- Hypotheses of InputFrontEndsAreConfigured that concrete states and operands meet. -/
theorem witness_InputFrontEndsAreConfigured :
    (∃ (p : Packet) (s : State) (n : Fin 4),
      Accepted cardAinCfg p s ∧ DomUp s (dmAadc n.val) ∧ s.link.cfgpar = [] ∧ pf p.payload 0 0 4 = 2 ^ n.val ∧ pf p.payload 2 0 6 ≤ 42 ∧
      s.pendFor? [Target.ain n.val] = none ∧ pb p.payload 2 31 = false ∧ s.feRate (pf p.payload 1 8 4) = pf p.payload 1 8 4) ∧
    (∃ (p : Packet) (s : State) (n : Fin 4),
      Accepted cardAinCfg p s ∧ DomUp s (dmAadc n.val) ∧ s.link.cfgpar = [] ∧ pf p.payload 0 0 4 = 2 ^ n.val ∧ pf p.payload 2 0 6 ≤ 42 ∧
      s.pendFor? [Target.ain n.val] = none ∧ pb p.payload 2 31 = true) ∧
    (∃ (s : State) (n : Fin 4),
      s.link.cfgpar = [] ∧ s.on (F.IN_AADC_STAT_PGAPEND n.val) = true) ∧
    (∃ (p : Packet) (s : State),
      Accepted cardMicbiasCfg p s ∧ s.link.cfgpar = [] ∧ pf p.payload 0 0 4 ≤ 8 ∧ pf p.payload 0 8 4 ≤ 8 ∧ s.pendFor? [Target.micbias 0,
      Target.micbias 1] = none) ∧
    (∃ (p : Packet) (s : State),
      Accepted cardPdmCfg p s ∧ DomUp s dmPdm ∧ s.link.cfgpar = [] ∧ s.divsOk (pw p.payload 0) = true ∧ ((s.putReg Reg.IN_PDM_CFG (pw
      p.payload 0 &&& 2273281904)).putReg Reg.IN_PDM_MIC (putBits (s.reg Reg.IN_PDM_MIC) 0 8 (s.rd F.IN_PDM_MIC_MEN &&& 255 - pf p.payload
      2 0 8 ||| pf p.payload 1 0 8 &&& pf p.payload 2 0 8))).ratiosOk = true ∧ s.pendFor? [Target.pdm] = none) :=
  ⟨⟨pkt play 0x400 [8, 0x8A140800, 42], play, 3, accepted_pkt rfl (by decide +kernel), domUp_of (by decide +kernel), by decide +kernel⟩,
    ⟨pkt play 0x400 [8, 0, 0x8000002A], play, 3, accepted_pkt rfl (by decide +kernel), domUp_of (by decide +kernel), by decide +kernel⟩,
    ⟨play.set1 (F.IN_AADC_STAT_PGAPEND 3), 3, by decide +kernel⟩,
    ⟨pkt play 0x401 [0x808], play, accepted_pkt rfl (by decide +kernel), by decide +kernel⟩,
    ⟨pkt play 0x402 [0x81018200, 0, 3], play, accepted_pkt rfl (by decide +kernel), domUp_of (by decide +kernel), by decide +kernel⟩⟩

/-- Hypotheses of TapStoresFramesAndZeroises that concrete states and operands meet. -/
theorem witness_TapStoresFramesAndZeroises :
    (∃ (p : Packet) (s : State),
      Accepted cardDecimCfg p s ∧ DomUp s dmPdm ∧ DomUp s dmTad ∧ s.link.cfgpar = [] ∧
      s.feRate (pf p.payload 0 8 4) = pf p.payload 0 8 4 ∧ (s.setReg Reg.IN_PDM_MIC (putBits (putBits (s.reg Reg.IN_PDM_MIC) 16 16 (pf
      p.payload 0 16 16)) 8 4 (pf p.payload 0 8 4))).ratiosOk = true ∧ (indices 12 (inMask (pf p.payload 1 16 12))).length ≤ 8 ∧
      1 ≤ pf p.payload 1 12 4 ∧ ((pf p.payload 1 16 12 ≠ s.rd F.IN_TAP_CFG_TAPMAP ∨ pf p.payload 1 30 1 ≠ s.rd F.IN_TAP_CFG_W24) ∨
      pf p.payload 1 31 1 ≠ s.rd F.IN_TAP_CFG_TAPEN → s.gate = gtSealed) ∧ (∀ c ∈ s.wkdSources, inMask (pf p.payload 1 16 12) c = true) ∧
      s.pendFor? [Target.decim] = none) ∧
    (∃ (s : State),
      s.link.cfgpar = [] ∧ stListen ≤ s.pstate ∧ s.tad.again = true ∧ s.on F.IN_TAP_CFG_TAPEN = true) ∧
    (∃ (s : State),
      s.link.cfgpar = [] ∧ stListen ≤ s.pstate ∧ s.tad.again = false) ∧
    (∃ (s : State),
      s.link.cfgpar = [] ∧ s.gate = gtZero ∧ s.tad.opens = none) :=
  ⟨⟨pkt play 0x403 [0x800, 0xFF01000], play, accepted_pkt rfl (by decide +kernel), domUp_of (by decide +kernel),
      domUp_of (by decide +kernel), by decide +kernel⟩,
    ⟨((play.wrs [(F.IN_TAP_CFG_TAPEN, 1), (F.IN_TAP_CFG_TAPMAP, 0x800)]).modTad fun t => { t with again := true }), by decide +kernel⟩,
    ⟨play, by decide +kernel⟩,
    ⟨play.wr F.IN_TAD_STAT_GATE gtZero, by decide +kernel⟩⟩

/-- Hypotheses of WakeDetectorLoadsAndDetects that concrete states and operands meet. -/
theorem witness_WakeDetectorLoadsAndDetects :
    (∃ (p : Packet) (s : State),
      Accepted cardWkdLoad p s ∧ Free s [Target.wkd] ∧ DomUp s dmWkd ∧ s.spanOn (pf p.payload 0 2 19 * 4) (pf p.payload 1 0 21) = true ∧
      s.on F.IN_WKD_CFG_EN = false) ∧
    (∃ (s : State) (e : PendEntry),
      s.atWork? 1040 = some e ∧ s.poisonIn (pf e.payload 0 2 19 * 4) (pf e.payload 1 0 21) = [] ∧
      s.wkdCheck (s.words (8388608 + pf e.payload 0 2 19 * 4) (pf e.payload 1 0 21 / 4)) (pf e.payload 1 0 21) (pw e.payload 2) = none) ∧
    (∃ (p : Packet) (s : State),
      Accepted cardWkdEnable p s ∧ s.pendFor? [Target.wkd] = none ∧ pb p.payload 0 31 = false) ∧
    (∃ (p : Packet) (s : State) (m : WkdModel),
      Accepted cardWkdEnable p s ∧ DomUp s dmWkd ∧ s.pendFor? [Target.wkd] = none ∧ pb p.payload 0 31 = true ∧ s.wkd.model = some m ∧
      pf p.payload 0 16 4 < 12 ∧ inMask (s.rd F.IN_TAP_CFG_TAPMAP) (pf p.payload 0 16 4) = true ∧
      (pf p.payload 0 20 4 ≠ 15 → pf p.payload 0 20 4 < 12 ∧ inMask (s.rd F.IN_TAP_CFG_TAPMAP) (pf p.payload 0 20 4) = true) ∧
      (m.nin = 2 → pf p.payload 0 20 4 ≠ 15) ∧ s.on F.IN_TAP_CFG_TAPEN = true) ∧
    (∃ (s : State) (m : WkdModel),
      s.wkd.model = some m ∧ s.on F.IN_WKD_CFG_EN = true ∧ s.wkd.stop = false ∧ s.wkd.fed < 400) ∧
    (∃ (s : State) (score : BitVec 8) (m : WkdModel),
      s.wkd.model = some m ∧ s.on F.IN_WKD_CFG_EN = true ∧ s.wkd.stop = false ∧ 400 ≤ s.wkd.fed ∧
      (score.toNat < if s.rd F.IN_WKD_CFG_THR = 0 then m.thrdef else s.rd F.IN_WKD_CFG_THR) ∧ 1 ≤ m.hops) ∧
    (∃ (s : State) (score : BitVec 8) (m : WkdModel),
      s.wkd.model = some m ∧ s.on F.IN_WKD_CFG_EN = true ∧ s.wkd.stop = false ∧ 400 ≤ s.wkd.fed ∧
      (if s.rd F.IN_WKD_CFG_THR = 0 then m.thrdef else s.rd F.IN_WKD_CFG_THR) ≤ score.toNat ∧ m.hops ≤ s.wkd.run + 1 ∧ s.wkd.quiet = 0 ∧
      s.gate = gtSealed) :=
  ⟨⟨pkt play 0x410 [0x40000, 200, 0], play, accepted_pkt rfl (by decide +kernel), free_of (by decide +kernel),
      domUp_of (by decide +kernel), by decide +kernel⟩,
    ⟨(play.putImg 0x40000 wakeWords).pnd (pend 0x410 [0x40000, 176, 0] [.wkd]), pend 0x410 [0x40000, 176, 0] [.wkd], by
      have hw : ((play.putImg 0x40000 wakeWords).pnd (pend 0x410 [0x40000, 176, 0] [.wkd])).words
          (8388608 + pf (pend 0x410 [0x40000, 176, 0] [.wkd]).payload 0 2 19 * 4) (pf (pend 0x410 [0x40000, 176, 0] [.wkd]).payload 1 0 21 / 4)
          = wakeWords := by decide +kernel
      rw [hw]
      exact ⟨by decide +kernel, by decide +kernel, wkdCheck_of (modelSigned_of _ wakeSigned rfl (by decide +kernel)) (by decide +kernel)⟩⟩,
    ⟨pkt play 0x411 [0], play, accepted_pkt rfl (by decide +kernel), by decide +kernel⟩,
    ⟨pkt play 0x411 [0x80FB0000], (play.wrs [(F.IN_TAP_CFG_TAPEN, 1), (F.IN_TAP_CFG_TAPMAP,
      0x800)]).modWkd fun w => { w with model := some model }, model, accepted_pkt rfl (by decide +kernel), domUp_of (by decide +kernel),
      by decide +kernel⟩,
    ⟨(play.wrs [(F.IN_TAP_CFG_TAPEN, 1), (F.IN_TAP_CFG_TAPMAP,
      0x800)]).set1 F.IN_WKD_CFG_EN |>.modWkd fun w => { w with model := some model }, model, by decide +kernel⟩,
    ⟨(play.wrs [(F.IN_TAP_CFG_TAPEN, 1), (F.IN_TAP_CFG_TAPMAP,
      0x800)]).set1 F.IN_WKD_CFG_EN |>.modWkd fun w => { w with model := some model, fed := 400 }, 99, model, by decide +kernel⟩,
    ⟨(play.wrs [(F.IN_TAP_CFG_TAPEN, 1), (F.IN_TAP_CFG_TAPMAP,
      0x800)]).set1 F.IN_WKD_CFG_EN |>.modWkd fun w => { w with model := some model, fed := 400, run := 2 }, 100, model, by decide +kernel⟩⟩

/-- Hypotheses of GateOpensHandsOverAndSeals that concrete states and operands meet. -/
theorem witness_GateOpensHandsOverAndSeals :
    (∃ (p : Packet) (s : State),
      Accepted cardPttCfg p s ∧ s.pendFor? [Target.ptt] = none) ∧
    (∃ (s : State),
      stListen ≤ s.pstate ∧ s.on F.IN_TAP_CFG_PTTEN = true ∧ s.on F.IN_TAD_STAT_PTTLVL = false ∧ s.on F.IN_TAP_CFG_TAPEN = true ∧
      s.gate = gtSealed) ∧
    (∃ (s : State),
      stListen ≤ s.pstate ∧ s.on F.IN_TAP_CFG_PTTEN = true ∧ s.on F.IN_TAD_STAT_PTTLVL = false ∧ s.on F.IN_TAP_CFG_TAPEN = false) ∧
    (∃ (s : State),
      stListen ≤ s.pstate ∧ s.on F.IN_TAP_CFG_PTTEN = true ∧ s.on F.IN_TAD_STAT_PTTLVL = true ∧ s.gate = gtOpen) ∧
    (∃ (s : State),
      s.gateExpired = true ∧ s.gate = gtOpen ∧ s.openingNow = none ∧ (∀ x ∈ s.strs, s.isHandover x.sid = false)) ∧
    (∃ (p : Packet) (s : State),
      Accepted cardWakeHandover { p with payload := List.modifyHead (fun x => x ||| 2147483648) p.payload } s ∧ s.gate = gtOpen ∧
      s.openingNow = none ∧ (∀ x ∈ s.strs, s.isHandover x.sid = false)) ∧
    (∃ (p : Packet) (s : State) (sid : Nat),
      Accepted cardWakeHandover p s ∧ pb p.payload 0 31 = false ∧ pf p.payload 0 28 2 ≠ 3 ∧
      pf p.payload 0 8 3 + (pf p.payload 0 12 3 + 1) ≤ s.tapN ∧ pf p.payload 0 24 2 ≠ 3 ∧ 4 ≤ pf p.payload 0 16 4 ∧
      s.ringOn (pf p.payload 0 16 4) = true ∧ s.on (F.DSP_RING_CFG_DIR (pf p.payload 0 16 4)) = true ∧ s.gate = gtOpen ∧ (s.rd64
      Reg.IN_TAD_GSTART_LO ≤ if pf p.payload 0 28 2 = 0 then s.rd64 Reg.IN_TAD_GSTART_LO else if pf p.payload 0 28 2 = 1 then s.rd64
      Reg.IN_TAD_GSTART_LO + pf p.payload 1 0 20 else s.rd64 Reg.IN_TAD_WIDX_LO) ∧ ((if pf p.payload 0 28 2 = 0 then s.rd64
      Reg.IN_TAD_GSTART_LO else if pf p.payload 0 28 2 = 1 then s.rd64 Reg.IN_TAD_GSTART_LO + pf p.payload 1 0 20 else s.rd64
      Reg.IN_TAD_WIDX_LO) ≤ s.rd64 Reg.IN_TAD_WIDX_LO) ∧ s.sidPick (pf p.payload 0 0 7) = some sid ∧
      s.claimed 6 (pf p.payload 0 16 4) (pf p.payload 0 12 3 + 1) false = false ∧ s.pendFor? [Target.stream sid, Target.gate] = none) :=
  ⟨⟨pkt play 0x413 [0xC0000007], play, accepted_pkt rfl (by decide +kernel), by decide +kernel⟩,
    ⟨(play.wrs [(F.IN_TAP_CFG_TAPEN, 1), (F.IN_TAP_CFG_TAPMAP, 0x800)]).set1 F.IN_TAP_CFG_PTTEN, by decide +kernel⟩,
    ⟨play.set1 F.IN_TAP_CFG_PTTEN, by decide +kernel⟩,
    ⟨(play.wrs [(F.IN_TAP_CFG_TAPEN, 1), (F.IN_TAP_CFG_TAPMAP, 0x800)]).wrs [(F.IN_TAP_CFG_PTTEN, 1), (F.IN_TAD_STAT_PTTLVL, 1),
      (F.IN_TAD_STAT_GATE, gtOpen)], by decide +kernel⟩,
    ⟨((play.wr F.IN_TAD_STAT_GATE gtOpen).wr F.IN_TAP_CFG_GATETO 1).wr64 Reg.CTL_SYS_TIME_LO 24576000 |>.modTad fun t => { t with timer := some 0 },
      by decide +kernel⟩,
    ⟨pkt play 0x412 [0x80000000, 0], (play.wrs [(F.IN_TAP_CFG_TAPEN, 1), (F.IN_TAP_CFG_TAPMAP, 0x800)]).wr F.IN_TAD_STAT_GATE gtOpen,
      accepted_of (by decide +kernel) (by decide +kernel) (fun h => by cases h), by decide +kernel⟩,
    ⟨pkt play 0x412 [0x10F0007, 10], handed, 7, accepted_pkt rfl (by decide +kernel), by decide +kernel⟩⟩

/-- Hypotheses of MonitorConvertersArbitrateAndFailOver that concrete states and operands meet. -/
theorem witness_MonitorConvertersArbitrateAndFailOver :
    (∃ (s : State) (m : Fin 2) (a0 : MadcConv) (a1 : MadcConv) (n : Fin 12) (e : (Nat × Nat × Nat) × Option Nat),
      (∀ (f : (Nat × Nat × Nat) × Option Nat), s.slotConv (1 - m.val) = some f → f.1.2.1 ≠ 3 + n.val) ∧ s.chipSafe = false ∧
      s.madc.tdac = none ∧ a0.late = false ∧ a1.late = false ∧ s.serves 0 = true ∧ s.serves 1 = true ∧ (17 ≤ a0.settle ∧ 17 ≤ a1.settle ∧
      336 ≤ a0.bufOn ∧ 336 ≤ a1.bufOn) ∧ s.madc.slot % 10 ≠ 0 ∧ s.slotConv m.val = some e ∧ e.1.1 = 1 ∧ e.1.2.1 = 3 + n.val) ∧
    (∃ (s : State) (a0 : MadcConv) (a1 : MadcConv),
      s.chipSafe = false ∧ s.madc.tdac = none ∧ a0.late = false ∧ a1.late = false ∧ s.serves 0 = true ∧ s.serves 1 = true ∧
      s.madc.slot % 10 = 0 ∧ (if madcCode a0.volts < madcCode a1.volts then madcCode a1.volts - madcCode a0.volts else madcCode a0.volts -
      madcCode a1.volts) ≤ s.pthr) ∧
    (∃ (s : State) (a0 : MadcConv) (a1 : MadcConv),
      s.chipSafe = false ∧ s.madc.tdac = none ∧ a0.late = false ∧ a1.late = false ∧ s.serves 0 = true ∧ s.serves 1 = true ∧
      s.madc.slot % 10 = 0 ∧ (s.pthr < if madcCode a0.volts < madcCode a1.volts then madcCode a1.volts - madcCode a0.volts else madcCode
      a0.volts - madcCode a1.volts)) ∧
    (∃ (s : State) (m : Fin 2) (l0 : Nat) (h0 : Nat) (l1 : Nat) (h1 : Nat),
      s.chipSafe = false ∧ s.madc.tdac = none ∧ s.madc.arb = true ∧ ((s.saf.work.any fun w => w.isFor rgSafe 2561 0 0) = true) ∧
      (∀ w ∈ s.saf.work, w.region = rgSafe → w.isFor rgSafe 2561 0 0 = true) ∧ s.mrole 0 = rlNormal ∧ s.mrole 1 = rlNormal ∧
      coreOk l0 h0 ≠ coreOk l1 h1 ∧ coreOk (if m.val = 0 then l0 else l1) (if m.val = 0 then h0 else h1) = false) ∧
    (∃ (s : State) (l0 : Nat) (h0 : Nat) (l1 : Nat) (h1 : Nat),
      s.chipSafe = false ∧ s.madc.tdac = none ∧ s.madc.arb = true ∧ ((s.saf.work.any fun w => w.isFor rgSafe 2561 0 0) = true) ∧
      (∀ w ∈ s.saf.work, w.region = rgSafe → w.isFor rgSafe 2561 0 0 = true) ∧ s.mrole 0 = rlNormal ∧ s.mrole 1 = rlNormal ∧
      coreOk l0 h0 = coreOk l1 h1) ∧
    (∃ (s : State) (m : Fin 2),
      s.chipSafe = false ∧ s.madc.tdac = none ∧ s.madc.plan = true ∧ ((s.saf.work.any fun w => w.isFor rgSafe 2562 0 m.val) = true) ∧
      (∀ w ∈ s.saf.work, w.region = rgSafe → w.wait = false) ∧ s.serves m.val = false ∧ s.serves (1 - m.val) = true) ∧
    (∃ (s : State) (m : Fin 2) (l0 : Nat) (h0 : Nat),
      s.chipSafe = false ∧ s.madc.tdac = none ∧ s.serves m.val = true ∧ coreOk l0 h0 = false ∧ s.handling rgSafe = false) ∧
    (∃ (s : State) (i : Iface) (m : Fin 2),
      s.chipSafe = false ∧ s.madc.tdac = none ∧ s.ifaceReady i = true ∧
      s.on { addr := Reg.HOST_PWSTAT, lo := rgSafe, width := 1 } = false ∧ s.link.posted = [] ∧ s.link.cfgpar = [] ∧ s.lockOpen i = true ∧
      s.mrole m.val = rlSole) ∧
    (∃ (p : Packet) (s : State),
      Accepted cardMadcRead p s ∧ s.chipSafe = false ∧ s.madc.tdac = none ∧ s.serves (pf p.payload 0 31 1) = true ∧ s.suspended = false ∧
      pf p.payload 0 0 3 = 0 ∧ pf p.payload 0 16 5 ≤ 23 ∧
      (15 ≤ pf p.payload 0 16 5 → pf p.payload 0 16 5 ≤ 20 → s.groupOff (inputGroup (pf p.payload 0 16 5)) = true)) ∧
    (∃ (p : Packet) (s : State),
      Accepted cardTdacTest p s ∧ s.chipSafe = false ∧ s.madc.tdac = none ∧ s.serves (pf p.payload 0 31 1) = true ∧ s.suspended = false ∧
      pf p.payload 0 8 2 = 0 ∧ s.pendFor? [Target.tdac] = none ∧ s.madc.arb = false) ∧
    (∃ (p : Packet) (s : State),
      Accepted cardTdacTest p s ∧ s.chipSafe = false ∧ s.madc.tdac = none ∧ s.serves (pf p.payload 0 31 1) = true ∧ s.suspended = false ∧
      pf p.payload 0 8 2 = 0 ∧ s.pendFor? [Target.tdac] = none ∧ s.madc.arb = true ∧ s.freeSlot? ≠ none) :=
  ⟨⟨play.mMadc fun m => { m with slot := 51 }, 0, ⟨1250000, 17, 336, false, []⟩, ⟨1250000, 17, 336, false, []⟩, 5, ((1, 8, 0), none),
      (fun f h => by cases (show some ((1, 14, 0), none) = some f from h); decide), by decide +kernel⟩,
    ⟨play, ⟨1250000, 17, 336, false, []⟩, ⟨1250000, 17, 336, false, []⟩, by decide +kernel⟩,
    ⟨play, ⟨1250000, 17, 336, false, []⟩, ⟨2500000, 17, 336, false, []⟩, by decide +kernel⟩,
    ⟨(play.mMadc fun m => { m with arb := true }).mSaf fun x => { x with work := [⟨rgSafe, 0xA01, 0, 0, 3, 0, false, false, 0⟩] }, 0, 0,
      0, 625000, 1875000, by decide +kernel⟩,
    ⟨(play.mMadc fun m => { m with arb := true }).mSaf fun x => { x with work := [⟨rgSafe, 0xA01, 0, 0, 3, 0, false, false, 0⟩] },
      625000, 1875000, 625000, 1875000, by decide +kernel⟩,
    ⟨((play.mMadc fun m => { m with plan := true }).wr (F.SAFE_MADC_STAT_ROLE 0) 2).mSaf fun x => { x with work := [⟨rgSafe, 0xA02, 0, 0, 3, 0, false, false, 0⟩] },
      0, by decide +kernel⟩,
    ⟨play, 1, 0, 0, by decide +kernel⟩,
    ⟨play.lk.wr (F.SAFE_MADC_STAT_ROLE 0) 1, .host, 0, by decide +kernel⟩,
    ⟨pkt play 0xA03 [0x80170000], play, accepted_pkt rfl (by decide +kernel), by decide +kernel⟩,
    ⟨pkt play 0xA04 [0x80000000, 0], play, accepted_pkt rfl (by decide +kernel), by decide +kernel⟩,
    ⟨pkt play 0xA04 [0x80000000, 0], play.mMadc fun m => { m with arb := true }, accepted_pkt rfl (by decide +kernel), by decide +kernel⟩⟩

/-- Hypotheses of SafetyCommandsComplete that concrete states and operands meet. -/
theorem witness_SafetyCommandsComplete :
    (∃ (p : Packet) (s : State),
      Accepted cardSafetyCfg p s ∧ s.link.cfgpar = [] ∧ (∀ k < 8, (s.slot k).kind = 0 ∧ (s.slot k).active = false) ∧ (∀ r ∈ s.saf.recs,
      r.code ≠ 778) ∧ s.chipSafe = false ∧ (∀ n < 12, s.phase n = phOff ∨ s.phase n = phSlave) ∧ pf p.payload 2 0 8 ≤ 24 ∧
      (pf p.payload 3 0 4 ≤ 11 ∨ pf p.payload 3 0 4 = 15) ∧ (pf p.payload 3 12 4 ≤ 11 ∨ pf p.payload 3 12 4 = 15) ∧
      (pf p.payload 3 0 4 = 15 → pf p.payload 3 12 4 = 15)) ∧
    (∃ (p : Packet) (s : State) (r : FaultRec),
      Accepted cardFaultRead p s ∧ s.link.cfgpar = [] ∧ (∀ k < 8, (s.slot k).kind = 0 ∧ (s.slot k).active = false) ∧ (∀ r ∈ s.saf.recs,
      r.code ≠ 778) ∧ (if pf p.payload 0 0 16 = 0 then s.saf.recs.getLast? else List.find? (fun q => decide (q.recno = pf p.payload 0 0
      16)) s.saf.recs) = some r) ∧
    (∃ (p : Packet) (s : State),
      Accepted cardFaultClear p s ∧ s.link.cfgpar = [] ∧ (∀ k < 8, (s.slot k).kind = 0 ∧ (s.slot k).active = false) ∧ (∀ r ∈ s.saf.recs,
      r.code ≠ 778) ∧ pf p.payload 0 0 16 = 65535) ∧
    (∃ (p : Packet) (s : State) (r : FaultRec),
      Accepted cardFaultClear p s ∧ s.link.cfgpar = [] ∧ (∀ k < 8, (s.slot k).kind = 0 ∧ (s.slot k).active = false) ∧ (∀ r ∈ s.saf.recs,
      r.code ≠ 778) ∧ pf p.payload 0 0 16 ≠ 65535 ∧ List.find? (fun q => decide (q.recno = pf p.payload 0 0 16)) s.saf.recs = some r ∧
      r.active = false) ∧
    (∃ (p : Packet) (s : State),
      Accepted cardSelftestRun p s ∧ Free s [Target.selftest] ∧ s.link.cfgpar = [] ∧ (∀ k < 8, (s.slot k).kind = 0 ∧
      (s.slot k).active = false) ∧ (∀ r ∈ s.saf.recs, r.code ≠ 778) ∧ s.chipSafe = false ∧
      (pb p.payload 0 0 = true → s.rd F.DSP_SPARE_SPMAP ≠ 0 ∧ s.graph.molt = none) ∧
      (pb p.payload 0 2 = true → s.on F.SAFE_SM_CFG_FNTEST = true)) ∧
    (∃ (s : State) (e : PendEntry),
      s.link.cfgpar = [] ∧ (∀ k < 8, (s.slot k).kind = 0 ∧ (s.slot k).active = false) ∧ (∀ r ∈ s.saf.recs, r.code ≠ 778) ∧
      s.atWork? 1795 = some e) ∧
    (∃ (p : Packet) (s : State),
      Accepted cardSafeRelease p s ∧ Free s [Target.safestate] ∧ NewKey p s ∧ s.link.cfgpar = [] ∧ (∀ k < 8, (s.slot k).kind = 0 ∧
      (s.slot k).active = false) ∧ (∀ r ∈ s.saf.recs, r.code ≠ 778) ∧ s.chipSafe = true ∧ pf p.payload 0 0 16 = s.saf.cause ∧
      s.saf.fixed = false ∧ s.atWork? 1796 = none ∧ (∀ r ∈ s.saf.recs, r.recno = s.saf.cause → r.active = false)) :=
  ⟨⟨pkt play 0x700 [0xFFFFFFFF, 0xFFFFFFFF, 24, 0xB00B] true, play.at4 3, accepted_auth [1, 2] rfl rfl rfl (by decide +kernel),
      by decide +kernel⟩,
    ⟨pkt play 0x701 [0],
      play.mSaf fun x => { x with recs := [⟨0x301, 0, 3, false, true, false, true, 2, 0, 1, 5, 1, 4, 0, 0⟩], next := 5 }, ⟨0x301, 0, 3,
      false, true, false, true, 2, 0, 1, 5, 1, 4, 0, 0⟩, accepted_pkt rfl (by decide +kernel), by decide +kernel⟩,
    ⟨pkt play 0x702 [0xFFFF],
      play.mSaf fun x => { x with recs := [⟨0x301, 0, 3, false, true, false, true, 2, 0, 1, 5, 1, 4, 0, 0⟩], next := 5 },
      accepted_pkt rfl (by decide +kernel), by decide +kernel⟩,
    ⟨pkt play 0x702 [4],
      play.mSaf fun x => { x with recs := [⟨0x301, 0, 3, false, true, false, true, 2, 0, 1, 5, 1, 4, 0, 0⟩], next := 5 }, ⟨0x301, 0, 3,
      false, true, false, true, 2, 0, 1, 5, 1, 4, 0, 0⟩, accepted_pkt rfl (by decide +kernel), by decide +kernel⟩,
    ⟨pkt play 0x703 [7], play.set1 F.SAFE_SM_CFG_FNTEST, accepted_pkt rfl (by decide +kernel), free_of (by decide +kernel),
      by decide +kernel⟩,
    ⟨play.pnd (pend 0x703 [4] [.selftest]), pend 0x703 [4] [.selftest], by decide +kernel⟩,
    ⟨pkt play 0x704 [4] true,
      (play.mSaf fun x => { x with recs := [⟨0x301, 0, 3, false, true, false, true, 2, 0, 1, 5, 1, 4, 0, 0⟩], next := 5, cause := 4 }).wr F.SAFE_SM_STAT_CSS 2,
      accepted_auth [1, 2] rfl rfl rfl (by decide +kernel), free_of (by decide +kernel), newKey_of (by decide +kernel), by decide +kernel⟩⟩

/-- Hypotheses of SupervisorAndMonitorAreRestarted that concrete states and operands meet. -/
theorem witness_SupervisorAndMonitorAreRestarted :
    (∃ (s : State),
      s.pap.run = PapolRun.running) ∧
    (∃ (s : State),
      s.pap.run = PapolRun.halted ∧ stListen ≤ s.pstate ∧
      ((s.saf.work.any fun w => decide (w.region = rgCtl) && decide (w.code ≤ 2)) = true)) ∧
    (∃ (s : State),
      s.pap.run = PapolRun.halted ∧ stListen ≤ s.pstate ∧
      ((s.saf.work.any fun w => decide (w.region = rgCtl) && decide (w.code ≤ 2)) = false)) ∧
    (∃ (s : State) (rg : Fin 5) (w : Work),
      List.find? (fun w => decide (w.region = rg.val) && !w.met) s.saf.work = some w ∧ s.chipSafe = false ∧ w.level < 3) ∧
    (∃ (s : State) (rg : Fin 5) (w : Work),
      Still s ∧ List.find? (fun w => decide (w.region = rg.val) && !w.met) s.saf.work = some w ∧ s.chipSafe = false ∧ 3 ≤ w.level) ∧
    (∃ (s : State) (rg : Fin 5),
      (List.find? (fun w => decide (w.region = rg.val) && !w.met) s.saf.work = none ∨ s.chipSafe = true)) ∧
    (∃ (s : State),
      s.on F.SAFE_SM_STAT_SMOK = true ∧ s.chipSafe = false ∧ s.saf.smAt = none) ∧
    (∃ (s : State) (at' : Nat),
      s.on F.SAFE_SM_STAT_SMOK = true ∧ s.saf.smAt = some at' ∧ s.now - at' < 24576000) ∧
    (∃ (s : State),
      s.on F.SAFE_SM_STAT_SMOK = false ∧ ((s.saf.work.any fun w => decide (w.region = rgSafe) && decide (w.code = 1795)) = true)) ∧
    (∃ (s : State),
      s.on F.SAFE_SM_STAT_SMOK = false ∧ ((s.saf.work.any fun w => decide (w.region = rgSafe) && decide (w.code = 1795)) = false)) :=
  ⟨⟨play, by decide +kernel⟩,
    ⟨(play.mPap fun x => { x with run := .halted }).mSaf fun x => { x with work := [⟨rgCtl, 1, 0, 0, 3, 0, false, false, 0⟩] },
      by decide +kernel⟩,
    ⟨play.mPap fun x => { x with run := .halted }, by decide +kernel⟩,
    ⟨(play).mSaf fun x => { x with work := [⟨rgOut, 0x301, 0, 0, 2, 0, false, false, 0⟩] }, 3, ⟨rgOut, 0x301, 0, 0, 2, 0, false, false,
      0⟩, by decide +kernel⟩,
    ⟨(play).mSaf fun x => { x with work := [⟨rgOut, 0x301, 0, 0, 3, 0, false, false, 0⟩] }, 3, ⟨rgOut, 0x301, 0, 0, 3, 0, false, false,
      0⟩, still_of (by decide +kernel), by decide +kernel⟩,
    ⟨play, 4, by decide +kernel⟩,
    ⟨play.mSaf fun x => { x with smAt := none }, by decide +kernel⟩,
    ⟨play.mSaf fun x => { x with smAt := some 0 }, 0, by decide +kernel⟩,
    ⟨(play.wr F.SAFE_SM_STAT_SMOK 0).mSaf fun x => { x with work := [⟨rgSafe, 0x703, 0, 0, 3, 0, false, false, 0⟩] }, by decide +kernel⟩,
    ⟨play.wr F.SAFE_SM_STAT_SMOK 0, by decide +kernel⟩⟩

/-- Hypotheses of DetectorsRecordWhatTheyFind that concrete states and operands meet. -/
theorem witness_DetectorsRecordWhatTheyFind :
    (∃ (s : State) (n : Fin 12),
      Still s ∧ s.chipSafe = false ∧ s.master n.val = n.val ∧ s.link.badParity = [] ∧ s.link.cfgpar = []) ∧
    (∃ (s : State) (n : Fin 12) (i0 : BitVec 12) (i1 : BitVec 12) (i2 : BitVec 12) (i3 : BitVec 12),
      Still s ∧ s.chipSafe = false ∧ s.master n.val = n.val ∧ s.on F.SAFE_SM_STAT_SMOK = true ∧
      inMask (s.rd F.SAFE_SM_CFG2_LOUDEN) n.val = true ∧ s.phase n.val = phPlay ∧ loudExceeds (isnsSq i0 + isnsSq i1 + isnsSq i2 + isnsSq
      i3) (s.znom n.val) (s.rd F.OUT_SPK_FUSE_PCEIL) (s.rd F.SAFE_SM_LOUD_LOUDTHR) = false) ∧
    (∃ (s : State) (n : Fin 12) (i0 : BitVec 12) (i1 : BitVec 12) (i2 : BitVec 12) (i3 : BitVec 12),
      Still s ∧ s.chipSafe = false ∧ s.master n.val = n.val ∧ s.on F.SAFE_SM_STAT_SMOK = true ∧
      inMask (s.rd F.SAFE_SM_CFG2_LOUDEN) n.val = true ∧ s.phase n.val = phPlay ∧ loudExceeds (isnsSq i0 + isnsSq i1 + isnsSq i2 + isnsSq
      i3) (s.znom n.val) (s.rd F.OUT_SPK_FUSE_PCEIL) (s.rd F.SAFE_SM_LOUD_LOUDTHR) = true) ∧
    (∃ (s : State) (n : Fin 12) (m0 : BitVec 16) (p0 : BitVec 16) (m1 : BitVec 16) (p1 : BitVec 16),
      Still s ∧ s.chipSafe = false ∧ s.master n.val = n.val ∧ (dutyOff m0 p0 = false ∨ dutyOff m1 p1 = false ∨ s.modelBusy n.val = true)) ∧
    (∃ (s : State) (n : Fin 12) (legM : Bool) (m0 : BitVec 16) (p0 : BitVec 16) (m1 : BitVec 16) (p1 : BitVec 16),
      Still s ∧ s.chipSafe = false ∧ s.master n.val = n.val ∧ dutyOff m0 p0 = true ∧ dutyOff m1 p1 = true ∧ s.modelBusy n.val = false ∧
      s.legActs (n.val / 4) (nodeOf (n.val) (b2n legM)) = true ∧ s.xstate (n.val / 4) = xsReady ∧
      s.onSpare (n.val / 4) (nodeOf (n.val) (b2n legM)) = false ∧ s.handling rgOut = false) ∧
    (∃ (s : State) (n : Fin 12) (v : Voter),
      Still s ∧ s.chipSafe = false ∧ s.master n.val = n.val ∧ s.saf.votes.contains v = false) ∧
    (∃ (s : State) (n : Fin 12),
      Still s ∧ s.chipSafe = false ∧ s.master n.val = n.val ∧ s.saf.votes.contains (Voter.attenuation n) = true) ∧
    (∃ (s : State) (n : Fin 12),
      Still s ∧ s.chipSafe = false ∧ s.master n.val = n.val ∧ s.on F.SAFE_SM_CFG_ALTPAIR = true ∧ s.alertLevel 0 = s.alertLevel 1) ∧
    (∃ (s : State) (n : Fin 12) (clock : Bool),
      Still s ∧ s.chipSafe = false ∧ s.master n.val = n.val ∧ inMask (s.rd F.SAFE_SM_CFG_VOICEMAP) n.val = true ∧ s.srcEn n.val = true ∧
      (8 ≤ n.val → clock = false) ∧ inMask s.saf.vfail n.val = false) ∧
    (∃ (s : State) (n : Fin 12),
      Still s ∧ s.chipSafe = false ∧ s.master n.val = n.val ∧ s.on F.CTL_CLK_STAT_REFLOST = false ∧ stListen ≤ s.pstate) ∧
    (∃ (s : State) (n : Fin 12) (sup : Fin 5) (mV : Nat),
      Still s ∧ s.chipSafe = false ∧ s.master n.val = n.val ∧ stListen ≤ s.pstate ∧ (sup.val = 4 → s.hoPhase 0 ≠ hoOff ∨
      s.hoPhase 1 ≠ hoOff) ∧ ((s.supplyWindow sup.val).1 ≤ mV ∧ mV ≤ (s.supplyWindow sup.val).2)) ∧
    (∃ (s : State) (n : Fin 12) (sup : Fin 5) (mV : Nat),
      Still s ∧ s.chipSafe = false ∧ s.master n.val = n.val ∧ stListen ≤ s.pstate ∧ (sup.val = 4 → s.hoPhase 0 ≠ hoOff ∨
      s.hoPhase 1 ≠ hoOff) ∧ (¬((s.supplyWindow sup.val).1 ≤ mV ∧ mV ≤ (s.supplyWindow sup.val).2)) ∧
      inMask (s.rd F.SAFE_SM_MON_VIN) sup.val = true) ∧
    (∃ (s : State) (n : Fin 12) (test : LatentTest),
      Still s ∧ s.chipSafe = false ∧ s.master n.val = n.val ∧ (∀ (e : Fin 8), test ≠ LatentTest.runningEngine e)) :=
  ⟨⟨play, 11, still_of (by decide +kernel), by decide +kernel⟩,
    ⟨(play.ph 11 phPlay).wrs [(F.SAFE_SM_CFG2_LOUDEN, 0x800), (F.OUT_SPK_CFG_ZNOM 11, 8), (F.SAFE_SM_LOUD_LOUDTHR, 0)], 11, 0x800, 0x800,
      0x800, 0x800, still_of (by decide +kernel), by decide +kernel⟩,
    ⟨(play.ph 11 phPlay).wrs [(F.SAFE_SM_CFG2_LOUDEN, 0x800), (F.OUT_SPK_CFG_ZNOM 11, 8), (F.SAFE_SM_LOUD_LOUDTHR, 0)], 11, 0xFFF, 0xFFF,
      0xFFF, 0xFFF, still_of (by decide +kernel), by decide +kernel⟩,
    ⟨play, 11, 7, 7, 7, 7, still_of (by decide +kernel), by decide +kernel⟩,
    ⟨(play.ph 11 phPlay).wr (F.OUT_G_STAT_XSTATE 2) xsReady, 11, true, 0x4000, 0, 0x4000, 0, still_of (by decide +kernel),
      by decide +kernel⟩,
    ⟨play, 11, .croaker 7, still_of (by decide +kernel), by decide +kernel⟩,
    ⟨play.mSaf fun x => { x with votes := [.attenuation 11] }, 11, still_of (by decide +kernel), by decide +kernel⟩,
    ⟨play.set1 F.SAFE_SM_CFG_ALTPAIR, 0, still_of (by decide +kernel), by decide +kernel⟩,
    ⟨play.wrs [(F.SAFE_SM_CFG_VOICEMAP, 0x808), (F.IN_AADC_CFG_EN 3, 1)], 11, false, still_of (by decide +kernel), by decide +kernel⟩,
    ⟨play, 0, still_of (by decide +kernel), by decide +kernel⟩,
    ⟨play, 0, 3, (play.supplyWindow 3).2, still_of (by decide +kernel), by decide +kernel⟩,
    ⟨(play.wr (hoField 0) hoPlay).wr F.SAFE_SM_MON_VIN 0x1F, 0, 4, (play.supplyWindow 4).2 + 1, still_of (by decide +kernel),
      by decide +kernel⟩,
    ⟨play, 11, .supervisor, still_of (by decide +kernel), by decide +kernel⟩⟩

/-- Hypotheses of PowerTransitionsGoStepByStep that concrete states and operands meet. -/
theorem witness_PowerTransitionsGoStepByStep :
    (∃ (p : Packet) (s : State),
      Accepted cardPowerState p s ∧ s.on F.PWR_STATE_TRANS = false ∧ pf p.payload 0 0 3 ≤ 4 ∧
      (pf p.payload 0 0 3 = stBrumate → (pf p.payload 0 4 3 = 2 ∨ pf p.payload 0 4 3 = 3) ∧ s.wakeArmed = true) ∧
      pf p.payload 0 0 3 = s.pstate) ∧
    (∃ (p : Packet) (s : State),
      Accepted cardPowerState p s ∧ s.on F.PWR_STATE_TRANS = false ∧ pf p.payload 0 0 3 ≤ 4 ∧
      (pf p.payload 0 0 3 = stBrumate → (pf p.payload 0 4 3 = 2 ∨ pf p.payload 0 4 3 = 3) ∧ s.wakeArmed = true) ∧
      pf p.payload 0 0 3 ≠ s.pstate ∧ pf p.payload 0 0 3 ≠ stOff ∧ s.freeSlot? ≠ none ∧
      (pf p.payload 0 0 3 = stListen → s.listenBlocked = false)) ∧
    (∃ (p : Packet) (s : State),
      Accepted cardPowerState p s ∧ s.on F.PWR_STATE_TRANS = false ∧ pf p.payload 0 0 3 ≤ 4 ∧
      (pf p.payload 0 0 3 = stBrumate → (pf p.payload 0 4 3 = 2 ∨ pf p.payload 0 4 3 = 3) ∧ s.wakeArmed = true) ∧
      pf p.payload 0 0 3 ≠ s.pstate ∧ pf p.payload 0 0 3 = stOff) ∧
    (∃ (s : State),
      s.on F.PWR_STATE_TRANS = true ∧ s.pwr.waking = false ∧ s.pwr.halt = false ∧ s.pphase = 1 ∧ s.pstate = stPlay ∧ s.quiet = true ∧
      s.graphRuns = true) ∧
    (∃ (s : State) (e : PendEntry),
      s.on F.PWR_STATE_TRANS = true ∧ s.pwr.waking = false ∧ s.pwr.halt = false ∧ s.pphase = 1 ∧ s.pap.run = PapolRun.running ∧
      s.workFor? Target.power 1536 = some e ∧ (s.pstate = stPlay ∧ s.target = stIdle ∧ s.quiet = true ∧ s.graphRuns = false ∧
      s.gstate ≠ gsStopping ∨ s.pstate = stIdle ∧ s.target = stPlay ∨ s.pstate = stIdle ∧ s.target = stListen ∧ s.silent = true ∧
      s.on F.CTL_REG_STAT_BUSY = false ∨ s.pstate = stListen ∧ s.target = stIdle)) ∧
    (∃ (s : State),
      s.on F.PWR_STATE_TRANS = true ∧ s.pwr.waking = false ∧ s.pwr.halt = false ∧ s.pphase = 2 ∧ s.gate ≠ gtZero) ∧
    (∃ (s : State),
      s.on F.PWR_STATE_TRANS = true ∧ s.pwr.waking = false ∧ s.pwr.halt = false ∧ s.pphase = 4) ∧
    (∃ (s : State),
      s.on F.PWR_STATE_TRANS = true ∧ s.pwr.waking = false ∧ s.pwr.halt = false ∧ s.pphase = 3 ∧ s.on F.CTL_REG_STAT_BUSY = false ∧
      s.target = stOff) ∧
    (∃ (s : State),
      s.on F.PWR_STATE_TRANS = true ∧ s.pwr.waking = false ∧ s.pwr.halt = false ∧ s.pphase = 3 ∧ s.on F.CTL_REG_STAT_BUSY = false ∧
      s.target = stBrumate) ∧
    (∃ (s : State),
      s.pphase = 5) :=
  ⟨⟨pkt play 0x600 [4], play, accepted_pkt rfl (by decide +kernel), by decide +kernel⟩,
    ⟨pkt play 0x600 [0x21], (play.at4 3).set1 F.PWR_WAKECFG_WBEN, accepted_pkt rfl (by decide +kernel), by decide +kernel⟩,
    ⟨pkt play 0x600 [0], play.at4 3, accepted_pkt rfl (by decide +kernel), by decide +kernel⟩,
    ⟨((play.at4 4).wrs [(F.PWR_STATE_TRANS, 1), (F.PWR_STATE_TARGET, 3), (F.PWR_STATE_PHASE, 1)]).setGstate gsRunning, by decide +kernel⟩,
    ⟨((play.at4 4).wrs [(F.PWR_STATE_TRANS, 1), (F.PWR_STATE_TARGET, 3), (F.PWR_STATE_PHASE, 1)]).pnd (pend 0x600 [3] [.power]),
      pend 0x600 [3] [.power], by decide +kernel⟩,
    ⟨((play.at4 3).wrs [(F.PWR_STATE_TRANS, 1), (F.PWR_STATE_TARGET, 1), (F.PWR_STATE_PHASE, 2)]), by decide +kernel⟩,
    ⟨((play.at4 3).wrs [(F.PWR_STATE_TRANS, 1), (F.PWR_STATE_TARGET, 1), (F.PWR_STATE_PHASE, 4)]), by decide +kernel⟩,
    ⟨((play.at4 3).wrs [(F.PWR_STATE_TRANS, 1), (F.PWR_STATE_TARGET, 0), (F.PWR_STATE_PHASE, 3)]), by decide +kernel⟩,
    ⟨((play.at4 3).wrs [(F.PWR_STATE_TRANS, 1), (F.PWR_STATE_TARGET, 1), (F.PWR_STATE_PHASE, 3)]), by decide +kernel⟩,
    ⟨((play.at4 1).wrs [(F.PWR_STATE_TRANS, 1), (F.PWR_STATE_TARGET, 3), (F.PWR_STATE_PHASE, 5)]), by decide +kernel⟩⟩

/-- Hypotheses of WakeSourcesLatchAndDeviceWakes that concrete states and operands meet. -/
theorem witness_WakeSourcesLatchAndDeviceWakes :
    (∃ (s : State),
      s.link.cfgpar = [] ∧ s.pstate = stBrumate ∧ s.on F.PWR_WAKECFG_WBEN = true) ∧
    (∃ (s : State),
      s.link.cfgpar = [] ∧ s.pstate = stBrumate ∧ s.on F.PWR_WAKECFG_WBEN = false) ∧
    (∃ (s : State),
      s.link.cfgpar = [] ∧ s.pstate = stBrumate ∧ s.on F.PWR_WAKECFG_PTTWK = true) ∧
    (∃ (s : State),
      s.link.cfgpar = [] ∧ s.pstate = stBrumate ∧ s.on F.PWR_WAKECFG_PTTWK = false) ∧
    (∃ (s : State),
      s.link.cfgpar = [] ∧ s.pstate ≠ stBrumate) ∧
    (∃ (s : State),
      s.link.cfgpar = [] ∧ s.pstate = stBrumate ∧ s.on F.PWR_STATE_TRANS = false ∧ s.rd F.PWR_WAKESRC_SRCMAP ≠ 0) ∧
    (∃ (s : State),
      s.link.cfgpar = [] ∧ s.pstate = stBrumate ∧ s.pwr.waking = true ∧ (s.target = stIdle ∨ s.target = stListen)) ∧
    (∃ (p : Packet) (s : State),
      Accepted cardWakeCfg p s ∧ s.link.cfgpar = [] ∧ 8 ≤ pf p.payload 0 24 7 ∧ pf p.payload 0 24 7 < 120 ∧ (∀ k < 8,
      pf p.payload 1 (4 * k) 3 ≤ 5)) :=
  ⟨⟨(play.at4 1).set1 F.PWR_WAKECFG_WBEN, by decide +kernel⟩,
    ⟨(play.at4 1), by decide +kernel⟩,
    ⟨(play.at4 1).set1 F.PWR_WAKECFG_PTTWK, by decide +kernel⟩,
    ⟨(play.at4 1), by decide +kernel⟩,
    ⟨play, by decide +kernel⟩,
    ⟨(play.at4 1).wr F.PWR_WAKESRC_SRCMAP 4, by decide +kernel⟩,
    ⟨((play.at4 1).wrs [(F.PWR_STATE_TRANS, 1), (F.PWR_STATE_TARGET, 2), (F.PWR_STATE_PHASE,
      5)]).mPwr fun x => { x with waking := true }, by decide +kernel⟩,
    ⟨pkt play 0x604 [0x77000000, 0x55555555], play, accepted_pkt rfl (by decide +kernel), by decide +kernel⟩⟩

/-- Hypotheses of DomainsArePoweredOnAndOff that concrete states and operands meet. -/
theorem witness_DomainsArePoweredOnAndOff :
    (∃ (p : Packet) (s : State),
      Accepted cardPowerPermit p s ∧ s.link.cfgpar = [] ∧ pf p.payload 0 26 6 = 0) ∧
    (∃ (p : Packet) (s : State),
      Accepted cardPowerDomainOn p s ∧ s.link.cfgpar = [] ∧ 16 ≤ pf p.payload 0 0 6 ∧ pf p.payload 0 0 6 < 42 ∧
      s.lastChange? (pf p.payload 0 0 6) = none ∧ (pf p.payload 0 0 6 < 24 → s.role (pf p.payload 0 0 6 - 16) ≠ roRetired) ∧
      s.domOn (pf p.payload 0 0 6) = true) ∧
    (∃ (p : Packet) (s : State),
      Accepted cardPowerDomainOn p s ∧ s.link.cfgpar = [] ∧ 16 ≤ pf p.payload 0 0 6 ∧ pf p.payload 0 0 6 < 42 ∧
      s.lastChange? (pf p.payload 0 0 6) = none ∧ (pf p.payload 0 0 6 < 24 → s.role (pf p.payload 0 0 6 - 16) ≠ roRetired) ∧
      s.domOn (pf p.payload 0 0 6) = false ∧ s.freeSlot? ≠ none) ∧
    (∃ (p : Packet) (s : State),
      Accepted cardPowerDomainOff p s ∧ s.link.cfgpar = [] ∧ 16 ≤ pf p.payload 0 0 6 ∧ pf p.payload 0 0 6 < 42 ∧
      s.lastChange? (pf p.payload 0 0 6) = none ∧ p.force = false ∧ s.domOn (pf p.payload 0 0 6) = false) ∧
    (∃ (p : Packet) (s : State),
      Accepted cardPowerDomainOff p s ∧ s.link.cfgpar = [] ∧ 16 ≤ pf p.payload 0 0 6 ∧ pf p.payload 0 0 6 < 42 ∧
      s.lastChange? (pf p.payload 0 0 6) = none ∧ p.force = false ∧ s.domOn (pf p.payload 0 0 6) = true ∧ pf p.payload 0 0 6 ≠ dmTad ∧
      s.offDenied (pf p.payload 0 0 6) = false ∧ s.domBusy? (pf p.payload 0 0 6) = none ∧ s.freeSlot? ≠ none) ∧
    (∃ (p : Packet) (s : State) (x : Nat),
      Accepted cardPowerDomainOff p s ∧ s.link.cfgpar = [] ∧ 16 ≤ pf p.payload 0 0 6 ∧ pf p.payload 0 0 6 < 42 ∧
      s.lastChange? (pf p.payload 0 0 6) = none ∧ p.force = false ∧ s.domOn (pf p.payload 0 0 6) = true ∧
      s.offDenied (pf p.payload 0 0 6) = false ∧ s.domBusy? (pf p.payload 0 0 6) = some x) ∧
    (∃ (p : Packet) (s : State),
      Accepted cardPowerDomainOff { p with force := true } s ∧ s.link.cfgpar = [] ∧ 16 ≤ pf p.payload 0 0 6 ∧ pf p.payload 0 0 6 < 42 ∧
      s.lastChange? (pf p.payload 0 0 6) = none ∧ s.domOn (pf p.payload 0 0 6) = true ∧ pf p.payload 0 0 6 ≠ dmTad ∧
      s.offDenied (pf p.payload 0 0 6) = false ∧ s.domBusy? (pf p.payload 0 0 6) = none ∧ s.freeSlot? ≠ none) ∧
    (∃ (s : State) (dm : Fin 42) (c : DomChange),
      s.link.cfgpar = [] ∧ 16 ≤ dm.val ∧ s.pwr.changes = [c] ∧ c.domain = dm.val ∧ (∀ x ∈ s.link.stalled, x.domain ≠ dm.val)) ∧
    (∃ (s : State),
      s.link.cfgpar = [] ∧ s.pstate = stListen) ∧
    (∃ (s : State) (i : Iface),
      s.link.cfgpar = [] ∧ s.ifaceReady i = true ∧ s.on { addr := Reg.HOST_PWSTAT, lo := rgCtl, width := 1 } = false ∧
      s.link.posted = [] ∧ s.lockOpen i = true) :=
  ⟨⟨pkt play 0x601 [0x3FFFFFF], play, accepted_pkt rfl (by decide +kernel), by decide +kernel⟩,
    ⟨pkt play 0x602 [0x29], play, accepted_pkt rfl (by decide +kernel), by decide +kernel⟩,
    ⟨pkt play 0x602 [0x29], play.wr (⟨Reg.PWR_DOMSTAT, 25, 1⟩ : Field) 0, accepted_pkt rfl (by decide +kernel), by decide +kernel⟩,
    ⟨pkt play 0x603 [0x29], play.wr (⟨Reg.PWR_DOMSTAT, 25, 1⟩ : Field) 0, accepted_pkt rfl (by decide +kernel), by decide +kernel⟩,
    ⟨pkt play 0x603 [0x29], play, accepted_pkt rfl (by decide +kernel), by decide +kernel⟩,
    ⟨pkt play 0x603 [w32 (dmTdm 0)], (play.str 1 0 6 4), 3, accepted_pkt rfl (by decide +kernel), by decide +kernel⟩,
    ⟨pkt play 0x603 [0x29] false true, play, accepted_of (by decide +kernel) (by decide +kernel) (fun h => by cases h), by decide +kernel⟩,
    ⟨play.mPwr fun x => { x with changes := [⟨0x29, false, []⟩] }, 0x29, ⟨0x29, false, []⟩, by decide +kernel⟩,
    ⟨play.at4 2, by decide +kernel⟩,
    ⟨play.lk, .host, by decide +kernel⟩⟩

/-- Hypotheses of AgeingIsMeasuredAndPlannedFor that concrete states and operands meet. -/
theorem witness_AgeingIsMeasuredAndPlannedFor :
    (∃ (p : Packet) (s : State),
      Accepted cardAgeingRead p s ∧ bits (pw p.payload 0) 0 3 ≤ 6) ∧
    (∃ (p : Packet) (s : State),
      Accepted cardRepairStatus p s) ∧
    (∃ (p : Packet) (s : State),
      Accepted cardBaskRead p s) ∧
    (∃ (s : State) (n : Fin 12) (w : RingWindow),
      stListen ≤ s.pstate ∧ s.windowLost w = false ∧ s.pairOn n.val = true ∧ n.val < w.counts.length) ∧
    (∃ (isns : BitVec 12),
      (15 * ((isns.toNat : Int) - 2048).natAbs < 2048 ∨ 5 * 2048 < 2 * 15 * ((isns.toNat : Int) - 2048).natAbs)) ∧
    (∃ (s : State) (n : Fin 12) (isns : BitVec 12),
      s.phase (s.master n.val) = phPlay ∧ s.suspended = false ∧ s.inSeq (s.master n.val) = false ∧
      2048 ≤ 15 * ((isns.toNat : Int) - 2048).natAbs ∧ 2 * 15 * ((isns.toNat : Int) - 2048).natAbs ≤ 5 * 2048) ∧
    (∃ (p : Packet) (s : State) (n : Fin 12),
      Accepted cardReplan p s ∧ s.age.req = none ∧ s.master n.val = n.val ∧ s.dMax? = none ∧ bits (pw p.payload 0) 0 3 = 0) ∧
    (∃ (p : Packet) (s : State) (n : Fin 12),
      Accepted cardReplan p s ∧ s.age.req = none ∧ s.master n.val = n.val ∧ bits (pw p.payload 0) 0 3 = 1) ∧
    (∃ (s : State) (n : Fin 12),
      s.age.req = none ∧ s.master n.val = n.val ∧ (s.pstate = stIdle ∨ s.pstate = stPlay) ∧ s.planWaits = true) ∧
    (∃ (s : State) (n : Fin 12),
      s.age.req = none ∧ s.master n.val = n.val ∧ (s.pstate = stIdle ∨ s.pstate = stPlay) ∧ s.planWaits = false ∧
      s.pap.run = PapolRun.running ∧ s.dMax? = none) ∧
    (∃ (s : State) (n : Fin 12) (d : Int),
      s.age.req = none ∧ s.master n.val = n.val ∧ (s.pstate = stIdle ∨ s.pstate = stPlay) ∧ s.planWaits = false ∧
      s.pap.run = PapolRun.running ∧ s.dMax? = some d ∧ vNeed d + 40 ≤ 900 ∧ s.rd F.SAFE_AGE_STAT_VPLAN < vPlan d ∧
      s.age.exp.isSome = true ∧ s.age.blocked = false) ∧
    (∃ (s : State) (v : Nat),
      s.age.req = some v ∧ v ≤ 900) :=
  ⟨⟨pkt play 0x900 [6], play, accepted_pkt rfl (by decide +kernel), by decide +kernel⟩,
    ⟨pkt play 0x904 [], play, accepted_pkt rfl (by decide +kernel)⟩,
    ⟨pkt play 0x902 [0x80000001], play, accepted_pkt rfl (by decide +kernel)⟩,
    ⟨play, 11, ⟨List.replicate 54 (1000, 1000), 25, 25⟩, by decide +kernel⟩,
    ⟨2048, by decide +kernel⟩,
    ⟨play.ph 11 phPlay, 11, 2248, by decide +kernel⟩,
    ⟨pkt play 0x901 [0], play, 11, accepted_pkt rfl (by decide +kernel), by decide +kernel⟩,
    ⟨pkt play 0x901 [1], play, 11, accepted_pkt rfl (by decide +kernel), by decide +kernel⟩,
    ⟨play.set1 F.PWR_STATE_TRANS, 11, by decide +kernel⟩,
    ⟨play, 11, by decide +kernel⟩,
    ⟨(play.mAge fun x => { x with exp := some 0x17 }).wrs [(F.SAFE_AGE_RING_VALID 11, 1), (F.SAFE_AGE_RING_DELTA 11, 1840)], 11, 1840,
      by decide +kernel⟩,
    ⟨play.mAge fun x => { x with req := some 900 }, 900, by decide +kernel⟩⟩

/-- Hypotheses of SessionsAndFirmwareMolt that concrete states and operands meet. The image is signed with the key whose hash the ROM
holds: a hypothesis, since Config.bydoxonHash has no value (log entry 1). -/
theorem witness_SessionsAndFirmwareMolt (key : Crypto.shaWords testKey = (List.range 8).map Config.bydoxonHash) :
    (∃ (p : Packet) (s : State),
      Accepted cardSessionOpen p s ∧ s.on F.CTL_SEC_STAT_LOCKOUT = false ∧ Crypto.onCurve (List.take 16 (List.drop 1 p.payload)) = true ∧
      s.lifecycle ≠ 3 ∧ Free s [Target.session]) ∧
    (∃ (s : State),
      s.atWork? 2048 = none) ∧
    (∃ (s : State) (e : PendEntry),
      s.atWork? 2048 = some e) ∧
    (∃ (p : Packet) (s : State),
      Accepted cardSessionClose p s) ∧
    (∃ (s : State),
      s.sec.idleto = 0) ∧
    (∃ (s : State),
      s.sec.idleto ≠ 0) ∧
    (∃ (s : State),
      s.rd F.CTL_SEC_CNT_CONSEC < 8) ∧
    (∃ (s : State),
      8 ≤ s.rd F.CTL_SEC_CNT_CONSEC) ∧
    (∃ (p : Packet) (s : State),
      Accepted cardFwMolt p s ∧ (s.admitted cardFwMolt p).spanOn (pf p.payload 0 2 19 * 4) (pf p.payload 1 0 21) = true ∧
      List.find? (fun e => moltBusy.contains e.opcode) s.pap.slots = none ∧ Free s [Target.firmware] ∧ s.on F.PWR_STATE_TRANS = false ∧
      (s.admitted cardFwMolt p).poisonIn (pf p.payload 0 2 19 * 4) (pf p.payload 1 0 21) = [] ∧ (s.admitted cardFwMolt p).bootErr
      ((s.admitted cardFwMolt p).words (8388608 + pf p.payload 0 2 19 * 4) (pf p.payload 1 0 21 / 4)) (pf p.payload 1 0 21) = 0 ∧
      imgHinMin ((s.admitted cardFwMolt p).words (8388608 + pf p.payload 0 2 19 * 4) (pf p.payload 1 0 21 / 4)) ≤ s.sec.hout ∧
      s.sec.hout ≤ imgHout ((s.admitted cardFwMolt p).words (8388608 + pf p.payload 0 2 19 * 4) (pf p.payload 1 0 21 / 4)) ∧
      (pw p.payload 2 = 0 ∨
      pw p.payload 2 = imgVersion ((s.admitted cardFwMolt p).words (8388608 + pf p.payload 0 2 19 * 4) (pf p.payload 1 0 21 / 4)))) ∧
    (∃ (s : State) (e : PendEntry),
      (∀ f ∈ s.pap.slots, ∀ (d : DoneRec), f.done = some d → d.key = none) ∧ s.pap.run = PapolRun.molting ∧ s.atWork? 2050 = some e ∧
      s.poisonIn (pf e.payload 0 2 19 * 4) (pf e.payload 1 0 21) = []) ∧
    (∃ (s : State),
      s.pap.run ≠ PapolRun.molting) :=
  ⟨⟨pkt play 0x800 (5 :: testKey), play, accepted_pkt rfl (by decide +kernel), by decide +kernel, by decide +kernel, by decide +kernel,
      free_of (by decide +kernel)⟩,
    ⟨play, by decide +kernel⟩,
    ⟨play.pnd (pend 0x800 (5 :: List.replicate 16 7) [.session]), pend 0x800 (5 :: List.replicate 16 7) [.session], by decide +kernel⟩,
    ⟨pkt play 0x801 [] true, play, accepted_auth [1, 2] rfl rfl rfl (by decide +kernel)⟩,
    ⟨play.mSec fun x => { x with idleto := 0 }, by decide +kernel⟩,
    ⟨play.mSec fun x => { x with idleto := 4 }, by decide +kernel⟩,
    ⟨play.wr F.CTL_SEC_CNT_CONSEC 7, by decide +kernel⟩,
    ⟨play.wr F.CTL_SEC_CNT_CONSEC 8, by decide +kernel⟩,
    ⟨pkt play 0x802 [0x40000, 204, 0] true, (play.putImg 0x40000 papolWords).at4 3, by
      have h1 : pf (pkt play 0x802 [0x40000, 204, 0] true).payload 0 2 19 * 4 = 0x40000 := by decide +kernel
      have h2 : pf (pkt play 0x802 [0x40000, 204, 0] true).payload 1 0 21 = 204 := by decide +kernel
      have hw : (((play.putImg 0x40000 papolWords).at4 3).admitted cardFwMolt (pkt play 0x802 [0x40000, 204, 0] true)).words
          (8388608 + 0x40000) (204 / 4) = papolWords :=
        (words_admitted _ _ _ _ _ (not_ring_byte (by decide +kernel) (by decide +kernel))).trans (by decide +kernel)
      rw [h1, h2, hw]
      exact ⟨accepted_auth [1, 2] rfl rfl rfl (by decide +kernel), by decide +kernel, by decide +kernel, free_of (by decide +kernel),
        by decide +kernel, by decide +kernel, bootErr_of _ papolSigned rfl key (by decide +kernel), by decide +kernel⟩⟩,
    ⟨(play.mPap fun x => { x with run := .molting }).pnd (pend 0x802 [0x40000, 204, 0] [.firmware]), pend 0x802 [0x40000, 204,
      0] [.firmware], (fun f h d e => by fin_cases h; cases e), by decide +kernel⟩,
    ⟨play, by decide +kernel⟩⟩

/-- Hypotheses of DeviceAttestsAndDebugPortOpens that concrete states and operands meet. -/
theorem witness_DeviceAttestsAndDebugPortOpens :
    (∃ (p : Packet) (s : State),
      Accepted cardAttest p s ∧ Free s [Target.attest]) ∧
    (∃ (s : State),
      s.atWork? 2051 = none) ∧
    (∃ (s : State),
      s.atWork? 2053 = none) ∧
    (∃ (s : State) (e : PendEntry),
      s.atWork? 2051 = some e) ∧
    (∃ (s : State) (e : PendEntry),
      s.atWork? 2053 = some e) ∧
    (∃ (p : Packet) (s : State),
      Accepted cardDebugChallenge p s) ∧
    (∃ (p : Packet) (s : State),
      Accepted cardDebugUnlock p s ∧ s.on F.CTL_SEC_STAT_DBGOPEN = true) ∧
    (∃ (p : Packet) (s : State) (n : List Word),
      Accepted cardDebugUnlock p s ∧ Free s [Target.debug] ∧ s.on F.CTL_SEC_STAT_DBGOPEN = false ∧ s.on F.CTL_SEC_STAT_DBGDIS = false ∧
      s.sec.nonce = some n) ∧
    (∃ (p : Packet) (s : State),
      Accepted cardDebugUnlock p s ∧ s.on F.CTL_SEC_STAT_DBGOPEN = false ∧ s.on F.CTL_SEC_STAT_DBGDIS = true) :=
  ⟨⟨pkt play 0x803 (List.replicate 8 3), play, accepted_pkt rfl (by decide +kernel), free_of (by decide +kernel)⟩,
    ⟨play, by decide +kernel⟩,
    ⟨play, by decide +kernel⟩,
    ⟨play.pnd (pend 0x803 (List.replicate 8 3) [.attest]), pend 0x803 (List.replicate 8 3) [.attest], by decide +kernel⟩,
    ⟨play.pnd (pend 0x805 (List.replicate 16 0) [.debug]), pend 0x805 (List.replicate 16 0) [.debug], by decide +kernel⟩,
    ⟨pkt play 0x804 [], play.at4 3, accepted_pkt rfl (by decide +kernel)⟩,
    ⟨pkt play 0x805 (List.replicate 16 0), (play.at4 3).set1 F.CTL_SEC_STAT_DBGOPEN, accepted_pkt rfl (by decide +kernel),
      by decide +kernel⟩,
    ⟨pkt play 0x805 (List.replicate 16 0), ((play.at4 3).mSec fun x => { x with nonce := some [1, 2] }).wr F.CTL_SEC_STAT_DBGOPEN 0, [1,
      2], accepted_pkt rfl (by decide +kernel), free_of (by decide +kernel), by decide +kernel⟩,
    ⟨pkt play 0x805 (List.replicate 16 0), (play.at4 3).wrs [(F.CTL_SEC_STAT_DBGOPEN, 0), (F.CTL_SEC_STAT_DBGDIS, 1)],
      accepted_pkt rfl (by decide +kernel), by decide +kernel⟩⟩

/-- Hypotheses of FusesAndLifecycleAreProgrammed that concrete states and operands meet. -/
theorem witness_FusesAndLifecycleAreProgrammed :
    (∃ (p : Packet) (s : State),
      Accepted cardFuseProgram p s ∧ Free s [Target.fuses] ∧ fuseAllowed s.lifecycle (pf p.payload 0 0 6) = true ∧
      pw p.payload 2 = ~~~pw p.payload 1 ∧ (44 ≤ pf p.payload 0 0 6 → pf p.payload 0 0 6 ≤ 47 → contiguous (s.rollValue (pf p.payload 0 0
      6) (s.fuseNow (pf p.payload 0 0 6) ||| pw p.payload 1)) = true ∧ Option.all (fun r => decide (r < countOf (s.rollValue (pf p.payload
      0 0 6) (s.fuseNow (pf p.payload 0 0 6) ||| pw p.payload 1)))) (s.runningRoll? (pf p.payload 0 0 6)) = false) ∧
      (pf p.payload 0 0 6 = 3 → s.revokesAll (s.fuseNow (pf p.payload 0 0 6) ||| pw p.payload 1) = false)) ∧
    (∃ (p : Packet) (s : State),
      Accepted cardLifecycleAdvance p s ∧ Free s [Target.fuses] ∧ pf p.payload 0 16 16 = 49601 ∧ (pf p.payload 0 0 4 = 2 ∧
      s.lifecycle = 1 ∧ ((s.fuseWords 20 8).all fun x => decide (x = 0)) = false ∧ (s.rootProgrammed 0 = true ∨
      s.rootProgrammed 1 = true) ∨ pf p.payload 0 0 4 = 3 ∧ s.lifecycle = 2)) ∧
    (∃ (s : State) (e : PendEntry),
      s.atWork? 2054 = some e) ∧
    (∃ (s : State) (e : PendEntry),
      s.atWork? 2055 = some e) :=
  ⟨⟨pkt play 0x806 [44, 1, ~~~1] true, (play.at4 3).mPap fun x => { x with roll := 1 }, accepted_auth [1,
      2] rfl rfl rfl (by decide +kernel), free_of (by decide +kernel), by decide +kernel⟩,
    ⟨pkt play 0x807 [0xC1C10003] true, (play.at4 3).wr F.CTL_SEC_STAT_LC 2, accepted_auth [1, 2] rfl rfl rfl (by decide +kernel),
      free_of (by decide +kernel), by decide +kernel⟩,
    ⟨play.pnd (pend 0x806 [5, 7, ~~~7] [.fuses]), pend 0x806 [5, 7, ~~~7] [.fuses], by decide +kernel⟩,
    ⟨play.pnd (pend 0x807 [0xC1C10002] [.fuses]), pend 0x807 [0xC1C10002] [.fuses], by decide +kernel⟩⟩

/-- Hypotheses of ResetPulsesResetTheDevice that concrete states and operands meet. -/
theorem witness_ResetPulsesResetTheDevice :
    (∃ (ns : Nat),
      ns < 1000) ∧
    (∃ (ns : Nat),
      10000 ≤ ns) ∧
    (∃ (ns : Nat),
      1000 ≤ ns ∧ ns < 10000) ∧
    (∃ (s : State),
      s.pap.resetDue = true ∧ s.silent = true) ∧
    (∃ (s : State),
      (s.pap.resetDue = false ∨ s.silent = false)) ∧
    (∃ (s : State) (p : Packet),
      Accepted cardSysReset p s ∧ pf p.payload 0 0 16 = 41244) ∧
    (∃ (i : Nat),
      i < 64 ∧ secretWord i = false) ∧
    (∃ (i : Nat),
      i < 64 ∧ secretWord i = true) :=
  ⟨⟨999, by decide +kernel⟩,
    ⟨10000, by decide +kernel⟩,
    ⟨9999, by decide +kernel⟩,
    ⟨play.mPap fun x => { x with resetDue := true }, by decide +kernel⟩,
    ⟨play, by decide +kernel⟩,
    ⟨play.at4 3, pkt play 0x6 [0xA11C] true, accepted_auth [1, 2] rfl rfl rfl (by decide +kernel), by decide +kernel⟩,
    ⟨63, by decide +kernel⟩,
    ⟨57, by decide +kernel⟩⟩

/-- Hypotheses of BootVerifiesAndStarts that concrete states and operands meet. The image is signed with the key whose hash the ROM
holds: a hypothesis, since Config.bydoxonHash has no value (log entry 1). -/
theorem witness_BootVerifiesAndStarts (key : Crypto.shaWords testKey = (List.range 8).map Config.bydoxonHash) :
    (∃ (b : BootScan) (s : State),
      s.pap.boot = BootPhase.begin ∧ s.pap.run = PapolRun.off ∧ b.testmode = true) ∧
    (∃ (b : BootScan) (s : State),
      s.pap.boot = BootPhase.begin ∧ s.pap.run = PapolRun.off ∧ b.testmode = false ∧ (scanRetires b 0 = true ∨ b.madcs = 3)) ∧
    (∃ (b : BootScan) (s : State),
      s.pap.boot = BootPhase.begin ∧ s.pap.run = PapolRun.off ∧ b.testmode = false ∧ scanRetires b 0 = false ∧ b.madcs ≠ 3 ∧
      b.bootsel = true) ∧
    (∃ (b : BootScan) (s : State),
      s.pap.boot = BootPhase.begin ∧ s.pap.run = PapolRun.off ∧ b.testmode = false ∧ scanRetires b 0 = false ∧ b.madcs ≠ 3 ∧
      b.bootsel = false ∧ b.slotB = none ∧ b.slotA = none) ∧
    (∃ (b : BootScan) (s : State) (img : List Word),
      b.slotA = some img ∧ s.bootErr img (4 * img.length) = 0 ∧ s.pap.boot = BootPhase.begin ∧ s.pap.run = PapolRun.off ∧
      b.testmode = false ∧ scanRetires b 0 = false ∧ b.madcs ≠ 3 ∧ b.bootsel = false ∧ b.slotB = none) ∧
    (∃ (s : State) (i : Iface) (len : BitVec 18) (u : State),
      u.bootErr (u.words 8519680 (len.toNat / 4)) len.toNat = 0 ∧ s.pap.boot = BootPhase.begin ∧ s.pap.run = PapolRun.off ∧
      u.pap.boot = BootPhase.waiting ∧ u.pap.run = PapolRun.off ∧ u.ifaceReady i = true ∧ u.on F.CTL_BOOT_STAT_WAITIMG = true ∧
      u.poisonIn 131072 len.toNat = [] ∧ u.cfgHit Reg.CTL_BOOT_CTRL = false) ∧
    (∃ (s : State) (i : Iface) (len : BitVec 18) (u : State),
      s.pap.boot = BootPhase.begin ∧ s.pap.run = PapolRun.off ∧ u.pap.boot = BootPhase.waiting ∧ u.pap.run = PapolRun.off ∧
      u.ifaceReady i = true ∧ u.on F.CTL_BOOT_STAT_WAITIMG = true ∧ u.poisonIn 131072 len.toNat = [] ∧
      u.cfgHit Reg.CTL_BOOT_CTRL = false ∧ u.bootErr (u.words 8519680 (len.toNat / 4)) len.toNat ≠ 0) :=
  ⟨⟨⟨false, 0, false, false, true, 4800, [], [], 0, 0, 0, none, none, none⟩, State.reset, by decide +kernel⟩,
    ⟨⟨false, 0, false, false, false, 4800, [], [], 0, 0, 3, none, none, none⟩, State.reset, by decide +kernel⟩,
    ⟨⟨false, 0, true, false, false, 4800, [], [], 2, 0, 2, none, none, none⟩, State.reset, by decide +kernel⟩,
    ⟨⟨false, 0, false, false, false, 4800, [], [], 2, 0, 0, none, none, none⟩, State.reset, by decide +kernel⟩,
    ⟨⟨false, 0, false, false, false, 4800, [], [], 2, 0, 1, some papolWords, none, none⟩, State.reset, papolWords, rfl,
      bootErr_of _ papolSigned rfl key (by decide +kernel), by decide +kernel⟩,
    ⟨State.reset, .host, 204, waiting, by
      have hw : waiting.words 8519680 ((204 : BitVec 18).toNat / 4) = papolWords := by decide +kernel
      rw [hw]
      exact ⟨bootErr_of _ papolSigned rfl key (by decide +kernel), by decide +kernel⟩⟩,
    ⟨State.reset, .host, 0, ((play.set1 F.CTL_BOOT_STAT_WAITIMG).mPap fun x => { x with run := .off, boot := .waiting }),
      by decide +kernel⟩⟩

end Sys2Proof.Machine

end
end

section
/-!
# The state that reset leaves

What the registers hold once the fuses are loaded (spec/16_security.md, R700 to R707), and what else reset keeps.
-/

namespace Sys2Proof.Machine

/-! ## Operations that write registers alone -/

/-- Nothing differs but the registers that `p` names. -/
structure RegsOnly (p : Nat → Prop) (s t : State) : Prop where
  regs : ∀ a, ¬ p a → t.reg a = s.reg a
  rest : { t with regs := s.regs } = s

theorem RegsOnly.refl (p : Nat → Prop) (s : State) : RegsOnly p s s := ⟨fun _ _ => rfl, rfl⟩

theorem RegsOnly.trans {p : Nat → Prop} {s t u : State} (h : RegsOnly p s t) (k : RegsOnly p t u) : RegsOnly p s u := by
  refine ⟨fun a n => (k.regs a n).trans (h.regs a n), ?_⟩
  have e := congrArg (fun v : State => { v with regs := s.regs }) k.rest
  exact e.trans h.rest

theorem RegsOnly.mono {p q : Nat → Prop} {s t : State} (h : RegsOnly p s t) (pq : ∀ a, p a → q a) : RegsOnly q s t :=
  ⟨fun a n => h.regs a fun x => n (pq a x), h.rest⟩

theorem RegsOnly.setReg {p : Nat → Prop} (s : State) {a : Nat} (w : Word) (h : p a) : RegsOnly p s (s.setReg a w) :=
  ⟨fun _ n => State.reg_setReg_ne s w fun e => n (e ▸ h), rfl⟩

theorem RegsOnly.wr {p : Nat → Prop} {s t : State} {f : Field} {v : Nat} (h : RegsOnly p s t) (hf : p f.addr) :
    RegsOnly p s (t.wr f v) :=
  h.trans (.setReg t _ hf)

theorem RegsOnly.ite {p : Nat → Prop} {s t u : State} {c : Prop} [Decidable c] (h : RegsOnly p s t) (k : RegsOnly p s u) :
    RegsOnly p s (if c then t else u) := by
  split
  · exact h
  · exact k

theorem RegsOnly.forEach {p : Nat → Prop} {f : Nat → State → State} : ∀ (n : Nat) (s : State),
    (∀ i x, i < n → RegsOnly p x (f i x)) → RegsOnly p s (forEach f n s)
  | 0, s, _ => .refl p s
  | n + 1, s, h => (RegsOnly.forEach n s fun i x hi => h i x (Nat.lt_succ_of_lt hi)).trans (h n _ (Nat.lt_succ_self n))

/-- What depends on no register stays. -/
theorem RegsOnly.congr {α : Type} {p : Nat → Prop} {s t : State} (h : RegsOnly p s t) (f : State → α)
    (hf : ∀ u : State, f { u with regs := s.regs } = f u) : f t = f s :=
  (hf t).symm.trans (congrArg f h.rest)

theorem RegsOnly.sec {p : Nat → Prop} {s t : State} (h : RegsOnly p s t) : t.sec = s.sec := h.congr State.sec fun _ => rfl

theorem RegsOnly.rd {p : Nat → Prop} {s t : State} (h : RegsOnly p s t) (f : Field) (n : ¬ p f.addr) : t.rd f = s.rd f := by
  unfold State.rd; rw [h.regs _ n]

/-! ## The registers that the fuses give -/

/-- The registers of the fuse words, secret ones 0 (spec/16_security.md, R704, R705). -/
def State.withFuseWords (s : State) : State :=
  forEach (fun w s => s.setReg (Reg.CTL_FUSE w) (if secretWord w then 0 else s.fuse w)) 64 s

/-- The lifecycle and the debug port in CTL_SEC_STAT (spec/16_security.md, R700, R701). -/
def State.withLifecycle (s : State) (lc : Nat) (dis : Bool) : State :=
  (((s.wr F.CTL_SEC_STAT_LC lc).wr F.CTL_SEC_STAT_LCNEXT lc).wr F.CTL_SEC_STAT_DBGOPEN (b2n (portOpen lc dis))).wr
    F.CTL_SEC_STAT_DBGDIS (b2n dis)

theorem withFuseWords_regs (s : State) : RegsOnly (fun a => 0x700 ≤ a ∧ a < 0x800) s s.withFuseWords :=
  .forEach 64 s fun w x hw => .setReg x _ ⟨Nat.le_add_right _ _, by unfold Reg.CTL_FUSE; omega⟩

theorem fuse_congr {s t : State} (h : t.sec = s.sec) (i : Nat) : t.fuse i = s.fuse i := by unfold State.fuse; rw [h]

/-- The registers of the first `n` fuse words once they are written. -/
theorem forEach_fuse_reg (s : State) : ∀ (n i : Nat), i < n →
    (forEach (fun w s => s.setReg (Reg.CTL_FUSE w) (if secretWord w then 0 else s.fuse w)) n s).reg (Reg.CTL_FUSE i)
      = if secretWord i then 0 else s.fuse i
  | 0, _, h => absurd h (Nat.not_lt_zero _)
  | n + 1, i, h => by
    show (State.setReg _ (Reg.CTL_FUSE n) _).reg (Reg.CTL_FUSE i) = _
    rcases Nat.lt_succ_iff_lt_or_eq.1 h with hi | rfl
    · rw [State.reg_setReg_ne _ _ (by unfold Reg.CTL_FUSE; omega)]
      exact forEach_fuse_reg s n i hi
    · have e : RegsOnly (fun _ => True) s
          (forEach (fun w s => s.setReg (Reg.CTL_FUSE w) (if secretWord w then 0 else s.fuse w)) i s) :=
        .forEach i s fun w x _ => .setReg x _ trivial
      rw [State.reg_setReg_same, fuse_congr e.sec]

theorem withFuseWords_reg (s : State) {i : Nat} (h : i < 64) :
    s.withFuseWords.reg (Reg.CTL_FUSE i) = if secretWord i then 0 else s.fuse i := forEach_fuse_reg s 64 i h

theorem withLifecycle_regs (s : State) (lc : Nat) (dis : Bool) : RegsOnly (fun a => a = Reg.CTL_SEC_STAT) s (s.withLifecycle lc dis) :=
  .wr (.wr (.wr (.wr (.refl _ s) rfl) rfl) rfl) rfl

theorem withLifecycle_lc (s : State) {lc : Nat} (dis : Bool) (h : lc < 16) : (s.withLifecycle lc dis).rd F.CTL_SEC_STAT_LC = lc := by
  unfold State.withLifecycle
  rw [State.rd_wr_apart _ _ (by decide) (by decide), State.rd_wr_apart _ _ (by decide) (by decide),
    State.rd_wr_apart _ _ (by decide) (by decide), State.rd_wr_same _ _ (by decide)]
  exact Nat.mod_eq_of_lt h

theorem showRoll_regs (s : State) : RegsOnly (fun a => a = Reg.CTL_SEC_ROLL) s s.showRoll :=
  .wr (.wr (.wr (.refl _ s) rfl) rfl) rfl

/-- The fused floors and ceilings bind fields of the banks above the CTL block alone (spec/16_security.md, R706, R707). -/
theorem fuseBound_regs (s : State) : RegsOnly (fun a => 0x800 ≤ a) s s.fuseBound := by
  unfold State.fuseBound
  extract_lets b s1 s2 s3 fl s4 s5
  have h1 : RegsOnly (fun a => 0x800 ≤ a) s s1 := .wr (.refl _ s) (by decide)
  have h2 : RegsOnly (fun a => 0x800 ≤ a) s s2 := .ite (.wr h1 (by decide)) h1
  have h3 : RegsOnly (fun a => 0x800 ≤ a) s s3 := .ite (.wr h2 (by decide)) h2
  have h4 : RegsOnly (fun a => 0x800 ≤ a) s s4 := .wr (.wr h3 (by decide)) (by decide)
  have h5 : RegsOnly (fun a => 0x800 ≤ a) s s5 := h4.trans <| .forEach 12 s4 fun n x _ =>
    .wr (.wr (.refl _ x) (Nat.le_add_right_of_le (by decide))) (Nat.le_add_right_of_le (by decide))
  exact h5.trans <| .forEach 3 s5 fun g x _ => .wr (.refl _ x) (Nat.le_add_right_of_le (by decide))

/-- After the fuse words and the lifecycle, the fuses give CTL_SEC_ROLL and registers above the CTL block. -/
theorem fuseRegs_regs (s : State) : RegsOnly (fun a => a = Reg.CTL_SEC_ROLL ∨ 0x800 ≤ a)
    (s.withFuseWords.withLifecycle (lcOf (s.fuse 0)) (bit (s.fuse 3) 3)) s.fuseRegs := by
  unfold State.fuseRegs
  extract_lets lc dis a b s1 s2 s3 s4
  have h2 : RegsOnly (fun a => a = Reg.CTL_SEC_ROLL ∨ 0x800 ≤ a) s2 s2.showRoll := (showRoll_regs s2).mono fun _ => .inl
  have h3 : RegsOnly (fun a => a = Reg.CTL_SEC_ROLL ∨ 0x800 ≤ a) s2 s3 :=
    .wr (.wr (.wr (.wr h2 (by decide)) (by decide)) (by decide)) (by decide)
  have h4 : RegsOnly (fun a => a = Reg.CTL_SEC_ROLL ∨ 0x800 ≤ a) s2 s4 := .wr (.wr (.wr h3 (by decide)) (by decide)) (by decide)
  exact h4.trans ((fuseBound_regs s4).mono fun _ => .inr)

theorem lcOf_lt (w : Word) : lcOf w < 16 :=
  calc lcOf w ≤ (List.range 3).length := List.length_filter_le _ _
    _ < 16 := by decide

/-! ## The state that reset leaves -/

/-- What reset keeps, before the registers take up the fuses and the pins: the fuses (spec/16_security.md, R704), the levels of the pins
(log entry 36), the draws, the queue. -/
def State.kept (s : State) : State :=
  let z := State.reset
  { z with
    sec := { z.sec with fuses := s.sec.fuses, shadow := s.sec.fuses }
    pwr := { z.pwr with gpio := s.pwr.gpio, iov := s.pwr.iov }
    out := { z.out with muteLow := s.out.muteLow }
    hpcv := { z.hpcv with clrLow := s.hpcv.clrLow }
    draw := s.draw, pending := s.pending }

/-- After the fuses, reset puts back the straps and what shows the pins. -/
theorem fresh_fuseRegs (s : State) : RegsOnly (fun a => a = Reg.CTL_SYS_STRAP ∨ 0x800 ≤ a) s.kept.fuseRegs s.fresh :=
  .wr (.wr (.setReg s.kept.fuseRegs _ (.inl rfl)) (.inr (by decide))) (.inr (by decide))

/-- The registers below 0x800 that reset gives after the fuse words and the lifecycle are CTL_SEC_ROLL and the straps. -/
theorem fresh_withLifecycle (s : State) : RegsOnly (fun a => a = Reg.CTL_SEC_ROLL ∨ a = Reg.CTL_SYS_STRAP ∨ 0x800 ≤ a)
    (s.kept.withFuseWords.withLifecycle (lcOf (s.kept.fuse 0)) (bit (s.kept.fuse 3) 3)) s.fresh :=
  ((fuseRegs_regs s.kept).mono fun _ h => h.imp_right .inr).trans ((fresh_fuseRegs s).mono fun _ => .inr)

/-- Reset leaves what it keeps, beside the registers. -/
theorem fresh_kept (s : State) : RegsOnly (fun _ => True) s.kept s.fresh := by
  have h1 : RegsOnly (fun _ => True) s.kept s.kept.withFuseWords := (withFuseWords_regs s.kept).mono fun _ _ => trivial
  have h2 := h1.trans ((withLifecycle_regs _ (lcOf (s.kept.fuse 0)) (bit (s.kept.fuse 3) 3)).mono fun _ _ => trivial)
  exact h2.trans ((fresh_withLifecycle s).mono fun _ _ => trivial)

theorem fresh_pending (s : State) : s.fresh.pending = s.pending := (fresh_kept s).congr State.pending fun _ => rfl

theorem fresh_sec (s : State) : s.fresh.sec = { State.reset.sec with fuses := s.sec.fuses, shadow := s.sec.fuses } :=
  (fresh_kept s).congr State.sec fun _ => rfl

theorem fresh_pwr (s : State) : s.fresh.pwr = { State.reset.pwr with gpio := s.pwr.gpio, iov := s.pwr.iov } :=
  (fresh_kept s).congr State.pwr fun _ => rfl

theorem fresh_out (s : State) : s.fresh.out = { State.reset.out with muteLow := s.out.muteLow } :=
  (fresh_kept s).congr State.out fun _ => rfl

theorem fresh_hpcv (s : State) : s.fresh.hpcv = { State.reset.hpcv with clrLow := s.hpcv.clrLow } :=
  (fresh_kept s).congr State.hpcv fun _ => rfl

/-- A state with the registers, the fuses, the pins, the draws and the queue of `State.reset`. -/
def State.likeReset (s : State) : State :=
  let z := State.reset
  { s with regs := z.regs, sec := z.sec, pwr := z.pwr, out := z.out, hpcv := z.hpcv, draw := z.draw, pending := z.pending }

/-- Beside these, reset leaves `State.reset`. -/
theorem fresh_likeReset (s : State) : s.fresh.likeReset = State.reset := (fresh_kept s).congr State.likeReset fun _ => rfl

/-- The straps show as they were until BOOT samples them anew (spec/02_package_supplies.md, R72). -/
theorem fresh_strap (s : State) : s.fresh.reg Reg.CTL_SYS_STRAP = s.reg Reg.CTL_SYS_STRAP := by
  unfold State.fresh
  rw [State.reg_wr_ne _ _ (by decide), State.reg_wr_ne _ _ (by decide), State.reg_setReg_same]

theorem fresh_lifecycle (s : State) : s.fresh.lifecycle = lcOf (vat s.sec.fuses 0) := by
  unfold State.lifecycle
  rw [(fresh_withLifecycle s).rd _ (by decide), withLifecycle_lc _ _ (lcOf_lt _)]
  rfl

theorem fresh_fuse (s : State) {i : Nat} (h : i < 64) :
    s.fresh.reg (Reg.CTL_FUSE i) = if secretWord i then 0 else vat s.sec.fuses i := by
  have ne : ¬ (Reg.CTL_FUSE i = Reg.CTL_SEC_ROLL ∨ Reg.CTL_FUSE i = Reg.CTL_SYS_STRAP ∨ 0x800 ≤ Reg.CTL_FUSE i) := by
    unfold Reg.CTL_FUSE Reg.CTL_SEC_ROLL Reg.CTL_SYS_STRAP; omega
  rw [(fresh_withLifecycle s).regs _ ne, (withLifecycle_regs _ _ _).regs _ (by unfold Reg.CTL_FUSE Reg.CTL_SEC_STAT; omega),
    withFuseWords_reg _ h]
  rfl

end Sys2Proof.Machine
end

section
/-!
# SYS_RESET: the outputs run down before the device resets (spec/04_command_protocol.md, R194)

Every operation of the run-down meets one relation, `RunsDown`. A pending command that the run-down ends does so with ST_OK; so even one
that shares its ring and CSEQ with the SYS_RESET leaves the journaled ST_OK of the SYS_RESET standing.
-/

namespace Sys2Proof.Machine

/-! ## What running an output down leaves alone -/

/-- What holds between a state and one in which outputs run down: the fuses and the memory outside the rings stay, no session opens,
the replies that wait and a reset that is due stay, and a journaled answer of ST_OK stands. -/
structure RunsDown (s t : State) : Prop where
  rings : t.rings = s.rings
  bytes : SameBytesBut (papolByte s) s t
  fuses : t.sec.fuses = s.sec.fuses
  sess  : s.on F.CTL_SEC_STAT_SESS = false → t.on F.CTL_SEC_STAT_SESS = false
  held  : t.pap.held = s.pap.held
  due   : t.pap.resetDue = s.pap.resetDue
  reply : ∀ c p, Replied s c p stsOk 0 [] → Replied t c p stsOk 0 []

theorem RunsDown.trans {s t u : State} (h : RunsDown s t) (k : RunsDown t u) : RunsDown s u where
  rings := k.rings.trans h.rings
  bytes := fun a n => (k.bytes a (by rw [papolByte_congr h.rings]; exact n)).trans (h.bytes a n)
  fuses := k.fuses.trans h.fuses
  sess := fun e => k.sess (h.sess e)
  held := k.held.trans h.held
  due := k.due.trans h.due
  reply := fun c p r => k.reply c p (h.reply c p r)

/-- An update that touches none of what `RunsDown` speaks of. -/
theorem RunsDown.same {s t : State} (rings : t.rings = s.rings) (mem : t.mem = s.mem) (fuses : t.sec.fuses = s.sec.fuses)
    (stat : t.rd F.CTL_SEC_STAT_SESS = s.rd F.CTL_SEC_STAT_SESS) (held : t.pap.held = s.pap.held)
    (due : t.pap.resetDue = s.pap.resetDue) (replies : t.pap.replies = s.pap.replies) : RunsDown s t where
  rings := rings
  bytes := fun a _ => State.byte_congr mem a
  fuses := fuses
  sess := fun e => by unfold State.on at *; rw [stat]; exact e
  held := held
  due := due
  reply := fun _ _ r => r.congr replies

theorem RunsDown.refl (s : State) : RunsDown s s := .same rfl rfl rfl rfl rfl rfl rfl

/-- An update of the speaker, headphone and line outputs, the load tests, the fault records or the draws. -/
theorem RunsDown.upd {s t : State} {spks : Vector SpkX 12} {groups : Vector GroupX 3} {out : OutX} {diag : DiagX}
    {hp : Vector HpX 2} {hpcv : HpCvX} {saf : Saf} {draw : Nat} (h : RunsDown s t) :
    RunsDown s { t with spks := spks, groups := groups, out := out, diag := diag, hp := hp, hpcv := hpcv, saf := saf, draw := draw } :=
  h.trans (.same rfl rfl rfl rfl rfl rfl rfl)

/-- A write of a register above CTL_SEC_STAT. -/
theorem RunsDown.setReg (s : State) {a : Nat} (w : Word) (h : Reg.CTL_SEC_STAT < a) : RunsDown s (s.setReg a w) :=
  .same rfl rfl rfl (State.rd_setReg_ne s w h.ne) rfl rfl rfl

theorem RunsDown.wr {s t : State} {f : Field} {v : Nat} (h : RunsDown s t) (hf : Reg.CTL_SEC_STAT < f.addr) :
    RunsDown s (t.wr f v) :=
  h.trans (.setReg t _ hf)

theorem RunsDown.ite {s t u : State} {c : Prop} [Decidable c] (h : RunsDown s t) (k : RunsDown s u) :
    RunsDown s (if c then t else u) := by
  split
  · exact h
  · exact k

theorem RunsDown.forEach {f : Nat → State → State} (h : ∀ i x, RunsDown x (f i x)) : ∀ (n : Nat) (s : State),
    RunsDown s (forEach f n s)
  | 0, s => .refl s
  | n + 1, s => (RunsDown.forEach h n s).trans (h n _)

theorem RunsDown.foldl {α : Type} {f : State → α → State} (h : ∀ x a, RunsDown x (f x a)) : ∀ (l : List α) (s : State),
    RunsDown s (l.foldl f s)
  | [], s => .refl s
  | a :: l, s => (h s a).trans (RunsDown.foldl h l _)

theorem modSpk_runsDown (s : State) (n : Nat) (f : SpkX → SpkX) : RunsDown s (s.modSpk n f) := .upd (.refl s)

theorem modGrp_runsDown (s : State) (g : Nat) (f : GroupX → GroupX) : RunsDown s (s.modGrp g f) := .upd (.refl s)

theorem modOut_runsDown (s : State) (f : OutX → OutX) : RunsDown s (s.modOut f) := .upd (.refl s)

theorem modHp_runsDown (s : State) (o : Nat) (f : HpX → HpX) : RunsDown s (s.modHp o f) := .upd (.refl s)

/-! ## Events -/

/-- The replies that wait and a reset that is due stay. -/
def WaitsKept (s t : State) : Prop := t.pap.held = s.pap.held ∧ t.pap.resetDue = s.pap.resetDue

theorem WaitsKept.trans {s t u : State} (h : WaitsKept s t) (k : WaitsKept t u) : WaitsKept s u :=
  ⟨k.1.trans h.1, k.2.trans h.2⟩

theorem trimEvents_waits : ∀ (n : Nat) (s : State), WaitsKept s (s.trimEvents n)
  | 0, _ => ⟨rfl, rfl⟩
  | n + 1, s => by
    have key : ∀ u : State, WaitsKept s u → WaitsKept s (u.trimEvents n) := fun u h => h.trans (trimEvents_waits n u)
    unfold State.trimEvents
    split
    · exact ⟨rfl, rfl⟩
    · split
      · exact ⟨rfl, rfl⟩
      · dsimp only
        split
        · unfold State.keepRepost
          split <;> exact key _ ⟨rfl, rfl⟩
        · split <;> exact key _ ⟨rfl, rfl⟩

theorem flushEvents_waits : ∀ (l acc : List EventEntry) (s : State), WaitsKept s (State.flushEvents acc l s)
  | [], _, _ => ⟨rfl, rfl⟩
  | e :: rest, acc, s => by
    unfold State.flushEvents
    split
    · exact flushEvents_waits rest _ s
    · split
      · exact WaitsKept.trans ⟨rfl, rfl⟩ (flushEvents_waits rest _ _)
      · exact ⟨rfl, rfl⟩

theorem issueAt_waits (s : State) (code : Nat) (ws : List Word) (r : Bool) (t : Word64) : WaitsKept s (s.issueAt code ws r t) :=
  (WaitsKept.trans (s := s) ⟨rfl, rfl⟩ (trimEvents_waits 4 (s.journalEvent code ws r t))).trans (flushEvents_waits _ [] _)

theorem papolReg_secStat : ¬ papolReg Reg.CTL_SEC_STAT := by
  rintro (⟨n, h, e | e⟩ | e)
  · unfold Reg.CTL_SEC_STAT Reg.DSP_RING_HIDX at e; omega
  · unfold Reg.CTL_SEC_STAT Reg.DSP_RING_DIDX at e; omega
  · revert e; decide

/-- CTL_SEC_STAT is none of the registers that Papol moves. -/
theorem PapolBut.sess {q : Nat → Prop} {s t : State} (h : PapolBut papolReg q s t) :
    t.on F.CTL_SEC_STAT_SESS = s.on F.CTL_SEC_STAT_SESS := by
  have e : t.reg F.CTL_SEC_STAT_SESS.addr = s.reg F.CTL_SEC_STAT_SESS.addr := h.regs.reg papolReg_secStat (by decide)
  unfold State.on State.rd
  rw [e]

theorem PapolBut.sec {p q : Nat → Prop} {s t : State} (h : PapolBut p q s t) : t.sec = s.sec := by
  have e := congrArg State.sec h.rest
  exact e

theorem RunsDown.of_papol {s t : State} (h : PapolBut papolReg (papolByte s) s t) (k : WaitsKept s t)
    (r : t.pap.replies = s.pap.replies) : RunsDown s t where
  rings := h.rings
  bytes := h.bytes
  fuses := congrArg Sec.fuses h.sec
  sess := fun e => h.sess.trans e
  held := k.1
  due := k.2
  reply := fun _ _ x => x.congr r

theorem issueAt_runsDown (s : State) (code : Nat) (ws : List Word) (r : Bool) (t : Word64) : RunsDown s (s.issueAt code ws r t) :=
  have ⟨but, replies, _⟩ := issueAt_papol s code ws r t
  .of_papol but (issueAt_waits s code ws r t) replies

theorem sysRun_runsDown (s : State) : RunsDown s s.sysRun := by
  have e := congrArg State.pap (sysRun_rest s)
  exact .of_papol (.sysRun s) ⟨congrArg Papol.held e, congrArg Papol.resetDue e⟩ (congrArg Papol.replies e)

theorem raiseR_runsDown (s : State) (code : Nat) (ws : List Word) (r : Bool) : RunsDown s (s.raiseR code ws r) := by
  unfold State.raiseR
  split
  · exact (sysRun_runsDown s).trans (issueAt_runsDown _ _ _ _ _)
  · split <;> exact .same rfl rfl rfl rfl rfl rfl rfl

theorem raiseSecurity_runsDown (s : State) (kind cause consec low : Nat) : RunsDown s (s.raiseSecurity kind cause consec low) :=
  raiseR_runsDown s _ _ _

/-- The session has no key and does not show, before EVT_SECURITY tells of it (spec/16_security.md, R721, R723). -/
def State.keyDropped (s : State) : State := { s with sec := { s.sec with key := none } }.clr F.CTL_SEC_STAT_SESS

theorem keyDropped_sess (s : State) : s.keyDropped.on F.CTL_SEC_STAT_SESS = false := by
  unfold State.keyDropped State.clr State.on
  rw [State.rd_wr_same _ _ (by decide)]
  rfl

theorem keyDropped_runsDown (s : State) : RunsDown s s.keyDropped where
  rings := State.clr_rings _ _
  bytes := fun a _ => State.byte_congr (State.clr_mem _ _) a
  fuses := by unfold State.keyDropped; rw [State.clr_sec]
  sess := fun _ => keyDropped_sess s
  held := congrArg Papol.held (State.clr_pap _ _)
  due := congrArg Papol.resetDue (State.clr_pap _ _)
  reply := fun _ _ r => r.congr (congrArg Papol.replies (State.clr_pap _ _))

/-- The session closes, and is closed then. -/
theorem closeSession_runsDown (s : State) (cause : Nat) :
    RunsDown s (s.closeSession cause) ∧ (s.closeSession cause).on F.CTL_SEC_STAT_SESS = false := by
  unfold State.closeSession
  split
  next =>
    have k := raiseSecurity_runsDown s.keyDropped 1 cause (s.rd F.CTL_SEC_CNT_CONSEC) (s.rd F.CTL_SEC_STAT_SESSNO)
    exact ⟨(keyDropped_runsDown s).trans k, k.sess (keyDropped_sess s)⟩
  next closed => exact ⟨.refl s, Bool.eq_false_iff.2 closed⟩

/-! ## Commands that wait -/

/-- A pending command that ends with ST_OK leaves an answer of ST_OK standing, its own among them. -/
theorem postDone_runsDown (s : State) (e : PendEntry) (ws : List Word) (t : Word64) :
    RunsDown s (s.postDone e stsOk 0 ws [] t) := by
  have h : RunsDown s (((({ s.dropPend e.slot with pap := { (s.dropPend e.slot).pap with
      replies := updReply e.ring1 e.cseq (fun r => { r with status := stsOk, detail := 0 }) (s.dropPend e.slot).pap.replies } } :
        State).completed e.ring1 e.cseq).countCfg e.cfg stsOk)) := by
    have reply : ∀ c p, Replied s c p stsOk 0 [] → ∃ r, (updReply e.ring1 e.cseq
        (fun r => { r with status := stsOk, detail := 0 }) s.pap.replies).getLast? = some r ∧ r.opcode = c.opcode ∧
        r.ring1 = p.ring1 ∧ r.cseq = p.cseq ∧ r.status = stsOk ∧ r.detail = 0 ∧ r.len = ([] : List Word).length ∧
        r.payload = ([] : List Word).take 16 := by
      rintro c p ⟨r, hr, op, ring, cseq, _, _, len, pl⟩
      exact updReply_last (fun r ⟨op, ring, cseq, _, _, len, pl⟩ => ⟨op, ring, cseq, rfl, rfl, len, pl⟩) hr
        ⟨op, ring, cseq, ‹_›, ‹_›, len, pl⟩
    unfold State.countCfg
    split <;>
      exact { rings := rfl, bytes := fun _ _ => rfl, fuses := rfl, sess := id, held := rfl, due := rfl, reply := reply }
  exact h.trans (issueAt_runsDown _ _ _ _ _)

theorem finish_runsDown (s : State) (e : PendEntry) (ws : List Word) : RunsDown s (s.finish e stsOk 0 ws []) := by
  unfold State.finish State.finishWith
  extract_lets detail
  have ok : detail = 0 := if_neg (by decide)
  rw [ok]
  exact .ite ((sysRun_runsDown s).trans (postDone_runsDown s.sysRun e ws _)) (.same rfl rfl rfl rfl rfl rfl rfl)

theorem finishAll_runsDown (s : State) (sel : PendEntry → Bool) : RunsDown s (s.finishAll sel stsOk 0) :=
  .foldl (fun x e => finish_runsDown x e []) _ s

theorem supersede_runsDown (s : State) (op n : Nat) : RunsDown s (s.supersede op n) := by
  unfold State.supersede
  split
  · exact (modOut_runsDown s _).trans (finish_runsDown _ _ _)
  · exact .refl s

/-! ## What follows the phase of a channel -/

theorem showFn_runsDown (s : State) : RunsDown s s.showFn :=
  .wr (.wr (.wr (.refl s) (by decide)) (by decide)) (by decide)

theorem acWatch_runsDown (s : State) : RunsDown s s.acWatch := by
  unfold State.acWatch
  split
  · refine .ite ?_ (.refl s)
    unfold State.acSpoil
    split
    · exact .ite (.upd (.refl s)) (.refl s)
    · exact .refl s
  · exact .refl s

theorem outShow_runsDown (s : State) : RunsDown s s.outShow := by
  unfold State.outShow
  extract_lets saf s0 s1 s2
  have h0 : RunsDown s s0 := .ite (RunsDown.trans (.upd (.refl s)) (showFn_runsDown _)) (.refl s)
  have h1 : RunsDown s s1 := h0.trans <| .forEach (fun n x => .wr (.refl x) (Nat.lt_add_right _ (by decide))) 12 s0
  have h2 : RunsDown s s2 := .wr (.wr h1 (by decide)) (by decide)
  exact (h2.trans (modOut_runsDown _ _)).trans (acWatch_runsDown _)

theorem dcNone_runsDown (s : State) (n res : Nat) : RunsDown s (s.dcNone n res) :=
  .foldl (fun x _ => .setReg x _ (Nat.lt_add_right _ (by decide))) _ s

theorem dcDrop_runsDown (s : State) (p : Nat → Bool) : RunsDown s (s.dcDrop p stsOk) := by
  unfold State.dcDrop
  refine .ite ?_ (.refl s)
  extract_lets s1 left diag s2
  have h1 : RunsDown s s1 := .foldl (fun x n => dcNone_runsDown x n 9) _ s
  have h2 : RunsDown s s2 := .upd h1
  exact .ite (h2.trans (finishAll_runsDown _ _)) h2

theorem acEnd_runsDown (s : State) (a : AcTest) (acres cest : Nat) : RunsDown s (s.acEnd a acres cest stsOk) := by
  unfold State.acEnd
  extract_lets s1 diag
  have h1 : RunsDown s s1 := .foldl (fun x k =>
    ((RunsDown.setReg x _ (Nat.lt_add_right _ (by decide))).trans (.setReg _ _ (Nat.lt_add_right _ (by decide)))).trans
      (.setReg _ _ (Nat.lt_add_right _ (by decide)))) _ s
  exact RunsDown.trans (.upd h1) (finishAll_runsDown _ _)

theorem acDrop_runsDown (s : State) (p : AcTest → Bool) : RunsDown s (s.acDrop p stsOk) := by
  unfold State.acDrop
  split
  · exact .ite (acEnd_runsDown _ _ _ _) (.refl s)
  · exact .refl s

theorem diagPoll_runsDown (s : State) : RunsDown s s.diagPoll := (dcDrop_runsDown s _).trans (acDrop_runsDown _ _)

theorem setPhase_runsDown (s : State) (n ph : Nat) : RunsDown s (s.setPhase n ph) := by
  unfold State.setPhase
  extract_lets s1 s2
  have h1 : RunsDown s s1 := .wr (.wr (.refl s) (Nat.lt_add_right _ (by decide))) (Nat.lt_add_right _ (by decide))
  have h2 : RunsDown s s2 := h1.trans (modOut_runsDown _ _)
  exact ((h2.trans (finishAll_runsDown _ _)).trans (outShow_runsDown _)).trans (diagPoll_runsDown _)

/-! ## Speaker channels -/

theorem ramp_runsDown (s : State) (n ph pos : Nat) (fast : Bool) : RunsDown s (s.ramp n ph pos fast) :=
  (modSpk_runsDown s n _).trans (setPhase_runsDown _ _ _)

theorem applyPairs_runsDown (s : State) (g : Nat) : RunsDown s (s.applyPairs g) := by
  refine .forEach (fun k x => ?_) 2 s
  extract_lets m want
  exact .ite (((modGrp_runsDown x g _).trans (modSpk_runsDown _ _ _)).trans (setPhase_runsDown _ _ _)) (.refl x)

theorem toOff_runsDown (s : State) (n : Nat) : RunsDown s (s.toOff n) :=
  ((modSpk_runsDown s n _).trans (setPhase_runsDown _ _ _)).trans (applyPairs_runsDown _ _)

/-- A stop of a channel, phase by phase (spec/08_speaker_channels.md, R370, R371). -/
theorem stopChan_runsDown (s : State) (n : Nat) (fast : Bool) : RunsDown s (s.stopChan n fast) := by
  unfold State.stopChan
  extract_lets ph s1
  have h1 : RunsDown s s1 := RunsDown.trans (.ite (.refl s) (supersede_runsDown s _ n)) (modSpk_runsDown _ n _)
  have h2 (ph pos : Nat) (fast : Bool) : RunsDown s (s1.ramp n ph pos fast) := h1.trans (ramp_runsDown s1 n ph pos fast)
  refine .ite (.refl s) <| .ite (modSpk_runsDown s n _) ?_
  exact .ite (modSpk_runsDown s n _) <| .ite (h1.trans (toOff_runsDown s1 n)) <| .ite (h2 _ _ _) <| .ite (h2 _ _ _) <|
    .ite (h2 _ _ _) <| .ite (h2 _ _ _) <| .ite (h2 _ _ _) h1

theorem spkStopAll_runsDown (s : State) (fast : Bool) : RunsDown s (s.spkStopAll fast) :=
  .forEach (fun n x => stopChan_runsDown x n fast) 12 s

/-! ## The headphone and line outputs -/

theorem secStat_lt_hoField (o : Nat) : Reg.CTL_SEC_STAT < (hoField o).addr := by
  unfold hoField
  split <;> decide

theorem setHo_runsDown (s : State) (o ph : Nat) : RunsDown s (s.setHo o ph) := by
  unfold State.setHo
  extract_lets s1 left hpcv
  have h1 : RunsDown s s1 := .wr (.refl s) (secStat_lt_hoField o)
  exact .wr (RunsDown.trans (.upd h1) (finishAll_runsDown _ _)) (by decide)

theorem hoRamp_runsDown (s : State) (o ph pos : Nat) : RunsDown s (s.hoRamp o ph pos) :=
  (modHp_runsDown s o _).trans (setHo_runsDown _ _ _)

theorem hoStop_runsDown (s : State) (o : Nat) : RunsDown s (s.hoStop o) := by
  unfold State.hoStop
  extract_lets s1
  have h1 : RunsDown s s1 := modHp_runsDown s o _
  refine .ite (h1.trans (setHo_runsDown _ _ _)) (h1.trans ?_)
  exact .ite (hoRamp_runsDown _ _ _ _) (.ite (hoRamp_runsDown _ _ _ _) (.refl _))

theorem hpStopAll_runsDown (s : State) : RunsDown s s.hpStopAll := .forEach (fun o x => hoStop_runsDown x o) 2 s

/-! ## The reset that is due -/

/-- SYS_RESET's reset is due (R194). -/
def State.resetIsDue (s : State) : State := { s with pap := { s.pap with resetDue := true } }

/-- With SYS_RESET's reply written the session closes, the outputs run down and the reset is due (R194). -/
theorem resetStops_runsDown (s : State) : RunsDown s.resetIsDue s.resetStops ∧ s.resetStops.on F.CTL_SEC_STAT_SESS = false := by
  obtain ⟨h, off⟩ := closeSession_runsDown s.resetIsDue.drawn (s.resetIsDue.free.toNat % 16)
  have k := (spkStopAll_runsDown (s.resetIsDue.drawn.closeSession (s.resetIsDue.free.toNat % 16)) true).trans (hpStopAll_runsDown _)
  exact ⟨(RunsDown.trans (.upd (.refl s.resetIsDue)) h).trans k, k.sess off⟩

/-! ## The answer to SYS_RESET -/

theorem wrote_afterDue (s : State) (h : HeldReply) : (s.wrote h).pap.afterDue = s.pap.afterDue := by
  unfold State.wrote State.completed
  dsimp only
  split <;> split <;> rfl

theorem flushHeld_afterDue : ∀ (l : List HeldReply) (s : State), (s.flushHeld l).pap.afterDue = s.pap.afterDue
  | [], _ => rfl
  | h :: rest, s => by
    unfold State.flushHeld
    split
    · rw [flushHeld_afterDue rest, wrote_afterDue, ringPut_pap]
    · rfl

theorem answer_afterDue (s : State) (op : Nat) (p : Packet) (auth : Bool) (st d : Nat) (tr : Bool) (ws : List Word) :
    (s.answer op p auth true st d tr ws).pap.afterDue = s.pap.afterDue := by
  unfold State.answer
  dsimp only
  split
  · split <;> rfl
  · exact flushHeld_afterDue _ _

/-- What waits for the held reply of a command (R194). -/
def State.withAfterDue (s : State) (due : Option Nat) : State := { s with pap := { s.pap with afterDue := due } }

/-- The state in which SYS_RESET has been answered, before its work begins. -/
def State.resetAnswered (s : State) (p : Packet) : State :=
  ((s.admitted cardSysReset p).withAfterDue (some 0x006)).answer 0x006 p p.auth true stsOk 0 false []

theorem resetAnswered_papol (s : State) (p : Packet) : PapolBut papolReg (papolByte s) s (s.resetAnswered p) := by
  have h : PapolBut papolReg (papolByte s) s ((s.admitted cardSysReset p).withAfterDue (some 0x006)) :=
    (admitted_papol s cardSysReset p).trans (.pap rfl)
  have k := answer_papol ((s.admitted cardSysReset p).withAfterDue (some 0x006)) 0x006 p p.auth true stsOk 0 false []
  rw [papolByte_congr h.rings] at k
  exact h.trans k

theorem resetAnswered_replied (s : State) (p : Packet) : Replied (s.resetAnswered p) cardSysReset p 0 0 [] :=
  answer_replied _ cardSysReset p p.auth stsOk 0 false []

theorem resetAnswered_afterDue (s : State) (p : Packet) : (s.resetAnswered p).pap.afterDue = some 0x006 :=
  answer_afterDue _ _ _ _ _ _ _ _

theorem exec_sysReset {p : Packet} {s : State} (h : Accepted cardSysReset p s) (key : pf p.payload 0 0 16 = 0xA11C) :
    exec (.sysReset p) s = .next ((s.resetAnswered p).afterReply 0x006 fun s => (s.withAfterDue none).resetStops) := by
  refine congrArg Host.Outcome.next ((take_accepted h _ _).trans ?_)
  show State.settle _ _ _ (if pf p.payload 0 0 16 ≠ 0xA11C then _ else _) _ = _
  rw [if_neg (fun n => n key)]
  exact if_pos (resetAnswered_afterDue s p)

/-- SYS_RESET is answered with ST_OK; once the reply is written the session closes and the reset is due, and both wait for a reply that
is held back (R194). -/
theorem sysReset_answers {p : Packet} {s : State} (h : Accepted cardSysReset p s) (key : pf p.payload 0 0 16 = 0xA11C) :
    Answers (.sysReset p) cardSysReset p s 0 0 [] fun t => t.sec.fuses = s.sec.fuses ∧ SameBytesBut (papolByte s) s t ∧
      if t.pap.held = [] then t.pap.resetDue = true ∧ t.on F.CTL_SEC_STAT_SESS = false
      else t.pap.afterDue = some 0x006 ∧ t.on F.CTL_SEC_STAT_SESS = s.on F.CTL_SEC_STAT_SESS := by
  have a := resetAnswered_papol s p
  have r := resetAnswered_replied s p
  refine ⟨_, exec_sysReset h key, ?_⟩
  generalize s.resetAnswered p = u at a r
  unfold State.afterReply
  split
  next written =>
    obtain ⟨k, off⟩ := resetStops_runsDown (u.withAfterDue none)
    have bytes : SameBytesBut (papolByte u) u (u.withAfterDue none).resetStops := k.bytes
    rw [papolByte_congr a.rings] at bytes
    refine ⟨k.reply _ _ r, k.fuses.trans (congrArg Sec.fuses a.sec), fun b n => (bytes b n).trans (a.bytes b n), ?_⟩
    rw [if_pos (k.held.trans (List.isEmpty_iff.1 written))]
    exact ⟨k.due, off⟩
  next waiting =>
    refine ⟨r, congrArg Sec.fuses a.sec, a.bytes, ?_⟩
    rw [if_neg (fun e => waiting (List.isEmpty_iff.2 e))]
    exact ⟨rfl, a.sess⟩

/-! ## The statement -/

theorem execReset_ignored {ns : Nat} (s : State) (h : ns < 1000) : exec (.reset ns) s = .next s := if_pos h

theorem execReset_resets {ns : Nat} (s : State) (h : 10000 ≤ ns) : exec (.reset ns) s = .next s.fresh :=
  (if_neg (by omega)).trans (if_neg (by omega))

theorem execReset_undefined {ns : Nat} (s : State) (low : 1000 ≤ ns) (high : ns < 10000) :
    exec (.reset ns) s = .fault .resetPulseUndefined :=
  (if_neg (by omega)).trans (if_pos high)

theorem execSysResetExecute_resets {s : State} (due : s.pap.resetDue = true) (silent : s.silent = true) :
    exec .sysResetExecute s = .next s.fresh :=
  congrArg Host.Outcome.next (if_pos ⟨due, silent⟩)

theorem execSysResetExecute_waits {s : State} (h : s.pap.resetDue = false ∨ s.silent = false) :
    exec .sysResetExecute s = .next s := by
  refine congrArg Host.Outcome.next (if_neg ?_)
  rintro ⟨due, silent⟩
  rcases h with e | e
  · rw [due] at e; cases e
  · rw [silent] at e; cases e

/-- Settles O59, by what each of the resets executes, what SYS_RESET's run-down leaves alone, and what the fuses and the pins give the
registers of a state fresh from reset. -/
theorem resetPulsesResetTheDevice : Obligations.ResetPulsesResetTheDevice := by
  intro ns s p
  refine ⟨execReset_ignored s, execReset_resets s, execReset_undefined s, rfl, execSysResetExecute_resets, execSysResetExecute_waits,
    sysReset_answers, fresh_pending s, fresh_likeReset s, fresh_sec s, fresh_pwr s, fresh_out s, fresh_hpcv s, fresh_strap s,
    fresh_lifecycle s, fun i h shown => ?_, fun i h secret => ?_⟩
  · rw [fresh_fuse s h, shown]; rfl
  · rw [fresh_fuse s h, secret]; rfl

end Sys2Proof.Machine
end

section
/-!
# Register reads (spec/03_register_access.md, R137 to R142)

What the capture of a register delivers, clears and latches; that a read whose domain is up captures at once, and one that waits for its
domain as the domain comes up (R101).
-/

namespace Sys2Proof.Machine

/-! ## The capture of a register -/

/-- The two-half shadow of an interface (R141). -/
def State.shadowOf (s : State) (i : Iface) : Word := if i = .host then s.link.shadow else s.link.dshadow

/-- The link after a capture, `half` being 1 at a LO word: the word is delivered with its marker, and the HI half of a LO word goes to the
reader's shadow (R108, R141). -/
def Link.captured (l : Link) (i : Iface) (half : Nat) (word hi : Word) : Link :=
  { l with
    rdata := word
    marker := true
    shadow := if half = 1 ∧ i = .host then hi else l.shadow
    dshadow := if half = 1 ∧ i = .debug then hi else l.dshadow }

/-- A capture clears the RC bits that read 1 and delivers the word; it changes nothing else (R137, R138, R141). -/
theorem capture_eq {a : Nat} {r : RegRow} (row : regRow? a = some r) (s : State) (i : Iface) :
    s.capture i a =
      { s.setReg a (s.reg a &&& ~~~r.rc) with link := s.link.captured i r.half (s.shown i a r.half) (s.reg (a + 4)) } := by
  unfold State.capture
  rw [row]
  by_cases lo : r.half = 1 <;> cases i <;> simp [lo, Link.captured, State.deliverWord]

section
variable {a : Nat} {r : RegRow} (row : regRow? a = some r) (s : State) (i : Iface)
include row

theorem capture_marker : (s.capture i a).link.marker = true := by rw [capture_eq row]; rfl

theorem capture_rdata : (s.capture i a).link.rdata = s.shown i a r.half := by rw [capture_eq row]; rfl

theorem capture_stalled : (s.capture i a).link.stalled = s.link.stalled := by rw [capture_eq row]; rfl

theorem capture_reg_same : (s.capture i a).reg a = s.reg a &&& ~~~r.rc := by
  rw [capture_eq row]
  exact State.reg_setReg_same s a _

theorem capture_reg_ne {b : Nat} (ne : b ≠ a) : (s.capture i a).reg b = s.reg b := by
  rw [capture_eq row]
  exact State.reg_setReg_ne s _ ne

theorem capture_rest : { s.capture i a with regs := s.regs, link := s.link } = s := by rw [capture_eq row]; rfl

theorem capture_shadow_lo (lo : r.half = 1) : (s.capture i a).shadowOf i = s.reg (a + 4) := by
  rw [capture_eq row]
  cases i <;> exact if_pos (And.intro lo rfl)

theorem capture_shadow_ne {j : Iface} (h : r.half ≠ 1 ∨ i ≠ j) : (s.capture i a).shadowOf j = s.shadowOf j := by
  rw [capture_eq row]
  cases j <;> exact if_neg (not_and_or.2 h)
end

/-- HOST_UNLOCK is no half of a 64-bit value (R149). -/
theorem half_hostUnlock {r : RegRow} (row : regRow? Reg.HOST_UNLOCK = some r) : r.half = 0 := by
  have e : (regRow? Reg.HOST_UNLOCK).map RegRow.half = some 0 := by decide
  rw [row] at e
  exact Option.some.inj e

/-- A HI word shows the reader's shadow (R142). -/
theorem shown_hi {a : Nat} {r : RegRow} (row : regRow? a = some r) (hi : r.half = 2) (s : State) (i : Iface) :
    s.shown i a r.half = s.shadowOf i := by
  have ne : a ≠ Reg.HOST_UNLOCK := by
    rintro rfl
    rw [half_hostUnlock row] at hi
    cases hi
  unfold State.shown
  rw [if_neg ne, if_pos hi]
  rfl

/-! ## A read -/

/-- SYS's start shows in the clock status alone (R161). -/
theorem sysRun_regsOnly (s : State) : RegsOnly (fun b => b = Reg.CTL_CLK_STAT) s s.sysRun := by
  unfold State.sysRun
  exact .ite (.wr (.refl _ s) rfl) (.refl _ s)

theorem domBit_addr (d : Nat) : (domBit d).addr = Reg.PWR_DOMSTAT := rfl

/-- SYS's start powers no domain. -/
theorem sysRun_reaches (s : State) (a : Nat) : s.sysRun.reaches a = s.reaches a := by
  have changes : s.sysRun.pwr = s.pwr := (sysRun_regsOnly s).congr State.pwr fun _ => rfl
  have bank : ∀ d, s.sysRun.rd (F.DSP_SB_STAT_PWR d) = s.rd (F.DSP_SB_STAT_PWR d) := fun d =>
    (sysRun_regsOnly s).rd _ (by unfold F.DSP_SB_STAT_PWR Reg.CTL_CLK_STAT; dsimp only; omega)
  have other : ∀ d, s.sysRun.rd (domBit d) = s.rd (domBit d) := fun d =>
    (sysRun_regsOnly s).rd _ (by rw [domBit_addr]; decide)
  unfold State.reaches State.domReady State.domOn State.on
  simp only [bank, other, changes]

theorem unpowered_of_reaches {s : State} {a : Nat} (h : s.reaches a = true) : s.unpowered a = false := by
  unfold State.reaches at h
  unfold State.unpowered
  split
  next d e => rw [e] at h; simp [show s.domReady d = true from h]
  next => rfl

/-- The state whose register a read captures: SYS runs, and the pins show as they are (R161). -/
def State.atCapture (s : State) (a : Nat) : State := if a = Reg.PWR_GPIO_IO then s.sysRun.showGpio else s.sysRun

theorem atCapture_regsOnly (s : State) (a : Nat) :
    RegsOnly (fun b => b = Reg.CTL_CLK_STAT ∨ b = Reg.PWR_GPIO_IO) s (s.atCapture a) := by
  have sys := (sysRun_regsOnly s).mono fun b => Or.inl (b := b = Reg.PWR_GPIO_IO)
  unfold State.atCapture
  exact .ite (sys.wr (Or.inr rfl)) sys

theorem atCapture_link (s : State) (a : Nat) : (s.atCapture a).link = s.link := (atCapture_regsOnly s a).congr State.link fun _ => rfl

/-- The pins show in PWR_GPIO_IO alone. -/
theorem atCapture_reg_ne (s : State) {a b : Nat} (ne : b ≠ a) : (s.atCapture a).reg b = s.sysRun.reg b := by
  unfold State.atCapture
  split
  next gpio => subst gpio; exact State.reg_wr_ne _ _ ne
  next => rfl

/-- A register in a domain that is up is captured in one go. -/
theorem hostRead_captures {s : State} {i : Iface} {a : Nat} (ready : s.ifaceReady i = true) (aligned : a % 4 = 0) (low : a < 0x800000)
    (mapped : regRow? a ≠ none) (up : s.reaches a = true) : s.hostRead i a = (s.atCapture a).capture i a := by
  have up' : s.sysRun.reaches a = true := (sysRun_reaches s a).trans up
  unfold State.hostRead State.readNow
  rw [if_neg (by simp [ready]), if_neg (by omega), if_neg (by omega), if_neg (by omega), if_neg mapped,
    if_neg (by simp [unpowered_of_reaches up']), if_pos up']
  rfl

/-- What a register shows, the lock as a word. -/
theorem shown_eq (s : State) (i : Iface) (a half : Nat) : s.shown i a half =
    if a = Reg.HOST_UNLOCK then (if s.lockOpen i then 0x10000 else 0) else if half = 2 then s.shadowOf i else s.reg a := by
  unfold State.shown
  cases s.lockOpen i <;> rfl

/-! ## A read that waited for its domain -/

/-- A power-up that no command waits for leaves the domain on, and nothing else but its change. -/
theorem domDone_up {s : State} {d : Nat} (other : 0x10 ≤ d) (change : s.pwr.changes = [⟨d, true, []⟩]) :
    s.domDone d = (s.modPwr fun q => { q with changes := [] }).domUp d := by
  have first : (s.changesOf d).head? = some ⟨d, true, []⟩ := by simp [State.changesOf, change]
  have gone : (s.modPwr fun q => { q with changes := q.changes.erase ⟨d, true, []⟩ }) = s.modPwr fun q => { q with changes := [] } := by
    simp [State.modPwr, change]
  unfold State.domDone
  rw [first]
  dsimp only
  rw [gone, if_pos rfl, if_neg (by omega)]
  simp [State.finishAll]

theorem domUp_domOn (s : State) {d : Nat} (other : 0x10 ≤ d) (lt : d < 42) : (s.domUp d).domOn d = true := by
  unfold State.domOn State.domUp State.on State.set1
  rw [if_neg (by omega), State.rd_wr_same s 1 (show d - 0x10 + 1 ≤ 32 by omega)]
  rfl

/-- A stalled read, the last access to wait, is captured (R101). -/
theorem unstall_read {s : State} {x : Stalled} (waits : s.link.stalled = [x]) (read : x.write = false) :
    s.unstall x = { s with link := { s.link with stalled := [] } }.capture x.iface x.addr := by
  unfold State.unstall
  simp [waits, read]

/-- The one access that waits is a read: it is captured as its domain comes up (R101). -/
theorem domainPowerDone_captures {s : State} {i : Iface} {a : Nat} (d : Fin 42) (other : 0x10 ≤ d.val)
    (waits : s.link.stalled = [⟨d.val, i, false, a, 0⟩]) (change : s.pwr.changes = [⟨d.val, true, []⟩]) :
    ∃ u : State, exec (.domainPowerDone d) s = .next (u.capture i a) ∧ u.link = { s.link with stalled := [] } := by
  let v := (s.modPwr fun q => { q with changes := [] }).domUp d.val
  have on : v.domOn d.val = true := domUp_domOn _ other d.isLt
  have waiting : v.link.stalled = [⟨d.val, i, false, a, 0⟩] := waits
  have mine : (v.link.stalled.filter fun x => x.domain = d.val) = [⟨d.val, i, false, a, 0⟩] := by simp [waiting]
  refine ⟨{ v with link := { s.link with stalled := [] } }, congrArg Host.Outcome.next ?_, rfl⟩
  rw [domDone_up other change, if_pos on, mine]
  exact unstall_read waiting rfl

/-! ## The statement -/

/-- A read changes the register that it captures, and the clock status where SYS starts for it. -/
theorem capture_atCapture_regs {s : State} (a : Nat) {r : RegRow} (row : regRow? a = some r) (i : Iface) :
    SameRegsBut (fun b => b = a) s ((s.atCapture a).capture i a) := by
  intro b ne
  rw [capture_reg_ne row _ i ne, atCapture_reg_ne s ne]
  exact SameRegsBut.sysRun (p := fun b => b = a) s b ne

/-- Beside the registers and the link a read changes nothing. -/
theorem capture_atCapture_rest (s : State) (a : Nat) {r : RegRow} (row : regRow? a = some r) (i : Iface) :
    { (s.atCapture a).capture i a with regs := s.regs, link := s.link } = s := by
  have e := congrArg (fun t : State => { t with regs := s.regs, link := s.link }) (capture_rest row (s.atCapture a) i)
  exact e.trans (congrArg (fun t : State => { t with link := s.link }) (atCapture_regsOnly s a).rest)

/-- Settles O8, by what a capture delivers, clears and latches, and by what SYS's start and the coming up of a domain leave alone. -/
theorem readCapturesAndLatchesShadow : Obligations.ReadCapturesAndLatchesShadow := by
  refine ⟨rfl, rfl, ?_, ?_⟩
  · intro i a r s ready aligned low row up z
    have run : exec (.rcRead i a) s = .next ((s.atCapture a.toNat).capture i a.toNat) :=
      congrArg Host.Outcome.next (hostRead_captures ready aligned low (by simp [row]) up)
    have link := atCapture_link s a.toNat
    have shadows : ∀ j, (s.atCapture a.toNat).shadowOf j = s.shadowOf j := fun j => by unfold State.shadowOf; rw [link]
    have lock : (s.atCapture a.toNat).lockOpen i = s.lockOpen i := by unfold State.lockOpen; rw [link]
    refine ⟨_, run, run, capture_marker row _ i, ?_, capture_reg_same row _ i, capture_shadow_lo row _ i, fun _ => ?_, fun single => ?_,
      capture_atCapture_regs a.toNat row i, capture_atCapture_rest s a.toNat row i⟩
    · rw [capture_rdata row, shown_eq, lock, shadows]
      rfl
    · have kept : ∀ j, i ≠ j → _ := fun j ne => (capture_shadow_ne row (s.atCapture a.toNat) i (Or.inr ne)).trans (shadows j)
      cases i
      · exact kept .debug nofun
      · exact kept .host nofun
    · have kept := fun j => (capture_shadow_ne (j := j) row (s.atCapture a.toNat) i (Or.inl single)).trans (shadows j)
      exact ⟨kept .host, kept .debug⟩
  · intro i a r d s row other waits change
    obtain ⟨u, run, link⟩ := domainPowerDone_captures d other waits change
    refine ⟨_, run, ?_, capture_marker row u i, fun lo => ?_, fun hi => ?_⟩
    · rw [capture_stalled row, link]
    · rw [capture_reg_ne row u i (by omega)]
      exact capture_shadow_lo row u i lo
    · rw [capture_rdata row, shown_hi row hi]
      unfold State.shadowOf
      rw [link]

end Sys2Proof.Machine
end

section
/-!
# The guard locks stay (spec/03_register_access.md, R140, R144, R145)

Of all operations that a write word, a read or a tick sets going, a write word's own judgement alone moves a guard lock. That each other
one leaves both is said here once per operation: its definition, and what the operations in it leave. The lemmas stand in the order of the
machine's definitions.
-/

namespace Sys2Proof.Machine

/-! ## The locks, and what writes of the state leave of them -/

/-- The guard locks of a state: the host link's and the debug port's (R140). The lemmas below speak of this pair and are not proved by
`rfl`, since the kernel would compare whole states field by field. -/
def State.locks (s : State) : Bool × Bool := (s.link.lock, s.link.dlock)

theorem locks_of_locks {s t : State} (h : t.link.lock = s.link.lock) (k : t.link.dlock = s.link.dlock) : t.locks = s.locks := by
  unfold State.locks; rw [h, k]

theorem locks_of_link {s t : State} (h : t.link = s.link) : t.locks = s.locks := by
  unfold State.locks; rw [h]

theorem PapolBut.locks {p q : Nat → Prop} {s t : State} (h : PapolBut p q s t) : t.locks = s.locks := by
  have e := congrArg State.link h.rest
  exact locks_of_link e

section
variable (s : State) (rings : Vector RingGeo 32) (pap : Papol) (strs : List StreamX) (tdm : Vector PortX 2) (spdif : SpdifX)
  (graph : Graph) (leap : Vector LeapCh 32) (eng : Vector EngineX 8) (poison : List Nat) (banks : Banks) (spks : Vector SpkX 12)
  (groups : Vector GroupX 3) (crk : Vector CrkSlot 8) (out : OutX) (clk : ClkX) (diag : DiagX) (inp : Inputs) (tad : Tad)
  (wkd : WkdX) (hp : Vector HpX 2) (cv : Vector CvX 4) (hpcv : HpCvX) (madc : MadcX) (pwr : Pwr) (saf : Saf) (sec : Sec)
  (age : AgeX) (draw : Nat) (pending : List Instr) (regs : List (Nat × Word)) (mem : List Host.Cell) (engMem : List (Nat × Word))

/-- A record update with a link of the same locks. -/
@[simp] theorem mk_locks (a b : Word) (c : List Posted) (d : List Stalled) (e : Word) (f : Bool) (g h : Nat) (i : List Nat)
    (j : List (Nat × Nat)) :
    (State.mk regs mem (Link.mk s.link.lock s.link.dlock a b c d e f g h i j) rings pap strs tdm spdif graph leap eng engMem poison
      banks spks groups crk out clk diag inp tad wkd hp cv hpcv madc pwr saf sec age draw pending).locks = s.locks :=
  locks_of_locks rfl rfl

/-- A record update with the link as it was. -/
@[simp] theorem mk_link_locks :
    (State.mk regs mem s.link rings pap strs tdm spdif graph leap eng engMem poison banks spks groups crk out clk diag inp tad wkd hp
      cv hpcv madc pwr saf sec age draw pending).locks = s.locks :=
  locks_of_link rfl
end

@[simp] theorem setReg_locks (s : State) (a : Nat) (w : Word) : (s.setReg a w).locks = s.locks := locks_of_link (s.setReg_link a w)
@[simp] theorem wr_locks (s : State) (f : Field) (v : Nat) : (s.wr f v).locks = s.locks := locks_of_link (s.wr_link f v)
@[simp] theorem set1_locks (s : State) (f : Field) : (s.set1 f).locks = s.locks := locks_of_link (s.set1_link f)
@[simp] theorem clr_locks (s : State) (f : Field) : (s.clr f).locks = s.locks := locks_of_link (s.clr_link f)
@[simp] theorem sat_locks (s : State) (f : Field) (n : Nat) : (s.sat f n).locks = s.locks := locks_of_link (s.sat_link f n)
@[simp] theorem wr64_locks (s : State) (a v : Nat) : (s.wr64 a v).locks = s.locks := locks_of_link (s.wr64_link a v)
@[simp] theorem setWord_locks (s : State) (a : Nat) (w : Word) : (s.setWord a w).locks = s.locks := locks_of_link (s.setWord_link a w)
@[simp] theorem drawn_locks (s : State) : s.drawn.locks = s.locks := locks_of_link s.drawn_link

@[simp] theorem ite_locks (c : Prop) [Decidable c] (s t : State) : (if c then s else t).locks = if c then s.locks else t.locks :=
  apply_ite State.locks c s t

@[simp] theorem forEach_locks {f : Nat → State → State} (h : ∀ i x, (f i x).locks = x.locks) : ∀ (n : Nat) (s : State),
    (forEach f n s).locks = s.locks
  | 0, _ => rfl
  | n + 1, s => (h n _).trans (forEach_locks h n s)

@[simp] theorem forMask_locks {f : Nat → State → State} (h : ∀ i x, (f i x).locks = x.locks) (m n : Nat) (s : State) :
    (forMask m f n s).locks = s.locks :=
  forEach_locks (fun i x => by simp [h]) n s

@[simp] theorem foldl_locks {α : Type} {f : State → α → State} (h : ∀ x a, (f x a).locks = x.locks) : ∀ (l : List α) (s : State),
    (l.foldl f s).locks = s.locks
  | [], _ => rfl
  | a :: l, s => (foldl_locks h l (f s a)).trans (h s a)

@[simp] theorem wrap_locks (s : State) (f : Field) (n : Nat) : (s.wrap f n).locks = s.locks := by simp [State.wrap]
@[simp] theorem tick_locks (s : State) (n : Nat) : (s.tick n).locks = s.locks := by simp [State.tick]

/-! ## Events, replies and pending commands -/

@[simp] theorem issueAt_locks (s : State) (code : Nat) (ws : List Word) (r : Bool) (t : Word64) : (s.issueAt code ws r t).locks = s.locks :=
  (issueAt_papol s code ws r t).1.locks
@[simp] theorem sysRun_locks (s : State) : s.sysRun.locks = s.locks := by simp [State.sysRun]
@[simp] theorem raiseR_locks (s : State) (code : Nat) (ws : List Word) (r : Bool) : (s.raiseR code ws r).locks = s.locks :=
  (raiseR_papol s code ws r).1.locks
@[simp] theorem raise_locks (s : State) (code : Nat) (payload : List Word) : (s.raise code payload).locks = s.locks := by
  simp [State.raise]
@[simp] theorem completed_locks (s : State) (ring1 : Bool) (cseq : BitVec 16) : (s.completed ring1 cseq).locks = s.locks := by
  simp [State.completed]
@[simp] theorem emit_locks (s : State) (h : HeldReply) : (s.emit h).locks = s.locks := (emit_papol h (.refl _ _ s)).locks

@[simp] theorem answer_locks (s : State) (op : Nat) (p : Packet) (auth journal : Bool) (st d : Nat) (tr : Bool) (ws : List Word) :
    (s.answer op p auth journal st d tr ws).locks = s.locks :=
  (answer_papol s op p auth journal st d tr ws).locks

@[simp] theorem raiseClamps_locks (s : State) (op : Nat) (cl : List Clamp) : (s.raiseClamps op cl).locks = s.locks :=
  (raiseClamps_papol op cl s).1.locks
@[simp] theorem countCfg_locks (s : State) (cfg : Bool) (status : Nat) : (s.countCfg cfg status).locks = s.locks := by
  simp [State.countCfg]

@[simp] theorem raiseSecurity_locks (s : State) (kind cause consec lowHalf : Nat) :
    (s.raiseSecurity kind cause consec lowHalf).locks = s.locks := by
  simp [State.raiseSecurity]

@[simp] theorem closeSession_locks (s : State) (cause : Nat) : (s.closeSession cause).locks = s.locks := by simp [State.closeSession]
@[simp] theorem authFailed_locks (s : State) : s.authFailed.locks = s.locks := by simp [State.authFailed]
@[simp] theorem authPassed_locks (s : State) : s.authPassed.locks = s.locks := by simp [State.authPassed]

@[simp] theorem putKey_locks (s : State) (key : Option (List Word × Nat)) : (s.putKey key).locks = s.locks := by
  unfold State.putKey
  split <;> simp

@[simp] theorem dropPend_locks (s : State) (slot : Nat) : (s.dropPend slot).locks = s.locks := by simp [State.dropPend]

@[simp] theorem postDone_locks (s : State) (e : PendEntry) (status detail : Nat) (words : List Word) (clamps : List Clamp) (time : Word64) :
    (s.postDone e status detail words clamps time).locks = s.locks := by
  simp [State.postDone]

@[simp] theorem finishWith_locks (s : State) (e : PendEntry) (status d : Nat) (words : List Word) (clamps : List Clamp)
    (key : Option (List Word × Nat)) : (s.finishWith e status d words clamps key).locks = s.locks := by
  simp [State.finishWith]

@[simp] theorem finish_locks (s : State) (e : PendEntry) (status d : Nat) (words : List Word) (clamps : List Clamp) :
    (s.finish e status d words clamps).locks = s.locks := by
  simp [State.finish]

@[simp] theorem finishAll_locks (s : State) (sel : PendEntry → Bool) (status detail : Nat) :
    (s.finishAll sel status detail).locks = s.locks := by
  simp [State.finishAll]

@[simp] theorem postRec_locks (s : State) (e : PendEntry) (d : DoneRec) : (s.postRec e d).locks = s.locks := by simp [State.postRec]

@[simp] theorem drain_locks : ∀ (n : Nat) (s : State), (s.drain n).locks = s.locks
  | 0, _ => rfl
  | n + 1, s => by
    unfold State.drain
    split <;> simp [drain_locks n]

@[simp] theorem advance_locks (s : State) (ring1 : Bool) : (s.advance ring1).locks = s.locks := by simp [State.advance]
@[simp] theorem takeEack_locks (s : State) (e : BitVec 16) : (s.takeEack e).locks = s.locks := by simp [State.takeEack]

@[simp] theorem answerSeq_locks (s : State) (opcode : Nat) (p : Packet) : (s.answerSeq opcode p).locks = s.locks := by
  unfold State.answerSeq
  dsimp only
  split
  · split <;> simp
  · simp

@[simp] theorem authResult_locks (s : State) (c : CmdSpec) (p : Packet) (status : Nat) : (s.authResult c p status).locks = s.locks := by
  simp [State.authResult]

@[simp] theorem judge_refuse_locks (s : State) (c : CmdSpec) (p : Packet) (st d : Nat) (after : State → State) :
    (s.judge c p (fun _ => .refuse st d) after).locks = s.locks := by
  unfold State.judge State.settle
  dsimp only
  split
  next crc => simp
  next =>
    split
    next gap => simp
    next => split <;> simp

/-! ## Faults, power domains and parity -/

@[simp] theorem level_locks (s : State) (region lvl : Nat) : (s.level region lvl).locks = s.locks := by simp [State.level]
@[simp] theorem takesUp_locks (s : State) (w : Work) : (s.takesUp w).locks = s.locks := by simp [State.takesUp]
@[simp] theorem meets_locks (s : State) (region code sub unit : Nat) : (s.meets region code sub unit).locks = s.locks := by
  simp [State.meets]
@[simp] theorem ends_locks (s : State) (region code sub unit : Nat) : (s.ends region code sub unit).locks = s.locks := by
  simp [State.ends]
@[simp] theorem repCount_locks (s : State) (region : Nat) : (s.repCount region).locks = s.locks := by simp [State.repCount]
@[simp] theorem repaired_locks (s : State) (region code sub unit : Nat) : (s.repaired region code sub unit).locks = s.locks := by
  simp [State.repaired]
@[simp] theorem escalated_locks (s : State) (region : Nat) : (s.escalated region).locks = s.locks := by simp [State.escalated]
@[simp] theorem showFn_locks (s : State) : s.showFn.locks = s.locks := by simp [State.showFn]
@[simp] theorem recRoom_locks (s : State) : s.recRoom.locks = s.locks := by simp [State.recRoom]

@[simp] theorem fault_locks (s : State) (f : FaultInfo) : (s.fault f).locks = s.locks := by
  unfold State.fault
  split <;> simp

@[simp] theorem faultGone_locks (s : State) (code sub unit : Nat) : (s.faultGone code sub unit).locks = s.locks := by
  simp [State.faultGone]

@[simp] theorem raiseSafe_locks (s : State) (kind scope mode region recno code unit : Nat) :
    (s.raiseSafe kind scope mode region recno code unit).locks = s.locks := by
  simp [State.raiseSafe]

@[simp] theorem cfgLeave_locks (s : State) (sel : Nat → Bool) : (s.cfgLeave sel).locks = s.locks := by simp [State.cfgLeave]
@[simp] theorem fits_locks (s : State) (a : Nat) : (s.fits a).locks = s.locks := by simp [State.fits]
@[simp] theorem hostErr_locks (s : State) (i : Iface) (cause a : Nat) : (s.hostErr i cause a).locks = s.locks := by simp [State.hostErr]
@[simp] theorem domUp_locks (s : State) (d : Nat) : (s.domUp d).locks = s.locks := by simp [State.domUp]

/-! ## Bank words and packets -/

@[simp] theorem raiseBankRepair_locks (s : State) (kind bank spare cause row col bit : Nat) :
    (s.raiseBankRepair kind bank spare cause row col bit).locks = s.locks := by
  simp [State.raiseBankRepair]

@[simp] theorem retpend_locks (s : State) (b cause row col bit : Nat) : (s.retpend b cause row col bit).locks = s.locks := by
  simp [State.retpend]
@[simp] theorem replaceRow_locks (s : State) (r : RowRepl) : (s.replaceRow r).locks = s.locks := by simp [State.replaceRow]
@[simp] theorem dealUnc_locks (s : State) (b row col : Nat) : (s.dealUnc b row col).locks = s.locks := by simp [State.dealUnc]
@[simp] theorem bankUnc_locks (s : State) (b row col : Nat) : (s.bankUnc b row col).locks = s.locks := by simp [State.bankUnc]
@[simp] theorem deliverPoison_locks (s : State) (a : Nat) : (s.deliverPoison a).locks = s.locks := by simp [State.deliverPoison]
@[simp] theorem resync_locks (s : State) (n opcode : Nat) (cseq : BitVec 16) : (s.resync n opcode cseq).locks = s.locks := by
  simp [State.resync]
@[simp] theorem readPoison_locks (s : State) (n i k : Nat) : (s.readPoison n i k).locks = s.locks := by simp [State.readPoison]

@[simp] theorem consume_locks {judge : State → State} (h : ∀ t, (judge t).locks = t.locks) (s : State) (n k opcode : Nat)
    (cseq : BitVec 16) : (s.consume n k opcode cseq judge).locks = s.locks := by
  simp [State.consume, h]

@[simp] theorem takeUnknown_locks (s : State) (n : Nat) : (s.takeUnknown n).locks = s.locks := by simp [State.takeUnknown]

/-! ## Speaker channels and the croaker -/

@[simp] theorem modSpk_locks (s : State) (n : Nat) (f : SpkX → SpkX) : (s.modSpk n f).locks = s.locks := by simp [State.modSpk]
@[simp] theorem modGrp_locks (s : State) (g : Nat) (f : GroupX → GroupX) : (s.modGrp g f).locks = s.locks := by simp [State.modGrp]
@[simp] theorem modSlot_locks (s : State) (k : Nat) (f : CrkSlot → CrkSlot) : (s.modSlot k f).locks = s.locks := by simp [State.modSlot]
@[simp] theorem modOut_locks (s : State) (f : OutX → OutX) : (s.modOut f).locks = s.locks := by simp [State.modOut]
@[simp] theorem showLegs_locks (s : State) (n : Nat) : (s.showLegs n).locks = s.locks := by simp [State.showLegs]

@[simp] theorem acSpoil_locks (s : State) (n : Nat) : (s.acSpoil n).locks = s.locks := by
  unfold State.acSpoil
  split <;> simp

@[simp] theorem acWatch_locks (s : State) : s.acWatch.locks = s.locks := by
  unfold State.acWatch
  split <;> simp

@[simp] theorem outShow_locks (s : State) : s.outShow.locks = s.locks := by simp [State.outShow]
@[simp] theorem spkPoll_locks (s : State) : s.spkPoll.locks = s.locks := by simp [State.spkPoll]
@[simp] theorem dcNone_locks (s : State) (n res : Nat) : (s.dcNone n res).locks = s.locks := by simp [State.dcNone]
@[simp] theorem dcDrop_locks (s : State) (p : Nat → Bool) (st : Nat) : (s.dcDrop p st).locks = s.locks := by simp [State.dcDrop]
@[simp] theorem acEnd_locks (s : State) (a : AcTest) (acres cest st : Nat) : (s.acEnd a acres cest st).locks = s.locks := by
  simp [State.acEnd]

@[simp] theorem acDrop_locks (s : State) (p : AcTest → Bool) (st : Nat) : (s.acDrop p st).locks = s.locks := by
  unfold State.acDrop
  split <;> simp

@[simp] theorem diagPoll_locks (s : State) : s.diagPoll.locks = s.locks := by simp [State.diagPoll]
@[simp] theorem diagAbort_locks (s : State) (n : Nat) : (s.diagAbort n).locks = s.locks := by simp [State.diagAbort]
@[simp] theorem setPhase_locks (s : State) (n ph : Nat) : (s.setPhase n ph).locks = s.locks := by simp [State.setPhase]

@[simp] theorem supersede_locks (s : State) (opcode n : Nat) : (s.supersede opcode n).locks = s.locks := by
  unfold State.supersede
  split <;> simp

@[simp] theorem ramp_locks (s : State) (n ph pos : Nat) (fast : Bool) : (s.ramp n ph pos fast).locks = s.locks := by simp [State.ramp]
@[simp] theorem tryUnmute_locks (s : State) (n : Nat) : (s.tryUnmute n).locks = s.locks := by simp [State.tryUnmute]
@[simp] theorem toHold_locks (s : State) (n : Nat) : (s.toHold n).locks = s.locks := by simp [State.toHold]
@[simp] theorem discharge_locks (s : State) (n : Nat) : (s.discharge n).locks = s.locks := by simp [State.discharge]
@[simp] theorem applyPairs_locks (s : State) (g : Nat) : (s.applyPairs g).locks = s.locks := by simp [State.applyPairs]
@[simp] theorem toOff_locks (s : State) (n : Nat) : (s.toOff n).locks = s.locks := by simp [State.toOff]
@[simp] theorem beginCheck_locks (s : State) (n : Nat) : (s.beginCheck n).locks = s.locks := by simp [State.beginCheck]
@[simp] theorem startChan_locks (s : State) (n : Nat) (alert : Bool) : (s.startChan n alert).locks = s.locks := by simp [State.startChan]
@[simp] theorem stopChan_locks (s : State) (n : Nat) (fast : Bool) : (s.stopChan n fast).locks = s.locks := by simp [State.stopChan]

@[simp] theorem outFault_locks (s : State) (code df sub unit detail : Nat) (active : Bool) :
    (s.outFault code df sub unit detail active).locks = s.locks := by
  simp [State.outFault]

@[simp] theorem recordShort_locks (s : State) (n sclass : Nat) : (s.recordShort n sclass).locks = s.locks := by simp [State.recordShort]
@[simp] theorem unhold_locks (s : State) (n : Nat) : (s.unhold n).locks = s.locks := by simp [State.unhold]
@[simp] theorem holdNow_locks (s : State) (n : Nat) : (s.holdNow n).locks = s.locks := by simp [State.holdNow]

@[simp] theorem ownUse_locks (s : State) (d : Nat) : (s.ownUse d).locks = s.locks := by
  unfold State.ownUse State.need
  split
  · rfl
  · split
    · simp
    · rfl

@[simp] theorem autostart_locks (s : State) (m : Nat) : (s.autostart m).locks = s.locks := by simp [State.autostart]
@[simp] theorem crkLost_locks (s : State) (k n : Nat) : (s.crkLost k n).locks = s.locks := by simp [State.crkLost]
@[simp] theorem chanLost_locks (s : State) (n : Nat) : (s.chanLost n).locks = s.locks := by simp [State.chanLost]
@[simp] theorem faultHold_locks (s : State) (ch why : Nat) : (s.faultHold ch why).locks = s.locks := by simp [State.faultHold]
@[simp] theorem slotStart_locks (s : State) (k : Nat) (alert : Bool) : (s.slotStart k alert).locks = s.locks := by simp [State.slotStart]
@[simp] theorem alertEval_locks (s : State) : s.alertEval.locks = s.locks := by simp [State.alertEval]

/-! ## Headphone, line and CV outputs -/

@[simp] theorem modHp_locks (s : State) (o : Nat) (f : HpX → HpX) : (s.modHp o f).locks = s.locks := by simp [State.modHp]
@[simp] theorem showJhold_locks (s : State) : s.showJhold.locks = s.locks := by simp [State.showJhold]
@[simp] theorem hpPoll_locks (s : State) : s.hpPoll.locks = s.locks := by simp [State.hpPoll]
@[simp] theorem setHo_locks (s : State) (o ph : Nat) : (s.setHo o ph).locks = s.locks := by simp [State.setHo]
@[simp] theorem hoRamp_locks (s : State) (o ph pos : Nat) : (s.hoRamp o ph pos).locks = s.locks := by simp [State.hoRamp]
@[simp] theorem hoTry_locks (s : State) (o : Nat) : (s.hoTry o).locks = s.locks := by simp [State.hoTry]
@[simp] theorem hoMuteNow_locks (s : State) (o : Nat) : (s.hoMuteNow o).locks = s.locks := by simp [State.hoMuteNow]
@[simp] theorem hoBegin_locks (s : State) (o : Nat) : (s.hoBegin o).locks = s.locks := by simp [State.hoBegin]
@[simp] theorem hoStart_locks (s : State) (o : Nat) : (s.hoStart o).locks = s.locks := by simp [State.hoStart]
@[simp] theorem hoStop_locks (s : State) (o : Nat) : (s.hoStop o).locks = s.locks := by simp [State.hoStop]
@[simp] theorem hplChanged_locks (s : State) : s.hplChanged.locks = s.locks := by simp [State.hplChanged]
@[simp] theorem hpJack_locks (s : State) : s.hpJack.locks = s.locks := by simp [State.hpJack]
@[simp] theorem hpSafe_locks (s : State) (off : Bool) : (s.hpSafe off).locks = s.locks := by simp [State.hpSafe]
@[simp] theorem modCv_locks (s : State) (n : Nat) (f : CvX → CvX) : (s.modCv n f).locks = s.locks := by simp [State.modCv]
@[simp] theorem cvPut_locks (s : State) (n c : Nat) : (s.cvPut n c).locks = s.locks := by simp [State.cvPut]
@[simp] theorem cvSettle_locks (s : State) (n : Nat) : (s.cvSettle n).locks = s.locks := by simp [State.cvSettle]
@[simp] theorem cvSettleAll_locks (s : State) : s.cvSettleAll.locks = s.locks := by simp [State.cvSettleAll]
@[simp] theorem cvSlew_locks (s : State) (n k : Nat) : (s.cvSlew n k).locks = s.locks := by simp [State.cvSlew]
@[simp] theorem cvWrite_locks (s : State) (n : Nat) (w : Word) : (s.cvWrite n w).locks = s.locks := by simp [State.cvWrite]

/-! ## Reactions to faults -/

@[simp] theorem chipState_locks (s : State) (mode recno region code unit : Nat) :
    (s.chipState mode recno region code unit).locks = s.locks := by
  simp [State.chipState]

@[simp] theorem reactM_locks (s : State) (recno region code unit : Nat) : (s.reactM recno region code unit).locks = s.locks := by
  simp [State.reactM]
@[simp] theorem reactO_locks (s : State) (recno region code unit : Nat) : (s.reactO recno region code unit).locks = s.locks := by
  simp [State.reactO]
@[simp] theorem reactF_locks (s : State) (recno region code unit : Nat) : (s.reactF recno region code unit).locks = s.locks := by
  simp [State.reactF]
@[simp] theorem markFn_locks (s : State) (recno : Nat) : (s.markFn recno).locks = s.locks := by simp [State.markFn]

@[simp] theorem react_locks (s : State) (r : Reaction) (recno region code unit : Nat) :
    (s.react r recno region code unit).locks = s.locks := by
  unfold State.react
  split <;> simp

@[simp] theorem passUp_locks (s : State) (f : FaultInfo) : (s.passUp f).locks = s.locks := by simp [State.passUp]
@[simp] theorem toChip_locks (s : State) (f : FaultInfo) : (s.toChip f).locks = s.locks := by simp [State.toChip]

/-! ## Input front ends -/

@[simp] theorem showFe_locks (s : State) : s.showFe.locks = s.locks := by simp [State.showFe]
@[simp] theorem modInp_locks (s : State) (f : Inputs → Inputs) : (s.modInp f).locks = s.locks := by simp [State.modInp]
@[simp] theorem aadcChanged_locks (s : State) (n : Nat) (old : Word) : (s.aadcChanged n old).locks = s.locks := by
  simp [State.aadcChanged]
@[simp] theorem pdmChanged_locks (s old : State) : (s.pdmChanged old).locks = s.locks := by simp [State.pdmChanged]
@[simp] theorem biasRamp_locks (s : State) (n : Nat) : (s.biasRamp n).locks = s.locks := by simp [State.biasRamp]
@[simp] theorem micbChanged_locks (s : State) : s.micbChanged.locks = s.locks := by simp [State.micbChanged]

/-! ## Engines, the graph and the leap buffer -/

@[simp] theorem setRole_locks (s : State) (n r l : Nat) : (s.setRole n r l).locks = s.locks := by simp [State.setRole]
@[simp] theorem respare_locks (s : State) : s.respare.locks = s.locks := by simp [State.respare]
@[simp] theorem modLe_locks (s : State) (l : Nat) (f : LEngine → LEngine) : (s.modLe l f).locks = s.locks := by simp [State.modLe]
@[simp] theorem modGraph_locks (s : State) (f : Graph → Graph) : (s.modGraph f).locks = s.locks := by simp [State.modGraph]
@[simp] theorem setEngWord_locks (s : State) (n a : Nat) (w : Word) : (s.setEngWord n a w).locks = s.locks := by simp [State.setEngWord]

@[simp] theorem loadSpan_locks (g : GImage) (n : Nat) : ∀ (k ofs a : Nat) (s : State), (s.loadSpan g ofs n a k).locks = s.locks
  | 0, _, _, _ => rfl
  | k + 1, _, _, _ => by simp [State.loadSpan, loadSpan_locks g n k]

@[simp] theorem loadImem_locks (s : State) (g : GImage) (l n : Nat) : (s.loadImem g l n).locks = s.locks := by simp [State.loadImem]
@[simp] theorem loadData_locks (s : State) (g : GImage) (l n : Nat) : (s.loadData g l n).locks = s.locks := by simp [State.loadData]
@[simp] theorem modLeap_locks (s : State) (c : Nat) (f : LeapCh → LeapCh) : (s.modLeap c f).locks = s.locks := by simp [State.modLeap]
@[simp] theorem retract_locks (s : State) (c : Nat) : (s.retract c).locks = s.locks := by simp [State.retract]

@[simp] theorem raiseEngineRepair_locks (s : State) (kind failed spare l shed chans first : Nat) :
    (s.raiseEngineRepair kind failed spare l shed chans first).locks = s.locks := by
  simp [State.raiseEngineRepair]

@[simp] theorem shedTasks_locks (s : State) (g : GImage) (ts : List GTask) : (s.shedTasks g ts).locks = s.locks := by
  simp [State.shedTasks]

@[simp] theorem shedOne_locks (s : State) (g : GImage) (l n code : Nat) (t : Option GTask) :
    (s.shedOne g l n code t).locks = s.locks := by
  cases t <;> simp [State.shedOne]

@[simp] theorem toSelfTest_locks (s : State) (n : Nat) : (s.toSelfTest n).locks = s.locks := by simp [State.toSelfTest]
@[simp] theorem rollBack_locks (s : State) (g : GImage) (l : Nat) : (s.rollBack g l).locks = s.locks := by simp [State.rollBack]
@[simp] theorem bypassOnly_locks (s : State) (g : GImage) (l : Nat) : (s.bypassOnly g l).locks = s.locks := by simp [State.bypassOnly]

@[simp] theorem tailDrop_locks (s : State) (g : GImage) (l n code first restore kind chans : Nat) :
    (s.tailDrop g l n code first restore kind chans).locks = s.locks := by
  simp [State.tailDrop]

@[simp] theorem assign_locks (s : State) (l sp r : Nat) : (s.assign l sp r).locks = s.locks := by simp [State.assign]

@[simp] theorem regrowOn_locks (s : State) (g : GImage) (l n code first restore kind chans : Nat) (sp : Option Nat) :
    (s.regrowOn g l n code first restore kind chans sp).locks = s.locks := by
  cases sp <;> simp [State.regrowOn]

@[simp] theorem failRunning_locks (s : State) (g : GImage) (l n code : Nat) : (s.failRunning g l n code).locks = s.locks := by
  simp [State.failRunning]

@[simp] theorem placeOn_locks (s : State) (g : GImage) (l n code : Nat) (sp : Option Nat) :
    (s.placeOn g l n code sp).locks = s.locks := by
  cases sp <;> simp [State.placeOn]

@[simp] theorem failPlaced_locks (s : State) (g : GImage) (l n code : Nat) : (s.failPlaced g l n code).locks = s.locks := by
  simp [State.failPlaced]
@[simp] theorem countEngine_locks (s : State) (n code : Nat) : (s.countEngine n code).locks = s.locks := by simp [State.countEngine]

@[simp] theorem serveEngine_locks (s : State) (n code task : Nat) : (s.serveEngine n code task).locks = s.locks := by
  unfold State.serveEngine
  split <;> simp

@[simp] theorem engineFails_locks (s : State) (n code : Nat) (inj : Bool) (task : Nat) :
    (s.engineFails n code inj task).locks = s.locks := by
  unfold State.engineFails
  split
  · rfl
  · dsimp only
    generalize ht : (if code = 0x203 ∨ code = 0x204 then (s.countEngine n code).fault (engineFault code n inj) else _) = t
    have h : t.locks = s.locks := by simp [← ht]
    split
    · exact h
    · split <;> simp [h]

/-! ## Ports, output writes and the carrier -/

@[simp] theorem showBdiv_locks (s : State) (p : Nat) : (s.showBdiv p).locks = s.locks := by simp [State.showBdiv]
@[simp] theorem startWrite_locks (s : State) (n : Nat) : (s.startWrite n).locks = s.locks := by simp [State.startWrite]
@[simp] theorem stopWrite_locks (s : State) (n : Nat) : (s.stopWrite n).locks = s.locks := by simp [State.stopWrite]
@[simp] theorem modClk_locks (s : State) (f : ClkX → ClkX) : (s.modClk f).locks = s.locks := by simp [State.modClk]
@[simp] theorem showSw_locks (s : State) : s.showSw.locks = s.locks := by simp [State.showSw]

@[simp] theorem rampTick_locks (s : State) (n : Nat) : (s.rampTick n).locks = s.locks := by
  unfold State.rampTick
  split <;> simp

@[simp] theorem winTick_locks (s : State) (n : Nat) : (s.winTick n).locks = s.locks := by simp [State.winTick]
@[simp] theorem alignOuts_locks (s : State) (lead : Int) : (s.alignOuts lead).locks = s.locks := by simp [State.alignOuts]
@[simp] theorem swStart_locks (s : State) : s.swStart.locks = s.locks := by simp [State.swStart]
@[simp] theorem swUpdate_locks (s : State) : s.swUpdate.locks = s.locks := by simp [State.swUpdate]

/-! ## Monitoring converters, power and ageing -/

@[simp] theorem showRef_locks (s : State) : s.showRef.locks = s.locks := by simp [State.showRef]
@[simp] theorem madcResume_locks (s : State) : s.madcResume.locks = s.locks := by simp [State.madcResume]
@[simp] theorem modPwr_locks (s : State) (f : Pwr → Pwr) : (s.modPwr f).locks = s.locks := by simp [State.modPwr]
@[simp] theorem showGpio_locks (s : State) : s.showGpio.locks = s.locks := by simp [State.showGpio]
@[simp] theorem spareUp_locks (s : State) : s.spareUp.locks = s.locks := by simp [State.spareUp]
@[simp] theorem clocksUp_locks (s : State) : s.clocksUp.locks = s.locks := by simp [State.clocksUp]
@[simp] theorem monitorUp_locks (s : State) : s.monitorUp.locks = s.locks := by simp [State.monitorUp]
@[simp] theorem modAge_locks (s : State) (f : AgeX → AgeX) : (s.modAge f).locks = s.locks := by simp [State.modAge]
@[simp] theorem ringStale_locks (s : State) : s.ringStale.locks = s.locks := by simp [State.ringStale]
@[simp] theorem raiseAgeing_locks (s : State) (kind chan value : Nat) : (s.raiseAgeing kind chan value).locks = s.locks := by
  simp [State.raiseAgeing]

@[simp] theorem planFloor_locks (s : State) : s.planFloor.locks = s.locks := by
  unfold State.planFloor
  split <;> simp

@[simp] theorem request_locks (s : State) (v : Nat) : (s.request v).locks = s.locks := by simp [State.request]
@[simp] theorem planChan_locks (s : State) (n : Nat) : (s.planChan n).locks = s.locks := by simp [State.planChan]
@[simp] theorem setCap_locks (s : State) (g c : Nat) : (s.setCap g c).locks = s.locks := by simp [State.setCap]
@[simp] theorem planCap_locks (s : State) (g : Nat) : (s.planCap g).locks = s.locks := by simp [State.planCap]
@[simp] theorem planRest_locks (s : State) : s.planRest.locks = s.locks := by simp [State.planRest]

@[simp] theorem replan_locks (s : State) : s.replan.locks = s.locks := by
  unfold State.replan
  dsimp only
  split <;> simp

@[simp] theorem planDue_locks (s : State) : s.planDue.locks = s.locks := by simp [State.planDue]

/-! ## The boot of Papol -/

@[simp] theorem takeImage_locks (s : State) (img : List Word) : (s.takeImage img).locks = s.locks := by simp [State.takeImage]
@[simp] theorem setBoot_locks (s : State) (b : BootPhase) : (s.setBoot b).locks = s.locks := by simp [State.setBoot]
@[simp] theorem setRun_locks (s : State) (r : PapolRun) : (s.setRun r).locks = s.locks := by simp [State.setRun]
@[simp] theorem ready_locks (s : State) (img : List Word) (src : Nat) : (s.ready img src).locks = s.locks := by simp [State.ready]
@[simp] theorem bootGo_locks (s : State) : s.bootGo.locks = s.locks := by simp [State.bootGo]

/-! ## Writes that land and reads -/

@[simp] theorem wakeDomain_locks (s : State) (a : Nat) : (s.wakeDomain a).locks = s.locks := by
  unfold State.wakeDomain
  split <;> simp

@[simp] theorem bound_locks (s old : State) (a : Nat) : (s.bound old a).locks = s.locks := by
  unfold State.bound
  repeat' split
  all_goals simp

@[simp] theorem ringCfg_locks (s old : State) (n : Nat) : (s.ringCfg old n).locks = s.locks := by simp [State.ringCfg]
@[simp] theorem ctlLanded_locks (s old : State) (a : Nat) (w : Word) : (s.ctlLanded old a w).locks = s.locks := by simp [State.ctlLanded]
@[simp] theorem inLanded_locks (s old : State) (a : Nat) : (s.inLanded old a).locks = s.locks := by simp [State.inLanded]
@[simp] theorem outLanded_locks (s : State) (a : Nat) (w : Word) : (s.outLanded a w).locks = s.locks := by simp [State.outLanded]
@[simp] theorem safeLanded_locks (s : State) (a : Nat) (w : Word) : (s.safeLanded a w).locks = s.locks := by simp [State.safeLanded]
@[simp] theorem landed_locks (s old : State) (a : Nat) (w : Word) : (s.landed old a w).locks = s.locks := by simp [State.landed]
@[simp] theorem land_locks (s : State) (a : Nat) (w : Word) : (s.land a w).locks = s.locks := by simp [State.land]

@[simp] theorem sendWrite_locks (s : State) (i : Iface) (a : Nat) (w : Word) : (s.sendWrite i a w).locks = s.locks := by
  unfold State.sendWrite
  dsimp only
  split <;> simp

@[simp] theorem deliverWord_locks (s : State) (w : Word) (ok : Bool) : (s.deliverWord w ok).locks = s.locks := by simp [State.deliverWord]
@[simp] theorem readErr_locks (s : State) (i : Iface) (cause a : Nat) : (s.readErr i cause a).locks = s.locks := by simp [State.readErr]
@[simp] theorem readTad_locks (s : State) (i : Iface) (a : Nat) : (s.readTad i a).locks = s.locks := by simp [State.readTad]

@[simp] theorem capture_locks (s : State) (i : Iface) (a : Nat) : (s.capture i a).locks = s.locks := by
  unfold State.capture
  dsimp only
  split <;> simp

@[simp] theorem readNow_locks (s : State) (i : Iface) (a : Nat) : (s.readNow i a).locks = s.locks := by simp [State.readNow]
@[simp] theorem hostRead_locks (s : State) (i : Iface) (a : Nat) : (s.hostRead i a).locks = s.locks := by simp [State.hostRead]

@[simp] theorem readRun_locks (inc : Bool) : ∀ (n a : Nat) (s : State), (State.readRun inc n a s).1.locks = s.locks
  | 0, _, _ => rfl
  | n + 1, a, s => by
    unfold State.readRun
    dsimp only
    split
    next => rw [readRun_locks inc n, hostRead_locks]
    next stalls => exact hostRead_locks s .host a

@[simp] theorem i2cRead_locks (s : State) (head : Byte) (n : Nat) : (s.i2cRead head n).locks = s.locks := by
  simp [State.i2cRead, State.setPtr]

/-! ## A tick -/

@[simp] theorem cycTick_locks (s : State) (g k : Nat) : (s.cycTick g k).locks = s.locks := by simp [State.cycTick]
@[simp] theorem moves_locks (s : State) (k : Nat) : (s.moves k).locks = s.locks := by simp [State.moves]
@[simp] theorem idle_locks (s : State) : s.idle.locks = s.locks := by simp [State.idle]

end Sys2Proof.Machine
end

section
/-!
# The write that closes a guard lock (spec/03_register_access.md, R140, R145)
-/

namespace Sys2Proof.Machine

/-! ## The lock of each interface -/

theorem lockOpen_congr {s t : State} (h : t.locks = s.locks) (i : Iface) : t.lockOpen i = s.lockOpen i := by
  obtain ⟨host, debug⟩ := Prod.mk.inj h
  unfold State.lockOpen
  rw [host, debug]

@[simp] theorem lockOpen_setLock_same (s : State) (i : Iface) (b : Bool) : (s.setLock i b).lockOpen i = b := by
  cases i <;> rfl

theorem lockOpen_setLock_ne (s : State) (b : Bool) : ∀ {i j : Iface}, i ≠ j → (s.setLock i b).lockOpen j = s.lockOpen j
  | .host, .debug, _ => rfl
  | .debug, .host, _ => rfl
  | .host, .host, ne => absurd rfl ne
  | .debug, .debug, ne => absurd rfl ne

/-- HOST_UNLOCK is a register, and stands in no domain. -/
theorem hostUnlock_reaches (s : State) : regRow? Reg.HOST_UNLOCK ≠ none ∧ s.unpowered Reg.HOST_UNLOCK = false :=
  ⟨by decide, rfl⟩

/-- A write word at HOST_UNLOCK is judged as a key. -/
theorem hostWrite_hostUnlock {s : State} {i : Iface} (w : Word) (ready : s.ifaceReady i = true) :
    s.hostWrite i Reg.HOST_UNLOCK w = (s.sysRun.setLock i false).unlock i w := by
  obtain ⟨mapped, powered⟩ := hostUnlock_reaches s
  unfold State.hostWrite
  rw [if_neg (by simp [ready])]
  dsimp only
  rw [if_neg (by decide), if_neg (by decide), if_neg (by decide), if_neg mapped, if_neg (by simp [powered]), if_pos rfl]

/-- Any other write word leaves both locks as SYS's start and the closing of the writer's lock do. -/
theorem hostWrite_locks {s : State} {i : Iface} {a : Nat} (w : Word) (ready : s.ifaceReady i = true) (h : a ≠ Reg.HOST_UNLOCK) :
    (s.hostWrite i a w).locks = (s.sysRun.setLock i false).locks := by
  simp [State.hostWrite, ready, h]

/-- After a write word the writer's lock is open exactly where the word was the key at HOST_UNLOCK (R145, R148). -/
theorem hostWrite_lockOpen_same {s : State} {i : Iface} (a : Nat) (w : Word) (ready : s.ifaceReady i = true) :
    (s.hostWrite i a w).lockOpen i = decide (a = Reg.HOST_UNLOCK ∧ w = 0xC3A5) := by
  by_cases h : a = Reg.HOST_UNLOCK
  · subst h
    rw [hostWrite_hostUnlock w ready]
    unfold State.unlock
    split
    next key => simp [key]
    next other =>
      rw [lockOpen_congr (hostErr_locks _ i _ _), lockOpen_setLock_same]
      exact (decide_eq_false fun key => other key.2).symm
  · rw [lockOpen_congr (hostWrite_locks w ready h), lockOpen_setLock_same]
    simp [h]

/-- A write word leaves the other interface's lock (R140). -/
theorem hostWrite_lockOpen_ne {s : State} {i j : Iface} (a : Nat) (w : Word) (ready : s.ifaceReady i = true) (ne : i ≠ j) :
    (s.hostWrite i a w).lockOpen j = s.lockOpen j := by
  have closed : (s.sysRun.setLock i false).lockOpen j = s.lockOpen j :=
    (lockOpen_setLock_ne s.sysRun false ne).trans (lockOpen_congr (sysRun_locks s) j)
  by_cases h : a = Reg.HOST_UNLOCK
  · subst h
    rw [hostWrite_hostUnlock w ready]
    unfold State.unlock
    split
    · rw [lockOpen_setLock_ne _ true ne, closed]
    · rw [lockOpen_congr (hostErr_locks _ i _ _), closed]
  · rw [lockOpen_congr (hostWrite_locks w ready h), closed]

/-! ## The statement -/

theorem execSpiFrameEnd_partialWrite_locks (s : State) (a : BitVec 24) :
    ∃ t, exec (.spiFrameEnd (.partialWrite a)) s = .next t ∧ t.locks = s.locks :=
  ⟨_, rfl, by simp⟩

theorem execI2cStop_partialWord_locks (s : State) (a : BitVec 24) :
    ∃ t, exec (.i2cStop (.words (some a))) s = .next t ∧ t.locks = s.locks :=
  ⟨_, rfl, by simp⟩

theorem execI2cStop_read_locks (s : State) (head : Byte) (n : Nat) :
    ∃ t, exec (.i2cStop (.read head n)) s = .next t ∧ t.locks = s.locks :=
  ⟨_, rfl, by simp⟩

theorem step_idle {s : State} (h : s.pending = []) : step s = .next s.idle := by
  unfold step
  rw [h]

/-- Settles O10, by what a write word leaves of the locks and by the locks that every other operation leaves alone. -/
theorem nextWriteClosesTheGuardLock : Obligations.NextWriteClosesTheGuardLock := by
  intro i j a w s ready ne kept
  have keeps : ∀ {o : Host.Outcome State Fault Refusal}, (∃ t, o = .next t ∧ t.locks = s.locks) → ∃ t, o = .next t ∧ kept t :=
    fun ⟨t, run, h⟩ => ⟨t, run, lockOpen_congr h i, lockOpen_congr h j⟩
  have read : ∃ t, exec (.rcRead i a) s = .next t ∧ t.locks = s.locks := ⟨_, rfl, hostRead_locks s i _⟩
  exact ⟨⟨_, rfl, hostWrite_lockOpen_same _ w ready, hostWrite_lockOpen_ne _ w ready ne⟩, keeps read, keeps read,
    keeps (execSpiFrameEnd_partialWrite_locks s a), keeps (execI2cStop_partialWord_locks s a),
    fun head n => keeps (execI2cStop_read_locks s head n), fun h => keeps ⟨_, step_idle h, idle_locks s⟩⟩

end Sys2Proof.Machine
end

section
/-!
# What every step keeps

`Keeps` (Laws/Keeps.lean) says of an operation that it keeps the stores canonical and within their capacities, the programmed fuses and
the queue. Each command's meaning has it (`exec<Command>_keeps`), and so has the idle tick.
-/

namespace Sys2Proof.Machine

/-- Every command keeps what `Keeps` speaks of. -/
theorem exec_keeps (c : Instr) (s : State) : OutKeeps s (exec c s) :=
  match c with
  | .nop _ => execNop_keeps (.refl s)
  | .stateSync _ => execStateSync_keeps (.refl s)
  | .journalRead _ => execJournalRead_keeps (.refl s)
  | .sysInfo _ => execSysInfo_keeps (.refl s)
  | .eventCfg _ => execEventCfg_keeps (.refl s)
  | .loopPin _ => execLoopPin_keeps (.refl s)
  | .sysReset _ => execSysReset_keeps (.refl s)
  | .sysResetExecute => execSysResetExecute_keeps (.refl s)
  | .streamOpen _ => execStreamOpen_keeps (.refl s)
  | .streamClose _ => execStreamClose_keeps (.refl s)
  | .streamCloseForce _ => execStreamCloseForce_keeps (.refl s)
  | .streamCloseDone _ => execStreamCloseDone_keeps (.refl s)
  | .streamStatus _ => execStreamStatus_keeps (.refl s)
  | .streamFrame _ _ => execStreamFrame_keeps (.refl s)
  | .portCfg _ => execPortCfg_keeps (.refl s)
  | .portEnable _ => execPortEnable_keeps (.refl s)
  | .portFrameFound _ => execPortFrameFound_keeps (.refl s)
  | .tdmFrame _ _ _ => execTdmFrame_keeps (.refl s)
  | .tdmLost _ => execTdmLost_keeps (.refl s)
  | .rateerr _ _ => execRateerr_keeps (.refl s)
  | .tdmFmtApply _ => execTdmFmtApply_keeps (.refl s)
  | .spdifRxCfg _ => execSpdifRxCfg_keeps (.refl s)
  | .spdifTxCfg _ => execSpdifTxCfg_keeps (.refl s)
  | .spdifCsRead _ => execSpdifCsRead_keeps (.refl s)
  | .spdifCsWrite _ => execSpdifCsWrite_keeps (.refl s)
  | .spdifLock _ => execSpdifLock_keeps (.refl s)
  | .spdifLost => execSpdifLost_keeps (.refl s)
  | .spdifCsBlock _ _ _ _ _ => execSpdifCsBlock_keeps (.refl s)
  | .asrcCfg _ => execAsrcCfg_keeps (.refl s)
  | .asrcLock _ => execAsrcLock_keeps (.refl s)
  | .asrcUnlock _ => execAsrcUnlock_keeps (.refl s)
  | .graphLoad _ => execGraphLoad_keeps (.refl s)
  | .graphLoadDone => execGraphLoadDone_keeps (.refl s)
  | .graphStart _ => execGraphStart_keeps (.refl s)
  | .graphStop _ => execGraphStop_keeps (.refl s)
  | .graphStopDone => execGraphStopDone_keeps (.refl s)
  | .graphMolt _ => execGraphMolt_keeps (.refl s)
  | .graphMoltSwap => execGraphMoltSwap_keeps (.refl s)
  | .graphParam _ => execGraphParam_keeps (.refl s)
  | .spareReserve _ => execSpareReserve_keeps (.refl s)
  | .engineStatus _ => execEngineStatus_keeps (.refl s)
  | .blockTick => execBlockTick_keeps (.refl s)
  | .checkpointSeal _ _ => execCheckpointSeal_keeps (.refl s)
  | .engineBlockEnd _ _ => execEngineBlockEnd_keeps (.refl s)
  | .leapRead _ _ _ => execLeapRead_keeps (.refl s)
  | .lockstep _ => execLockstep_keeps (.refl s)
  | .engecc _ => execEngecc_keeps (.refl s)
  | .engprog _ _ => execEngprog_keeps (.refl s)
  | .spareLoadDone _ => execSpareLoadDone_keeps (.refl s)
  | .engineSelftestDone _ _ => execEngineSelftestDone_keeps (.refl s)
  | .inject _ _ => execInject_keeps (.refl s)
  | .scrubRead _ _ _ _ => execScrubRead_keeps (.refl s)
  | .rowReplaceDone _ => execRowReplaceDone_keeps (.refl s)
  | .bankRetire _ => execBankRetire_keeps (.refl s)
  | .marchRun _ => execMarchRun_keeps (.refl s)
  | .marchRunAbort _ => execMarchRunAbort_keeps (.refl s)
  | .marchRowStart _ => execMarchRowStart_keeps (.refl s)
  | .marchRowRelease _ => execMarchRowRelease_keeps (.refl s)
  | .spkGroupCfg _ => execSpkGroupCfg_keeps (.refl s)
  | .spkChanCfg _ => execSpkChanCfg_keeps (.refl s)
  | .spkEnable _ => execSpkEnable_keeps (.refl s)
  | .spkDisable _ => execSpkDisable_keeps (.refl s)
  | .spkLimit _ => execSpkLimit_keeps (.refl s)
  | .spkRetry _ => execSpkRetry_keeps (.refl s)
  | .start _ _ => execStart_keeps (.refl s)
  | .stop _ _ => execStop_keeps (.refl s)
  | .spkPendingStart _ => execSpkPendingStart_keeps (.refl s)
  | .spkCheckDone _ _ => execSpkCheckDone_keeps (.refl s)
  | .spkChargeDone _ => execSpkChargeDone_keeps (.refl s)
  | .spkLockDone _ => execSpkLockDone_keeps (.refl s)
  | .spkUnmuteDone _ => execSpkUnmuteDone_keeps (.refl s)
  | .spkMuteDone _ => execSpkMuteDone_keeps (.refl s)
  | .spkDischargeDone _ => execSpkDischargeDone_keeps (.refl s)
  | .muteNFall => execMuteNFall_keeps (.refl s)
  | .muteNRise => execMuteNRise_keeps (.refl s)
  | .ilimTrip _ _ _ => execIlimTrip_keeps (.refl s)
  | .shortClassify _ _ _ => execShortClassify_keeps (.refl s)
  | .retryPulse _ _ _ => execRetryPulse_keeps (.refl s)
  | .dcWindow _ _ _ => execDcWindow_keeps (.refl s)
  | .pvdduv _ => execPvdduv_keeps (.refl s)
  | .pvddov _ => execPvddov_keeps (.refl s)
  | .pvddRestart _ => execPvddRestart_keeps (.refl s)
  | .thermalSample _ _ _ _ _ => execThermalSample_keeps (.refl s)
  | .sliceDrop _ _ _ => execSliceDrop_keeps (.refl s)
  | .legFault _ _ => execLegFault_keeps (.refl s)
  | .legRegrowRelease _ => execLegRegrowRelease_keeps (.refl s)
  | .spareSelftest _ _ => execSpareSelftest_keeps (.refl s)
  | .legSelftestDone _ _ _ => execLegSelftestDone_keeps (.refl s)
  | .xptUpdate _ _ => execXptUpdate_keeps (.refl s)
  | .xptTransfer _ => execXptTransfer_keeps (.refl s)
  | .croakerCfg _ => execCroakerCfg_keeps (.refl s)
  | .croakerPlay _ => execCroakerPlay_keeps (.refl s)
  | .alertRise _ => execAlertRise_keeps (.refl s)
  | .alertFall _ => execAlertFall_keeps (.refl s)
  | .croakerSlotEnd _ => execCroakerSlotEnd_keeps (.refl s)
  | .hplineCfg _ => execHplineCfg_keeps (.refl s)
  | .hpPumpDone => execHpPumpDone_keeps (.refl s)
  | .hpReleaseDone _ => execHpReleaseDone_keeps (.refl s)
  | .hpUnmuteDone _ => execHpUnmuteDone_keeps (.refl s)
  | .hpMuteDone _ => execHpMuteDone_keeps (.refl s)
  | .hpShortDone _ => execHpShortDone_keeps (.refl s)
  | .cvCfg _ => execCvCfg_keeps (.refl s)
  | .cvTrack _ => execCvTrack_keeps (.refl s)
  | .cvDeglitchEnd _ => execCvDeglitchEnd_keeps (.refl s)
  | .clrNFall => execClrNFall_keeps (.refl s)
  | .clrNRise => execClrNRise_keeps (.refl s)
  | .pllCfg _ => execPllCfg_keeps (.refl s)
  | .swpllSet _ => execSwpllSet_keeps (.refl s)
  | .rampLoad _ => execRampLoad_keeps (.refl s)
  | .tunedFreq _ => execTunedFreq_keeps (.refl s)
  | .chameleonCfg _ => execChameleonCfg_keeps (.refl s)
  | .syncCfg _ => execSyncCfg_keeps (.refl s)
  | .swpllUpdate _ => execSwpllUpdate_keeps (.refl s)
  | .swpllTransfer => execSwpllTransfer_keeps (.refl s)
  | .rampEnd => execRampEnd_keeps (.refl s)
  | .pllWindow _ _ => execPllWindow_keeps (.refl s)
  | .pllCoastExpire _ => execPllCoastExpire_keeps (.refl s)
  | .refLost => execRefLost_keeps (.refl s)
  | .refReturn => execRefReturn_keeps (.refl s)
  | .syncInEdge _ _ => execSyncInEdge_keeps (.refl s)
  | .syncTimeout => execSyncTimeout_keeps (.refl s)
  | .aonXt32Switch => execAonXt32Switch_keeps (.refl s)
  | .aonfail => execAonfail_keeps (.refl s)
  | .loadDcTest _ => execLoadDcTest_keeps (.refl s)
  | .loadDcChannelDone _ _ _ => execLoadDcChannelDone_keeps (.refl s)
  | .loadAcTest _ => execLoadAcTest_keeps (.refl s)
  | .acToneDone _ _ => execAcToneDone_keeps (.refl s)
  | .acWindow _ _ _ => execAcWindow_keeps (.refl s)
  | .jackStatus _ => execJackStatus_keeps (.refl s)
  | .jackInsert => execJackInsert_keeps (.refl s)
  | .jackRemove => execJackRemove_keeps (.refl s)
  | .jackClassify _ => execJackClassify_keeps (.refl s)
  | .buttonPress _ => execButtonPress_keeps (.refl s)
  | .buttonRelease _ => execButtonRelease_keeps (.refl s)
  | .ainCfg _ => execAinCfg_keeps (.refl s)
  | .pgaApply _ => execPgaApply_keeps (.refl s)
  | .micbiasCfg _ => execMicbiasCfg_keeps (.refl s)
  | .micbiasRampDone _ => execMicbiasRampDone_keeps (.refl s)
  | .pdmCfg _ => execPdmCfg_keeps (.refl s)
  | .decimCfg _ => execDecimCfg_keeps (.refl s)
  | .zeroiseDone => execZeroiseDone_keeps (.refl s)
  | .tapPeriod _ => execTapPeriod_keeps (.refl s)
  | .wkdLoad _ => execWkdLoad_keeps (.refl s)
  | .wkdLoadDone => execWkdLoadDone_keeps (.refl s)
  | .wkdEnable _ => execWkdEnable_keeps (.refl s)
  | .wkdHop _ => execWkdHop_keeps (.refl s)
  | .gateTimeout => execGateTimeout_keeps (.refl s)
  | .wakeHandover _ => execWakeHandover_keeps (.refl s)
  | .wakeHandoverClose _ => execWakeHandoverClose_keeps (.refl s)
  | .pttCfg _ => execPttCfg_keeps (.refl s)
  | .pttPress => execPttPress_keeps (.refl s)
  | .pttRelease => execPttRelease_keeps (.refl s)
  | .madcSlot _ => execMadcSlot_keeps (.refl s)
  | .madcArbitrate _ _ _ _ => execMadcArbitrate_keeps (.refl s)
  | .madcFailover => execMadcFailover_keeps (.refl s)
  | .madcCoreTest _ _ _ => execMadcCoreTest_keeps (.refl s)
  | .mrefCheck _ _ => execMrefCheck_keeps (.refl s)
  | .resume _ => execResume_keeps (.refl s)
  | .madcRead _ _ _ _ => execMadcRead_keeps (.refl s)
  | .tdacTest _ _ _ => execTdacTest_keeps (.refl s)
  | .powerState _ => execPowerState_keeps (.refl s)
  | .powerStepDone => execPowerStepDone_keeps (.refl s)
  | .brumateWindowEnd => execBrumateWindowEnd_keeps (.refl s)
  | .brumateExit _ => execBrumateExit_keeps (.refl s)
  | .brumateArrive => execBrumateArrive_keeps (.refl s)
  | .wakeBusMatch => execWakeBusMatch_keeps (.refl s)
  | .gpioWake _ => execGpioWake_keeps (.refl s)
  | .powerPermit _ => execPowerPermit_keeps (.refl s)
  | .powerDomainOn _ => execPowerDomainOn_keeps (.refl s)
  | .powerDomainOff _ => execPowerDomainOff_keeps (.refl s)
  | .powerDomainOffForce _ => execPowerDomainOffForce_keeps (.refl s)
  | .domainPowerDone _ => execDomainPowerDone_keeps (.refl s)
  | .sysOnDemand => execSysOnDemand_keeps (.refl s)
  | .wakeCfg _ => execWakeCfg_keeps (.refl s)
  | .release _ => execRelease_keeps (.refl s)
  | .regAcknowledge _ _ => execRegAcknowledge_keeps (.refl s)
  | .reglink _ _ => execReglink_keeps (.refl s)
  | .safetyCfg _ => execSafetyCfg_keeps (.refl s)
  | .faultRead _ => execFaultRead_keeps (.refl s)
  | .faultClear _ => execFaultClear_keeps (.refl s)
  | .selftestRun _ => execSelftestRun_keeps (.refl s)
  | .selftestDone _ _ => execSelftestDone_keeps (.refl s)
  | .safeRelease _ => execSafeRelease_keeps (.refl s)
  | .deadlineExpire _ => execDeadlineExpire_keeps (.refl s)
  | .parityScan _ _ => execParityScan_keeps (.refl s)
  | .loud _ _ _ _ _ => execLoud_keeps (.refl s)
  | .dutyCheck _ _ => execDutyCheck_keeps (.refl s)
  | .loopmod _ => execLoopmod_keeps (.refl s)
  | .vote _ => execVote_keeps (.refl s)
  | .alertpin => execAlertpin_keeps (.refl s)
  | .voiceStuck _ _ => execVoiceStuck_keeps (.refl s)
  | .smlock => execSmlock_keeps (.refl s)
  | .smwdog => execSmwdog_keeps (.refl s)
  | .fnLatchExpire => execFnLatchExpire_keeps (.refl s)
  | .fnReadback _ => execFnReadback_keeps (.refl s)
  | .clkmon _ _ _ _ => execClkmon_keeps (.refl s)
  | .safeosc _ => execSafeosc_keeps (.refl s)
  | .vmon _ _ => execVmon_keeps (.refl s)
  | .latentTest _ _ => execLatentTest_keeps (.refl s)
  | .sessionOpen _ => execSessionOpen_keeps (.refl s)
  | .sessionOpenDone => execSessionOpenDone_keeps (.refl s)
  | .sessionClose _ => execSessionClose_keeps (.refl s)
  | .sessionIdleTimeout => execSessionIdleTimeout_keeps (.refl s)
  | .lockout => execLockout_keeps (.refl s)
  | .lockoutEnd => execLockoutEnd_keeps (.refl s)
  | .fwMolt _ => execFwMolt_keeps (.refl s)
  | .fwMoltResume => execFwMoltResume_keeps (.refl s)
  | .attest _ => execAttest_keeps (.refl s)
  | .debugChallenge _ => execDebugChallenge_keeps (.refl s)
  | .nonceExpire => execNonceExpire_keeps (.refl s)
  | .debugUnlock _ => execDebugUnlock_keeps (.refl s)
  | .extest => execExtest_keeps (.refl s)
  | .fuseProgram _ => execFuseProgram_keeps (.refl s)
  | .lifecycleAdvance _ => execLifecycleAdvance_keeps (.refl s)
  | .ageingRead _ => execAgeingRead_keeps (.refl s)
  | .replan _ _ _ => execReplan_keeps (.refl s)
  | .replanRun => execReplanRun_keeps (.refl s)
  | .baskRead _ => execBaskRead_keeps (.refl s)
  | .baskTick _ => execBaskTick_keeps (.refl s)
  | .ringOscWindow _ _ _ => execRingOscWindow_keeps (.refl s)
  | .ronSample _ _ _ _ => execRonSample_keeps (.refl s)
  | .repairStatus _ => execRepairStatus_keeps (.refl s)
  | .reset _ => execReset_keeps (.refl s)
  | .boot _ => execBoot_keeps (.refl s)
  | .bootGo _ _ => execBootGo_keeps (.refl s)
  | .supervisorRestart => execSupervisorRestart_keeps (.refl s)
  | .registerWrite _ _ _ => execRegisterWrite_keeps (.refl s)
  | .postedWriteLand _ => execPostedWriteLand_keeps (.refl s)
  | .hostUnlock _ _ => execHostUnlock_keeps (.refl s)
  | .rcRead _ _ => execRcRead_keeps (.refl s)
  | .loRead _ _ => execLoRead_keeps (.refl s)
  | .spiFrameEnd _ => execSpiFrameEnd_keeps (.refl s)
  | .i2cStop _ => execI2cStop_keeps (.refl s)
  | .ringEnable _ _ _ => execRingEnable_keeps (.refl s)
  | .doorbell _ _ _ => execDoorbell_keeps (.refl s)
  | .ringResync _ => execRingResync_keeps (.refl s)
  | .replyWrite => execReplyWrite_keeps (.refl s)
  | .eventWrite => execEventWrite_keeps (.refl s)
  | .eventRepost => execEventRepost_keeps (.refl s)
  | .suplock _ => execSuplock_keeps (.refl s)
  | .safetyMonitorRestart => execSafetyMonitorRestart_keeps (.refl s)
  | .supplyMonitorReset => execSupplyMonitorReset_keeps (.refl s)
  | .pttWake => execPttWake_keeps (.refl s)
  | .regrowSettleEnd _ _ => execRegrowSettleEnd_keeps (.refl s)
  | .loopCoefficientsReloaded _ => execLoopCoefficientsReloaded_keeps (.refl s)
  | .syncInTimeout => execSyncInTimeout_keeps (.refl s)
  | .attestDone => execAttestDone_keeps (.refl s)
  | .debugUnlockDone => execDebugUnlockDone_keeps (.refl s)
  | .fuseProgramDone _ => execFuseProgramDone_keeps (.refl s)
  | .lifecycleAdvanceDone => execLifecycleAdvanceDone_keeps (.refl s)
  | .moltResumeTimeout => execMoltResumeTimeout_keeps (.refl s)

theorem exec_keeps_next {c : Instr} {s t : State} (run : exec c s = .next t) : Keeps s t := by
  have h := exec_keeps c s
  rwa [run] at h

theorem step_front {c : Instr} {rest : List Instr} {s : State} (h : s.pending = c :: rest) :
    step s = exec c { s with pending := rest } := by
  unfold step
  rw [h]

/-- Every step keeps what `Keeps` speaks of, once the command that it runs has left the queue. -/
theorem step_keeps {s t : State} (run : step s = .next t) : ∃ queue, Keeps { s with pending := queue } t := by
  cases queued : s.pending with
  | nil =>
    rw [step_idle queued] at run
    injection run with run
    exact ⟨s.pending, run ▸ idle_keeps (.refl s)⟩
  | cons c rest =>
    rw [step_front queued] at run
    exact ⟨rest, exec_keeps_next run⟩

theorem Keeps.canonical {s t : State} (k : Keeps s t) (h : s.Canonical) : t.Canonical where
  mem := k.mem h.mem
  regs := k.regs h.regs
  engMem := k.engMem h.engMem

theorem Keeps.bounded {s t : State} (k : Keeps s t) (h : s.Bounded) : t.Bounded where
  replies := k.replies h.replies
  events := k.events h.events
  reports := k.reports h.reports
  pending := k.slots h.pending
  records := k.recs h.records

/-- Settles O1: it is what `step` says of a queue with a command in front. -/
theorem stepRunsFrontCommand : Obligations.StepRunsFrontCommand := fun _ _ _ => step_front

/-- Settles O3, by evaluation of the reset state. -/
theorem resetLeavesStatedValues : Obligations.ResetLeavesStatedValues := by
  unfold Obligations.ResetLeavesStatedValues
  decide +kernel

/-- Settles O4, by evaluation of the reset state, whose journals and lists are empty. -/
theorem resetIsCanonicalAndBounded : Obligations.ResetIsCanonicalAndBounded where
  left := by constructor <;> decide +kernel
  right := {
    replies := Nat.zero_le _
    events := Nat.zero_le _
    reports := Nat.zero_le _
    pending := ⟨.nil, fun _ h => nomatch h⟩
    records := Nat.zero_le _ }

/-- Settles O5: every operation keeps the canonical form of the stores. -/
theorem stepKeepsCanonicalStores : Obligations.StepKeepsCanonicalStores := by
  intro s t canonical run
  obtain ⟨queue, keeps⟩ := step_keeps run
  exact keeps.canonical ⟨canonical.mem, canonical.regs, canonical.engMem⟩

/-- Settles O6: every operation keeps the stores of Papol and of the safety monitor within their capacities. -/
theorem stepKeepsCapacities : Obligations.StepKeepsCapacities := by
  intro s t bounded run
  obtain ⟨queue, keeps⟩ := step_keeps run
  exact keeps.bounded ⟨bounded.replies, bounded.events, bounded.reports, bounded.pending, bounded.records⟩

/-- Settles O7: every operation keeps the programmed fuses, and every command the queue. -/
theorem stepKeepsFusesAndQueue : Obligations.StepKeepsFusesAndQueue where
  left _ _ run := have ⟨_, keeps⟩ := step_keeps run; keeps.fuses
  right _ _ _ run := (exec_keeps_next run).queue

end Sys2Proof.Machine
end

section
/-!
# Frames: what an operation leaves alone

`Frame m R s t` says of an operation that takes `s` to `t` that beside Papol's own state it changes only the registers that `R` names
and the parts of the state that `m` names. It composes, so that the frame of a command is read off its definition.
-/

namespace Sys2Proof.Machine

/-- The parts of a state, beside registers, memory, poison and Papol's own state, that an operation may change. -/
structure Parts where
  link : Bool := false
  strs : Bool := false
  tdm : Bool := false
  spdif : Bool := false
  graph : Bool := false
  leap : Bool := false
  eng : Bool := false
  engMem : Bool := false
  banks : Bool := false
  spks : Bool := false
  groups : Bool := false
  crk : Bool := false
  out : Bool := false
  clk : Bool := false
  diag : Bool := false
  inp : Bool := false
  tad : Bool := false
  wkd : Bool := false
  hp : Bool := false
  cv : Bool := false
  hpcv : Bool := false
  madc : Bool := false
  pwr : Bool := false
  saf : Bool := false
  sec : Bool := false
  age : Bool := false
  draw : Bool := false

/-- `t` with everything of `s` but the parts that `m` names. -/
def State.but (m : Parts) (s t : State) : State :=
  { t with
    regs := s.regs, mem := s.mem, poison := s.poison, pap := s.pap,
    link := bif m.link then s.link else t.link, strs := bif m.strs then s.strs else t.strs, tdm := bif m.tdm then s.tdm else t.tdm,
    spdif := bif m.spdif then s.spdif else t.spdif, graph := bif m.graph then s.graph else t.graph, leap := bif m.leap then s.leap else t.leap,
    eng := bif m.eng then s.eng else t.eng, engMem := bif m.engMem then s.engMem else t.engMem, banks := bif m.banks then s.banks else t.banks,
    spks := bif m.spks then s.spks else t.spks, groups := bif m.groups then s.groups else t.groups, crk := bif m.crk then s.crk else t.crk,
    out := bif m.out then s.out else t.out, clk := bif m.clk then s.clk else t.clk, diag := bif m.diag then s.diag else t.diag,
    inp := bif m.inp then s.inp else t.inp, tad := bif m.tad then s.tad else t.tad, wkd := bif m.wkd then s.wkd else t.wkd,
    hp := bif m.hp then s.hp else t.hp, cv := bif m.cv then s.cv else t.cv, hpcv := bif m.hpcv then s.hpcv else t.hpcv,
    madc := bif m.madc then s.madc else t.madc, pwr := bif m.pwr then s.pwr else t.pwr, saf := bif m.saf then s.saf else t.saf,
    sec := bif m.sec then s.sec else t.sec, age := bif m.age then s.age else t.age, draw := bif m.draw then s.draw else t.draw }

theorem State.but_self (m : Parts) (s : State) : s.but m s = s := by simp only [State.but, Bool.cond_self]

theorem State.but_but (m : Parts) (s t u : State) : s.but m (t.but m u) = s.but m u := by
  unfold State.but
  congr 1
  · cases m.link <;> rfl
  · cases m.strs <;> rfl
  · cases m.tdm <;> rfl
  · cases m.spdif <;> rfl
  · cases m.graph <;> rfl
  · cases m.leap <;> rfl
  · cases m.eng <;> rfl
  · cases m.engMem <;> rfl
  · cases m.banks <;> rfl
  · cases m.spks <;> rfl
  · cases m.groups <;> rfl
  · cases m.crk <;> rfl
  · cases m.out <;> rfl
  · cases m.clk <;> rfl
  · cases m.diag <;> rfl
  · cases m.inp <;> rfl
  · cases m.tad <;> rfl
  · cases m.wkd <;> rfl
  · cases m.hp <;> rfl
  · cases m.cv <;> rfl
  · cases m.hpcv <;> rfl
  · cases m.madc <;> rfl
  · cases m.pwr <;> rfl
  · cases m.saf <;> rfl
  · cases m.sec <;> rfl
  · cases m.age <;> rfl
  · cases m.draw <;> rfl

/-- Beside Papol's own state the operation from `s` to `t` changes only the registers that `R` names and the parts that `m` names. -/
structure Frame (m : Parts) (R : Nat → Prop) (s t : State) : Prop where
  apart  : ¬ R Reg.PWR_STATE
  regs   : SameRegsBut (fun a => papolReg a ∨ R a) s t
  bytes  : SameBytesBut (papolByte s) s t
  poison : ∀ a, ¬ papolByte s a → (a ∈ t.poison ↔ a ∈ s.poison)
  rest   : s.but m t = s

namespace Frame

variable {m : Parts} {R : Nat → Prop} {s t u : State}

theorem refl (h : ¬ R Reg.PWR_STATE) (s : State) : Frame m R s s :=
  ⟨h, .of_regs rfl, fun _ _ => rfl, fun _ _ => Iff.rfl, s.but_self m⟩

theorem rings (h : Frame m R s t) : t.rings = s.rings := by
  have e := congrArg State.rings h.rest
  exact e

theorem queue (h : Frame m R s t) : t.pending = s.pending := by
  have e := congrArg State.pending h.rest
  exact e

theorem trans (h : Frame m R s t) (k : Frame m R t u) : Frame m R s u := by
  refine ⟨h.apart, h.regs.trans ?_ k.regs, fun a n => ?_, fun a n => ?_, ?_⟩
  · rintro (e | e)
    · exact papolReg_state e
    · exact h.apart e
  · exact (k.bytes a (by rwa [papolByte_congr h.rings])).trans (h.bytes a n)
  · exact (k.poison a (by rwa [papolByte_congr h.rings])).trans (h.poison a n)
  · rw [← State.but_but m s t u, k.rest, h.rest]

/-- An update of the parts that `m` names and of Papol's own state. -/
theorem upd (h : Frame m R s t) (rest : t.but m u = t) (regs : u.regs = t.regs := by rfl) (mem : u.mem = t.mem := by rfl)
    (poison : u.poison = t.poison := by rfl) : Frame m R s u :=
  h.trans ⟨h.apart, .of_regs regs, fun a _ => State.byte_congr mem a, fun a _ => by rw [poison], rest⟩

/-- What Papol does of its own. -/
theorem papol (h : Frame m R s t) (k : PapolBut papolReg (papolByte t) t u) : Frame m R s u := by
  refine h.trans ⟨h.apart, k.regs.mono fun _ => .inl, k.bytes, k.poison, ?_⟩
  have e := congrArg (State.but m t) k.rest
  rw [State.but_self] at e
  exact e

/-- An update of Papol's own state. -/
theorem pap (h : Frame m R s t) (x : Papol) : Frame m R s { t with pap := x } := h.papol (PapolBut.pap rfl)

theorem setReg (h : Frame m R s t) {a : Nat} {w : Word} (ha : R a) : Frame m R s (t.setReg a w) :=
  h.trans ⟨h.apart, fun _ n => .inl (State.reg_setReg_ne t w fun e => n (.inr (e ▸ ha))), fun _ _ => rfl, fun _ _ => Iff.rfl,
    t.but_self m⟩

theorem wr (h : Frame m R s t) {f : Field} {v : Nat} (ha : R f.addr) : Frame m R s (t.wr f v) := h.setReg ha

theorem set1 (h : Frame m R s t) {f : Field} (ha : R f.addr) : Frame m R s (t.set1 f) := h.wr ha

theorem clr (h : Frame m R s t) {f : Field} (ha : R f.addr) : Frame m R s (t.clr f) := h.wr ha

theorem sat (h : Frame m R s t) {f : Field} {n : Nat} (ha : R f.addr) : Frame m R s (t.sat f n) := h.wr ha

theorem wrap (h : Frame m R s t) {f : Field} {n : Nat} (ha : R f.addr) : Frame m R s (t.wrap f n) := h.wr ha

theorem wr64 (h : Frame m R s t) {a v : Nat} (lo : R a) (hi : R (a + 4)) : Frame m R s (t.wr64 a v) := (h.setReg lo).setReg hi

theorem ite {c : Prop} [Decidable c] (h : Frame m R s t) (k : Frame m R s u) : Frame m R s (if c then t else u) := by
  split
  · exact h
  · exact k

theorem forEach {f : Nat → State → State} (hf : ∀ i x, Frame m R s x → Frame m R s (f i x)) :
    ∀ {n : Nat} {t : State}, Frame m R s t → Frame m R s (forEach f n t)
  | 0, _, h => h
  | n + 1, _, h => hf n _ (forEach hf h)

/-- A loop that stays below its bound. -/
theorem forEach_lt {f : Nat → State → State} : ∀ {n : Nat} {t : State}, (∀ i x, i < n → Frame m R s x → Frame m R s (f i x)) →
    Frame m R s t → Frame m R s (Machine.forEach f n t)
  | 0, _, _, h => h
  | n + 1, _, hf, h => hf n _ (Nat.lt_succ_self n) (forEach_lt (fun i x hi => hf i x (Nat.lt_succ_of_lt hi)) h)

theorem forMask {f : Nat → State → State} (hf : ∀ i x, Frame m R s x → Frame m R s (f i x)) {mask n : Nat} {t : State}
    (h : Frame m R s t) : Frame m R s (forMask mask f n t) :=
  forEach (fun i x k => .ite (hf i x k) k) h

theorem foldl {α : Type} {f : State → α → State} (hf : ∀ (x : State) (a : α), Frame m R s x → Frame m R s (f x a)) :
    ∀ {l : List α} {t : State}, Frame m R s t → Frame m R s (l.foldl f t)
  | [], _, h => h
  | a :: l, t, h => foldl (l := l) hf (hf t a h)

/-! What a frame says of the two states. -/

theorem reg (h : Frame m R s t) {a : Nat} (hp : ¬ papolReg a) (ha : ¬ R a) (c : a ≠ Reg.CTL_CLK_STAT := by decide) : t.reg a = s.reg a :=
  h.regs.reg (not_or.2 ⟨hp, ha⟩) c

theorem rd (h : Frame m R s t) {f : Field} (hp : ¬ papolReg f.addr) (ha : ¬ R f.addr) (c : f.addr ≠ Reg.CTL_CLK_STAT := by decide) :
    t.rd f = s.rd f := by
  unfold State.rd
  rw [h.reg hp ha c]

theorem on (h : Frame m R s t) {f : Field} (hp : ¬ papolReg f.addr) (ha : ¬ R f.addr) (c : f.addr ≠ Reg.CTL_CLK_STAT := by decide) :
    t.on f = s.on f := by
  unfold State.on
  rw [h.rd hp ha c]

theorem papolBut (h : Frame {} (fun _ => False) s t) : PapolBut papolReg (papolByte s) s t :=
  ⟨h.regs.mono fun _ e => e.resolve_right id, h.bytes, h.poison, h.rest⟩

theorem of_papol (h : PapolBut papolReg (papolByte s) s t) : Frame {} (fun _ => False) s t :=
  papol (refl id s) h

theorem touches {l : List Nat} (h : Frame m (· ∈ l) s t) : Touches l s t := ⟨h.regs, h.bytes⟩

theorem link (h : Frame m R s t) (hm : m.link = false := by rfl) : t.link = s.link := by
  have e := congrArg State.link h.rest
  simpa only [State.but, hm, cond_false] using e

theorem strs (h : Frame m R s t) (hm : m.strs = false := by rfl) : t.strs = s.strs := by
  have e := congrArg State.strs h.rest
  simpa only [State.but, hm, cond_false] using e

theorem tdm (h : Frame m R s t) (hm : m.tdm = false := by rfl) : t.tdm = s.tdm := by
  have e := congrArg State.tdm h.rest
  simpa only [State.but, hm, cond_false] using e

theorem spdif (h : Frame m R s t) (hm : m.spdif = false := by rfl) : t.spdif = s.spdif := by
  have e := congrArg State.spdif h.rest
  simpa only [State.but, hm, cond_false] using e

theorem graph (h : Frame m R s t) (hm : m.graph = false := by rfl) : t.graph = s.graph := by
  have e := congrArg State.graph h.rest
  simpa only [State.but, hm, cond_false] using e

theorem leap (h : Frame m R s t) (hm : m.leap = false := by rfl) : t.leap = s.leap := by
  have e := congrArg State.leap h.rest
  simpa only [State.but, hm, cond_false] using e

theorem eng (h : Frame m R s t) (hm : m.eng = false := by rfl) : t.eng = s.eng := by
  have e := congrArg State.eng h.rest
  simpa only [State.but, hm, cond_false] using e

theorem engMem (h : Frame m R s t) (hm : m.engMem = false := by rfl) : t.engMem = s.engMem := by
  have e := congrArg State.engMem h.rest
  simpa only [State.but, hm, cond_false] using e

theorem banks (h : Frame m R s t) (hm : m.banks = false := by rfl) : t.banks = s.banks := by
  have e := congrArg State.banks h.rest
  simpa only [State.but, hm, cond_false] using e

theorem spks (h : Frame m R s t) (hm : m.spks = false := by rfl) : t.spks = s.spks := by
  have e := congrArg State.spks h.rest
  simpa only [State.but, hm, cond_false] using e

theorem groups (h : Frame m R s t) (hm : m.groups = false := by rfl) : t.groups = s.groups := by
  have e := congrArg State.groups h.rest
  simpa only [State.but, hm, cond_false] using e

theorem crk (h : Frame m R s t) (hm : m.crk = false := by rfl) : t.crk = s.crk := by
  have e := congrArg State.crk h.rest
  simpa only [State.but, hm, cond_false] using e

theorem out (h : Frame m R s t) (hm : m.out = false := by rfl) : t.out = s.out := by
  have e := congrArg State.out h.rest
  simpa only [State.but, hm, cond_false] using e

theorem clk (h : Frame m R s t) (hm : m.clk = false := by rfl) : t.clk = s.clk := by
  have e := congrArg State.clk h.rest
  simpa only [State.but, hm, cond_false] using e

theorem diag (h : Frame m R s t) (hm : m.diag = false := by rfl) : t.diag = s.diag := by
  have e := congrArg State.diag h.rest
  simpa only [State.but, hm, cond_false] using e

theorem inp (h : Frame m R s t) (hm : m.inp = false := by rfl) : t.inp = s.inp := by
  have e := congrArg State.inp h.rest
  simpa only [State.but, hm, cond_false] using e

theorem tad (h : Frame m R s t) (hm : m.tad = false := by rfl) : t.tad = s.tad := by
  have e := congrArg State.tad h.rest
  simpa only [State.but, hm, cond_false] using e

theorem wkd (h : Frame m R s t) (hm : m.wkd = false := by rfl) : t.wkd = s.wkd := by
  have e := congrArg State.wkd h.rest
  simpa only [State.but, hm, cond_false] using e

theorem hp (h : Frame m R s t) (hm : m.hp = false := by rfl) : t.hp = s.hp := by
  have e := congrArg State.hp h.rest
  simpa only [State.but, hm, cond_false] using e

theorem cv (h : Frame m R s t) (hm : m.cv = false := by rfl) : t.cv = s.cv := by
  have e := congrArg State.cv h.rest
  simpa only [State.but, hm, cond_false] using e

theorem hpcv (h : Frame m R s t) (hm : m.hpcv = false := by rfl) : t.hpcv = s.hpcv := by
  have e := congrArg State.hpcv h.rest
  simpa only [State.but, hm, cond_false] using e

theorem madc (h : Frame m R s t) (hm : m.madc = false := by rfl) : t.madc = s.madc := by
  have e := congrArg State.madc h.rest
  simpa only [State.but, hm, cond_false] using e

theorem pwr (h : Frame m R s t) (hm : m.pwr = false := by rfl) : t.pwr = s.pwr := by
  have e := congrArg State.pwr h.rest
  simpa only [State.but, hm, cond_false] using e

theorem saf (h : Frame m R s t) (hm : m.saf = false := by rfl) : t.saf = s.saf := by
  have e := congrArg State.saf h.rest
  simpa only [State.but, hm, cond_false] using e

theorem sec (h : Frame m R s t) (hm : m.sec = false := by rfl) : t.sec = s.sec := by
  have e := congrArg State.sec h.rest
  simpa only [State.but, hm, cond_false] using e

theorem age (h : Frame m R s t) (hm : m.age = false := by rfl) : t.age = s.age := by
  have e := congrArg State.age h.rest
  simpa only [State.but, hm, cond_false] using e

theorem draw (h : Frame m R s t) (hm : m.draw = false := by rfl) : t.draw = s.draw := by
  have e := congrArg State.draw h.rest
  simpa only [State.but, hm, cond_false] using e

end Frame

/-! ## Papol's operations -/

section
variable {m : Parts} {R : Nat → Prop} {s t : State}

theorem Frame.sysRun (h : Frame m R s t) : Frame m R s t.sysRun := h.papol (PapolBut.sysRun t)

theorem Frame.raiseR (h : Frame m R s t) {code : Nat} {ws : List Word} {r : Bool} : Frame m R s (t.raiseR code ws r) :=
  h.papol (raiseR_papol t code ws r).1

theorem Frame.raise (h : Frame m R s t) {code : Nat} {ws : List Word} : Frame m R s (t.raise code ws) := h.raiseR

theorem Frame.issueAt (h : Frame m R s t) {code : Nat} {ws : List Word} {r : Bool} {time : Word64} :
    Frame m R s (t.issueAt code ws r time) :=
  h.papol (issueAt_papol t code ws r time).1

theorem Frame.raiseClamps (h : Frame m R s t) {op : Nat} {cl : List Clamp} : Frame m R s (t.raiseClamps op cl) :=
  h.papol (raiseClamps_papol op cl t).1

theorem Frame.countCfg (h : Frame m R s t) {cfg : Bool} {st : Nat} : Frame m R s (t.countCfg cfg st) :=
  h.papol (countCfg_papol t cfg st).1

theorem Frame.completed (h : Frame m R s t) {r : Bool} {c : BitVec 16} : Frame m R s (t.completed r c) := h.pap _

theorem Frame.answer (h : Frame m R s t) {op : Nat} {p : Packet} {auth journal : Bool} {st d : Nat} {tr : Bool} {ws : List Word} :
    Frame m R s (t.answer op p auth journal st d tr ws) :=
  h.papol (answer_papol t op p auth journal st d tr ws)

theorem Frame.emit (h : Frame m R s t) {x : HeldReply} : Frame m R s (t.emit x) := h.papol (emit_papol x (.refl _ _ t))

theorem Frame.postDone (h : Frame m R s t) {e : PendEntry} {st d : Nat} {ws : List Word} {cl : List Clamp} {time : Word64} :
    Frame m R s (t.postDone e st d ws cl time) :=
  ((((h.pap _).pap _).completed.countCfg).issueAt).raiseClamps

theorem Frame.finish (h : Frame m R s t) {e : PendEntry} {st d : Nat} {ws : List Word} {cl : List Clamp} :
    Frame m R s (t.finish e st d ws cl) := by
  unfold State.finish State.finishWith
  exact .ite h.sysRun.postDone (h.pap _)

theorem Frame.finishAll (h : Frame m R s t) {sel : PendEntry → Bool} {st d : Nat} : Frame m R s (t.finishAll sel st d) :=
  .foldl (fun _ _ k => k.finish) h

theorem Frame.finishFor (h : Frame m R s t) {tg : Target} {op st : Nat} {ws : List Word} : Frame m R s (t.finishFor tg op st ws) := by
  unfold State.finishFor
  split
  · exact h.finish
  · exact h

theorem Frame.raiseSafe (h : Frame m R s t) {kind scope mode region recno code unit : Nat} :
    Frame m R s (t.raiseSafe kind scope mode region recno code unit) := h.raiseR

theorem Frame.raiseSecurity (h : Frame m R s t) {kind cause consec low : Nat} :
    Frame m R s (t.raiseSecurity kind cause consec low) := h.raise

theorem Frame.drawn (h : Frame m R s t) (hm : m.draw = true) : Frame m R s t.drawn := h.upd (by simp [State.but, hm, State.drawn])

/-- A command card is entered. -/
theorem Frame.admitted (away : ¬ R Reg.PWR_STATE) (s : State) (c : CmdSpec) (p : Packet) : Frame m R s (s.admitted c p) :=
  (Frame.refl away s).papol (admitted_papol s c p)

end

/-! ## Fault records -/

section
variable {m : Parts} {R : Nat → Prop} {s t : State}

theorem Frame.showFn (h : Frame m R s t) (fn : R Reg.SAFE_FN_STAT) (sm : R Reg.SAFE_SM_STAT) : Frame m R s t.showFn :=
  ((h.wr fn).wr sm).wr sm

theorem Frame.recRoom (h : Frame m R s t) (hm : m.saf = true) (sm : R Reg.SAFE_SM_STAT) : Frame m R s t.recRoom := by
  unfold State.recRoom
  exact .ite h (.ite (h.upd (by simp [State.but, hm])) (.set1 (h.upd (by simp [State.but, hm])) sm))

theorem Frame.fault (h : Frame m R s t) {f : FaultInfo} (hs : m.saf = true) (hd : m.draw = true) (fn : R Reg.SAFE_FN_STAT)
    (sm : R Reg.SAFE_SM_STAT) : Frame m R s (t.fault f) := by
  unfold State.fault
  split
  · exact .showFn (h.upd (by simp [State.but, hs])) fn sm
  · exact .raiseR (.showFn (.wr (Frame.upd ((h.drawn hd).recRoom hs sm) (by simp [State.but, hs])) sm) fn sm)

theorem Frame.faultGone (h : Frame m R s t) {code sub unit : Nat} (hs : m.saf = true) (fn : R Reg.SAFE_FN_STAT)
    (sm : R Reg.SAFE_SM_STAT) : Frame m R s (t.faultGone code sub unit) :=
  .showFn (h.upd (by simp [State.but, hs])) fn sm

end

/-! ## Entries of fixed arrays -/

section
variable {α : Type} [Inhabited α] {n : Nat}

theorem vat_vmod_same (v : Vector α n) {i : Nat} (f : α → α) (h : i < n) : vat (vmod v i f) i = f (vat v i) := by
  simp [vat, vmod, h]

theorem vat_vmod_ne (v : Vector α n) {i j : Nat} (f : α → α) (h : j ≠ i) : vat (vmod v i f) j = vat v j := by
  unfold vat vmod
  simp [Vector.getElem?_setIfInBounds_ne h.symm]

end

end Sys2Proof.Machine
end

section
/-!
# The host link: errors, locks, bank words and posted writes (spec/03_register_access.md)
-/

namespace Sys2Proof.Machine

/-! ## An error condition is recorded (R150, R152) -/

/-- The host link has recorded an error of this cause at this address, and nothing but HOST_ERR and HOST_ERRADDR differs. -/
structure Recorded (cause n : Nat) (s t : State) : Prop where
  bit     : t.rd ⟨Reg.HOST_ERR, cause, 1⟩ = 1
  latched : s.reg Reg.HOST_ERR = 0 → t.reg Reg.HOST_ERRADDR = w32 (cause * 2 ^ 24 + n)
  stays   : s.reg Reg.HOST_ERR ≠ 0 → t.reg Reg.HOST_ERRADDR = s.reg Reg.HOST_ERRADDR
  only    : RegsOnly (fun b => b = Reg.HOST_ERR ∨ b = Reg.HOST_ERRADDR) s t

theorem hostErr_recorded (s : State) {cause : Nat} (a : Nat) (h : cause < 32) :
    Recorded cause (if cause = errFrame then 0 else a) s (s.hostErr .host cause a) := by
  have ne : Reg.HOST_ERRADDR ≠ Reg.HOST_ERR := by decide
  unfold State.hostErr
  rw [if_neg (show ¬ Iface.host = Iface.debug by decide)]
  dsimp only
  constructor
  case bit => exact State.rd_wr_same _ _ h
  case latched =>
    intro clear
    rw [State.reg_set1_ne _ ne, if_pos clear, State.reg_setReg_same]
  case stays =>
    intro held
    rw [State.reg_set1_ne _ ne, if_neg held]
  case only => exact .wr (.ite (.setReg s _ (.inr rfl)) (.refl _ s)) (.inl rfl)

/-- What a record of an error changes beside a part that stood so before. -/
theorem Recorded.sameRegs {cause n : Nat} {s t : State} (h : Recorded cause n s t) :
    SameRegsBut (fun b => b = Reg.HOST_ERR ∨ b = Reg.HOST_ERRADDR) s t :=
  fun a n => .inl (h.only.regs a n)

/-! ## A write word is judged (R96 to R101, R144 to R150) -/

/-- The state in which a write word is judged: SYS runs for it, and it has closed the lock. -/
def State.judging (s : State) (i : Iface) : State := s.sysRun.setLock i false

theorem setLock_rest (s : State) (i : Iface) (b : Bool) : { s.setLock i b with link := s.link } = s := by cases i <;> rfl

theorem setLock_regs (s : State) (i : Iface) (b : Bool) : (s.setLock i b).regs = s.regs := by cases i <;> rfl

theorem setLock_waits (s : State) (i : Iface) (b : Bool) :
    (s.setLock i b).link.posted = s.link.posted ∧ (s.setLock i b).link.stalled = s.link.stalled := by cases i <;> exact ⟨rfl, rfl⟩

theorem judging_regs (s : State) (i : Iface) {p : Nat → Prop} : SameRegsBut p s (s.judging i) := by
  intro a n
  unfold State.judging
  rw [State.reg_congr (setLock_regs s.sysRun i false) a]
  exact SameRegsBut.sysRun s a n

theorem judging_reg (s : State) (i : Iface) {a : Nat} (h : a ≠ Reg.CTL_CLK_STAT) : (s.judging i).reg a = s.reg a :=
  (judging_regs s i (p := fun _ => False)).reg id h

theorem judging_rd (s : State) (i : Iface) {f : Field} (h : f.addr ≠ Reg.CTL_CLK_STAT) : (s.judging i).rd f = s.rd f := by
  unfold State.rd
  rw [judging_reg s i h]

theorem judging_on (s : State) (i : Iface) {f : Field} (h : f.addr ≠ Reg.CTL_CLK_STAT) : (s.judging i).on f = s.on f := by
  unfold State.on
  rw [judging_rd s i h]

/-- SYS's start and the lock change the clock status and the link alone. -/
theorem judging_rest (s : State) (i : Iface) : { s.judging i with regs := s.regs, link := s.link } = s := by
  have lock := congrArg (fun v : State => { v with regs := s.regs, link := s.link }) (setLock_rest s.sysRun i false)
  have run := congrArg (fun v : State => { v with link := s.link }) (sysRun_rest s)
  exact lock.trans run

theorem judging_link (s : State) (i : Iface) :
    (s.judging i).link.posted = s.link.posted ∧ (s.judging i).link.stalled = s.link.stalled := by
  have link : s.sysRun.link = s.link := (sysRun_regsOnly s).congr State.link fun _ => rfl
  have h := setLock_waits s.sysRun i false
  rwa [link] at h

theorem judging_lockOpen (s : State) (i : Iface) : (s.judging i).lockOpen i = false := lockOpen_setLock_same _ _ _

/-- What a write word meets that is dropped with an error bit: the bit, the address latched from all clear, the lock closed, nothing else
(R145, R150, R152). -/
def Dropped (cause n : Nat) (s t : State) : Prop :=
  t.rd ⟨Reg.HOST_ERR, cause, 1⟩ = 1 ∧
    (s.reg Reg.HOST_ERR = 0 → t.reg Reg.HOST_ERRADDR = w32 (cause * 2 ^ 24 + n)) ∧
    (s.reg Reg.HOST_ERR ≠ 0 → t.reg Reg.HOST_ERRADDR = s.reg Reg.HOST_ERRADDR) ∧
    t.lockOpen .host = false ∧ SameRegsBut (fun b => b = Reg.HOST_ERR ∨ b = Reg.HOST_ERRADDR) s t ∧
    { t with regs := s.regs, link := s.link } = s ∧ t.link.posted = s.link.posted ∧ t.link.stalled = s.link.stalled

/-- A write word that is judged and found in error is dropped. -/
theorem judging_dropped (s : State) {cause : Nat} (n : Nat) (pos : cause ≠ errFrame) (h : cause < 32) :
    Dropped cause n s ((s.judging .host).hostErr .host cause n) := by
  have err : (s.judging .host).reg Reg.HOST_ERR = s.reg Reg.HOST_ERR := judging_reg s _ (by decide)
  have addr : (s.judging .host).reg Reg.HOST_ERRADDR = s.reg Reg.HOST_ERRADDR := judging_reg s _ (by decide)
  have r := hostErr_recorded (s.judging .host) n h
  rw [if_neg pos] at r
  have link := r.only.congr State.link fun _ => rfl
  refine ⟨r.bit, fun e => r.latched (err.trans e), fun e => (r.stays (err ▸ e)).trans addr, ?_, ?_, ?_, ?_, ?_⟩
  · rw [lockOpen_congr (hostErr_locks _ _ _ _), judging_lockOpen]
  · exact (judging_regs s _).trans (by decide) r.sameRegs
  · have e := congrArg (fun v : State => { v with regs := s.regs, link := s.link }) r.only.rest
    exact e.trans (judging_rest s _)
  · rw [link, (judging_link s _).1]
  · rw [link, (judging_link s _).2]

variable {s : State} {i : Iface} {n : Nat} {w : Word}

theorem hostWrite_judges (ready : s.ifaceReady i = true) :
    s.hostWrite i n w =
      if n % 4 ≠ 0 then (s.judging i).hostErr i errAlign n
      else if 0xA00000 ≤ n ∧ n < 0xA80000 then (s.judging i).hostErr i errGated n
      else if 0x800000 ≤ n ∧ n < 0xA00000 then
        if s.bankOn (bankOf n) then (s.judging i).setWord n w else (s.judging i).hostErr i errNopwr n
      else if regRow? n = none then (s.judging i).hostErr i errUnmap n
      else if s.unpowered n then (s.judging i).hostErr i errNopwr n
      else if n = Reg.HOST_UNLOCK then (s.judging i).unlock i w
      else if guardedAt n ∧ s.lockOpen i = false then (s.judging i).hostErr i errLocked n
      else (s.judging i).sendWrite i n w := by
  unfold State.hostWrite
  rw [if_neg (by simp [ready])]
  rfl

/-- A posted register whose region is busy takes no further write (R121). -/
theorem sendWrite_busy {r : Nat} (region : postedRegion? n = some r) (busy : s.on ⟨Reg.HOST_PWSTAT, r, 1⟩ = true) :
    s.sendWrite i n w = s.hostErr i errPwcol n := by
  unfold State.sendWrite
  rw [region]
  exact if_pos busy

/-- The errors of a write word over the host link, in the order in which the model looks for them (log entry 75). -/
theorem registerWrite_dropped (a : BitVec 24) (w : Word) (ready : s.ifaceReady .host = true) (other : a.toNat ≠ Reg.HOST_UNLOCK) :
    let n := a.toNat
    let dropped := fun cause => ∃ t, exec (.registerWrite .host a w) s = .next t ∧ Dropped cause n s t
    if n % 4 ≠ 0 then dropped 3
    else if 0xA00000 ≤ n ∧ n < 0xA80000 then dropped 5
    else if 0x800000 ≤ n ∧ n < 0xA00000 then (s.bankOn (bankOf n) = false → dropped 6)
    else if regRow? n = none then dropped 4
    else if s.unpowered n then dropped 6
    else if guardedAt n ∧ s.lockOpen .host = false then dropped 8
    else ∀ r, postedRegion? n = some r → s.on ⟨Reg.HOST_PWSTAT, r, 1⟩ = true → dropped 7 := by
  intro n dropped
  have drop : ∀ cause, cause ≠ errFrame → cause < 32 → s.hostWrite .host n w = (s.judging .host).hostErr .host cause n → dropped cause :=
    fun cause pos lt e => ⟨_, congrArg Host.Outcome.next e, judging_dropped s n pos lt⟩
  have judged := hostWrite_judges (n := n) (w := w) ready
  split
  next h => exact drop 3 (by decide) (by decide) (by rw [judged, if_pos h]; rfl)
  next aligned =>
  rw [if_neg aligned] at judged
  split
  next h => exact drop 5 (by decide) (by decide) (by rw [judged, if_pos h]; rfl)
  next tadpole =>
  rw [if_neg tadpole] at judged
  split
  next h => exact fun off => drop 6 (by decide) (by decide) (by rw [judged, if_pos h, off]; rfl)
  next bank =>
  rw [if_neg bank] at judged
  split
  next h => exact drop 4 (by decide) (by decide) (by rw [judged, if_pos h]; rfl)
  next mapped =>
  rw [if_neg mapped] at judged
  split
  next h => exact drop 6 (by decide) (by decide) (by rw [judged, if_pos h]; rfl)
  next powered =>
  rw [if_neg powered, if_neg other] at judged
  split
  next h => exact drop 8 (by decide) (by decide) (by rw [judged, if_pos h]; rfl)
  next unlocked =>
  intro r region busy
  refine drop 7 (by decide) (by decide) ?_
  rw [judged, if_neg unlocked, sendWrite_busy region ((judging_on s _ (show Reg.HOST_PWSTAT ≠ Reg.CTL_CLK_STAT by decide)).trans busy)]
  rfl

/-! ## HOST_UNLOCK (R144, R145, R148) -/

theorem hostUnlock_opens (i : Iface) (s : State) (ready : s.ifaceReady i = true) :
    SameRegsBut (fun _ => False) s (s.hostWrite i Reg.HOST_UNLOCK 0xC3A5) ∧
      { s.hostWrite i Reg.HOST_UNLOCK 0xC3A5 with regs := s.regs, link := s.link } = s := by
  rw [hostWrite_hostUnlock _ ready]
  show SameRegsBut _ s ((s.judging i).setLock i true) ∧ { (s.judging i).setLock i true with regs := s.regs, link := s.link } = s
  refine ⟨(judging_regs s i).trans id (.of_regs (setLock_regs _ _ _)), ?_⟩
  have e := congrArg (fun v : State => { v with regs := s.regs, link := s.link }) (setLock_rest (s.judging i) i true)
  exact e.trans (judging_rest s i)

/-- Any word but the key closes the lock with BADKEY, which the host link alone records (R145, R150). -/
theorem hostUnlock_closes (i : Iface) {key : Word} (s : State) (ready : s.ifaceReady i = true) (bad : key ≠ 0xC3A5) :
    let t := s.hostWrite i Reg.HOST_UNLOCK key
    (if i = .host then t.rd ⟨Reg.HOST_ERR, 10, 1⟩ = 1 else t.reg Reg.HOST_ERR = s.reg Reg.HOST_ERR) ∧
      SameRegsBut (fun b => b = Reg.HOST_ERR ∨ b = Reg.HOST_ERRADDR) s t ∧ { t with regs := s.regs, link := s.link } = s := by
  intro t
  have e : t = (s.judging i).hostErr i errBadkey Reg.HOST_UNLOCK := (hostWrite_hostUnlock key ready).trans (if_neg bad)
  rw [e]
  cases i with
  | host =>
    obtain ⟨bit, -, -, -, regs, rest, -⟩ := judging_dropped s Reg.HOST_UNLOCK (cause := errBadkey) (by decide) (by decide)
    exact ⟨bit, regs, rest⟩
  | debug =>
    rw [show (s.judging .debug).hostErr .debug errBadkey Reg.HOST_UNLOCK = s.judging .debug from if_pos rfl]
    exact ⟨judging_reg s _ (by decide), judging_regs s _, judging_rest s _⟩

/-- Settles O9, by the errors of a write word in the model's order and by what a word at HOST_UNLOCK does. -/
theorem writeErrorsAndGuardLock : Obligations.WriteErrorsAndGuardLock := by
  refine ⟨fun a w s ready other => registerWrite_dropped a w ready other, fun i j key s ready ne => ⟨?_, fun bad => ?_⟩⟩
  · obtain ⟨regs, rest⟩ := hostUnlock_opens i s ready
    exact ⟨_, rfl, hostWrite_lockOpen_same _ _ ready, hostWrite_lockOpen_ne _ _ ready ne, regs, rest, fun _ => rfl⟩
  · obtain ⟨err, regs, rest⟩ := hostUnlock_closes i s ready bad
    exact ⟨_, rfl, (hostWrite_lockOpen_same _ _ ready).trans (decide_eq_false fun h => bad h.2), hostWrite_lockOpen_ne _ _ ready ne, err, regs, rest⟩

end Sys2Proof.Machine
end

section
/-!
# Register access: statements that do not hold as written

Each refutation gives a state and a command, and evaluates the model on them.
-/

namespace Sys2Proof.Machine

-- The kernel evaluates the counterexamples one after the other.
set_option Elab.async false

/-- The device in LISTEN with SYS stopped (spec/04_command_protocol.md, R161). -/
def listening : State := (idle.at4 stListen).clr F.CTL_CLK_STAT_SYSLOCK

/-- What holds of the outcome of a command, stated of the state that the model evaluates it to. -/
theorem next_holds {o : Host.Outcome State Fault Refusal} {t : State} {P : State → Prop} (h : ∃ u, o = .next u ∧ P u)
    (run : o = .next t) : P t := by
  obtain ⟨u, e, p⟩ := h
  rw [e] at run
  injection run with run
  exact run ▸ p

/-- Refutes O11: in LISTEN with SYS stopped a write word to a bank starts SYS (spec/04_command_protocol.md, R161), so SYSLOCK changes
beside the word. -/
theorem not_bankAndPostedWritesStoreTheWord : ¬ Obligations.BankAndPostedWritesStoreTheWord := by
  rintro ⟨bank, -⟩
  obtain ⟨-, -, -, -, -, rest⟩ := next_holds (bank .host 0x800000 0 listening (by decide +kernel) (by decide +kernel) (by decide +kernel)
    (by decide +kernel) (by decide +kernel)) rfl
  have lock := congrArg (fun v : State => v.on F.CTL_CLK_STAT_SYSLOCK) rest
  exact absurd lock (by decide +kernel)

/-- The device in IDLE with the hidden parity of ring 2's configuration register out of step, before the scan that finds it
(spec/03_register_access.md, R131), and FAULT_N shown as driven though nothing demands it. -/
def flippedRingCfg : State :=
  ({ idle with link := { idle.link with badParity := [Reg.DSP_RING_CFG 2] } }.set1 F.SAFE_FN_STAT_DRIVE).clr (F.DSP_RING_CFG_ENABLE 2)

/-- Refutes O13: the landing of the enable mends the register's hidden parity, and with the last mended register the model brings FAULT_N's
show up to date, in SAFE_FN_STAT. -/
theorem not_ringEnableAndDoorbell : ¬ Obligations.RingEnableAndDoorbell := by
  intro h
  obtain ⟨-, -, -, only⟩ := next_holds ((h .host 2 0x1000B flippedRingCfg (by decide +kernel) (by decide) (by decide) (by decide +kernel)
    (by decide +kernel)).1 (by decide +kernel) (by decide +kernel)) rfl
  split at only
  next refused => exact absurd refused (by decide +kernel)
  obtain ⟨-, -, -, regs⟩ := only
  have drive := regs.reg (a := Reg.SAFE_FN_STAT) (by decide) (by decide)
  exact absurd drive (by decide +kernel)

end Sys2Proof.Machine
end

section
/-!
# Whole and cut frames of the host link (spec/03_register_access.md, R103 to R117)
-/

namespace Sys2Proof.Machine

/-- The three address bytes of a frame, the most significant first (R103). -/
def addrBytes (a : BitVec 24) : List Byte := [a.extractLsb' 16 8, a.extractLsb' 8 8, a.extractLsb' 0 8]

/-- The four bytes of a word of a frame, the most significant first (R106). -/
def wordBytes (w : Word) : List Byte := [w.extractLsb' 24 8, w.extractLsb' 16 8, w.extractLsb' 8 8, w.extractLsb' 0 8]

theorem byteAddr_addrBytes (a : BitVec 24) (rest : List Byte) : byteAddr (addrBytes a ++ rest) = a.toNat := by
  show (a.extractLsb' 16 8).toNat * 2 ^ 16 + (a.extractLsb' 8 8).toNat * 2 ^ 8 + (a.extractLsb' 0 8).toNat = a.toNat
  have lt := a.isLt
  simp only [BitVec.extractLsb'_toNat, Nat.shiftRight_eq_div_pow]
  omega

theorem byteWord_wordBytes (w : Word) :
    byteWord [w.extractLsb' 24 8, w.extractLsb' 16 8, w.extractLsb' 8 8, w.extractLsb' 0 8] = w := by
  show w.extractLsb' 24 8 ++ w.extractLsb' 16 8 ++ w.extractLsb' 8 8 ++ w.extractLsb' 0 8 = w
  apply BitVec.eq_of_toNat_eq
  have lt := w.isLt
  simp only [BitVec.toNat_append, BitVec.extractLsb'_toNat, Nat.shiftRight_eq_div_pow, Nat.shiftLeft_eq]
  rw [← Nat.shiftLeft_eq, ← Nat.shiftLeft_eq, ← Nat.shiftLeft_eq, ← Nat.shiftLeft_add_eq_or_of_lt (by omega),
    ← Nat.shiftLeft_add_eq_or_of_lt (by omega), ← Nat.shiftLeft_add_eq_or_of_lt (by omega)]
  simp only [Nat.shiftLeft_eq]
  omega

theorem nextAddr_inc (a : BitVec 24) : nextAddr true a.toNat = (a + 4).toNat := by
  show (a.toNat + 4) % 2 ^ 24 = (a + 4).toNat
  rw [BitVec.toNat_add]
  rfl

/-! ## Runs of words (R106, R108, R112) -/

theorem writeRun_word (inc : Bool) (w : Word) (rest : List Byte) (a : Nat) (s : State) :
    State.writeRun inc (wordBytes w ++ rest) a s = State.writeRun inc rest (nextAddr inc a) (s.hostWrite .host a w) := by
  show State.writeRun inc rest _ (s.hostWrite .host a (byteWord _)) = _
  rw [byteWord_wordBytes]

theorem readRun_one (inc : Bool) (a : Nat) (s : State) : (State.readRun inc 1 a s).1 = s.hostRead .host a := by
  unfold State.readRun
  dsimp only
  split <;> rfl

theorem readRun_ready (inc : Bool) (n a : Nat) {s : State} (ready : (s.hostRead .host a).ifaceReady .host = true) :
    State.readRun inc (n + 1) a s = State.readRun inc n (nextAddr inc a) (s.hostRead .host a) := if_pos ready

/-! ## SPI (R103 to R112) -/

/-- A frame begins: the status byte is captured (R105). -/
def State.framed (s : State) : State := { s with link := { s.link with status := s.spiStatus } }

theorem execSpiFrameEnd_live {s : State} (alive : s.linkAlive = true) (spi : s.on F.CTL_SYS_STRAP_HOSTSEL = false) (x : FrameEnd) :
    exec (.spiFrameEnd x) s = .next (match x with
      | .whole => s
      | .malformed => s.hostErr .host errFrame 0
      | .partialWrite a => s.hostErr .host errPartial a.toNat
      | .aborted a => s.abortRead a.toNat
      | .bytes mosi words cut => s.spiFrame mosi words cut) := by
  cases x <;> exact congrArg Host.Outcome.next (if_neg (by simp [alive, spi]))

theorem execSpiFrameEnd_other {s : State} (i2c : s.on F.CTL_SYS_STRAP_HOSTSEL = true) (x : FrameEnd) :
    exec (.spiFrameEnd x) s = .next s := congrArg Host.Outcome.next (if_pos (.inl i2c))

/-- A command byte with a bit of [5:0] set spoils the frame (R104). -/
theorem spiFrame_malformed (s : State) {cmd : Byte} (bs : List Byte) (n : Nat) (cut : Bool) (bad : cmd.toNat % 64 ≠ 0) :
    s.spiFrame (cmd :: bs) n cut = s.framed.hostErr .host errFrame 0 := if_pos (.inr bad)

/-- A frame with a sound command byte goes on at its address (R103). -/
theorem spiFrame_sound (s : State) {cmd : Byte} (a : BitVec 24) (rest : List Byte) (n : Nat) (good : cmd.toNat % 64 = 0) :
    s.spiFrame (cmd :: addrBytes a ++ rest) n false =
      if cmd.toNat / 128 = 0 then (State.writeRun (cmd.toNat / 64 % 2 = 1) rest a.toNat s.framed).1
      else (State.readRun (cmd.toNat / 64 % 2 = 1) n a.toNat s.framed).1 := by
  have addr : byteAddr ((cmd :: addrBytes a ++ rest).drop 1) = a.toNat := byteAddr_addrBytes a rest
  unfold State.spiFrame
  rw [addr, if_neg (by simp [addrBytes, good])]
  rfl

theorem abortRead_recorded (s : State) (a : Nat) :
    ∃ l : Link, (∀ x ∈ l.stalled, x ∈ s.link.stalled ∧ (x.write = true ∨ x.iface ≠ .host)) ∧
      s.abortRead a = State.hostErr { s with link := l } .host errAbort a := by
  refine ⟨_, fun x hx => ?_, rfl⟩
  have h := List.mem_filter.1 hx
  exact ⟨h.1, by simpa using h.2⟩

/-! ## I2C (R113 to R117) -/

theorem execI2cStop_live {s : State} (alive : s.linkAlive = true) (i2c : s.on F.CTL_SYS_STRAP_HOSTSEL = true) (x : I2cEnd) :
    exec (.i2cStop x) s = .next (match x with
      | .words (some a) => s.hostErr .host errPartial a.toNat
      | .words none => s
      | .write head data => s.i2cWrite head data
      | .read head words => s.i2cRead head words) := by
  rcases x with (_ | _) | _ | _ <;> exact congrArg Host.Outcome.next (if_neg (by simp [alive, i2c]))

theorem execI2cStop_other {s : State} (spi : s.on F.CTL_SYS_STRAP_HOSTSEL = false) (x : I2cEnd) :
    exec (.i2cStop x) s = .next s := congrArg Host.Outcome.next (if_pos (.inl spi))

/-- A transaction of one word writes it and leaves the register address behind it (R114). -/
theorem i2cWrite_word (s : State) (a : BitVec 24) (w : Word) :
    s.i2cWrite (s.i2cHead 0) (addrBytes a ++ wordBytes w) = State.setPtr (s.hostWrite .host a.toNat w, (a.toNat + 4) % 2 ^ 24) := by
  unfold State.i2cWrite
  rw [if_neg (by simp [addrBytes]), byteAddr_addrBytes]
  show State.setPtr (State.writeRun true (wordBytes w ++ []) a.toNat s) = _
  rw [writeRun_word]
  rfl

/-- A read of one word goes on at the register address (R115). -/
theorem i2cRead_word (s : State) {a : BitVec 24} (ptr : s.link.ptr = a.toNat) (ready : (s.hostRead .host a.toNat).ifaceReady .host = true) :
    s.i2cRead (s.i2cHead 1) 1 = State.setPtr (s.hostRead .host a.toNat, (a.toNat + 4) % 2 ^ 24) := by
  unfold State.i2cRead
  rw [if_neg (by simp), ptr, readRun_ready _ _ _ ready]
  rfl

/-! ## The statement -/

variable {s : State} {a : BitVec 24}

/-- What a frame on SPI leaves (R103 to R112). -/
theorem spiFrameEnd_effects (w v : Word) (alive : s.linkAlive = true) (spi : s.on F.CTL_SYS_STRAP_HOSTSEL = false) :
    (∃ t, exec (.registerWrite .host a w) s.framed = .next t ∧
        exec (.spiFrameEnd (.bytes (0x00 :: addrBytes a ++ wordBytes w) 0 false)) s = .next t ∧
        exec (.spiFrameEnd (.bytes (0x40 :: addrBytes a ++ wordBytes w ++ wordBytes v) 0 false)) s =
          exec (.registerWrite .host (a + 4) v) t ∧
        exec (.spiFrameEnd (.bytes (0x00 :: addrBytes a ++ wordBytes w ++ wordBytes v) 0 false)) s =
          exec (.registerWrite .host a v) t) ∧
      (∃ t, exec (.rcRead .host a) s.framed = .next t ∧ exec (.spiFrameEnd (.bytes (0x80 :: addrBytes a) 1 false)) s = .next t ∧
        (t.ifaceReady .host = true →
          exec (.spiFrameEnd (.bytes (0xC0 :: addrBytes a) 2 false)) s = exec (.rcRead .host (a + 4)) t)) := by
  have write : ∀ {cmd : Byte} (rest : List Byte), cmd.toNat % 64 = 0 → cmd.toNat / 128 = 0 →
      exec (.spiFrameEnd (.bytes (cmd :: addrBytes a ++ rest) 0 false)) s =
        .next (State.writeRun (cmd.toNat / 64 % 2 = 1) rest a.toNat s.framed).1 := fun {cmd} rest good low => by
    rw [execSpiFrameEnd_live alive spi]
    exact congrArg Host.Outcome.next ((spiFrame_sound s a rest 0 good).trans (if_pos low))
  have read : ∀ {cmd : Byte} (n : Nat), cmd.toNat % 64 = 0 → cmd.toNat / 128 ≠ 0 →
      exec (.spiFrameEnd (.bytes (cmd :: addrBytes a) n false)) s =
        .next (State.readRun (cmd.toNat / 64 % 2 = 1) n a.toNat s.framed).1 := fun {cmd} n good high => by
    rw [execSpiFrameEnd_live alive spi, ← List.append_nil (cmd :: addrBytes a)]
    exact congrArg Host.Outcome.next ((spiFrame_sound s a [] n good).trans (if_neg high))
  refine ⟨⟨_, rfl, ?_, ?_, ?_⟩, ⟨_, rfl, ?_, fun ready => ?_⟩⟩
  · rw [write _ (by decide) (by decide), ← List.append_nil (wordBytes w), writeRun_word]
    rfl
  · rw [List.append_assoc, write _ (by decide) (by decide), writeRun_word, ← List.append_nil (wordBytes v), writeRun_word]
    exact congrArg (fun n => Host.Outcome.next ((s.framed.hostWrite .host a.toNat w).hostWrite .host n v)) (nextAddr_inc a)
  · rw [List.append_assoc, write _ (by decide) (by decide), writeRun_word, ← List.append_nil (wordBytes v), writeRun_word]
    rfl
  · rw [read _ (by decide) (by decide), readRun_one]
  · rw [read _ (by decide) (by decide), readRun_ready _ _ _ ready, readRun_one]
    exact congrArg (fun n => Host.Outcome.next ((s.framed.hostRead .host a.toNat).hostRead .host n)) (nextAddr_inc a)

/-- Settles O12, by the record of an error and by the runs of words that a whole frame is. -/
theorem frameEndsRecordErrors : Obligations.FrameEndsRecordErrors := by
  intro s a w v alive begun abs wbs errs
  have recorded : ∀ {cause n : Nat} {t : State}, Recorded cause n s t → errs cause n t ∧ { t with regs := s.regs } = s :=
    fun r => ⟨⟨r.bit, r.latched, r.sameRegs⟩, r.only.rest⟩
  have partWord := recorded (hostErr_recorded s (cause := errPartial) a.toNat (by decide))
  refine ⟨fun spi => ?_, ?_⟩
  · have run := execSpiFrameEnd_live alive spi
    refine ⟨run _, execI2cStop_other spi, ⟨_, run _, recorded (hostErr_recorded s 0 (by decide))⟩, ⟨_, run _, partWord⟩, ?_, ?_,
      spiFrameEnd_effects w v alive spi⟩
    · obtain ⟨l, waits, e⟩ := abortRead_recorded s a.toNat
      have r := hostErr_recorded { s with link := l } (cause := errAbort) a.toNat (by decide)
      have link := r.only.congr State.link fun _ => rfl
      have rest := congrArg (fun v : State => { v with link := s.link }) r.only.rest
      refine ⟨_, (run _).trans (congrArg Host.Outcome.next e), ⟨r.bit, r.latched, r.sameRegs⟩, rest, fun x hx => ?_⟩
      rw [link] at hx
      exact waits x hx
    · intro cmd bs n cut bad
      have r := hostErr_recorded s.framed (cause := errFrame) 0 (by decide)
      exact ⟨_, (run _).trans (congrArg Host.Outcome.next (spiFrame_malformed s bs n cut bad)), ⟨r.bit, r.latched, r.sameRegs⟩, r.only.rest⟩
  · intro i2c head at4
    have run := execI2cStop_live alive i2c
    refine ⟨run _, execSpiFrameEnd_other i2c, ⟨_, run _, partWord⟩, fun h bs n => ⟨fun ne => ?_, fun ne => ?_⟩, ?_, fun ptr => ?_⟩
    · exact (run _).trans (congrArg Host.Outcome.next (if_pos (.inl ne)))
    · exact (run _).trans (congrArg Host.Outcome.next (if_pos ne))
    · exact ⟨_, rfl, (run _).trans (congrArg Host.Outcome.next (i2cWrite_word s a w))⟩
    · exact ⟨_, rfl, fun ready => (run _).trans (congrArg Host.Outcome.next (i2cRead_word s ptr ready))⟩

end Sys2Proof.Machine
end

section
/-!
# Taking a command packet: what its checks leave (spec/04_command_protocol.md, R158 to R173)
-/

namespace Sys2Proof.Machine

/-! ## The packet leaves its ring -/

/-- The state in which a packet that stands is judged: placed in its ring and taken from it, SYS running (R158, R161). -/
def State.taken (s : State) (opcode : Nat) (p : Packet) : State :=
  (s.placeRing p.ring (p.words opcode)).sysRun.wr (F.DSP_RING_DIDX_DIDX p.ring) (s.didx p.ring + (p.words opcode).length)

variable {s : State} {c : CmdSpec} {p : Packet}

theorem taken_papol (s : State) (op : Nat) (p : Packet) : PapolBut papolReg (papolByte s) s (s.taken op p) := by
  have placed : PapolBut papolReg (papolByte s) s (s.placeRing p.ring (p.words op)) :=
    (PapolBut.putRing s p.ring _ _ (ring_lt p)).trans (PapolBut.wr _ _ _ (hidx_papol (ring_lt p)))
  exact (placed.trans (PapolBut.sysRun _)).trans (PapolBut.wr _ _ _ (didx_papol (ring_lt p)))

theorem taken_pap (s : State) (op : Nat) (p : Packet) : (s.taken op p).pap = s.pap := by
  have e := congrArg State.pap (sysRun_rest (s.placeRing p.ring (p.words op)))
  exact e.trans (putRing_pap p.ring (p.words op) (s.hidx p.ring) s)

theorem PapolBut.rd {q : Nat → Prop} {s t : State} (h : PapolBut papolReg q s t) {f : Field} (n : ¬ papolReg f.addr)
    (k : f.addr ≠ Reg.CTL_CLK_STAT := by decide) : t.rd f = s.rd f := by
  unfold State.rd
  rw [h.regs.reg n k]

theorem PapolBut.on {q : Nat → Prop} {s t : State} (h : PapolBut papolReg q s t) {f : Field} (n : ¬ papolReg f.addr)
    (k : f.addr ≠ Reg.CTL_CLK_STAT := by decide) : t.on f = s.on f := by
  unfold State.on
  rw [h.rd n k]

theorem PapolBut.pwr {p q : Nat → Prop} {s t : State} (h : PapolBut p q s t) : t.pwr = s.pwr := by
  have e := congrArg State.pwr h.rest
  exact e

/-- The registers that Papol moves, by their addresses: the authentication counters and the indices of rings 0 to 3. -/
theorem papolReg_iff (a : Nat) : papolReg a ↔
    a = Reg.CTL_SEC_CNT ∨ (0x100400 ≤ a ∧ a < 0x100440 ∧ (a % 0x10 = 0x8 ∨ a % 0x10 = 0xC)) := by
  unfold papolReg Reg.DSP_RING_HIDX Reg.DSP_RING_DIDX
  constructor
  · rintro (⟨n, h, e | e⟩ | e)
    · exact .inr (by omega)
    · exact .inr (by omega)
    · exact .inl e
  · rintro (e | ⟨lo, hi, e⟩)
    · exact .inr e
    · exact .inl ⟨(a - 0x100400) / 0x10, by omega, by omega⟩

theorem not_papolReg {a : Nat} (cnt : a ≠ Reg.CTL_SEC_CNT) (ring : a < 0x100400 ∨ 0x100440 ≤ a ∨ a % 0x10 < 0x8) : ¬ papolReg a := by
  rw [papolReg_iff]
  omega

theorem placeRing_didx (s : State) (n : Nat) (ws : List Word) : (s.placeRing n ws).didx n = s.didx n := by
  unfold State.placeRing State.didx
  rw [State.rd_wr_ne]
  · exact State.rd_congr (putRing_regs n ws (s.hidx n) s) (F.DSP_RING_DIDX_DIDX n)
  · simp only [F.DSP_RING_DIDX_DIDX, F.DSP_RING_HIDX_HIDX]
    omega

theorem sysRun_didx (s : State) (n : Nat) : s.sysRun.didx n = s.didx n :=
  sysRun_rd (by simp only [F.DSP_RING_DIDX_DIDX, Reg.CTL_CLK_STAT]; omega)

/-- Words placed at an index stand unpoisoned there. -/
theorem ringPoisoned_placed (h : s.didx p.ring = s.hidx p.ring) (op : Nat) :
    (s.placeRing p.ring (p.words op)).sysRun.ringPoisoned p.ring (s.didx p.ring) (p.words op).length = false := by
  unfold State.ringPoisoned
  rw [List.any_eq_false, h]
  intro j hj
  have clean := putRing_clean p.ring (p.words op) (s.hidx p.ring) s j (List.mem_range.1 hj)
  have run := sysRun_rest (s.placeRing p.ring (p.words op))
  have poison : (s.placeRing p.ring (p.words op)).sysRun.poison = (s.placeRing p.ring (p.words op)).poison := by
    have e := congrArg State.poison run
    exact e
  have rings : (s.placeRing p.ring (p.words op)).sysRun.rings = s.rings := by
    have e := congrArg State.rings run
    exact e.trans (putRing_rings p.ring (p.words op) (s.hidx p.ring) s)
  rw [ringAddr_congr rings, poison]
  simpa [State.placeRing] using clean

/-- A packet that Papol takes at once goes to its judgement. -/
theorem takeWith_stands (h : Stands c p s) (judge : State → State) : s.takeWith c.opcode p judge = judge (s.taken c.opcode p) := by
  have calm : (if 8 ≤ s.rd F.CTL_SEC_CNT_CONSEC then s.startLockout else s) = s := if_neg (Nat.not_le.2 h.calm)
  have idle : s.takeUnknown p.ring = s := takeUnknown_empty (occupancy_empty h.empty)
  have placed : s.deliver c.opcode p = some (s.placeRing p.ring (p.words c.opcode)) := by
    unfold State.deliver
    rw [if_pos (occupancy_empty h.empty), if_pos ⟨h.alive, h.used, h.fits⟩]
  have ready : s.papolReady p.ring1 = true := by
    have used := h.used
    unfold Packet.ring at used
    unfold State.papolReady
    rw [h.runs, used, h.free]
    rcases h.turn with t | t <;> simp [t]
  unfold State.takeWith
  rw [calm, idle]
  dsimp only
  rw [placed]
  dsimp only
  rw [if_neg (by simp [ready]), if_neg (Nat.not_lt.2 h.len)]
  unfold State.consume
  rw [sysRun_didx, placeRing_didx, if_neg (by simp [ringPoisoned_placed h.empty])]
  rfl

/-! ## The checks (R169) -/

/-- The state of a packet whose CRC is right and whose CSEQ is the one expected: its EACK stored, its series advanced (R170, R173). -/
def State.counted (s : State) (opcode : Nat) (p : Packet) : State := ((s.taken opcode p).takeEack p.eack).advance p.ring1

theorem counted_papol (s : State) (op : Nat) (p : Packet) : PapolBut papolReg (papolByte s) s (s.counted op p) := by
  obtain ⟨x, eack⟩ := takeEack_rest (s.taken op p) p.eack
  unfold State.counted
  rw [eack]
  exact (taken_papol s op p).trans (PapolBut.pap rfl)

/-- Papol's own state at the checks: the series advanced and EACK stored, nothing else. -/
theorem counted_pap (s : State) (op : Nat) (p : Packet) : ∃ x, (s.counted op p).pap = { s.pap with
    eack := x
    exp0 := if p.ring1 then s.pap.exp0 else s.pap.exp0 + 1
    exp1 := if p.ring1 then s.pap.exp1 + 1 else s.pap.exp1 } := by
  obtain ⟨x, eack⟩ := takeEack_rest (s.taken op p) p.eack
  refine ⟨x, ?_⟩
  unfold State.counted State.advance
  rw [eack]
  dsimp only
  rw [taken_pap]

theorem counted_expected (s : State) (op : Nat) (p : Packet) :
    (s.counted op p).expected p.ring1 = s.expected p.ring1 + 1 ∧ (s.counted op p).expected (!p.ring1) = s.expected (!p.ring1) := by
  obtain ⟨x, e⟩ := counted_pap s op p
  unfold State.expected
  rw [e]
  cases p.ring1 <;> exact ⟨rfl, rfl⟩

/-- The checks of R169 see the state before the packet. -/
theorem counted_check (s : State) (c : CmdSpec) (p : Packet) : c.check p (s.counted c.opcode p) = c.check p s := by
  have but := counted_papol s c.opcode p
  have rd : ∀ f : Field, f.addr < 0x100400 → f.addr ≠ Reg.CTL_SEC_CNT → f.addr ≠ Reg.CTL_CLK_STAT →
      (s.counted c.opcode p).rd f = s.rd f := fun f low cnt clk => but.rd (not_papolReg cnt (.inl low)) clk
  exact check_congr (congrArg Sec.key but.sec) (rd _ (by decide) (by decide) (by decide)) (congrArg Pwr.origin but.pwr)
    (rd _ (by decide) (by decide) (by decide)) (rd _ (by decide) (by decide) (by decide)) (rd _ (by decide) (by decide) (by decide))

/-- A packet that fails a check is answered with that check's status. -/
theorem take_refused {st d : Nat} (h : Judged c p s) (fails : c.check p s = some (st, d)) (body : State → Res) (after : State → State) :
    s.take c p body after = ((s.counted c.opcode p).authResult c p st).answer c.opcode p p.auth true st d false [] := by
  have cseq : ((s.taken c.opcode p).takeEack p.eack).expected p.ring1 = s.expected p.ring1 := by
    obtain ⟨x, eack⟩ := takeEack_rest (s.taken c.opcode p) p.eack
    unfold State.expected
    rw [eack]
    dsimp only
    rw [taken_pap]
  unfold State.take
  rw [takeWith_stands h.toStands]
  unfold State.judge
  rw [if_neg (fun e => e h.whole)]
  dsimp only
  rw [cseq, if_neg (fun e => e h.expect)]
  have fails' := (counted_check s c p).trans fails
  unfold State.counted at fails'
  rw [fails']
  rfl

/-! ## What events and replies leave of Papol's own state -/

/-- Papol's own state but for what an event moves: ESEQ, the event journal, what is to be reposted, the waiting reports. -/
def Papol.noEvents (x : Papol) : Papol :=
  { x with eseq := 0, events := [], unacked := [], overflow := none, reports := [], dropped := 0 }

/-- Papol's own state but for what a reply moves: the reply journal, the held replies, the last completed CSEQs. -/
def Papol.noReplies (x : Papol) : Papol :=
  { x with replies := [], held := [], last0 := 0, last1 := 0, lastCseq := 0, lastUrg := false }

theorem trimEvents_noEvents : ∀ (n : Nat) (s : State), (s.trimEvents n).pap.noEvents = s.pap.noEvents
  | 0, _ => rfl
  | n + 1, s => by
    have key : ∀ u : State, u.pap.noEvents = s.pap.noEvents → (u.trimEvents n).pap.noEvents = s.pap.noEvents :=
      fun u h => (trimEvents_noEvents n u).trans h
    unfold State.trimEvents
    split
    · rfl
    · split
      · rfl
      · dsimp only
        split
        · unfold State.keepRepost
          split <;> exact key _ rfl
        · split <;> exact key _ rfl

theorem flushEvents_noEvents : ∀ (l acc : List EventEntry) (s : State), (State.flushEvents acc l s).pap.noEvents = s.pap.noEvents
  | [], _, _ => rfl
  | e :: rest, acc, s => by
    unfold State.flushEvents
    split
    · exact flushEvents_noEvents rest _ s
    · split
      · exact (flushEvents_noEvents rest _ _).trans rfl
      · rfl

theorem issueAt_noEvents (s : State) (code : Nat) (ws : List Word) (r : Bool) (t : Word64) :
    (s.issueAt code ws r t).pap.noEvents = s.pap.noEvents :=
  (flushEvents_noEvents _ [] _).trans ((trimEvents_noEvents 4 _).trans rfl)

theorem raiseR_noEvents (s : State) (code : Nat) (ws : List Word) (r : Bool) : (s.raiseR code ws r).pap.noEvents = s.pap.noEvents := by
  unfold State.raiseR
  split
  · have run := congrArg (fun v : State => v.pap.noEvents) (sysRun_rest s)
    exact (issueAt_noEvents _ _ _ _ _).trans run
  · split <;> rfl

theorem raise_noEvents (s : State) (code : Nat) (ws : List Word) : (s.raise code ws).pap.noEvents = s.pap.noEvents :=
  raiseR_noEvents s code ws false

theorem raiseClamps_noEvents (op : Nat) : ∀ (cl : List Clamp) (s : State), (s.raiseClamps op cl).pap.noEvents = s.pap.noEvents
  | [], _ => rfl
  | _ :: cl, _ => (raiseClamps_noEvents op cl _).trans (raise_noEvents _ _ _)

theorem completed_noReplies (s : State) (r : Bool) (c : BitVec 16) : (s.completed r c).pap.noReplies = s.pap.noReplies := rfl

theorem wrote_noReplies (s : State) (h : HeldReply) : (s.wrote h).pap.noReplies = s.pap.noReplies := by
  unfold State.wrote
  dsimp only
  split <;> split <;> rfl

theorem flushHeld_noReplies : ∀ (l : List HeldReply) (s : State), (s.flushHeld l).pap.noReplies = s.pap.noReplies
  | [], _ => rfl
  | h :: rest, s => by
    unfold State.flushHeld
    split
    · rw [flushHeld_noReplies rest, wrote_noReplies, ringPut_pap]
    · rfl

theorem emit_noReplies (s : State) (h : HeldReply) : (s.emit h).pap.noReplies = s.pap.noReplies := flushHeld_noReplies _ s

theorem answer_noReplies (s : State) (op : Nat) (p : Packet) (auth journal : Bool) (st d : Nat) (tr : Bool) (ws : List Word) :
    (s.answer op p auth journal st d tr ws).pap.noReplies = s.pap.noReplies := by
  unfold State.answer
  cases journal
  all_goals
    dsimp only
    split
    · split <;> rfl
    · exact (emit_noReplies _ _).trans rfl

theorem expected_of_noEvents {s t : State} (h : t.pap.noEvents = s.pap.noEvents) (r : Bool) : t.expected r = s.expected r := by
  have exp0 := congrArg Papol.exp0 h
  have exp1 := congrArg Papol.exp1 h
  exact expected_congr exp0 exp1 r

theorem expected_of_noReplies {s t : State} (h : t.pap.noReplies = s.pap.noReplies) (r : Bool) : t.expected r = s.expected r := by
  have exp0 := congrArg Papol.exp0 h
  have exp1 := congrArg Papol.exp1 h
  exact expected_congr exp0 exp1 r

/-! ## A refused packet -/

theorem authFailed_papol (s : State) : PapolBut papolReg (papolByte s) s s.authFailed := by
  have count : ∀ u : State, PapolBut papolReg (papolByte u) u ((u.sat F.CTL_SEC_CNT_AUTHFAIL 1)) :=
    fun u => PapolBut.wr u _ _ consec_papol
  have f : Frame {} (fun _ => False) s (s.sat F.CTL_SEC_CNT_AUTHFAIL 1) := .of_papol (count s)
  have f2 : Frame {} (fun _ => False) s ((s.sat F.CTL_SEC_CNT_AUTHFAIL 1).sat F.CTL_SEC_CNT_CONSEC 1) :=
    f.papol (PapolBut.wr _ _ _ consec_papol)
  exact (Frame.ite f (.ite f2.raiseSecurity f2)).papolBut

theorem authFailed_noEvents (s : State) : s.authFailed.pap.noEvents = s.pap.noEvents := by
  unfold State.authFailed
  dsimp only
  split
  · rfl
  · split
    · exact raise_noEvents _ _ _
    · rfl

/-- What a refusal counts of authentication is Papol's own. -/
theorem authResult_papol (s : State) (c : CmdSpec) (p : Packet) (st : Nat) :
    PapolBut papolReg (papolByte s) s (s.authResult c p st) ∧ (s.authResult c p st).pap.noEvents = s.pap.noEvents := by
  unfold State.authResult
  split
  · exact ⟨authFailed_papol s, authFailed_noEvents s⟩
  · split
    · exact ⟨PapolBut.wr s _ _ consec_papol, rfl⟩
    · exact ⟨.refl _ _ s, rfl⟩

/-- A packet that fails a check is answered so, has no effect beyond Papol's own state, and counts in its series alone (R169, R170). -/
theorem take_refused_answers {st d : Nat} (h : Judged c p s) (fails : c.check p s = some (st, d)) (body : State → Res)
    (after : State → State) :
    let t := s.take c p body after
    Replied t c p st d [] ∧ PapolBut papolReg (papolByte s) s t ∧ t.expected p.ring1 = s.expected p.ring1 + 1 ∧
      t.expected (!p.ring1) = s.expected (!p.ring1) := by
  intro t
  have e : t = _ := take_refused h fails body after
  have counted := Frame.of_papol (counted_papol s c.opcode p)
  obtain ⟨auth, pap⟩ := authResult_papol (s.counted c.opcode p) c p st
  have series : ∀ r, t.expected r = (s.counted c.opcode p).expected r := fun r => by
    rw [e, expected_of_noReplies (answer_noReplies _ _ _ _ _ _ _ _ _), expected_of_noEvents pap]
  refine ⟨e ▸ answer_replied _ c p p.auth st d false [], ?_, ?_, ?_⟩
  · rw [e]
    exact (counted.papol auth).answer.papolBut
  · rw [series, (counted_expected s c.opcode p).1]
  · rw [series, (counted_expected s c.opcode p).2]

/-- Every command that a host packet carries is taken under its card, and its card accepts some length. -/
theorem exec_packet {i : Instr} (h : packet? i = some (c, p)) :
    c.minLen ≤ c.maxLen ∧ ∀ s, ∃ body after, exec i s = .next (s.take c p body after) := by
  cases i <;> cases h <;> exact ⟨Nat.le_of_ble_eq_true rfl, fun s => ⟨_, _, rfl⟩⟩

/-- The checks of R169 in their order, where the card accepts some length. -/
theorem check_eq (lens : c.minLen ≤ c.maxLen) (p : Packet) (s : State) : c.check p s =
    if p.urgent ≠ p.ring1 then some (stsBadParam, 0)
    else if p.ring1 = true ∧ c.ring1 = false then some (stsDenied, 1)
    else if c.auth = true ∧ p.auth = false then some (stsDenied, 3)
    else if p.auth = true ∧ s.tagOk c.opcode p = false then some (stsAuthFail, 0)
    else if ¬ c.allows s.leaving then some (stsDenied, 2)
    else if s.on F.PWR_STATE_TRANS = true ∧ c.opcode ≠ 0x600 ∧ ¬ c.allows (s.rd F.PWR_STATE_TARGET) then some (stsDenied, 2)
    else if p.payload.length < c.minLen ∨ c.maxLen < p.payload.length then some (stsBadParam, 0)
    else if p.force = true ∧ c.force = false then some (stsBadParam, 0)
    else none := by
  unfold CmdSpec.check
  simp only [Nat.not_lt.2 lens, or_false, Bool.not_eq_true]

theorem allows_iff (c : CmdSpec) (st : Nat) : c.allows st = true ↔
    (st = stListen ∧ c.listen = true) ∨ (st = stIdle ∧ c.idle = true) ∨ (st = stPlay ∧ c.play = true) := by
  unfold CmdSpec.allows
  simp [or_assoc]

/-- Settles O14: the first check that fails gives the answer, and no check is made from what the card would do. -/
theorem refusedPacketHasNoEffect : Obligations.RefusedPacketHasNoEffect := by
  intro i c p s carried judged refused allowed
  obtain ⟨lens, run⟩ := exec_packet carried
  obtain ⟨body, after, run⟩ := run s
  have fails : ∀ st d, c.check p s = some (st, d) → refused st d := fun st d h => ⟨_, run, take_refused_answers judged h body after⟩
  have checks := check_eq lens p s
  simp only [allows_iff] at checks
  split
  next h => exact fails _ _ (by rw [checks, if_pos h])
  next h1 =>
  rw [if_neg h1] at checks
  split
  next h => exact fails _ _ (by rw [checks, if_pos h])
  next h2 =>
  rw [if_neg h2] at checks
  split
  next h => exact fails _ _ (by rw [checks, if_pos h])
  next h3 =>
  rw [if_neg h3] at checks
  split
  next h => exact fails _ _ (by rw [checks, if_pos h])
  next h4 =>
  rw [if_neg h4] at checks
  split
  next h => exact fails _ _ (by rw [checks, if_pos h])
  next h5 =>
  rw [if_neg h5] at checks
  split
  next h => exact fails _ _ (by rw [checks, if_pos h])
  next h6 =>
  rw [if_neg h6] at checks
  split
  next h => exact fails _ _ (by rw [checks, if_pos h])
  next h7 =>
  rw [if_neg h7] at checks
  exact fun force none => fails _ _ (by rw [checks, if_pos ⟨force, none⟩])

end Sys2Proof.Machine
end

section
/-!
# Words in a ring, replies and waiting events (spec/04_command_protocol.md, R156, R159, R163, R168, R184 to R186)
-/

namespace Sys2Proof.Machine

/-! ## Words written into a ring -/

/-- Two indices of a ring that are not congruent name words apart. -/
theorem ringAddr_apart (s : State) {n i j : Nat} (h : i % s.ringLen n ≠ j % s.ringLen n) :
    s.ringAddr n j + 4 ≤ s.ringAddr n i ∨ s.ringAddr n i + 4 ≤ s.ringAddr n j := by
  unfold State.ringAddr
  omega

/-- A run of words leaves the word at an index that it does not come to. -/
theorem word_putRing_ne (n j : Nat) : ∀ (ws : List Word) (i : Nat) (s : State),
    (∀ k, k < ws.length → (i + k) % s.ringLen n ≠ j % s.ringLen n) → (s.putRing n i ws).word (s.ringAddr n j) = s.word (s.ringAddr n j)
  | [], _, _, _ => rfl
  | w :: ws, i, s, h => by
    have first := h 0 (by simp)
    unfold State.putRing
    have later := word_putRing_ne n j ws (i + 1) (s.setWord (s.ringAddr n i) w) (fun k hk => by
      have e := h (k + 1) (by simpa using hk)
      rwa [show i + (k + 1) = i + 1 + k by omega] at e)
    exact later.trans (State.word_setWord_ne _ _ (ringAddr_apart s first))

theorem ringWords_succ (s : State) (n i k : Nat) : s.ringWords n i (k + 1) = s.word (s.ringAddr n i) :: s.ringWords n (i + 1) k := rfl

theorem ringWords_congr {s t : State} (mem : t.mem = s.mem) (rings : t.rings = s.rings) (n : Nat) : ∀ (k i : Nat),
    t.ringWords n i k = s.ringWords n i k
  | 0, _ => rfl
  | k + 1, i => by
    unfold State.ringWords
    rw [ringAddr_congr rings, State.word_congr mem, ringWords_congr mem rings n k]

theorem mod_add_ne {L i k : Nat} (pos : 0 < k) (lt : k < L) : (i + k) % L ≠ i % L := by
  intro e
  have h : (i + k) % L = (i % L + k) % L := by simp
  have hi := Nat.mod_lt i (show 0 < L by omega)
  rw [h] at e
  by_cases c : i % L + k < L
  · rw [Nat.mod_eq_of_lt c] at e
    omega
  · rw [Nat.mod_eq_sub_mod (by omega), Nat.mod_eq_of_lt (by omega)] at e
    omega

/-- A run of words that the ring is long enough for reads as written. -/
theorem ringWords_putRing (n : Nat) : ∀ (ws : List Word) (i : Nat) (s : State), ws.length ≤ s.ringLen n →
    (s.putRing n i ws).ringWords n i ws.length = ws
  | [], _, _, _ => rfl
  | w :: ws, i, s, fits => by
    have fits' : ws.length + 1 ≤ s.ringLen n := fits
    rw [List.length_cons, ringWords_succ]
    unfold State.putRing
    congr 1
    · rw [ringAddr_congr (putRing_rings n ws (i + 1) (s.setWord (s.ringAddr n i) w))]
      have kept := word_putRing_ne n i ws (i + 1) (s.setWord (s.ringAddr n i) w) (fun k hk => by
        rw [show i + 1 + k = i + (k + 1) by omega]
        exact mod_add_ne (by omega) (show k + 1 < s.ringLen n by omega))
      exact kept.trans (State.word_setWord_same _ _ _)
    · exact ringWords_putRing n ws (i + 1) _ (show ws.length ≤ s.ringLen n by omega)

theorem didx_field (n : Nat) : (F.DSP_RING_DIDX_DIDX n).lo + (F.DSP_RING_DIDX_DIDX n).width ≤ 32 := by
  show 0 + 17 ≤ 32
  omega

theorem ringPut_didx (s : State) (n : Nat) (ws : List Word) : (s.ringPut n ws).didx n = (s.didx n + ws.length) % 2 ^ 17 :=
  State.rd_wr_same _ _ (didx_field n)

theorem ringPut_didx_ne (s : State) {n m : Nat} (ws : List Word) (h : m ≠ n) : (s.ringPut n ws).didx m = s.didx m := by
  unfold State.ringPut State.didx
  rw [State.rd_wr_ne]
  · exact State.rd_congr (putRing_regs n ws _ s) _
  · show 0x10040C + 0x10 * m ≠ 0x10040C + 0x10 * n
    omega

theorem ringPut_words (s : State) (n : Nat) (ws : List Word) (fits : ws.length ≤ s.ringLen n) :
    (s.ringPut n ws).ringWords n (s.didx n) ws.length = ws := by
  refine (ringWords_congr (s := s.putRing n (s.didx n) ws) ?_ ?_ n _ _).trans (ringWords_putRing n ws (s.didx n) s fits) <;> rfl

theorem ringSpace_fits {s : State} {n k : Nat} (h : s.ringSpace n k = true) : k ≤ s.ringLen n := by
  have h2 := (Bool.and_eq_true _ _ ▸ h).2
  have h3 := of_decide_eq_true h2
  omega

/-- The leading words of a longer run. -/
theorem ringWords_take (s : State) (n : Nat) : ∀ (k m i : Nat), k ≤ m → s.ringWords n i k = (s.ringWords n i m).take k
  | 0, _, _, _ => by simp [State.ringWords]
  | k + 1, m + 1, i, h => by
    unfold State.ringWords
    rw [List.take_succ_cons, ringWords_take s n k m (i + 1) (by omega)]

theorem ringWords_drop (s : State) (n : Nat) : ∀ (d m i : Nat), d ≤ m → s.ringWords n (i + d) (m - d) = (s.ringWords n i m).drop d
  | 0, m, i, _ => by simp
  | d + 1, m + 1, i, h => by
    rw [show i + (d + 1) = i + 1 + d by omega, show m + 1 - (d + 1) = m - d by omega]
    conv => rhs; unfold State.ringWords
    rw [List.drop_succ_cons, ringWords_drop s n d m (i + 1) (by omega)]

/-! ## Replies held and written -/

theorem wrote_held (s : State) (h : HeldReply) : (s.wrote h).pap.held = s.pap.held := by
  unfold State.wrote State.completed
  dsimp only
  split <;> split <;> rfl

/-- A reply that is neither journaled nor final leaves Papol's own state. -/
theorem wrote_unjournaled {s : State} {h : HeldReply} (journal : h.journaled = false) (final : h.final = false) : s.wrote h = s := by
  unfold State.wrote
  rw [journal, final]
  rfl

theorem wrote_mem (s : State) (h : HeldReply) : (s.wrote h).mem = s.mem := by
  have e := congrArg State.mem (wrote_pap s h)
  exact e

theorem wrote_rings (s : State) (h : HeldReply) : (s.wrote h).rings = s.rings := by
  have e := congrArg State.rings (wrote_pap s h)
  exact e

theorem wrote_didx (s : State) (h : HeldReply) (n : Nat) : (s.wrote h).didx n = s.didx n := by
  have e := congrArg State.regs (wrote_pap s h)
  exact State.rd_congr e _

section
variable {s : State} {h : HeldReply}

/-- One reply with space for it. -/
theorem flushHeld_space (space : s.ringSpace 2 (s.replyWords h).length = true) :
    s.flushHeld [h] = { (s.ringPut 2 (s.replyWords h)).wrote h with
      pap := { ((s.ringPut 2 (s.replyWords h)).wrote h).pap with held := [] } } := by
  unfold State.flushHeld
  rw [if_pos space]
  rfl

theorem flushHeld_full (space : s.ringSpace 2 (s.replyWords h).length = false) :
    s.flushHeld [h] = { s with pap := { s.pap with held := [h] } } := by
  unfold State.flushHeld
  rw [if_neg (by rw [space]; decide)]

/-- What stands in ring 2 after one reply with space for it. -/
structure Written (h : HeldReply) (s t : State) : Prop where
  words : t.ringWords 2 (s.didx 2) (s.replyWords h).length = s.replyWords h
  past  : t.didx 2 = (s.didx 2 + (s.replyWords h).length) % 2 ^ 17
  other : ∀ n, n ≠ 2 → t.didx n = s.didx n
  none  : t.pap.held = []

theorem flushHeld_written (space : s.ringSpace 2 (s.replyWords h).length = true) : Written h s (s.flushHeld [h]) := by
  rw [flushHeld_space space]
  refine ⟨?_, ?_, fun n e => ?_, rfl⟩
  · refine (ringWords_congr (s := s.ringPut 2 (s.replyWords h)) ?_ ?_ 2 _ _).trans (ringPut_words s 2 _ (ringSpace_fits space))
    · exact wrote_mem _ h
    · exact wrote_rings _ h
  · exact (wrote_didx _ h 2).trans (ringPut_didx s 2 _)
  · exact (wrote_didx _ h n).trans (ringPut_didx_ne s _ e)

theorem emit_written (none : s.pap.held = []) (space : s.ringSpace 2 (s.replyWords h).length = true) : Written h s (s.emit h) := by
  unfold State.emit
  rw [none]
  exact flushHeld_written space

theorem emit_full (none : s.pap.held = []) (space : s.ringSpace 2 (s.replyWords h).length = false) :
    s.emit h = { s with pap := { s.pap with held := [h] } } := by
  unfold State.emit
  rw [none]
  exact flushHeld_full space

end

/-! ## A reply as it is written -/

theorem bits_high (a : BitVec 16) : bits (w32 (a.toNat * 2 ^ 16)) 16 16 = a.toNat := by
  have h := a.isLt
  unfold bits w32
  rw [BitVec.toNat_ofNat]
  omega

/-- The words of an untagged reply. -/
theorem replyWords_head (s : State) (op : Nat) (r dup tr rs : Bool) (cseq : BitVec 16) (st d len : Nat) (ws : List Word)
    (j f ring : Bool) (c : BitVec 16) :
    let body := [w32 (op * 2 ^ 20 + b2n r * 2 ^ 19 + b2n dup * 2 ^ 18 + b2n tr * 2 ^ 17 + b2n rs * 2 ^ 16 + len),
      w32 (cseq.toNat * 2 ^ 16 + s.pap.eseq.toNat), w32 (st * 2 ^ 24 + d % 2 ^ 24)] ++ ws
    s.replyWords ⟨replyHead op r dup tr rs cseq st d len ws, false, j, f, ring, c⟩ = body ++ [crc32c body] := by
  have high : bits (pw (replyHead op r dup tr rs cseq st d len ws) 1) 16 16 = cseq.toNat := bits_high cseq
  unfold State.replyWords
  dsimp only
  rw [high]
  simp [replyHead]

theorem replyWords_length (s : State) (op : Nat) (r dup tr rs : Bool) (cseq : BitVec 16) (st d len : Nat) (ws : List Word)
    (j f ring : Bool) (c : BitVec 16) :
    (s.replyWords ⟨replyHead op r dup tr rs cseq st d len ws, false, j, f, ring, c⟩).length = ws.length + 4 := by
  rw [replyWords_head]
  simp

/-! ## The state at the card and ring 2 -/

theorem placeRing_rd (s : State) {n : Nat} (ws : List Word) {f : Field} (h : f.addr ≠ (F.DSP_RING_HIDX_HIDX n).addr) :
    (s.placeRing n ws).rd f = s.rd f := by
  unfold State.placeRing
  rw [State.rd_wr_ne _ _ h]
  exact State.rd_congr (putRing_regs n ws _ s) f

theorem taken_rd (s : State) (op : Nat) (p : Packet) {f : Field} (clk : f.addr ≠ Reg.CTL_CLK_STAT)
    (hi : f.addr ≠ (F.DSP_RING_HIDX_HIDX p.ring).addr) (di : f.addr ≠ (F.DSP_RING_DIDX_DIDX p.ring).addr) : (s.taken op p).rd f = s.rd f := by
  unfold State.taken
  rw [State.rd_wr_ne _ _ di, sysRun_rd clk, placeRing_rd _ _ hi]

theorem ring_le_one (p : Packet) : p.ring = 0 ∨ p.ring = 1 := by unfold Packet.ring; split <;> simp

theorem taken_didx (s : State) (op : Nat) (p : Packet) {n : Nat} (h : 2 ≤ n) : (s.taken op p).didx n = s.didx n := by
  have low := ring_le_one p
  refine taken_rd s op p ?_ ?_ ?_ <;> simp only [F.DSP_RING_DIDX_DIDX, F.DSP_RING_HIDX_HIDX, Reg.CTL_CLK_STAT] <;> omega

theorem taken_hidx (s : State) (op : Nat) (p : Packet) {n : Nat} (h : 2 ≤ n) : (s.taken op p).hidx n = s.hidx n := by
  have low := ring_le_one p
  refine taken_rd s op p ?_ ?_ ?_ <;> simp only [F.DSP_RING_DIDX_DIDX, F.DSP_RING_HIDX_HIDX, Reg.CTL_CLK_STAT] <;> omega

theorem ringSpace_congr {s t : State} {n : Nat} (on : t.ringOn n = s.ringOn n) (didx : t.didx n = s.didx n) (hidx : t.hidx n = s.hidx n)
    (rings : t.rings = s.rings) (k : Nat) : t.ringSpace n k = s.ringSpace n k := by
  unfold State.ringSpace State.unread State.ringLen State.geo
  rw [on, didx, hidx, rings]

theorem PapolBut.ringOn {q : Nat → Prop} {s t : State} (h : PapolBut papolReg q s t) (n : Nat) : t.ringOn n = s.ringOn n := by
  have link := congrArg State.link h.rest
  have stopped : t.ringStopped n = s.ringStopped n := by
    unfold State.ringStopped
    rw [show t.link = s.link from link]
  have on : t.on (F.DSP_RING_CFG_ENABLE n) = s.on (F.DSP_RING_CFG_ENABLE n) :=
    h.on (not_papolReg (by simp only [F.DSP_RING_CFG_ENABLE, Reg.CTL_SEC_CNT]; omega) (by simp only [F.DSP_RING_CFG_ENABLE]; omega))
      (by simp only [F.DSP_RING_CFG_ENABLE, Reg.CTL_CLK_STAT]; omega)
  unfold State.ringOn
  rw [on, stopped]

theorem taken_ringSpace (s : State) (op : Nat) (p : Packet) (k : Nat) : (s.taken op p).ringSpace 2 k = s.ringSpace 2 k :=
  ringSpace_congr ((taken_papol s op p).ringOn 2) (taken_didx s op p (by omega)) (taken_hidx s op p (by omega))
    (taken_papol s op p).rings k

/-- The state at the card of an unauthenticated packet. -/
theorem admitted_plain (s : State) (c : CmdSpec) {p : Packet} (plain : p.auth = false) :
    ∃ x y z, s.admitted c p = { s.taken c.opcode p with pap := { s.pap with exp0 := x, exp1 := y, eack := z } } := by
  obtain ⟨e, he⟩ := takeEack_rest (s.taken c.opcode p) p.eack
  have key : ∀ r, ∃ x y z, (({ s.taken c.opcode p with pap := { (s.taken c.opcode p).pap with eack := e } } : State).advance r) =
      { s.taken c.opcode p with pap := { s.pap with exp0 := x, exp1 := y, eack := z } } := by
    intro r
    rw [taken_pap]
    exact ⟨_, _, _, rfl⟩
  have shape : s.admitted c p = ((s.taken c.opcode p).takeEack p.eack).advance p.ring1 := by
    unfold State.admitted State.taken
    rw [plain]
    rfl
  rw [shape, he]
  exact key p.ring1

/-! ## NOP -/

/-- Settles O16: the reply is the one that is written, or held, in ring 2 behind a packet of ring 0 or 1. -/
theorem replyStandsWholeInRingTwo : Obligations.ReplyStandsWholeInRingTwo := by
  intro p s acc reply plain d ws
  obtain ⟨x, y, z, adm⟩ := admitted_plain s cardNop plain
  have body : exec (.nop p) s = .next ((s.admitted cardNop p).settle cardNop p (.ok (s.admitted cardNop p)) id) :=
    congrArg Host.Outcome.next (take_accepted acc Res.ok id)
  let entry : ReplyEntry := ⟨0, p.ring1, p.cseq, s.pap.eseq, 0, 0, 0, []⟩
  let u : State := { s.taken 0 p with pap := { s.pap with exp0 := x, exp1 := y, eack := z, replies := pushReply s.pap.replies entry } }
  let h : HeldReply := ⟨replyHead 0 p.ring1 false false false p.cseq 0 0 0 [], false, true, true, p.ring1, p.cseq⟩
  have run : exec (.nop p) s = .next (u.emit h) := by
    rw [body, adm]
    unfold State.settle Res.ok State.answer
    dsimp only
    rw [if_neg (by rw [reply]; simp), plain]
    rfl
  have none : u.pap.held = [] := acc.free
  have didx : u.didx 2 = d := taken_didx s 0 p (by omega)
  have space : ∀ k, u.ringSpace 2 k = s.ringSpace 2 k := taken_ringSpace s 0 p
  have words : u.replyWords h = ws ++ [crc32c ws] := by
    rw [replyWords_head]
    simp [ws, u, b2n, show w32 0 = 0 from rfl]
  have length : (u.replyWords h).length = 4 := by rw [words]; rfl
  refine ⟨_, run, fun room => ?_, fun full => ?_⟩
  · have w := emit_written none (by rw [length, space, room])
    refine ⟨?_, ?_, w.none⟩
    · have stands := w.words
      rwa [didx, length, words] at stands
    · have past := w.past
      rwa [didx, length] at past
  · rw [emit_full none (by rw [length, space, full])]
    refine ⟨didx, rfl, fun r => ?_⟩
    unfold State.papolReady
    simp

/-! ## Held replies, waiting events, discarded rings -/

theorem replyWords_written {s : State} {h : HeldReply} (run : s.pap.run = .running) (held : s.pap.held = [h]) (due : s.pap.afterDue = none)
    (space : s.ringSpace 2 (s.replyWords h).length = true) : ∃ t, exec .replyWrite s = .next t ∧ t.pap.held = [] ∧
      t.ringWords 2 (s.didx 2) (s.replyWords h).length = s.replyWords h ∧ t.didx 2 = (s.didx 2 + (s.replyWords h).length) % 2 ^ 17 ∧
      PapolBut papolReg (papolByte s) s t := by
  have w := flushHeld_written space
  have done : (s.flushHeld [h]).runAfter = s.flushHeld [h] := by
    have idle : (s.flushHeld [h]).pap.afterDue = none := by
      rw [flushHeld_space space]
      exact (wrote_afterDue _ h).trans ((congrArg Papol.afterDue (ringPut_pap s 2 _)).trans due)
    unfold State.runAfter
    rw [w.none, idle]
    rfl
  have ran : exec .replyWrite s = .next (s.flushHeld [h]) := by
    show Host.Outcome.next _ = _
    rw [if_pos run, held, done]
  exact ⟨_, ran, w.none, w.words, w.past, flushHeld_papol [h] s⟩

theorem words_length (e : EventEntry) (again : Bool) : (e.words again).length = e.payload.length + 5 := by
  unfold EventEntry.words
  simp

theorem event_written {s : State} {e : EventEntry} (run : s.pap.run = .running) (space : s.ringSpace 3 (e.words true).length = true)
    (waits : s.pap.events = [e]) (new : e.written = false) : ∃ t, exec .eventWrite s = .next t ∧ t.pap.events = [{ e with written := true }] ∧
      t.ringWords 3 (s.didx 3) (e.words false).length = e.words false ∧ t.didx 3 = (s.didx 3 + (e.words false).length) % 2 ^ 17 ∧
      PapolBut papolReg (papolByte s) s t := by
  have room : s.ringSpace 3 (e.words false).length = true := by
    rw [words_length] at space ⊢
    exact space
  let ov := if s.pap.overflow = some e.eseq then none else s.pap.overflow
  have flushed : s.flush = { s.ringPut 3 (e.words false) with
      pap := { s.pap with overflow := ov, events := [{ e with written := true }] } } := by
    unfold State.flush
    rw [waits]
    unfold State.flushEvents
    rw [if_neg (by rw [new]; decide), if_pos room]
    rfl
  have ran : exec .eventWrite s = .next s.flush := by
    show Host.Outcome.next _ = _
    rw [if_pos run]
  refine ⟨_, ran, ?_, ?_, ?_, (flushEvents_papol s.pap.events [] s).1⟩
  · rw [flushed]
  · rw [flushed]
    refine (ringWords_congr (s := s.ringPut 3 (e.words false)) ?_ ?_ 3 _ _).trans
      (ringPut_words s 3 (e.words false) (ringSpace_fits room)) <;> rfl
  · rw [flushed]
    exact ringPut_didx s 3 (e.words false)

theorem event_reposted {s : State} {e : EventEntry} (run : s.pap.run = .running) (space : s.ringSpace 3 (e.words true).length = true)
    (waits : s.pap.unacked ++ s.pap.events = [e]) (old : e.written = true) (repost : e.repost = true) (unacked : s.acked e = false) :
    ∃ t, exec .eventRepost s = .next t ∧ t.pap.unacked ++ t.pap.events = [e] ∧
      t.ringWords 3 (s.didx 3) (e.words true).length = e.words true ∧ t.didx 3 = (s.didx 3 + (e.words true).length) % 2 ^ 17 ∧
      PapolBut papolReg (papolByte s) s t := by
  have due : s.reposts e = true := by
    unfold State.reposts
    rw [repost, old, unacked]
    rfl
  have ran : exec .eventRepost s = .next (s.ringPut 3 (e.words true)) := by
    show Host.Outcome.next _ = _
    rw [if_pos run, waits]
    unfold State.repostAll
    rw [if_pos ⟨due, space⟩]
    rfl
  refine ⟨_, ran, ?_, ringPut_words s 3 _ (ringSpace_fits space), ringPut_didx s 3 _, ringPut_papol s _ (by omega)⟩
  rw [ringPut_pap]
  exact waits

theorem extract_bits (w : Word) : (w.extractLsb' 16 16).toNat = bits w 16 16 := by
  unfold bits
  rw [BitVec.extractLsb'_toNat, Nat.shiftRight_eq_div_pow]

/-- A discarded ring is emptied, and one reply ST_CRC_FAIL with RESYNC is written (R168). -/
theorem resync_written {s : State} {n : Nat} (hn : n < 2) (op : Nat) (c : BitVec 16) (none : s.pap.held = []) (space : s.ringSpace 2 4 = true) :
    let t := s.resync n op c
    t.didx n = s.hidx n ∧ t.pap.exp0 = s.pap.exp0 ∧ t.pap.exp1 = s.pap.exp1 ∧ t.pap.replies = s.pap.replies ∧
      PapolBut papolReg (papolByte s) s t ∧ t.didx 2 = (s.didx 2 + 4) % 2 ^ 17 ∧
      t.ringWords 2 (s.didx 2) 3 = [w32 (op * 2 ^ 20 + n * 2 ^ 19 + 2 ^ 16), w32 (c.toNat * 2 ^ 16 + s.pap.eseq.toNat), w32 (stsCrcFail * 2 ^ 24)] := by
  intro t
  let u := s.wr (F.DSP_RING_DIDX_DIDX n) (s.hidx n)
  let h : HeldReply := ⟨replyHead op (n = 1) false false true c stsCrcFail 0 0 [], false, false, false, n = 1, c⟩
  have away : (F.DSP_RING_DIDX_DIDX 2).addr ≠ (F.DSP_RING_DIDX_DIDX n).addr := by
    simp only [F.DSP_RING_DIDX_DIDX]
    omega
  have didx2 : u.didx 2 = s.didx 2 := State.rd_wr_ne _ _ away
  have hidx2 : u.hidx 2 = s.hidx 2 := State.rd_wr_ne _ _ (by simp only [F.DSP_RING_DIDX_DIDX, F.DSP_RING_HIDX_HIDX]; omega)
  have but : PapolBut papolReg (papolByte s) s u := PapolBut.wr _ _ _ (didx_papol (by omega))
  have room : u.ringSpace 2 4 = true := (ringSpace_congr (but.ringOn 2) didx2 hidx2 rfl 4).trans space
  have words := replyWords_head u op (n = 1) false false true c stsCrcFail 0 0 [] false false (n = 1) c
  have length : (u.replyWords h).length = 4 := replyWords_length u op (n = 1) false false true c stsCrcFail 0 0 [] false false (n = 1) c
  have fits : u.ringSpace 2 (u.replyWords h).length = true := by rw [length]; exact room
  have w := emit_written (s := u) (h := h) none fits
  have pap : (u.emit h).pap.exp0 = s.pap.exp0 ∧ (u.emit h).pap.exp1 = s.pap.exp1 := by
    have e := emit_noReplies u h
    have exp0 := congrArg Papol.exp0 e
    have exp1 := congrArg Papol.exp1 e
    exact ⟨exp0, exp1⟩
  have replies : (u.emit h).pap.replies = s.pap.replies := by
    unfold State.emit
    rw [show u.pap.held = [] from none, List.nil_append, flushHeld_space fits, wrote_unjournaled rfl rfl, ringPut_pap]
    rfl
  have emptied : u.didx n = s.hidx n := by
    refine (State.rd_wr_same s _ (didx_field n)).trans (Nat.mod_eq_of_lt ?_)
    exact bits_lt _ 0 17
  refine ⟨(w.other n (by omega)).trans emptied, pap.1, pap.2, replies, emit_papol h but, ?_, ?_⟩
  · have past := w.past
    rwa [didx2, length] at past
  · have stands := w.words
    rw [didx2, length, words] at stands
    rw [ringWords_take _ 2 3 4 _ (by omega)]
    refine (congrArg (List.take 3) stands).trans ?_
    have one : b2n (n = 1) = n := by
      rcases (by omega : n = 0 ∨ n = 1) with rfl | rfl <;> rfl
    simp only [one]
    simp [b2n, u, stsCrcFail]

/-- Settles O18. -/
theorem heldPacketsAndDiscardedRings : Obligations.HeldPacketsAndDiscardedRings := by
  refine ⟨fun s run => ⟨fun h held due space => replyWords_written run held due space, fun e space =>
    ⟨event_written run space, event_reposted run space⟩⟩, ?_⟩
  intro ring1 s ready busy n w0 w1 bad clean space
  have hn : n < 2 := by
    show b2n ring1 < 2
    cases ring1 <;> decide
  have none : s.pap.held = [] := by
    unfold State.papolReady at ready
    simp only [Bool.and_eq_true, List.isEmpty_iff] at ready
    exact ready.1.2
  have ran : exec (.ringResync ring1) s = .next (s.resync n (bits w0 20 12) (w1.extractLsb' 16 16)) := by
    show (if _ then _ else _) = _
    rw [if_pos ⟨ready, Nat.pos_of_ne_zero busy, bad⟩]
    exact if_neg (by rw [clean]; decide)
  have done := resync_written hn (bits w0 20 12) (w1.extractLsb' 16 16) none space
  rw [extract_bits] at done
  exact ⟨_, ran, done⟩

end Sys2Proof.Machine
end

section
/-!
# A command mends hidden parity: statements that do not hold as written

A command that writes a register with hidden parity mends the parity, and with the last mended register the CFGPAR record is no longer ACTIVE
(spec/03_register_access.md, R131, R135; spec/15_safety.md, R690). The statements below exclude registers in their CFGPAR safe state, but not
a register whose parity is out of step while its record stands, and they hold the fault records, or FAULT_N's registers, fixed. Each
refutation gives such a state and a command, and evaluates the model on them.
-/

namespace Sys2Proof.Machine

-- The kernel evaluates the counterexamples one after the other.
set_option Elab.async false

/-- The record of a CFGPAR whose cause persists. -/
def parityRecord : FaultRec :=
  { code := 0x701, df := 1, level := 2, active := true, latched := true, inj := false, fn := false, region := rgSafe, sub := 0, unit := 0,
    time := 0, occur := 1, recno := 1, detail := 0, react := 0 }

/-- The register at `a` has its hidden parity out of step, and the record of it is ACTIVE. -/
def State.flipped (s : State) (a : Nat) : State :=
  { s with link := { s.link with badParity := [a] }, saf := { s.saf with recs := [parityRecord] } }

/-- Whether each fault record is ACTIVE. -/
def State.activeRecs (s : State) : List Bool := s.saf.recs.map FaultRec.active

/-- Refutes O22: PORT_CFG writes IN_TDM1_FMT, whose parity is out of step. -/
theorem not_tdmPortsAreEnabledAndFindSync : ¬ Obligations.TdmPortsAreEnabledAndFindSync := by
  rintro ⟨ports, -⟩
  obtain ⟨cfg, -⟩ := ports (pkt play 0x110 [1, 0x81120000, 0x08000000, 0]) (play.flipped (Reg.IN_TDM_FMT 1)) 1 (by decide +kernel) rfl
    (domUp_of (by decide +kernel))
  obtain ⟨-, -, -, -, -, -, rest⟩ := next_holds (cfg (accepted_pkt rfl (by decide +kernel)) (by decide +kernel) (by decide +kernel)
    (by decide +kernel) (by decide +kernel) (by decide +kernel) (by decide +kernel)) rfl
  exact absurd (congrArg State.activeRecs rest) (by decide +kernel)

/-- Refutes O32: SPK_GROUP_CFG writes OUT_G1_CFG, whose parity is out of step. -/
theorem not_speakerConfigurationIsWritten : ¬ Obligations.SpeakerConfigurationIsWritten := by
  intro h
  obtain ⟨group, -⟩ := h (pkt play 0x300 [1, play.reg (Reg.OUT_G_CFG 1), 0x82200000, 0]) (play.flipped (Reg.OUT_G_CFG 1)) 1 0 rfl
  obtain ⟨same, -⟩ := group (accepted_pkt rfl (by decide +kernel)) (by decide +kernel) (by decide +kernel) (by decide +kernel)
    (by decide +kernel) (by decide +kernel) (by decide +kernel) (by decide +kernel) (by decide +kernel) (by decide +kernel)
    (domUp_of (by decide +kernel))
  obtain ⟨-, -, -, -, -, rest⟩ := next_holds (same (by decide +kernel) (by decide +kernel) (by decide +kernel)) rfl
  exact absurd (congrArg State.activeRecs rest) (by decide +kernel)

/-- Channel 11 in Fault hold for a short, the parity of its control register out of step. -/
def shortHeld : State := (play.ph 11 phFault fun x => { x with why := 0x301 }).flipped (Reg.OUT_SPK_CTRL 11)

/-- Refutes O33: SPK_RETRY writes RETRY into OUT_SPK_CTRL of channel 11, whose parity is out of step. -/
theorem not_channelsStartStopRetryAndMute : ¬ Obligations.ChannelsStartStopRetryAndMute := by
  rintro ⟨commands, -⟩
  obtain ⟨-, -, retry, -⟩ := commands (pkt play 0x305 [0x800]) shortHeld 11 .host (quiet_of (by decide +kernel)) rfl
  obtain ⟨-, forbid⟩ := retry (accepted_pkt rfl (by decide +kernel)) (by decide +kernel) (by decide +kernel) (by decide +kernel)
    (by decide +kernel) (newKey_of (by decide +kernel))
  obtain ⟨-, -, -, -, rest⟩ := next_holds (forbid (by decide +kernel) (by decide +kernel)) rfl
  exact absurd (congrArg State.activeRecs rest) (by decide +kernel)

/-- Refutes O38: HPLINE_CFG writes OUT_HPL_CFG, whose parity is out of step. -/
theorem not_headphoneAndLineOutputsFollowTheirPhases : ¬ Obligations.HeadphoneAndLineOutputsFollowTheirPhases := by
  intro h
  obtain ⟨-, -, -, -, -, cfg⟩ := h (pkt play 0x310 [0x3004D, 0, 3]) (play.flipped Reg.OUT_HPL_CFG) false
  obtain ⟨same, -⟩ := cfg (accepted_pkt rfl (by decide +kernel)) rfl (by decide +kernel) (domUp_of (by decide +kernel))
    (newKey_of (by decide +kernel)) (by decide +kernel) (free_of (by decide +kernel))
  obtain ⟨-, -, -, rest⟩ := next_holds (same (by decide +kernel) (by decide +kernel)) rfl
  exact absurd (congrArg State.activeRecs rest) (by decide +kernel)

/-- Refutes O39: CV_CFG writes OUT_CV3_CFG, whose parity is out of step. -/
theorem not_cvChannelsFollowCodeAndClear : ¬ Obligations.CvChannelsFollowCodeAndClear := by
  intro h
  obtain ⟨cfg, -⟩ := h (pkt play 0x320 [8, 0x4000FFFF, 0xFFF, 7]) (play.flipped (Reg.OUT_CV_CFG 3)) 3 rfl (by decide +kernel)
  obtain ⟨-, -, -, -, -, -, rest⟩ := next_holds (cfg (accepted_pkt rfl (by decide +kernel)) (by decide +kernel) (by decide +kernel)
    (by decide +kernel) (domUp_of (by decide +kernel))) rfl
  exact absurd (congrArg State.activeRecs rest) (by decide +kernel)

/-- SWPLL off in IDLE, the parity of its shadow frequency out of step. -/
def swpllOff : State := ((play.wrs [(F.OUT_SW_STAT_SWON, 0), (F.OUT_SW_STAT_LOCK, 0)]).at4 stIdle).flipped Reg.OUT_SW_FREQ

/-- Refutes O41: PLL_CFG that powers SWPLL up writes OUT_SW_FREQ, whose parity is out of step. -/
theorem not_clockCommandsConfigure : ¬ Obligations.ClockCommandsConfigure := by
  intro h
  obtain ⟨pll, -⟩ := h (pkt play 0x500 [w32 (play.rd F.CTL_CLK_STAT_AUDFAM), 0, 0, 1]) swpllOff rfl (by decide +kernel)
  obtain ⟨-, -, on⟩ := pll (accepted_pkt rfl (by decide +kernel)) (by decide +kernel) (newKey_of (by decide +kernel)) (by decide +kernel)
    (free_of (by decide +kernel))
  obtain ⟨-, -, -, -, -, -, -, -, -, rest⟩ := next_holds (on (by decide +kernel) (by decide +kernel) (by decide +kernel) (by decide +kernel)
    (by decide +kernel)) rfl
  exact absurd (congrArg State.activeRecs rest) (by decide +kernel)

/-- Refutes O42: SWPLL_SET writes OUT_SW_FREQ, whose parity is out of step. -/
theorem not_swpllMovesThroughTheShadowSet : ¬ Obligations.SwpllMovesThroughTheShadowSet := by
  intro h
  obtain ⟨set, -⟩ := h (pkt play 0x501 [0, 0, 1000 * 0x10000]) (play.flipped Reg.OUT_SW_FREQ) .host rfl (by decide +kernel)
  obtain ⟨-, given⟩ := set (accepted_pkt rfl (by decide +kernel)) (by decide +kernel) (by decide +kernel)
  obtain ⟨-, -, -, -, -, -, -, -, -, rest⟩ := next_holds (given (by decide +kernel) (by decide +kernel) (by decide +kernel)
    (by decide +kernel) (by decide +kernel) (by decide +kernel) (by decide +kernel)) rfl
  exact absurd (congrArg State.activeRecs rest) (by decide +kernel)

/-- Refutes O44: MICBIAS_CFG writes IN_MICB_CFG, whose parity is out of step. -/
theorem not_inputFrontEndsAreConfigured : ¬ Obligations.InputFrontEndsAreConfigured := by
  intro h
  obtain ⟨-, -, bias, -⟩ := h (pkt play 0x401 [0x808]) (play.flipped Reg.IN_MICB_CFG) 0 0 rfl
  obtain ⟨-, -, -, -, -, rest⟩ := next_holds (bias (accepted_pkt rfl (by decide +kernel)) (by decide +kernel) (by decide +kernel)
    (by decide +kernel)) rfl
  exact absurd (congrArg State.activeRecs rest) (by decide +kernel)

/-- Refutes O45: DECIM_CFG writes IN_PDM_MIC, whose parity is out of step. -/
theorem not_tapStoresFramesAndZeroises : ¬ Obligations.TapStoresFramesAndZeroises := by
  intro h
  obtain ⟨cfg, -⟩ := h (pkt play 0x403 [0x800, 0xFF01000]) (play.flipped Reg.IN_PDM_MIC) [] 0 0 rfl
  obtain ⟨-, -, -, -, -, -, -, -, -, -, -, rest⟩ := next_holds (cfg (accepted_pkt rfl (by decide +kernel)) (by decide +kernel)
    (by decide +kernel) (by decide +kernel) (by decide +kernel) (by decide +kernel) (by decide +kernel) (by decide +kernel)
    (domUp_of (by decide +kernel)) (domUp_of (by decide +kernel))) rfl
  exact absurd (congrArg State.activeRecs rest) (by decide +kernel)

/-- Refutes O53: WAKE_CFG writes PWR_WAKECFG, whose parity is out of step. -/
theorem not_wakeSourcesLatchAndDeviceWakes : ¬ Obligations.WakeSourcesLatchAndDeviceWakes := by
  intro h
  obtain ⟨-, -, -, -, -, cfg⟩ := h (pkt play 0x604 [0x77000000, 0x55555555]) (play.flipped Reg.PWR_WAKECFG) false 0 rfl
  obtain ⟨-, -, -, -, rest⟩ := next_holds (cfg (accepted_pkt rfl (by decide +kernel)) (by decide +kernel) (by decide +kernel)
    (by decide +kernel)) rfl
  exact absurd (congrArg State.activeRecs rest) (by decide +kernel)

/-- Refutes O54: POWER_PERMIT writes PWR_PERMIT, whose parity is out of step. -/
theorem not_domainsArePoweredOnAndOff : ¬ Obligations.DomainsArePoweredOnAndOff := by
  intro h
  obtain ⟨permit, -⟩ := h (pkt play 0x601 [0x3FFFFFF]) (play.flipped Reg.PWR_PERMIT) .host 0 rfl
  obtain ⟨-, -, -, rest⟩ := next_holds (permit (accepted_pkt rfl (by decide +kernel)) (by decide +kernel)) rfl
  exact absurd (congrArg State.activeRecs rest) (by decide +kernel)

end Sys2Proof.Machine
end

section
/-!
# Statements that fail in a state they do not exclude

Each refutation gives a state that the statement's hypotheses allow, such as one whose fault records are full or whose AUD clock stands
still, and evaluates the model on it.
-/

namespace Sys2Proof.Machine

-- The kernel evaluates the counterexamples one after the other.
set_option Elab.async false

/-- Bank 0 without a free spare row, its row 5 with a live 0x205 record that is the oldest of 32 live records. -/
def fullRecords : State :=
  (play.mBanks fun b => { b with failed := (List.range 8).map fun k => (0, k) }).mSaf fun q =>
    { q with recs := { parityRecord with code := 0x205, sub := 5 } ::
        (List.range 31).map fun i => { parityRecord with code := 0x300, unit := i, recno := i + 2 } }

/-- Refutes O29: an uncorrectable word of bank 0 whose record is the oldest of 32, with no spare row left. The BANKRET recorded behind it
drops that record. -/
theorem not_bankErrorsSparesAndRetirement : ¬ Obligations.BankErrorsSparesAndRetirement := by
  intro h
  obtain ⟨-, -, read, -⟩ := h fullRecords 0 5 0 0 (by decide +kernel)
  obtain ⟨-, unc⟩ := read (by decide +kernel)
  obtain ⟨-, -, kept, -⟩ := next_holds unc rfl
  exact absurd kept (by decide +kernel)

/-- The device in PLAY with AUDPLL neither locked nor coasting, the guard lock open. -/
def audStopped : State := (play.clr F.CTL_CLK_STAT_AUDLOCK).lk

/-- Refutes O36: a write of OUT_G2_XPT.UPDATE stays posted while the AUD clock stands still (spec/03_register_access.md, R120). -/
theorem not_legsAreDroppedRegrownAndMoved : ¬ Obligations.LegsAreDroppedRegrownAndMoved := by
  intro h
  obtain ⟨-, -, -, -, -, update, -⟩ := h audStopped 0 false 2 .host (still_of (by decide +kernel))
  obtain ⟨set, -⟩ := next_holds (update (by decide +kernel) (by decide +kernel) (by decide +kernel) rfl rfl (by decide +kernel)) rfl
  exact absurd set (by decide +kernel)

/-- An online AC test under way on a channel in Play, while croaker slot 7 reaches the channel with two passes left. -/
def croakedTest : State :=
  (((play.modSlot 7 fun c => { c with kind := 1, mask := 1, active := true, left := 2 }).ph 0 phPlay).mDiag fun d =>
    { d with ac := some ⟨0, true, false, 1, (0, 0), (0, 0), [], 0, false, 0, 0, 0, 0⟩ })

/-- Whether a window of the AC test is spoilt. -/
def State.acSpoilt (s : State) : Option Bool := s.diag.ac.map AcTest.spoilt

/-- Refutes O37: a pass of the slot spoils the window of the AC test on the channel that it reaches (spec/10_load_jack_diagnostics.md,
R492), which the statement takes to stay as it is. -/
theorem not_croakerSlotsAreConfiguredAndPlayed : ¬ Obligations.CroakerSlotsAreConfiguredAndPlayed := by
  intro h
  obtain ⟨-, -, -, -, pass⟩ := h (pkt play 0x331 [0x10700]) croakedTest 0 7 (by decide +kernel) (by decide +kernel)
  obtain ⟨goesOn, -⟩ := pass (by decide +kernel)
  obtain ⟨-, -, -, -, -, -, rest⟩ := next_holds (goesOn (by decide +kernel)) rfl
  exact absurd (congrArg State.acSpoilt rest) (by decide +kernel)

/-- The device in LISTEN, its SYS clock running and the reference in range. -/
def listens : State := play.at4 stListen

/-- Refutes O40: the loss of the reference lets SYSPLL coast in LISTEN, and the EVT_PLL of that runs SYS, which shows it locked
(spec/04_command_protocol.md, R161). -/
theorem not_pllsLockCoastAndSyncSlaveAligns : ¬ Obligations.PllsLockCoastAndSyncSlaveAligns := by
  rintro ⟨plls, -⟩
  obtain ⟨-, -, lost, -⟩ := plls listens 0 (quiet_of (by decide +kernel))
  obtain ⟨-, -, -, -, coasts⟩ := next_holds (lost (by decide +kernel)) rfl
  obtain ⟨-, unlocked, -⟩ := coasts 0 (by decide) (by decide +kernel) (by decide +kernel)
  exact absurd unlocked (by decide +kernel)

end Sys2Proof.Machine
end

section
/-!
# Safety statements that fail in a state they do not exclude

The safety commands leave the load tests out of their hypotheses, and the detectors the length of the list of fault records.
-/

namespace Sys2Proof.Machine

-- The kernel evaluates the counterexamples one after the other.
set_option Elab.async false

/-- An online AC test under way on channel 0, which is Off. -/
def testedOff : State :=
  (play.at4 3).mDiag fun d => { d with ac := some ⟨0, true, false, 1, (0, 0), (0, 0), [], 0, false, 0, 0, 0, 0⟩ }

/-- Refutes O49: SAFETY_CFG evaluates the croaker triggers, which spoils the window of an AC test under way (spec/10_load_jack_diagnostics.md,
R492); the statement takes the diagnostics to stay as they are. -/
theorem not_safetyCommandsComplete : ¬ Obligations.SafetyCommandsComplete := by
  intro h
  obtain ⟨cfg, -⟩ := h (pkt (play.at4 3) 0x700 [0xFFFFFFFF, 0xFFFFFFFF, 24, 0xB00B] true) testedOff rfl (by decide +kernel)
    (by decide +kernel)
  obtain ⟨-, -, -, -, -, -, -, rest⟩ := next_holds (cfg (accepted_auth [1, 2] rfl rfl rfl (by decide +kernel)) (by decide +kernel)
    (by decide +kernel) (by decide +kernel) (by decide +kernel) (by decide +kernel) (by decide +kernel)) rfl
  exact absurd (congrArg State.acSpoilt rest) (by decide +kernel)

/-- 32 live records, the oldest that of SYSPLL's clock, and a window in which SYSPLL and AUDPLL failed. -/
def clocksFailed : State :=
  play.mSaf fun q =>
    { q with clkPrev := 3, recs := { parityRecord with code := 0x505 } ::
        (List.range 31).map fun i => { parityRecord with code := 0x300, unit := i, recno := i + 2 } }

/-- Refutes O51: SYSPLL and AUDPLL fail a second window in a row; the record of AUDPLL takes the place of SYSPLL's, the oldest of 32
(spec/15_safety.md, R689). -/
theorem not_detectorsRecordWhatTheyFind : ¬ Obligations.DetectorsRecordWhatTheyFind := by
  intro h
  obtain ⟨-, -, -, -, -, -, -, -, clocks, -⟩ := h clocksFailed 0 false (still_of (by decide +kernel)) (by decide +kernel)
    (by decide +kernel)
  obtain ⟨mon, -⟩ := clocks (by decide +kernel) (by decide +kernel) 6291 0 0 0 0
  obtain ⟨-, -, recorded⟩ := next_holds mon rfl
  obtain ⟨r, mem, code, unit⟩ := recorded 0 (by decide) (by decide +kernel) (by decide +kernel)
  revert r
  decide +kernel

end Sys2Proof.Machine
end

section
/-!
# A power transition among pending commands that share a slot

The statement of the power transitions admits two pending commands in one slot; the end of the one then removes the other.
-/

namespace Sys2Proof.Machine

-- The kernel evaluates the counterexamples one after the other.
set_option Elab.async false

/-- IDLE on its way to LISTEN, with a GRAPH_LOAD and the POWER_STATE both pending in slot 0. -/
def sharedSlot : State :=
  let s := ((((play.at4 stIdle).wrs [(F.PWR_STATE_TRANS, 1), (F.PWR_STATE_TARGET, stListen), (F.PWR_STATE_PHASE, 1)]).pnd
    { pend 0x200 [] [] with cseq := 6 }).pnd (pend 0x600 [stListen] [.power]))
  { s with pap := { s.pap with replies := [⟨0x600, false, 7, 0, stsPending, 0, 0, []⟩] } }

/-- Refutes O52: GRAPH_LOAD ends with the step to LISTEN and frees slot 0, so that the POWER_STATE in the same slot never ends. -/
theorem not_powerTransitionsGoStepByStep : ¬ Obligations.PowerTransitionsGoStepByStep := by
  intro h
  obtain ⟨-, steps, -⟩ := h (pkt play 0x600 [4]) sharedSlot
  obtain ⟨-, arrives, -⟩ := steps (by decide +kernel) (by decide +kernel) (by decide +kernel)
  obtain ⟨-, -, -, status, -⟩ := next_holds (arrives (pend 0x600 [stListen] [.power]) (by decide +kernel) (by decide +kernel)
    (by decide +kernel) (by decide +kernel)) rfl
  exact absurd (status ⟨0x600, false, 7, 0, stsPending, 0, 0, []⟩ (by decide +kernel)) (by decide)

end Sys2Proof.Machine
end

section
/-!
# Command cards, pending commands and what their end changes

What an accepted command leaves is what its card leaves, but for Papol's own state (`answers_of_done`, `awaits_of_pend`); a pending
command that finishes frees its slot, and its journal entry takes the status (`finish_ended`).
-/

namespace Sys2Proof.Machine

-- One theorem after the other: in one text, theorems that wait for the kernel would each hold a thread.
set_option Elab.async false

section
variable {i : Instr} {c : CmdSpec} {p : Packet} {s s1 : State} {body : State → Res} {P : State → Prop}

/-- A command whose card is done is answered so. -/
theorem answers_of_done {st d : Nat} {ws : List Word} {cl : List Clamp} (run : exec i s = s.card c p body) (acc : Accepted c p s)
    (done : body (s.admitted c p) = .done st d ws cl s1) (holds : ∀ t, PapolBut papolReg (papolByte s1) s1 t → P t) :
    Answers i c p s st d ws P := by
  obtain ⟨t, next, replied, but⟩ := card_done acc done
  exact ⟨t, run.trans next, replied, holds t but⟩

/-- A command that its card refuses is answered so. -/
theorem answers_of_refuse {st d : Nat} (run : exec i s = s.card c p body) (acc : Accepted c p s)
    (refused : body (s.admitted c p) = .refuse st d) (holds : ∀ t, PapolBut papolReg (papolByte s) s t → P t) :
    Answers i c p s st d [] P := by
  obtain ⟨t, next, replied, but⟩ := card_refuse acc refused
  exact ⟨t, run.trans next, replied, holds t but⟩

/-- A command that its card leaves pending is answered with ST_PENDING. -/
theorem awaits_of_pend {ws : List Word} {ts : List Target} (run : exec i s = s.card c p body) (acc : Accepted c p s)
    (pends : body (s.admitted c p) = .pend ws ts s1) (slot : s1.freeSlot? ≠ none)
    (holds : ∀ t, PapolBut papolReg (papolByte s1) s1 t → P t) : Awaits i c p s ws ts P := by
  obtain ⟨t, next, pending, but⟩ := card_pend acc pends slot
  exact ⟨t, run.trans next, pending, holds t but⟩

/-- A card that reads the state alone leaves nothing behind but Papol's own state. -/
theorem answers_unchanged {st d : Nat} {ws : List Word} {cl : List Clamp} (run : exec i s = s.card c p body) (acc : Accepted c p s)
    (done : body (s.admitted c p) = .done st d ws cl (s.admitted c p)) :
    Answers i c p s st d ws (PapolBut papolReg (papolByte s) s) :=
  answers_of_done run acc done fun _ k => (Frame.papol (Frame.admitted id s c p) k).papolBut

/-- So does one that is left pending without a further effect. -/
theorem awaits_unchanged {ws : List Word} {ts : List Target} (run : exec i s = s.card c p body) (acc : Accepted c p s)
    (pends : body (s.admitted c p) = .pend ws ts (s.admitted c p)) (free : Free s ts) :
    Awaits i c p s ws ts (PapolBut papolReg (papolByte s) s) :=
  awaits_of_pend run acc pends (admitted_free free).2 fun _ k => (Frame.papol (Frame.admitted id s c p) k).papolBut

end

theorem Answers.imp {i : Instr} {c : CmdSpec} {p : Packet} {s : State} {st d : Nat} {ws : List Word} {P Q : State → Prop}
    (h : Answers i c p s st d ws P) (k : ∀ t, P t → Q t) : Answers i c p s st d ws Q := by
  obtain ⟨t, next, replied, holds⟩ := h
  exact ⟨t, next, replied, k t holds⟩

theorem Awaits.imp {i : Instr} {c : CmdSpec} {p : Packet} {s : State} {ws : List Word} {ts : List Target} {P Q : State → Prop}
    (h : Awaits i c p s ws ts P) (k : ∀ t, P t → Q t) : Awaits i c p s ws ts Q := by
  obtain ⟨t, next, pending, holds⟩ := h
  exact ⟨t, next, pending, k t holds⟩

/-- What Papol does of its own touches no register that a statement names. -/
theorem PapolBut.untouched {s t : State} (h : PapolBut papolReg (papolByte s) s t) : Touches [] s t ∧ s.over t = s :=
  ⟨⟨h.regs.mono fun _ => .inl, h.bytes⟩, h.rest⟩

theorem unlessBusy_free {s : State} {ts : List Target} {k : Res} (h : Free s ts) : s.unlessBusy ts k = k := by
  unfold State.unlessBusy; rw [h.1]

/-! ## The end of a pending command -/

/-- An operation that leaves the commands alone: pending list, journal and Papol's run. -/
theorem PapolKept.refl (s : State) : PapolKept s s := ⟨rfl, rfl, rfl⟩

theorem PapolKept.of_pap {s t : State} (h : t.pap = s.pap) : PapolKept s t := by unfold PapolKept; rw [h]; exact ⟨rfl, rfl, rfl⟩

theorem sysRun_pap (s : State) : s.sysRun.pap = s.pap := by unfold State.sysRun; split <;> rfl

theorem postDone_slots (s : State) (e : PendEntry) (st d : Nat) (ws : List Word) (cl : List Clamp) (time : Word64) :
    (s.postDone e st d ws cl time).pap.slots = s.pap.slots.filter fun f => f.slot ≠ e.slot := by
  unfold State.postDone
  dsimp only
  rw [(raiseClamps_papol _ _ _).2.2.1, (issueAt_papol _ _ _ _ _).2.2.1, (countCfg_papol _ _ _).2.2.1]
  rfl

theorem postDone_replies (s : State) (e : PendEntry) (st d : Nat) (ws : List Word) (cl : List Clamp) (time : Word64) :
    (s.postDone e st d ws cl time).pap.replies =
      updReply e.ring1 e.cseq (fun r => { r with status := st, detail := d }) s.pap.replies := by
  unfold State.postDone
  dsimp only
  rw [(raiseClamps_papol _ _ _).2.1, (issueAt_papol _ _ _ _ _).2.1, (countCfg_papol _ _ _).2.1]
  rfl

theorem postDone_run (s : State) (e : PendEntry) (st d : Nat) (ws : List Word) (cl : List Clamp) (time : Word64) :
    (s.postDone e st d ws cl time).pap.run = s.pap.run := by
  unfold State.postDone
  dsimp only
  rw [(raiseClamps_papol _ _ _).2.2.2, (issueAt_papol _ _ _ _ _).2.2.2, (countCfg_papol _ _ _).2.2.2]
  rfl

/-- The key of a journal entry. -/
def ReplyEntry.isFor (ring1 : Bool) (cseq : BitVec 16) (e : ReplyEntry) : Bool := e.ring1 = ring1 && e.cseq = cseq

/-- The newest entry of a key is the one that `updReply` changes. -/
theorem updReply_newest {r : Bool} {c : BitVec 16} {f : ReplyEntry → ReplyEntry} (key : ∀ e, (f e).isFor r c = e.isFor r c) :
    ∀ l : List ReplyEntry, (updReply r c f l).reverse.find? (ReplyEntry.isFor r c) = (l.reverse.find? (ReplyEntry.isFor r c)).map f
  | [] => rfl
  | e :: rest => by
    have more := updReply_newest (f := f) key rest
    have later : rest.any (ReplyEntry.isFor r c) = (rest.reverse.find? (ReplyEntry.isFor r c)).isSome := by
      rw [Bool.eq_iff_iff, List.find?_isSome]
      simp
    unfold updReply
    split
    · rename_i h
      obtain ⟨ring, seq, last⟩ := h
      have none : rest.reverse.find? (ReplyEntry.isFor r c) = none := by
        rw [← Option.not_isSome_iff_eq_none, ← later]; exact last
      have own : e.isFor r c = true := by simp [ReplyEntry.isFor, ring, seq]
      simp [List.find?_append, none, key, own]
    · rename_i h
      rw [List.reverse_cons, List.reverse_cons, List.find?_append, List.find?_append, more]
      cases found : rest.reverse.find? (ReplyEntry.isFor r c) with
      | some x => rfl
      | none =>
        have last : rest.any (ReplyEntry.isFor r c) = false := by rw [later, found]; rfl
        have other : e.isFor r c = false := by
          rw [Bool.eq_false_iff]
          intro own
          simp only [ReplyEntry.isFor, Bool.and_eq_true, decide_eq_true_eq] at own
          refine h ⟨own.1, own.2, ?_⟩
          rw [show (fun r_1 : ReplyEntry => decide (r_1.ring1 = r) && decide (r_1.cseq = c)) = ReplyEntry.isFor r c from rfl, last]
          decide
        simp [other]

theorem replyFor_eq (s : State) (r : Bool) (c : BitVec 16) : s.replyFor? r c = s.pap.replies.reverse.find? (ReplyEntry.isFor r c) := rfl

theorem finish_running {s : State} (run : s.pap.run = .running) (e : PendEntry) (st d : Nat) (ws : List Word) (cl : List Clamp) :
    s.finish e st d ws cl = s.sysRun.postDone e st (if st = stsStateBusy then s.rd F.PWR_STATE_TARGET else d) ws cl (BitVec.ofNat 64 s.now) := by
  unfold State.finish State.finishWith
  dsimp only
  rw [if_pos run]
  rfl

theorem finish_slots {s : State} (run : s.pap.run = .running) (e : PendEntry) (st d : Nat) (ws : List Word) (cl : List Clamp) :
    (s.finish e st d ws cl).pap.slots = s.pap.slots.filter fun f => f.slot ≠ e.slot := by
  rw [finish_running run, postDone_slots, sysRun_pap]

theorem finish_replies {s : State} (run : s.pap.run = .running) (e : PendEntry) (st d : Nat) (ws : List Word) (cl : List Clamp) :
    (s.finish e st d ws cl).pap.replies = updReply e.ring1 e.cseq
      (fun r => { r with status := st, detail := if st = stsStateBusy then s.rd F.PWR_STATE_TARGET else d }) s.pap.replies := by
  rw [finish_running run, postDone_replies, sysRun_pap]

theorem finish_run (s : State) (e : PendEntry) (st d : Nat) (ws : List Word) (cl : List Clamp) :
    (s.finish e st d ws cl).pap.run = s.pap.run := by
  by_cases run : s.pap.run = .running
  · rw [finish_running run, postDone_run, sysRun_pap]
  · unfold State.finish State.finishWith
    dsimp only
    rw [if_neg run]

/-- The journal entry of a command that has finished tells its status. -/
theorem finish_status {s : State} (run : s.pap.run = .running) (e : PendEntry) (st d : Nat) (ws : List Word) (cl : List Clamp)
    {r : ReplyEntry} (h : (s.finish e st d ws cl).replyFor? e.ring1 e.cseq = some r) : r.status = st := by
  rw [replyFor_eq, finish_replies run, updReply_newest] at h
  · obtain ⟨x, -, rfl⟩ := Option.map_eq_some_iff.1 h
    rfl
  · exact fun _ => rfl

/-- A pending command that finishes has ended, whatever was done before without touching the commands. -/
theorem finish_ended {s u : State} (kept : PapolKept s u) (e : PendEntry) (st d : Nat) (ws : List Word) (cl : List Clamp) :
    Ended (some e) st s (u.finish e st d ws cl) := by
  obtain ⟨-, slots, state⟩ := kept
  intro run
  rw [← state] at run
  exact ⟨by rw [finish_slots run, slots], fun r h => finish_status run e st d ws cl h⟩

/-- What follows without touching the commands leaves it ended. -/
theorem Ended.kept {e? : Option PendEntry} {st : Nat} {s t u : State} (h : Ended e? st s t) (k : PapolKept t u) : Ended e? st s u := by
  obtain ⟨replies, slots, -⟩ := k
  intro run
  have ended := h run
  cases e? with
  | none => exact slots.trans ended
  | some e =>
    refine ⟨slots.trans ended.1, fun r found => ended.2 r ?_⟩
    rw [← found, replyFor_eq, replyFor_eq, replies]

/-! ## Fields -/

/-- Whether a write of field `f` leaves field `g` alone. -/
def Field.apart (f g : Field) : Bool :=
  decide (g.addr ≠ f.addr ∨ (f.lo + f.width ≤ 32 ∧ (g.lo + g.width ≤ f.lo ∨ f.lo + f.width ≤ g.lo)))

section
variable (s : State) {f g : Field}

theorem State.rd_wr_off (v : Nat) (h : Field.apart f g = true := by decide) : (s.wr f v).rd g = s.rd g := by
  rcases of_decide_eq_true h with addr | ⟨width, bits⟩
  · exact s.rd_wr_ne v addr
  · exact s.rd_wr_apart v width (.inr bits)

theorem State.on_wr_off (v : Nat) (h : Field.apart f g = true := by decide) : (s.wr f v).on g = s.on g := by
  unfold State.on; rw [s.rd_wr_off v h]

theorem State.rd_set1_off (h : Field.apart f g = true := by decide) : (s.set1 f).rd g = s.rd g := s.rd_wr_off 1 h

theorem State.on_set1_off (h : Field.apart f g = true := by decide) : (s.set1 f).on g = s.on g := s.on_wr_off 1 h

theorem State.rd_clr_off (h : Field.apart f g = true := by decide) : (s.clr f).rd g = s.rd g := s.rd_wr_off 0 h

theorem State.on_clr_off (h : Field.apart f g = true := by decide) : (s.clr f).on g = s.on g := s.on_wr_off 0 h

theorem State.on_set1_same (h : f.lo + f.width ≤ 32 ∧ 0 < f.width := by decide) : (s.set1 f).on f = true := by
  unfold State.on State.set1
  rw [State.rd_wr_same s 1 h.1, Nat.mod_eq_of_lt (Nat.one_lt_two_pow (by omega))]
  rfl

theorem State.on_clr_same (h : f.lo + f.width ≤ 32 := by decide) : (s.clr f).on f = false := by
  unfold State.on State.clr
  rw [State.rd_wr_same s 0 h, Nat.zero_mod]
  rfl

theorem State.rd_lt (g : Field) : s.rd g < 2 ^ g.width := bits_lt _ _ _

/-- A field holds what is written to it as far as it is wide. -/
theorem State.rd_wr_fits {v : Nat} (width : f.lo + f.width ≤ 32) (h : v < 2 ^ f.width) : (s.wr f v).rd f = v := by
  rw [State.rd_wr_same s v width, Nat.mod_eq_of_lt h]

theorem State.rd_sat_same (n : Nat) (h : f.lo + f.width ≤ 32) : (s.sat f n).rd f = min (2 ^ f.width - 1) (s.rd f + n) := by
  unfold State.sat
  rw [State.rd_wr_fits s h]
  · exact Nat.min_comm _ _
  · have := Nat.two_pow_pos f.width
    omega

theorem State.rd_sat_off (n : Nat) (h : Field.apart f g = true := by decide) : (s.sat f n).rd g = s.rd g := s.rd_wr_off _ h

theorem State.on_sat_off (n : Nat) (h : Field.apart f g = true := by decide) : (s.sat f n).on g = s.on g := s.on_wr_off _ h

end

/-! ## What a command card reads -/

/-- A register that Papol and a start of SYS leave alone. -/
def steady (a : Nat) : Bool :=
  decide (a ≠ Reg.CTL_SEC_CNT ∧ a ≠ Reg.CTL_CLK_STAT ∧ (a < 0x100400 ∨ 0x100440 ≤ a ∨ a % 0x10 < 0x8))

theorem of_steady {a : Nat} (h : steady a = true) : ¬ papolReg a ∧ a ≠ Reg.CTL_CLK_STAT := by
  obtain ⟨counter, clock, ring⟩ := of_decide_eq_true h
  exact ⟨not_papolReg counter ring, clock⟩

section
variable (s : State) (c : CmdSpec) (p : Packet)

theorem rd_card {f : Field} (h : steady f.addr = true := by decide) : (s.admitted c p).rd f = s.rd f := by
  obtain ⟨papol, clock⟩ := of_steady h
  exact rd_admitted papol clock

theorem on_card {f : Field} (h : steady f.addr = true := by decide) : (s.admitted c p).on f = s.on f := by
  unfold State.on; rw [rd_card s c p h]

theorem reg_card {a : Nat} (h : steady a = true := by decide) : (s.admitted c p).reg a = s.reg a := by
  obtain ⟨papol, clock⟩ := of_steady h
  exact (admitted_papol s c p).regs.reg papol clock

theorem PapolBut.rd_steady {s t : State} {q : Nat → Prop} (h : PapolBut papolReg q s t) {f : Field}
    (k : steady f.addr = true := by decide) : t.rd f = s.rd f := by
  obtain ⟨papol, clock⟩ := of_steady k
  exact h.rd papol clock

theorem Frame.reg_steady {m : Parts} {R : Nat → Prop} {s t : State} (h : Frame m R s t) {a : Nat} (away : ¬ R a)
    (k : steady a = true := by decide) : t.reg a = s.reg a := by
  obtain ⟨papol, clock⟩ := of_steady k
  exact h.reg papol away clock

theorem Frame.rd_steady {m : Parts} {R : Nat → Prop} {s t : State} (h : Frame m R s t) {f : Field} (away : ¬ R f.addr)
    (k : steady f.addr = true := by decide) : t.rd f = s.rd f := by
  obtain ⟨papol, clock⟩ := of_steady k
  exact h.rd papol away clock

theorem Frame.on_steady {m : Parts} {R : Nat → Prop} {s t : State} (h : Frame m R s t) {f : Field} (away : ¬ R f.addr)
    (k : steady f.addr = true := by decide) : t.on f = s.on f := by
  unfold State.on; rw [h.rd_steady away k]

theorem PapolBut.on_steady {s t : State} {q : Nat → Prop} (h : PapolBut papolReg q s t) {f : Field}
    (k : steady f.addr = true := by decide) : t.on f = s.on f := by
  unfold State.on; rw [h.rd_steady k]

@[simp] theorem admitted_link : (s.admitted c p).link = s.link := (Frame.admitted (R := fun _ => False) (m := {}) id s c p).link
@[simp] theorem admitted_strs : (s.admitted c p).strs = s.strs := (Frame.admitted (R := fun _ => False) (m := {}) id s c p).strs
@[simp] theorem admitted_graph : (s.admitted c p).graph = s.graph := (Frame.admitted (R := fun _ => False) (m := {}) id s c p).graph
@[simp] theorem admitted_banks : (s.admitted c p).banks = s.banks := (Frame.admitted (R := fun _ => False) (m := {}) id s c p).banks
@[simp] theorem admitted_groups : (s.admitted c p).groups = s.groups := (Frame.admitted (R := fun _ => False) (m := {}) id s c p).groups
@[simp] theorem admitted_clk : (s.admitted c p).clk = s.clk := (Frame.admitted (R := fun _ => False) (m := {}) id s c p).clk
@[simp] theorem admitted_diag : (s.admitted c p).diag = s.diag := (Frame.admitted (R := fun _ => False) (m := {}) id s c p).diag
@[simp] theorem admitted_wkd : (s.admitted c p).wkd = s.wkd := (Frame.admitted (R := fun _ => False) (m := {}) id s c p).wkd
@[simp] theorem admitted_tad : (s.admitted c p).tad = s.tad := (Frame.admitted (R := fun _ => False) (m := {}) id s c p).tad
@[simp] theorem admitted_madc : (s.admitted c p).madc = s.madc := (Frame.admitted (R := fun _ => False) (m := {}) id s c p).madc
@[simp] theorem admitted_pwr : (s.admitted c p).pwr = s.pwr := (Frame.admitted (R := fun _ => False) (m := {}) id s c p).pwr
@[simp] theorem admitted_saf : (s.admitted c p).saf = s.saf := (Frame.admitted (R := fun _ => False) (m := {}) id s c p).saf
@[simp] theorem admitted_sec : (s.admitted c p).sec = s.sec := (Frame.admitted (R := fun _ => False) (m := {}) id s c p).sec
@[simp] theorem admitted_age : (s.admitted c p).age = s.age := (Frame.admitted (R := fun _ => False) (m := {}) id s c p).age
@[simp] theorem admitted_draw : (s.admitted c p).draw = s.draw := (Frame.admitted (R := fun _ => False) (m := {}) id s c p).draw

end

end Sys2Proof.Machine
end

section
/-!
# Local operations

`Local m R s t` says of an operation that it changes only the registers that `R` names and the parts of the state that `m` names; it
raises no event and leaves memory and Papol's own state exactly as they are. The operations that show a block's state in its registers
are of this kind.
-/

namespace Sys2Proof.Machine

-- One theorem after the other: in one text, theorems that wait for the kernel would each hold a thread.
set_option Elab.async false

/-- From `s` to `t` only the registers that `R` names and the parts that `m` names change. -/
structure Local (m : Parts) (R : Nat → Prop) (s t : State) : Prop where
  regs   : ∀ a, ¬ R a → t.reg a = s.reg a
  mem    : t.mem = s.mem
  pap    : t.pap = s.pap
  poison : t.poison = s.poison
  rest   : s.but m t = s

namespace Local

variable {m : Parts} {R : Nat → Prop} {s t u : State}

theorem refl (s : State) : Local m R s s := ⟨fun _ _ => rfl, rfl, rfl, rfl, s.but_self m⟩

theorem trans (h : Local m R s t) (k : Local m R t u) : Local m R s u := by
  refine ⟨fun a n => (k.regs a n).trans (h.regs a n), k.mem.trans h.mem, k.pap.trans h.pap, k.poison.trans h.poison, ?_⟩
  rw [← State.but_but m s t u, k.rest, h.rest]

/-- An update of the parts that `m` names. -/
theorem upd (h : Local m R s t) (rest : t.but m u = t) (regs : u.regs = t.regs := by rfl) (mem : u.mem = t.mem := by rfl)
    (pap : u.pap = t.pap := by rfl) (poison : u.poison = t.poison := by rfl) : Local m R s u :=
  h.trans ⟨fun a _ => State.reg_congr regs a, mem, pap, poison, rest⟩

theorem setReg (h : Local m R s t) {a : Nat} {w : Word} (ha : R a) : Local m R s (t.setReg a w) :=
  h.trans ⟨fun _ n => State.reg_setReg_ne t w fun e => n (e ▸ ha), rfl, rfl, rfl, t.but_self m⟩

theorem wr (h : Local m R s t) {f : Field} {v : Nat} (ha : R f.addr) : Local m R s (t.wr f v) := h.setReg ha

theorem set1 (h : Local m R s t) {f : Field} (ha : R f.addr) : Local m R s (t.set1 f) := h.wr ha

theorem clr (h : Local m R s t) {f : Field} (ha : R f.addr) : Local m R s (t.clr f) := h.wr ha

theorem sat (h : Local m R s t) {f : Field} {n : Nat} (ha : R f.addr) : Local m R s (t.sat f n) := h.wr ha

theorem ite {c : Prop} [Decidable c] (h : Local m R s t) (k : Local m R s u) : Local m R s (if c then t else u) := by
  split
  · exact h
  · exact k

theorem forEach {f : Nat → State → State} : ∀ {n : Nat} {t : State}, (∀ i x, i < n → Local m R s x → Local m R s (f i x)) →
    Local m R s t → Local m R s (Machine.forEach f n t)
  | 0, _, _, h => h
  | n + 1, _, hf, h => hf n _ (Nat.lt_succ_self n) (forEach (fun i x hi => hf i x (Nat.lt_succ_of_lt hi)) h)

theorem foldl {α : Type} {f : State → α → State} (hf : ∀ (x : State) (a : α), Local m R s x → Local m R s (f x a)) :
    ∀ {l : List α} {t : State}, Local m R s t → Local m R s (l.foldl f t)
  | [], _, h => h
  | a :: l, t, h => foldl (l := l) hf (hf t a h)

theorem mono {R' : Nat → Prop} (h : Local m R s t) (k : ∀ a, R a → R' a) : Local m R' s t :=
  ⟨fun a n => h.regs a fun r => n (k a r), h.mem, h.pap, h.poison, h.rest⟩

/-- A part that `m` does not name. -/
theorem part {α : Type} (h : Local m R s t) (f : State → α) (same : ∀ u v : State, f (u.but m v) = f v := by intros; rfl) : f t = f s :=
  (same s t).symm.trans (congrArg f h.rest)

theorem rd (h : Local m R s t) {f : Field} (away : ¬ R f.addr) : t.rd f = s.rd f := by
  unfold State.rd; rw [h.regs _ away]

theorem on (h : Local m R s t) {f : Field} (away : ¬ R f.addr) : t.on f = s.on f := by
  unfold State.on; rw [h.rd away]

/-- A local operation within a frame. -/
theorem within (k : Local m R t u) (h : Frame m R s t) : Frame m R s u :=
  h.trans ⟨h.apart, fun a n => .inl (k.regs a fun r => n (.inr r)), fun a _ => State.byte_congr k.mem a,
    fun a _ => by rw [k.poison], k.rest⟩

theorem frame (h : Local m R s t) (away : ¬ R Reg.PWR_STATE) : Frame m R s t := h.within (.refl away s)

theorem kept (h : Local m R s t) : PapolKept s t := .of_pap h.pap

end Local

/-! ## Fault records -/

section
variable {m : Parts} {R : Nat → Prop} {s t : State}

theorem Local.showFn (h : Local m R s t) (fn : R Reg.SAFE_FN_STAT) (sm : R Reg.SAFE_SM_STAT) : Local m R s t.showFn :=
  ((h.wr fn).wr sm).wr sm

theorem Local.faultGone (h : Local m R s t) {code sub unit : Nat} (hs : m.saf = true) (fn : R Reg.SAFE_FN_STAT)
    (sm : R Reg.SAFE_SM_STAT) : Local m R s (t.faultGone code sub unit) :=
  .showFn (h.upd (by simp [State.but, hs])) fn sm

end

/-- FAULT_N as shown. -/
theorem showFn_drive (s : State) : s.showFn.on F.SAFE_FN_STAT_DRIVE = s.fnDemand := by
  unfold State.showFn
  rw [State.on_wr_off _ _, State.on_wr_off _ _, State.on_wr_b2n s _ (by decide) rfl]

/-! ## What the channels show -/

/-- The registers in which the channels and the croaker show their state. -/
def showReg (a : Nat) : Prop := (∃ n, n < 12 ∧ a = Reg.OUT_SPK_STAT n) ∨ a = Reg.OUT_CRK_STAT

theorem showReg_spk {n : Nat} (h : n < 12) : showReg (Reg.OUT_SPK_STAT n) := .inl ⟨n, h, rfl⟩

theorem showReg_range {a : Nat} (h : showReg a) : 0x300000 ≤ a ∧ a < 0x400000 := by
  rcases h with ⟨n, lt, rfl⟩ | rfl
  · unfold Reg.OUT_SPK_STAT; omega
  · decide

section
variable {m : Parts} {R : Nat → Prop} {s t : State}

theorem Local.acSpoil (h : Local m R s t) (hd : m.diag = true) (n : Nat) : Local m R s (t.acSpoil n) := by
  unfold State.acSpoil
  split
  · exact .ite (h.upd (by simp [State.but, hd])) h
  · exact h

theorem Local.acWatch (h : Local m R s t) (hd : m.diag = true) : Local m R s t.acWatch := by
  unfold State.acWatch
  split
  · exact .ite (h.acSpoil hd _) h
  · exact h

theorem acWatch_none {s : State} (h : s.diag.ac = none) : s.acWatch = s := by
  unfold State.acWatch; rw [h]

theorem Local.modOut (h : Local m R s t) (ho : m.out = true) (f : OutX → OutX) : Local m R s (t.modOut f) :=
  h.upd (by simp [State.but, ho, State.modOut])

/-- The CRK bits and the duck gains follow the slots and the phases: `outShow` but for the records and an AC test. -/
def State.crkShown (s : State) : State :=
  let s1 := forEach (fun n s => s.wr (F.OUT_SPK_STAT_CRK n) (b2n (s.croaking n))) 12 s
  let s2 := (s1.wr F.OUT_CRK_STAT_ACTIVE (maskOf 8 fun k => (s1.slot k).active)).wr F.OUT_CRK_STAT_CHPLAY (maskOf 12 s1.croaking)
  s2.modOut fun o => { o with ducks := Vector.ofFn fun i => duckStep s2.now (s2.duckFor i.val) (vat o.ducks i.val) }

/-- The CRKLOST records that no channel accounts for any more are no longer ACTIVE. -/
def State.lostGone (s : State) : State :=
  if s.saf.recs.any (fun r => r.code = 0x30A && r.active && !s.stillLost r) then
    { s with saf := { s.saf with recs := s.saf.recs.map fun (r : FaultRec) =>
        if r.code = 0x30A ∧ ¬ s.stillLost r then { r with active := false } else r } }.showFn
  else s

theorem outShow_eq (s : State) : s.outShow = s.lostGone.crkShown.acWatch := rfl

theorem Local.crkShown (h : Local m R s t) (ho : m.out = true) (shows : ∀ a, showReg a → R a) : Local m R s t.crkShown := by
  have crk : Local m R s (Machine.forEach (fun n s => s.wr (F.OUT_SPK_STAT_CRK n) (b2n (s.croaking n))) 12 t) :=
    .forEach (fun n x lt k => k.wr (shows _ (showReg_spk lt))) h
  have stat : R Reg.OUT_CRK_STAT := shows _ (.inr rfl)
  unfold State.crkShown
  dsimp only
  refine Local.modOut ?_ ho _
  exact (crk.wr (f := F.OUT_CRK_STAT_ACTIVE) stat).wr (f := F.OUT_CRK_STAT_CHPLAY) stat

theorem Local.lostGone (h : Local m R s t) (hs : m.saf = true) (fn : R Reg.SAFE_FN_STAT) (sm : R Reg.SAFE_SM_STAT) :
    Local m R s t.lostGone :=
  .ite (.showFn (h.upd (by simp [State.but, hs])) fn sm) h

theorem Local.outShow (h : Local m R s t) (hs : m.saf = true) (ho : m.out = true) (hd : m.diag = true) (shows : ∀ a, showReg a → R a)
    (fn : R Reg.SAFE_FN_STAT) (sm : R Reg.SAFE_SM_STAT) : Local m R s t.outShow := by
  rw [outShow_eq]
  exact Local.acWatch (Local.crkShown (h.lostGone hs fn sm) ho shows) hd

theorem lostGone_none {s : State} (h : ∀ r ∈ s.saf.recs, r.code ≠ 0x30A) : s.lostGone = s := by
  unfold State.lostGone
  rw [if_neg]
  rw [Bool.not_eq_true, List.any_eq_false]
  intro r mem
  simp [h r mem]

/-- With no CRKLOST record and no AC test the show touches the CRK bits and the duck gains alone. -/
theorem Local.outShow_quiet (h : Local m R s t) (ho : m.out = true) (shows : ∀ a, showReg a → R a)
    (recs : ∀ r ∈ t.saf.recs, r.code ≠ 0x30A) (ac : t.diag.ac = none) : Local m R s t.outShow := by
  have shown : Local { out := true } showReg t t.crkShown := (Local.refl t).crkShown rfl fun _ => id
  rw [outShow_eq, lostGone_none recs, acWatch_none ((shown.part fun u => u.diag.ac).trans ac)]
  exact h.crkShown ho shows

end

end Sys2Proof.Machine
end

section
/-!
# The registers and the events of a command that ends

An event moves no register but DIDX of ring 3 (`issueAt_regs`), and stands in the journal as long as that has room (`issueAt_journaled`).
-/

namespace Sys2Proof.Machine

-- One theorem after the other: in one text, theorems that wait for the kernel would each hold a thread.
set_option Elab.async false

/-- DIDX of the event ring. -/
def eventIndex (a : Nat) : Prop := a = Reg.DSP_RING_DIDX 3

theorem eventIndex_state : ¬ eventIndex Reg.PWR_STATE := by unfold eventIndex; decide

theorem flushEvents_regs : ∀ (l acc : List EventEntry) (s : State), SameRegsBut eventIndex s (State.flushEvents acc l s)
  | [], _, _ => .of_regs rfl
  | e :: rest, acc, s => by
    unfold State.flushEvents
    split
    · exact flushEvents_regs rest _ s
    · split
      · have put : SameRegsBut eventIndex s (s.ringPut 3 (e.words false)) :=
          SameRegsBut.trans eventIndex_state (.of_regs (putRing_regs 3 _ _ s)) (.wr _ _ _ rfl)
        exact put.trans eventIndex_state (.trans eventIndex_state (.of_regs rfl) (flushEvents_regs rest _ _))
      · exact .of_regs rfl

theorem issueAt_regs (s : State) (code : Nat) (ws : List Word) (r : Bool) (time : Word64) :
    SameRegsBut eventIndex s (s.issueAt code ws r time) := by
  unfold State.issueAt State.flush
  obtain ⟨⟨x, cut⟩, -⟩ := trimEvents_papol 4 (s.journalEvent code ws r time)
  refine SameRegsBut.trans eventIndex_state (.of_regs ?_) (flushEvents_regs _ [] _)
  rw [cut]
  rfl

theorem raiseR_regs (s : State) (code : Nat) (ws : List Word) (r : Bool) : SameRegsBut eventIndex s (s.raiseR code ws r) := by
  unfold State.raiseR
  split
  · exact SameRegsBut.trans eventIndex_state (.sysRun s) (issueAt_regs _ _ _ _ _)
  · split <;> exact .of_regs rfl

theorem raiseClamps_regs (op : Nat) : ∀ (cl : List Clamp) (s : State), SameRegsBut eventIndex s (s.raiseClamps op cl)
  | [], _ => .of_regs rfl
  | _ :: cl, s => (raiseR_regs s _ _ false).trans eventIndex_state (raiseClamps_regs op cl _)

theorem postDone_regs (s : State) (e : PendEntry) (st d : Nat) (ws : List Word) (cl : List Clamp) (time : Word64) :
    SameRegsBut eventIndex s (s.postDone e st d ws cl time) := by
  unfold State.postDone
  dsimp only
  refine SameRegsBut.trans eventIndex_state (.trans eventIndex_state (.of_regs ?_) (issueAt_regs _ _ _ _ _)) (raiseClamps_regs _ _ _)
  unfold State.countCfg
  split <;> rfl

theorem finish_regs (s : State) (e : PendEntry) (st d : Nat) (ws : List Word) (cl : List Clamp) :
    SameRegsBut eventIndex s (s.finish e st d ws cl) := by
  by_cases run : s.pap.run = .running
  · rw [finish_running run]
    exact SameRegsBut.trans eventIndex_state (.sysRun s) (postDone_regs _ _ _ _ _ _ _)
  · unfold State.finish State.finishWith
    dsimp only
    rw [if_neg run]
    exact .of_regs rfl

/-! ## Journaled events -/

/-- What of an event its writing leaves alone. -/
def EventEntry.said (e : EventEntry) : Nat × List Word := (e.ecode, e.payload)

theorem flushEvents_said : ∀ (l acc : List EventEntry) (s : State),
    (State.flushEvents acc l s).pap.events.map EventEntry.said = (acc ++ l).map EventEntry.said
  | [], acc, s => by unfold State.flushEvents; simp
  | e :: rest, acc, s => by
    unfold State.flushEvents
    split
    · rw [flushEvents_said rest, List.append_assoc]; rfl
    · split
      · rw [flushEvents_said rest]
        simp [EventEntry.said]
      · rfl

/-- An event that the journal has room for stands in it. -/
theorem issueAt_journaled {s : State} (room : s.pap.events.length < 64) (code : Nat) (ws : List Word) (r : Bool) (time : Word64) :
    (s.issueAt code ws r time).pap.events.map EventEntry.said = s.pap.events.map EventEntry.said ++ [(code, ws)] := by
  have short : (s.journalEvent code ws r time).pap.events.length ≤ 64 := by
    unfold State.journalEvent
    simp only [List.length_append, List.length_singleton]
    omega
  have kept : (s.journalEvent code ws r time).trimEvents 4 = s.journalEvent code ws r time := by
    unfold State.trimEvents
    exact if_pos short
  unfold State.issueAt State.flush
  rw [kept, flushEvents_said]
  unfold State.journalEvent
  simp [EventEntry.said, State.newEvent]

theorem issueAt_event {s : State} (room : s.pap.events.length < 64) (code : Nat) (ws : List Word) (r : Bool) (time : Word64) :
    ∃ v ∈ (s.issueAt code ws r time).pap.events, v.ecode = code ∧ v.payload = ws := by
  have mem : (code, ws) ∈ (s.issueAt code ws r time).pap.events.map EventEntry.said := by
    rw [issueAt_journaled room]
    exact List.mem_append_right _ (List.mem_singleton.2 rfl)
  obtain ⟨v, mem, said⟩ := List.mem_map.1 mem
  exact ⟨v, mem, congrArg Prod.fst said, congrArg Prod.snd said⟩

theorem countCfg_events (s : State) (cfg : Bool) (st : Nat) : (s.countCfg cfg st).pap.events = s.pap.events := by
  unfold State.countCfg; split <;> rfl

/-- EVT_CMD_DONE of a command that ends without clamps carries its reply words (R176). -/
theorem postDone_event {s : State} (room : s.pap.events.length < 64) (e : PendEntry) (st d : Nat) (ws : List Word) (time : Word64) :
    ∃ v ∈ (s.postDone e st d ws [] time).pap.events, v.ecode = evCmdDone ∧ v.payload.drop 2 = ws := by
  unfold State.postDone State.raiseClamps
  dsimp only [List.foldl_nil]
  generalize counted : State.countCfg _ _ _ = u
  have same : u.pap.events = s.pap.events := by rw [← counted, countCfg_events]; rfl
  obtain ⟨v, mem, code, words⟩ := issueAt_event (by rw [same]; exact room) evCmdDone
    ([w32 (e.opcode * 2 ^ 20 + b2n e.ring1 * 2 ^ 16 + e.cseq.toNat), w32 (st * 2 ^ 24 + d % 2 ^ 24)] ++ ws) false time
  exact ⟨v, mem, code, by rw [words]; rfl⟩

theorem finish_event {s : State} (run : s.pap.run = .running) (room : s.pap.events.length < 64) (e : PendEntry) (st d : Nat)
    (ws : List Word) : ∃ v ∈ (s.finish e st d ws []).pap.events, v.ecode = evCmdDone ∧ v.payload.drop 2 = ws := by
  rw [finish_running run]
  exact postDone_event (by rw [sysRun_pap]; exact room) e st _ ws _

end Sys2Proof.Machine
end

section
/-!
# Fuses, lifecycle, attestation, the debug port and sessions (spec/16_security.md)
-/

namespace Sys2Proof.Machine

-- One theorem after the other: in one text, theorems that wait for the kernel would each hold a thread.
set_option Elab.async false

section
variable (s : State) (c : CmdSpec) (p : Packet)

@[simp] theorem admitted_fuseNow (w : Nat) : (s.admitted c p).fuseNow w = s.fuseNow w := by
  unfold State.fuseNow; rw [admitted_sec]

@[simp] theorem admitted_fuse (w : Nat) : (s.admitted c p).fuse w = s.fuse w := by
  unfold State.fuse; rw [admitted_sec]

@[simp] theorem admitted_fuseWords (i n : Nat) : (s.admitted c p).fuseWords i n = s.fuseWords i n := by
  unfold State.fuseWords; simp only [admitted_fuse]

@[simp] theorem admitted_lifecycle : (s.admitted c p).lifecycle = s.lifecycle := rd_card s c p

@[simp] theorem admitted_rollValue (w : Nat) (v : Word) : (s.admitted c p).rollValue w v = s.rollValue w v := by
  unfold State.rollValue; simp only [admitted_fuseNow]

@[simp] theorem admitted_runningRoll (w : Nat) : (s.admitted c p).runningRoll? w = s.runningRoll? w := by
  obtain ⟨x, y, z, pap⟩ := admitted_pap s c p
  unfold State.runningRoll?
  rw [admitted_graph, admitted_wkd, pap]

@[simp] theorem admitted_revokesAll (new : Word) : (s.admitted c p).revokesAll new = s.revokesAll new := by
  unfold State.revokesAll; simp only [admitted_fuseNow]

@[simp] theorem admitted_rootProgrammed (k : Nat) : (s.admitted c p).rootProgrammed k = s.rootProgrammed k := by
  unfold State.rootProgrammed State.rootHash; simp only [admitted_fuse]

end

/-! ## Fuses and lifecycle -/

theorem burn_fuses (s : State) (v : Nat → Word) : (s.burn v).sec = { s.sec with fuses := Vector.ofFn fun i => vat s.sec.fuses i.val ||| v i.val } := by
  unfold State.burn State.modSec; rfl

theorem fuseNow_burn (s : State) (v : Nat → Word) {i : Nat} (h : i < 64) : (s.burn v).fuseNow i = s.fuseNow i ||| v i := by
  unfold State.fuseNow
  rw [burn_fuses]
  dsimp only
  unfold vat
  rw [Vector.getElem?_eq_getElem h, Vector.getElem_ofFn]
  rfl

theorem fuse_burn (s : State) (v : Nat → Word) (i : Nat) : (s.burn v).fuse i = s.fuse i := by
  unfold State.fuse; rw [burn_fuses]

theorem shadowFuse_sec (s : State) (w : Nat) :
    (s.shadowFuse w).sec = { s.sec with shadow := vmod s.sec.shadow w fun _ => s.fuseNow w } := by
  unfold State.shadowFuse State.showRoll
  simp only [State.wr_sec, State.setReg_sec]
  rfl

theorem fuseNow_shadowFuse (s : State) (w i : Nat) : (s.shadowFuse w).fuseNow i = s.fuseNow i := by
  unfold State.fuseNow; rw [shadowFuse_sec]

theorem fuse_shadowFuse (s : State) {w i : Nat} (h : i < 64) : (s.shadowFuse w).fuse i = if i = w then s.fuseNow w else s.fuse i := by
  unfold State.fuse
  rw [shadowFuse_sec]
  split
  · subst_vars; exact vat_vmod_same _ _ h
  · exact vat_vmod_ne _ _ ‹_›

section
variable {m : Parts} {R : Nat → Prop} {s t : State}

theorem Frame.modSec (h : Frame m R s t) (f : Sec → Sec) (hm : m.sec = true) : Frame m R s (t.modSec f) := by
  unfold State.modSec
  exact h.upd (by simp only [State.but, hm, cond_true, Bool.cond_self])

theorem Frame.burn (h : Frame m R s t) (v : Nat → Word) (hm : m.sec = true) : Frame m R s (t.burn v) := h.modSec _ hm

theorem Frame.shadowFuse (h : Frame m R s t) {w : Nat} (hm : m.sec = true) (word : R (Reg.CTL_FUSE w)) (roll : R Reg.CTL_SEC_ROLL) :
    Frame m R s (t.shadowFuse w) :=
  ((((h.modSec _ hm).setReg word).wr roll).wr roll).wr roll

end

theorem fuseProgram_awaits {p : Packet} {s : State} (acc : Accepted cardFuseProgram p s)
    (allowed : fuseAllowed s.lifecycle (pf p.payload 0 0 6) = true) (check : pw p.payload 2 = ~~~ pw p.payload 1)
    (counter : 44 ≤ pf p.payload 0 0 6 → pf p.payload 0 0 6 ≤ 47 →
      let n := s.rollValue (pf p.payload 0 0 6) (s.fuseNow (pf p.payload 0 0 6) ||| pw p.payload 1)
      contiguous n = true ∧ (s.runningRoll? (pf p.payload 0 0 6)).all (fun r => decide (r < countOf n)) = false)
    (revoke : pf p.payload 0 0 6 = 3 → s.revokesAll (s.fuseNow (pf p.payload 0 0 6) ||| pw p.payload 1) = false)
    (free : Free s [.fuses]) :
    Awaits (.fuseProgram p) cardFuseProgram p s [] [.fuses] fun t => Touches [] s t ∧ s.over t = s := by
  refine (awaits_unchanged rfl acc ?_ free).imp fun _ k => k.untouched
  dsimp only
  simp only [admitted_lifecycle, admitted_fuseNow, admitted_rollValue, admitted_runningRoll, admitted_revokesAll]
  rw [if_neg (by rw [allowed]; decide), if_neg (not_not.2 check), if_neg, if_neg, if_neg, unlessBusy_free (admitted_free free)]
  · rintro ⟨word, all⟩
    rw [revoke word] at all
    exact absurd all (by decide)
  · rintro ⟨word, all⟩
    obtain ⟨lo, hi⟩ := of_decide_eq_true word
    rw [(counter lo hi).2] at all
    exact absurd all (by decide)
  · rintro ⟨word, gap⟩
    obtain ⟨lo, hi⟩ := of_decide_eq_true word
    rw [(counter lo hi).1] at gap
    exact absurd gap (by decide)

theorem lifecycleAdvance_awaits {p : Packet} {s : State} (acc : Accepted cardLifecycleAdvance p s)
    (key : pf p.payload 0 16 16 = 0xC1C1)
    (step : (pf p.payload 0 0 4 = 2 ∧ s.lifecycle = 1 ∧ (s.fuseWords 20 8).all (· = 0) = false ∧
      (s.rootProgrammed 0 = true ∨ s.rootProgrammed 1 = true)) ∨ (pf p.payload 0 0 4 = 3 ∧ s.lifecycle = 2))
    (free : Free s [.fuses]) :
    Awaits (.lifecycleAdvance p) cardLifecycleAdvance p s [] [.fuses] fun t => Touches [] s t ∧ s.over t = s := by
  refine (awaits_unchanged rfl acc ?_ free).imp fun _ k => k.untouched
  dsimp only
  simp only [admitted_lifecycle, admitted_fuseWords, admitted_rootProgrammed]
  rw [if_neg (not_not.2 key), if_neg, if_neg, unlessBusy_free (admitted_free free)]
  · rintro ⟨two, missing⟩
    rcases step with ⟨-, -, psk, root⟩ | ⟨three, -⟩
    · rcases missing with zero | none
      · rw [psk] at zero; exact absurd zero (by decide)
      · rcases root with r | r <;> simp [r] at none
    · omega
  · rcases step with ⟨two, lc, -⟩ | ⟨three, lc⟩
    · exact not_not.2 (.inl ⟨two, lc⟩)
    · exact not_not.2 (.inr ⟨three, lc⟩)

/-- Bits of a fuse word are programmed, and the shadow of a counter follows (R703, R704). -/
def State.programmed (s : State) (x : Nat) (v : Word) : State :=
  let burnt := s.burn fun i => if i = x then v else 0
  if 44 ≤ x ∧ x ≤ 47 then burnt.shadowFuse x else burnt

theorem programmed_frame (s : State) {x : Nat} (v : Word) (h : x < 64) :
    Frame { sec := true } (· ∈ [Reg.CTL_FUSE x, Reg.CTL_SEC_ROLL]) s (s.programmed x v) := by
  have away : ¬ Reg.PWR_STATE ∈ [Reg.CTL_FUSE x, Reg.CTL_SEC_ROLL] := by
    simp only [Reg.PWR_STATE, Reg.CTL_FUSE, Reg.CTL_SEC_ROLL, List.mem_cons, List.not_mem_nil, or_false]
    omega
  have burnt := (Frame.refl (m := { sec := true }) away s).burn (fun i => if i = x then v else 0) rfl
  exact .ite (burnt.shadowFuse rfl (by simp) (by simp)) burnt

theorem modSec_pap (s : State) (f : Sec → Sec) : (s.modSec f).pap = s.pap := rfl

theorem modSec_rd (s : State) (f : Sec → Sec) (g : Field) : (s.modSec f).rd g = s.rd g := rfl

theorem burn_pap (s : State) (v : Nat → Word) : (s.burn v).pap = s.pap := modSec_pap s _

theorem shadowFuse_pap (s : State) (w : Nat) : (s.shadowFuse w).pap = s.pap := by
  unfold State.shadowFuse State.showRoll
  rw [State.wr_pap, State.wr_pap, State.wr_pap, State.setReg_pap, modSec_pap]

theorem programmed_pap (s : State) (x : Nat) (v : Word) : (s.programmed x v).pap = s.pap := by
  unfold State.programmed
  dsimp only
  split
  · rw [shadowFuse_pap, burn_pap]
  · exact burn_pap s _

theorem programmed_fuseNow (s : State) {x i : Nat} (v : Word) (h : i < 64) :
    (s.programmed x v).fuseNow i = if i = x then s.fuseNow i ||| v else s.fuseNow i := by
  have burnt : (s.burn fun i => if i = x then v else 0).fuseNow i = if i = x then s.fuseNow i ||| v else s.fuseNow i := by
    rw [fuseNow_burn s _ h]
    split
    · rfl
    · exact BitVec.or_zero
  unfold State.programmed
  dsimp only
  split
  · rw [fuseNow_shadowFuse, burnt]
  · exact burnt

theorem programmed_fuse (s : State) {x i : Nat} (v : Word) (h : i < 64) :
    (s.programmed x v).fuse i = if i = x ∧ 44 ≤ x ∧ x ≤ 47 then s.fuseNow i ||| v else s.fuse i := by
  unfold State.programmed
  dsimp only
  by_cases counter : 44 ≤ x ∧ x ≤ 47
  · rw [if_pos counter, fuse_shadowFuse _ h, fuse_burn]
    by_cases same : i = x
    · rw [if_pos same, if_pos ⟨same, counter⟩, ← same, fuseNow_burn s _ h, if_pos rfl]
    · rw [if_neg same, if_neg fun k => same k.1]
  · rw [if_neg counter, if_neg fun k => counter k.2, fuse_burn]

theorem fuseProgramDone_eq {s : State} {e : PendEntry} (work : s.atWork? 0x806 = some e) (missed : Word) :
    let x := pf e.payload 0 0 6
    let v := pw e.payload 1 &&& ~~~missed
    ∃ d ws, exec (.fuseProgramDone missed) s = .next ((s.programmed x v).finish e
      (if s.fuseNow x ||| v = s.fuseNow x ||| pw e.payload 1 then stsOk else stsNoResource) d ws []) := by
  show ∃ d ws, execFuseProgramDone missed s = _
  unfold execFuseProgramDone
  rw [work]
  exact ⟨_, _, rfl⟩

theorem fuseNow_congr {s t : State} (h : t.sec = s.sec) (i : Nat) : t.fuseNow i = s.fuseNow i := by unfold State.fuseNow; rw [h]

/-- What the end of FUSE_PROGRAM leaves, whatever its status. -/
theorem programmed_finish (s : State) {x : Nat} (v : Word) (h : x < 64) (e : PendEntry) (st d : Nat) (ws : List Word) :
    let t := (s.programmed x v).finish e st d ws []
    Ended (some e) st s t ∧ (∀ i, i < 64 → t.fuseNow i = if i = x then s.fuseNow i ||| v else s.fuseNow i) ∧
      (∀ i, i < 64 → t.fuse i = if i = x ∧ 44 ≤ x ∧ x ≤ 47 then s.fuseNow i ||| v else s.fuse i) ∧
      Touches [Reg.CTL_FUSE x, Reg.CTL_SEC_ROLL] s t := by
  have last := (Frame.refl (m := {}) (R := fun _ => False) id (s.programmed x v)).finish (e := e) (st := st) (d := d) (ws := ws) (cl := [])
  refine ⟨finish_ended (.of_pap (programmed_pap s _ _)) _ _ _ _ _, fun i hi => ?_, fun i hi => ?_, (programmed_frame s v h).finish.touches⟩
  · rw [fuseNow_congr last.sec, programmed_fuseNow s v hi]
  · rw [fuse_congr last.sec, programmed_fuse s v hi]

theorem lifecycleAdvanceDone_eq {s : State} {e : PendEntry} (work : s.atWork? 0x807 = some e) :
    exec .lifecycleAdvanceDone s = .next
      (((s.burn (lifecycleBits (pf e.payload 0 0 4))).wr F.CTL_SEC_STAT_LCNEXT (pf e.payload 0 0 4)).finish e stsOk 0 [] []) := by
  show execLifecycleAdvanceDone s = _
  unfold execLifecycleAdvanceDone
  rw [work]

/-- What the end of LIFECYCLE_ADVANCE leaves. -/
theorem advanced_finish (s : State) {lc : Nat} (h : lc < 16) (v : Nat → Word) (e : PendEntry) :
    let t := ((s.burn v).wr F.CTL_SEC_STAT_LCNEXT lc).finish e stsOk 0 [] []
    Ended (some e) stsOk s t ∧ (∀ i, i < 64 → t.fuseNow i = s.fuseNow i ||| v i) ∧ t.sec.shadow = s.sec.shadow ∧
      t.rd F.CTL_SEC_STAT_LCNEXT = lc ∧ t.lifecycle = s.lifecycle ∧ Touches [Reg.CTL_SEC_STAT] s t := by
  have burnt : Frame { sec := true } (· ∈ [Reg.CTL_SEC_STAT]) s (s.burn v) := (Frame.refl (by decide) s).burn v rfl
  have shown := burnt.wr (f := F.CTL_SEC_STAT_LCNEXT) (v := lc) (List.mem_singleton.2 rfl)
  have last := (Frame.refl (m := {}) (R := fun _ => False) id ((s.burn v).wr F.CTL_SEC_STAT_LCNEXT lc)).finish (e := e) (st := stsOk)
    (d := 0) (ws := []) (cl := [])
  have kept : ((s.burn v).wr F.CTL_SEC_STAT_LCNEXT lc).pap = s.pap := by rw [State.wr_pap, burn_pap]
  have same : (s.burn v).rd F.CTL_SEC_STAT_LC = s.rd F.CTL_SEC_STAT_LC := modSec_rd s _ _
  refine ⟨finish_ended (.of_pap kept) _ _ _ _ _, fun i hi => ?_, ?_, ?_, ?_, shown.finish.touches⟩
  · rw [fuseNow_congr last.sec, fuseNow_congr (State.wr_sec _ _ _), fuseNow_burn s v hi]
  · rw [last.sec, State.wr_sec, burn_fuses]
  · rw [last.rd_steady id, State.rd_wr_fits _ (by decide) h]
  · unfold State.lifecycle
    rw [last.rd_steady id, State.rd_wr_off _ _, same]

/-- Settles O58: the cards pend without an effect, and the ends of the two commands burn their bits and nothing else. -/
theorem fusesAndLifecycleAreProgrammed : Obligations.FusesAndLifecycleAreProgrammed := by
  intro p s e missed
  dsimp only
  refine ⟨fuseProgram_awaits, lifecycleAdvance_awaits, fun work => ?_, fun work => ?_⟩
  · obtain ⟨d, ws, run⟩ := fuseProgramDone_eq work missed
    exact ⟨_, run, programmed_finish s _ (bits_lt _ 0 6) e _ d ws⟩
  · exact ⟨_, lifecycleAdvanceDone_eq work, advanced_finish s (bits_lt _ 0 4) _ e⟩

end Sys2Proof.Machine
end

section
/-!
# Attestation and the debug port (spec/16_security.md, R728 to R731, R735)
-/

namespace Sys2Proof.Machine

-- One theorem after the other: in one text, theorems that wait for the kernel would each hold a thread.
set_option Elab.async false

/-- What a command leaves beside Papol's own state is what its card leaves. -/
theorem PapolBut.over_eq {p q : Nat → Prop} {s s1 t : State} (h : PapolBut p q s1 t) : s.over t = s.over s1 := by
  have e := congrArg (fun v : State => { v with regs := s.regs, mem := s.mem, poison := s.poison, pap := s.pap }) h.rest
  exact e

/-! ## Attestation -/

theorem attestDone_eq {s : State} {e : PendEntry} (work : s.atWork? 0x803 = some e) :
    let key := Crypto.hmacWords (Crypto.ecdh (Crypto.numOf (s.fuseWords 50 8)) ((List.range 16).map Config.attestKey)) s.serialBe
    exec .attestDone s = .next (s.finish e stsOk 0 (s.report ++ Crypto.hmacWords key (e.payload.take 8 ++ s.report)) []) := by
  show execAttestDone s = _
  unfold execAttestDone
  rw [work]

/-! ## The debug port -/

/-- A failed attempt counts in AUTHFAIL. -/
theorem authFailed_counts (s : State) : s.authFailed.rd F.CTL_SEC_CNT_AUTHFAIL = min 0xFFFF (s.rd F.CTL_SEC_CNT_AUTHFAIL + 1) := by
  have counted := s.rd_sat_same (f := F.CTL_SEC_CNT_AUTHFAIL) 1 (by decide)
  have again := ((s.sat F.CTL_SEC_CNT_AUTHFAIL 1).rd_sat_off (f := F.CTL_SEC_CNT_CONSEC) (g := F.CTL_SEC_CNT_AUTHFAIL) 1).trans counted
  unfold State.authFailed
  dsimp only
  split
  · exact counted
  · split
    · have raised := (raiseR_regs ((s.sat F.CTL_SEC_CNT_AUTHFAIL 1).sat F.CTL_SEC_CNT_CONSEC 1) evSecurity
        [w32 (2 * 2 ^ 28 + 0 * 2 ^ 24 + 1 * 2 ^ 16 + ((s.sat F.CTL_SEC_CNT_AUTHFAIL 1).sat F.CTL_SEC_CNT_CONSEC 1).rd
          F.CTL_SEC_STAT_SESSNO)] false).reg (a := Reg.CTL_SEC_CNT) (by unfold eventIndex; decide) (by decide)
      refine Eq.trans ?_ again
      unfold State.rd
      exact congrArg (fun w => bits w F.CTL_SEC_CNT_AUTHFAIL.lo F.CTL_SEC_CNT_AUTHFAIL.width) raised
    · exact again

theorem authFailed_kept (s : State) : PapolKept s s.authFailed := by
  unfold State.authFailed
  dsimp only
  split
  · exact .of_pap rfl
  · split
    · exact PapolKept.trans (t := (s.sat F.CTL_SEC_CNT_AUTHFAIL 1).sat F.CTL_SEC_CNT_CONSEC 1)
        (.of_pap ((State.sat_pap _ _ _).trans (State.sat_pap _ _ _))) (raiseR_papol _ _ _ _).2
    · exact .of_pap ((State.sat_pap _ _ _).trans (State.sat_pap _ _ _))

/-- The attempt of a NONCE is used up. -/
def State.tried (s : State) : State := s.modSec fun (q : Sec) => { q with trial := [] }

theorem debugUnlockDone_eq {s : State} {e : PendEntry} (work : s.atWork? 0x805 = some e) :
    exec .debugUnlockDone s = .next
      (if Crypto.ecdsa (s.fuseWords 28 16) (e.payload.take 16) (Crypto.shaWords (s.sec.trial ++ s.serialBe)) then
        (s.tried.set1 F.CTL_SEC_STAT_DBGOPEN).finish e stsOk 0 [] [] else s.tried.authFailed.finish e stsAuthFail 0 [] []) := by
  show execDebugUnlockDone s = _
  unfold execDebugUnlockDone
  rw [work]
  dsimp only
  split <;> rfl

theorem tried_opened (s : State) (e : PendEntry) :
    let t := (s.tried.set1 F.CTL_SEC_STAT_DBGOPEN).finish e stsOk 0 [] []
    Ended (some e) stsOk s t ∧ t.sec = { s.sec with trial := [] } ∧ t.on F.CTL_SEC_STAT_DBGOPEN = true := by
  have last := (Frame.refl (m := {}) (R := fun _ => False) id (s.tried.set1 F.CTL_SEC_STAT_DBGOPEN)).finish (e := e) (st := stsOk) (d := 0)
    (ws := []) (cl := [])
  refine ⟨finish_ended (.of_pap ((State.set1_pap _ _).trans (modSec_pap s _))) _ _ _ _ _, ?_, ?_⟩
  · rw [last.sec, State.set1_sec]; rfl
  · rw [last.on_steady id, State.on_set1_same _]

theorem tried_failed (s : State) (e : PendEntry) :
    let t := s.tried.authFailed.finish e stsAuthFail 0 [] []
    Ended (some e) stsAuthFail s t ∧ t.sec = { s.sec with trial := [] } ∧ t.on F.CTL_SEC_STAT_DBGOPEN = s.on F.CTL_SEC_STAT_DBGOPEN ∧
      t.rd F.CTL_SEC_CNT_AUTHFAIL = min 0xFFFF (s.rd F.CTL_SEC_CNT_AUTHFAIL + 1) := by
  have failed := (Frame.refl (m := {}) (R := fun _ => False) id s.tried).papol (authFailed_papol s.tried)
  have last := failed.finish (e := e) (st := stsAuthFail) (d := 0) (ws := []) (cl := [])
  have counter := (finish_regs s.tried.authFailed e stsAuthFail 0 [] []).reg (a := Reg.CTL_SEC_CNT) (by unfold eventIndex; decide) (by decide)
  refine ⟨finish_ended ((PapolKept.of_pap (modSec_pap s _)).trans (authFailed_kept _)) _ _ _ _ _, last.sec, last.on_steady id, ?_⟩
  refine Eq.trans ?_ (authFailed_counts s.tried)
  unfold State.rd
  exact congrArg (fun w => bits w F.CTL_SEC_CNT_AUTHFAIL.lo F.CTL_SEC_CNT_AUTHFAIL.width) counter

theorem debugUnlockDone_ends {s : State} {e : PendEntry} (work : s.atWork? 0x805 = some e) :
    let good := Crypto.ecdsa (s.fuseWords 28 16) (e.payload.take 16) (Crypto.shaWords (s.sec.trial ++ s.serialBe))
    ∃ t, exec .debugUnlockDone s = .next t ∧ Ended (some e) (if good then stsOk else stsAuthFail) s t ∧
      t.sec = { s.sec with trial := [] } ∧ (good = true → t.on F.CTL_SEC_STAT_DBGOPEN = true) ∧
      (good = false → t.on F.CTL_SEC_STAT_DBGOPEN = s.on F.CTL_SEC_STAT_DBGOPEN ∧
        t.rd F.CTL_SEC_CNT_AUTHFAIL = min 0xFFFF (s.rd F.CTL_SEC_CNT_AUTHFAIL + 1)) := by
  intro good
  have run := debugUnlockDone_eq work
  by_cases valid : good = true
  · obtain ⟨ended, sec, opened⟩ := tried_opened s e
    rw [if_pos valid] at run
    exact ⟨_, run, by rw [if_pos valid]; exact ended, sec, fun _ => opened, fun bad => absurd (bad.symm.trans valid) (by decide)⟩
  · obtain ⟨ended, sec, port, counter⟩ := tried_failed s e
    rw [if_neg valid] at run
    exact ⟨_, run, by rw [if_neg valid]; exact ended, sec, fun g => absurd g valid, fun _ => ⟨port, counter⟩⟩

/-- A new NONCE is drawn. -/
def State.challenged (s : State) : State :=
  { s with draw := s.draw + 8, sec := { s.sec with nonce := some ((List.range 8).map fun i => Config.trng (s.draw + i)) } }

theorem debugChallenge_answers {p : Packet} {s : State} (acc : Accepted cardDebugChallenge p s) :
    Answers (.debugChallenge p) cardDebugChallenge p s 0 0 ((List.range 8).map fun i => Config.trng (s.draw + i)) fun t =>
      Touches [] s t ∧ s.over t = s.challenged := by
  have frame : Frame { draw := true, sec := true } (· ∈ ([] : List Nat)) s (s.admitted cardDebugChallenge p).challenged :=
    (Frame.admitted (by simp) s cardDebugChallenge p).upd rfl
  refine answers_of_done (s1 := (s.admitted cardDebugChallenge p).challenged) (cl := []) rfl acc ?_
    fun t k => ⟨(frame.papol k).touches, ?_⟩
  · have words : ((List.range 8).map fun i => Config.trng ((s.admitted cardDebugChallenge p).draw + i)) =
        (List.range 8).map fun i => Config.trng (s.draw + i) := by rw [admitted_draw]
    rw [← words]
    rfl
  · rw [k.over_eq]
    have e := congrArg State.challenged (admitted_over s cardDebugChallenge p)
    exact e

theorem debugUnlock_awaits {p : Packet} {s : State} {n : List Word} (acc : Accepted cardDebugUnlock p s)
    (closed : s.on F.CTL_SEC_STAT_DBGOPEN = false) (usable : s.on F.CTL_SEC_STAT_DBGDIS = false) (nonce : s.sec.nonce = some n)
    (free : Free s [.debug]) : Awaits (.debugUnlock p) cardDebugUnlock p s [] [.debug] fun t => Touches [] s t ∧
      s.over t = { s with sec := { s.sec with nonce := none, trial := n } } := by
  let a := s.admitted cardDebugUnlock p
  let s1 := a.modSec fun (q : Sec) => { q with nonce := none, trial := n }
  have frame : Frame { sec := true } (· ∈ ([] : List Nat)) s s1 := (Frame.admitted (by simp) s cardDebugUnlock p).modSec _ rfl
  refine awaits_of_pend (s1 := s1) rfl acc ?_ (admitted_free free).2 fun t k => ⟨(frame.papol k).touches, ?_⟩
  · rw [if_neg (by rw [on_card, closed]; decide), if_neg (by rw [on_card, usable]; decide), admitted_sec, nonce]
    exact unlessBusy_free (admitted_free free)
  · rw [k.over_eq]
    have e := congrArg (fun v : State => { v with sec := { v.sec with nonce := none, trial := n } }) (admitted_over s cardDebugUnlock p)
    exact e

/-- EXTEST keeps FAULT_N low through what the channels show. -/
theorem outShow_drive {s : State} (extest : s.sec.extest = true) (low : s.on F.SAFE_FN_STAT_DRIVE = true) :
    s.outShow.on F.SAFE_FN_STAT_DRIVE = true := by
  have first : s.lostGone.on F.SAFE_FN_STAT_DRIVE = true := by
    unfold State.lostGone
    split
    · rw [showFn_drive]
      unfold State.fnDemand
      simp [extest]
    · exact low
  have off : ¬ showReg F.SAFE_FN_STAT_DRIVE.addr := fun r => absurd (showReg_range r).2 (by decide)
  have shown := (Local.refl (m := { out := true }) (R := showReg) s.lostGone).crkShown rfl fun _ => id
  have watched := (Local.refl (m := { diag := true }) (R := fun _ => False) s.lostGone.crkShown).acWatch rfl
  rw [outShow_eq, watched.on id, shown.on off, first]

/-- EXTEST through an open port. -/
theorem extest_opened {s : State} (opened : s.on F.CTL_SEC_STAT_DBGOPEN = true) : ∃ t, exec .extest s = .next t ∧
    t.sec = { s.sec with extest := true } ∧ t.on F.SAFE_FN_STAT_DRIVE = true ∧ t.mem = s.mem ∧ t.pap = s.pap := by
  let u := s.modSec fun (q : Sec) => { q with extest := true }
  have run : exec .extest s = .next u.showFn.outShow := by
    show execExtest s = _
    unfold execExtest
    rw [if_pos opened]
  have shown : Local { saf := true, out := true, diag := true } (fun _ => True) u u.showFn.outShow :=
    Local.outShow ((Local.refl u).showFn trivial trivial) rfl rfl rfl (fun _ _ => trivial) trivial trivial
  have fn := (Local.refl (m := {}) (R := fun _ => True) u).showFn trivial trivial
  have low : u.showFn.on F.SAFE_FN_STAT_DRIVE = true := by
    rw [showFn_drive]
    unfold State.fnDemand
    simp [u, State.modSec]
  exact ⟨_, run, shown.part State.sec, outShow_drive (congrArg Sec.extest (fn.part State.sec)) low, shown.mem, shown.pap⟩

/-- Settles O57: the cards read the state or use up the NONCE, and each end leaves what the spec states of it. -/
theorem deviceAttestsAndDebugPortOpens : Obligations.DeviceAttestsAndDebugPortOpens := by
  intro p s e
  dsimp only
  refine ⟨fun acc free => ?_, fun none => ?_, fun none => ?_, fun work => ?_, debugUnlockDone_ends, debugChallenge_answers, rfl,
    fun acc => ⟨fun opened => ?_, fun n closed usable nonce free => debugUnlock_awaits acc closed usable nonce free, fun closed dis => ?_⟩,
    extest_opened, fun closed => ?_⟩
  · exact (awaits_unchanged rfl acc (unlessBusy_free (admitted_free free)) free).imp fun _ k => k.untouched
  · show execAttestDone s = _
    unfold execAttestDone; rw [none]
  · show execDebugUnlockDone s = _
    unfold execDebugUnlockDone; rw [none]
  · exact ⟨_, attestDone_eq work, finish_ended (.refl s) _ _ _ _ _, (Frame.finish (.refl id s)).papolBut,
      fun run room => finish_event run room _ _ _ _⟩
  · exact answers_unchanged (cl := []) rfl acc (if_pos (by rw [on_card, opened]))
  · exact answers_of_refuse rfl acc ((if_neg (by rw [on_card, closed]; decide)).trans (if_pos (by rw [on_card, dis]))) fun _ k => k
  · show execExtest s = _
    unfold execExtest
    rw [if_neg (by rw [closed]; decide)]

end Sys2Proof.Machine
end

section
/-!
# Parameters, spares and engine status (spec/06_engines_leap.md, R284, R304, R313 to R315)
-/

namespace Sys2Proof.Machine

-- One theorem after the other: in one text, theorems that wait for the kernel would each hold a thread.
set_option Elab.async false

/-! ## Commands that configure -/

theorem flushHeld_cfggen : ∀ (l : List HeldReply) (s : State), (s.flushHeld l).pap.cfggen = s.pap.cfggen
  | [], _ => rfl
  | h :: rest, s => by
    have put := ringPut_pap s 2 (s.replyWords h)
    have wrote : ∀ u : State, (u.wrote h).pap.cfggen = u.pap.cfggen := fun u => by
      have key : ∀ v : State, v.pap.cfggen = u.pap.cfggen →
          (if h.final then v.completed h.ring1 h.cseq else v).pap.cfggen = u.pap.cfggen := fun v e => by split <;> exact e
      refine key _ ?_
      split <;> rfl
    unfold State.flushHeld
    split
    · rw [flushHeld_cfggen rest, wrote, put]
    · rfl

theorem answer_cfggen (s : State) (op : Nat) (p : Packet) (auth journal : Bool) (st d : Nat) (tr : Bool) (ws : List Word) :
    (s.answer op p auth journal st d tr ws).pap.cfggen = s.pap.cfggen := by
  have journaled : ∀ e, (if journal then { s with pap := { s.pap with replies := pushReply s.pap.replies e } } else s).pap.cfggen =
      s.pap.cfggen := by
    intro e; split <;> rfl
  have emitted : ∀ (u : State) (x : HeldReply), u.pap.cfggen = s.pap.cfggen → (u.emit x).pap.cfggen = s.pap.cfggen :=
    fun u x k => (flushHeld_cfggen _ u).trans k
  unfold State.answer
  dsimp only
  split
  · split
    · exact journaled _
    · exact journaled _
  · exact emitted _ _ (journaled _)

/-- A configuration command that succeeds is counted in CFGGEN (spec/04_command_protocol.md, R190). -/
theorem answers_of_configured {i : Instr} {c : CmdSpec} {p : Packet} {s s1 : State} {body : State → Res} {P : State → Prop} {st d : Nat}
    {ws : List Word} (run : exec i s = s.card c p body) (acc : Accepted c p s) (done : body (s.admitted c p) = .done st d ws [] s1)
    (cfg : c.cfg = true) (good : success st = true)
    (holds : ∀ t, PapolBut papolReg (papolByte s1) s1 t → t.pap.cfggen = s1.pap.cfggen + 1 → P t) : Answers i c p s st d ws P := by
  let tr := decide (c.opcode = 0x002 ∧ 16 < bits (pw ws 0) 0 16)
  have answered := answer_papol s1 c.opcode p p.auth true st d tr ws
  have replied := answer_replied s1 c p p.auth st d tr ws
  have counted := countCfg_papol (s1.answer c.opcode p p.auth true st d tr ws) c.cfg st
  refine ⟨(s1.answer c.opcode p p.auth true st d tr ws).countCfg c.cfg st, ?_, replied.congr counted.2.1, holds _ ?_ ?_⟩
  · rw [run]
    refine (congrArg Host.Outcome.next (take_accepted acc body id)).trans ?_
    rw [done]
    rfl
  · have both := counted.1
    rw [papolByte_congr answered.rings] at both
    exact answered.trans both
  · have all : (if c.cfg = true ∧ success st = true then
        ({ s1.answer c.opcode p p.auth true st d tr ws with pap := { (s1.answer c.opcode p p.auth true st d tr ws).pap with
          cfggen := (s1.answer c.opcode p p.auth true st d tr ws).pap.cfggen + 1 } } : State)
        else s1.answer c.opcode p p.auth true st d tr ws).pap.cfggen = s1.pap.cfggen + 1 := by
      rw [if_pos ⟨cfg, good⟩]
      dsimp only
      rw [answer_cfggen]
    exact all

theorem admitted_cfggen (s : State) (c : CmdSpec) (p : Packet) : (s.admitted c p).pap.cfggen = s.pap.cfggen := by
  obtain ⟨x, y, z, pap⟩ := admitted_pap s c p
  rw [pap]

/-! ## Parameters -/

theorem modGraph_pap (s : State) (f : Graph → Graph) : (s.modGraph f).pap = s.pap := rfl

theorem Frame.modGraph {m : Parts} {R : Nat → Prop} {s t : State} (h : Frame m R s t) (f : Graph → Graph) (hm : m.graph = true := by rfl) :
    Frame m R s (t.modGraph f) := by
  unfold State.modGraph
  exact h.upd (by simp only [State.but, hm, cond_true, Bool.cond_self])

/-- What the words of a PARAM region bring in force changes no other part of the graph. -/
theorem enforce_rest (g : GImage) (r : GRegion) : ∀ (ws : List Word) (ofs : Nat) (s : State),
    Frame { graph := true } (fun _ => False) s (s.enforce g r ofs ws) ∧ (s.enforce g r ofs ws).pap = s.pap ∧
      (s.enforce g r ofs ws).graph.params = s.graph.params
  | [], _, s => ⟨.refl id s, rfl, rfl⟩
  | _ :: ws, ofs, s => by
    obtain ⟨frame, pap, params⟩ := enforce_rest g r ws (ofs + 1) (s.modGraph _)
    unfold State.enforce
    exact ⟨((Frame.refl id s).modGraph _).trans frame, pap.trans (modGraph_pap s _), params⟩

/-- The number of a new parameter write is above every earlier one. -/
theorem le_foldl_seq : ∀ (l : List ParamWrite) (m : Nat), m ≤ l.foldl (fun m w => max m w.seq) m ∧
    ∀ w ∈ l, w.seq ≤ l.foldl (fun m w => max m w.seq) m
  | [], m => ⟨Nat.le_refl m, fun _ h => absurd h List.not_mem_nil⟩
  | x :: l, m => by
    obtain ⟨base, each⟩ := le_foldl_seq l (max m x.seq)
    refine ⟨Nat.le_trans (Nat.le_max_left _ _) base, fun w mem => ?_⟩
    rcases List.mem_cons.1 mem with rfl | later
    · exact Nat.le_trans (Nat.le_max_right _ _) base
    · exact each w later

theorem graphParam_answers {p : Packet} {s : State} {g : GImage} {r : GRegion} (acc : Accepted cardGraphParam p s)
    (image : s.graph.image = some g) (region : g.regions.find? (fun r => r.id = pf p.payload 0 16 16 && r.cls = 1) = some r)
    (some' : 1 ≤ pf p.payload 1 0 7) (few : pf p.payload 1 0 7 ≤ 64) (len : p.payload.length = pf p.payload 1 0 7 + 2)
    (within : pf p.payload 0 0 16 + pf p.payload 1 0 7 ≤ r.len) :
    Answers (.graphParam p) cardGraphParam p s 0 0 [] fun t =>
      (∃ k, t.graph.params = s.graph.params ++ [⟨k, pf p.payload 0 16 16, pf p.payload 0 0 16, p.payload.drop 2, none⟩] ∧
        s.graph.pseq < k ∧ ∀ w ∈ s.graph.params, w.seq < k) ∧
      t.pap.cfggen = s.pap.cfggen + 1 ∧ Touches [] s t ∧ { s.over t with graph := s.graph } = s := by
  let a := s.admitted cardGraphParam p
  have whole : (p.payload.drop 2).take (pf p.payload 1 0 7) = p.payload.drop 2 :=
    List.take_of_length_le (by rw [List.length_drop, len]; omega)
  let k := s.graph.params.foldl (fun m w => max m w.seq) s.graph.pseq + 1
  let put := a.modGraph fun (q : Graph) =>
    { q with params := q.params ++ [⟨k, pf p.payload 0 16 16, pf p.payload 0 0 16, p.payload.drop 2, none⟩] }
  obtain ⟨frame, pap, params⟩ := enforce_rest g r (p.payload.drop 2) (pf p.payload 0 0 16) put
  have whole' : Frame { graph := true } (· ∈ ([] : List Nat)) s (put.enforce g r (pf p.payload 0 0 16) (p.payload.drop 2)) := by
    have first : Frame { graph := true } (fun _ => False) s put := (Frame.admitted id s _ p).modGraph _
    have both := first.trans frame
    exact ⟨by simp, both.regs.mono fun _ h => .inl (h.resolve_right id), both.bytes, both.poison, both.rest⟩
  obtain ⟨base, each⟩ := le_foldl_seq s.graph.params s.graph.pseq
  refine answers_of_configured (s1 := put.enforce g r (pf p.payload 0 0 16) (p.payload.drop 2)) rfl acc ?_ rfl rfl
    fun t but count => ⟨⟨k, ?_, Nat.lt_succ_of_le base, fun w mem => Nat.lt_succ_of_le (each w mem)⟩, ?_, (whole'.papol but).touches, ?_⟩
  · dsimp only
    rw [if_neg (by omega)]
    simp only [admitted_graph, image, region]
    rw [if_neg (by omega), whole]
    rfl
  · have same := congrArg (fun v : State => v.graph.params) but.rest
    refine Eq.trans same (params.trans ?_)
    show (s.admitted cardGraphParam p).graph.params ++ _ = _
    rw [admitted_graph]
  · rw [count, pap]
    exact congrArg (· + 1) (admitted_cfggen s _ p)
  · exact (whole'.papol but).rest

/-! ## Spares -/

/-- The registers of engine roles and domains. -/
def roleReg (a : Nat) : Prop := a = Reg.PWR_DOMSTAT ∨ ∃ n, n < 8 ∧ a = Reg.DSP_NE_STAT n

theorem roleReg_stat {n : Nat} (h : n < 8) : roleReg (Reg.DSP_NE_STAT n) := .inr ⟨n, h, rfl⟩

theorem not_roleReg {a : Nat} (h : 0x100200 ≤ a) : ¬ roleReg a := by
  rintro (rfl | ⟨n, lt, rfl⟩)
  · exact absurd h (by decide)
  · unfold Reg.DSP_NE_STAT at h; omega

section
variable {m : Parts} {R : Nat → Prop} {s t : State}

theorem Local.setRole (h : Local m R s t) {n r l : Nat} (stat : R (Reg.DSP_NE_STAT n)) : Local m R s (t.setRole n r l) :=
  ((h.wr (f := F.DSP_NE_STAT_ROLE n) stat).wr (f := F.DSP_NE_STAT_LENG n) stat).wr (f := F.DSP_NE_STAT_CLKON n) stat

theorem Local.domUp (h : Local m R s t) {d : Nat} (dom : R Reg.PWR_DOMSTAT) : Local m R s (t.domUp d) := h.set1 (f := domBit d) dom

theorem Local.foldl_mem {α : Type} {f : State → α → State} : ∀ {l : List α} {t : State},
    (∀ (x : State) (a : α), a ∈ l → Local m R s x → Local m R s (f x a)) → Local m R s t → Local m R s (l.foldl f t)
  | [], _, _, h => h
  | a :: l, t, hf, h => Local.foldl_mem (l := l) (fun x b mem => hf x b (List.mem_cons_of_mem a mem)) (hf t a List.mem_cons_self h)

theorem mem_indices {n i : Nat} {p : Nat → Bool} (h : i ∈ indices n p) : i < n := List.mem_range.1 (List.mem_of_mem_filter h)

end

/-- Spares are chosen again: roles and domains alone move, and SPMAP. -/
theorem respare_local (s : State) : ∃ t v, Local {} roleReg s t ∧ s.respare = t.wr F.DSP_SPARE_SPMAP v := by
  unfold State.respare
  dsimp only
  refine ⟨_, _, ?_, rfl⟩
  refine Local.foldl_mem (fun x n mem k => ?_) (.refl s)
  exact .ite ((k.setRole (roleReg_stat (mem_indices mem))).domUp (.inl rfl)) (k.setRole (roleReg_stat (mem_indices mem)))

theorem healthy_congr {s t : State} (h : ∀ n, n < 8 → t.role n = s.role n) {n : Nat} (lt : n < 8) : t.healthy n = s.healthy n := by
  unfold State.healthy; rw [h n lt]

/-- The registers of the DSP block but the rings' are steady. -/
theorem steady_dsp {a : Nat} (lo : 0x100000 ≤ a) (hi : a < 0x100400 ∨ 0x100440 ≤ a) : steady a = true :=
  decide_eq_true ⟨Nat.ne_of_gt (Nat.lt_of_lt_of_le (by decide) lo), Nat.ne_of_gt (Nat.lt_of_lt_of_le (by decide) lo), by omega⟩

theorem steady_engine {n o : Nat} (h : n < 8) (k : o < 0x40) : steady (0x100000 + o + 0x40 * n) = true :=
  steady_dsp (by omega) (by omega)

theorem admitted_role (s : State) (c : CmdSpec) (p : Packet) {n : Nat} (lt : n < 8) : (s.admitted c p).role n = s.role n :=
  rd_card s c p (steady_engine (o := 0) lt (by decide))

theorem admitted_occupied (s : State) (c : CmdSpec) (p : Packet) (n : Nat) : (s.admitted c p).occupied n = s.occupied n := by
  unfold State.occupied; rw [admitted_graph]

theorem admitted_unplaced (s : State) (c : CmdSpec) (p : Packet) : (s.admitted c p).unplaced = s.unplaced := by
  unfold State.unplaced indices
  congr 1
  refine List.filter_congr fun n mem => ?_
  rw [admitted_occupied, admitted_role s c p (List.mem_range.1 mem)]

theorem spareReserve_answers {p : Packet} {s : State} (acc : Accepted cardSpareReserve p s) (few : pf p.payload 0 0 3 ≤ 4)
    (floor : s.rd F.DSP_SPARE_FLOOR ≤ 4) (none : s.graph.image = none)
    (room : max (pf p.payload 0 0 3) (s.rd F.DSP_SPARE_FLOOR) ≤ s.unplaced) :
    let use := max (pf p.payload 0 0 3) (s.rd F.DSP_SPARE_FLOOR)
    Answers (.spareReserve p) cardSpareReserve p s (if use = pf p.payload 0 0 3 then stsOk else stsClamped)
      (if use = pf p.payload 0 0 3 then 0 else 1) [] fun t =>
      t.rd F.DSP_SPARE_RESERVE = use ∧ t.rd F.DSP_SPARE_FLOOR = s.rd F.DSP_SPARE_FLOOR ∧ t.graph = s.graph ∧
      Touches ([Reg.DSP_SPARE, Reg.PWR_DOMSTAT] ++ (List.range 8).map Reg.DSP_NE_STAT) s t := by
  intro use
  let a := s.admitted cardSpareReserve p
  let s1 := (a.wr F.DSP_SPARE_RESERVE use).respare
  obtain ⟨u, map, moved, chosen⟩ := respare_local (a.wr F.DSP_SPARE_RESERVE use)
  have small : use < 2 ^ F.DSP_SPARE_RESERVE.width := by
    show max _ _ < 16
    omega
  have frame : Frame {} (· ∈ [Reg.DSP_SPARE, Reg.PWR_DOMSTAT] ++ (List.range 8).map Reg.DSP_NE_STAT) s s1 := by
    have away : ¬ Reg.PWR_STATE ∈ [Reg.DSP_SPARE, Reg.PWR_DOMSTAT] ++ (List.range 8).map Reg.DSP_NE_STAT := by decide
    have reserved := (Frame.admitted (m := {}) away s cardSpareReserve p).wr (f := F.DSP_SPARE_RESERVE) (v := use)
      (List.mem_append_left _ List.mem_cons_self)
    have roles : ∀ b, roleReg b → b ∈ [Reg.DSP_SPARE, Reg.PWR_DOMSTAT] ++ (List.range 8).map Reg.DSP_NE_STAT := by
      rintro b (rfl | ⟨n, lt, rfl⟩)
      · decide
      · exact List.mem_append_right _ (List.mem_map_of_mem (List.mem_range.2 lt))
    show Frame _ _ s (State.respare _)
    rw [chosen]
    exact ((moved.mono roles).within reserved).wr (List.mem_append_left _ List.mem_cons_self)
  have spare : ∀ f : Field, f.addr = Reg.DSP_SPARE → Field.apart F.DSP_SPARE_SPMAP f = true → s1.rd f = (a.wr F.DSP_SPARE_RESERVE use).rd f :=
    fun f addr apart => by
      show (State.respare _).rd f = _
      rw [chosen, State.rd_wr_off _ _ apart, moved.rd (not_roleReg (by rw [addr]; decide))]
  have inForce : s1.rd F.DSP_SPARE_RESERVE = use := by
    rw [spare _ rfl (by decide), State.rd_wr_fits _ (by decide) small]
  have kept : s1.rd F.DSP_SPARE_FLOOR = s.rd F.DSP_SPARE_FLOOR := by
    rw [spare _ rfl (by decide), State.rd_wr_off _ _, rd_card]
  have holds : ∀ t, PapolBut papolReg (papolByte s1) s1 t → t.rd F.DSP_SPARE_RESERVE = use ∧
      t.rd F.DSP_SPARE_FLOOR = s.rd F.DSP_SPARE_FLOOR ∧ t.graph = s.graph ∧
      Touches ([Reg.DSP_SPARE, Reg.PWR_DOMSTAT] ++ (List.range 8).map Reg.DSP_NE_STAT) s t := fun t but =>
    ⟨but.rd_steady.trans inForce, but.rd_steady.trans kept, (frame.papol but).graph, (frame.papol but).touches⟩
  refine answers_of_done (s1 := s1) (cl := if use = pf p.payload 0 0 3 then [] else [⟨0xF, 1, 0, use⟩]) rfl acc ?_ holds
  have floor' : a.rd F.DSP_SPARE_FLOOR = s.rd F.DSP_SPARE_FLOOR := rd_card s _ p
  dsimp only
  rw [admitted_graph, none]
  dsimp only
  rw [floor', if_neg (by omega), if_neg (by rw [admitted_unplaced]; omega), if_neg (by decide)]
  by_cases same : max (pf p.payload 0 0 3) (s.rd F.DSP_SPARE_FLOOR) = pf p.payload 0 0 3
  · rw [if_pos same, if_pos same, if_pos same]
    rfl
  · rw [if_neg same, if_neg same, if_neg same]
    rfl

theorem engineStatus_answers {p : Packet} {s : State} (acc : Accepted cardEngineStatus p s) : let n := pf p.payload 0 0 3
    ∃ ws, ws.take 5 = [s.reg (Reg.DSP_NE_STAT n), s.reg (Reg.DSP_NE_LOAD n), s.reg (Reg.DSP_NE_FCNT n), s.reg (Reg.DSP_NE_BLK_LO n),
        s.reg (Reg.DSP_NE_BLK_HI n)] ∧ ws.length = 12 ∧ Answers (.engineStatus p) cardEngineStatus p s 0 0 ws fun t =>
      (pb p.payload 0 31 = false → PapolBut papolReg (papolByte s) s t) ∧
      (pb p.payload 0 31 = true → t.reg (Reg.DSP_NE_STAT n) = s.reg (Reg.DSP_NE_STAT n) &&& 0xFFFFFF07 ∧
        t.rd (F.DSP_NE_LOAD_PEAK n) = 0 ∧ Touches [Reg.DSP_NE_STAT n, Reg.DSP_NE_LOAD n] s t ∧ s.over t = s) := by
  intro n
  have lt : n < 8 := bits_lt _ 0 3
  let a := s.admitted cardEngineStatus p
  have same : ∀ o, o < 0x40 → a.reg (0x100000 + o + 0x40 * n) = s.reg (0x100000 + o + 0x40 * n) := fun o h =>
    reg_card s _ p (steady_engine lt h)
  let cleared := (a.setReg (Reg.DSP_NE_STAT n) (a.reg (Reg.DSP_NE_STAT n) &&& 0xFFFFFF07)).wr (F.DSP_NE_LOAD_PEAK n) 0
  let s1 := if pb p.payload 0 31 then cleared else a
  have frame : Frame {} (· ∈ [Reg.DSP_NE_STAT n, Reg.DSP_NE_LOAD n]) s cleared := by
    have away : ¬ Reg.PWR_STATE ∈ [Reg.DSP_NE_STAT n, Reg.DSP_NE_LOAD n] := by
      simp only [Reg.PWR_STATE, Reg.DSP_NE_STAT, Reg.DSP_NE_LOAD, List.mem_cons, List.not_mem_nil, or_false]
      omega
    exact ((Frame.admitted (m := {}) away s _ p).setReg (by simp)).wr (f := F.DSP_NE_LOAD_PEAK n)
      (List.mem_cons_of_mem _ List.mem_cons_self)
  have stat : cleared.reg (Reg.DSP_NE_STAT n) = s.reg (Reg.DSP_NE_STAT n) &&& 0xFFFFFF07 := by
    have other : Reg.DSP_NE_STAT n ≠ (F.DSP_NE_LOAD_PEAK n).addr := show 0x100000 + 0x40 * n ≠ 0x100004 + 0x40 * n by omega
    show (State.setReg _ _ _).reg _ = _
    rw [State.reg_setReg_ne _ _ other, State.reg_setReg_same]
    exact congrArg (· &&& 0xFFFFFF07) (same 0 (by decide))
  have peak : cleared.rd (F.DSP_NE_LOAD_PEAK n) = 0 := State.rd_wr_fits _ (show 16 + 16 ≤ 32 by decide) (show 0 < 2 ^ 16 by decide)
  refine ⟨_, ?_, ?_, answers_of_done (s1 := s1) (cl := []) rfl acc rfl fun t but => ⟨fun keep => ?_, fun clear => ?_⟩⟩
  · exact congrArg₂ List.cons (same 0 (by decide)) (congrArg₂ List.cons (same 4 (by decide)) (congrArg₂ List.cons (same 8 (by decide))
      (congrArg₂ List.cons (same 16 (by decide)) (congrArg₂ List.cons (same 20 (by decide)) rfl))))
  · rfl
  · have plain : s1 = a := if_neg (by rw [keep]; decide)
    rw [plain] at but
    exact (Frame.papol (Frame.admitted id s _ p) but).papolBut
  · have done : s1 = cleared := if_pos clear
    rw [done] at but
    exact ⟨((Frame.papol (Frame.refl (m := {}) (R := fun _ => False) id cleared) but).reg_steady id (steady_engine (o := 0) lt (by decide))).trans stat,
      (but.rd_steady (steady_engine (o := 4) lt (by decide))).trans peak, (frame.papol but).touches, (frame.papol but).rest⟩

/-- Settles O26: the cards' results read off the definitions; only roles, domains and SPMAP follow a new RESERVE. -/
theorem graphParametersSparesAndStatus : Obligations.GraphParametersSparesAndStatus := fun _ _ =>
  ⟨fun _ _ acc image region some' few len within => graphParam_answers acc image region some' few len within,
    fun acc few floor none room => spareReserve_answers acc few floor none room, engineStatus_answers⟩

/-! ## Status -/

end Sys2Proof.Machine
end

section
/-!
# Starting and stopping a graph (spec/06_engines_leap.md, R311, R312)
-/

namespace Sys2Proof.Machine

-- One theorem after the other: in one text, theorems that wait for the kernel would each hold a thread.
set_option Elab.async false

theorem foldl_same {α β : Type} {f : State → α → State} (v : State → β) (same : ∀ x a, v (f x a) = v x) (l : List α) (s : State) :
    v (l.foldl f s) = v s := by
  induction l generalizing s with
  | nil => rfl
  | cons a l ih => exact (ih (f s a)).trans (same s a)

theorem admitted_pstate (s : State) (c : CmdSpec) (p : Packet) : (s.admitted c p).pstate = s.pstate := rd_card s c p

theorem admitted_gstate (s : State) (c : CmdSpec) (p : Packet) : (s.admitted c p).gstate = s.gstate := rd_card s c p

theorem admitted_graphRuns (s : State) (c : CmdSpec) (p : Packet) : (s.admitted c p).graphRuns = s.graphRuns := by
  unfold State.graphRuns; rw [admitted_gstate]

theorem setGstate_gstate (s : State) {n : Nat} (h : n < 16) : (s.setGstate n).gstate = n := State.rd_wr_fits s (by decide) h

/-- No pending command addresses the targets at the card either. -/
theorem admitted_pendFor (s : State) (c : CmdSpec) (p : Packet) (ts : List Target) : (s.admitted c p).pendFor? ts = s.pendFor? ts := by
  unfold State.pendFor?; rw [admitted_slots]

theorem unlessBusy_none {s : State} {ts : List Target} {k : Res} (h : s.pendFor? ts = none) : s.unlessBusy ts k = k := by
  unfold State.unlessBusy; rw [h]

/-! ## What a change of the graph's state leaves alone -/

/-- A part of the graph and GSTATE change, and nothing else. -/
def State.graphTo (s : State) (f : Graph → Graph) (n : Nat) : State := (s.modGraph f).setGstate n

theorem graphTo_pap (s : State) (f : Graph → Graph) (n : Nat) : (s.graphTo f n).pap = s.pap := by
  unfold State.graphTo State.setGstate
  rw [State.wr_pap, modGraph_pap]

theorem graphTo_graph (s : State) (f : Graph → Graph) (n : Nat) : (s.graphTo f n).graph = f s.graph := by
  unfold State.graphTo State.setGstate
  rw [State.wr_graph]
  rfl

theorem graphTo_gstate (s : State) (f : Graph → Graph) {n : Nat} (h : n < 16) : (s.graphTo f n).gstate = n := setGstate_gstate _ h

theorem modGraph_graph (s : State) (f : Graph → Graph) : (s.modGraph f).graph = f s.graph := rfl

theorem modGraph_reg (s : State) (f : Graph → Graph) (a : Nat) : (s.modGraph f).reg a = s.reg a := rfl

theorem modGraph_gstate (s : State) (f : Graph → Graph) : (s.modGraph f).gstate = s.gstate := rfl

theorem Frame.graphTo {m : Parts} {R : Nat → Prop} {s t : State} (h : Frame m R s t) (f : Graph → Graph) (n : Nat)
    (hm : m.graph = true := by rfl) (stat : R Reg.DSP_GRAPH_STAT := by exact List.mem_singleton.2 rfl) : Frame m R s (t.graphTo f n) :=
  (h.modGraph f hm).wr (f := F.DSP_GRAPH_STAT_GSTATE) stat

/-- What a card that moves the graph alone leaves behind. -/
theorem graphTo_holds {s u : State} {c : CmdSpec} {p : Packet} (f : Graph → Graph) {n : Nat} (h : n < 16)
    (but : PapolBut papolReg (papolByte ((s.admitted c p).graphTo f n)) ((s.admitted c p).graphTo f n) u) :
    u.gstate = n ∧ u.graph = f s.graph ∧ Touches [Reg.DSP_GRAPH_STAT] s u ∧ { s.over u with graph := s.graph } = s := by
  have frame : Frame { graph := true } (· ∈ [Reg.DSP_GRAPH_STAT]) s ((s.admitted c p).graphTo f n) :=
    (Frame.admitted (by decide) s c p).graphTo f n
  have graph := congrArg State.graph but.rest
  refine ⟨but.rd_steady.trans (graphTo_gstate _ f h), graph.trans ?_, (frame.papol but).touches, (frame.papol but).rest⟩
  rw [graphTo_graph, admitted_graph]

/-! ## Start -/

theorem graphStart_answers {p : Packet} {s : State} {g : GImage} (acc : Accepted cardGraphStart p s) (image : s.graph.image = some g)
    (alive : s.graph.dead = false) (loaded : s.gstate = gsLoaded) (idle : s.pstate = stIdle) (free : s.pendFor? [.graph] = none) :
    Answers (.graphStart p) cardGraphStart p s 0 0 [] fun t =>
      t.gstate = gsArmed ∧ t.graph.countdown = none ∧ Touches [Reg.DSP_GRAPH_STAT] s t ∧ { s.over t with graph := s.graph } = s := by
  refine answers_of_done (s1 := (s.admitted cardGraphStart p).graphTo (fun q => { q with countdown := none }) gsArmed) (cl := []) rfl acc ?_
    fun t but => ?_
  · refine (unlessBusy_none (by rw [admitted_pendFor, free])).trans ?_
    rw [admitted_graph, image, alive, admitted_gstate, loaded, admitted_pstate, idle]
    rfl
  · obtain ⟨state, graph, keeps⟩ := graphTo_holds _ (by decide) but
    exact ⟨state, by rw [graph], keeps⟩

theorem graphStart_awaits {p : Packet} {s : State} {g : GImage} (acc : Accepted cardGraphStart p s) (image : s.graph.image = some g)
    (alive : s.graph.dead = false) (loaded : s.gstate = gsLoaded) (play : s.pstate = stPlay) (free : Free s [.graph]) :
    Awaits (.graphStart p) cardGraphStart p s [] [.graph] fun t =>
      t.gstate = gsArmed ∧ t.graph.countdown = some (pf p.payload 0 0 8) ∧ Touches [Reg.DSP_GRAPH_STAT] s t ∧
        { s.over t with graph := s.graph } = s := by
  let s1 := (s.admitted cardGraphStart p).graphTo (fun q => { q with countdown := some (pf p.payload 0 0 8) }) gsArmed
  have slot : s1.freeSlot? ≠ none := by
    unfold State.freeSlot?
    rw [graphTo_pap]
    exact (admitted_free free).2
  refine awaits_of_pend (s1 := s1) rfl acc ?_ slot fun t but => ?_
  · refine (unlessBusy_free (admitted_free free)).trans ?_
    rw [admitted_graph, image, alive, admitted_gstate, loaded, admitted_pstate, play]
    rfl
  · obtain ⟨state, graph, keeps⟩ := graphTo_holds _ (by decide) but
    exact ⟨state, by rw [graph], keeps⟩

/-! ## Stop -/

theorem ends_pap (s : State) (region code sub unit : Nat) : (s.ends region code sub unit).pap = s.pap := by
  unfold State.ends State.level
  dsimp only
  split
  · rfl
  · rw [State.wr_pap]

theorem ends_graph (s : State) (region code sub unit : Nat) : (s.ends region code sub unit).graph = s.graph := by
  unfold State.ends State.level
  dsimp only
  split
  · rfl
  · rw [State.wr_graph]

/-- A running graph that stops: GSTATE stops, its periods and recoveries end. -/
theorem stopRunning_eq {s : State} {g : GImage} (image : s.graph.image = some g) (unload rearm : Bool) :
    ∃ u : State, u.pap = s.pap ∧ u.graph = s.graph ∧ s.stopRunning unload rearm = u.graphTo (fun (q : Graph) =>
      { q with recs := [], tick := none, molt := none, molting := false, unload := unload, rearm := rearm }) gsStopping := by
  unfold State.stopRunning
  rw [image]
  refine ⟨_, ?_, ?_, rfl⟩
  · rw [foldl_same State.pap, foldl_same State.pap]
    · exact fun x r => ends_pap x _ _ _ _
    · exact fun x q => State.clr_pap _ _
  · rw [foldl_same State.graph, foldl_same State.graph]
    · exact fun x r => ends_graph x _ _ _ _
    · exact fun x q => State.clr_graph _ _

theorem graphStop_awaits {p : Packet} {s : State} {g : GImage} (acc : Accepted (cardGraphStop (pb p.payload 0 0)) p s)
    (image : s.graph.image = some g) (running : s.graphRuns = true) (free : Free s [.graph]) :
    Awaits (.graphStop p) (cardGraphStop (pb p.payload 0 0)) p s [] [.graph] fun t =>
      t.gstate = gsStopping ∧ t.graph.tick = none ∧ t.graph.recs = [] ∧ t.graph.unload = pb p.payload 0 0 ∧ t.graph.image = some g := by
  let a := s.admitted (cardGraphStop (pb p.payload 0 0)) p
  have image' : a.graph.image = some g := (congrArg Graph.image (admitted_graph s _ p)).trans image
  obtain ⟨u, pap, graph, stop⟩ := stopRunning_eq image' (pb p.payload 0 0) false
  have slot : (a.stopRunning (pb p.payload 0 0) false).freeSlot? ≠ none := by
    unfold State.freeSlot?
    rw [stop, graphTo_pap, pap]
    exact (admitted_free free).2
  refine awaits_of_pend (s1 := a.stopRunning (pb p.payload 0 0) false) rfl acc ?_ slot fun t but => ?_
  · refine (unlessBusy_free (admitted_free free)).trans ?_
    rw [image']
    refine (if_neg Bool.false_ne_true).trans (if_pos ?_)
    rw [admitted_graphRuns, running]
  · have all := congrArg State.graph but.rest
    have now : t.graph = { s.graph with recs := [], tick := none, molt := none, molting := false, unload := pb p.payload 0 0, rearm := false } := by
      refine Eq.trans all ?_
      rw [stop, graphTo_graph, graph, admitted_graph]
    have state : t.gstate = gsStopping := by
      refine but.rd_steady.trans ?_
      rw [stop]
      exact graphTo_gstate _ _ (by decide)
    exact ⟨state, by rw [now], by rw [now], by rw [now], by rw [now, image]⟩

theorem dropRings_pap (s : State) (rs : List GRing) : (s.dropRings rs).pap = s.pap :=
  foldl_same State.pap (fun x q => by dsimp only; rw [State.wr_pap, State.wr_pap, State.setReg_pap, State.setReg_pap]) rs s

/-- An unloaded graph: image, logical engines and read points are gone, its registers 0, the engines free. -/
theorem unloadGraph_eq {s : State} {g : GImage} (image : s.graph.image = some g) :
    ∃ u : State, u.pap = s.pap ∧ u.graph.image = none ∧ u.graph.les = [] ∧ u.graph.flow = false ∧
      s.unloadGraph = (((u.setReg Reg.DSP_GRAPH_STAT 0).setReg Reg.DSP_GRAPH_ID 0).wr64 Reg.DSP_GRAPH_BLK_LO 0).respare := by
  unfold State.unloadGraph
  rw [image]
  refine ⟨_, ?_, ?_, ?_, ?_, rfl⟩
  · rw [modGraph_pap, foldl_same State.pap, dropRings_pap]
    exact fun x q => State.setReg_pap _ _ _
  all_goals rfl

/-- What a graph that is unloaded leaves behind. -/
theorem unloadGraph_gone {s : State} {g : GImage} (image : s.graph.image = some g) :
    let t := s.unloadGraph
    t.pap = s.pap ∧ t.graph.image = none ∧ t.graph.les = [] ∧ t.graph.flow = false ∧ t.reg Reg.DSP_GRAPH_STAT = 0 ∧
      t.reg Reg.DSP_GRAPH_ID = 0 := by
  intro t
  obtain ⟨u, pap, none, les, flow, gone⟩ := unloadGraph_eq image
  obtain ⟨v, map, moved, chosen⟩ := respare_local (((u.setReg Reg.DSP_GRAPH_STAT 0).setReg Reg.DSP_GRAPH_ID 0).wr64 Reg.DSP_GRAPH_BLK_LO 0)
  have eq : t = v.wr F.DSP_SPARE_SPMAP map := gone.trans chosen
  have graph : t.graph = u.graph := by rw [eq, State.wr_graph, moved.part State.graph]; simp only [State.wr64_graph, State.setReg_graph]
  have reg : ∀ a, 0x100200 ≤ a → a < 0x100208 → t.reg a =
      ((u.setReg Reg.DSP_GRAPH_STAT 0).setReg Reg.DSP_GRAPH_ID 0).reg a := fun a lo hi => by
    have spare : a ≠ F.DSP_SPARE_SPMAP.addr := Nat.ne_of_lt (Nat.lt_trans hi (by decide))
    have low : a ≠ Reg.DSP_GRAPH_BLK_LO := Nat.ne_of_lt hi
    have high : a ≠ Reg.DSP_GRAPH_BLK_LO + 4 := Nat.ne_of_lt (Nat.lt_trans hi (by decide))
    rw [eq]
    unfold State.wr
    rw [State.reg_setReg_ne _ _ spare, moved.regs _ (not_roleReg lo)]
    unfold State.wr64
    rw [State.reg_setReg_ne _ _ high, State.reg_setReg_ne _ _ low]
  refine ⟨?_, by rw [graph, none], by rw [graph, les], by rw [graph, flow], ?_, ?_⟩
  · rw [eq, State.wr_pap, moved.pap, State.wr64_pap, State.setReg_pap, State.setReg_pap, pap]
  · rw [reg _ (by decide) (by decide), State.reg_setReg_ne _ _ (by decide), State.reg_setReg_same]
  · rw [reg _ (by decide) (by decide), State.reg_setReg_same]

theorem gstate_zero {s : State} (h : s.reg Reg.DSP_GRAPH_STAT = 0) : s.gstate = gsNone := by
  unfold State.gstate State.rd
  exact (congrArg (fun w => bits w 28 4) h).trans (by decide)

theorem graphStop_answers {p : Packet} {s : State} {g : GImage} (acc : Accepted (cardGraphStop (pb p.payload 0 0)) p s)
    (image : s.graph.image = some g) (loaded : s.gstate = gsLoaded) (free : s.pendFor? [.graph] = none) :
    Answers (.graphStop p) (cardGraphStop (pb p.payload 0 0)) p s 0 0 [] fun t =>
      (pb p.payload 0 0 = true → t.graph.image = none ∧ t.gstate = gsNone ∧ t.graph.les = [] ∧ t.reg Reg.DSP_GRAPH_ID = 0) ∧
      (pb p.payload 0 0 = false → t.graph.image = some g ∧ t.gstate = gsLoaded ∧ Touches [Reg.DSP_GRAPH_STAT] s t ∧
        { s.over t with graph := s.graph } = s) := by
  let a := s.admitted (cardGraphStop (pb p.payload 0 0)) p
  have image' : a.graph.image = some g := (congrArg Graph.image (admitted_graph s _ p)).trans image
  have runs : ¬ a.graphRuns = true := by
    rw [admitted_graphRuns]
    unfold State.graphRuns
    rw [loaded]
    decide
  let kept := a.graphTo (fun q => { q with countdown := none, rearm := false }) gsLoaded
  refine answers_of_done (s1 := if pb p.payload 0 0 then a.unloadGraph else kept) (cl := []) rfl acc ?_ fun t but =>
    ⟨fun unload => ?_, fun keep => ?_⟩
  · refine (unlessBusy_none (by rw [admitted_pendFor, free])).trans ?_
    rw [image']
    refine (if_neg Bool.false_ne_true).trans ((if_neg runs).trans ?_)
    split
    · rfl
    · rfl
  · rw [if_pos unload] at but
    obtain ⟨-, none, les, -, stat, id'⟩ := unloadGraph_gone image'
    have graph := congrArg State.graph but.rest
    have graph' : t.graph = a.unloadGraph.graph := graph
    have same := Frame.papol (Frame.refl (m := {}) (R := fun _ => False) id a.unloadGraph) but
    exact ⟨by rw [graph', none], gstate_zero ((same.reg_steady id).trans stat), by rw [graph', les], (same.reg_steady id).trans id'⟩
  · rw [if_neg (by rw [keep]; decide)] at but
    obtain ⟨state, graph, keeps⟩ := graphTo_holds _ (by decide) but
    exact ⟨by rw [graph, image], state, keeps⟩

/-! ## The end of a stop -/

theorem finishFor_eq (s : State) (tg : Target) (op st : Nat) (ws : List Word) :
    s.finishFor tg op st ws = (match s.workFor? tg op with | some e => s.finish e st 0 ws [] | none => s) := rfl

/-- The command of a target ends, whatever was done before without touching the commands. -/
theorem finishFor_ended {s u : State} (kept : PapolKept s u) (tg : Target) (op st : Nat) (ws : List Word) :
    Ended (s.workFor? tg op) st s (u.finishFor tg op st ws) := by
  obtain ⟨replies, slots, run⟩ := kept
  have same : u.workFor? tg op = s.workFor? tg op := by unfold State.workFor?; rw [slots]
  rw [finishFor_eq, same]
  cases s.workFor? tg op with
  | none => exact fun _ => slots
  | some e => exact finish_ended ⟨replies, slots, run⟩ _ _ _ _ _

/-- The graph as a stop leaves it, before its command ends. -/
def State.stopped (s : State) : State :=
  (if s.graph.unload then s.unloadGraph else s.setGstate (if s.graph.rearm then gsArmed else gsLoaded)).modGraph
    fun (q : Graph) => { q with unload := false }

theorem graphStopDone_eq {s : State} {g : GImage} (image : s.graph.image = some g) (stopping : s.gstate = gsStopping)
    (played : s.playedOut g = true) : exec .graphStopDone s = .next (s.stopped.finishFor .graph 0x202 stsOk []) := by
  show execGraphStopDone s = _
  unfold execGraphStopDone
  rw [image]
  exact if_neg (by rw [stopping, played]; decide)

theorem stopped_pap {s : State} {g : GImage} (image : s.graph.image = some g) : s.stopped.pap = s.pap := by
  obtain ⟨pap, -⟩ := unloadGraph_gone image
  unfold State.stopped
  rw [modGraph_pap]
  split
  · exact pap
  · exact State.wr_pap _ _ _

theorem graphStopDone_ends {s : State} {g : GImage} (image : s.graph.image = some g) (stopping : s.gstate = gsStopping)
    (played : s.playedOut g = true) : ∃ t, exec .graphStopDone s = .next t ∧ Ended (s.workFor? .graph 0x202) stsOk s t ∧
      (s.graph.unload = true → t.graph.image = none ∧ t.gstate = gsNone ∧ t.graph.flow = false) ∧
      (s.graph.unload = false → t.graph.image = some g ∧ t.graph.flow = s.graph.flow ∧
        t.gstate = if s.graph.rearm then gsArmed else gsLoaded) := by
  have last := Frame.finishFor (Frame.refl (m := {}) (R := fun _ => False) id s.stopped) (tg := .graph) (op := 0x202) (st := stsOk) (ws := [])
  refine ⟨_, graphStopDone_eq image stopping played, finishFor_ended (.of_pap (stopped_pap image)) _ _ _ _, fun unload => ?_, fun keep => ?_⟩
  · obtain ⟨-, none, -, flow, stat, -⟩ := unloadGraph_gone image
    have eq : s.stopped = s.unloadGraph.modGraph fun (q : Graph) => { q with unload := false } := by
      unfold State.stopped; rw [if_pos unload]
    have graph : s.stopped.graph = { s.unloadGraph.graph with unload := false } := by rw [eq, modGraph_graph]
    have same : s.stopped.reg Reg.DSP_GRAPH_STAT = 0 := by rw [eq, modGraph_reg, stat]
    exact ⟨by rw [last.graph, graph, none], gstate_zero ((last.reg_steady id).trans same), by rw [last.graph, graph, flow]⟩
  · have eq : s.stopped = (s.setGstate (if s.graph.rearm then gsArmed else gsLoaded)).modGraph
        fun (q : Graph) => { q with unload := false } := by
      unfold State.stopped; rw [if_neg (by rw [keep]; decide)]
    have graph : s.stopped.graph = { s.graph with unload := false } := by
      rw [eq, modGraph_graph]
      unfold State.setGstate
      rw [State.wr_graph]
    have state : s.stopped.gstate = if s.graph.rearm then gsArmed else gsLoaded := by
      rw [eq, modGraph_gstate, setGstate_gstate]
      split <;> decide
    exact ⟨by rw [last.graph, graph, image], by rw [last.graph, graph], (last.rd_steady id).trans state⟩

/-- Settles O25: start and stop move GSTATE and the graph's own record; a stop that unloads also clears its registers. -/
theorem graphStartsAndStops : Obligations.GraphStartsAndStops := fun _ _ _ image =>
  ⟨fun acc alive loaded => ⟨graphStart_answers acc image alive loaded, graphStart_awaits acc image alive loaded⟩,
    fun acc => ⟨graphStop_awaits acc image, graphStop_answers acc image⟩, graphStopDone_ends image⟩

end Sys2Proof.Machine
end

section
/-!
# The gate of the wake buffer, and the wake detector (spec/11_inputs_wake.md, R535 to R550, R564)
-/

namespace Sys2Proof.Machine

-- One theorem after the other: in one text, theorems that wait for the kernel would each hold a thread.
set_option Elab.async false

/-! ## 64-bit registers -/

theorem State.rd64_wr64_mod (s : State) (a v : Nat) : (s.wr64 a v).rd64 a = v % 2 ^ 64 := by
  unfold State.rd64 State.wr64
  rw [State.reg_setReg_ne _ _ (by omega : a ≠ a + 4), State.reg_setReg_same, State.reg_setReg_same, BitVec.toNat_ofNat,
    BitVec.toNat_ofNat]
  omega

theorem State.reg_wr64_ne (s : State) {a b : Nat} (v : Nat) (lo : b ≠ a) (hi : b ≠ a + 4) : (s.wr64 a v).reg b = s.reg b := by
  unfold State.wr64
  rw [State.reg_setReg_ne _ _ hi, State.reg_setReg_ne _ _ lo]

theorem State.rd64_congr {s t : State} {a : Nat} (lo : t.reg a = s.reg a) (hi : t.reg (a + 4) = s.reg (a + 4)) : t.rd64 a = s.rd64 a := by
  unfold State.rd64; rw [lo, hi]

theorem State.rd64_wr64_ne (s : State) {a b : Nat} (v : Nat) (h : a + 8 ≤ b ∨ b + 8 ≤ a) : (s.wr64 a v).rd64 b = s.rd64 b :=
  State.rd64_congr (State.reg_wr64_ne s v (by omega) (by omega)) (State.reg_wr64_ne s v (by omega) (by omega))

theorem State.rd64_wr_ne (s : State) {f : Field} {b : Nat} (v : Nat) (lo : b ≠ f.addr) (hi : b + 4 ≠ f.addr) :
    (s.wr f v).rd64 b = s.rd64 b := State.rd64_congr (State.reg_setReg_ne s _ lo) (State.reg_setReg_ne s _ hi)

theorem State.rd_wr64_ne (s : State) {f : Field} {a : Nat} (v : Nat) (lo : f.addr ≠ a) (hi : f.addr ≠ a + 4) :
    (s.wr64 a v).rd f = s.rd f := by
  unfold State.rd; rw [State.reg_wr64_ne s v lo hi]

theorem State.rd64_lt (s : State) (a : Nat) : s.rd64 a < 2 ^ 64 := by
  unfold State.rd64
  have := (s.reg a).isLt
  have := (s.reg (a + 4)).isLt
  omega

theorem Frame.rd64_steady {m : Parts} {R : Nat → Prop} {s t : State} (h : Frame m R s t) {a : Nat} (lo : ¬ R a) (hi : ¬ R (a + 4))
    (k : steady a = true := by decide) (k4 : steady (a + 4) = true := by decide) : t.rd64 a = s.rd64 a :=
  State.rd64_congr (h.reg_steady lo k) (h.reg_steady hi k4)

theorem PapolBut.rd64_steady {s t : State} {q : Nat → Prop} (h : PapolBut papolReg q s t) {a : Nat}
    (k : steady a = true := by decide) (k4 : steady (a + 4) = true := by decide) : t.rd64 a = s.rd64 a := by
  obtain ⟨papol, clock⟩ := of_steady k
  obtain ⟨papol4, clock4⟩ := of_steady k4
  exact State.rd64_congr (h.regs.reg papol clock) (h.regs.reg papol4 clock4)

theorem rd64_card (s : State) (c : CmdSpec) (p : Packet) {a : Nat} (k : steady a = true := by decide)
    (k4 : steady (a + 4) = true := by decide) : (s.admitted c p).rd64 a = s.rd64 a :=
  State.rd64_congr (reg_card s c p k) (reg_card s c p k4)

/-- A local operation leaves memory, poison and Papol's state exactly. -/
theorem Local.exact {m : Parts} {R : Nat → Prop} {s t : State} (h : Local m R s t) :
    { s.but m t with mem := t.mem, poison := t.poison, pap := t.pap } = s := by
  rw [h.mem, h.poison, h.pap]
  exact h.rest

/-! ## The gate -/

theorem modTad_rd (s : State) (f : Tad → Tad) (g : Field) : (s.modTad f).rd g = s.rd g := rfl
theorem modTad_rd64 (s : State) (f : Tad → Tad) (a : Nat) : (s.modTad f).rd64 a = s.rd64 a := rfl
theorem modTad_tad (s : State) (f : Tad → Tad) : (s.modTad f).tad = f s.tad := rfl
theorem modTad_pap (s : State) (f : Tad → Tad) : (s.modTad f).pap = s.pap := rfl
theorem modTad_wkd (s : State) (f : Tad → Tad) : (s.modTad f).wkd = s.wkd := rfl
theorem modTad_now (s : State) (f : Tad → Tad) : (s.modTad f).now = s.now := rfl
theorem modTad_gate (s : State) (f : Tad → Tad) : (s.modTad f).gate = s.gate := rfl
theorem modTad_strs (s : State) (f : Tad → Tad) : (s.modTad f).strs = s.strs := rfl

/-- The registers of the gate: its state, GSTART and GOPEN. -/
def gateRegs : List Nat := Reg.IN_TAD_STAT :: (List.range 4).map fun k => Reg.IN_TAD_GSTART_LO + 4 * k

section
variable {m : Parts} {R : Nat → Prop} {s t : State}

theorem Frame.modTad (h : Frame m R s t) (f : Tad → Tad) (hm : m.tad = true := by rfl) : Frame m R s (t.modTad f) := by
  unfold State.modTad
  exact h.upd (by simp only [State.but, hm, cond_true, Bool.cond_self])

theorem Frame.raiseWake (h : Frame m R s t) {w : Word} {d : Nat} : Frame m R s (t.raiseWake w d) := h.raise

theorem Frame.openAt (h : Frame m R s t) {start d : Nat} {w : Word} (regs : ∀ a ∈ gateRegs, R a) (hm : m.tad = true := by rfl) :
    Frame m R s (t.openAt start d w) := by
  have put : Frame m R s _ := ((h.wr64 (a := Reg.IN_TAD_GSTART_LO) (v := start) (regs _ (by decide)) (regs _ (by decide))).wr64
    (a := Reg.IN_TAD_GOPEN_LO) (v := t.rd64 Reg.IN_TAD_WIDX_LO) (regs _ (by decide)) (regs _ (by decide))).wr
    (f := F.IN_TAD_STAT_GATE) (v := gtOpen) (regs _ (by decide))
  exact (put.modTad _ hm).raiseWake

end

theorem Local.modTad {m : Parts} {R : Nat → Prop} {s t : State} (h : Local m R s t) (f : Tad → Tad) (hm : m.tad = true := by rfl) :
    Local m R s (t.modTad f) := by
  unfold State.modTad
  exact h.upd (by simp only [State.but, hm, cond_true, Bool.cond_self])

/-- What the gate shows once it is open from `start`. -/
theorem openAt_shows (s : State) (start d : Nat) (w : Word) :
    let t := s.openAt start d w
    t.gate = gtOpen ∧ t.tad.timer = some s.now ∧ t.tad.tidx = s.tad.tidx ∧ t.rd64 Reg.IN_TAD_GSTART_LO = start % 2 ^ 64 ∧
      t.rd64 Reg.IN_TAD_GOPEN_LO = s.rd64 Reg.IN_TAD_WIDX_LO := by
  intro t
  let u := (((s.wr64 Reg.IN_TAD_GSTART_LO start).wr64 Reg.IN_TAD_GOPEN_LO (s.rd64 Reg.IN_TAD_WIDX_LO)).wr F.IN_TAD_STAT_GATE gtOpen).modTad
    fun t => { t with timer := some s.now, opens := none }
  have last : Frame {} (fun _ => False) u t := (Frame.refl id u).raiseWake
  have tad : t.tad = { s.tad with timer := some s.now, opens := none } := by
    rw [last.tad, modTad_tad, State.wr_tad, State.wr64_tad, State.wr64_tad]
  refine ⟨?_, by rw [tad], by rw [tad], ?_, ?_⟩
  · refine (last.rd_steady (f := F.IN_TAD_STAT_GATE) id).trans ?_
    rw [modTad_rd, State.rd_wr_fits _ (by decide) (by decide)]
  · rw [last.rd64_steady id id, modTad_rd64, State.rd64_wr_ne _ _ (by decide) (by decide), State.rd64_wr64_ne _ _ (by decide),
      State.rd64_wr64_mod]
  · rw [last.rd64_steady id id, modTad_rd64, State.rd64_wr_ne _ _ (by decide) (by decide), State.rd64_wr64 _ (s.rd64_lt _)]

/-- An opening event opens a sealed gate. -/
theorem openGate_sealed {s : State} (sealed : s.gate = gtSealed) (d pre : Nat) (w : Word) :
    let u := s.modTad fun t => { t with last := some ⟨t.tidx, d, pre, w, s.gate = gtSealed⟩ }
    s.openGate d pre w = u.openAt (max (s.rd64 Reg.IN_TAD_OLDEST_LO) (d - pre)) d w := by
  intro u
  have gate : u.gate = gtSealed := sealed
  unfold State.openGate
  dsimp only
  rw [if_neg (by rw [gate]; decide), if_neg (by rw [gate]; decide)]
  rfl

/-- What the gate and the rest of the state show once an opening event has opened a sealed gate. -/
theorem openGate_opens {s : State} (sealed : s.gate = gtSealed) (d pre : Nat) (w : Word) :
    Frame { tad := true } (· ∈ gateRegs) s (s.openGate d pre w) ∧ (s.openGate d pre w).gate = gtOpen ∧
      (s.openGate d pre w).tad.timer = some s.now ∧
      (s.openGate d pre w).rd64 Reg.IN_TAD_GSTART_LO = max (s.rd64 Reg.IN_TAD_OLDEST_LO) (d - pre) % 2 ^ 64 ∧
      (s.openGate d pre w).rd64 Reg.IN_TAD_GOPEN_LO = s.rd64 Reg.IN_TAD_WIDX_LO := by
  rw [openGate_sealed sealed]
  obtain ⟨gate, timer, -, gstart, gopen⟩ := openAt_shows
    (s.modTad fun t => { t with last := some ⟨t.tidx, d, pre, w, s.gate = gtSealed⟩ }) (max (s.rd64 Reg.IN_TAD_OLDEST_LO) (d - pre)) d w
  exact ⟨((Frame.refl (by decide) s).modTad _).openAt fun _ => id, gate, timer, gstart, gopen⟩

/-! ## Loading the detector -/

theorem modWkd_rd (s : State) (f : WkdX → WkdX) (g : Field) : (s.modWkd f).rd g = s.rd g := rfl
theorem modWkd_pap (s : State) (f : WkdX → WkdX) : (s.modWkd f).pap = s.pap := rfl
theorem modWkd_wkd (s : State) (f : WkdX → WkdX) : (s.modWkd f).wkd = f s.wkd := rfl
theorem modWkd_reg (s : State) (f : WkdX → WkdX) (a : Nat) : (s.modWkd f).reg a = s.reg a := rfl

theorem Frame.modWkd {m : Parts} {R : Nat → Prop} {s t : State} (h : Frame m R s t) (f : WkdX → WkdX) (hm : m.wkd = true := by rfl) :
    Frame m R s (t.modWkd f) := by
  unfold State.modWkd
  exact h.upd (by simp only [State.but, hm, cond_true, Bool.cond_self])

theorem steady_bank (b : Nat) : steady (Reg.DSP_SB_STAT b) = true :=
  steady_dsp (by unfold Reg.DSP_SB_STAT; omega) (by unfold Reg.DSP_SB_STAT; omega)

theorem admitted_spanOn (s : State) (c : CmdSpec) (p : Packet) (ofs len : Nat) : (s.admitted c p).spanOn ofs len = s.spanOn ofs len := by
  unfold State.spanOn
  congr 1
  refine List.all_congr rfl fun b => ?_
  unfold State.bankOn
  rw [rd_card s c p (f := F.DSP_SB_STAT_PWR b) (steady_bank b)]

/-- A domain that is up at a command's card. -/
theorem admitted_need {s : State} {d : Nat} (up : DomUp s d) (c : CmdSpec) (p : Packet) (high : 0x10 ≤ d) :
    (s.admitted c p).need d = some (s.admitted c p) := by
  obtain ⟨on, changes⟩ := up
  unfold State.need
  refine if_pos ⟨?_, by rw [admitted_pwr, changes]; decide⟩
  unfold State.domOn at on ⊢
  rw [if_neg (by omega)] at on ⊢
  rw [← on]
  exact on_card s c p (show steady Reg.PWR_DOMSTAT = true by decide)

theorem withDomains_up {s : State} {d : Nat} {k : State → Res} (h : s.need d = some s) : s.withDomains [d] k = k s := by
  unfold State.withDomains State.needAll
  rw [h]
  rfl

theorem Local.modWkd {m : Parts} {R : Nat → Prop} {s t : State} (h : Local m R s t) (f : WkdX → WkdX) (hm : m.wkd = true := by rfl) :
    Local m R s (t.modWkd f) := by
  unfold State.modWkd
  exact h.upd (by simp only [State.but, hm, cond_true, Bool.cond_self])

theorem wkdLoad_awaits {p : Packet} {s : State} (acc : Accepted cardWkdLoad p s)
    (span : s.spanOn (pf p.payload 0 2 19 * 4) (pf p.payload 1 0 21) = true) (stopped : s.on F.IN_WKD_CFG_EN = false) (free : Free s [.wkd])
    (up : DomUp s dmWkd) :
    let h := (s.admitted cardWkdLoad p).words (0x800000 + pf p.payload 0 2 19 * 4) 6
    Awaits (.wkdLoad p) cardWkdLoad p s [pw h 2, w32 (pf h 5 24 8 * 2 ^ 24 + pf h 4 0 18)] [.wkd] fun t => Touches [] s t ∧ s.over t = s := by
  refine (awaits_unchanged rfl acc ?_ free).imp fun _ k => k.untouched
  dsimp only
  rw [admitted_spanOn, span, unlessBusy_free (admitted_free free), on_card, stopped]
  refine (if_neg (by decide)).trans ((if_neg (by decide)).trans ?_)
  exact withDomains_up (admitted_need up _ p (by decide))

/-- The model that an image holds. -/
def modelOf (img : List Word) : WkdModel :=
  ⟨(pw img 3).toNat, Crypto.shaWords img, pf img 5 24 8, pf img 5 16 4, pf img 5 0 2, (img.drop ((pw img 6).toNat / 4)).take ((pf img 4 0 18 + 3) / 4)⟩

/-- A checked image is the detector's model. -/
def State.modelled (s : State) (img : List Word) : State :=
  ((s.modWkd fun x => { x with model := some (modelOf img) }).set1 F.IN_WKD_CFG_LOADED).setReg Reg.IN_WKD_MODEL (pw img 2)

theorem wkdLoadDone_eq {s : State} {e : PendEntry} (work : s.atWork? 0x410 = some e)
    (clean : s.poisonIn (pf e.payload 0 2 19 * 4) (pf e.payload 1 0 21) = [])
    (valid : s.wkdCheck (s.words (0x800000 + pf e.payload 0 2 19 * 4) (pf e.payload 1 0 21 / 4)) (pf e.payload 1 0 21) (pw e.payload 2) = none) :
    exec .wkdLoadDone s = .next ((s.modelled (s.words (0x800000 + pf e.payload 0 2 19 * 4) (pf e.payload 1 0 21 / 4))).finish e stsOk 0 [] []) := by
  show execWkdLoadDone s = _
  unfold execWkdLoadDone
  rw [work]
  dsimp only
  rw [clean]
  dsimp only [List.foldl_nil]
  rw [if_neg (fun n => n rfl), valid]
  rfl

theorem modelled_finish (s : State) (img : List Word) (e : PendEntry) :
    let t := (s.modelled img).finish e stsOk 0 [] []
    Ended (some e) stsOk s t ∧ t.on F.IN_WKD_CFG_LOADED = true ∧ t.reg Reg.IN_WKD_MODEL = pw img 2 ∧
      t.wkd.model.map (fun m => (m.thrdef, m.hops, m.nin)) = some (pf img 5 24 8, pf img 5 16 4, pf img 5 0 2) ∧
      Touches [Reg.IN_WKD_CFG, Reg.IN_WKD_MODEL] s t ∧ { s.over t with wkd := s.wkd } = s := by
  intro t
  have last : Frame {} (fun _ => False) (s.modelled img) t := (Frame.refl id _).finish
  have frame : Frame { wkd := true } (· ∈ [Reg.IN_WKD_CFG, Reg.IN_WKD_MODEL]) s t :=
    ((((Frame.refl (by decide) s).modWkd _).set1 (f := F.IN_WKD_CFG_LOADED) (by decide)).setReg (by decide)).finish
  have pap : (s.modelled img).pap = s.pap := by
    unfold State.modelled
    rw [State.setReg_pap, State.set1_pap, modWkd_pap]
  refine ⟨finish_ended (.of_pap pap) _ _ _ _ _, ?_, ?_, ?_, frame.touches, frame.rest⟩
  · rw [last.on_steady id]
    unfold State.modelled State.on
    rw [State.rd_setReg_ne _ _ (by decide)]
    exact (s.modWkd _).on_set1_same (f := F.IN_WKD_CFG_LOADED)
  · rw [last.reg_steady id]
    unfold State.modelled
    rw [State.reg_setReg_same]
  · rw [last.wkd]
    unfold State.modelled
    rw [State.setReg_wkd, State.set1_wkd, modWkd_wkd]
    rfl

/-! ## Enabling the detector -/

/-- CFG of an enabled detector: the low 24 bits of the packet's word, and EN. -/
def enabledCfg (old w : Word) : Word := putBits old 0 24 (bits w 0 24) ||| 0x80000000

theorem enabledCfg_bits (old w : Word) {lo n : Nat} (h : lo + n ≤ 24) : bits (enabledCfg old w) lo n = bits w lo n := by
  refine Nat.eq_of_testBit_eq fun i => ?_
  rw [bits_testBit, bits_testBit]
  by_cases lt : i < n
  · have top : (0x80000000 : Word).getLsbD (lo + i) = false := Nat.testBit_two_pow_of_ne (n := 31) (by omega)
    unfold enabledCfg
    rw [BitVec.getLsbD_or, putBits_getLsbD (by decide), if_pos (by omega), top, Bool.or_false, bits_testBit]
    simp [show lo + i < 24 by omega]
  · simp [lt]

theorem enabledCfg_en (old w : Word) : bits (enabledCfg old w) 31 1 = 1 := by
  refine Nat.eq_of_testBit_eq fun i => ?_
  rw [bits_testBit]
  by_cases zero : i = 0
  · subst zero
    unfold enabledCfg
    rw [BitVec.getLsbD_or]
    simp
  · have off : Nat.testBit 1 i = false := by rw [Bool.eq_false_iff, Ne, Nat.testBit_one_eq_true_iff_self_eq_zero]; exact zero
    simp [zero, off]

theorem wkdEnable_off {p : Packet} {s : State} (acc : Accepted cardWkdEnable p s) (free : s.pendFor? [.wkd] = none)
    (off : pb p.payload 0 31 = false) : Answers (.wkdEnable p) cardWkdEnable p s 0 0 [] fun t =>
      t.wkd = (if s.on F.IN_WKD_CFG_EN then { s.wkd with stop := true } else s.wkd) ∧ Touches [] s t ∧ { s.over t with wkd := s.wkd } = s := by
  let a := s.admitted cardWkdEnable p
  let s1 := if s.on F.IN_WKD_CFG_EN then a.modWkd fun x => { x with stop := true } else a
  have entered : Frame { wkd := true } (· ∈ ([] : List Nat)) s a := Frame.admitted (by simp) s _ p
  have frame : Frame { wkd := true } (· ∈ ([] : List Nat)) s s1 := .ite (entered.modWkd _) entered
  refine answers_of_done (s1 := s1) (cl := []) rfl acc ?_ fun t but => ⟨?_, (frame.papol but).touches, (frame.papol but).rest⟩
  · dsimp only
    rw [off, if_pos rfl, unlessBusy_none (by rw [admitted_pendFor, free]), on_card]
    rfl
  · have same := congrArg State.wkd but.rest
    refine Eq.trans same ?_
    show (if _ then _ else _ : State).wkd = _
    split
    · rw [modWkd_wkd, admitted_wkd]
    · exact admitted_wkd s _ p

theorem wkdEnable_on {p : Packet} {s : State} {m : WkdModel} (acc : Accepted cardWkdEnable p s) (free : s.pendFor? [.wkd] = none)
    (on : pb p.payload 0 31 = true) (model : s.wkd.model = some m) (first : pf p.payload 0 16 4 < 12)
    (mapped : inMask (s.rd F.IN_TAP_CFG_TAPMAP) (pf p.payload 0 16 4) = true)
    (second : pf p.payload 0 20 4 ≠ 0xF → pf p.payload 0 20 4 < 12 ∧ inMask (s.rd F.IN_TAP_CFG_TAPMAP) (pf p.payload 0 20 4) = true)
    (both : m.nin = 2 → pf p.payload 0 20 4 ≠ 0xF) (tap : s.on F.IN_TAP_CFG_TAPEN = true) (up : DomUp s dmWkd) :
    Answers (.wkdEnable p) cardWkdEnable p s 0 0 [] fun t => t.on F.IN_WKD_CFG_EN = true ∧
      t.rd F.IN_WKD_CFG_SRC0 = pf p.payload 0 16 4 ∧ t.rd F.IN_WKD_CFG_SRC1 = pf p.payload 0 20 4 ∧
      t.rd F.IN_WKD_CFG_THR = pf p.payload 0 8 8 ∧
      t.wkd.run = 0 ∧ t.wkd.quiet = 0 ∧ t.wkd.model = some m ∧ Touches [Reg.IN_WKD_CFG] s t ∧ { s.over t with wkd := s.wkd } = s := by
  let a := s.admitted cardWkdEnable p
  let cfg := enabledCfg (a.reg Reg.IN_WKD_CFG) (pw p.payload 0)
  let s1 := (a.modWkd fun x => { x with run := 0, quiet := 0, inv0 := 0, inv1 := 0, stop := false, fed := 0 }).setReg Reg.IN_WKD_CFG cfg
  have frame : Frame { wkd := true } (· ∈ [Reg.IN_WKD_CFG]) s s1 :=
    ((Frame.admitted (by decide) s _ p).modWkd _).setReg (by decide)
  have field : ∀ f : Field, f.addr = Reg.IN_WKD_CFG → s1.rd f = bits cfg f.lo f.width := fun f addr => by
    rw [← State.rd_setReg_same a f cfg, addr]
    unfold State.rd
    rw [addr, State.reg_setReg_same, State.reg_setReg_same]
  have wkd : ∀ t, PapolBut papolReg (papolByte s1) s1 t → t.wkd = { s.wkd with run := 0, quiet := 0, inv0 := 0, inv1 := 0, stop := false, fed := 0 } :=
    fun t but => by
      have same := congrArg State.wkd but.rest
      refine Eq.trans same ?_
      show (State.setReg _ _ _).wkd = _
      rw [State.setReg_wkd, modWkd_wkd, admitted_wkd]
  refine answers_of_done (s1 := s1) (cl := []) rfl acc ?_ fun t but => ⟨?_, ?_, ?_, ?_, by rw [wkd t but], by rw [wkd t but],
    by rw [wkd t but, model], (frame.papol but).touches, (frame.papol but).rest⟩
  · dsimp only
    rw [on, if_neg (by decide), if_neg (by omega), admitted_wkd, model]
    dsimp only
    rw [rd_card, on_card, if_neg]
    · rw [unlessBusy_none (by rw [admitted_pendFor, free]), withDomains_up (admitted_need up _ p (by decide))]
      rfl
    · rintro (m0 | ⟨two, m1⟩ | off | ⟨two, none⟩)
      · exact m0 (by simp [first, mapped])
      · obtain ⟨lt, map⟩ := second two
        exact m1 (by simp [lt, map])
      · exact off tap
      · exact both two none
  · rw [but.on_steady]
    unfold State.on
    rw [field _ rfl]
    exact decide_eq_true (enabledCfg_en _ _)
  · rw [but.rd_steady, field _ rfl]
    exact enabledCfg_bits _ _ (by decide)
  · rw [but.rd_steady, field _ rfl]
    exact enabledCfg_bits _ _ (by decide)
  · rw [but.rd_steady, field _ rfl]
    exact enabledCfg_bits _ _ (by decide)

/-! ## A hop -/

/-- The threshold in force. -/
def State.wkdThr (s : State) (m : WkdModel) : Nat := if s.rd F.IN_WKD_CFG_THR = 0 then m.thrdef else s.rd F.IN_WKD_CFG_THR

theorem wkdHop_unfed {s : State} {m : WkdModel} (score : BitVec 8) (model : s.wkd.model = some m) (on : s.on F.IN_WKD_CFG_EN = true)
    (runs : s.wkd.stop = false) (unfed : s.wkd.fed < 400) :
    exec (.wkdHop score) s = .next (s.modWkd fun x => { x with run := 0, quiet := x.quiet - 1, stop := false }) := by
  show execWkdHop score s = _
  unfold execWkdHop
  have fed : decide (400 ≤ s.wkd.fed) = false := decide_eq_false (by omega)
  simp only [model, on, runs, fed]
  rfl

theorem wkdHop_below {s : State} {m : WkdModel} {score : BitVec 8} (model : s.wkd.model = some m) (on : s.on F.IN_WKD_CFG_EN = true)
    (runs : s.wkd.stop = false) (fed : 400 ≤ s.wkd.fed) (below : score.toNat < s.wkdThr m) (hops : 1 ≤ m.hops) :
    exec (.wkdHop score) s = .next ((s.modWkd fun x => { x with run := 0, quiet := x.quiet - 1, stop := false }).wr
      F.IN_WKD_STAT_SCORE score.toNat) := by
  show execWkdHop score s = _
  unfold execWkdHop
  have fed' : decide (400 ≤ s.wkd.fed) = true := decide_eq_true fed
  have low : ¬ (if s.rd F.IN_WKD_CFG_THR = 0 then m.thrdef else s.rd F.IN_WKD_CFG_THR) ≤ score.toNat := Nat.not_le.2 below
  have none : decide (m.hops ≤ 0) = false := decide_eq_false (by omega)
  simp only [model, on, runs, fed', low, none, and_false, if_false, if_true, not_true_eq_false, Bool.false_eq_true, Bool.and_false,
    Bool.false_and]

/-- What a detection records before the gate opens. -/
def State.detected (s : State) (score : BitVec 8) : State :=
  ((((s.modWkd fun x => { x with run := 0, quiet := 50, stop := false }).wr F.IN_WKD_STAT_SCORE score.toNat).set1 F.IN_WKD_STAT_DET).sat
    F.IN_WKD_STAT_DETCNT 1)

theorem wkdHop_hit {s : State} {m : WkdModel} {score : BitVec 8} (model : s.wkd.model = some m) (on : s.on F.IN_WKD_CFG_EN = true)
    (runs : s.wkd.stop = false) (fed : 400 ≤ s.wkd.fed) (above : s.wkdThr m ≤ score.toNat) (hops : m.hops ≤ s.wkd.run + 1)
    (quiet : s.wkd.quiet = 0) :
    exec (.wkdHop score) s = .next ((s.detected score).openGate (160 * (s.tad.tidx / 160) - 1) (160 * s.rd F.IN_WKD_CFG_PREROLL)
      (w32 (2 ^ 28 + score.toNat * 2 ^ 20))) := by
  show execWkdHop score s = _
  unfold execWkdHop
  have fed' : decide (400 ≤ s.wkd.fed) = true := decide_eq_true fed
  have high : (if s.rd F.IN_WKD_CFG_THR = 0 then m.thrdef else s.rd F.IN_WKD_CFG_THR) ≤ score.toNat := above
  have run : decide (m.hops ≤ s.wkd.run + 1) = true := decide_eq_true hops
  simp only [model, on, runs, fed', high, run, quiet, and_self, if_true, if_false, not_true_eq_false, Bool.false_eq_true, Bool.and_self,
    decide_true, State.detected]

theorem wkdHop_unfed_holds (s : State) :
    let t := s.modWkd fun x => { x with run := 0, quiet := x.quiet - 1, stop := false }
    t.wkd.run = 0 ∧ t.gate = s.gate ∧ { t with wkd := s.wkd } = s := ⟨rfl, rfl, rfl⟩

/-- An operation local to the detector. -/
theorem Local.wkdOnly {R : Nat → Prop} {s t : State} (h : Local { wkd := true } R s t) : { t with regs := s.regs, wkd := s.wkd } = s := h.exact

theorem wkdHop_below_holds (s : State) (score : BitVec 8) : ∃ t,
    t = (s.modWkd fun x => { x with run := 0, quiet := x.quiet - 1, stop := false }).wr F.IN_WKD_STAT_SCORE score.toNat ∧
    t.rd F.IN_WKD_STAT_SCORE = score.toNat ∧ t.wkd.run = 0 ∧ t.wkd.quiet = s.wkd.quiet - 1 ∧ t.gate = s.gate ∧
      SameRegsBut (fun a => a = Reg.IN_WKD_STAT) s t ∧ { t with regs := s.regs, wkd := s.wkd } = s := by
  have frame : Local { wkd := true } (· = Reg.IN_WKD_STAT) s
      ((s.modWkd fun x => { x with run := 0, quiet := x.quiet - 1, stop := false }).wr F.IN_WKD_STAT_SCORE score.toNat) :=
    ((Local.refl s).modWkd _).wr rfl
  refine ⟨_, rfl, State.rd_wr_fits _ (by decide) score.isLt, ?_, ?_, frame.rd (by decide), fun a n => .inl (frame.regs a n), frame.wkdOnly⟩
  · rw [State.wr_wkd, modWkd_wkd]
  · rw [State.wr_wkd, modWkd_wkd]

theorem detected_shows (s : State) (score : BitVec 8) :
    Local { wkd := true } (· = Reg.IN_WKD_STAT) s (s.detected score) ∧ (s.detected score).on F.IN_WKD_STAT_DET = true ∧
      (s.detected score).rd F.IN_WKD_STAT_DETCNT = min (s.rd F.IN_WKD_STAT_DETCNT + 1) 255 ∧ (s.detected score).wkd.run = 0 ∧
      (s.detected score).wkd.quiet = 50 := by
  unfold State.detected
  generalize hv : (s.modWkd fun x => { x with run := 0, quiet := 50, stop := false }).wr F.IN_WKD_STAT_SCORE score.toNat = v
  have first : Local { wkd := true } (· = Reg.IN_WKD_STAT) s v := by
    rw [← hv]
    exact ((Local.refl s).modWkd _).wr rfl
  have wkd : v.wkd = { s.wkd with run := 0, quiet := 50, stop := false } := by rw [← hv, State.wr_wkd, modWkd_wkd]
  have count : v.rd F.IN_WKD_STAT_DETCNT = s.rd F.IN_WKD_STAT_DETCNT := by rw [← hv, State.rd_wr_off _ _, modWkd_rd]
  refine ⟨(first.set1 rfl).sat rfl, ?_, ?_, by rw [State.sat_wkd, State.set1_wkd, wkd], by rw [State.sat_wkd, State.set1_wkd, wkd]⟩
  · rw [State.on_sat_off _ _, State.on_set1_same]
  · rw [State.rd_sat_same _ _ (by decide), State.rd_set1_off, count]
    exact Nat.min_comm _ _

theorem wkdHop_hit_holds {s : State} (score : BitVec 8) (sealed : s.gate = gtSealed) (w : Word) :
    let start := max (s.rd64 Reg.IN_TAD_OLDEST_LO) (160 * (s.tad.tidx / 160) - 1 - 160 * s.rd F.IN_WKD_CFG_PREROLL)
    ∃ t, t = (s.detected score).openGate (160 * (s.tad.tidx / 160) - 1) (160 * s.rd F.IN_WKD_CFG_PREROLL) w ∧
    t.on F.IN_WKD_STAT_DET = true ∧ t.rd F.IN_WKD_STAT_DETCNT = min (s.rd F.IN_WKD_STAT_DETCNT + 1) 255 ∧
      t.wkd.run = 0 ∧ t.wkd.quiet = 50 ∧ t.gate = gtOpen ∧ t.tad.timer = some s.now ∧ t.rd64 Reg.IN_TAD_GSTART_LO = start % 2 ^ 64 ∧
      t.rd64 Reg.IN_TAD_GOPEN_LO = s.rd64 Reg.IN_TAD_WIDX_LO ∧ SameBytesBut (papolByte s) s t := by
  intro start
  obtain ⟨frame, det, count, run, quiet⟩ := detected_shows s score
  generalize s.detected score = v at frame det count run quiet
  have same : ∀ a, a ≠ Reg.IN_WKD_STAT → a + 4 ≠ Reg.IN_WKD_STAT → v.rd64 a = s.rd64 a := fun a lo hi =>
    State.rd64_congr (frame.regs a lo) (frame.regs (a + 4) hi)
  obtain ⟨last, gate, timer, gstart, gopen⟩ := openGate_opens ((frame.rd (by decide)).trans sealed) (160 * (s.tad.tidx / 160) - 1)
    (160 * s.rd F.IN_WKD_CFG_PREROLL) w
  have bytes := last.bytes
  rw [papolByte_congr (frame.part State.rings)] at bytes
  refine ⟨_, rfl, ?_, ?_, ?_, ?_, gate, ?_, ?_, ?_, fun a n => (bytes a n).trans (State.byte_congr frame.mem a)⟩
  · rw [last.on_steady (by decide), det]
  · rw [last.rd_steady (by decide), count]
  · rw [last.wkd, run]
  · rw [last.wkd, quiet]
  · rw [timer]; exact congrArg some (same _ (by decide) (by decide))
  · rw [gstart, same _ (by decide) (by decide)]
  · rw [gopen, same _ (by decide) (by decide)]

/-- Settles O46: the cards load and start the detector, and a hop moves its run, or opens the gate. -/
theorem wakeDetectorLoadsAndDetects : Obligations.WakeDetectorLoadsAndDetects := by
  intro p s score
  dsimp only
  refine ⟨fun acc span stopped free up => wkdLoad_awaits acc span stopped free up,
    fun e work clean valid => ⟨_, wkdLoadDone_eq work clean valid, modelled_finish s _ e⟩,
    fun acc free => ⟨wkdEnable_off acc free, fun m on model first mapped second both tap up =>
      wkdEnable_on acc free on model first mapped second both tap up⟩,
    fun m model on runs => ⟨fun unfed => ⟨_, wkdHop_unfed score model on runs unfed, wkdHop_unfed_holds s⟩, fun fed below hops => ?_,
      fun fed above hops quiet sealed => ?_⟩⟩
  · obtain ⟨t, rfl, holds⟩ := wkdHop_below_holds s score
    exact ⟨_, wkdHop_below model on runs fed below hops, holds⟩
  · obtain ⟨t, rfl, holds⟩ := wkdHop_hit_holds score sealed (w32 (2 ^ 28 + score.toNat * 2 ^ 20))
    exact ⟨_, wkdHop_hit model on runs fed above hops quiet, holds⟩

end Sys2Proof.Machine
end

section
/-!
# Streams as the other blocks see them (spec/05_streams_ports.md, R204 to R223)

What a stream's STATE, its end and its context are, said once.
-/

namespace Sys2Proof.Machine

-- One theorem after the other: in one text, theorems that wait for the kernel would each hold a thread.
set_option Elab.async false

/-- The registers above the rings' are steady. -/
theorem steady_above {a : Nat} (h : 0x100440 ≤ a) : steady a = true := steady_dsp (by omega) (.inr h)

/-- A frame names at most the parts that a wider one names. -/
theorem Frame.widen {m m' : Parts} {R : Nat → Prop} {s t : State} (h : Frame m R s t)
    (wider : ∀ u v : State, u.but m' (u.but m v) = u.but m' v := by intros; rfl) : Frame m' R s t := by
  refine ⟨h.apart, h.regs, h.bytes, h.poison, ?_⟩
  have e := congrArg (State.but m' s) h.rest
  rwa [wider, State.but_self] at e

theorem Frame.mono {m : Parts} {R Q : Nat → Prop} {s t : State} (h : Frame m R s t) (k : ∀ a, R a → Q a) (away : ¬ Q Reg.PWR_STATE) :
    Frame m Q s t :=
  ⟨away, h.regs.mono fun a e => e.imp_right (k a), h.bytes, h.poison, h.rest⟩

/-! ## STATE of a stream -/

section
variable {m : Parts} {R : Nat → Prop} {s t : State}

theorem Frame.strState (h : Frame m R s t) {sid st cause : Nat} (stat : R (Reg.DSP_STR_STAT sid)) : Frame m R s (t.strState sid st cause) := by
  unfold State.strState State.raiseStream
  exact .ite h ((h.wr (f := F.DSP_STR_STAT_STATE sid) stat).wr (f := F.DSP_STR_STAT_CAUSE sid) stat).raise

theorem Frame.gateAfterClose (h : Frame m R s t) {b : Bool} (hm : m.tad = true := by rfl) : Frame m R s (t.gateAfterClose b) := by
  unfold State.gateAfterClose
  exact .ite (h.upd (by simp only [State.but, hm, cond_true, Bool.cond_self])) h

theorem Frame.endStr (h : Frame m R s t) {sid st cause sts : Nat} (stat : R (Reg.DSP_STR_STAT sid)) (hs : m.strs = true := by rfl)
    (hm : m.tad = true := by rfl) : Frame m R s (t.endStr sid st cause sts) := by
  unfold State.endStr State.freeStr
  split
  · exact h
  · exact Frame.finishFor (Frame.gateAfterClose (Frame.strState (h.upd (by simp only [State.but, hs, cond_true, Bool.cond_self])) stat) hm)

theorem Frame.closeHandovers (h : Frame m R s t) (stat : ∀ sid, R (Reg.DSP_STR_STAT sid)) (hs : m.strs = true := by rfl)
    (hm : m.tad = true := by rfl) : Frame m R s t.closeHandovers :=
  .foldl (fun _ _ k => k.endStr (stat _) hs hm) h

end

theorem closeHandovers_none {s : State} (h : ∀ x ∈ s.strs, s.isHandover x.sid = false) : s.closeHandovers = s := by
  unfold State.closeHandovers
  rw [List.filter_eq_nil_iff.2 fun x mem => by rw [h x mem]; decide]
  rfl

/-- A change of STATE, which is reported. -/
theorem strState_moves {s : State} {sid st : Nat} (h : s.rd (F.DSP_STR_STAT_STATE sid) ≠ st) (cause : Nat) :
    s.strState sid st cause = ((s.wr (F.DSP_STR_STAT_STATE sid) st).wr (F.DSP_STR_STAT_CAUSE sid) cause).raiseStream sid cause := by
  unfold State.strState
  rw [if_neg h]

theorem strState_state (s : State) (sid : Nat) {st : Nat} (h : st < 16) (cause : Nat) :
    (s.strState sid st cause).rd (F.DSP_STR_STAT_STATE sid) = st := by
  by_cases same : s.rd (F.DSP_STR_STAT_STATE sid) = st
  · unfold State.strState
    rw [if_pos same, same]
  · have raised : Frame {} (fun _ => False) ((s.wr (F.DSP_STR_STAT_STATE sid) st).wr (F.DSP_STR_STAT_CAUSE sid) cause)
        (s.strState sid st cause) := by
      rw [strState_moves same]
      exact (Frame.refl id _).raise
    rw [raised.rd_steady id (steady_above (show 0x100440 ≤ 0x102008 + 0x20 * sid by omega)),
      State.rd_wr_apart _ _ (show 16 + 8 ≤ 32 by decide) (.inr (.inr (show 16 + 8 ≤ 28 by decide))), State.rd_wr_fits _ (show 28 + 4 ≤ 32 by decide) h]

/-! ## The context of an opened stream -/

/-- The registers of a stream. -/
def strRegs (sid : Nat) : List Nat := (List.range 8).map fun k => Reg.DSP_STR_CFG sid + 4 * k

theorem mem_strRegs {sid k : Nat} (h : k < 8) : Reg.DSP_STR_CFG sid + 4 * k ∈ strRegs sid := List.mem_map.2 ⟨k, List.mem_range.2 h, rfl⟩

theorem strRegs_of {sid a : Nat} (k : Nat) (lt : k < 8 := by decide) (eq : a = 0x102000 + 0x20 * sid + 4 * k := by rfl) : a ∈ strRegs sid := by
  rw [eq]; exact mem_strRegs lt

theorem strRegs_ge {sid a : Nat} (h : a ∈ strRegs sid) : 0x102000 ≤ a := by
  obtain ⟨k, -, rfl⟩ := List.mem_map.1 h
  unfold Reg.DSP_STR_CFG
  omega

section
variable {m : Parts} {R : Nat → Prop} {s t : State}

theorem Local.wr64 (h : Local m R s t) {a v : Nat} (lo : R a) (hi : R (a + 4)) : Local m R s (t.wr64 a v) := (h.setReg lo).setReg hi

theorem Local.openContext (h : Local m R s t) {sid stype sidx dtype didx nch width inv vpol asfirst amode hfs : Nat}
    (regs : ∀ a ∈ strRegs sid, R a) : Local m R s (t.openContext sid stype sidx dtype didx nch width inv vpol asfirst amode hfs) := by
  have word : ∀ (k a : Nat), k < 8 → a = 0x102000 + 0x20 * sid + 4 * k → R a := fun k a lt eq => by
    rw [eq]
    exact regs _ (mem_strRegs lt)
  unfold State.openContext
  dsimp only [Reg.DSP_STR_CFG, Reg.DSP_STR_FMT, Reg.DSP_STR_STAT, Reg.DSP_STR_CNT, Reg.DSP_STR_IDX_LO, Reg.DSP_STR_GOOD_LO]
  exact (((((h.setReg (word 0 _ (by decide) (by omega))).setReg (word 1 _ (by decide) (by omega))).setReg
    (word 2 _ (by decide) (by omega))).setReg (word 3 _ (by decide) (by omega))).wr64 (word 4 _ (by decide) (by omega))
    (word 5 _ (by decide) (by omega))).wr64 (word 6 _ (by decide) (by omega)) (word 7 _ (by decide) (by omega))

end

/-- CFG, FMT and STAT of an opened stream. -/
theorem openContext_regs (s : State) (sid stype sidx dtype didx nch width inv vpol asfirst amode hfs : Nat) :
    let t := s.openContext sid stype sidx dtype didx nch width inv vpol asfirst amode hfs
    t.reg (Reg.DSP_STR_CFG sid) = w32 (stype * 2 ^ 28 + sidx * 2 ^ 20 + dtype * 2 ^ 12 + didx * 2 ^ 4) ∧
      t.reg (Reg.DSP_STR_FMT sid) = w32 (asfirst * 2 ^ 26 + amode * 2 ^ 24 + (nch - 1) * 2 ^ 16 + hfs * 2 ^ 12 + width * 2 ^ 8 + inv * 2 + vpol) ∧
      t.reg (Reg.DSP_STR_STAT sid) = w32 (if amode = 0 then 0x100 else 0) ∧ t.reg (Reg.DSP_STR_CNT sid) = 0 ∧
      t.rd64 (Reg.DSP_STR_IDX_LO sid) = 0 ∧ t.rd64 (Reg.DSP_STR_GOOD_LO sid) = 2 ^ 64 - 1 := by
  unfold State.openContext
  dsimp only
  refine ⟨?_, ?_, ?_, ?_, ?_, State.rd64_wr64 _ (by decide)⟩
  all_goals simp only [Reg.DSP_STR_CFG, Reg.DSP_STR_FMT, Reg.DSP_STR_STAT, Reg.DSP_STR_CNT, Reg.DSP_STR_IDX_LO, Reg.DSP_STR_GOOD_LO]
  · rw [State.reg_wr64_ne _ _ (by omega) (by omega), State.reg_wr64_ne _ _ (by omega) (by omega), State.reg_setReg_ne _ _ (by omega),
      State.reg_setReg_ne _ _ (by omega), State.reg_setReg_ne _ _ (by omega), State.reg_setReg_same]
  · rw [State.reg_wr64_ne _ _ (by omega) (by omega), State.reg_wr64_ne _ _ (by omega) (by omega), State.reg_setReg_ne _ _ (by omega),
      State.reg_setReg_ne _ _ (by omega), State.reg_setReg_same]
  · rw [State.reg_wr64_ne _ _ (by omega) (by omega), State.reg_wr64_ne _ _ (by omega) (by omega), State.reg_setReg_ne _ _ (by omega),
      State.reg_setReg_same]
  · rw [State.reg_wr64_ne _ _ (by omega) (by omega), State.reg_wr64_ne _ _ (by omega) (by omega), State.reg_setReg_same]
  · rw [State.rd64_wr64_ne _ _ (by omega), State.rd64_wr64 _ (by decide)]

/-- A field of a word given as a number. -/
theorem bits_w32 {v lo n : Nat} (h : v < 2 ^ 32) : bits (w32 v) lo n = v / 2 ^ lo % 2 ^ n := by
  unfold bits w32
  rw [BitVec.toNat_ofNat, Nat.mod_eq_of_lt h]

theorem rd_of_reg {s : State} {f : Field} {w : Word} (h : s.reg f.addr = w) : s.rd f = bits w f.lo f.width := by
  unfold State.rd; rw [h]

theorem strStat_away (sid : Nat) : ¬ (Reg.PWR_STATE = Reg.DSP_STR_STAT sid) := by
  unfold Reg.PWR_STATE Reg.DSP_STR_STAT
  omega

/-- A stream that opens stands last among the open ones, in WAIT. -/
theorem openStr_shows (s : State) (x : StreamX) :
    Frame { strs := true } (· = Reg.DSP_STR_STAT x.sid) s (s.openStr x) ∧ (s.openStr x).strs = s.strs ++ [x] ∧
      (s.openStr x).rd (F.DSP_STR_STAT_STATE x.sid) = stmWait := by
  unfold State.openStr
  have moved : ∀ u : State, Frame {} (· = Reg.DSP_STR_STAT x.sid) u (u.strState x.sid stmWait 0x00) := fun u =>
    Frame.strState (.refl (strStat_away x.sid) u) rfl
  refine ⟨Frame.strState (Frame.upd (.refl (strStat_away x.sid) s) rfl) rfl, (moved _).strs, strState_state _ _ (by decide) _⟩

/-! ## What a command card reads of the streams -/

section
variable (s : State) (c : CmdSpec) (p : Packet)

theorem admitted_isHandover (sid : Nat) : (s.admitted c p).isHandover sid = s.isHandover sid := by
  unfold State.isHandover
  rw [rd_card s c p (f := F.DSP_STR_CFG_STYPE sid) (steady_above (show 0x100440 ≤ 0x102000 + 0x20 * sid by omega))]

theorem admitted_strCh (sid : Nat) : (s.admitted c p).strCh sid = s.strCh sid := by
  unfold State.strCh
  rw [rd_card s c p (f := F.DSP_STR_FMT_NCH sid) (steady_above (show 0x100440 ≤ 0x102004 + 0x20 * sid by omega))]

theorem admitted_usesEnd (sid type idx : Nat) (source : Bool) : (s.admitted c p).usesEnd sid type idx source = s.usesEnd sid type idx source := by
  have cfg : steady (Reg.DSP_STR_CFG sid) = true := steady_above (show 0x100440 ≤ 0x102000 + 0x20 * sid by omega)
  unfold State.usesEnd
  rw [rd_card s c p (f := F.DSP_STR_CFG_STYPE sid) cfg, rd_card s c p (f := F.DSP_STR_CFG_SIDX sid) cfg,
    rd_card s c p (f := F.DSP_STR_CFG_DTYPE sid) cfg, rd_card s c p (f := F.DSP_STR_CFG_DIDX sid) cfg, admitted_strCh]

theorem admitted_claimed (type idx nch : Nat) (source : Bool) : (s.admitted c p).claimed type idx nch source = s.claimed type idx nch source := by
  unfold State.claimed State.usesRing
  simp only [admitted_strs, admitted_usesEnd]

theorem admitted_sidPick (sid : Nat) : (s.admitted c p).sidPick sid = s.sidPick sid := by
  unfold State.sidPick State.strX?
  simp only [admitted_strs]

theorem steady_ringCfg (n : Nat) : steady (Reg.DSP_RING_CFG n) = true := by
  refine decide_eq_true ⟨?_, ?_, ?_⟩
  all_goals simp only [Reg.DSP_RING_CFG, Reg.CTL_SEC_CNT, Reg.CTL_CLK_STAT]; omega

theorem admitted_ringOn (n : Nat) : (s.admitted c p).ringOn n = s.ringOn n := by
  unfold State.ringOn State.ringStopped
  rw [admitted_link, on_card s c p (f := F.DSP_RING_CFG_ENABLE n) (steady_ringCfg n)]

theorem admitted_tapN : (s.admitted c p).tapN = s.tapN := by
  unfold State.tapN
  rw [rd_card]

theorem admitted_gate : (s.admitted c p).gate = s.gate := rd_card s c p

end

end Sys2Proof.Machine
end

section
/-!
# The gate, PTT_N and the handover (spec/11_inputs_wake.md, R536 to R542, R551 to R557, R565)
-/

namespace Sys2Proof.Machine

-- One theorem after the other: in one text, theorems that wait for the kernel would each hold a thread.
set_option Elab.async false

/-! ## PTT_CFG -/

/-- The fields that PTT_CFG writes. -/
def State.pttSet (s : State) (ws : List Word) : State :=
  ((s.wr F.IN_TAP_CFG_PTTEN (pf ws 0 31 1)).wr F.IN_TAP_CFG_RELCLOSE (pf ws 0 30 1)).wr F.IN_TAP_CFG_PTTPRE (pf ws 0 0 8)

/-- PTT_N is no longer watched. -/
def State.pttOff (s : State) : State := (s.clr F.IN_TAD_STAT_PTTLVL).modTad fun t => { t with again := false }

theorem pttSet_shows (s : State) (ws : List Word) :
    (s.pttSet ws).rd F.IN_TAP_CFG_PTTEN = pf ws 0 31 1 ∧ (s.pttSet ws).rd F.IN_TAP_CFG_RELCLOSE = pf ws 0 30 1 ∧
      (s.pttSet ws).rd F.IN_TAP_CFG_PTTPRE = pf ws 0 0 8 ∧ (s.pttSet ws).gate = s.gate := by
  unfold State.pttSet State.gate
  refine ⟨?_, ?_, State.rd_wr_fits _ (by decide) (bits_lt _ 0 8), ?_⟩
  · rw [State.rd_wr_off _ _, State.rd_wr_off _ _, State.rd_wr_fits _ (by decide) (bits_lt _ 31 1)]
  · rw [State.rd_wr_off _ _, State.rd_wr_fits _ (by decide) (bits_lt _ 30 1)]
  · rw [State.rd_wr_off _ _, State.rd_wr_off _ _, State.rd_wr_off _ _]

theorem pttOff_shows (s : State) : s.pttOff.on F.IN_TAD_STAT_PTTLVL = false ∧ s.pttOff.tad.again = false ∧
    ∀ f, Field.apart F.IN_TAD_STAT_PTTLVL f = true → s.pttOff.rd f = s.rd f := by
  unfold State.pttOff
  refine ⟨?_, by rw [modTad_tad], fun f apart => ?_⟩
  · unfold State.on
    rw [modTad_rd]
    exact s.on_clr_same (f := F.IN_TAD_STAT_PTTLVL)
  · rw [modTad_rd, State.rd_clr_off _ apart]

section
variable {m : Parts} {R : Nat → Prop} {s t : State}

theorem Frame.pttSet (h : Frame m R s t) {ws : List Word} (cfg : R Reg.IN_TAP_CFG) : Frame m R s (t.pttSet ws) :=
  ((h.wr (f := F.IN_TAP_CFG_PTTEN) cfg).wr (f := F.IN_TAP_CFG_RELCLOSE) cfg).wr (f := F.IN_TAP_CFG_PTTPRE) cfg

theorem Frame.pttOff (h : Frame m R s t) (stat : R Reg.IN_TAD_STAT) (hm : m.tad = true := by rfl) : Frame m R s t.pttOff :=
  (h.clr (f := F.IN_TAD_STAT_PTTLVL) stat).modTad _ hm

end

theorem pttCfg_eq (p : Packet) (s : State) : exec (.pttCfg p) s = s.card cardPttCfg p fun s =>
    s.unlessBusy [.ptt] (.ok (if pb p.payload 0 31 then s.pttSet p.payload else (s.pttSet p.payload).pttOff)) := rfl

theorem pttCfg_answers {p : Packet} {s : State} (acc : Accepted cardPttCfg p s) (free : s.pendFor? [.ptt] = none) :
    Answers (.pttCfg p) cardPttCfg p s 0 0 [] fun t =>
      t.rd F.IN_TAP_CFG_PTTEN = pf p.payload 0 31 1 ∧ t.rd F.IN_TAP_CFG_RELCLOSE = pf p.payload 0 30 1 ∧
      t.rd F.IN_TAP_CFG_PTTPRE = pf p.payload 0 0 8 ∧
      (pb p.payload 0 31 = false → t.on F.IN_TAD_STAT_PTTLVL = false ∧ t.tad.again = false) ∧ t.gate = s.gate ∧
      Touches [Reg.IN_TAP_CFG, Reg.IN_TAD_STAT] s t ∧ { s.over t with tad := s.tad } = s := by
  refine answers_of_done (cl := []) (pttCfg_eq p s) acc (unlessBusy_none (by rw [admitted_pendFor, free])) fun t but => ?_
  obtain ⟨en, close, pre, gate⟩ := pttSet_shows (s.admitted cardPttCfg p) p.payload
  have first : Frame { tad := true } (· ∈ [Reg.IN_TAP_CFG, Reg.IN_TAD_STAT]) s ((s.admitted cardPttCfg p).pttSet p.payload) :=
    (Frame.admitted (by decide) s _ p).pttSet (by decide)
  generalize (s.admitted cardPttCfg p).pttSet p.payload = cfg at en close pre gate first but
  have gate' : cfg.gate = s.gate := gate.trans (admitted_gate s _ p)
  cases on : pb p.payload 0 31 with
  | true =>
    rw [on, if_pos rfl] at but
    exact ⟨but.rd_steady.trans en, but.rd_steady.trans close, but.rd_steady.trans pre, fun off => absurd off (by decide),
      but.rd_steady.trans gate', (first.papol but).touches, (first.papol but).rest⟩
  | false =>
    rw [on, if_neg (by decide)] at but
    obtain ⟨level, again, same⟩ := pttOff_shows cfg
    have frame := first.pttOff (by decide)
    have tad := congrArg (fun v : State => v.tad.again) but.rest
    exact ⟨but.rd_steady.trans ((same _ (by decide)).trans en), but.rd_steady.trans ((same _ (by decide)).trans close),
      but.rd_steady.trans ((same _ (by decide)).trans pre), fun _ => ⟨but.on_steady.trans level, Eq.trans tad again⟩,
      but.rd_steady.trans ((same _ (by decide)).trans gate'), (frame.papol but).touches, (frame.papol but).rest⟩

/-! ## PTT_N -/

/-- The opening of the gate leaves PTTLVL alone. -/
theorem openGate_level {s : State} (sealed : s.gate = gtSealed) (d pre : Nat) (w : Word) :
    (s.openGate d pre w).on F.IN_TAD_STAT_PTTLVL = s.on F.IN_TAD_STAT_PTTLVL := by
  rw [openGate_sealed sealed]
  generalize max (s.rd64 Reg.IN_TAD_OLDEST_LO) (d - pre) = start
  unfold State.openAt
  dsimp only
  refine ((Frame.refl (m := {}) (R := fun _ => False) id _).raiseWake.on_steady (f := F.IN_TAD_STAT_PTTLVL) id).trans ?_
  unfold State.on
  rw [modTad_rd, State.rd_wr_off _ _, State.rd_wr64_ne _ _ (by decide) (by decide), State.rd_wr64_ne _ _ (by decide) (by decide), modTad_rd]

theorem pttPress_eq {s : State} (awake : stListen ≤ s.pstate) (en : s.on F.IN_TAP_CFG_PTTEN = true) (low : s.on F.IN_TAD_STAT_PTTLVL = false) :
    exec .pttPress s = .next (s.pressAt (s.tad.tidx - 160)) := by
  show execPttPress s = _
  unfold execPttPress
  rw [if_pos ⟨awake, en, by rw [low]; decide⟩]

theorem pressAt_tap {s : State} (tap : s.on F.IN_TAP_CFG_TAPEN = true) (d : Nat) :
    s.pressAt d = (s.set1 F.IN_TAD_STAT_PTTLVL).openGate d (160 * s.rd F.IN_TAP_CFG_PTTPRE) (w32 (2 * 2 ^ 28)) := by
  unfold State.pressAt
  dsimp only
  rw [if_pos tap]

theorem pressAt_noTap {s : State} (tap : s.on F.IN_TAP_CFG_TAPEN = false) (d : Nat) :
    ∃ w, s.pressAt d = (s.set1 F.IN_TAD_STAT_PTTLVL).drawn.raiseWakeOnly w := by
  unfold State.pressAt
  dsimp only
  rw [if_neg (by rw [tap]; decide)]
  exact ⟨_, rfl⟩

theorem pressAt_opens {s : State} (tap : s.on F.IN_TAP_CFG_TAPEN = true) (sealed : s.gate = gtSealed) (d : Nat) :
    (s.pressAt d).on F.IN_TAD_STAT_PTTLVL = true ∧ (s.pressAt d).gate = gtOpen ∧ (s.pressAt d).tad.timer = some s.now ∧
      Frame { tad := true } (· ∈ gateRegs) s (s.pressAt d) ∧
      (s.pressAt d).rd64 Reg.IN_TAD_GSTART_LO = max (s.rd64 Reg.IN_TAD_OLDEST_LO) (d - 160 * s.rd F.IN_TAP_CFG_PTTPRE) % 2 ^ 64 := by
  rw [pressAt_tap tap]
  have level := s.on_set1_same (f := F.IN_TAD_STAT_PTTLVL)
  have first := (Frame.refl (m := { tad := true }) (R := (· ∈ gateRegs)) (by decide) s).set1 (f := F.IN_TAD_STAT_PTTLVL) (by decide)
  have sealed' : (s.set1 F.IN_TAD_STAT_PTTLVL).gate = gtSealed := (s.rd_set1_off (g := F.IN_TAD_STAT_GATE)).trans sealed
  have same : ∀ b, b ≠ Reg.IN_TAD_STAT → b + 4 ≠ Reg.IN_TAD_STAT → (s.set1 F.IN_TAD_STAT_PTTLVL).rd64 b = s.rd64 b := fun b lo hi =>
    s.rd64_wr_ne 1 lo hi
  generalize s.set1 F.IN_TAD_STAT_PTTLVL = u at level first sealed' same
  obtain ⟨frame, gate, timer, gstart, -⟩ := openGate_opens sealed' d (160 * s.rd F.IN_TAP_CFG_PTTPRE) (w32 (2 * 2 ^ 28))
  refine ⟨(openGate_level sealed' _ _ _).trans level, gate, ?_, first.trans frame, ?_⟩
  · rw [timer]; exact congrArg some (same _ (by decide) (by decide))
  · rw [gstart, same _ (by decide) (by decide)]

theorem pressAt_noTap_holds {s : State} (tap : s.on F.IN_TAP_CFG_TAPEN = false) (d : Nat) :
    (s.pressAt d).on F.IN_TAD_STAT_PTTLVL = true ∧ (s.pressAt d).gate = s.gate ∧
      Frame { draw := true } (· ∈ [Reg.IN_TAD_STAT]) s (s.pressAt d) := by
  obtain ⟨w, pressed⟩ := pressAt_noTap tap d
  rw [pressed]
  have level := s.on_set1_same (f := F.IN_TAD_STAT_PTTLVL)
  have gate : (s.set1 F.IN_TAD_STAT_PTTLVL).gate = s.gate := s.rd_set1_off (g := F.IN_TAD_STAT_GATE)
  have first := (Frame.refl (m := { draw := true }) (R := (· ∈ [Reg.IN_TAD_STAT])) (by decide) s).set1 (f := F.IN_TAD_STAT_PTTLVL) (by decide)
  generalize s.set1 F.IN_TAD_STAT_PTTLVL = u at level gate first
  have last : Frame { draw := true } (fun _ => False) u (u.drawn.raiseWakeOnly w) := ((Frame.refl id u).drawn rfl).raise
  exact ⟨(last.on_steady id).trans level, (last.rd_steady id).trans gate, (first.drawn rfl).raise⟩

/-! ## The gate seals -/

/-- A handover stream stays one where only the gate's state changes. -/
theorem isHandover_gate {s t : State} (h : ∀ a, a ≠ Reg.IN_TAD_STAT → t.reg a = s.reg a) (sid : Nat) : t.isHandover sid = s.isHandover sid := by
  have away : Reg.DSP_STR_CFG sid ≠ Reg.IN_TAD_STAT := by
    unfold Reg.DSP_STR_CFG Reg.IN_TAD_STAT
    omega
  unfold State.isHandover State.rd
  rw [show t.reg (F.DSP_STR_CFG_STYPE sid).addr = s.reg (F.DSP_STR_CFG_STYPE sid).addr from h _ away]

/-- The gate seals, its handover streams still open. -/
def State.shut (s : State) : State := (s.wr F.IN_TAD_STAT_GATE gtSealed).modTad fun t => { t with timer := none }

theorem sealGate_open {s : State} (opened : s.gate = gtOpen) : s.sealGate = s.shut.closeHandovers := by
  unfold State.sealGate
  rw [if_pos opened]
  rfl

theorem shut_local (s : State) : Local { tad := true } (· ∈ [Reg.IN_TAD_STAT]) s s.shut :=
  ((Local.refl s).wr (f := F.IN_TAD_STAT_GATE) (by decide)).modTad _

theorem shut_shows (s : State) : s.shut.gate = gtSealed ∧ s.shut.tad = { s.tad with timer := none } ∧
    ∀ f, Field.apart F.IN_TAD_STAT_GATE f = true → s.shut.rd f = s.rd f := by
  unfold State.shut
  refine ⟨?_, by rw [modTad_tad, State.wr_tad], fun f apart => by rw [modTad_rd, State.rd_wr_off _ _ apart]⟩
  rw [modTad_gate]
  exact State.rd_wr_fits _ (by decide) (by decide)

theorem sealGate_plain {s : State} (opened : s.gate = gtOpen) (none : ∀ x ∈ s.strs, s.isHandover x.sid = false) : s.sealGate = s.shut := by
  rw [sealGate_open opened, closeHandovers_none]
  intro x mem
  rw [isHandover_gate (s := s) (fun a away => (shut_local s).regs a fun m => away (List.mem_singleton.1 m))]
  exact none x (by rwa [(shut_local s).part State.strs] at mem)

theorem closeGate_now {s : State} (none : s.openingNow = none) : s.closeGate = s.sealGate := by
  unfold State.closeGate; rw [none]

theorem gateTimeout_eq {s : State} (expired : s.gateExpired = true) (none : ∀ x ∈ s.strs, s.isHandover x.sid = false) :
    exec .gateTimeout s = .next s.closeGate := by
  have quiet : (s.strs.any fun x => s.isHandover x.sid &&
      (s.rd (F.DSP_STR_STAT_STATE x.sid) = stmWait || s.rd (F.DSP_STR_STAT_STATE x.sid) = stmRun)) = false := by
    rw [List.any_eq_false]
    intro x mem
    rw [none x mem, Bool.false_and]
    decide
  show execGateTimeout s = _
  unfold execGateTimeout
  dsimp only
  rw [if_pos ⟨expired, quiet⟩]

/-- An operation local to the gate. -/
theorem Local.tadOnly {R : Nat → Prop} {s t : State} (h : Local { tad := true } R s t) : { t with regs := s.regs, tad := s.tad } = s := h.exact

theorem gateTimeout_seals {s : State} (expired : s.gateExpired = true) (opened : s.gate = gtOpen) (now : s.openingNow = none)
    (none : ∀ x ∈ s.strs, s.isHandover x.sid = false) : ∃ t, exec .gateTimeout s = .next t ∧ t.gate = gtSealed ∧
      t.tad.timer = Option.none ∧ SameRegsBut (fun a => a = Reg.IN_TAD_STAT) s t ∧ { t with regs := s.regs, tad := s.tad } = s := by
  obtain ⟨gate, tad, -⟩ := shut_shows s
  refine ⟨s.shut, ?_, gate, by rw [tad], fun a away => .inl ((shut_local s).regs a fun m => away (List.mem_singleton.1 m)),
    (shut_local s).tadOnly⟩
  rw [gateTimeout_eq expired none, closeGate_now now, sealGate_plain opened none]

/-- A stream that ends leaves AGAIN as it is. -/
theorem endStr_again (s : State) (sid st cause sts : Nat) : (s.endStr sid st cause sts).tad.again = s.tad.again := by
  unfold State.endStr
  cases s.strX? sid with
  | none => rfl
  | some x =>
    have moved : Frame { strs := true } (· = Reg.DSP_STR_STAT sid) s ((s.freeStr sid).strState sid st cause) :=
      Frame.strState (Frame.upd (.refl (by unfold Reg.DSP_STR_STAT Reg.PWR_STATE; omega) s) rfl) rfl
    have timer : ∀ (u : State) (b : Bool), (u.gateAfterClose b).tad.again = u.tad.again := fun u b => by
      unfold State.gateAfterClose
      split <;> rfl
    dsimp only
    rw [(Frame.finishFor (Frame.refl (m := {}) (R := fun _ => False) id _)).tad, timer, moved.tad]

theorem closeHandovers_again (s : State) : s.closeHandovers.tad.again = s.tad.again :=
  foldl_same (f := fun (u : State) (x : StreamX) => u.closeStr x.sid) (fun u : State => u.tad.again) (fun u x => endStr_again u x.sid _ _ _) _ s

/-- Closing the handover streams moves their STAT alone. -/
theorem closeHandovers_frame (s : State) : Frame { strs := true, tad := true } (fun a => ∃ sid, a = Reg.DSP_STR_STAT sid) s s.closeHandovers := by
  refine Frame.closeHandovers (.refl ?_ s) fun sid => ⟨sid, rfl⟩
  rintro ⟨sid, eq⟩
  unfold Reg.DSP_STR_STAT Reg.PWR_STATE at eq
  omega

theorem not_strStat {a : Nat} (h : a % 0x20 ≠ 8) : ¬ ∃ sid, a = Reg.DSP_STR_STAT sid := by
  rintro ⟨sid, eq⟩
  unfold Reg.DSP_STR_STAT at eq
  omega

theorem sealGate_shows {s : State} (opened : s.gate = gtOpen) :
    s.sealGate.gate = gtSealed ∧ s.sealGate.on F.IN_TAD_STAT_PTTLVL = s.on F.IN_TAD_STAT_PTTLVL ∧ s.sealGate.tad.again = s.tad.again := by
  rw [sealGate_open opened]
  obtain ⟨gate, tad, same⟩ := shut_shows s
  have last := closeHandovers_frame s.shut
  refine ⟨(last.rd_steady (not_strStat (by decide))).trans gate, ?_, by rw [closeHandovers_again, tad]⟩
  rw [last.on_steady (not_strStat (by decide))]
  unfold State.on
  rw [same _ (by decide)]

theorem openAt_level (s : State) (start d : Nat) (w : Word) :
    (s.openAt start d w).on F.IN_TAD_STAT_PTTLVL = s.on F.IN_TAD_STAT_PTTLVL ∧ (s.openAt start d w).tad.again = s.tad.again := by
  unfold State.openAt
  dsimp only
  constructor
  · refine ((Frame.refl (m := {}) (R := fun _ => False) id _).raiseWake.on_steady (f := F.IN_TAD_STAT_PTTLVL) id).trans ?_
    unfold State.on
    rw [modTad_rd, State.rd_wr_off _ _, State.rd_wr64_ne _ _ (by decide) (by decide), State.rd_wr64_ne _ _ (by decide) (by decide)]
  · rw [(Frame.refl (m := {}) (R := fun _ => False) id _).raiseWake.tad, modTad_tad, State.wr_tad, State.wr64_tad, State.wr64_tad]

/-- A close leaves PTTLVL and AGAIN alone; whether the gate then stands open follows the opening event of the tap period. -/
theorem closeGate_shows {s : State} (opened : s.gate = gtOpen) :
    s.closeGate.on F.IN_TAD_STAT_PTTLVL = s.on F.IN_TAD_STAT_PTTLVL ∧ s.closeGate.tad.again = s.tad.again ∧
      (s.openingNow = none → s.closeGate.gate = gtSealed) ∧ (∀ o, s.openingNow = some o → s.closeGate.gate = gtOpen) := by
  obtain ⟨gate, level, again⟩ := sealGate_shows opened
  unfold State.closeGate
  cases now : s.openingNow with
  | none => exact ⟨level, again, fun _ => gate, fun _ h => absurd h (by simp)⟩
  | some o =>
    dsimp only
    by_cases stays : o.anew = true ∨ s.gate ≠ gtOpen
    · rw [if_pos stays]
      exact ⟨rfl, rfl, fun h => absurd h (by simp), fun _ _ => opened⟩
    · rw [if_neg stays]
      obtain ⟨level', again'⟩ := openAt_level s.sealGate (max (s.rd64 Reg.IN_TAD_OLDEST_LO) (o.d - o.pre)) o.d o.w0
      obtain ⟨gate', -⟩ := openAt_shows s.sealGate (max (s.rd64 Reg.IN_TAD_OLDEST_LO) (o.d - o.pre)) o.d o.w0
      exact ⟨level'.trans level, again'.trans again, fun h => absurd h (by simp), fun _ _ => gate'⟩

/-- Without handover streams a close moves the gate's registers alone. -/
theorem closeGate_frame {s : State} (opened : s.gate = gtOpen) (none : ∀ x ∈ s.strs, s.isHandover x.sid = false) :
    Frame { tad := true } (· ∈ gateRegs) s s.closeGate := by
  have away : ¬ Reg.PWR_STATE ∈ gateRegs := by decide
  have sealed : Frame { tad := true } (· ∈ gateRegs) s s.sealGate := by
    rw [sealGate_plain opened none]
    exact ((shut_local s).mono fun a mem => List.mem_singleton.1 mem ▸ List.mem_cons_self).frame away
  unfold State.closeGate
  split
  · exact .ite (.refl away s) (sealed.openAt fun _ => id)
  · exact sealed

/-- PTT_N is released. -/
def State.released (s : State) : State := s.pttOff.raiseWakeOnly (w32 (4 * 2 ^ 28))

theorem pttRelease_eq {s : State} (awake : stListen ≤ s.pstate) (en : s.on F.IN_TAP_CFG_PTTEN = true)
    (high : s.on F.IN_TAD_STAT_PTTLVL = true) :
    exec .pttRelease s = .next (if s.on F.IN_TAP_CFG_RELCLOSE then s.released.closeGate else s.released) := by
  show execPttRelease s = _
  unfold execPttRelease
  rw [if_pos ⟨awake, en, high⟩]
  rfl

theorem released_shows (s : State) : s.released.on F.IN_TAD_STAT_PTTLVL = false ∧ s.released.tad.again = false ∧ s.released.gate = s.gate ∧
    s.released.openingNow = s.openingNow ∧ (∀ sid, s.released.isHandover sid = s.isHandover sid) ∧ s.released.strs = s.strs ∧
    Frame { tad := true } (· ∈ gateRegs) s s.released := by
  obtain ⟨level, again, same⟩ := pttOff_shows s
  have off : Local { tad := true } (· = Reg.IN_TAD_STAT) s s.pttOff := by
    unfold State.pttOff
    exact Local.modTad (m := { tad := true }) (R := (· = Reg.IN_TAD_STAT)) ((Local.refl s).clr rfl) _
  have last : Frame {} (fun _ => False) s.pttOff s.released := (Frame.refl id s.pttOff).raise
  have tad : s.pttOff.tad = { s.tad with again := false } := by
    unfold State.pttOff
    rw [modTad_tad, State.clr_tad]
  refine ⟨(last.on_steady id).trans level, by rw [last.tad, again], (last.rd_steady id).trans (same _ (by decide)), ?_, fun sid => ?_, ?_,
    Frame.raise ((off.mono fun a (e : a = Reg.IN_TAD_STAT) => by rw [e]; exact List.mem_cons_self).frame (R := (· ∈ gateRegs)) (by decide))⟩
  · unfold State.openingNow
    rw [last.tad, tad]
  · have stype : steady (Reg.DSP_STR_CFG sid) = true := steady_above (by unfold Reg.DSP_STR_CFG; omega)
    rw [← isHandover_gate (s := s) (fun a away => off.regs a away)]
    unfold State.isHandover
    rw [last.rd_steady (f := F.DSP_STR_CFG_STYPE sid) id stype]
  · rw [last.strs, off.part State.strs]

theorem pttRelease_releases {s : State} (awake : stListen ≤ s.pstate) (en : s.on F.IN_TAP_CFG_PTTEN = true)
    (high : s.on F.IN_TAD_STAT_PTTLVL = true) (opened : s.gate = gtOpen) : ∃ t, exec .pttRelease s = .next t ∧
      t.on F.IN_TAD_STAT_PTTLVL = false ∧ t.tad.again = false ∧
      (s.openingNow = none → t.gate = (if s.on F.IN_TAP_CFG_RELCLOSE then gtSealed else gtOpen)) ∧
      (∀ o, s.openingNow = some o → o.anew = true → t.gate = gtOpen) ∧
      ((∀ x ∈ s.strs, s.isHandover x.sid = false) → Touches gateRegs s t ∧ { s.over t with tad := s.tad } = s) := by
  refine ⟨_, pttRelease_eq awake en high, ?_⟩
  obtain ⟨level, again, gate, now, handover, strs, frame⟩ := released_shows s
  generalize s.released = u at level again gate now handover strs frame
  obtain ⟨level', again', sealed, kept⟩ := closeGate_shows (gate.trans opened)
  cases close : s.on F.IN_TAP_CFG_RELCLOSE with
  | true =>
    rw [if_pos rfl, if_pos rfl]
    refine ⟨level'.trans level, again'.trans again, fun none => sealed (now.trans none), fun o some' _ => kept o (now.trans some'),
      fun none => ?_⟩
    have whole := frame.trans (closeGate_frame (gate.trans opened) fun x mem => (handover x.sid).trans (none x (strs ▸ mem)))
    exact ⟨whole.touches, whole.rest⟩
  | false =>
    rw [if_neg (by decide), if_neg (by decide)]
    exact ⟨level, again, fun _ => gate.trans opened, fun _ _ _ => gate.trans opened, fun _ => ⟨frame.touches, frame.rest⟩⟩

/-! ## Handover -/

theorem drawn_rd (s : State) (f : Field) : s.drawn.rd f = s.rd f := rfl

theorem handoverClose_eq {a : State} (opened : a.gate = gtOpen) (now : a.openingNow = none)
    (none : ∀ x ∈ a.strs, a.isHandover x.sid = false) :
    ∃ x y, a.handoverClose = .done stsOk 0 [0, x, y, w32 (a.rd F.IN_TAD_STAT_CAP)] [] a.shut.drawn.drawn.drawn := by
  obtain ⟨gate, -, same⟩ := shut_shows a
  have cap := same F.IN_TAD_STAT_CAP (by decide)
  have sealed : a.closeGate = a.shut := by rw [closeGate_now now, sealGate_plain opened none]
  unfold State.handoverClose
  rw [sealed]
  unfold State.gate at gate
  generalize a.shut = u at gate cap
  dsimp only
  rw [drawn_rd, cap]
  unfold State.gate
  rw [drawn_rd, gate]
  exact ⟨_, _, rfl⟩

theorem wakeHandoverClose_answers {p q : Packet} {s : State} (hq : q = { p with payload := p.payload.modifyHead (· ||| 0x80000000) })
    (acc : Accepted cardWakeHandover q s) (opened : s.gate = gtOpen) (now : s.openingNow = none)
    (none : ∀ x ∈ s.strs, s.isHandover x.sid = false) :
    ∃ a b, Answers (.wakeHandoverClose p) cardWakeHandover q s 0 0 [0, a, b, w32 (s.rd F.IN_TAD_STAT_CAP)] fun t =>
      t.gate = gtSealed ∧ t.tad.timer = Option.none ∧ Touches [Reg.IN_TAD_STAT] s t ∧
        { s.over t with tad := s.tad, draw := s.draw } = s := by
  have now' : (s.admitted cardWakeHandover q).openingNow = Option.none := by
    unfold State.openingNow
    rw [admitted_tad]
    exact now
  obtain ⟨x, y, done⟩ := handoverClose_eq ((admitted_gate s _ q).trans opened) now' fun x mem =>
    (admitted_isHandover s _ q x.sid).trans (none x (by rwa [admitted_strs] at mem))
  rw [rd_card] at done
  have run : exec (.wakeHandoverClose p) s = s.card cardWakeHandover q State.handoverClose := by rw [hq]; rfl
  obtain ⟨gate, tad, -⟩ := shut_shows (s.admitted cardWakeHandover q)
  have shut : Frame { tad := true, draw := true } (· ∈ [Reg.IN_TAD_STAT]) s (s.admitted cardWakeHandover q).shut :=
    ((Frame.admitted (by decide) s _ q).wr (f := F.IN_TAD_STAT_GATE) (by decide)).modTad _
  refine ⟨x, y, answers_of_done run acc done fun t but => ?_⟩
  generalize (s.admitted cardWakeHandover q).shut = u at gate tad shut but
  have drawn : Frame { tad := true, draw := true } (· ∈ [Reg.IN_TAD_STAT]) s t := (((shut.drawn rfl).drawn rfl).drawn rfl).papol but
  have last : Frame { draw := true } (fun _ => False) u t := ((((Frame.refl id u).drawn rfl).drawn rfl).drawn rfl).papol but
  exact ⟨(last.rd_steady id).trans gate, by rw [last.tad, tad], drawn.touches, drawn.rest⟩

/-- The state of an opened handover stream. -/
def State.handedOver (s : State) (ws : List Word) (sid i0 : Nat) : State :=
  ((((s.openContext sid 0xA (pf ws 0 8 3) 6 (pf ws 0 16 4) (pf ws 0 12 3 + 1) (pf ws 0 24 2) (pf ws 1 31 1) 0 0x3F 0 3).wr64
    (Reg.DSP_STR_IDX_LO sid) i0).openStr (newStreamX sid 0 0 0 (pf ws 0 12 3 + 1))).modTad fun t => { t with timer := none })

/-- The first index of a handover. -/
def State.firstIndex (s : State) (ws : List Word) : Nat :=
  if pf ws 0 28 2 = 0 then s.rd64 Reg.IN_TAD_GSTART_LO
  else if pf ws 0 28 2 = 1 then s.rd64 Reg.IN_TAD_GSTART_LO + pf ws 1 0 20 else s.rd64 Reg.IN_TAD_WIDX_LO

theorem admitted_firstIndex (s : State) (c : CmdSpec) (p : Packet) (ws : List Word) : (s.admitted c p).firstIndex ws = s.firstIndex ws := by
  unfold State.firstIndex
  rw [rd64_card, rd64_card]

/-- What an opened handover stream's registers hold. -/
theorem handedOver_shows (s : State) (ws : List Word) {sid i0 : Nat} (lt : i0 < 2 ^ 64) :
    (s.handedOver ws sid i0).rd (F.DSP_STR_STAT_STATE sid) = stmWait ∧ (s.handedOver ws sid i0).rd (F.DSP_STR_CFG_STYPE sid) = 0xA ∧
      (s.handedOver ws sid i0).rd (F.DSP_STR_CFG_DTYPE sid) = 6 ∧ (s.handedOver ws sid i0).rd (F.DSP_STR_CFG_DIDX sid) = pf ws 0 16 4 ∧
      (s.handedOver ws sid i0).strCh sid = pf ws 0 12 3 + 1 ∧ (s.handedOver ws sid i0).rd64 (Reg.DSP_STR_IDX_LO sid) = i0 ∧
      (s.handedOver ws sid i0).tad = { s.tad with timer := none } ∧
      (s.handedOver ws sid i0).strs = s.strs ++ [newStreamX sid 0 0 0 (pf ws 0 12 3 + 1)] ∧
      Frame { strs := true, tad := true } (· ∈ strRegs sid) s (s.handedOver ws sid i0) := by
  have opened := openContext_regs s sid 0xA (pf ws 0 8 3) 6 (pf ws 0 16 4) (pf ws 0 12 3 + 1) (pf ws 0 24 2) (pf ws 1 31 1) 0 0x3F 0 3
  have context : Frame {} (· ∈ strRegs sid) s
      (s.openContext sid 0xA (pf ws 0 8 3) 6 (pf ws 0 16 4) (pf ws 0 12 3 + 1) (pf ws 0 24 2) (pf ws 1 31 1) 0 0x3F 0 3) :=
    (Local.openContext (.refl s) fun _ => id).frame fun mem => absurd (strRegs_ge mem) (by decide)
  unfold State.handedOver
  generalize s.openContext sid 0xA (pf ws 0 8 3) 6 (pf ws 0 16 4) (pf ws 0 12 3 + 1) (pf ws 0 24 2) (pf ws 1 31 1) 0 0x3F 0 3 = c at opened context
  obtain ⟨cfg, fmt, stat, -, -, -⟩ := opened
  have idx := c.rd64_wr64 (a := Reg.DSP_STR_IDX_LO sid) lt
  have cfg' : (c.wr64 (Reg.DSP_STR_IDX_LO sid) i0).reg (Reg.DSP_STR_CFG sid) = c.reg (Reg.DSP_STR_CFG sid) :=
    c.reg_wr64_ne i0 (by unfold Reg.DSP_STR_CFG Reg.DSP_STR_IDX_LO; omega) (by unfold Reg.DSP_STR_CFG Reg.DSP_STR_IDX_LO; omega)
  have fmt' : (c.wr64 (Reg.DSP_STR_IDX_LO sid) i0).reg (Reg.DSP_STR_FMT sid) = c.reg (Reg.DSP_STR_FMT sid) :=
    c.reg_wr64_ne i0 (by unfold Reg.DSP_STR_FMT Reg.DSP_STR_IDX_LO; omega) (by unfold Reg.DSP_STR_FMT Reg.DSP_STR_IDX_LO; omega)
  have indexed : Frame {} (· ∈ strRegs sid) s (c.wr64 (Reg.DSP_STR_IDX_LO sid) i0) :=
    context.wr64 (strRegs_of 4 (eq := by unfold Reg.DSP_STR_IDX_LO; omega)) (strRegs_of 5 (eq := by unfold Reg.DSP_STR_IDX_LO; omega))
  rw [cfg] at cfg'
  rw [fmt] at fmt'
  generalize c.wr64 (Reg.DSP_STR_IDX_LO sid) i0 = d at idx cfg' fmt' indexed
  obtain ⟨opens, strs, state⟩ := openStr_shows d (newStreamX sid 0 0 0 (pf ws 0 12 3 + 1))
  generalize d.openStr (newStreamX sid 0 0 0 (pf ws 0 12 3 + 1)) = u at opens strs state
  have ring := bits_lt (pw ws 0) 16 4
  have channel := bits_lt (pw ws 0) 8 3
  have count := bits_lt (pw ws 0) 12 3
  have width := bits_lt (pw ws 0) 24 2
  have inv := bits_lt (pw ws 1) 31 1
  simp only [pf] at *
  have other : ∀ a, a ≠ Reg.DSP_STR_STAT sid → 0x100440 ≤ a → u.reg a = d.reg a := fun a away hi => opens.reg_steady away (steady_above hi)
  have cfgOff : Reg.DSP_STR_CFG sid ≠ Reg.DSP_STR_STAT sid := by unfold Reg.DSP_STR_CFG Reg.DSP_STR_STAT; omega
  have fmtOff : Reg.DSP_STR_FMT sid ≠ Reg.DSP_STR_STAT sid := by unfold Reg.DSP_STR_FMT Reg.DSP_STR_STAT; omega
  have hcfg := (other _ cfgOff (by unfold Reg.DSP_STR_CFG; omega)).trans cfg'
  have hfmt := (other _ fmtOff (by unfold Reg.DSP_STR_FMT; omega)).trans fmt'
  refine ⟨?_, ?_, ?_, ?_, ?_, ?_, ?_, ?_, ?_⟩
  · rw [modTad_rd]; exact state
  · rw [modTad_rd, rd_of_reg (f := F.DSP_STR_CFG_STYPE sid) hcfg, bits_w32 (by omega)]
    simp only [F.DSP_STR_CFG_STYPE]
    omega
  · rw [modTad_rd, rd_of_reg (f := F.DSP_STR_CFG_DTYPE sid) hcfg, bits_w32 (by omega)]
    simp only [F.DSP_STR_CFG_DTYPE]
    omega
  · rw [modTad_rd, rd_of_reg (f := F.DSP_STR_CFG_DIDX sid) hcfg, bits_w32 (by omega)]
    simp only [F.DSP_STR_CFG_DIDX]
    omega
  · unfold State.strCh
    rw [modTad_rd, rd_of_reg (f := F.DSP_STR_FMT_NCH sid) hfmt, bits_w32 (by omega)]
    simp only [F.DSP_STR_FMT_NCH]
    omega
  · rw [modTad_rd64, State.rd64_congr (other _ _ _) (other _ _ _), idx]
    all_goals
      simp only [Reg.DSP_STR_IDX_LO, Reg.DSP_STR_STAT, ne_eq]
      omega
  · rw [modTad_tad, opens.tad, indexed.tad]
  · rw [modTad_strs, strs, indexed.strs]
  · have away : ¬ Reg.PWR_STATE ∈ strRegs sid := fun mem => absurd (strRegs_ge mem) (by decide)
    have opens' := opens.mono (Q := (· ∈ strRegs sid)) (fun a (e : a = Reg.DSP_STR_STAT sid) => e ▸ strRegs_of 2 (eq := by
      unfold Reg.DSP_STR_STAT; omega)) away
    exact ((indexed.widen.trans opens'.widen).modTad _)

theorem handover_eq {s : State} {ws : List Word} {sid : Nat} (start : pf ws 0 28 2 ≠ 3) (channels : pf ws 0 8 3 + (pf ws 0 12 3 + 1) ≤ s.tapN)
    (width : pf ws 0 24 2 ≠ 3) (ring : 4 ≤ pf ws 0 16 4) (on : s.ringOn (pf ws 0 16 4) = true)
    (dir : s.on (F.DSP_RING_CFG_DIR (pf ws 0 16 4)) = true) (opened : s.gate = gtOpen) (lo : s.rd64 Reg.IN_TAD_GSTART_LO ≤ s.firstIndex ws)
    (hi : s.firstIndex ws ≤ s.rd64 Reg.IN_TAD_WIDX_LO) (pick : s.sidPick (pf ws 0 0 7) = some sid)
    (claim : s.claimed 6 (pf ws 0 16 4) (pf ws 0 12 3 + 1) false = false) (free : s.pendFor? [.stream sid, .gate] = none) :
    s.handover ws = .done stsOk 0 [w32 (2 ^ 30 + sid), w32 (s.firstIndex ws), w32 (s.firstIndex ws / 2 ^ 32), w32 (s.rd F.IN_TAD_STAT_CAP)] []
      (s.handedOver ws sid (s.firstIndex ws)) := by
  unfold State.firstIndex at lo hi ⊢
  unfold State.handover
  dsimp only
  rw [if_neg, if_neg (not_not.2 opened), if_neg (by omega), pick]
  · dsimp only
    rw [if_neg (by rw [claim]; decide), unlessBusy_none free]
    rfl
  · rintro (e | e | e | e | e | e)
    · exact start e
    · omega
    · exact width e
    · omega
    · exact e on
    · exact e dir

/-- A SID that is picked is one of the 128. -/
theorem sidPick_lt {s : State} {n sid : Nat} (few : n < 128) (h : s.sidPick n = some sid) : sid < 128 := by
  unfold State.sidPick at h
  split at h
  · exact List.mem_range.1 (List.mem_of_find?_eq_some h)
  · split at h
    · exact Option.some.inj h ▸ few
    · exact absurd h (by simp)

theorem wakeHandover_answers {p : Packet} {s : State} {sid : Nat} (acc : Accepted cardWakeHandover p s) (close : pb p.payload 0 31 = false)
    (start : pf p.payload 0 28 2 ≠ 3) (channels : pf p.payload 0 8 3 + (pf p.payload 0 12 3 + 1) ≤ s.tapN)
    (width : pf p.payload 0 24 2 ≠ 3) (ring : 4 ≤ pf p.payload 0 16 4) (on : s.ringOn (pf p.payload 0 16 4) = true)
    (dir : s.on (F.DSP_RING_CFG_DIR (pf p.payload 0 16 4)) = true) (opened : s.gate = gtOpen)
    (lo : s.rd64 Reg.IN_TAD_GSTART_LO ≤ s.firstIndex p.payload) (hi : s.firstIndex p.payload ≤ s.rd64 Reg.IN_TAD_WIDX_LO)
    (pick : s.sidPick (pf p.payload 0 0 7) = some sid) (claim : s.claimed 6 (pf p.payload 0 16 4) (pf p.payload 0 12 3 + 1) false = false)
    (free : s.pendFor? [.stream sid, .gate] = none) :
    Answers (.wakeHandover p) cardWakeHandover p s 0 0 [w32 (2 ^ 30 + sid), w32 (s.firstIndex p.payload),
      w32 (s.firstIndex p.payload / 2 ^ 32), w32 (s.rd F.IN_TAD_STAT_CAP)]
      fun t => t.rd (F.DSP_STR_STAT_STATE sid) = stmWait ∧ t.rd (F.DSP_STR_CFG_STYPE sid) = 0xA ∧
        t.rd (F.DSP_STR_CFG_DTYPE sid) = 6 ∧ t.rd (F.DSP_STR_CFG_DIDX sid) = pf p.payload 0 16 4 ∧ t.strCh sid = pf p.payload 0 12 3 + 1 ∧
        t.rd64 (Reg.DSP_STR_IDX_LO sid) = s.firstIndex p.payload ∧ t.tad = { s.tad with timer := none } ∧ t.gate = gtOpen ∧
        t.strs = s.strs ++ [newStreamX sid 0 0 0 (pf p.payload 0 12 3 + 1)] ∧
        Touches ((List.range 8).map fun k => Reg.DSP_STR_CFG sid + 4 * k) s t ∧ { s.over t with strs := s.strs, tad := s.tad } = s := by
  have done := handover_eq (s := s.admitted cardWakeHandover p) (ws := p.payload) start (by rwa [admitted_tapN]) width ring
    (by rwa [admitted_ringOn]) (by rwa [on_card s _ p (f := F.DSP_RING_CFG_DIR _) (steady_ringCfg _)]) ((admitted_gate s _ p).trans opened)
    (by rwa [rd64_card, admitted_firstIndex]) (by rwa [rd64_card, admitted_firstIndex]) (by rwa [admitted_sidPick])
    (by rwa [admitted_claimed]) (by rwa [admitted_pendFor])
  rw [admitted_firstIndex, rd_card] at done
  have run : exec (.wakeHandover p) s = s.card cardWakeHandover p fun s => if pb p.payload 0 31 then s.handoverClose else s.handover p.payload := rfl
  obtain ⟨state, stype, dtype, didx, nch, idx, tad, strs, frame⟩ := handedOver_shows (s.admitted cardWakeHandover p) p.payload (sid := sid)
    (Nat.lt_of_le_of_lt hi (s.rd64_lt _))
  have whole : Frame { strs := true, tad := true } (· ∈ strRegs sid) s _ :=
    (Frame.admitted (fun mem => absurd (strRegs_ge mem) (by decide)) s _ p).trans frame
  refine answers_of_done run acc (Eq.trans (if_neg (by rw [close]; decide)) done) fun t but => ?_
  generalize (s.admitted cardWakeHandover p).handedOver p.payload sid (s.firstIndex p.payload) = u at state stype dtype didx nch idx tad strs frame whole but
  have few := sidPick_lt (bits_lt _ 0 7) pick
  have gateOff : ¬ Reg.IN_TAD_STAT ∈ strRegs sid := fun mem => by
    obtain ⟨k, lt, eq⟩ := List.mem_map.1 mem
    rw [List.mem_range] at lt
    unfold Reg.DSP_STR_CFG Reg.IN_TAD_STAT at eq
    omega
  have last : Frame {} (fun _ => False) u t := (Frame.refl id u).papol but
  refine ⟨(but.rd_steady (steady_above ?_)).trans state, (but.rd_steady (steady_above ?_)).trans stype,
    (but.rd_steady (steady_above ?_)).trans dtype, (but.rd_steady (steady_above ?_)).trans didx, ?_,
    (but.rd64_steady (steady_above ?_) (steady_above ?_)).trans idx, ?_, ?_, ?_, (whole.papol but).touches, (whole.papol but).rest⟩
  · exact Nat.le_trans (by decide) (Nat.le_add_right 0x102008 (0x20 * sid))
  · exact Nat.le_trans (by decide) (Nat.le_add_right 0x102000 (0x20 * sid))
  · exact Nat.le_trans (by decide) (Nat.le_add_right 0x102000 (0x20 * sid))
  · exact Nat.le_trans (by decide) (Nat.le_add_right 0x102000 (0x20 * sid))
  · unfold State.strCh at nch ⊢
    rw [but.rd_steady (f := F.DSP_STR_FMT_NCH sid) (steady_above (Nat.le_trans (by decide) (Nat.le_add_right 0x102004 (0x20 * sid))))]
    exact nch
  · exact Nat.le_trans (by decide) (Nat.le_add_right 0x102010 (0x20 * sid))
  · exact Nat.le_trans (Nat.le_trans (by decide) (Nat.le_add_right 0x102010 (0x20 * sid))) (Nat.le_add_right _ 4)
  · rw [last.tad, tad, admitted_tad]
  · exact ((whole.papol but).rd_steady gateOff).trans opened
  · rw [last.strs, strs, admitted_strs]

/-- Settles O47: press, release, timer and CLOSE move the gate's own registers; a handover opens its stream's context. -/
theorem gateOpensHandsOverAndSeals : Obligations.GateOpensHandsOverAndSeals := by
  intro p s
  dsimp only
  refine ⟨pttCfg_answers, fun awake en low => ⟨fun tap sealed => ?_, fun tap => ?_⟩,
    fun awake en high opened => pttRelease_releases awake en high opened,
    fun expired opened now none => gateTimeout_seals expired opened now none,
    fun acc opened now none => wakeHandoverClose_answers rfl acc opened now none,
    fun sid acc close start channels width ring on dir opened lo hi pick claim free =>
      wakeHandover_answers acc close start channels width ring on dir opened lo hi pick claim free⟩
  · obtain ⟨level, gate, timer, frame, gstart⟩ := pressAt_opens tap sealed (s.tad.tidx - 160)
    exact ⟨_, pttPress_eq awake en low, level, gate, timer, frame.touches, frame.rest, gstart⟩
  · obtain ⟨level, gate, frame⟩ := pressAt_noTap_holds tap (s.tad.tidx - 160)
    exact ⟨_, pttPress_eq awake en low, level, gate, frame.touches, frame.rest⟩

end Sys2Proof.Machine
end

section
/-!
# What an answer leaves of a command that has ended (spec/04_command_protocol.md, R176, R188)
-/

namespace Sys2Proof.Machine

-- One theorem after the other: in one text, theorems that wait for the kernel would each hold a thread.
set_option Elab.async false

theorem apart_bits {f g : Field} (width : f.lo + f.width ≤ 32) (bits : g.lo + g.width ≤ f.lo ∨ f.lo + f.width ≤ g.lo) :
    Field.apart f g = true := decide_eq_true (.inr ⟨width, bits⟩)

theorem apart_addr {f g : Field} (addr : g.addr ≠ f.addr) : Field.apart f g = true := decide_eq_true (.inl addr)

/-- What a journal entry tells of its command. -/
def ReplyEntry.told (e : ReplyEntry) : Bool × BitVec 16 × Nat := (e.ring1, e.cseq, e.status)

/-- The newest entry of a command, if there is one, tells this status. -/
def Tells (r : Bool) (c : BitVec 16) (st : Nat) (l : List ReplyEntry) : Prop :=
  ∀ e, l.reverse.find? (ReplyEntry.isFor r c) = some e → e.status = st

theorem Tells.congr {r : Bool} {c : BitVec 16} {st : Nat} {l m : List ReplyEntry} (h : Tells r c st l)
    (same : m.map ReplyEntry.told = l.map ReplyEntry.told) : Tells r c st m := by
  have newest : ∀ k : List ReplyEntry, (k.reverse.find? (ReplyEntry.isFor r c)).map (·.status) =
      ((k.map ReplyEntry.told).reverse.find? fun x => x.1 = r && x.2.1 = c).map (·.2.2) := fun k => by
    rw [← List.map_reverse, List.find?_map, Option.map_map]
    rfl
  intro e found
  have status := newest m
  rw [found, same, ← newest l] at status
  obtain ⟨f, found', eq⟩ := Option.map_eq_some_iff.1 status.symm
  exact eq.symm.trans (h f found')

theorem updReply_told {r : Bool} {c : BitVec 16} {f : ReplyEntry → ReplyEntry} (hf : ∀ e, (f e).told = e.told) :
    ∀ l : List ReplyEntry, (updReply r c f l).map ReplyEntry.told = l.map ReplyEntry.told
  | [] => rfl
  | e :: rest => by
    unfold updReply
    split
    · rw [List.map_cons, List.map_cons, hf]
    · rw [List.map_cons, List.map_cons, updReply_told hf rest]

theorem wrote_told (s : State) (h : HeldReply) :
    (s.wrote h).pap.replies.map ReplyEntry.told = s.pap.replies.map ReplyEntry.told := by
  have done : ∀ u : State, (if h.final then u.completed h.ring1 h.cseq else u).pap.replies = u.pap.replies := fun u => by split <;> rfl
  unfold State.wrote
  dsimp only
  rw [done]
  split
  · exact updReply_told (f := fun e => { e with eseq := s.pap.eseq }) (fun _ => rfl) _
  · rfl

theorem flushHeld_told : ∀ (l : List HeldReply) (s : State),
    (s.flushHeld l).pap.replies.map ReplyEntry.told = s.pap.replies.map ReplyEntry.told
  | [], _ => rfl
  | h :: rest, s => by
    unfold State.flushHeld
    split
    · rw [flushHeld_told rest, wrote_told, ringPut_pap]
    · rfl

theorem find?_append_drop {α : Type} {q : α → Bool} {l : List α} {n : Nat} {e : α} (h : (l.drop n).reverse.find? q = some e) :
    l.reverse.find? q = some e := by
  rw [← List.take_append_drop n l, List.reverse_append, List.find?_append, h]
  rfl

/-- One more entry that tells the same. -/
theorem Tells.push {r : Bool} {c : BitVec 16} {st : Nat} {l : List ReplyEntry} (h : Tells r c st l) {e : ReplyEntry} (own : e.status = st) :
    Tells r c st (pushReply l e) := by
  intro x found
  have all := find?_append_drop found
  rw [List.reverse_append, List.reverse_singleton, List.singleton_append, List.find?_cons] at all
  split at all
  · exact Option.some.inj all ▸ own
  · exact h x all

/-- An answer with the same status leaves a command ended. -/
theorem Ended.answered {e? : Option PendEntry} {st : Nat} {s t : State} (h : Ended e? st s t) (op : Nat) (p : Packet) (auth journal : Bool)
    (d : Nat) (tr : Bool) (ws : List Word) : Ended e? st s (t.answer op p auth journal st d tr ws) := by
  intro run
  have ended := h run
  cases e? with
  | none => exact (answer_slots t op p auth journal st d tr ws).trans ended
  | some x =>
    obtain ⟨slots, tells⟩ := ended
    refine ⟨(answer_slots t op p auth journal st d tr ws).trans slots, ?_⟩
    have journaled : ∀ e : ReplyEntry, e.status = st → Tells x.ring1 x.cseq st
        (if journal then { t with pap := { t.pap with replies := pushReply t.pap.replies e } } else t).pap.replies := fun e own => by
      split
      · exact Tells.push (l := t.pap.replies) tells own
      · exact tells
    show Tells x.ring1 x.cseq st (t.answer op p auth journal st d tr ws).pap.replies
    unfold State.answer
    dsimp only
    split
    · split
      · exact journaled _ rfl
      · exact journaled _ rfl
    · exact (journaled _ rfl).congr (flushHeld_told _ _)

theorem admitted_kept (s : State) (c : CmdSpec) (p : Packet) : PapolKept s (s.admitted c p) := by
  obtain ⟨x, y, z, pap⟩ := admitted_pap s c p
  unfold PapolKept
  rw [pap]
  exact ⟨rfl, rfl, rfl⟩

/-- A command that succeeds at once, and ends another. -/
theorem answers_ending {i : Instr} {c : CmdSpec} {p : Packet} {s s1 : State} {body : State → Res} {P : State → Prop} {d : Nat} {ws : List Word}
    {e? : Option PendEntry} (run : exec i s = s.card c p body) (acc : Accepted c p s) (done : body (s.admitted c p) = .done stsOk d ws [] s1)
    (ended : Ended e? stsOk s s1) (holds : ∀ t, PapolBut papolReg (papolByte s1) s1 t → Ended e? stsOk s t → P t) :
    Answers i c p s stsOk d ws P := by
  let tr := decide (c.opcode = 0x002 ∧ 16 < bits (pw ws 0) 0 16)
  have answered := answer_papol s1 c.opcode p p.auth true stsOk d tr ws
  have replied := answer_replied s1 c p p.auth stsOk d tr ws
  have stays := ended.answered c.opcode p p.auth true d tr ws
  generalize eq : s1.answer c.opcode p p.auth true stsOk d tr ws = a at answered replied stays
  have counted := countCfg_papol a c.cfg stsOk
  refine ⟨a.countCfg c.cfg stsOk, ?_, replied.congr counted.2.1, holds _ ?_ (stays.kept counted.2)⟩
  · rw [run]
    refine (congrArg Host.Outcome.next (take_accepted acc body id)).trans ?_
    rw [done, ← eq]
    rfl
  · have both := counted.1
    rw [papolByte_congr answered.rings] at both
    exact answered.trans both

end Sys2Proof.Machine
end

section
/-!
# The march test (spec/07_shared_banks.md, R343 to R350)
-/

namespace Sys2Proof.Machine

-- One theorem after the other: in one text, theorems that wait for the kernel would each hold a thread.
set_option Elab.async false

/-! ## What a copy leaves of the borrow -/

/-- Every register but a bank's STAT. -/
def offStat (b a : Nat) : Prop := a ≠ Reg.DSP_SB_STAT b ∧ a ≠ Reg.PWR_STATE

/-- The two fields that tell the borrowed row of a bank. -/
def borrowField (b : Nat) (f : Field) : Prop := f = F.DSP_SB_STAT_BORROW b ∨ f = F.DSP_SB_STAT_BROW b

/-- The borrowed row of a bank stays as it is. -/
def BorrowKept (b : Nat) (s t : State) : Prop := ∀ f, borrowField b f → t.rd f = s.rd f

section
variable {b : Nat} {s t u : State}

theorem BorrowKept.refl (s : State) : BorrowKept b s s := fun _ _ => rfl

theorem BorrowKept.trans (h : BorrowKept b s t) (k : BorrowKept b t u) : BorrowKept b s u := fun f m => (k f m).trans (h f m)

theorem borrowField_addr {f : Field} (h : borrowField b f) : f.addr = Reg.DSP_SB_STAT b := by
  rcases h with rfl | rfl <;> rfl

theorem BorrowKept.frame {m : Parts} (h : BorrowKept b s t) (k : Frame m (offStat b) t u) : BorrowKept b s u := fun f field => by
  have addr := borrowField_addr field
  exact (k.rd_steady (fun off => off.1 addr) (by rw [addr]; exact steady_bank b)).trans (h f field)

/-- A bit of STAT below the two fields, or above them. -/
theorem BorrowKept.set1 (h : BorrowKept b s t) {n : Nat} (low : n < 12 ∨ 24 ≤ n) (top : n < 32 := by decide) :
    BorrowKept b s (t.set1 ⟨Reg.DSP_SB_STAT b, n, 1⟩) := fun f field => by
  refine Eq.trans ?_ (h f field)
  have bits : f.lo + f.width ≤ n ∨ n + 1 ≤ f.lo := by
    rcases field with rfl | rfl
    · show 23 + 1 ≤ n ∨ n + 1 ≤ 23
      omega
    · show 12 + 9 ≤ n ∨ n + 1 ≤ 12
      omega
  exact State.rd_wr_apart t 1 (show n + 1 ≤ 32 from top) (.inr bits)

theorem offStat_of {a : Nat} (off : a < 0x104000 ∨ 0x104100 ≤ a ∨ a % 0x10 ≠ 0) (few : b < 16) (state : a ≠ Reg.PWR_STATE := by decide) :
    offStat b a := ⟨by unfold Reg.DSP_SB_STAT; omega, state⟩

end

/-! ## Fault handling -/

section
variable {m : Parts} {R : Nat → Prop} {s t : State}

theorem Frame.level (h : Frame m R s t) {region lvl : Nat} (err : R (errLevel region).addr) : Frame m R s (t.level region lvl) := by
  unfold State.level
  exact .ite h (h.wr err)

theorem Frame.takesUp (h : Frame m R s t) {w : Work} (err : R (errLevel w.region).addr) (hm : m.saf = true := by rfl) :
    Frame m R s (t.takesUp w) := by
  unfold State.takesUp
  exact .ite h (Frame.level (h.upd (by simp only [State.but, hm, cond_true, Bool.cond_self])) err)

theorem Frame.ends (h : Frame m R s t) {region code sub unit : Nat} (err : R (errLevel region).addr) (hm : m.saf = true := by rfl) :
    Frame m R s (t.ends region code sub unit) :=
  Frame.level (h.upd (by simp only [State.but, hm, cond_true, Bool.cond_self])) err

theorem Frame.escalated (h : Frame m R s t) {region : Nat} (err : R (errLevel region).addr) : Frame m R s (t.escalated region) := by
  unfold State.escalated
  exact .ite h ((h.sat (f := errEsc region) err).set1 (f := errChipEsc region) err)

theorem Frame.repCount (h : Frame m R s t) {region : Nat} (err : R (errLevel region).addr) : Frame m R s (t.repCount region) := by
  unfold State.repCount
  exact .ite h (h.sat (f := errRep region) err)

theorem Frame.raiseBankRepair (h : Frame m R s t) {kind bank spare cause row col bit : Nat} :
    Frame m R s (t.raiseBankRepair kind bank spare cause row col bit) := h.raise

end

/-- What a bank's errors may touch besides its STAT. -/
def bankParts : Parts := { saf := true, draw := true, banks := true }

theorem retpend_kept {b : Nat} (few : b < 16) {s t : State} (h : BorrowKept b s t) (cause row col bit : Nat) :
    BorrowKept b s (t.retpend b cause row col bit) := by
  have err : offStat b (errLevel rgDsp).addr := offStat_of (by decide) few
  have fn : offStat b Reg.SAFE_FN_STAT := offStat_of (by decide) few
  have sm : offStat b Reg.SAFE_SM_STAT := offStat_of (by decide) few
  have away : ¬ offStat b Reg.PWR_STATE := fun k => k.2 rfl
  have pending : BorrowKept b s (((t.set1 (F.DSP_SB_STAT_RETPEND b)).raiseBankRepair 5 b 0xF cause row col bit).ends rgDsp 0x205 row b) :=
    (h.set1 (n := 29) (.inr (by decide))).frame (m := bankParts) (((Frame.refl away _).raiseBankRepair).ends err)
  unfold State.retpend
  dsimp only
  split
  · exact pending.frame (m := bankParts) (((Frame.refl away _).fault rfl rfl fn sm).escalated err)
  · exact pending

theorem replaceRow_kept {b : Nat} (few : b < 16) {s t : State} (h : BorrowKept b s t) {r : RowRepl} (own : r.bank = b) :
    BorrowKept b s (t.replaceRow r) := by
  unfold State.replaceRow
  split
  · exact h
  · split
    · exact h
    · rw [own]
      exact retpend_kept few h _ _ _ _

theorem BorrowKept.off {b : Nat} (few : b < 16) {s t : State} (h : BorrowKept b s t) {f : Field} {v : Nat}
    (off : f.addr % 0x10 ≠ 0) (lo : 0x100000 ≤ f.addr) : BorrowKept b s (t.wr f v) :=
  h.frame (m := {}) ((Frame.refl (fun k => k.2 rfl) t).wr (offStat_of (.inr (.inr off)) few (Nat.ne_of_gt (Nat.lt_of_lt_of_le (by decide) lo))))

/-- An error of a bank is counted and shown in LASTERR. -/
def State.errCounted (s : State) (b : Nat) (cnt : Field) (n : Nat) (w : Word) : State :=
  ((s.sat cnt 1).set1 ⟨Reg.DSP_SB_STAT b, n, 1⟩).setReg (Reg.DSP_SB_LASTERR b) w

theorem errCounted_kept {b : Nat} (few : b < 16) {s t : State} (h : BorrowKept b s t) {cnt : Field} (addr : cnt.addr = Reg.DSP_SB_ECC b)
    {n : Nat} (low : n < 12) (w : Word) : BorrowKept b s (t.errCounted b cnt n w) := by
  have away : ¬ offStat b Reg.PWR_STATE := fun k => k.2 rfl
  have ecc : offStat b cnt.addr := by
    rw [addr]
    exact offStat_of (.inr (.inr (show (0x104004 + 0x10 * b) % 0x10 ≠ 0 by omega))) few (show 0x104004 + 0x10 * b ≠ 0xE0000 by omega)
  have last : offStat b (Reg.DSP_SB_LASTERR b) :=
    offStat_of (.inr (.inr (show (0x104008 + 0x10 * b) % 0x10 ≠ 0 by omega))) few (show 0x104008 + 0x10 * b ≠ 0xE0000 by omega)
  exact ((h.frame (m := {}) ((Frame.refl away t).sat ecc)).set1 (.inl low) (by omega)).frame (m := {}) ((Frame.refl away _).setReg last)

/-- A bit position in which a row has been corrected is listed. -/
def State.corListed (s : State) (b row bit : Nat) : State :=
  if s.banks.corr.contains (b, row, bit) then s
  else { s with banks := { s.banks with corr := s.banks.corr ++ [(b, row, bit)] } }

theorem corListed_kept {b : Nat} {s t : State} (h : BorrowKept b s t) (row bit : Nat) : BorrowKept b s (t.corListed b row bit) := by
  unfold State.corListed
  split
  · exact h
  · exact h

theorem bankCor_eq (s : State) (b row col bit : Nat) : ∃ u : State,
    u = (s.errCounted b (F.DSP_SB_ECC_CORCNT b) 0 (w32 (bit * 2 ^ 24 + row * 2 ^ 6 + col))).corListed b row bit ∧
    s.bankCor b row col bit = if 2 ≤ (u.banks.corr.filter (fun (e : Nat × Nat × Nat) => e.1 = b ∧ e.2.1 = row)).length then
      u.replaceRow ⟨b, row, 0, col, bit⟩ else u := ⟨_, rfl, rfl⟩

theorem bankCor_kept {b : Nat} (few : b < 16) {s t : State} (h : BorrowKept b s t) (row col bit : Nat) :
    BorrowKept b s (t.bankCor b row col bit) := by
  obtain ⟨u, eq, seen⟩ := bankCor_eq t b row col bit
  have listed : BorrowKept b s u := by
    rw [eq]
    exact corListed_kept (errCounted_kept few h (cnt := F.DSP_SB_ECC_CORCNT b) rfl (by decide) _) _ _
  rw [seen]
  split
  · exact replaceRow_kept few listed rfl
  · exact listed

/-- An uncorrectable word of the DSP region is dealt with once. -/
theorem dealUnc_kept {b : Nat} (few : b < 16) {s t : State} (h : BorrowKept b s t) (row col : Nat) :
    BorrowKept b s (t.dealUnc b row col) := by
  have err : offStat b (errLevel rgDsp).addr := offStat_of (by decide) few
  unfold State.dealUnc
  dsimp only
  split
  · exact h
  · have dealt : BorrowKept b s { t with banks := { t.banks with dealt := t.banks.dealt ++ [bankAddr b row col] } } := h
    exact replaceRow_kept few (dealt.frame (m := bankParts) (Frame.takesUp (.refl (fun k => k.2 rfl) _) err)) rfl

/-- The word is poisoned. -/
def State.poisoned (s : State) (a : Nat) : State :=
  if s.poison.contains a then s
  else { s with poison := s.poison ++ [a], banks := { s.banks with dealt := s.banks.dealt.filter (· ≠ a) } }

theorem bankUnc_eq (s : State) (b row col : Nat) : ∃ open?, s.bankUnc b row col =
    (((s.poisoned (bankAddr b row col)).errCounted b (F.DSP_SB_ECC_UNCCNT b) 1 (w32 (2 ^ 31 + 0x7F * 2 ^ 24 + row * 2 ^ 6 + col))).fault
      { code := 0x205, df := 0, region := rgDsp, level := 3, sub := row, unit := b, detail := 0, inj := false, active := open? }).dealUnc
        b row col := ⟨_, rfl⟩

theorem bankUnc_kept {b : Nat} (few : b < 16) {s t : State} (h : BorrowKept b s t) (row col : Nat) :
    BorrowKept b s (t.bankUnc b row col) := by
  have away : ¬ offStat b Reg.PWR_STATE := fun k => k.2 rfl
  have fn : offStat b Reg.SAFE_FN_STAT := offStat_of (by decide) few
  have sm : offStat b Reg.SAFE_SM_STAT := offStat_of (by decide) few
  have poisoned : BorrowKept b s (t.poisoned (bankAddr b row col)) := by
    unfold State.poisoned
    split
    · exact h
    · exact h
  obtain ⟨active, eq⟩ := bankUnc_eq t b row col
  rw [eq]
  have counted := errCounted_kept few poisoned (cnt := F.DSP_SB_ECC_UNCCNT b) rfl (n := 1) (by decide)
    (w32 (2 ^ 31 + 0x7F * 2 ^ 24 + row * 2 ^ 6 + col))
  exact dealUnc_kept few (counted.frame (m := bankParts) ((Frame.refl away _).fault rfl rfl fn sm)) row col

/-- What the copy of a borrowed row meets leaves the borrow as it is. -/
theorem copyMet_kept {b : Nat} (few : b < 16) (row : Nat) : ∀ (met : List CopyErr) {s t : State}, BorrowKept b s t →
    BorrowKept b s (t.copyMet b row met)
  | [], _, _, h => h
  | e :: met, s, t, h => by
    refine copyMet_kept few row met (t := match e.bit with
      | some k => t.bankCor b row e.col.val k.val
      | none => t.bankUnc b row e.col.val) ?_
    split
    · exact bankCor_kept few h _ _ _
    · exact bankUnc_kept few h _ _

/-! ## MARCH_RUN -/

/-- The banks' part of the state changes. -/
def State.modBanks (s : State) (f : Banks → Banks) : State := { s with banks := f s.banks }

theorem modBanks_rd (s : State) (f : Banks → Banks) (g : Field) : (s.modBanks f).rd g = s.rd g := rfl
theorem modBanks_on (s : State) (f : Banks → Banks) (g : Field) : (s.modBanks f).on g = s.on g := rfl
theorem modBanks_banks (s : State) (f : Banks → Banks) : (s.modBanks f).banks = f s.banks := rfl
theorem modBanks_pap (s : State) (f : Banks → Banks) : (s.modBanks f).pap = s.pap := rfl

theorem Local.modBanks {m : Parts} {R : Nat → Prop} {s t : State} (h : Local m R s t) (f : Banks → Banks) (hm : m.banks = true := by rfl) :
    Local m R s (t.modBanks f) := by
  unfold State.modBanks
  exact h.upd (by simp only [State.but, hm, cond_true, Bool.cond_self])

/-- A march is under way, with nothing found yet. -/
def State.marchOn (s : State) : State := ((s.set1 F.DSP_SB_MARCH_ACTIVE).clr F.DSP_SB_MARCH_SKIP).wr F.DSP_SB_MARCH_FAILS 0

/-- A march begins on a map of banks. -/
def State.marched (s : State) (map pace : Nat) : State :=
  ((s.marchOn.modBanks fun q => { q with pace := pace, march := map }).wr F.DSP_SB_MARCH_BANK (lowestBank map)).wr F.DSP_SB_MARCH_ROW 0

theorem lowestBank_spec {m : Nat} (some' : ∃ b, b < 16 ∧ inMask m b = true) :
    lowestBank m < 16 ∧ inMask m (lowestBank m) = true ∧ ∀ k, k < 16 → inMask m k = true → lowestBank m ≤ k := by
  obtain ⟨b, lt, mem⟩ := some'
  have found : ((List.range 16).find? (fun b => inMask m b)).isSome = true :=
    List.find?_isSome.2 ⟨b, List.mem_range.2 lt, mem⟩
  obtain ⟨x, hx⟩ := Option.isSome_iff_exists.1 found
  have eq : lowestBank m = x := by unfold lowestBank; rw [hx]; rfl
  rw [eq]
  refine ⟨List.mem_range.1 (List.mem_of_find?_eq_some hx), List.find?_some hx, fun k few bit => ?_⟩
  obtain ⟨-, -, before⟩ := List.find?_range_eq_some.1 hx
  by_contra less
  have off := before k (by omega)
  rw [bit] at off
  exact absurd off (by decide)

/-- A map of 16 bits that is not empty holds a bank. -/
theorem inMask_exists {m : Nat} (few : m < 2 ^ 16) (some' : m ≠ 0) : ∃ b, b < 16 ∧ inMask m b = true := by
  obtain ⟨b, bit⟩ := Nat.exists_testBit_of_ne_zero some'
  refine ⟨b, ?_, ?_⟩
  · by_contra high
    rw [Nat.testBit_lt_two_pow (Nat.lt_of_lt_of_le few (Nat.pow_le_pow_right (by decide) (by omega)))] at bit
    exact absurd bit (by decide)
  · rw [Nat.testBit_eq_decide_div_mod_eq] at bit
    exact bit

theorem marched_shows (s : State) {map pace : Nat} (few : map < 2 ^ 16) (some' : map ≠ 0) :
    (s.marched map pace).on F.DSP_SB_MARCH_ACTIVE = true ∧ (s.marched map pace).rd F.DSP_SB_MARCH_BANK = lowestBank map ∧
      (s.marched map pace).rd F.DSP_SB_MARCH_ROW = 0 ∧ (s.marched map pace).banks = { s.banks with pace := pace, march := map } ∧
      Local { banks := true } (· ∈ [Reg.DSP_SB_MARCH]) s (s.marched map pace) := by
  obtain ⟨lt, -, -⟩ := lowestBank_spec (inMask_exists few some')
  have active : s.marchOn.on F.DSP_SB_MARCH_ACTIVE = true := by
    unfold State.marchOn
    rw [State.on_wr_off _ _, State.on_clr_off _, State.on_set1_same]
  have first : Local { banks := true } (· ∈ [Reg.DSP_SB_MARCH]) s s.marchOn :=
    (((Local.refl s).set1 (f := F.DSP_SB_MARCH_ACTIVE) (by decide)).clr (f := F.DSP_SB_MARCH_SKIP) (by decide)).wr
      (f := F.DSP_SB_MARCH_FAILS) (by decide)
  have banks : s.marchOn.banks = s.banks := by
    unfold State.marchOn
    rw [State.wr_banks, State.clr_banks, State.set1_banks]
  unfold State.marched
  refine ⟨?_, ?_, State.rd_wr_fits _ (by decide) (by decide), ?_, ?_⟩
  · rw [State.on_wr_off _ _, State.on_wr_off _ _, modBanks_on, active]
  · rw [State.rd_wr_off _ _, State.rd_wr_fits _ (by decide) lt]
  · rw [State.wr_banks, State.wr_banks, modBanks_banks, banks]
  · exact ((first.modBanks _).wr (f := F.DSP_SB_MARCH_BANK) (by decide)).wr (f := F.DSP_SB_MARCH_ROW) (by decide)

theorem marchRunBody_starts {ws : List Word} {s : State} (some' : pf ws 0 0 16 ≠ 0)
    (on : ∀ k, k < 16 → inMask (pf ws 0 0 16) k = true → s.bankOn k = true) (free : s.pendFor? [.march] = none) :
    marchRunBody false ws s = .pend [] [.march] (s.marched (pf ws 0 0 16) (pf ws 1 0 8)) := by
  have all : ((List.range 16).any fun b => inMask (pf ws 0 0 16) b && !s.bankOn b) = false := by
    rw [List.any_eq_false]
    intro b mem
    cases bit : inMask (pf ws 0 0 16) b with
    | false => rw [Bool.false_and]; decide
    | true => rw [on b (List.mem_range.1 mem) bit]; decide
  unfold marchRunBody State.marchNext
  dsimp only
  rw [if_neg (by decide), if_neg (by rintro (e | e); exacts [some' e, absurd e (by rw [all]; decide)]), unlessBusy_none free,
    if_neg some']
  rfl

theorem marchRun_awaits {p : Packet} {s : State} (acc : Accepted cardMarchRun p s) (run : pb p.payload 1 31 = false)
    (some' : pf p.payload 0 0 16 ≠ 0) (on : ∀ k, k < 16 → inMask (pf p.payload 0 0 16) k = true → s.bankOn k = true) (free : Free s [.march]) :
    Awaits (.marchRun p) cardMarchRun p s [] [.march] fun t =>
      t.on F.DSP_SB_MARCH_ACTIVE = true ∧ inMask (pf p.payload 0 0 16) (t.rd F.DSP_SB_MARCH_BANK) = true ∧
      (∀ k, k < 16 → inMask (pf p.payload 0 0 16) k = true → t.rd F.DSP_SB_MARCH_BANK ≤ k) ∧ t.rd F.DSP_SB_MARCH_ROW = 0 ∧
      t.banks.march = pf p.payload 0 0 16 ∧ t.banks.pace = pf p.payload 1 0 8 ∧ Touches [Reg.DSP_SB_MARCH] s t ∧
      { s.over t with banks := s.banks } = s := by
  have few : pf p.payload 0 0 16 < 2 ^ 16 := bits_lt _ 0 16
  obtain ⟨-, bit, least⟩ := lowestBank_spec (inMask_exists few some')
  obtain ⟨active, bank, row, banks, moved⟩ := marched_shows (s.admitted cardMarchRun p) (pace := pf p.payload 1 0 8) few some'
  have run' : exec (.marchRun p) s = s.card cardMarchRun p (marchRunBody false p.payload) := by
    show execMarchRun p s = _
    unfold execMarchRun
    rw [run]
  have body := marchRunBody_starts (s := s.admitted cardMarchRun p) some' (fun k lt mem => by
    unfold State.bankOn
    rw [rd_card s _ p (f := F.DSP_SB_STAT_PWR k) (steady_bank k)]
    exact on k lt mem) (by rw [admitted_pendFor, free.1])
  have frame : Frame { banks := true } (· ∈ [Reg.DSP_SB_MARCH]) s _ := moved.within (Frame.admitted (by decide) s _ p)
  have slot : ((s.admitted cardMarchRun p).marched (pf p.payload 0 0 16) (pf p.payload 1 0 8)).freeSlot? ≠ none := by
    unfold State.freeSlot?
    rw [moved.pap]
    exact (admitted_free free).2
  generalize (s.admitted cardMarchRun p).marched (pf p.payload 0 0 16) (pf p.payload 1 0 8) = u at active bank row banks frame slot body
  refine awaits_of_pend run' acc body slot fun t but => ?_
  have kept := congrArg State.banks but.rest
  have banks' : t.banks = u.banks := kept
  exact ⟨but.on_steady.trans active, by rw [but.rd_steady, bank]; exact bit, fun k lt mem => by rw [but.rd_steady, bank]; exact least k lt mem,
    but.rd_steady.trans row, by rw [banks', banks], by rw [banks', banks], (frame.papol but).touches, (frame.papol but).rest⟩

/-! ## Release -/

/-- No row replacement of the borrowed row waits. -/
def State.noneDue (s : State) (b row : Nat) : Prop := ∀ r ∈ s.banks.repls, ¬ (r.bank = b ∧ r.row = row)

theorem noneDue_find {s : State} {b row : Nat} (h : s.noneDue b row) :
    (s.banks.repls.find? fun r => r.bank = b && r.row = row) = none := by
  rw [List.find?_eq_none]
  intro r mem
  simpa using h r mem

theorem noneDue_filter {s : State} {b row : Nat} (h : s.noneDue b row) :
    (s.banks.repls.filter fun r => !(r.bank = b && r.row = row)) = s.banks.repls := by
  rw [List.filter_eq_self]
  intro r mem
  simp only [Bool.not_eq_true', Bool.and_eq_false_iff, decide_eq_false_iff_not]
  exact not_and_or.1 (h r mem)

theorem marchFound_sound {s : State} {b row : Nat} (h : s.noneDue b row) : s.marchFound b row none = s := by
  unfold State.marchFound
  dsimp only
  rw [noneDue_find h, noneDue_filter h]

theorem noneDue_clr {s : State} {b row : Nat} (h : s.noneDue b row) (f : Field) : (s.clr f).noneDue b row := by
  unfold State.noneDue
  rw [State.clr_banks]
  exact h

/-- A release with nothing found only ends the borrow. -/
theorem marchRelease_sound {s : State} {b : Nat} (none : s.noneDue b (s.rd (F.DSP_SB_STAT_BROW b))) :
    s.marchRelease b Option.none = if s.on (F.DSP_SB_STAT_BORROW b) then s.clr (F.DSP_SB_STAT_BORROW b) else s := by
  unfold State.marchRelease
  rw [marchFound_sound (noneDue_clr none _)]

/-- What a sound release leaves. -/
theorem marchRelease_shows {m : Parts} {s : State} {b : Nat} (none : s.noneDue b (s.rd (F.DSP_SB_STAT_BROW b))) :
    Local m (· = Reg.DSP_SB_STAT b) s (s.marchRelease b Option.none) ∧ (s.marchRelease b Option.none).on (F.DSP_SB_STAT_BORROW b) = false := by
  rw [marchRelease_sound none]
  split
  · exact ⟨(Local.refl s).clr (f := F.DSP_SB_STAT_BORROW b) rfl, s.on_clr_same (f := F.DSP_SB_STAT_BORROW b) (show 23 + 1 ≤ 32 by decide)⟩
  · rename_i off
    exact ⟨.refl s, Bool.not_eq_true _ ▸ off⟩

/-- The march is over, its command still to end. -/
def State.marchOver (s : State) : State := (s.modBanks fun q => { q with march := 0 }).clr F.DSP_SB_MARCH_ACTIVE

theorem marchEnd_eq (s : State) : s.marchEnd = s.marchOver.finishFor .march 0x903 stsOk [] := rfl

theorem marchOver_shows (s : State) : s.marchOver.on F.DSP_SB_MARCH_ACTIVE = false ∧ s.marchOver.banks.march = 0 ∧
    Local { banks := true } (· = Reg.DSP_SB_MARCH) s s.marchOver := by
  unfold State.marchOver
  exact ⟨State.on_clr_same _, by rw [State.clr_banks, modBanks_banks], ((Local.refl s).modBanks _).clr (f := F.DSP_SB_MARCH_ACTIVE) rfl⟩

theorem marchEnd_shows (s : State) : s.marchEnd.on F.DSP_SB_MARCH_ACTIVE = false ∧ s.marchEnd.banks.march = 0 ∧
    Frame { banks := true } (· = Reg.DSP_SB_MARCH) s s.marchEnd ∧
    ∀ u, PapolKept u s → Ended (u.workFor? .march 0x903) stsOk u s.marchEnd := by
  obtain ⟨off, march, moved⟩ := marchOver_shows s
  have kept := moved.kept
  have frame := moved.frame (by decide)
  rw [marchEnd_eq]
  generalize s.marchOver = o at off march kept frame
  have last := Frame.finishFor (Frame.refl (m := {}) (R := fun _ => False) id o) (tg := .march) (op := 0x903) (st := stsOk) (ws := [])
  exact ⟨(last.on_steady id).trans off, by rw [last.banks, march], frame.finishFor, fun u k => finishFor_ended (k.trans kept) _ _ _ _⟩

theorem state_not_stat (b : Nat) : ¬ (fun a => a = Reg.DSP_SB_STAT b) Reg.PWR_STATE := fun e => by
  have : 0xE0000 = 0x104000 + 0x10 * b := e
  omega

/-- STAT of a bank that the march tests is not MARCH. -/
theorem march_bank_apart (s : State) : Reg.DSP_SB_STAT (s.rd F.DSP_SB_MARCH_BANK) ≠ Reg.DSP_SB_MARCH := by
  have few : s.rd F.DSP_SB_MARCH_BANK < 16 := s.rd_lt F.DSP_SB_MARCH_BANK
  show 0x104000 + 0x10 * s.rd F.DSP_SB_MARCH_BANK ≠ 0x104100
  omega

theorem marchRunAbort_answers {p : Packet} {s : State}
    (acc : Accepted cardMarchRun { p with payload := [pw p.payload 0, putBits (pw p.payload 1) 31 1 1] ++ p.payload.drop 2 } s)
    (active : s.on F.DSP_SB_MARCH_ACTIVE = true) (none : s.noneDue (s.rd F.DSP_SB_MARCH_BANK) (s.rd (F.DSP_SB_STAT_BROW (s.rd F.DSP_SB_MARCH_BANK)))) :
    Answers (.marchRunAbort p) cardMarchRun { p with payload := [pw p.payload 0, putBits (pw p.payload 1) 31 1 1] ++ p.payload.drop 2 } s 0 0 []
      fun t => Ended (s.workFor? .march 0x903) stsOk s t ∧
        t.on F.DSP_SB_MARCH_ACTIVE = false ∧ t.on (F.DSP_SB_STAT_BORROW (s.rd F.DSP_SB_MARCH_BANK)) = false ∧ t.banks.march = 0 ∧
        Touches [Reg.DSP_SB_MARCH, Reg.DSP_SB_STAT (s.rd F.DSP_SB_MARCH_BANK)] s t ∧ { s.over t with banks := s.banks } = s := by
  have run : exec (.marchRunAbort p) s = s.card cardMarchRun { p with payload := _ } (marchRunBody true _) := rfl
  generalize ({ p with payload := [pw p.payload 0, putBits (pw p.payload 1) 31 1 1] ++ p.payload.drop 2 } : Packet) = q at acc run
  have apart := march_bank_apart s
  have due : (s.admitted cardMarchRun q).noneDue (s.rd F.DSP_SB_MARCH_BANK)
      ((s.admitted cardMarchRun q).rd (F.DSP_SB_STAT_BROW (s.rd F.DSP_SB_MARCH_BANK))) := by
    unfold State.noneDue
    rw [admitted_banks, rd_card s _ q (f := F.DSP_SB_STAT_BROW _) (steady_bank _)]
    exact none
  obtain ⟨released, ended⟩ := marchRelease_shows (m := { banks := true }) due
  have body : ∀ ws, marchRunBody true ws (s.admitted cardMarchRun q) =
      .done stsOk 0 [] [] ((s.admitted cardMarchRun q).marchRelease (s.rd F.DSP_SB_MARCH_BANK) Option.none).marchEnd := by
    intro ws
    unfold marchRunBody
    dsimp only
    rw [if_pos rfl, on_card, if_pos active, rd_card]
    rfl
  have first := released.within (.admitted (state_not_stat _) s cardMarchRun q)
  have kept := (admitted_kept s cardMarchRun q).trans released.kept
  generalize (s.admitted cardMarchRun q).marchRelease (s.rd F.DSP_SB_MARCH_BANK) Option.none = r at body released ended first kept
  obtain ⟨off, march, last, ends⟩ := marchEnd_shows r
  have away : ¬ (Reg.PWR_STATE ∈ [Reg.DSP_SB_MARCH, Reg.DSP_SB_STAT (s.rd F.DSP_SB_MARCH_BANK)]) := by
    rw [List.mem_cons, List.mem_singleton]
    rintro (e | e)
    · exact absurd e (by decide)
    · exact state_not_stat _ e
  have frame : Frame { banks := true } (· ∈ [Reg.DSP_SB_MARCH, Reg.DSP_SB_STAT (s.rd F.DSP_SB_MARCH_BANK)]) s r.marchEnd :=
    (first.mono (fun a e => e ▸ List.mem_cons_of_mem _ List.mem_cons_self) away).trans
      (last.mono (fun a e => e ▸ List.mem_cons_self) away)
  have borrow : r.marchEnd.on (F.DSP_SB_STAT_BORROW (s.rd F.DSP_SB_MARCH_BANK)) = false :=
    (last.on_steady (f := F.DSP_SB_STAT_BORROW _) apart (steady_bank _)).trans ended
  generalize r.marchEnd = u at off march ends body frame borrow
  refine answers_ending run acc (body _) (ends s kept) fun t but ended' => ⟨ended', but.on_steady.trans off,
    (but.on_steady (f := F.DSP_SB_STAT_BORROW _) (steady_bank _)).trans borrow, ?_, (frame.papol but).touches, (frame.papol but).rest⟩
  have kept' := congrArg State.banks but.rest
  exact (show t.banks.march = u.banks.march from congrArg Banks.march kept').trans march

/-! ## MARCH_ROW_START -/

/-- The next row of the march's bank is borrowed. -/
def State.rowBorrowed (s : State) (b : Nat) : State :=
  (s.set1 (F.DSP_SB_STAT_BORROW b)).wr (F.DSP_SB_STAT_BROW b) (s.rd F.DSP_SB_MARCH_ROW)

theorem rowBorrowed_borrowed (s : State) (b : Nat) : (s.rowBorrowed b).borrowed b (s.rd F.DSP_SB_MARCH_ROW) = true := by
  unfold State.rowBorrowed State.borrowed
  rw [State.on_wr_off _ _ (apart_bits (show 12 + 9 ≤ 32 by decide) (.inr (show 12 + 9 ≤ 23 by decide))),
    State.on_set1_same _ (show 23 + 1 ≤ 32 ∧ 0 < 1 by decide),
    State.rd_wr_fits (f := F.DSP_SB_STAT_BROW b) _ (show 12 + 9 ≤ 32 by decide) (s.rd_lt F.DSP_SB_MARCH_ROW)]
  rw [Bool.true_and, decide_eq_true_eq]

theorem borrowed_kept {b row : Nat} {s t : State} (h : BorrowKept b s t) (k : s.borrowed b row = true) : t.borrowed b row = true := by
  unfold State.borrowed State.on at *
  rw [h _ (.inl rfl), h _ (.inr rfl)]
  exact k

theorem marchRowStart_borrows {s : State} (active : s.on F.DSP_SB_MARCH_ACTIVE = true) (on : s.bankOn (s.rd F.DSP_SB_MARCH_BANK) = true)
    (free : s.on (F.DSP_SB_STAT_BORROW (s.rd F.DSP_SB_MARCH_BANK)) = false) (met : List CopyErr) : exec (.marchRowStart met) s =
      .next ((s.rowBorrowed (s.rd F.DSP_SB_MARCH_BANK)).copyMet (s.rd F.DSP_SB_MARCH_BANK) (s.rd F.DSP_SB_MARCH_ROW) met) := by
  show execMarchRowStart met s = _
  unfold execMarchRowStart
  dsimp only
  rw [if_neg (by rw [active, free]; decide), if_neg (by rw [on]; decide)]
  rfl

/-- Registers alone change. -/
theorem Local.regsOnly {R : Nat → Prop} {s t : State} (h : Local {} R s t) : { t with regs := s.regs } = s := h.exact

theorem rowBorrowed_local (s : State) (b : Nat) : Local {} (· = Reg.DSP_SB_STAT b) s (s.rowBorrowed b) := by
  unfold State.rowBorrowed
  exact ((Local.refl (m := {}) (R := (· = Reg.DSP_SB_STAT b)) s).set1 (f := F.DSP_SB_STAT_BORROW b) rfl).wr (f := F.DSP_SB_STAT_BROW b) rfl

/-! ## MARCH_ROW_RELEASE -/

theorem marchRowRelease_eq {s : State} (active : s.on F.DSP_SB_MARCH_ACTIVE = true)
    (borrowed : s.on (F.DSP_SB_STAT_BORROW (s.rd F.DSP_SB_MARCH_BANK)) = true) (failure : Option (Fin 64 × Fin 64)) :
    ∃ r, r = s.marchRelease (s.rd F.DSP_SB_MARCH_BANK) failure ∧ exec (.marchRowRelease failure) s =
      .next (if s.rd (F.DSP_SB_STAT_BROW (s.rd F.DSP_SB_MARCH_BANK)) = 511 then r.marchNext (r.banks.march - 2 ^ s.rd F.DSP_SB_MARCH_BANK)
        else r.wr F.DSP_SB_MARCH_ROW (s.rd (F.DSP_SB_STAT_BROW (s.rd F.DSP_SB_MARCH_BANK)) + 1)) := by
  refine ⟨_, rfl, ?_⟩
  show execMarchRowRelease failure s = _
  unfold execMarchRowRelease
  dsimp only
  rw [if_neg (by rw [active, borrowed]; decide)]

/-- The march goes on in another bank, or ends. -/
theorem marchNext_frame (s : State) (left : Nat) : Frame { banks := true } (· = Reg.DSP_SB_MARCH) s (s.marchNext left) := by
  obtain ⟨-, -, ended, -⟩ := marchEnd_shows s
  unfold State.marchNext
  split
  · exact ended
  · have left' : Frame { banks := true } (· = Reg.DSP_SB_MARCH) s (s.modBanks fun q => { q with march := left }) :=
      ((Local.refl s).modBanks _).frame (by decide)
    exact (left'.wr (f := F.DSP_SB_MARCH_BANK) rfl).wr (f := F.DSP_SB_MARCH_ROW) rfl

theorem marchRowRelease_sound {s : State} (active : s.on F.DSP_SB_MARCH_ACTIVE = true)
    (borrowed : s.on (F.DSP_SB_STAT_BORROW (s.rd F.DSP_SB_MARCH_BANK)) = true)
    (due : s.noneDue (s.rd F.DSP_SB_MARCH_BANK) (s.rd (F.DSP_SB_STAT_BROW (s.rd F.DSP_SB_MARCH_BANK)))) :
    ∃ t, exec (.marchRowRelease none) s = .next t ∧ t.on (F.DSP_SB_STAT_BORROW (s.rd F.DSP_SB_MARCH_BANK)) = false ∧
      (s.rd (F.DSP_SB_STAT_BROW (s.rd F.DSP_SB_MARCH_BANK)) ≠ 511 →
        t.rd F.DSP_SB_MARCH_ROW = s.rd (F.DSP_SB_STAT_BROW (s.rd F.DSP_SB_MARCH_BANK)) + 1 ∧
        t.on F.DSP_SB_MARCH_ACTIVE = true ∧ t.banks = s.banks) ∧
      (s.rd (F.DSP_SB_STAT_BROW (s.rd F.DSP_SB_MARCH_BANK)) = 511 → s.banks.march = 2 ^ s.rd F.DSP_SB_MARCH_BANK →
        t.on F.DSP_SB_MARCH_ACTIVE = false ∧ t.banks.march = 0 ∧ Ended (s.workFor? .march 0x903) stsOk s t) := by
  have apart := march_bank_apart s
  have row : s.rd (F.DSP_SB_STAT_BROW (s.rd F.DSP_SB_MARCH_BANK)) < 2 ^ 9 := s.rd_lt (F.DSP_SB_STAT_BROW _)
  obtain ⟨released, ended⟩ := marchRelease_shows (m := {}) due
  obtain ⟨r, eq, run⟩ := marchRowRelease_eq active borrowed none
  rw [← eq] at released ended
  have banks : r.banks = s.banks := released.part State.banks
  by_cases last : s.rd (F.DSP_SB_STAT_BROW (s.rd F.DSP_SB_MARCH_BANK)) = 511
  · rw [if_pos last] at run
    refine ⟨_, run, ((marchNext_frame r _).on_steady (f := F.DSP_SB_STAT_BORROW _) apart (steady_bank _)).trans ended,
      fun more => absurd last more, fun _ only => ?_⟩
    rw [show r.marchNext (r.banks.march - 2 ^ s.rd F.DSP_SB_MARCH_BANK) = r.marchEnd by
      unfold State.marchNext; rw [banks, only, Nat.sub_self, if_pos rfl]]
    obtain ⟨off, march, -, ends⟩ := marchEnd_shows r
    exact ⟨off, march, ends s released.kept⟩
  · rw [if_neg last] at run
    refine ⟨_, run, ?_, fun _ => ⟨State.rd_wr_fits _ (by decide) (show _ < 2 ^ 9 by omega), ?_, ?_⟩, fun e => absurd e last⟩
    · rw [State.on_wr_off _ _ (apart_addr apart), ended]
    · rw [State.on_wr_off, released.on (f := F.DSP_SB_MARCH_ACTIVE) fun e => apart e.symm, active]
    · rw [State.wr_banks, banks]

/-- A march failure is noted in the bank's STAT and in FAILS. -/
def State.failNoted (s : State) (b : Nat) : State :=
  ((s.clr (F.DSP_SB_STAT_BORROW b)).set1 (F.DSP_SB_STAT_MARCHFAIL b)).sat F.DSP_SB_MARCH_FAILS 1

theorem failNoted_shows (s : State) {b : Nat} (apart : Reg.DSP_SB_STAT b ≠ Reg.DSP_SB_MARCH) :
    (s.failNoted b).on (F.DSP_SB_STAT_MARCHFAIL b) = true ∧
      (s.failNoted b).rd F.DSP_SB_MARCH_FAILS = min (s.rd F.DSP_SB_MARCH_FAILS + 1) (2 ^ F.DSP_SB_MARCH_FAILS.width - 1) ∧
      (s.failNoted b).banks = s.banks ∧ Local { banks := true } (0x100000 ≤ ·) s (s.failNoted b) := by
  have stat : 0x100000 ≤ Reg.DSP_SB_STAT b := by unfold Reg.DSP_SB_STAT; omega
  unfold State.failNoted
  refine ⟨?_, ?_, by rw [State.sat_banks, State.set1_banks, State.clr_banks],
    (((Local.refl s).clr (f := F.DSP_SB_STAT_BORROW b) stat).set1 (f := F.DSP_SB_STAT_MARCHFAIL b) stat).sat (f := F.DSP_SB_MARCH_FAILS) (by decide)⟩
  · rw [State.on_sat_off _ _ (apart_addr apart), State.on_set1_same _ (show 3 + 1 ≤ 32 ∧ 0 < 1 by decide)]
  · rw [State.rd_sat_same _ _ (by decide), State.rd_set1_off _ (apart_addr (f := F.DSP_SB_STAT_MARCHFAIL b) (g := F.DSP_SB_MARCH_FAILS) apart.symm),
      State.rd_clr_off _ (apart_addr (f := F.DSP_SB_STAT_BORROW b) (g := F.DSP_SB_MARCH_FAILS) apart.symm), Nat.min_comm]

/-- The banks' part once a spare row stands for a row. -/
def Banks.spared (q : Banks) (b row k : Nat) : Banks :=
  { q with
    spares := q.spares.filter (fun e => !decide (e.1 = b ∧ e.2.1 = row)) ++ [(b, row, k)]
    failed := q.failed ++ (q.spares.filter fun e => decide (e.1 = b ∧ e.2.1 = row)).map fun (e : Nat × Nat × Nat) => (b, e.2.2)
    corr := q.corr.filter fun e => !decide (e.1 = b ∧ e.2.1 = row) }

theorem useSpare_eq (s : State) (b row : Nat) : ∃ v, s.useSpare b row =
    (s.modBanks fun q => q.spared b row (s.spareRow b)).wr (F.DSP_SB_STAT_SPUSED b) v := ⟨_, rfl⟩

theorem marchFound_failed {s : State} {b row : Nat} (h : s.noneDue b row) (c k : Fin 64) :
    s.marchFound b row (some (c, k)) = (s.set1 (F.DSP_SB_STAT_MARCHFAIL b)).marchReplace b 2 row c.val k.val false := by
  unfold State.marchFound
  dsimp only
  rw [noneDue_find h, noneDue_filter h]
  rfl

theorem marchReplace_spare {s : State} {b : Nat} (left : (s.sat F.DSP_SB_MARCH_FAILS 1).spareLeft b = true) (cause row col bit : Nat) :
    s.marchReplace b cause row col bit false = ((s.sat F.DSP_SB_MARCH_FAILS 1).useSpare b row).raiseBankRepair 4 b
      ((s.sat F.DSP_SB_MARCH_FAILS 1).spareRow b) cause row col bit := by
  unfold State.marchReplace
  dsimp only
  rw [if_pos left, if_neg (by decide)]

theorem marchRelease_failed {s : State} {b : Nat} (borrowed : s.on (F.DSP_SB_STAT_BORROW b) = true)
    (due : s.noneDue b (s.rd (F.DSP_SB_STAT_BROW b))) (left : s.spareLeft b = true) (c k : Fin 64) :
    s.marchRelease b (some (c, k)) = ((s.failNoted b).useSpare b (s.rd (F.DSP_SB_STAT_BROW b))).raiseBankRepair 4 b
      ((s.failNoted b).spareRow b) 2 (s.rd (F.DSP_SB_STAT_BROW b)) c.val k.val := by
  unfold State.marchRelease
  rw [if_pos borrowed, marchFound_failed (noneDue_clr due _), marchReplace_spare]
  · rfl
  · unfold State.spareLeft State.freeSpares at left ⊢
    rw [State.sat_banks, State.set1_banks, State.clr_banks]
    exact left

theorem marchRowRelease_failed {s : State} (active : s.on F.DSP_SB_MARCH_ACTIVE = true)
    (borrowed : s.on (F.DSP_SB_STAT_BORROW (s.rd F.DSP_SB_MARCH_BANK)) = true) (left : s.spareLeft (s.rd F.DSP_SB_MARCH_BANK) = true)
    (due : s.noneDue (s.rd F.DSP_SB_MARCH_BANK) (s.rd (F.DSP_SB_STAT_BROW (s.rd F.DSP_SB_MARCH_BANK))))
    (more : s.rd (F.DSP_SB_STAT_BROW (s.rd F.DSP_SB_MARCH_BANK)) ≠ 511) (c k : Fin 64) :
    ∃ t, exec (.marchRowRelease (some (c, k))) s = .next t ∧ t.on (F.DSP_SB_STAT_MARCHFAIL (s.rd F.DSP_SB_MARCH_BANK)) = true ∧
      t.rd F.DSP_SB_MARCH_FAILS = min (s.rd F.DSP_SB_MARCH_FAILS + 1) (2 ^ F.DSP_SB_MARCH_FAILS.width - 1) ∧
      (s.rd F.DSP_SB_MARCH_BANK, s.rd (F.DSP_SB_STAT_BROW (s.rd F.DSP_SB_MARCH_BANK)), s.spareRow (s.rd F.DSP_SB_MARCH_BANK)) ∈ t.banks.spares ∧
      SameBytesBut (papolByte s) s t := by
  have apart := march_bank_apart s
  obtain ⟨r, eq, run⟩ := marchRowRelease_eq active borrowed (some (c, k))
  rw [if_neg more] at run
  rw [marchRelease_failed borrowed due left] at eq
  generalize s.rd F.DSP_SB_MARCH_BANK = b at *
  generalize s.rd (F.DSP_SB_STAT_BROW b) = row at *
  have stat : 0x100000 ≤ Reg.DSP_SB_STAT b := by unfold Reg.DSP_SB_STAT; omega
  obtain ⟨fail, fails, banks, noted⟩ := failNoted_shows s apart
  have spare : (s.failNoted b).spareRow b = s.spareRow b := by unfold State.spareRow State.freeSpares; rw [banks]
  generalize s.failNoted b = u at *
  obtain ⟨v, moved⟩ := useSpare_eq u b row
  have fail' : (u.useSpare b row).on (F.DSP_SB_STAT_MARCHFAIL b) = true := by
    rw [moved, State.on_wr_off _ _ (apart_bits (show 24 + 4 ≤ 32 by decide) (.inl (show 3 + 1 ≤ 24 by decide))), modBanks_on, fail]
  have fails' : (u.useSpare b row).rd F.DSP_SB_MARCH_FAILS = u.rd F.DSP_SB_MARCH_FAILS := by
    rw [moved, State.rd_wr_off _ _ (apart_addr apart.symm), modBanks_rd]
  have used : (b, row, u.spareRow b) ∈ (u.useSpare b row).banks.spares := by
    rw [moved, State.wr_banks, modBanks_banks]
    exact List.mem_append_right _ List.mem_cons_self
  have local' : Local { banks := true } (0x100000 ≤ ·) s (u.useSpare b row) := by
    rw [moved]
    exact (noted.modBanks _).wr (f := F.DSP_SB_STAT_SPUSED b) stat
  generalize u.useSpare b row = w at *
  have told : Frame {} (fun _ => False) w r := eq ▸ (Frame.refl id w).raiseBankRepair
  refine ⟨_, run, ?_, ?_, ?_, ?_⟩
  · rw [State.on_wr_off _ _ (apart_addr apart), told.on_steady id (steady_bank b), fail']
  · rw [State.rd_wr_off, told.rd_steady id, fails', fails]
  · rw [State.wr_banks, told.banks, ← spare]
    exact used
  · have all : Frame { banks := true } (0x100000 ≤ ·) w r := eq ▸ (Frame.refl (by decide) w).raiseBankRepair
    exact (((local'.frame (by decide)).trans all).wr (f := F.DSP_SB_MARCH_ROW) (by decide)).bytes

/-- Settles O30: what a copy meets never reaches the two fields that tell the borrowed row; the command of the march ends through its slot. -/
theorem marchTestBorrowsRowByRow : Obligations.MarchTestBorrowsRowByRow := by
  intro p s
  refine ⟨fun acc run some' on free => marchRun_awaits acc run some' on free, fun acc active none => marchRunAbort_answers acc active none,
    fun active on free => ⟨fun met => ⟨_, marchRowStart_borrows active on free met, ?_⟩, s.rowBorrowed (s.rd F.DSP_SB_MARCH_BANK),
      marchRowStart_borrows active on free [], rowBorrowed_borrowed s _, fun a away => .inl ((rowBorrowed_local s _).regs a away),
      (rowBorrowed_local s _).regsOnly⟩,
    fun c k active borrowed left none more => marchRowRelease_failed active borrowed left none more c k,
    fun active borrowed none => marchRowRelease_sound active borrowed none⟩
  exact borrowed_kept (copyMet_kept (s.rd_lt F.DSP_SB_MARCH_BANK) _ met (.refl _)) (rowBorrowed_borrowed s _)

end Sys2Proof.Machine
end

section
/-!
# What the block schedule leaves alone

`Runs s t` says of a stretch of the block schedule that it keeps the graph's registers, the loaded image and the period under way, and that
it neither reloads nor moves a logical engine: engines begin blocks, write, commit, and complete repairs.
-/

namespace Sys2Proof.Machine

-- One theorem after the other: in one text, theorems that wait for the kernel would each hold a thread.
set_option Elab.async false

/-- A logical engine keeps its host; it is not loaded again, and with a host of its own it stays at its block. -/
structure LeRuns (e f : LEngine) : Prop where
  host    : f.host = e.host
  loading : e.loading = false → f.loading = false
  next    : e.host ≠ 0xF → f.next = e.next

theorem LeRuns.refl (e : LEngine) : LeRuns e e := ⟨rfl, id, fun _ => rfl⟩

theorem LeRuns.trans {e f h : LEngine} (a : LeRuns e f) (b : LeRuns f h) : LeRuns e h :=
  ⟨b.host.trans a.host, fun k => b.loading (a.loading k), fun k => (b.next (by rw [a.host]; exact k)).trans (a.next k)⟩

/-- The graph keeps its image, its molt, its period and its logical engines. -/
structure GraphRuns (q r : Graph) : Prop where
  image : r.image = q.image
  molt  : r.molt = q.molt
  nra   : r.nra = q.nra
  tick  : r.tick = q.tick
  size  : r.les.length = q.les.length
  les   : ∀ l, LeRuns (q.les.getD l default) (r.les.getD l default)

theorem GraphRuns.refl (q : Graph) : GraphRuns q q := ⟨rfl, rfl, rfl, rfl, rfl, fun _ => .refl _⟩

theorem GraphRuns.trans {q r u : Graph} (a : GraphRuns q r) (b : GraphRuns r u) : GraphRuns q u :=
  ⟨b.image.trans a.image, b.molt.trans a.molt, b.nra.trans a.nra, b.tick.trans a.tick, b.size.trans a.size,
    fun l => (a.les l).trans (b.les l)⟩

/-- The registers of the graph and the spares. -/
def graphReg (a : Nat) : Prop := 0x100200 ≤ a ∧ a < 0x100400

structure Runs (s t : State) : Prop where
  regs  : ∀ a, graphReg a → t.reg a = s.reg a
  graph : GraphRuns s.graph t.graph

namespace Runs

variable {s t u : State}

theorem refl (s : State) : Runs s s := ⟨fun _ _ => rfl, .refl _⟩

theorem trans (h : Runs s t) (k : Runs t u) : Runs s u := ⟨fun a m => (k.regs a m).trans (h.regs a m), h.graph.trans k.graph⟩

theorem upd (h : Runs s t) (regs : u.regs = t.regs := by rfl) (graph : u.graph = t.graph := by rfl) : Runs s u :=
  h.trans ⟨fun a _ => State.reg_congr regs a, by rw [graph]; exact .refl _⟩

theorem modGraph (h : Runs s t) (f : Graph → Graph) (k : GraphRuns t.graph (f t.graph)) : Runs s (t.modGraph f) :=
  h.trans ⟨fun _ _ => rfl, k⟩

theorem setReg (h : Runs s t) {a : Nat} {w : Word} (away : ¬ graphReg a) : Runs s (t.setReg a w) :=
  h.trans ⟨fun _ m => State.reg_setReg_ne t w fun e => away (e ▸ m), .refl _⟩

theorem wr (h : Runs s t) {f : Field} {v : Nat} (away : ¬ graphReg f.addr) : Runs s (t.wr f v) := h.setReg away

theorem set1 (h : Runs s t) {f : Field} (away : ¬ graphReg f.addr) : Runs s (t.set1 f) := h.wr away

theorem clr (h : Runs s t) {f : Field} (away : ¬ graphReg f.addr) : Runs s (t.clr f) := h.wr away

theorem sat (h : Runs s t) {f : Field} {n : Nat} (away : ¬ graphReg f.addr) : Runs s (t.sat f n) := h.wr away

theorem wr64 (h : Runs s t) {a v : Nat} (lo : ¬ graphReg a) (hi : ¬ graphReg (a + 4)) : Runs s (t.wr64 a v) := (h.setReg lo).setReg hi

theorem ite {c : Prop} [Decidable c] (h : Runs s t) (k : Runs s u) : Runs s (if c then t else u) := by
  split
  · exact h
  · exact k

theorem foldl {α : Type} {f : State → α → State} (hf : ∀ (x : State) (a : α), Runs s x → Runs s (f x a)) :
    ∀ {l : List α} {t : State}, Runs s t → Runs s (l.foldl f t)
  | [], _, h => h
  | a :: l, t, h => foldl (l := l) hf (hf t a h)

theorem forEach {f : Nat → State → State} (hf : ∀ i x, Runs s x → Runs s (f i x)) : ∀ {n : Nat} {t : State}, Runs s t →
    Runs s (Machine.forEach f n t)
  | 0, _, h => h
  | n + 1, _, h => hf n _ (forEach hf h)

/-- An operation that leaves the graph and its registers alone. -/
theorem frame {m : Parts} {R : Nat → Prop} (h : Runs s t) (k : Frame m R t u) (away : ∀ a, graphReg a → ¬ R a)
    (hm : m.graph = false := by rfl) : Runs s u :=
  h.trans ⟨fun a ⟨lo, hi⟩ => k.reg_steady (away a ⟨lo, hi⟩) (steady_dsp (Nat.le_trans (by decide) lo) (.inl hi)), by rw [k.graph hm]; exact .refl _⟩

end Runs

/-! ## Logical engines -/

theorem getD_mapIdx_self {α : Type} (l : List α) (f : Nat → α → α) (d : α) {i : Nat} (h : i < l.length) :
    (l.mapIdx f).getD i d = f i (l.getD i d) := by
  rw [List.getD_eq_getElem _ _ (by rw [List.length_mapIdx]; exact h), List.getElem_mapIdx, List.getD_eq_getElem _ _ h]

theorem getD_mapIdx_out {α : Type} (l : List α) (f : Nat → α → α) (d : α) {i : Nat} (h : l.length ≤ i) :
    (l.mapIdx f).getD i d = l.getD i d := by
  rw [List.getD_eq_default _ _ (by rw [List.length_mapIdx]; exact h), List.getD_eq_default _ _ h]

theorem modLe_regs (s : State) (l : Nat) (f : LEngine → LEngine) : (s.modLe l f).regs = s.regs := rfl
theorem modLe_reg (s : State) (l : Nat) (f : LEngine → LEngine) (a : Nat) : (s.modLe l f).reg a = s.reg a := rfl
theorem modLe_pap (s : State) (l : Nat) (f : LEngine → LEngine) : (s.modLe l f).pap = s.pap := rfl
theorem modLe_mem (s : State) (l : Nat) (f : LEngine → LEngine) : (s.modLe l f).mem = s.mem := rfl
theorem modLe_graph (s : State) (l : Nat) (f : LEngine → LEngine) :
    (s.modLe l f).graph = { s.graph with les := s.graph.les.mapIdx fun i e => if i = l then f e else e } := rfl

theorem modLe_size (s : State) (l : Nat) (f : LEngine → LEngine) : (s.modLe l f).graph.les.length = s.graph.les.length :=
  List.length_mapIdx

theorem modLe_same (s : State) {l : Nat} (f : LEngine → LEngine) (h : l < s.graph.les.length) : (s.modLe l f).le l = f (s.le l) := by
  unfold State.le
  rw [modLe_graph]
  dsimp only
  rw [getD_mapIdx_self _ _ _ h, if_pos rfl]

theorem modLe_ne (s : State) {l i : Nat} (f : LEngine → LEngine) (h : i ≠ l) : (s.modLe l f).le i = s.le i := by
  unfold State.le
  rw [modLe_graph]
  dsimp only
  by_cases lt : i < s.graph.les.length
  · rw [getD_mapIdx_self _ _ _ lt, if_neg h]
  · rw [getD_mapIdx_out _ _ _ (Nat.not_lt.1 lt)]

theorem modLe_le (s : State) (l i : Nat) (f : LEngine → LEngine) :
    (s.modLe l f).le i = if i = l ∧ l < s.graph.les.length then f (s.le i) else s.le i := by
  split
  · rename_i own
    obtain ⟨rfl, lt⟩ := own
    exact modLe_same s f lt
  · rename_i other
    unfold State.le
    rw [modLe_graph]
    by_cases own : i = l
    · exact getD_mapIdx_out _ _ _ (Nat.not_lt.1 fun lt => other ⟨own, own ▸ lt⟩)
    · exact modLe_ne s f own

theorem modLe_host (s : State) (l i : Nat) {f : LEngine → LEngine} (hf : ∀ e, (f e).host = e.host) :
    ((s.modLe l f).le i).host = (s.le i).host := by
  rw [modLe_le]
  split
  · exact hf _
  · rfl

/-- A change of one logical engine that it may undergo while the graph runs. -/
theorem Runs.modLe {s t : State} (h : Runs s t) (l : Nat) {f : LEngine → LEngine} (hf : LeRuns (t.le l) (f (t.le l))) : Runs s (t.modLe l f) := by
  refine h.trans ⟨fun _ _ => rfl, rfl, rfl, rfl, rfl, modLe_size t l f, fun i => ?_⟩
  show LeRuns (t.le i) ((t.modLe l f).le i)
  rw [modLe_le]
  split
  · rename_i own
    rw [own.1]
    exact hf
  · exact .refl _

/-! ## Memory and banks -/

section
variable {s t : State}

theorem Runs.setWord (h : Runs s t) {a : Nat} {w : Word} : Runs s (t.setWord a w) := h.upd

theorem Runs.setByte (h : Runs s t) {a : Nat} {b : Byte} : Runs s (t.setByte a b) := h.upd

theorem Runs.setEngWord (h : Runs s t) {n a : Nat} {w : Word} : Runs s (t.setEngWord n a w) := h.upd

theorem Runs.putEng (h : Runs s t) {n : Nat} : ∀ {ws : List Word} {a : Nat}, Runs s (t.putEng n a ws) := by
  intro ws
  induction ws generalizing t with
  | nil => exact h
  | cons w ws ih => exact ih h.setEngWord

theorem Runs.drawn (h : Runs s t) : Runs s t.drawn := h.upd

theorem Runs.modLeap (h : Runs s t) {c : Nat} {f : LeapCh → LeapCh} : Runs s (t.modLeap c f) := h.upd

/-- What a fault is recorded in. -/
def faultParts : Parts := { saf := true, draw := true, banks := true }

/-- Registers other than the graph's. -/
def offGraph (a : Nat) : Prop := ¬ graphReg a ∧ a ≠ Reg.PWR_STATE

theorem offGraph_lo {a : Nat} (h : a < 0x100200) (state : a ≠ Reg.PWR_STATE := by decide) : offGraph a :=
  ⟨fun k => absurd k.1 (Nat.not_le.2 h), state⟩

theorem offGraph_hi {a : Nat} (h : 0x100400 ≤ a) : offGraph a :=
  ⟨fun k => absurd k.2 (Nat.not_lt.2 h), Nat.ne_of_gt (Nat.lt_of_lt_of_le (by decide) h)⟩

theorem Runs.framed (h : Runs s t) {u : State} (k : Frame faultParts offGraph t u) : Runs s u := h.frame k fun _ own off => off.1 own

theorem offGraph_away : ¬ offGraph Reg.PWR_STATE := fun k => k.2 rfl

theorem Runs.fault (h : Runs s t) (f : FaultInfo) : Runs s (t.fault f) :=
  h.framed ((Frame.refl offGraph_away t).fault rfl rfl (offGraph_hi (by decide)) (offGraph_hi (by decide)))

theorem Runs.ends (h : Runs s t) {code sub unit : Nat} : Runs s (t.ends rgDsp code sub unit) :=
  h.framed (Frame.ends (.refl offGraph_away t) (offGraph_hi (by decide)))

theorem Runs.repaired (h : Runs s t) {code sub unit : Nat} : Runs s (t.repaired rgDsp code sub unit) :=
  h.framed (Frame.ends (Frame.repCount (.refl offGraph_away t) (offGraph_hi (by decide))) (offGraph_hi (by decide)))

theorem Runs.raise (h : Runs s t) {code : Nat} {ws : List Word} : Runs s (t.raise code ws) := h.framed (Frame.raise (.refl offGraph_away t))

theorem Runs.finishFor (h : Runs s t) {tg : Target} {op st : Nat} {ws : List Word} : Runs s (t.finishFor tg op st ws) :=
  h.framed (Frame.finishFor (.refl offGraph_away t))

end

end Sys2Proof.Machine
end

section
/-!
# Blocks: beginning, writing, committing, completing
-/

namespace Sys2Proof.Machine

-- One theorem after the other: in one text, theorems that wait for the kernel would each hold a thread.
set_option Elab.async false

variable {s t : State}

/-! ## Errors of a bank -/

theorem offGraph_bank (o b : Nat) : ¬ graphReg (0x104000 + o + 0x10 * b) := fun k => absurd k.2 (by omega)

theorem Runs.retpend (h : Runs s t) (b cause row col bit : Nat) : Runs s (t.retpend b cause row col bit) := by
  have pending : Runs s (((t.set1 (F.DSP_SB_STAT_RETPEND b)).raiseBankRepair 5 b 0xF cause row col bit).ends rgDsp 0x205 row b) :=
    ((h.set1 (offGraph_bank 0 b)).framed (Frame.raiseBankRepair (.refl offGraph_away _))).ends
  unfold State.retpend
  dsimp only
  split
  · exact (pending.fault _).framed (Frame.escalated (.refl offGraph_away _) (offGraph_hi (by decide)))
  · exact pending

theorem Runs.replaceRow (h : Runs s t) (r : RowRepl) : Runs s (t.replaceRow r) := by
  unfold State.replaceRow
  split
  · exact h
  · split
    · exact h.upd
    · exact h.retpend _ _ _ _ _

theorem Runs.dealUnc (h : Runs s t) (b row col : Nat) : Runs s (t.dealUnc b row col) := by
  unfold State.dealUnc
  dsimp only
  split
  · exact h
  · have dealt : Runs s { t with banks := { t.banks with dealt := t.banks.dealt ++ [bankAddr b row col] } } := h.upd
    exact (dealt.framed (Frame.takesUp (.refl offGraph_away _) (show offGraph (errLevel rgDsp).addr from offGraph_hi (by decide)))).replaceRow _

theorem Runs.deliverPoison (h : Runs s t) (a : Nat) : Runs s (t.deliverPoison a) := by
  have poisoned : ∀ x, Runs s (t.poisoned x) := fun x => by
    unfold State.poisoned
    split
    · exact h
    · exact h.upd
  have counted : ∀ b x w, Runs s ((t.poisoned x).errCounted b (F.DSP_SB_ECC_UNCCNT b) 1 w) := fun b x w =>
    (((poisoned x).sat (offGraph_bank 4 b)).set1 (offGraph_bank 0 b)).setReg (offGraph_bank 8 b)
  obtain ⟨active, eq⟩ := bankUnc_eq t (bankOf a) (rowOf a) (colOf a)
  unfold State.deliverPoison
  rw [eq]
  exact (((counted _ _ _).fault _).dealUnc _ _ _).set1 fun k => absurd k.2 (by decide)

/-! ## Loading -/

theorem Runs.loadSpan (h : Runs s t) (g : GImage) (n : Nat) : ∀ (k ofs a : Nat), Runs s (t.loadSpan g ofs n a k) := fun k => by
  induction k generalizing t with
  | zero => exact fun _ _ => h
  | succ k ih =>
    intro ofs a
    unfold State.loadSpan
    exact ih (.ite (h.deliverPoison _) h.setEngWord) _ _

theorem Runs.restoreRegions (h : Runs s t) (g : GImage) (n : Nat) (rs : List (Nat × List Word)) : Runs s (t.restoreRegions g n rs) := by
  unfold State.restoreRegions
  refine Runs.foldl (fun x e k => ?_) h
  split
  · exact k.putEng
  · exact k

theorem Runs.openDmem (h : Runs s t) (n : Nat) : Runs s (t.openDmem n) := Runs.forEach (fun _ _ k => k.setEngWord.drawn) h

theorem loaded_runs (e : LEngine) : LeRuns e { e with loading := false } := ⟨rfl, fun _ => rfl, fun _ => rfl⟩

/-- What a load writes before the logical engine takes it over. -/
theorem restoreInto_eq (s : State) (g : GImage) (l n : Nat) : ∃ z, Runs s z ∧
    s.restoreInto g l n = z.modLe l fun q => { q with loading := false } := by
  have imem : Runs s (s.loadImem g l n) := (Runs.refl s).loadSpan g n _ _ _
  refine ⟨_, ?_, rfl⟩
  split
  · exact (imem.loadSpan g n _ _ _).restoreRegions _ _ _
  · exact (imem.openDmem n).restoreRegions _ _ _

theorem restoreInto_loaded (s : State) (g : GImage) {l : Nat} (n : Nat) (h : l < s.graph.les.length) :
    ((s.restoreInto g l n).le l).loading = false := by
  obtain ⟨z, moved, eq⟩ := restoreInto_eq s g l n
  rw [eq, modLe_same z _ (by rw [moved.graph.size]; exact h)]

theorem Runs.restoreInto (h : Runs s t) (g : GImage) (l n : Nat) : Runs s (t.restoreInto g l n) := by
  obtain ⟨z, moved, eq⟩ := restoreInto_eq t g l n
  rw [eq]
  exact (h.trans moved).modLe l (loaded_runs _)

/-! ## A block begins -/

theorem Runs.applyParams (h : Runs s t) (g : GImage) (l k : Nat) : Runs s (t.applyParams g l k) := by
  unfold State.applyParams
  refine Runs.foldl (fun x q kept => ?_) h
  split
  · split
    · exact kept.trans ⟨fun a m => (Runs.putEng (.refl x)).regs a m, rfl, rfl, rfl, rfl, rfl, fun _ => .refl _⟩
    · exact kept
  · exact kept

theorem Runs.gatherIn (h : Runs s t) (g : GImage) (l : Nat) : Runs s (t.gatherIn g l) :=
  (Runs.foldl (fun _ a k => k.deliverPoison a) h).modLe l ⟨rfl, id, fun _ => rfl⟩

theorem Runs.beginBlock (h : Runs s t) (g : GImage) (l : Nat) : Runs s (t.beginBlock g l) :=
  ((h.applyParams g l _).gatherIn g l).modLe l ⟨rfl, id, fun _ => rfl⟩

/-! ## A block ends -/

theorem offGraph_ring (o n : Nat) : ¬ graphReg (0x100400 + o + 0x10 * n) := fun k => absurd k.2 (by omega)
theorem offGraph_leap (o n : Nat) : ¬ graphReg (0x103000 + o + 0x10 * n) := fun k => absurd k.2 (by omega)

theorem Runs.writeRing (h : Runs s t) (g : GImage) (q : GRing) (k first n : Nat) (smps : List Sample) :
    Runs s (t.writeRing g q k first n smps) := by
  unfold State.writeRing
  exact (Runs.foldl (fun _ _ kept => kept.setWord.setByte) h).wr (offGraph_ring 8 q.ring)

theorem Runs.writePorts (h : Runs s t) (g : GImage) (x : GTask) (k : Nat) (out : BlockOut) : Runs s (t.writePorts g x k out) := by
  unfold State.writePorts
  dsimp only
  refine Runs.foldl (fun z j kept => ?_) h
  split
  · exact kept.modLeap
  · split
    · exact kept.writeRing _ _ _ _ _ _
    · exact kept

theorem Runs.writeBlock (h : Runs s t) (g : GImage) (l k : Nat) (out : BlockOut) : Runs s (t.writeBlock g l k out) := by
  unfold State.writeBlock
  split
  · exact h
  · refine Runs.foldl (fun z x kept => ?_) h
    split
    · exact kept.writePorts _ _ _ _
    · exact kept

theorem Runs.commitTo (h : Runs s t) (c i : Nat) : Runs s (t.commitTo c i) := by
  unfold State.commitTo
  split
  · exact h
  · exact (h.modLeap.wr64 (offGraph_leap 4 c) (fun k => absurd k.2 (show ¬ 0x103004 + 0x10 * c + 4 < 0x100400 by omega))).wr (offGraph_leap 0 c)

theorem Runs.commitLe (h : Runs s t) (g : GImage) (l : Nat) : Runs s (t.commitLe g l) := by
  unfold State.commitLe
  split
  · exact h
  · split
    · exact h
    · refine Runs.foldl (fun z q kept => ?_) h
      dsimp only
      split
      · exact kept
      · exact kept.commitTo _ _

theorem Runs.commitAll (h : Runs s t) (g : GImage) : Runs s (t.commitAll g) := Runs.forEach (fun l _ k => k.commitLe g l) h

theorem Runs.repairDone (h : Runs s t) (r : Recovery) : Runs s (t.repairDone r) := h.repaired.raise

theorem Runs.completeRecs (h : Runs s t) (g : GImage) : Runs s (t.completeRecs g) :=
  Runs.foldl (fun _ r k => k.repairDone r) (h.modGraph _ ⟨rfl, rfl, rfl, rfl, rfl, fun _ => .refl _⟩)

theorem Runs.moltDone (h : Runs s t) : Runs s t.moltDone := by
  unfold State.moltDone
  exact .ite (Runs.finishFor (h.modGraph _ ⟨rfl, rfl, rfl, rfl, rfl, fun _ => .refl _⟩)) h

/-- A logical engine is on schedule again. -/
theorem Runs.settleLe (h : Runs s t) (l : Nat) (on : Bool) :
    Runs s (t.modLe l fun q => { q with behind := q.behind && !on, lag := q.lag && !on }) := h.modLe l ⟨rfl, id, fun _ => rfl⟩

theorem Runs.settleRole (h : Runs s t) (g : GImage) (l k : Nat) (host : (t.le l).host = 0xF ∨ (t.le l).host < 8) :
    Runs s (t.settleRole g l k) := by
  unfold State.settleRole
  dsimp only
  split
  · exact h
  · split
    · exact h.settleLe l _
    · rename_i own
      have lt : (t.le l).host < 8 := host.resolve_left fun e => own (.inl e)
      have away : ¬ graphReg (Reg.DSP_NE_STAT (t.le l).host) := fun k => absurd k.1 (by unfold Reg.DSP_NE_STAT; omega)
      exact ((h.settleLe l _).wr (f := F.DSP_NE_STAT_ROLE _) away |>.wr (f := F.DSP_NE_STAT_LENG _) away).wr (f := F.DSP_NE_STAT_CLKON _) away

theorem le_runs (h : Runs s t) (l : Nat) : LeRuns (s.le l) (t.le l) := h.graph.les l

/-- What ends a block once the logical engine has moved on. -/
def State.blockEnded (s z : State) (g : GImage) (l k : Nat) : State :=
  let back := g.leaps.filter fun q => q.leng = l && (s.le l).redo ≤ k && (s.taskBlk g (g.writer q) k).isSome
  (if s.replays l k then [] else back).foldl (fun s q => s.clr (F.DSP_LEAP_STAT_RETRACTING q.chan))
    (z.modGraph fun (q : Graph) => { q with recs := q.recs.map fun (r : Recovery) =>
      if r.leng = l ∧ (if r.kind = 3 then r.restore ≤ k + 1 else r.restore ≤ k) then { r with ended := true } else r })

theorem endBlock_eq (s : State) (g : GImage) (l : Nat) (out : BlockOut) : ∃ z,
    z = (s.writeBlock g l (s.le l).next out).modLe l (fun (e : LEngine) => { e with next := (s.le l).next + 1, busy := false }) ∧
    s.endBlock g l out = ((((s.blockEnded z g l (s.le l).next).settleRole g l (s.le l).next).commitLe g l).completeRecs g).moltDone :=
  ⟨_, rfl, rfl⟩

theorem Runs.blockEnded (h : Runs s t) (x : State) (g : GImage) (l k : Nat) : Runs s (x.blockEnded t g l k) :=
  Runs.foldl (fun _ q kept => kept.clr (offGraph_leap 0 q.chan)) (h.modGraph _ ⟨rfl, rfl, rfl, rfl, rfl, fun _ => .refl _⟩)

/-- After its block a logical engine stands at the next one, and nothing else moves. -/
theorem endBlock_runs (s : State) (g : GImage) (l : Nat) (out : BlockOut) (host : (s.le l).host = 0xF ∨ (s.le l).host < 8) :
    Runs ((s.writeBlock g l (s.le l).next out).modLe l fun (e : LEngine) => { e with next := (s.le l).next + 1, busy := false })
      (s.endBlock g l out) := by
  obtain ⟨z, eq, ended⟩ := endBlock_eq s g l out
  rw [ended, ← eq]
  have host' : (z.le l).host = (s.le l).host := by
    have written := ((Runs.refl s).writeBlock g l (s.le l).next out).graph.les l
    rw [eq]
    exact (modLe_host _ l l (f := fun e => { e with next := (s.le l).next + 1, busy := false }) fun _ => rfl).trans written.host
  have done := (Runs.refl z).blockEnded s g l (s.le l).next
  exact (((done.settleRole g l _ (by rw [(le_runs done l).host, host']; exact host)).commitLe g l).completeRecs g).moltDone

/-! ## Every logical engine that may begins its next block -/

/-- A logical engine without a host of its own ends a block at once, which leaves its loading alone. -/
theorem Runs.endBypassed (h : Runs s t) (g : GImage) (l : Nat) (out : BlockOut) (none : (t.le l).host = 0xF) : Runs s (t.endBlock g l out) := by
  have moved := (Runs.writeBlock (.refl t) g l (t.le l).next out)
  have host : ((t.writeBlock g l (t.le l).next out).le l).host = 0xF := (le_runs moved l).host.trans none
  refine (h.trans (moved.modLe l ⟨rfl, id, fun own => absurd host own⟩)).trans (endBlock_runs t g l out (.inl none))

theorem Runs.tryBegin (h : Runs s t) (g : GImage) (l : Nat) : Runs s (t.tryBegin g l) := by
  unfold State.tryBegin
  split
  · split
    · rename_i bypassed
      exact (h.gatherIn g l).endBypassed g l _ ((le_runs (Runs.gatherIn (.refl t) g l) l).host.trans bypassed.1)
    · exact h.beginBlock g l
  · exact h

theorem Runs.startReady (h : Runs s t) (g : GImage) : Runs s (t.startReady g) :=
  Runs.forEach (fun _ _ k => Runs.forEach (fun l _ k => k.tryBegin g l) k) h

end Sys2Proof.Machine
end

section
/-!
# Engine faults and self-tests (spec/06_engines_leap.md, R280, R296, R309, R803)
-/

namespace Sys2Proof.Machine

-- One theorem after the other: in one text, theorems that wait for the kernel would each hold a thread.
set_option Elab.async false

/-! ## A chip safe state is not entered by a record -/

theorem showFn_css (s : State) : s.showFn.rd F.SAFE_SM_STAT_CSS = s.rd F.SAFE_SM_STAT_CSS := by
  unfold State.showFn
  rw [State.rd_wr_off, State.rd_wr_off, State.rd_wr_off]

theorem raiseR_rd (s : State) (code : Nat) (ws : List Word) (r : Bool) {f : Field} (h : steady f.addr = true := by decide) :
    (s.raiseR code ws r).rd f = s.rd f :=
  (Frame.raiseR (m := {}) (R := fun _ => False) (.refl id s)).rd_steady id h

theorem recRoom_css (s : State) : s.recRoom.rd F.SAFE_SM_STAT_CSS = s.rd F.SAFE_SM_STAT_CSS := by
  unfold State.recRoom
  split
  · rfl
  · split
    · rfl
    · exact State.rd_set1_off _

theorem faultGone_css (s : State) (code sub unit : Nat) : (s.faultGone code sub unit).rd F.SAFE_SM_STAT_CSS = s.rd F.SAFE_SM_STAT_CSS :=
  showFn_css _

theorem fault_css (s : State) (f : FaultInfo) : (s.fault f).rd F.SAFE_SM_STAT_CSS = s.rd F.SAFE_SM_STAT_CSS := by
  unfold State.fault
  split
  · exact showFn_css _
  · dsimp only
    rw [raiseR_rd, showFn_css, State.rd_wr_off]
    exact recRoom_css s.drawn

theorem fault_chipSafe (s : State) (f : FaultInfo) : (s.fault f).chipSafe = s.chipSafe := by
  unfold State.chipSafe; rw [fault_css]

theorem rd_same {s t : State} {f : Field} (h : t.reg f.addr = s.reg f.addr) : t.rd f = s.rd f := by
  unfold State.rd; rw [h]

theorem on_same {s t : State} {f : Field} (h : t.reg f.addr = s.reg f.addr) : t.on f = s.on f := by
  unfold State.on; rw [rd_same h]

/-! ## Roles -/

theorem setRole_role (s : State) {n r l : Nat} (h : r < 16) : (s.setRole n r l).role n = r := by
  unfold State.setRole State.role
  rw [State.rd_wr_off _ _ (apart_bits (show 0 + 1 ≤ 32 by decide) (.inr (show 0 + 1 ≤ 28 by decide))),
    State.rd_wr_off _ _ (apart_bits (show 24 + 4 ≤ 32 by decide) (.inr (show 24 + 4 ≤ 28 by decide))),
    State.rd_wr_fits (f := F.DSP_NE_STAT_ROLE n) _ (show 28 + 4 ≤ 32 by decide) h]

/-- The sticky bits of an engine's STAT stand apart from its role. -/
theorem setRole_on (s : State) {n r l k : Nat} (h : 1 ≤ k ∧ k < 24) :
    (s.setRole n r l).on ⟨Reg.DSP_NE_STAT n, k, 1⟩ = s.on ⟨Reg.DSP_NE_STAT n, k, 1⟩ := by
  unfold State.setRole
  rw [State.on_wr_off _ _ (apart_bits (f := F.DSP_NE_STAT_CLKON n) (g := ⟨Reg.DSP_NE_STAT n, k, 1⟩)
      (show 0 + 1 ≤ 32 by decide) (.inr (show 0 + 1 ≤ k from h.1))),
    State.on_wr_off _ _ (apart_bits (f := F.DSP_NE_STAT_LENG n) (g := ⟨Reg.DSP_NE_STAT n, k, 1⟩)
      (show 24 + 4 ≤ 32 by decide) (.inl (show k + 1 ≤ 24 by omega))),
    State.on_wr_off _ _ (apart_bits (f := F.DSP_NE_STAT_ROLE n) (g := ⟨Reg.DSP_NE_STAT n, k, 1⟩)
      (show 28 + 4 ≤ 32 by decide) (.inl (show k + 1 ≤ 28 by omega)))]

theorem setRole_reg (s : State) {n r l a : Nat} (h : a ≠ Reg.DSP_NE_STAT n) : (s.setRole n r l).reg a = s.reg a :=
  (Local.setRole (m := {}) (R := (· = Reg.DSP_NE_STAT n)) (.refl s) rfl).regs a h

theorem domUp_reg (s : State) (d : Nat) {a : Nat} (h : a ≠ Reg.PWR_DOMSTAT) : (s.domUp d).reg a = s.reg a :=
  (Local.domUp (m := {}) (R := (· = Reg.PWR_DOMSTAT)) (.refl s) rfl).regs a h

theorem stat_inj {n k : Nat} (h : n ≠ k) : Reg.DSP_NE_STAT n ≠ Reg.DSP_NE_STAT k := by unfold Reg.DSP_NE_STAT; omega

theorem stat_dom (n : Nat) : Reg.DSP_NE_STAT n ≠ Reg.PWR_DOMSTAT := Nat.ne_of_gt (Nat.lt_of_lt_of_le (by decide) (Nat.le_add_right 0x100000 _))

/-- One engine of the pool takes its role as a spare, or none. -/
def State.spareStep (s : State) (chosen : List Nat) (n : Nat) : State :=
  if chosen.contains n then (s.setRole n roSpare 0xF).domUp (dmEngine n) else s.setRole n roFree 0xF

theorem respare_eq (s : State) : ∃ chosen v, s.respare =
    ((indices 8 fun n => s.healthy n && !s.occupied n).foldl (fun z n => z.spareStep chosen n) s).wr F.DSP_SPARE_SPMAP v := ⟨_, _, rfl⟩

theorem spareStep_reg (s : State) (chosen : List Nat) {n k : Nat} (h : k ≠ n) :
    (s.spareStep chosen n).reg (Reg.DSP_NE_STAT k) = s.reg (Reg.DSP_NE_STAT k) := by
  unfold State.spareStep
  split
  · rw [domUp_reg _ _ (stat_dom k), setRole_reg _ (stat_inj h)]
  · exact setRole_reg _ (stat_inj h)

theorem spareStep_role (s : State) (chosen : List Nat) (n : Nat) :
    (s.spareStep chosen n).role n = roFree ∨ (s.spareStep chosen n).role n = roSpare := by
  unfold State.spareStep
  split
  · right
    unfold State.role
    rw [rd_same (f := F.DSP_NE_STAT_ROLE n) (domUp_reg _ _ (stat_dom n))]
    exact setRole_role s (by decide)
  · exact .inl (setRole_role s (by decide))

theorem spareSteps_reg (chosen : List Nat) {k : Nat} : ∀ (l : List Nat) (s : State), k ∉ l →
    (l.foldl (fun z n => z.spareStep chosen n) s).reg (Reg.DSP_NE_STAT k) = s.reg (Reg.DSP_NE_STAT k)
  | [], _, _ => rfl
  | n :: l, s, h => by
    rw [List.mem_cons, not_or] at h
    exact (spareSteps_reg chosen l _ h.2).trans (spareStep_reg s chosen h.1)

theorem spareSteps_role (chosen : List Nat) {k : Nat} (l : List Nat) (s : State) (h : k ∈ l) :
    (l.foldl (fun z n => z.spareStep chosen n) s).role k = roFree ∨ (l.foldl (fun z n => z.spareStep chosen n) s).role k = roSpare := by
  induction l generalizing s with
  | nil => exact absurd h List.not_mem_nil
  | cons n l ih =>
    rw [List.foldl_cons]
    by_cases later : k ∈ l
    · exact ih _ later
    · obtain rfl : k = n := (List.mem_cons.1 h).resolve_right later
      have same : (l.foldl (fun z n => z.spareStep chosen n) (s.spareStep chosen k)).role k = (s.spareStep chosen k).role k :=
        rd_same (f := F.DSP_NE_STAT_ROLE k) (spareSteps_reg chosen l _ later)
      rw [same]
      exact spareStep_role s chosen k

/-- An engine that is not to be chosen from keeps its STAT. -/
theorem respare_reg (s : State) {n : Nat} (busy : (s.healthy n && !s.occupied n) = false) (lt : n < 8) :
    s.respare.reg (Reg.DSP_NE_STAT n) = s.reg (Reg.DSP_NE_STAT n) := by
  obtain ⟨chosen, v, eq⟩ := respare_eq s
  rw [eq, State.reg_wr_ne _ _ (show Reg.DSP_NE_STAT n ≠ 0x100210 by unfold Reg.DSP_NE_STAT; omega)]
  refine spareSteps_reg chosen _ s fun mem => ?_
  have := (List.mem_filter.1 mem).2
  rw [busy] at this
  exact absurd this (by decide)

theorem respare_role (s : State) {n : Nat} (free : (s.healthy n && !s.occupied n) = true) (lt : n < 8) :
    s.respare.role n = roFree ∨ s.respare.role n = roSpare := by
  obtain ⟨chosen, v, eq⟩ := respare_eq s
  have same : s.respare.role n = ((indices 8 fun n => s.healthy n && !s.occupied n).foldl (fun z n => z.spareStep chosen n) s).role n := by
    rw [eq]
    exact State.rd_wr_off _ _ (apart_addr (show 0x100000 + 0x40 * n ≠ 0x100210 by omega))
  rw [same]
  exact spareSteps_role chosen _ s (List.mem_filter.2 ⟨List.mem_range.2 lt, free⟩)

/-! ## A self-test begins -/

theorem toSelfTest_shows (s : State) {n : Nat} (lt : n < 8) : (s.toSelfTest n).role n = roTest ∧
    (∀ k, 1 ≤ k → k < 24 → (s.toSelfTest n).on ⟨Reg.DSP_NE_STAT n, k, 1⟩ = s.on ⟨Reg.DSP_NE_STAT n, k, 1⟩) ∧
    (s.toSelfTest n).reg (Reg.DSP_NE_FCNT n) = s.reg (Reg.DSP_NE_FCNT n) ∧
    (vat (s.toSelfTest n).eng n).fails = (vat s.eng n).fails + 1 := by
  have eq : s.toSelfTest n = ({ s with eng := vmod s.eng n fun (q : EngineX) => { q with fails := q.fails + 1 } }.setRole n roTest 0xF).respare := rfl
  have reg : ∀ a, ({ s with eng := vmod s.eng n fun (q : EngineX) => { q with fails := q.fails + 1 } } : State).reg a = s.reg a := fun _ => rfl
  have eng : (vat ({ s with eng := vmod s.eng n fun (q : EngineX) => { q with fails := q.fails + 1 } } : State).eng n).fails =
      (vat s.eng n).fails + 1 := by
    rw [vat_vmod_same _ _ lt]
  rw [eq]
  generalize ({ s with eng := vmod s.eng n fun (q : EngineX) => { q with fails := q.fails + 1 } } : State) = z at reg eng
  have role : (z.setRole n roTest 0xF).role n = roTest := setRole_role z (by decide)
  have moved : Local {} (· = Reg.DSP_NE_STAT n) z (z.setRole n roTest 0xF) := Local.setRole (.refl z) rfl
  have bits : ∀ k, 1 ≤ k → k < 24 → (z.setRole n roTest 0xF).on ⟨Reg.DSP_NE_STAT n, k, 1⟩ = z.on ⟨Reg.DSP_NE_STAT n, k, 1⟩ :=
    fun k lo hi => setRole_on z ⟨lo, hi⟩
  generalize z.setRole n roTest 0xF = u at role moved bits
  have busy : (u.healthy n && !u.occupied n) = false := by unfold State.healthy; rw [role]; rfl
  have stat := respare_reg u busy lt
  obtain ⟨v, w, spares, last⟩ := respare_local u
  have fcnt : u.respare.reg (Reg.DSP_NE_FCNT n) = z.reg (Reg.DSP_NE_FCNT n) := by
    have hfcnt : Reg.DSP_NE_FCNT n = 0x100008 + 0x40 * n := rfl
    rw [last, State.reg_wr_ne _ _ (show Reg.DSP_NE_FCNT n ≠ 0x100210 by omega), spares.regs, moved.regs]
    · unfold Reg.DSP_NE_STAT; omega
    · rintro (e | ⟨k, -, e⟩)
      · exact absurd e (Nat.ne_of_gt (Nat.lt_of_lt_of_le (by decide) (Nat.le_add_right 0x100008 _)))
      · unfold Reg.DSP_NE_STAT at e; omega
  refine ⟨(rd_same (f := F.DSP_NE_STAT_ROLE n) stat).trans role, fun k lo hi => ?_, fcnt.trans (reg _), ?_⟩
  · exact (on_same stat).trans ((bits k lo hi).trans (on_same (reg _)))
  · rw [last, State.wr_eng, spares.part State.eng, moved.part State.eng, eng]

/-! ## A fault is counted -/

/-- What shows an engine fault. -/
theorem countEngine_local (s : State) (n code : Nat) :
    Local { eng := true } (· ∈ [Reg.DSP_NE_STAT n, Reg.DSP_NE_FCNT n]) s (s.countEngine n code) := by
  have counted : Local { eng := true } (· ∈ [Reg.DSP_NE_STAT n, Reg.DSP_NE_FCNT n]) s
      { s with eng := vmod s.eng n fun (q : EngineX) => { q with faults := q.faults + 1 } } :=
    (Local.refl s).upd (by simp only [State.but, cond_true, cond_false])
  have stat : Reg.DSP_NE_STAT n ∈ [Reg.DSP_NE_STAT n, Reg.DSP_NE_FCNT n] := List.mem_cons_self
  have fcnt : Reg.DSP_NE_FCNT n ∈ [Reg.DSP_NE_STAT n, Reg.DSP_NE_FCNT n] := List.mem_cons_of_mem _ List.mem_cons_self
  unfold State.countEngine
  dsimp only
  generalize ({ s with eng := vmod s.eng n fun (q : EngineX) => { q with faults := q.faults + 1 } } : State) = z at counted
  exact .ite ((counted.set1 (f := F.DSP_NE_STAT_LOCKSTEP n) stat).sat (f := F.DSP_NE_FCNT_LSCNT n) fcnt)
    (.ite ((counted.set1 (f := F.DSP_NE_STAT_ENGECC n) stat).sat (f := F.DSP_NE_FCNT_UNCCNT n) fcnt)
      (.ite (counted.set1 (f := F.DSP_NE_STAT_BLKLATE n) stat) (counted.set1 (f := F.DSP_NE_STAT_ENGPROG n) stat)))

theorem countEngine_eng (s : State) {n : Nat} (code : Nat) (lt : n < 8) : vat (s.countEngine n code).eng n =
    { vat s.eng n with faults := (vat s.eng n).faults + 1 } := by
  have eng : (s.countEngine n code).eng = vmod s.eng n fun (q : EngineX) => { q with faults := q.faults + 1 } := by
    unfold State.countEngine
    dsimp only
    split
    · rw [State.sat_eng, State.set1_eng]
    · split
      · rw [State.sat_eng, State.set1_eng]
      · split
        · rw [State.set1_eng]
        · rw [State.set1_eng]
  rw [eng, vat_vmod_same _ _ lt]

theorem countEngine_lockstep (s : State) (n : Nat) : (s.countEngine n 0x201).on (F.DSP_NE_STAT_LOCKSTEP n) = true ∧
    (s.countEngine n 0x201).rd (F.DSP_NE_FCNT_LSCNT n) = min 255 (s.rd (F.DSP_NE_FCNT_LSCNT n) + 1) := by
  have apart : Reg.DSP_NE_STAT n ≠ Reg.DSP_NE_FCNT n := show 0x100000 + 0x40 * n ≠ 0x100008 + 0x40 * n by omega
  unfold State.countEngine
  dsimp only
  rw [if_pos rfl]
  exact ⟨by rw [State.on_sat_off _ _ (apart_addr apart), State.on_set1_same _ (show 7 + 1 ≤ 32 ∧ 0 < 1 by decide)],
    by rw [State.rd_sat_same _ _ (show 24 + 8 ≤ 32 by decide),
      State.rd_set1_off _ (apart_addr (f := F.DSP_NE_STAT_LOCKSTEP n) (g := F.DSP_NE_FCNT_LSCNT n) apart.symm)]; rfl⟩

theorem countEngine_engecc (s : State) (n : Nat) : (s.countEngine n 0x202).on (F.DSP_NE_STAT_ENGECC n) = true ∧
    (s.countEngine n 0x202).rd (F.DSP_NE_FCNT_UNCCNT n) = min 255 (s.rd (F.DSP_NE_FCNT_UNCCNT n) + 1) := by
  have apart : Reg.DSP_NE_STAT n ≠ Reg.DSP_NE_FCNT n := show 0x100000 + 0x40 * n ≠ 0x100008 + 0x40 * n by omega
  unfold State.countEngine
  dsimp only
  rw [if_neg (by decide), if_pos rfl]
  exact ⟨by rw [State.on_sat_off _ _ (apart_addr apart), State.on_set1_same _ (show 6 + 1 ≤ 32 ∧ 0 < 1 by decide)],
    by rw [State.rd_sat_same _ _ (show 16 + 8 ≤ 32 by decide),
      State.rd_set1_off _ (apart_addr (f := F.DSP_NE_STAT_ENGECC n) (g := F.DSP_NE_FCNT_UNCCNT n) apart.symm)]; rfl⟩

theorem countEngine_engprog (s : State) (n : Nat) : (s.countEngine n 0x204).on (F.DSP_NE_STAT_ENGPROG n) = true ∧
    (s.countEngine n 0x204).role n = s.role n := by
  unfold State.countEngine State.role
  dsimp only
  rw [if_neg (by decide), if_neg (by decide), if_neg (by decide)]
  exact ⟨State.on_set1_same _ (show 4 + 1 ≤ 32 ∧ 0 < 1 by decide),
    State.rd_set1_off _ (apart_bits (f := F.DSP_NE_STAT_ENGPROG n) (show 4 + 1 ≤ 32 by decide) (.inr (show 4 + 1 ≤ 28 by decide)))⟩

/-! ## An engine outside a graph fails -/

/-- The fault has been counted and recorded. -/
def State.engineRecorded (s : State) (n code : Nat) (inj : Bool) : State := (s.countEngine n code).fault (engineFault code n inj)

/-- What the record of a fault leaves of an engine. -/
theorem engineRecorded_shows (s : State) {n : Nat} (code : Nat) (inj : Bool) (lt : n < 8) :
    (s.engineRecorded n code inj).reg (Reg.DSP_NE_STAT n) = (s.countEngine n code).reg (Reg.DSP_NE_STAT n) ∧
    (s.engineRecorded n code inj).reg (Reg.DSP_NE_FCNT n) = (s.countEngine n code).reg (Reg.DSP_NE_FCNT n) ∧
    vat (s.engineRecorded n code inj).eng n = { vat s.eng n with faults := (vat s.eng n).faults + 1 } ∧
    (s.engineRecorded n code inj).chipSafe = s.chipSafe ∧ (s.engineRecorded n code inj).graph = s.graph := by
  have counted := countEngine_local s n code
  have eng := countEngine_eng s code lt
  unfold State.engineRecorded
  rw [fault_chipSafe]
  have css : (s.countEngine n code).chipSafe = s.chipSafe := by
    unfold State.chipSafe
    rw [counted.rd]
    rw [List.mem_cons, List.mem_singleton]
    show ¬ (0x400000 = 0x100000 + 0x40 * n ∨ 0x400000 = 0x100008 + 0x40 * n)
    omega
  generalize s.countEngine n code = z at *
  have told : Frame { saf := true, draw := true } (fun a => a = Reg.SAFE_FN_STAT ∨ a = Reg.SAFE_SM_STAT) z (z.fault (engineFault code n inj)) :=
    (Frame.refl (by decide) z).fault rfl rfl (.inl rfl) (.inr rfl)
  have reg : ∀ o, o < 0x40 → (z.fault (engineFault code n inj)).reg (0x100000 + o + 0x40 * n) = z.reg (0x100000 + o + 0x40 * n) := fun o small =>
    told.reg_steady (by unfold Reg.SAFE_FN_STAT Reg.SAFE_SM_STAT; omega) (steady_engine lt small)
  exact ⟨reg 0 (by decide), reg 8 (by decide), by rw [told.eng, eng], css, by rw [told.graph, counted.part State.graph]⟩

theorem hosted_none {s : State} (none : s.graph.les = []) (n : Nat) : s.hosted? n = Option.none := by
  unfold State.hosted?
  rw [none]
  rfl

theorem engineFails_tests {s : State} {n code : Nat} {inj : Bool} (works : s.engineWorks n = true) (calm : s.chipSafe = false)
    (none : s.graph.les = []) (lt : n < 8) (kind : code = 0x201 ∨ code = 0x202) (task : Nat) :
    ∃ l, s.engineFails n code inj task = ((s.engineRecorded n code inj).setRole n roHalted l).toSelfTest n := by
  obtain ⟨-, -, -, css, graph⟩ := engineRecorded_shows s code inj lt
  refine ⟨(s.engineRecorded n code inj).rd (F.DSP_NE_STAT_LENG n), ?_⟩
  have recorded : s.engineRecorded n code inj = (s.countEngine n code).fault (engineFault code n inj) := rfl
  unfold State.engineFails
  dsimp only
  rw [if_neg (by rw [works]; rintro ⟨k, -⟩; exact k rfl), ← recorded, if_neg (show ¬ (code = 0x203 ∨ code = 0x204) by omega)]
  generalize s.engineRecorded n code inj = z at *
  have moved : Local {} (· = Reg.DSP_NE_STAT n) z (z.setRole n roHalted (z.rd (F.DSP_NE_STAT_LENG n))) := Local.setRole (.refl z) rfl
  have css' : (z.setRole n roHalted (z.rd (F.DSP_NE_STAT_LENG n))).chipSafe = false := by
    unfold State.chipSafe at css calm ⊢
    rw [moved.rd (f := F.SAFE_SM_STAT_CSS) (show ¬ (0x400000 = 0x100000 + 0x40 * n) by omega), css, calm]
  have hosted : (z.setRole n roHalted (z.rd (F.DSP_NE_STAT_LENG n))).hosted? n = Option.none :=
    hosted_none (by rw [moved.part State.graph, graph, none]) n
  generalize z.setRole n roHalted (z.rd (F.DSP_NE_STAT_LENG n)) = u at *
  rw [if_neg (by rw [css']; decide), hosted]
  exact if_neg (show ¬ code = 0x204 by omega)

theorem engineFails_shows {s : State} {n code : Nat} {inj : Bool} (works : s.engineWorks n = true) (calm : s.chipSafe = false)
    (none : s.graph.les = []) (lt : n < 8) (kind : code = 0x201 ∨ code = 0x202) (task : Nat) :
    ∃ t, s.engineFails n code inj task = t ∧ t.role n = roTest ∧
      (∀ k, 1 ≤ k → k < 24 → t.on ⟨Reg.DSP_NE_STAT n, k, 1⟩ = (s.countEngine n code).on ⟨Reg.DSP_NE_STAT n, k, 1⟩) ∧
      t.reg (Reg.DSP_NE_FCNT n) = (s.countEngine n code).reg (Reg.DSP_NE_FCNT n) ∧ (vat t.eng n).fails = (vat s.eng n).fails + 1 := by
  obtain ⟨stat, fcnt, eng, -, -⟩ := engineRecorded_shows s code inj lt
  obtain ⟨l, eq⟩ := engineFails_tests (inj := inj) works calm none lt kind task
  rw [eq]
  generalize s.engineRecorded n code inj = z at *
  have bits : ∀ k, 1 ≤ k → k < 24 → (z.setRole n roHalted l).on ⟨Reg.DSP_NE_STAT n, k, 1⟩ = z.on ⟨Reg.DSP_NE_STAT n, k, 1⟩ :=
    fun k lo hi => setRole_on z ⟨lo, hi⟩
  have moved : Local {} (· = Reg.DSP_NE_STAT n) z (z.setRole n roHalted l) := Local.setRole (.refl z) rfl
  generalize z.setRole n roHalted l = u at *
  obtain ⟨role, sticky, counts, fails⟩ := toSelfTest_shows u lt
  refine ⟨_, rfl, role, fun k lo hi => ?_, ?_, ?_⟩
  · rw [sticky k lo hi, bits k lo hi]
    exact on_same stat
  · exact counts.trans ((moved.regs _ (show ¬ (0x100008 + 0x40 * n = 0x100000 + 0x40 * n) by omega)).trans fcnt)
  · rw [fails, moved.part State.eng, eng]

theorem lockstep_tests {s : State} {n : Fin 8} (works : s.engineWorks n.val = true) (calm : s.chipSafe = false) (none : s.graph.les = []) :
    ∃ t, exec (.lockstep n) s = .next t ∧ t.role n.val = roTest ∧ t.on (F.DSP_NE_STAT_LOCKSTEP n.val) = true ∧
      t.rd (F.DSP_NE_FCNT_LSCNT n.val) = min 255 (s.rd (F.DSP_NE_FCNT_LSCNT n.val) + 1) ∧
      (vat t.eng n.val).fails = (vat s.eng n.val).fails + 1 := by
  obtain ⟨t, eq, role, sticky, counts, fails⟩ := engineFails_shows (inj := false) works calm none n.isLt (.inl rfl) 0
  obtain ⟨bit, count⟩ := countEngine_lockstep s n.val
  exact ⟨t, congrArg Host.Outcome.next eq, role, (sticky 7 (by decide) (by decide)).trans bit, (rd_same counts).trans count, fails⟩

theorem engecc_tests {s : State} {n : Fin 8} (works : s.engineWorks n.val = true) (calm : s.chipSafe = false) (none : s.graph.les = []) :
    ∃ t, exec (.engecc ⟨n, false⟩) s = .next t ∧ t.role n.val = roTest ∧ t.on (F.DSP_NE_STAT_ENGECC n.val) = true ∧
      t.rd (F.DSP_NE_FCNT_UNCCNT n.val) = min 255 (s.rd (F.DSP_NE_FCNT_UNCCNT n.val) + 1) := by
  obtain ⟨t, eq, role, sticky, counts, -⟩ := engineFails_shows (inj := false) works calm none n.isLt (.inr rfl) 0
  obtain ⟨bit, count⟩ := countEngine_engecc s n.val
  exact ⟨t, congrArg Host.Outcome.next eq, role, (sticky 6 (by decide) (by decide)).trans bit, (rd_same counts).trans count⟩

theorem engprog_recorded {s : State} {n : Fin 8} (task : Fin 128) (works : s.engineWorks n.val = true) (calm : s.chipSafe = false)
    (none : s.graph.les = []) : ∃ t, exec (.engprog n task) s = .next t ∧ t.role n.val = s.role n.val ∧
      t.on (F.DSP_NE_STAT_ENGPROG n.val) = true ∧ (vat t.eng n.val).faults = (vat s.eng n.val).faults + 1 := by
  obtain ⟨stat, -, eng, css, graph⟩ := engineRecorded_shows s 0x204 false n.isLt
  obtain ⟨bit, role⟩ := countEngine_engprog s n.val
  have recorded : s.engineRecorded n.val 0x204 false = (s.countEngine n.val 0x204).fault (engineFault 0x204 n.val false) := rfl
  have hosted : (s.engineRecorded n.val 0x204 false).hosted? n.val = Option.none := hosted_none (by rw [graph, none]) n.val
  refine ⟨s.engineRecorded n.val 0x204 false, congrArg Host.Outcome.next ?_, ?_, (on_same stat).trans bit, ?_⟩
  · unfold State.engineFails
    dsimp only
    rw [if_neg (by rw [works]; rintro ⟨k, -⟩; exact k rfl), ← recorded,
      if_pos (show 0x204 = 0x203 ∨ 0x204 = 0x204 from .inr rfl), if_neg (show ¬ _ = true by rw [css, calm]; decide), hosted]
    exact if_pos rfl
  · exact (rd_same (f := F.DSP_NE_STAT_ROLE n.val) stat).trans role
  · exact congrArg EngineX.faults eng

/-! ## INJECT -/

/-- The state in which a word of an engine's CTRL has landed. -/
def State.ctrlLanded (s : State) (i : Iface) (n : Nat) : State :=
  (((s.judging i).setReg (Reg.DSP_NE_CTRL n) (((s.judging i).reg (Reg.DSP_NE_CTRL n) &&& ~~~writeMask (Reg.DSP_NE_CTRL n)) |||
    (1 &&& writeMask (Reg.DSP_NE_CTRL n)))).bound (s.judging i) (Reg.DSP_NE_CTRL n)).fits (Reg.DSP_NE_CTRL n)

/-- Where an engine's CTRL stands among the registers. -/
theorem ctrl_place : ∀ n : Fin 8, ¬ 0x100400 ≤ Reg.DSP_NE_CTRL n.val ∧ internalRing (Reg.DSP_NE_CTRL n.val) = false ∧
    Reg.DSP_NE_CTRL n.val < 0x200000 ∧ Reg.DSP_NE_CTRL n.val ≠ Reg.CTL_BOOT_CTRL ∧ Reg.DSP_NE_CTRL n.val ≠ Reg.PWR_GPIO_IO ∧
    Reg.DSP_NE_CTRL n.val ≠ Reg.PWR_GECKO ∧
    (0x100000 ≤ Reg.DSP_NE_CTRL n.val ∧ Reg.DSP_NE_CTRL n.val < 0x100200 ∧ Reg.DSP_NE_CTRL n.val % 0x40 = 0xC) ∧
    (Reg.DSP_NE_CTRL n.val - 0x100000) / 0x40 = n.val := by decide

theorem land_inject (s : State) (n : Fin 8) : s.land (Reg.DSP_NE_CTRL n.val) 1 =
    (((s.setReg (Reg.DSP_NE_CTRL n.val) ((s.reg (Reg.DSP_NE_CTRL n.val) &&& ~~~writeMask (Reg.DSP_NE_CTRL n.val)) |||
      (1 &&& writeMask (Reg.DSP_NE_CTRL n.val)))).bound s (Reg.DSP_NE_CTRL n.val)).fits (Reg.DSP_NE_CTRL n.val)).engineFails n.val 0x201 true 0 := by
  obtain ⟨ring, internal, low, boot, gpio, gecko, engine, own⟩ := ctrl_place n
  unfold State.land State.landed State.ctlLanded
  dsimp only
  rw [if_neg (fun k => ring k.1), if_neg (by rw [internal]; decide), if_neg (show ¬ (0x305000 ≤ _ ∧ _) from fun k => by omega), if_pos low,
    if_neg boot, if_neg gpio, if_neg gecko, if_pos engine, if_pos (by decide), own]

theorem inject_lands {s : State} {i : Iface} {n : Fin 8} (ready : s.ifaceReady i = true) (dom : s.domReady (dmEngine n.val) = true)
    (locked : s.lockOpen i = true) : exec (.inject i n) s = .next ((s.ctrlLanded i n.val).engineFails n.val 0x201 true 0) := by
  have facts : ∀ n : Fin 8, Reg.DSP_NE_CTRL n.val % 4 = 0 ∧ ¬ (0xA00000 ≤ Reg.DSP_NE_CTRL n.val ∧ Reg.DSP_NE_CTRL n.val < 0xA80000) ∧
      ¬ (0x800000 ≤ Reg.DSP_NE_CTRL n.val ∧ Reg.DSP_NE_CTRL n.val < 0xA00000) ∧ regRow? (Reg.DSP_NE_CTRL n.val) ≠ none ∧
      regDomain? (Reg.DSP_NE_CTRL n.val) = some (dmEngine n.val) ∧ postedRegion? (Reg.DSP_NE_CTRL n.val) = none ∧
      Reg.DSP_NE_CTRL n.val ≠ Reg.HOST_UNLOCK := by decide
  obtain ⟨aligned, tadpole, bank, mapped, domain, posted, other⟩ := facts n
  have dom' : (s.judging i).domReady (dmEngine n.val) = true := by
    have pwr : (s.judging i).pwr = s.pwr := by
      have := congrArg State.pwr (judging_rest s i)
      exact this
    have on : (s.judging i).domOn (dmEngine n.val) = s.domOn (dmEngine n.val) := by
      unfold State.domOn
      rw [if_neg (show ¬ dmEngine n.val < 0x10 by unfold dmEngine; omega), if_neg (show ¬ dmEngine n.val < 0x10 by unfold dmEngine; omega)]
      exact judging_on s i (show Reg.PWR_DOMSTAT ≠ Reg.CTL_CLK_STAT by decide)
    unfold State.domReady at dom ⊢
    rw [pwr, on]
    exact dom
  show Host.Outcome.next (s.hostWrite i (Reg.DSP_NE_CTRL n.val) 1) = _
  rw [hostWrite_judges ready, if_neg (fun k => k aligned), if_neg tadpole, if_neg bank, if_neg mapped, if_neg, if_neg other,
    if_neg (fun k => by rw [locked] at k; exact absurd k.2 (by decide))]
  · unfold State.sendWrite State.reaches
    rw [posted, domain]
    dsimp only
    rw [if_pos dom', land_inject]
    rfl
  · unfold State.unpowered
    rw [domain]
    dsimp only
    rw [dom, Bool.not_true, Bool.false_and]
    decide

theorem bound_ctrl (s old : State) (n : Fin 8) : s.bound old (Reg.DSP_NE_CTRL n.val) = s := by
  have place : ∀ n : Fin 8, ¬ 0x100400 ≤ Reg.DSP_NE_CTRL n.val ∧ ¬ 0x300000 ≤ Reg.DSP_NE_CTRL n.val ∧
      Reg.DSP_NE_CTRL n.val ≠ Reg.IN_TDM_BUS 0 ∧ Reg.DSP_NE_CTRL n.val ≠ Reg.SAFE_SM_CFG ∧ Reg.DSP_NE_CTRL n.val ≠ Reg.SAFE_SM_CFG2 ∧
      Reg.DSP_NE_CTRL n.val ≠ Reg.SAFE_MADC_CFG ∧ Reg.DSP_NE_CTRL n.val ≠ Reg.PWR_GPIO_IO := by decide
  obtain ⟨ring, spk, bus, cfg, cfg2, madc, gpio⟩ := place n
  unfold State.bound
  dsimp only
  rw [if_neg (fun k => ring k.1), if_neg (fun k => spk k.1), if_neg (fun k => by omega), if_neg (fun k => by omega), if_neg bus, if_neg cfg,
    if_neg cfg2, if_neg madc, if_neg gpio]

theorem cfgLeave_nil {s : State} (none : s.link.cfgpar = []) (sel : Nat → Bool) : s.cfgLeave sel = s := by
  unfold State.cfgLeave
  rw [none]
  rfl

theorem faultGone_link (s : State) (code sub unit : Nat) : (s.faultGone code sub unit).link = s.link := by
  unfold State.faultGone State.showFn
  rw [State.wr_link, State.wr_link, State.wr_link]

/-- A register's parity no longer misses. -/
def State.parityFits (s : State) (a : Nat) : State := { s with link := { s.link with badParity := s.link.badParity.filter (· ≠ a) } }

/-- The record of a parity mismatch is no longer active once no register misses. -/
def State.parityOver (s : State) : State := if s.link.badParity = [] then s.faultGone 0x701 0 0 else s

theorem fits_eq (s : State) (a : Nat) : s.fits a =
    if s.link.badParity.contains a then
      if s.cfgHit a ∧ reenabled a = false then (s.parityFits a).parityOver.cfgLeave (· = a) else (s.parityFits a).parityOver
    else s.parityFits a := rfl

/-- The link and the fault records change, and what shows the latter. -/
def parityParts : Parts := { link := true, saf := true }

/-- Parity fits again: with no block held for its parity nothing is left of it. -/
theorem fits_shows {s : State} (none : s.link.cfgpar = []) (a : Nat) :
    Local parityParts (fun b => b = Reg.SAFE_FN_STAT ∨ b = Reg.SAFE_SM_STAT) s (s.fits a) ∧ (s.fits a).chipSafe = s.chipSafe := by
  have away : Local parityParts (fun b => b = Reg.SAFE_FN_STAT ∨ b = Reg.SAFE_SM_STAT) s (s.parityFits a) := by
    unfold State.parityFits
    exact (Local.refl s).upd (by simp only [State.but, parityParts, cond_true, cond_false])
  have css : (s.parityFits a).chipSafe = s.chipSafe := rfl
  have none' : (s.parityFits a).link.cfgpar = [] := none
  rw [fits_eq]
  generalize s.parityFits a = z at *
  have gone : Local parityParts (fun b => b = Reg.SAFE_FN_STAT ∨ b = Reg.SAFE_SM_STAT) s z.parityOver ∧ z.parityOver.chipSafe = s.chipSafe ∧
      z.parityOver.link.cfgpar = [] := by
    unfold State.parityOver
    split
    · exact ⟨away.faultGone rfl (.inl rfl) (.inr rfl), by unfold State.chipSafe at css ⊢; rw [faultGone_css, css], by rw [faultGone_link, none']⟩
    · exact ⟨away, css, none'⟩
  obtain ⟨moved, calm, left⟩ := gone
  generalize z.parityOver = u at *
  rw [cfgLeave_nil left]
  split
  · split
    · exact ⟨moved, calm⟩
    · exact ⟨moved, calm⟩
  · exact ⟨away, css⟩

theorem ctrlLanded_shows {s : State} (i : Iface) (n : Fin 8) (none : s.link.cfgpar = []) :
    (s.ctrlLanded i n.val).reg (Reg.DSP_NE_STAT n.val) = s.reg (Reg.DSP_NE_STAT n.val) ∧
      (s.ctrlLanded i n.val).chipSafe = s.chipSafe ∧ (s.ctrlLanded i n.val).graph = s.graph := by
  have lt := n.isLt
  have link : (s.judging i).link.cfgpar = [] := by
    have run : s.sysRun.link = s.link := (sysRun_regsOnly s).congr State.link fun _ => rfl
    unfold State.judging State.setLock
    split
    · exact (congrArg Link.cfgpar run).trans none
    · exact (congrArg Link.cfgpar run).trans none
  have stat : (s.judging i).reg (Reg.DSP_NE_STAT n.val) = s.reg (Reg.DSP_NE_STAT n.val) :=
    judging_reg s i (show 0x100000 + 0x40 * n.val ≠ 0x400 by omega)
  have css : (s.judging i).chipSafe = s.chipSafe := by unfold State.chipSafe; rw [judging_rd s i (by decide)]
  have graph : (s.judging i).graph = s.graph := by
    have rest := congrArg State.graph (judging_rest s i)
    exact rest
  unfold State.ctrlLanded
  rw [bound_ctrl]
  generalize s.judging i = z at *
  generalize ((z.reg _ &&& _) ||| _) = w
  obtain ⟨moved, calm⟩ := fits_shows (s := z.setReg (Reg.DSP_NE_CTRL n.val) w) link (Reg.DSP_NE_CTRL n.val)
  refine ⟨?_, ?_, ?_⟩
  · exact (moved.regs _ (show ¬ (0x100000 + 0x40 * n.val = 0x400008 ∨ 0x100000 + 0x40 * n.val = 0x400000) by omega)).trans
      ((State.reg_setReg_ne _ _ (show 0x100000 + 0x40 * n.val ≠ 0x10000C + 0x40 * n.val by omega)).trans stat)
  · rw [calm, ← css]
    unfold State.chipSafe
    rw [rd_same (State.reg_setReg_ne z w (show Reg.SAFE_SM_STAT ≠ 0x10000C + 0x40 * n.val by unfold Reg.SAFE_SM_STAT; omega))]
  · rw [moved.part State.graph, State.setReg_graph, graph]

theorem inject_tests {s : State} {i : Iface} {n : Fin 8} (works : s.engineWorks n.val = true) (calm : s.chipSafe = false)
    (none : s.graph.les = []) (ready : s.ifaceReady i = true) (dom : s.domReady (dmEngine n.val) = true) (locked : s.lockOpen i = true)
    (cfgpar : s.link.cfgpar = []) :
    ∃ t, exec (.inject i n) s = .next t ∧ t.role n.val = roTest ∧ t.on (F.DSP_NE_STAT_LOCKSTEP n.val) = true := by
  obtain ⟨stat, css, graph⟩ := ctrlLanded_shows i n cfgpar
  have lands := inject_lands ready dom locked
  generalize s.ctrlLanded i n.val = z at *
  have works' : z.engineWorks n.val = true := by
    have role : z.role n.val = s.role n.val := rd_same (f := F.DSP_NE_STAT_ROLE n.val) stat
    unfold State.engineWorks at works ⊢
    rw [role]
    exact works
  obtain ⟨t, eq, role, sticky, -, -⟩ := engineFails_shows (inj := true) works' (css.trans calm) (by rw [graph, none]) n.isLt (.inl rfl) 0
  exact ⟨t, lands.trans (congrArg Host.Outcome.next eq), role, (sticky 7 (by decide) (by decide)).trans (countEngine_lockstep z n.val).1⟩

/-! ## Corrected errors, self-tests and loads -/

theorem engecc_corrected {s : State} {n : Fin 8} (test : s.role n.val ≠ roTest) (retired : s.role n.val ≠ roRetired)
    (dom : s.domOn (dmEngine n.val) = true) : ∃ t, exec (.engecc ⟨n, true⟩) s = .next t ∧ t.on (F.DSP_NE_STAT_ECCCOR n.val) = true ∧
      t.rd (F.DSP_NE_FCNT_CORCNT n.val) = min (s.rd (F.DSP_NE_FCNT_CORCNT n.val) + 1) (2 ^ (F.DSP_NE_FCNT_CORCNT n.val).width - 1) ∧
      SameRegsBut (fun a => a = Reg.DSP_NE_STAT n.val ∨ a = Reg.DSP_NE_FCNT n.val) s t ∧ { t with regs := s.regs } = s := by
  have counted : Local {} (fun a => a = Reg.DSP_NE_STAT n.val ∨ a = Reg.DSP_NE_FCNT n.val) s
      ((s.sat (F.DSP_NE_FCNT_CORCNT n.val) 1).set1 (F.DSP_NE_STAT_ECCCOR n.val)) :=
    ((Local.refl s).sat (f := F.DSP_NE_FCNT_CORCNT n.val) (.inr rfl)).set1 (f := F.DSP_NE_STAT_ECCCOR n.val) (.inl rfl)
  refine ⟨(s.sat (F.DSP_NE_FCNT_CORCNT n.val) 1).set1 (F.DSP_NE_STAT_ECCCOR n.val), ?_, State.on_set1_same _ (show 3 + 1 ≤ 32 ∧ 0 < 1 by decide),
    ?_, fun a away => .inl (counted.regs a away), counted.regsOnly⟩
  · show Host.Outcome.next (if _ then s else _) = _
    rw [if_neg (by rw [dom]; rintro (k | k | k); exacts [test k, retired k, absurd k (by decide)])]
  · rw [State.rd_set1_off _ (apart_addr (f := F.DSP_NE_STAT_ECCCOR n.val) (g := F.DSP_NE_FCNT_CORCNT n.val)
      (show 0x100008 + 0x40 * n.val ≠ 0x100000 + 0x40 * n.val by omega)), State.rd_sat_same _ _ (show 0 + 16 ≤ 32 by decide), Nat.min_comm]

theorem selftest_retires {s : State} {n : Fin 8} (test : s.role n.val = roTest) :
    ∃ t, exec (.engineSelftestDone n true) s = .next t ∧ t.role n.val = roRetired ∧
      t.rd F.DSP_SPARE_RETIRED = min 15 (s.rd F.DSP_SPARE_RETIRED + 1) ∧
      SameRegsBut (fun a => a = Reg.DSP_NE_STAT n.val ∨ a = Reg.DSP_SPARE) s t ∧ { t with regs := s.regs } = s := by
  have lt := n.isLt
  have moved : Local {} (fun a => a = Reg.DSP_NE_STAT n.val ∨ a = Reg.DSP_SPARE) s
      ((s.setRole n.val roRetired 0xF).sat F.DSP_SPARE_RETIRED 1) :=
    ((Local.refl s).setRole (.inl rfl)).sat (f := F.DSP_SPARE_RETIRED) (.inr rfl)
  have apart : Reg.DSP_NE_STAT n.val ≠ Reg.DSP_SPARE := show 0x100000 + 0x40 * n.val ≠ 0x100210 by omega
  refine ⟨(s.setRole n.val roRetired 0xF).sat F.DSP_SPARE_RETIRED 1, ?_, ?_, ?_, fun a away => .inl (moved.regs a away), moved.regsOnly⟩
  · show execEngineSelftestDone n true s = _
    unfold execEngineSelftestDone
    rw [if_neg (fun k => k test), if_pos (.inl rfl)]
  · refine Eq.trans ?_ (setRole_role s (n := n.val) (r := roRetired) (l := 0xF) (by decide))
    exact State.rd_sat_off _ _ (apart_addr (f := F.DSP_SPARE_RETIRED) (g := F.DSP_NE_STAT_ROLE n.val) apart)
  · rw [State.rd_sat_same _ _ (by decide), rd_same (f := F.DSP_SPARE_RETIRED) (setRole_reg s apart.symm)]
    rfl

theorem selftest_returns {s : State} {n : Fin 8} (test : s.role n.val = roTest) (few : (vat s.eng n.val).fails < 3)
    (free : s.occupied n.val = false) : ∃ t, exec (.engineSelftestDone n false) s = .next t ∧
      (t.role n.val = roFree ∨ t.role n.val = roSpare) ∧ t.rd F.DSP_SPARE_RETIRED = s.rd F.DSP_SPARE_RETIRED := by
  have lt := n.isLt
  have run : exec (.engineSelftestDone n false) s = .next (s.setRole n.val roFree 0xF).respare := by
    show execEngineSelftestDone n false s = _
    unfold execEngineSelftestDone
    rw [if_neg (fun k => k test), if_neg (by rintro (k | k); exacts [absurd k (by decide), by omega])]
  have role : (s.setRole n.val roFree 0xF).role n.val = roFree := setRole_role s (by decide)
  have moved : Local {} (· = Reg.DSP_NE_STAT n.val) s (s.setRole n.val roFree 0xF) := (Local.refl s).setRole rfl
  generalize s.setRole n.val roFree 0xF = u at *
  obtain ⟨v, w, spares, last⟩ := respare_local u
  refine ⟨_, run, respare_role u ?_ lt, ?_⟩
  · have none : u.occupied n.val = false := by unfold State.occupied at free ⊢; rw [moved.part State.graph]; exact free
    unfold State.healthy
    rw [role, none]
    rfl
  · rw [last, State.rd_wr_off, spares.rd (not_roleReg (by decide)),
      moved.rd (f := F.DSP_SPARE_RETIRED) (show ¬ 0x100210 = 0x100000 + 0x40 * n.val by omega)]

/-- Adopters catch up with what they have loaded. -/
def State.catchUp (s : State) (a : Nat) : State :=
  (s.modLe a fun (q : LEngine) => { q with behind := true }).setRole (s.le a).host roCatch a

/-- The graph alone, without its registers, runs on. -/
theorem catchUp_graph (s : State) (a : Nat) : GraphRuns s.graph (s.catchUp a).graph := by
  have moved := (Runs.refl s).modLe a (f := fun q => { q with behind := true }) ⟨rfl, id, fun _ => rfl⟩
  have same : (s.catchUp a).graph = (s.modLe a fun (q : LEngine) => { q with behind := true }).graph :=
    Local.part (m := {}) (R := (· = Reg.DSP_NE_STAT (s.le a).host)) (Local.setRole (.refl _) rfl) State.graph
  rw [same]
  exact moved.graph

theorem catchUps_graph : ∀ (l : List Nat) (s : State), GraphRuns s.graph (l.foldl State.catchUp s).graph
  | [], _ => .refl _
  | a :: l, s => (catchUp_graph s a).trans (catchUps_graph l _)

theorem spareLoadDone_eq {s : State} {l : Fin 8} {g : GImage} (image : s.graph.image = some g) (loading : (s.le l.val).loading = true) :
    ∃ rest : List Nat, ∃ z : State, z = (l.val :: rest).foldl (fun s m => s.restoreInto g m (s.dmemOf m)) s ∧
      exec (.spareLoadDone l) s = .next (((z.adoptersOf g l.val).foldl State.catchUp z).startReady g) := by
  refine ⟨(s.guestsOf g l.val).filter fun m => (s.le m).loading, _, rfl, ?_⟩
  show execSpareLoadDone l s = _
  unfold execSpareLoadDone
  dsimp only
  rw [image]
  dsimp only
  rw [if_neg (fun k => k loading)]
  rfl

theorem spareLoadDone_loaded {s : State} {l : Fin 8} {g : GImage} (image : s.graph.image = some g) (loading : (s.le l.val).loading = true)
    (lt : l.val < s.graph.les.length) : ∃ t, exec (.spareLoadDone l) s = .next t ∧ (t.le l.val).loading = false ∧ t.graph.image = some g := by
  obtain ⟨rest, z, eq, run⟩ := spareLoadDone_eq image loading
  have first : Runs s (s.restoreInto g l.val (s.dmemOf l.val)) := (Runs.refl s).restoreInto g l.val _
  have loaded : ((s.restoreInto g l.val (s.dmemOf l.val)).le l.val).loading = false := restoreInto_loaded s g _ lt
  have others : Runs (s.restoreInto g l.val (s.dmemOf l.val)) z := by
    rw [eq]
    exact Runs.foldl (fun x m k => k.restoreInto g m _) (l := rest) (.refl (s.restoreInto g l.val (s.dmemOf l.val)))
  have caught := catchUps_graph (z.adoptersOf g l.val) z
  have ready := (Runs.refl ((z.adoptersOf g l.val).foldl State.catchUp z)).startReady g
  have all := (others.graph.trans caught).trans ready.graph
  exact ⟨_, run, (all.les l.val).loading loaded, all.image.trans (first.graph.image.trans image)⟩

/-- Settles O28: outside a graph no logical engine hosts a failing engine, so that it goes to its self-test; a load that is done stays done. -/
theorem engineFaultsAndSelfTests : Obligations.EngineFaultsAndSelfTests := fun _ _ _ task _ calm =>
  ⟨fun none works => ⟨lockstep_tests works calm none, engecc_tests works calm none, engprog_recorded task works calm none,
      fun ready dom locked cfgpar => inject_tests works calm none ready dom locked cfgpar⟩,
    fun test retired dom => engecc_corrected test retired dom,
    fun test => ⟨selftest_retires test, fun few free => selftest_returns test few free⟩,
    fun _ image loading lt => spareLoadDone_loaded image loading lt⟩

end Sys2Proof.Machine
end

section
/-!
# The block schedule (spec/06_engines_leap.md, R273 to R289)
-/

namespace Sys2Proof.Machine

-- One theorem after the other: in one text, theorems that wait for the kernel would each hold a thread.
set_option Elab.async false

/-! ## A tick and the streams that wait for it -/

theorem tickStreams_rest (s : State) : { s.tickStreams with strs := s.strs } = s := rfl
theorem tickStreams_regs (s : State) : s.tickStreams.regs = s.regs := rfl
theorem tickStreams_graph (s : State) : s.tickStreams.graph = s.graph := rfl

/-- One pass of the tick over the streams that wait for another's start. -/
def tickPass (l : List StreamX) : List StreamX :=
  l.map fun (x : StreamX) => if x.start = 2 ∧ l.any (fun y => y.sid = x.pair && (y.tick || y.start = 0)) then { x with tick := true } else x

/-- The streams that wait for the tick itself. -/
def tickFirst (l : List StreamX) : List StreamX := l.map fun (x : StreamX) => if x.start = 1 then { x with tick := true } else x

theorem tickStreams_strs (s : State) : s.tickStreams.strs = s.strs.foldl (fun l _ => tickPass l) (tickFirst s.strs) := rfl

theorem mem_tickPass {x : StreamX} {l : List StreamX} (start : x.start = 1) (mem : x ∈ l) : x ∈ tickPass l := by
  refine List.mem_map.2 ⟨x, mem, if_neg fun k => ?_⟩
  rw [start] at k
  exact absurd k.1 (by decide)

theorem mem_tickPasses {x : StreamX} (start : x.start = 1) (n : List StreamX) :
    ∀ {l : List StreamX}, x ∈ l → x ∈ n.foldl (fun l _ => tickPass l) l := by
  induction n with
  | nil => exact id
  | cons _ n ih => exact fun mem => ih (mem_tickPass start mem)

theorem tickStreams_ticks {s : State} {x : StreamX} (mem : x ∈ s.strs) (start : x.start = 1) : { x with tick := true } ∈ s.tickStreams.strs := by
  rw [tickStreams_strs]
  exact mem_tickPasses (x := { x with tick := true }) start _ (List.mem_map.2 ⟨x, mem, if_pos start⟩)

theorem blockTick_unloaded {s : State} (image : s.graph.image = none) : s.blockTick = s.tickStreams := by
  unfold State.blockTick
  dsimp only
  rw [tickStreams_graph, image]

theorem tickStreams_gstate (s : State) : s.tickStreams.gstate = s.gstate := State.rd_congr (tickStreams_regs s) _
theorem tickStreams_pstate (s : State) : s.tickStreams.pstate = s.pstate := State.rd_congr (tickStreams_regs s) _

theorem paramsNow_none {s : State} (g : GImage) (none : s.graph.params = []) : s.paramsNow g = s.modGraph fun (q : Graph) => { q with params := [] } := by
  unfold State.paramsNow
  dsimp only
  rw [none]
  rfl

theorem graphRuns_gstate {s : State} {n : Nat} (h : s.gstate = n) : s.graphRuns = (decide (n = gsRunning) || decide (n = gsStaged)) := by
  unfold State.graphRuns
  rw [h]

theorem blockTick_counts {s : State} {g : GImage} {n : Nat} (image : s.graph.image = some g) (armed : s.gstate = gsArmed)
    (play : s.pstate = stPlay) (alive : s.graph.dead = false) (own : s.graph.rearm = false) (count : s.graph.countdown = some (n + 1))
    (params : s.graph.params = []) :
    s.blockTick = (s.tickStreams.modGraph fun (q : Graph) => { q with params := [] }).modGraph fun (q : Graph) => { q with countdown := some n } := by
  unfold State.blockTick
  dsimp only
  rw [tickStreams_graph, image]
  dsimp only
  rw [graphRuns_gstate ((tickStreams_gstate s).trans armed), if_neg (by decide), if_pos, count, paramsNow_none]
  · rw [tickStreams_graph, params]
  · rw [tickStreams_gstate, tickStreams_pstate, armed, play, alive, own]
    decide

/-! ## A tick of a running graph -/

theorem lateOnes_congr {s t : State} (h : t.graph = s.graph) (g : GImage) : t.lateOnes g = s.lateOnes g := by
  unfold State.lateOnes State.dueTick State.taskBlk State.hostsOf State.adoptersOf State.liveTasks State.runner State.isShed State.le
  rw [h]

theorem setTick_graph (s : State) (p : Nat) : (s.setTick p).graph = { s.graph with tick := some p } := rfl

theorem setTick_reg (s : State) (p : Nat) {a : Nat} (lo : a ≠ Reg.DSP_GRAPH_BLK_LO) (hi : a ≠ Reg.DSP_GRAPH_BLK_HI) : (s.setTick p).reg a = s.reg a := by
  unfold State.setTick
  rw [State.reg_wr64_ne _ _ lo hi, modGraph_reg]

theorem setTick_gstate (s : State) (p : Nat) : (s.setTick p).gstate = s.gstate :=
  rd_same (f := F.DSP_GRAPH_STAT_GSTATE) (setTick_reg s p (by decide) (by decide))

theorem setTick_blk (s : State) (p : Nat) : (s.setTick p).rd64 Reg.DSP_GRAPH_BLK_LO = (p + 1) % 2 ^ 64 := State.rd64_wr64_mod _ _ _

section
variable {s t : State}

/-- A logical engine that still waits for its input runs late. -/
def GImage.lagged (g : GImage) (p l : Nat) (e : LEngine) : LEngine :=
  if !e.busy && !e.loading && decide (e.next + 2 + g.firstStage l ≤ p) then { e with lag := true } else e

theorem lagged_runs (g : GImage) (p l : Nat) (e : LEngine) : LeRuns e (g.lagged p l e) := by
  unfold GImage.lagged
  split
  · exact ⟨rfl, id, fun _ => rfl⟩
  · exact .refl _

theorem Runs.markLag (h : Runs s t) (g : GImage) (p : Nat) : Runs s (t.markLag g p) := by
  have eq : t.markLag g p = t.modGraph fun (q : Graph) => { q with les := q.les.mapIdx (g.lagged p) } := rfl
  rw [eq]
  refine h.modGraph _ ⟨rfl, rfl, rfl, rfl, ?_, fun l => ?_⟩
  · exact List.length_mapIdx
  · dsimp only
    by_cases lt : l < t.graph.les.length
    · rw [getD_mapIdx_self _ _ _ lt]
      exact lagged_runs _ _ _ _
    · rw [getD_mapIdx_out _ _ _ (Nat.not_lt.1 lt)]
      exact .refl _

theorem Runs.placeParams (h : Runs s t) (g : GImage) : Runs s (t.placeParams g) :=
  h.modGraph _ ⟨rfl, rfl, rfl, rfl, rfl, fun _ => .refl _⟩

theorem Runs.gather (h : Runs s t) (g : GImage) : Runs s (t.gather g) := by
  unfold State.gather
  split
  · exact h
  · refine Runs.foldl (fun z q kept => ?_) h
    exact (Runs.ite kept (kept.wr (offGraph_ring 8 q.ring))).wr (offGraph_ring 12 q.ring)

theorem tickRunning_runs (g : GImage) (p : Nat) (none : (t.setTick p).lateOnes g = []) :
    Runs (t.setTick p) (t.tickRunning g p) := by
  unfold State.tickRunning
  dsimp only
  rw [none]
  exact (((((Runs.refl (t.setTick p)).markLag g p).placeParams g).commitAll g |>.gather g).completeRecs g).startReady g

end

theorem blockTick_running {s : State} {g : GImage} {k : Nat} (image : s.graph.image = some g) (runs : s.gstate = gsRunning)
    (tick : s.graph.tick = some k) : s.blockTick = s.tickStreams.tickRunning g (k + 1) := by
  unfold State.blockTick
  dsimp only
  rw [tickStreams_graph, image]
  dsimp only
  rw [graphRuns_gstate ((tickStreams_gstate s).trans runs), if_pos (by decide), tick, if_neg]
  rw [tickStreams_gstate, runs]
  decide

theorem blockTick_numbers {s : State} {g : GImage} {k : Nat} (image : s.graph.image = some g) (runs : s.gstate = gsRunning)
    (tick : s.graph.tick = some k) (none : (s.setTick (k + 1)).lateOnes g = []) : ∃ t, exec .blockTick s = .next t ∧
      t.graph.tick = some (k + 1) ∧ t.graph.image = some g ∧ t.gstate = gsRunning ∧ t.rd64 Reg.DSP_GRAPH_BLK_LO = (k + 2) % 2 ^ 64 := by
  have none' : (s.tickStreams.setTick (k + 1)).lateOnes g = [] := (lateOnes_congr (by rw [setTick_graph, setTick_graph, tickStreams_graph]) g).trans none
  have ran := tickRunning_runs g (k + 1) none'
  have gstate := (setTick_gstate s.tickStreams (k + 1)).trans ((tickStreams_gstate s).trans runs)
  refine ⟨_, congrArg Host.Outcome.next (blockTick_running image runs tick), ran.graph.tick, ran.graph.image.trans image, ?_, ?_⟩
  · exact (rd_same (f := F.DSP_GRAPH_STAT_GSTATE) (ran.regs _ ⟨by decide, by decide⟩)).trans gstate
  · rw [← setTick_blk s.tickStreams (k + 1)]
    exact State.rd64_congr (ran.regs _ ⟨by decide, by decide⟩) (ran.regs _ ⟨by decide, by decide⟩)

/-! ## A block ends -/

/-- The load and the number of a block are shown. -/
def State.loadShown (s : State) (n k units : Nat) : State :=
  ((s.wr (F.DSP_NE_LOAD_LAST n) units).wr (F.DSP_NE_LOAD_PEAK n) (max (s.rd (F.DSP_NE_LOAD_PEAK n)) (units % 2 ^ 16))).wr64 (Reg.DSP_NE_BLK_LO n) k

/-- Corrected errors of a block are counted. -/
def State.correctedShown (s : State) (n k : Nat) : State :=
  if k = 0 then s else (s.sat (F.DSP_NE_FCNT_CORCNT n) k).set1 (F.DSP_NE_STAT_ECCCOR n)

theorem showBlock_eq {s : State} {l : Nat} (host : (s.le l).host ≠ 0xF) (k : Nat) (out : BlockOut) : ∃ z : State,
    z = (s.loadShown (s.le l).host k out.units).correctedShown (s.le l).host out.corrected ∧
    s.showBlock l k out = { z with eng := vmod z.eng (s.le l).host fun (q : EngineX) => { q with core := out.core } } := by
  refine ⟨_, rfl, ?_⟩
  unfold State.showBlock
  dsimp only
  rw [if_neg host]
  rfl

theorem loadShown_last (s : State) (n k units : Nat) : (s.loadShown n k units).rd (F.DSP_NE_LOAD_LAST n) = units % 2 ^ 16 := by
  unfold State.loadShown
  rw [State.rd_wr64_ne _ _ (show 0x100004 + 0x40 * n ≠ 0x100010 + 0x40 * n by omega) (show 0x100004 + 0x40 * n ≠ 0x100010 + 0x40 * n + 4 by omega),
    State.rd_wr_off _ _ (apart_bits (f := F.DSP_NE_LOAD_PEAK n) (show 16 + 16 ≤ 32 by decide) (.inl (show 0 + 16 ≤ 16 by decide)))]
  exact State.rd_wr_same _ _ (show 0 + 16 ≤ 32 by decide)

theorem loadShown_role (s : State) (n k units : Nat) : (s.loadShown n k units).role n = s.role n := by
  unfold State.loadShown State.role
  rw [State.rd_wr64_ne _ _ (show 0x100000 + 0x40 * n ≠ 0x100010 + 0x40 * n by omega) (show 0x100000 + 0x40 * n ≠ 0x100010 + 0x40 * n + 4 by omega),
    State.rd_wr_off _ _ (apart_addr (f := F.DSP_NE_LOAD_PEAK n) (show 0x100000 + 0x40 * n ≠ 0x100004 + 0x40 * n by omega)),
    State.rd_wr_off _ _ (apart_addr (f := F.DSP_NE_LOAD_LAST n) (show 0x100000 + 0x40 * n ≠ 0x100004 + 0x40 * n by omega))]

theorem correctedShown_last (s : State) (n k : Nat) : (s.correctedShown n k).rd (F.DSP_NE_LOAD_LAST n) = s.rd (F.DSP_NE_LOAD_LAST n) := by
  unfold State.correctedShown
  split
  · rfl
  · rw [State.rd_set1_off _ (apart_addr (f := F.DSP_NE_STAT_ECCCOR n) (show 0x100004 + 0x40 * n ≠ 0x100000 + 0x40 * n by omega)),
      State.rd_sat_off _ _ (apart_addr (f := F.DSP_NE_FCNT_CORCNT n) (show 0x100004 + 0x40 * n ≠ 0x100008 + 0x40 * n by omega))]

theorem correctedShown_role (s : State) (n k : Nat) : (s.correctedShown n k).role n = s.role n := by
  unfold State.correctedShown State.role
  split
  · rfl
  · rw [State.rd_set1_off _ (apart_bits (f := F.DSP_NE_STAT_ECCCOR n) (g := F.DSP_NE_STAT_ROLE n) (show 3 + 1 ≤ 32 by decide)
      (.inr (show 3 + 1 ≤ 28 by decide))),
      State.rd_sat_off _ _ (apart_addr (f := F.DSP_NE_FCNT_CORCNT n) (show 0x100000 + 0x40 * n ≠ 0x100008 + 0x40 * n by omega))]

/-- The registers of the engines. -/
def engineReg (a : Nat) : Prop := 0x100000 ≤ a ∧ a < 0x100200

theorem engineReg_of {n o : Nat} (h : n < 8) (k : o < 0x40) : engineReg (0x100000 + o + 0x40 * n) := ⟨by omega, by omega⟩

theorem blockShown_local (s : State) {n : Nat} (h : n < 8) (k units j : Nat) :
    Local { eng := true } engineReg s ((s.loadShown n k units).correctedShown n j) := by
  have loads : Local { eng := true } engineReg s (s.loadShown n k units) :=
    (((Local.refl s).wr (f := F.DSP_NE_LOAD_LAST n) (engineReg_of (o := 4) h (by decide))).wr (f := F.DSP_NE_LOAD_PEAK n)
      (engineReg_of (o := 4) h (by decide))).wr64 (engineReg_of (o := 0x10) h (by decide))
      (show engineReg (0x100010 + 0x40 * n + 4) from ⟨by omega, by omega⟩)
  unfold State.correctedShown
  exact .ite loads ((loads.sat (f := F.DSP_NE_FCNT_CORCNT n) (engineReg_of (o := 8) h (by decide))).set1 (f := F.DSP_NE_STAT_ECCCOR n)
    (engineReg_of (o := 0) h (by decide)))

/-- What an engine's registers and its vector registers show of a block. -/
theorem showBlock_shows {s : State} {l : Nat} (host : (s.le l).host < 8) (k : Nat) (out : BlockOut) :
    Local { eng := true } engineReg s (s.showBlock l k out) ∧
      (s.showBlock l k out).role (s.le l).host = s.role (s.le l).host ∧
      (s.showBlock l k out).rd (F.DSP_NE_LOAD_LAST (s.le l).host) = out.units % 2 ^ 16 ∧
      (vat (s.showBlock l k out).eng (s.le l).host).core = out.core := by
  obtain ⟨z, eq, shown⟩ := showBlock_eq (s := s) (l := l) (by omega) k out
  have moved := blockShown_local s host k out.units out.corrected
  have role := (correctedShown_role (s.loadShown (s.le l).host k out.units) (s.le l).host out.corrected).trans (loadShown_role s _ k out.units)
  have last := (correctedShown_last (s.loadShown (s.le l).host k out.units) (s.le l).host out.corrected).trans (loadShown_last s _ k out.units)
  rw [← eq] at moved role last
  rw [shown]
  exact ⟨moved.upd (by simp only [State.but, cond_true, cond_false]), role, last, by rw [vat_vmod_same _ _ host]⟩

theorem hostWorks_engine {s : State} {l : Nat} (host : (s.le l).host < 8) (works : s.hostWorks l = true) : s.engineWorks (s.le l).host = true := by
  unfold State.hostWorks at works
  rw [show decide ((s.le l).host = 0xF) = false from decide_eq_false (by omega), Bool.false_or] at works
  exact works

theorem engineBlockEnd_eq {s : State} {l : Fin 8} {g : GImage} (out : BlockOut) (image : s.graph.image = some g) (busy : (s.le l.val).busy = true)
    (copy : (s.le l.val).copy = none) (works : s.hostWorks l.val = true) : ∃ z, z = (s.showBlock l.val (s.le l.val).next out).runOps g l.val out.ops ∧
      exec (.engineBlockEnd l out) s = if ¬ (z.le l.val).busy then .next z else if z.graphRuns then .next ((z.endBlock g l.val out).startReady g)
        else .next (z.modLe l.val fun (q : LEngine) => { q with busy := false }) := by
  refine ⟨_, rfl, ?_⟩
  show execEngineBlockEnd l out s = _
  unfold execEngineBlockEnd
  dsimp only
  rw [image]
  dsimp only
  rw [if_neg]
  rw [busy, copy, works]
  decide

theorem gstate_of_local {m : Parts} {s t : State} (h : Local m engineReg s t) : t.gstate = s.gstate :=
  h.rd (f := F.DSP_GRAPH_STAT_GSTATE) fun k => absurd k.2 (by decide)

theorem engineBlockEnd_moves {s : State} {l : Fin 8} {g : GImage} {out : BlockOut} (image : s.graph.image = some g)
    (busy : (s.le l.val).busy = true) (copy : (s.le l.val).copy = none) (host : (s.le l.val).host < 8) (lt : l.val < s.graph.les.length)
    (works : s.hostWorks l.val = true) (none : out.ops = []) : ∃ t, exec (.engineBlockEnd l out) s = .next t ∧
      (s.graphRuns = true → (t.le l.val).next = (s.le l.val).next + 1) ∧
      (s.graphRuns = false → (t.le l.val).next = (s.le l.val).next ∧ (t.le l.val).busy = false ∧
        t.rd (F.DSP_NE_LOAD_LAST (s.le l.val).host) = out.units % 2 ^ 16) := by
  obtain ⟨shown, -, last, -⟩ := showBlock_shows host (s.le l.val).next out
  obtain ⟨z, eq, run⟩ := engineBlockEnd_eq out image busy copy works
  rw [none] at eq
  replace eq : z = s.showBlock l.val (s.le l.val).next out := eq
  rw [← eq] at shown last
  have graph : z.graph = s.graph := shown.part State.graph
  have le : z.le l.val = s.le l.val := by unfold State.le; rw [graph]
  have runs : z.graphRuns = s.graphRuns := by unfold State.graphRuns; rw [gstate_of_local shown]
  rw [if_neg (by rw [le, busy]; decide), runs] at run
  cases live : s.graphRuns with
  | true =>
    rw [live, if_pos rfl] at run
    refine ⟨_, run, fun _ => ?_, fun off => absurd off (by decide)⟩
    have host' : (z.le l.val).host < 8 := le ▸ host
    have wrote := Runs.writeBlock (.refl z) g l.val (z.le l.val).next out
    have ended := (endBlock_runs z g l.val out (.inr host')).startReady g
    have moved := modLe_same (z.writeBlock g l.val (z.le l.val).next out)
      (fun (e : LEngine) => { e with next := (z.le l.val).next + 1, busy := false }) (by rw [wrote.graph.size, graph]; exact lt)
    have own : (((z.writeBlock g l.val (z.le l.val).next out).modLe l.val
        fun (e : LEngine) => { e with next := (z.le l.val).next + 1, busy := false }).le l.val).host ≠ 0xF := by
      rw [moved]
      exact fun e => absurd (((le_runs wrote l.val).host.symm.trans e) ▸ host') (by decide)
    rw [(le_runs ended l.val).next own, moved, le]
  | false =>
    rw [live, if_neg (by decide)] at run
    have moved := modLe_same z (fun (q : LEngine) => { q with busy := false }) (by rw [graph]; exact lt)
    exact ⟨_, run, fun on => absurd on (by decide), fun _ => ⟨by rw [moved, le], by rw [moved], last⟩⟩

/-! ## A checkpoint is sealed -/

/-- A logical engine whose copy has been sealed into the slot whose turn it is. -/
def LEngine.sealed (q : LEngine) (ws : List Word) : LEngine :=
  { q with copy := none, copyBad := none, nextB := !q.nextB, slotA := if q.nextB then q.slotA else ws, slotB := if q.nextB then ws else q.slotB }

theorem checkpointSeal_eq {s : State} {l : Fin 8} {g : GImage} {c : Slot} (image : s.graph.image = some g) (copy : (s.le l.val).copy = some c) :
    ∃ f : Graph → Graph, exec (.checkpointSeal l false) s =
      .next ((s.modLe l.val fun q => q.sealed (c.words (s.le l.val).nextB l.val (g.word 2))).modGraph f) ∧ ∀ q, (f q).les = q.les := by
  show ∃ f : Graph → Graph, execCheckpointSeal l false s = _ ∧ _
  unfold execCheckpointSeal
  dsimp only
  rw [copy, image]
  dsimp only
  refine ⟨_, if_neg Bool.false_ne_true, ?_⟩
  exact fun _ => rfl

theorem checkpointSeal_seals {s : State} {l : Fin 8} {g : GImage} {c : Slot} (image : s.graph.image = some g) (copy : (s.le l.val).copy = some c)
    (lt : l.val < s.graph.les.length) : let ws := c.words (s.le l.val).nextB l.val (g.word 2)
      ∃ t, exec (.checkpointSeal l false) s = .next t ∧ (t.le l.val).copy = none ∧ (t.le l.val).copyBad = none ∧
        (t.le l.val).slotA = (if (s.le l.val).nextB then (s.le l.val).slotA else ws) ∧
        (t.le l.val).slotB = (if (s.le l.val).nextB then ws else (s.le l.val).slotB) ∧
        (t.le l.val).nextB = !(s.le l.val).nextB ∧ { t with graph := s.graph } = s := by
  intro ws
  obtain ⟨f, next, les⟩ := checkpointSeal_eq image copy
  have same : ((s.modLe l.val fun q => q.sealed ws).modGraph f).le l.val = (s.le l.val).sealed ws := by
    refine Eq.trans ?_ (modLe_same s (fun q => q.sealed ws) lt)
    unfold State.le
    rw [modGraph_graph, les]
  exact ⟨_, next, by rw [same]; rfl, by rw [same]; rfl, by rw [same]; rfl, by rw [same]; rfl, by rw [same]; rfl, rfl⟩

theorem checkpointSeal_givesUp {s : State} {l : Fin 8} {g : GImage} {c : Slot} (image : s.graph.image = some g) (copy : (s.le l.val).copy = some c)
    (lt : l.val < s.graph.les.length) : ∃ t, exec (.checkpointSeal l true) s = .next t ∧ (t.le l.val).copy = none ∧
        (t.le l.val).copyBad = some c.blk ∧ (t.le l.val).slotA = (s.le l.val).slotA ∧ (t.le l.val).slotB = (s.le l.val).slotB ∧
        { t with graph := s.graph } = s := by
  refine ⟨s.modLe l.val fun (q : LEngine) => { q with copy := none, copyBad := some c.blk }, ?_, ?_⟩
  · show execCheckpointSeal l true s = _
    unfold execCheckpointSeal
    dsimp only
    rw [copy, image]
    dsimp only
    rw [if_pos rfl]
  · have same := modLe_same s (fun (q : LEngine) => { q with copy := none, copyBad := some c.blk }) lt
    exact ⟨congrArg LEngine.copy same, congrArg LEngine.copyBad same, by rw [same], by rw [same], rfl⟩

/-! ## Stores and atomics of a block (R266) -/

theorem bankWin_word (k : Nat) : bankWin (0x10000000 + 4 * k) = 0x800000 + 4 * k := by unfold bankWin; omega

theorem inBanks_word {k : Nat} (h : k < 2 ^ 19) : inBanks (0x10000000 + 4 * k) = true := decide_eq_true ⟨by omega, by omega⟩

/-- One access of a block is done where its task's engine works and the word's bank is on. -/
theorem runOps_one {s : State} {g : GImage} {l y : Nat} {x : GTask} {op : EngOp} (task : g.task? y = some x) (shed : s.isShed y = false)
    (works : s.engineWorks (s.le (s.runner x)).host = true) (ok : s.opOk op = true) :
    s.runOps g l [(y, op)] = s.doOp (s.le (s.runner x)).host (s.dmemOf l) op := by
  unfold State.runOps
  rw [List.foldl_cons, List.foldl_nil]
  dsimp only
  rw [task]
  dsimp only
  rw [shed, works, if_neg (by decide), if_pos ok]

/-- The state in which a block's accesses run, and the access of one task of it to a bank word. -/
theorem blockAccess {s : State} {l : Fin 8} {out : BlockOut} {g : GImage} {y k : Nat} {x : GTask} {op : EngOp}
    (image : s.graph.image = some g) (idle : s.graphRuns = false) (busy : (s.le l.val).busy = true)
    (copy : (s.le l.val).copy = none) (host : (s.le l.val).host < 8) (works : s.hostWorks l.val = true) (task : g.task? y = some x)
    (runner : s.runner x = l.val) (shed : s.isShed y = false) (on : s.bankOn (4 * k / 0x20000) = true)
    (ok : ∀ u : State, u.bankOn (4 * k / 0x20000) = true → u.opOk op = true) (ops : out.ops = [(y, op)])
    (plain : ∀ (u : State) (n d : Nat), u.poison = s.poison → (u.doOp n d op).graph = u.graph ∧ (u.doOp n d op).regs = u.regs) :
    ∃ u : State, Local { eng := true } engineReg s u ∧ (vat u.eng (s.le l.val).host).core = out.core ∧
      ∃ t d, exec (.engineBlockEnd l out) s = .next t ∧ t.mem = (u.doOp (s.le l.val).host d op).mem ∧ t.eng = (u.doOp (s.le l.val).host d op).eng := by
  obtain ⟨shown, role, -, core⟩ := showBlock_shows host (s.le l.val).next out
  obtain ⟨z, eq, run⟩ := engineBlockEnd_eq out image busy copy works
  have engine := hostWorks_engine host works
  rw [ops] at eq
  generalize s.showBlock l.val (s.le l.val).next out = u at *
  have same : u.graph = s.graph := shown.part State.graph
  have le : ∀ i, u.le i = s.le i := fun i => by unfold State.le; rw [same]
  have runner' : u.runner x = l.val := by rw [← runner]; unfold State.runner; rw [same]
  have shed' : u.isShed y = false := by rw [← shed]; unfold State.isShed; rw [same]
  have works' : u.engineWorks (u.le (u.runner x)).host = true := by
    rw [runner', le, ← engine]
    unfold State.engineWorks
    rw [role]
  have bank : u.bankOn (4 * k / 0x20000) = true := by
    rw [← on]
    unfold State.bankOn
    rw [shown.rd fun own => absurd own.2 (Nat.not_lt.2 (Nat.le_trans (by decide) (Nat.le_add_right 0x104000 _)))]
  rw [runOps_one task shed' works' (ok u bank), runner', le] at eq
  obtain ⟨graph', regs'⟩ := plain u (s.le l.val).host (u.dmemOf l.val) shown.poison
  refine ⟨u, shown, core, z.modLe l.val fun (q : LEngine) => { q with busy := false }, u.dmemOf l.val, ?_, ?_, ?_⟩
  · have le' : z.le l.val = s.le l.val := by unfold State.le; rw [eq, graph', same]
    have runs : z.graphRuns = s.graphRuns := by
      unfold State.graphRuns State.gstate
      rw [eq, State.rd_congr regs']
      exact congrArg (fun n => decide (n = gsRunning) || decide (n = gsStaged)) (gstate_of_local shown)
    rw [run, if_neg (by rw [le', busy]; decide), runs, idle, if_neg (by decide)]
  · rw [eq]
    rfl
  · rw [eq]
    rfl

theorem opOk_store {u : State} {k : Nat} (few : k < 2 ^ 19) (w : Word) (on : u.bankOn (4 * k / 0x20000) = true) :
    u.opOk (.store (0x10000000 + 4 * k) w) = true := by
  unfold State.opOk EngOp.addr
  dsimp only
  rw [inBanks_word few, show 0x10000000 + 4 * k - 0x10000000 = 4 * k by omega, on, Bool.and_true, Bool.or_true]

theorem opOk_atomAdd {u : State} {k : Nat} (few : k < 2 ^ 19) (w : Word) (r : Fin 32) (on : u.bankOn (4 * k / 0x20000) = true) :
    u.opOk (.atomAdd (0x10000000 + 4 * k) w r) = true := by
  unfold State.opOk EngOp.addr
  dsimp only
  rw [inBanks_word few, show 0x10000000 + 4 * k - 0x10000000 = 4 * k by omega, on, Bool.and_true]

theorem doOp_store (u : State) (n d : Nat) {k : Nat} (few : k < 2 ^ 19) (w : Word) :
    u.doOp n d (.store (0x10000000 + 4 * k) w) = u.setWord (0x800000 + 4 * k) w := by
  unfold State.doOp
  dsimp only
  rw [if_pos (inBanks_word few), bankWin_word]

theorem word_congr {s t : State} (h : t.mem = s.mem) (a : Nat) : t.word a = s.word a := by
  unfold State.word
  rw [State.byte_congr h, State.byte_congr h, State.byte_congr h, State.byte_congr h]

theorem doOp_atomAdd {u : State} (n d : Nat) {k : Nat} (w : Word) (r : Fin 32) (sound : u.poison.contains (0x800000 + 4 * k) = false) :
    u.doOp n d (.atomAdd (0x10000000 + 4 * k) w r) =
      { u.setWord (0x800000 + 4 * k) (u.word (0x800000 + 4 * k) + w) with
        eng := vmod (u.setWord (0x800000 + 4 * k) (u.word (0x800000 + 4 * k) + w)).eng n fun (q : EngineX) =>
          { q with core := q.core.set r.val (u.word (0x800000 + 4 * k)) } } := by
  unfold State.doOp State.atomic
  dsimp only
  rw [bankWin_word, if_neg (by rw [sound]; decide)]

section
variable {s : State} {l : Fin 8} {out : BlockOut} {g : GImage} {y k : Nat} {x : GTask}

theorem engineBlockEnd_stores (image : s.graph.image = some g) (idle : s.graphRuns = false) (busy : (s.le l.val).busy = true)
    (copy : (s.le l.val).copy = none) (host : (s.le l.val).host < 8) (works : s.hostWorks l.val = true) (task : g.task? y = some x)
    (runner : s.runner x = l.val) (shed : s.isShed y = false) (few : k < 2 ^ 19) (on : s.bankOn (4 * k / 0x20000) = true) (w : Word)
    (ops : out.ops = [(y, .store (0x10000000 + 4 * k) w)]) : ∃ t, exec (.engineBlockEnd l out) s = .next t ∧
      t.word (0x800000 + 4 * k) = w ∧ SameBytesBut (fun b => 0x800000 + 4 * k ≤ b ∧ b < 0x800000 + 4 * k + 4) s t := by
  obtain ⟨u, shown, -, t, d, run, mem, -⟩ := blockAccess image idle busy copy host works task runner shed on
    (fun u bank => opOk_store few w bank) ops fun u n d _ => by rw [doOp_store u n d few]; exact ⟨rfl, rfl⟩
  rw [doOp_store u _ d few] at mem
  refine ⟨t, run, (word_congr mem _).trans (State.word_setWord_same u _ w), fun b away => ?_⟩
  rw [State.byte_congr mem, State.byte_setWord_ne u w (by omega), State.byte_congr shown.mem]

theorem engineBlockEnd_adds (image : s.graph.image = some g) (idle : s.graphRuns = false) (busy : (s.le l.val).busy = true)
    (copy : (s.le l.val).copy = none) (host : (s.le l.val).host < 8) (works : s.hostWorks l.val = true) (task : g.task? y = some x)
    (runner : s.runner x = l.val) (shed : s.isShed y = false) (few : k < 2 ^ 19) (on : s.bankOn (4 * k / 0x20000) = true)
    (sound : s.poison.contains (0x800000 + 4 * k) = false) (w : Word) (r : Fin 32)
    (ops : out.ops = [(y, .atomAdd (0x10000000 + 4 * k) w r)]) : ∃ t, exec (.engineBlockEnd l out) s = .next t ∧
      t.word (0x800000 + 4 * k) = s.word (0x800000 + 4 * k) + w ∧
      (vat t.eng (s.le l.val).host).core = out.core.set r.val (s.word (0x800000 + 4 * k)) := by
  obtain ⟨u, shown, core, t, d, run, mem, eng⟩ := blockAccess image idle busy copy host works task runner shed on
    (fun u bank => opOk_atomAdd few w r bank) ops fun u n d same => by rw [doOp_atomAdd n d w r (by rw [same]; exact sound)]; exact ⟨rfl, rfl⟩
  rw [doOp_atomAdd _ d w r (by rw [shown.poison]; exact sound)] at mem eng
  have before : u.word (0x800000 + 4 * k) = s.word (0x800000 + 4 * k) := word_congr shown.mem _
  replace mem : t.mem = (u.setWord (0x800000 + 4 * k) (u.word (0x800000 + 4 * k) + w)).mem := mem
  refine ⟨t, run, ?_, ?_⟩
  · rw [word_congr mem, State.word_setWord_same, before]
  · rw [eng, vat_vmod_same _ _ host, State.setWord_eng, core, before]

end

/-! ## Read points (R289) -/

/-- The parts that the readers of the committed samples change. -/
def readerParts : Parts := { spks := true, diag := true, hp := true, cv := true, draw := true }

/-- The registers of the outputs. -/
def outReg (a : Nat) : Prop := 0x300000 ≤ a ∧ a < 0x400000

section
variable {s t : State}

theorem outReg_spk {n o : Nat} (h : n < 12) (k : o < 0x1000) : outReg (0x301000 + o + 0x40 * n) := ⟨by omega, by omega⟩
theorem outReg_cv {n o : Nat} (h : n < 4) (k : o < 0x1000) : outReg (0x305000 + o + 0x20 * n) := ⟨by omega, by omega⟩

theorem Local.modSpk (h : Local readerParts outReg s t) (n : Nat) (f : SpkX → SpkX) : Local readerParts outReg s (t.modSpk n f) := by
  unfold State.modSpk
  exact h.upd (by simp only [State.but, readerParts, cond_true, cond_false])

theorem Local.modHp (h : Local readerParts outReg s t) (o : Nat) (f : HpX → HpX) : Local readerParts outReg s (t.modHp o f) := by
  unfold State.modHp
  exact h.upd (by simp only [State.but, readerParts, cond_true, cond_false])

theorem Local.modCv (h : Local readerParts outReg s t) (n : Nat) (f : CvX → CvX) : Local readerParts outReg s (t.modCv n f) := by
  unfold State.modCv
  exact h.upd (by simp only [State.but, readerParts, cond_true, cond_false])

theorem Local.drawn (h : Local readerParts outReg s t) : Local readerParts outReg s t.drawn := by
  unfold State.drawn
  exact h.upd (by simp only [State.but, readerParts, cond_true, cond_false])

theorem Local.limitStep (h : Local readerParts outReg s t) {n : Nat} (lt : n < 12) (v : Int) : Local readerParts outReg s (t.limitStep n v) :=
  ((h.modSpk n _).wr (f := F.OUT_SPK_PROT_ATT n) (outReg_spk (o := 0x10) lt (by decide))).wr (f := F.OUT_SPK_PROT_PLATT n)
    (outReg_spk (o := 0x10) lt (by decide))

theorem Local.modStep (h : Local readerParts outReg s t) {n : Nat} (lt : n < 12) (v : Nat) : Local readerParts outReg s (t.modStep n v) := by
  have stat : outReg (Reg.OUT_SPK_STAT n) := outReg_spk (o := 0xC) lt (by decide)
  unfold State.modStep
  dsimp only
  refine .ite h ?_
  have fed : ∀ (c : Bool) f v, Local readerParts outReg s ((State.modSpk (if c then t.set1 (F.OUT_SPK_STAT_UNDR n) else t) n f).limitStep n v) :=
    fun c f v => ((Local.ite (h.set1 (f := F.OUT_SPK_STAT_UNDR n) stat) h).modSpk n f).limitStep lt v
  exact .ite (((fed _ _ _).set1 (f := F.OUT_SPK_STAT_CLIP n) stat).acSpoil rfl n) (fed _ _ _)

theorem Local.hpStep (h : Local readerParts outReg s t) (o : Nat) : Local readerParts outReg s (t.hpStep o) := by
  unfold State.hpStep
  dsimp only
  exact (Local.ite (h.set1 (f := F.OUT_HPL_STAT_UNDR) ⟨by decide, by decide⟩) h).modHp o _

theorem Local.hpLimit (h : Local readerParts outReg s t) (b : Bool) : Local readerParts outReg s (t.hpLimit b) :=
  .ite (h.set1 (f := F.OUT_HPL_STAT_HPOVC) ⟨by decide, by decide⟩) h

theorem Local.cvPut (h : Local readerParts outReg s t) {n : Nat} (lt : n < 4) (c : Nat) : Local readerParts outReg s (t.cvPut n c) := by
  have stat : outReg (Reg.OUT_CV_STAT n) := outReg_cv (o := 0x10) lt (by decide)
  exact .ite (h.modCv n _) (.ite ((h.modCv n _).set1 (f := F.OUT_CV_STAT_DEGL n) stat) (h.wr (f := F.OUT_CV_STAT_OUTCODE n) stat))

theorem Local.cvSettle (h : Local readerParts outReg s t) {n : Nat} (lt : n < 4) : Local readerParts outReg s (t.cvSettle n) := by
  have stat : outReg (Reg.OUT_CV_STAT n) := outReg_cv (o := 0x10) lt (by decide)
  have clear := h.wr (f := F.OUT_CV_STAT_CLR n) (v := b2n (t.cvClears n)) stat
  unfold State.cvSettle
  dsimp only
  exact (Local.ite (.ite clear (clear.cvPut lt _)) (.ite (clear.cvPut lt _) clear)).wr (f := F.OUT_CV_STAT_SLEWING n) stat

theorem Local.cvTrackStep (h : Local readerParts outReg s t) {n : Nat} (lt : n < 4) (d : Nat) : Local readerParts outReg s (t.cvTrackStep n d) := by
  have stat : outReg (Reg.OUT_CV_STAT n) := outReg_cv (o := 0x10) lt (by decide)
  have pinned := fun v => h.wr (f := F.OUT_CV_STAT_PINNED n) (v := v) stat
  unfold State.cvTrackStep
  dsimp only
  exact .ite (pinned _) (Local.cvSettle ((((pinned _).drawn).modCv n _).wr (f := F.OUT_CV_STAT_PA n) stat) lt)

end

/-- Every reader has taken its sample. -/
def State.samplesRead (s : State) (pvdd : Nat × Nat × Nat) (limited : Bool) : State :=
  let s1 := forEach (fun n (z : State) => z.modStep n ([pvdd.1, pvdd.2.1, pvdd.2.2].getD (n / 4) 0)) 12 s
  let s2 := if s1.domOn dmHpLine then (forEach (fun o (z : State) => z.hpStep o) 2 s1).hpLimit limited else s1
  if s2.domOn dmCv then forEach (fun n (z : State) => z.cvTrackStep n (z.demand n)) 4 s2 else s2

theorem samplesRead_local (s : State) (pvdd : Nat × Nat × Nat) (limited : Bool) : Local readerParts outReg s (s.samplesRead pvdd limited) := by
  have mods : Local readerParts outReg s (forEach (fun n (z : State) => z.modStep n ([pvdd.1, pvdd.2.1, pvdd.2.2].getD (n / 4) 0)) 12 s) :=
    Local.forEach (fun n z lt k => k.modStep lt _) (.refl s)
  unfold State.samplesRead
  dsimp only
  generalize forEach (fun n (z : State) => z.modStep n ([pvdd.1, pvdd.2.1, pvdd.2.2].getD (n / 4) 0)) 12 s = u at *
  have hp : Local readerParts outReg s (if u.domOn dmHpLine then (forEach (fun o (z : State) => z.hpStep o) 2 u).hpLimit limited else u) :=
    .ite ((Local.forEach (fun o z _ k => k.hpStep o) mods).hpLimit limited) mods
  exact .ite (Local.forEach (fun n z lt k => k.cvTrackStep lt _) hp) hp

theorem leapRead_eq {s : State} (alive : s.linkAlive = true) (pvdd : Nat × Nat × Nat) (limitL limitR : Bool) :
    exec (.leapRead pvdd limitL limitR) s = .next (forEach (fun c (z : State) => z.leapStep c) 32 (s.samplesRead pvdd (limitL || limitR))) := by
  show execLeapRead pvdd limitL limitR s = _
  unfold execLeapRead
  rw [if_neg (by rw [alive]; decide)]
  rfl

/-- The parts that a read point's step changes. -/
def leapParts : Parts := { leap := true }

theorem Local.leapMod {R : Nat → Prop} {s t : State} (h : Local leapParts R s t) (c : Nat) (f : LeapCh → LeapCh) :
    Local leapParts R s (t.modLeap c f) := by
  unfold State.modLeap
  exact h.upd (by simp only [State.but, leapParts, cond_true, cond_false])

/-- The registers of one leap channel. -/
def leapReg (c a : Nat) : Prop := a = Reg.DSP_LEAP_STAT c ∨ a = Reg.DSP_LEAP_CNT c

/-- A read point passes a sample. -/
def LeapCh.passed (h : LeapCh) (e : Bool) (span : Nat) : LeapCh :=
  { h with
    read := h.read + 1, filled := e
    samples := h.samples.filter fun (x : LeapSample) => h.read < (x.idx : Int) + (span : Nat)
    echo := h.echo.filter fun (x : Nat × Nat) => h.read < (x.2 : Int)
    demand := h.demand.filter fun (x : Nat × Nat) => h.read < (x.1 : Int) }

/-- A filled sample is counted. -/
def State.leapCounted (s : State) (c : Nat) : State := if (vat s.leap c).empty then s.sat (F.DSP_LEAP_CNT_UNDCNT c) 1 else s

theorem leapStep_on {s : State} {c : Nat} (on : s.on (F.DSP_LEAP_STAT_BOUND c) = true ∧ s.graph.flow = true) : s.leapStep c =
    ((s.leapCounted c).modLeap c fun h => h.passed (vat s.leap c).empty (8 * 2 ^ s.rd F.DSP_GRAPH_STAT_BC)).showAhead c := by
  unfold State.leapStep
  dsimp only
  rw [if_pos on]
  rfl

theorem leapStep_off {s : State} {c : Nat} (off : ¬ (s.on (F.DSP_LEAP_STAT_BOUND c) = true ∧ s.graph.flow = true)) : s.leapStep c =
    s.modLeap c fun h => { h with filled := (vat s.leap c).empty } := by
  unfold State.leapStep
  dsimp only
  rw [if_neg off]

theorem leapCounted_leap (s : State) (c : Nat) : (s.leapCounted c).leap = s.leap := by
  unfold State.leapCounted
  split
  · rw [State.sat_leap]
  · rfl

theorem modLeap_leap (s : State) (c : Nat) (f : LeapCh → LeapCh) : (s.modLeap c f).leap = vmod s.leap c f := rfl

theorem showAhead_leap (s : State) (c : Nat) : (s.showAhead c).leap = s.leap := by
  unfold State.showAhead
  rw [State.wr_leap]

theorem leapStep_local (s : State) (c : Nat) : Local leapParts (leapReg c) s (s.leapStep c) := by
  by_cases on : s.on (F.DSP_LEAP_STAT_BOUND c) = true ∧ s.graph.flow = true
  · have counted : Local leapParts (leapReg c) s (s.leapCounted c) :=
      .ite ((Local.refl s).sat (f := F.DSP_LEAP_CNT_UNDCNT c) (.inr rfl)) (.refl s)
    rw [leapStep_on on]
    exact (counted.leapMod c _).wr (f := F.DSP_LEAP_STAT_AHEAD c) (.inl rfl)
  · rw [leapStep_off on]
    exact (Local.refl s).leapMod c _

theorem leapStep_leap (s : State) (c : Nat) : ∃ f, (s.leapStep c).leap = vmod s.leap c f := by
  by_cases on : s.on (F.DSP_LEAP_STAT_BOUND c) = true ∧ s.graph.flow = true
  · exact ⟨_, by rw [leapStep_on on, showAhead_leap, modLeap_leap, leapCounted_leap]⟩
  · exact ⟨_, by rw [leapStep_off on, modLeap_leap]⟩

theorem leapStep_ne (s : State) {c k : Nat} (h : k ≠ c) : vat (s.leapStep c).leap k = vat s.leap k := by
  obtain ⟨f, eq⟩ := leapStep_leap s c
  rw [eq, vat_vmod_ne _ _ h]

theorem leapStep_reads {s : State} {k : Nat} (lt : k < 32) (bound : s.on (F.DSP_LEAP_STAT_BOUND k) = true) (flow : s.graph.flow = true) :
    (vat (s.leapStep k).leap k).read = (vat s.leap k).read + 1 ∧ (vat (s.leapStep k).leap k).filled = (vat s.leap k).empty := by
  rw [leapStep_on ⟨bound, flow⟩, showAhead_leap, modLeap_leap, leapCounted_leap, vat_vmod_same _ _ lt]
  exact ⟨rfl, rfl⟩

/-- The read points of the first `n` leap channels have passed their sample, the others have not. -/
structure ReadUpTo (s z : State) (k n : Nat) : Prop where
  frame  : Local leapParts (fun a => 0x103000 ≤ a) s z
  before : n ≤ k → vat z.leap k = vat s.leap k
  bound  : n ≤ k → z.reg (Reg.DSP_LEAP_STAT k) = s.reg (Reg.DSP_LEAP_STAT k)
  passed : k < n → (vat z.leap k).read = (vat s.leap k).read + 1 ∧ (vat z.leap k).filled = (vat s.leap k).empty

theorem readUpTo {s : State} {k : Nat} (bound : s.on (F.DSP_LEAP_STAT_BOUND k) = true) (flow : s.graph.flow = true) :
    ∀ n, n ≤ 32 → ReadUpTo s (forEach (fun c (z : State) => z.leapStep c) n s) k n
  | 0, _ => ⟨.refl s, fun _ => rfl, fun _ => rfl, fun lt => absurd lt (Nat.not_lt_zero k)⟩
  | n + 1, le => by
    obtain ⟨frame, before, same, passed⟩ := readUpTo bound flow n (Nat.le_of_succ_le le)
    have eq : forEach (fun c (z : State) => z.leapStep c) (n + 1) s = (forEach (fun c (z : State) => z.leapStep c) n s).leapStep n := rfl
    rw [eq]
    generalize forEach (fun c (z : State) => z.leapStep c) n s = z at *
    have step := leapStep_local z n
    refine ⟨frame.trans (step.mono ?_), fun more => ?_, fun more => ?_, fun done => ?_⟩
    · rintro a (rfl | rfl)
      · exact Nat.le_add_right 0x103000 _
      · exact Nat.le_trans (by decide) (Nat.le_add_right 0x10300C _)
    · rw [leapStep_ne z (by omega), before (by omega)]
    · rw [step.regs, same (by omega)]
      unfold leapReg Reg.DSP_LEAP_STAT Reg.DSP_LEAP_CNT
      omega
    · by_cases own : k = n
      · subst own
        have bound' : z.on (F.DSP_LEAP_STAT_BOUND k) = true := (on_same (f := F.DSP_LEAP_STAT_BOUND k) (same (Nat.le_refl k))).trans bound
        have flow' : z.graph.flow = true := by rw [frame.part State.graph]; exact flow
        have reads := leapStep_reads (Nat.lt_of_succ_le le) bound' flow'
        rw [before (Nat.le_refl k)] at reads
        exact reads
      · rw [leapStep_ne z own]
        exact passed (by omega)

theorem leapRead_passes {s : State} {k : Fin 32} (pvdd : Nat × Nat × Nat) (limitL limitR : Bool) (alive : s.linkAlive = true)
    (flow : s.graph.flow = true) (bound : s.on (F.DSP_LEAP_STAT_BOUND k.val) = true) :
    ∃ t, exec (.leapRead pvdd limitL limitR) s = .next t ∧ (vat t.leap k.val).read = (vat s.leap k.val).read + 1 ∧
      (vat t.leap k.val).filled = (vat s.leap k.val).empty ∧ t.graph = s.graph ∧ SameBytesBut (papolByte s) s t := by
  have eq := leapRead_eq alive pvdd limitL limitR
  have read := samplesRead_local s pvdd (limitL || limitR)
  generalize s.samplesRead pvdd (limitL || limitR) = z at *
  have leap : z.leap = s.leap := read.part State.leap
  have graph : z.graph = s.graph := read.part State.graph
  have bound' : z.on (F.DSP_LEAP_STAT_BOUND k.val) = true :=
    (read.on (f := F.DSP_LEAP_STAT_BOUND k.val) fun own => absurd own.1 (show ¬ 0x300000 ≤ 0x103000 + 0x10 * k.val by omega)).trans bound
  obtain ⟨frame, -, -, passed⟩ := readUpTo bound' (by rw [graph]; exact flow) 32 (Nat.le_refl 32)
  obtain ⟨reads, filled⟩ := passed k.isLt
  rw [leap] at reads filled
  exact ⟨_, eq, reads, filled, (frame.part State.graph).trans graph, fun a _ => (State.byte_congr frame.mem a).trans (State.byte_congr read.mem a)⟩

/-- Settles O27: what a tick starts again keeps the period and the image, and what follows a block keeps its logical engine's place. -/
theorem blockScheduleAdvances : Obligations.BlockScheduleAdvances := fun s _ _ _ =>
  ⟨fun image => ⟨s.tickStreams, congrArg Host.Outcome.next (blockTick_unloaded image), rfl, rfl, fun _ mem start => tickStreams_ticks mem start⟩,
    fun _ _ image armed play alive own count params => ⟨_, congrArg Host.Outcome.next (blockTick_counts image armed play alive own count params),
      rfl, (tickStreams_gstate s).trans armed, fun _ _ => .inl rfl, fun _ _ => rfl⟩,
    fun _ _ image runs tick none => blockTick_numbers image runs tick none,
    fun _ image busy copy host lt works none => engineBlockEnd_moves image busy copy host lt works none,
    fun _ _ _ w r image idle busy copy host works task runner shed few on sound =>
      ⟨fun ops => engineBlockEnd_stores image idle busy copy host works task runner shed few on w ops,
        fun ops => engineBlockEnd_adds image idle busy copy host works task runner shed few on sound w r ops⟩,
    fun _ _ image copy lt => ⟨checkpointSeal_seals image copy lt, checkpointSeal_givesUp image copy lt⟩,
    fun pvdd limitL limitR _ alive flow bound => leapRead_passes pvdd limitL limitR alive flow bound⟩

end Sys2Proof.Machine
end

section
/-!
# Graph images are loaded and molted (spec/06_engines_leap.md, R271, R272, R305 to R310)
-/

namespace Sys2Proof.Machine

-- One theorem after the other: in one text, theorems that wait for the kernel would each hold a thread.
set_option Elab.async false

/-! ## What the admission of a packet leaves of an image -/

section
variable (s : State) (c : CmdSpec) (p : Packet)

theorem admitted_poison_sub : ∀ a ∈ (s.admitted c p).poison, a ∈ s.poison := by
  have placed : ∀ a ∈ (s.placeRing p.ring (p.words c.opcode)).poison, a ∈ s.poison := putRing_poison_sub p.ring _ _ s
  have run : ∀ u : State, u.sysRun.poison = u.poison := fun u => (sysRun_regsOnly u).congr State.poison fun _ => rfl
  have first : ∀ v, (((s.placeRing p.ring (p.words c.opcode)).sysRun.wr (F.DSP_RING_DIDX_DIDX p.ring) v)).poison =
      (s.placeRing p.ring (p.words c.opcode)).poison := fun v => (State.wr_poison _ _ _).trans (run _)
  unfold State.admitted
  dsimp only
  generalize hs : State.wr _ _ _ = s1
  have eq : s1.poison = (s.placeRing p.ring (p.words c.opcode)).poison := by rw [← hs]; exact first _
  obtain ⟨x, hx⟩ := takeEack_rest s1 p.eack
  have same : ((s1.takeEack p.eack).advance p.ring1).poison = s1.poison := by rw [hx]; rfl
  intro a mem
  apply placed
  rw [← eq, ← same]
  split at mem
  · exact mem
  · exact mem

theorem admitted_poisonIn {ofs len : Nat} (none : s.poisonIn ofs len = []) : (s.admitted c p).poisonIn ofs len = [] := by
  unfold State.poisonIn at none ⊢
  rw [List.filter_eq_nil_iff] at none ⊢
  exact fun a mem => none a (admitted_poison_sub s c p a mem)

theorem words_congr {s t : State} : ∀ (n a : Nat), (∀ b, a ≤ b → b < a + 4 * n → t.byte b = s.byte b) → t.words a n = s.words a n
  | 0, _, _ => rfl
  | n + 1, a, same => by
    unfold State.words
    rw [words_congr n (a + 4) fun b lo hi => same b (by omega) (by omega)]
    unfold State.word
    rw [same a (by omega) (by omega), same (a + 1) (by omega) (by omega), same (a + 2) (by omega) (by omega), same (a + 3) (by omega) (by omega)]

theorem admitted_words {a n : Nat} (away : ∀ b, papolByte s b → ¬ (a ≤ b ∧ b < a + 4 * n)) : (s.admitted c p).words a n = s.words a n :=
  words_congr n a fun b lo hi => (admitted_papol s c p).bytes b fun own => away b own ⟨lo, hi⟩

theorem admitted_rootHash (k : Nat) : (s.admitted c p).rootHash k = s.rootHash k := by
  unfold State.rootHash; simp only [admitted_fuse]

theorem admitted_modelSigned (img : List Word) : (s.admitted c p).modelSigned img = s.modelSigned img := by
  unfold State.modelSigned State.blockValid State.revoked State.anySigner
  simp only [admitted_lifecycle, admitted_rootProgrammed, admitted_fuse, admitted_rootHash]

theorem admitted_graphRoll : (s.admitted c p).graphRoll = s.graphRoll := rd_card s c p

/-- Of the clock status the admission moves SYSLOCK alone. -/
theorem admitted_clkField {f : Field} (addr : f.addr = Reg.CTL_CLK_STAT := by rfl) (apart : Field.apart F.CTL_CLK_STAT_SYSLOCK f = true := by decide) :
    (s.admitted c p).rd f = s.rd f := by
  rcases (admitted_papol s c p).regs Reg.CTL_CLK_STAT (not_papolReg (by decide) (.inl (by decide))) with same | ⟨-, -, same⟩
  · exact rd_same (by rw [addr, same])
  · exact (rd_same (s := s.set1 F.CTL_CLK_STAT_SYSLOCK) (by rw [addr, same])).trans (State.rd_set1_off s apart)

theorem admitted_fgcOk (g : GImage) : (s.admitted c p).fgcOk g = s.fgcOk g := by
  unfold State.fgcOk; rw [admitted_clkField]

theorem admitted_healthy {n : Nat} (lt : n < 8) : (s.admitted c p).healthy n = s.healthy n := healthy_congr (fun _ => admitted_role s c p) lt

theorem admitted_healthies : indices 8 (s.admitted c p).healthy = indices 8 s.healthy :=
  List.filter_congr fun _ mem => admitted_healthy s c p (List.mem_range.1 mem)

theorem admitted_ringsClaimed (g : GImage) (old : Option GImage) : (s.admitted c p).ringsClaimed g old = s.ringsClaimed g old := by
  unfold State.ringsClaimed State.usesRing
  simp only [admitted_usesEnd, admitted_strs]

theorem admitted_leapsClaimed (g : GImage) (old : Option GImage) : (s.admitted c p).leapsClaimed g old = s.leapsClaimed g old := by
  unfold State.leapsClaimed
  simp only [admitted_usesEnd, admitted_strs]

theorem admitted_needAll : ∀ {ds : List Nat}, (∀ d ∈ ds, 0x10 ≤ d ∧ DomUp s d) → (s.admitted c p).needAll ds = some (s.admitted c p)
  | [], _ => rfl
  | d :: ds, up => by
    obtain ⟨high, ready⟩ := up d List.mem_cons_self
    unfold State.needAll
    rw [admitted_need ready c p high]
    exact admitted_needAll fun e mem => up e (List.mem_cons_of_mem d mem)

end

theorem withDomains_all {s : State} {ds : List Nat} {k : State → Res} (h : s.needAll ds = some s) : s.withDomains ds k = k s := by
  unfold State.withDomains
  rw [h]

/-! ## The checks of R271 -/

/-- The words in which an image that passes is answered. -/
def State.imageWords (s : State) (g : GImage) (nra least : Nat) : List Word :=
  loadWords g nra least (indices 8 s.healthy) (min (s.rd F.DSP_SPARE_RESERVE) ((indices 8 s.healthy).length - g.count))

/-- What an image has to meet in any case. -/
structure ImageSound (s : State) (ofs len : Nat) (g : GImage) : Prop where
  on     : s.spanOn ofs len = true
  clean  : s.poisonIn ofs len = []
  whole  : len % 4 = 0
  parsed : parseGraph ofs len (s.words (0x800000 + ofs) (len / 4)) = g
  signed : s.modelSigned (s.words (0x800000 + ofs) (len / 4)) = true
  roll   : s.graphRoll ≤ (g.word 3).toNat
  ok     : g.ok = true
  fgc    : s.fgcOk g = true
  room   : g.count + s.rd F.DSP_SPARE_RESERVE ≤ (indices 8 s.healthy).length

theorem checkGraph_passes {s : State} {ofs len nra : Nat} {g : GImage} {run : Option GImage} {k : GImage → Nat → List Word → Res}
    (sound : ImageSound s ofs len g) (rate : nra = 0 ∨ nraOk g.fgc nra = true)
    (same : ∀ o, run = some o → g.rate = o.rate ∧ g.bc = o.bc ∧ g.nra = s.graph.nra ∧ g.leapMap = o.leapMap)
    (rings : s.ringsClaimed g run = false) (leaps : s.leapsClaimed g run = false)
    (margin : g.minimum (s.rd F.DSP_SPARE_RESERVE ≠ 0) (if run.isSome then g.stages else 1) ≤ if nra = 0 then g.nra else nra) :
    s.checkGraph ofs len nra run k = k g (if nra = 0 then g.nra else nra) (s.imageWords g (if nra = 0 then g.nra else nra)
      (g.minimum (s.rd F.DSP_SPARE_RESERVE ≠ 0) (if run.isSome then g.stages else 1))) := by
  obtain ⟨on, clean, whole, parsed, signed, roll, ok, fgc, room⟩ := sound
  unfold State.checkGraph
  dsimp only
  rw [parsed, if_neg (fun n => n on), if_neg (by rw [clean]; decide), if_neg (by rintro (e | e); exacts [e whole, e signed]),
    if_neg (by omega), if_neg (fun n => n ok), if_neg (fun n => n fgc),
    if_neg (by rintro ⟨some', bad⟩; exact rate.elim (fun e => some' e) fun e => bad e)]
  have others : ¬ ((indices 8 s.healthy).length < g.count + s.rd F.DSP_SPARE_RESERVE ∨ s.ringsClaimed g run = true ∨
      s.leapsClaimed g run = true) := by
    rw [rings, leaps]
    rintro (e | e | e)
    · omega
    · exact absurd e (by decide)
    · exact absurd e (by decide)
  cases run with
  | none =>
    dsimp only
    rw [if_neg (by decide), if_neg others, if_neg (Nat.not_lt.2 margin)]
    rfl
  | some o =>
    obtain ⟨rate', bc, nra', map⟩ := same o rfl
    dsimp only
    rw [if_neg (by rw [rate', bc, nra', map]; simp), if_neg others, if_neg (Nat.not_lt.2 margin)]
    rfl

/-! ## Placing -/

/-- The roles as an image is placed: every healthy engine free first, then the lowest-numbered ones at work. -/
def State.rolesPlaced (s : State) (g : GImage) : State :=
  (List.range g.count).foldl (fun s' l => s'.setRole ((indices 8 s.healthy).getD l 0xF) roRun l)
    ((List.range 8).foldl (fun s' n => if s'.healthy n then s'.setRole n roFree 0xF else s') s)

/-- What changes no part changes at most the parts that `m` names. -/
theorem Local.wider {m : Parts} {R : Nat → Prop} {s t : State} (h : Local {} R s t) : Local m R s t :=
  ⟨h.regs, h.mem, h.pap, h.poison, (congrArg (s.but m) h.rest).trans (s.but_self m)⟩

/-- A healthy engine by its place in their order. -/
theorem healthy_getD (s : State) {l : Nat} (h : l < (indices 8 s.healthy).length) : (indices 8 s.healthy).getD l 0xF < 8 := by
  rw [List.getD_eq_getElem _ _ h]
  exact mem_indices (List.getElem_mem h)

theorem rolesPlaced_local (s : State) (g : GImage) (room : g.count ≤ (indices 8 s.healthy).length) : Local {} roleReg s (s.rolesPlaced g) := by
  unfold State.rolesPlaced
  refine Local.foldl_mem (fun x l mem k => k.setRole (roleReg_stat (healthy_getD s ?_))) (Local.foldl_mem (fun x n mem k => ?_) (.refl s))
  · exact Nat.lt_of_lt_of_le (List.mem_range.1 mem) room
  · exact .ite (k.setRole (roleReg_stat (List.mem_range.1 mem))) k

/-- The logical engines of an image, each on its healthy engine. -/
def State.freshLes (s : State) (g : GImage) : List LEngine :=
  (List.range g.count).map fun l => freshLe ((indices 8 s.healthy).getD l 0xF)

/-- The registers that the placing of an image moves. -/
def placeReg (a : Nat) : Prop := roleReg a ∨ a = Reg.DSP_SPARE

theorem roleReg_state : ¬ roleReg Reg.PWR_STATE := by
  rintro (h | ⟨n, lt, h⟩)
  · exact absurd h (by decide)
  · have := lt
    unfold Reg.PWR_STATE Reg.DSP_NE_STAT at h
    omega

theorem placeReg_state : ¬ placeReg Reg.PWR_STATE := by
  rintro (h | h)
  · exact roleReg_state h
  · exact absurd h (by decide)

/-- An image is placed: roles and spares move, and the logical engines are fresh. -/
theorem place_shows (s : State) (g : GImage) (room : g.count ≤ (indices 8 s.healthy).length) :
    Local { graph := true } placeReg s (s.place g) ∧ (s.place g).graph = { s.graph with les := s.freshLes g } := by
  have roles := rolesPlaced_local s g room
  obtain ⟨v, map, moved, chosen⟩ := respare_local ((s.rolesPlaced g).modGraph fun (q : Graph) => { q with les := s.freshLes g })
  have placed : s.place g = v.wr F.DSP_SPARE_SPMAP map := chosen
  have graph : v.graph = { s.graph with les := s.freshLes g } := by
    rw [moved.part State.graph, modGraph_graph, roles.part State.graph]
  have set : Local { graph := true } placeReg s ((s.rolesPlaced g).modGraph fun (q : Graph) => { q with les := s.freshLes g }) :=
    (roles.wider.mono fun _ => .inl).upd rfl
  rw [placed]
  exact ⟨(set.trans (moved.wider.mono fun _ => .inl)).wr (.inr rfl), (State.wr_graph _ _ _).trans graph⟩

/-! ## GRAPH_LOAD -/

/-- The graph as GRAPH_LOAD leaves it. -/
def Graph.toLoad (q : Graph) (g : GImage) (nra : Nat) : Graph :=
  { q with loading := some g, nra := nra, nraMin := g.nraMin, shed := [], adopted := [], plans := [], params := [], pseq := 0, inForce := [],
           base := 0, flow := false, unload := false, rearm := false, molting := false, tick := none }

section
variable {p : Packet} {s : State} {g : GImage}

theorem admitted_sound {ofs len : Nat} (c : CmdSpec) (sound : ImageSound s ofs len g)
    (away : ∀ a, papolByte s a → ¬ (0x800000 + ofs ≤ a ∧ a < 0x800000 + ofs + len)) : ImageSound (s.admitted c p) ofs len g := by
  obtain ⟨on, clean, whole, parsed, signed, roll, ok, fgc, room⟩ := sound
  have words : (s.admitted c p).words (0x800000 + ofs) (len / 4) = s.words (0x800000 + ofs) (len / 4) :=
    admitted_words s c p fun b own ⟨lo, hi⟩ => away b own ⟨lo, by omega⟩
  exact ⟨by rw [admitted_spanOn, on], admitted_poisonIn s c p clean, whole, by rw [words, parsed], by rw [words, admitted_modelSigned, signed],
    by rw [admitted_graphRoll]; exact roll, ok, by rw [admitted_fgcOk, fgc],
    by rw [admitted_healthies, rd_card]; exact room⟩

theorem engines_up (c : CmdSpec) (up : ∀ n ∈ (indices 8 s.healthy).take g.count, DomUp s (dmEngine n)) :
    (s.admitted c p).needAll (((indices 8 (s.admitted c p).healthy).take g.count).map dmEngine) = some (s.admitted c p) := by
  rw [admitted_healthies]
  refine admitted_needAll s c p fun d mem => ?_
  obtain ⟨n, own, rfl⟩ := List.mem_map.1 mem
  exact ⟨Nat.le_add_right _ _, up n own⟩

theorem admitted_imageWords (c : CmdSpec) (nra least : Nat) : (s.admitted c p).imageWords g nra least = s.imageWords g nra least := by
  unfold State.imageWords
  rw [admitted_healthies, rd_card]

end

section
variable {p : Packet} {s : State} {g : GImage}

/-- GRAPH_LOAD of a sound image: its logical engines are placed, and its load is under way. -/
theorem graphLoad_awaits (acc : Accepted cardGraphLoad p s)
    (sound : ImageSound s (pf p.payload 0 2 19 * 4) (pf p.payload 1 0 21) g) (free : Free s [.graph])
    (up : ∀ n ∈ (indices 8 s.healthy).take g.count, DomUp s (dmEngine n))
    (away : ∀ a, papolByte s a → ¬ (0x800000 + pf p.payload 0 2 19 * 4 ≤ a ∧ a < 0x800000 + pf p.payload 0 2 19 * 4 + pf p.payload 1 0 21))
    (image : s.graph.image = none) (rate : pf p.payload 2 0 16 = 0 ∨ nraOk g.fgc (pf p.payload 2 0 16) = true)
    (rings : s.ringsClaimed g none = false) (leaps : s.leapsClaimed g none = false)
    (margin : g.minimum (s.rd F.DSP_SPARE_RESERVE ≠ 0) 1 ≤ if pf p.payload 2 0 16 = 0 then g.nra else pf p.payload 2 0 16) :
    Awaits (.graphLoad p) cardGraphLoad p s (s.imageWords g (if pf p.payload 2 0 16 = 0 then g.nra else pf p.payload 2 0 16)
      (g.minimum (s.rd F.DSP_SPARE_RESERVE ≠ 0) 1)) [.graph] fun t =>
      t.graph.loading = some g ∧ t.graph.nra = (if pf p.payload 2 0 16 = 0 then g.nra else pf p.payload 2 0 16) ∧
      t.graph.les = s.freshLes g ∧ SameBytesBut (papolByte s) s t ∧ t.engMem = s.engMem ∧ t.leap = s.leap := by
  let a := s.admitted cardGraphLoad p
  generalize rateEq : (if pf p.payload 2 0 16 = 0 then g.nra else pf p.payload 2 0 16) = nra at margin ⊢
  let u := a.modGraph fun q => q.toLoad g nra
  have healthies : indices 8 u.healthy = indices 8 s.healthy := admitted_healthies s _ p
  obtain ⟨placed, graph⟩ := place_shows u g (by rw [healthies]; exact Nat.le_of_add_right_le sound.room)
  have same : (u.place g).pap = a.pap := placed.pap
  refine awaits_of_pend (s1 := u.place g) rfl acc ?_ (by unfold State.freeSlot?; rw [same]; exact (admitted_free free).2) fun t but => ?_
  · refine (unlessBusy_free (admitted_free free)).trans ((if_neg (by rw [admitted_graph, image]; decide)).trans ?_)
    refine (checkGraph_passes (admitted_sound _ sound away) rate (fun _ e => absurd e (by simp)) ((admitted_ringsClaimed s _ p g _).trans rings)
      ((admitted_leapsClaimed s _ p g _).trans leaps) ?_).trans ?_
    · rw [rateEq, rd_card]; exact margin
    · rw [rateEq, admitted_imageWords, rd_card]
      exact withDomains_all (engines_up _ up)
  · have whole : Frame { graph := true } placeReg s (u.place g) :=
      placed.within ((Frame.admitted placeReg_state s _ p).modGraph _)
    have now : t.graph = { s.graph.toLoad g nra with les := s.freshLes g } := by
      refine (congrArg State.graph but.rest :).trans (graph.trans ?_)
      show { (s.admitted cardGraphLoad p).graph.toLoad g nra with les := u.freshLes g } = _
      rw [admitted_graph]
      unfold State.freshLes
      rw [healthies]
    have last := whole.papol but
    exact ⟨by rw [now]; rfl, by rw [now]; rfl, by rw [now], last.bytes, last.engMem, last.leap⟩

end

/-! ## GRAPH_MOLT -/

section
variable {p : Packet} {s : State} {g old : GImage}

/-- GRAPH_MOLT of a sound image on a running graph of the same shape stages it. -/
theorem graphMolt_awaits (acc : Accepted cardGraphMolt p s)
    (sound : ImageSound s (pf p.payload 0 2 19 * 4) (pf p.payload 1 0 21) g) (free : Free s [.graph])
    (up : ∀ n ∈ (indices 8 s.healthy).take g.count, DomUp s (dmEngine n))
    (away : ∀ a, papolByte s a → ¬ (0x800000 + pf p.payload 0 2 19 * 4 ≤ a ∧ a < 0x800000 + pf p.payload 0 2 19 * 4 + pf p.payload 1 0 21))
    (image : s.graph.image = some old) (running : s.gstate = gsRunning) (recs : s.graph.recs = [])
    (ahead : ∀ e ∈ s.graph.les, e.behind = false) (none : pf p.payload 2 0 16 = 0) (rate : g.rate = old.rate) (bc : g.bc = old.bc)
    (nra : g.nra = s.graph.nra) (map : g.leapMap = old.leapMap) (rings : s.ringsClaimed g (some old) = false)
    (margin : g.minimum (s.rd F.DSP_SPARE_RESERVE ≠ 0) g.stages ≤ g.nra) :
    Awaits (.graphMolt p) cardGraphMolt p s (s.imageWords g g.nra (g.minimum (s.rd F.DSP_SPARE_RESERVE ≠ 0) g.stages)) [.graph] fun t =>
      t.gstate = gsStaged ∧ t.graph.molt = some g ∧ t.graph.image = some old ∧ Touches [Reg.DSP_GRAPH_STAT] s t ∧
        { s.over t with graph := s.graph } = s := by
  let a := s.admitted cardGraphMolt p
  let s1 := a.graphTo (fun q => { q with molt := some g, nraMin := g.nraMin }) gsStaged
  have slot : s1.freeSlot? ≠ Option.none := by
    unfold State.freeSlot?
    rw [graphTo_pap]
    exact (admitted_free free).2
  refine awaits_of_pend (s1 := s1) rfl acc ?_ slot fun t but => ?_
  · have leaps : a.leapsClaimed g (some old) = false := rfl
    have calm : ¬ (¬ s.graph.recs.isEmpty = true ∨ (s.graph.les.any fun e => e.behind) = true) := by
      rw [recs]
      rintro (e | e)
      · exact e rfl
      · obtain ⟨x, mem, behind⟩ := List.any_eq_true.1 e
        exact absurd ((ahead x mem).symm.trans behind) (by decide)
    refine (unlessBusy_free (admitted_free free)).trans ?_
    rw [admitted_graph, image, admitted_gstate, running]
    refine (if_neg fun k => k rfl).trans ((if_neg calm).trans ((if_neg fun k => k none).trans ?_))
    refine (checkGraph_passes (admitted_sound _ sound away) (.inl rfl) (fun o e => ?_) ((admitted_ringsClaimed s _ p g _).trans rings)
      leaps ?_).trans ?_
    · cases e
      exact ⟨rate, bc, by rw [admitted_graph]; exact nra, map⟩
    · rw [rd_card]; exact margin
    · rw [admitted_imageWords, rd_card]
      exact withDomains_all (engines_up _ up)
  · obtain ⟨state, graph, keeps⟩ := graphTo_holds _ (by decide) but
    exact ⟨state, by rw [graph], by rw [graph]; exact image, keeps⟩

end

/-! ## What a load leaves of memory and of Papol's commands -/

/-- Rings, memory outside Papol's rings, replies and pending commands stay. -/
structure Calm (s t : State) : Prop where
  rings : t.rings = s.rings
  bytes : SameBytesBut (papolByte s) s t
  kept  : PapolKept s t

namespace Calm

variable {s t u : State}

theorem refl (s : State) : Calm s s := ⟨rfl, fun _ _ => rfl, .refl s⟩

theorem trans (h : Calm s t) (k : Calm t u) : Calm s u :=
  ⟨k.rings.trans h.rings, fun a n => (k.bytes a (by rwa [papolByte_congr h.rings])).trans (h.bytes a n), h.kept.trans k.kept⟩

theorem upd (h : Calm s t) (rings : u.rings = t.rings := by rfl) (mem : u.mem = t.mem := by rfl) (pap : u.pap = t.pap := by rfl) :
    Calm s u :=
  h.trans ⟨rings, fun a _ => State.byte_congr mem a, .of_pap pap⟩

theorem setReg (h : Calm s t) {a : Nat} {w : Word} : Calm s (t.setReg a w) := h.upd

theorem wr (h : Calm s t) {f : Field} {v : Nat} : Calm s (t.wr f v) := h.setReg

theorem set1 (h : Calm s t) {f : Field} : Calm s (t.set1 f) := h.wr

theorem sat (h : Calm s t) {f : Field} {n : Nat} : Calm s (t.sat f n) := h.wr

theorem ite {c : Prop} [Decidable c] (h : Calm s t) (k : Calm s u) : Calm s (if c then t else u) := by
  split
  · exact h
  · exact k

theorem foldl {α : Type} {f : State → α → State} (hf : ∀ (x : State) (a : α), Calm s x → Calm s (f x a)) :
    ∀ {l : List α} {t : State}, Calm s t → Calm s (l.foldl f t)
  | [], _, h => h
  | a :: l, t, h => foldl (l := l) hf (hf t a h)

theorem forEach {f : Nat → State → State} (hf : ∀ i x, Calm s x → Calm s (f i x)) : ∀ {n : Nat} {t : State}, Calm s t →
    Calm s (Machine.forEach f n t)
  | 0, _, h => h
  | n + 1, _, h => hf n _ (forEach hf h)

theorem raiseR (h : Calm s t) {code : Nat} {ws : List Word} {r : Bool} : Calm s (t.raiseR code ws r) := by
  obtain ⟨but, kept⟩ := raiseR_papol t code ws r
  exact h.trans ⟨(Frame.of_papol but).rings, but.bytes, kept⟩

theorem showFn (h : Calm s t) : Calm s t.showFn := ((h.wr).wr).wr

theorem recRoom (h : Calm s t) : Calm s t.recRoom := by
  unfold State.recRoom
  exact .ite h (.ite h.upd (.set1 h.upd))

theorem fault (h : Calm s t) (f : FaultInfo) : Calm s (t.fault f) := by
  unfold State.fault
  split
  · exact Calm.showFn h.upd
  · have drawn : Calm s t.drawn := h.upd
    have recorded : ∀ {u : State} {x : Saf}, Calm s u → Calm s { u with saf := x } := fun k => k.upd
    exact .raiseR (.showFn (.wr (recorded drawn.recRoom)))

theorem level (h : Calm s t) (region lvl : Nat) : Calm s (t.level region lvl) := by
  unfold State.level
  exact .ite h h.wr

theorem takesUp (h : Calm s t) (w : Work) : Calm s (t.takesUp w) := by
  unfold State.takesUp
  exact .ite h (Calm.level h.upd _ _)

theorem ends (h : Calm s t) (region code sub unit : Nat) : Calm s (t.ends region code sub unit) := Calm.level h.upd _ _

theorem escalated (h : Calm s t) (region : Nat) : Calm s (t.escalated region) := by
  unfold State.escalated
  exact .ite h h.sat.set1

theorem retpend (h : Calm s t) (b cause row col bit : Nat) : Calm s (t.retpend b cause row col bit) := by
  have pending : Calm s (((t.set1 (F.DSP_SB_STAT_RETPEND b)).raiseBankRepair 5 b 0xF cause row col bit).ends rgDsp 0x205 row b) := by
    exact (h.set1.raiseR).ends _ _ _ _
  unfold State.retpend
  dsimp only
  split
  · exact (pending.fault _).escalated _
  · exact pending

theorem replaceRow (h : Calm s t) (r : RowRepl) : Calm s (t.replaceRow r) := by
  unfold State.replaceRow
  split
  · exact h
  · split
    · exact h.upd
    · exact h.retpend _ _ _ _ _

theorem dealUnc (h : Calm s t) (b row col : Nat) : Calm s (t.dealUnc b row col) := by
  unfold State.dealUnc
  dsimp only
  split
  · exact h
  · have dealt : Calm s { t with banks := { t.banks with dealt := t.banks.dealt ++ [bankAddr b row col] } } := h.upd
    exact (dealt.takesUp _).replaceRow _

theorem deliverPoison (h : Calm s t) (a : Nat) : Calm s (t.deliverPoison a) := by
  obtain ⟨active, eq⟩ := bankUnc_eq t (bankOf a) (rowOf a) (colOf a)
  have poisoned : ∀ x, Calm s (t.poisoned x) := fun x => by
    unfold State.poisoned
    exact .ite h h.upd
  unfold State.deliverPoison
  rw [eq]
  have counted : ∀ b x w, Calm s ((t.poisoned x).errCounted b (F.DSP_SB_ECC_UNCCNT b) 1 w) := fun b x w => (poisoned x).sat.set1.setReg
  exact Calm.set1 (((counted _ _ _).fault _).dealUnc _ _ _)

theorem loadSpan (h : Calm s t) (g : GImage) (n : Nat) : ∀ (k ofs a : Nat), Calm s (t.loadSpan g ofs n a k) := fun k => by
  induction k generalizing t with
  | zero => exact fun _ _ => h
  | succ k ih =>
    intro ofs a
    unfold State.loadSpan
    exact ih (.ite (h.deliverPoison _) h.upd) _ _

end Calm

/-! ## The registers that describe a graph -/

/-- The registers that describe the loaded graph and its leap channels. -/
def graphShown (a : Nat) : Prop := a = Reg.DSP_GRAPH_STAT ∨ a = Reg.DSP_GRAPH_ID ∨ 0x103000 ≤ a

section
variable {s : State} (g : GImage) (nra : Nat)

theorem foldl_leaps_local {m : Parts} (l : List GLeap) (s : State) : Local m (0x103000 ≤ ·) s
    (l.foldl (fun s q => (s.set1 (F.DSP_LEAP_STAT_BOUND q.chan)).wr (F.DSP_LEAP_STAT_WLENG q.chan) q.leng) s) :=
  Local.foldl (fun _ q k => (k.set1 (f := F.DSP_LEAP_STAT_BOUND q.chan) (Nat.le_add_right _ _)).wr
    (f := F.DSP_LEAP_STAT_WLENG q.chan) (Nat.le_add_right _ _)) (.refl s)

/-- The fields of GRAPH_STAT as shown: GSTATE is none of them. -/
def State.graphFields (s : State) (g : GImage) (nra : Nat) : State :=
  ((((s.wr F.DSP_GRAPH_STAT_FGC g.fgc).wr F.DSP_GRAPH_STAT_BC g.bc).wr F.DSP_GRAPH_STAT_S g.stages).wr F.DSP_GRAPH_STAT_E g.count).wr
    F.DSP_GRAPH_STAT_NRA nra

theorem graphFields_gstate : (s.graphFields g nra).gstate = s.gstate := by
  unfold State.graphFields State.gstate
  rw [State.rd_wr_off _ _, State.rd_wr_off _ _, State.rd_wr_off _ _, State.rd_wr_off _ _, State.rd_wr_off _ _]

theorem showGraph_local : Local {} graphShown s (s.showGraph g nra) := by
  have stat : graphShown Reg.DSP_GRAPH_STAT := .inl rfl
  have fields : Local {} graphShown s (s.graphFields g nra) :=
    (((((Local.refl s).wr (f := F.DSP_GRAPH_STAT_FGC) stat).wr (f := F.DSP_GRAPH_STAT_BC) stat).wr (f := F.DSP_GRAPH_STAT_S) stat).wr
      (f := F.DSP_GRAPH_STAT_E) stat).wr (f := F.DSP_GRAPH_STAT_NRA) stat
  exact (fields.setReg (.inr (.inl rfl))).trans ((foldl_leaps_local g.leaps _).mono fun _ high => .inr (.inr high))

theorem showGraph_gstate : (s.showGraph g nra).gstate = s.gstate := by
  refine Eq.trans ?_ (graphFields_gstate g nra)
  exact ((foldl_leaps_local (m := {}) g.leaps _).rd (by decide)).trans (rd_same (State.reg_setReg_ne _ _ (by decide)))

theorem showGraph_id : (s.showGraph g nra).reg Reg.DSP_GRAPH_ID = g.word 2 :=
  ((foldl_leaps_local (m := {}) g.leaps _).regs _ (by decide)).trans (State.reg_setReg_same _ _ _)

end

/-! ## GRAPH_LOAD_DONE -/

theorem setRings_still (rs : List GRing) : ∀ s : State, (s.setRings rs).pap = s.pap ∧ (s.setRings rs).mem = s.mem :=
  fun s => ⟨foldl_same State.pap (fun x q => by dsimp only; rw [State.wr_pap, State.wr_pap, State.setReg_pap, State.setReg_pap]) rs s,
    foldl_same State.mem (fun x q => by dsimp only; rw [State.wr_mem, State.wr_mem, State.setReg_mem, State.setReg_mem]) rs s⟩

theorem geo_vmod_ne (s : State) {n k : Nat} (f : RingGeo → RingGeo) (other : n ≠ k) : State.geo { s with rings := vmod s.rings k f } n = s.geo n := by
  unfold State.geo vmod
  rw [Vector.toList_setIfInBounds, List.getD_eq_getElem?_getD, List.getElem?_set_ne other.symm, ← List.getD_eq_getElem?_getD]

/-- The internal rings of an image are none of the host's. -/
theorem setRings_host {n : Nat} (host : n < 16) : ∀ (rs : List GRing), (∀ q ∈ rs, 16 ≤ q.ring) → ∀ s : State,
    (s.setRings rs).geo n = s.geo n
  | [], _, _ => rfl
  | q :: rs, high, s =>
    have other : n ≠ q.ring := Nat.ne_of_lt (Nat.lt_of_lt_of_le host (high q List.mem_cons_self))
    (setRings_host host rs (fun r mem => high r (List.mem_cons_of_mem q mem)) _).trans
      (geo_vmod_ne s (fun _ => ⟨q.base * 256, q.log2⟩) other)

theorem papolByte_host {s t : State} (same : ∀ n, n < 4 → t.geo n = s.geo n) {a : Nat} (h : papolByte t a) : papolByte s a := by
  obtain ⟨n, i, lt, range⟩ := h
  have addr : t.ringAddr n i = s.ringAddr n i := by
    unfold State.ringAddr State.ringLen
    rw [same n lt]
  rw [addr] at range
  exact ⟨n, i, lt, range⟩

/-- The engines loaded. -/
def State.graphData (s : State) (g : GImage) : State :=
  forEach (fun l s => (s.loadImem g l (s.dmemOf l)).loadData g l (s.dmemOf l)) g.count (s.setRings g.rings)

/-- The image in force. -/
def State.graphLoaded (s : State) (g : GImage) : State :=
  (s.graphData g).graphTo (fun q => { q with image := some g, loading := none }) gsLoaded

theorem graphLoadDone_eq {s : State} {g : GImage} (loading : s.graph.loading = some g) :
    exec .graphLoadDone s = .next (((s.graphLoaded g).showGraph g (s.graphLoaded g).graph.nra).finishFor .graph 0x200 stsOk []) := by
  show execGraphLoadDone s = _
  unfold execGraphLoadDone
  rw [loading]
  rfl

/-- What a load leaves of memory, of the host's rings and of Papol's commands. -/
theorem graphLoaded_still {s u : State} {g : GImage} (internal : ∀ q ∈ g.rings, 16 ≤ q.ring)
    (mem : u.mem = (s.graphLoaded g).mem) (pap : u.pap = (s.graphLoaded g).pap) (geo : u.rings = (s.graphLoaded g).rings) :
    SameBytesBut (papolByte s) s u ∧ (∀ n, n < 4 → u.geo n = s.geo n) ∧ PapolKept s u := by
  obtain ⟨pap0, mem0⟩ := setRings_still g.rings s
  have data : Calm (s.setRings g.rings) (s.graphData g) :=
    Calm.forEach (fun l x k => (k.loadSpan g _ _ _ _).loadSpan g _ _ _ _) (.refl _)
  have host : ∀ n, n < 4 → (s.setRings g.rings).geo n = s.geo n := fun n lt =>
    setRings_host (Nat.lt_of_lt_of_le lt (by decide)) _ internal _
  have mem1 : u.mem = (s.graphData g).mem := mem.trans (State.wr_mem _ _ _)
  have geo1 : u.rings = (s.setRings g.rings).rings := (geo.trans (State.wr_rings _ _ _)).trans data.rings
  refine ⟨fun a away => ?_, fun n lt => ?_, (PapolKept.of_pap pap0).trans (data.kept.trans (.of_pap (pap.trans (graphTo_pap _ _ _))))⟩
  · refine (State.byte_congr mem1 a).trans ((data.bytes a fun own => away ?_).trans (State.byte_congr mem0 a))
    exact papolByte_host host own
  · refine Eq.trans (b := (s.setRings g.rings).geo n) ?_ (host n lt)
    unfold State.geo
    rw [geo1]

theorem graphLoadDone_shows {s : State} {g : GImage} (loading : s.graph.loading = some g) (internal : ∀ q ∈ g.rings, 16 ≤ q.ring) :
    ∃ t, exec .graphLoadDone s = .next t ∧
      t.graph.image = some g ∧ t.graph.loading = none ∧ t.gstate = gsLoaded ∧ t.reg Reg.DSP_GRAPH_ID = g.word 2 ∧
      SameBytesBut (papolByte s) s t ∧ Ended (s.workFor? .graph 0x200) stsOk s t := by
  refine ⟨_, graphLoadDone_eq loading, ?_⟩
  have shown : Local {} graphShown (s.graphLoaded g) ((s.graphLoaded g).showGraph g (s.graphLoaded g).graph.nra) := showGraph_local g _
  have state := showGraph_gstate (s := s.graphLoaded g) g (s.graphLoaded g).graph.nra
  have id' := showGraph_id (s := s.graphLoaded g) g (s.graphLoaded g).graph.nra
  generalize (s.graphLoaded g).showGraph g (s.graphLoaded g).graph.nra = u at *
  obtain ⟨bytes, rings, kept⟩ := graphLoaded_still internal shown.mem shown.pap (shown.part State.rings)
  have graph : u.graph = { (s.graphData g).graph with image := some g, loading := none } :=
    (shown.part State.graph).trans (graphTo_graph _ _ _)
  have last := Frame.finishFor (Frame.refl (m := {}) (R := fun _ => False) id u) (tg := .graph) (op := 0x200) (st := stsOk) (ws := [])
  refine ⟨by rw [last.graph, graph], by rw [last.graph, graph], ?_, (last.reg_steady id).trans id', fun a away => ?_,
    finishFor_ended kept _ _ _ _⟩
  · exact ((last.rd_steady id).trans state).trans (graphTo_gstate _ _ (by decide))
  · exact (last.bytes a fun own => away (papolByte_host rings own)).trans (bytes a away)

/-! ## The swap of a molt -/

theorem setRole_graph (s : State) (n r l : Nat) : (s.setRole n r l).graph = s.graph :=
  ((Local.refl (m := {}) (R := fun _ => True) s).setRole trivial).part State.graph

theorem respare_graph (s : State) : s.respare.graph = s.graph := by
  obtain ⟨t, v, moved, eq⟩ := respare_local s
  rw [eq, State.wr_graph, moved.part State.graph]

theorem rolesPlaced_graph (s : State) (g : GImage) : (s.rolesPlaced g).graph = s.graph := by
  unfold State.rolesPlaced
  rw [foldl_same State.graph fun x l => setRole_graph x _ _ _, foldl_same State.graph fun x n => ?_]
  split
  · exact setRole_graph x _ _ _
  · rfl

theorem place_graph (s : State) (g : GImage) : (s.place g).graph = { s.graph with les := s.freshLes g } := by
  refine (respare_graph ((s.rolesPlaced g).modGraph fun (q : Graph) => { q with les := s.freshLes g })).trans ?_
  rw [modGraph_graph, rolesPlaced_graph]

theorem setRings_graph (s : State) (rs : List GRing) : (s.setRings rs).graph = s.graph :=
  foldl_same State.graph (fun x q => by dsimp only; rw [State.wr_graph, State.wr_graph, State.setReg_graph, State.setReg_graph]) rs s

theorem dropRings_graph (s : State) (rs : List GRing) : (s.dropRings rs).graph = s.graph :=
  foldl_same State.graph (fun x q => by dsimp only; rw [State.wr_graph, State.wr_graph, State.setReg_graph, State.setReg_graph]) rs s

theorem retract_graph (s : State) (c : Nat) : (s.retract c).graph = s.graph := by
  unfold State.retract
  dsimp only
  rw [State.sat_graph, State.set1_graph]
  rfl

/-- N_RA and the period under way. -/
def Graph.period (q : Graph) : Nat × Option Nat := (q.nra, q.tick)

theorem modGraph_period (s : State) (f : Graph → Graph) (h : (f s.graph).period = s.graph.period) : (s.modGraph f).graph.period = s.graph.period := h

theorem GraphRuns.period {q r : Graph} (h : GraphRuns q r) : r.period = q.period := by
  unfold Graph.period
  rw [h.nra, h.tick]

/-- The old graph at the swap: its recoveries end, and what it has written is committed. -/
def State.swapCommitted (s : State) (old : GImage) (p : Nat) : State :=
  ((s.graph.recs.foldl (fun s r => s.ends rgDsp r.code 0 r.failed) (s.setTick p)).modGraph fun (q : Graph) => { q with recs := [] }).commitAll old

theorem swapCommitted_period (s : State) (old : GImage) (p : Nat) : (s.swapCommitted old p).graph.period = (s.graph.nra, some p) := by
  refine ((Runs.refl _).commitAll old).graph.period.trans ?_
  refine (modGraph_period _ (fun (q : Graph) => { q with recs := [] }) rfl).trans ?_
  exact congrArg Graph.period (foldl_same State.graph (fun x r => ends_graph x _ _ _ _) _ _)

/-- The new graph placed. -/
def State.swapPlaced (s : State) (old g : GImage) (p : Nat) : State :=
  (((old.leaps.foldl (fun s q => s.retract q.chan) (s.swapCommitted old p)).dropRings
    (old.rings.filter fun q => !(keptRings old g).contains q)).setRings (g.rings.filter fun q => !(keptRings old g).contains q)).place g

theorem swapPlaced_period (s : State) (old g : GImage) (p : Nat) : (s.swapPlaced old g p).graph.period = (s.graph.nra, some p) := by
  unfold State.swapPlaced
  rw [place_graph, setRings_graph, dropRings_graph, foldl_same State.graph fun x q => retract_graph x _]
  exact swapCommitted_period s old p

/-- What a swap takes over up to where the new graph is shown. -/
structure Swapped (s u : State) (g : GImage) (p : Nat) : Prop where
  image  : u.graph.image = some g
  molt   : u.graph.molt = none
  period : u.graph.period = (s.graph.nra, some p)

theorem swap_eq (s : State) (old g : GImage) (p : Nat) : ∃ u, Swapped s u g p ∧ s.swap old g p = (u.showGraph g u.graph.nra).setGstate gsRunning := by
  have period := swapPlaced_period s old g p
  refine ⟨_, ?_, rfl⟩
  have roles : ∀ {l : List Nat} {x : State}, (l.foldl (fun s n => s.setRole (s.le n).host roRestore n) x).graph = x.graph := fun {l x} =>
    foldl_same State.graph (fun x n => setRole_graph x _ _ _) l x
  have leaps : ∀ {l : List GLeap} {f : GLeap → LeapCh → LeapCh} {x : State}, (l.foldl (fun s q => s.modLeap q.chan (f q)) x).graph = x.graph :=
    fun {l f x} => foldl_same State.graph (f := fun s q => s.modLeap q.chan (f q)) (fun x q => rfl) l x
  have rings : ∀ {l : List GRing} {i : State → GRing → Nat} {x : State}, (l.foldl (fun s q =>
      (s.wr (F.DSP_RING_HIDX_HIDX q.ring) (i s q)).wr (F.DSP_RING_DIDX_DIDX q.ring) (i s q)) x).graph = x.graph := fun {l i x} =>
    foldl_same State.graph (fun x q => by rw [State.wr_graph, State.wr_graph]) l x
  have whole := fun {x : State} {ls : List GLeap} {l : List Nat} {rs : List GRing} {f : GLeap → LeapCh → LeapCh} {i : State → GRing → Nat} =>
    (roles (l := l)).trans ((leaps (l := ls) (f := f)).trans (rings (l := rs) (i := i) (x := x)))
  exact ⟨congrArg Graph.image whole, congrArg Graph.molt whole, (congrArg Graph.period whole).trans period⟩

/-- The number of the tick after the period under way. -/
def Graph.nextTick (q : Graph) : Nat := q.tick.elim 0 (· + 1)

theorem blockTick_swaps {s : State} {old m : GImage} (image : s.graph.image = some old) (molt : s.graph.molt = some m)
    (staged : s.gstate = gsStaged) : s.blockTick = (s.tickStreams.swap old m s.graph.nextTick).startReady m := by
  unfold State.blockTick
  dsimp only
  rw [tickStreams_graph, image]
  dsimp only
  rw [graphRuns_gstate ((tickStreams_gstate s).trans staged), if_pos (by decide), tickStreams_gstate, staged, if_pos rfl, molt]
  dsimp only
  unfold Graph.nextTick
  cases s.graph.tick with
  | none => rfl
  | some k => rfl

theorem graphMoltSwap_shows {s : State} {old m : GImage} (image : s.graph.image = some old) (molt : s.graph.molt = some m)
    (staged : s.gstate = gsStaged) : ∃ t, exec .graphMoltSwap s = .next t ∧
      t.graph.image = some m ∧ t.graph.molt = none ∧ t.gstate = gsRunning ∧ t.reg Reg.DSP_GRAPH_ID = m.word 2 ∧
      t.graph.nra = s.graph.nra ∧ t.graph.tick = some s.graph.nextTick := by
  obtain ⟨u, ⟨image', molt', period⟩, swapped⟩ := swap_eq s.tickStreams old m s.graph.nextTick
  have graph : (s.tickStreams.swap old m s.graph.nextTick).graph = u.graph := by
    rw [swapped]
    exact (State.wr_graph _ _ _).trans ((showGraph_local m _).part State.graph)
  have state : (s.tickStreams.swap old m s.graph.nextTick).gstate = gsRunning := by
    rw [swapped]
    exact setGstate_gstate _ (by decide)
  have id' : (s.tickStreams.swap old m s.graph.nextTick).reg Reg.DSP_GRAPH_ID = m.word 2 := by
    rw [swapped]
    exact (State.reg_setReg_ne _ _ (by decide)).trans (showGraph_id m _)
  have ran := (Runs.refl (s.tickStreams.swap old m s.graph.nextTick)).startReady m
  refine ⟨_, (if_pos staged).trans (congrArg Host.Outcome.next (blockTick_swaps image molt staged)), ran.graph.image.trans ?_,
    ran.graph.molt.trans ?_, (rd_same (ran.regs _ ⟨by decide, by decide⟩)).trans state, (ran.regs _ ⟨by decide, by decide⟩).trans id',
    ran.graph.nra.trans ?_, ran.graph.tick.trans ?_⟩
  · rw [graph, image']
  · rw [graph, molt']
  · rw [graph]; exact congrArg Prod.fst period
  · rw [graph]; exact congrArg Prod.snd period

/-- Settles O24: an image that passes the checks is placed and its load is under way; GRAPH_LOAD_DONE puts it in force; a molt is staged, and
the next tick swaps it in. -/
theorem graphImagesAreLoadedAndMolted : Obligations.GraphImagesAreLoadedAndMolted := by
  intro p s ofs len nra img g hs res sound
  have whole : sound → ImageSound s ofs len g := fun ⟨on, clean, mul, signed, roll, ok, fgc, room, _⟩ =>
    ⟨on, clean, mul, rfl, signed, roll, ok, fgc, room⟩
  have free : sound → Free s [.graph] := fun ⟨_, _, _, _, _, _, _, _, k, _⟩ => k
  have up : sound → ∀ n ∈ hs.take g.count, DomUp s (dmEngine n) := fun ⟨_, _, _, _, _, _, _, _, _, k, _⟩ => k
  have away : sound → ∀ a, papolByte s a → ¬ (0x800000 + ofs ≤ a ∧ a < 0x800000 + ofs + len) := fun ⟨_, _, _, _, _, _, _, _, _, _, k⟩ => k
  refine ⟨fun acc snd image rate rings leaps margin => ?_, fun g' loading internal => ?_,
    fun old acc snd image running recs ahead none rate bc nra' map rings margin => ?_, fun old m image molt staged => ?_⟩
  · exact graphLoad_awaits acc (whole snd) (free snd) (up snd) (away snd) image rate rings leaps margin
  · exact graphLoadDone_shows loading fun q mem => (internal q mem).1
  · exact graphMolt_awaits acc (whole snd) (free snd) (up snd) (away snd) image running recs ahead none rate bc nra' map rings margin
  · obtain ⟨t, next, image', molt', state, id', nra', tick⟩ := graphMoltSwap_shows image molt staged
    refine ⟨t, next, image', molt', state, id', nra', tick.trans ?_⟩
    unfold Graph.nextTick
    cases s.graph.tick with
    | none => rfl
    | some k => rfl

end Sys2Proof.Machine
end

section
/-!
# Streams: their status and their converters (spec/05_streams_ports.md, R222, R252 to R259)
-/

namespace Sys2Proof.Machine

-- One theorem after the other: in one text, theorems that wait for the kernel would each hold a thread.
set_option Elab.async false

/-- The registers of a stream lie above those that Papol moves. -/
theorem steady_str (sid o : Nat) : steady (0x102000 + o + 0x20 * sid) = true := steady_above (by omega)

theorem admitted_strWord (s : State) (c : CmdSpec) (p : Packet) (sid k : Nat) :
    (s.admitted c p).reg (Reg.DSP_STR_CFG sid + 4 * k) = s.reg (Reg.DSP_STR_CFG sid + 4 * k) :=
  reg_card s c p (steady_above (show 0x100440 ≤ 0x102000 + 0x20 * sid + 4 * k by omega))

/-! ## STREAM_STATUS -/

theorem clearStr_stat (s : State) (sid : Nat) : (s.clearStr sid).reg (Reg.DSP_STR_STAT sid) = s.reg (Reg.DSP_STR_STAT sid) &&& 0xFFFFFF00 := by
  unfold State.clearStr
  rw [State.reg_setReg_ne _ _ (show Reg.DSP_STR_STAT sid ≠ Reg.DSP_STR_CNT sid by unfold Reg.DSP_STR_STAT Reg.DSP_STR_CNT; omega),
    State.reg_setReg_same]

theorem clearStr_cnt (s : State) (sid : Nat) : (s.clearStr sid).reg (Reg.DSP_STR_CNT sid) = 0 := State.reg_setReg_same _ _ _

theorem streamStatus_answers {p : Packet} {s : State} {sid : Nat} (acc : Accepted cardStreamStatus p s) (named : pf p.payload 0 0 7 = sid)
    (some' : sid ≠ 0) (free : s.pendFor? [.stream sid] = none) :
    Answers (.streamStatus p) cardStreamStatus p s 0 0 ((List.range 8).map fun k => s.reg (Reg.DSP_STR_CFG sid + 4 * k)) fun t =>
      (pb p.payload 0 31 = false → PapolBut papolReg (papolByte s) s t) ∧
      (pb p.payload 0 31 = true → t.reg (Reg.DSP_STR_STAT sid) = s.reg (Reg.DSP_STR_STAT sid) &&& 0xFFFFFF00 ∧
        t.reg (Reg.DSP_STR_CNT sid) = 0 ∧ Touches [Reg.DSP_STR_STAT sid, Reg.DSP_STR_CNT sid] s t ∧ s.over t = s) := by
  let a := s.admitted cardStreamStatus p
  have words : a.strWords sid = (List.range 8).map fun k => s.reg (Reg.DSP_STR_CFG sid + 4 * k) :=
    List.map_congr_left fun k _ => admitted_strWord s _ p sid k
  have done : (if pf p.payload 0 0 7 = 0 then Res.bad 0 else a.unlessBusy [.stream (pf p.payload 0 0 7)]
      (.done stsOk 0 (a.strWords (pf p.payload 0 0 7)) [] (if pb p.payload 0 31 then a.clearStr (pf p.payload 0 0 7) else a))) =
      .done stsOk 0 ((List.range 8).map fun k => s.reg (Reg.DSP_STR_CFG sid + 4 * k)) [] (if pb p.payload 0 31 then a.clearStr sid else a) := by
    rw [named, if_neg some', unlessBusy_none (by rw [admitted_pendFor, free]), words]
  refine answers_of_done rfl acc done fun t but => ⟨fun keep => ?_, fun clear => ?_⟩
  · rw [if_neg (by rw [keep]; decide)] at but
    exact (Frame.papol (Frame.admitted id s _ p) but).papolBut
  · rw [if_pos clear] at but
    have away : ¬ Reg.PWR_STATE ∈ [Reg.DSP_STR_STAT sid, Reg.DSP_STR_CNT sid] := by
      simp only [Reg.PWR_STATE, Reg.DSP_STR_STAT, Reg.DSP_STR_CNT, List.mem_cons, List.not_mem_nil, or_false]
      omega
    have frame : Frame {} (· ∈ [Reg.DSP_STR_STAT sid, Reg.DSP_STR_CNT sid]) s (a.clearStr sid) :=
      ((Frame.admitted (m := {}) away s _ p).setReg (by simp)).setReg (by simp)
    have last := Frame.papol (Frame.refl (m := {}) (R := fun _ => False) id (a.clearStr sid)) but
    exact ⟨(last.reg_steady id (steady_str sid 8)).trans ((clearStr_stat a sid).trans (congrArg (· &&& 0xFFFFFF00) (reg_card s _ p (steady_str sid 8)))),
      (last.reg_steady id (steady_str sid 12)).trans (clearStr_cnt a sid), (frame.papol but).touches, (frame.papol but).rest⟩

/-! ## The context of an open stream -/

section
variable {s t : State} {x y : StreamX} {sid : Nat}

theorem strX_sid (h : s.strX? sid = some x) : x.sid = sid := by
  have := List.find?_some h
  simpa using this

theorem strX_congr (h : t.strs = s.strs) (sid : Nat) : t.strX? sid = s.strX? sid := by
  unfold State.strX?
  rw [h]

theorem find_map_sid : ∀ {l : List StreamX}, l.find? (fun z => z.sid = sid) = some x → y.sid = sid →
    (l.map fun z => if z.sid = y.sid then y else z).find? (fun z => z.sid = sid) = some y
  | z :: l, found, own => by
    by_cases here : z.sid = sid
    · rw [List.map_cons, if_pos (here.trans own.symm), List.find?_cons_of_pos (by simpa using own)]
    · rw [List.find?_cons_of_neg (by simpa using here)] at found
      rw [List.map_cons, if_neg (by rw [own]; exact here), List.find?_cons_of_neg (by simpa using here)]
      exact find_map_sid found own

/-- A context replaced is the one that is found. -/
theorem setStr_strX (open' : s.strX? sid = some x) (own : y.sid = sid) : (s.setStr y).strX? sid = some y := find_map_sid open' own

theorem Frame.setStr {m : Parts} {R : Nat → Prop} (h : Frame m R s t) (hm : m.strs = true := by rfl) : Frame m R s (t.setStr x) :=
  h.upd (by simp only [State.setStr, State.but, hm, cond_true, Bool.cond_self])

theorem setStr_reg (a : Nat) : (s.setStr x).reg a = s.reg a := rfl

end

/-! ## LOCK -/

section
variable (s : State) (sid : Nat)

/-- The status of a stream as LOCK becomes `v`. -/
def State.lockShown (s : State) (sid : Nat) (v : Bool) : State :=
  if v then s.wr (F.DSP_STR_STAT_LOCK sid) (b2n v) else (s.wr (F.DSP_STR_STAT_LOCK sid) (b2n v)).set1 (F.DSP_STR_STAT_UNLOCK sid)

theorem asrcLock_frame (v : Bool) : Frame {} (· = Reg.DSP_STR_STAT sid) s (s.asrcLock sid v) := by
  have start := Frame.refl (m := {}) (R := (· = Reg.DSP_STR_STAT sid)) (strStat_away sid) s
  have locked := start.wr (f := F.DSP_STR_STAT_LOCK sid) (v := b2n v) rfl
  unfold State.asrcLock
  exact .ite start (Frame.raise (.ite locked (locked.set1 (f := F.DSP_STR_STAT_UNLOCK sid) rfl)))

theorem asrcLock_moves {v : Bool} (h : s.on (F.DSP_STR_STAT_LOCK sid) ≠ v) : ∃ code ws, s.asrcLock sid v = (s.lockShown sid v).raise code ws := by
  unfold State.asrcLock
  rw [if_neg h]
  exact ⟨_, _, rfl⟩

theorem lockShown_lock (v : Bool) : (s.lockShown sid v).rd (F.DSP_STR_STAT_LOCK sid) = b2n v := by
  have written : (s.wr (F.DSP_STR_STAT_LOCK sid) (b2n v)).rd (F.DSP_STR_STAT_LOCK sid) = b2n v :=
    State.rd_wr_fits _ (show 8 + 1 ≤ 32 by decide) (show b2n v < 2 ^ 1 by cases v <;> decide)
  unfold State.lockShown
  split
  · exact written
  · exact (State.rd_set1_off _ (apart_bits (f := F.DSP_STR_STAT_UNLOCK sid) (g := F.DSP_STR_STAT_LOCK sid) (show 3 + 1 ≤ 32 by decide)
      (.inr (show 3 + 1 ≤ 8 by decide)))).trans written

/-- The status of a stream is moved by the stream alone. -/
theorem raised_rd {code : Nat} {ws : List Word} {f : Field} (h : f.addr = Reg.DSP_STR_STAT sid) : (s.raise code ws).rd f = s.rd f :=
  (Frame.raise (Frame.refl (m := {}) (R := fun _ => False) id s)).rd_steady id (by rw [h]; exact steady_str sid 8)

theorem on_eq {f : Field} (one : f.width = 1) (v : Bool) : s.on f = v ↔ s.rd f = b2n v := by
  have lt : s.rd f < 2 := by
    have := State.rd_lt s f
    rwa [one] at this
  unfold State.on
  cases v with
  | true => simp [b2n]
  | false => simp only [b2n, Bool.false_eq_true, if_false, decide_eq_false_iff_not]; omega

theorem asrcLock_lock (v : Bool) : (s.asrcLock sid v).rd (F.DSP_STR_STAT_LOCK sid) = b2n v := by
  by_cases same : s.on (F.DSP_STR_STAT_LOCK sid) = v
  · unfold State.asrcLock
    rw [if_pos same]
    exact (on_eq s rfl v).1 same
  · obtain ⟨code, ws, eq⟩ := asrcLock_moves s sid same
    rw [eq, raised_rd _ sid rfl]
    exact lockShown_lock s sid v

/-- Gaining lock leaves UNLOCK as it is. -/
theorem asrcLock_gained : (s.asrcLock sid true).rd (F.DSP_STR_STAT_UNLOCK sid) = s.rd (F.DSP_STR_STAT_UNLOCK sid) := by
  by_cases same : s.on (F.DSP_STR_STAT_LOCK sid) = true
  · unfold State.asrcLock
    rw [if_pos same]
  · obtain ⟨code, ws, eq⟩ := asrcLock_moves s sid same
    rw [eq, raised_rd _ sid rfl]
    exact State.rd_wr_off _ _ (apart_bits (f := F.DSP_STR_STAT_LOCK sid) (g := F.DSP_STR_STAT_UNLOCK sid) (show 8 + 1 ≤ 32 by decide)
      (.inl (show 3 + 1 ≤ 8 by decide)))

/-- Losing lock sets UNLOCK. -/
theorem asrcLock_lost (held : s.on (F.DSP_STR_STAT_LOCK sid) = true) : (s.asrcLock sid false).rd (F.DSP_STR_STAT_UNLOCK sid) = 1 := by
  obtain ⟨code, ws, eq⟩ := asrcLock_moves s sid (v := false) (by rw [held]; decide)
  rw [eq, raised_rd _ sid rfl]
  exact State.rd_wr_fits _ (show 3 + 1 ≤ 32 by decide) (show 1 < 2 ^ 1 by decide)

end

/-! ## The ratio in force -/

section
variable (s : State) (c : CmdSpec) (p : Packet)

theorem admitted_fg : (s.admitted c p).fg = s.fg := by
  unfold State.fg
  rw [admitted_graph, rd_card s c p (f := F.DSP_GRAPH_STAT_FGC), admitted_clkField s c p (f := F.CTL_CLK_STAT_AUDFAM)]

theorem admitted_feRate (code : Nat) : (s.admitted c p).feRate code = s.feRate code := by
  unfold State.feRate
  rw [admitted_clkField s c p (f := F.CTL_CLK_STAT_AUDFAM)]

theorem admitted_endRate (type idx : Nat) (source : Bool) (hfs : Nat) :
    (s.admitted c p).endRate type idx source hfs = s.endRate type idx source hfs := by
  have aadc : steady (F.IN_AADC_CFG_RATE idx).addr = true := steady_above (show 0x100440 ≤ 0x280000 + 0x20 * idx by omega)
  unfold State.endRate
  rw [rd_card s c p (f := F.IN_TDM_CLK_FS 0), rd_card s c p (f := F.IN_TDM_CLK_FS 1), rd_card s c p (f := F.IN_SPDRX_STAT_FSMEAS),
    (Frame.admitted (m := {}) (R := fun _ => False) id s c p).spdif, rd_card s c p (f := F.IN_PDM_MIC_RATE), rd_card s c p aadc, admitted_feRate,
    admitted_feRate, admitted_fg]

theorem admitted_ratioInForce (x : StreamX) : (s.admitted c p).ratioInForce x = s.ratioInForce x := by
  unfold State.ratioInForce
  rw [rd_card s c p (f := F.DSP_STR_CFG_STYPE x.sid) (steady_str x.sid 0), rd_card s c p (f := F.DSP_STR_CFG_SIDX x.sid) (steady_str x.sid 0),
    rd_card s c p (f := F.DSP_STR_CFG_DTYPE x.sid) (steady_str x.sid 0), rd_card s c p (f := F.DSP_STR_CFG_DIDX x.sid) (steady_str x.sid 0),
    rd_card s c p (f := F.DSP_STR_FMT_HFS x.sid) (steady_str x.sid 4), admitted_endRate, admitted_endRate]

end

theorem setStr_ratioInForce (s : State) (x y : StreamX) : (s.setStr x).ratioInForce y = s.ratioInForce y := rfl

/-! ## ASRC_CFG, lock and loss -/

/-- The context of a stream after ASRC_CFG. -/
def StreamX.configured (x : StreamX) (p : Packet) : StreamX := { x with ratio := pw p.payload 1, holdLost := pb p.payload 2 8, bw := pf p.payload 2 0 2 }

theorem asrcCfg_answers {p : Packet} {s : State} {sid : Nat} {x : StreamX} (acc : Accepted cardAsrcCfg p s) (open' : s.strX? sid = some x)
    (named : pf p.payload 0 0 7 = sid) (converts : s.rd (F.DSP_STR_FMT_AMODE sid) ≠ 0)
    (ratio : pw p.payload 1 = 0 ∨ (s.rd (F.DSP_STR_FMT_AMODE sid) ≠ 2 ∧ 0x02AAAAAB ≤ (pw p.payload 1).toNat ∧ (pw p.payload 1).toNat ≤ 0x40000000))
    (bw : pf p.payload 2 0 2 ≠ 3) (free : s.pendFor? [.stream sid] = none) :
    Answers (.asrcCfg p) cardAsrcCfg p s 0 0 [] fun t => t.strX? sid = some (x.configured p) ∧ { s.over t with strs := s.strs } = s ∧
      (if s.rd (F.DSP_STR_FMT_AMODE sid) = 1 ∧ nearRatio (s.ratioInForce x) (s.ratioInForce (x.configured p)) = false then
        t.rd (F.DSP_STR_STAT_LOCK sid) = 0 ∧
          (s.on (F.DSP_STR_STAT_LOCK sid) = true → t.rd (F.DSP_STR_STAT_UNLOCK sid) = 1) ∧ Touches [Reg.DSP_STR_STAT sid] s t
      else Touches [] s t) := by
  let a := s.admitted cardAsrcCfg p
  let s1 := a.setStr (x.configured p)
  have own : (x.configured p).sid = sid := strX_sid (x := x) open'
  have amode : a.rd (F.DSP_STR_FMT_AMODE sid) = s.rd (F.DSP_STR_FMT_AMODE sid) := rd_card s _ p (steady_str sid 4)
  have open1 : a.strX? sid = some x := (strX_congr (admitted_strs s _ p) sid).trans open'
  have found : s1.strX? sid = some (x.configured p) := setStr_strX open1 own
  have near : ∀ y, a.ratioInForce y = s.ratioInForce y := admitted_ratioInForce s _ p
  have set : ∀ R : Nat → Prop, ¬ R Reg.PWR_STATE → Frame { strs := true } R s s1 := fun R away => Frame.setStr (Frame.admitted away s _ p)
  refine answers_of_done (s1 := if s.rd (F.DSP_STR_FMT_AMODE sid) = 1 ∧ ¬ nearRatio (s.ratioInForce x) (s.ratioInForce (x.configured p)) = true
    then s1.asrcLock sid false else s1) (cl := []) rfl acc ?_ fun t but => ?_
  · dsimp only
    rw [named, open1]
    dsimp only
    rw [amode, if_neg converts, if_neg (by rintro ⟨some', bad⟩; rcases ratio with e | ⟨two, lo, hi⟩; exacts [some' e, by omega]), if_neg bw,
      unlessBusy_none (by rw [admitted_pendFor, free]), near, setStr_ratioInForce, near]
    rfl
  · simp only [Bool.not_eq_true] at but
    by_cases far : s.rd (F.DSP_STR_FMT_AMODE sid) = 1 ∧ nearRatio (s.ratioInForce x) (s.ratioInForce (x.configured p)) = false
    · rw [if_pos far] at but
      have moved := asrcLock_frame s1 sid false
      have lock : ∀ f : Field, f.addr = Reg.DSP_STR_STAT sid → t.rd f = (s1.asrcLock sid false).rd f := fun f h =>
        but.rd_steady (by rw [h]; exact steady_str sid 8)
      have frame : Frame { strs := true } (· ∈ [Reg.DSP_STR_STAT sid]) s (s1.asrcLock sid false) := by
        have away : ¬ Reg.PWR_STATE ∈ [Reg.DSP_STR_STAT sid] := fun k => strStat_away sid (List.mem_singleton.1 k)
        exact (set _ away).trans ((moved.widen).mono (fun _ e => List.mem_singleton.2 e) away)
      rw [if_pos far]
      refine ⟨(strX_congr ((congrArg State.strs but.rest :).trans moved.strs) sid).trans found, (frame.papol but).rest,
        (lock _ rfl).trans (asrcLock_lock s1 sid false), fun held => (lock _ rfl).trans (asrcLock_lost s1 sid ?_), (frame.papol but).touches⟩
      exact (on_card s _ p (f := F.DSP_STR_STAT_LOCK sid) (steady_str sid 8)).trans held
    · rw [if_neg far] at but
      rw [if_neg far]
      have frame := (set (· ∈ []) (by decide)).papol but
      exact ⟨(strX_congr (congrArg State.strs but.rest :) sid).trans found, frame.rest, frame.touches⟩

theorem asrcLock_tells {s : State} {sid : Fin 128} {x : StreamX} (open' : s.strX? sid.val = some x) (ratio : Word) (early : Bool)
    (locks : s.rd (F.DSP_STR_FMT_AMODE sid.val) = 1 ∨ (s.rd (F.DSP_STR_FMT_AMODE sid.val) = 2 ∧ 0x02AAAAAB ≤ ratio.toNat ∧
      ratio.toNat ≤ 0x40000000 ∧ (early = true → x.holdLost = true ∧ ∃ r, x.tracked = some r ∧ closeRatio ratio.toNat r = true))) :
    ∃ t, exec (.asrcLock ⟨sid, ratio, early⟩) s = .next t ∧ t.rd (F.DSP_STR_STAT_LOCK sid.val) = 1 ∧
      t.rd (F.DSP_STR_STAT_UNLOCK sid.val) = s.rd (F.DSP_STR_STAT_UNLOCK sid.val) ∧ Touches [Reg.DSP_STR_STAT sid.val] s t ∧
      t.strX? sid.val = some (if s.rd (F.DSP_STR_FMT_AMODE sid.val) = 1 then x else { x with tracked := some ratio.toNat }) ∧
      { s.over t with strs := s.strs } = s := by
  have away : ¬ Reg.PWR_STATE ∈ [Reg.DSP_STR_STAT sid.val] := fun k => strStat_away sid.val (List.mem_singleton.1 k)
  have moves : ∀ z : State, Frame {} (· ∈ [Reg.DSP_STR_STAT sid.val]) z (z.asrcLock sid.val true) := fun z =>
    (asrcLock_frame z sid.val true).mono (fun _ e => List.mem_singleton.2 e) away
  show ∃ t, execAsrcLock ⟨sid, ratio, early⟩ s = .next t ∧ _
  unfold execAsrcLock
  dsimp only
  rw [open']
  dsimp only
  by_cases fixed : s.rd (F.DSP_STR_FMT_AMODE sid.val) = 1
  · rw [if_neg (by rw [fixed]; decide), if_pos fixed, if_pos fixed]
    exact ⟨_, rfl, asrcLock_lock s _ true, asrcLock_gained s _, (moves s).touches, (strX_congr (moves s).strs _).trans open',
      (moves s).widen (m' := { strs := true }) |>.rest⟩
  · obtain ⟨async, lo, hi, early'⟩ := locks.resolve_left fixed
    have good : ¬ (ratioIn ratio.toNat = false ∨ (early = true ∧
        ¬ (x.holdLost = true ∧ (x.tracked.any fun r => closeRatio ratio.toNat r) = true))) := by
      rintro (out | ⟨fast, bad⟩)
      · unfold ratioIn at out
        rw [decide_eq_true lo, decide_eq_true hi] at out
        exact absurd out (by decide)
      · obtain ⟨held, r, eq, close⟩ := early' fast
        exact bad ⟨held, by rw [eq]; exact close⟩
    rw [if_neg (by rw [async]; decide), if_neg fixed, if_neg good, if_neg fixed]
    have set : Frame { strs := true } (· ∈ [Reg.DSP_STR_STAT sid.val]) s (s.setStr { x with tracked := some ratio.toNat }) :=
      Frame.setStr (.refl away s)
    have moved := moves (s.setStr { x with tracked := some ratio.toNat })
    exact ⟨_, rfl, asrcLock_lock _ _ true, asrcLock_gained _ _, (set.trans moved.widen).touches,
      (strX_congr moved.strs _).trans (setStr_strX open' (strX_sid (x := x) open')), (set.trans moved.widen).rest⟩

theorem asrcUnlock_tells {s : State} {sid : Fin 128} {x : StreamX} (open' : s.strX? sid.val = some x) (why : UnlockWhy)
    (async : s.rd (F.DSP_STR_FMT_AMODE sid.val) = 2) : ∃ t, exec (.asrcUnlock ⟨sid, why⟩) s = .next t ∧
      t.rd (F.DSP_STR_STAT_LOCK sid.val) = 0 ∧ (s.on (F.DSP_STR_STAT_LOCK sid.val) = true → t.rd (F.DSP_STR_STAT_UNLOCK sid.val) = 1) ∧
      t.strX? sid.val = some { x with tracked := if x.holdLost = true ∧ why = .stalled then x.tracked else none } ∧
      Touches [Reg.DSP_STR_STAT sid.val] s t ∧ { s.over t with strs := s.strs } = s := by
  have away : ¬ Reg.PWR_STATE ∈ [Reg.DSP_STR_STAT sid.val] := fun k => strStat_away sid.val (List.mem_singleton.1 k)
  let y : StreamX := { x with tracked := if x.holdLost = true ∧ why = .stalled then x.tracked else none }
  have set : Frame { strs := true } (· ∈ [Reg.DSP_STR_STAT sid.val]) s (s.setStr y) := Frame.setStr (.refl away s)
  have moved : Frame {} (· ∈ [Reg.DSP_STR_STAT sid.val]) (s.setStr y) ((s.setStr y).asrcLock sid.val false) :=
    (asrcLock_frame _ sid.val false).mono (fun _ e => List.mem_singleton.2 e) away
  refine ⟨(s.setStr y).asrcLock sid.val false, ?_, asrcLock_lock _ _ false, fun held => asrcLock_lost _ _ held,
    (strX_congr moved.strs _).trans (setStr_strX open' (strX_sid (x := x) open')), (set.trans moved.widen).touches, (set.trans moved.widen).rest⟩
  show execAsrcUnlock ⟨sid, why⟩ s = _
  unfold execAsrcUnlock
  dsimp only
  rw [open']
  exact if_pos async

/-- Settles O20: the status words are the context's; the converters move LOCK through `asrcLock`, and the rest is the stream's own record. -/
theorem streamStatusAndConverters : Obligations.StreamStatusAndConverters := fun _ _ _ _ =>
  ⟨fun acc named some' free => streamStatus_answers acc named some' free, fun open' =>
    ⟨fun acc named converts ratio bw free => asrcCfg_answers acc open' named converts ratio bw free,
      fun ratio early locks => asrcLock_tells open' ratio early locks, fun why async => asrcUnlock_tells open' why async⟩⟩

end Sys2Proof.Machine
end

section
/-!
# Streams open and end (spec/05_streams_ports.md, R204 to R223)
-/

namespace Sys2Proof.Machine

-- One theorem after the other: in one text, theorems that wait for the kernel would each hold a thread.
set_option Elab.async false

/-! ## CFGGEN is moved by configurations alone (R190) -/

theorem trimEvents_cfggen : ∀ (n : Nat) (s : State), (s.trimEvents n).pap.cfggen = s.pap.cfggen
  | 0, _ => rfl
  | n + 1, s => by
    have key : ∀ u : State, u.pap.cfggen = s.pap.cfggen → (u.trimEvents n).pap.cfggen = s.pap.cfggen := fun u same =>
      (trimEvents_cfggen n u).trans same
    unfold State.trimEvents
    split
    · rfl
    · split
      · rfl
      · dsimp only
        split
        · unfold State.keepRepost
          split <;> exact key _ rfl
        · split
          · exact key _ rfl
          · exact key _ rfl

theorem flushEvents_cfggen : ∀ (l acc : List EventEntry) (s : State), (State.flushEvents acc l s).pap.cfggen = s.pap.cfggen
  | [], _, _ => rfl
  | e :: rest, acc, s => by
    unfold State.flushEvents
    split
    · exact flushEvents_cfggen rest _ s
    · split
      · exact flushEvents_cfggen rest _ _
      · rfl

theorem issueAt_cfggen (s : State) (code : Nat) (ws : List Word) (r : Bool) (time : Word64) : (s.issueAt code ws r time).pap.cfggen = s.pap.cfggen :=
  (flushEvents_cfggen _ [] _).trans (trimEvents_cfggen 4 _)

theorem raiseR_cfggen (s : State) (code : Nat) (ws : List Word) (r : Bool) : (s.raiseR code ws r).pap.cfggen = s.pap.cfggen := by
  unfold State.raiseR
  split
  · rw [issueAt_cfggen, sysRun_pap]
  · split <;> rfl

theorem raiseClamps_cfggen (op : Nat) : ∀ (cl : List Clamp) (s : State), (s.raiseClamps op cl).pap.cfggen = s.pap.cfggen
  | [], _ => rfl
  | _ :: cl, s => (raiseClamps_cfggen op cl _).trans (raiseR_cfggen s _ _ false)

theorem countCfg_cfggen (s : State) (cfg : Bool) {st : Nat} (good : success st = true) :
    (s.countCfg cfg st).pap.cfggen = s.pap.cfggen + if cfg then 1 else 0 := by
  unfold State.countCfg
  rw [good]
  cases cfg with
  | false => simp
  | true => simp

/-- A command that ends with success is counted where its card configures. -/
theorem postDone_cfggen (s : State) (e : PendEntry) {st : Nat} (good : success st = true) (d : Nat) (ws : List Word) (cl : List Clamp) (time : Word64) :
    (s.postDone e st d ws cl time).pap.cfggen = s.pap.cfggen + if e.cfg then 1 else 0 := by
  unfold State.postDone
  dsimp only
  rw [raiseClamps_cfggen, issueAt_cfggen, countCfg_cfggen _ _ good]
  rfl

theorem finishFor_cfggen {s : State} (run : s.pap.run = .running) (tg : Target) (op : Nat) (ws : List Word) :
    (s.finishFor tg op stsOk ws).pap.cfggen = s.pap.cfggen + if (s.workFor? tg op).any (·.cfg) then 1 else 0 := by
  rw [finishFor_eq]
  cases s.workFor? tg op with
  | none => simp
  | some e =>
    show (s.finish e stsOk 0 ws []).pap.cfggen = _
    rw [finish_running run, postDone_cfggen _ _ (by decide), sysRun_pap]
    rfl

/-! ## The end of a stream -/

section
variable {s : State} {sid : Nat}

theorem strState_cause {st : Nat} (moves : s.rd (F.DSP_STR_STAT_STATE sid) ≠ st) {cause : Nat} (h : cause < 256) :
    (s.strState sid st cause).rd (F.DSP_STR_STAT_CAUSE sid) = cause := by
  rw [strState_moves moves]
  exact (raised_rd _ sid rfl).trans (State.rd_wr_fits _ (show 16 + 8 ≤ 32 by decide) (show cause < 2 ^ 8 from h))

theorem strState_kept (st cause : Nat) : PapolKept s (s.strState sid st cause) ∧ (s.strState sid st cause).pap.cfggen = s.pap.cfggen := by
  by_cases same : s.rd (F.DSP_STR_STAT_STATE sid) = st
  · unfold State.strState
    rw [if_pos same]
    exact ⟨.refl s, rfl⟩
  · rw [strState_moves same]
    have pap : ∀ v w, ((s.wr (F.DSP_STR_STAT_STATE sid) v).wr (F.DSP_STR_STAT_CAUSE sid) w).pap = s.pap := fun v w => by
      rw [State.wr_pap, State.wr_pap]
    generalize hz : (s.wr (F.DSP_STR_STAT_STATE sid) st).wr (F.DSP_STR_STAT_CAUSE sid) cause = z
    have same' : z.pap = s.pap := by rw [← hz]; exact pap _ _
    exact ⟨(PapolKept.of_pap same').trans (raiseR_papol z _ _ false).2, (raiseR_cfggen z _ _ false).trans (congrArg Papol.cfggen same')⟩

/-- A stream gone, its end told, the gate's timer started with the last handover. -/
def State.strGone (s : State) (sid st cause : Nat) : State := ((s.freeStr sid).strState sid st cause).gateAfterClose (s.isHandover sid)

theorem endStr_eq {x : StreamX} (open' : s.strX? sid = some x) (st cause sts : Nat) :
    s.endStr sid st cause sts = (s.strGone sid st cause).finishFor (.stream sid) 0x101 sts [] := by
  unfold State.endStr
  rw [open']
  rfl

/-- Another stream's ends are not told in this one's STAT. -/
theorem strState_isHandover (st cause y : Nat) : (s.strState sid st cause).isHandover y = s.isHandover y := by
  have moved : Frame {} (· = Reg.DSP_STR_STAT sid) s (s.strState sid st cause) := Frame.strState (.refl (strStat_away sid) s) rfl
  have away : ¬ (F.DSP_STR_CFG_STYPE y).addr = Reg.DSP_STR_STAT sid := by
    show ¬ 0x102000 + 0x20 * y = 0x102008 + 0x20 * sid
    omega
  unfold State.isHandover
  rw [moved.rd_steady away (steady_str y 0)]

theorem strState_gateReg (few : sid < 128) (st cause : Nat) :
    (s.strState sid st cause).rd F.IN_TAD_STAT_GATE = s.rd F.IN_TAD_STAT_GATE := by
  have moved : Frame {} (· = Reg.DSP_STR_STAT sid) s (s.strState sid st cause) := Frame.strState (.refl (strStat_away sid) s) rfl
  refine moved.rd_steady fun e => ?_
  change Reg.IN_TAD_STAT = Reg.DSP_STR_STAT sid at e
  unfold Reg.IN_TAD_STAT Reg.DSP_STR_STAT at e
  omega

/-- The tadpole's record once the stream is gone. -/
def State.tadAfter (s : State) (sid : Nat) : Tad :=
  if s.isHandover sid = true ∧ (s.strs.filter fun y => y.sid ≠ sid).any (fun y => s.isHandover y.sid) = false ∧ s.rd F.IN_TAD_STAT_GATE = 1
  then { s.tad with timer := some s.now } else s.tad

theorem strGone_tad (few : sid < 128) (st cause : Nat) : (s.strGone sid st cause).tad = s.tadAfter sid := by
  have moved : Frame {} (· = Reg.DSP_STR_STAT sid) (s.freeStr sid) ((s.freeStr sid).strState sid st cause) :=
    Frame.strState (.refl (strStat_away sid) _) rfl
  have opens : ((s.freeStr sid).strState sid st cause).handoverOpen = (s.strs.filter fun y => y.sid ≠ sid).any (fun y => s.isHandover y.sid) := by
    unfold State.handoverOpen
    rw [moved.strs]
    exact List.any_congr rfl fun y => strState_isHandover (s := s.freeStr sid) st cause y.sid
  have gate : ((s.freeStr sid).strState sid st cause).rd F.IN_TAD_STAT_GATE = s.rd F.IN_TAD_STAT_GATE := strState_gateReg few st cause
  have now : ((s.freeStr sid).strState sid st cause).now = s.now := by
    have clock : ∀ a, a = Reg.CTL_SYS_TIME_LO ∨ a = Reg.CTL_SYS_TIME_LO + 4 → ((s.freeStr sid).strState sid st cause).reg a = s.reg a := fun a own => by
      refine moved.reg_steady (fun e => ?_) ?_
      · rcases own with rfl | rfl
        · unfold Reg.CTL_SYS_TIME_LO Reg.DSP_STR_STAT at e; omega
        · unfold Reg.CTL_SYS_TIME_LO Reg.DSP_STR_STAT at e; omega
      · rcases own with rfl | rfl <;> decide
    exact State.rd64_congr (clock _ (.inl rfl)) (clock _ (.inr rfl))
  unfold State.strGone State.gateAfterClose State.tadAfter
  rw [opens, gate, now, moved.tad]
  simp only [Bool.not_eq_true]
  split
  · rfl
  · exact moved.tad

/-- What is left of a stream that has ended. -/
structure StrEnded (s t : State) (sid st cause : Nat) : Prop where
  state : t.rd (F.DSP_STR_STAT_STATE sid) = st
  cause : s.rd (F.DSP_STR_STAT_STATE sid) ≠ st → t.rd (F.DSP_STR_STAT_CAUSE sid) = cause
  strs  : t.strs = s.strs.filter fun y => y.sid ≠ sid
  tad   : t.tad = s.tadAfter sid
  frame : Frame { strs := true, tad := true } (· ∈ [Reg.DSP_STR_STAT sid]) s t

theorem strGone_shows (few : sid < 128) {st cause : Nat} (small : st < 16) (byte : cause < 256) :
    StrEnded s (s.strGone sid st cause) sid st cause ∧ PapolKept s (s.strGone sid st cause) ∧
      (s.strGone sid st cause).pap.cfggen = s.pap.cfggen := by
  have tad := strGone_tad (s := s) few st cause
  have moved : Frame { strs := true, tad := true } (· ∈ [Reg.DSP_STR_STAT sid]) s ((s.freeStr sid).strState sid st cause) := by
    have away : ¬ Reg.PWR_STATE ∈ [Reg.DSP_STR_STAT sid] := fun k => strStat_away sid (List.mem_singleton.1 k)
    exact Frame.strState (Frame.upd (.refl away s) rfl) (List.mem_singleton.2 rfl)
  have told : Frame {} (· = Reg.DSP_STR_STAT sid) (s.freeStr sid) ((s.freeStr sid).strState sid st cause) :=
    Frame.strState (.refl (strStat_away sid) _) rfl
  have state := strState_state (s.freeStr sid) sid small cause
  have why : s.rd (F.DSP_STR_STAT_STATE sid) ≠ st → ((s.freeStr sid).strState sid st cause).rd (F.DSP_STR_STAT_CAUSE sid) = cause := fun k =>
    strState_cause (s := s.freeStr sid) k byte
  have kept : PapolKept s ((s.freeStr sid).strState sid st cause) ∧ ((s.freeStr sid).strState sid st cause).pap.cfggen = s.pap.cfggen :=
    strState_kept (s := s.freeStr sid) st cause
  have strs : ((s.freeStr sid).strState sid st cause).strs = s.strs.filter fun y => y.sid ≠ sid := told.strs
  unfold State.strGone at tad ⊢
  generalize (s.freeStr sid).strState sid st cause = u at tad moved state why kept strs ⊢
  have gate : u.gateAfterClose (s.isHandover sid) = { u with tad := (u.gateAfterClose (s.isHandover sid)).tad } := by
    unfold State.gateAfterClose
    split <;> rfl
  have last : Local { tad := true } (fun _ => False) u (u.gateAfterClose (s.isHandover sid)) := by
    rw [gate]
    exact (Local.refl u).upd rfl
  exact ⟨⟨(last.rd id).trans state, fun k => (last.rd id).trans (why k), (last.part State.strs).trans strs, tad, moved.gateAfterClose⟩,
    kept.1.trans last.kept, (congrArg Papol.cfggen last.pap).trans kept.2⟩

end

/-! ## STREAM_CLOSE -/

section
variable (s : State) (c : CmdSpec) (p : Packet)

theorem admitted_strX (sid : Nat) : (s.admitted c p).strX? sid = s.strX? sid := strX_congr (admitted_strs s c p) sid

theorem admitted_portSync {port : Nat} (few : port ≤ 3) : (s.admitted c p).portSync port = s.portSync port := by
  have stat : steady (F.IN_TDM_STAT_SYNC port).addr = true := steady_above (show 0x100440 ≤ 0x20000C + 0x100 * port by omega)
  have frame := Frame.admitted (m := {}) (R := fun _ => False) id s c p
  unfold State.portSync
  rw [frame.tdm, frame.spdif, on_card s c p stat, on_card s c p (f := F.IN_SPDRX_STAT_LOCK)]

theorem admitted_endClock (type : Nat) (source : Bool) : (s.admitted c p).endClock type source = s.endClock type source := by
  have frame := Frame.admitted (m := {}) (R := fun _ => False) id s c p
  unfold State.endClock
  rw [frame.tdm, admitted_portSync s c p (by decide), admitted_portSync s c p (by decide)]

theorem admitted_destStopped (sid : Nat) : (s.admitted c p).destStopped sid = s.destStopped sid := by
  unfold State.destStopped
  dsimp only
  rw [rd_card s c p (f := F.DSP_STR_CFG_DTYPE sid) (steady_str sid 0), rd_card s c p (f := F.DSP_STR_CFG_STYPE sid) (steady_str sid 0),
    admitted_endClock, admitted_endClock]

theorem admitted_now : (s.admitted c p).now = s.now := rd64_card s c p

theorem admitted_tadAfter (sid : Nat) : (s.admitted c p).tadAfter sid = s.tadAfter sid := by
  unfold State.tadAfter
  simp only [admitted_isHandover, admitted_strs, admitted_tad, admitted_now]
  rw [rd_card]

end

section
variable {s : State} {sid : Nat}

/-- What ended in a state that a card was entered with has ended. -/
theorem StrEnded.of_admitted {c : CmdSpec} {p : Packet} {t : State} {st cause : Nat} (h : StrEnded (s.admitted c p) t sid st cause) :
    StrEnded s t sid st cause := by
  obtain ⟨state, why, strs, tad, frame⟩ := h
  have away : ¬ Reg.PWR_STATE ∈ [Reg.DSP_STR_STAT sid] := fun k => strStat_away sid (List.mem_singleton.1 k)
  refine ⟨state, fun k => why ?_, by rw [strs, admitted_strs], tad.trans (admitted_tadAfter s c p sid), (Frame.admitted away s c p).trans frame⟩
  rwa [rd_card s c p (f := F.DSP_STR_STAT_STATE sid) (steady_str sid 8)]

/-- Papol's own work after the end of a stream. -/
theorem StrEnded.papol {t u : State} {st cause : Nat} (h : StrEnded s t sid st cause) (but : PapolBut papolReg (papolByte t) t u) :
    StrEnded s u sid st cause := by
  obtain ⟨state, why, strs, tad, frame⟩ := h
  have last := (Frame.refl (m := {}) (R := fun _ => False) id t).papol but
  exact ⟨(but.rd_steady (steady_str sid 8)).trans state, fun k => (but.rd_steady (steady_str sid 8)).trans (why k),
    last.strs.trans strs, last.tad.trans tad, frame.papol but⟩

theorem StrEnded.finishFor {t : State} {st cause : Nat} (h : StrEnded s t sid st cause) {tg : Target} {op sts : Nat} {ws : List Word} :
    StrEnded s (t.finishFor tg op sts ws) sid st cause :=
  h.papol (Frame.finishFor (.refl id t)).papolBut

theorem StrEnded.tells {t : State} {st cause : Nat} (h : StrEnded s t sid st cause) : t.rd (F.DSP_STR_STAT_STATE sid) = st ∧
    (s.rd (F.DSP_STR_STAT_STATE sid) ≠ st → t.rd (F.DSP_STR_STAT_CAUSE sid) = cause) ∧ t.strs = (s.strs.filter fun y => y.sid ≠ sid) ∧
    t.tad = s.tadAfter sid ∧ Touches [Reg.DSP_STR_STAT sid] s t ∧ { s.over t with strs := s.strs, tad := s.tad } = s :=
  ⟨h.state, h.cause, h.strs, h.tad, h.frame.touches, h.frame.rest⟩

theorem endStr_ends {x : StreamX} (open' : s.strX? sid = some x) (few : sid < 128) {st cause : Nat} (small : st < 16) (byte : cause < 256) :
    StrEnded s (s.endStr sid st cause stsOk) sid st cause := by
  rw [endStr_eq open']
  exact (strGone_shows few small byte).1.finishFor

theorem streamClose_answers {p : Packet} {x : StreamX} (open' : s.strX? sid = some x) (few : sid < 128) (acc : Accepted cardStreamClose p s)
    (soft : p.force = false) (named : pf p.payload 0 0 7 = sid) (free : s.pendFor? [.stream sid] = none) (runs : s.destStopped sid = false) :
    Answers (.streamClose p) cardStreamClose p s 0 0 [] fun t => StrEnded s t sid stmClosed 0x09 := by
  let a := s.admitted cardStreamClose p
  have open1 : a.strX? sid = some x := (admitted_strX s _ p sid).trans open'
  refine answers_of_done (s1 := a.closeStr sid) (cl := []) rfl acc ?_ fun t but => ?_
  · unfold streamCloseBody
    dsimp only
    rw [named, open1]
    dsimp only
    rw [soft, if_neg (by decide), unlessBusy_none (by rw [admitted_pendFor, free]), admitted_destStopped, runs]
    rfl
  · exact (StrEnded.of_admitted (endStr_ends open1 few (st := stmClosed) (cause := 0x09) (by decide) (by decide))).papol but

theorem streamClose_awaits {p : Packet} {x : StreamX} (open' : s.strX? sid = some x) (acc : Accepted cardStreamClose p s)
    (soft : p.force = false) (named : pf p.payload 0 0 7 = sid) (free : Free s [.stream sid]) (stopped : s.destStopped sid = true) :
    Awaits (.streamClose p) cardStreamClose p s [] [.stream sid] fun t =>
      t.strX? sid = some { x with closing := true } ∧ Touches [] s t ∧ { s.over t with strs := s.strs } = s := by
  let a := s.admitted cardStreamClose p
  have open1 : a.strX? sid = some x := (admitted_strX s _ p sid).trans open'
  refine awaits_of_pend (s1 := a.setStr { x with closing := true }) rfl acc ?_ (admitted_free free).2 fun t but => ?_
  · unfold streamCloseBody
    dsimp only
    rw [named, open1]
    dsimp only
    rw [soft, if_neg (by decide), unlessBusy_free (admitted_free free), admitted_destStopped, stopped]
    rfl
  · have frame : Frame { strs := true } (· ∈ []) s (a.setStr { x with closing := true }) := Frame.setStr (Frame.admitted (by decide) s _ p)
    exact ⟨(strX_congr (congrArg State.strs but.rest :) sid).trans (setStr_strX (y := { x with closing := true }) open1 (strX_sid (x := x) open')),
      (frame.papol but).touches, (frame.papol but).rest⟩

theorem streamCloseForce_answers {p : Packet} {x : StreamX} (open' : s.strX? sid = some x) (few : sid < 128)
    (acc : Accepted cardStreamClose { p with force := true } s) (named : pf p.payload 0 0 7 = sid) :
    Answers (.streamCloseForce p) cardStreamClose { p with force := true } s 0 0 [] fun t =>
      StrEnded s t sid stmAborted 0x08 ∧ Ended (s.workFor? (.stream sid) 0x101) stsOk s t := by
  let a := s.admitted cardStreamClose { p with force := true }
  have open1 : a.strX? sid = some x := (admitted_strX s _ _ sid).trans open'
  obtain ⟨-, kept, -⟩ := strGone_shows (s := a) (sid := sid) few (st := stmAborted) (cause := 0x08) (by decide) (by decide)
  have ended : Ended (s.workFor? (.stream sid) 0x101) stsOk s (a.abortStr sid) := by
    unfold State.abortStr
    rw [endStr_eq open1]
    exact finishFor_ended ((admitted_kept s _ _).trans kept) _ _ _ _
  refine answers_ending (s1 := a.abortStr sid) rfl acc ?_ ended fun t but ends => ⟨?_, ends⟩
  · unfold streamCloseBody
    dsimp only
    rw [named, open1]
    rfl
  · exact (StrEnded.of_admitted (endStr_ends open1 few (st := stmAborted) (cause := 0x08) (by decide) (by decide))).papol but

theorem streamCloseDone_ends {sid : Fin 128} {x : StreamX} (open' : s.strX? sid.val = some x) (closing : x.closing = true) :
    ∃ t, exec (.streamCloseDone sid) s = .next t ∧ StrEnded s t sid.val stmClosed 0x09 ∧
      Ended (s.workFor? (.stream sid.val) 0x101) stsOk s t ∧
      (s.pap.run = .running → t.pap.cfggen = s.pap.cfggen + (if ((s.workFor? (.stream sid.val) 0x101).any (·.cfg)) then 1 else 0)) := by
  obtain ⟨-, kept, count⟩ := strGone_shows (s := s) (sid := sid.val) sid.isLt (st := stmClosed) (cause := 0x09) (by decide) (by decide)
  have closed : s.closeStr sid.val = (s.strGone sid.val stmClosed 0x09).finishFor (.stream sid.val) 0x101 stsOk [] := endStr_eq open' _ _ _
  refine ⟨s.closeStr sid.val, ?_, endStr_ends open' sid.isLt (by decide) (by decide), ?_, fun run => ?_⟩
  · show execStreamCloseDone sid s = _
    unfold execStreamCloseDone
    rw [open']
    exact if_pos closing
  · rw [closed]
    exact finishFor_ended kept _ _ _ _
  · obtain ⟨-, slots, run'⟩ := kept
    rw [closed, finishFor_cfggen (run'.trans run), count]
    unfold State.workFor?
    rw [slots]

end

/-! ## STREAM_OPEN -/

/-- A stream as STREAM_OPEN leaves it. -/
def State.opened (s : State) (ws : List Word) (sid asf : Nat) : State :=
  (s.openContext sid (pf ws 1 28 4) (pf ws 1 20 6) (pf ws 1 12 4) (pf ws 1 4 6) (pf ws 2 16 5 + 1) (pf ws 2 8 2) (pf ws 2 1 1) (pf ws 2 0 1) asf
    (pf ws 3 8 2) (pf ws 3 0 4)).openStr (newStreamX sid (pf ws 4 0 2) (pf ws 4 8 7) (pf ws 5 0 16) (pf ws 2 16 5 + 1))

/-- What an opened stream's context holds. -/
structure StrOpened (s t : State) (ws : List Word) (sid : Nat) : Prop where
  state : t.rd (F.DSP_STR_STAT_STATE sid) = stmWait
  cnt   : t.reg (Reg.DSP_STR_CNT sid) = 0
  idx   : t.rd64 (Reg.DSP_STR_IDX_LO sid) = 0
  good  : t.rd64 (Reg.DSP_STR_GOOD_LO sid) = 2 ^ 64 - 1
  stype : t.rd (F.DSP_STR_CFG_STYPE sid) = pf ws 1 28 4
  sidx  : t.rd (F.DSP_STR_CFG_SIDX sid) = pf ws 1 20 6
  dtype : t.rd (F.DSP_STR_CFG_DTYPE sid) = pf ws 1 12 4
  didx  : t.rd (F.DSP_STR_CFG_DIDX sid) = pf ws 1 4 6
  nch   : t.strCh sid = pf ws 2 16 5 + 1
  amode : t.rd (F.DSP_STR_FMT_AMODE sid) = pf ws 3 8 2
  strs  : t.strs = s.strs ++ [newStreamX sid (pf ws 4 0 2) (pf ws 4 8 7) (pf ws 5 0 16) (pf ws 2 16 5 + 1)]
  frame : Frame { strs := true } (· ∈ strRegs sid) s t

section
variable {s t u : State} {ws : List Word} {sid : Nat}

/-- Papol's own work after the opening of a stream. -/
theorem StrOpened.papol (h : StrOpened s t ws sid) (but : PapolBut papolReg (papolByte t) t u) : StrOpened s u ws sid := by
  have last := (Frame.refl (m := {}) (R := fun _ => False) id t).papol but
  have reg : ∀ o, u.reg (0x102000 + o + 0x20 * sid) = t.reg (0x102000 + o + 0x20 * sid) := fun o => last.reg_steady id (steady_str sid o)
  have above : ∀ a, 0x102000 + 0x20 * sid ≤ a → u.reg a = t.reg a := fun a le => last.reg_steady id (steady_above (by omega))
  refine ⟨(rd_same (reg 8)).trans h.state, (reg 12).trans h.cnt, (State.rd64_congr (above _ ?_) (above _ ?_)).trans h.idx,
    (State.rd64_congr (above _ ?_) (above _ ?_)).trans h.good, (rd_same (reg 0)).trans h.stype, (rd_same (reg 0)).trans h.sidx,
    (rd_same (reg 0)).trans h.dtype, (rd_same (reg 0)).trans h.didx, ?_, (rd_same (reg 4)).trans h.amode,
    last.strs.trans h.strs, h.frame.papol but⟩
  · unfold Reg.DSP_STR_IDX_LO; omega
  · unfold Reg.DSP_STR_IDX_LO; omega
  · unfold Reg.DSP_STR_GOOD_LO; omega
  · unfold Reg.DSP_STR_GOOD_LO; omega
  · refine Eq.trans ?_ h.nch
    unfold State.strCh
    rw [rd_same (f := F.DSP_STR_FMT_NCH sid) (reg 4)]

theorem opened_shows (s : State) (ws : List Word) (sid : Nat) {asf : Nat} (few : asf < 64) : StrOpened s (s.opened ws sid asf) ws sid := by
  have context := openContext_regs s sid (pf ws 1 28 4) (pf ws 1 20 6) (pf ws 1 12 4) (pf ws 1 4 6) (pf ws 2 16 5 + 1) (pf ws 2 8 2) (pf ws 2 1 1)
    (pf ws 2 0 1) asf (pf ws 3 8 2) (pf ws 3 0 4)
  have moved : Frame {} (· ∈ strRegs sid) s (s.openContext sid (pf ws 1 28 4) (pf ws 1 20 6) (pf ws 1 12 4) (pf ws 1 4 6) (pf ws 2 16 5 + 1)
      (pf ws 2 8 2) (pf ws 2 1 1) (pf ws 2 0 1) asf (pf ws 3 8 2) (pf ws 3 0 4)) :=
    (Local.openContext (.refl s) fun _ => id).frame fun mem => absurd (strRegs_ge mem) (by decide)
  unfold State.opened
  generalize s.openContext sid (pf ws 1 28 4) (pf ws 1 20 6) (pf ws 1 12 4) (pf ws 1 4 6) (pf ws 2 16 5 + 1)
    (pf ws 2 8 2) (pf ws 2 1 1) (pf ws 2 0 1) asf (pf ws 3 8 2) (pf ws 3 0 4) = c at context moved
  obtain ⟨cfg, fmt, -, cnt, idx, good⟩ := context
  obtain ⟨opens, strs, state⟩ := openStr_shows c (newStreamX sid (pf ws 4 0 2) (pf ws 4 8 7) (pf ws 5 0 16) (pf ws 2 16 5 + 1))
  generalize c.openStr (newStreamX sid (pf ws 4 0 2) (pf ws 4 8 7) (pf ws 5 0 16) (pf ws 2 16 5 + 1)) = u at opens strs state
  have other : ∀ a, a ≠ 0x102008 + 0x20 * sid → 0x102000 ≤ a → u.reg a = c.reg a := fun a away hi =>
    opens.reg_steady away (steady_above (Nat.le_trans (by decide) hi))
  have hcfg := (other (Reg.DSP_STR_CFG sid) (by unfold Reg.DSP_STR_CFG; omega) (by unfold Reg.DSP_STR_CFG; omega)).trans cfg
  have hfmt := (other (Reg.DSP_STR_FMT sid) (by unfold Reg.DSP_STR_FMT; omega) (by unfold Reg.DSP_STR_FMT; omega)).trans fmt
  have stype := bits_lt (pw ws 1) 28 4
  have sidx := bits_lt (pw ws 1) 20 6
  have dtype := bits_lt (pw ws 1) 12 4
  have didx := bits_lt (pw ws 1) 4 6
  have nch := bits_lt (pw ws 2) 16 5
  have width := bits_lt (pw ws 2) 8 2
  have inv := bits_lt (pw ws 2) 1 1
  have pol := bits_lt (pw ws 2) 0 1
  have amode := bits_lt (pw ws 3) 8 2
  have hfs := bits_lt (pw ws 3) 0 4
  simp only [pf] at *
  refine ⟨state, ?_, ?_, ?_, ?_, ?_, ?_, ?_, ?_, ?_, ?_, ?_⟩
  · exact (other _ (by unfold Reg.DSP_STR_CNT; omega) (by unfold Reg.DSP_STR_CNT; omega)).trans cnt
  · refine (State.rd64_congr (other _ ?_ ?_) (other _ ?_ ?_)).trans idx
    all_goals (unfold Reg.DSP_STR_IDX_LO; omega)
  · refine (State.rd64_congr (other _ ?_ ?_) (other _ ?_ ?_)).trans good
    all_goals (unfold Reg.DSP_STR_GOOD_LO; omega)
  · rw [rd_of_reg (f := F.DSP_STR_CFG_STYPE sid) hcfg, bits_w32 (by omega)]
    simp only [F.DSP_STR_CFG_STYPE, pf]
    omega
  · rw [rd_of_reg (f := F.DSP_STR_CFG_SIDX sid) hcfg, bits_w32 (by omega)]
    simp only [F.DSP_STR_CFG_SIDX, pf]
    omega
  · rw [rd_of_reg (f := F.DSP_STR_CFG_DTYPE sid) hcfg, bits_w32 (by omega)]
    simp only [F.DSP_STR_CFG_DTYPE, pf]
    omega
  · rw [rd_of_reg (f := F.DSP_STR_CFG_DIDX sid) hcfg, bits_w32 (by omega)]
    simp only [F.DSP_STR_CFG_DIDX, pf]
    omega
  · unfold State.strCh
    rw [rd_of_reg (f := F.DSP_STR_FMT_NCH sid) hfmt, bits_w32 (by omega)]
    simp only [F.DSP_STR_FMT_NCH, pf]
    omega
  · rw [rd_of_reg (f := F.DSP_STR_FMT_AMODE sid) hfmt, bits_w32 (by omega)]
    simp only [F.DSP_STR_FMT_AMODE, pf]
    omega
  · rw [strs, moved.strs]
    rfl
  · have away : ¬ Reg.PWR_STATE ∈ strRegs sid := fun mem => absurd (strRegs_ge mem) (by decide)
    exact moved.widen.trans (opens.mono (Q := (· ∈ strRegs sid)) (fun a (e : a = Reg.DSP_STR_STAT sid) => e ▸ strRegs_of 2 (eq := by
      unfold Reg.DSP_STR_STAT; omega)) away)

theorem openContext_pap (s : State) (sid stype sidx dtype didx nch width inv vpol asfirst amode hfs : Nat) :
    (s.openContext sid stype sidx dtype didx nch width inv vpol asfirst amode hfs).pap = s.pap :=
  (Local.openContext (m := {}) (R := fun _ => True) (.refl s) fun _ _ => trivial).pap

theorem openStr_cfggen (s : State) (x : StreamX) : (s.openStr x).pap.cfggen = s.pap.cfggen :=
  (strState_kept (s := { s with strs := s.strs ++ [x] }) stmWait 0x00).2

theorem opened_cfggen (s : State) (ws : List Word) (sid asf : Nat) : (s.opened ws sid asf).pap.cfggen = s.pap.cfggen :=
  (openStr_cfggen _ _).trans (congrArg Papol.cfggen (openContext_pap s _ _ _ _ _ _ _ _ _ _ _ _))

end

section
variable (s : State) (c : CmdSpec) (p : Packet)

theorem admitted_endCount (type : Nat) : (s.admitted c p).endCount type = s.endCount type := by
  unfold State.endCount
  rw [rd_card s c p (f := F.IN_TDM_FMT_SLOTS 0), rd_card s c p (f := F.IN_TDM_FMT_SLOTS 1)]

theorem admitted_endOk (type idx nch : Nat) (source : Bool) : (s.admitted c p).endOk type idx nch source = s.endOk type idx nch source := by
  unfold State.endOk
  rw [admitted_ringOn, on_card s c p (f := F.DSP_RING_CFG_DIR idx) (steady_ringCfg idx), admitted_endCount]

theorem admitted_audTimed (type : Nat) (source : Bool) : (s.admitted c p).audTimed type source = s.audTimed type source := by
  unfold State.audTimed
  rw [on_card s c p (f := F.IN_TDM_CLK_MASTER 0), on_card s c p (f := F.IN_TDM_CLK_MASTER 1)]

theorem admitted_asrcFree (a n : Nat) : (s.admitted c p).asrcFree a n = s.asrcFree a n := by
  have taken : ∀ k, (s.admitted c p).asrcTaken k = s.asrcTaken k := fun k => by
    have amode : ∀ y, (s.admitted c p).rd (F.DSP_STR_FMT_AMODE y) = s.rd (F.DSP_STR_FMT_AMODE y) := fun y => rd_card s c p (steady_str y 4)
    have first : ∀ y, (s.admitted c p).rd (F.DSP_STR_FMT_ASFIRST y) = s.rd (F.DSP_STR_FMT_ASFIRST y) := fun y => rd_card s c p (steady_str y 4)
    unfold State.asrcTaken
    simp only [admitted_strs, amode, first, admitted_strCh]
  unfold State.asrcFree
  simp only [taken]

theorem admitted_asrcPick (req n : Nat) : (s.admitted c p).asrcPick req n = s.asrcPick req n := by
  unfold State.asrcPick
  simp only [admitted_asrcFree]

end

/-- An ASRC channel that is picked is one of the 32. -/
theorem asrcPick_lt {s : State} {req n a : Nat} (h : s.asrcPick req n = some a) : a < 64 := by
  have free : ∀ b, s.asrcFree b n = true → b < 64 := fun b k => by
    unfold State.asrcFree at k
    have := of_decide_eq_true (Bool.and_eq_true_iff.1 k).1
    omega
  unfold State.asrcPick at h
  split at h
  · exact Nat.lt_trans (List.mem_range.1 (List.mem_of_find?_eq_some h)) (by decide)
  · split at h
    · exact Option.some.inj h ▸ free _ ‹_›
    · exact absurd h (by simp)

theorem endDomain_high {type idx nch d : Nat} {source : Bool} (h : d ∈ endDomain type idx nch source) : 0x10 ≤ d := by
  unfold endDomain dmTdm dmSpdRx dmSpdTx dmPdm dmAadc at h
  split at h
  · simp only [List.mem_singleton] at h; omega
  · split at h
    · simp only [List.mem_singleton] at h; omega
    · split at h
      · split at h <;> (simp only [List.mem_singleton] at h; omega)
      · split at h
        · simp only [List.mem_singleton] at h; omega
        · split at h
          · obtain ⟨k, -, rfl⟩ := List.mem_map.1 h
            omega
          · exact absurd h (by simp)

/-- The domains of a stream that opens. -/
def streamDomains (ws : List Word) : List Nat :=
  endDomain (pf ws 1 28 4) (pf ws 1 20 6) (pf ws 2 16 5 + 1) true ++ endDomain (pf ws 1 12 4) (pf ws 1 4 6) (pf ws 2 16 5 + 1) false ++
    (if pf ws 3 8 2 = 0 then [] else [dmAsrc])

theorem streamDomains_high {ws : List Word} {d : Nat} (h : d ∈ streamDomains ws) : 0x10 ≤ d := by
  unfold streamDomains at h
  rcases List.mem_append.1 h with e | e
  · exact (List.mem_append.1 e).elim endDomain_high endDomain_high
  · split at e
    · exact absurd e (by simp)
    · rw [List.mem_singleton.1 e]
      decide

/-- The fields and the resources with which STREAM_OPEN opens a stream. -/
structure Opens (s : State) (ws : List Word) (sid asf : Nat) : Prop where
  source : s.endOk (pf ws 1 28 4) (pf ws 1 20 6) (pf ws 2 16 5 + 1) true = true
  dest   : s.endOk (pf ws 1 12 4) (pf ws 1 4 6) (pf ws 2 16 5 + 1) false = true
  ports  : ¬ (1 ≤ pf ws 1 28 4 ∧ pf ws 1 28 4 ≤ 3 ∧ 1 ≤ pf ws 1 12 4 ∧ pf ws 1 12 4 ≤ 3)
  width  : pf ws 2 8 2 ≠ 3
  hfs    : pf ws 1 28 4 = 6 ∨ pf ws 1 12 4 = 6 → rateHz (pf ws 3 0 4) ≠ 0
  clocks : asrcOk (pf ws 3 8 2) (if pf ws 1 28 4 = 6 ∧ pf ws 3 8 2 ≠ 0 then rateHz (pf ws 3 0 4)
    else s.endRate (pf ws 1 28 4) (pf ws 1 20 6) true (pf ws 3 0 4)) (s.endRate (pf ws 1 12 4) (pf ws 1 4 6) false (pf ws 3 0 4))
    (!s.audTimed (pf ws 1 28 4) true || !s.audTimed (pf ws 1 12 4) false) = true
  start  : pf ws 4 0 2 ≠ 3
  pick   : s.sidPick (pf ws 0 0 7) = some sid
  first  : s.claimed (pf ws 1 28 4) (pf ws 1 20 6) (pf ws 2 16 5 + 1) true = false
  last   : s.claimed (pf ws 1 12 4) (pf ws 1 4 6) (pf ws 2 16 5 + 1) false = false
  asrc   : if pf ws 3 8 2 = 0 then asf = 0x3F else s.asrcPick (pf ws 3 16 6) (pf ws 2 16 5 + 1) = some asf
  free   : s.pendFor? [.stream sid] = none

theorem Opens.admitted {s : State} {ws : List Word} {sid asf : Nat} (h : Opens s ws sid asf) (c : CmdSpec) (p : Packet) :
    Opens (s.admitted c p) ws sid asf := by
  obtain ⟨source, dest, ports, width, hfs, clocks, start, pick, first, last, asrc, free⟩ := h
  refine ⟨by rwa [admitted_endOk], by rwa [admitted_endOk], ports, width, hfs, ?_, start, by rwa [admitted_sidPick], by rwa [admitted_claimed],
    by rwa [admitted_claimed], by rwa [admitted_asrcPick], by rwa [admitted_pendFor]⟩
  rwa [admitted_endRate, admitted_endRate, admitted_audTimed, admitted_audTimed]

theorem Opens.few {s : State} {ws : List Word} {sid asf : Nat} (h : Opens s ws sid asf) : asf < 64 := by
  have asrc := h.asrc
  split at asrc
  · rw [asrc]; decide
  · exact asrcPick_lt asrc

theorem streamOpenBody_opens {s : State} {ws : List Word} {sid asf : Nat} (h : Opens s ws sid asf)
    (up : s.needAll (streamDomains ws) = some s) :
    streamOpenBody ws s = .done stsOk 0 [w32 (asf * 2 ^ 24 + sid)] [] (s.opened ws sid asf) := by
  obtain ⟨source, dest, ports, width, hfs, clocks, start, pick, first, last, asrc, free⟩ := h
  have channel : (if pf ws 3 8 2 = 0 then some 0x3F else s.asrcPick (pf ws 3 16 6) (pf ws 2 16 5 + 1)) = some asf := by
    split at asrc
    · rw [if_pos ‹_›, asrc]
    · rw [if_neg ‹_›, asrc]
  unfold streamOpenBody
  dsimp only
  rw [if_neg (by rintro (e | e | e); exacts [e source, e dest, ports e]), if_neg width,
    if_neg (by rintro ⟨host, zero⟩; exact hfs host zero), if_neg (fun k => k clocks), if_neg start]
  unfold streamOpenAt
  rw [pick]
  dsimp only
  rw [if_neg (by rw [first, last]; decide), channel]
  dsimp only
  rw [unlessBusy_none free]
  exact withDomains_all up

theorem streamOpen_answers {p : Packet} {s : State} {sid asf : Nat} (acc : Accepted cardStreamOpen p s) (opens : Opens s p.payload sid asf)
    (up : ∀ d ∈ streamDomains p.payload, DomUp s d) :
    Answers (.streamOpen p) cardStreamOpen p s 0 0 [w32 (asf * 2 ^ 24 + sid)] fun t =>
      StrOpened s t p.payload sid ∧ t.pap.cfggen = s.pap.cfggen + 1 := by
  let a := s.admitted cardStreamOpen p
  have ready : a.needAll (streamDomains p.payload) = some a := admitted_needAll s _ p fun d mem => ⟨streamDomains_high mem, up d mem⟩
  have done := streamOpenBody_opens (opens.admitted cardStreamOpen p) ready
  have shows := opened_shows a p.payload sid opens.few
  have count := (opened_cfggen a p.payload sid asf).trans (admitted_cfggen s _ p)
  refine answers_of_configured rfl acc done rfl (by decide) fun t but cfg => ⟨?_, cfg.trans (congrArg (· + 1) count)⟩
  obtain ⟨state, cnt, idx, good, stype, sidx, dtype, didx, nch, amode, strs, frame⟩ := shows.papol but
  have away : ¬ Reg.PWR_STATE ∈ strRegs sid := fun mem => absurd (strRegs_ge mem) (by decide)
  exact ⟨state, cnt, idx, good, stype, sidx, dtype, didx, nch, amode, strs.trans (by rw [admitted_strs]), (Frame.admitted away s _ p).trans frame⟩

/-- Settles O19: a stream that opens has its context and stands last; a stream that ends is told, taken out, and its close's command ends. -/
theorem streamsOpenAndEnd : Obligations.StreamsOpenAndEnd := by
  refine ⟨?_, fun p s sid x open' => ⟨fun acc soft named free runs => ?_, fun acc soft named free stopped => ?_, fun acc named => ?_,
    fun closing => ?_⟩⟩
  · intro p s sid asf acc ws st si dt di nch amode hfs source dest ports width rate clocks start pick first last asrc free up
    have answers := streamOpen_answers acc ⟨source, dest, ports, width, rate, clocks, start, pick, first, last, asrc, free⟩ up
    refine answers.imp fun t ⟨h, count⟩ => ?_
    exact ⟨h.state, h.cnt, h.idx, h.good, h.stype, h.sidx, h.dtype, h.didx, h.nch, h.amode, h.strs, count, h.frame.touches, h.frame.rest⟩
  · exact (streamClose_answers open' sid.isLt acc soft named free runs).imp fun t h => h.tells
  · exact streamClose_awaits open' acc soft named free stopped
  · exact (streamCloseForce_answers open' sid.isLt acc named).imp fun t h => ⟨h.1.tells, h.2⟩
  · obtain ⟨t, next, ends, ended, count⟩ := streamCloseDone_ends open' closing
    exact ⟨t, next, ends.tells, ended, count⟩

end Sys2Proof.Machine
end

section
/-!
# What ages: counters, ring oscillators, switches (spec/17_service_life.md, R740 to R748, R760, R763)
-/

namespace Sys2Proof.Machine

-- One theorem after the other: in one text, theorems that wait for the kernel would each hold a thread.
set_option Elab.async false

/-! ## Reports -/

/-- `n` register words from `a`. -/
def State.regWords (s : State) (a n : Nat) : List Word := (List.range n).map fun i => s.reg (a + 4 * i)

theorem admitted_regWords (s : State) (c : CmdSpec) (p : Packet) {a : Nat} (h : 0x100440 ≤ a) (n : Nat) :
    (s.admitted c p).regWords a n = s.regWords a n :=
  List.map_congr_left fun i _ => reg_card s c p (steady_above (Nat.le_trans h (Nat.le_add_right a (4 * i))))

theorem regWords_length (s : State) (a n : Nat) : (s.regWords a n).length = n := by
  unfold State.regWords
  rw [List.length_map, List.length_range]

theorem regWords_first (s : State) (a n : Nat) (ws : List Word) : pw (s.regWords a (n + 1) ++ ws) 0 = s.reg a := by
  unfold State.regWords
  rw [List.range_succ_eq_map]
  rfl

/-- The words that AGEING_READ answers. -/
def State.ageWords (s : State) (sel : Nat) : List Word :=
  if sel ≤ 2 then s.regWords (Reg.SAFE_AGE_RON_P (4 * sel)) 8
  else if sel = 3 then s.regWords (Reg.SAFE_AGE_RING 0) 8
  else if sel = 4 then s.regWords (Reg.SAFE_AGE_RING 8) 4 ++ ([s.reg Reg.SAFE_AGE_STAT] ++ s.regWords (Reg.SAFE_AGE_RONX 0) 3)
  else if sel = 5 then s.regWords (Reg.SAFE_AGE_DER 0) 8
  else s.regWords (Reg.SAFE_AGE_DER 8) 4 ++ [0, 0, 0, 0]

theorem ageWords_shows (s : State) {sel : Nat} (h : sel ≤ 6) : (s.ageWords sel).length = 8 ∧ pw (s.ageWords sel) 0 =
    s.reg (if sel ≤ 2 then Reg.SAFE_AGE_RON_P (4 * sel) else if sel ≤ 4 then Reg.SAFE_AGE_RING (8 * (sel - 3)) else Reg.SAFE_AGE_DER (8 * (sel - 5))) := by
  have alone : ∀ a, (s.regWords a 8).length = 8 ∧ pw (s.regWords a 8) 0 = s.reg a := fun a =>
    ⟨regWords_length s a 8, by have := regWords_first s a 7 []; rwa [List.append_nil] at this⟩
  unfold State.ageWords
  by_cases legs : sel ≤ 2
  · rw [if_pos legs, if_pos legs]
    exact alone _
  · obtain rfl | rfl | rfl | rfl : sel = 3 ∨ sel = 4 ∨ sel = 5 ∨ sel = 6 := by omega
    · exact alone _
    · exact ⟨rfl, regWords_first s _ 3 _⟩
    · exact alone _
    · exact ⟨rfl, regWords_first s _ 3 _⟩

theorem admitted_ageWords (s : State) (c : CmdSpec) (p : Packet) (sel : Nat) : (s.admitted c p).ageWords sel = s.ageWords sel := by
  have ron : 0x100440 ≤ Reg.SAFE_AGE_RON_P (4 * sel) := by unfold Reg.SAFE_AGE_RON_P; omega
  unfold State.ageWords
  rw [admitted_regWords s c p ron, admitted_regWords s c p (a := Reg.SAFE_AGE_RING 0) (by decide), admitted_regWords s c p (a := Reg.SAFE_AGE_RING 8) (by decide),
    reg_card s c p (a := Reg.SAFE_AGE_STAT), admitted_regWords s c p (a := Reg.SAFE_AGE_RONX 0) (by decide),
    admitted_regWords s c p (a := Reg.SAFE_AGE_DER 0) (by decide), admitted_regWords s c p (a := Reg.SAFE_AGE_DER 8) (by decide)]

theorem ageingRead_answers {p : Packet} {s : State} (acc : Accepted cardAgeingRead p s) (sel : bits (pw p.payload 0) 0 3 ≤ 6) :
    ∃ ws, ws.length = 8 ∧ pw ws 0 = s.reg (if bits (pw p.payload 0) 0 3 ≤ 2 then Reg.SAFE_AGE_RON_P (4 * bits (pw p.payload 0) 0 3)
        else if bits (pw p.payload 0) 0 3 ≤ 4 then Reg.SAFE_AGE_RING (8 * (bits (pw p.payload 0) 0 3 - 3))
        else Reg.SAFE_AGE_DER (8 * (bits (pw p.payload 0) 0 3 - 5))) ∧
      Answers (.ageingRead p) cardAgeingRead p s 0 0 ws (PapolBut papolReg (papolByte s) s) := by
  let a := s.admitted cardAgeingRead p
  obtain ⟨len, first⟩ := ageWords_shows s sel
  refine ⟨_, len, first, answers_unchanged (cl := []) rfl acc ?_⟩
  rw [← admitted_ageWords s cardAgeingRead p]
  show _ = Res.done stsOk 0 (a.ageWords (pf p.payload 0 0 3)) [] a
  change pf p.payload 0 0 3 ≤ 6 at sel
  dsimp only
  generalize pf p.payload 0 0 3 = n at sel
  unfold State.ageWords
  by_cases legs : n ≤ 2
  · rw [if_pos legs, if_pos legs]
    rfl
  · obtain rfl | rfl | rfl | rfl : n = 3 ∨ n = 4 ∨ n = 5 ∨ n = 6 := by omega
    · rfl
    · rfl
    · rfl
    · rfl

theorem repairStatus_answers {p : Packet} {s : State} (acc : Accepted cardRepairStatus p s) :
    ∃ ws, ws.length = 6 ∧ pw ws 3 = w32 (s.mrole 1 * 4 + s.mrole 0) ∧ pw ws 5 = w32 s.age.worn ∧
      Answers (.repairStatus p) cardRepairStatus p s 0 0 ws (PapolBut papolReg (papolByte s) s) := by
  let a := s.admitted cardRepairStatus p
  have role : ∀ k, steady (F.SAFE_MADC_STAT_ROLE k).addr = true → a.mrole k = s.mrole k := fun k h => rd_card s _ p h
  refine ⟨_, ?_, ?_, ?_, answers_unchanged (cl := []) rfl acc rfl⟩
  · rfl
  · show w32 (a.mrole 1 * 4 + a.mrole 0) = _
    rw [role 1 (by decide), role 0 (by decide)]
  · show w32 a.age.worn = _
    rw [admitted_age]

/-! ## Bask counters -/

/-- The counters of a location cleared. -/
def State.baskCleared (s : State) (l : Nat) : State := forEach (fun b z => z.wr64 (Reg.SAFE_BASK_LO (8 * l + b)) 0) 8 s

theorem baskCleared_local (s : State) (l : Nat) :
    Local {} (fun a => Reg.SAFE_BASK_LO (8 * l) ≤ a ∧ a < Reg.SAFE_BASK_LO (8 * l) + 64) s (s.baskCleared l) :=
  Local.forEach (fun b z lt k => k.wr64 (by simp only [Reg.SAFE_BASK_LO]; omega) (by simp only [Reg.SAFE_BASK_LO]; omega)) (.refl s)

theorem baskCleared_zero (s : State) (l : Nat) {b : Nat} (lt : b < 8) : (s.baskCleared l).rd64 (Reg.SAFE_BASK_LO (8 * l + b)) = 0 := by
  have upTo : ∀ n, b < n → (forEach (fun b z => z.wr64 (Reg.SAFE_BASK_LO (8 * l + b)) 0) n s).rd64 (Reg.SAFE_BASK_LO (8 * l + b)) = 0 := fun n => by
    induction n with
    | zero => exact fun h => absurd h (Nat.not_lt_zero b)
    | succ n ih =>
      intro h
      unfold forEach
      by_cases here : b = n
      · rw [here]
        exact State.rd64_wr64 _ (by decide)
      · rw [State.rd64_wr64_ne _ _ (by simp only [Reg.SAFE_BASK_LO]; omega)]
        exact ih (by omega)
  exact upTo 8 lt

theorem baskRead_answers {p : Packet} {s : State} (acc : Accepted cardBaskRead p s) : let l := bits (pw p.payload 0) 0 2
    ∃ ws, ws = ((List.range 16).map fun j => s.reg (Reg.SAFE_BASK_LO (8 * l) + 4 * j)) ∧
      Answers (.baskRead p) cardBaskRead p s 0 0 ws fun t => SameRegsBut (fun a => papolReg a ∨
          (bit (pw p.payload 0) 31 = true ∧ Reg.SAFE_BASK_LO (8 * l) ≤ a ∧ a < Reg.SAFE_BASK_LO (8 * l) + 64)) s t ∧ s.over t = s ∧
        (bit (pw p.payload 0) 31 = true → ∀ b, b < 8 → t.rd64 (Reg.SAFE_BASK_LO (8 * l + b)) = 0) := by
  intro l
  let a := s.admitted cardBaskRead p
  have words : a.regWords (Reg.SAFE_BASK_LO (8 * l)) 16 = s.regWords (Reg.SAFE_BASK_LO (8 * l)) 16 :=
    admitted_regWords s _ p (by unfold Reg.SAFE_BASK_LO; omega) 16
  have done : Res.done stsOk 0 (a.regWords (Reg.SAFE_BASK_LO (8 * l)) 16) [] (if pb p.payload 0 31 then a.baskCleared l else a) =
      .done stsOk 0 (s.regWords (Reg.SAFE_BASK_LO (8 * l)) 16) [] (if pb p.payload 0 31 then a.baskCleared l else a) := by rw [words]
  refine ⟨_, rfl, answers_of_done rfl acc done fun t but => ?_⟩
  by_cases clear : pb p.payload 0 31 = true
  · rw [if_pos clear] at but
    have away : ¬ (bit (pw p.payload 0) 31 = true ∧ Reg.SAFE_BASK_LO (8 * l) ≤ Reg.PWR_STATE ∧ Reg.PWR_STATE < Reg.SAFE_BASK_LO (8 * l) + 64) := by
      rintro ⟨-, lo, -⟩
      unfold Reg.SAFE_BASK_LO Reg.PWR_STATE at lo
      omega
    have frame : Frame {} (fun a => bit (pw p.payload 0) 31 = true ∧ Reg.SAFE_BASK_LO (8 * l) ≤ a ∧ a < Reg.SAFE_BASK_LO (8 * l) + 64) s
        (a.baskCleared l) := ((baskCleared_local a l).mono fun _ r => ⟨clear, r⟩).within (Frame.admitted away s _ p)
    refine ⟨(frame.papol but).regs, (frame.papol but).rest, fun _ b lt => ?_⟩
    refine (but.rd64_steady (steady_above ?_) (steady_above ?_)).trans (baskCleared_zero a l lt)
    all_goals (unfold Reg.SAFE_BASK_LO; omega)
  · rw [if_neg clear] at but
    have frame : Frame {} (fun _ => False) s t := (Frame.admitted id s _ p).papol but
    exact ⟨frame.regs.mono fun _ r => r.elim .inl (·.elim), frame.rest, fun set => absurd set clear⟩

theorem baskBin_lt (t : Int) : baskBin t < 8 := Nat.lt_succ_of_le (List.length_filter_le _ _)

/-- The counters' registers. -/
def baskReg (a : Nat) : Prop := Reg.SAFE_BASK_LO 0 ≤ a ∧ a < Reg.SAFE_BASK_LO 32

theorem baskReg_counter {l : Nat} (few : l < 4) (t : Int) : baskReg (Reg.SAFE_BASK_LO (8 * l + baskBin t)) ∧
    baskReg (Reg.SAFE_BASK_LO (8 * l + baskBin t) + 4) := by
  have bin := baskBin_lt t
  unfold baskReg Reg.SAFE_BASK_LO
  omega

/-- The temperature of a location. -/
def State.baskTemp (s : State) (core : Int) (l : Nat) : Int := if l = 3 then core else (s.rd (F.OUT_G_THERM_TJ l) : Int) - 64

/-- A tick counts at one location. -/
def State.baskStep (s : State) (core : Int) (l : Nat) (z : State) : State :=
  z.wr64 (Reg.SAFE_BASK_LO (8 * l + baskBin (s.baskTemp core l))) (s.rd64 (Reg.SAFE_BASK_LO (8 * l + baskBin (s.baskTemp core l))) + 1)

theorem baskStep_core (s : State) (core : Int) (z : State) :
    s.baskStep core 3 z = z.wr64 (Reg.SAFE_BASK_LO (24 + baskBin core)) (s.rd64 (Reg.SAFE_BASK_LO (24 + baskBin core)) + 1) := by
  unfold State.baskStep State.baskTemp
  rw [if_pos rfl]

theorem execBaskTick_eq {s : State} (core : Int) (awake : stListen ≤ s.pstate) :
    exec (.baskTick core) s = .next (forEach (fun l z => s.baskStep core l z) 4 s) := by
  show execBaskTick core s = _
  unfold execBaskTick
  rw [if_neg (Nat.not_lt.2 awake)]
  rfl

theorem forEach_succ {α : Type} (f : Nat → α → α) (n : Nat) (a : α) : forEach f (n + 1) a = f n (forEach f n a) := rfl

/-- The last counter that a tick moves is CORE's. -/
theorem baskTick_eq {s : State} (core : Int) (awake : stListen ≤ s.pstate) : ∃ z, Local {} baskReg s z ∧
    exec (.baskTick core) s = .next (z.wr64 (Reg.SAFE_BASK_LO (24 + baskBin core)) (s.rd64 (Reg.SAFE_BASK_LO (24 + baskBin core)) + 1)) := by
  refine ⟨forEach (fun l z => s.baskStep core l z) 3 s, Local.forEach (fun l z lt k => ?_) (.refl s), ?_⟩
  · obtain ⟨lo, hi⟩ := baskReg_counter (Nat.lt_trans lt (by decide)) (s.baskTemp core l)
    exact k.wr64 lo hi
  · rw [execBaskTick_eq core awake, ← baskStep_core]
    exact congrArg Host.Outcome.next (forEach_succ _ 3 s)

theorem baskTick_counts {s : State} (core : Int) (awake : stListen ≤ s.pstate) : ∃ t, exec (.baskTick core) s = .next t ∧
    t.rd64 (Reg.SAFE_BASK_LO (24 + baskBin core)) = (s.rd64 (Reg.SAFE_BASK_LO (24 + baskBin core)) + 1) % 2 ^ 64 ∧
    SameRegsBut (fun a => Reg.SAFE_BASK_LO 0 ≤ a ∧ a < Reg.SAFE_BASK_LO 32) s t ∧ { t with regs := s.regs } = s := by
  obtain ⟨z, before, next⟩ := baskTick_eq core awake
  have own : baskReg (Reg.SAFE_BASK_LO (24 + baskBin core)) ∧ baskReg (Reg.SAFE_BASK_LO (24 + baskBin core) + 4) := by
    have bin := baskBin_lt core
    unfold baskReg Reg.SAFE_BASK_LO
    omega
  generalize Reg.SAFE_BASK_LO (24 + baskBin core) = a at own next ⊢
  have moved := before.wr64 (v := s.rd64 a + 1) own.1 own.2
  have counted := z.rd64_wr64_mod a (s.rd64 a + 1)
  generalize z.wr64 a (s.rd64 a + 1) = t at moved counted next
  have regs : SameRegsBut baskReg s t := fun b away => .inl (moved.regs b away)
  exact ⟨t, next, counted, regs, moved.regsOnly⟩

/-! ## Ring oscillators -/

theorem modAge_age (s : State) (f : AgeX → AgeX) : (s.modAge f).age = f s.age := rfl
theorem modAge_reg (s : State) (f : AgeX → AgeX) (a : Nat) : (s.modAge f).reg a = s.reg a := rfl
theorem modAge_rd (s : State) (f : AgeX → AgeX) (x : Field) : (s.modAge f).rd x = s.rd x := rfl
theorem modAge_on (s : State) (f : AgeX → AgeX) (x : Field) : (s.modAge f).on x = s.on x := rfl
theorem modAge_pap (s : State) (f : AgeX → AgeX) : (s.modAge f).pap = s.pap := rfl

theorem Local.modAge {m : Parts} {R : Nat → Prop} {s t : State} (h : Local m R s t) (f : AgeX → AgeX) (hm : m.age = true := by rfl) :
    Local m R s (t.modAge f) :=
  h.upd (by simp only [State.modAge, State.but, hm, cond_true, Bool.cond_self])

theorem Frame.modAge {m : Parts} {R : Nat → Prop} {s t : State} (h : Frame m R s t) (f : AgeX → AgeX) (hm : m.age = true := by rfl) :
    Frame m R s (t.modAge f) :=
  h.upd (by simp only [State.modAge, State.but, hm, cond_true, Bool.cond_self])

/-- A pair's part of a window. -/
def State.ringStep (s : State) (w : RingWindow) (p : Nat) (z : State) : State :=
  if s.pairOn p = false then z.clr (F.SAFE_AGE_RING_VALID p)
  else if s.windowLost w then z
  else (w.counts[p]?).elim z fun c => z.ringAccept p (s.deltaOf p c.1 c.2) w.temp1

theorem ringWindow_eq (s : State) (w : RingWindow) : s.ringWindow w = forEach (s.ringStep w) 12 s := by
  unfold State.ringWindow
  congr 1
  funext p z
  unfold State.ringStep
  split
  · rfl
  · split
    · rfl
    · cases w.counts[p]? with
      | none => rfl
      | some c => rfl

/-- What two states share for pair `k`, and the time. -/
structure RingSame (k : Nat) (s t : State) : Prop where
  reg    : t.reg (Reg.SAFE_AGE_RING k) = s.reg (Reg.SAFE_AGE_RING k)
  deltas : vat t.age.deltas k = vat s.age.deltas k
  okAt   : vat t.age.okAt k = vat s.age.okAt k
  now    : t.now = s.now

/-- A window of a pair accepted, up to what it shows of DELTA. -/
def State.ringTaken (z : State) (p : Nat) (d temp : Int) : State :=
  (z.modAge fun q => { q with deltas := vmod q.deltas p fun _ => (d :: vat z.age.deltas p).take 3, okAt := vmod q.okAt p fun _ => z.now }).wr
    (F.SAFE_AGE_RING_TJ p) (temp + 64).toNat

/-- DELTA of a pair shown. -/
def State.ringShown (z : State) (p v : Nat) : State := (z.wr (F.SAFE_AGE_RING_DELTA p) v).set1 (F.SAFE_AGE_RING_VALID p)

theorem ringAccept_eq (z : State) (p : Nat) (d temp : Int) :
    z.ringAccept p d temp = z.ringTaken p d temp ∨ ∃ v, z.ringAccept p d temp = (z.ringTaken p d temp).ringShown p v := by
  unfold State.ringAccept
  dsimp only
  split
  · exact .inr ⟨_, rfl⟩
  · exact .inl rfl

theorem ringAccept_three {z : State} {p : Nat} {d a b : Int} (temp : Int) (two : (vat z.age.deltas p).take 2 = [a, b]) :
    z.ringAccept p d temp = (z.ringTaken p d temp).ringShown p (BitVec.ofInt 16 (median3 d a b)).toNat := by
  have three : (d :: vat z.age.deltas p).take 3 = [d, a, b] := congrArg (d :: ·) two
  unfold State.ringAccept State.ringTaken
  dsimp only
  rw [three]
  rfl

theorem ring_ne {k p : Nat} (h : k ≠ p) : Reg.SAFE_AGE_RING k ≠ Reg.SAFE_AGE_RING p := by
  unfold Reg.SAFE_AGE_RING
  omega

theorem ring_time (p : Nat) : Reg.CTL_SYS_TIME_LO ≠ Reg.SAFE_AGE_RING p ∧ Reg.CTL_SYS_TIME_LO + 4 ≠ Reg.SAFE_AGE_RING p := by
  unfold Reg.SAFE_AGE_RING Reg.CTL_SYS_TIME_LO
  omega

theorem wr_now (s : State) {f : Field} (v : Nat) (lo : Reg.CTL_SYS_TIME_LO ≠ f.addr) (hi : Reg.CTL_SYS_TIME_LO + 4 ≠ f.addr) :
    (s.wr f v).now = s.now := State.rd64_congr (State.reg_setReg_ne _ _ lo) (State.reg_setReg_ne _ _ hi)

theorem RingSame.wr {k p : Nat} {s t : State} (h : RingSame k s t) (ne : k ≠ p) {f : Field} (own : f.addr = Reg.SAFE_AGE_RING p) (v : Nat) :
    RingSame k s (t.wr f v) := by
  have time := ring_time p
  refine ⟨(State.reg_setReg_ne _ _ (by rw [own]; exact ring_ne ne)).trans h.reg, h.deltas, h.okAt, (wr_now t v ?_ ?_).trans h.now⟩
  · rw [own]; exact time.1
  · rw [own]; exact time.2

theorem ringAccept_other {k p : Nat} {s t : State} (h : RingSame k s t) (ne : k ≠ p) (d temp : Int) : RingSame k s (t.ringAccept p d temp) := by
  have taken : RingSame k s (t.modAge fun q => { q with
      deltas := vmod q.deltas p fun _ => (d :: vat t.age.deltas p).take 3, okAt := vmod q.okAt p fun _ => t.now }) :=
    ⟨h.reg, (vat_vmod_ne _ _ ne).trans h.deltas, (vat_vmod_ne _ _ ne).trans h.okAt, h.now⟩
  have first : RingSame k s (t.ringTaken p d temp) := taken.wr ne (f := F.SAFE_AGE_RING_TJ p) rfl (temp + 64).toNat
  rcases ringAccept_eq t p d temp with eq | ⟨v, eq⟩
  · rw [eq]; exact first
  · rw [eq]; exact (first.wr ne (f := F.SAFE_AGE_RING_DELTA p) rfl v).wr ne (f := F.SAFE_AGE_RING_VALID p) rfl 1

theorem ringStep_other {k p : Nat} {s t : State} (h : RingSame k s t) (ne : k ≠ p) (u : State) (w : RingWindow) : RingSame k s (u.ringStep w p t) := by
  unfold State.ringStep
  split
  · exact h.wr ne (f := F.SAFE_AGE_RING_VALID p) rfl 0
  · split
    · exact h
    · cases w.counts[p]? with
      | none => exact h
      | some c => exact ringAccept_other h ne _ _

/-- A loop in which step `k` alone concerns what `V` says. -/
theorem forEach_once {V : State → State → Prop} {f : Nat → State → State} {s : State} {k n : Nat} (lt : k < n)
    (other : ∀ i a z, i < n → i ≠ k → V a z → V a (f i z)) (refl : ∀ z, V z z) : ∃ z, V s z ∧ V (f k z) (forEach f n s) := by
  have before : ∀ m, m ≤ k → V s (forEach f m s) := fun m => by
    induction m with
    | zero => exact fun _ => refl s
    | succ m ih => exact fun le => other m s _ (by omega) (Nat.ne_of_lt le) (ih (Nat.le_of_succ_le le))
  have after : ∀ m, m ≤ n → k < m → V (f k (forEach f k s)) (forEach f m s) := fun m => by
    induction m with
    | zero => exact fun _ h => absurd h (Nat.not_lt_zero k)
    | succ m ih =>
      intro le h
      by_cases here : m = k
      · rw [here]
        exact refl _
      · exact other m _ _ (by omega) here (ih (by omega) (by omega))
  exact ⟨forEach f k s, before k (Nat.le_refl k), after n (Nat.le_refl n) lt⟩

theorem RingSame.refl (k : Nat) (s : State) : RingSame k s s := ⟨rfl, rfl, rfl, rfl⟩

/-- An accepted window of a pair: its DELTA joins the last ones, and with three the middle one is shown. -/
theorem ringAccept_shows (z : State) {p : Nat} (few : p < 12) (d temp : Int) :
    vat (z.ringAccept p d temp).age.deltas p = (d :: vat z.age.deltas p).take 3 ∧ vat (z.ringAccept p d temp).age.okAt p = z.now ∧
      (∀ a b, (vat z.age.deltas p).take 2 = [a, b] → (z.ringAccept p d temp).on (F.SAFE_AGE_RING_VALID p) = true ∧
        (z.ringAccept p d temp).rd (F.SAFE_AGE_RING_DELTA p) = (BitVec.ofInt 16 (median3 d a b)).toNat) := by
  have deltas : vat (z.ringTaken p d temp).age.deltas p = (d :: vat z.age.deltas p).take 3 := vat_vmod_same _ _ few
  have okAt : vat (z.ringTaken p d temp).age.okAt p = z.now := vat_vmod_same _ _ few
  have age : (z.ringAccept p d temp).age = (z.ringTaken p d temp).age := by
    rcases ringAccept_eq z p d temp with eq | ⟨v, eq⟩
    · rw [eq]
    · rw [eq]; exact (State.set1_age _ _).trans (State.wr_age _ _ _)
  refine ⟨by rw [age, deltas], by rw [age, okAt], fun a b two => ?_⟩
  rw [ringAccept_three temp two]
  unfold State.ringShown
  refine ⟨State.on_set1_same _ ⟨show 31 + 1 ≤ 32 by decide, show 0 < 1 by decide⟩, ?_⟩
  refine (State.rd_set1_off _ (apart_bits (f := F.SAFE_AGE_RING_VALID p) (g := F.SAFE_AGE_RING_DELTA p) (show 31 + 1 ≤ 32 by decide)
    (.inl (show 0 + 16 ≤ 31 by decide)))).trans ?_
  exact State.rd_wr_fits _ (f := F.SAFE_AGE_RING_DELTA p) (show 0 + 16 ≤ 32 by decide) (BitVec.ofInt 16 (median3 d a b)).isLt

theorem ringOscWindow_accepts {s : State} {k : Nat} (few : k < 12) (w : RingWindow) (awake : stListen ≤ s.pstate) (kept : s.windowLost w = false)
    (on : s.pairOn k = true) (lt : k < w.counts.length) :
    let d := s.deltaOf k (w.counts.getD k (0, 0)).1 (w.counts.getD k (0, 0)).2
    ∃ t, exec (.ringOscWindow w.counts w.temp0 w.temp1) s = .next t ∧ vat t.age.deltas k = (d :: vat s.age.deltas k).take 3 ∧
      vat t.age.okAt k = s.now ∧ (∀ a b, (vat s.age.deltas k).take 2 = [a, b] → t.on (F.SAFE_AGE_RING_VALID k) = true ∧
        t.rd (F.SAFE_AGE_RING_DELTA k) = (BitVec.ofInt 16 (median3 d a b)).toNat) := by
  intro d
  refine ⟨s.ringWindow w, congrArg Host.Outcome.next (if_pos awake), ?_⟩
  rw [ringWindow_eq]
  obtain ⟨z, before, after⟩ := forEach_once (V := RingSame k) (f := s.ringStep w) few
    (fun i a x _ ne h => ringStep_other h (Ne.symm ne) s w) (.refl k)
  have step : s.ringStep w k z = z.ringAccept k d w.temp1 := by
    unfold State.ringStep
    rw [if_neg (by rw [on]; decide), if_neg (by rw [kept]; decide), List.getElem?_eq_getElem lt]
    show z.ringAccept k (s.deltaOf k _ _) w.temp1 = z.ringAccept k (s.deltaOf k (w.counts.getD k (0, 0)).1 (w.counts.getD k (0, 0)).2) w.temp1
    rw [List.getD_eq_getElem _ _ lt]
  rw [step] at after
  obtain ⟨deltas, okAt, shows⟩ := ringAccept_shows z few d w.temp1
  refine ⟨after.deltas.trans (deltas.trans (by rw [before.deltas])), after.okAt.trans (okAt.trans before.now), fun a b two => ?_⟩
  obtain ⟨valid, delta⟩ := shows a b (by rw [before.deltas]; exact two)
  exact ⟨(on_same (f := F.SAFE_AGE_RING_VALID k) after.reg).trans valid, (rd_same (f := F.SAFE_AGE_RING_DELTA k) after.reg).trans delta⟩

/-! ## On-resistance -/

/-- The field of a switch. -/
def ronField (a : Nat) (high : Bool) : Field := ⟨a, if high then 16 else 0, 16⟩

theorem ronField_bits (a : Nat) (high : Bool) : (ronField a high).lo + (ronField a high).width ≤ 32 := by
  show (if high then 16 else 0) + 16 ≤ 32
  split <;> decide

theorem legNo_lt (s : State) {n : Nat} (few : n < 12) (leg : Bool) : s.legNo (n / 4) (nodeOf n (b2n leg)) < 27 := by
  have leg' : b2n leg ≤ 1 := by cases leg <;> decide
  unfold State.legNo nodeOf
  split <;> omega

theorem ronReg_range (s : State) {n : Nat} (few : n < 12) (leg : Nat) : 0x403040 ≤ s.ronReg n leg ∧ s.ronReg n leg < 0x4030B0 := by
  unfold State.ronReg Reg.SAFE_AGE_RONX Reg.SAFE_AGE_RON_P Reg.SAFE_AGE_RON_M
  split
  · omega
  · split <;> omega

theorem r25Of_le (samples : List (Nat × Nat)) (slices : Nat) (tj : Int) : r25Of samples slices tj < 2 ^ 16 := by
  unfold r25Of
  exact Nat.lt_succ_of_le (Nat.min_le_left _ _)

theorem inMask_or_self (m n : Nat) : inMask (m ||| 2 ^ n) n = true := by
  have bit : ∀ x, inMask x n = x.testBit n := fun x => by
    unfold inMask
    rw [Nat.testBit_eq_decide_div_mod_eq]
  rw [bit, Nat.testBit_or, Nat.testBit_two_pow_self, Bool.or_true]

/-- The samples of a switch. -/
def State.ronSamples (s : State) (i : Nat) (codes : RonCodes) : List (Nat × Nat) :=
  vat s.age.acc i ++ [(codes.age.toNat, ((codes.isns.toNat : Int) - 2048).natAbs)]

/-- The index of a switch. -/
def State.switchNo (s : State) (k : Nat) (legM high : Bool) : Nat := 2 * s.legNo (k / 4) (nodeOf k (b2n legM)) + b2n high

theorem switchNo_lt (s : State) {k : Nat} (few : k < 12) (legM high : Bool) : s.switchNo k legM high < 54 := by
  have leg := legNo_lt s few legM
  have side : b2n high ≤ 1 := by cases high <;> decide
  unfold State.switchNo
  omega

/-- The samples of a switch kept. -/
def State.ronKept (s : State) (i : Nat) (samples : List (Nat × Nat)) : State := s.modAge fun q => { q with acc := vmod q.acc i fun _ => samples }

/-- The result of a switch's samples. -/
def State.r25 (s : State) (k : Nat) (legM : Bool) (samples : List (Nat × Nat)) : Nat :=
  r25Of samples (sliceCount (s.legSlices (k / 4) (nodeOf k (b2n legM)))) ((s.rd (F.OUT_G_THERM_TJ (k / 4)) : Int) - 64)

/-- A result stored, and its samples gone. -/
def State.ronStored (s : State) (k : Nat) (legM high : Bool) (samples : List (Nat × Nat)) : State :=
  (s.wr (ronField (s.ronReg k (b2n legM)) high) (s.r25 k legM samples)).modAge fun q => { q with
    acc := vmod q.acc (s.switchNo k legM high) fun _ => [], seen := q.seen ||| 2 ^ s.master k }

section
variable {s : State} {n : Fin 12} {legM high : Bool} {code isns : BitVec 12}

theorem ronSample_out (out : 15 * ((isns.toNat : Int) - 2048).natAbs < 2048 ∨ 5 * 2048 < 2 * 15 * ((isns.toNat : Int) - 2048).natAbs) :
    exec (.ronSample n legM high ⟨code, isns⟩) s = .next s := if_pos (.inr (.inr (.inr out)))

theorem ronSample_eq (play : s.phase (s.master n.val) = phPlay) (on : s.suspended = false) (calm : s.inSeq (s.master n.val) = false)
    (lo : 2048 ≤ 15 * ((isns.toNat : Int) - 2048).natAbs) (hi : 2 * 15 * ((isns.toNat : Int) - 2048).natAbs ≤ 5 * 2048) :
    exec (.ronSample n legM high ⟨code, isns⟩) s =
      if (s.ronSamples (s.switchNo n.val legM high) ⟨code, isns⟩).length < 256 then
        .next (s.ronKept (s.switchNo n.val legM high) (s.ronSamples (s.switchNo n.val legM high) ⟨code, isns⟩))
      else .next ((s.ronStored n.val legM high (s.ronSamples (s.switchNo n.val legM high) ⟨code, isns⟩)).showRho (s.master n.val)) := by
  refine if_neg ?_
  rintro (e | e | e | e | e)
  · exact e play
  · exact absurd (e.symm.trans on) (by decide)
  · exact absurd (e.symm.trans calm) (by decide)
  · exact Nat.not_le.2 e lo
  · exact Nat.not_lt.2 hi e

theorem ronStored_shows (k : Nat) (few : k < 12) (samples : List (Nat × Nat)) :
    vat (s.ronStored k legM high samples).age.acc (s.switchNo k legM high) = [] ∧
      inMask (s.ronStored k legM high samples).age.seen (s.master k) = true ∧
      (s.ronStored k legM high samples).rd (ronField (s.ronReg k (b2n legM)) high) = s.r25 k legM samples ∧
      Local { age := true } (· = s.ronReg k (b2n legM)) s (s.ronStored k legM high samples) := by
  have bits := ronField_bits (s.ronReg k (b2n legM)) high
  unfold State.ronStored
  rw [modAge_age, State.wr_age, modAge_rd]
  exact ⟨vat_vmod_same s.age.acc _ (switchNo_lt s few legM high), inMask_or_self _ _, State.rd_wr_fits s bits (r25Of_le _ _ _),
    ((Local.refl (m := { age := true }) (R := (· = s.ronReg k (b2n legM))) s).wr (f := ronField (s.ronReg k (b2n legM)) high) rfl).modAge _⟩

theorem showRho_local {m : Parts} (s : State) (n : Nat) : Local m (· = Reg.SAFE_AGE_DER n) s (s.showRho n) := by
  unfold State.showRho
  exact .ite ((Local.refl s).wr (f := F.SAFE_AGE_DER_RHO n) rfl) (.refl s)

theorem ronSample_stores (play : s.phase (s.master n.val) = phPlay) (on : s.suspended = false) (calm : s.inSeq (s.master n.val) = false)
    (lo : 2048 ≤ 15 * ((isns.toNat : Int) - 2048).natAbs) (hi : 2 * 15 * ((isns.toNat : Int) - 2048).natAbs ≤ 5 * 2048) :
    let samples := s.ronSamples (s.switchNo n.val legM high) ⟨code, isns⟩
    ∃ t, exec (.ronSample n legM high ⟨code, isns⟩) s = .next t ∧ { t with regs := s.regs, age := s.age } = s ∧
      (samples.length < 256 → vat t.age.acc (s.switchNo n.val legM high) = samples ∧ t.regs = s.regs) ∧
      (256 ≤ samples.length → vat t.age.acc (s.switchNo n.val legM high) = [] ∧ inMask t.age.seen (s.master n.val) = true ∧
        t.rd (ronField (s.ronReg n.val (b2n legM)) high) = s.r25 n.val legM samples ∧
        SameRegsBut (fun a => a = s.ronReg n.val (b2n legM) ∨ a = Reg.SAFE_AGE_DER (s.master n.val)) s t) := by
  intro samples
  have run := ronSample_eq (code := code) (legM := legM) (high := high) play on calm lo hi
  by_cases short : samples.length < 256
  · rw [if_pos short] at run
    exact ⟨_, run, rfl, fun _ => ⟨vat_vmod_same s.age.acc _ (switchNo_lt s n.isLt legM high), rfl⟩, fun long => absurd short (Nat.not_lt.2 long)⟩
  · rw [if_neg short] at run
    obtain ⟨acc, seen, result, stored⟩ := ronStored_shows (s := s) (legM := legM) (high := high) n.val n.isLt samples
    have shown : Local {} (· = Reg.SAFE_AGE_DER (s.master n.val)) (s.ronStored n.val legM high samples)
      ((s.ronStored n.val legM high samples).showRho (s.master n.val)) := showRho_local _ _
    change exec _ _ = .next ((s.ronStored n.val legM high samples).showRho (s.master n.val)) at run
    generalize (s.ronStored n.val legM high samples).showRho (s.master n.val) = t at run shown
    generalize s.ronStored n.val legM high samples = u at acc seen result stored shown
    have range := ronReg_range s n.isLt (b2n legM)
    have whole : Local { age := true } (fun a => a = s.ronReg n.val (b2n legM) ∨ a = Reg.SAFE_AGE_DER (s.master n.val)) s t :=
      (stored.mono fun _ => .inl).trans ((shown.wider).mono fun _ => .inr)
    have apart : ¬ (ronField (s.ronReg n.val (b2n legM)) high).addr = Reg.SAFE_AGE_DER (s.master n.val) := by
      show ¬ s.ronReg n.val (b2n legM) = Reg.SAFE_AGE_DER (s.master n.val)
      unfold Reg.SAFE_AGE_DER
      omega
    refine ⟨t, run, whole.exact, fun k => absurd k short, fun _ => ⟨?_, ?_, (shown.rd apart).trans result, fun a n => .inl (whole.regs a n)⟩⟩
    · rw [shown.part State.age, acc]
    · rw [shown.part State.age, seen]

end

end Sys2Proof.Machine
end

section
/-!
# The re-plan and the regulator (spec/17_service_life.md, R749 to R757; spec/14_power_states.md, R651 to R656)
-/

namespace Sys2Proof.Machine

-- One theorem after the other: in one text, theorems that wait for the kernel would each hold a thread.
set_option Elab.async false

/-! ## What the plan moves -/

/-- The parts that a plan may change. -/
def planParts : Parts := { age := true, clk := true, draw := true }

/-- A stretch of a re-plan: registers of `R` move; the request, whether requests are blocked, and VPLAN stay. -/
structure Planned (R : Nat → Prop) (s t : State) : Prop where
  frame   : Frame planParts R s t
  req     : t.age.req = s.age.req
  blocked : t.age.blocked = s.age.blocked
  vplan   : t.rd F.SAFE_AGE_STAT_VPLAN = s.rd F.SAFE_AGE_STAT_VPLAN

namespace Planned

variable {R : Nat → Prop} {s t u : State}

theorem refl (away : ¬ R Reg.PWR_STATE) (s : State) : Planned R s s := ⟨.refl away s, rfl, rfl, rfl⟩

theorem trans (h : Planned R s t) (k : Planned R t u) : Planned R s u :=
  ⟨h.frame.trans k.frame, k.req.trans h.req, k.blocked.trans h.blocked, k.vplan.trans h.vplan⟩

theorem mono {Q : Nat → Prop} (h : Planned R s t) (k : ∀ a, R a → Q a) (away : ¬ Q Reg.PWR_STATE) : Planned Q s t :=
  ⟨h.frame.mono k away, h.req, h.blocked, h.vplan⟩

theorem ite {c : Prop} [Decidable c] (h : Planned R s t) (k : Planned R s u) : Planned R s (if c then t else u) := by
  split
  · exact h
  · exact k

theorem raiseAgeing (h : Planned R s t) (kind chan value : Nat) : Planned R s (t.raiseAgeing kind chan value) := by
  have raised : Frame planParts R t (t.raiseAgeing kind chan value) := (Frame.refl h.frame.apart t).raise
  have age : (t.raiseAgeing kind chan value).age = t.age := (Frame.raise (Frame.refl (m := {}) (R := fun _ => False) id t)).age
  refine h.trans ⟨raised, by rw [age], by rw [age], ?_⟩
  exact (Frame.raise (Frame.refl (m := {}) (R := fun _ => False) id t)).rd_steady id

/-- A register field other than VPLAN. -/
theorem wr (h : Planned R s t) {f : Field} {v : Nat} (own : R f.addr) (apart : Field.apart f F.SAFE_AGE_STAT_VPLAN = true) :
    Planned R s (t.wr f v) :=
  h.trans ⟨(Frame.refl h.frame.apart t).wr own, rfl, rfl, State.rd_wr_off _ _ apart⟩

theorem drawn (h : Planned R s t) : Planned R s t.drawn := h.trans ⟨(Frame.refl h.frame.apart t).drawn rfl, rfl, rfl, rfl⟩

theorem modClk (h : Planned R s t) (f : ClkX → ClkX) : Planned R s (t.modClk f) :=
  h.trans ⟨(Frame.refl h.frame.apart t).upd rfl, rfl, rfl, rfl⟩

theorem modAge (h : Planned R s t) {f : AgeX → AgeX} (req : (f t.age).req = t.age.req) (blocked : (f t.age).blocked = t.age.blocked) :
    Planned R s (t.modAge f) :=
  h.trans ⟨(Frame.refl h.frame.apart t).modAge f, req, blocked, rfl⟩

theorem foldl {α : Type} {f : State → α → State} : ∀ {l : List α} {t : State}, (∀ (x : State) (a : α), a ∈ l → Planned R s x → Planned R s (f x a)) →
    Planned R s t → Planned R s (l.foldl f t)
  | [], _, _, h => h
  | a :: l, t, hf, h => foldl (l := l) (fun x b mem => hf x b (List.mem_cons_of_mem a mem)) (hf t a List.mem_cons_self h)

theorem forEach {f : Nat → State → State} : ∀ {n : Nat} {t : State}, (∀ i x, i < n → Planned R s x → Planned R s (f i x)) →
    Planned R s t → Planned R s (Machine.forEach f n t)
  | 0, _, _, h => h
  | n + 1, _, hf, h => hf n _ (Nat.lt_succ_self n) (forEach (fun i x lt => hf i x (Nat.lt_succ_of_lt lt)) h)

end Planned

/-! ## A channel -/

/-- The registers that show the legs of the channels. -/
def legReg (a : Nat) : Prop := ∃ k, k < 12 ∧ (a = Reg.OUT_SPK_PROT k ∨ a = Reg.OUT_SPK_STAT k)

theorem legReg_range {a : Nat} (h : legReg a) : 0x301000 ≤ a ∧ a < 0x302000 := by
  obtain ⟨k, lt, rfl | rfl⟩ := h
  · unfold Reg.OUT_SPK_PROT; omega
  · unfold Reg.OUT_SPK_STAT; omega

theorem Planned.showLegs {R : Nat → Prop} {s t : State} (h : Planned R s t) {n : Nat} (few : n < 12) (legs : ∀ a, legReg a → R a) :
    Planned R s (t.showLegs n) := by
  have prot : R (Reg.OUT_SPK_PROT n) := legs _ ⟨n, few, .inl rfl⟩
  have stat : R (Reg.OUT_SPK_STAT n) := legs _ ⟨n, few, .inr rfl⟩
  have off : ∀ f : Field, 0x301000 ≤ f.addr ∧ f.addr < 0x302000 → Field.apart f F.SAFE_AGE_STAT_VPLAN = true := fun f r =>
    apart_addr (fun e => by rw [← e] at r; exact absurd r.2 (by decide))
  have low := legReg_range ⟨n, few, .inl rfl⟩
  have high := legReg_range ⟨n, few, .inr rfl⟩
  exact ((((h.wr (f := F.OUT_SPK_PROT_PSLC n) prot (off _ low)).wr (f := F.OUT_SPK_PROT_MSLC n) prot (off _ low)).wr
    (f := F.OUT_SPK_PROT_ILIMEFF n) prot (off _ low)).wr (f := F.OUT_SPK_STAT_XSPARE n) stat (off _ high)).wr
    (f := F.OUT_SPK_STAT_XLEG n) stat (off _ high)

theorem drives_lt {s : State} {n k : Nat} (few : n < 12) (h : k ∈ s.drives n) : k < 12 := by
  unfold State.drives at h
  split at h
  · rename_i pair
    have even : n % 2 = 0 := of_decide_eq_true (Bool.and_eq_true_iff.1 pair).1
    simp only [List.mem_cons, List.not_mem_nil, or_false] at h
    omega
  · rw [List.mem_singleton.1 h]
    exact few

/-- AAGE and ILIMC of a channel planned. -/
def State.derated (s : State) (n a c : Nat) : State := (s.wr (F.SAFE_AGE_DER_AAGE n) a).wr (F.SAFE_AGE_DER_ILIMC n) c

theorem derated_aage (s : State) (n : Nat) {a : Nat} (c : Nat) (h : a < 256) : (s.derated n a c).rd (F.SAFE_AGE_DER_AAGE n) = a := by
  refine (State.rd_wr_off _ _ (apart_bits (f := F.SAFE_AGE_DER_ILIMC n) (g := F.SAFE_AGE_DER_AAGE n) (show 0 + 4 ≤ 32 by decide)
    (.inr (show 0 + 4 ≤ 8 by decide)))).trans ?_
  exact State.rd_wr_fits _ (f := F.SAFE_AGE_DER_AAGE n) (show 8 + 8 ≤ 32 by decide) (show a < 2 ^ 8 from h)

/-- The derate that a plan gives a channel. -/
def State.planned (s : State) (n : Nat) : Nat := max (s.rd (F.SAFE_AGE_DER_AAGE n)) (aageOf (s.worstRon n))

theorem aageOf_le (r : Nat) : aageOf r ≤ 48 := by
  unfold aageOf
  split
  · decide
  · generalize found : List.find? _ (List.range 49) = o
    cases o with
    | none => exact Nat.le_refl 48
    | some k => exact Nat.le_of_lt_succ (List.mem_range.1 (List.mem_of_find?_eq_some found))

theorem planned_lt (s : State) (n : Nat) : s.planned n < 256 :=
  Nat.max_lt.2 ⟨State.rd_lt s (F.SAFE_AGE_DER_AAGE n), Nat.lt_of_le_of_lt (aageOf_le _) (by decide)⟩

theorem der_state (n : Nat) : ¬ Reg.PWR_STATE = Reg.SAFE_AGE_DER n := by
  unfold Reg.PWR_STATE Reg.SAFE_AGE_DER
  omega

theorem legReg_state : ¬ legReg Reg.PWR_STATE := fun h => absurd (legReg_range h).1 (by decide)

theorem der_vplan (n lo width : Nat) : Field.apart ⟨Reg.SAFE_AGE_DER n, lo, width⟩ F.SAFE_AGE_STAT_VPLAN = true :=
  apart_addr (show Reg.SAFE_AGE_STAT ≠ Reg.SAFE_AGE_DER n by unfold Reg.SAFE_AGE_STAT Reg.SAFE_AGE_DER; omega)

/-- The ceiling code that a plan gives a channel. -/
def State.ceiled (s : State) (n : Nat) : Nat :=
  min (s.rd (F.SAFE_AGE_DER_ILIMC n)) ((ilimcOf (s.worstRon n)).getD (s.free.toNat % 13))

/-- What a channel's derate entails: its legs are shown, and the change is reported. -/
def State.derateShown (z s : State) (n : Nat) : State :=
  if s.planned n = s.rd (F.SAFE_AGE_DER_AAGE n) ∧ s.ceiled n = s.rd (F.SAFE_AGE_DER_ILIMC n) then z
  else (z.drives n).foldl (fun (z : State) k => z.showLegs k) (z.raiseAgeing 2 n (s.planned n * 2 ^ 8 + s.ceiled n))

/-- A worn leg is reported once. -/
def State.wornShown (z s : State) (n : Nat) : State :=
  if 1200 ≤ s.worstRon n ∧ ¬ inMask s.age.worn n then
    (z.modAge fun q => { q with worn := q.worn ||| 2 ^ n }).raiseAgeing 5 n (min 0xFFFF (roundFree (s.worstRon n * 5) 3))
  else z

theorem planChan_eq {s : State} {n : Nat} (own : s.master n = n) : s.planChan n =
    (((if (ilimcOf (s.worstRon n)).isNone then s.drawn else s).derated n (s.planned n) (s.ceiled n)).derateShown s n).wornShown s n := by
  unfold State.planChan
  rw [if_neg (not_not.2 own)]
  rfl

theorem derateShown_planned {R : Nat → Prop} {z t : State} (h : Planned R z t) {n : Nat} (few : n < 12) (legs : ∀ a, legReg a → R a) (s : State) :
    Planned R z (t.derateShown s n) := by
  unfold State.derateShown
  exact .ite h (Planned.foldl (fun x k mem h => h.showLegs (drives_lt few mem) legs) (h.raiseAgeing _ _ _))

theorem wornShown_planned {R : Nat → Prop} {z t : State} (h : Planned R z t) (s : State) (n : Nat) : Planned R z (t.wornShown s n) := by
  unfold State.wornShown
  exact .ite (Planned.raiseAgeing (h.modAge rfl rfl) _ _ _) h

/-- A channel's plan: its derate first, then what follows from it. -/
theorem planChan_parts {s : State} {n : Nat} (few : n < 12) (own : s.master n = n) : ∃ u, Planned (· = Reg.SAFE_AGE_DER n) s u ∧
    u.rd (F.SAFE_AGE_DER_AAGE n) = s.planned n ∧ Planned legReg u (s.planChan n) := by
  have start : Planned (· = Reg.SAFE_AGE_DER n) s (if (ilimcOf (s.worstRon n)).isNone then s.drawn else s) :=
    .ite (Planned.drawn (.refl (der_state n) s)) (.refl (der_state n) s)
  refine ⟨_, (start.wr (f := F.SAFE_AGE_DER_AAGE n) (v := s.planned n) rfl (der_vplan n 8 8)).wr (f := F.SAFE_AGE_DER_ILIMC n) (v := s.ceiled n) rfl
    (der_vplan n 0 4), derated_aage _ n _ (planned_lt s n), ?_⟩
  rw [planChan_eq own]
  exact wornShown_planned (derateShown_planned (.refl legReg_state _) few (fun _ => id) s) s n

/-- The registers that a channel's plan moves. -/
def chanReg (n a : Nat) : Prop := a = Reg.SAFE_AGE_DER n ∨ legReg a

theorem chanReg_state (n : Nat) : ¬ chanReg n Reg.PWR_STATE := fun h => h.elim (der_state n) legReg_state

theorem planChan_planned {n : Nat} (few : n < 12) (s : State) : Planned (chanReg n) s (s.planChan n) := by
  by_cases own : s.master n = n
  · obtain ⟨u, first, -, last⟩ := planChan_parts few own
    exact (first.mono (fun _ => .inl) (chanReg_state n)).trans (last.mono (fun _ => .inr) (chanReg_state n))
  · unfold State.planChan
    rw [if_pos own]
    exact .refl (chanReg_state n) s

/-! ## A group's carrier -/

/-- The registers that a group's cap moves. -/
def capReg (a : Nat) : Prop := a = Reg.SAFE_AGE_STAT ∨ a = Reg.OUT_SW_STAT

theorem capReg_state : ¬ capReg Reg.PWR_STATE := by rintro (h | h) <;> exact absurd h (by decide)

theorem Planned.showSw {R : Nat → Prop} {s t : State} (h : Planned R s t) (cap : ∀ a, capReg a → R a) : Planned R s t.showSw :=
  ((h.wr (f := F.OUT_SW_STAT_CONF) (cap _ (.inr rfl)) (by decide)).wr (f := F.OUT_SW_STAT_HOLD) (cap _ (.inr rfl)) (by decide)).wr
    (f := F.SAFE_AGE_STAT_ABOVECAP) (cap _ (.inl rfl)) (by decide)

theorem Planned.setCap {R : Nat → Prop} {s t : State} (h : Planned R s t) {g : Nat} (few : g < 3) (c : Nat) (cap : ∀ a, capReg a → R a) :
    Planned R s (t.setCap g c) := by
  have apart : Field.apart ⟨Reg.SAFE_AGE_STAT, 11 + g, 1⟩ F.SAFE_AGE_STAT_VPLAN = true :=
    apart_bits (show 11 + g + 1 ≤ 32 by omega) (.inr (show 11 + g + 1 ≤ 16 by omega))
  unfold State.setCap
  exact Planned.showSw (Planned.wr (h.modClk _) (cap _ (.inl rfl)) apart) cap

theorem planCap_planned {g : Nat} (few : g < 3) (s : State) : Planned capReg s (s.planCap g) := by
  have start : Planned capReg s s := .refl capReg_state s
  unfold State.planCap
  dsimp only
  refine .ite (.ite start ((start.modAge rfl rfl).raiseAgeing _ _ _)) ?_
  exact .ite (start.modAge rfl rfl) (((start.modAge rfl rfl).setCap few _ fun _ => id).raiseAgeing _ _ _)

/-! ## The rest of the plan -/

/-- The registers that a plan moves. -/
def planReg (a : Nat) : Prop := (∃ n, n < 12 ∧ a = Reg.SAFE_AGE_DER n) ∨ legReg a ∨ capReg a

theorem planReg_state : ¬ planReg Reg.PWR_STATE := by
  rintro (⟨n, -, h⟩ | h | h)
  · exact der_state n h
  · exact legReg_state h
  · exact capReg_state h

theorem planRest_planned (s : State) : Planned planReg s s.planRest := by
  refine Planned.forEach (fun g z lt h => h.trans ((planCap_planned lt z).mono (fun _ r => .inr (.inr r)) planReg_state)) ?_
  refine Planned.forEach (fun n z lt h => h.trans ((planChan_planned lt z).mono ?_ planReg_state)) (.refl planReg_state s)
  rintro a (r | r)
  · exact .inl ⟨n, lt, r⟩
  · exact .inr (.inl r)

/-- The registers that a plan moves but for one channel's derate. -/
def planOff (k a : Nat) : Prop := planReg a ∧ a ≠ Reg.SAFE_AGE_DER k

theorem planOff_state (k : Nat) : ¬ planOff k Reg.PWR_STATE := fun h => planReg_state h.1

theorem legReg_planOff {a : Nat} (h : legReg a) (k : Nat) : planOff k a := by
  have range := legReg_range h
  refine ⟨.inr (.inl h), fun e => ?_⟩
  unfold Reg.SAFE_AGE_DER at e
  omega

theorem capReg_planOff {a : Nat} (h : capReg a) (k : Nat) : planOff k a := by
  refine ⟨.inr (.inr h), fun e => ?_⟩
  rcases h with rfl | rfl
  · unfold Reg.SAFE_AGE_STAT Reg.SAFE_AGE_DER at e; omega
  · unfold Reg.OUT_SW_STAT Reg.SAFE_AGE_DER at e; omega

/-- The worst on-resistance of a channel depends on the pairing, the crosspoints and the measured values alone. -/
theorem worstRon_congr {s t : State} {k : Nat} (few : k < 12) (groups : t.groups = s.groups)
    (xpt : ∀ g, g < 3 → t.reg (Reg.OUT_G_XPT g) = s.reg (Reg.OUT_G_XPT g))
    (ron : ∀ a, 0x403040 ≤ a → a < 0x4030B0 → t.reg a = s.reg a) : t.worstRon k = s.worstRon k := by
  have drives : t.drives k = s.drives k := by unfold State.drives State.paired State.grp; rw [groups]
  have placed : ∀ n leg, n < 12 → t.ronReg n leg = s.ronReg n leg := fun n leg lt => by
    have enabled : t.on (F.OUT_G_XPT_AEN (n / 4)) = s.on (F.OUT_G_XPT_AEN (n / 4)) := on_same (xpt _ (by omega))
    have node : t.rd (F.OUT_G_XPT_ANODE (n / 4)) = s.rd (F.OUT_G_XPT_ANODE (n / 4)) := rd_same (xpt _ (by omega))
    unfold State.ronReg State.onSpare
    rw [enabled, node]
  unfold State.worstRon
  rw [drives]
  refine List.foldl_ext _ _ 0 fun m n mem => List.foldl_ext _ _ m fun m leg _ => ?_
  have lt := drives_lt few mem
  have range := ronReg_range s lt leg
  rw [placed n leg lt, ron _ range.1 range.2]

theorem planReg_ron {a : Nat} (lo : 0x403040 ≤ a) (hi : a < 0x4030B0) : ¬ planReg a := by
  rintro (⟨n, -, rfl⟩ | r | rfl | rfl)
  · unfold Reg.SAFE_AGE_DER at hi
    omega
  · have range := legReg_range r
    omega
  · exact absurd lo (by decide)
  · exact absurd lo (by decide)

theorem planReg_xpt {g : Nat} (few : g < 3) : ¬ planReg (Reg.OUT_G_XPT g) := by
  unfold Reg.OUT_G_XPT
  rintro (⟨n, -, e⟩ | r | e | e)
  · unfold Reg.SAFE_AGE_DER at e; omega
  · have range := legReg_range r; omega
  · unfold Reg.SAFE_AGE_STAT at e; omega
  · unfold Reg.OUT_SW_STAT at e; omega

/-- What the plan of other channels leaves of a channel's derate and its legs. -/
theorem planOff_planned {k : Nat} (few : k < 12) {s t : State} (h : Planned (planOff k) s t) :
    t.planned k = s.planned k ∧ t.master k = s.master k := by
  have same : ∀ a, ¬ planOff k a → 0x100440 ≤ a → t.reg a = s.reg a := fun a off hi => h.frame.reg_steady off (steady_above hi)
  have groups : t.groups = s.groups := h.frame.groups
  have worst : t.worstRon k = s.worstRon k := worstRon_congr few groups
    (fun g lt => same _ (fun r => planReg_xpt lt r.1) (by unfold Reg.OUT_G_XPT; omega))
    (fun a lo hi => same a (fun r => planReg_ron lo hi r.1) (by omega))
  have der : t.rd (F.SAFE_AGE_DER_AAGE k) = s.rd (F.SAFE_AGE_DER_AAGE k) :=
    rd_same (same (Reg.SAFE_AGE_DER k) (fun r => r.2 rfl) (by unfold Reg.SAFE_AGE_DER; omega))
  constructor
  · unfold State.planned
    rw [worst, der]
  · unfold State.master State.grp
    rw [groups]

/-- The rest of the plan derates a channel by its worst leg. -/
theorem planRest_aage {k : Nat} (few : k < 12) {s : State} (own : s.master k = k) :
    s.planRest.rd (F.SAFE_AGE_DER_AAGE k) = s.planned k := by
  obtain ⟨z, before, after⟩ := forEach_once (V := Planned (planOff k)) (f := fun n z => z.planChan n) (s := s) few
    (fun i a z lt ne h => h.trans ((planChan_planned lt z).mono (fun b r => by
      rcases r with rfl | r
      · refine ⟨.inl ⟨i, lt, rfl⟩, fun e => ne ?_⟩
        unfold Reg.SAFE_AGE_DER at e
        omega
      · exact legReg_planOff r k) (planOff_state k)))
    (.refl (planOff_state k))
  obtain ⟨planned, master⟩ := planOff_planned few before
  obtain ⟨u, -, aage, legs⟩ := planChan_parts few (master.trans own)
  have caps : Planned (planOff k) (forEach (fun n z => z.planChan n) 12 s) s.planRest :=
    Planned.forEach (fun g z lt h => h.trans ((planCap_planned lt z).mono (fun _ r => capReg_planOff r k) (planOff_state k)))
      (.refl (planOff_state k) _)
  have rest := ((legs.mono (fun _ r => legReg_planOff r k) (planOff_state k)).trans after).trans caps
  have kept : s.planRest.reg (Reg.SAFE_AGE_DER k) = u.reg (Reg.SAFE_AGE_DER k) :=
    rest.frame.reg_steady (fun r => r.2 rfl) (steady_above (by unfold Reg.SAFE_AGE_DER; omega))
  exact (rd_same (f := F.SAFE_AGE_DER_AAGE k) kept).trans (aage.trans planned)

/-! ## What Papol's own state leaves of the plan -/

/-- What Papol's own state does not enter. -/
theorem Frame.sameDerate {s t : State} (h : Frame {} (fun _ => False) s t) (k : Nat) (few : k < 12) :
    t.planned k = s.planned k ∧ t.master k = s.master k :=
  planOff_planned few ⟨(h.widen (m' := planParts)).mono (fun _ r => r.elim) (planOff_state k), congrArg AgeX.req h.age, congrArg AgeX.blocked h.age,
    h.rd_steady id⟩

theorem Frame.dMax {m : Parts} {R : Nat → Prop} {s t : State} (h : Frame m R s t)
    (ring : ∀ p, p < 12 → ¬ R (Reg.SAFE_AGE_RING p) := by exact fun _ _ => id)
    (role : ∀ p, p < 8 → ¬ R (F.DSP_NE_STAT_ROLE p).addr := by exact fun _ _ => id) (power : ¬ R Reg.PWR_DOMSTAT := by exact id) :
    t.dMax? = s.dMax? := by
  have steady : ∀ p, p < 12 → steady (Reg.SAFE_AGE_RING p) = true := fun p _ => steady_above (by unfold Reg.SAFE_AGE_RING; omega)
  have delta : ∀ p, p < 12 → t.ringDelta p = s.ringDelta p := fun p lt => by
    unfold State.ringDelta
    rw [h.rd_steady (f := F.SAFE_AGE_RING_DELTA p) (ring p lt) (steady p lt)]
  have taking : t.plannedPairs = s.plannedPairs := by
    unfold State.plannedPairs indices
    refine List.filter_congr fun p mem => ?_
    have lt := List.mem_range.1 mem
    rw [h.on_steady (f := F.SAFE_AGE_RING_VALID p) (ring p lt) (steady p lt)]
    congr 1
    by_cases high : 8 ≤ p
    · unfold State.pairOn
      rw [decide_eq_true high, Bool.true_or, Bool.true_or]
    · have role : t.role p = s.role p := h.rd_steady (role p (by omega)) (steady_engine (o := 0) (by omega) (by decide))
      have power : t.domOn (dmEngine p) = s.domOn (dmEngine p) := by
        unfold State.domOn dmEngine
        rw [if_neg (by omega), if_neg (by omega)]
        exact h.on_steady power (show Machine.steady Reg.PWR_DOMSTAT = true by decide)
      unfold State.pairOn
      rw [role, power]
  unfold State.dMax?
  rw [taking]
  exact congrArg List.max? (List.map_congr_left fun p mem => delta p (List.mem_range.1 (List.mem_filter.1 mem).1))

end Sys2Proof.Machine
end

section
/-!
# Re-plans, and the answer of the regulator (spec/17_service_life.md, R749, R762; spec/14_power_states.md, R651 to R655)
-/

namespace Sys2Proof.Machine

-- One theorem after the other: in one text, theorems that wait for the kernel would each hold a thread.
set_option Elab.async false

/-! ## REPLAN -/

theorem bit_of_bits {w : Word} {n : Nat} (h : bits w 0 3 = n) (lt : n < 8) (i : Nat) (few : i < 3) : bit w i = decide (n / 2 ^ i % 2 = 1) := by
  unfold bits at h
  unfold bit bits
  have parity : w.toNat / 2 ^ i % 2 = n / 2 ^ i % 2 := by
    subst h
    obtain rfl | rfl | rfl : i = 0 ∨ i = 1 ∨ i = 2 := by omega
    all_goals omega
  rw [Nat.pow_one, parity]

/-- A plan that takes no valid pair has no floor. -/
theorem replan_unasked {s : State} (h : s.dMax? = none) : s.replan = s.planRest := by
  have floor : s.planFloor = s := by unfold State.planFloor; rw [h]
  have wanted : s.wanted? = none := by unfold State.wanted?; rw [h]
  unfold State.replan
  dsimp only
  rw [floor, wanted]

/-- The end of a REPLAN that waited. -/
def State.replanEnds (z : State) : State := z.finishAll (fun e => e.opcode = 0x901) stsOk 0

/-- REPLAN without a measurement and without a lift of the caps: a dry run answers the plan alone, a true one leaves it planned. -/
theorem replan_body (p : Packet) (counts : List (List (Nat × Nat))) (temps : List (Int × Int)) (s : State)
    (unlifted : bit (pw p.payload 0) 1 = false) (unmeasured : bit (pw p.payload 0) 2 = false) :
    ∃ body, exec (.replan p counts temps) s = s.card cardReplan p body ∧ ∀ z : State, ∃ whole : State,
      body z = if bit (pw p.payload 0) 0 then .done stsOk 0 (whole.replanWords z.replanEnds) [] z.replanEnds
        else if z.replanEnds.replan.age.req.isSome then .pend (whole.replanWords z.replanEnds) [.replan] z.replanEnds.replan
        else .done stsOk 0 (whole.replanWords z.replanEnds) [] z.replanEnds.replan := by
  refine ⟨_, rfl, fun z => ?_⟩
  dsimp only
  rw [unlifted, unmeasured, if_neg Bool.false_ne_true, if_neg Bool.false_ne_true]
  exact ⟨_, rfl⟩

theorem replanEnds_frame (s : State) (p : Packet) : Frame {} (fun _ => False) s (s.admitted cardReplan p).replanEnds :=
  (Frame.admitted id s cardReplan p).finishAll

theorem replan_answers {p : Packet} {s : State} {k : Nat} (few : k < 12) (free : s.age.req = none) (own : s.master k = k)
    (counts : List (List (Nat × Nat))) (temps : List (Int × Int)) (invalid : s.dMax? = none) (acc : Accepted cardReplan p s)
    (plain : bits (pw p.payload 0) 0 3 = 0) : ∃ ws, Answers (.replan p counts temps) cardReplan p s 0 0 ws fun t =>
      t.rd (F.SAFE_AGE_DER_AAGE k) = max (s.rd (F.SAFE_AGE_DER_AAGE k)) (aageOf (s.worstRon k)) ∧ t.age.req = none := by
  have blank : ∀ i, i < 3 → bit (pw p.payload 0) i = false := fun i lt =>
    (bit_of_bits plain (by decide) i lt).trans (decide_eq_false (by rw [Nat.zero_div]; decide))
  obtain ⟨body, run, does⟩ := replan_body p counts temps s (blank 1 (by decide)) (blank 2 (by decide))
  obtain ⟨whole, done⟩ := does (s.admitted cardReplan p)
  have frame := replanEnds_frame s p
  generalize (s.admitted cardReplan p).replanEnds = z at done frame
  have req : z.planRest.age.req = none := (planRest_planned z).req.trans ((congrArg AgeX.req frame.age).trans free)
  obtain ⟨derate, master⟩ := frame.sameDerate k few
  rw [blank 0 (by decide), if_neg Bool.false_ne_true, replan_unasked (frame.dMax.trans invalid), if_neg (by rw [req]; exact Bool.false_ne_true)] at done
  refine ⟨_, answers_of_done run acc done fun t but => ⟨?_, ?_⟩⟩
  · refine (but.rd_steady (steady_above (show 0x100440 ≤ Reg.SAFE_AGE_DER k by unfold Reg.SAFE_AGE_DER; omega))).trans ?_
    exact (planRest_aage few (master.trans own)).trans derate
  · exact (congrArg AgeX.req (Frame.of_papol but).age).trans req

theorem replan_shows {p : Packet} {s : State} (counts : List (List (Nat × Nat))) (temps : List (Int × Int)) (acc : Accepted cardReplan p s)
    (dry : bits (pw p.payload 0) 0 3 = 1) : ∃ ws, ws.length = 4 ∧
      Answers (.replan p counts temps) cardReplan p s 0 0 ws (PapolBut papolReg (papolByte s) s) := by
  have asked : bit (pw p.payload 0) 0 = true := bit_of_bits dry (by decide) 0 (by decide)
  obtain ⟨body, run, does⟩ := replan_body p counts temps s (bit_of_bits dry (by decide) 1 (by decide)) (bit_of_bits dry (by decide) 2 (by decide))
  obtain ⟨whole, done⟩ := does (s.admitted cardReplan p)
  have frame := replanEnds_frame s p
  generalize (s.admitted cardReplan p).replanEnds = z at done frame
  rw [asked, if_pos rfl] at done
  refine ⟨_, rfl, answers_of_done run acc done fun t but => frame.papolBut.trans ?_⟩
  rw [papolByte_congr frame.rings] at but
  exact but

/-! ## REPLAN_RUN -/

theorem replanRun_runs {s : State} (free : s.age.req = none) (state : s.pstate = stIdle ∨ s.pstate = stPlay) :
    exec .replanRun s = (if s.planWaits then .next (s.modAge fun q => { q with due := true })
      else .next (if s.pap.run = .running then s.replan else s)) := by
  refine if_neg ?_
  rintro (⟨idle, play⟩ | asked)
  · exact state.elim idle play
  · rw [free] at asked
    exact Bool.false_ne_true asked

/-- The measured headroom shown, with the floor not reached. -/
def State.headroom (s : State) (d : Int) : State :=
  ((s.wr F.SAFE_AGE_STAT_DMAX (min 0x3FF (roundFree d.toNat 10))).clr F.SAFE_AGE_STAT_FLOOR).faultGone 0x901 0 0

/-- The registers that show the headroom. -/
def headReg (a : Nat) : Prop := a = Reg.SAFE_AGE_STAT ∨ a = Reg.SAFE_FN_STAT ∨ a = Reg.SAFE_SM_STAT

theorem headroom_frame (s : State) (d : Int) : Frame { saf := true } headReg s (s.headroom d) := by
  have away : ¬ headReg Reg.PWR_STATE := by rintro (h | h | h) <;> exact absurd h (by decide)
  exact Frame.faultGone (((Frame.refl away s).wr (.inl rfl)).clr (.inl rfl)) rfl (.inr (.inl rfl)) (.inr (.inr rfl))

theorem faultGone_vplan (s : State) (code sub unit : Nat) :
    (s.faultGone code sub unit).rd F.SAFE_AGE_STAT_VPLAN = s.rd F.SAFE_AGE_STAT_VPLAN :=
  ((Frame.refl (m := { saf := true }) (R := fun a => a = Reg.SAFE_FN_STAT ∨ a = Reg.SAFE_SM_STAT) (by decide) s).faultGone rfl (.inl rfl)
    (.inr rfl)).rd_steady (f := F.SAFE_AGE_STAT_VPLAN) (by decide)

theorem headroom_vplan (s : State) (d : Int) : (s.headroom d).rd F.SAFE_AGE_STAT_VPLAN = s.rd F.SAFE_AGE_STAT_VPLAN := by
  unfold State.headroom
  rw [faultGone_vplan]
  exact (State.rd_clr_off _ (f := F.SAFE_AGE_STAT_FLOOR) (by decide)).trans (State.rd_wr_off _ _ (f := F.SAFE_AGE_STAT_DMAX) (by decide))

/-- A voltage asked of the regulator. -/
def State.asking (s : State) (v : Nat) : State :=
  ((s.modAge fun q => { q with req := some v }).set1 F.CTL_REG_STAT_BUSY).set1 F.SAFE_AGE_STAT_PEND

theorem asking_shows (s : State) (v : Nat) : (s.asking v).age.req = some v ∧ (s.asking v).on F.CTL_REG_STAT_BUSY = true ∧
    (s.asking v).on F.SAFE_AGE_STAT_PEND = true :=
  ⟨rfl, (State.on_set1_off _ (f := F.SAFE_AGE_STAT_PEND) (by decide)).trans (State.on_set1_same _ (f := F.CTL_REG_STAT_BUSY) (by decide)),
    State.on_set1_same _ (f := F.SAFE_AGE_STAT_PEND) (by decide)⟩

theorem request_eq (s : State) (v : Nat) :
    s.request v = if s.age.req = some v then s.asking v else (s.asking v).raiseAgeing 1 0xF v := rfl

theorem request_asks (s : State) (v : Nat) : (s.request v).age.req = some v ∧ (s.request v).on F.CTL_REG_STAT_BUSY = true ∧
    (s.request v).on F.SAFE_AGE_STAT_PEND = true := by
  have shown := asking_shows s v
  rw [request_eq]
  generalize s.asking v = z at shown
  split
  · exact shown
  · have same : Frame {} (fun _ => False) z (z.raiseAgeing 1 0xF v) := (Frame.refl (m := {}) (R := fun _ => False) id z).raise
    obtain ⟨req, busy, pend⟩ := shown
    exact ⟨(congrArg AgeX.req same.age).trans req, (same.on_steady (f := F.CTL_REG_STAT_BUSY) id).trans busy,
      (same.on_steady (f := F.SAFE_AGE_STAT_PEND) id).trans pend⟩

theorem planFloor_reached {s : State} {d : Int} (largest : s.dMax? = some d) (reach : vNeed d + 40 ≤ 900) : s.planFloor = s.headroom d := by
  have unreached : decide (900 < vNeed d + 40) = false := decide_eq_false (Int.not_lt.2 reach)
  unfold State.planFloor State.headroom
  rw [largest]
  simp only [unreached, Bool.false_eq_true, false_and, if_false, if_true]

theorem wanted_below {s : State} {d : Int} (largest : s.dMax? = some d) (below : s.rd F.SAFE_AGE_STAT_VPLAN < vPlan d)
    (able : s.age.exp.isSome = true) (allowed : s.age.blocked = false) : s.wanted? = some (vPlan d) := by
  unfold State.wanted?
  rw [largest]
  exact if_pos ⟨below, able, allowed⟩

theorem headReg_plan {a : Nat} (h : headReg a) : a = 0x403000 ∨ a = 0x400000 ∨ a = 0x400008 := by
  unfold headReg Reg.SAFE_AGE_STAT Reg.SAFE_FN_STAT Reg.SAFE_SM_STAT at h
  omega

theorem headroom_dMax (s : State) (d : Int) : (s.headroom d).dMax? = s.dMax? :=
  (headroom_frame s d).dMax (fun p _ r => by have a := headReg_plan r; unfold Reg.SAFE_AGE_RING at a; omega)
    (fun p lt r => by have a : 0x100000 + 0x40 * p = _ ∨ 0x100000 + 0x40 * p = _ ∨ 0x100000 + 0x40 * p = _ := headReg_plan r; omega)
    (by rintro (h | h | h) <;> exact absurd h (by decide))

theorem replan_asks {s : State} {d : Int} (largest : s.dMax? = some d) (reach : vNeed d + 40 ≤ 900)
    (below : s.rd F.SAFE_AGE_STAT_VPLAN < vPlan d) (able : s.age.exp.isSome = true) (allowed : s.age.blocked = false) :
    s.replan = (s.headroom d).request (vPlan d) := by
  have floor := planFloor_reached largest reach
  have age := (headroom_frame s d).age
  have vplan := headroom_vplan s d
  have still := (headroom_dMax s d).trans largest
  generalize s.headroom d = z at floor age vplan still
  have wanted : z.wanted? = some (vPlan d) := wanted_below still (by rw [vplan]; exact below) (by rw [age]; exact able) (by rw [age]; exact allowed)
  unfold State.replan
  rw [floor]
  dsimp only
  rw [wanted]

/-! ## The regulator answers -/

/-- What the transaction met is shown. -/
def State.transacted (s : State) (nack pec : Bool) : State :=
  if pec then (if nack then s.set1 F.CTL_REG_STAT_NACK else s).set1 F.CTL_REG_STAT_PECERR else if nack then s.set1 F.CTL_REG_STAT_NACK else s

theorem transacted_frame (s : State) (nack pec : Bool) : Frame {} (· = Reg.CTL_REG_STAT) s (s.transacted nack pec) := by
  have same : Frame {} (· = Reg.CTL_REG_STAT) s s := .refl (by decide) s
  have nacked : Frame {} (· = Reg.CTL_REG_STAT) s (if nack then s.set1 F.CTL_REG_STAT_NACK else s) := .ite (same.set1 rfl) same
  exact .ite (nacked.set1 rfl) nacked

/-- Nothing is asked of the regulator. -/
def State.unasked (s : State) : State := ((s.modAge fun q => { q with req := none }).clr F.CTL_REG_STAT_BUSY).clr F.SAFE_AGE_STAT_PEND

theorem unasked_age (s : State) : s.unasked.age = { s.age with req := none } := rfl

theorem unasked_busy (s : State) : s.unasked.on F.CTL_REG_STAT_BUSY = false :=
  (State.on_clr_off _ (f := F.SAFE_AGE_STAT_PEND) (by decide)).trans (State.on_clr_same _ (f := F.CTL_REG_STAT_BUSY) (by decide))

theorem unasked_vplan (s : State) : s.unasked.rd F.SAFE_AGE_STAT_VPLAN = s.rd F.SAFE_AGE_STAT_VPLAN :=
  (State.rd_clr_off _ (f := F.SAFE_AGE_STAT_PEND) (by decide)).trans ((State.rd_clr_off _ (f := F.CTL_REG_STAT_BUSY) (by decide)).trans (modAge_rd _ _ _))

theorem requestEnds_eq (s : State) (nack pec : Bool) : s.requestEnds nack pec = (s.transacted nack pec).unasked := rfl

/-- A regulator request ends: nothing is asked, and BUSY is clear. -/
theorem requestEnds_shows (s : State) (nack pec : Bool) : (s.requestEnds nack pec).age = { s.age with req := none } ∧
    (s.requestEnds nack pec).on F.CTL_REG_STAT_BUSY = false ∧
    (s.requestEnds nack pec).rd F.SAFE_AGE_STAT_VPLAN = s.rd F.SAFE_AGE_STAT_VPLAN := by
  have frame := transacted_frame s nack pec
  rw [requestEnds_eq]
  generalize s.transacted nack pec = z at frame
  refine ⟨?_, unasked_busy z, (unasked_vplan z).trans (frame.rd_steady (f := F.SAFE_AGE_STAT_VPLAN) (by decide))⟩
  rw [unasked_age, frame.age]

/-- What the rest of the plan and the end of the commands that waited for it leave alone. -/
theorem planEnds_planned (s : State) (st : Nat) :
    Planned planReg s (s.planRest.finishAll (fun e => e.opcode = 0x901) st 0) := by
  have ends := (Frame.refl (m := {}) (R := fun _ => False) id s.planRest).finishAll (sel := fun e => e.opcode = 0x901) (st := st) (d := 0)
  refine (planRest_planned s).trans ⟨ends.widen.mono (fun _ r => r.elim) planReg_state, congrArg AgeX.req ends.age, congrArg AgeX.blocked ends.age,
    ends.rd_steady id⟩

theorem planReg_vout : ¬ planReg Reg.CTL_REG_STAT := by
  rintro (⟨n, -, e⟩ | r | e | e)
  · unfold Reg.CTL_REG_STAT Reg.SAFE_AGE_DER at e; omega
  · exact absurd (legReg_range r).1 (by decide)
  · exact absurd e (by decide)
  · exact absurd e (by decide)

theorem fault_recorded (s : State) (f : FaultInfo) : ∃ r ∈ (s.fault f).saf.recs, r.code = f.code := by
  unfold State.fault
  split
  next r live =>
    have found := List.find?_some live
    have code : r.code = f.code := by
      simp only [Bool.and_eq_true, decide_eq_true_eq] at found
      exact found.1.1.1
    refine ⟨_, List.mem_map_of_mem (List.mem_of_find?_eq_some live), ?_⟩
    rw [if_pos rfl]
    exact code
  next =>
    rw [(Frame.raiseR (Frame.refl (m := {}) (R := fun _ => False) id _)).saf]
    exact ⟨_, List.mem_append_right _ List.mem_cons_self, rfl⟩

theorem fault_frame (s : State) (f : FaultInfo) :
    Frame { saf := true, draw := true } (fun a => a = Reg.SAFE_FN_STAT ∨ a = Reg.SAFE_SM_STAT) s (s.fault f) :=
  (Frame.refl (by decide) s).fault rfl rfl (.inl rfl) (.inr rfl)

/-- The voltage that the regulator has taken up. -/
def State.supplied (s : State) (v : Nat) : State :=
  (s.wr F.CTL_REG_STAT_VOUT (voutWord v (s.age.exp.getD 0x17))).wr F.SAFE_AGE_STAT_VPLAN v

theorem supplied_shows (s : State) {v : Nat} (low : v ≤ 900) : (s.supplied v).on F.CTL_REG_STAT_BUSY = s.on F.CTL_REG_STAT_BUSY ∧
    (s.supplied v).rd F.SAFE_AGE_STAT_VPLAN = v ∧ (s.supplied v).rd F.CTL_REG_STAT_VOUT = voutWord v (s.age.exp.getD 0x17) % 2 ^ 16 := by
  unfold State.supplied
  generalize voutWord v (s.age.exp.getD 0x17) = w
  exact ⟨(State.on_wr_off _ _ (f := F.SAFE_AGE_STAT_VPLAN) (by decide)).trans (State.on_wr_off _ _ (f := F.CTL_REG_STAT_VOUT) (by decide)),
    State.rd_wr_fits _ (f := F.SAFE_AGE_STAT_VPLAN) (by decide) (show v < 2 ^ 16 by omega),
    (State.rd_wr_off _ _ (f := F.SAFE_AGE_STAT_VPLAN) (by decide)).trans (State.rd_wr_same _ _ (f := F.CTL_REG_STAT_VOUT) (by decide))⟩

theorem supplied_age (s : State) (v : Nat) : (s.supplied v).age = s.age := rfl

theorem regAcknowledge_eq {s : State} {v : Nat} (nack pec : Bool) (asked : s.age.req = some v) :
    exec (.regAcknowledge nack pec) s =
      .next (((s.requestEnds nack pec).supplied v).planRest.finishAll (fun e => e.opcode = 0x901) stsOk 0) := by
  have age := (requestEnds_shows s nack pec).1
  have exponent : (s.requestEnds nack pec).age.exp = s.age.exp := by rw [age]
  change execRegAcknowledge nack pec s = _
  unfold execRegAcknowledge State.supplied
  rw [asked, exponent]

theorem regAcknowledge_ends {s : State} {v : Nat} (nack pec : Bool) (asked : s.age.req = some v) (low : v ≤ 900) :
    ∃ t, exec (.regAcknowledge nack pec) s = .next t ∧ t.age.req = none ∧ t.on F.CTL_REG_STAT_BUSY = false ∧
      t.rd F.SAFE_AGE_STAT_VPLAN = v ∧ t.rd F.CTL_REG_STAT_VOUT = voutWord v (s.age.exp.getD 0x17) % 2 ^ 16 := by
  obtain ⟨age, idle, -⟩ := requestEnds_shows s nack pec
  obtain ⟨busy, vplan, vout⟩ := supplied_shows (s.requestEnds nack pec) low
  have carried := supplied_age (s.requestEnds nack pec) v
  have rest := planEnds_planned ((s.requestEnds nack pec).supplied v) stsOk
  refine ⟨_, regAcknowledge_eq nack pec asked, ?_⟩
  generalize (s.requestEnds nack pec).supplied v = told at busy vplan vout carried rest
  rw [age] at vout carried
  refine ⟨?_, (rest.frame.on_steady (f := F.CTL_REG_STAT_BUSY) planReg_vout).trans (busy.trans idle), rest.vplan.trans vplan,
    (rest.frame.rd_steady (f := F.CTL_REG_STAT_VOUT) planReg_vout).trans vout⟩
  rw [rest.req, carried]

/-- The regulator link is given up. -/
def State.linkLost (s : State) : State := (s.set1 F.CTL_REG_STAT_REGLINK).modAge fun q => { q with blocked := true }

theorem linkLost_shows (s : State) : s.linkLost.on F.CTL_REG_STAT_REGLINK = true ∧
    s.linkLost.on F.CTL_REG_STAT_BUSY = s.on F.CTL_REG_STAT_BUSY ∧ s.linkLost.rd F.SAFE_AGE_STAT_VPLAN = s.rd F.SAFE_AGE_STAT_VPLAN :=
  ⟨(modAge_on _ _ _).trans (State.on_set1_same s (f := F.CTL_REG_STAT_REGLINK) (by decide)),
    (modAge_on _ _ _).trans (State.on_set1_off s (f := F.CTL_REG_STAT_REGLINK) (by decide)),
    (modAge_rd _ _ _).trans (State.rd_set1_off s (f := F.CTL_REG_STAT_REGLINK) (by decide))⟩

theorem linkLost_age (s : State) : s.linkLost.age = { s.age with blocked := true } := by
  unfold State.linkLost State.set1
  rw [modAge_age, State.wr_age]

theorem reglink_eq {s : State} {v : Nat} (nack pec : Bool) (asked : s.age.req = some v) : exec (.reglink nack pec) s =
    .next (((s.requestEnds nack pec).linkLost.fault ⟨0x601, 0, rgCtl, 2, 0, 0, 0, false, false⟩).planRest.finishAll
      (fun e => e.opcode = 0x901) stsNoMargin 0) := by
  change execReglink nack pec s = _
  unfold execReglink State.linkLost
  rw [asked]

theorem reglink_ends {s : State} {v : Nat} (nack pec : Bool) (asked : s.age.req = some v) :
    ∃ t, exec (.reglink nack pec) s = .next t ∧ t.age.req = none ∧ t.on F.CTL_REG_STAT_BUSY = false ∧ t.age.blocked = true ∧
      t.on F.CTL_REG_STAT_REGLINK = true ∧ t.rd F.SAFE_AGE_STAT_VPLAN = s.rd F.SAFE_AGE_STAT_VPLAN ∧ ∃ r ∈ t.saf.recs, r.code = 0x601 := by
  obtain ⟨age, idle, vplan⟩ := requestEnds_shows s nack pec
  obtain ⟨lost, busy, kept⟩ := linkLost_shows (s.requestEnds nack pec)
  have gone := linkLost_age (s.requestEnds nack pec)
  refine ⟨_, reglink_eq nack pec asked, ?_⟩
  generalize (s.requestEnds nack pec).linkLost = x at lost busy kept gone
  have frame := fault_frame x ⟨0x601, 0, rgCtl, 2, 0, 0, 0, false, false⟩
  have recorded := fault_recorded x ⟨0x601, 0, rgCtl, 2, 0, 0, 0, false, false⟩
  generalize x.fault ⟨0x601, 0, rgCtl, 2, 0, 0, 0, false, false⟩ = told at frame recorded
  have rest := planEnds_planned told stsNoMargin
  rw [age] at gone
  refine ⟨?_, ?_, ?_, ?_, ?_, ?_⟩
  · rw [rest.req, frame.age, gone]
  · exact (rest.frame.on_steady (f := F.CTL_REG_STAT_BUSY) planReg_vout).trans
      ((frame.on_steady (f := F.CTL_REG_STAT_BUSY) (by decide)).trans (busy.trans idle))
  · rw [rest.blocked, frame.age, gone]
  · exact (rest.frame.on_steady (f := F.CTL_REG_STAT_REGLINK) planReg_vout).trans
      ((frame.on_steady (f := F.CTL_REG_STAT_REGLINK) (by decide)).trans lost)
  · exact rest.vplan.trans ((frame.rd_steady (f := F.SAFE_AGE_STAT_VPLAN) (by decide)).trans (kept.trans vplan))
  · rw [rest.frame.saf]
    exact recorded

/-! ## The obligation -/

/-- Settles O55: the counters, the ring oscillators and the switches as measured; a re-plan derates each channel by its worst leg or asks
the regulator, whose answer ends the request. -/
theorem ageingIsMeasuredAndPlannedFor : Obligations.AgeingIsMeasuredAndPlannedFor := by
  unfold Obligations.AgeingIsMeasuredAndPlannedFor
  intro p s n core
  refine ⟨fun acc sel => ageingRead_answers acc sel, fun acc => repairStatus_answers acc, fun acc => baskRead_answers acc,
    fun awake => baskTick_counts core awake, fun w awake kept on lt => ringOscWindow_accepts n.isLt w awake kept on lt,
    fun legM high code isns => ⟨fun out => ronSample_out out,
      fun plays active idle low high' => ronSample_stores plays active idle low high'⟩,
    fun free own => ⟨fun counts temps invalid acc plain => replan_answers n.isLt free own counts temps invalid acc plain,
      fun counts temps acc dry => replan_shows counts temps acc dry, fun state waits => ?_, fun state runs running => ⟨fun invalid => ?_,
      fun d largest reach below able allowed => ?_⟩⟩,
    fun v nack pec asked low => ⟨regAcknowledge_ends nack pec asked low, reglink_ends nack pec asked⟩⟩
  · rw [replanRun_runs free state, if_pos waits]
    rfl
  · refine ⟨s.planRest, ?_, (planRest_planned s).req.trans free, planRest_aage n.isLt own⟩
    rw [replanRun_runs free state, if_neg (by rw [runs]; exact Bool.false_ne_true), if_pos running, replan_unasked invalid]
  · refine ⟨(s.headroom d).request (vPlan d), ?_, request_asks _ _⟩
    rw [replanRun_runs free state, if_neg (by rw [runs]; exact Bool.false_ne_true), if_pos running,
      replan_asks largest reach below able allowed]

end Sys2Proof.Machine
end

section
/-!
# What a reaction of the chip may touch (spec/15_safety.md, R671 to R676)

A reaction moves the outputs, the load diagnostics, the fault records and what shows them. `Reacts s t` says that a stretch of one takes
`s` to `t`; it keeps CSS and SMOK, Papol's seat, and of the monitor's own state all but the records.
-/

namespace Sys2Proof.Machine

-- One theorem after the other: in one text, theorems that wait for the kernel would each hold a thread.
set_option Elab.async false

/-! ## Papol's seat -/

/-- What events and the ends of commands leave of Papol's own state: whether it runs, from which image, and what is pinned. -/
def Papol.seat (p : Papol) : PapolRun × BootPhase × Word × Nat × Bool × BitVec 3 × BitVec 3 × Bool :=
  (p.run, p.boot, p.version, p.roll, p.resetDue, p.pinPlace, p.pinTrack, p.pinAge)

theorem trimEvents_seat : ∀ (n : Nat) (s : State), (s.trimEvents n).pap.seat = s.pap.seat
  | 0, _ => rfl
  | n + 1, s => by
    have key : ∀ u : State, u.pap.seat = s.pap.seat → (u.trimEvents n).pap.seat = s.pap.seat := fun u same =>
      (trimEvents_seat n u).trans same
    unfold State.trimEvents
    split
    · rfl
    · split
      · rfl
      · dsimp only
        split
        · unfold State.keepRepost
          split <;> exact key _ rfl
        · split
          · exact key _ rfl
          · exact key _ rfl

theorem flushEvents_seat : ∀ (l acc : List EventEntry) (s : State), (State.flushEvents acc l s).pap.seat = s.pap.seat
  | [], _, _ => rfl
  | e :: rest, acc, s => by
    unfold State.flushEvents
    split
    · exact flushEvents_seat rest _ s
    · split
      · exact flushEvents_seat rest _ _
      · rfl

theorem issueAt_seat (s : State) (code : Nat) (ws : List Word) (r : Bool) (time : Word64) : (s.issueAt code ws r time).pap.seat = s.pap.seat :=
  (flushEvents_seat _ [] _).trans (trimEvents_seat 4 _)

theorem raiseR_seat (s : State) (code : Nat) (ws : List Word) (r : Bool) : (s.raiseR code ws r).pap.seat = s.pap.seat := by
  unfold State.raiseR
  split
  · rw [issueAt_seat, sysRun_pap]
  · split <;> rfl

theorem raiseClamps_seat (op : Nat) : ∀ (cl : List Clamp) (s : State), (s.raiseClamps op cl).pap.seat = s.pap.seat
  | [], _ => rfl
  | _ :: cl, s => (raiseClamps_seat op cl _).trans (raiseR_seat s _ _ false)

theorem countCfg_seat (s : State) (cfg : Bool) (st : Nat) : (s.countCfg cfg st).pap.seat = s.pap.seat := by
  unfold State.countCfg
  split <;> rfl

theorem postDone_seat (s : State) (e : PendEntry) (st d : Nat) (ws : List Word) (cl : List Clamp) (time : Word64) :
    (s.postDone e st d ws cl time).pap.seat = s.pap.seat :=
  (raiseClamps_seat _ cl _).trans ((issueAt_seat _ _ _ _ _).trans (countCfg_seat _ _ _))

theorem finish_seat (s : State) (e : PendEntry) (st d : Nat) (ws : List Word) (cl : List Clamp) : (s.finish e st d ws cl).pap.seat = s.pap.seat := by
  by_cases run : s.pap.run = .running
  · rw [finish_running run, postDone_seat, sysRun_pap]
  · unfold State.finish State.finishWith
    rw [if_neg run]
    rfl

theorem finishAll_seat (s : State) (sel : PendEntry → Bool) (st d : Nat) : (s.finishAll sel st d).pap.seat = s.pap.seat :=
  foldl_same (fun z => z.pap.seat) (fun x e => finish_seat x e st d [] []) _ s

/-! ## A stretch of a reaction -/

/-- The parts that a reaction may change. -/
def reactParts : Parts :=
  { spks := true, groups := true, out := true, clk := true, diag := true, hp := true, cv := true, hpcv := true, pwr := true, saf := true,
    draw := true }

/-- The registers that a reaction may move: of the region OUT, of the load diagnostics, FAULT_N and the records, the power of the domains,
the error collectors. -/
def reactReg (a : Nat) : Prop :=
  (0x300000 ≤ a ∧ a < 0x400000) ∨ a = Reg.SAFE_SM_STAT ∨ a = Reg.SAFE_FN_STAT ∨ 0x402100 ≤ a ∨ a = Reg.PWR_DOMSTAT ∨ a % 0x100000 = 0xFFF00

theorem reactReg_state : ¬ reactReg Reg.PWR_STATE := by unfold reactReg; decide

theorem reactReg_out {a : Nat} (lo : 0x300000 ≤ a) (hi : a < 0x400000) : reactReg a := .inl ⟨lo, hi⟩

theorem reactReg_diag {a : Nat} (lo : 0x402100 ≤ a) : reactReg a := .inr (.inr (.inr (.inl lo)))

theorem reactReg_err (region : Nat) : reactReg (errLevel region).addr := by
  show reactReg (0x0FFF00 + 0x100000 * region)
  unfold reactReg
  omega

/-- A stretch of a reaction once the chip's state is entered. -/
structure Reacts (s t : State) : Prop where
  frame : Frame reactParts reactReg s t
  seat  : t.pap.seat = s.pap.seat
  css   : t.rd F.SAFE_SM_STAT_CSS = s.rd F.SAFE_SM_STAT_CSS
  smok  : t.on F.SAFE_SM_STAT_SMOK = s.on F.SAFE_SM_STAT_SMOK
  saf   : { t.saf with recs := s.saf.recs, next := s.saf.next } = s.saf

namespace Reacts

variable {s t u : State}

theorem refl (s : State) : Reacts s s := ⟨.refl reactReg_state s, rfl, rfl, rfl, rfl⟩

theorem trans (h : Reacts s t) (k : Reacts t u) : Reacts s u := by
  refine ⟨h.frame.trans k.frame, k.seat.trans h.seat, k.css.trans h.css, k.smok.trans h.smok, ?_⟩
  have e := congrArg (fun x : Saf => { x with recs := s.saf.recs, next := s.saf.next }) k.saf
  exact e.trans h.saf

/-- A stretch in which Papol's own state alone changes. -/
theorem papol (h : Reacts s t) (k : Frame {} (fun _ => False) t u) (seat : u.pap.seat = t.pap.seat) : Reacts s u :=
  h.trans ⟨k.widen.mono (fun _ r => r.elim) reactReg_state, seat, k.rd_steady (f := F.SAFE_SM_STAT_CSS) id,
    k.on_steady (f := F.SAFE_SM_STAT_SMOK) id, by rw [k.saf]⟩

/-- A stretch that leaves the registers, the memory, Papol and the monitor alone. -/
theorem upd (h : Reacts s t) (rest : t.but reactParts u = t) (regs : u.regs = t.regs := by rfl) (mem : u.mem = t.mem := by rfl)
    (poison : u.poison = t.poison := by rfl) (pap : u.pap = t.pap := by rfl) (saf : u.saf = t.saf := by rfl) : Reacts s u := by
  have frame : Frame reactParts reactReg t u := (Frame.refl reactReg_state t).upd rest regs mem poison
  refine h.trans ⟨frame, congrArg Papol.seat pap, ?_, ?_, by rw [saf]⟩
  · exact rd_same (f := F.SAFE_SM_STAT_CSS) (by unfold State.reg; rw [regs])
  · exact on_same (f := F.SAFE_SM_STAT_SMOK) (by unfold State.reg; rw [regs])

theorem setReg (h : Reacts s t) {a : Nat} {w : Word} (own : reactReg a) (stat : a ≠ Reg.SAFE_SM_STAT) : Reacts s (t.setReg a w) := by
  have same : (t.setReg a w).reg Reg.SAFE_SM_STAT = t.reg Reg.SAFE_SM_STAT := State.reg_setReg_ne t w (Ne.symm stat)
  exact h.trans ⟨(Frame.refl reactReg_state t).setReg own, rfl, rd_same (f := F.SAFE_SM_STAT_CSS) same, on_same (f := F.SAFE_SM_STAT_SMOK) same, rfl⟩

theorem wr (h : Reacts s t) {f : Field} {v : Nat} (own : reactReg f.addr) (stat : f.addr ≠ Reg.SAFE_SM_STAT) : Reacts s (t.wr f v) :=
  h.setReg own stat

/-- A register of the region OUT. -/
theorem out (h : Reacts s t) {f : Field} {v : Nat} (lo : 0x300000 ≤ f.addr) (hi : f.addr < 0x400000) : Reacts s (t.wr f v) :=
  h.wr (reactReg_out lo hi) (fun e => by rw [e] at hi; exact absurd hi (by decide))

/-- A field of SAFE_SM_STAT other than CSS and SMOK. -/
theorem stat (h : Reacts s t) {f : Field} {v : Nat} (place : f.addr = Reg.SAFE_SM_STAT) (low : f.lo + f.width ≤ 28 ∨ (f.lo = 29 ∧ f.width = 1)) :
    Reacts s (t.wr f v) := by
  have fits : f.lo + f.width ≤ 32 := by omega
  have own : reactReg f.addr := .inr (.inl place)
  refine h.trans ⟨(Frame.refl reactReg_state t).wr own, rfl, ?_, ?_, rfl⟩
  · exact State.rd_wr_off t v (apart_bits fits (.inr (show f.lo + f.width ≤ 30 by omega)))
  · refine State.on_wr_off t v (apart_bits fits ?_)
    rcases low with le | ⟨e, -⟩
    · exact .inr le
    · exact .inl (show 28 + 1 ≤ f.lo by omega)

theorem ite {c : Prop} [Decidable c] (h : Reacts s t) (k : Reacts s u) : Reacts s (if c then t else u) := by
  split
  · exact h
  · exact k

theorem foldl {α : Type} {f : State → α → State} : ∀ {l : List α} {t : State}, (∀ x a, a ∈ l → Reacts s x → Reacts s (f x a)) →
    Reacts s t → Reacts s (l.foldl f t)
  | [], _, _, h => h
  | a :: l, t, hf, h => foldl (l := l) (fun x b mem => hf x b (List.mem_cons_of_mem a mem)) (hf t a List.mem_cons_self h)

theorem forEach {f : Nat → State → State} : ∀ {n : Nat} {t : State}, (∀ i x, i < n → Reacts s x → Reacts s (f i x)) →
    Reacts s t → Reacts s (Machine.forEach f n t)
  | 0, _, _, h => h
  | n + 1, _, hf, h => hf n _ (Nat.lt_succ_self n) (forEach (fun i x lt => hf i x (Nat.lt_succ_of_lt lt)) h)

theorem forMask {f : Nat → State → State} {mask n : Nat} (hf : ∀ i x, i < n → Reacts s x → Reacts s (f i x)) (h : Reacts s t) :
    Reacts s (Machine.forMask mask f n t) :=
  forEach (fun i x lt k => .ite (hf i x lt k) k) h

/-! Events, commands that end, fault records. -/

theorem raiseR (h : Reacts s t) (code : Nat) (ws : List Word) (r : Bool) : Reacts s (t.raiseR code ws r) :=
  h.papol (Frame.refl id t).raiseR (raiseR_seat t code ws r)

theorem finish (h : Reacts s t) (e : PendEntry) (st d : Nat) (ws : List Word) (cl : List Clamp) : Reacts s (t.finish e st d ws cl) :=
  h.papol (Frame.refl id t).finish (finish_seat t e st d ws cl)

theorem finishAll (h : Reacts s t) (sel : PendEntry → Bool) (st d : Nat) : Reacts s (t.finishAll sel st d) :=
  h.papol (Frame.refl id t).finishAll (finishAll_seat t sel st d)

theorem recs (h : Reacts s t) (l : List FaultRec) (n : Nat) : Reacts s { t with saf := { t.saf with recs := l, next := n } } :=
  h.trans ⟨(Frame.refl reactReg_state t).upd rfl, rfl, rfl, rfl, rfl⟩

theorem showFn (h : Reacts s t) : Reacts s t.showFn :=
  ((h.wr (f := F.SAFE_FN_STAT_DRIVE) (.inr (.inr (.inl rfl))) (by decide)).stat (f := F.SAFE_SM_STAT_FN) rfl (.inr ⟨rfl, rfl⟩)).stat
    (f := F.SAFE_SM_STAT_ACTCNT) rfl (.inl (by decide))

theorem drawn (h : Reacts s t) : Reacts s t.drawn := h.upd rfl

theorem recRoom (h : Reacts s t) : Reacts s t.recRoom := by
  unfold State.recRoom
  exact .ite h (.ite (h.recs _ _) ((h.recs _ _).stat (f := F.SAFE_SM_STAT_RECLOST) rfl (.inl (by decide))))

theorem fault (h : Reacts s t) (f : FaultInfo) : Reacts s (t.fault f) := by
  unfold State.fault
  split
  · exact (h.recs _ _).showFn
  · exact ((((h.drawn.recRoom).recs _ _).stat (f := F.SAFE_SM_STAT_LASTREC) rfl (.inl (by decide))).showFn).raiseR _ _ _

theorem escalated (h : Reacts s t) (region : Nat) : Reacts s (t.escalated region) := by
  have stat : (errLevel region).addr ≠ Reg.SAFE_SM_STAT := by
    show 0x0FFF00 + 0x100000 * region ≠ 0x400000
    omega
  unfold State.escalated
  exact .ite h ((h.wr (f := errEsc region) (reactReg_err region) stat).wr (f := errChipEsc region) (reactReg_err region) stat)

end Reacts

end Sys2Proof.Machine
end

section
/-!
# The outputs under a reaction (spec/08_speaker_channels.md; spec/12_headphone_line_cv.md; spec/10_load_jack_diagnostics.md, R498)
-/

namespace Sys2Proof.Machine

-- One theorem after the other: in one text, theorems that wait for the kernel would each hold a thread.
set_option Elab.async false

theorem master_lt (s : State) {n : Nat} (few : n < 12) : s.master n < 12 := by
  unfold State.master
  split <;> omega

namespace Reacts

variable {s t : State}

/-! ## What the channels show -/

theorem acSpoil (h : Reacts s t) (n : Nat) : Reacts s (t.acSpoil n) := by
  unfold State.acSpoil
  split
  · exact .ite (h.upd rfl) h
  · exact h

theorem acWatch (h : Reacts s t) : Reacts s t.acWatch := by
  unfold State.acWatch
  split
  · exact .ite (h.acSpoil _) h
  · exact h

theorem modOut (h : Reacts s t) (f : OutX → OutX) : Reacts s (t.modOut f) := h.upd rfl

theorem modSpk (h : Reacts s t) (n : Nat) (f : SpkX → SpkX) : Reacts s (t.modSpk n f) := h.upd rfl

theorem modGrp (h : Reacts s t) (g : Nat) (f : GroupX → GroupX) : Reacts s (t.modGrp g f) := h.upd rfl

theorem spkStat (h : Reacts s t) {n : Nat} (few : n < 12) {f : Field} {v : Nat} (place : f.addr = Reg.OUT_SPK_STAT n) : Reacts s (t.wr f v) :=
  h.out (by rw [place]; unfold Reg.OUT_SPK_STAT; omega) (by rw [place]; unfold Reg.OUT_SPK_STAT; omega)

theorem crkShown (h : Reacts s t) : Reacts s t.crkShown := by
  have crk : Reacts s (Machine.forEach (fun n s => s.wr (F.OUT_SPK_STAT_CRK n) (b2n (s.croaking n))) 12 t) :=
    .forEach (fun n x lt k => k.spkStat lt rfl) h
  unfold State.crkShown
  dsimp only
  refine Reacts.modOut ?_ _
  exact (crk.out (f := F.OUT_CRK_STAT_ACTIVE) (by decide) (by decide)).out (f := F.OUT_CRK_STAT_CHPLAY) (by decide) (by decide)

theorem lostGone (h : Reacts s t) : Reacts s t.lostGone := .ite (h.recs _ _).showFn h

theorem outShow (h : Reacts s t) : Reacts s t.outShow := by
  rw [outShow_eq]
  exact h.lostGone.crkShown.acWatch

/-! ## Load tests -/

theorem diagReg (h : Reacts s t) {a : Nat} {w : Word} (own : 0x402100 ≤ a) : Reacts s (t.setReg a w) :=
  h.setReg (reactReg_diag own) (fun e => by rw [e] at own; exact absurd own (by decide))

theorem diag (h : Reacts s t) (x : DiagX) : Reacts s { t with diag := x } := h.upd rfl

theorem dcNone (h : Reacts s t) (n res : Nat) : Reacts s (t.dcNone n res) :=
  .foldl (fun x k _ h => h.diagReg (by unfold Reg.SAFE_LDIAG_DC; omega)) h

theorem dcDrop (h : Reacts s t) (p : Nat → Bool) (st : Nat) : Reacts s (t.dcDrop p st) := by
  unfold State.dcDrop
  dsimp only
  have none : Reacts s ((t.diag.dc.filter p).foldl (fun (s : State) n => s.dcNone n 9) t) := .foldl (fun x n _ h => h.dcNone n 9) h
  exact .ite (.ite (Reacts.finishAll (none.diag _) _ _ _) (none.diag _)) h

theorem acEnd (h : Reacts s t) (a : AcTest) (acres cest st : Nat) : Reacts s (t.acEnd a acres cest st) := by
  unfold State.acEnd
  refine Reacts.finishAll (Reacts.diag (.foldl (fun x k _ h => ?_) h) _) _ _ _
  exact ((h.diagReg (by unfold Reg.SAFE_LDIAG_AC; omega)).diagReg (by unfold Reg.SAFE_LDIAG_ZLO; omega)).diagReg
    (by unfold Reg.SAFE_LDIAG_ZHI; omega)

theorem acDrop (h : Reacts s t) (p : AcTest → Bool) (st : Nat) : Reacts s (t.acDrop p st) := by
  unfold State.acDrop
  split
  · exact .ite (h.acEnd _ _ _ _) h
  · exact h

theorem diagPoll (h : Reacts s t) : Reacts s t.diagPoll := (h.dcDrop _ _).acDrop _ _

theorem diagAbort (h : Reacts s t) (n : Nat) : Reacts s (t.diagAbort n) := (h.dcDrop _ _).acDrop _ _

theorem diagStop (h : Reacts s t) (st : Nat) : Reacts s (t.diagStop st) := (h.dcDrop _ _).acDrop _ _

/-! ## A channel's phase -/

theorem spkPoll (h : Reacts s t) : Reacts s t.spkPoll := h.finishAll _ _ _

theorem setPhase (h : Reacts s t) {n : Nat} (few : n < 12) (ph : Nat) : Reacts s (t.setPhase n ph) :=
  ((((h.spkStat (f := F.OUT_SPK_STAT_PHASE n) few rfl).spkStat (f := F.OUT_SPK_STAT_MUTED n) few rfl).modOut _).spkPoll).outShow.diagPoll

theorem supersede (h : Reacts s t) (op n : Nat) : Reacts s (t.supersede op n) := by
  unfold State.supersede
  split
  · exact (h.modOut _).finish _ _ _ _ _
  · exact h

theorem ramp (h : Reacts s t) {n : Nat} (few : n < 12) (ph pos : Nat) (fast : Bool) : Reacts s (t.ramp n ph pos fast) :=
  (h.modSpk n _).setPhase few ph

theorem tryUnmute (h : Reacts s t) {n : Nat} (few : n < 12) : Reacts s (t.tryUnmute n) :=
  .ite (h.ramp few _ _ _) (h.spkStat (f := F.OUT_SPK_STAT_MUTED n) few rfl)

theorem toHold (h : Reacts s t) {n : Nat} (few : n < 12) : Reacts s (t.toHold n) := (h.setPhase few _).tryUnmute few

theorem applyPairs (h : Reacts s t) {g : Nat} (few : g < 3) : Reacts s (t.applyPairs g) := by
  refine .forEach (fun k x lt h => ?_) h
  exact .ite (((h.modGrp g _).modSpk _ _).setPhase (by omega) _) h

theorem toOff (h : Reacts s t) {n : Nat} (few : n < 12) : Reacts s (t.toOff n) :=
  ((h.modSpk n _).setPhase few _).applyPairs (by omega)

theorem beginCheck (h : Reacts s t) {n : Nat} (few : n < 12) : Reacts s (t.beginCheck n) := (h.modSpk n _).setPhase few _

theorem startChan (h : Reacts s t) {n : Nat} (few : n < 12) (alert : Bool) : Reacts s (t.startChan n alert) := by
  unfold State.startChan
  dsimp only
  have on := (h.modSpk n fun x => { x with on := true, short := if t.phase n = phOff then alert else x.short, stopWait := none }).diagPoll
  refine .ite h (.ite (.ite (on.beginCheck few) (on.modSpk n _)) (.ite ((on.supersede _ _).ramp few _ _ _) (.ite ?_ (on.tryUnmute few))))
  have ramped := (on.supersede 0x303 n).ramp few phUnmute (t.rampPos n) false
  exact .ite (ramped.toHold few) ramped

theorem outFault (h : Reacts s t) (code df sub unit detail : Nat) (active : Bool) : Reacts s (t.outFault code df sub unit detail active) :=
  (h.fault _).escalated _

theorem recordShort (h : Reacts s t) (n sclass : Nat) : Reacts s (t.recordShort n sclass) := .ite ((h.modSpk n _).outFault _ _ _ _ _ _) h

theorem unhold (h : Reacts s t) {n : Nat} (few : n < 12) : Reacts s (t.unhold n) :=
  (((h.recordShort n 0).modSpk n _).spkStat (f := F.OUT_SPK_STAT_SCLASS n) few rfl).toOff few

theorem holdNow (h : Reacts s t) {n : Nat} (few : n < 12) : Reacts s (t.holdNow n) := .ite (h.setPhase few _) h

/-! ## The croaker and Fault hold -/

theorem changes (h : Reacts s t) (x : Pwr) : Reacts s { t with pwr := x } := h.upd rfl

theorem domUp (h : Reacts s t) (d : Nat) : Reacts s (t.domUp d) :=
  h.wr (f := domBit d) (.inr (.inr (.inr (.inr (.inl rfl))))) (show Reg.PWR_DOMSTAT ≠ Reg.SAFE_SM_STAT by decide)

theorem ownUse (h : Reacts s t) (d : Nat) : Reacts s (t.ownUse d) := by
  unfold State.ownUse State.need
  split
  · exact h
  · split
    · exact Reacts.domUp (Reacts.changes (h.finishAll _ _ _) _) d
    · exact h

theorem autostart (h : Reacts s t) (mask : Nat) : Reacts s (t.autostart mask) :=
  .forMask (fun _ _ lt h => .ite ((h.ownUse _).startChan lt true) h) h

theorem crkLost (h : Reacts s t) (k n : Nat) : Reacts s (t.crkLost k n) :=
  have lost := h.outFault 0x30A 1 k n 0 true
  (Reacts.ite (lost.autostart _) lost).outShow

theorem chanLost (h : Reacts s t) (n : Nat) : Reacts s (t.chanLost n) :=
  .ite (.forEach (fun k _ _ h => .ite (h.crkLost k n) h) h) h

theorem faultHold (h : Reacts s t) {ch : Nat} (few : ch < 12) (why : Nat) : Reacts s (t.faultHold ch why) := by
  have lt := master_lt t few
  have lost := ((h.modSpk (t.master ch)
    (fun x => { x with why := why, start := false, run := 0, dcBad := false, stopWait := none, short := false })).setPhase lt phFault).chanLost (t.master ch)
  unfold State.faultHold
  exact .ite (lost.unhold lt) lost

/-! ## The headphone and line outputs -/

theorem hpl (h : Reacts s t) {f : Field} {v : Nat} (place : f.addr = Reg.OUT_HPL_STAT) : Reacts s (t.wr f v) :=
  h.out (by rw [place]; decide) (by rw [place]; decide)

theorem showJhold (h : Reacts s t) : Reacts s t.showJhold := h.hpl rfl

theorem waits (h : Reacts s t) (x : HpCvX) : Reacts s { t with hpcv := x } := h.upd rfl

theorem setHo (h : Reacts s t) (o ph : Nat) : Reacts s (t.setHo o ph) := by
  have field : (hoField o).addr = Reg.OUT_HPL_STAT := by unfold hoField; split <;> rfl
  exact Reacts.showJhold (Reacts.finishAll (Reacts.waits (h.hpl field) _) _ _ _)

theorem modHp (h : Reacts s t) (o : Nat) (f : HpX → HpX) : Reacts s (t.modHp o f) := h.upd rfl

theorem hpSafe (h : Reacts s t) (off : Bool) : Reacts s (t.hpSafe off) :=
  .forEach (fun o _ _ h => .ite (.ite h ((h.modHp o _).setHo o _)) (.ite (h.setHo o _) h)) h

/-! ## The CV channels -/

theorem modCv (h : Reacts s t) (n : Nat) (f : CvX → CvX) : Reacts s (t.modCv n f) := h.upd rfl

theorem cvStat (h : Reacts s t) {n : Nat} (few : n < 4) {f : Field} {v : Nat} (place : f.addr = Reg.OUT_CV_STAT n) : Reacts s (t.wr f v) :=
  h.out (by rw [place]; unfold Reg.OUT_CV_STAT; omega) (by rw [place]; unfold Reg.OUT_CV_STAT; omega)

theorem cvPut (h : Reacts s t) {n : Nat} (few : n < 4) (c : Nat) : Reacts s (t.cvPut n c) :=
  .ite (h.modCv n _) (.ite ((h.modCv n _).cvStat (f := F.OUT_CV_STAT_DEGL n) few rfl) (h.cvStat (f := F.OUT_CV_STAT_OUTCODE n) few rfl))

theorem cvSettle (h : Reacts s t) {n : Nat} (few : n < 4) : Reacts s (t.cvSettle n) := by
  have shown := h.cvStat (f := F.OUT_CV_STAT_CLR n) (v := b2n (t.cvClears n)) few rfl
  exact Reacts.cvStat (f := F.OUT_CV_STAT_SLEWING n)
    (.ite (.ite shown (shown.cvPut few _)) (.ite (shown.cvPut few _) shown)) few rfl

theorem cvSettleAll (h : Reacts s t) : Reacts s t.cvSettleAll := .forEach (fun _ _ lt h => h.cvSettle lt) h

end Reacts

end Sys2Proof.Machine
end

section
/-!
# Faults at chip level (spec/15_safety.md, R671 to R676)
-/

namespace Sys2Proof.Machine

-- One theorem after the other: in one text, theorems that wait for the kernel would each hold a thread.
set_option Elab.async false

/-! ## The chip safe state is entered -/

/-- The monitor's own state `y` with the records, the work and the cause of `x`. -/
def Saf.contained (x y : Saf) : Saf :=
  { y with recs := x.recs, next := x.next, work := x.work, cause := x.cause, causeAt := x.causeAt, fixed := x.fixed }

/-- What a fault at chip level leaves alone, whatever its reaction: what no reaction moves, SMOK, Papol's seat, and of the monitor's own
state all but the records, the work and the cause. -/
structure Contained (s t : State) : Prop where
  frame : Frame reactParts reactReg s t
  seat  : t.pap.seat = s.pap.seat
  smok  : t.on F.SAFE_SM_STAT_SMOK = s.on F.SAFE_SM_STAT_SMOK
  saf   : s.saf.contained t.saf = s.saf
  work  : ∀ w ∈ t.saf.work, w ∈ s.saf.work

section
variable {s t u : State}

/-- A part of the monitor's own state other than the records. -/
theorem Reacts.part {α : Type} (h : Reacts s t) (f : Saf → α)
    (same : ∀ (x : Saf) (l : List FaultRec) (n : Nat), f { x with recs := l, next := n } = f x := by intros; rfl) : f t.saf = f s.saf := by
  have e := congrArg f h.saf
  rwa [same] at e

theorem Reacts.contained (h : Reacts s t) : Contained s t := by
  refine ⟨h.frame, h.seat, h.smok, ?_, fun w mem => by rwa [← h.part Saf.work]⟩
  have e := congrArg s.saf.contained h.saf
  exact e

theorem Contained.refl (s : State) : Contained s s := (Reacts.refl s).contained

theorem Contained.trans (h : Contained s t) (k : Contained t u) : Contained s u := by
  refine ⟨h.frame.trans k.frame, k.seat.trans h.seat, k.smok.trans h.smok, ?_, fun w mem => h.work w (k.work w mem)⟩
  have e := congrArg s.saf.contained k.saf
  exact e.trans h.saf

theorem Contained.ite {c : Prop} [Decidable c] (h : Contained s t) (k : Contained s u) : Contained s (if c then t else u) := by
  split
  · exact h
  · exact k

theorem Contained.fixed (s : State) (b : Bool) : Contained s { s with saf := { s.saf with fixed := b } } :=
  ⟨(Frame.refl reactReg_state s).upd rfl, rfl, rfl, rfl, fun _ => id⟩

/-- The monitor's part in the entry of a chip safe state. -/
def State.causeTaken (s : State) (recno region code unit : Nat) : State :=
  { s with saf := { s.saf with work := s.saf.work.filter Work.restarts, cause := recno, causeAt := (region, code, unit), fixed := s.saf.fixed || reactionFixed code unit } }

/-- Every region's collector shows chip level. -/
def State.levelsUp (s : State) : State := Machine.forEach (fun r (s : State) => s.wr (errLevel r) 4) 5 s

/-- The transition under way is to end with its step. -/
def State.halting (s : State) : State := { s with pwr := { s.pwr with halt := s.on F.PWR_STATE_TRANS } }

theorem chipState_eq (s : State) (mode recno region code unit : Nat) : s.chipState mode recno region code unit =
    ((((s.causeTaken recno region code unit).levelsUp.halting).wr F.SAFE_SM_STAT_CSS mode).showFn).raiseSafe 1 2 mode region recno code unit := by
  unfold State.chipState State.halting State.levelsUp State.causeTaken
  dsimp only

theorem causeTaken_contained (s : State) (recno region code unit : Nat) : Contained s (s.causeTaken recno region code unit) :=
  ⟨(Frame.refl reactReg_state s).upd rfl, rfl, rfl, rfl, fun _ mem => (List.mem_filter.1 mem).1⟩

theorem errLevel_stat (region : Nat) : (errLevel region).addr ≠ Reg.SAFE_SM_STAT := by
  show 0x0FFF00 + 0x100000 * region ≠ 0x400000
  omega

theorem levelsUp_reacts (s : State) : Reacts s s.levelsUp := by
  unfold State.levelsUp
  exact .forEach (fun r _ _ h => h.wr (f := errLevel r) (reactReg_err r) (errLevel_stat r)) (.refl s)

theorem Saf.contained_self (x : Saf) : x.contained x = x := rfl

theorem css_contained (s : State) (mode : Nat) : Contained s (s.wr F.SAFE_SM_STAT_CSS mode) := by
  refine ⟨(Frame.refl reactReg_state s).wr (.inr (.inl rfl)), congrArg Papol.seat (State.wr_pap s _ _),
    State.on_wr_off s mode (f := F.SAFE_SM_STAT_CSS) (by decide), ?_, fun w mem => ?_⟩
  · rw [State.wr_saf, Saf.contained_self]
  · rwa [State.wr_saf] at mem

theorem Reacts.raiseSafe (h : Reacts s t) (kind scope mode region recno code unit : Nat) :
    Reacts s (t.raiseSafe kind scope mode region recno code unit) := by
  unfold State.raiseSafe
  exact h.raiseR _ _ _

theorem chipState_contained (s : State) (mode recno region code unit : Nat) : Contained s (s.chipState mode recno region code unit) := by
  rw [chipState_eq]
  have taken := causeTaken_contained s recno region code unit
  generalize s.causeTaken recno region code unit = x at taken
  have levels := (levelsUp_reacts x).contained
  generalize x.levelsUp = y at levels
  have halted : Contained y y.halting := ((Reacts.refl y).changes _).contained
  generalize y.halting = z at halted
  have state := css_contained z mode
  generalize z.wr F.SAFE_SM_STAT_CSS mode = v at state
  exact ((taken.trans levels).trans (halted.trans state)).trans ((Reacts.refl v).showFn.raiseSafe _ _ _ _ _ _ _).contained

theorem chipState_css (s : State) {mode : Nat} (few : mode < 4) (recno region code unit : Nat) :
    (s.chipState mode recno region code unit).rd F.SAFE_SM_STAT_CSS = mode := by
  rw [chipState_eq]
  generalize (s.causeTaken recno region code unit).levelsUp.halting = z
  have shown : Reacts (z.wr F.SAFE_SM_STAT_CSS mode) (((z.wr F.SAFE_SM_STAT_CSS mode).showFn).raiseSafe 1 2 mode region recno code unit) :=
    (Reacts.refl _).showFn.raiseSafe _ _ _ _ _ _ _
  exact shown.css.trans (State.rd_wr_fits z (f := F.SAFE_SM_STAT_CSS) (by decide) few)

theorem chipState_saf (s : State) (mode recno region code unit : Nat) :
    (s.chipState mode recno region code unit).saf = (s.causeTaken recno region code unit).saf := by
  rw [chipState_eq]
  have levels : (s.causeTaken recno region code unit).levelsUp.saf = (s.causeTaken recno region code unit).saf := by
    generalize s.causeTaken recno region code unit = z
    rfl
  have safe : ∀ z : State, (z.raiseSafe 1 2 mode region recno code unit).saf = z.saf := fun z =>
    ((Frame.refl (m := {}) (R := fun _ => False) id z).raiseSafe).saf
  rw [safe]
  exact levels

end

/-! ## The reactions -/

theorem reactM_contained (s : State) (recno region code unit : Nat) : Contained s (s.reactM recno region code unit) := by
  unfold State.reactM
  refine .ite (.fixed s _) ((chipState_contained s 1 recno region code unit).trans (Reacts.contained ?_))
  exact Reacts.outShow (Reacts.hpSafe (.forEach (fun _ _ lt h => h.holdNow lt) (.refl _)) false)

/-- What reaction O does once its state is entered. -/
theorem reactO_reacts (s : State) (code : Nat) : Reacts s ((((Machine.forEach (fun n s =>
      if s.phase n = phOff ∨ s.phase n = phSlave ∨ held (s.phase n) then s.modSpk n fun x => { x with start := false }
      else s.faultHold n code) 12 s).hpSafe true).cvSettleAll).outShow) :=
  Reacts.outShow (Reacts.cvSettleAll (Reacts.hpSafe (.forEach (fun n _ lt h => .ite (h.modSpk n _) (h.faultHold lt code)) (.refl _)) true))

theorem reactO_entered {s : State} (out : s.rd F.SAFE_SM_STAT_CSS ≠ 2) (recno region code unit : Nat) :
    Reacts (s.chipState 2 recno region code unit) (s.reactO recno region code unit) := by
  unfold State.reactO
  rw [if_neg out]
  exact reactO_reacts _ code

theorem reactO_already {s : State} (css : s.rd F.SAFE_SM_STAT_CSS = 2) (recno region code unit : Nat) :
    s.reactO recno region code unit = { s with saf := { s.saf with fixed := s.saf.fixed || reactionFixed code unit } } := if_pos css

theorem reactO_contained (s : State) (recno region code unit : Nat) : Contained s (s.reactO recno region code unit) := by
  by_cases css : s.rd F.SAFE_SM_STAT_CSS = 2
  · rw [reactO_already css]
    exact .fixed s _
  · exact (chipState_contained s 2 recno region code unit).trans (reactO_entered css recno region code unit).contained

/-- Reaction O holds: CSS is 2, fixed where the fault says so. -/
theorem reactO_holds (s : State) (recno region code unit : Nat) : (s.reactO recno region code unit).rd F.SAFE_SM_STAT_CSS = 2 ∧
    (s.reactO recno region code unit).saf.fixed = (s.saf.fixed || reactionFixed code unit) := by
  by_cases css : s.rd F.SAFE_SM_STAT_CSS = 2
  · rw [reactO_already css]
    exact ⟨css, rfl⟩
  · have entered := reactO_entered css recno region code unit
    have state := chipState_saf s 2 recno region code unit
    refine ⟨entered.css.trans (chipState_css s (by decide) recno region code unit), ?_⟩
    have fixed : (s.reactO recno region code unit).saf.fixed = (s.chipState 2 recno region code unit).saf.fixed := entered.part Saf.fixed
    rw [fixed, state]
    rfl

theorem reactF_contained (s : State) (recno region code unit : Nat) : Contained s (s.reactF recno region code unit) := by
  unfold State.reactF
  refine .ite (.refl s) (Reacts.contained ?_)
  have clock : Reacts s { s with clk := { s.clk with ramp := none, due := false, placing := false, settling := false, stepping := false, gateLeft := 0 } } :=
    Reacts.upd (.refl s) rfl
  have fallback := clock.stat (f := F.SAFE_SM_STAT_FALLBACK) (v := 1) rfl (.inl (by decide))
  have still := (fallback.out (f := F.OUT_SW_STAT_GATE) (v := 0) (by decide) (by decide)).out (f := F.OUT_SW_STAT_RAMP) (v := 0) (by decide) (by decide)
  exact Reacts.outShow ((still.finishAll (fun e => e.opcode = 0x501 || e.opcode = 0x510 || e.opcode = 0x500) stsDenied 2).raiseSafe _ _ _ _ _ _ _)

theorem markFn_reacts (s : State) (recno : Nat) : Reacts s (s.markFn recno) := (Reacts.refl s).recs _ _

theorem react_contained (s : State) (r : Reaction) (recno region code unit : Nat) : Contained s (s.react r recno region code unit) := by
  have marked := (markFn_reacts s recno).contained
  cases r with
  | n => exact .refl s
  | m => exact .ite (marked.trans (reactM_contained _ _ _ _ _)) (marked.trans (reactO_contained _ _ _ _ _))
  | o => exact marked.trans (reactO_contained _ _ _ _ _)
  | f => exact reactF_contained s recno region code unit

theorem faulted_contained (s : State) (f : FaultInfo) (region : Nat) : Contained s ((s.fault f).escalated region) :=
  (((Reacts.refl s).fault f).escalated region).contained

theorem toChip_contained (s : State) (f : FaultInfo) : Contained s (s.toChip f) :=
  (faulted_contained s _ _).trans (react_contained _ _ _ _ _ _)

theorem toChipAs_contained (s : State) (r : Reaction) (f : FaultInfo) : Contained s (s.toChipAs r f) :=
  (faulted_contained s _ _).trans (react_contained _ _ _ _ _ _)

/-- A fault that takes reaction O leaves the device in the chip safe state, for good where it says so. -/
theorem react_o_holds (s : State) (recno region code unit : Nat) : (s.react .o recno region code unit).rd F.SAFE_SM_STAT_CSS = 2 ∧
    (s.react .o recno region code unit).saf.fixed = (s.saf.fixed || reactionFixed code unit) :=
  reactO_holds (s.markFn recno) recno region code unit

end Sys2Proof.Machine
end

section
/-!
# Papol posts what waited for it (spec/04_command_protocol.md, R180, R799; spec/16_security.md, R719 to R721)
-/

namespace Sys2Proof.Machine

-- One theorem after the other: in one text, theorems that wait for the kernel would each hold a thread.
set_option Elab.async false

/-- A field of CTL_SEC_STAT beside the session's own. -/
def sessionApart (f : Field) : Prop := f.addr = Reg.CTL_SEC_STAT → 16 ≤ f.lo ∧ (f.lo + f.width ≤ 21 ∨ 22 ≤ f.lo)

/-- A stretch of what Papol posts: its own state moves, and with a session that opens the session's registers and key. -/
structure Posts (s t : State) : Prop where
  frame : Frame { sec := true } (· = Reg.CTL_SEC_STAT) s t
  seat  : t.pap.seat = s.pap.seat
  rd    : ∀ f : Field, f.addr = Reg.CTL_SEC_STAT → sessionApart f → t.rd f = s.rd f

namespace Posts

variable {s t u : State}

theorem refl (s : State) : Posts s s := ⟨.refl (by decide) s, rfl, fun _ _ _ => rfl⟩

theorem trans (h : Posts s t) (k : Posts t u) : Posts s u :=
  ⟨h.frame.trans k.frame, k.seat.trans h.seat, fun f place apart => (k.rd f place apart).trans (h.rd f place apart)⟩

theorem papol (h : Posts s t) (k : Frame {} (fun _ => False) t u) (seat : u.pap.seat = t.pap.seat) : Posts s u :=
  h.trans ⟨k.widen.mono (fun _ r => r.elim) (by decide), seat, fun f place _ => k.rd_steady id (by rw [place]; decide)⟩

theorem pap (h : Posts s t) (x : Papol) (seat : x.seat = t.pap.seat) : Posts s { t with pap := x } := h.papol ((Frame.refl id t).pap x) seat

theorem sec (h : Posts s t) (x : Sec) : Posts s { t with sec := x } :=
  h.trans ⟨(Frame.refl (by decide) t).upd rfl, rfl, fun _ _ _ => rfl⟩

theorem session (h : Posts s t) {f : Field} {v : Nat} (own : f = F.CTL_SEC_STAT_SESS ∨ f = F.CTL_SEC_STAT_SESSNO) : Posts s (t.wr f v) := by
  have place : f.addr = Reg.CTL_SEC_STAT := by rcases own with rfl | rfl <;> rfl
  refine h.trans ⟨(Frame.refl (by decide) t).wr place, rfl, fun g here apart => ?_⟩
  obtain ⟨low, away⟩ := apart here
  have fits : f.lo + f.width ≤ 32 := by rcases own with rfl | rfl <;> decide
  refine State.rd_wr_off t v (apart_bits fits ?_)
  rcases own with rfl | rfl
  · rcases away with le | le
    · exact .inl (show g.lo + g.width ≤ 21 from le)
    · exact .inr (show 21 + 1 ≤ g.lo from le)
  · exact .inr (show 0 + 16 ≤ g.lo by omega)

theorem issueAt (h : Posts s t) (code : Nat) (ws : List Word) (r : Bool) (time : Word64) : Posts s (t.issueAt code ws r time) :=
  h.papol (Frame.refl id t).issueAt (issueAt_seat t code ws r time)

theorem postDone (h : Posts s t) (e : PendEntry) (st d : Nat) (ws : List Word) (cl : List Clamp) (time : Word64) :
    Posts s (t.postDone e st d ws cl time) :=
  h.papol (Frame.refl id t).postDone (postDone_seat t e st d ws cl time)

theorem closeSession (h : Posts s t) (cause : Nat) : Posts s (t.closeSession cause) := by
  unfold State.closeSession
  split
  · have closed := (h.sec { t.sec with key := none }).session (f := F.CTL_SEC_STAT_SESS) (v := 0) (.inl rfl)
    exact closed.papol (Frame.refl id _).raiseSecurity (raiseR_seat _ _ _ _)
  · exact h

theorem opened (h : Posts s t) : Posts s (((t.wrap F.CTL_SEC_STAT_SESSNO 1).set1 F.CTL_SEC_STAT_SESS).wr F.CTL_SEC_CNT_CONSEC 0) := by
  have counted : Posts s (t.wrap F.CTL_SEC_STAT_SESSNO 1) := h.session (.inr rfl)
  have shown : Posts s ((t.wrap F.CTL_SEC_STAT_SESSNO 1).set1 F.CTL_SEC_STAT_SESS) := counted.session (.inl rfl)
  exact shown.papol (Frame.of_papol (PapolBut.wr _ F.CTL_SEC_CNT_CONSEC 0 (.inr rfl)))
    (congrArg Papol.seat (State.wr_pap _ _ _))

theorem putKey (h : Posts s t) (key : Option (List Word × Nat)) : Posts s (t.putKey key) := by
  cases key with
  | none => exact h
  | some k => exact ((h.closeSession 4).sec { (t.closeSession 4).sec with key := some k.1, idleto := k.2, lockLen := 0 }).opened

theorem postRec (h : Posts s t) (e : PendEntry) (d : DoneRec) : Posts s (t.postRec e d) := (h.putKey d.key).postDone e _ _ _ _ _

end Posts

/-! ## Draining -/

/-- The oldest report posted. -/
def State.postReport (s : State) (r : Report) : State :=
  { s with pap := { s.pap with reports := s.pap.reports.drop 1 } }.issueAt r.ecode r.payload r.repost r.time

theorem drain_succ (n : Nat) (s : State) : (∃ r, State.drain (n + 1) s = State.drain n (s.postReport r) ∧ s.pap.reports.head? = some r) ∨
    (∃ e d, State.drain (n + 1) s = State.drain n (s.postRec e d) ∧ s.firstDone? = some (e, d)) ∨
    (State.drain (n + 1) s = s ∧ s.pap.reports.head? = none ∧ s.firstDone? = none) := by
  have eq := State.drain.eq_2 s n
  cases head : s.pap.reports.head? with
  | none =>
    cases done : s.firstDone? with
    | none =>
      rw [head, done] at eq
      exact .inr (.inr ⟨eq, rfl, rfl⟩)
    | some x =>
      rw [head, done] at eq
      exact .inr (.inl ⟨x.1, x.2, eq, rfl⟩)
  | some r =>
    cases done : s.firstDone? with
    | none =>
      rw [head, done] at eq
      exact .inl ⟨r, eq, rfl⟩
    | some x =>
      rw [head, done] at eq
      by_cases sooner : r.time.toNat ≤ x.2.time.toNat
      · exact .inl ⟨r, eq.trans (congrArg (State.drain n) (if_pos sooner)), rfl⟩
      · exact .inr (.inl ⟨x.1, x.2, eq.trans (congrArg (State.drain n) (if_neg sooner)), rfl⟩)

/-- What the posting of a report and of a command's end keep, a drain keeps. -/
theorem drain_holds {I : State → Prop} (report : ∀ s r, I s → I (s.postReport r))
    (post : ∀ s e d, s.firstDone? = some (e, d) → I s → I (s.postRec e d)) : ∀ (n : Nat) (s : State), I s → I (State.drain n s)
  | 0, _, h => h
  | n + 1, s, h => by
    rcases drain_succ n s with ⟨r, eq, -⟩ | ⟨e, d, eq, first⟩ | ⟨eq, -, -⟩
    · rw [eq]
      exact drain_holds report post n _ (report s r h)
    · rw [eq]
      exact drain_holds report post n _ (post s e d first h)
    · rw [eq]
      exact h

theorem postReport_posts {s t : State} (h : Posts s t) (r : Report) : Posts s (t.postReport r) :=
  (h.pap { t.pap with reports := t.pap.reports.drop 1 } rfl).issueAt _ _ _ _

theorem drain_posts (n : Nat) (s : State) : Posts s (State.drain n s) :=
  drain_holds (I := Posts s) (fun _ r h => postReport_posts h r) (fun _ e d _ h => h.postRec e d) n s (.refl s)

end Sys2Proof.Machine
end

section
/-!
# From reset to READY (spec/16_security.md, R715 to R718)
-/

namespace Sys2Proof.Machine

-- One theorem after the other: in one text, theorems that wait for the kernel would each hold a thread.
set_option Elab.async false

/-! ## What the start of the device leaves alone -/

/-- The parts that the start of the device may change: all but the security engine's and the host link's. -/
def bootParts : Parts :=
  { strs := true, tdm := true, spdif := true, graph := true, leap := true, eng := true, engMem := true, banks := true, spks := true,
    groups := true, crk := true, out := true, clk := true, diag := true, inp := true, tad := true, wkd := true, hp := true, cv := true,
    hpcv := true, madc := true, pwr := true, saf := true, age := true, draw := true }

/-- The registers that the start of the device may move. -/
def bootReg (a : Nat) : Prop := a ≠ 0x600 ∧ a ≠ 0x608 ∧ a ≠ 0x610 ∧ a ≠ Reg.PWR_STATE

theorem bootReg_state : ¬ bootReg Reg.PWR_STATE := fun h => h.2.2.2 rfl

theorem bootReg_high {a : Nat} (h : 0x100000 ≤ a) : bootReg a := by
  unfold bootReg Reg.PWR_STATE
  omega

/-- A stretch of the start of the device before Papol runs. -/
structure Starts (s t : State) : Prop where
  frame : Frame bootParts bootReg s t
  seat  : t.pap.seat = s.pap.seat

namespace Starts

variable {s t u : State}

theorem refl (s : State) : Starts s s := ⟨.refl bootReg_state s, rfl⟩

theorem trans (h : Starts s t) (k : Starts t u) : Starts s u := ⟨h.frame.trans k.frame, k.seat.trans h.seat⟩

theorem upd (h : Starts s t) (rest : t.but bootParts u = t) (regs : u.regs = t.regs := by rfl) (mem : u.mem = t.mem := by rfl)
    (poison : u.poison = t.poison := by rfl) (pap : u.pap = t.pap := by rfl) : Starts s u :=
  ⟨h.frame.upd rest regs mem poison, (congrArg Papol.seat pap).trans h.seat⟩

theorem setReg (h : Starts s t) {a : Nat} {w : Word} (own : bootReg a) : Starts s (t.setReg a w) := ⟨h.frame.setReg own, h.seat⟩

theorem wr (h : Starts s t) {f : Field} {v : Nat} (own : bootReg f.addr) : Starts s (t.wr f v) := h.setReg own

theorem ite {c : Prop} [Decidable c] (h : Starts s t) (k : Starts s u) : Starts s (if c then t else u) := by
  split
  · exact h
  · exact k

theorem foldl {α : Type} {f : State → α → State} (hf : ∀ x a, Starts s x → Starts s (f x a)) : ∀ {l : List α} {t : State},
    Starts s t → Starts s (l.foldl f t)
  | [], _, h => h
  | a :: l, t, h => foldl (l := l) hf (hf t a h)

theorem forEach {f : Nat → State → State} : ∀ {n : Nat} {t : State}, (∀ i x, i < n → Starts s x → Starts s (f i x)) →
    Starts s t → Starts s (Machine.forEach f n t)
  | 0, _, _, h => h
  | n + 1, _, hf, h => hf n _ (Nat.lt_succ_self n) (forEach (fun i x lt => hf i x (Nat.lt_succ_of_lt lt)) h)

theorem papol (h : Starts s t) (k : Frame {} (fun _ => False) t u) (seat : u.pap.seat = t.pap.seat) : Starts s u :=
  h.trans ⟨k.widen.mono (fun _ r => r.elim) bootReg_state, seat⟩

/-- A chip reaction, or a stretch of one. -/
theorem contained (h : Starts s t) (k : Contained t u) : Starts s u := by
  refine h.trans ⟨k.frame.widen.mono (fun a r => ?_) bootReg_state, k.seat⟩
  unfold bootReg Reg.PWR_STATE
  rcases r with r | rfl | rfl | r | rfl | r
  · omega
  · decide
  · decide
  · omega
  · decide
  · omega

theorem local_ (h : Starts s t) {R : Nat → Prop} (k : Local {} R t u) (own : ∀ a, R a → bootReg a) : Starts s u :=
  ⟨(Local.wider (k.mono own)).within h.frame, (congrArg Papol.seat k.pap).trans h.seat⟩

theorem fault (h : Starts s t) (f : FaultInfo) : Starts s (t.fault f) := h.contained ((Reacts.refl t).fault f).contained

/-! The steps. -/

theorem detect (h : Starts s t) (b : BootScan) : Starts s (t.detect b) := by
  have straps := ((h.wr (f := F.CTL_SYS_STRAP_HOSTSEL) (v := b2n b.hostsel) (by unfold bootReg; decide)).wr (f := F.CTL_SYS_STRAP_ADDR)
    (v := b.addr.toNat) (by unfold bootReg; decide)).wr (f := F.CTL_SYS_STRAP_BOOTSEL) (v := b2n b.bootsel) (by unfold bootReg; decide)
  have power : ∀ {x : State} (q : Pwr), Starts s x → Starts s { x with pwr := q } := fun q k => k.upd rfl
  unfold State.detect
  dsimp only
  exact Starts.wr (f := F.CTL_CLK_STAT_AUDFAM) (Starts.wr (f := F.CTL_CLK_STAT_REFFAM)
    (.ite straps ((power _ straps).wr (f := F.CTL_SYS_STRAP_IOV18) (by unfold bootReg; decide))) (by unfold bootReg; decide))
    (by unfold bootReg; decide)

theorem banks (h : Starts s t) (x : Banks) : Starts s { t with banks := x } := h.upd rfl

theorem bankStat {k : Nat} (_few : k < 16) : bootReg (0x104000 + 0x10 * k) := bootReg_high (by omega)

theorem repCount (h : Starts s t) : Starts s (t.repCount rgDsp) := by
  unfold State.repCount
  exact .ite h (h.wr (f := errRep rgDsp) (bootReg_high (by decide)))

theorem replaced (h : Starts s t) {k : Nat} (r : Nat) : Starts s ((t.useSpare k r).repCount rgDsp) := by
  refine Starts.repCount ?_
  unfold State.useSpare
  exact Starts.wr (f := F.DSP_SB_STAT_SPUSED k) (h.banks _) (bootReg_high (show 0x100000 ≤ 0x104000 + 0x10 * k by omega))

theorem startMarch (h : Starts s t) (b : BootScan) : Starts s (t.startMarch b) := by
  unfold State.startMarch
  refine .forEach (fun k x lt h => ?_) (h.banks _)
  refine .ite (h.wr (f := F.DSP_SB_STAT_PWR k) (bootReg_high (show 0x100000 ≤ 0x104000 + 0x10 * k by omega))) ?_
  refine .foldl (fun z r h => ?_) h
  exact (h.replaced r).papol (Frame.refl id _).raise (raiseR_seat _ _ _ _)

theorem setRole (h : Starts s t) (n r l : Nat) : Starts s (t.setRole n r l) := by
  have own : bootReg (0x100000 + 0x40 * n) := bootReg_high (by omega)
  exact ((h.wr (f := F.DSP_NE_STAT_ROLE n) own).wr (f := F.DSP_NE_STAT_LENG n) own).wr (f := F.DSP_NE_STAT_CLKON n) own

theorem readVoutMode (h : Starts s t) (v : Option (BitVec 8)) : Starts s (t.readVoutMode v) := by
  have ages : ∀ {x : State} (q : AgeX), Starts s x → Starts s { x with age := q } := fun q k => k.upd rfl
  cases v with
  | none => exact h
  | some m =>
    exact ages _ ((h.wr (f := F.CTL_REG_STAT_EXP) (by unfold bootReg; decide)).wr (f := F.CTL_REG_STAT_MODEOK) (by unfold bootReg; decide))

/-! A converter that fails. -/

theorem madcStat (m : Nat) : bootReg (0x401004 + 0x4 * m) := bootReg_high (by omega)

theorem showRef (h : Starts s t) : Starts s t.showRef :=
  .forEach (fun m _ _ h => h.wr (f := F.SAFE_MADC_STAT_REFON m) (madcStat m)) h

theorem madc (h : Starts s t) (x : MadcX) : Starts s { t with madc := x } := h.upd rfl

theorem tdacEnd (h : Starts s t) (st d : Nat) : Starts s (t.tdacEnd st d) := by
  unfold State.tdacEnd
  split
  · exact h
  next m w _ =>
    have last : bootReg (Reg.SAFE_MADC_LAST m) := bootReg_high (by unfold Reg.SAFE_MADC_LAST; omega)
    exact Starts.papol (.ite ((h.madc _).setReg last) (h.madc _)) (Frame.refl id _).finishAll (finishAll_seat _ _ _ _)

theorem level (h : Starts s t) (lvl : Nat) : Starts s (t.level rgSafe lvl) := by
  unfold State.level
  exact .ite h (h.wr (f := errLevel rgSafe) (bootReg_high (by decide)))

theorem saf (h : Starts s t) (x : Saf) : Starts s { t with saf := x } := h.upd rfl

theorem takesUp (h : Starts s t) (w : Work) (own : w.region = rgSafe) : Starts s (t.takesUp w) := by
  unfold State.takesUp
  rw [own]
  exact .ite h ((h.saf _).level _)

theorem begins (h : Starts s t) (code sub unit lvl : Nat) : Starts s (t.begins rgSafe code sub unit lvl) := h.takesUp _ rfl

theorem madcDrop (h : Starts s t) (m : Nat) : Starts s (t.madcDrop m) := by
  have shown := (h.wr (f := F.SAFE_MADC_STAT_ROLE m) (v := rlFailed) (madcStat m)).showRef
  have ended := Starts.ite (c := t.madc.tdac.any (fun t => t.1 = m) = true) (shown.tdacEnd stsDenied 2) shown
  unfold State.madcDrop
  exact .ite (Starts.madc ((ended.fault _).begins _ _ _ _) _) (ended.contained (toChipAs_contained _ _ _))

theorem madcFails (h : Starts s t) (m : Nat) : Starts s (t.madcFails m) := by
  unfold State.madcFails
  exact .ite (h.fault _) (.ite (.ite h (h.takesUp _ rfl)) (h.madcDrop m))

theorem startMadcs (h : Starts s t) (m : BitVec 2) : Starts s (t.startMadcs m) := .forEach (fun k _ _ h => .ite (h.madcFails k) h) h

end Starts

end Sys2Proof.Machine
end

section
/-!
# READY, and the images that lead to it (spec/16_security.md, R715 to R718)
-/

namespace Sys2Proof.Machine

-- One theorem after the other: in one text, theorems that wait for the kernel would each hold a thread.
set_option Elab.async false

/-! ## The clocks, SWPLL and the monitor come up -/

/-- SYS's start on demand is the only change of CTL_CLK_STAT that a frame lets through. -/
theorem Frame.syslock {m : Parts} {R : Nat → Prop} {s t : State} (h : Frame m R s t) (off : ¬ R Reg.CTL_CLK_STAT)
    (on : s.on F.CTL_CLK_STAT_SYSLOCK = true) : t.on F.CTL_CLK_STAT_SYSLOCK = true := by
  have apart : ¬ papolReg Reg.CTL_CLK_STAT := by
    rintro (⟨n, -, e | e⟩ | e)
    · unfold Reg.CTL_CLK_STAT Reg.DSP_RING_HIDX at e; omega
    · unfold Reg.CTL_CLK_STAT Reg.DSP_RING_DIDX at e; omega
    · exact absurd e (by decide)
  rcases h.regs Reg.CTL_CLK_STAT (not_or.2 ⟨apart, off⟩) with same | ⟨-, -, set⟩
  · exact (on_same (f := F.CTL_CLK_STAT_SYSLOCK) same).trans on
  · exact (on_same (f := F.CTL_CLK_STAT_SYSLOCK) set).trans (State.on_set1_same s (f := F.CTL_CLK_STAT_SYSLOCK) (by decide))

theorem clocksUp_starts (s : State) : Starts s s.clocksUp := by
  have own : ∀ a, a = Reg.CTL_CLK_STAT ∨ a = Reg.CTL_AUDPLL_CFG ∨ a = Reg.CTL_SYSPLL_CFG → bootReg a := by
    rintro a (rfl | rfl | rfl) <;> (unfold bootReg; decide)
  have family := (Starts.refl s).wr (f := F.CTL_CLK_STAT_AUDFAM) (v := s.rd F.CTL_CLK_STAT_REFFAM) (own _ (.inl rfl))
  have ratios := (family.setReg (a := Reg.CTL_AUDPLL_CFG) (w := w32 (audRatio s.refHz (s.rd F.CTL_CLK_STAT_REFFAM))) (own _ (.inr (.inl rfl)))).setReg
    (a := Reg.CTL_SYSPLL_CFG) (w := w32 ((2 * 1228800000 * 2 ^ 24 + s.refHz) / (2 * s.refHz))) (own _ (.inr (.inr rfl)))
  exact ((ratios.wr (f := F.CTL_CLK_STAT_REFOK) (own _ (.inl rfl))).wr (f := F.CTL_CLK_STAT_SYSLOCK) (own _ (.inl rfl))).wr
    (f := F.CTL_CLK_STAT_AUDLOCK) (own _ (.inl rfl))

theorem clocksUp_syslock (s : State) : s.clocksUp.on F.CTL_CLK_STAT_SYSLOCK = true := by
  unfold State.clocksUp
  exact (State.on_set1_off _ (f := F.CTL_CLK_STAT_AUDLOCK) (by decide)).trans (State.on_set1_same _ (f := F.CTL_CLK_STAT_SYSLOCK) (by decide))

/-- SWPLL's registers as it starts. -/
def State.swLit (s : State) : State :=
  ((((s.alignOuts 0).modClk fun c => { c with winSum := 0, winTicks := 0 }).setReg Reg.OUT_SW_FREQI (s.reg Reg.OUT_SW_FREQA)).set1
    F.OUT_SW_STAT_SWON).set1 F.OUT_SW_STAT_LOCK

theorem swStart_eq (s : State) : s.swStart = s.swLit.showSw.outShow := by
  unfold State.swStart State.swLit
  rfl

theorem Reacts.showSw {s t : State} (h : Reacts s t) : Reacts s t.showSw :=
  ((h.out (f := F.OUT_SW_STAT_CONF) (by decide) (by decide)).out (f := F.OUT_SW_STAT_HOLD) (by decide) (by decide)).wr
    (f := F.SAFE_AGE_STAT_ABOVECAP) (reactReg_diag (by decide)) (by decide)

theorem Reacts.alignOuts {s t : State} (h : Reacts s t) (lead : Int) : Reacts s (t.alignOuts lead) := by
  unfold State.alignOuts
  exact .forEach (fun g _ _ h => h.modGrp g _) h

theorem Reacts.modClk {s t : State} (h : Reacts s t) (f : ClkX → ClkX) : Reacts s (t.modClk f) := h.upd rfl

theorem Reacts.out1 {s t : State} (h : Reacts s t) {f : Field} (lo : 0x300000 ≤ f.addr) (hi : f.addr < 0x400000) : Reacts s (t.set1 f) := h.out lo hi

theorem swLit_reacts (s : State) : Reacts s s.swLit := by
  have clocked := ((Reacts.refl s).alignOuts 0).modClk fun c => { c with winSum := 0, winTicks := 0 }
  unfold State.swLit
  generalize (s.alignOuts 0).modClk _ = z at clocked
  have freq := clocked.setReg (a := Reg.OUT_SW_FREQI) (w := s.reg Reg.OUT_SW_FREQA) (reactReg_out (by decide) (by decide)) (by decide)
  exact (freq.out1 (f := F.OUT_SW_STAT_SWON) (by decide) (by decide)).out1 (f := F.OUT_SW_STAT_LOCK) (by decide) (by decide)

theorem swLit_swon (s : State) : s.swLit.on F.OUT_SW_STAT_SWON = true := by
  unfold State.swLit
  exact (State.on_set1_off _ (f := F.OUT_SW_STAT_LOCK) (by decide)).trans (State.on_set1_same _ (f := F.OUT_SW_STAT_SWON) (by decide))

theorem showSw_swon (s : State) : s.showSw.on F.OUT_SW_STAT_SWON = s.on F.OUT_SW_STAT_SWON := by
  unfold State.showSw
  refine (State.on_wr_off _ _ (f := F.SAFE_AGE_STAT_ABOVECAP) (by decide)).trans ?_
  exact (State.on_wr_off _ _ (f := F.OUT_SW_STAT_HOLD) (by decide)).trans (State.on_wr_off _ _ (f := F.OUT_SW_STAT_CONF) (by decide))

theorem outShow_swon (s : State) : s.outShow.on F.OUT_SW_STAT_SWON = s.on F.OUT_SW_STAT_SWON := by
  have shown : Local { saf := true, out := true, diag := true } (fun a => showReg a ∨ a = Reg.SAFE_FN_STAT ∨ a = Reg.SAFE_SM_STAT) s s.outShow :=
    (Local.refl s).outShow rfl rfl rfl (fun _ => .inl) (.inr (.inl rfl)) (.inr (.inr rfl))
  refine shown.on ?_
  rintro ((⟨n, lt, e⟩ | e) | e | e)
  · have e : 0x303030 = 0x30100C + 0x40 * n := e
    omega
  · exact absurd e (by decide)
  · exact absurd e (by decide)
  · exact absurd e (by decide)

theorem swStart_swon (s : State) : s.swStart.on F.OUT_SW_STAT_SWON = true := by
  rw [swStart_eq, outShow_swon, showSw_swon]
  exact swLit_swon s

theorem swStart_reacts (s : State) : Reacts s s.swStart := by
  rw [swStart_eq]
  exact (swLit_reacts s).showSw.outShow

/-! ## Spares and the monitor -/

/-- The registers that the choice of spares and the start of the monitor move. -/
def settleReg (a : Nat) : Prop := roleReg a ∨ a = Reg.DSP_SPARE ∨ a = Reg.SAFE_SM_STAT ∨ a = Reg.SAFE_FN_STAT ∨ a = Reg.SAFE_SM_MON

/-- The spares are chosen and powered, and the monitor runs. -/
theorem settled_local (s : State) : Local {} settleReg s s.respare.spareUp.monitorUp := by
  obtain ⟨t, v, roles, eq⟩ := respare_local s
  have chosen : Local {} settleReg s s.respare := by
    rw [eq]
    exact (roles.mono fun _ => .inl).wr (f := F.DSP_SPARE_SPMAP) (.inr (.inl rfl))
  have powered : Local {} settleReg s s.respare.spareUp := by
    unfold State.spareUp forMask
    exact .forEach (fun n x _ h => .ite (h.domUp (.inl (.inl rfl))) h) chosen
  have lit := (powered.set1 (f := F.SAFE_SM_STAT_SMOK) (.inr (.inr (.inl rfl)))).wr (f := F.SAFE_SM_MON_VIN) (v := 0x1F) (.inr (.inr (.inr (.inr rfl))))
  exact lit.showFn (.inr (.inr (.inr (.inl rfl)))) (.inr (.inr (.inl rfl)))

theorem monitorUp_smok (s : State) : s.monitorUp.on F.SAFE_SM_STAT_SMOK = true := by
  unfold State.monitorUp
  refine (Reacts.refl _).showFn.smok.trans ?_
  exact (State.on_wr_off _ _ (f := F.SAFE_SM_MON_VIN) (by decide)).trans (State.on_set1_same _ (f := F.SAFE_SM_STAT_SMOK) (by decide))

end Sys2Proof.Machine
end

section
/-!
# Boot (spec/16_security.md, R715 to R718)
-/

namespace Sys2Proof.Machine

-- One theorem after the other: in one text, theorems that wait for the kernel would each hold a thread.
set_option Elab.async false

/-! ## Papol is started -/

/-- What a start of Papol from an image leaves shown. -/
structure ReadyFrom (img : List Word) (src : Nat) (s t : State) : Prop where
  boot    : t.pap.boot = .ready
  run     : t.pap.run = .running
  version : t.pap.version = imgVersion img
  status  : t.reg 0x608 = s.reg 0x608
  source  : t.rd F.CTL_SEC_STAT_BOOTSRC = src
  syslock : t.on F.CTL_CLK_STAT_SYSLOCK = true
  smok    : t.on F.SAFE_SM_STAT_SMOK = true
  swon    : t.on F.OUT_SW_STAT_SWON = true

/-- Papol's image is taken and its source shown. -/
def State.imaged (s : State) (img : List Word) (src : Nat) : State := ((s.takeImage img).setBoot .ready).wr F.CTL_SEC_STAT_BOOTSRC src

/-- The clocks, SWPLL, the spares and the monitor come up. -/
def State.lit (s : State) (w : Word) : State :=
  ((s.clocksUp.setReg Reg.OUT_SW_FREQ w).setReg Reg.OUT_SW_FREQA w).swStart.respare.spareUp.monitorUp

/-- Papol runs, and posts what was reported. -/
def State.announced (s : State) (src : Nat) : State :=
  let s5 := s.issueAt evReady [s.pap.version, w32 src] false (BitVec.ofNat 64 s.now)
  State.drain s5.pap.reports.length s5

theorem ready_eq (s : State) (img : List Word) (src : Nat) : s.ready img src =
    (((s.imaged img src).lit (w32 ((2 * 1228800000 * 2 ^ 24 + s.refHz) / (2 * s.refHz)))).setRun .running).announced src := by
  unfold State.ready State.imaged State.lit State.announced
  rfl

theorem imaged_shows (s : State) (img : List Word) {src : Nat} (few : src < 4) : (s.imaged img src).pap.boot = .ready ∧
    (s.imaged img src).pap.version = imgVersion img ∧ (s.imaged img src).reg 0x608 = s.reg 0x608 ∧
    (s.imaged img src).rd F.CTL_SEC_STAT_BOOTSRC = src := by
  have regs : ∀ a, ((s.takeImage img).setBoot .ready).reg a = s.reg a := fun _ => rfl
  unfold State.imaged
  refine ⟨rfl, rfl, ?_, State.rd_wr_fits _ (f := F.CTL_SEC_STAT_BOOTSRC) (by decide) few⟩
  rw [State.wr, State.reg_setReg_ne _ _ (by decide), regs]

theorem settleReg_boot {a : Nat} (h : settleReg a) : bootReg a := by
  rcases h with (rfl | ⟨n, _, rfl⟩) | rfl | rfl | rfl | rfl
  · unfold bootReg; decide
  · exact bootReg_high (by unfold Reg.DSP_NE_STAT; omega)
  · exact bootReg_high (by decide)
  · exact bootReg_high (by decide)
  · exact bootReg_high (by decide)
  · exact bootReg_high (by decide)

theorem settleReg_off {a : Nat} (h : settleReg a) : a ≠ Reg.CTL_CLK_STAT ∧ a ≠ 0x303030 := by
  rcases h with (rfl | ⟨n, _, rfl⟩) | rfl | rfl | rfl | rfl
  · decide
  · unfold Reg.CTL_CLK_STAT Reg.DSP_NE_STAT
    omega
  · decide
  · decide
  · decide
  · decide

theorem lit_shows (s : State) (w : Word) : (s.lit w).pap.seat = s.pap.seat ∧ (s.lit w).reg 0x608 = s.reg 0x608 ∧
    (s.lit w).rd F.CTL_SEC_STAT_BOOTSRC = s.rd F.CTL_SEC_STAT_BOOTSRC ∧ (s.lit w).on F.CTL_CLK_STAT_SYSLOCK = true ∧
    (s.lit w).on F.SAFE_SM_STAT_SMOK = true ∧ (s.lit w).on F.OUT_SW_STAT_SWON = true := by
  have clocks := clocksUp_starts s
  have locked := clocksUp_syslock s
  unfold State.lit
  generalize s.clocksUp = x at clocks locked
  have started := (Reacts.refl x).setReg (a := Reg.OUT_SW_FREQ) (w := w) (reactReg_out (by decide) (by decide)) (by decide)
  have running := started.setReg (a := Reg.OUT_SW_FREQA) (w := w) (reactReg_out (by decide) (by decide)) (by decide)
  have moved := running.trans (swStart_reacts _)
  have swon := swStart_swon ((x.setReg Reg.OUT_SW_FREQ w).setReg Reg.OUT_SW_FREQA w)
  generalize ((x.setReg Reg.OUT_SW_FREQ w).setReg Reg.OUT_SW_FREQA w).swStart = y at moved swon
  have settled := settled_local y
  have smok := monitorUp_smok y.respare.spareUp
  generalize y.respare.spareUp.monitorUp = z at settled smok
  have all : Starts s z := (clocks.contained moved.contained).local_ settled fun _ => settleReg_boot
  refine ⟨all.seat, all.frame.reg_steady (fun r => r.2.1 rfl) (by decide),
    all.frame.rd_steady (f := F.CTL_SEC_STAT_BOOTSRC) (fun r => r.1 rfl) (by decide), ?_, smok, ?_⟩
  · have kept := moved.frame.syslock (by unfold reactReg; decide) locked
    exact (settled.on (f := F.CTL_CLK_STAT_SYSLOCK) fun r => (settleReg_off r).1 rfl).trans kept
  · exact (settled.on (f := F.OUT_SW_STAT_SWON) fun r => (settleReg_off r).2 rfl).trans swon

theorem setRun_reg (s : State) (r : PapolRun) (a : Nat) : (s.setRun r).reg a = s.reg a := rfl

theorem setRun_rd (s : State) (r : PapolRun) (f : Field) : (s.setRun r).rd f = s.rd f := rfl

theorem setRun_on (s : State) (r : PapolRun) (f : Field) : (s.setRun r).on f = s.on f := rfl

theorem setRun_pap (s : State) (r : PapolRun) : (s.setRun r).pap = { s.pap with run := r } := rfl

theorem announced_posts (s : State) (src : Nat) : Posts s (s.announced src) := by
  have issued := (Posts.refl s).issueAt evReady [s.pap.version, w32 src] false (BitVec.ofNat 64 s.now)
  exact issued.trans (drain_posts _ _)

theorem seat_fields {p q : Papol} (h : p.seat = q.seat) : p.run = q.run ∧ p.boot = q.boot ∧ p.version = q.version ∧ p.roll = q.roll := by
  have rest := (Prod.ext_iff.1 h).2
  have after := (Prod.ext_iff.1 rest).2
  have last := (Prod.ext_iff.1 after).2
  exact ⟨(Prod.ext_iff.1 h).1, (Prod.ext_iff.1 rest).1, (Prod.ext_iff.1 after).1, (Prod.ext_iff.1 last).1⟩

/-- Papol announces itself from a state in which all else is up. -/
theorem announced_ready {s y : State} {img : List Word} {src : Nat} (boot : y.pap.boot = .ready) (version : y.pap.version = imgVersion img)
    (status : y.reg 0x608 = s.reg 0x608) (source : y.rd F.CTL_SEC_STAT_BOOTSRC = src) (syslock : y.on F.CTL_CLK_STAT_SYSLOCK = true)
    (smok : y.on F.SAFE_SM_STAT_SMOK = true) (swon : y.on F.OUT_SW_STAT_SWON = true) :
    ReadyFrom img src s ((y.setRun .running).announced src) := by
  have posts := announced_posts (y.setRun .running) src
  have seated := posts.seat
  rw [setRun_pap] at seated
  obtain ⟨ran, booted, versioned, -⟩ := seat_fields seated
  rw [← setRun_reg y .running] at status
  rw [← setRun_rd y .running] at source
  rw [← setRun_on y .running] at syslock smok swon
  have away : ∀ a, a ≠ 0x600 → ¬ a = Reg.CTL_SEC_STAT := fun _ ne => ne
  exact {
    boot := booted.trans boot
    run := ran
    version := versioned.trans version
    status := (posts.frame.reg_steady (away _ (by decide)) (by decide)).trans status
    source := (posts.rd F.CTL_SEC_STAT_BOOTSRC rfl fun _ => ⟨by decide, .inl (by decide)⟩).trans source
    syslock := posts.frame.syslock (by decide) syslock
    smok := (posts.frame.on_steady (f := F.SAFE_SM_STAT_SMOK) (by decide) (by decide)).trans smok
    swon := (posts.frame.on_steady (f := F.OUT_SW_STAT_SWON) (by decide) (by decide)).trans swon }

theorem ready_shows (s : State) (img : List Word) {src : Nat} (few : src < 4) : ReadyFrom img src s (s.ready img src) := by
  rw [ready_eq]
  obtain ⟨boot, version, status, source⟩ := imaged_shows s img few
  obtain ⟨seat, status', source', syslock, smok, swon⟩ := lit_shows (s.imaged img src) (w32 ((2 * 1228800000 * 2 ^ 24 + s.refHz) / (2 * s.refHz)))
  obtain ⟨-, booted, versioned, -⟩ := seat_fields seat
  exact announced_ready (booted.trans boot) (versioned.trans version) (status'.trans status) (source'.trans source) syslock smok swon

/-! ## An image is verified -/

/-- What a verification reads. -/
theorem bootErr_congr {s t : State} (sec : t.sec = s.sec) (life : t.reg 0x600 = s.reg 0x600) (rolls : t.reg 0x610 = s.reg 0x610) (img : List Word)
    (bytes : Nat) : t.bootErr img bytes = s.bootErr img bytes := by
  have fuse : ∀ i, t.fuse i = s.fuse i := fun i => by unfold State.fuse; rw [sec]
  have root : ∀ k, t.rootHash k = s.rootHash k := fun k => by unfold State.rootHash; simp only [fuse]
  have roll : t.fwRoll = s.fwRoll := rd_same (f := F.CTL_SEC_ROLL_FWROLL) rolls
  have cycle : t.lifecycle = s.lifecycle := rd_same (f := F.CTL_SEC_STAT_LC) life
  unfold State.bootErr State.sigErr State.keyOk State.cosignDue State.rootProgrammed State.revoked
  simp only [fuse, root, roll, cycle]

theorem Starts.bootErr {s t : State} (h : Starts s t) (img : List Word) (bytes : Nat) : t.bootErr img bytes = s.bootErr img bytes :=
  bootErr_congr h.frame.sec (h.frame.reg_steady (fun r => r.1 rfl) (by decide)) (h.frame.reg_steady (fun r => r.2.2.1 rfl) (by decide)) img bytes

end Sys2Proof.Machine
end

section
/-!
# The two ways to boot (spec/16_security.md, R715 to R718)
-/

namespace Sys2Proof.Machine

-- One theorem after the other: in one text, theorems that wait for the kernel would each hold a thread.
set_option Elab.async false

/-! ## From reset -/

/-- The device as the start-up tests leave it, before an image is fetched. -/
def State.scanned (s : State) (b : BootScan) : State :=
  (forEach (fun n (z : State) => if b.engines.getLsbD n then z.setRole n roRetired 0xF else z) 8
    (((s.detect b).startMarch b).startMadcs b.madcs)).readVoutMode b.vout

theorem scanned_starts (s : State) (b : BootScan) : Starts s (s.scanned b) :=
  Starts.readVoutMode (.forEach (fun _ _ _ h => .ite (h.setRole _ _ _) h) (((Starts.refl s).detect b).startMarch b |>.startMadcs b.madcs)) b.vout

theorem setBoot_on (s : State) (r : BootPhase) (f : Field) : (s.setBoot r).on f = s.on f := rfl

theorem setBoot_rd (s : State) (r : BootPhase) (f : Field) : (s.setBoot r).rd f = s.rd f := rfl

theorem setBoot_run (s : State) (r : BootPhase) : (s.setBoot r).pap.run = s.pap.run := rfl

theorem wr_run (s : State) (f : Field) (v : Nat) : (s.wr f v).pap.run = s.pap.run := rfl

theorem set1_run (s : State) (f : Field) : (s.set1 f).pap.run = s.pap.run := rfl

theorem setBoot_boot (s : State) (r : BootPhase) : (s.setBoot r).pap.boot = r := rfl

/-- With no image in either slot the device is held. -/
theorem flashBoot_empty (s : State) : s.flashBoot none none = (s.wr F.CTL_BOOT_STAT_BOOTERR 6).setBoot .held := by
  have absent : s.slotErr none ≠ 0 := by show 6 ≠ 0; decide
  unfold State.flashBoot
  exact (if_neg absent).trans (if_neg absent)

/-- A valid image in slot A alone starts Papol. -/
theorem flashBoot_valid {s : State} {img : List Word} (valid : s.bootErr img (4 * img.length) = 0) : s.flashBoot (some img) none = s.ready img 0 :=
  if_pos valid

section
variable {b : BootScan} {s : State} (begins : s.pap.boot = .begin) (off : s.pap.run = .off)
include begins off

theorem boot_eq : exec (.boot b) s = if b.testmode then .next (s.setBoot .test)
    else if scanRetires b 0 then .next (((s.detect b).fault ⟨0x206, 0, rgDsp, 4, 0, 0, 0, false, true⟩).setBoot .held)
    else if b.madcs = 3 then
      .next ((forEach (fun k (z : State) => z.fault ⟨0xA02, 0, rgSafe, 4, 0, k, 0, false, false⟩) 2 ((s.detect b).startMarch b)).setBoot .held)
    else .next (if b.bootsel then ((s.scanned b).set1 F.CTL_BOOT_STAT_WAITIMG).setBoot .waiting else (s.scanned b).flashBoot b.slotA b.slotB) := by
  refine if_neg ?_
  rintro (h | h)
  · exact h begins
  · exact h off

/-- Papol's seat as it was before Papol ran. -/
theorem Starts.unstarted {t : State} (h : Starts s t) : t.pap.boot = .begin ∧ t.pap.run = .off := by
  obtain ⟨run, boot, -, -⟩ := seat_fields h.seat
  exact ⟨boot.trans begins, run.trans off⟩

theorem boot_holds (real : b.testmode = false) (bad : scanRetires b 0 = true ∨ b.madcs = 3) :
    ∃ t, exec (.boot b) s = .next t ∧ t.pap.boot = .held ∧ t.pap.run = .off := by
  have straps := (Starts.refl s).detect b
  rw [boot_eq begins off, if_neg (by rw [real]; exact Bool.false_ne_true)]
  by_cases bank : scanRetires b 0 = true
  · rw [if_pos bank]
    exact ⟨_, rfl, setBoot_boot _ _, (setBoot_run _ _).trans ((straps.fault _).unstarted begins off).2⟩
  · rw [if_neg bank, if_pos (bad.resolve_left bank)]
    have failed : Starts s (forEach (fun k (z : State) => z.fault ⟨0xA02, 0, rgSafe, 4, 0, k, 0, false, false⟩) 2 ((s.detect b).startMarch b)) :=
      .forEach (fun _ _ _ h => h.fault _) (straps.startMarch b)
    exact ⟨_, rfl, setBoot_boot _ _, (setBoot_run _ _).trans (failed.unstarted begins off).2⟩

variable (real : b.testmode = false) (bank : scanRetires b 0 = false) (madcs : b.madcs ≠ 3)
include real bank madcs

theorem boot_goes : exec (.boot b) s =
    .next (if b.bootsel then ((s.scanned b).set1 F.CTL_BOOT_STAT_WAITIMG).setBoot .waiting else (s.scanned b).flashBoot b.slotA b.slotB) := by
  rw [boot_eq begins off, if_neg (by rw [real]; exact Bool.false_ne_true), if_neg (by rw [bank]; exact Bool.false_ne_true), if_neg madcs]

theorem boot_waits (host : b.bootsel = true) : ∃ t, exec (.boot b) s = .next t ∧ t.on F.CTL_BOOT_STAT_WAITIMG = true ∧ t.pap.boot = .waiting ∧
    t.pap.run = .off := by
  have starts := scanned_starts s b
  refine ⟨((s.scanned b).set1 F.CTL_BOOT_STAT_WAITIMG).setBoot .waiting, ?_, ?_, setBoot_boot _ _, (setBoot_run _ _).trans ((set1_run _ _).trans (starts.unstarted begins off).2)⟩
  · rw [boot_goes begins off real bank madcs, if_pos host]
  · exact (setBoot_on _ _ _).trans (State.on_set1_same _ (f := F.CTL_BOOT_STAT_WAITIMG) (by decide))

theorem boot_unfit (flash : b.bootsel = false) (none : b.slotB = none) (empty : b.slotA = Option.none) : ∃ t, exec (.boot b) s = .next t ∧
    t.pap.boot = .held ∧ t.pap.run = .off ∧ t.rd F.CTL_BOOT_STAT_BOOTERR = 6 := by
  have starts := scanned_starts s b
  refine ⟨((s.scanned b).wr F.CTL_BOOT_STAT_BOOTERR 6).setBoot .held, ?_, setBoot_boot _ _, (setBoot_run _ _).trans ((wr_run _ _ _).trans (starts.unstarted begins off).2), ?_⟩
  · rw [boot_goes begins off real bank madcs, if_neg (by rw [flash]; exact Bool.false_ne_true), none, empty, flashBoot_empty]
  · exact (setBoot_rd _ _ _).trans (State.rd_wr_fits _ (f := F.CTL_BOOT_STAT_BOOTERR) (by decide) (show 6 < 2 ^ 8 by decide))

theorem boot_flash (flash : b.bootsel = false) (none : b.slotB = none) {img : List Word} (slot : b.slotA = some img)
    (valid : s.bootErr img (4 * img.length) = 0) : ∃ t, exec (.boot b) s = .next t ∧ ReadyFrom img 0 s t := by
  have starts := scanned_starts s b
  have valid' : (s.scanned b).bootErr img (4 * img.length) = 0 := (starts.bootErr img _).trans valid
  have shows := ready_shows (s.scanned b) img (src := 0) (by decide)
  have status : (s.scanned b).reg 0x608 = s.reg 0x608 := starts.frame.reg_steady (fun r => r.2.1 rfl) (by decide)
  refine ⟨(s.scanned b).ready img 0, ?_, { shows with status := shows.status.trans status }⟩
  rw [boot_goes begins off real bank madcs, if_neg (by rw [flash]; exact Bool.false_ne_true), none, slot, flashBoot_valid valid']

end

end Sys2Proof.Machine
end

section
/-!
# A host image starts Papol (spec/16_security.md, R717, R718)
-/

namespace Sys2Proof.Machine

-- One theorem after the other: in one text, theorems that wait for the kernel would each hold a thread.
set_option Elab.async false

/-! ## GO lands -/

/-- Parity fits again: a register that holds no block in its safe state leaves nothing else of it. -/
theorem fits_free {s : State} {a : Nat} (hit : s.cfgHit a = false) :
    Local parityParts (fun b => b = Reg.SAFE_FN_STAT ∨ b = Reg.SAFE_SM_STAT) s (s.fits a) := by
  have away : Local parityParts (fun b => b = Reg.SAFE_FN_STAT ∨ b = Reg.SAFE_SM_STAT) s (s.parityFits a) := by
    unfold State.parityFits
    exact (Local.refl s).upd (by simp only [State.but, parityParts, cond_true, cond_false])
  rw [fits_eq, if_neg (show ¬ (s.cfgHit a = true ∧ reenabled a = false) from fun k => by rw [hit] at k; exact Bool.false_ne_true k.1)]
  refine .ite ?_ away
  unfold State.parityOver
  exact .ite (away.faultGone rfl (.inl rfl) (.inr rfl)) away

/-- The word that BOOT_GO writes. -/
def goWord (len : BitVec 18) : Word := len.zeroExtend 32 ||| 0x80000000

/-- CTL_BOOT_CTRL once GO has been written. -/
def goTaken (old : Word) (len : BitVec 18) : Word := (old &&& ~~~writeMask Reg.CTL_BOOT_CTRL) ||| (goWord len &&& writeMask Reg.CTL_BOOT_CTRL)

theorem goWord_go (len : BitVec 18) : bit (goWord len) 31 = true := by
  have top : (goWord len).getLsbD 31 = true := by
    unfold goWord
    rw [BitVec.getLsbD_or]
    exact Bool.or_true _
  have set := bits_testBit (goWord len) 31 1 0
  rw [show 31 + 0 = 31 from rfl, top, Bool.and_true, decide_eq_true (by decide), Nat.testBit_zero] at set
  unfold bit
  have lt := bits_lt (goWord len) 31 1
  exact decide_eq_true (by have := of_decide_eq_true set; omega)

theorem goTaken_len (old : Word) (len : BitVec 18) : bits (goTaken old len) 0 18 = len.toNat := by
  have mask : writeMask Reg.CTL_BOOT_CTRL = 0x3FFFF := by decide
  have low : ∀ i : Fin 18, (0x3FFFF : Word).getLsbD i.val = true ∧ (0x80000000 : Word).getLsbD i.val = false := by decide
  refine Nat.eq_of_testBit_eq fun i => ?_
  rw [bits_testBit, Nat.zero_add]
  by_cases lt : i < 18
  · have field : (0x3FFFF : Word).getLsbD i = true := (low ⟨i, lt⟩).1
    have go : (0x80000000 : Word).getLsbD i = false := (low ⟨i, lt⟩).2
    unfold goTaken goWord
    rw [mask, BitVec.getLsbD_or, BitVec.getLsbD_and, BitVec.getLsbD_and, BitVec.getLsbD_not, BitVec.getLsbD_or, field, go]
    have wide : (len.zeroExtend 32).getLsbD i = len.toNat.testBit i := by
      rw [BitVec.zeroExtend_eq_setWidth, BitVec.getLsbD_setWidth, decide_eq_true (show i < 32 by omega), Bool.true_and]
      rfl
    rw [wide, decide_eq_true lt, Bool.not_true, Bool.and_false, Bool.and_false, Bool.false_or, Bool.or_false, Bool.and_true, Bool.true_and]
  · rw [decide_eq_false lt, Bool.false_and]
    exact (Nat.testBit_lt_two_pow (Nat.lt_of_lt_of_le len.isLt (Nat.pow_le_pow_right (by decide) (Nat.le_of_not_lt lt)))).symm

/-- The state in which GO has landed in its register. -/
def State.goLanded (u : State) (i : Iface) (len : BitVec 18) : State :=
  ((u.judging i).setReg Reg.CTL_BOOT_CTRL (goTaken ((u.judging i).reg Reg.CTL_BOOT_CTRL) len)).fits Reg.CTL_BOOT_CTRL

theorem land_go (s : State) (len : BitVec 18) : s.land Reg.CTL_BOOT_CTRL (goWord len) =
    ((s.setReg Reg.CTL_BOOT_CTRL (goTaken (s.reg Reg.CTL_BOOT_CTRL) len)).fits Reg.CTL_BOOT_CTRL).bootGo := by
  have bound : ∀ z : State, z.bound s Reg.CTL_BOOT_CTRL = z := fun z => by
    unfold State.bound
    rw [if_neg (by decide), if_neg (by decide), if_neg (by decide), if_neg (by decide), if_neg (by decide), if_neg (by decide),
      if_neg (by decide), if_neg (by decide), if_neg (by decide)]
  unfold State.land State.landed State.ctlLanded
  dsimp only
  rw [if_neg (fun k => absurd k.1 (by decide)), if_neg (by decide), if_pos (by decide), if_pos rfl, if_pos (goWord_go len),
    if_neg (by decide), bound]
  rfl

theorem bootGo_lands {u : State} {i : Iface} (ready : u.ifaceReady i = true) (len : BitVec 18) :
    exec (.bootGo i len) u = .next (u.goLanded i len).bootGo := by
  have none : regDomain? Reg.CTL_BOOT_CTRL = none ∧ postedRegion? Reg.CTL_BOOT_CTRL = none := by decide
  show Host.Outcome.next (u.hostWrite i Reg.CTL_BOOT_CTRL (goWord len)) = _
  rw [hostWrite_judges ready, if_neg (by decide), if_neg (by decide), if_neg (by decide), if_neg (by decide), if_neg, if_neg (by decide),
    if_neg (fun k => absurd k.1 (by decide))]
  · unfold State.sendWrite State.reaches
    rw [none.1, none.2]
    dsimp only
    rw [if_pos rfl, land_go]
    rfl
  · unfold State.unpowered
    rw [none.1]
    exact Bool.false_ne_true

/-- What the landing of GO leaves of the device. -/
structure GoLanded (len : BitVec 18) (u z : State) : Prop where
  pap    : z.pap = u.pap
  sec    : z.sec = u.sec
  mem    : z.mem = u.mem
  poison : z.poison = u.poison
  status : z.reg 0x608 = u.reg 0x608
  life   : z.reg 0x600 = u.reg 0x600
  rolls  : z.reg 0x610 = u.reg 0x610
  len    : z.rd F.CTL_BOOT_CTRL_LEN = len.toNat

theorem judging_link_cfg (u : State) (i : Iface) : (u.judging i).link.cfgpar = u.link.cfgpar := by
  have run : u.sysRun.link = u.link := (sysRun_regsOnly u).congr State.link fun _ => rfl
  unfold State.judging State.setLock
  have kept := congrArg Link.cfgpar run
  split <;> exact kept

theorem goLanded_of {u x : State} {w : Word} {len : BitVec 18} (field : bits w 0 18 = len.toNat) (regs : ∀ a, a ≠ Reg.CTL_CLK_STAT → x.reg a = u.reg a)
    (pap : x.pap = u.pap) (sec : x.sec = u.sec) (mem : x.mem = u.mem) (poison : x.poison = u.poison) (free : x.cfgHit Reg.CTL_BOOT_CTRL = false) :
    GoLanded len u ((x.setReg Reg.CTL_BOOT_CTRL w).fits Reg.CTL_BOOT_CTRL) := by
  have fits := fits_free (s := x.setReg Reg.CTL_BOOT_CTRL w) (a := Reg.CTL_BOOT_CTRL) free
  generalize (x.setReg Reg.CTL_BOOT_CTRL w).fits Reg.CTL_BOOT_CTRL = z at fits
  have other : ∀ a, a ≠ Reg.CTL_BOOT_CTRL → a ≠ Reg.SAFE_FN_STAT → a ≠ Reg.SAFE_SM_STAT → a ≠ Reg.CTL_CLK_STAT → z.reg a = u.reg a := fun a own fn sm clk =>
    (fits.regs a fun k => k.elim fn sm).trans ((State.reg_setReg_ne x w own).trans (regs a clk))
  have own : z.reg Reg.CTL_BOOT_CTRL = w := (fits.regs _ (by decide)).trans (State.reg_setReg_same x _ w)
  exact {
    pap := fits.pap.trans pap
    sec := (fits.part State.sec).trans sec
    mem := fits.mem.trans mem
    poison := fits.poison.trans poison
    status := other _ (by decide) (by decide) (by decide) (by decide)
    life := other _ (by decide) (by decide) (by decide) (by decide)
    rolls := other _ (by decide) (by decide) (by decide) (by decide)
    len := by
      unfold State.rd
      rw [show z.reg F.CTL_BOOT_CTRL_LEN.addr = w from own]
      exact field }

theorem goLanded_shows {u : State} (i : Iface) (len : BitVec 18) (free : u.cfgHit Reg.CTL_BOOT_CTRL = false) : GoLanded len u (u.goLanded i len) := by
  have rest := judging_rest u i
  have free' : (u.judging i).cfgHit Reg.CTL_BOOT_CTRL = false := by
    unfold State.cfgHit
    rw [judging_link_cfg]
    exact free
  have pap := congrArg State.pap rest
  have sec := congrArg State.sec rest
  have mem := congrArg State.mem rest
  have poison := congrArg State.poison rest
  exact goLanded_of (goTaken_len _ len) (fun _ clk => judging_reg u i clk) pap sec mem poison free'

theorem goLanded_lock (u : State) (i : Iface) (len : BitVec 18) : (u.goLanded i len).lockOpen i = false := by
  unfold State.goLanded
  rw [lockOpen_congr (fits_locks _ _), lockOpen_congr (setReg_locks _ _ _), judging_lockOpen]

/-! ## The image is judged -/

theorem sigErr_le (s : State) (img : List Word) (k : Nat) : s.sigErr img k ≤ 5 := by
  unfold State.sigErr
  dsimp only
  split_ifs <;> decide

theorem bootErr_le (s : State) (img : List Word) (bytes : Nat) : s.bootErr img bytes ≤ 5 := by
  unfold State.bootErr
  split_ifs
  · decide
  · decide
  · exact sigErr_le s img _
  · decide

/-- The verdict on the host image, from a state in which GO has landed. -/
theorem bootGo_judges {z : State} {len : Nat} (waits : z.on F.CTL_BOOT_STAT_WAITIMG = true) (named : z.rd F.CTL_BOOT_CTRL_LEN = len)
    (clean : z.poisonIn 0x20000 len = []) : z.bootGo =
      if z.bootErr (z.words 0x820000 (len / 4)) len = 0 then (z.clr F.CTL_BOOT_STAT_WAITIMG).ready (z.words 0x820000 (len / 4)) 2
      else z.wr F.CTL_BOOT_STAT_BOOTERR (z.bootErr (z.words 0x820000 (len / 4)) len) := by
  unfold State.bootGo
  rw [if_neg (not_not.2 waits), named]
  dsimp only
  rw [clean]
  rfl

section
variable {u z : State} {len : BitVec 18} (h : GoLanded len u z) (waits : u.on F.CTL_BOOT_STAT_WAITIMG = true)
  (clean : u.poisonIn 0x20000 len.toNat = [])
include h waits clean

theorem GoLanded.judged : z.bootGo = if u.bootErr (u.words 0x820000 (len.toNat / 4)) len.toNat = 0 then
    (z.clr F.CTL_BOOT_STAT_WAITIMG).ready (u.words 0x820000 (len.toNat / 4)) 2
    else z.wr F.CTL_BOOT_STAT_BOOTERR (u.bootErr (u.words 0x820000 (len.toNat / 4)) len.toNat) := by
  have words : z.words 0x820000 (len.toNat / 4) = u.words 0x820000 (len.toNat / 4) :=
    words_congr _ _ fun b _ _ => State.byte_congr h.mem b
  have clean' : z.poisonIn 0x20000 len.toNat = [] := by
    unfold State.poisonIn
    rw [h.poison]
    exact clean
  rw [bootGo_judges ((on_same (f := F.CTL_BOOT_STAT_WAITIMG) h.status).trans waits) h.len clean', words, bootErr_congr h.sec h.life h.rolls]

theorem GoLanded.starts (valid : u.bootErr (u.words 0x820000 (len.toNat / 4)) len.toNat = 0) :
    ReadyFrom (u.words 0x820000 (len.toNat / 4)) 2 (z.clr F.CTL_BOOT_STAT_WAITIMG) z.bootGo := by
  rw [h.judged waits clean, if_pos valid]
  exact ready_shows _ _ (by decide)

theorem GoLanded.refuses (bad : u.bootErr (u.words 0x820000 (len.toNat / 4)) len.toNat ≠ 0) : z.bootGo.pap = u.pap ∧
    z.bootGo.on F.CTL_BOOT_STAT_WAITIMG = true ∧
    z.bootGo.rd F.CTL_BOOT_STAT_BOOTERR = u.bootErr (u.words 0x820000 (len.toNat / 4)) len.toNat := by
  rw [h.judged waits clean, if_neg bad]
  have small := bootErr_le u (u.words 0x820000 (len.toNat / 4)) len.toNat
  refine ⟨(State.wr_pap _ _ _).trans h.pap, ?_, State.rd_wr_fits z (f := F.CTL_BOOT_STAT_BOOTERR) (by decide) (Nat.lt_of_le_of_lt small (by decide))⟩
  rw [State.on_wr_off z _ (f := F.CTL_BOOT_STAT_BOOTERR) (by decide), on_same (f := F.CTL_BOOT_STAT_WAITIMG) h.status, waits]

end

/-- Settles O60: flash and host boot, each from its verified image. -/
theorem bootVerifiesAndStarts : Obligations.BootVerifiesAndStarts := by
  unfold Obligations.BootVerifiesAndStarts
  intro b s i len img begins off
  refine ⟨fun test => ?_, fun real bad => boot_holds begins off real bad, fun real bank madcs => ⟨fun host => boot_waits begins off real bank madcs host,
    fun flash none => ⟨fun empty => boot_unfit begins off real bank madcs flash none empty, fun slot valid => ?_⟩⟩, fun u _ _ ready waits clean free => ⟨?_, ?_⟩⟩
  · rw [boot_eq begins off, if_pos test]
    rfl
  · obtain ⟨t, run, shows⟩ := boot_flash begins off real bank madcs flash none slot valid
    exact ⟨t, run, shows.boot, shows.run, shows.version, rd_same (f := F.CTL_BOOT_STAT_BOOTERR) shows.status, shows.source, shows.syslock, shows.smok,
      shows.swon⟩
  · intro valid
    have shows := (goLanded_shows i len free).starts waits clean valid
    refine ⟨_, bootGo_lands ready len, shows.boot, shows.run, shows.version, ?_, shows.source⟩
    exact (on_same (f := F.CTL_BOOT_STAT_WAITIMG) shows.status).trans (State.on_clr_same _ (f := F.CTL_BOOT_STAT_WAITIMG) (by decide))
  · intro bad
    obtain ⟨pap, waiting, code⟩ := (goLanded_shows i len free).refuses waits clean bad
    exact ⟨_, bootGo_lands ready len, pap, waiting, code, (lockOpen_congr (bootGo_locks _) i).trans (goLanded_lock u i len)⟩

end Sys2Proof.Machine
end

section
/-!
# A channel's phase moves while no test, no lost slot and no regrow hangs on it (spec/08_speaker_channels.md, R369 to R371, R805)
-/

namespace Sys2Proof.Machine

-- One theorem after the other: in one text, theorems that wait for the kernel would each hold a thread.
set_option Elab.async false

/-- The fields that no move of the phases of the channels in `P` changes. -/
def stays (P : Nat → Prop) (f : Field) : Prop :=
  steady f.addr = true ∧ f.addr ≠ Reg.OUT_CRK_STAT ∧ ∀ n, n < 12 → Field.apart (F.OUT_SPK_STAT_CRK n) f = true ∧
    (P n → Field.apart (F.OUT_SPK_STAT_PHASE n) f = true ∧ Field.apart (F.OUT_SPK_STAT_MUTED n) f = true)

/-- The phases of the channels in `P` move; what shows them and what waits for them follow. -/
structure Moves (P : Nat → Prop) (s t : State) : Prop where
  frame : Frame { spks := true, out := true } showReg s t
  keeps : ∀ f, stays P f → t.rd f = s.rd f
  spk   : ∀ m, ¬ P m → t.spk m = s.spk m
  waits : ∀ w ∈ t.out.waits, w ∈ s.out.waits
  out   : { t.out with waits := s.out.waits, ducks := s.out.ducks } = s.out

theorem showReg_state : ¬ showReg Reg.PWR_STATE := fun h => absurd (showReg_range h).1 (by decide)

theorem crk_fits (n : Nat) : (F.OUT_SPK_STAT_CRK n).lo + (F.OUT_SPK_STAT_CRK n).width ≤ 32 := show 21 + 1 ≤ 32 by decide

theorem muted_fits (n : Nat) : (F.OUT_SPK_STAT_MUTED n).lo + (F.OUT_SPK_STAT_MUTED n).width ≤ 32 := show 22 + 1 ≤ 32 by decide

theorem phase_fits (n : Nat) : (F.OUT_SPK_STAT_PHASE n).lo + (F.OUT_SPK_STAT_PHASE n).width ≤ 32 := show 28 + 4 ≤ 32 by decide

theorem spkStat_crkStat {n : Nat} (few : n < 12) : Reg.OUT_SPK_STAT n ≠ Reg.OUT_CRK_STAT := by
  unfold Reg.OUT_SPK_STAT Reg.OUT_CRK_STAT
  omega

theorem stays_phase {P : Nat → Prop} {m : Nat} (few : m < 12) (away : ¬ P m) : stays P (F.OUT_SPK_STAT_PHASE m) := by
  refine ⟨steady_above (show 0x100440 ≤ 0x30100C + 0x40 * m by omega), spkStat_crkStat few,
    fun n _ => ⟨apart_bits (crk_fits n) (.inr (show 21 + 1 ≤ 28 by decide)), fun own => ?_⟩⟩
  have other : 0x30100C + 0x40 * m ≠ 0x30100C + 0x40 * n := fun e => away (by rwa [show m = n by omega])
  exact ⟨apart_addr other, apart_addr other⟩

/-- A field of OUT_SPK_STAT that shows no phase. -/
theorem stays_stat {P : Nat → Prop} {f : Field} {m : Nat} (few : m < 12) (place : f.addr = Reg.OUT_SPK_STAT m)
    (low : f.lo + f.width ≤ 21 ∨ (23 ≤ f.lo ∧ f.lo + f.width ≤ 28)) : stays P f := by
  refine ⟨?_, fun e => spkStat_crkStat few (place.symm.trans e),
    fun n _ => ⟨apart_bits (crk_fits n) ?_, fun _ => ⟨apart_bits (phase_fits n) ?_, apart_bits (muted_fits n) ?_⟩⟩⟩
  · rw [place]
    exact steady_above (show 0x100440 ≤ 0x30100C + 0x40 * m by omega)
  · exact low.imp id fun h => (show 21 + 1 ≤ f.lo by omega)
  · exact .inl (show f.lo + f.width ≤ 28 by omega)
  · exact low.imp (fun h => (show f.lo + f.width ≤ 22 by omega)) fun h => (show 22 + 1 ≤ f.lo by omega)

/-- A field of another register. -/
theorem stays_apart {P : Nat → Prop} {f : Field} (calm : steady f.addr = true := by decide) (away : ¬ showReg f.addr) : stays P f := by
  refine ⟨calm, fun e => away (.inr e), fun n few => ?_⟩
  have other : f.addr ≠ Reg.OUT_SPK_STAT n := fun e => away (.inl ⟨n, few, e⟩)
  exact ⟨apart_addr other, fun _ => ⟨apart_addr other, apart_addr other⟩⟩

theorem diagPoll_quiet {s : State} (dc : s.diag.dc = []) (ac : s.diag.ac = none) : s.diagPoll = s := by
  have drop : ∀ p st, s.dcDrop p st = s := fun p st => by
    unfold State.dcDrop
    rw [dc]
    exact if_neg Bool.false_ne_true
  unfold State.diagPoll
  rw [drop]
  unfold State.acDrop
  rw [ac]

theorem diagAbort_quiet {s : State} (dc : s.diag.dc = []) (ac : s.diag.ac = none) (n : Nat) : s.diagAbort n = s := by
  have drop : ∀ p st, s.dcDrop p st = s := fun p st => by
    unfold State.dcDrop
    rw [dc]
    exact if_neg Bool.false_ne_true
  unfold State.diagAbort
  rw [drop]
  unfold State.acDrop
  rw [ac]

namespace Moves

variable {P : Nat → Prop} {s t u : State}

theorem refl (s : State) : Moves P s s := ⟨.refl showReg_state s, fun _ _ => rfl, fun _ _ => rfl, fun _ h => h, rfl⟩

theorem trans (h : Moves P s t) (k : Moves P t u) : Moves P s u := by
  refine ⟨h.frame.trans k.frame, fun f own => (k.keeps f own).trans (h.keeps f own), fun m out => (k.spk m out).trans (h.spk m out),
    fun w mem => h.waits w (k.waits w mem), ?_⟩
  have e := congrArg (fun x : OutX => { x with waits := s.out.waits, ducks := s.out.ducks }) k.out
  exact e.trans h.out

theorem mono {Q : Nat → Prop} (h : Moves P s t) (sub : ∀ n, P n → Q n) : Moves Q s t :=
  ⟨h.frame, fun f own => h.keeps f ⟨own.1, own.2.1, fun n few => ⟨(own.2.2 n few).1, fun mem => (own.2.2 n few).2 (sub n mem)⟩⟩,
    fun m out => h.spk m fun own => out (sub m own), h.waits, h.out⟩

theorem on (h : Moves P s t) {f : Field} (own : stays P f) : t.on f = s.on f := by
  unfold State.on
  rw [h.keeps f own]

theorem phase (h : Moves P s t) {m : Nat} (few : m < 12) (away : ¬ P m) : t.phase m = s.phase m := h.keeps _ (stays_phase few away)

theorem quiet (h : Moves P s t) (q : Quiet s) : Quiet t := by
  have diag := h.frame.diag
  refine ⟨by rw [diag]; exact q.dc, by rw [diag]; exact q.ac, by rw [h.frame.saf]; exact q.recs, fun g few => ?_⟩
  unfold State.grp
  rw [h.frame.groups]
  exact q.seqs g few

theorem still (h : Moves P s t) (q : Still s) : Still t := by
  refine ⟨h.quiet q.toQuiet, fun k few => ?_, fun w mem => q.stops w (h.waits w mem)⟩
  unfold State.slot
  rw [h.frame.crk]
  exact q.crk k few

theorem ite {c : Prop} [Decidable c] (h : Moves P s t) (k : Moves P s u) : Moves P s (if c then t else u) := by
  split
  · exact h
  · exact k

theorem forEach {f : Nat → State → State} : ∀ {n : Nat} {t : State}, (∀ i x, i < n → Moves P s x → Moves P s (f i x)) →
    Moves P s t → Moves P s (Machine.forEach f n t)
  | 0, _, _, h => h
  | n + 1, _, hf, h => hf n _ (Nat.lt_succ_self n) (forEach (fun i x lt => hf i x (Nat.lt_succ_of_lt lt)) h)

theorem modSpk (h : Moves P s t) {n : Nat} (own : P n) (f : SpkX → SpkX) : Moves P s (t.modSpk n f) :=
  h.trans ⟨(Frame.refl showReg_state t).upd rfl, fun _ _ => rfl, fun _ out => vat_vmod_ne t.spks f fun e => out (by rwa [e]), fun _ k => k, rfl⟩

theorem papol (h : Moves P s t) (k : Frame {} (fun _ => False) t u) : Moves P s u := by
  have out := k.out
  refine h.trans ⟨k.widen.mono (fun _ r => r.elim) showReg_state, fun f own => k.rd_steady id own.1, fun m _ => by unfold State.spk; rw [k.spks],
    fun w mem => by rwa [out] at mem, by rw [out]⟩

theorem wr (h : Moves P s t) {f : Field} {v : Nat} (shown : showReg f.addr) (apart : ∀ g, stays P g → Field.apart f g = true) :
    Moves P s (t.wr f v) :=
  h.trans ⟨(Frame.refl showReg_state t).wr shown, fun g own => State.rd_wr_off t v (apart g own), fun _ _ => rfl, fun _ k => k, rfl⟩

theorem wrCrk (h : Moves P s t) {n : Nat} (few : n < 12) {v : Nat} : Moves P s (t.wr (F.OUT_SPK_STAT_CRK n) v) :=
  h.wr (showReg_spk few) fun _ own => (own.2.2 n few).1

theorem wrMuted (h : Moves P s t) {n : Nat} (few : n < 12) (own : P n) {v : Nat} : Moves P s (t.wr (F.OUT_SPK_STAT_MUTED n) v) :=
  h.wr (showReg_spk few) fun _ out => ((out.2.2 n few).2 own).2

theorem wrPhase (h : Moves P s t) {n : Nat} (few : n < 12) (own : P n) {v : Nat} : Moves P s (t.wr (F.OUT_SPK_STAT_PHASE n) v) :=
  h.wr (showReg_spk few) fun _ out => ((out.2.2 n few).2 own).1

theorem ducks (h : Moves P s t) (x : Vector (Nat × Nat × Nat) 12) : Moves P s (t.modOut fun o => { o with ducks := x }) :=
  h.trans ⟨(Frame.refl showReg_state t).upd rfl, fun _ _ => rfl, fun _ _ => rfl, fun _ k => k, rfl⟩

theorem waited (h : Moves P s t) (p : Nat × Nat × Nat → Bool) : Moves P s (t.modOut fun o => { o with waits := o.waits.filter p }) :=
  h.trans ⟨(Frame.refl showReg_state t).upd rfl, fun _ _ => rfl, fun _ _ => rfl, fun _ k => List.mem_of_mem_filter k, rfl⟩

theorem crkShown (h : Moves P s t) : Moves P s t.crkShown := by
  have crk : Moves P s (Machine.forEach (fun n s => s.wr (F.OUT_SPK_STAT_CRK n) (b2n (s.croaking n))) 12 t) :=
    .forEach (fun n x lt k => k.wrCrk lt) h
  have stat : ∀ f : Field, f.addr = Reg.OUT_CRK_STAT → ∀ g, stays P g → Field.apart f g = true := fun f place g own =>
    apart_addr (by rw [place]; exact own.2.1)
  unfold State.crkShown
  dsimp only
  exact ((crk.wr (f := F.OUT_CRK_STAT_ACTIVE) (.inr rfl) (stat _ rfl)).wr (f := F.OUT_CRK_STAT_CHPLAY) (.inr rfl) (stat _ rfl)).ducks _

theorem outShow (h : Moves P s t) (q : Quiet s) : Moves P s t.outShow := by
  have shown := h.crkShown
  rw [outShow_eq, lostGone_none (h.quiet q).recs, acWatch_none (shown.quiet q).ac]
  exact shown

theorem finishAll (h : Moves P s t) (sel : PendEntry → Bool) (st d : Nat) : Moves P s (t.finishAll sel st d) := h.papol (Frame.refl id t).finishAll

end Moves

/-! ## The phase itself -/

/-- What follows a phase that is written. -/
def State.phaseShown (s : State) (n ph : Nat) : State :=
  (s.modOut fun o => { o with waits := o.waits.filter fun (w : Nat × Nat × Nat) => ¬ (w.2.1 = n ∧ waitMet ph w.2.2 = true) }).spkPoll.outShow.diagPoll

theorem setPhase_eq (s : State) (n ph : Nat) : s.setPhase n ph =
    ((s.wr (F.OUT_SPK_STAT_PHASE n) ph).wr (F.OUT_SPK_STAT_MUTED n) (b2n (ph = phHold && s.muted))).phaseShown n ph := rfl

theorem Moves.phaseShown {P : Nat → Prop} {s t : State} (h : Moves P s t) (q : Quiet s) (n ph : Nat) : Moves P s (t.phaseShown n ph) := by
  have shown := ((h.waited fun w => ¬ (w.2.1 = n ∧ waitMet ph w.2.2 = true)).finishAll (fun e =>
    (e.opcode = 0x302 || e.opcode = 0x303 || e.opcode = 0x305)
    && !(t.modOut fun o => { o with waits := o.waits.filter fun (w : Nat × Nat × Nat) => ¬ (w.2.1 = n ∧ waitMet ph w.2.2 = true) }).out.waits.any
      (fun w => w.1 = e.slot)) stsOk 0).outShow q
  have calm := shown.quiet q
  unfold State.phaseShown State.spkPoll
  rw [diagPoll_quiet calm.dc calm.ac]
  exact shown

theorem Moves.setPhase {P : Nat → Prop} {s t : State} (h : Moves P s t) (q : Quiet s) {n : Nat} (few : n < 12) (own : P n) (ph : Nat) :
    Moves P s (t.setPhase n ph) := by
  rw [setPhase_eq]
  exact ((h.wrPhase few own).wrMuted few own).phaseShown q n ph

theorem wr_quiet {s : State} (q : Quiet s) (f : Field) (v : Nat) : Quiet (s.wr f v) := ⟨q.dc, q.ac, q.recs, q.seqs⟩

theorem setPhase_phase {s : State} (q : Quiet s) {n ph : Nat} (few : n < 12) (code : ph < 16) : (s.setPhase n ph).phase n = ph := by
  have shown := (Moves.refl (P := fun _ => False) ((s.wr (F.OUT_SPK_STAT_PHASE n) ph).wr (F.OUT_SPK_STAT_MUTED n) (b2n (ph = phHold && s.muted)))).phaseShown
    (wr_quiet (wr_quiet q _ _) _ _) n ph
  rw [setPhase_eq, shown.phase few id]
  unfold State.phase
  rw [State.rd_wr_off _ _ (f := F.OUT_SPK_STAT_MUTED n) (g := F.OUT_SPK_STAT_PHASE n)
    (apart_bits (muted_fits n) (.inr (show 22 + 1 ≤ 28 by decide))),
    State.rd_wr_fits s (f := F.OUT_SPK_STAT_PHASE n) (phase_fits n) code]

theorem outShow_spks {s : State} (q : Quiet s) : s.outShow.spks = s.spks :=
  ((Local.refl (m := { out := true }) s).outShow_quiet rfl (fun _ => id) q.recs q.ac).part State.spks

theorem outShow_diagPoll {s : State} (q : Quiet s) : s.outShow.diagPoll = s.outShow := by
  have shown := ((Moves.refl (P := fun _ => False) s).outShow q).quiet q
  exact diagPoll_quiet shown.dc shown.ac

theorem spkPoll_spks (s : State) : s.spkPoll.spks = s.spks := (Frame.refl (m := {}) (R := fun _ => False) id s).finishAll.spks

theorem spkPoll_quiet {s : State} (q : Quiet s) : Quiet s.spkPoll := ((Moves.refl (P := fun _ => False) s).finishAll _ _ _).quiet q

theorem waited_quiet {s : State} (q : Quiet s) (p : Nat × Nat × Nat → Bool) : Quiet (s.modOut fun o => { o with waits := o.waits.filter p }) :=
  ⟨q.dc, q.ac, q.recs, q.seqs⟩

theorem phaseShown_spks {s : State} (q : Quiet s) (n ph : Nat) : (s.phaseShown n ph).spks = s.spks := by
  have calm := waited_quiet q fun w => ¬ (w.2.1 = n ∧ waitMet ph w.2.2 = true)
  unfold State.phaseShown
  rw [outShow_diagPoll (spkPoll_quiet calm), outShow_spks (spkPoll_quiet calm), spkPoll_spks]
  rfl

theorem wr_spks (s : State) (f : Field) (v : Nat) : (s.wr f v).spks = s.spks := rfl

theorem setPhase_spks {s : State} (q : Quiet s) (n ph : Nat) : (s.setPhase n ph).spks = s.spks := by
  rw [setPhase_eq, phaseShown_spks (wr_quiet (wr_quiet q _ _) _ _), wr_spks, wr_spks]

end Sys2Proof.Machine
end

section
/-!
# The steps of a channel's sequence (spec/08_speaker_channels.md, R369 to R371, R376, R378, R379)
-/

namespace Sys2Proof.Machine

-- One theorem after the other: in one text, theorems that wait for the kernel would each hold a thread.
set_option Elab.async false

theorem spk_modSpk_same (s : State) {n : Nat} (f : SpkX → SpkX) (few : n < 12) : (s.modSpk n f).spk n = f (s.spk n) := vat_vmod_same s.spks f few

theorem spk_modSpk_ne (s : State) {n m : Nat} (f : SpkX → SpkX) (other : m ≠ n) : (s.modSpk n f).spk m = s.spk m := vat_vmod_ne s.spks f other

theorem spk_congr {s t : State} (h : t.spks = s.spks) (n : Nat) : t.spk n = s.spk n := by
  unfold State.spk
  rw [h]

theorem grp_congr {s t : State} (h : t.groups = s.groups) (g : Nat) : t.grp g = s.grp g := by
  unfold State.grp
  rw [h]

theorem setPhase_spk {s : State} (q : Quiet s) (n ph m : Nat) : (s.setPhase n ph).spk m = s.spk m := spk_congr (setPhase_spks q n ph) m

theorem modSpk_quiet {s : State} (q : Quiet s) (n : Nat) (f : SpkX → SpkX) : Quiet (s.modSpk n f) := ⟨q.dc, q.ac, q.recs, q.seqs⟩

theorem master_even (s : State) (n : Nat) : s.master (s.master n) = s.master n := by
  have even : ∀ m, m % 2 ≠ 1 → s.master m = m := fun m h => if_neg fun k => h k.1
  by_cases odd : n % 2 = 1 ∧ inMask (s.grp (n / 4)).pairs (n % 4 / 2) = true
  · have m : s.master n = n - 1 := if_pos odd
    rw [m]
    exact even _ (by omega)
  · have m : s.master n = n := if_neg odd
    rw [m, m]

namespace Moves

variable {P : Nat → Prop} {s t : State} (h : Moves P s t)
include h

theorem muted : t.muted = s.muted := by
  have low : t.out.muteLow = s.out.muteLow := by
    have e := congrArg OutX.muteLow h.out
    exact e
  have held : t.out.muteHeld = s.out.muteHeld := by
    have e := congrArg OutX.muteHeld h.out
    exact e
  unfold State.muted
  rw [low, held]

theorem same {f : Field} (calm : steady f.addr = true := by decide) (away : f.addr < 0x300000 ∨ 0x400000 ≤ f.addr := by decide) :
    t.rd f = s.rd f :=
  h.keeps f (stays_apart calm fun k => by have := showReg_range k; omega)

theorem sameOn {f : Field} (calm : steady f.addr = true := by decide) (away : f.addr < 0x300000 ∨ 0x400000 ≤ f.addr := by decide) :
    t.on f = s.on f := by
  unfold State.on
  rw [h.same calm away]

theorem unmutes : t.unmutes = s.unmutes := by
  unfold State.unmutes State.pstate State.chipSafe
  rw [h.same (f := F.PWR_STATE_STATE), h.sameOn (f := F.PWR_STATE_TRANS), h.same (f := F.PWR_STATE_TARGET), h.same (f := F.SAFE_SM_STAT_CSS)]

theorem grp (g : Nat) : t.grp g = s.grp g := grp_congr h.frame.groups g

theorem master (n : Nat) : t.master n = s.master n := by
  unfold State.master
  rw [h.grp]

/-- A register of the region OUT below the channels. -/
theorem group {f : Field} (lo : 0x300000 ≤ f.addr) (hi : f.addr < 0x301000) : t.rd f = s.rd f :=
  h.keeps f (stays_apart (steady_above (by omega)) fun k => by
    rcases k with ⟨n, -, e⟩ | e
    · unfold Reg.OUT_SPK_STAT at e
      omega
    · unfold Reg.OUT_CRK_STAT at e
      omega)

end Moves

section
variable {P : Nat → Prop} {s t : State}

theorem Moves.ramp (h : Moves P s t) (q : Quiet s) {n : Nat} (few : n < 12) (own : P n) (ph pos : Nat) (fast : Bool) :
    Moves P s (t.ramp n ph pos fast) := (h.modSpk own _).setPhase q few own ph

theorem ramp_phase {s : State} (q : Quiet s) {n ph : Nat} (few : n < 12) (code : ph < 16) (pos : Nat) (fast : Bool) :
    (s.ramp n ph pos fast).phase n = ph := setPhase_phase (modSpk_quiet q n _) few code

theorem Moves.tryUnmute (h : Moves P s t) (q : Quiet s) {n : Nat} (few : n < 12) (own : P n) : Moves P s (t.tryUnmute n) :=
  .ite (h.ramp q few own _ _ _) (h.wrMuted few own)

theorem tryUnmute_unmutes {s : State} (q : Quiet s) {n : Nat} (few : n < 12) (hold : s.phase n = phHold) (on : (s.spk n).on = true)
    (plays : s.unmutes = true) (free : s.muted = false) : (s.tryUnmute n).phase n = phUnmute := by
  unfold State.tryUnmute
  rw [if_pos ⟨hold, on, plays, free⟩]
  exact ramp_phase q few (by decide) _ _

theorem tryUnmute_holds {s : State} {n : Nat} (out : ¬ (s.phase n = phHold ∧ (s.spk n).on = true ∧ s.unmutes = true ∧ s.muted = false)) :
    (s.tryUnmute n).phase n = s.phase n := by
  unfold State.tryUnmute
  rw [if_neg out]
  exact State.rd_wr_off s _ (f := F.OUT_SPK_STAT_MUTED n) (g := F.OUT_SPK_STAT_PHASE n)
    (apart_bits (muted_fits n) (.inr (show 22 + 1 ≤ 28 by decide)))

theorem Moves.toHold (h : Moves P s t) (q : Quiet s) {n : Nat} (few : n < 12) (own : P n) : Moves P s (t.toHold n) :=
  (h.setPhase q few own _).tryUnmute q few own

section
variable {s : State} (q : Quiet s) {n : Nat} (few : n < 12)
include q few

theorem toHold_unmutes (on : (s.spk n).on = true) (plays : s.unmutes = true) (free : s.muted = false) : (s.toHold n).phase n = phUnmute := by
  have moved := (Moves.refl (P := (· = n)) s).setPhase q few rfl phHold
  exact tryUnmute_unmutes (moved.quiet q) few (setPhase_phase q few (by decide)) (by rw [setPhase_spk q]; exact on)
    (moved.unmutes.trans plays) (moved.muted.trans free)

theorem toHold_holds (out : s.unmutes = false ∨ s.muted = true) : (s.toHold n).phase n = phHold := by
  have moved := (Moves.refl (P := (· = n)) s).setPhase q few rfl phHold
  refine (tryUnmute_holds fun ⟨_, _, plays, free⟩ => ?_).trans (setPhase_phase q few (by decide))
  rw [moved.unmutes] at plays
  rw [moved.muted] at free
  rcases out with no | yes
  · exact absurd (plays.symm.trans no) (by decide)
  · exact absurd (free.symm.trans yes) (by decide)

end

/-! ## Off -/

theorem forEach_idle {f : Nat → State → State} {s : State} : ∀ {n : Nat}, (∀ k, k < n → f k s = s) → forEach f n s = s
  | 0, _ => rfl
  | n + 1, h => by
    unfold forEach
    rw [forEach_idle fun k lt => h k (Nat.lt_succ_of_lt lt), h n (Nat.lt_succ_self n)]

theorem applyPairs_settled {s : State} {g : Nat} (pairs : s.rd (F.OUT_G_CFG_PAIR g) = (s.grp g).pairs) : s.applyPairs g = s :=
  forEach_idle fun k _ => if_neg fun h => h.1 (by rw [pairs])

/-- The pairing in force is the one that the register names. -/
def State.settledPairs (s : State) (g : Nat) : Prop := s.rd (F.OUT_G_CFG_PAIR g) = (s.grp g).pairs

theorem Moves.settledPairs (h : Moves P s t) {g : Nat} (few : g < 3) (pairs : s.settledPairs g) : t.settledPairs g := by
  unfold State.settledPairs
  rw [h.group (f := F.OUT_G_CFG_PAIR g) (show 0x300000 ≤ 0x300000 + 0x100 * g by omega) (show 0x300000 + 0x100 * g < 0x301000 by omega), h.grp]
  exact pairs

/-- A channel that goes Off where no change of pairing waits. -/
theorem toOff_settled {s : State} (q : Quiet s) {n : Nat} (few : n < 12) (pairs : s.settledPairs (n / 4)) : s.toOff n =
    (s.modSpk n fun x => { x with short := false, run := 0, dcBad := false, stopWait := none }).setPhase n phOff :=
  applyPairs_settled ((((Moves.refl (P := (· = n)) s).modSpk rfl _).setPhase q few rfl phOff).settledPairs (by omega) pairs)

theorem Moves.toOff (h : Moves P s t) (q : Quiet s) {n : Nat} (few : n < 12) (own : P n) (pairs : s.settledPairs (n / 4)) : Moves P s (t.toOff n) := by
  rw [toOff_settled (h.quiet q) few (h.settledPairs (by omega) pairs)]
  exact (h.modSpk own _).setPhase q few own _

theorem toOff_phase {s : State} (q : Quiet s) {n : Nat} (few : n < 12) (pairs : s.settledPairs (n / 4)) : (s.toOff n).phase n = phOff := by
  rw [toOff_settled q few pairs]
  exact setPhase_phase (modSpk_quiet q n _) few (by decide)

/-! ## Fault hold -/

theorem chanLost_still {s : State} (q : Still s) (n : Nat) : s.chanLost n = s := by
  have unarmed : ∀ k, k < 8 → (s.slot k).armed = false := fun k few => by
    unfold CrkSlot.armed
    rw [(q.crk k few).1]
    rfl
  unfold State.chanLost
  split
  · exact forEach_idle fun k few => if_neg fun h => by
      rw [unarmed k few] at h
      exact absurd h.1 Bool.false_ne_true
  · rfl

/-- What a channel forgets as it enters Fault hold. -/
def SpkX.faulted (x : SpkX) (why : Nat) : SpkX :=
  { x with why := why, start := false, run := 0, dcBad := false, stopWait := none, short := false }

theorem faultHold_still {s : State} (q : Still s) {ch n : Nat} (master : s.master ch = n) (few : n < 12) (why : Nat) :
    s.faultHold ch why = (s.modSpk n fun x => x.faulted why).setPhase n phFault := by
  have moved := ((Moves.refl (P := (· = n)) s).modSpk rfl fun x => x.faulted why).setPhase q.toQuiet few rfl phFault
  have calm := moved.still q
  have none : (((s.modSpk n fun x => x.faulted why).setPhase n phFault).out.waits.any (fun w => w.2.1 = n && w.2.2 = 1)) = false := by
    rw [List.any_eq_false]
    intro w mem
    simp [calm.stops w mem]
  unfold State.faultHold
  dsimp only
  rw [master]
  show (if (((s.modSpk n fun x => x.faulted why).setPhase n phFault).chanLost n).out.waits.any (fun w => w.2.1 = n && w.2.2 = 1) then
    (((s.modSpk n fun x => x.faulted why).setPhase n phFault).chanLost n).unhold n
    else ((s.modSpk n fun x => x.faulted why).setPhase n phFault).chanLost n) = _
  rw [chanLost_still calm, if_neg (by rw [none]; exact Bool.false_ne_true)]

theorem Moves.faultHold (h : Moves P s t) (q : Still s) {ch n : Nat} (master : s.master ch = n) (few : n < 12) (own : P n) (why : Nat) :
    Moves P s (t.faultHold ch why) := by
  rw [faultHold_still (h.still q) ((h.master ch).trans master) few]
  exact (h.modSpk own _).setPhase q.toQuiet few own _

section
variable {s : State} (q : Still s) {ch n : Nat} (master : s.master ch = n) (few : n < 12) (why : Nat)
include q master few

theorem faultHold_phase : (s.faultHold ch why).phase n = phFault := by
  rw [faultHold_still q master few]
  exact setPhase_phase (modSpk_quiet q.toQuiet n _) few (by decide)

theorem faultHold_spk : (s.faultHold ch why).spk n = (s.spk n).faulted why := by
  rw [faultHold_still q master few, setPhase_spk (modSpk_quiet q.toQuiet n _), spk_modSpk_same _ _ few]

end

theorem Moves.holdNow (h : Moves P s t) (q : Quiet s) {n : Nat} (few : n < 12) (own : P n) : Moves P s (t.holdNow n) :=
  .ite (h.setPhase q few own _) h

theorem Moves.beginCheck (h : Moves P s t) (q : Quiet s) {n : Nat} (few : n < 12) (own : P n) : Moves P s (t.beginCheck n) :=
  (h.modSpk own _).setPhase q few own _

theorem beginCheck_phase {s : State} (q : Quiet s) {n : Nat} (few : n < 12) : (s.beginCheck n).phase n = phCheck :=
  setPhase_phase (modSpk_quiet q n _) few (by decide)

end

end Sys2Proof.Machine
end

section
/-!
# The phase sequence of a channel (spec/08_speaker_channels.md, R369 to R371, R805)
-/

namespace Sys2Proof.Machine

-- One theorem after the other: in one text, theorems that wait for the kernel would each hold a thread.
set_option Elab.async false

/-- From `s` to `t` channel `k` takes phase `ph` and no other channel moves. -/
def Advanced (k ph : Nat) (s t : State) : Prop :=
  t.phase k = ph ∧ (∀ m, m < 12 → m ≠ k → t.phase m = s.phase m) ∧ SameRegsBut spkReg s t ∧ SameBytesBut (papolByte s) s t ∧
    { s.over t with spks := s.spks, out := s.out } = s

/-- A step that first writes what shows beside the phases. -/
theorem advanced_after {k ph : Nat} {s z t : State} (first : Frame { spks := true, out := true } showReg s z) (phases : ∀ m, z.phase m = s.phase m)
    (h : Moves (· = k) z t) (phase : t.phase k = ph) : Advanced k ph s t := by
  have frame := first.trans h.frame
  exact ⟨phase, fun m few other => (h.phase few other).trans (phases m), frame.regs, frame.bytes, frame.rest⟩

theorem Moves.advanced {k ph : Nat} {s t : State} (h : Moves (· = k) s t) (phase : t.phase k = ph) : Advanced k ph s t :=
  advanced_after (.refl showReg_state s) (fun _ => rfl) h phase

theorem sclass_phase (s : State) (n v m : Nat) : (s.wr (F.OUT_SPK_STAT_SCLASS n) v).phase m = s.phase m :=
  State.rd_wr_off s v (f := F.OUT_SPK_STAT_SCLASS n) (g := F.OUT_SPK_STAT_PHASE m)
    (apart_bits (show 25 + 3 ≤ 32 by decide) (.inr (show 25 + 3 ≤ 28 by decide)))

theorem sclass_frame (s : State) {n : Nat} (few : n < 12) (v : Nat) :
    Frame { spks := true, out := true } showReg s (s.wr (F.OUT_SPK_STAT_SCLASS n) v) := (Frame.refl showReg_state s).wr (showReg_spk few)

theorem wr_still {s : State} (q : Still s) (f : Field) (v : Nat) : Still (s.wr f v) := ⟨wr_quiet q.toQuiet f v, q.crk, q.stops⟩

theorem wr_master (s : State) (f : Field) (v n : Nat) : (s.wr f v).master n = s.master n := rfl

theorem Moves.start (k : Nat) (s : State) : Moves (· = k) s s := .refl s

theorem lock_holds {s : State} {n : Fin 12} (at' : s.phase n = phLock) (on : (s.spk n).on = true) : exec (.spkLockDone n) s = .next (s.toHold n) :=
  congrArg Host.Outcome.next ((if_neg (not_not.2 at')).trans (if_pos on))

theorem mute_holds {s : State} {n : Fin 12} (at' : s.phase n = phMute) (on : (s.spk n).on = true) : exec (.spkMuteDone n) s = .next (s.toHold n) :=
  congrArg Host.Outcome.next ((if_neg (not_not.2 at')).trans (if_pos on))

theorem mute_discharges {s : State} {n : Fin 12} (at' : s.phase n = phMute) (off : (s.spk n).on = false) : exec (.spkMuteDone n) s = .next (s.discharge n) :=
  congrArg Host.Outcome.next ((if_neg (not_not.2 at')).trans (if_neg (by rw [off]; exact Bool.false_ne_true)))

section
variable {s : State} (q : Quiet s) (n : Fin 12)
include q

theorem pendingStart_advances (off : s.phase n = phOff) (waits : (s.spk n).start = true) (pvdd : s.on (F.OUT_G_STAT_PVDDOK (n / 4)) = true)
    (runs : s.carrierOn (n / 4) = true) (safe : s.rd F.SAFE_SM_STAT_CSS ≠ 2) :
    exec (.spkPendingStart n) s = .next (s.beginCheck n) ∧ Advanced n phCheck s (s.beginCheck n) := by
  refine ⟨?_, ((Moves.start n s).beginCheck q n.isLt rfl).advanced (beginCheck_phase q n.isLt)⟩
  show execSpkPendingStart n s = _
  unfold execSpkPendingStart
  exact if_pos ⟨off, waits, pvdd, runs, safe⟩

theorem check_passes (own slave : ChanTest) (at' : s.phase n = phCheck) (passed : s.sclassOf n own slave = 0)
    (volts : s.paired n = true → s.rd (F.OUT_G_STAT_PVDD (n / 4)) ≤ 2450) :
    ∃ t, exec (.spkCheckDone n (own, slave)) s = .next t ∧ Advanced n phCharge s t := by
  refine ⟨(s.wr (F.OUT_SPK_STAT_SCLASS n) 0).ramp n phCharge 0 false, ?_, ?_⟩
  · show execSpkCheckDone n (own, slave) s = _
    unfold execSpkCheckDone
    dsimp only
    rw [passed, if_neg (not_not.2 at'), if_neg (c := 0 = 0 ∧ s.paired n = true ∧ 2450 < s.rd (F.OUT_G_STAT_PVDD (n / 4))) (fun h => absurd (volts h.2.1) (Nat.not_le.2 h.2.2)), if_pos rfl]
  · have calm := wr_quiet q (F.OUT_SPK_STAT_SCLASS n) 0
    exact advanced_after (sclass_frame s n.isLt 0) (sclass_phase s n 0) ((Moves.start n _).ramp calm n.isLt rfl _ _ _)
      (ramp_phase calm n.isLt (by decide) _ _)

theorem charge_advances (at' : s.phase n = phCharge) :
    exec (.spkChargeDone n) s = .next (s.setPhase n phLock) ∧ Advanced n phLock s (s.setPhase n phLock) :=
  ⟨congrArg Host.Outcome.next (if_pos at'), ((Moves.start n s).setPhase q n.isLt rfl _).advanced (setPhase_phase q n.isLt (by decide))⟩

theorem unmute_advances (at' : s.phase n = phUnmute) :
    exec (.spkUnmuteDone n) s = .next (s.setPhase n phPlay) ∧ Advanced n phPlay s (s.setPhase n phPlay) :=
  ⟨congrArg Host.Outcome.next (if_pos at'), ((Moves.start n s).setPhase q n.isLt rfl _).advanced (setPhase_phase q n.isLt (by decide))⟩

theorem toHold_moves : Moves (· = n.val) s (s.toHold n) := (Moves.start n s).toHold q n.isLt rfl

theorem discharge_advances : Advanced n phDischarge s (s.discharge n) :=
  ((Moves.start n s).ramp q n.isLt rfl _ _ _).advanced (ramp_phase q n.isLt (by decide) _ _)

theorem lock_discharges (at' : s.phase n = phLock) (off : (s.spk n).on = false) : exec (.spkLockDone n) s = .next (s.discharge n) := by
  have none : s.acTone n = none := by
    unfold State.acTone
    rw [q.ac]
  have eq : (if (s.spk n).on = true then s.toHold n else (s.acTone n).getD (s.discharge n)) = s.discharge n := by
    rw [if_neg (by rw [off]; exact Bool.false_ne_true), none]
    rfl
  exact congrArg Host.Outcome.next ((if_neg (not_not.2 at')).trans eq)

theorem discharge_done (at' : s.phase n = phDischarge) (pairs : s.settledPairs (n / 4)) :
    exec (.spkDischargeDone n) s = .next (s.toOff n) ∧ Advanced n phOff s (s.toOff n) := by
  have moved := (Moves.start n s).toOff q n.isLt rfl pairs
  refine ⟨congrArg Host.Outcome.next ((if_pos at').trans ?_), moved.advanced (toOff_phase q n.isLt pairs)⟩
  unfold State.acStored
  rw [(moved.quiet q).ac]

end

theorem check_fails {s : State} (q : Still s) (n : Fin 12) (own slave : ChanTest) (at' : s.phase n = phCheck)
    (failed : s.sclassOf n own slave ≠ 0 ∨ (s.paired n = true ∧ 2450 < s.rd (F.OUT_G_STAT_PVDD (n / 4)))) (master : s.master n = n) :
    ∃ t, exec (.spkCheckDone n (own, slave)) s = .next t ∧ Advanced n phFault s t := by
  obtain ⟨c, eq⟩ : ∃ c, exec (.spkCheckDone n (own, slave)) s = .next ((s.wr (F.OUT_SPK_STAT_SCLASS n) c).faultHold n 0) := by
    show ∃ c, execSpkCheckDone n (own, slave) s = _
    unfold execSpkCheckDone
    dsimp only
    rw [if_neg (not_not.2 at')]
    split_ifs with high none none
    · exact absurd none (by decide)
    · exact ⟨5, rfl⟩
    · exact absurd failed fun h => h.elim (fun k => k none) fun k => high ⟨none, k⟩
    · exact ⟨_, rfl⟩
  refine ⟨_, eq, ?_⟩
  have calm := wr_still q (F.OUT_SPK_STAT_SCLASS n) c
  have master' : (s.wr (F.OUT_SPK_STAT_SCLASS n) c).master n = n := (wr_master s _ c n).trans master
  exact advanced_after (sclass_frame s n.isLt c) (sclass_phase s n c) ((Moves.start n _).faultHold calm master' n.isLt rfl 0)
    (faultHold_phase calm master' n.isLt 0)

/-- Settles O31: each phase moves its own channel alone. -/
theorem channelPhasesFollowOneAnother : Obligations.ChannelPhasesFollowOneAnother := by
  unfold Obligations.ChannelPhasesFollowOneAnother
  intro s n q
  refine ⟨fun off waits pvdd runs safe => ⟨_, pendingStart_advances q n off waits pvdd runs safe⟩,
    fun at' => ⟨fun own slave passed volts => check_passes q n own slave at' passed volts,
      fun own slave failed master still => check_fails still n own slave at' failed master⟩,
    fun at' => ⟨_, charge_advances q n at'⟩,
    fun at' => ⟨fun on plays free => ⟨_, lock_holds at' on, (toHold_moves q n).advanced (toHold_unmutes q n.isLt on plays free)⟩,
      fun on muted => ⟨_, lock_holds at' on, (toHold_moves q n).advanced (toHold_holds q n.isLt (.inr muted))⟩,
      fun off => ⟨_, lock_discharges q n at' off, discharge_advances q n⟩⟩,
    fun at' => ⟨_, unmute_advances q n at'⟩,
    fun at' => ⟨fun on stays => ⟨_, mute_holds at' on, (toHold_moves q n).advanced (toHold_holds q n.isLt (.inl stays))⟩,
      fun off => ⟨_, mute_discharges at' off, discharge_advances q n⟩⟩,
    fun at' pairs => ⟨_, discharge_done q n at' pairs⟩⟩

end Sys2Proof.Machine
end

section
/-!
# What a fault leaves still (spec/15_safety.md, R689, R690), and what one channel's move leaves the others
-/

namespace Sys2Proof.Machine

-- One theorem after the other: in one text, theorems that wait for the kernel would each hold a thread.
set_option Elab.async false

theorem fault_here (s : State) (f : FaultInfo) : ∃ r ∈ (s.fault f).saf.recs, r.code = f.code ∧ r.unit = f.unit := by
  unfold State.fault
  split
  next r live =>
    have found := List.find?_some live
    have place : r.code = f.code ∧ r.unit = f.unit := by
      simp only [Bool.and_eq_true, decide_eq_true_eq] at found
      exact ⟨found.1.1.1, found.1.2⟩
    refine ⟨_, List.mem_map_of_mem (List.mem_of_find?_eq_some live), ?_⟩
    rw [if_pos rfl]
    exact place
  next =>
    rw [(Frame.raiseR (Frame.refl (m := {}) (R := fun _ => False) id _)).saf]
    exact ⟨_, List.mem_append_right _ List.mem_cons_self, rfl, rfl⟩

theorem dropFirst_mem {p : FaultRec → Bool} {r : FaultRec} : ∀ {l : List FaultRec}, r ∈ dropFirst p l → r ∈ l
  | [], h => h
  | q :: l, h => by
    unfold dropFirst at h
    split at h
    · exact List.mem_cons_of_mem q h
    · rcases List.mem_cons.1 h with rfl | mem
      · exact List.mem_cons_self
      · exact List.mem_cons_of_mem q (dropFirst_mem mem)

theorem recRoom_mem (s : State) {r : FaultRec} (h : r ∈ s.recRoom.saf.recs) : r ∈ s.saf.recs := by
  unfold State.recRoom at h
  split_ifs at h
  · exact h
  · exact dropFirst_mem h
  · exact List.mem_of_mem_drop h

/-- A code that is not the fault's is recorded only where it was. -/
theorem fault_codes (s : State) (f : FaultInfo) {c : Nat} (other : f.code ≠ c) (none : ∀ r ∈ s.saf.recs, r.code ≠ c) :
    ∀ r ∈ (s.fault f).saf.recs, r.code ≠ c := by
  unfold State.fault
  split
  next r live =>
    intro q mem
    obtain ⟨p, old, rfl⟩ := List.mem_map.1 mem
    split
    · exact none p old
    · exact none p old
  next =>
    rw [(Frame.raiseR (Frame.refl (m := {}) (R := fun _ => False) id _)).saf]
    intro q mem
    rcases List.mem_append.1 mem with old | new
    · exact none q (recRoom_mem s.drawn old)
    · rw [List.mem_singleton.1 new]
      exact other

theorem Still.of_seqs {s t : State} (q : Still s) (diag : t.diag = s.diag) (seqs : ∀ g, g < 3 → (t.grp g).seq = (s.grp g).seq) (crk : t.crk = s.crk)
    (out : t.out = s.out) (recs : ∀ r ∈ t.saf.recs, r.code ≠ 0x30A) : Still t := by
  refine ⟨⟨by rw [diag]; exact q.dc, by rw [diag]; exact q.ac, recs, fun g few => (seqs g few).trans (q.seqs g few)⟩, fun k few => ?_,
    by rw [out]; exact q.stops⟩
  unfold State.slot
  rw [crk]
  exact q.crk k few

theorem Still.of {s t : State} (q : Still s) (diag : t.diag = s.diag) (groups : t.groups = s.groups) (crk : t.crk = s.crk) (out : t.out = s.out)
    (recs : ∀ r ∈ t.saf.recs, r.code ≠ 0x30A) : Still t :=
  q.of_seqs diag (fun g _ => congrArg GroupX.seq (grp_congr groups g)) crk out recs

theorem fault_still {s : State} (q : Still s) {f : FaultInfo} (other : f.code ≠ 0x30A) : Still (s.fault f) :=
  have frame := fault_frame s f
  q.of frame.diag frame.groups frame.crk frame.out (fault_codes s f other q.recs)

theorem faultGone_still {s : State} (q : Still s) (code sub unit : Nat) : Still (s.faultGone code sub unit) := by
  have frame := (Frame.refl (m := { saf := true }) (R := fun a => a = Reg.SAFE_FN_STAT ∨ a = Reg.SAFE_SM_STAT) (by decide) s).faultGone
    (code := code) (sub := sub) (unit := unit) rfl (.inl rfl) (.inr rfl)
  refine q.of frame.diag frame.groups frame.crk frame.out fun r mem => ?_
  obtain ⟨p, old, rfl⟩ := List.mem_map.1 mem
  split
  · exact q.recs p old
  · exact q.recs p old

/-- The registers of a fault of the outputs. -/
def outFaultReg (a : Nat) : Prop := a = Reg.SAFE_FN_STAT ∨ a = Reg.SAFE_SM_STAT ∨ a = 0x3FFF00

theorem errOut_addr : (errLevel rgOut).addr = 0x3FFF00 := by decide

theorem outFault_frame (s : State) (code df sub unit detail : Nat) (active : Bool) :
    Frame { saf := true, draw := true } outFaultReg s (s.outFault code df sub unit detail active) := by
  have away : ¬ outFaultReg Reg.PWR_STATE := by unfold outFaultReg; decide
  have recorded := (Frame.refl (m := { saf := true, draw := true }) away s).fault (f := ⟨code, df, rgOut, 4, sub, unit, detail, false, active⟩)
    rfl rfl (.inl rfl) (.inr (.inl rfl))
  exact recorded.escalated (.inr (.inr errOut_addr))

theorem escalated_saf (s : State) (region : Nat) : (s.escalated region).saf = s.saf := by
  unfold State.escalated
  split
  · rfl
  · exact (State.wr_saf _ (errChipEsc region) 1).trans (State.wr_saf s (errEsc region) _)

section
variable {s : State} (code df sub unit detail : Nat) (active : Bool)

theorem outFault_saf : (s.outFault code df sub unit detail active).saf = (s.fault ⟨code, df, rgOut, 4, sub, unit, detail, false, active⟩).saf :=
  escalated_saf _ _

theorem outFault_still (q : Still s) (other : code ≠ 0x30A) : Still (s.outFault code df sub unit detail active) := by
  have frame := outFault_frame s code df sub unit detail active
  refine q.of frame.diag frame.groups frame.crk frame.out ?_
  rw [outFault_saf]
  exact fault_codes s _ other q.recs

theorem outFault_here : ∃ r ∈ (s.outFault code df sub unit detail active).saf.recs, r.code = code ∧ r.unit = unit := by
  rw [outFault_saf]
  exact fault_here s _

theorem outFault_same {f : Field} (calm : steady f.addr = true) (hi : f.addr < 0x3FFF00) :
    (s.outFault code df sub unit detail active).rd f = s.rd f := by
  refine (outFault_frame s code df sub unit detail active).rd_steady (f := f) (fun r => ?_) calm
  rcases r with e | e | e <;> rw [e] at hi
  · exact absurd hi (by decide)
  · exact absurd hi (by decide)
  · exact absurd hi (by decide)

theorem outFault_on {f : Field} (calm : steady f.addr = true) (hi : f.addr < 0x3FFF00) :
    (s.outFault code df sub unit detail active).on f = s.on f := by
  unfold State.on
  rw [outFault_same code df sub unit detail active calm hi]

theorem outFault_phase {n : Nat} (few : n < 12) : (s.outFault code df sub unit detail active).phase n = s.phase n :=
  outFault_same code df sub unit detail active (f := F.OUT_SPK_STAT_PHASE n) (steady_above (show 0x100440 ≤ 0x30100C + 0x40 * n by omega))
    (show 0x30100C + 0x40 * n < 0x3FFF00 by omega)

end

/-! ## The other channels -/

/-- What a channel, its group and the device at large keep while another channel moves. -/
structure Beside (k : Nat) (s t : State) : Prop where
  still  : Still s → Still t
  phase  : t.phase k = s.phase k
  spk    : t.spk k = s.spk k
  groups : t.groups = s.groups
  rd     : ∀ f, steady f.addr = true → ¬ showReg f.addr → t.rd f = s.rd f

namespace Beside

variable {k : Nat} {s t u : State}

theorem refl (s : State) : Beside k s s := ⟨id, rfl, rfl, rfl, fun _ _ _ => rfl⟩

theorem trans (h : Beside k s t) (g : Beside k t u) : Beside k s u :=
  ⟨fun q => g.still (h.still q), g.phase.trans h.phase, g.spk.trans h.spk, g.groups.trans h.groups, fun f c a => (g.rd f c a).trans (h.rd f c a)⟩

theorem of_moves {P : Nat → Prop} (h : Moves P s t) (few : k < 12) (away : ¬ P k) : Beside k s t :=
  ⟨h.still, h.phase few away, h.spk k away, h.frame.groups, fun _ calm out => h.keeps _ (stays_apart calm out)⟩

/-- A bit of OUT_SPK_STAT other than the phase. -/
theorem mark (s : State) {f : Field} {n : Nat} (few : n < 12) (place : f.addr = Reg.OUT_SPK_STAT n) (low : f.lo + f.width ≤ 28) (v : Nat) :
    Beside k s (s.wr f v) := by
  refine ⟨fun q => wr_still q f v, ?_, rfl, rfl, fun g _ out => State.rd_wr_off s v (apart_addr fun e => out ?_)⟩
  · exact State.rd_wr_off s v (g := F.OUT_SPK_STAT_PHASE k) (apart_bits (by omega) (.inr low))
  · rw [e, place]
    exact showReg_spk few

theorem on (h : Beside k s t) {f : Field} (calm : steady f.addr = true := by decide) (out : ¬ showReg f.addr) : t.on f = s.on f := by
  unfold State.on
  rw [h.rd f calm out]

theorem grp (h : Beside k s t) (g : Nat) : t.grp g = s.grp g := grp_congr h.groups g

theorem master (h : Beside k s t) (n : Nat) : t.master n = s.master n := by
  unfold State.master
  rw [h.grp]

end Beside

theorem not_showReg {a : Nat} (h : a < 0x301000 ∨ 0x304000 ≤ a) : ¬ showReg a := fun k => by
  rcases k with ⟨n, few, e⟩ | e
  · unfold Reg.OUT_SPK_STAT at e
    omega
  · unfold Reg.OUT_CRK_STAT at e
    omega

theorem Beside.settledPairs {k g : Nat} {s t : State} (h : Beside k s t) (few : g < 3) (pairs : s.settledPairs g) : t.settledPairs g := by
  unfold State.settledPairs
  rw [h.grp, h.rd (F.OUT_G_CFG_PAIR g) (steady_above (show 0x100440 ≤ 0x300000 + 0x100 * g by omega))
    (not_showReg (.inl (show 0x300000 + 0x100 * g < 0x301000 by omega)))]
  exact pairs

/-! ## A group's channels, one after the other -/

/-- In a loop over a group's channels each is moved by its own step alone. -/
theorem channel_once {I : State → Prop} {f : Nat → State → State} {g : Nat} {s : State} (calm : Still s) (inv : I s)
    (kept : ∀ c a z, Beside c a z → I a → I z)
    (step : ∀ i k z, i < 4 → k < 4 → i ≠ k → Still z → I z → Beside (4 * g + k) z (f i z)) {j : Nat} (few : j < 4) :
    ∃ z, Still z ∧ I z ∧ Beside (4 * g + j) s z ∧ Beside (4 * g + j) (f j z) (forEach f 4 s) := by
  have own : ∀ i z, i < 4 → Still z → I z → Still (f i z) ∧ I (f i z) := fun i z lt q h => by
    have aside := step i ((i + 1) % 4) z lt (Nat.mod_lt _ (by decide)) (by omega) q h
    exact ⟨aside.still q, kept _ _ _ aside h⟩
  obtain ⟨z, before, after⟩ := forEach_once (V := fun a z => Still a ∧ I a → Beside (4 * g + j) a z) (f := f) (s := s) (n := 4) few
    (fun i a z lt other h k => (h k).trans (step i j z lt few other ((h k).still k.1) (kept _ _ _ (h k) k.2))) fun z _ => .refl z
  have first := before ⟨calm, inv⟩
  have q := first.still calm
  have h := kept _ _ _ first inv
  exact ⟨z, q, h, first, after (own j z few q h)⟩

theorem channels_leave {I : State → Prop} {f : Nat → State → State} {g : Nat} {s : State} (calm : Still s) (inv : I s)
    (kept : ∀ c a z, Beside c a z → I a → I z)
    (step : ∀ i k z, i < 4 → k < 4 → i ≠ k → Still z → I z → Beside (4 * g + k) z (f i z)) :
    (forEach f 4 s).groups = s.groups ∧ ∀ x, steady x.addr = true → ¬ showReg x.addr → (forEach f 4 s).rd x = s.rd x := by
  obtain ⟨z, q, h, before, after⟩ := channel_once (j := 0) calm inv kept step (by decide)
  have own := step 0 1 z (by decide) (by decide) (by decide) q h
  exact ⟨after.groups.trans (own.groups.trans before.groups), fun x steady out =>
    (after.rd x steady out).trans ((own.rd x steady out).trans (before.rd x steady out))⟩

end Sys2Proof.Machine
end

section
/-!
# Temperature (spec/08_speaker_channels.md, R382 to R384)
-/

namespace Sys2Proof.Machine

-- One theorem after the other: in one text, theorems that wait for the kernel would each hold a thread.
set_option Elab.async false

theorem maskOf_lt (p : Nat → Bool) : ∀ n, maskOf n p < 2 ^ n
  | 0 => Nat.one_pos
  | n + 1 => by
    have lower := maskOf_lt p n
    have eq : maskOf (n + 1) p = if p n = true then maskOf n p + 2 ^ n else maskOf n p := rfl
    rw [eq, Nat.pow_succ]
    split <;> omega

theorem inMask_testBit (m n : Nat) : inMask m n = m.testBit n := by
  unfold inMask
  rw [Nat.testBit_eq_decide_div_mod_eq]

theorem inMask_maskOf (p : Nat → Bool) {k : Nat} : ∀ {n : Nat}, k < n → inMask (maskOf n p) k = p k
  | n + 1, few => by
    have lower := maskOf_lt p n
    have eq : maskOf (n + 1) p = if p n = true then maskOf n p + 2 ^ n else maskOf n p := rfl
    rw [inMask_testBit, eq]
    by_cases here : k = n
    · rw [here]
      split
      next yes => rw [Nat.add_comm, Nat.testBit_two_pow_add_eq, Nat.testBit_lt_two_pow lower, yes]; rfl
      next no => rw [Nat.testBit_lt_two_pow lower, Bool.eq_false_of_not_eq_true no]
    · have below : k < n := by omega
      have same : (maskOf n p + 2 ^ n).testBit k = (maskOf n p).testBit k := by
        rw [Nat.add_comm, Nat.testBit_two_pow_add_gt below]
      split
      · rw [same, ← inMask_testBit, inMask_maskOf p below]
      · rw [← inMask_testBit, inMask_maskOf p below]

/-! ## The foldback -/

/-- A_fb of a group after a sample. -/
def State.foldedTo (s : State) (g : Nat) : Nat :=
  let t := s.rd (F.OUT_G_THERM_TJ g)
  let tfb := max 125 (s.rd (F.OUT_G_THERM_TFB g)) + 64
  let rate := fbRate (s.rd (F.OUT_G_THERM_FBRATE g))
  if tfb ≤ t then min 240000 ((s.grp g).afb + rate) else if t + 5 ≤ tfb then (s.grp g).afb - rate else (s.grp g).afb

/-- A_fb as it moves, with the registers that show it. -/
def State.attenuated (s : State) (g : Nat) : State :=
  ((s.modGrp g fun x => { x with afb := s.foldedTo g }).wr (F.OUT_G_THERM_FBATT g) (eighths (s.foldedTo g))).wr (F.OUT_G_STAT_FBACT g)
    (b2n (s.foldedTo g ≠ 0))

theorem Frame.raiseThermal {m : Parts} {R : Nat → Prop} {s t : State} (h : Frame m R s t) (g kind : Nat) : Frame m R s (t.raiseThermal g kind) := h.raise

theorem foldBack_still {s : State} {g : Nat} (rests : s.foldedTo g = (s.grp g).afb) : s.foldBack g = s := if_pos rests

theorem foldBack_announces {s : State} {g : Nat} (moves : s.foldedTo g ≠ (s.grp g).afb) :
    Frame {} (fun _ => False) (s.attenuated g) (s.foldBack g) := by
  have eq : s.foldBack g =
      let s2 := if (s.grp g).afb = 0 then (s.attenuated g).raiseThermal g 1 else s.attenuated g
      let s3 := forEach (fun _ s => s.raiseThermal g 2)
        (crossings (s.grp g).afb (s.foldedTo g) (10000 * s.rd (F.OUT_G_THERM_TEVSTEP g))) s2
      if s.foldedTo g = 0 then s3.raiseThermal g 3 else s3 := if_neg moves
  have start := Frame.refl (m := {}) (R := fun _ => False) id (s.attenuated g)
  have begun : Frame {} (fun _ => False) (s.attenuated g) (if (s.grp g).afb = 0 then (s.attenuated g).raiseThermal g 1 else s.attenuated g) :=
    .ite (start.raiseThermal g 1) start
  have stepped := Frame.forEach (f := fun _ s => s.raiseThermal g 2) (fun _ _ h => h.raiseThermal g 2)
    (n := crossings (s.grp g).afb (s.foldedTo g) (10000 * s.rd (F.OUT_G_THERM_TEVSTEP g))) begun
  rw [eq]
  exact .ite (stepped.raiseThermal g 3) stepped

/-- What a foldback leaves. -/
structure Folded (g : Nat) (s t : State) : Prop where
  frame : Frame { groups := true } (fun a => a = Reg.OUT_G_THERM g ∨ a = Reg.OUT_G_STAT g) s t
  afb   : (t.grp g).afb = s.foldedTo g
  tj    : t.rd (F.OUT_G_THERM_TJ g) = s.rd (F.OUT_G_THERM_TJ g)
  tshut : t.on (F.OUT_G_STAT_TSHUT g) = s.on (F.OUT_G_STAT_TSHUT g)
  seq   : ∀ h, (t.grp h).seq = (s.grp h).seq
  pairs : ∀ h, (t.grp h).pairs = (s.grp h).pairs

theorem group_away {g : Nat} (few : g < 3) : ¬ (Reg.PWR_STATE = Reg.OUT_G_THERM g ∨ Reg.PWR_STATE = Reg.OUT_G_STAT g) := by
  unfold Reg.PWR_STATE Reg.OUT_G_THERM Reg.OUT_G_STAT
  omega

theorem modGrp_part {α : Type} (s : State) {g : Nat} (few : g < 3) (f : GroupX → GroupX) (p : GroupX → α) (same : ∀ x, p (f x) = p x) (h : Nat) :
    p ((s.modGrp g f).grp h) = p (s.grp h) := by
  by_cases here : h = g
  · rw [here]
    exact (congrArg p (vat_vmod_same s.groups f few)).trans (same _)
  · exact congrArg p (vat_vmod_ne s.groups f here)

theorem attenuated_folds (s : State) {g : Nat} (few : g < 3) : Folded g s (s.attenuated g) := by
  refine ⟨?_, ?_, ?_, ?_, modGrp_part s few _ GroupX.seq fun _ => rfl, modGrp_part s few _ GroupX.pairs fun _ => rfl⟩
  · have moved : Frame { groups := true } (fun a => a = Reg.OUT_G_THERM g ∨ a = Reg.OUT_G_STAT g) s
        (s.modGrp g fun x => { x with afb := s.foldedTo g }) := (Frame.refl (group_away few) s).upd rfl
    exact (moved.wr (f := F.OUT_G_THERM_FBATT g) (.inl rfl)).wr (f := F.OUT_G_STAT_FBACT g) (.inr rfl)
  · exact congrArg GroupX.afb (vat_vmod_same s.groups _ few)
  · exact (State.rd_wr_off _ _ (f := F.OUT_G_STAT_FBACT g) (g := F.OUT_G_THERM_TJ g) (apart_addr
      (show 0x300004 + 0x100 * g ≠ 0x300008 + 0x100 * g by omega))).trans (State.rd_wr_off _ _ (f := F.OUT_G_THERM_FBATT g)
      (g := F.OUT_G_THERM_TJ g) (apart_bits (show 8 + 8 ≤ 32 by decide) (.inl (show 0 + 8 ≤ 8 by decide))))
  · exact (State.on_wr_off _ _ (f := F.OUT_G_STAT_FBACT g) (g := F.OUT_G_STAT_TSHUT g) (apart_bits (show 14 + 1 ≤ 32 by decide)
      (.inr (show 14 + 1 ≤ 15 by decide)))).trans (State.on_wr_off _ _ (f := F.OUT_G_THERM_FBATT g) (g := F.OUT_G_STAT_TSHUT g) (apart_addr
      (show 0x300008 + 0x100 * g ≠ 0x300004 + 0x100 * g by omega)))

theorem group_steady {o g : Nat} : steady (0x300000 + o + 0x100 * g) = true := steady_above (by omega)

theorem foldBack_folds (s : State) {g : Nat} (few : g < 3) : Folded g s (s.foldBack g) := by
  by_cases rests : s.foldedTo g = (s.grp g).afb
  · rw [foldBack_still rests]
    exact ⟨.refl (group_away few) s, rests.symm, rfl, rfl, fun _ => rfl, fun _ => rfl⟩
  · have folds := attenuated_folds s few
    have told := foldBack_announces rests
    have same : ∀ h, (s.foldBack g).grp h = (s.attenuated g).grp h := grp_congr told.groups
    exact {
      frame := folds.frame.trans (told.widen.mono (fun _ r => r.elim) (group_away few))
      afb := (congrArg GroupX.afb (same g)).trans folds.afb
      tj := (told.rd_steady (f := F.OUT_G_THERM_TJ g) id (group_steady (o := 4))).trans folds.tj
      tshut := (told.on_steady (f := F.OUT_G_STAT_TSHUT g) id (group_steady (o := 8))).trans folds.tshut
      seq := fun h => (congrArg GroupX.seq (same h)).trans (folds.seq h)
      pairs := fun h => (congrArg GroupX.pairs (same h)).trans (folds.pairs h) }

/-! ## The shut-down -/

/-- The channels of a group that a shut-down holds. -/
def State.shutHit (s : State) (g : Nat) : Nat :=
  maskOf 4 fun k => !(s.phase (4 * g + k) = phOff || s.phase (4 * g + k) = phSlave || held (s.phase (4 * g + k)))

/-- One channel of a shut-down. -/
def shutStep (g hit k : Nat) (s : State) : State :=
  if inMask hit k then (s.set1 (F.OUT_SPK_STAT_TSHUT (4 * g + k))).faultHold (4 * g + k) 0x305 else s

theorem tshut_cool {s : State} {g : Nat} (cool : s.rd (F.OUT_G_THERM_TJ g) < 165 + 64) (off : s.on (F.OUT_G_STAT_TSHUT g) = false) :
    s.tshut g = s := by
  unfold State.tshut
  dsimp only
  rw [if_neg (fun h => absurd h.1 (Nat.not_le.2 cool)), if_neg (fun h => absurd (h.2.symm.trans off) (by decide))]

/-- The group as it shuts down, before its channels follow. -/
def State.shutting (s : State) (g : Nat) : State :=
  ((s.set1 (F.OUT_G_STAT_TSHUT g)).outFault 0x305 0 0 (0x10 + g) 0 true).modGrp g fun x => { x with shut := s.shutHit g }

theorem tshut_hot {s : State} {g : Nat} (hot : 165 + 64 ≤ s.rd (F.OUT_G_THERM_TJ g)) (off : s.on (F.OUT_G_STAT_TSHUT g) = false) :
    s.tshut g = (forEach (shutStep g (s.shutHit g)) 4 (s.shutting g)).raiseThermal g 4 := by
  unfold State.tshut
  dsimp only
  rw [if_pos ⟨hot, off⟩]
  rfl

theorem shutStep_beside {g hit : Nat} (few : g < 3) {i k : Nat} (lt : i < 4) (own : k < 4) (other : i ≠ k) {z : State} (q : Still z)
    (master : ∀ j, j < 4 → inMask hit j = true → z.master (4 * g + j) = 4 * g + j) : Beside (4 * g + k) z (shutStep g hit i z) := by
  unfold shutStep
  split
  next yes =>
    have marked : Beside (4 * g + k) z (z.set1 (F.OUT_SPK_STAT_TSHUT (4 * g + i))) :=
      .mark z (n := 4 * g + i) (by omega) rfl (show 11 + 1 ≤ 28 by decide) 1
    have moved := (Moves.refl (P := (· = 4 * g + i)) (z.set1 (F.OUT_SPK_STAT_TSHUT (4 * g + i)))).faultHold (marked.still q)
      ((marked.master _).trans (master i lt yes)) (by omega) rfl 0x305
    exact marked.trans (.of_moves moved (by omega) (by omega))
  next => exact .refl z

theorem shutStep_phase {g hit : Nat} (few : g < 3) {k : Nat} (own : k < 4) {z : State} (q : Still z)
    (master : ∀ j, j < 4 → inMask hit j = true → z.master (4 * g + j) = 4 * g + j) :
    (shutStep g hit k z).phase (4 * g + k) = if inMask hit k = true then phFault else z.phase (4 * g + k) := by
  unfold shutStep
  split
  next yes =>
    have marked : Beside (4 * g + k) z (z.set1 (F.OUT_SPK_STAT_TSHUT (4 * g + k))) :=
      .mark z (n := 4 * g + k) (by omega) rfl (show 11 + 1 ≤ 28 by decide) 1
    exact faultHold_phase (marked.still q) ((marked.master _).trans (master k own yes)) (by omega) 0x305
  next => rfl

/-- The channels that a shut-down names are masters. -/
def State.shutMasters (s : State) (g hit : Nat) : Prop := ∀ j, j < 4 → inMask hit j = true → s.master (4 * g + j) = 4 * g + j

/-- What the start of a shut-down leaves. -/
structure Shutting (g : Nat) (s t : State) : Prop where
  still  : Still t
  phase  : ∀ n, n < 12 → t.phase n = s.phase n
  tshut  : t.on (F.OUT_G_STAT_TSHUT g) = true
  tj     : t.rd (F.OUT_G_THERM_TJ g) = s.rd (F.OUT_G_THERM_TJ g)
  afb    : (t.grp g).afb = (s.grp g).afb
  master : ∀ n, t.master n = s.master n

theorem set1_still {s : State} (q : Still s) (f : Field) : Still (s.set1 f) := wr_still q f 1

theorem phase_of_group (s : State) (f : Field) (v n : Nat) (place : f.addr < 0x301000) : (s.wr f v).phase n = s.phase n :=
  State.rd_wr_off s v (f := f) (g := F.OUT_SPK_STAT_PHASE n) (apart_addr (show 0x30100C + 0x40 * n ≠ f.addr by omega))

theorem modGrp_still {s : State} (q : Still s) {g : Nat} (few : g < 3) (f : GroupX → GroupX) (same : ∀ x, (f x).seq = x.seq) : Still (s.modGrp g f) :=
  q.of_seqs rfl (fun h _ => modGrp_part s few f GroupX.seq same h) rfl rfl q.recs

theorem master_of_pairs {s t : State} (pairs : ∀ g, (t.grp g).pairs = (s.grp g).pairs) (n : Nat) : t.master n = s.master n := by
  unfold State.master
  rw [pairs]

theorem shutting_faulted (s : State) (q : Still s) {g : Nat} (few : g < 3) :
    Shutting g s ((s.set1 (F.OUT_G_STAT_TSHUT g)).outFault 0x305 0 0 (0x10 + g) 0 true) := by
  have frame := outFault_frame (s.set1 (F.OUT_G_STAT_TSHUT g)) 0x305 0 0 (0x10 + g) 0 true
  have same : ∀ h, ((s.set1 (F.OUT_G_STAT_TSHUT g)).outFault 0x305 0 0 (0x10 + g) 0 true).grp h = s.grp h := grp_congr (frame.groups.trans (State.wr_groups s _ 1))
  exact {
    still := outFault_still 0x305 0 0 (0x10 + g) 0 true (set1_still q _) (by decide)
    phase := fun n lt => (outFault_phase _ _ _ _ _ _ lt).trans (phase_of_group s _ 1 n (show 0x300008 + 0x100 * g < 0x301000 by omega))
    tshut := by
      rw [outFault_on _ _ _ _ _ _ (f := F.OUT_G_STAT_TSHUT g) (group_steady (o := 8)) (show 0x300008 + 0x100 * g < 0x3FFF00 by omega)]
      exact State.on_set1_same s (f := F.OUT_G_STAT_TSHUT g) (show 15 + 1 ≤ 32 ∧ 0 < 1 by decide)
    tj := (outFault_same _ _ _ _ _ _ (f := F.OUT_G_THERM_TJ g) (group_steady (o := 4)) (show 0x300004 + 0x100 * g < 0x3FFF00 by omega)).trans
      (State.rd_set1_off s (f := F.OUT_G_STAT_TSHUT g) (g := F.OUT_G_THERM_TJ g) (apart_addr
        (show 0x300004 + 0x100 * g ≠ 0x300008 + 0x100 * g by omega)))
    afb := congrArg GroupX.afb (same g)
    master := master_of_pairs fun h => congrArg GroupX.pairs (same h) }

theorem Shutting.shut {g : Nat} {s t : State} (h : Shutting g s t) (few : g < 3) (m : Nat) : Shutting g s (t.modGrp g fun x => { x with shut := m }) where
  still := modGrp_still h.still few _ fun _ => rfl
  phase := h.phase
  tshut := h.tshut
  tj := h.tj
  afb := (modGrp_part t few (fun x => { x with shut := m }) GroupX.afb (fun _ => rfl) g).trans h.afb
  master := fun n => (master_of_pairs (modGrp_part t few (fun x => { x with shut := m }) GroupX.pairs fun _ => rfl) n).trans (h.master n)

theorem shutting_shows (s : State) (q : Still s) {g : Nat} (few : g < 3) : Shutting g s (s.shutting g) := (shutting_faulted s q few).shut few _

/-- A group that shuts down. -/
structure ShutDown (g : Nat) (s t : State) : Prop where
  tshut : t.on (F.OUT_G_STAT_TSHUT g) = true
  tj    : t.rd (F.OUT_G_THERM_TJ g) = s.rd (F.OUT_G_THERM_TJ g)
  afb   : (t.grp g).afb = (s.grp g).afb
  phase : ∀ j, j < 4 → t.phase (4 * g + j) = if inMask (s.shutHit g) j = true then phFault else s.phase (4 * g + j)

theorem tshut_shuts {s : State} (q : Still s) {g : Nat} (few : g < 3) (hot : 165 + 64 ≤ s.rd (F.OUT_G_THERM_TJ g))
    (off : s.on (F.OUT_G_STAT_TSHUT g) = false) (masters : s.shutMasters g (s.shutHit g)) : ShutDown g s (s.tshut g) := by
  rw [tshut_hot hot off]
  have begun := shutting_shows s q few
  obtain ⟨hit, named⟩ : ∃ hit, hit = s.shutHit g := ⟨_, rfl⟩
  rw [← named] at masters ⊢
  have inv : (s.shutting g).shutMasters g hit := fun j lt yes => (begun.master _).trans (masters j lt yes)
  have kept : ∀ c a z, Beside c a z → State.shutMasters a g hit → State.shutMasters z g hit := fun c a z h m j lt yes =>
    (h.master _).trans (m j lt yes)
  have step : ∀ i k z, i < 4 → k < 4 → i ≠ k → Still z → State.shutMasters z g hit → Beside (4 * g + k) z (shutStep g hit i z) :=
    fun i k z lt own other calm m => shutStep_beside few lt own other calm m
  obtain ⟨groups, rest⟩ := channels_leave (f := shutStep g hit) begun.still inv kept step
  have told := (Frame.refl (m := {}) (R := fun _ => False) id (forEach (shutStep g hit) 4 (s.shutting g))).raiseThermal g 4
  refine ⟨?_, ?_, ?_, fun j lt => ?_⟩
  · rw [told.on_steady (f := F.OUT_G_STAT_TSHUT g) id (group_steady (o := 8))]
    unfold State.on
    rw [rest (F.OUT_G_STAT_TSHUT g) (group_steady (o := 8)) (not_showReg (.inl (show 0x300008 + 0x100 * g < 0x301000 by omega)))]
    exact begun.tshut
  · rw [told.rd_steady (f := F.OUT_G_THERM_TJ g) id (group_steady (o := 4)),
      rest (F.OUT_G_THERM_TJ g) (group_steady (o := 4)) (not_showReg (.inl (show 0x300004 + 0x100 * g < 0x301000 by omega)))]
    exact begun.tj
  · rw [grp_congr told.groups, grp_congr groups]
    exact begun.afb
  · obtain ⟨z, calm, m, before, after⟩ := channel_once (f := shutStep g hit) begun.still inv kept step lt
    have own := shutStep_phase few lt calm m
    have phase := before.phase.trans (begun.phase _ (by omega))
    exact ((told.rd_steady (f := F.OUT_SPK_STAT_PHASE (4 * g + j)) id
      (steady_above (show 0x100440 ≤ 0x30100C + 0x40 * (4 * g + j) by omega))).trans after.phase).trans (own.trans (by rw [phase, named]))

/-! ## A sample -/

theorem sampled_folds (s : State) {g tj : Nat} (few : tj < 256) : (s.wr (F.OUT_G_THERM_TJ g) tj).rd (F.OUT_G_THERM_TJ g) = tj ∧
    (s.wr (F.OUT_G_THERM_TJ g) tj).foldedTo g =
      (let tfb := max 125 (s.rd (F.OUT_G_THERM_TFB g)) + 64
       let rate := fbRate (s.rd (F.OUT_G_THERM_FBRATE g))
       if tfb ≤ tj then min 240000 ((s.grp g).afb + rate) else if tj + 5 ≤ tfb then (s.grp g).afb - rate else (s.grp g).afb) := by
  have own : (s.wr (F.OUT_G_THERM_TJ g) tj).rd (F.OUT_G_THERM_TJ g) = tj :=
    State.rd_wr_fits s (f := F.OUT_G_THERM_TJ g) (show 0 + 8 ≤ 32 by decide) few
  refine ⟨own, ?_⟩
  unfold State.foldedTo
  dsimp only
  rw [own, State.rd_wr_off s tj (f := F.OUT_G_THERM_TJ g) (g := F.OUT_G_THERM_TFB g) (apart_bits (show 0 + 8 ≤ 32 by decide)
      (.inr (show 0 + 8 ≤ 24 by decide))),
    State.rd_wr_off s tj (f := F.OUT_G_THERM_TJ g) (g := F.OUT_G_THERM_FBRATE g) (apart_bits (show 0 + 8 ≤ 32 by decide)
      (.inr (show 0 + 8 ≤ 20 by decide)))]
  rfl

theorem shutHit_eq {s t : State} {g : Nat} (few : g < 3) (phase : ∀ n, n < 12 → t.phase n = s.phase n) {j : Nat} (lt : j < 4) :
    inMask (t.shutHit g) j = !(s.phase (4 * g + j) = phOff || s.phase (4 * g + j) = phSlave || held (s.phase (4 * g + j))) := by
  unfold State.shutHit
  rw [inMask_maskOf _ lt, phase _ (by omega)]

/-- What a sample leaves before a shut-down. -/
structure Sampled (g hot : Nat) (s t : State) : Prop where
  still  : Still t
  spks   : t.spks = s.spks
  phase  : ∀ n, n < 12 → t.phase n = s.phase n
  tj     : t.rd (F.OUT_G_THERM_TJ g) = hot
  tshut  : t.on (F.OUT_G_STAT_TSHUT g) = s.on (F.OUT_G_STAT_TSHUT g)
  afb    : (t.grp g).afb = State.foldedTo (s.wr (F.OUT_G_THERM_TJ g) hot) g
  master : ∀ n, t.master n = s.master n

theorem sample_shows {s : State} (q : Still s) {g tj : Nat} (few : g < 3) (byte : tj < 256) :
    Sampled g tj s ((s.wr (F.OUT_G_THERM_TJ g) tj).foldBack g) := by
  have folds := foldBack_folds (s.wr (F.OUT_G_THERM_TJ g) tj) few
  have calm := wr_still q (F.OUT_G_THERM_TJ g) tj
  have own := (sampled_folds s (g := g) byte).1
  exact {
    still := calm.of_seqs folds.frame.diag (fun h _ => folds.seq h) folds.frame.crk folds.frame.out (by rw [folds.frame.saf]; exact calm.recs)
    spks := folds.frame.spks.trans (wr_spks s _ _)
    phase := fun n lt => by
      refine (folds.frame.rd_steady (f := F.OUT_SPK_STAT_PHASE n) (fun r => ?_) (steady_above (show 0x100440 ≤ 0x30100C + 0x40 * n by omega))).trans
        (phase_of_group s _ tj n (show 0x300004 + 0x100 * g < 0x301000 by omega))
      have r' : 0x30100C + 0x40 * n = 0x300004 + 0x100 * g ∨ 0x30100C + 0x40 * n = 0x300008 + 0x100 * g := r
      omega
    tj := folds.tj.trans own
    tshut := folds.tshut.trans (State.on_wr_off s tj (f := F.OUT_G_THERM_TJ g) (g := F.OUT_G_STAT_TSHUT g) (apart_addr
      (show 0x300008 + 0x100 * g ≠ 0x300004 + 0x100 * g by omega)))
    afb := folds.afb
    master := fun n => (master_of_pairs folds.pairs n).trans (wr_master s _ _ n) }

/-- Settles O35: the sample folds back, and at 165 degrees it shuts the group down. -/
theorem thermalSampleFoldsBackAndShutsDown : Obligations.ThermalSampleFoldsBackAndShutsDown := by
  unfold Obligations.ThermalSampleFoldsBackAndShutsDown
  intro s g a b c d q off masters tj tfb rate
  have byte : tj < 256 := by
    have := a.isLt; have := b.isLt; have := c.isLt; have := d.isLt
    show max (max a.toNat b.toNat) (max c.toNat d.toNat) < 256
    omega
  have sampled := sample_shows q (g := g.val) g.isLt byte
  have folds := (sampled_folds s (g := g.val) byte).2
  by_cases hot : 165 + 64 ≤ tj
  · have shut := tshut_shuts sampled.still g.isLt (by rw [sampled.tj]; exact hot) (sampled.tshut.trans off) fun j lt yes => by
      rw [sampled.master]
      refine masters _ (by omega) fun slave => ?_
      rw [shutHit_eq g.isLt sampled.phase lt, slave] at yes
      exact absurd yes (by simp)
    refine ⟨_, rfl, shut.tj.trans sampled.tj, shut.afb.trans (sampled.afb.trans folds), fun cool => absurd hot (Nat.not_le.2 cool),
      fun _ => ⟨shut.tshut, fun j lt => (shut.phase j lt).trans ?_⟩⟩
    rw [shutHit_eq g.isLt sampled.phase lt, sampled.phase _ (by omega)]
    by_cases rests : s.phase (4 * g.val + j) = phOff ∨ s.phase (4 * g.val + j) = phSlave ∨ held (s.phase (4 * g.val + j)) = true
    · rw [if_pos rests, if_neg]
      simp only [Bool.not_eq_true', Bool.or_eq_false_iff, decide_eq_false_iff_not, not_and, Bool.not_eq_false, and_imp]
      exact fun off slave => (rests.resolve_left off).resolve_left slave
    · rw [if_neg rests, if_pos]
      obtain ⟨off, slave, held⟩ := by simpa only [not_or, Bool.not_eq_true] using rests
      rw [decide_eq_false off, decide_eq_false slave, held]
      rfl
  · have cool : tj < 165 + 64 := Nat.not_le.1 hot
    have same := tshut_cool (by rw [sampled.tj]; exact cool) (sampled.tshut.trans off)
    refine ⟨_, congrArg Host.Outcome.next same, sampled.tj, sampled.afb.trans folds, fun _ => ⟨sampled.spks, sampled.phase⟩,
      fun h => absurd h hot⟩

end Sys2Proof.Machine
end

section
/-!
# What protects a channel (spec/08_speaker_channels.md, R379, R387 to R393, R805)
-/

namespace Sys2Proof.Machine

-- One theorem after the other: in one text, theorems that wait for the kernel would each hold a thread.
set_option Elab.async false

theorem modSpk_still {s : State} (q : Still s) (n : Nat) (f : SpkX → SpkX) : Still (s.modSpk n f) := ⟨modSpk_quiet q.toQuiet n f, q.crk, q.stops⟩

theorem modSpk_master (s : State) (n : Nat) (f : SpkX → SpkX) (m : Nat) : (s.modSpk n f).master m = s.master m := rfl

theorem modSpk_reg (s : State) (n : Nat) (f : SpkX → SpkX) (a : Nat) : (s.modSpk n f).reg a = s.reg a := rfl

theorem modSpk_rd (s : State) (n : Nat) (f : SpkX → SpkX) (x : Field) : (s.modSpk n f).rd x = s.rd x := rfl

theorem modSpk_on (s : State) (n : Nat) (f : SpkX → SpkX) (x : Field) : (s.modSpk n f).on x = s.on x := rfl

theorem wr_spk (s : State) (f : Field) (v n : Nat) : (s.wr f v).spk n = s.spk n := rfl

/-- A bit of OUT_SPK_STAT other than the phase leaves the phases. -/
theorem mark_phase (s : State) (f : Field) (v n : Nat) (low : f.lo + f.width ≤ 28) : (s.wr f v).phase n = s.phase n :=
  State.rd_wr_off s v (f := f) (g := F.OUT_SPK_STAT_PHASE n) (apart_bits (by omega) (.inr low))

/-! ## The current limit -/

/-- How many periods in a row are limited. -/
def tripRun (k : Nat) : TripPeriod → Nat
  | .same => max k 1
  | .next => k + 1
  | .later => 1

/-- A limited period, as it is counted. -/
def State.limited (s : State) (k run : Nat) : State := (s.set1 (F.OUT_SPK_STAT_ILIMHIT k)).modSpk k fun x => { x with run := run }

/-- A channel found shorted, not yet classified. -/
def State.shorted (s : State) (k : Nat) : State := (s.set1 (F.OUT_SPK_STAT_SHORT k)).modSpk k fun x => { x with unclass := true }

theorem acSpoil_none {s : State} (h : s.diag.ac = none) (n : Nat) : s.acSpoil n = s := by
  unfold State.acSpoil
  rw [h]

theorem limited_still {s : State} (q : Still s) (k run : Nat) : Still (s.limited k run) := modSpk_still (set1_still q _) k _

theorem shorted_still {s : State} (q : Still s) (k : Nat) : Still (s.shorted k) := modSpk_still (set1_still q _) k _

theorem ilimTrip_trips {s : State} (q : Still s) (n : Fin 12) (legM : Bool) (w : TripPeriod)
    (acts : s.legActs (n / 4) (nodeOf n (b2n legM)) = true) : exec (.ilimTrip n legM w) s = .next
      (if 8 ≤ tripRun (s.spk (s.master n)).run w then
        ((s.limited (s.master n) (tripRun (s.spk (s.master n)).run w)).shorted (s.master n)).faultHold (s.master n) 0x301
      else s.limited (s.master n) (tripRun (s.spk (s.master n)).run w)) := by
  have none : ∀ run, ((s.set1 (F.OUT_SPK_STAT_ILIMHIT (s.master n))).modSpk (s.master n) fun x => { x with run := run }).acSpoil (s.master n) =
      s.limited (s.master n) run := fun run => acSpoil_none (limited_still q (s.master n) run).ac _
  show execIlimTrip n legM w s = _
  unfold execIlimTrip
  rw [if_pos acts]
  cases w <;> dsimp only [tripRun] <;> rw [none] <;> exact (apply_ite Host.Outcome.next _ _ _).symm

theorem ilimhit_fits (k : Nat) : (F.OUT_SPK_STAT_ILIMHIT k).lo + (F.OUT_SPK_STAT_ILIMHIT k).width ≤ 32 ∧ 0 < (F.OUT_SPK_STAT_ILIMHIT k).width :=
  show 8 + 1 ≤ 32 ∧ 0 < 1 by decide

theorem limited_shows (s : State) {k : Nat} (few : k < 12) (run : Nat) : (s.limited k run).on (F.OUT_SPK_STAT_ILIMHIT k) = true ∧
    (s.limited k run).phase k = s.phase k ∧ ((s.limited k run).spk k).run = run ∧
    SameRegsBut (fun a => a = Reg.OUT_SPK_STAT k) s (s.limited k run) := by
  refine ⟨?_, ?_, ?_, fun a other => .inl ((modSpk_reg _ k _ a).trans (State.reg_wr_ne s (f := F.OUT_SPK_STAT_ILIMHIT k) 1 other))⟩
  · exact (modSpk_on _ k _ _).trans (State.on_set1_same s (f := F.OUT_SPK_STAT_ILIMHIT k) (ilimhit_fits k))
  · exact (modSpk_rd _ k _ _).trans (mark_phase s (F.OUT_SPK_STAT_ILIMHIT k) 1 k (show 8 + 1 ≤ 28 by decide))
  · exact congrArg SpkX.run (spk_modSpk_same _ _ few)

theorem stays_ilimhit {P : Nat → Prop} {k : Nat} (few : k < 12) : stays P (F.OUT_SPK_STAT_ILIMHIT k) :=
  stays_stat few rfl (.inl (show 8 + 1 ≤ 21 by decide))

theorem stays_short {P : Nat → Prop} {k : Nat} (few : k < 12) : stays P (F.OUT_SPK_STAT_SHORT k) :=
  stays_stat few rfl (.inl (show 15 + 1 ≤ 21 by decide))

theorem trip_holds {s : State} (q : Still s) {k : Nat} (few : k < 12) (master : s.master k = k) (run : Nat) :
    (((s.limited k run).shorted k).faultHold k 0x301).on (F.OUT_SPK_STAT_ILIMHIT k) = true ∧
    (((s.limited k run).shorted k).faultHold k 0x301).phase k = phFault ∧
    (((s.limited k run).shorted k).faultHold k 0x301).on (F.OUT_SPK_STAT_SHORT k) = true ∧
    ((((s.limited k run).shorted k).faultHold k 0x301).spk k).why = 0x301 := by
  have calm := shorted_still (limited_still q k run) k
  have own : ((s.limited k run).shorted k).master k = k :=
    (modSpk_master _ k _ k).trans ((wr_master _ _ 1 k).trans ((modSpk_master _ k _ k).trans ((wr_master s _ 1 k).trans master)))
  have moved := (Moves.start k ((s.limited k run).shorted k)).faultHold calm own few rfl 0x301
  refine ⟨?_, faultHold_phase calm own few _, ?_, congrArg SpkX.why (faultHold_spk calm own few 0x301)⟩
  · rw [moved.on (stays_ilimhit few)]
    refine (modSpk_on _ k _ _).trans ((State.on_set1_off _ (f := F.OUT_SPK_STAT_SHORT k) (g := F.OUT_SPK_STAT_ILIMHIT k)
      (apart_bits (show 15 + 1 ≤ 32 by decide) (.inl (show 8 + 1 ≤ 15 by decide)))).trans (limited_shows s few run).1)
  · rw [moved.on (stays_short few)]
    exact (modSpk_on _ k _ _).trans (State.on_set1_same _ (f := F.OUT_SPK_STAT_SHORT k) (show 15 + 1 ≤ 32 ∧ 0 < 1 by decide))

/-! ## The classification of a short -/

theorem shortClassify_classifies {s : State} (n : Fin 12) (own slave : ChanTest) (fault : s.phase (s.master n) = phFault)
    (why : (s.spk (s.master n)).why = 0x301) (unclass : (s.spk (s.master n)).unclass = true) (healthy : s.sclassOf (s.master n) own slave ≠ 4) :
    exec (.shortClassify n own slave) s = .next (((s.wr (F.OUT_SPK_STAT_SCLASS (s.master n)) (s.sclassOf (s.master n) own slave)).modSpk (s.master n)
      fun x => { x with unclass := false }).outFault 0x301 0 0 (s.master n) (s.sclassOf (s.master n) own slave) false) := by
  have none : s.failing (s.master n) own slave = [] := by
    by_contra some'
    exact healthy (if_pos some')
  have unclass' : ((s.wr (F.OUT_SPK_STAT_SCLASS (s.master n)) (s.sclassOf (s.master n) own slave)).spk (s.master n)).unclass = true :=
    (congrArg SpkX.unclass (wr_spk s _ _ _)).trans unclass
  show execShortClassify n own slave s = _
  unfold execShortClassify
  dsimp only
  rw [if_pos ⟨fault, why, unclass⟩, none]
  exact congrArg Host.Outcome.next (if_pos unclass')

theorem sclass_small (s : State) (n : Nat) (own slave : ChanTest) : s.sclassOf n own slave < 8 := by
  unfold State.sclassOf
  split
  · decide
  · unfold State.nodeClass
    dsimp only
    cases found : [1, 2, 3].find? fun k => ((s.drives n).map fun c => nodeTests (if c = n then own else slave)).contains k with
    | none => exact (by decide : 0 < 8)
    | some k =>
      have mem := List.mem_of_find?_eq_some found
      simp only [List.mem_cons, List.not_mem_nil, or_false] at mem
      exact show k < 8 by omega

theorem classified_shows (s : State) {k c : Nat} (few : k < 12) (small : c < 8) :
    let t := ((s.wr (F.OUT_SPK_STAT_SCLASS k) c).modSpk k fun x => { x with unclass := false }).outFault 0x301 0 0 k c false
    t.rd (F.OUT_SPK_STAT_SCLASS k) = c ∧ (t.spk k).unclass = false ∧ t.phase k = s.phase k ∧ ∃ r ∈ t.saf.recs, r.code = 0x301 ∧ r.unit = k := by
  intro t
  have frame := outFault_frame ((s.wr (F.OUT_SPK_STAT_SCLASS k) c).modSpk k fun x => { x with unclass := false }) 0x301 0 0 k c false
  refine ⟨?_, ?_, ?_, outFault_here _ _ _ _ _ _⟩
  · refine (outFault_same _ _ _ _ _ _ (f := F.OUT_SPK_STAT_SCLASS k) (steady_above (show 0x100440 ≤ 0x30100C + 0x40 * k by omega))
      (show 0x30100C + 0x40 * k < 0x3FFF00 by omega)).trans ((modSpk_rd _ k _ _).trans ?_)
    exact State.rd_wr_fits s (f := F.OUT_SPK_STAT_SCLASS k) (show 25 + 3 ≤ 32 by decide) small
  · exact (congrArg SpkX.unclass (spk_congr frame.spks k)).trans (congrArg SpkX.unclass (spk_modSpk_same _ _ few))
  · exact (outFault_phase _ _ _ _ _ _ few).trans ((modSpk_rd _ k _ _).trans (sclass_phase s k c k))

end Sys2Proof.Machine
end

section
/-!
# Retries, the DC difference and PVDD (spec/08_speaker_channels.md, R391 to R393, R805)
-/

namespace Sys2Proof.Machine

-- One theorem after the other: in one text, theorems that wait for the kernel would each hold a thread.
set_option Elab.async false

/-! ## A channel that starts again -/

/-- What decides whether a carrier runs and whether a channel may start. -/
def SameRegs (s t : State) : Prop := ∀ f : Field, steady f.addr = true → ¬ showReg f.addr → t.rd f = s.rd f

theorem Moves.sameRegs {P : Nat → Prop} {s t : State} (h : Moves P s t) : SameRegs s t := fun _ calm out => h.keeps _ (stays_apart calm out)

theorem SameRegs.on {s t : State} (h : SameRegs s t) {f : Field} (calm : steady f.addr = true := by decide) (out : ¬ showReg f.addr) :
    t.on f = s.on f := by
  unfold State.on
  rw [h f calm out]

theorem SameRegs.trans {s t u : State} (h : SameRegs s t) (k : SameRegs t u) : SameRegs s u := fun f calm out => (k f calm out).trans (h f calm out)

theorem SameRegs.css {s t : State} (h : SameRegs s t) : t.rd F.SAFE_SM_STAT_CSS = s.rd F.SAFE_SM_STAT_CSS :=
  h F.SAFE_SM_STAT_CSS (by decide) (not_showReg (.inr (by decide)))

theorem SameRegs.pvddok {s t : State} (h : SameRegs s t) {g : Nat} (few : g < 3) : t.on (F.OUT_G_STAT_PVDDOK g) = s.on (F.OUT_G_STAT_PVDDOK g) :=
  h.on (f := F.OUT_G_STAT_PVDDOK g) (group_steady (o := 8)) (not_showReg (.inl (show 0x300008 + 0x100 * g < 0x301000 by omega)))

theorem not_showReg_sw {a : Nat} (lo : 0x303000 ≤ a) : ¬ showReg a := fun k => by
  rcases k with ⟨n, few, e⟩ | e
  · unfold Reg.OUT_SPK_STAT at e
    omega
  · unfold Reg.OUT_CRK_STAT at e
    omega

theorem carrierOn_of {s t : State} {g : Nat} (dom : t.rd (domBit (dmGroup g)) = s.rd (domBit (dmGroup g)))
    (enabled : t.rd (F.OUT_SW_OUTA_EN g) = s.rd (F.OUT_SW_OUTA_EN g)) (fallback : t.on F.SAFE_SM_STAT_FALLBACK = s.on F.SAFE_SM_STAT_FALLBACK)
    (swon : t.rd F.OUT_SW_STAT_SWON = s.rd F.OUT_SW_STAT_SWON) (gate : t.rd F.OUT_SW_STAT_GATE = s.rd F.OUT_SW_STAT_GATE) : t.carrierOn g = s.carrierOn g := by
  have bank : ¬ dmGroup g < 0x10 := by unfold dmGroup; omega
  unfold State.carrierOn State.domOn
  rw [if_neg bank, if_neg bank, fallback, gate]
  unfold State.on
  rw [dom, enabled, swon]

theorem SameRegs.carrierOn {s t : State} (h : SameRegs s t) (g : Nat) : t.carrierOn g = s.carrierOn g := by
  exact carrierOn_of (h (domBit (dmGroup g)) (show steady Reg.PWR_DOMSTAT = true by decide)
      (not_showReg (.inl (show Reg.PWR_DOMSTAT < 0x301000 by decide))))
    (h (F.OUT_SW_OUTA_EN g) (steady_above (show 0x100440 ≤ 0x303020 + 4 * g by omega)) (not_showReg_sw (show 0x303000 ≤ 0x303020 + 4 * g by omega)))
    (h.on (f := F.SAFE_SM_STAT_FALLBACK) (by decide) (not_showReg (.inr (by decide)))) (h F.OUT_SW_STAT_SWON (by decide) (not_showReg_sw (by decide)))
    (h F.OUT_SW_STAT_GATE (by decide) (not_showReg_sw (by decide)))

/-- A channel as it takes a start from Off. -/
def State.starting (s : State) (n : Nat) (alert : Bool) : State := s.modSpk n fun x => { x with on := true, short := alert, stopWait := none }

theorem startChan_checks {s : State} (q : Quiet s) {n : Nat} (off : s.phase n = phOff) (safe : s.rd F.SAFE_SM_STAT_CSS ≠ 2)
    (free : s.cfgHolds n = false) (pvdd : s.on (F.OUT_G_STAT_PVDDOK (n / 4)) = true) (runs : s.carrierOn (n / 4) = true) (alert : Bool) :
    s.startChan n alert = (s.starting n alert).beginCheck n := by
  have poll : (s.modSpk n fun x => { x with on := true, short := if s.phase n = phOff then alert else x.short, stopWait := none }).diagPoll =
      s.starting n alert := by
    rw [off]
    exact diagPoll_quiet q.dc q.ac
  have same : SameRegs s (s.starting n alert) := fun _ _ _ => rfl
  unfold State.startChan
  dsimp only
  rw [poll, if_neg, if_pos off, if_pos ⟨(modSpk_on s n _ _).trans pvdd, (same.carrierOn _).trans runs⟩]
  rw [off, free]
  rintro (e | e | e | e)
  · exact absurd e (by decide)
  · exact absurd e (by decide)
  · exact safe e
  · exact absurd e Bool.false_ne_true

/-- A channel released from Fault hold, its fault state cleared. -/
def State.faultCleared (s : State) (n : Nat) : State :=
  (s.modSpk n fun x => { x with on := false, start := false, why := 0 }).wr (F.OUT_SPK_STAT_SCLASS n) 0

theorem unhold_classed {s : State} {n : Nat} (classed : (s.spk n).unclass = false) : s.unhold n = (s.faultCleared n).toOff n := by
  have none : s.recordShort n 0 = s := if_neg (by rw [classed]; exact Bool.false_ne_true)
  unfold State.unhold
  rw [none]
  rfl

theorem faultCleared_still {s : State} (q : Still s) (n : Nat) : Still (s.faultCleared n) := wr_still (modSpk_still q n _) _ _

theorem faultCleared_sameRegs (s : State) {n : Nat} (few : n < 12) : SameRegs s (s.faultCleared n) := fun f _ out =>
  (State.rd_wr_off _ 0 (f := F.OUT_SPK_STAT_SCLASS n) (apart_addr fun e => out (by rw [e]; exact showReg_spk few))).trans (modSpk_rd s n _ f)

theorem modSpk_groups (s : State) (n : Nat) (f : SpkX → SpkX) : (s.modSpk n f).groups = s.groups := rfl

theorem modSpk_link (s : State) (n : Nat) (f : SpkX → SpkX) : (s.modSpk n f).link = s.link := rfl

theorem faultCleared_link (s : State) (n : Nat) : (s.faultCleared n).link = s.link := (State.wr_link _ _ _).trans (modSpk_link s n _)

theorem faultCleared_groups (s : State) (n : Nat) : (s.faultCleared n).groups = s.groups := (State.wr_groups _ _ _).trans (modSpk_groups s n _)

theorem starting_on (s : State) (n : Nat) (alert : Bool) (f : Field) : (s.starting n alert).on f = s.on f := rfl

theorem starting_quiet {s : State} (q : Quiet s) (n : Nat) (alert : Bool) : Quiet (s.starting n alert) := modSpk_quiet q n _

theorem faultCleared_short (s : State) (n : Nat) : (s.faultCleared n).on (F.OUT_SPK_STAT_SHORT n) = s.on (F.OUT_SPK_STAT_SHORT n) :=
  (State.on_wr_off _ 0 (f := F.OUT_SPK_STAT_SCLASS n) (g := F.OUT_SPK_STAT_SHORT n) (apart_bits (show 25 + 3 ≤ 32 by decide)
    (.inl (show 15 + 1 ≤ 25 by decide)))).trans (modSpk_on s n _ _)

theorem cfgHolds_none {s : State} (h : s.link.cfgpar = []) (n : Nat) : s.cfgHolds n = false := by
  unfold State.cfgHolds
  rw [h]
  rfl

/-- A channel restarts through Check, its bits kept. -/
theorem restart_checks {s : State} (q : Still s) {n : Nat} (few : n < 12) (classed : (s.spk n).unclass = false) (cfg : s.link.cfgpar = [])
    (safe : s.rd F.SAFE_SM_STAT_CSS ≠ 2) (pvdd : s.on (F.OUT_G_STAT_PVDDOK (n / 4)) = true) (runs : s.carrierOn (n / 4) = true)
    (pairs : s.settledPairs (n / 4)) :
    (s.restart n).phase n = phCheck ∧ (s.restart n).on (F.OUT_SPK_STAT_SHORT n) = s.on (F.OUT_SPK_STAT_SHORT n) := by
  have calm := (faultCleared_still q n).toQuiet
  have same := faultCleared_sameRegs s few
  have settled : (s.faultCleared n).settledPairs (n / 4) := by
    unfold State.settledPairs
    rw [same (F.OUT_G_CFG_PAIR (n / 4)) (group_steady (o := 0)) (not_showReg (.inl (show 0x300000 + 0x100 * (n / 4) < 0x301000 by omega))),
      grp_congr (faultCleared_groups s n)]
    exact pairs
  have moved := (Moves.start n (s.faultCleared n)).toOff calm few rfl settled
  have regs := same.trans moved.sameRegs
  have cfg' : ((s.faultCleared n).toOff n).link.cfgpar = [] := (congrArg Link.cfgpar (moved.frame.link.trans (faultCleared_link s n))).trans cfg
  have checks := startChan_checks (moved.quiet calm) (toOff_phase calm few settled) (regs.css.symm ▸ safe) (cfgHolds_none cfg' n)
    ((regs.pvddok (by omega)).trans pvdd) ((regs.carrierOn _).trans runs) false
  have quiet := starting_quiet (moved.quiet calm) n false
  have begun := (Moves.start n (((s.faultCleared n).toOff n).starting n false)).beginCheck quiet few rfl
  unfold State.restart
  rw [if_neg (by rw [cfgHolds_none cfg]; exact Bool.false_ne_true), unhold_classed classed, checks]
  refine ⟨beginCheck_phase quiet few, ?_⟩
  rw [begun.on (stays_short few)]
  exact (starting_on _ n _ _).trans ((moved.on (stays_short few)).trans (faultCleared_short s n))

section
variable {s : State} {k : Nat} {n : Fin 12} (own' : n.val = k) (held : held (s.phase k) = true) (why : (s.spk k).why = 0x301)
  (classed : (s.spk k).unclass = false) (retry : s.on (F.OUT_SPK_CTRL_RETRY k) = true) (safe : s.chipSafe = false) (own slave : ChanTest)
include own' held why classed retry safe

theorem retryPulse_limited : exec (.retryPulse n true (own, slave)) s = .next (s.set1 (F.OUT_SPK_STAT_ILIMHIT k)) := by
  show execRetryPulse n true (own, slave) s = _
  unfold execRetryPulse
  rw [own']
  exact (if_pos ⟨held, why, classed, retry, safe⟩).trans (if_pos rfl)

theorem retryPulse_restarts (passes : s.nodeClass k own slave = 0) :
    exec (.retryPulse n false (own, slave)) s = .next ((s.clr (F.OUT_SPK_STAT_SHORT k)).restart k) := by
  show execRetryPulse n false (own, slave) s = _
  unfold execRetryPulse
  rw [own']
  exact (if_pos ⟨held, why, classed, retry, safe⟩).trans ((if_neg Bool.false_ne_true).trans (if_pos passes))

end

theorem clr_still {s : State} (q : Still s) (f : Field) : Still (s.clr f) := wr_still q f 0

theorem clr_settledPairs {s : State} {g : Nat} (f : Field) (away : f.addr ≠ 0x300000 + 0x100 * g) (pairs : s.settledPairs g) : (s.clr f).settledPairs g := by
  unfold State.settledPairs
  rw [State.rd_clr_off s (f := f) (g := F.OUT_G_CFG_PAIR g) (apart_addr fun e => away e.symm)]
  exact pairs

theorem clr_spk (s : State) (f : Field) (n : Nat) : (s.clr f).spk n = s.spk n := rfl

theorem clr_link (s : State) (f : Field) : (s.clr f).link = s.link := rfl

theorem retry_passes {s : State} (q : Still s) {k : Nat} (few : k < 12) (classed : (s.spk k).unclass = false) (cfg : s.link.cfgpar = [])
    (safe : s.chipSafe = false) (pvdd : s.on (F.OUT_G_STAT_PVDDOK (k / 4)) = true) (runs : s.carrierOn (k / 4) = true)
    (pairs : s.settledPairs (k / 4)) : ((s.clr (F.OUT_SPK_STAT_SHORT k)).restart k).phase k = phCheck ∧
      ((s.clr (F.OUT_SPK_STAT_SHORT k)).restart k).on (F.OUT_SPK_STAT_SHORT k) = false := by
  have same : SameRegs s (s.clr (F.OUT_SPK_STAT_SHORT k)) := fun f _ out =>
    State.rd_clr_off s (f := F.OUT_SPK_STAT_SHORT k) (apart_addr fun e => out (by rw [e]; exact showReg_spk few))
  have css : s.rd F.SAFE_SM_STAT_CSS = 0 := by
    unfold State.chipSafe at safe
    exact not_not.1 (of_decide_eq_false safe)
  obtain ⟨phase, short⟩ := restart_checks (clr_still q (F.OUT_SPK_STAT_SHORT k)) few ((congrArg SpkX.unclass (clr_spk s _ k)).trans classed)
    ((congrArg Link.cfgpar (clr_link s _)).trans cfg) (by rw [same.css, css]; decide) ((same.pvddok (by omega)).trans pvdd)
    ((same.carrierOn _).trans runs) (clr_settledPairs _ (show 0x30100C + 0x40 * k ≠ 0x300000 + 0x100 * (k / 4) by omega) pairs)
  exact ⟨phase, short.trans (State.on_clr_same s (f := F.OUT_SPK_STAT_SHORT k) (show 15 + 1 ≤ 32 by decide))⟩

/-! ## The DC difference -/

/-- Whether a window's DC difference exceeds the threshold. -/
def State.dcExceeds (s : State) (k : Nat) (measured commanded : Int) : Prop :=
  100 * max 1 (s.rd (F.OUT_SPK_LIMIT_DCTHR k)) < (measured - commanded).natAbs

/-- A lasting DC difference as it is found. -/
def State.dcFound (s : State) (k : Nat) : State := (s.set1 (F.OUT_SPK_STAT_DCLOAD k)).outFault 0x306 3 0 k 0 false

section
variable {s : State} {n : Fin 12} (lo : phUnmute ≤ s.phase (s.master n)) (hi : s.phase (s.master n) ≤ phMute) {measured commanded : Int}
include lo hi

theorem dcWindow_lasts (bad : s.dcExceeds (s.master n) measured commanded) (again : (s.spk (s.master n)).dcBad = true) :
    exec (.dcWindow n measured commanded) s = .next ((s.dcFound (s.master n)).faultHold (s.master n) 0x306) := by
  show execDcWindow n measured commanded s = _
  unfold execDcWindow
  exact (if_pos ⟨lo, hi⟩).trans (if_pos ⟨decide_eq_true bad, again⟩)

theorem dcWindow_notes (out : ¬ (s.dcExceeds (s.master n) measured commanded ∧ (s.spk (s.master n)).dcBad = true)) (yes : Bool)
    (bad : yes = true ↔ s.dcExceeds (s.master n) measured commanded) :
    exec (.dcWindow n measured commanded) s = .next (s.modSpk (s.master n) fun x => { x with dcBad := yes }) := by
  have eq : decide (100 * max 1 (s.rd (F.OUT_SPK_LIMIT_DCTHR (s.master n))) < (measured - commanded).natAbs) = yes :=
    Bool.eq_iff_iff.2 (decide_eq_true_iff.trans bad.symm)
  show execDcWindow n measured commanded s = _
  unfold execDcWindow
  dsimp only
  rw [eq]
  exact (if_pos ⟨lo, hi⟩).trans (if_neg fun h => out ⟨bad.1 h.1, h.2⟩)

end

theorem dc_holds {s : State} (q : Still s) {k : Nat} (few : k < 12) (master : s.master k = k) :
    ((s.dcFound k).faultHold k 0x306).phase k = phFault ∧ ((s.dcFound k).faultHold k 0x306).on (F.OUT_SPK_STAT_DCLOAD k) = true ∧
      (((s.dcFound k).faultHold k 0x306).spk k).why = 0x306 := by
  have frame := outFault_frame (s.set1 (F.OUT_SPK_STAT_DCLOAD k)) 0x306 3 0 k 0 false
  have calm : Still (s.dcFound k) := outFault_still _ _ _ _ _ _ (set1_still q _) (by decide)
  have own : (s.dcFound k).master k = k :=
    (master_of_pairs (fun h => congrArg GroupX.pairs (grp_congr (frame.groups.trans (State.wr_groups s _ 1)) h)) k).trans master
  have moved := (Moves.start k (s.dcFound k)).faultHold calm own few rfl 0x306
  refine ⟨faultHold_phase calm own few _, ?_, congrArg SpkX.why (faultHold_spk calm own few _)⟩
  rw [moved.on (stays_stat few rfl (.inl (show 12 + 1 ≤ 21 by decide)))]
  exact (outFault_on _ _ _ _ _ _ (f := F.OUT_SPK_STAT_DCLOAD k) (steady_above (show 0x100440 ≤ 0x30100C + 0x40 * k by omega))
    (show 0x30100C + 0x40 * k < 0x3FFF00 by omega)).trans (State.on_set1_same s (f := F.OUT_SPK_STAT_DCLOAD k) (show 12 + 1 ≤ 32 ∧ 0 < 1 by decide))

end Sys2Proof.Machine
end

section
/-!
# PVDD leaves its range and returns (spec/08_speaker_channels.md, R393, R805)
-/

namespace Sys2Proof.Machine

-- One theorem after the other: in one text, theorems that wait for the kernel would each hold a thread.
set_option Elab.async false

/-- What a group's channel does as PVDD leaves its range. -/
def pvddStep (g code k : Nat) (s : State) : State :=
  let n := 4 * g + k
  let s2 := if code = 0x307 ∧ s.phase n ≠ phOff ∧ s.phase n ≠ phSlave then s.set1 (F.OUT_SPK_STAT_PVDDUV n) else s
  (s2.diagAbort n).pvddDrop n

/-- A group whose PVDD is out of range. -/
def State.pvddFault (s : State) (g code : Nat) : State := (s.clr (F.OUT_G_STAT_PVDDOK g)).outFault code 0 0 (0x10 + g) 0 true

theorem pvddOut_drops {s : State} {g code : Nat} (ok : s.on (F.OUT_G_STAT_PVDDOK g) = true) :
    s.pvddOut g code = forEach (pvddStep g code) 4 (s.pvddFault g code) := if_pos ok

/-- Whether a channel stays as PVDD leaves its range. -/
def unpowered (ph : Nat) : Prop := ph = phOff ∨ ph = phSlave ∨ held ph = true

theorem pvddDrop_moves {s : State} (q : Still s) {n : Nat} (few : n < 12) (pairs : s.settledPairs (n / 4)) :
    Moves (· = n) s (s.pvddDrop n) ∧ (unpowered (s.phase n) → (s.pvddDrop n).phase n = s.phase n) ∧
      (¬ unpowered (s.phase n) → (s.pvddDrop n).phase n = phOff) := by
  by_cases rests : unpowered (s.phase n)
  · have same : s.pvddDrop n = s := if_pos rests
    rw [same]
    exact ⟨.start n s, fun _ => rfl, fun h => absurd rests h⟩
  · have off := (Moves.start n s).toOff q.toQuiet few rfl pairs
    have moved := off.modSpk rfl fun x => { x with
      on := (s.spk n).on && (s.spk n).stopWait.isNone, start := (s.spk n).on && (s.spk n).stopWait.isNone }
    have same : s.pvddDrop n = (s.toOff n).modSpk n fun x => { x with
        on := (s.spk n).on && (s.spk n).stopWait.isNone, start := (s.spk n).on && (s.spk n).stopWait.isNone } :=
      (if_neg rests).trans (chanLost_still (moved.still q) n)
    rw [same]
    exact ⟨moved, fun h => absurd h rests, fun _ => (modSpk_rd _ n _ _).trans (toOff_phase q.toQuiet few pairs)⟩

section
variable {g code : Nat} (few : g < 3) {i : Nat} (lt : i < 4) {z : State} (q : Still z) (pairs : z.settledPairs g)
include few lt q pairs

/-- A step is the drop of one channel, marked or not. -/
theorem pvddStep_drops : ∃ y, pvddStep g code i z = y.pvddDrop (4 * g + i) ∧ Still y ∧ y.settledPairs g ∧ (∀ n, y.phase n = z.phase n) ∧
    ∀ k, Beside k z y := by
  by_cases marks : code = 0x307 ∧ z.phase (4 * g + i) ≠ phOff ∧ z.phase (4 * g + i) ≠ phSlave
  · have marked : ∀ k, Beside k z (z.set1 (F.OUT_SPK_STAT_PVDDUV (4 * g + i))) := fun k =>
      .mark z (n := 4 * g + i) (by omega) rfl (show 10 + 1 ≤ 28 by decide) 1
    have calm := (marked 0).still q
    refine ⟨z.set1 (F.OUT_SPK_STAT_PVDDUV (4 * g + i)), ?_, calm, (marked 0).settledPairs few pairs,
      fun n => mark_phase z (F.OUT_SPK_STAT_PVDDUV (4 * g + i)) 1 n (show 10 + 1 ≤ 28 by decide), marked⟩
    unfold pvddStep
    dsimp only
    rw [if_pos marks, diagAbort_quiet calm.dc calm.ac]
  · refine ⟨z, ?_, q, pairs, fun _ => rfl, fun _ => .refl z⟩
    unfold pvddStep
    dsimp only
    rw [if_neg marks, diagAbort_quiet q.dc q.ac]

theorem pvddStep_beside {k : Nat} (own : k < 4) (other : i ≠ k) : Beside (4 * g + k) z (pvddStep g code i z) := by
  obtain ⟨y, eq, calm, settled, -, marked⟩ := pvddStep_drops (code := code) few lt q pairs
  rw [eq]
  exact (marked _).trans (.of_moves (pvddDrop_moves calm (n := 4 * g + i) (by omega) (by rwa [show (4 * g + i) / 4 = g by omega])).1 (by omega) (by omega))

theorem pvddStep_phase : (unpowered (z.phase (4 * g + i)) → (pvddStep g code i z).phase (4 * g + i) = z.phase (4 * g + i)) ∧
    (¬ unpowered (z.phase (4 * g + i)) → (pvddStep g code i z).phase (4 * g + i) = phOff) := by
  obtain ⟨y, eq, calm, settled, phase, -⟩ := pvddStep_drops (code := code) few lt q pairs
  have drops := (pvddDrop_moves calm (n := 4 * g + i) (by omega) (by rwa [show (4 * g + i) / 4 = g by omega])).2
  rw [eq, ← phase]
  exact drops

end

theorem pvddok_fits (g : Nat) : (F.OUT_G_STAT_PVDDOK g).lo + (F.OUT_G_STAT_PVDDOK g).width ≤ 32 := show 13 + 1 ≤ 32 by decide

theorem pvddFault_shows {s : State} (q : Still s) {g code : Nat} (few : g < 3) (other : code ≠ 0x30A) (pairs : s.settledPairs g) :
    Still (s.pvddFault g code) ∧ (s.pvddFault g code).settledPairs g ∧ (s.pvddFault g code).on (F.OUT_G_STAT_PVDDOK g) = false ∧
      ∀ n, n < 12 → (s.pvddFault g code).phase n = s.phase n := by
  have frame := outFault_frame (s.clr (F.OUT_G_STAT_PVDDOK g)) code 0 0 (0x10 + g) 0 true
  refine ⟨outFault_still _ _ _ _ _ _ (clr_still q _) other, ?_, ?_, fun n lt => (outFault_phase _ _ _ _ _ _ lt).trans
    (phase_of_group s (F.OUT_G_STAT_PVDDOK g) 0 n (show 0x300008 + 0x100 * g < 0x301000 by omega))⟩
  · have settled := clr_settledPairs (s := s) (g := g) (F.OUT_G_STAT_PVDDOK g) (show 0x300008 + 0x100 * g ≠ 0x300000 + 0x100 * g by omega) pairs
    unfold State.settledPairs at settled ⊢
    unfold State.pvddFault
    rw [outFault_same _ _ _ _ _ _ (f := F.OUT_G_CFG_PAIR g) (group_steady (o := 0)) (show 0x300000 + 0x100 * g < 0x3FFF00 by omega),
      grp_congr frame.groups]
    exact settled
  · exact (outFault_on _ _ _ _ _ _ (f := F.OUT_G_STAT_PVDDOK g) (group_steady (o := 8)) (show 0x300008 + 0x100 * g < 0x3FFF00 by omega)).trans
      (State.on_clr_same s (f := F.OUT_G_STAT_PVDDOK g) (pvddok_fits g))

theorem pvddOut_shows {s : State} (q : Still s) {g code : Nat} (few : g < 3) (other : code ≠ 0x30A) (ok : s.on (F.OUT_G_STAT_PVDDOK g) = true)
    (pairs : s.settledPairs g) : (s.pvddOut g code).on (F.OUT_G_STAT_PVDDOK g) = false ∧
      ∀ j, j < 4 → (s.pvddOut g code).phase (4 * g + j) =
        if s.phase (4 * g + j) = phSlave ∨ held (s.phase (4 * g + j)) = true then s.phase (4 * g + j) else phOff := by
  obtain ⟨calm, settled, off, phases⟩ := pvddFault_shows q (code := code) few other pairs
  have kept : ∀ c a z, Beside c a z → State.settledPairs a g → State.settledPairs z g := fun c a z h p => h.settledPairs few p
  have step : ∀ i k z, i < 4 → k < 4 → i ≠ k → Still z → State.settledPairs z g → Beside (4 * g + k) z (pvddStep g code i z) :=
    fun i k z lt own other' calm p => pvddStep_beside few lt calm p own other'
  have rest := (channels_leave (f := pvddStep g code) calm settled kept step).2
  rw [pvddOut_drops ok]
  refine ⟨?_, fun j lt => ?_⟩
  · unfold State.on
    rw [rest (F.OUT_G_STAT_PVDDOK g) (group_steady (o := 8)) (not_showReg (.inl (show 0x300008 + 0x100 * g < 0x301000 by omega)))]
    exact off
  · obtain ⟨z, calm', settled', before, after⟩ := channel_once (f := pvddStep g code) calm settled kept step lt
    obtain ⟨stays, drops⟩ := pvddStep_phase (code := code) few lt calm' settled'
    have phase : z.phase (4 * g + j) = s.phase (4 * g + j) := before.phase.trans (phases _ (by omega))
    rw [phase] at stays drops
    rw [after.phase]
    split
    next rests => exact stays (.inr rests)
    next moves =>
      by_cases none : s.phase (4 * g + j) = phOff
      · exact (stays (.inl none)).trans none
      · exact drops fun h => h.elim none moves

/-! ## PVDD stays in range -/

/-- What a group's channel does as PVDD has stayed in range. -/
def pvddReturn (g k : Nat) (s : State) : State :=
  if s.phase (4 * g + k) = phOff ∧ (s.spk (4 * g + k)).start ∧ s.carrierOn g ∧ s.rd F.SAFE_SM_STAT_CSS ≠ 2 then s.beginCheck (4 * g + k) else s

/-- A group whose PVDD is in range again. -/
def State.pvddGood (s : State) (g : Nat) : State :=
  (((s.modGrp g fun x => { x with ovHeld := false }).set1 (F.OUT_G_STAT_PVDDOK g)).faultGone 0x307 0 (0x10 + g)).faultGone 0x308 0 (0x10 + g)

theorem pvddReturn_moves {g k : Nat} (few : g < 3) (lt : k < 4) {z : State} (q : Still z) : Moves (· = 4 * g + k) z (pvddReturn g k z) :=
  .ite ((Moves.start _ z).beginCheck q.toQuiet (by omega) rfl) (.start _ z)

theorem pvddReturn_checks {g k : Nat} (few : g < 3) (lt : k < 4) {z : State} (q : Still z) (off : z.phase (4 * g + k) = phOff)
    (waits : (z.spk (4 * g + k)).start = true) (runs : z.carrierOn g = true) (safe : z.rd F.SAFE_SM_STAT_CSS ≠ 2) :
    (pvddReturn g k z).phase (4 * g + k) = phCheck := by
  unfold pvddReturn
  rw [if_pos ⟨off, waits, runs, safe⟩]
  exact beginCheck_phase q.toQuiet (by omega)

/-- A register of FAULT_N and the records. -/
def recReg (a : Nat) : Prop := a = Reg.SAFE_FN_STAT ∨ a = Reg.SAFE_SM_STAT

theorem faultGone_local (s : State) (code sub unit : Nat) : Local { saf := true } recReg s (s.faultGone code sub unit) :=
  (Local.refl s).faultGone rfl (.inl rfl) (.inr rfl)

theorem showFn_fallback (s : State) : s.showFn.on F.SAFE_SM_STAT_FALLBACK = s.on F.SAFE_SM_STAT_FALLBACK := by
  unfold State.showFn
  rw [State.on_wr_off _ _ (f := F.SAFE_SM_STAT_ACTCNT) (by decide), State.on_wr_off _ _ (f := F.SAFE_SM_STAT_FN) (by decide),
    State.on_wr_off _ _ (f := F.SAFE_FN_STAT_DRIVE) (by decide)]

theorem faultGone_fallback (s : State) (code sub unit : Nat) :
    (s.faultGone code sub unit).on F.SAFE_SM_STAT_FALLBACK = s.on F.SAFE_SM_STAT_FALLBACK := showFn_fallback _

theorem not_recReg {a : Nat} (h : a < 0x400000) : ¬ recReg a := fun k => by
  rcases k with e | e <;> rw [e] at h
  · exact absurd h (by decide)
  · exact absurd h (by decide)

theorem faultGone_carrierOn (s : State) (code sub unit : Nat) {g : Nat} (few : g < 3) : (s.faultGone code sub unit).carrierOn g = s.carrierOn g := by
  have kept := faultGone_local s code sub unit
  exact carrierOn_of (kept.rd (f := domBit (dmGroup g)) (not_recReg (show Reg.PWR_DOMSTAT < 0x400000 by decide)))
    (kept.rd (f := F.OUT_SW_OUTA_EN g) (not_recReg (show 0x303020 + 4 * g < 0x400000 by omega))) (faultGone_fallback s code sub unit)
    (kept.rd (f := F.OUT_SW_STAT_SWON) (not_recReg (by decide))) (kept.rd (f := F.OUT_SW_STAT_GATE) (not_recReg (by decide)))

theorem group_carrierOn (s : State) {g h : Nat} (few : h < 3) {f : Field} (v : Nat) (place : f.addr = Reg.OUT_G_STAT h) :
    (s.wr f v).carrierOn g = s.carrierOn g := by
  have range : 0x300000 ≤ f.addr ∧ f.addr < 0x300300 := by rw [place]; unfold Reg.OUT_G_STAT; omega
  refine carrierOn_of (State.rd_wr_off s v (apart_addr ?_)) (State.rd_wr_off s v (apart_addr ?_)) (State.on_wr_off s v (apart_addr ?_))
    (State.rd_wr_off s v (apart_addr ?_)) (State.rd_wr_off s v (apart_addr ?_))
  · exact fun e => absurd range.1 (Nat.not_le.2 (by rw [← e]; exact show Reg.PWR_DOMSTAT < 0x300000 by decide))
  · exact show 0x303020 + 4 * g ≠ f.addr by omega
  · exact fun e => absurd range.2 (Nat.not_lt.2 (by rw [← e]; decide))
  · exact fun e => absurd range.2 (Nat.not_lt.2 (by rw [← e]; decide))
  · exact fun e => absurd range.2 (Nat.not_lt.2 (by rw [← e]; decide))

/-- What the return of PVDD leaves before the channels start. -/
structure PvddBack (g : Nat) (s t : State) : Prop where
  still   : Still t
  spks    : t.spks = s.spks
  phase   : ∀ n, n < 12 → t.phase n = s.phase n
  css     : t.rd F.SAFE_SM_STAT_CSS = s.rd F.SAFE_SM_STAT_CSS
  carrier : t.carrierOn g = s.carrierOn g
  ok      : t.on (F.OUT_G_STAT_PVDDOK g) = true

theorem PvddBack.gone {g : Nat} {s t : State} (h : PvddBack g s t) (few : g < 3) (code sub unit : Nat) : PvddBack g s (t.faultGone code sub unit) := by
  have kept := faultGone_local t code sub unit
  exact {
    still := faultGone_still h.still code sub unit
    spks := (kept.part State.spks).trans h.spks
    phase := fun n lt => (kept.rd (f := F.OUT_SPK_STAT_PHASE n) (not_recReg (show 0x30100C + 0x40 * n < 0x400000 by omega))).trans (h.phase n lt)
    css := (faultGone_css t code sub unit).trans h.css
    carrier := (faultGone_carrierOn t code sub unit few).trans h.carrier
    ok := (kept.on (f := F.OUT_G_STAT_PVDDOK g) (not_recReg (show 0x300008 + 0x100 * g < 0x400000 by omega))).trans h.ok }

theorem modGrp_carrierOn (s : State) (h : Nat) (f : GroupX → GroupX) (g : Nat) : (s.modGrp h f).carrierOn g = s.carrierOn g := rfl

theorem modGrp_phase (s : State) (h : Nat) (f : GroupX → GroupX) (n : Nat) : (s.modGrp h f).phase n = s.phase n := rfl

theorem modGrp_rd (s : State) (h : Nat) (f : GroupX → GroupX) (x : Field) : (s.modGrp h f).rd x = s.rd x := rfl

theorem modGrp_spks (s : State) (h : Nat) (f : GroupX → GroupX) : (s.modGrp h f).spks = s.spks := rfl

theorem pvddok_back {s : State} (q : Still s) {g : Nat} (few : g < 3) :
    PvddBack g s ((s.modGrp g fun x => { x with ovHeld := false }).set1 (F.OUT_G_STAT_PVDDOK g)) where
  still := set1_still (modGrp_still q few (fun x => { x with ovHeld := false }) fun _ => rfl) _
  spks := (wr_spks _ _ 1).trans (modGrp_spks s g _)
  phase := fun n _ => (phase_of_group _ (F.OUT_G_STAT_PVDDOK g) 1 n (show 0x300008 + 0x100 * g < 0x301000 by omega)).trans (modGrp_phase s g _ n)
  css := (State.rd_set1_off _ (f := F.OUT_G_STAT_PVDDOK g) (apart_addr (show 0x400000 ≠ 0x300008 + 0x100 * g by omega))).trans (modGrp_rd s g _ _)
  carrier := (group_carrierOn _ few 1 rfl).trans (modGrp_carrierOn s g _ g)
  ok := State.on_set1_same _ (f := F.OUT_G_STAT_PVDDOK g) (show 13 + 1 ≤ 32 ∧ 0 < 1 by decide)

theorem pvddGood_back {s : State} (q : Still s) {g : Nat} (few : g < 3) : PvddBack g s (s.pvddGood g) :=
  ((pvddok_back q few).gone few 0x307 0 (0x10 + g)).gone few 0x308 0 (0x10 + g)

theorem pvddRestart_returns (s : State) (g : Fin 3) : exec (.pvddRestart g) s = .next (forEach (pvddReturn g.val) 4 (s.pvddGood g.val)) := rfl

theorem pvddRestart_shows {s : State} (q : Still s) {g : Nat} (few : g < 3) :
    (forEach (pvddReturn g) 4 (s.pvddGood g)).on (F.OUT_G_STAT_PVDDOK g) = true ∧
    (∀ j, j < 4 → s.phase (4 * g + j) = phOff → (s.spk (4 * g + j)).start = true → s.carrierOn g = true → s.rd F.SAFE_SM_STAT_CSS ≠ 2 →
      (forEach (pvddReturn g) 4 (s.pvddGood g)).phase (4 * g + j) = phCheck) ∧
    ∀ m, m < 12 → m / 4 ≠ g → (forEach (pvddReturn g) 4 (s.pvddGood g)).phase m = s.phase m := by
  have back := pvddGood_back q few
  have step : ∀ i k z, i < 4 → k < 4 → i ≠ k → Still z → True → Beside (4 * g + k) z (pvddReturn g i z) := fun i k z lt own other calm _ =>
    .of_moves (pvddReturn_moves few lt calm) (by omega) (by omega)
  refine ⟨?_, fun j lt off waits runs safe => ?_, fun m lt away => ?_⟩
  · have rest := (channels_leave (I := fun _ => True) (f := pvddReturn g) back.still trivial (fun _ _ _ _ _ => trivial) step).2
    unfold State.on
    rw [rest (F.OUT_G_STAT_PVDDOK g) (group_steady (o := 8)) (not_showReg (.inl (show 0x300008 + 0x100 * g < 0x301000 by omega)))]
    exact back.ok
  · obtain ⟨z, calm, -, before, after⟩ := channel_once (I := fun _ => True) (f := pvddReturn g) back.still trivial (fun _ _ _ _ _ => trivial) step lt
    have regs : SameRegs (s.pvddGood g) z := before.rd
    rw [after.phase]
    refine pvddReturn_checks few lt calm (before.phase.trans ((back.phase _ (by omega)).trans off)) ?_ ((regs.carrierOn g).trans (back.carrier.trans runs))
      (by rw [regs.css, back.css]; exact safe)
    rw [before.spk, spk_congr back.spks]
    exact waits
  · have moved : ∀ k, k ≤ 4 → Moves (fun n => n / 4 = g) (s.pvddGood g) (forEach (pvddReturn g) k (s.pvddGood g)) := fun k => by
      induction k with
      | zero => exact fun _ => .refl _
      | succ k ih =>
        intro le
        have h := ih (Nat.le_of_succ_le le)
        exact h.trans ((pvddReturn_moves few (by omega) (h.still back.still)).mono fun n e => by omega)
    exact ((moved 4 (Nat.le_refl 4)).phase lt away).trans (back.phase m lt)

/-- Settles O34: each protection holds or restarts its channel. -/
theorem protectionHoldsTheChannel : Obligations.ProtectionHoldsTheChannel := by
  unfold Obligations.ProtectionHoldsTheChannel
  intro s n g q k
  have few : k < 12 := master_lt s n.isLt
  have own : s.master k = k := master_even s n
  refine ⟨fun legM w acts => ?_, fun fault why unclass oth slave healthy => ?_, fun here held' why classed retry safe cfg oth slave => ⟨?_, ?_⟩,
    fun lo hi measured commanded => ?_, fun ok pairs => ⟨?_, ?_⟩, ?_⟩
  · have eq := ilimTrip_trips q n legM w acts
    have run : (match w with | .same => max (s.spk k).run 1 | .next => (s.spk k).run + 1 | .later => 1) = tripRun (s.spk k).run w := by
      cases w <;> rfl
    have shows := limited_shows s few (tripRun (s.spk k).run w)
    obtain ⟨hit, phase, count, regs⟩ := shows
    by_cases eight : 8 ≤ tripRun (s.spk k).run w
    · obtain ⟨hit', fault, short, why⟩ := trip_holds q few own (tripRun (s.spk k).run w)
      rw [if_pos eight] at eq
      refine ⟨_, eq, hit', fun less => ?_, fun _ => ⟨fault, short, why⟩⟩
      cases w <;> exact absurd eight (Nat.not_le.2 less)
    · rw [if_neg eight] at eq
      refine ⟨_, eq, hit, fun _ => ⟨phase, ?_, regs⟩, fun more => ?_⟩
      · cases w <;> exact count
      · cases w <;> exact absurd more eight
  · obtain ⟨class', unclass', phase, recorded⟩ := classified_shows s few (sclass_small s k oth slave)
    exact ⟨_, shortClassify_classifies n oth slave fault why unclass healthy, class', unclass', phase.trans fault, recorded⟩
  · refine ⟨_, retryPulse_limited here held' why classed retry safe oth slave, ?_, mark_phase s (F.OUT_SPK_STAT_ILIMHIT k) 1 k (show 8 + 1 ≤ 28 by decide)⟩
    exact State.on_set1_same s (f := F.OUT_SPK_STAT_ILIMHIT k) (ilimhit_fits k)
  · intro passes pvdd runs pairs
    exact ⟨_, retryPulse_restarts here held' why classed retry safe oth slave passes, retry_passes q few classed cfg safe pvdd runs pairs⟩
  · intro bad
    by_cases lasts : bad ∧ (s.spk k).dcBad = true
    · exact ⟨_, dcWindow_lasts lo hi lasts.1 lasts.2, fun _ _ => dc_holds q few own, fun out => absurd lasts out⟩
    · have yes : decide bad = true ↔ bad := decide_eq_true_iff
      refine ⟨_, dcWindow_notes lo hi lasts (decide bad) yes, fun b again => absurd ⟨b, again⟩ lasts, fun _ => ⟨rfl, ?_⟩⟩
      rw [spk_modSpk_same _ _ few]
      exact yes
  · exact ⟨_, rfl, pvddOut_shows q g.isLt (by decide) ok pairs⟩
  · obtain ⟨off, phases⟩ := pvddOut_shows q (code := 0x308) g.isLt (by decide) ok pairs
    exact ⟨_, rfl, off, phases⟩
  · exact ⟨_, pvddRestart_returns s g, pvddRestart_shows q g.isLt⟩

end Sys2Proof.Machine
end

section
/-!
# What a reaction leaves of the records where nothing hangs on the channels (spec/15_safety.md, R671, R673, R689; spec/01_architecture.md, R26)
-/

namespace Sys2Proof.Machine

-- One theorem after the other: in one text, theorems that wait for the kernel would each hold a thread.
set_option Elab.async false

/-- A stretch that keeps the device still, each code recorded, and the overruns counted. -/
structure Spared (s t : State) : Prop where
  still : Still t
  codes : ∀ r ∈ s.saf.recs, ∃ q ∈ t.saf.recs, q.code = r.code
  late  : ∀ rg, rg < 5 → t.on (errOverrun rg) = s.on (errOverrun rg)

theorem over_steady {rg : Nat} (few : rg < 5) : steady (errOverrun rg).addr = true := by
  show steady (0x0FFF00 + 0x100000 * rg) = true
  by_cases zero : rg = 0
  · rw [zero]
    decide
  · exact steady_above (by omega)

theorem over_fits (rg : Nat) : (errLevel rg).lo + (errLevel rg).width ≤ 32 := show 0 + 3 ≤ 32 by decide

/-- A register that is no error collector. -/
def plainReg (a : Nat) : Prop := ∀ rg, rg < 5 → a ≠ 0x0FFF00 + 0x100000 * rg

namespace Spared

variable {s t u : State}

theorem refl (q : Still s) : Spared s s := ⟨q, fun r mem => ⟨r, mem, rfl⟩, fun _ _ => rfl⟩

theorem trans (h : Spared s t) (k : Spared t u) : Spared s u := by
  refine ⟨k.still, fun r mem => ?_, fun rg few => (k.late rg few).trans (h.late rg few)⟩
  obtain ⟨p, mem', code⟩ := h.codes r mem
  obtain ⟨q, mem'', code'⟩ := k.codes p mem'
  exact ⟨q, mem'', code'.trans code⟩

theorem ite {c : Prop} [Decidable c] (h : Spared s t) (k : Spared s u) : Spared s (if c then t else u) := by
  split
  · exact h
  · exact k

theorem forEach {f : Nat → State → State} : ∀ {n : Nat} {t : State}, (∀ i x, i < n → Spared s x → Spared s (f i x)) →
    Spared s t → Spared s (Machine.forEach f n t)
  | 0, _, _, h => h
  | n + 1, _, hf, h => hf n _ (Nat.lt_succ_self n) (forEach (fun i x lt => hf i x (Nat.lt_succ_of_lt lt)) h)

/-- A move of the channels' phases. -/
theorem moves {P : Nat → Prop} (h : Spared s t) (k : Moves P t u) : Spared s u := by
  refine h.trans ⟨k.still h.still, by rw [k.frame.saf]; exact fun r mem => ⟨r, mem, rfl⟩, fun rg few => k.on (stays_apart (over_steady few) ?_)⟩
  show ¬ showReg (0x0FFF00 + 0x100000 * rg)
  rintro (⟨n, lt, e⟩ | e)
  · unfold Reg.OUT_SPK_STAT at e
    omega
  · unfold Reg.OUT_CRK_STAT at e
    omega

/-- An operation on other parts of the device. -/
theorem frame {m : Parts} {R : Nat → Prop} (h : Spared s t) (k : Frame m R t u) (plain : ∀ a, R a → plainReg a) (saf : m.saf = false := by rfl)
    (diag : m.diag = false := by rfl) (groups : m.groups = false := by rfl) (crk : m.crk = false := by rfl) (out : m.out = false := by rfl) :
    Spared s u := by
  have recs := k.saf saf
  refine h.trans ⟨h.still.of (k.diag diag) (k.groups groups) (k.crk crk) (k.out out) (by rw [recs]; exact h.still.recs),
    by rw [recs]; exact fun r mem => ⟨r, mem, rfl⟩, fun rg few => k.on_steady (fun own => plain _ own rg few rfl) (over_steady few)⟩

/-- A register that is no error collector. -/
theorem wr (h : Spared s t) {f : Field} {v : Nat} (plain : plainReg f.addr) : Spared s (t.wr f v) :=
  h.trans ⟨wr_still h.still f v, fun r mem => ⟨r, mem, rfl⟩, fun rg few => State.on_wr_off t v (apart_addr (Ne.symm (plain rg few)))⟩

/-- A field of an error collector other than OVERRUN. -/
theorem wrErr (h : Spared s t) {f : Field} {v : Nat} (fits : f.lo + f.width ≤ 32) (apart : f.lo + f.width ≤ 7 ∨ 8 ≤ f.lo) : Spared s (t.wr f v) := by
  refine h.trans ⟨wr_still h.still f v, fun r mem => ⟨r, mem, rfl⟩, fun rg few => State.on_wr_off t v (apart_bits fits ?_)⟩
  exact apart.symm.imp (fun le => show 7 + 1 ≤ f.lo from le) fun le => show f.lo + f.width ≤ 7 from le

theorem papol (h : Spared s t) (k : Frame {} (fun _ => False) t u) : Spared s u := h.frame k fun _ no => no.elim

/-- The records as they are marked. -/
theorem marked (h : Spared s t) (f : FaultRec → FaultRec) (code : ∀ r, (f r).code = r.code) :
    Spared s { t with saf := { t.saf with recs := t.saf.recs.map f } } := by
  refine h.trans ⟨h.still.of rfl rfl rfl rfl fun r mem => ?_, fun r mem => ⟨f r, List.mem_map_of_mem mem, code r⟩, fun _ _ => rfl⟩
  obtain ⟨p, old, rfl⟩ := List.mem_map.1 mem
  rw [code]
  exact h.still.recs p old

theorem showFn (h : Spared s t) : Spared s t.showFn := by
  have plain : plainReg Reg.SAFE_FN_STAT ∧ plainReg Reg.SAFE_SM_STAT := by
    unfold plainReg Reg.SAFE_FN_STAT Reg.SAFE_SM_STAT
    exact ⟨fun rg few => by omega, fun rg few => by omega⟩
  exact ((h.wr (f := F.SAFE_FN_STAT_DRIVE) plain.1).wr (f := F.SAFE_SM_STAT_FN) plain.2).wr (f := F.SAFE_SM_STAT_ACTCNT) plain.2

theorem finishAll (h : Spared s t) (sel : PendEntry → Bool) (st d : Nat) : Spared s (t.finishAll sel st d) := h.papol (Frame.refl id t).finishAll

theorem raiseSafe (h : Spared s t) (kind scope mode region recno code unit : Nat) :
    Spared s (t.raiseSafe kind scope mode region recno code unit) := h.papol (Frame.refl id t).raiseSafe

theorem outShow (h : Spared s t) : Spared s t.outShow :=
  h.moves (P := fun _ => False) ((Moves.refl t).outShow h.still.toQuiet)

theorem holdNow (h : Spared s t) {n : Nat} (few : n < 12) : Spared s (t.holdNow n) :=
  h.moves (P := fun _ => True) ((Moves.refl t).holdNow h.still.toQuiet few trivial)

theorem faultHold (h : Spared s t) {n : Nat} (few : n < 12) (why : Nat) : Spared s (t.faultHold n why) :=
  h.moves (P := fun _ => True) ((Moves.refl t).faultHold h.still rfl (master_lt t few) trivial why)

theorem modSpk (h : Spared s t) (n : Nat) (f : SpkX → SpkX) : Spared s (t.modSpk n f) :=
  h.moves (P := fun _ => True) ((Moves.refl t).modSpk (n := n) trivial f)

theorem escalated (h : Spared s t) (region : Nat) : Spared s (t.escalated region) := by
  unfold State.escalated
  exact .ite h ((h.wrErr (f := errEsc region) (show 24 + 8 ≤ 32 by decide) (.inr (show 8 ≤ 24 by decide))).wrErr (f := errChipEsc region)
    (show 6 + 1 ≤ 32 by decide) (.inl (show 6 + 1 ≤ 7 by decide)))

/-! ## The outputs under a reaction -/

theorem out_plain {a : Nat} (lo : 0x304000 ≤ a) (hi : a < 0x306000) : plainReg a := fun rg few => by omega

theorem other (h : Spared s t) {m : Parts} (u : State) (rest : t.but m u = t) (regs : u.regs = t.regs := by rfl) (mem : u.mem = t.mem := by rfl)
    (poison : u.poison = t.poison := by rfl) (saf : m.saf = false := by rfl) (diag : m.diag = false := by rfl) (groups : m.groups = false := by rfl)
    (crk : m.crk = false := by rfl) (out : m.out = false := by rfl) : Spared s u :=
  h.frame (m := m) (R := fun _ => False) ((Frame.refl id t).upd rest regs mem poison) (fun _ no => no.elim) saf diag groups crk out

theorem hpl (h : Spared s t) {f : Field} {v : Nat} (place : f.addr = Reg.OUT_HPL_STAT) : Spared s (t.wr f v) :=
  h.wr (by rw [place]; exact out_plain (by decide) (by decide))

theorem modHp (h : Spared s t) (o : Nat) (f : HpX → HpX) : Spared s (t.modHp o f) := h.other (m := { hp := true }) _ rfl

theorem waits (h : Spared s t) (x : HpCvX) : Spared s { t with hpcv := x } := h.other (m := { hpcv := true }) _ rfl

theorem setHo (h : Spared s t) (o ph : Nat) : Spared s (t.setHo o ph) := by
  have field : (hoField o).addr = Reg.OUT_HPL_STAT := by unfold hoField; split <;> rfl
  exact Spared.hpl (f := F.OUT_HPL_STAT_JHOLD) (Spared.finishAll (Spared.waits (h.hpl field) _) _ _ _) rfl

theorem hpSafe (h : Spared s t) (off : Bool) : Spared s (t.hpSafe off) :=
  .forEach (fun o _ _ h => .ite (.ite h ((h.modHp o _).setHo o _)) (.ite (h.setHo o _) h)) h

theorem modCv (h : Spared s t) (n : Nat) (f : CvX → CvX) : Spared s (t.modCv n f) := h.other (m := { cv := true }) _ rfl

theorem cvStat (h : Spared s t) {n : Nat} (few : n < 4) {f : Field} {v : Nat} (place : f.addr = Reg.OUT_CV_STAT n) : Spared s (t.wr f v) := by
  refine h.wr ?_
  rw [place]
  unfold Reg.OUT_CV_STAT
  exact out_plain (by omega) (by omega)

theorem cvPut (h : Spared s t) {n : Nat} (few : n < 4) (c : Nat) : Spared s (t.cvPut n c) :=
  .ite (h.modCv n _) (.ite ((h.modCv n _).cvStat (f := F.OUT_CV_STAT_DEGL n) few rfl) (h.cvStat (f := F.OUT_CV_STAT_OUTCODE n) few rfl))

theorem cvSettle (h : Spared s t) {n : Nat} (few : n < 4) : Spared s (t.cvSettle n) := by
  have shown := h.cvStat (f := F.OUT_CV_STAT_CLR n) (v := b2n (t.cvClears n)) few rfl
  exact Spared.cvStat (f := F.OUT_CV_STAT_SLEWING n)
    (.ite (.ite shown (shown.cvPut few _)) (.ite (shown.cvPut few _) shown)) few rfl

theorem cvSettleAll (h : Spared s t) : Spared s t.cvSettleAll := .forEach (fun _ _ lt h => h.cvSettle lt) h

/-! ## The reactions -/

theorem saf (h : Spared s t) (x : Saf) (recs : x.recs = t.saf.recs) : Spared s { t with saf := x } :=
  h.trans ⟨h.still.of rfl rfl rfl rfl (by rw [recs]; exact h.still.recs), by rw [recs]; exact fun r mem => ⟨r, mem, rfl⟩, fun _ _ => rfl⟩

theorem levelsUp (h : Spared s t) : Spared s t.levelsUp :=
  .forEach (fun r _ _ k => k.wrErr (f := errLevel r) (show 0 + 3 ≤ 32 by decide) (.inl (show 0 + 3 ≤ 7 by decide))) h

theorem halting (h : Spared s t) : Spared s t.halting := h.other (m := { pwr := true }) _ rfl

theorem causeTaken (h : Spared s t) (recno region code unit : Nat) : Spared s (t.causeTaken recno region code unit) := h.saf _ rfl

theorem smStat (h : Spared s t) {f : Field} {v : Nat} (place : f.addr = Reg.SAFE_SM_STAT) : Spared s (t.wr f v) :=
  h.wr (by rw [place]; unfold plainReg Reg.SAFE_SM_STAT; intro rg few; omega)

theorem chipState (h : Spared s t) (mode recno region code unit : Nat) : Spared s (t.chipState mode recno region code unit) := by
  rw [chipState_eq]
  have entered := ((h.causeTaken recno region code unit).levelsUp).halting
  exact ((entered.smStat (f := F.SAFE_SM_STAT_CSS) rfl).showFn).raiseSafe _ _ _ _ _ _ _

theorem fixed (h : Spared s t) (b : Bool) : Spared s { t with saf := { t.saf with fixed := b } } := h.saf _ rfl

theorem reactM (h : Spared s t) (recno region code unit : Nat) : Spared s (t.reactM recno region code unit) := by
  have entered := h.chipState 1 recno region code unit
  exact .ite (h.fixed _) (((Spared.forEach (fun n _ lt k => k.holdNow lt) entered).hpSafe false).outShow)

theorem reactO (h : Spared s t) (recno region code unit : Nat) : Spared s (t.reactO recno region code unit) := by
  have entered := h.chipState 2 recno region code unit
  exact .ite (h.fixed _) ((((Spared.forEach (fun n _ lt k => .ite (k.modSpk n _) (k.faultHold lt code)) entered).hpSafe true).cvSettleAll).outShow)

theorem reactF (h : Spared s t) (recno region code unit : Nat) : Spared s (t.reactF recno region code unit) := by
  have sw : plainReg Reg.OUT_SW_STAT := by unfold plainReg Reg.OUT_SW_STAT; intro rg few; omega
  have clk : ∀ x, Spared s { t with clk := x } := fun x => h.other (m := { clk := true }) _ rfl
  have shown := (((clk { t.clk with ramp := none, due := false, placing := false, settling := false, stepping := false, gateLeft := 0 }).smStat
    (f := F.SAFE_SM_STAT_FALLBACK) (v := 1) rfl).wr (f := F.OUT_SW_STAT_GATE) (v := 0) sw).wr (f := F.OUT_SW_STAT_RAMP) (v := 0) sw
  exact .ite h (((shown.finishAll _ _ _).raiseSafe _ _ _ _ _ _ _).outShow)

theorem markFn (h : Spared s t) (recno : Nat) : Spared s (t.markFn recno) :=
  h.marked (fun q => if q.recno = recno then { q with fn := true } else q) fun r => by split <;> rfl

theorem react (h : Spared s t) (r : Reaction) (recno region code unit : Nat) : Spared s (t.react r recno region code unit) := by
  have marked := h.markFn recno
  cases r with
  | n => exact h
  | m => exact .ite (marked.reactM _ _ _ _) (marked.reactO _ _ _ _)
  | o => exact marked.reactO _ _ _ _
  | f => exact h.reactF _ _ _ _

end Spared

theorem fault_over (s : State) (f : FaultInfo) {rg : Nat} (few : rg < 5) : (s.fault f).on (errOverrun rg) = s.on (errOverrun rg) := by
  refine (fault_frame s f).on_steady (f := errOverrun rg) ?_ (over_steady few)
  show ¬ (0x0FFF00 + 0x100000 * rg = Reg.SAFE_FN_STAT ∨ 0x0FFF00 + 0x100000 * rg = Reg.SAFE_SM_STAT)
  unfold Reg.SAFE_FN_STAT Reg.SAFE_SM_STAT
  omega

/-- A fault that goes to chip level is recorded, and its reaction keeps the record. -/
theorem toChip_recorded {s : State} (q : Still s) {f : FaultInfo} (other : f.code ≠ 0x30A) :
    (∃ r ∈ (s.toChip f).saf.recs, r.code = f.code) ∧ ∀ rg, rg < 5 → (s.toChip f).on (errOverrun rg) = s.on (errOverrun rg) := by
  have calm : Still (s.fault { f with level := 4 }) := fault_still q other
  have spared : Spared (s.fault { f with level := 4 }) (s.toChip f) := ((Spared.refl calm).escalated f.region).react _ _ _ _ _
  obtain ⟨r, mem, code⟩ := fault_recorded s { f with level := 4 }
  obtain ⟨p, mem', code'⟩ := spared.codes r mem
  exact ⟨⟨p, mem', code'.trans code⟩, fun rg few => (spared.late rg few).trans (fault_over s _ few)⟩

end Sys2Proof.Machine
end

section
/-!
# Papol runs again: what waited is posted to the end (spec/04_command_protocol.md, R180, R799)
-/

namespace Sys2Proof.Machine

-- One theorem after the other: in one text, theorems that wait for the kernel would each hold a thread.
set_option Elab.async false

theorem trimEvents_reports : ∀ (n : Nat) (s : State), (s.trimEvents n).pap.reports = s.pap.reports
  | 0, _ => rfl
  | n + 1, s => by
    have key : ∀ u : State, u.pap.reports = s.pap.reports → (u.trimEvents n).pap.reports = s.pap.reports := fun u same =>
      (trimEvents_reports n u).trans same
    unfold State.trimEvents
    split
    · rfl
    · split
      · rfl
      · dsimp only
        split
        · unfold State.keepRepost
          split <;> exact key _ rfl
        · split
          · exact key _ rfl
          · exact key _ rfl

theorem flushEvents_reports : ∀ (l acc : List EventEntry) (s : State), (State.flushEvents acc l s).pap.reports = s.pap.reports
  | [], _, _ => rfl
  | e :: rest, acc, s => by
    unfold State.flushEvents
    split
    · exact flushEvents_reports rest _ s
    · split
      · exact flushEvents_reports rest _ _
      · rfl

/-- What waits to be posted. -/
def State.backlog (s : State) : List Report × List PendEntry := (s.pap.reports, s.pap.slots)

theorem issueAt_backlog (s : State) (code : Nat) (ws : List Word) (r : Bool) (time : Word64) : (s.issueAt code ws r time).backlog = s.backlog :=
  Prod.ext ((flushEvents_reports _ [] _).trans (trimEvents_reports 4 _)) (issueAt_papol s code ws r time).2.2.1

theorem raiseR_backlog {s : State} (runs : s.pap.run = .running) (code : Nat) (ws : List Word) (r : Bool) : (s.raiseR code ws r).backlog = s.backlog := by
  unfold State.raiseR
  rw [if_pos runs, issueAt_backlog]
  unfold State.backlog
  rw [sysRun_pap]

theorem raiseClamps_backlog (op : Nat) : ∀ (cl : List Clamp) (s : State), s.pap.run = .running → (s.raiseClamps op cl).backlog = s.backlog
  | [], _, _ => rfl
  | _ :: cl, s, runs => (raiseClamps_backlog op cl _ ((seat_fields (raiseR_seat s _ _ false)).1.trans runs)).trans (raiseR_backlog runs _ _ false)

theorem closeSession_backlog {s : State} (runs : s.pap.run = .running) (cause : Nat) : (s.closeSession cause).backlog = s.backlog := by
  have closed : (({ s with sec := { s.sec with key := none } }.clr F.CTL_SEC_STAT_SESS).pap) = s.pap := State.wr_pap _ _ _
  unfold State.closeSession
  split
  · refine (raiseR_backlog (by rw [closed]; exact runs) _ _ false).trans ?_
    unfold State.backlog
    rw [closed]
  · rfl

theorem putKey_backlog {s : State} (runs : s.pap.run = .running) (key : Option (List Word × Nat)) : (s.putKey key).backlog = s.backlog := by
  cases key with
  | none => rfl
  | some k =>
    have opened : (s.putKey (some k)).pap = (s.closeSession 4).pap :=
      (State.wr_pap _ _ _).trans ((State.wr_pap _ _ _).trans (State.wr_pap _ _ _))
    have same := closeSession_backlog runs 4
    unfold State.backlog at same ⊢
    rw [opened]
    exact same

theorem postDone_backlog {s : State} (runs : s.pap.run = .running) (e : PendEntry) (st d : Nat) (ws : List Word) (cl : List Clamp) (time : Word64) :
    (s.postDone e st d ws cl time).backlog = (s.pap.reports, s.pap.slots.filter fun x => x.slot ≠ e.slot) := by
  have counted : ∀ z : State, (z.countCfg e.cfg st).backlog = z.backlog ∧ (z.countCfg e.cfg st).pap.run = z.pap.run := fun z => by
    unfold State.countCfg
    split <;> exact ⟨rfl, rfl⟩
  unfold State.postDone
  dsimp only
  rw [raiseClamps_backlog e.opcode cl _ ?_, issueAt_backlog, (counted _).1]
  · rfl
  · rw [(seat_fields (issueAt_seat _ _ _ _ _)).1, (counted _).2]
    exact runs

/-! ## The drain -/

theorem postReport_backlog (s : State) (r : Report) : (s.postReport r).backlog = (s.pap.reports.drop 1, s.pap.slots) := issueAt_backlog _ _ _ _ _

theorem postRec_backlog {s : State} (runs : s.pap.run = .running) (e : PendEntry) (d : DoneRec) :
    (s.postRec e d).backlog = (s.pap.reports, s.pap.slots.filter fun x => x.slot ≠ e.slot) := by
  have key := putKey_backlog runs d.key
  have reports := congrArg Prod.fst key
  have slots := congrArg Prod.snd key
  have running : (s.putKey d.key).pap.run = .running := (seat_fields ((Posts.refl s).putKey d.key).seat).1.trans runs
  unfold State.postRec
  rw [postDone_backlog running]
  exact Prod.ext reports (congrArg (List.filter _) slots)

theorem foldl_picks {α β : Type} {f : Option (α × β) → α → Option (α × β)} (pick : ∀ m a, f m a = m ∨ ∃ b, f m a = some (a, b)) {x : α} {y : β} :
    ∀ (l : List α) (m : Option (α × β)), l.foldl f m = some (x, y) → x ∈ l ∨ m = some (x, y)
  | [], _, eq => .inr eq
  | a :: l, m, eq => by
    rcases foldl_picks pick l _ eq with mem | now
    · exact .inl (List.mem_cons_of_mem a mem)
    · rcases pick m a with same | ⟨b, taken⟩
      · exact .inr (same.symm.trans now)
      · have here : a = x := (Prod.ext_iff.1 (Option.some.inj (taken.symm.trans now))).1
        exact .inl (by rw [← here]; exact List.mem_cons_self)

theorem firstDone_mem {s : State} {e : PendEntry} {d : DoneRec} (h : s.firstDone? = some (e, d)) : e ∈ s.pap.slots := by
  unfold State.firstDone? at h
  refine (foldl_picks (fun m a => ?_) s.pap.slots none h).resolve_right (by simp)
  cases a.done with
  | none => exact .inl rfl
  | some d =>
    cases m with
    | none => exact .inr ⟨d, rfl⟩
    | some q =>
      by_cases sooner : d.order < q.2.order
      · exact .inr ⟨d, if_pos sooner⟩
      · exact .inl (if_neg sooner)

theorem dropped_length {s : State} {e : PendEntry} (mem : e ∈ s.pap.slots) :
    (s.pap.slots.filter fun x => x.slot ≠ e.slot).length < s.pap.slots.length :=
  List.length_filter_lt_length_iff_exists.2 ⟨e, mem, by simp⟩

/-- With fuel for all that waits a drain leaves no report. -/
theorem drain_empties : ∀ (n : Nat) (s : State), s.pap.run = .running → s.pap.reports.length + s.pap.slots.length ≤ n →
    (State.drain n s).pap.reports = []
  | 0, s, _, le => List.eq_nil_of_length_eq_zero (by show s.pap.reports.length = 0; omega)
  | n + 1, s, runs, le => by
    rcases drain_succ n s with ⟨r, eq, head⟩ | ⟨e, d, eq, first⟩ | ⟨eq, head, -⟩
    · have posted := postReport_backlog s r
      have reports : (s.postReport r).pap.reports = s.pap.reports.drop 1 := congrArg Prod.fst posted
      have slots : (s.postReport r).pap.slots = s.pap.slots := congrArg Prod.snd posted
      have some' : 0 < s.pap.reports.length := List.length_pos_of_ne_nil fun none => by
        rw [none] at head
        exact absurd head (by simp)
      rw [eq]
      refine drain_empties n _ ((seat_fields (postReport_posts (.refl s) r).seat).1.trans runs) ?_
      rw [reports, slots, List.length_drop]
      omega
    · have posted := postRec_backlog runs e d
      have reports : (s.postRec e d).pap.reports = s.pap.reports := congrArg Prod.fst posted
      have slots : (s.postRec e d).pap.slots = s.pap.slots.filter fun x => x.slot ≠ e.slot := congrArg Prod.snd posted
      have fewer := dropped_length (firstDone_mem first)
      rw [eq]
      refine drain_empties n _ ((seat_fields ((Posts.refl s).postRec e d).seat).1.trans runs) ?_
      rw [reports, slots]
      omega
    · rw [eq]
      exact List.head?_eq_none_iff.1 head

/-- Papol as it resumes, before what waited is posted. -/
def State.resumed (s : State) : State :=
  if s.pap.dropped = 0 then { s with pap := { s.pap with run := .running, dropped := 0 } }
  else ({ s with pap := { s.pap with run := .running, dropped := 0 } } : State).drawn.issueAt evOverflow
    [({ s with pap := { s.pap with run := .running, dropped := 0 } } : State).free, w32 (min 0xFFFF s.pap.dropped)] false (BitVec.ofNat 64 s.now)

theorem papolRuns_eq (s : State) : s.papolRuns = State.drain (s.pap.reports.length + s.pap.slots.length) s.resumed := rfl

theorem resumed_backlog (s : State) : s.resumed.backlog = s.backlog := by
  unfold State.resumed
  split
  · rfl
  · exact issueAt_backlog _ _ _ _ _

theorem resumed_seat (s : State) : s.resumed.pap.seat = { s.pap with run := .running }.seat := by
  unfold State.resumed
  split
  · rfl
  · exact issueAt_seat _ _ _ _ _

theorem resumed_frame (s : State) : Frame { draw := true } (fun _ => False) s s.resumed := by
  have running := (Frame.refl (m := { draw := true }) (R := fun _ => False) id s).pap { s.pap with run := .running, dropped := 0 }
  exact .ite running (running.drawn rfl).issueAt

/-- Papol runs, and nothing waits to be posted. -/
theorem papolRuns_empties (s : State) : s.papolRuns.pap.run = .running ∧ s.papolRuns.pap.reports = [] := by
  have runs : s.resumed.pap.run = .running := (seat_fields (resumed_seat s)).1
  have same := resumed_backlog s
  have reports : s.resumed.pap.reports = s.pap.reports := congrArg Prod.fst same
  have slots : s.resumed.pap.slots = s.pap.slots := congrArg Prod.snd same
  rw [papolRuns_eq]
  exact ⟨(seat_fields (drain_posts _ _).seat).1.trans runs, drain_empties _ _ runs (by rw [reports, slots])⟩

/-- What Papol leaves as it runs again. -/
theorem papolRuns_frame (s : State) : Frame { draw := true, sec := true } (· = Reg.CTL_SEC_STAT) s s.papolRuns := by
  rw [papolRuns_eq]
  have posted := (drain_posts (s.pap.reports.length + s.pap.slots.length) s.resumed).frame
  have away : ¬ Reg.PWR_STATE = Reg.CTL_SEC_STAT := by decide
  exact ((resumed_frame s).widen.mono (fun _ no => no.elim) away).trans posted.widen

end Sys2Proof.Machine
end

section
/-!
# The supervisor, the monitor and missed deadlines (spec/15_safety.md, R677 to R681; spec/01_architecture.md, R24 to R26)
-/

namespace Sys2Proof.Machine

-- One theorem after the other: in one text, theorems that wait for the kernel would each hold a thread.
set_option Elab.async false

/-! ## The work of a region -/

theorem mem_insertWork {w v : Work} : ∀ {l : List Work}, v = w ∨ v ∈ l → v ∈ insertWork w l
  | [], h => by
    rcases h with rfl | no
    · exact List.mem_cons_self
    · exact absurd no List.not_mem_nil
  | u :: l, h => by
    unfold insertWork
    split
    · rcases h with rfl | old
      · exact List.mem_cons_self
      · exact List.mem_cons_of_mem w old
    · rcases h with rfl | old
      · exact List.mem_cons_of_mem u (mem_insertWork (.inl rfl))
      · rcases List.mem_cons.1 old with rfl | rest
        · exact List.mem_cons_self
        · exact List.mem_cons_of_mem u (mem_insertWork (.inr rest))

theorem level_saf (s : State) (region lvl : Nat) : (s.level region lvl).saf = s.saf := by
  unfold State.level
  split
  · rfl
  · exact State.wr_saf s _ _

theorem level_local (s : State) (region lvl : Nat) : Local {} (· = (errLevel region).addr) s (s.level region lvl) := by
  unfold State.level
  exact .ite (.refl s) ((Local.refl s).wr rfl)

theorem level_on (s : State) (region lvl rg : Nat) : (s.level region lvl).on (errOverrun rg) = s.on (errOverrun rg) := by
  unfold State.level
  split
  · rfl
  · exact State.on_wr_off s lvl (f := errLevel region) (g := errOverrun rg) (apart_bits (over_fits region) (.inr (show 0 + 3 ≤ 7 by decide)))

/-- The monitor's part of a fault that is taken up. -/
def State.workTaken (s : State) (w : Work) : State :=
  { s with saf := { s.saf with work := insertWork w (s.saf.work.filter fun v => !v.isFor w.region w.code w.sub w.unit) } }

theorem takesUp_out {s : State} (out : s.chipSafe = false) (w : Work) : s.takesUp w = (s.workTaken w).level w.region ((s.workTaken w).workLevel w.region) :=
  if_neg (by rw [out]; exact Bool.false_ne_true)

theorem takesUp_safe {s : State} (safe : s.chipSafe = true) (w : Work) : s.takesUp w = s := if_pos safe

/-- What a fault that is taken up changes. -/
structure TakenUp (w : Work) (s t : State) : Prop where
  local' : Local { saf := true } (· = (errLevel w.region).addr) s t
  saf    : { t.saf with work := s.saf.work } = s.saf
  late   : ∀ rg, t.on (errOverrun rg) = s.on (errOverrun rg)
  work   : s.chipSafe = false → w ∈ t.saf.work

theorem takesUp_takes (s : State) (w : Work) : TakenUp w s (s.takesUp w) := by
  by_cases safe : s.chipSafe = true
  · rw [takesUp_safe safe]
    exact ⟨.refl s, rfl, fun _ => rfl, fun out => absurd (safe.symm.trans out) (by decide)⟩
  · have out : s.chipSafe = false := Bool.eq_false_of_not_eq_true safe
    have taken : Local { saf := true } (· = (errLevel w.region).addr) s (s.workTaken w) := (Local.refl s).upd rfl
    have level := level_local (s.workTaken w) w.region ((s.workTaken w).workLevel w.region)
    have saf := level_saf (s.workTaken w) w.region ((s.workTaken w).workLevel w.region)
    rw [takesUp_out out]
    refine ⟨taken.trans (level.wider), by rw [saf]; rfl, fun rg => level_on _ _ _ rg, fun _ => ?_⟩
    rw [saf]
    exact mem_insertWork (.inl rfl)

theorem TakenUp.recs {w : Work} {s t : State} (h : TakenUp w s t) : t.saf.recs = s.saf.recs := by
  have e := congrArg Saf.recs h.saf
  exact e

theorem TakenUp.smAt {w : Work} {s t : State} (h : TakenUp w s t) : t.saf.smAt = s.saf.smAt := by
  have e := congrArg Saf.smAt h.saf
  exact e

/-- What the end of a fault changes. -/
structure EndedWork (region code sub unit : Nat) (s t : State) : Prop where
  local' : Local { saf := true } (· = (errLevel region).addr) s t
  saf    : { t.saf with work := s.saf.work } = s.saf
  late   : ∀ rg, t.on (errOverrun rg) = s.on (errOverrun rg)
  work   : ∀ w ∈ t.saf.work, w.isFor region code sub unit = false

/-- The monitor's part of a fault that has ended. -/
def State.workDone (s : State) (region code sub unit : Nat) : State :=
  { s with saf := { s.saf with work := s.saf.work.filter (fun w => !w.isFor region code sub unit) } }

theorem ends_eq (s : State) (region code sub unit : Nat) : s.ends region code sub unit =
    (s.workDone region code sub unit).level region ((s.workDone region code sub unit).workLevel region) := rfl

theorem ends_ended (s : State) (region code sub unit : Nat) : EndedWork region code sub unit s (s.ends region code sub unit) := by
  have done : Local { saf := true } (· = (errLevel region).addr) s (s.workDone region code sub unit) := (Local.refl s).upd rfl
  have level := level_local (s.workDone region code sub unit) region ((s.workDone region code sub unit).workLevel region)
  have saf := level_saf (s.workDone region code sub unit) region ((s.workDone region code sub unit).workLevel region)
  rw [ends_eq]
  refine ⟨done.trans level.wider, by rw [saf]; rfl, fun rg => level_on _ _ _ rg, fun w mem => ?_⟩
  rw [saf] at mem
  have out := (List.mem_filter.1 mem).2
  exact Bool.not_eq_eq_eq_not.1 out

theorem EndedWork.recs {region code sub unit : Nat} {s t : State} (h : EndedWork region code sub unit s t) : t.saf.recs = s.saf.recs := by
  have e := congrArg Saf.recs h.saf
  exact e

theorem EndedWork.latch {region code sub unit : Nat} {s t : State} (h : EndedWork region code sub unit s t) : t.saf.latch = s.saf.latch := by
  have e := congrArg Saf.latch h.saf
  exact e

theorem repCount_saf (s : State) (region : Nat) : (s.repCount region).saf = s.saf := by
  unfold State.repCount
  split
  · rfl
  · exact State.wr_saf s _ _

/-! ## The supervisor -/

theorem Local.recs {m : Parts} {R : Nat → Prop} {s t : State} (h : Local m R s t) (hs : m.saf = true) (l : List FaultRec) (n : Nat) :
    Local m R s { t with saf := { t.saf with recs := l, next := n } } := h.upd (by simp [State.but, hs])

theorem recRoom_local (s : State) : Local { saf := true, draw := true } recReg s s.recRoom := by
  unfold State.recRoom
  exact .ite (.refl s) (.ite ((Local.refl s).recs rfl _ _) (Local.set1 (f := F.SAFE_SM_STAT_RECLOST) ((Local.refl s).recs rfl _ _) (.inr rfl)))

/-- A fault is written into the records, and a new record is reported. -/
theorem fault_reports (s : State) (f : FaultInfo) : ∃ u, Local { saf := true, draw := true } recReg s u ∧
    (s.fault f = u ∨ ∃ code ws r, s.fault f = u.raiseR code ws r) := by
  unfold State.fault
  split
  · exact ⟨_, Local.showFn ((Local.refl s).recs rfl _ _) (.inl rfl) (.inr rfl), .inl rfl⟩
  · have drawn : Local { saf := true, draw := true } recReg s s.drawn := (Local.refl s).upd rfl
    exact ⟨_, Local.showFn (Local.wr (f := F.SAFE_SM_STAT_LASTREC) ((drawn.trans (recRoom_local s.drawn)).recs rfl _ _) (.inr rfl)) (.inl rfl) (.inr rfl),
      .inr ⟨_, _, _, rfl⟩⟩

theorem raiseR_halted {s : State} (halted : s.pap.run ≠ .running) (code : Nat) (ws : List Word) (r : Bool) : (s.raiseR code ws r).mem = s.mem := by
  unfold State.raiseR
  rw [if_neg halted]
  split <;> rfl

theorem fault_halted {s : State} (halted : s.pap.run ≠ .running) (f : FaultInfo) : (s.fault f).mem = s.mem := by
  obtain ⟨u, kept, rfl' | ⟨code, ws, r, eq⟩⟩ := fault_reports s f
  · rw [rfl']
    exact kept.mem
  · rw [eq]
    exact (raiseR_halted (by rw [kept.pap]; exact halted) code ws r).trans kept.mem

/-- The supervisor as its lock stop is found. -/
def State.supHalted (s : State) : State := { s with pap := { s.pap with run := .halted } }

/-- The fault of a lock stop of the supervisor. -/
def supFault (code : Nat) : FaultInfo := ⟨code, 0, rgCtl, 3, 0, 0, 0, false, false⟩

theorem suplock_halts {s : State} (ecc : Bool) (runs : s.pap.run = .running) : exec (.suplock ecc) s = .next
    ((s.supHalted.fault (supFault (if ecc then 2 else 1))).begins rgCtl (if ecc then 2 else 1) 0 0 3) := by
  show execSuplock ecc s = _
  unfold execSuplock
  exact if_neg (not_not.2 runs)

theorem supHalted_run (s : State) : s.supHalted.pap.run = .halted := rfl

theorem supHalted_mem (s : State) : s.supHalted.mem = s.mem := rfl

theorem supHalted_rd (s : State) (f : Field) : s.supHalted.rd f = s.rd f := rfl

/-- What a lock stop of the supervisor leaves. -/
theorem suplock_shows (s : State) (code : Nat) :
    let t := (s.supHalted.fault (supFault code)).begins rgCtl code 0 0 3
    t.pap.run = .halted ∧ (∃ r ∈ t.saf.recs, r.code = code) ∧
      (s.chipSafe = false → ∃ w ∈ t.saf.work, w.isFor rgCtl code 0 0 = true ∧ w.met = false) ∧ (∀ r, t.papolReady r = false) ∧ t.mem = s.mem := by
  intro t
  have halted : s.supHalted.pap.run ≠ .running := by rw [supHalted_run]; decide
  have recorded := fault_recorded s.supHalted (supFault code)
  have seat := (seat_fields ((Reacts.refl s.supHalted).fault (supFault code)).seat).1.trans (supHalted_run s)
  have css := (fault_css s.supHalted (supFault code)).trans (supHalted_rd s F.SAFE_SM_STAT_CSS)
  have begun := takesUp_takes (s.supHalted.fault (supFault code)) ⟨rgCtl, code, 0, 0, 3, (s.supHalted.fault (supFault code)).now, false, false, 0⟩
  have run : t.pap.run = .halted := (congrArg Papol.run begun.local'.pap).trans seat
  refine ⟨run, ?_, fun out => ⟨_, begun.work ?_, ?_, rfl⟩, fun r => ?_, begun.local'.mem.trans ((fault_halted halted _).trans (supHalted_mem s))⟩
  · obtain ⟨r, mem, code'⟩ := recorded
    exact ⟨r, begun.recs.symm ▸ mem, code'⟩
  · unfold State.chipSafe at out ⊢
    rw [css]
    exact out
  · exact decide_eq_true ⟨rfl, rfl, rfl, rfl⟩
  · unfold State.papolReady
    rw [run]
    rfl

/-- The CTL region's handler has restarted Papol, which runs. -/
theorem supervisorRestart_restarts {s : State} (halted : s.pap.run = .halted) (awake : stListen ≤ s.pstate)
    (works : (s.saf.work.any fun w => w.region = rgCtl && w.code ≤ 2) = true) :
    exec .supervisorRestart s = .next (((s.repCount rgCtl).ends rgCtl 1 0 0).ends rgCtl 2 0 0).papolRuns := by
  show execSupervisorRestart s = _
  unfold execSupervisorRestart
  refine if_neg ?_
  rintro (no | no | no)
  · exact no halted
  · exact absurd awake (Nat.not_le.2 no)
  · exact no works

theorem supervisorRestart_waits {s : State} (idle : (s.saf.work.any fun w => w.region = rgCtl && w.code ≤ 2) = false) :
    exec .supervisorRestart s = .next s := by
  show execSupervisorRestart s = _
  unfold execSupervisorRestart
  exact if_pos (.inr (.inr (by rw [idle]; exact Bool.false_ne_true)))

theorem restarted_recs (s : State) : (((s.repCount rgCtl).ends rgCtl 1 0 0).ends rgCtl 2 0 0).papolRuns.saf.recs = s.saf.recs := by
  rw [(papolRuns_frame _).saf, (ends_ended _ rgCtl 2 0 0).recs, (ends_ended _ rgCtl 1 0 0).recs, repCount_saf]

end Sys2Proof.Machine
end

section
/-!
# Missed deadlines and the monitor's own faults (spec/15_safety.md, R677 to R681; spec/01_architecture.md, R25, R26)
-/

namespace Sys2Proof.Machine

-- One theorem after the other: in one text, theorems that wait for the kernel would each hold a thread.
set_option Elab.async false

/-! ## A missed deadline -/

theorem stopAction_local (s : State) (w : Work) : Local { banks := true, graph := true, groups := true, madc := true } (fun _ => False) s (s.stopAction w) := by
  have start := Local.refl (m := { banks := true, graph := true, groups := true, madc := true }) (R := fun _ => False) s
  unfold State.stopAction
  exact .ite start (.ite (start.upd rfl) (.ite (start.upd rfl) (.ite (start.upd rfl) (.ite (start.upd rfl) start))))

theorem stopAction_seq {s : State} {w : Work} {g : Nat} (few : g < 3) (none' : (s.grp g).seq = none) : ((s.stopAction w).grp g).seq = none := by
  unfold State.stopAction
  split_ifs
  · exact none'
  · exact none'
  · exact none'
  · by_cases here : g = w.unit / 4
    · rw [here] at few ⊢
      exact congrArg GroupX.seq (vat_vmod_same s.groups _ few)
    · exact (congrArg GroupX.seq (vat_vmod_ne s.groups _ here)).trans none'
  · exact none'
  · exact none'

theorem stopAction_still {s : State} (q : Still s) (w : Work) : Still (s.stopAction w) := by
  have kept := stopAction_local s w
  have saf := kept.part State.saf
  refine ⟨⟨?_, ?_, by rw [saf]; exact q.recs, fun g few => stopAction_seq few (q.seqs g few)⟩, fun k few => ?_, ?_⟩
  · rw [kept.part State.diag]
    exact q.dc
  · rw [kept.part State.diag]
    exact q.ac
  · unfold State.slot
    rw [kept.part State.crk]
    exact q.crk k few
  · rw [kept.part State.out]
    exact q.stops

/-- A late region, the action of its late handler stopped. -/
def State.lateStopped (s : State) (region : Nat) (w : Work) : State := (s.set1 (errOverrun region)).stopAction w

theorem lateStopped_on (s : State) (region : Nat) (w : Work) : (s.lateStopped region w).on (errOverrun region) = true :=
  ((stopAction_local (s.set1 (errOverrun region)) w).on (f := errOverrun region) id).trans
    (State.on_set1_same s (f := errOverrun region) (show 7 + 1 ≤ 32 ∧ 0 < 1 by decide))

theorem lateStopped_saf (s : State) (region : Nat) (w : Work) : (s.lateStopped region w).saf = s.saf :=
  ((stopAction_local (s.set1 (errOverrun region)) w).part State.saf).trans (State.wr_saf s _ 1)

theorem lateStopped_chipSafe (s : State) {region : Nat} (w : Work) : (s.lateStopped region w).chipSafe = s.chipSafe := by
  have css : (s.lateStopped region w).rd F.SAFE_SM_STAT_CSS = s.rd F.SAFE_SM_STAT_CSS :=
    ((stopAction_local (s.set1 (errOverrun region)) w).rd (f := F.SAFE_SM_STAT_CSS) id).trans
      (State.rd_set1_off s (f := errOverrun region) (apart_addr (show 0x400000 ≠ 0x0FFF00 + 0x100000 * region by omega)))
  unfold State.chipSafe
  rw [css]

theorem lateStopped_still {s : State} (q : Still s) (region : Nat) (w : Work) : Still (s.lateStopped region w) := stopAction_still (set1_still q _) w

/-- The fault of a missed deadline. -/
def lateFault (code : Nat) : FaultInfo := ⟨0x702, 0, rgSafe, 4, 0, 0, code, false, false⟩

section
variable {s : State} {rg : Fin 5} {w : Work} (found : (s.saf.work.find? fun w => w.region = rg.val && !w.met) = some w) (out : s.chipSafe = false)
include found out

theorem deadlineExpire_rises (below : w.level < 3) :
    exec (.deadlineExpire rg) s = .next ((s.lateStopped rg w).takesUp { w with level := w.level + 1 }) := by
  show execDeadlineExpire rg s = _
  unfold execDeadlineExpire
  rw [found]
  exact (if_neg (by rw [out]; exact Bool.false_ne_true)).trans (if_pos below)

theorem deadlineExpire_escalates (top : 3 ≤ w.level) : exec (.deadlineExpire rg) s = .next
    ((((s.lateStopped rg w).ends rg w.code w.sub w.unit).escalated rg).toChip (lateFault w.code)) := by
  show execDeadlineExpire rg s = _
  unfold execDeadlineExpire
  rw [found]
  exact (if_neg (by rw [out]; exact Bool.false_ne_true)).trans (if_neg (Nat.not_lt.2 top))

end

theorem deadlineExpire_waits {s : State} {rg : Fin 5} (none' : (s.saf.work.find? fun w => w.region = rg.val && !w.met) = none ∨ s.chipSafe = true) :
    exec (.deadlineExpire rg) s = .next s := by
  show execDeadlineExpire rg s = _
  unfold execDeadlineExpire
  cases found : s.saf.work.find? fun w => w.region = rg.val && !w.met with
  | none => rfl
  | some w => exact if_pos (none'.resolve_left (by rw [found]; simp))

theorem rises_shows {s : State} {rg : Nat} {w : Work} (out : s.chipSafe = false) :
    ((s.lateStopped rg w).takesUp { w with level := w.level + 1 }).on (errOverrun rg) = true ∧
      { w with level := w.level + 1 } ∈ ((s.lateStopped rg w).takesUp { w with level := w.level + 1 }).saf.work ∧
      ((s.lateStopped rg w).takesUp { w with level := w.level + 1 }).saf.recs = s.saf.recs := by
  have taken := takesUp_takes (s.lateStopped rg w) { w with level := w.level + 1 }
  exact ⟨(taken.late rg).trans (lateStopped_on s rg w), taken.work ((lateStopped_chipSafe s w).trans out),
    taken.recs.trans (congrArg Saf.recs (lateStopped_saf s rg w))⟩

theorem EndedWork.still {region code sub unit : Nat} {s t : State} (h : EndedWork region code sub unit s t) (q : Still s) : Still t :=
  q.of (h.local'.part State.diag) (h.local'.part State.groups) (h.local'.part State.crk) (h.local'.part State.out) (by rw [h.recs]; exact q.recs)

theorem escalates_shows {s : State} {rg : Nat} {w : Work} (few : rg < 5) (q : Still s) :
    let t := (((s.lateStopped rg w).ends rg w.code w.sub w.unit).escalated rg).toChip (lateFault w.code)
    t.on (errOverrun rg) = true ∧ (∃ r ∈ t.saf.recs, r.code = 0x702) ∧ ∀ v ∈ t.saf.work, v.isFor rg w.code w.sub w.unit = false := by
  intro t
  have ended := ends_ended (s.lateStopped rg w) rg w.code w.sub w.unit
  have spared := (Spared.refl (ended.still (lateStopped_still q rg w))).escalated rg
  obtain ⟨recorded, late⟩ := toChip_recorded spared.still (f := lateFault w.code) (show 0x702 ≠ 0x30A by decide)
  refine ⟨?_, recorded, fun v mem => ended.work v ?_⟩
  · rw [late rg few, spared.late rg few, ended.late rg, lateStopped_on]
  · have kept := (toChip_contained (((s.lateStopped rg w).ends rg w.code w.sub w.unit).escalated rg) (lateFault w.code)).work v mem
    rwa [escalated_saf] at kept

/-! ## The monitor's cores -/

/-- The monitor as its cores disagree. -/
def State.smStopped (s : State) : State := ((s.modSaf fun q => { q with smAt := some s.now }).clr F.SAFE_SM_STAT_SMOK).showFn

/-- The fault of the monitor's cores. -/
def smFault : FaultInfo := ⟨0x703, 0, rgSafe, 3, 0, 0, 0, false, false⟩

theorem smlock_first {s : State} (ok : s.on F.SAFE_SM_STAT_SMOK = true) (never : s.saf.smAt = none) :
    exec .smlock s = .next ((s.smStopped.fault smFault).begins rgSafe 0x703 0 0 3) := by
  have eq : s.smLock = (s.smStopped.fault smFault).begins rgSafe 0x703 0 0 3 := by
    unfold State.smLock
    rw [never]
    exact if_neg Bool.false_ne_true
  exact congrArg Host.Outcome.next ((if_pos ok).trans eq)

theorem smlock_again {s : State} (ok : s.on F.SAFE_SM_STAT_SMOK = true) {before : Nat} (at' : s.saf.smAt = some before)
    (soon : s.now - before < 24576000) : exec .smlock s = .next (s.smStopped.toChipAs .o smFault) := by
  have eq : s.smLock = s.smStopped.toChipAs .o smFault := by
    unfold State.smLock
    rw [at']
    exact if_pos (decide_eq_true soon)
  exact congrArg Host.Outcome.next ((if_pos ok).trans eq)

theorem smStopped_smok (s : State) : s.smStopped.on F.SAFE_SM_STAT_SMOK = false :=
  ((Reacts.refl _).showFn.smok).trans (State.on_clr_same _ (f := F.SAFE_SM_STAT_SMOK) (by decide))

theorem showFn_saf (s : State) : s.showFn.saf = s.saf :=
  (State.wr_saf _ _ _).trans ((State.wr_saf _ _ _).trans (State.wr_saf _ _ _))

theorem modSaf_rd (s : State) (f : Saf → Saf) (x : Field) : (s.modSaf f).rd x = s.rd x := rfl

theorem modSaf_saf (s : State) (f : Saf → Saf) : (s.modSaf f).saf = f s.saf := rfl

theorem smStopped_smAt (s : State) : s.smStopped.saf.smAt = some s.now :=
  congrArg Saf.smAt ((showFn_saf _).trans ((State.wr_saf _ _ 0).trans (modSaf_saf s _)))

theorem smStopped_css (s : State) : s.smStopped.rd F.SAFE_SM_STAT_CSS = s.rd F.SAFE_SM_STAT_CSS :=
  (showFn_css _).trans ((State.rd_clr_off _ (f := F.SAFE_SM_STAT_SMOK) (by decide)).trans (modSaf_rd s _ _))

theorem fnDemand_stopped {s : State} (stopped : s.on F.SAFE_SM_STAT_SMOK = false) : s.fnDemand = true := by
  unfold State.fnDemand
  rw [stopped]
  simp

theorem fault_shown (s : State) (f : FaultInfo) : ∃ v, Reacts s v ∧ (s.fault f = v.showFn ∨ ∃ code ws r, s.fault f = v.showFn.raiseR code ws r) := by
  unfold State.fault
  split
  · exact ⟨_, (Reacts.refl s).recs _ _, .inl rfl⟩
  · exact ⟨_, ((Reacts.refl s).drawn.recRoom.recs _ _).stat (f := F.SAFE_SM_STAT_LASTREC) rfl (.inl (by decide)), .inr ⟨_, _, _, rfl⟩⟩

/-- A fault found while the monitor does not run leaves FAULT_N low. -/
theorem fault_drive {s : State} (stopped : s.on F.SAFE_SM_STAT_SMOK = false) (f : FaultInfo) : (s.fault f).on F.SAFE_FN_STAT_DRIVE = true := by
  obtain ⟨v, kept, eq⟩ := fault_shown s f
  have shown : v.showFn.on F.SAFE_FN_STAT_DRIVE = true := (showFn_drive v).trans (fnDemand_stopped (kept.smok.trans stopped))
  rcases eq with eq | ⟨code, ws, r, eq⟩
  · rw [eq]
    exact shown
  · rw [eq]
    exact ((Frame.refl (m := {}) (R := fun _ => False) id v.showFn).raiseR.on_steady (f := F.SAFE_FN_STAT_DRIVE) id (by decide)).trans shown

theorem smlock_shows (s : State) (out : s.chipSafe = false) :
    let t := (s.smStopped.fault smFault).begins rgSafe 0x703 0 0 3
    t.on F.SAFE_SM_STAT_SMOK = false ∧ t.on F.SAFE_FN_STAT_DRIVE = true ∧ t.saf.smAt = some s.now ∧ (∃ r ∈ t.saf.recs, r.code = 0x703) ∧
      t.chipSafe = false ∧ ∃ w ∈ t.saf.work, w.isFor rgSafe 0x703 0 0 = true := by
  intro t
  have faulted := (Reacts.refl s.smStopped).fault smFault
  have begun := takesUp_takes (s.smStopped.fault smFault) ⟨rgSafe, 0x703, 0, 0, 3, (s.smStopped.fault smFault).now, false, false, 0⟩
  have css := (fault_css s.smStopped smFault).trans (smStopped_css s)
  have out' : (s.smStopped.fault smFault).chipSafe = false := by
    unfold State.chipSafe at out ⊢
    rw [css]
    exact out
  have away : ∀ a, a < 0x4FFF00 → ¬ a = (errLevel rgSafe).addr := fun a lt e => absurd lt (by rw [e]; decide)
  refine ⟨(begun.local'.on (f := F.SAFE_SM_STAT_SMOK) (away _ (by decide))).trans (faulted.smok.trans (smStopped_smok s)),
    (begun.local'.on (f := F.SAFE_FN_STAT_DRIVE) (away _ (by decide))).trans (fault_drive (smStopped_smok s) smFault),
    begun.smAt.trans ((faulted.part Saf.smAt).trans (smStopped_smAt s)), ?_, ?_, ⟨_, begun.work out', ?_⟩⟩
  · obtain ⟨r, mem, code⟩ := fault_recorded s.smStopped smFault
    exact ⟨r, begun.recs.symm ▸ mem, code⟩
  · have same : t.rd F.SAFE_SM_STAT_CSS = _ := begun.local'.rd (f := F.SAFE_SM_STAT_CSS) (away _ (by decide))
    unfold State.chipSafe at out' ⊢
    rw [same]
    exact out'
  · exact decide_eq_true ⟨rfl, rfl, rfl, rfl⟩

theorem smAgain_shows (s : State) : (s.smStopped.toChipAs .o smFault).on F.SAFE_SM_STAT_SMOK = false ∧
    (s.smStopped.toChipAs .o smFault).rd F.SAFE_SM_STAT_CSS = 2 :=
  ⟨(toChipAs_contained s.smStopped .o smFault).smok.trans (smStopped_smok s), (react_o_holds _ _ _ _ _).1⟩

/-! ## The monitor's restart -/

/-- The monitor as it restarts, its fault at work no more. -/
def State.smRestarted (s : State) : State :=
  ((s.modSaf fun q => { q with latch := true }).set1 F.SAFE_SM_STAT_SMOK).repaired rgSafe 0x703 0 0

theorem smRestart_restarts {s : State} (stopped : s.on F.SAFE_SM_STAT_SMOK = false)
    (works : (s.saf.work.any fun w => w.region = rgSafe && w.code = 0x703) = true) : exec .safetyMonitorRestart s = .next s.smRestarted.showFn := by
  show execSafetyMonitorRestart s = _
  unfold execSafetyMonitorRestart
  refine if_neg ?_
  rintro (no | no)
  · exact absurd (stopped.symm.trans no) (by decide)
  · exact no works

theorem smRestart_waits {s : State} (idle : (s.saf.work.any fun w => w.region = rgSafe && w.code = 0x703) = false) :
    exec .safetyMonitorRestart s = .next s := by
  show execSafetyMonitorRestart s = _
  unfold execSafetyMonitorRestart
  exact if_pos (.inr (by rw [idle]; exact Bool.false_ne_true))

theorem repCount_local (s : State) (region : Nat) : Local {} (· = (errLevel region).addr) s (s.repCount region) := by
  unfold State.repCount
  exact .ite (.refl s) ((Local.refl s).sat (f := errRep region) rfl)

theorem smRestarted_shows (s : State) : s.smRestarted.on F.SAFE_SM_STAT_SMOK = true ∧ s.smRestarted.saf.latch = true ∧
    s.smRestarted.saf.recs = s.saf.recs := by
  have counted := repCount_local ((s.modSaf fun q => { q with latch := true }).set1 F.SAFE_SM_STAT_SMOK) rgSafe
  have ended := ends_ended (((s.modSaf fun q => { q with latch := true }).set1 F.SAFE_SM_STAT_SMOK).repCount rgSafe) rgSafe 0x703 0 0
  have saf := (repCount_saf ((s.modSaf fun q => { q with latch := true }).set1 F.SAFE_SM_STAT_SMOK) rgSafe).trans
    ((State.wr_saf _ _ 1).trans (modSaf_saf s _))
  have recs := congrArg Saf.recs saf
  have away : ¬ F.SAFE_SM_STAT_SMOK.addr = (errLevel rgSafe).addr := by decide
  exact ⟨(ended.local'.on away).trans ((counted.on away).trans (State.on_set1_same _ (f := F.SAFE_SM_STAT_SMOK) (by decide))),
    ended.latch.trans (congrArg Saf.latch saf), ended.recs.trans recs⟩

theorem showFn_fnDemand (s : State) : s.showFn.fnDemand = s.fnDemand := by
  have saf := showFn_saf s
  have css := showFn_css s
  have smok := (Reacts.refl s).showFn.smok
  have sec : s.showFn.sec = s.sec := (Local.refl (m := {}) (R := recReg) s).showFn (.inl rfl) (.inr rfl) |>.part State.sec
  have mask : s.showFn.rd F.SAFE_SM_CFG_FNMASK = s.rd F.SAFE_SM_CFG_FNMASK :=
    ((Local.refl (m := {}) (R := recReg) s).showFn (.inl rfl) (.inr rfl)).rd (f := F.SAFE_SM_CFG_FNMASK) (by unfold recReg; decide)
  unfold State.fnDemand State.fnMasked State.chipSafe
  rw [saf, css, smok, sec, mask]

/-! ## The watchdog and the ball -/

theorem toChip_o (s : State) (f : FaultInfo) (o : reactionOf f.code f.unit f.detail = .o) : (s.toChip f).rd F.SAFE_SM_STAT_CSS = 2 ∧
    (s.toChip f).saf.fixed = (((s.fault { f with level := 4 }).escalated f.region).saf.fixed || reactionFixed f.code f.unit) := by
  unfold State.toChip State.passUp
  rw [o]
  exact react_o_holds _ _ _ _ _

/-- The fault of the monitor's watchdog. -/
def dogFault : FaultInfo := ⟨0x704, 0, rgSafe, 4, 0, 0, 0, false, false⟩

theorem smwdog_shows (s : State) : (Still s → ∃ r ∈ (s.toChip dogFault).saf.recs, r.code = 0x704) ∧
    (s.toChip dogFault).rd F.SAFE_SM_STAT_CSS = 2 ∧ (s.toChip dogFault).saf.fixed = true := by
  have fixed : reactionFixed dogFault.code dogFault.unit = true := by decide
  obtain ⟨css, holds⟩ := toChip_o s dogFault (by decide)
  rw [fixed, Bool.or_true] at holds
  exact ⟨fun q => (toChip_recorded q (f := dogFault) (by decide)).1, css, holds⟩

theorem wr_wr_wr_rest (s : State) (f g h : Field) (a b c : Nat) : { ((s.wr f a).wr g b).wr h c with regs := s.regs } = s := rfl

theorem showFn_rest (s : State) : { s.showFn with regs := s.regs } = s := wr_wr_wr_rest s _ _ _ _ _ _

theorem modSaf_regs (s : State) (f : Saf → Saf) : (s.modSaf f).regs = s.regs := rfl

theorem modSaf_rest (s : State) (f : Saf → Saf) : { s.modSaf f with saf := s.saf } = s := rfl

/-- What FAULT_N's latch moves. -/
theorem latched_rest (s : State) (f : Saf → Saf) : { (s.modSaf f).showFn with regs := s.regs, saf := s.saf } = s :=
  (congrArg (fun x : State => { x with saf := s.saf }) (showFn_rest (s.modSaf f))).trans (modSaf_rest s f)

theorem fnLatchExpire_shows (s : State) : let t := (s.modSaf fun q => { q with latch := false }).showFn
    t.saf.latch = false ∧ t.on F.SAFE_FN_STAT_DRIVE = true ∧
      SameRegsBut (fun a => a = Reg.SAFE_FN_STAT ∨ a = Reg.SAFE_SM_STAT) s t ∧ { t with regs := s.regs, saf := s.saf } = s := by
  intro t
  have unlatched : Local { saf := true } recReg s (s.modSaf fun q => { q with latch := false }) := (Local.refl s).upd rfl
  have shown := unlatched.showFn (.inl rfl) (.inr rfl)
  have demand : (s.modSaf fun q => { q with latch := false }).fnDemand = true := by
    unfold State.fnDemand
    rw [modSaf_saf]
    simp
  exact ⟨congrArg Saf.latch ((showFn_saf _).trans (modSaf_saf s _)), (showFn_drive _).trans demand, fun a out => .inl (shown.regs a out), latched_rest s _⟩

/-- A field of FN_STAT other than DRIVE. -/
theorem showFn_ball (s : State) {f : Field} (place : f.addr = Reg.SAFE_FN_STAT) (low : f.lo + f.width ≤ 31) : s.showFn.rd f = s.rd f := by
  have stat : Reg.SAFE_FN_STAT ≠ Reg.SAFE_SM_STAT := by decide
  unfold State.showFn
  rw [State.rd_wr_off _ _ (f := F.SAFE_SM_STAT_ACTCNT) (apart_addr (by rw [place]; exact stat)),
    State.rd_wr_off _ _ (f := F.SAFE_SM_STAT_FN) (apart_addr (by rw [place]; exact stat)),
    State.rd_wr_off _ _ (f := F.SAFE_FN_STAT_DRIVE) (apart_bits (by decide) (.inl low))]

theorem ballReg_steady : steady Reg.SAFE_FN_STAT = true := by decide

theorem fault_ball (s : State) (g : FaultInfo) {f : Field} (place : f.addr = Reg.SAFE_FN_STAT) (low : f.lo + f.width ≤ 31) :
    (s.fault g).rd f = s.rd f := by
  have stat : Reg.SAFE_FN_STAT ≠ Reg.SAFE_SM_STAT := by decide
  have calm : steady f.addr = true := by rw [place]; exact ballReg_steady
  have room : ∀ z : State, z.recRoom.rd f = z.rd f := fun z => by
    unfold State.recRoom
    split_ifs
    · rfl
    · rfl
    · exact State.rd_set1_off _ (f := F.SAFE_SM_STAT_RECLOST) (apart_addr (by rw [place]; exact stat))
  unfold State.fault
  split
  · exact showFn_ball _ place low
  · refine ((Frame.refl (m := {}) (R := fun _ => False) id _).raiseR.rd_steady id calm).trans ((showFn_ball _ place low).trans ?_)
    exact (State.rd_wr_off _ _ (f := F.SAFE_SM_STAT_LASTREC) (apart_addr (by rw [place]; exact stat))).trans (room s.drawn)

/-- What the ball shows, read back by the running monitor. -/
def State.ballRead (s : State) (high : Bool) : State :=
  (s.wr F.SAFE_FN_STAT_LEVEL (b2n high)).modSaf fun q => { q with fnHigh := s.on F.SAFE_FN_STAT_DRIVE && high }

/-- The fault of a ball that does not follow its drive. -/
def pinFault : FaultInfo := ⟨0x705, 0, rgSafe, 4, 0, 0, 0, false, false⟩

/-- The ball found against its drive. -/
def State.ballJudged (s : State) (high : Bool) : State :=
  if s.on F.SAFE_FN_STAT_DRIVE ∧ high ∧ s.saf.fnHigh then ((s.ballRead high).set1 F.SAFE_FN_STAT_FNPIN).toChip pinFault
  else if s.on F.SAFE_FN_STAT_DRIVE = false ∧ high = false then (s.ballRead high).set1 F.SAFE_FN_STAT_FNEXT
  else s.ballRead high

theorem fnReadback_reads {s : State} (ok : s.on F.SAFE_SM_STAT_SMOK = true) (high : Bool) :
    exec (.fnReadback high) s = .next ((s.ballJudged high).modSaf fun q => { q with latch := true }).showFn := by
  show execFnReadback high s = _
  unfold execFnReadback
  exact if_neg (not_not.2 ok)

theorem pinFault_passes (s : State) : s.toChip pinFault = (s.fault pinFault).escalated rgSafe := rfl

theorem escalated_ball (s : State) {f : Field} (place : f.addr = Reg.SAFE_FN_STAT) : (s.escalated rgSafe).rd f = s.rd f := by
  have stat : Reg.SAFE_FN_STAT ≠ (errLevel rgSafe).addr := by decide
  unfold State.escalated
  split
  · rfl
  · exact (State.rd_wr_off _ _ (f := errChipEsc rgSafe) (apart_addr (by rw [place]; exact stat))).trans
      (State.rd_wr_off _ _ (f := errEsc rgSafe) (apart_addr (by rw [place]; exact stat)))

theorem modSaf_on (s : State) (f : Saf → Saf) (x : Field) : (s.modSaf f).on x = s.on x := rfl

theorem ballRead_level (s : State) (high : Bool) : (s.ballRead high).on F.SAFE_FN_STAT_LEVEL = high :=
  (modSaf_on _ _ _).trans (State.on_wr_b2n s high (f := F.SAFE_FN_STAT_LEVEL) (by decide) rfl)

theorem ballRead_recs (s : State) (high : Bool) : (s.ballRead high).saf.recs = s.saf.recs := by
  have read := congrArg Saf.recs (modSaf_saf (s.wr F.SAFE_FN_STAT_LEVEL (b2n high)) fun q => { q with fnHigh := s.on F.SAFE_FN_STAT_DRIVE && high })
  have kept := congrArg Saf.recs (State.wr_saf s F.SAFE_FN_STAT_LEVEL (b2n high))
  exact read.trans kept

end Sys2Proof.Machine
end

section
/-!
# The ball read back, and the supervisor and the monitor restarted (spec/15_safety.md, R677 to R681)
-/

namespace Sys2Proof.Machine

-- One theorem after the other: in one text, theorems that wait for the kernel would each hold a thread.
set_option Elab.async false

/-- What a readback finds. -/
structure BallJudged (high : Bool) (s t : State) : Prop where
  level : t.on F.SAFE_FN_STAT_LEVEL = high
  fnext : s.on F.SAFE_FN_STAT_DRIVE = false → high = false → t.on F.SAFE_FN_STAT_FNEXT = true
  fnpin : s.on F.SAFE_FN_STAT_DRIVE = true → high = true → s.saf.fnHigh = true →
    t.on F.SAFE_FN_STAT_FNPIN = true ∧ ∃ r ∈ t.saf.recs, r.code = 0x705
  recs  : s.on F.SAFE_FN_STAT_DRIVE ≠ high → t.saf.recs = s.saf.recs

theorem ball_on {s t : State} {f : Field} (h : t.rd f = s.rd f) : t.on f = s.on f := by
  unfold State.on
  rw [h]

theorem pinFault_ball (s : State) {f : Field} (place : f.addr = Reg.SAFE_FN_STAT) (low : f.lo + f.width ≤ 31) :
    (s.toChip pinFault).on f = s.on f := by
  rw [pinFault_passes]
  exact ball_on ((escalated_ball _ place).trans (fault_ball s pinFault place low))

theorem pinFault_recorded (s : State) : ∃ r ∈ (s.toChip pinFault).saf.recs, r.code = 0x705 := by
  rw [pinFault_passes, escalated_saf]
  exact fault_recorded s pinFault

theorem ballJudged_judges (s : State) (high : Bool) : BallJudged high s (s.ballJudged high) := by
  have level := ballRead_level s high
  have recs := ballRead_recs s high
  unfold State.ballJudged
  split
  next pin =>
    obtain ⟨driven, up, before⟩ := pin
    refine ⟨?_, fun off => absurd (driven.symm.trans off) (by decide), fun _ _ _ => ⟨?_, pinFault_recorded _⟩, fun no => absurd (driven.trans up.symm) no⟩
    · exact (pinFault_ball _ (f := F.SAFE_FN_STAT_LEVEL) rfl (by decide)).trans
        ((State.on_set1_off _ (f := F.SAFE_FN_STAT_FNPIN) (by decide)).trans level)
    · exact (pinFault_ball _ (f := F.SAFE_FN_STAT_FNPIN) rfl (by decide)).trans (State.on_set1_same _ (f := F.SAFE_FN_STAT_FNPIN) (by decide))
  next noPin =>
    split
    next ext =>
      refine ⟨(State.on_set1_off _ (f := F.SAFE_FN_STAT_FNEXT) (by decide)).trans level,
        fun _ _ => State.on_set1_same _ (f := F.SAFE_FN_STAT_FNEXT) (by decide), fun driven => absurd (driven.symm.trans ext.1) (by decide), fun _ => ?_⟩
      exact (congrArg Saf.recs (State.wr_saf (s.ballRead high) F.SAFE_FN_STAT_FNEXT 1)).trans recs
    next noExt =>
      exact ⟨level, fun off low => absurd ⟨off, low⟩ noExt, fun driven up before => absurd ⟨driven, up, before⟩ noPin, fun _ => recs⟩

theorem latched_ball (s : State) {f : Field} (place : f.addr = Reg.SAFE_FN_STAT) (low : f.lo + f.width ≤ 31) :
    (s.modSaf fun q => { q with latch := true }).showFn.on f = s.on f := ball_on ((showFn_ball _ place low).trans (modSaf_rd s _ f))

theorem latched_recs (s : State) : (s.modSaf fun q => { q with latch := true }).showFn.saf.recs = s.saf.recs := by
  have shown := congrArg Saf.recs (showFn_saf (s.modSaf fun q => { q with latch := true }))
  have kept := congrArg Saf.recs (modSaf_saf s fun q => { q with latch := true })
  exact shown.trans kept

theorem latched_latch (s : State) : (s.modSaf fun q => { q with latch := true }).showFn.saf.latch = true :=
  congrArg Saf.latch ((showFn_saf _).trans (modSaf_saf s _))

/-- Settles O50: the supervisor and the monitor are restarted, and what is late goes to the next level. -/
theorem supervisorAndMonitorAreRestarted : Obligations.SupervisorAndMonitorAreRestarted := by
  unfold Obligations.SupervisorAndMonitorAreRestarted
  intro s ecc high rg recorded atRestart atMonitor
  refine ⟨fun runs => ?_, fun halted awake => ⟨fun works => ?_, fun idle => supervisorRestart_waits idle⟩,
    fun w found out => ⟨fun below => ⟨_, deadlineExpire_rises found out below, rises_shows out⟩,
      fun top still => ⟨_, deadlineExpire_escalates found out top, escalates_shows rg.isLt still⟩⟩,
    fun none' => deadlineExpire_waits none', fun ok out never => ⟨_, smlock_first ok never, smlock_shows s out⟩,
    fun ok before at' soon => ⟨_, smlock_again ok at' soon, smAgain_shows s⟩, fun stopped => ⟨fun works => ?_, fun idle => smRestart_waits idle⟩,
    ⟨_, rfl, smwdog_shows s⟩, ⟨_, rfl, fnLatchExpire_shows s⟩, fun ok => ?_⟩
  · obtain ⟨run, rec', work, ready, mem⟩ := suplock_shows s (if ecc then 2 else 1)
    exact ⟨_, suplock_halts ecc runs, run, rec', work, ready, fun a _ => State.byte_congr mem a⟩
  · obtain ⟨run, reports⟩ := papolRuns_empties (((s.repCount rgCtl).ends rgCtl 1 0 0).ends rgCtl 2 0 0)
    exact ⟨_, supervisorRestart_restarts halted awake works, run, reports, restarted_recs s⟩
  · obtain ⟨smok, latch, recs⟩ := smRestarted_shows s
    exact ⟨_, smRestart_restarts stopped works, (Reacts.refl s.smRestarted).showFn.smok.trans smok, (congrArg Saf.latch (showFn_saf _)).trans latch,
      (congrArg Saf.recs (showFn_saf _)).trans recs, (showFn_drive _).trans (showFn_fnDemand _).symm⟩
  · have judged := ballJudged_judges s high
    refine ⟨_, fnReadback_reads ok high, (latched_ball _ rfl (by decide)).trans judged.level, latched_latch _,
      fun off low => (latched_ball _ rfl (by decide)).trans (judged.fnext off low), fun driven up before => ?_,
      fun no => (latched_recs _).trans (judged.recs no)⟩
    obtain ⟨pin, r, mem, code⟩ := judged.fnpin driven up before
    exact ⟨(latched_ball _ rfl (by decide)).trans pin, r, (latched_recs (s.ballJudged high)).symm ▸ mem, code⟩

end Sys2Proof.Machine
end

section
/-!
# Sessions and lockouts (spec/16_security.md, R719 to R723)
-/

namespace Sys2Proof.Machine

-- One theorem after the other: in one text, theorems that wait for the kernel would each hold a thread.
set_option Elab.async false

/-- A session whose key is gone and that CTL_SEC_STAT no longer shows, EVT_SECURITY not yet raised. -/
def State.unkeyed (s : State) (x : Sec) : State := { s with sec := x }.clr F.CTL_SEC_STAT_SESS

theorem unkeyed_pap (s : State) (x : Sec) : (s.unkeyed x).pap = s.pap := State.wr_pap _ _ _

theorem closeSession_open {s : State} (opened : s.on F.CTL_SEC_STAT_SESS = true) (cause : Nat) :
    s.closeSession cause = (s.unkeyed { s.sec with key := none }).raiseSecurity 1 cause (s.rd F.CTL_SEC_CNT_CONSEC)
      (s.rd F.CTL_SEC_STAT_SESSNO) := by
  unfold State.closeSession
  exact if_pos opened

theorem closeSession_shut {s : State} (shut : ¬ s.on F.CTL_SEC_STAT_SESS = true) (cause : Nat) : s.closeSession cause = s := by
  unfold State.closeSession
  exact if_neg shut

theorem raiseSecurity_frame (s : State) (kind cause consec low : Nat) : Frame {} (fun _ => False) s (s.raiseSecurity kind cause consec low) :=
  (Frame.refl id s).raiseSecurity

theorem closeSession_closes (s : State) (cause : Nat) : (s.closeSession cause).on F.CTL_SEC_STAT_SESS = false := by
  by_cases opened : s.on F.CTL_SEC_STAT_SESS = true
  · rw [closeSession_open opened, (raiseSecurity_frame _ _ _ _ _).on_steady id]
    exact State.on_clr_same _
  · rw [closeSession_shut opened]
    exact Bool.eq_false_iff.2 opened

/-- The key goes with an open session; nothing else of the security state does. -/
theorem closeSession_sec (s : State) (cause : Nat) :
    (s.closeSession cause).sec = if s.on F.CTL_SEC_STAT_SESS then { s.sec with key := none } else s.sec := by
  by_cases opened : s.on F.CTL_SEC_STAT_SESS = true
  · rw [closeSession_open opened, (raiseSecurity_frame _ _ _ _ _).sec, if_pos opened]
    rfl
  · rw [closeSession_shut opened, if_neg opened]

theorem closeSession_number (s : State) (cause : Nat) : (s.closeSession cause).rd F.CTL_SEC_STAT_SESSNO = s.rd F.CTL_SEC_STAT_SESSNO := by
  by_cases opened : s.on F.CTL_SEC_STAT_SESS = true
  · rw [closeSession_open opened, (raiseSecurity_frame _ _ _ _ _).rd_steady id]
    exact State.rd_clr_off _
  · rw [closeSession_shut opened]

theorem closeSession_kept (s : State) (cause : Nat) : PapolKept s (s.closeSession cause) := by
  by_cases opened : s.on F.CTL_SEC_STAT_SESS = true
  · rw [closeSession_open opened]
    exact (PapolKept.of_pap (unkeyed_pap s _)).trans (raiseR_papol _ _ _ _).2
  · rw [closeSession_shut opened]
    exact .refl s

theorem closeSession_frame (s : State) (cause : Nat) : Frame { sec := true } (· ∈ [Reg.CTL_SEC_STAT]) s (s.closeSession cause) :=
  ((Posts.refl s).closeSession cause).frame.mono (fun _ e => List.mem_singleton.2 e) (by decide)

/-- A frame with the security state alone beside the registers. -/
theorem Frame.over_sec {R : Nat → Prop} {s t : State} (h : Frame { sec := true } R s t) : { s.over t with sec := s.sec } = s := h.rest

/-! ## A session opens -/

theorem rd_wrap_same (s : State) {f : Field} (fits : f.lo + f.width ≤ 32) : (s.wrap f 1).rd f = (s.rd f + 1) % 2 ^ f.width :=
  State.rd_wr_same s _ fits

/-- The session that a key puts in force, what was before it closed. -/
theorem putKey_some (s : State) (k : List Word) (idle : Nat) : s.putKey (some (k, idle)) =
    ((({ s.closeSession 4 with sec := { (s.closeSession 4).sec with key := some k, idleto := idle, lockLen := 0 } } : State).wrap
      F.CTL_SEC_STAT_SESSNO 1).set1 F.CTL_SEC_STAT_SESS).wr F.CTL_SEC_CNT_CONSEC 0 := rfl

theorem putKey_kept (s : State) (k : List Word) (idle : Nat) : PapolKept s (s.putKey (some (k, idle))) :=
  (closeSession_kept s 4).trans (.of_pap (by
    rw [putKey_some]
    exact (State.wr_pap _ _ _).trans ((State.wr_pap _ _ _).trans (State.wr_pap _ _ _))))

theorem putKey_sec (s : State) (k : List Word) (idle : Nat) :
    (s.putKey (some (k, idle))).sec = { s.sec with key := some k, idleto := idle, lockLen := 0 } := by
  have own : (s.putKey (some (k, idle))).sec = { (s.closeSession 4).sec with key := some k, idleto := idle, lockLen := 0 } := rfl
  rw [own, closeSession_sec]
  split <;> rfl

theorem putKey_shows (s : State) (k : List Word) (idle : Nat) : (s.putKey (some (k, idle))).on F.CTL_SEC_STAT_SESS = true ∧
    (s.putKey (some (k, idle))).rd F.CTL_SEC_STAT_SESSNO = (s.rd F.CTL_SEC_STAT_SESSNO + 1) % 2 ^ 16 ∧
    (s.putKey (some (k, idle))).rd F.CTL_SEC_CNT_CONSEC = 0 := by
  rw [putKey_some]
  refine ⟨(State.on_wr_off _ 0).trans (State.on_set1_same _), ?_, State.rd_wr_fits _ (by decide) (by decide)⟩
  refine (State.rd_wr_off _ 0).trans ((State.rd_set1_off _).trans ((rd_wrap_same _ (by decide)).trans ?_))
  exact congrArg (fun n => (n + 1) % 2 ^ 16) ((State.rd_congr rfl _).trans (closeSession_number s 4))

theorem postDone_ended {s u : State} (kept : PapolKept s u) (e : PendEntry) (st d : Nat) (ws : List Word) (cl : List Clamp) (time : Word64) :
    Ended (some e) st s (u.postDone e st d ws cl time) := by
  obtain ⟨-, slots, -⟩ := kept
  refine fun _ => ⟨by rw [postDone_slots, slots], fun r found => ?_⟩
  rw [replyFor_eq, postDone_replies, updReply_newest] at found
  · obtain ⟨x, -, rfl⟩ := Option.map_eq_some_iff.1 found
    rfl
  · exact fun _ => rfl

/-- What the end of a command that puts a session in force leaves. -/
theorem finishWith_frame (s : State) (e : PendEntry) (st d : Nat) (ws : List Word) (key : Option (List Word × Nat)) :
    Frame { sec := true } (· ∈ [Reg.CTL_SEC_STAT]) s (s.finishWith e st d ws [] key) := by
  have start := Frame.refl (m := { sec := true }) (R := (· ∈ [Reg.CTL_SEC_STAT])) (by decide) s
  have posted : Frame { sec := true } (· ∈ [Reg.CTL_SEC_STAT]) s (s.sysRun.putKey key) :=
    start.sysRun.trans (((Posts.refl s.sysRun).putKey key).frame.mono (fun _ e => List.mem_singleton.2 e) (by decide))
  unfold State.finishWith
  exact .ite posted.postDone (start.pap _)

/-- A command that puts a session in force ends while Papol runs. -/
theorem finishWith_opens {s : State} (runs : s.pap.run = .running) (e : PendEntry) (ws : List Word) (k : List Word) (idle : Nat) :
    let t := s.finishWith e stsOk 0 ws [] (some (k, idle))
    t.on F.CTL_SEC_STAT_SESS = true ∧ t.rd F.CTL_SEC_STAT_SESSNO = (s.rd F.CTL_SEC_STAT_SESSNO + 1) % 2 ^ 16 ∧
      t.rd F.CTL_SEC_CNT_CONSEC = 0 ∧ t.sec = { s.sec with key := some k, idleto := idle, lockLen := 0 } := by
  have eq : s.finishWith e stsOk 0 ws [] (some (k, idle)) =
      (s.sysRun.putKey (some (k, idle))).postDone e stsOk 0 ws [] (BitVec.ofNat 64 s.now) := by
    unfold State.finishWith
    exact if_pos runs
  have started := (Frame.refl (m := {}) (R := fun _ => False) id s).sysRun
  obtain ⟨shown, number, count⟩ := putKey_shows s.sysRun k idle
  have sec := putKey_sec s.sysRun k idle
  rw [started.sec] at sec
  rw [started.rd_steady id] at number
  dsimp only
  rw [eq]
  generalize s.sysRun.putKey (some (k, idle)) = u at shown number count sec
  have posted := (Frame.refl (m := {}) (R := fun _ => False) id u).postDone (e := e) (st := stsOk) (d := 0) (ws := ws) (cl := [])
    (time := BitVec.ofNat 64 s.now)
  refine ⟨(posted.on_steady id).trans shown, (posted.rd_steady id).trans number, ?_, posted.sec.trans sec⟩
  have same := (postDone_regs u e stsOk 0 ws [] (BitVec.ofNat 64 s.now)).reg (a := Reg.CTL_SEC_CNT) (by unfold eventIndex; decide) (by decide)
  refine Eq.trans ?_ count
  unfold State.rd
  exact congrArg (fun w => bits w F.CTL_SEC_CNT_CONSEC.lo F.CTL_SEC_CNT_CONSEC.width) same

theorem finishWith_ended (s : State) (e : PendEntry) (ws : List Word) (k : List Word) (idle : Nat) :
    Ended (some e) stsOk s (s.finishWith e stsOk 0 ws [] (some (k, idle))) := fun runs => by
  have eq : s.finishWith e stsOk 0 ws [] (some (k, idle)) =
      (s.sysRun.putKey (some (k, idle))).postDone e stsOk 0 ws [] (BitVec.ofNat 64 s.now) := by
    unfold State.finishWith
    exact if_pos runs
  rw [eq]
  exact postDone_ended ((PapolKept.of_pap (sysRun_pap s)).trans (putKey_kept _ k idle)) e _ _ _ _ _ runs

theorem finishWith_held {s : State} (stopped : s.pap.run ≠ .running) (e : PendEntry) (st d : Nat) (ws : List Word)
    (key : Option (List Word × Nat)) : (s.finishWith e st d ws [] key).sec = s.sec := by
  unfold State.finishWith
  dsimp only
  rw [if_neg stopped]

/-! ## The end of SESSION_OPEN -/

/-- The session key that both sides derive (R719). -/
def State.sessionKey (s : State) (qh : List Word) : List Word :=
  Crypto.hmacWords (s.fuseWords 20 8) (Crypto.ecdh s.ephemeral qh ++ qh ++ Crypto.ecdhPublic s.ephemeral ++ s.serialBe)

/-- The secret key's words drawn (R719). -/
def State.drew (s : State) : State := { s with draw := s.draw + 8 }

theorem sessionOpenDone_eq {s : State} {e : PendEntry} (work : s.atWork? 0x800 = some e) : exec .sessionOpenDone s = .next (s.drew.finishWith e stsOk 0
    (Crypto.ecdhPublic s.ephemeral ++ [w32 ((s.rd F.CTL_SEC_STAT_SESSNO + 1) % 2 ^ 16)]) []
    (some (s.sessionKey ((e.payload.drop 1).take 16), pf e.payload 0 0 16))) := by
  show execSessionOpenDone s = _
  unfold execSessionOpenDone
  rw [work]
  rfl

theorem sessionOpenDone_opens {s : State} {e : PendEntry} (work : s.atWork? 0x800 = some e) :
    ∃ t, exec .sessionOpenDone s = .next t ∧ Ended (some e) stsOk s t ∧ Touches [Reg.CTL_SEC_STAT] s t ∧
      (s.pap.run ≠ .running → t.sec = s.sec) ∧
      (s.pap.run = .running → t.on F.CTL_SEC_STAT_SESS = true ∧
        t.rd F.CTL_SEC_STAT_SESSNO = (s.rd F.CTL_SEC_STAT_SESSNO + 1) % 2 ^ 16 ∧ t.rd F.CTL_SEC_CNT_CONSEC = 0 ∧
        t.sec = { s.sec with key := some (s.sessionKey ((e.payload.drop 1).take 16)), idleto := pf e.payload 0 0 16, lockLen := 0 }) := by
  have drew : Frame { draw := true, sec := true } (· ∈ [Reg.CTL_SEC_STAT]) s s.drew := (Frame.refl (by decide) s).upd rfl
  exact ⟨_, sessionOpenDone_eq work, finishWith_ended s.drew e _ _ _, (drew.trans (finishWith_frame s.drew e _ _ _ _).widen).touches,
    fun stopped => finishWith_held (s := s.drew) stopped e _ _ _ _, fun runs => finishWith_opens (s := s.drew) runs e _ _ _⟩

/-! ## Lockouts -/

/-- How long the next lockout lasts, in seconds (R722). -/
def State.lockFor (s : State) : Nat := if s.sec.lockLen = 0 then 1 else min 64 (2 * s.sec.lockLen)

/-- A lockout whose counters have not moved yet. -/
def State.lockedOut (s : State) : State :=
  (s.unkeyed { s.sec with key := none, lockLen := s.lockFor }).raiseSecurity 1 3 8 (s.lockFor * 2 ^ 8)

theorem startLockout_eq (s : State) : s.startLockout =
    ((s.lockedOut.wr F.CTL_SEC_CNT_CONSEC 0).sat F.CTL_SEC_CNT_LOCKOUTS 1).set1 F.CTL_SEC_STAT_LOCKOUT := rfl

theorem lockedOut_sec (s : State) : s.lockedOut.sec = { s.sec with key := none, lockLen := s.lockFor } := (raiseSecurity_frame _ _ _ _ _).sec

theorem lockedOut_lockouts (s : State) : s.lockedOut.rd F.CTL_SEC_CNT_LOCKOUTS = s.rd F.CTL_SEC_CNT_LOCKOUTS := by
  have same := (raiseR_regs (s.unkeyed { s.sec with key := none, lockLen := s.lockFor }) evSecurity
    [w32 (1 * 2 ^ 28 + 3 * 2 ^ 24 + 8 * 2 ^ 16 + s.lockFor * 2 ^ 8)] false).reg (a := Reg.CTL_SEC_CNT) (by unfold eventIndex; decide) (by decide)
  refine Eq.trans ?_ (State.rd_clr_off (f := F.CTL_SEC_STAT_SESS) (g := F.CTL_SEC_CNT_LOCKOUTS) s)
  unfold State.rd
  exact congrArg (fun w => bits w F.CTL_SEC_CNT_LOCKOUTS.lo F.CTL_SEC_CNT_LOCKOUTS.width) same

theorem startLockout_locks (s : State) : s.startLockout.on F.CTL_SEC_STAT_LOCKOUT = true ∧ s.startLockout.on F.CTL_SEC_STAT_SESS = false ∧
    s.startLockout.rd F.CTL_SEC_CNT_CONSEC = 0 ∧
    s.startLockout.rd F.CTL_SEC_CNT_LOCKOUTS = min 255 (s.rd F.CTL_SEC_CNT_LOCKOUTS + 1) ∧
    s.startLockout.sec = { s.sec with key := none, lockLen := s.lockFor } ∧ Touches [Reg.CTL_SEC_STAT] s s.startLockout := by
  have gone : Frame { sec := true } (· ∈ [Reg.CTL_SEC_STAT]) s (s.unkeyed { s.sec with key := none, lockLen := s.lockFor }) :=
    ((Frame.refl (by decide) s).upd rfl).clr (by decide)
  have raised : Frame { sec := true } (· ∈ [Reg.CTL_SEC_STAT]) s s.lockedOut := gone.raiseSecurity
  have cleared : PapolBut papolReg (papolByte s.lockedOut) s.lockedOut (s.lockedOut.wr F.CTL_SEC_CNT_CONSEC 0) := PapolBut.wr _ _ _ consec_papol
  have counted : ∀ u : State, PapolBut papolReg (papolByte u) u (u.sat F.CTL_SEC_CNT_LOCKOUTS 1) := fun u => PapolBut.wr u _ _ consec_papol
  have shut : s.lockedOut.on F.CTL_SEC_STAT_SESS = false := ((raiseSecurity_frame _ _ _ _ _).on_steady id).trans (State.on_clr_same _)
  have frame := ((raised.papol cleared).papol (counted (s.lockedOut.wr F.CTL_SEC_CNT_CONSEC 0))).set1 (f := F.CTL_SEC_STAT_LOCKOUT) (by decide)
  rw [startLockout_eq]
  refine ⟨State.on_set1_same _, ?_, ?_, ?_, ?_, frame.touches⟩
  · rw [State.on_set1_off _, State.on_sat_off, State.on_wr_off _, shut]
  · rw [State.rd_set1_off _, State.rd_sat_off]
    exact State.rd_wr_fits _ (by decide) (by decide)
  · rw [State.rd_set1_off _, State.rd_sat_same _ _ (by decide), State.rd_wr_off _, lockedOut_lockouts]
    rfl
  · rw [State.set1_sec, State.sat_sec, State.wr_sec, lockedOut_sec]

end Sys2Proof.Machine
end

section
/-!
# Closing a session, and the firmware molt (spec/16_security.md, R721, R732 to R734)
-/

namespace Sys2Proof.Machine

-- One theorem after the other: in one text, theorems that wait for the kernel would each hold a thread.
set_option Elab.async false

/-! ## What follows a reply -/

section
variable {c : CmdSpec} {p : Packet} {s s1 : State} {body : State → Res} {after : State → State}

/-- A card that is done, and then what the command does once its reply is written. -/
theorem take_done {st d : Nat} {ws : List Word} (acc : Accepted c p s) (result : body (s.admitted c p) = .done st d ws [] s1) :
    ∃ u, s.take c p body after = after u ∧ Replied u c p st d ws ∧ PapolBut papolReg (papolByte s1) s1 u := by
  obtain ⟨u, eq, replied, papol⟩ := card_done acc result
  refine ⟨u, ?_, replied, papol⟩
  have eq' : s.take c p body id = u := Host.Outcome.next.inj eq
  rw [← eq', take_accepted acc, take_accepted acc, result]
  rfl

theorem answer_run (s : State) (op : Nat) (p : Packet) (auth journal : Bool) (st d : Nat) (tr : Bool) (ws : List Word) :
    (s.answer op p auth journal st d tr ws).pap.run = s.pap.run := by
  have e := congrArg Papol.run (answer_noReplies s op p auth journal st d tr ws)
  exact e

/-- A card that leaves its command pending, and then what the command does once its reply is written. -/
theorem take_pend {ws : List Word} {ts : List Target} (acc : Accepted c p s) (result : body (s.admitted c p) = .pend ws ts s1)
    (room : s1.freeSlot? ≠ none) :
    ∃ u, s.take c p body after = after u ∧ Pends u c p ws ts ∧ PapolBut papolReg (papolByte s1) s1 u ∧ u.pap.run = s1.pap.run := by
  obtain ⟨u, eq, pends, papol⟩ := card_pend acc result room
  obtain ⟨k, free⟩ := Option.ne_none_iff_exists'.1 room
  have answered : ∀ f : State → State, s.take c p body f = f (({ s1 with pap := { s1.pap with
      slots := insertPend ⟨k, c.opcode, p.ring1, p.cseq, p.payload, ts, c.cfg, none⟩ s1.pap.slots } } : State).answer c.opcode p p.auth true
        stsPending k false ws) := fun f => by
    rw [take_accepted acc, result]
    unfold State.settle
    dsimp only
    rw [free]
  have own : s.take c p body id = u := Host.Outcome.next.inj eq
  have same := (answered id).symm.trans own
  refine ⟨u, ?_, pends, papol, ?_⟩
  · rw [answered after, ← same]
    rfl
  · rw [← same]
    exact answer_run _ _ _ _ _ _ _ _ _

theorem answers_after {i : Instr} {st d : Nat} {ws : List Word} {P : State → Prop} (run : exec i s = .next (s.take c p body after))
    (acc : Accepted c p s) (result : body (s.admitted c p) = .done st d ws [] s1)
    (leaves : ∀ u, Replied u c p st d ws → PapolBut papolReg (papolByte s1) s1 u → Replied (after u) c p st d ws ∧ P (after u)) :
    Answers i c p s st d ws P := by
  obtain ⟨u, eq, replied, papol⟩ := take_done (after := after) acc result
  exact ⟨_, run.trans (congrArg Host.Outcome.next eq), leaves u replied papol⟩

theorem awaits_after {i : Instr} {ws : List Word} {ts : List Target} {P : State → Prop} (run : exec i s = .next (s.take c p body after))
    (acc : Accepted c p s) (result : body (s.admitted c p) = .pend ws ts s1) (room : s1.freeSlot? ≠ none)
    (leaves : ∀ u, Pends u c p ws ts → PapolBut papolReg (papolByte s1) s1 u → u.pap.run = s1.pap.run → Pends (after u) c p ws ts ∧ P (after u)) :
    Awaits i c p s ws ts P := by
  obtain ⟨u, eq, pends, papol, running⟩ := take_pend (after := after) acc result room
  exact ⟨_, run.trans (congrArg Host.Outcome.next eq), leaves u pends papol running⟩

end

/-! ## Closing a session -/

theorem closeSession_noEvents (s : State) (cause : Nat) : (s.closeSession cause).pap.noEvents = s.pap.noEvents := by
  by_cases opened : s.on F.CTL_SEC_STAT_SESS = true
  · rw [closeSession_open opened]
    exact (raise_noEvents _ _ _).trans (congrArg Papol.noEvents (unkeyed_pap s _))
  · rw [closeSession_shut opened]

theorem closeSession_held (s : State) (cause : Nat) : (s.closeSession cause).pap.held = s.pap.held := by
  have e := congrArg Papol.held (closeSession_noEvents s cause)
  exact e

/-- What closing a session concludes of the state that it leaves. -/
theorem closeSession_done (s : State) (cause : Nat) : (s.closeSession cause).on F.CTL_SEC_STAT_SESS = false ∧
    (s.on F.CTL_SEC_STAT_SESS = true → (s.closeSession cause).sec.key = none) := by
  refine ⟨closeSession_closes s cause, fun opened => ?_⟩
  rw [closeSession_sec, if_pos opened]

theorem afterReply_free {s : State} (none : s.pap.held = []) (op : Nat) (after : State → State) : s.afterReply op after = after s := by
  unfold State.afterReply
  exact if_pos (by rw [none]; rfl)

theorem afterReply_held {s : State} (some : s.pap.held ≠ []) (op : Nat) (after : State → State) :
    s.afterReply op after = { s with pap := { s.pap with afterDue := .some op } } := by
  unfold State.afterReply
  exact if_neg fun empty => some (List.isEmpty_iff.1 empty)

theorem sessionClose_answers {p : Packet} {s : State} (acc : Accepted cardSessionClose p s) :
    Answers (.sessionClose p) cardSessionClose p s 0 0 [] fun t => Touches [Reg.CTL_SEC_STAT] s t ∧ { s.over t with sec := s.sec } = s ∧
      if t.pap.held = [] then t.on F.CTL_SEC_STAT_SESS = false ∧ (s.on F.CTL_SEC_STAT_SESS = true → t.sec.key = none)
      else t.pap.afterDue = some 0x801 ∧ t.sec = s.sec := by
  refine answers_after (s1 := s.admitted cardSessionClose p) rfl acc rfl fun u replied papol => ?_
  have frame : Frame { sec := true } (· ∈ [Reg.CTL_SEC_STAT]) s u := (Frame.admitted (by decide) s cardSessionClose p).papol papol
  have sess : u.on F.CTL_SEC_STAT_SESS = s.on F.CTL_SEC_STAT_SESS := (papol.on_steady (by decide)).trans (on_card _ _ _)
  have sec : u.sec = s.sec := papol.sec.trans (admitted_sec _ _ _)
  by_cases free : u.pap.held = []
  · rw [afterReply_free free]
    have closed := frame.trans (closeSession_frame u 1)
    obtain ⟨shut, key⟩ := closeSession_done u 1
    refine ⟨replied.congr (closeSession_kept u 1).1, closed.touches, closed.over_sec, ?_⟩
    rw [if_pos ((closeSession_held u 1).trans free)]
    exact ⟨shut, fun opened => key (sess.trans opened)⟩
  · rw [afterReply_held free]
    have waits := frame.pap { u.pap with afterDue := some 0x801 }
    refine ⟨replied.congr rfl, waits.touches, waits.over_sec, ?_⟩
    rw [if_neg free]
    exact ⟨rfl, sec⟩

theorem sessionIdleTimeout_closes {s : State} (timed : s.sec.idleto ≠ 0) : ∃ t, exec .sessionIdleTimeout s = .next t ∧
    t.on F.CTL_SEC_STAT_SESS = false ∧ (s.on F.CTL_SEC_STAT_SESS = true → t.sec.key = none) ∧ Touches [Reg.CTL_SEC_STAT] s t ∧
    { s.over t with sec := s.sec } = s := by
  obtain ⟨shut, key⟩ := closeSession_done s 2
  exact ⟨_, congrArg Host.Outcome.next (if_pos timed), shut, key, (closeSession_frame s 2).touches, (closeSession_frame s 2).over_sec⟩

/-! ## FW_MOLT -/

theorem find_ne_none {α : Type} {f : α → Bool} {l : List α} {x : α} (mem : x ∈ l) (h : f x = true) : (l.find? f).isSome = true :=
  List.find?_isSome.2 ⟨x, mem, h⟩

/-- The molt's own pending command makes the supervisor quiet. -/
theorem quiesce_pends {s : State} {p : Packet} {ws : List Word} {ts : List Target} (h : Pends s cardFwMolt p ws ts) :
    s.quiesce = { s with pap := { s.pap with run := .molting } } := by
  obtain ⟨e, mem, op, -, -, -, -, done, -⟩ := h
  have opcode : e.opcode = 0x802 := op
  unfold State.quiesce State.atWork?
  exact if_pos (find_ne_none mem (by rw [opcode, done]; rfl))

theorem Pends.congr {s t : State} {c : CmdSpec} {p : Packet} {ws : List Word} {ts : List Target} (h : Pends s c p ws ts)
    (slots : t.pap.slots = s.pap.slots) (replies : t.pap.replies = s.pap.replies) : Pends t c p ws ts := by
  obtain ⟨e, mem, op, ring, seq, load, aim, done, replied⟩ := h
  exact ⟨e, by rw [slots]; exact mem, op, ring, seq, load, aim, done, replied.congr replies⟩

theorem fwMolt_awaits {p : Packet} {s : State} (acc : Accepted cardFwMolt p s) :
    let a := s.admitted cardFwMolt p
    let ofs := pf p.payload 0 2 19 * 4
    let len := pf p.payload 1 0 21
    let img := a.words (0x800000 + ofs) (len / 4)
    a.spanOn ofs len = true → (s.pap.slots.find? fun e => moltBusy.contains e.opcode) = none →
      Free s [.firmware] → s.on F.PWR_STATE_TRANS = false → a.poisonIn ofs len = [] → a.bootErr img len = 0 →
      imgHinMin img ≤ s.sec.hout → s.sec.hout ≤ imgHout img → (pw p.payload 2 = 0 ∨ pw p.payload 2 = imgVersion img) →
      Awaits (.fwMolt p) cardFwMolt p s
        [imgVersion img, w32 (imgRoll img), w32 (s.sec.hout * 2 ^ 16 + imgHinMin img), s.pap.version] [.firmware] fun t =>
          Touches [] s t ∧ s.over t = s ∧
          if t.pap.held = [] then t.pap.run = .molting else t.pap.run = .running ∧ t.pap.afterDue = some 0x802 := by
  intro a ofs len img span idle free still clean valid low high named
  have sec : a.sec = s.sec := admitted_sec s cardFwMolt p
  have version : a.pap.version = s.pap.version := by
    obtain ⟨x, y, z, same⟩ := admitted_pap s cardFwMolt p
    have e := congrArg Papol.version same
    exact e
  have trans : ¬ a.on F.PWR_STATE_TRANS = true := by rw [on_card s cardFwMolt p, still]; decide
  have idle' : (a.pap.slots.find? fun e => moltBusy.contains e.opcode) = none := by rw [admitted_slots]; exact idle
  have hin : ¬ (a.poisonIn ofs len = [] ∧ a.bootErr img len = 0 ∧ (a.sec.hout < imgHinMin img ∨ imgHout img < a.sec.hout)) := by
    rintro ⟨-, -, out⟩
    rw [sec] at out
    omega
  have other : ¬ (a.poisonIn ofs len = [] ∧ a.bootErr img len = 0 ∧ pw p.payload 2 ≠ 0 ∧ pw p.payload 2 ≠ imgVersion img) := by
    rintro ⟨-, -, given, differs⟩
    exact named.elim given differs
  have result : ∀ z : State, z.pap = a.pap → z.sec = a.sec → Res.pend [imgVersion img, w32 (imgRoll img), w32 (z.sec.hout * 2 ^ 16 + imgHinMin img),
      z.pap.version] [.firmware] a = .pend [imgVersion img, w32 (imgRoll img), w32 (s.sec.hout * 2 ^ 16 + imgHinMin img), s.pap.version] [.firmware] a :=
    fun z pap own => by rw [pap, own, sec, version]
  refine awaits_after (s1 := a) rfl acc ?_ (admitted_free free).2 fun u pends papol running => ?_
  · refine (if_neg (by rw [span]; decide)).trans ((if_neg hin).trans ((if_neg other).trans ?_))
    rw [idle']
    refine (unlessBusy_free (admitted_free free)).trans ((if_neg trans).trans ((if_neg (fun bad => bad clean)).trans ?_))
    rw [valid]
    exact result a rfl rfl
  · have runs : u.pap.run = .running := (running.trans (admitted_run s cardFwMolt p)).trans acc.runs
    have frame : PapolBut papolReg (papolByte s) s u := (Frame.of_papol (admitted_papol s cardFwMolt p)).papol papol |>.papolBut
    by_cases open' : u.pap.held = []
    · rw [afterReply_free open', quiesce_pends pends]
      have quiet := ((Frame.of_papol frame).pap { u.pap with run := .molting }).papolBut.untouched
      refine ⟨pends.congr rfl rfl, quiet.1, quiet.2, ?_⟩
      rw [if_pos open']
    · rw [afterReply_held open']
      have waits := ((Frame.of_papol frame).pap { u.pap with afterDue := some 0x802 }).papolBut.untouched
      refine ⟨pends.congr rfl rfl, waits.1, waits.2, ?_⟩
      rw [if_neg open']
      exact ⟨runs, rfl⟩

/-! ## Papol comes back -/

theorem foldl_holds {α β : Type} {f : β → α → β} {P : β → Prop} (step : ∀ m a, P m → P (f m a)) : ∀ (l : List α) (m : β), P m → P (l.foldl f m)
  | [], _, start => start
  | a :: l, m, start => foldl_holds step l (f m a) (step m a start)

/-- What finished first is recorded with the command. -/
theorem firstDone_done {s : State} {e : PendEntry} {d : DoneRec} (h : s.firstDone? = some (e, d)) : e.done = some d := by
  unfold State.firstDone? at h
  refine foldl_holds (P := fun m => ∀ x : PendEntry × DoneRec, m = some x → x.1.done = some x.2) (fun m a known x eq => ?_) s.pap.slots none
    (fun x no => absurd no (by simp)) (e, d) h
  cases done : a.done with
  | none =>
    rw [done] at eq
    exact known x eq
  | some r =>
    rw [done] at eq
    have own : ∀ y : PendEntry × DoneRec, some (a, r) = some y → y.1.done = some y.2 := fun y same => by
      rw [← Option.some.inj same]
      exact done
    cases m with
    | none => exact own x eq
    | some q =>
      by_cases sooner : r.order < q.2.order
      · exact own x ((if_pos sooner).symm.trans eq)
      · exact known x ((if_neg sooner).symm.trans eq)

/-- No command that waits to be posted puts a session in force. -/
def State.keyless (s : State) : Prop := ∀ f ∈ s.pap.slots, ∀ d, f.done = some d → d.key = none

theorem keyless_filter {s t : State} (h : s.keyless) {q : PendEntry → Bool} (slots : t.pap.slots = s.pap.slots.filter q) : t.keyless := by
  intro f mem
  rw [slots] at mem
  exact h f (List.mem_filter.1 mem).1

/-- Posting what waits moves no session where none is to open. -/
theorem papolRuns_sec {s : State} (h : s.keyless) : s.papolRuns.sec = s.sec := by
  have slots : s.resumed.pap.slots = s.pap.slots := congrArg Prod.snd (resumed_backlog s)
  rw [papolRuns_eq]
  refine (drain_holds (I := fun t => t.pap.run = .running ∧ t.keyless ∧ t.sec = s.sec) (fun t r ⟨runs, idle, sec⟩ => ?_)
    (fun t e d first ⟨runs, idle, sec⟩ => ?_) _ s.resumed ⟨(seat_fields (resumed_seat s)).1, fun f mem => ?_, (resumed_frame s).sec⟩).2.2
  · have same : (t.postReport r).pap.slots = t.pap.slots := congrArg Prod.snd (postReport_backlog t r)
    have running := (seat_fields (postReport_posts (.refl t) r).seat).1.trans runs
    have posted := (Frame.refl (m := {}) (R := fun _ => False) id t).pap { t.pap with reports := t.pap.reports.drop 1 }
    exact ⟨running, fun f mem => idle f (same ▸ mem), (posted.issueAt.sec).trans sec⟩
  · have left : (t.postRec e d).pap.slots = t.pap.slots.filter fun x => x.slot ≠ e.slot := congrArg Prod.snd (postRec_backlog runs e d)
    have running := (seat_fields ((Posts.refl t).postRec e d).seat).1.trans runs
    have none := idle e (firstDone_mem first) d (firstDone_done first)
    refine ⟨running, keyless_filter idle left, Eq.trans ?_ sec⟩
    unfold State.postRec
    rw [none]
    exact (Frame.refl (m := {}) (R := fun _ => False) id t).postDone.sec
  · rw [slots] at mem
    exact h f mem

/-- Papol's image beside what a drain moves. -/
theorem papolRuns_image (s : State) : s.papolRuns.pap.version = s.pap.version ∧ s.papolRuns.pap.roll = s.pap.roll := by
  have same : s.papolRuns.pap.seat = { s.pap with run := .running }.seat := by
    rw [papolRuns_eq]
    exact (drain_posts _ _).seat.trans (resumed_seat s)
  obtain ⟨-, -, version, roll⟩ := seat_fields same
  exact ⟨version, roll⟩

theorem authFailed_backlog {s : State} (runs : s.pap.run = .running) : s.authFailed.backlog = s.backlog := by
  unfold State.authFailed
  dsimp only
  split
  · rfl
  · split
    · exact raiseR_backlog (s := (s.sat F.CTL_SEC_CNT_AUTHFAIL 1).sat F.CTL_SEC_CNT_CONSEC 1) runs _ _ false
    · rfl

/-- FW_MOLT's command ends on a running Papol with nothing left to post. -/
theorem molted {s : State} {e : PendEntry} (st : Nat) (runs : s.pap.run = .running) (posted : s.pap.reports = []) :
    let t := s.finish e st 0 [] []
    t.pap.run = .running ∧ (∀ f ∈ t.pap.slots, f.slot ≠ e.slot) ∧ t.pap.reports = [] ∧ t.pap.version = s.pap.version ∧
      t.pap.roll = s.pap.roll ∧ t.sec = s.sec := by
  obtain ⟨run, -, version, roll⟩ := seat_fields (finish_seat s e st 0 [] [])
  have started : s.sysRun.pap = s.pap := sysRun_pap s
  refine ⟨run.trans runs, fun f mem => ?_, ?_, version, roll, (Frame.refl (m := {}) (R := fun _ => False) id s).finish.sec⟩
  · rw [finish_slots runs] at mem
    simpa using (List.mem_filter.1 mem).2
  · rw [finish_running runs]
    have e := congrArg Prod.fst (postDone_backlog (s := s.sysRun) (by rw [started]; exact runs) e st
      (if st = stsStateBusy then s.rd F.PWR_STATE_TARGET else 0) [] [] (BitVec.ofNat 64 s.now))
    refine Eq.trans e ?_
    show s.sysRun.pap.reports = []
    rw [started, posted]

theorem fwMoltResume_resumes {s : State} {e : PendEntry} (molting : s.pap.run = .molting) (work : s.atWork? 0x802 = some e) :
    let ofs := pf e.payload 0 2 19 * 4
    let len := pf e.payload 1 0 21
    let img := s.words (0x800000 + ofs) (len / 4)
    s.poisonIn ofs len = [] → s.keyless → ∃ t, exec .fwMoltResume s = .next t ∧ t.pap.run = .running ∧ (∀ f ∈ t.pap.slots, f.slot ≠ e.slot) ∧
      t.pap.reports = [] ∧
      (s.bootErr img len = 0 → t.pap.version = imgVersion img ∧ t.pap.roll = imgRoll img ∧
        t.sec = { s.sec with digest := Crypto.shaWords img, hout := imgHout img, image := img }) ∧
      (s.bootErr img len ≠ 0 → t.pap.version = s.pap.version ∧ t.pap.roll = s.pap.roll ∧ t.sec = s.sec) := by
  intro ofs len img clean idle
  have exec_eq : exec .fwMoltResume s = .next (if s.bootErr img len ≠ 0 then s.papolRuns.authFailed.finish e stsAuthFail 0 [] []
      else (s.takeImage img).papolRuns.finish e stsOk 0 [] []) := by
    show execFwMoltResume s = _
    unfold execFwMoltResume
    rw [work]
    dsimp only
    rw [if_neg (fun other => other molting), clean]
    by_cases bad : s.bootErr img len ≠ 0
    · exact (if_pos (.inr bad)).trans (congrArg Host.Outcome.next (if_pos bad).symm)
    · exact (if_neg (fun either => either.elim (fun no => no rfl) bad)).trans (congrArg Host.Outcome.next (if_neg bad).symm)
  by_cases bad : s.bootErr img len ≠ 0
  · rw [if_pos bad] at exec_eq
    obtain ⟨runs, empty⟩ := papolRuns_empties s
    obtain ⟨version, roll⟩ := papolRuns_image s
    have failed := authFailed_noEvents s.papolRuns
    have run : s.papolRuns.authFailed.pap.run = s.papolRuns.pap.run := by have e := congrArg Papol.run failed; exact e
    have version' : s.papolRuns.authFailed.pap.version = s.papolRuns.pap.version := by have e := congrArg Papol.version failed; exact e
    have roll' : s.papolRuns.authFailed.pap.roll = s.papolRuns.pap.roll := by have e := congrArg Papol.roll failed; exact e
    have reports : s.papolRuns.authFailed.pap.reports = s.papolRuns.pap.reports := congrArg Prod.fst (authFailed_backlog runs)
    have sec : s.papolRuns.authFailed.sec = s.sec := (Frame.of_papol (authFailed_papol s.papolRuns)).sec.trans (papolRuns_sec idle)
    obtain ⟨runs', free, posted, v, r, own⟩ := molted (e := e) stsAuthFail (run.trans runs) (reports.trans empty)
    exact ⟨_, exec_eq, runs', free, posted, fun good => absurd good bad,
      fun _ => ⟨v.trans (version'.trans version), r.trans (roll'.trans roll), own.trans sec⟩⟩
  · rw [if_neg bad] at exec_eq
    obtain ⟨runs, empty⟩ := papolRuns_empties (s.takeImage img)
    obtain ⟨version, roll⟩ := papolRuns_image (s.takeImage img)
    obtain ⟨runs', free, posted, v, r, own⟩ := molted (e := e) stsOk runs empty
    exact ⟨_, exec_eq, runs', free, posted,
      fun _ => ⟨v.trans version, r.trans roll, own.trans (papolRuns_sec (s := s.takeImage img) idle)⟩, fun wrong => absurd wrong bad⟩

/-! ## The molt that does not come back -/

theorem moltResumeTimeout_halts {s : State} (molting : s.pap.run = .molting) : ∃ t, exec .moltResumeTimeout s = .next t ∧
    t.pap.run = .halted ∧ (Still s → ∃ r ∈ t.saf.recs, r.code = 1) := by
  let u : State := { s with pap := { s.pap with run := .halted } }
  have run : exec .moltResumeTimeout s = .next (u.toChip ⟨1, 0, rgCtl, 4, 0, 0, 0, false, false⟩) := if_neg fun other => other molting
  refine ⟨_, run, (seat_fields (toChip_contained u _).seat).1, fun still => ?_⟩
  exact (toChip_recorded (s := u) (still.of rfl rfl rfl rfl still.recs) (by decide)).1

theorem not_molting {s : State} (other : s.pap.run ≠ .molting) : exec .moltResumeTimeout s = .next s ∧ exec .fwMoltResume s = .next s := by
  refine ⟨if_pos other, ?_⟩
  show execFwMoltResume s = _
  unfold execFwMoltResume
  cases s.atWork? 0x802 with
  | none => rfl
  | some e => exact if_pos other

/-- A write of a field changes the registers alone. -/
theorem wr_rest (s : State) (f : Field) (v : Nat) : { s.wr f v with regs := s.regs } = s := rfl

/-- Settles O56: closing and opening move the session's registers and key, and a molt halts Papol until the new image or the old one runs. -/
theorem sessionsAndFirmwareMolt : Obligations.SessionsAndFirmwareMolt := by
  intro p s e
  dsimp only
  refine ⟨fun acc free curve life idle => ?_, fun none => ?_, fun work => sessionOpenDone_opens work, sessionClose_answers, fun off => ?_,
    sessionIdleTimeout_closes, fun few => ?_, fun due => ?_, ?_, fun acc => fwMolt_awaits acc,
    fun molting work clean idle => fwMoltResume_resumes molting work clean idle, moltResumeTimeout_halts, not_molting⟩
  · have life' : ¬ (s.admitted cardSessionOpen p).lifecycle = 3 := by
      unfold State.lifecycle
      rw [rd_card]
      exact life
    refine (awaits_unchanged rfl acc ?_ idle).imp fun _ k => k.untouched
    refine (if_neg (by rw [on_card, free]; decide)).trans ((if_neg (by rw [curve]; decide)).trans ((if_neg life').trans ?_))
    exact unlessBusy_free (admitted_free idle)
  · show execSessionOpenDone s = _
    unfold execSessionOpenDone
    rw [none]
  · exact congrArg Host.Outcome.next (if_neg fun on => on off)
  · exact congrArg Host.Outcome.next (if_neg (by omega))
  · obtain ⟨locked, shut, count, total, sec, touches⟩ := startLockout_locks s
    exact ⟨_, congrArg Host.Outcome.next (if_pos due), locked, shut, count, total, sec, touches⟩
  · exact ⟨s.clr F.CTL_SEC_STAT_LOCKOUT, rfl, State.on_clr_same s, .wr s F.CTL_SEC_STAT_LOCKOUT 0 rfl, wr_rest s F.CTL_SEC_STAT_LOCKOUT 0⟩

end Sys2Proof.Machine
end

section
/-!
# A tick (spec/01_architecture.md, R43; log entry 5)
-/

namespace Sys2Proof.Machine

-- One theorem after the other: in one text, theorems that wait for the kernel would each hold a thread.
set_option Elab.async false

/-- The parts that a tick may move. -/
def tickParts : Parts := { reactParts with age := true }

/-- The registers that a tick may move beside SYSTIME and Papol's own. -/
def tickReg (a : Nat) : Prop := 0x300000 ≤ a ∨ a % 0x100000 = 0xFFF00 ∨ a = Reg.PWR_DOMSTAT ∨ a = Reg.CTL_REG_STAT

theorem tickReg_state : ¬ tickReg Reg.PWR_STATE := by unfold tickReg; decide

theorem tickReg_time : ¬ tickReg Reg.CTL_SYS_TIME_LO ∧ ¬ tickReg (Reg.CTL_SYS_TIME_LO + 4) := by unfold tickReg; decide

theorem tickReg_react {a : Nat} (h : reactReg a) : tickReg a := by
  unfold tickReg Reg.CTL_REG_STAT
  unfold reactReg Reg.SAFE_SM_STAT Reg.SAFE_FN_STAT at h
  omega

/-- What moves in a tick. -/
abbrev Ticked (s t : State) : Prop := Frame tickParts tickReg s t

theorem Ticked.refl (s : State) : Ticked s s := Frame.refl tickReg_state s

theorem Reacts.ticked {s t : State} (h : Reacts s t) : Ticked s t := h.frame.widen.mono (fun _ => tickReg_react) tickReg_state

/-! ## Switching periods, ramps and windows -/

theorem Ticked.modGrp {s t : State} (h : Ticked s t) (g : Nat) (f : GroupX → GroupX) : Ticked s (t.modGrp g f) := h.upd rfl

theorem Ticked.modClk {s t : State} (h : Ticked s t) (f : ClkX → ClkX) : Ticked s (t.modClk f) := h.upd rfl

theorem cycReg_range (s : State) (g j : Nat) : 0x300000 ≤ s.cycReg g j := by
  unfold State.cycReg Reg.OUT_G_XCYC_LO Reg.OUT_SPK_CYCP_LO Reg.OUT_SPK_CYCM_LO
  split
  · omega
  · split <;> omega

theorem Ticked.count {s t : State} (h : Ticked s t) (g j n : Nat) :
    Ticked s (if t.legActs g j then t.wr64 (t.cycReg g j) (t.rd64 (t.cycReg g j) + n) else t) := by
  have place := cycReg_range t g j
  exact .ite (h.wr64 (.inl place) (.inl (by omega))) h

theorem Ticked.cycTick {s t : State} (h : Ticked s t) (g k : Nat) : Ticked s (t.cycTick g k) := by
  unfold State.cycTick
  refine .ite h (.ite (h.modGrp g _) (.ite (.ite ((h.modGrp g _).modClk _) (h.modGrp g _)) ?_))
  exact .forEach (fun j _ k => Ticked.count k g j _) (.ite ((h.modGrp g _).modClk _) (h.modGrp g _))

theorem Ticked.rampTick {s t : State} (h : Ticked s t) (k : Nat) : Ticked s (t.rampTick k) := by
  unfold State.rampTick
  cases t.clk.ramp with
  | none => exact h
  | some r =>
    exact .ite h (((h.modClk _).setReg (a := Reg.OUT_SW_FREQI) (.inl (by decide))).trans (Reacts.refl _).showSw.ticked)

theorem Ticked.winTick {s t : State} (h : Ticked s t) (k : Nat) : Ticked s (t.winTick k) := .ite (h.upd rfl) h

theorem Ticked.cvSlew {s t : State} (h : Ticked s t) {n : Nat} (few : n < 4) (k : Nat) : Ticked s (t.cvSlew n k) := by
  unfold State.cvSlew
  have slewed : ∀ f, Ticked s (t.modCv n f) := fun f => h.upd rfl
  exact .ite ((Frame.ite (slewed _) ((slewed _).trans ((Reacts.refl _).cvPut few _).ticked)).trans ((Reacts.refl _).cvSettle few).ticked) h

theorem Ticked.ringStale {s t : State} (h : Ticked s t) : Ticked s t.ringStale := by
  unfold State.ringStale
  exact .forEach (fun p _ k => .ite (k.clr (.inl (show 0x300000 ≤ 0x403010 + 0x4 * p by omega))) k) h

/-! ## A re-plan that has waited -/

theorem Ticked.planFloor {s t : State} (h : Ticked s t) : Ticked s t.planFloor := by
  unfold State.planFloor
  cases t.dMax? with
  | none => exact h
  | some d =>
    have stat : tickReg Reg.SAFE_AGE_STAT := .inl (by decide)
    have shown : ∀ v, Ticked s (t.wr F.SAFE_AGE_STAT_DMAX v) := fun v => h.wr stat
    dsimp only
    refine .ite ?_ (.ite ?_ (shown _))
    · exact (((shown _).set1 (f := F.SAFE_AGE_STAT_FLOOR) stat).trans
        ((toChip_contained _ _).frame.widen.mono (fun _ => tickReg_react) tickReg_state)).raise
    · exact ((shown _).clr (f := F.SAFE_AGE_STAT_FLOOR) stat).faultGone rfl (.inl (by decide)) (.inl (by decide))

theorem Ticked.request {s t : State} (h : Ticked s t) (v : Nat) : Ticked s (t.request v) := by
  have asked : Ticked s (t.modAge fun q => { q with req := some v }) := h.upd rfl
  have shown := (asked.set1 (f := F.CTL_REG_STAT_BUSY) (.inr (.inr (.inr rfl)))).set1 (f := F.SAFE_AGE_STAT_PEND) (.inl (by decide))
  exact .ite shown shown.raise

theorem planReg_range {a : Nat} (h : planReg a) : 0x300000 ≤ a := by
  rcases h with ⟨n, -, rfl⟩ | h | rfl | rfl
  · unfold Reg.SAFE_AGE_DER; omega
  · exact le_trans (by decide) (legReg_range h).1
  · decide
  · decide

theorem Ticked.replan {s t : State} (h : Ticked s t) : Ticked s t.replan := by
  unfold State.replan
  have floor := h.planFloor
  dsimp only
  generalize t.planFloor = z at floor
  cases z.wanted? with
  | some v => exact floor.request v
  | none =>
    exact floor.trans ((planRest_planned z).frame.widen.mono (fun _ r => .inl (planReg_range r)) tickReg_state)

theorem Ticked.planDue {s t : State} (h : Ticked s t) : Ticked s t.planDue := by
  unfold State.planDue
  have cleared : Ticked s (t.modAge fun q => { q with due := false }) := h.upd rfl
  exact .ite cleared.replan h

theorem moves_ticked (s : State) (k : Nat) : Ticked s (s.moves k) := by
  unfold State.moves
  dsimp only
  have cycles := Frame.forEach (n := 3) (fun g _ h => Ticked.cycTick h g k) (Ticked.refl s)
  have slewed := Frame.forEach_lt (n := 4) (fun _ _ lt h => Ticked.cvSlew h lt k) ((Ticked.rampTick cycles k).winTick k)
  exact (Ticked.ringStale slewed).planDue

/-! ## SYSTIME -/

theorem tick_now (s : State) (n : Nat) : (s.tick n).now = (s.now + n) % 2 ^ 64 := State.rd64_wr64_mod s Reg.CTL_SYS_TIME_LO _

/-- A tick moves SYSTIME alone. -/
theorem tick_local (s : State) (n : Nat) : Local {} (fun a => a = Reg.CTL_SYS_TIME_LO ∨ a = Reg.CTL_SYS_TIME_LO + 4) s (s.tick n) :=
  (Local.refl s).wr64 (.inl rfl) (.inr rfl)

theorem Frame.now {m : Parts} {R : Nat → Prop} {s t : State} (h : Frame m R s t) (lo : ¬ R Reg.CTL_SYS_TIME_LO)
    (hi : ¬ R (Reg.CTL_SYS_TIME_LO + 4)) : t.now = s.now := by
  have low := h.reg_steady lo (by decide)
  have high := h.reg_steady hi (by decide)
  unfold State.now State.rd64
  rw [low, high]

theorem takeUnknown_none {s : State} {n : Nat} (none : s.hasPacket n = false) : s.takeUnknown n = s := by
  unfold State.takeUnknown
  dsimp only
  exact if_neg (by simp [none])

theorem idle_brumate {s : State} (runs : s.inReset = false) (state : s.pstate = stBrumate) : s.idle = s.tick 750 := by
  unfold State.idle
  rw [if_neg (by rw [state, runs]; decide), if_pos state]

theorem idle_up {s : State} (runs : s.inReset = false) (state : stIdle ≤ s.pstate) (zero : s.hasPacket 0 = false) (one : s.hasPacket 1 = false) :
    s.idle = (s.moves 1).tick 1 := by
  have three : 3 ≤ s.pstate := state
  have off : s.pstate ≠ stOff := by show s.pstate ≠ 0; omega
  have brumate : s.pstate ≠ stBrumate := by show s.pstate ≠ 1; omega
  have listen : s.pstate ≠ stListen := by show s.pstate ≠ 2; omega
  unfold State.idle
  rw [if_neg (by simp [off, runs]), if_neg brumate, takeUnknown_none one, takeUnknown_none zero]
  exact if_neg listen

/-- Settles O2: what moves in a tick moves neither SYSTIME nor the queue, and SYSTIME then counts. -/
theorem idleStepCountsSystime : Obligations.IdleStepCountsSystime := by
  intro s none
  rw [step_idle none]
  refine ⟨fun held => ?_, fun runs state => ?_, fun runs state zero one => ?_⟩
  · unfold State.idle
    rw [if_pos held.symm]
  · rw [idle_brumate runs state]
    have ticked := tick_local s 750
    exact ⟨_, rfl, tick_now s 750, fun a _ => State.byte_congr ticked.mem a, fun a away => .inl (ticked.regs a away)⟩
  · rw [idle_up runs state zero one]
    have moved := moves_ticked s 1
    obtain ⟨lo, hi⟩ := tickReg_time
    have now : (s.moves 1).now = s.now := moved.now lo hi
    have bytes := moved.bytes
    have queue := moved.queue
    generalize s.moves 1 = u at now bytes queue
    exact ⟨_, rfl, (tick_now u 1).trans (by rw [now]), fun a away => (State.byte_congr (tick_local u 1).mem a).trans (bytes a away),
      (State.wr64_pending u _ _).trans (queue.trans none)⟩

end Sys2Proof.Machine
end

section
/-!
# The slots of the monitoring converters (spec/13_monitoring_converters.md, R594 to R606)
-/

namespace Sys2Proof.Machine

-- One theorem after the other: in one text, theorems that wait for the kernel would each hold a thread.
set_option Elab.async false

/-! ## What a conversion leaves of the sequencer -/

/-- A field beside the role and the counter of waiting requests of either converter. -/
def besidePlan (f : Field) : Prop :=
  ∀ m, m < 2 → Field.apart f (F.SAFE_MADC_STAT_ROLE m) = true ∧ Field.apart f (F.SAFE_MADC_STAT_DEFCNT m) = true

theorem besidePlan_low {f : Field} (low : f.lo + f.width ≤ 16) : besidePlan f := fun m _ =>
  ⟨apart_bits (by omega) (.inr (show f.lo + f.width ≤ 30 by omega)), apart_bits (by omega) (.inr (show f.lo + f.width ≤ 16 from low))⟩

theorem besidePlan_away {f : Field} (away : f.addr < 0x401004 ∨ 0x40100C ≤ f.addr) : besidePlan f := fun m few =>
  ⟨apart_addr (show 0x401004 + 0x4 * m ≠ f.addr by omega), apart_addr (show 0x401004 + 0x4 * m ≠ f.addr by omega)⟩

theorem errSafe_high {a : Nat} (r : a = (errLevel rgSafe).addr) : 0x40100C ≤ a := by rw [r]; decide

theorem errSafe_state : ¬ Reg.PWR_STATE = (errLevel rgSafe).addr := by decide

theorem fnSm_low {a : Nat} (r : a = Reg.SAFE_FN_STAT ∨ a = Reg.SAFE_SM_STAT) : a < 0x401004 := by rcases r with rfl | rfl <;> decide

/-- The codes of a plausibility pair and the count of those outside PTHR shown, PVDD of group 0 measured by both. -/
def State.coded (s : State) (c0 c1 n : Nat) : State :=
  (((s.wr F.SAFE_MADC_PLAUS_CODE0 c0).wr F.SAFE_MADC_PLAUS_CODE1 c1).wr F.SAFE_MADC_PLAUS_DCNT n).pvddMeasured 0 (50 * (c0 + c1)) 8192

/-- PLAUS set on both converters. -/
def State.implausible (s : State) : State := (s.set1 (F.SAFE_MADC_STAT_PLAUS 0)).set1 (F.SAFE_MADC_STAT_PLAUS 1)

/-- MADCPLAUS recorded and the arbitration asked for. -/
def State.doubted (s : State) : State :=
  ((s.fault ⟨0xA01, 0, rgSafe, 3, 0, 0, 0, false, false⟩).begins rgSafe 0xA01 0 0 3).modMadc fun x => { x with arb := true }

/-- How far the codes of a pair differ. -/
def codeGap (c0 c1 : Nat) : Nat := if c0 < c1 then c1 - c0 else c0 - c1

theorem plausible_good {s : State} {c0 c1 : Nat} (near : codeGap c0 c1 ≤ s.pthr) : s.plausible c0 c1 = s.coded c0 c1 0 := by
  have good : decide (s.pthr < codeGap c0 c1) = false := decide_eq_false (Nat.not_lt.2 near)
  unfold codeGap at good
  unfold State.plausible State.coded
  dsimp only
  simp only [good, Bool.false_eq_true, if_false]

/-- A pair outside PTHR, before its arbitration. -/
def State.far (s : State) (c0 c1 : Nat) : State := (s.coded c0 c1 (min 15 (s.rd F.SAFE_MADC_PLAUS_DCNT + 1))).implausible

theorem plausible_bad {s : State} {c0 c1 : Nat} (out : s.chipSafe = false) (far : s.pthr < codeGap c0 c1) :
    s.plausible c0 c1 = if 4 ≤ min 15 (s.rd F.SAFE_MADC_PLAUS_DCNT + 1) ∧ s.madc.arb = false then
      (s.far c0 c1).doubted else s.far c0 c1 := by
  have bad : decide (s.pthr < codeGap c0 c1) = true := decide_eq_true far
  unfold codeGap at bad
  unfold State.plausible
  dsimp only
  simp only [bad, out, if_true, Bool.false_eq_true, if_false]
  rfl

/-- A stretch of a slot before the sequencer goes on: the roles, the counters, the place in the frame and the queues stay. -/
structure Measures (s t : State) : Prop where
  role  : ∀ m, m < 2 → t.mrole m = s.mrole m
  waits : ∀ m, m < 2 → t.rd (F.SAFE_MADC_STAT_DEFCNT m) = s.rd (F.SAFE_MADC_STAT_DEFCNT m)
  slot  : t.madc.slot = s.madc.slot
  queue : t.madc.queue = s.madc.queue

namespace Measures

variable {s t : State}

theorem refl (s : State) : Measures s s := ⟨fun _ _ => rfl, fun _ _ => rfl, rfl, rfl⟩

theorem trans {u : State} (h : Measures s t) (k : Measures t u) : Measures s u :=
  ⟨fun m few => (k.role m few).trans (h.role m few), fun m few => (k.waits m few).trans (h.waits m few), k.slot.trans h.slot,
    k.queue.trans h.queue⟩

theorem wr (h : Measures s t) {f : Field} (v : Nat) (beside : besidePlan f) : Measures s (t.wr f v) :=
  ⟨fun m few => (State.rd_wr_off t v (beside m few).1).trans (h.role m few), fun m few => (State.rd_wr_off t v (beside m few).2).trans (h.waits m few),
    h.slot, h.queue⟩

theorem ite {c : Prop} [Decidable c] {u : State} (h : Measures s t) (k : Measures s u) : Measures s (if c then t else u) := by
  split
  · exact h
  · exact k

theorem beside (h : Measures s t) {u : State} (regs : u.regs = t.regs) (madc : u.madc = t.madc) : Measures s u :=
  h.trans ⟨fun _ _ => State.rd_congr regs _, fun _ _ => State.rd_congr regs _, congrArg MadcX.slot madc, congrArg MadcX.queue madc⟩

theorem frame {m : Parts} {R : Nat → Prop} {u : State} (h : Measures s t) (k : Frame m R t u) (away : ∀ a, R a → a < 0x401004 ∨ 0x40100C ≤ a)
    (other : m.madc = false := by rfl) : Measures s u := by
  have off : ∀ m, m < 2 → ¬ R (0x401004 + 0x4 * m) := fun m few r => by have := away _ r; omega
  have still : ∀ m, m < 2 → steady (0x401004 + 0x4 * m) = true := fun m few => by
    obtain rfl | rfl : m = 0 ∨ m = 1 := by omega
    all_goals decide
  have same : u.madc = t.madc := k.madc other
  exact h.trans ⟨fun m few => k.rd_steady (f := F.SAFE_MADC_STAT_ROLE m) (off m few) (still m few),
    fun m few => k.rd_steady (f := F.SAFE_MADC_STAT_DEFCNT m) (off m few) (still m few),
    congrArg MadcX.slot same, congrArg MadcX.queue same⟩

theorem pvddMeasured (h : Measures s t) {g : Nat} (few : g < 3) (n d : Nat) : Measures s (t.pvddMeasured g n d) := by
  have away : 0x300008 + 0x100 * g < 0x401004 := by omega
  have shown : ∀ ov v, Measures s ((t.modGrp g fun x => { x with ovHeld := ov }).wr (F.OUT_G_STAT_PVDD g) v) := fun ov v =>
    (h.beside (u := t.modGrp g fun x => { x with ovHeld := ov }) rfl rfl).wr v (besidePlan_away (.inl away))
  unfold State.pvddMeasured
  exact .ite ((shown _ _).wr 1 (besidePlan_away (f := F.OUT_G_STAT_PVDDOK g) (.inl away))) (shown _ _)

theorem begins (h : Measures s t) (code sub unit lvl : Nat) : Measures s (t.begins rgSafe code sub unit lvl) :=
  h.frame ((takesUp_takes t _).local'.frame errSafe_state) (fun _ r => .inr (errSafe_high r))

theorem fault (h : Measures s t) (f : FaultInfo) : Measures s (t.fault f) :=
  Measures.frame (u := t.fault f) h (fault_frame t f) (fun _ r => .inl (fnSm_low r))

theorem coded (h : Measures s t) (c0 c1 n : Nat) : Measures s (t.coded c0 c1 n) :=
  Measures.pvddMeasured (((h.wr (f := F.SAFE_MADC_PLAUS_CODE0) c0 (besidePlan_away (.inr (by decide)))).wr (f := F.SAFE_MADC_PLAUS_CODE1) c1
    (besidePlan_away (.inr (by decide)))).wr (f := F.SAFE_MADC_PLAUS_DCNT) n (besidePlan_away (.inr (by decide)))) (by decide) _ _

theorem implausible (h : Measures s t) : Measures s t.implausible :=
  (h.wr (f := F.SAFE_MADC_STAT_PLAUS 0) 1 (besidePlan_low (by show 0 + 1 ≤ 16; decide))).wr (f := F.SAFE_MADC_STAT_PLAUS 1) 1
    (besidePlan_low (by show 0 + 1 ≤ 16; decide))

theorem doubted (h : Measures s t) : Measures s t.doubted :=
  ((h.fault _).begins _ _ _ _).trans ⟨fun _ _ => rfl, fun _ _ => rfl, rfl, rfl⟩

theorem convEnds (h : Measures s t) (m : Nat) (e : Nat × Nat × Nat) {c : MadcConv} (timely : c.late = false) : Measures s (t.convEnds m e c) := by
  have setl : besidePlan (F.SAFE_MADC_STAT_SETL m) := besidePlan_low (by show 1 + 1 ≤ 16; decide)
  have refns : besidePlan (F.SAFE_MADC_STAT_REFNS m) := besidePlan_low (by show 2 + 1 ≤ 16; decide)
  have flagged : ∀ (p q : Prop) [Decidable p] [Decidable q], Measures s (if q then (if p then t.set1 (F.SAFE_MADC_STAT_SETL m) else t).set1
      (F.SAFE_MADC_STAT_REFNS m) else if p then t.set1 (F.SAFE_MADC_STAT_SETL m) else t) := fun p q _ _ => by
    have first : Measures s (if p then t.set1 (F.SAFE_MADC_STAT_SETL m) else t) := .ite (h.wr 1 setl) h
    exact .ite (first.wr 1 refns) first
  unfold State.convEnds
  rw [if_neg (by rw [timely]; decide)]
  refine .ite (flagged _ _) ?_
  split
  next pvdd => exact (flagged _ _).pvddMeasured (by omega) _ _
  next => exact .ite ((flagged _ _).beside rfl rfl) (flagged _ _)

end Measures

/-! ## The sequencer goes on -/

/-- The state registers of the converters. -/
def madcStatReg (a : Nat) : Prop := a = Reg.SAFE_MADC_STAT 0 ∨ a = Reg.SAFE_MADC_STAT 1

theorem madcStatReg_of {m : Nat} (few : m < 2) : madcStatReg (0x401004 + 0x4 * m) := by
  obtain rfl | rfl : m = 0 ∨ m = 1 := by omega
  · exact .inl rfl
  · exact .inr rfl

theorem modMadc_local {R : Nat → Prop} (s : State) (f : MadcX → MadcX) : Local { madc := true } R s (s.modMadc f) := (Local.refl s).upd rfl

theorem showRef_local (s : State) : Local { madc := true } madcStatReg s s.showRef :=
  .forEach (fun _ _ few h => h.wr (madcStatReg_of few)) (.refl s)

theorem showRef_madc (s : State) : s.showRef.madc = s.madc :=
  (Local.forEach (m := {}) (R := fun _ => True) (fun _ _ _ h => h.wr trivial) (.refl s) : Local {} (fun _ => True) s s.showRef).part State.madc

theorem rd_forEach {g : Field} {f : Nat → State → State} (off : ∀ i x, (f i x).rd g = x.rd g) : ∀ (n : Nat) (s : State), (forEach f n s).rd g = s.rd g
  | 0, _ => rfl
  | n + 1, s => (off n _).trans (rd_forEach off n s)

/-- REFON is one bit of its own. -/
theorem showRef_rd {g : Field} (off : g.lo + g.width ≤ 29 ∨ 30 ≤ g.lo) (s : State) : s.showRef.rd g = s.rd g :=
  rd_forEach (fun m x => State.rd_wr_off x _ (f := F.SAFE_MADC_STAT_REFON m) (apart_bits (show 29 + 1 ≤ 32 by decide) off)) 2 s

/-- The next slot of the frame, and the sensor in rotation. -/
def State.turned (s : State) : State := s.modMadc fun x => { x with
  slot := if s.madc.slot = 249 then 0 else x.slot + 1, turn := if s.madc.slot = 249 then (x.turn + 1) % 4 else x.turn }

/-- For how long the reference buffers have been on. -/
def State.warmed (s : State) (w : MadcX → Vector Nat 2) : State := s.modMadc fun x => { x with warm := w x }

theorem warmed_madc (s : State) (w : MadcX → Vector Nat 2) : (s.warmed w).madc.slot = s.madc.slot ∧ (s.warmed w).madc.queue = s.madc.queue ∧
    (s.warmed w).madc.arb = s.madc.arb := ⟨rfl, rfl, rfl⟩

theorem warmed_rd (s : State) (w : MadcX → Vector Nat 2) (g : Field) : (s.warmed w).rd g = s.rd g := rfl

theorem turned_madc (s : State) : s.turned.madc.slot = (if s.madc.slot = 249 then 0 else s.madc.slot + 1) ∧ s.turned.madc.queue = s.madc.queue ∧
    s.turned.madc.arb = s.madc.arb := ⟨rfl, rfl, rfl⟩

theorem turned_rd (s : State) (g : Field) : s.turned.rd g = s.rd g := rfl

theorem slotNext_eq (s : State) : ∃ w, s.slotNext = s.turned.showRef.warmed w := by
  unfold State.slotNext State.turned State.warmed
  dsimp only
  exact ⟨fun x => Vector.ofFn fun m => if s.turned.showRef.on (F.SAFE_MADC_STAT_REFON m.val) then vat x.warm m.val + 1 else 0, rfl⟩

theorem slotNext_local (s : State) : Local { madc := true } madcStatReg s s.slotNext := by
  obtain ⟨w, eq⟩ := slotNext_eq s
  rw [eq]
  exact ((modMadc_local s _).trans (showRef_local _)).trans (modMadc_local _ _)

theorem slotNext_madc (s : State) : s.slotNext.madc.slot = (if s.madc.slot = 249 then 0 else s.madc.slot + 1) ∧
    s.slotNext.madc.queue = s.madc.queue ∧ s.slotNext.madc.arb = s.madc.arb := by
  obtain ⟨w, eq⟩ := slotNext_eq s
  obtain ⟨slot, queue, arb⟩ := warmed_madc s.turned.showRef w
  obtain ⟨slot', queue', arb'⟩ := turned_madc s
  rw [eq, slot, queue, arb, showRef_madc, slot', queue', arb']
  exact ⟨rfl, rfl, rfl⟩

theorem slotNext_rd {g : Field} (off : g.lo + g.width ≤ 29 ∨ 30 ≤ g.lo) (s : State) : s.slotNext.rd g = s.rd g := by
  obtain ⟨w, eq⟩ := slotNext_eq s
  rw [eq, warmed_rd, showRef_rd off, turned_rd]

/-- The queue of a converter after its slot. -/
def State.queueAfter (s : State) (m : Nat) (conv : Option ((Nat × Nat × Nat) × Option Nat)) (new : List MadcReq) : List MadcWait :=
  afterSlot (conv.bind (·.2)) (vat s.madc.queue m) new

/-- A converter's queue, and the inputs last converted. -/
def State.queued (s : State) (m : Nat) (q : List MadcWait) (prev : Vector (Nat × Nat) 2) : State :=
  s.modMadc fun x => { x with queue := vmod x.queue m (fun _ => q), prev := prev }

/-- The requests of a queue that have now waited more than one frame. -/
def overdue (q : List MadcWait) : Nat := (q.filter fun w => w.waited = 251).length

theorem slotOver_eq {s : State} {m : Nat} (serves : s.serves m = true) (conv : Option ((Nat × Nat × Nat) × Option Nat)) (new : List MadcReq) :
    ∃ prev, s.slotOver m conv new = (s.queued m (s.queueAfter m conv new) prev).sat (F.SAFE_MADC_STAT_DEFCNT m) (overdue (s.queueAfter m conv new)) := by
  unfold State.slotOver
  rw [if_neg (by rw [serves]; decide)]
  exact ⟨_, rfl⟩

theorem slotOver_local {s : State} {m : Nat} (few : m < 2) (serves : s.serves m = true) (conv : Option ((Nat × Nat × Nat) × Option Nat))
    (new : List MadcReq) : Local { madc := true } madcStatReg s (s.slotOver m conv new) := by
  obtain ⟨prev, eq⟩ := slotOver_eq serves conv new
  rw [eq]
  exact (modMadc_local s _).sat (madcStatReg_of few)

/-- A converter's slot over: its own queue and counter move, the other converter's do not. -/
theorem slotOver_madc {s : State} {m : Nat} (few : m < 2) (serves : s.serves m = true) (conv : Option ((Nat × Nat × Nat) × Option Nat))
    (new : List MadcReq) :
    let t := s.slotOver m conv new
    vat t.madc.queue m = s.queueAfter m conv new ∧ (∀ j, j ≠ m → vat t.madc.queue j = vat s.madc.queue j) ∧ t.madc.slot = s.madc.slot ∧
      t.rd (F.SAFE_MADC_STAT_DEFCNT m) = min 255 (s.rd (F.SAFE_MADC_STAT_DEFCNT m) + overdue (s.queueAfter m conv new)) ∧
      (∀ g : Field, Field.apart (F.SAFE_MADC_STAT_DEFCNT m) g = true → t.rd g = s.rd g) ∧ t.madc.arb = s.madc.arb := by
  obtain ⟨prev, eq⟩ := slotOver_eq serves conv new
  dsimp only
  rw [eq]
  refine ⟨?_, fun j other => ?_, rfl, ?_, fun g off => (s.queued m _ prev).rd_sat_off _ off, rfl⟩
  · rw [State.sat_madc]
    exact vat_vmod_same _ _ few
  · rw [State.sat_madc]
    exact vat_vmod_ne _ _ other
  · exact State.rd_sat_same _ _ (show 16 + 8 ≤ 32 by decide)

/-- A slot's end on both converters. -/
def State.slotsOver (s : State) (k0 k1 : Option ((Nat × Nat × Nat) × Option Nat)) (r0 r1 : List MadcReq) : State :=
  ((s.slotOver 0 k0 r0).slotOver 1 k1 r1).slotNext

theorem serves_of {s t : State} {m : Nat} (h : t.mrole m = s.mrole m) : t.serves m = s.serves m := by
  unfold State.serves
  rw [h]

section
variable {s : State} (first : s.serves 0 = true) (second : s.serves 1 = true) (k0 k1 : Option ((Nat × Nat × Nat) × Option Nat)) (r0 r1 : List MadcReq)
include first second

theorem slotOver_serves : (s.slotOver 0 k0 r0).serves 1 = true := by
  obtain ⟨-, -, -, -, other, -⟩ := slotOver_madc (by decide) first k0 r0
  have role : (s.slotOver 0 k0 r0).mrole 1 = s.mrole 1 := other (F.SAFE_MADC_STAT_ROLE 1) (by decide)
  exact (serves_of role).trans second

theorem slotsOver_local : Local { madc := true } madcStatReg s (s.slotsOver k0 k1 r0 r1) :=
  ((slotOver_local (by decide) first k0 r0).trans (slotOver_local (by decide) (slotOver_serves first second k0 r0) k1 r1)).trans (slotNext_local _)

theorem slotsOver_slot : (s.slotsOver k0 k1 r0 r1).madc.slot = (if s.madc.slot = 249 then 0 else s.madc.slot + 1) ∧
    (s.slotsOver k0 k1 r0 r1).madc.arb = s.madc.arb := by
  obtain ⟨-, -, slot, -, -, arb⟩ := slotOver_madc (by decide) first k0 r0
  obtain ⟨-, -, slot', -, -, arb'⟩ := slotOver_madc (by decide) (slotOver_serves first second k0 r0) k1 r1
  obtain ⟨next, -, same⟩ := slotNext_madc ((s.slotOver 0 k0 r0).slotOver 1 k1 r1)
  rw [slot', slot] at next
  exact ⟨next, same.trans (arb'.trans arb)⟩

theorem slotsOver_rd {g : Field} (off : g.lo + g.width ≤ 16 ∨ 30 ≤ g.lo) : (s.slotsOver k0 k1 r0 r1).rd g = s.rd g := by
  have apart : ∀ m, Field.apart (F.SAFE_MADC_STAT_DEFCNT m) g = true := fun m => apart_bits (show 16 + 8 ≤ 32 by decide) (by
    show g.lo + g.width ≤ 16 ∨ 16 + 8 ≤ g.lo
    omega)
  obtain ⟨-, -, -, -, rd, -⟩ := slotOver_madc (by decide) first k0 r0
  obtain ⟨-, -, -, -, rd', -⟩ := slotOver_madc (by decide) (slotOver_serves first second k0 r0) k1 r1
  exact (slotNext_rd (by omega) _).trans ((rd' g (apart 1)).trans (rd g (apart 0)))

theorem slotsOver_queue (k : Fin 2) :
    vat (s.slotsOver k0 k1 r0 r1).madc.queue k.val = s.queueAfter k.val (if k.val = 0 then k0 else k1) (if k.val = 0 then r0 else r1) ∧
      (s.slotsOver k0 k1 r0 r1).rd (F.SAFE_MADC_STAT_DEFCNT k.val) = min 255 (s.rd (F.SAFE_MADC_STAT_DEFCNT k.val) +
        overdue (s.queueAfter k.val (if k.val = 0 then k0 else k1) (if k.val = 0 then r0 else r1))) := by
  obtain ⟨own, other, -, count, rd, -⟩ := slotOver_madc (by decide) first k0 r0
  obtain ⟨own', other', -, count', rd', -⟩ := slotOver_madc (by decide) (slotOver_serves first second k0 r0) k1 r1
  obtain ⟨-, queue, -⟩ := slotNext_madc ((s.slotOver 0 k0 r0).slotOver 1 k1 r1)
  have counts : ∀ m, (s.slotsOver k0 k1 r0 r1).rd (F.SAFE_MADC_STAT_DEFCNT m) = ((s.slotOver 0 k0 r0).slotOver 1 k1 r1).rd (F.SAFE_MADC_STAT_DEFCNT m) :=
    fun m => slotNext_rd (.inl (show 16 + 8 ≤ 29 by decide)) _
  have queues : ∀ m, vat (s.slotsOver k0 k1 r0 r1).madc.queue m = vat ((s.slotOver 0 k0 r0).slotOver 1 k1 r1).madc.queue m := fun m =>
    congrArg (fun q => vat q m) queue
  have same : (s.slotOver 0 k0 r0).queueAfter 1 k1 r1 = s.queueAfter 1 k1 r1 := by
    unfold State.queueAfter
    rw [other 1 (by decide)]
  obtain ⟨k, lt⟩ := k
  obtain rfl | rfl : k = 0 ∨ k = 1 := by omega
  · exact ⟨(queues 0).trans ((other' 0 (by decide)).trans own), (counts 0).trans ((rd' _ (by decide)).trans count)⟩
  · refine ⟨(queues 1).trans (own'.trans same), (counts 1).trans (count'.trans ?_)⟩
    rw [same, rd (F.SAFE_MADC_STAT_DEFCNT 1) (by decide)]
    rfl

end

end Sys2Proof.Machine
end

section
/-!
# MADC_SLOT (spec/13_monitoring_converters.md, R592 to R608)
-/

namespace Sys2Proof.Machine

-- One theorem after the other: in one text, theorems that wait for the kernel would each hold a thread.
set_option Elab.async false

/-- What a slot's conversion on one converter does. -/
def State.convTaken (s : State) (m : Nat) (conv : Option ((Nat × Nat × Nat) × Option Nat)) (c : MadcConv) : State :=
  (conv.map fun e => s.convEnds m e.1 c).getD s

/-- A slot's end with what both converters were at. -/
def State.slotDone (s z : State) (a0 a1 : MadcConv) : State :=
  z.slotsOver (s.slotConv 0) (s.slotConv 1) (s.slotReqs 0 (s.slotConv 0) a0) (s.slotReqs 1 (s.slotConv 1) a1)

section
variable {s : State} {a0 a1 : MadcConv}

theorem plausEnds_timely (first : s.serves 0 = true) (second : s.serves 1 = true) (t0 : a0.late = false) (t1 : a1.late = false) :
    s.plausEnds a0 a1 = s.plausible (madcCode a0.volts) (madcCode a1.volts) := by
  unfold State.plausEnds
  dsimp only
  rw [if_neg (by rw [t0, t1]; simp), if_pos ⟨first, second⟩]

theorem madcSlot_pair (pair : s.madc.slot % 10 = 0) (first : s.serves 0 = true) (second : s.serves 1 = true) (t0 : a0.late = false)
    (t1 : a1.late = false) :
    exec (.madcSlot (a0, a1)) s = .next (s.slotDone (s.plausible (madcCode a0.volts) (madcCode a1.volts)) a0 a1) := by
  show execMadcSlot (a0, a1) s = _
  unfold execMadcSlot
  dsimp only
  rw [if_pos pair, plausEnds_timely first second t0 t1]
  unfold State.slotDone State.slotsOver
  cases s.slotConv 0 <;> cases s.slotConv 1 <;> simp only [if_pos pair]

theorem madcSlot_conv (other : s.madc.slot % 10 ≠ 0) :
    exec (.madcSlot (a0, a1)) s = .next (s.slotDone ((s.convTaken 0 (s.slotConv 0) a0).convTaken 1 (s.slotConv 1) a1) a0 a1) := by
  show execMadcSlot (a0, a1) s = _
  unfold execMadcSlot
  dsimp only
  rw [if_neg other]
  unfold State.slotDone State.slotsOver State.convTaken
  cases s.slotConv 0 <;> cases s.slotConv 1 <;> simp only [if_neg other, Option.map_some, Option.map_none, Option.getD_some, Option.getD_none]

end

/-! ## Conversions -/

theorem convTaken_measures {s z : State} (h : Measures s z) (m : Nat) (conv : Option ((Nat × Nat × Nat) × Option Nat)) {c : MadcConv}
    (timely : c.late = false) : Measures s (z.convTaken m conv c) := by
  unfold State.convTaken
  cases conv with
  | none => exact h
  | some e => exact h.convEnds m e.1 timely

theorem pvddMeasured_local (s : State) (g n d : Nat) : Local { groups := true } (· = Reg.OUT_G_STAT g) s (s.pvddMeasured g n d) := by
  have shown : ∀ f v, Local { groups := true } (· = Reg.OUT_G_STAT g) s ((s.modGrp g f).wr (F.OUT_G_STAT_PVDD g) v) := fun f v =>
    Local.wr (f := F.OUT_G_STAT_PVDD g) ((Local.refl s).upd rfl) rfl
  unfold State.pvddMeasured
  exact .ite ((shown _ _).set1 (f := F.OUT_G_STAT_PVDDOK g) rfl) (shown _ _)

theorem pvddMeasured_spks (s : State) (g n d : Nat) : (s.pvddMeasured g n d).spks = s.spks := (pvddMeasured_local s g n d).part State.spks

/-- A conversion's flags. -/
def State.convFlagged (s : State) (m : Nat) (setl ns : Bool) : State :=
  let s1 := if setl then s.set1 (F.SAFE_MADC_STAT_SETL m) else s
  if ns then s1.set1 (F.SAFE_MADC_STAT_REFNS m) else s1

theorem convFlagged_spks (s : State) (m : Nat) (setl ns : Bool) : (s.convFlagged m setl ns).spks = s.spks := by
  have first : Local {} (fun _ => True) s (if setl then s.set1 (F.SAFE_MADC_STAT_SETL m) else s) := .ite ((Local.refl s).set1 trivial) (.refl s)
  exact (Local.ite (first.set1 trivial) first : Local {} (fun _ => True) s (s.convFlagged m setl ns)).part State.spks

/-- A timely conversion by its flags. -/
theorem convEnds_timely (s : State) (m : Nat) (e : Nat × Nat × Nat) {c : MadcConv} (timely : c.late = false) :
    let setl := decide (e.2 ≠ vat s.madc.prev m) && decide (c.settle < 17)
    let ns := s.on F.SAFE_MADC_CFG_REFMODE && decide (c.bufOn < 336)
    s.convEnds m e c = if setl ∨ ns ∨ e.1 ≠ 1 then s.convFlagged m setl ns
      else if e.2.1 = 1 ∨ e.2.1 = 2 then (s.convFlagged m setl ns).pvddMeasured e.2.1 (50 * madcCode c.volts) 4096
      else if 3 ≤ e.2.1 ∧ e.2.1 ≤ 14 then (s.convFlagged m setl ns).modSpk (e.2.1 - 3) fun x =>
        { x with amps := if madcCode c.volts < 2048 then 2048 - madcCode c.volts else madcCode c.volts - 2048 }
      else s.convFlagged m setl ns := by
  intro setl ns
  unfold State.convEnds
  dsimp only
  rw [if_neg (by rw [timely]; decide)]
  rfl

/-- A settled protection conversion of a channel's current shows it. -/
theorem convEnds_amps {s : State} {m : Nat} {e : Nat × Nat × Nat} {c : MadcConv} (timely : c.late = false) (settle : 17 ≤ c.settle)
    (buf : 336 ≤ c.bufOn) (client : e.1 = 1) (n : Fin 12) (input : e.2.1 = 3 + n.val) :
    ((s.convEnds m e c).spk n.val).amps = (if madcCode c.volts < 2048 then 2048 - madcCode c.volts else madcCode c.volts - 2048) := by
  have setl : decide (c.settle < 17) = false := decide_eq_false (Nat.not_lt.2 settle)
  have ns : decide (c.bufOn < 336) = false := decide_eq_false (Nat.not_lt.2 buf)
  have place : e.2.1 - 3 = n.val := by omega
  have eq := convEnds_timely s m e timely
  dsimp only at eq
  rw [eq, setl, ns, Bool.and_false, Bool.and_false, if_neg (by simp [client]), if_neg (by omega), if_pos (by omega), place, spk_modSpk_same _ _ n.isLt]

/-- A conversion of another input leaves a channel's current. -/
theorem convEnds_other {s : State} {m : Nat} {e : Nat × Nat × Nat} {c : MadcConv} (timely : c.late = false) {n : Nat} (input : e.2.1 ≠ 3 + n) :
    (s.convEnds m e c).spk n = s.spk n := by
  have flags : ∀ p q : Bool, (s.convFlagged m p q).spk n = s.spk n := fun p q => spk_congr (convFlagged_spks s m p q) n
  rw [convEnds_timely s m e timely]
  split
  · exact flags _ _
  · split
    · exact (spk_congr (pvddMeasured_spks _ _ _ _) n).trans (flags _ _)
    · split
      · exact (spk_modSpk_ne _ _ (by omega)).trans (flags _ _)
      · exact flags _ _

theorem convTaken_other {s : State} {m : Nat} {conv : Option ((Nat × Nat × Nat) × Option Nat)} {c : MadcConv} (timely : c.late = false) {n : Nat}
    (input : ∀ f, conv = some f → f.1.2.1 ≠ 3 + n) : (s.convTaken m conv c).spk n = s.spk n := by
  unfold State.convTaken
  cases conv with
  | none => rfl
  | some e => exact convEnds_other timely (input e rfl)

theorem convTaken_amps {s : State} {m : Nat} {e : (Nat × Nat × Nat) × Option Nat} {c : MadcConv} (timely : c.late = false) (settle : 17 ≤ c.settle)
    (buf : 336 ≤ c.bufOn) (client : e.1.1 = 1) (n : Fin 12) (input : e.1.2.1 = 3 + n.val) :
    ((s.convTaken m (some e) c).spk n.val).amps = (if madcCode c.volts < 2048 then 2048 - madcCode c.volts else madcCode c.volts - 2048) :=
  convEnds_amps timely settle buf client n input

/-! ## A slot -/

section
variable {s : State} {a0 a1 : MadcConv} (first : s.serves 0 = true) (second : s.serves 1 = true)
include first second

theorem slotDone_local {z : State} (h : Measures s z) : Local { madc := true } madcStatReg z (s.slotDone z a0 a1) :=
  slotsOver_local ((serves_of (h.role 0 (by decide))).trans first) ((serves_of (h.role 1 (by decide))).trans second) _ _ _ _

theorem slotDone_madc {z : State} (h : Measures s z) (k : Fin 2) :
    (s.slotDone z a0 a1).madc.slot = (if s.madc.slot = 249 then 0 else s.madc.slot + 1) ∧
    vat (s.slotDone z a0 a1).madc.queue k.val = afterSlot ((s.slotConv k.val).bind (·.2)) (vat s.madc.queue k.val)
      (s.slotReqs k.val (s.slotConv k.val) (if k.val = 0 then a0 else a1)) ∧
    (s.slotDone z a0 a1).rd (F.SAFE_MADC_STAT_DEFCNT k.val) = min (s.rd (F.SAFE_MADC_STAT_DEFCNT k.val) +
      ((vat (s.slotDone z a0 a1).madc.queue k.val).filter fun w => w.waited = 251).length) (2 ^ (F.SAFE_MADC_STAT_DEFCNT k.val).width - 1) := by
  have zero := (serves_of (h.role 0 (by decide))).trans first
  have one := (serves_of (h.role 1 (by decide))).trans second
  have slot := (slotsOver_slot zero one (s.slotConv 0) (s.slotConv 1) (s.slotReqs 0 (s.slotConv 0) a0) (s.slotReqs 1 (s.slotConv 1) a1)).1
  obtain ⟨queue, count⟩ := slotsOver_queue zero one (s.slotConv 0) (s.slotConv 1) (s.slotReqs 0 (s.slotConv 0) a0) (s.slotReqs 1 (s.slotConv 1) a1) k
  have waits := h.waits k.val k.isLt
  have own : z.queueAfter k.val (if k.val = 0 then s.slotConv 0 else s.slotConv 1)
      (if k.val = 0 then s.slotReqs 0 (s.slotConv 0) a0 else s.slotReqs 1 (s.slotConv 1) a1) =
      afterSlot ((s.slotConv k.val).bind (·.2)) (vat s.madc.queue k.val) (s.slotReqs k.val (s.slotConv k.val) (if k.val = 0 then a0 else a1)) := by
    unfold State.queueAfter
    rw [h.queue]
    obtain ⟨k, lt⟩ := k
    obtain rfl | rfl : k = 0 ∨ k = 1 := by omega
    · rfl
    · rfl
  refine ⟨slot.trans (by rw [h.slot]), queue.trans own, count.trans ?_⟩
  have here : vat (s.slotDone z a0 a1).madc.queue k.val = _ := queue
  rw [here, waits]
  exact Nat.min_comm _ _

end

/-! ## A plausibility pair -/

theorem Local.widen {m m' : Parts} {R : Nat → Prop} {s t : State} (h : Local m R s t)
    (wider : ∀ u v : State, u.but m' (u.but m v) = u.but m' v := by intros; rfl) : Local m' R s t := by
  refine ⟨h.regs, h.mem, h.pap, h.poison, ?_⟩
  have e := congrArg (State.but m' s) h.rest
  rw [wider, State.but_self] at e
  exact e

theorem Local.pairOnly {R : Nat → Prop} {s t : State} (h : Local { groups := true, madc := true } R s t) :
    { t with regs := s.regs, madc := s.madc, groups := s.groups } = s := h.exact

/-- The registers that a plausibility slot moves. -/
def pairReg (a : Nat) : Prop :=
  a = Reg.SAFE_MADC_PLAUS ∨ a = Reg.OUT_G_STAT 0 ∨ a = Reg.SAFE_MADC_STAT 0 ∨ a = Reg.SAFE_MADC_STAT 1

theorem madcCode_lt (uv : Nat) : madcCode uv < 2 ^ 12 := by unfold madcCode; omega

/-- The codes and the count of a pair. -/
theorem coded_shows (s : State) {c0 c1 n : Nat} (lt0 : c0 < 2 ^ 12) (lt1 : c1 < 2 ^ 12) (few : n < 2 ^ 4) :
    (s.coded c0 c1 n).rd F.SAFE_MADC_PLAUS_DCNT = n ∧ (s.coded c0 c1 n).rd F.SAFE_MADC_PLAUS_CODE0 = c0 ∧
      (s.coded c0 c1 n).rd F.SAFE_MADC_PLAUS_CODE1 = c1 := by
  have code1 : (((s.wr F.SAFE_MADC_PLAUS_CODE0 c0).wr F.SAFE_MADC_PLAUS_CODE1 c1).wr F.SAFE_MADC_PLAUS_DCNT n).rd F.SAFE_MADC_PLAUS_CODE1 = c1 :=
    (State.rd_wr_off _ n).trans (State.rd_wr_fits _ (by decide) lt1)
  have code0 : (((s.wr F.SAFE_MADC_PLAUS_CODE0 c0).wr F.SAFE_MADC_PLAUS_CODE1 c1).wr F.SAFE_MADC_PLAUS_DCNT n).rd F.SAFE_MADC_PLAUS_CODE0 = c0 :=
    (State.rd_wr_off _ n).trans ((State.rd_wr_off _ c1).trans (State.rd_wr_fits _ (by decide) lt0))
  have count : (((s.wr F.SAFE_MADC_PLAUS_CODE0 c0).wr F.SAFE_MADC_PLAUS_CODE1 c1).wr F.SAFE_MADC_PLAUS_DCNT n).rd F.SAFE_MADC_PLAUS_DCNT = n :=
    State.rd_wr_fits _ (by decide) few
  unfold State.coded
  generalize ((s.wr F.SAFE_MADC_PLAUS_CODE0 c0).wr F.SAFE_MADC_PLAUS_CODE1 c1).wr F.SAFE_MADC_PLAUS_DCNT n = z at code0 code1 count
  have measured := pvddMeasured_local z 0 (50 * (c0 + c1)) 8192
  have away : ¬ Reg.SAFE_MADC_PLAUS = Reg.OUT_G_STAT 0 := by decide
  exact ⟨(measured.rd (f := F.SAFE_MADC_PLAUS_DCNT) away).trans count, (measured.rd (f := F.SAFE_MADC_PLAUS_CODE0) away).trans code0,
    (measured.rd (f := F.SAFE_MADC_PLAUS_CODE1) away).trans code1⟩

theorem coded_local (s : State) (c0 c1 n : Nat) : Local { groups := true } pairReg s (s.coded c0 c1 n) := by
  have codes : Local { groups := true } pairReg s
      (((s.wr F.SAFE_MADC_PLAUS_CODE0 c0).wr F.SAFE_MADC_PLAUS_CODE1 c1).wr F.SAFE_MADC_PLAUS_DCNT n) :=
    (((Local.refl s).wr (f := F.SAFE_MADC_PLAUS_CODE0) (.inl rfl)).wr (f := F.SAFE_MADC_PLAUS_CODE1) (.inl rfl)).wr (f := F.SAFE_MADC_PLAUS_DCNT)
      (.inl rfl)
  exact codes.trans ((pvddMeasured_local _ 0 _ _).mono fun _ r => .inr (.inl r))

theorem implausible_local (s : State) : Local { groups := true } pairReg s s.implausible :=
  ((Local.refl s).set1 (f := F.SAFE_MADC_STAT_PLAUS 0) (.inr (.inr (.inl rfl)))).set1 (f := F.SAFE_MADC_STAT_PLAUS 1) (.inr (.inr (.inr rfl)))

theorem implausible_shows (s : State) (k : Fin 2) : s.implausible.on (F.SAFE_MADC_STAT_PLAUS k.val) = true := by
  obtain ⟨k, lt⟩ := k
  obtain rfl | rfl : k = 0 ∨ k = 1 := by omega
  · have kept := (s.set1 (F.SAFE_MADC_STAT_PLAUS 0)).on_set1_off (f := F.SAFE_MADC_STAT_PLAUS 1) (g := F.SAFE_MADC_STAT_PLAUS 0) (by decide)
    exact kept.trans (State.on_set1_same s)
  · exact State.on_set1_same (s.set1 (F.SAFE_MADC_STAT_PLAUS 0))

theorem doubted_frame (s : State) : Frame { saf := true, draw := true, madc := true }
    (fun a => (a = Reg.SAFE_FN_STAT ∨ a = Reg.SAFE_SM_STAT) ∨ a = (errLevel rgSafe).addr) s s.doubted := by
  have away : ¬ ((Reg.PWR_STATE = Reg.SAFE_FN_STAT ∨ Reg.PWR_STATE = Reg.SAFE_SM_STAT) ∨ Reg.PWR_STATE = (errLevel rgSafe).addr) := by decide
  have faulted := (fault_frame s ⟨0xA01, 0, rgSafe, 3, 0, 0, 0, false, false⟩).widen (m' := { saf := true, draw := true, madc := true })
  have begun := ((takesUp_takes (s.fault ⟨0xA01, 0, rgSafe, 3, 0, 0, 0, false, false⟩)
    ⟨rgSafe, 0xA01, 0, 0, 3, (s.fault ⟨0xA01, 0, rgSafe, 3, 0, 0, 0, false, false⟩).now, false, false, 0⟩).local'.frame errSafe_state).widen
      (m' := { saf := true, draw := true, madc := true })
  exact ((faulted.mono (fun _ r => .inl r) away).trans (begun.mono (fun _ r => .inr r) away)).upd rfl

/-- The arbitration asked for, and its record. -/
theorem doubted_asks (s : State) : s.doubted.madc.arb = true ∧ ∃ r ∈ s.doubted.saf.recs, r.code = 0xA01 ∧ r.unit = 0 := by
  refine ⟨rfl, ?_⟩
  obtain ⟨r, mem, place⟩ := fault_here s ⟨0xA01, 0, rgSafe, 3, 0, 0, 0, false, false⟩
  have taken := takesUp_takes (s.fault ⟨0xA01, 0, rgSafe, 3, 0, 0, 0, false, false⟩)
    ⟨rgSafe, 0xA01, 0, 0, 3, (s.fault ⟨0xA01, 0, rgSafe, 3, 0, 0, 0, false, false⟩).now, false, false, 0⟩
  have recs := congrArg Saf.recs taken.saf
  refine ⟨r, ?_, place⟩
  exact recs ▸ mem

/-- What the request for an arbitration leaves of the pair shown. -/
theorem doubted_shows {s : State} {n : Nat} {k : Fin 2} (count : s.rd F.SAFE_MADC_PLAUS_DCNT = n)
    (flag : s.on (F.SAFE_MADC_STAT_PLAUS k.val) = true) :
    s.doubted.rd F.SAFE_MADC_PLAUS_DCNT = n ∧ s.doubted.on (F.SAFE_MADC_STAT_PLAUS k.val) = true := by
  have frame := doubted_frame s
  have away : ∀ k : Fin 2, ¬ ((Reg.SAFE_MADC_STAT k.val = Reg.SAFE_FN_STAT ∨ Reg.SAFE_MADC_STAT k.val = Reg.SAFE_SM_STAT) ∨
      Reg.SAFE_MADC_STAT k.val = (errLevel rgSafe).addr) ∧ steady (Reg.SAFE_MADC_STAT k.val) = true := by decide
  exact ⟨(frame.rd_steady (f := F.SAFE_MADC_PLAUS_DCNT) (by decide) (by decide)).trans count,
    (frame.on_steady (f := F.SAFE_MADC_STAT_PLAUS k.val) (away k).1 (away k).2).trans flag⟩

theorem plausible_measures {s : State} (out : s.chipSafe = false) (c0 c1 : Nat) : Measures s (s.plausible c0 c1) := by
  by_cases near : codeGap c0 c1 ≤ s.pthr
  · rw [plausible_good near]
    exact (Measures.refl s).coded _ _ _
  · rw [plausible_bad out (Nat.lt_of_not_le near)]
    exact .ite ((Measures.refl s).coded _ _ _).implausible.doubted ((Measures.refl s).coded _ _ _).implausible

/-! ## What MADC_SLOT leaves -/

section
variable {s : State} {a0 a1 : MadcConv} (first : s.serves 0 = true) (second : s.serves 1 = true) (t0 : a0.late = false) (t1 : a1.late = false)
include first second t0 t1

theorem madcSlot_sequences (out : s.chipSafe = false) (k : Fin 2) : ∃ t, exec (.madcSlot (a0, a1)) s = .next t ∧
    t.madc.slot = (if s.madc.slot = 249 then 0 else s.madc.slot + 1) ∧
    vat t.madc.queue k.val = afterSlot ((s.slotConv k.val).bind (·.2)) (vat s.madc.queue k.val)
      (s.slotReqs k.val (s.slotConv k.val) (if k.val = 0 then a0 else a1)) ∧
    t.rd (F.SAFE_MADC_STAT_DEFCNT k.val) = min (s.rd (F.SAFE_MADC_STAT_DEFCNT k.val) + ((vat t.madc.queue k.val).filter fun w => w.waited = 251).length)
      (2 ^ (F.SAFE_MADC_STAT_DEFCNT k.val).width - 1) := by
  by_cases pair : s.madc.slot % 10 = 0
  · exact ⟨_, madcSlot_pair pair first second t0 t1, slotDone_madc first second (plausible_measures out _ _) k⟩
  · exact ⟨_, madcSlot_conv pair, slotDone_madc first second (convTaken_measures (convTaken_measures (.refl s) 0 _ t0) 1 _ t1) k⟩

theorem madcSlot_amps {n : Fin 12} {k : Fin 2} {c : Nat} (code : c = if k.val = 0 then madcCode a0.volts else madcCode a1.volts) {e : (Nat × Nat × Nat) × Option Nat}
    (settled : 17 ≤ a0.settle ∧ 17 ≤ a1.settle ∧ 336 ≤ a0.bufOn ∧ 336 ≤ a1.bufOn) (pair : s.madc.slot % 10 ≠ 0)
    (conv : s.slotConv k.val = some e) (client : e.1.1 = 1) (input : e.1.2.1 = 3 + n.val)
    (alone : ∀ f, s.slotConv (1 - k.val) = some f → f.1.2.1 ≠ 3 + n.val) :
    ∃ t, exec (.madcSlot (a0, a1)) s = .next t ∧ (t.spk n.val).amps = (if c < 2048 then 2048 - c else c - 2048) := by
  obtain ⟨s0, s1, b0, b1⟩ := settled
  have same := (slotDone_local (a0 := a0) (a1 := a1) first second
    (convTaken_measures (convTaken_measures (.refl s) 0 (s.slotConv 0) t0) 1 (s.slotConv 1) t1)).part State.spks
  refine ⟨_, madcSlot_conv pair, (congrArg SpkX.amps (spk_congr same n.val)).trans ?_⟩
  obtain ⟨k, lt⟩ := k
  obtain rfl | rfl : k = 0 ∨ k = 1 := by omega
  · have own : s.slotConv 0 = some e := conv
    rw [convTaken_other t1 (conv := s.slotConv 1) alone, own, show c = madcCode a0.volts from code.trans (if_pos rfl)]
    exact convTaken_amps t0 s0 b0 client n input
  · have own : s.slotConv 1 = some e := conv
    rw [own, show c = madcCode a1.volts from code.trans (if_neg (show ¬ (1 : Nat) = 0 by decide))]
    exact convTaken_amps t1 s1 b1 client n input

omit t0 t1 in
/-- Where a plausibility slot asks for nothing it moves its own registers, the sequencer and PVDD of group 0. -/
theorem slotDone_pair {z : State} (h : Measures s z) (pair : Local { groups := true } pairReg s z) :
    SameRegsBut (fun a => a = Reg.SAFE_MADC_PLAUS ∨ a = Reg.OUT_G_STAT 0 ∨ a = Reg.SAFE_MADC_STAT 0 ∨ a = Reg.SAFE_MADC_STAT 1) s
      (s.slotDone z a0 a1) ∧
    { s.slotDone z a0 a1 with regs := s.regs, madc := s.madc, groups := s.groups } = s := by
  have ended := (slotDone_local (a0 := a0) (a1 := a1) first second h).mono (R' := pairReg) fun _ r => .inr (.inr r)
  have whole : Local { groups := true, madc := true } pairReg s (s.slotDone z a0 a1) :=
    pair.widen.trans ended.widen
  exact ⟨fun a away => .inl (whole.regs a away), whole.pairOnly⟩

theorem madcSlot_near (pair : s.madc.slot % 10 = 0) (near : codeGap (madcCode a0.volts) (madcCode a1.volts) ≤ s.pthr) :
    ∃ t, exec (.madcSlot (a0, a1)) s = .next t ∧ t.rd F.SAFE_MADC_PLAUS_DCNT = 0 ∧ t.rd F.SAFE_MADC_PLAUS_CODE0 = madcCode a0.volts ∧
      t.rd F.SAFE_MADC_PLAUS_CODE1 = madcCode a1.volts ∧
      SameRegsBut (fun a => a = Reg.SAFE_MADC_PLAUS ∨ a = Reg.OUT_G_STAT 0 ∨ a = Reg.SAFE_MADC_STAT 0 ∨ a = Reg.SAFE_MADC_STAT 1) s t ∧
      { t with regs := s.regs, madc := s.madc, groups := s.groups } = s := by
  have run := madcSlot_pair pair first second t0 t1
  rw [plausible_good near] at run
  have measured := (Measures.refl s).coded (madcCode a0.volts) (madcCode a1.volts) 0
  have ended := slotDone_local (a0 := a0) (a1 := a1) first second measured
  obtain ⟨count, code0, code1⟩ := coded_shows s (madcCode_lt a0.volts) (madcCode_lt a1.volts) (show 0 < 2 ^ 4 by decide)
  have away : ¬ madcStatReg Reg.SAFE_MADC_PLAUS := by unfold madcStatReg; decide
  exact ⟨_, run, (ended.rd (f := F.SAFE_MADC_PLAUS_DCNT) away).trans count, (ended.rd (f := F.SAFE_MADC_PLAUS_CODE0) away).trans code0,
    (ended.rd (f := F.SAFE_MADC_PLAUS_CODE1) away).trans code1, slotDone_pair first second measured (coded_local s _ _ _)⟩

omit first second t0 t1 in
theorem far_shows (s : State) {c0 c1 : Nat} (lt0 : c0 < 2 ^ 12) (lt1 : c1 < 2 ^ 12) (k : Fin 2) :
    (s.far c0 c1).rd F.SAFE_MADC_PLAUS_DCNT = min 15 (s.rd F.SAFE_MADC_PLAUS_DCNT + 1) ∧ (s.far c0 c1).on (F.SAFE_MADC_STAT_PLAUS k.val) = true ∧
      Measures s (s.far c0 c1) ∧ Local { groups := true } pairReg s (s.far c0 c1) := by
  obtain ⟨count, -, -⟩ := coded_shows s lt0 lt1 (show min 15 (s.rd F.SAFE_MADC_PLAUS_DCNT + 1) < 2 ^ 4 by omega)
  refine ⟨Eq.trans ?_ count, implausible_shows _ k, ((Measures.refl s).coded _ _ _).implausible, (coded_local s _ _ _).trans (implausible_local _)⟩
  exact (State.rd_set1_off _ (f := F.SAFE_MADC_STAT_PLAUS 1) (by decide)).trans (State.rd_set1_off _ (f := F.SAFE_MADC_STAT_PLAUS 0) (by decide))

omit first second t0 t1 in
theorem slotDone_shows {z : State} {n : Nat} {k : Fin 2} (ended : Local { madc := true } madcStatReg z (s.slotDone z a0 a1))
    (rd : ∀ g : Field, g.lo + g.width ≤ 16 → (s.slotDone z a0 a1).rd g = z.rd g) (count : z.rd F.SAFE_MADC_PLAUS_DCNT = n)
    (flag : z.on (F.SAFE_MADC_STAT_PLAUS k.val) = true) : (s.slotDone z a0 a1).rd F.SAFE_MADC_PLAUS_DCNT = n ∧
      (s.slotDone z a0 a1).on (F.SAFE_MADC_STAT_PLAUS k.val) = true := by
  have away : ¬ madcStatReg Reg.SAFE_MADC_PLAUS := by unfold madcStatReg; decide
  refine ⟨(ended.rd (f := F.SAFE_MADC_PLAUS_DCNT) away).trans count, Eq.trans ?_ flag⟩
  exact congrArg (fun n => decide (n = 1)) (rd (F.SAFE_MADC_STAT_PLAUS k.val) (show 0 + 1 ≤ 16 by decide))

theorem madcSlot_far (out : s.chipSafe = false) (k : Fin 2) (pair : s.madc.slot % 10 = 0)
    (far : s.pthr < codeGap (madcCode a0.volts) (madcCode a1.volts)) : ∃ t, exec (.madcSlot (a0, a1)) s = .next t ∧
      t.rd F.SAFE_MADC_PLAUS_DCNT = min 15 (s.rd F.SAFE_MADC_PLAUS_DCNT + 1) ∧ t.on (F.SAFE_MADC_STAT_PLAUS k.val) = true ∧
      (3 ≤ s.rd F.SAFE_MADC_PLAUS_DCNT → s.madc.arb = false → t.madc.arb = true ∧ ∃ r ∈ t.saf.recs, r.code = 0xA01 ∧ r.unit = 0) ∧
      (s.rd F.SAFE_MADC_PLAUS_DCNT < 3 →
        SameRegsBut (fun a => a = Reg.SAFE_MADC_PLAUS ∨ a = Reg.OUT_G_STAT 0 ∨ a = Reg.SAFE_MADC_STAT 0 ∨ a = Reg.SAFE_MADC_STAT 1) s t ∧
        { t with regs := s.regs, madc := s.madc, groups := s.groups } = s) := by
  have run := madcSlot_pair pair first second t0 t1
  rw [plausible_bad out far] at run
  obtain ⟨count, flag, measured, moved⟩ := far_shows s (madcCode_lt a0.volts) (madcCode_lt a1.volts) k
  have rds : ∀ z, Measures s z → ∀ g : Field, g.lo + g.width ≤ 16 → (s.slotDone z a0 a1).rd g = z.rd g := fun z h g low =>
    slotsOver_rd ((serves_of (h.role 0 (by decide))).trans first) ((serves_of (h.role 1 (by decide))).trans second) _ _ _ _ (.inl low)
  by_cases ask : 4 ≤ min 15 (s.rd F.SAFE_MADC_PLAUS_DCNT + 1) ∧ s.madc.arb = false
  · rw [if_pos ask] at run
    have asked : Measures s (s.far (madcCode a0.volts) (madcCode a1.volts)).doubted := measured.doubted
    have frame := doubted_frame (s.far (madcCode a0.volts) (madcCode a1.volts))
    have ended := slotDone_local (a0 := a0) (a1 := a1) first second asked
    obtain ⟨arb, r, mem, place⟩ := doubted_asks (s.far (madcCode a0.volts) (madcCode a1.volts))
    obtain ⟨count', flag'⟩ := doubted_shows count flag
    have arb' := (slotsOver_slot ((serves_of (asked.role 0 (by decide))).trans first) ((serves_of (asked.role 1 (by decide))).trans second)
      (s.slotConv 0) (s.slotConv 1) (s.slotReqs 0 (s.slotConv 0) a0) (s.slotReqs 1 (s.slotConv 1) a1)).2
    have saf := ended.part State.saf
    obtain ⟨count'', flag''⟩ := slotDone_shows (k := k) ended (rds _ asked) count' flag'
    have many : 3 ≤ s.rd F.SAFE_MADC_PLAUS_DCNT := by omega
    exact ⟨_, run, count'', flag'', fun _ _ => ⟨arb'.trans arb, r, by rw [saf]; exact mem, place⟩, fun few => absurd many (Nat.not_le.2 few)⟩
  · rw [if_neg ask] at run
    have ended := slotDone_local (a0 := a0) (a1 := a1) first second measured
    obtain ⟨count', flag'⟩ := slotDone_shows (k := k) ended (rds _ measured) count flag
    exact ⟨_, run, count', flag', fun many free => absurd ⟨by omega, free⟩ ask, fun _ => slotDone_pair first second measured moved⟩

end

end Sys2Proof.Machine
end

section
/-!
# Failure, arbitration and failover of the monitoring converters (spec/13_monitoring_converters.md, R602 to R610)
-/

namespace Sys2Proof.Machine

-- One theorem after the other: in one text, theorems that wait for the kernel would each hold a thread.
set_option Elab.async false

/-! ## A failed converter -/

/-- A converter out of service. -/
def State.outOfService (s : State) (m : Nat) : State := (s.wr (F.SAFE_MADC_STAT_ROLE m) rlFailed).showRef

/-- MADCFAIL of a converter, at the level of its region. -/
def madcFault (m : Nat) : FaultInfo := ⟨0xA02, 0, rgSafe, 3, 0, m, 0, false, false⟩

/-- The failover of a converter asked for. -/
def State.failoverAsked (s : State) (m : Nat) : State :=
  ((s.fault (madcFault m)).begins rgSafe 0xA02 0 m 3).modMadc fun x => { x with plan := true }

theorem madcDrop_eq {s : State} (idle : s.madc.tdac = none) (m : Nat) : s.madcDrop m =
    if (s.outOfService m).serves (1 - m) ∧ s.mrole m ≠ rlSole then (s.outOfService m).failoverAsked m
    else (s.outOfService m).toChipAs .o (madcFault m) := by
  have calm : (s.madc.tdac.any fun t => decide (t.1 = m)) = false := by rw [idle]; rfl
  unfold State.madcDrop
  simp only [calm, Bool.false_eq_true, if_false]
  rfl

theorem madcFails_drops {s : State} (out : s.chipSafe = false) (free : s.handling rgSafe = false) (m : Nat) : s.madcFails m = s.madcDrop m := by
  unfold State.madcFails
  rw [if_neg (by rw [out]; decide), if_neg (by rw [free]; decide)]

theorem outOfService_local (s : State) {m : Nat} (few : m < 2) : Local { madc := true } madcStatReg s (s.outOfService m) :=
  ((Local.refl s).wr (f := F.SAFE_MADC_STAT_ROLE m) (madcStatReg_of few)).trans (showRef_local _)

theorem outOfService_madc (s : State) (m : Nat) : (s.outOfService m).madc = s.madc := (showRef_madc _).trans (State.wr_madc s _ _)

theorem outOfService_role (s : State) (m : Nat) : (s.outOfService m).mrole m = rlFailed :=
  (showRef_rd (g := F.SAFE_MADC_STAT_ROLE m) (.inr (Nat.le_refl 30)) _).trans
    (State.rd_wr_fits s (f := F.SAFE_MADC_STAT_ROLE m) (show 30 + 2 ≤ 32 by decide) (show 2 < 2 ^ 2 by decide))

theorem outOfService_rd {s : State} {m : Nat} {g : Field} (beside : g.lo + g.width ≤ 29 ∨ (30 ≤ g.lo ∧ g.addr ≠ 0x401004 + 0x4 * m)) :
    (s.outOfService m).rd g = s.rd g := by
  have apart : Field.apart (F.SAFE_MADC_STAT_ROLE m) g = true := by
    rcases beside with low | ⟨-, other⟩
    · exact apart_bits (show 30 + 2 ≤ 32 by decide) (.inl (show g.lo + g.width ≤ 30 by omega))
    · exact apart_addr other
  exact (showRef_rd (by omega) _).trans (State.rd_wr_off s _ apart)

/-- MADCFAIL, recorded or taken to chip level, leaves the converters' registers. -/
structure FailTold (s t : State) : Prop where
  stat : ∀ g : Field, (g.addr = 0x401004 ∨ g.addr = 0x401008) → t.rd g = s.rd g
  arb  : t.madc.arb = s.madc.arb

theorem failoverAsked_frame (s : State) (m : Nat) : Frame { saf := true, draw := true, madc := true }
    (fun a => (a = Reg.SAFE_FN_STAT ∨ a = Reg.SAFE_SM_STAT) ∨ a = (errLevel rgSafe).addr) s (s.failoverAsked m) := by
  have away : ¬ ((Reg.PWR_STATE = Reg.SAFE_FN_STAT ∨ Reg.PWR_STATE = Reg.SAFE_SM_STAT) ∨ Reg.PWR_STATE = (errLevel rgSafe).addr) := by decide
  have faulted := (fault_frame s (madcFault m)).widen (m' := { saf := true, draw := true, madc := true })
  have begun := ((takesUp_takes (s.fault (madcFault m))
    ⟨rgSafe, 0xA02, 0, m, 3, (s.fault (madcFault m)).now, false, false, 0⟩).local'.frame errSafe_state).widen
      (m' := { saf := true, draw := true, madc := true })
  exact ((faulted.mono (fun _ r => .inl r) away).trans (begun.mono (fun _ r => .inr r) away)).upd rfl

theorem Frame.told {m : Parts} {R : Nat → Prop} {s t : State} (h : Frame m R s t) (away : ¬ R 0x401004 ∧ ¬ R 0x401008) (g : Field)
    (place : g.addr = 0x401004 ∨ g.addr = 0x401008) : t.rd g = s.rd g := by
  rcases place with at4 | at8
  · exact h.rd_steady (by rw [at4]; exact away.1) (by rw [at4]; decide)
  · exact h.rd_steady (by rw [at8]; exact away.2) (by rw [at8]; decide)

theorem failoverAsked_told (s : State) (m : Nat) : FailTold s (s.failoverAsked m) := by
  refine ⟨(failoverAsked_frame s m).told (by decide), ?_⟩
  have faulted : (s.fault (madcFault m)).madc = s.madc := (fault_frame s (madcFault m)).madc
  have begun := (takesUp_takes (s.fault (madcFault m)) ⟨rgSafe, 0xA02, 0, m, 3, (s.fault (madcFault m)).now, false, false, 0⟩).local'.part State.madc
  exact (congrArg MadcX.arb begun).trans (congrArg MadcX.arb faulted)

theorem reactReg_madc : ¬ reactReg 0x401004 ∧ ¬ reactReg 0x401008 := by unfold reactReg; decide

theorem toChipAs_told (s : State) (m : Nat) : FailTold s (s.toChipAs .o (madcFault m)) :=
  ⟨(toChipAs_contained s .o (madcFault m)).frame.told reactReg_madc, congrArg MadcX.arb (toChipAs_contained s .o (madcFault m)).frame.madc⟩

theorem failoverAsked_records (s : State) (m : Nat) : ∃ r ∈ (s.failoverAsked m).saf.recs, r.code = 0xA02 ∧ r.unit = m := by
  obtain ⟨r, mem, place⟩ := fault_here s (madcFault m)
  have recs := congrArg Saf.recs (takesUp_takes (s.fault (madcFault m)) ⟨rgSafe, 0xA02, 0, m, 3, (s.fault (madcFault m)).now, false, false, 0⟩).saf
  exact ⟨r, recs ▸ mem, place⟩

theorem failoverAsked_plan (s : State) (m : Nat) : (s.failoverAsked m).madc.plan = true := rfl

/-- A failed converter's registers: out of service, its TDAC error and the other converter's role as they were. -/
theorem madcDrop_fails {s : State} (idle : s.madc.tdac = none) {m : Nat} (few : m < 2) : (s.madcDrop m).mrole m = rlFailed ∧
    (s.madcDrop m).on (F.SAFE_MADC_STAT_TDACERR m) = s.on (F.SAFE_MADC_STAT_TDACERR m) ∧
    (s.madcDrop m).mrole (1 - m) = s.mrole (1 - m) ∧ (s.madcDrop m).madc.arb = s.madc.arb := by
  have told : FailTold (s.outOfService m) (s.madcDrop m) := by
    rw [madcDrop_eq idle]
    split
    · exact failoverAsked_told _ m
    · exact toChipAs_told _ m
  have here : ∀ j, j < 2 → 0x401004 + 0x4 * j = 0x401004 ∨ 0x401004 + 0x4 * j = 0x401008 := fun j lt => by omega
  refine ⟨(told.stat _ (here m few)).trans (outOfService_role s m), ?_, (told.stat _ (here (1 - m) (by omega))).trans ?_,
    told.arb.trans (congrArg MadcX.arb (outOfService_madc s m))⟩
  · exact congrArg (fun n => decide (n = 1)) ((told.stat (F.SAFE_MADC_STAT_TDACERR m) (here m few)).trans
      (outOfService_rd (.inl (show 3 + 1 ≤ 29 by decide))))
  · exact outOfService_rd (.inr ⟨Nat.le_refl 30, (show 0x401004 + 0x4 * (1 - m) ≠ 0x401004 + 0x4 * m by omega)⟩)

theorem outOfService_serves {s : State} {m : Nat} (few : m < 2) : (s.outOfService m).serves (1 - m) = s.serves (1 - m) :=
  serves_of (outOfService_rd (.inr ⟨Nat.le_refl 30, (show 0x401004 + 0x4 * (1 - m) ≠ 0x401004 + 0x4 * m by omega)⟩))

/-- With the other converter in service the failover is asked for. -/
theorem madcDrop_asks {s : State} (idle : s.madc.tdac = none) {m : Nat} (few : m < 2) (other : s.serves (1 - m) = true) (one : s.mrole m ≠ rlSole) :
    s.madcDrop m = (s.outOfService m).failoverAsked m := by
  rw [madcDrop_eq idle, if_pos ⟨(outOfService_serves few).trans other, one⟩]

theorem madcDrop_sole {s : State} (idle : s.madc.tdac = none) {m : Nat} (sole : s.mrole m = rlSole) :
    (s.madcDrop m).rd F.SAFE_SM_STAT_CSS = 2 := by
  rw [madcDrop_eq idle, if_neg (fun k => k.2 sole)]
  exact (react_o_holds _ _ _ _ _).1

end Sys2Proof.Machine
end

section
/-!
# Arbitration, failover, core test and reference check (spec/13_monitoring_converters.md, R602, R604, R607 to R610)
-/

namespace Sys2Proof.Machine

-- One theorem after the other: in one text, theorems that wait for the kernel would each hold a thread.
set_option Elab.async false

theorem chipSafe_congr {s t : State} (css : t.rd F.SAFE_SM_STAT_CSS = s.rd F.SAFE_SM_STAT_CSS) : t.chipSafe = s.chipSafe := by
  unfold State.chipSafe
  rw [css]

theorem handling_congr {s t : State} (work : t.saf.work = s.saf.work) (region : Nat) : t.handling region = s.handling region := by
  unfold State.handling
  rw [work]

theorem tdacEnd_none {s : State} (idle : s.madc.tdac = none) (st d : Nat) : s.tdacEnd st d = s := by
  unfold State.tdacEnd
  rw [idle]

/-! ## MADC_CORE_TEST -/

/-- A failed core test shown. -/
def State.coreBad (s : State) (m : Nat) : State := s.set1 (F.SAFE_MADC_STAT_TDACERR m)

theorem coreBad_local (s : State) {m : Nat} (few : m < 2) : Local {} madcStatReg s (s.coreBad m) :=
  (Local.refl s).set1 (f := F.SAFE_MADC_STAT_TDACERR m) (madcStatReg_of few)

theorem coreBad_shows (s : State) (m : Nat) : (s.coreBad m).on (F.SAFE_MADC_STAT_TDACERR m) = true :=
  State.on_set1_same s (show 3 + 1 ≤ 32 ∧ 0 < 1 by decide)

theorem coreBad_role (s : State) (m j : Nat) : (s.coreBad m).mrole j = s.mrole j :=
  State.rd_set1_off s (f := F.SAFE_MADC_STAT_TDACERR m) (apart_bits (show 3 + 1 ≤ 32 by decide) (.inr (show 3 + 1 ≤ 30 by decide)))

theorem coreBad_css (s : State) {m : Nat} (few : m < 2) : (s.coreBad m).rd F.SAFE_SM_STAT_CSS = s.rd F.SAFE_SM_STAT_CSS :=
  (coreBad_local s few).rd (by unfold madcStatReg; decide)

theorem failoverAsked_css (s : State) (m : Nat) : (s.failoverAsked m).rd F.SAFE_SM_STAT_CSS = s.rd F.SAFE_SM_STAT_CSS := by
  have faulted := ((Reacts.refl s).fault (madcFault m)).css
  have taken := (takesUp_takes (s.fault (madcFault m)) ⟨rgSafe, 0xA02, 0, m, 3, (s.fault (madcFault m)).now, false, false, 0⟩).local'
  exact (taken.rd (f := F.SAFE_SM_STAT_CSS) (show ¬ Reg.SAFE_SM_STAT = (errLevel rgSafe).addr by decide)).trans faulted

theorem outOfService_css (s : State) {m : Nat} (few : m < 2) : (s.outOfService m).rd F.SAFE_SM_STAT_CSS = s.rd F.SAFE_SM_STAT_CSS :=
  (outOfService_local s few).rd (by unfold madcStatReg; decide)

theorem madcCoreTest_fails {s : State} (m : Fin 2) {low high : Nat} (out : s.chipSafe = false) (idle : s.madc.tdac = none)
    (serves : s.serves m.val = true) (bad : coreOk low high = false) (free : s.handling rgSafe = false) :
    ∃ t, exec (.madcCoreTest m low high) s = .next t ∧ (t.mrole m.val = rlFailed ∧ t.on (F.SAFE_MADC_STAT_TDACERR m.val) = true) ∧
      (s.mrole (1 - m.val) = rlNormal → s.mrole m.val ≠ rlSole → t.madc.plan = true ∧ t.rd F.SAFE_SM_STAT_CSS = 0) ∧
      (s.mrole m.val = rlSole → t.rd F.SAFE_SM_STAT_CSS = 2) := by
  have css := coreBad_css s m.isLt
  have role := coreBad_role s m.val
  have run : exec (.madcCoreTest m low high) s = .next ((s.coreBad m.val).madcDrop m.val) := by
    show execMadcCoreTest m low high s = _
    unfold execMadcCoreTest
    rw [if_neg (by rw [serves, bad]; simp)]
    exact congrArg Host.Outcome.next (madcFails_drops (s := s.coreBad m.val) ((chipSafe_congr css).trans out)
      ((handling_congr (congrArg Saf.work (State.set1_saf s _)) rgSafe).trans free) m.val)
  have calm : (s.coreBad m.val).madc.tdac = none := (congrArg MadcX.tdac (State.set1_madc s _)).trans idle
  obtain ⟨failed, err, -, -⟩ := madcDrop_fails calm m.isLt
  refine ⟨_, run, ⟨failed, err.trans (coreBad_shows s m.val)⟩, fun other sole => ?_, fun sole => madcDrop_sole calm ((role m.val).trans sole)⟩
  have up : (s.coreBad m.val).serves (1 - m.val) = true := by
    unfold State.serves
    rw [role, other]
    decide
  rw [madcDrop_asks calm m.isLt up (by rw [role]; exact sole)]
  refine ⟨rfl, (failoverAsked_css _ _).trans ((outOfService_css _ m.isLt).trans (css.trans ?_))⟩
  unfold State.chipSafe at out
  simpa using out

/-! ## MREF_CHECK -/

theorem mrefCheck_fails (s : State) (m : Fin 2) : ∃ t, exec (.mrefCheck m false) s = .next t ∧ t.on F.SAFE_MADC_CFG_REFMODE = true ∧
    t.on (F.SAFE_MADC_STAT_REFFB m.val) = true ∧ ∃ r ∈ t.saf.recs, r.code = 0xA03 ∧ r.unit = m.val := by
  let u := (s.set1 F.SAFE_MADC_CFG_REFMODE).set1 (F.SAFE_MADC_STAT_REFFB m.val)
  let f : FaultInfo := ⟨0xA03, 0, rgSafe, 3, 0, m.val, 0, false, false⟩
  have run : exec (.mrefCheck m false) s = .next ((u.showRef.fault f).repCount rgSafe) := rfl
  have far : 0x401000 ≠ 0x401004 + 0x4 * m.val := by omega
  have mode : u.showRef.on F.SAFE_MADC_CFG_REFMODE = true :=
    ((showRef_local u).on (by unfold madcStatReg; decide)).trans ((State.on_set1_off _ (f := F.SAFE_MADC_STAT_REFFB m.val) (apart_addr far)).trans
      (State.on_set1_same s))
  have fb : u.showRef.on (F.SAFE_MADC_STAT_REFFB m.val) = true :=
    (congrArg (fun n => decide (n = 1)) (showRef_rd (g := F.SAFE_MADC_STAT_REFFB m.val) (.inl (show 28 + 1 ≤ 29 by decide)) u)).trans
      (State.on_set1_same _ (show 28 + 1 ≤ 32 ∧ 0 < 1 by decide))
  refine ⟨_, run, ?_⟩
  generalize u.showRef = z at mode fb
  have counted := repCount_local (z.fault f) rgSafe
  have told := fault_frame z f
  obtain ⟨r, mem, place⟩ := fault_here z f
  have away : ∀ m : Fin 2, ¬ (Reg.SAFE_MADC_STAT m.val = Reg.SAFE_FN_STAT ∨ Reg.SAFE_MADC_STAT m.val = Reg.SAFE_SM_STAT) ∧
      Reg.SAFE_MADC_STAT m.val ≠ (errLevel rgSafe).addr ∧ steady (Reg.SAFE_MADC_STAT m.val) = true := by decide
  obtain ⟨fn, err, still⟩ := away m
  refine ⟨(counted.on (f := F.SAFE_MADC_CFG_REFMODE) (by decide)).trans ((told.on_steady (f := F.SAFE_MADC_CFG_REFMODE) (by decide) (by decide)).trans mode),
    (counted.on (f := F.SAFE_MADC_STAT_REFFB m.val) err).trans ((told.on_steady (f := F.SAFE_MADC_STAT_REFFB m.val) fn still).trans fb),
    r, by rw [repCount_saf]; exact mem, place⟩

/-! ## MADC_ARBITRATE -/

/-- The arbitration's work is over. -/
def State.arbitrated (s : State) : State := (s.modMadc fun x => { x with arb := false }).ends rgSafe 0xA01 0 0

theorem ends_work (s : State) (region code sub unit : Nat) :
    (s.ends region code sub unit).saf.work = s.saf.work.filter fun w => !w.isFor region code sub unit := by
  rw [ends_eq, level_saf]
  rfl

/-- Where nothing but a fault was dealt with in a region, its end leaves the handler free. -/
theorem ends_free {s : State} {region code sub unit : Nat} (alone : ∀ w ∈ s.saf.work, w.region = region → w.isFor region code sub unit = true) :
    (s.ends region code sub unit).handling region = false := by
  unfold State.handling
  rw [ends_work, List.any_eq_false]
  intro w mem
  obtain ⟨old, gone⟩ := List.mem_filter.1 mem
  intro busy
  simp only [Bool.and_eq_true, decide_eq_true_eq] at busy
  rw [alone w old busy.1.1.1] at gone
  exact absurd gone (by decide)

theorem arbitrated_local (s : State) : Local { saf := true, madc := true } (· = (errLevel rgSafe).addr) s s.arbitrated :=
  (modMadc_local s fun x => { x with arb := false }).widen.trans (ends_ended _ rgSafe 0xA01 0 0).local'.widen

theorem arbitrated_madc (s : State) : s.arbitrated.madc = { s.madc with arb := false } :=
  (ends_ended (s.modMadc fun x => { x with arb := false }) rgSafe 0xA01 0 0).local'.part State.madc

theorem arbitrated_rd {s : State} {g : Field} (away : g.addr ≠ (errLevel rgSafe).addr) : s.arbitrated.rd g = s.rd g := (arbitrated_local s).rd away

theorem madcNext_busy {s : State} (busy : s.handling rgSafe = true) : s.madcNext = s := by
  unfold State.madcNext
  split
  · exact if_pos busy
  · rfl

theorem madcStat_calm (j : Nat) (few : j < 2) : 0x401004 + 0x4 * j ≠ (errLevel rgSafe).addr := by
  obtain rfl | rfl : j = 0 ∨ j = 1 := by omega
  all_goals decide

/-- With its fault taken up the handler is at work. -/
theorem failoverAsked_busy {s : State} (out : s.chipSafe = false) (m : Nat) : (s.failoverAsked m).handling rgSafe = true := by
  have css : (s.fault (madcFault m)).rd F.SAFE_SM_STAT_CSS = s.rd F.SAFE_SM_STAT_CSS := ((Reacts.refl s).fault (madcFault m)).css
  have mem := (takesUp_takes (s.fault (madcFault m)) ⟨rgSafe, 0xA02, 0, m, 3, (s.fault (madcFault m)).now, false, false, 0⟩).work
    ((chipSafe_congr css).trans out)
  unfold State.handling
  exact List.any_eq_true.2 ⟨_, mem, rfl⟩

section
variable {s : State} (out : s.chipSafe = false) (idle : s.madc.tdac = none) (asked : s.madc.arb = true)
  (work : s.saf.work.any (fun w => w.isFor rgSafe 0xA01 0 0) = true)
include asked work

theorem madcArbitrate_differ {l0 h0 l1 h1 : Nat} {k : Fin 2} (differ : coreOk l0 h0 ≠ coreOk l1 h1)
    (bad : coreOk (if k.val = 0 then l0 else l1) (if k.val = 0 then h0 else h1) = false) :
    exec (.madcArbitrate l0 h0 l1 h1) s = .next (((s.arbitrated.coreBad k.val).madcFails k.val).madcNext) := by
  show execMadcArbitrate l0 h0 l1 h1 s = _
  unfold execMadcArbitrate
  dsimp only
  rw [if_neg (by rw [asked, work]; simp)]
  obtain ⟨k, lt⟩ := k
  obtain rfl | rfl : k = 0 ∨ k = 1 := by omega
  · have bad0 : coreOk l0 h0 = false := bad
    have good1 : coreOk l1 h1 = true := by
      rw [bad0] at differ
      exact Bool.eq_true_of_not_eq_false fun e => differ e.symm
    simp only [bad0, good1]
    rfl
  · have bad1 : coreOk l1 h1 = false := bad
    have good0 : coreOk l0 h0 = true := by
      rw [bad1] at differ
      exact Bool.eq_true_of_not_eq_false differ
    simp only [bad1, good0]
    rfl

include out idle in
theorem madcArbitrate_fails {l0 h0 l1 h1 : Nat} {k : Fin 2} (alone : ∀ w ∈ s.saf.work, w.region = rgSafe → w.isFor rgSafe 0xA01 0 0 = true)
    (n0 : s.mrole 0 = rlNormal) (n1 : s.mrole 1 = rlNormal) (differ : coreOk l0 h0 ≠ coreOk l1 h1)
    (bad : coreOk (if k.val = 0 then l0 else l1) (if k.val = 0 then h0 else h1) = false) :
    ∃ t, exec (.madcArbitrate l0 h0 l1 h1) s = .next t ∧ (t.mrole k.val = rlFailed ∧ t.on (F.SAFE_MADC_STAT_TDACERR k.val) = true) ∧
      t.mrole (1 - k.val) = rlNormal ∧ t.madc.arb = false ∧ t.madc.plan = true ∧ ∃ r ∈ t.saf.recs, r.code = 0xA02 ∧ r.unit = k.val := by
  have run := madcArbitrate_differ asked work differ bad
  have normal : ∀ j, j < 2 → s.mrole j = rlNormal := fun j few => by
    obtain rfl | rfl : j = 0 ∨ j = 1 := by omega
    · exact n0
    · exact n1
  have role : ∀ j, j < 2 → (s.arbitrated.coreBad k.val).mrole j = rlNormal := fun j few =>
    (coreBad_role _ _ j).trans ((arbitrated_rd (madcStat_calm j few)).trans (normal j few))
  have css : (s.arbitrated.coreBad k.val).rd F.SAFE_SM_STAT_CSS = s.rd F.SAFE_SM_STAT_CSS :=
    (coreBad_css _ k.isLt).trans (arbitrated_rd (by decide))
  have shown := coreBad_shows s.arbitrated k.val
  have madc : (s.arbitrated.coreBad k.val).madc = { s.madc with arb := false } := (State.set1_madc _ _).trans (arbitrated_madc s)
  have free : (s.arbitrated.coreBad k.val).handling rgSafe = false :=
    (handling_congr (congrArg Saf.work (State.set1_saf _ _)) rgSafe).trans (ends_free alone)
  generalize s.arbitrated.coreBad k.val = u at run role css shown madc free
  have out' : u.chipSafe = false := (chipSafe_congr css).trans out
  have calm : u.madc.tdac = none := (congrArg MadcX.tdac madc).trans idle
  have up : u.serves (1 - k.val) = true := by
    unfold State.serves
    rw [role _ (by omega)]
    decide
  have plain : u.mrole k.val ≠ rlSole := by rw [role _ k.isLt]; decide
  obtain ⟨failed, err, other, arb⟩ := madcDrop_fails calm k.isLt
  rw [madcFails_drops out' free] at run
  have eq := madcDrop_asks calm k.isLt up plain
  have busy := failoverAsked_busy (s := u.outOfService k.val) ((chipSafe_congr (outOfService_css u k.isLt)).trans out') k.val
  rw [← eq] at busy
  rw [madcNext_busy busy] at run
  refine ⟨_, run, ⟨failed, err.trans shown⟩, other.trans (role _ (by omega)), arb.trans (congrArg MadcX.arb madc), ?_⟩
  rw [eq]
  exact ⟨failoverAsked_plan _ _, failoverAsked_records _ _⟩

theorem madcArbitrate_safe (idle : s.madc.tdac = none) {l0 h0 l1 h1 : Nat} (same : coreOk l0 h0 = coreOk l1 h1) :
    ∃ t, exec (.madcArbitrate l0 h0 l1 h1) s = .next t ∧ t.rd F.SAFE_SM_STAT_CSS = 2 ∧ t.madc.arb = false := by
  have run : ∃ u : State, u.madc = { s.madc with arb := false } ∧
      exec (.madcArbitrate l0 h0 l1 h1) s = .next ((u.toChip ⟨0xA01, 0, rgSafe, 4, 0, 0, 0, false, false⟩).tdacEnd stsOk 0) := by
    have both : ∀ x y : Bool, ((if y then (if x then s.arbitrated.coreBad 0 else s.arbitrated).coreBad 1
        else if x then s.arbitrated.coreBad 0 else s.arbitrated)).madc = { s.madc with arb := false } := fun x y => by
      cases x <;> cases y <;> exact arbitrated_madc s
    refine ⟨_, both (!coreOk l0 h0) (!coreOk l1 h1), ?_⟩
    show execMadcArbitrate l0 h0 l1 h1 s = _
    unfold execMadcArbitrate
    dsimp only
    rw [if_neg (by rw [asked, work]; simp), if_neg (by rw [same]; simp)]
    rfl
  obtain ⟨u, madc, eq⟩ := run
  have kept : (u.toChip ⟨0xA01, 0, rgSafe, 4, 0, 0, 0, false, false⟩).madc = u.madc := (toChip_contained u _).frame.madc
  rw [tdacEnd_none ((congrArg MadcX.tdac (kept.trans madc)).trans idle)] at eq
  exact ⟨_, eq, (react_o_holds _ _ _ _ _).1, congrArg MadcX.arb (kept.trans madc)⟩

end

/-! ## MADC_FAILOVER -/

theorem biasRamp_local (s : State) (n : Nat) : Local { inp := true } (· = Reg.IN_FE_STAT) s (s.biasRamp n) := by
  have place : ∀ f, Local { inp := true } (· = Reg.IN_FE_STAT) s (s.modInp f) := fun f => (Local.refl s).upd rfl
  unfold State.biasRamp
  refine .ite (.refl s) ((place _).set1 ?_)
  by_cases first : n = 0
  · rw [if_pos first]
    rfl
  · rw [if_neg first]
    rfl

theorem jackBias_local (s : State) (n : Option (Fin 2)) : Local { inp := true } (· = Reg.IN_FE_STAT) s (s.jackBias n) :=
  (((Local.refl s).upd rfl : Local { inp := true } (· = Reg.IN_FE_STAT) s (s.modInp fun i => { i with jackOn := n })).trans (biasRamp_local _ 0)).trans
    (biasRamp_local _ 1)

/-- The next frame starts with converter `m` alone, which takes over what waits at the other for protection. -/
def State.takenOver (s : State) (m : Nat) : State :=
  (s.modMadc fun x => { x with
    plan := false, odd := 0, slot := 0
    queue := vmod (vmod x.queue m fun _ => []) (1 - m) (· ++ (vat s.madc.queue m).filter fun w => w.req.client = .protection) }).wr
      (F.SAFE_MADC_STAT_ROLE (1 - m)) rlSole

/-- The fault of converter `m` over, with host reads and load tests suspended. -/
def State.soleNow (s : State) (m : Nat) : State :=
  (((s.takenOver m).repaired rgSafe 0xA02 0 m).set1 (F.SAFE_MADC_STAT_SUSP 0)).set1 (F.SAFE_MADC_STAT_SUSP 1)

theorem takenOver_madc (s : State) (m : Nat) : (s.takenOver m).madc.plan = false ∧ (s.takenOver m).madc.odd = 0 ∧ (s.takenOver m).madc.slot = 0 ∧
    (s.takenOver m).madc.tdac = s.madc.tdac := ⟨rfl, rfl, rfl, rfl⟩

theorem takenOver_role (s : State) (m : Nat) : (s.takenOver m).mrole (1 - m) = rlSole :=
  State.rd_wr_fits _ (f := F.SAFE_MADC_STAT_ROLE (1 - m)) (show 30 + 2 ≤ 32 by decide) (show 1 < 2 ^ 2 by decide)

theorem takenOver_saf (s : State) (m : Nat) : (s.takenOver m).saf = s.saf := State.wr_saf _ _ _

theorem repaired_local (s : State) (code sub unit : Nat) :
    Local { saf := true } (· = (errLevel rgSafe).addr) s (s.repaired rgSafe code sub unit) :=
  ((repCount_local s rgSafe).wider).trans (ends_ended _ rgSafe code sub unit).local'

theorem repaired_work {s : State} {code sub unit : Nat} {w : Work} (mem : w ∈ (s.repaired rgSafe code sub unit).saf.work) : w ∈ s.saf.work := by
  have work := ends_work (s.repCount rgSafe) rgSafe code sub unit
  rw [repCount_saf] at work
  have mem' : w ∈ s.saf.work.filter fun w => !w.isFor rgSafe code sub unit := work ▸ mem
  exact (List.mem_filter.1 mem').1

/-- What the survivor shows before the tests that a failover ends. -/
theorem soleNow_shows (s : State) (k : Fin 2) : (s.soleNow k.val).mrole (1 - k.val) = rlSole ∧
    (s.soleNow k.val).on (F.SAFE_MADC_STAT_SUSP 0) = true ∧ (s.soleNow k.val).on (F.SAFE_MADC_STAT_SUSP 1) = true ∧
    (s.soleNow k.val).madc = (s.takenOver k.val).madc ∧ ∀ w ∈ (s.soleNow k.val).saf.work, w ∈ s.saf.work := by
  have repaired := repaired_local (s.takenOver k.val) 0xA02 0 k.val
  have role : ((s.takenOver k.val).repaired rgSafe 0xA02 0 k.val).mrole (1 - k.val) = rlSole :=
    (repaired.rd (f := F.SAFE_MADC_STAT_ROLE (1 - k.val)) (madcStat_calm _ (by omega))).trans (takenOver_role s k.val)
  have madc := repaired.part State.madc
  have work : ∀ w ∈ ((s.takenOver k.val).repaired rgSafe 0xA02 0 k.val).saf.work, w ∈ s.saf.work := fun w mem =>
    (takenOver_saf s k.val) ▸ repaired_work mem
  unfold State.soleNow
  generalize (s.takenOver k.val).repaired rgSafe 0xA02 0 k.val = u at role madc work
  have apart : ∀ j m, Field.apart (F.SAFE_MADC_STAT_SUSP j) (F.SAFE_MADC_STAT_ROLE m) = true := fun j m =>
    apart_bits (show 27 + 1 ≤ 32 by decide) (.inr (show 27 + 1 ≤ 30 by decide))
  refine ⟨(State.rd_set1_off _ (apart 1 _)).trans ((State.rd_set1_off _ (apart 0 _)).trans role), ?_, State.on_set1_same _,
    (State.set1_madc _ _).trans ((State.set1_madc _ _).trans madc), fun w mem => work w ?_⟩
  · exact (State.on_set1_off _ (f := F.SAFE_MADC_STAT_SUSP 1) (g := F.SAFE_MADC_STAT_SUSP 0) (by decide)).trans (State.on_set1_same _)
  · rw [State.set1_saf, State.set1_saf] at mem
    exact mem

theorem madcNext_none {s : State} (none : ∀ w ∈ s.saf.work, w.region = rgSafe → w.wait = false) : s.madcNext = s := by
  have found : s.saf.work.find? (fun w => w.region = rgSafe && w.wait) = Option.none := by
    rw [List.find?_eq_none]
    intro w mem both
    simp only [Bool.and_eq_true, decide_eq_true_eq] at both
    rw [none w mem both.1] at both
    exact absurd both.2 (by decide)
  unfold State.madcNext
  rw [found]

/-- The tests that a failover ends leave the converters alone. -/
theorem diagStop_told (s : State) (st : Nat) : (∀ g : Field, (g.addr = 0x401004 ∨ g.addr = 0x401008) → ((s.diagStop st).jackBias none).rd g = s.rd g) ∧
    ((s.diagStop st).jackBias none).madc = s.madc ∧ ((s.diagStop st).jackBias none).saf.work = s.saf.work := by
  have stopped := (Reacts.refl s).diagStop st
  have bias := jackBias_local (s.diagStop st) none
  refine ⟨fun g place => (bias.rd (f := g) ?_).trans (stopped.frame.told reactReg_madc g place), (bias.part State.madc).trans stopped.frame.madc,
    (congrArg Saf.work (bias.part State.saf)).trans (stopped.part Saf.work)⟩
  rcases place with at4 | at8
  · rw [at4]; decide
  · rw [at8]; decide

theorem madcFailover_sole {s : State} {k : Fin 2} (idle : s.madc.tdac = none) (plan : s.madc.plan = true)
    (work : s.saf.work.any (fun w => w.isFor rgSafe 0xA02 0 k.val) = true) (calm : ∀ w ∈ s.saf.work, w.region = rgSafe → w.wait = false)
    (down : s.serves k.val = false) (up : s.serves (1 - k.val) = true) : ∃ t, exec .madcFailover s = .next t ∧
      t.mrole (1 - k.val) = rlSole ∧ t.on (F.SAFE_MADC_STAT_SUSP 0) = true ∧ t.on (F.SAFE_MADC_STAT_SUSP 1) = true ∧
      t.madc.plan = false ∧ t.madc.odd = 0 ∧ t.madc.slot = 0 := by
  have which : (if s.serves 0 then 1 else 0) = k.val := by
    obtain ⟨k, lt⟩ := k
    obtain rfl | rfl : k = 0 ∨ k = 1 := by omega
    · exact if_neg (by rw [show s.serves 0 = false from down]; decide)
    · exact if_pos up
  have run : exec .madcFailover s = .next (((((s.soleNow k.val).diagStop stsNoResource).jackBias none).tdacEnd stsNoResource 0).madcNext) := by
    show execMadcFailover s = _
    unfold execMadcFailover
    rw [which]
    dsimp only
    rw [if_neg (by rw [plan, work]; simp)]
    rfl
  obtain ⟨role, susp0, susp1, madc, kept⟩ := soleNow_shows s k
  obtain ⟨planned, odd, slot, tdac⟩ := takenOver_madc s k.val
  obtain ⟨stat, same, works⟩ := diagStop_told (s.soleNow k.val) stsNoResource
  rw [tdacEnd_none (by rw [same, madc, tdac, idle]), madcNext_none fun w mem => calm w (kept w (works ▸ mem))] at run
  have at' : 0x401004 + 0x4 * (1 - k.val) = 0x401004 ∨ 0x401004 + 0x4 * (1 - k.val) = 0x401008 := by omega
  refine ⟨_, run, (stat (F.SAFE_MADC_STAT_ROLE (1 - k.val)) at').trans role, ?_, ?_, by rw [same, madc, planned], by rw [same, madc, odd],
    by rw [same, madc, slot]⟩
  · exact (congrArg (fun n => decide (n = 1)) (stat (F.SAFE_MADC_STAT_SUSP 0) (.inl rfl))).trans susp0
  · exact (congrArg (fun n => decide (n = 1)) (stat (F.SAFE_MADC_STAT_SUSP 1) (.inr rfl))).trans susp1

end Sys2Proof.Machine
end

section
/-!
# RESUME lands (spec/13_monitoring_converters.md, R609; spec/03_register_access.md, R119, R120)
-/

namespace Sys2Proof.Machine

-- One theorem after the other: in one text, theorems that wait for the kernel would each hold a thread.
set_option Elab.async false

/-- SAFE_MADC_CFG with RESUME. -/
def State.resumeWord (s : State) : Word := s.reg Reg.SAFE_MADC_CFG ||| 0x80000000

theorem bit_top (w : Word) : bit (w ||| 0x80000000) 31 = true := by
  have top : (w ||| 0x80000000).getLsbD 31 = true := by
    rw [BitVec.getLsbD_or]
    exact Bool.or_true _
  have set := bits_testBit (w ||| 0x80000000) 31 1 0
  rw [show 31 + 0 = 31 from rfl, top, Bool.and_true, decide_eq_true (by decide), Nat.testBit_zero] at set
  unfold bit
  have lt := bits_lt (w ||| 0x80000000) 31 1
  exact decide_eq_true (by have := of_decide_eq_true set; omega)

/-- A word posted to a register of the region of safety. -/
def State.posts (s : State) (a : Nat) (w : Word) : State :=
  { s with link := { s.link with posted := s.link.posted ++ [(⟨a, w⟩ : Posted)] } }.set1 ⟨Reg.HOST_PWSTAT, rgSafe, 1⟩

/-- Its posting over. -/
def State.unposts (s : State) (a : Nat) (w : Word) : State :=
  { s with link := { s.link with posted := s.link.posted.erase ⟨a, w⟩ } }.clr ⟨Reg.HOST_PWSTAT, rgSafe, 1⟩

theorem posts_rd (s : State) (a : Nat) (w : Word) {g : Field} (away : g.addr ≠ Reg.HOST_PWSTAT) : (s.posts a w).rd g = s.rd g :=
  State.rd_set1_off _ (f := ⟨Reg.HOST_PWSTAT, rgSafe, 1⟩) (apart_addr away)

theorem unposts_rd (s : State) (a : Nat) (w : Word) {g : Field} (away : g.addr ≠ Reg.HOST_PWSTAT) : (s.unposts a w).rd g = s.rd g :=
  State.rd_clr_off _ (f := ⟨Reg.HOST_PWSTAT, rgSafe, 1⟩) (apart_addr away)

theorem posts_link (s : State) (a : Nat) (w : Word) : (s.posts a w).link.posted = s.link.posted ++ [⟨a, w⟩] ∧
    (s.posts a w).link.cfgpar = s.link.cfgpar ∧ (s.posts a w).pap = s.pap := ⟨rfl, rfl, rfl⟩

theorem unposts_link (s : State) (a : Nat) (w : Word) : (s.unposts a w).link.posted = s.link.posted.erase ⟨a, w⟩ ∧
    (s.unposts a w).link.cfgpar = s.link.cfgpar := ⟨rfl, rfl⟩

/-- Where SAFE_MADC_CFG stands among the registers. -/
theorem madcCfg_place : regDomain? Reg.SAFE_MADC_CFG = none ∧ postedRegion? Reg.SAFE_MADC_CFG = some rgSafe ∧ regRow? Reg.SAFE_MADC_CFG ≠ none ∧
    internalRing Reg.SAFE_MADC_CFG = false := by decide

theorem madcCfg_posts {s : State} (i : Iface) (w : Word) (free : s.on ⟨Reg.HOST_PWSTAT, rgSafe, 1⟩ = false) :
    s.sendWrite i Reg.SAFE_MADC_CFG w = s.posts Reg.SAFE_MADC_CFG w := by
  obtain ⟨domain, region, -, -⟩ := madcCfg_place
  have fused : s.fusedAt Reg.SAFE_MADC_CFG = false := by
    unfold State.fusedAt
    rw [show decide (Reg.SAFE_MADC_CFG = Reg.SAFE_SM_CFG) = false from by decide, show decide (Reg.SAFE_MADC_CFG = Reg.SAFE_SM_CFG2) = false from by decide]
    rfl
  have wakes : s.wakeDomain Reg.SAFE_MADC_CFG = s := by
    unfold State.wakeDomain
    rw [domain]
  unfold State.sendWrite
  rw [region]
  dsimp only
  rw [if_neg (by rw [free]; decide), fused]
  simp only [Bool.false_eq_true, if_false]
  rw [wakes]
  rfl

/-- SAFE_MADC_CFG as a landing word leaves it. -/
def State.cfgTaken (s : State) (w : Word) : State :=
  ((s.setReg Reg.SAFE_MADC_CFG ((s.reg Reg.SAFE_MADC_CFG &&& ~~~writeMask Reg.SAFE_MADC_CFG) ||| (w &&& writeMask Reg.SAFE_MADC_CFG))).bound s
    Reg.SAFE_MADC_CFG).fits Reg.SAFE_MADC_CFG

theorem land_resume (s : State) (w : Word) :
    s.land Reg.SAFE_MADC_CFG (w ||| 0x80000000) = (s.cfgTaken (w ||| 0x80000000)).madcResume.showRef := by
  unfold State.land State.landed State.safeLanded
  dsimp only
  rw [if_neg (fun k => absurd k.2.1 (by decide)), if_neg (by decide), if_neg (show ¬ (0x305000 ≤ Reg.SAFE_MADC_CFG ∧ _) from fun k => absurd k.2.1 (by decide)),
    if_neg (by decide), if_neg (by decide), if_neg (by decide), if_neg (by decide), if_pos rfl, if_pos (bit_top w)]
  rfl

theorem bound_madcCfg (s old : State) : Local {} (· = Reg.SAFE_MADC_CFG) s (s.bound old Reg.SAFE_MADC_CFG) := by
  unfold State.bound
  rw [if_neg (by decide), if_neg (by decide), if_neg (by decide), if_neg (by decide), if_neg (by decide), if_neg (by decide),
    if_neg (by decide), if_pos rfl]
  exact .ite ((Local.refl s).set1 (f := F.SAFE_MADC_CFG_REFMODE) rfl) (.refl s)

/-- Parity fits again, and no posted write is lost. -/
theorem fits_posted {s : State} (none : s.link.cfgpar = []) (a : Nat) : (s.fits a).link.posted = s.link.posted := by
  have none' : (s.parityFits a).link.cfgpar = [] := none
  have posted : (s.parityFits a).link.posted = s.link.posted := rfl
  rw [fits_eq]
  generalize s.parityFits a = z at *
  have gone : z.parityOver.link = z.link := by
    unfold State.parityOver
    split
    · exact faultGone_link z _ _ _
    · rfl
  rw [cfgLeave_nil (show z.parityOver.link.cfgpar = [] by rw [gone, none'])]
  split
  · split
    · rw [gone, posted]
    · rw [gone, posted]
  · exact posted

theorem cfgTaken_rd {s : State} (none : s.link.cfgpar = []) (w : Word) {g : Field} (place : g.addr = 0x401004 ∨ g.addr = 0x401008) :
    (s.cfgTaken w).rd g = s.rd g ∧ (s.cfgTaken w).link.posted = s.link.posted := by
  have away : g.addr ≠ Reg.SAFE_MADC_CFG := by rcases place with e | e <;> rw [e] <;> decide
  have fn : ¬ (g.addr = Reg.SAFE_FN_STAT ∨ g.addr = Reg.SAFE_SM_STAT) := by rcases place with e | e <;> rw [e] <;> decide
  have written := (Local.refl (m := {}) (R := (· = Reg.SAFE_MADC_CFG)) s).setReg (a := Reg.SAFE_MADC_CFG)
    (w := (s.reg Reg.SAFE_MADC_CFG &&& ~~~writeMask Reg.SAFE_MADC_CFG) ||| (w &&& writeMask Reg.SAFE_MADC_CFG)) rfl
  have taken := written.trans (bound_madcCfg _ s)
  have link := taken.part State.link
  unfold State.cfgTaken
  generalize State.bound _ s Reg.SAFE_MADC_CFG = u at taken link
  have none' : u.link.cfgpar = [] := (congrArg Link.cfgpar link).trans none
  exact ⟨((fits_shows none' Reg.SAFE_MADC_CFG).1.rd fn).trans (taken.rd away), (fits_posted none' _).trans (congrArg Link.posted link)⟩

theorem resumeLand_eq {s : State} {i : Iface} (ready : s.ifaceReady i = true) (free : s.on ⟨Reg.HOST_PWSTAT, rgSafe, 1⟩ = false)
    (none : s.link.posted = []) (locked : s.lockOpen i = true) :
    exec (.resume i) s = .next ((((s.judging i).posts Reg.SAFE_MADC_CFG s.resumeWord).unposts Reg.SAFE_MADC_CFG s.resumeWord).land
      Reg.SAFE_MADC_CFG s.resumeWord) := by
  obtain ⟨domain, region, row, -⟩ := madcCfg_place
  have free' : (s.judging i).on ⟨Reg.HOST_PWSTAT, rgSafe, 1⟩ = false := (judging_on s i (by decide)).trans free
  have write : s.hostWrite i Reg.SAFE_MADC_CFG s.resumeWord = (s.judging i).posts Reg.SAFE_MADC_CFG s.resumeWord := by
    rw [hostWrite_judges ready, if_neg (by decide), if_neg (by decide), if_neg (by decide), if_neg row, if_neg, if_neg (by decide),
      if_neg (fun k => by rw [locked] at k; exact absurd k.2 (by decide)), madcCfg_posts i _ free']
    unfold State.unpowered
    rw [domain]
    exact Bool.false_ne_true
  have alive : s.linkAlive = true := by
    unfold State.ifaceReady at ready
    simp only [Bool.and_eq_true] at ready
    exact ready.1.1
  have empty : (s.judging i).link.posted = [] := (judging_link s i).1.trans none
  obtain ⟨posted, -, pap⟩ := posts_link (s.judging i) Reg.SAFE_MADC_CFG s.resumeWord
  rw [empty, List.nil_append] at posted
  have alive' : ((s.judging i).posts Reg.SAFE_MADC_CFG s.resumeWord).linkAlive = true := by
    have papal : (s.judging i).pap = s.pap := by have e := congrArg State.pap (judging_rest s i); exact e
    have state : ((s.judging i).posts Reg.SAFE_MADC_CFG s.resumeWord).pstate = s.pstate :=
      (posts_rd _ _ _ (g := F.PWR_STATE_STATE) (by decide)).trans (judging_rd s i (by decide))
    unfold State.linkAlive State.inReset at alive ⊢
    rw [state, pap, papal]
    exact alive
  show Host.Outcome.next (s.writeLand i Reg.SAFE_MADC_CFG s.resumeWord) = _
  unfold State.writeLand
  dsimp only
  rw [write, posted, none, if_neg (by simp), region]
  dsimp only
  unfold State.landRegion
  rw [posted]
  have found : ([(⟨Reg.SAFE_MADC_CFG, s.resumeWord⟩ : Posted)].find? fun p => postedRegion? p.addr = some rgSafe) =
      some ⟨Reg.SAFE_MADC_CFG, s.resumeWord⟩ := by
    rw [List.find?_cons_of_pos]
    exact decide_eq_true region
  rw [found]
  dsimp only
  rw [if_pos ⟨alive', by unfold State.lands; rw [region, domain]; simp [rgIn, rgOut, rgSafe]⟩]
  have lists : ((s.judging i).posts Reg.SAFE_MADC_CFG s.resumeWord).link.posted = [(⟨Reg.SAFE_MADC_CFG, s.resumeWord⟩ : Posted)] := posted
  unfold State.unposts
  rw [lists]

theorem madcResume_sole {u : State} {k : Fin 2} (sole : u.mrole k.val = rlSole) :
    u.madcResume = (u.clr (F.SAFE_MADC_STAT_SUSP 0)).clr (F.SAFE_MADC_STAT_SUSP 1) := by
  unfold State.madcResume
  refine if_pos ?_
  obtain ⟨k, lt⟩ := k
  obtain rfl | rfl : k = 0 ∨ k = 1 := by omega
  · exact .inl sole
  · exact .inr sole

/-- RESUME ends the suspension. -/
theorem resume_resumes {s : State} {i : Iface} {k : Fin 2} (ready : s.ifaceReady i = true) (free : s.on ⟨Reg.HOST_PWSTAT, rgSafe, 1⟩ = false)
    (none : s.link.posted = []) (held : s.link.cfgpar = []) (locked : s.lockOpen i = true) (sole : s.mrole k.val = rlSole) :
    ∃ t, exec (.resume i) s = .next t ∧ t.on (F.SAFE_MADC_STAT_SUSP 0) = false ∧ t.on (F.SAFE_MADC_STAT_SUSP 1) = false ∧
      t.mrole k.val = rlSole ∧ t.link.posted = [] := by
  have run := resumeLand_eq ready free none locked
  rw [show s.resumeWord = s.reg Reg.SAFE_MADC_CFG ||| 0x80000000 from rfl, land_resume] at run
  have at' : 0x401004 + 0x4 * k.val = 0x401004 ∨ 0x401004 + 0x4 * k.val = 0x401008 := by omega
  have other : (F.SAFE_MADC_STAT_ROLE k.val).addr ≠ Reg.HOST_PWSTAT := by
    show 0x401004 + 0x4 * k.val ≠ 0x104
    omega
  have clock : (F.SAFE_MADC_STAT_ROLE k.val).addr ≠ Reg.CTL_CLK_STAT := by
    show 0x401004 + 0x4 * k.val ≠ 0x400
    omega
  have empty : (s.judging i).link.posted = [] := (judging_link s i).1.trans none
  have cfg : (s.judging i).link.cfgpar = [] := (judging_link_cfg s i).trans held
  have role := (judging_rd s i clock).trans sole
  generalize s.judging i = j at run empty cfg role
  generalize s.reg Reg.SAFE_MADC_CFG ||| 0x80000000 = w at run
  have role' : ((j.posts Reg.SAFE_MADC_CFG w).unposts Reg.SAFE_MADC_CFG w).rd (F.SAFE_MADC_STAT_ROLE k.val) = rlSole :=
    (unposts_rd _ _ _ other).trans ((posts_rd _ _ _ other).trans role)
  obtain ⟨posted, kept, -⟩ := posts_link j Reg.SAFE_MADC_CFG w
  obtain ⟨posted', kept'⟩ := unposts_link (j.posts Reg.SAFE_MADC_CFG w) Reg.SAFE_MADC_CFG w
  rw [posted, empty, List.nil_append, List.erase_cons_head] at posted'
  rw [kept, cfg] at kept'
  generalize (j.posts Reg.SAFE_MADC_CFG w).unposts Reg.SAFE_MADC_CFG w = z at run role' posted' kept'
  obtain ⟨same, link⟩ := cfgTaken_rd kept' w (g := F.SAFE_MADC_STAT_ROLE k.val) at'
  have soleTaken : (z.cfgTaken w).mrole k.val = rlSole := same.trans role'
  rw [madcResume_sole soleTaken] at run
  generalize z.cfgTaken w = u at run link soleTaken
  have low : ∀ g : Field, g.lo + g.width ≤ 29 ∨ 30 ≤ g.lo → ((u.clr (F.SAFE_MADC_STAT_SUSP 0)).clr (F.SAFE_MADC_STAT_SUSP 1)).showRef.rd g =
      ((u.clr (F.SAFE_MADC_STAT_SUSP 0)).clr (F.SAFE_MADC_STAT_SUSP 1)).rd g := fun g off => showRef_rd off _
  have apart : ∀ j, Field.apart (F.SAFE_MADC_STAT_SUSP j) (F.SAFE_MADC_STAT_ROLE k.val) = true := fun j =>
    apart_bits (show 27 + 1 ≤ 32 by decide) (.inr (show 27 + 1 ≤ 30 by decide))
  have shown := showRef_local ((u.clr (F.SAFE_MADC_STAT_SUSP 0)).clr (F.SAFE_MADC_STAT_SUSP 1))
  refine ⟨_, run, ?_, ?_, ?_, ?_⟩
  · exact (congrArg (fun n => decide (n = 1)) (low (F.SAFE_MADC_STAT_SUSP 0) (.inl (by decide)))).trans
      ((State.on_clr_off _ (f := F.SAFE_MADC_STAT_SUSP 1) (g := F.SAFE_MADC_STAT_SUSP 0) (by decide)).trans (State.on_clr_same u))
  · exact (congrArg (fun n => decide (n = 1)) (low (F.SAFE_MADC_STAT_SUSP 1) (.inl (by decide)))).trans (State.on_clr_same _)
  · exact (low (F.SAFE_MADC_STAT_ROLE k.val) (.inr (Nat.le_refl 30))).trans
      ((State.rd_clr_off _ (apart 1)).trans ((State.rd_clr_off _ (apart 0)).trans soleTaken))
  · exact (congrArg Link.posted ((shown.part State.link).trans ((State.clr_link _ _).trans (State.clr_link u _)))).trans (link.trans posted')

end Sys2Proof.Machine
end

section
/-!
# MADC_READ and TDAC_TEST (spec/13_monitoring_converters.md, R611 to R615)
-/

namespace Sys2Proof.Machine

-- One theorem after the other: in one text, theorems that wait for the kernel would each hold a thread.
set_option Elab.async false

/-! ## Result words -/

/-- The fields of a result word. -/
theorem resultWord_fields (valid setl refns : Bool) {client input m sel code : Nat} (c : client < 4) (i : input < 32) (k : m < 2) (l : sel < 8)
    (r : code < 4096) : bits (resultWord valid setl refns client input m sel code) 0 12 = code ∧
      bits (resultWord valid setl refns client input m sel code) 16 5 = input ∧
      bit (resultWord valid setl refns client input m sel code) 31 = valid := by
  have one : ∀ b : Bool, b2n b ≤ 1 := by decide
  have hs := one setl
  have hn := one refns
  have hb := one (decide (code = 0) || decide (code = 4095))
  have hv := one valid
  unfold resultWord bit
  generalize b2n setl = p at hs
  generalize b2n refns = q at hn
  generalize b2n (decide (code = 0) || decide (code = 4095)) = e at hb
  generalize flag : b2n valid = v at hv
  rw [bits_w32 (by omega), bits_w32 (by omega), bits_w32 (by omega)]
  refine ⟨by omega, by omega, ?_⟩
  have top : (v * 2 ^ 31 + p * 2 ^ 30 + q * 2 ^ 29 + e * 2 ^ 28 + client * 2 ^ 26 + input * 2 ^ 16 + m * 2 ^ 15 + sel * 2 ^ 12 + code) / 2 ^ 31 % 2 ^ 1 = v := by
    omega
  rw [top, ← flag]
  cases valid <;> rfl

theorem pf_lt (ws : List Word) (i lo n : Nat) : pf ws i lo n < 2 ^ n := bits_lt _ _ _

theorem roundFree_one (n : Nat) : roundFree n 1 = n := by
  unfold roundFree
  rw [if_pos (Nat.mod_one n), Nat.div_one]

/-! ## What the cards read -/

section
variable (s : State) (c : CmdSpec) (p : Packet)

theorem phase_card {n : Nat} (few : n < 12) : (s.admitted c p).phase n = s.phase n := by
  have still : ∀ n : Fin 12, steady (F.OUT_SPK_STAT_PHASE n.val).addr = true := by decide
  unfold State.phase
  exact rd_card s c p (still ⟨n, few⟩)

theorem groupOff_card {g : Nat} (few : g < 3) : (s.admitted c p).groupOff g = s.groupOff g := by
  unfold State.groupOff
  rw [Bool.eq_iff_iff, List.all_eq_true, List.all_eq_true]
  refine forall₂_congr fun k mem => ?_
  rw [phase_card s c p (by have := List.mem_range.1 mem; omega)]

theorem mrole_card {m : Nat} (few : m < 2) : (s.admitted c p).mrole m = s.mrole m := by
  obtain rfl | rfl : m = 0 ∨ m = 1 := by omega
  · exact rd_card s c p (by decide)
  · exact rd_card s c p (by decide)

theorem suspended_card : (s.admitted c p).suspended = s.suspended := by
  unfold State.suspended
  rw [on_card s c p (by decide), on_card s c p (by decide)]

end

theorem last_steady {m : Nat} (few : m < 2) : steady (Reg.SAFE_MADC_LAST m) = true := by
  obtain rfl | rfl : m = 0 ∨ m = 1 := by omega
  · decide
  · decide

/-- What a card that stores a result leaves. -/
theorem stored_leaves {s s1 t : State} {m : Nat} (few : m < 2) {w : Word} (frame : Frame { madc := true } (· ∈ [Reg.SAFE_MADC_LAST m]) s s1)
    (stored : s1.reg (Reg.SAFE_MADC_LAST m) = w) (k : PapolBut papolReg (papolByte s1) s1 t) :
    t.reg (Reg.SAFE_MADC_LAST m) = w ∧ Touches [Reg.SAFE_MADC_LAST m] s t ∧ { s.over t with madc := s.madc } = s :=
  ⟨((Frame.of_papol k).reg_steady id (last_steady few)).trans stored, (frame.papol k).touches, (frame.papol k).rest⟩

theorem last_away (m : Nat) : Reg.PWR_STATE ∉ [Reg.SAFE_MADC_LAST m] := by
  rw [List.mem_singleton]
  show 0xE0000 ≠ 0x401010 + 0x4 * m
  omega

/-- The code that MADC_READ answers. -/
def State.readCode (s : State) (m inp u : Nat) : Nat :=
  if inp = 0 then s.rd (if m = 0 then F.SAFE_MADC_PLAUS_CODE0 else F.SAFE_MADC_PLAUS_CODE1) else madcCode u

theorem readCode_lt (s : State) (m inp u : Nat) : s.readCode m inp u < 2 ^ 12 := by
  unfold State.readCode
  split
  · split
    · exact State.rd_lt s F.SAFE_MADC_PLAUS_CODE0
    · exact State.rd_lt s F.SAFE_MADC_PLAUS_CODE1
  · exact madcCode_lt u

theorem readCode_card (s : State) (c : CmdSpec) (p : Packet) (m inp u : Nat) : (s.admitted c p).readCode m inp u = s.readCode m inp u := by
  unfold State.readCode
  split
  · split
    · exact rd_card s c p (by decide)
    · exact rd_card s c p (by decide)
  · rfl

/-- The selector of a host read. -/
def readSel (ws : List Word) : Nat := if 15 ≤ pf ws 0 16 5 ∧ pf ws 0 16 5 ≤ 21 then pf ws 0 8 3 else 0

theorem readSel_lt (ws : List Word) : readSel ws < 8 := by
  unfold readSel
  split
  · exact pf_lt ws 0 8 3
  · decide

theorem inputGroup_lt {i : Nat} (h : i ≤ 20) : inputGroup i < 3 := by
  unfold inputGroup
  split
  · omega
  · split <;> omega

/-- The codes of the conversions of a host read. -/
def readCodes (volts : List Nat) (avg : Nat) : List Nat := (List.range (2 ^ avg)).map fun k => madcCode (volts.getD k 0)

theorem readCodes_one (u : Nat) : readCodes [u] 0 = [madcCode u] := rfl

/-- What a host read of one conversion in a diagnostics slot leaves and answers. -/
def State.readDone (s : State) (m i sel mean least most : Nat) : Res :=
  .done stsOk 0 [resultWord true false false 2 i m sel mean, w32 (least * 2 ^ 16 + most)] []
    ((s.modMadc fun x => { x with prev := vmod x.prev m fun _ => (i, sel) }).setReg (Reg.SAFE_MADC_LAST m) (resultWord true false false 2 i m sel mean))

/-- A host read of one conversion without a flag: the code of the plausibility slot, or one measured for it. -/
theorem madcRead_answers {p : Packet} {s : State} {u0 : Nat} (acc : Accepted cardMadcRead p s) (serves : s.serves (pf p.payload 0 31 1) = true)
    (runs : s.suspended = false) (single : pf p.payload 0 0 3 = 0) (input : pf p.payload 0 16 5 ≤ 23)
    (off : 15 ≤ pf p.payload 0 16 5 → pf p.payload 0 16 5 ≤ 20 → s.groupOff (inputGroup (pf p.payload 0 16 5)) = true) :
    let mk := pf p.payload 0 31 1
    let code := s.readCode mk (pf p.payload 0 16 5) u0
    ∃ w, bits w 0 12 = code ∧ bits w 16 5 = pf p.payload 0 16 5 ∧ bit w 31 = true ∧
      Answers (.madcRead p [u0] false false) cardMadcRead p s 0 0 [w, w32 (code * 2 ^ 16 + code)] fun t =>
        t.reg (Reg.SAFE_MADC_LAST mk) = w ∧ Touches [Reg.SAFE_MADC_LAST mk] s t ∧ { s.over t with madc := s.madc } = s := by
  intro mk code
  have few : mk < 2 := pf_lt p.payload 0 31 1
  have code' := readCode_card s cardMadcRead p mk (pf p.payload 0 16 5) u0
  have adm : Frame { madc := true } (· ∈ [Reg.SAFE_MADC_LAST mk]) s (s.admitted cardMadcRead p) := Frame.admitted (last_away mk) s cardMadcRead p
  have up : ¬ (s.admitted cardMadcRead p).serves mk = false := by
    rw [serves_of (mrole_card s cardMadcRead p few), serves]
    decide
  have free : ¬ (s.admitted cardMadcRead p).suspended = true := by
    rw [suspended_card, runs]
    decide
  have grp : ¬ (15 ≤ pf p.payload 0 16 5 ∧ pf p.payload 0 16 5 ≤ 20 ∧
      (s.admitted cardMadcRead p).groupOff (inputGroup (pf p.payload 0 16 5)) = false) := by
    rintro ⟨lo, hi, on⟩
    rw [groupOff_card s cardMadcRead p (inputGroup_lt hi), off lo hi] at on
    exact absurd on (by decide)
  have first : ¬ (pf p.payload 0 0 3 = 7 ∨ 23 < pf p.payload 0 16 5) := by omega
  by_cases plaus : pf p.payload 0 16 5 = 0
  · obtain ⟨low, inp, valid⟩ := resultWord_fields true false false (client := 0) (input := 0) (m := mk) (sel := 0) (code := code) (by decide)
      (by decide) few (by decide) (readCode_lt _ _ _ _)
    refine ⟨resultWord true false false 0 0 mk 0 code, low, by rw [inp, plaus], valid, ?_⟩
    refine answers_of_done (s1 := (s.admitted cardMadcRead p).setReg (Reg.SAFE_MADC_LAST mk) (resultWord true false false 0 0 mk 0 code))
      (cl := []) rfl acc ?_ fun t k => stored_leaves few (adm.setReg (List.mem_singleton.2 rfl)) (State.reg_setReg_same _ _ _) k
    have read : (s.admitted cardMadcRead p).rd (if mk = 0 then F.SAFE_MADC_PLAUS_CODE0 else F.SAFE_MADC_PLAUS_CODE1) = code := by
      exact (if_pos plaus).symm.trans code'
    refine (if_neg first).trans ((if_neg up).trans ((if_neg free).trans ((if_pos plaus).trans ?_)))
    exact congrArg (fun n => Res.done stsOk 0 [resultWord true false false 0 0 mk 0 n, w32 (n * 2 ^ 16 + n)] []
      ((s.admitted cardMadcRead p).setReg (Reg.SAFE_MADC_LAST mk) (resultWord true false false 0 0 mk 0 n))) read
  · obtain ⟨low, inp, valid⟩ := resultWord_fields true false false (client := 2) (input := pf p.payload 0 16 5) (m := mk)
      (sel := readSel p.payload) (code := code) (by decide) (pf_lt p.payload 0 16 5) few (readSel_lt _) (readCode_lt _ _ _ _)
    refine ⟨resultWord true false false 2 (pf p.payload 0 16 5) mk (readSel p.payload) code, low, inp, valid, ?_⟩
    have read : code = madcCode u0 := if_neg plaus
    have moved : Frame { madc := true } (· ∈ [Reg.SAFE_MADC_LAST mk]) s
        ((s.admitted cardMadcRead p).modMadc fun x => { x with prev := vmod x.prev mk fun _ => (pf p.payload 0 16 5, readSel p.payload) }) := adm.upd rfl
    refine answers_of_done (s1 := ((s.admitted cardMadcRead p).modMadc fun x =>
        { x with prev := vmod x.prev mk fun _ => (pf p.payload 0 16 5, readSel p.payload) }).setReg (Reg.SAFE_MADC_LAST mk)
          (resultWord true false false 2 (pf p.payload 0 16 5) mk (readSel p.payload) code))
      (cl := []) rfl acc ?_ fun t k => stored_leaves few (moved.setReg (List.mem_singleton.2 rfl)) (State.reg_setReg_same _ _ _) k
    refine (if_neg first).trans ((if_neg up).trans ((if_neg free).trans ((if_neg plaus).trans ((if_neg grp).trans ?_))))
    have codes : readCodes [u0] (pf p.payload 0 0 3) = [madcCode u0] := by rw [single, readCodes_one]
    refine Eq.trans (b := (s.admitted cardMadcRead p).readDone mk (pf p.payload 0 16 5) (readSel p.payload)
      (roundFree ((readCodes [u0] (pf p.payload 0 0 3)).foldl (· + ·) 0) (2 ^ pf p.payload 0 0 3))
      ((readCodes [u0] (pf p.payload 0 0 3)).foldl min ((readCodes [u0] (pf p.payload 0 0 3)).headD 0))
      ((readCodes [u0] (pf p.payload 0 0 3)).foldl max 0)) rfl ?_
    have mean : roundFree (0 + madcCode u0) 1 = madcCode u0 := by rw [roundFree_one, Nat.zero_add]
    rw [codes, single, read, List.foldl_cons, List.foldl_nil, List.foldl_cons, List.foldl_nil, List.foldl_cons, List.foldl_nil, List.headD_cons,
      Nat.pow_zero, mean, Nat.min_self, Nat.max_eq_right (Nat.zero_le _)]
    rfl

section
variable {p : Packet} {s : State} {u0 u1 : Nat} (serves : s.serves (pf p.payload 0 31 1) = true)
  (runs : s.suspended = false) (core : pf p.payload 0 8 2 = 0) (free : s.pendFor? [.tdac] = none)
include serves runs core free

/-- The test converter's report of its two codes. -/
def tdacReport (p : Packet) (u0 u1 : Nat) : Word :=
  w32 (b2n (tdacOk (madcCode u0) (pf p.payload 1 16 10) && tdacOk (madcCode u1) (pf p.payload 1 0 10)) * 2 ^ 31 + madcCode u0 * 2 ^ 16 + madcCode u1)

/-- A test of the test converter itself comes to its result. -/
theorem tdacTest_admits : ∃ body : State → Res, (∀ x, exec (.tdacTest p u0 u1) x = x.card cardTdacTest p body) ∧
    body (s.admitted cardTdacTest p) = if s.madc.arb then
      .pend [] [.tdac] ((s.admitted cardTdacTest p).modMadc fun x =>
        { x with tdac := some (pf p.payload 0 31 1, resultWord true false false 2 23 (pf p.payload 0 31 1) 0 (madcCode u1)) })
      else .done stsOk 0 [tdacReport p u0 u1, resultWord true false false 2 23 (pf p.payload 0 31 1) 0 (madcCode u1)] []
        ((s.admitted cardTdacTest p).setReg (Reg.SAFE_MADC_LAST (pf p.payload 0 31 1))
          (resultWord true false false 2 23 (pf p.payload 0 31 1) 0 (madcCode u1))) := by
  have few : pf p.payload 0 31 1 < 2 := pf_lt p.payload 0 31 1
  have path : ¬ pf p.payload 0 8 2 = 1 := by omega
  have up : ¬ ((s.admitted cardTdacTest p).serves (pf p.payload 0 31 1) = false ∨
      (pf p.payload 0 8 2 = 1 ∧ (s.admitted cardTdacTest p).pathRefused (pf p.payload 0 31 1) (if pf p.payload 0 8 2 = 1 then pf p.payload 0 0 5 else 23)
        (if pf p.payload 0 8 2 = 1 then pf p.payload 0 5 3 else 0) = true)) := by
    rw [serves_of (mrole_card s cardTdacTest p few), serves]
    rintro (h | ⟨h, -⟩)
    · exact absurd h (by decide)
    · exact path h
  have going : ¬ (s.admitted cardTdacTest p).suspended = true := by
    rw [suspended_card, runs]
    decide
  refine ⟨_, fun x => rfl, ?_⟩
  refine (if_neg (by omega)).trans ((if_neg up).trans ((if_neg going).trans
    ((unlessBusy_none ((admitted_pendFor s cardTdacTest p [.tdac]).trans free)).trans ?_)))
  rw [if_neg path, if_neg path, admitted_madc]
  rfl

theorem tdacTest_answers (acc : Accepted cardTdacTest p s) (calm : s.madc.arb = false) : ∃ w, bits w 0 12 = madcCode u1 ∧ bits w 16 5 = 23 ∧
    Answers (.tdacTest p u0 u1) cardTdacTest p s 0 0 [tdacReport p u0 u1, w] fun t =>
      t.reg (Reg.SAFE_MADC_LAST (pf p.payload 0 31 1)) = w ∧ Touches [Reg.SAFE_MADC_LAST (pf p.payload 0 31 1)] s t ∧ s.over t = s := by
  have few : pf p.payload 0 31 1 < 2 := pf_lt p.payload 0 31 1
  obtain ⟨body, run, done⟩ := tdacTest_admits (u0 := u0) (u1 := u1) serves runs core free
  obtain ⟨low, inp, -⟩ := resultWord_fields true false false (client := 2) (input := 23) (sel := 0) (by decide) (by decide) few (by decide)
    (madcCode_lt u1)
  refine ⟨resultWord true false false 2 23 (pf p.payload 0 31 1) 0 (madcCode u1), low, inp, ?_⟩
  generalize resultWord true false false 2 23 (pf p.payload 0 31 1) 0 (madcCode u1) = w at done
  have frame : Frame {} (· ∈ [Reg.SAFE_MADC_LAST (pf p.payload 0 31 1)]) s
      ((s.admitted cardTdacTest p).setReg (Reg.SAFE_MADC_LAST (pf p.payload 0 31 1)) w) :=
    (Frame.admitted (last_away _) s cardTdacTest p).setReg (List.mem_singleton.2 rfl)
  refine answers_of_done (run s) acc (done.trans (by rw [calm]; rfl)) fun t k =>
    ⟨((Frame.of_papol k).reg_steady id (last_steady few)).trans (State.reg_setReg_same _ _ _), (frame.papol k).touches, (frame.papol k).rest⟩

theorem tdacTest_awaits (acc : Accepted cardTdacTest p s) (arb : s.madc.arb = true) (slot : s.freeSlot? ≠ none) : Awaits (.tdacTest p u0 u1) cardTdacTest p s [] [.tdac] fun t =>
    t.madc.tdac.isSome = true ∧ Touches [] s t ∧ { s.over t with madc := s.madc } = s := by
  obtain ⟨body, run, done⟩ := tdacTest_admits (u0 := u0) (u1 := u1) serves runs core free
  generalize resultWord true false false 2 23 (pf p.payload 0 31 1) 0 (madcCode u1) = w at done
  have frame : Frame { madc := true } (· ∈ []) s
      ((s.admitted cardTdacTest p).modMadc fun x => { x with tdac := some (pf p.payload 0 31 1, w) }) :=
    (Frame.admitted (List.not_mem_nil) s cardTdacTest p).upd rfl
  have open' : ((s.admitted cardTdacTest p).modMadc fun x => { x with tdac := some (pf p.payload 0 31 1, w) }).freeSlot? ≠ none :=
    (admitted_free ⟨free, slot⟩).2
  refine awaits_of_pend (run s) acc (done.trans (by rw [arb]; rfl)) open' fun t k => ⟨?_, (frame.papol k).touches, (frame.papol k).rest⟩
  have kept := congrArg (fun x : MadcX => x.tdac.isSome) (Frame.of_papol k).madc
  exact kept

end

/-- Settles O48: the monitoring converters are compared, arbitrated and fail over. -/
theorem monitorConvertersArbitrateAndFailOver : Obligations.MonitorConvertersArbitrateAndFailOver := by
  unfold Obligations.MonitorConvertersArbitrateAndFailOver
  intro p s i m a0 a1 u0 u1 l0 h0 l1 h1 out idle
  refine ⟨fun t0 t1 first second => ⟨madcSlot_sequences first second t0 t1 out m,
      fun n e settled other conv client input alone => madcSlot_amps first second t0 t1 rfl settled other conv client input alone,
      fun pair near => madcSlot_near first second t0 t1 pair near, fun pair far => madcSlot_far first second t0 t1 out m pair far⟩,
    fun asked work alone n0 n1 => ⟨fun differ bad => madcArbitrate_fails out idle asked work alone n0 n1 differ bad,
      fun same => madcArbitrate_safe asked work idle same⟩,
    fun plan work calm down up => madcFailover_sole idle plan work calm down up,
    fun serves bad free => madcCoreTest_fails m out idle serves bad free, ⟨rfl, mrefCheck_fails s m⟩,
    fun ready free none held locked sole => resume_resumes ready free none held locked sole, fun acc serves runs single input => ?_,
    fun acc serves runs core free => ⟨fun calm => tdacTest_answers serves runs core free acc calm,
      fun arb slot => tdacTest_awaits serves runs core free acc arb slot⟩⟩
  exact fun off => madcRead_answers acc serves runs single input off

end Sys2Proof.Machine
end

section
/-!
# System commands (spec/04_command_protocol.md, R173, R186, R188, R193)
-/

namespace Sys2Proof.Machine

-- One theorem after the other: in one text, theorems that wait for the kernel would each hold a thread.
set_option Elab.async false

/-! ## What a card leaves of Papol's own state -/

/-- CFGGEN after a command that ends with this status. -/
def CmdSpec.cfgNext (c : CmdSpec) (st : Nat) (n : Word) : Word := if c.cfg = true ∧ success st = true then n + 1 else n

theorem countCfg_pap (s : State) (c : CmdSpec) (st : Nat) : (s.countCfg c.cfg st).pap = { s.pap with cfggen := c.cfgNext st s.pap.cfggen } := by
  unfold State.countCfg CmdSpec.cfgNext
  split <;> rfl

/-- An answer without clamps leaves what its card leaves of Papol's own state, but for the reply and CFGGEN. -/
theorem answers_of_told {i : Instr} {c : CmdSpec} {p : Packet} {s s1 : State} {body : State → Res} {P : State → Prop} {st d : Nat}
    {ws : List Word} (run : exec i s = s.card c p body) (acc : Accepted c p s) (done : body (s.admitted c p) = .done st d ws [] s1)
    (holds : ∀ t, PapolBut papolReg (papolByte s1) s1 t →
      t.pap.noReplies = { s1.pap with cfggen := c.cfgNext st s1.pap.cfggen }.noReplies → P t) : Answers i c p s st d ws P := by
  let tr := decide (c.opcode = 0x002 ∧ 16 < bits (pw ws 0) 0 16)
  have answered := answer_papol s1 c.opcode p p.auth true st d tr ws
  have replied := answer_replied s1 c p p.auth st d tr ws
  have told := answer_noReplies s1 c.opcode p p.auth true st d tr ws
  have next : exec i s = .next ((s1.answer c.opcode p p.auth true st d tr ws).countCfg c.cfg st) := by
    rw [run]
    refine (congrArg Host.Outcome.next (take_accepted acc body id)).trans ?_
    rw [done]
    rfl
  generalize s1.answer c.opcode p p.auth true st d tr ws = u at *
  have counted := countCfg_papol u c.cfg st
  refine ⟨_, next, replied.congr counted.2.1, holds _ ?_ ?_⟩
  · have both := counted.1
    rw [papolByte_congr answered.rings] at both
    exact answered.trans both
  · have count := congrArg Papol.cfggen told
    have same : u.pap.cfggen = s1.pap.cfggen := count
    rw [countCfg_pap, same]
    exact congrArg (fun x : Papol => { x with cfggen := c.cfgNext st s1.pap.cfggen }) told

/-! ## NOP, JOURNAL_READ, SYS_INFO, EVENT_CFG -/

theorem nop_answers {p : Packet} {s : State} (acc : Accepted cardNop p s) :
    Answers (.nop p) cardNop p s 0 0 [] (PapolBut papolReg (papolByte s) s) := answers_unchanged rfl acc rfl

theorem journalRead_answers {p : Packet} {s : State} (acc : Accepted cardJournalRead p s) {ws : List Word}
    (hit : (if pb p.payload 0 31 then (s.pap.events.find? fun e => e.eseq = (pw p.payload 0).extractLsb' 0 16).map EventEntry.stored
      else (s.replyFor? (pb p.payload 0 30) ((pw p.payload 0).extractLsb' 0 16)).map ReplyEntry.stored) = some ws) :
    Answers (.journalRead p) cardJournalRead p s 0 0 ws (PapolBut papolReg (papolByte s) s) := by
  obtain ⟨x, y, z, pap⟩ := admitted_pap s cardJournalRead p
  have events : (s.admitted cardJournalRead p).pap.events = s.pap.events := by rw [pap]
  have replies : (s.admitted cardJournalRead p).replyFor? (pb p.payload 0 30) ((pw p.payload 0).extractLsb' 0 16) =
      s.replyFor? (pb p.payload 0 30) ((pw p.payload 0).extractLsb' 0 16) := by
    unfold State.replyFor?
    rw [pap]
  refine answers_unchanged (cl := []) rfl acc ?_
  dsimp only
  rw [events, replies, hit]
  rfl

theorem sysInfo_answers {p : Packet} {s : State} (acc : Accepted cardSysInfo p s) : Answers (.sysInfo p) cardSysInfo p s 0 0
    [s.reg Reg.CTL_SYS_ID, s.pap.version, w32 s.fwRoll, w32 (s.rd F.CTL_SEC_STAT_LC), s.reg Reg.DSP_GRAPH_ID,
      w32 (2 * s.rd F.CTL_SYS_STRAP_BOOTSEL + s.rd F.CTL_SYS_STRAP_HOSTSEL)] (PapolBut papolReg (papolByte s) s) := by
  obtain ⟨x, y, z, pap⟩ := admitted_pap s cardSysInfo p
  have version : (s.admitted cardSysInfo p).pap.version = s.pap.version := by rw [pap]
  have roll : (s.admitted cardSysInfo p).fwRoll = s.fwRoll := rd_card s cardSysInfo p
  refine answers_unchanged (cl := []) rfl acc ?_
  rw [reg_card s _ p (a := Reg.CTL_SYS_ID), reg_card s _ p (a := Reg.DSP_GRAPH_ID), rd_card s _ p (f := F.CTL_SEC_STAT_LC),
    rd_card s _ p (f := F.CTL_SYS_STRAP_BOOTSEL), rd_card s _ p (f := F.CTL_SYS_STRAP_HOSTSEL), version, roll]
  rfl

theorem eventCfg_answers {p : Packet} {s : State} (acc : Accepted cardEventCfg p s) (some : 1 ≤ pf p.payload 0 0 8) :
    Answers (.eventCfg p) cardEventCfg p s 0 0 [] fun t =>
      t.pap.repost = pf p.payload 0 0 8 ∧ t.pap.cfggen = s.pap.cfggen + 1 ∧ PapolBut papolReg (papolByte s) s t := by
  let a := s.admitted cardEventCfg p
  refine answers_of_told (s1 := { a with pap := { a.pap with repost := pf p.payload 0 0 8 } }) rfl acc (if_neg (by omega)) fun t k told => ?_
  have repost := congrArg Papol.repost told
  have cfggen := congrArg Papol.cfggen told
  refine ⟨repost, cfggen.trans (congrArg (· + 1) (admitted_cfggen s cardEventCfg p)), ?_⟩
  exact (((Frame.admitted id s cardEventCfg p).pap _).papol k).papolBut

/-! ## LOOP_PIN -/

/-- The registers in which SWPLL shows its conflicts, its holds and its carriers above a cap. -/
def swShowReg (a : Nat) : Prop := a = Reg.OUT_SW_STAT ∨ a = Reg.SAFE_AGE_STAT

theorem Local.showSw {m : Parts} {R : Nat → Prop} {s t : State} (h : Local m R s t) (sw : R Reg.OUT_SW_STAT) (age : R Reg.SAFE_AGE_STAT) :
    Local m R s t.showSw :=
  ((h.wr (f := F.OUT_SW_STAT_CONF) sw).wr (f := F.OUT_SW_STAT_HOLD) sw).wr (f := F.SAFE_AGE_STAT_ABOVECAP) age

theorem showSw_local (s : State) : Local {} swShowReg s s.showSw := (Local.refl s).showSw (.inl rfl) (.inr rfl)

/-- The parity of a register of SWPLL fits. -/
theorem fits_reenabled (s : State) {a : Nat} (own : reenabled a = true) :
    Local parityParts (fun b => b = Reg.SAFE_FN_STAT ∨ b = Reg.SAFE_SM_STAT) s (s.fits a) := by
  have away : Local parityParts (fun b => b = Reg.SAFE_FN_STAT ∨ b = Reg.SAFE_SM_STAT) s (s.parityFits a) := by
    unfold State.parityFits
    exact (Local.refl s).upd (by simp only [State.but, parityParts, cond_true, cond_false])
  rw [fits_eq]
  generalize s.parityFits a = z at *
  have gone : Local parityParts (fun b => b = Reg.SAFE_FN_STAT ∨ b = Reg.SAFE_SM_STAT) s z.parityOver := by
    unfold State.parityOver
    exact .ite (away.faultGone rfl (.inl rfl) (.inr rfl)) away
  have out : ¬ (s.cfgHit a = true ∧ reenabled a = false) := fun h => absurd (own.symm.trans h.2) (by decide)
  rw [if_neg out]
  exact .ite gone away

/-- The shadow set taken to where the generator is. -/
def State.swStopped (s : State) : State :=
  forEach (fun g z => z.putReg (Reg.OUT_SW_OUT g) (z.reg (Reg.OUT_SW_OUTA g))) 3
    ((s.setReg Reg.OUT_SW_FREQA (s.reg Reg.OUT_SW_FREQI)).putReg Reg.OUT_SW_FREQ (s.reg Reg.OUT_SW_FREQI))

/-- A move frozen where it is, before its end. -/
def State.frozen (s : State) : State := (s.swStopped.clr F.OUT_SW_CTRL_UPDATE).modClk fun c => { c with due := false }

theorem putReg_local (s : State) {a : Nat} (w : Word) (own : reenabled a = true) :
    Local parityParts (fun b => b = a ∨ b = Reg.SAFE_FN_STAT ∨ b = Reg.SAFE_SM_STAT) s (s.putReg a w) :=
  ((Local.refl s).setReg (.inl rfl)).trans ((fits_reenabled _ own).mono fun _ => .inr)

theorem reenabled_out {g : Nat} (few : g < 3) : reenabled (Reg.OUT_SW_OUT g) = true := by
  have all : ∀ k : Fin 3, reenabled (Reg.OUT_SW_OUT k.val) = true := by decide
  exact all ⟨g, few⟩

/-- The registers of the dividers, and those of the fault records. -/
def dividerReg (a : Nat) : Prop := (∃ g, g < 3 ∧ a = Reg.OUT_SW_OUT g) ∨ a = Reg.SAFE_FN_STAT ∨ a = Reg.SAFE_SM_STAT

theorem dividerReg_away {a : Nat} (low : a < 0x303010) : ¬ dividerReg a := by
  rintro (⟨g, -, rfl⟩ | rfl | rfl)
  · unfold Reg.OUT_SW_OUT at low
    omega
  · exact absurd low (by decide)
  · exact absurd low (by decide)

theorem dividers_local (s : State) :
    Local parityParts dividerReg s (forEach (fun g z => z.putReg (Reg.OUT_SW_OUT g) (z.reg (Reg.OUT_SW_OUTA g))) 3 s) :=
  Local.forEach (fun g x few h => h.trans ((putReg_local x _ (reenabled_out few)).mono fun _ k => k.imp (fun e => ⟨g, few, e⟩) id)) (.refl s)

theorem swStopped_keeps (s : State) : s.swStopped.clk = s.clk ∧ s.swStopped.pap = s.pap := by
  have second := putReg_local (s.setReg Reg.OUT_SW_FREQA (s.reg Reg.OUT_SW_FREQI)) (a := Reg.OUT_SW_FREQ) (s.reg Reg.OUT_SW_FREQI) (by decide)
  exact ⟨((dividers_local _).part State.clk).trans (second.part State.clk), ((dividers_local _).pap).trans second.pap⟩

theorem swStopped_freq (s : State) : s.swStopped.reg Reg.OUT_SW_FREQI = s.reg Reg.OUT_SW_FREQI ∧
    s.swStopped.reg Reg.OUT_SW_FREQA = s.reg Reg.OUT_SW_FREQI ∧ s.swStopped.reg Reg.OUT_SW_FREQ = s.reg Reg.OUT_SW_FREQI := by
  have put := fun (x : State) (w : Word) => (putReg_local x (a := Reg.OUT_SW_FREQ) w (by decide)).regs
  have last : ∀ (x : State) (a : Nat), a < 0x303010 →
      (forEach (fun g z => z.putReg (Reg.OUT_SW_OUT g) (z.reg (Reg.OUT_SW_OUTA g))) 3 x).reg a = x.reg a :=
    fun x a low => (dividers_local x).regs a (dividerReg_away low)
  unfold State.swStopped
  refine ⟨(last _ _ (by decide)).trans ((put _ _ Reg.OUT_SW_FREQI (by decide)).trans (State.reg_setReg_ne _ _ (by decide))),
    (last _ _ (by decide)).trans ((put _ _ Reg.OUT_SW_FREQA (by decide)).trans (State.reg_setReg_same _ _ _)),
    (last _ _ (by decide)).trans (((fits_reenabled _ (a := Reg.OUT_SW_FREQ) (by decide)).regs _ (by decide)).trans (State.reg_setReg_same _ _ _))⟩

/-- The transfer that waited is no longer due. -/
def State.transferOff (s : State) : State := (s.clr F.OUT_SW_CTRL_UPDATE).modClk fun c => { c with due := false }

theorem modClk_clk (s : State) (f : ClkX → ClkX) : (s.modClk f).clk = f s.clk := rfl

theorem modClk_reg (s : State) (f : ClkX → ClkX) (a : Nat) : (s.modClk f).reg a = s.reg a := rfl

theorem modClk_pap (s : State) (f : ClkX → ClkX) : (s.modClk f).pap = s.pap := rfl

theorem transferOff_clk (s : State) : s.transferOff.clk = { s.clk with due := false } := by
  unfold State.transferOff
  rw [modClk_clk, State.clr_clk]

theorem transferOff_pap (s : State) : s.transferOff.pap = s.pap := by
  unfold State.transferOff
  rw [modClk_pap, State.clr_pap]

theorem transferOff_reg (s : State) {a : Nat} (away : a ≠ Reg.OUT_SW_CTRL) : s.transferOff.reg a = s.reg a := by
  unfold State.transferOff
  rw [modClk_reg]
  exact State.reg_setReg_ne _ _ away

theorem frozen_eq (s : State) : s.frozen = s.swStopped.transferOff := rfl

theorem frozen_keeps (s : State) : s.frozen.clk = { s.clk with due := false } ∧ s.frozen.pap = s.pap := by
  obtain ⟨clk, pap⟩ := swStopped_keeps s
  exact ⟨by rw [frozen_eq, transferOff_clk, clk], by rw [frozen_eq, transferOff_pap, pap]⟩

theorem frozen_freq (s : State) : s.frozen.reg Reg.OUT_SW_FREQI = s.reg Reg.OUT_SW_FREQI ∧ s.frozen.reg Reg.OUT_SW_FREQA = s.reg Reg.OUT_SW_FREQI ∧
    s.frozen.reg Reg.OUT_SW_FREQ = s.reg Reg.OUT_SW_FREQI := by
  obtain ⟨now, active, shadow⟩ := swStopped_freq s
  rw [frozen_eq]
  exact ⟨(transferOff_reg _ (by decide)).trans now, (transferOff_reg _ (by decide)).trans active, (transferOff_reg _ (by decide)).trans shadow⟩

/-! ### The end of a move -/

/-- A move's end as its registers show it. -/
def State.moveOver (s : State) : State := ((s.modClk fun c => { c with ramp := none, settling := false }).clr F.OUT_SW_STAT_RAMP).showSw

/-- What a placement's end raises. -/
def State.placeOver (s : State) : State :=
  if s.clk.placing then
    (s.modClk fun c => { c with placing := false }).raisePlacement 2 s.clk.confWas (s.rd F.OUT_SW_STAT_CONF) s.swTarget
  else s

theorem moveOver_local (s : State) : Local { clk := true } swShowReg s s.moveOver :=
  (((Local.refl s).upd rfl).clr (f := F.OUT_SW_STAT_RAMP) (.inl rfl)).showSw (.inl rfl) (.inr rfl)

theorem moveOver_clk (s : State) : s.moveOver.clk = { s.clk with ramp := none, settling := false } := (showSw_local _).part State.clk

theorem moveEnd_due {s : State} (due : s.clk.due = false) :
    s.moveEnd = s.moveOver.placeOver.finishAll (fun e => e.opcode = 0x501 || e.opcode = 0x510) stsOk 0 := by
  have still := congrArg ClkX.due (moveOver_clk s)
  have off : ¬ s.moveOver.clk.due = true := by rw [still, due]; decide
  exact if_neg off

theorem placeOver_holds (s : State) : Frame { clk := true } swShowReg s s.placeOver ∧ s.placeOver.pap.seat = s.pap.seat ∧
    s.placeOver.clk.ramp = s.clk.ramp ∧ s.placeOver.clk.due = s.clk.due := by
  have start : Frame { clk := true } swShowReg s s := .refl (by unfold swShowReg; decide) s
  have told : ∀ (u : State) (n w v x : Nat), Frame { clk := true } swShowReg u (u.raisePlacement n w v x) ∧
      (u.raisePlacement n w v x).pap.seat = u.pap.seat ∧ (u.raisePlacement n w v x).clk = u.clk := fun u n w v x => by
    unfold State.raisePlacement
    exact ⟨.raise (.refl (by unfold swShowReg; decide) u), raiseR_seat _ _ _ _, (Frame.raise (m := {}) (R := fun _ => False) (.refl id u)).clk⟩
  unfold State.placeOver
  split
  · obtain ⟨frame, seat, clk⟩ := told (s.modClk fun c => { c with placing := false }) 2 s.clk.confWas (s.rd F.OUT_SW_STAT_CONF) s.swTarget
    have ramp := congrArg ClkX.ramp clk
    have due := congrArg ClkX.due clk
    have moved : Frame { clk := true } swShowReg s (s.modClk fun c => { c with placing := false }) := start.upd rfl
    exact ⟨moved.trans frame, seat, ramp, due⟩
  · exact ⟨start, rfl, rfl, rfl⟩

/-- A move whose transfer is not due ends. -/
theorem moveEnd_holds {s : State} (due : s.clk.due = false) : Frame { clk := true } swShowReg s s.moveEnd ∧ s.moveEnd.pap.seat = s.pap.seat ∧
    s.moveEnd.clk.ramp = none ∧ s.moveEnd.clk.due = false := by
  obtain ⟨frame, seat, ramp, still⟩ := placeOver_holds s.moveOver
  have own := moveOver_clk s
  have gone := congrArg ClkX.ramp own
  have calm := congrArg ClkX.due own
  have over' := moveOver_local s
  rw [moveEnd_due due]
  generalize s.moveOver = u at *
  have all := Frame.finishAll (m := {}) (.refl (by unfold swShowReg; decide) u.placeOver : Frame {} swShowReg u.placeOver u.placeOver)
    (sel := fun e => e.opcode = 0x501 || e.opcode = 0x510) (st := stsOk) (d := 0)
  have clk := all.clk
  refine ⟨((over'.frame (by unfold swShowReg; decide)).trans frame).finishAll, (finishAll_seat _ _ _ _).trans (seat.trans (congrArg Papol.seat over'.pap)), ?_, ?_⟩
  · exact (congrArg ClkX.ramp clk).trans (ramp.trans gone)
  · exact (congrArg ClkX.due clk).trans (still.trans (calm.trans due))

theorem placeFreeze_frozen {s : State} {gs g : Nat} (few : g < 3) (named : inMask gs g = true) (en : s.swEn g = true)
    (placing : s.clk.placing = true) (ramp : s.clk.ramp.isSome = true) : s.placeFreeze gs = s.frozen.moveEnd := by
  refine if_pos ⟨?_, ?_⟩
  · unfold State.placeMoves
    rw [placing, ramp]
    rfl
  · rw [List.any_eq_true]
    exact ⟨g, List.mem_range.2 few, by rw [named, en]; rfl⟩

theorem placeFreeze_none {s : State} (placing : s.clk.placing = false) (gs : Nat) : s.placeFreeze gs = s := by
  refine if_neg fun h => absurd h.1 ?_
  unfold State.placeMoves
  rw [placing]
  exact Bool.false_ne_true

theorem inMask_toNat (gs : BitVec 3) (g : Nat) : inMask gs.toNat g = gs.getLsbD g := by
  unfold inMask
  rw [BitVec.getLsbD, Nat.testBit_eq_decide_div_mod_eq]

/-- Papol's own state with its pins set. -/
def State.withPap (s : State) (f : Papol → Papol) : State := { s with pap := f s.pap }

theorem withPap_frame {m : Parts} {R : Nat → Prop} {s t : State} (h : Frame m R s t) (f : Papol → Papol) : Frame m R s (t.withPap f) := h.pap _

/-- LOOP_PIN of the placement loop. -/
def State.pinPlaced (s : State) (p : Packet) : State :=
  (s.withPap fun x => { x with pinPlace := pinned x.pinPlace ((pw p.payload 0).extractLsb' 4 3) (pb p.payload 0 8) }).showSw

theorem pinPlaced_frame {s u : State} (p : Packet) (h : Frame {} swShowReg u s) : Frame {} swShowReg u (s.pinPlaced p) :=
  (Local.showSw (.refl _) (.inl rfl) (.inr rfl) : Local {} swShowReg _ _).within (withPap_frame h _)

theorem pinPlaced_pap (s : State) (p : Packet) : (s.pinPlaced p).pap =
    { s.pap with pinPlace := pinned s.pap.pinPlace ((pw p.payload 0).extractLsb' 4 3) (pb p.payload 0 8) } := (showSw_local _).pap

theorem pins_of_seat {x y : Papol} (h : x.seat = y.seat) : x.pinPlace = y.pinPlace ∧ x.pinTrack = y.pinTrack ∧ x.pinAge = y.pinAge := by
  simp only [Papol.seat, Prod.mk.injEq] at h
  obtain ⟨-, -, -, -, -, place, track, age⟩ := h
  exact ⟨place, track, age⟩

theorem admitted_pins (s : State) (c : CmdSpec) (p : Packet) : (s.admitted c p).pap.pinPlace = s.pap.pinPlace ∧
    (s.admitted c p).pap.pinTrack = s.pap.pinTrack ∧ (s.admitted c p).pap.pinAge = s.pap.pinAge := by
  obtain ⟨x, y, z, pap⟩ := admitted_pap s c p
  rw [pap]
  exact ⟨rfl, rfl, rfl⟩

theorem frozen_ends (s : State) : s.frozen.moveEnd.pap.seat = s.pap.seat ∧ s.frozen.moveEnd.clk.ramp = none ∧ s.frozen.moveEnd.clk.due = false ∧
    s.frozen.moveEnd.reg Reg.OUT_SW_FREQI = s.reg Reg.OUT_SW_FREQI ∧ s.frozen.moveEnd.reg Reg.OUT_SW_FREQA = s.reg Reg.OUT_SW_FREQI ∧
    s.frozen.moveEnd.reg Reg.OUT_SW_FREQ = s.reg Reg.OUT_SW_FREQI := by
  obtain ⟨clk, pap⟩ := frozen_keeps s
  obtain ⟨now, active, shadow⟩ := frozen_freq s
  generalize s.frozen = u at *
  obtain ⟨frame, seat, ramp, due⟩ := moveEnd_holds (s := u) (congrArg ClkX.due clk)
  have kept : ∀ a, ¬ swShowReg a → steady a = true → u.moveEnd.reg a = u.reg a := fun a away still => frame.reg_steady away still
  unfold swShowReg at kept
  exact ⟨seat.trans (congrArg Papol.seat pap), ramp, due, (kept _ (by decide) (by decide)).trans now,
    (kept _ (by decide) (by decide)).trans active, (kept _ (by decide) (by decide)).trans shadow⟩

theorem placeFreeze_seat (s : State) (gs : Nat) : (s.placeFreeze gs).pap.seat = s.pap.seat := by
  have two : s.placeFreeze gs = s.frozen.moveEnd ∨ s.placeFreeze gs = s := by
    unfold State.placeFreeze
    split
    · exact .inl rfl
    · exact .inr rfl
  rcases two with e | e
  · rw [e]
    exact (frozen_ends s).1
  · rw [e]

section
variable {p : Packet} {s : State} (acc : Accepted cardLoopPin p s)
  (free : s.pendFor? (if pf p.payload 0 0 3 < 2 then (indices 3 fun g => ((pw p.payload 0).extractLsb' 4 3).getLsbD g).map Target.group else []) = none)
include acc free

/-- LOOP_PIN comes to what it pins. -/
theorem loopPin_told {P : State → Prop} {s1 : State} (body : (fun s : State =>
      let loop := pf p.payload 0 0 3
      let gs := (pw p.payload 0).extractLsb' 4 3
      let pin := pb p.payload 0 8
      if loop = 0 then Res.ok ((s.pinPlaced p).placeFreeze (if pin then gs.toNat else 0))
      else if loop = 1 then .ok (s.withPap fun x => { x with pinTrack := pinned x.pinTrack gs pin })
      else if loop = 2 then .ok (s.withPap fun x => { x with pinAge := pin })
      else .bad 0) (s.admitted cardLoopPin p) = .ok s1)
    (holds : ∀ t, PapolBut papolReg (papolByte s1) s1 t → t.pap.seat = s1.pap.seat → P t) : Answers (.loopPin p) cardLoopPin p s 0 0 [] P := by
  refine answers_of_told (st := stsOk) (s1 := s1) rfl acc ?_ fun t k told => holds t k ?_
  · exact (unlessBusy_none ((admitted_pendFor s cardLoopPin p _).trans free)).trans body
  · have seat := congrArg Papol.seat told
    exact seat

/-- A pin of the placement loop. -/
theorem loopPin_place (loop : pf p.payload 0 0 3 = 0) : Answers (.loopPin p) cardLoopPin p s 0 0 [] fun t =>
    t.pap.pinPlace = pinned s.pap.pinPlace ((pw p.payload 0).extractLsb' 4 3) (pb p.payload 0 8) ∧ t.pap.pinTrack = s.pap.pinTrack ∧
      t.pap.pinAge = s.pap.pinAge ∧
      (s.clk.placing = false → Touches [Reg.OUT_SW_STAT, Reg.SAFE_AGE_STAT] s t ∧ s.over t = s) ∧
      (pb p.payload 0 8 = true → (∃ g, g < 3 ∧ ((pw p.payload 0).extractLsb' 4 3).getLsbD g = true ∧ s.swEn g = true) → s.clk.placing = true →
        s.clk.ramp.isSome = true → t.clk.ramp = none ∧ t.clk.due = false ∧ t.reg Reg.OUT_SW_FREQI = s.reg Reg.OUT_SW_FREQI ∧
        t.reg Reg.OUT_SW_FREQA = s.reg Reg.OUT_SW_FREQI ∧ t.reg Reg.OUT_SW_FREQ = s.reg Reg.OUT_SW_FREQI) := by
  obtain ⟨place', track', age'⟩ := admitted_pins s cardLoopPin p
  have frame : Frame {} swShowReg s ((s.admitted cardLoopPin p).pinPlaced p) :=
    pinPlaced_frame p (Frame.admitted (by unfold swShowReg; decide) s cardLoopPin p)
  have pins := pinPlaced_pap (s.admitted cardLoopPin p) p
  have clk := frame.clk
  have en : ∀ g, g < 3 → ((s.admitted cardLoopPin p).pinPlaced p).swEn g = s.swEn g := fun g few => by
    have all : ∀ k : Fin 3, ¬ swShowReg (F.OUT_SW_OUTA_EN k.val).addr ∧ steady (F.OUT_SW_OUTA_EN k.val).addr = true := by
      unfold swShowReg
      decide
    exact frame.on_steady (all ⟨g, few⟩).1 (all ⟨g, few⟩).2
  have freq : ((s.admitted cardLoopPin p).pinPlaced p).reg Reg.OUT_SW_FREQI = s.reg Reg.OUT_SW_FREQI :=
    frame.reg_steady (by unfold swShowReg; decide) (by decide)
  refine loopPin_told acc free (s1 := ((s.admitted cardLoopPin p).pinPlaced p).placeFreeze
    (if pb p.payload 0 8 then ((pw p.payload 0).extractLsb' 4 3).toNat else 0)) (if_pos loop) ?_
  generalize (s.admitted cardLoopPin p).pinPlaced p = u at *
  intro t k seat
  obtain ⟨place, track, age⟩ := pins_of_seat (seat.trans (placeFreeze_seat u _))
  rw [pins] at place track age
  refine ⟨place.trans (congrArg (fun old => pinned old _ _) place'), track.trans track', age.trans age', fun still => ?_, fun pin named placing ramp => ?_⟩
  · rw [placeFreeze_none ((congrArg ClkX.placing clk).trans still)] at k
    have all := frame.papol k
    exact ⟨⟨all.regs.mono fun _ h => h.imp id fun e => by rcases e with rfl | rfl <;> simp, all.bytes⟩, all.rest⟩
  · obtain ⟨g, few, bit, live⟩ := named
    rw [pin, if_pos rfl, placeFreeze_frozen few ((inMask_toNat _ g).trans bit) ((en g few).trans live) ((congrArg ClkX.placing clk).trans placing)
      ((congrArg (fun c : ClkX => c.ramp.isSome) clk).trans ramp)] at k
    obtain ⟨-, ramp', due, now, active, shadow⟩ := frozen_ends u
    have told := Frame.of_papol k
    have clk' := told.clk
    exact ⟨(congrArg ClkX.ramp clk').trans ramp', (congrArg ClkX.due clk').trans due, ((told.reg_steady id (by decide)).trans now).trans freq,
      ((told.reg_steady id (by decide)).trans active).trans freq, ((told.reg_steady id (by decide)).trans shadow).trans freq⟩

theorem loopPin_track (loop : pf p.payload 0 0 3 = 1) : Answers (.loopPin p) cardLoopPin p s 0 0 [] fun t =>
    t.pap.pinPlace = s.pap.pinPlace ∧ t.pap.pinTrack = pinned s.pap.pinTrack ((pw p.payload 0).extractLsb' 4 3) (pb p.payload 0 8) ∧
      t.pap.pinAge = s.pap.pinAge ∧ Touches [Reg.OUT_SW_STAT, Reg.SAFE_AGE_STAT] s t ∧ s.over t = s := by
  obtain ⟨place', track', age'⟩ := admitted_pins s cardLoopPin p
  let s1 := (s.admitted cardLoopPin p).withPap fun x =>
    { x with pinTrack := pinned x.pinTrack ((pw p.payload 0).extractLsb' 4 3) (pb p.payload 0 8) }
  have frame : Frame {} (fun _ => False) s s1 := withPap_frame (Frame.admitted id s cardLoopPin p) _
  refine loopPin_told acc free (s1 := s1) ((if_neg (by omega)).trans (if_pos loop)) fun t k seat => ?_
  obtain ⟨place, track, age⟩ := pins_of_seat seat
  exact ⟨place.trans place', track.trans (congrArg (fun old => pinned old _ _) track'), age.trans age',
    ⟨(frame.papol k).papolBut.regs.mono fun _ => .inl, (frame.papol k).bytes⟩, (frame.papol k).rest⟩

theorem loopPin_age (loop : pf p.payload 0 0 3 = 2) : Answers (.loopPin p) cardLoopPin p s 0 0 [] fun t =>
    t.pap.pinPlace = s.pap.pinPlace ∧ t.pap.pinTrack = s.pap.pinTrack ∧ t.pap.pinAge = pb p.payload 0 8 ∧
      Touches [Reg.OUT_SW_STAT, Reg.SAFE_AGE_STAT] s t ∧ s.over t = s := by
  obtain ⟨place', track', age'⟩ := admitted_pins s cardLoopPin p
  let s1 := (s.admitted cardLoopPin p).withPap fun x => { x with pinAge := pb p.payload 0 8 }
  have frame : Frame {} (fun _ => False) s s1 := withPap_frame (Frame.admitted id s cardLoopPin p) _
  refine loopPin_told acc free (s1 := s1) ((if_neg (by omega)).trans ((if_neg (by omega)).trans (if_pos loop))) fun t k seat => ?_
  obtain ⟨place, track, age⟩ := pins_of_seat seat
  exact ⟨place.trans place', track.trans track', age,
    ⟨(frame.papol k).papolBut.regs.mono fun _ => .inl, (frame.papol k).bytes⟩, (frame.papol k).rest⟩

end

end Sys2Proof.Machine
end

section
/-!
# STATE_SYNC (spec/04_command_protocol.md, R172, R173, R190)
-/

namespace Sys2Proof.Machine

-- One theorem after the other: in one text, theorems that wait for the kernel would each hold a thread.
set_option Elab.async false

/-! ## The reply's words -/

theorem sha256_length (bs : List Byte) : (Crypto.sha256 bs).length = 8 := by
  unfold Crypto.sha256
  rfl

theorem fillTo_length (n : Nat) (l : List Word) : (fillTo n l).length = n := by
  unfold fillTo
  rw [List.length_map, List.length_range]

/-- The words of the reply that tell the series, the journals, CFGGEN and the power state. -/
def State.syncHead (s : State) : List Word :=
  [w32 (s.pap.exp0.toNat * 2 ^ 16 + s.pap.exp1.toNat), w32 (s.pap.last0.toNat * 2 ^ 16 + s.pap.last1.toNat),
    w32 (s.pap.eseq.toNat * 2 ^ 16 + s.pap.eack.toNat), s.pap.cfggen,
    w32 ((if s.on F.PWR_STATE_TRANS then 0x80 + s.rd F.PWR_STATE_TARGET else s.pstate) * 2 ^ 24 + s.pap.slots.length * 2 ^ 16
      + s.pap.replies.length * 2 ^ 8 + s.pap.events.length)]

/-- They come first, and the reply has a fixed length. -/
theorem syncWords_head (s : State) : ∃ rest : List Word, rest.length = 272 ∧ s.syncWords = s.syncHead ++ rest := by
  unfold State.syncWords
  refine ⟨_, ?_, (List.append_assoc _ _ _).trans ((List.append_assoc _ _ _).trans (List.append_assoc _ _ _))⟩
  simp only [List.length_append, sha256_length, fillTo_length]

theorem syncWords_length (s : State) : s.syncWords.length = 277 := by
  obtain ⟨rest, len, eq⟩ := syncWords_head s
  rw [eq, List.length_append, len]
  rfl

/-! ## The state at the card -/

section
variable (s : State) (p : Packet)

/-- A register that neither a packet nor Papol's counters move. -/
theorem taken_steady {op : Nat} {f : Field} (still : steady f.addr = true := by decide) : (s.taken op p).rd f = s.rd f :=
  (Frame.of_papol (taken_papol s op p)).rd_steady id still

theorem taken_check (c : CmdSpec) : c.check p (s.taken c.opcode p) = c.check p s := by
  have but := taken_papol s c.opcode p
  have rd : ∀ f : Field, f.addr < 0x100400 → f.addr ≠ Reg.CTL_SEC_CNT → f.addr ≠ Reg.CTL_CLK_STAT → (s.taken c.opcode p).rd f = s.rd f :=
    fun f low cnt clk => but.rd (not_papolReg cnt (.inl low)) clk
  exact check_congr (congrArg Sec.key but.sec) (rd _ (by decide) (by decide) (by decide)) (congrArg Pwr.origin but.pwr)
    (rd _ (by decide) (by decide) (by decide)) (rd _ (by decide) (by decide) (by decide)) (rd _ (by decide) (by decide) (by decide))

theorem taken_syncHead (op : Nat) : (s.taken op p).syncHead = s.syncHead := by
  have trans : (s.taken op p).on F.PWR_STATE_TRANS = s.on F.PWR_STATE_TRANS := congrArg (fun n => decide (n = 1)) (taken_steady s p)
  unfold State.syncHead State.pstate
  rw [taken_pap, trans, taken_steady s p (f := F.PWR_STATE_TARGET), taken_steady s p (f := F.PWR_STATE_STATE)]

/-- The state in which STATE_SYNC is answered. -/
def State.synced : State := if p.auth then (s.taken 0x001 p).authPassed else s.taken 0x001 p

theorem synced_papol : PapolBut papolReg (papolByte s) s (s.synced p) := by
  have start := Frame.of_papol (taken_papol s 0x001 p)
  unfold State.synced
  exact (Frame.ite (start.papol (PapolBut.wr _ _ _ consec_papol)) start).papolBut

theorem synced_pap : (s.synced p).pap = s.pap := by
  unfold State.synced State.authPassed
  split
  · exact (State.wr_pap _ _ _).trans (taken_pap s 0x001 p)
  · exact taken_pap s 0x001 p

end

/-! ## The answer -/

section
variable {p : Packet} {s : State} (stands : Stands cardStateSync p s) (whole : crc32c (p.covered 0x001) = p.crc)
  (checks : cardStateSync.check p s = none)
include stands whole checks

theorem stateSync_answers : exec (.stateSync p) s =
    .next ((s.synced p).answer 0x001 p p.auth false stsOk 0 false (s.taken 0x001 p).syncWords) := by
  show Host.Outcome.next _ = _
  refine congrArg Host.Outcome.next ((takeWith_stands stands _).trans ?_)
  unfold State.judgeSync
  rw [if_neg (fun e => e whole)]
  have passes := (taken_check s p cardStateSync).trans checks
  rw [show cardStateSync.opcode = 0x001 from rfl] at passes ⊢
  rw [passes]
  rfl

end

/-- An unjournaled reply leaves the reply journal. -/
theorem emit_replies {s : State} {h : HeldReply} (none : s.pap.held = []) (journal : h.journaled = false) (final : h.final = false) :
    (s.emit h).pap.replies = s.pap.replies := by
  cases space : s.ringSpace 2 (s.replyWords h).length with
  | true =>
    unfold State.emit
    rw [none, List.nil_append, flushHeld_space space, wrote_unjournaled journal final, ringPut_pap]
  | false => rw [emit_full none space]

theorem answer_unjournaled {s : State} (none : s.pap.held = []) (op : Nat) (p : Packet) (auth : Bool) (st d : Nat) (tr : Bool) (ws : List Word) :
    (s.answer op p auth false st d tr ws).pap.replies = s.pap.replies := by
  unfold State.answer
  simp only [Bool.false_eq_true, if_false, Bool.false_and]
  split
  · rfl
  · exact emit_replies none rfl rfl

/-- The held reply that STATE_SYNC leaves where it asks for one. -/
def State.syncReply (s : State) (p : Packet) : HeldReply :=
  ⟨replyHead 0x001 p.ring1 false false false p.cseq stsOk 0 (s.taken 0x001 p).syncWords.length (s.taken 0x001 p).syncWords, false, false, false,
    p.ring1, p.cseq⟩

/-- The reply of an unauthenticated STATE_SYNC stands whole in ring 2 where there is space. -/
theorem stateSync_written {p : Packet} {s : State} (stands : Stands cardStateSync p s) (reply : p.noreply = false) (plain : p.auth = false)
    (space : s.ringSpace 2 (s.syncWords.length + 4) = true) :
    let t := (s.synced p).answer 0x001 p p.auth false stsOk 0 false (s.taken 0x001 p).syncWords
    t.didx 2 = (s.didx 2 + s.syncWords.length + 4) % 2 ^ 17 ∧ t.ringWords 2 (s.didx 2 + 3) 5 = s.syncHead := by
  intro t
  have shape : s.synced p = s.taken 0x001 p := by
    unfold State.synced
    rw [plain]
    rfl
  have emitted : t = (s.taken 0x001 p).emit (s.syncReply p) := by
    show (s.synced p).answer _ _ _ _ _ _ _ _ = _
    rw [shape, plain]
    unfold State.answer
    rw [reply]
    rfl
  have none : (s.taken 0x001 p).pap.held = [] := (congrArg Papol.held (taken_pap s 0x001 p)).trans stands.free
  have didx : (s.taken 0x001 p).didx 2 = s.didx 2 := taken_didx s 0x001 p (by omega)
  have len := replyWords_length (s.taken 0x001 p) 0x001 p.ring1 false false false p.cseq stsOk 0 (s.taken 0x001 p).syncWords.length
    (s.taken 0x001 p).syncWords false false p.ring1 p.cseq
  have words := replyWords_head (s.taken 0x001 p) 0x001 p.ring1 false false false p.cseq stsOk 0 (s.taken 0x001 p).syncWords.length
    (s.taken 0x001 p).syncWords false false p.ring1 p.cseq
  have room := (taken_ringSpace s 0x001 p (s.syncWords.length + 4)).trans space
  obtain ⟨rest, -, head⟩ := syncWords_head (s.taken 0x001 p)
  have first := taken_syncHead s p 0x001
  rw [emitted]
  unfold State.syncReply
  simp only [syncWords_length] at len words room ⊢
  generalize s.taken 0x001 p = u at *
  have w := emit_written none (by rw [len]; exact room)
  have past := w.past
  have whole := w.words
  rw [len, didx] at past
  rw [len, didx] at whole
  refine ⟨past, ?_⟩
  rw [ringWords_take _ 2 5 (281 - 3) _ (by omega), ringWords_drop _ 2 3 281 _ (by omega)]
  refine (congrArg (fun l => (List.drop 3 l).take 5) whole).trans ?_
  rw [words, head, first]
  rfl

theorem stateSync_holds {p : Packet} {s : State} (stands : Stands cardStateSync p s) (whole : crc32c (p.covered 0x001) = p.crc)
    (checks : cardStateSync.check p s = none) : ∃ t, exec (.stateSync p) s = .next t ∧ PapolBut papolReg (papolByte s) s t ∧
      t.pap.exp0 = s.pap.exp0 ∧ t.pap.exp1 = s.pap.exp1 ∧ t.pap.eack = s.pap.eack ∧ t.pap.replies = s.pap.replies ∧ t.pap.slots = s.pap.slots ∧
      (p.noreply = false → p.auth = false → s.ringSpace 2 (s.syncWords.length + 4) = true →
        t.didx 2 = (s.didx 2 + s.syncWords.length + 4) % 2 ^ 17 ∧ t.ringWords 2 (s.didx 2 + 3) 5 = s.syncHead) := by
  have pap := synced_pap s p
  have told := answer_noReplies (s.synced p) 0x001 p p.auth false stsOk 0 false (s.taken 0x001 p).syncWords
  rw [pap] at told
  have exp0 := congrArg Papol.exp0 told
  have exp1 := congrArg Papol.exp1 told
  have eack := congrArg Papol.eack told
  have slots := congrArg Papol.slots told
  exact ⟨_, stateSync_answers stands whole checks, (Frame.of_papol (synced_papol s p)).answer.papolBut, exp0, exp1, eack,
    (answer_unjournaled ((congrArg Papol.held pap).trans stands.free) _ _ _ _ _ _ _).trans (congrArg Papol.replies pap), slots,
    fun reply plain space => stateSync_written stands reply plain space⟩

/-- Settles O17: the system commands complete with their results, and STATE_SYNC tells the series without counting in them. -/
theorem systemCommandsAndStateSync : Obligations.SystemCommandsAndStateSync := by
  unfold Obligations.SystemCommandsAndStateSync
  refine ⟨fun p s => ⟨nop_answers, fun acc ws hit => journalRead_answers acc hit, sysInfo_answers, eventCfg_answers, fun acc few => ?_⟩,
    fun p s stands whole checks => stateSync_holds stands whole checks⟩
  intro k gs free
  obtain loop | loop | loop : k = 0 ∨ k = 1 ∨ k = 2 := by omega
  · refine (loopPin_place acc free loop).imp fun t told => ?_
    obtain ⟨place, track, age, still, freeze⟩ := told
    exact ⟨by rw [if_pos loop]; exact place, by rw [if_neg (by omega)]; exact track, by rw [if_neg (by omega)]; exact age,
      fun calm => still (calm loop), fun _ => freeze⟩
  · refine (loopPin_track acc free loop).imp fun t told => ?_
    obtain ⟨place, track, age, still⟩ := told
    exact ⟨by rw [if_neg (by omega)]; exact place, by rw [if_pos loop]; exact track, by rw [if_neg (by omega)]; exact age,
      fun _ => still, fun other => absurd (loop.symm.trans other) (by decide)⟩
  · refine (loopPin_age acc free loop).imp fun t told => ?_
    obtain ⟨place, track, age, still⟩ := told
    exact ⟨by rw [if_neg (by omega)]; exact place, by rw [if_neg (by omega)]; exact track, by rw [if_pos loop]; exact age,
      fun _ => still, fun other => absurd (loop.symm.trans other) (by decide)⟩

end Sys2Proof.Machine
end

section
/-!
# S/PDIF settings and channel status (spec/05_streams_ports.md, R240, R247 to R251)
-/

namespace Sys2Proof.Machine

-- One theorem after the other: in one text, theorems that wait for the kernel would each hold a thread.
set_option Elab.async false

/-! ## Operations on the ports' own state -/

/-- The ports' own state changed. -/
def State.withSpdif (s : State) (f : SpdifX → SpdifX) : State := { s with spdif := f s.spdif }

theorem withSpdif_spdif (s : State) (f : SpdifX → SpdifX) : (s.withSpdif f).spdif = f s.spdif := rfl

theorem withSpdif_frame {R : Nat → Prop} {s t : State} (h : Frame { spdif := true } R s t) (f : SpdifX → SpdifX) :
    Frame { spdif := true } R s (t.withSpdif f) := h.upd rfl

theorem admitted_spdif (s : State) (c : CmdSpec) (p : Packet) : (s.admitted c p).spdif = s.spdif :=
  (Frame.admitted (R := fun _ => False) (m := {}) id s c p).spdif

theorem admitted_cfgpar {s : State} (none : s.link.cfgpar = []) (c : CmdSpec) (p : Packet) : (s.admitted c p).link.cfgpar = [] :=
  (congrArg Link.cfgpar (admitted_link s c p)).trans none

/-- A command that changes the ports' own state alone. -/
theorem answers_spdif {i : Instr} {c : CmdSpec} {p : Packet} {s : State} {body : State → Res} (f : SpdifX → SpdifX)
    (run : exec i s = s.card c p body) (acc : Accepted c p s) (done : body (s.admitted c p) = .ok ((s.admitted c p).withSpdif f)) :
    Answers i c p s 0 0 [] fun t => (Touches [] s t ∧ { s.over t with spdif := s.spdif } = s) ∧ t.spdif = f s.spdif := by
  have frame : Frame { spdif := true } (· ∈ []) s ((s.admitted c p).withSpdif f) :=
    withSpdif_frame (Frame.admitted List.not_mem_nil s c p) f
  refine answers_of_done (st := stsOk) (cl := []) run acc done fun t k => ⟨⟨(frame.papol k).touches, (frame.papol k).rest⟩, ?_⟩
  rw [(Frame.of_papol k).spdif, withSpdif_spdif, admitted_spdif]

/-! ## Settings and channel status -/

/-- The receiver's settings as SPDIF_RX_CFG leaves them. -/
def SpdifX.rxSet (x : SpdifX) (c : SpdRx) : SpdifX := if x.rxEn then { x with rxNext := some c } else { x with rx := c, rxNext := none }

/-- The transmitter's settings as SPDIF_TX_CFG leaves them. -/
def SpdifX.txSet (x : SpdifX) (c : SpdTx) : SpdifX := if x.txEn then { x with txNext := some c } else { x with tx := c, txNext := none }

theorem rxSet_shows (x : SpdifX) (c : SpdRx) :
    if x.rxEn then (x.rxSet c).rx = x.rx ∧ (x.rxSet c).rxNext = some c else (x.rxSet c).rx = c ∧ (x.rxSet c).rxNext = none := by
  unfold SpdifX.rxSet
  cases x.rxEn <;> exact ⟨rfl, rfl⟩

theorem txSet_shows (x : SpdifX) (c : SpdTx) :
    if x.txEn then (x.txSet c).tx = x.tx ∧ (x.txSet c).txNext = some c else (x.txSet c).tx = c ∧ (x.txSet c).txNext = none := by
  unfold SpdifX.txSet
  cases x.txEn <;> exact ⟨rfl, rfl⟩

section
variable {p : Packet} {s : State}

theorem spdifRxCfg_answers (acc : Accepted cardSpdifRxCfg p s) (rate : pf p.payload 0 0 4 = 0xF ∨ spdRate (pf p.payload 0 0 4) = true)
    (free : s.pendFor? [.port 2] = none) (up : DomUp s dmSpdRx) : Answers (.spdifRxCfg p) cardSpdifRxCfg p s 0 0 [] fun t =>
      (Touches [] s t ∧ { s.over t with spdif := s.spdif } = s) ∧
      t.spdif = s.spdif.rxSet ⟨pb p.payload 0 8, pf p.payload 0 0 4, pf p.payload 1 0 16⟩ := by
  refine answers_spdif (fun x => x.rxSet ⟨pb p.payload 0 8, pf p.payload 0 0 4, pf p.payload 1 0 16⟩) rfl acc ?_
  have good : ¬ (pf p.payload 0 0 4 ≠ 0xF ∧ ¬ spdRate (pf p.payload 0 0 4) = true) := fun ⟨h, k⟩ => rate.elim h k
  exact (if_neg good).trans ((unlessBusy_none ((admitted_pendFor s _ p _).trans free)).trans (withDomains_up (admitted_need up _ p (by decide))))

theorem spdifTxCfg_answers (acc : Accepted cardSpdifTxCfg p s) (rate : spdRate (pf p.payload 0 0 4) = true)
    (family : s.inFamily (rateHz (pf p.payload 0 0 4)) = true) (free : s.pendFor? [.port 3] = none) (up : DomUp s dmSpdTx) :
    Answers (.spdifTxCfg p) cardSpdifTxCfg p s 0 0 [] fun t => (Touches [] s t ∧ { s.over t with spdif := s.spdif } = s) ∧
      t.spdif = s.spdif.txSet ⟨pb p.payload 0 9, pb p.payload 0 8, pf p.payload 0 0 4, pb p.payload 1 0⟩ := by
  refine answers_spdif (fun x => x.txSet ⟨pb p.payload 0 9, pb p.payload 0 8, pf p.payload 0 0 4, pb p.payload 1 0⟩) rfl acc ?_
  have family' : (s.admitted cardSpdifTxCfg p).inFamily (rateHz (pf p.payload 0 0 4)) = true := by
    unfold State.inFamily at family ⊢
    rw [admitted_clkField s cardSpdifTxCfg p (f := F.CTL_CLK_STAT_AUDFAM)]
    exact family
  have good : ¬ (¬ spdRate (pf p.payload 0 0 4) = true ∨ ¬ (s.admitted cardSpdifTxCfg p).inFamily (rateHz (pf p.payload 0 0 4)) = true) :=
    fun h => h.elim (· rate) (· family')
  exact (if_neg good).trans ((unlessBusy_none ((admitted_pendFor s _ p _).trans free)).trans (withDomains_up (admitted_need up _ p (by decide))))

theorem spdifCsRead_answers (acc : Accepted cardSpdifCsRead p s) : Answers (.spdifCsRead p) cardSpdifCsRead p s 0 0
    (if pb p.payload 0 8 then (if pb p.payload 0 0 then s.spdif.txB else s.spdif.txA)
      else (if pb p.payload 0 0 then s.spdif.rxB else s.spdif.rxA)) (PapolBut papolReg (papolByte s) s) := by
  refine answers_unchanged (cl := []) rfl acc ?_
  dsimp only
  rw [admitted_spdif]
  rfl

theorem spdifCsWrite_answers (acc : Accepted cardSpdifCsWrite p s) (which : pf p.payload 0 0 2 ≠ 3) (plain : pf p.payload 1 0 2 = 0)
    (free : s.pendFor? [.port 3] = none) (up : DomUp s dmSpdTx) : Answers (.spdifCsWrite p) cardSpdifCsWrite p s 0 0 [] fun t =>
      (Touches [] s t ∧ { s.over t with spdif := s.spdif } = s) ∧
      t.spdif.txA = (if pf p.payload 0 0 2 = 2 then s.spdif.txA else (List.range 6).map fun i => pw p.payload (i + 1)) ∧
      t.spdif.txB = (if pf p.payload 0 0 2 = 1 then s.spdif.txB else (List.range 6).map fun i => pw p.payload (i + 1)) := by
  have clear : ¬ (pb p.payload 1 0 = true ∨ pb p.payload 1 1 = true) := by
    have low : bits (pw p.payload 1) 0 2 = 0 := plain
    unfold pb bit
    unfold bits at *
    simp only [decide_eq_true_eq]
    omega
  refine (answers_spdif (fun x => { x with
      txA := if pf p.payload 0 0 2 ≠ 2 then (List.range 6).map fun i => pw p.payload (i + 1) else x.txA,
      txB := if pf p.payload 0 0 2 ≠ 1 then (List.range 6).map fun i => pw p.payload (i + 1) else x.txB }) rfl acc
    ((if_neg which).trans ((if_neg clear).trans ((unlessBusy_none ((admitted_pendFor s _ p _).trans free)).trans
      (withDomains_up (admitted_need up _ p (by decide))))))).imp fun t told => ⟨told.1, ?_, ?_⟩
  · exact (congrArg SpdifX.txA told.2).trans (ite_not ..)
  · exact (congrArg SpdifX.txB told.2).trans (ite_not ..)

end

/-! ## PORT_ENABLE -/

/-- The receiver out of lock. -/
def State.rxOut (s : State) : State := ((s.clr F.IN_SPDRX_STAT_LOCK).clr F.IN_SPDRX_STAT_NONPCM).wr F.IN_SPDRX_STAT_FSMEAS 0xF

theorem rxOut_local (s : State) : Local {} (· = Reg.IN_SPDRX_STAT) s s.rxOut := by
  have start : Local {} (· = Reg.IN_SPDRX_STAT) s s := .refl s
  exact ((start.clr (f := F.IN_SPDRX_STAT_LOCK) rfl).clr (f := F.IN_SPDRX_STAT_NONPCM) rfl).wr (f := F.IN_SPDRX_STAT_FSMEAS) rfl

theorem rxOut_shows (s : State) : s.rxOut.rd F.IN_SPDRX_STAT_LOCK = 0 ∧ s.rxOut.rd F.IN_SPDRX_STAT_FSMEAS = 0xF :=
  ⟨(State.rd_wr_off _ (f := F.IN_SPDRX_STAT_FSMEAS) _).trans ((State.rd_clr_off _ (f := F.IN_SPDRX_STAT_NONPCM)).trans
      (State.rd_wr_same _ _ (by decide))), State.rd_wr_same _ _ (by decide)⟩

/-- The receiver's own state as its enable leaves it: its settings in force. -/
def SpdifX.rxOn (x : SpdifX) : SpdifX := { x with rxEn := true, npAge := 0, seen := 0, rx := x.rxNext.getD x.rx, rxNext := none }

/-- The transmitter's own state as its enable leaves it: its first block begins. -/
def SpdifX.txOn (x : SpdifX) : SpdifX :=
  let c := x.txNext.getD x.tx
  { x with txEn := true, tx := c, txNext := none, sentA := c.block x.txA, sentB := c.block x.txB }

theorem setPort_receiver (s : State) : s.setPort 2 true = ((s.withSpdif fun x => { x with rxEn := true, npAge := 0, seen := 0 }).rxOut).rxBoundary := rfl

theorem setPort_transmitter (s : State) : s.setPort 3 true = s.withSpdif SpdifX.txOn := rfl

theorem releasePort_receiver (s : State) : s.releasePort 2 = s := rfl

theorem releasePort_transmitter (s : State) : s.releasePort 3 = s.releasePads 3 := rfl

theorem withSpdif_local {R : Nat → Prop} (s : State) (f : SpdifX → SpdifX) : Local { spdif := true } R s (s.withSpdif f) := (Local.refl s).upd rfl

theorem rxBoundary_local {R : Nat → Prop} (s : State) : Local { spdif := true } R s s.rxBoundary := (Local.refl s).upd rfl

theorem rxBoundary_spdif (s : State) : s.rxBoundary.spdif = { s.spdif with rx := s.spdif.rxNext.getD s.spdif.rx, rxNext := none } := rfl

theorem rxBoundary_rd (s : State) (f : Field) : s.rxBoundary.rd f = s.rd f := rfl

/-- What the enable of the receiver shows. -/
theorem receiver_on (s : State) : Local { spdif := true } (· = Reg.IN_SPDRX_STAT) s (s.setPort 2 true) ∧
    (s.setPort 2 true).spdif = s.spdif.rxOn ∧ (s.setPort 2 true).rd F.IN_SPDRX_STAT_LOCK = 0 ∧ (s.setPort 2 true).rd F.IN_SPDRX_STAT_FSMEAS = 0xF := by
  rw [setPort_receiver]
  have first : Local { spdif := true } (· = Reg.IN_SPDRX_STAT) s (s.withSpdif fun x => { x with rxEn := true, npAge := 0, seen := 0 }) :=
    withSpdif_local s _
  have own := withSpdif_spdif s fun x => { x with rxEn := true, npAge := 0, seen := 0 }
  generalize s.withSpdif _ = u at *
  have out := rxOut_local u
  have spdif := out.part State.spdif
  obtain ⟨lock, rate⟩ := rxOut_shows u
  generalize u.rxOut = v at *
  refine ⟨(first.trans out.wider).trans (rxBoundary_local v), ?_, (rxBoundary_rd v _).trans lock, (rxBoundary_rd v _).trans rate⟩
  rw [rxBoundary_spdif, spdif, own]
  rfl

theorem transmitter_on (s : State) : Local { spdif := true } (· = Reg.PWR_GECKO) s ((s.setPort 3 true).releasePads 3) ∧
    ((s.setPort 3 true).releasePads 3).spdif = s.spdif.txOn ∧ ((s.setPort 3 true).releasePads 3).rd ⟨Reg.PWR_GECKO, 3, 1⟩ = 0 := by
  rw [setPort_transmitter]
  exact ⟨(withSpdif_local s _).clr (f := ⟨Reg.PWR_GECKO, 3, 1⟩) rfl, (State.clr_spdif _ _).trans (withSpdif_spdif s _),
    State.rd_wr_same _ _ (by decide)⟩

section
variable {p : Packet} {s : State} (acc : Accepted cardPortEnable p s) (enables : pb p.payload 0 8 = true) (held : s.link.cfgpar = [])
include acc enables held

/-- PORT_ENABLE of a port that is off waits for its first frame. -/
theorem portEnable_waits {k : Nat} {P : State → Prop} {s1 : State} (port : pf p.payload 0 0 4 = k) (few : k ≤ 3)
    (off : (s.admitted cardPortEnable p).portEn k = false) (free : Free s [.port k]) (up : DomUp s (dmPort k)) (high : 0x10 ≤ dmPort k)
    (left : ((s.admitted cardPortEnable p).setPort k true).releasePort k = s1) (slots : s1.pap = (s.admitted cardPortEnable p).pap)
    (holds : ∀ t, PapolBut papolReg (papolByte s1) s1 t → P t) : Awaits (.portEnable p) cardPortEnable p s [] [.port k] P := by
  subst port
  have calm := admitted_cfgpar held cardPortEnable p
  have slot : s1.freeSlot? ≠ none := by
    unfold State.freeSlot?
    rw [slots]
    exact (admitted_free free).2
  refine awaits_of_pend rfl acc ?_ slot holds
  refine (if_neg (by omega)).trans ((if_pos enables).trans ((unlessBusy_free (admitted_free free)).trans
    ((if_neg (by rw [off]; decide)).trans ((if_neg (by rw [calm]; exact Bool.false_ne_true)).trans ((withDomains_up (admitted_need up _ p high)).trans ?_)))))
  rw [cfgLeave_nil calm, left]

theorem portEnable_receiver (port : pf p.payload 0 0 4 = 2) (off : s.spdif.rxEn = false) (free : Free s [.port 2]) (up : DomUp s dmSpdRx) :
    Awaits (.portEnable p) cardPortEnable p s [] [.port 2] fun t => t.spdif.rxEn = true ∧ t.spdif.rx = s.spdif.rxNext.getD s.spdif.rx ∧
      t.rd F.IN_SPDRX_STAT_LOCK = 0 ∧ t.rd F.IN_SPDRX_STAT_FSMEAS = 0xF ∧ Touches [Reg.IN_SPDRX_STAT] s t ∧
      { s.over t with spdif := s.spdif } = s := by
  have own := admitted_spdif s cardPortEnable p
  obtain ⟨moved, spdif, lock, rate⟩ := receiver_on (s.admitted cardPortEnable p)
  have frame : Frame { spdif := true } (· ∈ [Reg.IN_SPDRX_STAT]) s ((s.admitted cardPortEnable p).setPort 2 true) :=
    (moved.mono fun _ e => List.mem_singleton.2 e).within (Frame.admitted (by decide) s cardPortEnable p)
  refine portEnable_waits acc enables held (k := 2) port (by decide) ((congrArg SpdifX.rxEn own).trans off) free up (by decide)
    (releasePort_receiver _) moved.pap fun t k => ?_
  have told := Frame.of_papol (s := (s.admitted cardPortEnable p).setPort 2 true) k
  have kept : t.spdif = s.spdif.rxOn := told.spdif.trans (spdif.trans (congrArg SpdifX.rxOn own))
  exact ⟨congrArg SpdifX.rxEn kept, congrArg SpdifX.rx kept, (told.rd_steady id (by decide)).trans lock, (told.rd_steady id (by decide)).trans rate,
    (frame.papol k).touches, (frame.papol k).rest⟩

theorem portEnable_transmitter (port : pf p.payload 0 0 4 = 3) (off : s.spdif.txEn = false) (free : Free s [.port 3]) (up : DomUp s dmSpdTx) :
    Awaits (.portEnable p) cardPortEnable p s [] [.port 3] fun t => t.spdif.txEn = true ∧ t.spdif.tx = s.spdif.txNext.getD s.spdif.tx ∧
      t.rd ⟨Reg.PWR_GECKO, 3, 1⟩ = 0 ∧ Touches [Reg.PWR_GECKO] s t ∧ { s.over t with spdif := s.spdif } = s := by
  have own := admitted_spdif s cardPortEnable p
  obtain ⟨moved, spdif, pads⟩ := transmitter_on (s.admitted cardPortEnable p)
  have frame : Frame { spdif := true } (· ∈ [Reg.PWR_GECKO]) s (((s.admitted cardPortEnable p).setPort 3 true).releasePads 3) :=
    (moved.mono fun _ e => List.mem_singleton.2 e).within (Frame.admitted (by decide) s cardPortEnable p)
  refine portEnable_waits acc enables held (k := 3) port (by decide) ((congrArg SpdifX.txEn own).trans off) free up (by decide)
    (releasePort_transmitter _) moved.pap fun t k => ?_
  have told := Frame.of_papol (s := ((s.admitted cardPortEnable p).setPort 3 true).releasePads 3) k
  have kept : t.spdif = s.spdif.txOn := told.spdif.trans (spdif.trans (congrArg SpdifX.txOn own))
  exact ⟨congrArg SpdifX.txEn kept, congrArg SpdifX.tx kept, (told.rd_steady id (by decide)).trans pads, (frame.papol k).touches, (frame.papol k).rest⟩

end

end Sys2Proof.Machine
end

section
/-!
# S/PDIF blocks, lock and loss (spec/05_streams_ports.md, R242 to R249)
-/

namespace Sys2Proof.Machine

-- One theorem after the other: in one text, theorems that wait for the kernel would each hold a thread.
set_option Elab.async false

/-! ## Lock and loss -/

theorem Local.sameRegs {m : Parts} {R : Nat → Prop} {s t : State} (h : Local m R s t) : SameRegsBut R s t := fun a away => .inl (h.regs a away)

theorem spdRate_lt {c : Nat} (h : spdRate c = true) : c < 2 ^ 4 := by
  unfold spdRate at h
  have mem := List.elem_iff.1 h
  simp only [List.mem_cons, List.not_mem_nil, or_false] at mem
  omega

theorem Local.spdifOnly {R : Nat → Prop} {s t : State} (h : Local { spdif := true } R s t) : { t with regs := s.regs, spdif := s.spdif } = s := h.exact

/-- The receiver in lock at a rate. -/
def State.rxLocked (s : State) (c : Nat) : State := ((s.withSpdif fun x => { x with seen := 0 }).set1 F.IN_SPDRX_STAT_LOCK).wr F.IN_SPDRX_STAT_FSMEAS c

theorem rxLocked_shows (s : State) {c : Nat} (few : c < 2 ^ 4) : (s.rxLocked c).rd F.IN_SPDRX_STAT_LOCK = 1 ∧
    (s.rxLocked c).rd F.IN_SPDRX_STAT_FSMEAS = c ∧ Local { spdif := true } (· = Reg.IN_SPDRX_STAT) s (s.rxLocked c) := by
  have start : Local { spdif := true } (· = Reg.IN_SPDRX_STAT) s (s.withSpdif fun x => { x with seen := 0 }) := withSpdif_local s _
  refine ⟨(State.rd_wr_off _ (f := F.IN_SPDRX_STAT_FSMEAS) _).trans (State.rd_wr_same _ _ (by decide)), State.rd_wr_fits _ (by decide) few,
    (start.set1 (f := F.IN_SPDRX_STAT_LOCK) rfl).wr (f := F.IN_SPDRX_STAT_FSMEAS) rfl⟩

theorem spdifLock_run {s : State} {rate : Nat} (en : s.spdif.rxEn = true) (good : spdRate (rateCode rate 5) = true)
    (expected : s.spdif.rx.expfs = 0xF ∨ s.spdif.rx.expfs = rateCode rate 5) :
    exec (.spdifLock rate) s = .next (s.rxLocked (rateCode rate 5)) := by
  show execSpdifLock rate s = _
  unfold execSpdifLock
  rw [if_pos ⟨en, good, expected⟩]
  rfl

theorem spdifLock_locks {s : State} {rate : Nat} (en : s.spdif.rxEn = true) (good : spdRate (rateCode rate 5) = true)
    (expected : s.spdif.rx.expfs = 0xF ∨ s.spdif.rx.expfs = rateCode rate 5) : ∃ t, exec (.spdifLock rate) s = .next t ∧
      t.rd F.IN_SPDRX_STAT_LOCK = 1 ∧ t.rd F.IN_SPDRX_STAT_FSMEAS = rateCode rate 5 ∧
      SameRegsBut (fun x => x = Reg.IN_SPDRX_STAT) s t ∧ { t with regs := s.regs, spdif := s.spdif } = s := by
  have run := spdifLock_run en good expected
  obtain ⟨lock, code, moved⟩ := rxLocked_shows s (spdRate_lt good)
  generalize s.rxLocked (rateCode rate 5) = t at *
  exact ⟨t, run, lock, code, moved.sameRegs, moved.spdifOnly⟩

/-- The receiver's lock lost. -/
def State.rxLost (s : State) : State := (s.clr F.IN_SPDRX_STAT_LOCK).set1 F.IN_SPDRX_STAT_LOST

theorem spdifLost_clears {s : State} (lock : s.on F.IN_SPDRX_STAT_LOCK = true) : ∃ t, exec .spdifLost s = .next t ∧
    t.rd F.IN_SPDRX_STAT_LOCK = 0 ∧ t.rd F.IN_SPDRX_STAT_LOST = 1 ∧ SameRegsBut (fun x => x = Reg.IN_SPDRX_STAT) s t ∧
    { t with regs := s.regs } = s := by
  have start : Local {} (· = Reg.IN_SPDRX_STAT) s s := .refl s
  have moved : Local {} (· = Reg.IN_SPDRX_STAT) s s.rxLost := (start.clr (f := F.IN_SPDRX_STAT_LOCK) rfl).set1 (f := F.IN_SPDRX_STAT_LOST) rfl
  exact ⟨s.rxLost, if_pos lock, (State.rd_set1_off _ (f := F.IN_SPDRX_STAT_LOST)).trans (State.rd_wr_same _ _ (by decide)),
    State.rd_wr_same _ _ (by decide), moved.sameRegs, moved.exact⟩

/-! ## Blocks -/

theorem spdifCsBlock_sends {s : State} (en : s.spdif.txEn = true) (a b : List Subframe) (va vb : Bool) :
    ∃ t, exec (.spdifCsBlock true a b va vb) s = .next t ∧ t.spdif.tx = s.spdif.txNext.getD s.spdif.tx ∧ t.spdif.txNext = none ∧
      (t.spdif.tx.autofs = false → t.spdif.sentA = s.spdif.txA ∧ t.spdif.sentB = s.spdif.txB) ∧ { t with spdif := s.spdif } = s := by
  refine ⟨s.txBlock, if_pos en, rfl, rfl, fun plain => ?_, rfl⟩
  have sent : ∀ blk, (s.spdif.txNext.getD s.spdif.tx).block blk = blk := fun blk => if_neg (by
    rw [show (s.spdif.txNext.getD s.spdif.tx).autofs = false from plain]
    decide)
  exact ⟨sent _, sent _⟩

/-- The channel-status words of a block as bits of its frames. -/
theorem foldl_maskOf (p : Nat → Bool) : ∀ n, (List.range n).foldl (fun m j => m + b2n (p j) * 2 ^ j) 0 = maskOf n p
  | 0 => rfl
  | n + 1 => by
    rw [List.range_succ, List.foldl_append, foldl_maskOf p n]
    show maskOf n p + b2n (p n) * 2 ^ n = if p n then maskOf n p + 2 ^ n else maskOf n p
    cases p n
    · rw [if_neg (by decide)]
      simp [b2n]
    · rw [if_pos rfl]
      simp [b2n]

/-- The status bit of a frame's subframe. -/
def statusOf (f : Subframe × Subframe) (b : Bool) : Bool := if b then f.2.status else f.1.status

theorem csWords_length (frames : List (Subframe × Subframe)) (b : Bool) : (csWords frames b).length = 6 := by
  unfold csWords
  rw [List.length_map, List.length_range]

theorem csWords_bit (frames : List (Subframe × Subframe)) (b : Bool) {k : Nat} (few : k < 192) :
    bit (pw (csWords frames b) (k / 32)) (k % 32) = statusOf (frames.getD k default) b := by
  have word : pw (csWords frames b) (k / 32) = BitVec.ofNat 32 (maskOf 32 fun j => statusOf (frames.getD (32 * (k / 32) + j) default) b) := by
    unfold csWords pw
    rw [← foldl_maskOf]
    rw [List.getD_eq_getElem _ _ (by rw [List.length_map, List.length_range]; omega), List.getElem_map, List.getElem_range]
    rfl
  have own := inMask_maskOf (fun j => statusOf (frames.getD (32 * (k / 32) + j) default) b) (n := 32) (Nat.mod_lt k (by decide))
  have small := maskOf_lt (fun j => statusOf (frames.getD (32 * (k / 32) + j) default) b) 32
  rw [word]
  unfold bit bits
  rw [BitVec.toNat_ofNat, Nat.mod_eq_of_lt small]
  unfold inMask at own
  refine Eq.trans ?_ (own.trans (by rw [Nat.div_add_mod]))
  rfl

/-! ## Received blocks -/

/-- What frames without errors and sync words leave of the receiver: its lock, its settings, the blocks it holds. -/
structure Receives (s t : State) : Prop where
  moved : Local { spdif := true } (· = Reg.IN_SPDRX_STAT) s t
  lock  : t.on F.IN_SPDRX_STAT_LOCK = s.on F.IN_SPDRX_STAT_LOCK
  keeps : { t.spdif with npAge := s.spdif.npAge, seen := s.spdif.seen } = s.spdif

namespace Receives

variable {s t u : State}

theorem refl (s : State) : Receives s s := ⟨.refl s, rfl, rfl⟩

theorem trans (h : Receives s t) (k : Receives t u) : Receives s u := by
  refine ⟨h.moved.trans k.moved, k.lock.trans h.lock, ?_⟩
  have later := congrArg (fun x : SpdifX => { x with npAge := s.spdif.npAge, seen := s.spdif.seen }) k.keeps
  exact later.trans h.keeps

theorem reg {f : Field} {v : Nat} (h : Receives s t) (own : f.addr = Reg.IN_SPDRX_STAT) (apart : Field.apart f F.IN_SPDRX_STAT_LOCK = true) :
    Receives s (t.wr f v) := by
  refine ⟨h.moved.wr (f := f) own, (State.on_wr_off t v apart).trans h.lock, ?_⟩
  rw [State.wr_spdif]
  exact h.keeps

theorem age (h : Receives s t) (n m : Nat) : Receives s (t.withSpdif fun x => { x with npAge := n, seen := m }) :=
  ⟨h.moved.trans (withSpdif_local t _), h.lock, h.keeps⟩

end Receives

theorem rxFrame_quiet (s : State) {f : Subframe × Subframe} (quiet : syncWords f = false) : Receives s (s.rxFrame f) := by
  unfold State.rxFrame
  rw [quiet]
  split
  · exact .refl s
  · have counted : Receives s (s.sat F.IN_SPDRX_STAT_PERRCNT (b2n f.1.perr + b2n f.2.perr)) := (Receives.refl s).reg rfl (by decide)
    generalize s.sat F.IN_SPDRX_STAT_PERRCNT (b2n f.1.perr + b2n f.2.perr) = u at *
    have aged := counted.age (s.spdif.npAge + 1) (s.spdif.seen + 1)
    simp only [Bool.false_eq_true, if_false]
    split
    · exact aged.reg (f := F.IN_SPDRX_STAT_NONPCM) rfl (by decide)
    · exact aged

theorem rxFrames_quiet : ∀ (fs : List (Subframe × Subframe)) (s : State), (∀ f ∈ fs, syncWords f = false) → Receives s (fs.foldl State.rxFrame s)
  | [], s, _ => .refl s
  | f :: fs, s, quiet => (rxFrame_quiet s (quiet f List.mem_cons_self)).trans
      (rxFrames_quiet fs (s.rxFrame f) fun g mem => quiet g (List.mem_cons_of_mem f mem))

/-- A block stored that reports nothing and names PCM. -/
theorem csStore_plain {s : State} {a b : List Word} (silent : s.spdif.rx.csevt = false) (pcmA : bit (pw a 0) 1 = false) (pcmB : bit (pw b 0) 1 = false) :
    Local { spdif := true } (· = Reg.IN_SPDRX_STAT) s (s.csStore a b) ∧ (s.csStore a b).spdif = { s.spdif with rxA := a, rxB := b } ∧
      (s.spdif.rxA ≠ a ∨ s.spdif.rxB ≠ b → (s.csStore a b).rd F.IN_SPDRX_STAT_CSCHG = 1) := by
  have start : Local { spdif := true } (· = Reg.IN_SPDRX_STAT) s (s.withSpdif fun x => { x with rxA := a, rxB := b }) := withSpdif_local s _
  have own := withSpdif_spdif s fun x => { x with rxA := a, rxB := b }
  have shape : s.csStore a b =
      (fun z : State => if z.csNonpcm then (if z.on F.IN_SPDRX_STAT_NONPCM then z else z.nonpcmRise)
        else if z.npHold ≤ z.spdif.npAge then z.clr F.IN_SPDRX_STAT_NONPCM else z)
      (if (s.spdif.rxA ≠ a || s.spdif.rxB ≠ b) = true then ((s.withSpdif fun x => { x with rxA := a, rxB := b }).set1 F.IN_SPDRX_STAT_CSCHG).csChange
        else s.withSpdif fun x => { x with rxA := a, rxB := b }) := rfl
  generalize s.withSpdif (fun x => { x with rxA := a, rxB := b }) = u at *
  have told : (u.set1 F.IN_SPDRX_STAT_CSCHG).csChange = u.set1 F.IN_SPDRX_STAT_CSCHG := by
    refine if_pos ?_
    rw [State.set1_spdif, own]
    exact fun h => absurd (silent.symm.trans h) (by decide)
  rw [told] at shape
  rw [shape]
  have second : ∀ z : State, Local { spdif := true } (· = Reg.IN_SPDRX_STAT) s z → z.spdif = u.spdif →
      let w := if z.csNonpcm then (if z.on F.IN_SPDRX_STAT_NONPCM then z else z.nonpcmRise)
        else if z.npHold ≤ z.spdif.npAge then z.clr F.IN_SPDRX_STAT_NONPCM else z
      Local { spdif := true } (· = Reg.IN_SPDRX_STAT) s w ∧ w.spdif = u.spdif ∧ w.rd F.IN_SPDRX_STAT_CSCHG = z.rd F.IN_SPDRX_STAT_CSCHG := by
    intro z moved spdif
    have pcm : ¬ z.csNonpcm = true := by
      unfold State.csNonpcm
      rw [spdif, own]
      dsimp only
      rw [pcmA, pcmB]
      decide
    rw [if_neg pcm]
    dsimp only
    split
    · exact ⟨moved.clr (f := F.IN_SPDRX_STAT_NONPCM) rfl, (State.clr_spdif _ _).trans spdif, State.rd_clr_off _ (f := F.IN_SPDRX_STAT_NONPCM)⟩
    · exact ⟨moved, spdif, rfl⟩
  by_cases changed : (s.spdif.rxA ≠ a || s.spdif.rxB ≠ b) = true
  · rw [if_pos changed]
    obtain ⟨moved, spdif, shown⟩ := second (u.set1 F.IN_SPDRX_STAT_CSCHG) (start.set1 (f := F.IN_SPDRX_STAT_CSCHG) rfl) (State.set1_spdif _ _)
    exact ⟨moved, spdif.trans own, fun _ => shown.trans (State.rd_wr_same _ _ (by decide))⟩
  · rw [if_neg changed]
    obtain ⟨moved, spdif, -⟩ := second u start rfl
    refine ⟨moved, spdif.trans own, fun h => absurd ?_ changed⟩
    simpa using h

/-- The end of a received block. -/
def State.rxBlockOver (s : State) : State := (s.withSpdif fun x => { x with seen := 0 }).rxBoundary

theorem rxBlockOver_local (s : State) : Local { spdif := true } (· = Reg.IN_SPDRX_STAT) s s.rxBlockOver :=
  (withSpdif_local s _).trans (rxBoundary_local _)

theorem rxBlockOver_spdif (s : State) :
    s.rxBlockOver.spdif = { s.spdif with seen := 0, rx := s.spdif.rxNext.getD s.spdif.rx, rxNext := none } := rfl

theorem rxBlockOver_rd (s : State) (f : Field) : s.rxBlockOver.rd f = s.rd f := rfl

/-- The state once the frames of a block have been taken in. -/
def State.rxTaken (s : State) (frames : List (Subframe × Subframe)) : State := (frames.drop s.spdif.seen).foldl State.rxFrame s

theorem spdifCsBlock_run {s : State} {frames : List (Subframe × Subframe)} (en : s.spdif.rxEn = true) (clean : csClean frames = true)
    (lock : (s.rxTaken frames).on F.IN_SPDRX_STAT_LOCK = true) : exec (.spdifCsBlock false (frames.map (·.1)) (frames.map (·.2)) false false) s =
      .next ((s.rxTaken frames).csStore (csWords frames false) (csWords frames true)).rxBlockOver := by
  have zip : (frames.map (·.1)).zip (frames.map (·.2)) = frames := by
    rw [List.zip_map']
    exact List.map_id' frames
  show execSpdifCsBlock false _ _ false false s = _
  unfold execSpdifCsBlock
  rw [if_neg (by decide), if_neg (by rw [en]; decide), zip]
  dsimp only
  rw [if_pos ⟨lock, clean, by decide⟩]
  rfl

theorem spdifCsBlock_receives {s : State} {frames : List (Subframe × Subframe)} (lock : s.on F.IN_SPDRX_STAT_LOCK = true)
    (en : s.spdif.rxEn = true) (silent : s.spdif.rx.csevt = false)
    (quiet : ∀ f ∈ frames, f.1.perr = false ∧ f.2.perr = false ∧ syncWords f = false)
    (pcmA : (frames.getD 1 default).1.status = false) (pcmB : (frames.getD 1 default).2.status = false) :
    ∃ t, exec (.spdifCsBlock false (frames.map (·.1)) (frames.map (·.2)) false false) s = .next t ∧ t.spdif.rxA.length = 6 ∧ t.spdif.rxB.length = 6 ∧
      (∀ k, k < 192 → bit (pw t.spdif.rxA (k / 32)) (k % 32) = (frames.getD k default).1.status ∧
        bit (pw t.spdif.rxB (k / 32)) (k % 32) = (frames.getD k default).2.status) ∧
      (s.spdif.rxA ≠ t.spdif.rxA ∨ s.spdif.rxB ≠ t.spdif.rxB → t.rd F.IN_SPDRX_STAT_CSCHG = 1) ∧
      t.spdif.rx = s.spdif.rxNext.getD s.spdif.rx ∧ t.spdif.rxNext = none ∧
      SameRegsBut (fun x => x = Reg.IN_SPDRX_STAT) s t ∧ { t with regs := s.regs, spdif := s.spdif } = s := by
  have taken : Receives s (s.rxTaken frames) := rxFrames_quiet _ s fun f mem => (quiet f (List.mem_of_mem_drop mem)).2.2
  have clean : csClean frames = true := List.all_eq_true.2 fun f mem => by
    obtain ⟨first, second, -⟩ := quiet f mem
    rw [first, second]
    rfl
  have run := spdifCsBlock_run en clean (taken.lock.trans lock)
  generalize s.rxTaken frames = u at *
  have rx := congrArg SpdifX.rx taken.keeps
  have next := congrArg SpdifX.rxNext taken.keeps
  have heldA := congrArg SpdifX.rxA taken.keeps
  have heldB := congrArg SpdifX.rxB taken.keeps
  have plainA : bit (pw (csWords frames false) 0) 1 = false := (csWords_bit frames false (show 1 < 192 by decide)).trans pcmA
  have plainB : bit (pw (csWords frames true) 0) 1 = false := (csWords_bit frames true (show 1 < 192 by decide)).trans pcmB
  obtain ⟨moved, spdif, changed⟩ := csStore_plain ((congrArg SpdRx.csevt rx).trans silent) plainA plainB
  generalize u.csStore (csWords frames false) (csWords frames true) = v at *
  have all := (taken.moved.trans moved).trans (rxBlockOver_local v)
  have own := rxBlockOver_spdif v
  have shown := rxBlockOver_rd v F.IN_SPDRX_STAT_CSCHG
  rw [spdif] at own
  generalize v.rxBlockOver = t at *
  have storedA : t.spdif.rxA = csWords frames false := congrArg SpdifX.rxA own
  have storedB : t.spdif.rxB = csWords frames true := congrArg SpdifX.rxB own
  have settings : t.spdif.rx = s.spdif.rxNext.getD s.spdif.rx := by
    refine (congrArg SpdifX.rx own).trans ?_
    show u.spdif.rxNext.getD u.spdif.rx = _
    rw [show u.spdif.rxNext = s.spdif.rxNext from next, show u.spdif.rx = s.spdif.rx from rx]
  refine ⟨t, run, by rw [storedA, csWords_length], by rw [storedB, csWords_length], fun k few => ?_, fun differ => shown.trans (changed ?_), settings,
    congrArg SpdifX.rxNext own, all.sameRegs, all.spdifOnly⟩
  · rw [storedA, storedB]
    exact ⟨csWords_bit frames false few, csWords_bit frames true few⟩
  · rw [storedA, storedB] at differ
    rw [show u.spdif.rxA = s.spdif.rxA from heldA, show u.spdif.rxB = s.spdif.rxB from heldB]
    exact differ

/-- Settles O23: the S/PDIF ports take their settings, send and receive their blocks, find and lose lock. -/
theorem spdifCommandsAndEvents : Obligations.SpdifCommandsAndEvents := by
  unfold Obligations.SpdifCommandsAndEvents
  intro p s rate frames rest
  refine ⟨fun acc enables held => ⟨fun port off free up => portEnable_receiver acc enables held port off free up,
      fun port off free up => portEnable_transmitter acc enables held port off free up⟩, fun acc good free up => ?_, fun acc good family free up => ?_,
    spdifCsRead_answers, fun acc which plain free up => spdifCsWrite_answers acc which plain free up,
    fun en good expected => spdifLock_locks en good expected, fun a b va vb en => spdifCsBlock_sends en a b va vb,
    fun lock => ⟨spdifLost_clears lock, fun en silent quiet pcmA pcmB => spdifCsBlock_receives lock en silent quiet pcmA pcmB⟩⟩
  · refine (spdifRxCfg_answers acc good free up).imp fun t told => ⟨told.1, ?_⟩
    rw [told.2]
    exact rxSet_shows _ _
  · refine (spdifTxCfg_answers acc good family free up).imp fun t told => ⟨told.1, ?_⟩
    rw [told.2]
    exact txSet_shows _ _

end Sys2Proof.Machine
end

section
/-!
# The headphone jack (spec/10_load_jack_diagnostics.md, R499 to R508)
-/

namespace Sys2Proof.Machine

-- One theorem after the other: in one text, theorems that wait for the kernel would each hold a thread.
set_option Elab.async false

/-! ## What follows the jack -/

/-- The outputs' own state. -/
def hpParts : Parts := { hp := true, hpcv := true }

theorem hoField_addr (o : Nat) : (hoField o).addr = Reg.OUT_HPL_STAT := by
  unfold hoField
  split <;> rfl

section
variable {s t : State}

theorem Frame.showJhold (h : Frame hpParts (· = Reg.OUT_HPL_STAT) s t) : Frame hpParts (· = Reg.OUT_HPL_STAT) s t.showJhold :=
  h.wr (f := F.OUT_HPL_STAT_JHOLD) rfl

theorem Frame.setHo (h : Frame hpParts (· = Reg.OUT_HPL_STAT) s t) (o ph : Nat) : Frame hpParts (· = Reg.OUT_HPL_STAT) s (t.setHo o ph) := by
  have waits : ∀ (u : State) (l : List (Nat × Nat × Nat)), Frame hpParts (· = Reg.OUT_HPL_STAT) s u →
      Frame hpParts (· = Reg.OUT_HPL_STAT) s { u with hpcv := { u.hpcv with waits := l } } := fun u l k => k.upd rfl
  exact Frame.showJhold (Frame.finishAll (waits _ _ (h.wr (hoField_addr o))))

theorem Frame.hoRamp (h : Frame hpParts (· = Reg.OUT_HPL_STAT) s t) (o ph pos : Nat) : Frame hpParts (· = Reg.OUT_HPL_STAT) s (t.hoRamp o ph pos) := by
  have placed : Frame hpParts (· = Reg.OUT_HPL_STAT) s (t.modHp o fun x => { x with mark := t.now, pos := pos }) := h.upd rfl
  exact placed.setHo o ph

theorem Frame.hpJack (h : Frame hpParts (· = Reg.OUT_HPL_STAT) s t) : Frame hpParts (· = Reg.OUT_HPL_STAT) s t.hpJack :=
  Frame.showJhold (.forEach (fun o _ k => .ite (.ite (k.hoRamp o _ _) (.ite (k.hoRamp o _ _) k)) (.ite (.ite (k.hoRamp o _ _) (.ite (k.hoRamp o _ _) k)) k)) h)

end

theorem biasRamp_jackOn (s : State) (n : Nat) : (s.biasRamp n).inp.jackOn = s.inp.jackOn := by
  unfold State.biasRamp
  dsimp only
  split
  · rfl
  · rw [State.set1_inp]
    rfl

theorem jackBias_jackOn (s : State) (n : Option (Fin 2)) : (s.jackBias n).inp.jackOn = n :=
  (biasRamp_jackOn _ 1).trans (biasRamp_jackOn _ 0)

/-- What a plug's declaration may change beyond the registers of the jack. -/
def plugParts : Parts := { hp := true, hpcv := true, inp := true }

/-- The registers that follow the jack. -/
def followReg (a : Nat) : Prop := a = Reg.OUT_HPL_STAT ∨ a = Reg.IN_FE_STAT

/-- EVT_JACK, the outputs and the bias follow a declared change. -/
def State.jackFollow (s : State) (kind : Nat) (n : Option (Fin 2)) : State := ((s.raiseJack kind 0).hpJack).jackBias n

theorem raiseJack_frame {m : Parts} {R : Nat → Prop} (s : State) (away : ¬ R Reg.PWR_STATE) (kind b : Nat) : Frame m R s (s.raiseJack kind b) := by
  unfold State.raiseJack
  exact .raise (.refl away s)

theorem jackFollow_frame (s : State) (kind : Nat) (n : Option (Fin 2)) : Frame plugParts followReg s (s.jackFollow kind n) := by
  have told : Frame hpParts (· = Reg.OUT_HPL_STAT) s (s.raiseJack kind 0).hpJack := (raiseJack_frame s (by decide) kind 0).hpJack
  exact (((jackBias_local _ n).widen (m' := plugParts)).mono fun _ => .inr).within
    ((told.widen (m' := plugParts)).mono (fun _ => .inl) (by unfold followReg; decide))

/-- What a change of the jack's own register, followed by what follows it, leaves. -/
structure JackMoved (s t : State) : Prop where
  touches : Touches [Reg.SAFE_JACK_STAT, Reg.OUT_HPL_STAT, Reg.IN_FE_STAT] s t
  rest    : { s.over t with hp := s.hp, hpcv := s.hpcv, inp := s.inp } = s

theorem jackMoved_of {s u t : State} (own : Local {} (· = Reg.SAFE_JACK_STAT) s u) (follow : Frame plugParts followReg u t) : JackMoved s t := by
  have start : Frame plugParts (· ∈ [Reg.SAFE_JACK_STAT, Reg.OUT_HPL_STAT, Reg.IN_FE_STAT]) s u :=
    ((own.wider (m := plugParts)).mono fun a e => by rw [e]; exact List.mem_cons_self).frame (by decide)
  have after := follow.mono (Q := (· ∈ [Reg.SAFE_JACK_STAT, Reg.OUT_HPL_STAT, Reg.IN_FE_STAT])) (fun a e => by
    rcases e with rfl | rfl <;> simp) (by decide)
  exact ⟨(start.trans after).touches, (start.trans after).rest⟩

/-- What follows the jack leaves its own register. -/
theorem follow_jack {u t : State} (follow : Frame plugParts followReg u t) {f : Field} (place : f.addr = Reg.SAFE_JACK_STAT) : t.rd f = u.rd f :=
  follow.rd_steady (by rw [place]; unfold followReg; decide) (by rw [place]; decide)

theorem follow_jackOn {u t : State} (follow : Frame plugParts followReg u t) {f : Field} (place : f.addr = Reg.SAFE_JACK_STAT) : t.on f = u.on f :=
  congrArg (fun n => decide (n = 1)) (follow_jack follow place)

/-! ## Insertion, removal, classification -/

/-- A plug shown. -/
def State.plugShown (s : State) : State :=
  ((s.set1 F.SAFE_JACK_STAT_PLUG).set1 F.SAFE_JACK_STAT_INS).wr F.SAFE_JACK_STAT_POLES (if s.rd F.SAFE_JACK_CFG_JBIAS ≤ 1 then 0 else 1)

/-- A removal shown. -/
def State.unplugShown (s : State) : State :=
  (((s.clr F.SAFE_JACK_STAT_PLUG).set1 F.SAFE_JACK_STAT_REM).wr F.SAFE_JACK_STAT_POLES 0).wr F.SAFE_JACK_STAT_BUTTON 0

theorem plugShown_shows (s : State) : s.plugShown.on F.SAFE_JACK_STAT_PLUG = true ∧ s.plugShown.on F.SAFE_JACK_STAT_INS = true ∧
    s.plugShown.rd F.SAFE_JACK_STAT_POLES = (if s.rd F.SAFE_JACK_CFG_JBIAS ≤ 1 then 0 else 1) ∧ Local {} (· = Reg.SAFE_JACK_STAT) s s.plugShown := by
  have start : Local {} (· = Reg.SAFE_JACK_STAT) s s := .refl s
  refine ⟨(State.on_wr_off _ (f := F.SAFE_JACK_STAT_POLES) _).trans ((State.on_set1_off _ (f := F.SAFE_JACK_STAT_INS)).trans (State.on_set1_same _)),
    (State.on_wr_off _ (f := F.SAFE_JACK_STAT_POLES) _).trans (State.on_set1_same _), State.rd_wr_fits _ (by decide) ?_,
    ((start.set1 (f := F.SAFE_JACK_STAT_PLUG) rfl).set1 (f := F.SAFE_JACK_STAT_INS) rfl).wr (f := F.SAFE_JACK_STAT_POLES) rfl⟩
  split <;> decide

theorem unplugShown_shows (s : State) : s.unplugShown.on F.SAFE_JACK_STAT_PLUG = false ∧ s.unplugShown.on F.SAFE_JACK_STAT_REM = true ∧
    s.unplugShown.rd F.SAFE_JACK_STAT_POLES = 0 ∧ s.unplugShown.rd F.SAFE_JACK_STAT_BUTTON = 0 ∧ Local {} (· = Reg.SAFE_JACK_STAT) s s.unplugShown := by
  have start : Local {} (· = Reg.SAFE_JACK_STAT) s s := .refl s
  exact ⟨(State.on_wr_off _ (f := F.SAFE_JACK_STAT_BUTTON) _).trans ((State.on_wr_off _ (f := F.SAFE_JACK_STAT_POLES) _).trans
      ((State.on_set1_off _ (f := F.SAFE_JACK_STAT_REM)).trans (State.on_clr_same _))),
    (State.on_wr_off _ (f := F.SAFE_JACK_STAT_BUTTON) _).trans ((State.on_wr_off _ (f := F.SAFE_JACK_STAT_POLES) _).trans (State.on_set1_same _)),
    (State.rd_wr_off _ (f := F.SAFE_JACK_STAT_BUTTON) _).trans (State.rd_wr_same _ _ (by decide)), State.rd_wr_same _ _ (by decide),
    (((start.clr (f := F.SAFE_JACK_STAT_PLUG) rfl).set1 (f := F.SAFE_JACK_STAT_REM) rfl).wr (f := F.SAFE_JACK_STAT_POLES) rfl).wr
      (f := F.SAFE_JACK_STAT_BUTTON) rfl⟩

section
variable {s : State} (watched : s.jackWatched = true)
include watched

theorem jackInsert_declares (out : s.on F.SAFE_JACK_STAT_PLUG = false) : ∃ t, exec .jackInsert s = .next t ∧ t.on F.SAFE_JACK_STAT_PLUG = true ∧
    t.on F.SAFE_JACK_STAT_INS = true ∧ t.rd F.SAFE_JACK_STAT_POLES = (if s.rd F.SAFE_JACK_CFG_JBIAS ≤ 1 then 0 else 1) ∧ JackMoved s t := by
  obtain ⟨plug, ins, poles, own⟩ := plugShown_shows s
  have run : exec .jackInsert s = .next (s.plugShown.jackFollow 1 (if s.suspended then none else s.jbias)) :=
    congrArg Host.Outcome.next (if_pos ⟨watched, by rw [out]; decide⟩)
  generalize s.plugShown = u at *
  have follow := jackFollow_frame u 1 (if s.suspended then none else s.jbias)
  exact ⟨_, run, (follow_jackOn follow rfl).trans plug, (follow_jackOn follow rfl).trans ins, (follow_jack follow rfl).trans poles,
    jackMoved_of own follow⟩

theorem jackRemove_declares (plugged : s.on F.SAFE_JACK_STAT_PLUG = true) : ∃ t, exec .jackRemove s = .next t ∧
    t.on F.SAFE_JACK_STAT_PLUG = false ∧ t.on F.SAFE_JACK_STAT_REM = true ∧ t.rd F.SAFE_JACK_STAT_POLES = 0 ∧ t.rd F.SAFE_JACK_STAT_BUTTON = 0 ∧
    JackMoved s t := by
  obtain ⟨plug, rem, poles, button, own⟩ := unplugShown_shows s
  have run : exec .jackRemove s = .next (s.unplugShown.jackFollow 2 none) := congrArg Host.Outcome.next (if_pos ⟨watched, plugged⟩)
  generalize s.unplugShown = u at *
  have follow := jackFollow_frame u 2 none
  exact ⟨_, run, (follow_jackOn follow rfl).trans plug, (follow_jackOn follow rfl).trans rem, (follow_jack follow rfl).trans poles,
    (follow_jack follow rfl).trans button, jackMoved_of own follow⟩

/-- A ratio and the poles that it gives. -/
def State.ratioShown (s : State) (r : Nat) : State := (s.wr F.SAFE_JACK_STAT_RATIO r).wr F.SAFE_JACK_STAT_POLES (polesOf r)

omit watched in
theorem polesOf_lt (r : Nat) : polesOf r < 2 ^ 2 := by
  unfold polesOf
  split
  · decide
  · split <;> decide

omit watched in
theorem ratioShown_shows (s : State) {r : Nat} (few : r < 2 ^ 12) : (s.ratioShown r).rd F.SAFE_JACK_STAT_RATIO = r ∧
    (s.ratioShown r).rd F.SAFE_JACK_STAT_POLES = polesOf r ∧ Local {} (· = Reg.SAFE_JACK_STAT) s (s.ratioShown r) := by
  have start : Local {} (· = Reg.SAFE_JACK_STAT) s s := .refl s
  exact ⟨(State.rd_wr_off _ (f := F.SAFE_JACK_STAT_POLES) _).trans (State.rd_wr_fits _ (by decide) few), State.rd_wr_fits _ (by decide) (polesOf_lt r),
    (start.wr (f := F.SAFE_JACK_STAT_RATIO) rfl).wr (f := F.SAFE_JACK_STAT_POLES) rfl⟩

theorem jackClassify_classifies (ratio : BitVec 12) (plugged : s.on F.SAFE_JACK_STAT_PLUG = true) (poles : s.rd F.SAFE_JACK_STAT_POLES = 0)
    (named : s.rd F.SAFE_JACK_CFG_JBIAS ≤ 1) (runs : s.suspended = false) : ∃ t, exec (.jackClassify ratio) s = .next t ∧
      t.rd F.SAFE_JACK_STAT_RATIO = ratio.toNat ∧ t.rd F.SAFE_JACK_STAT_POLES = polesOf ratio.toNat ∧ t.inp.jackOn = none ∧ JackMoved s t := by
  obtain ⟨shown, found, own⟩ := ratioShown_shows s ratio.isLt
  have run : exec (.jackClassify ratio) s = .next (((s.ratioShown ratio.toNat).raiseJack 3 (s.rd F.SAFE_JACK_STAT_BUTTON)).jackBias none) :=
    if_pos ⟨watched, plugged, poles, named, by rw [runs]; decide⟩
  generalize s.ratioShown ratio.toNat = u at *
  have told : Frame plugParts followReg u (u.raiseJack 3 (s.rd F.SAFE_JACK_STAT_BUTTON)) := raiseJack_frame u (by unfold followReg; decide) _ _
  have follow := (((jackBias_local (u.raiseJack 3 (s.rd F.SAFE_JACK_STAT_BUTTON)) none).widen (m' := plugParts)).mono fun _ => .inr).within told
  exact ⟨_, run, (follow_jack follow rfl).trans shown, (follow_jack follow rfl).trans found, jackBias_jackOn _ _, jackMoved_of own follow⟩

end

theorem jackStatus_answers {p : Packet} {s : State} (acc : Accepted cardJackStatus p s) : Answers (.jackStatus p) cardJackStatus p s 0 0
    [s.reg Reg.SAFE_JACK_STAT, s.reg Reg.SAFE_JACK_CFG] (PapolBut papolReg (papolByte s) s) := by
  refine answers_unchanged (cl := []) rfl acc ?_
  rw [reg_card s _ p (a := Reg.SAFE_JACK_STAT), reg_card s _ p (a := Reg.SAFE_JACK_CFG)]
  rfl

/-! ## Buttons -/

/-- The frame of what the buttons do. -/
abbrev ButtonMoved (s t : State) : Prop := Frame {} (· ∈ [Reg.SAFE_JACK_STAT]) s t

theorem ButtonMoved.jack {s t : State} (h : ButtonMoved s t) : Touches [Reg.SAFE_JACK_STAT] s t ∧ s.over t = s := ⟨h.touches, h.rest⟩

theorem raiseJack_rd (s : State) (kind b : Nat) {f : Field} (place : f.addr = Reg.SAFE_JACK_STAT) : (s.raiseJack kind b).rd f = s.rd f :=
  (raiseJack_frame (m := {}) (R := fun _ => False) s id kind b).rd_steady id (by rw [place]; decide)

theorem raiseJack_on (s : State) (kind b : Nat) {f : Field} (place : f.addr = Reg.SAFE_JACK_STAT) : (s.raiseJack kind b).on f = s.on f :=
  congrArg (fun n => decide (n = 1)) (raiseJack_rd s kind b place)

/-- A field of the jack's register set. -/
theorem ButtonMoved.put {s t : State} (h : ButtonMoved s t) (f : Field) (v : Nat) (place : f.addr = Reg.SAFE_JACK_STAT := by rfl) :
    ButtonMoved s (t.wr f v) := h.wr (List.mem_singleton.2 place)

theorem ButtonMoved.told {s t : State} (h : ButtonMoved s t) (kind b : Nat) : ButtonMoved s (t.raiseJack kind b) :=
  h.trans (raiseJack_frame t (by decide) kind b)

theorem buttonUp_moved {s t : State} (h : ButtonMoved s t) : ButtonMoved s t.buttonUp :=
  .ite h (((h.put F.SAFE_JACK_STAT_BUTTON 0).put F.SAFE_JACK_STAT_BTNCHG 1).told _ _)

/-- A release of a button leaves the ratio, and no button. -/
theorem buttonUp_shows (s : State) : s.buttonUp.rd F.SAFE_JACK_STAT_RATIO = s.rd F.SAFE_JACK_STAT_RATIO ∧ s.buttonUp.rd F.SAFE_JACK_STAT_BUTTON = 0 ∧
    (s.rd F.SAFE_JACK_STAT_BUTTON ≠ 0 → s.buttonUp.on F.SAFE_JACK_STAT_BTNCHG = true) := by
  unfold State.buttonUp
  dsimp only
  split
  next none => exact ⟨rfl, none, fun h => absurd none h⟩
  next some =>
    refine ⟨(raiseJack_rd _ _ _ rfl).trans ((State.rd_set1_off _ (f := F.SAFE_JACK_STAT_BTNCHG)).trans (State.rd_wr_off _ (f := F.SAFE_JACK_STAT_BUTTON) _)),
      (raiseJack_rd _ _ _ rfl).trans ((State.rd_set1_off _ (f := F.SAFE_JACK_STAT_BTNCHG)).trans (State.rd_wr_same _ _ (by decide))),
      fun _ => (raiseJack_on _ _ _ rfl).trans (State.on_set1_same _)⟩

theorem buttonOf_lt (r : Nat) : buttonOf r < 2 ^ 2 := by
  unfold buttonOf
  split
  · decide
  · split
    · decide
    · split <;> decide

/-- A button's press shown. -/
def State.pressed (s : State) (b : Nat) : State := ((s.wr F.SAFE_JACK_STAT_BUTTON b).set1 F.SAFE_JACK_STAT_BTNCHG).raiseJack 4 b

theorem pressed_shows (s : State) {b : Nat} (few : b < 2 ^ 2) : (s.pressed b).rd F.SAFE_JACK_STAT_BUTTON = b ∧
    (s.pressed b).on F.SAFE_JACK_STAT_BTNCHG = true ∧ (s.pressed b).rd F.SAFE_JACK_STAT_RATIO = s.rd F.SAFE_JACK_STAT_RATIO :=
  ⟨(raiseJack_rd _ _ _ rfl).trans ((State.rd_set1_off _ (f := F.SAFE_JACK_STAT_BTNCHG)).trans (State.rd_wr_fits _ (by decide) few)),
    (raiseJack_on _ _ _ rfl).trans (State.on_set1_same _),
    (raiseJack_rd _ _ _ rfl).trans ((State.rd_set1_off _ (f := F.SAFE_JACK_STAT_BTNCHG)).trans (State.rd_wr_off _ (f := F.SAFE_JACK_STAT_BUTTON) _))⟩

section
variable {s : State} {ratio : BitVec 12} (senses : s.buttonsOn = true)
include senses

theorem buttonPress_presses (band : buttonOf ratio.toNat ≠ 0) (other : buttonOf ratio.toNat ≠ s.rd F.SAFE_JACK_STAT_BUTTON) :
    ∃ t, exec (.buttonPress ratio) s = .next t ∧ t.rd F.SAFE_JACK_STAT_BUTTON = buttonOf ratio.toNat ∧ t.on F.SAFE_JACK_STAT_BTNCHG = true ∧
      t.rd F.SAFE_JACK_STAT_RATIO = ratio.toNat ∧ Touches [Reg.SAFE_JACK_STAT] s t ∧ s.over t = s := by
  have run : exec (.buttonPress ratio) s = .next ((s.wr F.SAFE_JACK_STAT_RATIO ratio.toNat).buttonUp.pressed (buttonOf ratio.toNat)) :=
    if_pos ⟨senses, band, other⟩
  have start : ButtonMoved s s := .refl (by decide) s
  have placed := start.put F.SAFE_JACK_STAT_RATIO ratio.toNat
  have shown := State.rd_wr_fits s (f := F.SAFE_JACK_STAT_RATIO) (by decide) ratio.isLt
  generalize s.wr F.SAFE_JACK_STAT_RATIO ratio.toNat = u at *
  obtain ⟨kept, -, -⟩ := buttonUp_shows u
  have up := buttonUp_moved placed
  generalize u.buttonUp = v at *
  obtain ⟨button, changed, same⟩ := pressed_shows v (buttonOf_lt ratio.toNat)
  have moved : ButtonMoved s (v.pressed (buttonOf ratio.toNat)) := ((up.put F.SAFE_JACK_STAT_BUTTON _).put F.SAFE_JACK_STAT_BTNCHG 1).told _ _
  exact ⟨_, run, button, changed, same.trans (kept.trans shown), moved.jack⟩

theorem buttonRelease_releases (open' : 22 * 4096 ≤ ratio.toNat * 100) : ∃ t, exec (.buttonRelease ratio) s = .next t ∧
    t.rd F.SAFE_JACK_STAT_BUTTON = 0 ∧ t.rd F.SAFE_JACK_STAT_RATIO = ratio.toNat ∧
    (ratio.toNat * 100 ≤ 90 * 4096 → s.rd F.SAFE_JACK_STAT_BUTTON ≠ 0 → t.on F.SAFE_JACK_STAT_BTNCHG = true) ∧
    Touches [Reg.SAFE_JACK_STAT] s t ∧ s.over t = s := by
  have start : ButtonMoved s s := .refl (by decide) s
  have placed := start.put F.SAFE_JACK_STAT_RATIO ratio.toNat
  have shown := State.rd_wr_fits s (f := F.SAFE_JACK_STAT_RATIO) (by decide) ratio.isLt
  have button := State.rd_wr_off s (f := F.SAFE_JACK_STAT_RATIO) ratio.toNat (g := F.SAFE_JACK_STAT_BUTTON)
  have first : ¬ (s.buttonsOn = false ∨ ratio.toNat * 100 < 22 * 4096) := by
    rw [senses]
    rintro (h | h)
    · exact absurd h (by decide)
    · omega
  have run : exec (.buttonRelease ratio) s = if 90 * 4096 < ratio.toNat * 100 then
      .next ((s.wr F.SAFE_JACK_STAT_RATIO ratio.toNat).wr F.SAFE_JACK_STAT_BUTTON 0)
      else .next (s.wr F.SAFE_JACK_STAT_RATIO ratio.toNat).buttonUp := if_neg first
  generalize s.wr F.SAFE_JACK_STAT_RATIO ratio.toNat = u at *
  by_cases beyond : 90 * 4096 < ratio.toNat * 100
  · rw [if_pos beyond] at run
    exact ⟨_, run, State.rd_wr_same _ _ (by decide), (State.rd_wr_off _ (f := F.SAFE_JACK_STAT_BUTTON) _).trans shown, fun h => by omega,
      (placed.put F.SAFE_JACK_STAT_BUTTON 0).jack⟩
  · rw [if_neg beyond] at run
    obtain ⟨kept, none, changed⟩ := buttonUp_shows u
    exact ⟨_, run, none, kept.trans shown, fun _ held => changed (by rw [button]; exact held), (buttonUp_moved placed).jack⟩

end

end Sys2Proof.Machine
end

section
/-!
# The DC load test (spec/10_load_jack_diagnostics.md, R478 to R485)
-/

namespace Sys2Proof.Machine

-- One theorem after the other: in one text, theorems that wait for the kernel would each hold a thread.
set_option Elab.async false

/-! ## One channel -/

theorem inMask_pow (k j : Nat) : inMask (2 ^ k) j = decide (k = j) := by
  rw [inMask_testBit, Nat.testBit_two_pow]

theorem chansOf_one (k : Fin 12) : indices 12 (fun n => decide (k.val = n)) = [k.val] := by
  have all : ∀ k : Fin 12, indices 12 (fun n => decide (k.val = n)) = [k.val] := by decide
  exact all k

/-- The masters of one channel's mask. -/
theorem masters_one {s : State} {k : Fin 12} (own : s.master k.val = k.val) : chansOf (s.masters (2 ^ k.val)) = [k.val] := by
  have named : ∀ n, ((List.range 12).any fun j => inMask (2 ^ k.val) j && decide (s.master j = n)) = decide (k.val = n) := fun n => by
    rw [Bool.eq_iff_iff, List.any_eq_true]
    constructor
    · rintro ⟨j, -, found⟩
      rw [inMask_pow, Bool.and_eq_true, decide_eq_true_eq, decide_eq_true_eq] at found
      obtain ⟨rfl, master⟩ := found
      exact decide_eq_true (own.symm.trans master)
    · intro same
      refine ⟨k.val, List.mem_range.2 k.isLt, ?_⟩
      rw [inMask_pow, decide_eq_true rfl, own]
      exact same
  refine Eq.trans ?_ (chansOf_one k)
  unfold chansOf State.masters
  refine List.filter_congr fun n mem => ?_
  rw [inMask_maskOf _ (List.mem_range.1 mem)]
  exact named n

theorem drives_one {s : State} {k : Nat} (single : s.paired k = false) : s.drives k = [k] := by
  unfold State.drives
  rw [single]
  rfl

theorem driveMask_one {s : State} {k : Fin 12} (single : s.paired k.val = false) : s.driveMask [k.val] = 2 ^ k.val := by
  unfold State.driveMask
  have all : ∀ k : Fin 12, maskOf 12 (fun j => [k.val].any fun n => [n].contains j) = 2 ^ k.val := by decide
  refine Eq.trans ?_ (all k)
  congr 1
  funext j
  simp only [List.any_cons, List.any_nil, Bool.or_false, drives_one single]

theorem driveMask_none (s : State) : s.driveMask [] = 0 := by
  have none : maskOf 12 (fun _ => false) = 0 := by decide
  exact none

theorem groupDomains_one (k : Fin 12) : groupDomains [k.val] = [dmGroup (k.val / 4)] := by
  have all : ∀ k : Fin 12, groupDomains [k.val] = [dmGroup (k.val / 4)] := by decide
  exact all k

section
variable (s : State) (c : CmdSpec) (p : Packet)

theorem admitted_master (n : Nat) : (s.admitted c p).master n = s.master n := by
  unfold State.master State.grp
  rw [admitted_groups]

theorem admitted_masters (m : Nat) : (s.admitted c p).masters m = s.masters m := by
  unfold State.masters
  simp only [admitted_master]

theorem admitted_paired (n : Nat) : (s.admitted c p).paired n = s.paired n := by
  unfold State.paired State.grp
  rw [admitted_groups]

theorem admitted_testPending : (s.admitted c p).testPending? = s.testPending? := by
  unfold State.testPending?
  rw [admitted_slots]

theorem admitted_chanBusy (sup ns : List Nat) : (s.admitted c p).chanBusy? sup ns = s.chanBusy? sup ns := by
  unfold State.chanBusy?
  rw [admitted_slots]

theorem admitted_pvddOk {g : Nat} (few : g < 3) : (s.admitted c p).on (F.OUT_G_STAT_PVDDOK g) = s.on (F.OUT_G_STAT_PVDDOK g) := by
  have all : ∀ g : Fin 3, steady (F.OUT_G_STAT_PVDDOK g.val).addr = true := by decide
  exact on_card s c p (all ⟨g, few⟩)

theorem admitted_freeSlot : (s.admitted c p).freeSlot? = s.freeSlot? := by
  unfold State.freeSlot?
  rw [admitted_slots]

end

/-! ## LOAD_DC_TEST -/

/-- The channels that a DC test has still to measure. -/
def State.dcTake (s : State) (l : List Nat) : State := { s with diag := { s.diag with dc := l } }

theorem dcTake_frame {R : Nat → Prop} {s t : State} (h : Frame { diag := true } R s t) (l : List Nat) : Frame { diag := true } R s (t.dcTake l) := h.upd rfl

theorem dcTake_dc (s : State) (l : List Nat) : (s.dcTake l).diag.dc = l := rfl

theorem dcTake_freeSlot (s : State) (l : List Nat) : (s.dcTake l).freeSlot? = s.freeSlot? := rfl

theorem dcNone_one {s : State} {k : Nat} (single : s.paired k = false) (res : Nat) :
    ∃ b : Bool, s.dcNone k res = s.setReg (Reg.SAFE_LDIAG_DC k) (w32 (res * 2 ^ 28 + b2n b * 2 ^ 27)) := by
  unfold State.dcNone
  rw [drives_one single]
  exact ⟨_, rfl⟩

theorem ldiag_steady {a : Nat} (k : Fin 12) (near : a = Reg.SAFE_LDIAG_DC k.val ∨ a = Reg.SAFE_LDIAG_AC k.val ∨ a = Reg.SAFE_LDIAG_ZLO k.val ∨
    a = Reg.SAFE_LDIAG_ZHI k.val) : steady a = true := by
  have all : ∀ k : Fin 12, steady (Reg.SAFE_LDIAG_DC k.val) = true ∧ steady (Reg.SAFE_LDIAG_AC k.val) = true ∧
      steady (Reg.SAFE_LDIAG_ZLO k.val) = true ∧ steady (Reg.SAFE_LDIAG_ZHI k.val) = true := by decide
  obtain ⟨dc, ac, lo, hi⟩ := all k
  rcases near with rfl | rfl | rfl | rfl
  · exact dc
  · exact ac
  · exact lo
  · exact hi

/-- A channel that can be under test, as the card of a DC test sees it. -/
def State.dcTested (s : State) (n : Nat) : Bool := (s.phase n = phOff || held (s.phase n)) && s.on (F.OUT_G_STAT_PVDDOK (n / 4))

section
variable {p : Packet} {s : State} {k : Fin 12} (named : pf p.payload 0 0 12 = 2 ^ k.val) (own : s.master k.val = k.val)
  (single : s.paired k.val = false) (runs : s.suspended = false)
  (free : s.testPending? = none ∧ s.chanBusy? [] [k.val] = none ∧ s.freeSlot? ≠ none)
include named own single runs free

/-- LOAD_DC_TEST of one channel, by whether it can be under test. -/
theorem loadDcTest_one : ∃ body : State → Res, (∀ x, exec (.loadDcTest p) x = x.card cardLoadDcTest p body) ∧
    (s.dcTested k.val = true → (s.admitted cardLoadDcTest p).needAll [dmGroup (k.val / 4)] = some (s.admitted cardLoadDcTest p) →
      body (s.admitted cardLoadDcTest p) = .pend [w32 (2 ^ k.val), 0] [.chan k.val]
        ((s.admitted cardLoadDcTest p).dcTake [k.val])) ∧
    (s.dcTested k.val = false → body (s.admitted cardLoadDcTest p) =
      .done stsOk 0 [0, w32 (2 ^ k.val)] [] ((s.admitted cardLoadDcTest p).dcNone k.val 8)) := by
  refine ⟨_, fun x => rfl, ?_⟩
  obtain ⟨idle, unbusy, -⟩ := free
  have own' : chansOf ((s.admitted cardLoadDcTest p).masters (pf p.payload 0 0 12)) = [k.val] := by
    rw [admitted_masters, named, masters_one own]
  have tested : (s.admitted cardLoadDcTest p).dcTested k.val = s.dcTested k.val := by
    unfold State.dcTested
    rw [phase_card s _ p k.isLt, admitted_pvddOk s _ p (by omega)]
  have some' : ¬ pf p.payload 0 0 12 = 0 := by
    rw [named]
    exact Nat.two_pow_pos _ |>.ne'
  have going : ¬ (s.admitted cardLoadDcTest p).suspended = true := by
    rw [suspended_card, runs]
    decide
  have mask := driveMask_one ((admitted_paired s cardLoadDcTest p k.val).trans single)
  have none' := driveMask_none (s.admitted cardLoadDcTest p)
  have idle' := (admitted_testPending s cardLoadDcTest p).trans idle
  have unbusy' := (admitted_chanBusy s cardLoadDcTest p [] [k.val]).trans unbusy
  have domains := groupDomains_one k
  generalize s.admitted cardLoadDcTest p = a at *
  dsimp only
  rw [if_neg some', if_neg going, own', idle', unbusy']
  dsimp only
  have filters : [k.val].filter (fun n => (decide (a.phase n = phOff) || held (a.phase n)) && a.on (F.OUT_G_STAT_PVDDOK (n / 4))) =
      if s.dcTested k.val = true then [k.val] else [] := by
    rw [← tested]
    exact List.filter_cons
  rw [filters]
  refine ⟨fun yes up => ?_, fun no => ?_⟩
  · rw [if_pos yes, domains, withDomains_all up, if_neg (by simp), mask]
    have rest : [k.val].filter (fun n => !([k.val] : List Nat).contains n) = [] := by simp
    rw [rest, none']
    rfl
  · rw [if_neg (by rw [no]; decide)]
    have rest : [k.val].filter (fun n => !([] : List Nat).contains n) = [k.val] := by simp
    rw [rest, mask, none']
    rfl

theorem loadDcTest_takes (acc : Accepted cardLoadDcTest p s) (off : s.phase k.val = phOff) (pvdd : s.on (F.OUT_G_STAT_PVDDOK (k.val / 4)) = true)
    (up : DomUp s (dmGroup (k.val / 4))) : Awaits (.loadDcTest p) cardLoadDcTest p s [w32 (2 ^ k.val), 0] [.chan k.val] fun t =>
      t.diag.dc = [k.val] ∧ Touches [] s t ∧ { s.over t with diag := s.diag } = s := by
  obtain ⟨body, run, takes, -⟩ := loadDcTest_one named own single runs free
  have tested : s.dcTested k.val = true := by
    unfold State.dcTested
    rw [off, pvdd]
    rfl
  have ready := admitted_needAll s cardLoadDcTest p (ds := [dmGroup (k.val / 4)]) fun d mem => by
    rw [List.mem_singleton.1 mem]
    exact ⟨by unfold dmGroup; omega, up⟩
  have frame : Frame { diag := true } (· ∈ []) s ((s.admitted cardLoadDcTest p).dcTake [k.val]) :=
    dcTake_frame (Frame.admitted List.not_mem_nil s cardLoadDcTest p) _
  have slot : ((s.admitted cardLoadDcTest p).dcTake [k.val]).freeSlot? ≠ none := by
    rw [dcTake_freeSlot, admitted_freeSlot]
    exact free.2.2
  have held := dcTake_dc (s.admitted cardLoadDcTest p) [k.val]
  have pends := takes tested ready
  generalize (s.admitted cardLoadDcTest p).dcTake [k.val] = u at *
  exact awaits_of_pend (run s) acc pends slot fun t but => ⟨(congrArg DiagX.dc (Frame.of_papol but).diag).trans held, (frame.papol but).touches,
    (frame.papol but).rest⟩

theorem loadDcTest_skips (acc : Accepted cardLoadDcTest p s) (play : s.phase k.val = phPlay) :
    Answers (.loadDcTest p) cardLoadDcTest p s 0 0 [0, w32 (2 ^ k.val)] fun t =>
      t.rd (F.SAFE_LDIAG_DC_DCRES k.val) = 8 ∧ Touches [Reg.SAFE_LDIAG_DC k.val] s t ∧ s.over t = s := by
  obtain ⟨body, run, -, skips⟩ := loadDcTest_one named own single runs free
  have untested : s.dcTested k.val = false := by
    unfold State.dcTested
    rw [play]
    rfl
  obtain ⟨b, word⟩ := dcNone_one ((admitted_paired s cardLoadDcTest p k.val).trans single) 8
  have done := skips untested
  rw [word] at done
  have bit : b2n b ≤ 1 := by cases b <;> decide
  have shown : bits (w32 (8 * 2 ^ 28 + b2n b * 2 ^ 27)) 28 4 = 8 := by
    generalize b2n b = n at bit
    rw [bits_w32 (by omega)]
    omega
  generalize w32 (8 * 2 ^ 28 + b2n b * 2 ^ 27) = w at *
  have frame : Frame {} (· ∈ [Reg.SAFE_LDIAG_DC k.val]) s ((s.admitted cardLoadDcTest p).setReg (Reg.SAFE_LDIAG_DC k.val) w) :=
    (Frame.admitted (by
      intro h
      have e := List.mem_singleton.1 h
      unfold Reg.PWR_STATE Reg.SAFE_LDIAG_DC at e
      omega) s cardLoadDcTest p).setReg (List.mem_singleton.2 rfl)
  refine answers_of_done (run s) acc done fun t but => ⟨?_, (frame.papol but).touches, (frame.papol but).rest⟩
  have reg := ((Frame.of_papol but).reg_steady id (ldiag_steady k (.inl rfl))).trans (State.reg_setReg_same (s.admitted cardLoadDcTest p) _ w)
  exact (congrArg (fun w => bits w 28 4) reg).trans shown

end

end Sys2Proof.Machine
end

section
/-!
# The end of a channel's DC test (spec/10_load_jack_diagnostics.md, R479 to R482)
-/

namespace Sys2Proof.Machine

-- One theorem after the other: in one text, theorems that wait for the kernel would each hold a thread.
set_option Elab.async false

/-! ## The class and R_DC -/

theorem roundFree_le (n d : Nat) : roundFree n d ≤ n / d + 1 := by
  unfold roundFree
  split
  · omega
  · have bit := Nat.mod_lt (Config.roundOpen n d) (by decide : 2 > 0)
    omega

/-- A voltage within the range of the source measures at most 4001, in 10 mΩ. -/
theorem rdc_le {uv ua : Nat} (near : uv ≤ 40 * ua) : roundFree (100 * uv) ua ≤ 4001 := by
  have quotient : 100 * uv / ua ≤ 4000 := Nat.div_le_of_le_mul (by omega)
  exact (roundFree_le _ _).trans (by omega)

/-- The class and R_DC fit their fields. -/
theorem dcClass_lt {zn node uv ua : Nat} {internal comp : Bool} (few : node < 16) : (dcClass zn internal node uv ua comp).1 < 16 ∧
    (dcClass zn internal node uv ua comp).2 < 2 ^ 16 := by
  unfold dcClass
  split
  · decide
  split
  · exact ⟨few, show 0 < 2 ^ 16 by decide⟩
  split
  · decide
  · next near =>
    have low := rdc_le (uv := uv) (ua := ua) (by omega)
    dsimp only
    split
    · exact ⟨show 3 < 16 by decide, show _ < 2 ^ 16 by omega⟩
    split
    · exact ⟨show 5 < 16 by decide, show _ < 2 ^ 16 by omega⟩
    split
    · exact ⟨show 6 < 16 by decide, show _ < 2 ^ 16 by omega⟩
    · exact ⟨show 0 < 16 by decide, show _ < 2 ^ 16 by omega⟩

theorem nodeClass_lt (s : State) (n : Nat) (own slave : ChanTest) : s.nodeClass n own slave < 4 := by
  unfold State.nodeClass
  dsimp only
  generalize found : List.find? _ ([1, 2, 3] : List Nat) = o
  cases o with
  | none => decide
  | some c =>
    have mem := List.mem_of_find?_eq_some found
    simp only [List.mem_cons, List.not_mem_nil, or_false] at mem
    show c < 4
    omega

/-- The node class as a DC test takes it: an open load is measured. -/
theorem dcNode_lt (s : State) (n : Nat) (own slave : ChanTest) :
    (if s.nodeClass n own slave = 3 then 0 else s.nodeClass n own slave) < 16 := by
  have low := nodeClass_lt s n own slave
  split <;> omega

/-! ## What the test reads does not lie in its own state -/

theorem failing_dcTake (s : State) (l : List Nat) (n : Nat) (own slave : ChanTest) : (s.dcTake l).failing n own slave = s.failing n own slave := rfl

theorem nodeClass_dcTake (s : State) (l : List Nat) (n : Nat) (own slave : ChanTest) : (s.dcTake l).nodeClass n own slave = s.nodeClass n own slave := rfl

theorem znom_dcTake (s : State) (l : List Nat) (n : Nat) : (s.dcTake l).znom n = s.znom n := rfl

theorem paired_dcTake (s : State) (l : List Nat) (n : Nat) : (s.dcTake l).paired n = s.paired n := rfl

/-! ## The word -/

/-- The result word of a channel that is no pair and whose legs pass. -/
def dcWord (r : Nat × Nat) : Word := w32 (r.1 * 2 ^ 28 + 0 * 2 ^ 27 + 0 * 2 ^ 23 + 0 * 2 ^ 22 + r.2)

theorem dcWord_fields {r : Nat × Nat} (code : r.1 < 16) (low : r.2 < 2 ^ 16) : bits (dcWord r) 28 4 = r.1 ∧ bits (dcWord r) 0 16 = r.2 ∧
    bits (dcWord r) 23 1 = 0 ∧ bits (dcWord r) 22 1 = 0 := by
  unfold dcWord
  rw [bits_w32 (by omega), bits_w32 (by omega), bits_w32 (by omega), bits_w32 (by omega)]
  refine ⟨?_, ?_, ?_, ?_⟩ <;> omega

/-- The class of the channel under test. -/
def State.dcMeasured (s : State) (n : Nat) (own slave : ChanTest) (m : DcReading) : Nat × Nat :=
  dcClass (s.znom n) false (if s.nodeClass n own slave = 3 then 0 else s.nodeClass n own slave) m.microvolts m.microamps m.compliance

/-- The channel's result is stored, and `rest` is left to measure. -/
def State.dcStored (s : State) (n : Nat) (r : Nat × Nat) (rest : List Nat) : State :=
  (s.setReg (Reg.SAFE_LDIAG_DC n) (dcWord r)).dcTake rest

theorem dcTake_reg (s : State) (l : List Nat) (a : Nat) : (s.dcTake l).reg a = s.reg a := rfl

theorem dcStored_stores (s : State) (n : Nat) (r : Nat × Nat) (rest : List Nat) : (s.dcStored n r rest).reg (Reg.SAFE_LDIAG_DC n) = dcWord r :=
  (dcTake_reg _ rest _).trans (State.reg_setReg_same s _ _)

theorem dcStored_dc (s : State) (n : Nat) (r : Nat × Nat) (rest : List Nat) : (s.dcStored n r rest).diag.dc = rest := dcTake_dc _ rest

theorem dcStored_frame {R : Nat → Prop} {s t : State} (h : Frame { diag := true } R s t) {n : Nat} (named : R (Reg.SAFE_LDIAG_DC n)) (r : Nat × Nat)
    (rest : List Nat) : Frame { diag := true } R s (t.dcStored n r rest) := dcTake_frame (h.setReg named) rest

/-- The end of a channel whose legs pass. -/
theorem loadDcChannelDone_single {x : State} {k : Nat} {rest : List Nat} {own slave : ChanTest} {m : DcReading} (under : x.diag.dc = k :: rest)
    (single : x.paired k = false) (sound : x.failing k own slave = []) : exec (.loadDcChannelDone own slave m) x =
      .next (if rest = [] then (x.dcStored k (x.dcMeasured k own slave m) rest).finishAll (fun e => e.opcode = 0xA00) stsOk 0
        else x.dcStored k (x.dcMeasured k own slave m) rest) := by
  refine Eq.trans (b := execLoadDcChannelDone own slave m x) rfl ?_
  unfold execLoadDcChannelDone
  rw [under]
  dsimp only
  rw [drives_one single, sound]
  rfl

theorem loadDcChannelDone_stores {s : State} {k : Fin 12} (single : s.paired k.val = false) (own slave : ChanTest) (uv ua : Nat) (comp : Bool)
    (rest : List Nat) (sound : s.failing k.val own slave = []) :
    let node := s.nodeClass k.val own slave
    let r := dcClass (s.znom k.val) false (if node = 3 then 0 else node) uv ua comp
    ∃ t, exec (.loadDcChannelDone own slave ⟨uv, ua, comp⟩) (s.dcTake (k.val :: rest)) = .next t ∧
      t.rd (F.SAFE_LDIAG_DC_DCRES k.val) = r.1 ∧ t.rd (F.SAFE_LDIAG_DC_RDC k.val) = r.2 % 2 ^ (F.SAFE_LDIAG_DC_RDC k.val).width ∧
      t.rd (F.SAFE_LDIAG_DC_PFAIL k.val) = 0 ∧ t.rd (F.SAFE_LDIAG_DC_MFAIL k.val) = 0 ∧ t.diag.dc = rest ∧
      Touches [Reg.SAFE_LDIAG_DC k.val] s t ∧ { s.over t with diag := s.diag } = s := by
  intro node r
  obtain ⟨code, low⟩ : r.1 < 16 ∧ r.2 < 2 ^ 16 := dcClass_lt (dcNode_lt s k.val own slave)
  obtain ⟨res, rdc, pfail, mfail⟩ := dcWord_fields code low
  have found : (s.dcTake (k.val :: rest)).dcMeasured k.val own slave ⟨uv, ua, comp⟩ = r := by
    unfold State.dcMeasured
    rw [nodeClass_dcTake, znom_dcTake]
  have ends := loadDcChannelDone_single (x := s.dcTake (k.val :: rest)) (m := ⟨uv, ua, comp⟩) (dcTake_dc s _) ((paired_dcTake s _ _).trans single)
    ((failing_dcTake s _ _ own slave).trans sound)
  rw [found] at ends
  have frame : Frame { diag := true } (· ∈ [Reg.SAFE_LDIAG_DC k.val]) s ((s.dcTake (k.val :: rest)).dcStored k.val r rest) :=
    dcStored_frame (dcTake_frame (.refl (by
      intro h
      have e := List.mem_singleton.1 h
      unfold Reg.PWR_STATE Reg.SAFE_LDIAG_DC at e
      omega) s) _) (List.mem_singleton.2 rfl) r rest
  have stored := dcStored_stores (s.dcTake (k.val :: rest)) k.val r rest
  have left := dcStored_dc (s.dcTake (k.val :: rest)) k.val r rest
  generalize (s.dcTake (k.val :: rest)).dcStored k.val r rest = z at *
  have last : Frame {} (fun _ => False) z (if rest = [] then z.finishAll (fun e => e.opcode = 0xA00) stsOk 0 else z) :=
    .ite (Frame.refl id z).finishAll (.refl id z)
  have reg := (last.reg_steady id (ldiag_steady k (.inl rfl))).trans stored
  have whole := frame.trans (last.widen.mono (fun _ no => no.elim) frame.apart)
  refine ⟨_, ends, ?_, ?_, ?_, ?_, (congrArg DiagX.dc last.diag).trans left, whole.touches, whole.rest⟩
  · exact (rd_of_reg (f := F.SAFE_LDIAG_DC_DCRES k.val) reg).trans res
  · exact (rd_of_reg (f := F.SAFE_LDIAG_DC_RDC k.val) reg).trans (rdc.trans (Nat.mod_eq_of_lt low).symm)
  · exact (rd_of_reg (f := F.SAFE_LDIAG_DC_PFAIL k.val) reg).trans pfail
  · exact (rd_of_reg (f := F.SAFE_LDIAG_DC_MFAIL k.val) reg).trans mfail

end Sys2Proof.Machine
end

section
/-!
# The windows of the online AC test (spec/10_load_jack_diagnostics.md, R486, R491 to R495)
-/

namespace Sys2Proof.Machine

-- One theorem after the other: in one text, theorems that wait for the kernel would each hold a thread.
set_option Elab.async false

/-- The AC test under way. -/
def State.acTake (s : State) (o : Option AcTest) : State := { s with diag := { s.diag with ac := o } }

/-! ## What the AC test reads does not lie in its own state -/

section
variable (s : State) (o : Option AcTest)

theorem acTake_ac : (s.acTake o).diag.ac = o := rfl

theorem acTake_reg (a : Nat) : (s.acTake o).reg a = s.reg a := rfl

theorem acTake_phase (n : Nat) : (s.acTake o).phase n = s.phase n := rfl

theorem acTake_inSeq (n : Nat) : (s.acTake o).inSeq n = s.inSeq n := rfl

theorem acTake_croaking (n : Nat) : (s.acTake o).croaking n = s.croaking n := rfl

theorem acTake_paired (n : Nat) : (s.acTake o).paired n = s.paired n := rfl

theorem acTake_freeSlot : (s.acTake o).freeSlot? = s.freeSlot? := rfl

theorem acTake_frame {R : Nat → Prop} {z : State} (h : Frame { diag := true } R z s) : Frame { diag := true } R z (s.acTake o) := h.upd rfl

end

/-! ## The end of an AC test -/

/-- The word that holds the class. -/
def acWord (acres : Nat) (a : AcTest) (cest : Nat) : Word := w32 (acres * 2 ^ 28 + b2n a.online * 2 ^ 27 + b2n a.fcorr * 2 ^ 26 + cest)

theorem acWord_class {acres cest : Nat} (few : acres < 16) (low : cest < 2 ^ 16) (a : AcTest) : bits (acWord acres a cest) 28 4 = acres := by
  have one : ∀ b : Bool, b2n b ≤ 1 := by decide
  have online := one a.online
  have corrected := one a.fcorr
  unfold acWord
  generalize b2n a.online = p at online
  generalize b2n a.fcorr = q at corrected
  rw [bits_w32 (by omega)]
  omega

/-- A test's class and its impedances are stored. -/
def State.acWritten (s : State) (a : AcTest) (acres cest : Nat) : State :=
  (((s.setReg (Reg.SAFE_LDIAG_AC a.chan) (acWord acres a cest)).setReg (Reg.SAFE_LDIAG_ZLO a.chan) (zWord a.lo)).setReg
    (Reg.SAFE_LDIAG_ZHI a.chan) (zWord a.hi)).acTake none

theorem acWritten_ac (s : State) (a : AcTest) (acres cest : Nat) : (s.acWritten a acres cest).diag.ac = none := acTake_ac _ none

theorem acWritten_class (s : State) (a : AcTest) (acres cest : Nat) :
    (s.acWritten a acres cest).reg (Reg.SAFE_LDIAG_AC a.chan) = acWord acres a cest := by
  have lo : Reg.SAFE_LDIAG_AC a.chan ≠ Reg.SAFE_LDIAG_ZLO a.chan := by
    unfold Reg.SAFE_LDIAG_AC Reg.SAFE_LDIAG_ZLO
    omega
  have hi : Reg.SAFE_LDIAG_AC a.chan ≠ Reg.SAFE_LDIAG_ZHI a.chan := by
    unfold Reg.SAFE_LDIAG_AC Reg.SAFE_LDIAG_ZHI
    omega
  exact (acTake_reg _ none _).trans ((State.reg_setReg_ne _ _ hi).trans ((State.reg_setReg_ne _ _ lo).trans (State.reg_setReg_same s _ _)))

/-- The registers that the end of a channel's AC test writes. -/
def acRegs (k : Nat) : List Nat := [Reg.SAFE_LDIAG_AC k, Reg.SAFE_LDIAG_ZLO k, Reg.SAFE_LDIAG_ZHI k]

theorem acRegs_away (k : Nat) : Reg.PWR_STATE ∉ acRegs k := by
  intro h
  simp only [acRegs, List.mem_cons, List.not_mem_nil, or_false, Reg.PWR_STATE, Reg.SAFE_LDIAG_AC, Reg.SAFE_LDIAG_ZLO, Reg.SAFE_LDIAG_ZHI] at h
  omega

theorem acWritten_frame {s t : State} {a : AcTest} (h : Frame { diag := true } (· ∈ acRegs a.chan) s t) (acres cest : Nat) :
    Frame { diag := true } (· ∈ acRegs a.chan) s (t.acWritten a acres cest) :=
  acTake_frame _ none (((h.setReg (.head _)).setReg (.tail _ (.head _))).setReg (.tail _ (.tail _ (.head _))))

theorem acEnd_single {s : State} {a : AcTest} (single : s.paired a.chan = false) (acres cest st : Nat) : s.acEnd a acres cest st =
    (s.acWritten a acres cest).finishAll (fun e => e.opcode = 0xA01) st 0 := by
  unfold State.acEnd
  rw [drives_one single]
  rfl

/-- The end of an AC test stores its class and touches the channel's three registers. -/
theorem acEnd_stores {s u : State} {k : Fin 12} {a : AcTest} (own : a.chan = k.val) (frame : Frame { diag := true } (· ∈ acRegs k.val) s u)
    (single : u.paired k.val = false) {acres : Nat} (few : acres < 16) (st : Nat) :
    (u.acEnd a acres 0 st).diag.ac = none ∧ (u.acEnd a acres 0 st).rd (F.SAFE_LDIAG_AC_ACRES k.val) = acres ∧
      Touches (acRegs k.val) s (u.acEnd a acres 0 st) ∧ { s.over (u.acEnd a acres 0 st) with diag := s.diag } = s := by
  rw [← own] at frame single
  have written := acWritten_frame frame acres 0
  have shown := acWritten_class u a acres 0
  have gone := acWritten_ac u a acres 0
  rw [acEnd_single single]
  generalize u.acWritten a acres 0 = z at *
  have last : Frame {} (fun _ => False) z (z.finishAll (fun e => e.opcode = 0xA01) st 0) := (Frame.refl id z).finishAll
  have whole := written.trans (last.widen.mono (fun _ no => no.elim) frame.apart)
  rw [own] at shown whole
  have reg := (last.reg_steady id (ldiag_steady k (.inr (.inl rfl)))).trans shown
  refine ⟨(congrArg DiagX.ac last.diag).trans gone, ?_, whole.touches, whole.rest⟩
  exact (rd_of_reg (f := F.SAFE_LDIAG_AC_ACRES k.val) reg).trans (acWord_class few (by decide) a)

theorem acClass_lt (online uncertain : Bool) (zn lo hi : Nat) (plo phi : Int) : acClass online uncertain zn lo hi plo phi < 16 := by
  unfold acClass
  dsimp only
  repeat' split
  all_goals decide

/-! ## A window -/

/-- What a window finds of its channel. -/
theorem acWatch_clean {s : State} {a : AcTest} (play : s.phase a.chan = phPlay) (whole : s.inSeq a.chan = false) (silent : s.croaking a.chan = false) :
    (s.acTake (some a)).acWatch = s.acTake (some a) := by
  unfold State.acWatch
  rw [acTake_ac]
  dsimp only
  rw [acTake_phase, acTake_inSeq, acTake_croaking, play, whole, silent]
  exact if_neg (by decide)

/-- The windows that a test holds after one more. -/
def AcTest.gathered (a : AcTest) (z : Nat × Int) : List (Nat × Int) := if a.spoilt then a.wins else a.wins ++ [z]

theorem AcTest.gathered_spoilt {a : AcTest} (bad : a.spoilt = true) (z : Nat × Int) : a.gathered z = a.wins := if_pos bad

theorem AcTest.gathered_clean {a : AcTest} (good : a.spoilt = false) (z : Nat × Int) : a.gathered z = a.wins ++ [z] :=
  if_neg (by rw [good]; decide)

/-- A test after one more window. -/
def AcTest.after (a : AcTest) (z : Nat × Int) : AcTest := { a with wins := a.gathered z, tried := a.tried + 1, spoilt := false }

section
variable {s : State} {n : Fin 12} {a : AcTest} (own : a.chan = n.val) (online : a.online = true) (play : s.phase n.val = phPlay)
  (whole : s.inSeq n.val = false) (silent : s.croaking n.val = false) (mohm : Nat) (cd : Int)
include own online play whole silent

theorem acWindow_runs {z : Nat × Int} (measured : z = loadImpedance mohm cd 25000 a.lf a.cf) : exec (.acWindow n mohm cd) (s.acTake (some a)) =
    if (a.gathered z).length = 10 then
      .next ((s.acTake (some a)).acEnd { a.after z with hi := (roundFree (((a.gathered z).map (·.1)).foldl (· + ·) 0) 10,
          tenth (((a.gathered z).map (·.2)).foldl (· + ·) 0)) }
        (acClass true (spread ((a.gathered z).map (·.1))) (s.znom a.chan) 0 (((a.gathered z).map (·.1)).foldl (· + ·) 0) 0
          (tenth (((a.gathered z).map (·.2)).foldl (· + ·) 0))) 0 stsOk)
    else if a.tried + 1 = 30 then .next ((s.acTake (some a)).acEnd (a.after z) 7 0 stsOk)
    else .next (s.acTake (some (a.after z))) := by
  subst measured
  refine Eq.trans (b := execAcWindow n mohm cd (s.acTake (some a))) rfl ?_
  unfold execAcWindow
  rw [acWatch_clean (by rw [own, play]) (by rw [own, whole]) (by rw [own, silent])]
  dsimp only
  rw [acTake_ac]
  dsimp only
  rw [if_neg (by rw [online, own]; simp)]
  rfl

theorem acWindow_adds (clean : a.spoilt = false) (few : a.wins.length < 9) (early : a.tried < 29) : exec (.acWindow n mohm cd) (s.acTake (some a)) =
    .next (s.acTake (some { a with wins := a.wins ++ [loadImpedance mohm cd 25000 a.lf a.cf], tried := a.tried + 1 })) := by
  rw [acWindow_runs own online play whole silent mohm cd rfl, if_neg, if_neg (by omega)]
  · unfold AcTest.after
    rw [AcTest.gathered_clean clean]
    obtain ⟨_, _, _, _, _, _, _, _, spoilt, _, _, _, _⟩ := a
    cases (clean : spoilt = false)
    rfl
  · rw [AcTest.gathered_clean clean, List.length_append, List.length_singleton]
    omega

theorem acWindow_discards (bad : a.spoilt = true) (few : a.wins.length < 10) (early : a.tried < 29) :
    exec (.acWindow n mohm cd) (s.acTake (some a)) = .next (s.acTake (some { a with tried := a.tried + 1, spoilt := false })) := by
  rw [acWindow_runs own online play whole silent mohm cd rfl, if_neg, if_neg (by omega)]
  · unfold AcTest.after
    rw [AcTest.gathered_spoilt bad]
  · rw [AcTest.gathered_spoilt bad]
    omega

theorem acWindow_gives_up (single : s.paired n.val = false) (bad : a.spoilt = true) (few : a.wins.length < 10) (last : a.tried = 29) :
    ∃ t, exec (.acWindow n mohm cd) (s.acTake (some a)) = .next t ∧ t.diag.ac = none ∧ t.rd (F.SAFE_LDIAG_AC_ACRES n.val) = 7 := by
  obtain ⟨gone, res, -, -⟩ := acEnd_stores (a := a.after (loadImpedance mohm cd 25000 a.lf a.cf)) own
    (acTake_frame s (some a) (.refl (acRegs_away n.val) s)) ((acTake_paired s _ _).trans single) (acres := 7) (by decide) stsOk
  refine ⟨_, ?_, gone, res⟩
  rw [acWindow_runs own online play whole silent mohm cd rfl, if_neg, if_pos (by omega)]
  rw [AcTest.gathered_spoilt bad]
  omega

theorem acWindow_classes (single : s.paired n.val = false) (clean : a.spoilt = false) (full : a.wins.length = 9) :
    ∃ t, exec (.acWindow n mohm cd) (s.acTake (some a)) = .next t ∧ t.diag.ac = none ∧
      (let ms := (a.wins ++ [loadImpedance mohm cd 25000 a.lf a.cf]).map (·.1)
      t.rd (F.SAFE_LDIAG_AC_ACRES n.val) = acClass true (spread ms) (s.znom n.val) 0 (ms.foldl (· + ·) 0) 0
        (tenth (((a.wins ++ [loadImpedance mohm cd 25000 a.lf a.cf]).map (·.2)).foldl (· + ·) 0))) ∧
      Touches [Reg.SAFE_LDIAG_AC n.val, Reg.SAFE_LDIAG_ZLO n.val, Reg.SAFE_LDIAG_ZHI n.val] s t ∧ { s.over t with diag := s.diag } = s := by
  have ends := acWindow_runs own online play whole silent mohm cd rfl
  rw [AcTest.gathered_clean clean, if_pos (by rw [List.length_append, List.length_singleton, full])] at ends
  obtain ⟨gone, res, touches, rest⟩ := acEnd_stores (a := { a.after (loadImpedance mohm cd 25000 a.lf a.cf) with
      hi := (roundFree (((a.wins ++ [loadImpedance mohm cd 25000 a.lf a.cf]).map (·.1)).foldl (· + ·) 0) 10,
        tenth (((a.wins ++ [loadImpedance mohm cd 25000 a.lf a.cf]).map (·.2)).foldl (· + ·) 0)) }) own
    (acTake_frame s (some a) (.refl (acRegs_away n.val) s)) ((acTake_paired s _ _).trans single)
    (acClass_lt true (spread ((a.wins ++ [loadImpedance mohm cd 25000 a.lf a.cf]).map (·.1))) (s.znom a.chan) 0
      (((a.wins ++ [loadImpedance mohm cd 25000 a.lf a.cf]).map (·.1)).foldl (· + ·) 0) 0
      (tenth (((a.wins ++ [loadImpedance mohm cd 25000 a.lf a.cf]).map (·.2)).foldl (· + ·) 0))) stsOk
  refine ⟨_, ends, gone, res.trans ?_, touches, rest⟩
  rw [own]

end

end Sys2Proof.Machine
end

section
/-!
# A phase moves under an AC test (spec/10_load_jack_diagnostics.md, R489, R492, R498)
-/

namespace Sys2Proof.Machine

-- One theorem after the other: in one text, theorems that wait for the kernel would each hold a thread.
set_option Elab.async false

/-! ## Free slots -/

/-- Where the pending commands of `t` sit, commands of `s` sat. -/
def Roomier (s t : State) : Prop := ∀ e ∈ t.pap.slots, ∃ f ∈ s.pap.slots, f.slot = e.slot

theorem Roomier.of_pap {s t : State} (same : t.pap = s.pap) : Roomier s t := fun e mem => ⟨e, by rwa [same] at mem, rfl⟩

theorem Roomier.trans {s t u : State} (h : Roomier s t) (k : Roomier t u) : Roomier s u := fun e mem => by
  obtain ⟨f, mem', same⟩ := k e mem
  obtain ⟨g, mem'', same'⟩ := h f mem'
  exact ⟨g, mem'', same'.trans same⟩

theorem finish_roomier (s : State) (e : PendEntry) (st d : Nat) (ws : List Word) (cl : List Clamp) : Roomier s (s.finish e st d ws cl) := fun f mem => by
  by_cases run : s.pap.run = .running
  · rw [finish_slots run] at mem
    exact ⟨f, List.mem_of_mem_filter mem, rfl⟩
  · unfold State.finish State.finishWith at mem
    dsimp only at mem
    rw [if_neg run] at mem
    obtain ⟨g, there, rfl⟩ := List.mem_map.1 mem
    refine ⟨g, there, ?_⟩
    split <;> rfl

theorem foldl_roomier {α : Type} {f : State → α → State} (each : ∀ x a, Roomier x (f x a)) : ∀ (l : List α) (s : State), Roomier s (l.foldl f s)
  | [], _ => .of_pap rfl
  | a :: l, s => (each s a).trans (foldl_roomier each l (f s a))

theorem finishAll_roomier (s : State) (sel : PendEntry → Bool) (st d : Nat) : Roomier s (s.finishAll sel st d) :=
  foldl_roomier (fun x e => finish_roomier x e st d [] []) _ s

theorem Roomier.freeSlot {s t : State} (h : Roomier s t) (free : s.freeSlot? ≠ none) : t.freeSlot? ≠ none := by
  refine fun none => free ?_
  unfold State.freeSlot? at none ⊢
  rw [List.find?_eq_none] at none ⊢
  intro k few
  have taken := none k few
  simp only [decide_eq_true_eq, not_not, List.any_eq_true] at taken ⊢
  obtain ⟨e, mem, at'⟩ := taken
  obtain ⟨f, there, same⟩ := h e mem
  exact ⟨f, there, same.trans at'⟩

/-! ## The test itself -/

theorem acBroken_of {s t : State} {a : AcTest} (phase : t.phase a.chan = s.phase a.chan) (spk : t.spk a.chan = s.spk a.chan) :
    t.acBroken a = s.acBroken a := by
  unfold State.acBroken
  rw [phase, spk]

theorem acBroken_spoilt (s : State) (a : AcTest) (b : Bool) : s.acBroken { a with spoilt := b } = s.acBroken a := rfl

theorem acBroken_acTake (s : State) (o : Option AcTest) (a : AcTest) : (s.acTake o).acBroken a = s.acBroken a := rfl

theorem acTake_self {s : State} {o : Option AcTest} (ac : s.diag.ac = o) : s.acTake o = s := by
  subst ac
  rfl

theorem acTake_dc (s : State) (o : Option AcTest) : (s.acTake o).diag.dc = s.diag.dc := rfl

theorem acWatch_either {s : State} {a : AcTest} (ac : s.diag.ac = some a) : ∃ b : Bool, s.acWatch = s.acTake (some { a with spoilt := b }) := by
  unfold State.acWatch
  rw [ac]
  dsimp only
  split
  · refine ⟨true, ?_⟩
    unfold State.acSpoil
    rw [ac]
    exact if_pos rfl
  · exact ⟨a.spoilt, (acTake_self ac).symm⟩

/-- A test that can go on is not touched. -/
theorem diagPoll_goes {s : State} {a : AcTest} (dc : s.diag.dc = []) (ac : s.diag.ac = some a) (goes : s.acBroken a = false) : s.diagPoll = s := by
  have drop : ∀ p st, s.dcDrop p st = s := fun p st => by
    unfold State.dcDrop
    rw [dc]
    exact if_neg Bool.false_ne_true
  unfold State.diagPoll
  rw [drop]
  unfold State.acDrop
  rw [ac]
  exact if_neg (by rw [goes]; decide)

/-! ## The phase -/

/-- The state in which the commands that waited for the phase wait no more. -/
def State.metBy (s : State) (n ph : Nat) : State :=
  (s.modOut fun o => { o with waits := o.waits.filter fun (w : Nat × Nat × Nat) => ¬ (w.2.1 = n ∧ waitMet ph w.2.2 = true) }).spkPoll

theorem phaseShown_eq (s : State) (n ph : Nat) : s.phaseShown n ph = (s.metBy n ph).outShow.diagPoll := rfl

theorem metBy_moves (s : State) (n ph : Nat) : Moves (fun _ => False) s (s.metBy n ph) := by
  unfold State.metBy State.spkPoll
  exact ((Moves.refl s).waited _).finishAll _ _ _

theorem spkPoll_roomier (s : State) : Roomier s s.spkPoll := finishAll_roomier s _ stsOk 0

theorem modOut_pap (s : State) (f : OutX → OutX) : (s.modOut f).pap = s.pap := rfl

theorem metBy_roomier (s : State) (n ph : Nat) : Roomier s (s.metBy n ph) := (Roomier.of_pap (modOut_pap s _)).trans (spkPoll_roomier _)

theorem crkShown_pap (s : State) : s.crkShown.pap = s.pap := ((Local.refl (m := { out := true }) (R := showReg) s).crkShown rfl fun _ => id).pap

section
variable {s : State} {a : AcTest} {n ph : Nat} (dc : s.diag.dc = []) (ac : s.diag.ac = some a) (recs : ∀ r ∈ s.saf.recs, r.code ≠ 0x30A)
  (own : a.chan = n) (few : n < 12)
include dc ac recs own few

theorem phaseShown_goes (goes : s.acBroken a = false) : ∃ (b : Bool) (t : State), s.phaseShown n ph = t.acTake (some { a with spoilt := b }) ∧
    Moves (fun _ => False) s t ∧ Roomier s t := by
  have met := metBy_moves s n ph
  have moves := met.crkShown
  have room := (metBy_roomier s n ph).trans (.of_pap (crkShown_pap _))
  rw [phaseShown_eq, outShow_eq, lostGone_none (by rw [met.frame.saf]; exact recs)]
  generalize (s.metBy n ph).crkShown = z at *
  obtain ⟨b, watched⟩ := acWatch_either (s := z) (a := a) (by rw [moves.frame.diag]; exact ac)
  refine ⟨b, z, ?_, moves, room⟩
  rw [watched]
  refine diagPoll_goes ?_ (acTake_ac _ _) ?_
  · rw [acTake_dc, moves.frame.diag]
    exact dc
  · rw [acBroken_acTake, acBroken_spoilt, acBroken_of (s := s) ?_ ?_]
    · exact goes
    · rw [own]
      exact moves.phase few id
    · exact moves.spk _ id

theorem setPhase_goes (code : ph < 16) (goes : ∀ y : State, y.phase a.chan = ph → y.spk a.chan = s.spk a.chan → y.acBroken a = false) :
    ∃ (b : Bool) (t : State), s.setPhase n ph = t.acTake (some { a with spoilt := b }) ∧ t.phase n = ph ∧
      (∀ m, m < 12 → m ≠ n → t.phase m = s.phase m) ∧ Roomier s t := by
  have written : ((s.wr (F.OUT_SPK_STAT_PHASE n) ph).wr (F.OUT_SPK_STAT_MUTED n) (b2n (ph = phHold && s.muted))).phase n = ph := by
    unfold State.phase
    rw [State.rd_wr_off _ _ (f := F.OUT_SPK_STAT_MUTED n) (g := F.OUT_SPK_STAT_PHASE n)
      (apart_bits (muted_fits n) (.inr (show 22 + 1 ≤ 28 by decide))),
      State.rd_wr_fits s (f := F.OUT_SPK_STAT_PHASE n) (phase_fits n) code]
  have moves : Moves (· = n) s ((s.wr (F.OUT_SPK_STAT_PHASE n) ph).wr (F.OUT_SPK_STAT_MUTED n) (b2n (ph = phHold && s.muted))) :=
    ((Moves.start n s).wrPhase few rfl).wrMuted few rfl
  have spk : ((s.wr (F.OUT_SPK_STAT_PHASE n) ph).wr (F.OUT_SPK_STAT_MUTED n) (b2n (ph = phHold && s.muted))).spks = s.spks := by
    rw [wr_spks, wr_spks]
  have pap : ((s.wr (F.OUT_SPK_STAT_PHASE n) ph).wr (F.OUT_SPK_STAT_MUTED n) (b2n (ph = phHold && s.muted))).pap = s.pap :=
    (((Local.refl (m := {}) (R := fun _ => True) s).wr (f := F.OUT_SPK_STAT_PHASE n) trivial).wr (f := F.OUT_SPK_STAT_MUTED n) trivial).pap
  rw [setPhase_eq]
  generalize (s.wr (F.OUT_SPK_STAT_PHASE n) ph).wr (F.OUT_SPK_STAT_MUTED n) (b2n (ph = phHold && s.muted)) = y at *
  obtain ⟨b, t, shown, follows, room⟩ := phaseShown_goes (s := y) (ph := ph) (by rw [moves.frame.diag]; exact dc) (by rw [moves.frame.diag]; exact ac)
    (by rw [moves.frame.saf]; exact recs) own few (goes y (by rw [own]; exact written) (spk_congr spk _))
  refine ⟨b, t, shown, (follows.phase few id).trans written, fun m low other => ?_, (Roomier.of_pap pap).trans room⟩
  exact (follows.phase low id).trans (moves.phase low other)

end

end Sys2Proof.Machine
end

section
/-!
# The offline AC test's tones and the start of an AC test (spec/10_load_jack_diagnostics.md, R486 to R491, R507)
-/

namespace Sys2Proof.Machine

-- One theorem after the other: in one text, theorems that wait for the kernel would each hold a thread.
set_option Elab.async false

/-- When an offline test goes on. -/
theorem acBroken_offline {s : State} {a : AcTest} (offline : a.online = false) (off : (s.spk a.chan).on = false) (free : held (s.phase a.chan) = false)
    (first : a.stage = 0 → s.phase a.chan ≠ phOff ∧ s.phase a.chan ≤ phLock) (tones : a.stage = 1 ∨ a.stage = 2 → s.phase a.chan = phHold) :
    s.acBroken a = false := by
  unfold State.acBroken
  generalize s.phase a.chan = ph at *
  dsimp only
  rw [offline, off, free, if_neg (by decide)]
  simp only [Bool.false_or, Bool.or_eq_false_iff, Bool.and_eq_false_iff, Bool.or_eq_false_iff, decide_eq_false_iff_not]
  refine ⟨⟨?_, ?_⟩, ?_⟩
  · by_cases z : a.stage = 0
    · exact .inl (.inr (first z).1)
    · exact .inl (.inl z)
  · by_cases z : a.stage = 0
    · exact .inr (Nat.not_lt.2 (first z).2)
    · exact .inl z
  · by_cases t : a.stage = 1 ∨ a.stage = 2
    · exact .inr fun no => no (tones t)
    · exact .inl (not_or.1 t)

theorem acTake_spk (s : State) (o : Option AcTest) (n : Nat) : (s.acTake o).spk n = s.spk n := rfl

theorem acTake_saf (s : State) (o : Option AcTest) : (s.acTake o).saf = s.saf := rfl

/-! ## The channel's own state -/

theorem modSpk_phase (s : State) (n : Nat) (f : SpkX → SpkX) (m : Nat) : (s.modSpk n f).phase m = s.phase m := rfl

theorem modSpk_pap (s : State) (n : Nat) (f : SpkX → SpkX) : (s.modSpk n f).pap = s.pap := rfl

theorem modSpk_diag (s : State) (n : Nat) (f : SpkX → SpkX) : (s.modSpk n f).diag = s.diag := rfl

theorem modSpk_saf (s : State) (n : Nat) (f : SpkX → SpkX) : (s.modSpk n f).saf = s.saf := rfl

section
variable {s : State} {a : AcTest} {n ph : Nat} (dc : s.diag.dc = []) (ac : s.diag.ac = some a) (recs : ∀ r ∈ s.saf.recs, r.code ≠ 0x30A)
  (own : a.chan = n) (few : n < 12) (code : ph < 16)
include dc ac recs own few code

/-- A phase that follows a change of the channel's own state which leaves it stopped. -/
theorem modSpk_setPhase_goes {f : SpkX → SpkX} (off : (f (s.spk n)).on = false)
    (goes : ∀ y : State, y.phase a.chan = ph → (y.spk a.chan).on = false → y.acBroken a = false) :
    ∃ (b : Bool) (t : State), (s.modSpk n f).setPhase n ph = t.acTake (some { a with spoilt := b }) ∧ t.phase n = ph ∧
      (∀ m, m < 12 → m ≠ n → t.phase m = s.phase m) ∧ Roomier s t := by
  have stopped : ((s.modSpk n f).spk n).on = false := by
    rw [spk_modSpk_same s f few]
    exact off
  obtain ⟨b, t, moved, phase, others, room⟩ := setPhase_goes (s := s.modSpk n f) (ph := ph) (by rw [modSpk_diag]; exact dc)
    (by rw [modSpk_diag]; exact ac) (by rw [modSpk_saf]; exact recs) own few code
    fun y at' same => goes y at' (by rw [same, own]; exact stopped)
  exact ⟨b, t, moved, phase, fun m low other => (others m low other).trans (modSpk_phase s n f m), (Roomier.of_pap (modSpk_pap s n f)).trans room⟩

end

/-! ## The tones -/

section
variable {s : State} {k : Fin 12} {a : AcTest} (q : Quiet s) (own : a.chan = k.val) (offline : a.online = false) (off : (s.spk k.val).on = false)
  (hold : s.phase k.val = phHold) (mohm : Nat) (cd : Int)
include q own offline off hold

theorem tone_polls (tone : a.stage = 1 ∨ a.stage = 2) : (s.acTake (some a)).diagPoll = s.acTake (some a) := by
  have dc : (s.acTake (some a)).diag.dc = [] := (acTake_dc s _).trans q.dc
  refine diagPoll_goes dc (acTake_ac s _) ?_
  rw [acBroken_acTake]
  refine acBroken_offline offline (by rw [own]; exact off) ?_ (fun z => ?_) fun _ => by rw [own]; exact hold
  · rw [own, hold]
    decide
  · omega

theorem acToneDone_low (tone : a.stage = 1) : ∃ t, exec (.acToneDone mohm cd) (s.acTake (some a)) = .next t ∧
    t.diag.ac = some { a with stage := 2, lo := loadImpedance mohm cd 1000 a.lf a.cf, mark := s.now } ∧ t.phase k.val = phHold := by
  refine ⟨s.acTake (some { a with stage := 2, lo := loadImpedance mohm cd 1000 a.lf a.cf, mark := s.now }), ?_, acTake_ac _ _,
    (acTake_phase s _ _).trans hold⟩
  refine Eq.trans (b := execAcToneDone mohm cd (s.acTake (some a))) rfl ?_
  unfold execAcToneDone
  rw [tone_polls q own offline off hold (.inl tone)]
  dsimp only
  rw [acTake_ac]
  dsimp only
  rw [if_pos ⟨offline, tone⟩]
  rfl

theorem acToneDone_high (tone : a.stage = 2) : ∃ t, exec (.acToneDone mohm cd) (s.acTake (some a)) = .next t ∧
    (∃ b : Bool, t.diag.ac = some { a with stage := 3, hi := loadImpedance mohm cd 16000 a.lf a.cf, spoilt := b }) ∧ t.phase k.val = phDischarge := by
  have ends : exec (.acToneDone mohm cd) (s.acTake (some a)) =
      .next ((s.acTake (some { a with stage := 3, hi := loadImpedance mohm cd 16000 a.lf a.cf })).discharge k.val) := by
    refine Eq.trans (b := execAcToneDone mohm cd (s.acTake (some a))) rfl ?_
    unfold execAcToneDone
    rw [tone_polls q own offline off hold (.inr tone)]
    dsimp only
    rw [acTake_ac]
    dsimp only
    rw [if_neg (by omega), if_pos ⟨offline, tone⟩, own]
    rfl
  generalize high : ({ a with stage := 3, hi := loadImpedance mohm cd 16000 a.lf a.cf } : AcTest) = c at ends
  have chan : c.chan = k.val := by rw [← high]; exact own
  have third : c.stage = 3 := by rw [← high]
  have dc : (s.acTake (some c)).diag.dc = [] := (acTake_dc s _).trans q.dc
  have recs : ∀ r ∈ (s.acTake (some c)).saf.recs, r.code ≠ 0x30A := by
    rw [acTake_saf]
    exact q.recs
  have stopped : ((s.acTake (some c)).spk k.val).on = false := by
    rw [acTake_spk]
    exact off
  unfold State.discharge State.ramp at ends
  obtain ⟨b, t, moved, phase, -, -⟩ := modSpk_setPhase_goes (s := s.acTake (some c)) (a := c) (n := k.val) (ph := phDischarge) dc (acTake_ac s _)
    recs chan k.isLt (by decide) (f := fun x => { x with mark := (s.acTake (some c)).now, pos := (s.acTake (some c)).cmTicks k.val, fast := false })
    stopped fun y at' stays => acBroken_offline (by rw [← high]; exact offline) stays (by rw [at']; decide)
      (fun z => absurd z (by rw [third]; decide)) fun z => absurd z (by rw [third]; decide)
  rw [moved] at ends
  refine ⟨_, ends, ⟨b, ?_⟩, (acTake_phase t _ _).trans phase⟩
  rw [acTake_ac, ← high]

end

/-! ## LOAD_AC_TEST -/

/-- The test that LOAD_AC_TEST begins on a channel. -/
def begunTest (p : Packet) (s : State) (k : Nat) (online : Bool) : AcTest :=
  ⟨k, online, pf p.payload 1 8 8 ≠ 0 && pf p.payload 1 0 8 ≠ 0, 0, (0, 0), (0, 0), [], 0, false, pf p.payload 1 8 8, pf p.payload 1 0 8,
    pf p.payload 0 16 8, s.now⟩

theorem begunTest_card (p : Packet) (s : State) (c : CmdSpec) (k : Nat) (online : Bool) : begunTest p (s.admitted c p) k online = begunTest p s k online := by
  unfold begunTest
  rw [admitted_now]

/-- The words in which LOAD_AC_TEST is answered. -/
def State.acAnswer (s : State) (p : Packet) (k : Nat) : List Word :=
  [w32 ((if pf p.payload 0 8 2 = 1 then 3000 else 203 + 2 * (s.cmTicks k / msTicks)) * 2 ^ 16 + pf p.payload 0 8 2 * 2 ^ 8 + k),
    s.reg (Reg.SAFE_LDIAG_AC k), s.reg (Reg.SAFE_LDIAG_ZLO k), s.reg (Reg.SAFE_LDIAG_ZHI k)]

/-- A test that is admitted, on a channel of its own, begins as its mode has it. -/
def State.acBegins (s : State) (p : Packet) (k : Nat) : Res :=
  let a := begunTest p s k (pf p.payload 0 8 2 = 1)
  if pf p.payload 0 8 2 = 1 then
    if s.pstate = stPlay ∧ s.phase k = phPlay then .pend (s.acAnswer p k) [.chan k] (s.acTake (some a)) else .refuse stsDenied 2
  else if s.phase k ≠ phOff ∨ (s.spk k).on ∨ s.muted ∨ s.rd F.SAFE_SM_STAT_CSS = 2 then
    .done stsDenied 2 [] [] ((s.drives k).foldl (fun (s : State) k =>
      s.setReg (Reg.SAFE_LDIAG_AC k) (w32 (6 * 2 ^ 28 + b2n a.fcorr * 2 ^ 26))) s)
  else s.withDomains [dmGroup (k / 4)] fun z =>
    let s1 := z.acTake (some a)
    .pend (s.acAnswer p k) [.chan k] (if s1.on (F.OUT_G_STAT_PVDDOK (k / 4)) ∧ s1.carrierOn (k / 4) then s1.beginCheck k
      else s1.modSpk k fun x => { x with start := true })

section
variable {p : Packet} {s : State} {k : Fin 12} (own : s.master k.val = k.val) (named : pf p.payload 0 0 4 = k.val) (runs : s.suspended = false)
  (high : pf p.payload 0 16 8 ≤ 60) (free : s.testPending? = none ∧ s.chanBusy? [] [k.val] = none ∧ s.freeSlot? ≠ none)
include own named runs high free

theorem loadAcTest_begins (mode : pf p.payload 0 8 2 ≤ 1) (low : (if pf p.payload 0 8 2 = 1 then 30 else 20) ≤ pf p.payload 0 16 8) :
    ∃ body : State → Res, (∀ x, exec (.loadAcTest p) x = x.card cardLoadAcTest p body) ∧
      body (s.admitted cardLoadAcTest p) = (s.admitted cardLoadAcTest p).acBegins p k.val := by
  refine ⟨_, fun x => rfl, ?_⟩
  obtain ⟨idle, unbusy, -⟩ := free
  have going : ¬ (s.admitted cardLoadAcTest p).suspended = true := by
    rw [suspended_card, runs]
    decide
  have idle' := (admitted_testPending s cardLoadAcTest p).trans idle
  have unbusy' := (admitted_chanBusy s cardLoadAcTest p [] [k.val]).trans unbusy
  have own' : (s.admitted cardLoadAcTest p).master (pf p.payload 0 0 4) = k.val := by
    rw [admitted_master, named]
    exact own
  have first : ¬ (11 < pf p.payload 0 0 4 ∨ 1 < pf p.payload 0 8 2 ∨
      pf p.payload 0 16 8 < (if pf p.payload 0 8 2 = 1 then 30 else 20) ∨ 60 < pf p.payload 0 16 8) := by omega
  generalize s.admitted cardLoadAcTest p = x at *
  dsimp only
  rw [if_neg first, if_neg going, own', idle', unbusy']
  rfl

theorem loadAcTest_online (acc : Accepted cardLoadAcTest p s) (mode : pf p.payload 0 8 2 = 1) (low : 30 ≤ pf p.payload 0 16 8)
    (play : s.pstate = stPlay) (plays : s.phase k.val = phPlay) : Awaits (.loadAcTest p) cardLoadAcTest p s
      [w32 (3000 * 2 ^ 16 + 2 ^ 8 + k.val), s.reg (Reg.SAFE_LDIAG_AC k.val), s.reg (Reg.SAFE_LDIAG_ZLO k.val), s.reg (Reg.SAFE_LDIAG_ZHI k.val)]
      [.chan k.val] fun t => t.diag.ac = some (begunTest p s k.val true) ∧ Touches [] s t ∧ { s.over t with diag := s.diag } = s := by
  obtain ⟨body, run, begins⟩ := loadAcTest_begins own named runs high free (by omega) (by rw [if_pos mode]; exact low)
  have answer : (s.admitted cardLoadAcTest p).acAnswer p k.val = [w32 (3000 * 2 ^ 16 + 2 ^ 8 + k.val), s.reg (Reg.SAFE_LDIAG_AC k.val),
      s.reg (Reg.SAFE_LDIAG_ZLO k.val), s.reg (Reg.SAFE_LDIAG_ZHI k.val)] := by
    unfold State.acAnswer
    rw [if_pos mode, mode, reg_card s cardLoadAcTest p (ldiag_steady k (.inr (.inl rfl))),
      reg_card s cardLoadAcTest p (ldiag_steady k (.inr (.inr (.inl rfl)))), reg_card s cardLoadAcTest p (ldiag_steady k (.inr (.inr (.inr rfl)))),
      Nat.one_mul]
  have ready := (phase_card s cardLoadAcTest p k.isLt).trans plays
  have ready' := (admitted_pstate s cardLoadAcTest p).trans play
  have begun := begunTest_card p s cardLoadAcTest k.val true
  have frame : Frame { diag := true } (· ∈ []) s ((s.admitted cardLoadAcTest p).acTake (some (begunTest p s k.val true))) :=
    acTake_frame _ _ (Frame.admitted List.not_mem_nil s cardLoadAcTest p)
  have slot : ((s.admitted cardLoadAcTest p).acTake (some (begunTest p s k.val true))).freeSlot? ≠ none := by
    rw [acTake_freeSlot, admitted_freeSlot]
    exact free.2.2
  have test := acTake_ac (s.admitted cardLoadAcTest p) (some (begunTest p s k.val true))
  unfold State.acBegins at begins
  dsimp only at begins
  rw [if_pos mode, if_pos ⟨ready', ready⟩, answer, decide_eq_true mode, begun] at begins
  generalize (s.admitted cardLoadAcTest p).acTake (some (begunTest p s k.val true)) = u at *
  exact awaits_of_pend (run s) acc begins slot fun t but => ⟨(congrArg DiagX.ac (Frame.of_papol but).diag).trans test,
    (frame.papol but).touches, (frame.papol but).rest⟩

end

/-- What a channel looks like that the offline test can start. -/
structure Startable (s : State) (k : Nat) : Prop where
  off     : s.phase k = phOff
  stopped : (s.spk k).on = false
  heard   : s.muted = false
  safe    : s.rd F.SAFE_SM_STAT_CSS ≠ 2
  pvdd    : s.on (F.OUT_G_STAT_PVDDOK (k / 4)) = true
  carrier : s.carrierOn (k / 4) = true

theorem Startable.admitted {s : State} {k : Nat} (h : Startable s k) (few : k < 12) (c : CmdSpec) (p : Packet) : Startable (s.admitted c p) k := by
  have spks := (Frame.admitted (R := fun _ => False) (m := {}) id s c p).spks
  have out := (Frame.admitted (R := fun _ => False) (m := {}) id s c p).out
  refine ⟨(phase_card s c p few).trans h.off, ?_, ?_, ?_, (admitted_pvddOk s c p (by omega)).trans h.pvdd, ?_⟩
  · rw [spk_congr spks]
    exact h.stopped
  · unfold State.muted
    rw [out]
    exact h.heard
  · rw [rd_card s c p (by decide)]
    exact h.safe
  · exact (carrierOn_of (rd_card s c p (f := domBit (dmGroup (k / 4))) (show steady Reg.PWR_DOMSTAT = true by decide))
      (rd_card s c p (f := F.OUT_SW_OUTA_EN (k / 4)) (steady_above (show 0x100440 ≤ 0x303020 + 4 * (k / 4) by omega)))
      (on_card s c p (by decide)) (rd_card s c p (by decide)) (rd_card s c p (by decide))).trans h.carrier

theorem acTake_pvddOk (s : State) (o : Option AcTest) (g : Nat) : (s.acTake o).on (F.OUT_G_STAT_PVDDOK g) = s.on (F.OUT_G_STAT_PVDDOK g) := rfl

theorem acTake_carrierOn (s : State) (o : Option AcTest) (g : Nat) : (s.acTake o).carrierOn g = s.carrierOn g := rfl

/-- An offline test of a channel that can start begins with its Check. -/
theorem acBegins_check {s : State} {p : Packet} {k : Nat} (mode : pf p.payload 0 8 2 = 0) (h : Startable s k)
    (up : s.need (dmGroup (k / 4)) = some s) : s.acBegins p k =
      .pend (s.acAnswer p k) [.chan k] ((s.acTake (some (begunTest p s k false))).beginCheck k) := by
  obtain ⟨off, stopped, heard, safe, pvdd, carrier⟩ := h
  have online : ¬ pf p.payload 0 8 2 = 1 := by omega
  unfold State.acBegins
  dsimp only
  rw [if_neg online, if_neg, withDomains_up up, acTake_pvddOk, acTake_carrierOn, if_pos ⟨pvdd, carrier⟩, decide_eq_false online]
  rw [stopped, heard, off]
  rintro (e | e | e | e)
  · exact e rfl
  · exact absurd e (by decide)
  · exact absurd e (by decide)
  · exact safe e

section
variable {p : Packet} {s : State} {k : Fin 12} (own : s.master k.val = k.val) (named : pf p.payload 0 0 4 = k.val) (runs : s.suspended = false)
  (high : pf p.payload 0 16 8 ≤ 60) (free : s.testPending? = none ∧ s.chanBusy? [] [k.val] = none ∧ s.freeSlot? ≠ none)
include own named runs high free

theorem loadAcTest_offline (acc : Accepted cardLoadAcTest p s) (q : Quiet s) (mode : pf p.payload 0 8 2 = 0) (low : 20 ≤ pf p.payload 0 16 8)
    (start : Startable s k.val) (up : DomUp s (dmGroup (k.val / 4))) :
    ∃ ws', Awaits (.loadAcTest p) cardLoadAcTest p s ws' [.chan k.val] fun t =>
      (∃ b : Bool, t.diag.ac = some { begunTest p s k.val false with spoilt := b }) ∧ t.phase k.val = phCheck ∧
      (∀ m, m < 12 → m ≠ k.val → t.phase m = s.phase m) := by
  obtain ⟨body, run, begins⟩ := loadAcTest_begins own named runs high free (by omega) (by rw [if_neg (by omega)]; exact low)
  have ready := start.admitted k.isLt cardLoadAcTest p
  rw [acBegins_check mode ready (admitted_need up cardLoadAcTest p (show 0x10 ≤ dmGroup (k.val / 4) by unfold dmGroup; omega)),
    begunTest_card] at begins
  have phases : ∀ m, m < 12 → (s.admitted cardLoadAcTest p).phase m = s.phase m := fun m few => phase_card s cardLoadAcTest p few
  have stopped := ready.stopped
  have diag := admitted_diag s cardLoadAcTest p
  have saf := admitted_saf s cardLoadAcTest p
  have slot := admitted_freeSlot s cardLoadAcTest p
  generalize (s.admitted cardLoadAcTest p).acAnswer p k.val = ws at begins
  generalize card : s.admitted cardLoadAcTest p = x at *
  have first : (begunTest p s k.val false).stage = 0 ∧ (begunTest p s k.val false).online = false ∧ (begunTest p s k.val false).chan = k.val :=
    ⟨rfl, rfl, rfl⟩
  generalize begunTest p s k.val false = a at *
  obtain ⟨stage, offline, chan⟩ := first
  obtain ⟨b, t, moved, phase, others, room⟩ := modSpk_setPhase_goes (s := x.acTake (some a)) (a := a) (n := k.val) (ph := phCheck)
    (by rw [acTake_dc, diag]; exact q.dc) (acTake_ac x _) (by rw [acTake_saf, saf]; exact q.recs) chan k.isLt (by decide)
    (f := fun y => { y with start := false, why := 0, run := 0 }) (by rw [acTake_spk]; exact stopped)
    fun y at' stays => acBroken_offline offline stays (by rw [at']; decide) (fun _ => by rw [at']; decide) fun z => absurd z (by rw [stage]; decide)
  unfold State.beginCheck at begins
  rw [moved] at begins
  have open' : (t.acTake (some { a with spoilt := b })).freeSlot? ≠ none := by
    rw [acTake_freeSlot]
    refine room.freeSlot ?_
    rw [acTake_freeSlot, slot]
    exact free.2.2
  have test := acTake_ac t (some { a with spoilt := b })
  have kept : ∀ m, (t.acTake (some { a with spoilt := b })).phase m = t.phase m := acTake_phase t _
  generalize t.acTake (some { a with spoilt := b }) = u at *
  subst card
  refine ⟨ws, awaits_of_pend (run s) acc begins open' fun z but => ?_⟩
  have last := Frame.of_papol but
  have stays : ∀ m, m < 12 → z.phase m = u.phase m := fun m few => by
    have still : ∀ n : Fin 12, steady (F.OUT_SPK_STAT_PHASE n.val).addr = true := by decide
    exact last.rd_steady id (still ⟨m, few⟩)
  refine ⟨⟨b, (congrArg DiagX.ac last.diag).trans test⟩, ((stays _ k.isLt).trans (kept _)).trans phase, fun m few other => ?_⟩
  exact (stays m few).trans ((kept m).trans ((others m few other).trans ((acTake_phase _ _ m).trans (phases m few))))

end

end Sys2Proof.Machine
end

section
/-!
# The load tests and the jack give their results (spec/10_load_jack_diagnostics.md, R478 to R508)
-/

namespace Sys2Proof.Machine

-- One theorem after the other: in one text, theorems that wait for the kernel would each hold a thread.
set_option Elab.async false

theorem JackMoved.both {s t : State} (h : JackMoved s t) : Touches [Reg.SAFE_JACK_STAT, Reg.OUT_HPL_STAT, Reg.IN_FE_STAT] s t ∧
    { s.over t with hp := s.hp, hpcv := s.hpcv, inp := s.inp } = s := ⟨h.touches, h.rest⟩

/-- Settles O43: the end of a DC or AC test is exact beside the pending command that it ends, and a phase that moves under an offline test
can spoil no more of it than a window. -/
theorem loadTestsAndJackGiveResults : Obligations.LoadTestsAndJackGiveResults := by
  unfold Obligations.LoadTestsAndJackGiveResults
  refine ⟨fun p s n mohm cd q own single => ?_, fun p s ratio watched => ?_⟩
  · refine ⟨fun acc named runs free => ⟨fun off pvdd up => ?_, fun play => ?_⟩, fun tests slave uv ua comp rest sound => ?_,
      fun acc named runs high free => ⟨fun mode low play plays => ?_, fun mode low off stopped heard safe up pvdd carrier => ?_⟩,
      fun a chan offline off hold => ⟨fun tone => ?_, fun tone => ?_⟩, fun a chan online play whole silent =>
      ⟨fun clean few early => ?_, fun bad few early => ?_, fun bad few last => ?_, fun clean full => ?_⟩⟩
    · exact loadDcTest_takes named own single runs free acc off pvdd up
    · exact loadDcTest_skips named own single runs free acc play
    · exact loadDcChannelDone_stores single tests slave uv ua comp rest sound
    · exact loadAcTest_online own named runs high free acc mode low play plays
    · exact loadAcTest_offline own named runs high free acc q mode low ⟨off, stopped, heard, safe, pvdd, carrier⟩ up
    · exact acToneDone_low q chan offline off hold mohm cd tone
    · exact acToneDone_high q chan offline off hold mohm cd tone
    · exact acWindow_adds chan online play whole silent mohm cd clean few early
    · exact acWindow_discards chan online play whole silent mohm cd bad few early
    · exact acWindow_gives_up chan online play whole silent mohm cd single bad few last
    · exact acWindow_classes chan online play whole silent mohm cd single clean full
  · refine ⟨fun acc => jackStatus_answers acc, fun out => ?_, fun plugged => ?_, fun plugged poles named runs => ?_,
      fun senses => ⟨fun band other => buttonPress_presses senses band other, fun open' => buttonRelease_releases senses open'⟩⟩
    · obtain ⟨t, run, plug, ins, poles, moved⟩ := jackInsert_declares watched out
      exact ⟨t, run, plug, ins, poles, moved.both⟩
    · obtain ⟨t, run, plug, rem, poles, button, moved⟩ := jackRemove_declares watched plugged
      exact ⟨t, run, plug, rem, poles, button, moved.both⟩
    · obtain ⟨t, run, shown, found, bias, moved⟩ := jackClassify_classifies watched ratio plugged poles named runs
      exact ⟨t, run, shown, found, bias, moved.both⟩

end Sys2Proof.Machine
end
